-- ==== Sys2Proof/Word.lean ====
section
/-! DEFINITION. The plainest data of the model: words, sparse tables, events of the device's outside.

The device's registers are 32-bit words (R14); the model keeps each field as a Nat below 2^width, so a table of fields
is a list of (key, value) pairs. -/
namespace Sys2Proof

/-- A byte of a frame, a descriptor or a memory. -/
abbrev Byte := BitVec 8

/-- A sparse table: strictly rising keys, no entry equal to what an unlisted key reads as (the canonical form
`Machine.Tab.wf`; the operations are in Machine/Bits.lean). -/
abbrev Tab (α : Type) := List (Nat × α)

/-- Who reads or writes a register (R692, R695, R697; `CONFIG_REFUSED` codes 0, 1 and 2 of R520). -/
inductive Agent where
  | host | firmware | debugger
  deriving DecidableEq, Repr

end Sys2Proof
end

