-- ==== Sys2Proof/Syntax.lean ====
section
/-! DEFINITION. The commands of the device (spec/opcode_table.json), and the data that pass between the outside and the
device: returning frames, messages, descriptors, conversions, the boot flash. They are operands of commands. -/
namespace Sys2Proof

/-- One cell's telemetry slot (R269); with compact telemetry only the page of R270 is taken from it. Signed
quantities are numbers, not fields. -/
structure Slot where
  valid : Bool
  late : Bool
  blocked : Bool
  spillway : Bool
  tripped : Bool
  cmdLost : Bool
  starving : Bool
  cmdLoop : Bool
  endState : Nat
  trans : Nat
  curt : Bool
  aligned : Bool
  vlink : Nat
  portV : Nat
  portI : Int
  portP : Int
  soc : Nat
  tPack : Int
  tSw : Int
  tCool : Int
  packAlarm : Nat
  delta : Int
  fwdLat : Nat
  err : Nat
  tickLo : Nat
  charge : Int
  auxWord : Nat
  auxKind : Nat
  auxSeq : Nat
  tripCause : Nat
  reply : Bool
  deriving DecidableEq, Repr, Inhabited

/-- A slot that the node has not written: zeros (R269). -/
def Slot.zero : Slot :=
  ⟨false, false, false, false, false, false, false, false, 0, 0, false, false, 0, 0, 0, 0, 0, 0, 0, 0, 0, 0, 0, 0, 0, 0,
    0, 0, 0, 0, false⟩

/-- A code group on a lane (R262): a data byte, the special code group Kx.y, or a group that is invalid or has a
running-disparity error. -/
inductive Code where
  | data (b : Byte)
  | k (x y : Nat)
  | bad
  deriving DecidableEq, Repr

/-- A frame copy as it comes back on a lane (R262, R272, R279): the code groups received on the lane since the copy
before it, and the round trip measured for it in 0.25 ns (R275). -/
structure FrameIn where
  codes : List Code
  roundTrip : Nat
  deriving DecidableEq, Repr

/-- The safe-message PDU of R433, field by field as its bytes spell it; `rsv14` and `rsv36` are its reserved bytes. -/
structure Pdu where
  protoId : Nat
  version : Nat
  ty : Nat
  connId : Nat
  seqNo : Nat
  flags : Nat
  rsv14 : Nat
  p : Int
  q : Int
  ilim : Nat
  plim : Nat
  ulo : Nat
  uhi : Nat
  paramCv : Nat
  echoSeq : Nat
  rsv36 : Nat
  crc : Nat
  deriving DecidableEq, Repr

/-- An Ethernet frame on a safe-message port (R432): the two addresses with the byte first on the wire lowest, the
EtherType, the 48 bytes of payload by their fields, and the FCS received. -/
structure EthFrame where
  dst : Nat
  src : Nat
  etherType : Nat
  pdu : Pdu
  fcs : Nat
  deriving DecidableEq, Repr

/-- The header of a command or BUFFER descriptor (R504): the ring it is on, FENCE, TAG. -/
structure DescHdr where
  ring : Fin 64
  fence : Bool
  tag : Nat
  deriving DecidableEq, Repr

/-- A write on one member's write port (R468): address, data, byte enables. -/
structure PortWrite where
  addr : Nat
  data : Nat
  be : Nat
  deriving DecidableEq, Repr

/-- What a host-memory read returned (R508 codes 0x13, 0x16): data, or UR, CA or poison. -/
inductive ReadData where
  | entry (v : Nat)
  | bytes (l : List Byte)
  | error
  deriving DecidableEq, Repr

/-- Which read a host-memory completion or timeout belongs to: an outstanding job of the walker, or the fetch of a
ring's next descriptor. -/
inductive ReadOf where
  | job (id : Nat)
  | fetch (ring : Fin 64)
  deriving DecidableEq, Repr

/-- What a writer of the triad's commit is executing (R469). -/
inductive Entry where
  | reset | tick | background | migrate
  deriving DecidableEq, Repr

/-- The members A, B and C (R457). -/
inductive Member where
  | a | b | c
  deriving DecidableEq, Repr

/-- What the comparison of the running members' copies of an output finds (R468): all equal, one member odd against two
equal ones, or no two equal. -/
inductive Agree where
  | all
  | odd (m : Member)
  | split
  deriving DecidableEq, Repr

/-- A member's sample of a host register write (R466): BAR2 offset, byte enables, data. -/
structure WriteCopy where
  off : Nat
  be : Nat
  value : Nat
  deriving DecidableEq, Repr

/-- The wake sources of R641, by their bit of `PWR_WAKE_EN`. -/
inductive WakeSrc where
  | doorbell | ring | safety | alarm
  deriving DecidableEq, Repr

/-- Conversions of the sixteen converters at consecutive edges of ADCPLL, oldest first (R341, R346): E of each edge, and
per converter its codes at those edges. -/
structure Stream where
  edges : List Nat
  codes : List (List Int)
  deriving DecidableEq, Repr

/-- The payload of a SETPOINT descriptor (R505). -/
structure SetVals where
  present : Nat
  p : Int
  q : Int
  ilim : Nat
  plim : Nat
  ulo : Nat
  uhi : Nat
  eSet : Nat
  deriving DecidableEq, Repr

/-- What a motor channel's observer gives at a speed-loop step (R593, R594, R597): speed in rpm, angle from the
open-loop angle in degrees. -/
structure Observer where
  speed : Nat
  angle : Int
  deriving DecidableEq, Repr

/-- What the diagnostics measure (R592): VAUX, each switch node's lowest and highest voltage within the last bias step, and
the differences of the pairs (U,V), (V,W) and (W,U), all in mV. -/
structure DiagIn where
  vaux : Nat
  node : List (Nat × Nat)
  pair : List Nat
  deriving DecidableEq, Repr

/-- A PWM period's samples (R595): the low-side on-times of the three legs around the centre in ns, their currents in mA, the rotor angle in
millidegrees, the back-EMF in mV; per switch, in the order U high, U low to W low, the ns from the complementary switch's
turn-off command until that switch's gate falls below 2.0 V (R589); what the comparison of the update's copies found
(R23). -/
structure PhaseSample where
  low : List Nat
  iu : Int
  iv : Int
  iw : Int
  angle : Int
  emf : Int
  gate : List Nat
  agree : Agree
  deriving DecidableEq, Repr

/-- What an oasis tick samples (R642 to R645): VDDIO_33 present, VDD_CORE present, the voltage on KA_CT in
µV, KA_VIN in mV. -/
structure OasisIn where
  vddio : Bool
  core : Bool
  ct : Int
  vin : Nat
  deriving DecidableEq, Repr

/-- A commissioning block (R639): GEN, life-cycle state, confirmed value, RWS register values, whether its CRC and
signature are good. -/
structure CommBlock where
  gen : Nat
  lc : Nat
  confirm : Nat
  regs : List (Nat × Nat)
  good : Bool
  deriving DecidableEq, Repr

/-- The boot flash (R636): SELECT, public key, header check good, the two image slots, the commissioning blocks. -/
structure Flash where
  select : Nat
  pubKey : List Byte
  headerGood : Bool
  slot0 : List Byte
  slot1 : List Byte
  blockA : CommBlock
  blockB : CommBlock
  deriving DecidableEq, Repr

/-- What a bring-up run finds (R635, R636, R648, R649): the boot flash, the members' start-up BIST results, whether an
essential block failed, and whether the journal FRAM answers and holds a valid header, and the FRAM addresses whose
bytes read wrong, so that what holds them fails its check. -/
structure BootRun where
  flash : Flash
  bistFail : Nat
  essential : Bool
  journal : Bool
  header : Bool
  bad : List Nat
  deriving DecidableEq, Repr



/-- What the converters bring at S0 (R349, R360, R361, R466): every conversion since the one that the last tick's S0 took in
last, and the members whose copy of a converter's codes differs. -/
structure AdcIn where
  conv : Stream
  skew : List (Member × Fin 16 × List Int)
  deriving DecidableEq, Repr

/-- How a launch finds the frames at the S3 deadline (R36, R468): S3 has finished, and what the comparison of the dispatch
copies found. -/
structure LaunchIn where
  done : Bool
  agree : Agree
  deriving DecidableEq, Repr

/-- An ordered set on the return lane of a loop: its special code group and its value code group (R262, R263). -/
structure OrderIn where
  loop : Fin 2
  mark : Code
  value : Code
  deriving DecidableEq, Repr

/-- What a leg's short-circuit detectors see (R403, R404): the current, its slope, and E since when the switch has been on. -/
structure LegSense where
  amps : Nat
  slope : Nat
  on : Nat
  deriving DecidableEq, Repr

/-- Channel A or B of a safety input, its raw level, and E since when it has stood (R423, R424). -/
structure ChannelLevel where
  chB : Bool
  level : Bool
  since : Nat
  deriving DecidableEq, Repr

/-- A doorbell's value, and the members' copies that differ (R466, R500). -/
structure BellIn where
  value : Nat
  skew : List (Member × Nat)
  deriving DecidableEq, Repr

/-- A descriptor that has no row of its own: its opcode, and the CELL that it names where the opcode has one (R505, R506). -/
structure OtherDesc where
  opcode : Nat
  cell : Nat
  deriving DecidableEq, Repr

/-- What a write of configuration space leaves: whether the function is in D3hot, and base and size of the BARs that it
decodes (R495, R496, R515). -/
structure ConfigIn where
  d3hot : Bool
  bars : List (Nat × Nat)
  deriving DecidableEq, Repr

/-- The COMPLETION ring of a waiting entry, and what the comparison of its copies found (R468, R510). -/
structure PostIn where
  ring : Fin 64
  agree : Agree
  deriving DecidableEq, Repr

/-- A read: its offset from the registers' place in the core map, and the members' samples of the value that differ (R459,
R466). The debugger also reads the core address space and the core's registers through it (log entry 128). -/
structure ReadIn where
  off : Nat
  skew : List (Member × Nat)
  deriving DecidableEq, Repr

/-- A ring whose wadi frame is due, and what the comparison of the frame's copies found (R294, R468). -/
structure WadiIn where
  ring : Fin 16
  agree : Agree
  deriving DecidableEq, Repr

/-- The word of a register write, and the members' samples of the write that differ (R466). -/
structure WordIn where
  value : Nat
  skew : List (Member × WriteCopy)
  deriving DecidableEq, Repr

/-- The commands and events that act on the device: one constructor per row of spec/opcode_table.json. `t` is the
instant of the time base E in ns (R624); `h` is a descriptor's header (R504). -/
inductive Instr where
  /-- TICK_BOUNDARY (R703). -/
  | tickBoundary (t : Nat)
  /-- S0_DEADLINE (R461). -/
  | s0Deadline (x : AdcIn) (done : Bool) (used : Nat) (t : Nat)
  /-- S1_DEADLINE (R36). -/
  | s1Deadline (t : Nat)
  /-- S2_DEADLINE (R36). -/
  | s2Deadline (done : Bool) (used : Nat) (t : Nat)
  /-- S3_DEADLINE (R38). -/
  | s3Deadline (x : LaunchIn) (used : Nat) (t : Nat)
  /-- S4_DEADLINE (R279). -/
  | s4Deadline (done : Bool) (used : Nat) (t : Nat)
  /-- S5_DEADLINE (R38). -/
  | s5Deadline (done : Bool) (used : Nat) (untaken : List (Fin 240)) (t : Nat)
  /-- TEND (R469). -/
  | tend (t : Nat)
  /-- CLK_TICK_CFG_WRITE (R26). -/
  | clkTickCfgWrite (value : Nat)
  /-- PERIOD_CHANGE (R26). -/
  | periodChange (t : Nat)
  /-- CLK_TICK_DEADLINE_WRITE (R30). -/
  | clkTickDeadlineWrite (n : Fin 6) (value : Nat)
  /-- CLK_SHED_CFG_WRITE (R44). -/
  | clkShedCfgWrite (value : Nat)
  /-- SHED_LEVEL_CLAMP (R44). -/
  | shedLevelClamp
  /-- SHED_LEVEL_FALL (R44). -/
  | shedLevelFall (t : Nat)
  /-- DIAG_DEFERRED (R42). -/
  | diagDeferred (t : Nat)
  /-- HGS_CELL_CFG_WRITE (R59). -/
  | hgsCellCfgWrite (cell : Fin 240) (value : Nat) (ag : Agent)
  /-- HGS_PLANT_RATING_WRITE (R61). -/
  | hgsPlantRatingWrite (cur : Bool) (value : Nat) (ag : Agent)
  /-- DERATE_ROW_DOWN (R65). -/
  | derateRowDown (t : Nat)
  /-- DERATE_ROW_UP (R65). -/
  | derateRowUp (t : Nat)
  /-- HGS_TABLE_SWAP (R102). -/
  | hgsTableSwap
  /-- HGS_SWAP_APPLY (R102). -/
  | hgsSwapApply
  /-- CTL_MODE_WRITE (R132). -/
  | ctlModeWrite (value : Nat)
  /-- MODE_TRANSFER (R133). -/
  | modeTransfer
  /-- FORCED_AUTO (R135). -/
  | forcedAuto
  /-- CTL_MANUAL_WRITE (R134). -/
  | ctlManualWrite (value : Nat)
  /-- CTL_TABLE_SWAP (R137). -/
  | ctlTableSwap (ag : Agent)
  /-- CTL_SWAP_APPLY (R138). -/
  | ctlSwapApply
  /-- LOCK_ACQUIRED (R157). -/
  | lockAcquired
  /-- LOCK_LOST (R157). -/
  | lockLost
  /-- SYNC_PLL_CFG_WRITE (R176). -/
  | syncPllCfgWrite (value : Nat)
  /-- SYNC_MODE_WRITE (R168). -/
  | syncModeWrite (value : Nat) (ag : Agent)
  /-- GFM_TRANSFER (R167). -/
  | gfmTransfer
  /-- RECOVERY_ENTRY (R169). -/
  | recoveryEntry
  /-- TRIP_CURVE_EXPIRY (R173). -/
  | tripCurveExpiry (curve : Fin 4) (stage : Fin 8) (t : Nat)
  /-- ENTER_SERVICE_QUALIFIED (R174). -/
  | enterServiceQualified
  /-- FRT_TABLE_SWAP (R175). -/
  | frtTableSwap (ag : Agent)
  /-- FRT_SWAP_APPLY (R176). -/
  | frtSwapApply
  /-- SETPOINT_APPLY (R177). -/
  | setpointApply
  /-- CHIP_BOUNDARY (R200). -/
  | chipBoundary (t : Nat)
  /-- PROBE_FAULT (R205). -/
  | probeFault (t : Nat)
  /-- ROCOF_DETECT (R211). -/
  | rocofDetect (t : Nat)
  /-- MIR_TABLE_SWAP (R217). -/
  | mirTableSwap (ag : Agent)
  /-- MIR_SWAP_APPLY (R217). -/
  | mirSwapApply
  /-- MIR_BASE_WRITE (R210). -/
  | mirBaseWrite (value : Nat)
  /-- MIR_ISLAND_CLEAR (R212). -/
  | mirIslandClear
  /-- DITHER_PERIOD_BOUNDARY (R227). -/
  | ditherPeriodBoundary (t : Nat)
  /-- TRACKER_STEP (R229). -/
  | trackerStep (t : Nat)
  /-- SCAN_PERIODIC_DUE (R232). -/
  | scanPeriodicDue (cell : Fin 240) (t : Nat)
  /-- PORT_SCAN_REQ (R257). -/
  | portScanReq (cell : Nat)
  /-- PORT_SCAN_ALL (R257). -/
  | portScanAll
  /-- SCAN_POINT_DONE (R234). -/
  | scanPointDone (cell : Fin 240) (t : Nat)
  /-- PORT_PV_CFG_WRITE (R228). -/
  | portPvCfgWrite (cell : Fin 240) (value : Nat)
  /-- PORT_PACK_WRITE (R240). -/
  | portPackWrite (reg : Fin 4) (cell : Fin 240) (value : Nat)
  /-- PORT_TABLE_SWAP (R243). -/
  | portTableSwap (ag : Agent)
  /-- PORT_SWAP_APPLY (R243). -/
  | portSwapApply
  /-- FRAME_RETURN (R279). -/
  | frameReturn (ring : Fin 16) (loop : Fin 2) (f : FrameIn) (t : Nat)
  /-- TR_RECEIVED (R285). -/
  | trReceived (ring : Fin 16) (loop : Fin 2) (mark value : Code) (t : Nat)
  /-- JR_RECEIVED (R292). -/
  | jrReceived (ring : Fin 16) (x : OrderIn) (t : Nat)
  /-- GRANT_LAPSE (R292). -/
  | grantLapse (cell : Fin 240)
  /-- DELAYS_ACCEPTED (R293). -/
  | delaysAccepted (cell : Fin 240)
  /-- ALIGN_TIMEOUT (R293). -/
  | alignTimeout (cell : Fin 240)
  /-- LOOP_DOWN (R282). -/
  | loopDown (ring : Fin 16) (loop : Fin 2)
  /-- LOOP_UP (R282). -/
  | loopUp (ring : Fin 16) (loop : Fin 2)
  /-- LANE_LOCK_LOSS (R302). -/
  | laneLockLoss (lane : Fin 32)
  /-- CELL_LOST (R290). -/
  | cellLost (cell : Fin 240)
  /-- AUX_RESEND_TIMEOUT (R271). -/
  | auxResendTimeout (cell : Fin 240)
  /-- WADI_FRAME_DUE (R294). -/
  | wadiFrameDue (x : WadiIn) (t : Nat)
  /-- LINK_GO_FULL (R295). -/
  | linkGoFull (rings : Nat) (t : Nat)
  /-- LINK_GO_WADI (R295). -/
  | linkGoWadi (rings : Nat) (t : Nat)
  /-- RATE_CHANGE_TIMEOUT (R295). -/
  | rateChangeTimeout (ring : Fin 16) (t : Nat)
  /-- AUTO_FULL_RATE (R296). -/
  | autoFullRate (ring : Fin 16) (t : Nat)
  /-- LINK_RING_EN_WRITE (R261). -/
  | linkRingEnWrite (value : Nat) (t : Nat)
  /-- LINK_CFG_WRITE (R40). -/
  | linkCfgWrite (value : Nat)
  /-- SPILL_TIMEOUT (R312). -/
  | spillTimeout (cell : Fin 240)
  /-- CELL_REMOVE (R320). -/
  | cellRemove (h : DescHdr) (cell : Nat)
  /-- CELL_RETURN (R321). -/
  | cellReturn (h : DescHdr) (cell : Nat)
  /-- CELL_NODE_FW (R322). -/
  | cellNodeFw (h : DescHdr) (cell : Nat) (len : Nat) (addr : Nat)
  /-- RETURN_TRIP_TIMEOUT (R321). -/
  | returnTripTimeout (cell : Fin 240)
  /-- VERIFY_PASS (R327). -/
  | verifyPass (cell : Fin 240) (t : Nat)
  /-- VERIFY_TIMEOUT (R327). -/
  | verifyTimeout (cell : Fin 240) (t : Nat)
  /-- PRECHARGE_TIMEOUT (R328). -/
  | prechargeTimeout (cell : Fin 240) (t : Nat)
  /-- PRECHARGE_DONE (R330). -/
  | prechargeDone (cell : Fin 240) (t : Nat)
  /-- RAMP_COMPLETE (R331). -/
  | rampComplete (cell : Fin 240)
  /-- RAMP_OUT_COMPLETE (R320). -/
  | rampOutComplete (cell : Fin 240)
  /-- TRIGGER_FIRE (R354). -/
  | triggerFire (trig : Fin 16) (conv : Stream) (t : Nat)
  /-- ADC_SW_TRIG (R379). -/
  | adcSwTrig (value : Nat) (t : Nat)
  /-- QUEUE_BURST_TIMEOUT (R359). -/
  | queueBurstTimeout (q : Fin 8) (t : Nat)
  /-- CAPTURE_ARM (R358). -/
  | captureArm (q : Fin 8)
  /-- ADC_Q_CFG_WRITE (R380). -/
  | adcQCfgWrite (q : Fin 8) (value : Nat)
  /-- HK_ROUND_START (R362). -/
  | hkRoundStart (t : Nat)
  /-- HK_ROUND_DONE (R363). -/
  | hkRoundDone (res : List Nat) (t : Nat)
  /-- COMPARATOR_ACTIVE (R366). -/
  | comparatorActive (n : Fin 16) (input : Int) (t : Nat)
  /-- CMP_LATCH_CLEAR (R367). -/
  | cmpLatchClear (value : Nat) (t : Nat)
  /-- CMP_CFG_WRITE (R368). -/
  | cmpCfgWrite (n : Fin 16) (ramp : Bool) (value : Nat)
  /-- ADC_CH_CFG_WRITE (R345). -/
  | adcChCfgWrite (n : Fin 16) (value : Nat)
  /-- ADC_CH_CAL_WRITE (R344). -/
  | adcChCalWrite (n : Fin 16) (value : Nat)
  /-- ADC_CTL_CFG_WRITE (R350). -/
  | adcCtlCfgWrite (value : Nat)
  /-- ADC_CAL_CONVERGED (R370). -/
  | adcCalConverged (n : Fin 16)
  /-- SLC_STOP (R422). -/
  | slcStop (t : Nat)
  /-- SLC_STOP_BRK (R422). -/
  | slcStopBrk (t : Nat)
  /-- SLC_BRK_RESET (R409). -/
  | slcBrkReset (t : Nat)
  /-- SLC_CELL_BLK (R411). -/
  | slcCellBlk (cell : Nat) (t : Nat)
  /-- TRIP_IN (R394). -/
  | tripIn (high : Nat) (t : Nat)
  /-- BLANK_WINDOW_CLOSE (R401). -/
  | blankWindowClose (n : Fin 16) (t : Nat)
  /-- DRIVE_SHORT (R405). -/
  | driveShort (m : Fin 2) (leg : Fin 3) (x : LegSense) (t : Nat)
  /-- DRIVE_SC_CLEAR (R406). -/
  | driveScClear (value : Nat) (t : Nat)
  /-- SLC_LATCH_CLEAR (R407). -/
  | slcLatchClear (value : Nat) (t : Nat)
  /-- DEBUG_STARVE (R412). -/
  | debugStarve
  /-- SAFETY_INPUT_DEMAND (R424). -/
  | safetyInputDemand (n : Fin 8) (x : ChannelLevel) (t : Nat)
  /-- SAFETY_INPUT_RELEASE (R424). -/
  | safetyInputRelease (n : Fin 8) (x : ChannelLevel) (t : Nat)
  /-- DISCREPANCY (R425). -/
  | discrepancy (n : Fin 8) (t : Nat)
  /-- TEST_PULSE (R426). -/
  | testPulse (chB : Bool) (low : Nat) (t : Nat)
  /-- BRK_FEEDBACK_TIMEOUT (R428). -/
  | brkFeedbackTimeout (n : Fin 8) (t : Nat)
  /-- SAFE_MESSAGE_RX (R435). -/
  | safeMessageRx (net : Fin 2) (m : EthFrame) (t : Nat)
  /-- COPY_SKEW_TIMEOUT (R435). -/
  | copySkewTimeout (t : Nat)
  /-- SAFE_WDOG_EXPIRY (R436). -/
  | safeWdogExpiry (t : Nat)
  /-- SAFE_MESSAGE_TX (R434). -/
  | safeMessageTx (t : Nat)
  /-- SAFE_CV_DONE (R439). -/
  | safeCvDone
  /-- SAFE_CONFIRM_WRITE (R440). -/
  | safeConfirmWrite (value : Nat) (ag : Agent)
  /-- CRC_CFG_WRITE (R446). -/
  | crcCfgWrite (value : Nat)
  /-- CRC_DATA_WRITE (R446). -/
  | crcDataWrite (size : Fin 3) (value : Nat)
  /-- CRC_SEED_WRITE (R446). -/
  | crcSeedWrite (value : Nat)
  /-- WRITE_COMMIT (R468). -/
  | writeCommit (en : Entry) (a : Option PortWrite) (b : Option PortWrite) (c : Option PortWrite) (t : Nat)
  /-- TCM_ECC_ERROR (R471). -/
  | tcmEccError (m : Member) (addr : Nat) (t : Nat)
  /-- REBUILD_RESET_DONE (R472). -/
  | rebuildResetDone (t : Nat)
  /-- REBUILD_COPY_DONE (R472). -/
  | rebuildCopyDone (t : Nat)
  /-- REBUILD_VERIFY_DONE (R473). -/
  | rebuildVerifyDone (diff : Option Nat) (t : Nat)
  /-- REBUILD_REJOIN (R472). -/
  | rebuildRejoin
  /-- SCRUB_SWEEP (R474). -/
  | scrubSweep (diff : Option (Member × Nat)) (t : Nat)
  /-- TRAP (R464). -/
  | trap (en : Entry) (pc : Nat) (cause : Nat)
  /-- TREADY (R461). -/
  | tready
  /-- TRI_RESTART (R476). -/
  | triRestart (t : Nat)
  /-- DEBUG_HALT (R478). -/
  | debugHalt
  /-- DEBUG_RESUME (R479). -/
  | debugResume
  /-- DEBUG_SINGLE_STEP (R478). -/
  | debugSingleStep
  /-- DEBUG_BREAKPOINT (R478). -/
  | debugBreakpoint
  /-- DEBUG_WRITE (R478). -/
  | debugWrite (w : PortWrite) (t : Nat)
  /-- FW_STAGE (R481). -/
  | fwStage (h : DescHdr) (offset : Nat) (len : Nat) (last : Bool) (differ : Bool) (addr : Nat)
  /-- FW_SWAP (R481). -/
  | fwSwap (h : DescHdr)
  /-- SWAP_TICK (R481). -/
  | swapTick
  /-- FW_SWAP_REVERT (R482). -/
  | fwSwapRevert
  /-- DOORBELL (R500). -/
  | doorbell (ring : Fin 64) (x : BellIn)
  /-- RING_ENABLE (R502). -/
  | ringEnable (ring : Fin 64) (cfg : Nat)
  /-- RING_STOP (R502). -/
  | ringStop (ring : Fin 64)
  /-- RING_STOPPED (R502). -/
  | ringStopped (ring : Fin 64)
  /-- RING_RESTART (R502). -/
  | ringRestart (ring : Fin 64)
  /-- RING_RESET (R502). -/
  | ringReset (ring : Fin 64)
  /-- NOP (R505). -/
  | nop (h : DescHdr)
  /-- SETPOINT (R506). -/
  | setpoint (h : DescHdr) (v : SetVals)
  /-- CONVERTER_RELEASE (R408). -/
  | converterRelease (h : DescHdr) (t : Nat)
  /-- CONVERTER_STOP (R506). -/
  | converterStop (h : DescHdr) (t : Nat)
  /-- CONVERTER_STOP_BRK (R506). -/
  | converterStopBrk (h : DescHdr) (t : Nat)
  /-- CONVERTER_BRK_RESET (R506). -/
  | converterBrkReset (h : DescHdr) (t : Nat)
  /-- FURROW_LOAD (R326). -/
  | furrowLoad (h : DescHdr) (cell : Nat) (kind : Nat) (len : Nat) (addr : Nat)
  /-- LEASE (R551). -/
  | lease (h : DescHdr) (cell : Nat) (id : Nat) (floor : Nat) (ceiling : Nat) (allow : Nat)
  /-- HOST_TIME (R506). -/
  | hostTime (h : DescHdr) (wall : Nat)
  /-- CAPTURE (R358). -/
  | capture (h : DescHdr) (queues : Nat)
  /-- JOURNAL_READ (R558). -/
  | journalRead (h : DescHdr) (first : Nat) (count : Nat) (addr : Nat)
  /-- BUFFER (R505). -/
  | buffer (h : DescHdr) (len : Nat) (addr : Nat)
  /-- BAD_OPCODE (R505). -/
  | badOpcode (h : DescHdr) (x : OtherDesc)
  /-- BUFFER_TIMEOUT (R505). -/
  | bufferTimeout (ring : Fin 64) (t : Nat)
  /-- HOST_READ_COMPLETION (R514). -/
  | hostReadCompletion (of : ReadOf) (data : ReadData) (t : Nat)
  /-- HOST_READ_TIMEOUT (R508). -/
  | hostReadTimeout (of : ReadOf) (t : Nat)
  /-- COMPLETION_POST (R510). -/
  | completionPost (x : PostIn)
  /-- EVENTS_LOST (R519). -/
  | eventsLost (ring : Fin 64)
  /-- MSIX_COALESCE_TIMEOUT (R521). -/
  | msixCoalesceTimeout (ring : Fin 64) (t : Nat)
  /-- WALK_INVALIDATE (R516). -/
  | walkInvalidate (value : Nat)
  /-- WALK_INVALIDATE_DONE (R516). -/
  | walkInvalidateDone
  /-- HOST_WALK_ROOT_WRITE (R516). -/
  | hostWalkRootWrite (hi : Bool) (value : Nat)
  /-- FUNCTION_LEVEL_RESET (R494). -/
  | functionLevelReset
  /-- POWER_STATE_CHANGE (R495). -/
  | powerStateChange (x : ConfigIn)
  /-- METER_LATCH (R545). -/
  | meterLatch (t : Nat)
  /-- RECORD_SIGNED (R546). -/
  | recordSigned (t : Nat)
  /-- SNAPSHOT_COMMITTED (R555). -/
  | snapshotCommitted
  /-- LEASE_COMMITTED (R555). -/
  | leaseCommitted (cell : Fin 240)
  /-- PF_WARN (R560). -/
  | pfWarn (t : Nat)
  /-- POWERFAIL_FREEZE (R560). -/
  | powerfailFreeze (t : Nat)
  /-- PF_WARN_DEASSERT (R633). -/
  | pfWarnDeassert (t : Nat)
  /-- MTR_CAL_SWAP (R566). -/
  | mtrCalSwap
  /-- MTR_CAL_SWAP_APPLY (R566). -/
  | mtrCalSwapApply
  /-- MTR_PORT_SNAPSHOT_READ (R574). -/
  | mtrPortSnapshotRead (ag : Agent)
  /-- WEIR_TIMER_EXPIRY (R585). -/
  | weirTimerExpiry (t : Nat)
  /-- THERMAL_STALE (R583). -/
  | thermalStale (t : Nat)
  /-- AUX_START (R591). -/
  | auxStart (m : Fin 2) (t : Nat)
  /-- AUX_STOP (R596). -/
  | auxStop (m : Fin 2) (t : Nat)
  /-- AUX_DIAG (R592). -/
  | auxDiag (m : Fin 2) (t : Nat)
  /-- AUX_DIAG_DONE (R592). -/
  | auxDiagDone (m : Fin 2) (x : DiagIn) (t : Nat)
  /-- AUX_ALIGN_DONE (R591). -/
  | auxAlignDone (m : Fin 2) (t : Nat)
  /-- AUX_HANDOVER (R593). -/
  | auxHandover (m : Fin 2) (t : Nat)
  /-- AUX_SPEED_LOOP (R594). -/
  | auxSpeedLoop (m : Fin 2) (obs : Observer) (t : Nat)
  /-- AUX_PWM_PERIOD (R595). -/
  | auxPwmPeriod (m : Fin 2) (cur : PhaseSample) (t : Nat)
  /-- AUX_WINDOW_CAP (R595). -/
  | auxWindowCap (m : Fin 2)
  /-- KE_MEASURED (R597). -/
  | keMeasured (m : Fin 2) (ke : Nat) (t : Nat)
  /-- VAUX_UV (R590). -/
  | vauxUv (vaux : Nat) (t : Nat)
  /-- VAUX_UV_RECOVER (R590). -/
  | vauxUvRecover (vaux : Nat) (t : Nat)
  /-- VAUX_OV (R590). -/
  | vauxOv (vaux : Nat) (t : Nat)
  /-- CP_UV (R590). -/
  | cpUv (vcp : Nat) (t : Nat)
  /-- REGEN_LIMIT (R596). -/
  | regenLimit (vaux : Nat) (t : Nat)
  /-- REGEN_CLEAR (R596). -/
  | regenClear (vaux : Nat) (t : Nat)
  /-- REF_VOTE_UPDATE (R616). -/
  | refVoteUpdate (dxa : Int) (dxb : Int) (dab : Int) (t : Nat)
  /-- REF_LOST (R615). -/
  | refLost (src : Fin 3) (t : Nat)
  /-- REF_VALID (R615). -/
  | refValid (src : Fin 3) (t : Nat)
  /-- REF_READMIT (R616). -/
  | refReadmit (src : Fin 3) (t : Nat)
  /-- REF_SELECT_MOVE (R617). -/
  | refSelectMove (t : Nat)
  /-- REF_COAST_END (R619). -/
  | refCoastEnd (t : Nat)
  /-- PLL_DIVIDER_UPDATE (R621). -/
  | pllDividerUpdate
  /-- PLL_LOCK_LOST (R623). -/
  | pllLockLost (p : Fin 3) (t : Nat)
  /-- PLL_LOCKED (R623). -/
  | pllLocked (p : Fin 3) (t : Nat)
  /-- CLK_PLL_SEED_WRITE (R622). -/
  | clkPllSeedWrite (p : Fin 3) (value : Nat)
  /-- ALARM (R627). -/
  | alarm (t : Nat)
  /-- ELAPSED_READ (R624). -/
  | elapsedRead (ag : Agent)
  /-- ALIGN_OFS_READ (R697). -/
  | alignOfsRead (ag : Agent)
  /-- PPS_EDGE (R629). -/
  | ppsEdge (t : Nat) (n : Nat)
  /-- PPS_MISSING (R629). -/
  | ppsMissing (t : Nat)
  /-- PPS_STEP (R630). -/
  | ppsStep (t : Nat)
  /-- SYNC_SEC_WRITE (R628). -/
  | syncSecWrite (value : Nat)
  /-- MAIN_POWER_ON (R631). -/
  | mainPowerOn
  /-- RAIL_RESET (R632). -/
  | railReset
  /-- BRINGUP_STAGE (R634). -/
  | bringupStage (boot : Option BootRun) (t : Nat)
  /-- PERSIST (R638). -/
  | persist (t : Nat)
  /-- PERSIST_DONE (R638). -/
  | persistDone (ok : Bool)
  /-- SLEEP (R640). -/
  | sleep (t : Nat)
  /-- WAKE (R641). -/
  | wake (src : WakeSrc) (t : Nat)
  /-- SHUTDOWN (R647). -/
  | shutdown (t : Nat)
  /-- SHUTDOWN_DONE (R647). -/
  | shutdownDone (fail : Nat) (t : Nat)
  /-- OASIS_TICK (R643). -/
  | oasisTick (o : OasisIn)
  /-- OASIS_COLD_START (R642). -/
  | oasisColdStart
  /-- OASIS_TRIM (R643). -/
  | oasisTrim (ppm : Int) (t : Nat)
  /-- LC_TRANSITION (R651). -/
  | lcTransition (value : Nat) (ag : Agent) (t : Nat)
  /-- FWKEY_FUSE (R651). -/
  | fwkeyFuse
  /-- REGISTER_WRITE (R14). -/
  | registerWrite (ag : Agent) (off : Nat) (be : Nat) (x : WordIn) (t : Nat)
  /-- RC_FIELD_READ (R14). -/
  | rcFieldRead (ag : Agent) (x : ReadIn) (t : Nat)
  /-- CODE_GROUP_LOCK (R295). -/
  | codeGroupLock (ring : Fin 16) (t : Nat)
  /-- RESET_N_ASSERTED (R631). -/
  | resetNAsserted
  deriving DecidableEq, Repr

end Sys2Proof
end

