-- ==== Sys2Proof/Decode.lean ====
section
/-! DEFINITION. The commands of this block carry no encoding: spec/opcode_table.json gives no row any bits, so no word
spells a command. -/
namespace Sys2Proof

/-- The command that a word of `nbits` bits spells by the table's bits: none, for no row has bits. -/
def decodeTableWord (_nbits _w : Nat) : Option Instr := none

end Sys2Proof
end

