-- ==== Sys2Proof/Config.lean ====
section
/-! DEFINITION. What the spec leaves open, and the mathematics it names without an arithmetic: constants with no body, so
that no proof can rest on a value of them (log entries 1 and 2). -/
namespace Sys2Proof.Config

/-- A value the spec does not state, by the place that asks for it. -/
opaque unstated : Nat → Nat

/-- The result of a division by zero that the spec does not state: of the dividend (log entry 1). -/
opaque divZero : Rat → Rat

/-- Which neighbour a value halfway between two register steps is shown as: place and value (log entry 2). -/
opaque tieUp : Nat → Rat → Bool

/-- The byte of a snapshot that holds a cell's two flags, gap open and estimated pending, whose places the spec does not
give (R554). -/
opaque cellFlags : Bool → Bool → Nat

/-- Square root. -/
opaque sqrt : Rat → Rat

/-- Sine of an angle in rad. -/
opaque sin : Rat → Rat

/-- Cosine of an angle in rad. -/
opaque cos : Rat → Rat

/-- The angle of a vector, y and x, in rad. -/
opaque atan2 : Rat → Rat → Rat

/-- Exponential function. -/
opaque exp : Rat → Rat

/-- Ten to a power. -/
opaque pow10 : Rat → Rat

/-- The digits of π after its first sixteen, in thousandths of the last of them. -/
opaque piRest : Fin 1000

/-- The number π, as far as the model says which number it is: its first sixteen digits (log entry 2). -/
def pi : Rat := 3141592653589793 / 10 ^ 15 + (piRest.val : Rat) / 10 ^ 18

/-- A chain's value at an instant, from its samples: the fractional-delay interpolation of R539 and R540. -/
opaque interp : List (Rat × Rat) → Rat → Rat

/-- SHA-256 of bytes, as a number. -/
opaque sha256 : List Byte → Nat

/-- ECDSA P-256 verification: public key, hash, r, s (R637). -/
opaque ecdsaOk : List Byte → Nat → Nat → Nat → Bool

/-- ECDSA P-256 signature with the device key over a hash: r and s (R549). -/
opaque ecdsaSign : Nat → Nat × Nat

/-- The factory third-order compensation of the crystal, in ppb, of sensor 0's value (R587). -/
opaque xtalComp : Nat → Int

/-- The droop compensation of a metering chain, whose taps the spec does not give: of the decimated samples, newest first
(R360). -/
opaque droop : List Rat → Int

/-- The factory temperature correction of a converter's reference: converter, a round's 48 results (R364). -/
opaque adcRef : Nat → List Nat → Rat

/-- The factory temperature correction of a comparator's DAC, in its LSB: comparator, a round's 48 results (R364). -/
opaque cmpDac : Nat → List Nat → Rat

end Sys2Proof.Config
end

