-- ==== Sys2Proof/Machine/Regs.lean ====
section
/-! DEFINITION. The register fields of the PN7240 and their table, written from the field tables of the chapters of
spec/ and the block layout of R692 to R694 (19_register_map.md): BAR2 offset, entries, bit place, access code,
Reset column entry, and the plain range "a to b" of the field's description where it has one. -/
namespace Sys2Proof.Machine

/-- A register field: BAR2 offset of entry 0, number of entries (one word each), lowest bit, width (R14, R693). -/
structure Fld where
  base : Nat
  count : Nat
  lo : Nat
  w : Nat
  deriving DecidableEq, Repr

/-- The access codes of R14. -/
inductive Acc where
  | ro | rw | rws | wo | w1c | rc
  deriving DecidableEq, Repr

/-- The range a field's description names: none, unsigned, or two's complement. -/
inductive Lim where
  | none
  | u (a b : Nat)
  | s (a b : Int)
  deriving DecidableEq, Repr

/-- One row of a field table; `rst` is the Reset column, one value for every entry or one value per entry. The
entries "OTP" and "KA" (R18) are 0 here: State.reset lists the values the model gives them. -/
structure FieldRow where
  f : Fld
  acc : Acc
  rst : List Nat
  lim : Lim
  deriving DecidableEq, Repr

/-- One register family. -/
structure RegRow where
  name : String
  base : Nat
  count : Nat
  fields : List FieldRow
  deriving DecidableEq, Repr


/-- `ID_LOT_x.LOT`, R671. -/
def Reg.ID_LOT_x.LOT : Fld := ⟨0x0, 2, 0, 32⟩
/-- `ID_DIE_x.REV`, R671. -/
def Reg.ID_DIE_x.REV : Fld := ⟨0x8, 2, 28, 4⟩
/-- `ID_DIE_x.Y`, R671. -/
def Reg.ID_DIE_x.Y : Fld := ⟨0x8, 2, 20, 8⟩
/-- `ID_DIE_x.X`, R671. -/
def Reg.ID_DIE_x.X : Fld := ⟨0x8, 2, 12, 8⟩
/-- `ID_DIE_x.WAFER`, R671. -/
def Reg.ID_DIE_x.WAFER : Fld := ⟨0x8, 2, 7, 5⟩
/-- `ID_SI_REV_x.BASE`, R671. -/
def Reg.ID_SI_REV_x.BASE : Fld := ⟨0x10, 2, 4, 4⟩
/-- `ID_SI_REV_x.METAL`, R671. -/
def Reg.ID_SI_REV_x.METAL : Fld := ⟨0x10, 2, 0, 4⟩
/-- `ID_SERIAL_LO.SERIAL`, R671. -/
def Reg.ID_SERIAL_LO.SERIAL : Fld := ⟨0x18, 1, 0, 32⟩
/-- `ID_SERIAL_HI.SERIAL`, R671. -/
def Reg.ID_SERIAL_HI.SERIAL : Fld := ⟨0x1C, 1, 0, 32⟩
/-- `ID_PART.VENDOR`, R671. -/
def Reg.ID_PART.VENDOR : Fld := ⟨0x20, 1, 16, 16⟩
/-- `ID_PART.DEVICE`, R671. -/
def Reg.ID_PART.DEVICE : Fld := ⟨0x20, 1, 0, 16⟩
/-- `ID_PUBKEY_n.KEY`, R671. -/
def Reg.ID_PUBKEY_n.KEY : Fld := ⟨0x24, 16, 0, 32⟩
/-- `LC_STATE.STATE`, R670. -/
def Reg.LC_STATE.STATE : Fld := ⟨0x10000, 1, 29, 3⟩
/-- `LC_STATE.FWKEY`, R670. -/
def Reg.LC_STATE.FWKEY : Fld := ⟨0x10000, 1, 28, 1⟩
/-- `LC_STATE.KEY`, R670. -/
def Reg.LC_STATE.KEY : Fld := ⟨0x10000, 1, 27, 1⟩
/-- `LC_STATE.RETURNS_LEFT`, R670. -/
def Reg.LC_STATE.RETURNS_LEFT : Fld := ⟨0x10000, 1, 23, 4⟩
/-- `LC_CTRL.TARGET`, R670. -/
def Reg.LC_CTRL.TARGET : Fld := ⟨0x10004, 1, 29, 3⟩
/-- `LC_CTRL.FWKEY_FUSE`, R670. -/
def Reg.LC_CTRL.FWKEY_FUSE : Fld := ⟨0x10004, 1, 28, 1⟩
/-- `LC_CTRL.CODE`, R670. -/
def Reg.LC_CTRL.CODE : Fld := ⟨0x10004, 1, 0, 16⟩
/-- `CLK_REF_CFG.FIRST`, R656. -/
def Reg.CLK_REF_CFG.FIRST : Fld := ⟨0x20000, 1, 30, 2⟩
/-- `CLK_REF_CFG.SECOND`, R656. -/
def Reg.CLK_REF_CFG.SECOND : Fld := ⟨0x20000, 1, 28, 2⟩
/-- `CLK_REF_CFG.THIRD`, R656. -/
def Reg.CLK_REF_CFG.THIRD : Fld := ⟨0x20000, 1, 26, 2⟩
/-- `CLK_REF_CFG.REVERT`, R656. -/
def Reg.CLK_REF_CFG.REVERT : Fld := ⟨0x20000, 1, 25, 1⟩
/-- `CLK_REF_CFG.REFA_EN`, R656. -/
def Reg.CLK_REF_CFG.REFA_EN : Fld := ⟨0x20000, 1, 24, 1⟩
/-- `CLK_REF_CFG.REFB_EN`, R656. -/
def Reg.CLK_REF_CFG.REFB_EN : Fld := ⟨0x20000, 1, 23, 1⟩
/-- `CLK_REF_CFG.HOLDOFF`, R656. -/
def Reg.CLK_REF_CFG.HOLDOFF : Fld := ⟨0x20000, 1, 16, 7⟩
/-- `CLK_REF_CFG.WINDOW`, R656. -/
def Reg.CLK_REF_CFG.WINDOW : Fld := ⟨0x20000, 1, 8, 8⟩
/-- `CLK_REF_STATUS.SEL`, R657. -/
def Reg.CLK_REF_STATUS.SEL : Fld := ⟨0x20004, 1, 30, 2⟩
/-- `CLK_REF_STATUS.VOTE`, R657. -/
def Reg.CLK_REF_STATUS.VOTE : Fld := ⟨0x20004, 1, 28, 2⟩
/-- `CLK_REF_STATUS.COAST`, R657. -/
def Reg.CLK_REF_STATUS.COAST : Fld := ⟨0x20004, 1, 27, 1⟩
/-- `CLK_REF_STATUS.REF_SUSPECT`, R657. -/
def Reg.CLK_REF_STATUS.REF_SUSPECT : Fld := ⟨0x20004, 1, 26, 1⟩
/-- `CLK_REF_STATUS.LOST`, R657. -/
def Reg.CLK_REF_STATUS.LOST : Fld := ⟨0x20004, 1, 23, 3⟩
/-- `CLK_REF_STATUS.OUT`, R657. -/
def Reg.CLK_REF_STATUS.OUT : Fld := ⟨0x20004, 1, 20, 3⟩
/-- `CLK_REF_STATUS.DIFF_MAX`, R657. -/
def Reg.CLK_REF_STATUS.DIFF_MAX : Fld := ⟨0x20004, 1, 8, 8⟩
/-- `CLK_REF_STATUS.MOVES`, R657. -/
def Reg.CLK_REF_STATUS.MOVES : Fld := ⟨0x20004, 1, 0, 8⟩
/-- `CLK_REF_OFS_s.OFS`, R658. -/
def Reg.CLK_REF_OFS_s.OFS : Fld := ⟨0x20008, 3, 0, 16⟩
/-- `CLK_XTAL_TRIM.PPB`, R658. -/
def Reg.CLK_XTAL_TRIM.PPB : Fld := ⟨0x20014, 1, 0, 16⟩
/-- `CLK_PLL_INT_p.INT`, R659. -/
def Reg.CLK_PLL_INT_p.INT : Fld := ⟨0x20018, 3, 0, 9⟩
/-- `CLK_PLL_FRAC_p.FRAC`, R659. -/
def Reg.CLK_PLL_FRAC_p.FRAC : Fld := ⟨0x20024, 3, 0, 24⟩
/-- `CLK_PLL_SEED_p.DITHER_EN`, R659. -/
def Reg.CLK_PLL_SEED_p.DITHER_EN : Fld := ⟨0x20030, 3, 31, 1⟩
/-- `CLK_PLL_SEED_p.SEED`, R659. -/
def Reg.CLK_PLL_SEED_p.SEED : Fld := ⟨0x20030, 3, 0, 24⟩
/-- `CLK_PLL_STATUS.CFG_ERR`, R660. -/
def Reg.CLK_PLL_STATUS.CFG_ERR : Fld := ⟨0x2003C, 1, 31, 1⟩
/-- `CLK_PLL_STATUS.LOSS`, R660. -/
def Reg.CLK_PLL_STATUS.LOSS : Fld := ⟨0x2003C, 1, 16, 8⟩
/-- `CLK_PLL_STATUS.COAST`, R660. -/
def Reg.CLK_PLL_STATUS.COAST : Fld := ⟨0x2003C, 1, 8, 3⟩
/-- `CLK_PLL_STATUS.LOCKED`, R660. -/
def Reg.CLK_PLL_STATUS.LOCKED : Fld := ⟨0x2003C, 1, 0, 3⟩
/-- `CLK_ELAPSED_LO.E_LO`, R661. -/
def Reg.CLK_ELAPSED_LO.E_LO : Fld := ⟨0x20040, 1, 0, 32⟩
/-- `CLK_ELAPSED_HI.E_HI`, R661. -/
def Reg.CLK_ELAPSED_HI.E_HI : Fld := ⟨0x20044, 1, 0, 32⟩
/-- `CLK_ALIGN_OFS_LO.O_LO`, R661. -/
def Reg.CLK_ALIGN_OFS_LO.O_LO : Fld := ⟨0x20048, 1, 0, 32⟩
/-- `CLK_ALIGN_OFS_HI.O_HI`, R661. -/
def Reg.CLK_ALIGN_OFS_HI.O_HI : Fld := ⟨0x2004C, 1, 0, 32⟩
/-- `CLK_ALARM_LO.A_LO`, R661. -/
def Reg.CLK_ALARM_LO.A_LO : Fld := ⟨0x20050, 1, 0, 32⟩
/-- `CLK_ALARM_HI.A_HI`, R661. -/
def Reg.CLK_ALARM_HI.A_HI : Fld := ⟨0x20054, 1, 0, 32⟩
/-- `CLK_TICK_CFG.OVERRUN_LIMIT`, R31. -/
def Reg.CLK_TICK_CFG.OVERRUN_LIMIT : Fld := ⟨0x30000, 1, 20, 4⟩
/-- `CLK_TICK_CFG.PERIOD`, R31. -/
def Reg.CLK_TICK_CFG.PERIOD : Fld := ⟨0x30000, 1, 0, 7⟩
/-- `CLK_TICK_DEADLINE_n.DEADLINE`, R32. -/
def Reg.CLK_TICK_DEADLINE_n.DEADLINE : Fld := ⟨0x30004, 6, 0, 13⟩
/-- `CLK_TICK_USED_n.LAST`, R33. -/
def Reg.CLK_TICK_USED_n.LAST : Fld := ⟨0x3001C, 6, 0, 16⟩
/-- `CLK_TICK_PEAK_n.PEAK`, R33. -/
def Reg.CLK_TICK_PEAK_n.PEAK : Fld := ⟨0x30034, 6, 0, 16⟩
/-- `CLK_TICK_STATUS.CFG_ERR`, R34. -/
def Reg.CLK_TICK_STATUS.CFG_ERR : Fld := ⟨0x3004C, 1, 31, 1⟩
/-- `CLK_TICK_STATUS.REPEAT`, R34. -/
def Reg.CLK_TICK_STATUS.REPEAT : Fld := ⟨0x3004C, 1, 30, 1⟩
/-- `CLK_TICK_STATUS.HOLD`, R34. -/
def Reg.CLK_TICK_STATUS.HOLD : Fld := ⟨0x3004C, 1, 29, 1⟩
/-- `CLK_TICK_STATUS.OVR_TRIP`, R34. -/
def Reg.CLK_TICK_STATUS.OVR_TRIP : Fld := ⟨0x3004C, 1, 28, 1⟩
/-- `CLK_TICK_STATUS.OVR_CONSEC`, R34. -/
def Reg.CLK_TICK_STATUS.OVR_CONSEC : Fld := ⟨0x3004C, 1, 24, 4⟩
/-- `CLK_TICK_STATUS.LATE_STAGE`, R34. -/
def Reg.CLK_TICK_STATUS.LATE_STAGE : Fld := ⟨0x3004C, 1, 20, 4⟩
/-- `CLK_TICK_STATUS.SHED_LEVEL`, R34. -/
def Reg.CLK_TICK_STATUS.SHED_LEVEL : Fld := ⟨0x3004C, 1, 13, 3⟩
/-- `CLK_TICK_STATUS.DIAG_DEFERRED`, R34. -/
def Reg.CLK_TICK_STATUS.DIAG_DEFERRED : Fld := ⟨0x3004C, 1, 12, 1⟩
/-- `CLK_TICK_STATUS.PERIOD_PEND`, R34. -/
def Reg.CLK_TICK_STATUS.PERIOD_PEND : Fld := ⟨0x3004C, 1, 11, 1⟩
/-- `CLK_TICK_OVR_COUNT.COUNT`, R35. -/
def Reg.CLK_TICK_OVR_COUNT.COUNT : Fld := ⟨0x30050, 1, 0, 32⟩
/-- `CLK_SHED_CFG.MAX_LEVEL`, R45. -/
def Reg.CLK_SHED_CFG.MAX_LEVEL : Fld := ⟨0x30054, 1, 24, 3⟩
/-- `CLK_SHED_CFG.HEADROOM`, R45. -/
def Reg.CLK_SHED_CFG.HEADROOM : Fld := ⟨0x30054, 1, 8, 8⟩
/-- `CLK_SHED_CFG.THERM_EN`, R45. -/
def Reg.CLK_SHED_CFG.THERM_EN : Fld := ⟨0x30054, 1, 2, 1⟩
/-- `CLK_SHED_CFG.POWER_EN`, R45. -/
def Reg.CLK_SHED_CFG.POWER_EN : Fld := ⟨0x30054, 1, 1, 1⟩
/-- `CLK_SHED_CFG.HEADROOM_EN`, R45. -/
def Reg.CLK_SHED_CFG.HEADROOM_EN : Fld := ⟨0x30054, 1, 0, 1⟩
/-- `SYNC_CFG.EN`, R662. -/
def Reg.SYNC_CFG.EN : Fld := ⟨0x40000, 1, 31, 1⟩
/-- `SYNC_CFG.SLEW_WINDOW`, R662. -/
def Reg.SYNC_CFG.SLEW_WINDOW : Fld := ⟨0x40000, 1, 0, 16⟩
/-- `SYNC_SEC.NEXT`, R662. -/
def Reg.SYNC_SEC.NEXT : Fld := ⟨0x40004, 1, 0, 32⟩
/-- `SYNC_PPS_STATUS.ALIGNED`, R663. -/
def Reg.SYNC_PPS_STATUS.ALIGNED : Fld := ⟨0x40008, 1, 31, 1⟩
/-- `SYNC_PPS_STATUS.SUSPECT`, R663. -/
def Reg.SYNC_PPS_STATUS.SUSPECT : Fld := ⟨0x40008, 1, 30, 1⟩
/-- `SYNC_PPS_STATUS.SEC_VALID`, R663. -/
def Reg.SYNC_PPS_STATUS.SEC_VALID : Fld := ⟨0x40008, 1, 29, 1⟩
/-- `SYNC_PPS_STATUS.CONS`, R663. -/
def Reg.SYNC_PPS_STATUS.CONS : Fld := ⟨0x40008, 1, 27, 2⟩
/-- `SYNC_PPS_STATUS.MISSING`, R663. -/
def Reg.SYNC_PPS_STATUS.MISSING : Fld := ⟨0x40008, 1, 8, 8⟩
/-- `SYNC_PPS_STATUS.STEPS`, R663. -/
def Reg.SYNC_PPS_STATUS.STEPS : Fld := ⟨0x40008, 1, 0, 8⟩
/-- `SYNC_PPS_ERR.E`, R663. -/
def Reg.SYNC_PPS_ERR.E : Fld := ⟨0x4000C, 1, 0, 32⟩
/-- `PWR_CTRL.SLEEP`, R664. -/
def Reg.PWR_CTRL.SLEEP : Fld := ⟨0x50000, 1, 31, 1⟩
/-- `PWR_CTRL.SHUTDOWN`, R664. -/
def Reg.PWR_CTRL.SHUTDOWN : Fld := ⟨0x50000, 1, 30, 1⟩
/-- `PWR_WAKE_EN.ALARM`, R664. -/
def Reg.PWR_WAKE_EN.ALARM : Fld := ⟨0x50004, 1, 3, 1⟩
/-- `PWR_WAKE_EN.SAFETY`, R664. -/
def Reg.PWR_WAKE_EN.SAFETY : Fld := ⟨0x50004, 1, 2, 1⟩
/-- `PWR_WAKE_EN.RING`, R664. -/
def Reg.PWR_WAKE_EN.RING : Fld := ⟨0x50004, 1, 1, 1⟩
/-- `PWR_WAKE_EN.DOORBELL`, R664. -/
def Reg.PWR_WAKE_EN.DOORBELL : Fld := ⟨0x50004, 1, 0, 1⟩
/-- `PWR_STATUS.OFF_READY`, R665. -/
def Reg.PWR_STATUS.OFF_READY : Fld := ⟨0x50008, 1, 31, 1⟩
/-- `PWR_STATUS.SLEEP`, R665. -/
def Reg.PWR_STATUS.SLEEP : Fld := ⟨0x50008, 1, 30, 1⟩
/-- `PWR_STATUS.PF_WARN`, R665. -/
def Reg.PWR_STATUS.PF_WARN : Fld := ⟨0x50008, 1, 29, 1⟩
/-- `PWR_STATUS.RAIL_RESET`, R665. -/
def Reg.PWR_STATUS.RAIL_RESET : Fld := ⟨0x50008, 1, 28, 1⟩
/-- `PWR_STATUS.CFG_ERR`, R665. -/
def Reg.PWR_STATUS.CFG_ERR : Fld := ⟨0x50008, 1, 27, 1⟩
/-- `PWR_STATUS.WAKE_SRC`, R665. -/
def Reg.PWR_STATUS.WAKE_SRC : Fld := ⟨0x50008, 1, 24, 3⟩
/-- `PWR_PF_CFG.LEVEL`, R666. -/
def Reg.PWR_PF_CFG.LEVEL : Fld := ⟨0x5000C, 1, 20, 12⟩
/-- `PWR_PF_CFG.HYS`, R666. -/
def Reg.PWR_PF_CFG.HYS : Fld := ⟨0x5000C, 1, 12, 8⟩
/-- `PWR_PF_CFG.FILT`, R666. -/
def Reg.PWR_PF_CFG.FILT : Fld := ⟨0x5000C, 1, 8, 4⟩
/-- `PWR_BOOT_CTRL.PERSIST`, R667. -/
def Reg.PWR_BOOT_CTRL.PERSIST : Fld := ⟨0x50010, 1, 31, 1⟩
/-- `PWR_BOOT_CTRL.BUSY`, R667. -/
def Reg.PWR_BOOT_CTRL.BUSY : Fld := ⟨0x50010, 1, 30, 1⟩
/-- `PWR_BOOT_CTRL.SELECT`, R667. -/
def Reg.PWR_BOOT_CTRL.SELECT : Fld := ⟨0x50010, 1, 29, 1⟩
/-- `PWR_BOOT_CTRL.BOOTED`, R667. -/
def Reg.PWR_BOOT_CTRL.BOOTED : Fld := ⟨0x50010, 1, 28, 1⟩
/-- `PWR_BOOT_CTRL.RESULT`, R667. -/
def Reg.PWR_BOOT_CTRL.RESULT : Fld := ⟨0x50010, 1, 26, 2⟩
/-- `KA_STATUS.COLD`, R668. -/
def Reg.KA_STATUS.COLD : Fld := ⟨0x60000, 1, 31, 1⟩
/-- `KA_STATUS.PGOOD`, R668. -/
def Reg.KA_STATUS.PGOOD : Fld := ⟨0x60000, 1, 30, 1⟩
/-- `KA_STATUS.LOW`, R668. -/
def Reg.KA_STATUS.LOW : Fld := ⟨0x60000, 1, 29, 1⟩
/-- `KA_STATUS.COUNTING`, R668. -/
def Reg.KA_STATUS.COUNTING : Fld := ⟨0x60000, 1, 28, 1⟩
/-- `KA_STATUS.VIN`, R668. -/
def Reg.KA_STATUS.VIN : Fld := ⟨0x60000, 1, 0, 16⟩
/-- `KA_OUTAGE.SECONDS`, R668. -/
def Reg.KA_OUTAGE.SECONDS : Fld := ⟨0x60004, 1, 0, 32⟩
/-- `KA_CT_CFG.EN`, R576. -/
def Reg.KA_CT_CFG.EN : Fld := ⟨0x60008, 1, 31, 1⟩
/-- `KA_CT_CFG.FS`, R576. -/
def Reg.KA_CT_CFG.FS : Fld := ⟨0x60008, 1, 0, 16⟩
/-- `KA_CT_ACC.ACC`, R576. -/
def Reg.KA_CT_ACC.ACC : Fld := ⟨0x6000C, 1, 0, 32⟩
/-- `BIST_STATUS.VALID`, R669. -/
def Reg.BIST_STATUS.VALID : Fld := ⟨0x70000, 1, 31, 1⟩
/-- `BIST_STATUS.STARTUP`, R669. -/
def Reg.BIST_STATUS.STARTUP : Fld := ⟨0x70000, 1, 30, 1⟩
/-- `BIST_STATUS.FAIL`, R669. -/
def Reg.BIST_STATUS.FAIL : Fld := ⟨0x70000, 1, 0, 12⟩
/-- `HOST_STATUS.STAGE`, R525. -/
def Reg.HOST_STATUS.STAGE : Fld := ⟨0x80000, 1, 29, 3⟩
/-- `HOST_STATUS.SLEEP`, R525. -/
def Reg.HOST_STATUS.SLEEP : Fld := ⟨0x80000, 1, 28, 1⟩
/-- `HOST_STATUS.CFG_ERR`, R525. -/
def Reg.HOST_STATUS.CFG_ERR : Fld := ⟨0x80000, 1, 27, 1⟩
/-- `HOST_STATUS.IN_FLIGHT`, R525. -/
def Reg.HOST_STATUS.IN_FLIGHT : Fld := ⟨0x80000, 1, 0, 18⟩
/-- `HOST_EVT_CFG.EVT_RING`, R526. -/
def Reg.HOST_EVT_CFG.EVT_RING : Fld := ⟨0x80004, 1, 26, 6⟩
/-- `HOST_EVT_CFG.METER_RING`, R526. -/
def Reg.HOST_EVT_CFG.METER_RING : Fld := ⟨0x80004, 1, 20, 6⟩
/-- `HOST_WALK_ROOT_LO.ADDR`, R527. -/
def Reg.HOST_WALK_ROOT_LO.ADDR : Fld := ⟨0x80008, 1, 12, 20⟩
/-- `HOST_WALK_ROOT_LO.EN`, R527. -/
def Reg.HOST_WALK_ROOT_LO.EN : Fld := ⟨0x80008, 1, 0, 1⟩
/-- `HOST_WALK_ROOT_HI.ADDR_HI`, R527. -/
def Reg.HOST_WALK_ROOT_HI.ADDR_HI : Fld := ⟨0x8000C, 1, 0, 32⟩
/-- `HOST_WALK_CFG.TIMEOUT`, R528. -/
def Reg.HOST_WALK_CFG.TIMEOUT : Fld := ⟨0x80010, 1, 0, 16⟩
/-- `HOST_WALK_INV.ALL`, R529. -/
def Reg.HOST_WALK_INV.ALL : Fld := ⟨0x80014, 1, 31, 1⟩
/-- `HOST_WALK_INV.BUSY`, R529. -/
def Reg.HOST_WALK_INV.BUSY : Fld := ⟨0x80014, 1, 30, 1⟩
/-- `HOST_WALK_INV.PAGE`, R529. -/
def Reg.HOST_WALK_INV.PAGE : Fld := ⟨0x80014, 1, 0, 18⟩
/-- `HOST_DEVREG_LO_n.BASE`, R530. -/
def Reg.HOST_DEVREG_LO_n.BASE : Fld := ⟨0x80018, 16, 12, 20⟩
/-- `HOST_DEVREG_LO_n.EN`, R530. -/
def Reg.HOST_DEVREG_LO_n.EN : Fld := ⟨0x80018, 16, 0, 1⟩
/-- `HOST_DEVREG_HI_n.BASE_HI`, R530. -/
def Reg.HOST_DEVREG_HI_n.BASE_HI : Fld := ⟨0x80058, 16, 0, 32⟩
/-- `HOST_DEVREG_SIZE_n.PAGES`, R530. -/
def Reg.HOST_DEVREG_SIZE_n.PAGES : Fld := ⟨0x80098, 16, 0, 32⟩
/-- `RING_BASE_n.BASE`, R531. -/
def Reg.RING_BASE_n.BASE : Fld := ⟨0x90000, 64, 10, 20⟩
/-- `RING_CFG_n.EN`, R532. -/
def Reg.RING_CFG_n.EN : Fld := ⟨0x90100, 64, 31, 1⟩
/-- `RING_CFG_n.TYPE`, R532. -/
def Reg.RING_CFG_n.TYPE : Fld := ⟨0x90100, 64, 29, 2⟩
/-- `RING_CFG_n.SIZE`, R532. -/
def Reg.RING_CFG_n.SIZE : Fld := ⟨0x90100, 64, 25, 4⟩
/-- `RING_CFG_n.CRING`, R532. -/
def Reg.RING_CFG_n.CRING : Fld := ⟨0x90100, 64, 19, 6⟩
/-- `RING_CFG_n.VECTOR`, R532. -/
def Reg.RING_CFG_n.VECTOR : Fld := ⟨0x90100, 64, 13, 6⟩
/-- `RING_CFG_n.IRQ_EN`, R532. -/
def Reg.RING_CFG_n.IRQ_EN : Fld := ⟨0x90100, 64, 12, 1⟩
/-- `RING_CFG_n.COAL_CNT`, R532. -/
def Reg.RING_CFG_n.COAL_CNT : Fld := ⟨0x90100, 64, 6, 6⟩
/-- `RING_CFG_n.COAL_US`, R532. -/
def Reg.RING_CFG_n.COAL_US : Fld := ⟨0x90100, 64, 0, 6⟩
/-- `RING_CTRL_n.STOP`, R533. -/
def Reg.RING_CTRL_n.STOP : Fld := ⟨0x90200, 64, 31, 1⟩
/-- `RING_CTRL_n.RESTART`, R533. -/
def Reg.RING_CTRL_n.RESTART : Fld := ⟨0x90200, 64, 30, 1⟩
/-- `RING_CTRL_n.RESET`, R533. -/
def Reg.RING_CTRL_n.RESET : Fld := ⟨0x90200, 64, 29, 1⟩
/-- `RING_STATE_n.STATE`, R534. -/
def Reg.RING_STATE_n.STATE : Fld := ⟨0x90300, 64, 29, 3⟩
/-- `RING_STATE_n.INFLIGHT`, R534. -/
def Reg.RING_STATE_n.INFLIGHT : Fld := ⟨0x90300, 64, 16, 13⟩
/-- `RING_STATE_n.CONS`, R534. -/
def Reg.RING_STATE_n.CONS : Fld := ⟨0x90300, 64, 0, 16⟩
/-- `RING_FAULT_n.STATUS`, R535. -/
def Reg.RING_FAULT_n.STATUS : Fld := ⟨0x90400, 64, 24, 8⟩
/-- `RING_FAULT_n.ACCESS`, R535. -/
def Reg.RING_FAULT_n.ACCESS : Fld := ⟨0x90400, 64, 22, 2⟩
/-- `RING_FAULT_n.PAGE`, R535. -/
def Reg.RING_FAULT_n.PAGE : Fld := ⟨0x90400, 64, 0, 18⟩
/-- `TRI_CFG.LEAD`, R485. -/
def Reg.TRI_CFG.LEAD : Fld := ⟨0xA0000, 1, 30, 2⟩
/-- `TRI_CFG.PM_WRITE`, R485. -/
def Reg.TRI_CFG.PM_WRITE : Fld := ⟨0xA0000, 1, 29, 1⟩
/-- `TRI_CFG.SCRUB_EN`, R485. -/
def Reg.TRI_CFG.SCRUB_EN : Fld := ⟨0xA0000, 1, 28, 1⟩
/-- `TRI_CTRL.RESTART`, R486. -/
def Reg.TRI_CTRL.RESTART : Fld := ⟨0xA0004, 1, 31, 1⟩
/-- `TRI_STATUS.MODE`, R487. -/
def Reg.TRI_STATUS.MODE : Fld := ⟨0xA0008, 1, 29, 3⟩
/-- `TRI_STATUS.HELD`, R487. -/
def Reg.TRI_STATUS.HELD : Fld := ⟨0xA0008, 1, 26, 3⟩
/-- `TRI_STATUS.FENCED`, R487. -/
def Reg.TRI_STATUS.FENCED : Fld := ⟨0xA0008, 1, 24, 2⟩
/-- `TRI_STATUS.RSTEP`, R487. -/
def Reg.TRI_STATUS.RSTEP : Fld := ⟨0xA0008, 1, 21, 3⟩
/-- `TRI_STATUS.DBG_HALT`, R487. -/
def Reg.TRI_STATUS.DBG_HALT : Fld := ⟨0xA0008, 1, 20, 1⟩
/-- `TRI_STATUS.ACTIVE_BANK`, R487. -/
def Reg.TRI_STATUS.ACTIVE_BANK : Fld := ⟨0xA0008, 1, 19, 1⟩
/-- `TRI_STATUS.FENCE_COUNT`, R487. -/
def Reg.TRI_STATUS.FENCE_COUNT : Fld := ⟨0xA0008, 1, 8, 8⟩
/-- `TRI_STATUS.SCRUB_DIFF`, R487. -/
def Reg.TRI_STATUS.SCRUB_DIFF : Fld := ⟨0xA0008, 1, 0, 8⟩
/-- `TRI_MISMATCH_LOG.MEMBER`, R488. -/
def Reg.TRI_MISMATCH_LOG.MEMBER : Fld := ⟨0xA000C, 1, 30, 2⟩
/-- `TRI_MISMATCH_LOG.KIND`, R488. -/
def Reg.TRI_MISMATCH_LOG.KIND : Fld := ⟨0xA000C, 1, 27, 3⟩
/-- `TRI_MISMATCH_LOG.ADDR`, R488. -/
def Reg.TRI_MISMATCH_LOG.ADDR : Fld := ⟨0xA000C, 1, 0, 24⟩
/-- `TRI_MISMATCH_TIME.TIME`, R489. -/
def Reg.TRI_MISMATCH_TIME.TIME : Fld := ⟨0xA0010, 1, 0, 32⟩
/-- `TRI_RESYNC_TIME.LAST`, R490. -/
def Reg.TRI_RESYNC_TIME.LAST : Fld := ⟨0xA0014, 1, 16, 16⟩
/-- `TRI_RESYNC_TIME.PEAK`, R490. -/
def Reg.TRI_RESYNC_TIME.PEAK : Fld := ⟨0xA0014, 1, 0, 16⟩
/-- `TRI_AGREE_COUNT.LOST_A`, R491. -/
def Reg.TRI_AGREE_COUNT.LOST_A : Fld := ⟨0xA0018, 1, 16, 8⟩
/-- `TRI_AGREE_COUNT.LOST_B`, R491. -/
def Reg.TRI_AGREE_COUNT.LOST_B : Fld := ⟨0xA0018, 1, 8, 8⟩
/-- `TRI_AGREE_COUNT.LOST_C`, R491. -/
def Reg.TRI_AGREE_COUNT.LOST_C : Fld := ⟨0xA0018, 1, 0, 8⟩
/-- `TRI_FW_STATUS.STAGED`, R492. -/
def Reg.TRI_FW_STATUS.STAGED : Fld := ⟨0xA001C, 1, 31, 1⟩
/-- `TRI_FW_STATUS.PENDING`, R492. -/
def Reg.TRI_FW_STATUS.PENDING : Fld := ⟨0xA001C, 1, 30, 1⟩
/-- `TRI_FW_STATUS.STAGING`, R492. -/
def Reg.TRI_FW_STATUS.STAGING : Fld := ⟨0xA001C, 1, 29, 1⟩
/-- `TRI_FW_STATUS.RESULT`, R492. -/
def Reg.TRI_FW_STATUS.RESULT : Fld := ⟨0xA001C, 1, 26, 3⟩
/-- `TRI_FW_VER_ACTIVE.VERSION`, R493. -/
def Reg.TRI_FW_VER_ACTIVE.VERSION : Fld := ⟨0xA0020, 1, 0, 32⟩
/-- `TRI_FW_VER_SHADOW.VERSION`, R493. -/
def Reg.TRI_FW_VER_SHADOW.VERSION : Fld := ⟨0xA0024, 1, 0, 32⟩
/-- `CRC_CFG.POLY`, R455. -/
def Reg.CRC_CFG.POLY : Fld := ⟨0xB0000, 1, 0, 2⟩
/-- `CRC_DATA.DATA`, R456. -/
def Reg.CRC_DATA.DATA : Fld := ⟨0xB0004, 1, 0, 32⟩
/-- `CRC_SEED.SEED`, R456. -/
def Reg.CRC_SEED.SEED : Fld := ⟨0xB0008, 1, 0, 32⟩
/-- `CRC_RESULT.RESULT`, R456. -/
def Reg.CRC_RESULT.RESULT : Fld := ⟨0xB000C, 1, 0, 32⟩
/-- `LINK_CFG.STARVE_TICKS`, R297. -/
def Reg.LINK_CFG.STARVE_TICKS : Fld := ⟨0xC0000, 1, 24, 5⟩
/-- `LINK_CFG.LOST_TICKS`, R297. -/
def Reg.LINK_CFG.LOST_TICKS : Fld := ⟨0xC0000, 1, 20, 4⟩
/-- `LINK_CFG.LOOP_DOWN`, R297. -/
def Reg.LINK_CFG.LOOP_DOWN : Fld := ⟨0xC0000, 1, 16, 4⟩
/-- `LINK_RING_EN.EN`, R298. -/
def Reg.LINK_RING_EN.EN : Fld := ⟨0xC0004, 1, 0, 16⟩
/-- `LINK_CTRL.GO_FULL`, R299. -/
def Reg.LINK_CTRL.GO_FULL : Fld := ⟨0xC0008, 1, 31, 1⟩
/-- `LINK_CTRL.GO_WADI`, R299. -/
def Reg.LINK_CTRL.GO_WADI : Fld := ⟨0xC0008, 1, 30, 1⟩
/-- `LINK_CTRL.RINGS`, R299. -/
def Reg.LINK_CTRL.RINGS : Fld := ⟨0xC0008, 1, 0, 16⟩
/-- `LINK_WADI_CFG.INTERVAL`, R300. -/
def Reg.LINK_WADI_CFG.INTERVAL : Fld := ⟨0xC000C, 1, 0, 10⟩
/-- `LINK_TRIP_LOG.RING`, R306. -/
def Reg.LINK_TRIP_LOG.RING : Fld := ⟨0xC0010, 1, 28, 4⟩
/-- `LINK_TRIP_LOG.POS`, R306. -/
def Reg.LINK_TRIP_LOG.POS : Fld := ⟨0xC0010, 1, 24, 4⟩
/-- `LINK_TRIP_LOG.CAUSE`, R306. -/
def Reg.LINK_TRIP_LOG.CAUSE : Fld := ⟨0xC0010, 1, 21, 3⟩
/-- `LINK_TRIP_LOG.LOOP`, R306. -/
def Reg.LINK_TRIP_LOG.LOOP : Fld := ⟨0xC0010, 1, 20, 1⟩
/-- `LINK_TRIP_LOG.TICK_LO`, R306. -/
def Reg.LINK_TRIP_LOG.TICK_LO : Fld := ⟨0xC0010, 1, 0, 16⟩
/-- `LINK_RING_STATUS_r.STATE`, R301. -/
def Reg.LINK_RING_STATUS_r.STATE : Fld := ⟨0xC0014, 16, 29, 3⟩
/-- `LINK_RING_STATUS_r.PRI`, R301. -/
def Reg.LINK_RING_STATUS_r.PRI : Fld := ⟨0xC0014, 16, 27, 2⟩
/-- `LINK_RING_STATUS_r.SEC`, R301. -/
def Reg.LINK_RING_STATUS_r.SEC : Fld := ⟨0xC0014, 16, 25, 2⟩
/-- `LINK_RING_STATUS_r.WRAP_POS`, R301. -/
def Reg.LINK_RING_STATUS_r.WRAP_POS : Fld := ⟨0xC0014, 16, 21, 4⟩
/-- `LINK_RING_STATUS_r.FOLD_FIT`, R301. -/
def Reg.LINK_RING_STATUS_r.FOLD_FIT : Fld := ⟨0xC0014, 16, 20, 1⟩
/-- `LINK_RING_STATUS_r.NODES`, R301. -/
def Reg.LINK_RING_STATUS_r.NODES : Fld := ⟨0xC0014, 16, 16, 4⟩
/-- `LINK_RING_STATUS_r.CFG_ERR`, R301. -/
def Reg.LINK_RING_STATUS_r.CFG_ERR : Fld := ⟨0xC0014, 16, 15, 1⟩
/-- `LINK_RING_STATUS_r.LOOP_DLY`, R301. -/
def Reg.LINK_RING_STATUS_r.LOOP_DLY : Fld := ⟨0xC0014, 16, 0, 12⟩
/-- `LINK_LANE_ERR_l.CODE`, R302. -/
def Reg.LINK_LANE_ERR_l.CODE : Fld := ⟨0xC0054, 32, 24, 8⟩
/-- `LINK_LANE_ERR_l.CRC`, R302. -/
def Reg.LINK_LANE_ERR_l.CRC : Fld := ⟨0xC0054, 32, 16, 8⟩
/-- `LINK_LANE_ERR_l.LATE`, R302. -/
def Reg.LINK_LANE_ERR_l.LATE : Fld := ⟨0xC0054, 32, 8, 8⟩
/-- `LINK_LANE_ERR_l.LOCK`, R302. -/
def Reg.LINK_LANE_ERR_l.LOCK : Fld := ⟨0xC0054, 32, 0, 8⟩
/-- `LINK_CELL_DELAY_n.SEC`, R303. -/
def Reg.LINK_CELL_DELAY_n.SEC : Fld := ⟨0xD0000, 240, 16, 16⟩
/-- `LINK_CELL_DELAY_n.PRI`, R303. -/
def Reg.LINK_CELL_DELAY_n.PRI : Fld := ⟨0xD0000, 240, 0, 16⟩
/-- `LINK_CELL_TRIM_n.TRIM`, R304. -/
def Reg.LINK_CELL_TRIM_n.TRIM : Fld := ⟨0xD0400, 240, 0, 8⟩
/-- `LINK_CELL_STATUS_n.LSTATE`, R305. -/
def Reg.LINK_CELL_STATUS_n.LSTATE : Fld := ⟨0xD0800, 240, 29, 3⟩
/-- `LINK_CELL_STATUS_n.ALIGNED`, R305. -/
def Reg.LINK_CELL_STATUS_n.ALIGNED : Fld := ⟨0xD0800, 240, 28, 1⟩
/-- `LINK_CELL_STATUS_n.TRIPPED`, R305. -/
def Reg.LINK_CELL_STATUS_n.TRIPPED : Fld := ⟨0xD0800, 240, 27, 1⟩
/-- `LINK_CELL_STATUS_n.CMD_LOST`, R305. -/
def Reg.LINK_CELL_STATUS_n.CMD_LOST : Fld := ⟨0xD0800, 240, 26, 1⟩
/-- `LINK_CELL_STATUS_n.LATE`, R305. -/
def Reg.LINK_CELL_STATUS_n.LATE : Fld := ⟨0xD0800, 240, 25, 1⟩
/-- `LINK_CELL_STATUS_n.ERR_PRI`, R305. -/
def Reg.LINK_CELL_STATUS_n.ERR_PRI : Fld := ⟨0xD0800, 240, 16, 8⟩
/-- `LINK_CELL_STATUS_n.ERR_SEC`, R305. -/
def Reg.LINK_CELL_STATUS_n.ERR_SEC : Fld := ⟨0xD0800, 240, 8, 8⟩
/-- `LINK_CELL_STATUS_n.OUTLIER`, R305. -/
def Reg.LINK_CELL_STATUS_n.OUTLIER : Fld := ⟨0xD0800, 240, 4, 4⟩
/-- `LINK_CELL_STATUS_n.JR_REFUSED`, R305. -/
def Reg.LINK_CELL_STATUS_n.JR_REFUSED : Fld := ⟨0xD0800, 240, 0, 4⟩
/-- `JOIN_CFG.RAMP_MS`, R337. -/
def Reg.JOIN_CFG.RAMP_MS : Fld := ⟨0xE0000, 1, 18, 14⟩
/-- `JOIN_CFG.SPILL_TICKS`, R337. -/
def Reg.JOIN_CFG.SPILL_TICKS : Fld := ⟨0xE0000, 1, 14, 4⟩
/-- `JOIN_CFG.PRE_I`, R337. -/
def Reg.JOIN_CFG.PRE_I : Fld := ⟨0xE0000, 1, 0, 8⟩
/-- `JOIN_TIME_CFG.VERIFY_S`, R338. -/
def Reg.JOIN_TIME_CFG.VERIFY_S : Fld := ⟨0xE0004, 1, 8, 8⟩
/-- `JOIN_TIME_CFG.PRECHARGE_S`, R338. -/
def Reg.JOIN_TIME_CFG.PRECHARGE_S : Fld := ⟨0xE0004, 1, 0, 8⟩
/-- `JOIN_STATUS.CFG_ERR`, R339. -/
def Reg.JOIN_STATUS.CFG_ERR : Fld := ⟨0xE0008, 1, 31, 1⟩
/-- `JOIN_STATUS.PRECHG_COUNT`, R339. -/
def Reg.JOIN_STATUS.PRECHG_COUNT : Fld := ⟨0xE0008, 1, 16, 8⟩
/-- `JOIN_STATUS.RAMP_COUNT`, R339. -/
def Reg.JOIN_STATUS.RAMP_COUNT : Fld := ⟨0xE0008, 1, 8, 8⟩
/-- `JOIN_STATUS.OUT_COUNT`, R339. -/
def Reg.JOIN_STATUS.OUT_COUNT : Fld := ⟨0xE0008, 1, 0, 8⟩
/-- `JOIN_CELL_STATUS_n.SSTATE`, R340. -/
def Reg.JOIN_CELL_STATUS_n.SSTATE : Fld := ⟨0xF0000, 240, 28, 4⟩
/-- `JOIN_CELL_STATUS_n.HOLD`, R340. -/
def Reg.JOIN_CELL_STATUS_n.HOLD : Fld := ⟨0xF0000, 240, 27, 1⟩
/-- `JOIN_CELL_STATUS_n.SPILL_CONF`, R340. -/
def Reg.JOIN_CELL_STATUS_n.SPILL_CONF : Fld := ⟨0xF0000, 240, 26, 1⟩
/-- `JOIN_CELL_STATUS_n.PRE_MODE`, R340. -/
def Reg.JOIN_CELL_STATUS_n.PRE_MODE : Fld := ⟨0xF0000, 240, 25, 1⟩
/-- `JOIN_CELL_STATUS_n.FAIL`, R340. -/
def Reg.JOIN_CELL_STATUS_n.FAIL : Fld := ⟨0xF0000, 240, 22, 3⟩
/-- `JOIN_CELL_STATUS_n.EVENTS`, R340. -/
def Reg.JOIN_CELL_STATUS_n.EVENTS : Fld := ⟨0xF0000, 240, 0, 8⟩
/-- `HGS_PLANT_VOLT.VMAX`, R60. -/
def Reg.HGS_PLANT_VOLT.VMAX : Fld := ⟨0x100000, 1, 16, 11⟩
/-- `HGS_PLANT_VOLT.VNOM`, R60. -/
def Reg.HGS_PLANT_VOLT.VNOM : Fld := ⟨0x100000, 1, 0, 12⟩
/-- `HGS_PLANT_CUR.XF`, R60. -/
def Reg.HGS_PLANT_CUR.XF : Fld := ⟨0x100004, 1, 16, 9⟩
/-- `HGS_PLANT_CUR.IRATED`, R60. -/
def Reg.HGS_PLANT_CUR.IRATED : Fld := ⟨0x100004, 1, 0, 16⟩
/-- `HGS_RATING_STATUS.CFG_ERR`, R68. -/
def Reg.HGS_RATING_STATUS.CFG_ERR : Fld := ⟨0x100008, 1, 31, 1⟩
/-- `HGS_RATING_STATUS.DERATE_ROW`, R68. -/
def Reg.HGS_RATING_STATUS.DERATE_ROW : Fld := ⟨0x100008, 1, 28, 3⟩
/-- `HGS_RATING_STATUS.H_PERMIL`, R68. -/
def Reg.HGS_RATING_STATUS.H_PERMIL : Fld := ⟨0x100008, 1, 16, 12⟩
/-- `HGS_RATING_STATUS.CUR_LIMIT_PCT`, R68. -/
def Reg.HGS_RATING_STATUS.CUR_LIMIT_PCT : Fld := ⟨0x100008, 1, 8, 8⟩
/-- `HGS_RATING_STATUS.QCAP_LIMIT_PCT`, R68. -/
def Reg.HGS_RATING_STATUS.QCAP_LIMIT_PCT : Fld := ⟨0x100008, 1, 0, 8⟩
/-- `HGS_PHASE_COUNT.L3`, R69. -/
def Reg.HGS_PHASE_COUNT.L3 : Fld := ⟨0x10000C, 1, 16, 8⟩
/-- `HGS_PHASE_COUNT.L2`, R69. -/
def Reg.HGS_PHASE_COUNT.L2 : Fld := ⟨0x10000C, 1, 8, 8⟩
/-- `HGS_PHASE_COUNT.L1`, R69. -/
def Reg.HGS_PHASE_COUNT.L1 : Fld := ⟨0x10000C, 1, 0, 8⟩
/-- `HGS_PRIO_CFG.WE`, R106. -/
def Reg.HGS_PRIO_CFG.WE : Fld := ⟨0x100010, 1, 24, 8⟩
/-- `HGS_PRIO_CFG.WT`, R106. -/
def Reg.HGS_PRIO_CFG.WT : Fld := ⟨0x100010, 1, 16, 8⟩
/-- `HGS_PRIO_CFG.WS`, R106. -/
def Reg.HGS_PRIO_CFG.WS : Fld := ⟨0x100010, 1, 8, 8⟩
/-- `HGS_PRIO_CFG.ALPHA`, R106. -/
def Reg.HGS_PRIO_CFG.ALPHA : Fld := ⟨0x100010, 1, 0, 8⟩
/-- `HGS_SW_CFG.BURST`, R107. -/
def Reg.HGS_SW_CFG.BURST : Fld := ⟨0x100014, 1, 24, 8⟩
/-- `HGS_SW_CFG.REFILL`, R107. -/
def Reg.HGS_SW_CFG.REFILL : Fld := ⟨0x100014, 1, 0, 16⟩
/-- `HGS_PULSE_CFG.IDEAD`, R108. -/
def Reg.HGS_PULSE_CFG.IDEAD : Fld := ⟨0x100018, 1, 24, 8⟩
/-- `HGS_PULSE_CFG.MINPULSE`, R108. -/
def Reg.HGS_PULSE_CFG.MINPULSE : Fld := ⟨0x100018, 1, 0, 14⟩
/-- `HGS_LINK_WIN_r.HARD`, R109. -/
def Reg.HGS_LINK_WIN_r.HARD : Fld := ⟨0x10001C, 3, 8, 8⟩
/-- `HGS_LINK_WIN_r.BAND`, R109. -/
def Reg.HGS_LINK_WIN_r.BAND : Fld := ⟨0x10001C, 3, 0, 8⟩
/-- `HGS_TABLE_CTRL.SWAP`, R110. -/
def Reg.HGS_TABLE_CTRL.SWAP : Fld := ⟨0x100028, 1, 31, 1⟩
/-- `HGS_TABLE_CTRL.PENDING`, R110. -/
def Reg.HGS_TABLE_CTRL.PENDING : Fld := ⟨0x100028, 1, 30, 1⟩
/-- `HGS_TABLE_CTRL.ACTIVE`, R110. -/
def Reg.HGS_TABLE_CTRL.ACTIVE : Fld := ⟨0x100028, 1, 0, 1⟩
/-- `HGS_PHASE_STATUS_p.SAT`, R111. -/
def Reg.HGS_PHASE_STATUS_p.SAT : Fld := ⟨0x10002C, 3, 31, 1⟩
/-- `HGS_PHASE_STATUS_p.SIGN`, R111. -/
def Reg.HGS_PHASE_STATUS_p.SIGN : Fld := ⟨0x10002C, 3, 30, 1⟩
/-- `HGS_PHASE_STATUS_p.FRAC_CELL`, R111. -/
def Reg.HGS_PHASE_STATUS_p.FRAC_CELL : Fld := ⟨0x10002C, 3, 16, 8⟩
/-- `HGS_PHASE_STATUS_p.FULL_COUNT`, R111. -/
def Reg.HGS_PHASE_STATUS_p.FULL_COUNT : Fld := ⟨0x10002C, 3, 8, 8⟩
/-- `HGS_PHASE_STATUS_p.SAT_COUNT`, R111. -/
def Reg.HGS_PHASE_STATUS_p.SAT_COUNT : Fld := ⟨0x10002C, 3, 0, 8⟩
/-- `HGS_CARRY_p.CARRY`, R112. -/
def Reg.HGS_CARRY_p.CARRY : Fld := ⟨0x100038, 3, 0, 32⟩
/-- `HGS_NS_STATUS.EMPTY`, R113. -/
def Reg.HGS_NS_STATUS.EMPTY : Fld := ⟨0x100044, 1, 31, 1⟩
/-- `HGS_NS_STATUS.V0`, R113. -/
def Reg.HGS_NS_STATUS.V0 : Fld := ⟨0x100044, 1, 0, 16⟩
/-- `HGS_ROT.ORIGIN`, R114. -/
def Reg.HGS_ROT.ORIGIN : Fld := ⟨0x100048, 1, 0, 8⟩
/-- `HGS_CELL_CFG_n.ENABLE`, R58. -/
def Reg.HGS_CELL_CFG_n.ENABLE : Fld := ⟨0x110000, 240, 31, 1⟩
/-- `HGS_CELL_CFG_n.PHASE`, R58. -/
def Reg.HGS_CELL_CFG_n.PHASE : Fld := ⟨0x110000, 240, 28, 2⟩
/-- `HGS_CELL_CFG_n.ROLE`, R58. -/
def Reg.HGS_CELL_CFG_n.ROLE : Fld := ⟨0x110000, 240, 26, 2⟩
/-- `HGS_CELL_CFG_n.VLINK`, R58. -/
def Reg.HGS_CELL_CFG_n.VLINK : Fld := ⟨0x110000, 240, 0, 11⟩
/-- `HGS_CELL_TIMING_n.DT`, R104. -/
def Reg.HGS_CELL_TIMING_n.DT : Fld := ⟨0x110400, 240, 0, 8⟩
/-- `HGS_CELL_STATE_n.BUDGET`, R105. -/
def Reg.HGS_CELL_STATE_n.BUDGET : Fld := ⟨0x110800, 240, 16, 16⟩
/-- `HGS_CELL_STATE_n.END_STATE`, R105. -/
def Reg.HGS_CELL_STATE_n.END_STATE : Fld := ⟨0x110800, 240, 14, 2⟩
/-- `HGS_CELL_STATE_n.CLASS`, R105. -/
def Reg.HGS_CELL_STATE_n.CLASS : Fld := ⟨0x110800, 240, 11, 3⟩
/-- `HGS_CELL_STATE_n.ROLE_IN_TICK`, R105. -/
def Reg.HGS_CELL_STATE_n.ROLE_IN_TICK : Fld := ⟨0x110800, 240, 9, 2⟩
/-- `HGS_CELL_STATE_n.WEIGHT`, R105. -/
def Reg.HGS_CELL_STATE_n.WEIGHT : Fld := ⟨0x110800, 240, 0, 9⟩
/-- `CTL_MODE.MODE_REQ`, R141. -/
def Reg.CTL_MODE.MODE_REQ : Fld := ⟨0x120000, 1, 31, 1⟩
/-- `CTL_MODE.ZSEQ_EN`, R141. -/
def Reg.CTL_MODE.ZSEQ_EN : Fld := ⟨0x120000, 1, 30, 1⟩
/-- `CTL_MODE.NOTCH_EN`, R141. -/
def Reg.CTL_MODE.NOTCH_EN : Fld := ⟨0x120000, 1, 29, 1⟩
/-- `CTL_MODE.NEG_EN`, R141. -/
def Reg.CTL_MODE.NEG_EN : Fld := ⟨0x120000, 1, 28, 1⟩
/-- `CTL_MODE.PRIO`, R141. -/
def Reg.CTL_MODE.PRIO : Fld := ⟨0x120000, 1, 26, 2⟩
/-- `CTL_MODE.RES_EN`, R141. -/
def Reg.CTL_MODE.RES_EN : Fld := ⟨0x120000, 1, 20, 6⟩
/-- `CTL_MODE.MAN_RATE`, R141. -/
def Reg.CTL_MODE.MAN_RATE : Fld := ⟨0x120000, 1, 8, 8⟩
/-- `CTL_STATUS.MODE`, R142. -/
def Reg.CTL_STATUS.MODE : Fld := ⟨0x120004, 1, 31, 1⟩
/-- `CTL_STATUS.FORCED_AUTO`, R142. -/
def Reg.CTL_STATUS.FORCED_AUTO : Fld := ⟨0x120004, 1, 30, 1⟩
/-- `CTL_STATUS.I_LIMITING`, R142. -/
def Reg.CTL_STATUS.I_LIMITING : Fld := ⟨0x120004, 1, 29, 1⟩
/-- `CTL_STATUS.V_SAT`, R142. -/
def Reg.CTL_STATUS.V_SAT : Fld := ⟨0x120004, 1, 28, 1⟩
/-- `CTL_STATUS.FROZEN`, R142. -/
def Reg.CTL_STATUS.FROZEN : Fld := ⟨0x120004, 1, 27, 1⟩
/-- `CTL_STATUS.PRED_BYPASS`, R142. -/
def Reg.CTL_STATUS.PRED_BYPASS : Fld := ⟨0x120004, 1, 26, 1⟩
/-- `CTL_STATUS.RES_ACTIVE`, R142. -/
def Reg.CTL_STATUS.RES_ACTIVE : Fld := ⟨0x120004, 1, 20, 6⟩
/-- `CTL_STATUS.NOTCH_ACTIVE`, R142. -/
def Reg.CTL_STATUS.NOTCH_ACTIVE : Fld := ⟨0x120004, 1, 19, 1⟩
/-- `CTL_STATUS.CFG_ERR`, R142. -/
def Reg.CTL_STATUS.CFG_ERR : Fld := ⟨0x120004, 1, 18, 1⟩
/-- `CTL_STATUS.LIMIT_SRC`, R142. -/
def Reg.CTL_STATUS.LIMIT_SRC : Fld := ⟨0x120004, 1, 8, 3⟩
/-- `CTL_STATUS.LIMIT_PCT`, R142. -/
def Reg.CTL_STATUS.LIMIT_PCT : Fld := ⟨0x120004, 1, 0, 8⟩
/-- `CTL_GAIN.KP`, R143. -/
def Reg.CTL_GAIN.KP : Fld := ⟨0x120008, 1, 16, 16⟩
/-- `CTL_GAIN.KI`, R143. -/
def Reg.CTL_GAIN.KI : Fld := ⟨0x120008, 1, 0, 16⟩
/-- `CTL_NEG_GAIN.KP`, R144. -/
def Reg.CTL_NEG_GAIN.KP : Fld := ⟨0x12000C, 1, 16, 16⟩
/-- `CTL_NEG_GAIN.KI`, R144. -/
def Reg.CTL_NEG_GAIN.KI : Fld := ⟨0x12000C, 1, 0, 16⟩
/-- `CTL_LUT_CFG.STEP`, R145. -/
def Reg.CTL_LUT_CFG.STEP : Fld := ⟨0x120010, 1, 0, 8⟩
/-- `CTL_LUT_j.KP_MUL`, R146. -/
def Reg.CTL_LUT_j.KP_MUL : Fld := ⟨0x120014, 16, 16, 16⟩
/-- `CTL_LUT_j.KI_MUL`, R146. -/
def Reg.CTL_LUT_j.KI_MUL : Fld := ⟨0x120014, 16, 0, 16⟩
/-- `CTL_RES_n.SEQ`, R147. -/
def Reg.CTL_RES_n.SEQ : Fld := ⟨0x120054, 6, 31, 1⟩
/-- `CTL_RES_n.HARM`, R147. -/
def Reg.CTL_RES_n.HARM : Fld := ⟨0x120054, 6, 24, 6⟩
/-- `CTL_RES_n.KR`, R147. -/
def Reg.CTL_RES_n.KR : Fld := ⟨0x120054, 6, 12, 12⟩
/-- `CTL_RES_n.DAMP`, R147. -/
def Reg.CTL_RES_n.DAMP : Fld := ⟨0x120054, 6, 0, 12⟩
/-- `CTL_NOTCH.FREQ`, R148. -/
def Reg.CTL_NOTCH.FREQ : Fld := ⟨0x12006C, 1, 18, 14⟩
/-- `CTL_NOTCH.WIDTH`, R148. -/
def Reg.CTL_NOTCH.WIDTH : Fld := ⟨0x12006C, 1, 8, 10⟩
/-- `CTL_NOTCH.DEPTH`, R148. -/
def Reg.CTL_NOTCH.DEPTH : Fld := ⟨0x12006C, 1, 0, 8⟩
/-- `CTL_MODEL.ADV`, R149. -/
def Reg.CTL_MODEL.ADV : Fld := ⟨0x120070, 1, 8, 8⟩
/-- `CTL_MODEL.LSCALE`, R149. -/
def Reg.CTL_MODEL.LSCALE : Fld := ⟨0x120070, 1, 0, 8⟩
/-- `CTL_AW_CFG.KAW`, R150. -/
def Reg.CTL_AW_CFG.KAW : Fld := ⟨0x120074, 1, 16, 16⟩
/-- `CTL_AW_CFG.LIM_RATE`, R150. -/
def Reg.CTL_AW_CFG.LIM_RATE : Fld := ⟨0x120074, 1, 0, 16⟩
/-- `CTL_ZSEQ_CFG.ZMAX`, R151. -/
def Reg.CTL_ZSEQ_CFG.ZMAX : Fld := ⟨0x120078, 1, 16, 16⟩
/-- `CTL_ZSEQ_CFG.KZ`, R151. -/
def Reg.CTL_ZSEQ_CFG.KZ : Fld := ⟨0x120078, 1, 8, 8⟩
/-- `CTL_ZSEQ_CFG.KD`, R151. -/
def Reg.CTL_ZSEQ_CFG.KD : Fld := ⟨0x120078, 1, 0, 8⟩
/-- `CTL_MANUAL.VD`, R152. -/
def Reg.CTL_MANUAL.VD : Fld := ⟨0x12007C, 1, 16, 16⟩
/-- `CTL_MANUAL.VQ`, R152. -/
def Reg.CTL_MANUAL.VQ : Fld := ⟨0x12007C, 1, 0, 16⟩
/-- `CTL_EFF_GAIN.M_KP`, R153. -/
def Reg.CTL_EFF_GAIN.M_KP : Fld := ⟨0x120080, 1, 16, 16⟩
/-- `CTL_EFF_GAIN.M_KI`, R153. -/
def Reg.CTL_EFF_GAIN.M_KI : Fld := ⟨0x120080, 1, 0, 16⟩
/-- `CTL_TABLE_CTRL.SWAP`, R154. -/
def Reg.CTL_TABLE_CTRL.SWAP : Fld := ⟨0x120084, 1, 31, 1⟩
/-- `CTL_TABLE_CTRL.PENDING`, R154. -/
def Reg.CTL_TABLE_CTRL.PENDING : Fld := ⟨0x120084, 1, 30, 1⟩
/-- `CTL_TABLE_CTRL.ACTIVE`, R154. -/
def Reg.CTL_TABLE_CTRL.ACTIVE : Fld := ⟨0x120084, 1, 0, 1⟩
/-- `SYNC_PLL_CFG.FNOM`, R182. -/
def Reg.SYNC_PLL_CFG.FNOM : Fld := ⟨0x130000, 1, 31, 1⟩
/-- `SYNC_PLL_CFG.BW`, R182. -/
def Reg.SYNC_PLL_CFG.BW : Fld := ⟨0x130000, 1, 24, 7⟩
/-- `SYNC_PLL_CFG.ZETA`, R182. -/
def Reg.SYNC_PLL_CFG.ZETA : Fld := ⟨0x130000, 1, 20, 4⟩
/-- `SYNC_PLL_CFG.UCOAST`, R182. -/
def Reg.SYNC_PLL_CFG.UCOAST : Fld := ⟨0x130000, 1, 12, 8⟩
/-- `SYNC_PLL_CFG.JUMP`, R182. -/
def Reg.SYNC_PLL_CFG.JUMP : Fld := ⟨0x130000, 1, 6, 6⟩
/-- `SYNC_PLL_CFG.ROCOF_WIN`, R182. -/
def Reg.SYNC_PLL_CFG.ROCOF_WIN : Fld := ⟨0x130000, 1, 0, 6⟩
/-- `SYNC_MODE.GFM_REQ`, R183. -/
def Reg.SYNC_MODE.GFM_REQ : Fld := ⟨0x130004, 1, 31, 1⟩
/-- `SYNC_MODE.SP_RATE`, R183. -/
def Reg.SYNC_MODE.SP_RATE : Fld := ⟨0x130004, 1, 0, 16⟩
/-- `SYNC_VM_CFG.H`, R184. -/
def Reg.SYNC_VM_CFG.H : Fld := ⟨0x130008, 1, 24, 8⟩
/-- `SYNC_VM_CFG.D`, R184. -/
def Reg.SYNC_VM_CFG.D : Fld := ⟨0x130008, 1, 16, 8⟩
/-- `SYNC_VM_CFG.KV`, R184. -/
def Reg.SYNC_VM_CFG.KV : Fld := ⟨0x130008, 1, 8, 8⟩
/-- `SYNC_VM_CFG.XV`, R184. -/
def Reg.SYNC_VM_CFG.XV : Fld := ⟨0x130008, 1, 0, 8⟩
/-- `SYNC_STATUS.LOCKED`, R185. -/
def Reg.SYNC_STATUS.LOCKED : Fld := ⟨0x13000C, 1, 31, 1⟩
/-- `SYNC_STATUS.COAST`, R185. -/
def Reg.SYNC_STATUS.COAST : Fld := ⟨0x13000C, 1, 30, 1⟩
/-- `SYNC_STATUS.GFM`, R185. -/
def Reg.SYNC_STATUS.GFM : Fld := ⟨0x13000C, 1, 29, 1⟩
/-- `SYNC_STATUS.CFG_ERR`, R185. -/
def Reg.SYNC_STATUS.CFG_ERR : Fld := ⟨0x13000C, 1, 28, 1⟩
/-- `SYNC_STATUS.JUMP`, R185. -/
def Reg.SYNC_STATUS.JUMP : Fld := ⟨0x13000C, 1, 27, 1⟩
/-- `SYNC_STATUS.VP`, R185. -/
def Reg.SYNC_STATUS.VP : Fld := ⟨0x13000C, 1, 12, 12⟩
/-- `SYNC_STATUS.VN`, R185. -/
def Reg.SYNC_STATUS.VN : Fld := ⟨0x13000C, 1, 0, 12⟩
/-- `SYNC_FREQ.FREQ`, R186. -/
def Reg.SYNC_FREQ.FREQ : Fld := ⟨0x130010, 1, 12, 20⟩
/-- `SYNC_FREQ.ROCOF`, R186. -/
def Reg.SYNC_FREQ.ROCOF : Fld := ⟨0x130010, 1, 0, 12⟩
/-- `SYNC_SP_APPLIED.P`, R187. -/
def Reg.SYNC_SP_APPLIED.P : Fld := ⟨0x130014, 1, 16, 16⟩
/-- `SYNC_SP_APPLIED.Q`, R187. -/
def Reg.SYNC_SP_APPLIED.Q : Fld := ⟨0x130014, 1, 0, 16⟩
/-- `SYNC_ARB_STATUS.SAFETY_APPLIED`, R188. -/
def Reg.SYNC_ARB_STATUS.SAFETY_APPLIED : Fld := ⟨0x130018, 1, 27, 5⟩
/-- `SYNC_ARB_STATUS.ARB_COUNT`, R188. -/
def Reg.SYNC_ARB_STATUS.ARB_COUNT : Fld := ⟨0x130018, 1, 8, 8⟩
/-- `SYNC_ARB_STATUS.RING_COUNT`, R188. -/
def Reg.SYNC_ARB_STATUS.RING_COUNT : Fld := ⟨0x130018, 1, 0, 8⟩
/-- `FRT_CFG.UENTRY`, R189. -/
def Reg.FRT_CFG.UENTRY : Fld := ⟨0x140000, 1, 22, 10⟩
/-- `FRT_CFG.UHIGH`, R189. -/
def Reg.FRT_CFG.UHIGH : Fld := ⟨0x140000, 1, 11, 11⟩
/-- `FRT_CFG.HYS`, R189. -/
def Reg.FRT_CFG.HYS : Fld := ⟨0x140000, 1, 5, 6⟩
/-- `FRT_CFG.FHYS`, R189. -/
def Reg.FRT_CFG.FHYS : Fld := ⟨0x140000, 1, 0, 5⟩
/-- `FRT_INJ_CFG.K1`, R190. -/
def Reg.FRT_INJ_CFG.K1 : Fld := ⟨0x140004, 1, 24, 8⟩
/-- `FRT_INJ_CFG.K2`, R190. -/
def Reg.FRT_INJ_CFG.K2 : Fld := ⟨0x140004, 1, 16, 8⟩
/-- `FRT_INJ_CFG.SEQ_PRIO`, R190. -/
def Reg.FRT_INJ_CFG.SEQ_PRIO : Fld := ⟨0x140004, 1, 14, 2⟩
/-- `FRT_INJ_CFG.P_RECOV`, R190. -/
def Reg.FRT_INJ_CFG.P_RECOV : Fld := ⟨0x140004, 1, 0, 8⟩
/-- `FRT_MC_CFG.UMC`, R191. -/
def Reg.FRT_MC_CFG.UMC : Fld := ⟨0x140008, 1, 22, 10⟩
/-- `FRT_MC_CFG.RESTORE`, R191. -/
def Reg.FRT_MC_CFG.RESTORE : Fld := ⟨0x140008, 1, 0, 16⟩
/-- `FRT_UV_i.LEVEL`, R192. -/
def Reg.FRT_UV_i.LEVEL : Fld := ⟨0x14000C, 8, 16, 16⟩
/-- `FRT_UV_i.EN`, R192. -/
def Reg.FRT_UV_i.EN : Fld := ⟨0x14000C, 8, 15, 1⟩
/-- `FRT_UV_i.UNIT`, R192. -/
def Reg.FRT_UV_i.UNIT : Fld := ⟨0x14000C, 8, 14, 1⟩
/-- `FRT_UV_i.TIME`, R192. -/
def Reg.FRT_UV_i.TIME : Fld := ⟨0x14000C, 8, 0, 14⟩
/-- `FRT_OV_i.LEVEL`, R192. -/
def Reg.FRT_OV_i.LEVEL : Fld := ⟨0x14002C, 8, 16, 16⟩
/-- `FRT_OV_i.EN`, R192. -/
def Reg.FRT_OV_i.EN : Fld := ⟨0x14002C, 8, 15, 1⟩
/-- `FRT_OV_i.UNIT`, R192. -/
def Reg.FRT_OV_i.UNIT : Fld := ⟨0x14002C, 8, 14, 1⟩
/-- `FRT_OV_i.TIME`, R192. -/
def Reg.FRT_OV_i.TIME : Fld := ⟨0x14002C, 8, 0, 14⟩
/-- `FRT_UF_i.LEVEL`, R192. -/
def Reg.FRT_UF_i.LEVEL : Fld := ⟨0x14004C, 8, 16, 16⟩
/-- `FRT_UF_i.EN`, R192. -/
def Reg.FRT_UF_i.EN : Fld := ⟨0x14004C, 8, 15, 1⟩
/-- `FRT_UF_i.UNIT`, R192. -/
def Reg.FRT_UF_i.UNIT : Fld := ⟨0x14004C, 8, 14, 1⟩
/-- `FRT_UF_i.TIME`, R192. -/
def Reg.FRT_UF_i.TIME : Fld := ⟨0x14004C, 8, 0, 14⟩
/-- `FRT_OF_i.LEVEL`, R192. -/
def Reg.FRT_OF_i.LEVEL : Fld := ⟨0x14006C, 8, 16, 16⟩
/-- `FRT_OF_i.EN`, R192. -/
def Reg.FRT_OF_i.EN : Fld := ⟨0x14006C, 8, 15, 1⟩
/-- `FRT_OF_i.UNIT`, R192. -/
def Reg.FRT_OF_i.UNIT : Fld := ⟨0x14006C, 8, 14, 1⟩
/-- `FRT_OF_i.TIME`, R192. -/
def Reg.FRT_OF_i.TIME : Fld := ⟨0x14006C, 8, 0, 14⟩
/-- `FRT_FUNC_CFG.QMODE`, R193. -/
def Reg.FRT_FUNC_CFG.QMODE : Fld := ⟨0x14008C, 1, 30, 2⟩
/-- `FRT_FUNC_CFG.PF_SIGN`, R193. -/
def Reg.FRT_FUNC_CFG.PF_SIGN : Fld := ⟨0x14008C, 1, 29, 1⟩
/-- `FRT_FUNC_CFG.PF`, R193. -/
def Reg.FRT_FUNC_CFG.PF : Fld := ⟨0x14008C, 1, 19, 10⟩
/-- `FRT_FUNC_CFG.FW_EN`, R193. -/
def Reg.FRT_FUNC_CFG.FW_EN : Fld := ⟨0x14008C, 1, 18, 1⟩
/-- `FRT_FUNC_CFG.DB`, R193. -/
def Reg.FRT_FUNC_CFG.DB : Fld := ⟨0x14008C, 1, 8, 10⟩
/-- `FRT_FUNC_CFG.DROOP`, R193. -/
def Reg.FRT_FUNC_CFG.DROOP : Fld := ⟨0x14008C, 1, 0, 8⟩
/-- `FRT_QV_i.V`, R194. -/
def Reg.FRT_QV_i.V : Fld := ⟨0x140090, 4, 16, 16⟩
/-- `FRT_QV_i.Q`, R194. -/
def Reg.FRT_QV_i.Q : Fld := ⟨0x140090, 4, 0, 16⟩
/-- `FRT_QV_CFG.OLRT`, R195. -/
def Reg.FRT_QV_CFG.OLRT : Fld := ⟨0x1400A0, 1, 0, 16⟩
/-- `FRT_ENTER_WIN.ULO`, R196. -/
def Reg.FRT_ENTER_WIN.ULO : Fld := ⟨0x1400A4, 1, 22, 10⟩
/-- `FRT_ENTER_WIN.UHI`, R196. -/
def Reg.FRT_ENTER_WIN.UHI : Fld := ⟨0x1400A4, 1, 11, 11⟩
/-- `FRT_ENTER_WIN.FDEV`, R196. -/
def Reg.FRT_ENTER_WIN.FDEV : Fld := ⟨0x1400A4, 1, 0, 11⟩
/-- `FRT_ENTER_CFG.DELAY`, R197. -/
def Reg.FRT_ENTER_CFG.DELAY : Fld := ⟨0x1400A8, 1, 16, 16⟩
/-- `FRT_ENTER_CFG.RAMP`, R197. -/
def Reg.FRT_ENTER_CFG.RAMP : Fld := ⟨0x1400A8, 1, 0, 16⟩
/-- `FRT_STATUS.STATE`, R198. -/
def Reg.FRT_STATUS.STATE : Fld := ⟨0x1400AC, 1, 29, 3⟩
/-- `FRT_STATUS.TRIP_CURVE`, R198. -/
def Reg.FRT_STATUS.TRIP_CURVE : Fld := ⟨0x1400AC, 1, 27, 2⟩
/-- `FRT_STATUS.TRIP_STAGE`, R198. -/
def Reg.FRT_STATUS.TRIP_STAGE : Fld := ⟨0x1400AC, 1, 24, 3⟩
/-- `FRT_STATUS.ENTER_OK`, R198. -/
def Reg.FRT_STATUS.ENTER_OK : Fld := ⟨0x1400AC, 1, 23, 1⟩
/-- `FRT_STATUS.EVENT_COUNT`, R198. -/
def Reg.FRT_STATUS.EVENT_COUNT : Fld := ⟨0x1400AC, 1, 0, 16⟩
/-- `FRT_TABLE_CTRL.SWAP`, R176. -/
def Reg.FRT_TABLE_CTRL.SWAP : Fld := ⟨0x1400B0, 1, 31, 1⟩
/-- `FRT_TABLE_CTRL.PENDING`, R176. -/
def Reg.FRT_TABLE_CTRL.PENDING : Fld := ⟨0x1400B0, 1, 30, 1⟩
/-- `FRT_TABLE_CTRL.ACTIVE`, R176. -/
def Reg.FRT_TABLE_CTRL.ACTIVE : Fld := ⟨0x1400B0, 1, 0, 1⟩
/-- `MIR_CFG.EN`, R218. -/
def Reg.MIR_CFG.EN : Fld := ⟨0x150000, 1, 31, 1⟩
/-- `MIR_CFG.AXIS`, R218. -/
def Reg.MIR_CFG.AXIS : Fld := ⟨0x150000, 1, 30, 1⟩
/-- `MIR_CFG.CHIPLEN`, R218. -/
def Reg.MIR_CFG.CHIPLEN : Fld := ⟨0x150000, 1, 28, 2⟩
/-- `MIR_CFG.CODE_IDX`, R218. -/
def Reg.MIR_CFG.CODE_IDX : Fld := ⟨0x150000, 1, 22, 6⟩
/-- `MIR_CFG.AMP`, R218. -/
def Reg.MIR_CFG.AMP : Fld := ⟨0x150000, 1, 8, 8⟩
/-- `MIR_WIN_CFG.WINDOW`, R219. -/
def Reg.MIR_WIN_CFG.WINDOW : Fld := ⟨0x150004, 1, 19, 13⟩
/-- `MIR_WIN_CFG.UPDATE`, R219. -/
def Reg.MIR_WIN_CFG.UPDATE : Fld := ⟨0x150004, 1, 13, 6⟩
/-- `MIR_WIN_CFG.CONFIRM`, R219. -/
def Reg.MIR_WIN_CFG.CONFIRM : Fld := ⟨0x150004, 1, 9, 4⟩
/-- `MIR_WIN_CFG.BASE_TAU`, R219. -/
def Reg.MIR_WIN_CFG.BASE_TAU : Fld := ⟨0x150004, 1, 0, 8⟩
/-- `MIR_THR_CFG.ZDEV`, R220. -/
def Reg.MIR_THR_CFG.ZDEV : Fld := ⟨0x150008, 1, 24, 8⟩
/-- `MIR_THR_CFG.ZMIN`, R220. -/
def Reg.MIR_THR_CFG.ZMIN : Fld := ⟨0x150008, 1, 16, 8⟩
/-- `MIR_THR_CFG.ZTRIP`, R220. -/
def Reg.MIR_THR_CFG.ZTRIP : Fld := ⟨0x150008, 1, 0, 16⟩
/-- `MIR_BASE.ZR`, R221. -/
def Reg.MIR_BASE.ZR : Fld := ⟨0x15000C, 1, 16, 16⟩
/-- `MIR_BASE.ZX`, R221. -/
def Reg.MIR_BASE.ZX : Fld := ⟨0x15000C, 1, 0, 16⟩
/-- `MIR_Z.ZR`, R221. -/
def Reg.MIR_Z.ZR : Fld := ⟨0x150010, 1, 16, 16⟩
/-- `MIR_Z.ZX`, R221. -/
def Reg.MIR_Z.ZX : Fld := ⟨0x150010, 1, 0, 16⟩
/-- `MIR_PASSIVE_CFG.ROCOF_EN`, R222. -/
def Reg.MIR_PASSIVE_CFG.ROCOF_EN : Fld := ⟨0x150014, 1, 31, 1⟩
/-- `MIR_PASSIVE_CFG.VS_EN`, R222. -/
def Reg.MIR_PASSIVE_CFG.VS_EN : Fld := ⟨0x150014, 1, 30, 1⟩
/-- `MIR_PASSIVE_CFG.ROCOF_LVL`, R222. -/
def Reg.MIR_PASSIVE_CFG.ROCOF_LVL : Fld := ⟨0x150014, 1, 16, 8⟩
/-- `MIR_PASSIVE_CFG.ROCOF_TIME`, R222. -/
def Reg.MIR_PASSIVE_CFG.ROCOF_TIME : Fld := ⟨0x150014, 1, 8, 8⟩
/-- `MIR_PASSIVE_CFG.VS_LVL`, R222. -/
def Reg.MIR_PASSIVE_CFG.VS_LVL : Fld := ⟨0x150014, 1, 0, 8⟩
/-- `MIR_ACT_CFG.GFM_ACT`, R223. -/
def Reg.MIR_ACT_CFG.GFM_ACT : Fld := ⟨0x150018, 1, 31, 1⟩
/-- `MIR_ACT_CFG.FAULT_TRIP`, R223. -/
def Reg.MIR_ACT_CFG.FAULT_TRIP : Fld := ⟨0x150018, 1, 30, 1⟩
/-- `MIR_STATUS.ISLAND`, R224. -/
def Reg.MIR_STATUS.ISLAND : Fld := ⟨0x15001C, 1, 31, 1⟩
/-- `MIR_STATUS.CAUSE`, R224. -/
def Reg.MIR_STATUS.CAUSE : Fld := ⟨0x15001C, 1, 28, 3⟩
/-- `MIR_STATUS.VALID`, R224. -/
def Reg.MIR_STATUS.VALID : Fld := ⟨0x15001C, 1, 27, 1⟩
/-- `MIR_STATUS.FULL`, R224. -/
def Reg.MIR_STATUS.FULL : Fld := ⟨0x15001C, 1, 26, 1⟩
/-- `MIR_STATUS.INJECT`, R224. -/
def Reg.MIR_STATUS.INJECT : Fld := ⟨0x15001C, 1, 25, 1⟩
/-- `MIR_STATUS.FAULT`, R224. -/
def Reg.MIR_STATUS.FAULT : Fld := ⟨0x15001C, 1, 24, 1⟩
/-- `MIR_STATUS.CFG_ERR`, R224. -/
def Reg.MIR_STATUS.CFG_ERR : Fld := ⟨0x15001C, 1, 23, 1⟩
/-- `MIR_STATUS.PEND`, R224. -/
def Reg.MIR_STATUS.PEND : Fld := ⟨0x15001C, 1, 16, 4⟩
/-- `MIR_STATUS.FILL`, R224. -/
def Reg.MIR_STATUS.FILL : Fld := ⟨0x15001C, 1, 0, 13⟩
/-- `MIR_TABLE_CTRL.SWAP`, R217. -/
def Reg.MIR_TABLE_CTRL.SWAP : Fld := ⟨0x150020, 1, 31, 1⟩
/-- `MIR_TABLE_CTRL.PENDING`, R217. -/
def Reg.MIR_TABLE_CTRL.PENDING : Fld := ⟨0x150020, 1, 30, 1⟩
/-- `MIR_TABLE_CTRL.ACTIVE`, R217. -/
def Reg.MIR_TABLE_CTRL.ACTIVE : Fld := ⟨0x150020, 1, 0, 1⟩
/-- `PORT_TRK_CFG.DAMP`, R244. -/
def Reg.PORT_TRK_CFG.DAMP : Fld := ⟨0x160000, 1, 24, 8⟩
/-- `PORT_TRK_CFG.KG`, R244. -/
def Reg.PORT_TRK_CFG.KG : Fld := ⟨0x160000, 1, 16, 8⟩
/-- `PORT_TRK_CFG.DELAY`, R244. -/
def Reg.PORT_TRK_CFG.DELAY : Fld := ⟨0x160000, 1, 12, 4⟩
/-- `PORT_TRK_CFG.VSTEP`, R244. -/
def Reg.PORT_TRK_CFG.VSTEP : Fld := ⟨0x160000, 1, 8, 4⟩
/-- `PORT_TRK_CFG.DRIFT`, R244. -/
def Reg.PORT_TRK_CFG.DRIFT : Fld := ⟨0x160000, 1, 4, 4⟩
/-- `PORT_TRK_CFG.PMIN`, R244. -/
def Reg.PORT_TRK_CFG.PMIN : Fld := ⟨0x160000, 1, 0, 4⟩
/-- `PORT_SCAN_CFG.PERIOD`, R245. -/
def Reg.PORT_SCAN_CFG.PERIOD : Fld := ⟨0x160004, 1, 24, 8⟩
/-- `PORT_SCAN_CFG.TRIG`, R245. -/
def Reg.PORT_SCAN_CFG.TRIG : Fld := ⟨0x160004, 1, 16, 8⟩
/-- `PORT_SCAN_CFG.STEP`, R245. -/
def Reg.PORT_SCAN_CFG.STEP : Fld := ⟨0x160004, 1, 12, 4⟩
/-- `PORT_SCAN_CFG.CONC`, R245. -/
def Reg.PORT_SCAN_CFG.CONC : Fld := ⟨0x160004, 1, 8, 4⟩
/-- `PORT_SCAN_CFG.DWELL`, R245. -/
def Reg.PORT_SCAN_CFG.DWELL : Fld := ⟨0x160004, 1, 0, 8⟩
/-- `PORT_PACK_GCFG.TLO`, R246. -/
def Reg.PORT_PACK_GCFG.TLO : Fld := ⟨0x160008, 1, 24, 8⟩
/-- `PORT_PACK_GCFG.TCOLD`, R246. -/
def Reg.PORT_PACK_GCFG.TCOLD : Fld := ⟨0x160008, 1, 16, 8⟩
/-- `PORT_PACK_GCFG.THOT`, R246. -/
def Reg.PORT_PACK_GCFG.THOT : Fld := ⟨0x160008, 1, 8, 8⟩
/-- `PORT_PACK_GCFG.THI`, R246. -/
def Reg.PORT_PACK_GCFG.THI : Fld := ⟨0x160008, 1, 0, 8⟩
/-- `PORT_AGE_CFG.AGE_K`, R247. -/
def Reg.PORT_AGE_CFG.AGE_K : Fld := ⟨0x16000C, 1, 24, 8⟩
/-- `PORT_AGE_CFG.SOH_REF`, R247. -/
def Reg.PORT_AGE_CFG.SOH_REF : Fld := ⟨0x16000C, 1, 14, 10⟩
/-- `PORT_AGE_CFG.TRIM`, R247. -/
def Reg.PORT_AGE_CFG.TRIM : Fld := ⟨0x16000C, 1, 8, 6⟩
/-- `PORT_TABLE_CTRL.SWAP`, R243. -/
def Reg.PORT_TABLE_CTRL.SWAP : Fld := ⟨0x160010, 1, 31, 1⟩
/-- `PORT_TABLE_CTRL.PENDING`, R243. -/
def Reg.PORT_TABLE_CTRL.PENDING : Fld := ⟨0x160010, 1, 30, 1⟩
/-- `PORT_TABLE_CTRL.ACTIVE`, R243. -/
def Reg.PORT_TABLE_CTRL.ACTIVE : Fld := ⟨0x160010, 1, 0, 1⟩
/-- `PORT_PV_SUM.PAVAIL`, R256. -/
def Reg.PORT_PV_SUM.PAVAIL : Fld := ⟨0x160014, 1, 16, 16⟩
/-- `PORT_PV_SUM.CURT_COUNT`, R256. -/
def Reg.PORT_PV_SUM.CURT_COUNT : Fld := ⟨0x160014, 1, 8, 8⟩
/-- `PORT_PV_SUM.SCAN_COUNT`, R256. -/
def Reg.PORT_PV_SUM.SCAN_COUNT : Fld := ⟨0x160014, 1, 0, 8⟩
/-- `PORT_CTRL.SCAN_REQ`, R257. -/
def Reg.PORT_CTRL.SCAN_REQ : Fld := ⟨0x160018, 1, 31, 1⟩
/-- `PORT_CTRL.SCAN_ALL`, R257. -/
def Reg.PORT_CTRL.SCAN_ALL : Fld := ⟨0x160018, 1, 30, 1⟩
/-- `PORT_CTRL.CELL`, R257. -/
def Reg.PORT_CTRL.CELL : Fld := ⟨0x160018, 1, 0, 8⟩
/-- `PORT_GSTATUS.CFG_ERR`, R258. -/
def Reg.PORT_GSTATUS.CFG_ERR : Fld := ⟨0x16001C, 1, 31, 1⟩
/-- `PORT_GSTATUS.SCAN_BLOCKED`, R258. -/
def Reg.PORT_GSTATUS.SCAN_BLOCKED : Fld := ⟨0x16001C, 1, 30, 1⟩
/-- `PORT_GSTATUS.DRIFT_SKIPS`, R258. -/
def Reg.PORT_GSTATUS.DRIFT_SKIPS : Fld := ⟨0x16001C, 1, 0, 16⟩
/-- `PORT_PV_CFG_n.TRK_EN`, R248. -/
def Reg.PORT_PV_CFG_n.TRK_EN : Fld := ⟨0x170000, 240, 31, 1⟩
/-- `PORT_PV_CFG_n.ROW`, R248. -/
def Reg.PORT_PV_CFG_n.ROW : Fld := ⟨0x170000, 240, 22, 8⟩
/-- `PORT_PV_CFG_n.VMAX`, R248. -/
def Reg.PORT_PV_CFG_n.VMAX : Fld := ⟨0x170000, 240, 11, 11⟩
/-- `PORT_PV_CFG_n.VMIN`, R248. -/
def Reg.PORT_PV_CFG_n.VMIN : Fld := ⟨0x170000, 240, 0, 11⟩
/-- `PORT_PACK_LIM_n.IDIS`, R249. -/
def Reg.PORT_PACK_LIM_n.IDIS : Fld := ⟨0x180000, 240, 16, 16⟩
/-- `PORT_PACK_LIM_n.ICHG`, R249. -/
def Reg.PORT_PACK_LIM_n.ICHG : Fld := ⟨0x180000, 240, 0, 16⟩
/-- `PORT_PACK_WIN_n.SOC_MIN`, R250. -/
def Reg.PORT_PACK_WIN_n.SOC_MIN : Fld := ⟨0x180400, 240, 24, 8⟩
/-- `PORT_PACK_WIN_n.SOC_MAX`, R250. -/
def Reg.PORT_PACK_WIN_n.SOC_MAX : Fld := ⟨0x180400, 240, 16, 8⟩
/-- `PORT_PACK_WIN_n.TAPER`, R250. -/
def Reg.PORT_PACK_WIN_n.TAPER : Fld := ⟨0x180400, 240, 8, 8⟩
/-- `PORT_PACK_VLIM_n.VMAX`, R251. -/
def Reg.PORT_PACK_VLIM_n.VMAX : Fld := ⟨0x180800, 240, 16, 11⟩
/-- `PORT_PACK_VLIM_n.VMIN`, R251. -/
def Reg.PORT_PACK_VLIM_n.VMIN : Fld := ⟨0x180800, 240, 0, 11⟩
/-- `PORT_PACK_SOH_n.SOH`, R252. -/
def Reg.PORT_PACK_SOH_n.SOH : Fld := ⟨0x180C00, 240, 0, 10⟩
/-- `PORT_SET_n.SET`, R253. -/
def Reg.PORT_SET_n.SET : Fld := ⟨0x190000, 240, 16, 16⟩
/-- `PORT_SET_n.GRAD`, R253. -/
def Reg.PORT_SET_n.GRAD : Fld := ⟨0x190000, 240, 0, 16⟩
/-- `PORT_WIN_n.IHI`, R254. -/
def Reg.PORT_WIN_n.IHI : Fld := ⟨0x190400, 240, 16, 16⟩
/-- `PORT_WIN_n.ILO`, R254. -/
def Reg.PORT_WIN_n.ILO : Fld := ⟨0x190400, 240, 0, 16⟩
/-- `PORT_STATUS_n.CLIP_DIS`, R255. -/
def Reg.PORT_STATUS_n.CLIP_DIS : Fld := ⟨0x190800, 240, 31, 1⟩
/-- `PORT_STATUS_n.CLIP_CHG`, R255. -/
def Reg.PORT_STATUS_n.CLIP_CHG : Fld := ⟨0x190800, 240, 30, 1⟩
/-- `PORT_STATUS_n.LEASE`, R255. -/
def Reg.PORT_STATUS_n.LEASE : Fld := ⟨0x190800, 240, 29, 1⟩
/-- `PORT_STATUS_n.SOC_LO`, R255. -/
def Reg.PORT_STATUS_n.SOC_LO : Fld := ⟨0x190800, 240, 28, 1⟩
/-- `PORT_STATUS_n.SOC_HI`, R255. -/
def Reg.PORT_STATUS_n.SOC_HI : Fld := ⟨0x190800, 240, 27, 1⟩
/-- `PORT_STATUS_n.TEMP`, R255. -/
def Reg.PORT_STATUS_n.TEMP : Fld := ⟨0x190800, 240, 26, 1⟩
/-- `PORT_STATUS_n.VPACK`, R255. -/
def Reg.PORT_STATUS_n.VPACK : Fld := ⟨0x190800, 240, 25, 1⟩
/-- `PORT_STATUS_n.ALARM`, R255. -/
def Reg.PORT_STATUS_n.ALARM : Fld := ⟨0x190800, 240, 24, 1⟩
/-- `PORT_STATUS_n.CURT`, R255. -/
def Reg.PORT_STATUS_n.CURT : Fld := ⟨0x190800, 240, 23, 1⟩
/-- `PORT_STATUS_n.SCAN`, R255. -/
def Reg.PORT_STATUS_n.SCAN : Fld := ⟨0x190800, 240, 22, 1⟩
/-- `PORT_STATUS_n.QUEUED`, R255. -/
def Reg.PORT_STATUS_n.QUEUED : Fld := ⟨0x190800, 240, 21, 1⟩
/-- `PORT_STATUS_n.HOLD`, R255. -/
def Reg.PORT_STATUS_n.HOLD : Fld := ⟨0x190800, 240, 20, 1⟩
/-- `ADC_CTL_CFG.NAVG`, R374. -/
def Reg.ADC_CTL_CFG.NAVG : Fld := ⟨0x1A0000, 1, 29, 3⟩
/-- `ADC_CTL_CFG.DELAY`, R374. -/
def Reg.ADC_CTL_CFG.DELAY : Fld := ⟨0x1A0000, 1, 0, 13⟩
/-- `ADC_CHK_CFG.PAIR_LIM`, R375. -/
def Reg.ADC_CHK_CFG.PAIR_LIM : Fld := ⟨0x1A0004, 1, 24, 8⟩
/-- `ADC_CHK_CFG.SUM_LIM`, R375. -/
def Reg.ADC_CHK_CFG.SUM_LIM : Fld := ⟨0x1A0004, 1, 16, 8⟩
/-- `ADC_CHK_CFG.CHK_TICKS`, R375. -/
def Reg.ADC_CHK_CFG.CHK_TICKS : Fld := ⟨0x1A0004, 1, 12, 4⟩
/-- `ADC_STATUS.CFG_ERR`, R386. -/
def Reg.ADC_STATUS.CFG_ERR : Fld := ⟨0x1A0008, 1, 31, 1⟩
/-- `ADC_STATUS.CHK_FAIL`, R386. -/
def Reg.ADC_STATUS.CHK_FAIL : Fld := ⟨0x1A0008, 1, 30, 1⟩
/-- `ADC_STATUS.CHK_KIND`, R386. -/
def Reg.ADC_STATUS.CHK_KIND : Fld := ⟨0x1A0008, 1, 28, 2⟩
/-- `ADC_STATUS.CHK_PHASE`, R386. -/
def Reg.ADC_STATUS.CHK_PHASE : Fld := ⟨0x1A0008, 1, 26, 2⟩
/-- `ADC_STATUS.TRIG_MISS`, R386. -/
def Reg.ADC_STATUS.TRIG_MISS : Fld := ⟨0x1A0008, 1, 16, 8⟩
/-- `ADC_STATUS.CAL_DONE`, R386. -/
def Reg.ADC_STATUS.CAL_DONE : Fld := ⟨0x1A0008, 1, 0, 16⟩
/-- `ADC_OVR.OVR`, R387. -/
def Reg.ADC_OVR.OVR : Fld := ⟨0x1A000C, 1, 0, 16⟩
/-- `ADC_CH_CFG_n.EN`, R372. -/
def Reg.ADC_CH_CFG_n.EN : Fld := ⟨0x1B0000, 16, 31, 1⟩
/-- `ADC_CH_CFG_n.RANGE`, R372. -/
def Reg.ADC_CH_CFG_n.RANGE : Fld := ⟨0x1B0000, 16, 30, 1⟩
/-- `ADC_CH_CFG_n.TEST`, R372. -/
def Reg.ADC_CH_CFG_n.TEST : Fld := ⟨0x1B0000, 16, 29, 1⟩
/-- `ADC_CH_CFG_n.FUNC`, R372. -/
def Reg.ADC_CH_CFG_n.FUNC : Fld := ⟨0x1B0000, 16, 24, 5⟩
/-- `ADC_CH_CFG_n.TESTLVL`, R372. -/
def Reg.ADC_CH_CFG_n.TESTLVL : Fld := ⟨0x1B0000, 16, 22, 2⟩
/-- `ADC_CH_CFG_n.FS`, R372. -/
def Reg.ADC_CH_CFG_n.FS : Fld := ⟨0x1B0000, 16, 0, 16⟩
/-- `ADC_CH_CAL_n.GAIN`, R373. -/
def Reg.ADC_CH_CAL_n.GAIN : Fld := ⟨0x1B0040, 16, 16, 16⟩
/-- `ADC_CH_CAL_n.OFFSET`, R373. -/
def Reg.ADC_CH_CAL_n.OFFSET : Fld := ⟨0x1B0040, 16, 0, 16⟩
/-- `ADC_TRIG_CFG_t.EN`, R376. -/
def Reg.ADC_TRIG_CFG_t.EN : Fld := ⟨0x1C0000, 16, 31, 1⟩
/-- `ADC_TRIG_CFG_t.SRC`, R376. -/
def Reg.ADC_TRIG_CFG_t.SRC : Fld := ⟨0x1C0000, 16, 28, 3⟩
/-- `ADC_TRIG_CFG_t.CHAIN`, R376. -/
def Reg.ADC_TRIG_CFG_t.CHAIN : Fld := ⟨0x1C0000, 16, 24, 4⟩
/-- `ADC_TRIG_CFG_t.QUEUE`, R376. -/
def Reg.ADC_TRIG_CFG_t.QUEUE : Fld := ⟨0x1C0000, 16, 21, 3⟩
/-- `ADC_TRIG_CFG_t.AVG`, R376. -/
def Reg.ADC_TRIG_CFG_t.AVG : Fld := ⟨0x1C0000, 16, 18, 3⟩
/-- `ADC_TRIG_CFG_t.BURST`, R376. -/
def Reg.ADC_TRIG_CFG_t.BURST : Fld := ⟨0x1C0000, 16, 10, 8⟩
/-- `ADC_TRIG_SEL_t.DELAY`, R377. -/
def Reg.ADC_TRIG_SEL_t.DELAY : Fld := ⟨0x1C0040, 16, 16, 16⟩
/-- `ADC_TRIG_SEL_t.MASK`, R377. -/
def Reg.ADC_TRIG_SEL_t.MASK : Fld := ⟨0x1C0040, 16, 0, 16⟩
/-- `ADC_TRIG_TIMER_t.PERIOD`, R378. -/
def Reg.ADC_TRIG_TIMER_t.PERIOD : Fld := ⟨0x1C0080, 16, 0, 24⟩
/-- `ADC_SW_TRIG.FIRE`, R379. -/
def Reg.ADC_SW_TRIG.FIRE : Fld := ⟨0x1C00C0, 1, 0, 16⟩
/-- `ADC_Q_CFG_q.EN`, R380. -/
def Reg.ADC_Q_CFG_q.EN : Fld := ⟨0x1D0000, 8, 31, 1⟩
/-- `ADC_Q_CFG_q.MODE`, R380. -/
def Reg.ADC_Q_CFG_q.MODE : Fld := ⟨0x1D0000, 8, 29, 2⟩
/-- `ADC_Q_CFG_q.DRAIN`, R380. -/
def Reg.ADC_Q_CFG_q.DRAIN : Fld := ⟨0x1D0000, 8, 28, 1⟩
/-- `ADC_Q_CFG_q.RING`, R380. -/
def Reg.ADC_Q_CFG_q.RING : Fld := ⟨0x1D0000, 8, 22, 6⟩
/-- `ADC_Q_CFG_q.POST`, R380. -/
def Reg.ADC_Q_CFG_q.POST : Fld := ⟨0x1D0000, 8, 0, 13⟩
/-- `ADC_Q_CAP_q.CMP`, R381. -/
def Reg.ADC_Q_CAP_q.CMP : Fld := ⟨0x1D0020, 8, 16, 16⟩
/-- `ADC_Q_CAP_q.SLC`, R381. -/
def Reg.ADC_Q_CAP_q.SLC : Fld := ⟨0x1D0020, 8, 15, 1⟩
/-- `ADC_Q_CAP_q.FRT`, R381. -/
def Reg.ADC_Q_CAP_q.FRT : Fld := ⟨0x1D0020, 8, 14, 1⟩
/-- `ADC_Q_CAP_q.HOST`, R381. -/
def Reg.ADC_Q_CAP_q.HOST : Fld := ⟨0x1D0020, 8, 13, 1⟩
/-- `ADC_Q_CAP_q.ARM`, R381. -/
def Reg.ADC_Q_CAP_q.ARM : Fld := ⟨0x1D0020, 8, 12, 1⟩
/-- `ADC_Q_STATUS_q.STATE`, R382. -/
def Reg.ADC_Q_STATUS_q.STATE : Fld := ⟨0x1D0040, 8, 29, 3⟩
/-- `ADC_Q_STATUS_q.TRUNC`, R382. -/
def Reg.ADC_Q_STATUS_q.TRUNC : Fld := ⟨0x1D0040, 8, 28, 1⟩
/-- `ADC_Q_STATUS_q.DROP`, R382. -/
def Reg.ADC_Q_STATUS_q.DROP : Fld := ⟨0x1D0040, 8, 16, 12⟩
/-- `ADC_Q_STATUS_q.FILL`, R382. -/
def Reg.ADC_Q_STATUS_q.FILL : Fld := ⟨0x1D0040, 8, 0, 13⟩
/-- `ADC_HK_CFG.QEN`, R383. -/
def Reg.ADC_HK_CFG.QEN : Fld := ⟨0x1E0000, 1, 31, 1⟩
/-- `ADC_HK_CFG.QUEUE`, R383. -/
def Reg.ADC_HK_CFG.QUEUE : Fld := ⟨0x1E0000, 1, 28, 3⟩
/-- `ADC_HK_CFG.SKIPPED`, R383. -/
def Reg.ADC_HK_CFG.SKIPPED : Fld := ⟨0x1E0000, 1, 20, 8⟩
/-- `ADC_HK_CFG.PERIOD`, R383. -/
def Reg.ADC_HK_CFG.PERIOD : Fld := ⟨0x1E0000, 1, 0, 17⟩
/-- `ADC_HK_EN.EN`, R384. -/
def Reg.ADC_HK_EN.EN : Fld := ⟨0x1E0004, 1, 0, 24⟩
/-- `ADC_HK_RES_c.ROUND`, R385. -/
def Reg.ADC_HK_RES_c.ROUND : Fld := ⟨0x1E0008, 48, 16, 16⟩
/-- `ADC_HK_RES_c.VALUE`, R385. -/
def Reg.ADC_HK_RES_c.VALUE : Fld := ⟨0x1E0008, 48, 0, 12⟩
/-- `CMP_CFG_n.MODE`, R388. -/
def Reg.CMP_CFG_n.MODE : Fld := ⟨0x1F0000, 16, 30, 2⟩
/-- `CMP_CFG_n.RAMP`, R388. -/
def Reg.CMP_CFG_n.RAMP : Fld := ⟨0x1F0000, 16, 29, 1⟩
/-- `CMP_CFG_n.CLR`, R388. -/
def Reg.CMP_CFG_n.CLR : Fld := ⟨0x1F0000, 16, 28, 1⟩
/-- `CMP_CFG_n.PERIOD_SRC`, R388. -/
def Reg.CMP_CFG_n.PERIOD_SRC : Fld := ⟨0x1F0000, 16, 23, 5⟩
/-- `CMP_CFG_n.FILT`, R388. -/
def Reg.CMP_CFG_n.FILT : Fld := ⟨0x1F0000, 16, 20, 3⟩
/-- `CMP_CFG_n.HYS`, R388. -/
def Reg.CMP_CFG_n.HYS : Fld := ⟨0x1F0000, 16, 18, 2⟩
/-- `CMP_CFG_n.REF`, R388. -/
def Reg.CMP_CFG_n.REF : Fld := ⟨0x1F0000, 16, 0, 8⟩
/-- `CMP_RAMP_n.SLOPE`, R389. -/
def Reg.CMP_RAMP_n.SLOPE : Fld := ⟨0x1F0040, 16, 0, 16⟩
/-- `CMP_STATUS.LIVE`, R390. -/
def Reg.CMP_STATUS.LIVE : Fld := ⟨0x1F0080, 1, 16, 16⟩
/-- `CMP_STATUS.LATCH`, R390. -/
def Reg.CMP_STATUS.LATCH : Fld := ⟨0x1F0080, 1, 0, 16⟩
/-- `SLC_CFG.MIN_BLOCK`, R413. -/
def Reg.SLC_CFG.MIN_BLOCK : Fld := ⟨0x200000, 1, 24, 8⟩
/-- `SLC_CFG.BRK_HOLD`, R413. -/
def Reg.SLC_CFG.BRK_HOLD : Fld := ⟨0x200000, 1, 16, 8⟩
/-- `SLC_CFG.TRIP_IN_FILT`, R413. -/
def Reg.SLC_CFG.TRIP_IN_FILT : Fld := ⟨0x200000, 1, 0, 3⟩
/-- `SLC_TR_ROUTE.CAUSE6`, R414. -/
def Reg.SLC_TR_ROUTE.CAUSE6 : Fld := ⟨0x200004, 1, 4, 2⟩
/-- `SLC_TR_ROUTE.CAUSE5`, R414. -/
def Reg.SLC_TR_ROUTE.CAUSE5 : Fld := ⟨0x200004, 1, 2, 2⟩
/-- `SLC_TR_ROUTE.CAUSE4`, R414. -/
def Reg.SLC_TR_ROUTE.CAUSE4 : Fld := ⟨0x200004, 1, 0, 2⟩
/-- `SLC_CMP_ROUTE_n.ACTION`, R415. -/
def Reg.SLC_CMP_ROUTE_n.ACTION : Fld := ⟨0x200008, 16, 30, 2⟩
/-- `SLC_CMP_ROUTE_n.PHASE`, R415. -/
def Reg.SLC_CMP_ROUTE_n.PHASE : Fld := ⟨0x200008, 16, 28, 2⟩
/-- `SLC_CMP_ROUTE_n.DRV0`, R415. -/
def Reg.SLC_CMP_ROUTE_n.DRV0 : Fld := ⟨0x200008, 16, 27, 1⟩
/-- `SLC_CMP_ROUTE_n.DRV1`, R415. -/
def Reg.SLC_CMP_ROUTE_n.DRV1 : Fld := ⟨0x200008, 16, 26, 1⟩
/-- `SLC_CMP_ROUTE_n.BLANK_SRC`, R415. -/
def Reg.SLC_CMP_ROUTE_n.BLANK_SRC : Fld := ⟨0x200008, 16, 21, 5⟩
/-- `SLC_CMP_ROUTE_n.BLANK_LEN`, R415. -/
def Reg.SLC_CMP_ROUTE_n.BLANK_LEN : Fld := ⟨0x200008, 16, 0, 10⟩
/-- `SLC_SRC_ROUTE.SAFE_DRV0`, R416. -/
def Reg.SLC_SRC_ROUTE.SAFE_DRV0 : Fld := ⟨0x200048, 1, 31, 1⟩
/-- `SLC_SRC_ROUTE.SAFE_DRV1`, R416. -/
def Reg.SLC_SRC_ROUTE.SAFE_DRV1 : Fld := ⟨0x200048, 1, 30, 1⟩
/-- `SLC_SRC_ROUTE.TRIPIN_DRV0`, R416. -/
def Reg.SLC_SRC_ROUTE.TRIPIN_DRV0 : Fld := ⟨0x200048, 1, 29, 1⟩
/-- `SLC_SRC_ROUTE.TRIPIN_DRV1`, R416. -/
def Reg.SLC_SRC_ROUTE.TRIPIN_DRV1 : Fld := ⟨0x200048, 1, 28, 1⟩
/-- `SLC_SRC_ROUTE.TRIPIN_ACT`, R416. -/
def Reg.SLC_SRC_ROUTE.TRIPIN_ACT : Fld := ⟨0x200048, 1, 26, 2⟩
/-- `SLC_DRV_SC_CFG_m.MODE`, R417. -/
def Reg.SLC_DRV_SC_CFG_m.MODE : Fld := ⟨0x20004C, 2, 31, 1⟩
/-- `SLC_DRV_SC_CFG_m.SC_LVL`, R417. -/
def Reg.SLC_DRV_SC_CFG_m.SC_LVL : Fld := ⟨0x20004C, 2, 20, 11⟩
/-- `SLC_DRV_SC_CFG_m.DIDT_LVL`, R417. -/
def Reg.SLC_DRV_SC_CFG_m.DIDT_LVL : Fld := ⟨0x20004C, 2, 12, 8⟩
/-- `SLC_DRV_SC_CFG_m.BLANK`, R417. -/
def Reg.SLC_DRV_SC_CFG_m.BLANK : Fld := ⟨0x20004C, 2, 4, 8⟩
/-- `SLC_DRV_SC_CFG_m.SOFT`, R417. -/
def Reg.SLC_DRV_SC_CFG_m.SOFT : Fld := ⟨0x20004C, 2, 0, 4⟩
/-- `SLC_DRV_SC_STATUS.HARD1`, R418. -/
def Reg.SLC_DRV_SC_STATUS.HARD1 : Fld := ⟨0x200054, 1, 13, 1⟩
/-- `SLC_DRV_SC_STATUS.HARD0`, R418. -/
def Reg.SLC_DRV_SC_STATUS.HARD0 : Fld := ⟨0x200054, 1, 12, 1⟩
/-- `SLC_DRV_SC_STATUS.BOTH1`, R418. -/
def Reg.SLC_DRV_SC_STATUS.BOTH1 : Fld := ⟨0x200054, 1, 11, 1⟩
/-- `SLC_DRV_SC_STATUS.BOTH0`, R418. -/
def Reg.SLC_DRV_SC_STATUS.BOTH0 : Fld := ⟨0x200054, 1, 10, 1⟩
/-- `SLC_DRV_SC_STATUS.LEGS1`, R418. -/
def Reg.SLC_DRV_SC_STATUS.LEGS1 : Fld := ⟨0x200054, 1, 3, 3⟩
/-- `SLC_DRV_SC_STATUS.LEGS0`, R418. -/
def Reg.SLC_DRV_SC_STATUS.LEGS0 : Fld := ⟨0x200054, 1, 0, 3⟩
/-- `SLC_TRIP_LATCH.RING_TR`, R419. -/
def Reg.SLC_TRIP_LATCH.RING_TR : Fld := ⟨0x200058, 1, 31, 1⟩
/-- `SLC_TRIP_LATCH.SAME_TICK_PHASE`, R419. -/
def Reg.SLC_TRIP_LATCH.SAME_TICK_PHASE : Fld := ⟨0x200058, 1, 30, 1⟩
/-- `SLC_TRIP_LATCH.SAME_TICK_CONV`, R419. -/
def Reg.SLC_TRIP_LATCH.SAME_TICK_CONV : Fld := ⟨0x200058, 1, 29, 1⟩
/-- `SLC_TRIP_LATCH.SAFETY_IN`, R419. -/
def Reg.SLC_TRIP_LATCH.SAFETY_IN : Fld := ⟨0x200058, 1, 28, 1⟩
/-- `SLC_TRIP_LATCH.NET_STOP`, R419. -/
def Reg.SLC_TRIP_LATCH.NET_STOP : Fld := ⟨0x200058, 1, 27, 1⟩
/-- `SLC_TRIP_LATCH.PF_WARN`, R419. -/
def Reg.SLC_TRIP_LATCH.PF_WARN : Fld := ⟨0x200058, 1, 26, 1⟩
/-- `SLC_TRIP_LATCH.TRIP_IN`, R419. -/
def Reg.SLC_TRIP_LATCH.TRIP_IN : Fld := ⟨0x200058, 1, 25, 1⟩
/-- `SLC_TRIP_LATCH.OVERRUN`, R419. -/
def Reg.SLC_TRIP_LATCH.OVERRUN : Fld := ⟨0x200058, 1, 24, 1⟩
/-- `SLC_TRIP_LATCH.PATH_CHECK`, R419. -/
def Reg.SLC_TRIP_LATCH.PATH_CHECK : Fld := ⟨0x200058, 1, 23, 1⟩
/-- `SLC_TRIP_LATCH.FRT_TRIP`, R419. -/
def Reg.SLC_TRIP_LATCH.FRT_TRIP : Fld := ⟨0x200058, 1, 22, 1⟩
/-- `SLC_TRIP_LATCH.ISLAND`, R419. -/
def Reg.SLC_TRIP_LATCH.ISLAND : Fld := ⟨0x200058, 1, 21, 1⟩
/-- `SLC_TRIP_LATCH.DERATE4`, R419. -/
def Reg.SLC_TRIP_LATCH.DERATE4 : Fld := ⟨0x200058, 1, 20, 1⟩
/-- `SLC_TRIP_LATCH.TRIAD`, R419. -/
def Reg.SLC_TRIP_LATCH.TRIAD : Fld := ⟨0x200058, 1, 19, 1⟩
/-- `SLC_TRIP_LATCH.THERMAL`, R419. -/
def Reg.SLC_TRIP_LATCH.THERMAL : Fld := ⟨0x200058, 1, 18, 1⟩
/-- `SLC_TRIP_LATCH.HOST`, R419. -/
def Reg.SLC_TRIP_LATCH.HOST : Fld := ⟨0x200058, 1, 17, 1⟩
/-- `SLC_TRIP_LATCH.DEBUG_STARVE`, R419. -/
def Reg.SLC_TRIP_LATCH.DEBUG_STARVE : Fld := ⟨0x200058, 1, 16, 1⟩
/-- `SLC_TRIP_LATCH.CMP`, R419. -/
def Reg.SLC_TRIP_LATCH.CMP : Fld := ⟨0x200058, 1, 0, 16⟩
/-- `SLC_FIRST.RING_TR`, R419. -/
def Reg.SLC_FIRST.RING_TR : Fld := ⟨0x20005C, 1, 31, 1⟩
/-- `SLC_FIRST.SAME_TICK_PHASE`, R419. -/
def Reg.SLC_FIRST.SAME_TICK_PHASE : Fld := ⟨0x20005C, 1, 30, 1⟩
/-- `SLC_FIRST.SAME_TICK_CONV`, R419. -/
def Reg.SLC_FIRST.SAME_TICK_CONV : Fld := ⟨0x20005C, 1, 29, 1⟩
/-- `SLC_FIRST.SAFETY_IN`, R419. -/
def Reg.SLC_FIRST.SAFETY_IN : Fld := ⟨0x20005C, 1, 28, 1⟩
/-- `SLC_FIRST.NET_STOP`, R419. -/
def Reg.SLC_FIRST.NET_STOP : Fld := ⟨0x20005C, 1, 27, 1⟩
/-- `SLC_FIRST.PF_WARN`, R419. -/
def Reg.SLC_FIRST.PF_WARN : Fld := ⟨0x20005C, 1, 26, 1⟩
/-- `SLC_FIRST.TRIP_IN`, R419. -/
def Reg.SLC_FIRST.TRIP_IN : Fld := ⟨0x20005C, 1, 25, 1⟩
/-- `SLC_FIRST.OVERRUN`, R419. -/
def Reg.SLC_FIRST.OVERRUN : Fld := ⟨0x20005C, 1, 24, 1⟩
/-- `SLC_FIRST.PATH_CHECK`, R419. -/
def Reg.SLC_FIRST.PATH_CHECK : Fld := ⟨0x20005C, 1, 23, 1⟩
/-- `SLC_FIRST.FRT_TRIP`, R419. -/
def Reg.SLC_FIRST.FRT_TRIP : Fld := ⟨0x20005C, 1, 22, 1⟩
/-- `SLC_FIRST.ISLAND`, R419. -/
def Reg.SLC_FIRST.ISLAND : Fld := ⟨0x20005C, 1, 21, 1⟩
/-- `SLC_FIRST.DERATE4`, R419. -/
def Reg.SLC_FIRST.DERATE4 : Fld := ⟨0x20005C, 1, 20, 1⟩
/-- `SLC_FIRST.TRIAD`, R419. -/
def Reg.SLC_FIRST.TRIAD : Fld := ⟨0x20005C, 1, 19, 1⟩
/-- `SLC_FIRST.THERMAL`, R419. -/
def Reg.SLC_FIRST.THERMAL : Fld := ⟨0x20005C, 1, 18, 1⟩
/-- `SLC_FIRST.HOST`, R419. -/
def Reg.SLC_FIRST.HOST : Fld := ⟨0x20005C, 1, 17, 1⟩
/-- `SLC_FIRST.DEBUG_STARVE`, R419. -/
def Reg.SLC_FIRST.DEBUG_STARVE : Fld := ⟨0x20005C, 1, 16, 1⟩
/-- `SLC_FIRST.CMP`, R419. -/
def Reg.SLC_FIRST.CMP : Fld := ⟨0x20005C, 1, 0, 16⟩
/-- `SLC_FIRST_TIME.TIME`, R420. -/
def Reg.SLC_FIRST_TIME.TIME : Fld := ⟨0x200060, 1, 0, 32⟩
/-- `SLC_BLOCK_STATUS.SCOPE`, R421. -/
def Reg.SLC_BLOCK_STATUS.SCOPE : Fld := ⟨0x200064, 1, 30, 2⟩
/-- `SLC_BLOCK_STATUS.PHASES`, R421. -/
def Reg.SLC_BLOCK_STATUS.PHASES : Fld := ⟨0x200064, 1, 27, 3⟩
/-- `SLC_BLOCK_STATUS.BRK`, R421. -/
def Reg.SLC_BLOCK_STATUS.BRK : Fld := ⟨0x200064, 1, 26, 1⟩
/-- `SLC_BLOCK_STATUS.DBG_HALT`, R421. -/
def Reg.SLC_BLOCK_STATUS.DBG_HALT : Fld := ⟨0x200064, 1, 25, 1⟩
/-- `SLC_BLOCK_STATUS.CFG_ERR`, R421. -/
def Reg.SLC_BLOCK_STATUS.CFG_ERR : Fld := ⟨0x200064, 1, 24, 1⟩
/-- `SLC_BLOCK_STATUS.CELL_TRIPS`, R421. -/
def Reg.SLC_BLOCK_STATUS.CELL_TRIPS : Fld := ⟨0x200064, 1, 8, 8⟩
/-- `SLC_BLOCK_STATUS.BLOCKS`, R421. -/
def Reg.SLC_BLOCK_STATUS.BLOCKS : Fld := ⟨0x200064, 1, 0, 8⟩
/-- `SLC_CTRL.STOP`, R422. -/
def Reg.SLC_CTRL.STOP : Fld := ⟨0x200068, 1, 31, 1⟩
/-- `SLC_CTRL.STOP_BRK`, R422. -/
def Reg.SLC_CTRL.STOP_BRK : Fld := ⟨0x200068, 1, 30, 1⟩
/-- `SLC_CTRL.BRK_RESET`, R422. -/
def Reg.SLC_CTRL.BRK_RESET : Fld := ⟨0x200068, 1, 29, 1⟩
/-- `SLC_CTRL.CELL_BLK`, R422. -/
def Reg.SLC_CTRL.CELL_BLK : Fld := ⟨0x200068, 1, 28, 1⟩
/-- `SLC_CTRL.CELL`, R422. -/
def Reg.SLC_CTRL.CELL : Fld := ⟨0x200068, 1, 0, 8⟩
/-- `SAFE_IN_CFG_n.TYPE`, R447. -/
def Reg.SAFE_IN_CFG_n.TYPE : Fld := ⟨0x210000, 8, 29, 3⟩
/-- `SAFE_IN_CFG_n.ANTI`, R447. -/
def Reg.SAFE_IN_CFG_n.ANTI : Fld := ⟨0x210000, 8, 28, 1⟩
/-- `SAFE_IN_CFG_n.TP_EN`, R447. -/
def Reg.SAFE_IN_CFG_n.TP_EN : Fld := ⟨0x210000, 8, 27, 1⟩
/-- `SAFE_IN_CFG_n.DISC`, R447. -/
def Reg.SAFE_IN_CFG_n.DISC : Fld := ⟨0x210000, 8, 8, 8⟩
/-- `SAFE_IN_CFG_n.FILT`, R447. -/
def Reg.SAFE_IN_CFG_n.FILT : Fld := ⟨0x210000, 8, 0, 8⟩
/-- `SAFE_CV.CV`, R451. -/
def Reg.SAFE_CV.CV : Fld := ⟨0x210020, 1, 0, 32⟩
/-- `SAFE_CONFIRM.SAFETY_CONFIRM`, R452. -/
def Reg.SAFE_CONFIRM.SAFETY_CONFIRM : Fld := ⟨0x210024, 1, 0, 32⟩
/-- `SAFE_STATUS.PROOF`, R453. -/
def Reg.SAFE_STATUS.PROOF : Fld := ⟨0x210028, 1, 30, 2⟩
/-- `SAFE_STATUS.CONFIRMED`, R453. -/
def Reg.SAFE_STATUS.CONFIRMED : Fld := ⟨0x210028, 1, 29, 1⟩
/-- `SAFE_STATUS.CV_BUSY`, R453. -/
def Reg.SAFE_STATUS.CV_BUSY : Fld := ⟨0x210028, 1, 28, 1⟩
/-- `SAFE_STATUS.CV_ERR`, R453. -/
def Reg.SAFE_STATUS.CV_ERR : Fld := ⟨0x210028, 1, 27, 1⟩
/-- `SAFE_STATUS.BRK_FB_ERR`, R453. -/
def Reg.SAFE_STATUS.BRK_FB_ERR : Fld := ⟨0x210028, 1, 26, 1⟩
/-- `SAFE_STATUS.SIL_OK`, R453. -/
def Reg.SAFE_STATUS.SIL_OK : Fld := ⟨0x210028, 1, 25, 1⟩
/-- `SAFE_STATUS.DISC`, R453. -/
def Reg.SAFE_STATUS.DISC : Fld := ⟨0x210028, 1, 16, 8⟩
/-- `SAFE_STATUS.TP_ERR`, R453. -/
def Reg.SAFE_STATUS.TP_ERR : Fld := ⟨0x210028, 1, 8, 8⟩
/-- `SAFE_STATUS.DEMAND`, R453. -/
def Reg.SAFE_STATUS.DEMAND : Fld := ⟨0x210028, 1, 0, 8⟩
/-- `SAFE_NET_CFG.EN`, R448. -/
def Reg.SAFE_NET_CFG.EN : Fld := ⟨0x220000, 1, 31, 1⟩
/-- `SAFE_NET_CFG.DEGRADE`, R448. -/
def Reg.SAFE_NET_CFG.DEGRADE : Fld := ⟨0x220000, 1, 30, 1⟩
/-- `SAFE_NET_CFG.WDOG`, R448. -/
def Reg.SAFE_NET_CFG.WDOG : Fld := ⟨0x220000, 1, 16, 9⟩
/-- `SAFE_NET_CFG.PERIOD`, R448. -/
def Reg.SAFE_NET_CFG.PERIOD : Fld := ⟨0x220000, 1, 8, 8⟩
/-- `SAFE_NET_CFG.SKEW`, R448. -/
def Reg.SAFE_NET_CFG.SKEW : Fld := ⟨0x220000, 1, 0, 8⟩
/-- `SAFE_CONN.CONN_ID`, R449. -/
def Reg.SAFE_CONN.CONN_ID : Fld := ⟨0x220004, 1, 0, 32⟩
/-- `SAFE_MAC_DEV_LO.ADDR_LO`, R450. -/
def Reg.SAFE_MAC_DEV_LO.ADDR_LO : Fld := ⟨0x220008, 1, 0, 32⟩
/-- `SAFE_MAC_DEV_HI.ADDR_HI`, R450. -/
def Reg.SAFE_MAC_DEV_HI.ADDR_HI : Fld := ⟨0x22000C, 1, 0, 16⟩
/-- `SAFE_MAC_CTL_LO.ADDR_LO`, R450. -/
def Reg.SAFE_MAC_CTL_LO.ADDR_LO : Fld := ⟨0x220010, 1, 0, 32⟩
/-- `SAFE_MAC_CTL_HI.ADDR_HI`, R450. -/
def Reg.SAFE_MAC_CTL_HI.ADDR_HI : Fld := ⟨0x220014, 1, 0, 16⟩
/-- `SAFE_NET_STATUS.UP_A`, R454. -/
def Reg.SAFE_NET_STATUS.UP_A : Fld := ⟨0x220018, 1, 31, 1⟩
/-- `SAFE_NET_STATUS.UP_B`, R454. -/
def Reg.SAFE_NET_STATUS.UP_B : Fld := ⟨0x220018, 1, 30, 1⟩
/-- `SAFE_NET_STATUS.CONN_UP`, R454. -/
def Reg.SAFE_NET_STATUS.CONN_UP : Fld := ⟨0x220018, 1, 29, 1⟩
/-- `SAFE_NET_STATUS.CMP_ERR`, R454. -/
def Reg.SAFE_NET_STATUS.CMP_ERR : Fld := ⟨0x220018, 1, 28, 1⟩
/-- `SAFE_NET_STATUS.CV_DIFF`, R454. -/
def Reg.SAFE_NET_STATUS.CV_DIFF : Fld := ⟨0x220018, 1, 27, 1⟩
/-- `SAFE_NET_STATUS.STOP_RX`, R454. -/
def Reg.SAFE_NET_STATUS.STOP_RX : Fld := ⟨0x220018, 1, 26, 1⟩
/-- `SAFE_NET_STATUS.CFG_ERR`, R454. -/
def Reg.SAFE_NET_STATUS.CFG_ERR : Fld := ⟨0x220018, 1, 25, 1⟩
/-- `SAFE_NET_STATUS.MISS_A`, R454. -/
def Reg.SAFE_NET_STATUS.MISS_A : Fld := ⟨0x220018, 1, 16, 8⟩
/-- `SAFE_NET_STATUS.MISS_B`, R454. -/
def Reg.SAFE_NET_STATUS.MISS_B : Fld := ⟨0x220018, 1, 8, 8⟩
/-- `SAFE_NET_STATUS.BAD`, R454. -/
def Reg.SAFE_NET_STATUS.BAD : Fld := ⟨0x220018, 1, 0, 8⟩
/-- `MTR_CFG.N`, R568. -/
def Reg.MTR_CFG.N : Fld := ⟨0x230000, 1, 0, 16⟩
/-- `MTR_STATUS.CFG_ERR`, R569. -/
def Reg.MTR_STATUS.CFG_ERR : Fld := ⟨0x230004, 1, 31, 1⟩
/-- `MTR_STATUS.CAL_PENDING`, R569. -/
def Reg.MTR_STATUS.CAL_PENDING : Fld := ⟨0x230004, 1, 30, 1⟩
/-- `MTR_STATUS.KEY_OK`, R569. -/
def Reg.MTR_STATUS.KEY_OK : Fld := ⟨0x230004, 1, 29, 1⟩
/-- `MTR_STATUS.GAP_OPEN`, R569. -/
def Reg.MTR_STATUS.GAP_OPEN : Fld := ⟨0x230004, 1, 28, 1⟩
/-- `MTR_STATUS.MERGES`, R569. -/
def Reg.MTR_STATUS.MERGES : Fld := ⟨0x230004, 1, 16, 12⟩
/-- `MTR_LATCH.LATCH`, R570. -/
def Reg.MTR_LATCH.LATCH : Fld := ⟨0x230008, 1, 0, 32⟩
/-- `MTR_FLOW_CFG.AC_LIM`, R575. -/
def Reg.MTR_FLOW_CFG.AC_LIM : Fld := ⟨0x23000C, 1, 16, 16⟩
/-- `MTR_FLOW_CFG.PORT_LIM`, R575. -/
def Reg.MTR_FLOW_CFG.PORT_LIM : Fld := ⟨0x23000C, 1, 0, 16⟩
/-- `MTR_PORT_SEL.CELL`, R574. -/
def Reg.MTR_PORT_SEL.CELL : Fld := ⟨0x230010, 1, 0, 8⟩
/-- `MTR_PORT_DATA_n.W`, R574. -/
def Reg.MTR_PORT_DATA_n.W : Fld := ⟨0x230014, 9, 0, 32⟩
/-- `MTR_CH_CAL_c.GAIN`, R571. -/
def Reg.MTR_CH_CAL_c.GAIN : Fld := ⟨0x240000, 6, 12, 20⟩
/-- `MTR_CH_CAL_c.OFFSET`, R571. -/
def Reg.MTR_CH_CAL_c.OFFSET : Fld := ⟨0x240000, 6, 0, 12⟩
/-- `MTR_QTY_CAL_k.GAIN`, R571. -/
def Reg.MTR_QTY_CAL_k.GAIN : Fld := ⟨0x240018, 8, 12, 20⟩
/-- `MTR_QTY_CAL_k.OFFSET`, R571. -/
def Reg.MTR_QTY_CAL_k.OFFSET : Fld := ⟨0x240018, 8, 0, 12⟩
/-- `MTR_CH_PHASE_c.PHASE`, R572. -/
def Reg.MTR_CH_PHASE_c.PHASE : Fld := ⟨0x240038, 6, 0, 16⟩
/-- `MTR_CAL_CTRL.SWAP`, R566. -/
def Reg.MTR_CAL_CTRL.SWAP : Fld := ⟨0x240050, 1, 31, 1⟩
/-- `MTR_CAL_CTRL.PENDING`, R566. -/
def Reg.MTR_CAL_CTRL.PENDING : Fld := ⟨0x240050, 1, 30, 1⟩
/-- `MTR_CAL_CTRL.ACTIVE`, R566. -/
def Reg.MTR_CAL_CTRL.ACTIVE : Fld := ⟨0x240050, 1, 0, 1⟩
/-- `MTR_CAL_CV.CV`, R573. -/
def Reg.MTR_CAL_CV.CV : Fld := ⟨0x240054, 1, 0, 32⟩
/-- `MTR_MEAS_c.RMS`, R573. -/
def Reg.MTR_MEAS_c.RMS : Fld := ⟨0x240058, 6, 0, 32⟩
/-- `MTR_PWR_P_p.P`, R573. -/
def Reg.MTR_PWR_P_p.P : Fld := ⟨0x240070, 3, 0, 32⟩
/-- `MTR_PWR_Q_p.Q`, R573. -/
def Reg.MTR_PWR_Q_p.Q : Fld := ⟨0x24007C, 3, 0, 32⟩
/-- `CIS_STATUS.STATE`, R577. -/
def Reg.CIS_STATUS.STATE : Fld := ⟨0x250000, 1, 29, 3⟩
/-- `CIS_STATUS.PF_COMMIT`, R577. -/
def Reg.CIS_STATUS.PF_COMMIT : Fld := ⟨0x250000, 1, 28, 1⟩
/-- `CIS_STATUS.OUTAGE_UNKNOWN`, R577. -/
def Reg.CIS_STATUS.OUTAGE_UNKNOWN : Fld := ⟨0x250000, 1, 27, 1⟩
/-- `CIS_STATUS.UNCONSUMED`, R577. -/
def Reg.CIS_STATUS.UNCONSUMED : Fld := ⟨0x250000, 1, 12, 12⟩
/-- `CIS_STATUS.FREE`, R577. -/
def Reg.CIS_STATUS.FREE : Fld := ⟨0x250000, 1, 0, 12⟩
/-- `CIS_BOOT.BOOT`, R577. -/
def Reg.CIS_BOOT.BOOT : Fld := ⟨0x250004, 1, 0, 32⟩
/-- `THM_CFG.WEIR_EN`, R600. -/
def Reg.THM_CFG.WEIR_EN : Fld := ⟨0x260000, 1, 31, 1⟩
/-- `THM_CFG.WEIR_FLOOR`, R600. -/
def Reg.THM_CFG.WEIR_FLOOR : Fld := ⟨0x260000, 1, 27, 4⟩
/-- `THM_CFG.CELL_QUORUM`, R600. -/
def Reg.THM_CFG.CELL_QUORUM : Fld := ⟨0x260000, 1, 20, 7⟩
/-- `THM_CLASS_LVL_k.BASE`, R601. -/
def Reg.THM_CLASS_LVL_k.BASE : Fld := ⟨0x260004, 5, 24, 8⟩
/-- `THM_CLASS_LVL_k.WARN`, R601. -/
def Reg.THM_CLASS_LVL_k.WARN : Fld := ⟨0x260004, 5, 16, 8⟩
/-- `THM_CLASS_LVL_k.THROTTLE`, R601. -/
def Reg.THM_CLASS_LVL_k.THROTTLE : Fld := ⟨0x260004, 5, 8, 8⟩
/-- `THM_CLASS_LVL_k.SHUT`, R601. -/
def Reg.THM_CLASS_LVL_k.SHUT : Fld := ⟨0x260004, 5, 0, 8⟩
/-- `THM_CELL_MODEL.KCOND`, R602. -/
def Reg.THM_CELL_MODEL.KCOND : Fld := ⟨0x260018, 1, 24, 8⟩
/-- `THM_CELL_MODEL.KSW`, R602. -/
def Reg.THM_CELL_MODEL.KSW : Fld := ⟨0x260018, 1, 16, 8⟩
/-- `THM_CELL_MODEL.TAU`, R602. -/
def Reg.THM_CELL_MODEL.TAU : Fld := ⟨0x260018, 1, 8, 8⟩
/-- `THM_EXT_n.EN`, R603. -/
def Reg.THM_EXT_n.EN : Fld := ⟨0x26001C, 8, 31, 1⟩
/-- `THM_EXT_n.CLASS`, R603. -/
def Reg.THM_EXT_n.CLASS : Fld := ⟨0x26001C, 8, 30, 1⟩
/-- `THM_EXT_n.CH`, R603. -/
def Reg.THM_EXT_n.CH : Fld := ⟨0x26001C, 8, 25, 5⟩
/-- `THM_EXT_n.GAIN`, R603. -/
def Reg.THM_EXT_n.GAIN : Fld := ⟨0x26001C, 8, 12, 13⟩
/-- `THM_EXT_n.OFFSET`, R603. -/
def Reg.THM_EXT_n.OFFSET : Fld := ⟨0x26001C, 8, 0, 12⟩
/-- `THM_DIE_STATUS.TMAX`, R604. -/
def Reg.THM_DIE_STATUS.TMAX : Fld := ⟨0x26003C, 1, 20, 12⟩
/-- `THM_DIE_STATUS.HOTTEST`, R604. -/
def Reg.THM_DIE_STATUS.HOTTEST : Fld := ⟨0x26003C, 1, 15, 5⟩
/-- `THM_DIE_STATUS.LEVEL`, R604. -/
def Reg.THM_DIE_STATUS.LEVEL : Fld := ⟨0x26003C, 1, 13, 2⟩
/-- `THM_DIE_STATUS.STALE`, R604. -/
def Reg.THM_DIE_STATUS.STALE : Fld := ⟨0x26003C, 1, 12, 1⟩
/-- `THM_SENSOR_FAULT.FAULT`, R604. -/
def Reg.THM_SENSOR_FAULT.FAULT : Fld := ⟨0x260040, 1, 0, 18⟩
/-- `THM_STATUS.WEIR_STEP`, R605. -/
def Reg.THM_STATUS.WEIR_STEP : Fld := ⟨0x260044, 1, 27, 5⟩
/-- `THM_STATUS.THROTTLE`, R605. -/
def Reg.THM_STATUS.THROTTLE : Fld := ⟨0x260044, 1, 26, 1⟩
/-- `THM_STATUS.THR_SRC`, R605. -/
def Reg.THM_STATUS.THR_SRC : Fld := ⟨0x260044, 1, 23, 3⟩
/-- `THM_STATUS.CFG_ERR`, R605. -/
def Reg.THM_STATUS.CFG_ERR : Fld := ⟨0x260044, 1, 22, 1⟩
/-- `THM_STATUS.HOT_CELLS`, R605. -/
def Reg.THM_STATUS.HOT_CELLS : Fld := ⟨0x260044, 1, 14, 8⟩
/-- `THM_CELL_n.BUDGET`, R606. -/
def Reg.THM_CELL_n.BUDGET : Fld := ⟨0x270000, 240, 19, 13⟩
/-- `THM_CELL_n.CLASS`, R606. -/
def Reg.THM_CELL_n.CLASS : Fld := ⟨0x270000, 240, 16, 3⟩
/-- `THM_CELL_n.TSW_EST`, R606. -/
def Reg.THM_CELL_n.TSW_EST : Fld := ⟨0x270000, 240, 0, 16⟩
/-- `AUX_BUS_CFG.OV`, R607. -/
def Reg.AUX_BUS_CFG.OV : Fld := ⟨0x280000, 1, 22, 10⟩
/-- `AUX_BUS_CFG.REGEN`, R607. -/
def Reg.AUX_BUS_CFG.REGEN : Fld := ⟨0x280000, 1, 12, 10⟩
/-- `AUX_BUS_CFG.UV`, R607. -/
def Reg.AUX_BUS_CFG.UV : Fld := ⟨0x280000, 1, 2, 10⟩
/-- `AUX_BUS_STATUS.VAUX`, R608. -/
def Reg.AUX_BUS_STATUS.VAUX : Fld := ⟨0x280004, 1, 22, 10⟩
/-- `AUX_BUS_STATUS.VCP`, R608. -/
def Reg.AUX_BUS_STATUS.VCP : Fld := ⟨0x280004, 1, 12, 10⟩
/-- `AUX_BUS_STATUS.UV`, R608. -/
def Reg.AUX_BUS_STATUS.UV : Fld := ⟨0x280004, 1, 11, 1⟩
/-- `AUX_BUS_STATUS.OV`, R608. -/
def Reg.AUX_BUS_STATUS.OV : Fld := ⟨0x280004, 1, 10, 1⟩
/-- `AUX_BUS_STATUS.CP_UV`, R608. -/
def Reg.AUX_BUS_STATUS.CP_UV : Fld := ⟨0x280004, 1, 9, 1⟩
/-- `AUX_BUS_STATUS.REGEN`, R608. -/
def Reg.AUX_BUS_STATUS.REGEN : Fld := ⟨0x280004, 1, 8, 1⟩
/-- `AUX_CH_CFG_m.EN`, R609. -/
def Reg.AUX_CH_CFG_m.EN : Fld := ⟨0x280008, 2, 31, 1⟩
/-- `AUX_CH_CFG_m.SRC`, R609. -/
def Reg.AUX_CH_CFG_m.SRC : Fld := ⟨0x280008, 2, 29, 2⟩
/-- `AUX_CH_CFG_m.ST_MODE`, R609. -/
def Reg.AUX_CH_CFG_m.ST_MODE : Fld := ⟨0x280008, 2, 28, 1⟩
/-- `AUX_CH_CFG_m.SIXSTEP`, R609. -/
def Reg.AUX_CH_CFG_m.SIXSTEP : Fld := ⟨0x280008, 2, 27, 1⟩
/-- `AUX_CH_CFG_m.DT`, R609. -/
def Reg.AUX_CH_CFG_m.DT : Fld := ⟨0x280008, 2, 19, 8⟩
/-- `AUX_CH_CFG_m.PWM_KHZ`, R609. -/
def Reg.AUX_CH_CFG_m.PWM_KHZ : Fld := ⟨0x280008, 2, 13, 6⟩
/-- `AUX_CH_CFG_m.SAMP_MIN`, R609. -/
def Reg.AUX_CH_CFG_m.SAMP_MIN : Fld := ⟨0x280008, 2, 9, 4⟩
/-- `AUX_CH_CFG_m.SKIP_MAX`, R609. -/
def Reg.AUX_CH_CFG_m.SKIP_MAX : Fld := ⟨0x280008, 2, 4, 5⟩
/-- `AUX_MOTOR_m.RS`, R610. -/
def Reg.AUX_MOTOR_m.RS : Fld := ⟨0x280010, 2, 20, 12⟩
/-- `AUX_MOTOR_m.LS`, R610. -/
def Reg.AUX_MOTOR_m.LS : Fld := ⟨0x280010, 2, 8, 12⟩
/-- `AUX_MOTOR_m.POLES`, R610. -/
def Reg.AUX_MOTOR_m.POLES : Fld := ⟨0x280010, 2, 4, 4⟩
/-- `AUX_MOTOR2_m.KE`, R610. -/
def Reg.AUX_MOTOR2_m.KE : Fld := ⟨0x280018, 2, 16, 16⟩
/-- `AUX_MOTOR2_m.KE_TOL`, R610. -/
def Reg.AUX_MOTOR2_m.KE_TOL : Fld := ⟨0x280018, 2, 8, 8⟩
/-- `AUX_MOTOR2_m.IMAX`, R610. -/
def Reg.AUX_MOTOR2_m.IMAX : Fld := ⟨0x280018, 2, 0, 8⟩
/-- `AUX_RAMP_m.SPD_MAX`, R611. -/
def Reg.AUX_RAMP_m.SPD_MAX : Fld := ⟨0x280020, 2, 20, 12⟩
/-- `AUX_RAMP_m.SPD_MIN`, R611. -/
def Reg.AUX_RAMP_m.SPD_MIN : Fld := ⟨0x280020, 2, 8, 12⟩
/-- `AUX_RAMP_m.SLEEP_SPD`, R611. -/
def Reg.AUX_RAMP_m.SLEEP_SPD : Fld := ⟨0x280020, 2, 0, 8⟩
/-- `AUX_ACC_m.ACC`, R611. -/
def Reg.AUX_ACC_m.ACC : Fld := ⟨0x280028, 2, 20, 12⟩
/-- `AUX_ACC_m.DEC`, R611. -/
def Reg.AUX_ACC_m.DEC : Fld := ⟨0x280028, 2, 8, 12⟩
/-- `AUX_ACC_m.CUR_BW`, R611. -/
def Reg.AUX_ACC_m.CUR_BW : Fld := ⟨0x280028, 2, 0, 8⟩
/-- `AUX_START_m.ALIGN_I`, R612. -/
def Reg.AUX_START_m.ALIGN_I : Fld := ⟨0x280030, 2, 24, 8⟩
/-- `AUX_START_m.ALIGN_MS`, R612. -/
def Reg.AUX_START_m.ALIGN_MS : Fld := ⟨0x280030, 2, 16, 8⟩
/-- `AUX_START_m.RAMP_I`, R612. -/
def Reg.AUX_START_m.RAMP_I : Fld := ⟨0x280030, 2, 8, 8⟩
/-- `AUX_START_m.HANDOVER`, R612. -/
def Reg.AUX_START_m.HANDOVER : Fld := ⟨0x280030, 2, 0, 8⟩
/-- `AUX_LOOP_m.SPD_KP`, R612. -/
def Reg.AUX_LOOP_m.SPD_KP : Fld := ⟨0x280038, 2, 16, 16⟩
/-- `AUX_LOOP_m.SPD_KI`, R612. -/
def Reg.AUX_LOOP_m.SPD_KI : Fld := ⟨0x280038, 2, 0, 16⟩
/-- `AUX_CTRL_m.START`, R613. -/
def Reg.AUX_CTRL_m.START : Fld := ⟨0x280040, 2, 31, 1⟩
/-- `AUX_CTRL_m.STOP`, R613. -/
def Reg.AUX_CTRL_m.STOP : Fld := ⟨0x280040, 2, 30, 1⟩
/-- `AUX_CTRL_m.DIAG`, R613. -/
def Reg.AUX_CTRL_m.DIAG : Fld := ⟨0x280040, 2, 29, 1⟩
/-- `AUX_CTRL_m.SPEED`, R613. -/
def Reg.AUX_CTRL_m.SPEED : Fld := ⟨0x280040, 2, 0, 16⟩
/-- `AUX_STATUS_m.STATE`, R614. -/
def Reg.AUX_STATUS_m.STATE : Fld := ⟨0x280048, 2, 29, 3⟩
/-- `AUX_STATUS_m.CODE`, R614. -/
def Reg.AUX_STATUS_m.CODE : Fld := ⟨0x280048, 2, 24, 5⟩
/-- `AUX_STATUS_m.DIAG`, R614. -/
def Reg.AUX_STATUS_m.DIAG : Fld := ⟨0x280048, 2, 18, 6⟩
/-- `AUX_STATUS_m.HOLD`, R614. -/
def Reg.AUX_STATUS_m.HOLD : Fld := ⟨0x280048, 2, 17, 1⟩
/-- `AUX_STATUS_m.CAP`, R614. -/
def Reg.AUX_STATUS_m.CAP : Fld := ⟨0x280048, 2, 16, 1⟩
/-- `AUX_STATUS_m.SPEED`, R614. -/
def Reg.AUX_STATUS_m.SPEED : Fld := ⟨0x280048, 2, 0, 16⟩
/-- `AUX_KE_m.KE_MEAS`, R614. -/
def Reg.AUX_KE_m.KE_MEAS : Fld := ⟨0x280050, 2, 16, 16⟩
/-- `AUX_KE_m.SKIPS`, R614. -/
def Reg.AUX_KE_m.SKIPS : Fld := ⟨0x280050, 2, 0, 16⟩

/-- Block 0x00 of R694. -/
def regsBlock00 : List RegRow := [
  ⟨"ID_LOT_x", 0x0, 2, [⟨Reg.ID_LOT_x.LOT, .ro, [0], .none⟩]⟩,
  ⟨"ID_DIE_x", 0x8, 2, [⟨Reg.ID_DIE_x.REV, .ro, [0], .none⟩,
    ⟨Reg.ID_DIE_x.Y, .ro, [0], .none⟩,
    ⟨Reg.ID_DIE_x.X, .ro, [0], .none⟩,
    ⟨Reg.ID_DIE_x.WAFER, .ro, [0], .none⟩]⟩,
  ⟨"ID_SI_REV_x", 0x10, 2, [⟨Reg.ID_SI_REV_x.BASE, .ro, [0], .none⟩,
    ⟨Reg.ID_SI_REV_x.METAL, .ro, [0], .none⟩]⟩,
  ⟨"ID_SERIAL_LO", 0x18, 1, [⟨Reg.ID_SERIAL_LO.SERIAL, .ro, [0], .none⟩]⟩,
  ⟨"ID_SERIAL_HI", 0x1C, 1, [⟨Reg.ID_SERIAL_HI.SERIAL, .ro, [0], .none⟩]⟩,
  ⟨"ID_PART", 0x20, 1, [⟨Reg.ID_PART.VENDOR, .ro, [0], .none⟩,
    ⟨Reg.ID_PART.DEVICE, .ro, [0], .none⟩]⟩,
  ⟨"ID_PUBKEY_n", 0x24, 16, [⟨Reg.ID_PUBKEY_n.KEY, .ro, [0], .none⟩]⟩]

/-- Block 0x01 of R694. -/
def regsBlock01 : List RegRow := [
  ⟨"LC_STATE", 0x10000, 1, [⟨Reg.LC_STATE.STATE, .ro, [0], .none⟩,
    ⟨Reg.LC_STATE.FWKEY, .ro, [0], .none⟩,
    ⟨Reg.LC_STATE.KEY, .ro, [0], .none⟩,
    ⟨Reg.LC_STATE.RETURNS_LEFT, .ro, [0], .none⟩]⟩,
  ⟨"LC_CTRL", 0x10004, 1, [⟨Reg.LC_CTRL.TARGET, .wo, [0], .none⟩,
    ⟨Reg.LC_CTRL.FWKEY_FUSE, .wo, [0], .none⟩,
    ⟨Reg.LC_CTRL.CODE, .wo, [0], .none⟩]⟩]

/-- Block 0x02 of R694. -/
def regsBlock02 : List RegRow := [
  ⟨"CLK_REF_CFG", 0x20000, 1, [⟨Reg.CLK_REF_CFG.FIRST, .rw, [1], .none⟩,
    ⟨Reg.CLK_REF_CFG.SECOND, .rw, [2], .none⟩,
    ⟨Reg.CLK_REF_CFG.THIRD, .rw, [0], .none⟩,
    ⟨Reg.CLK_REF_CFG.REVERT, .rw, [0], .none⟩,
    ⟨Reg.CLK_REF_CFG.REFA_EN, .rw, [0], .none⟩,
    ⟨Reg.CLK_REF_CFG.REFB_EN, .rw, [0], .none⟩,
    ⟨Reg.CLK_REF_CFG.HOLDOFF, .rw, [2], .u 1 127⟩,
    ⟨Reg.CLK_REF_CFG.WINDOW, .rw, [50], .u 10 150⟩]⟩,
  ⟨"CLK_REF_STATUS", 0x20004, 1, [⟨Reg.CLK_REF_STATUS.SEL, .ro, [0], .none⟩,
    ⟨Reg.CLK_REF_STATUS.VOTE, .ro, [0], .none⟩,
    ⟨Reg.CLK_REF_STATUS.COAST, .ro, [0], .none⟩,
    ⟨Reg.CLK_REF_STATUS.REF_SUSPECT, .w1c, [0], .none⟩,
    ⟨Reg.CLK_REF_STATUS.LOST, .ro, [0], .none⟩,
    ⟨Reg.CLK_REF_STATUS.OUT, .ro, [0], .none⟩,
    ⟨Reg.CLK_REF_STATUS.DIFF_MAX, .ro, [0], .none⟩,
    ⟨Reg.CLK_REF_STATUS.MOVES, .rc, [0], .none⟩]⟩,
  ⟨"CLK_REF_OFS_s", 0x20008, 3, [⟨Reg.CLK_REF_OFS_s.OFS, .ro, [0], .none⟩]⟩,
  ⟨"CLK_XTAL_TRIM", 0x20014, 1, [⟨Reg.CLK_XTAL_TRIM.PPB, .rws, [0], .none⟩]⟩,
  ⟨"CLK_PLL_INT_p", 0x20018, 3, [⟨Reg.CLK_PLL_INT_p.INT, .ro, [160, 200, 130], .none⟩]⟩,
  ⟨"CLK_PLL_FRAC_p", 0x20024, 3, [⟨Reg.CLK_PLL_FRAC_p.FRAC, .ro, [0], .none⟩]⟩,
  ⟨"CLK_PLL_SEED_p", 0x20030, 3, [⟨Reg.CLK_PLL_SEED_p.DITHER_EN, .rw, [1], .none⟩,
    ⟨Reg.CLK_PLL_SEED_p.SEED, .rw, [0], .u 1 16777215⟩]⟩,
  ⟨"CLK_PLL_STATUS", 0x2003C, 1, [⟨Reg.CLK_PLL_STATUS.CFG_ERR, .w1c, [0], .none⟩,
    ⟨Reg.CLK_PLL_STATUS.LOSS, .rc, [0], .none⟩,
    ⟨Reg.CLK_PLL_STATUS.COAST, .ro, [0], .none⟩,
    ⟨Reg.CLK_PLL_STATUS.LOCKED, .ro, [0], .none⟩]⟩,
  ⟨"CLK_ELAPSED_LO", 0x20040, 1, [⟨Reg.CLK_ELAPSED_LO.E_LO, .ro, [0], .none⟩]⟩,
  ⟨"CLK_ELAPSED_HI", 0x20044, 1, [⟨Reg.CLK_ELAPSED_HI.E_HI, .ro, [0], .none⟩]⟩,
  ⟨"CLK_ALIGN_OFS_LO", 0x20048, 1, [⟨Reg.CLK_ALIGN_OFS_LO.O_LO, .ro, [0], .none⟩]⟩,
  ⟨"CLK_ALIGN_OFS_HI", 0x2004C, 1, [⟨Reg.CLK_ALIGN_OFS_HI.O_HI, .ro, [0], .none⟩]⟩,
  ⟨"CLK_ALARM_LO", 0x20050, 1, [⟨Reg.CLK_ALARM_LO.A_LO, .rw, [0], .none⟩]⟩,
  ⟨"CLK_ALARM_HI", 0x20054, 1, [⟨Reg.CLK_ALARM_HI.A_HI, .rw, [0], .none⟩]⟩]

/-- Block 0x03 of R694. -/
def regsBlock03 : List RegRow := [
  ⟨"CLK_TICK_CFG", 0x30000, 1, [⟨Reg.CLK_TICK_CFG.OVERRUN_LIMIT, .rw, [3], .u 1 15⟩,
    ⟨Reg.CLK_TICK_CFG.PERIOD, .rw, [20], .u 10 100⟩]⟩,
  ⟨"CLK_TICK_DEADLINE_n", 0x30004, 6, [⟨Reg.CLK_TICK_DEADLINE_n.DEADLINE, .rw, [100, 300, 440, 480, 960, 990], .none⟩]⟩,
  ⟨"CLK_TICK_USED_n", 0x3001C, 6, [⟨Reg.CLK_TICK_USED_n.LAST, .ro, [0], .none⟩]⟩,
  ⟨"CLK_TICK_PEAK_n", 0x30034, 6, [⟨Reg.CLK_TICK_PEAK_n.PEAK, .rc, [0], .none⟩]⟩,
  ⟨"CLK_TICK_STATUS", 0x3004C, 1, [⟨Reg.CLK_TICK_STATUS.CFG_ERR, .w1c, [0], .none⟩,
    ⟨Reg.CLK_TICK_STATUS.REPEAT, .ro, [0], .none⟩,
    ⟨Reg.CLK_TICK_STATUS.HOLD, .ro, [0], .none⟩,
    ⟨Reg.CLK_TICK_STATUS.OVR_TRIP, .w1c, [0], .none⟩,
    ⟨Reg.CLK_TICK_STATUS.OVR_CONSEC, .ro, [0], .none⟩,
    ⟨Reg.CLK_TICK_STATUS.LATE_STAGE, .ro, [0], .none⟩,
    ⟨Reg.CLK_TICK_STATUS.SHED_LEVEL, .ro, [0], .none⟩,
    ⟨Reg.CLK_TICK_STATUS.DIAG_DEFERRED, .w1c, [0], .none⟩,
    ⟨Reg.CLK_TICK_STATUS.PERIOD_PEND, .ro, [0], .none⟩]⟩,
  ⟨"CLK_TICK_OVR_COUNT", 0x30050, 1, [⟨Reg.CLK_TICK_OVR_COUNT.COUNT, .rc, [0], .none⟩]⟩,
  ⟨"CLK_SHED_CFG", 0x30054, 1, [⟨Reg.CLK_SHED_CFG.MAX_LEVEL, .rw, [4], .u 0 4⟩,
    ⟨Reg.CLK_SHED_CFG.HEADROOM, .rw, [90], .u 50 100⟩,
    ⟨Reg.CLK_SHED_CFG.THERM_EN, .rw, [1], .none⟩,
    ⟨Reg.CLK_SHED_CFG.POWER_EN, .rw, [1], .none⟩,
    ⟨Reg.CLK_SHED_CFG.HEADROOM_EN, .rw, [1], .none⟩]⟩]

/-- Block 0x04 of R694. -/
def regsBlock04 : List RegRow := [
  ⟨"SYNC_CFG", 0x40000, 1, [⟨Reg.SYNC_CFG.EN, .rw, [0], .none⟩,
    ⟨Reg.SYNC_CFG.SLEW_WINDOW, .rw, [100], .u 25 1000⟩]⟩,
  ⟨"SYNC_SEC", 0x40004, 1, [⟨Reg.SYNC_SEC.NEXT, .rw, [0], .none⟩]⟩,
  ⟨"SYNC_PPS_STATUS", 0x40008, 1, [⟨Reg.SYNC_PPS_STATUS.ALIGNED, .ro, [0], .none⟩,
    ⟨Reg.SYNC_PPS_STATUS.SUSPECT, .ro, [0], .none⟩,
    ⟨Reg.SYNC_PPS_STATUS.SEC_VALID, .ro, [0], .none⟩,
    ⟨Reg.SYNC_PPS_STATUS.CONS, .ro, [0], .none⟩,
    ⟨Reg.SYNC_PPS_STATUS.MISSING, .rc, [0], .none⟩,
    ⟨Reg.SYNC_PPS_STATUS.STEPS, .rc, [0], .none⟩]⟩,
  ⟨"SYNC_PPS_ERR", 0x4000C, 1, [⟨Reg.SYNC_PPS_ERR.E, .ro, [0], .none⟩]⟩]

/-- Block 0x05 of R694. -/
def regsBlock05 : List RegRow := [
  ⟨"PWR_CTRL", 0x50000, 1, [⟨Reg.PWR_CTRL.SLEEP, .wo, [0], .none⟩,
    ⟨Reg.PWR_CTRL.SHUTDOWN, .wo, [0], .none⟩]⟩,
  ⟨"PWR_WAKE_EN", 0x50004, 1, [⟨Reg.PWR_WAKE_EN.ALARM, .rw, [0], .none⟩,
    ⟨Reg.PWR_WAKE_EN.SAFETY, .ro, [1], .none⟩,
    ⟨Reg.PWR_WAKE_EN.RING, .rw, [1], .none⟩,
    ⟨Reg.PWR_WAKE_EN.DOORBELL, .rw, [1], .none⟩]⟩,
  ⟨"PWR_STATUS", 0x50008, 1, [⟨Reg.PWR_STATUS.OFF_READY, .ro, [0], .none⟩,
    ⟨Reg.PWR_STATUS.SLEEP, .ro, [0], .none⟩,
    ⟨Reg.PWR_STATUS.PF_WARN, .ro, [0], .none⟩,
    ⟨Reg.PWR_STATUS.RAIL_RESET, .w1c, [0], .none⟩,
    ⟨Reg.PWR_STATUS.CFG_ERR, .w1c, [0], .none⟩,
    ⟨Reg.PWR_STATUS.WAKE_SRC, .ro, [0], .none⟩]⟩,
  ⟨"PWR_PF_CFG", 0x5000C, 1, [⟨Reg.PWR_PF_CFG.LEVEL, .rws, [1000], .u 200 2400⟩,
    ⟨Reg.PWR_PF_CFG.HYS, .rws, [50], .u 10 255⟩,
    ⟨Reg.PWR_PF_CFG.FILT, .rws, [2], .u 1 15⟩]⟩,
  ⟨"PWR_BOOT_CTRL", 0x50010, 1, [⟨Reg.PWR_BOOT_CTRL.PERSIST, .wo, [0], .none⟩,
    ⟨Reg.PWR_BOOT_CTRL.BUSY, .ro, [0], .none⟩,
    ⟨Reg.PWR_BOOT_CTRL.SELECT, .ro, [0], .none⟩,
    ⟨Reg.PWR_BOOT_CTRL.BOOTED, .ro, [0], .none⟩,
    ⟨Reg.PWR_BOOT_CTRL.RESULT, .ro, [0], .none⟩]⟩]

/-- Block 0x06 of R694. -/
def regsBlock06 : List RegRow := [
  ⟨"KA_STATUS", 0x60000, 1, [⟨Reg.KA_STATUS.COLD, .w1c, [0], .none⟩,
    ⟨Reg.KA_STATUS.PGOOD, .ro, [0], .none⟩,
    ⟨Reg.KA_STATUS.LOW, .ro, [0], .none⟩,
    ⟨Reg.KA_STATUS.COUNTING, .ro, [0], .none⟩,
    ⟨Reg.KA_STATUS.VIN, .ro, [0], .none⟩]⟩,
  ⟨"KA_OUTAGE", 0x60004, 1, [⟨Reg.KA_OUTAGE.SECONDS, .ro, [0], .none⟩]⟩,
  ⟨"KA_CT_CFG", 0x60008, 1, [⟨Reg.KA_CT_CFG.EN, .rw, [0], .none⟩,
    ⟨Reg.KA_CT_CFG.FS, .rw, [0], .u 1 65535⟩]⟩,
  ⟨"KA_CT_ACC", 0x6000C, 1, [⟨Reg.KA_CT_ACC.ACC, .ro, [0], .none⟩]⟩]

/-- Block 0x07 of R694. -/
def regsBlock07 : List RegRow := [
  ⟨"BIST_STATUS", 0x70000, 1, [⟨Reg.BIST_STATUS.VALID, .ro, [0], .none⟩,
    ⟨Reg.BIST_STATUS.STARTUP, .ro, [0], .none⟩,
    ⟨Reg.BIST_STATUS.FAIL, .ro, [0], .none⟩]⟩]

/-- Block 0x08 of R694. -/
def regsBlock08 : List RegRow := [
  ⟨"HOST_STATUS", 0x80000, 1, [⟨Reg.HOST_STATUS.STAGE, .ro, [1], .none⟩,
    ⟨Reg.HOST_STATUS.SLEEP, .ro, [0], .none⟩,
    ⟨Reg.HOST_STATUS.CFG_ERR, .w1c, [0], .none⟩,
    ⟨Reg.HOST_STATUS.IN_FLIGHT, .ro, [0], .none⟩]⟩,
  ⟨"HOST_EVT_CFG", 0x80004, 1, [⟨Reg.HOST_EVT_CFG.EVT_RING, .rw, [0], .none⟩,
    ⟨Reg.HOST_EVT_CFG.METER_RING, .rw, [0], .none⟩]⟩,
  ⟨"HOST_WALK_ROOT_LO", 0x80008, 1, [⟨Reg.HOST_WALK_ROOT_LO.ADDR, .rw, [0], .none⟩,
    ⟨Reg.HOST_WALK_ROOT_LO.EN, .rw, [0], .none⟩]⟩,
  ⟨"HOST_WALK_ROOT_HI", 0x8000C, 1, [⟨Reg.HOST_WALK_ROOT_HI.ADDR_HI, .rw, [0], .none⟩]⟩,
  ⟨"HOST_WALK_CFG", 0x80010, 1, [⟨Reg.HOST_WALK_CFG.TIMEOUT, .rw, [50], .u 10 50000⟩]⟩,
  ⟨"HOST_WALK_INV", 0x80014, 1, [⟨Reg.HOST_WALK_INV.ALL, .wo, [0], .none⟩,
    ⟨Reg.HOST_WALK_INV.BUSY, .ro, [0], .none⟩,
    ⟨Reg.HOST_WALK_INV.PAGE, .wo, [0], .none⟩]⟩,
  ⟨"HOST_DEVREG_LO_n", 0x80018, 16, [⟨Reg.HOST_DEVREG_LO_n.BASE, .rw, [0], .none⟩,
    ⟨Reg.HOST_DEVREG_LO_n.EN, .rw, [0], .none⟩]⟩,
  ⟨"HOST_DEVREG_HI_n", 0x80058, 16, [⟨Reg.HOST_DEVREG_HI_n.BASE_HI, .rw, [0], .none⟩]⟩,
  ⟨"HOST_DEVREG_SIZE_n", 0x80098, 16, [⟨Reg.HOST_DEVREG_SIZE_n.PAGES, .rw, [0], .none⟩]⟩]

/-- Block 0x09 of R694. -/
def regsBlock09 : List RegRow := [
  ⟨"RING_BASE_n", 0x90000, 64, [⟨Reg.RING_BASE_n.BASE, .rw, [0], .none⟩]⟩,
  ⟨"RING_CFG_n", 0x90100, 64, [⟨Reg.RING_CFG_n.EN, .rw, [0], .none⟩,
    ⟨Reg.RING_CFG_n.TYPE, .rw, [0], .none⟩,
    ⟨Reg.RING_CFG_n.SIZE, .rw, [4], .u 4 12⟩,
    ⟨Reg.RING_CFG_n.CRING, .rw, [0], .none⟩,
    ⟨Reg.RING_CFG_n.VECTOR, .rw, [0], .none⟩,
    ⟨Reg.RING_CFG_n.IRQ_EN, .rw, [0], .none⟩,
    ⟨Reg.RING_CFG_n.COAL_CNT, .rw, [0], .none⟩,
    ⟨Reg.RING_CFG_n.COAL_US, .rw, [0], .none⟩]⟩,
  ⟨"RING_CTRL_n", 0x90200, 64, [⟨Reg.RING_CTRL_n.STOP, .wo, [0], .none⟩,
    ⟨Reg.RING_CTRL_n.RESTART, .wo, [0], .none⟩,
    ⟨Reg.RING_CTRL_n.RESET, .wo, [0], .none⟩]⟩,
  ⟨"RING_STATE_n", 0x90300, 64, [⟨Reg.RING_STATE_n.STATE, .ro, [0], .none⟩,
    ⟨Reg.RING_STATE_n.INFLIGHT, .ro, [0], .none⟩,
    ⟨Reg.RING_STATE_n.CONS, .ro, [0], .none⟩]⟩,
  ⟨"RING_FAULT_n", 0x90400, 64, [⟨Reg.RING_FAULT_n.STATUS, .ro, [0], .none⟩,
    ⟨Reg.RING_FAULT_n.ACCESS, .ro, [0], .none⟩,
    ⟨Reg.RING_FAULT_n.PAGE, .ro, [0], .none⟩]⟩]

/-- Block 0x0A of R694. -/
def regsBlock0A : List RegRow := [
  ⟨"TRI_CFG", 0xA0000, 1, [⟨Reg.TRI_CFG.LEAD, .rw, [0], .u 0 2⟩,
    ⟨Reg.TRI_CFG.PM_WRITE, .rws, [0], .none⟩,
    ⟨Reg.TRI_CFG.SCRUB_EN, .rw, [1], .none⟩]⟩,
  ⟨"TRI_CTRL", 0xA0004, 1, [⟨Reg.TRI_CTRL.RESTART, .wo, [0], .none⟩]⟩,
  ⟨"TRI_STATUS", 0xA0008, 1, [⟨Reg.TRI_STATUS.MODE, .ro, [0], .none⟩,
    ⟨Reg.TRI_STATUS.HELD, .ro, [0], .none⟩,
    ⟨Reg.TRI_STATUS.FENCED, .ro, [3], .none⟩,
    ⟨Reg.TRI_STATUS.RSTEP, .ro, [0], .none⟩,
    ⟨Reg.TRI_STATUS.DBG_HALT, .ro, [0], .none⟩,
    ⟨Reg.TRI_STATUS.ACTIVE_BANK, .ro, [0], .none⟩,
    ⟨Reg.TRI_STATUS.FENCE_COUNT, .rc, [0], .none⟩,
    ⟨Reg.TRI_STATUS.SCRUB_DIFF, .rc, [0], .none⟩]⟩,
  ⟨"TRI_MISMATCH_LOG", 0xA000C, 1, [⟨Reg.TRI_MISMATCH_LOG.MEMBER, .ro, [3], .none⟩,
    ⟨Reg.TRI_MISMATCH_LOG.KIND, .ro, [0], .none⟩,
    ⟨Reg.TRI_MISMATCH_LOG.ADDR, .ro, [0], .none⟩]⟩,
  ⟨"TRI_MISMATCH_TIME", 0xA0010, 1, [⟨Reg.TRI_MISMATCH_TIME.TIME, .ro, [0], .none⟩]⟩,
  ⟨"TRI_RESYNC_TIME", 0xA0014, 1, [⟨Reg.TRI_RESYNC_TIME.LAST, .ro, [0], .none⟩,
    ⟨Reg.TRI_RESYNC_TIME.PEAK, .rc, [0], .none⟩]⟩,
  ⟨"TRI_AGREE_COUNT", 0xA0018, 1, [⟨Reg.TRI_AGREE_COUNT.LOST_A, .rc, [0], .none⟩,
    ⟨Reg.TRI_AGREE_COUNT.LOST_B, .rc, [0], .none⟩,
    ⟨Reg.TRI_AGREE_COUNT.LOST_C, .rc, [0], .none⟩]⟩,
  ⟨"TRI_FW_STATUS", 0xA001C, 1, [⟨Reg.TRI_FW_STATUS.STAGED, .ro, [0], .none⟩,
    ⟨Reg.TRI_FW_STATUS.PENDING, .ro, [0], .none⟩,
    ⟨Reg.TRI_FW_STATUS.STAGING, .ro, [0], .none⟩,
    ⟨Reg.TRI_FW_STATUS.RESULT, .ro, [0], .none⟩]⟩,
  ⟨"TRI_FW_VER_ACTIVE", 0xA0020, 1, [⟨Reg.TRI_FW_VER_ACTIVE.VERSION, .ro, [0], .none⟩]⟩,
  ⟨"TRI_FW_VER_SHADOW", 0xA0024, 1, [⟨Reg.TRI_FW_VER_SHADOW.VERSION, .ro, [0], .none⟩]⟩]

/-- Block 0x0B of R694. -/
def regsBlock0B : List RegRow := [
  ⟨"CRC_CFG", 0xB0000, 1, [⟨Reg.CRC_CFG.POLY, .rw, [1], .none⟩]⟩,
  ⟨"CRC_DATA", 0xB0004, 1, [⟨Reg.CRC_DATA.DATA, .wo, [0], .none⟩]⟩,
  ⟨"CRC_SEED", 0xB0008, 1, [⟨Reg.CRC_SEED.SEED, .rw, [0xffffffff], .none⟩]⟩,
  ⟨"CRC_RESULT", 0xB000C, 1, [⟨Reg.CRC_RESULT.RESULT, .ro, [0], .none⟩]⟩]

/-- Block 0x0C of R694. -/
def regsBlock0C : List RegRow := [
  ⟨"LINK_CFG", 0xC0000, 1, [⟨Reg.LINK_CFG.STARVE_TICKS, .rw, [5], .u 2 31⟩,
    ⟨Reg.LINK_CFG.LOST_TICKS, .rw, [2], .u 2 15⟩,
    ⟨Reg.LINK_CFG.LOOP_DOWN, .rw, [2], .u 2 15⟩]⟩,
  ⟨"LINK_RING_EN", 0xC0004, 1, [⟨Reg.LINK_RING_EN.EN, .rw, [0], .none⟩]⟩,
  ⟨"LINK_CTRL", 0xC0008, 1, [⟨Reg.LINK_CTRL.GO_FULL, .wo, [0], .none⟩,
    ⟨Reg.LINK_CTRL.GO_WADI, .wo, [0], .none⟩,
    ⟨Reg.LINK_CTRL.RINGS, .wo, [0], .none⟩]⟩,
  ⟨"LINK_WADI_CFG", 0xC000C, 1, [⟨Reg.LINK_WADI_CFG.INTERVAL, .rw, [100], .u 1 1000⟩]⟩,
  ⟨"LINK_TRIP_LOG", 0xC0010, 1, [⟨Reg.LINK_TRIP_LOG.RING, .ro, [0], .none⟩,
    ⟨Reg.LINK_TRIP_LOG.POS, .ro, [0], .none⟩,
    ⟨Reg.LINK_TRIP_LOG.CAUSE, .ro, [0], .none⟩,
    ⟨Reg.LINK_TRIP_LOG.LOOP, .ro, [0], .none⟩,
    ⟨Reg.LINK_TRIP_LOG.TICK_LO, .ro, [0], .none⟩]⟩,
  ⟨"LINK_RING_STATUS_r", 0xC0014, 16, [⟨Reg.LINK_RING_STATUS_r.STATE, .ro, [0], .none⟩,
    ⟨Reg.LINK_RING_STATUS_r.PRI, .ro, [2], .none⟩,
    ⟨Reg.LINK_RING_STATUS_r.SEC, .ro, [2], .none⟩,
    ⟨Reg.LINK_RING_STATUS_r.WRAP_POS, .ro, [0], .none⟩,
    ⟨Reg.LINK_RING_STATUS_r.FOLD_FIT, .ro, [0], .none⟩,
    ⟨Reg.LINK_RING_STATUS_r.NODES, .ro, [0], .none⟩,
    ⟨Reg.LINK_RING_STATUS_r.CFG_ERR, .w1c, [0], .none⟩,
    ⟨Reg.LINK_RING_STATUS_r.LOOP_DLY, .ro, [0], .none⟩]⟩,
  ⟨"LINK_LANE_ERR_l", 0xC0054, 32, [⟨Reg.LINK_LANE_ERR_l.CODE, .rc, [0], .none⟩,
    ⟨Reg.LINK_LANE_ERR_l.CRC, .rc, [0], .none⟩,
    ⟨Reg.LINK_LANE_ERR_l.LATE, .rc, [0], .none⟩,
    ⟨Reg.LINK_LANE_ERR_l.LOCK, .rc, [0], .none⟩]⟩]

/-- Block 0x0D of R694. -/
def regsBlock0D : List RegRow := [
  ⟨"LINK_CELL_DELAY_n", 0xD0000, 240, [⟨Reg.LINK_CELL_DELAY_n.SEC, .ro, [0], .none⟩,
    ⟨Reg.LINK_CELL_DELAY_n.PRI, .ro, [0], .none⟩]⟩,
  ⟨"LINK_CELL_TRIM_n", 0xD0400, 240, [⟨Reg.LINK_CELL_TRIM_n.TRIM, .rws, [0], .none⟩]⟩,
  ⟨"LINK_CELL_STATUS_n", 0xD0800, 240, [⟨Reg.LINK_CELL_STATUS_n.LSTATE, .ro, [0], .none⟩,
    ⟨Reg.LINK_CELL_STATUS_n.ALIGNED, .ro, [0], .none⟩,
    ⟨Reg.LINK_CELL_STATUS_n.TRIPPED, .ro, [0], .none⟩,
    ⟨Reg.LINK_CELL_STATUS_n.CMD_LOST, .ro, [0], .none⟩,
    ⟨Reg.LINK_CELL_STATUS_n.LATE, .ro, [0], .none⟩,
    ⟨Reg.LINK_CELL_STATUS_n.ERR_PRI, .rc, [0], .none⟩,
    ⟨Reg.LINK_CELL_STATUS_n.ERR_SEC, .rc, [0], .none⟩,
    ⟨Reg.LINK_CELL_STATUS_n.OUTLIER, .rc, [0], .none⟩,
    ⟨Reg.LINK_CELL_STATUS_n.JR_REFUSED, .rc, [0], .none⟩]⟩]

/-- Block 0x0E of R694. -/
def regsBlock0E : List RegRow := [
  ⟨"JOIN_CFG", 0xE0000, 1, [⟨Reg.JOIN_CFG.RAMP_MS, .rw, [100], .u 1 10000⟩,
    ⟨Reg.JOIN_CFG.SPILL_TICKS, .rw, [4], .u 2 15⟩,
    ⟨Reg.JOIN_CFG.PRE_I, .rw, [20], .u 1 255⟩]⟩,
  ⟨"JOIN_TIME_CFG", 0xE0004, 1, [⟨Reg.JOIN_TIME_CFG.VERIFY_S, .rw, [10], .u 1 255⟩,
    ⟨Reg.JOIN_TIME_CFG.PRECHARGE_S, .rw, [30], .u 1 255⟩]⟩,
  ⟨"JOIN_STATUS", 0xE0008, 1, [⟨Reg.JOIN_STATUS.CFG_ERR, .w1c, [0], .none⟩,
    ⟨Reg.JOIN_STATUS.PRECHG_COUNT, .ro, [0], .none⟩,
    ⟨Reg.JOIN_STATUS.RAMP_COUNT, .ro, [0], .none⟩,
    ⟨Reg.JOIN_STATUS.OUT_COUNT, .ro, [0], .none⟩]⟩]

/-- Block 0x0F of R694. -/
def regsBlock0F : List RegRow := [
  ⟨"JOIN_CELL_STATUS_n", 0xF0000, 240, [⟨Reg.JOIN_CELL_STATUS_n.SSTATE, .ro, [0], .none⟩,
    ⟨Reg.JOIN_CELL_STATUS_n.HOLD, .ro, [0], .none⟩,
    ⟨Reg.JOIN_CELL_STATUS_n.SPILL_CONF, .ro, [0], .none⟩,
    ⟨Reg.JOIN_CELL_STATUS_n.PRE_MODE, .ro, [0], .none⟩,
    ⟨Reg.JOIN_CELL_STATUS_n.FAIL, .ro, [0], .none⟩,
    ⟨Reg.JOIN_CELL_STATUS_n.EVENTS, .rc, [0], .none⟩]⟩]

/-- Block 0x10 of R694. -/
def regsBlock10 : List RegRow := [
  ⟨"HGS_PLANT_VOLT", 0x100000, 1, [⟨Reg.HGS_PLANT_VOLT.VMAX, .rws, [1100], .u 1000 1200⟩,
    ⟨Reg.HGS_PLANT_VOLT.VNOM, .rws, [0], .u 660 3600⟩]⟩,
  ⟨"HGS_PLANT_CUR", 0x100004, 1, [⟨Reg.HGS_PLANT_CUR.XF, .rws, [80], .u 0 300⟩,
    ⟨Reg.HGS_PLANT_CUR.IRATED, .rws, [0], .u 1 65535⟩]⟩,
  ⟨"HGS_RATING_STATUS", 0x100008, 1, [⟨Reg.HGS_RATING_STATUS.CFG_ERR, .w1c, [0], .none⟩,
    ⟨Reg.HGS_RATING_STATUS.DERATE_ROW, .ro, [4], .none⟩,
    ⟨Reg.HGS_RATING_STATUS.H_PERMIL, .ro, [0], .none⟩,
    ⟨Reg.HGS_RATING_STATUS.CUR_LIMIT_PCT, .ro, [0], .none⟩,
    ⟨Reg.HGS_RATING_STATUS.QCAP_LIMIT_PCT, .ro, [0], .none⟩]⟩,
  ⟨"HGS_PHASE_COUNT", 0x10000C, 1, [⟨Reg.HGS_PHASE_COUNT.L3, .ro, [0], .none⟩,
    ⟨Reg.HGS_PHASE_COUNT.L2, .ro, [0], .none⟩,
    ⟨Reg.HGS_PHASE_COUNT.L1, .ro, [0], .none⟩]⟩,
  ⟨"HGS_PRIO_CFG", 0x100010, 1, [⟨Reg.HGS_PRIO_CFG.WE, .rw, [64], .none⟩,
    ⟨Reg.HGS_PRIO_CFG.WT, .rw, [32], .none⟩,
    ⟨Reg.HGS_PRIO_CFG.WS, .rw, [16], .none⟩,
    ⟨Reg.HGS_PRIO_CFG.ALPHA, .rw, [32], .none⟩]⟩,
  ⟨"HGS_SW_CFG", 0x100014, 1, [⟨Reg.HGS_SW_CFG.BURST, .rw, [8], .u 1 255⟩,
    ⟨Reg.HGS_SW_CFG.REFILL, .rw, [10], .u 1 65535⟩]⟩,
  ⟨"HGS_PULSE_CFG", 0x100018, 1, [⟨Reg.HGS_PULSE_CFG.IDEAD, .rw, [5], .u 0 100⟩,
    ⟨Reg.HGS_PULSE_CFG.MINPULSE, .rw, [500], .u 100 10000⟩]⟩,
  ⟨"HGS_LINK_WIN_r", 0x10001C, 3, [⟨Reg.HGS_LINK_WIN_r.HARD, .rw, [100], .u 20 250⟩,
    ⟨Reg.HGS_LINK_WIN_r.BAND, .rw, [50], .u 10 200⟩]⟩,
  ⟨"HGS_TABLE_CTRL", 0x100028, 1, [⟨Reg.HGS_TABLE_CTRL.SWAP, .wo, [0], .none⟩,
    ⟨Reg.HGS_TABLE_CTRL.PENDING, .ro, [0], .none⟩,
    ⟨Reg.HGS_TABLE_CTRL.ACTIVE, .ro, [0], .none⟩]⟩,
  ⟨"HGS_PHASE_STATUS_p", 0x10002C, 3, [⟨Reg.HGS_PHASE_STATUS_p.SAT, .ro, [0], .none⟩,
    ⟨Reg.HGS_PHASE_STATUS_p.SIGN, .ro, [0], .none⟩,
    ⟨Reg.HGS_PHASE_STATUS_p.FRAC_CELL, .ro, [255], .none⟩,
    ⟨Reg.HGS_PHASE_STATUS_p.FULL_COUNT, .ro, [0], .none⟩,
    ⟨Reg.HGS_PHASE_STATUS_p.SAT_COUNT, .rc, [0], .none⟩]⟩,
  ⟨"HGS_CARRY_p", 0x100038, 3, [⟨Reg.HGS_CARRY_p.CARRY, .ro, [0], .none⟩]⟩,
  ⟨"HGS_NS_STATUS", 0x100044, 1, [⟨Reg.HGS_NS_STATUS.EMPTY, .ro, [0], .none⟩,
    ⟨Reg.HGS_NS_STATUS.V0, .ro, [0], .none⟩]⟩,
  ⟨"HGS_ROT", 0x100048, 1, [⟨Reg.HGS_ROT.ORIGIN, .ro, [0], .none⟩]⟩]

/-- Block 0x11 of R694. -/
def regsBlock11 : List RegRow := [
  ⟨"HGS_CELL_CFG_n", 0x110000, 240, [⟨Reg.HGS_CELL_CFG_n.ENABLE, .rw, [0], .none⟩,
    ⟨Reg.HGS_CELL_CFG_n.PHASE, .rw, [0], .u 0 2⟩,
    ⟨Reg.HGS_CELL_CFG_n.ROLE, .rw, [0], .u 0 2⟩,
    ⟨Reg.HGS_CELL_CFG_n.VLINK, .rw, [0], .none⟩]⟩,
  ⟨"HGS_CELL_TIMING_n", 0x110400, 240, [⟨Reg.HGS_CELL_TIMING_n.DT, .rw, [10], .u 2 255⟩]⟩,
  ⟨"HGS_CELL_STATE_n", 0x110800, 240, [⟨Reg.HGS_CELL_STATE_n.BUDGET, .ro, [2048], .none⟩,
    ⟨Reg.HGS_CELL_STATE_n.END_STATE, .ro, [0], .none⟩,
    ⟨Reg.HGS_CELL_STATE_n.CLASS, .ro, [0], .none⟩,
    ⟨Reg.HGS_CELL_STATE_n.ROLE_IN_TICK, .ro, [0], .none⟩,
    ⟨Reg.HGS_CELL_STATE_n.WEIGHT, .ro, [0], .none⟩]⟩]

/-- Block 0x12 of R694. -/
def regsBlock12 : List RegRow := [
  ⟨"CTL_MODE", 0x120000, 1, [⟨Reg.CTL_MODE.MODE_REQ, .rw, [0], .none⟩,
    ⟨Reg.CTL_MODE.ZSEQ_EN, .rw, [0], .none⟩,
    ⟨Reg.CTL_MODE.NOTCH_EN, .rw, [0], .none⟩,
    ⟨Reg.CTL_MODE.NEG_EN, .rw, [1], .none⟩,
    ⟨Reg.CTL_MODE.PRIO, .rw, [0], .u 0 2⟩,
    ⟨Reg.CTL_MODE.RES_EN, .rw, [0], .none⟩,
    ⟨Reg.CTL_MODE.MAN_RATE, .rw, [10], .u 1 255⟩]⟩,
  ⟨"CTL_STATUS", 0x120004, 1, [⟨Reg.CTL_STATUS.MODE, .ro, [0], .none⟩,
    ⟨Reg.CTL_STATUS.FORCED_AUTO, .w1c, [0], .none⟩,
    ⟨Reg.CTL_STATUS.I_LIMITING, .ro, [0], .none⟩,
    ⟨Reg.CTL_STATUS.V_SAT, .ro, [0], .none⟩,
    ⟨Reg.CTL_STATUS.FROZEN, .ro, [0], .none⟩,
    ⟨Reg.CTL_STATUS.PRED_BYPASS, .ro, [0], .none⟩,
    ⟨Reg.CTL_STATUS.RES_ACTIVE, .ro, [0], .none⟩,
    ⟨Reg.CTL_STATUS.NOTCH_ACTIVE, .ro, [0], .none⟩,
    ⟨Reg.CTL_STATUS.CFG_ERR, .w1c, [0], .none⟩,
    ⟨Reg.CTL_STATUS.LIMIT_SRC, .ro, [0], .none⟩,
    ⟨Reg.CTL_STATUS.LIMIT_PCT, .ro, [0], .none⟩]⟩,
  ⟨"CTL_GAIN", 0x120008, 1, [⟨Reg.CTL_GAIN.KP, .rw, [500], .none⟩,
    ⟨Reg.CTL_GAIN.KI, .rw, [200], .none⟩]⟩,
  ⟨"CTL_NEG_GAIN", 0x12000C, 1, [⟨Reg.CTL_NEG_GAIN.KP, .rw, [500], .none⟩,
    ⟨Reg.CTL_NEG_GAIN.KI, .rw, [200], .none⟩]⟩,
  ⟨"CTL_LUT_CFG", 0x120010, 1, [⟨Reg.CTL_LUT_CFG.STEP, .rw, [20], .u 1 255⟩]⟩,
  ⟨"CTL_LUT_j", 0x120014, 16, [⟨Reg.CTL_LUT_j.KP_MUL, .rw, [0x1000], .none⟩,
    ⟨Reg.CTL_LUT_j.KI_MUL, .rw, [0x1000], .none⟩]⟩,
  ⟨"CTL_RES_n", 0x120054, 6, [⟨Reg.CTL_RES_n.SEQ, .rw, [0], .none⟩,
    ⟨Reg.CTL_RES_n.HARM, .rw, [2], .u 2 49⟩,
    ⟨Reg.CTL_RES_n.KR, .rw, [0], .none⟩,
    ⟨Reg.CTL_RES_n.DAMP, .rw, [10], .u 1 4095⟩]⟩,
  ⟨"CTL_NOTCH", 0x12006C, 1, [⟨Reg.CTL_NOTCH.FREQ, .rw, [1000], .u 100 16383⟩,
    ⟨Reg.CTL_NOTCH.WIDTH, .rw, [200], .u 10 1023⟩,
    ⟨Reg.CTL_NOTCH.DEPTH, .rw, [20], .u 3 60⟩]⟩,
  ⟨"CTL_MODEL", 0x120070, 1, [⟨Reg.CTL_MODEL.ADV, .rw, [64], .none⟩,
    ⟨Reg.CTL_MODEL.LSCALE, .rw, [128], .u 64 255⟩]⟩,
  ⟨"CTL_AW_CFG", 0x120074, 1, [⟨Reg.CTL_AW_CFG.KAW, .rw, [1024], .u 0 4096⟩,
    ⟨Reg.CTL_AW_CFG.LIM_RATE, .rw, [500], .u 1 10000⟩]⟩,
  ⟨"CTL_ZSEQ_CFG", 0x120078, 1, [⟨Reg.CTL_ZSEQ_CFG.ZMAX, .rw, [2000], .none⟩,
    ⟨Reg.CTL_ZSEQ_CFG.KZ, .rw, [50], .none⟩,
    ⟨Reg.CTL_ZSEQ_CFG.KD, .rw, [0], .none⟩]⟩,
  ⟨"CTL_MANUAL", 0x12007C, 1, [⟨Reg.CTL_MANUAL.VD, .rw, [0], .none⟩,
    ⟨Reg.CTL_MANUAL.VQ, .rw, [0], .none⟩]⟩,
  ⟨"CTL_EFF_GAIN", 0x120080, 1, [⟨Reg.CTL_EFF_GAIN.M_KP, .ro, [0x1000], .none⟩,
    ⟨Reg.CTL_EFF_GAIN.M_KI, .ro, [0x1000], .none⟩]⟩,
  ⟨"CTL_TABLE_CTRL", 0x120084, 1, [⟨Reg.CTL_TABLE_CTRL.SWAP, .wo, [0], .none⟩,
    ⟨Reg.CTL_TABLE_CTRL.PENDING, .ro, [0], .none⟩,
    ⟨Reg.CTL_TABLE_CTRL.ACTIVE, .ro, [0], .none⟩]⟩]

/-- Block 0x13 of R694. -/
def regsBlock13 : List RegRow := [
  ⟨"SYNC_PLL_CFG", 0x130000, 1, [⟨Reg.SYNC_PLL_CFG.FNOM, .rw, [0], .none⟩,
    ⟨Reg.SYNC_PLL_CFG.BW, .rw, [20], .u 5 100⟩,
    ⟨Reg.SYNC_PLL_CFG.ZETA, .rw, [7], .u 5 15⟩,
    ⟨Reg.SYNC_PLL_CFG.UCOAST, .rw, [100], .u 20 255⟩,
    ⟨Reg.SYNC_PLL_CFG.JUMP, .rw, [10], .u 5 60⟩,
    ⟨Reg.SYNC_PLL_CFG.ROCOF_WIN, .rw, [5], .u 1 50⟩]⟩,
  ⟨"SYNC_MODE", 0x130004, 1, [⟨Reg.SYNC_MODE.GFM_REQ, .rw, [0], .none⟩,
    ⟨Reg.SYNC_MODE.SP_RATE, .rw, [100], .u 1 10000⟩]⟩,
  ⟨"SYNC_VM_CFG", 0x130008, 1, [⟨Reg.SYNC_VM_CFG.H, .rw, [40], .u 1 255⟩,
    ⟨Reg.SYNC_VM_CFG.D, .rw, [20], .u 1 255⟩,
    ⟨Reg.SYNC_VM_CFG.KV, .rw, [50], .none⟩,
    ⟨Reg.SYNC_VM_CFG.XV, .rw, [40], .u 1 255⟩]⟩,
  ⟨"SYNC_STATUS", 0x13000C, 1, [⟨Reg.SYNC_STATUS.LOCKED, .ro, [0], .none⟩,
    ⟨Reg.SYNC_STATUS.COAST, .ro, [0], .none⟩,
    ⟨Reg.SYNC_STATUS.GFM, .ro, [0], .none⟩,
    ⟨Reg.SYNC_STATUS.CFG_ERR, .w1c, [0], .none⟩,
    ⟨Reg.SYNC_STATUS.JUMP, .w1c, [0], .none⟩,
    ⟨Reg.SYNC_STATUS.VP, .ro, [0], .none⟩,
    ⟨Reg.SYNC_STATUS.VN, .ro, [0], .none⟩]⟩,
  ⟨"SYNC_FREQ", 0x130010, 1, [⟨Reg.SYNC_FREQ.FREQ, .ro, [0], .none⟩,
    ⟨Reg.SYNC_FREQ.ROCOF, .ro, [0], .none⟩]⟩,
  ⟨"SYNC_SP_APPLIED", 0x130014, 1, [⟨Reg.SYNC_SP_APPLIED.P, .ro, [0], .none⟩,
    ⟨Reg.SYNC_SP_APPLIED.Q, .ro, [0], .none⟩]⟩,
  ⟨"SYNC_ARB_STATUS", 0x130018, 1, [⟨Reg.SYNC_ARB_STATUS.SAFETY_APPLIED, .ro, [0], .none⟩,
    ⟨Reg.SYNC_ARB_STATUS.ARB_COUNT, .rc, [0], .none⟩,
    ⟨Reg.SYNC_ARB_STATUS.RING_COUNT, .rc, [0], .none⟩]⟩]

/-- Block 0x14 of R694. -/
def regsBlock14 : List RegRow := [
  ⟨"FRT_CFG", 0x140000, 1, [⟨Reg.FRT_CFG.UENTRY, .rw, [900], .u 500 1000⟩,
    ⟨Reg.FRT_CFG.UHIGH, .rw, [1100], .u 1000 1500⟩,
    ⟨Reg.FRT_CFG.HYS, .rw, [20], .u 5 63⟩,
    ⟨Reg.FRT_CFG.FHYS, .rw, [10], .u 1 31⟩]⟩,
  ⟨"FRT_INJ_CFG", 0x140004, 1, [⟨Reg.FRT_INJ_CFG.K1, .rw, [20], .u 0 100⟩,
    ⟨Reg.FRT_INJ_CFG.K2, .rw, [20], .u 0 100⟩,
    ⟨Reg.FRT_INJ_CFG.SEQ_PRIO, .rw, [0], .u 0 2⟩,
    ⟨Reg.FRT_INJ_CFG.P_RECOV, .rw, [10], .u 1 255⟩]⟩,
  ⟨"FRT_MC_CFG", 0x140008, 1, [⟨Reg.FRT_MC_CFG.UMC, .rw, [0], .u 0 1000⟩,
    ⟨Reg.FRT_MC_CFG.RESTORE, .rw, [100], .u 1 65535⟩]⟩,
  ⟨"FRT_UV_i", 0x14000C, 8, [⟨Reg.FRT_UV_i.LEVEL, .rw, [0], .none⟩,
    ⟨Reg.FRT_UV_i.EN, .rw, [0], .none⟩,
    ⟨Reg.FRT_UV_i.UNIT, .rw, [0], .none⟩,
    ⟨Reg.FRT_UV_i.TIME, .rw, [0], .none⟩]⟩,
  ⟨"FRT_OV_i", 0x14002C, 8, [⟨Reg.FRT_OV_i.LEVEL, .rw, [0], .none⟩,
    ⟨Reg.FRT_OV_i.EN, .rw, [0], .none⟩,
    ⟨Reg.FRT_OV_i.UNIT, .rw, [0], .none⟩,
    ⟨Reg.FRT_OV_i.TIME, .rw, [0], .none⟩]⟩,
  ⟨"FRT_UF_i", 0x14004C, 8, [⟨Reg.FRT_UF_i.LEVEL, .rw, [0], .none⟩,
    ⟨Reg.FRT_UF_i.EN, .rw, [0], .none⟩,
    ⟨Reg.FRT_UF_i.UNIT, .rw, [0], .none⟩,
    ⟨Reg.FRT_UF_i.TIME, .rw, [0], .none⟩]⟩,
  ⟨"FRT_OF_i", 0x14006C, 8, [⟨Reg.FRT_OF_i.LEVEL, .rw, [0], .none⟩,
    ⟨Reg.FRT_OF_i.EN, .rw, [0], .none⟩,
    ⟨Reg.FRT_OF_i.UNIT, .rw, [0], .none⟩,
    ⟨Reg.FRT_OF_i.TIME, .rw, [0], .none⟩]⟩,
  ⟨"FRT_FUNC_CFG", 0x14008C, 1, [⟨Reg.FRT_FUNC_CFG.QMODE, .rw, [0], .u 0 2⟩,
    ⟨Reg.FRT_FUNC_CFG.PF_SIGN, .rw, [0], .none⟩,
    ⟨Reg.FRT_FUNC_CFG.PF, .rw, [1000], .u 800 1000⟩,
    ⟨Reg.FRT_FUNC_CFG.FW_EN, .rw, [0], .none⟩,
    ⟨Reg.FRT_FUNC_CFG.DB, .rw, [36], .none⟩,
    ⟨Reg.FRT_FUNC_CFG.DROOP, .rw, [50], .u 10 100⟩]⟩,
  ⟨"FRT_QV_i", 0x140090, 4, [⟨Reg.FRT_QV_i.V, .rw, [920, 980, 1020, 1080], .none⟩,
    ⟨Reg.FRT_QV_i.Q, .rw, [440, 0, 0, 0xfe48], .none⟩]⟩,
  ⟨"FRT_QV_CFG", 0x1400A0, 1, [⟨Reg.FRT_QV_CFG.OLRT, .rw, [500], .u 1 9000⟩]⟩,
  ⟨"FRT_ENTER_WIN", 0x1400A4, 1, [⟨Reg.FRT_ENTER_WIN.ULO, .rw, [917], .u 500 1000⟩,
    ⟨Reg.FRT_ENTER_WIN.UHI, .rw, [1050], .u 1000 1500⟩,
    ⟨Reg.FRT_ENTER_WIN.FDEV, .rw, [100], .u 10 2047⟩]⟩,
  ⟨"FRT_ENTER_CFG", 0x1400A8, 1, [⟨Reg.FRT_ENTER_CFG.DELAY, .rw, [300], .u 0 600⟩,
    ⟨Reg.FRT_ENTER_CFG.RAMP, .rw, [300], .u 1 1000⟩]⟩,
  ⟨"FRT_STATUS", 0x1400AC, 1, [⟨Reg.FRT_STATUS.STATE, .ro, [4], .none⟩,
    ⟨Reg.FRT_STATUS.TRIP_CURVE, .ro, [0], .none⟩,
    ⟨Reg.FRT_STATUS.TRIP_STAGE, .ro, [0], .none⟩,
    ⟨Reg.FRT_STATUS.ENTER_OK, .ro, [0], .none⟩,
    ⟨Reg.FRT_STATUS.EVENT_COUNT, .rc, [0], .none⟩]⟩,
  ⟨"FRT_TABLE_CTRL", 0x1400B0, 1, [⟨Reg.FRT_TABLE_CTRL.SWAP, .wo, [0], .none⟩,
    ⟨Reg.FRT_TABLE_CTRL.PENDING, .ro, [0], .none⟩,
    ⟨Reg.FRT_TABLE_CTRL.ACTIVE, .ro, [0], .none⟩]⟩]

/-- Block 0x15 of R694. -/
def regsBlock15 : List RegRow := [
  ⟨"MIR_CFG", 0x150000, 1, [⟨Reg.MIR_CFG.EN, .rw, [0], .none⟩,
    ⟨Reg.MIR_CFG.AXIS, .rw, [0], .none⟩,
    ⟨Reg.MIR_CFG.CHIPLEN, .rw, [2], .none⟩,
    ⟨Reg.MIR_CFG.CODE_IDX, .rw, [0], .none⟩,
    ⟨Reg.MIR_CFG.AMP, .rw, [20], .u 5 50⟩]⟩,
  ⟨"MIR_WIN_CFG", 0x150004, 1, [⟨Reg.MIR_WIN_CFG.WINDOW, .rw, [512], .u 128 4096⟩,
    ⟨Reg.MIR_WIN_CFG.UPDATE, .rw, [4], .u 1 63⟩,
    ⟨Reg.MIR_WIN_CFG.CONFIRM, .rw, [4], .u 1 15⟩,
    ⟨Reg.MIR_WIN_CFG.BASE_TAU, .rw, [60], .u 1 255⟩]⟩,
  ⟨"MIR_THR_CFG", 0x150008, 1, [⟨Reg.MIR_THR_CFG.ZDEV, .rw, [50], .u 10 255⟩,
    ⟨Reg.MIR_THR_CFG.ZMIN, .rw, [10], .u 1 255⟩,
    ⟨Reg.MIR_THR_CFG.ZTRIP, .rw, [0], .none⟩]⟩,
  ⟨"MIR_BASE", 0x15000C, 1, [⟨Reg.MIR_BASE.ZR, .rw, [0], .none⟩,
    ⟨Reg.MIR_BASE.ZX, .rw, [0], .none⟩]⟩,
  ⟨"MIR_Z", 0x150010, 1, [⟨Reg.MIR_Z.ZR, .ro, [0], .none⟩,
    ⟨Reg.MIR_Z.ZX, .ro, [0], .none⟩]⟩,
  ⟨"MIR_PASSIVE_CFG", 0x150014, 1, [⟨Reg.MIR_PASSIVE_CFG.ROCOF_EN, .rw, [1], .none⟩,
    ⟨Reg.MIR_PASSIVE_CFG.VS_EN, .rw, [0], .none⟩,
    ⟨Reg.MIR_PASSIVE_CFG.ROCOF_LVL, .rw, [35], .u 1 100⟩,
    ⟨Reg.MIR_PASSIVE_CFG.ROCOF_TIME, .rw, [20], .u 1 255⟩,
    ⟨Reg.MIR_PASSIVE_CFG.VS_LVL, .rw, [12], .u 2 90⟩]⟩,
  ⟨"MIR_ACT_CFG", 0x150018, 1, [⟨Reg.MIR_ACT_CFG.GFM_ACT, .rw, [0], .none⟩,
    ⟨Reg.MIR_ACT_CFG.FAULT_TRIP, .rw, [0], .none⟩]⟩,
  ⟨"MIR_STATUS", 0x15001C, 1, [⟨Reg.MIR_STATUS.ISLAND, .w1c, [0], .none⟩,
    ⟨Reg.MIR_STATUS.CAUSE, .ro, [0], .none⟩,
    ⟨Reg.MIR_STATUS.VALID, .ro, [0], .none⟩,
    ⟨Reg.MIR_STATUS.FULL, .ro, [0], .none⟩,
    ⟨Reg.MIR_STATUS.INJECT, .ro, [0], .none⟩,
    ⟨Reg.MIR_STATUS.FAULT, .w1c, [0], .none⟩,
    ⟨Reg.MIR_STATUS.CFG_ERR, .w1c, [0], .none⟩,
    ⟨Reg.MIR_STATUS.PEND, .ro, [0], .none⟩,
    ⟨Reg.MIR_STATUS.FILL, .ro, [0], .none⟩]⟩,
  ⟨"MIR_TABLE_CTRL", 0x150020, 1, [⟨Reg.MIR_TABLE_CTRL.SWAP, .wo, [0], .none⟩,
    ⟨Reg.MIR_TABLE_CTRL.PENDING, .ro, [0], .none⟩,
    ⟨Reg.MIR_TABLE_CTRL.ACTIVE, .ro, [0], .none⟩]⟩]

/-- Block 0x16 of R694. -/
def regsBlock16 : List RegRow := [
  ⟨"PORT_TRK_CFG", 0x160000, 1, [⟨Reg.PORT_TRK_CFG.DAMP, .rw, [30], .u 10 100⟩,
    ⟨Reg.PORT_TRK_CFG.KG, .rw, [205], .u 1 255⟩,
    ⟨Reg.PORT_TRK_CFG.DELAY, .rw, [2], .none⟩,
    ⟨Reg.PORT_TRK_CFG.VSTEP, .rw, [5], .u 1 15⟩,
    ⟨Reg.PORT_TRK_CFG.DRIFT, .rw, [4], .u 1 15⟩,
    ⟨Reg.PORT_TRK_CFG.PMIN, .rw, [2], .none⟩]⟩,
  ⟨"PORT_SCAN_CFG", 0x160004, 1, [⟨Reg.PORT_SCAN_CFG.PERIOD, .rw, [15], .none⟩,
    ⟨Reg.PORT_SCAN_CFG.TRIG, .rw, [10], .u 0 50⟩,
    ⟨Reg.PORT_SCAN_CFG.STEP, .rw, [4], .u 1 15⟩,
    ⟨Reg.PORT_SCAN_CFG.CONC, .rw, [2], .u 1 15⟩,
    ⟨Reg.PORT_SCAN_CFG.DWELL, .rw, [64], .u 16 255⟩]⟩,
  ⟨"PORT_PACK_GCFG", 0x160008, 1, [⟨Reg.PORT_PACK_GCFG.TLO, .rw, [236], .none⟩,
    ⟨Reg.PORT_PACK_GCFG.TCOLD, .rw, [5], .none⟩,
    ⟨Reg.PORT_PACK_GCFG.THOT, .rw, [45], .none⟩,
    ⟨Reg.PORT_PACK_GCFG.THI, .rw, [55], .none⟩]⟩,
  ⟨"PORT_AGE_CFG", 0x16000C, 1, [⟨Reg.PORT_AGE_CFG.AGE_K, .rw, [128], .none⟩,
    ⟨Reg.PORT_AGE_CFG.SOH_REF, .rw, [1000], .u 500 1000⟩,
    ⟨Reg.PORT_AGE_CFG.TRIM, .rw, [10], .u 0 50⟩]⟩,
  ⟨"PORT_TABLE_CTRL", 0x160010, 1, [⟨Reg.PORT_TABLE_CTRL.SWAP, .wo, [0], .none⟩,
    ⟨Reg.PORT_TABLE_CTRL.PENDING, .ro, [0], .none⟩,
    ⟨Reg.PORT_TABLE_CTRL.ACTIVE, .ro, [0], .none⟩]⟩,
  ⟨"PORT_PV_SUM", 0x160014, 1, [⟨Reg.PORT_PV_SUM.PAVAIL, .ro, [0], .none⟩,
    ⟨Reg.PORT_PV_SUM.CURT_COUNT, .ro, [0], .none⟩,
    ⟨Reg.PORT_PV_SUM.SCAN_COUNT, .ro, [0], .none⟩]⟩,
  ⟨"PORT_CTRL", 0x160018, 1, [⟨Reg.PORT_CTRL.SCAN_REQ, .wo, [0], .none⟩,
    ⟨Reg.PORT_CTRL.SCAN_ALL, .wo, [0], .none⟩,
    ⟨Reg.PORT_CTRL.CELL, .wo, [0], .u 0 239⟩]⟩,
  ⟨"PORT_GSTATUS", 0x16001C, 1, [⟨Reg.PORT_GSTATUS.CFG_ERR, .w1c, [0], .none⟩,
    ⟨Reg.PORT_GSTATUS.SCAN_BLOCKED, .ro, [1], .none⟩,
    ⟨Reg.PORT_GSTATUS.DRIFT_SKIPS, .rc, [0], .none⟩]⟩]

/-- Block 0x17 of R694. -/
def regsBlock17 : List RegRow := [
  ⟨"PORT_PV_CFG_n", 0x170000, 240, [⟨Reg.PORT_PV_CFG_n.TRK_EN, .rw, [0], .none⟩,
    ⟨Reg.PORT_PV_CFG_n.ROW, .rw, [3], .none⟩,
    ⟨Reg.PORT_PV_CFG_n.VMAX, .rw, [0], .u 1 2047⟩,
    ⟨Reg.PORT_PV_CFG_n.VMIN, .rw, [0], .u 0 2046⟩]⟩]

/-- Block 0x18 of R694. -/
def regsBlock18 : List RegRow := [
  ⟨"PORT_PACK_LIM_n", 0x180000, 240, [⟨Reg.PORT_PACK_LIM_n.IDIS, .rw, [0], .none⟩,
    ⟨Reg.PORT_PACK_LIM_n.ICHG, .rw, [0], .none⟩]⟩,
  ⟨"PORT_PACK_WIN_n", 0x180400, 240, [⟨Reg.PORT_PACK_WIN_n.SOC_MIN, .rw, [20], .u 0 199⟩,
    ⟨Reg.PORT_PACK_WIN_n.SOC_MAX, .rw, [180], .u 1 200⟩,
    ⟨Reg.PORT_PACK_WIN_n.TAPER, .rw, [20], .u 1 40⟩]⟩,
  ⟨"PORT_PACK_VLIM_n", 0x180800, 240, [⟨Reg.PORT_PACK_VLIM_n.VMAX, .rw, [2047], .none⟩,
    ⟨Reg.PORT_PACK_VLIM_n.VMIN, .rw, [0], .none⟩]⟩,
  ⟨"PORT_PACK_SOH_n", 0x180C00, 240, [⟨Reg.PORT_PACK_SOH_n.SOH, .rw, [1000], .u 1 1000⟩]⟩]

/-- Block 0x19 of R694. -/
def regsBlock19 : List RegRow := [
  ⟨"PORT_SET_n", 0x190000, 240, [⟨Reg.PORT_SET_n.SET, .ro, [0], .none⟩,
    ⟨Reg.PORT_SET_n.GRAD, .ro, [0], .none⟩]⟩,
  ⟨"PORT_WIN_n", 0x190400, 240, [⟨Reg.PORT_WIN_n.IHI, .ro, [0], .none⟩,
    ⟨Reg.PORT_WIN_n.ILO, .ro, [0], .none⟩]⟩,
  ⟨"PORT_STATUS_n", 0x190800, 240, [⟨Reg.PORT_STATUS_n.CLIP_DIS, .ro, [0], .none⟩,
    ⟨Reg.PORT_STATUS_n.CLIP_CHG, .ro, [0], .none⟩,
    ⟨Reg.PORT_STATUS_n.LEASE, .ro, [0], .none⟩,
    ⟨Reg.PORT_STATUS_n.SOC_LO, .ro, [0], .none⟩,
    ⟨Reg.PORT_STATUS_n.SOC_HI, .ro, [0], .none⟩,
    ⟨Reg.PORT_STATUS_n.TEMP, .ro, [0], .none⟩,
    ⟨Reg.PORT_STATUS_n.VPACK, .ro, [0], .none⟩,
    ⟨Reg.PORT_STATUS_n.ALARM, .ro, [0], .none⟩,
    ⟨Reg.PORT_STATUS_n.CURT, .ro, [0], .none⟩,
    ⟨Reg.PORT_STATUS_n.SCAN, .ro, [0], .none⟩,
    ⟨Reg.PORT_STATUS_n.QUEUED, .ro, [0], .none⟩,
    ⟨Reg.PORT_STATUS_n.HOLD, .ro, [0], .none⟩]⟩]

/-- Block 0x1A of R694. -/
def regsBlock1A : List RegRow := [
  ⟨"ADC_CTL_CFG", 0x1A0000, 1, [⟨Reg.ADC_CTL_CFG.NAVG, .rw, [4], .u 0 6⟩,
    ⟨Reg.ADC_CTL_CFG.DELAY, .rw, [400], .none⟩]⟩,
  ⟨"ADC_CHK_CFG", 0x1A0004, 1, [⟨Reg.ADC_CHK_CFG.PAIR_LIM, .rw, [20], .u 1 255⟩,
    ⟨Reg.ADC_CHK_CFG.SUM_LIM, .rw, [30], .u 1 255⟩,
    ⟨Reg.ADC_CHK_CFG.CHK_TICKS, .rw, [3], .u 1 15⟩]⟩,
  ⟨"ADC_STATUS", 0x1A0008, 1, [⟨Reg.ADC_STATUS.CFG_ERR, .w1c, [0], .none⟩,
    ⟨Reg.ADC_STATUS.CHK_FAIL, .w1c, [0], .none⟩,
    ⟨Reg.ADC_STATUS.CHK_KIND, .ro, [0], .none⟩,
    ⟨Reg.ADC_STATUS.CHK_PHASE, .ro, [0], .none⟩,
    ⟨Reg.ADC_STATUS.TRIG_MISS, .rc, [0], .none⟩,
    ⟨Reg.ADC_STATUS.CAL_DONE, .ro, [0], .none⟩]⟩,
  ⟨"ADC_OVR", 0x1A000C, 1, [⟨Reg.ADC_OVR.OVR, .rc, [0], .none⟩]⟩]

/-- Block 0x1B of R694. -/
def regsBlock1B : List RegRow := [
  ⟨"ADC_CH_CFG_n", 0x1B0000, 16, [⟨Reg.ADC_CH_CFG_n.EN, .rw, [0], .none⟩,
    ⟨Reg.ADC_CH_CFG_n.RANGE, .rw, [0], .none⟩,
    ⟨Reg.ADC_CH_CFG_n.TEST, .rw, [0], .none⟩,
    ⟨Reg.ADC_CH_CFG_n.FUNC, .rw, [0], .u 0 16⟩,
    ⟨Reg.ADC_CH_CFG_n.TESTLVL, .rw, [0], .u 0 2⟩,
    ⟨Reg.ADC_CH_CFG_n.FS, .rw, [0], .none⟩]⟩,
  ⟨"ADC_CH_CAL_n", 0x1B0040, 16, [⟨Reg.ADC_CH_CAL_n.GAIN, .rw, [0x4000], .u 8192 32767⟩,
    ⟨Reg.ADC_CH_CAL_n.OFFSET, .rw, [0], .none⟩]⟩]

/-- Block 0x1C of R694. -/
def regsBlock1C : List RegRow := [
  ⟨"ADC_TRIG_CFG_t", 0x1C0000, 16, [⟨Reg.ADC_TRIG_CFG_t.EN, .rw, [0], .none⟩,
    ⟨Reg.ADC_TRIG_CFG_t.SRC, .rw, [0], .none⟩,
    ⟨Reg.ADC_TRIG_CFG_t.CHAIN, .rw, [0], .none⟩,
    ⟨Reg.ADC_TRIG_CFG_t.QUEUE, .rw, [0], .none⟩,
    ⟨Reg.ADC_TRIG_CFG_t.AVG, .rw, [0], .none⟩,
    ⟨Reg.ADC_TRIG_CFG_t.BURST, .rw, [1], .u 1 255⟩]⟩,
  ⟨"ADC_TRIG_SEL_t", 0x1C0040, 16, [⟨Reg.ADC_TRIG_SEL_t.DELAY, .rw, [0], .none⟩,
    ⟨Reg.ADC_TRIG_SEL_t.MASK, .rw, [0], .none⟩]⟩,
  ⟨"ADC_TRIG_TIMER_t", 0x1C0080, 16, [⟨Reg.ADC_TRIG_TIMER_t.PERIOD, .rw, [0x186a0], .u 10 16777215⟩]⟩,
  ⟨"ADC_SW_TRIG", 0x1C00C0, 1, [⟨Reg.ADC_SW_TRIG.FIRE, .wo, [0], .none⟩]⟩]

/-- Block 0x1D of R694. -/
def regsBlock1D : List RegRow := [
  ⟨"ADC_Q_CFG_q", 0x1D0000, 8, [⟨Reg.ADC_Q_CFG_q.EN, .rw, [0], .none⟩,
    ⟨Reg.ADC_Q_CFG_q.MODE, .rw, [0], .u 0 2⟩,
    ⟨Reg.ADC_Q_CFG_q.DRAIN, .rw, [0], .none⟩,
    ⟨Reg.ADC_Q_CFG_q.RING, .rw, [0], .none⟩,
    ⟨Reg.ADC_Q_CFG_q.POST, .rw, [2048], .u 1 4095⟩]⟩,
  ⟨"ADC_Q_CAP_q", 0x1D0020, 8, [⟨Reg.ADC_Q_CAP_q.CMP, .rw, [0], .none⟩,
    ⟨Reg.ADC_Q_CAP_q.SLC, .rw, [0], .none⟩,
    ⟨Reg.ADC_Q_CAP_q.FRT, .rw, [0], .none⟩,
    ⟨Reg.ADC_Q_CAP_q.HOST, .rw, [1], .none⟩,
    ⟨Reg.ADC_Q_CAP_q.ARM, .wo, [0], .none⟩]⟩,
  ⟨"ADC_Q_STATUS_q", 0x1D0040, 8, [⟨Reg.ADC_Q_STATUS_q.STATE, .ro, [0], .none⟩,
    ⟨Reg.ADC_Q_STATUS_q.TRUNC, .ro, [0], .none⟩,
    ⟨Reg.ADC_Q_STATUS_q.DROP, .rc, [0], .none⟩,
    ⟨Reg.ADC_Q_STATUS_q.FILL, .ro, [0], .none⟩]⟩]

/-- Block 0x1E of R694. -/
def regsBlock1E : List RegRow := [
  ⟨"ADC_HK_CFG", 0x1E0000, 1, [⟨Reg.ADC_HK_CFG.QEN, .rw, [0], .none⟩,
    ⟨Reg.ADC_HK_CFG.QUEUE, .rw, [0], .none⟩,
    ⟨Reg.ADC_HK_CFG.SKIPPED, .rc, [0], .none⟩,
    ⟨Reg.ADC_HK_CFG.PERIOD, .rw, [1000], .u 100 100000⟩]⟩,
  ⟨"ADC_HK_EN", 0x1E0004, 1, [⟨Reg.ADC_HK_EN.EN, .rw, [0], .none⟩]⟩,
  ⟨"ADC_HK_RES_c", 0x1E0008, 48, [⟨Reg.ADC_HK_RES_c.ROUND, .ro, [0], .none⟩,
    ⟨Reg.ADC_HK_RES_c.VALUE, .ro, [0], .none⟩]⟩]

/-- Block 0x1F of R694. -/
def regsBlock1F : List RegRow := [
  ⟨"CMP_CFG_n", 0x1F0000, 16, [⟨Reg.CMP_CFG_n.MODE, .rw, [0], .none⟩,
    ⟨Reg.CMP_CFG_n.RAMP, .rw, [0], .none⟩,
    ⟨Reg.CMP_CFG_n.CLR, .rw, [0], .none⟩,
    ⟨Reg.CMP_CFG_n.PERIOD_SRC, .rw, [16], .u 0 16⟩,
    ⟨Reg.CMP_CFG_n.FILT, .rw, [0], .none⟩,
    ⟨Reg.CMP_CFG_n.HYS, .rw, [1], .none⟩,
    ⟨Reg.CMP_CFG_n.REF, .rw, [0], .none⟩]⟩,
  ⟨"CMP_RAMP_n", 0x1F0040, 16, [⟨Reg.CMP_RAMP_n.SLOPE, .rw, [0], .none⟩]⟩,
  ⟨"CMP_STATUS", 0x1F0080, 1, [⟨Reg.CMP_STATUS.LIVE, .ro, [0], .none⟩,
    ⟨Reg.CMP_STATUS.LATCH, .w1c, [0], .none⟩]⟩]

/-- Block 0x20 of R694. -/
def regsBlock20 : List RegRow := [
  ⟨"SLC_CFG", 0x200000, 1, [⟨Reg.SLC_CFG.MIN_BLOCK, .rws, [10], .u 1 255⟩,
    ⟨Reg.SLC_CFG.BRK_HOLD, .rws, [20], .u 1 255⟩,
    ⟨Reg.SLC_CFG.TRIP_IN_FILT, .rws, [2], .none⟩]⟩,
  ⟨"SLC_TR_ROUTE", 0x200004, 1, [⟨Reg.SLC_TR_ROUTE.CAUSE6, .rws, [3], .u 1 3⟩,
    ⟨Reg.SLC_TR_ROUTE.CAUSE5, .rws, [3], .u 1 3⟩,
    ⟨Reg.SLC_TR_ROUTE.CAUSE4, .rws, [3], .u 1 3⟩]⟩,
  ⟨"SLC_CMP_ROUTE_n", 0x200008, 16, [⟨Reg.SLC_CMP_ROUTE_n.ACTION, .rws, [0], .none⟩,
    ⟨Reg.SLC_CMP_ROUTE_n.PHASE, .rws, [0], .u 0 2⟩,
    ⟨Reg.SLC_CMP_ROUTE_n.DRV0, .rws, [0], .none⟩,
    ⟨Reg.SLC_CMP_ROUTE_n.DRV1, .rws, [0], .none⟩,
    ⟨Reg.SLC_CMP_ROUTE_n.BLANK_SRC, .rws, [31], .none⟩,
    ⟨Reg.SLC_CMP_ROUTE_n.BLANK_LEN, .rws, [0], .none⟩]⟩,
  ⟨"SLC_SRC_ROUTE", 0x200048, 1, [⟨Reg.SLC_SRC_ROUTE.SAFE_DRV0, .rws, [0], .none⟩,
    ⟨Reg.SLC_SRC_ROUTE.SAFE_DRV1, .rws, [0], .none⟩,
    ⟨Reg.SLC_SRC_ROUTE.TRIPIN_DRV0, .rws, [0], .none⟩,
    ⟨Reg.SLC_SRC_ROUTE.TRIPIN_DRV1, .rws, [0], .none⟩,
    ⟨Reg.SLC_SRC_ROUTE.TRIPIN_ACT, .rws, [3], .u 2 3⟩]⟩,
  ⟨"SLC_DRV_SC_CFG_m", 0x20004C, 2, [⟨Reg.SLC_DRV_SC_CFG_m.MODE, .rws, [0], .none⟩,
    ⟨Reg.SLC_DRV_SC_CFG_m.SC_LVL, .rws, [400], .u 1 2047⟩,
    ⟨Reg.SLC_DRV_SC_CFG_m.DIDT_LVL, .rws, [50], .u 1 255⟩,
    ⟨Reg.SLC_DRV_SC_CFG_m.BLANK, .rws, [100], .u 20 255⟩,
    ⟨Reg.SLC_DRV_SC_CFG_m.SOFT, .rws, [5], .u 2 15⟩]⟩,
  ⟨"SLC_DRV_SC_STATUS", 0x200054, 1, [⟨Reg.SLC_DRV_SC_STATUS.HARD1, .ro, [0], .none⟩,
    ⟨Reg.SLC_DRV_SC_STATUS.HARD0, .ro, [0], .none⟩,
    ⟨Reg.SLC_DRV_SC_STATUS.BOTH1, .w1c, [0], .none⟩,
    ⟨Reg.SLC_DRV_SC_STATUS.BOTH0, .w1c, [0], .none⟩,
    ⟨Reg.SLC_DRV_SC_STATUS.LEGS1, .w1c, [0], .none⟩,
    ⟨Reg.SLC_DRV_SC_STATUS.LEGS0, .w1c, [0], .none⟩]⟩,
  ⟨"SLC_TRIP_LATCH", 0x200058, 1, [⟨Reg.SLC_TRIP_LATCH.RING_TR, .w1c, [0], .none⟩,
    ⟨Reg.SLC_TRIP_LATCH.SAME_TICK_PHASE, .w1c, [0], .none⟩,
    ⟨Reg.SLC_TRIP_LATCH.SAME_TICK_CONV, .w1c, [0], .none⟩,
    ⟨Reg.SLC_TRIP_LATCH.SAFETY_IN, .w1c, [0], .none⟩,
    ⟨Reg.SLC_TRIP_LATCH.NET_STOP, .w1c, [0], .none⟩,
    ⟨Reg.SLC_TRIP_LATCH.PF_WARN, .w1c, [0], .none⟩,
    ⟨Reg.SLC_TRIP_LATCH.TRIP_IN, .w1c, [0], .none⟩,
    ⟨Reg.SLC_TRIP_LATCH.OVERRUN, .w1c, [0], .none⟩,
    ⟨Reg.SLC_TRIP_LATCH.PATH_CHECK, .w1c, [0], .none⟩,
    ⟨Reg.SLC_TRIP_LATCH.FRT_TRIP, .w1c, [0], .none⟩,
    ⟨Reg.SLC_TRIP_LATCH.ISLAND, .w1c, [0], .none⟩,
    ⟨Reg.SLC_TRIP_LATCH.DERATE4, .w1c, [0], .none⟩,
    ⟨Reg.SLC_TRIP_LATCH.TRIAD, .w1c, [0], .none⟩,
    ⟨Reg.SLC_TRIP_LATCH.THERMAL, .w1c, [0], .none⟩,
    ⟨Reg.SLC_TRIP_LATCH.HOST, .w1c, [1], .none⟩,
    ⟨Reg.SLC_TRIP_LATCH.DEBUG_STARVE, .w1c, [0], .none⟩,
    ⟨Reg.SLC_TRIP_LATCH.CMP, .w1c, [0], .none⟩]⟩,
  ⟨"SLC_FIRST", 0x20005C, 1, [⟨Reg.SLC_FIRST.RING_TR, .ro, [0], .none⟩,
    ⟨Reg.SLC_FIRST.SAME_TICK_PHASE, .ro, [0], .none⟩,
    ⟨Reg.SLC_FIRST.SAME_TICK_CONV, .ro, [0], .none⟩,
    ⟨Reg.SLC_FIRST.SAFETY_IN, .ro, [0], .none⟩,
    ⟨Reg.SLC_FIRST.NET_STOP, .ro, [0], .none⟩,
    ⟨Reg.SLC_FIRST.PF_WARN, .ro, [0], .none⟩,
    ⟨Reg.SLC_FIRST.TRIP_IN, .ro, [0], .none⟩,
    ⟨Reg.SLC_FIRST.OVERRUN, .ro, [0], .none⟩,
    ⟨Reg.SLC_FIRST.PATH_CHECK, .ro, [0], .none⟩,
    ⟨Reg.SLC_FIRST.FRT_TRIP, .ro, [0], .none⟩,
    ⟨Reg.SLC_FIRST.ISLAND, .ro, [0], .none⟩,
    ⟨Reg.SLC_FIRST.DERATE4, .ro, [0], .none⟩,
    ⟨Reg.SLC_FIRST.TRIAD, .ro, [0], .none⟩,
    ⟨Reg.SLC_FIRST.THERMAL, .ro, [0], .none⟩,
    ⟨Reg.SLC_FIRST.HOST, .ro, [1], .none⟩,
    ⟨Reg.SLC_FIRST.DEBUG_STARVE, .ro, [0], .none⟩,
    ⟨Reg.SLC_FIRST.CMP, .ro, [0], .none⟩]⟩,
  ⟨"SLC_FIRST_TIME", 0x200060, 1, [⟨Reg.SLC_FIRST_TIME.TIME, .ro, [0], .none⟩]⟩,
  ⟨"SLC_BLOCK_STATUS", 0x200064, 1, [⟨Reg.SLC_BLOCK_STATUS.SCOPE, .ro, [3], .none⟩,
    ⟨Reg.SLC_BLOCK_STATUS.PHASES, .ro, [7], .none⟩,
    ⟨Reg.SLC_BLOCK_STATUS.BRK, .ro, [1], .none⟩,
    ⟨Reg.SLC_BLOCK_STATUS.DBG_HALT, .ro, [0], .none⟩,
    ⟨Reg.SLC_BLOCK_STATUS.CFG_ERR, .w1c, [0], .none⟩,
    ⟨Reg.SLC_BLOCK_STATUS.CELL_TRIPS, .rc, [0], .none⟩,
    ⟨Reg.SLC_BLOCK_STATUS.BLOCKS, .rc, [0], .none⟩]⟩,
  ⟨"SLC_CTRL", 0x200068, 1, [⟨Reg.SLC_CTRL.STOP, .wo, [0], .none⟩,
    ⟨Reg.SLC_CTRL.STOP_BRK, .wo, [0], .none⟩,
    ⟨Reg.SLC_CTRL.BRK_RESET, .wo, [0], .none⟩,
    ⟨Reg.SLC_CTRL.CELL_BLK, .wo, [0], .none⟩,
    ⟨Reg.SLC_CTRL.CELL, .wo, [0], .u 0 239⟩]⟩]

/-- Block 0x21 of R694. -/
def regsBlock21 : List RegRow := [
  ⟨"SAFE_IN_CFG_n", 0x210000, 8, [⟨Reg.SAFE_IN_CFG_n.TYPE, .rws, [0], .u 0 4⟩,
    ⟨Reg.SAFE_IN_CFG_n.ANTI, .rws, [0], .none⟩,
    ⟨Reg.SAFE_IN_CFG_n.TP_EN, .rws, [1], .none⟩,
    ⟨Reg.SAFE_IN_CFG_n.DISC, .rws, [50], .u 1 255⟩,
    ⟨Reg.SAFE_IN_CFG_n.FILT, .rws, [10], .u 1 100⟩]⟩,
  ⟨"SAFE_CV", 0x210020, 1, [⟨Reg.SAFE_CV.CV, .ro, [0], .none⟩]⟩,
  ⟨"SAFE_CONFIRM", 0x210024, 1, [⟨Reg.SAFE_CONFIRM.SAFETY_CONFIRM, .rws, [0], .none⟩]⟩,
  ⟨"SAFE_STATUS", 0x210028, 1, [⟨Reg.SAFE_STATUS.PROOF, .ro, [0], .none⟩,
    ⟨Reg.SAFE_STATUS.CONFIRMED, .ro, [0], .none⟩,
    ⟨Reg.SAFE_STATUS.CV_BUSY, .ro, [0], .none⟩,
    ⟨Reg.SAFE_STATUS.CV_ERR, .ro, [0], .none⟩,
    ⟨Reg.SAFE_STATUS.BRK_FB_ERR, .w1c, [0], .none⟩,
    ⟨Reg.SAFE_STATUS.SIL_OK, .ro, [0], .none⟩,
    ⟨Reg.SAFE_STATUS.DISC, .w1c, [0], .none⟩,
    ⟨Reg.SAFE_STATUS.TP_ERR, .w1c, [0], .none⟩,
    ⟨Reg.SAFE_STATUS.DEMAND, .ro, [0], .none⟩]⟩]

/-- Block 0x22 of R694. -/
def regsBlock22 : List RegRow := [
  ⟨"SAFE_NET_CFG", 0x220000, 1, [⟨Reg.SAFE_NET_CFG.EN, .rws, [0], .none⟩,
    ⟨Reg.SAFE_NET_CFG.DEGRADE, .rws, [1], .none⟩,
    ⟨Reg.SAFE_NET_CFG.WDOG, .rws, [50], .u 5 500⟩,
    ⟨Reg.SAFE_NET_CFG.PERIOD, .rws, [10], .u 1 250⟩,
    ⟨Reg.SAFE_NET_CFG.SKEW, .rws, [20], .u 1 255⟩]⟩,
  ⟨"SAFE_CONN", 0x220004, 1, [⟨Reg.SAFE_CONN.CONN_ID, .rws, [0], .none⟩]⟩,
  ⟨"SAFE_MAC_DEV_LO", 0x220008, 1, [⟨Reg.SAFE_MAC_DEV_LO.ADDR_LO, .rws, [0], .none⟩]⟩,
  ⟨"SAFE_MAC_DEV_HI", 0x22000C, 1, [⟨Reg.SAFE_MAC_DEV_HI.ADDR_HI, .rws, [0], .none⟩]⟩,
  ⟨"SAFE_MAC_CTL_LO", 0x220010, 1, [⟨Reg.SAFE_MAC_CTL_LO.ADDR_LO, .rws, [0], .none⟩]⟩,
  ⟨"SAFE_MAC_CTL_HI", 0x220014, 1, [⟨Reg.SAFE_MAC_CTL_HI.ADDR_HI, .rws, [0], .none⟩]⟩,
  ⟨"SAFE_NET_STATUS", 0x220018, 1, [⟨Reg.SAFE_NET_STATUS.UP_A, .ro, [0], .none⟩,
    ⟨Reg.SAFE_NET_STATUS.UP_B, .ro, [0], .none⟩,
    ⟨Reg.SAFE_NET_STATUS.CONN_UP, .ro, [0], .none⟩,
    ⟨Reg.SAFE_NET_STATUS.CMP_ERR, .w1c, [0], .none⟩,
    ⟨Reg.SAFE_NET_STATUS.CV_DIFF, .ro, [0], .none⟩,
    ⟨Reg.SAFE_NET_STATUS.STOP_RX, .ro, [0], .none⟩,
    ⟨Reg.SAFE_NET_STATUS.CFG_ERR, .w1c, [0], .none⟩,
    ⟨Reg.SAFE_NET_STATUS.MISS_A, .rc, [0], .none⟩,
    ⟨Reg.SAFE_NET_STATUS.MISS_B, .rc, [0], .none⟩,
    ⟨Reg.SAFE_NET_STATUS.BAD, .rc, [0], .none⟩]⟩]

/-- Block 0x23 of R694. -/
def regsBlock23 : List RegRow := [
  ⟨"MTR_CFG", 0x230000, 1, [⟨Reg.MTR_CFG.N, .rw, [50], .u 1 65535⟩]⟩,
  ⟨"MTR_STATUS", 0x230004, 1, [⟨Reg.MTR_STATUS.CFG_ERR, .w1c, [0], .none⟩,
    ⟨Reg.MTR_STATUS.CAL_PENDING, .ro, [1], .none⟩,
    ⟨Reg.MTR_STATUS.KEY_OK, .ro, [0], .none⟩,
    ⟨Reg.MTR_STATUS.GAP_OPEN, .ro, [0], .none⟩,
    ⟨Reg.MTR_STATUS.MERGES, .rc, [0], .none⟩]⟩,
  ⟨"MTR_LATCH", 0x230008, 1, [⟨Reg.MTR_LATCH.LATCH, .ro, [0], .none⟩]⟩,
  ⟨"MTR_FLOW_CFG", 0x23000C, 1, [⟨Reg.MTR_FLOW_CFG.AC_LIM, .rw, [10], .u 1 65535⟩,
    ⟨Reg.MTR_FLOW_CFG.PORT_LIM, .rw, [100], .u 1 65535⟩]⟩,
  ⟨"MTR_PORT_SEL", 0x230010, 1, [⟨Reg.MTR_PORT_SEL.CELL, .rw, [0], .u 0 239⟩]⟩,
  ⟨"MTR_PORT_DATA_n", 0x230014, 9, [⟨Reg.MTR_PORT_DATA_n.W, .ro, [0], .none⟩]⟩]

/-- Block 0x24 of R694. -/
def regsBlock24 : List RegRow := [
  ⟨"MTR_CH_CAL_c", 0x240000, 6, [⟨Reg.MTR_CH_CAL_c.GAIN, .rw, [0x40000], .u 131072 524287⟩,
    ⟨Reg.MTR_CH_CAL_c.OFFSET, .rw, [0], .none⟩]⟩,
  ⟨"MTR_QTY_CAL_k", 0x240018, 8, [⟨Reg.MTR_QTY_CAL_k.GAIN, .rw, [0x40000], .u 131072 524287⟩,
    ⟨Reg.MTR_QTY_CAL_k.OFFSET, .rw, [0], .none⟩]⟩,
  ⟨"MTR_CH_PHASE_c", 0x240038, 6, [⟨Reg.MTR_CH_PHASE_c.PHASE, .rw, [0], .s (-10000) 10000⟩]⟩,
  ⟨"MTR_CAL_CTRL", 0x240050, 1, [⟨Reg.MTR_CAL_CTRL.SWAP, .wo, [0], .none⟩,
    ⟨Reg.MTR_CAL_CTRL.PENDING, .ro, [0], .none⟩,
    ⟨Reg.MTR_CAL_CTRL.ACTIVE, .ro, [0], .none⟩]⟩,
  ⟨"MTR_CAL_CV", 0x240054, 1, [⟨Reg.MTR_CAL_CV.CV, .ro, [0], .none⟩]⟩,
  ⟨"MTR_MEAS_c", 0x240058, 6, [⟨Reg.MTR_MEAS_c.RMS, .ro, [0], .none⟩]⟩,
  ⟨"MTR_PWR_P_p", 0x240070, 3, [⟨Reg.MTR_PWR_P_p.P, .ro, [0], .none⟩]⟩,
  ⟨"MTR_PWR_Q_p", 0x24007C, 3, [⟨Reg.MTR_PWR_Q_p.Q, .ro, [0], .none⟩]⟩]

/-- Block 0x25 of R694. -/
def regsBlock25 : List RegRow := [
  ⟨"CIS_STATUS", 0x250000, 1, [⟨Reg.CIS_STATUS.STATE, .ro, [1], .none⟩,
    ⟨Reg.CIS_STATUS.PF_COMMIT, .ro, [0], .none⟩,
    ⟨Reg.CIS_STATUS.OUTAGE_UNKNOWN, .w1c, [0], .none⟩,
    ⟨Reg.CIS_STATUS.UNCONSUMED, .ro, [0], .none⟩,
    ⟨Reg.CIS_STATUS.FREE, .ro, [0], .none⟩]⟩,
  ⟨"CIS_BOOT", 0x250004, 1, [⟨Reg.CIS_BOOT.BOOT, .ro, [0], .none⟩]⟩]

/-- Block 0x26 of R694. -/
def regsBlock26 : List RegRow := [
  ⟨"THM_CFG", 0x260000, 1, [⟨Reg.THM_CFG.WEIR_EN, .rw, [1], .none⟩,
    ⟨Reg.THM_CFG.WEIR_FLOOR, .rw, [4], .none⟩,
    ⟨Reg.THM_CFG.CELL_QUORUM, .rw, [8], .u 1 80⟩]⟩,
  ⟨"THM_CLASS_LVL_k", 0x260004, 5, [⟨Reg.THM_CLASS_LVL_k.BASE, .rws, [60, 30, 30, 30, 30], .none⟩,
    ⟨Reg.THM_CLASS_LVL_k.WARN, .rws, [105, 45, 50, 45, 50], .none⟩,
    ⟨Reg.THM_CLASS_LVL_k.THROTTLE, .rws, [115, 50, 55, 50, 55], .none⟩,
    ⟨Reg.THM_CLASS_LVL_k.SHUT, .rws, [125, 60, 65, 60, 65], .none⟩]⟩,
  ⟨"THM_CELL_MODEL", 0x260018, 1, [⟨Reg.THM_CELL_MODEL.KCOND, .rw, [57], .none⟩,
    ⟨Reg.THM_CELL_MODEL.KSW, .rw, [66], .none⟩,
    ⟨Reg.THM_CELL_MODEL.TAU, .rw, [20], .u 1 255⟩]⟩,
  ⟨"THM_EXT_n", 0x26001C, 8, [⟨Reg.THM_EXT_n.EN, .rw, [0], .none⟩,
    ⟨Reg.THM_EXT_n.CLASS, .rw, [0], .none⟩,
    ⟨Reg.THM_EXT_n.CH, .rw, [0], .u 0 23⟩,
    ⟨Reg.THM_EXT_n.GAIN, .rw, [0], .none⟩,
    ⟨Reg.THM_EXT_n.OFFSET, .rw, [0], .none⟩]⟩,
  ⟨"THM_DIE_STATUS", 0x26003C, 1, [⟨Reg.THM_DIE_STATUS.TMAX, .ro, [0], .none⟩,
    ⟨Reg.THM_DIE_STATUS.HOTTEST, .ro, [0], .none⟩,
    ⟨Reg.THM_DIE_STATUS.LEVEL, .ro, [0], .none⟩,
    ⟨Reg.THM_DIE_STATUS.STALE, .ro, [0], .none⟩]⟩,
  ⟨"THM_SENSOR_FAULT", 0x260040, 1, [⟨Reg.THM_SENSOR_FAULT.FAULT, .ro, [0], .none⟩]⟩,
  ⟨"THM_STATUS", 0x260044, 1, [⟨Reg.THM_STATUS.WEIR_STEP, .ro, [16], .none⟩,
    ⟨Reg.THM_STATUS.THROTTLE, .ro, [0], .none⟩,
    ⟨Reg.THM_STATUS.THR_SRC, .ro, [0], .none⟩,
    ⟨Reg.THM_STATUS.CFG_ERR, .w1c, [0], .none⟩,
    ⟨Reg.THM_STATUS.HOT_CELLS, .ro, [0], .none⟩]⟩]

/-- Block 0x27 of R694. -/
def regsBlock27 : List RegRow := [
  ⟨"THM_CELL_n", 0x270000, 240, [⟨Reg.THM_CELL_n.BUDGET, .ro, [0], .none⟩,
    ⟨Reg.THM_CELL_n.CLASS, .ro, [0], .none⟩,
    ⟨Reg.THM_CELL_n.TSW_EST, .ro, [0], .none⟩]⟩]

/-- Block 0x28 of R694. -/
def regsBlock28 : List RegRow := [
  ⟨"AUX_BUS_CFG", 0x280000, 1, [⟨Reg.AUX_BUS_CFG.OV, .rw, [620], .u 100 650⟩,
    ⟨Reg.AUX_BUS_CFG.REGEN, .rw, [580], .u 100 650⟩,
    ⟨Reg.AUX_BUS_CFG.UV, .rw, [100], .u 80 600⟩]⟩,
  ⟨"AUX_BUS_STATUS", 0x280004, 1, [⟨Reg.AUX_BUS_STATUS.VAUX, .ro, [0], .none⟩,
    ⟨Reg.AUX_BUS_STATUS.VCP, .ro, [0], .none⟩,
    ⟨Reg.AUX_BUS_STATUS.UV, .ro, [0], .none⟩,
    ⟨Reg.AUX_BUS_STATUS.OV, .ro, [0], .none⟩,
    ⟨Reg.AUX_BUS_STATUS.CP_UV, .ro, [0], .none⟩,
    ⟨Reg.AUX_BUS_STATUS.REGEN, .ro, [0], .none⟩]⟩,
  ⟨"AUX_CH_CFG_m", 0x280008, 2, [⟨Reg.AUX_CH_CFG_m.EN, .rw, [0], .none⟩,
    ⟨Reg.AUX_CH_CFG_m.SRC, .rw, [0], .u 0 2⟩,
    ⟨Reg.AUX_CH_CFG_m.ST_MODE, .rw, [0], .none⟩,
    ⟨Reg.AUX_CH_CFG_m.SIXSTEP, .rw, [0], .none⟩,
    ⟨Reg.AUX_CH_CFG_m.DT, .rw, [100], .u 10 255⟩,
    ⟨Reg.AUX_CH_CFG_m.PWM_KHZ, .rw, [20], .u 8 50⟩,
    ⟨Reg.AUX_CH_CFG_m.SAMP_MIN, .rw, [4], .u 1 15⟩,
    ⟨Reg.AUX_CH_CFG_m.SKIP_MAX, .rw, [16], .u 1 31⟩]⟩,
  ⟨"AUX_MOTOR_m", 0x280010, 2, [⟨Reg.AUX_MOTOR_m.RS, .rw, [100], .u 1 4095⟩,
    ⟨Reg.AUX_MOTOR_m.LS, .rw, [200], .u 1 4095⟩,
    ⟨Reg.AUX_MOTOR_m.POLES, .rw, [4], .u 1 15⟩]⟩,
  ⟨"AUX_MOTOR2_m", 0x280018, 2, [⟨Reg.AUX_MOTOR2_m.KE, .rw, [0], .none⟩,
    ⟨Reg.AUX_MOTOR2_m.KE_TOL, .rw, [15], .u 5 50⟩,
    ⟨Reg.AUX_MOTOR2_m.IMAX, .rw, [40], .u 1 255⟩]⟩,
  ⟨"AUX_RAMP_m", 0x280020, 2, [⟨Reg.AUX_RAMP_m.SPD_MAX, .rw, [300], .u 1 4095⟩,
    ⟨Reg.AUX_RAMP_m.SPD_MIN, .rw, [60], .none⟩,
    ⟨Reg.AUX_RAMP_m.SLEEP_SPD, .rw, [0], .u 0 100⟩]⟩,
  ⟨"AUX_ACC_m", 0x280028, 2, [⟨Reg.AUX_ACC_m.ACC, .rw, [50], .u 1 4095⟩,
    ⟨Reg.AUX_ACC_m.DEC, .rw, [30], .u 1 4095⟩,
    ⟨Reg.AUX_ACC_m.CUR_BW, .rw, [10], .u 1 50⟩]⟩,
  ⟨"AUX_START_m", 0x280030, 2, [⟨Reg.AUX_START_m.ALIGN_I, .rw, [50], .u 1 100⟩,
    ⟨Reg.AUX_START_m.ALIGN_MS, .rw, [20], .u 1 255⟩,
    ⟨Reg.AUX_START_m.RAMP_I, .rw, [60], .u 1 100⟩,
    ⟨Reg.AUX_START_m.HANDOVER, .rw, [10], .u 2 50⟩]⟩,
  ⟨"AUX_LOOP_m", 0x280038, 2, [⟨Reg.AUX_LOOP_m.SPD_KP, .rw, [10], .none⟩,
    ⟨Reg.AUX_LOOP_m.SPD_KI, .rw, [50], .none⟩]⟩,
  ⟨"AUX_CTRL_m", 0x280040, 2, [⟨Reg.AUX_CTRL_m.START, .wo, [0], .none⟩,
    ⟨Reg.AUX_CTRL_m.STOP, .wo, [0], .none⟩,
    ⟨Reg.AUX_CTRL_m.DIAG, .wo, [0], .none⟩,
    ⟨Reg.AUX_CTRL_m.SPEED, .rw, [0], .none⟩]⟩,
  ⟨"AUX_STATUS_m", 0x280048, 2, [⟨Reg.AUX_STATUS_m.STATE, .ro, [0], .none⟩,
    ⟨Reg.AUX_STATUS_m.CODE, .ro, [0], .none⟩,
    ⟨Reg.AUX_STATUS_m.DIAG, .ro, [0], .none⟩,
    ⟨Reg.AUX_STATUS_m.HOLD, .ro, [0], .none⟩,
    ⟨Reg.AUX_STATUS_m.CAP, .ro, [0], .none⟩,
    ⟨Reg.AUX_STATUS_m.SPEED, .ro, [0], .none⟩]⟩,
  ⟨"AUX_KE_m", 0x280050, 2, [⟨Reg.AUX_KE_m.KE_MEAS, .ro, [0], .none⟩,
    ⟨Reg.AUX_KE_m.SKIPS, .rc, [0], .none⟩]⟩]

/-- Every block of R694, by number: block b occupies 64 KiB at BAR2 offset b × 0x1_0000 (R692). -/
def regBlocks : List (List RegRow) := [regsBlock00, regsBlock01, regsBlock02, regsBlock03, regsBlock04, regsBlock05, regsBlock06, regsBlock07, regsBlock08, regsBlock09, regsBlock0A, regsBlock0B, regsBlock0C, regsBlock0D, regsBlock0E, regsBlock0F, regsBlock10, regsBlock11, regsBlock12, regsBlock13, regsBlock14, regsBlock15, regsBlock16, regsBlock17, regsBlock18, regsBlock19, regsBlock1A, regsBlock1B, regsBlock1C, regsBlock1D, regsBlock1E, regsBlock1F, regsBlock20, regsBlock21, regsBlock22, regsBlock23, regsBlock24, regsBlock25, regsBlock26, regsBlock27, regsBlock28]

end Sys2Proof.Machine
end

