-- ==== Sys2Proof/Machine/Bits.lean ====
section
/-! DEFINITION. Bit fields, two's complement, byte order (R13), sparse tables, CRCs and integer helpers. -/
namespace Sys2Proof.Machine

/-! ### Sparse tables -/

/-- What key `k` of the table reads as; `d` says what an unlisted key reads as. -/
def tget {α : Type} (d : Nat → α) : Tab α → Nat → α
  | [], k => d k
  | (a, v) :: t, k => if a = k then v else tget d t k

/-- The table without key `k`. -/
def tdel {α : Type} : Tab α → Nat → Tab α
  | [], _ => []
  | (a, v) :: t, k => if a = k then tdel t k else (a, v) :: tdel t k

/-- The table with entry `(k, v)`, keys kept rising. -/
def tins {α : Type} : Tab α → Nat → α → Tab α
  | [], k, x => [(k, x)]
  | (a, v) :: t, k, x =>
    if a = k then (k, x) :: t else if k < a then (k, x) :: (a, v) :: t else (a, v) :: tins t k x

/-- Write `x` at key `k`: writing what an unlisted key reads as removes the entry (canonical form). -/
def tput {α : Type} [DecidableEq α] (d : Nat → α) (t : Tab α) (k : Nat) (x : α) : Tab α :=
  if x = d k then tdel t k else tins t k x

/-- Every key of the table is above `k`. -/
def tabove {α : Type} (k : Nat) : Tab α → Bool
  | [] => true
  | (a, _) :: t => decide (k < a) && tabove k t

/-- The canonical form: strictly rising keys, no entry equal to what an unlisted key reads as. -/
def twf {α : Type} [DecidableEq α] (d : Nat → α) : Tab α → Bool
  | [] => true
  | (a, v) :: t => tabove a t && decide (v ≠ d a) && twf d t

/-! ### Register fields -/

/-- The key of entry `i` of a field in the register table: bit address of its lowest bit. -/
def Fld.key (f : Fld) (i : Nat) : Nat := (f.base + 4 * i) * 32 + f.lo

/-- The key of the active copy of a shadowed register's field: the same offset + 0x8000 (R699). -/
def Fld.actKey (f : Fld) (i : Nat) : Nat := (f.base + 0x8000 + 4 * i) * 32 + f.lo

/-- The Reset column entry of entry `i`. -/
def FieldRow.reset (r : FieldRow) (i : Nat) : Nat :=
  match r.rst with
  | [v] => v
  | l => l.getD i 0

/-- The register family of a block that holds offset `off`. -/
def findReg (off : Nat) : List RegRow → Option RegRow
  | [] => none
  | r :: t => if r.base ≤ off ∧ off < r.base + 4 * r.count then some r else findReg off t

/-- The register family at BAR2 offset `off` (R692, R693). -/
def regAt (off : Nat) : Option RegRow :=
  match regBlocks[off / 0x10000]? with
  | some b => findReg off b
  | none => none

/-- The field of a register whose lowest bit is `lo`. -/
def findField (lo : Nat) : List FieldRow → Option FieldRow
  | [] => none
  | r :: t => if r.f.lo = lo then some r else findField lo t

/-- What an unlisted key of the register table reads as: the Reset column (R18); an active copy resets as its
shadow (R699). -/
def regDefault (k : Nat) : Nat :=
  let off := k / 32
  let off := if 0x8000 ≤ off % 0x10000 then off - 0x8000 else off
  match regAt off with
  | some r =>
    match findField (k % 32) r.fields with
    | some f => f.reset ((off - r.base) / 4)
    | none => 0
  | none => 0

/-- Bits `lo` to `lo + w - 1` of a word. -/
def bits (v lo w : Nat) : Nat := (v / 2 ^ lo) % 2 ^ w

/-- Bit `i` of a word. -/
def bitOf (v i : Nat) : Bool := v / 2 ^ i % 2 == 1

/-- A word with bit `i` set. -/
def setBit (v i : Nat) : Nat := if bitOf v i then v else v + 2 ^ i

/-- A word with bit `i` cleared. -/
def clrBit (v i : Nat) : Nat := if bitOf v i then v - 2 ^ i else v

/-- 1 for true. -/
def b2n (b : Bool) : Nat := if b then 1 else 0

/-- The number a `w`-bit field holds in two's complement. -/
def sgn (w v : Nat) : Int := if v % 2 ^ w < 2 ^ (w - 1) then (v % 2 ^ w : Nat) else ((v % 2 ^ w : Nat) : Int) - (2 ^ w : Nat)

/-- The `w`-bit two's complement field of a number. -/
def unsg (w : Nat) (x : Int) : Nat := (x % ((2 ^ w : Nat) : Int)).toNat

/-- Saturation at `m`. -/
def satAdd (m v k : Nat) : Nat := min m (v + k)

/-- A number clamped to a range. -/
def clampI (lo hi x : Int) : Int := max lo (min hi x)

/-- A rational clamped to a range. -/
def clampR (lo hi x : Rat) : Rat := max lo (min hi x)

/-- Absolute value of a rational. -/
def absR (x : Rat) : Rat := if x < 0 then -x else x

/-- Absolute value of an integer, as an integer. -/
def absI (x : Int) : Int := if x < 0 then -x else x

/-- Nearest integer, halves away from zero. -/
def roundR (x : Rat) : Int := if x < 0 then -((-x + 1 / 2).floor) else (x + 1 / 2).floor

/-- The sum of a list of rationals. -/
def sumR (l : List Rat) : Rat := l.foldl (· + ·) 0

/-! ### Bytes (little-endian, R13) -/

/-- `n` bytes of a number, least significant first. -/
def leBytes : Nat → Nat → List Byte
  | 0, _ => []
  | n + 1, v => BitVec.ofNat 8 (v % 256) :: leBytes n (v / 256)

/-- The number that bytes spell, least significant first. -/
def ofBytes : List Byte → Nat
  | [] => 0
  | b :: t => b.toNat + 256 * ofBytes t

/-- One byte into a reflected CRC with `w`-bit register and reversed polynomial `p`. -/
def crcStepRefl (p : Nat) : Nat → Nat → Nat
  | 0, c => c
  | n + 1, c => crcStepRefl p n (if c % 2 = 1 then Nat.xor (c / 2) p else c / 2)

/-- A list of bytes into a reflected CRC. -/
def crcRefl (p : Nat) : List Byte → Nat → Nat
  | [], c => c
  | b :: t, c => crcRefl p t (crcStepRefl p 8 (Nat.xor c b.toNat))

/-- CRC-32C with the parameters of R265: initial and final XOR 0xFFFF_FFFF, reflected. -/
def crc32c (l : List Byte) : Nat := Nat.xor (crcRefl 0x82F63B78 l 0xFFFFFFFF) 0xFFFFFFFF

/-- Memory bytes from address `a` on. -/
def memBytes (m : Tab Byte) (a : Nat) : Nat → List Byte
  | 0 => []
  | n + 1 => tget (fun _ => 0) m a :: memBytes m (a + 1) n

/-- Store bytes from address `a` on. -/
def memStore (m : Tab Byte) (a : Nat) : List Byte → Tab Byte
  | [] => m
  | b :: t => memStore (tput (fun _ => 0) m a b) (a + 1) t

/-- A byte store is in canonical form: what an unlisted address reads as is 0 (log entry 3). -/
abbrev Memory.wf (m : Tab Byte) : Prop := twf (fun _ => (0 : Byte)) m = true

end Sys2Proof.Machine
end

