-- ==== Sys2Proof/Machine/State.lean ====
section
/-! DEFINITION. The state of the device: plain data, block by block. Register fields are in `regs` (Machine/Regs.lean
names them); what the spec gives the machine beside its registers is in the structures below. -/
namespace Sys2Proof.Machine

/-! ### Things that leave the device -/

/-- A payload field of a record or completion: offset, width in bytes, value (R507, R520). -/
abbrev Pay := Nat × Nat × Int

/-- An event record (R518): type, sequence, tick, elapsed time, CAL_PENDING, payload; `more` holds the bytes of the
160-byte METER_RECORD. -/
structure Event where
  ty : Nat
  seqNo : Nat
  tick : Int
  elapsed : Nat
  cal : Bool
  pay : List Pay
  more : List Byte
  deriving DecidableEq, Repr

/-- A completion entry (R507) and the COMPLETION ring it goes to. -/
structure Completion where
  cring : Nat
  opcode : Nat
  status : Nat
  ring : Nat
  tag : Nat
  index : Nat
  detail : Nat
  tick : Int
  elapsed : Nat
  result : List Pay
  epoch : Nat
  deriving DecidableEq, Repr

/-- The identity of a started descriptor, kept until its completion. -/
structure Desc where
  ring : Nat
  cring : Nat
  index : Nat
  opcode : Nat
  tag : Nat
  epoch : Nat
  deriving DecidableEq, Repr

/-- A cell's command slot (R268). -/
structure Cmd where
  valid : Bool
  release : Bool
  spill : Bool
  start : Int
  edge : Option (Int × Nat)
  delayP : Int
  delayS : Int
  portA : Int
  portB : Int
  portC : Int
  auxWord : Nat
  auxKind : Nat
  auxSeq : Nat
  deriving DecidableEq, Repr

/-- The kinds of frame (R266). -/
inductive FrameKind where
  | normal | repeated | hold | wadi
  deriving DecidableEq, Repr

/-- What the device puts on its pins, rings, links and host bus, in order. -/
inductive Out where
  /-- One 64-byte entry of a COMPLETION ring, written at a physical address (R507). -/
  | completion (phys : Nat) (data : List Byte)
  /-- One 64-byte entry of an event record, written at a physical address (R518). -/
  | event (phys : Nat) (data : List Byte)
  /-- Bytes into host memory. -/
  | hostWrite (phys : Nat) (data : List Byte)
  /-- A read request to host memory. -/
  | hostRead (phys : Nat) (len : Nat)
  /-- The value a read of a register returned to its reader (R14, R697). -/
  | readData (ag : Agent) (off value : Nat)
  /-- An MSI-X message (R521). -/
  | msix (vector : Nat)
  /-- Code groups on the transmitter of one loop of a ring: ordered sets and frames (R259, R262). -/
  | link (ring loop : Nat) (codes : List Code)
  /-- A safe-message frame on one network, from its destination address to its FCS (R432 to R434). -/
  | safeMessage (net : Nat) (data : List Byte)
  /-- TRIP_OUT_N changes: asserted, which is low, while the safe state is in force (R395). -/
  | tripOut (asserted : Bool)
  /-- BRK_TRIP_A and BRK_TRIP_B as they now read (R394, R409, R679). -/
  | brkTrip (a b : Bool)
  /-- SAFE_TPA or SAFE_TPB is pulsed low for 50 µs (R426). -/
  | safePulse (chB : Bool)
  /-- A motor channel's switches are turned off through the normal sink (R396). -/
  | driveOff (channel : Nat)
  /-- One leg of a motor channel is turned off through the normal sink (R405). -/
  | driveLegOff (channel leg : Nat)
  /-- A leg of a motor channel goes to soft turn-off (R405). -/
  | driveSoft (channel leg : Nat)
  /-- AUX_HOLDm turns on or off (R588). -/
  | auxHold (channel : Nat) (on : Bool)
  /-- The motor channel's phase voltage references (R594, R595), in the model's exact numbers, and per switch the ns from the
complementary switch's turn-off command to its own turn-on (R589). -/
  | drivePwm (channel : Nat) (vd vq : Rat) (turnOn : List Nat)
  /-- The debugger sees a session reset (R479). -/
  | sessionReset
  /-- A journal or snapshot entry of the cistern (R554, R555). -/
  | journal (kind : Nat) (seqNo : Nat)
  deriving DecidableEq, Repr

/-! ### Time base and tick (01, 17) -/

/-- One value for each agent that may read registers (R697). -/
structure PerAgent (α : Type) where
  host : α
  firmware : α
  debugger : α
  deriving DecidableEq, Repr

/-- The tick and its pipeline (R24 to R45, R624, R625). Times are in ns of E. -/
structure TickSt where
  /-- E, the elapsed-time counter (R624). -/
  e : Nat
  /-- O, the alignment offset (R625), with the part of a slew below 1 ns. -/
  o : Rat
  /-- Whether tick boundaries run (from B3; not in sleep; R617, R640). -/
  run : Bool
  /-- E at the start of the present tick. -/
  start : Nat
  /-- N, the number of the present tick (R625). -/
  n : Int
  /-- The tick period in force, in 0.5 µs units (R26). -/
  half : Nat
  /-- Deadlines passed in this tick: 0 none, k means S0 to S(k-1). -/
  phase : Nat
  /-- The TICK or MIGRATE entry is running (R461). -/
  s1run : Bool
  /-- tend has executed in this tick. -/
  tended : Bool
  /-- A stage of this tick overran (R36). -/
  overran : Bool
  /-- The rest of S0 to S3 of this tick is abandoned (R37). -/
  abandoned : Bool
  /-- An overrun was detected since the previous launch (R38). -/
  launchOver : Bool
  /-- The previous overrun was answered by a REPEAT frame (R38). -/
  repeated : Bool
  /-- Ticks elapsed since the last completed S1 (R37). -/
  missed : Nat
  /-- Evaluation has broken off since then (R704). -/
  broke : Bool
  /-- Consecutive ticks in which stage S0, S1, S2, S3 used more than HEADROOM % (R44). -/
  headroom : List Nat
  /-- Work counted for the six stages in this tick (R33). -/
  used : List Nat
  /-- A frame's last code group had not left by the S4 deadline: S4 overruns, as the S5 deadline finds (R36, R279). -/
  late4 : Bool
  /-- A lower MAX_LEVEL waits for the next boundary (R44). -/
  shedClamp : Bool
  /-- E since when no shed trigger has held and the die has been at or below 95 °C (R44). -/
  shedCalm : Option Nat
  /-- Suspension of diagnostic slices: start of the present one, and finished ones (start, end) (R42). -/
  diagFrom : Option Nat
  diagPast : List (Nat × Nat)
  /-- The accepted new period waiting for its boundary, in 0.5 µs (R26). -/
  newHalf : Option Nat
  /-- The latched upper halves of CLK_ELAPSED and CLK_ALIGN_OFS: host, firmware, debugger (R697). -/
  latE : PerAgent Nat
  latO : PerAgent Nat
  /-- E at which a change that waits for a tick boundary was asked for, by the BAR2 offset of the register that asked
  (R44, R102, R136, R176, R217, R243). -/
  asked : Tab Nat
  /-- THM_STATUS.WEIR_STEP as it stood at this tick's boundary (R66, R129). -/
  weir : Nat
  /-- CTL_MANUAL, VD and VQ in 0.0001 p.u., and SYNC_MODE.SP_RATE as S1 read them at its start (R115). -/
  manual : Int × Int
  spRate : Nat
  /-- EXEC_TICK of the tick frames last launched (R266, R279). -/
  sent : Int
  deriving DecidableEq, Repr

/-- References, loops and the sync pulse (R615 to R630). -/
structure ClkSt where
  /-- Per source XTAL, REF_A, REF_B: E since when it has been enabled, valid and not out-voted (R617). -/
  qual : List (Option Nat)
  /-- E since when a LOST source has shown uninterrupted edges (R615). -/
  edges : List (Option Nat)
  /-- E since when an out-voted source has agreed with both others (R616). -/
  agree : List (Option Nat)
  /-- The power-on move has been made (R617). -/
  moved : Bool
  /-- The selection move waiting for its boundary (R617). -/
  moveTo : Option Nat
  /-- E since when the largest pair difference has been within WINDOW while coasting (R619). -/
  calm : Option Nat
  /-- Largest pair difference of the last update, in 0.001 ppm. -/
  diff : Nat
  /-- The condition of REF_SUSPECT holds (R619, R657). -/
  suspect : Bool
  /-- Divider values waiting for their boundary (R621). -/
  divPend : Option (List (Nat × Nat))
  /-- Seeds waiting for the next divider update (R622). -/
  seedPend : List (Option Nat)
  /-- The dither registers (R622). -/
  lfsr : List Nat
  /-- The crystal's compensation of R587, in ppb, before CLK_XTAL_TRIM. -/
  comp : Int
  /-- S at the last edge (R629). -/
  lastS : Option Int
  eprev : Int
  cons : Nat
  /-- Slew in ns of O per ns of E, and the amount left of a step's residue (R629). -/
  slew : Rat
  slewLeft : Option Rat
  /-- The step waiting for its boundary: e (R629). -/
  stepPend : Option Int
  /-- Consecutive missing edges (R630). -/
  missRun : Nat
  deriving DecidableEq, Repr

/-- Power, bring-up, oasis domain, life cycle (R631 to R652). -/
structure PwrSt where
  /-- Main rails in range and RESET_N level. -/
  railsOk : Bool
  resetN : Bool
  /-- The main die is out of reset. -/
  mainOn : Bool
  /-- The next start follows a rail reset (R632). -/
  railReset : Bool
  /-- Power-fail sequence: E of PF_WARN, snapshot frozen (R560). -/
  pfAt : Option Nat
  pfFrozen : Bool
  /-- A power-fail snapshot committed (R632). -/
  pfDone : Bool
  /-- Sleep asked for, waiting for its boundary (R640); E of the last wake until B4 is passed again. -/
  sleepPend : Bool
  waking : Bool
  /-- The tick restarts at the next boundary after a wake (R641). -/
  wakePend : Bool
  /-- Shutdown in progress; its snapshot committed (R647). -/
  shutdown : Bool
  /-- PERSIST in progress since (R638). -/
  persistAt : Option Nat
  /-- The triad restart holds the stage at B2 until tready (R635). -/
  restart : Bool
  /-- tready has been executed (R461). -/
  tready : Bool
  /-- An essential block failed its BIST (R649). -/
  essentialFail : Bool
  /-- B2's conditions failed; the device stays at B2 in the safe state (R635, R637). -/
  bootFail : Bool
  flash : Flash
  /-- The fused firmware-key hash (R651). -/
  fused : Option Nat
  /-- The random generator's state has been erased (R652). -/
  rngErased : Bool
  /-- Oasis domain: alive, VDDIO_33 present, ticks of the outage, outage seconds. -/
  oasis : Bool
  vddio : Bool
  /-- The main supply, VDDIO_33 and VDD_CORE, was present at the last oasis tick (R564, R643). -/
  supply : Bool
  outMs : Nat
  outSec : Nat
  /-- E of the last oscillator trim and the trim, in ppm (R643). -/
  trimAt : Nat
  oscTrim : Int
  /-- Rectified KA_CT current summed over the outage's oasis ticks, in mA·ms (R564). -/
  ctSum : Nat
  deriving DecidableEq, Repr

/-! ### Host interface (14) -/

/-- What an outstanding host-memory access of the walker is for (R514). -/
inductive JobKind where
  | furrow (d : Desc) (cell kind len addr : Nat)
  | fwStage (d : Desc) (offset len : Nat) (last differ : Bool) (addr : Nat)
  | nodeFw (d : Desc) (cell len addr : Nat)
  | journalRead (d : Desc) (first count addr : Nat)
  | buffer (d : Desc) (len addr : Nat)
  | entry (ring : Nat)
  | fetch (ring : Nat)
  deriving DecidableEq, Repr

/-- What the walker has asked host memory for. -/
inductive JobPhase where
  | level1 | level2 (e1 : Nat) | data
  deriving DecidableEq, Repr

/-- A translation (R513, R516): device page, physical page, permissions, level of the entry that ended the walk. -/
structure Trans where
  page : Nat
  phys : Nat
  rd : Bool
  wr : Bool
  level : Nat
  deriving DecidableEq, Repr

/-- An access in translation (R514): pages left to walk, pages found, the answer it waits for, and when that read
times out. -/
structure Job where
  id : Nat
  kind : JobKind
  todo : List Nat
  found : List Trans
  phase : JobPhase
  due : Nat
  /-- Data bytes read so far; in the data phase of a read `todo` holds the pages still to read (R512). -/
  got : List Byte
  deriving DecidableEq, Repr

/-- A descriptor that takes effect in the tick after its agreement, behind those of its ring that wait for that tick
(R505, R509). -/
inductive Wait where
  | hostTime (d : Desc) (wall : Nat)
  | capture (d : Desc) (queues : Nat)
  | release (d : Desc)
  deriving DecidableEq, Repr

/-- A host buffer named by a BUFFER descriptor and not completed (R505, R359). -/
structure Buf where
  d : Desc
  addr : Nat
  len : Nat
  filled : Nat
  queue : Nat
  trunc : Bool
  closed : Bool
  loss : Bool
  firstAt : Option Nat
  /-- The translations found when it was accepted. -/
  pages : List Trans
  deriving DecidableEq, Repr

/-- Host interface state beside the HOST_ and RING_ registers. -/
structure HostSt where
  /-- The host's counter of each ring: producer of COMMAND and BULK, consumer of COMPLETION and EVENT (R499). -/
  ctr : Tab Nat
  /-- Function-level resets so far; completions of an earlier epoch are discarded (R523). -/
  epoch : Nat
  /-- Completions finished and not yet written, in order (R509, R511). -/
  comps : List Completion
  /-- Completions that wait for the tend of the TICK entry now running, and of the one that starts next (R510). -/
  atTend : List Completion
  atNext : List Completion
  /-- Descriptors that wait for their tick, in order of their start (R505, R509). -/
  waits : List Wait
  /-- Descriptors that a triad restart ended: they complete after it (R523). -/
  aborted : List Desc
  /-- Records buffered per EVENT ring (R519). -/
  evq : Tab (List Event)
  /-- Records dropped per EVENT ring: count and first SEQ (R519). -/
  lost : Tab (Nat × Nat)
  /-- The next record sequence (R518). -/
  seqNo : Nat
  jobs : List Job
  nextJob : Nat
  cache : List Trans
  /-- The invalidation in progress: all, or one page (R516). -/
  inv : Option (Option Nat)
  /-- Entries written since the last message, and E of the first of them (R521). -/
  unsig : Tab Nat
  unsigAt : Tab Nat
  /-- D3hot (R495). -/
  d3 : Bool
  /-- The device's own BARs in configuration space: base and size (R515). -/
  bars : List (Nat × Nat)
  /-- The latest HOST_TIME pair: WALL, ELAPSED (R506). -/
  wall : Option (Nat × Nat)
  bufs : List Buf
  /-- Per COMMAND ring: the lowest counter whose descriptor has no written completion, and later ones that have
  (R558). -/
  doneCtr : Tab (Nat × List Nat)
  deriving DecidableEq, Repr

/-! ### Control triad (13) -/

/-- A write of the TICK or MIGRATE entry that waits for tend (R469). -/
inductive TbItem where
  | fld (f : Fld) (i v : Nat)
  | inc (f : Fld) (i : Nat)
  | reg (off val be : Nat)
  | ev (ty : Nat) (pay : List Pay)
  | comp (c : Completion)
  deriving DecidableEq, Repr

/-- A register bank of a core (R460): general registers g0 to g31, accumulators, program counter, status word. -/
structure CoreBank where
  g : List Nat
  acc : List Nat
  pc : Nat
  status : Nat
  deriving DecidableEq, Repr

/-- Triad state beside the TRI_ registers. -/
structure TriSt where
  /-- The tick-bound queue, oldest first, and how many of its writes came through the write port (R469). -/
  tb : List TbItem
  tbN : Nat
  /-- Program banks 0 and 1, by byte offset, and data TCM and shared SRAM, by core address (R459). -/
  bank0 : Tab Byte
  bank1 : Tab Byte
  ram : Tab Byte
  /-- The tick-state region as the TICK entry sees it, and as it was when the entry began (R463), by core address. -/
  region : Tab Byte
  regionC : Tab Byte
  /-- Whether the active bank holds a checked image (R493). -/
  imageOk : Bool
  /-- Times of the fencings of members A, B, C (R473). -/
  fences : List (List Nat)
  fencedAt : Nat
  /-- E from which the present rebuild step runs (R472). -/
  stepAt : Nat
  /-- The TICK entry interrupted by a debug halt runs on with its writes dropped (R479). -/
  dropTick : Bool
  /-- Tick boundaries since the halt (R412). -/
  haltTicks : Nat
  /-- The present tick is a swap tick; the banks flip back at the next boundary (R481, R482). -/
  swapTick : Bool
  revert : Bool
  /-- The FW_SWAP descriptor waiting for its outcome, the FW_STAGE in progress. -/
  swapDesc : List Desc
  /-- A last part staged during RESYNC, to be checked after the rejoin (R484): its descriptor, and whether the banks
  differ. -/
  stagePend : Option (Desc × Bool)
  /-- BACKGROUND has not begun since the image was loaded or swapped in (R461, R481). -/
  bgDropped : Bool
  /-- The members' own CRC instances, equal in lock-step: POLY and running value (R445). -/
  crcPoly : Nat
  crcVal : Nat
  /-- The tick and background register banks of the members, equal in lock-step (R460, R461). -/
  tickBank : CoreBank
  backBank : CoreBank
  /-- The 8 instruction breakpoints and 4 data watchpoints, as the debugger wrote them (R478). -/
  points : List Nat
  deriving DecidableEq, Repr

/-! ### Sluice fabric and safety (11, 12) -/

/-- Sluice fabric state beside the SLC_ and CMP_ registers. -/
structure SlcSt where
  /-- Latch bits that belong to the scope in force (R408). -/
  causes : Nat
  /-- Bits of SLC_TRIP_LATCH latched in the 4 ns period of the last latched bit (R407). -/
  periodBits : Nat
  /-- E of the last latched bit, of the SLC_FIRST period, of the assertion of the breaker outputs. -/
  lastLatch : Nat
  firstAt : Nat
  brkAt : Nat
  /-- Cell-loss events of R398: time and cell, newest first. -/
  losses : List (Nat × Nat)
  /-- Accepted releases waiting for the frames that carry it (R408). -/
  release : List Desc
  /-- Phases whose block came from a scheduled source and waits for the boundary (R394). -/
  blkPend : List Bool
  /-- Comparator outputs (bit n live) and E at which a blanking window closes (R401). -/
  live : Nat
  blankEnd : Tab Nat
  /-- E until which TRIP_IN_N is low. -/
  tripIn : Nat
  /-- The die or converter shutdown temperature holds (R394). -/
  thermShut : Bool
  /-- E at which the soft turn-off of a motor channel ends (R405, R406). -/
  softEnd : List Nat
  deriving DecidableEq, Repr

/-- One dual-channel safety input (R423 to R431). -/
structure SafeIn where
  /-- Filtered demand of channels A and B, and E since which each has it. -/
  a : Bool
  b : Bool
  aAt : Nat
  bAt : Nat
  /-- A discrepancy counts as demand until a clean demand and release (R425). -/
  disc : Bool
  discDemand : Bool
  /-- Proof sequence: 0 waiting, 1 both demanded, 2 held 100 ms, 3 done (R430). -/
  proof : Nat
  bothAt : Nat
  /-- Consecutive missed pulses of channels A and B (R426). -/
  missA : Nat
  missB : Nat
  /-- Both channels have come to demand within DISC of each other, and have not yet come back apart (R425). -/
  pair : Bool
  deriving DecidableEq, Repr

/-- Safe-message engine (R432 to R436). -/
structure SafeSt where
  inputs : List SafeIn
  /-- E of the last pulses of SAFE_TPA and of SAFE_TPB, newest first (R426). -/
  tpA : List Nat
  tpB : List Nat
  /-- A stop of a safety input, and of the safe messages, has become known since the last S1 (R438). -/
  knownIn : Bool
  knownNet : Bool
  /-- The networks that have brought the last accepted message, as a mask (R435). -/
  seen : Nat
  /-- Our sequence, the last accepted sequence, whether the next first message may carry any SEQ. -/
  txSeq : Nat
  lastSeq : Nat
  anySeq : Bool
  /-- The first copy of a message: network, arrival, content (R435). -/
  first : Option (Nat × Nat × Pdu)
  /-- Consecutive missing and valid copies of networks A and B. -/
  missRun : List Nat
  goodRun : List Nat
  /-- The last accepted message, E of it, and consecutive accepted messages. -/
  accepted : Option Pdu
  acceptedAt : Nat
  accRun : Nat
  /-- The watchdog of R436 has expired since the last accepted message. -/
  expired : Bool
  /-- E of the last status message (R434). -/
  txAt : Nat
  /-- The last write to the parameter set is being folded into SAFE_CV (R439). -/
  cvAt : Nat
  deriving DecidableEq, Repr

/-! ### Onhorn link (08) -/

/-- One ring (R259 to R296). -/
structure RingSt where
  /-- The state before FAILED (R283). -/
  before : Nat
  /-- Consecutive good unwrapped returns, and consecutive ticks without a good copy, of each loop (R282). -/
  good : List Nat
  bad : List Nat
  /-- In this tick: a good unwrapped copy, a good copy, HOP and round trip (0.25 ns) of each loop's unwrapped copy. -/
  gotClean : List Bool
  gotAny : List Bool
  hop : List Nat
  trip : List Nat
  /-- Join requests waiting: cells in order; and the cell granted in the next header (R292). -/
  jrs : List (Int × Nat)
  /-- The last /TR/ acted on of each position and loop, by 2 × position + loop: cause and E (R285). -/
  lastTr : Tab (Nat × Nat)
  /-- Rings in wadi mode: E since WADI, E of the last wadi frame; E of the first /WK/ (R294 to R296). -/
  wadiAt : Nat
  wadiTx : Nat
  wkAt : Nat
  /-- E at which the ring last came to full rate: tick frames start at the next boundary (R295). -/
  fullAt : Nat
  deriving DecidableEq, Repr

/-- A device-to-node AUX message in progress and a reply being received (R271, R324). -/
structure AuxSt where
  /-- Messages waiting, oldest first; the one being sent; the next word of it; words acknowledged. -/
  queue : List (List Nat)
  cur : List Nat
  next : Nat
  acked : Nat
  /-- Sequence of the first word of the present message. -/
  base : Nat
  /-- Ticks without acknowledgement progress. -/
  stall : Nat
  /-- Reply words received in order. -/
  rx : List Nat
  rxSeq : Nat
  /-- The type of the present message (R325). -/
  wait : Nat
  /-- Bad checks in a row (R326). -/
  bad : Nat
  /-- The check of the present message has been reported good; the acknowledgement has moved in this frame interval (R271). -/
  good : Bool
  moved : Bool
  /-- A reply word has come in that no control word has acknowledged since (R271). -/
  ack : Bool
  deriving DecidableEq, Repr

/-- The link side of a cell (R290 to R293) and its telemetry. -/
structure CellLink where
  tel : Slot
  /-- The telemetry before this tick's first copy; it stands again when S5 does not take the slot in (R36, R100). -/
  old : Slot
  /-- Rank of the copy taken in this tick: 0 primary, 1 secondary, 2 folded, 3 none (R279). -/
  rank : Nat
  /-- Whether telemetry came in the last completed intake, and consecutive ticks without (R290). -/
  fresh : Bool
  missing : Nat
  /-- Ticks in the present link state. -/
  ticks : Nat
  /-- Reported DELTA and forwarding latencies of this tick: primary then secondary (R275). -/
  delta : List (Option Int)
  fwd : List Nat
  /-- The last 64 accepted A_p and B_p in 0.25 ns (R275). -/
  delayA : List Int
  delayB : List Int
  lastErr : List Nat
  aux : AuxSt
  /-- Link voltage reports in 0.1 V: sum and count of the running line cycle, of all since the first telemetry, line-cycle
  boundaries since then, and the last whole cycle's average (R63). -/
  vSum : Nat
  vCnt : Nat
  vAllSum : Nat
  vAllCnt : Nat
  vEdges : Nat
  vAvg : Option Rat
  /-- The ring has come to full rate and the cell's 64 delays at that rate are not all in (R295). -/
  shift : Bool
  deriving DecidableEq, Repr

/-- The service side of a cell: removal, join, block (R307 to R335, R391, R410). -/
structure CellSvc where
  /-- A recorded trip waiting for its decision: cause, or 0xFF for telemetry (R313). -/
  trip : Option Nat
  /-- E of the same-tick rule's event, so a cell counts once. -/
  counted : Bool
  /-- The cell is blocked (R287); a cell block is in force on it (R391). -/
  blk : Bool
  cellBlk : Bool
  /-- Scheduler weight 0 to 256, tick of the ramp, weight the ramp started from, RAMP_MS at its start (R331, R337). -/
  weight : Nat
  rampN : Nat
  rampFrom : Nat
  rampMs : Nat
  /-- How long the checks of VERIFY have all held, in ns (R327). -/
  verifyOk : Nat
  /-- The running step of a join: E from which its time runs, ns used before (R327, R328); consecutive ticks at V_lo
  (R330). -/
  preAt : Nat
  preUsed : Nat
  preOk : Nat
  /-- Ticks since the first SPILL = 1 command, and SPILL_FAIL sent (R312). -/
  spillTicks : Option Nat
  spillFail : Bool
  /-- Ticks since RELEASE of a FAULTED cell with RETURN (R321). -/
  retTicks : Option Nat
  /-- The configuration changed after the node received it (R59, R321). -/
  dirty : Bool
  /-- CELL_SERVICE descriptors in progress: action and descriptor; the action that waits for the tick boundary
  (R309), 0 for none. -/
  acts : List (Nat × Desc)
  todo : Nat
  /-- The furrow: images and stored serial (R323, R326). -/
  cfgImg : Option (List Byte)
  calImg : Option (List Byte)
  serial : Option Nat
  /-- RAMP_OUT reached 0; SPILL goes out in the next tick (R320). -/
  rampDone : Bool
  /-- A change of service state that waits for the next tick boundary (R309): 0 none, 1 granted, 2 link part complete,
  3 the grant lapsed, 4 the join resumes, 8 + k the join fails with FAIL code k. -/
  due : Nat
  deriving DecidableEq, Repr

/-! ### Numbers of the law -/

/-- A complex number with exact parts (R117). -/
structure Cx where
  re : Rat
  im : Rat
  deriving DecidableEq, Repr

/-- A second-order generalised integrator: in-phase and quadrature output, last input (R155). -/
structure Sogi where
  x : Rat
  q : Rat
  u : Rat
  deriving DecidableEq, Repr

/-- A sequence separator: one integrator on α and one on β (R155). -/
structure Sep where
  a : Sogi
  b : Sogi
  deriving DecidableEq, Repr

/-- The angle tracker (R155 to R162). Angles in rad, θ in [0, 2π); frequencies in rad/s and Hz; times in s. -/
structure TrackSt where
  v : Sep
  theta : Rat
  omega : Rat
  integ : Rat
  /-- v⁺ and v⁻ in αβ, p.u. -/
  vp : Cx
  vn : Cx
  coast : Bool
  locked : Bool
  /-- Angle of v⁺ minus θ at the previous tick (R159). -/
  diff : Rat
  /-- The jump of this tick in degrees; a jump was evaluated. -/
  jump : Rat
  jumped : Bool
  /-- How long the conditions of LOCKED, and of its loss, have held without a break (R157). -/
  lockFor : Option Rat
  lossFor : Option Rat
  /-- Reported frequency in Hz and its history, newest first; RoCoF in Hz/s (R161). -/
  freq : Rat
  fHist : List Rat
  rocof : Rat
  /-- |v⁺| of the last second, newest first (R170). -/
  uHist : List Rat
  umin : Rat
  umax : Rat
  /-- A line-cycle boundary is signalled in this tick (R160); θ has wrapped since the start. -/
  cycle : Bool
  /-- The tracker has been evaluated (R704). -/
  formed : Bool
  deriving DecidableEq, Repr

/-- The ride-through supervisor (R169 to R174). -/
structure SupSt where
  /-- 0 NORMAL, 1 EVENT, 2 CESSATION, 3 RECOVERY, 4 TRIPPED. -/
  state : Nat
  /-- The state held when CESSATION began. -/
  before : Nat
  /-- How long the band of R169 has held in EVENT. -/
  okFor : Option Rat
  /-- Stage timers in s, by 8 × curve + stage (R172). -/
  timers : Tab Rat
  dPre : Rat
  qPre : Rat
  uPre : Rat
  /-- d delivered in the last EVENT tick, and the approach of RECOVERY. -/
  dOut : Rat
  /-- Time since CESSATION was left, while its ramp runs (R169). -/
  restore : Option Rat
  /-- How long the enter-service window has held (R174). -/
  enterFor : Option Rat
  enterOk : Bool
  deriving DecidableEq, Repr

/-- The values one source holds for the quantities of R178, in SETPOINT units; none: not set. -/
structure Held where
  p : Option Int
  q : Option Int
  ilim : Option Nat
  plim : Option Nat
  ulo : Nat
  uhi : Nat
  deriving DecidableEq, Repr

/-- Reference sources and arbitration (R163 to R168, R177 to R180). -/
structure SrcSt where
  /-- Approached P and Q in p.u.; the seconds since P began its enter-service ramp, while it lasts (R139, R174). -/
  pApp : Rat
  qApp : Rat
  ramp : Option Rat
  /-- The volt-var filter (R164). -/
  qv : Rat
  /-- Last references after the reductions, without the probe term. -/
  refp : Cx
  refn : Cx
  gfm : Bool
  wvm : Rat
  dlt : Rat
  eOff : Rat
  /-- References still approach R163 after grid-forming (R167). -/
  back : Bool
  /-- First tick after a change to or from grid-forming. -/
  fresh : Bool
  /-- The references as the sources and the supervisor deliver them, before the trims and the limit (R127, R131). -/
  pre : Cx
  /-- The |P| limit in use, in p.u.; none: none is set (R163, R180). -/
  plim : Option Rat
  /-- Consecutive ticks in which R128 reduced grid-forming references (R166). -/
  cut : Nat
  /-- The limit on references in % of rated (R127, R129). -/
  limit : Rat
  deriving DecidableEq, Repr

/-- One resonant term (R122, R123). -/
structure ResSt where
  run : Bool
  /-- Stopped by the frequency range, not by its enable bit. -/
  out : Bool
  y1 : Cx
  y2 : Cx
  e1 : Cx
  deriving DecidableEq, Repr

/-- The notch and its history (R124, R125). -/
structure NotchSt where
  on : Bool
  x1 : Cx
  x2 : Cx
  y1 : Cx
  y2 : Cx
  deriving DecidableEq, Repr

/-- The current control engine (R118 to R139). -/
structure CurSt where
  i : Sep
  xp : Cx
  xn : Cx
  res : List ResSt
  notch : NotchSt
  manual : Bool
  /-- The approached MANUAL vector and the last output in the frame of its output angle (R133, R134). -/
  man : Cx
  outF : Cx
  overTicks : Nat
  /-- First tick after release (R118). -/
  first : Bool
  /-- The positive-sequence gains before a swap whose step in output is still to be made up (R138): KP, STEP, KP_MUL 0 to
  15. -/
  oldGain : Option (List Nat)
  /-- Outputs to the scheduler: v_p and i_p by phase, z, in V and A. -/
  v : List Rat
  z : Rat
  imid : List Rat
  deriving DecidableEq, Repr

/-- The mirage probe (R199 to R213). -/
structure MirSt where
  inject : Bool
  /-- Sums over the chip in progress: ticks, v and i. -/
  n : Nat
  sv : Cx
  si : Cx
  /-- The last completed chip: v, i, c. -/
  last : Option (Cx × Cx × Int)
  /-- The window, newest first: Δc, Δv, Δi. -/
  win : List (Int × Cx × Cx)
  pend : Nat
  z : Cx
  valid : Bool
  /-- The baseline; one written by the host waits for the next update; a valid update has come since the release
  (R210). -/
  zb : Cx
  baseNew : Bool
  seen : Bool
  frozen : Bool
  chips : Nat
  /-- Time without VALID while injecting (R205), time of RoCoF at its level (R211). -/
  badFor : Rat
  /-- This spell without VALID has been reported (R205). -/
  told : Bool
  rocofFor : Option Rat
  /-- The chip in progress did not begin with the present code: it gives no mean (R217). -/
  restart : Bool
  /-- The probe chain's separators, θ of the previous tick, and the chip whose ticks the sums hold (R361, R200, R37). -/
  sepV : Sep
  sepI : Sep
  theta : Rat
  chip : Int
  /-- AXIS, CHIPLEN and CODE_IDX of the code in force: a swap's new code follows at a chip boundary (R202, R217). -/
  code : Nat × Nat × Nat
  deriving DecidableEq, Repr

/-- A scan in progress (R234). -/
structure ScanSt where
  vpre : Rat
  ppre : Rat
  v : Rat
  best : Option (Rat × Rat)
  /-- The first tick that executes the present point. -/
  start : Int
  /-- The period at whose boundary the scan started. -/
  period : Int
  /-- Points whose last reports are still to come: the voltage, and the first and last executed tick of its mean. -/
  pts : List (Rat × Int × Int)
  /-- The last point has had its DWELL ticks. -/
  swept : Bool
  deriving DecidableEq, Repr

/-- The tracker of one PV cell (R227 to R241). -/
structure PvSt where
  vop : Rat
  /-- V_op after a step: the period from which it holds, and the value (R230). -/
  next : List (Int × Rat)
  hold : Bool
  /-- Periods whose estimate is discarded (R231, R240). -/
  bad : List Int
  grad : Rat
  pm : Rat
  /-- Last period mean without CURT (R256). -/
  pmFree : Rat
  /-- Period means of the last 60 s: E, mean, V_op (R232). -/
  means : List (Nat × Rat × Rat)
  queued : Bool
  scan : Option ScanSt
  /-- E from which the next periodic scan may come due (R232). -/
  due : Nat
  /-- Periods in which the cell reported CURT (R256). -/
  curtIn : List Int
  /-- Configuration in force since the last period boundary: TRK_EN, ROW, VMAX, VMIN. -/
  trk : Bool
  row : Nat
  vmax : Nat
  vmin : Nat
  deriving DecidableEq, Repr

/-- The tick-state region (R463): what S1 computes and R37 takes back. -/
structure Law where
  trk : TrackSt
  sup : SupSt
  src : SrcSt
  cur : CurSt
  mir : MirSt
  pv : Tab PvSt
  /-- The tracker settings in force since the last period boundary: DAMP, KG, DELAY, VSTEP, DRIFT, PMIN (R243). -/
  trkCfg : List Nat
  /-- Dither periods that contain an abandoned tick (R37). -/
  badPeriods : List Int
  /-- The last period whose estimate was made (R229). -/
  estimated : Int
  /-- The rotation origin (R82). -/
  origin : Nat
  /-- E since which PORT_SCAN_CFG.PERIOD has had its value (R232). -/
  scanFrom : Nat
  deriving DecidableEq, Repr

/-- A SETPOINT descriptor that has passed agreement and waits for S1 (R177). -/
structure SetReq where
  d : Desc
  present : Nat
  p : Int
  q : Int
  ilim : Nat
  plim : Nat
  ulo : Nat
  uhi : Nat
  eSet : Nat
  deriving DecidableEq, Repr

/-- Setpoints waiting for S1: of the host, and of the last accepted safe message (R177). -/
structure SetWait where
  host : List SetReq
  safe : Option Pdu
  /-- What the host and the safety controller hold; E_SET (R178, R165). -/
  heldHost : Held
  heldSafe : Held
  eSet : Nat
  deriving DecidableEq, Repr

/-! ### Scheduler (02, 03) -/

/-- The outcome of a decision for one phase (R73 to R94): released, u (0.1 V), s, SAT, ε (0.1 V·ns), fractional
cell, whole cells. -/
structure PhasePlan where
  released : Bool
  u : Int
  s : Int
  sat : Bool
  carry : Int
  frac : Nat
  full : Nat
  deriving DecidableEq, Repr

/-- A decision not yet committed (R86): the phases, v0 in 0.1 V when a phase is released, the empty band of R75, and the
cells it finds tripped (R313). -/
structure Plan where
  phases : List PhasePlan
  v0 : Option Int
  empty : Bool
  tripped : List Nat
  deriving DecidableEq, Repr

/-- Scheduler state beside the HGS_ registers. Voltages in 0.1 V, carries in 0.1 V·ns. -/
structure SchedSt where
  /-- ε_p (R94). -/
  carry : List Int
  /-- Targets u_p of the commands executing and of the next, SAT of the decisions behind them (R118). -/
  uCur : List Int
  uNxt : List Int
  satCur : List Bool
  satNxt : List Bool
  /-- Phase signs of the commands executing and of the next (R95). -/
  sCur : List Int
  sNxt : List Int
  /-- The kind of frame launched in this tick; the kind executing now, and in the tick before. -/
  launched : FrameKind
  exec : FrameKind
  execPrev : FrameKind
  /-- A HOLD frame was launched since the last completed S1 (R118). -/
  held : Bool
  /-- A tick was abandoned since the last completed decision (R99). -/
  broken : Bool
  /-- The decision of this tick, not yet committed at S3. -/
  plan : Option Plan
  /-- Headroom: the cells counted at its last forming, h once formed, the row waiting for its boundary, and per row
  0 to 3 E since when h has been 0.010 above its bound (R65). -/
  set : List Nat
  h : Option Rat
  rowNext : Option Nat
  upSince : List (Option Nat)
  /-- The phases that were blocked at the last decision, as the mask of R286 (R400). -/
  phOut : Nat
  deriving DecidableEq, Repr

/-- The outcome of a decision for one cell (R67 to R92): class, role, budget, accumulator, start state, edge (ns, end
state), output width in ns, SPILL of R329, transitions. -/
structure CellPlan where
  cls : Nat
  role : Nat
  budget : Int
  acc : Nat
  start : Int
  edge : Option (Int × Nat)
  w : Nat
  spill : Bool
  trans : Nat
  deriving DecidableEq, Repr

/-- The scheduler's record of one cell. -/
structure CellSch where
  /-- Weight accumulator (R87). -/
  acc : Nat
  /-- Commands executing and launched for the next tick, with output width in ns (R95). -/
  cur : Cmd
  nxt : Cmd
  wCur : Nat
  wNxt : Nat
  /-- Signed output width in ns of the tick before this one (R95). -/
  prev : Int
  /-- Σ s·w·V·i of the line cycle in V·A·ns (R95). -/
  energy : Rat
  /-- Transitions in the housekeeping round (R584). -/
  trans : Nat
  /-- Outcome of this tick's decision, not yet committed at S3. -/
  plan : Option CellPlan
  deriving DecidableEq, Repr

/-- The port side of a cell (R95 to R97, R225 to R256). Currents in A. -/
structure CellPort where
  /-- I_set before clipping, and the window in force. -/
  iRaw : Rat
  iLo : Rat
  iHi : Rat
  /-- Window of R237 last formed. -/
  wLo : Rat
  wHi : Rat
  /-- Effective state-of-charge window in 0.01 % (R236). -/
  socLo : Rat
  socHi : Rat
  /-- The alarm window lasts until the next boundary (R238). -/
  alarmWin : Bool
  /-- Pack cell joined since the last boundary: I_set 0 (R241). -/
  fresh : Bool
  /-- Port powers reported: tick executed, W; newest first (R229). -/
  powers : List (Int × Int)
  deriving DecidableEq, Repr

/-- A counter held in whole units, 1 mWh or 1 mC (R541, R542), in 8 bytes (R554), and the part of the quantity added so far
that does not make a whole unit: it waits for the next addition, so that no increment is rounded away (R537; log entry
18). -/
structure Ctr where
  n : Nat
  frac : Rat
  deriving DecidableEq, Repr

/-- Add a quantity of at least 0 to a counter. -/
def Ctr.add (a : Ctr) (x : Rat) : Ctr :=
  let t := a.frac + x
  ⟨(a.n + t.floor.toNat) % 2 ^ 64, t - (t.floor : Rat)⟩

/-- A counter of no units. -/
def Ctr.zero : Ctr := ⟨0, 0⟩

/-- A lease (R551). State 0 NONE, 1 OWNED, 2 OPEN, 3 EXHAUSTED. -/
structure Lease where
  state : Nat
  id : Nat
  floor : Nat
  ceiling : Nat
  allow : Nat
  eStart : Nat
  deriving DecidableEq, Repr

/-- Port metering of a cell (R542, R543, R562). Energies in mWh, charges in mC. -/
structure CellMtr where
  eDis : Ctr
  eChg : Ctr
  qDis : Ctr
  qChg : Ctr
  /-- The last CHARGE taken and E of it; none: a new baseline. -/
  base : Option Int
  baseAt : Nat
  lastP : Int
  lastV : Nat
  /-- The last PORT_P and PORT_V received before the open gap (R543). -/
  gapP : Int
  gapV : Nat
  /-- A gap is open; ΔC and PORT_V taken at the first report after it. -/
  gap : Bool
  held : Option (Rat × Nat)
  /-- The gap follows a restart: 0 no, 1 from a power-fail snapshot, 2 from a latch snapshot (R562). -/
  restart : Nat
  /-- FLAGS of the next record (R548). -/
  flags : Nat
  lease : Lease
  /-- Leases replaced since the last latch, oldest first, with E of the change (R567). -/
  was : List (Nat × Lease)
  deriving DecidableEq, Repr

/-- The thermal side of a cell (R581, R584). -/
structure CellThm where
  dt : Rat
  /-- Levels of classes 0 to 2: 0 none to 3 shutdown. -/
  lvl : List Nat
  deriving DecidableEq, Repr

/-- Everything the device holds of one cell beside its registers. -/
structure Cell where
  link : CellLink
  svc : CellSvc
  sch : CellSch
  port : CellPort
  mtr : CellMtr
  thm : CellThm
  deriving DecidableEq, Repr

/-! ### Acquisition (10) -/

/-- A queue entry (R355, R356). -/
structure QEnt where
  /-- E at which the queue's memory took it. -/
  taken : Nat
  time : Nat
  ovr : Bool
  loss : Bool
  calp : Bool
  trig : Nat
  tag : Nat
  sample : Nat
  deriving DecidableEq, Repr

/-- A result queue (R355 to R359). -/
structure QSt where
  ents : List QEnt
  /-- Entries in the ingress buffer, and E to which it has been drained. -/
  ingress : List QEnt
  ingAt : Nat
  /-- The next accepted entry carries LOSS; the next is the first since enable; TIME of the last entry. -/
  loss : Bool
  first : Bool
  lastHi : Nat
  /-- Entries to go after a capture event. -/
  post : Nat
  /-- Entries on their way to the queue, by E of their arrival (R346). -/
  arr : List (Nat × QEnt)
  deriving DecidableEq, Repr

/-- A fast comparator's analog side (R365 to R368). Levels are in converter codes, full scale ÷ 8,192: a DAC LSB is 64. -/
structure CmpSt where
  /-- The input, and the comparison as it stands since the instant `rawAt`, ahead of the filter. -/
  input : Int
  raw : Bool
  rawAt : Nat
  /-- The ramp's reference at the instant `baseAt`. -/
  base : Int
  baseAt : Nat
  /-- E at which the filtered output last was active. -/
  setAt : Option Nat
  deriving DecidableEq, Repr

/-- Acquisition state beside the ADC_ and CMP_ registers. -/
structure AdcSt where
  /-- Trims in force: OFFSET and GAIN per converter (R344). -/
  trim : List (Int × Nat)
  /-- Control sample and probe-chain mean per function 1 to 16, in the function's unit (R349, R361). -/
  ctl : List Rat
  whole : List Rat
  /-- Consecutive ticks of the pair checks and of the sum check (R351). -/
  pair : List Nat
  sum : Nat
  queues : List QSt
  /-- Per trigger: E at which its burst ends (R354). -/
  busy : List Nat
  /-- Source events of triggers that wait for DELAY: trigger, and E of the event (R352). -/
  fire : List (Nat × Nat)
  /-- Per comparator: its analog side; per converter and per comparator DAC: the temperature correction in force, of the
  reference in parts and of the threshold in DAC LSB (R364). -/
  cmp : List CmpSt
  refCorr : List Rat
  dacCorr : List Rat
  /-- Per converter, sum and number of the codes of this tick so far (R361). -/
  part : List (Int × Nat)
  /-- The housekeeping round: running, E of its start, rounds so far, E of the last completion, and of the one before. -/
  hkRun : Bool
  hkAt : Nat
  /-- E of the start of the running round; a skipped start leaves it (R363). -/
  hkFrom : Nat
  hkCount : Nat
  hkDone : Nat
  hkPrev : Nat
  deriving DecidableEq, Repr

/-! ### Metering and journal (15) -/

/-- A meter record (R547): everything its bytes are made from. -/
structure Rec where
  kind : Nat
  flags : Nat
  cell : Nat
  rseq : Nat
  latch : Nat
  boot : Nat
  outage : Nat
  elapsed : Nat
  wall : Nat
  calCv : Nat
  values : List (Nat × Nat)
  sig : Option (Nat × Nat)
  /-- Posted: the METER_RING counter past its last entry; consumed: the ring's consumer counter has passed it (R556). -/
  posted : Option Nat
  consumed : Bool
  /-- Its record slot, 0 to 2,827, and the CRC-32C written after it (R553). -/
  slot : Nat
  crc : Nat
  deriving DecidableEq, Repr

/-- A cell's entry of a snapshot (R554). -/
structure SnapCell where
  eDis : Nat
  eChg : Nat
  qDis : Nat
  qChg : Nat
  base : Int
  gap : Bool
  estim : Bool
  /-- Every flag of R548 that waits for the port's next record; R554 gives only the two above a place (log entry 120). -/
  flags : Nat
  deriving DecidableEq, Repr

/-- A METER_FLAG of codes 1 to 4 that waits for the RSEQ of the first record with its flag (R550): code, cell, argument,
tick and elapsed time of the happening. -/
structure FlagWait where
  code : Nat
  cell : Nat
  arg : Nat
  tick : Int
  elapsed : Nat
  deriving DecidableEq, Repr

/-- What the records of a power-fail snapshot take from the boot that it ended (R561), and R554 gives no place (log entry
120): OUTAGE_S, WALL and CAL_CV, the flags of the AC records, METER_FLAGs that wait for a record. -/
structure SnapAside where
  outage : Nat
  wall : Nat
  calCv : Nat
  acFlags : List Nat
  waiting : List FlagWait
  deriving DecidableEq, Repr

/-- A snapshot (R554). -/
structure Snap where
  kind : Nat
  gen : Nat
  latch : Nat
  boot : Nat
  elapsed : Nat
  ctrs : List Nat
  ac : List (List Nat)
  /-- Per cell. -/
  cells : Tab SnapCell
  aside : SnapAside
  deriving DecidableEq, Repr

/-- A snapshot slot (R554, R555): its MAGIC, the snapshot of offsets 4 to 10,223, and its CRC word. -/
structure SnapSlot where
  magic : Nat
  snap : Snap
  crc : Nat
  deriving DecidableEq, Repr

/-- A lease entry (R555): the lease with its E_START, and GEN, which is 0 where nothing has been written. -/
structure LeaseEntry where
  lease : Lease
  gen : Nat
  deriving DecidableEq, Repr

/-- The cistern journal, which outlives main power (R553 to R557). -/
structure Journal where
  present : Bool
  /-- The header's magic, format and CRC are good. -/
  formatted : Bool
  /-- The header's BOOT, next RSEQ and oldest held RSEQ. -/
  boot : Nat
  rseq : Nat
  oldest : Nat
  slotA : Option SnapSlot
  slotB : Option SnapSlot
  /-- Lease copies A and B. -/
  leaseA : Tab LeaseEntry
  leaseB : Tab LeaseEntry
  /-- Node serial and charge baseline per cell. -/
  nodes : Tab (Nat × Int)
  recs : List Rec
  /-- METER_FLAGs that are not posted yet (R519). -/
  flags : List Event
  deriving DecidableEq, Repr

/-- A metering chain (R360): the four integrators and the four combs of its sinc⁴ filter, and the decimated samples that
the droop compensation takes, newest first. -/
structure ChainSt where
  integ : List Int
  comb : List Int
  hist : List Int
  deriving DecidableEq, Repr

/-- Metering state beside the MTR_ and CIS_ registers. -/
structure MtrSt where
  /-- The six chains, and the conversions since their last output (R360). -/
  chains : List ChainSt
  chainN : Nat
  /-- Chain samples that cycles still need, oldest first: E, the six chain outputs, and their corrected values (R539,
  R540). -/
  samples : List (Nat × List Int × List Rat)
  /-- E of the last line-cycle boundary, and the length of the last cycle. -/
  cycAt : Option Nat
  cycPrev : Nat
  /-- AC counters: L1, L2, L3, totals; seven each, in mWh (R541, R554). -/
  ac : List (List Ctr)
  /-- Sums over the latch: cycles, RMS per channel, P and Q per phase. -/
  cycles : Nat
  rms : List Rat
  pSum : List Rat
  qSum : List Rat
  /-- Cycles since the last latch boundary, N in force, E of that boundary (R545). -/
  count : Nat
  n : Nat
  latchAt : Nat
  /-- A latch boundary was signalled in this tick: the latch is formed at its S5; then it waits for its 100 µs. -/
  atS5 : Bool
  due : Option Nat
  form : Option (Snap × List Rec)
  /-- E of the request for a calibration swap; its boundary has come (R566). -/
  swapAt : Nat
  calDue : Bool
  /-- FLAGS of the next AC active and reactive records (R548). -/
  acFlags : List Nat
  /-- The snapshot being written, and the records that follow it (R546, R555). -/
  snap : Option (Snap × List Rec)
  /-- Records made and not signed, in RSEQ order. -/
  queue : List Rec
  /-- Lease entries being written: cell, lease, descriptor. -/
  leasing : List (Nat × Lease × Desc)
  /-- The snapshot restored at B2 (R557, R558). -/
  restored : Option Snap
  /-- Records of the first latch of this boot carry OUTAGE_UNKNOWN (R565). -/
  unknown : Bool
  /-- Gap energy of the ports after a latch snapshot, in mWh, until it is booked (R563). -/
  gapSum : Option Rat
  flagQ : List FlagWait
  /-- The nine data words each agent's last read of MTR_PORT_DATA_0 took: host, firmware, debugger (R574, R697). -/
  win : PerAgent (List Nat)
  deriving DecidableEq, Repr

/-! ### Thermal management and auxiliary drives (16) -/

/-- Thermal state beside the THM_ registers. -/
structure ThmSt where
  /-- Consecutive rounds outside the range per die sensor, and each sensor's level (R578, R582). -/
  bad : List Nat
  dieLvl : List Nat
  plantLvl : List Nat
  /-- Heat budgets b(3) and b(4) of the plant classes (R594). -/
  plantB : List Nat
  prev : Bool
  timer : Nat
  /-- Per phase, over the round: ticks, Σ i², Σ |i| (R584). -/
  ticks : Nat
  i2 : List Rat
  iabs : List Rat
  deriving DecidableEq, Repr

/-- A motor channel (R588 to R599). Currents in A, speeds in rpm. -/
structure AuxCh where
  /-- E of entry into the state; a DIAG request ends in OFF (R592). -/
  since : Nat
  diagOnly : Bool
  /-- Returns to ALIGN, open-loop speed, speed reference and speed integral. -/
  tries : Nat
  ref : Rat
  integ : Rat
  iq : Rat
  /-- Current loop integrals, predicted currents and consecutive predicted samples (R594, R595). -/
  xd : Rat
  xq : Rat
  id : Rat
  iqm : Rat
  vd : Rat
  vq : Rat
  e : Rat
  skips : Nat
  /-- The voltages as applied, within the linear range, and the cap of R595 in 0.001. -/
  ad : Rat
  aq : Rat
  cap : Nat
  /-- E since when the reference has been constant, and since when it averages (R597). -/
  steady : Nat
  keAt : Option Nat
  /-- Was running before VAUX_UV (R590). -/
  resume : Bool
  /-- E since when the observer has agreed at or above HANDOVER (R593). -/
  agree : Option Nat
  /-- DECEL is followed by FAULT (R597). -/
  toFault : Bool
  /-- AUX_HOLDm turns off at this E (R588). -/
  holdOff : Option Nat
  deriving DecidableEq, Repr

/-- A motor channel that stands. -/
def AuxCh.init : AuxCh := ⟨0, false, 0, 0, 0, 0, 0, 0, 0, 0, 0, 0, 0, 0, 0, 0, 0, 0, none, false, none, false, none⟩

/-! ### Faults, refusals, the state -/

/-- The block raises no fault: every command of the table has an effect in every state. The one constructor keeps the
type inhabited; nothing raises it, so nothing about it is unsafe. -/
inductive Fault where
  | none
  deriving DecidableEq, Repr

/-- Refusals. `notModelled`: raised by an arm of exec whose meaning is not written; safe, since the machine stops. -/
inductive Refusal where
  | notModelled (mnemonic : String)
  deriving DecidableEq, Repr

/-- The whole device: plain data. -/
structure State where
  /-- Commands waiting, first in, first out. -/
  pending : List Instr
  /-- Register fields by bit address, sparse over the Reset column (R14, R18). -/
  regs : Tab Nat
  tm : TickSt
  clk : ClkSt
  pwr : PwrSt
  hst : HostSt
  tri : TriSt
  slc : SlcSt
  saf : SafeSt
  rings : List RingSt
  cells : Tab Cell
  law : Law
  lawC : Law
  sp : SetWait
  sched : SchedSt
  adc : AdcSt
  mtr : MtrSt
  jr : Journal
  thm : ThmSt
  aux : List AuxCh
  /-- The oldest instance number of the model's free values (log entry 1). -/
  free : Nat
  /-- What has left the device, oldest first. -/
  out : List Out
  deriving DecidableEq, Repr

/-! ### Values at reset -/

/-- A command slot with SLOT_VALID 0 (R268). -/
def Cmd.none : Cmd := ⟨false, false, false, 0, Option.none, 0, 0, 0, 0, 0, 0, 0, 0⟩

/-- A safety input with no demand filtered. -/
def SafeIn.init : SafeIn := ⟨false, false, 0, 0, false, false, 0, 0, 0, 0, false⟩

/-- A ring that is off. -/
def RingSt.init : RingSt := ⟨0, [0, 0], [0, 0], [false, false], [false, false], [0, 0], [0, 0], [], [], 0, 0, 0, 0⟩

/-- A cell that no command has touched: blocked, its budget and weight as the Reset column has them. -/
def Cell.init : Cell where
  link := ⟨Slot.zero, Slot.zero, 3, false, 0, 0, [none, none], [0, 0], [], [], [0, 0],
    ⟨[], [], 0, 0, 1, 0, [], 0, 0, 0, false, false, false⟩, 0, 0, 0, 0, 0, none, false⟩
  svc := ⟨none, false, true, false, 0, 0, 0, 0, 0, 0, 0, 0, none, false, none, false, [], 0, none, none,
    none, false, 0⟩
  sch := ⟨0, Cmd.none, Cmd.none, 0, 0, 0, 0, 0, none⟩
  port := ⟨0, 0, 0, 0, 0, 0, 10000, false, false, []⟩
  mtr := ⟨Ctr.zero, Ctr.zero, Ctr.zero, Ctr.zero, none, 0, 0, 0, 0, 0, false, none, 0, 0, ⟨0, 0, 0, 10000, 0, 0⟩, []⟩
  thm := ⟨0, [0, 0, 0]⟩

/-- A journal that nothing has been written to. -/
def Journal.blank : Journal := ⟨true, false, 0, 0, 0, none, none, [], [], [], [], []⟩

/-- Zero. -/
def Cx.zero : Cx := ⟨0, 0⟩

/-- A separator at rest. -/
def Sep.zero : Sep := ⟨⟨0, 0, 0⟩, ⟨0, 0, 0⟩⟩

/-- The law before its first tick: every quantity 0, the supervisor TRIPPED (R174), E_SET 1.000 (R165), ω 0 until the
first tick at B3. -/
def Law.init : Law where
  trk := ⟨Sep.zero, 0, 0, 0, Cx.zero, Cx.zero, false, false, 0, 0, false, none, none, 0, [], 0, [], 0, 0, false, false⟩
  sup := ⟨4, 0, none, [], 0, 0, 0, 0, none, none, false⟩
  src := ⟨0, 0, none, 0, Cx.zero, Cx.zero, false, 1,
    0, 0, false, false, Cx.zero, none, 0, 0⟩
  cur := ⟨Sep.zero, Cx.zero, Cx.zero, List.replicate 6 ⟨false, false, Cx.zero, Cx.zero, Cx.zero⟩,
    ⟨false, Cx.zero, Cx.zero, Cx.zero, Cx.zero⟩, false, Cx.zero, Cx.zero, 0, true, none, [0, 0, 0], 0, [0, 0, 0]⟩
  mir := ⟨false, 0, Cx.zero, Cx.zero, none, [], 0, Cx.zero, false, Cx.zero, false, false, false, 0, 0, false, none, true,
    Sep.zero, Sep.zero, 0, -1, (0, 2, 0)⟩
  pv := []
  trkCfg := [30, 205, 2, 5, 4, 2]
  badPeriods := []
  estimated := -1
  origin := 0
  scanFrom := 0

/-- A register bank at reset (log entry 5). -/
def CoreBank.zero : CoreBank := ⟨List.replicate 32 0, List.replicate 4 0, 0, 0⟩

/-- Registers whose reset is not a Reset column value: OTP and keep-alive fields as the model sets them (log entries 6
and 7): ID_PART.DEVICE 0x7240, LC_STATE PROVISIONED with KEY and 15 RETURNS_LEFT, PLL seeds 1, a cold start with an
unknown outage. -/
def resetRegs : Tab Nat :=
  [(Reg.ID_PART.DEVICE.key 0, 0x7240), (Reg.LC_STATE.RETURNS_LEFT.key 0, 15), (Reg.LC_STATE.KEY.key 0, 1),
   (Reg.LC_STATE.STATE.key 0, 1), (Reg.CLK_PLL_SEED_p.SEED.key 0, 1), (Reg.CLK_PLL_SEED_p.SEED.key 1, 1),
   (Reg.CLK_PLL_SEED_p.SEED.key 2, 1), (Reg.KA_STATUS.COLD.key 0, 1), (Reg.KA_OUTAGE.SECONDS.key 0, 0xFFFFFFFF)]

/-- A commissioning block that was never written. -/
def CommBlock.blank : CommBlock := ⟨0, 1, 0, [], false⟩

/-- The flash of a device on which no image was placed (log entry 8). -/
def Flash.blank : Flash := ⟨0, [], false, [], [], CommBlock.blank, CommBlock.blank⟩

/-- Main power-on at B1 (R18, R631, R634). -/
def State.reset : State where
  pending := []
  regs := resetRegs
  tm := ⟨0, 0, false, 0, 0, 20, 0, false, false, false, false, false, false, 0, false, [0, 0, 0, 0], [0, 0, 0, 0, 0, 0],
    false, false, none, none, [], none,
    ⟨0, 0, 0⟩, ⟨0, 0, 0⟩, [], 16, (0, 0), 100, 0⟩
  clk := ⟨[some 0, none, none], [none, none, none], [none, none, none], false, none, none, 0, false, none,
    [none, none, none], [1, 1, 1], 0, none, 0, 0, 0, none, none, 0⟩
  pwr := ⟨true, true, true, false, none, false, false, false, false, false, false, none, false, false, false, false,
    Flash.blank, none, false, true, true, true, 0, 0, 0, 0, 0⟩
  hst := ⟨[], 0, [], [], [], [], [], [], [], 0, [], 0, [], none, [], [], false, [], none, [], []⟩
  tri := ⟨[], 0, [], [], [], [], [], false, [[], [], []], 0, 0, false, 0, false, false, [], none, false, 1, 0xFFFFFFFF, CoreBank.zero, CoreBank.zero,
    List.replicate 12 0⟩
  slc := ⟨2 ^ Reg.SLC_TRIP_LATCH.HOST.lo, 2 ^ Reg.SLC_TRIP_LATCH.HOST.lo, 0, 0, 0, [], [], [false, false, false], 0, [], 0, false, [0, 0]⟩
  saf := ⟨List.replicate 8 SafeIn.init, [], [], false, false, 0, 0, 0, true, none, [0, 0], [0, 0], none, 0, 0, false, 0, 0⟩
  rings := List.replicate 16 RingSt.init
  cells := []
  law := Law.init
  lawC := Law.init
  sp := ⟨[], none, ⟨none, none, none, none, 0, 0⟩, ⟨none, none, none, none, 0, 0⟩, 1000⟩
  sched := ⟨[0, 0, 0], [0, 0, 0], [0, 0, 0], [false, false, false], [false, false, false], [1, 1, 1], [1, 1, 1],
    .normal, .normal, .normal, false, false, none, [], none, none, [none, none, none, none], 0⟩
  adc := ⟨List.replicate 16 (0, 16384), List.replicate 16 0, List.replicate 16 0, [0, 0, 0], 0,
    List.replicate 8 ⟨[], [], 0, false, true, 0, 0, []⟩, List.replicate 16 0, [], List.replicate 16 ⟨0, false, 0, 0, 0, none⟩,
    List.replicate 16 0, List.replicate 16 0, List.replicate 16 (0, 0), false, 0, 0, 0, 0, 0⟩
  mtr := ⟨List.replicate 6 ⟨[0, 0, 0, 0], [0, 0, 0, 0], []⟩, 0, [], none, 0, List.replicate 4 (List.replicate 7 Ctr.zero), 0, List.replicate 6 0, [0, 0, 0], [0, 0, 0], 0, 50, 0, false, none,
    none, 0, false, [0, 0], none, [], [], none, false, none, [], ⟨List.replicate 9 0, List.replicate 9 0, List.replicate 9 0⟩⟩
  jr := Journal.blank
  thm := ⟨List.replicate 18 0, List.replicate 18 0, [0, 0], [0, 0], false, 0, 0, [0, 0, 0], [0, 0, 0]⟩
  aux := List.replicate 2 AuxCh.init
  free := 0
  out := []

end Sys2Proof.Machine
end

