-- ==== Sys2Proof/Machine/Wire.lean ====
section
/-! DEFINITION. Bytes and code groups: ordered sets, frames and telemetry slots of the link (R262 to R270), entries of
the host rings (R504, R507, R518), safe messages (R433). All multi-byte fields are little-endian (R13). -/
namespace Sys2Proof
open Machine

/-- An unsigned field of `n` bytes at an offset. -/
def byteFld (l : List Byte) (off n : Nat) : Nat := ofBytes ((l.drop off).take n)

/-- A two's complement field of `n` bytes at an offset. -/
def byteFldS (l : List Byte) (off n : Nat) : Int := sgn (8 * n) (byteFld l off n)

/-- Bytes written over a list from an offset on; the list's length stays. -/
def putAt (l : List Byte) (off : Nat) (b : List Byte) : List Byte :=
  (l.take off ++ b ++ l.drop (off + b.length)).take l.length

/-- Payload fields written into an entry (R507, R520). -/
def putPay (l : List Byte) (pay : List Pay) : List Byte :=
  pay.foldl (fun l (p : Pay) => putAt l p.1 (leBytes p.2.1 (unsg (8 * p.2.1) p.2.2))) l

/-! ### Ordered sets (R262, R263) -/

/-- The number of ones in a byte. -/
def ones (v : Nat) : Nat := ((List.range 8).filter (bitOf v)).length

/-- The value code group of /TR/, /BK/, /JR/ and /WK/: bit 7 makes the number of ones odd (R263). -/
def oddByte (v : Nat) : Nat := if ones (v % 128) % 2 = 0 then v % 128 + 128 else v % 128

/-- The 7-bit value of a value code group received without a code or parity error (R263). -/
def orderValue : Code → Option Nat
  | .data b => if ones b.toNat % 2 = 1 then some (b.toNat % 128) else none
  | _ => none

/-- The value of an ordered set whose special code group is K28.`k`, received without a code or parity error in either code
group (R262, R263). -/
def orderSet (k : Nat) (mark value : Code) : Option Nat := if mark = .k 28 k then orderValue value else none

/-- A code group that counts as one code error (R262): invalid, wrong in running disparity, or one of K28.1, K28.6 and
K28.7, which are never sent. -/
def Code.isErr : Code → Bool
  | .bad => true
  | .k 28 1 | .k 28 6 | .k 28 7 => true
  | _ => false

/-- /BK/ with its value (R262, R286). -/
def bkCodes (v : Nat) : List Code := [.k 28 2, .data (BitVec.ofNat 8 (oddByte v))]

/-- /WK/ with its value (R262, R295). -/
def wkCodes (v : Nat) : List Code := [.k 28 3, .data (BitVec.ofNat 8 (oddByte v))]

/-- Three times back to back. -/
def thrice (l : List Code) : List Code := l ++ l ++ l

/-! ### Frames (R263 to R268) -/

/-- The header of a frame (R266). -/
structure FrameHdr where
  execTick : Int
  elapsed : Nat
  period : Nat
  launchOfs : Nat
  kind : FrameKind
  ring : Nat
  compact : Bool
  nodes : Nat
  scope : Nat
  grant : Option Nat
  starve : Nat
  cellBlock : Nat
  deriving DecidableEq, Repr

/-- KIND (R266). -/
def kindCode : FrameKind → Nat
  | .normal => 0
  | .repeated => 1
  | .hold => 2
  | .wadi => 3

/-- A cell output state as a slot carries it (R268). -/
def stateCode (x : Int) : Nat := if x = 1 then 1 else if x = -1 then 2 else 0

/-- SLOT_VALID (R266). -/
def slotMask (slots : List Cmd) : Nat :=
  (List.range 15).foldl (fun m q => if (slots.getD q Cmd.none).valid then m + 2 ^ q else m) 0

/-- The 64 header bytes on a loop: HOP and WRAP leave the device as 0 (R266). -/
def FrameHdr.bytes (h : FrameHdr) (loop : Nat) (slots : List Cmd) : List Byte :=
  leBytes 8 (unsg 64 h.execTick) ++ leBytes 8 h.elapsed ++ leBytes 2 h.period ++ leBytes 2 h.launchOfs ++
  leBytes 1 (kindCode h.kind) ++ leBytes 1 (h.ring + 16 * loop + 32 * b2n h.compact) ++ leBytes 1 0 ++ leBytes 1 h.nodes ++
  leBytes 1 0 ++ leBytes 1 h.scope ++ leBytes 1 (match h.grant with | some q => 128 + q | .none => 0) ++
  leBytes 1 h.starve ++ leBytes 2 (slotMask slots) ++ leBytes 2 h.cellBlock ++ List.replicate 32 0

/-- The 24 bytes of a command slot; DELAY is that of the frame's loop (R268). -/
def cmdBytes (c : Cmd) (loop : Nat) : List Byte :=
  leBytes 1 (128 * b2n c.valid + 64 * b2n c.release + 32 * b2n c.spill) ++
  leBytes 1 (match c.edge with
    | some e => stateCode c.start + 4 * stateCode e.1 + 16
    | .none => stateCode c.start) ++
  leBytes 2 (match c.edge with | some e => e.2 | .none => 0) ++
  leBytes 2 (unsg 16 (if loop = 0 then c.delayP else c.delayS)) ++
  leBytes 2 (unsg 16 c.portA) ++ leBytes 2 (unsg 16 c.portB) ++ leBytes 2 (unsg 16 c.portC) ++
  leBytes 4 c.auxWord ++ leBytes 2 (c.auxKind * 2 ^ 14 + c.auxSeq % 2 ^ 14) ++ List.replicate 6 0

/-- The payload of a frame: header, 15 command slots, 15 telemetry slots as zeros (R264, R269). -/
def framePayload (h : FrameHdr) (loop : Nat) (slots : List Cmd) : List Byte :=
  h.bytes loop slots ++ ((List.range 15).flatMap fun q => cmdBytes (slots.getD q Cmd.none) loop) ++
  List.replicate (15 * (if h.compact then 16 else 40)) 0

/-- The frame type byte of /SF/ (R263). -/
def FrameHdr.ty (h : FrameHdr) : Nat := if h.kind = .wadi then 0xB1 else if h.compact then 0xA2 else 0xA1

/-- A frame's code groups: /SF/, payload, CRC-32C least significant byte first, /EF/ (R262, R264, R265). -/
def frameCodes (ty : Nat) (payload : List Byte) : List Code :=
  [.k 27 7, .data (BitVec.ofNat 8 ty)] ++ (payload ++ leBytes 4 (crc32c payload)).map .data ++ [.k 29 7, .k 23 7]

/-! ### Returning frames (R263, R265, R279) -/

/-- The data bytes up to the next special or invalid code group, and what follows them. -/
def takeData : List Code → List Byte × List Code
  | .data b :: t => (b :: (takeData t).1, (takeData t).2)
  | l => ([], l)

/-- The special code group of an ordered set that carries a value: /TR/, /BK/, /WK/ or /JR/ (R262). -/
def Code.opens : Code → Bool
  | .k 28 0 | .k 28 2 | .k 28 3 | .k 28 4 => true
  | _ => false

/-- Receivers remove /TR/, /BK/, /JR/ and /WK/ before frame decoding (R274). The flag says that the group before was the
first of such a set, whose value group then goes with it. -/
def dropOrders : Bool → List Code → List Code
  | _, [] => []
  | true, .data _ :: t => dropOrders false t
  | true, .bad :: t => dropOrders false t
  | _, c :: t => if c.opens then dropOrders true t else c :: dropOrders false t

/-- The /BK/ and /WK/ among code groups whose value group has bad parity or is no data group: each counts as a code error
(R263). A value group that is itself a code error counts as that, and /TR/ and /JR/ count where they arrive. -/
def orderErrs : List Code → Nat
  | [] => 0
  | c :: t =>
    (if c = .k 28 2 ∨ c = .k 28 3 then
      match t with
      | v :: _ => if v.isErr ∨ orderValue v ≠ none then 0 else 1
      | [] => 0
    else 0) + orderErrs t

/-- From /SF/ on: the frame type, the data bytes, and what ends them. -/
def FrameIn.parts (f : FrameIn) : Option (Nat × List Byte × List Code) :=
  match (dropOrders false f.codes).dropWhile (fun c => c != .k 27 7) with
  | _ :: .data ty :: t => some (ty.toNat, takeData t)
  | _ => none

/-- The payload bytes of a frame type (R263, R264). -/
def payloadLen (ty : Nat) : Option Nat :=
  if ty = 0xA1 ∨ ty = 0xB1 then some 1024 else if ty = 0xA2 then some 664 else none

/-- The type and payload of a copy that ends in /EF/ with a good CRC (R263, R265, R279). -/
def FrameIn.goodCopy (f : FrameIn) : Option (Nat × List Byte) :=
  match f.parts with
  | some (ty, l, .k 29 7 :: .k 23 7 :: _) =>
    match payloadLen ty with
    | some n => if l.length = n + 4 ∧ crc32c (l.take n) = ofBytes (l.drop n) then some (ty, l.take n) else none
    | none => none
  | _ => none

/-- The copy ends in /EF/ with a good CRC (R279). -/
def FrameIn.good (f : FrameIn) : Bool := f.goodCopy.isSome

/-- Code errors received with the copy (R262, R263). -/
def FrameIn.codeErrs (f : FrameIn) : Nat := (f.codes.filter Code.isErr).length + orderErrs f.codes

/-- The payload of a good copy. -/
def FrameIn.payload (f : FrameIn) : List Byte := (f.goodCopy.map (·.2)).getD []

/-- The copy carries compact telemetry (R263). -/
def FrameIn.compact (f : FrameIn) : Bool := (f.goodCopy.map (·.1)).getD 0 == 0xA2

/-- EXEC_TICK of a good copy (R266). -/
def FrameIn.execTick (f : FrameIn) : Int := byteFldS f.payload 0 8

/-- The loop that the device launched the frame on: bit 4 of RINGLOOP (R266). -/
def FrameIn.loop (f : FrameIn) : Nat := bits (byteFld f.payload 21 1) 4 1

/-- HOP (R266, R272). -/
def FrameIn.hop (f : FrameIn) : Nat := byteFld f.payload 22 1

/-- The frame was copied onto the other loop (R266, R281). -/
def FrameIn.wrapped (f : FrameIn) : Bool := bitOf (byteFld f.payload 24 1) 7

/-- The position of the node that copied it (R266, R281). -/
def FrameIn.wrapPos (f : FrameIn) : Nat := bits (byteFld f.payload 24 1) 0 4

/-! ### Telemetry slots (R269, R270) -/

/-- STATUS and STATE, the first two bytes of either form (R269, R270), over a slot's other fields. -/
def Slot.withStatus (x : Slot) (l : List Byte) : Slot :=
  let st := byteFld l 0 1
  let se := byteFld l 1 1
  { x with
    valid := bitOf st 7, late := bitOf st 6, blocked := bitOf st 5, spillway := bitOf st 4, tripped := bitOf st 3,
    cmdLost := bitOf st 2, starving := bitOf st 1, cmdLoop := bitOf st 0, endState := bits se 0 2, trans := bits se 2 2,
    curt := bitOf se 4, aligned := bitOf se 5, vlink := byteFld l 2 2 }

/-- The AUX words of a slot from an offset on: AUX_WORD, AUX_CTRL, TRIP_CAUSE, AUX_FLAGS (R269, R270). -/
def Slot.withAux (x : Slot) (l : List Byte) (o : Nat) : Slot :=
  { x with
    auxWord := byteFld l o 4, auxKind := byteFld l (o + 4) 2 / 2 ^ 14, auxSeq := byteFld l (o + 4) 2 % 2 ^ 14,
    tripCause := byteFld l (o + 6) 1, reply := bitOf (byteFld l (o + 7) 1) 0 }

/-- The full slot of 40 bytes (R269). -/
def fullSlot (l : List Byte) : Slot :=
  (Slot.withStatus { Slot.zero with
    portV := byteFld l 4 2, portI := byteFldS l 6 2, portP := byteFldS l 8 4, soc := byteFld l 12 2,
    tPack := byteFldS l 14 1, tSw := byteFldS l 15 1, tCool := byteFldS l 16 1, packAlarm := byteFld l 17 1,
    delta := byteFldS l 18 2, fwdLat := byteFld l 20 1, err := byteFld l 21 1, tickLo := byteFld l 22 2,
    charge := byteFldS l 24 8 } l).withAux l 32

/-- The compact slot of 16 bytes with the page it brings (R270). -/
def compactSlot (l : List Byte) : Slot :=
  let x := Slot.withStatus { Slot.zero with portP := byteFldS l 4 3 } l
  match byteFld l 7 1 % 4 with
  | 0 => { x with
      soc := byteFld l 8 2, tPack := byteFldS l 10 1, tSw := byteFldS l 11 1, tCool := byteFldS l 12 1,
      packAlarm := byteFld l 13 1, tickLo := byteFld l 14 2 }
  | 1 => { x with
      portV := byteFld l 8 2, portI := byteFldS l 10 2, delta := byteFldS l 12 2, fwdLat := byteFld l 14 1,
      err := byteFld l 15 1 }
  | 2 => { x with charge := byteFldS l 8 8 }
  | _ => x.withAux l 8

/-- The telemetry slot of a position in a good copy: full, or compact with its page number (R269, R270). -/
def FrameIn.slot (f : FrameIn) (q : Nat) : Slot × Nat :=
  if f.compact then
    let l := (f.payload.drop (424 + 16 * q)).take 16
    (compactSlot l, byteFld l 7 1 % 4)
  else (fullSlot ((f.payload.drop (424 + 40 * q)).take 40), 0)

/-! ### Entries of the host rings (R504, R507, R518) -/

/-- The 64 bytes of a completion entry (R507). -/
def completionBytes (phase : Bool) (c : Completion) : List Byte :=
  putPay (List.replicate 64 0) ([(0, 1, (c.opcode : Int)), (1, 1, c.status), (2, 1, c.ring), (3, 1, b2n phase), (4, 4, c.tag),
    (8, 2, c.index), (10, 2, c.detail), (16, 8, c.tick), (24, 8, c.elapsed)] ++ c.result)

/-- The 64 bytes of the `i`-th entry of an event record (R518): the header, then the payload at its offsets of R520, or
40 bytes of a record that takes several entries. -/
def eventBytes (phase : Bool) (e : Event) (n i : Nat) : List Byte :=
  let head := putPay (List.replicate 64 0) [(0, 2, (e.ty : Int)),
    (2, 1, ((b2n phase + 2 * (n - 1) + 8 * b2n (decide (0 < i)) + 16 * b2n e.cal : Nat) : Int)),
    (4, 4, e.seqNo), (8, 8, e.tick), (16, 8, e.elapsed)]
  let head := if i = 0 then putPay head e.pay else head
  if e.more = [] then head else putAt head 24 ((e.more.drop (40 * i)).take 40)

/-- A descriptor's command from its 64 bytes (R504, R505): what the device takes from a ring entry it has fetched. `t` is
the instant; `differ`, whether the members' copies of a staged image differ (R481). An action of CONVERTER or CELL_SERVICE
that the tables do not list has no command of its own, and goes with its opcode. -/
def descriptor (ring : Fin 64) (l : List Byte) (differ : Bool) (t : Nat) : Instr :=
  let h : DescHdr := ⟨ring, bitOf (byteFld l 1 1) 0, byteFld l 4 4⟩
  let op := byteFld l 0 1
  let cell := byteFld l 8 2
  let len := byteFld l 16 4
  let addr := byteFld l 24 8
  let act := if op = 0x02 then byteFld l 8 1 else byteFld l 10 1
  if op = 0x00 then .nop h
  else if op = 0x01 then .setpoint h ⟨byteFld l 8 2, byteFldS l 12 2, byteFldS l 14 2, byteFld l 16 2, byteFld l 18 2,
    byteFld l 20 2, byteFld l 22 2, byteFld l 24 2⟩
  else if op = 0x02 ∧ act = 1 then .converterRelease h t
  else if op = 0x02 ∧ act = 2 then .converterStop h t
  else if op = 0x02 ∧ act = 3 then .converterStopBrk h t
  else if op = 0x02 ∧ act = 4 then .converterBrkReset h t
  else if op = 0x03 ∧ act = 1 then .cellRemove h cell
  else if op = 0x03 ∧ act = 2 then .cellReturn h cell
  else if op = 0x03 ∧ act = 3 then .cellNodeFw h cell len addr
  else if op = 0x04 then .furrowLoad h cell act len addr
  else if op = 0x05 then .lease h cell (byteFld l 12 4) (byteFld l 16 2) (byteFld l 18 2) addr
  else if op = 0x06 then .hostTime h (byteFld l 8 8)
  else if op = 0x07 then .capture h (byteFld l 8 1)
  else if op = 0x08 then .fwStage h (byteFld l 8 4) (byteFld l 12 4) (byteFld l 16 1 != 0) differ addr
  else if op = 0x09 then .fwSwap h
  else if op = 0x0A then .journalRead h (byteFld l 8 8) (byteFld l 16 2) addr
  else if op = 0x40 then .buffer h len addr
  else .badOpcode h ⟨op, cell⟩

/-! ### Safe messages (R433) -/

/-- Offsets 0 to 43 of a PDU (R433). -/
def pduBody (m : Pdu) : List Byte :=
  leBytes 2 m.protoId ++ leBytes 1 m.version ++ leBytes 1 m.ty ++ leBytes 4 m.connId ++ leBytes 4 m.seqNo ++
  leBytes 2 m.flags ++ leBytes 2 m.rsv14 ++ leBytes 2 (unsg 16 m.p) ++ leBytes 2 (unsg 16 m.q) ++ leBytes 2 m.ilim ++
  leBytes 2 m.plim ++ leBytes 2 m.ulo ++ leBytes 2 m.uhi ++ leBytes 4 m.paramCv ++ leBytes 4 m.echoSeq ++ leBytes 8 m.rsv36

/-- The CRC over offsets 0 to 43 is right (R433, R435). -/
def pduCrcGood (m : Pdu) : Bool := m.crc == crc32c (pduBody m)

/-- The 48 bytes of a PDU (R433). -/
def pduBytes (m : Pdu) : List Byte := pduBody m ++ leBytes 4 m.crc

/-- A safe-message frame up to its FCS (R13, R432): the addresses in the order of the wire, the EtherType in network order,
the PDU. -/
def ethBody (m : EthFrame) : List Byte :=
  leBytes 6 m.dst ++ leBytes 6 m.src ++ leBytes 1 (m.etherType / 256) ++ leBytes 1 m.etherType ++ pduBytes m.pdu

/-- The FCS of a frame, the CRC-32 of IEEE 802.3 (R432). -/
def ethFcs (m : EthFrame) : Nat := Nat.xor (crcRefl 0xEDB88320 (ethBody m) 0xFFFFFFFF) 0xFFFFFFFF

/-- The bytes of a frame that the device sends (R432). -/
def ethBytes (m : EthFrame) : List Byte := ethBody m ++ leBytes 4 (ethFcs m)

end Sys2Proof
end

