-- ==== Sys2Proof/Machine/Ops.lean ====
section
/-! DEFINITION. The named operations every meaning is written over: register fields, cells and rings, event records,
completions, the walker's translations, and the actions of the sluice fabric. -/
namespace Sys2Proof.Machine
open Reg

/-! ### Register fields -/

/-- Entry `i` of a field; an entry the family does not have reads 0 (R696). -/
def State.rdi (s : State) (f : Fld) (i : Nat) : Nat := if i < f.count then tget regDefault s.regs (f.key i) else 0

/-- A field of a register that stands alone. -/
def State.rd (s : State) (f : Fld) : Nat := s.rdi f 0

/-- A one-bit field as a truth value. -/
def State.bit (s : State) (f : Fld) : Bool := s.rd f == 1

/-- Entry `i` of a one-bit field as a truth value. -/
def State.biti (s : State) (f : Fld) (i : Nat) : Bool := s.rdi f i == 1

/-- A two's complement field. -/
def State.rds (s : State) (f : Fld) : Int := sgn f.w (s.rd f)

/-- Entry `i` of a two's complement field. -/
def State.rdsi (s : State) (f : Fld) (i : Nat) : Int := sgn f.w (s.rdi f i)

/-- Write entry `i` of a field; the value is cut to the field's width. An entry the family does not have takes no
write (R696). -/
def State.wri (s : State) (f : Fld) (i v : Nat) : State :=
  if i < f.count then { s with regs := tput regDefault s.regs (f.key i) (v % 2 ^ f.w) } else s

/-- Write a field of a register that stands alone. -/
def State.wr (s : State) (f : Fld) (v : Nat) : State := s.wri f 0 v

/-- The active copy of a shadowed field (R699). -/
def State.acti (s : State) (f : Fld) (i : Nat) : Nat :=
  if i < f.count then tget regDefault s.regs (f.actKey i) else 0

/-- The active copy of a shadowed field of a register that stands alone (R699). -/
def State.act (s : State) (f : Fld) : Nat := s.acti f 0

/-- The active copy of a two's complement field. -/
def State.actsi (s : State) (f : Fld) (i : Nat) : Int := sgn f.w (s.acti f i)

/-- Copy a field's shadow into its active copy (R699). -/
def State.activate (s : State) (f : Fld) (i : Nat) : State :=
  if i < f.count then { s with regs := tput regDefault s.regs (f.actKey i) (s.rdi f i) } else s

/-- Every entry of a list of fields activated. -/
def State.activateAll (s : State) (fs : List Fld) : State :=
  fs.foldl (fun s f => (List.range f.count).foldl (fun s i => s.activate f i) s) s

/-- Add to entry `i` of a counter that saturates at its field's maximum. -/
def State.inci (s : State) (f : Fld) (i k : Nat) : State := s.wri f i (satAdd (2 ^ f.w - 1) (s.rdi f i) k)

/-- Add to a counter that saturates at its field's maximum. -/
def State.inc (s : State) (f : Fld) (k : Nat) : State := s.inci f 0 k

/-- The word that the fields of a register family's entry `i` make, each field times its place. -/
def State.fieldsWord (s : State) (i : Nat) : List FieldRow → Nat
  | [] => 0
  | r :: t => s.rdi r.f i * 2 ^ r.f.lo + s.fieldsWord i t

/-- Write every field of a register family's entry `i` from a word. -/
def State.putFields (s : State) (i v : Nat) : List FieldRow → State
  | [] => s
  | r :: t => (s.wri r.f i (bits v r.f.lo r.f.w)).putFields i v t

/-- The first entries of the shadowed registers of R699, the FRT_ block apart. -/
def shadowBases : List Nat :=
  [HGS_PRIO_CFG.WE.base, HGS_SW_CFG.BURST.base, HGS_PULSE_CFG.IDEAD.base, HGS_LINK_WIN_r.HARD.base, CTL_GAIN.KP.base,
   CTL_NEG_GAIN.KP.base, CTL_LUT_CFG.STEP.base, CTL_LUT_j.KP_MUL.base, CTL_RES_n.SEQ.base, CTL_NOTCH.FREQ.base,
   CTL_MODEL.ADV.base, CTL_AW_CFG.KAW.base, CTL_ZSEQ_CFG.ZMAX.base, SYNC_VM_CFG.H.base, MIR_CFG.EN.base,
   MIR_WIN_CFG.WINDOW.base, MIR_THR_CFG.ZDEV.base, MIR_PASSIVE_CFG.ROCOF_EN.base, MIR_ACT_CFG.GFM_ACT.base,
   PORT_TRK_CFG.DAMP.base, PORT_SCAN_CFG.PERIOD.base, PORT_PACK_GCFG.TLO.base, PORT_AGE_CFG.AGE_K.base,
   MTR_CH_CAL_c.GAIN.base, MTR_QTY_CAL_k.GAIN.base, MTR_CH_PHASE_c.PHASE.base]

/-- The register family with this first entry is shadowed (R699). -/
def isShadowed (base : Nat) : Bool :=
  shadowBases.contains base ||
  (base / 0x10000 == 0x14 && base != FRT_STATUS.STATE.base && base != FRT_TABLE_CTRL.SWAP.base)

/-- The register word at a BAR2 offset; an unassigned offset reads 0 (R696), an active copy at + 0x8000 (R699). -/
def State.word (s : State) (off : Nat) : Nat :=
  if 0x8000 ≤ off % 0x10000 then
    match regAt (off - 0x8000) with
    | some r => if isShadowed r.base then r.fields.foldl
        (fun w x => w + tget regDefault s.regs (x.f.actKey ((off - 0x8000 - r.base) / 4)) * 2 ^ x.f.lo) 0 else 0
    | none => 0
  else
    match regAt off with
    | some r => s.fieldsWord ((off - r.base) / 4) r.fields
    | none => 0

/-- Write the RW and RWS fields of the register at a BAR2 offset from a word. -/
def State.putRw (s : State) (off v : Nat) : State :=
  match regAt off with
  | some r => s.putFields ((off - r.base) / 4) v (r.fields.filter (fun x => x.acc == .rw || x.acc == .rws))
  | none => s

/-- The BAR2 offset of entry `i` of the register that holds a field. -/
def Fld.off (f : Fld) (i : Nat) : Nat := f.base + 4 * i

/-- Write the RW and RWS fields of entry `i` of the register that holds a field from a word; an entry the family does
not have takes no write. -/
def State.putRwi (s : State) (f : Fld) (i v : Nat) : State := if i < f.count then s.putRw (f.off i) v else s

/-- A value lies in the range of a field's description. -/
def Lim.ok (w v : Nat) : Lim → Bool
  | .none => true
  | .u a b => decide (a ≤ v) && decide (v ≤ b)
  | .s a b => decide (a ≤ sgn w v) && decide (sgn w v ≤ b)

/-- Every writable field of a register's word lies in its range. -/
def inRange (off v : Nat) : Bool :=
  match regAt off with
  | some r => r.fields.all (fun x => x.lim.ok x.f.w (bits v x.f.lo x.f.w))
  | none => false

/-! ### Open values -/

/-- A value of a quantity the spec leaves open, anew at each use: of the place that asks, and of the count of uses
(log entry 1). -/
def State.freeVal (s : State) (site : Nat) : Nat := Config.unstated (s.free * 64 + site)

/-- A free value has been used. -/
def State.used (s : State) : State := { s with free := s.free + 1 }

/-! ### Time -/

/-- The stage of bring-up (R634). -/
def State.stage (s : State) : Nat := s.rd HOST_STATUS.STAGE

/-- The tick period in force in ns (R24, R26). -/
def State.period (s : State) : Nat := s.tm.half * 500

/-- The schedule time S = E + O (R625), in whole ns. -/
def State.stime (s : State) : Int := (s.tm.e : Int) + s.tm.o.floor

/-- Move E to an instant that is not in the past, with the slew of O that falls in that time (R629): at most the
amount left of a step's residue. -/
def State.moveTo (s : State) (t : Nat) : State :=
  if t ≤ s.tm.e then s
  else
    let d := s.clk.slew * ((t - s.tm.e : Nat) : Rat)
    match s.clk.slewLeft with
    | none => { s with tm := { s.tm with e := t, o := s.tm.o + d } }
    | some left =>
      if absR d < absR left then
        { s with tm := { s.tm with e := t, o := s.tm.o + d }, clk := { s.clk with slewLeft := some (left - d) } }
      else
        { s with tm := { s.tm with e := t, o := s.tm.o + left }, clk := { s.clk with slew := 0, slewLeft := none } }

/-- E of a stage deadline of the present tick (R32). -/
def State.deadline (s : State) (n : Nat) : Nat := s.tm.start + s.rdi CLK_TICK_DEADLINE_n.DEADLINE n * 10

/-- A change that waits for a tick boundary is asked for now, by the register at a BAR2 offset. -/
def State.askAt (s : State) (base : Nat) : State :=
  { s with tm := { s.tm with asked := tput (fun _ => 0) s.tm.asked base s.tm.e } }

/-- A tick boundary has been taken since the register at a BAR2 offset asked for its change, and no deadline of that tick
yet: the change is due (R102, R703). -/
def State.boundaryDue (s : State) (base : Nat) : Bool :=
  s.tm.phase == 0 && decide (tget (fun _ => 0) s.tm.asked base < s.tm.start)

/-- Run an effect of the main die; while the main die is in reset nothing of it acts (R631, R632). -/
def State.live (s : State) (g : State → State) : State := if s.pwr.mainOn then g s else s

/-! ### Cells, rings, phases -/

/-- The record of a cell. -/
def State.cell (s : State) (c : Nat) : Cell := tget (fun _ => Cell.init) s.cells c

/-- Replace the record of a cell. -/
def State.setCell (s : State) (c : Nat) (x : Cell) : State :=
  { s with cells := tput (fun _ => Cell.init) s.cells c x }

/-- Change the record of a cell. -/
def State.updCell (s : State) (c : Nat) (g : Cell → Cell) : State := s.setCell c (g (s.cell c))

/-- Change every cell that has a record of its own. -/
def State.mapCells (s : State) (g : Nat → Cell → Cell) : State :=
  s.cells.foldl (fun s kv => s.setCell kv.1 (g kv.1 kv.2)) s

/-- The record of a ring. -/
def State.ring (s : State) (r : Nat) : RingSt := s.rings.getD r RingSt.init

/-- Replace the record of a ring. -/
def State.setRing (s : State) (r : Nat) (x : RingSt) : State := { s with rings := s.rings.set r x }

/-- The ring of a cell (R21). -/
def ringOf (c : Nat) : Nat := c / 15

/-- The position of a cell (R21). -/
def posOf (c : Nat) : Nat := c % 15

/-- The part is a PN7120 (R2, R671). -/
def State.small (s : State) : Bool := s.rd ID_PART.DEVICE == 0x7120

/-- The number of cells of the part (R2). -/
def State.cellCount (s : State) : Nat := if s.small then 120 else 240

/-- The number of rings of the part (R2). -/
def State.ringCount (s : State) : Nat := if s.small then 8 else 16

/-- The cell belongs to the plant (R58). -/
def State.enabled (s : State) (c : Nat) : Bool := s.biti HGS_CELL_CFG_n.ENABLE c

/-- The phase of a cell: 0 L1, 1 L2, 2 L3 (R58). -/
def State.phaseOf (s : State) (c : Nat) : Nat := s.rdi HGS_CELL_CFG_n.PHASE c

/-- The role of a cell: 0 capacitor-only, 1 pack, 2 PV (R57). -/
def State.role (s : State) (c : Nat) : Nat := s.rdi HGS_CELL_CFG_n.ROLE c

/-- The enabled cells of the part, lowest index first. -/
def State.plant (s : State) : List Nat := (List.range 240).filter (fun c => s.enabled c && decide (c < s.cellCount))

/-- The enabled cells of a phase. -/
def State.phaseCells (s : State) (p : Nat) : List Nat := s.plant.filter (fun c => s.phaseOf c == p)

/-- The service state of a cell (R307). -/
def State.sstate (s : State) (c : Nat) : Nat := s.rdi JOIN_CELL_STATUS_n.SSTATE c

/-- The link state of a cell (R305). -/
def State.lstate (s : State) (c : Nat) : Nat := s.rdi LINK_CELL_STATUS_n.LSTATE c

/-- A ring is enabled (R298). -/
def State.ringOn (s : State) (r : Nat) : Bool := bitOf (s.rd LINK_RING_EN.EN) r && decide (r < s.ringCount)

/-- The enabled rings. -/
def State.ringsOn (s : State) : List Nat := (List.range 16).filter s.ringOn

/-- The ring's state of R301. -/
def State.ringState (s : State) (r : Nat) : Nat := s.rdi LINK_RING_STATUS_r.STATE r

/-- The cell is unblocked: enabled, and its node released from every block (R287). -/
def State.unblocked (s : State) (c : Nat) : Bool := s.enabled c && !(s.cell c).svc.blk

/-- Every cell is blocked (R26, R61, R640). -/
def State.allBlocked (s : State) : Bool := s.cells.all (fun kv => !(s.unblocked kv.1))

/-- Every cell of a ring is blocked (R261, R295). -/
def State.ringBlocked (s : State) (r : Nat) : Bool := s.cells.all (fun kv => !(s.unblocked kv.1) || ringOf kv.1 != r)

/-- The blocked phases of the scope in force, as the mask of R286. -/
def State.blockedPhases (s : State) : Nat := s.rd SLC_BLOCK_STATUS.PHASES

/-- A block of the fabric covers the cell: its own cell block, or a phase, converter or safe-state scope (R391). -/
def State.covered (s : State) (c : Nat) : Bool := (s.cell c).svc.cellBlk || bitOf s.blockedPhases (s.phaseOf c)

/-- The cells of a phase in service (R307). -/
def State.inService (s : State) (p : Nat) : List Nat := (s.phaseCells p).filter (fun c => s.sstate c == 5)

/-- Put something on the device's outside. -/
def State.emit (s : State) (o : Out) : State := { s with out := s.out ++ [o] }

/-- The device sleeps (R640). -/
def State.asleep (s : State) : Bool := s.bit PWR_STATUS.SLEEP

/-! ### Rings of the host, translations, entries -/

/-- The number of entries of a ring (R498). -/
def State.ringSize (s : State) (r : Nat) : Nat := 2 ^ s.rdi RING_CFG_n.SIZE r

/-- The host's counter of a ring (R499). -/
def State.hostCtr (s : State) (r : Nat) : Nat := tget (fun _ => 0) s.hst.ctr r

/-- Set the host's counter of a ring. -/
def State.setHostCtr (s : State) (r v : Nat) : State :=
  { s with hst := { s.hst with ctr := tput (fun _ => 0) s.hst.ctr r (v % 65536) } }

/-- Entries a COMPLETION or EVENT ring holds: producer − consumer (R499). -/
def State.ringHeld (s : State) (r : Nat) : Nat := (s.rdi RING_STATE_n.CONS r + 65536 - s.hostCtr r) % 65536

/-- The device address of a ring's slot (R498, R499, R531). -/
def State.slotAddr (s : State) (r ctr : Nat) : Nat :=
  s.rdi RING_BASE_n.BASE r * 1024 + 64 * (ctr % s.ringSize r)

/-- The PHASE bit of an entry at a counter value: 1 on the first pass, inverted on each wrap (R507). -/
def State.phaseBit (s : State) (r ctr : Nat) : Bool := ctr / s.ringSize r % 2 == 0

/-- A cached translation of a device page. -/
def State.cached (s : State) (page : Nat) : Option Trans := s.hst.cache.find? (fun t => t.page == page)

/-- A physical range meets one of the device regions of R515: the device's own BARs, an enabled window. -/
def State.deviceRegion (s : State) (phys len : Nat) : Bool :=
  let hit (b n : Nat) : Bool := decide (phys < b + n) && decide (b < phys + len)
  s.hst.bars.any (fun b => hit b.1 b.2) ||
  (List.range 16).any (fun n =>
    s.biti HOST_DEVREG_LO_n.EN n &&
    hit (s.rdi HOST_DEVREG_HI_n.BASE_HI n * 2 ^ 32 + s.rdi HOST_DEVREG_LO_n.BASE n * 4096)
      (s.rdi HOST_DEVREG_SIZE_n.PAGES n * 4096))

/-- The physical address of the level-1 table's entry for a page (R512, R527). -/
def State.level1Addr (s : State) (page : Nat) : Nat :=
  s.rd HOST_WALK_ROOT_HI.ADDR_HI * 2 ^ 32 + s.rd HOST_WALK_ROOT_LO.ADDR * 4096 + page / 512 * 8

/-- Append a walker job: `found` holds the pages already translated, `pages` those to walk; the first of these is
asked for at level 1, due after TIMEOUT (R514, R528). -/
def State.startJob (s : State) (k : JobKind) (found : List Trans) (pages : List Nat) : State :=
  match pages with
  | [] => s
  | p :: _ =>
    let j : Job := ⟨s.hst.nextJob, k, pages, found, .level1, s.tm.e + s.rd HOST_WALK_CFG.TIMEOUT * 1000, []⟩
    ({ s with hst := { s.hst with jobs := s.hst.jobs ++ [j], nextJob := s.hst.nextJob + 1 } }).emit
      (.hostRead (s.level1Addr p) 8)

/-- A ring's state changes to a halted state: its fault register takes status, access kind and page (R502, R535).
The record of the change is queued by the caller. -/
def State.haltRing (s : State) (r st status acc page : Nat) : State :=
  ((((s.wri RING_STATE_n.STATE r st).wri RING_FAULT_n.STATUS r status).wri RING_FAULT_n.ACCESS r acc).wri
    RING_FAULT_n.PAGE r page)

/-- The EVENT ring a record type goes to (R518). -/
def State.evRing (s : State) (ty : Nat) : Nat :=
  if ty = 0x80 ∨ ty = 0x81 then s.rd HOST_EVT_CFG.METER_RING else s.rd HOST_EVT_CFG.EVT_RING

/-- The entries a record takes (R518, R520). -/
def Event.entries (e : Event) : Nat := if e.ty = 0x80 then 4 else 1

/-- Append a record of a happening at a tick and an elapsed time to an EVENT ring's buffer. When the buffer of 1,024
entries is full the record is dropped and counted, with the first SEQ kept; METER_RECORD and METER_FLAG are never dropped
(R519). Every record takes a SEQ. -/
def State.queueAt (s : State) (r ty : Nat) (tick : Int) (elapsed : Nat) (pay : List Pay) (more : List Byte) : State :=
  let q := tget (fun _ => []) s.hst.evq r
  let e : Event := ⟨ty, s.hst.seqNo % 2 ^ 32, tick, elapsed, s.bit MTR_STATUS.CAL_PENDING, pay, more⟩
  let used := (q.map Event.entries).foldl (· + ·) 0
  if ty ≠ 0x80 ∧ ty ≠ 0x81 ∧ 1024 < used + e.entries then
    let l := tget (fun _ => (0, 0)) s.hst.lost r
    { s with hst := { s.hst with
        seqNo := s.hst.seqNo + 1
        lost := tput (fun _ => (0, 0)) s.hst.lost r (l.1 + 1, if l.1 = 0 then s.hst.seqNo % 2 ^ 32 else l.2) } }
  else
    { s with hst := { s.hst with
        seqNo := s.hst.seqNo + 1
        evq := tput (fun _ => []) s.hst.evq r (q ++ [e]) } }

/-- Append a record of a happening of this instant (R518, R519). -/
def State.queueOn (s : State) (r ty : Nat) (pay : List Pay) (more : List Byte) : State :=
  s.queueAt r ty s.tm.n s.tm.e pay more

/-- Append a record to the buffer of the EVENT ring of its type (R518, R519). -/
def State.queueRec (s : State) (ty : Nat) (pay : List Pay) (more : List Byte) : State :=
  s.queueOn (s.evRing ty) ty pay more

/-- A RING_STATE record of a change of ring `r`, unless `r` is the EVENT ring that carries it (R502). -/
def State.queueRingState (s : State) (r old new : Nat) : State :=
  if s.evRing 0x90 = r then s
  else s.queueRec 0x90 [(24, 1, r), (25, 1, old), (26, 1, new), (27, 1, s.rdi RING_FAULT_n.STATUS r),
    (28, 4, s.rdi RING_FAULT_n.PAGE r)] []

/-- An entry was written on a ring: the MSI-X rule of R521. -/
def State.entryWritten (s : State) (r : Nat) : State :=
  let n := tget (fun _ => 0) s.hst.unsig r + 1
  let at0 := if n = 1 then s.tm.e else tget (fun _ => 0) s.hst.unsigAt r
  let cnt := s.rdi RING_CFG_n.COAL_CNT r
  let us := s.rdi RING_CFG_n.COAL_US r
  let fire := (cnt == 0 && us == 0) || (cnt != 0 && decide (cnt ≤ n))
  let s := { s with hst := { s.hst with
      unsig := tput (fun _ => 0) s.hst.unsig r (if fire then 0 else n)
      unsigAt := tput (fun _ => 0) s.hst.unsigAt r at0 } }
  if fire && s.biti RING_CFG_n.IRQ_EN r then s.emit (.msix (s.rdi RING_CFG_n.VECTOR r)) else s

/-- `k` entries were written on a ring, one after the other (R521). -/
def State.entriesWritten (s : State) (r : Nat) : Nat → State
  | 0 => s
  | k + 1 => State.entriesWritten (s.entryWritten r) r k

/-- PAGE of RING_FAULT_n for a device address: its bits 29:12 (R535). -/
def faultPage (a : Nat) : Nat := a / 4096 % 2 ^ 18

/-- Whether an entry can be written at a ring's producer slot, and where: its address must not lie beyond bit 29, the
translation of its page must be held and grant WRITE, and the address must lie in no device region (R508, R513 to R515).
`none`: not translated yet. -/
def State.entryPhys (s : State) (r ctr : Nat) : Option (Except Nat Nat) :=
  let a := s.slotAddr r ctr
  if 2 ^ 30 ≤ a then some (.error 0x12)
  else if !s.bit HOST_WALK_ROOT_LO.EN then some (.error 0x10)
  else
    match s.cached (a / 4096) with
    | none => none
    | some t =>
      if !t.wr then some (.error 0x11)
      else if s.deviceRegion (t.phys * 4096 + a % 4096) 64 then some (.error 0x15)
      else some (.ok (t.phys * 4096 + a % 4096))

/-- Ask for the translation of a ring's producer slot, unless the walker is at it already. -/
def State.askEntry (s : State) (r ctr : Nat) : State :=
  let page := s.slotAddr r ctr / 4096
  if s.hst.jobs.any (fun j => j.kind == .entry r) then s else s.startJob (.entry r) [] [page]

/-- The COMPLETION or EVENT ring may take `k` entries now: ACTIVE, room, not in D3hot (R495, R499). -/
def State.ringOpen (s : State) (r k : Nat) : Bool :=
  s.rdi RING_STATE_n.STATE r == 1 && decide (s.ringHeld r + k ≤ s.ringSize r) && !s.hst.d3

/-- A METER_RECORD was written on its ring: its journal slot keeps the ring counter past its last entry (R556). -/
def State.recordPosted (s : State) (e : Event) (ctr : Nat) : State :=
  if e.ty = 0x80 then
    let rseq := ofBytes ((e.more.drop 6).take 8)
    { s with jr := { s.jr with recs := s.jr.recs.map (fun r =>
      if r.rseq = rseq then { r with posted := some ctr } else r) } }
  else s

/-- Where the `k` consecutive entries of a record can be written: the physical addresses of their slots; the first slot
that cannot be written decides (R513, R515, R518). -/
def State.entriesPhys (s : State) (r ctr : Nat) : Nat → Option (Except (Nat × Nat) (List Nat))
  | 0 => some (.ok [])
  | k + 1 =>
    match s.entryPhys r ctr with
    | none => none
    | some (.error st) => some (.error (st, faultPage (s.slotAddr r ctr)))
    | some (.ok phys) =>
      match s.entriesPhys r (ctr + 1) k with
      | some (.ok l) => some (.ok (phys :: l))
      | x => x

/-- The first of `k` slots from a counter on whose page has no translation yet. -/
def State.unheld (s : State) (r ctr k : Nat) : Nat :=
  ((List.range k).find? (fun i => (s.entryPhys r (ctr + i)).isNone)).getD 0 + ctr

/-- The entries of a record leave, each with the PHASE bit of its own slot (R507, R518). -/
def State.emitRecord (s : State) (r ctr : Nat) (e : Event) (l : List Nat) : State :=
  { s with out := s.out ++ l.zipIdx.map fun x =>
      .event x.1 (eventBytes (s.phaseBit r (ctr + x.2)) e l.length x.2) }

/-- Write buffered records of an EVENT ring while it has room, in order (R519); answers the records left. A record
whose ring cannot be written halts the ring (R502) or waits for its translation. -/
def State.drainList (s : State) (r : Nat) : List Event → State × List Event
  | [] => (s, [])
  | e :: t =>
    let k := e.entries
    let ctr := s.rdi RING_STATE_n.CONS r
    if s.rdi RING_CFG_n.TYPE r ≠ 2 ∨ !s.ringOpen r k then (s, e :: t)
    else
      match s.entriesPhys r ctr k with
      | none => (s.askEntry r (s.unheld r ctr k), e :: t)
      | some (.error x) => (s.haltRing r 4 x.1 3 x.2, e :: t)
      | some (.ok l) =>
        let s := s.emitRecord r ctr e l
        let s := (s.wri RING_STATE_n.CONS r (ctr + k)).recordPosted e ((ctr + k) % 65536)
        (s.entriesWritten r k).drainList r t

/-- Write what waits for an EVENT ring (R519). A ring that this halts has its RING_STATE record queued. -/
def State.drain (s : State) (r : Nat) : State :=
  let old := s.rdi RING_STATE_n.STATE r
  let (s, left) := s.drainList r (tget (fun _ => []) s.hst.evq r)
  let s := { s with hst := { s.hst with evq := tput (fun _ => []) s.hst.evq r left } }
  let new := s.rdi RING_STATE_n.STATE r
  if old = new then s else s.queueRingState r old new

/-- Post an event record (R518 to R520). -/
def State.post (s : State) (ty : Nat) (pay : List Pay) : State := (s.queueRec ty pay []).drain (s.evRing ty)

/-- Post a record with a long payload: METER_RECORD (R520). -/
def State.postLong (s : State) (ty : Nat) (pay : List Pay) (more : List Byte) : State :=
  (s.queueRec ty pay more).drain (s.evRing ty)

/-- A ring changes state, with its record (R502). -/
def State.setRingState (s : State) (r new : Nat) : State :=
  let old := s.rdi RING_STATE_n.STATE r
  let s := s.wri RING_STATE_n.STATE r new
  let s := s.queueRingState r old new
  s.drain (s.evRing 0x90)

/-- CONFIG_REFUSED's source code of an agent (R520). -/
def agentCode : Agent → Nat
  | .host => 0
  | .firmware => 1
  | .debugger => 2

/-- What an agent's own latch holds (R697). -/
def PerAgent.get {α : Type} (x : PerAgent α) : Agent → α
  | .host => x.host
  | .firmware => x.firmware
  | .debugger => x.debugger

/-- Latch a value for one agent, the others' as they were (R697). -/
def PerAgent.put {α : Type} (x : PerAgent α) (ag : Agent) (v : α) : PerAgent α :=
  match ag with
  | .host => { x with host := v }
  | .firmware => { x with firmware := v }
  | .debugger => { x with debugger := v }

/-- A CONFIG_REFUSED record that names a register (R15, R520). -/
def State.configRefused (s : State) (off val : Nat) (ag : Agent) : State :=
  s.post 1 [(24, 4, off), (28, 4, val), (32, 1, agentCode ag)]

/-- A write or request was refused: the CFG_ERR field named for it is set. -/
def State.refuse (s : State) (f : Fld) : State := s.wr f 1

/-- A NOTICE record: code and argument (R520). -/
def State.notice (s : State) (code arg : Nat) : State := s.post 3 [(24, 2, code), (26, 4, arg)]

/-- A NOTICE record whose argument the spec does not state (log entry 1). -/
def State.noticeOpen (s : State) (code : Nat) : State := (s.notice code (s.freeVal 3 % 2 ^ 32)).used

/-! ### Descriptors and completions -/

/-- End a descriptor: its completion waits to be written (R507, R510). A descriptor of an earlier function-level
reset leaves none (R523). -/
def State.complete (s : State) (d : Desc) (status detail : Nat) (result : List Pay) : State :=
  if d.epoch ≠ s.hst.epoch then s
  else { s with hst := { s.hst with comps := s.hst.comps ++
    [⟨d.cring, d.opcode, status, d.ring, d.tag, d.index, detail, s.tm.n, s.tm.e, result, d.epoch⟩] } }

/-- End a descriptor at the tend of the TICK entry that starts next (R505, R510). -/
def State.completeAtTend (s : State) (d : Desc) (status : Nat) (result : List Pay) : State :=
  if d.epoch ≠ s.hst.epoch then s
  else { s with hst := { s.hst with atNext := s.hst.atNext ++
    [⟨d.cring, d.opcode, status, d.ring, d.tag, d.index, 0, s.tm.n, s.tm.e, result, d.epoch⟩] } }

/-! ### The sluice fabric's answer (R391 to R411) -/

/-- The fields of SLC_TRIP_LATCH (R419). -/
def latchFields : List Fld :=
  [SLC_TRIP_LATCH.RING_TR, SLC_TRIP_LATCH.SAME_TICK_PHASE, SLC_TRIP_LATCH.SAME_TICK_CONV, SLC_TRIP_LATCH.SAFETY_IN,
   SLC_TRIP_LATCH.NET_STOP, SLC_TRIP_LATCH.PF_WARN, SLC_TRIP_LATCH.TRIP_IN, SLC_TRIP_LATCH.OVERRUN,
   SLC_TRIP_LATCH.PATH_CHECK, SLC_TRIP_LATCH.FRT_TRIP, SLC_TRIP_LATCH.ISLAND, SLC_TRIP_LATCH.DERATE4,
   SLC_TRIP_LATCH.TRIAD, SLC_TRIP_LATCH.THERMAL, SLC_TRIP_LATCH.HOST, SLC_TRIP_LATCH.DEBUG_STARVE, SLC_TRIP_LATCH.CMP]

/-- The field of SLC_FIRST with the layout of a SLC_TRIP_LATCH field (R419). -/
def firstField (f : Fld) : Fld := { f with base := SLC_FIRST.HOST.base }

/-- SLC_TRIP_LATCH as a word. -/
def State.latchWord (s : State) : Nat := latchFields.foldl (fun w f => w + s.rd f * 2 ^ f.lo) 0

/-- SLC_FIRST as a word. -/
def State.firstWord (s : State) : Nat := latchFields.foldl (fun w f => w + s.rd (firstField f) * 2 ^ f.lo) 0

/-- Bits `m` of a SLC_TRIP_LATCH field latch now, in the 4 ns latch period of this instant (R407). -/
def State.latchBits (s : State) (f : Fld) (m : Nat) : State :=
  let now := m * 2 ^ f.lo
  let bits := if s.slc.lastLatch / 4 = s.tm.e / 4 then s.slc.periodBits ||| now else now
  { s.wr f (s.rd f ||| m) with slc := { s.slc with lastLatch := s.tm.e, periodBits := bits } }

/-- Latch bits `m` of a field for a source that acts with a scope: SLC_FIRST and its time are loaded, with every bit of
this latch period, when no scope is in force, and take further bits of the same period (R407). -/
def State.latch (s : State) (f : Fld) (m : Nat) : State :=
  let fresh := s.rd SLC_BLOCK_STATUS.SCOPE == 0
  let s := s.latchBits f m
  let s :=
    if fresh then
      let s := latchFields.foldl (fun s g => s.wr (firstField g) (bits s.slc.periodBits g.lo g.w)) s
      let s := s.wr SLC_FIRST_TIME.TIME s.tm.e
      { s with slc := { s.slc with firstAt := s.tm.e, causes := 0 } }
    else if s.tm.e / 4 = s.slc.firstAt / 4 then s.wr (firstField f) (s.rd (firstField f) ||| m)
    else s
  { s with slc := { s.slc with causes := s.slc.causes ||| m * 2 ^ f.lo } }

/-- Latch bits of a source that has no scope (R396, R407). -/
def State.latchOnly (s : State) (f : Fld) (m : Nat) : State :=
  let s := s.latchBits f m
  if s.rd SLC_BLOCK_STATUS.SCOPE ≠ 0 ∧ s.tm.e / 4 = s.slc.firstAt / 4 then s.wr (firstField f) (s.rd (firstField f) ||| m)
  else s

/-- BRK_TRIP_A and BRK_TRIP_B as they read: asserted with BRK, and 0 while VDDIO_33 is absent (R409, R679). -/
def State.showBrk (s : State) : State :=
  let v := s.pwr.vddio && s.bit SLC_BLOCK_STATUS.BRK
  s.emit (.brkTrip v v)

/-- The /BK/ value of a phase mask (R286). -/
def bkValue (phases : Nat) : Nat := 0x40 + phases

/-- An ordered set leaves three times back to back on both loops of a ring (R286, R295). -/
def State.sendOrder (s : State) (r : Nat) (codes : List Code) : State :=
  (s.emit (.link r 0 (thrice codes))).emit (.link r 1 (thrice codes))

/-- Send /BK/ of a phase mask on every enabled ring (R286). -/
def State.sendBk (s : State) (phases : Nat) : State :=
  s.ringsOn.foldl (fun s r => s.sendOrder r (bkCodes (bkValue phases))) s

/-- Block every cell of the phases in a mask (R287). -/
def State.blockPhases (s : State) (phases : Nat) : State :=
  s.mapCells (fun c x => if bitOf phases (s.phaseOf c) then { x with svc := { x.svc with blk := true } } else x)

/-- A pending release is cancelled by a source that latches (R408). -/
def State.cancelRelease (s : State) : State :=
  if s.slc.release = [] then s
  else
    let l := s.slc.release
    let s := { s with slc := { s.slc with release := [] } }
    (l.foldl (fun s d => s.complete d 2 7 [(32, 4, 2 ^ 7)]) s).noticeOpen 5

/-! ### Result queues (R355 to R358) -/

/-- The record of a queue. -/
def State.queue (s : State) (q : Nat) : QSt := s.adc.queues.getD q ⟨[], [], 0, false, true, 0, 0, []⟩

/-- E at which the first entry that a queue holds was taken (R359). -/
def QSt.firstAt (x : QSt) : Option Nat := x.ents.head?.map QEnt.taken

/-- Replace the record of a queue and show FILL. -/
def State.setQueue (s : State) (q : Nat) (x : QSt) : State :=
  ({ s with adc := { s.adc with queues := s.adc.queues.set q x } }).wri ADC_Q_STATUS_q.FILL q x.ents.length

/-- The state of a queue (R382). -/
def State.qstate (s : State) (q : Nat) : Nat := s.rdi ADC_Q_STATUS_q.STATE q

/-- The queue takes entries: it runs, waits for its event or counts POST (R382). -/
def State.qOpen (s : State) (q : Nat) : Bool := s.qstate q == 1 || s.qstate q == 2 || s.qstate q == 3

/-- A queue in Stream mode has no place left (R357). -/
def State.qFull (s : State) (q : Nat) : Bool :=
  s.qstate q == 1 && s.rdi ADC_Q_CFG_q.MODE q == 0 && decide (4096 ≤ (s.queue q).ents.length)

/-- An entry goes into a queue's memory of 4,096, over the oldest when it is full; in the POST count it is one of the
POST, and the last of them freezes the capture (R357, R358). -/
def State.qKeep (s : State) (q : Nat) (e : QEnt) : State :=
  let x := s.queue q
  let old := if 4096 ≤ x.ents.length then x.ents.drop 1 else x.ents
  if s.qstate q = 3 then
    let s := s.setQueue q { x with ents := old ++ [e], post := x.post - 1 }
    if x.post ≤ 1 then s.wri ADC_Q_STATUS_q.STATE q 4 else s
  else s.setQueue q { x with ents := old ++ [e] }

/-- An entry is dropped, counted, and marked by LOSS on the next one accepted (R357). -/
def State.qLose (s : State) (q : Nat) : State :=
  (s.inci ADC_Q_STATUS_q.DROP q 1).setQueue q { s.queue q with loss := true }

/-- A queue takes one entry: kept, or dropped where the queue is full in Stream mode; a queue that is off, frozen or
closed takes none (R357, R358). -/
def State.qTake (s : State) (q : Nat) (e : QEnt) : State :=
  if !s.qOpen q then s
  else if s.qFull q then s.qLose q
  else (s.setQueue q { s.queue q with loss := false }).qKeep q { e with loss := (s.queue q).loss }

/-- A queue accepts an entry, with a marker before the first and before the first whose TIME has wrapped; a marker that
finds no place stays due (R356). -/
def State.qAccept (s : State) (q : Nat) (e : QEnt) : State :=
  let x := s.queue q
  let hi := e.time / 2 ^ 32
  let s := if (x.first ∨ hi ≠ x.lastHi) ∧ s.qOpen q ∧ !s.qFull q then
      (s.setQueue q { x with first := false, lastHi := hi }).qKeep q ⟨e.taken, e.time, false, false, false, 0, 0x7F, 0⟩
    else s
  s.qTake q e

/-- Entries of the ingress buffer taken in order, one per 2 ns from the instant `at'`; `g` follows each. -/
def State.qAcceptAll (g : State → State) (s : State) (q at' : Nat) : List QEnt → State
  | [] => s
  | e :: t => State.qAcceptAll g (g (s.qAccept q { e with taken := at' + 2 })) q (at' + 2) t

/-- The ingress buffer drains at one entry per 2 ns up to an instant (R357). -/
def State.qFlow (g : State → State) (s : State) (q now : Nat) : State :=
  let x := s.queue q
  let n := (now - x.ingAt) / 2
  let rest := x.ingress.drop n
  (s.setQueue q { x with ingress := rest, ingAt := if rest = [] then max now x.ingAt else x.ingAt + 2 * n }).qAcceptAll g q
    x.ingAt (x.ingress.take n)

/-- An entry reaches a queue's ingress buffer of 64; one too many is dropped, counted, and marked by LOSS (R357). -/
def State.qPush (s : State) (q : Nat) (e : QEnt) : State :=
  let x := s.queue q
  if s.qstate q = 0 then s
  else if 64 ≤ x.ingress.length then s.qLose q
  else s.setQueue q { x with ingress := x.ingress ++ [e] }

/-- Entries that have arrived reach the ingress buffer at their instants, which drains between them. -/
def State.qArrive (g : State → State) (s : State) (q now : Nat) : List (Nat × QEnt) → State
  | [] => s.qFlow g q now
  | (a, e) :: t => State.qArrive g ((s.qFlow g q a).qPush q e) q now t

/-- A queue is brought up to an instant; `g` follows each entry that it takes. -/
def State.qCatch (g : State → State) (s : State) (q now : Nat) : State :=
  let x := s.queue q
  (s.setQueue q { x with arr := x.arr.filter (fun a => decide (now < a.1)) }).qArrive g q now
    (x.arr.filter (fun a => decide (a.1 ≤ now)))

/-- An entry sets out for a queue that is not off, to arrive at an instant (R346, R354). -/
def State.qSend (s : State) (q arrives : Nat) (e : QEnt) : State :=
  let x := s.queue q
  if s.qstate q = 0 then s
  else s.setQueue q { x with
    arr := x.arr.filter (fun a => decide (a.1 ≤ arrives)) ++ (arrives, e) :: x.arr.filter (fun a => decide (arrives < a.1)) }

/-- A source event of the enabled triggers that `named` picks (R352): each fires DELAY later. Events older than the
longest DELAY are forgotten. -/
def State.trigEvent (s : State) (named : Nat → Bool) (at' : Nat) : State :=
  if s.bit PWR_STATUS.SLEEP then s
  else
    let new := ((List.range 16).filter (fun n => s.biti ADC_TRIG_CFG_t.EN n && named n)).map (fun n => (n, at'))
    { s with adc := { s.adc with fire := s.adc.fire.filter (fun x => decide (s.tm.e ≤ x.2 + 65536)) ++ new } }

/-- A capture event (R358): every enabled capture queue that waits for it and whose ADC_Q_CAP_q names it counts its
POST entries from here; at shed level 4 none starts. -/
def State.captureEvent (s : State) (named : State → Nat → Bool) : State :=
  if 4 ≤ s.rd CLK_TICK_STATUS.SHED_LEVEL then s
  else
    (List.range 8).foldl (fun s q =>
      if s.rdi ADC_Q_STATUS_q.STATE q = 2 ∧ named s q then
        let s := State.qCatch id s q s.tm.e
        (s.wri ADC_Q_STATUS_q.STATE q 3).setQueue q { s.queue q with post := s.rdi ADC_Q_CFG_q.POST q }
      else s) s

/-- The phases of a mask are blocked at once, with /BK/ (R286, R287, R391); no block waits for a boundary any more. -/
def State.blockNow (s : State) (ph : Nat) : State :=
  let s := (s.sendBk ph).blockPhases ph
  { s with slc := { s.slc with blkPend := [false, false, false] } }

/-- Act with a scope (R391, R392): 1 phase block of `phases`, 2 converter block, 3 safe state, for bits `m` of a latch
field. Scopes combine into their union; one that asserts the breaker outputs makes it the safe state, which asserts
TRIP_OUT_N (R395). `sched` marks the scheduled sources of R394, which send no /BK/ and block from the next tick boundary;
a source that is not one of them and acts while such a block waits sends /BK/ and blocks at once. -/
def State.actScope (s : State) (f : Fld) (m scope phases : Nat) (sched : Bool) : State :=
  let sc := s.rd SLC_BLOCK_STATUS.SCOPE
  let ph := s.rd SLC_BLOCK_STATUS.PHASES
  let s := ((s.latch f m).cancelRelease).captureEvent (fun s q => s.biti ADC_Q_CAP_q.SLC q)
  let ph' := if scope = 1 then ph ||| phases else 7
  let sc' := if scope = 3 ∨ sc = 3 then 3 else if ph' = 7 then 2 else 1
  let s := if scope = 3 ∧ s.rd SLC_BLOCK_STATUS.BRK = 0 then
      { (s.wr SLC_BLOCK_STATUS.BRK 1).showBrk with slc := { s.slc with brkAt := s.tm.e } } else s
  let s := if sc' = 3 ∧ sc ≠ 3 then s.emit (.tripOut true) else s
  if sc' = sc ∧ ph' = ph then (if !sched ∧ s.slc.blkPend.any id then s.blockNow ph' else s)
  else
    let s := ((s.wr SLC_BLOCK_STATUS.SCOPE sc').wr SLC_BLOCK_STATUS.PHASES ph').inc SLC_BLOCK_STATUS.BLOCKS 1
    let s := if sched then { s with slc := { s.slc with blkPend := [bitOf ph' 0, bitOf ph' 1, bitOf ph' 2] } } else s.blockNow ph'
    s.post 0x40 [(24, 1, sc'), (25, 1, ph'), (28, 4, s.firstWord), (32, 4, s.rd SLC_FIRST_TIME.TIME)]

/-- Enter the safe state for a latch field (R41, R391). -/
def State.safeState (s : State) (f : Fld) : State := s.actScope f 1 3 7 false

/-- Send a cell block to one cell; it latches no bit (R411). A cell the part does not have takes none (R4). -/
def State.blockCell (s : State) (c : Nat) : State :=
  if s.cellCount ≤ c then s
  else
  (s.updCell c (fun x => { x with svc := { x.svc with blk := true, cellBlk := true } })).sendOrder (ringOf c) (bkCodes (posOf c))

/-! ### Records of cells -/

/-- HGS_PHASE_COUNT takes the cells in service (R69, R317). -/
def State.phaseCounts (s : State) : State :=
  ((s.wr HGS_PHASE_COUNT.L1 (s.inService 0).length).wr HGS_PHASE_COUNT.L2 (s.inService 1).length).wr
    HGS_PHASE_COUNT.L3 (s.inService 2).length

/-- Post a CELL_EVENT record and count it for the cell (R318, R340, R520). -/
def State.cellEvent (s : State) (c reason detail : Nat) (serial : Nat) : State :=
  (s.inci JOIN_CELL_STATUS_n.EVENTS c 1).post 0x20
    [(24, 2, c), (26, 1, reason), (27, 1, detail), (28, 1, s.sstate c), (29, 1, (s.inService (s.phaseOf c)).length),
     (30, 1, s.rd HGS_RATING_STATUS.DERATE_ROW), (32, 8, serial)]

/-- Post a LINK_EVENT record: ring, loop (2 for the ring), old and new state (R520). -/
def State.linkEvent (s : State) (r loop old new : Nat) : State :=
  s.post 0x21 [(24, 1, r), (25, 1, loop), (26, 1, old), (27, 1, new), (28, 1, s.rdi LINK_RING_STATUS_r.WRAP_POS r)]

/-- Post a CLOCK record (R654). -/
def State.clockEvent (s : State) (code src : Nat) (arg : Int) : State := s.post 0x70 [(24, 1, code), (25, 1, src), (28, 4, arg)]

/-- Post a POWER record (R655). -/
def State.powerEvent (s : State) (code arg : Nat) : State := s.post 0x71 [(24, 1, code), (25, 1, s.stage), (28, 4, arg)]

/-- Post a TRIAD_EVENT record (R520). -/
def State.triadEvent (s : State) (reason member kind addr arg : Nat) : State :=
  s.post 0x50 [(24, 1, reason), (25, 1, member), (26, 1, kind), (28, 4, addr), (32, 4, arg)]

/-- The life-cycle state is COMMISSIONING (R15, R650). -/
def State.commissioning (s : State) : Bool := s.rd LC_STATE.STATE == 2

/-! ### Breaks in evaluation -/

/-- The device-checked conditions of R442. -/
def State.silConditions (s : State) : Bool :=
  let ty (n : Nat) := s.rdi SAFE_IN_CFG_n.TYPE n
  let ins := List.range 8
  s.rd LC_STATE.STATE == 3 && s.bit SAFE_STATUS.CONFIRMED && !s.bit SAFE_STATUS.CV_ERR &&
  ins.any (fun n => ty n == 1) && ins.any (fun n => ty n == 2) && ins.any (fun n => ty n == 4) &&
  ins.all (fun n => ty n == 0 || ty n == 4 || s.biti SAFE_IN_CFG_n.ANTI n || s.biti SAFE_IN_CFG_n.TP_EN n) &&
  s.rd TRI_STATUS.HELD == 0

/-- Show SIL_OK (R442, R453). -/
def State.showSil (s : State) : State := s.wr SAFE_STATUS.SIL_OK (b2n s.silConditions)

/-- Times that a break in evaluation restarts (R704). -/
def Law.breakTimes (l : Law) : Law :=
  { l with
    trk := { l.trk with lockFor := none, lossFor := none }
    sup := { l.sup with okFor := none, enterFor := none, enterOk := false, timers := [] }
    cur := { l.cur with overTicks := 0 }
    mir := { l.mir with badFor := 0, rocofFor := none, restart := true } }

/-- Evaluation breaks off: sleep, a debug halt, a restart of the triad. What must hold for a time counts anew from the next
evaluation, and ENTER_OK, whose DELAY starts again, reads 0 (R174, R704). -/
def State.breakTimes (s : State) : State :=
  { s with
    law := s.law.breakTimes
    lawC := s.lawC.breakTimes
    tm := { s.tm with broke := true }
    sched := { s.sched with upSince := [none, none, none, none] } }.wr FRT_STATUS.ENTER_OK 0

/-- The source of the references changes in both copies of the law (R167): grid-forming or not, with its status. -/
def State.setForming (s : State) (on : Bool) : State :=
  let g (l : Law) : Law := { l with src := { l.src with gfm := on, fresh := true, back := !on, cut := 0 } }
  ({ s with law := g s.law, lawC := g s.lawC }).wr SYNC_STATUS.GFM (b2n on)

/-- Below B5 the device runs grid-following only (R52): a grid-forming mode in force ends. GFM_REQ stands, and acts again
from B5 on (log entry 97). -/
def State.dropForming (s : State) : State := if s.law.src.gfm then s.setForming false else s

end Sys2Proof.Machine
end

