-- ==== Sys2Proof/Machine/Num.lean ====
section
/-! DEFINITION. Arithmetic of the law and of shown values: division, nearest steps, complex numbers (R117; log
entries 1 and 2). -/
namespace Sys2Proof.Machine

/-- Division; by zero the result is open (log entry 1). -/
def divR (a b : Rat) : Rat := if b = 0 then Config.divZero a else a / b

/-- The nearest step to a value, as registers and records show it; a value halfway between two steps goes either way,
by the place `site` that shows it (log entry 2). -/
def nearR (site : Nat) (x : Rat) : Int :=
  let d := x - x.floor
  if d < 1 / 2 then x.floor
  else if 1 / 2 < d then x.floor + 1
  else if Config.tieUp site x then x.floor + 1 else x.floor

/-- The nearest step, clamped to a range. -/
def showR (site : Nat) (lo hi : Int) (x : Rat) : Int := clampI lo hi (nearR site x)

/-- Sum of complex numbers. -/
def Cx.add (a b : Cx) : Cx := ⟨a.re + b.re, a.im + b.im⟩

/-- Difference of complex numbers. -/
def Cx.sub (a b : Cx) : Cx := ⟨a.re - b.re, a.im - b.im⟩

/-- Product of complex numbers. -/
def Cx.mul (a b : Cx) : Cx := ⟨a.re * b.re - a.im * b.im, a.re * b.im + a.im * b.re⟩

/-- The conjugate. -/
def Cx.conj (a : Cx) : Cx := ⟨a.re, -a.im⟩

/-- A real multiple. -/
def Cx.scale (k : Rat) (a : Cx) : Cx := ⟨k * a.re, k * a.im⟩

/-- The square of the magnitude. -/
def Cx.norm2 (a : Cx) : Rat := a.re * a.re + a.im * a.im

/-- The magnitude. -/
def Cx.abs (a : Cx) : Rat := if a.re = 0 ∧ a.im = 0 then 0 else Config.sqrt a.norm2

/-- Unit vector at an angle. -/
def Cx.cis (t : Rat) : Cx := if t = 0 then ⟨1, 0⟩ else ⟨Config.cos t, Config.sin t⟩

/-- Quotient of complex numbers; a zero divisor is open in each part. -/
def Cx.div (a b : Cx) : Cx :=
  let n := a.mul b.conj
  ⟨divR n.re b.norm2, divR n.im b.norm2⟩

/-- Angle in (−π, π]. -/
def Cx.arg (a : Cx) : Rat := Config.atan2 a.im a.re

/-- Clamped to a magnitude, angle kept. -/
def Cx.limit (m : Rat) (a : Cx) : Cx := if a.norm2 ≤ m * m then a else a.scale (divR m a.abs)

/-- Sum of complex numbers in a list. -/
def Cx.sum (l : List Cx) : Cx := l.foldl Cx.add Cx.zero

end Sys2Proof.Machine
end

