-- ==== Sys2Proof/Machine/AuxOps.lean ====
section
/-! DEFINITION. Entries into the states of the motor channels, which the fabric, the short-circuit detectors and the
drives' own commands share (16_thermal_aux_drives.md, R588 to R599). -/
namespace Sys2Proof.Machine
open Reg

/-- A motor channel's record. -/
def State.ach (s : State) (m : Nat) : AuxCh :=
  s.aux.getD m AuxCh.init

/-- Change a motor channel's record. -/
def State.updAch (s : State) (m : Nat) (g : AuxCh → AuxCh) : State := { s with aux := s.aux.set m (g (s.ach m)) }

/-- The state of a motor channel: 0 OFF, 1 DIAG, 2 ALIGN, 3 RAMP, 4 RUN, 5 DECEL, 6 FAULT (R614). -/
def State.astate (s : State) (m : Nat) : Nat := s.rdi AUX_STATUS_m.STATE m

/-- Post an AUX_DRIVE record; AUX_STATUS_m.CODE keeps the last code (R598, R614). -/
def State.auxPost (s : State) (m code arg : Nat) : State :=
  (s.wri AUX_STATUS_m.CODE m code).post 0x61 [(24, 1, m), (25, 1, code), (28, 4, arg)]

/-- AUX_HOLDm turns off 10 µs after the entry into OFF or FAULT (R588). -/
def State.auxHolds (s : State) : State :=
  (List.range 2).foldl (fun s m =>
    match (s.ach m).holdOff with
    | some t =>
      if t ≤ s.tm.e then ((s.wri AUX_STATUS_m.HOLD m 0).updAch m (fun x => { x with holdOff := none })).emit (.auxHold m false)
      else s
    | none => s) s

/-- A channel enters OFF (0) or FAULT (6) with a code of R598: the cap ends, AUX_HOLDm follows its switches 10 µs later,
one record is posted (R588, R591, R595). -/
def State.auxEnter (s : State) (m st code arg : Nat) : State :=
  let s := (s.wri AUX_STATUS_m.STATE m st).wri AUX_STATUS_m.CAP m 0
  let s := s.updAch m (fun x => { x with
    since := s.tm.e, holdOff := some (s.tm.e + 10000), ref := 0, integ := 0, iq := 0, xd := 0, xq := 0, skips := 0,
    agree := none, keAt := none, toFault := false, diagOnly := false })
  s.auxPost m code arg

/-- A channel enters OFF or FAULT, its switches turned off through the normal sink (R588, R591). -/
def State.auxDown (s : State) (m st code arg : Nat) : State := (s.emit (.driveOff m)).auxEnter m st code arg

/-- A route of R396 or R416 turns off a channel: OFF with code TRIP_OFF and SLC_TRIP_LATCH, until START (R599). -/
def State.tripOff (s : State) (m : Nat) : State :=
  let s := s.updAch m (fun x => { x with resume := false })
  if s.astate m = 0 then s.emit (.driveOff m) else s.auxDown m 0 12 s.latchWord

/-- Turn off the motor channels that a route names (R396). -/
def State.driveOff (s : State) (d0 d1 : Bool) : State :=
  let s := if d0 then s.tripOff 0 else s
  if d1 then s.tripOff 1 else s

/-- A short circuit puts the channel in FAULT with code SC and its legs, from any state (R599); its switches go off as R405
says. -/
def State.auxShort (s : State) (m : Nat) : State :=
  let legs := if m = 1 then s.rd SLC_DRV_SC_STATUS.LEGS1 else s.rd SLC_DRV_SC_STATUS.LEGS0
  (s.updAch m (fun x => { x with resume := false })).auxEnter m 6 13 legs

/-- A channel goes to DECEL from any state in which it drives its motor (R596). -/
def State.auxDecel (s : State) (m : Nat) : State :=
  let st := s.astate m
  if st = 2 ∨ st = 3 ∨ st = 4 then
    ((s.wri AUX_STATUS_m.STATE m 5).wri AUX_STATUS_m.CAP m 0).updAch m (fun x => { x with
      since := s.tm.e
      ref := if st = 4 then x.ref else (s.rdi AUX_STATUS_m.SPEED m : Rat)
      keAt := none })
  else s

/-- STOP, or the die-to-die link lost while the main die is in reset (R596): a driving channel goes to DECEL; one in DIAG has
nothing to slow and ends in OFF; one that VAUX_UV stopped does not start again. -/
def State.auxStop (s : State) (m : Nat) : State :=
  let s := s.updAch m (fun x => { x with resume := false })
  if s.astate m = 1 then s.auxDown m 0 3 0 else s.auxDecel m

end Sys2Proof.Machine
end

