-- ==== Sys2Proof/Machine/Power.lean ====
section
/-! DEFINITION. Main power, reset, wake, the boot image's persistence, the key fuse, the oasis cold start and trim
(17_clocks_power_lifecycle.md, R631 to R652). The stages of bring-up, sleep and shutdown are in Bringup.lean. -/
namespace Sys2Proof.Machine
open Reg

/-- The bring-up stage changes, with its POWER record (R634, R655). -/
def State.setStage (s : State) (n : Nat) : State :=
  let old := s.stage
  (s.wr HOST_STATUS.STAGE n).powerEvent 1 old

/-- A wake source acts (R641): the bit of PWR_WAKE_EN that woke the device is shown and a POWER record posted; the tick
restarts at the next boundary, and descriptors run once B4 is passed again (R501). -/
def State.wake (s : State) (bit : Nat) : State :=
  let s := ((s.wr PWR_STATUS.SLEEP 0).wr HOST_STATUS.SLEEP 0).wr PWR_STATUS.WAKE_SRC bit
  let s := { s with pwr := { s.pwr with waking := true, wakePend := true } }
  s.powerEvent 3 bit

/-- The bit of PWR_WAKE_EN of a wake source (R664). -/
def wakeBit : WakeSrc → Nat
  | .doorbell => 0
  | .ring => 1
  | .safety => 2
  | .alarm => 3

/-- A wake source is enabled; the safety input cannot be disabled (R641). -/
def State.wakeOn (s : State) : WakeSrc → Bool
  | .doorbell => s.bit PWR_WAKE_EN.DOORBELL
  | .ring => s.bit PWR_WAKE_EN.RING
  | .safety => true
  | .alarm => s.bit PWR_WAKE_EN.ALARM

/-- Wake the device if it sleeps and the source is enabled. -/
def State.tryWake (s : State) (w : WakeSrc) : State :=
  if s.bit PWR_STATUS.SLEEP && s.wakeOn w then s.wake (wakeBit w) else s

/-- WAKE (R641). -/
def execWake (src : WakeSrc) (t : Nat) (s : State) : Host.Outcome State Fault Refusal :=
  .next (s.live fun s => (s.moveTo t).tryWake src)

/-- A key of the register table belongs to the fields that main power loss does not take (R18): identity and life
cycle from OTP, the keep-alive block, the stored BIST result. -/
def kept (k : Nat) : Bool :=
  let b := k / 32 / 0x10000
  b == 0 || b == 1 || b == 6 || (b == 7 && k != BIST_STATUS.STARTUP.key 0)

/-- Main power-on (R631, R701): every field takes its Reset column entry; OTP, the oasis domain, the boot flash and the
journal keep what they hold. E is set to 0 at B1 (R624), and the outage counter stops (R644). -/
def State.powerOn (s : State) : State :=
  let r := State.reset
  let base := r.regs.filter (fun kv => !kept kv.1)
  let regs := (s.regs.filter (fun kv => kept kv.1)).foldl (fun t kv => tput regDefault t kv.1 kv.2) base
  let n : State := { r with
    pending := s.pending
    out := s.out
    regs := regs
    jr := { s.jr with flags := s.jr.flags ++ s.hst.evq.flatMap (fun kv => kv.2.filter (fun e => e.ty == 0x81)) }
    pwr := { r.pwr with
      flash := s.pwr.flash
      fused := s.pwr.fused
      rngErased := s.pwr.rngErased
      oasis := s.pwr.oasis
      vddio := true
      supply := s.pwr.supply
      outMs := s.pwr.outMs
      outSec := s.pwr.outSec
      oscTrim := s.pwr.oscTrim } }
  let n := ((n.wr KA_STATUS.COUNTING 0).showBrk).emit (.tripOut true)
  if s.pwr.railReset then (n.wr PWR_STATUS.RAIL_RESET 1).powerEvent 4 0 else n

/-- MAIN_POWER_ON (R631): main rails in range for 1 ms with RESET_N high. -/
def execMainPowerOn (s : State) : Host.Outcome State Fault Refusal :=
  .next (if s.pwr.mainOn then s else s.powerOn)

/-- VDDIO_33 is absent: the aux-die logic is in reset and every gate output is low (R685). -/
def State.auxDead (s : State) : State :=
  (List.range 2).foldl (fun s m =>
    ((((s.wri AUX_STATUS_m.STATE m 0).wri AUX_STATUS_m.HOLD m 0).updAch m (fun _ => AuxCh.init)).emit (.driveOff m)).emit (.auxHold m false)) s

/-- RAIL_RESET (R632): the main die is reset at once, the rings fall silent and BRK_TRIP_B is asserted; with
the die-to-die link lost the motors decelerate (R596); without a
committed power-fail snapshot the next start reports it. While VDDIO_33 is absent, which an OASIS_TICK brings (log entry
118), the breaker outputs read 0 and the aux die is in reset (R679, R685). -/
def execRailReset (s : State) : Host.Outcome State Fault Refusal :=
  let s' := s.live fun s => (((s.wr SLC_BLOCK_STATUS.BRK 1).showBrk).auxStop 0).auxStop 1
  let s' := if s.pwr.vddio then s' else s'.auxDead
  .next { s' with pwr := { s'.pwr with mainOn := false, railsOk := false, railReset := s.pwr.railReset || (s.pwr.mainOn && !s.pwr.pfDone) } }

/-- RESET_N_ASSERTED (R409, R631): the main die is held in reset until RESET_N is high again, with the breaker outputs
asserted. -/
def execResetNAsserted (s : State) : Host.Outcome State Fault Refusal :=
  let s := s.live fun s => (((s.wr SLC_BLOCK_STATUS.BRK 1).showBrk).auxStop 0).auxStop 1
  .next { s with pwr := { s.pwr with mainOn := false, resetN := false } }

/-! ### The boot image (R638) -/

/-- The 32-bit field at an offset of an image's bytes. -/
def imgWord (l : List Byte) (off : Nat) : Nat := ofBytes ((l.drop off).take 4)

/-- The bytes of the active program bank's image (R459, R480). -/
def State.activeImage (s : State) : List Byte :=
  let b := if s.rd TRI_STATUS.ACTIVE_BANK = 0 then s.tri.bank0 else s.tri.bank1
  memBytes b 0 (min 131072 (ofBytes (memBytes b 4 4)))

/-- PWR_BOOT_CTRL.PERSIST (R638): refused while STAGING or PENDING and in RETURNED, with RESULT 3. -/
def State.askPersist (s : State) : State :=
  if s.bit TRI_FW_STATUS.STAGING ∨ s.bit TRI_FW_STATUS.PENDING ∨ s.rd LC_STATE.STATE = 4 then
    (s.wr PWR_BOOT_CTRL.RESULT 3).refuse PWR_STATUS.CFG_ERR
  else ({ s with pwr := { s.pwr with persistAt := some s.tm.e } }).wr PWR_BOOT_CTRL.BUSY 1

/-- PERSIST (R638). -/
def execPersist (t : Nat) (s : State) : Host.Outcome State Fault Refusal :=
  .next (s.live fun s => (s.moveTo t).askPersist)

/-- PERSIST_DONE (R638): the slot not named by SELECT holds the image; with a good read-back the boot header names
it. -/
def execPersistDone (ok : Bool) (s : State) : Host.Outcome State Fault Refusal :=
  .next <| s.live fun s =>
    match s.pwr.persistAt with
    | none => s
    | some _ =>
      let slot := 1 - s.pwr.flash.select
      let img := s.activeImage
      let fl := s.pwr.flash
      let fl := if slot = 0 then { fl with slot0 := img } else { fl with slot1 := img }
      let fl := if ok then { fl with select := slot } else fl
      let s := { s with pwr := { s.pwr with persistAt := none, flash := fl } }
      let s := (s.wr PWR_BOOT_CTRL.BUSY 0).wr PWR_BOOT_CTRL.RESULT (if ok then 1 else 2)
      let s := if ok then s.wr PWR_BOOT_CTRL.SELECT slot else s
      s.powerEvent 8 (if ok then 1 else 2)

/-! ### Key fuse, oasis cold start, oscillator trim -/

/-- FWKEY_FUSE (R651): the SHA-256 of the boot header's public key is fused, once, in PROVISIONED or COMMISSIONING. -/
def execFwkeyFuse (s : State) : Host.Outcome State Fault Refusal :=
  .next <| s.live fun s =>
    let st := s.rd LC_STATE.STATE
    if (st = 1 ∨ st = 2) ∧ s.pwr.fused = none then
      ({ s with pwr := { s.pwr with fused := some (Config.sha256 s.pwr.flash.pubKey) } }).wr LC_STATE.FWKEY 1
    else s.refuse PWR_STATUS.CFG_ERR

/-- OASIS_COLD_START (R642): every keep-alive field takes 0 but COLD, which is 1; the outage is unknown (R644). -/
def execOasisColdStart (s : State) : Host.Outcome State Fault Refusal :=
  let regs := s.regs.filter (fun kv => kv.1 / 32 / 0x10000 != 6 && kv.1 != BIST_STATUS.VALID.key 0 && kv.1 != BIST_STATUS.FAIL.key 0)
  let s := { s with regs := regs, pwr := { s.pwr with oasis := true, outMs := 0, outSec := 0, oscTrim := 0, ctSum := 0 } }
  .next ((s.wr KA_STATUS.COLD 1).wr KA_OUTAGE.SECONDS 0xFFFFFFFF)

/-- OASIS_TRIM (R643): every 60 s while main power is present the oscillator is trimmed against E; the operand is the
deviation found, in ppm. -/
def execOasisTrim (ppm : Int) (t : Nat) (s : State) : Host.Outcome State Fault Refusal :=
  .next <| s.live fun s =>
    let s := s.moveTo t
    if s.pwr.trimAt + 60000000000 ≤ s.tm.e then
      { s with pwr := { s.pwr with trimAt := s.tm.e, oscTrim := ppm } }
    else s

end Sys2Proof.Machine
end

