-- ==== Sys2Proof/Machine/Clock.lean ====
section
/-! DEFINITION. The meanings of the commands of the references, loops, time registers and the sync pulse
(17_clocks_power_lifecycle.md, R615 to R630). -/
namespace Sys2Proof.Machine
open Reg

/-! ### References and their vote -/

/-- Source 0 XTAL, 1 REF_A, 2 REF_B is enabled; XTAL always is (R615). -/
def State.refOn (s : State) (i : Nat) : Bool :=
  i == 0 || (i == 1 && s.bit CLK_REF_CFG.REFA_EN) || (i == 2 && s.bit CLK_REF_CFG.REFB_EN)

/-- A source is enabled and not LOST. -/
def State.refValidNow (s : State) (i : Nat) : Bool := s.refOn i && !bitOf (s.rd CLK_REF_STATUS.LOST) i

/-- A source qualifies: enabled, valid and not out-voted for HOLDOFF (R617). -/
def State.qualifies (s : State) (i : Nat) : Bool :=
  s.refValidNow i && !bitOf (s.rd CLK_REF_STATUS.OUT) i &&
  match s.clk.qual.getD i none with
  | some t => decide (t + s.rd CLK_REF_CFG.HOLDOFF * 1000000000 ≤ s.tm.e)
  | none => false

/-- Start or stop the qualification time of every source (R617). -/
def State.qualTrack (s : State) : State :=
  let q := (List.range 3).map (fun i =>
    if s.refValidNow i && !bitOf (s.rd CLK_REF_STATUS.OUT) i then some ((s.clk.qual.getD i none).getD s.tm.e) else none)
  { s with clk := { s.clk with qual := q } }

/-- The candidate order of R617; code 3 names no source. -/
def State.refOrder (s : State) : List Nat :=
  [s.rd CLK_REF_CFG.FIRST, s.rd CLK_REF_CFG.SECOND, s.rd CLK_REF_CFG.THIRD].filter (· != 3)

/-- The selection rule of R617: the power-on move, the loss of the selected source, REVERT. -/
def State.reselect (s : State) : State :=
  let sel := s.rd CLK_REF_STATUS.SEL
  let best := s.refOrder.find? s.qualifies
  let bad := bitOf (s.rd CLK_REF_STATUS.LOST) sel || bitOf (s.rd CLK_REF_STATUS.OUT) sel
  let earlier : Bool := match best with
    | some b => (s.refOrder.takeWhile (· != sel)).contains b
    | none => false
  match best with
  | none => s
  | some b =>
    if !s.clk.moved then
      if b = sel then { s with clk := { s.clk with moved := true } }
      else { s with clk := { s.clk with moveTo := some b } }
    else if b ≠ sel ∧ (bad ∨ (s.bit CLK_REF_CFG.REVERT ∧ earlier)) then
      { s with clk := { s.clk with moveTo := some b } }
    else s

/-- A loop loses lock: LOCKED 0, COAST 1, one CLOCK record (R623). -/
def State.loopCoast (s : State) (p : Nat) : State :=
  let s' := (s.wr CLK_PLL_STATUS.LOCKED (clrBit (s.rd CLK_PLL_STATUS.LOCKED) p)).wr CLK_PLL_STATUS.COAST
    (setBit (s.rd CLK_PLL_STATUS.COAST) p)
  if bitOf (s.rd CLK_PLL_STATUS.LOCKED) p then (s'.inc CLK_PLL_STATUS.LOSS 1).clockEvent 9 (4 + p) 0 else s'

/-- All three loops coast. -/
def State.allCoast (s : State) : State := ((s.loopCoast 0).loopCoast 1).loopCoast 2

/-- N_nom of each loop for a 25 MHz and a 10 MHz source (R620). -/
def pllNom (p : Nat) (xtal : Bool) : Nat :=
  if xtal then [160, 200, 130].getD p 0 else [400, 500, 325].getD p 0

/-- INT and FRAC of a loop for a source with fractional offset `ppb` (R621). -/
def pllValues (p : Nat) (xtal : Bool) (ppb : Int) : Nat × Nat :=
  let n : Rat := (pllNom p xtal : Rat) * (1 - (ppb : Rat) / 1000000000)
  let int := n.floor
  let frac := roundR ((n - int) * 16777216)
  (int.toNat, frac.toNat)

/-- The feedback values are computed anew and wait for their boundary (R621). -/
def State.newDividers (s : State) : State :=
  let xtal := s.rd CLK_REF_STATUS.SEL == 0
  let ppb := if xtal then s.clk.comp + s.rds CLK_XTAL_TRIM.PPB else 0
  { s with clk := { s.clk with divPend := some ((List.range 3).map (fun p => pllValues p xtal ppb)) } }

/-- REF_VOTE_UPDATE (R616 to R619), each 1 ms: the 10 ms mean differences XTAL − REF_A, XTAL − REF_B and REF_A − REF_B
in 0.001 ppm. -/
def execRefVoteUpdate (dxa dxb dab : Int) (t : Nat) (s : State) : Host.Outcome State Fault Refusal :=
  .next <| s.live fun s =>
    let s := s.moveTo t
    let w : Int := (s.rd CLK_REF_CFG.WINDOW : Int) * 1000
    let d (i j : Nat) : Int :=
      match i, j with
      | 0, 1 => dxa | 1, 0 => -dxa | 0, 2 => dxb | 2, 0 => -dxb | 1, 2 => dab | 2, 1 => -dab | _, _ => 0
    let v := (List.range 3).filter s.refValidNow
    let far (i j : Nat) : Bool := decide (w < absI (d i j))
    let out (i : Nat) : Bool :=
      let u := (i + 1) % 3
      let x := (i + 2) % 3
      v.length == 3 && far i u && far i x && !far u x
    let pairs := [(0, 1), (0, 2), (1, 2)].filter (fun p => v.contains p.1 && v.contains p.2)
    let diff : Nat := (pairs.map (fun p => (absI (d p.1 p.2)).toNat)).foldl max 0
    let anyOut := (List.range 3).any out
    let suspect : Bool := decide (2 ≤ v.length) && !anyOut && pairs.any (fun p => far p.1 p.2)
    let newly := (List.range 3).filter (fun i => out i && !bitOf (s.rd CLK_REF_STATUS.OUT) i)
    let sel := s.rd CLK_REF_STATUS.SEL
    let agree := (List.range 3).map (fun i =>
      if bitOf (s.rd CLK_REF_STATUS.OUT) i && !far i ((i + 1) % 3) && !far i ((i + 2) % 3) then
        some ((s.clk.agree.getD i none).getD s.tm.e) else none)
    let s := { s with clk := { s.clk with agree := agree, diff := diff } }
    let s : State := newly.foldl (fun s i =>
      (s.wr CLK_REF_STATUS.OUT (setBit (s.rd CLK_REF_STATUS.OUT) i)).clockEvent 3 i (d i sel / 10)) s
    let s : State := (List.range 3).foldl (fun s i => s.wri CLK_REF_OFS_s.OFS i (unsg 16 (d i sel / 10))) s
    let s := (s.wr CLK_REF_STATUS.VOTE (v.length - 1)).wr CLK_REF_STATUS.DIFF_MAX (min 255 (diff / 1000))
    let s := if suspect ∧ !s.clk.suspect then s.clockEvent 6 sel (min 255 (diff / 1000)) else s
    let s := { s with clk := { s.clk with suspect := suspect } }
    let s : State := if suspect then s.wr CLK_REF_STATUS.REF_SUSPECT 1 else s
    let s : State :=
      if suspect ∧ 200000 ≤ diff ∧ s.rd CLK_REF_STATUS.COAST = 0 then
        (s.wr CLK_REF_STATUS.COAST 1).allCoast.clockEvent 7 sel (min 255 (diff / 1000))
      else s
    let calm := if (diff : Int) ≤ w then some (s.clk.calm.getD s.tm.e) else none
    ({ s with clk := { s.clk with calm := calm } }).qualTrack.reselect

/-- REF_LOST (R615, R617): an enabled source with no edge for 1 µs is LOST; the loops coast if it was selected. -/
def execRefLost (src : Fin 3) (t : Nat) (s : State) : Host.Outcome State Fault Refusal :=
  .next <| s.live fun s =>
    let s := s.moveTo t
    let i := src.val
    if !s.refOn i then s
    else
      let had := bitOf (s.rd CLK_REF_STATUS.LOST) i
      let s := { s with clk := { s.clk with edges := s.clk.edges.set i (some s.tm.e) } }
      let s := s.wr CLK_REF_STATUS.LOST (setBit (s.rd CLK_REF_STATUS.LOST) i)
      let s := if had then s else s.clockEvent 1 i 0
      let s := if s.rd CLK_REF_STATUS.SEL = i then s.allCoast else s
      s.qualTrack.reselect

/-- REF_VALID (R615): 1 s of uninterrupted edges makes a LOST source valid. -/
def execRefValid (src : Fin 3) (t : Nat) (s : State) : Host.Outcome State Fault Refusal :=
  .next <| s.live fun s =>
    let s := s.moveTo t
    let i := src.val
    if bitOf (s.rd CLK_REF_STATUS.LOST) i ∧ (s.clk.edges.getD i none).getD 0 + 1000000000 ≤ s.tm.e then
      ((s.wr CLK_REF_STATUS.LOST (clrBit (s.rd CLK_REF_STATUS.LOST) i)).clockEvent 2 i 0).qualTrack.reselect
    else s

/-- REF_READMIT (R616): an out-voted source that has agreed with both others for 10 s. -/
def execRefReadmit (src : Fin 3) (t : Nat) (s : State) : Host.Outcome State Fault Refusal :=
  .next <| s.live fun s =>
    let s := s.moveTo t
    let i := src.val
    match s.clk.agree.getD i none with
    | some a =>
      if bitOf (s.rd CLK_REF_STATUS.OUT) i ∧ a + 10000000000 ≤ s.tm.e then
        ((s.wr CLK_REF_STATUS.OUT (clrBit (s.rd CLK_REF_STATUS.OUT) i)).clockEvent 4 i 0).qualTrack.reselect
      else s
    | none => s

/-- REF_SELECT_MOVE (R617, R618): the waiting selection takes effect; the loops follow the new source. -/
def execRefSelectMove (t : Nat) (s : State) : Host.Outcome State Fault Refusal :=
  .next <| s.live fun s =>
    let s := s.moveTo t
    match s.clk.moveTo with
    | none => s
    | some b =>
      let old := s.rd CLK_REF_STATUS.SEL
      let s := (s.wr CLK_REF_STATUS.SEL b).inc CLK_REF_STATUS.MOVES 1
      let s := { s with clk := { s.clk with moveTo := none, moved := true } }
      let s := if s.rd CLK_REF_STATUS.COAST = 0 then s.wr CLK_PLL_STATUS.COAST 0 else s
      (s.newDividers).clockEvent 5 old b

/-- REF_COAST_END (R619): the largest pair difference has stayed within WINDOW for 10 s. -/
def execRefCoastEnd (t : Nat) (s : State) : Host.Outcome State Fault Refusal :=
  .next <| s.live fun s =>
    let s := s.moveTo t
    match s.clk.calm with
    | some c =>
      if s.rd CLK_REF_STATUS.COAST = 1 ∧ c + 10000000000 ≤ s.tm.e then
        ((s.wr CLK_REF_STATUS.COAST 0).wr CLK_PLL_STATUS.COAST 0).clockEvent 8 (s.rd CLK_REF_STATUS.SEL) 0
      else s
    | none => s

/-! ### Loops -/

/-- PLL_DIVIDER_UPDATE (R621, R622): the waiting values and seeds are taken by all three loops together. -/
def execPllDividerUpdate (s : State) : Host.Outcome State Fault Refusal :=
  .next <| s.live fun s =>
    match s.clk.divPend with
    | none => s
    | some vs =>
      let s := (List.range 3).foldl (fun s p =>
        let v := vs.getD p (0, 0)
        (s.wri CLK_PLL_INT_p.INT p v.1).wri CLK_PLL_FRAC_p.FRAC p v.2) s
      let lfsr := (List.range 3).map (fun p => (s.clk.seedPend.getD p none).getD (s.clk.lfsr.getD p 0))
      { s with clk := { s.clk with divPend := none, seedPend := [none, none, none], lfsr := lfsr } }

/-- PLL_LOCK_LOST (R623): a phase error beyond ±5 ns for 1 µs. -/
def execPllLockLost (p : Fin 3) (t : Nat) (s : State) : Host.Outcome State Fault Refusal :=
  .next <| s.live fun s => (s.moveTo t).loopCoast p.val

/-- PLL_LOCKED (R623): the phase error has held within ±1 ns for 100 µs; a loop that R619 or the loss of its reference
makes coast does not lock. -/
def execPllLocked (p : Fin 3) (t : Nat) (s : State) : Host.Outcome State Fault Refusal :=
  .next <| s.live fun s =>
    let s := s.moveTo t
    if s.rd CLK_REF_STATUS.COAST = 1 ∨ bitOf (s.rd CLK_REF_STATUS.LOST) (s.rd CLK_REF_STATUS.SEL) ∨
        bitOf (s.rd CLK_PLL_STATUS.LOCKED) p.val then s
    else
      ((s.wr CLK_PLL_STATUS.LOCKED (setBit (s.rd CLK_PLL_STATUS.LOCKED) p.val)).wr CLK_PLL_STATUS.COAST
        (clrBit (s.rd CLK_PLL_STATUS.COAST) p.val)).clockEvent 10 (4 + p.val) 0

/-- A write of CLK_PLL_SEED_p (R622, R659): a seed of 0 is refused; a written seed restarts the dither register at the
next divider update. -/
def State.writeSeed (s : State) (p v : Nat) : State :=
  if bits v 0 24 = 0 then s.refuse CLK_PLL_STATUS.CFG_ERR
  else
    let s := (s.wri CLK_PLL_SEED_p.DITHER_EN p (bits v 31 1)).wri CLK_PLL_SEED_p.SEED p (bits v 0 24)
    { s with clk := { s.clk with seedPend := s.clk.seedPend.set p (some (bits v 0 24)) } }

/-- CLK_PLL_SEED_WRITE (R622). -/
def execClkPllSeedWrite (p : Fin 3) (value : Nat) (s : State) : Host.Outcome State Fault Refusal :=
  .next (s.live fun s => s.writeSeed p.val value)

/-! ### Time registers -/

/-- A read of CLK_ELAPSED_LO latches the upper half for the reader. -/
def State.elapsedRead (s : State) (ag : Agent) : State :=
  ({ s with tm := { s.tm with latE := s.tm.latE.put ag (s.tm.e / 2 ^ 32 % 2 ^ 32) } }).emit
    (.readData ag CLK_ELAPSED_LO.E_LO.base (s.tm.e % 2 ^ 32))

/-- ELAPSED_READ (R624, R697): CLK_ELAPSED_LO is read and the upper half latched for the reader. -/
def execElapsedRead (ag : Agent) (s : State) : Host.Outcome State Fault Refusal := .next (s.live fun s => s.elapsedRead ag)

/-- A read of CLK_ALIGN_OFS_LO latches the upper half for the reader. -/
def State.alignRead (s : State) (ag : Agent) : State :=
  let o := unsg 64 s.tm.o.floor
  ({ s with tm := { s.tm with latO := s.tm.latO.put ag (o / 2 ^ 32) } }).emit
    (.readData ag CLK_ALIGN_OFS_LO.O_LO.base (o % 2 ^ 32))

/-- ALIGN_OFS_READ (R661, R697): CLK_ALIGN_OFS_LO is read and the upper half latched for the reader. -/
def execAlignOfsRead (ag : Agent) (s : State) : Host.Outcome State Fault Refusal := .next (s.live fun s => s.alignRead ag)

/-- ALARM (R627): E has reached CLK_ALARM while the alarm is armed. -/
def execAlarm (t : Nat) (s : State) : Host.Outcome State Fault Refusal :=
  .next <| s.live fun s =>
    let s := s.moveTo t
    if s.bit PWR_WAKE_EN.ALARM ∧ s.rd CLK_ALARM_HI.A_HI * 2 ^ 32 + s.rd CLK_ALARM_LO.A_LO ≤ s.tm.e then
      let s := (s.clockEvent 14 (s.freeVal 1 % 256) 0).used
      let s := if s.bit PWR_STATUS.SLEEP then s.wake 3 else s
      s.wr PWR_WAKE_EN.ALARM 0
    else s

/-! ### The sync pulse -/

/-- A write of SYNC_SEC (R628): SEC of the next expected edge. -/
def State.writeSec (s : State) (v : Nat) : State := (s.wr SYNC_SEC.NEXT v).wr SYNC_PPS_STATUS.SEC_VALID 1

/-- SYNC_SEC_WRITE (R628). -/
def execSyncSecWrite (value : Nat) (s : State) : Host.Outcome State Fault Refusal :=
  .next (s.live fun s => s.writeSec value)

/-- One expected edge is missing (R629, R630): the time base runs free, SEC goes on by one. -/
def State.ppsMiss (s : State) : State :=
  let run := s.clk.missRun + 1
  let s := { s with clk := { s.clk with slew := 0, slewLeft := none, missRun := run } }
  let s := (s.inc SYNC_PPS_STATUS.MISSING 1).clockEvent 13 8 run
  let s := if run = 3 then s.wr SYNC_PPS_STATUS.ALIGNED 0 else s
  s.wr SYNC_SEC.NEXT (s.rd SYNC_SEC.NEXT + 1)

/-- PPS_MISSING (R629): an expected edge unassigned 0.5 s after its instant. -/
def execPpsMissing (t : Nat) (s : State) : Host.Outcome State Fault Refusal :=
  .next <| s.live fun s =>
    let s := s.moveTo t
    if s.bit SYNC_CFG.EN ∧ s.bit SYNC_PPS_STATUS.SEC_VALID ∧
        (s.rd SYNC_SEC.NEXT : Int) * 1000000000 + 500000000 ≤ s.stime then s.ppsMiss
    else s

/-- `n` missing edges in a row. -/
def State.ppsMisses : Nat → State → State
  | 0, s => s
  | n + 1, s => State.ppsMisses n s.ppsMiss

/-- Saturation to a 32-bit two's complement number. -/
def sat32 (x : Int) : Int := clampI (-2147483648) 2147483647 x

/-- PPS_EDGE (R628 to R630): an edge at instant `t`, `n` periods of 100 ns after the previous one. Missing instants
before the nearest expected one are counted first. -/
def execPpsEdge (t n : Nat) (s : State) : Host.Outcome State Fault Refusal :=
  .next <| s.live fun s =>
    let s := s.moveTo t
    if !s.bit SYNC_CFG.EN then s
    else
      let near : Int := (s.stime + 500000000) / 1000000000
      let s := if s.bit SYNC_PPS_STATUS.SEC_VALID then s else s.writeSec near.toNat
      let s := State.ppsMisses (near - s.rd SYNC_SEC.NEXT).toNat s
      let sec := s.rd SYNC_SEC.NEXT
      let e : Int := s.stime - (sec : Int) * 1000000000
      let win : Int := (s.rd SYNC_CFG.SLEW_WINDOW : Int) * 1000
      let s := { s with clk := { s.clk with missRun := 0, lastS := some s.stime } }
      let s := s.wr SYNC_PPS_ERR.E (unsg 32 (sat32 e))
      let s :=
        if absI e ≤ win then
          let s := { s with clk := { s.clk with
              slew := clampR (-1 / 10000) (1 / 10000) (-(e : Rat) / 1000000000), slewLeft := none, cons := 0 } }
          let s := (s.wr SYNC_PPS_STATUS.SUSPECT 0).wr SYNC_PPS_STATUS.CONS 0
          if absI e ≤ 1000 then s.wr SYNC_PPS_STATUS.ALIGNED 1 else s
        else
          let same := decide (0 < s.clk.cons) && decide (absI ((n : Int) - 10000000) ≤ 1) &&
            decide (absI (e - s.clk.eprev) ≤ 100)
          let cons : Nat := if same then s.clk.cons + 1 else 1
          let s := { s with clk := { s.clk with
              slew := 0, slewLeft := none, eprev := e, cons := if cons = 3 then 0 else cons,
              stepPend := if cons = 3 then some e else s.clk.stepPend } }
          let s := (s.wr SYNC_PPS_STATUS.SUSPECT 1).wr SYNC_PPS_STATUS.CONS (if cons = 3 then 0 else cons)
          (s.wr SYNC_PPS_STATUS.ALIGNED 0).clockEvent 11 8 (sat32 e)
      s.wr SYNC_SEC.NEXT (sec + 1)

end Sys2Proof.Machine
end

