-- ==== Sys2Proof/Machine/MtrOps.lean ====
section
/-! DEFINITION. Metering operations that the link, the joins, the ticks and the host interface share: port counters, gaps,
leases, records and their slots (15_lease_metering.md). -/
namespace Sys2Proof.Machine
open Reg

/-! ### Records and their slots (R547, R556) -/

/-- A die's identity word of R547. -/
def State.dieWord (s : State) (x : Nat) : Nat :=
  s.rdi ID_LOT_x.LOT x + s.rdi ID_DIE_x.WAFER x * 2 ^ 32 + s.rdi ID_DIE_x.X x * 2 ^ 37 + s.rdi ID_DIE_x.Y x * 2 ^ 45 +
    s.rdi ID_DIE_x.REV x * 2 ^ 53

/-- Bytes 0 to 95 of a record, which its signature covers (R547, R549). -/
def State.recBody (s : State) (r : Rec) : List Byte :=
  let l := leBytes 1 r.kind ++ leBytes 1 1 ++ leBytes 2 r.flags ++ leBytes 2 r.cell ++ leBytes 8 r.rseq ++ leBytes 4 r.latch ++
    leBytes 4 r.boot ++ leBytes 4 r.outage ++ leBytes 8 r.elapsed ++ leBytes 8 r.wall ++ leBytes 4 r.calCv ++
    leBytes 8 (s.rd ID_SERIAL_LO.SERIAL + s.rd ID_SERIAL_HI.SERIAL * 2 ^ 32) ++ leBytes 8 (s.dieWord 0) ++
    leBytes 8 (s.dieWord 1) ++ r.values.flatMap (fun v => leBytes v.1 v.2)
  l ++ leBytes (96 - l.length) 0

/-- The 160 bytes of a record (R547). -/
def State.recBytes (s : State) (r : Rec) : List Byte :=
  let sig := r.sig.getD (0, 0)
  s.recBody r ++ leBytes 32 sig.1 ++ leBytes 32 sig.2

/-! ### The journal's map and what it holds (R553 to R555) -/

/-- The bytes of a signed counter. -/
def leInt (n : Nat) (x : Int) : List Byte := leBytes n (unsg (8 * n) x)

/-- The entry of a cell in a snapshot, 40 bytes (R554). -/
def SnapCell.bytes (x : SnapCell) : List Byte :=
  leBytes 8 x.eDis ++ leBytes 8 x.eChg ++ leBytes 8 x.qDis ++ leBytes 8 x.qChg ++ leInt 8 x.base

/-- A cell of which a snapshot holds nothing. -/
def SnapCell.none : SnapCell := ⟨0, 0, 0, 0, 0, false, false, 0⟩

/-- Offsets 4 to 10,223 of a snapshot slot (R554). Offsets 5 to 7, which the table leaves out, are written 0, and where the
two flags of a cell stand in their byte is Config's (log entry 121). -/
def Snap.body (x : Snap) : List Byte :=
  let cell (c : Nat) : SnapCell := tget (fun _ => SnapCell.none) x.cells c
  leBytes 4 x.kind ++ leBytes 8 x.gen ++ leBytes 4 x.latch ++ leBytes 4 x.boot ++ leBytes 8 x.elapsed ++
    (List.range 64).flatMap (fun r => leBytes 2 (x.ctrs.getD r 0)) ++
    (List.range 4).flatMap (fun g => (List.range 7).flatMap (fun i => leBytes 8 ((x.ac.getD g []).getD i 0))) ++
    (List.range 240).flatMap (fun c => (cell c).bytes) ++
    (List.range 240).flatMap (fun c => leBytes 1 (Config.cellFlags (cell c).gap (cell c).estim))

/-- The MAGIC of a valid slot (R554). -/
def snapMagic : Nat := 0x43495354

/-- The slot that holds a snapshot (R554, R555). -/
def Snap.slot (x : Snap) : SnapSlot := ⟨snapMagic, x, crc32c x.body⟩

/-- A slot is valid when its MAGIC and CRC are correct (R555). -/
def SnapSlot.valid (x : SnapSlot) : Bool := x.magic == snapMagic && x.crc == crc32c x.snap.body

/-- The snapshot of a slot, where it is valid. -/
def slotSnap (x : Option SnapSlot) : Option Snap := (x.filter SnapSlot.valid).map (fun y => y.snap)

/-- The newest valid snapshot is that of the valid slot with the highest GEN (R555). -/
def Journal.newest (j : Journal) : Option Snap :=
  match slotSnap j.slotA, slotSnap j.slotB with
  | some a, some b => if a.gen < b.gen then some b else some a
  | some a, none => some a
  | none, b => b

/-- A snapshot goes to the slot that does not hold the newest valid one (R555): slot B. -/
def Journal.toB (j : Journal) : Bool :=
  match slotSnap j.slotA, slotSnap j.slotB with
  | some a, some b => decide (b.gen ≤ a.gen)
  | some _, none => true
  | none, _ => false

/-- The first write of a snapshot sets the MAGIC of its slot to 0 (R555). -/
def Journal.openSlot (j : Journal) : Journal :=
  let shut (x : Option SnapSlot) : Option SnapSlot := x.map (fun y => { y with magic := 0 })
  if j.toB then { j with slotB := shut j.slotB } else { j with slotA := shut j.slotA }

/-- The last write of a snapshot sets the MAGIC (R555). -/
def Journal.putSnap (j : Journal) (x : Snap) : Journal :=
  if j.toB then { j with slotB := some x.slot } else { j with slotA := some x.slot }

/-- A lease entry that nothing has been written to. -/
def LeaseEntry.none : LeaseEntry := ⟨⟨0, 0, 0, 10000, 0, 0⟩, 0⟩

/-- The newest entry of a cell's lease (R555, R557). -/
def Journal.lease (j : Journal) (c : Nat) : LeaseEntry :=
  let a := tget (fun _ => LeaseEntry.none) j.leaseA c
  let b := tget (fun _ => LeaseEntry.none) j.leaseB c
  if a.gen < b.gen then b else a

/-- A lease entry is written to the copy that holds the older entry of the cell (R555). -/
def Journal.putLease (j : Journal) (c : Nat) (l : Lease) : Journal :=
  let a := tget (fun _ => LeaseEntry.none) j.leaseA c
  let b := tget (fun _ => LeaseEntry.none) j.leaseB c
  if a.gen < b.gen then { j with leaseA := tput (fun _ => LeaseEntry.none) j.leaseA c ⟨l, b.gen + 1⟩ }
  else { j with leaseB := tput (fun _ => LeaseEntry.none) j.leaseB c ⟨l, a.gen + 1⟩ }

/-- The FRAM address of record slot `k` (R553). -/
def recAddr (k : Nat) : Nat := 0xC000 + 168 * k

/-- The record slot that the next record takes: one that holds none, else that of the oldest consumed record (R556). -/
def Journal.freeSlot (j : Journal) : Nat :=
  match (List.range (min 2828 (j.recs.length + 1))).find? (fun k => j.recs.all (fun r => r.slot != k)) with
  | some k => k
  | none => ((j.recs.find? (fun x => x.consumed)).map (fun x => x.slot)).getD 0

/-- A record is written to a slot (R553, R555, R556). -/
def Journal.putRec (j : Journal) (r : Rec) : Journal :=
  let recs := (j.recs.filter (fun x => x.slot != r.slot)) ++ [r]
  { j with recs := recs, oldest := (recs.head?.map (fun x => x.rseq)).getD 0 }

/-- The journal as B2 reads it back (R557): snapshots, lease entries and records of which no byte at an address of `bad`
reads wrong, records whose CRC is good. -/
def Journal.readBack (j : Journal) (crc : Rec → Nat) (bad : List Nat) : Journal :=
  let ok (a n : Nat) : Bool := bad.all (fun x => decide (x < a ∨ a + n ≤ x))
  { j with
    formatted := j.formatted && ok 0 0x100
    slotA := if ok 0x1000 0x3000 then j.slotA else none
    slotB := if ok 0x4000 0x3000 then j.slotB else none
    leaseA := j.leaseA.filter (fun kv => ok (0x7000 + 32 * kv.1) 32)
    leaseB := j.leaseB.filter (fun kv => ok (0x9000 + 32 * kv.1) 32)
    recs := j.recs.filter (fun r => ok (recAddr r.slot) 168 && r.crc == crc r) }

/-! ### Posting records (R519, R546, R556) -/

/-- CIS_STATUS shows the slots (R577); FULL ends when a slot is free again. -/
def State.showCis (s : State) : State :=
  let n := (s.jr.recs.filter (fun r => !r.consumed)).length
  let s := (s.wr CIS_STATUS.UNCONSUMED n).wr CIS_STATUS.FREE (2828 - n)
  if s.rd CIS_STATUS.STATE = 3 ∧ n + s.mtr.queue.length < 2828 then s.wr CIS_STATUS.STATE 2 else s

/-- A new consumer counter of METER_RING consumes the records whose last entry it has passed (R556). -/
def State.consumeRecords (s : State) (r : Nat) : State :=
  if r ≠ s.rd HOST_EVT_CFG.METER_RING then s
  else
    let c := s.hostCtr r
    let passed (x : Rec) : Bool := x.posted.any (fun p => decide ((c + 65536 - p) % 65536 < 32768))
    let recs := s.jr.recs.map (fun x => { x with consumed := x.consumed || passed x })
    ({ s with jr := { s.jr with recs := recs } }).showCis

/-- Post a record on METER_RING (R546). -/
def State.postRecord (s : State) (r : Rec) : State := s.postLong 0x80 [] (s.recBytes r)

/-- A METER_FLAG that the journal kept is queued again (R519): with a new SEQ, all else as it was. -/
def State.requeue (s : State) (e : Event) : State :=
  let r := s.evRing e.ty
  { s with hst := { s.hst with
      seqNo := s.hst.seqNo + 1
      evq := tput (fun _ => []) s.hst.evq r
        (tget (fun _ => []) s.hst.evq r ++ [{ e with seqNo := s.hst.seqNo % 2 ^ 32 }]) } }

/-- METER_FLAGs that main power loss left in the journal are posted (R519). -/
def State.repostFlags (s : State) : State :=
  let l := s.jr.flags
  l.foldl (fun s e => s.requeue e) { s with jr := { s.jr with flags := [] } }

/-- METER_RING is enabled: records of the journal that were not consumed and do not wait in its buffer are posted again,
in RSEQ order (log entry 27). -/
def State.repostRecords (s : State) (ring : Nat) : State :=
  if ring ≠ s.rd HOST_EVT_CFG.METER_RING then s
  else
    let waiting := ((tget (fun _ => []) s.hst.evq ring).filter (fun e => e.ty == 0x80)).map
      (fun e => ofBytes ((e.more.drop 6).take 8))
    let again := s.jr.recs.filter (fun r => !r.consumed && !waiting.contains r.rseq)
    again.foldl (fun s r => s.postRecord r) s

/-- A record enters a list in SEQ order. -/
def seqInsert (e : Event) : List Event → List Event
  | [] => [e]
  | x :: t => if e.seqNo < x.seqNo then e :: x :: t else x :: seqInsert e t

/-- HOST_EVT_CFG names another METER_RING (R518, R519, R522): METER_RECORDs and METER_FLAGs that wait for the old ring wait
for the new one, in SEQ order; records of the journal that were not consumed are posted on it. -/
def State.moveMeterRing (s : State) (old : Nat) : State :=
  let new := s.rd HOST_EVT_CFG.METER_RING
  if old = new then s
  else
    let l := tget (fun _ => []) s.hst.evq old
    let meter (e : Event) : Bool := e.ty == 0x80 || e.ty == 0x81
    let moved := (l.filter meter).foldl (fun q e => seqInsert e q) (tget (fun _ => []) s.hst.evq new)
    let evq := tput (fun _ => []) (tput (fun _ => []) s.hst.evq old (l.filter (fun e => !meter e))) new moved
    (({ s with hst := { s.hst with evq := evq } }).repostRecords new).drain new

/-! ### METER_FLAG (R550) -/

/-- Post a METER_FLAG of a happening at a tick and elapsed time. -/
def State.meterFlagAt (s : State) (code cell arg rseq : Nat) (tick : Int) (elapsed : Nat) : State :=
  let r := s.evRing 0x81
  (s.queueAt r 0x81 tick elapsed [(24, 1, code), (26, 2, cell), (28, 8, arg), (36, 8, rseq)] []).drain r

/-- A METER_FLAG of codes 5 to 8: its RSEQ is the next record's. -/
def State.meterFlag (s : State) (code cell arg : Nat) : State := s.meterFlagAt code cell arg s.jr.rseq s.tm.n s.tm.e

/-- A METER_FLAG of codes 1 to 4 waits for the first record with its flag. -/
def State.meterFlagLater (s : State) (code cell arg : Nat) : State :=
  { s with mtr := { s.mtr with flagQ := s.mtr.flagQ ++ [⟨code, cell, arg, s.tm.n, s.tm.e⟩] } }

/-- The FLAGS bit of R548 that a METER_FLAG code reports. -/
def flagBit (code : Nat) : Nat := if code = 1 then 5 else if code = 2 then 4 else if code = 3 then 3 else 8

/-! ### Port counters (R542 to R544) -/

/-- Change a cell's metering. -/
def State.updMtr (s : State) (c : Nat) (g : CellMtr → CellMtr) : State := s.updCell c (fun x => { x with mtr := g x.mtr })

/-- A flag of R548 for a port's next record. -/
def State.portFlag (s : State) (c bit : Nat) : State := s.updMtr c (fun m => { m with flags := setBit m.flags bit })

/-- Book port energy in mWh: discharge from 0, else charge (R542). -/
def CellMtr.addE (m : CellMtr) (e : Rat) : CellMtr :=
  if 0 ≤ e then { m with eDis := m.eDis.add e } else { m with eChg := m.eChg.add (-e) }

/-- Book port charge in mC: discharge when positive, else charge (R542). -/
def CellMtr.addQ (m : CellMtr) (q : Rat) : CellMtr :=
  if 0 < q then { m with qDis := m.qDis.add q } else { m with qChg := m.qChg.add (-q) }

/-- Energy in mWh of a power in W over `ns`. -/
def mWh (p : Rat) (ns : Nat) : Rat := p * (ns : Rat) / 3600000000

/-- A port meter: an enabled pack or PV cell (R542). -/
def State.metered (s : State) (c : Nat) : Bool := s.enabled c && (s.role c == 1 || s.role c == 2)

/-- MTR_STATUS.GAP_OPEN (R569). -/
def State.showGap (s : State) : State :=
  s.wr MTR_STATUS.GAP_OPEN (b2n (s.cells.any (fun kv => kv.2.mtr.gap)))

/-- A node is lost: a gap opens at the last CHARGE kept (R543, R316). -/
def State.openGap (s : State) (c : Nat) : State :=
  if s.metered c ∧ !(s.cell c).mtr.gap then
    (s.updMtr c (fun m => { m with gap := true, held := none, restart := 0, gapP := m.lastP, gapV := m.lastV })).showGap
  else s

/-- The AC gap energy after a latch snapshot is booked once the last such port gap has closed (R563, log entry 28). -/
def State.bookAcGap (s : State) : State :=
  match s.mtr.gapSum with
  | none => s
  | some e =>
    if s.cells.any (fun kv => kv.2.mtr.gap && kv.2.mtr.restart == 2) then s
    else
      let tot := s.mtr.ac.getD 3 []
      let add (i : Nat) (x : Rat) (l : List Ctr) : List Ctr := l.set i ((l.getD i Ctr.zero).add x)
      let tot := add 6 (absR e) (if 0 ≤ e then add 0 e tot else add 1 (-e) tot)
      { s with mtr := { s.mtr with
          gapSum := none, ac := s.mtr.ac.set 3 tot, acFlags := s.mtr.acFlags.map (fun f => setBit (setBit f 1) 3) } }

/-- The held values of a gap are booked (R543, R562): ΔC as charge, ΔC × PORT_V as energy, ESTIMATED; after a restart
with the flow test or the GAP flag. -/
def State.bookGap (s : State) (c : Nat) : State :=
  let m := (s.cell c).mtr
  match m.gap, m.held with
  | true, some (q, v) =>
    let e := q * (v : Rat) / 10 / 3600
    let s := (s.updMtr c (fun m => { (m.addQ q).addE e with gap := false, held := none, restart := 0 })).portFlag c 1
    let s :=
      if m.restart = 1 ∧ (s.rd MTR_FLOW_CFG.PORT_LIM : Rat) * 3600 < absR q then
        (s.portFlag c 5).meterFlagLater 1 c (absR q).floor.toNat
      else if m.restart = 2 then
        let s := (s.portFlag c 3).meterFlagLater 3 c (absR e).floor.toNat
        { s with mtr := { s.mtr with gapSum := s.mtr.gapSum.map (fun x => x + e) } }
      else s
    s.bookAcGap.showGap
  | _, _ => s

/-- A new node, or a cell disabled while its gap is open (R543): held values are dropped; the PORT_P last received before
the gap, over LOST_TICKS ticks, is booked as energy, with charge at the PORT_V of then. Of a gap that main power loss opened
no PORT_P and PORT_V are kept: they are free (log entry 1). What a gap after a latch snapshot books counts for the AC side
(R563). -/
def State.dropGap (s : State) (c : Nat) : State :=
  let m := (s.cell c).mtr
  if !m.gap then s
  else
    let p : Int := if m.restart = 0 then m.gapP else sgn 32 (s.freeVal 11 % 2 ^ 32)
    let v : Nat := if m.restart = 0 then m.gapV else s.freeVal 12 % 65536
    let s := if m.restart = 0 then s else s.used
    let e := mWh p (s.rd LINK_CFG.LOST_TICKS * s.period)
    let q := divR (e * 36000) (v : Rat)
    let s := s.updMtr c (fun m => { (m.addQ (if p = 0 then 0 else q)).addE e with gap := false, held := none, restart := 0 })
    let s := if m.restart = 2 then { s with mtr := { s.mtr with gapSum := s.mtr.gapSum.map (fun x => x + e) } } else s
    (((s.portFlag c 1).portFlag c 7).bookAcGap).showGap

/-- A cell is disabled: an open gap is closed by estimate, and the charge baseline starts anew with the first CHARGE after
it is enabled again (R542, R543; log entry 122). -/
def State.endBase (s : State) (c : Nat) : State :=
  let s := s.dropGap c
  if (s.cell c).mtr.base = none then s else (s.updMtr c (fun m => { m with base := none })).portFlag c 7

/-- The journal's entry of a cell: node serial and charge baseline (R553). -/
def State.setNode (s : State) (c serial : Nat) (base : Int) : State :=
  { s with jr := { s.jr with nodes := tput (fun _ => (0, 0)) s.jr.nodes c (serial, base) } }

/-- An IDENT serial that differs (R323, R543): it is stored, the gap is closed by estimate, and the charge baseline is this
node's first CHARGE, which the report that the gap held has brought. -/
def State.meterNewNode (s : State) (c serial : Nat) : State :=
  let s := s.setNode c serial ((s.cell c).mtr.base.getD 0)
  if s.metered c then (s.dropGap c).portFlag c 7 else s

/-- ΔC of R542 between two CHARGE values: corrected, with the offset over the time since the first. -/
def State.chargeStep (s : State) (m : CellMtr) (new prev : Int) : Rat :=
  let dt : Rat := ((s.tm.e - m.baseAt : Nat) : Rat) / 1000000000
  ((new - prev : Int) : Rat) * (s.acti MTR_QTY_CAL_k.GAIN 7 : Rat) / 262144 + 10 * (s.actsi MTR_QTY_CAL_k.OFFSET 7 : Rat) * dt

/-- A CHARGE value arrived (R542, R543, R562): in a gap it is held until the node is known, after a restart
as CHARGE itself counts it; else ΔC is booked. -/
def State.meterCharge (s : State) (c : Nat) : State :=
  let x := s.cell c
  let m := x.mtr
  let w := x.link.tel
  let s' := s.updMtr c (fun m => { m with base := some w.charge, baseAt := s.tm.e })
  match m.base with
  | none => s'.setNode c (x.svc.serial.getD 0) w.charge
  | some prev =>
    if m.gap ∧ m.held = none then
      let dq := if m.restart = 0 then s.chargeStep m w.charge prev else ((w.charge - prev : Int) : Rat)
      let s' := s'.updMtr c (fun m => { m with held := some (dq, w.portV) })
      if x.link.tel.valid ∧ s.lstate c = 5 then s'.bookGap c else s'
    else
      s'.updMtr c (fun m => m.addQ (s.chargeStep m w.charge prev))

/-- A METER_FLAG with code 4 whose lease is no longer exhausted before a record could carry its flag is posted now; the
record that it would name is open (R550, R552; log entry 1). -/
def State.flushExhausted (s : State) (c : Nat) : State :=
  let mine (f : FlagWait) : Bool := f.code == 4 && f.cell == c
  let l := s.mtr.flagQ.filter mine
  let s := { s with mtr := { s.mtr with flagQ := s.mtr.flagQ.filter (fun f => !mine f) } }
  l.foldl (fun s f => (s.meterFlagAt 4 c f.arg (s.freeVal 13 % 2 ^ 64) f.tick f.elapsed).used) s

/-- A lease with a LEASE_ID is open (R552): E_DIS − E_START < ALLOW, or no limit. -/
def leaseOpen (l : Lease) (eDis : Nat) : Bool := l.allow == 2 ^ 64 - 1 || decide (eDis < l.eStart + l.allow * 1000)

/-- The lease test of R552. -/
def State.leaseTest (s : State) (c : Nat) : State :=
  let m := (s.cell c).mtr
  let l := m.lease
  if l.state ≠ 2 ∧ l.state ≠ 3 then s
  else
    let open_ := leaseOpen l m.eDis.n
    if l.state = 2 ∧ !open_ then
      (s.updMtr c (fun m => { m with lease := { m.lease with state := 3 } })).meterFlagLater 4 c l.id
    else if l.state = 3 ∧ open_ then
      ((s.updMtr c (fun m => { m with lease := { m.lease with state := 2 } })).flushExhausted c).meterFlag 5 c l.id
    else s

/-- A port's metering over an interval of `ns` at whose end its telemetry is taken, or found missing (R542 to R544).
`charge`: the telemetry brings CHARGE. -/
def State.meterPort (s : State) (c ns : Nat) (charge : Bool) : State :=
  if !s.metered c then s
  else
    let x := s.cell c
    let joined := decide (2 ≤ s.lstate c) && decide (s.lstate c ≤ 5)
    let s :=
      if x.link.fresh then
        let p : Rat := (x.link.tel.portP : Rat) * (s.acti MTR_QTY_CAL_k.GAIN 6 : Rat) / 262144 +
          (s.actsi MTR_QTY_CAL_k.OFFSET 6 : Rat)
        let s := s.updMtr c (fun m => { m.addE (mWh p ns) with lastP := x.link.tel.portP, lastV := x.link.tel.portV })
        if charge then s.meterCharge c else s
      else if joined then (s.updMtr c (fun m => m.addE (mWh (m.lastP : Rat) ns))).portFlag c 1
      else s
    s.leaseTest c

end Sys2Proof.Machine
end

