-- ==== Sys2Proof/Machine/Walker.lean ====
section
/-! DEFINITION. Descriptors of the host rings and the table walker that translates every host-memory address
(14_host_interface.md, R494 to R536). -/
namespace Sys2Proof.Machine
open Reg

/-! ### Faults of an access -/

/-- The ring an access of the walker belongs to. -/
def JobKind.ring : JobKind → Nat
  | .furrow d _ _ _ _ => d.ring
  | .fwStage d _ _ _ _ _ => d.ring
  | .nodeFw d _ _ _ => d.ring
  | .journalRead d _ _ _ => d.ring
  | .buffer d _ _ => d.ring
  | .entry r => r
  | .fetch r => r

/-- The descriptor an access belongs to. -/
def JobKind.desc : JobKind → Option Desc
  | .furrow d _ _ _ _ => some d
  | .fwStage d _ _ _ _ _ => some d
  | .nodeFw d _ _ _ => some d
  | .journalRead d _ _ _ => some d
  | .buffer d _ _ => some d
  | .entry _ => none
  | .fetch _ => none

/-- The access alone keeps its descriptor; a NODE_FW is kept with the service actions of its cell. -/
def JobKind.own : JobKind → Bool
  | .nodeFw .. => false
  | _ => true

/-- The access kind of RING_FAULT_n (R535): 0 descriptor fetch, 1 data read, 2 data write, 3 entry write. -/
def JobKind.access : JobKind → Nat
  | .furrow .. => 1
  | .fwStage .. => 1
  | .nodeFw .. => 1
  | .journalRead .. => 2
  | .buffer .. => 2
  | .entry _ => 3
  | .fetch _ => 0

/-- The access needs WRITE rather than READ (R513). -/
def JobKind.writes (k : JobKind) : Bool := k.access == 2 || k.access == 3

/-- Data bytes the access touches. -/
def JobKind.range : JobKind → Nat × Nat
  | .furrow _ _ _ len addr => (addr, len)
  | .fwStage _ _ len _ _ addr => (addr, len)
  | .nodeFw _ _ len addr => (addr, len)
  | .journalRead _ _ count addr => (addr, count * 160)
  | .buffer _ len addr => (addr, len)
  | .entry _ => (0, 0)
  | .fetch _ => (0, 0)

/-- An ACTIVE or STOPPING ring halts on a fault of an access (R502), with its record; RING_FAULT_n keeps it. -/
def State.haltFault (s : State) (r status acc page : Nat) : State :=
  let old := s.rdi RING_STATE_n.STATE r
  if old = 1 ∨ old = 2 then
    ((s.haltRing r 4 status acc page).queueRingState r old 4).drain (s.evRing 0x90)
  else s

/-- Count a descriptor in or out of flight (R511). -/
def State.flight (s : State) (r : Nat) (up : Bool) : State :=
  if up then
    (s.wri RING_STATE_n.INFLIGHT r (s.rdi RING_STATE_n.INFLIGHT r + 1)).wr HOST_STATUS.IN_FLIGHT
      (s.rd HOST_STATUS.IN_FLIGHT + 1)
  else
    (s.wri RING_STATE_n.INFLIGHT r (s.rdi RING_STATE_n.INFLIGHT r - 1)).wr HOST_STATUS.IN_FLIGHT
      (s.rd HOST_STATUS.IN_FLIGHT - 1)

/-- An access failed: its descriptor ends with the status and its ring halts (R508, R514, R517). A descriptor whose
fetch failed completes with TAG 0 (R507). -/
def State.failAccess (s : State) (k : JobKind) (status detail page : Nat) : State :=
  match k with
  | .entry r => s.haltFault r status 3 page
  | .fetch r =>
    let ctr := s.rdi RING_STATE_n.CONS r
    let d : Desc := ⟨r, s.rdi RING_CFG_n.CRING r, ctr, 0, 0, s.hst.epoch⟩
    let s := (s.wri RING_STATE_n.CONS r (ctr + 1)).flight r true
    (s.complete d status detail []).haltFault r status 0 page
  | k =>
    match k.desc with
    | none => s
    | some d =>
      let s := match k with
        | .fwStage .. => s.wr TRI_FW_STATUS.STAGING 0
        | .nodeFw d c .. => s.updCell c (fun x => { x with svc := { x.svc with acts := x.svc.acts.filter (fun a => a.2 != d) } })
        | _ => s
      (s.complete d status detail []).haltFault d.ring status k.access page

/-! ### The walk -/

/-- The pages a range of device addresses touches (R512). -/
def pagesOf (addr len : Nat) : List Nat :=
  if len = 0 then [] else (List.range ((addr + len - 1) / 4096 - addr / 4096 + 1)).map (fun i => addr / 4096 + i)

/-- What a range of `n` device addresses from `a` on has in a page: from, and up to. -/
def pageSpan (a n p : Nat) : Nat × Nat := (max a (p * 4096), min (a + n) ((p + 1) * 4096))

/-- The permission and device-region checks of R514, codes 0x11 and then 0x15, over the pages of an access. -/
def State.checkFound (s : State) (k : JobKind) (found : List Trans) : Option (Nat × Nat × Nat) :=
  match found.find? (fun t => if k.writes then !t.wr else !t.rd) with
  | some t => some (0x11, t.level, t.page)
  | none =>
    let (addr, len) := k.range
    let hit (t : Trans) : Bool :=
      if len = 0 then false
      else
        let x := pageSpan addr len t.page
        s.deviceRegion (t.phys * 4096 + x.1 % 4096) (x.2 - x.1)
    match found.find? hit with
    | some t => some (0x15, 0, t.page)
    | none => none

/-- Hold translations in the cache of 256 entries (R516). -/
def State.cacheAll (s : State) (found : List Trans) : State :=
  let fresh := found.filter (fun t => (s.cached t.page).isNone)
  let l := s.hst.cache ++ fresh
  { s with hst := { s.hst with cache := l.drop (l.length - 256) } }

/-- A read of host memory goes on with the first page it has still to read, at that page's translated address (R512; log
entry 119). -/
def State.askData (s : State) (j : Job) : State :=
  match j.found.find? (fun t => t.page == j.todo.headD 0) with
  | some t =>
    let x := pageSpan j.kind.range.1 j.kind.range.2 t.page
    s.emit (.hostRead (t.phys * 4096 + x.1 % 4096) (x.2 - x.1))
  | none => s

/-- Nothing is staged any more (R492, R506, R514). -/
def State.unstage (s : State) : State := (s.wr TRI_FW_STATUS.STAGED 0).wr TRI_FW_VER_SHADOW.VERSION 0

/-- Every page of the access is translated: the remaining checks, the cache, then the data phase (R514). An access
that writes waits in its data phase for its data; a read is issued, and a stage at OFFSET 0 clears STAGED (R506); a
translation asked for an entry or a fetch ends. -/
def State.walked (s : State) (j : Job) (found : List Trans) : State :=
  let s := { s with hst := { s.hst with jobs := s.hst.jobs.filter (fun x => x.id != j.id) } }
  match s.checkFound j.kind found with
  | some (st, lv, page) => s.failAccess j.kind st lv page
  | none =>
    let s := s.cacheAll found
    match j.kind with
    | .entry _ => s
    | .fetch _ => s
    | k =>
      let todo := if k.writes then [] else pagesOf k.range.1 k.range.2
      let j' : Job := { j with
        todo := todo, found := found, phase := .data, due := s.tm.e + s.rd HOST_WALK_CFG.TIMEOUT * 1000 }
      let s := { s with hst := { s.hst with jobs := s.hst.jobs ++ [j'] } }
      if k.writes then s
      else
        let s := match k with
          | .fwStage _ 0 _ _ _ _ => s.unstage
          | _ => s
        s.askData j'

/-- Begin an access: the range check 0x12, the walker's enable (R527), then the walk of the pages not cached. -/
def State.access (s : State) (k : JobKind) : State :=
  let (addr, len) := k.range
  if 2 ^ 30 < addr + len then s.failAccess k 0x12 0 (faultPage (max addr (2 ^ 30)))
  else if !s.bit HOST_WALK_ROOT_LO.EN then s.failAccess k 0x10 1 (addr / 4096)
  else
    let pages := pagesOf addr len
    let held := pages.filterMap s.cached
    let todo := pages.filter (fun p => (s.cached p).isNone)
    if todo = [] then
      let j : Job := ⟨s.hst.nextJob, k, [], held, .data, 0, []⟩
      ({ s with hst := { s.hst with nextJob := s.hst.nextJob + 1 } }).walked j held
    else s.startJob k held todo

/-- Replace a job by one with the same number. -/
def State.putJob (s : State) (j : Job) : State :=
  { s with hst := { s.hst with jobs := s.hst.jobs.map (fun x => if x.id = j.id then j else x) } }

/-- A page of a walk was found: on to the next page, or to the checks. -/
def State.walkNext (s : State) (j : Job) (t : Trans) : State :=
  let found := j.found ++ [t]
  match j.todo.drop 1 with
  | [] => s.walked j found
  | p :: ps =>
    (s.putJob { j with todo := p :: ps, found := found, phase := .level1,
                       due := s.tm.e + s.rd HOST_WALK_CFG.TIMEOUT * 1000 }).emit (.hostRead (s.level1Addr p) 8)

/-- A table entry came back for a walk (R512, R513): not present, a 2 MiB page, the next table, or the page. -/
def State.walkEntry (s : State) (j : Job) (v : Nat) : State :=
  let page := j.todo.headD 0
  let drop := { s with hst := { s.hst with jobs := s.hst.jobs.filter (fun x => x.id != j.id) } }
  match j.phase with
  | .level1 =>
    if !bitOf v 0 then drop.failAccess j.kind 0x10 1 page
    else if bitOf v 3 then
      s.walkNext j ⟨page, v / 4096 + page % 512, bitOf v 2, bitOf v 1, 1⟩
    else
      (s.putJob { j with phase := .level2 v, due := s.tm.e + s.rd HOST_WALK_CFG.TIMEOUT * 1000 }).emit
        (.hostRead (v / 4096 * 4096 + page % 512 * 8) 8)
  | .level2 e1 =>
    if !bitOf v 0 then drop.failAccess j.kind 0x10 2 page
    else s.walkNext j ⟨page, v / 4096, bitOf v 2 && bitOf e1 2, bitOf v 1 && bitOf e1 1, 2⟩
  | .data => s

/-- Bytes written to host memory at device addresses from `a` on, through translations held for them, one write a
page. -/
def State.dmaWrite (s : State) (found : List Trans) (a : Nat) (l : List Byte) : State :=
  (pagesOf a l.length).foldl (fun s p =>
    match found.find? (fun t => t.page == p) with
    | some t =>
      let x := pageSpan a l.length p
      s.emit (.hostWrite (t.phys * 4096 + x.1 % 4096) ((l.drop (x.1 - a)).take (x.2 - x.1)))
    | none => s) s

/-! ### Starting a descriptor -/

/-- The ring has a descriptor that may start (R500 to R503, R509, R511): ACTIVE, entries waiting, within the limits in
flight, awake and past B4 after a wake (R501), not in D3hot, not after PF_WARN (R560). -/
def State.ringReady (s : State) (r : Nat) : Bool :=
  s.rdi RING_STATE_n.STATE r == 1 && (s.rdi RING_CFG_n.TYPE r == 0 || s.rdi RING_CFG_n.TYPE r == 3) &&
  s.hostCtr r != s.rdi RING_STATE_n.CONS r &&
  decide (s.rdi RING_STATE_n.INFLIGHT r < s.ringSize r) && decide (s.rd HOST_STATUS.IN_FLIGHT < 131072) &&
  !s.hst.d3 && !s.bit HOST_STATUS.SLEEP && !s.pwr.waking && !s.pwr.restart && s.pwr.pfAt == none

/-- What becomes of the next descriptor of a ring. -/
inductive Start where
  /-- It starts: counted in flight, CONS past it. -/
  | go (d : Desc) (s : State)
  /-- It does not start now. -/
  | wait (s : State)

/-- Fetch and start the next descriptor of a ring. Its slot is translated first (R512); with FENCE it waits until every
earlier descriptor of the ring has completed (R504). -/
def State.startDesc (s : State) (h : DescHdr) (opcode : Nat) : Start :=
  let r := h.ring.val
  let ctr := s.rdi RING_STATE_n.CONS r
  if !s.ringReady r then .wait s
  else if h.fence && s.rdi RING_STATE_n.INFLIGHT r != 0 then .wait s
  else
    let a := s.slotAddr r ctr
    if 2 ^ 30 ≤ a then .wait (s.failAccess (.fetch r) 0x12 0 (faultPage a))
    else if !s.bit HOST_WALK_ROOT_LO.EN then .wait (s.failAccess (.fetch r) 0x10 1 (a / 4096))
    else
      match s.cached (a / 4096) with
      | none =>
        if s.hst.jobs.any (fun j => j.kind == .fetch r) then .wait s else .wait (s.startJob (.fetch r) [] [a / 4096])
      | some t =>
        if !t.rd then .wait (s.failAccess (.fetch r) 0x11 t.level (a / 4096))
        else if s.deviceRegion (t.phys * 4096 + a % 4096) 64 then .wait (s.failAccess (.fetch r) 0x15 0 (a / 4096))
        else
          let d : Desc := ⟨r, s.rdi RING_CFG_n.CRING r, ctr, opcode, h.tag, s.hst.epoch⟩
          .go d ((s.wri RING_STATE_n.CONS r (ctr + 1)).flight r true)

/-- Start a descriptor and run it: BUFFER is valid on BULK rings only and every other opcode on COMMAND rings only
(R505); a descriptor elsewhere completes with BAD_OPCODE. -/
def State.runDesc (s : State) (h : DescHdr) (opcode : Nat) (g : Desc → State → State) : State :=
  match s.startDesc h opcode with
  | .wait s => s
  | .go d s =>
    let ty := s.rdi RING_CFG_n.TYPE h.ring.val
    if (opcode = 0x40 ∧ ty = 3) ∨ (opcode ≠ 0x40 ∧ ty = 0) then g d s else s.complete d 3 0 []

/-- The descriptor that waits for its tick. -/
def Wait.desc : Wait → Desc
  | .hostTime d _ => d
  | .capture d _ => d
  | .release d => d

/-- A descriptor of the ring waits for its tick (R509). -/
def State.ringWaits (s : State) (r : Nat) : Bool :=
  s.sp.host.any (fun x => x.d.ring == r) || s.hst.waits.any (fun w => w.desc.ring == r)

/-- A descriptor waits for its tick. -/
def State.putWait (s : State) (w : Wait) : State := { s with hst := { s.hst with waits := s.hst.waits ++ [w] } }

/-- The CELL check of R506: 240 and above BAD_FIELD, 120 to 239 on the PN7120 ABSENT_CELL. -/
def State.cellField (s : State) (c : Nat) : Option Nat :=
  if 240 ≤ c then some 4 else if s.cellCount ≤ c then some 5 else none

end Sys2Proof.Machine
end

