-- ==== Sys2Proof/Machine/Sluice.lean ====
section
/-! DEFINITION. The sluice fabric: its sources, latches and breaker outputs (11_sluice_protection.md). The release is in
Release.lean. -/
namespace Sys2Proof.Machine
open Reg

/-! ### Sources -/

/-- A comparator's route has an action or turns off a drive (R396). -/
def State.routed (s : State) (n : Nat) : Bool :=
  s.rdi SLC_CMP_ROUTE_n.ACTION n != 0 || s.biti SLC_CMP_ROUTE_n.DRV0 n || s.biti SLC_CMP_ROUTE_n.DRV1 n

/-- A blanking window of the comparator is open (R401). -/
def State.blanked (s : State) (n : Nat) : Bool := decide (s.tm.e < tget (fun _ => 0) s.slc.blankEnd n)

/-- A blanking window opens, or restarts, for every comparator whose BLANK_SRC is `src` (R401, R402). -/
def State.openWindows (s : State) (src : Nat) : State :=
  (List.range 16).foldl (fun s n =>
    if s.rdi SLC_CMP_ROUTE_n.BLANK_SRC n = src then
      let close := s.tm.e + s.rdi SLC_CMP_ROUTE_n.BLANK_LEN n * 4
      { s with slc := { s.slc with blankEnd := tput (fun _ => 0) s.slc.blankEnd n close } }
    else s) s

/-- A comparator acts through its route (R394, R396). -/
def State.cmpAct (s : State) (n : Nat) : State :=
  let a := s.rdi SLC_CMP_ROUTE_n.ACTION n
  if !s.routed n then s
  else
    let s := if a = 0 then (s.latchOnly SLC_TRIP_LATCH.CMP (2 ^ n)).cancelRelease
      else s.actScope SLC_TRIP_LATCH.CMP (2 ^ n) a (2 ^ s.rdi SLC_CMP_ROUTE_n.PHASE n) false
    s.driveOff (s.biti SLC_CMP_ROUTE_n.DRV0 n) (s.biti SLC_CMP_ROUTE_n.DRV1 n)

/-- The bits of a SLC_TRIP_LATCH field whose source is active now (R407): the others are momentary. -/
def State.sourceActive (s : State) (f : Fld) : Nat :=
  if f = SLC_TRIP_LATCH.SAFETY_IN then
    b2n ((List.range 8).any (fun n =>
      bitOf (s.rd SAFE_STATUS.DEMAND) n && decide (1 ≤ s.rdi SAFE_IN_CFG_n.TYPE n) && decide (s.rdi SAFE_IN_CFG_n.TYPE n ≤ 3)))
  else if f = SLC_TRIP_LATCH.NET_STOP then
    b2n (s.bit SAFE_NET_CFG.EN && (s.bit SAFE_NET_STATUS.STOP_RX || s.saf.expired))
  else if f = SLC_TRIP_LATCH.PF_WARN then s.rd PWR_STATUS.PF_WARN
  else if f = SLC_TRIP_LATCH.TRIP_IN then b2n (decide (s.tm.e < s.slc.tripIn))
  else if f = SLC_TRIP_LATCH.DERATE4 then b2n (s.rd HGS_RATING_STATUS.DERATE_ROW == 4)
  else if f = SLC_TRIP_LATCH.THERMAL then b2n s.slc.thermShut
  else if f = SLC_TRIP_LATCH.DEBUG_STARVE then
    b2n (s.bit TRI_STATUS.DBG_HALT && decide (s.rd LINK_CFG.STARVE_TICKS ≤ s.tri.haltTicks))
  else if f = SLC_TRIP_LATCH.CMP then
    (List.range 16).foldl (fun w n => if bitOf s.slc.live n && s.routed n && !s.blanked n then w + 2 ^ n else w) 0
  else 0

/-- Clear bits of SLC_TRIP_LATCH; a bit whose source is still active latches again (R407). -/
def State.clearLatch (s : State) (v : Nat) : State :=
  latchFields.foldl (fun s f =>
    let old := s.rd f
    let m := bits v f.lo f.w
    let again := old &&& m &&& s.sourceActive f
    let s := s.wr f (old - (old &&& m))
    if again = 0 then s else s.latchBits f again) s

/-- SLC_LATCH_CLEAR (R407, R419): the operand is the word written. -/
def execSlcLatchClear (value : Nat) (t : Nat) (s : State) : Host.Outcome State Fault Refusal :=
  .next (s.live fun s => (s.moveTo t).clearLatch value)

/-- TRIP_IN (R394, R396, R413): TRIP_IN_N falls, and stays low until the instant `high`. A pulse shorter than TRIP_IN_FILT
does nothing; else the fabric acts once the filter has passed it. -/
def execTripIn (high : Nat) (t : Nat) (s : State) : Host.Outcome State Fault Refusal :=
  .next <| s.live fun s =>
    let s := s.moveTo t
    let seen := s.tm.e + s.rd SLC_CFG.TRIP_IN_FILT * 4
    if high < seen then s
    else
    let s := s.moveTo seen
    let s := { s with slc := { s.slc with tripIn := high } }
    let s := s.actScope SLC_TRIP_LATCH.TRIP_IN 1 (s.rd SLC_SRC_ROUTE.TRIPIN_ACT) 7 false
    s.driveOff (s.bit SLC_SRC_ROUTE.TRIPIN_DRV0) (s.bit SLC_SRC_ROUTE.TRIPIN_DRV1)

/-- BLANK_WINDOW_CLOSE (R401): a comparator still active when its window closes acts at once. -/
def execBlankWindowClose (n : Fin 16) (t : Nat) (s : State) : Host.Outcome State Fault Refusal :=
  .next <| s.live fun s =>
    let s := s.moveTo t
    if tget (fun _ => 0) s.slc.blankEnd n.val = 0 ∨ s.blanked n.val then s
    else
      let s := { s with slc := { s.slc with blankEnd := tput (fun _ => 0) s.slc.blankEnd n.val 0 } }
      if bitOf s.slc.live n.val then s.cmpAct n.val else s

/-! ### Several cells in one tick (R398, R399) -/

/-- The cells of a list of events, without repeats. -/
def lossPhases (s : State) (w : List (Nat × Nat)) : Nat :=
  ((List.range 3).filter (fun p => w.any (fun x => s.phaseOf x.2 == p))).length

/-- A cell-loss event (R398) and the same-tick rule (R399). A cell already Absent, by its service state (R307) or by its
class in the last decision (R76), adds none. -/
def State.cellLoss (s : State) (c : Nat) : State :=
  let st := s.sstate c
  if st ≠ 4 ∧ st ≠ 5 ∧ st ≠ 6 ∨ (s.cell c).svc.counted ∨ s.rdi HGS_CELL_STATE_n.CLASS c = 0 then s
  else
    let s := (s.updCell c (fun x => { x with svc := { x.svc with counted := true } })).inc SLC_BLOCK_STATUS.CELL_TRIPS 1
    let w := ((s.tm.e, c) :: s.slc.losses).filter (fun x => decide (s.tm.e < x.1 + s.period))
    let s := { s with slc := { s.slc with losses := w } }
    if 3 ≤ w.length ∨ 2 ≤ lossPhases s w then s.safeState SLC_TRIP_LATCH.SAME_TICK_CONV
    else if w.length = 2 then s.actScope SLC_TRIP_LATCH.SAME_TICK_PHASE 1 1 (2 ^ s.phaseOf c) false
    else s

/-- A plant-class /TR/ acts with its route's scope; a phase block covers the reporting cell's phase (R397). -/
def State.plantTrip (s : State) (c cause : Nat) : State :=
  let a := if cause = 4 then s.rd SLC_TR_ROUTE.CAUSE4 else if cause = 5 then s.rd SLC_TR_ROUTE.CAUSE5
    else s.rd SLC_TR_ROUTE.CAUSE6
  if a = 0 then s else s.actScope SLC_TRIP_LATCH.RING_TR 1 a (2 ^ s.phaseOf c) false

/-! ### Stops and breaker outputs -/

/-- SLC_CTRL.STOP: converter block latching HOST (R422). -/
def State.hostStop (s : State) : State := s.actScope SLC_TRIP_LATCH.HOST 1 2 7 false

/-- SLC_CTRL.STOP_BRK: safe state latching HOST (R422). -/
def State.hostStopBrk (s : State) : State := s.safeState SLC_TRIP_LATCH.HOST

/-- BRK_RESET is accepted (R409, R428). -/
def State.brkResetOk (s : State) : Bool :=
  s.latchWord == 0 && decide (s.slc.brkAt + s.rd SLC_CFG.BRK_HOLD * 10000000 ≤ s.tm.e) && s.rd SAFE_STATUS.BRK_FB_ERR == 0

/-- SLC_CTRL.BRK_RESET: accepted once every latch is 0 and BRK_HOLD has elapsed since assertion (R409), and not while
BRK_FB_ERR is set (R428). -/
def State.brkReset (s : State) : State :=
  if s.brkResetOk then (s.wr SLC_BLOCK_STATUS.BRK 0).showBrk
  else s.refuse SLC_BLOCK_STATUS.CFG_ERR

/-- SLC_CTRL.CELL_BLK (R411, R422): a cell index from 240 is refused. -/
def State.hostCellBlk (s : State) (c : Nat) : State :=
  if c < 240 then s.blockCell c else s.refuse SLC_BLOCK_STATUS.CFG_ERR

/-- A write of SLC_CTRL (R422): stops first. A CELL outside its range leaves the register unwritten. -/
def State.writeSlcCtrl (s : State) (v : Nat) : State :=
  if 240 ≤ bits v 0 8 then s.refuse SLC_BLOCK_STATUS.CFG_ERR
  else
    let s := if bitOf v 30 then s.hostStopBrk else s
    let s := if bitOf v 31 then s.hostStop else s
    let s := if bitOf v 29 then s.brkReset else s
    if bitOf v 28 then s.hostCellBlk (bits v 0 8) else s

/-- SLC_STOP (R422). -/
def execSlcStop (t : Nat) (s : State) : Host.Outcome State Fault Refusal :=
  .next (s.live fun s => (s.moveTo t).hostStop)

/-- SLC_STOP_BRK (R422). -/
def execSlcStopBrk (t : Nat) (s : State) : Host.Outcome State Fault Refusal :=
  .next (s.live fun s => (s.moveTo t).hostStopBrk)

/-- SLC_BRK_RESET (R409, R428). -/
def execSlcBrkReset (t : Nat) (s : State) : Host.Outcome State Fault Refusal :=
  .next (s.live fun s => (s.moveTo t).brkReset)

/-- SLC_CELL_BLK (R411, R422). -/
def execSlcCellBlk (cell : Nat) (t : Nat) (s : State) : Host.Outcome State Fault Refusal :=
  .next (s.live fun s => (s.moveTo t).hostCellBlk cell)

/-- CONVERTER_STOP (R506): as SLC_CTRL.STOP; completes on acceptance. -/
def execConverterStop (h : DescHdr) (t : Nat) (s : State) : Host.Outcome State Fault Refusal :=
  .next (s.live fun s => (s.moveTo t).runDesc h 0x02 (fun d s => s.hostStop.complete d 0 0 [(32, 4, 0)]))

/-- CONVERTER_STOP_BRK (R506): as SLC_CTRL.STOP_BRK. -/
def execConverterStopBrk (h : DescHdr) (t : Nat) (s : State) : Host.Outcome State Fault Refusal :=
  .next (s.live fun s => (s.moveTo t).runDesc h 0x02 (fun d s => s.hostStopBrk.complete d 0 0 [(32, 4, 0)]))

/-- CONVERTER_BRK_RESET (R506): as SLC_CTRL.BRK_RESET under R409 and R428; refused, it completes with REFUSED_STATE. -/
def execConverterBrkReset (h : DescHdr) (t : Nat) (s : State) : Host.Outcome State Fault Refusal :=
  .next (s.live fun s => (s.moveTo t).runDesc h 0x02 (fun d s =>
    s.brkReset.complete d (if s.brkResetOk then 0 else 2) 0 [(32, 4, 0)]))

/-! ### Local drives (R403 to R406) -/

/-- What the detector of a leg sees (R403, R404): `amps` is the drain current in 0.1 A, `slope` its rise in A/µs, `on` the
instant of the switch's last turn-on edge, which opens its blanking. In MODE 0 the hard threshold is never blanked; in
MODE 1 blanking masks the one threshold. The answer is the detection, and whether it is on the hard threshold. -/
def State.shortSeen (s : State) (m amps slope on : Nat) : Bool × Bool :=
  let open' := decide (on + s.rdi SLC_DRV_SC_CFG_m.BLANK m * 10 ≤ s.tm.e)
  let lvl := s.rdi SLC_DRV_SC_CFG_m.SC_LVL m
  if s.biti SLC_DRV_SC_CFG_m.MODE m then (open' && decide (s.rdi SLC_DRV_SC_CFG_m.DIDT_LVL m ≤ slope), false)
  else (decide (2 * lvl ≤ amps) || (open' && decide (lvl ≤ amps)), decide (2 * lvl ≤ amps))

/-- A short in a leg (R405): its switches go to soft turn-off, the other four off at once; a second leg before the soft
turn-off of the first has ended makes it two legs at once, and all six go to soft turn-off. What is detected after that, or
again on the same leg while its soft turn-off runs, is shown in LEGS and changes nothing else (log entry 125). -/
def State.legShort (s : State) (m leg : Nat) (hard : Bool) : State :=
  let m1 := m == 1
  let legsF := if m1 then SLC_DRV_SC_STATUS.LEGS1 else SLC_DRV_SC_STATUS.LEGS0
  let bothF := if m1 then SLC_DRV_SC_STATUS.BOTH1 else SLC_DRV_SC_STATUS.BOTH0
  let hardF := if m1 then SLC_DRV_SC_STATUS.HARD1 else SLC_DRV_SC_STATUS.HARD0
  let old := s.rd legsF
  let legs := setBit old leg
  let soft := decide (s.tm.e < s.slc.softEnd.getD m 0) && old != 0
  if soft ∧ (bitOf old leg ∨ s.bit bothF) then s.wr legsF legs
  else
  let both := soft
  let s := (s.wr legsF legs).wr hardF (b2n hard)
  let s := if both then s.wr bothF 1 else s
  let soft := s.tm.e + s.rdi SLC_DRV_SC_CFG_m.SOFT m * 100
  let s := { s with slc := { s.slc with softEnd := s.slc.softEnd.set m soft } }
  let s : State := (List.range 3).foldl (fun s l =>
    s.emit (if both || l == leg then .driveSoft m l else .driveLegOff m l)) s
  let s := if both ∧ s.astate m = 6 then s else s.auxShort m
  s.post 0x41 [(24, 1, m), (25, 1, if both then legs else 2 ^ leg), (26, 1, b2n both), (27, 1, b2n hard)]

/-- DRIVE_SHORT (R403 to R405): the detectors act on the aux die, with or without the main die. -/
def execDriveShort (m : Fin 2) (leg : Fin 3) (x : LegSense) (t : Nat) (s : State) : Host.Outcome State Fault Refusal :=
  let s := s.moveTo t
  let d := s.shortSeen m.val x.amps x.slope x.on
  .next (if d.1 then s.legShort m.val leg.val d.2 else s)

/-- A clear of SLC_DRV_SC_STATUS (R406): LEGS bits of a channel from 10 ms after its soft turn-off has ended. -/
def State.clearDriveSc (s : State) (v : Nat) : State :=
  let one (s : State) (m : Nat) (legsF bothF : Fld) : State :=
    let s := if bits v bothF.lo 1 = 1 then s.wr bothF 0 else s
    let k := bits v legsF.lo 3
    if k = 0 then s
    else if s.tm.e < s.slc.softEnd.getD m 0 + 10000000 then s.refuse SLC_BLOCK_STATUS.CFG_ERR
    else s.wr legsF (s.rd legsF - (s.rd legsF &&& k))
  one (one s 0 SLC_DRV_SC_STATUS.LEGS0 SLC_DRV_SC_STATUS.BOTH0) 1 SLC_DRV_SC_STATUS.LEGS1 SLC_DRV_SC_STATUS.BOTH1

/-- DRIVE_SC_CLEAR (R406, R418). -/
def execDriveScClear (value : Nat) (t : Nat) (s : State) : Host.Outcome State Fault Refusal :=
  .next (s.live fun s => (s.moveTo t).clearDriveSc value)

/-! ### Debug halt -/

/-- DEBUG_STARVE (R412): STARVE_TICKS boundaries after a debug halt the fabric sends /BK/ 0x47 and latches. -/
def execDebugStarve (s : State) : Host.Outcome State Fault Refusal :=
  .next <| s.live fun s =>
    if s.bit TRI_STATUS.DBG_HALT ∧ s.rd LINK_CFG.STARVE_TICKS ≤ s.tri.haltTicks ∧
        s.rd SLC_TRIP_LATCH.DEBUG_STARVE = 0 then
      let s' := s.actScope SLC_TRIP_LATCH.DEBUG_STARVE 1 2 7 false
      if 2 ≤ s.rd SLC_BLOCK_STATUS.SCOPE then s'.sendBk 7 else s'
    else s

end Sys2Proof.Machine
end

