-- ==== Sys2Proof/Machine/Triad.lean ====
section
/-! DEFINITION. The control triad: fencing, rebuild, traps, debug, firmware staging and swap (13_control_triad.md). The
commit of writes is in Commit.lean, the restart in Bringup.lean. -/
namespace Sys2Proof.Machine
open Reg

/-- A member's number: 0 A, 1 B, 2 C (R487, R488). -/
def memberNum : Member → Nat
  | .a => 0
  | .b => 1
  | .c => 2

/-- A member runs: neither held nor being rebuilt (R458). -/
def State.running (s : State) (m : Nat) : Bool :=
  !bitOf (s.rd TRI_STATUS.HELD) m && s.rd TRI_STATUS.FENCED != m && s.rd TRI_STATUS.MODE != 0 && s.rd TRI_STATUS.MODE != 4

/-- The debug lead moves from a member that no longer runs to the next running one in the order A, B, C, and the debugger
sees a session reset (R479). -/
def State.moveLead (s : State) : State :=
  let l := s.rd TRI_CFG.LEAD
  if s.running l then s
  else
    match [(l + 1) % 3, (l + 2) % 3].find? s.running with
    | some m => (s.wr TRI_CFG.LEAD m).emit .sessionReset
    | none => s

/-- TRI_MISMATCH_LOG and TRI_MISMATCH_TIME take an event (R471, R488, R489). -/
def State.logMismatch (s : State) (m kind addr : Nat) : State :=
  (((s.wr TRI_MISMATCH_LOG.MEMBER m).wr TRI_MISMATCH_LOG.KIND kind).wr TRI_MISMATCH_LOG.ADDR addr).wr
    TRI_MISMATCH_TIME.TIME s.tm.e

/-- A record that the running members commit: tick-bound while the TICK entry runs (R469, R471). -/
def State.triadCommit (s : State) (reason m kind addr : Nat) : State :=
  if s.tm.s1run then
    { s with tri := { s.tri with tb := s.tri.tb ++
      [.ev 0x50 [(24, 1, reason), (25, 1, m), (26, 1, kind), (28, 4, addr), (32, 4, 0)]] } }
  else s.triadEvent reason m kind addr 0

/-- A member is held in reset: DUPLEX, with one record (R473). -/
def State.holdMember (s : State) (m kind addr : Nat) : State :=
  let s := (s.wr TRI_STATUS.HELD (setBit (s.rd TRI_STATUS.HELD) m)).wr TRI_STATUS.MODE 3
  let s := (s.wr TRI_STATUS.FENCED 3).wr TRI_STATUS.RSTEP 0
  s.showSil.moveLead.triadCommit 2 m kind addr

/-- Fence a member in TRIPLEX (R471): RESYNC from step 1 of R472, or held at its third fencing within one hour (R473). -/
def State.fence (s : State) (m kind addr : Nat) : State :=
  let past := (s.tri.fences.getD m []).filter (fun t => decide (s.tm.e < t + 3600000000000))
  let s := (s.logMismatch m kind addr).inc TRI_STATUS.FENCE_COUNT 1
  let s := { s with tri := { s.tri with fences := s.tri.fences.set m (s.tm.e :: past), fencedAt := s.tm.e, stepAt := s.tm.e } }
  let s := ((s.wr TRI_STATUS.MODE 2).wr TRI_STATUS.FENCED m).wr TRI_STATUS.RSTEP 1
  let s := s.moveLead.triadCommit 0 m kind addr
  if 2 ≤ past.length then s.holdMember m kind addr else s

/-- A second mismatch (R475, R484): TRIAD latched, safe state; a pending swap is cleared with RESULT 5. -/
def State.secondMismatch (s : State) (kind addr : Nat) : State :=
  let s := s.logMismatch 3 kind addr
  let s :=
    if s.bit TRI_FW_STATUS.PENDING then
      let ds := s.tri.swapDesc
      let s := (s.wr TRI_FW_STATUS.PENDING 0).wr TRI_FW_STATUS.RESULT 5
      let s := { s with tri := { s.tri with swapDesc := [] } }
      ds.foldl (fun s d => s.complete d 2 0 []) s
    else s
  s.safeState SLC_TRIP_LATCH.TRIAD

/-- A member's fault: fenced in TRIPLEX, a second mismatch in RESYNC and DUPLEX (R458). -/
def State.memberFault (s : State) (m kind addr : Nat) : State :=
  let mode := s.rd TRI_STATUS.MODE
  if mode = 1 then s.fence m kind addr
  else if (mode = 2 ∨ mode = 3) ∧ s.running m then s.secondMismatch kind addr
  else s

/-! ### Agreement and the commit of outputs (R23, R466 to R468) -/

/-- A vote lost by a member is counted (R467, R491). -/
def State.lostVote (s : State) (m : Nat) : State :=
  s.inc (if m = 0 then TRI_AGREE_COUNT.LOST_A else if m = 1 then TRI_AGREE_COUNT.LOST_B else TRI_AGREE_COUNT.LOST_C) 1

/-- The median of three (R466, class NUM). -/
def median3 (a b c : Int) : Int := max (min a b) (min (max a b) c)

/-- The majority per bit (R466, class BITS). -/
def majority3 (a b c : Int) : Int :=
  ((Nat.lor (Nat.lor (Nat.land a.toNat b.toNat) (Nat.land a.toNat c.toNat)) (Nat.land b.toNat c.toNat) : Nat) : Int)

/-- The running members' copies of a value are voted (R466, R467). The vote of two copies that differ is open: it takes
one of the two (log entry 103). With fewer members running there is no vote. -/
def State.voted (s : State) (vote : Int → Int → Int → Int) (v : Nat → Int) : State × Int :=
  match (List.range 3).filter s.running with
  | [_, _, _] =>
    let w := vote (v 0) (v 1) (v 2)
    ((List.range 3).foldl (fun s m => if v m = w then s else s.lostVote m) s, w)
  | [a, b] =>
    if v a = v b then (s, v a)
    else if s.freeVal 10 % 2 = 0 then (s.used.lostVote b, v a)
    else (s.used.lostVote a, v b)
  | _ => (s, v 0)

/-- A member's copy of a value: the one that differs, or the value itself. -/
def copyOf {α : Type} (l : List (Member × α)) (x : α) (m : Nat) : α :=
  match l.find? (fun y => memberNum y.1 == m) with
  | some y => y.2
  | none => x

/-- An output of the dispatch copies or of the commit unit leaves (`out`) or is dropped (`lost`) by what the comparison
found (R23, R468, R471, R475). In BOOT and FAILED no member commits, and the dispatch runs on (R476). The address that a
record names is open for an output that has none (log entry 1). -/
def State.agreed (s : State) (kind : Nat) (at_ : Option Nat) (ag : Agree) (out lost : State → State) : State :=
  let mode := s.rd TRI_STATUS.MODE
  let addr := at_.getD (s.freeVal 9 % 2 ^ 24)
  let s := if at_ = none ∧ ag ≠ .all then s.used else s
  if mode = 1 then
    match ag with
    | .all => out s
    | .odd m => (out s).fence (memberNum m) kind addr
    | .split => (lost s).secondMismatch kind addr
  else if mode = 2 ∨ mode = 3 then
    match ag with
    | .all => out s
    | _ => (lost s).secondMismatch kind addr
  else out s

/-- TCM_ECC_ERROR (R471): an uncorrectable error of a member's own TCM at an address. -/
def execTcmEccError (m : Member) (addr : Nat) (t : Nat) (s : State) : Host.Outcome State Fault Refusal :=
  .next (s.live fun s => (s.moveTo t).memberFault (memberNum m) 2 addr)

/-- SCRUB_SWEEP (R474): a sweep ends; `diff` names a member that differs from two equal copies and the offset. Scrub
pauses in RESYNC and DUPLEX. -/
def execScrubSweep (diff : Option (Member × Nat)) (t : Nat) (s : State) : Host.Outcome State Fault Refusal :=
  .next <| s.live fun s =>
    let s := s.moveTo t
    match diff with
    | none => s
    | some (m, a) =>
      if s.bit TRI_CFG.SCRUB_EN ∧ s.rd TRI_STATUS.MODE = 1 then (s.inc TRI_STATUS.SCRUB_DIFF 1).fence (memberNum m) 3 a else s

/-! ### Rebuild (R472, R473) -/

/-- The rebuild is at a step and has been for at least `ns`. -/
def State.atStep (s : State) (k ns : Nat) : Bool :=
  s.rd TRI_STATUS.MODE == 2 && s.rd TRI_STATUS.RSTEP == k && decide (s.tri.stepAt + ns ≤ s.tm.e)

/-- The rebuild goes to a step. -/
def State.toStep (s : State) (k : Nat) : State :=
  ({ s with tri := { s.tri with stepAt := s.tm.e } }).wr TRI_STATUS.RSTEP k

/-- REBUILD_RESET_DONE (R472, step 1): after 10 µs in reset the copy starts. -/
def execRebuildResetDone (t : Nat) (s : State) : Host.Outcome State Fault Refusal :=
  .next <| s.live fun s => let s := s.moveTo t; if s.atStep 1 10000 then s.toStep 2 else s

/-- REBUILD_COPY_DONE (R472, step 2): at 4 bytes per cycle at the earliest. -/
def execRebuildCopyDone (t : Nat) (s : State) : Host.Outcome State Fault Refusal :=
  .next <| s.live fun s => let s := s.moveTo t; if s.atStep 2 327680 then s.toStep 3 else s

/-- The 4-byte fields of R480 that a swap needs. -/
def imgTickCycles (l : List Byte) : Nat := imgWord l 28

/-- MIGRATE's declared cycles (R480, R481). -/
def imgMigrateCycles (l : List Byte) : Nat := imgWord l 32

/-- The header check of R480. -/
def imgHeaderOk (l : List Byte) : Bool :=
  let len := imgWord l 4
  let entryOk (o : Nat) := imgWord l o % 4 == 0 && decide (imgWord l o < len)
  imgWord l 0 == 0x4E503732 && len % 4 == 0 && decide (68 ≤ len) && decide (len ≤ 131072) && decide (len ≤ l.length) &&
  entryOk 12 && entryOk 16 && entryOk 20 && (imgWord l 24 == 0 || entryOk 24)

/-- The CRC check of R480: the last 4 bytes over all earlier ones. -/
def imgCrcOk (l : List Byte) : Bool :=
  let len := imgWord l 4
  crc32c (l.take (len - 4)) == imgWord l (len - 4)

/-- The authenticity check of R637: with a fused hash, the key's SHA-256 and the signature before the check word. -/
def State.imgSigOk (s : State) (l : List Byte) : Bool :=
  match s.pwr.fused with
  | none => true
  | some h =>
    let len := imgWord l 4
    decide (132 ≤ len) && Config.sha256 s.pwr.flash.pubKey == h &&
    Config.ecdsaOk s.pwr.flash.pubKey (Config.sha256 (l.take (len - 68))) (ofBytes ((l.drop (len - 68)).take 32))
      (ofBytes ((l.drop (len - 36)).take 32))

/-- An image passes every check of R480 and R637. -/
def State.imgOk (s : State) (l : List Byte) : Bool := imgHeaderOk l && imgCrcOk l && s.imgSigOk l

/-- The bytes of the shadow bank's image. -/
def State.shadowImage (s : State) : List Byte :=
  let b := if s.rd TRI_STATUS.ACTIVE_BANK = 0 then s.tri.bank1 else s.tri.bank0
  memBytes b 0 (min 131072 (ofBytes (memBytes b 4 4)))

/-- Step 2 of R481: the staged image is checked, and its FW_STAGE completes (R492, R508). -/
def State.checkStaged (s : State) (d : Desc) (differ : Bool) : State :=
  let img := s.shadowImage
  let s := s.wr TRI_FW_STATUS.STAGING 0
  if !s.imgOk img then (s.wr TRI_FW_STATUS.RESULT 2).complete d 8 0 []
  else if differ then (s.wr TRI_FW_STATUS.RESULT 3).complete d 9 0 []
  else ((s.wr TRI_FW_STATUS.STAGED 1).wr TRI_FW_VER_SHADOW.VERSION (imgWord img 8)).complete d 0 0 []

/-- A last part staged during RESYNC is checked once the rebuild has ended (R484). -/
def State.checkPending (s : State) : State :=
  match s.tri.stagePend with
  | none => s
  | some (d, differ) => ({ s with tri := { s.tri with stagePend := none } }).checkStaged d differ

/-- REBUILD_VERIFY_DONE (R472, R473): a difference at an offset holds the member; otherwise the rejoin waits. -/
def execRebuildVerifyDone (diff : Option Nat) (t : Nat) (s : State) : Host.Outcome State Fault Refusal :=
  .next <| s.live fun s =>
    let s := s.moveTo t
    if !s.atStep 3 327680 then s
    else
      match diff with
      | none => s.toStep 4
      | some a =>
        let m := s.rd TRI_STATUS.FENCED
        ((s.logMismatch m 4 a).holdMember m 4 a).checkPending

/-- A tick boundary takes a rebuild that waits for it to step 5, unless the triad is halted (R472, R479). -/
def State.rejoinStep (s : State) : State :=
  if s.rd TRI_STATUS.MODE = 2 ∧ s.rd TRI_STATUS.RSTEP = 4 ∧ s.rd TRI_STATUS.DBG_HALT = 0 then
    ({ s with tri := { s.tri with stepAt := s.tm.start } }).wr TRI_STATUS.RSTEP 5
  else s

/-- The rebuilt member rejoined at the present tick's boundary, which a pending swap then leaves to it (R484). -/
def State.rejoined (s : State) : Bool := s.rd TRI_STATUS.MODE == 1 && s.tri.stepAt == s.tm.start && decide (0 < s.tm.start)

/-- REBUILD_REJOIN (R472): 384 core cycles after the boundary that began step 5, within which all members stall. -/
def execRebuildRejoin (s : State) : Host.Outcome State Fault Refusal :=
  .next <| s.live fun s =>
    if s.rd TRI_STATUS.MODE = 2 ∧ s.rd TRI_STATUS.RSTEP = 5 ∧ s.tm.phase = 0 then
      let s := s.moveTo (s.tri.stepAt + 384)
      let m := s.rd TRI_STATUS.FENCED
      let us := (s.tri.stepAt - s.tri.fencedAt) / 1000
      let s := ((s.wr TRI_STATUS.MODE 1).wr TRI_STATUS.FENCED 3).wr TRI_STATUS.RSTEP 0
      let s := (s.wr TRI_RESYNC_TIME.LAST us).wr TRI_RESYNC_TIME.PEAK (max us (s.rd TRI_RESYNC_TIME.PEAK))
      (s.triadEvent 1 m 0 0 us).checkPending
    else s

/-! ### Abandoned ticks and traps -/

/-- S1 of the tick is abandoned: the law returns to the committed copy and the tick-bound writes are dropped (R37, R463,
R469). -/
def State.dropLaw (s : State) : State :=
  let l := { s.lawC with badPeriods := (s.tm.n / 256) :: s.lawC.badPeriods.take 7 }
  let s := { s with
    law := l, lawC := l
    tri := { s.tri with tb := [], tbN := 0, region := s.tri.regionC, dropTick := false }
    tm := { s.tm with s1run := false } }
  (s.wr FRT_STATUS.STATE l.sup.state).wr FRT_STATUS.ENTER_OK (b2n l.sup.enterOk)

/-- A stage of S0 to S3 overruns: the rest of S0 to S3 is abandoned (R36, R37); in a swap tick the swap is reverted at
the next boundary when S1 overruns (R482). -/
def State.overrun (s : State) (stage : Nat) : State :=
  let s := s.dropLaw
  let s := { s with tm := { s.tm with overran := true, abandoned := true, launchOver := true } }
  let s := if stage = 1 ∧ s.tri.swapTick then { s with tri := { s.tri with revert := true, swapTick := false } } else s
  s.wr CLK_TICK_STATUS.LATE_STAGE stage

/-- The entry's code in a FW_TRAP record: 0 RESET, 1 TICK, 2 BACKGROUND, 3 MIGRATE, in the order of R461. -/
def entryCode : Entry → Nat
  | .reset => 0
  | .tick => 1
  | .background => 2
  | .migrate => 3

/-- A register bank whose values nothing states, with its program counter (log entry 1): g0 reads 0 (R460). -/
def State.freeBank (s : State) (pc : Nat) : CoreBank :=
  let v (i : Nat) : Nat := Config.unstated ((s.free + i) * 64 + 14)
  ⟨0 :: (List.range 31).map (fun i => v i % 2 ^ 32), (List.range 4).map (fun i => v (31 + i) % 2 ^ 64), pc, v 35 % 2 ^ 32⟩

/-- The background context is dropped: BACKGROUND restarts at its entry in the active image (R464, R481). -/
def State.dropBackground (s : State) : State :=
  { s with tri := { s.tri with backBank := s.freeBank (imgWord s.activeImage 20) }, free := s.free + 36 }

/-- A trap taken by all members (R464). -/
def State.trap (s : State) (en : Entry) (pc cause : Nat) : State :=
  let s := s.triadEvent 3 3 (entryCode en) pc cause
  match en with
  | .tick => if s.tm.s1run then s.overrun 1 else s
  | .migrate => if s.tm.s1run then s.overrun 1 else s
  | .background => s.dropBackground
  | .reset => s

/-- TRAP (R464): the entry, the program counter and the cause. -/
def execTrap (en : Entry) (pc cause : Nat) (s : State) : Host.Outcome State Fault Refusal :=
  .next (s.live fun s => s.trap en pc cause)

/-- TREADY (R461, R523, R635): the RESET entry has executed tready. Descriptors that a restart ended complete with ABORTED. -/
def execTready (s : State) : Host.Outcome State Fault Refusal :=
  .next <| s.live fun s =>
    if s.tri.imageOk then
      let s := { s with pwr := { s.pwr with tready := true, restart := false } }
      s.hst.aborted.foldl (fun s d => s.complete d 0x0C 0 []) { s with hst := { s.hst with aborted := [] } }
    else s

/-! ### Debug (R478, R479, R412) -/

/-- Debug access is open: PROVISIONED and COMMISSIONING only (R478, R650). -/
def State.debugOpen (s : State) : Bool := s.rd LC_STATE.STATE == 1 || s.rd LC_STATE.STATE == 2

/-- What the core's registers hold is the firmware's: the values at this instant are open (log entry 1). -/
def State.freeCore (s : State) : State :=
  let b := s.freeBank (Config.unstated (s.free * 64 + 15) % 2 ^ 32)
  let s := { s with tri := { s.tri with tickBank := b }, free := s.free + 36 }
  { s with tri := { s.tri with backBank := s.freeBank (Config.unstated (s.free * 64 + 15) % 2 ^ 32) }, free := s.free + 36 }

/-- All running members halt in the same cycle (R478); a TICK entry that is running is interrupted (R479), and what must
hold for a time counts anew after it (R704). -/
def State.halt (s : State) : State :=
  if !s.debugOpen ∨ s.bit TRI_STATUS.DBG_HALT then s
  else
    let s := ((s.wr TRI_STATUS.DBG_HALT 1).wr SLC_BLOCK_STATUS.DBG_HALT 1).breakTimes
    ({ s with tri := { s.tri with haltTicks := 0, dropTick := s.tri.dropTick || s.tm.s1run } }).freeCore

/-- DEBUG_HALT (R478, R479). -/
def execDebugHalt (s : State) : Host.Outcome State Fault Refusal := .next (s.live State.halt)

/-- DEBUG_BREAKPOINT (R478): an instruction breakpoint or data watchpoint hit. -/
def execDebugBreakpoint (s : State) : Host.Outcome State Fault Refusal := .next (s.live State.halt)

/-- DEBUG_RESUME (R412, R479): all members go on; the overrun count restarts from 0. -/
def execDebugResume (s : State) : Host.Outcome State Fault Refusal :=
  .next <| s.live fun s =>
    if s.bit TRI_STATUS.DBG_HALT then
      ((s.wr TRI_STATUS.DBG_HALT 0).wr SLC_BLOCK_STATUS.DBG_HALT 0).wr CLK_TICK_STATUS.OVR_CONSEC 0
    else s

/-- DEBUG_SINGLE_STEP (R478): all running members execute one instruction together and stay halted. The firmware's
instructions are the user's: what one leaves in the core's registers is open, and what it does to the device is a
WRITE_COMMIT of its own. Where debug access is closed the port selects the bypass register. -/
def execDebugSingleStep (s : State) : Host.Outcome State Fault Refusal :=
  .next (s.live fun s => if s.debugOpen ∧ s.bit TRI_STATUS.DBG_HALT then s.freeCore else s)

/-! ### Firmware staging and swap (R480 to R484) -/

/-- The bytes of a part came: they are written into the shadow bank of every running member; the last part is checked,
after the rejoin during RESYNC (R481, R484). -/
def State.staged (s : State) (d : Desc) (offset : Nat) (last differ : Bool) (l : List Byte) : State :=
  let s := if s.rd TRI_STATUS.ACTIVE_BANK = 0 then { s with tri := { s.tri with bank1 := memStore s.tri.bank1 offset l } }
    else { s with tri := { s.tri with bank0 := memStore s.tri.bank0 offset l } }
  let s := s.unstage
  if !last then (s.wr TRI_FW_STATUS.STAGING 0).complete d 0 0 []
  else if s.rd TRI_STATUS.MODE = 2 then { s with tri := { s.tri with stagePend := some (d, differ) } }
  else s.checkStaged d differ

/-- FW_STAGE (R481, R506, R514): a part that is written clears STAGED, the first one before its read; `differ` says that the three members' shadow banks differ when the
last part is checked. -/
def execFwStage (h : DescHdr) (offset len : Nat) (last differ : Bool) (addr : Nat) (s : State) :
    Host.Outcome State Fault Refusal :=
  .next (s.live fun s => s.runDesc h 0x08 (fun d s =>
    if 131072 < offset + len then s.complete d 4 0 []
    else if len = 0 then (s.wr TRI_FW_STATUS.STAGING 1).staged d offset last differ []
    else (s.wr TRI_FW_STATUS.STAGING 1).access (.fwStage d offset len last differ addr)))

/-- The S1 window in core cycles (R461). -/
def State.s1Window (s : State) : Nat :=
  (s.rdi CLK_TICK_DEADLINE_n.DEADLINE 1 - s.rdi CLK_TICK_DEADLINE_n.DEADLINE 0) * 10

/-- FW_SWAP (R481, R506): RESULT 5 when nothing is staged or the triad is halted, RESULT 6 when the declared cycles
exceed the S1 window, else PENDING. -/
def execFwSwap (h : DescHdr) (s : State) : Host.Outcome State Fault Refusal :=
  .next (s.live fun s => s.runDesc h 0x09 (fun d s =>
    if s.rd TRI_FW_STATUS.STAGED = 0 ∨ s.bit TRI_STATUS.DBG_HALT then (s.wr TRI_FW_STATUS.RESULT 5).complete d 2 0 []
    else
      let img := s.shadowImage
      if s.s1Window < imgTickCycles img + imgMigrateCycles img then (s.wr TRI_FW_STATUS.RESULT 6).complete d 0x0B 0 []
      else
        let s := if s.bit TRI_FW_STATUS.PENDING then s else s.askAt TRI_FW_STATUS.PENDING.base
        ({ s with tri := { s.tri with swapDesc := s.tri.swapDesc ++ [d] } }).wr TRI_FW_STATUS.PENDING 1))

/-- Every running member flips its active bank; the version registers follow (R481, R493). -/
def State.flipBanks (s : State) : State :=
  let a := s.rd TRI_FW_VER_ACTIVE.VERSION
  let b := s.rd TRI_FW_VER_SHADOW.VERSION
  ((s.wr TRI_STATUS.ACTIVE_BANK (1 - s.rd TRI_STATUS.ACTIVE_BANK)).wr TRI_FW_VER_ACTIVE.VERSION b).wr
    TRI_FW_VER_SHADOW.VERSION a

/-- SWAP_TICK (R481, R484): the first boundary with PENDING and no rebuild at step 4 or 5, which a rejoin has not taken. -/
def execSwapTick (s : State) : Host.Outcome State Fault Refusal :=
  .next <| s.live fun s =>
    let st := s.rd TRI_STATUS.RSTEP
    if s.bit TRI_FW_STATUS.PENDING ∧ st ≠ 4 ∧ st ≠ 5 ∧ !s.rejoined ∧ s.boundaryDue TRI_FW_STATUS.PENDING.base then
      let s := (s.flipBanks.wr TRI_FW_STATUS.PENDING 0).dropBackground
      { s with tri := { s.tri with swapTick := true, bgDropped := true } }
    else s

/-- The swap tick executed tend in time (R481, step 5). -/
def State.swapStands (s : State) : State :=
  if !s.tri.swapTick then s
  else
    let ds := s.tri.swapDesc
    let s := { s with tri := { s.tri with swapTick := false, swapDesc := [], bgDropped := false } }
    let s := (s.wr TRI_FW_STATUS.RESULT 1).triadEvent 4 3 0 (s.rd TRI_FW_VER_ACTIVE.VERSION) 0
    ds.foldl (fun s d => s.complete d 0 0 []) s

/-- FW_SWAP_REVERT (R482): at the boundary after a failed swap tick the banks flip back. -/
def execFwSwapRevert (s : State) : Host.Outcome State Fault Refusal :=
  .next <| s.live fun s =>
    if s.tri.revert ∧ s.tm.phase = 0 then
      let ds := s.tri.swapDesc
      let s := { s with tri := { s.tri with revert := false, swapDesc := [] } }
      let s := (s.flipBanks.wr TRI_FW_STATUS.RESULT 4).triadEvent 5 3 0 (s.rd TRI_FW_VER_SHADOW.VERSION) 0
      ds.foldl (fun s d => s.complete d 0x0A 0 []) s
    else s

end Sys2Proof.Machine
end

