-- ==== Sys2Proof/Machine/Host.lean ====
section
/-! DEFINITION. The meanings of the commands of the host interface (14_host_interface.md). -/
namespace Sys2Proof.Machine
open Reg

/-! ### Doorbells and ring states (R500 to R503) -/

/-- The doorbell's validity rule of R500: on a COMMAND or BULK ring a new producer counter, on a COMPLETION or EVENT
ring a new consumer counter. -/
def State.doorbellValid (s : State) (r x : Nat) : Bool :=
  let n := s.ringSize r
  let dev := s.rdi RING_STATE_n.CONS r
  let ctr := s.hostCtr r
  let ty := s.rdi RING_CFG_n.TYPE r
  if ty = 0 ∨ ty = 3 then
    decide ((x + 65536 - ctr) % 65536 ≤ n) && decide ((x + 65536 - dev) % 65536 ≤ n)
  else decide ((x + 65536 - ctr) % 65536 ≤ (dev + 65536 - ctr) % 65536)

/-- A ring goes to HALTED_ERROR with a status (R502). -/
def State.haltError (s : State) (r status : Nat) : State :=
  let old := s.rdi RING_STATE_n.STATE r
  ((s.haltRing r 5 status 0 0).queueRingState r old 5).drain (s.evRing 0x90)

/-- A doorbell's value takes effect (R500, R501, R503, R496): nothing below B2, in D3hot or on a DISABLED ring. -/
def State.ringDoorbell (s : State) (r value : Nat) : State :=
  let x := value % 65536
  let st := s.rdi RING_STATE_n.STATE r
  let ty := s.rdi RING_CFG_n.TYPE r
    if s.stage < 2 ∨ s.hst.d3 ∨ st = 0 then s
    else if !s.doorbellValid r x then (if st = 1 then s.haltError r 0x20 else s)
    else
      let s := s.setHostCtr r x
      let s := if (ty = 0 ∨ ty = 3) ∧ s.bit PWR_STATUS.SLEEP ∧ s.bit PWR_WAKE_EN.DOORBELL then s.wake 0 else s
      if ty = 2 then (s.consumeRecords r).drain r else s

/-- DOORBELL (R466, R467, R500): the members' copies of the value are voted as a number,
and the voted value takes effect. -/
def execDoorbell (ring : Fin 64) (x : BellIn) (s : State) : Host.Outcome State Fault Refusal :=
  .next <| s.live fun s =>
    let (s, v) := s.voted median3 (fun m => sgn 32 (copyOf x.skew x.value m))
    s.ringDoorbell ring.val (unsg 32 v)

/-- A configuration of RING_CFG_n is valid for enabling (R502): for a COMMAND or BULK ring its CRING names an ACTIVE
COMPLETION ring. -/
def State.ringCfgValid (s : State) (v : Nat) : Bool :=
  let ty := bits v 29 2
  let c := bits v 19 6
  decide (2 ≤ s.stage) &&
  (ty == 1 || ty == 2 || (s.rdi RING_STATE_n.STATE c == 1 && s.rdi RING_CFG_n.TYPE c == 1))

/-- A write of RING_CFG_n (R502, R532): accepted only in DISABLED; with EN it makes the ring ACTIVE with both counters
0. -/
def State.writeRingCfg (s : State) (r v : Nat) : State :=
  if s.rdi RING_STATE_n.STATE r ≠ 0 ∨ !inRange (RING_CFG_n.EN.off r) v then s.refuse HOST_STATUS.CFG_ERR
  else if bits v 31 1 = 0 then s.putRwi RING_CFG_n.EN r v
  else if !s.ringCfgValid v then s.refuse HOST_STATUS.CFG_ERR
  else
    let s := s.putRwi RING_CFG_n.EN r v
    let s := ((s.wri RING_STATE_n.CONS r 0).wri RING_STATE_n.INFLIGHT r 0).setHostCtr r 0
    let s := s.setRingState r 1
    let s := { s with hst := { s.hst with doneCtr := tdel s.hst.doneCtr r } }
    if bits v 29 2 = 2 then (s.repostRecords r).drain r else s

/-- A write of the host through a BAR: in D3hot BAR access is disabled (R495). -/
def State.byBar (s : State) (g : State → State) : State := s.live fun s => if s.hst.d3 then s else g s

/-- RING_ENABLE (R502): a write of RING_CFG_n, whose word is the operand, with EN set. -/
def execRingEnable (ring : Fin 64) (cfg : Nat) (s : State) : Host.Outcome State Fault Refusal :=
  .next (s.byBar fun s => s.writeRingCfg ring.val (cfg % 2 ^ 31 + 2 ^ 31))

/-- RING_CTRL_n.STOP (R502). -/
def State.ringStop (s : State) (r : Nat) : State :=
  if s.rdi RING_STATE_n.STATE r = 1 then s.setRingState r 2 else s.refuse HOST_STATUS.CFG_ERR

/-- RING_STOP (R502). -/
def execRingStop (ring : Fin 64) (s : State) : Host.Outcome State Fault Refusal := .next (s.byBar fun s => s.ringStop ring.val)

/-- RING_STOPPED (R502): STOPPING with INFLIGHT 0 becomes STOPPED. -/
def execRingStopped (ring : Fin 64) (s : State) : Host.Outcome State Fault Refusal :=
  .next (s.live fun s => if s.rdi RING_STATE_n.STATE ring.val = 2 ∧ s.rdi RING_STATE_n.INFLIGHT ring.val = 0 then
    s.setRingState ring.val 3 else s)

/-- RING_CTRL_n.RESTART (R502, R535): resumes at CONS with the counters kept and RING_FAULT_n cleared; a COMMAND or
BULK ring whose COMPLETION ring is DISABLED halts again with BAD_CRING. -/
def State.ringRestart (s : State) (r : Nat) : State :=
  let st := s.rdi RING_STATE_n.STATE r
  if st = 3 ∨ st = 4 ∨ st = 5 then
    let s := ((s.wri RING_FAULT_n.STATUS r 0).wri RING_FAULT_n.ACCESS r 0).wri RING_FAULT_n.PAGE r 0
    let s := s.setRingState r 1
    let ty := s.rdi RING_CFG_n.TYPE r
    if (ty = 0 ∨ ty = 3) ∧ s.rdi RING_STATE_n.STATE (s.rdi RING_CFG_n.CRING r) = 0 then s.haltError r 0x21
    else if ty = 2 then s.drain r
    else s
  else s.refuse HOST_STATUS.CFG_ERR

/-- RING_RESTART (R502). -/
def execRingRestart (ring : Fin 64) (s : State) : Host.Outcome State Fault Refusal := .next (s.byBar fun s => s.ringRestart ring.val)

/-- RING_CTRL_n.RESET (R502): an idle stopped or halted ring becomes DISABLED; ACTIVE rings that name a COMPLETION ring
so reset go to HALTED_ERROR with BAD_CRING. -/
def State.ringReset (s : State) (r : Nat) : State :=
  let st := s.rdi RING_STATE_n.STATE r
  if (st = 3 ∨ st = 4 ∨ st = 5) ∧ s.rdi RING_STATE_n.INFLIGHT r = 0 then
    let comp := s.rdi RING_CFG_n.TYPE r == 1
    let s := s.setRingState r 0
    if comp then
      (List.range 64).foldl (fun s n =>
        let ty := s.rdi RING_CFG_n.TYPE n
        if s.rdi RING_STATE_n.STATE n = 1 ∧ (ty = 0 ∨ ty = 3) ∧ s.rdi RING_CFG_n.CRING n = r then s.haltError n 0x21
        else s) s
    else s
  else s.refuse HOST_STATUS.CFG_ERR

/-- RING_RESET (R502). -/
def execRingReset (ring : Fin 64) (s : State) : Host.Outcome State Fault Refusal := .next (s.byBar fun s => s.ringReset ring.val)

/-- A write of RING_CTRL_n: exactly one of STOP, RESTART and RESET; several at once are refused (R502, R533). -/
def State.writeRingCtrl (s : State) (r v : Nat) : State :=
  match bitOf v 31, bitOf v 30, bitOf v 29 with
  | true, false, false => s.ringStop r
  | false, true, false => s.ringRestart r
  | false, false, true => s.ringReset r
  | false, false, false => s
  | _, _, _ => s.refuse HOST_STATUS.CFG_ERR

/-! ### Short descriptors (R505, R506) -/

/-- NOP (R505): completes at tend of the tick after agreement. -/
def execNop (h : DescHdr) (s : State) : Host.Outcome State Fault Refusal :=
  .next (s.live fun s => s.runDesc h 0x00 (fun d s => s.completeAtTend d 0 []))

/-- HOST_TIME (R505, R506): WALL waits for the tick after agreement, which pairs it with its elapsed time. -/
def execHostTime (h : DescHdr) (wall : Nat) (s : State) : Host.Outcome State Fault Refusal :=
  .next (s.live fun s => s.runDesc h 0x06 (fun d s => s.putWait (.hostTime d (wall % 2 ^ 64))))

/-- The status of an unlisted or misplaced opcode (R505). A CONVERTER or CELL_SERVICE descriptor on a COMMAND ring comes here
with an ACTION that its table does not list: a field outside its range (R508; log entry 104). CELL of CELL_SERVICE is
checked before it (R506). -/
def State.otherStatus (s : State) (ring opcode cell : Nat) : Nat :=
  if s.rdi RING_CFG_n.TYPE ring ≠ 0 then 3
  else if opcode = 2 then 4
  else if opcode = 3 then (s.cellField cell).getD (if s.enabled cell then 4 else 5)
  else 3

/-- BAD_OPCODE (R505): a descriptor that no other row names ends with its status. -/
def execBadOpcode (h : DescHdr) (x : OtherDesc) (s : State) : Host.Outcome State Fault Refusal :=
  .next (s.live fun s => match s.startDesc h (x.opcode % 256) with
    | .wait s => s
    | .go d s => s.complete d (s.otherStatus h.ring.val (x.opcode % 256) x.cell) 0 [])

/-- Walked BUFFER accesses become host buffers that wait for queue entries (R359, R505). -/
def State.takeBuffers (s : State) : State :=
  let new := s.hst.jobs.filterMap (fun j =>
    match j.kind, j.phase with
    | .buffer d len addr, .data => some (Buf.mk d addr len 0 0 false false false none j.found)
    | _, _ => none)
  let rest := s.hst.jobs.filter (fun j =>
    match j.kind, j.phase with
    | .buffer .., .data => false
    | _, _ => true)
  { s with hst := { s.hst with jobs := rest, bufs := s.hst.bufs ++ new } }

/-- BUFFER (R505): LEN a multiple of 512 from 512 to 65,536. -/
def execBuffer (h : DescHdr) (len addr : Nat) (s : State) : Host.Outcome State Fault Refusal :=
  .next (s.live fun s => s.runDesc h 0x40 (fun d s =>
    if len % 512 ≠ 0 ∨ len < 512 ∨ 65536 < len then s.complete d 4 0 []
    else (s.access (.buffer d len addr)).takeBuffers))

/-- A host buffer completes: BYTES, QUEUE and FLAGS (R505). -/
def State.finishBuf (s : State) (b : Buf) : State :=
  let s := { s with hst := { s.hst with bufs := s.hst.bufs.filter (fun x => x.d != b.d) } }
  s.complete b.d 0 0 [(32, 4, b.filled), (36, 1, b.queue), (37, 1, b2n b.trunc + 2 * b2n b.closed + 4 * b2n b.loss)]

/-- BUFFER_TIMEOUT (R505): the ring's first buffer completes 1 ms after its first burst. -/
def execBufferTimeout (ring : Fin 64) (t : Nat) (s : State) : Host.Outcome State Fault Refusal :=
  .next <| s.live fun s =>
    let s := s.moveTo t
    match s.hst.bufs.find? (fun b => b.d.ring == ring.val) with
    | none => s
    | some b =>
      match b.firstAt with
      | some t0 => if t0 + 1000000 ≤ s.tm.e then s.finishBuf b else s
      | none => s

/-- An image ends in its own CRC-32C (R326). -/
def imageCrcOk (l : List Byte) : Bool :=
  decide (4 ≤ l.length) && crc32c (l.take (l.length - 4)) == ofBytes (l.drop (l.length - 4))

/-- The bytes of a FURROW_LOAD came: the image is stored and its CRC-32C checked (R326, R505). -/
def State.furrowDone (s : State) (d : Desc) (cell kind : Nat) (img : List Byte) : State :=
  let s := s.updCell cell (fun x =>
    { x with svc := { x.svc with
        dirty := true
        cfgImg := if kind = 0 then some img else x.svc.cfgImg
        calImg := if kind = 0 then x.svc.calImg else some img } })
  s.complete d (if imageCrcOk img then 0 else 8) 0 []

/-- FURROW_LOAD (R326, R505, R506): CELL before any other field, then the conditions of R59, then KIND and LEN. -/
def execFurrowLoad (h : DescHdr) (cell kind len addr : Nat) (s : State) : Host.Outcome State Fault Refusal :=
  .next (s.live fun s => s.runDesc h 0x04 (fun d s =>
    match s.cellField cell with
    | some st => s.complete d st 0 []
    | none =>
      if s.enabled cell && !([0, 7, 8, 9].contains (s.sstate cell)) then s.complete d 2 0 []
      else if 1 < kind ∨ len % 4 ≠ 0 ∨ (kind = 0 ∧ 256 < len) ∨ (kind = 1 ∧ 1024 < len) then s.complete d 4 0 []
      else if len = 0 then s.furrowDone d cell kind []
      else s.access (.furrow d cell kind len addr)))

/-! ### Completions, lost events, interrupts -/

/-- The counter moves past descriptors whose completions are written, one after the other. -/
def nextDone : Nat → Nat × List Nat → Nat × List Nat
  | 0, x => x
  | n + 1, (c, l) => if l.contains c then nextDone n ((c + 1) % 65536, l.filter (fun x => x != c)) else (c, l)

/-- The completion of the descriptor at an index is written (R558). -/
def passDone (index : Nat) (x : Nat × List Nat) : Nat × List Nat := nextDone (x.2.length + 1) (x.1, index :: x.2)

/-- A completion entry leaves for its slot (R507, R510, R511, R523). -/
def State.writeCompletion (s : State) (r : Nat) (c : Completion) (phys : Nat) : State :=
  let ctr := s.rdi RING_STATE_n.CONS r
  let s := { s with hst := { s.hst with
      comps := s.hst.comps.erase c
      doneCtr := if s.rdi RING_CFG_n.TYPE c.ring = 0 then
        tput (fun _ => (0, [])) s.hst.doneCtr c.ring (passDone c.index (tget (fun _ => (0, [])) s.hst.doneCtr c.ring))
        else s.hst.doneCtr } }
  let s := (s.emit (.completion phys (completionBytes (s.phaseBit r ctr) c))).wri RING_STATE_n.CONS r (ctr + 1)
  (s.flight c.ring false).entryWritten r

/-- COMPLETION_POST (R510, R511): the ring's oldest waiting completion is written when the ring has room; the
descriptor is then no longer in flight, and a COMMAND ring's committed counter passes it (R523). After PF_WARN none is
written (R560). One on which no two members agree does not leave (R468). -/
def execCompletionPost (x : PostIn) (s : State) : Host.Outcome State Fault Refusal :=
  let r := x.ring.val
  .next (s.live fun s => match s.hst.comps.find? (fun c => c.cring == r) with
    | none => s
    | some c =>
      let ctr := s.rdi RING_STATE_n.CONS r
      if s.rdi RING_CFG_n.TYPE r ≠ 1 ∨ !s.ringOpen r 1 ∨ s.pwr.pfAt ≠ none then s
      else
        match s.entryPhys r ctr with
        | none => s.askEntry r ctr
        | some (.error st) => s.haltFault r st 3 (faultPage (s.slotAddr r ctr))
        | some (.ok phys) => s.agreed 0 (some (phys % 2 ^ 24)) x.agree (fun s => s.writeCompletion r c phys)
            (fun s => { s with hst := { s.hst with comps := s.hst.comps.erase c } }))

/-- EVENTS_LOST (R519): one record with the count and the first SEQ once room has returned. -/
def execEventsLost (ring : Fin 64) (s : State) : Host.Outcome State Fault Refusal :=
  let r := ring.val
  let l := tget (fun _ => (0, 0)) s.hst.lost r
  let used := ((tget (fun _ => []) s.hst.evq r).map Event.entries).foldl (· + ·) 0
  .next (s.live fun s => if l.1 = 0 ∨ 1024 ≤ used then s
    else
      let s := { s with hst := { s.hst with lost := tput (fun _ => (0, 0)) s.hst.lost r (0, 0) } }
      (s.queueOn r 0xFF [(24, 4, l.1), (28, 4, l.2)] []).drain r)

/-- MSIX_COALESCE_TIMEOUT (R521): COAL_US µs after the first unsignalled entry. -/
def execMsixCoalesceTimeout (ring : Fin 64) (t : Nat) (s : State) : Host.Outcome State Fault Refusal :=
  let r := ring.val
  .next <| s.live fun s =>
    let s := s.moveTo t
    let us := s.rdi RING_CFG_n.COAL_US r
    if tget (fun _ => 0) s.hst.unsig r = 0 ∨ us = 0 ∨
      s.tm.e < tget (fun _ => 0) s.hst.unsigAt r + us * 1000 ∨ s.hst.d3 then s
    else
      let s := { s with hst := { s.hst with unsig := tput (fun _ => 0) s.hst.unsig r 0 } }
      if s.biti RING_CFG_n.IRQ_EN r then s.emit (.msix (s.rdi RING_CFG_n.VECTOR r)) else s

/-! ### Translation cache (R516) -/

/-- The cached translations that an invalidation leaves. -/
def invalidated (w : Option Nat) (l : List Trans) : List Trans :=
  match w with
  | none => []
  | some p => l.filter (fun t => t.page != p)

/-- A write of HOST_WALK_INV (R529): an invalidation of everything or of one page begins; one still in progress is
finished first. -/
def State.writeWalkInv (s : State) (v : Nat) : State :=
  let cache := match s.hst.inv with
    | some w => invalidated w s.hst.cache
    | none => s.hst.cache
  ({ s with hst := { s.hst with cache := cache, inv := some (if bitOf v 31 then none else some (bits v 0 18)) } }).wr
    HOST_WALK_INV.BUSY 1

/-- WALK_INVALIDATE (R516, R529). -/
def execWalkInvalidate (value : Nat) (s : State) : Host.Outcome State Fault Refusal := .next (s.byBar fun s => s.writeWalkInv value)

/-- WALK_INVALIDATE_DONE (R516). -/
def execWalkInvalidateDone (s : State) : Host.Outcome State Fault Refusal :=
  .next (s.live fun s => match s.hst.inv with
    | none => s
    | some w => ({ s with hst := { s.hst with cache := invalidated w s.hst.cache, inv := none } }).wr HOST_WALK_INV.BUSY 0)

/-- A write of HOST_WALK_ROOT_LO or _HI (R516, R527): the root is set and the cache emptied. -/
def State.writeWalkRoot (s : State) (hi : Bool) (v : Nat) : State :=
  let s := if hi then s.putRw HOST_WALK_ROOT_HI.ADDR_HI.base v else s.putRw HOST_WALK_ROOT_LO.ADDR.base v
  { s with hst := { s.hst with cache := [] } }

/-- HOST_WALK_ROOT_WRITE (R516, R527). -/
def execHostWalkRootWrite (hi : Bool) (value : Nat) (s : State) : Host.Outcome State Fault Refusal :=
  .next (s.byBar fun s => s.writeWalkRoot hi value)

/-! ### Function-level reset -/

/-- FUNCTION_LEVEL_RESET (R494, R523): every ring DISABLED, the cache empty, MSI-X reset; descriptors in flight run to
their end and leave no completion. -/
def execFunctionLevelReset (s : State) : Host.Outcome State Fault Refusal :=
  .next <| s.live fun s =>
  let s := (List.range 64).foldl (fun s r =>
    if s.rdi RING_STATE_n.STATE r = 0 then s
    else
      let old := s.rdi RING_STATE_n.STATE r
      ((s.wri RING_STATE_n.STATE r 0).wri RING_STATE_n.INFLIGHT r 0).queueRingState r old 0) s
  let s := s.wr HOST_STATUS.IN_FLIGHT 0
  { s with hst := { s.hst with
      epoch := s.hst.epoch + 1
      comps := []
      atTend := []
      atNext := []
      cache := []
      unsig := []
      unsigAt := []
      jobs := s.hst.jobs.filter (fun j => j.kind.desc.isSome) } }

end Sys2Proof.Machine
end

