-- ==== Sys2Proof/Machine/Acq.lean ====
section
/-! DEFINITION. Converters, triggers, result queues and comparators (10_acquisition.md). S0's work on the control
samples is in Tick.lean, the housekeeping round in Thermal.lean. -/
namespace Sys2Proof.Machine
open Reg

/-! ### Values (R344, R355) -/

/-- The function of a converter (R342); none while it is disabled. With TEST it is served from the level of TESTLVL
(R345). -/
def State.func (s : State) (n : Nat) : Nat := if s.biti ADC_CH_CFG_n.EN n then s.rdi ADC_CH_CFG_n.FUNC n else 0

/-- A converter holds a function and measures it: under R343 and for the pair check, TEST leaves it unassigned (R345,
R351). -/
def State.measured (s : State) (f : Nat) : Bool :=
  (List.range 16).any (fun n => s.func n == f && !s.biti ADC_CH_CFG_n.TEST n)

/-- A code after the trim in force, in codes (R344). -/
def State.trimmed (s : State) (n : Nat) (code : Rat) : Rat :=
  let t := s.adc.trim.getD n (0, 16384)
  (code - (t.1 : Rat) / 4) * (t.2 : Rat) / 16384

/-- A trimmed code's value in the unit of its function (R344). -/
def State.valueOf (s : State) (n : Nat) (code : Rat) : Rat := s.trimmed n code * (s.rdi ADC_CH_CFG_n.FS n : Rat) / 8192

/-- The mean of codes. -/
def meanCodes (l : List Int) : Rat := if l = [] then 0 else ((l.foldl (· + ·) 0 : Int) : Rat) / (l.length : Rat)

/-- SAMPLE of an entry (R355): functions 1 to 9 trimmed, in 1/32,768 of full scale; the others four times the code. -/
def State.sampleOf (s : State) (n : Nat) (l : List Int) : Nat :=
  let f := s.rdi ADC_CH_CFG_n.FUNC n
  let m := meanCodes l
  unsg 16 (showR 10 (-32768) 32767 (if 1 ≤ f ∧ f ≤ 9 then s.trimmed n m * 4 else m * 4))

/-- A code is clipped (R348). -/
def clipped (c : Int) : Bool := c == 8191 || c == -8192

/-- An enabled converter with a function from 1 to 15 has not converged (R370). -/
def State.calPending (s : State) : Bool :=
  (List.range 16).any (fun n =>
    let f := s.rdi ADC_CH_CFG_n.FUNC n
    s.biti ADC_CH_CFG_n.EN n && decide (1 ≤ f) && decide (f ≤ 15) && !bitOf (s.rd ADC_STATUS.CAL_DONE) n)

/-! ### Queues (R355 to R359) -/

/-- The 8 bytes of an entry, little-endian (R355, R356). -/
def entryBytes (e : QEnt) : List Byte :=
  if e.tag = 0x7F then leBytes 8 (e.tag * 2 ^ 16 + e.time / 2 ^ 32 % 2 ^ 32 * 2 ^ 32)
  else leBytes 8 (e.sample % 2 ^ 16 + e.tag % 128 * 2 ^ 16 + e.trig % 32 * 2 ^ 23 + b2n e.calp * 2 ^ 29 + b2n e.loss * 2 ^ 30 +
    b2n e.ovr * 2 ^ 31 + e.time % 2 ^ 32 * 2 ^ 32)

/-- The host buffer that takes a queue's next burst: the first of its BULK ring (R359). -/
def State.bufFor (s : State) (q : Nat) : Option Buf :=
  s.hst.bufs.find? (fun b => b.d.ring == s.rdi ADC_Q_CFG_q.RING q)

/-- The queue drains to host memory: running in modes 0 and 1, or frozen (R357 to R359). -/
def State.drains (s : State) (q : Nat) : Bool :=
  s.biti ADC_Q_CFG_q.DRAIN q && (s.qstate q == 1 || s.qstate q == 4) && !s.hst.d3

/-- A frozen capture whose queue is empty closes whole, and so does its host buffer (R358, R382, R505). -/
def State.qClose (s : State) (q : Nat) : State :=
  if s.qstate q = 4 ∧ (s.queue q).ents = [] ∧ (s.queue q).ingress = [] then
    let s := (s.wri ADC_Q_STATUS_q.STATE q 5).wri ADC_Q_STATUS_q.TRUNC q 0
    match s.bufFor q with
    | some b => if b.filled ≠ 0 ∧ b.queue = q then s.finishBuf { b with closed := true } else s
    | none => s
  else s

/-- One burst of at most 64 entries into the next host buffer (R359); a full buffer completes (R505). -/
def State.qBurst (s : State) (q : Nat) : State :=
  match s.bufFor q with
  | none => s
  | some b =>
    let x := s.queue q
    let n := min (min 64 x.ents.length) ((b.len - b.filled) / 8)
    let es := x.ents.take n
    let rest := x.ents.drop n
    let s := s.dmaWrite b.pages (b.addr + b.filled) (es.flatMap entryBytes)
    let s := s.setQueue q { x with ents := rest }
    let b := { b with filled := b.filled + 8 * n, queue := q, loss := b.loss || es.any (fun e => e.loss),
                      firstAt := some (b.firstAt.getD s.tm.e) }
    if b.len ≤ b.filled then s.finishBuf b
    else { s with hst := { s.hst with bufs := s.hst.bufs.map (fun y => if y.d = b.d then b else y) } }

/-- Whole bursts of 64 entries go out, at most `k` of them (R359). -/
def State.qBursts : Nat → State → Nat → State
  | 0, s, _ => s
  | k + 1, s, q => if s.drains q ∧ 64 ≤ (s.queue q).ents.length then State.qBursts k (s.qBurst q) q else s

/-- What follows an entry that a queue took: a whole burst goes out, an empty frozen queue closes. -/
def State.qAfter (q : Nat) (s : State) : State := (State.qBursts 64 s q).qClose q

/-- Time passes for a queue: entries arrive, the ingress buffer flows, whole bursts go out, an empty frozen queue closes. -/
def State.qRun (s : State) (q now : Nat) : State := (State.qCatch (State.qAfter q) s q now).qAfter q

/-- Time passes for every queue. -/
def State.qRunAll (s : State) : State := (List.range 8).foldl (fun s q => s.qRun q s.tm.e) s

/-- QUEUE_BURST_TIMEOUT (R359): a partial burst goes out 100 µs after its first entry. -/
def execQueueBurstTimeout (q : Fin 8) (t : Nat) (s : State) : Host.Outcome State Fault Refusal :=
  .next <| s.live fun s =>
    let s := (s.moveTo t).qRun q.val t
    match (s.queue q.val).firstAt with
    | some f => if s.drains q.val ∧ f + 100000 ≤ s.tm.e then (s.qBurst q.val).qClose q.val else s
    | none => s

/-- A capture in progress is closed and marked TRUNC (R42, R358). -/
def State.qTruncate (s : State) (q : Nat) : State :=
  if s.qstate q = 3 ∨ s.qstate q = 4 then
    let x := s.queue q
    let s := (s.setQueue q { x with ents := [], ingress := [], arr := [], post := 0 }).wri ADC_Q_STATUS_q.TRUNC q 1
    let s := s.wri ADC_Q_STATUS_q.STATE q 5
    match s.bufFor q with
    | some b => if b.filled ≠ 0 ∧ b.queue = q then s.finishBuf { b with trunc := true, closed := true } else s
    | none => s
  else s

/-- ADC_Q_CAP_q.ARM restarts a closed capture (R358). -/
def State.qArm (s : State) (q : Nat) : State :=
  let s := s.qRun q s.tm.e
  if s.qstate q = 5 ∧ s.biti ADC_Q_CFG_q.EN q then
    (s.wri ADC_Q_STATUS_q.STATE q 2).wri ADC_Q_STATUS_q.TRUNC q 0
  else s

/-- CAPTURE_ARM (R358, R381). -/
def execCaptureArm (q : Fin 8) (s : State) : Host.Outcome State Fault Refusal :=
  .next (s.live fun s => s.qArm q.val)

/-- A queue is empty and knows nothing of earlier entries. -/
def QSt.empty (e : Nat) : QSt := ⟨[], [], e, false, true, 0, 0, []⟩

/-- A write of ADC_Q_CFG_q (R380): MODE 3, a ring not of type BULK and POST 0 are refused; EN 0 empties the queue; a
queue enabled, or changed in mode, runs or waits for its capture event. -/
def State.writeQCfg (s : State) (q v : Nat) : State :=
  let off := ADC_Q_CFG_q.EN.off q
  let mode := bits v 29 2
  if mode = 3 ∨ !inRange off v ∨ s.rdi RING_CFG_n.TYPE (bits v 22 6) ≠ 3 then s.refuse ADC_STATUS.CFG_ERR
  else
    let was := s.biti ADC_Q_CFG_q.EN q
    let old := s.rdi ADC_Q_CFG_q.MODE q
    let s := (s.qRun q s.tm.e).putRwi ADC_Q_CFG_q.EN q v
    let start := if mode = 2 then 2 else 1
    if !bitOf v 31 then ((s.setQueue q (QSt.empty s.tm.e)).wri ADC_Q_STATUS_q.STATE q 0)
    else if !was then (s.setQueue q (QSt.empty s.tm.e)).wri ADC_Q_STATUS_q.STATE q start
    else if old = mode then s
    else s.wri ADC_Q_STATUS_q.STATE q start

/-- ADC_Q_CFG_WRITE (R380). -/
def execAdcQCfgWrite (q : Fin 8) (value : Nat) (s : State) : Host.Outcome State Fault Refusal :=
  .next (s.live fun s => s.writeQCfg q.val value)

/-- The HOST event of the queues named (R358); TAKEN lists those that took it (R505). -/
def State.takeCapture (s : State) (d : Desc) (queues : Nat) : State :=
  let s' := s.captureEvent (fun s q => bitOf queues q && s.biti ADC_Q_CAP_q.HOST q)
  let taken := ((List.range 8).filter (fun q => s.qstate q == 2 && s'.qstate q == 3)).foldl (fun m q => m + 2 ^ q) 0
  s'.complete d 0 0 [(32, 1, taken)]

/-- CAPTURE (R358, R505, R506, R509): at once, or behind the descriptors of its ring that wait for their tick. -/
def execCapture (h : DescHdr) (queues : Nat) (s : State) : Host.Outcome State Fault Refusal :=
  .next (s.live fun s => s.runDesc h 0x07 (fun d s =>
    if s.ringWaits d.ring then s.putWait (.capture d queues) else s.takeCapture d queues))

/-! ### Comparators (R365 to R368) -/

/-- The analog side of a comparator. -/
def State.cmp (s : State) (n : Nat) : CmpSt := s.adc.cmp.getD n ⟨0, false, 0, 0, 0, none⟩

/-- Change the analog side of a comparator. -/
def State.updCmp (s : State) (n : Nat) (g : CmpSt → CmpSt) : State :=
  { s with adc := { s.adc with cmp := s.adc.cmp.set n (g (s.cmp n)) } }

/-- The reference now, in converter codes (R365): the level, or the ramp, which moves by SLOPE codes every 100 ns and
saturates at −128 and 127 LSB. -/
def State.cmpRef (s : State) (n : Nat) : Int :=
  if s.biti CMP_CFG_n.RAMP n then
    clampI (-8192) 8128 ((s.cmp n).base + s.rdsi CMP_RAMP_n.SLOPE n * (((s.tm.e - (s.cmp n).baseAt) / 100 : Nat) : Int))
  else s.rdsi CMP_CFG_n.REF n * 64

/-- HYS in converter codes (R388). -/
def State.cmpHys (s : State) (n : Nat) : Rat :=
  let h := s.rdi CMP_CFG_n.HYS n
  if h = 0 then 0 else (2 ^ (h - 1) * 64 : Nat)

/-- The comparison of the input with the reference, by MODE, with hysteresis on the return side; the threshold carries
the temperature correction of its DAC (R364, R365). -/
def State.cmpIs (s : State) (n : Nat) : Bool :=
  let x := s.cmp n
  let r : Rat := (s.cmpRef n : Rat) + 64 * s.adc.dacCorr.getD n 0
  let h : Rat := if x.raw then s.cmpHys n else 0
  let v : Rat := x.input
  match s.rdi CMP_CFG_n.MODE n with
  | 0 => false
  | 1 => decide (r < v + h)
  | 2 => decide (v - h < r)
  | _ => decide (absR r < v + h) || decide (v - h < -absR r)

/-- Comparator `n` becomes active or not behind its filter: LIVE, the latch with its capture event, and its route unless
blanked (R358, R366, R367, R401). -/
def State.cmpSet (s : State) (n : Nat) (active : Bool) : State :=
  let live := if active then setBit s.slc.live n else clrBit s.slc.live n
  let was := bitOf s.slc.live n
  let latched := bitOf (s.rd CMP_STATUS.LATCH) n
  let s := if active || was then s.updCmp n (fun x => { x with setAt := some s.tm.e }) else s
  let s := ({ s with slc := { s.slc with live := live } }).wr CMP_STATUS.LIVE live
  if !active then s
  else
    let s := s.wr CMP_STATUS.LATCH (setBit (s.rd CMP_STATUS.LATCH) n)
    let s := if latched then s else s.captureEvent (fun s q => bitOf (s.rdi ADC_Q_CAP_q.CMP q) n)
    if was ∨ s.blanked n then s else s.cmpAct n

/-- A comparison that has stood for FILT passes the filter; a narrower pulse does not (R366). -/
def State.cmpSettle (s : State) (n : Nat) : State :=
  if (s.cmp n).raw ≠ bitOf s.slc.live n ∧ (s.cmp n).rawAt + s.rdi CMP_CFG_n.FILT n * 4 ≤ s.tm.e then s.cmpSet n (s.cmp n).raw
  else s

/-- A comparator looks at its input and its reference as they are now (R365, R366). -/
def State.cmpEval (s : State) (n : Nat) : State :=
  let s := s.cmpSettle n
  let v := s.cmpIs n
  if v = (s.cmp n).raw then s else (s.updCmp n (fun x => { x with raw := v, rawAt := s.tm.e })).cmpSettle n

/-- Every comparator looks: what has stood for FILT by now passes its filter (R366; log entry 124). -/
def State.cmpLook (s : State) : State := (List.range 16).foldl (fun s n => s.cmpEval n) s

/-- COMPARATOR_ACTIVE (R365, R366): comparator `n`'s input is at `input` converter codes from here. -/
def execComparatorActive (n : Fin 16) (input : Int) (t : Nat) (s : State) : Host.Outcome State Fault Refusal :=
  .next <| s.live fun s =>
    ((s.moveTo t).cmpLook.updCmp n.val (fun x => { x with input := input })).cmpEval n.val

/-- A latch is cleared, unless its comparator is active or was in this period of 4 ns (R367). -/
def State.cmpUnlatch (s : State) (n : Nat) : State :=
  let same := match (s.cmp n).setAt with
    | some e => decide (e / 4 = s.tm.e / 4)
    | none => false
  if bitOf s.slc.live n || same then s else s.wr CMP_STATUS.LATCH (clrBit (s.rd CMP_STATUS.LATCH) n)

/-- A period starts for the comparators of a source: ramps start at REF, and the latches with CLR 1 are cleared
(R365, R367, R368). -/
def State.periodStart (s : State) (src : Nat) : State :=
  (List.range 16).foldl (fun s n =>
    if s.rdi CMP_CFG_n.PERIOD_SRC n = src then
      let s := (s.cmpSettle n).updCmp n (fun x => { x with base := s.rdsi CMP_CFG_n.REF n * 64, baseAt := s.tm.e })
      let s := s.cmpEval n
      if s.rdi CMP_CFG_n.CLR n = 1 then s.cmpUnlatch n else s
    else s) s

/-- A clear of CMP_STATUS.LATCH (R367): comparators cleared by software. -/
def State.cmpClear (s : State) (v : Nat) : State :=
  (List.range 16).foldl (fun s n =>
    if bitOf v n && s.rdi CMP_CFG_n.CLR n == 0 then s.cmpUnlatch n else s) s.cmpLook

/-- CMP_LATCH_CLEAR (R367). -/
def execCmpLatchClear (value : Nat) (t : Nat) (s : State) : Host.Outcome State Fault Refusal :=
  .next (s.live fun s => (s.moveTo t).cmpClear value)

/-- A write of CMP_CFG_n or CMP_RAMP_n (R368): the latch stays; a ramp goes on from where it is, and from REF at the next
period start; a comparator set to MODE 0 is never active. -/
def State.writeCmp (s : State) (n : Nat) (ramp : Bool) (v : Nat) : State :=
  if !ramp ∧ (!inRange (CMP_CFG_n.MODE.off n) v ∨ 16 < bits v 23 5) then s.refuse ADC_STATUS.CFG_ERR
  else
    let s := s.cmpSettle n
    let s := s.updCmp n (fun x => { x with base := s.cmpRef n, baseAt := s.tm.e })
    let s := if ramp then s.putRwi CMP_RAMP_n.SLOPE n v else s.putRwi CMP_CFG_n.MODE n v
    if s.rdi CMP_CFG_n.MODE n = 0 then (s.updCmp n (fun x => { x with raw := false })).cmpSet n false
    else s.cmpEval n

/-- CMP_CFG_WRITE (R368). -/
def execCmpCfgWrite (n : Fin 16) (ramp : Bool) (value : Nat) (s : State) : Host.Outcome State Fault Refusal :=
  .next (s.live fun s => s.writeCmp n.val ramp value)

/-- A housekeeping round corrects every converter's reference and every comparator DAC for temperature; a DAC's threshold
moves by at most 0.25 LSB (R364). The factory coefficients are Config's. -/
def State.roundCorrect (s : State) (res : List Nat) : State :=
  { s with adc := { s.adc with
    refCorr := (List.range 16).map (fun n => Config.adcRef n res)
    dacCorr := (List.range 16).map (fun n =>
      let old := s.adc.dacCorr.getD n 0
      clampR (old - 1 / 4) (old + 1 / 4) (Config.cmpDac n res)) } }

/-! ### Triggers (R346, R347, R352 to R354) -/

/-- The first edge of a stream at or after an instant, counted from the stream's first (R347). -/
def firstEdge (x : Stream) (t : Nat) : Nat := (x.edges.takeWhile (fun e => decide (e < t))).length

/-- A converter's code: with TEST the level of the internal source (R345). -/
def State.codeOf (s : State) (n : Nat) (c : Int) : Int :=
  if s.biti ADC_CH_CFG_n.TEST n then
    (match s.rdi ADC_CH_CFG_n.TESTLVL n with
     | 1 => 4096
     | 2 => -4096
     | _ => 0)
  else c

/-- `k` codes of converter `n` from edge `i` of a stream. -/
def State.codesAt (s : State) (x : Stream) (n i k : Nat) : List Int :=
  (((x.codes.getD n []).drop i).take k).map (s.codeOf n)

/-- The instant `t` is one at which a trigger's source fires it (R352): a source event is DELAY before it. -/
def State.trigDue (s : State) (n t : Nat) : Bool :=
  let src := s.rdi ADC_TRIG_CFG_t.SRC n
  let delay := s.rdi ADC_TRIG_SEL_t.DELAY n
  if !s.biti ADC_TRIG_CFG_t.EN n || s.bit PWR_STATUS.SLEEP then false
  else if src = 0 then s.tm.run && t == s.tm.start + delay
  else if src = 1 then s.rdi ADC_TRIG_TIMER_t.PERIOD n != 0 && t % (s.rdi ADC_TRIG_TIMER_t.PERIOD n * 10) == delay
  else s.adc.fire.any (fun x => x.1 == n && x.2 + delay == t)

/-- The time from an edge to the result of the last of `k` conversions that begin with it in the dispatch domain: 11
sample clocks and 4 ns after the last edge (R346). -/
def resultAfter (k : Nat) : Nat := ((k + 10) * 200 + 12) / 13 + 4

/-- One entry of a burst, of converter `n`, from edge `i` of a stream (R354, R355). -/
def State.burstEntry (s : State) (trig : Nat) (x : Stream) (i n : Nat) : State :=
  let avg := 2 ^ s.rdi ADC_TRIG_CFG_t.AVG trig
  let codes := s.codesAt x n i avg
  let time := x.edges.getD i 0
  let ovr := codes.any clipped
  let s := if ovr then s.wr ADC_OVR.OVR (setBit (s.rd ADC_OVR.OVR) n) else s
  s.qSend (s.rdi ADC_TRIG_CFG_t.QUEUE trig) (time + resultAfter avg)
    ⟨0, time, ovr, false, s.calPending, trig, n, s.sampleOf n codes⟩

/-- `k` groups of a burst from edge `i`: an entry of every masked converter each, in converter order (R354). -/
def State.burst (s : State) (trig : Nat) (x : Stream) (i : Nat) : Nat → State
  | 0 => s
  | k + 1 =>
    let mask := s.rdi ADC_TRIG_SEL_t.MASK trig
    ((List.range 16).foldl (fun s n =>
      if bitOf mask n && s.biti ADC_CH_CFG_n.EN n then s.burstEntry trig x i n else s) s).burst trig x
      (i + 2 ^ s.rdi ADC_TRIG_CFG_t.AVG trig) k

/-- TRIGGER_FIRE (R347, R352, R354): at instant `t`; `conv` holds the conversions from there on. A stream that does not
hold the first edge after `t` gives none. A firing while the previous burst runs is ignored and counted. -/
def execTriggerFire (trig : Fin 16) (conv : Stream) (t : Nat) (s : State) : Host.Outcome State Fault Refusal :=
  .next <| s.live fun s =>
    let s := s.moveTo t
    let n := trig.val
    let i := firstEdge conv t
    if !s.trigDue n t ∨ t + 16 ≤ conv.edges.getD i (t + 16) then s
    else
      let s := { s with adc := { s.adc with
        fire := s.adc.fire.filter (fun x => !(x.1 == n && x.2 + s.rdi ADC_TRIG_SEL_t.DELAY n == t)) } }
      if t < s.adc.busy.getD n 0 then s.inc ADC_STATUS.TRIG_MISS 1
      else
        let s := (s.periodStart n).openWindows n
        let avg := 2 ^ s.rdi ADC_TRIG_CFG_t.AVG n
        let k := min (s.rdi ADC_TRIG_CFG_t.BURST n) ((conv.edges.length - i) / avg)
        let last := conv.edges.getD (i + k * avg - 1) t
        let s := { s with adc := { s.adc with busy := s.adc.busy.set n last } }
        let s := s.trigEvent (fun m => s.rdi ADC_TRIG_CFG_t.SRC m == 6 && s.rdi ADC_TRIG_CFG_t.CHAIN m == n) last
        (s.burst n conv i k).qRun (s.rdi ADC_TRIG_CFG_t.QUEUE n) s.tm.e

/-- A write of ADC_SW_TRIG (R352, R379). -/
def State.swTrig (s : State) (v : Nat) : State :=
  s.trigEvent (fun n => bitOf v n && s.rdi ADC_TRIG_CFG_t.SRC n == 5) s.tm.e

/-- ADC_SW_TRIG (R379): the firing itself, DELAY later, is a TRIGGER_FIRE. -/
def execAdcSwTrig (value : Nat) (t : Nat) (s : State) : Host.Outcome State Fault Refusal :=
  .next (s.live fun s => (s.moveTo t).swTrig value)


/-! ### Converter configuration -/

/-- A write of ADC_CH_CFG_n (R342, R345, R372). -/
def State.writeChCfg (s : State) (n v : Nat) : State :=
  let f := bits v 24 5
  let old := s.rdi ADC_CH_CFG_n.FUNC n
  let dup := 1 ≤ f ∧ f ≤ 15 ∧ (List.range 16).any (fun m => m != n && s.rdi ADC_CH_CFG_n.FUNC m == f)
  let changes := f ≠ old ∨ bits v 30 1 ≠ s.rdi ADC_CH_CFG_n.RANGE n ∨ bits v 0 16 ≠ s.rdi ADC_CH_CFG_n.FS n ∨
    bits v 29 1 ≠ s.rdi ADC_CH_CFG_n.TEST n
  if 16 < f ∨ bits v 22 2 = 3 ∨ dup ∨ (1 ≤ f ∧ f ≤ 15 ∧ bits v 0 16 = 0) ∨
      (1 ≤ old ∧ old ≤ 15 ∧ changes ∧ !s.allBlocked) then s.refuse ADC_STATUS.CFG_ERR
  else s.putRwi ADC_CH_CFG_n.EN n v

/-- ADC_CH_CFG_WRITE (R345). -/
def execAdcChCfgWrite (n : Fin 16) (value : Nat) (s : State) : Host.Outcome State Fault Refusal :=
  .next (s.live fun s => s.writeChCfg n.val value)

/-- A write of ADC_CH_CAL_n (R344, R373): in force from the next tick boundary. -/
def State.writeChCal (s : State) (n v : Nat) : State :=
  if !inRange (ADC_CH_CAL_n.GAIN.off n) v then s.refuse ADC_STATUS.CFG_ERR else s.putRwi ADC_CH_CAL_n.GAIN n v

/-- ADC_CH_CAL_WRITE (R344). -/
def execAdcChCalWrite (n : Fin 16) (value : Nat) (s : State) : Host.Outcome State Fault Refusal :=
  .next (s.live fun s => s.writeChCal n.val value)

/-- The trims written are in force (R344). -/
def State.trimAll (s : State) : State :=
  let l := (List.range 16).map (fun n => (s.rdsi ADC_CH_CAL_n.OFFSET n, s.rdi ADC_CH_CAL_n.GAIN n))
  { s with adc := { s.adc with trim := l } }

/-- A write of ADC_CTL_CFG (R350, R374). -/
def State.writeCtlCfg (s : State) (v : Nat) : State :=
  if bits v 29 3 = 7 ∨ s.rdi CLK_TICK_DEADLINE_n.DEADLINE 0 * 10 < bits v 0 13 + 430 then s.refuse ADC_STATUS.CFG_ERR
  else s.putRw ADC_CTL_CFG.NAVG.base v

/-- ADC_CTL_CFG_WRITE (R350). -/
def execAdcCtlCfgWrite (value : Nat) (s : State) : Host.Outcome State Fault Refusal :=
  .next (s.live fun s => s.writeCtlCfg value)

/-- ADC_CAL_CONVERGED (R370). -/
def execAdcCalConverged (n : Fin 16) (s : State) : Host.Outcome State Fault Refusal :=
  .next (s.live fun s => s.wr ADC_STATUS.CAL_DONE (setBit (s.rd ADC_STATUS.CAL_DONE) n.val))

end Sys2Proof.Machine
end

