-- ==== Sys2Proof/Machine/JoinOps.lean ====
section
/-! DEFINITION. Service states of cells, AUX messages, and how a join begins, fails and goes on
(08_onhorn_link.md, 09_spillway.md). -/
namespace Sys2Proof.Machine
open Reg

/-! ### Service states (R307, R309) -/

/-- JOIN_STATUS's counts of cells in PRECHARGE, in a ramp, and out (R339). -/
def State.joinCounts (s : State) : State :=
  let n (l : List Nat) : Nat := (s.plant.filter (fun c => l.contains (s.sstate c))).length
  ((s.wr JOIN_STATUS.PRECHG_COUNT (n [3])).wr JOIN_STATUS.RAMP_COUNT (n [4, 6])).wr JOIN_STATUS.OUT_COUNT (n [7, 8, 9])

/-- A change of service state is asked for; it takes effect at the next tick boundary (R309). -/
def State.askEnter (s : State) (c due : Nat) : State := s.updCell c (fun x => { x with svc := { x.svc with due := due } })

/-- A cell enters a service state, and no earlier change waits any more. BYPASSED, FAULTED and LOST set its weight to 0 and HOLD (R309); a join starts
with weight and accumulator 0 (R87); from RAMP_IN on a loss counts for the same-tick rule. -/
def State.enter (s : State) (c st : Nat) : State :=
  let s := (s.wri JOIN_CELL_STATUS_n.SSTATE c st).askEnter c 0
  let s := if st = 7 ∨ st = 8 ∨ st = 9 then
      (s.wri JOIN_CELL_STATUS_n.HOLD c 1).updCell c (fun x =>
        { x with svc := { x.svc with weight := 0, rampN := 0, rampDone := false }, sch := { x.sch with acc := 0 } })
    else if st = 1 ∨ st = 2 then s.updCell c (fun x =>
      { x with svc := { x.svc with weight := 0, rampN := 0, rampDone := false }, sch := { x.sch with acc := 0 } })
    else if st = 4 then s.updCell c (fun x => { x with svc := { x.svc with counted := false } })
    else s
  s.joinCounts

/-- The first command with SPILL = 1 restarts the confirmation (R312, R340). -/
def State.spillOn (s : State) (c : Nat) : State :=
  (s.updCell c (fun x => { x with svc := { x.svc with spillTicks := some 0, spillFail := false } })).wri
    JOIN_CELL_STATUS_n.SPILL_CONF c 0

/-- The reads of a node's image end with its NODE_FW (R322). -/
def State.dropImage (s : State) (c action : Nat) : State :=
  if action = 3 then
    { s with hst := { s.hst with jobs := s.hst.jobs.filter (fun j =>
      match j.kind with
      | .nodeFw _ d _ _ => d != c
      | _ => true) } }
  else s

/-- The CELL_SERVICE descriptors of an action end with SSTATE, FAIL and FW_RESULT in their results (R505). -/
def State.endService (s : State) (c action status fwResult : Nat) : State :=
  let ended := (s.cell c).svc.acts.filter (fun x => x.1 == action)
  let s := (s.dropImage c action).updCell c (fun x => { x with svc := { x.svc with
    acts := x.svc.acts.filter (fun a => a.1 != action), retTicks := if action = 2 then none else x.svc.retTicks } })
  ended.foldl (fun s x =>
    s.complete x.2 status 0 [(32, 1, s.sstate c), (33, 1, s.rdi JOIN_CELL_STATUS_n.FAIL c), (34, 1, fwResult)]) s

/-- A cell is in a join: LINKING, VERIFY, PRECHARGE or RAMP_IN (R307). -/
def State.joining (s : State) (c : Nat) : Bool := decide (1 ≤ s.sstate c) && decide (s.sstate c ≤ 4)

/-- A join has failed with a code of R340; the change of state waits for the boundary (R309). A cell that a trip or a loss
has taken out of its join has none to fail (R333). -/
def State.failJoin (s : State) (c code : Nat) : State := if s.joining c then s.askEnter c (8 + code) else s

/-- A failed join takes effect: BYPASSED, one record, and a RETURN in progress completes (R307, R318, R508). -/
def State.joinFail (s : State) (c code : Nat) : State :=
  let s := (s.wri JOIN_CELL_STATUS_n.FAIL c code).enter c 7
  ((s.spillOn c).cellEvent c 5 code 0).endService c 2 7 0

/-! ### AUX messages (R271, R324, R325) -/

/-- A message's words with its header and CRC-32C word. -/
def auxMessage (ty : Nat) (body : List Nat) : List Nat :=
  let words := (ty * 2 ^ 24 + (body.length + 2)) :: body
  words ++ [crc32c (words.flatMap (leBytes 4))]

/-- Queue a message for a node. -/
def State.sendAux (s : State) (c ty : Nat) (body : List Nat) : State :=
  s.updCell c (fun x => { x with link := { x.link with aux :=
    { x.link.aux with queue := x.link.aux.queue ++ [auxMessage ty body] } } })

/-- The words of an image, little-endian. -/
def imageWords : List Byte → List Nat
  | a :: b :: c :: d :: t => ofBytes [a, b, c, d] :: imageWords t
  | [] => []
  | l => [ofBytes l]

/-- Start the next queued message when none is in progress and every reply word has been acknowledged (R271). -/
def AuxSt.start (a : AuxSt) : AuxSt :=
  if a.cur ≠ [] ∨ a.ack then a
  else
    match a.queue with
    | [] => a
    | m :: q => { a with queue := q, cur := m, next := 0, acked := 0, stall := 0, rx := [], wait := m.headD 0 / 2 ^ 24, good := false }

/-- The word a frame carries to the node: word, kind and sequence; else, and first where a reply word has come in, the
acknowledgement of reply words (R271). The message moves on by one word. -/
def AuxSt.word (a : AuxSt) : AuxSt × Nat × Nat × Nat :=
  let a := a.start
  if a.ack then ({ a with ack := false }, 0, 0, a.rxSeq % 16384)
  else if a.next < a.cur.length then
    let kind := if a.next = 0 then 1 else if a.next + 1 = a.cur.length then 3 else 2
    ({ a with next := a.next + 1 }, a.cur.getD a.next 0, kind, (a.base + a.next) % 16384)
  else (a, 0, 0, a.rxSeq % 16384)

/-- The configuration message of a cell (R325): field word, then the configuration image. -/
def State.cfgBody (s : State) (c : Nat) : List Nat :=
  (s.phaseOf c * 2 ^ 30 + s.role c * 2 ^ 28 + s.rdi HGS_CELL_TIMING_n.DT c * 2 ^ 20 + s.rdi HGS_CELL_CFG_n.VLINK c) ::
    imageWords ((s.cell c).svc.cfgImg.getD [])

/-- An image of the furrow is loaded and its CRC holds (R326). -/
def furrowOk : Option (List Byte) → Bool
  | none => false
  | some l => decide (4 ≤ l.length) && crc32c (l.take (l.length - 4)) == ofBytes (l.drop (l.length - 4))

/-- Link state CONFIG begins with IDENT_REQ (R293, R326). -/
def State.startConfig (s : State) (c : Nat) : State :=
  let s := (s.wri LINK_CELL_STATUS_n.LSTATE c 4).updCell c (fun x =>
    { x with link := { x.link with ticks := 0, aux := { x.link.aux with queue := [], cur := [], bad := 0 } } })
  s.sendAux c 1 []

/-- A message of the link state CONFIG: IDENT_REQ, CFG or CAL (R325, R326). -/
def isConfig (m : List Nat) : Bool := 1 ≤ m.headD 0 / 2 ^ 24 && m.headD 0 / 2 ^ 24 ≤ 3

/-- The exchange of a CONFIG in progress is abandoned with its join (R333). -/
def State.dropConfig (s : State) (c : Nat) : State :=
  if s.lstate c ≠ 4 then s
  else s.updCell c (fun x => { x with link := { x.link with aux :=
    { x.link.aux with queue := x.link.aux.queue.filter (fun m => !isConfig m)
                      cur := if isConfig x.link.aux.cur then [] else x.link.aux.cur } } })

/-- Send CFG, or fail the join with FAIL 1 (R326). What the node now receives is the present configuration (R321). -/
def State.sendCfg (s : State) (c : Nat) : State :=
  if furrowOk (s.cell c).svc.cfgImg then
    (s.updCell c (fun x => { x with svc := { x.svc with dirty := false } })).sendAux c 2 (s.cfgBody c)
  else s.failJoin c 1

/-- Send CAL, or fail the join with FAIL 1 (R326). -/
def State.sendCal (s : State) (c : Nat) : State :=
  if furrowOk (s.cell c).svc.calImg then s.sendAux c 3 (imageWords ((s.cell c).svc.calImg.getD []))
  else s.failJoin c 1

/-- VERIFY begins (R327). -/
def State.startVerify (s : State) (c : Nat) : State :=
  (s.enter c 2).updCell c (fun x => { x with svc := { x.svc with preAt := s.tm.e, preUsed := 0, verifyOk := 0 } })

/-- The link part of a join is complete (R293); the held charge gap is booked (R543, R562). The service state follows at
the boundary (R309). -/
def State.linked (s : State) (c : Nat) : State := ((s.wri LINK_CELL_STATUS_n.LSTATE c 5).bookGap c).askEnter c 2

/-- A cell whose link part is complete goes on at the boundary: BYPASSED with HOLD, else VERIFY (R309). -/
def State.linkedOn (s : State) (c : Nat) : State :=
  if s.sstate c ≠ 1 then s else if s.biti JOIN_CELL_STATUS_n.HOLD c then s.enter c 7 else s.startVerify c

/-- An IDENT reply (R323, R325): a serial that differs from the furrow's posts NEW_NODE, is stored, and starts a new
charge baseline; then CFG follows. -/
def State.ident (s : State) (c serial : Nat) : State :=
  let s :=
    if (s.cell c).svc.serial = some serial then s
    else
      let s := (s.updCell c (fun x => { x with svc := { x.svc with serial := some serial } })).meterNewNode c serial
      s.cellEvent c 6 0 serial
  s.sendCfg c

/-- A device message's check was reported good (R326): CFG is followed by CAL, CAL ends the link part. A request stays
until its reply is in; its words count once in the sequence, and bad checks in a row go on through it until its reply is
good (log entry 123). -/
def State.auxGood (s : State) (c ty : Nat) : State :=
  let s := s.updCell c (fun x => { x with link := { x.link with aux :=
    { x.link.aux with base := (x.link.aux.base + x.link.aux.cur.length) % 16384, good := true,
                      bad := if ty = 1 ∨ ty = 8 then x.link.aux.bad else 0
                      cur := if ty = 1 ∨ ty = 8 then x.link.aux.cur else [] } } })
  if s.lstate c = 4 ∧ ty = 2 then s.sendCal c
  else if s.lstate c = 4 ∧ ty = 3 then s.linked c
  else s

/-- A bad message check, of a device message or of a reply (R326): the message is sent again, and the third in a row
fails the join with FAIL 2. -/
def State.auxBad (s : State) (c : Nat) : State :=
  let b := (s.cell c).link.aux.bad + 1
  let s := s.updCell c (fun x => { x with link := { x.link with aux :=
    { x.link.aux with bad := b, next := 0, acked := 0, stall := 0, rx := [], good := false,
                      base := if x.link.aux.good then x.link.aux.base
                        else (x.link.aux.base + x.link.aux.cur.length) % 16384 } } })
  if 3 ≤ b ∧ s.lstate c = 4 then
    (s.updCell c (fun x => { x with link := { x.link with aux := { x.link.aux with cur := [], queue := [], bad := 0 } } })).failJoin c 2
  else s

/-- A complete reply message (R325): its check word is tested, then IDENT or FW_RESULT is acted on. The sequence of its
last word stays, and goes on being acknowledged (R271). -/
def State.auxReply (s : State) (c : Nat) (words : List Nat) : State :=
  let n := words.length
  if n < 2 ∨ crc32c ((words.take (n - 1)).flatMap (leBytes 4)) ≠ words.getD (n - 1) 0 then s.auxBad c
  else
    let s := s.updCell c (fun x => { x with link := { x.link with aux := { x.link.aux with cur := [], rx := [], bad := 0 } } })
    let ty := words.headD 0 / 2 ^ 24
    if ty = 0x81 ∧ s.lstate c = 4 then s.ident c (words.getD 1 0 + words.getD 2 0 * 2 ^ 32)
    else if ty = 0x88 then s.endService c 3 (if words.getD 1 0 = 0 then 0 else 8) (words.getD 1 0)
    else s

/-- AUX words of a cell's telemetry (R271). -/
def State.auxIn (s : State) (c : Nat) (w : Slot) : State :=
  let a := (s.cell c).link.aux
  if w.reply then
    let s := s.updCell c (fun x => { x with link := { x.link with aux := { x.link.aux with ack := true } } })
    if a.cur ≠ [] ∧ (if a.rx = [] then w.auxKind = 1 else w.auxKind ≠ 1 ∧ w.auxSeq = (a.rxSeq + 1) % 16384) then
      let rx := a.rx ++ [w.auxWord]
      let s := s.updCell c (fun x => { x with link := { x.link with aux := { x.link.aux with rx := rx, rxSeq := w.auxSeq } } })
      if w.auxKind = 3 then s.auxReply c rx else s
    else s
  else
    let got := (w.auxSeq + 16384 - a.base % 16384 + 1) % 16384
    let acked := if a.cur ≠ [] ∧ got ≤ a.cur.length ∧ a.acked < got then got else a.acked
    let s := s.updCell c (fun x => { x with link := { x.link with aux :=
      { x.link.aux with acked := acked, moved := x.link.aux.moved || decide (a.acked < acked) } } })
    if a.cur ≠ [] ∧ acked = a.cur.length ∧ w.auxKind = 2 then (if a.good then s else s.auxGood c a.wait)
    else if a.cur ≠ [] ∧ acked = a.cur.length ∧ w.auxKind = 3 then s.auxBad c
    else s

/-- A frame interval ends for the AUX channel: intervals without progress of the acknowledgement are counted (R271). -/
def AuxSt.tick (a : AuxSt) : AuxSt := { a with stall := if a.moved then 0 else a.stall + 1, moved := false }

/-- Declare a cell lost (R290, R315): LOST with one record at its entry, the same-tick rule; a service action in progress
completes with the state reached (R333). Its next command is the first with SPILL = 1 (R312, R340). -/
def State.declareLost (s : State) (c : Nat) : State :=
  let old := s.sstate c
  let s := ((s.cellLoss c).wri LINK_CELL_STATUS_n.LSTATE c 6).openGap c
  let s := s.updCell c (fun x => { x with link := { x.link with aux := { x.link.aux with cur := [], queue := [], rx := [] } } })
  if old = 9 then s
  else
    let s := s.updCell c (fun x => { x with svc := { x.svc with trip := none, todo := 0 } })
    let s := ((s.enter c 9).spillOn c).cellEvent c 1 (s.rd LINK_CFG.LOST_TICKS) 0
    ((s.endService c 1 6 0).endService c 2 6 0).endService c 3 6 0

end Sys2Proof.Machine
end

