-- ==== Sys2Proof/Machine/Rating.lean ====
section
/-! DEFINITION. The plant rating and the derating for missing cells (02_cell_strings.md). -/
namespace Sys2Proof.Machine
open Reg

/-- Some RWS field of the register at an offset would change by a write of a word (R15). -/
def State.rwsDiffers (s : State) (off v : Nat) : Bool :=
  match regAt off with
  | some r => r.fields.any (fun x => x.acc == .rws && bits v x.f.lo x.f.w != s.rdi x.f ((off - r.base) / 4))
  | none => false

/-- A write of RWS fields outside COMMISSIONING that would change one: one CONFIG_REFUSED record and the block's CFG_ERR
field (R15). -/
def State.rwsIgnored (s : State) (off v : Nat) (ag : Agent) (err : Fld) : State :=
  if s.rwsDiffers off v then (s.refuse err).configRefused off v ag else s

/-- V_req in V (R62), from the registers, which hold while any cell is unblocked (R61). -/
def State.vreq (s : State) : Rat :=
  7071 / 10000 * (s.rd HGS_PLANT_VOLT.VNOM * 10) * (s.rd HGS_PLANT_VOLT.VMAX) / 1000 *
    (1 + s.rd HGS_PLANT_CUR.XF / 1000) * (105 / 100)

/-- The reported link voltage of a cell averaged as R63 states, in V. -/
def State.linkAvg (s : State) (c : Nat) : Rat :=
  let x := (s.cell c).link
  match x.vAvg with
  | some v => v
  | none => divR x.vAllSum (10 * x.vAllCnt)

/-- The usable voltage of a cell in service, in V (R63). -/
def State.usable (s : State) (c : Nat) : Rat := 95 / 100 * min (s.rdi HGS_CELL_CFG_n.VLINK c : Rat) (s.linkAvg c)

/-- The cells of a phase that V_avail counts: in service and not covered. A phase block counts from the first decision after
it (R400). While every phase is covered, what R56 asks of the derating row at a release is formed without the scopes that
the release removes (log entry 20). -/
def State.availCells (s : State) (p : Nat) : List Nat :=
  let out := s.blockedPhases != 7 && bitOf s.blockedPhases p && bitOf s.sched.phOut p
  if out then [] else (s.inService p).filter (fun c => !(s.cell c).svc.cellBlk)

/-- V_avail of a phase, in V (R63). -/
def State.vavail (s : State) (p : Nat) : Rat := sumR ((s.availCells p).map s.usable)

/-- The plant headroom h (R63). -/
def State.headroom (s : State) : Rat :=
  let a := s.vavail 0
  let b := s.vavail 1
  let c := s.vavail 2
  min (divR ((a + b + c) / 3) s.vreq) (divR (min a (min b c)) (9 / 10 * s.vreq))

/-- Lower bound of a row of R64. -/
def rowBound : Nat → Rat
  | 0 => 1
  | 1 => 970 / 1000
  | 2 => 940 / 1000
  | _ => 910 / 1000

/-- The row of R64 for a headroom. -/
def rowOf (h : Rat) : Nat :=
  if 1 ≤ h then 0 else if 970 / 1000 ≤ h then 1 else if 940 / 1000 ≤ h then 2 else if 910 / 1000 ≤ h then 3 else 4

/-- Current limit of a row, % of rated (R64). -/
def rowCurrent : Nat → Nat
  | 0 => 100
  | 1 => 90
  | 2 => 75
  | 3 => 50
  | _ => 0

/-- Capacitive reactive current limit of a row, % of rated (R64). -/
def rowQcap : Nat → Nat
  | 0 => 100
  | 1 => 50
  | 2 => 25
  | _ => 0

/-- The cells that h counts (R63, R65). -/
def State.hCells (s : State) : List Nat := (List.range 3).flatMap s.availCells

/-- h is formed anew (R63, R65, R704): a lower row waits for the next boundary, and for each row above the one in force
the time h has been 0.010 above its bound goes on, starts or ends. -/
def State.formHeadroom (s : State) : State :=
  let h := s.headroom
  let cur := s.rd HGS_RATING_STATUS.DERATE_ROW
  let up := (List.range 4).map (fun k =>
    if rowBound k + 10 / 1000 ≤ h then (match s.sched.upSince.getD k none with | some t => some t | none => some s.tm.e)
    else none)
  let s := s.wr HGS_RATING_STATUS.H_PERMIL (showR 30 0 4095 (h * 1000)).toNat
  { s with sched := { s.sched with
      h := some h, upSince := up, set := s.hCells
      rowNext := if cur < rowOf h then some (rowOf h) else none } }

/-- h is due: the set of cells it counts has changed, or a line cycle has ended (R65); it is formed from B3 (R704). -/
def State.headroomDue (s : State) (cycle : Bool) : Bool :=
  cycle || s.sched.h == none || s.sched.set != s.hCells

/-- The rating moves to a row: status, one RATING record, and the safe state for row 4 (R64, R65), a scheduled source: no
/BK/, the cells blocked from the next boundary (R394). -/
def State.setRow (s : State) (row : Nat) : State :=
  let old := s.rd HGS_RATING_STATUS.DERATE_ROW
  let s := ((s.wr HGS_RATING_STATUS.DERATE_ROW row).wr HGS_RATING_STATUS.CUR_LIMIT_PCT (rowCurrent row)).wr
    HGS_RATING_STATUS.QCAP_LIMIT_PCT (rowQcap row)
  let s := s.post 0x11 [(24, 1, old), (25, 1, row), (26, 2, s.rd HGS_RATING_STATUS.H_PERMIL), (28, 1, rowCurrent row),
    (29, 1, rowQcap row)]
  if row = 4 then s.actScope SLC_TRIP_LATCH.DERATE4 1 3 7 true else s

/-- DERATE_ROW_DOWN (R64, R65): at the tick boundary after h was formed. -/
def execDerateRowDown (t : Nat) (s : State) : Host.Outcome State Fault Refusal :=
  .next <| s.live fun s =>
    let s := s.moveTo t
    match s.sched.rowNext with
    | some r =>
      if s.tm.run ∧ s.tm.phase = 0 then ({ s with sched := { s.sched with rowNext := none } }).setRow r else s
    | none => s

/-- The highest row above the one in force whose 1 s has run out (R65). -/
def State.rowUp (s : State) : Option Nat :=
  (List.range (s.rd HGS_RATING_STATUS.DERATE_ROW)).find? (fun k =>
    match s.sched.upSince.getD k none with
    | some t => decide (t + 1000000000 ≤ s.tm.e)
    | none => false)

/-- DERATE_ROW_UP (R65). -/
def execDerateRowUp (t : Nat) (s : State) : Host.Outcome State Fault Refusal :=
  .next <| s.live fun s =>
    let s := s.moveTo t
    match s.rowUp with
    | some r => if s.tm.run then s.setRow r else s
    | none => s

/-- A write of HGS_PLANT_VOLT or HGS_PLANT_CUR (R60, R61). Outside COMMISSIONING R15 governs first (log entry 91). -/
def State.writeRating (s : State) (cur : Bool) (v : Nat) (ag : Agent) : State :=
  let f := if cur then HGS_PLANT_CUR.XF else HGS_PLANT_VOLT.VNOM
  let off := f.base
  if !s.commissioning then s.rwsIgnored off v ag HGS_RATING_STATUS.CFG_ERR
  else if !s.allBlocked ∨ !inRange off v then s.refuse HGS_RATING_STATUS.CFG_ERR
  else s.putRwi f 0 v

/-- HGS_PLANT_RATING_WRITE (R60, R61, R62): `cur` selects HGS_PLANT_CUR. V_req and the p.u. bases are functions of these
registers. -/
def execHgsPlantRatingWrite (cur : Bool) (value : Nat) (ag : Agent) (s : State) : Host.Outcome State Fault Refusal :=
  .next (s.live fun s => s.writeRating cur value ag)

end Sys2Proof.Machine
end

