-- ==== Sys2Proof/Machine/Scheduler.lean ====
section
/-! DEFINITION. The headgate scheduler's decision and its commit (03_headgate_dispatch.md). Voltages are in 0.1 V, times
in ns, carried errors in 0.1 V·ns. -/
namespace Sys2Proof.Machine
open Reg

/-! ### What the scheduler takes in -/

/-- The end state of a command: −1, 0 or +1 (R72). -/
def endOf (c : Cmd) : Int :=
  match c.edge with
  | some (b, _) => b
  | none => c.start

/-- A state code of R268 and R269. -/
def stateOf (code : Nat) : Int := if code = 1 then 1 else if code = 2 then -1 else 0

/-- e_c (R72, R99, R101): a blocked cell is at 0; after an abandoned tick a cell that held its command is where its
latest telemetry says. -/
def State.endState (s : State) (c : Nat) : Int :=
  let x := s.cell c
  if x.svc.blk then 0
  else if s.sched.broken ∧ (s.sched.exec = .hold ∨ x.link.tel.late ∨ x.link.tel.cmdLost) then stateOf x.link.tel.endState
  else endOf x.sch.cur

/-- The cell may be scheduled: in a ramp or in service, no trip recorded, no block over it (R76, R307, R313). -/
def State.scheduled (s : State) (c : Nat) : Bool :=
  (s.sstate c == 4 || s.sstate c == 5 || s.sstate c == 6) && (s.cell c).svc.trip == none && !s.covered c

/-- V_syn of a phase in 0.1 V (R74); a sum halfway between steps goes either way (log entry 2). -/
def State.vsyn (s : State) (p : Nat) : Int :=
  nearR 31 (sumR (((s.phaseCells p).filter s.scheduled).map (fun c =>
    ((s.cell c).link.tel.vlink : Rat) * ((s.cell c).svc.weight : Rat) / 256)))

/-- A released phase (R75). -/
def State.phaseReleased (s : State) (p : Nat) : Bool := !bitOf s.blockedPhases p

/-- I_dead in A: of rated current (R72, R108). -/
def State.idead (s : State) : Rat := (s.act HGS_PULSE_CFG.IDEAD : Rat) / 1000 * ((s.rd HGS_PLANT_CUR.IRATED : Rat) / 10)

/-- V_lo of a cell in 0.1 V, with the window of its role (R77). -/
def State.vlo (s : State) (c : Nat) : Int :=
  ((s.rdi HGS_CELL_CFG_n.VLINK c : Int) * (1000 - (s.acti HGS_LINK_WIN_r.BAND (s.role c) : Int))) / 100

/-- V_hi of a cell in 0.1 V (R77). -/
def State.vhi (s : State) (c : Nat) : Int :=
  ((s.rdi HGS_CELL_CFG_n.VLINK c : Int) * (1000 + (s.acti HGS_LINK_WIN_r.BAND (s.role c) : Int))) / 100

/-- E_link (R77). -/
def State.elink (s : State) (c : Nat) : Int :=
  let v : Int := (s.cell c).link.tel.vlink
  let lo := s.vlo c
  let hi := s.vhi c
  clampI (-4096) 4096 ((divR (8192 * (((v * v - lo * lo : Int)) : Rat)) ((hi * hi - lo * lo : Int) : Rat)).floor - 4096)

/-- E_soc of a pack cell (R78, R79). -/
def State.esoc (s : State) (c : Nat) : Int :=
  let x := s.cell c
  let soc : Rat := (x.link.tel.soc : Rat)
  if x.mtr.lease.state = 3 then -4096
  else if x.port.socLo = x.port.socHi then
    if x.port.socLo < soc then 4096 else if soc < x.port.socLo then -4096 else 0
  else clampI (-4096) 4096 ((divR (8192 * (soc - x.port.socLo)) (x.port.socHi - x.port.socLo)).floor - 4096)

/-- The energy term E of a cell (R78); a pack cell under a pack alarm counts as capacitor-only (R238). -/
def State.energyTerm (s : State) (c : Nat) : Int :=
  if s.role c = 1 ∧ !(s.cell c).port.alarmWin then
    let a : Int := s.act HGS_PRIO_CFG.ALPHA
    (a * s.elink c + (256 - a) * s.esoc c) / 256
  else s.elink c

/-- The sign of a number. -/
def signR (x : Rat) : Int := if 0 < x then 1 else if x < 0 then -1 else 0

/-- The most that a switching budget holds (R83): 256 × BURST, and no more than its 16 bits (log entry 92). -/
def State.budgetCap (s : State) : Nat := min (256 * s.act HGS_SW_CFG.BURST) 32767

/-- The budget after refill (R83). -/
def State.refilled (s : State) (c : Nat) : Int :=
  min (s.rdsi HGS_CELL_STATE_n.BUDGET c + (s.act HGS_SW_CFG.REFILL : Int)) (s.budgetCap : Int)

/-- The weight accumulator after this tick's weight (R87). -/
def State.accNow (s : State) (c : Nat) : Nat := min ((s.cell c).sch.acc + (s.cell c).svc.weight) 512

/-- t_min of a cell in ns (R89). -/
def State.tmin (s : State) (c : Nat) : Nat := max (s.act HGS_PULSE_CFG.MINPULSE) (2 * (s.rdi HGS_CELL_TIMING_n.DT c * 25))

/-- Barred (R76). -/
def State.barred (s : State) (d : Int) (c : Nat) : Bool :=
  let v : Int := (s.cell c).link.tel.vlink
  let n : Int := (s.rdi HGS_CELL_CFG_n.VLINK c : Int) * 10
  let h : Int := s.acti HGS_LINK_WIN_r.HARD (s.role c)
  (d == 1 && decide (v * 1000 < n * (1000 - h))) || (d == -1 && decide (n * (1000 + h) < v * 1000))

/-- The class of a cell for direction `d`: 0 Absent, 1 Barred, 2 Pinned, 3 Hot, 4 Eligible (R76, R105). -/
def State.classOf (s : State) (d : Int) (c : Nat) : Nat :=
  if !s.scheduled c ∨ s.accNow c < 256 then 0
  else if s.barred d c then 1
  else if s.refilled c < 256 then 2
  else if 4096 ≤ s.rdi THM_CELL_n.BUDGET c then 3
  else 4

/-- The score of a cell (R80). -/
def State.score (s : State) (sg d : Int) (c : Nat) : Int :=
  (s.act HGS_PRIO_CFG.WE : Int) * d * s.energyTerm c - (s.act HGS_PRIO_CFG.WT : Int) * (s.rdi THM_CELL_n.BUDGET c : Int) +
    (s.act HGS_PRIO_CFG.WS : Int) * (if s.endState c = sg then 4096 else 0)

/-- What the decision rule reads of a candidate: cell, V_c, score, budget, third ranking key. -/
structure Cand where
  c : Nat
  v : Int
  score : Int
  b : Int
  turn : Nat
  deriving DecidableEq, Repr

/-- A candidate's entry. -/
def State.cand (s : State) (sg d : Int) (c : Nat) : Cand :=
  ⟨c, (s.cell c).link.tel.vlink, s.score sg d c, s.refilled c, (c + 240 - s.law.origin) % 240⟩

/-- `a` ranks before `b` (R81). -/
def before (a b : Cand) : Bool :=
  decide (b.score < a.score) || (a.score == b.score &&
    (decide (b.b < a.b) || (a.b == b.b && decide (a.turn < b.turn))))

/-- Place a candidate by rank. -/
def placeCand (x : Cand) : List Cand → List Cand
  | [] => [x]
  | y :: t => if before x y then x :: y :: t else y :: placeCand x t

/-- Candidates in rank order (R81). -/
def ranked (l : List Cand) : List Cand := l.foldr placeCand []

/-! ### The decision rule (R86) -/

/-- Step 1 of R86: pinned cells stay while they fit. -/
def stepPinned (a : Int) : List Cand → Int × List Cand
  | [] => (0, [])
  | l => l.foldl (fun r c => if r.1 + c.v ≤ a then (r.1 + c.v, r.2 ++ [c]) else r) (0, [])

/-- Step 2 of R86: candidates in order until one does not fit; the last part is the candidates from that one on. -/
def stepFull (a sum : Int) : List Cand → Int × List Cand × List Cand
  | [] => (sum, [], [])
  | c :: t =>
    if sum + c.v ≤ a then
      let (n, full, rest) := stepFull a (sum + c.v) t
      (n, c :: full, rest)
    else (sum, [], c :: t)

/-- The outcome of R86 for a phase: whole cells; the fractional cell with its desired width; what is carried, in 0.1 V·ns;
whether the candidates ran out. -/
structure Chosen where
  full : List Cand
  frac : Option (Cand × Nat)
  carry : Int
  short : Bool
  deriving DecidableEq, Repr

/-- R86 for a target magnitude `a` of sign `sg`: pinned cells at s, candidates in order, which of them are
fractional-capable, and the tick period. -/
def choose (a sg : Int) (pinned cands : List Cand) (capable : Cand → Bool) (t : Nat) : Chosen :=
  let (sum1, full1) := stepPinned a pinned
  let (sum, full2, rest) := stepFull a sum1 cands
  let full := full1 ++ full2
  let r := a - sum
  if r ≤ 0 then ⟨full, none, 0, false⟩
  else
    match rest with
    | [] => ⟨full, none, 0, true⟩
    | stop :: _ =>
      match rest.find? (fun c => capable c && decide (r < c.v)) with
      | some f => ⟨full, some (f, ((r : Rat) / (f.v : Rat) * (t : Rat) + 1 / 2).floor.toNat), 0, false⟩
      | none =>
        if stop.v ≤ 2 * r then ⟨full ++ [stop], none, sg * (r - stop.v) * t, false⟩
        else ⟨full, none, sg * r * t, false⟩

/-- R91: the output width of a desired width, none for a whole tick, and the time added to ε per volt. -/
def shapePulse (w tmin t : Nat) : Option Nat × Int :=
  if 2 * w < tmin then (some 0, w)
  else if w < tmin then (some tmin, (w : Int) - tmin)
  else if w + tmin ≤ t then (some w, 0)
  else if 2 * w + tmin ≤ 2 * t then (some (t - tmin), (w : Int) - t + tmin)
  else (none, (w : Int) - t)

/-- The current delays a change from state `a` to state `b` (R88). -/
def State.delays (s : State) (i : Rat) (a b : Int) : Bool :=
  decide (s.idead ≤ absR i) && decide (0 < ((b - a : Int) : Rat) * i)

/-- The commanded instant of an in-tick edge desired at `at0` (R92). -/
def State.edgeAt (s : State) (i : Rat) (c : Nat) (a b : Int) (at0 : Nat) : Nat :=
  if s.delays i a b then at0 - s.rdi HGS_CELL_TIMING_n.DT c * 25 else at0

/-- Start state and in-tick edge of a fractional cell with an output width (R90, R92). -/
def State.fracCommand (s : State) (sg : Int) (i : Rat) (c w : Nat) : Int × Option (Int × Nat) :=
  if s.endState c = sg then (sg, some (0, s.edgeAt i c sg 0 w))
  else (0, some (sg, s.edgeAt i c 0 sg (s.period - w)))

/-- Transitions of a command from end state `e` (R84). -/
def transitions (e start : Int) (edge : Option (Int × Nat)) : Nat := (absI (start - e)).toNat + (if edge = none then 0 else 1)

/-- What a boundary edge that R88 delays adds to ε (R93): of any cell that takes commands, a cell in its spillway or with a
recorded trip apart. -/
def State.boundaryCarry (s : State) (i : Rat) (c : Nat) (start : Int) : Int :=
  let e := s.endState c
  if !([0, 8, 9].contains (s.sstate c)) ∧ (s.cell c).svc.trip = none ∧ !s.covered c ∧ start ≠ e ∧ s.delays i e start then
    (start - e) * (s.rdi HGS_CELL_TIMING_n.DT c * 25 : Nat) * ((s.cell c).link.tel.vlink : Nat)
  else 0

/-- The cell of a phase that pre-charges by insertion: the lowest index, on a ring at full rate, in a released phase, the
supervisor in NORMAL or RECOVERY (R329, R332). -/
def State.inserting (s : State) (p : Nat) : Option Nat :=
  if s.phaseReleased p ∧ (s.law.sup.state = 0 ∨ s.law.sup.state = 3) then
    (s.phaseCells p).find? (fun c => s.sstate c == 3 && s.biti JOIN_CELL_STATUS_n.PRE_MODE c && !s.covered c &&
      (s.cell c).svc.trip == none && s.ringState (ringOf c) == 4)
  else none

/-- The state R329 commands the inserting cell to: opposite to the current while its link is below V_lo. -/
def State.insertState (s : State) (i : Rat) (c : Nat) : Int :=
  if s.idead ≤ absR i ∧ ((s.cell c).link.tel.vlink : Int) < s.vlo c then -signR i else 0

/-- The plan of a cell that is not selected: state 0 all tick. -/
def State.planIdle (s : State) (cls c : Nat) : CellPlan :=
  let k := transitions (s.endState c) 0 none
  ⟨cls, 0, max (-32768) (s.refilled c - 256 * (k : Int)), s.accNow c, 0, none, 0, false, k⟩

/-- The plan of a whole cell: state s all tick, the accumulator charged (R87). -/
def State.planWhole (s : State) (cls : Nat) (sg : Int) (c : Nat) : CellPlan :=
  let k := transitions (s.endState c) sg none
  ⟨cls, 1, max (-32768) (s.refilled c - 256 * (k : Int)), s.accNow c - 256, sg, none, s.period, false, k⟩

/-- The plan of a fractional cell with an output width. -/
def State.planFrac (s : State) (cls : Nat) (sg : Int) (i : Rat) (c w : Nat) : CellPlan :=
  let f := s.fracCommand sg i c w
  let k := transitions (s.endState c) f.1 f.2
  ⟨cls, 2, max (-32768) (s.refilled c - 256 * (k : Int)), s.accNow c - 256, f.1, f.2, w, false, k⟩

/-- The plan of the inserting cell (R329): its edges cost no budget. It is neither whole nor fractional, so its output width
is 0 (R95). -/
def State.planInsert (s : State) (i : Rat) (c : Nat) : CellPlan :=
  let x := s.insertState i c
  ⟨0, 0, s.refilled c, s.accNow c, x, none, 0, false, transitions (s.endState c) x none⟩

/-- One phase of the decision: target `u` (0.1 V), clamped or not, current `i` in A. Answers the phase's plan and its
cells' plans (R76 to R94, R329). The carried error adds up from tick to tick, as R94 writes it (log entry 93). A blocked
phase shows SIGN 0 (DESIGN CHOICE, log entry 136). -/
def State.decidePhase (s : State) (p : Nat) (u : Int) (sat : Bool) (i : Rat) : PhasePlan × List (Nat × CellPlan) :=
  let cells := s.phaseCells p
  let limit : Int := (cells.foldl (fun m c => max m (s.rdi HGS_CELL_CFG_n.VLINK c)) 0 * 10 * s.period : Nat)
  if !s.phaseReleased p then
    (⟨false, 0, 1, false, 0, 255, 0⟩, cells.map (fun c => (c, s.planIdle 0 c)))
  else
    let ins := s.inserting p
    let u' : Int := match ins with
      | some c => u - s.insertState i c * ((s.cell c).link.tel.vlink : Int)
      | none => u
    let sg : Int := if 0 ≤ u' then 1 else -1
    let d : Int := if s.idead ≤ absR i then sg * signR i else 0
    let cls (c : Nat) : Nat := if some c = ins then 0 else s.classOf d c
    let pick (k : Nat) : List Cand := ranked ((cells.filter (fun c => cls c == k)).map (s.cand sg d))
    let pinned := (pick 2).filter (fun x => s.endState x.c == sg)
    let capable (x : Cand) : Bool := decide (4 * s.tmin x.c ≤ s.period) && decide (256 ≤ x.b)
    let ch := choose (absI u') sg pinned (pick 4 ++ pick 3) capable s.period
    let shape : Option (Cand × Option Nat × Int) := ch.frac.map (fun f => (f.1, shapePulse f.2 (s.tmin f.1.c) s.period))
    let whole : List Nat := ch.full.map (fun x => x.c) ++ (match shape with
      | some (f, none, _) => [f.c]
      | _ => [])
    let frac : Option (Nat × Nat) := match shape with
      | some (f, some w, _) => if w = 0 then none else some (f.c, w)
      | _ => none
    let plans : List (Nat × CellPlan) := cells.map (fun c =>
      (c, if some c = ins then s.planInsert i c
          else if whole.contains c then s.planWhole (cls c) sg c
          else match frac with
            | some (f, w) => if f = c then s.planFrac (cls c) sg i c w else s.planIdle (cls c) c
            | none => s.planIdle (cls c) c))
    let pulse : Int := match shape with
      | some (f, _, k) => sg * k * f.v
      | none => 0
    let edges : Int := plans.foldl (fun e q => if some q.1 = ins then e else e + s.boundaryCarry i q.1 q.2.start) 0
    let carry := clampI (-limit) limit (s.sched.carry.getD p 0 + ch.carry + pulse + edges)
    (⟨true, u, sg, sat || ch.short, carry, (frac.map Prod.fst).getD 255, whole.length⟩, plans)

/-- v′ of a phase in 0.1 V (R73). -/
def State.vprime (s : State) (p : Nat) : Int :=
  nearR 32 (10 * s.law.cur.v.getD p 0) + nearR 33 (((s.sched.carry.getD p 0 : Int) : Rat) / (s.period : Rat))

/-- The greatest and least of a list of integers. -/
def maxI : List Int → Int
  | [] => 0
  | x :: l => l.foldl max x

/-- The least of a list of integers. -/
def minI : List Int → Int
  | [] => 0
  | x :: l => l.foldl min x

/-- v0 and whether the band was empty (R75), in 0.1 V; none when no phase is released. -/
def State.zeroSeq (s : State) : Option (Int × Bool) :=
  let ps := (List.range 3).filter s.phaseReleased
  if ps = [] then none
  else
    let lo := maxI (ps.map (fun p => -s.vsyn p - s.vprime p))
    let hi := minI (ps.map (fun p => s.vsyn p - s.vprime p))
    let c := nearR 34 (((lo + hi : Int) : Rat) / 2)
    if lo ≤ hi then some (clampI lo hi (c + nearR 35 (10 * s.law.cur.z)), false) else some (c, true)

/-- The decision of a tick (R72 to R94), held until the S3 deadline commits it. Cells with a trip recorded by now are
left out and named (R313). -/
def State.decideTick (s : State) : State :=
  let z := s.zeroSeq
  let v0 : Int := (z.map Prod.fst).getD 0
  let target (p : Nat) : Int × Bool :=
    let v := s.vprime p + v0
    let u := clampI (-s.vsyn p) (s.vsyn p) v
    (u, u != v)
  let ph := (List.range 3).map (fun p => s.decidePhase p (target p).1 (target p).2 (s.law.cur.imid.getD p 0))
  let tripped := s.plant.filter (fun c =>
    (s.cell c).svc.trip != none && s.sstate c != 0 && s.sstate c != 8 && s.sstate c != 9)
  let s' := (ph.flatMap Prod.snd).foldl (fun s q => s.updCell q.1 (fun x => { x with sch := { x.sch with plan := some q.2 } })) s
  { s' with sched := { s'.sched with phOut := s.blockedPhases, plan := some ⟨ph.map Prod.fst, z.map Prod.fst, (z.map Prod.snd).getD false, tripped⟩ } }

/-- The decision of an abandoned tick is dropped (R37, R99). -/
def State.dropPlan (s : State) : State :=
  let s := s.mapCells (fun _ x => { x with sch := { x.sch with plan := none } })
  { s with sched := { s.sched with plan := none, broken := true } }

/-! ### Commit at S3 -/

/-- A phase's status registers take the decision (R111, R112). SAT_COUNT counts a tick that ran out of candidates too
(DESIGN CHOICE, log entry 136). -/
def State.commitPhase (s : State) (p : Nat) (x : PhasePlan) : State :=
  let s := ((s.wri HGS_PHASE_STATUS_p.SAT p (b2n x.sat)).wri HGS_PHASE_STATUS_p.SIGN p (b2n (x.s == -1))).wri
    HGS_PHASE_STATUS_p.FRAC_CELL p x.frac
  let s := (s.wri HGS_PHASE_STATUS_p.FULL_COUNT p x.full).wri HGS_CARRY_p.CARRY p (unsg 32 (nearR 37 ((x.carry : Rat) / 10)))
  if x.sat then s.inci HGS_PHASE_STATUS_p.SAT_COUNT p 1 else s

/-- A cell's record and HGS_CELL_STATE_n take the decision (R84, R87, R105). -/
def State.commitCell (s : State) (c : Nat) : State :=
  let x := s.cell c
  match x.sch.plan with
  | none => s
  | some q =>
    let s := s.wri HGS_CELL_STATE_n.END_STATE c (stateCode (s.endState c))
    let s := s.setCell c { x with sch := { x.sch with acc := q.acc, trans := x.sch.trans + q.trans } }
    (((s.wri HGS_CELL_STATE_n.BUDGET c (unsg 16 q.budget)).wri HGS_CELL_STATE_n.CLASS c q.cls).wri
      HGS_CELL_STATE_n.ROLE_IN_TICK c q.role).wri HGS_CELL_STATE_n.WEIGHT c x.svc.weight

/-- A cell enters FAULTED with the decision that leaves it out: one record (R313, R318, R333, R334). A removal in
progress goes on to the confirmation of its spillway; a return in progress completes with the state reached. -/
def State.faultCell (s : State) (c : Nat) : State :=
  let x := s.cell c
  let cause := x.svc.trip.getD 255
  let s := s.updCell c (fun x => { x with svc := { x.svc with trip := none, todo := if x.svc.todo = 2 then 0 else x.svc.todo } })
  if s.sstate c = 0 ∨ s.sstate c = 8 ∨ s.sstate c = 9 then s
  else
    let s := ((s.enter c 8).spillOn c).dropConfig c
    let s := (s.wri HGS_CELL_STATE_n.WEIGHT c 0).cellEvent c 0 cause 0
    (s.endService c 2 6 0).endService c 3 6 0

/-- The decision is committed with the frames (R86, R99, R313). What no decision forms keeps its last value: V0 and EMPTY
while no phase is released, and CARRY until the next commit (log entries 94 and 95). -/
def State.commitDecision (s : State) : State :=
  match s.sched.plan with
  | none => s
  | some q =>
    let s : State := ((List.range 3).zip q.phases).foldl (fun s x => s.commitPhase x.1 x.2) s
    let s : State := match q.v0 with
      | some v => (s.wr HGS_NS_STATUS.V0 (unsg 16 (nearR 36 ((v : Rat) / 20)))).wr HGS_NS_STATUS.EMPTY (b2n q.empty)
      | none => s
    let s := s.plant.foldl (fun s c => s.commitCell c) s
    let s := q.tripped.foldl (fun s c => s.faultCell c) s
    let s := s.phaseCounts
    { s with sched := { s.sched with
        carry := q.phases.map (fun x => x.carry), uNxt := q.phases.map (fun x => x.u), sNxt := q.phases.map (fun x => x.s)
        satNxt := q.phases.map (fun x => x.sat), plan := none, broken := false } }

/-! ### Scheduler tables (R102, R110) -/

/-- The shadowed fields of the scheduler (R102). -/
def hgsTables : List Fld :=
  [HGS_PRIO_CFG.WE, HGS_PRIO_CFG.WT, HGS_PRIO_CFG.WS, HGS_PRIO_CFG.ALPHA, HGS_SW_CFG.BURST, HGS_SW_CFG.REFILL,
   HGS_PULSE_CFG.IDEAD, HGS_PULSE_CFG.MINPULSE, HGS_LINK_WIN_r.HARD, HGS_LINK_WIN_r.BAND]

/-- HGS_TABLE_CTRL.SWAP: a second request before the first has taken effect is ignored (R102). -/
def State.hgsSwap (s : State) : State :=
  if s.bit HGS_TABLE_CTRL.PENDING then s else (s.wr HGS_TABLE_CTRL.PENDING 1).askAt HGS_TABLE_CTRL.SWAP.base

/-- The tables become active (R102, R699). -/
def State.hgsApply (s : State) : State :=
  if s.bit HGS_TABLE_CTRL.PENDING then
    ((s.activateAll hgsTables).wr HGS_TABLE_CTRL.PENDING 0).wr HGS_TABLE_CTRL.ACTIVE (1 - s.rd HGS_TABLE_CTRL.ACTIVE)
  else s

/-- HGS_TABLE_SWAP (R102, R110). -/
def execHgsTableSwap (s : State) : Host.Outcome State Fault Refusal := .next (s.live State.hgsSwap)

/-- HGS_SWAP_APPLY (R102, R110, R703): at the first boundary after the request, before S2. -/
def execHgsSwapApply (s : State) : Host.Outcome State Fault Refusal :=
  .next (s.live fun s => if s.boundaryDue HGS_TABLE_CTRL.SWAP.base then s.hgsApply else s)

end Sys2Proof.Machine
end

