-- ==== Sys2Proof/Machine/Law.lean ====
section
/-! DEFINITION. What stage S1 is built from: its tick-bound writes, the per-unit bases, the sequence separator, approaches
(R37, R115 to R117, R155, R463, R469). -/
namespace Sys2Proof.Machine
open Reg

/-! ### The tick-state region and tick-bound writes -/

/-- Change the law: in S1 the working copy, otherwise the committed copy too (R463). -/
def State.onLaw (s : State) (g : Law → Law) : State :=
  { s with law := g s.law, lawC := if s.tm.s1run then s.lawC else g s.lawC }

/-- A tick-bound item of S1 waits for tend (R469). -/
def State.bind (s : State) (x : TbItem) : State := { s with tri := { s.tri with tb := s.tri.tb ++ [x] } }

/-- S1 writes entry `i` of a field: tick-bound while S1 runs. -/
def State.s1Wri (s : State) (f : Fld) (i v : Nat) : State := if s.tm.s1run then s.bind (.fld f i v) else s.wri f i v

/-- S1 writes a field. -/
def State.s1Wr (s : State) (f : Fld) (v : Nat) : State := s.s1Wri f 0 v

/-- S1 counts in a saturating field. -/
def State.s1Inc (s : State) (f : Fld) (i : Nat) : State := if s.tm.s1run then s.bind (.inc f i) else s.inci f i 1

/-- S1 posts a record. -/
def State.s1Post (s : State) (ty : Nat) (pay : List Pay) : State :=
  if s.tm.s1run then s.bind (.ev ty pay) else s.post ty pay

/-! ### Times and bases -/

/-- The tick period in s. -/
def State.tsec (s : State) : Rat := (s.period : Rat) / 1000000000

/-- The ticks that have elapsed since the last completed S1, in s (R37). -/
def State.sinceS1 (s : State) : Rat := ((s.tm.missed + 1 : Nat) : Rat) * s.tsec

/-- What this tick adds to a time that a condition must hold for, in s: the ticks since the last completed S1 (R37), or one
tick where evaluation has broken off since (R704). -/
def State.heldS1 (s : State) : Rat := if s.tm.broke then s.tsec else s.sinceS1

/-- I_b in A (R116). -/
def State.ibase (s : State) : Rat := Config.sqrt 2 * ((s.rd HGS_PLANT_CUR.IRATED : Rat) / 10)

/-- V_b in V (R116). -/
def State.vbase (s : State) : Rat := divR (Config.sqrt 2 * ((s.rd HGS_PLANT_VOLT.VNOM : Rat) * 10)) (Config.sqrt 3)

/-- Nominal frequency in Hz, as in force (R182). -/
def State.fnom (s : State) : Rat := if s.act SYNC_PLL_CFG.FNOM = 0 then 50 else 60

/-- ω_nom in rad/s (R116). -/
def State.wnom (s : State) : Rat := 2 * Config.pi * s.fnom

/-- The model inductance l in p.u.·s, for a value of LSCALE (R116). -/
def State.lmodel (s : State) (lscale : Nat) : Rat :=
  divR ((s.rd HGS_PLANT_CUR.XF : Rat) / 1000 * (lscale : Rat) / 128) s.wnom

/-! ### Clarke transform and separator -/

/-- Clarke transform (R117). -/
def clarke (a b c : Rat) : Cx := ⟨(2 * a - b - c) / 3, divR (b - c) (Config.sqrt 3)⟩

/-- Phase values of a vector (R117). -/
def unclarke (x : Cx) : List Rat :=
  let h := Config.sqrt 3 / 2 * x.im
  [x.re, -x.re / 2 + h, -x.re / 2 - h]

/-- One step of a second-order generalised integrator by the trapezoidal rule; `a` is ω·t/2 (R155). -/
def sogiStep (a u : Rat) (g : Sogi) : Sogi :=
  let k := Config.sqrt 2
  let x := divR (g.x * (1 - a * k - a * a) - 2 * a * g.q + a * k * (g.u + u)) (1 + a * k + a * a)
  ⟨x, g.q + a * (g.x + x), u⟩

/-- One step of a separator (R155). -/
def sepStep (a : Rat) (v : Cx) (p : Sep) : Sep := ⟨sogiStep a v.re p.a, sogiStep a v.im p.b⟩

/-- The positive-sequence part (R155). -/
def sepPos (p : Sep) : Cx := ⟨(p.a.x - p.b.q) / 2, (p.a.q + p.b.x) / 2⟩

/-- The negative-sequence part (R155). -/
def sepNeg (p : Sep) : Cx := ⟨(p.a.x + p.b.q) / 2, (-p.a.q + p.b.x) / 2⟩

/-- An angle in [0, 2π). -/
def wrap (x : Rat) : Rat := x - 2 * Config.pi * (divR x (2 * Config.pi)).floor

/-- An angle in [−π, π). -/
def wrapPi (x : Rat) : Rat := wrap (x + Config.pi) - Config.pi

/-- A value moves towards a target by at most `d`. -/
def approach (d cur target : Rat) : Rat := if target ≤ cur then max target (cur - d) else min target (cur + d)

/-- The weight of the old value of a first-order filter over a time. -/
def decay (t tau : Rat) : Rat := Config.exp (-(divR t tau))

/-- The mean of a list. -/
def meanR (l : List Rat) : Rat := divR (sumR l) (l.length : Rat)

/-- The control samples of the grid voltage, p.u. (R349, R118). -/
def State.vgMeas (s : State) : Cx :=
  let v (k : Nat) : Rat := divR (10 * s.adc.ctl.getD (6 + k) 0) s.vbase
  clarke (v 0) (v 1) (v 2)

/-- The control samples of the current, p.u. (R349, R118). -/
def State.iMeas (s : State) : Cx :=
  let i (k : Nat) : Rat := divR (s.adc.ctl.getD k 0 / 10) s.ibase
  clarke (i 0) (i 1) (i 2)

/-- A value in thousandths, as an unsigned register field of `w` bits shows it. -/
def milli (site w : Nat) (x : Rat) : Nat := (showR site 0 (2 ^ w - 1) (1000 * x)).toNat

end Sys2Proof.Machine
end

