-- ==== Sys2Proof/Machine/Sync.lean ====
section
/-! DEFINITION. The angle tracker, the ride-through supervisor, setpoints and their arbitration, and the `SYNC_` and `FRT_`
tables (05_sync_ride_through.md). -/
namespace Sys2Proof.Machine
open Reg

/-! ### The angle tracker (R155 to R162) -/

/-- The line-to-line magnitudes in p.u. of √2 × VNOM (R162). -/
def lineMags (vp vn : Cx) : List Rat :=
  let h := Config.sqrt 3 / 2
  [(vp.add (vn.conj.mul ⟨1 / 2, -h⟩)).abs, (vp.sub vn.conj).abs, (vp.add (vn.conj.mul ⟨1 / 2, h⟩)).abs]

/-- The least and the greatest of three magnitudes. -/
def minMax (l : List Rat) : Rat × Rat :=
  match l with
  | [] => (0, 0)
  | x :: t => (t.foldl min x, t.foldl max x)

/-- How many ticks make a time, at least 1. -/
def State.ticksOf (s : State) (ns : Nat) : Nat := max 1 (ns / s.period)

/-- A history takes this tick's value and one copy of its last value for each missed tick, newest first (log entry 21). -/
def pushHist (missed keep : Nat) (x : Rat) (l : List Rat) : List Rat :=
  (x :: (List.replicate missed (l.headD x) ++ l)).take keep

/-- How long a condition has held without a break, advanced by a time (R37, R704). -/
def heldFor (cond : Bool) (dt : Rat) : Option Rat → Option Rat
  | none => if cond then some 0 else none
  | some x => if cond then some (x + dt) else none

/-- The lower and upper clamp of ω (R156). -/
def State.omegaLim (s : State) : Rat × Rat := (s.wnom - 20 * Config.pi, s.wnom + 20 * Config.pi)

/-- The angle loop: new integrator and ω for an error; at the clamp the integrator stops (R156). -/
def State.angleLoop (s : State) (integ e : Rat) : Rat × Rat :=
  let wn := 2 * Config.pi * (s.act SYNC_PLL_CFG.BW : Rat)
  let z : Rat := (s.act SYNC_PLL_CFG.ZETA : Rat) / 10
  let i := integ + wn * wn * e * s.tsec
  let raw := i + 2 * z * wn * e
  let w := clampR s.omegaLim.1 s.omegaLim.2 raw
  if raw ≤ s.omegaLim.1 ∨ s.omegaLim.2 ≤ raw then (integ, w) else (i, w)

/-- One tick of the tracker on the sampled grid voltage (R155 to R162). The line-cycle boundary is judged on θ before a phase
jump (DESIGN CHOICE, log entry 138). -/
def State.trackStep (s : State) (k0 : TrackSt) (vg : Cx) : TrackSt :=
  let dt := s.sinceS1
  let k := if k0.formed then k0 else { k0 with omega := s.wnom, integ := s.wnom }
  let sep := sepStep (k.omega * s.tsec / 2) vg k.v
  let vp := sepPos sep
  let vn := sepNeg sep
  let mag := vp.abs
  let th0 := k.theta + k.omega * dt
  let uc : Rat := (s.act SYNC_PLL_CFG.UCOAST : Rat) / 1000
  let coast := if k.coast then decide (mag < uc + 1 / 50) else decide (mag < uc)
  let d := wrapPi (vp.arg - wrap th0)
  let judged := k0.formed && !coast
  let jump := if judged then divR (180 * wrapPi (d - (if k.coast then 0 else k.diff))) Config.pi else 0
  let jumped := judged && decide ((s.act SYNC_PLL_CFG.JUMP : Rat) < absR jump)
  let theta := if jumped then wrap vp.arg else wrap th0
  let e := if coast then 0 else divR (vp.im * Config.cos theta - vp.re * Config.sin theta) mag
  let loop := if coast then (k.integ, k.omega) else s.angleLoop k.integ e
  let f := divR loop.2 (2 * Config.pi)
  let freq := if k0.formed then f + (k.freq - f) * decay s.tsec (1 / 50) else f
  let win := s.act SYNC_PLL_CFG.ROCOF_WIN * 20000000
  let old := (k.fHist.drop (s.ticksOf win - 1 - s.tm.missed)).headD (k.fHist.getLastD freq)
  let u := minMax (lineMags vp vn)
  let lock := decide (absR e < 1 / 50) && decide ((1 : Rat) / 2 ≤ mag) && !coast
  { k with
    v := sep, theta := theta, omega := loop.2, integ := loop.1, vp := vp, vn := vn, coast := coast
    diff := if jumped then 0 else d, jump := jump, jumped := jumped
    lockFor := heldFor lock dt k.lockFor, lossFor := heldFor (decide (1 / 10 ≤ absR e)) dt k.lossFor
    freq := freq, fHist := pushHist s.tm.missed (s.ticksOf 1000000000 + 1) freq k.fHist
    rocof := divR (freq - old) ((win : Rat) / 1000000000)
    uHist := pushHist s.tm.missed (s.ticksOf 1000000000 + 1) mag k.uHist
    umin := u.1, umax := u.2, cycle := decide (2 * Config.pi ≤ th0), formed := true }

/-- ω stands at its clamp (R156). -/
def State.atClamp (s : State) : Bool :=
  decide (s.law.trk.omega ≤ s.omegaLim.1) || decide (s.omegaLim.2 ≤ s.law.trk.omega)

/-- The tracker in S1, with its status fields and PHASE_JUMP (R155 to R162, R185, R186). -/
def State.track (s : State) : State :=
  let s := s.onLaw fun l => { l with trk := s.trackStep l.trk s.vgMeas }
  let k := s.law.trk
  let s := (s.s1Wr SYNC_STATUS.COAST (b2n k.coast)).s1Wr SYNC_STATUS.VP (milli 40 12 k.vp.abs)
  let s := (s.s1Wr SYNC_STATUS.VN (milli 41 12 k.vn.abs)).s1Wr SYNC_FREQ.FREQ (milli 42 20 k.freq)
  let s := s.s1Wr SYNC_FREQ.ROCOF (unsg 12 (showR 43 (-2048) 2047 (100 * k.rocof)))
  if k.jumped then
    (s.s1Wr SYNC_STATUS.JUMP 1).s1Post 0x34 [(24, 2, showR 44 (-18000) 18000 (100 * k.jump))]
  else s

/-- LOCKED takes a value in S1 (R157). -/
def State.setLocked (s : State) (b : Bool) : State :=
  (s.onLaw fun l => { l with trk := { l.trk with locked := b } }).s1Wr SYNC_STATUS.LOCKED (b2n b)

/-- LOCK_ACQUIRED (R157): the conditions have held for 100 ms. -/
def execLockAcquired (s : State) : Host.Outcome State Fault Refusal :=
  .next (s.live fun s =>
    if s.tm.s1run && !s.law.trk.locked && !s.atClamp && decide ((1 : Rat) / 10 ≤ s.law.trk.lockFor.getD (-1))
    then s.setLocked true else s)

/-- LOCK_LOST (R156, R157): |e| ≥ 0.10 rad for 5 ms, or ω at its clamp. -/
def execLockLost (s : State) : Host.Outcome State Fault Refusal :=
  .next (s.live fun s =>
    if s.tm.s1run && s.law.trk.locked && (s.atClamp || decide ((1 : Rat) / 200 ≤ s.law.trk.lossFor.getD (-1)))
    then s.setLocked false else s)

/-! ### Setpoints and arbitration (R177 to R180) -/

/-- The applied P or Q of the two held values (R178). -/
def arbSigned : Option Int → Option Int → Int
  | none, none => 0
  | some a, none => a
  | none, some b => b
  | some a, some b => if 0 ≤ a ∧ 0 ≤ b then min a b else if a ≤ 0 ∧ b ≤ 0 then max a b else 0

/-- The applied limit of the two held values: the lower (R178). -/
def arbLimit : Option Nat → Option Nat → Option Nat
  | none, b => b
  | a, none => a
  | some a, some b => some (min a b)

/-- U_lo in 0.001 p.u. (R178). -/
def State.uLo (s : State) (h f : Held) : Nat := max (s.act FRT_MC_CFG.UMC) (max h.ulo f.ulo)

/-- U_hi in 0.001 p.u., none when unbounded (R178). -/
def uHi (h f : Held) : Option Nat :=
  if h.uhi = 0 then (if f.uhi = 0 then none else some f.uhi) else if f.uhi = 0 then some h.uhi else some (min h.uhi f.uhi)

/-- The applied P, in 0.1 %. -/
def SetWait.p (w : SetWait) : Int := arbSigned w.heldHost.p w.heldSafe.p

/-- The applied Q, in 0.1 %. -/
def SetWait.q (w : SetWait) : Int := arbSigned w.heldHost.q w.heldSafe.q

/-- P_lim in 0.1 %, if one is set. -/
def SetWait.plim (w : SetWait) : Option Nat := arbLimit w.heldHost.plim w.heldSafe.plim

/-- Quantity codes 0 to 6 of R520: whether a request presents the quantity. -/
def SetReq.has (x : SetReq) (k : Nat) : Bool := bitOf x.present (if k ≤ 3 then k else if k ≤ 5 then 4 else 5)

/-- The value a request presents for a quantity. -/
def SetReq.val (x : SetReq) (k : Nat) : Int :=
  if k = 0 then x.p else if k = 1 then x.q else if k = 2 then (x.ilim : Int) else if k = 3 then (x.plim : Int)
  else if k = 4 then (x.ulo : Int) else if k = 5 then (x.uhi : Int) else (x.eSet : Int)

/-- What a source holds of a quantity, none when it is not set. -/
def Held.val (x : Held) (k : Nat) : Option Int :=
  if k = 0 then x.p else if k = 1 then x.q else if k = 2 then x.ilim.map Int.ofNat else if k = 3 then x.plim.map Int.ofNat
  else if k = 4 then (if x.ulo = 0 then none else some (x.ulo : Int))
  else (if x.uhi = 0 then none else some (x.uhi : Int))

/-- A source's record with a quantity set. -/
def Held.put (x : Held) (k : Nat) (v : Int) : Held :=
  if k = 0 then { x with p := some v } else if k = 1 then { x with q := some v }
  else if k = 2 then { x with ilim := some v.toNat } else if k = 3 then { x with plim := some v.toNat }
  else if k = 4 then { x with ulo := v.toNat } else { x with uhi := v.toNat }

/-- The applied value of a quantity (R178). -/
def State.arb (s : State) (h f : Held) (k : Nat) : Int :=
  if k = 0 then arbSigned h.p f.p else if k = 1 then arbSigned h.q f.q
  else if k = 2 then ((arbLimit h.ilim f.ilim).getD 0 : Nat) else if k = 3 then ((arbLimit h.plim f.plim).getD 0 : Nat)
  else if k = 4 then (s.uLo h f : Nat) else ((uHi h f).getD 0 : Nat)

/-- Which source's value is applied: 0 the host's, 1 the safety controller's, 2 neither's own. -/
def State.arbFrom (s : State) (h f : Held) (k : Nat) : Nat :=
  if f.val k = some (s.arb h f k) then 1 else if h.val k = some (s.arb h f k) then 0 else 2

/-- The reduced-service clip of a request's P and Q to ±25 % (R52). -/
def State.clipReq (s : State) (x : SetReq) : SetReq :=
  if s.stage = 3 ∨ s.stage = 4 then { x with p := clampI (-250) 250 x.p, q := clampI (-250) 250 x.q } else x

/-- The requests that present a quantity, the lowest ring first, each ring's last value. -/
def perRing (k : Nat) (l : List SetReq) : List SetReq :=
  (List.range 64).filterMap (fun r => (l.filter (fun x => x.d.ring == r && x.has k)).getLast?)

/-- One quantity of the host's requests: the lowest ring wins, and each other ring leaves a RING_CONFLICT (R179). -/
def State.hostQuantity (s : State) (l : List SetReq) (k : Nat) : State :=
  match perRing k l with
  | [] => s
  | w :: rest =>
    let s : State := rest.foldl (fun s x => (s.inc SYNC_ARB_STATUS.RING_COUNT 1).post 0x31
      [(24, 1, k), (25, 1, w.d.ring), (26, 1, x.d.ring), (28, 2, w.val k), (30, 2, x.val k)]) s
    if k = 6 then { s with sp := { s.sp with eSet := w.eSet } }
    else { s with sp := { s.sp with heldHost := s.sp.heldHost.put k (w.val k) } }

/-- What the safety controller holds after a message: a quantity whose present bit is 0 is withdrawn (R434). -/
def heldOfPdu (m : Pdu) : Held :=
  ⟨if bitOf m.flags 2 then some m.p else none, if bitOf m.flags 3 then some m.q else none,
   if bitOf m.flags 4 then some m.ilim else none, if bitOf m.flags 5 then some m.plim else none,
   if bitOf m.flags 6 then m.ulo else 0, if bitOf m.flags 6 then m.uhi else 0⟩

/-- SETPOINT_ARB of one quantity (R178), given what was held before; `both` says that both sources set it now. It is posted
where the source that applies has changed (DESIGN CHOICE, log entry 142). -/
def State.arbRecord (s : State) (h0 f0 : Held) (both : Bool) (k : Nat) : State :=
  let h := s.sp.heldHost
  let f := s.sp.heldSafe
  match h.val k, f.val k with
  | some a, some b =>
    let x := s.arb h f k
    if both || (x != s.arb h0 f0 k && s.arbFrom h f k != s.arbFrom h0 f0 k) then
      (s.inc SYNC_ARB_STATUS.ARB_COUNT 1).post 0x30 [(24, 1, k), (26, 2, a), (28, 2, b), (30, 2, x)]
    else s
  | _, _ => s

/-- SAFETY_APPLIED (R188): the safety value applies. -/
def State.safetyApplied (s : State) : Nat :=
  let on (k : Nat) : Nat := b2n (s.arbFrom s.sp.heldHost s.sp.heldSafe k == 1)
  16 * on 0 + 8 * on 1 + 4 * on 2 + 2 * on 3 + max (on 4) (on 5)

/-- The host's and the safety controller's setpoints take effect (R177 to R179, R187, R188, R52); the descriptors complete
at tend of this tick (R505). -/
def State.applySetpoints (s : State) : State :=
  if s.sp.host = [] ∧ s.sp.safe = none then s
  else
    let h0 := s.sp.heldHost
    let f0 := s.sp.heldSafe
    let reqs := s.sp.host.map s.clipReq
    let clipped := (s.sp.host.zip reqs).filter (fun x => x.1.has 0 && x.1.p != x.2.p || x.1.has 1 && x.1.q != x.2.q)
    let s : State := (List.range 7).foldl (fun s k => s.hostQuantity reqs k) s
    let s : State := match s.sp.safe with
      | some m => { s with sp := { s.sp with heldSafe := heldOfPdu m } }
      | none => s
    let both (k : Nat) : Bool := reqs.any (fun x => x.has k) &&
      (match s.sp.safe with
       | some m => bitOf m.flags (if k ≤ 3 then k + 2 else 6)
       | none => false)
    let s : State := (List.range 6).foldl (fun s k => s.arbRecord h0 f0 (both k) k) s
    let s := (s.wr SYNC_SP_APPLIED.P (unsg 16 s.sp.p)).wr SYNC_SP_APPLIED.Q (unsg 16 s.sp.q)
    let s := s.wr SYNC_ARB_STATUS.SAFETY_APPLIED s.safetyApplied
    let s : State := clipped.foldl (fun s _ => s.noticeOpen 4) s
    let s : State := reqs.foldl (fun s x =>
      s.completeAtTend x.d (if clipped.any (fun y => y.2.d == x.d) then 1 else 0) []) s
    { s with sp := { s.sp with host := [], safe := none } }

/-- SETPOINT (R505, R506): a field outside its range leaves everything as it was. -/
def execSetpoint (h : DescHdr) (v : SetVals) (s : State) : Host.Outcome State Fault Refusal :=
  .next (s.live fun s => s.runDesc h 1 fun d s =>
    if bitOf v.present 5 ∧ (v.eSet < 500 ∨ 1500 < v.eSet) then s.complete d 4 0 []
    else { s with sp := { s.sp with host := s.sp.host ++ [⟨d, v.present, v.p, v.q, v.ilim, v.plim, v.ulo, v.uhi, v.eSet⟩] } })


/-! ### The ride-through supervisor (R169 to R174) -/

/-- The supervisor's state, with FRT_STATUS.STATE (R169, R198). Each state's qualifying time starts with its entry (DESIGN
CHOICE, log entry 140). -/
def State.supTo (s : State) (st : Nat) : State :=
  (s.onLaw fun l => { l with sup := { l.sup with state := st, okFor := none } }).s1Wr FRT_STATUS.STATE st

/-- The payload of FRT_EVENT (R520). -/
def State.frtPay (s : State) (st : Nat) : List Pay :=
  [(24, 1, st), (26, 2, milli 45 16 s.law.trk.umin), (28, 2, milli 46 16 s.law.trk.umax), (30, 4, milli 47 32 s.law.trk.freq)]

/-- Outside the event levels (R169). -/
def State.eventCond (s : State) : Bool :=
  decide (s.law.trk.umin < (s.act FRT_CFG.UENTRY : Rat) / 1000) || decide ((s.act FRT_CFG.UHIGH : Rat) / 1000 < s.law.trk.umax)

/-- Inside the event levels by HYS (R169). -/
def State.eventOver (s : State) : Bool :=
  decide (((s.act FRT_CFG.UENTRY + s.act FRT_CFG.HYS : Nat) : Rat) / 1000 ≤ s.law.trk.umin) &&
  decide (s.law.trk.umax ≤ ((s.act FRT_CFG.UHIGH : Rat) - (s.act FRT_CFG.HYS : Rat)) / 1000)

/-- Outside the applied voltage window (R169, R178). -/
def State.cessCond (s : State) : Bool :=
  decide (s.law.trk.umin < (s.uLo s.sp.heldHost s.sp.heldSafe : Rat) / 1000) ||
  (match uHi s.sp.heldHost s.sp.heldSafe with
   | some u => decide ((u : Rat) / 1000 < s.law.trk.umax)
   | none => false)

/-- Inside the applied window by HYS (R169). -/
def State.cessOver (s : State) : Bool :=
  decide (((s.uLo s.sp.heldHost s.sp.heldSafe + s.act FRT_CFG.HYS : Nat) : Rat) / 1000 ≤ s.law.trk.umin) &&
  (match uHi s.sp.heldHost s.sp.heldSafe with
   | some u => decide (s.law.trk.umax ≤ ((u : Rat) - (s.act FRT_CFG.HYS : Rat)) / 1000)
   | none => true)

/-- EVENT is entered: the values of the tick before are frozen, one FRT_EVENT, one count (R169, R170, R198, R358). They are
those before R128 and R131 (DESIGN CHOICE, log entry 137). -/
def State.enterEvent (s : State) : State :=
  let s := s.supTo 1
  let s := s.onLaw fun l => { l with sup := { l.sup with
      dPre := l.src.pre.re, qPre := l.src.pre.im,
      uPre := (match l.trk.uHist with
        | x :: [] => x
        | _ :: t => meanR t
        | [] => 0) } }
  ((s.s1Inc FRT_STATUS.EVENT_COUNT 0).s1Post 0x32 (s.frtPay 1)).captureEvent (fun s q => s.biti ADC_Q_CAP_q.FRT q)

/-- EVENT is entered from NORMAL or RECOVERY when its levels are passed (R169). -/
def State.eventTest (s : State) : State :=
  if (s.law.sup.state = 0 ∨ s.law.sup.state = 3) ∧ s.eventCond then s.enterEvent else s

/-- The level of a trip-curve stage, and the quantity it is compared with, in the same unit (R172). -/
def State.curveAt (s : State) (curve i : Nat) : Rat × Rat :=
  let lv (f : Fld) (k : Rat) : Rat := (s.acti f i : Rat) / k
  if curve = 0 then (lv FRT_UV_i.LEVEL 1000, s.law.trk.umin)
  else if curve = 1 then (lv FRT_OV_i.LEVEL 1000, s.law.trk.umax)
  else if curve = 2 then (lv FRT_UF_i.LEVEL 500, s.law.trk.freq)
  else (lv FRT_OF_i.LEVEL 500, s.law.trk.freq)

/-- The hysteresis of a curve (R172, R189). -/
def State.curveHys (s : State) (curve : Nat) : Rat :=
  if curve ≤ 1 then (s.act FRT_CFG.HYS : Rat) / 1000 else (s.act FRT_CFG.FHYS : Rat) / 500

/-- A trip-curve stage is enabled. -/
def State.stageOn (s : State) (curve i : Nat) : Bool :=
  s.acti (if curve = 0 then FRT_UV_i.EN else if curve = 1 then FRT_OV_i.EN else if curve = 2 then FRT_UF_i.EN else FRT_OF_i.EN) i == 1

/-- The trip time of a stage in ms, in the copies that `rd` reads (R192). -/
def stageMs (rd : Fld → Nat → Nat) (curve i : Nat) : Nat :=
  let f (u t : Fld) : Nat := rd t i * (if rd u i = 1 then 1000 else 10)
  if curve = 0 then f FRT_UV_i.UNIT FRT_UV_i.TIME
  else if curve = 1 then f FRT_OV_i.UNIT FRT_OV_i.TIME
  else if curve = 2 then f FRT_UF_i.UNIT FRT_UF_i.TIME
  else f FRT_OF_i.UNIT FRT_OF_i.TIME

/-- The quantity is beyond a stage's level (R172). -/
def State.stageBeyond (s : State) (curve i : Nat) : Bool :=
  let x := s.curveAt curve i
  if curve % 2 = 0 then decide (x.2 < x.1) else decide (x.1 < x.2)

/-- The quantity is back from a stage's level (R172). -/
def State.stageBack (s : State) (curve i : Nat) : Bool :=
  let x := s.curveAt curve i
  if curve % 2 = 0 then decide (x.1 + s.curveHys curve ≤ x.2) else decide (x.2 ≤ x.1 - s.curveHys curve)

/-- The timers of the enabled stages run (R172): in every state except TRIPPED. A stage that a swap has disabled keeps its
count (R176). -/
def State.stageTimers (s : State) : State :=
  (List.range 32).foldl (fun (s : State) k =>
    let c := k / 8
    let i := k % 8
    let old := tget (fun _ => 0) s.law.sup.timers k
    let new : Rat :=
      if !s.stageOn c i then old
      else if s.stageBeyond c i then old + s.heldS1
      else if s.stageBack c i then 0 else old
    s.onLaw fun l => { l with sup := { l.sup with timers := tput (fun _ => 0) l.sup.timers k new } }) s

/-- The enter-service window holds (R174). -/
def State.enterWindow (s : State) : Bool :=
  decide ((s.act FRT_ENTER_WIN.ULO : Rat) / 1000 ≤ s.law.trk.umin) &&
  decide (s.law.trk.umax ≤ (s.act FRT_ENTER_WIN.UHI : Rat) / 1000) &&
  decide (absR (s.law.trk.freq - s.fnom) ≤ (s.act FRT_ENTER_WIN.FDEV : Rat) / 1000)

/-- How long the enter-service window has held; a break, or a longer DELAY, takes ENTER_OK away (R174). -/
def State.enterTrack (s : State) : State :=
  let h := heldFor s.enterWindow s.heldS1 s.law.sup.enterFor
  let ok := s.law.sup.enterOk && decide ((s.act FRT_ENTER_CFG.DELAY : Rat) ≤ h.getD (-1))
  let was := s.law.sup.enterOk
  let s := s.onLaw fun l => { l with sup := { l.sup with enterFor := h, enterOk := ok } }
  if was && !ok then s.s1Wr FRT_STATUS.ENTER_OK 0 else s

/-- A trip-curve stage has expired (R172, R173). -/
def State.stageExpired (s : State) (c i : Nat) : Bool :=
  s.stageOn c i && s.stageBeyond c i &&
  decide ((stageMs s.acti c i : Rat) / 1000 ≤ tget (fun _ => 0) s.law.sup.timers (8 * c + i))

/-- TRIPPED is entered in this tick: some stage has expired (R169, R173). -/
def State.tripDue (s : State) : Bool := (List.range 4).any (fun c => (List.range 8).any (fun i => s.stageExpired c i))

/-- The supervisor in S1, but for the transitions with a command of their own (R169, R172, R174). TRIPPED is tested first: in
the tick of a trip the supervisor enters no other state. -/
def State.supervise (s : State) : State :=
  let s := s.enterTrack
  if s.law.sup.state = 4 then s
  else
    let s := s.stageTimers
    let s := s.onLaw fun l => { l with sup := { l.sup with restore := l.sup.restore.map (· + s.sinceS1) } }
    if s.tripDue then s
    else if s.law.sup.state = 2 then
      if s.cessOver then
        let s := s.supTo s.law.sup.before
        let s := s.onLaw fun l => { l with sup := { l.sup with restore := some 0 } }
        s.eventTest
      else s
    else if s.cessCond then
      let st := s.law.sup.state
      let s := (s.onLaw fun l => { l with sup := { l.sup with before := st, restore := none } }).supTo 2
      s.s1Post 0x32 (s.frtPay 2)
    else if s.law.sup.state = 1 then
      s.onLaw fun l => { l with sup := { l.sup with okFor := heldFor s.eventOver s.heldS1 l.sup.okFor } }
    else s.eventTest

/-- RECOVERY_ENTRY (R169): EVENT's levels have been kept for 20 ms. -/
def execRecoveryEntry (s : State) : Host.Outcome State Fault Refusal :=
  .next (s.live fun s =>
    if s.tm.s1run && s.law.sup.state == 1 && decide ((1 : Rat) / 50 ≤ s.law.sup.okFor.getD (-1)) then
      (s.onLaw fun l => { l with sup := { l.sup with dOut := l.src.refp.re } }).supTo 3
    else s)

/-- The supervisor is TRIPPED from now on, whatever becomes of the running S1; its timers start from 0 at the release
(R169, R173, R174). -/
def State.enterTripped (s : State) : State :=
  let g (l : Law) : Law := { l with sup := { l.sup with state := 4, timers := [], okFor := none, restore := none } }
  let s := { s with law := g s.law, lawC := g s.lawC }
  let s := if s.tm.s1run then s.bind (.fld FRT_STATUS.STATE 0 4) else s
  s.wr FRT_STATUS.STATE 4

/-- TRIP_CURVE_EXPIRY (R172, R173): the breaker output at once, cells blocked from the next tick. -/
def execTripCurveExpiry (curve : Fin 4) (stage : Fin 8) (t : Nat) (s : State) : Host.Outcome State Fault Refusal :=
  .next (s.live fun s =>
    let s := s.moveTo t
    let c := curve.val
    let i := stage.val
    if s.tm.s1run && s.law.sup.state != 4 && s.stageExpired c i then
      let s := s.enterTripped
      let s := (s.wr FRT_STATUS.TRIP_CURVE c).wr FRT_STATUS.TRIP_STAGE i
      let s := s.post 0x33 [(24, 1, c), (25, 1, i), (28, 4, milli 48 32 (s.curveAt c i).2)]
      s.actScope SLC_TRIP_LATCH.FRT_TRIP 1 3 7 true
    else s)

/-- ENTER_SERVICE_QUALIFIED (R174): the window has held for DELAY. -/
def execEnterServiceQualified (s : State) : Host.Outcome State Fault Refusal :=
  .next (s.live fun s =>
    if s.tm.s1run && decide ((s.act FRT_ENTER_CFG.DELAY : Rat) ≤ s.law.sup.enterFor.getD (-1)) then
      (s.onLaw fun l => { l with sup := { l.sup with enterOk := true } }).s1Wr FRT_STATUS.ENTER_OK 1
    else s)

/-! ### Registers of the tracker, the modes and the tables (R167, R168, R175, R176) -/

/-- A write of SYNC_PLL_CFG (R176, R182): one that would change FNOM only while all cells are blocked; the other fields
take effect at the next boundary. -/
def State.writePllCfg (s : State) (v : Nat) : State :=
  if !inRange SYNC_PLL_CFG.BW.base v then s.refuse SYNC_STATUS.CFG_ERR
  else if bits v 31 1 ≠ s.rd SYNC_PLL_CFG.FNOM ∧ !s.allBlocked then s.refuse SYNC_STATUS.CFG_ERR
  else (s.putRw SYNC_PLL_CFG.BW.base v).activate SYNC_PLL_CFG.FNOM 0

/-- SYNC_PLL_CFG_WRITE (R176). -/
def execSyncPllCfgWrite (value : Nat) (s : State) : Host.Outcome State Fault Refusal := .next (s.live fun s => s.writePllCfg value)

/-- The fields of SYNC_PLL_CFG that a boundary takes over (R176). -/
def pllCfgFields : List Fld :=
  [SYNC_PLL_CFG.BW, SYNC_PLL_CFG.ZETA, SYNC_PLL_CFG.UCOAST, SYNC_PLL_CFG.JUMP, SYNC_PLL_CFG.ROCOF_WIN]

/-- A grid-forming request is refused now (R168, R52), also while a request for MANUAL waits (DESIGN CHOICE, log entry
139). -/
def State.gfmRefused (s : State) : Bool :=
  decide (s.stage < 5) || s.law.cur.manual || s.bit CTL_MODE.MODE_REQ || (!s.law.trk.locked && !s.allBlocked)

/-- A write of SYNC_MODE (R168, R183): a refused request leaves the register as it was and posts CONFIG_REFUSED. -/
def State.writeSyncMode (s : State) (v : Nat) (ag : Agent) : State :=
  if !inRange SYNC_MODE.SP_RATE.base v then s.refuse SYNC_STATUS.CFG_ERR
  else if bits v 31 1 = 1 ∧ s.rd SYNC_MODE.GFM_REQ = 0 ∧ s.gfmRefused then
    (s.refuse SYNC_STATUS.CFG_ERR).configRefused SYNC_MODE.SP_RATE.base v ag
  else s.putRw SYNC_MODE.SP_RATE.base v

/-- SYNC_MODE_WRITE (R168). -/
def execSyncModeWrite (value : Nat) (ag : Agent) (s : State) : Host.Outcome State Fault Refusal :=
  .next (s.live fun s => s.writeSyncMode value ag)

/-- GFM_TRANSFER (R167): at the boundary; the first tick in the new mode makes the references meet. A request acts from B5 on
(R52). -/
def execGfmTransfer (s : State) : Host.Outcome State Fault Refusal :=
  .next (s.live fun s =>
    let req := s.bit SYNC_MODE.GFM_REQ && decide (5 ≤ s.stage)
    if s.tm.run && s.tm.phase == 0 && req != s.law.src.gfm then s.setForming req else s)

/-- The fields that FRT_TABLE_CTRL makes active (R176). -/
def frtTables : List Fld :=
  [FRT_CFG.UENTRY, FRT_CFG.UHIGH, FRT_CFG.HYS, FRT_CFG.FHYS, FRT_INJ_CFG.K1, FRT_INJ_CFG.K2, FRT_INJ_CFG.SEQ_PRIO,
   FRT_INJ_CFG.P_RECOV, FRT_MC_CFG.UMC, FRT_MC_CFG.RESTORE, FRT_UV_i.LEVEL, FRT_UV_i.EN, FRT_UV_i.UNIT, FRT_UV_i.TIME,
   FRT_OV_i.LEVEL, FRT_OV_i.EN, FRT_OV_i.UNIT, FRT_OV_i.TIME, FRT_UF_i.LEVEL, FRT_UF_i.EN, FRT_UF_i.UNIT, FRT_UF_i.TIME,
   FRT_OF_i.LEVEL, FRT_OF_i.EN, FRT_OF_i.UNIT, FRT_OF_i.TIME, FRT_FUNC_CFG.QMODE, FRT_FUNC_CFG.PF_SIGN, FRT_FUNC_CFG.PF,
   FRT_FUNC_CFG.FW_EN, FRT_FUNC_CFG.DB, FRT_FUNC_CFG.DROOP, FRT_QV_i.V, FRT_QV_i.Q, FRT_QV_CFG.OLRT, FRT_ENTER_WIN.ULO,
   FRT_ENTER_WIN.UHI, FRT_ENTER_WIN.FDEV, FRT_ENTER_CFG.DELAY, FRT_ENTER_CFG.RAMP, SYNC_VM_CFG.H, SYNC_VM_CFG.D,
   SYNC_VM_CFG.KV, SYNC_VM_CFG.XV]

/-- A list rises strictly. -/
def rising : List Int → Bool
  | [] => true
  | [_] => true
  | a :: b :: t => decide (a < b) && rising (b :: t)

/-- One curve's enabled stages in the shadow set are in order (R175): `up` for levels that rise with i. -/
def State.curveOrdered (s : State) (curve : Nat) (en lv : Fld) (up : Bool) : Bool :=
  let on := (List.range 8).filter (fun i => s.biti en i)
  let lv' := on.map (fun i => if up then (s.rdi lv i : Int) else -(s.rdi lv i : Int))
  rising lv' && rising (on.map (fun i => -(stageMs s.rdi curve i : Int)))

/-- The enabled frequency levels of a curve lie within f_nom ± 10 Hz, in 2 mHz (R175). -/
def State.curveNear (s : State) (en lv : Fld) : Bool :=
  (List.range 8).all (fun i => !s.biti en i ||
    decide (absR ((s.rdi lv i : Rat) / 500 - (if s.bit SYNC_PLL_CFG.FNOM then 60 else 50)) ≤ 10))

/-- The shadow set of the `FRT_` registers passes R175. -/
def State.frtShadowOk (s : State) : Bool :=
  s.curveOrdered 0 FRT_UV_i.EN FRT_UV_i.LEVEL false && s.curveOrdered 1 FRT_OV_i.EN FRT_OV_i.LEVEL true &&
  s.curveOrdered 2 FRT_UF_i.EN FRT_UF_i.LEVEL false && s.curveOrdered 3 FRT_OF_i.EN FRT_OF_i.LEVEL true &&
  s.curveNear FRT_UF_i.EN FRT_UF_i.LEVEL && s.curveNear FRT_OF_i.EN FRT_OF_i.LEVEL &&
  (s.rd FRT_MC_CFG.UMC == 0 || decide (s.rd FRT_MC_CFG.UMC < s.rd FRT_CFG.UENTRY)) &&
  decide (s.rd FRT_CFG.UENTRY < s.rd FRT_CFG.UHIGH) &&
  rising ((List.range 4).map (fun i => (s.rdi FRT_QV_i.V i : Int)))

/-- Each curve has an enabled stage in force (R175). -/
def State.curvesReady (s : State) : Bool := (List.range 4).all (fun c => (List.range 8).any (fun i => s.stageOn c i))

/-- FRT_TABLE_CTRL.SWAP: a second request while one is pending is ignored (R136, R176); a set that breaks R175 is refused
in full, with CONFIG_REFUSED and the value written (R137). -/
def State.frtSwap (s : State) (ag : Agent) (v : Nat) : State :=
  if s.bit FRT_TABLE_CTRL.PENDING then s
  else if s.frtShadowOk then (s.wr FRT_TABLE_CTRL.PENDING 1).askAt FRT_TABLE_CTRL.SWAP.base
  else (s.refuse SYNC_STATUS.CFG_ERR).configRefused FRT_TABLE_CTRL.SWAP.base v ag

/-- The `FRT_` tables and SYNC_VM_CFG become active; timers keep their counts (R176, R699). UMC is part of the applied window,
so SAFETY_APPLIED follows (R178, R188). -/
def State.frtApply (s : State) : State :=
  if s.bit FRT_TABLE_CTRL.PENDING then
    let s := ((s.activateAll frtTables).wr FRT_TABLE_CTRL.PENDING 0).wr FRT_TABLE_CTRL.ACTIVE (1 - s.rd FRT_TABLE_CTRL.ACTIVE)
    s.wr SYNC_ARB_STATUS.SAFETY_APPLIED s.safetyApplied
  else s

/-- FRT_TABLE_SWAP (R175, R176). -/
def execFrtTableSwap (ag : Agent) (s : State) : Host.Outcome State Fault Refusal := .next (s.live fun s => s.frtSwap ag (2 ^ 31))

/-- FRT_SWAP_APPLY (R176, R703): at the first boundary after the request. -/
def execFrtSwapApply (s : State) : Host.Outcome State Fault Refusal :=
  .next (s.live fun s => if s.boundaryDue FRT_TABLE_CTRL.SWAP.base then s.frtApply else s)

end Sys2Proof.Machine
end

