-- ==== Sys2Proof/Machine/Mirage.lean ====
section
/-! DEFINITION. The mirage probe, the passive detectors and the island decision (06_mirage_probe.md). -/
namespace Sys2Proof.Machine
open Reg

/-! ### The probe code (R199, R200) -/

/-- The shift register of the code after some steps from position 0. -/
def lfsrAt : Nat → Nat
  | 0 => 0x7FFF
  | k + 1 =>
    let x := lfsrAt k
    (2 * x + (x / 16384 + x / 8192) % 2) % 32768

/-- The chip value at a code position (R199). -/
def chipAt (pos : Nat) : Int :=
  let x := lfsrAt pos
  if (x / 16384 + x / 8192) % 2 = 1 then 1 else -1

/-- Ticks in a chip for a value of CHIPLEN (R218). -/
def chipTicks (code : Nat) : Nat := 16 * 2 ^ code

/-- AXIS, CHIPLEN and CODE_IDX of the active set (R218). -/
def State.codeSet (s : State) : Nat × Nat × Nat := (s.act MIR_CFG.AXIS, s.act MIR_CFG.CHIPLEN, s.act MIR_CFG.CODE_IDX)

/-- Ticks in a chip of the code in force. -/
def State.chipLen (s : State) : Nat := chipTicks s.law.mir.code.2.1

/-- The chip of the present tick (R200). -/
def State.chipNow (s : State) : Int := s.tm.n / (s.chipLen : Int)

/-- The chip value of a chip (R199, R200). -/
def State.chipValue (s : State) (q : Int) : Int := chipAt ((q + 512 * (s.law.mir.code.2.2 : Int)) % 32767).toNat

/-- A in p.u. (R201). -/
def State.mirAmp (s : State) : Rat := (s.act MIR_CFG.AMP : Rat) / 10000

/-- The probe term of this tick (R201). -/
def State.probeTerm (s : State) : Cx :=
  if s.law.mir.inject then
    let a := s.mirAmp * (s.chipValue s.chipNow : Rat)
    if s.law.mir.code.1 = 0 then ⟨a, 0⟩ else ⟨0, a⟩
  else Cx.zero

/-- Injection is allowed (R202). -/
def State.probeAllowed (s : State) : Bool :=
  s.act MIR_CFG.EN == 1 && !s.allBlocked && s.stage == 5 && !s.law.cur.manual &&
  (s.law.sup.state == 0 || s.law.sup.state == 3)

/-! ### Islands (R211 to R213) -/

/-- A complex impedance in the layout of MIR_Z (R221). -/
def zWord (site : Nat) (z : Cx) : Nat :=
  unsg 16 (showR site (-32768) 32767 (10000 * z.re)) * 65536 + unsg 16 (showR (site + 1) (-32768) 32767 (10000 * z.im))

/-- The device goes on as an island: grid-forming, with GFM_ACT (R212). -/
def State.islandMode (s : State) : Bool := s.law.src.gfm && s.act MIR_ACT_CFG.GFM_ACT == 1

/-- An island is declared (R212): a trip, or, grid-forming with GFM_ACT, operation as an island with a frozen baseline. An
island that continues in that mode is not declared again until the host clears ISLAND (log entry 22); in another mode it
trips. -/
def State.declareIsland (s : State) (cause : Nat) : State :=
  if s.law.mir.frozen && s.islandMode then s
  else
    let s := (s.wr MIR_STATUS.ISLAND 1).wr MIR_STATUS.CAUSE cause
    let s := s.post 0x35 [(24, 1, cause), (28, 4, zWord 50 s.law.mir.z), (32, 4, zWord 52 s.law.mir.zb)]
    let g (l : Law) : Law := { l with mir := { l.mir with rocofFor := none } }
    let s := { s with law := g s.law, lawC := g s.lawC }
    if s.islandMode then
      let f (l : Law) : Law := { l with mir := { l.mir with frozen := true } }
      { s with law := f s.law, lawC := f s.lawC }
    else
      let s := s.enterTripped.post 0x32 (s.frtPay 4)
      s.actScope SLC_TRIP_LATCH.ISLAND 1 3 7 true

/-- The passive detectors are suspended (R211). -/
def State.passiveOff (s : State) : Bool :=
  s.law.sup.state == 1 || s.law.sup.state == 2 || s.law.sup.state == 4 || s.allBlocked || s.law.trk.coast

/-- The RoCoF detector's condition (R211). -/
def State.rocofHigh (s : State) : Bool :=
  s.act MIR_PASSIVE_CFG.ROCOF_EN == 1 && !s.passiveOff &&
  decide ((s.act MIR_PASSIVE_CFG.ROCOF_LVL : Rat) / 10 ≤ absR s.law.trk.rocof)

/-- The detectors in S1 (R205, R211): times run, and a vector shift declares an island at once. -/
def State.detect (s : State) : State :=
  let dt := s.heldS1
  let hot := s.rocofHigh
  let s := s.onLaw fun l => { l with mir := { l.mir with
      rocofFor := heldFor hot dt l.mir.rocofFor
      badFor := if l.mir.inject && !l.mir.valid then l.mir.badFor + dt else 0
      told := l.mir.told && l.mir.inject && !l.mir.valid } }
  if s.act MIR_PASSIVE_CFG.VS_EN == 1 && !s.passiveOff &&
      decide ((s.act MIR_PASSIVE_CFG.VS_LVL : Rat) ≤ absR s.law.trk.jump) then s.declareIsland 4
  else s

/-- ROCOF_DETECT (R211). -/
def execRocofDetect (t : Nat) (s : State) : Host.Outcome State Fault Refusal :=
  .next (s.live fun s =>
    let s := s.moveTo t
    if s.tm.s1run && s.rocofHigh &&
        decide ((s.act MIR_PASSIVE_CFG.ROCOF_TIME : Rat) / 100 ≤ s.law.mir.rocofFor.getD (-1)) then s.declareIsland 3
    else s)

/-- PROBE_FAULT (R205): no VALID for more than 2 s while injecting. -/
def execProbeFault (t : Nat) (s : State) : Host.Outcome State Fault Refusal :=
  .next (s.live fun s =>
    let s := s.moveTo t
    if s.tm.s1run && s.law.mir.inject && !s.law.mir.told && decide (2 < s.law.mir.badFor) then
      let s := s.onLaw fun l => { l with mir := { l.mir with told := true } }
      let s := (s.s1Wr MIR_STATUS.FAULT 1).s1Post 0x36 [(24, 4, zWord 50 s.law.mir.z), (28, 2, s.law.mir.win.length)]
      if s.act MIR_ACT_CFG.FAULT_TRIP = 1 then s.declareIsland 5 else s
    else s)

/-! ### The estimate and the decision (R203, R204, R209, R210) -/

/-- The window's sums C_v, C_i and S (R203). -/
def winSums (l : List (Int × Cx × Cx)) : Cx × Cx × Rat :=
  (Cx.sum (l.map (fun x => x.2.1.scale (x.1 : Rat))), Cx.sum (l.map (fun x => x.2.2.scale (x.1 : Rat))),
   sumR (l.map (fun x => ((x.1 * x.1 : Int) : Rat))))

/-- Windows cleared (R202, R217). -/
def Law.clearWindow (l : Law) : Law := { l with mir := { l.mir with win := [], last := none } }

/-- The window's fields of MIR_STATUS (R224). -/
def State.showFill (s : State) : State :=
  let n := s.law.mir.win.length
  (s.s1Wr MIR_STATUS.FILL n).s1Wr MIR_STATUS.FULL (b2n (n == s.act MIR_WIN_CFG.WINDOW))

/-- The probe chain of the previous tick enters the chip sums, with θ of that tick (R203, R361); a tick whose S1 did not
complete enters none (R37), and the one before it is dropped with the sums that took it (DESIGN CHOICE, log entry 134). -/
def State.probeSums (s : State) : State :=
  let w (k : Nat) : Rat := s.adc.whole.getD k 0
  let v (k : Nat) : Rat := divR (10 * w (6 + k)) s.vbase
  let i (k : Nat) : Rat := divR (w k / 10) s.ibase
  let a := s.law.trk.omega * s.tsec / 2
  s.onLaw fun l =>
    let sv := sepStep a (clarke (v 0) (v 1) (v 2)) l.mir.sepV
    let si := sepStep a (clarke (i 0) (i 1) (i 2)) l.mir.sepI
    let r := Cx.cis (-l.mir.theta)
    if s.tm.missed = 0 then
      { l with mir := { l.mir with sepV := sv, sepI := si, n := l.mir.n + 1, sv := l.mir.sv.add ((sepPos sv).mul r)
                                   si := l.mir.si.add ((sepPos si).mul r) } }
    else { l with mir := { l.mir with sepV := sv, sepI := si } }

/-- The windows stay empty while injection is not allowed (R202). -/
def State.probeGuard (s : State) : State :=
  if s.probeAllowed ∨ (s.law.mir.win = [] ∧ s.law.mir.last = none) then s else (s.onLaw Law.clearWindow).showFill

/-- One update of the decision (R204, R209, R210). -/
def State.probeUpdate (s : State) : State :=
  let m := s.law.mir
  let c := winSums m.win
  let full := m.win.length == s.act MIR_WIN_CFG.WINDOW
  let z := c.1.div c.2.1
  let valid := full && decide (s.mirAmp / 2 ≤ divR c.2.1.abs c.2.2)
  let base0 : Cx := if m.baseNew then
      ⟨(s.rds MIR_BASE.ZR : Rat) / 10000, (s.rds MIR_BASE.ZX : Rat) / 10000⟩ else m.zb
  let zero := s.rd MIR_BASE.ZR == 0 && s.rd MIR_BASE.ZX == 0
  let s := s.onLaw fun l => { l with mir := { l.mir with z := if full then z else m.z, valid := valid, zb := base0, baseNew := false } }
  let s := s.s1Wr MIR_STATUS.VALID (b2n valid)
  let s := if full then (s.s1Wr MIR_Z.ZR (zWord 54 z / 65536)).s1Wr MIR_Z.ZX (zWord 54 z % 65536) else s
  if !valid then s
  else
    let show' (s : State) (b : Cx) : State := (s.s1Wr MIR_BASE.ZR (zWord 56 b / 65536)).s1Wr MIR_BASE.ZX (zWord 56 b % 65536)
    let seen := m.seen
    let s := s.onLaw fun l => { l with mir := { l.mir with seen := true } }
    if !seen && zero && !m.frozen then show' (s.onLaw fun l => { l with mir := { l.mir with zb := z } }) z
    else
      let lim := max ((s.act MIR_THR_CFG.ZDEV : Rat) / 100 * base0.abs) ((s.act MIR_THR_CFG.ZMIN : Rat) / 200)
      let zt : Rat := (s.act MIR_THR_CFG.ZTRIP : Rat) / 1000
      let why : Nat := if lim ≤ (z.sub base0).abs then 1 else if 0 < zt ∧ zt ≤ z.abs then 2 else 0
      let pend : Nat := if why = 0 then 0 else min 15 (m.pend + 1)
      let u := s.act MIR_WIN_CFG.UPDATE * (if 1 ≤ s.rd CLK_TICK_STATUS.SHED_LEVEL then 4 else 1)
      let tu : Rat := (u * chipTicks (s.act MIR_CFG.CHIPLEN) : Nat) * s.tsec
      let zb : Cx := if why = 0 ∧ !m.frozen then
          base0.add ((z.sub base0).scale (divR tu (s.act MIR_WIN_CFG.BASE_TAU : Rat))) else base0
      let s := s.onLaw fun l => { l with mir := { l.mir with pend := pend, zb := zb } }
      let s := show' (s.s1Wr MIR_STATUS.PEND pend) zb
      if why ≠ 0 ∧ s.act MIR_WIN_CFG.CONFIRM ≤ pend then s.declareIsland why else s

/-- The chip whose ticks the sums hold gives its means and enters the window (R203). After a chip of which no tick completed
S1 the next one has no predecessor (R37). -/
def State.chipDone (s : State) : State :=
  let q := s.chipNow
  let m := s.law.mir
  let c := s.chipValue m.chip
  let k := divR 1 (m.n : Rat)
  let v := m.sv.scale k
  let i := m.si.scale k
  let good := m.inject && !m.restart && m.n != 0
  let win := match m.last with
    | some x => if good then ((c - x.2.2, v.sub x.1, i.sub x.2.1) :: m.win).take (s.act MIR_WIN_CFG.WINDOW) else m.win
    | none => m.win
  s.onLaw fun l => { l with mir := { l.mir with
      n := 0, sv := Cx.zero, si := Cx.zero, restart := false, win := win
      last := if good && q == m.chip + 1 then some (v, i, c) else none
      chip := q } }

/-- The present tick is the first of its chip whose S1 runs (R200, R37). -/
def State.chipDue (s : State) : Bool := s.chipNow != s.law.mir.chip

/-- Injection as it is from this chip boundary on, and the code in force (R202, R217): an old code ends at a boundary of its
own chips, the new one starts at a boundary of its own. -/
def State.injectTurn (s : State) : State :=
  let new := s.codeSet
  let at' (len : Nat) : Bool := s.tm.n % (len : Int) == 0
  if !at' s.chipLen then s
  else
    let on := s.probeAllowed && (new == s.law.mir.code || at' (chipTicks new.2.1))
    (s.onLaw fun l => { l with mir := { l.mir with
      inject := on, code := new, chip := s.tm.n / (chipTicks new.2.1 : Int) } }).s1Wr MIR_STATUS.INJECT (b2n on)

/-- CHIP_BOUNDARY (R200, R202, R203, R209): the chip's means, the window, the update, and injection on or off. -/
def execChipBoundary (t : Nat) (s : State) : Host.Outcome State Fault Refusal :=
  .next (s.live fun s =>
    let s := s.moveTo t
    if s.tm.s1run && s.chipDue then
      let s := (s.chipDone.probeGuard).showFill
      let u := s.act MIR_WIN_CFG.UPDATE * (if 1 ≤ s.rd CLK_TICK_STATUS.SHED_LEVEL then 4 else 1)
      let due := decide (u ≤ s.law.mir.chips + 1)
      let s := s.onLaw fun l => { l with mir := { l.mir with chips := if due then 0 else l.mir.chips + 1 } }
      (if due && s.law.mir.inject && s.probeAllowed then s.probeUpdate else s).injectTurn
    else s)

/-! ### Registers (R208, R210, R212, R215, R217) -/

/-- D_max in ns for a set that `rd` reads (R215). -/
def State.dmax (s : State) (rd : Fld → Nat) : Nat :=
  let tc := chipTicks (rd MIR_CFG.CHIPLEN) * s.period
  rd MIR_WIN_CFG.WINDOW * tc + (rd MIR_WIN_CFG.CONFIRM + 1) * (4 * rd MIR_WIN_CFG.UPDATE) * tc + 2 * s.period

/-- The set passes R215. -/
def State.dmaxOk (s : State) (rd : Fld → Nat) : Bool := rd MIR_CFG.EN == 0 || decide (s.dmax rd ≤ 2000000000)

/-- At least one detector that can act at the present stage is enabled (R214). -/
def State.detectorReady (s : State) : Bool :=
  s.act MIR_PASSIVE_CFG.ROCOF_EN == 1 || s.act MIR_PASSIVE_CFG.VS_EN == 1 || (s.stage == 5 && s.act MIR_CFG.EN == 1)

/-- The dither rows assigned to PV cells suit a chip length (R207, R208); row 0, which no write accepts, is no assigned
row. -/
def State.rowsFit (s : State) (len : Nat) : Bool :=
  (List.range 240).all (fun c => !s.enabled c || s.role c != 2 || s.rdi PORT_PV_CFG_n.ROW c == 0 ||
    s.rdi PORT_PV_CFG_n.ROW c % len != 0)

/-- The fields that MIR_TABLE_CTRL makes active (R217). -/
def mirTables : List Fld :=
  [MIR_CFG.EN, MIR_CFG.AXIS, MIR_CFG.CHIPLEN, MIR_CFG.CODE_IDX, MIR_CFG.AMP, MIR_WIN_CFG.WINDOW, MIR_WIN_CFG.UPDATE,
   MIR_WIN_CFG.CONFIRM, MIR_WIN_CFG.BASE_TAU, MIR_THR_CFG.ZDEV, MIR_THR_CFG.ZMIN, MIR_THR_CFG.ZTRIP,
   MIR_PASSIVE_CFG.ROCOF_EN, MIR_PASSIVE_CFG.VS_EN, MIR_PASSIVE_CFG.ROCOF_LVL, MIR_PASSIVE_CFG.ROCOF_TIME,
   MIR_PASSIVE_CFG.VS_LVL, MIR_ACT_CFG.GFM_ACT, MIR_ACT_CFG.FAULT_TRIP]

/-- MIR_TABLE_CTRL.SWAP (R208, R215, R217, R136, R137). -/
def State.mirSwap (s : State) (ag : Agent) (v : Nat) : State :=
  if s.bit MIR_TABLE_CTRL.PENDING then s
  else if (s.rd MIR_CFG.CHIPLEN == s.act MIR_CFG.CHIPLEN || s.rowsFit (chipTicks (s.rd MIR_CFG.CHIPLEN))) && s.dmaxOk s.rd then
    (s.wr MIR_TABLE_CTRL.PENDING 1).askAt MIR_TABLE_CTRL.SWAP.base
  else (s.refuse MIR_STATUS.CFG_ERR).configRefused MIR_TABLE_CTRL.SWAP.base v ag

/-- The `MIR_` tables become active; a new code clears the windows and pend (R217). While the old code is injected it stays
in force up to its next chip boundary (R202); otherwise the new one is in force at once. -/
def State.mirApply (s : State) : State :=
  if s.bit MIR_TABLE_CTRL.PENDING then
    let new := [MIR_CFG.EN, MIR_CFG.AXIS, MIR_CFG.CHIPLEN, MIR_CFG.CODE_IDX, MIR_WIN_CFG.WINDOW].any (fun f => s.rd f != s.act f)
    let s := ((s.activateAll mirTables).wr MIR_TABLE_CTRL.PENDING 0).wr MIR_TABLE_CTRL.ACTIVE (1 - s.rd MIR_TABLE_CTRL.ACTIVE)
    if new then
      let g (l : Law) : Law := { l with mir := { l.mir with
          win := [], last := none, pend := 0, restart := true, n := 0, sv := Cx.zero, si := Cx.zero
          code := if l.mir.inject then l.mir.code else s.codeSet
          chip := if l.mir.inject then l.mir.chip else (s.tm.n - 1) / (chipTicks s.codeSet.2.1 : Int) } }
      let s := { s with law := g s.law, lawC := g s.lawC }
      ((s.wr MIR_STATUS.FILL 0).wr MIR_STATUS.FULL 0).wr MIR_STATUS.PEND 0
    else s
  else s

/-- MIR_TABLE_SWAP (R217). -/
def execMirTableSwap (ag : Agent) (s : State) : Host.Outcome State Fault Refusal := .next (s.live fun s => s.mirSwap ag (2 ^ 31))

/-- MIR_SWAP_APPLY (R217, R703): at the first boundary after the request. -/
def execMirSwapApply (s : State) : Host.Outcome State Fault Refusal :=
  .next (s.live fun s => if s.boundaryDue MIR_TABLE_CTRL.SWAP.base then s.mirApply else s)

/-- Writes of S1 to some fields that still wait for tend are dropped. -/
def State.unbind (s : State) (hit : Fld → Bool) : State :=
  let keep (x : TbItem) : Bool :=
    match x with
    | .fld f _ _ => !hit f
    | _ => true
  { s with tri := { s.tri with tb := s.tri.tb.filter keep } }

/-- pend goes back to 0 outside S1's own rule (R210, R212), whatever the update of this tick made of it. -/
def State.clearPend (s : State) : State :=
  let g (l : Law) : Law := { l with mir := { l.mir with pend := 0 } }
  (({ s with law := g s.law, lawC := g s.lawC }).unbind (fun f => f == MIR_STATUS.PEND)).wr MIR_STATUS.PEND 0

/-- A write of MIR_BASE: the baseline from the next update on (R210, R221), whatever this tick's update has moved it to. -/
def State.writeMirBase (s : State) (v : Nat) : State :=
  let s := (s.putRw MIR_BASE.ZR.base v).unbind (fun f => f.base == MIR_BASE.ZR.base)
  let g (l : Law) : Law := { l with mir := { l.mir with baseNew := true } }
  ({ s with law := g s.law, lawC := g s.lawC }).clearPend

/-- MIR_BASE_WRITE (R210). -/
def execMirBaseWrite (value : Nat) (s : State) : Host.Outcome State Fault Refusal := .next (s.live fun s => s.writeMirBase value)

/-- The host clears ISLAND (R212): pend 0, and the baseline moves again (log entry 22). -/
def State.clearIsland (s : State) : State :=
  let g (l : Law) : Law := { l with mir := { l.mir with frozen := false } }
  (({ s with law := g s.law, lawC := g s.lawC }).wr MIR_STATUS.ISLAND 0).clearPend

/-- MIR_ISLAND_CLEAR (R212). -/
def execMirIslandClear (s : State) : Host.Outcome State Fault Refusal := .next (s.live State.clearIsland)

end Sys2Proof.Machine
end

