-- ==== Sys2Proof/Machine/Control.lean ====
section
/-! DEFINITION. Current references, their limits and the grid current control engine, which S1 runs once per tick before
tend (04_current_control.md, R163 to R171). -/
namespace Sys2Proof.Machine
open Reg

/-! ### The reference sources (R163 to R168) -/

/-- SP_RATE in p.u. per s (R183), as S1 read it at its start (R115). -/
def State.spRate (s : State) : Rat := (s.tm.spRate : Rat) / 10

/-- P_app and Q approach the applied setpoints (R139, R163, R174, R180). While the enter-service ramp lasts, the aim of
P_app is the share of the setpoint that the elapsed part of FRT_ENTER_CFG.RAMP gives. -/
def State.approachSetpoints (s : State) : State :=
  let dt := s.sinceS1
  let p : Rat := (s.sp.p : Rat) / 1000
  let q : Rat := (s.sp.q : Rat) / 1000
  let d := s.spRate * dt
  let full : Rat := (s.act FRT_ENTER_CFG.RAMP : Rat)
  let ramp : Option Rat := s.law.src.ramp.bind fun t => if t + dt < full then some (t + dt) else none
  let aim : Rat × Rat :=
    match ramp with
    | some t => (divR t full * p, max d (divR (absR p) full * dt))
    | none => (p, d)
  s.onLaw fun l =>
    { l with src := { l.src with pApp := approach aim.2 l.src.pApp aim.1, qApp := approach d l.src.qApp q, ramp := ramp } }

/-- Δp_fw (R164). -/
def State.freqWatt (s : State) : Rat :=
  let f := s.law.trk.freq
  let db : Rat := (s.act FRT_FUNC_CFG.DB : Rat) / 1000
  let k : Rat := (s.act FRT_FUNC_CFG.DROOP : Rat) / 1000 * s.fnom
  if s.act FRT_FUNC_CFG.FW_EN = 0 then 0
  else if s.fnom + db < f then -(divR (f - s.fnom - db) k)
  else if f < s.fnom - db then -(divR (f - s.fnom + db) k)
  else 0

/-- LIM_RATE in p.u. per s (R129, R150). -/
def State.limRate (s : State) : Rat := (s.act CTL_AW_CFG.LIM_RATE : Rat) / 10

/-- The |P| limit in use follows the arbitrated one: a fall at once, a rise at LIM_RATE (R180). With no limit set any more it
rises until it binds no longer (log entry 98). -/
def State.plimTick (s : State) : State :=
  let d := s.limRate * s.sinceS1
  let new : Option Rat :=
    match s.sp.plim, s.law.src.plim with
    | some m, some x => some (min ((m : Rat) / 1000) (x + d))
    | some m, none => some ((m : Rat) / 1000)
    | none, some x => if x + d < absR (s.law.src.pApp + s.freqWatt) then some (x + d) else none
    | none, none => none
  s.onLaw fun l => { l with src := { l.src with plim := new } }

/-- p_cmd (R163). While neither source sets a |P| limit there is nothing to clamp to (log entry 98). -/
def State.pCmd (s : State) : Rat :=
  let p := s.law.src.pApp + s.freqWatt
  match s.law.src.plim with
  | some m => clampR (-m) m p
  | none => p

/-- The volt-var point i: voltage and reactive power in p.u. (R194). -/
def State.qvPoint (s : State) (i : Nat) : Rat × Rat :=
  ((s.acti FRT_QV_i.V i : Rat) / 1000, (s.actsi FRT_QV_i.Q i : Rat) / 1000)

/-- Linear interpolation through points of rising abscissa, held flat beyond the ends (R164). -/
def interpPoints (x : Rat) : List (Rat × Rat) → Rat
  | [] => 0
  | [p] => p.2
  | p :: q :: t =>
    if x ≤ p.1 then p.2
    else if x ≤ q.1 then p.2 + divR ((q.2 - p.2) * (x - p.1)) (q.1 - p.1)
    else interpPoints x (q :: t)

/-- The volt-var filter runs (R164); it runs in every QMODE (log entry 23). -/
def State.voltVar (s : State) : State :=
  let x := interpPoints s.law.trk.vp.abs ((List.range 4).map s.qvPoint)
  let a := decay s.tsec ((s.act FRT_QV_CFG.OLRT : Rat) / 100 * 1000 / 2303)
  s.onLaw fun l => { l with src := { l.src with qv := x + (l.src.qv - x) * a } }

/-- q_cmd (R164). -/
def State.qCmd (s : State) : Rat :=
  let m := s.act FRT_FUNC_CFG.QMODE
  if m = 1 then
    let pf : Rat := (s.act FRT_FUNC_CFG.PF : Rat) / 1000
    let q := absR s.pCmd * divR (Config.sqrt (1 - pf * pf)) pf
    if s.act FRT_FUNC_CFG.PF_SIGN = 0 then q else -q
  else if m = 2 then s.law.src.qv
  else s.law.src.qApp

/-- The grid-following references (R163). -/
def State.followRef (s : State) : Cx :=
  let v := max s.law.trk.vp.abs (1 / 2)
  ⟨divR s.pCmd v, -(divR s.qCmd v)⟩

/-- zv of the virtual machine (R165). -/
def State.zv (s : State) : Cx :=
  let x : Rat := (s.act SYNC_VM_CFG.XV : Rat) / 200
  ⟨x / 4, x⟩

/-- vgp × e^(−jθ) (R117). -/
def State.vgpF (s : State) : Cx := s.law.trk.vp.mul (Cx.cis (-s.law.trk.theta))

/-- vgn × e^(+jθ) (R117). -/
def State.vgnF (s : State) : Cx := s.law.trk.vn.mul (Cx.cis s.law.trk.theta)

/-- The virtual machine's angle and speed are laid on the grid for a reference (R166, R167). -/
def State.vmOnGrid (s : State) (refp : Cx) : State :=
  let a := (s.vgpF.add (s.zv.mul refp)).arg
  s.onLaw fun l => { l with src := { l.src with wvm := divR l.trk.omega s.wnom, dlt := l.trk.theta + a } }

/-- E_set + kv·(q_cmd − q) of the virtual machine (R165), with the exported reactive power measured on `ipp`. -/
def State.vmE (s : State) (ipp : Cx) : Rat :=
  let q := -(s.law.trk.vp.mul ipp.conj).im
  (s.sp.eSet : Rat) / 1000 + (s.act SYNC_VM_CFG.KV : Rat) / 1000 * (s.qCmd - q)

/-- The grid-forming references (R165, R167): positive and negative sequence. In the first tick after the change the
references of the tick before stand. -/
def State.formRef (s : State) (ipp ipn : Cx) : State × Cx × Cx :=
  let k := s.law.src
  if k.fresh then
    let e := (s.vgpF.add (s.zv.mul k.refp)).abs - s.vmE ipp
    let s := s.vmOnGrid k.refp
    (s.onLaw fun l => { l with src := { l.src with eOff := e, fresh := false } }, k.refp, k.refn)
  else
    let t := s.tsec
    let p := (s.law.trk.vp.mul ipp.conj).re + (s.law.trk.vn.mul ipn.conj).re
    let h : Rat := (s.act SYNC_VM_CFG.H : Rat) / 20
    let w := k.wvm + divR t (2 * h) * (k.pApp - p - (s.act SYNC_VM_CFG.D : Rat) * (k.wvm - 1))
    let d := k.dlt + s.wnom * t * w
    let e := s.vmE ipp + k.eOff
    let s := s.onLaw fun l => { l with src := { l.src with wvm := w, dlt := d, eOff := k.eOff * decay t 1 } }
    (s, (((Cx.cis (d - s.law.trk.theta)).scale e).sub s.vgpF).div s.zv, (Cx.zero.sub s.vgnF).div s.zv)

/-- The references of the source in force, with the approach back from grid-forming (R163, R165, R167): its first tick too
uses the references of the tick before. The last grid-forming value is that before R128 and R131 (DESIGN CHOICE, log entry
137). -/
def State.sourceRef (s : State) (ipp ipn : Cx) : State × Cx × Cx :=
  if s.law.src.gfm then s.formRef ipp ipn
  else
    let r := s.followRef
    if s.law.src.fresh then
      (s.onLaw fun l => { l with src := { l.src with fresh := false } }, s.law.src.refp, s.law.src.refn)
    else if s.law.src.back then
      let d := s.spRate * s.sinceS1
      let x : Cx := ⟨approach d s.law.src.pre.re r.re, approach d s.law.src.pre.im r.im⟩
      (s.onLaw fun l => { l with src := { l.src with back := x != r } }, x, Cx.zero)
    else (s, r, Cx.zero)

/-- The supervisor's say over the references (R169, R170): d in RECOVERY approaches its normal value, and NORMAL comes in
the tick in which it gets there. -/
def State.rideRef (s : State) (r n : Cx) : State × Cx × Cx :=
  let st := s.law.sup.state
  let x : State × Cx × Cx :=
    if st = 4 ∨ st = 2 then (s, Cx.zero, Cx.zero)
    else if st = 1 ∧ !s.law.src.gfm then
      let q := s.law.sup.qPre + (s.act FRT_INJ_CFG.K1 : Rat) / 10 * (s.law.trk.vp.abs - s.law.sup.uPre)
      (s, ⟨s.law.sup.dPre, q⟩, (s.vgnF.scale ((s.act FRT_INJ_CFG.K2 : Rat) / 10)).mul ⟨0, 1⟩)
    else if st = 3 then
      let d := approach ((s.act FRT_INJ_CFG.P_RECOV : Rat) * s.sinceS1) s.law.sup.dOut r.re
      let s := s.onLaw fun l => { l with sup := { l.sup with dOut := d } }
      (if d = r.re then s.supTo 0 else s, ⟨d, r.im⟩, n)
    else (s, r, n)
  match x.1.law.sup.restore with
  | none => x
  | some y =>
    let t : Rat := (s.act FRT_MC_CFG.RESTORE : Rat) / 1000
    if t ≤ y then (x.1.onLaw fun l => { l with sup := { l.sup with restore := none } }, x.2)
    else if st = 2 then x
    else (x.1, x.2.1.scale (divR y t), x.2.2.scale (divR y t))

/-! ### The current limit (R127 to R129, R171) -/

/-- The sources of the current limit in % of rated, in the order that settles ties (R66, R129): value and code. The weir step
is that of the tick's boundary. -/
def State.limitSources (s : State) : List (Rat × Nat) :=
  (match s.sp.heldSafe.ilim with
   | some x => [((x : Rat) / 10, 4)]
   | none => []) ++
  (match s.sp.heldHost.ilim with
   | some x => [((x : Rat) / 10, 3)]
   | none => []) ++
  [((s.rd HGS_RATING_STATUS.CUR_LIMIT_PCT : Rat), 0), ((s.tm.weir : Rat) * 100 / 16, 1)] ++
  (if s.stage = 3 ∨ s.stage = 4 then [((25 : Rat), 2)] else [])

/-- The lowest source, the first of those that tie (R66, R129). -/
def lowestOf : List (Rat × Nat) → Rat × Nat
  | [] => (0, 0)
  | x :: t => t.foldl (fun m y => if y.1 < m.1 then y else m) x

/-- The limit of this tick: a fall at once, a rise at LIM_RATE (R66, R129, R142). -/
def State.limitTick (s : State) : State :=
  let low := lowestOf s.limitSources
  let x := min low.1 (s.law.src.limit + 100 * s.limRate * s.sinceS1)
  let s := s.onLaw fun l => { l with src := { l.src with limit := x } }
  (s.s1Wr CTL_STATUS.LIMIT_SRC (if x < low.1 then 5 else low.2)).s1Wr CTL_STATUS.LIMIT_PCT (showR 60 0 255 x).toNat

/-- The sign of a number times a magnitude. -/
def withSign (x m : Rat) : Rat := if x < 0 then -m else m

/-- What is left of a circle of radius `r` beside a component `x`. -/
def besides (r x : Rat) : Rat := if r * r ≤ x * x then 0 else Config.sqrt (r * r - x * x)

/-- A vector shortened to at most a magnitude by a factor (R128, R171). -/
def shrink (m : Rat) (x : Cx) : Cx := if x.abs ≤ m then x else x.scale (divR m x.abs)

/-- R171: the sequence priority during EVENT and RECOVERY. -/
def seqPrio (prio : Nat) (m : Rat) (p n : Cx) : Cx × Cx :=
  if prio = 0 then
    let q := withSign p.im (min (absR p.im) m)
    let n' := shrink (m - absR q) n
    (⟨withSign p.re (min (absR p.re) (besides (m - n'.abs) q)), q⟩, n')
  else if prio = 1 then
    let n' := shrink m n
    let q := withSign p.im (min (absR p.im) (m - n'.abs))
    (⟨withSign p.re (min (absR p.re) (besides (m - n'.abs) q)), q⟩, n')
  else
    let k := divR m (p.abs + n.abs)
    (p.scale k, n.scale k)

/-- Steps 2 and 3 of R128. -/
def limitPrio (prio : Nat) (m : Rat) (p n : Cx) : Cx × Cx :=
  let n' := shrink (max 0 (m - p.abs)) n
  if p.abs ≤ m then (p, n')
  else if prio = 0 then
    let d := withSign p.re (min (absR p.re) m)
    (⟨d, withSign p.im (min (absR p.im) (besides m d))⟩, n')
  else if prio = 1 then
    let q := withSign p.im (min (absR p.im) m)
    (⟨withSign p.re (min (absR p.re) (besides m q)), q⟩, n')
  else (p.scale (divR m p.abs), n')

/-- The references under the current limit (R127, R128, R171), whether they were reduced; m is lowered by A while the
probe injects (R201). -/
def State.limitRef (s : State) (p n : Cx) : Cx × Cx × Bool :=
  let m := max 0 (s.law.src.limit / 100 - (if s.law.mir.inject then s.mirAmp else 0))
  if p.abs + n.abs ≤ m then (p, n, false)
  else
    let x := if s.law.sup.state = 1 ∨ s.law.sup.state = 3 then seqPrio (s.act FRT_INJ_CFG.SEQ_PRIO) m p n
      else limitPrio (s.act CTL_MODE.PRIO) m p n
    (x.1, x.2, true)

/-- Mean E_link of the capacitor-only cells in service of a phase, if there is one (R130). -/
def State.capEnergy (s : State) (p : Nat) : Option Rat :=
  let l := (s.inService p).filter (fun c => s.role c == 0)
  if l = [] then none else some (meanR (l.map (fun c => (s.elink c : Rat))))

/-- W_L1 to W_L3, when every phase has a capacitor-only cell in service (R130). -/
def State.capW (s : State) : Option (Rat × Rat × Rat) :=
  match s.capEnergy 0, s.capEnergy 1, s.capEnergy 2 with
  | some a, some b, some c => some (a, b, c)
  | _, _, _ => none

/-- KD and the capacitive limit of the derating table, ahead of R127 (R64, R131). -/
def State.trimRef (s : State) (p : Cx) : Cx :=
  let d := match s.capW with
    | some (a, b, c) => p.re - (s.act CTL_ZSEQ_CFG.KD : Rat) / 100000 * ((a + b + c) / 3)
    | none => p.re
  ⟨d, max p.im (-((s.rd HGS_RATING_STATUS.QCAP_LIMIT_PCT : Rat) / 100))⟩

/-- Phase blocks alone are in force (R400). -/
def State.phaseBlocked (s : State) : Bool := s.blockedPhases != 0 && s.blockedPhases != 7

/-- All references of a tick, without the probe term: sources, ride-through, trims, limit (R127, R128, R163 to R171). They are
0 in TRIPPED and CESSATION, and while only phase blocks are in force (R400). The references that a change of source carries
over have had their trims (R167); those that EVENT or RECOVERY puts in their place have not (R131). -/
def State.formReferences (s : State) (ipp ipn : Cx) : State :=
  let s := (s.approachSetpoints.plimTick.voltVar).limitTick
  let a := s.sourceRef ipp ipn
  let st := a.1.law.sup.state
  let fresh := s.law.src.fresh && st != 3 && (st != 1 || a.1.law.src.gfm)
  let b := a.1.rideRef a.2.1 a.2.2
  let s := b.1
  let zero := s.law.sup.state == 4 || s.law.sup.state == 2 || s.phaseBlocked
  let p := if zero then Cx.zero else if fresh then b.2.1 else s.trimRef b.2.1
  let x := s.limitRef p (if zero then Cx.zero else b.2.2)
  let cut := if s.law.src.gfm && x.2.2 then s.law.src.cut + 1 else 0
  let pre := if zero then Cx.zero else if fresh then s.law.src.pre else b.2.1
  let s := s.onLaw fun l => { l with src := { l.src with refp := x.1, refn := x.2.1, pre := pre, cut := cut } }
  let s := if 2 ≤ cut then s.vmOnGrid x.1 else s
  s.s1Wr CTL_STATUS.I_LIMITING (b2n x.2.2)

/-! ### The gain table, resonant terms and the notch (R121 to R125) -/

/-- The interpolated multiplier of R121 for an error in 0.01 %, from STEP and the 16 entries. -/
def lutMul (x step : Nat) (tab : List Nat) : Nat :=
  let st := 10 * step
  let j := x / st
  let rem := x - j * st
  let m (k : Nat) : Int := tab.getD k 0
  if 15 ≤ j then tab.getD 15 0
  else (m j + (m (j + 1) - m j) * ((4096 * rem / st : Nat) : Int) / 4096).toNat

/-- The active KP_MUL entries. -/
def State.kpTab (s : State) : List Nat := (List.range 16).map (s.acti CTL_LUT_j.KP_MUL)

/-- The active KI_MUL entries. -/
def State.kiTab (s : State) : List Nat := (List.range 16).map (s.acti CTL_LUT_j.KI_MUL)

/-- f_res,max (R123). -/
def State.resMax (s : State) : Rat :=
  let a := divR (1 / 10) s.tsec
  if s.act CTL_MODE.NOTCH_EN = 1 then min ((s.act CTL_NOTCH.FREQ : Rat) / 2) a else a

/-- One resonant term of a tick: its new state, its output, and whether it stopped or restarted by its range (R122, R123). -/
def State.resTerm (s : State) (frozen : Bool) (eab : Cx) (n : Nat) (r : ResSt) : ResSt × Cx × Bool :=
  let h : Rat := s.acti CTL_RES_n.HARM n
  let fits := decide (h * divR s.law.trk.omega (2 * Config.pi) < s.resMax)
  let off : ResSt := ⟨false, false, Cx.zero, Cx.zero, Cx.zero⟩
  if !bitOf (s.act CTL_MODE.RES_EN) n then (off, Cx.zero, false)
  else if !fits then ({ off with out := r.run || r.out }, Cx.zero, r.run)
  else
    let t := s.tsec
    let om := h * s.law.trk.omega * t
    let sg : Rat := if s.acti CTL_RES_n.SEQ n = 0 then 1 else -1
    let adv : Rat := (s.act CTL_MODEL.ADV : Rat) / 128
    let rho := Config.exp (-(2 * Config.pi * ((s.acti CTL_RES_n.DAMP n : Rat) / 10) * t))
    let c := Config.cos om
    if frozen then ({ r with run := true, out := false }, r.y1, r.out)
    else
      let e := eab.mul (Cx.cis (sg * om * (1 + adv)))
      let y := ((r.y1.scale (2 * rho * c)).sub (r.y2.scale (rho * rho))).add
        ((e.sub (r.e1.scale (rho * c))).scale ((s.acti CTL_RES_n.KR n : Rat) * t))
      (⟨true, false, y, r.y1, e⟩, y, r.out)

/-- The resonant terms of a tick: states, sum of outputs, and one event for each that its range stopped or let run. -/
def State.resTerms (s : State) (frozen : Bool) (eab : Cx) : State × Cx :=
  let l := (List.range 6).map (fun n =>
    s.resTerm frozen eab n (s.law.cur.res.getD n ⟨false, false, Cx.zero, Cx.zero, Cx.zero⟩))
  let s := s.onLaw fun k => { k with cur := { k.cur with res := l.map Prod.fst } }
  let s : State := l.foldl (fun s x =>
    if x.2.2 then
      let s := s.s1Post 3 [(24, 2, 3), (26, 4, s.freeVal 3 % 2 ^ 32)]
      s.used
    else s) s
  (s, Cx.sum (l.map (fun x => x.2.1)))

/-- The notch's output for the unfiltered voltage, and its new history (R124, R125). -/
def State.notchStep (s : State) (x : Cx) (n : NotchSt) : NotchSt × Cx :=
  let on := s.act CTL_MODE.NOTCH_EN == 1
  let h : NotchSt := if on = n.on then n else ⟨on, x, x, x, x⟩
  let t := s.tsec
  let c := Config.cos (2 * Config.pi * (s.act CTL_NOTCH.FREQ : Rat) * t)
  let b := Config.exp (-(Config.pi * (s.act CTL_NOTCH.WIDTH : Rat) * t))
  let a := 1 - (1 - b) * Config.pow10 (-((s.act CTL_NOTCH.DEPTH : Rat) / 20))
  let k := divR (1 - 2 * b * c + b * b) (1 - 2 * a * c + a * a)
  if !on then ({ h with x1 := x, x2 := h.x1, y1 := x, y2 := h.y1 }, x)
  else
    let y := (((x.sub (h.x1.scale (2 * a * c))).add (h.x2.scale (a * a))).scale k).add
      ((h.y1.scale (2 * b * c)).sub (h.y2.scale (b * b)))
    (⟨true, x, h.x1, y, h.y1⟩, y)

/-! ### The law (R118 to R120, R126, R130 to R139) -/

/-- v_lim in p.u. (R126). -/
def State.vlim (s : State) : Rat :=
  let v := (List.range 3).map (fun p => (s.vsyn p : Rat) / 10)
  let lo := (minMax v).1
  divR (divR 2 (Config.sqrt 3) * min (meanR v) (lo * 10 / 9)) s.vbase

/-- The zero-sequence demand z in V (R130), for the references and the output angle. -/
def State.zDemand (s : State) (refp : Cx) (tho : Rat) : Rat :=
  if s.act CTL_MODE.ZSEQ_EN = 0 then 0
  else
    match s.capW with
    | none => 0
    | some (a, b, c) =>
      let w : Cx := clarke a b c
      let v0 := min (s.act CTL_ZSEQ_CFG.ZMAX : Rat)
        (divR ((s.act CTL_ZSEQ_CFG.KZ : Rat) / 100 * w.abs) (max refp.abs (1 / 20)))
      v0 * Config.cos ((refp.mul (Cx.cis tho)).arg - w.arg)

/-- The MANUAL vector approaches CTL_MANUAL, as S1 read it at its start, at MAN_RATE (R115, R134). -/
def State.manualStep (s : State) : State :=
  let d := 10 * (s.act CTL_MODE.MAN_RATE : Rat) * s.sinceS1
  let v : Cx := ⟨(s.tm.manual.1 : Rat) / 10000, (s.tm.manual.2 : Rat) / 10000⟩
  s.onLaw fun l => { l with cur := { l.cur with man := ⟨approach d l.cur.man.re v.re, approach d l.cur.man.im v.im⟩ } }

/-- The applied voltage of the commands executing, p.u. (R118). -/
def State.vApplied (s : State) : Cx :=
  let u (p : Nat) : Rat := divR ((s.sched.uCur.getD p 0 : Rat) / 10) s.vbase
  clarke (u 0) (u 1) (u 2)

/-- The law of R118 in one tick: prediction, references, output, integrators, and what the scheduler takes. The limit that
MANUAL is held to (R135) is the lowest value of R66 (log entry 100). refp of R130 is with the probe term in V0 and without it in z
(DESIGN CHOICE, log entry 137). -/
def State.runLaw (s : State) : State :=
  let t := s.tsec
  let i := s.iMeas
  let vg := s.vgMeas
  let k := s.law.trk
  let w := k.omega
  let bypass := s.sched.held
  let lm := s.lmodel (s.act CTL_MODEL.LSCALE)
  let vapp := if s.law.cur.first then vg else s.vApplied
  let ip := if bypass then i else i.add ((vapp.sub vg).scale (divR t lm))
  let thm := k.theta + w * t
  let adv : Rat := (s.act CTL_MODEL.ADV : Rat) / 128
  let tho := k.theta + (1 + adv) * w * t
  let sep := sepStep (w * t / 2) ip s.law.cur.i
  let ipp := sepPos sep
  let ipn := sepNeg sep
  let s := s.formReferences ipp ipn
  let manual := s.law.cur.manual
  let refp := s.law.src.refp.add s.probeTerm
  let refn := s.law.src.refn
  let ippF := ipp.mul (Cx.cis (-thm))
  let ipnF := ipn.mul (Cx.cis thm)
  let ep := refp.sub ippF
  let en := refn.sub ipnF
  let x := (ep.abs * 10000).floor.toNat
  let step := s.act CTL_LUT_CFG.STEP
  let mkp := lutMul x step s.kpTab
  let mki := lutMul x step s.kiTab
  let kp : Rat := (s.act CTL_GAIN.KP : Rat) / 1000 * mkp / 4096
  let xp0 := match s.law.cur.oldGain with
    | some (k0 :: st0 :: tab) => s.law.cur.xp.add (ep.scale ((k0 : Rat) / 1000 * lutMul x st0 tab / 4096 - kp))
    | _ => s.law.cur.xp
  let neg := s.act CTL_MODE.NEG_EN == 1 && !manual
  let jwl : Cx := ⟨0, w * lm⟩
  let ff := s.vgpF.add (jwl.mul ippF)
  let auto := ff.add ((ep.scale kp).add xp0)
  let s := if manual then s.manualStep else s
  let vp := if manual then s.law.cur.man else auto
  let vn := if neg then ((s.vgnF.sub (jwl.mul ipnF)).add (en.scale ((s.act CTL_NEG_GAIN.KP : Rat) / 1000))).add s.law.cur.xn
    else Cx.zero
  let eab := ((refp.mul (Cx.cis thm)).add (refn.mul (Cx.cis (-thm)))).sub ip
  let frozen := s.sched.satCur.any id
  let off : List ResSt := List.replicate 6 ⟨false, false, Cx.zero, Cx.zero, Cx.zero⟩
  let rt := if manual then (s.onLaw fun l => { l with cur := { l.cur with res := off } }, Cx.zero) else s.resTerms frozen eab
  let s := rt.1
  let nt := s.notchStep (((vp.mul (Cx.cis tho)).add (vn.mul (Cx.cis (-tho)))).add rt.2) s.law.cur.notch
  let vu := nt.2
  let sat := decide (s.vlim ≤ vu.abs)
  let vs := if vu.abs ≤ s.vlim then vu else vu.scale (divR s.vlim vu.abs)
  let go := !frozen && !bypass
  let xp1 := if go then xp0.add (ep.scale (t * (s.act CTL_GAIN.KI : Rat) * mki / 4096)) else xp0
  let xn1 := if go then s.law.cur.xn.add (en.scale (t * (s.act CTL_NEG_GAIN.KI : Rat))) else s.law.cur.xn
  let ex := (vu.sub vs).scale ((s.act CTL_AW_CFG.KAW : Rat) / 4096)
  let blocked := s.allBlocked
  let xp2 := if blocked then Cx.zero else if manual then vp.sub (ff.add (ep.scale kp)) else xp1.sub (ex.mul (Cx.cis (-tho)))
  let xn2 := if blocked || !neg then Cx.zero else xn1.sub (ex.mul (Cx.cis tho))
  let im := ip.add ((vs.sub (vg.mul (Cx.cis (w * t * (1 + adv))))).scale (divR t (2 * lm)))
  let z := if blocked then 0 else s.zDemand s.law.src.refp tho
  let vb := s.vbase
  let ib := s.ibase
  let beyond := if manual && decide ((lowestOf s.limitSources).1 / 100 < ipp.abs + ipn.abs) then s.law.cur.overTicks + 1 else 0
  let zc := Cx.zero
  let s := s.onLaw fun l =>
    let nh : NotchSt := if blocked then ⟨nt.1.on, zc, zc, zc, zc⟩ else nt.1
    let rs := if blocked then l.cur.res.map (fun r => { r with y1 := zc, y2 := zc, e1 := zc }) else l.cur.res
    { l with cur := { l.cur with
        i := sep, xp := xp2, xn := xn2, res := rs, notch := nh, outF := vs.mul (Cx.cis (-tho)), overTicks := beyond
        first := false, oldGain := none, v := (unclarke vs).map (· * vb), z := z, imid := (unclarke im).map (· * ib) } }
  let s := (s.s1Wr CTL_STATUS.V_SAT (b2n sat)).s1Wr CTL_STATUS.FROZEN (b2n frozen)
  let s := s.s1Wr CTL_STATUS.PRED_BYPASS (b2n bypass)
  let act := (List.range 6).foldl (fun m n => m + (if (s.law.cur.res.getD n ⟨false, false, zc, zc, zc⟩).run then 2 ^ n else 0)) 0
  let s := (s.s1Wr CTL_STATUS.RES_ACTIVE act).s1Wr CTL_STATUS.NOTCH_ACTIVE (b2n s.law.cur.notch.on)
  (s.s1Wr CTL_EFF_GAIN.M_KP mkp).s1Wr CTL_EFF_GAIN.M_KI mki

/-! ### Mode, tables and registers (R132 to R138, R141, R152) -/

/-- A write of CTL_MODE (R132, R141): PRIO 3 and MANUAL while grid-forming are refused; the device is grid-forming from the
boundary that takes the request over (log entry 99). -/
def State.writeCtlMode (s : State) (v : Nat) : State :=
  if !inRange CTL_MODE.PRIO.base v ∨ bits v 26 2 = 3 ∨ (bits v 31 1 = 1 ∧ s.rd CTL_MODE.MODE_REQ = 0 ∧ s.law.src.gfm) then
    s.refuse CTL_STATUS.CFG_ERR
  else s.putRw CTL_MODE.PRIO.base v

/-- CTL_MODE_WRITE (R132). -/
def execCtlModeWrite (value : Nat) (s : State) : Host.Outcome State Fault Refusal := .next (s.live fun s => s.writeCtlMode value)

/-- The fields of CTL_MODE, which a tick boundary takes over (R141). -/
def ctlModeFields : List Fld :=
  [CTL_MODE.MODE_REQ, CTL_MODE.ZSEQ_EN, CTL_MODE.NOTCH_EN, CTL_MODE.NEG_EN, CTL_MODE.PRIO, CTL_MODE.RES_EN, CTL_MODE.MAN_RATE]

/-- A vector in the layout of CTL_MANUAL (R152). -/
def State.showManual (s : State) (v : Cx) : State :=
  (s.wr CTL_MANUAL.VD (unsg 16 (showR 61 (-32768) 32767 (10000 * v.re)))).wr CTL_MANUAL.VQ
    (unsg 16 (showR 62 (-32768) 32767 (10000 * v.im)))

/-- The mode in force changes, in both copies of the law (R133). -/
def State.setMode (s : State) (m : Bool) : State :=
  let g (l : Law) : Law := { l with cur := { l.cur with manual := m, overTicks := 0, man := if m then l.cur.outF else l.cur.man } }
  let s := { s with law := g s.law, lawC := g s.lawC }
  let s := s.wr CTL_STATUS.MODE (b2n m)
  if m then s.showManual s.law.cur.outF else s

/-- MODE_TRANSFER (R133): at the boundary. -/
def execModeTransfer (s : State) : Host.Outcome State Fault Refusal :=
  .next (s.live fun s =>
    let req := s.act CTL_MODE.MODE_REQ == 1
    if s.tm.run && s.tm.phase == 0 && req != s.law.cur.manual then s.setMode req else s)

/-- FORCED_AUTO (R135): at the boundary after two MANUAL ticks over the current limit. -/
def execForcedAuto (s : State) : Host.Outcome State Fault Refusal :=
  .next (s.live fun s =>
    if s.tm.run && s.tm.phase == 0 && s.law.cur.manual && decide (2 ≤ s.law.cur.overTicks) then
      let s := ((s.wr CTL_MODE.MODE_REQ 0).activate CTL_MODE.MODE_REQ 0).setMode false
      (s.wr CTL_STATUS.FORCED_AUTO 1).noticeOpen 6
    else s)

/-- CTL_MANUAL_WRITE (R134, R152). -/
def execCtlManualWrite (value : Nat) (s : State) : Host.Outcome State Fault Refusal :=
  .next (s.live fun s => s.putRw CTL_MANUAL.VD.base value)

/-- The fields that CTL_TABLE_CTRL makes active (R136). -/
def ctlTables : List Fld :=
  [CTL_GAIN.KP, CTL_GAIN.KI, CTL_NEG_GAIN.KP, CTL_NEG_GAIN.KI, CTL_LUT_CFG.STEP, CTL_LUT_j.KP_MUL, CTL_LUT_j.KI_MUL,
   CTL_RES_n.SEQ, CTL_RES_n.HARM, CTL_RES_n.KR, CTL_RES_n.DAMP, CTL_NOTCH.FREQ, CTL_NOTCH.WIDTH, CTL_NOTCH.DEPTH,
   CTL_MODEL.ADV, CTL_MODEL.LSCALE, CTL_AW_CFG.KAW, CTL_AW_CFG.LIM_RATE, CTL_ZSEQ_CFG.ZMAX, CTL_ZSEQ_CFG.KZ,
   CTL_ZSEQ_CFG.KD]

/-- A set passes R137, read by `rd`, with NOTCH_EN as given: as written at a swap, as in force at a release (log entry 101). -/
def State.ctlSetOk (s : State) (rd : Fld → Nat → Nat) (notch : Bool) : Bool :=
  let top := (List.range 16).foldl (fun m j => max m (rd CTL_LUT_j.KP_MUL j)) 0
  let l := s.lmodel (rd CTL_MODEL.LSCALE 0)
  decide ((rd CTL_GAIN.KP 0 : Rat) / 1000 * top / 4096 ≤ divR l (2 * s.tsec)) &&
  (!notch || decide ((rd CTL_NOTCH.FREQ 0 : Rat) ≤ divR (2 / 5) s.tsec))

/-- CTL_TABLE_CTRL.SWAP (R136, R137): `v` is the word written. -/
def State.ctlSwap (s : State) (ag : Agent) (v : Nat) : State :=
  if s.bit CTL_TABLE_CTRL.PENDING then s
  else if s.ctlSetOk s.rdi (s.bit CTL_MODE.NOTCH_EN) then (s.wr CTL_TABLE_CTRL.PENDING 1).askAt CTL_TABLE_CTRL.SWAP.base
  else (s.refuse CTL_STATUS.CFG_ERR).configRefused CTL_TABLE_CTRL.SWAP.base v ag

/-- The `CTL_` tables become active; the gains before are kept until S1 has made up the step (R136, R138). -/
def State.ctlApply (s : State) : State :=
  if s.bit CTL_TABLE_CTRL.PENDING then
    let old := s.act CTL_GAIN.KP :: s.act CTL_LUT_CFG.STEP :: s.kpTab
    let g (l : Law) : Law := { l with cur := { l.cur with oldGain := some old } }
    let s := { s with law := g s.law, lawC := g s.lawC }
    ((s.activateAll ctlTables).wr CTL_TABLE_CTRL.PENDING 0).wr CTL_TABLE_CTRL.ACTIVE (1 - s.rd CTL_TABLE_CTRL.ACTIVE)
  else s

/-- CTL_TABLE_SWAP (R137). -/
def execCtlTableSwap (ag : Agent) (s : State) : Host.Outcome State Fault Refusal := .next (s.live fun s => s.ctlSwap ag (2 ^ 31))

/-- CTL_SWAP_APPLY (R136, R138, R703): at the first boundary after the request. -/
def execCtlSwapApply (s : State) : Host.Outcome State Fault Refusal :=
  .next (s.live fun s => if s.boundaryDue CTL_TABLE_CTRL.SWAP.base then s.ctlApply else s)

end Sys2Proof.Machine
end

