-- ==== Sys2Proof/Machine/Ports.lean ====
section
/-! DEFINITION. DC ports: panel tracking, global scans, pack windows (07_dc_ports.md). -/
namespace Sys2Proof.Machine
open Reg

/-! ### PV cells -/

/-- A PV cell that nothing has started. -/
def PvSt.init : PvSt := ⟨0, [], true, [], 0, 0, 0, [], false, none, 0, [], false, 3, 0, 0⟩

/-- The tracker of a cell. -/
def State.pv (s : State) (c : Nat) : PvSt := tget (fun _ => PvSt.init) s.law.pv c

/-- Change a cell's tracker in a copy of the law. -/
def Law.updPv (l : Law) (c : Nat) (g : PvSt → PvSt) : Law :=
  { l with pv := tput (fun _ => PvSt.init) l.pv c (g (tget (fun _ => PvSt.init) l.pv c)) }

/-- Change a cell's tracker in S1. -/
def State.onPv (s : State) (c : Nat) (g : PvSt → PvSt) : State := s.onLaw fun l => l.updPv c g

/-- Change a cell's tracker in both copies of the law. -/
def State.bothPv (s : State) (c : Nat) (g : PvSt → PvSt) : State :=
  { s with law := s.law.updPv c g, lawC := s.lawC.updPv c g }

/-- The enabled PV cells. -/
def State.pvCells (s : State) : List Nat := s.plant.filter (fun c => s.role c == 2)

/-- The dither period of a tick (R227). -/
def periodOf (n : Int) : Int := n / 256

/-- Bits set in the 8 low places. -/
def popcount8 (x : Nat) : Nat := (List.range 8).foldl (fun k i => k + b2n (bitOf x i)) 0

/-- h_r at a tick (R207, R227). -/
def dither (row : Nat) (n : Int) : Rat := if popcount8 (Nat.land row (n % 256).toNat) % 2 = 0 then 1 else -1

/-- A condition that holds the tracker, the scan apart (R231). -/
def State.pvHeld (s : State) (c : Nat) (trk : Bool) : Bool :=
  s.sstate c != 5 || s.rdi HGS_CELL_STATE_n.CLASS c == 0 || (s.cell c).link.tel.curt ||
  s.law.sup.state == 1 || s.law.sup.state == 2 || s.law.sup.state == 4 || !trk

/-- A tracker at the boundary that begins period `p` (R227, R230, R231, R240): the configuration written since, a step that
is due, V_op inside its range, and tracking again when nothing holds it. A tracker held from here on keeps its V_op: the
step is dropped. -/
def State.pvBoundary (s : State) (c : Nat) (p : Int) (x : PvSt) : PvSt :=
  let trk := s.biti PORT_PV_CFG_n.TRK_EN c
  let vmax := s.rdi PORT_PV_CFG_n.VMAX c
  let vmin := s.rdi PORT_PV_CFG_n.VMIN c
  let hold := x.scan != none || s.pvHeld c trk
  let v := match x.next.find? (fun y => y.1 == p) with
    | some y => if hold then x.vop else y.2
    | none => x.vop
  { x with
    vop := clampR (vmin : Rat) (vmax : Rat) v, next := x.next.filter (fun y => decide (p < y.1))
    hold := hold, bad := x.bad.filter (fun y => decide (p - 4 ≤ y)), curtIn := x.curtIn.filter (fun y => decide (p - 4 ≤ y))
    trk := trk, row := s.rdi PORT_PV_CFG_n.ROW c, vmax := vmax, vmin := vmin }

/-- V_cmd of a PV cell for an execution tick, in 0.1 V (R227, R231, R234). The commands of the first tick of a period are
launched in the tick before it and take what the boundary brings. -/
def State.vCmd (s : State) (c : Nat) (n : Int) : Int :=
  let first := n % 256 == 0
  let x := if first then s.pvBoundary c (periodOf n) (s.pv c) else s.pv c
  match x.scan with
  | some k => nearR 70 (10 * k.v)
  | none =>
    let damp := if first then s.act PORT_TRK_CFG.DAMP else s.law.trkCfg.getD 0 30
    if x.hold then nearR 70 (10 * x.vop)
    else nearR 70 (10 * x.vop * (1 + (damp : Rat) / 10000 * dither x.row n))

/-- The port power reported for an executed tick, or the last one before it (R229, R100). -/
def powerAt (l : List (Int × Int)) (n : Int) : Int :=
  match l.find? (fun x => decide (x.1 ≤ n)) with
  | some x => x.2
  | none => 0

/-- A device-wide condition prevents every scan (R233). -/
def State.scanBlocked (s : State) : Bool :=
  s.stage != 5 || decide (2 ≤ s.rd CLK_TICK_STATUS.SHED_LEVEL) || s.law.sup.state != 0

/-- SCAN_BLOCKED shows whether every scan is prevented (R233, R258), where no S1 writes it: the tick stops or the stage
changes. -/
def State.showScan (s : State) : State := s.wr PORT_GSTATUS.SCAN_BLOCKED (b2n s.scanBlocked)

/-- The PV_SCAN record of a scan (R234, R235, R520); an abandoned scan that measured no point has no pbest (log entry 1). -/
def State.scanRecord (s : State) (c : Nat) (k : ScanSt) (vop : Rat) (abandoned : Bool) : State :=
  let best : Int := match k.best with
    | some b => nearR 71 b.2
    | none => (s.freeVal 4 % 2 ^ 31 : Nat)
  s.s1Post 0x24 [(24, 2, c), (26, 1, b2n abandoned), (28, 2, nearR 72 (10 * k.vpre)), (30, 2, nearR 73 (10 * vop)),
    (32, 4, nearR 74 k.ppre), (36, 4, best)]

/-- A scan in progress is abandoned (R235). -/
def State.scanGuard (s : State) (c : Nat) : State :=
  match (s.pv c).scan with
  | none => s
  | some k =>
    if decide (2 ≤ s.rd CLK_TICK_STATUS.SHED_LEVEL) || s.law.sup.state != 0 || s.sstate c != 5 || (s.cell c).link.tel.curt then
      let s := (s.onPv c fun x => { x with scan := none, vop := k.vpre }).scanRecord c k k.vpre true
      s.used
    else s

/-- A cell that loses its place as a PV cell ends its scan as one that left service (R235), outside S1. -/
def State.abandonScan (s : State) (c : Nat) : State :=
  match (s.pv c).scan with
  | none => s
  | some k =>
    let s := (s.bothPv c fun x => { x with scan := none, vop := k.vpre }).scanRecord c k k.vpre true
    s.used.wri PORT_STATUS_n.SCAN c 0

/-- A point of a scan whose last report has come in: its mean power against the best so far (R234). -/
def State.scanPoint (s : State) (c : Nat) (k : ScanSt) (p : Rat × Int × Int) : ScanSt :=
  let l := (s.cell c).port.powers.filter (fun x => decide (p.2.1 ≤ x.1) && decide (x.1 ≤ p.2.2))
  let pt := meanR (l.map (fun x => (x.2 : Rat)))
  let best := match k.best with
    | some b => if b.2 < pt then some (p.1, pt) else some b
    | none => some (p.1, pt)
  { k with best := best }

/-- The points whose reports have come in are taken; after the last point the scan ends (R234). A report of an executed tick
is there two ticks later. -/
def State.scanTake (s : State) (c : Nat) : State :=
  match (s.pv c).scan with
  | none => s
  | some k0 =>
    let k := (k0.pts.filter (fun p => decide (p.2.2 + 2 ≤ s.tm.n))).foldl (fun k p => s.scanPoint c k p)
      { k0 with pts := k0.pts.filter (fun p => !decide (p.2.2 + 2 ≤ s.tm.n)) }
    if k.swept && k.pts.isEmpty then
      let vop := match k.best with
        | some b => if 1005 / 1000 * k.ppre < b.2 then b.1 else k.vpre
        | none => k.vpre
      (s.onPv c fun x => { x with scan := none, vop := vop }).scanRecord c k vop false
    else s.onPv c fun x => { x with scan := some k }

/-- The status fields of a PV cell (R253, R255). -/
def State.showPv (s : State) (c : Nat) : State :=
  let x := s.pv c
  let s := (s.s1Wri PORT_STATUS_n.CURT c (b2n (s.cell c).link.tel.curt)).s1Wri PORT_STATUS_n.SCAN c (b2n (x.scan != none))
  let s := (s.s1Wri PORT_STATUS_n.QUEUED c (b2n x.queued)).s1Wri PORT_STATUS_n.HOLD c (b2n x.hold)
  (s.s1Wri PORT_SET_n.SET c (unsg 16 (nearR 75 (10 * x.vop)))).s1Wri PORT_SET_n.GRAD c
    (unsg 16 (showR 76 (-32768) 32767 (4096 * x.grad)))

/-- One PV cell in S1: hold, the period it spoils, its scan, status (R231, R234, R235, R255, R256). -/
def State.pvTick (s : State) (c : Nat) : State :=
  let s := (s.scanGuard c).scanTake c
  let p := periodOf s.tm.n
  let curt := (s.cell c).link.tel.curt
  let s := s.onPv c fun x =>
    let hold := x.hold || x.scan != none || s.pvHeld c x.trk
    { x with
      hold := hold, bad := if hold && !x.bad.contains p then p :: x.bad else x.bad
      curtIn := if curt && !x.curtIn.contains p then p :: x.curtIn else x.curtIn }
  s.showPv c

/-- The port work of every S1 (R231, R233, R235, R256, R258). -/
def State.portTick (s : State) : State :=
  let cells := s.pvCells
  let s : State := cells.foldl (fun s c => s.pvTick c) s
  let kw := sumR (cells.map (fun c => if (s.cell c).link.tel.curt then (s.pv c).pmFree else (s.pv c).pm)) / 1000
  let s := s.s1Wr PORT_PV_SUM.PAVAIL (showR 77 0 65535 kw).toNat
  let s := s.s1Wr PORT_PV_SUM.CURT_COUNT (min 255 (cells.filter (fun c => (s.cell c).link.tel.curt)).length)
  let s := s.s1Wr PORT_PV_SUM.SCAN_COUNT (min 255 (cells.filter (fun c => (s.pv c).scan != none)).length)
  s.s1Wr PORT_GSTATUS.SCAN_BLOCKED (b2n s.scanBlocked)

/-- The drop trigger (R232): the period mean against the highest of the last 60 s, V_op within ±2 % meanwhile. -/
def State.scanDrop (s : State) (x : PvSt) : Bool :=
  let trig := s.act PORT_SCAN_CFG.TRIG
  let top := x.means.foldl (fun m y => max m y.2.1) 0
  trig != 0 && decide (x.pm < (1 - (trig : Rat) / 100) * top) &&
  x.means.all (fun y => decide (absR (y.2.2 - x.vop) ≤ x.vop / 50))

/-- A queued scan may start for a cell (R233), the count of scans in its phase apart. -/
def State.scanReady (s : State) (c : Nat) : Bool :=
  let x := s.pv c
  x.queued && x.scan == none && s.sstate c == 5 && !(s.cell c).link.tel.curt &&
  decide ((s.law.trkCfg.getD 5 2 : Rat) * 100 ≤ x.pm)

/-- Start the scans that may start at a period boundary, lowest cell first (R233, R234). The mean of the last completed
period comes with its estimate. -/
def State.startScans (s : State) : State :=
  if s.scanBlocked then s
  else s.pvCells.foldl (fun s c =>
    let busy := (s.pvCells.filter (fun d => s.phaseOf d == s.phaseOf c && (s.pv d).scan != none)).length
    if s.scanReady c && decide (busy < s.act PORT_SCAN_CFG.CONC) then
      s.bothPv c fun x => { x with
        queued := false, hold := true, scan := some ⟨x.vop, x.pm, (x.vmax : Rat), none, s.tm.n + 1, periodOf s.tm.n, [], false⟩ }
    else s) s

/-- DITHER_PERIOD_BOUNDARY (R227, R230 to R233, R240, R243): at the boundary that begins a period. -/
def execDitherPeriodBoundary (t : Nat) (s : State) : Host.Outcome State Fault Refusal :=
  .next (s.live fun s =>
    let s := s.moveTo t
    if s.tm.run && s.tm.phase == 0 && s.tm.n % 256 == 0 then
      let p := periodOf s.tm.n
      let cfg := [s.act PORT_TRK_CFG.DAMP, s.act PORT_TRK_CFG.KG, s.act PORT_TRK_CFG.DELAY, s.act PORT_TRK_CFG.VSTEP,
        s.act PORT_TRK_CFG.DRIFT, s.act PORT_TRK_CFG.PMIN]
      let s := { s with law := { s.law with trkCfg := cfg }, lawC := { s.lawC with trkCfg := cfg } }
      let s : State := s.pvCells.foldl (fun s c => s.bothPv c fun x =>
        let x := s.pvBoundary c p x
        { x with queued := x.queued || (s.scanDrop x && x.scan == none) }) s
      s.startScans
    else s)

/-- The estimate of a period for one cell (R229, R231, R253, R256). -/
def State.pvEstimate (s : State) (p : Int) (c : Nat) : State :=
  let x := s.pv c
  let cfg (k : Nat) : Rat := (s.law.trkCfg.getD k 0 : Rat)
  let d : Int := s.law.trkCfg.getD 2 2
  let pw : List Rat := (List.range 256).map (fun (n : Nat) => (powerAt (s.cell c).port.powers (256 * p + (n : Int) + d) : Rat))
  let pm := sumR pw / 256
  let a := cfg 0 / 10000
  let free := if x.curtIn.contains p then x.pmFree else pm
  let means := ((s.tm.e, pm, x.vop) :: x.means).filter (fun y => decide (s.tm.e ≤ y.1 + 60000000000))
  let s := s.onPv c fun y => { y with
    pm := pm, pmFree := free, means := means
    scan := y.scan.map (fun k => if k.period = p + 1 then { k with ppre := pm } else k) }
  if x.bad.contains p || s.law.badPeriods.contains p then s
  else
    let dft := absR (meanR (pw.drop 248) - meanR (pw.take 8))
    if x.hold || decide (pm < 100 * cfg 5) then s
    else if cfg 4 / 100 * pm < dft then s.s1Inc PORT_GSTATUS.DRIFT_SKIPS 0
    else
      let g := divR (sumR ((List.range 256).map (fun (n : Nat) => dither x.row (n : Int) * pw.getD n 0))) (256 * a * x.vop)
      let e := divR (g * x.vop) pm
      let lim := cfg 3 / 1000 * x.vop
      let v := clampR (x.vmin : Rat) (x.vmax : Rat) (x.vop + clampR (-lim) lim (cfg 1 / 4096 * e * x.vop))
      s.onPv c fun y => { y with grad := e, next := y.next ++ [(p + 2, v)] }

/-- TRACKER_STEP (R229): the first S1 that has all samples of a period, DELAY + 2 ticks after its last. -/
def execTrackerStep (t : Nat) (s : State) : Host.Outcome State Fault Refusal :=
  .next (s.live fun s =>
    let s := s.moveTo t
    let p := (s.tm.n - 257 - (s.law.trkCfg.getD 2 2 : Nat)) / 256
    if s.tm.s1run && decide (s.law.estimated < p) then
      let s : State := s.pvCells.foldl (fun s c => s.pvEstimate p c) s
      s.onLaw fun l => { l with estimated := p }
    else s)

/-- Queue a scan of a PV cell (R232): a second request adds nothing. -/
def State.queueScan (s : State) (c : Nat) : State := s.bothPv c fun x => { x with queued := x.queued || x.scan == none }

/-- E at which a periodic scan of a cell last came due (R232). -/
def State.scanInstant (s : State) (c : Nat) : Option Nat :=
  let per := s.act PORT_SCAN_CFG.PERIOD * 60000000000
  let off := c * per / 240
  if per = 0 ∨ s.tm.e < off then none else some (off + (s.tm.e - off) / per * per)

/-- SCAN_PERIODIC_DUE (R232). Instants before the present PERIOD came into force are none of its own. -/
def execScanPeriodicDue (cell : Fin 240) (t : Nat) (s : State) : Host.Outcome State Fault Refusal :=
  .next (s.live fun s =>
    let s := s.moveTo t
    let c := cell.val
    match s.scanInstant c with
    | some i =>
      if s.enabled c && s.role c == 2 && decide ((s.pv c).due ≤ i) && decide (s.law.scanFrom ≤ i) then
        (s.queueScan c).bothPv c fun x => { x with due := s.tm.e + 1 }
      else s
    | none => s)

/-- PORT_CTRL.SCAN_REQ (R257): a cell that is not PV is refused. -/
def State.scanReq (s : State) (c : Nat) : State :=
  if c < 240 ∧ s.enabled c ∧ s.role c = 2 then s.queueScan c else s.refuse PORT_GSTATUS.CFG_ERR

/-- PORT_CTRL.SCAN_ALL (R257). -/
def State.scanAll (s : State) : State := s.pvCells.foldl (fun s c => s.queueScan c) s

/-- A write of PORT_CTRL (R257): a CELL outside its range, or SCAN_REQ of a cell that is not PV, refuses all of it (R243). -/
def State.writePortCtrl (s : State) (v : Nat) : State :=
  let c := bits v 0 8
  if 240 ≤ c then s.refuse PORT_GSTATUS.CFG_ERR
  else if bits v 31 1 = 1 ∧ !(s.enabled c && s.role c == 2) then s.refuse PORT_GSTATUS.CFG_ERR
  else
    let s := if bits v 31 1 = 1 then s.queueScan c else s
    if bits v 30 1 = 1 then s.scanAll else s

/-- PORT_SCAN_REQ (R257). -/
def execPortScanReq (cell : Nat) (s : State) : Host.Outcome State Fault Refusal := .next (s.live fun s => s.scanReq cell)

/-- PORT_SCAN_ALL (R257). -/
def execPortScanAll (s : State) : Host.Outcome State Fault Refusal := .next (s.live State.scanAll)

/-- SCAN_POINT_DONE (R234): after DWELL ticks at a point the next one is commanded; the mean over the last three quarters of
those ticks is taken once their reports are in (log entry 24). -/
def execScanPointDone (cell : Fin 240) (t : Nat) (s : State) : Host.Outcome State Fault Refusal :=
  .next (s.live fun s =>
    let s := s.moveTo t
    let c := cell.val
    let dwell := s.act PORT_SCAN_CFG.DWELL
    match (s.pv c).scan with
    | none => s
    | some k =>
      if s.tm.s1run && !k.swept && decide (k.start + dwell ≤ s.tm.n + 1) then
        let quiet : Int := (dwell - 3 * dwell / 4 : Nat)
        let x := s.pv c
        let v := k.v - (s.act PORT_SCAN_CFG.STEP : Rat) / 200 * (x.vmax : Rat)
        let k := { k with pts := k.pts ++ [(k.v, k.start + quiet, s.tm.n)] }
        if (x.vmin : Rat) ≤ v then s.onPv c fun x => { x with scan := some { k with v := v, start := s.tm.n + 1 } }
        else s.onPv c fun x => { x with scan := some { k with swept := true } }
      else s)

/-- Another enabled PV cell of the phase holds the row (R228). -/
def State.rowTaken (s : State) (c p row : Nat) : Bool :=
  s.plant.any (fun d => d != c && s.phaseOf d == p && s.role d == 2 && s.rdi PORT_PV_CFG_n.ROW d == row)

/-- A write of PORT_PV_CFG_n (R228, R240, R248); a cell that the part does not have ignores it (R4). -/
def State.writePvCfg (s : State) (c v : Nat) : State :=
  let row := bits v 22 8
  let off := PORT_PV_CFG_n.ROW.off c
  if s.cellCount ≤ c then s
  else if !inRange off v ∨ bits v 11 11 ≤ bits v 0 11 ∨ row % chipTicks (s.act MIR_CFG.CHIPLEN) = 0 ∨ popcount8 row < 2 ∨
      s.rowTaken c (s.phaseOf c) row then s.refuse PORT_GSTATUS.CFG_ERR
  else
    let new := row ≠ s.rdi PORT_PV_CFG_n.ROW c ∨ bits v 0 11 ≠ s.rdi PORT_PV_CFG_n.VMIN c
    let s := s.putRwi PORT_PV_CFG_n.ROW c v
    if new then s.bothPv c fun x => { x with bad := periodOf s.tm.n :: x.bad } else s

/-- PORT_PV_CFG_WRITE (R228). -/
def execPortPvCfgWrite (cell : Fin 240) (value : Nat) (s : State) : Host.Outcome State Fault Refusal :=
  .next (s.live fun s => s.writePvCfg cell.val value)

/-- A PV cell joins: V_op at VMAX, its tracker held (R241). -/
def State.pvJoin (s : State) (c : Nat) : State :=
  s.bothPv c fun x => { x with vop := (s.rdi PORT_PV_CFG_n.VMAX c : Rat), next := [], hold := true, scan := none }

/-! ### Pack cells (R236 to R241) -/

/-- The temperature factor (R237). -/
def State.tempFactor (s : State) (t : Int) : Rat :=
  let g (f : Fld) : Rat := (sgn 8 (s.act f) : Rat)
  let lo := g PORT_PACK_GCFG.TLO
  let cold := g PORT_PACK_GCFG.TCOLD
  let hot := g PORT_PACK_GCFG.THOT
  let hi := g PORT_PACK_GCFG.THI
  let x : Rat := (t : Rat)
  if x < lo ∨ hi < x then 0
  else if x < cold then divR (x - lo) (cold - lo)
  else if x ≤ hot then 1
  else divR (hi - x) (hi - hot)

/-- What R236 and R237 give for a pack cell: the effective state-of-charge window in 0.01 %, i_lo and i_hi in A, and the
flags SOC_LO, SOC_HI, TEMP, VPACK. -/
structure PackWin where
  socLo : Rat
  socHi : Rat
  lo : Rat
  hi : Rat
  fSocLo : Bool
  fSocHi : Bool
  fTemp : Bool
  fVolt : Bool
  deriving DecidableEq, Repr

/-- R236 and R237 for a pack cell. The effective window is not rounded (DESIGN CHOICE, log entry 135). -/
def State.packForm (s : State) (c : Nat) : PackWin :=
  let tel := (s.cell c).link.tel
  let ls := (s.cell c).mtr.lease
  let a : Rat := (s.rdi PORT_PACK_WIN_n.SOC_MIN c : Rat) / 2
  let b : Rat := (s.rdi PORT_PACK_WIN_n.SOC_MAX c : Rat) / 2
  let soh := s.rdi PORT_PACK_SOH_n.SOH c
  let ref := s.act PORT_AGE_CFG.SOH_REF
  let f : Rat := if soh < ref then
      max (1 / 2) (1 - (s.act PORT_AGE_CFG.AGE_K : Rat) / 256 * divR ((ref : Rat) - soh) (ref : Rat)) else 1
  let mid := (a + b) / 2
  let hw := (b - a) / 2
  let lo := max (mid - f * hw) ((ls.floor : Rat) / 100)
  let hi := min (mid + f * hw) ((ls.ceiling : Rat) / 100)
  let shut := decide (hi ≤ lo)
  let lo := if shut then mid else lo
  let hi := if shut then mid else hi
  let soc : Rat := (tel.soc : Rat) / 100
  let taper : Rat := (s.rdi PORT_PACK_WIN_n.TAPER c : Rat) / 2
  let fd := clampR 0 1 (divR (soc - lo) taper)
  let fc := clampR 0 1 (divR (hi - soc) taper)
  let ft := s.tempFactor tel.tPack
  let k := (soh : Rat) / 1000 * ft
  let vlow := decide (tel.portV ≤ 10 * s.rdi PORT_PACK_VLIM_n.VMIN c)
  let vhigh := decide (10 * s.rdi PORT_PACK_VLIM_n.VMAX c ≤ tel.portV)
  let alarm := tel.packAlarm != 0
  let ihi := (s.rdi PORT_PACK_LIM_n.IDIS c : Rat) / 10 * k * fd
  let ilo := -((s.rdi PORT_PACK_LIM_n.ICHG c : Rat) / 10 * k * fc)
  ⟨100 * lo, 100 * hi, if vhigh || alarm then 0 else ilo, if vlow || alarm || ls.state == 3 then 0 else ihi,
   shut || decide (fd < 1), shut || decide (fc < 1), decide (ft < 1), vlow || vhigh⟩

/-- I_set of a pack cell after clipping, in A (R97, R237, R241). -/
def CellPort.iSet (x : CellPort) : Rat := clampR x.iLo x.iHi (if x.fresh then 0 else x.iRaw)

/-- The registers of a pack cell (R253 to R255), with PORT_CLIP when a clip flag rises (R237). -/
def State.showPack (s : State) (c : Nat) : State :=
  let x := (s.cell c).port
  let raw := if x.fresh then 0 else x.iRaw
  let dis := decide (x.iHi < raw)
  let chg := decide (raw < x.iLo)
  let rose := (dis && !s.biti PORT_STATUS_n.CLIP_DIS c) || (chg && !s.biti PORT_STATUS_n.CLIP_CHG c)
  let t (site : Nat) (v : Rat) : Nat := unsg 16 (showR site (-32768) 32767 (10 * v))
  let s := (s.wri PORT_SET_n.SET c (t 78 x.iSet)).wri PORT_SET_n.GRAD c 0
  let s := (s.wri PORT_WIN_n.IHI c (t 79 x.iHi)).wri PORT_WIN_n.ILO c (t 80 x.iLo)
  let s := (s.wri PORT_STATUS_n.CLIP_DIS c (b2n dis)).wri PORT_STATUS_n.CLIP_CHG c (b2n chg)
  if rose then s.post 0x23 [(24, 2, c), (28, 4, s.word (PORT_STATUS_n.ALARM.off c))] else s

/-- The window of a pack cell is formed anew; what narrows applies at once, what widens waits (R236 to R239). `whole`: it
applies as a whole, at a line-cycle boundary or when the cell joins. -/
def State.packWindow (s : State) (whole : Bool) (c : Nat) : State :=
  let w := s.packForm c
  let alarm := (s.cell c).link.tel.packAlarm != 0
  let rose := alarm && !s.biti PORT_STATUS_n.ALARM c
  let s := s.updCell c fun x => { x with port := { x.port with
      wLo := w.lo, wHi := w.hi, socLo := w.socLo, socHi := w.socHi
      iLo := if whole then w.lo else max x.port.iLo w.lo
      iHi := if whole then w.hi else min x.port.iHi w.hi
      alarmWin := alarm || (x.port.alarmWin && !whole) } }
  let s := (s.wri PORT_STATUS_n.LEASE c (b2n ((s.cell c).mtr.lease.state == 3))).wri PORT_STATUS_n.SOC_LO c (b2n w.fSocLo)
  let s := (s.wri PORT_STATUS_n.SOC_HI c (b2n w.fSocHi)).wri PORT_STATUS_n.TEMP c (b2n w.fTemp)
  let s := (s.wri PORT_STATUS_n.VPACK c (b2n w.fVolt)).wri PORT_STATUS_n.ALARM c (b2n alarm)
  let s := if rose then s.post 0x22 [(24, 2, c), (26, 1, (s.cell c).link.tel.packAlarm)] else s
  s.showPack c

/-- The enabled pack cells. -/
def State.packCells (s : State) : List Nat := s.plant.filter (fun c => s.role c == 1)

/-- A pack cell joins: its window before its first command, I_set 0 until the next line-cycle boundary (R241). -/
def State.packJoin (s : State) (c : Nat) : State :=
  (s.updCell c fun x => { x with port := { x.port with iRaw := 0, fresh := true } }).packWindow true c

/-- P_c of a cell over a line cycle of `ns` (R95), in W. -/
def State.cyclePower (s : State) (c ns : Nat) : Rat := divR (s.cell c).sch.energy (ns : Rat)

/-- The line-cycle boundary for the ports (R95, R96, R239): setpoints of the cycle, windows as last formed. -/
def State.packCycle (s : State) (ns : Nat) : State :=
  let s : State := s.packCells.foldl (fun s c =>
    let p := s.cyclePower c ns
    let s := s.updCell c fun x => { x with port := { x.port with
        iRaw := divR p ((x.link.tel.portV : Rat) / 10), fresh := false } }
    s.packWindow true c) s
  s.plant.foldl (fun s c => s.updCell c fun x => { x with sch := { x.sch with energy := 0 } }) s

/-- The four pack registers (R249 to R252). -/
def packReg (reg : Nat) : Fld :=
  if reg = 0 then PORT_PACK_LIM_n.ICHG else if reg = 1 then PORT_PACK_WIN_n.TAPER
  else if reg = 2 then PORT_PACK_VLIM_n.VMIN else PORT_PACK_SOH_n.SOH

/-- A write of a pack register (R239, R240, R249 to R252); a cell that the part does not have ignores it (R4). -/
def State.writePack (s : State) (reg c v : Nat) : State :=
  if s.cellCount ≤ c then s
  else if !inRange ((packReg reg).off c) v ∨ (reg = 1 ∧ bits v 16 8 ≤ bits v 24 8) ∨ (reg = 2 ∧ bits v 16 11 ≤ bits v 0 11) then
    s.refuse PORT_GSTATUS.CFG_ERR
  else
    let s := s.putRwi (packReg reg) c v
    if s.enabled c ∧ s.role c = 1 then s.packWindow false c else s

/-- PORT_PACK_WRITE (R239, R240). -/
def execPortPackWrite (reg : Fin 4) (cell : Fin 240) (value : Nat) (s : State) : Host.Outcome State Fault Refusal :=
  .next (s.live fun s => s.writePack reg.val cell.val value)

/-! ### Tables (R243) -/

/-- The fields that PORT_TABLE_CTRL makes active (R243). -/
def portTables : List Fld :=
  [PORT_TRK_CFG.DAMP, PORT_TRK_CFG.KG, PORT_TRK_CFG.DELAY, PORT_TRK_CFG.VSTEP, PORT_TRK_CFG.DRIFT, PORT_TRK_CFG.PMIN,
   PORT_SCAN_CFG.PERIOD, PORT_SCAN_CFG.TRIG, PORT_SCAN_CFG.STEP, PORT_SCAN_CFG.CONC, PORT_SCAN_CFG.DWELL,
   PORT_PACK_GCFG.TLO, PORT_PACK_GCFG.TCOLD, PORT_PACK_GCFG.THOT, PORT_PACK_GCFG.THI, PORT_AGE_CFG.AGE_K,
   PORT_AGE_CFG.SOH_REF, PORT_AGE_CFG.TRIM]

/-- PORT_TABLE_CTRL.SWAP (R136, R137, R243): refused when TLO < TCOLD < THOT < THI would be broken. -/
def State.portSwap (s : State) (ag : Agent) (v : Nat) : State :=
  if s.bit PORT_TABLE_CTRL.PENDING then s
  else if rising [s.rds PORT_PACK_GCFG.TLO, s.rds PORT_PACK_GCFG.TCOLD, s.rds PORT_PACK_GCFG.THOT, s.rds PORT_PACK_GCFG.THI] then
    (s.wr PORT_TABLE_CTRL.PENDING 1).askAt PORT_TABLE_CTRL.SWAP.base
  else (s.refuse PORT_GSTATUS.CFG_ERR).configRefused PORT_TABLE_CTRL.SWAP.base v ag

/-- The `PORT_` tables become active (R243); tracker settings wait for the next dither period boundary, and a new scan
interval counts from here (R232). -/
def State.portApply (s : State) : State :=
  if s.bit PORT_TABLE_CTRL.PENDING then
    let s := if s.rd PORT_SCAN_CFG.PERIOD = s.act PORT_SCAN_CFG.PERIOD then s
      else { s with law := { s.law with scanFrom := s.tm.e }, lawC := { s.lawC with scanFrom := s.tm.e } }
    ((s.activateAll portTables).wr PORT_TABLE_CTRL.PENDING 0).wr PORT_TABLE_CTRL.ACTIVE (1 - s.rd PORT_TABLE_CTRL.ACTIVE)
  else s

/-- PORT_TABLE_SWAP (R243). -/
def execPortTableSwap (ag : Agent) (s : State) : Host.Outcome State Fault Refusal := .next (s.live fun s => s.portSwap ag (2 ^ 31))

/-- PORT_SWAP_APPLY (R243, R703): at the first boundary after the request. -/
def execPortSwapApply (s : State) : Host.Outcome State Fault Refusal :=
  .next (s.live fun s => if s.boundaryDue PORT_TABLE_CTRL.SWAP.base then s.portApply else s)

end Sys2Proof.Machine
end

