-- ==== Sys2Proof/Machine/Link.lean ====
section
/-! DEFINITION. The Onhorn cell link: frames that return, trips, join requests, loop states, rate changes
(08_onhorn_link.md). Frame launches are in Tick.lean. -/
namespace Sys2Proof.Machine
open Reg

/-! ### Loop states and round trips (R282 to R284) -/

/-- The loop's state field: PRI or SEC (R301). -/
def loopField (loop : Nat) : Fld := if loop = 0 then LINK_RING_STATUS_r.PRI else LINK_RING_STATUS_r.SEC

/-- A loop changes state, with one LINK_EVENT record (R282). -/
def State.setLoop (s : State) (r loop new : Nat) : State :=
  let old := s.rdi (loopField loop) r
  if old = new then s else (s.wri (loopField loop) r new).linkEvent r loop old new

/-- The ring changes state, with one LINK_EVENT record. -/
def State.setRingLink (s : State) (r new : Nat) : State :=
  let old := s.ringState r
  if old = new then s else (s.wri LINK_RING_STATUS_r.STATE r new).linkEvent r 2 old new

/-- Code groups of a tick frame: compact telemetry below 8 µs (R264). -/
def State.frameGroups (s : State) : Nat := if s.tm.half < 16 then 672 else 1032

/-- FOLD_FIT of a ring: the S4 window covers a folded frame, in 0.25 ns (R284). -/
def State.foldFit (s : State) (r : Nat) : State :=
  let w := (s.rdi CLK_TICK_DEADLINE_n.DEADLINE 4 - s.rdi CLK_TICK_DEADLINE_n.DEADLINE 3) * 10
  let l := max ((s.ring r).trip.getD 0 0) ((s.ring r).trip.getD 1 0)
  s.wri LINK_RING_STATUS_r.FOLD_FIT r (b2n (decide (16 * s.frameGroups + 2 * l + 400 ≤ 4 * w)))

/-- FOLD_FIT of every ring, at a period or deadline change (R284). -/
def State.foldFitAll (s : State) : State := s.ringsOn.foldl (fun s r => s.foldFit r) s

/-- The lane that receives a loop's return: the primary loop returns to lane 2r+1 and the secondary to 2r (R259). -/
def laneOf (r loop : Nat) : Nat := if loop = 0 then 2 * r + 1 else 2 * r

/-! ### Telemetry (R269, R270, R279) -/

/-- The page of compact telemetry that a tick's frame brings (R270). -/
def mergePage (page : Nat) (old new : Slot) : Slot :=
  let t := { old with
    valid := new.valid, late := new.late, blocked := new.blocked, spillway := new.spillway, tripped := new.tripped,
    cmdLost := new.cmdLost, starving := new.starving, cmdLoop := new.cmdLoop, endState := new.endState,
    trans := new.trans, curt := new.curt, aligned := new.aligned, vlink := new.vlink, portP := new.portP }
  if page = 0 then
    { t with soc := new.soc, tPack := new.tPack, tSw := new.tSw, tCool := new.tCool, packAlarm := new.packAlarm, tickLo := new.tickLo }
  else if page = 1 then
    { t with portV := new.portV, portI := new.portI, delta := new.delta, fwdLat := new.fwdLat, err := new.err }
  else if page = 2 then { t with charge := new.charge }
  else { t with auxWord := new.auxWord, auxKind := new.auxKind, auxSeq := new.auxSeq, tripCause := new.tripCause, reply := new.reply }

/-- Errors a node counted at one loop's input since its last report (R269, R305). -/
def State.nodeErrs (s : State) (c loop err : Nat) : State :=
  let last := (s.cell c).link.lastErr.getD loop 0
  let d := (err % 16 + 16 - last) % 16
  let s := s.updCell c (fun x => { x with link := { x.link with lastErr := x.link.lastErr.set loop (err % 16) } })
  s.inci (if loop = 0 then LINK_CELL_STATUS_n.ERR_PRI else LINK_CELL_STATUS_n.ERR_SEC) c d

/-- A budget is charged with the transitions a cell reports for a tick whose commands the scheduler did not compute
(R99), and the round counts them (R584): the report is of the tick before this one (R269). -/
def State.chargeReported (s : State) (c trans : Nat) : State :=
  if s.sched.execPrev = .normal then s
  else (s.updCell c (fun x => { x with sch := { x.sch with trans := x.sch.trans + trans } })).wri HGS_CELL_STATE_n.BUDGET c (unsg 16 (max (-32768) (s.rdsi HGS_CELL_STATE_n.BUDGET c - 256 * (trans : Int))))

/-- A valid slot of a good copy is taken in: the copy of the lowest rank of the tick gives the telemetry (R279); every
copy gives the error counts at its loop's input, every unwrapped one its loop's DELTA and FWD_LAT (R275, R305). `page`:
the page of compact telemetry. During sleep no join step advances (R332). -/
def State.takeSlot (s : State) (c loop rank : Nat) (compact : Bool) (page : Nat) (w : Slot) : State :=
  let x := s.cell c
  let has1 := !compact || page == 1
  let s := if has1 then s.nodeErrs c loop w.err else s
  let s :=
    if rank < 2 ∧ has1 then
      s.updCell c (fun x => { x with link := { x.link with
        delta := x.link.delta.set loop (some w.delta), fwd := x.link.fwd.set loop w.fwdLat } })
    else s
  if x.link.rank ≤ rank then s
  else
    let first := x.link.rank == 3
    let tel := if compact then mergePage page x.link.tel w else w
    let changed := x.link.tel.packAlarm != tel.packAlarm || x.link.tel.tripped != tel.tripped ||
      x.link.tel.blocked != tel.blocked || x.link.tel.spillway != tel.spillway || x.link.tel.starving != tel.starving ||
      x.link.tel.late != tel.late || x.link.tel.cmdLost != tel.cmdLost
    let s := s.updCell c (fun x => { x with link := { x.link with
      old := if first then x.link.tel else x.link.old, tel := tel, rank := rank, fresh := true, missing := 0 } })
    let s := if first then s.chargeReported c tel.trans else s
    let s := s.wri LINK_CELL_STATUS_n.ALIGNED c (b2n tel.aligned)
    let s := s.wri LINK_CELL_STATUS_n.TRIPPED c (b2n tel.tripped)
    let s := s.wri LINK_CELL_STATUS_n.CMD_LOST c (b2n tel.cmdLost)
    let s := s.wri LINK_CELL_STATUS_n.LATE c (b2n tel.late)
    let s := if tel.spillway ∧ (s.cell c).svc.spillTicks ≠ none then
        let s := (s.wri JOIN_CELL_STATUS_n.SPILL_CONF c 1).updCell c (fun x => { x with svc := { x.svc with spillTicks := none } })
        if s.sstate c = 7 ∨ s.sstate c = 8 then s.endService c 1 (if s.sstate c = 8 then 6 else 0) 0 else s
      else s
    let s := if changed then s.tryWake .ring else s
    if s.asleep ∧ s.lstate c ≠ 5 then s
    else
      let s := if s.lstate c = 3 ∧ tel.aligned then s.startConfig c else s
      if first ∧ (!compact ∨ page = 3) then s.auxIn c w else s

/-- The slots of a copy, position by position; only granted cells write their slot (R272). -/
def State.takeSlots (s : State) (r loop rank : Nat) (f : FrameIn) : State :=
  (List.range 15).foldl (fun s q =>
    let c := r * 15 + q
    let w := f.slot q
    if w.1.valid ∧ s.enabled c ∧ 2 ≤ s.lstate c ∧ s.lstate c ≤ 5 then s.takeSlot c loop rank f.compact w.2 w.1 else s) s

/-- A ring whose lanes run at full rate: FULL, or FAILED from FULL (R283). -/
def State.fullRate (s : State) (r : Nat) : Bool :=
  s.ringOn r && (s.ringState r == 4 || (s.ringState r == 5 && (s.ring r).before == 4))

/-- A ring that carries tick frames: at full rate since before the present tick's boundary (R295). -/
def State.framed (s : State) (r : Nat) : Bool := s.fullRate r && decide ((s.ring r).fullAt < s.tm.start)

/-- A ring whose lanes run at wadi rate: WADI, or FAILED from WADI (R283). -/
def State.wadiRate (s : State) (r : Nat) : Bool :=
  s.ringOn r && (s.ringState r == 2 || (s.ringState r == 5 && (s.ring r).before == 2))

/-- A copy on a ring at full rate is in time between the launch and the S4 deadline of its own tick (R279, R302). -/
def State.inTime (s : State) (f : FrameIn) : Bool :=
  s.tm.run && s.tm.phase == 4 && decide (s.tm.e ≤ s.deadline 4) && (!f.good || f.execTick == s.tm.sent)

/-- A good copy that is in time on the return of loop `l` (R275, R279, R282): clean when it is the loop's own frame,
unwrapped; else folded. -/
def State.takeCopy (s : State) (r l : Nat) (f : FrameIn) : State :=
  let x := s.ring r
  let clean := !f.wrapped && f.loop == l
  let x := { x with gotAny := x.gotAny.set f.loop true }
  let s :=
    if !clean then (s.setRing r x).wri LINK_RING_STATUS_r.WRAP_POS r (if f.wrapped then f.wrapPos else s.rdi LINK_RING_STATUS_r.WRAP_POS r)
    else
      let x := { x with gotClean := x.gotClean.set l true, hop := x.hop.set l f.hop, trip := x.trip.set l f.roundTrip }
      let s := s.setRing r x
      let s := s.wri LINK_RING_STATUS_r.LOOP_DLY r (max (x.trip.getD 0 0) (x.trip.getD 1 0) / 4)
      if x.gotClean.getD 0 false ∧ x.gotClean.getD 1 false ∧ s.rdi LINK_RING_STATUS_r.PRI r = 0 ∧
          s.rdi LINK_RING_STATUS_r.SEC r = 0 ∧ x.hop.getD 0 0 = x.hop.getD 1 0 then
        s.wri LINK_RING_STATUS_r.NODES r f.hop
      else s
  s.takeSlots r f.loop (if clean then l else 2) f

/-- FRAME_RETURN (R262, R279, R302): a copy comes back on the return lane of a loop of a ring at instant `t`. One that
comes after the S4 deadline of its tick is discarded and counted as late. -/
def execFrameReturn (ring : Fin 16) (loop : Fin 2) (f : FrameIn) (t : Nat) (s : State) :
    Host.Outcome State Fault Refusal :=
  .next <| s.live fun s =>
    let s := s.moveTo t
    let r := ring.val
    let l := loop.val
    let lane := laneOf r l
    let st := s.ringState r
    let s := s.inci LINK_LANE_ERR_l.CODE lane f.codeErrs
    if !s.ringOn r ∨ (st ≠ 4 ∧ st ≠ 2 ∧ st ≠ 5) then s
    else
      let late := s.fullRate r && !s.inTime f
      let s := if late then s.inci LINK_LANE_ERR_l.LATE lane 1 else s
      if !f.good then
        let x := s.ring r
        (s.inci LINK_LANE_ERR_l.CRC lane 1).setRing r { x with good := x.good.set l 0 }
      else if late then s
      else s.takeCopy r l f

/-! ### Delay measurement (R275) -/

/-- The mean of accepted values, rounded to the nearest 0.25 ns. -/
def meanI (l : List Int) : Int := if l = [] then 0 else roundR (((l.foldl (· + ·) 0 : Int) : Rat) / (l.length : Rat))

/-- One cell's A_p and B_p from a tick in which both loops of its ring are UP; a value more than 8 ns from the mean is
not accepted. -/
def State.measureCell (s : State) (r q : Nat) : State :=
  let c := r * 15 + q
  let x := s.cell c
  match x.link.delta.getD 0 none, x.link.delta.getD 1 none with
  | some d, some _ =>
    let ls : Int := ((s.ring r).trip.getD 1 0 : Nat)
    let diff (n : Nat) : Int :=
      let y := s.cell (r * 15 + n)
      ((y.link.fwd.getD 1 0 : Nat) : Int) - ((y.link.fwd.getD 0 0 : Nat) : Int)
    let sum : Int := ((List.range q).map diff).foldl (· + ·) 0
    let a : Int := (ls - ((x.link.fwd.getD 1 0 : Nat) : Int) - d - sum) / 2 + s.rdsi LINK_CELL_TRIM_n.TRIM c
    if x.link.delayA = [] ∨ absI (a - meanI x.link.delayA) ≤ 32 then
      let la := (a :: x.link.delayA).take 64
      let lb := ((a + d) :: x.link.delayB).take 64
      let s := s.setCell c { x with link := { x.link with delayA := la, delayB := lb } }
      (s.wri LINK_CELL_DELAY_n.PRI c (unsg 16 (meanI la))).wri LINK_CELL_DELAY_n.SEC c (unsg 16 (meanI lb))
    else s.inci LINK_CELL_STATUS_n.OUTLIER c 1
  | _, _ => s

/-- The delay measurement of every ring with both loops UP, and the end of the tick's DELTA reports. -/
def State.measureDelays (s : State) : State :=
  let s := s.ringsOn.foldl (fun s r =>
    if s.rdi LINK_RING_STATUS_r.PRI r = 0 ∧ s.rdi LINK_RING_STATUS_r.SEC r = 0 then
      (List.range 15).foldl (fun s q => s.measureCell r q) s
    else s) s
  s.mapCells (fun _ x => { x with link := { x.link with delta := [none, none] } })

/-! ### Trips and join requests (R285, R291, R292) -/

/-- The number of the present tick; while the tick does not run, the one that the schedule time gives (R625). -/
def State.tickNow (s : State) : Int := if s.tm.run then s.tm.n else s.stime / (s.period : Int)

/-- A /TR/ of a position acts (R285, R397, R398): LINK_TRIP_LOG takes it, unless it is the copy on the other loop of the
one the log holds, and the fabric or the same-tick rule decides. -/
def State.actTr (s : State) (r pos loop cause : Nat) : State :=
  let c := r * 15 + pos
  let x := s.ring r
  let copy := match tget (fun _ => (0, 0)) x.lastTr (2 * pos + (1 - loop)) with
    | (k, e) => x.lastTr.any (fun y => y.1 == 2 * pos + (1 - loop)) && k == cause &&
        decide (s.tm.e ≤ e + s.rdi LINK_RING_STATUS_r.LOOP_DLY r)
  let s := s.setRing r { x with lastTr := tins x.lastTr (2 * pos + loop) (cause, s.tm.e) }
  let s := s.tryWake .ring
  let s := if copy then s else
    ((((s.wr LINK_TRIP_LOG.RING r).wr LINK_TRIP_LOG.POS pos).wr LINK_TRIP_LOG.CAUSE cause).wr
      LINK_TRIP_LOG.LOOP loop).wr LINK_TRIP_LOG.TICK_LO (unsg 16 s.tickNow)
  if 4 ≤ cause then s.plantTrip c cause
  else
    let s := s.cellLoss c
    let st := s.sstate c
    s.updCell c (fun x => { x with svc := { x.svc with
      blk := true
      trip := if st = 0 ∨ st = 8 ∨ st = 9 ∨ x.svc.trip ≠ none then x.svc.trip else some cause } })

/-- An ordered set whose special code group is K28.`k` arrives on the return lane of a loop: one with a parity error, or a
code error in either code group, is discarded and counted as a code error (R263). -/
def State.onOrder (s : State) (r loop k : Nat) (mark value : Code) (g : Nat → State → State) : State :=
  if !s.ringOn r then s
  else
    match orderSet k mark value with
    | none => s.inci LINK_LANE_ERR_l.CODE (laneOf r loop) 1
    | some v => g v s

/-- TR_RECEIVED (R263, R285, R306, R313, R397, R398): a /TR/ arrives on a loop. Copies of a position
and loop within 64 ns are ignored; cause 7, and a position that no node has, are discarded. -/
def execTrReceived (ring : Fin 16) (loop : Fin 2) (mark value : Code) (t : Nat) (s : State) :
    Host.Outcome State Fault Refusal :=
  .next <| s.live fun s => (s.moveTo t).onOrder ring.val loop.val 0 mark value fun v s =>
    let pos := v % 16
    let cause := v / 16
    let l := (s.ring ring.val).lastTr
    let dup := l.any (fun y => y.1 == 2 * pos + loop.val && decide (s.tm.e ≤ y.2.2 + 64))
    if dup ∨ cause = 7 ∨ pos = 15 then s else s.actTr ring.val pos loop.val cause

/-- A request is placed by tick and then by position (R292). -/
def placeJr (n : Int) (c : Nat) : List (Int × Nat) → List (Int × Nat)
  | [] => [(n, c)]
  | (m, d) :: t => if m = n ∧ c < d then (n, c) :: (m, d) :: t else (m, d) :: placeJr n c t

/-- A request is grantable: the cell enabled and not granted, both loops of the ring UP (R292). -/
def State.grantable (s : State) (c : Nat) : Bool :=
  let l := s.lstate c
  s.enabled c && !(2 ≤ l && l ≤ 5) && s.rdi LINK_RING_STATUS_r.PRI (ringOf c) == 0 &&
  s.rdi LINK_RING_STATUS_r.SEC (ringOf c) == 0

/-- A join request of a position (R291, R292): queued for a grant, or ignored and counted. -/
def State.actJr (s : State) (r pos : Nat) : State :=
  let c := r * 15 + pos
  let s := s.tryWake .ring
  if !s.grantable c then s.inci LINK_CELL_STATUS_n.JR_REFUSED c 1
  else
    let s := if s.lstate c = 0 ∨ s.lstate c = 6 then s.wri LINK_CELL_STATUS_n.LSTATE c 1 else s
    let x := s.ring r
    if x.jrs.any (fun j => j.2 == c) then s else s.setRing r { x with jrs := placeJr s.tm.n c x.jrs }

/-- JR_RECEIVED (R263, R291, R292): a /JR/ arrives on a loop; its value is the node's position. -/
def execJrReceived (ring : Fin 16) (x : OrderIn) (t : Nat) (s : State) : Host.Outcome State Fault Refusal :=
  .next <| s.live fun s => (s.moveTo t).onOrder ring.val x.loop.val 4 x.mark x.value fun v s =>
    if 15 ≤ v then s else s.actJr ring.val v

/-- The grant of a ring's next header (R292): the oldest request still grantable; the cell is GRANTED and LINKING from
its launch, LINKING from the next boundary (R309). Requests no longer grantable are ignored and counted. -/
def State.takeGrant (s : State) (r : Nat) : List (Int × Nat) → State × Option Nat
  | [] => (s.setRing r { s.ring r with jrs := [] }, none)
  | (_, c) :: t =>
    if s.grantable c then
      let s := s.setRing r { s.ring r with jrs := t }
      let s := (s.wri LINK_CELL_STATUS_n.LSTATE c 2).updCell c (fun x => { x with link :=
        { x.link with ticks := 0, delayA := [], delayB := [], tel := Slot.zero, fresh := false, missing := 0, shift := false,
                      delta := [none, none], vSum := 0, vCnt := 0, vAllSum := 0, vAllCnt := 0, vEdges := 0, vAvg := none }, thm := { x.thm with dt := 0 } })
      (s.askEnter c 1, some c)
    else (s.inci LINK_CELL_STATUS_n.JR_REFUSED c 1).takeGrant r t

/-- GRANT_LAPSE (R292): no telemetry with VALID within 16 ticks of the grant: PASS, and from the boundary NONE, or BYPASSED
with HOLD (R309). -/
def execGrantLapse (cell : Fin 240) (s : State) : Host.Outcome State Fault Refusal :=
  .next <| s.live fun s =>
    let c := cell.val
    let x := (s.cell c).link
    if s.lstate c = 2 ∧ 16 ≤ x.ticks ∧ !x.tel.valid ∧ !s.asleep then (s.wri LINK_CELL_STATUS_n.LSTATE c 1).askEnter c 3
    else s

/-- DELAYS_ACCEPTED (R293): 64 accepted delay values. -/
def execDelaysAccepted (cell : Fin 240) (s : State) : Host.Outcome State Fault Refusal :=
  .next <| s.live fun s =>
    let c := cell.val
    if s.lstate c = 2 ∧ 64 ≤ (s.cell c).link.delayA.length ∧ !s.asleep then
      (s.wri LINK_CELL_STATUS_n.LSTATE c 3).updCell c (fun x => { x with link := { x.link with ticks := 0 } })
    else s

/-- ALIGN_TIMEOUT (R293): not ALIGNED within 32 ticks. -/
def execAlignTimeout (cell : Fin 240) (s : State) : Host.Outcome State Fault Refusal :=
  .next <| s.live fun s =>
    let c := cell.val
    if s.lstate c = 3 ∧ 32 ≤ (s.cell c).link.ticks ∧ !s.asleep then
      (s.wri LINK_CELL_STATUS_n.LSTATE c 2).updCell c (fun x => { x with link := { x.link with ticks := 0, delayA := [], delayB := [] } })
    else s

/-! ### Loops and lanes -/

/-- The plant headroom follows cells that were lost after S5 formed it (R65, R317). -/
def State.lossHeadroom (s : State) : State := if 3 ≤ s.stage ∧ s.headroomDue false then s.formHeadroom else s

/-- LOOP_DOWN (R282, R283): LOOP_DOWN ticks without a good copy; with both loops DOWN the ring is FAILED and every cell of
it is lost. -/
def execLoopDown (ring : Fin 16) (loop : Fin 2) (s : State) : Host.Outcome State Fault Refusal :=
  .next <| s.live fun s =>
    let r := ring.val
    if !s.ringOn r ∨ (s.ring r).bad.getD loop.val 0 < s.rd LINK_CFG.LOOP_DOWN then s
    else
      let s := s.setLoop r loop.val 2
      let st := s.ringState r
      if s.rdi LINK_RING_STATUS_r.PRI r = 2 ∧ s.rdi LINK_RING_STATUS_r.SEC r = 2 ∧ (st = 2 ∨ st = 3 ∨ st = 4) then
        let s := s.setRing r { s.ring r with before := if st = 4 then 4 else 2 }
        let s := s.setRingLink r 5
        let s : State := (List.range 15).foldl (fun s q =>
          if s.enabled (r * 15 + q) then s.declareLost (r * 15 + q) else s) s
        s.lossHeadroom
      else s

/-- LOOP_UP (R282, R283, R284): 64 consecutive good unwrapped returns; a FAILED ring leaves FAILED. -/
def execLoopUp (ring : Fin 16) (loop : Fin 2) (s : State) : Host.Outcome State Fault Refusal :=
  .next <| s.live fun s =>
    let r := ring.val
    if !s.ringOn r ∨ (s.ring r).good.getD loop.val 0 < 64 then s
    else
      let s := (s.setLoop r loop.val 0).foldFit r
      if s.ringState r = 5 then s.setRingLink r (s.ring r).before else s

/-- LANE_LOCK_LOSS (R302). -/
def execLaneLockLoss (lane : Fin 32) (s : State) : Host.Outcome State Fault Refusal :=
  .next (s.live fun s => s.inci LINK_LANE_ERR_l.LOCK lane.val 1)

/-- CELL_LOST (R290): a joined cell's telemetry has been missing for LOST_TICKS consecutive ticks. A granted cell that has
not reported yet is R292's. -/
def execCellLost (cell : Fin 240) (s : State) : Host.Outcome State Fault Refusal :=
  .next <| s.live fun s =>
    let c := cell.val
    if s.enabled c ∧ 2 ≤ s.lstate c ∧ s.lstate c ≤ 5 ∧ (s.lstate c ≠ 2 ∨ (s.cell c).link.tel.valid) ∧
        s.rd LINK_CFG.LOST_TICKS ≤ (s.cell c).link.missing then
      (s.declareLost c).lossHeadroom
    else s

/-- AUX_RESEND_TIMEOUT (R271): 8 ticks without acknowledgement progress. -/
def execAuxResendTimeout (cell : Fin 240) (s : State) : Host.Outcome State Fault Refusal :=
  .next <| s.live fun s =>
    let c := cell.val
    let a := (s.cell c).link.aux
    if a.cur ≠ [] ∧ a.acked < a.cur.length ∧ 8 ≤ a.stall then
      s.updCell c (fun x => { x with link := { x.link with aux := { x.link.aux with next := a.acked, stall := 0 } } })
    else s

/-! ### Rates (R294 to R296) -/

/-- The change of a ring to full rate begins with /WK/ 0x01 (R295). -/
def State.startShift (s : State) (r : Nat) : State :=
  if s.ringState r = 2 ∧ s.ringOn r then
    let s := (s.sendOrder r (wkCodes 1)).setRing r { s.ring r with wkAt := s.tm.e }
    s.setRingLink r 3
  else s

/-- A ring at full rate goes to wadi mode with /WK/ 0x02 (R295). -/
def State.toWadi (s : State) (r : Nat) : State :=
  if s.ringState r = 4 ∧ s.ringOn r then
    let s := (s.sendOrder r (wkCodes 2)).setRing r { s.ring r with wadiAt := s.tm.e, wadiTx := s.tm.e }
    s.setRingLink r 2
  else s

/-- The rings of a mask. -/
def maskRings (m : Nat) : List Nat := (List.range 16).filter (bitOf m)

/-- LINK_CTRL.GO_FULL on a mask of rings. -/
def State.goFull (s : State) (m : Nat) : State := (maskRings m).foldl (fun s r => s.startShift r) s

/-- LINK_CTRL.GO_WADI on a mask of rings: refused while any cell of them is unblocked (R295, R299). -/
def State.goWadi (s : State) (m : Nat) : State :=
  if (maskRings m).all (fun r => s.ringBlocked r) then (maskRings m).foldl (fun s r => s.toWadi r) s
  else s.refuse LINK_RING_STATUS_r.CFG_ERR

/-- LINK_GO_FULL (R295, R299). -/
def execLinkGoFull (rings : Nat) (t : Nat) (s : State) : Host.Outcome State Fault Refusal :=
  .next (s.live fun s => (s.moveTo t).goFull rings)

/-- LINK_GO_WADI (R295, R299). -/
def execLinkGoWadi (rings : Nat) (t : Nat) (s : State) : Host.Outcome State Fault Refusal :=
  .next (s.live fun s => (s.moveTo t).goWadi rings)

/-- A rate change that did not reach lock in time falls back to wadi mode (R295). -/
def State.fallBack (s : State) (r : Nat) : State :=
  (s.setRing r { s.ring r with wadiAt := s.tm.e, wadiTx := s.tm.e }).setRingLink r 2

/-- RATE_CHANGE_TIMEOUT (R295): lock not reached by 300 µs. -/
def execRateChangeTimeout (ring : Fin 16) (t : Nat) (s : State) : Host.Outcome State Fault Refusal :=
  .next <| s.live fun s =>
    let s := s.moveTo t
    let r := ring.val
    if s.ringState r = 3 ∧ (s.ring r).wkAt + 300000 ≤ s.tm.e then s.fallBack r else s

/-- AUTO_FULL_RATE (R296): every enabled cell of the ring LINKED, or 10 s in WADI, at B3. -/
def execAutoFullRate (ring : Fin 16) (t : Nat) (s : State) : Host.Outcome State Fault Refusal :=
  .next <| s.live fun s =>
    let s := s.moveTo t
    let r := ring.val
    let all := (s.plant.filter (fun c => ringOf c == r)).all (fun c => s.lstate c == 5)
    if s.stage = 3 ∧ !s.bit PWR_STATUS.SLEEP ∧ s.ringState r = 2 ∧
        (all ∨ (s.ring r).wadiAt + 10000000000 ≤ s.tm.e) then s.startShift r
    else s

/-- CODE_GROUP_LOCK (R295, R301): TRAINING becomes WADI, SHIFT becomes FULL when the lock is in by 300 µs. Delays measured at
wadi rate are dropped (R294); the cells take no command until their new ones are in (R295). -/
def execCodeGroupLock (ring : Fin 16) (t : Nat) (s : State) : Host.Outcome State Fault Refusal :=
  .next <| s.live fun s =>
    let s := s.moveTo t
    let r := ring.val
    if !s.ringOn r then s
    else if s.ringState r = 1 then
      (s.setRing r { s.ring r with wadiAt := s.tm.e, wadiTx := s.tm.e }).setRingLink r 2
    else if s.ringState r = 3 then
      if (s.ring r).wkAt + 300000 < s.tm.e then s.fallBack r
      else
        let s := (s.setRing r { s.ring r with fullAt := s.tm.e }).setRingLink r 4
        s.mapCells (fun c x => if ringOf c = r then
          { x with link := { x.link with delayA := [], delayB := [], shift := true } } else x)
    else s

/-- A write of LINK_RING_EN (R261, R298): refused while a cell of a ring that it changes is unblocked. A ring enabled
starts in TRAINING with both loops DOWN and NODES 0 (R266, R282). Rings the part lacks are left out (R4). -/
def State.writeRingEn (s : State) (v : Nat) : State :=
  let m := v % 2 ^ s.ringCount
  let old := s.rd LINK_RING_EN.EN
  let changed := (List.range 16).filter (fun r => bitOf m r != bitOf old r)
  if changed.all (fun r => s.ringBlocked r) then
    changed.foldl (fun s r =>
      let s := s.setRing r { RingSt.init with wadiAt := s.tm.e, wadiTx := s.tm.e }
      let s := ((s.wri LINK_RING_STATUS_r.PRI r 2).wri LINK_RING_STATUS_r.SEC r 2).wri LINK_RING_STATUS_r.NODES r 0
      s.setRingLink r (if bitOf m r then 1 else 0)) (s.wr LINK_RING_EN.EN m)
  else s.refuse LINK_RING_STATUS_r.CFG_ERR

/-- LINK_RING_EN_WRITE (R261). -/
def execLinkRingEnWrite (value : Nat) (t : Nat) (s : State) : Host.Outcome State Fault Refusal :=
  .next (s.live fun s => (s.moveTo t).writeRingEn value)

/-- A write of LINK_CFG (R40, R297, R301). -/
def State.writeLinkCfg (s : State) (v : Nat) : State :=
  let low := bits v 24 5 ≤ s.rd CLK_TICK_CFG.OVERRUN_LIMIT
  let s := if low then s.refuse CLK_TICK_STATUS.CFG_ERR else s
  if low ∨ !inRange LINK_CFG.STARVE_TICKS.base v then s.refuse LINK_RING_STATUS_r.CFG_ERR
  else s.putRw LINK_CFG.STARVE_TICKS.base v

/-- LINK_CFG_WRITE (R40, R297). -/
def execLinkCfgWrite (value : Nat) (s : State) : Host.Outcome State Fault Refusal :=
  .next (s.live fun s => s.writeLinkCfg value)

/-! ### Wadi frames (R294) -/

/-- A slot with SPILL = 1 and state 0 (R311). -/
def State.slotSpill (s : State) (c : Nat) : Bool :=
  [1, 2, 7, 8, 9].contains (s.sstate c) || (s.sstate c == 3 && s.rdi JOIN_CELL_STATUS_n.PRE_MODE c == 0)

/-- A slot carries a command: of every cell but those in NONE (R311), once a ring that has come to full rate has its
delays (R295; log entry 36). -/
def State.slotValid (s : State) (c : Nat) : Bool :=
  s.enabled c && s.sstate c != 0 && !(s.cell c).link.shift

/-- A current as a slot carries it, in 0.1 A (R268). -/
def slotAmps (site : Nat) (x : Rat) : Int := showR site (-32768) 32767 (10 * x)

/-- The port fields of a slot for the tick `exec` (R226, R268). -/
def State.slotPort (s : State) (exec : Int) (c : Nat) (x : Cmd) : Cmd :=
  let role := s.role c
  let p := (s.cell c).port
  { x with
    portA := if role = 1 then slotAmps 92 p.iSet else if role = 2 then s.vCmd c exec else 0
    portB := if role = 1 then slotAmps 93 p.iLo else 0
    portC := if role = 1 then slotAmps 94 p.iHi else 0 }

/-- The slot of a cell in a wadi frame (R294): the cell is blocked; SPILL = 1 with state 0 for a cell in the link part of a
join or out (R311), the port quantities (R226) and the next AUX word (R271), in sleep of a linked cell alone (R332). -/
def State.wadiSlot (s : State) (exec : Int) (c : Nat) : State × Cmd :=
  let st := s.sstate c
  let (a, w, k, q) := if s.asleep ∧ s.lstate c ≠ 5 then
      ((s.cell c).link.aux, 0, 0, (s.cell c).link.aux.rxSeq % 16384)
    else (s.cell c).link.aux.word
  let s := s.updCell c (fun x => { x with link := { x.link with aux := a } })
  (s, if st = 0 ∨ !s.enabled c then Cmd.none
    else s.slotPort exec c { Cmd.none with
      valid := true, spill := s.slotSpill c,
      delayP := meanI (s.cell c).link.delayA, delayS := meanI (s.cell c).link.delayB, auxWord := w, auxKind := k, auxSeq := q })

/-- The slots of a ring's wadi frame. -/
def State.wadiSlots (s : State) (exec : Int) (r : Nat) : List Nat → State × List Cmd
  | [] => (s, [])
  | q :: t =>
    let (s, c) := s.wadiSlot exec (r * 15 + q)
    let (s, l) := s.wadiSlots exec r t
    (s, c :: l)

/-- CELL_BLOCK of a ring's header (R266). -/
def State.cellBlockMask (s : State) (r : Nat) : Nat :=
  ((List.range 15).filter (fun q => (s.cell (r * 15 + q)).svc.cellBlk)).foldl (fun m q => m + 2 ^ q) 0

/-- BLOCK_SCOPE of a header (R266). -/
def State.blockScope (s : State) : Nat := if s.blockedPhases = 0 then 0 else bkValue s.blockedPhases

/-- A loop whose own frames came back in this frame interval only as copies of the other loop is WRAPPED (R282). A folded
copy beside an unwrapped return leaves the loop as it is (R281). -/
def State.wrapLoop (s : State) (r l : Nat) : State :=
  let x := s.ring r
  if x.gotAny.getD l false ∧ !x.gotClean.getD l false then s.setLoop r l 1 else s

/-- The frame interval of a ring ends without a good copy on a loop, or with one (R282). -/
def State.countReturns (s : State) (r : Nat) : State :=
  let s := (s.wrapLoop r 0).wrapLoop r 1
  let x := s.ring r
  let bad := (List.range 2).map (fun l => if x.gotAny.getD l false then 0 else x.bad.getD l 0 + 1)
  let good := (List.range 2).map (fun l => if x.gotClean.getD l false then x.good.getD l 0 + 1 else 0)
  s.setRing r { x with bad := bad, good := good, gotAny := [false, false], gotClean := [false, false] }

/-- A joined cell's telemetry of a frame interval: missing is counted, and the rank of the next one starts anew. With no
report in the interval CMD_LOST and LATE read 0 (R305). During sleep the ticks of a link state stand (R332). -/
def State.countMissing (s : State) (c : Nat) : State :=
  let l := s.lstate c
  let none := (s.cell c).link.rank == 3
  let run := !s.asleep
  let s := if none then (s.wri LINK_CELL_STATUS_n.CMD_LOST c 0).wri LINK_CELL_STATUS_n.LATE c 0 else s
  s.updCell c (fun x =>
    let joined := decide (2 ≤ l) && decide (l ≤ 5)
    { x with link := { x.link with
      rank := 3
      fresh := !none
      ticks := if run then x.link.ticks + 1 else x.link.ticks
      missing := if !none then 0 else if joined then x.link.missing + 1 else 0
      shift := x.link.shift && joined && decide (x.link.delayA.length < 64)
      aux := x.link.aux.tick } })

/-! ### Frames that leave (R264, R266) -/

/-- The number that the next tick takes: at a period change the one of the new period (R26, R266). -/
def State.nextTick (s : State) : Int :=
  let sn : Int := (s.tickNow + 1) * (s.period : Int)
  match s.tm.newHalf with
  | some h => if sn % ((h * 500 : Nat) : Int) = 0 then sn / ((h * 500 : Nat) : Int) else s.tickNow + 1
  | none => s.tickNow + 1

/-- The header of a frame of a ring, but for its kind and its grant (R266): ELAPSED is E at the start of the next tick. -/
def State.header (s : State) (r : Nat) : FrameHdr where
  execTick := s.nextTick
  elapsed := s.tm.e + ((s.tickNow + 1) * (s.period : Int) - s.stime).toNat
  period := s.period
  launchOfs := s.rdi CLK_TICK_DEADLINE_n.DEADLINE 3 * 10
  kind := .normal
  ring := r
  compact := decide (s.tm.half < 16)
  nodes := s.rdi LINK_RING_STATUS_r.NODES r
  scope := s.blockScope
  grant := none
  starve := s.rd LINK_CFG.STARVE_TICKS
  cellBlock := s.cellBlockMask r

/-- A frame leaves on both loops of its ring (R264). -/
def State.sendFrame (s : State) (h : FrameHdr) (slots : List Cmd) : State :=
  (s.emit (.link h.ring 0 (frameCodes h.ty (framePayload h 0 slots)))).emit
    (.link h.ring 1 (frameCodes h.ty (framePayload h 1 slots)))

end Sys2Proof.Machine
end

