-- ==== Sys2Proof/Machine/Safety.lean ====
section
/-! DEFINITION. Safety inputs, safe messages, the parameter check value and the CRC unit (12_safety.md). -/
namespace Sys2Proof.Machine
open Reg

/-! ### Safety inputs (R423 to R431) -/

/-- The record of a safety input. -/
def State.sin (s : State) (n : Nat) : SafeIn := s.saf.inputs.getD n SafeIn.init

/-- Replace the record of a safety input. -/
def State.setSin (s : State) (n : Nat) (x : SafeIn) : State :=
  { s with saf := { s.saf with inputs := s.saf.inputs.set n x } }

/-- Whether an input counts as demanding: a channel shows demand (R424), a discrepancy has not been cleared by a clean
demand and release (R425), or TP_ERR is set (R426). A TYPE 0 input is ignored (R427). -/
def State.inputDemand (s : State) (n : Nat) : Bool :=
  let x := s.sin n
  s.rdi SAFE_IN_CFG_n.TYPE n != 0 && (x.a || x.b || x.discDemand || bitOf (s.rd SAFE_STATUS.TP_ERR) n)

/-- Show the demand of an input in SAFE_STATUS.DEMAND (R453). -/
def State.showDemand (s : State) (n : Nat) : State :=
  s.wr SAFE_STATUS.DEMAND (if s.inputDemand n then setBit (s.rd SAFE_STATUS.DEMAND) n else clrBit (s.rd SAFE_STATUS.DEMAND) n)

/-- The converter is released: no scope in force. -/
def State.released (s : State) : Bool := s.rd SLC_BLOCK_STATUS.SCOPE == 0

/-- What a demand of an input does (R427, R428, R429): types 1 to 3 enter the safe state and turn off the local drives
their route names; a type-4 input that shows the breaker open while the converter is released and the breaker outputs
are deasserted does the same. -/
def State.demandAct (s : State) (n : Nat) : State :=
  let ty := s.rdi SAFE_IN_CFG_n.TYPE n
  let s := s.showDemand n
  if 1 ≤ ty ∧ ty ≤ 3 then
    let s := if s.bit PWR_STATUS.SLEEP then s.wake 2 else s
    let s := { s with saf := { s.saf with knownIn := true } }
    (s.safeState SLC_TRIP_LATCH.SAFETY_IN).driveOff (s.bit SLC_SRC_ROUTE.SAFE_DRV0) (s.bit SLC_SRC_ROUTE.SAFE_DRV1)
  else if ty = 4 ∧ s.released ∧ s.rd SLC_BLOCK_STATUS.BRK = 0 then s.safeState SLC_TRIP_LATCH.SAFETY_IN
  else s

/-- A type-4 input shows the breaker open while the converter is released and the breaker outputs are deasserted: the safe
state (R428). -/
def State.breakerWatch (s : State) : State :=
  let open_ := (List.range 8).any (fun n => s.rdi SAFE_IN_CFG_n.TYPE n == 4 && ((s.sin n).a || (s.sin n).b))
  if open_ ∧ s.released ∧ s.rd SLC_BLOCK_STATUS.BRK = 0 then s.safeState SLC_TRIP_LATCH.SAFETY_IN else s

/-- DISC of an input in ns (R447). -/
def State.discNs (s : State) (n : Nat) : Nat := s.rdi SAFE_IN_CFG_n.DISC n * 10000000

/-- The level at which a channel shows demand (R423): low, but high on channel B of an antivalent input. -/
def State.demandLevel (s : State) (n : Nat) (chB : Bool) : Bool := chB && s.biti SAFE_IN_CFG_n.ANTI n

/-- A channel is tested by the pulses of its own output: B of an antivalent input is not (R426). -/
def State.pulsed (s : State) (n : Nat) (chB : Bool) : Bool :=
  s.biti SAFE_IN_CFG_n.TP_EN n && !(chB && s.biti SAFE_IN_CFG_n.ANTI n)

/-- The ns from `since` to now in which a channel's samples count for its filter: none of a pulse of its own output, nor of
the 20 µs after it (R426). -/
def State.counted (s : State) (n : Nat) (chB : Bool) (since : Nat) : Nat :=
  let l := if s.pulsed n chB then (if chB then s.saf.tpB else s.saf.tpA) else []
  (s.tm.e - since) - (l.map (fun p => min s.tm.e (p + 70000) - max p since)).foldl (· + ·) 0

/-- The filter of a channel has seen the level `level`, held without a break since `since`, for FILT, and it is the demand
level or the rest level as `demand` says (R423, R424). -/
def State.filterDecides (s : State) (n : Nat) (chB level : Bool) (since : Nat) (demand : Bool) : Bool :=
  (level == s.demandLevel n chB) == demand && decide (s.rdi SAFE_IN_CFG_n.FILT n * 100000 ≤ s.counted n chB since)

/-- A filtered channel comes to demand (R424, R425, R430); one that shows demand already comes to nothing new. -/
def State.channelDemand (s : State) (n : Nat) (chB : Bool) : State :=
  let x := s.sin n
  if (if chB then x.b else x.a) then s
  else
  let x := if chB then { x with b := true, bAt := s.tm.e } else { x with a := true, aAt := s.tm.e }
  let other := if chB then x.aAt else x.bAt
  let x :=
    if x.a && x.b then
      let near := decide (s.tm.e ≤ other + s.discNs n)
      if near && x.proof == 0 then { x with pair := near, proof := 1, bothAt := s.tm.e, disc := false }
      else { x with pair := near, disc := false }
    else x
  (s.setSin n x).demandAct n

/-- SAFETY_INPUT_DEMAND (R423, R424, R427, R430): a channel of an input has held a raw level since an instant; its
filter decides a demand. -/
def execSafetyInputDemand (n : Fin 8) (x : ChannelLevel) (t : Nat) (s : State) : Host.Outcome State Fault Refusal :=
  .next <| s.live fun s =>
    let s := s.moveTo t
    if s.filterDecides n.val x.chB x.level x.since true then s.channelDemand n.val x.chB else s

/-- Every type-2 input has run the proof sequence (R430). -/
def State.proofAll (s : State) : Bool :=
  (List.range 8).all (fun n => s.rdi SAFE_IN_CFG_n.TYPE n != 2 || (s.sin n).proof == 3)

/-- A filtered channel returns to rest (R424, R425, R430). Both channels back within DISC of each other end a clean
sequence: the input's proof is run if both held demand for 100 ms, and a discrepancy no longer counts as demand. A channel
that is at rest already changes nothing. -/
def State.channelRest (s : State) (n : Nat) (chB : Bool) : State :=
  let x := s.sin n
  if !(if chB then x.b else x.a) then s
  else
  let first := x.a && x.b
  let heldBoth := x.proof == 1 && decide (x.bothAt + 100000000 ≤ s.tm.e)
  let x := if chB then { x with b := false, bAt := s.tm.e } else { x with a := false, aAt := s.tm.e }
  let x :=
    if first then { x with proof := if heldBoth then 2 else if x.proof = 3 then 3 else 0 }
    else x
  let other := if chB then x.aAt else x.bAt
  let rest := !first && !x.a && !x.b
  let clean := rest && decide (s.tm.e ≤ other + s.discNs n)
  let x := if clean && x.proof == 2 then { x with proof := 3 } else x
  let x := if clean && x.pair then { x with discDemand := false } else x
  let x := if rest then { x with pair := false, disc := false } else x
  let s := (s.setSin n x).showDemand n
  let two := (List.range 8).any (fun m => s.rdi SAFE_IN_CFG_n.TYPE m == 2)
  if clean && s.rdi SAFE_IN_CFG_n.TYPE n == 2 && two && s.proofAll then s.wr SAFE_STATUS.PROOF 1 else s

/-- SAFETY_INPUT_RELEASE (R423, R424, R425, R430): a channel of an input has held a raw level since an instant;
its filter decides the return to rest. -/
def execSafetyInputRelease (n : Fin 8) (x : ChannelLevel) (t : Nat) (s : State) : Host.Outcome State Fault Refusal :=
  .next <| s.live fun s =>
    let s := s.moveTo t
    if s.filterDecides n.val x.chB x.level x.since false then s.channelRest n.val x.chB else s

/-- The proof test has failed: every type-2 input runs its sequence anew (R430). -/
def State.proofFails (s : State) : State :=
  let l := s.saf.inputs.map (fun (x : SafeIn) => { x with proof := 0 })
  { s with saf := { s.saf with inputs := l } }.wr SAFE_STATUS.PROOF 2

/-- DISCREPANCY (R425, R430): one channel has shown demand and the other not for longer than DISC. -/
def execDiscrepancy (n : Fin 8) (t : Nat) (s : State) : Host.Outcome State Fault Refusal :=
  .next <| s.live fun s =>
    let s := s.moveTo t
    let x := s.sin n.val
    let since := max x.aAt x.bAt
    if x.a = x.b ∨ s.rdi SAFE_IN_CFG_n.TYPE n.val = 0 ∨ s.tm.e ≤ since + s.discNs n.val ∨ x.disc then s
    else
      let proof := if x.proof = 3 then 3 else 0
      let s := s.setSin n.val { x with disc := true, discDemand := true, pair := false, bothAt := 0, proof := proof }
      let s := s.wr SAFE_STATUS.DISC (setBit (s.rd SAFE_STATUS.DISC) n.val)
      let s := if s.rdi SAFE_IN_CFG_n.TYPE n.val = 2 ∧ s.rd SAFE_STATUS.PROOF ≠ 1 then s.proofFails else s
      (s.showDemand n.val).post 0x43 [(24, 1, n.val), (25, 1, 0)]

/-- A channel's answer to a pulse of its output: two consecutive misses set TP_ERR and count as demand (R426). -/
def State.pulseAnswer (s : State) (chB : Bool) (low n : Nat) : State :=
  if !s.pulsed n chB ∨ s.rdi SAFE_IN_CFG_n.TYPE n = 0 then s
  else
    let x := s.sin n
    let miss := if bitOf low n then 0 else (if chB then x.missB else x.missA) + 1
    let s := s.setSin n (if chB then { x with missB := miss } else { x with missA := miss })
    if miss = 2 ∧ !bitOf (s.rd SAFE_STATUS.TP_ERR) n then
      let s := s.wr SAFE_STATUS.TP_ERR (setBit (s.rd SAFE_STATUS.TP_ERR) n)
      (s.demandAct n).post 0x43 [(24, 1, n), (25, 1, 1)]
    else s

/-- A pulse of the output is due: every 10 ms, and SAFE_TPB 5 ms after SAFE_TPA (R426). -/
def State.pulseDue (s : State) (chB : Bool) : Bool :=
  let after (l : List Nat) (d : Nat) : Bool := match l with
    | p :: _ => decide (p + d ≤ s.tm.e)
    | [] => true
  if chB then s.saf.tpA != [] && after s.saf.tpA 5000000 && after s.saf.tpB 10000000 else after s.saf.tpA 10000000

/-- TEST_PULSE (R426): the output of channel A or B is pulsed low for 50 µs; `low` bit n says that input n's channel read
low. -/
def execTestPulse (chB : Bool) (low : Nat) (t : Nat) (s : State) : Host.Outcome State Fault Refusal :=
  .next <| s.live fun s =>
    let s := s.moveTo t
    if !s.pulseDue chB then s
    else
      let s := { s with saf := if chB then { s.saf with tpB := (s.tm.e :: s.saf.tpB).take 3 }
                                else { s.saf with tpA := (s.tm.e :: s.saf.tpA).take 3 } }
      (List.range 8).foldl (fun s n => s.pulseAnswer chB low n) (s.emit (.safePulse chB))

/-- SAFE_IN_CFG_n has taken a new word (R423, R424, R441): the level of channel B shows the other demand when ANTI changed, and
an input in use that shows demand acts. -/
def State.inputSet (s : State) (n : Nat) (antiWas : Bool) : State :=
  let x := s.sin n
  let s := if s.biti SAFE_IN_CFG_n.ANTI n = antiWas then s else s.setSin n { x with b := !x.b, bAt := s.tm.e }
  if s.inputDemand n then s.demandAct n else s.showDemand n

/-- BRK_FEEDBACK_TIMEOUT (R428): a type-4 input not showing open within DISC after the trip. -/
def execBrkFeedbackTimeout (n : Fin 8) (t : Nat) (s : State) : Host.Outcome State Fault Refusal :=
  .next <| s.live fun s =>
    let s := s.moveTo t
    let x := s.sin n.val
    if s.rdi SAFE_IN_CFG_n.TYPE n.val = 4 ∧ s.rd SLC_BLOCK_STATUS.BRK = 1 ∧ !(x.a || x.b) ∧
        s.slc.brkAt + s.discNs n.val ≤ s.tm.e ∧ s.rd SAFE_STATUS.BRK_FB_ERR = 0 then
      (s.wr SAFE_STATUS.BRK_FB_ERR 1).post 0x43 [(24, 1, n.val), (25, 1, 2)]
    else s

/-- A write of SAFE_STATUS (R453): DISC bits are refused while their discrepancy persists. -/
def State.clearSafeStatus (s : State) (v : Nat) : State :=
  let s := if bitOf v 26 then s.wr SAFE_STATUS.BRK_FB_ERR 0 else s
  let tp := bits v 8 8
  let s := s.wr SAFE_STATUS.TP_ERR (s.rd SAFE_STATUS.TP_ERR - (s.rd SAFE_STATUS.TP_ERR &&& tp))
  let s := (List.range 8).foldl (fun s n => if bitOf tp n then
      (s.setSin n { s.sin n with missA := 0, missB := 0 }).showDemand n else s) s
  (List.range 8).foldl (fun s n =>
    if !bitOf v (16 + n) ∨ !bitOf (s.rd SAFE_STATUS.DISC) n then s
    else if (s.sin n).a != (s.sin n).b then s.refuse SAFE_NET_STATUS.CFG_ERR
    else s.wr SAFE_STATUS.DISC (clrBit (s.rd SAFE_STATUS.DISC) n)) s

/-! ### Safe messages (R432 to R436) -/

/-- The stop of the safe-message engine: safe state, NET_STOP latched. -/
def State.netStop (s : State) : State :=
  ({ s with saf := { s.saf with knownNet := true } }).safeState SLC_TRIP_LATCH.NET_STOP

/-- CV_DIFF: the last accepted message carries a PARAM_CV other than 0 and SAFE_CV (R436). -/
def State.showCvDiff (s : State) : State :=
  let diff : Bool := match s.saf.accepted with
    | some m => m.paramCv != 0 && m.paramCv != s.rd SAFE_CV.CV
    | none => false
  s.wr SAFE_NET_STATUS.CV_DIFF (b2n diff)

/-- EN comes to 1: the watchdog counts from here (R436, R704). -/
def State.netEnable (s : State) : State := { s with saf := { s.saf with acceptedAt := s.tm.e, expired := false } }

/-- The triad's own path of a stop (R438): the first S1 in which it is known blocks the covered cells and asserts the breaker
outputs, whatever the hardware path has done. -/
def State.triadBlock (s : State) (f : Fld) : State :=
  if s.rd SLC_BLOCK_STATUS.SCOPE ≠ 3 then s.safeState f
  else if s.rd SLC_BLOCK_STATUS.BRK = 0 then
    { (s.wr SLC_BLOCK_STATUS.BRK 1).showBrk with slc := { s.slc with brkAt := s.tm.e } }
  else s

/-- The stops that have become known since the last S1 act on the triad path (R438). -/
def State.triadStop (s : State) : State :=
  let s := if s.saf.knownIn then s.triadBlock SLC_TRIP_LATCH.SAFETY_IN else s
  let s := if s.saf.knownNet then s.triadBlock SLC_TRIP_LATCH.NET_STOP else s
  { s with saf := { s.saf with knownIn := false, knownNet := false } }

/-- A network's state changes, with its SAFE_NET record (R435). -/
def State.setNet (s : State) (net : Nat) (up : Bool) : State :=
  let f := if net = 0 then SAFE_NET_STATUS.UP_A else SAFE_NET_STATUS.UP_B
  if s.bit f = up then s
  else (s.wr f (b2n up)).post 0x44 [(24, 1, net), (25, 1, b2n up), (26, 1, s.rd SAFE_NET_STATUS.CMP_ERR)]

/-- A copy of a network is missing: counted, DOWN after three in a row (R435). -/
def State.netMiss (s : State) (net : Nat) : State :=
  let s := s.inc (if net = 0 then SAFE_NET_STATUS.MISS_A else SAFE_NET_STATUS.MISS_B) 1
  let m := s.saf.missRun.getD net 0 + 1
  let s := { s with saf := { s.saf with missRun := s.saf.missRun.set net m, goodRun := s.saf.goodRun.set net 0 } }
  if m = 3 then s.setNet net false else s

/-- A copy of a network is valid: UP after three in a row (R435). -/
def State.netGood (s : State) (net : Nat) : State :=
  let g := s.saf.goodRun.getD net 0 + 1
  let s := { s with saf := { s.saf with goodRun := s.saf.goodRun.set net g, missRun := s.saf.missRun.set net 0 } }
  if g = 3 then s.setNet net true else s

/-- A copy of a network fails a test: counted in BAD and discarded, and its run of valid copies ends (R435). -/
def State.netBad (s : State) (net : Nat) : State :=
  let s := s.inc SAFE_NET_STATUS.BAD 1
  { s with saf := { s.saf with goodRun := s.saf.goodRun.set net 0 } }

/-- A message is accepted (R434 to R436): the watchdog restarts, the connection is up after three in a row, RESET clears
NET_STOP as a host clear would, a differing PARAM_CV is shown. Its setpoints pass to R177 at the next S1. `seen` are the
networks that have brought it. -/
def State.acceptPdu (s : State) (m : Pdu) (seen : Nat) : State :=
  let run := s.saf.accRun + 1
  let s := { s with saf := { s.saf with
      accepted := some m, acceptedAt := s.tm.e, accRun := run, lastSeq := m.seqNo, anySeq := false, first := none,
      expired := false, seen := seen } }
  let s := if 3 ≤ run then s.wr SAFE_NET_STATUS.CONN_UP 1 else s
  let stop := bitOf m.flags 0
  let s := s.wr SAFE_NET_STATUS.STOP_RX (b2n stop)
  let s := s.showCvDiff
  let s := { s with sp := { s.sp with safe := some m } }
  if bitOf m.flags 1 then s.clearLatch (2 ^ SLC_TRIP_LATCH.NET_STOP.lo) else s

/-- A copy passes the tests of R435 but for the sequence. -/
def State.pduFits (s : State) (m : Pdu) : Bool :=
  m.protoId == 0x4C53 && m.version == 1 && m.ty == 1 && m.connId == s.rd SAFE_CONN.CONN_ID && pduCrcGood m

/-- A valid first copy stops on arrival with STOP (R435). -/
def State.stopOn (s : State) (m : Pdu) : State := if bitOf m.flags 0 then s.netStop else s

/-- Two copies of one SEQ differ: CMP_ERR and the stop (R435). -/
def State.copiesDiffer (s : State) : State := (s.wr SAFE_NET_STATUS.CMP_ERR 1).netStop

/-- The second copy of a message whose first copy is `m0` (R435). -/
def State.secondCopy (s : State) (net : Nat) (m m0 : Pdu) : State :=
  let s := s.netGood net
  if m = m0 then (s.stopOn m).acceptPdu m 3
  else
    let s := s.copiesDiffer
    { s with saf := { s.saf with first := none } }

/-- The late second copy of the message accepted alone (R435). -/
def State.lateCopy (s : State) (net : Nat) (m : Pdu) : State :=
  let s := s.netGood net
  let s := { s with saf := { s.saf with seen := setBit s.saf.seen net } }
  if s.saf.accepted = some m then s else s.copiesDiffer

/-- The first copy of a message (R435). -/
def State.firstCopy (s : State) (net : Nat) (m : Pdu) : State :=
  let s := (s.netGood net).stopOn m
  { s with saf := { s.saf with first := some (net, s.tm.e, m) } }

/-- A copy arrives on network A (0) or B (1) (R435): the first of a message, its second copy, late or not, or none of
these. -/
def State.pduIn (s : State) (net : Nat) (m : Pdu) : State :=
  if !s.pduFits m then s.netBad net
  else
    match s.saf.first with
    | some x => if x.1 ≠ net ∧ m.seqNo = x.2.2.seqNo then s.secondCopy net m x.2.2 else s.netBad net
    | none =>
      if m.seqNo = s.saf.lastSeq ∧ !s.saf.anySeq ∧ !bitOf s.saf.seen net then s.lateCopy net m
      else if m.seqNo = (s.saf.lastSeq + 1) % 2 ^ 32 ∨ s.saf.anySeq then s.firstCopy net m
      else s.netBad net

/-- The device's own address, as frames carry it: byte 0 lowest (R450). -/
def State.macDev (s : State) : Nat := s.rd SAFE_MAC_DEV_LO.ADDR_LO + s.rd SAFE_MAC_DEV_HI.ADDR_HI * 2 ^ 32
/-- The controller's address, likewise. -/
def State.macCtl (s : State) : Nat := s.rd SAFE_MAC_CTL_LO.ADDR_LO + s.rd SAFE_MAC_CTL_HI.ADDR_HI * 2 ^ 32

/-- SAFE_MESSAGE_RX (R432, R435): a frame arrives on network A (0) or B (1). One with another EtherType, a wrong destination
or a bad FCS is dropped without effect. -/
def execSafeMessageRx (net : Fin 2) (m : EthFrame) (t : Nat) (s : State) : Host.Outcome State Fault Refusal :=
  .next <| s.live fun s =>
    let s := s.moveTo t
    if s.bit SAFE_NET_CFG.EN && m.dst == s.macDev && m.etherType == 0x88B5 && m.fcs == ethFcs m then s.pduIn net.val m.pdu
    else s

/-- COPY_SKEW_TIMEOUT (R435): the other copy is not in within SKEW: it is counted missing, and the one copy is accepted
alone with the other network DOWN and DEGRADE, or discarded. -/
def execCopySkewTimeout (t : Nat) (s : State) : Host.Outcome State Fault Refusal :=
  .next <| s.live fun s =>
    let s := s.moveTo t
    match s.saf.first with
    | none => s
    | some (n0, t0, m) =>
      if s.tm.e < t0 + s.rd SAFE_NET_CFG.SKEW * 100000 then s
      else
        let other := 1 - n0
        let s := s.netMiss other
        let up := if other = 0 then s.bit SAFE_NET_STATUS.UP_A else s.bit SAFE_NET_STATUS.UP_B
        let s := { s with saf := { s.saf with first := none } }
        if !up ∧ s.bit SAFE_NET_CFG.DEGRADE then s.acceptPdu m (2 ^ n0) else s

/-- SAFE_WDOG_EXPIRY (R436): no message accepted for WDOG. -/
def execSafeWdogExpiry (t : Nat) (s : State) : Host.Outcome State Fault Refusal :=
  .next <| s.live fun s =>
    let s := s.moveTo t
    if s.bit SAFE_NET_CFG.EN ∧ s.saf.acceptedAt + s.rd SAFE_NET_CFG.WDOG * 1000000 ≤ s.tm.e ∧ !s.saf.expired then
      let s := { s with saf := { s.saf with expired := true, accRun := 0, anySeq := true, first := none } }
      (s.wr SAFE_NET_STATUS.CONN_UP 0).netStop
    else s

/-- The device's message (R433, R434): a sequence and flags, what applies as P and Q, SAFE_CV, the last SEQ accepted; the
other fields are 0. -/
def State.safePdu (s : State) (q flags : Nat) : Pdu :=
  ⟨0x4C53, 1, 0x81, s.rd SAFE_CONN.CONN_ID, q, flags, 0, s.rds SYNC_SP_APPLIED.P, s.rds SYNC_SP_APPLIED.Q, 0, 0, 0, 0,
    s.rd SAFE_CV.CV, s.saf.lastSeq, 0, 0⟩

/-- SAFE_MESSAGE_TX (R432, R434): the device's status message, from its own address to the controller's, on both networks
every PERIOD. -/
def execSafeMessageTx (t : Nat) (s : State) : Host.Outcome State Fault Refusal :=
  .next <| s.live fun s =>
    let s := s.moveTo t
    if s.bit SAFE_NET_CFG.EN ∧ s.saf.txAt + s.rd SAFE_NET_CFG.PERIOD * 1000000 ≤ s.tm.e then
      let flags := b2n (s.rd SLC_BLOCK_STATUS.SCOPE == 3) + 2 * b2n s.released + 4 * b2n (s.rd SAFE_STATUS.PROOF == 1) +
        8 * s.rd SAFE_STATUS.CONFIRMED + 16 * b2n (s.rd SAFE_STATUS.DISC != 0 || s.rd SAFE_STATUS.TP_ERR != 0) +
        32 * (1 - s.rd SAFE_NET_STATUS.UP_A) + 64 * (1 - s.rd SAFE_NET_STATUS.UP_B)
      let q := (s.saf.txSeq + 1) % 2 ^ 32
      let m := s.safePdu q flags
      let l := ethBytes ⟨s.macCtl, s.macDev, 0x88B5, { m with crc := crc32c (pduBody m) }, 0⟩
      (({ s with saf := { s.saf with txSeq := q, txAt := s.tm.e } } : State).emit (.safeMessage 0 l)).emit (.safeMessage 1 l)
    else s

/-! ### The parameter check value (R439 to R442) -/

/-- The registers of the safety parameter set in ascending offset: the RWS registers of the SLC_ and SAFE_ blocks but
SAFE_CONFIRM (R439, R702). -/
def safetySet : List Nat :=
  (List.range 21).map (fun i => 0x200000 + 4 * i) ++ (List.range 8).map (fun i => 0x210000 + 4 * i) ++
    (List.range 6).map (fun i => 0x220000 + 4 * i)

/-- SAFE_CV's value over the set as it stands (R439). -/
def State.safeCv (s : State) : Nat := crc32c (safetySet.flatMap (fun o => leBytes 4 o ++ leBytes 4 (s.word o)))

/-- A write to the set was accepted (R439, R440): the recomputation runs and CONFIRMED is cleared. -/
def State.safetyWritten (s : State) : State :=
  (({ s with saf := { s.saf with cvAt := s.tm.e } } |>.wr SAFE_STATUS.CV_BUSY 1).wr SAFE_STATUS.CONFIRMED 0).showSil

/-- SAFE_CV_DONE (R439). -/
def execSafeCvDone (s : State) : Host.Outcome State Fault Refusal :=
  .next <| s.live fun s =>
    if s.bit SAFE_STATUS.CV_BUSY then ((s.wr SAFE_CV.CV s.safeCv).wr SAFE_STATUS.CV_BUSY 0).showSil.showCvDiff else s

/-- The RWS registers and their values, as a commissioning block stores them (R639, R702). -/
def State.rwsValues (s : State) : List (Nat × Nat) :=
  regBlocks.flatten.flatMap (fun r =>
    if r.fields.any (fun x => x.acc == .rws) then
      (List.range r.count).map (fun i => (r.base + 4 * i, s.word (r.base + 4 * i)))
    else [])

/-- The commissioning block is written, with GEN + 1, over the one with the lower GEN (R639). -/
def State.writeCommBlock (s : State) (lc : Nat) : State :=
  let fl := s.pwr.flash
  let gen := max fl.blockA.gen fl.blockB.gen + 1
  let b : CommBlock := ⟨gen, lc, s.rd SAFE_CONFIRM.SAFETY_CONFIRM, s.rwsValues, true⟩
  let fl := if fl.blockA.gen ≤ fl.blockB.gen then { fl with blockA := b } else { fl with blockB := b }
  { s with pwr := { s.pwr with flash := fl } }

/-- A write of SAFE_CONFIRM in COMMISSIONING (R440): equal to SAFE_CV while CV_BUSY is 0 it confirms and the
commissioning block is written; any other is refused. Outside COMMISSIONING it is an RWS write (R15). -/
def State.writeConfirm (s : State) (v : Nat) (ag : Agent) : State :=
  if !s.commissioning then
    if v = s.rd SAFE_CONFIRM.SAFETY_CONFIRM then s
    else (s.refuse SAFE_NET_STATUS.CFG_ERR).configRefused SAFE_CONFIRM.SAFETY_CONFIRM.base v ag
  else if v = s.rd SAFE_CV.CV ∧ s.rd SAFE_STATUS.CV_BUSY = 0 then
    ((((s.wr SAFE_CONFIRM.SAFETY_CONFIRM v).wr SAFE_STATUS.CONFIRMED 1).wr SAFE_STATUS.CV_ERR 0).writeCommBlock 2).showSil
  else s.refuse SAFE_NET_STATUS.CFG_ERR

/-- SAFE_CONFIRM_WRITE (R440). -/
def execSafeConfirmWrite (value : Nat) (ag : Agent) (s : State) : Host.Outcome State Fault Refusal :=
  .next (s.live fun s => s.writeConfirm (value % 2 ^ 32) ag)

/-! ### The CRC unit (R445, R446) -/

/-- The initial value of a polynomial (R445). -/
def crcInit (poly : Nat) : Nat := if poly ≤ 1 then 0xFFFFFFFF else if poly = 2 then 0xFFFF else 0xFF

/-- The final XOR of a polynomial (R445). -/
def crcXor (poly : Nat) : Nat := if poly ≤ 1 then 0xFFFFFFFF else if poly = 2 then 0 else 0xFF

/-- One bit of a CRC of width `w` that is not reflected. -/
def crcStepNorm (p w : Nat) : Nat → Nat → Nat
  | 0, c => c
  | n + 1, c =>
    let sh := c * 2 % 2 ^ w
    crcStepNorm p w n (if bitOf c (w - 1) then Nat.xor sh p else sh)

/-- One byte into the running value (R445, R446). -/
def crcFeed (poly c b : Nat) : Nat :=
  if poly = 0 then crcStepRefl 0xEDB88320 8 (Nat.xor c b)
  else if poly = 1 then crcStepRefl 0x82F63B78 8 (Nat.xor c b)
  else if poly = 2 then crcStepNorm 0x1021 16 8 (Nat.xor c (b * 256))
  else crcStepNorm 0x2F 8 8 (Nat.xor c b)

/-- Bytes into the running value, in order. -/
def crcFeedAll (poly : Nat) : List Nat → Nat → Nat
  | [], c => c
  | b :: t, c => crcFeedAll poly t (crcFeed poly c b)

/-- Show the result with the final XOR applied (R446). -/
def State.setCrc (s : State) (c : Nat) : State :=
  (s.wr CRC_SEED.SEED c).wr CRC_RESULT.RESULT (Nat.xor c (crcXor (s.rd CRC_CFG.POLY)))

/-- A write of CRC_CFG (R446, R455): selects the polynomial and loads its initial value. -/
def State.writeCrcCfg (s : State) (v : Nat) : State :=
  let s := s.wr CRC_CFG.POLY v
  s.setCrc (crcInit (v % 4))

/-- CRC_CFG_WRITE (R446). -/
def execCrcCfgWrite (value : Nat) (s : State) : Host.Outcome State Fault Refusal :=
  .next (s.live fun s => s.writeCrcCfg value)

/-- A write of CRC_DATA feeds `width` bytes, the least significant first (R446). -/
def State.writeCrcData (s : State) (width v : Nat) : State :=
  s.setCrc (crcFeedAll (s.rd CRC_CFG.POLY) ((List.range width).map (fun i => bits v (8 * i) 8)) (s.rd CRC_SEED.SEED))

/-- CRC_DATA_WRITE (R446): `size` 0, 1, 2 for a byte, half-word and word write. -/
def execCrcDataWrite (size : Fin 3) (value : Nat) (s : State) : Host.Outcome State Fault Refusal :=
  .next (s.live fun s => s.writeCrcData (2 ^ size.val) value)

/-- The width of a polynomial's running value. -/
def crcWidth (poly : Nat) : Nat := if poly ≤ 1 then 32 else if poly = 2 then 16 else 8

/-- A write of CRC_SEED restores a running value (R446); unused high bits read 0 (R456). -/
def State.writeCrcSeed (s : State) (v : Nat) : State := s.setCrc (v % 2 ^ crcWidth (s.rd CRC_CFG.POLY))

/-- CRC_SEED_WRITE (R446). -/
def execCrcSeedWrite (value : Nat) (s : State) : Host.Outcome State Fault Refusal :=
  .next (s.live fun s => s.writeCrcSeed value)

end Sys2Proof.Machine
end

