-- ==== Sys2Proof/Machine/Thermal.lean ====
section
/-! DEFINITION. The housekeeping round, levels of temperature, heat budgets, weir steps (16_thermal_aux_drives.md) and
the shed level (R42 to R44). Temperatures are in °C. -/
namespace Sys2Proof.Machine
open Reg

/-! ### Levels (R581, R582) -/

/-- The level, 0 none to 3 shutdown, of a source at temperature `t` with levels `l`: entered on reaching, left 5 °C
below (R581). -/
def levelOf (old : Nat) (t : Rat) (l : List Rat) : Nat :=
  let held (k : Nat) : Bool :=
    let v := l.getD (k - 1) 0
    decide (v ≤ t) || (decide (k ≤ old) && decide (v - 5 < t))
  if held 3 then 3 else if held 2 then 2 else if held 1 then 1 else 0

/-- A temperature in 0.1 °C as a record carries it. -/
def tenths (t : Rat) : Int := showR 20 (-32768) 32767 (t * 10)

/-- A THERMAL record: source, level, direction 0 entry or 1 exit, temperature (R520, R582). -/
def State.thermRec (s : State) (src level dir : Nat) (t : Rat) : State :=
  s.post 0x60 [(24, 2, src), (26, 1, level), (27, 1, dir), (28, 2, tenths t)]

/-- One record for each level that a source enters or leaves; entering shutdown sets the safe state (R582). -/
def State.levelMove (s : State) (src old new : Nat) (t : Rat) : State :=
  let ups := [1, 2, 3].filter (fun k => decide (old < k) && decide (k ≤ new))
  let downs := [3, 2, 1].filter (fun k => decide (new < k) && decide (k ≤ old))
  let s := ups.foldl (fun s k => s.thermRec src k 0 t) s
  let s := downs.foldl (fun s k => s.thermRec src k 1 t) s
  if old < 3 ∧ new = 3 then s.safeState SLC_TRIP_LATCH.THERMAL else s

/-- The die's levels (R581). -/
def dieLevels : List Rat := [100, 110, 125]

/-- A class's warning, throttle and shutdown levels (R601). -/
def State.classLevels (s : State) (k : Nat) : List Rat :=
  [(s.rdsi THM_CLASS_LVL_k.WARN k : Rat), (s.rdsi THM_CLASS_LVL_k.THROTTLE k : Rat), (s.rdsi THM_CLASS_LVL_k.SHUT k : Rat)]

/-! ### The die (R578) -/

/-- The housekeeping result of a die sensor. -/
def dieResult (n : Nat) : Nat := if n < 14 then 24 + n else 26 + n

/-- A die sensor's temperature. -/
def State.dieTemp (s : State) (n : Nat) : Rat := (s.rdi ADC_HK_RES_c.VALUE (dieResult n) : Rat) / 16 - 50

/-- One die sensor at a completed round: faulty after two rounds out of range, which leaves its levels, else its level
(R578, R581, R582). -/
def State.dieSensor (s : State) (n : Nat) : State :=
  if bitOf (s.rd THM_SENSOR_FAULT.FAULT) n then s
  else
    let t := s.dieTemp n
    let bad := if t < -45 ∨ 150 < t then s.thm.bad.getD n 0 + 1 else 0
    let s := { s with thm := { s.thm with bad := s.thm.bad.set n bad } }
    if 2 ≤ bad then
      let s := s.wr THM_SENSOR_FAULT.FAULT (setBit (s.rd THM_SENSOR_FAULT.FAULT) n)
      (({ s with thm := { s.thm with dieLvl := s.thm.dieLvl.set n 0 } }).levelMove n (s.thm.dieLvl.getD n 0) 0 t).thermRec n 0 0 t
    else
      let old := s.thm.dieLvl.getD n 0
      let new := levelOf old t dieLevels
      ({ s with thm := { s.thm with dieLvl := s.thm.dieLvl.set n new } }).levelMove n old new t

/-- Three or more main-die sensors are faulty (R578). -/
def State.dieLost (s : State) : Bool :=
  decide (3 ≤ ((List.range 14).filter (fun n => bitOf (s.rd THM_SENSOR_FAULT.FAULT) n)).length)

/-- The die's level: the highest of its sensors, at least throttle when three sensors are lost or rounds are stale. -/
def State.dieLevel (s : State) : Nat :=
  max (s.thm.dieLvl.foldl max 0) (if s.dieLost ∨ s.bit THM_DIE_STATUS.STALE then 2 else 0)

/-- The hottest sensor that is not faulty, and its VALUE. -/
def State.hottest (s : State) : Nat × Nat :=
  ((List.range 18).filter (fun n => !bitOf (s.rd THM_SENSOR_FAULT.FAULT) n)).foldl
    (fun m n => if m.2 < s.rdi ADC_HK_RES_c.VALUE (dieResult n) then (n, s.rdi ADC_HK_RES_c.VALUE (dieResult n)) else m) (0, 0)

/-- The die at a completed round (R578, R604). -/
def State.dieRound (s : State) : State :=
  let s : State := (List.range 18).foldl (fun s n => s.dieSensor n) s
  let h := s.hottest
  let t : Rat := (h.2 : Rat) / 16 - 50
  ((s.wr THM_DIE_STATUS.TMAX (unsg 12 (tenths t))).wr THM_DIE_STATUS.HOTTEST h.1).wr THM_DIE_STATUS.LEVEL s.dieLevel

/-! ### Heat budgets (R579, R584) -/

/-- A heat budget of class `k` at a temperature (R584). -/
def State.budgetOf (s : State) (k : Nat) (t : Rat) : Nat :=
  let base : Rat := (s.rdsi THM_CLASS_LVL_k.BASE k : Rat)
  let thr : Rat := (s.rdsi THM_CLASS_LVL_k.THROTTLE k : Rat)
  (clampI 0 4096 (divR (4096 * (t - base)) (thr - base)).floor).toNat

/-- The temperature of a plant class, of its enabled inputs (R579, R580). -/
def State.plantTemp (s : State) (j : Nat) : Option Rat :=
  let ts := ((List.range 8).filter (fun n => s.biti THM_EXT_n.EN n && s.rdi THM_EXT_n.CLASS n == j)).map (fun n =>
    ((s.rdi ADC_HK_RES_c.VALUE (s.rdi THM_EXT_n.CH n) * s.rdi THM_EXT_n.GAIN n / 1024 : Nat) : Int) + s.rdsi THM_EXT_n.OFFSET n)
  match ts with
  | [] => none
  | x :: l => some ((l.foldl max x : Int) / 10)

/-- A plant class at a completed round: class 3 cabinet is j = 0, class 4 coolant loop is j = 1. With no enabled input it
leaves its levels, at a temperature that nothing states (log entry 1). -/
def State.plantRound (s : State) (j : Nat) : State :=
  let old := s.thm.plantLvl.getD j 0
  match s.plantTemp j with
  | none =>
    let t : Rat := ((s.freeVal 16 % 65536 : Nat) : Rat) / 10
    (({ s with thm := { s.thm with plantLvl := s.thm.plantLvl.set j 0, plantB := s.thm.plantB.set j 0 } }).levelMove
      (0x0800 + 3 + j) old 0 t).used
  | some t =>
    let new := levelOf old t (s.classLevels (3 + j))
    let b := if 2 ≤ new then 4096 else s.budgetOf (3 + j) t
    ({ s with thm := { s.thm with plantLvl := s.thm.plantLvl.set j new, plantB := s.thm.plantB.set j b } }).levelMove
      (0x0800 + 3 + j) old new t

/-- The switch's rise over the round `len` ns (R584): dt before and after. -/
def State.riseOf (s : State) (c : Nat) (len : Nat) : Rat :=
  let p := s.phaseOf c
  let n : Rat := (s.thm.ticks : Rat)
  let i2 := if s.thm.ticks = 0 then 0 else s.thm.i2.getD p 0 / n
  let ia := if s.thm.ticks = 0 then 0 else s.thm.iabs.getD p 0 / n
  let sec : Rat := (len : Rat) / 1000000000
  let nsw := divR ((s.cell c).sch.trans : Rat) sec
  let ss := (s.rd THM_CELL_MODEL.KCOND : Rat) / 1000000 * i2 + (s.rd THM_CELL_MODEL.KSW : Rat) / 10000000 * ia * nsw
  let dt := (s.cell c).thm.dt
  dt + (ss - dt) * sec / (s.rd THM_CELL_MODEL.TAU : Rat)

/-- A cell that is not enabled holds no level (R581, R582). -/
def State.dropLevels (s : State) (c : Nat) : State :=
  let x := s.cell c
  if s.enabled c || x.thm.lvl.all (· == 0) then s
  else
    let w := x.link.tel
    let s := s.setCell c { x with thm := { x.thm with lvl := [0, 0, 0] } }
    [(0, (w.tSw : Rat) + x.thm.dt), (1, (w.tPack : Rat)), (2, (w.tCool : Rat))].foldl
      (fun s (kt : Nat × Rat) => s.levelMove (0x1000 + 0x100 * kt.1 + c) (x.thm.lvl.getD kt.1 0) 0 kt.2) s

/-- A cell at a completed round: its classes' levels and its heat budget (R581, R582, R584, R606). A class that it no longer
has is left. -/
def State.cellRound (s : State) (len c : Nat) : State :=
  let dt := s.riseOf c len
  let w := (s.cell c).link.tel
  let temps : List (Nat × Rat) :=
    [(0, (w.tSw : Rat) + dt)] ++ (if s.role c = 1 then [(1, (w.tPack : Rat))] else []) ++ [(2, (w.tCool : Rat))]
  let lv (k : Nat) (t : Rat) : Nat := levelOf ((s.cell c).thm.lvl.getD k 0) t (s.classLevels k)
  let old := (s.cell c).thm.lvl
  let new := temps.foldl (fun l kt => l.set kt.1 (lv kt.1 kt.2)) [0, 0, 0]
  let b (kt : Nat × Rat) : Nat := if 2 ≤ new.getD kt.1 0 then 4096 else s.budgetOf kt.1 kt.2
  let best := temps.foldl (fun m kt => if m.2 < b kt then (kt.1, b kt) else m) (0, b (0, (w.tSw : Rat) + dt))
  let s := s.updCell c (fun x => { x with thm := ⟨dt, new⟩, sch := { x.sch with trans := 0 } })
  let all : List (Nat × Rat) := [(0, (w.tSw : Rat) + dt), (1, (w.tPack : Rat)), (2, (w.tCool : Rat))]
  let s := all.foldl (fun s kt => s.levelMove (0x1000 + 0x100 * kt.1 + c) (old.getD kt.1 0) (new.getD kt.1 0) kt.2) s
  ((s.wri THM_CELL_n.BUDGET c best.2).wri THM_CELL_n.CLASS c best.1).wri THM_CELL_n.TSW_EST c
    (unsg 16 (tenths ((w.tSw : Rat) + dt)))

/-- Cells in service with a class at its throttle level (R586, R605). -/
def State.hotCells (s : State) : Nat :=
  (s.plant.filter (fun c => s.sstate c == 5 && (s.cell c).thm.lvl.any (fun l => decide (2 ≤ l)))).length

/-- The lowest source of R585 that holds its throttle level: 1 die, 2 cell quorum, 3 cabinet, 4 coolant loop, 0 none. -/
def State.thrSource (s : State) : Nat :=
  let stale := s.bit THM_DIE_STATUS.STALE
  if 2 ≤ s.dieLevel then 1
  else if s.rd THM_CFG.CELL_QUORUM ≤ s.hotCells then 2
  else if stale ∨ 2 ≤ s.thm.plantLvl.getD 0 0 then 3
  else if stale ∨ 2 ≤ s.thm.plantLvl.getD 1 0 then 4
  else 0

/-- Show the throttle state (R605). -/
def State.showThrottle (s : State) : State :=
  ((s.wr THM_STATUS.THR_SRC s.thrSource).wr THM_STATUS.THROTTLE (b2n (s.thrSource != 0))).wr THM_STATUS.HOT_CELLS s.hotCells

/-! ### Weir steps (R585) -/

/-- One weir step in the direction of the throttle state; with WEIR_EN 0 the step stays 16. -/
def State.weirStep (s : State) : State :=
  if !s.bit THM_CFG.WEIR_EN then s.wr THM_STATUS.WEIR_STEP 16
  else
    let w := s.rd THM_STATUS.WEIR_STEP
    s.wr THM_STATUS.WEIR_STEP (if s.thm.prev then max (w - 1) (s.rd THM_CFG.WEIR_FLOOR) else min (w + 1) 16)

/-- The timer of 200 ms has run out: a step, and it starts anew. -/
def State.weirTimer (s : State) : State :=
  if 200000000 ≤ s.thm.timer then ({ s with thm := { s.thm with timer := 0 } }).weirStep else s

/-- The weir at a completed round of `len` ns (R585): a change of the throttle state restarts the timer, and entering it
steps down; otherwise the timer runs on. -/
def State.weirRound (s : State) (len : Nat) : State :=
  let st := s.thrSource != 0
  if st = s.thm.prev then ({ s with thm := { s.thm with timer := s.thm.timer + len } }).weirTimer
  else
    let s := { s with thm := { s.thm with prev := st, timer := 0 } }
    if st then s.weirStep else s

/-- WEIR_TIMER_EXPIRY (R585). -/
def execWeirTimerExpiry (t : Nat) (s : State) : Host.Outcome State Fault Refusal :=
  .next (s.live fun s => (s.moveTo t).weirTimer)

/-- THERMAL_STALE (R583): no round completed for the longer of 20 ms and three periods. -/
def execThermalStale (t : Nat) (s : State) : Host.Outcome State Fault Refusal :=
  .next <| s.live fun s =>
    let s := s.moveTo t
    if s.adc.hkDone + max 20000000 (3 * s.rd ADC_HK_CFG.PERIOD * 1000) ≤ s.tm.e then
      let s := s.wr THM_DIE_STATUS.STALE 1
      (s.wr THM_DIE_STATUS.LEVEL s.dieLevel).showThrottle
    else s

/-! ### The shed level (R42, R44) -/

/-- Suspension of the diagnostic slices starts at level 3 and ends below it (R42). -/
def State.diagTrack (s : State) (level : Nat) : State :=
  match s.tm.diagFrom with
  | none => if 3 ≤ level then { s with tm := { s.tm with diagFrom := some s.tm.e } } else s
  | some a =>
    if 3 ≤ level then s
    else
      let past := s.tm.diagPast.filter (fun x => decide (s.tm.e < x.2 + 3600000000000))
      { s with tm := { s.tm with diagFrom := none, diagPast := (a, s.tm.e) :: past } }

/-- The shed level changes, with one event; at level 4 a capture in progress is closed (R42, R44). -/
def State.setShed (s : State) (level : Nat) : State :=
  if level = s.rd CLK_TICK_STATUS.SHED_LEVEL then s
  else
    let s := ((s.wr CLK_TICK_STATUS.SHED_LEVEL level).diagTrack level).notice 1 level
    if 4 ≤ level then (List.range 8).foldl (fun s q => s.qTruncate q) s else s

/-- The shed triggers at a completed round (R44), each as it stands at that instant (log entry 89). -/
def State.shedRound (s : State) : State :=
  let hot := s.hottest.2
  let therm := s.bit CLK_SHED_CFG.THERM_EN && decide (2400 ≤ hot)
  let power := s.bit CLK_SHED_CFG.POWER_EN && decide (2950 ≤ s.rdi ADC_HK_RES_c.VALUE 39)
  let room := s.bit CLK_SHED_CFG.HEADROOM_EN && s.tm.headroom.any (fun n => decide (16 ≤ n))
  let trig := therm || power || room
  let calm := if trig ∨ 2320 < hot then none else some (s.tm.shedCalm.getD s.tm.e)
  let s := { s with tm := { s.tm with shedCalm := calm } }
  if trig then s.setShed (max (s.rd CLK_TICK_STATUS.SHED_LEVEL)
    (min (s.rd CLK_SHED_CFG.MAX_LEVEL) (s.rd CLK_TICK_STATUS.SHED_LEVEL + 1)))
  else s

/-- SHED_LEVEL_FALL (R44): 100 ms without a trigger, the die at or below 95 °C. -/
def execShedLevelFall (t : Nat) (s : State) : Host.Outcome State Fault Refusal :=
  .next <| s.live fun s =>
    let s := s.moveTo t
    let l := s.rd CLK_TICK_STATUS.SHED_LEVEL
    match s.tm.shedCalm with
    | some c =>
      if 0 < l ∧ c + 100000000 ≤ s.tm.e then
        ({ s with tm := { s.tm with shedCalm := some s.tm.e } }).setShed (l - 1)
      else s
    | none => s

/-- A lower MAX_LEVEL takes effect (R44). -/
def State.shedClamp (s : State) : State :=
  if s.tm.shedClamp then
    ({ s with tm := { s.tm with shedClamp := false } }).setShed
      (min (s.rd CLK_TICK_STATUS.SHED_LEVEL) (s.rd CLK_SHED_CFG.MAX_LEVEL))
  else s

/-- SHED_LEVEL_CLAMP (R44): at the tick boundary after the write. -/
def execShedLevelClamp (s : State) : Host.Outcome State Fault Refusal :=
  .next (s.live fun s => if s.boundaryDue CLK_SHED_CFG.MAX_LEVEL.base then s.shedClamp else s)

/-- A write of CLK_SHED_CFG (R44, R45). -/
def State.writeShedCfg (s : State) (v : Nat) : State :=
  let off := CLK_SHED_CFG.MAX_LEVEL.base
  if !inRange off v then s.refuse CLK_TICK_STATUS.CFG_ERR
  else
    let s := s.putRw CLK_SHED_CFG.MAX_LEVEL.base v
    if s.rd CLK_SHED_CFG.MAX_LEVEL < s.rd CLK_TICK_STATUS.SHED_LEVEL then
      ({ s with tm := { s.tm with shedClamp := true } }).askAt CLK_SHED_CFG.MAX_LEVEL.base
    else s

/-- CLK_SHED_CFG_WRITE (R44). -/
def execClkShedCfgWrite (value : Nat) (s : State) : Host.Outcome State Fault Refusal :=
  .next (s.live fun s => s.writeShedCfg value)

/-- Suspension of diagnostic slices within the last hour, in ns (R42). -/
def State.diagSuspended (s : State) : Nat :=
  let from' := s.tm.e - 3600000000000
  let past := (s.tm.diagPast.map (fun x => x.2 - max x.1 from')).foldl (· + ·) 0
  match s.tm.diagFrom with
  | some a => past + (s.tm.e - max a from')
  | none => past

/-- DIAG_DEFERRED (R42). -/
def execDiagDeferred (t : Nat) (s : State) : Host.Outcome State Fault Refusal :=
  .next <| s.live fun s =>
    let s := s.moveTo t
    if 60000000000 < s.diagSuspended ∧ s.rd CLK_TICK_STATUS.DIAG_DEFERRED = 0 then
      (s.wr CLK_TICK_STATUS.DIAG_DEFERRED 1).noticeOpen 2
    else s

/-! ### The housekeeping round (R362 to R364) -/

/-- HK_ROUND_START (R362, R363): at the first tick boundary after PERIOD, or after PERIOD in sleep, where the tick stands;
a round still running is counted as skipped. -/
def execHkRoundStart (t : Nat) (s : State) : Host.Outcome State Fault Refusal :=
  .next <| s.live fun s =>
    let s := s.moveTo t
    if s.tm.e < s.adc.hkAt + s.rd ADC_HK_CFG.PERIOD * 1000 ∨ (s.tm.run ∧ s.tm.e ≠ s.tm.start) then s
    else
      let run := s.adc.hkRun
      let s := { s with adc := { s.adc with hkRun := true, hkAt := s.tm.e, hkFrom := if run then s.adc.hkFrom else s.tm.e } }
      if run then s.inc ADC_HK_CFG.SKIPPED 1 else s

/-- A round converts the result: every internal one, and the external ones enabled (R362). -/
def State.hkTakes (s : State) (c : Nat) : Bool := decide (24 ≤ c) || bitOf (s.rd ADC_HK_EN.EN) c

/-- One result of a round, converted at the instant `at'`, lands in its register, and with QEN in its queue, which stands
in sleep (R355, R362, R371). -/
def State.hkResult (s : State) (c v at' : Nat) : State :=
  let v := min 4095 v
  let s := (s.wri ADC_HK_RES_c.ROUND c (s.adc.hkCount % 65536)).wri ADC_HK_RES_c.VALUE c v
  if s.bit ADC_HK_CFG.QEN ∧ !s.bit PWR_STATUS.SLEEP then
    s.qSend (s.rd ADC_HK_CFG.QUEUE) s.tm.e ⟨0, at', false, false, s.calPending, 16, c + 16, v⟩
  else s

/-- The results of a round in index order, 1 µs each from its start. -/
def State.hkResults (s : State) (c at' : Nat) : List Nat → State
  | [] => s
  | v :: t => if s.hkTakes c then (s.hkResult c v at').hkResults (c + 1) (at' + 1000) t else s.hkResults (c + 1) at' t

/-- Thermal management at a completed round of `len` ns (R578 to R586). -/
def State.thermalRound (s : State) (len : Nat) : State :=
  let s := s.wr THM_DIE_STATUS.STALE 0
  let s := ((s.dieRound).plantRound 0).plantRound 1
  let s := s.plant.foldl (fun s c => s.cellRound len c) s
  let s := (List.range 240).foldl State.dropLevels s
  let shut := s.thm.dieLvl.any (· == 3) || s.thm.plantLvl.any (· == 3) ||
    s.plant.any (fun c => (s.cell c).thm.lvl.any (· == 3))
  let s := { s with slc := { s.slc with thermShut := shut },
                    thm := { s.thm with ticks := 0, i2 := [0, 0, 0], iabs := [0, 0, 0] } }
  (s.showThrottle).weirRound len

/-- The readings that a round brings: the auxiliary bus, the crystal's compensation (R587, R610). -/
def State.roundReadings (s : State) : State :=
  let s := (s.wr AUX_BUS_STATUS.VAUX (showR 21 0 1023 ((s.rdi ADC_HK_RES_c.VALUE 44 * 800 : Nat) / 4096)).toNat).wr
    AUX_BUS_STATUS.VCP (showR 22 0 1023 ((s.rdi ADC_HK_RES_c.VALUE 45 * 200 : Nat) / 4096)).toNat
  let s := { s with clk := { s.clk with comp := Config.xtalComp (s.rdi ADC_HK_RES_c.VALUE 24) } }
  if s.rd CLK_REF_STATUS.SEL = 0 then s.newDividers else s

/-- A round's 48 results are taken (R362 to R364, R44, R587). -/
def State.roundDone (s : State) (res : List Nat) : State :=
  let s := s.qRunAll
  let s := (s.hkResults 0 s.adc.hkFrom (res.take 48)).roundCorrect res
  let len := s.tm.e - s.adc.hkDone
  let s := { s with adc := { s.adc with hkRun := false, hkCount := s.adc.hkCount + 1, hkPrev := s.adc.hkDone, hkDone := s.tm.e } }
  ((s.roundReadings.thermalRound len).shedRound).qRunAll

/-- HK_ROUND_DONE (R362 to R364, R44, R587): `res` holds the 48 results. -/
def execHkRoundDone (res : List Nat) (t : Nat) (s : State) : Host.Outcome State Fault Refusal :=
  .next <| s.live fun s =>
    let s := s.moveTo t
    if !s.adc.hkRun then s else s.roundDone res

end Sys2Proof.Machine
end

