-- ==== Sys2Proof/Machine/Join.lean ====
section
/-! DEFINITION. The meanings of the commands of the spillway: removal, return, verification, pre-charge and ramps of cells
(09_spillway.md). Service-state changes act at tick boundaries (R309): their commands act at the start of a tick, before
its S0 deadline. -/
namespace Sys2Proof.Machine
open Reg

/-- The tick runs and stands at its boundary (R309). -/
def State.atBoundary (s : State) : Bool := s.tm.run && s.tm.phase == 0

/-- Time the running step of a join has used (R327, R328): the pre-charge by insertion counts only while the cell's phase
is released (R335). -/
def State.stepTime (s : State) (c : Nat) : Nat :=
  let x := (s.cell c).svc
  if s.sstate c = 3 ∧ s.biti JOIN_CELL_STATUS_n.PRE_MODE c ∧ !s.phaseReleased (s.phaseOf c) then x.preUsed
  else x.preUsed + (s.tm.e - x.preAt)

/-- The time of the running step is taken up to now, at each tick boundary and at the entry into sleep (R332). -/
def State.stepTick (s : State) (c : Nat) : State :=
  if s.sstate c = 2 ∨ s.sstate c = 3 then
    let used := s.stepTime c
    s.updCell c (fun x => { x with svc := { x.svc with preUsed := used, preAt := s.tm.e } })
  else s

/-- SPILL_TIMEOUT (R312): SPILLWAY not reported within SPILL_TICKS ticks of the first command with SPILL = 1. -/
def execSpillTimeout (cell : Fin 240) (s : State) : Host.Outcome State Fault Refusal :=
  .next <| s.live fun s =>
    let c := cell.val
    let x := s.cell c
    match x.svc.spillTicks with
    | some n =>
      if s.rd JOIN_CFG.SPILL_TICKS ≤ n ∧ !x.svc.spillFail ∧ x.link.fresh then
        let s := s.updCell c (fun x => { x with svc := { x.svc with spillFail := true } })
        (s.sendAux c 6 []).cellEvent c 2 (s.rd JOIN_CFG.SPILL_TICKS) 0
      else s
    | none => s

/-! ### Service actions (R319 to R322) -/

/-- A service action is not accepted: REFUSED_STATE and JOIN_STATUS.CFG_ERR (R319, R339). -/
def State.refuseService (s : State) (d : Desc) (c : Nat) : State :=
  (s.refuse JOIN_STATUS.CFG_ERR).complete d 2 0
    [(32, 1, s.sstate c), (33, 1, s.rdi JOIN_CELL_STATUS_n.FAIL c), (34, 1, 0)]

/-- Run a CELL_SERVICE descriptor: CELL first, a disabled cell is absent (R506), then the action's own conditions. -/
def State.runService (s : State) (h : DescHdr) (c : Nat) (ok : State → Bool) (g : Desc → State → State) : State :=
  s.runDesc h 0x03 (fun d s =>
    match s.cellField c with
    | some st => s.complete d st 0 []
    | none =>
      if !s.enabled c then s.complete d 5 0 []
      else if ok s then g d s
      else s.refuseService d c)

/-- A service action goes on: the descriptor is kept until the action ends. -/
def State.keepService (s : State) (d : Desc) (c action : Nat) (wait : Bool) : State :=
  s.updCell c (fun x => { x with svc := { x.svc with
    acts := x.svc.acts ++ [(action, d)], todo := if wait then action else x.svc.todo } })

/-- REMOVE is accepted (R319, R320): in RAMP_IN or IN_SERVICE; while the converter is released its phase keeps 6 cells
in service and h stays out of row 4 without the cell. -/
def State.removeOk (s : State) (c : Nat) : Bool :=
  let out := s.wri JOIN_CELL_STATUS_n.SSTATE c 7
  (s.sstate c == 4 || s.sstate c == 5) &&
  (!s.released || (decide (6 ≤ (out.inService (s.phaseOf c)).length) && decide (rowOf out.headroom < 4)))

/-- CELL_REMOVE (R319, R320, R506): takes effect at the next tick boundary. -/
def execCellRemove (h : DescHdr) (cell : Nat) (s : State) : Host.Outcome State Fault Refusal :=
  .next (s.live fun s => s.runService h cell (fun s => s.removeOk cell) (fun d s => s.keepService d cell 1 true))

/-- CELL_RETURN (R319, R321, R506): takes effect at the next tick boundary. -/
def execCellReturn (h : DescHdr) (cell : Nat) (s : State) : Host.Outcome State Fault Refusal :=
  .next (s.live fun s => s.runService h cell (fun s => [7, 8, 9].contains (s.sstate cell))
    (fun d s => s.keepService d cell 2 true))

/-- The words of a message in runs of 256 image words, with their byte offsets. -/
def fwRuns (off : Nat) : Nat → List Nat → List (Nat × List Nat)
  | 0, _ => []
  | _, [] => []
  | n + 1, l => (off, l.take 256) :: fwRuns (off + 1024) n (l.drop 256)

/-- The image of a NODE_FW came from host memory: FW_DATA messages, then FW_COMMIT (R322, R325). -/
def State.nodeFwData (s : State) (c : Nat) (img : List Byte) : State :=
  let words := imageWords img
  let s : State := (fwRuns 0 words.length words).foldl (fun s r => s.sendAux c 7 (r.1 :: r.2)) s
  s.sendAux c 8 [img.length, crc32c img]

/-- CELL_NODE_FW (R319, R322, R506): accepted in BYPASSED; the image is read through the walker. -/
def execCellNodeFw (h : DescHdr) (cell len addr : Nat) (s : State) : Host.Outcome State Fault Refusal :=
  .next (s.live fun s => s.runService h cell (fun s => s.sstate cell == 7) (fun d s =>
    let s := s.keepService d cell 3 false
    if len = 0 then s.nodeFwData cell [] else s.access (.nodeFw d cell len addr)))

/-- A cell reaches BYPASSED after REMOVE (R318, R320). -/
def State.removed (s : State) (c : Nat) : State :=
  (((s.enter c 7).wri HGS_CELL_STATE_n.WEIGHT c 0).spillOn c).cellEvent c 3 0 0

/-- The join of a cell resumes (R321): at VERIFY on a link that is LINKED, at CONFIG when its configuration has changed
since the node received it, else at LINKING. A CONFIG that failed its checks begins again, after any message that is in
progress. -/
def State.resumeJoin (s : State) (c : Nat) : State :=
  let a := (s.cell c).link.aux
  if s.lstate c = 5 then
    if (s.cell c).svc.dirty then (s.enter c 1).startConfig c else s.startVerify c
  else if s.lstate c = 4 then
    if a.cur = [] ∧ a.queue = [] then (s.enter c 1).startConfig c
    else if (a.cur :: a.queue).any isConfig then s.enter c 1
    else (s.enter c 1).sendAux c 1 []
  else s.enter c 1

/-- What an accepted REMOVE or RETURN does at the boundary (R320, R321, R334): a removal begins its ramp, or ends it at
once while every cell is blocked; a recorded trip governs. -/
def State.serviceAct (s : State) (c : Nat) : State :=
  let todo := (s.cell c).svc.todo
  let s := s.updCell c (fun x => { x with svc := { x.svc with todo := 0 } })
  if todo = 1 then
    let s := s.wri JOIN_CELL_STATUS_n.HOLD c 1
    if (s.sstate c ≠ 4 ∧ s.sstate c ≠ 5) ∨ (s.cell c).svc.trip ≠ none then s
    else if s.allBlocked then s.removed c
    else
      (s.enter c 6).updCell c (fun x => { x with svc := { x.svc with
        rampFrom := x.svc.weight, rampN := 0, rampMs := s.rd JOIN_CFG.RAMP_MS, rampDone := false } })
  else if todo = 2 then
    let s := s.wri JOIN_CELL_STATUS_n.HOLD c 0
    if s.sstate c = 7 then s.resumeJoin c
    else if s.sstate c = 8 then s.updCell c (fun x => { x with svc := { x.svc with retTicks := some 0 } })
    else s
  else s

/-- A change of service state that was asked for during the tick takes effect at the boundary (R309). -/
def State.stateAct (s : State) (c : Nat) : State :=
  let k := (s.cell c).svc.due
  let s := s.askEnter c 0
  if k = 1 then (s.enter c 1).spillOn c
  else if k = 2 then s.linkedOn c
  else if k = 3 then s.enter c (if s.biti JOIN_CELL_STATUS_n.HOLD c then 7 else 0)
  else if k = 4 then (if s.sstate c = 8 then s.resumeJoin c else s)
  else if 8 ≤ k ∧ s.joining c then s.joinFail c (k - 8)
  else s

/-- Service-state changes and service actions due at the tick boundary (R309). -/
def State.serviceDue (s : State) : State :=
  let s : State := (s.plant.filter (fun c => (s.cell c).svc.due != 0)).foldl (fun s c => s.stateAct c) s
  (s.plant.filter (fun c => (s.cell c).svc.todo != 0)).foldl (fun s c => s.serviceAct c) s

/-- RETURN_TRIP_TIMEOUT (R321): the node did not clear TRIPPED within 16 ticks of RELEASE: FAIL 5. The node is still
tripped, so the cell stays FAULTED, with HOLD (log entry 25). -/
def execReturnTripTimeout (cell : Fin 240) (s : State) : Host.Outcome State Fault Refusal :=
  .next <| s.live fun s =>
    let c := cell.val
    match (s.cell c).svc.retTicks with
    | some n =>
      if s.atBoundary ∧ 16 ≤ n ∧ s.sstate c = 8 then
        let s := (s.wri JOIN_CELL_STATUS_n.FAIL c 5).wri JOIN_CELL_STATUS_n.HOLD c 1
        let s := s.updCell c (fun x => { x with svc := { x.svc with retTicks := none } })
        (s.cellEvent c 5 5 0).endService c 2 7 0
      else s
    | none => s

/-! ### VERIFY (R327) -/

/-- The checks of VERIFY hold for the telemetry of this tick. -/
def State.verifyHolds (s : State) (c : Nat) : Bool :=
  let x := s.cell c
  let w := x.link.tel
  let base := x.link.fresh && w.valid && w.aligned && !w.tripped && decide ((w.tSw : Int) < s.rdsi THM_CLASS_LVL_k.THROTTLE 0)
  if s.role c = 1 then
    base && w.packAlarm == 0 && decide (10 * s.rdi PORT_PACK_VLIM_n.VMIN c ≤ w.portV) &&
      decide (w.portV ≤ 10 * s.rdi PORT_PACK_VLIM_n.VMAX c) &&
      decide (sgn 8 (s.act PORT_PACK_GCFG.TLO) < w.tPack) && decide (w.tPack < sgn 8 (s.act PORT_PACK_GCFG.THI)) &&
      x.mtr.lease.state != 0
  else if s.role c = 2 then base && decide (w.portV ≤ 10 * s.rdi PORT_PV_CFG_n.VMAX c)
  else base

/-- VERIFY and pre-charge take the telemetry of a frame interval of `ns` (R327, R330); not during sleep (R332). -/
def State.joinTick (s : State) (c ns : Nat) : State :=
  let st := s.sstate c
  if s.asleep then s
  else if st = 2 then
    let ok := s.verifyHolds c
    s.updCell c (fun x => { x with svc := { x.svc with verifyOk := if ok then x.svc.verifyOk + ns else 0 } })
  else if st = 3 then
    let x := s.cell c
    let up := x.link.fresh && decide (s.vlo c ≤ (x.link.tel.vlink : Int))
    s.updCell c (fun x => { x with svc := { x.svc with preOk := if up then x.svc.preOk + 1 else 0 } })
  else s

/-- PRECHARGE begins (R328): by port for pack and PV cells, by insertion for a capacitor-only cell. -/
def State.startPrecharge (s : State) (c : Nat) : State :=
  let port := s.role c == 1 || s.role c == 2
  let s := (s.enter c 3).wri JOIN_CELL_STATUS_n.PRE_MODE c (b2n (!port))
  let s := s.updCell c (fun x => { x with svc := { x.svc with preAt := s.tm.e, preUsed := 0, preOk := 0 } })
  if port then s.sendAux c 4 [(s.vlo c).toNat * 2 ^ 16 + s.rd JOIN_CFG.PRE_I * 10] else s

/-- VERIFY_PASS (R327, R328): the checks have held for 20 ms. -/
def execVerifyPass (cell : Fin 240) (t : Nat) (s : State) : Host.Outcome State Fault Refusal :=
  .next <| s.live fun s =>
    let s := s.moveTo t
    let c := cell.val
    if s.atBoundary ∧ s.sstate c = 2 ∧ 20000000 ≤ (s.cell c).svc.verifyOk then s.startPrecharge c else s

/-- VERIFY_TIMEOUT (R327): FAIL 3. -/
def execVerifyTimeout (cell : Fin 240) (t : Nat) (s : State) : Host.Outcome State Fault Refusal :=
  .next <| s.live fun s =>
    let s := s.moveTo t
    let c := cell.val
    if s.atBoundary ∧ s.sstate c = 2 ∧ (s.cell c).svc.verifyOk < 20000000 ∧
        s.rd JOIN_TIME_CFG.VERIFY_S * 1000000000 ≤ s.stepTime c then s.joinFail c 3
    else s

/-! ### Pre-charge and ramps (R328 to R332) -/

/-- PRECHARGE_TIMEOUT (R328): port pre-charge goes over to insertion; insertion fails the join with FAIL 4. -/
def execPrechargeTimeout (cell : Fin 240) (t : Nat) (s : State) : Host.Outcome State Fault Refusal :=
  .next <| s.live fun s =>
    let s := s.moveTo t
    let c := cell.val
    if s.atBoundary ∧ s.sstate c = 3 ∧ (s.cell c).svc.preOk = 0 ∧
        s.rd JOIN_TIME_CFG.PRECHARGE_S * 1000000000 ≤ s.stepTime c then
      if s.biti JOIN_CELL_STATUS_n.PRE_MODE c then s.joinFail c 4
      else
        let s := s.wri JOIN_CELL_STATUS_n.PRE_MODE c 1
        (s.updCell c (fun x => { x with svc := { x.svc with preAt := s.tm.e, preUsed := 0 } })).sendAux c 5 []
    else s

/-- PRECHARGE_DONE (R330, R332, R241): V_lo held in two consecutive ticks, the ring at full rate and the phase
released. -/
def execPrechargeDone (cell : Fin 240) (t : Nat) (s : State) : Host.Outcome State Fault Refusal :=
  .next <| s.live fun s =>
    let s := s.moveTo t
    let c := cell.val
    if s.atBoundary ∧ s.sstate c = 3 ∧ 2 ≤ (s.cell c).svc.preOk ∧ s.ringState (ringOf c) = 4 ∧
        s.phaseReleased (s.phaseOf c) then
      let s := (s.enter c 4).updCell c (fun x => { x with svc := { x.svc with
        weight := 0, rampFrom := 0, rampN := 0, rampMs := s.rd JOIN_CFG.RAMP_MS, rampDone := false } })
      if s.role c = 1 then s.packJoin c else if s.role c = 2 then s.pvJoin c else s
    else s

/-- The weight of a ramp's tick (R331). -/
def State.rampWeight (s : State) (c : Nat) : Nat :=
  let x := (s.cell c).svc
  let w := min 256 (256 * x.rampN * s.period / (x.rampMs * 1000000))
  if s.sstate c = 4 then w else x.rampFrom - w

/-- A ramp goes on by one tick (R331); a RAMP_OUT whose weight was 0 in the tick before is done (R320). -/
def State.rampTick (s : State) (c : Nat) : State :=
  if s.sstate c = 4 ∨ s.sstate c = 6 then
    let s := s.updCell c (fun x => { x with svc := { x.svc with
      rampN := x.svc.rampN + 1, rampDone := s.sstate c == 6 && x.svc.weight == 0 } })
    let w := s.rampWeight c
    s.updCell c (fun x => { x with svc := { x.svc with weight := w } })
  else s

/-- RAMP_COMPLETE (R331, R83, R241): weight 256. -/
def execRampComplete (cell : Fin 240) (s : State) : Host.Outcome State Fault Refusal :=
  .next <| s.live fun s =>
    let c := cell.val
    if s.atBoundary ∧ s.sstate c = 4 ∧ (s.cell c).svc.weight = 256 then
      let s := (s.enter c 5).wri HGS_CELL_STATE_n.BUDGET c s.budgetCap
      let s := if s.role c = 2 then s.queueScan c else s
      (s.cellEvent c 4 (s.rdi JOIN_CELL_STATUS_n.PRE_MODE c) 0).endService c 2 0 0
    else s

/-- RAMP_OUT_COMPLETE (R320): in the tick after the weight reached 0. -/
def execRampOutComplete (cell : Fin 240) (s : State) : Host.Outcome State Fault Refusal :=
  .next <| s.live fun s =>
    let c := cell.val
    if s.atBoundary ∧ s.sstate c = 6 ∧ (s.cell c).svc.rampDone then s.removed c else s

end Sys2Proof.Machine
end

