-- ==== Sys2Proof/Machine/Metering.lean ====
section
/-! DEFINITION. AC metering, latches, records, leases, the cistern journal and power fail (15_lease_metering.md). The
restoration at B2 is in Bringup.lean. -/
namespace Sys2Proof.Machine
open Reg

/-! ### AC quantities (R539 to R541) -/

/-- The converter that serves metering channel `c`: function 10 + c. -/
def State.meterConv (s : State) (c : Nat) : Option Nat := (List.range 16).find? (fun n => s.func n == 10 + c)

/-- A metering channel's corrected value of a chain output (R539), in A or V. -/
def State.meterValue (s : State) (c : Nat) (r : Int) : Rat :=
  match s.meterConv c with
  | none => 0
  | some n =>
    ((r - 128 * s.actsi MTR_CH_CAL_c.OFFSET c : Int) : Rat) * (s.acti MTR_CH_CAL_c.GAIN c : Rat) / 262144 *
      (s.rdi ADC_CH_CFG_n.FS n : Rat) / 8388608 * (if c < 3 then 1 / 10 else 10)

/-- The corrected values of the six chain outputs (R539). -/
def State.meterValues (s : State) (raw : List Int) : List Rat := (List.range 6).map (fun c => s.meterValue c (raw.getD c 0))

/-- A code enters a chain: each integrator adds the one before it. -/
def ChainSt.step (x : ChainSt) (code : Int) : ChainSt :=
  let a := x.integ.getD 0 0 + code
  let b := x.integ.getD 1 0 + a
  let c := x.integ.getD 2 0 + b
  { x with integ := [a, b, c, x.integ.getD 3 0 + c] }

/-- A chain is decimated: the four combs, then the droop compensation of the samples, whose full scale of 14 bits is that
of the 24-bit output; the filters' delay of 47.2 µs is in it (R360). -/
def ChainSt.out (x : ChainSt) : ChainSt × Int :=
  let y := x.integ.getD 3 0
  let d1 := y - x.comb.getD 0 0
  let d2 := d1 - x.comb.getD 1 0
  let d3 := d2 - x.comb.getD 2 0
  let d4 := d3 - x.comb.getD 3 0
  let hist : List Int := (d4 :: x.hist).take 32
  ({ x with comb := [y, d1, d2, d3], hist := hist },
    clampI (-8388608) 8388607 (Config.droop (hist.map (fun (v : Int) => ((v : Int) : Rat) / (2 ^ 30 : Nat)))))

/-- One conversion of every metering converter, at instant `e`: the chains take it, and every 1,024th gives a sample of
each (R360). `codes` holds the untrimmed codes of channels 0 to 5. -/
def State.chainEdge (s : State) (e : Nat) (codes : List Int) : State :=
  let l := (List.range 6).map (fun c => (s.mtr.chains.getD c ⟨[], [], []⟩).step (codes.getD c 0))
  if s.mtr.chainN + 1 < 1024 then { s with mtr := { s.mtr with chains := l, chainN := s.mtr.chainN + 1 } }
  else
    let r := l.map ChainSt.out
    let raw := r.map Prod.snd
    { s with mtr := { s.mtr with
        chains := r.map Prod.fst, chainN := 0, samples := s.mtr.samples ++ [(e, raw, s.meterValues raw)] } }

/-- The conversions of a stream from its `i`-th pass through the chains (R360). -/
def State.meterEdges (s : State) (x : Stream) (i : Nat) : List Nat → State
  | [] => s
  | e :: t =>
    (s.chainEdge e ((List.range 6).map (fun c => match s.meterConv c with
      | some n => s.codeOf n ((x.codes.getD n []).getD i 0)
      | none => 0))).meterEdges x (i + 1) t

/-- The conversions since the last tick pass through the metering chains (R360). -/
def State.meterSamples (s : State) (x : Stream) : State := s.meterEdges x 0 x.edges

/-- A channel's value at an instant, by the fractional-delay interpolation; at a sample's own instant the sample. -/
def chanAt (l : List (Nat × List Rat)) (c : Nat) (t : Rat) : Rat :=
  match l.find? (fun x => ((x.1 : Rat) : Rat) == t) with
  | some x => x.2.getD c 0
  | none => Config.interp (l.map (fun x => ((x.1 : Rat), x.2.getD c 0))) t

/-- Add one quantity to a counter of a group (R541). -/
def addAt (l : List Ctr) (i : Nat) (x : Rat) : List Ctr := l.set i ((l.getD i Ctr.zero).add x)

/-- The counters of a group after a cycle of `ns` with P, Q, S (R541). -/
def addCycle (g : List Ctr) (p q sq : Rat) (ns : Nat) : List Ctr :=
  let g := if 0 ≤ p then addAt g 0 (mWh p ns) else addAt g 1 (mWh (-p) ns)
  let k := if 0 ≤ q then (if 0 ≤ p then 2 else 3) else (if 0 ≤ p then 5 else 4)
  addAt (addAt g k (mWh (absR q) ns)) 6 (mWh sq ns)

/-- Correction of a phase quantity by its calibration (R540): OFFSET in 100 W or var. -/
def State.qtyCal (s : State) (k : Nat) (x : Rat) : Rat :=
  x * (s.acti MTR_QTY_CAL_k.GAIN k : Rat) / 262144 + 100 * (s.actsi MTR_QTY_CAL_k.OFFSET k : Rat)

/-- RMS per channel, P and Q per phase of the cycle from `a` to `b`; `tp` is the length of the cycle before (R540). -/
def State.cycleValues (s : State) (a b tp : Nat) : List Rat × List Rat × List Rat :=
  let l := s.mtr.samples.map (fun x => (x.1, x.2.2))
  let ts := (l.filter (fun x => decide (a < x.1) && decide (x.1 ≤ b))).map (fun x => (x.1 : Rat))
  let at_ (c : Nat) (t : Rat) : Rat := chanAt l c (t - (s.actsi MTR_CH_PHASE_c.PHASE c : Rat))
  let rms := (List.range 6).map (fun c => Config.sqrt (meanR (ts.map (fun t => at_ c t * at_ c t))))
  let p := (List.range 3).map (fun x => s.qtyCal x (meanR (ts.map (fun t => at_ (3 + x) t * at_ x t))))
  let q := (List.range 3).map (fun x => s.qtyCal (3 + x) (meanR (ts.map (fun t => at_ (3 + x) (t - (tp : Rat) / 4) * at_ x t))))
  (rms, p, q)

/-- A calibration swap was asked for by the instant `b` of a latch boundary (R566). -/
def State.calAsked (s : State) (b : Nat) : Bool := s.bit MTR_CAL_CTRL.PENDING && decide (s.mtr.swapAt ≤ b)

/-- A line cycle ends at the boundary of this tick (R540, R541, R545): the counters, the sums of the latch, and the latch
boundary every N cycles. The first cycle has no cycle before it, so its quarter-period shift is open (log entry 1). -/
def State.acCycle (s : State) : State :=
  let b := s.tm.start
  match s.mtr.cycAt with
  | none => { s with mtr := { s.mtr with cycAt := some b, latchAt := b } }
  | some a =>
    let ns := b - a
    let first := s.mtr.cycPrev == 0
    let v := s.cycleValues a b (if first then s.freeVal 7 else s.mtr.cycPrev)
    let s := if first then s.used else s
    let m := s.mtr
    let sx := (List.range 3).map (fun x => v.1.getD x 0 * v.1.getD (3 + x) 0)
    let ac := (List.range 3).map (fun x => addCycle (m.ac.getD x []) (v.2.1.getD x 0) (v.2.2.getD x 0) (sx.getD x 0) ns)
    let tot := addCycle (m.ac.getD 3 []) (sumR v.2.1) (sumR v.2.2) (sumR sx) ns
    let add (x y : List Rat) : List Rat := (List.range x.length).map (fun i => x.getD i 0 + y.getD i 0)
    let latch := decide (m.n ≤ m.count + 1) && !m.atS5 && m.form == none
    let keep := m.samples.filter (fun x => decide (b ≤ x.1 + ns / 4 + 40000))
    { s with mtr := { m with
        cycAt := some b, cycPrev := ns, ac := ac ++ [tot], samples := keep, cycles := m.cycles + 1,
        rms := add m.rms v.1, pSum := add m.pSum v.2.1, qSum := add m.qSum v.2.2
        count := if latch then 0 else m.count + 1, atS5 := m.atS5 || latch
        n := if latch then s.rd MTR_CFG.N else m.n, latchAt := if latch then b else m.latchAt
        calDue := m.calDue || (latch && s.calAsked b) } }

/-! ### Latches and records (R545 to R548) -/

/-- Energy and charge counters as a snapshot's entry of a cell. -/
def snapCell (m : CellMtr) : SnapCell :=
  ⟨m.eDis.n, m.eChg.n, m.qDis.n, m.qChg.n, m.base.getD 0, m.gap, bitOf m.flags 1, m.flags⟩

/-- The ring counters of a snapshot (R558). -/
def State.ringCounters (s : State) : List Nat := (List.range 64).map (fun r => (tget (fun _ => (0, [])) s.hst.doneCtr r).1)

/-- What this boot's records take from it beside the counters (R547). -/
def State.aside (s : State) : SnapAside :=
  ⟨s.rd KA_OUTAGE.SECONDS, (s.hst.wall.map Prod.fst).getD 0, s.rd MTR_CAL_CV.CV, s.mtr.acFlags, s.mtr.flagQ⟩

/-- A snapshot of the counters (R554), for latch number `latch` with boundary instant `e`. -/
def State.takeSnap (s : State) (kind latch e : Nat) : Snap where
  kind := kind
  gen := (s.jr.newest.map (fun x => x.gen)).getD 0 + 1
  latch := latch
  boot := s.jr.boot
  elapsed := e
  ctrs := s.ringCounters
  ac := s.mtr.ac.map (fun g => g.map (fun a => a.n))
  cells := (s.cells.filter (fun kv => s.metered kv.1)).map (fun kv => (kv.1, snapCell kv.2.mtr))
  aside := s.aside

/-- The VALUES of the records of the AC counters (R541, R547): 0.1 Wh, 0.1 varh, 0.1 VAh, truncated. -/
def acValues (kind : Nat) (tot : List Nat) : List (Nat × Nat) :=
  let f (i : Nat) : Nat × Nat := (6, tot.getD i 0 / 100)
  if kind = 0 then [f 0, f 1, f 6, (8, 0)] else [f 2, f 3, f 4, f 5, (2, 0)]

/-- The VALUES of a port record (R547). -/
def portValues (lease : Nat) (x : SnapCell) : List (Nat × Nat) :=
  [(4, lease), (6, x.eDis), (6, x.eChg), (5, x.qDis / 3600), (5, x.qChg / 3600)]

/-- A record not yet numbered, from a snapshot and what the snapshot's boot brings. -/
def draft (kind flags cell : Nat) (x : Snap) (values : List (Nat × Nat)) : Rec :=
  ⟨kind, flags, cell, 0, x.latch, x.boot, x.aside.outage, x.elapsed, x.aside.wall, x.aside.calCv, values, none, none, false, 0, 0⟩

/-- The lease of a port at an instant: what it was before the first change after it (R567). -/
def CellMtr.leaseAt (m : CellMtr) (e : Nat) : Lease :=
  match m.was.find? (fun x => decide (e < x.1)) with
  | some x => x.2
  | none => m.lease

/-- The records of a latch (R546): AC active, AC reactive, one per enabled pack or PV port. Flags of R548 that hold at the
latch: CAL_PENDING, LEASE_EXHAUSTED, SLEEP; `more` adds flags to all. -/
def State.drafts (s : State) (x : Snap) (more : Nat) : List Rec :=
  let base := more ||| s.rd MTR_STATUS.CAL_PENDING ||| s.rd PWR_STATUS.SLEEP * 512
  let ac := (List.range 2).map (fun k => draft k (s.mtr.acFlags.getD k 0 ||| base) 0xFFFF x (acValues k (x.ac.getD 3 [])))
  let ports := (s.plant.filter s.metered).map (fun c =>
    let m := (s.cell c).mtr
    let l := m.leaseAt x.elapsed
    draft 2 (m.flags ||| base ||| (if l.state = 3 then 256 else 0)) c x
      (portValues l.id (tget (fun _ => SnapCell.none) x.cells c)))
  ac ++ ports

/-- The flags of a latch's records pass to its drafts. An interval that begins in sleep includes it (R548). -/
def State.clearFlags (s : State) : State :=
  let new := s.rd PWR_STATUS.SLEEP * 512
  let s := s.mapCells (fun c x =>
    { x with mtr := { x.mtr with flags := if s.metered c then new else x.mtr.flags, was := [] } })
  { s with mtr := { s.mtr with acFlags := [new, new] } }

/-- The latch of a boundary at instant `b` is formed with every input of ticks that started before it (R545). -/
def State.formLatch (s : State) (b : Nat) : State :=
  let x := s.takeSnap 0 ((s.rd MTR_LATCH.LATCH + 1) % 2 ^ 32) b
  let d := s.drafts x 0
  let s := s.clearFlags
  { s with mtr := { s.mtr with atS5 := false, form := some (x, d), due := some (b + 100000) } }

/-- The means over the latch are shown (R573): RMS in 0.01 A and 0.1 V, P in W, Q in var. -/
def State.showMeans (s : State) : State :=
  let m := s.mtr
  let mean (x : Rat) : Rat := divR x (m.cycles : Rat)
  let s := if m.cycles = 0 then s
    else
      let s : State := (List.range 6).foldl (fun s c =>
        s.wri MTR_MEAS_c.RMS c (showR 81 0 4294967295 (mean (m.rms.getD c 0) * (if c < 3 then 100 else 10))).toNat) s
      (List.range 3).foldl (fun s p =>
        (s.wri MTR_PWR_P_p.P p (unsg 32 (showR 82 (-2147483648) 2147483647 (mean (m.pSum.getD p 0))))).wri MTR_PWR_Q_p.Q p
          (unsg 32 (showR 83 (-2147483648) 2147483647 (mean (m.qSum.getD p 0))))) s
  { s with mtr := { s.mtr with cycles := 0, rms := List.replicate 6 0, pSum := [0, 0, 0], qSum := [0, 0, 0] } }

/-- A nominal line period in ns (R182). -/
def State.nominalPeriod (s : State) : Nat := if s.bit SYNC_PLL_CFG.FNOM then 16666667 else 20000000

/-- The snapshot of a latch or of a power fail begins: its slot's MAGIC is written 0 (R555). -/
def State.beginSnap (s : State) (f : Snap × List Rec) : State :=
  { s with jr := s.jr.openSlot, mtr := { s.mtr with snap := some f } }

/-- METER_LATCH (R545, R546): 100 µs after its boundary the latch is taken and its snapshot begins. In sleep the boundary
follows every N nominal periods. -/
def execMeterLatch (t : Nat) (s : State) : Host.Outcome State Fault Refusal :=
  .next <| s.live fun s =>
    let s := s.moveTo t
    let next := s.mtr.latchAt + s.mtr.n * s.nominalPeriod
    let s := if s.bit PWR_STATUS.SLEEP ∧ s.mtr.form = none ∧ next + 100000 ≤ s.tm.e then
        let s := s.formLatch next
        { s with mtr := { s.mtr with latchAt := next, n := s.rd MTR_CFG.N, calDue := s.mtr.calDue || s.calAsked next } }
      else s
    match s.mtr.form, s.mtr.due with
    | some f, some d =>
      if d ≤ s.tm.e ∧ s.mtr.snap = none ∧ s.pwr.pfAt = none then
        let s := (s.wr MTR_LATCH.LATCH f.1.latch).showMeans
        ({ s with mtr := { s.mtr with form := none, due := none } }).beginSnap f
      else s
    | _, _ => s

/-- A record is made: it takes the next RSEQ and waits for its signature; METER_FLAGs that name it are posted (R546,
R550). -/
def State.makeRec (s : State) (r : Rec) : State :=
  let r := { r with rseq := s.jr.rseq }
  let mine (f : FlagWait) : Bool := f.cell == r.cell && bitOf r.flags (flagBit f.code)
  let now := s.mtr.flagQ.filter mine
  let s := { s with jr := { s.jr with rseq := s.jr.rseq + 1 }
                    mtr := { s.mtr with queue := s.mtr.queue ++ [r], flagQ := s.mtr.flagQ.filter (fun f => !mine f) } }
  now.foldl (fun s f => s.meterFlagAt f.code f.cell f.arg r.rseq f.tick f.elapsed) s

/-- The flags of a record that is not made pass to the next record of the cell and kind (R548), but for the one that says
how the interval ended. -/
def State.giveBack (s : State) (r : Rec) (more : Nat) : State :=
  let f := (r.flags &&& 0x6FF) ||| more
  if r.kind = 2 then s.updMtr r.cell (fun m => { m with flags := m.flags ||| f })
  else { s with mtr := { s.mtr with acFlags := s.mtr.acFlags.set r.kind (s.mtr.acFlags.getD r.kind 0 ||| f) } }

/-- A record is not made: the next record of the cell and kind is MERGED and takes its flags (R546, R548). -/
def State.mergeRec (s : State) (r : Rec) : State := (s.inc MTR_STATUS.MERGES 1).giveBack r 64

/-- The records of a committed latch are made (R546, R556): none when they do not all find a slot (log entry 26). -/
def State.makeRecs (s : State) (l : List Rec) : State :=
  let busy (r : Rec) : Bool := s.mtr.queue.any (fun q => q.cell == r.cell && q.kind == r.kind)
  let make := l.filter (fun r => !busy r)
  let held := (s.jr.recs.filter (fun r => !r.consumed)).length + s.mtr.queue.length
  if 2828 < held + make.length then l.foldl (fun s r => s.mergeRec r) ((s.wr CIS_STATUS.STATE 3).meterFlag 7 0xFFFF 0)
  else l.foldl (fun s r => if busy r then s.mergeRec r else s.makeRec r) s.showCis

/-- The records of a latch of this boot: those of its first one carry OUTAGE_UNKNOWN after a cold start (R565). -/
def State.latchRecs (s : State) (l : List Rec) : State :=
  if s.mtr.unknown then
    ({ s with mtr := { s.mtr with unknown := false } }).makeRecs (l.map (fun (r : Rec) => { r with flags := setBit r.flags 4 }))
  else s.makeRecs l

/-! ### The journal (R553 to R558) -/

/-- A snapshot goes to the slot that does not hold the newest one, and the cells' charge baselines with it (R553, R555). -/
def State.commitSnap (s : State) (x : Snap) : State :=
  let s := { s with jr := s.jr.putSnap x }
  x.cells.foldl (fun s kv => s.setNode kv.1 (tget (fun _ => (0, 0)) s.jr.nodes kv.1).1 kv.2.base) s

/-- The main die is held in reset while PF_WARN holds (R560); the outage counter starts (R644). -/
def State.holdMain (s : State) : State :=
  let s := s.wr KA_STATUS.COUNTING 1
  { s with pwr := { s.pwr with mainOn := false, outMs := 0, outSec := 0 } }

/-- SNAPSHOT_COMMITTED (R546, R555, R560): a latch's records are made; after a power-fail snapshot the main die is held in
reset while PF_WARN holds, and starts again when it does not. -/
def execSnapshotCommitted (s : State) : Host.Outcome State Fault Refusal :=
  .next <| s.live fun s =>
    match s.mtr.snap with
    | none => s
    | some (x, l) =>
      let s := { s with mtr := { s.mtr with snap := none } }
      let s := s.commitSnap x
      if x.kind = 1 then
        let s := { s with pwr := { s.pwr with pfDone := true } }
        if s.bit PWR_STATUS.PF_WARN then s.holdMain else s.powerOn
      else s.latchRecs l

/-- RECORD_SIGNED (R546, R549, R556): the oldest record made is signed, written to its slot and posted. The oldest
consumed slot is reused when every slot is taken. -/
def execRecordSigned (t : Nat) (s : State) : Host.Outcome State Fault Refusal :=
  .next <| s.live fun s =>
    let s := s.moveTo t
    match s.mtr.queue with
    | [] => s
    | r :: q =>
      if s.pwr.pfAt ≠ none then s
      else
        let key := s.bit MTR_STATUS.KEY_OK
        let r := if key then r else { r with flags := setBit r.flags 10 }
        let r := { r with sig := if key then some (Config.ecdsaSign (Config.sha256 (s.recBody r))) else none }
        let r := { r with slot := s.jr.freeSlot, crc := crc32c (s.recBytes r) }
        let s := { s with mtr := { s.mtr with queue := q }, jr := s.jr.putRec r }
        (s.postRecord r).showCis

/-- A device without its journal's stored counters yet: CIS STATE READY or FULL. -/
def State.journalUp (s : State) : Bool := s.rd CIS_STATUS.STATE == 2 || s.rd CIS_STATUS.STATE == 3

/-! ### Leases (R551, R552) -/

/-- The lease that a LEASE makes of the present one (R551). -/
def newLease (old : Lease) (id floor ceiling allow eDis : Nat) : Lease :=
  if id = 0 then ⟨1, 0, floor, ceiling, 0, 0⟩
  else if (old.state = 2 ∨ old.state = 3) ∧ old.id = id then { old with floor := floor, ceiling := ceiling, allow := allow }
  else ⟨2, id, floor, ceiling, allow, eDis⟩

/-- The fields a LEASE compares (R551): the state's kind, LEASE_ID, FLOOR, CEILING, ALLOW. -/
def sameLease (a b : Lease) : Bool :=
  a.id == b.id && a.floor == b.floor && a.ceiling == b.ceiling && a.allow == b.allow &&
  (a.state == b.state || (2 ≤ a.state && 2 ≤ b.state))

/-- LEASE (R505, R506, R551): checked, then committed to the journal; one that changes nothing completes at once. -/
def execLease (h : DescHdr) (cell id floor ceiling allow : Nat) (s : State) : Host.Outcome State Fault Refusal :=
  .next <| s.live fun s => s.runDesc h 0x05 (fun d s =>
    match s.cellField cell with
    | some st => s.complete d st 0 []
    | none =>
      if s.role cell ≠ 1 then s.complete d 2 0 []
      else if ceiling ≤ floor ∨ 10000 < ceiling then s.complete d 4 0 []
      else
        let waiting := (s.mtr.leasing.filter (fun x => x.1 == cell)).map (fun x => x.2.1)
        let old := waiting.getLast?.getD (s.cell cell).mtr.lease
        let new := newLease old (id % 2 ^ 32) floor ceiling (allow % 2 ^ 64) (s.cell cell).mtr.eDis.n
        if sameLease old new then s.complete d 0 0 []
        else { s with mtr := { s.mtr with leasing := s.mtr.leasing ++ [(cell, new, d)] } })

/-- LEASE_COMMITTED (R551, R555): the entry is read back; the lease holds from this tick, E_START is E_DIS of now for a new
lease, a METER_FLAG with code 8 is posted, and the descriptor completes. -/
def execLeaseCommitted (cell : Fin 240) (s : State) : Host.Outcome State Fault Refusal :=
  .next <| s.live fun s =>
    let c := cell.val
    if s.pwr.pfAt ≠ none then s
    else
      match s.mtr.leasing.find? (fun x => x.1 == c) with
      | none => s
      | some x =>
        let m := (s.cell c).mtr
        let new := newLease m.lease x.2.1.id x.2.1.floor x.2.1.ceiling x.2.1.allow m.eDis.n
        let s := { s with
          mtr := { s.mtr with leasing := s.mtr.leasing.erase x }
          jr := s.jr.putLease c new }
        let s := s.updMtr c (fun m => { m with lease := new, was := m.was ++ [(s.tm.e, m.lease)] })
        let s := if new.state = 3 then s else s.flushExhausted c
        (s.meterFlag 8 c new.id).complete x.2.2 0 0 []

/-! ### JOURNAL_READ (R558) -/

/-- The restart block of the snapshot restored at B2. Without one its bytes are open (log entry 1). -/
def State.restartBlock (s : State) : List Byte :=
  match s.mtr.restored with
  | some x => leBytes 4 x.boot ++ leBytes 1 x.kind ++ leBytes 3 0 ++ leBytes 8 x.gen ++ leBytes 8 x.elapsed ++
      x.ctrs.flatMap (leBytes 2) ++ leBytes 8 0
  | none => leBytes 160 (s.freeVal 6)

/-- The records a JOURNAL_READ finds: COUNT records from RSEQ FIRST on, or from the oldest held. -/
def State.recsFrom (s : State) (first count : Nat) : List Rec := (s.jr.recs.filter (fun r => decide (first ≤ r.rseq))).take count

/-- A JOURNAL_READ whose pages are translated writes its bytes and completes. NEXT is open when no record was written
(log entry 1). -/
def State.journalWrite (s : State) (j : Job) (d : Desc) (first count addr : Nat) : State :=
  let s := { s with hst := { s.hst with jobs := s.hst.jobs.filter (fun x => x.id != j.id) } }
  if first = 2 ^ 64 - 1 then
    let next := s.freeVal 5
    ((s.dmaWrite j.found addr s.restartBlock).used).complete d 0 0 [(32, 2, 1), (40, 8, next % 2 ^ 64)]
  else
    let l := s.recsFrom first count
    let next : Nat := match l.getLast? with
      | some r => r.rseq + 1
      | none => s.freeVal 5 % 2 ^ 64
    ((s.dmaWrite j.found addr (l.flatMap s.recBytes)).used).complete d 0 0 [(32, 2, l.length), (40, 8, next)]

/-- JOURNAL_READs in their data phase write. -/
def State.takeJournal (s : State) : State :=
  if s.hst.d3 then s
  else s.hst.jobs.foldl (fun s j =>
    match j.kind, j.phase with
    | .journalRead d first count addr, .data => s.journalWrite j d first count addr
    | _, _ => s) s

/-- JOURNAL_READ (R505, R558): COUNT from 1 to 2,828. -/
def execJournalRead (h : DescHdr) (first count addr : Nat) (s : State) : Host.Outcome State Fault Refusal :=
  .next <| s.live fun s => s.runDesc h 0x0A (fun d s =>
    if count = 0 ∨ 2828 < count then s.complete d 4 0 []
    else (s.access (.journalRead d first (if first = 2 ^ 64 - 1 then 1 else count) addr)).takeJournal)

/-! ### Power fail (R559 to R561, R633) -/

/-- PF_WARN (R394, R560, R561, R567, R633): the safe state; journal writes and signing in progress are abandoned, the flags of
their records go to the power-fail snapshot, and descriptors and
completions stop. Before the journal is READY the main die is held in reset at once. -/
def execPfWarn (t : Nat) (s : State) : Host.Outcome State Fault Refusal :=
  .next <| s.live fun s =>
    let s := s.moveTo t
    let s := s.wr PWR_STATUS.PF_WARN 1
    if !s.journalUp then s.holdMain
    else if s.pwr.pfAt ≠ none then s
    else
      let s := s.safeState SLC_TRIP_LATCH.PF_WARN
      let undo : Bool := match s.mtr.snap with
        | some (x, _) => x.kind == 0
        | none => false
      let s := if undo then s.wr MTR_LATCH.LATCH (s.rd MTR_LATCH.LATCH + 2 ^ 32 - 1) else s
      let dropped := ((s.mtr.snap.map Prod.snd).getD []) ++ ((s.mtr.form.map Prod.snd).getD [])
      let s : State := dropped.foldl (fun s r => s.giveBack r 0) s
      let s : State := s.mtr.queue.foldl (fun s r => s.giveBack r 64) s
      { s with mtr := { s.mtr with snap := none, form := none, due := none, atS5 := false }
               pwr := { s.pwr with pfAt := some s.tm.e, pfFrozen := false, pfDone := false, persistAt := none } }

/-- POWERFAIL_FREEZE (R560): at the first S5 deadline at least 2 ticks and 100 µs after PF_WARN the counters are frozen and
the power-fail snapshot begins; where no tick runs, 100 µs after it. -/
def execPowerfailFreeze (t : Nat) (s : State) : Host.Outcome State Fault Refusal :=
  .next <| s.live fun s =>
    let s := s.moveTo t
    match s.pwr.pfAt with
    | none => s
    | some a =>
      if s.pwr.pfFrozen ∨ s.tm.e < a + max (2 * s.period) 100000 ∨ (s.tm.run ∧ s.tm.phase ≠ 6) then s
      else
        let x := s.takeSnap 1 ((s.rd MTR_LATCH.LATCH + 1) % 2 ^ 32) s.tm.e
        ({ s with pwr := { s.pwr with pfFrozen := true } }).beginSnap (x, [])

/-- PF_WARN_DEASSERT (R560, R633): a main die held in reset starts again at B1; a power-fail sequence that has begun runs to
its commit first. The status bit is the aux die's. -/
def execPfWarnDeassert (t : Nat) (s : State) : Host.Outcome State Fault Refusal :=
  let s := s.moveTo t
  let held := !s.pwr.mainOn && s.bit PWR_STATUS.PF_WARN && s.pwr.railsOk && s.pwr.resetN
  let s := s.wr PWR_STATUS.PF_WARN 0
  .next (if held then s.powerOn else s)

/-! ### Calibration and the port window (R566, R574) -/

/-- MTR_CAL_CTRL.SWAP (R566). -/
def State.calSwap (s : State) : State :=
  if s.bit MTR_CAL_CTRL.PENDING then s else ({ s with mtr := { s.mtr with swapAt := s.tm.e } }).wr MTR_CAL_CTRL.PENDING 1

/-- The registers of the calibration set, as R566 checks them. -/
def calRegs : List Nat :=
  (List.range 6).map (fun c => MTR_CH_CAL_c.GAIN.off c) ++ (List.range 8).map (fun k => MTR_QTY_CAL_k.GAIN.off k) ++
    (List.range 6).map (fun c => MTR_CH_PHASE_c.PHASE.off c)

/-- The calibration set becomes active at the latch boundary (R566): samples after it are corrected with the new set. -/
def State.calApply (s : State) : State :=
  if s.mtr.calDue ∧ !s.mtr.atS5 ∧ s.bit MTR_CAL_CTRL.PENDING then
    let s := s.activateAll [MTR_CH_CAL_c.GAIN, MTR_CH_CAL_c.OFFSET, MTR_QTY_CAL_k.GAIN, MTR_QTY_CAL_k.OFFSET, MTR_CH_PHASE_c.PHASE]
    let s := (s.wr MTR_CAL_CTRL.PENDING 0).wr MTR_CAL_CTRL.ACTIVE (1 - s.rd MTR_CAL_CTRL.ACTIVE)
    let cv := crc32c (calRegs.flatMap (fun o => leBytes 4 o ++ leBytes 4 (s.word (o + 0x8000))))
    let b := s.mtr.latchAt
    let samples := s.mtr.samples.map (fun x => if b < x.1 then (x.1, x.2.1, s.meterValues x.2.1) else x)
    let s := { s.wr MTR_CAL_CV.CV cv with mtr := { s.mtr with calDue := false, samples := samples } }
    s.meterFlag 6 0xFFFF cv
  else s

/-- MTR_CAL_SWAP (R566). -/
def execMtrCalSwap (s : State) : Host.Outcome State Fault Refusal := .next (s.live State.calSwap)

/-- MTR_CAL_SWAP_APPLY (R566). -/
def execMtrCalSwapApply (s : State) : Host.Outcome State Fault Refusal := .next (s.live State.calApply)

/-- The nine data words of the selected cell's counters, as a read of MTR_PORT_DATA_0 takes them (R574). -/
def State.portWords (s : State) : List Nat :=
  let m := (s.cell (s.rd MTR_PORT_SEL.CELL)).mtr
  let e1 := m.eDis.n
  let e2 := m.eChg.n
  let q1 := m.qDis.n / 3600
  let q2 := m.qChg.n / 3600
  [e1 % 2 ^ 32, bits e1 32 16, e2 % 2 ^ 32, bits e2 32 16, q1 % 2 ^ 32, bits q1 32 8, q2 % 2 ^ 32,
    bits q2 32 8 + m.lease.state * 2 ^ 30, m.lease.id]

/-- A read of MTR_PORT_DATA_0 copies the counters into the reading agent's nine words; it gets word 0 (R574, R697). -/
def State.portRead (s : State) (ag : Agent) : State :=
  let w := s.portWords
  ({ s with mtr := { s.mtr with win := s.mtr.win.put ag w } }).emit
    (.readData ag MTR_PORT_DATA_n.W.base (w.getD 0 0))

/-- MTR_PORT_SNAPSHOT_READ (R574, R697). -/
def execMtrPortSnapshotRead (ag : Agent) (s : State) : Host.Outcome State Fault Refusal :=
  .next (s.live fun s => s.portRead ag)

end Sys2Proof.Machine
end

