-- ==== Sys2Proof/Machine/TickCfg.lean ====
section
/-! DEFINITION. The tick configuration: period, deadlines and the period change (01_architecture_and_tick.md, R26, R30,
R40; R350, R353, R483), and the step of O, which renumbers N too (R629, R630). -/
namespace Sys2Proof.Machine
open Reg

/-- The sixth deadline lies at least 100 ns before the end of a period in 0.5 µs units (R30). -/
def State.lastFits (s : State) (d5 half : Nat) : Bool :=
  let t := half * 500
  decide (d5 * 10 + 100 ≤ t) &&
  (match s.tm.newHalf with
   | some h => decide (d5 * 10 + 100 ≤ h * 500)
   | none => true)

/-- Tick-sourced triggers whose DELAY lies at or beyond the period lose EN (R353). -/
def State.trimTriggers (s : State) : State :=
  (List.range 16).foldl (fun s n =>
    if s.biti ADC_TRIG_CFG_t.EN n && s.rdi ADC_TRIG_CFG_t.SRC n == 0 && decide (s.period ≤ s.rdi ADC_TRIG_SEL_t.DELAY n) then
      (s.wri ADC_TRIG_CFG_t.EN n 0).refuse ADC_STATUS.CFG_ERR
    else s) s

/-- A write of CLK_TICK_CFG (R26, R30, R31, R40). A word with the present PERIOD asks for no period change (log entry
29); one with the period in force takes a waiting change back. -/
def State.writeTickCfg (s : State) (v : Nat) : State :=
  let limit := bits v 20 4
  let half := bits v 0 7
  let change := half ≠ s.rd CLK_TICK_CFG.PERIOD
  if !inRange CLK_TICK_CFG.PERIOD.base v ∨ s.rd LINK_CFG.STARVE_TICKS ≤ limit ∨
      (change ∧ (!s.allBlocked ∨ !s.lastFits (s.rdi CLK_TICK_DEADLINE_n.DEADLINE 5) half)) then
    s.refuse CLK_TICK_STATUS.CFG_ERR
  else
    let s := s.putRw CLK_TICK_CFG.PERIOD.base v
    if !change then s
    else if !s.tm.run then ({ s with tm := { s.tm with half := half, newHalf := none } } : State).trimTriggers.foldFitAll
    else
      let wait := half ≠ s.tm.half
      ({ s with tm := { s.tm with newHalf := if wait then some half else none } }).wr CLK_TICK_STATUS.PERIOD_PEND (b2n wait)

/-- CLK_TICK_CFG_WRITE (R26, R30, R40). -/
def execClkTickCfgWrite (value : Nat) (s : State) : Host.Outcome State Fault Refusal :=
  .next (s.live fun s => s.writeTickCfg value)

/-- The deadlines rise strictly, with a new one for stage `n` (R30). -/
def State.deadlinesRise (s : State) (n v : Nat) : Bool :=
  let d (k : Nat) : Nat := if k = n then v else s.rdi CLK_TICK_DEADLINE_n.DEADLINE k
  (List.range 5).all (fun k => decide (d k < d (k + 1)))

/-- A write of CLK_TICK_DEADLINE_n (R30, R32; the S0 rule of R350 and the S1 window of R483). -/
def State.writeDeadline (s : State) (n value : Nat) : State :=
  let v := bits value 0 13
  let d0 := if n = 0 then v else s.rdi CLK_TICK_DEADLINE_n.DEADLINE 0
  let d1 := if n = 1 then v else s.rdi CLK_TICK_DEADLINE_n.DEADLINE 1
  let d5 := if n = 5 then v else s.rdi CLK_TICK_DEADLINE_n.DEADLINE 5
  let narrow := (n = 0 ∨ n = 1) ∧ s.tri.imageOk = true ∧ (d1 - d0) * 10 < imgTickCycles s.activeImage
  if !s.deadlinesRise n v ∨ !s.lastFits d5 s.tm.half ∨ narrow ∨
      (n = 0 ∧ v * 10 < s.rd ADC_CTL_CFG.DELAY + 430) then s.refuse CLK_TICK_STATUS.CFG_ERR
  else (s.wri CLK_TICK_DEADLINE_n.DEADLINE n v).foldFitAll

/-- CLK_TICK_DEADLINE_WRITE (R30, R350, R483). -/
def execClkTickDeadlineWrite (n : Fin 6) (value : Nat) (s : State) : Host.Outcome State Fault Refusal :=
  .next (s.live fun s => s.writeDeadline n.val value)

/-- Tick numbers `d` apart: what the law keeps by tick number and by dither period follows. The periods in progress on both
sides are discarded (R630; log entry 32). -/
def Law.renumber (l : Law) (old new : Int) : Law :=
  let d := new - old
  let dp := periodOf new - periodOf old
  { l with
    pv := l.pv.map (fun (kv : Nat × PvSt) => (kv.1, { kv.2 with
      next := kv.2.next.map (fun y => (y.1 + dp, y.2))
      bad := periodOf new :: kv.2.bad.map (fun y => y + dp)
      curtIn := kv.2.curtIn.map (fun y => y + dp)
      scan := kv.2.scan.map (fun k => { k with
        start := k.start + d, period := k.period + dp, pts := k.pts.map (fun p => (p.1, p.2.1 + d, p.2.2 + d)) }) }))
    badPeriods := periodOf new :: l.badPeriods.map (fun y => y + dp)
    estimated := l.estimated + dp
    mir := { l.mir with chip := (new - 1) / (chipTicks l.mir.code.2.1 : Int), restart := true } }

/-- N is `new` from this boundary on. -/
def State.renumber (s : State) (new : Int) : State :=
  let old := s.tm.n
  let d := new - old
  if d = 0 then s
  else
    let s : State := { s with
      tm := { s.tm with n := new }
      law := s.law.renumber old new
      lawC := s.lawC.renumber old new
      rings := s.rings.map (fun (r : RingSt) => { r with jrs := r.jrs.map (fun (j : Int × Nat) => (j.1 + d, j.2)) }) }
    s.mapCells (fun _ x => { x with port := { x.port with powers := x.port.powers.map (fun (y : Int × Int) => (y.1 + d, y.2)) } })

/-- The waiting period takes effect at a boundary whose S is a multiple of it too; N is renumbered (R26, R353). -/
def State.periodApply (s : State) : State :=
  match s.tm.newHalf with
  | none => s
  | some h =>
    if s.stime % ((h * 500 : Nat) : Int) = 0 ∧ s.stime % (s.period : Int) = 0 then
      let s := { s with tm := { s.tm with half := h, newHalf := none } }
      let s := s.renumber (s.stime / ((h * 500 : Nat) : Int))
      (s.wr CLK_TICK_STATUS.PERIOD_PEND 0).trimTriggers.foldFitAll
    else s

/-- PERIOD_CHANGE (R26): at the change boundary. -/
def execPeriodChange (t : Nat) (s : State) : Host.Outcome State Fault Refusal :=
  .next <| s.live fun s =>
    let s := s.moveTo t
    if s.tm.run ∧ s.tm.phase = 0 ∧ s.tm.e = s.tm.start then s.periodApply else s

/-- The mirage windows are cleared and pend is 0 (R217, R630). -/
def State.clearProbe (s : State) : State :=
  let g (l : Law) : Law := { l with mir := { l.mir with
    win := [], last := none, pend := 0, restart := true, n := 0, sv := Cx.zero, si := Cx.zero } }
  ((({ s with law := g s.law, lawC := g s.lawC }).wr MIR_STATUS.FILL 0).wr MIR_STATUS.FULL 0).wr MIR_STATUS.PEND 0

/-- PPS_STEP (R629, R630): at the boundary O is stepped by whole periods, N renumbered by −k, and the residue slewed. -/
def execPpsStep (t : Nat) (s : State) : Host.Outcome State Fault Refusal :=
  .next <| s.live fun s =>
    let s := s.moveTo t
    match s.clk.stepPend with
    | none => s
    | some e =>
      if s.tm.run ∧ (s.tm.phase ≠ 0 ∨ s.tm.e ≠ s.tm.start) then s
      else
        let p : Int := (s.period : Int)
        let k := nearR 84 ((e : Rat) / (s.period : Rat))
        let r : Int := e - k * p
        let s := s.renumber (s.tm.n - k)
        let left : Rat := -(r : Rat)
        let s := { s with
          tm := { s.tm with o := s.tm.o - ((k * p : Int) : Rat) }
          clk := { s.clk with
            stepPend := none
            slew := if r = 0 then 0 else if r < 0 then 1 / 10000 else -1 / 10000
            slewLeft := if r = 0 then none else some left } }
        ((s.wr SYNC_PPS_STATUS.ALIGNED 0).inc SYNC_PPS_STATUS.STEPS 1 |>.clearProbe).clockEvent 12 8 k

end Sys2Proof.Machine
end

