-- ==== Sys2Proof/Machine/Bringup.lean ====
section
/-! DEFINITION. Bring-up from B1, the triad's boot and restart, sleep, orderly shutdown, the oasis tick and the life cycle
(17_clocks_power_lifecycle.md, R634 to R652; R441, R476, R483, R557, R561 to R565). -/
namespace Sys2Proof.Machine
open Reg

/-! ### The boot image (R636, R637) -/

/-- The bytes of an image slot. -/
def State.slotImage (s : State) (k : Nat) : List Byte := if k = 0 then s.pwr.flash.slot0 else s.pwr.flash.slot1

/-- The checks a slot fails: bit 0 header, 1 CRC, 2 signature (R637, R655). A bad boot header fails every slot. -/
def State.slotFails (s : State) (k : Nat) : Nat :=
  let l := s.slotImage k
  if !s.pwr.flash.headerGood ∨ !imgHeaderOk l then 1
  else if !imgCrcOk l then 2
  else if !s.imgSigOk l then 4
  else 0

/-- The slot that boots, SELECT first: the slot and whether it is the fallback. -/
def State.bootSlot (s : State) : Option (Nat × Bool) :=
  let a := s.pwr.flash.select
  let b := 1 - a
  if s.slotFails a = 0 then some (a, false) else if s.slotFails b = 0 then some (b, true) else none

/-- The mode that members held leave (R458, R477): 1 TRIPLEX, 3 DUPLEX, 4 FAILED. -/
def bootMode (held : Nat) : Nat :=
  let n := b2n (bitOf held 0) + b2n (bitOf held 1) + b2n (bitOf held 2)
  if n = 0 then 1 else if n = 1 then 3 else 4

/-- The S1 window covers the active image's TICK_CYCLES (R483). -/
def State.windowFits (s : State) : Bool := decide (imgTickCycles s.activeImage ≤ s.s1Window)

/-- An image is loaded into the active bank of every running member (R461, R476). -/
def State.loadBank (s : State) (img : List Byte) : State :=
  if s.rd TRI_STATUS.ACTIVE_BANK = 0 then { s with tri := { s.tri with bank0 := memStore [] 0 img } }
  else { s with tri := { s.tri with bank1 := memStore [] 0 img } }

/-- The boot image is authenticated, loaded into every running member, and its RESET entry starts (R461, R476, R483,
R637, R701). False: no slot passed. -/
def State.bootImage (s : State) : State × Bool :=
  match s.bootSlot with
  | none => ((s.powerEvent 6 (s.slotFails 0 ||| s.slotFails 1)).wr TRI_STATUS.MODE 4, false)
  | some (k, back) =>
    let img := s.slotImage k
    let s := s.loadBank img
    let s := { s with
      tri := { s.tri with
        imageOk := true
        bgDropped := true
        backBank := { CoreBank.zero with pc := imgWord img 12 }
        tickBank := CoreBank.zero }
      pwr := { s.pwr with tready := false } }
    let s := (s.wr PWR_BOOT_CTRL.SELECT s.pwr.flash.select).wr PWR_BOOT_CTRL.BOOTED k
    let s := (((s.wr TRI_FW_STATUS.STAGED 0).wr TRI_FW_STATUS.PENDING 0).wr TRI_FW_STATUS.STAGING 0).wr TRI_FW_STATUS.RESULT 0
    let s := (s.wr TRI_FW_VER_ACTIVE.VERSION (imgWord img 8)).wr TRI_FW_VER_SHADOW.VERSION 0
    let mode := bootMode (s.rd TRI_STATUS.HELD)
    let s := (((s.wr TRI_STATUS.MODE mode).wr TRI_STATUS.FENCED 3).wr TRI_STATUS.RSTEP 0).moveLead
    let s := s.powerEvent 5 (k + (if back then 2 else 0))
    let s :=
      if s.windowFits then s
      else
        let off := CLK_TICK_DEADLINE_n.DEADLINE.off 1
        ((s.refuse CLK_TICK_STATUS.CFG_ERR).post 1 [(24, 4, off), (28, 4, s.word off), (32, 1, s.freeVal 8 % 256)]).used
    (s, mode != 4)

/-! ### What B2 restores -/

/-- Write the RWS fields of the register at an offset. -/
def State.putRws (s : State) (off v : Nat) : State :=
  match regAt off with
  | some r => s.putFields ((off - r.base) / 4) v (r.fields.filter (fun x => x.acc == .rws))
  | none => s

/-- The newest good commissioning block (R639). -/
def newestBlock (f : Flash) : Option CommBlock :=
  match f.blockA.good, f.blockB.good with
  | true, true => some (if f.blockA.gen < f.blockB.gen then f.blockB else f.blockA)
  | true, false => some f.blockA
  | false, true => some f.blockB
  | false, false => none

/-- The commissioning block is restored, an input that shows demand acts (R424), and SAFE_CV is formed anew (R441, R639, R702). With no good block there is a confirmed
value to differ from only in COMMISSIONED (log entry 33). -/
def State.restoreComm (s : State) : State :=
  let b := newestBlock s.pwr.flash
  let s : State := match b with
    | some x => (List.range 8).foldl (fun (y : State) n => y.inputSet n false) (x.regs.foldl (fun (y : State) kv => y.putRws kv.1 kv.2) s)
    | none => s
  let cv := s.safeCv
  let s := (s.wr SAFE_CV.CV cv).wr SAFE_STATUS.CV_BUSY 0
  match b with
  | some x => if cv = x.confirm then (s.wr SAFE_STATUS.CONFIRMED 1).showSil else s.wr SAFE_STATUS.CV_ERR 1
  | none => if s.rd LC_STATE.STATE = 3 then s.wr SAFE_STATUS.CV_ERR 1 else s

/-- A cell's counters from a snapshot (R554, R557, R562): a gap is open from its last CHARGE on. -/
def restoreCell (kind : Nat) (x : SnapCell) (serial : Nat) (m : CellMtr) : CellMtr :=
  { m with
    eDis := ⟨x.eDis, 0⟩, eChg := ⟨x.eChg, 0⟩, qDis := ⟨x.qDis, 0⟩, qChg := ⟨x.qChg, 0⟩
    base := if serial = 0 then none else some x.base
    gap := serial != 0
    restart := if serial = 0 then 0 else if kind = 1 then 1 else 2
    flags := if kind = 0 ∧ x.estim then 2 else 0 }

/-- Counters, latch number and per-cell values continue from the restored snapshot (R557, R562, R563). -/
def State.restoreSnap (s : State) (x : Snap) : State :=
  let s := x.cells.foldl (fun s kv =>
    let serial := (tget (fun _ => (0, 0)) s.jr.nodes kv.1).1
    s.updMtr kv.1 (restoreCell x.kind kv.2 serial)) s
  let s := { s with mtr := { s.mtr with
    ac := x.ac.map (fun (g : List Nat) => g.map (fun n => (⟨n, 0⟩ : Ctr))), restored := some x, gapSum := if x.kind = 0 then some 0 else none } }
  ((s.wr MTR_LATCH.LATCH x.latch).wr CIS_STATUS.PF_COMMIT (b2n (x.kind == 1))).bookAcGap.showGap

/-- The leases of the journal's newest entries hold (R557); whether each is open follows from the restored counters
(R552). -/
def State.restoreLeases (s : State) : State :=
  (List.range 240).foldl (fun s c =>
    let x := s.jr.lease c
    if x.gen = 0 then s
    else s.updMtr c (fun m => { m with lease := if x.lease.id = 0 then x.lease
      else { x.lease with state := if leaseOpen x.lease m.eDis.n then 2 else 3 } })) s

/-- The records of a power-fail snapshot, which becomes a latch after the restart (R561): POWER_LOSS set beside the flags of
the interval, values as the snapshot holds them; none when the journal holds records of that latch already (log entry
34). METER_FLAGs that waited for a record wait for these. -/
def State.powerLossRecs (s : State) (x : Snap) : State :=
  if x.kind ≠ 1 ∨ s.jr.recs.any (fun r => r.latch == x.latch) then s
  else
    let ac := (List.range 2).map (fun (k : Nat) =>
      draft k (x.aside.acFlags.getD k 0 ||| 4) 0xFFFF x (acValues k (x.ac.getD 3 [])))
    let ports := x.cells.map (fun kv =>
      let l := (s.cell kv.1).mtr.lease
      draft 2 (kv.2.flags ||| 4 ||| (if l.state = 3 then 256 else 0)) kv.1 x (portValues l.id kv.2))
    ({ s with mtr := { s.mtr with flagQ := x.aside.waiting ++ s.mtr.flagQ } }).makeRecs (ac ++ ports)

/-- The AC flow test (R564): KA_CT_ACC in mA·h against AC_LIM in 0.01 A·h; none after a cold start (R565). -/
def State.acFlowTest (s : State) (cold : Bool) : State :=
  let acc := s.rd KA_CT_ACC.ACC
  if s.bit KA_CT_CFG.EN && !cold && decide (s.rd MTR_FLOW_CFG.AC_LIM * 10 < acc) then
    { s with mtr := { s.mtr with acFlags := s.mtr.acFlags.map (fun f => setBit f 5) } }.meterFlagLater 1 0xFFFF acc
  else s

/-- The journal is restored at B2, or formatted (R557, R561 to R565, R644, R650). False: STATE FAILED. -/
def State.restoreJournal (s : State) (b : BootRun) : State × Bool :=
  let lc := s.rd LC_STATE.STATE
  let back := s.jr.readBack (fun r => crc32c (s.recBytes r)) b.bad
  let held := b.header && back.formatted
  if !b.journal || !s.jr.present || (!held && lc != 1 && lc != 2) then (s.wr CIS_STATUS.STATE 4, false)
  else
    let jr : Journal := if held then back else { Journal.blank with formatted := true }
    let jr : Journal := { jr with
      boot := (jr.boot + 1) % 2 ^ 32
      recs := jr.recs.map (fun r => if r.consumed then r else { r with posted := none }) }
    let cold := s.bit KA_STATUS.COLD
    let s := { s with jr := jr, mtr := { s.mtr with unknown := cold } }
    let s := (s.wr CIS_BOOT.BOOT jr.boot).wr KA_OUTAGE.SECONDS (if cold then 0xFFFFFFFF else min s.pwr.outSec 0xFFFFFFFE)
    let s := jr.nodes.foldl (fun s kv => s.updCell kv.1 (fun x => { x with svc := { x.svc with serial := some kv.2.1 } })) s
    let s := match jr.newest with
      | some x => s.restoreSnap x
      | none => s
    let s := s.restoreLeases.repostFlags
    let s := (s.wr CIS_STATUS.STATE 2).showCis
    let s := if cold then (s.wr CIS_STATUS.OUTAGE_UNKNOWN 1).meterFlagLater 2 0xFFFF 0 else s
    let s := match jr.newest with
      | some x => s.powerLossRecs x
      | none => s
    (s.acFlowTest cold, true)

/-- The BIST result used at B2 (R646, R648, R649): the stored one, or that of the start-up BIST, which leaves out the host
interface. True: no essential block failed. -/
def State.useBist (s : State) (b : BootRun) : State × Bool :=
  let stored := s.bit BIST_STATUS.VALID
  let mask := if stored then s.rd BIST_STATUS.FAIL else b.bistFail % 2048
  let s := ((s.wr BIST_STATUS.VALID 0).wr BIST_STATUS.STARTUP (b2n !stored)).wr BIST_STATUS.FAIL mask
  let bad := b.essential || decide (8 ≤ mask)
  let s := { s with pwr := { s.pwr with essentialFail := bad } }
  ((s.wr TRI_STATUS.HELD (mask % 8)).powerEvent 7 (mask + (if stored then 0 else 65536)), !bad)

/-- The work between B1 and the RESET entry (R634): BIST result, commissioning block, the key's presence (R569), journal, boot image. A condition
that fails leaves the device at B2 in the safe state (R635). -/
def State.bootUp (s : State) (b : BootRun) : State :=
  let s := { s with pwr := { s.pwr with flash := b.flash } }
  let (s, ok1) := s.useBist b
  let s := s.restoreComm.wr MTR_STATUS.KEY_OK (s.rd LC_STATE.KEY)
  let (s, ok2) := s.restoreJournal b
  let (s, ok3) := s.bootImage
  if ok1 && ok2 && ok3 then s
  else { s with pwr := { s.pwr with bootFail := true } }.setStage 2

/-! ### The stages (R634, R635) -/

/-- Tick boundaries run from the next whole period of S on; no tick counts as missed before the first. -/
def State.startTick (s : State) : State :=
  { s with tm := { s.tm with
      run := true, phase := 6, start := s.tm.e, n := s.stime / (s.period : Int), s1run := false, tended := true
      overran := false, abandoned := false, launchOver := false, repeated := false, missed := 0 } }

/-- The life-cycle state lets the device pass B2 (R650). -/
def State.lifeAllows (s : State) : Bool :=
  s.rd LC_STATE.STATE == 1 || s.rd LC_STATE.STATE == 2 || s.rd LC_STATE.STATE == 3

/-- The conditions of B3, B4 and B5 (R634, R483, R650). -/
def State.stageOk (s : State) (n : Nat) : Bool :=
  let base := s.lifeAllows && s.windowFits && s.pwr.tready
  let full := s.ringsOn.all (fun r => s.ringState r == 4 || s.ringState r == 5) && !s.calPending
  if n = 3 then base && s.ringsOn.all (fun r => s.ringState r == 2)
  else if n = 4 then base && full
  else base && full && (s.clk.moved || (!s.bit CLK_REF_CFG.REFA_EN && !s.bit CLK_REF_CFG.REFB_EN)) &&
    (!s.bit SYNC_CFG.EN || s.bit SYNC_PPS_STATUS.ALIGNED)

/-- B4 is entered: after a wake, descriptors run again (R501, R641). -/
def State.enterB4 (s : State) : State := { s with pwr := { s.pwr with waking := false } }.setStage 4

/-- B5 is entered: CAL_PENDING ends, and the records of the interval carry it (R548, R634). -/
def State.enterB5 (s : State) : State :=
  let s := (s.mapCells (fun _ x => { x with mtr := { x.mtr with flags := setBit x.mtr.flags 0 } })).wr MTR_STATUS.CAL_PENDING 0
  { s with mtr := { s.mtr with acFlags := s.mtr.acFlags.map (fun f => setBit f 0) } }.setStage 5

/-- BRINGUP_STAGE (R634, R635). At B1 the first one brings what the boot finds; the stage rises to B2 once tready has been
executed. After a triad restart it rises directly to the highest stage whose conditions hold. -/
def execBringupStage (boot : Option BootRun) (t : Nat) (s : State) : Host.Outcome State Fault Refusal :=
  .next <| s.live fun s =>
    let s := s.moveTo t
    let st := s.stage
    if s.pwr.bootFail ∨ s.pwr.restart then s
    else if st = 1 then
      if s.tri.imageOk then (if s.pwr.tready then s.setStage 2 else s)
      else match boot with
        | some b => s.bootUp b
        | none => s
    else if st = 2 then
      if s.tm.run then
        if s.stageOk 5 then (s.enterB4).enterB5 else if s.stageOk 4 then s.dropForming.enterB4
        else if s.stageOk 3 then s.dropForming.setStage 3 else s
      else if s.stageOk 3 then s.startTick.setStage 3 else s
    else if st = 3 then
      if s.tm.run && !s.bit PWR_STATUS.SLEEP && !s.pwr.wakePend && s.stageOk 4 then s.enterB4 else s
    else if st = 4 then (if s.stageOk 5 then s.enterB5 else s)
    else s

/-! ### Triad restart (R476) -/

/-- Descriptors of the host that are in flight and have no completion waiting (R523). -/
def State.inFlight (s : State) : List Desc :=
  (s.hst.jobs.filter (fun j => j.kind.own)).filterMap (fun j => j.kind.desc) ++ s.hst.bufs.map (fun b => b.d) ++ s.tri.swapDesc ++
    (match s.tri.stagePend with
     | some (d, _) => [d]
     | none => []) ++
    s.slc.release ++ s.sp.host.map (fun x => x.d) ++ s.hst.waits.map Wait.desc ++ s.mtr.leasing.map (fun x => x.2.2) ++
    s.cells.flatMap (fun kv => kv.2.svc.acts.map Prod.snd)

/-- Descriptors in flight are ended, those that wait for tend included; they complete after the restart (R523). -/
def State.abortFlight (s : State) : State :=
  let late := (s.hst.atTend ++ s.hst.atNext).map (fun c => (⟨c.ring, c.cring, c.index, c.opcode, c.tag, c.epoch⟩ : Desc))
  let s := { s with
    hst := { s.hst with
      jobs := s.hst.jobs.filter (fun j => j.kind.desc == none), bufs := [], atTend := [], atNext := [], waits := []
      aborted := s.hst.aborted ++ s.inFlight ++ late }
    tri := { s.tri with swapDesc := [], stagePend := none }
    slc := { s.slc with release := [] }
    sp := { s.sp with host := [] }
    mtr := { s.mtr with leasing := [] } }
  s.mapCells (fun _ x => { x with svc := { x.svc with acts := [], todo := 0 } })

/-- TRI_CTRL.RESTART (R476, R486): accepted while a converter block or the safe state is in force, from B2 on; refused, one
CONFIG_REFUSED record. The stage is held at B2 until tready (R635). -/
def State.restartTriad (s : State) (ag : Agent) : State :=
  if s.rd SLC_BLOCK_STATUS.SCOPE < 2 ∨ s.stage < 2 then s.configRefused TRI_CTRL.RESTART.base (2 ^ 31) ag
  else
    let s := (if s.tm.s1run then s.dropLaw else s).breakTimes
    let s := { s with tri := { s.tri with imageOk := false, swapTick := false, revert := false }, pwr := { s.pwr with restart := true } }
    let s := s.abortFlight
    let s := if s.stage = 2 then s else ((s.wr MTR_STATUS.CAL_PENDING 1).setStage 2).showScan
    let (s, ok) := s.bootImage
    if ok then s else { s with pwr := { s.pwr with bootFail := true } }

/-- TRI_RESTART (R476): the host writes TRI_CTRL.RESTART. -/
def execTriRestart (t : Nat) (s : State) : Host.Outcome State Fault Refusal :=
  .next (s.live fun s => (s.moveTo t).restartTriad .host)

/-! ### Sleep (R640) -/

/-- PWR_CTRL.SLEEP (R640, R371): refused with CFG_ERR, or the rings go to wadi mode, the queues lose their contents and the
tick stops at the next boundary. -/
def State.askSleep (s : State) : State :=
  if !s.allBlocked ∨ s.stage < 4 ∨ s.bit TRI_FW_STATUS.PENDING ∨ s.bit PWR_BOOT_CTRL.BUSY then s.refuse PWR_STATUS.CFG_ERR
  else
    let s := s.ringsOn.foldl (fun s r => s.toWadi r) s
    { s with pwr := { s.pwr with sleepPend := true } }

/-- SLEEP (R640). -/
def execSleep (t : Nat) (s : State) : Host.Outcome State Fault Refusal := .next (s.live fun s => (s.moveTo t).askSleep)

/-- The boundary at which the tick stops (R640, R371, R548, R704). -/
def State.enterSleep (s : State) : State :=
  let s := (List.range 240).foldl (fun s c => s.stepTick c) s
  let s := s.mapCells (fun _ x => { x with mtr := { x.mtr with flags := setBit x.mtr.flags 9 } })
  let s := (List.range 8).foldl (fun s q =>
    let s := s.setQueue q (QSt.empty s.tm.e)
    if s.qstate q = 0 then s else s.wri ADC_Q_STATUS_q.STATE q (if s.rdi ADC_Q_CFG_q.MODE q = 2 then 2 else 1)) s
  let s := { s with
    tm := { s.tm with run := false, phase := 6, headroom := [0, 0, 0, 0] }
    pwr := { s.pwr with sleepPend := false }
    adc := { s.adc with pair := [0, 0, 0], sum := 0 }
    mtr := { s.mtr with acFlags := s.mtr.acFlags.map (fun f => setBit f 9), samples := [], cycAt := none } }
  let s := s.breakTimes.dropForming
  let s := ((s.wr PWR_STATUS.SLEEP 1).wr HOST_STATUS.SLEEP 1).wr MTR_STATUS.CAL_PENDING 1
  ((s.powerEvent 2 0).setStage 3).showScan

/-- The boundary at which the tick restarts after a wake (R641): /WK/ on every enabled ring; join times go on from
here (R332); latches count whole cycles from here (log entry 35). -/
def State.leaveSleep (s : State) : State :=
  let s := s.startTick
  let s := { s with
    pwr := { s.pwr with wakePend := false }
    mtr := { s.mtr with count := (s.tm.e - s.mtr.latchAt) / s.nominalPeriod } }
  let s := s.mapCells (fun _ x => { x with svc := { x.svc with preAt := s.tm.e } })
  s.ringsOn.foldl (fun s r => s.startShift r) s

/-! ### Orderly shutdown (R647) -/

/-- A latch is taken at once (R647): one still waiting for its 100 µs is covered by it. -/
def State.latchNow (s : State) : State :=
  let s : State := match s.mtr.form with
    | some (_, l) => l.foldl (fun (x : State) r => x.mergeRec r) s
    | none => s
  let s := s.formLatch s.tm.e
  match s.mtr.form, s.mtr.snap with
  | some f, none =>
    let s := (s.wr MTR_LATCH.LATCH f.1.latch).showMeans
    ({ s with mtr := { s.mtr with form := none, due := none } }).beginSnap f
  | _, _ => { s with mtr := { s.mtr with due := some s.tm.e } }

/-- PWR_CTRL.SHUTDOWN (R647): only in the safe state. -/
def State.askShutdown (s : State) : State :=
  if s.rd SLC_BLOCK_STATUS.SCOPE ≠ 3 then s.refuse PWR_STATUS.CFG_ERR
  else if s.pwr.shutdown then s
  else
    let s := { s with pwr := { s.pwr with shutdown := true } }
    if s.journalUp then s.latchNow else s

/-- SHUTDOWN (R647). -/
def execShutdown (t : Nat) (s : State) : Host.Outcome State Fault Refusal := .next (s.live fun s => (s.moveTo t).askShutdown)

/-- SHUTDOWN_DONE (R647, R649): once the snapshot has committed and the BIST has run; a PF_WARN abandons it. -/
def execShutdownDone (fail : Nat) (t : Nat) (s : State) : Host.Outcome State Fault Refusal :=
  .next <| s.live fun s =>
    let s := s.moveTo t
    if !s.pwr.shutdown ∨ s.mtr.snap ≠ none ∨ s.mtr.form ≠ none ∨ s.pwr.pfAt ≠ none ∨ s.bit PWR_STATUS.OFF_READY then s
    else ((s.wr BIST_STATUS.VALID 1).wr BIST_STATUS.FAIL fail).wr PWR_STATUS.OFF_READY 1

/-! ### The oasis tick (R642 to R645, R564) -/

/-- The oasis domain's supply falls below 0.30 V: every keep-alive field is lost (R642). -/
def State.oasisLost (s : State) : State :=
  let regs := s.regs.filter (fun kv => kv.1 / 32 / 0x10000 != 6 && kv.1 != BIST_STATUS.VALID.key 0 && kv.1 != BIST_STATUS.FAIL.key 0)
  { s with regs := regs, pwr := { s.pwr with oasis := false, outMs := 0, outSec := 0, ctSum := 0, oscTrim := 0 } }

/-- VDDIO_33 is present or absent from now on: without it the breaker outputs read 0 and the aux die is in reset (R679,
R685; log entry 118). -/
def State.supplyIs (s : State) (vddio : Bool) : State :=
  let was := s.pwr.vddio
  let s := { s with pwr := { s.pwr with vddio := vddio } }
  if was = vddio then s else (if vddio then s else s.auxDead).showBrk

/-- The outage counter starts when VDDIO_33 reads absent (R644). -/
def State.outageTick (s : State) (o : OasisIn) : State :=
  if !o.vddio ∧ !s.bit KA_STATUS.COUNTING then
    let s := s.wr KA_STATUS.COUNTING 1
    { s with pwr := { s.pwr with outMs := 0, outSec := 0 } }
  else if s.bit KA_STATUS.COUNTING then
    let ms := s.pwr.outMs + 1
    { s with pwr := { s.pwr with outMs := if ms = 1000 then 0 else ms, outSec := if ms = 1000 then s.pwr.outSec + 1 else s.pwr.outSec } }
  else s

/-- The current-only monitor sums KA_CT while the main supply, VDDIO_33 and VDD_CORE (R643), is off; the onset of each loss
clears the sum (R564, R576). FS is the primary current in A at 1.0 V on KA_CT. -/
def State.ctTick (s : State) (o : OasisIn) : State :=
  let on := o.vddio && o.core
  let onset := s.pwr.supply && !on
  let s := { s with pwr := { s.pwr with supply := on } }
  let s := if onset then ({ s with pwr := { s.pwr with ctSum := 0 } }).wr KA_CT_ACC.ACC 0 else s
  if s.bit KA_CT_CFG.EN && !on then
    let sum := s.pwr.ctSum + o.ct.natAbs * s.rd KA_CT_CFG.FS / 1000
    { s with pwr := { s.pwr with ctSum := sum } }.wr KA_CT_ACC.ACC (min (sum / 3600000) (2 ^ 32 - 1))
  else s

/-- OASIS_TICK (R642 to R645): KA_PGOOD rises at 3.0 V and falls below 2.2 V, as the tick's sample of it says between
these. -/
def execOasisTick (o : OasisIn) (s : State) : Host.Outcome State Fault Refusal :=
  .next <|
    if !s.pwr.oasis then s
    else
      let s := s.supplyIs o.vddio
      if !o.vddio ∧ o.vin < 300 then s.oasisLost
      else
        let pg := if 3000 ≤ o.vin then true else if o.vin < 2200 then false else s.bit KA_STATUS.PGOOD
        let s := ((s.wr KA_STATUS.VIN (min o.vin 65535)).wr KA_STATUS.LOW (b2n (decide (o.vin < 400)))).wr KA_STATUS.PGOOD (b2n pg)
        (s.outageTick o).ctTick o

/-! ### Life cycle (R650 to R652) -/

/-- The life-cycle state changes, with its LIFECYCLE record (R650). -/
def State.setLife (s : State) (new : Nat) : State :=
  let old := s.rd LC_STATE.STATE
  ((s.wr LC_STATE.STATE new).showSil).post 0x72 [(24, 1, old), (25, 1, new)]

/-- A type-2 input demands now (R651). -/
def State.doorDemands (s : State) : Bool :=
  (List.range 8).any (fun n => s.rdi SAFE_IN_CFG_n.TYPE n == 2 && s.inputDemand n)

/-- The transition to RETURNED (R652, R653): the device key and the generator's state are erased, then the state is
fused; the public key reads 0. -/
def State.returnPart (s : State) : State :=
  let s := { s with pwr := { s.pwr with rngErased := true } }.wr LC_STATE.KEY 0
  let s := s.wr MTR_STATUS.KEY_OK 0
  ((List.range 16).foldl (fun s n => s.wri ID_PUBKEY_n.KEY n 0) s).setLife 4

/-- A write of LC_CTRL (R651, R670). FWKEY_FUSE asks for the fuse alone. BLANK leaves by manufacturing test access, which a
register write is not. -/
def State.writeLife (s : State) (v : Nat) : State :=
  let tgt := bits v 29 3
  let st := s.rd LC_STATE.STATE
  let safe := s.rd SLC_BLOCK_STATUS.SCOPE == 3
  if bitOf v 28 then
    if (st = 1 ∨ st = 2) ∧ s.pwr.fused = none then
      ({ s with pwr := { s.pwr with fused := some (Config.sha256 s.pwr.flash.pubKey) } }).wr LC_STATE.FWKEY 1
    else s.refuse PWR_STATUS.CFG_ERR
  else if bits v 0 16 ≠ 0x4C00 + tgt then s.refuse PWR_STATUS.CFG_ERR
  else if st = 1 ∧ tgt = 2 then s.setLife 2
  else if st = 2 ∧ tgt = 3 ∧ s.bit SAFE_STATUS.CONFIRMED ∧ s.pwr.fused ≠ none ∧ s.bit LC_STATE.KEY ∧
      s.rd CIS_STATUS.STATE = 2 ∧ s.allBlocked then ((s.setLife 3).writeCommBlock 3).showSil
  else if st = 3 ∧ tgt = 2 ∧ safe ∧ s.doorDemands ∧ 0 < s.rd LC_STATE.RETURNS_LEFT then
    (((s.wr SAFE_STATUS.CONFIRMED 0).wr LC_STATE.RETURNS_LEFT (s.rd LC_STATE.RETURNS_LEFT - 1)).setLife 2).showSil
  else if (st = 1 ∨ st = 2 ∨ st = 3) ∧ tgt = 4 ∧ safe then s.returnPart
  else s.refuse PWR_STATUS.CFG_ERR

/-- LC_TRANSITION (R651): one write to LC_CTRL, by any agent. -/
def execLcTransition (value : Nat) (_ag : Agent) (t : Nat) (s : State) : Host.Outcome State Fault Refusal :=
  .next (s.live fun s => (s.moveTo t).writeLife value)

end Sys2Proof.Machine
end

