-- ==== Sys2Proof/Machine/CellCfg.lean ====
section
/-! DEFINITION. Writes of a cell's configuration (02_cell_strings.md, R54 to R59; R228, R543). -/
namespace Sys2Proof.Machine
open Reg

/-- The cell's configuration may be written (R59): disabled, or in NONE, BYPASSED, FAULTED or LOST. -/
def State.cfgOpen (s : State) (c : Nat) : Bool := !s.enabled c || [0, 7, 8, 9].contains (s.sstate c)

/-- A write of a register of an open cell is refused with an event that names it (R59). -/
def State.refuseCell (s : State) (off v : Nat) (ag : Agent) : State :=
  (s.refuse HGS_RATING_STATUS.CFG_ERR).configRefused off v ag

/-- The values of a HGS_CELL_CFG_n write are allowed (R55, R58, R228). -/
def State.cellCfgOk (s : State) (c v : Nat) : Bool :=
  let en := bitOf v 31
  let p := bits v 28 2
  let role := bits v 26 2
  let vl := bits v 0 11
  p != 3 && role != 3 &&
  (!en || (decide (200 ≤ vl) && decide (vl ≤ 1100) && decide (c < s.cellCount) &&
    decide (((s.phaseCells p).filter (fun d => d != c)).length < 80) &&
    !(role == 2 && s.rowTaken c p (s.rdi PORT_PV_CFG_n.ROW c))))

/-- A cell is disabled: it is ignored, its open gap is booked (R543), and its service actions end as for an absent cell
(R506). -/
def State.disableCell (s : State) (c : Nat) : State :=
  let s := (s.endBase c).abandonScan c
  let s := (((s.endService c 1 5 0).endService c 2 5 0).endService c 3 5 0).wri HGS_CELL_CFG_n.ENABLE c 0
  let s := ((s.wri LINK_CELL_STATUS_n.LSTATE c 0).wri JOIN_CELL_STATUS_n.SSTATE c 0).wri HGS_CELL_STATE_n.WEIGHT c 0
  let s := s.updCell c (fun x => { x with
    svc := { x.svc with blk := true, weight := 0, due := 0, todo := 0, spillTicks := none, trip := none, retTicks := none }
    sch := { x.sch with acc := 0, cur := Cmd.none, nxt := Cmd.none, plan := none }
    link := { x.link with aux := { x.link.aux with queue := [], cur := [], rx := [] }, fresh := false, missing := 0 } })
  s.joinCounts

/-- A write of HGS_CELL_CFG_n (R58, R59): an accepted one counts as a change of the configuration the node holds; enabling
clears HOLD (R309). A cell that the part does not have ignores its write (R4; log entry 90). -/
def State.writeCellCfg (s : State) (c v : Nat) (ag : Agent) : State :=
  let off := HGS_CELL_CFG_n.ENABLE.off c
  if s.cellCount ≤ c then s
  else if !s.cfgOpen c then s.refuseCell off v ag
  else if !s.cellCfgOk c v then s.refuse HGS_RATING_STATUS.CFG_ERR
  else
    let was := s.enabled c
    let s := if was ∧ !bitOf v 31 then s.disableCell c else if bits v 26 2 ≠ 2 then s.abandonScan c else s
    let s := s.putRwi HGS_CELL_CFG_n.ENABLE c v
    let s := s.updCell c (fun x => { x with svc := { x.svc with dirty := true } })
    if !was ∧ bitOf v 31 then (s.wri JOIN_CELL_STATUS_n.HOLD c 0).wri JOIN_CELL_STATUS_n.SSTATE c 0 else s

/-- HGS_CELL_CFG_WRITE (R59). -/
def execHgsCellCfgWrite (cell : Fin 240) (value : Nat) (ag : Agent) (s : State) : Host.Outcome State Fault Refusal :=
  .next (s.live fun s => s.writeCellCfg cell.val value ag)

/-- A write of HGS_CELL_TIMING_n, under the conditions of R59 (R104). -/
def State.writeCellTiming (s : State) (c v : Nat) (ag : Agent) : State :=
  let off := HGS_CELL_TIMING_n.DT.off c
  if s.cellCount ≤ c then s
  else if !s.cfgOpen c then s.refuseCell off v ag
  else if !inRange off v then s.refuse HGS_RATING_STATUS.CFG_ERR
  else (s.putRwi HGS_CELL_TIMING_n.DT c v).updCell c (fun x => { x with svc := { x.svc with dirty := true } })

end Sys2Proof.Machine
end

