-- ==== Sys2Proof/Machine/CoreMem.lean ====
section
/-! DEFINITION. What stands in the cores' address map beside the device registers: the members' memory, their CRC units
and the registers that the debugger reaches (12_safety.md, R445, R446; 13_control_triad.md, R459, R460, R463, R465, R478).
One copy stands for the members, which hold the same values in lock-step; where a member's differs, the command that finds
it says so (log entry 129). -/
namespace Sys2Proof.Machine
open Reg

/-! ### The map (R459) -/

/-- The active program bank. -/
def inBank (a : Nat) : Bool := decide (a < 0x20000)

/-- Data TCM and shared SRAM. -/
def inRam (a : Nat) : Bool :=
  (decide (0x10000000 ≤ a) && decide (a < 0x10020000)) || (decide (0x20000000 ≤ a) && decide (a < 0x20800000))

/-- The tick-state region. -/
def inRegion (a : Nat) : Bool := decide (0x10020000 ≤ a) && decide (a < 0x10030000)

/-- The member's own CRC unit. -/
def inCrc (a : Nat) : Bool := decide (0x41000000 ≤ a) && decide (a < 0x41000100)

/-- The dispatch interface. -/
def inDispatch (a : Nat) : Bool := decide (0x42000000 ≤ a) && decide (a < 0x42040000)

/-- The read ports of the result queues. -/
def inPorts (a : Nat) : Bool := decide (0x43000000 ≤ a) && decide (a < 0x43080000)

/-- The byte enables of one access of 1, 2 or 4 bytes at its own alignment. -/
def laneOk (be : Nat) : Bool := [1, 2, 4, 8, 3, 12, 15].contains be

/-! ### Memory -/

/-- The enabled bytes of a word stored at an aligned address. -/
def storeLanes (m : Tab Byte) (a be v : Nat) : Tab Byte :=
  (List.range 4).foldl (fun (m : Tab Byte) i => if bitOf be i then memStore m (a + i) (leBytes 1 (bits v (8 * i) 8)) else m) m

/-- A store into the active program bank (R465). -/
def State.storeBank (s : State) (a be v : Nat) : State :=
  if s.rd TRI_STATUS.ACTIVE_BANK = 0 then { s with tri := { s.tri with bank0 := storeLanes s.tri.bank0 a be v } }
  else { s with tri := { s.tri with bank1 := storeLanes s.tri.bank1 a be v } }

/-- A store into data TCM or shared SRAM. -/
def State.storeRam (s : State) (a be v : Nat) : State :=
  { s with tri := { s.tri with ram := storeLanes s.tri.ram a be v } }

/-- A store into the tick-state region: into the working copy while a TICK entry runs (R463), and else into what the next
one begins with. -/
def State.storeRegion (s : State) (a be v : Nat) : State :=
  let m := storeLanes s.tri.region a be v
  if s.tm.s1run then { s with tri := { s.tri with region := m } } else { s with tri := { s.tri with region := m, regionC := m } }

/-- The word at an aligned address of the members' memory. Of the tick-state region TICK reads its working copy, which is the
committed one from tend on (R463). -/
def State.memWord (s : State) (a : Nat) : Nat :=
  let m :=
    if inBank a then (if s.rd TRI_STATUS.ACTIVE_BANK = 0 then s.tri.bank0 else s.tri.bank1)
    else if inRegion a then s.tri.region
    else s.tri.ram
  ofBytes (memBytes m a 4)

/-! ### The members' CRC units (R445, R446) -/

/-- A write: CRC_CFG, CRC_DATA and CRC_SEED at their block's offsets. -/
def State.memberCrc (s : State) (off be v : Nat) : State :=
  let t := s.tri
  if off = 0 then { s with tri := { t with crcPoly := v % 4, crcVal := crcInit (v % 4) } }
  else if off = 4 then
    let l := ((List.range 4).filter (fun i => bitOf be i)).map (fun i => bits v (8 * i) 8)
    { s with tri := { t with crcVal := crcFeedAll t.crcPoly l t.crcVal } }
  else if off = 8 then { s with tri := { t with crcVal := v % 2 ^ crcWidth t.crcPoly } }
  else s

/-- A read: CRC_CFG, CRC_SEED and CRC_RESULT at their block's offsets. -/
def State.memberCrcWord (s : State) (off : Nat) : Nat :=
  if off = 0 then s.tri.crcPoly
  else if off = 8 then s.tri.crcVal
  else if off = 12 then Nat.xor s.tri.crcVal (crcXor s.tri.crcPoly)
  else 0

/-! ### The registers of a core (R460, R478) -/

/-- Register `i` of a bank as the debugger numbers it in this model (log entry 128): 0 to 31 the general registers, 32 to
39 the lower and upper halves of the accumulators, 40 the program counter, 41 the status word. -/
def CoreBank.get (b : CoreBank) (i : Nat) : Nat :=
  if i < 32 then b.g.getD i 0
  else if i < 40 then bits (b.acc.getD ((i - 32) / 2) 0) (32 * (i % 2)) 32
  else if i = 40 then b.pc
  else if i = 41 then b.status
  else 0

/-- Write a register; g0 ignores writes. -/
def CoreBank.put (b : CoreBank) (i v : Nat) : CoreBank :=
  if i = 0 then b
  else if i < 32 then { b with g := b.g.set i v }
  else if i < 40 then
    let k := (i - 32) / 2
    let x := b.acc.getD k 0
    { b with acc := b.acc.set k (if i % 2 = 0 then x / 2 ^ 32 * 2 ^ 32 + v else v * 2 ^ 32 + x % 2 ^ 32) }
  else if i = 40 then { b with pc := v }
  else if i = 41 then { b with status := v }
  else b

/-- What the debugger reads at number `k`: the tick bank, from 64 the background bank, from 128 the break- and
watchpoints. -/
def State.coreReg (s : State) (k : Nat) : Nat :=
  if k < 64 then s.tri.tickBank.get k
  else if k < 128 then s.tri.backBank.get (k - 64)
  else s.tri.points.getD (k - 128) 0

/-- What the debugger writes there. -/
def State.setCoreReg (s : State) (k v : Nat) : State :=
  if k < 64 then { s with tri := { s.tri with tickBank := s.tri.tickBank.put k v } }
  else if k < 128 then { s with tri := { s.tri with backBank := s.tri.backBank.put (k - 64) v } }
  else { s with tri := { s.tri with points := s.tri.points.set (k - 128) v } }

/-! ### Who may access, and traps of an access -/

/-- An agent's access reaches the device: the host's in D0 (R495), the debugger's while debug access is open and its lead
member runs (R478). -/
def State.admits (s : State) (ag : Agent) : Bool :=
  match ag with
  | .host => !s.hst.d3
  | .firmware => true
  | .debugger => s.debugOpen && s.running (s.rd TRI_CFG.LEAD)

/-- The entry that runs (R461). -/
def State.entryNow (s : State) : Entry :=
  if !s.pwr.tready then .reset else if s.tm.s1run then .tick else .background

/-- The device takes a trap of its own finding; program counter and cause are open (log entry 1). -/
def State.trapNow (s : State) (en : Entry) : State :=
  let pc := s.freeVal 9 % 2 ^ 32
  let cause := s.used.freeVal 9 % 2 ^ 32
  s.used.used.trap en pc cause

/-- An access by firmware that the map does not allow traps, where an image runs (R459, R464). -/
def State.badAccess (s : State) : State := if s.tri.imageOk then s.trapNow s.entryNow else s

end Sys2Proof.Machine
end

