-- ==== Sys2Proof/Machine/Drives.lean ====
section
/-! DEFINITION. The motor channels' commands (16_thermal_aux_drives.md, R588 to R599). The aux die works while the main
die is in reset, so its own events act then too; register writes do not. Speeds in rpm, currents in A, voltages in V. -/
namespace Sys2Proof.Machine
open Reg

/-- HANDOVER in rpm (R611, R612). -/
def State.handover (s : State) (m : Nat) : Rat :=
  (s.rdi AUX_START_m.HANDOVER m * s.rdi AUX_RAMP_m.SPD_MAX m : Nat) / 10

/-- IMAX in A (R610). -/
def State.auxImax (s : State) (m : Nat) : Rat := (s.rdi AUX_MOTOR2_m.IMAX m : Rat) / 4

/-- A comparator, a safety input or TRIP_IN_N whose route names the channel acts now (R396, R416). -/
def State.routeActs (s : State) (m : Nat) : Bool :=
  let drv (f0 f1 : Fld) (i : Nat) : Bool := if m = 0 then s.biti f0 i else s.biti f1 i
  (List.range 16).any (fun n => drv SLC_CMP_ROUTE_n.DRV0 SLC_CMP_ROUTE_n.DRV1 n && bitOf s.slc.live n && !s.blanked n) ||
  (drv SLC_SRC_ROUTE.SAFE_DRV0 SLC_SRC_ROUTE.SAFE_DRV1 0 && s.sourceActive SLC_TRIP_LATCH.SAFETY_IN != 0) ||
  (drv SLC_SRC_ROUTE.TRIPIN_DRV0 SLC_SRC_ROUTE.TRIPIN_DRV1 0 && s.sourceActive SLC_TRIP_LATCH.TRIP_IN != 0)

/-- LEGS bits of a short not yet cleared keep the channel off (R406). -/
def State.legsSet (s : State) (m : Nat) : Bool :=
  (if m = 0 then s.rd SLC_DRV_SC_STATUS.LEGS0 else s.rd SLC_DRV_SC_STATUS.LEGS1) != 0

/-- DIAG begins with AUX_HOLDm on (R588, R592). -/
def State.auxDiag (s : State) (m : Nat) (only : Bool) : State :=
  (((s.wri AUX_STATUS_m.STATE m 1).wri AUX_STATUS_m.HOLD m 1).updAch m (fun x => { x with
    since := s.tm.e, diagOnly := only, tries := 0, holdOff := none, resume := false })).emit (.auxHold m true)

/-- The bits that stay until the host starts a channel again (R590, R608). -/
def State.busCleared (s : State) : State := (s.wr AUX_BUS_STATUS.OV 0).wr AUX_BUS_STATUS.CP_UV 0

/-- START (R591): from B2, an enabled channel in OFF or FAULT, no route on it, no short uncleared. -/
def State.auxStart (s : State) (m : Nat) : State :=
  let st := s.astate m
  if 2 ≤ s.stage ∧ s.biti AUX_CH_CFG_m.EN m ∧ (st = 0 ∨ st = 6) ∧ !s.routeActs m ∧ !s.legsSet m then
    (s.busCleared.auxDiag m false).auxPost m 1 0
  else s.refuse THM_STATUS.CFG_ERR

/-- A DIAG request (R592, R613): diagnostics only, from OFF. -/
def State.auxDiagOnly (s : State) (m : Nat) : State :=
  if s.astate m = 0 ∧ 2 ≤ s.stage ∧ !s.routeActs m ∧ !s.legsSet m then s.auxDiag m true else s.refuse THM_STATUS.CFG_ERR

/-- A write of AUX_CTRL_m (R613): the reference, then STOP, or START, or DIAG. -/
def State.writeAuxCtrl (s : State) (m v : Nat) : State :=
  let s := s.auxHolds.wri AUX_CTRL_m.SPEED m (bits v 0 16)
  if bitOf v 30 then s.auxStop m
  else if bitOf v 31 then s.auxStart m
  else if bitOf v 29 then s.auxDiagOnly m
  else s

/-- AUX_START (R591). -/
def execAuxStart (m : Fin 2) (t : Nat) (s : State) : Host.Outcome State Fault Refusal :=
  .next (s.live fun s => (s.moveTo t).auxHolds.auxStart m.val)

/-- AUX_STOP (R596). -/
def execAuxStop (m : Fin 2) (t : Nat) (s : State) : Host.Outcome State Fault Refusal :=
  .next (s.live fun s => (s.moveTo t).auxHolds.auxStop m.val)

/-- AUX_DIAG (R592). -/
def execAuxDiag (m : Fin 2) (t : Nat) (s : State) : Host.Outcome State Fault Refusal :=
  .next (s.live fun s => (s.moveTo t).auxHolds.auxDiagOnly m.val)

/-- The node voltages vary by more than 1.0 V: the motor turns (R592). -/
def diagTurning (d : DiagIn) : Bool := d.node.any (fun n => decide (n.1 + 1000 < n.2))

/-- A pair is open. -/
def diagOpen (d : DiagIn) (k : Nat) : Bool := decide (1000 < d.pair.getD k 0)

/-- The bits of R592: a node above 0.85 or below 0.15 of VAUX, windings both of whose pairs are open, SPINNING. While the motor
turns the pairs are not reached (log entry 132). -/
def diagBits (d : DiagIn) : Nat :=
  let wind (i j k : Nat) : Nat := if !diagTurning d && diagOpen d i && diagOpen d j then 2 ^ k else 0
  (if d.node.any (fun n => decide (85 * d.vaux < 100 * n.2)) then 1 else 0) +
  (if d.node.any (fun n => decide (100 * n.1 < 15 * d.vaux)) then 2 else 0) +
  wind 0 2 2 + wind 0 1 3 + wind 1 2 4 + (if diagTurning d then 32 else 0)

/-- AUX_DIAG_DONE (R591, R592): 4 ms at the earliest, with a turning motor 5 s; any bit set ends in FAULT. -/
def execAuxDiagDone (m : Fin 2) (d : DiagIn) (t : Nat) (s : State) : Host.Outcome State Fault Refusal :=
  let s := (s.moveTo t).auxHolds
  let x := s.ach m.val
  .next <|
    if s.astate m.val ≠ 1 ∨ s.tm.e < x.since + (if diagTurning d then 5000000000 else 4000000) then s
    else
      let s := s.wri AUX_STATUS_m.DIAG m.val (diagBits d)
      let b := s.rdi AUX_STATUS_m.DIAG m.val
      if b ≠ 0 then s.auxDown m.val 6 5 b
      else if x.diagOnly then s.auxDown m.val 0 3 0
      else (s.wri AUX_STATUS_m.STATE m.val 2).updAch m.val (fun x => { x with since := s.tm.e })

/-- AUX_ALIGN_DONE (R591): after ALIGN_MS the open-loop ramp begins from rest. -/
def execAuxAlignDone (m : Fin 2) (t : Nat) (s : State) : Host.Outcome State Fault Refusal :=
  let s := (s.moveTo t).auxHolds
  .next <|
    if s.astate m.val = 2 ∧ (s.ach m.val).since + s.rdi AUX_START_m.ALIGN_MS m.val * 10000000 ≤ s.tm.e then
      (s.wri AUX_STATUS_m.STATE m.val 3).updAch m.val (fun x => { x with since := s.tm.e, ref := 0, agree := none })
    else s

/-- AUX_HANDOVER (R593): the observer has agreed for 10 ms at or above HANDOVER. -/
def execAuxHandover (m : Fin 2) (t : Nat) (s : State) : Host.Outcome State Fault Refusal :=
  let s := (s.moveTo t).auxHolds
  .next <|
    match (s.ach m.val).agree with
    | some a =>
      if s.astate m.val = 3 ∧ a + 10000000 ≤ s.tm.e then
        let s := (s.wri AUX_STATUS_m.STATE m.val 4).updAch m.val (fun x => { x with
          since := s.tm.e, integ := 0, skips := 0, steady := s.tm.e, keAt := none })
        s.auxPost m.val 2 (s.rdi AUX_STATUS_m.SPEED m.val)
      else s
    | none => s

/-! ### The speed loop (R593, R594, R596) -/

/-- A cell class is at warning: some enabled cell holds a level of it. -/
def State.classWarm (s : State) (k : Nat) : Bool := s.plant.any (fun c => ((s.cell c).thm.lvl.getD k 0) != 0)

/-- A plant class, 0 cabinet or 1 coolant loop, is at warning (R581, R583). -/
def State.plantWarm (s : State) (j : Nat) : Bool := s.thm.plantLvl.getD j 0 != 0 || s.bit THM_DIE_STATUS.STALE

/-- The highest heat budget H of R594, of the cells in service and the plant classes. -/
def State.heatH (s : State) : Nat :=
  let cells := (s.plant.filter (fun c => s.sstate c == 5)).map (fun c => s.rdi THM_CELL_n.BUDGET c)
  (cells ++ s.thm.plantB).foldl max 0

/-- The speed asked for by SRC, in rpm; in sleep SRC 1 and 2 take SLEEP_SPD (R594, R599). -/
def State.auxTarget (s : State) (m : Nat) : Rat :=
  let src := s.rdi AUX_CH_CFG_m.SRC m
  let hi : Rat := (s.rdi AUX_RAMP_m.SPD_MAX m * 10 : Nat)
  let lo : Rat := (s.rdi AUX_RAMP_m.SPD_MIN m * 10 : Nat)
  let by' (h : Nat) (warm : Bool) : Rat := if warm then hi else lo + (hi - lo) * (h : Rat) / 4096
  if src = 0 then (s.rdi AUX_CTRL_m.SPEED m : Rat)
  else if s.bit PWR_STATUS.SLEEP then (s.rdi AUX_RAMP_m.SLEEP_SPD m * s.rdi AUX_RAMP_m.SPD_MAX m : Nat) / 10
  else if src = 1 then by' s.heatH (s.classWarm 2 || s.plantWarm 0 || s.plantWarm 1)
  else by' (s.thm.plantB.getD 1 0) (s.plantWarm 0 || s.plantWarm 1)

/-- The reference leads to DECEL and OFF: below SPD_MIN with SRC 0, 0 in sleep with SRC 1 or 2 (R594, R599). -/
def State.auxTooSlow (s : State) (m : Nat) : Bool :=
  if s.rdi AUX_CH_CFG_m.SRC m = 0 then decide (s.rdi AUX_CTRL_m.SPEED m < s.rdi AUX_RAMP_m.SPD_MIN m * 10)
  else s.bit PWR_STATUS.SLEEP && s.rdi AUX_RAMP_m.SLEEP_SPD m == 0

/-- RAMP at 1 kHz (R593): the open-loop speed rises at ACC; agreement within 30° at or above HANDOVER is timed; at
twice HANDOVER without 10 ms of it the ramp has failed. -/
def State.auxRamp (s : State) (m : Nat) (o : Observer) : State :=
  let x := s.ach m
  let ref := x.ref + (s.rdi AUX_ACC_m.ACC m : Rat) / 100
  let agree := if decide (-30 ≤ o.angle) && decide (o.angle ≤ 30) && decide (s.handover m ≤ ref) then
      some (x.agree.getD s.tm.e) else none
  let short : Bool := match agree with
    | some a => decide (s.tm.e < a + 10000000)
    | none => true
  if 2 * s.handover m ≤ ref ∧ short then
    if 3 ≤ x.tries + 1 then s.auxDown m 6 4 (x.tries + 1)
    else (s.wri AUX_STATUS_m.STATE m 2).updAch m (fun x => { x with since := s.tm.e, tries := x.tries + 1, ref := 0, agree := none })
  else s.updAch m (fun x => { x with ref := ref, agree := agree })

/-- RUN at 1 kHz (R594, R596): the reference follows ACC and DEC; while VAUX is above REGEN it is held and the braking
current is 0. -/
def State.auxRun (s : State) (m : Nat) (o : Observer) : State :=
  if s.auxTooSlow m then s.auxDecel m
  else
    let x := s.ach m
    let want := s.auxTarget m
    let up := (s.rdi AUX_ACC_m.ACC m : Rat) / 100
    let dn := (s.rdi AUX_ACC_m.DEC m : Rat) / 100
    let regen := s.bit AUX_BUS_STATUS.REGEN
    let ref := if regen then x.ref else if x.ref < want then min want (x.ref + up) else max want (x.ref - dn)
    let e := ref - (o.speed : Rat)
    let lim := s.auxImax m
    let integ := clampR (-lim) lim (x.integ + (s.rdi AUX_LOOP_m.SPD_KI m : Rat) / 1000 * e / 1000)
    let iq := clampR (-lim) lim ((s.rdi AUX_LOOP_m.SPD_KP m : Rat) / 1000 * e + integ)
    let iq := if regen then max 0 iq else iq
    s.updAch m (fun x => { x with
      ref := ref, integ := integ, iq := iq
      steady := if ref = x.ref then x.steady else s.tm.e
      keAt := if ref = x.ref then x.keAt else none })

/-- DECEL at 1 kHz (R591, R596, R597): the speed falls at DEC, held while VAUX is above REGEN; below HANDOVER the channel
is OFF, or in FAULT after a back-EMF check. -/
def State.auxSlow (s : State) (m : Nat) (o : Observer) : State :=
  let x := s.ach m
  if (o.speed : Rat) < s.handover m then
    if x.toFault then s.auxDown m 6 (s.rdi AUX_STATUS_m.CODE m) (s.rdi AUX_KE_m.KE_MEAS m) else s.auxDown m 0 3 0
  else
    let regen := s.bit AUX_BUS_STATUS.REGEN
    let ref := if regen then x.ref else max 0 (x.ref - (s.rdi AUX_ACC_m.DEC m : Rat) / 100)
    let lim := s.auxImax m
    let e := ref - (o.speed : Rat)
    let iq := clampR (-lim) lim ((s.rdi AUX_LOOP_m.SPD_KP m : Rat) / 1000 * e)
    s.updAch m (fun x => { x with ref := ref, iq := if regen then max 0 iq else iq })

/-- AUX_SPEED_LOOP (R594): the channel's 1 kHz step, frozen while the triad is halted (R412). -/
def execAuxSpeedLoop (m : Fin 2) (obs : Observer) (t : Nat) (s : State) : Host.Outcome State Fault Refusal :=
  let s := (s.moveTo t).auxHolds
  let st := s.astate m.val
  .next <|
    if s.bit TRI_STATUS.DBG_HALT then s
    else
      let s := s.wri AUX_STATUS_m.SPEED m.val (min 65535 obs.speed)
      if st = 3 then s.auxRamp m.val obs
      else if st = 4 then s.auxRun m.val obs
      else if st = 5 then s.auxSlow m.val obs
      else s

/-! ### The current loops (R594, R595) -/

/-- The current references, d and q: ALIGN_I at a fixed angle, RAMP_I on the open-loop angle, else the speed loop's
output (R591, R594). -/
def State.auxIref (s : State) (m : Nat) : Rat × Rat :=
  let st := s.astate m
  let lim := s.auxImax m
  if st = 2 then (lim * (s.rdi AUX_START_m.ALIGN_I m : Rat) / 100, 0)
  else if st = 3 then (lim * (s.rdi AUX_START_m.RAMP_I m : Rat) / 100, 0)
  else (0, (s.ach m).iq)

/-- The three leg currents in A: a leg whose window is shorter than `least` ns is narrow, and one narrow leg is minus the sum
of the others; with more, none (R595). -/
def legCurrents (least : Nat) (c : PhaseSample) : Option (Rat × Rat × Rat) :=
  let u : Rat := (c.iu : Rat) / 1000
  let v : Rat := (c.iv : Rat) / 1000
  let w : Rat := (c.iw : Rat) / 1000
  let narrow (k : Nat) : Bool := decide (c.low.getD k 0 < least)
  match narrow 0, narrow 1, narrow 2 with
  | false, false, false => some (u, v, w)
  | true, false, false => some (-v - w, v, w)
  | false, true, false => some (u, -u - w, w)
  | false, false, true => some (u, v, -u - v)
  | _, _, _ => none

/-- Leg currents in the rotor frame at angle `th` rad. -/
def toRotor (i : Rat × Rat × Rat) (th : Rat) : Cx :=
  let a : Cx := ⟨(2 * i.1 - i.2.1 - i.2.2) / 3, (i.2.1 - i.2.2) / Config.sqrt 3⟩
  a.mul (Cx.cis (-th))

/-- A voltage within the linear range VAUX ÷ √3 and within the cap of R595, of the same direction (log entry 133). -/
def State.linear (s : State) (m : Nat) (v : Rat × Rat) : Rat × Rat :=
  let k : Rat := (s.rd AUX_BUS_STATUS.VAUX : Rat) / 10 * (if s.biti AUX_STATUS_m.CAP m then ((s.ach m).cap : Rat) / 1000 else 1)
  let q := 3 * (v.1 * v.1 + v.2 * v.2)
  if q ≤ k * k then v else (v.1 * divR k (Config.sqrt q), v.2 * divR k (Config.sqrt q))

/-- The channel is in six-step: allowed, not capped, and the demand is beyond the linear range (R594, R595). -/
def State.sixStep (s : State) (m : Nat) : Bool :=
  let x := s.ach m
  let vaux : Rat := (s.rd AUX_BUS_STATUS.VAUX : Rat) / 10
  s.biti AUX_CH_CFG_m.SIXSTEP m && s.astate m == 4 && !s.biti AUX_STATUS_m.CAP m && decide (vaux * vaux < 3 * (x.vd * x.vd + x.vq * x.vq))

/-- The ns from a switch's complementary turn-off command to its turn-on, which keeps the two from conducting at once
(R589): the dead time, or with the interlock 50 ns after the other gate has fallen below 2.0 V. -/
def State.turnOn (s : State) (m : Nat) (gate : List Nat) : List Nat :=
  (List.range 6).map (fun k =>
    if s.biti AUX_CH_CFG_m.ST_MODE m then gate.getD k 0 + 50 else s.rdi AUX_CH_CFG_m.DT m * 5)

/-- AUX_PWM_PERIOD (R594, R595): a PWM period of a driving channel, at its centre, which is also a source of triggers
(R352); frozen while the triad is halted (R412). -/
def execAuxPwmPeriod (m : Fin 2) (cur : PhaseSample) (t : Nat) (s : State) : Host.Outcome State Fault Refusal :=
  let s := (s.moveTo t).auxHolds
  let n := m.val
  let st := s.astate n
  let x := s.ach n
  let ls : Rat := (s.rdi AUX_MOTOR_m.LS n : Rat) / 1000000
  let rs : Rat := (s.rdi AUX_MOTOR_m.RS n : Rat) / 1000
  let bw : Rat := 2 * Config.pi * (s.rdi AUX_ACC_m.CUR_BW n * 100 : Nat)
  let tp : Rat := divR 1 (s.rdi AUX_CH_CFG_m.PWM_KHZ n * 1000 : Nat)
  let six := s.sixStep n
  let legs := legCurrents (if six then 0 else s.rdi AUX_CH_CFG_m.SAMP_MIN n * 250) cur
  let emf : Rat := (cur.emf : Rat) / 1000
  let s := s.live fun s => s.trigEvent (fun k => s.rdi ADC_TRIG_CFG_t.SRC k == 2 + n) s.tm.e
  .next <|
    if s.bit TRI_STATUS.DBG_HALT ∨ (st ≠ 2 ∧ st ≠ 3 ∧ st ≠ 4 ∧ st ≠ 5) then s
    else
      let i : Cx := match legs with
        | some l => toRotor l ((cur.angle : Rat) * Config.pi / 180000)
        | none => ⟨x.id + divR tp ls * (x.ad - rs * x.id), x.iqm + divR tp ls * (x.aq - rs * x.iqm - x.e)⟩
      let s := if legs.isNone then s.inci AUX_KE_m.SKIPS n 1 else s
      let r := s.auxIref n
      let ed := r.1 - i.re
      let eq := r.2 - i.im
      let xd := x.xd + rs * bw * tp * ed
      let xq := x.xq + rs * bw * tp * eq
      let vd := ls * bw * ed + xd
      let vq := ls * bw * eq + xq
      let v := s.linear n (vd, vq)
      let free : Bool := v == (vd, vq)
      let a := if six then (0, 2 / Config.pi * (s.rd AUX_BUS_STATUS.VAUX : Rat) / 10) else v
      let s := s.updAch n (fun x => { x with
        id := i.re, iqm := i.im, vd := vd, vq := vq, e := emf, ad := a.1, aq := a.2
        xd := if free then xd else x.xd, xq := if free then xq else x.xq
        skips := if legs.isNone then x.skips + 1 else 0 })
      s.agreed 1 none cur.agree (fun s => s.emit (.drivePwm n a.1 a.2 (s.turnOn n cur.gate))) id

/-- AUX_WINDOW_CAP (R595): SKIP_MAX consecutive predicted samples cap the modulation until the channel leaves RUN. How far
the modulation must fall for one narrow leg at most depends on the modulator, so the cap in 0.001 is open (log entry 1). -/
def execAuxWindowCap (m : Fin 2) (s : State) : Host.Outcome State Fault Refusal :=
  let n := m.val
  .next <|
    if s.astate n = 4 ∧ s.rdi AUX_CH_CFG_m.SKIP_MAX n ≤ (s.ach n).skips ∧ s.rdi AUX_STATUS_m.CAP n = 0 then
      let cap := s.freeVal 2 % 1001
      (((s.wri AUX_STATUS_m.CAP n 1).updAch n (fun x => { x with cap := cap })).auxPost n 6 cap).used
    else s

/-- KE_MEASURED (R597): 1 s of averaging, after 1 s of a constant reference at or above 30 % of SPD_MAX. -/
def execKeMeasured (m : Fin 2) (ke : Nat) (t : Nat) (s : State) : Host.Outcome State Fault Refusal :=
  let s := (s.moveTo t).auxHolds
  let n := m.val
  let x := s.ach n
  let start := x.keAt.getD (x.steady + 1000000000)
  let nom : Rat := (s.rdi AUX_MOTOR2_m.KE n : Rat)
  let tol : Rat := (s.rdi AUX_MOTOR2_m.KE_TOL n : Rat) / 100
  .next <|
    if s.astate n ≠ 4 ∨ s.tm.e < start + 1000000000 ∨ x.ref < (s.rdi AUX_RAMP_m.SPD_MAX n * 3 : Nat) then s
    else
      let s := s.wri AUX_KE_m.KE_MEAS n (min 65535 ke)
      let s := s.updAch n (fun x => { x with keAt := some s.tm.e })
      if (ke : Rat) < nom * (1 - tol) then
        ((s.auxPost n 7 ke).auxDecel n).updAch n (fun x => { x with toFault := true })
      else if nom * (1 + tol) < (ke : Rat) then
        ((s.auxPost n 8 ke).auxDecel n).updAch n (fun x => { x with toFault := true })
      else s

/-! ### The auxiliary bus (R590, R596) -/

/-- VAUX_UV of one channel: DIAG fails with no bit set, DECEL ends in OFF, a running channel is OFF and resumes later
(R590, R599). -/
def State.uvChannel (s : State) (m vaux : Nat) : State :=
  let st := s.astate m
  if st = 1 then (s.wri AUX_STATUS_m.DIAG m 0).auxDown m 6 9 vaux
  else if st = 5 then s.auxDown m 0 9 vaux
  else if st = 2 ∨ st = 3 ∨ st = 4 then (s.auxDown m 0 9 vaux).updAch m (fun x => { x with resume := true })
  else s

/-- VAUX_UV (R590): VAUX in 0.1 V has been below UV for 10 µs. -/
def execVauxUv (vaux : Nat) (t : Nat) (s : State) : Host.Outcome State Fault Refusal :=
  let s := ((s.moveTo t).auxHolds).wr AUX_BUS_STATUS.VAUX (min 1023 vaux)
  .next <|
    if vaux < s.rd AUX_BUS_CFG.UV then ((s.wr AUX_BUS_STATUS.UV 1).uvChannel 0 vaux).uvChannel 1 vaux else s

/-- VAUX_UV_RECOVER (R590): VAUX at or above UV + 1.0 V for 100 ms; the channels that were running start through DIAG. -/
def execVauxUvRecover (vaux : Nat) (t : Nat) (s : State) : Host.Outcome State Fault Refusal :=
  let s := ((s.moveTo t).auxHolds).wr AUX_BUS_STATUS.VAUX (min 1023 vaux)
  .next <|
    if s.rd AUX_BUS_CFG.UV + 10 ≤ vaux then
      (List.range 2).foldl (fun s m =>
        if (s.ach m).resume && s.astate m == 0 then (s.auxDiag m false).auxPost m 1 0 else s) (s.wr AUX_BUS_STATUS.UV 0)
    else s

/-- VAUX_OV (R590): VAUX above OV for 10 µs puts both channels in FAULT. -/
def execVauxOv (vaux : Nat) (t : Nat) (s : State) : Host.Outcome State Fault Refusal :=
  let s := ((s.moveTo t).auxHolds).wr AUX_BUS_STATUS.VAUX (min 1023 vaux)
  .next <|
    if s.rd AUX_BUS_CFG.OV < vaux then
      ((((s.wr AUX_BUS_STATUS.OV 1).auxDown 0 6 10 vaux).auxDown 1 6 10 vaux).updAch 0
        (fun x => { x with resume := false })).updAch 1 (fun x => { x with resume := false })
    else s

/-- CP_UV (R590): VCP − VAUX, in 0.1 V, below 9.0 V for 10 µs puts both channels in FAULT. -/
def execCpUv (vcp : Nat) (t : Nat) (s : State) : Host.Outcome State Fault Refusal :=
  let s := ((s.moveTo t).auxHolds).wr AUX_BUS_STATUS.VCP (min 1023 vcp)
  .next <|
    if vcp < 90 then
      ((((s.wr AUX_BUS_STATUS.CP_UV 1).auxDown 0 6 11 vcp).auxDown 1 6 11 vcp).updAch 0
        (fun x => { x with resume := false })).updAch 1 (fun x => { x with resume := false })
    else s

/-- REGEN_LIMIT (R590, R596): VAUX above REGEN for 1 µs. -/
def execRegenLimit (vaux : Nat) (t : Nat) (s : State) : Host.Outcome State Fault Refusal :=
  let s := ((s.moveTo t).auxHolds).wr AUX_BUS_STATUS.VAUX (min 1023 vaux)
  .next (if s.rd AUX_BUS_CFG.REGEN < vaux then s.wr AUX_BUS_STATUS.REGEN 1 else s)

/-- REGEN_CLEAR (R590, R596): VAUX at or below REGEN − 1.0 V. -/
def execRegenClear (vaux : Nat) (t : Nat) (s : State) : Host.Outcome State Fault Refusal :=
  let s := ((s.moveTo t).auxHolds).wr AUX_BUS_STATUS.VAUX (min 1023 vaux)
  .next (if vaux + 10 ≤ s.rd AUX_BUS_CFG.REGEN then s.wr AUX_BUS_STATUS.REGEN 0 else s)

end Sys2Proof.Machine
end

