-- ==== Sys2Proof/Machine/RegisterWrite.lean ====
section
/-! DEFINITION. Accesses to registers (00_scope.md R14 to R16, 19_register_map.md R695 to R700): what a write of any register
does, and a read of RC fields. -/
namespace Sys2Proof.Machine
open Reg

/-- The CFG_ERR field that a block uses for refused writes; the TRI_ block has none (R15). -/
def errField (off : Nat) : Option Fld :=
  match off / 0x10000 with
  | 0x02 => some CLK_PLL_STATUS.CFG_ERR
  | 0x03 => some CLK_TICK_STATUS.CFG_ERR
  | 0x04 => some SYNC_STATUS.CFG_ERR
  | 0x00 => some PWR_STATUS.CFG_ERR
  | 0x01 => some PWR_STATUS.CFG_ERR
  | 0x05 => some PWR_STATUS.CFG_ERR
  | 0x06 => some (if off < KA_CT_CFG.EN.base then PWR_STATUS.CFG_ERR else MTR_STATUS.CFG_ERR)
  | 0x07 => some PWR_STATUS.CFG_ERR
  | 0x08 => some HOST_STATUS.CFG_ERR
  | 0x09 => some HOST_STATUS.CFG_ERR
  | 0x0A => none
  | 0x0C => some LINK_RING_STATUS_r.CFG_ERR
  | 0x0D => some LINK_RING_STATUS_r.CFG_ERR
  | 0x0E => some JOIN_STATUS.CFG_ERR
  | 0x0F => some JOIN_STATUS.CFG_ERR
  | 0x10 => some HGS_RATING_STATUS.CFG_ERR
  | 0x11 => some HGS_RATING_STATUS.CFG_ERR
  | 0x12 => some CTL_STATUS.CFG_ERR
  | 0x13 => some SYNC_STATUS.CFG_ERR
  | 0x14 => some SYNC_STATUS.CFG_ERR
  | 0x15 => some MIR_STATUS.CFG_ERR
  | 0x16 => some PORT_GSTATUS.CFG_ERR
  | 0x17 => some PORT_GSTATUS.CFG_ERR
  | 0x18 => some PORT_GSTATUS.CFG_ERR
  | 0x19 => some PORT_GSTATUS.CFG_ERR
  | 0x20 => some SLC_BLOCK_STATUS.CFG_ERR
  | 0x0B => some SAFE_NET_STATUS.CFG_ERR
  | 0x21 => some SAFE_NET_STATUS.CFG_ERR
  | 0x22 => some SAFE_NET_STATUS.CFG_ERR
  | 0x23 => some MTR_STATUS.CFG_ERR
  | 0x24 => some MTR_STATUS.CFG_ERR
  | 0x25 => some MTR_STATUS.CFG_ERR
  | 0x26 => some THM_STATUS.CFG_ERR
  | 0x27 => some THM_STATUS.CFG_ERR
  | 0x28 => some THM_STATUS.CFG_ERR
  | _ => some ADC_STATUS.CFG_ERR

/-- A refused write: the block's CFG_ERR field, or a record in the TRI_ block (R15, R494). -/
def State.refuseWrite (s : State) (off v : Nat) (ag : Agent) : State :=
  match errField off with
  | some f => s.refuse f
  | none => s.configRefused off v ag

/-! ### Shadow registers (R699, R700) -/

/-- A swap of the group of a shadow register is pending (R700). -/
def State.groupPending (s : State) (base : Nat) : Bool :=
  match base / 0x10000 with
  | 0x10 => s.bit HGS_TABLE_CTRL.PENDING
  | 0x12 => s.bit CTL_TABLE_CTRL.PENDING
  | 0x13 => s.bit FRT_TABLE_CTRL.PENDING
  | 0x14 => s.bit FRT_TABLE_CTRL.PENDING
  | 0x15 => s.bit MIR_TABLE_CTRL.PENDING
  | 0x16 => s.bit PORT_TABLE_CTRL.PENDING
  | _ => s.bit MTR_CAL_CTRL.PENDING

/-! ### What a value must satisfy beside the ranges of its fields -/

/-- Trigger `t`'s source, chain and delay (R352, R353, R376): DELAY in ns, PERIOD in 10 ns. -/
def State.trigOk (s : State) (t src chain delay period : Nat) : Bool :=
  src != 7 && !(src == 6 && chain == t) && (src != 0 || decide (delay < s.period)) &&
  (src != 1 || decide (delay < period * 10))

/-- The rule of a register, beside the ranges of its fields, that a word written to its entry `i` must keep. -/
def State.valueRule (s : State) (base i v : Nat) : Bool :=
  if base = CLK_REF_CFG.FIRST.base then
    let a := bits v 30 2
    let b := bits v 28 2
    let c := bits v 26 2
    (a == 3 || (a != b && a != c)) && (b == 3 || b != c)
  else if base = HOST_EVT_CFG.EVT_RING.base then s.rdi RING_CFG_n.TYPE (bits v 26 6) == 2
  else if base = HOST_DEVREG_SIZE_n.PAGES.base then v != 0 || !s.biti HOST_DEVREG_LO_n.EN i
  else if base = RING_BASE_n.BASE.base then s.rdi RING_STATE_n.STATE i == 0
  else if base = TRI_CFG.LEAD.base then s.running (bits v 30 2)
  else if base = HGS_LINK_WIN_r.HARD.base then decide (bits v 0 8 < bits v 8 8)
  else if base = ADC_TRIG_CFG_t.EN.base then
    s.trigOk i (bits v 28 3) (bits v 24 4) (s.rdi ADC_TRIG_SEL_t.DELAY i) (s.rdi ADC_TRIG_TIMER_t.PERIOD i)
  else if base = ADC_TRIG_SEL_t.DELAY.base then
    s.trigOk i (s.rdi ADC_TRIG_CFG_t.SRC i) (s.rdi ADC_TRIG_CFG_t.CHAIN i) (bits v 16 16) (s.rdi ADC_TRIG_TIMER_t.PERIOD i)
  else if base = ADC_TRIG_TIMER_t.PERIOD.base then
    s.rdi ADC_TRIG_CFG_t.SRC i != 1 || decide (s.rdi ADC_TRIG_SEL_t.DELAY i < bits v 0 24 * 10)
  else if base = SLC_CMP_ROUTE_n.ACTION.base then decide (bits v 21 5 ≤ 16) || bits v 21 5 == 31
  else if base = SAFE_NET_CFG.EN.base then
    decide (2 * bits v 8 8 ≤ bits v 16 9) && decide (bits v 0 8 ≤ bits v 8 8 * 10)
  else if base = SAFE_CONN.CONN_ID.base then v != 0 || !s.bit SAFE_NET_CFG.EN
  else if base = THM_CLASS_LVL_k.BASE.base then
    decide (sgn 8 (bits v 24 8) < sgn 8 (bits v 16 8)) && decide (sgn 8 (bits v 16 8) < sgn 8 (bits v 8 8)) &&
    decide (sgn 8 (bits v 8 8) < sgn 8 (bits v 0 8))
  else if base = THM_EXT_n.EN.base then !bitOf v 31 || bits v 12 13 != 0
  else if base = AUX_BUS_CFG.OV.base then decide (bits v 2 10 < bits v 12 10) && decide (bits v 12 10 < bits v 22 10)
  else if base = AUX_RAMP_m.SPD_MAX.base then decide (bits v 8 12 ≤ bits v 20 12)
  else if base = AUX_CH_CFG_m.EN.base then
    (!bitOf v 31 || s.rdi AUX_MOTOR2_m.KE i != 0) &&
    (s.astate i == 0 || s.astate i == 6 || bits v 4 27 == bits (s.word (AUX_CH_CFG_m.EN.off i)) 4 27)
  else true

/-! ### What follows an accepted write -/

/-- What a write of a register sets going beside the values of its fields; `was` is the word before. -/
def State.afterWrite (s : State) (base i was : Nat) : State :=
  if base = CLK_REF_CFG.FIRST.base then s.qualTrack.reselect
  else if base = ADC_TRIG_CFG_t.EN.base then
    (if bitOf was 31 && s.biti ADC_TRIG_CFG_t.EN i && bits was 28 3 == s.rdi ADC_TRIG_CFG_t.SRC i then s
     else { s with adc := { s.adc with fire := s.adc.fire.filter (fun x => x.1 != i) } })
  else if base = SAFE_IN_CFG_n.TYPE.base then
    (if bits was 29 3 = s.rdi SAFE_IN_CFG_n.TYPE i ∧ bitOf was 28 = s.biti SAFE_IN_CFG_n.ANTI i then s
     else s.inputSet i (bitOf was 28))
  else if base = HOST_EVT_CFG.METER_RING.base then s.moveMeterRing (bits was HOST_EVT_CFG.METER_RING.lo HOST_EVT_CFG.METER_RING.w)
  else if base = SAFE_NET_CFG.EN.base then (if !bitOf was 31 ∧ s.bit SAFE_NET_CFG.EN then s.netEnable else s)
  else if base = THM_CFG.WEIR_EN.base then (if s.bit THM_CFG.WEIR_EN then s else s.wr THM_STATUS.WEIR_STEP 16)
  else if base = AUX_CH_CFG_m.EN.base ∧ bitOf was 31 ∧ !s.biti AUX_CH_CFG_m.EN i ∧ s.astate i ≠ 0 ∧ s.astate i ≠ 6 then
    s.auxStop i
  else s

/-! ### The access codes (R14, R15) -/

/-- Each 1 written to a W1C field clears that bit (R14). -/
def State.clearOnes (s : State) (i v : Nat) : List FieldRow → State
  | [] => s
  | r :: t =>
    let old := s.rdi r.f i
    (s.wri r.f i (old - (old &&& bits v r.f.lo r.f.w))).clearOnes i v t

/-- RWS fields written with other values outside COMMISSIONING are left, with a record and the block's CFG_ERR (R15). -/
def State.reportRws (s : State) (off v : Nat) (ag : Agent) : State :=
  match errField off with
  | some f => s.rwsIgnored off v ag f
  | none => if s.rwsDiffers off v then s.configRefused off v ag else s

/-- A write sets the fields of a register per their access codes. A value outside a field's range, one that breaks the
register's own rule, and a shadow register of a pending group refuse it. CHK_FAIL is cleared by the host alone (R351). -/
def State.setFieldsOf (s : State) (r : RegRow) (off v : Nat) (ag : Agent) : State :=
  let i := (off - r.base) / 4
  let com := s.commissioning
  let w := r.fields.filter (fun x => x.acc == .rw || (x.acc == .rws && com))
  let held := isShadowed r.base && s.groupPending r.base
  let allRws := r.fields.all (fun x => x.acc != .rw)
  let rule := (!com && allRws) || s.valueRule r.base i v
  if held || !rule || !w.all (fun x => x.lim.ok x.f.w (bits v x.f.lo x.f.w)) then s.refuseWrite off v ag
  else
    let was := s.word off
    let s1 := (s.putFields i v w).clearOnes i v (r.fields.filter (fun x => x.acc == .w1c && (ag == .host || x.f != ADC_STATUS.CHK_FAIL)))
    let s1 := s1.afterWrite r.base i was
    let s1 := if com && safetySet.contains off then s1.safetyWritten else s1
    if com then s1 else s1.reportRws off v ag

/-! ### Registers with a behaviour of their own -/

/-- A write of PWR_CTRL (R640, R647). -/
def State.writePwrCtrl (s : State) (v : Nat) : State :=
  let s := if bitOf v 31 then s.askSleep else s
  if bitOf v 30 then s.askShutdown else s

/-- A write of LINK_CTRL (R299); both directions at once are refused. -/
def State.writeLinkCtrl (s : State) (v : Nat) : State :=
  if bitOf v 31 && bitOf v 30 then s.refuse LINK_RING_STATUS_r.CFG_ERR
  else if bitOf v 31 then s.goFull (bits v 0 16)
  else if bitOf v 30 then s.goWadi (bits v 0 16)
  else s

/-- A write of MIR_STATUS: ISLAND by R212, the other bits per R14. -/
def State.clearMir (s : State) (v : Nat) : State :=
  let s := if bitOf v 31 && s.bit MIR_STATUS.ISLAND then s.clearIsland else s
  let s := if bitOf v 24 then s.wr MIR_STATUS.FAULT 0 else s
  if bitOf v 23 then s.wr MIR_STATUS.CFG_ERR 0 else s

/-- A write of CLK_REF_STATUS: REF_SUSPECT is not cleared while its condition holds (R619, R657). -/
def State.clearSuspect (s : State) (v : Nat) : State :=
  if !bitOf v 26 then s
  else if s.clk.suspect then s.refuse CLK_PLL_STATUS.CFG_ERR
  else s.wr CLK_REF_STATUS.REF_SUSPECT 0

/-- A write of ADC_Q_CAP_q (R381): the fields, and ARM. -/
def State.writeQCap (s : State) (q v : Nat) : State :=
  let s := s.putRwi ADC_Q_CAP_q.CMP q v
  if bitOf v 12 then s.qArm q else s

/-- The registers of blocks 0x00 to 0x09 that have a behaviour of their own. -/
def State.writeLow (s : State) (r : RegRow) (i off v : Nat) (ag : Agent) : State :=
  let b := r.base
  if b = LC_CTRL.TARGET.base then s.writeLife v
  else if b = CLK_REF_STATUS.SEL.base then s.clearSuspect v
  else if b = CLK_PLL_SEED_p.SEED.base then s.writeSeed i v
  else if b = CLK_TICK_CFG.PERIOD.base then s.writeTickCfg v
  else if b = CLK_TICK_DEADLINE_n.DEADLINE.base then s.writeDeadline i v
  else if b = CLK_SHED_CFG.MAX_LEVEL.base then s.writeShedCfg v
  else if b = SYNC_SEC.NEXT.base then s.writeSec v
  else if b = PWR_CTRL.SLEEP.base then s.writePwrCtrl v
  else if b = PWR_BOOT_CTRL.PERSIST.base then (if bitOf v 31 then s.askPersist else s)
  else if b = HOST_WALK_ROOT_LO.EN.base then s.writeWalkRoot false v
  else if b = HOST_WALK_ROOT_HI.ADDR_HI.base then s.writeWalkRoot true v
  else if b = HOST_WALK_INV.ALL.base then s.writeWalkInv v
  else if b = RING_CFG_n.EN.base then s.writeRingCfg i v
  else if b = RING_CTRL_n.STOP.base then s.writeRingCtrl i v
  else s.setFieldsOf r off v ag

/-- The registers of blocks 0x0A to 0x12 that have a behaviour of their own. -/
def State.writeMid (s : State) (r : RegRow) (i off v : Nat) (ag : Agent) : State :=
  let b := r.base
  if b = TRI_CTRL.RESTART.base then (if bitOf v 31 then s.restartTriad ag else s)
  else if b = CRC_CFG.POLY.base then s.writeCrcCfg v
  else if b = CRC_DATA.DATA.base then s.writeCrcData 4 v
  else if b = CRC_SEED.SEED.base then s.writeCrcSeed v
  else if b = LINK_CFG.STARVE_TICKS.base then s.writeLinkCfg v
  else if b = LINK_RING_EN.EN.base then s.writeRingEn v
  else if b = LINK_CTRL.RINGS.base then s.writeLinkCtrl v
  else if b = HGS_PLANT_VOLT.VNOM.base ∨ b = HGS_PLANT_CUR.XF.base then s.writeRating (decide (b = HGS_PLANT_CUR.XF.base)) v ag
  else if b = HGS_TABLE_CTRL.SWAP.base then (if bitOf v 31 then s.hgsSwap else s)
  else if b = HGS_CELL_CFG_n.ENABLE.base then s.writeCellCfg i v ag
  else if b = HGS_CELL_TIMING_n.DT.base then s.writeCellTiming i v ag
  else if b = CTL_MODE.PRIO.base then s.writeCtlMode v
  else if b = CTL_TABLE_CTRL.SWAP.base then (if bitOf v 31 then s.ctlSwap ag v else s)
  else s.setFieldsOf r off v ag

/-- The registers of blocks 0x13 to 0x1F that have a behaviour of their own. -/
def State.writeHigh (s : State) (r : RegRow) (i off v : Nat) (ag : Agent) : State :=
  let b := r.base
  if b = SYNC_PLL_CFG.BW.base then s.writePllCfg v
  else if b = SYNC_MODE.SP_RATE.base then s.writeSyncMode v ag
  else if b = FRT_TABLE_CTRL.SWAP.base then (if bitOf v 31 then s.frtSwap ag v else s)
  else if b = MIR_BASE.ZR.base then s.writeMirBase v
  else if b = MIR_STATUS.ISLAND.base then s.clearMir v
  else if b = MIR_TABLE_CTRL.SWAP.base then (if bitOf v 31 then s.mirSwap ag v else s)
  else if b = PORT_TABLE_CTRL.SWAP.base then (if bitOf v 31 then s.portSwap ag v else s)
  else if b = PORT_CTRL.CELL.base then s.writePortCtrl v
  else if b = PORT_PV_CFG_n.ROW.base then s.writePvCfg i v
  else if b = PORT_PACK_LIM_n.IDIS.base then s.writePack 0 i v
  else if b = PORT_PACK_WIN_n.TAPER.base then s.writePack 1 i v
  else if b = PORT_PACK_VLIM_n.VMAX.base then s.writePack 2 i v
  else if b = PORT_PACK_SOH_n.SOH.base then s.writePack 3 i v
  else if b = ADC_CTL_CFG.NAVG.base then s.writeCtlCfg v
  else if b = ADC_CH_CFG_n.EN.base then s.writeChCfg i v
  else if b = ADC_CH_CAL_n.GAIN.base then s.writeChCal i v
  else if b = ADC_SW_TRIG.FIRE.base then s.swTrig v
  else if b = ADC_Q_CFG_q.EN.base then s.writeQCfg i v
  else if b = ADC_Q_CAP_q.CMP.base then s.writeQCap i v
  else if b = CMP_CFG_n.MODE.base then s.writeCmp i false v
  else if b = CMP_RAMP_n.SLOPE.base then s.writeCmp i true v
  else if b = CMP_STATUS.LATCH.base then s.cmpClear (bits v 0 16)
  else s.setFieldsOf r off v ag

/-- The registers of blocks 0x20 to 0x28 that have a behaviour of their own. -/
def State.writeTop (s : State) (r : RegRow) (i off v : Nat) (ag : Agent) : State :=
  let b := r.base
  if b = SLC_DRV_SC_STATUS.LEGS0.base then s.clearDriveSc v
  else if b = SLC_TRIP_LATCH.CMP.base then s.clearLatch v
  else if b = SLC_CTRL.STOP.base then s.writeSlcCtrl v
  else if b = SAFE_CONFIRM.SAFETY_CONFIRM.base then s.writeConfirm v ag
  else if b = SAFE_STATUS.PROOF.base then s.clearSafeStatus v
  else if b = MTR_CAL_CTRL.SWAP.base then (if bitOf v 31 then s.calSwap else s)
  else if b = AUX_CTRL_m.SPEED.base then s.writeAuxCtrl i v
  else s.setFieldsOf r off v ag

/-! ### Any write -/

/-- Entry `i` of a register family belongs only to what the PN7120 lacks (R4): rings 8 to 15, their lanes and cells. -/
def State.absentReg (s : State) (r : RegRow) (i : Nat) : Bool :=
  s.small &&
  ((r.count == 240 && decide (120 ≤ i)) || (r.base == LINK_RING_STATUS_r.STATE.base && decide (8 ≤ i)) ||
   (r.base == LINK_LANE_ERR_l.CODE.base && decide (16 ≤ i)))

/-- A byte or half-word write of CRC_DATA (R446, R695): the enabled bytes, from the least significant up. -/
def State.crcBytes (s : State) (be v : Nat) : Option State :=
  if be = 1 ∨ be = 2 ∨ be = 4 ∨ be = 8 then
    some (s.writeCrcData 1 (if be = 1 then v else if be = 2 then bits v 8 8 else if be = 4 then bits v 16 8 else bits v 24 8))
  else if be = 3 then some (s.writeCrcData 2 v)
  else if be = 12 then some (s.writeCrcData 2 (bits v 16 16))
  else none

/-- A write with partial byte enables is refused: a record, and the block's CFG_ERR (R386, R695). -/
def State.refusePartial (s : State) (off v : Nat) (ag : Agent) : State :=
  match errField off with
  | some f => (s.configRefused off v ag).refuse f
  | none => s.configRefused off v ag

/-- A write of a word, with byte enables, to a BAR2 offset (R14, R15, R695, R696). A host in D3hot reaches no register
(R496). -/
def State.regWrite (s : State) (ag : Agent) (off be v : Nat) : State :=
  let v := v % 2 ^ 32
  if (s.hst.d3 ∧ ag = .host) ∨ off % 4 ≠ 0 ∨ 0x290000 ≤ off then s
  else
    match regAt off with
    | none =>
      let activeCopy : Bool := decide (0x8000 ≤ off % 0x10000) &&
        (match regAt (off - 0x8000) with
         | some r => isShadowed r.base
         | none => false)
      if activeCopy then s else s.configRefused off v ag
    | some r =>
      let i := (off - r.base) / 4
      if s.absentReg r i then s
      else if be % 16 ≠ 15 then
        match (if r.base = CRC_DATA.DATA.base then s.crcBytes (be % 16) v else none) with
        | some s' => s'
        | none => s.refusePartial off v ag
      else if off < 0xA0000 then s.writeLow r i off v ag
      else if off < 0x130000 then s.writeMid r i off v ag
      else if off < 0x200000 then s.writeHigh r i off v ag
      else s.writeTop r i off v ag

/-- A host register write as the members take it (R466, R467): the copies of the address and of the byte enables are voted
bit by bit, those of the data as numbers. -/
def State.votedWrite (s : State) (w : WriteCopy) (skew : List (Member × WriteCopy)) : State × WriteCopy :=
  let c := copyOf skew w
  let a := s.voted majority3 (fun m => (c m).off)
  let b := a.1.voted majority3 (fun m => (c m).be)
  let d := b.1.voted median3 (fun m => sgn 32 (c m).value)
  (d.1, ⟨a.2.toNat, b.2.toNat, unsg 32 d.2⟩)

/-- REGISTER_WRITE (R14, R15, R466, R695 to R700): a write of any register, by any agent. The host's passes the agreement
point; the debugger's reaches the device where debug access is open (R478). -/
def execRegisterWrite (ag : Agent) (off be : Nat) (x : WordIn) (t : Nat) (s : State) : Host.Outcome State Fault Refusal :=
  .next <| s.live fun s =>
    let s := s.moveTo t
    match ag with
    | .host =>
      let (s, w) := s.votedWrite ⟨off, be, x.value % 2 ^ 32⟩ x.skew
      s.regWrite .host w.off w.be w.value
    | ag => if s.admits ag then s.regWrite ag off be x.value else s

/-! ### Reads that clear (R14, R697) -/

/-- Clear every RC field of a register's entry. -/
def State.clearRc (s : State) (i : Nat) : List FieldRow → State
  | [] => s
  | r :: t => (if r.acc == .rc then s.wri r.f i 0 else s).clearRc i t

/-- The word an agent reads at an offset: what the agent's own latch holds for the upper halves of the two times and for
the words of the port window after the first (R574, R624, R697), else the register's word. -/
def State.readWord (s : State) (ag : Agent) (off : Nat) : Nat :=
  if off = CLK_ELAPSED_HI.E_HI.base then s.tm.latE.get ag
  else if off = CLK_ALIGN_OFS_HI.O_HI.base then s.tm.latO.get ag
  else if MTR_PORT_DATA_n.W.base < off ∧ off < MTR_PORT_DATA_n.W.base + 36 then
    (s.mtr.win.get ag).getD ((off - MTR_PORT_DATA_n.W.base) / 4) 0
  else s.word off

/-- A register whose word is one number: the vote on what firmware reads of it is the median; of every other it is the
majority per bit (R466; log entry 131). -/
def numberWord (off : Nat) : Bool :=
  match regAt off with
  | some r => r.fields.any (fun x => x.f.w == 32)
  | none => decide (0x1000000 ≤ off)

/-- A read returns a value; what firmware reads of an agreed source is the running members' vote on their samples (R466,
R467). -/
def State.give (s : State) (ag : Agent) (x : ReadIn) (v : Nat) : State :=
  if ag = .firmware ∧ x.skew ≠ [] then
    let c := copyOf x.skew v
    if numberWord x.off then
      let r := s.voted median3 (fun m => sgn 32 (c m))
      r.1.emit (.readData ag x.off (unsg 32 r.2))
    else
      let r := s.voted majority3 (fun m => (c m : Int))
      r.1.emit (.readData ag x.off r.2.toNat)
  else s.emit (.readData ag x.off v)

/-- Firmware reads a queue that does not drain to the host (R359): the lower half of its oldest entry, or the upper half,
which takes the entry out (log entry 106). -/
def State.queueRead (s : State) (q : Nat) (x : ReadIn) : State :=
  let s := s.qRun q s.tm.e
  match (s.queue q).ents with
  | [] => s.give .firmware x 0
  | e :: rest =>
    if s.biti ADC_Q_CFG_q.DRAIN q then s.give .firmware x 0
    else
      let w := ofBytes (entryBytes e)
      if x.off / 4 % 2 = 0 then s.give .firmware x (w % 2 ^ 32)
      else ((s.setQueue q { s.queue q with ents := rest }).give .firmware x (w / 2 ^ 32)).qClose q

/-- A read outside the device registers (R459, R466): firmware's own CRC unit, dispatch interface, read ports and memory, and the
debugger's of memory and core registers through the lead member (R478). What the dispatch interface gives has no layout in the
spec, so its value is open (log entry 130). Any other read by firmware traps. -/
def State.coreRead (s : State) (ag : Agent) (x : ReadIn) : State :=
  let a := (0x40000000 + x.off) % 2 ^ 32
  if ag = .host then s.emit (.readData ag x.off 0)
  else if 2 ^ 32 ≤ x.off then s.emit (.readData ag x.off (if ag = .debugger then s.coreReg ((x.off - 2 ^ 32) / 4) else 0))
  else if inBank a || inRam a || inRegion a then s.emit (.readData ag x.off (s.memWord a))
  else if inCrc a then s.emit (.readData ag x.off (s.memberCrcWord (a - 0x41000000)))
  else if ag = .debugger then s.emit (.readData ag x.off 0)
  else if inDispatch a then s.used.give ag x (s.freeVal 14 % 2 ^ 32)
  else if inPorts a then s.queueRead ((a - 0x43000000) / 0x10000) x
  else s.badAccess

/-- RC_FIELD_READ (R14, R695, R697): the value is returned, then the RC fields are cleared for every agent. A read of a
register that latches for its reader does that too; a queue's, the comparators' and the motor channels' status are of the
instant of the read (R382, R390, R588). A misaligned read by firmware traps (R459). -/
def execRcFieldRead (ag : Agent) (x : ReadIn) (t : Nat) (s : State) : Host.Outcome State Fault Refusal :=
  .next <| s.live fun s =>
    let s := s.moveTo t
    let off := x.off
    if !s.admits ag then s
    else if off % 4 ≠ 0 then (if ag = .firmware then s.badAccess else s)
    else if 0x1000000 ≤ off then s.coreRead ag x
    else if off = CLK_ELAPSED_LO.E_LO.base then s.elapsedRead ag
    else if off = CLK_ALIGN_OFS_LO.O_LO.base then s.alignRead ag
    else if off = MTR_PORT_DATA_n.W.base then s.portRead ag
    else
      match regAt off with
      | none => s.give ag x (s.readWord ag off)
      | some r =>
        let i := (off - r.base) / 4
        if s.absentReg r i then s.give ag x 0
        else
          let s := if off / 0x10000 = ADC_Q_STATUS_q.STATE.base / 0x10000 then s.cmpLook.qRunAll
            else if off / 0x10000 = CMP_STATUS.LIVE.base / 0x10000 then s.cmpLook
            else if off / 0x10000 = AUX_STATUS_m.HOLD.base / 0x10000 then s.auxHolds else s
          (s.give ag x (s.readWord ag off)).clearRc i r.fields

end Sys2Proof.Machine
end

