-- ==== Sys2Proof/Machine/Commit.lean ====
section
/-! DEFINITION. The majority commit of the members' writes and the debugger's writes (13_control_triad.md, R459, R465,
R468 to R470, R478). -/
namespace Sys2Proof.Machine
open Reg

/-- A core address of a device register, as its BAR2 offset (R459, R692). -/
def deviceOffset (addr : Nat) : Option Nat :=
  if 0x40000000 ≤ addr ∧ addr < 0x41000000 then some (addr - 0x40000000) else none

/-- The entry whose write it may be is the one that runs (R461): RESET until tready, TICK and MIGRATE from the S0
deadline to tend, BACKGROUND otherwise, from the first tend on. -/
def State.entryRuns (s : State) (en : Entry) : Bool :=
  s.tri.imageOk &&
  (match en with
   | .reset => !s.pwr.tready
   | .tick => s.tm.s1run
   | .migrate => s.tm.s1run && s.tri.swapTick
   | .background => s.pwr.tready && !s.tm.s1run && !s.tri.bgDropped)

/-- A write leaves in the immediate class (R469): of BACKGROUND and RESET, and of any entry to SLC_CTRL, which holds the
breaker and block commands. -/
def immediate (en : Entry) (addr : Nat) : Bool :=
  en == .background || en == .reset || deviceOffset addr == some SLC_CTRL.STOP.base

/-- A write enters the tick-bound queue, whose 513th write traps (R469). -/
def State.queueTb (s : State) (en : Entry) (l : List TbItem) : State :=
  if 512 ≤ s.tri.tbN then s.trapNow en
  else { s with tri := { s.tri with tb := s.tri.tb ++ l, tbN := s.tri.tbN + 1 } }

/-- A store into the members' own memory and CRC units, where the map and PM_WRITE allow it (R459, R463, R465); else it
traps. A store to a read port stores nothing. -/
def State.coreStore (s : State) (en : Entry) (w : PortWrite) : State :=
  let v := w.data % 2 ^ 32
  if inRam w.addr then s.storeRam w.addr w.be v
  else if inRegion w.addr then (if en = .tick ∨ en = .migrate then s.storeRegion w.addr w.be v else s.trapNow en)
  else if inBank w.addr then (if s.bit TRI_CFG.PM_WRITE then s.storeBank w.addr w.be v else s.trapNow en)
  else if inCrc w.addr then s.memberCrc (w.addr - 0x41000000) w.be v
  else if inPorts w.addr then s
  else s.trapNow en

/-- A write leaves the commit unit (R469, R470): at once, or into the tick-bound queue; one to the members' own memory is
stored. A write to the dispatch interface is queued and counted; its layout is the toolchain's, and the law outputs that it
carries are those of the law (log entry 130). A misaligned one traps (R459). -/
def State.leave (s : State) (en : Entry) (w : PortWrite) : State :=
  if w.addr % 4 ≠ 0 ∨ laneOk w.be = false then s.trapNow en
  else
    match deviceOffset w.addr with
    | some off => if immediate en w.addr then s.regWrite .firmware off w.be w.data else s.queueTb en [.reg off w.data w.be]
    | none => if inDispatch w.addr then (if immediate en w.addr then s else s.queueTb en []) else s.coreStore en w

/-- The majority's write leaves, if the majority has one. -/
def State.leaveMaj (s : State) (en : Entry) : Option PortWrite → State
  | some w => s.leave en w
  | none => s

/-- The address that a record of a mismatch names: that of the majority's write, else of the odd one. -/
def oddAddr (maj odd : Option PortWrite) : Nat :=
  match maj, odd with
  | some w, _ => w.addr
  | none, some w => w.addr
  | none, none => 0

/-- Three members write (R468). Without a majority the address recorded is open (log entry 1). -/
def State.commit3 (s : State) (en : Entry) (a b c : Option PortWrite) : State :=
  if a = b ∧ b = c then s.leaveMaj en a
  else if a = b then (s.leaveMaj en a).fence 2 0 (oddAddr a c)
  else if a = c then (s.leaveMaj en a).fence 1 0 (oddAddr a b)
  else if b = c then (s.leaveMaj en b).fence 0 0 (oddAddr b a)
  else s.used.secondMismatch 0 (s.freeVal 9 % 2 ^ 32)

/-- Two members write (R468, R475). -/
def State.commit2 (s : State) (en : Entry) (a b : Option PortWrite) : State :=
  if a = b then s.leaveMaj en a else s.secondMismatch 0 (oddAddr a b)

/-- WRITE_COMMIT (R468 to R470): what each member's write port holds in a cycle; a member that does not run is not
compared. In BOOT and FAILED nothing commits (R458). -/
def execWriteCommit (en : Entry) (a b c : Option PortWrite) (t : Nat) (s : State) : Host.Outcome State Fault Refusal :=
  .next <| s.live fun s =>
    let s := s.moveTo t
    let mode := s.rd TRI_STATUS.MODE
    if !s.entryRuns en then s
    else if mode = 1 then s.commit3 en a b c
    else if mode = 2 ∨ mode = 3 then
      if !s.running 0 then s.commit2 en b c else if !s.running 1 then s.commit2 en a c else s.commit2 en a b
    else s

/-! ### The debugger's writes (R478) -/

/-- A debugger's write to core address space or to a core's registers, replayed into every running member (R459, R465,
R478; log entry 128). -/
def State.debugStore (s : State) (addr be v : Nat) : State :=
  if 2 ^ 32 ≤ addr then s.setCoreReg ((addr - 2 ^ 32) / 4) v
  else if inBank addr then s.storeBank addr be v
  else if inRam addr then s.storeRam addr be v
  else if inRegion addr then s.storeRegion addr be v
  else if inCrc addr then s.memberCrc (addr - 0x41000000) be v
  else s

/-- DEBUG_WRITE (R478): accepted while debug access is open and a member runs; a device register's write passes the commit
as three identical ones, in the immediate class. -/
def execDebugWrite (w : PortWrite) (t : Nat) (s : State) : Host.Outcome State Fault Refusal :=
  .next <| s.live fun s =>
    let s := s.moveTo t
    if !s.admits .debugger || w.addr % 4 != 0 then s
    else
      match deviceOffset w.addr with
      | some off => s.regWrite .debugger off w.be w.data
      | none => s.debugStore w.addr w.be (w.data % 2 ^ 32)

/-! ### The tick-bound queue at tend (R469, R470) -/

/-- One waiting write leaves. -/
def State.releaseItem (s : State) : TbItem → State
  | .fld f i v => s.wri f i v
  | .inc f i => s.inci f i 1
  | .reg off val be => s.regWrite .firmware off be val
  | .ev ty pay => s.post ty pay
  | .comp c => { s with hst := { s.hst with comps := s.hst.comps ++ [c] } }

/-- The tick-bound writes leave in issue order. -/
def State.releaseTb (s : State) : State :=
  let l := s.tri.tb
  l.foldl (fun s x => s.releaseItem x) { s with tri := { s.tri with tb := [], tbN := 0 } }

end Sys2Proof.Machine
end

