-- ==== Sys2Proof/Machine/HostRead.lean ====
section
/-! DEFINITION. What comes back from host memory: table entries of a walk, data of a descriptor's read, errors and
timeouts (14_host_interface.md, R508, R512 to R517). -/
namespace Sys2Proof.Machine
open Reg

/-- Data of a read arrived in full: the descriptor's work goes on (R326, R481, R322). -/
def State.dataDone (s : State) (j : Job) (l : List Byte) : State :=
  let s := { s with hst := { s.hst with jobs := s.hst.jobs.filter (fun x => x.id != j.id) } }
  match j.kind with
  | .furrow d cell kind len _ => s.furrowDone d cell kind (l.take len)
  | .fwStage d offset len last differ _ => s.staged d offset last differ (l.take len)
  | .nodeFw _ cell len _ => s.nodeFwData cell (l.take len)
  | _ => s

/-- Data of a read came for the page asked for last (R512): on to the next page, or all of it is there. -/
def State.dataPart (s : State) (j : Job) (l : List Byte) : State :=
  let x := pageSpan j.kind.range.1 j.kind.range.2 (j.todo.headD 0)
  let got := j.got ++ l.take (x.2 - x.1)
  match j.todo.drop 1 with
  | [] => s.dataDone j got
  | ps =>
    let j' : Job := { j with todo := ps, got := got, due := s.tm.e + s.rd HOST_WALK_CFG.TIMEOUT * 1000 }
    (s.putJob j').askData j'

/-- A job's access failed with a status; DETAIL is the walk level, 0 in the data phase (R507, R508). A stage that fails
there is partly written, and leaves STAGED at 0 (R514). -/
def State.failJob (s : State) (j : Job) (walk data : Nat) : State :=
  let s := { s with hst := { s.hst with jobs := s.hst.jobs.filter (fun x => x.id != j.id) } }
  let page := j.todo.headD (j.kind.range.1 / 4096)
  match j.phase with
  | .level1 => s.failAccess j.kind walk 1 page
  | .level2 _ => s.failAccess j.kind walk 2 page
  | .data =>
    let s := match j.kind with
      | .fwStage .. => s.unstage
      | _ => s
    s.failAccess j.kind data 0 page

/-- What follows a finished translation: buffers and journal reads take their pages, an EVENT ring writes what waits. -/
def State.afterRead (s : State) (k : JobKind) : State :=
  let s := s.takeBuffers.takeJournal
  match k with
  | .entry r => if s.rdi RING_CFG_n.TYPE r = 2 then s.drain r else s
  | _ => s

/-- The ring's next descriptor could be fetched, so a read of it may be outstanding. -/
def State.fetchFails (s : State) (r status : Nat) : State :=
  if s.ringReady r then s.failAccess (.fetch r) status 0 (faultPage (s.slotAddr r (s.rdi RING_STATE_n.CONS r))) else s

/-- HOST_READ_COMPLETION (R508, R514): data or an error for an outstanding read. A descriptor that was read is a command
of its own. -/
def execHostReadCompletion (of : ReadOf) (data : ReadData) (t : Nat) (s : State) : Host.Outcome State Fault Refusal :=
  .next <| s.live fun s =>
    let s := s.moveTo t
    match of with
    | .fetch ring => match data with
      | .error => s.fetchFails ring.val 0x16
      | _ => s
    | .job id =>
      match s.hst.jobs.find? (fun j => j.id == id) with
      | none => s
      | some j =>
        match j.phase, data with
        | _, .error => (s.failJob j 0x13 0x16).afterRead j.kind
        | .data, .bytes l => s.dataPart j l
        | .data, .entry _ => s
        | _, .entry v => (s.walkEntry j v).afterRead j.kind
        | _, .bytes l => (s.walkEntry j (ofBytes (l.take 8))).afterRead j.kind

/-- HOST_READ_TIMEOUT (R508, R528): no completion within TIMEOUT. -/
def execHostReadTimeout (of : ReadOf) (t : Nat) (s : State) : Host.Outcome State Fault Refusal :=
  .next <| s.live fun s =>
    let s := s.moveTo t
    match of with
    | .fetch ring => s.fetchFails ring.val 0x17
    | .job id =>
      match s.hst.jobs.find? (fun j => j.id == id) with
      | none => s
      | some j => if j.due ≤ s.tm.e then (s.failJob j 0x14 0x17).afterRead j.kind else s

/-- POWER_STATE_CHANGE (R495, R515): a write of configuration space. D3hot stops host writes and BAR access; a return to D0
resumes where things stood. -/
def execPowerStateChange (x : ConfigIn) (s : State) : Host.Outcome State Fault Refusal :=
  .next <| s.live fun s =>
    let s := { s with hst := { s.hst with d3 := x.d3hot, bars := x.bars } }
    if x.d3hot then s else (s.takeJournal.drain (s.evRing 0)).drain (s.evRing 0x80)

end Sys2Proof.Machine
end

