-- ==== Sys2Proof/Machine/Intake.lean ====
section
/-! DEFINITION. What the device takes from a cell's telemetry at the end of a frame interval (R28, R36, R63, R229, R327,
R330, R411, R542), and the wadi frame, whose interval ends with the next one (R294). -/
namespace Sys2Proof.Machine
open Reg

/-- A link voltage report of the interval enters the averages of R63. -/
def State.linkReport (s : State) (c : Nat) : State :=
  s.updCell c fun x =>
    if x.link.fresh then
      let v := x.link.tel.vlink
      { x with link := { x.link with
          vSum := x.link.vSum + v, vCnt := x.link.vCnt + 1, vAllSum := x.link.vAllSum + v, vAllCnt := x.link.vAllCnt + 1 } }
    else x

/-- A PV cell's port power, an average over the last completed tick, joins its reports (R229, R269). -/
def State.powerReport (s : State) (c : Nat) : State :=
  s.updCell c fun x =>
    if x.link.fresh then
      { x with port := { x.port with powers := (s.tm.n - 1, x.link.tel.portP) :: x.port.powers.take 600 } }
    else x

/-- Telemetry shows TRIPPED with no /TR/ received (R313, R398, R411): the trip is recorded, and one cell block is sent. -/
def State.tripSeen (s : State) (c : Nat) : State :=
  let x := s.cell c
  if x.link.fresh ∧ x.link.tel.tripped ∧ s.sstate c ≠ 0 ∧ s.sstate c ≠ 8 ∧ s.sstate c ≠ 9 ∧ x.svc.trip = none then
    ((s.cellLoss c).blockCell c).updCell c (fun x => { x with svc := { x.svc with trip := some 255 } })
  else s

/-- The node of a FAULTED cell with RETURN has cleared TRIPPED after a RELEASE: the join resumes (R321) at the next boundary
(R309). -/
def State.returnSeen (s : State) (c : Nat) : State :=
  let x := s.cell c
  match x.svc.retTicks with
  | some n =>
    if 1 ≤ n ∧ x.link.fresh ∧ !x.link.tel.tripped ∧ s.sstate c = 8 ∧ !s.asleep then
      (s.updCell c (fun x => { x with svc := { x.svc with retTicks := none } })).askEnter c 4
    else s
  | none => s

/-- A frame interval of `ns` ends for a cell. `charge`: its frame brings CHARGE. -/
def State.intakeCell (s : State) (c ns : Nat) (charge : Bool) : State :=
  let s := (s.countMissing c).linkReport c
  let s := if s.role c = 2 then s.powerReport c else s
  let s := s.meterPort c ns charge
  let s := if s.role c = 1 then s.packWindow false c else s
  ((s.joinTick c ns).tripSeen c).returnSeen c

/-- Commands with SPILL = 1 sent since the first are counted (R312). -/
def CellSvc.spillCount (x : CellSvc) : CellSvc := { x with spillTicks := x.spillTicks.map (· + 1) }

/-- WADI_FRAME_DUE (R294): every INTERVAL, or every 1 ms at B3 awake. The frame interval before it ends for each enabled
cell of the ring; SPILL is counted per frame. The frame passes the comparison of the dispatch copies (R468). -/
def execWadiFrameDue (x : WadiIn) (t : Nat) (s : State) : Host.Outcome State Fault Refusal :=
  .next <| s.live fun s =>
    let s := s.moveTo t
    let r := x.ring.val
    let ms := if s.stage = 3 ∧ !s.bit PWR_STATUS.SLEEP then 1 else s.rd LINK_WADI_CFG.INTERVAL
    if !s.wadiRate r ∨ s.tm.e < (s.ring r).wadiTx + ms * 1000000 then s
    else
      let ns := s.tm.e - (s.ring r).wadiTx
      let s := s.countReturns r
      let s : State := (List.range 15).foldl (fun s q =>
        if s.enabled (r * 15 + q) then
          (s.intakeCell (r * 15 + q) ns true).updCell (r * 15 + q) (fun x => { x with svc := x.svc.spillCount })
        else s) s
      let s := s.setRing r { s.ring r with wadiTx := s.tm.e }
      let (s, g) := if s.asleep then (s, none) else s.takeGrant r (s.ring r).jrs
      let (s, slots) := s.wadiSlots s.nextTick r (List.range 15)
      s.agreed 1 none x.agree (fun s =>
        s.sendFrame { s.header r with kind := .wadi, period := 0, launchOfs := 0, compact := false, grant := g.map posOf } slots) id

end Sys2Proof.Machine
end

