-- ==== Sys2Proof/Machine/Release.lean ====
section
/-! DEFINITION. The release of the converter: its checks, its refusal, and what the frames that carry it end (R408, R410,
R56, R139, R174). -/
namespace Sys2Proof.Machine
open Reg

/-- R56: six cells in service in each phase, the plant rating written, the derating row not 4. -/
def State.plantReady (s : State) : Bool :=
  (List.range 3).all (fun p => decide (6 ≤ (s.inService p).length)) && s.rd HGS_PLANT_VOLT.VNOM != 0 &&
  s.rd HGS_PLANT_CUR.IRATED != 0 && s.rd HGS_PLANT_CUR.XF != 0 && s.rd HGS_RATING_STATUS.DERATE_ROW != 4

/-- R343: functions 1 to 9 are held, and no path check has failed. -/
def State.sensorsReady (s : State) : Bool :=
  (List.range 9).all (fun k => s.measured (k + 1)) && s.rd ADC_STATUS.CHK_FAIL == 0

/-- The conditions of R408 beside the checks of other rules; a routed comparator must not be LIVE, blanked or not. -/
def State.fabricReady (s : State) : Bool :=
  (s.slc.causes &&& s.latchWord) == 0 && (List.range 16).all (fun n => !(bitOf s.slc.live n && s.routed n)) &&
  s.sourceActive SLC_TRIP_LATCH.SAFETY_IN == 0 && s.sourceActive SLC_TRIP_LATCH.TRIP_IN == 0 &&
  s.rd PWR_STATUS.PF_WARN == 0 && decide (s.slc.lastLatch + s.rd SLC_CFG.MIN_BLOCK * 10000000 ≤ s.tm.e) &&
  s.rd SLC_BLOCK_STATUS.BRK == 0

/-- R430, R431: PROOF is DONE, and an input has type 2. -/
def State.proofReady (s : State) : Bool := s.rd SAFE_STATUS.PROOF == 1 && (List.range 8).any (fun n => s.rdi SAFE_IN_CFG_n.TYPE n == 2)

/-- R436: with safe messages in use the connection is up, its last message asks for no stop and names our check value. -/
def State.netReady (s : State) : Bool :=
  !s.bit SAFE_NET_CFG.EN || (s.bit SAFE_NET_STATUS.CONN_UP && !s.bit SAFE_NET_STATUS.STOP_RX && !s.bit SAFE_NET_STATUS.CV_DIFF)

/-- R440, R441: in COMMISSIONED the set is confirmed; never with CV_ERR. -/
def State.confirmReady (s : State) : Bool :=
  (s.rd LC_STATE.STATE != 3 || s.bit SAFE_STATUS.CONFIRMED) && !s.bit SAFE_STATUS.CV_ERR

/-- R294: no enabled cell's ring is in wadi mode, training, or on its way to full rate. -/
def State.ringsReady (s : State) : Bool :=
  s.ringsOn.all (fun r => !([1, 2, 3].contains (s.ringState r)) || (s.plant.all (fun c => ringOf c != r)))

/-- The failed checks of a release request as CHECKS of RELEASE_REFUSED (R520). -/
def State.releaseChecks (s : State) : Nat :=
  let bad : List Bool :=
    [!s.plantReady,
     !s.ctlSetOk s.acti (s.act CTL_MODE.NOTCH_EN == 1),
     !s.law.src.gfm && !s.bit SYNC_STATUS.LOCKED,
     s.law.sup.state == 4 && !s.bit FRT_STATUS.ENTER_OK,
     !s.curvesReady,
     !s.detectorReady || !s.dmaxOk s.act,
     !s.sensorsReady,
     !s.fabricReady,
     !s.proofReady,
     !s.netReady,
     !s.confirmReady,
     !s.ringsReady,
     decide (s.stage < 3),
     s.bit CLK_TICK_STATUS.PERIOD_PEND]
  ((List.range 14).zip bad).foldl (fun w x => if x.2 then w + 2 ^ x.1 else w) 0

/-- The lowest bit of a word that is set. -/
def lowBit (w : Nat) : Nat := ((List.range 32).find? (bitOf w)).getD 0

/-- A release is asked for (R408, R506): refused with RELEASE_REFUSED and the failed checks, or held for the frames that carry
it. A failed check of the control set or of the probe also sets its block's CFG_ERR (R142, R215, R224). -/
def State.askRelease (s : State) (d : Desc) : State :=
  let w := s.releaseChecks
  if w = 0 then { s with slc := { s.slc with release := s.slc.release ++ [d] } }
  else
    let s := if bitOf w 5 then s.refuse MIR_STATUS.CFG_ERR else s
    let s := if bitOf w 1 then s.refuse CTL_STATUS.CFG_ERR else s
    let s := s.post 2 [(24, 4, w), (28, 1, s.rd SLC_BLOCK_STATUS.SCOPE)]
    s.complete d 2 (lowBit w) [(32, 4, w)]

/-- CONVERTER_RELEASE (R408, R506, R509): at once, or behind the descriptors of its ring that wait for their tick. -/
def execConverterRelease (h : DescHdr) (t : Nat) (s : State) : Host.Outcome State Fault Refusal :=
  .next <| s.live fun s => (s.moveTo t).runDesc h 0x02 (fun d s =>
    if s.ringWaits d.ring then s.putWait (.release d) else s.askRelease d)

/-- A descriptor that waited takes effect (R505, R506, R509): HOST_TIME pairs WALL with the elapsed time for the present
boot. -/
def State.runWait (s : State) : Wait → State
  | .hostTime d wall =>
    { s with hst := { s.hst with wall := some (wall, s.tm.e) } }.completeAtTend d 0 [(32, 8, s.tm.e)]
  | .capture d queues => s.takeCapture d queues
  | .release d => s.askRelease d

/-- What waits for its tick takes effect, after the stops of that tick (R177): the setpoints, then the other descriptors in
their order (R509). -/
def State.takeOrders (s : State) : State :=
  let s := s.applySetpoints
  s.hst.waits.foldl State.runWait { s with hst := { s.hst with waits := [] } }

/-- SETPOINT_APPLY (R177): before S1 of the tick begins; S0_DEADLINE takes what still waits then. -/
def execSetpointApply (s : State) : Host.Outcome State Fault Refusal :=
  .next (s.live fun s => if s.tm.run && s.tm.phase == 0 then s.takeOrders else s)

/-- What a release does to the law (R118, R139, R174, R210): the first tick after it takes vapp := vg; P_app and Q start
from 0; the supervisor leaves TRIPPED for NORMAL with P rising over the enter-service ramp and its timers at 0. -/
def releaseLaw (l : Law) : Law :=
  let leave := l.sup.state == 4
  { l with
    cur := { l.cur with first := true }
    src := { l.src with pApp := 0, qApp := 0, ramp := if leave then some 0 else none }
    sup := if leave then { l.sup with state := 0, timers := [], okFor := none, restore := none } else l.sup
    mir := { l.mir with seen := false } }

/-- The frames of this tick carry the release (R408, R410): no scope and no cell block is left, TRIP_OUT_N is released
(R395), and the requests complete with OK. -/
def State.carryRelease (s : State) : State :=
  if s.slc.release = [] then s
  else
    let l := s.slc.release
    let sc := s.rd SLC_BLOCK_STATUS.SCOPE
    let s := ((s.wr SLC_BLOCK_STATUS.SCOPE 0).wr SLC_BLOCK_STATUS.PHASES 0)
    let s := { s with slc := { s.slc with release := [], causes := 0, blkPend := [false, false, false] } }
    let s := if sc = 3 then s.emit (.tripOut false) else s
    let s := s.mapCells (fun _ x => { x with svc := { x.svc with cellBlk := false } })
    let s := { s with law := releaseLaw s.law, lawC := releaseLaw s.lawC }
    let s := if s.rd FRT_STATUS.STATE = 4 then s.wr FRT_STATUS.STATE 0 else s
    (l.foldl (fun s d => s.complete d 0 0 [(32, 4, 0)]) s).breakerWatch

end Sys2Proof.Machine
end

