-- ==== Sys2Proof/Machine/Tick.lean ====
section
/-! DEFINITION. The control tick: its boundary, its six stage deadlines, the tend of the TICK entry, and the frames
launched (01_architecture_and_tick.md; R95, R264 to R268, R349 to R351, R361, R461 to R463, R469). -/
namespace Sys2Proof.Machine
open Reg

/-! ### Deadlines and overruns (R27 to R39) -/

/-- The triad is halted: the tick budget monitor is suspended (R412). -/
def State.halted (s : State) : Bool := s.bit TRI_STATUS.DBG_HALT

/-- Run the work of stage `n`'s deadline, when that deadline is the next one and has come (R32, R703). -/
def State.atDeadline (s : State) (n : Nat) (g : State → State) : State :=
  if s.tm.run ∧ s.tm.phase = n ∧ s.deadline n ≤ s.tm.e then
    let s := g s
    { s with tm := { s.tm with phase := n + 1 } }
  else s

/-- The window of a stage in the units of R27: core cycles of 1 ns for S1, dispatch cycles of 2 ns for the others. -/
def State.stageWindow (s : State) (n : Nat) : Nat :=
  let d (k : Nat) : Nat := s.rdi CLK_TICK_DEADLINE_n.DEADLINE k * 10
  let w := if n = 0 then d 0 else d n - d (n - 1)
  if n = 1 then w else w / 2

/-- The work counted for a stage of this tick (R33), with the headroom trigger's count for S0 to S3 (R44). -/
def State.stageUsed (s : State) (n used : Nat) (late : Bool) : State :=
  let beyond := late || decide (s.rd CLK_SHED_CFG.HEADROOM * s.stageWindow n < 100 * used)
  { s with tm := { s.tm with
      used := s.tm.used.set n used
      headroom := s.tm.headroom.set n (if beyond then s.tm.headroom.getD n 0 + 1 else 0) } }

/-- Stage `n` of S0 to S3 has not finished by its deadline (R36, R37, R99). -/
def State.stageLate (s : State) (n : Nat) : State := if s.halted then s else (s.overrun n).dropPlan

/-! ### The tick boundary (R28, R29, R95, R703) -/

/-- What a cell that holds its previous command goes on doing (R29): its end state, no transition, no edge. -/
def Cmd.hold (c : Cmd) : Cmd := { c with start := endOf c, edge := Option.none }

/-- Signed output width in ns of a cell in the tick that ends (R95). -/
def State.signedWidth (s : State) (c : Nat) : Int :=
  let x := s.cell c
  if x.svc.blk then 0
  else if s.sched.exec = .hold then (s.period : Int) * endOf x.sch.cur
  else if x.link.fresh ∧ (x.link.tel.late ∨ x.link.tel.cmdLost) then (s.period : Int) * stateOf x.link.tel.endState
  else s.sched.sCur.getD (s.phaseOf c) 1 * (x.sch.wCur : Int)

/-- A cell starts executing what was launched for this tick: its command, or, with none, it holds the previous one
(R28, R29, R267). -/
def State.takeCommand (s : State) (c : Nat) : State :=
  let prev := s.signedWidth c
  let got := s.sched.launched != .hold && (s.cell c).sch.nxt.valid
  let t := s.period
  s.updCell c fun x =>
    let cur := if got then x.sch.nxt else x.sch.cur.hold
    let w := if got then x.sch.wNxt else t * (endOf x.sch.cur).natAbs
    { x with
      sch := { x.sch with prev := prev, cur := cur, wCur := w }
      svc := if got && cur.spill then x.svc.spillCount else x.svc }

/-- Blocks of scheduled sources reach the cells with the boundary (R394). -/
def State.takeBlocks (s : State) : State :=
  let m := (List.range 3).foldl (fun m p => if s.slc.blkPend.getD p false then m + 2 ^ p else m) 0
  if m = 0 then s
  else { s.blockPhases m with slc := { s.slc with blkPend := [false, false, false] } }

/-- The shadow sets and settings due at a boundary become active (R102, R136, R141, R176, R217, R243, R344, R566, R699). -/
def State.applyDue (s : State) : State :=
  let s := ((((s.hgsApply).ctlApply).frtApply).mirApply).portApply.calApply
  ((s.activateAll ctlModeFields).activateAll pllCfgFields).trimAll

/-- A tick begins at the boundary at or before now (R24, R625). -/
def State.beginTick (s : State) : State :=
  let good := s.tm.tended && !s.tm.abandoned
  let s : State := (List.range 240).foldl (fun s c => if s.enabled c then s.takeCommand c else s) s
  let s : State := { s with
    tm := { s.tm with
      start := s.tm.e - (s.stime % (s.period : Int)).toNat, n := s.stime / (s.period : Int), phase := 0
      s1run := s.tm.s1run && s.tri.dropTick, tended := false, overran := false, abandoned := false, late4 := false
      used := [0, 0, 0, 0, 0, 0], weir := s.rd THM_STATUS.WEIR_STEP, missed := if good then 0 else s.tm.missed + 1
      broke := s.tm.broke && (!good || s.halted || s.pwr.restart) }
    sched := { s.sched with
      uCur := s.sched.uNxt, satCur := s.sched.satNxt, sCur := s.sched.sNxt
      execPrev := s.sched.exec, exec := s.sched.launched }
    tri := { s.tri with haltTicks := if s.halted then s.tri.haltTicks + 1 else 0 } }
  let s := s.takeBlocks.applyDue.periodApply.shedClamp.rejoinStep
  let s := s.serviceDue
  let s : State := s.plant.foldl (fun s c => (s.stepTick c).rampTick c) s
  ((s.phaseCounts.joinCounts).periodStart 16).openWindows 16

/-- TICK_BOUNDARY (R24, R28, R69, R309, R703): also where the tick stops for sleep (R640) and starts after it (R641). -/
def execTickBoundary (t : Nat) (s : State) : Host.Outcome State Fault Refusal :=
  .next <| s.live fun s =>
    let s := (s.moveTo t).cmpLook.auxHolds
    if s.tm.run then
      if s.tm.phase = 6 ∧ s.tm.n < s.stime / (s.period : Int) then
        if s.pwr.sleepPend then s.enterSleep else s.beginTick
      else s
    else if s.pwr.wakePend then s.leaveSleep.beginTick
    else s

/-! ### S0: acquisition and path checks (R348 to R351, R360, R361) -/

/-- The codes at either end of the range set the converter's bit (R348). -/
def State.clipMask (s : State) (x : Stream) : Nat :=
  (List.range 16).foldl (fun m n =>
    if s.biti ADC_CH_CFG_n.EN n && ((x.codes.getD n []).map (s.codeOf n)).any clipped then m + 2 ^ n else m) 0

/-- Sum and number of codes. -/
def sumCount (l : List Int) : Int × Nat := (l.foldl (· + ·) 0, l.length)

/-- Per converter, the codes of a stream before and from the tick's start, with what the tick before it had (R361). -/
def State.splitTick (s : State) (x : Stream) : List ((Int × Nat) × (Int × Nat)) :=
  let i := firstEdge x s.tm.start
  (List.range 16).map (fun n =>
    let old := sumCount (s.codesAt x n 0 i)
    let p := s.adc.part.getD n (0, 0)
    ((p.1 + old.1, p.2 + old.2), sumCount (s.codesAt x n i x.edges.length)))

/-- A list indexed by function takes the values of the converters that hold functions 1 to 9. -/
def State.byFunction (s : State) (old : List Rat) (v : Nat → Option Rat) : List Rat :=
  (List.range 16).foldl (fun (l : List Rat) n =>
    let f := s.func n
    if 1 ≤ f ∧ f ≤ 9 then
      match v n with
      | some code => l.set (f - 1) (s.valueOf n code)
      | none => l
    else l) old

/-- The codes of a control sample (R349): 2^NAVG consecutive conversions, the last at the first edge at or after tick start
+ DELAY; none where the stream does not reach that far. -/
def State.ctlCodes (s : State) (x : Stream) (n : Nat) : List Int :=
  let i := firstEdge x (s.tm.start + s.rd ADC_CTL_CFG.DELAY)
  let k := 2 ^ s.rd ADC_CTL_CFG.NAVG
  if i < x.edges.length ∧ k ≤ i + 1 then s.codesAt x n (i + 1 - k) k else []

/-- The results of S0 are in the double buffer: control samples, probe-chain means, and the phase current sums of the
housekeeping round (R349, R361, R584). -/
def State.takeAdc (s : State) (x : Stream) (done : Bool) : State :=
  let s := s.wr ADC_OVR.OVR (s.rd ADC_OVR.OVR ||| s.clipMask x)
  let parts := s.splitTick x
  let s := { s with adc := { s.adc with part := parts.map Prod.snd } }
  if !done then s
  else
    let ctl := s.byFunction s.adc.ctl (fun n => match s.ctlCodes x n with
      | [] => none
      | l => some (meanCodes l))
    let whole := s.byFunction s.adc.whole (fun n =>
      let w := (parts.map Prod.fst).getD n (0, 0)
      if w.2 = 0 then none else some ((w.1 : Rat) / (w.2 : Rat)))
    let i (p : Nat) : Rat := ctl.getD p 0 / 10
    { s with
      adc := { s.adc with ctl := ctl, whole := whole }
      thm := { s.thm with
        ticks := s.thm.ticks + 1
        i2 := (List.range 3).map (fun p => s.thm.i2.getD p 0 + i p * i p)
        iabs := (List.range 3).map (fun p => s.thm.iabs.getD p 0 + absR (i p)) } }

/-- An enabled converter holds the function (R342). -/
def State.hasFunc (s : State) (f : Nat) : Bool := (List.range 16).any (fun n => s.func n == f)

/-- A path check has failed (R351): kind 1 pair, 2 sum, the phase, and the two values compared in A. -/
def State.checkFail (s : State) (kind phase : Nat) (a b : Rat) : State :=
  let s := ((s.wr ADC_STATUS.CHK_FAIL 1).wr ADC_STATUS.CHK_KIND kind).wr ADC_STATUS.CHK_PHASE phase
  let v (site : Nat) (x : Rat) : Nat := unsg 32 (showR site (-2147483648) 2147483647 (10 * x))
  let s := s.post 0x42 [(24, 1, kind), (25, 1, phase), (28, 4, v 90 a), (32, 4, v 91 b)]
  if s.allBlocked then s else s.safeState SLC_TRIP_LATCH.PATH_CHECK

/-- A check that has held in `k` consecutive ticks fails once, and again while CHK_FAIL has been cleared (R351). -/
def State.checkDue (s : State) (k : Nat) : Bool :=
  let lim := s.rd ADC_CHK_CFG.CHK_TICKS
  k == lim || (decide (lim ≤ k) && s.rd ADC_STATUS.CHK_FAIL == 0)

/-- The pair and sum checks of a tick (R351). -/
def State.pathChecks (s : State) : State :=
  let i (k : Nat) : Rat := s.adc.ctl.getD k 0 / 10
  let lim (f : Fld) : Rat := (s.rd f : Rat) / 1000 * s.ibase
  let pair := (List.range 3).map (fun p =>
    if s.measured (p + 1) && s.measured (p + 4) && decide (lim ADC_CHK_CFG.PAIR_LIM < absR (i p - i (p + 3))) then
      s.adc.pair.getD p 0 + 1
    else 0)
  let total := i 0 + i 1 + i 2
  let sum := if s.hasFunc 1 && s.hasFunc 2 && s.hasFunc 3 && decide (lim ADC_CHK_CFG.SUM_LIM < absR total) then s.adc.sum + 1 else 0
  let s := { s with adc := { s.adc with pair := pair, sum := sum } }
  let s : State := (List.range 3).foldl (fun s p =>
    if s.checkDue (pair.getD p 0) ∧ 0 < pair.getD p 0 then s.checkFail 1 p (i p) (i (p + 3)) else s) s
  if s.checkDue sum ∧ 0 < sum then s.checkFail 2 0 total (lim ADC_CHK_CFG.SUM_LIM) else s

/-- The term of the tick before this one in each cell's energy of the line cycle (R95), with the V_c that came in last (log
entry 96). -/
def State.cycleEnergy (s : State) : State :=
  s.plant.foldl (fun s c =>
    let i : Rat := s.adc.whole.getD (s.phaseOf c) 0 / 10
    s.updCell c fun x =>
      { x with sch := { x.sch with energy := x.sch.energy + (x.sch.prev : Rat) * ((x.link.tel.vlink : Rat) / 10) * i } }) s

/-- The TICK entry begins (R461): not before tready, not in a triad restart or while halted, and not while one runs on
whose writes are dropped (R479; log entry 31). -/
def State.s1Starts (s : State) : Bool := s.pwr.tready && !s.pwr.restart && !s.halted && !s.tm.s1run

/-- S1 up to the law: setpoints, probe sums, tracker, supervisor, detectors, ports (R118, R155, R169, R177, R211, R229,
R461, R463). The detectors of R211 come before the curves of R173 (DESIGN CHOICE, log entry 141). -/
def State.startS1 (s : State) : State :=
  let entry := if s.tri.swapTick ∧ imgWord s.activeImage 24 ≠ 0 then 24 else 16
  let s := { s with
    lawC := s.law
    tm := { s.tm with
      s1run := true, tended := false
      manual := (s.rds CTL_MANUAL.VD, s.rds CTL_MANUAL.VQ), spRate := s.rd SYNC_MODE.SP_RATE }
    tri := { s.tri with tb := [], tbN := 0, regionC := s.tri.region, tickBank := { s.tri.tickBank with pc := imgWord s.activeImage entry } } }
  let s := s.triadStop.takeOrders
  let s := { s with hst := { s.hst with atTend := s.hst.atTend ++ s.hst.atNext, atNext := [] } }
  let s := s.probeSums.track
  let s := if s.law.trk.cycle then s.trigEvent (fun n => s.rdi ADC_TRIG_CFG_t.SRC n == 4) s.tm.start else s
  let s := s.onLaw fun l => { l with
    mir := { l.mir with theta := l.trk.theta }
    origin := if l.trk.cycle then (l.origin + 1) % 240 else l.origin }
  s.supervise.detect.probeGuard.portTick

/-- The members' copies of one converter's codes are voted code by code, as numbers (R466, R467). -/
def State.votedCodes (s : State) (base : List Int) (mine : List (Member × List Int)) : State × List Int :=
  (List.range base.length).foldl (fun (a : State × List Int) i =>
    let v := a.1.voted median3 (fun m => (copyOf mine base m).getD i 0)
    (v.1, a.2 ++ [v.2])) (s, [])

/-- The control samples as the members take them: the codes of the converters on which a copy differs are voted. -/
def State.votedAdc (s : State) (x : Stream) (skew : List (Member × Fin 16 × List Int)) : State × Stream :=
  (List.range 16).foldl (fun (a : State × Stream) n =>
    let mine := (skew.filter (fun z => z.2.1.val == n)).map (fun z => (z.1, z.2.2))
    if mine = [] then a
    else
      let r := a.1.votedCodes (x.codes.getD n []) mine
      (r.1, { a.2 with codes := a.2.codes.set n r.2 })) (s, x)

/-- S0_DEADLINE (R36, R349 to R351, R360, R361, R461, R466): `done` and `used`, whether S0 has finished and the work
counted. -/
def execS0Deadline (x : AdcIn) (done : Bool) (used t : Nat) (s : State) : Host.Outcome State Fault Refusal :=
  .next <| s.live fun s => (s.moveTo t).atDeadline 0 fun s =>
    let (s, x) := s.votedAdc x.conv x.skew
    let s := (((s.stageUsed 0 used (!done)).takeAdc x done).meterSamples x).cycleEnergy
    if !done then s.stageLate 0
    else
      let s := s.pathChecks
      if s.s1Starts then s.startS1 else s

/-! ### S1: tend and its deadline (R463, R469, R482) -/

/-- Completions that waited for tend are written (R505, R510); a SETPOINT's result is what applies now. -/
def State.tendCompletions (s : State) : State :=
  let l := s.hst.atTend.map (fun (c : Completion) =>
    let c := { c with tick := s.tm.n, elapsed := s.tm.e }
    if c.opcode = 1 then
      { c with result := [(32, 2, unsg 16 s.sp.p), (34, 2, unsg 16 s.sp.q), (36, 1, s.rd CTL_STATUS.LIMIT_PCT)] }
    else c)
  { s with hst := { s.hst with atTend := [], comps := s.hst.comps ++ l } }

/-- The work of S1's deadline (R36, R72, R461): a TICK entry without tend has overrun; else S2 forms the decision. An S1
that did not run in this tick has used nothing of its window (R44). -/
def State.s1Work (s : State) : State :=
  if s.tm.s1run ∧ !s.halted then
    (s.stageUsed 1 (s.stageWindow 1) true).stageLate 1
  else
    let s := if s.tm.tended then s else s.stageUsed 1 0 false
    if s.tm.tended ∧ !s.tm.abandoned ∧ !s.halted then s.decideTick else s

/-- TEND (R461, R463, R469, R481): the law is done, its tick-bound writes leave in issue order. A TICK entry that a debug
halt interrupted leaves nothing (R479). One at or after the S1 deadline comes too late: the deadline is evaluated first
(R703). -/
def execTend (t : Nat) (s : State) : Host.Outcome State Fault Refusal :=
  .next <| s.live fun s =>
    let s := s.moveTo t
    let s := if s.tm.s1run ∧ !s.halted then s.atDeadline 1 State.s1Work else s
    if !s.tm.s1run ∨ s.halted then s
    else if s.tri.dropTick then s.dropLaw
    else
      let s := s.runLaw
      let s := s.stageUsed 1 (s.tm.e - s.deadline 0) false
      let s := { s with tm := { s.tm with s1run := false, tended := true } }
      let back := s.tri.bgDropped
      let s := s.releaseTb.tendCompletions.swapStands
      if back then
        { s with tri := { s.tri with bgDropped := false, backBank := { s.tri.backBank with pc := imgWord s.activeImage 20 } } }
      else s

/-- S1_DEADLINE (R36, R72, R461). -/
def execS1Deadline (t : Nat) (s : State) : Host.Outcome State Fault Refusal :=
  .next <| s.live fun s => (s.moveTo t).atDeadline 1 State.s1Work

/-- S2_DEADLINE (R36, R99, R103): a decision that is not formed has overrun. -/
def execS2Deadline (done : Bool) (used t : Nat) (s : State) : Host.Outcome State Fault Refusal :=
  .next <| s.live fun s => (s.moveTo t).atDeadline 2 fun s =>
    if s.tm.abandoned then s.stageUsed 2 0 false
    else
      let s := s.stageUsed 2 used (!done)
      if !done ∧ s.sched.plan ≠ none then s.stageLate 2 else s

/-! ### S3: frames (R38, R264 to R268, R311, R410) -/

/-- A cell's command for the tick `exec` (R226, R268): the decision, RELEASE once no block covers the cell (R287, R410),
the port quantities, and the next AUX word (R271). -/
def State.composeSlot (s : State) (exec : Int) (c : Nat) : State :=
  let x := s.cell c
  if !s.slotValid c then
    s.updCell c (fun x => { x with sch := { x.sch with nxt := Cmd.none, wNxt := 0, plan := none } })
  else
    let spill := s.slotSpill c
    let rel := !s.covered c
    let (aux, word, kind, q) := x.link.aux.word
    let p : CellPlan := x.sch.plan.getD ⟨0, 0, 0, 0, 0, none, 0, false, 0⟩
    let cmd : Cmd := s.slotPort exec c { Cmd.none with
      valid := true, release := rel, spill := spill || p.spill
      start := if spill then 0 else p.start, edge := if spill then none else p.edge
      delayP := meanI x.link.delayA, delayS := meanI x.link.delayB
      auxWord := word, auxKind := kind, auxSeq := q }
    s.updCell c (fun x => { x with
      link := { x.link with aux := aux }
      sch := { x.sch with nxt := cmd, wNxt := if spill then 0 else p.w, plan := none } })

/-- The frames of a launch carry RELEASE to a cell (R287, R321): it leaves its block. -/
def State.sendRelease (s : State) (c : Nat) : State :=
  let go := (s.cell c).sch.nxt.valid && (s.cell c).sch.nxt.release && !s.covered c
  if go then
    s.updCell c (fun x => { x with svc := { x.svc with blk := false, retTicks := x.svc.retTicks.map (· + 1) } })
  else s

/-- The cells whose ring carries tick frames. -/
def State.framedCells (s : State) : List Nat := s.plant.filter (fun c => s.framed (ringOf c))

/-- A cell block ends for a FAULTED cell whose phase no scope covers (R410). -/
def State.uncoverFaulted (s : State) (c : Nat) : State :=
  if s.sstate c = 8 ∧ !bitOf s.blockedPhases (s.phaseOf c) then
    s.updCell c (fun x => { x with svc := { x.svc with cellBlk := false } })
  else s

/-- No command is in the next frame (R38, R267). -/
def State.noCommands (s : State) : State :=
  s.mapCells (fun _ x => { x with sch := { x.sch with nxt := Cmd.none, wNxt := 0, plan := none } })

/-- A NORMAL launch (R38): the decision is committed, a waiting release carried, the slots built. -/
def State.launchNormal (s : State) : State :=
  let s := s.commitDecision.carryRelease
  let cells := s.framedCells
  let s : State := cells.foldl (fun s c => s.uncoverFaulted c) s
  let exec := s.nextTick
  let s : State := (s.plant.filter (fun c => !cells.contains c)).foldl (fun s c =>
    s.updCell c (fun x => { x with sch := { x.sch with nxt := Cmd.none, wNxt := 0, plan := none } })) s
  let s : State := cells.foldl (fun s c => s.composeSlot exec c) s
  cells.foldl (fun s c => s.sendRelease c) s

/-- The frame of a ring on both its loops, with the grant of its header (R264, R266, R292). -/
def State.launchRing (s : State) (kind : FrameKind) (r : Nat) : State :=
  let (s, g) := s.takeGrant r (s.ring r).jrs
  let slots := (List.range 15).map (fun q => (s.cell (r * 15 + q)).sch.nxt)
  s.sendFrame { s.header r with kind := kind, grant := g.map posOf } slots

/-- The kind of frame at an S3 deadline (R38); HOLD while the triad is halted (R412) and when no decision was made (log
entry 31). -/
def State.launchKind (s : State) : FrameKind :=
  if s.halted then .hold
  else if s.tm.launchOver then (if s.tm.repeated then .hold else .repeated)
  else if s.sched.plan = none then .hold
  else .normal

/-- A decision whose commands are not sent, since a REPEAT or HOLD frame goes out (R38): its budgets, accumulators, carry
and removals stand, for S2 was not abandoned (R99; log entry 37); the targets stay those of the last commands (R39), and its
transitions are none of the round's (R584). -/
def State.commitUnsent (s : State) : State :=
  let old := s.sched
  let cells := s
  let s := s.commitDecision.dropPlan.mapCells (fun c x => { x with sch := { x.sch with trans := (cells.cell c).sch.trans } })
  { s with sched := { s.sched with uNxt := old.uNxt, sNxt := old.sNxt, satNxt := old.satNxt } }

/-- What a launch of a kind commits and puts into the slots (R38). -/
def State.launchBy (s : State) : FrameKind → State
  | .normal => s.launchNormal
  | .repeated => (s.framedCells).foldl (fun s c => s.sendRelease c) s.commitUnsent
  | _ => s.commitUnsent.noCommands

/-- The frames of a tick are committed and launched (R38, R264). -/
def State.launch (s : State) : State :=
  let kind := s.launchKind
  let s := s.launchBy kind
  let pend := s.tm.launchOver && !s.halted
  let s := { s with
    tm := { s.tm with launchOver := false, repeated := pend, sent := s.nextTick }
    sched := { s.sched with launched := kind, held := s.sched.held || kind == FrameKind.hold } }
  let s := (s.wr CLK_TICK_STATUS.REPEAT (b2n (kind == FrameKind.repeated))).wr CLK_TICK_STATUS.HOLD (b2n (kind == FrameKind.hold))
  (s.ringsOn.filter s.framed).foldl (fun s r => s.launchRing kind r) s

/-- A line cycle has ended: pack setpoints and windows, AC metering, the rotation origin and the link averages (R63, R82,
R95, R96, R239, R541). -/
def State.closeCycle (s : State) : State :=
  let s := match s.mtr.cycAt with
    | some a => s.packCycle (s.tm.start - a)
    | none =>
      let s : State := s.packCells.foldl (fun s c => s.packWindow true c) s
      s.mapCells (fun _ x => { x with sch := { x.sch with energy := 0 } })
  let s := s.acCycle.wr HGS_ROT.ORIGIN s.law.origin
  s.mapCells (fun _ x =>
    let l := x.link
    if l.vAllCnt = 0 then x
    else { x with link := { l with
      vAvg := if 1 ≤ l.vEdges ∧ 0 < l.vCnt then some (divR l.vSum (10 * l.vCnt)) else l.vAvg
      vEdges := l.vEdges + 1, vSum := 0, vCnt := 0 } })

/-- S1 of this tick completed and no stage up to S3 overran: what it computed stands (R37, R463). -/
def State.tickStands (s : State) : Bool := s.tm.tended && !s.tm.abandoned

/-- The law of a tick that stands becomes the one that the next tick starts from. -/
def State.commitTick (s : State) : State :=
  if s.tickStands then
    let s := { s with lawC := s.law, sched := { s.sched with held := s.sched.launched == FrameKind.hold } }
    if s.law.trk.cycle then s.closeCycle else s
  else s

/-- No frame leaves: the decision is not sent, and the cells hold their commands (R28, R38). -/
def State.noLaunch (s : State) : State :=
  let s := s.commitUnsent
  { s with sched := { s.sched with launched := .hold } }

/-- S3_DEADLINE (R36 to R38, R264): the frames pass the comparison of the dispatch copies (R468), and leave unless no two
agree; none is launched once a shutdown runs (R647). -/
def execS3Deadline (x : LaunchIn) (used t : Nat) (s : State) : Host.Outcome State Fault Refusal :=
  .next <| s.live fun s => (s.moveTo t).atDeadline 3 fun s =>
    let s := s.stageUsed 3 (if s.tm.abandoned then 0 else used) (!x.done && !s.tm.abandoned)
    let s := if !x.done ∧ !s.tm.abandoned then s.stageLate 3 else s
    let s := if s.pwr.shutdown then s.noLaunch
      else s.agreed 1 none x.agree State.launch State.noLaunch
    s.commitTick

/-! ### S4 and S5: telemetry (R36, R279, R542) -/

/-- S4_DEADLINE (R36, R279): copies that return later are late; a frame that has not left is an overrun, found at S5. -/
def execS4Deadline (done : Bool) (used t : Nat) (s : State) : Host.Outcome State Fault Refusal :=
  .next <| s.live fun s => (s.moveTo t).atDeadline 4 fun s =>
    let s := s.stageUsed 4 used false
    { s with tm := { s.tm with late4 := !done } }

/-- A slot that S5 did not take in is missing: the telemetry before it stands (R36, R100). -/
def State.untake (s : State) (c : Nat) : State :=
  s.updCell c fun x =>
    if x.link.rank = 3 then x else { x with link := { x.link with tel := x.link.old, rank := 3, fresh := false } }

/-- S4 or S5 has overrun (R36). -/
def State.lateIntake (s : State) (done : Bool) : State :=
  if s.halted ∨ (done ∧ !s.tm.late4) then s
  else ({ s with tm := { s.tm with overran := true, launchOver := true } }).wr CLK_TICK_STATUS.LATE_STAGE (if done then 4 else 5)

/-- The overrun count of a tick and what it leads to (R34, R35, R38, R39, R41); suspended while halted (R412). -/
def State.countOverrun (s : State) : State :=
  if s.halted then s
  else if !s.tm.overran then s.wr CLK_TICK_STATUS.OVR_CONSEC 0
  else
    let s := (s.inc CLK_TICK_OVR_COUNT.COUNT 1).inc CLK_TICK_STATUS.OVR_CONSEC 1
    let st := s.rd CLK_TICK_STATUS.LATE_STAGE
    let n := s.rd CLK_TICK_STATUS.OVR_CONSEC
    let s := s.post 0x10 [(24, 1, st), (25, 1, n), (26, 2, min 0xFFFF (s.tm.used.getD st 0))]
    if s.rd CLK_TICK_CFG.OVERRUN_LIMIT ≤ n then (s.wr CLK_TICK_STATUS.OVR_TRIP 1).safeState SLC_TRIP_LATCH.OVERRUN else s

/-- The counts of the completed tick are shown (R33). -/
def State.showUsed (s : State) : State :=
  (List.range 6).foldl (fun s n =>
    let u := min 0xFFFF (s.tm.used.getD n 0)
    (s.wri CLK_TICK_USED_n.LAST n u).wri CLK_TICK_PEAK_n.PEAK n (max u (s.rdi CLK_TICK_PEAK_n.PEAK n))) s

/-- S5_DEADLINE (R36, R38, R63, R275, R282, R542, R545): `untaken` names the cells whose slots were not taken in when S5
has overrun. -/
def execS5Deadline (done : Bool) (used : Nat) (untaken : List (Fin 240)) (t : Nat) (s : State) :
    Host.Outcome State Fault Refusal :=
  .next <| s.live fun s => (s.moveTo t).atDeadline 5 fun s =>
    let s := s.stageUsed 5 used false
    let s : State := if done then s else untaken.foldl (fun s c => s.untake c.val) s
    let s := s.lateIntake done
    let s : State := (s.ringsOn.filter s.framed).foldl (fun s r => s.countReturns r) s
    let charge := decide (16 ≤ s.tm.half) || s.tm.sent % 4 == 2
    let s : State := s.framedCells.foldl (fun s c => s.intakeCell c s.period charge) s
    let s := s.measureDelays
    let s := if 3 ≤ s.stage ∧ s.headroomDue (s.tickStands && s.law.trk.cycle) then s.formHeadroom else s
    let s := if s.mtr.atS5 then s.formLatch s.mtr.latchAt else s
    s.countOverrun.showUsed

end Sys2Proof.Machine
end

