-- ==== Sys2Proof/Machine/Dispatch.lean ====
section
/-! DEFINITION. One arm per command of the table (R-numbers: Syntax.lean); each is one direct call of its meaning. -/
namespace Sys2Proof.Machine

def exec (i : Instr) (s : State) : Host.Outcome State Fault Refusal :=
  match i with
  | .tickBoundary t => Sys2Proof.Machine.execTickBoundary t s
  | .s0Deadline x done used t => Sys2Proof.Machine.execS0Deadline x done used t s
  | .s1Deadline t => Sys2Proof.Machine.execS1Deadline t s
  | .s2Deadline done used t => Sys2Proof.Machine.execS2Deadline done used t s
  | .s3Deadline x used t => Sys2Proof.Machine.execS3Deadline x used t s
  | .s4Deadline done used t => Sys2Proof.Machine.execS4Deadline done used t s
  | .s5Deadline done used untaken t => Sys2Proof.Machine.execS5Deadline done used untaken t s
  | .tend t => Sys2Proof.Machine.execTend t s
  | .clkTickCfgWrite value => Sys2Proof.Machine.execClkTickCfgWrite value s
  | .periodChange t => Sys2Proof.Machine.execPeriodChange t s
  | .clkTickDeadlineWrite n value => Sys2Proof.Machine.execClkTickDeadlineWrite n value s
  | .clkShedCfgWrite value => Sys2Proof.Machine.execClkShedCfgWrite value s
  | .shedLevelClamp => Sys2Proof.Machine.execShedLevelClamp s
  | .shedLevelFall t => Sys2Proof.Machine.execShedLevelFall t s
  | .diagDeferred t => Sys2Proof.Machine.execDiagDeferred t s
  | .hgsCellCfgWrite cell value ag => Sys2Proof.Machine.execHgsCellCfgWrite cell value ag s
  | .hgsPlantRatingWrite cur value ag => Sys2Proof.Machine.execHgsPlantRatingWrite cur value ag s
  | .derateRowDown t => Sys2Proof.Machine.execDerateRowDown t s
  | .derateRowUp t => Sys2Proof.Machine.execDerateRowUp t s
  | .hgsTableSwap => Sys2Proof.Machine.execHgsTableSwap s
  | .hgsSwapApply => Sys2Proof.Machine.execHgsSwapApply s
  | .ctlModeWrite value => Sys2Proof.Machine.execCtlModeWrite value s
  | .modeTransfer => Sys2Proof.Machine.execModeTransfer s
  | .forcedAuto => Sys2Proof.Machine.execForcedAuto s
  | .ctlManualWrite value => Sys2Proof.Machine.execCtlManualWrite value s
  | .ctlTableSwap ag => Sys2Proof.Machine.execCtlTableSwap ag s
  | .ctlSwapApply => Sys2Proof.Machine.execCtlSwapApply s
  | .lockAcquired => Sys2Proof.Machine.execLockAcquired s
  | .lockLost => Sys2Proof.Machine.execLockLost s
  | .syncPllCfgWrite value => Sys2Proof.Machine.execSyncPllCfgWrite value s
  | .syncModeWrite value ag => Sys2Proof.Machine.execSyncModeWrite value ag s
  | .gfmTransfer => Sys2Proof.Machine.execGfmTransfer s
  | .recoveryEntry => Sys2Proof.Machine.execRecoveryEntry s
  | .tripCurveExpiry curve stage t => Sys2Proof.Machine.execTripCurveExpiry curve stage t s
  | .enterServiceQualified => Sys2Proof.Machine.execEnterServiceQualified s
  | .frtTableSwap ag => Sys2Proof.Machine.execFrtTableSwap ag s
  | .frtSwapApply => Sys2Proof.Machine.execFrtSwapApply s
  | .setpointApply => Sys2Proof.Machine.execSetpointApply s
  | .chipBoundary t => Sys2Proof.Machine.execChipBoundary t s
  | .probeFault t => Sys2Proof.Machine.execProbeFault t s
  | .rocofDetect t => Sys2Proof.Machine.execRocofDetect t s
  | .mirTableSwap ag => Sys2Proof.Machine.execMirTableSwap ag s
  | .mirSwapApply => Sys2Proof.Machine.execMirSwapApply s
  | .mirBaseWrite value => Sys2Proof.Machine.execMirBaseWrite value s
  | .mirIslandClear => Sys2Proof.Machine.execMirIslandClear s
  | .ditherPeriodBoundary t => Sys2Proof.Machine.execDitherPeriodBoundary t s
  | .trackerStep t => Sys2Proof.Machine.execTrackerStep t s
  | .scanPeriodicDue cell t => Sys2Proof.Machine.execScanPeriodicDue cell t s
  | .portScanReq cell => Sys2Proof.Machine.execPortScanReq cell s
  | .portScanAll => Sys2Proof.Machine.execPortScanAll s
  | .scanPointDone cell t => Sys2Proof.Machine.execScanPointDone cell t s
  | .portPvCfgWrite cell value => Sys2Proof.Machine.execPortPvCfgWrite cell value s
  | .portPackWrite reg cell value => Sys2Proof.Machine.execPortPackWrite reg cell value s
  | .portTableSwap ag => Sys2Proof.Machine.execPortTableSwap ag s
  | .portSwapApply => Sys2Proof.Machine.execPortSwapApply s
  | .frameReturn ring loop f t => Sys2Proof.Machine.execFrameReturn ring loop f t s
  | .trReceived ring loop mark value t => Sys2Proof.Machine.execTrReceived ring loop mark value t s
  | .jrReceived ring x t => Sys2Proof.Machine.execJrReceived ring x t s
  | .grantLapse cell => Sys2Proof.Machine.execGrantLapse cell s
  | .delaysAccepted cell => Sys2Proof.Machine.execDelaysAccepted cell s
  | .alignTimeout cell => Sys2Proof.Machine.execAlignTimeout cell s
  | .loopDown ring loop => Sys2Proof.Machine.execLoopDown ring loop s
  | .loopUp ring loop => Sys2Proof.Machine.execLoopUp ring loop s
  | .laneLockLoss lane => Sys2Proof.Machine.execLaneLockLoss lane s
  | .cellLost cell => Sys2Proof.Machine.execCellLost cell s
  | .auxResendTimeout cell => Sys2Proof.Machine.execAuxResendTimeout cell s
  | .wadiFrameDue x t => Sys2Proof.Machine.execWadiFrameDue x t s
  | .linkGoFull rings t => Sys2Proof.Machine.execLinkGoFull rings t s
  | .linkGoWadi rings t => Sys2Proof.Machine.execLinkGoWadi rings t s
  | .rateChangeTimeout ring t => Sys2Proof.Machine.execRateChangeTimeout ring t s
  | .autoFullRate ring t => Sys2Proof.Machine.execAutoFullRate ring t s
  | .linkRingEnWrite value t => Sys2Proof.Machine.execLinkRingEnWrite value t s
  | .linkCfgWrite value => Sys2Proof.Machine.execLinkCfgWrite value s
  | .spillTimeout cell => Sys2Proof.Machine.execSpillTimeout cell s
  | .cellRemove h cell => Sys2Proof.Machine.execCellRemove h cell s
  | .cellReturn h cell => Sys2Proof.Machine.execCellReturn h cell s
  | .cellNodeFw h cell len addr => Sys2Proof.Machine.execCellNodeFw h cell len addr s
  | .returnTripTimeout cell => Sys2Proof.Machine.execReturnTripTimeout cell s
  | .verifyPass cell t => Sys2Proof.Machine.execVerifyPass cell t s
  | .verifyTimeout cell t => Sys2Proof.Machine.execVerifyTimeout cell t s
  | .prechargeTimeout cell t => Sys2Proof.Machine.execPrechargeTimeout cell t s
  | .prechargeDone cell t => Sys2Proof.Machine.execPrechargeDone cell t s
  | .rampComplete cell => Sys2Proof.Machine.execRampComplete cell s
  | .rampOutComplete cell => Sys2Proof.Machine.execRampOutComplete cell s
  | .triggerFire trig conv t => Sys2Proof.Machine.execTriggerFire trig conv t s
  | .adcSwTrig value t => Sys2Proof.Machine.execAdcSwTrig value t s
  | .queueBurstTimeout q t => Sys2Proof.Machine.execQueueBurstTimeout q t s
  | .captureArm q => Sys2Proof.Machine.execCaptureArm q s
  | .adcQCfgWrite q value => Sys2Proof.Machine.execAdcQCfgWrite q value s
  | .hkRoundStart t => Sys2Proof.Machine.execHkRoundStart t s
  | .hkRoundDone res t => Sys2Proof.Machine.execHkRoundDone res t s
  | .comparatorActive n input t => Sys2Proof.Machine.execComparatorActive n input t s
  | .cmpLatchClear value t => Sys2Proof.Machine.execCmpLatchClear value t s
  | .cmpCfgWrite n ramp value => Sys2Proof.Machine.execCmpCfgWrite n ramp value s
  | .adcChCfgWrite n value => Sys2Proof.Machine.execAdcChCfgWrite n value s
  | .adcChCalWrite n value => Sys2Proof.Machine.execAdcChCalWrite n value s
  | .adcCtlCfgWrite value => Sys2Proof.Machine.execAdcCtlCfgWrite value s
  | .adcCalConverged n => Sys2Proof.Machine.execAdcCalConverged n s
  | .slcStop t => Sys2Proof.Machine.execSlcStop t s
  | .slcStopBrk t => Sys2Proof.Machine.execSlcStopBrk t s
  | .slcBrkReset t => Sys2Proof.Machine.execSlcBrkReset t s
  | .slcCellBlk cell t => Sys2Proof.Machine.execSlcCellBlk cell t s
  | .tripIn high t => Sys2Proof.Machine.execTripIn high t s
  | .blankWindowClose n t => Sys2Proof.Machine.execBlankWindowClose n t s
  | .driveShort m leg x t => Sys2Proof.Machine.execDriveShort m leg x t s
  | .driveScClear value t => Sys2Proof.Machine.execDriveScClear value t s
  | .slcLatchClear value t => Sys2Proof.Machine.execSlcLatchClear value t s
  | .debugStarve => Sys2Proof.Machine.execDebugStarve s
  | .safetyInputDemand n x t => Sys2Proof.Machine.execSafetyInputDemand n x t s
  | .safetyInputRelease n x t => Sys2Proof.Machine.execSafetyInputRelease n x t s
  | .discrepancy n t => Sys2Proof.Machine.execDiscrepancy n t s
  | .testPulse chB low t => Sys2Proof.Machine.execTestPulse chB low t s
  | .brkFeedbackTimeout n t => Sys2Proof.Machine.execBrkFeedbackTimeout n t s
  | .safeMessageRx net m t => Sys2Proof.Machine.execSafeMessageRx net m t s
  | .copySkewTimeout t => Sys2Proof.Machine.execCopySkewTimeout t s
  | .safeWdogExpiry t => Sys2Proof.Machine.execSafeWdogExpiry t s
  | .safeMessageTx t => Sys2Proof.Machine.execSafeMessageTx t s
  | .safeCvDone => Sys2Proof.Machine.execSafeCvDone s
  | .safeConfirmWrite value ag => Sys2Proof.Machine.execSafeConfirmWrite value ag s
  | .crcCfgWrite value => Sys2Proof.Machine.execCrcCfgWrite value s
  | .crcDataWrite size value => Sys2Proof.Machine.execCrcDataWrite size value s
  | .crcSeedWrite value => Sys2Proof.Machine.execCrcSeedWrite value s
  | .writeCommit en a b c t => Sys2Proof.Machine.execWriteCommit en a b c t s
  | .tcmEccError m addr t => Sys2Proof.Machine.execTcmEccError m addr t s
  | .rebuildResetDone t => Sys2Proof.Machine.execRebuildResetDone t s
  | .rebuildCopyDone t => Sys2Proof.Machine.execRebuildCopyDone t s
  | .rebuildVerifyDone diff t => Sys2Proof.Machine.execRebuildVerifyDone diff t s
  | .rebuildRejoin => Sys2Proof.Machine.execRebuildRejoin s
  | .scrubSweep diff t => Sys2Proof.Machine.execScrubSweep diff t s
  | .trap en pc cause => Sys2Proof.Machine.execTrap en pc cause s
  | .tready => Sys2Proof.Machine.execTready s
  | .triRestart t => Sys2Proof.Machine.execTriRestart t s
  | .debugHalt => Sys2Proof.Machine.execDebugHalt s
  | .debugResume => Sys2Proof.Machine.execDebugResume s
  | .debugSingleStep => Sys2Proof.Machine.execDebugSingleStep s
  | .debugBreakpoint => Sys2Proof.Machine.execDebugBreakpoint s
  | .debugWrite w t => Sys2Proof.Machine.execDebugWrite w t s
  | .fwStage h offset len last differ addr => Sys2Proof.Machine.execFwStage h offset len last differ addr s
  | .fwSwap h => Sys2Proof.Machine.execFwSwap h s
  | .swapTick => Sys2Proof.Machine.execSwapTick s
  | .fwSwapRevert => Sys2Proof.Machine.execFwSwapRevert s
  | .doorbell ring x => Sys2Proof.Machine.execDoorbell ring x s
  | .ringEnable ring cfg => Sys2Proof.Machine.execRingEnable ring cfg s
  | .ringStop ring => Sys2Proof.Machine.execRingStop ring s
  | .ringStopped ring => Sys2Proof.Machine.execRingStopped ring s
  | .ringRestart ring => Sys2Proof.Machine.execRingRestart ring s
  | .ringReset ring => Sys2Proof.Machine.execRingReset ring s
  | .nop h => Sys2Proof.Machine.execNop h s
  | .setpoint h v => Sys2Proof.Machine.execSetpoint h v s
  | .converterRelease h t => Sys2Proof.Machine.execConverterRelease h t s
  | .converterStop h t => Sys2Proof.Machine.execConverterStop h t s
  | .converterStopBrk h t => Sys2Proof.Machine.execConverterStopBrk h t s
  | .converterBrkReset h t => Sys2Proof.Machine.execConverterBrkReset h t s
  | .furrowLoad h cell kind len addr => Sys2Proof.Machine.execFurrowLoad h cell kind len addr s
  | .lease h cell id floor ceiling allow => Sys2Proof.Machine.execLease h cell id floor ceiling allow s
  | .hostTime h wall => Sys2Proof.Machine.execHostTime h wall s
  | .capture h queues => Sys2Proof.Machine.execCapture h queues s
  | .journalRead h first count addr => Sys2Proof.Machine.execJournalRead h first count addr s
  | .buffer h len addr => Sys2Proof.Machine.execBuffer h len addr s
  | .badOpcode h x => Sys2Proof.Machine.execBadOpcode h x s
  | .bufferTimeout ring t => Sys2Proof.Machine.execBufferTimeout ring t s
  | .hostReadCompletion of data t => Sys2Proof.Machine.execHostReadCompletion of data t s
  | .hostReadTimeout of t => Sys2Proof.Machine.execHostReadTimeout of t s
  | .completionPost x => Sys2Proof.Machine.execCompletionPost x s
  | .eventsLost ring => Sys2Proof.Machine.execEventsLost ring s
  | .msixCoalesceTimeout ring t => Sys2Proof.Machine.execMsixCoalesceTimeout ring t s
  | .walkInvalidate value => Sys2Proof.Machine.execWalkInvalidate value s
  | .walkInvalidateDone => Sys2Proof.Machine.execWalkInvalidateDone s
  | .hostWalkRootWrite hi value => Sys2Proof.Machine.execHostWalkRootWrite hi value s
  | .functionLevelReset => Sys2Proof.Machine.execFunctionLevelReset s
  | .powerStateChange x => Sys2Proof.Machine.execPowerStateChange x s
  | .meterLatch t => Sys2Proof.Machine.execMeterLatch t s
  | .recordSigned t => Sys2Proof.Machine.execRecordSigned t s
  | .snapshotCommitted => Sys2Proof.Machine.execSnapshotCommitted s
  | .leaseCommitted cell => Sys2Proof.Machine.execLeaseCommitted cell s
  | .pfWarn t => Sys2Proof.Machine.execPfWarn t s
  | .powerfailFreeze t => Sys2Proof.Machine.execPowerfailFreeze t s
  | .pfWarnDeassert t => Sys2Proof.Machine.execPfWarnDeassert t s
  | .mtrCalSwap => Sys2Proof.Machine.execMtrCalSwap s
  | .mtrCalSwapApply => Sys2Proof.Machine.execMtrCalSwapApply s
  | .mtrPortSnapshotRead ag => Sys2Proof.Machine.execMtrPortSnapshotRead ag s
  | .weirTimerExpiry t => Sys2Proof.Machine.execWeirTimerExpiry t s
  | .thermalStale t => Sys2Proof.Machine.execThermalStale t s
  | .auxStart m t => Sys2Proof.Machine.execAuxStart m t s
  | .auxStop m t => Sys2Proof.Machine.execAuxStop m t s
  | .auxDiag m t => Sys2Proof.Machine.execAuxDiag m t s
  | .auxDiagDone m x t => Sys2Proof.Machine.execAuxDiagDone m x t s
  | .auxAlignDone m t => Sys2Proof.Machine.execAuxAlignDone m t s
  | .auxHandover m t => Sys2Proof.Machine.execAuxHandover m t s
  | .auxSpeedLoop m obs t => Sys2Proof.Machine.execAuxSpeedLoop m obs t s
  | .auxPwmPeriod m cur t => Sys2Proof.Machine.execAuxPwmPeriod m cur t s
  | .auxWindowCap m => Sys2Proof.Machine.execAuxWindowCap m s
  | .keMeasured m ke t => Sys2Proof.Machine.execKeMeasured m ke t s
  | .vauxUv vaux t => Sys2Proof.Machine.execVauxUv vaux t s
  | .vauxUvRecover vaux t => Sys2Proof.Machine.execVauxUvRecover vaux t s
  | .vauxOv vaux t => Sys2Proof.Machine.execVauxOv vaux t s
  | .cpUv vcp t => Sys2Proof.Machine.execCpUv vcp t s
  | .regenLimit vaux t => Sys2Proof.Machine.execRegenLimit vaux t s
  | .regenClear vaux t => Sys2Proof.Machine.execRegenClear vaux t s
  | .refVoteUpdate dxa dxb dab t => Sys2Proof.Machine.execRefVoteUpdate dxa dxb dab t s
  | .refLost src t => Sys2Proof.Machine.execRefLost src t s
  | .refValid src t => Sys2Proof.Machine.execRefValid src t s
  | .refReadmit src t => Sys2Proof.Machine.execRefReadmit src t s
  | .refSelectMove t => Sys2Proof.Machine.execRefSelectMove t s
  | .refCoastEnd t => Sys2Proof.Machine.execRefCoastEnd t s
  | .pllDividerUpdate => Sys2Proof.Machine.execPllDividerUpdate s
  | .pllLockLost p t => Sys2Proof.Machine.execPllLockLost p t s
  | .pllLocked p t => Sys2Proof.Machine.execPllLocked p t s
  | .clkPllSeedWrite p value => Sys2Proof.Machine.execClkPllSeedWrite p value s
  | .alarm t => Sys2Proof.Machine.execAlarm t s
  | .elapsedRead ag => Sys2Proof.Machine.execElapsedRead ag s
  | .alignOfsRead ag => Sys2Proof.Machine.execAlignOfsRead ag s
  | .ppsEdge t n => Sys2Proof.Machine.execPpsEdge t n s
  | .ppsMissing t => Sys2Proof.Machine.execPpsMissing t s
  | .ppsStep t => Sys2Proof.Machine.execPpsStep t s
  | .syncSecWrite value => Sys2Proof.Machine.execSyncSecWrite value s
  | .mainPowerOn => Sys2Proof.Machine.execMainPowerOn s
  | .railReset => Sys2Proof.Machine.execRailReset s
  | .bringupStage boot t => Sys2Proof.Machine.execBringupStage boot t s
  | .persist t => Sys2Proof.Machine.execPersist t s
  | .persistDone ok => Sys2Proof.Machine.execPersistDone ok s
  | .sleep t => Sys2Proof.Machine.execSleep t s
  | .wake src t => Sys2Proof.Machine.execWake src t s
  | .shutdown t => Sys2Proof.Machine.execShutdown t s
  | .shutdownDone fail t => Sys2Proof.Machine.execShutdownDone fail t s
  | .oasisTick o => Sys2Proof.Machine.execOasisTick o s
  | .oasisColdStart => Sys2Proof.Machine.execOasisColdStart s
  | .oasisTrim ppm t => Sys2Proof.Machine.execOasisTrim ppm t s
  | .lcTransition value ag t => Sys2Proof.Machine.execLcTransition value ag t s
  | .fwkeyFuse => Sys2Proof.Machine.execFwkeyFuse s
  | .registerWrite ag off be x t => Sys2Proof.Machine.execRegisterWrite ag off be x t s
  | .rcFieldRead ag x t => Sys2Proof.Machine.execRcFieldRead ag x t s
  | .codeGroupLock ring t => Sys2Proof.Machine.execCodeGroupLock ring t s
  | .resetNAsserted => Sys2Proof.Machine.execResetNAsserted s

end Sys2Proof.Machine
end

