-- ==== Sys2Proof/Safety.lean ====
section
/-! DEFINITION. The terms that whole-machine statements use: tables in canonical form, and what a command may touch: the
register blocks and the parts of State that it can change. -/
namespace Sys2Proof.Machine
open Reg

/-- Two fields that share no place: other bits of a word, or other registers. -/
def apart (f g : Fld) : Bool :=
  decide (f.lo < 32 ∧ g.lo < 32) && (decide (f.lo ≠ g.lo) || decide (f.base + 4 * f.count ≤ g.base) ||
    decide (g.base + 4 * g.count ≤ f.base))

/-- Every table of State that stands for memory is in its one canonical form: keys rising, no entry equal to what an
unlisted key reads as. -/
def Canonical (s : State) : Prop :=
  twf regDefault s.regs = true ∧ twf (fun _ => Cell.init) s.cells = true ∧
  Memory.wf s.tri.bank0 ∧ Memory.wf s.tri.bank1 ∧ Memory.wf s.tri.ram ∧
  Memory.wf s.tri.region ∧ Memory.wf s.tri.regionC

/-- The parts of State beside the registers and the queue of commands. -/
inductive Part where
  | tm | clk | pwr | hst | tri | slc | saf | rings | cells | law | lawC | sp | sched | adc | mtr | jr | thm | aux | free | out
  deriving DecidableEq, Repr

/-- Every part. -/
def Part.all : List Part :=
  [.tm, .clk, .pwr, .hst, .tri, .slc, .saf, .rings, .cells, .law,
   .lawC, .sp, .sched, .adc, .mtr, .jr, .thm, .aux, .free, .out]

/-- A part is the same in two states. -/
def Part.same (s t : State) : Part → Prop
  | .tm => t.tm = s.tm
  | .clk => t.clk = s.clk
  | .pwr => t.pwr = s.pwr
  | .hst => t.hst = s.hst
  | .tri => t.tri = s.tri
  | .slc => t.slc = s.slc
  | .saf => t.saf = s.saf
  | .rings => t.rings = s.rings
  | .cells => t.cells = s.cells
  | .law => t.law = s.law
  | .lawC => t.lawC = s.lawC
  | .sp => t.sp = s.sp
  | .sched => t.sched = s.sched
  | .adc => t.adc = s.adc
  | .mtr => t.mtr = s.mtr
  | .jr => t.jr = s.jr
  | .thm => t.thm = s.thm
  | .aux => t.aux = s.aux
  | .free => t.free = s.free
  | .out => t.out = s.out

/-- The blocks of BAR2 (R693) in which a command may change a register. Block 9, the rings, stands with every command
that may post a record, block 5 and 9 with those that may wake the device. -/
def touchedBlocks : Instr → List Nat
  | .tickBoundary .. =>
    [3, 5, 8, 9, 10, 12, 13, 14, 15, 16, 17, 18, 19, 20, 21, 22, 26, 28, 29, 31, 32, 35, 36, 40]
  | .s0Deadline .. =>
    [3, 9, 10, 18, 19, 20, 21, 22, 25, 26, 29, 32]
  | .s1Deadline .. | .s2Deadline .. =>
    [3, 20]
  | .s3Deadline .. =>
    [3, 9, 10, 13, 14, 15, 16, 17, 20, 25, 29, 32, 33]
  | .s4Deadline .. | .ditherPeriodBoundary .. | .scanPeriodicDue .. | .portScanAll | .scanPointDone ..
  | .auxResendTimeout .. | .adcSwTrig .. | .safeMessageTx .. | .tready | .debugSingleStep | .bufferTimeout ..
  | .msixCoalesceTimeout .. | .powerfailFreeze .. | .mtrPortSnapshotRead .. | .elapsedRead .. | .alignOfsRead ..
  | .oasisTrim .. =>
    []
  | .s5Deadline .. =>
    [3, 9, 12, 13, 16, 25, 29, 32, 35]
  | .tend .. | .writeCommit .. | .debugWrite .. | .snapshotCommitted | .pfWarnDeassert .. | .mainPowerOn
  | .bringupStage .. | .registerWrite .. | .rcFieldRead .. =>
    List.range 41
  | .clkTickCfgWrite .. | .periodChange .. =>
    [3, 12, 26, 28]
  | .clkTickDeadlineWrite .. | .linkCfgWrite .. =>
    [3, 12]
  | .clkShedCfgWrite .. =>
    [3]
  | .shedLevelClamp | .shedLevelFall .. =>
    [3, 9, 29]
  | .diagDeferred .. =>
    [3, 9]
  | .hgsCellCfgWrite .. =>
    [9, 13, 14, 15, 16, 17, 25, 35]
  | .hgsPlantRatingWrite .. =>
    [9, 16]
  | .derateRowDown .. | .derateRowUp .. =>
    [9, 16, 29, 32]
  | .hgsTableSwap | .hgsSwapApply =>
    [16]
  | .ctlModeWrite .. | .modeTransfer | .ctlManualWrite .. | .ctlSwapApply =>
    [18]
  | .forcedAuto | .ctlTableSwap .. =>
    [9, 18]
  | .lockAcquired | .lockLost | .syncPllCfgWrite .. | .gfmTransfer =>
    [19]
  | .syncModeWrite .. =>
    [9, 19]
  | .recoveryEntry | .enterServiceQualified =>
    [20]
  | .tripCurveExpiry .. =>
    [9, 20, 29, 32]
  | .frtTableSwap .. =>
    [9, 19, 20]
  | .frtSwapApply =>
    [19, 20]
  | .setpointApply =>
    [9, 18, 19, 21, 29]
  | .chipBoundary .. | .probeFault .. | .rocofDetect .. =>
    [9, 20, 21, 29, 32]
  | .mirTableSwap .. =>
    [9, 21]
  | .mirSwapApply | .mirBaseWrite .. | .mirIslandClear =>
    [21]
  | .trackerStep .. | .portScanReq .. | .portSwapApply =>
    [22]
  | .portPvCfgWrite .. =>
    [22, 23]
  | .portPackWrite .. =>
    [9, 22, 24, 25]
  | .portTableSwap .. =>
    [9, 22]
  | .frameReturn .. =>
    [5, 8, 9, 12, 13, 15, 17, 35]
  | .trReceived .. =>
    [5, 8, 9, 12, 29, 32]
  | .jrReceived .. =>
    [5, 8, 9, 12, 13]
  | .grantLapse .. | .delaysAccepted .. | .alignTimeout .. =>
    [13]
  | .loopDown .. =>
    [9, 12, 13, 14, 15, 16, 29, 32, 35]
  | .loopUp .. | .linkGoFull .. | .linkGoWadi .. | .rateChangeTimeout .. | .autoFullRate .. | .linkRingEnWrite ..
  | .codeGroupLock .. =>
    [9, 12]
  | .laneLockLoss .. =>
    [12]
  | .cellLost .. =>
    [9, 13, 14, 15, 16, 29, 32, 35]
  | .wadiFrameDue .. =>
    [9, 10, 12, 13, 14, 25, 29, 32, 33, 35]
  | .spillTimeout .. | .returnTripTimeout .. =>
    [9, 15]
  | .cellRemove .. | .cellReturn .. | .cellNodeFw .. =>
    [8, 9, 10, 14]
  | .verifyPass .. =>
    [14, 15]
  | .verifyTimeout .. | .prechargeTimeout .. =>
    [9, 14, 15]
  | .prechargeDone .. =>
    [9, 14, 15, 25]
  | .rampComplete .. | .rampOutComplete .. =>
    [9, 14, 15, 17]
  | .triggerFire .. | .cmpCfgWrite .. =>
    [9, 26, 29, 31, 32, 40]
  | .queueBurstTimeout .. | .captureArm .. =>
    [29]
  | .adcQCfgWrite .. =>
    [26, 29]
  | .hkRoundStart .. =>
    [30]
  | .hkRoundDone .. =>
    [3, 9, 29, 30, 32, 38, 39, 40]
  | .comparatorActive .. | .cmpLatchClear .. =>
    [9, 29, 31, 32, 40]
  | .adcChCfgWrite .. | .adcChCalWrite .. =>
    [26, 27]
  | .adcCtlCfgWrite .. | .adcCalConverged .. =>
    [26]
  | .slcStop .. | .slcStopBrk .. | .debugStarve =>
    [9, 29, 32]
  | .slcBrkReset .. | .slcCellBlk .. | .driveScClear .. | .slcLatchClear .. =>
    [32]
  | .tripIn .. | .blankWindowClose .. =>
    [9, 29, 32, 40]
  | .driveShort .. | .railReset | .resetNAsserted =>
    [9, 32, 40]
  | .safetyInputDemand .. | .testPulse .. =>
    [5, 8, 9, 29, 32, 33, 40]
  | .safetyInputRelease .. =>
    [33]
  | .discrepancy .. | .brkFeedbackTimeout .. =>
    [9, 33]
  | .safeMessageRx .. | .safeWdogExpiry .. =>
    [9, 29, 32, 34]
  | .copySkewTimeout .. =>
    [9, 32, 34]
  | .safeCvDone =>
    [33, 34]
  | .safeConfirmWrite .. =>
    [9, 33, 34]
  | .crcCfgWrite .. | .crcDataWrite .. | .crcSeedWrite .. =>
    [11]
  | .tcmEccError .. =>
    [9, 10, 29, 32, 33]
  | .rebuildResetDone .. | .rebuildCopyDone .. | .swapTick =>
    [10]
  | .rebuildVerifyDone .. | .scrubSweep .. =>
    [9, 10, 33]
  | .rebuildRejoin | .fwSwapRevert =>
    [9, 10]
  | .trap .. =>
    [3, 9, 20]
  | .triRestart .. =>
    [3, 5, 8, 9, 10, 20, 22, 35]
  | .debugHalt | .debugBreakpoint =>
    [10, 20, 32]
  | .debugResume =>
    [3, 10, 32]
  | .fwStage .. | .fwSwap .. | .nop .. | .setpoint .. | .furrowLoad .. | .lease .. | .hostTime .. | .journalRead ..
  | .buffer .. | .badOpcode .. | .hostReadCompletion .. | .hostReadTimeout .. =>
    [8, 9, 10]
  | .doorbell .. =>
    [5, 8, 9, 10, 37]
  | .ringEnable .. | .ringStop .. | .ringRestart .. | .ringReset .. | .functionLevelReset =>
    [8, 9]
  | .ringStopped .. | .eventsLost .. | .powerStateChange .. | .leaseCommitted .. =>
    [9]
  | .converterRelease .. =>
    [8, 9, 10, 18, 21]
  | .converterStop .. | .converterStopBrk .. =>
    [8, 9, 10, 29, 32]
  | .converterBrkReset .. =>
    [8, 9, 10, 32]
  | .capture .. =>
    [8, 9, 10, 29]
  | .completionPost .. =>
    [8, 9, 10, 29, 32, 33]
  | .walkInvalidate .. | .walkInvalidateDone | .hostWalkRootWrite .. =>
    [8]
  | .meterLatch .. =>
    [35, 36]
  | .recordSigned .. =>
    [9, 37]
  | .pfWarn .. =>
    [5, 6, 9, 29, 32, 35]
  | .mtrCalSwap =>
    [36]
  | .mtrCalSwapApply =>
    [9, 36]
  | .weirTimerExpiry .. | .thermalStale .. =>
    [38]
  | .auxStart .. =>
    [9, 38, 40]
  | .auxStop .. | .auxDiagDone .. | .auxHandover .. | .auxSpeedLoop .. | .auxWindowCap .. | .keMeasured ..
  | .vauxUv .. | .vauxUvRecover .. | .vauxOv .. | .cpUv .. =>
    [9, 40]
  | .auxDiag .. =>
    [38, 40]
  | .auxAlignDone .. | .regenLimit .. | .regenClear .. =>
    [40]
  | .auxPwmPeriod .. =>
    [9, 10, 29, 32, 33, 40]
  | .refVoteUpdate .. | .refLost .. | .refValid .. | .refReadmit .. | .refSelectMove .. | .refCoastEnd ..
  | .pllLockLost .. | .pllLocked .. =>
    [2, 9]
  | .pllDividerUpdate | .clkPllSeedWrite .. =>
    [2]
  | .alarm .. | .wake .. =>
    [5, 8, 9]
  | .ppsEdge .. | .ppsMissing .. =>
    [4, 9]
  | .ppsStep .. =>
    [4, 9, 21]
  | .syncSecWrite .. =>
    [4]
  | .persist .. =>
    [5]
  | .persistDone .. =>
    [5, 9]
  | .sleep .. =>
    [5, 9, 12]
  | .shutdown .. =>
    [5, 35, 36]
  | .shutdownDone .. =>
    [5, 7]
  | .oasisTick .. =>
    [6, 7, 40]
  | .oasisColdStart =>
    [6, 7]
  | .lcTransition .. =>
    [0, 1, 5, 9, 33, 35]
  | .fwkeyFuse =>
    [1, 5]

/-- The parts of State that a command may change. -/
def touchedParts : Instr → List Part
  | .tickBoundary .. =>
    Part.all.filter (fun p => !([.saf, .sp, .thm] : List Part).contains p)
  | .s0Deadline .. =>
    Part.all.filter (fun p => !([.pwr, .rings, .aux] : List Part).contains p)
  | .s1Deadline .. | .s2Deadline .. =>
    [.tm, .clk, .tri, .cells, .law, .lawC, .sched]
  | .s3Deadline .. =>
    Part.all.filter (fun p => !([.pwr, .saf, .sp, .thm, .aux] : List Part).contains p)
  | .s4Deadline .. | .driveScClear .. | .thermalStale .. | .shutdownDone .. =>
    [.tm, .clk]
  | .s5Deadline .. =>
    [.tm, .clk, .hst, .slc, .rings, .cells, .sched, .adc, .mtr, .jr, .free, .out]
  | .tend .. | .writeCommit .. | .debugWrite .. | .registerWrite .. =>
    Part.all.filter (fun p => !([.thm] : List Part).contains p)
  | .clkTickCfgWrite .. | .clkShedCfgWrite .. | .hgsTableSwap =>
    [.tm]
  | .periodChange .. =>
    [.tm, .clk, .rings, .cells, .law, .lawC]
  | .clkTickDeadlineWrite .. | .hgsSwapApply | .ctlModeWrite .. | .ctlManualWrite .. | .syncPllCfgWrite ..
  | .frtSwapApply | .laneLockLoss .. | .linkCfgWrite .. | .adcChCfgWrite .. | .adcChCalWrite ..
  | .adcCtlCfgWrite .. | .adcCalConverged .. | .safeCvDone | .crcCfgWrite .. | .crcDataWrite .. | .crcSeedWrite ..
  | .debugResume | .syncSecWrite .. =>
    []
  | .shedLevelClamp =>
    [.tm, .hst, .adc, .jr, .out]
  | .shedLevelFall .. =>
    [.tm, .clk, .hst, .adc, .jr, .out]
  | .diagDeferred .. =>
    [.tm, .clk, .hst, .jr, .free, .out]
  | .hgsCellCfgWrite .. =>
    [.hst, .tri, .cells, .law, .lawC, .mtr, .jr, .free, .out]
  | .hgsPlantRatingWrite .. | .syncModeWrite .. | .loopUp .. | .ringEnable .. | .ringStop .. | .ringStopped ..
  | .ringRestart .. | .ringReset .. | .eventsLost .. =>
    [.hst, .jr, .out]
  | .derateRowDown .. =>
    [.tm, .clk, .hst, .slc, .cells, .sched, .adc, .jr, .free, .out]
  | .derateRowUp .. | .slcStop .. | .slcStopBrk .. | .converterStop .. | .converterStopBrk .. =>
    [.tm, .clk, .hst, .slc, .cells, .adc, .jr, .free, .out]
  | .modeTransfer | .ctlSwapApply | .gfmTransfer | .mirSwapApply | .portScanReq .. | .portScanAll
  | .portPvCfgWrite .. | .portSwapApply =>
    [.law, .lawC]
  | .forcedAuto =>
    [.hst, .law, .lawC, .jr, .free, .out]
  | .ctlTableSwap .. | .frtTableSwap .. | .mirTableSwap .. | .portTableSwap .. =>
    [.tm, .hst, .jr, .out]
  | .lockAcquired | .lockLost | .recoveryEntry | .enterServiceQualified | .mirBaseWrite .. | .mirIslandClear =>
    [.tri, .law, .lawC]
  | .tripCurveExpiry .. | .chipBoundary .. | .probeFault .. | .rocofDetect .. =>
    [.tm, .clk, .hst, .tri, .slc, .cells, .law, .lawC, .adc, .jr, .free, .out]
  | .setpointApply =>
    [.hst, .slc, .sp, .adc, .jr, .free, .out]
  | .ditherPeriodBoundary .. | .scanPeriodicDue .. | .scanPointDone .. =>
    [.tm, .clk, .law, .lawC]
  | .trackerStep .. =>
    [.tm, .clk, .tri, .law, .lawC]
  | .portPackWrite .. | .spillTimeout .. | .cellRemove .. | .cellReturn .. | .cellNodeFw .. | .returnTripTimeout ..
  | .rampOutComplete .. | .nop .. | .furrowLoad .. | .hostTime .. | .buffer .. | .badOpcode .. =>
    [.hst, .cells, .jr, .out]
  | .frameReturn .. =>
    [.tm, .clk, .pwr, .hst, .rings, .cells, .mtr, .jr, .free, .out]
  | .trReceived .. =>
    [.tm, .clk, .pwr, .hst, .slc, .rings, .cells, .adc, .jr, .free, .out]
  | .jrReceived .. | .sleep .. =>
    [.tm, .clk, .pwr, .hst, .rings, .jr, .out]
  | .grantLapse .. | .delaysAccepted .. | .alignTimeout .. | .auxResendTimeout .. =>
    [.cells]
  | .loopDown .. =>
    [.hst, .slc, .rings, .cells, .sched, .adc, .jr, .free, .out]
  | .cellLost .. =>
    [.hst, .slc, .cells, .sched, .adc, .jr, .free, .out]
  | .wadiFrameDue .. =>
    [.tm, .clk, .hst, .tri, .slc, .rings, .cells, .adc, .mtr, .jr, .free, .out]
  | .linkGoFull .. | .linkGoWadi .. | .rateChangeTimeout .. | .autoFullRate .. | .linkRingEnWrite .. =>
    [.tm, .clk, .hst, .rings, .jr, .out]
  | .verifyPass .. =>
    [.tm, .clk, .cells]
  | .verifyTimeout .. | .prechargeTimeout .. | .converterBrkReset .. =>
    [.tm, .clk, .hst, .cells, .jr, .out]
  | .prechargeDone .. =>
    [.tm, .clk, .hst, .cells, .law, .lawC, .jr, .out]
  | .rampComplete .. =>
    [.hst, .cells, .law, .lawC, .jr, .out]
  | .triggerFire .. | .comparatorActive .. | .cmpLatchClear .. | .tripIn .. | .blankWindowClose .. =>
    [.tm, .clk, .hst, .slc, .cells, .adc, .jr, .aux, .free, .out]
  | .adcSwTrig .. | .hkRoundStart .. =>
    [.tm, .clk, .adc]
  | .queueBurstTimeout .. =>
    [.tm, .clk, .hst, .adc, .out]
  | .captureArm .. | .adcQCfgWrite .. =>
    [.hst, .adc, .out]
  | .hkRoundDone .. =>
    [.tm, .clk, .hst, .slc, .cells, .adc, .jr, .thm, .free, .out]
  | .cmpCfgWrite .. =>
    [.hst, .slc, .cells, .adc, .jr, .aux, .free, .out]
  | .slcBrkReset .. =>
    [.tm, .clk, .out]
  | .slcCellBlk .. =>
    [.tm, .clk, .cells, .out]
  | .driveShort .. =>
    [.tm, .clk, .hst, .slc, .jr, .aux, .out]
  | .slcLatchClear .. =>
    [.tm, .clk, .slc]
  | .debugStarve =>
    [.hst, .slc, .cells, .adc, .jr, .free, .out]
  | .safetyInputDemand .. | .testPulse .. =>
    [.tm, .clk, .pwr, .hst, .slc, .saf, .cells, .adc, .jr, .aux, .free, .out]
  | .safetyInputRelease .. =>
    [.tm, .clk, .saf]
  | .discrepancy .. =>
    [.tm, .clk, .hst, .saf, .jr, .out]
  | .brkFeedbackTimeout .. | .refVoteUpdate .. | .refLost .. | .refValid .. | .refReadmit .. | .refSelectMove ..
  | .refCoastEnd .. | .pllLockLost .. | .pllLocked .. | .ppsEdge .. | .ppsMissing .. =>
    [.tm, .clk, .hst, .jr, .out]
  | .safeMessageRx .. =>
    [.tm, .clk, .hst, .slc, .saf, .cells, .sp, .adc, .jr, .free, .out]
  | .copySkewTimeout .. =>
    [.tm, .clk, .hst, .slc, .saf, .sp, .jr, .out]
  | .safeWdogExpiry .. =>
    [.tm, .clk, .hst, .slc, .saf, .cells, .adc, .jr, .free, .out]
  | .safeMessageTx .. =>
    [.tm, .clk, .saf, .out]
  | .safeConfirmWrite .. | .persistDone .. =>
    [.pwr, .hst, .jr, .out]
  | .tcmEccError .. =>
    [.tm, .clk, .hst, .tri, .slc, .cells, .adc, .jr, .free, .out]
  | .rebuildResetDone .. | .rebuildCopyDone .. =>
    [.tm, .clk, .tri]
  | .rebuildVerifyDone .. | .rebuildRejoin | .scrubSweep .. =>
    [.tm, .clk, .hst, .tri, .jr, .out]
  | .trap .. =>
    [.tm, .hst, .tri, .law, .lawC, .jr, .free, .out]
  | .tready =>
    [.pwr, .hst]
  | .triRestart .. =>
    Part.all.filter (fun p => !([.saf, .rings, .adc, .thm, .aux] : List Part).contains p)
  | .debugHalt | .debugBreakpoint =>
    [.tm, .tri, .law, .lawC, .sched, .free]
  | .debugSingleStep | .swapTick =>
    [.tri, .free]
  | .fwStage .. =>
    [.hst, .tri, .cells, .jr, .out]
  | .fwSwap .. =>
    [.tm, .hst, .tri, .cells, .jr, .out]
  | .fwSwapRevert =>
    [.hst, .tri, .jr, .out]
  | .doorbell .. =>
    [.pwr, .hst, .jr, .free, .out]
  | .setpoint .. =>
    [.hst, .cells, .sp, .jr, .out]
  | .converterRelease .. =>
    [.tm, .clk, .hst, .slc, .cells, .jr, .out]
  | .lease .. =>
    [.hst, .cells, .mtr, .jr, .out]
  | .capture .. =>
    [.hst, .cells, .adc, .jr, .out]
  | .journalRead .. =>
    [.hst, .cells, .jr, .free, .out]
  | .bufferTimeout .. =>
    [.tm, .clk, .hst]
  | .hostReadCompletion .. =>
    [.tm, .clk, .hst, .tri, .cells, .jr, .free, .out]
  | .hostReadTimeout .. =>
    [.tm, .clk, .hst, .cells, .jr, .free, .out]
  | .completionPost .. =>
    [.hst, .tri, .slc, .cells, .adc, .jr, .free, .out]
  | .msixCoalesceTimeout .. =>
    [.tm, .clk, .hst, .out]
  | .walkInvalidate .. | .walkInvalidateDone | .hostWalkRootWrite .. | .functionLevelReset =>
    [.hst]
  | .powerStateChange .. =>
    [.hst, .jr, .free, .out]
  | .meterLatch .. =>
    [.tm, .clk, .cells, .mtr, .jr]
  | .recordSigned .. =>
    [.tm, .clk, .hst, .mtr, .jr, .out]
  | .snapshotCommitted | .pfWarnDeassert .. | .mainPowerOn =>
    Part.all
  | .leaseCommitted .. =>
    [.hst, .cells, .mtr, .jr, .free, .out]
  | .pfWarn .. =>
    [.tm, .clk, .pwr, .hst, .slc, .cells, .adc, .mtr, .jr, .free, .out]
  | .powerfailFreeze .. =>
    [.tm, .clk, .pwr, .mtr, .jr]
  | .mtrCalSwap =>
    [.mtr]
  | .mtrCalSwapApply =>
    [.hst, .mtr, .jr, .out]
  | .mtrPortSnapshotRead .. =>
    [.mtr, .out]
  | .weirTimerExpiry .. =>
    [.tm, .clk, .thm]
  | .auxStart .. | .auxStop .. | .auxDiagDone .. | .auxHandover .. | .auxSpeedLoop .. | .keMeasured .. | .vauxUv ..
  | .vauxUvRecover .. | .vauxOv .. | .cpUv .. =>
    [.tm, .clk, .hst, .jr, .aux, .out]
  | .auxDiag .. | .auxAlignDone .. | .regenLimit .. | .regenClear .. =>
    [.tm, .clk, .aux, .out]
  | .auxPwmPeriod .. =>
    [.tm, .clk, .hst, .tri, .slc, .cells, .adc, .jr, .aux, .free, .out]
  | .auxWindowCap .. =>
    [.hst, .jr, .aux, .free, .out]
  | .pllDividerUpdate | .clkPllSeedWrite .. =>
    [.clk]
  | .alarm .. =>
    [.tm, .clk, .pwr, .hst, .jr, .free, .out]
  | .elapsedRead .. | .alignOfsRead .. =>
    [.tm, .out]
  | .ppsStep .. =>
    [.tm, .clk, .hst, .rings, .cells, .law, .lawC, .jr, .out]
  | .railReset | .resetNAsserted =>
    [.pwr, .hst, .jr, .aux, .out]
  | .bringupStage .. =>
    Part.all.filter (fun p => !([.rings, .sp, .sched, .thm] : List Part).contains p)
  | .persist .. | .oasisTrim .. =>
    [.tm, .clk, .pwr]
  | .wake .. | .lcTransition .. =>
    [.tm, .clk, .pwr, .hst, .jr, .out]
  | .shutdown .. =>
    [.tm, .clk, .pwr, .cells, .mtr, .jr]
  | .oasisTick .. =>
    [.pwr, .aux, .out]
  | .oasisColdStart | .fwkeyFuse =>
    [.pwr]
  | .rcFieldRead .. =>
    Part.all.filter (fun p => !([.pwr, .saf, .rings, .sp, .sched, .thm] : List Part).contains p)
  | .codeGroupLock .. =>
    [.tm, .clk, .hst, .rings, .cells, .jr, .out]

/-- The offsets of the register words that a plain configuration write may change, beside its block's CFG_ERR: its own
register, and what the spec ties to it (an active copy lies at + 0x8000). Of any other command nothing is said here. -/
def configWords : Instr → List Nat
  | .clkShedCfgWrite _ => [CLK_SHED_CFG.MAX_LEVEL.base]
  | .ctlModeWrite _ => [CTL_MODE.PRIO.base]
  | .ctlManualWrite _ => [CTL_MANUAL.VD.base]
  | .syncPllCfgWrite _ => [SYNC_PLL_CFG.BW.base, SYNC_PLL_CFG.BW.base + 0x8000]
  | .portPvCfgWrite c _ => [PORT_PV_CFG_n.ROW.off c.val]
  | .adcChCfgWrite n _ => [ADC_CH_CFG_n.EN.off n.val]
  | .adcChCalWrite n _ => [ADC_CH_CAL_n.GAIN.off n.val]
  | .adcCtlCfgWrite _ => [ADC_CTL_CFG.NAVG.base]
  | .crcCfgWrite _ => [CRC_CFG.POLY.base, CRC_SEED.SEED.base, CRC_RESULT.RESULT.base]
  | .crcDataWrite _ _ => [CRC_SEED.SEED.base, CRC_RESULT.RESULT.base]
  | .crcSeedWrite _ => [CRC_SEED.SEED.base, CRC_RESULT.RESULT.base]
  | .syncSecWrite _ => [SYNC_SEC.NEXT.base, SYNC_PPS_STATUS.SEC_VALID.base]
  | .clkPllSeedWrite p _ => [CLK_PLL_SEED_p.SEED.off p.val]
  | .hostWalkRootWrite hi _ => [if hi then HOST_WALK_ROOT_HI.ADDR_HI.base else HOST_WALK_ROOT_LO.ADDR.base]
  | _ => []

/-- The CFG_ERR field of a plain configuration write that may be refused. -/
def configErr : Instr → Fld
  | .clkShedCfgWrite _ => CLK_TICK_STATUS.CFG_ERR
  | .ctlModeWrite _ => CTL_STATUS.CFG_ERR
  | .syncPllCfgWrite _ => SYNC_STATUS.CFG_ERR
  | .portPvCfgWrite .. => PORT_GSTATUS.CFG_ERR
  | .clkPllSeedWrite .. => CLK_PLL_STATUS.CFG_ERR
  | _ => ADC_STATUS.CFG_ERR

end Sys2Proof.Machine
end

