-- ==== Sys2Proof/WellFormed.lean ====
section
/-! DEFINITION. Which commands are well formed: every number that travels in a field of a fixed width on a bus, a
frame or a descriptor fits that field, and lists have the lengths the spec gives them. `exec` is total and answers for
the others too. -/
namespace Sys2Proof

/-- A number fits a field of `w` bits. -/
def fits (w n : Nat) : Bool := decide (n < 2 ^ w)

/-- A number fits a two's complement field of `w` bits. -/
def fitsS (w : Nat) (n : Int) : Bool := decide (-(2 ^ (w - 1) : Int) ≤ n) && decide (n < (2 ^ (w - 1) : Int))

/-- A code group is data, or one of the special code groups of IEEE 802.3 clause 36 (R262). -/
def Code.wf : Code → Bool
  | .k x y => (x == 28 && decide (y < 8)) || (y == 7 && [23, 27, 29, 30].contains x)
  | _ => true

/-- The first code group of a received ordered set whose special code group is K28.`y`: that group, or one received with a
code error (R262, R263). -/
def Code.marks (y : Nat) : Code → Bool
  | .k a b => a == 28 && (b == y || b == 1 || b == 6 || b == 7)
  | .data _ => false
  | .bad => true

/-- Code groups, and a round trip that L_r holds in ns (R262, R301). -/
def FrameIn.wf (f : FrameIn) : Bool := f.codes.all Code.wf && fits 14 f.roundTrip

/-- The widths of R433. -/
def Pdu.wf (m : Pdu) : Bool :=
  fits 16 m.protoId && fits 8 m.version && fits 8 m.ty && fits 32 m.connId && fits 32 m.seqNo && fits 16 m.flags &&
  fitsS 16 m.p && fitsS 16 m.q && fits 16 m.ilim && fits 16 m.plim && fits 16 m.ulo && fits 16 m.uhi &&
  fits 16 m.rsv14 && fits 64 m.rsv36 && fits 32 m.paramCv && fits 32 m.echoSeq && fits 32 m.crc

/-- The widths of R432. -/
def EthFrame.wf (m : EthFrame) : Bool := fits 48 m.dst && fits 48 m.src && fits 16 m.etherType && m.pdu.wf && fits 32 m.fcs

/-- TAG has 32 bits (R504). -/
def DescHdr.wf (h : DescHdr) : Bool := fits 32 h.tag

/-- A word on a write port (R468). -/
def PortWrite.wf (w : PortWrite) : Bool := fits 32 w.addr && fits 32 w.data && fits 4 w.be

/-- A write port's word, if there is one. -/
def optWf : Option PortWrite → Bool
  | none => true
  | some w => w.wf

/-- Sixteen converters of 14 bits, each with a code at every edge; edges rise (R341, R346). -/
def Stream.wf (x : Stream) : Bool :=
  x.codes.length == 16 && x.codes.all (fun l => l.length == x.edges.length && l.all (fitsS 14)) &&
  (x.edges.zip (x.edges.drop 1)).all (fun p => decide (p.1 < p.2))

/-- The widths of the SETPOINT payload (R505). -/
def SetVals.wf (v : SetVals) : Bool :=
  fits 16 v.present && fitsS 16 v.p && fitsS 16 v.q && fits 16 v.ilim && fits 16 v.plim && fits 16 v.ulo &&
  fits 16 v.uhi && fits 16 v.eSet

/-- A member's copy of a register write (R466). -/
def WriteCopy.wf (w : WriteCopy) : Bool := fits 32 w.off && fits 4 w.be && fits 32 w.value

/-- The command is well formed. -/
def wellFormed : Instr → Bool
  | .tickBoundary _ => true
  | .s0Deadline x _ _ _ => x.conv.wf && x.skew.all (fun y => y.2.2.all (fitsS 14))
  | .s1Deadline _ => true
  | .s2Deadline _ _ _ => true
  | .s3Deadline _ _ _ => true
  | .s4Deadline _ _ _ => true
  | .s5Deadline _ _ _ _ => true
  | .tend _ => true
  | .clkTickCfgWrite value => fits 32 value
  | .periodChange _ => true
  | .clkTickDeadlineWrite _ value => fits 32 value
  | .clkShedCfgWrite value => fits 32 value
  | .shedLevelClamp => true
  | .shedLevelFall _ => true
  | .diagDeferred _ => true
  | .hgsCellCfgWrite _ value _ => fits 32 value
  | .hgsPlantRatingWrite _ value _ => fits 32 value
  | .derateRowDown _ => true
  | .derateRowUp _ => true
  | .hgsTableSwap => true
  | .hgsSwapApply => true
  | .ctlModeWrite value => fits 32 value
  | .modeTransfer => true
  | .forcedAuto => true
  | .ctlManualWrite value => fits 32 value
  | .ctlTableSwap _ => true
  | .ctlSwapApply => true
  | .lockAcquired => true
  | .lockLost => true
  | .syncPllCfgWrite value => fits 32 value
  | .syncModeWrite value _ => fits 32 value
  | .gfmTransfer => true
  | .recoveryEntry => true
  | .tripCurveExpiry _ _ _ => true
  | .enterServiceQualified => true
  | .frtTableSwap _ => true
  | .frtSwapApply => true
  | .setpointApply => true
  | .chipBoundary _ => true
  | .probeFault _ => true
  | .rocofDetect _ => true
  | .mirTableSwap _ => true
  | .mirSwapApply => true
  | .mirBaseWrite value => fits 32 value
  | .mirIslandClear => true
  | .ditherPeriodBoundary _ => true
  | .trackerStep _ => true
  | .scanPeriodicDue _ _ => true
  | .portScanReq cell => fits 16 cell
  | .portScanAll => true
  | .scanPointDone _ _ => true
  | .portPvCfgWrite _ value => fits 32 value
  | .portPackWrite _ _ value => fits 32 value
  | .portTableSwap _ => true
  | .portSwapApply => true
  | .frameReturn _ _ f _ => f.wf
  | .trReceived _ _ mark value _ => mark.marks 0 && value.wf
  | .jrReceived _ x _ => x.mark.marks 4 && x.value.wf
  | .grantLapse _ => true
  | .delaysAccepted _ => true
  | .alignTimeout _ => true
  | .loopDown _ _ => true
  | .loopUp _ _ => true
  | .laneLockLoss _ => true
  | .cellLost _ => true
  | .auxResendTimeout _ => true
  | .wadiFrameDue _ _ => true
  | .linkGoFull rings _ => fits 16 rings
  | .linkGoWadi rings _ => fits 16 rings
  | .rateChangeTimeout _ _ => true
  | .autoFullRate _ _ => true
  | .linkRingEnWrite value _ => fits 32 value
  | .linkCfgWrite value => fits 32 value
  | .spillTimeout _ => true
  | .cellRemove h cell => h.wf && fits 16 cell
  | .cellReturn h cell => h.wf && fits 16 cell
  | .cellNodeFw h cell len addr => h.wf && fits 16 cell && fits 32 len && fits 64 addr
  | .returnTripTimeout _ => true
  | .verifyPass _ _ => true
  | .verifyTimeout _ _ => true
  | .prechargeTimeout _ _ => true
  | .prechargeDone _ _ => true
  | .rampComplete _ => true
  | .rampOutComplete _ => true
  | .triggerFire _ conv _ => conv.wf
  | .adcSwTrig value _ => fits 32 value
  | .queueBurstTimeout _ _ => true
  | .captureArm _ => true
  | .adcQCfgWrite _ value => fits 32 value
  | .hkRoundStart _ => true
  | .hkRoundDone res _ => res.all (fits 16)
  | .comparatorActive _ _ _ => true
  | .cmpLatchClear value _ => fits 32 value
  | .cmpCfgWrite _ _ value => fits 32 value
  | .adcChCfgWrite _ value => fits 32 value
  | .adcChCalWrite _ value => fits 32 value
  | .adcCtlCfgWrite value => fits 32 value
  | .adcCalConverged _ => true
  | .slcStop _ => true
  | .slcStopBrk _ => true
  | .slcBrkReset _ => true
  | .slcCellBlk cell _ => fits 16 cell
  | .tripIn _ _ => true
  | .blankWindowClose _ _ => true
  | .driveShort _ _ _ _ => true
  | .driveScClear value _ => fits 32 value
  | .slcLatchClear value _ => fits 32 value
  | .debugStarve => true
  | .safetyInputDemand _ _ _ => true
  | .safetyInputRelease _ _ _ => true
  | .discrepancy _ _ => true
  | .testPulse _ _ _ => true
  | .brkFeedbackTimeout _ _ => true
  | .safeMessageRx _ m _ => m.wf
  | .copySkewTimeout _ => true
  | .safeWdogExpiry _ => true
  | .safeMessageTx _ => true
  | .safeCvDone => true
  | .safeConfirmWrite value _ => fits 32 value
  | .crcCfgWrite value => fits 32 value
  | .crcDataWrite _ value => fits 32 value
  | .crcSeedWrite value => fits 32 value
  | .writeCommit _ a b c _ => optWf a && optWf b && optWf c
  | .tcmEccError _ addr _ => fits 64 addr
  | .rebuildResetDone _ => true
  | .rebuildCopyDone _ => true
  | .rebuildVerifyDone _ _ => true
  | .rebuildRejoin => true
  | .scrubSweep _ _ => true
  | .trap _ pc cause => fits 32 pc && fits 32 cause
  | .tready => true
  | .triRestart _ => true
  | .debugHalt => true
  | .debugResume => true
  | .debugSingleStep => true
  | .debugBreakpoint => true
  | .debugWrite w _ =>
    (fits 32 w.addr || decide (w.addr < 2 ^ 32 + 560)) && fits 32 w.data && fits 4 w.be
  | .fwStage h offset len _ _ addr => h.wf && fits 32 offset && fits 32 len && fits 64 addr
  | .fwSwap h => h.wf
  | .swapTick => true
  | .fwSwapRevert => true
  | .doorbell _ x => fits 32 x.value && x.skew.all (fun y => fits 32 y.2)
  | .ringEnable _ cfg => fits 32 cfg
  | .ringStop _ => true
  | .ringStopped _ => true
  | .ringRestart _ => true
  | .ringReset _ => true
  | .nop h => h.wf
  | .setpoint h v => h.wf && v.wf
  | .converterRelease h _ => h.wf
  | .converterStop h _ => h.wf
  | .converterStopBrk h _ => h.wf
  | .converterBrkReset h _ => h.wf
  | .furrowLoad h cell kind len addr => h.wf && fits 16 cell && fits 8 kind && fits 32 len && fits 64 addr
  | .lease h cell id floor ceiling allow => h.wf && fits 16 cell && fits 32 id && fits 16 floor && fits 16 ceiling && fits 64 allow
  | .hostTime h wall => h.wf && fits 64 wall
  | .capture h queues => h.wf && fits 8 queues
  | .journalRead h first count addr => h.wf && fits 64 first && fits 16 count && fits 64 addr
  | .buffer h len addr => h.wf && fits 32 len && fits 64 addr
  | .badOpcode h x => h.wf && fits 8 x.opcode && fits 16 x.cell
  | .bufferTimeout _ _ => true
  | .hostReadCompletion _ _ _ => true
  | .hostReadTimeout _ _ => true
  | .completionPost _ => true
  | .eventsLost _ => true
  | .msixCoalesceTimeout _ _ => true
  | .walkInvalidate value => fits 32 value
  | .walkInvalidateDone => true
  | .hostWalkRootWrite _ value => fits 32 value
  | .functionLevelReset => true
  | .powerStateChange x => x.bars.all (fun b => fits 64 b.1 && fits 64 b.2)
  | .meterLatch _ => true
  | .recordSigned _ => true
  | .snapshotCommitted => true
  | .leaseCommitted _ => true
  | .pfWarn _ => true
  | .powerfailFreeze _ => true
  | .pfWarnDeassert _ => true
  | .mtrCalSwap => true
  | .mtrCalSwapApply => true
  | .mtrPortSnapshotRead _ => true
  | .weirTimerExpiry _ => true
  | .thermalStale _ => true
  | .auxStart _ _ => true
  | .auxStop _ _ => true
  | .auxDiag _ _ => true
  | .auxDiagDone _ x _ => x.node.length == 3 && x.pair.length == 3
  | .auxAlignDone _ _ => true
  | .auxHandover _ _ => true
  | .auxSpeedLoop _ _ _ => true
  | .auxPwmPeriod _ cur _ => cur.gate.length == 6 && cur.low.length == 3
  | .auxWindowCap _ => true
  | .keMeasured _ ke _ => fits 32 ke
  | .vauxUv vaux _ => fits 32 vaux
  | .vauxUvRecover vaux _ => fits 32 vaux
  | .vauxOv vaux _ => fits 32 vaux
  | .cpUv vcp _ => fits 32 vcp
  | .regenLimit vaux _ => fits 32 vaux
  | .regenClear vaux _ => fits 32 vaux
  | .refVoteUpdate _ _ _ _ => true
  | .refLost _ _ => true
  | .refValid _ _ => true
  | .refReadmit _ _ => true
  | .refSelectMove _ => true
  | .refCoastEnd _ => true
  | .pllDividerUpdate => true
  | .pllLockLost _ _ => true
  | .pllLocked _ _ => true
  | .clkPllSeedWrite _ value => fits 32 value
  | .alarm _ => true
  | .elapsedRead _ => true
  | .alignOfsRead _ => true
  | .ppsEdge _ _ => true
  | .ppsMissing _ => true
  | .ppsStep _ => true
  | .syncSecWrite value => fits 32 value
  | .mainPowerOn => true
  | .railReset => true
  | .bringupStage _ _ => true
  | .persist _ => true
  | .persistDone _ => true
  | .sleep _ => true
  | .wake _ _ => true
  | .shutdown _ => true
  | .shutdownDone fail _ => fits 12 fail
  | .oasisTick _ => true
  | .oasisColdStart => true
  | .oasisTrim _ _ => true
  | .lcTransition value _ _ => fits 32 value
  | .fwkeyFuse => true
  | .registerWrite _ off be x _ =>
    fits 32 off && fits 4 be && fits 32 x.value && x.skew.all (fun y => y.2.wf)
  | .rcFieldRead ag x _ =>
    (fits 32 x.off || (ag == .debugger && decide (x.off < 2 ^ 32 + 560))) && x.skew.all (fun y => fits 32 y.2)
  | .codeGroupLock _ _ => true
  | .resetNAsserted => true

end Sys2Proof
end

