-- ==== Sys2Proof/Certificates/Slice0/Obligations.lean ====
section
/-! DEFINITION. The statements for the provers: what each family of commands does, its frames, the queue, and the
invariants. -/
open Sys2Proof Sys2Proof.Machine Sys2Proof.Machine.Reg


/-- R615 to R619, R621 to R623, R627 to R630 (and R697): the vote marks an outlier, a lost, valid, readmitted or newly selected
reference shows in CLK_REF_STATUS, the loops take values, lock and coast, the alarm disarms, reads latch, and the sync pulse
advances SYNC_SEC and aligns, misses or steps. -/
def Obligations.ClockAndSyncCommands : Prop :=
  (∀ (s : State) (dxa dxb dab : Int) (e : Nat), s.pwr.mainOn = true → (∀ i, i < 3 → s.refValidNow i = true) →
    ∃ t, exec (.refVoteUpdate dxa dxb dab e) s = .next t ∧ t.rd CLK_REF_STATUS.VOTE = 2 ∧
      ((s.rd CLK_REF_CFG.WINDOW : Int) * 1000 < absI dxa → (s.rd CLK_REF_CFG.WINDOW : Int) * 1000 < absI dab → absI dxb ≤ (s.rd CLK_REF_CFG.WINDOW : Int) * 1000 →
        bitOf (t.rd CLK_REF_STATUS.OUT) 1 = true)) ∧
  (∀ (s : State) (i : Fin 3) (e : Nat), s.pwr.mainOn = true → s.refOn i = true →
    ∃ t, exec (.refLost i e) s = .next t ∧ bitOf (t.rd CLK_REF_STATUS.LOST) i = true ∧
      (s.rd CLK_REF_STATUS.SEL = i.val → ∀ p, p < 3 → bitOf (t.rd CLK_PLL_STATUS.COAST) p = true ∧ bitOf (t.rd CLK_PLL_STATUS.LOCKED) p = false)) ∧
  (∀ (s : State) (i : Fin 3) (e : Nat), s.pwr.mainOn = true → bitOf (s.rd CLK_REF_STATUS.LOST) i = true →
      (s.clk.edges.getD i none).getD 0 + 1000000000 ≤ (s.moveTo e).tm.e →
    ∃ t, exec (.refValid i e) s = .next t ∧ bitOf (t.rd CLK_REF_STATUS.LOST) i = false) ∧
  (∀ (s : State) (i : Fin 3) (e a : Nat), s.pwr.mainOn = true → bitOf (s.rd CLK_REF_STATUS.OUT) i = true → s.clk.agree.getD i none = some a →
      a + 10000000000 ≤ (s.moveTo e).tm.e →
    ∃ t, exec (.refReadmit i e) s = .next t ∧ bitOf (t.rd CLK_REF_STATUS.OUT) i = false) ∧
  (∀ (s : State) (b e : Nat), s.pwr.mainOn = true → s.clk.moveTo = some b →
    ∃ t, exec (.refSelectMove e) s = .next t ∧ t.rd CLK_REF_STATUS.SEL = b % 4 ∧ t.rd CLK_REF_STATUS.MOVES = min 255 (s.rd CLK_REF_STATUS.MOVES + 1) ∧
      t.clk.moveTo = none ∧ t.clk.moved = true) ∧
  (∀ (s : State) (c e : Nat), s.pwr.mainOn = true → s.clk.calm = some c → s.rd CLK_REF_STATUS.COAST = 1 → c + 10000000000 ≤ (s.moveTo e).tm.e →
    ∃ t, exec (.refCoastEnd e) s = .next t ∧ t.rd CLK_REF_STATUS.COAST = 0 ∧ t.rd CLK_PLL_STATUS.COAST = 0) ∧
  (∀ (s : State) (vs : List (Nat × Nat)), s.pwr.mainOn = true → s.clk.divPend = some vs →
    ∃ t, exec .pllDividerUpdate s = .next t ∧ t.clk.divPend = none ∧
      ∀ p, p < 3 → t.rdi CLK_PLL_INT_p.INT p = (vs.getD p (0, 0)).1 % 512 ∧ t.rdi CLK_PLL_FRAC_p.FRAC p = (vs.getD p (0, 0)).2 % 2 ^ 24) ∧
  (∀ (s : State) (p : Fin 3) (e : Nat), s.pwr.mainOn = true →
    ∃ t, exec (.pllLockLost p e) s = .next t ∧ bitOf (t.rd CLK_PLL_STATUS.COAST) p = true ∧ bitOf (t.rd CLK_PLL_STATUS.LOCKED) p = false) ∧
  (∀ (s : State) (p : Fin 3) (e : Nat), s.pwr.mainOn = true → s.rd CLK_REF_STATUS.COAST = 0 → bitOf (s.rd CLK_REF_STATUS.LOST) (s.rd CLK_REF_STATUS.SEL) = false →
      bitOf (s.rd CLK_PLL_STATUS.LOCKED) p = false →
    ∃ t, exec (.pllLocked p e) s = .next t ∧ bitOf (t.rd CLK_PLL_STATUS.COAST) p = false ∧ bitOf (t.rd CLK_PLL_STATUS.LOCKED) p = true) ∧
  (∀ (s : State) (p : Fin 3) (v : Nat), s.pwr.mainOn = true →
    (bits v 0 24 ≠ 0 → ∃ t, exec (.clkPllSeedWrite p v) s = .next t ∧ t.rdi CLK_PLL_SEED_p.SEED p = bits v 0 24 ∧
      t.clk.seedPend = s.clk.seedPend.set p (some (bits v 0 24))) ∧
    (bits v 0 24 = 0 → ∃ t, exec (.clkPllSeedWrite p v) s = .next t ∧ t.rd CLK_PLL_STATUS.CFG_ERR = 1 ∧ t.rdi CLK_PLL_SEED_p.SEED p = s.rdi CLK_PLL_SEED_p.SEED p)) ∧
  (∀ (s : State) (e : Nat), s.pwr.mainOn = true → s.bit PWR_WAKE_EN.ALARM = true →
      s.rd CLK_ALARM_HI.A_HI * 2 ^ 32 + s.rd CLK_ALARM_LO.A_LO ≤ (s.moveTo e).tm.e →
    ∃ t, exec (.alarm e) s = .next t ∧ t.rd PWR_WAKE_EN.ALARM = 0 ∧
      (s.bit PWR_STATUS.SLEEP = true → t.rd PWR_STATUS.SLEEP = 0 ∧ t.rd PWR_STATUS.WAKE_SRC = 3)) ∧
  (∀ (s : State) (ag : Agent), s.pwr.mainOn = true →
    (∃ t, exec (.elapsedRead ag) s = .next t ∧ t.out.getLast? = some (.readData ag CLK_ELAPSED_LO.E_LO.base (s.tm.e % 2 ^ 32)) ∧
      t.tm.latE = s.tm.latE.put ag (s.tm.e / 2 ^ 32 % 2 ^ 32)) ∧
    (∃ t, exec (.alignOfsRead ag) s = .next t ∧ t.out.getLast? = some (.readData ag CLK_ALIGN_OFS_LO.O_LO.base (unsg 64 s.tm.o.floor % 2 ^ 32)) ∧
      t.tm.latO = s.tm.latO.put ag (unsg 64 s.tm.o.floor / 2 ^ 32))) ∧
  (∀ (s : State) (e n : Nat), s.pwr.mainOn = true → s.bit SYNC_CFG.EN = true → s.bit SYNC_PPS_STATUS.SEC_VALID = true →
      ((s.moveTo e).stime + 500000000) / 1000000000 = (s.rd SYNC_SEC.NEXT : Int) →
    ∃ t, exec (.ppsEdge e n) s = .next t ∧ t.rd SYNC_SEC.NEXT = (s.rd SYNC_SEC.NEXT + 1) % 2 ^ 32 ∧
      (absI ((s.moveTo e).stime - (s.rd SYNC_SEC.NEXT : Int) * 1000000000) ≤ (s.rd SYNC_CFG.SLEW_WINDOW : Int) * 1000 →
        t.rd SYNC_PPS_STATUS.SUSPECT = 0 ∧
        (absI ((s.moveTo e).stime - (s.rd SYNC_SEC.NEXT : Int) * 1000000000) ≤ 1000 → t.rd SYNC_PPS_STATUS.ALIGNED = 1)) ∧
      ((s.rd SYNC_CFG.SLEW_WINDOW : Int) * 1000 < absI ((s.moveTo e).stime - (s.rd SYNC_SEC.NEXT : Int) * 1000000000) →
        t.rd SYNC_PPS_STATUS.SUSPECT = 1 ∧ t.rd SYNC_PPS_STATUS.ALIGNED = 0 ∧ t.clk.slew = 0)) ∧
  (∀ (s : State) (e : Nat), s.pwr.mainOn = true → s.bit SYNC_CFG.EN = true → s.bit SYNC_PPS_STATUS.SEC_VALID = true →
      (s.rd SYNC_SEC.NEXT : Int) * 1000000000 + 500000000 ≤ (s.moveTo e).stime →
    ∃ t, exec (.ppsMissing e) s = .next t ∧ t.rd SYNC_SEC.NEXT = (s.rd SYNC_SEC.NEXT + 1) % 2 ^ 32 ∧
      t.rd SYNC_PPS_STATUS.MISSING = min 255 (s.rd SYNC_PPS_STATUS.MISSING + 1) ∧ t.clk.slew = 0) ∧
  (∀ (s : State) (e : Nat) (x : Int), s.pwr.mainOn = true → s.clk.stepPend = some x → s.tm.run = false →
    ∃ t, exec (.ppsStep e) s = .next t ∧ t.clk.stepPend = none ∧ t.rd SYNC_PPS_STATUS.ALIGNED = 0 ∧
      t.rd SYNC_PPS_STATUS.STEPS = min 255 (s.rd SYNC_PPS_STATUS.STEPS + 1) ∧
      ∃ k : Int, t.tm.n = s.tm.n - k ∧ t.tm.o = (s.moveTo e).tm.o - ((k * (s.period : Int) : Int) : Rat)) ∧
  (∀ (s : State) (v : Nat), s.pwr.mainOn = true →
    ∃ t, exec (.syncSecWrite v) s = .next t ∧ t.rd SYNC_SEC.NEXT = v % 2 ^ 32 ∧ t.rd SYNC_PPS_STATUS.SEC_VALID = 1)

/-- R26, R30, R31, R44: an allowed write of CLK_TICK_CFG, of a stage deadline and of CLK_SHED_CFG. -/
def Obligations.TickConfigurationWrites : Prop :=
  (∀ (s : State) (v : Nat), s.pwr.mainOn = true → bits v 0 7 = s.rd CLK_TICK_CFG.PERIOD →
      10 ≤ bits v 0 7 → bits v 0 7 ≤ 100 → 1 ≤ bits v 20 4 → bits v 20 4 < s.rd LINK_CFG.STARVE_TICKS →
    ∃ t, exec (.clkTickCfgWrite v) s = .next t ∧ t.rd CLK_TICK_CFG.OVERRUN_LIMIT = bits v 20 4 ∧
      t.rd CLK_TICK_CFG.PERIOD = s.rd CLK_TICK_CFG.PERIOD ∧ t.tm = s.tm ∧ t.cells = s.cells) ∧
  (∀ (s : State) (v : Nat), s.pwr.mainOn = true → s.tm.run = true → bits v 0 7 ≠ s.rd CLK_TICK_CFG.PERIOD → bits v 0 7 ≠ s.tm.half →
      10 ≤ bits v 0 7 → bits v 0 7 ≤ 100 → 1 ≤ bits v 20 4 → bits v 20 4 < s.rd LINK_CFG.STARVE_TICKS →
      s.allBlocked = true → s.tm.newHalf = none → s.rdi CLK_TICK_DEADLINE_n.DEADLINE 5 * 10 + 100 ≤ bits v 0 7 * 500 →
    ∃ t, exec (.clkTickCfgWrite v) s = .next t ∧ t.rd CLK_TICK_CFG.PERIOD = bits v 0 7 ∧
      t.tm = { s.tm with newHalf := some (bits v 0 7) } ∧ t.rd CLK_TICK_STATUS.PERIOD_PEND = 1) ∧
  (∀ (s : State) (n : Fin 6) (v : Nat), s.pwr.mainOn = true → s.deadlinesRise n (bits v 0 13) = true → s.tm.newHalf = none →
      s.tri.imageOk = false → 410 + s.rd ADC_CTL_CFG.DELAY + 20 ≤ bits v 0 13 * 10 →
      (if n.val = 5 then bits v 0 13 else s.rdi CLK_TICK_DEADLINE_n.DEADLINE 5) * 10 + 100 ≤ s.tm.half * 500 →
    ∃ t, exec (.clkTickDeadlineWrite n v) s = .next t ∧ t.rdi CLK_TICK_DEADLINE_n.DEADLINE n = bits v 0 13 ∧
      (∀ k, k ≠ n.val → t.rdi CLK_TICK_DEADLINE_n.DEADLINE k = s.rdi CLK_TICK_DEADLINE_n.DEADLINE k)) ∧
  (∀ (s : State) (v : Nat), s.pwr.mainOn = true → bits v 24 3 ≤ 4 → 50 ≤ bits v 8 8 → bits v 8 8 ≤ 100 →
    ∃ t, exec (.clkShedCfgWrite v) s = .next t ∧ t.rd CLK_SHED_CFG.MAX_LEVEL = bits v 24 3 ∧
      t.rd CLK_SHED_CFG.HEADROOM = bits v 8 8 ∧ t.rd CLK_SHED_CFG.THERM_EN = bits v 2 1 ∧
      t.rd CLK_SHED_CFG.POWER_EN = bits v 1 1 ∧ t.rd CLK_SHED_CFG.HEADROOM_EN = bits v 0 1 ∧
      t.rd CLK_TICK_STATUS.SHED_LEVEL = s.rd CLK_TICK_STATUS.SHED_LEVEL)

/-- R24, R28, R36, R38, R461, R703: where the boundary and the deadlines of an undisturbed tick leave the tick. -/
def Obligations.TickStagesPass : Prop :=
  (∀ (s : State) (e : Nat), s.pwr.mainOn = true → s.tm.run = true → s.tm.phase = 6 → s.pwr.sleepPend = false →
      s.tm.newHalf = none → s.tm.shedClamp = false → s.tm.n < (s.moveTo e).stime / (s.period : Int) →
    ∃ t, exec (.tickBoundary e) s = .next t ∧ t.tm.phase = 0 ∧ t.tm.n = (s.moveTo e).stime / (s.period : Int) ∧
      t.tm.start = (s.moveTo e).tm.e - ((s.moveTo e).stime % (s.period : Int)).toNat ∧
      t.tm.tended = false ∧ t.tm.abandoned = false ∧ t.tm.used = [0, 0, 0, 0, 0, 0]) ∧
  (∀ (s : State) (x : Stream) (sk : List (Member × Fin 16 × List Int)) (used e : Nat), s.pwr.mainOn = true → s.tm.run = true → s.tm.phase = 0 →
      s.deadline 0 ≤ (s.moveTo e).tm.e → s.pwr.tready = true → s.pwr.restart = false → s.halted = false → s.tm.s1run = false →
    ∃ t, exec (.s0Deadline ⟨x, sk⟩ true used e) s = .next t ∧ t.tm.phase = 1 ∧ t.tm.s1run = true ∧ t.tm.tended = false ∧
      t.tm.used = s.tm.used.set 0 used) ∧
  (∀ (s : State) (e : Nat), s.pwr.mainOn = true → s.tm.s1run = true → s.halted = false → s.tri.dropTick = false →
      (s.moveTo e).tm.e < s.deadline 1 →
    ∃ t, exec (.tend e) s = .next t ∧ t.hst.atTend = [] ∧ t.tm.tended = true ∧ t.tm.s1run = false) ∧
  (∀ (s : State) (e : Nat), s.pwr.mainOn = true → s.tm.run = true → s.tm.phase = 1 → s.tm.s1run = true → s.halted = false →
      s.deadline 1 ≤ (s.moveTo e).tm.e →
    ∃ t, exec (.tend e) s = .next t ∧ t.tm.tended = s.tm.tended ∧ t.tm.abandoned = true ∧ t.tm.phase = 2) ∧
  (∀ (s : State) (e : Nat), s.pwr.mainOn = true → s.tm.run = true → s.tm.phase = 1 → s.deadline 1 ≤ (s.moveTo e).tm.e →
      s.tm.s1run = false → s.tm.tended = true → s.tm.abandoned = false → s.halted = false →
    ∃ t, exec (.s1Deadline e) s = .next t ∧ t.tm.phase = 2 ∧ t.sched.plan ≠ none ∧ t.regs = s.regs) ∧
  (∀ (s : State) (used e : Nat), s.pwr.mainOn = true → s.tm.run = true → s.tm.phase = 2 → s.deadline 2 ≤ (s.moveTo e).tm.e →
      s.tm.abandoned = false →
    ∃ t, exec (.s2Deadline true used e) s = .next t ∧ t.tm.phase = 3 ∧ t.tm.used = s.tm.used.set 2 used ∧
      t.sched = s.sched ∧ t.cells = s.cells ∧ t.regs = s.regs) ∧
  (∀ (s : State) (used e : Nat), s.pwr.mainOn = true → s.tm.run = true → s.tm.phase = 3 → s.deadline 3 ≤ (s.moveTo e).tm.e →
      s.tm.abandoned = false → s.tm.launchOver = false → s.pwr.shutdown = false → s.halted = false → s.sched.plan ≠ none →
    ∃ t, exec (.s3Deadline ⟨true, .all⟩ used e) s = .next t ∧ t.tm.phase = 4 ∧ t.sched.launched = .normal ∧
      t.rd CLK_TICK_STATUS.REPEAT = 0 ∧ t.rd CLK_TICK_STATUS.HOLD = 0) ∧
  (∀ (s : State) (used e : Nat), s.pwr.mainOn = true → s.tm.run = true → s.tm.phase = 4 → s.deadline 4 ≤ (s.moveTo e).tm.e →
    ∃ t, exec (.s4Deadline true used e) s = .next t ∧ t.tm.phase = 5 ∧ t.tm.late4 = false ∧ t.tm.used = s.tm.used.set 4 used ∧
      t.cells = s.cells ∧ t.regs = s.regs) ∧
  (∀ (s : State) (used e : Nat) (l : List (Fin 240)), s.pwr.mainOn = true → s.tm.run = true → s.tm.phase = 5 →
      s.deadline 5 ≤ (s.moveTo e).tm.e → s.tm.overran = false → s.tm.late4 = false → s.halted = false →
    ∃ t, exec (.s5Deadline true used l e) s = .next t ∧ t.tm.phase = 6 ∧ t.rd CLK_TICK_STATUS.OVR_CONSEC = 0 ∧
      t.rd CLK_TICK_OVR_COUNT.COUNT = s.rd CLK_TICK_OVR_COUNT.COUNT)

/-- R14, R15, R386, R695 to R697, R496: an offset with no register, and a write of part of a word, post CONFIG_REFUSED and
set no field but, for a register, its block's CFG_ERR; a misaligned access has no effect of its own (the model's choice where
the spec gives none), but that a misaligned read by firmware traps (R459), and so has a host's access in D3hot and a
debugger's without debug access; an RW field takes its bits; a value outside a field's
range sets the block's CFG_ERR and changes no field; an RWS field outside COMMISSIONING stays, with the block's CFG_ERR
where it would have changed, and takes its bits in COMMISSIONING; a 1 clears a W1C bit and a 0 leaves it; a read
returns the word the reading agent sees (of a queue's, a comparator's and a motor channel's status, the word at the instant of
the read), and then every RC field of
that register reads 0; a read of one of the three registers that latch for their reader does what its own command does. -/
def Obligations.RegisterWritesAndReads : Prop :=
  (∀ (s : State) (ag : Agent) (off be v e : Nat), s.pwr.mainOn = true → s.admits ag = true → off < 0x290000 → off % 4 = 0 →
    (off % 0x10000 < 0x8000 → regAt off = none → ∃ t, exec (.registerWrite ag off be ⟨v, []⟩ e) s = .next t ∧ s.hst.seqNo < t.hst.seqNo ∧ t.cells = s.cells ∧ t.law = s.law ∧
      ∀ f i, f.base / 0x10000 < 41 → f.base / 0x10000 ≠ 9 → f.base % 0x10000 + 4 * f.count ≤ 0x8000 → f.lo < 32 → t.rdi f i = s.rdi f i) ∧
    (∀ r, regAt off = some r → r.base ≠ CRC_DATA.DATA.base → be % 16 ≠ 15 → s.absentReg r ((off - r.base) / 4) = false →
      ∃ t, exec (.registerWrite ag off be ⟨v, []⟩ e) s = .next t ∧ s.hst.seqNo < t.hst.seqNo ∧ t.cells = s.cells ∧ t.law = s.law ∧
      (∀ x, errField off = some x → t.rd x = 1) ∧
      ∀ f i, f.base / 0x10000 < 41 → f.base / 0x10000 ≠ 9 → f.base % 0x10000 + 4 * f.count ≤ 0x8000 → f.lo < 32 →
        (∀ x, errField off = some x → apart x f = true) → t.rdi f i = s.rdi f i)) ∧
  (∀ (s : State) (ag : Agent) (off be v e : Nat) (sk : List (Member × Nat)), s.pwr.mainOn = true →
    (s.admits ag = false ∨ off % 4 ≠ 0 → exec (.registerWrite ag off be ⟨v, []⟩ e) s = .next (s.moveTo e)) ∧
    (s.admits ag = false ∨ (off % 4 ≠ 0 ∧ ag ≠ .firmware) → exec (.rcFieldRead ag ⟨off, sk⟩ e) s = .next (s.moveTo e)) ∧
    (off % 4 ≠ 0 → s.tri.imageOk = true →
      exec (.rcFieldRead .firmware ⟨off, sk⟩ e) s = .next ((s.moveTo e).trapNow (s.moveTo e).entryNow))) ∧
  (∀ (s : State) (ag : Agent) (v e : Nat), s.pwr.mainOn = true → s.admits ag = true → v < 2 ^ 32 →
    (∃ t, exec (.registerWrite ag 0x50004 15 ⟨v, []⟩ e) s = .next t ∧ t.rd PWR_WAKE_EN.ALARM = bits v 3 1 ∧ t.rd PWR_WAKE_EN.RING = bits v 1 1 ∧
      t.rd PWR_WAKE_EN.DOORBELL = bits v 0 1 ∧ t.rd PWR_WAKE_EN.SAFETY = s.rd PWR_WAKE_EN.SAFETY) ∧
    (∃ t, exec (.registerWrite ag 0x230010 15 ⟨v, []⟩ e) s = .next t ∧
      (bits v 0 8 ≤ 239 → t.rd MTR_PORT_SEL.CELL = bits v 0 8) ∧
      (239 < bits v 0 8 → t.rd MTR_PORT_SEL.CELL = s.rd MTR_PORT_SEL.CELL ∧ t.rd MTR_STATUS.CFG_ERR = 1)) ∧
    (∃ t, exec (.registerWrite ag 0x50008 15 ⟨v, []⟩ e) s = .next t ∧ t.rd PWR_STATUS.SLEEP = s.rd PWR_STATUS.SLEEP ∧
      (bits v 27 1 = 1 → s.rd PWR_STATUS.CFG_ERR < 2 → t.rd PWR_STATUS.CFG_ERR = 0) ∧
      (bits v 27 1 = 0 → s.rd PWR_STATUS.CFG_ERR < 2 → t.rd PWR_STATUS.CFG_ERR = s.rd PWR_STATUS.CFG_ERR)) ∧
    (∃ t, exec (.registerWrite ag 0x5000C 15 ⟨v, []⟩ e) s = .next t ∧
      (s.rd LC_STATE.STATE ≠ 2 → t.rd PWR_PF_CFG.LEVEL = s.rd PWR_PF_CFG.LEVEL ∧
        (bits v 20 12 ≠ s.rd PWR_PF_CFG.LEVEL → t.rd PWR_STATUS.CFG_ERR = 1 ∧ s.hst.seqNo < t.hst.seqNo)) ∧
      (s.rd LC_STATE.STATE = 2 → 200 ≤ bits v 20 12 → bits v 20 12 ≤ 2400 → 10 ≤ bits v 12 8 → 1 ≤ bits v 8 4 → t.rd PWR_PF_CFG.LEVEL = bits v 20 12))) ∧
  (∀ (s : State) (ag : Agent) (off e : Nat) (r : RegRow), s.pwr.mainOn = true → s.admits ag = true → off % 4 = 0 → regAt off = some r →
    s.absentReg r ((off - r.base) / 4) = false →
    (off = CLK_ELAPSED_LO.E_LO.base → exec (.rcFieldRead ag ⟨off, []⟩ e) s = exec (.elapsedRead ag) (s.moveTo e)) ∧
    (off = CLK_ALIGN_OFS_LO.O_LO.base → exec (.rcFieldRead ag ⟨off, []⟩ e) s = exec (.alignOfsRead ag) (s.moveTo e)) ∧
    (off = MTR_PORT_DATA_n.W.base → exec (.rcFieldRead ag ⟨off, []⟩ e) s = exec (.mtrPortSnapshotRead ag) (s.moveTo e)) ∧
    (off ≠ CLK_ELAPSED_LO.E_LO.base → off ≠ CLK_ALIGN_OFS_LO.O_LO.base → off ≠ MTR_PORT_DATA_n.W.base →
    ∃ t, exec (.rcFieldRead ag ⟨off, []⟩ e) s = .next t ∧
      (off / 0x10000 ≠ ADC_Q_STATUS_q.STATE.base / 0x10000 → off / 0x10000 ≠ CMP_STATUS.LIVE.base / 0x10000 →
        off / 0x10000 ≠ AUX_STATUS_m.HOLD.base / 0x10000 → t.out = s.out ++ [.readData ag off (s.readWord ag off)]) ∧
      (off / 0x10000 = ADC_Q_STATUS_q.STATE.base / 0x10000 →
        t.out = (s.moveTo e).cmpLook.qRunAll.out ++ [.readData ag off ((s.moveTo e).cmpLook.qRunAll.readWord ag off)]) ∧
      (off / 0x10000 = CMP_STATUS.LIVE.base / 0x10000 →
        t.out = (s.moveTo e).cmpLook.out ++ [.readData ag off ((s.moveTo e).cmpLook.readWord ag off)]) ∧
      (off / 0x10000 = AUX_STATUS_m.HOLD.base / 0x10000 →
        t.out = (s.moveTo e).auxHolds.out ++ [.readData ag off ((s.moveTo e).auxHolds.readWord ag off)]) ∧
      ∀ x ∈ r.fields, x.acc = .rc → t.rdi x.f ((off - r.base) / 4) = 0))

/-- R391, R392, R396, R408, R409, R411, R412, R422, R428, R506: what the stop commands latch, the scope and the phases they
leave in force, the breaker outputs, and the block sent to a cell. -/
def Obligations.StopAndBreakerCommands : Prop :=
  (∀ (s : State) (e : Nat), s.pwr.mainOn = true → s.rd SLC_BLOCK_STATUS.PHASES < 8 →
    ∃ t, exec (.slcStop e) s = .next t ∧ t.rd SLC_TRIP_LATCH.HOST = 1 ∧ t.rd SLC_BLOCK_STATUS.PHASES = 7 ∧
      t.rd SLC_BLOCK_STATUS.SCOPE = (if s.rd SLC_BLOCK_STATUS.SCOPE = 3 then 3 else 2) ∧
      t.rd SLC_BLOCK_STATUS.BRK = s.rd SLC_BLOCK_STATUS.BRK ∧ t.slc.release = [] ∧
      (s.rd SLC_BLOCK_STATUS.PHASES ≠ 7 →
        (∀ c, s.cells.any (fun kv => kv.1 == c) = true → s.phaseOf c < 3 → (t.cell c).svc.blk = true) ∧
        ∀ r ∈ s.ringsOn, ∀ l < 2, Out.link r l (thrice (bkCodes 0x47)) ∈ t.out)) ∧
  (∀ (s : State) (e : Nat), s.pwr.mainOn = true → s.rd SLC_BLOCK_STATUS.PHASES < 8 →
    ∃ t, exec (.slcStopBrk e) s = .next t ∧ t.rd SLC_TRIP_LATCH.HOST = 1 ∧ t.rd SLC_BLOCK_STATUS.PHASES = 7 ∧
      t.rd SLC_BLOCK_STATUS.SCOPE = 3 ∧ t.rd SLC_BLOCK_STATUS.BRK = (if s.rd SLC_BLOCK_STATUS.BRK = 0 then 1 else s.rd SLC_BLOCK_STATUS.BRK) ∧
      t.slc.release = []) ∧
  (∀ (s u : State) (h : DescHdr) (d : Desc) (e : Nat), s.pwr.mainOn = true → (s.moveTo e).startDesc h 0x02 = .go d u →
      s.rdi RING_CFG_n.TYPE h.ring = 0 → s.rd SLC_BLOCK_STATUS.PHASES < 8 →
    ∃ t, exec (.converterStop h e) s = .next t ∧ t.rd SLC_TRIP_LATCH.HOST = 1 ∧ t.rd SLC_BLOCK_STATUS.PHASES = 7 ∧
      t.rd SLC_BLOCK_STATUS.SCOPE = (if s.rd SLC_BLOCK_STATUS.SCOPE = 3 then 3 else 2) ∧
      t.rd SLC_BLOCK_STATUS.BRK = s.rd SLC_BLOCK_STATUS.BRK ∧ t.slc.release = [] ∧
      ∃ x ∈ t.hst.comps, x.status = 0 ∧ x.tag = h.tag) ∧
  (∀ (s u : State) (h : DescHdr) (d : Desc) (e : Nat), s.pwr.mainOn = true → (s.moveTo e).startDesc h 0x02 = .go d u →
      s.rdi RING_CFG_n.TYPE h.ring = 0 → s.rd SLC_BLOCK_STATUS.PHASES < 8 →
    ∃ t, exec (.converterStopBrk h e) s = .next t ∧ t.rd SLC_TRIP_LATCH.HOST = 1 ∧ t.rd SLC_BLOCK_STATUS.PHASES = 7 ∧
      t.rd SLC_BLOCK_STATUS.SCOPE = 3 ∧ t.rd SLC_BLOCK_STATUS.BRK = (if s.rd SLC_BLOCK_STATUS.BRK = 0 then 1 else s.rd SLC_BLOCK_STATUS.BRK) ∧
      t.slc.release = [] ∧ ∃ x ∈ t.hst.comps, x.status = 0 ∧ x.tag = h.tag) ∧
  (∀ (s : State) (e : Nat), s.pwr.mainOn = true →
    ∃ t, exec (.slcBrkReset e) s = .next t ∧
      (s.latchWord = 0 ∧ s.slc.brkAt + s.rd SLC_CFG.BRK_HOLD * 10000000 ≤ (s.moveTo e).tm.e ∧ s.rd SAFE_STATUS.BRK_FB_ERR = 0 →
        t.rd SLC_BLOCK_STATUS.BRK = 0 ∧ t.rd SLC_BLOCK_STATUS.CFG_ERR = s.rd SLC_BLOCK_STATUS.CFG_ERR) ∧
      (¬(s.latchWord = 0 ∧ s.slc.brkAt + s.rd SLC_CFG.BRK_HOLD * 10000000 ≤ (s.moveTo e).tm.e ∧ s.rd SAFE_STATUS.BRK_FB_ERR = 0) →
        t.rd SLC_BLOCK_STATUS.BRK = s.rd SLC_BLOCK_STATUS.BRK ∧ t.rd SLC_BLOCK_STATUS.CFG_ERR = 1) ∧
      t.rd SLC_BLOCK_STATUS.SCOPE = s.rd SLC_BLOCK_STATUS.SCOPE ∧ t.cells = s.cells) ∧
  (∀ (s u : State) (h : DescHdr) (d : Desc) (e : Nat), s.pwr.mainOn = true → (s.moveTo e).startDesc h 0x02 = .go d u →
      s.rdi RING_CFG_n.TYPE h.ring = 0 → s.latchWord = 0 →
      s.slc.brkAt + s.rd SLC_CFG.BRK_HOLD * 10000000 ≤ (s.moveTo e).tm.e → s.rd SAFE_STATUS.BRK_FB_ERR = 0 →
    ∃ t, exec (.converterBrkReset h e) s = .next t ∧ t.rd SLC_BLOCK_STATUS.BRK = 0 ∧ ∃ x ∈ t.hst.comps, x.status = 0 ∧ x.tag = h.tag) ∧
  (∀ (s u : State) (h : DescHdr) (d : Desc) (e : Nat), s.pwr.mainOn = true → (s.moveTo e).startDesc h 0x02 = .go d u →
      s.rdi RING_CFG_n.TYPE h.ring = 0 →
      ¬(s.latchWord = 0 ∧ s.slc.brkAt + s.rd SLC_CFG.BRK_HOLD * 10000000 ≤ (s.moveTo e).tm.e ∧ s.rd SAFE_STATUS.BRK_FB_ERR = 0) →
    ∃ t, exec (.converterBrkReset h e) s = .next t ∧ t.rd SLC_BLOCK_STATUS.BRK = s.rd SLC_BLOCK_STATUS.BRK ∧
      t.rd SLC_BLOCK_STATUS.CFG_ERR = 1 ∧ ∃ x ∈ t.hst.comps, x.status = 2 ∧ x.tag = h.tag) ∧
  (∀ (s : State) (c e : Nat), s.pwr.mainOn = true →
    ∃ t, exec (.slcCellBlk c e) s = .next t ∧
      (c < s.cellCount → (t.cell c).svc.blk = true ∧ (t.cell c).svc.cellBlk = true ∧
        (∀ l < 2, Out.link (ringOf c) l (thrice (bkCodes (posOf c))) ∈ t.out) ∧
        (∀ d, d ≠ c → t.cell d = s.cell d) ∧ t.regs = s.regs) ∧
      (s.cellCount ≤ c → c < 240 → t = s.moveTo e) ∧
      (240 ≤ c → t.rd SLC_BLOCK_STATUS.CFG_ERR = 1 ∧ t.cells = s.cells ∧ t.out = s.out)) ∧
  (∀ (s : State) (hi e : Nat), s.pwr.mainOn = true → hi < (s.moveTo e).tm.e + s.rd SLC_CFG.TRIP_IN_FILT * 4 →
    exec (.tripIn hi e) s = .next (s.moveTo e)) ∧
  (∀ (s : State) (hi e : Nat), s.pwr.mainOn = true → s.rd SLC_BLOCK_STATUS.PHASES < 8 →
      (s.moveTo e).tm.e + s.rd SLC_CFG.TRIP_IN_FILT * 4 ≤ hi →
    ∃ t, exec (.tripIn hi e) s = .next t ∧ t.rd SLC_TRIP_LATCH.TRIP_IN = 1 ∧ t.rd SLC_BLOCK_STATUS.PHASES = 7 ∧
      t.rd SLC_BLOCK_STATUS.SCOPE = (if s.rd SLC_SRC_ROUTE.TRIPIN_ACT = 3 ∨ s.rd SLC_BLOCK_STATUS.SCOPE = 3 then 3 else 2) ∧
      t.rd SLC_BLOCK_STATUS.BRK = (if s.rd SLC_SRC_ROUTE.TRIPIN_ACT = 3 ∧ s.rd SLC_BLOCK_STATUS.BRK = 0 then 1 else s.rd SLC_BLOCK_STATUS.BRK) ∧
      t.slc.release = []) ∧
  (∀ (s : State), s.pwr.mainOn = true → s.rd SLC_BLOCK_STATUS.PHASES < 8 → s.bit TRI_STATUS.DBG_HALT = true →
      s.rd LINK_CFG.STARVE_TICKS ≤ s.tri.haltTicks → s.rd SLC_TRIP_LATCH.DEBUG_STARVE = 0 →
    ∃ t, exec .debugStarve s = .next t ∧ t.rd SLC_TRIP_LATCH.DEBUG_STARVE = 1 ∧ t.rd SLC_BLOCK_STATUS.PHASES = 7 ∧
      t.rd SLC_BLOCK_STATUS.SCOPE = (if s.rd SLC_BLOCK_STATUS.SCOPE = 3 then 3 else 2) ∧ t.slc.release = [] ∧
      (2 ≤ s.rd SLC_BLOCK_STATUS.SCOPE → ∀ r ∈ s.ringsOn, ∀ l < 2, Out.link r l (thrice (bkCodes 0x47)) ∈ t.out))

/-- R312, R318 to R322, R327, R328, R330, R331, R505: REMOVE, RETURN and NODE_FW descriptors are kept or refused; the timeouts
of the spillway fail a join; verification, pre-charge and ramps move a cell on. -/
def Obligations.SpillwayCommands : Prop :=
  (∀ (s : State) (c : Fin 240) (n : Nat), s.pwr.mainOn = true → (s.cell c).svc.spillTicks = some n → s.rd JOIN_CFG.SPILL_TICKS ≤ n →
      (s.cell c).svc.spillFail = false → (s.cell c).link.fresh = true →
    ∃ t, exec (.spillTimeout c) s = .next t ∧ (t.cell c).svc.spillFail = true ∧
      (t.cell c).link.aux.queue = (s.cell c).link.aux.queue ++ [auxMessage 6 []] ∧ s.hst.seqNo < t.hst.seqNo ∧
      t.sstate c = s.sstate c ∧ ∀ d, d ≠ c.val → t.cell d = s.cell d) ∧
  (∀ (s u : State) (h : DescHdr) (d : Desc) (c : Fin 240), s.pwr.mainOn = true → s.startDesc h 0x03 = .go d u →
      s.rdi RING_CFG_n.TYPE h.ring = 0 → c.val < s.cellCount → s.enabled c = true → s.released = false → (s.sstate c = 4 ∨ s.sstate c = 5) →
    ∃ t, exec (.cellRemove h c) s = .next t ∧ (t.cell c).svc.todo = 1 ∧ (t.cell c).svc.acts = (s.cell c).svc.acts ++ [(1, d)] ∧
      t.sstate c = s.sstate c ∧ t.hst.comps = s.hst.comps) ∧
  (∀ (s u : State) (h : DescHdr) (d : Desc) (c : Fin 240), s.pwr.mainOn = true → s.startDesc h 0x03 = .go d u →
      s.rdi RING_CFG_n.TYPE h.ring = 0 → c.val < s.cellCount → s.enabled c = true → s.sstate c ≠ 4 → s.sstate c ≠ 5 →
    ∃ t, exec (.cellRemove h c) s = .next t ∧ t.rd JOIN_STATUS.CFG_ERR = 1 ∧ t.cells = s.cells ∧
      ∃ x, t.hst.comps = s.hst.comps ++ [x] ∧ x.status = 2 ∧ x.tag = h.tag) ∧
  (∀ (s u : State) (h : DescHdr) (d : Desc) (c : Fin 240), s.pwr.mainOn = true → s.startDesc h 0x03 = .go d u →
      s.rdi RING_CFG_n.TYPE h.ring = 0 → c.val < s.cellCount → s.enabled c = true → (s.sstate c = 7 ∨ s.sstate c = 8 ∨ s.sstate c = 9) →
    ∃ t, exec (.cellReturn h c) s = .next t ∧ (t.cell c).svc.todo = 2 ∧ (t.cell c).svc.acts = (s.cell c).svc.acts ++ [(2, d)] ∧
      t.sstate c = s.sstate c ∧ t.hst.comps = s.hst.comps) ∧
  (∀ (s u : State) (h : DescHdr) (d : Desc) (c : Fin 240) (a : Nat), s.pwr.mainOn = true → s.startDesc h 0x03 = .go d u →
      s.rdi RING_CFG_n.TYPE h.ring = 0 → c.val < s.cellCount → s.enabled c = true → s.sstate c = 7 →
    ∃ t, exec (.cellNodeFw h c 0 a) s = .next t ∧ (t.cell c).svc.acts = (s.cell c).svc.acts ++ [(3, d)] ∧
      (t.cell c).link.aux.queue = (s.cell c).link.aux.queue ++ [auxMessage 8 [0, crc32c []]]) ∧
  (∀ (s u : State) (h : DescHdr) (d : Desc) (c : Fin 240) (l a : Nat), s.pwr.mainOn = true → s.startDesc h 0x03 = .go d u →
      s.rdi RING_CFG_n.TYPE h.ring = 0 → c.val < s.cellCount → s.enabled c = true → s.sstate c ≠ 7 →
    ∃ t, exec (.cellNodeFw h c l a) s = .next t ∧ t.rd JOIN_STATUS.CFG_ERR = 1 ∧ t.cells = s.cells ∧
      ∃ x, t.hst.comps = s.hst.comps ++ [x] ∧ x.status = 2 ∧ x.tag = h.tag) ∧
  (∀ (s : State) (c : Fin 240) (n : Nat), s.pwr.mainOn = true → (s.cell c).svc.retTicks = some n → 16 ≤ n → s.tm.run = true →
      s.tm.phase = 0 → s.sstate c = 8 →
    ∃ t, exec (.returnTripTimeout c) s = .next t ∧ t.rdi JOIN_CELL_STATUS_n.FAIL c = 5 ∧ t.biti JOIN_CELL_STATUS_n.HOLD c = true ∧
      s.hst.seqNo < t.hst.seqNo) ∧
  (∀ (s : State) (c : Fin 240) (e : Nat), s.pwr.mainOn = true → s.tm.run = true → s.tm.phase = 0 → s.sstate c = 2 →
      20000000 ≤ (s.cell c).svc.verifyOk →
    ∃ t, exec (.verifyPass c e) s = .next t ∧ t.sstate c = 3 ∧
      t.biti JOIN_CELL_STATUS_n.PRE_MODE c = !(s.role c == 1 || s.role c == 2) ∧ (t.cell c).svc.preUsed = 0 ∧
      (t.cell c).svc.preOk = 0 ∧ (s.role c = 1 ∨ s.role c = 2 →
        (t.cell c).link.aux.queue = (s.cell c).link.aux.queue ++ [auxMessage 4 [(s.vlo c).toNat * 2 ^ 16 + s.rd JOIN_CFG.PRE_I * 10]])) ∧
  (∀ (s : State) (c : Fin 240) (e : Nat), s.pwr.mainOn = true → s.tm.run = true → s.tm.phase = 0 → s.sstate c = 2 →
      (s.cell c).svc.verifyOk < 20000000 → s.rd JOIN_TIME_CFG.VERIFY_S * 1000000000 ≤ (s.moveTo e).stepTime c →
    ∃ t, exec (.verifyTimeout c e) s = .next t ∧ t.sstate c = 7 ∧ t.rdi JOIN_CELL_STATUS_n.FAIL c = 3 ∧
      t.biti JOIN_CELL_STATUS_n.HOLD c = true ∧ s.hst.seqNo < t.hst.seqNo) ∧
  (∀ (s : State) (c : Fin 240) (e : Nat), s.pwr.mainOn = true → s.tm.run = true → s.tm.phase = 0 → s.sstate c = 3 →
      (s.cell c).svc.preOk = 0 → s.rd JOIN_TIME_CFG.PRECHARGE_S * 1000000000 ≤ (s.moveTo e).stepTime c →
    ∃ t, exec (.prechargeTimeout c e) s = .next t ∧
      (s.biti JOIN_CELL_STATUS_n.PRE_MODE c = true → t.sstate c = 7 ∧ t.rdi JOIN_CELL_STATUS_n.FAIL c = 4 ∧
        t.biti JOIN_CELL_STATUS_n.HOLD c = true ∧ s.hst.seqNo < t.hst.seqNo) ∧
      (s.biti JOIN_CELL_STATUS_n.PRE_MODE c = false → t.sstate c = 3 ∧ t.biti JOIN_CELL_STATUS_n.PRE_MODE c = true ∧
        (t.cell c).svc.preUsed = 0 ∧ (t.cell c).link.aux.queue = (s.cell c).link.aux.queue ++ [auxMessage 5 []])) ∧
  (∀ (s : State) (c : Fin 240) (e : Nat), s.pwr.mainOn = true → s.tm.run = true → s.tm.phase = 0 → s.sstate c = 3 →
      2 ≤ (s.cell c).svc.preOk → s.ringState (ringOf c) = 4 → s.phaseReleased (s.phaseOf c) = true →
    ∃ t, exec (.prechargeDone c e) s = .next t ∧ t.sstate c = 4 ∧ (t.cell c).svc.weight = 0 ∧ (t.cell c).svc.rampN = 0 ∧
      (t.cell c).svc.rampMs = s.rd JOIN_CFG.RAMP_MS) ∧
  (∀ (s : State) (c : Fin 240), s.pwr.mainOn = true → s.tm.run = true → s.tm.phase = 0 → s.sstate c = 4 → (s.cell c).svc.weight = 256 →
    ∃ t, exec (.rampComplete c) s = .next t ∧ t.sstate c = 5 ∧ s.hst.seqNo < t.hst.seqNo ∧
      t.rdi HGS_CELL_STATE_n.BUDGET c = min (256 * s.act HGS_SW_CFG.BURST) 32767) ∧
  (∀ (s : State) (c : Fin 240), s.pwr.mainOn = true → s.tm.run = true → s.tm.phase = 0 → s.sstate c = 6 → (s.cell c).svc.rampDone = true →
    ∃ t, exec (.rampOutComplete c) s = .next t ∧ t.sstate c = 7 ∧ t.biti JOIN_CELL_STATUS_n.HOLD c = true ∧
      t.rdi HGS_CELL_STATE_n.WEIGHT c = 0 ∧ (t.cell c).svc.spillTicks = some 0 ∧ s.hst.seqNo < t.hst.seqNo)

/-- R439, R440, R445, R446, R455, R456: the check value over the set as it stands; a confirmation equal to it in COMMISSIONING
is taken and any other is refused; a write of CRC_CFG loads the initial value, one of CRC_DATA feeds its bytes, one of
CRC_SEED restores a value, each with the result after the final XOR. -/
def Obligations.CheckValueAndCrcCommands : Prop :=
  (∀ (s : State), s.pwr.mainOn = true → s.bit SAFE_STATUS.CV_BUSY = true →
    ∃ t, exec .safeCvDone s = .next t ∧ t.rd SAFE_CV.CV = s.safeCv % 2 ^ 32 ∧ t.rd SAFE_STATUS.CV_BUSY = 0 ∧
      t.rd SAFE_STATUS.CONFIRMED = s.rd SAFE_STATUS.CONFIRMED ∧ t.rd SAFE_CONFIRM.SAFETY_CONFIRM = s.rd SAFE_CONFIRM.SAFETY_CONFIRM) ∧
  (∀ (s : State) (v : Nat) (ag : Agent), s.pwr.mainOn = true → s.commissioning = true → v % 2 ^ 32 = s.rd SAFE_CV.CV →
      s.rd SAFE_STATUS.CV_BUSY = 0 →
    ∃ t, exec (.safeConfirmWrite v ag) s = .next t ∧ t.rd SAFE_CONFIRM.SAFETY_CONFIRM = v % 2 ^ 32 ∧ t.rd SAFE_STATUS.CONFIRMED = 1 ∧
      t.rd SAFE_STATUS.CV_ERR = 0 ∧ t.rd SAFE_NET_STATUS.CFG_ERR = s.rd SAFE_NET_STATUS.CFG_ERR ∧ t.pwr.flash ≠ s.pwr.flash) ∧
  (∀ (s : State) (v : Nat) (ag : Agent), s.pwr.mainOn = true → s.commissioning = true →
      ¬(v % 2 ^ 32 = s.rd SAFE_CV.CV ∧ s.rd SAFE_STATUS.CV_BUSY = 0) →
    ∃ t, exec (.safeConfirmWrite v ag) s = .next t ∧ t.rd SAFE_NET_STATUS.CFG_ERR = 1 ∧
      t.rd SAFE_CONFIRM.SAFETY_CONFIRM = s.rd SAFE_CONFIRM.SAFETY_CONFIRM ∧ t.rd SAFE_STATUS.CONFIRMED = s.rd SAFE_STATUS.CONFIRMED ∧ t.pwr = s.pwr) ∧
  (∀ (s : State) (v : Nat), s.pwr.mainOn = true →
    ∃ t, exec (.crcCfgWrite v) s = .next t ∧ t.rd CRC_CFG.POLY = v % 4 ∧ t.rd CRC_SEED.SEED = crcInit (v % 4) ∧
      t.rd CRC_RESULT.RESULT = Nat.xor (crcInit (v % 4)) (crcXor (v % 4))) ∧
  (∀ (s : State) (z : Fin 3) (v : Nat), s.pwr.mainOn = true →
    ∃ t, exec (.crcDataWrite z v) s = .next t ∧
      t.rd CRC_SEED.SEED = crcFeedAll (s.rd CRC_CFG.POLY) ((List.range (2 ^ z.val)).map (fun i => bits v (8 * i) 8)) (s.rd CRC_SEED.SEED) % 2 ^ 32 ∧
      t.rd CRC_RESULT.RESULT = Nat.xor (crcFeedAll (s.rd CRC_CFG.POLY) ((List.range (2 ^ z.val)).map (fun i => bits v (8 * i) 8)) (s.rd CRC_SEED.SEED))
        (crcXor (s.rd CRC_CFG.POLY)) % 2 ^ 32 ∧ t.rd CRC_CFG.POLY = s.rd CRC_CFG.POLY) ∧
  (∀ (s : State) (v : Nat), s.pwr.mainOn = true →
    ∃ t, exec (.crcSeedWrite v) s = .next t ∧ t.rd CRC_SEED.SEED = v % 2 ^ crcWidth (s.rd CRC_CFG.POLY) % 2 ^ 32 ∧
      t.rd CRC_RESULT.RESULT = Nat.xor (v % 2 ^ crcWidth (s.rd CRC_CFG.POLY)) (crcXor (s.rd CRC_CFG.POLY)) % 2 ^ 32 ∧
      t.rd CRC_CFG.POLY = s.rd CRC_CFG.POLY)

/-- R26, R42, R44: the shed level is clamped and falls, deferred diagnostics are flagged, a waiting period takes effect. -/
def Obligations.ShedAndPeriodChangesApply : Prop :=
  (∀ s : State, s.pwr.mainOn = true → s.boundaryDue CLK_SHED_CFG.MAX_LEVEL.base = true → s.tm.shedClamp = true →
      s.rd CLK_SHED_CFG.MAX_LEVEL < s.rd CLK_TICK_STATUS.SHED_LEVEL → s.rd CLK_TICK_STATUS.SHED_LEVEL ≤ 4 →
    ∃ t, exec .shedLevelClamp s = .next t ∧ t.rd CLK_TICK_STATUS.SHED_LEVEL = s.rd CLK_SHED_CFG.MAX_LEVEL ∧ t.tm.shedClamp = false) ∧
  (∀ (s : State) (c e : Nat), s.pwr.mainOn = true → s.tm.shedCalm = some c → 0 < s.rd CLK_TICK_STATUS.SHED_LEVEL →
      s.rd CLK_TICK_STATUS.SHED_LEVEL ≤ 4 → c + 100000000 ≤ (s.moveTo e).tm.e →
    ∃ t, exec (.shedLevelFall e) s = .next t ∧ t.rd CLK_TICK_STATUS.SHED_LEVEL + 1 = s.rd CLK_TICK_STATUS.SHED_LEVEL ∧
      t.tm.shedCalm = some (s.moveTo e).tm.e) ∧
  (∀ (s : State) (e : Nat), s.pwr.mainOn = true → 60000000000 < (s.moveTo e).diagSuspended →
      s.rd CLK_TICK_STATUS.DIAG_DEFERRED = 0 →
    ∃ t, exec (.diagDeferred e) s = .next t ∧ t.rd CLK_TICK_STATUS.DIAG_DEFERRED = 1) ∧
  (∀ (s : State) (h e : Nat), s.pwr.mainOn = true → s.tm.run = true → s.tm.phase = 0 → (s.moveTo e).tm.e = s.tm.start →
      s.tm.newHalf = some h → (s.moveTo e).stime % ((h * 500 : Nat) : Int) = 0 → (s.moveTo e).stime % (s.period : Int) = 0 →
    ∃ t, exec (.periodChange e) s = .next t ∧ t.tm.half = h ∧ t.tm.newHalf = none ∧
      t.tm.n = (s.moveTo e).stime / ((h * 500 : Nat) : Int) ∧ t.rd CLK_TICK_STATUS.PERIOD_PEND = 0)

/-- R401, R405 to R408, R506: a clear removes the latch bits written 1, but a bit whose source is active stays; a comparator
still active when its blanking window closes acts at once; a short circuit of a local drive sets its leg and puts the
channel in FAULT, and what it detects after that while the soft turn-off runs is shown in LEGS alone (log entry 125); the legs
clear from 10 ms after the soft turn-off; a release waits behind the descriptors of its ring that wait for their tick, and is
then held for the frames that carry it or refused with the lowest failing check. -/
def Obligations.SluiceLatchesAndDrives : Prop :=
  (∀ (s : State) (v e : Nat), s.pwr.mainOn = true →
    ∃ t, exec (.slcLatchClear v e) s = .next t ∧
      (∀ f ∈ latchFields, t.rd f = (s.rd f - (s.rd f &&& bits v f.lo f.w) ||| (s.rd f &&& bits v f.lo f.w &&& (s.moveTo e).sourceActive f)) % 2 ^ f.w) ∧
      t.rd SLC_BLOCK_STATUS.SCOPE = s.rd SLC_BLOCK_STATUS.SCOPE ∧ t.rd SLC_FIRST.HOST = s.rd SLC_FIRST.HOST ∧ t.cells = s.cells) ∧
  (∀ (s : State) (n : Fin 16) (e : Nat), s.pwr.mainOn = true → tget (fun _ => 0) s.slc.blankEnd n ≠ 0 → (s.moveTo e).blanked n = false →
    ∃ t, exec (.blankWindowClose n e) s = .next t ∧
      (bitOf s.slc.live n = false → t.regs = s.regs ∧ tget (fun _ => 0) t.slc.blankEnd n = 0) ∧
      (bitOf s.slc.live n = true → 1 ≤ s.rdi SLC_CMP_ROUTE_n.ACTION n → s.rdi SLC_CMP_ROUTE_n.PHASE n ≤ 2 →
        s.rd SLC_BLOCK_STATUS.PHASES < 8 → bitOf (t.rd SLC_TRIP_LATCH.CMP) n = true)) ∧
  (∀ (s : State) (leg : Fin 3) (amps slope on e : Nat) (hard soft : Bool), s.rd SLC_DRV_SC_STATUS.LEGS0 < 8 →
      hard = (!s.biti SLC_DRV_SC_CFG_m.MODE 0 && decide (2 * s.rdi SLC_DRV_SC_CFG_m.SC_LVL 0 ≤ amps)) →
      soft = (decide (on + s.rdi SLC_DRV_SC_CFG_m.BLANK 0 * 10 ≤ (s.moveTo e).tm.e) &&
        (if s.biti SLC_DRV_SC_CFG_m.MODE 0 then decide (s.rdi SLC_DRV_SC_CFG_m.DIDT_LVL 0 ≤ slope)
         else decide (s.rdi SLC_DRV_SC_CFG_m.SC_LVL 0 ≤ amps))) →
    ∃ t, exec (.driveShort 0 leg ⟨amps, slope, on⟩ e) s = .next t ∧ (hard = false → soft = false → t = s.moveTo e) ∧
      (hard = true ∨ soft = true → t.rd SLC_DRV_SC_STATUS.LEGS0 = setBit (s.rd SLC_DRV_SC_STATUS.LEGS0) leg ∧
        t.rd SLC_DRV_SC_STATUS.LEGS1 = s.rd SLC_DRV_SC_STATUS.LEGS1 ∧
        ((s.moveTo e).tm.e < s.slc.softEnd.getD 0 0 ∧ s.rd SLC_DRV_SC_STATUS.LEGS0 ≠ 0 ∧
            (bitOf (s.rd SLC_DRV_SC_STATUS.LEGS0) leg = true ∨ s.bit SLC_DRV_SC_STATUS.BOTH0 = true) →
          t.rd SLC_DRV_SC_STATUS.HARD0 = s.rd SLC_DRV_SC_STATUS.HARD0 ∧ t.out = s.out ∧ t.hst = s.hst) ∧
        (¬((s.moveTo e).tm.e < s.slc.softEnd.getD 0 0 ∧ s.rd SLC_DRV_SC_STATUS.LEGS0 ≠ 0 ∧
            (bitOf (s.rd SLC_DRV_SC_STATUS.LEGS0) leg = true ∨ s.bit SLC_DRV_SC_STATUS.BOTH0 = true)) →
          t.rd SLC_DRV_SC_STATUS.HARD0 = b2n hard ∧ t.astate 0 = 6 ∧ Out.driveSoft 0 leg ∈ t.out))) ∧
  (∀ (s : State) (leg : Fin 3) (amps slope on e : Nat) (hard soft : Bool), s.rd SLC_DRV_SC_STATUS.LEGS1 < 8 →
      hard = (!s.biti SLC_DRV_SC_CFG_m.MODE 1 && decide (2 * s.rdi SLC_DRV_SC_CFG_m.SC_LVL 1 ≤ amps)) →
      soft = (decide (on + s.rdi SLC_DRV_SC_CFG_m.BLANK 1 * 10 ≤ (s.moveTo e).tm.e) &&
        (if s.biti SLC_DRV_SC_CFG_m.MODE 1 then decide (s.rdi SLC_DRV_SC_CFG_m.DIDT_LVL 1 ≤ slope)
         else decide (s.rdi SLC_DRV_SC_CFG_m.SC_LVL 1 ≤ amps))) →
    ∃ t, exec (.driveShort 1 leg ⟨amps, slope, on⟩ e) s = .next t ∧ (hard = false → soft = false → t = s.moveTo e) ∧
      (hard = true ∨ soft = true → t.rd SLC_DRV_SC_STATUS.LEGS1 = setBit (s.rd SLC_DRV_SC_STATUS.LEGS1) leg ∧
        t.rd SLC_DRV_SC_STATUS.LEGS0 = s.rd SLC_DRV_SC_STATUS.LEGS0 ∧
        ((s.moveTo e).tm.e < s.slc.softEnd.getD 1 0 ∧ s.rd SLC_DRV_SC_STATUS.LEGS1 ≠ 0 ∧
            (bitOf (s.rd SLC_DRV_SC_STATUS.LEGS1) leg = true ∨ s.bit SLC_DRV_SC_STATUS.BOTH1 = true) →
          t.rd SLC_DRV_SC_STATUS.HARD1 = s.rd SLC_DRV_SC_STATUS.HARD1 ∧ t.out = s.out ∧ t.hst = s.hst) ∧
        (¬((s.moveTo e).tm.e < s.slc.softEnd.getD 1 0 ∧ s.rd SLC_DRV_SC_STATUS.LEGS1 ≠ 0 ∧
            (bitOf (s.rd SLC_DRV_SC_STATUS.LEGS1) leg = true ∨ s.bit SLC_DRV_SC_STATUS.BOTH1 = true)) →
          t.rd SLC_DRV_SC_STATUS.HARD1 = b2n hard ∧ t.astate 1 = 6 ∧ Out.driveSoft 1 leg ∈ t.out))) ∧
  (∀ (s : State) (v e : Nat), s.pwr.mainOn = true →
    ∃ t, exec (.driveScClear v e) s = .next t ∧
      t.rd SLC_DRV_SC_STATUS.LEGS0 = (if bits v SLC_DRV_SC_STATUS.LEGS0.lo 3 ≠ 0 ∧ s.slc.softEnd.getD 0 0 + 10000000 ≤ (s.moveTo e).tm.e then
        (s.rd SLC_DRV_SC_STATUS.LEGS0 - (s.rd SLC_DRV_SC_STATUS.LEGS0 &&& bits v SLC_DRV_SC_STATUS.LEGS0.lo 3)) % 8 else s.rd SLC_DRV_SC_STATUS.LEGS0) ∧
      t.rd SLC_DRV_SC_STATUS.LEGS1 = (if bits v SLC_DRV_SC_STATUS.LEGS1.lo 3 ≠ 0 ∧ s.slc.softEnd.getD 1 0 + 10000000 ≤ (s.moveTo e).tm.e then
        (s.rd SLC_DRV_SC_STATUS.LEGS1 - (s.rd SLC_DRV_SC_STATUS.LEGS1 &&& bits v SLC_DRV_SC_STATUS.LEGS1.lo 3)) % 8 else s.rd SLC_DRV_SC_STATUS.LEGS1) ∧
      t.rd SLC_DRV_SC_STATUS.BOTH0 = (if bits v SLC_DRV_SC_STATUS.BOTH0.lo 1 = 1 then 0 else s.rd SLC_DRV_SC_STATUS.BOTH0) ∧
      t.rd SLC_DRV_SC_STATUS.BOTH1 = (if bits v SLC_DRV_SC_STATUS.BOTH1.lo 1 = 1 then 0 else s.rd SLC_DRV_SC_STATUS.BOTH1)) ∧
  (∀ (s u : State) (h : DescHdr) (d : Desc) (e : Nat), s.pwr.mainOn = true → (s.moveTo e).startDesc h 0x02 = .go d u →
      s.rdi RING_CFG_n.TYPE h.ring = 0 → s.ringWaits h.ring = true →
    ∃ t, exec (.converterRelease h e) s = .next t ∧ t.hst.waits = s.hst.waits ++ [.release d] ∧ t.slc.release = s.slc.release ∧
      t.hst.comps = s.hst.comps) ∧
  (∀ (s u : State) (h : DescHdr) (d : Desc) (e : Nat), s.pwr.mainOn = true → (s.moveTo e).startDesc h 0x02 = .go d u →
      s.rdi RING_CFG_n.TYPE h.ring = 0 → s.ringWaits h.ring = false → u.releaseChecks = 0 →
    ∃ t, exec (.converterRelease h e) s = .next t ∧ t.slc.release = s.slc.release ++ [d] ∧
      t.rd SLC_BLOCK_STATUS.SCOPE = s.rd SLC_BLOCK_STATUS.SCOPE ∧ t.cells = s.cells ∧ t.hst.comps = s.hst.comps) ∧
  (∀ (s u : State) (h : DescHdr) (d : Desc) (e : Nat), s.pwr.mainOn = true → (s.moveTo e).startDesc h 0x02 = .go d u →
      s.rdi RING_CFG_n.TYPE h.ring = 0 → s.ringWaits h.ring = false → u.releaseChecks ≠ 0 →
    ∃ t, exec (.converterRelease h e) s = .next t ∧ t.slc.release = s.slc.release ∧ s.hst.seqNo < t.hst.seqNo ∧
      ∃ x ∈ t.hst.comps, x.status = 2 ∧ x.detail = lowBit u.releaseChecks ∧ x.tag = h.tag)

/-- R458, R461, R464, R471 to R475: what an uncorrectable error fences in TRIPLEX, holds at the third time within an hour
and does in DUPLEX; what a sweep that differs does; how the rebuild goes through its steps and rejoins; what a trap
abandons; and how the RESET entry ends. -/
def Obligations.TriadFaultCommands : Prop :=
  (∀ (s : State) (m : Member) (a e : Nat), s.pwr.mainOn = true → s.rd TRI_STATUS.MODE = 1 →
      ((s.tri.fences.getD (memberNum m) []).filter (fun t => decide ((s.moveTo e).tm.e < t + 3600000000000))).length < 2 →
    ∃ t, exec (.tcmEccError m a e) s = .next t ∧ t.rd TRI_STATUS.MODE = 2 ∧ t.rd TRI_STATUS.FENCED = memberNum m ∧
      t.rd TRI_STATUS.RSTEP = 1 ∧ t.rd TRI_STATUS.FENCE_COUNT = min 255 (s.rd TRI_STATUS.FENCE_COUNT + 1) ∧
      t.rd TRI_MISMATCH_LOG.MEMBER = memberNum m ∧ t.rd TRI_MISMATCH_LOG.KIND = 2 ∧ t.rd TRI_MISMATCH_LOG.ADDR = a % 2 ^ 24 ∧
      t.rd TRI_STATUS.HELD = s.rd TRI_STATUS.HELD ∧ t.rd SLC_BLOCK_STATUS.SCOPE = s.rd SLC_BLOCK_STATUS.SCOPE) ∧
  (∀ (s : State) (m : Member) (a e : Nat), s.pwr.mainOn = true → s.rd TRI_STATUS.MODE = 1 →
      2 ≤ ((s.tri.fences.getD (memberNum m) []).filter (fun t => decide ((s.moveTo e).tm.e < t + 3600000000000))).length →
    ∃ t, exec (.tcmEccError m a e) s = .next t ∧ t.rd TRI_STATUS.MODE = 3 ∧ t.rd TRI_STATUS.FENCED = 3 ∧ t.rd TRI_STATUS.RSTEP = 0 ∧
      bitOf (t.rd TRI_STATUS.HELD) (memberNum m) = true) ∧
  (∀ (s : State) (m : Member) (a e : Nat), s.pwr.mainOn = true → s.rd TRI_STATUS.MODE = 2 ∨ s.rd TRI_STATUS.MODE = 3 →
      s.running (memberNum m) = true → s.rd SLC_BLOCK_STATUS.PHASES < 8 →
    ∃ t, exec (.tcmEccError m a e) s = .next t ∧ t.rd TRI_MISMATCH_LOG.MEMBER = 3 ∧ t.rd TRI_MISMATCH_LOG.KIND = 2 ∧
      t.rd SLC_TRIP_LATCH.TRIAD = 1 ∧ t.rd SLC_BLOCK_STATUS.SCOPE = 3 ∧ t.rd SLC_BLOCK_STATUS.PHASES = 7 ∧
      t.rd TRI_STATUS.MODE = s.rd TRI_STATUS.MODE) ∧
  (∀ (s : State) (e : Nat), s.pwr.mainOn = true → ∃ t, exec (.scrubSweep none e) s = .next t ∧ t.regs = s.regs ∧ t.tri = s.tri) ∧
  (∀ (s : State) (m : Member) (a e : Nat), s.pwr.mainOn = true → s.rd TRI_STATUS.MODE = 1 → s.bit TRI_CFG.SCRUB_EN = true →
      ((s.tri.fences.getD (memberNum m) []).filter (fun t => decide ((s.moveTo e).tm.e < t + 3600000000000))).length < 2 →
    ∃ t, exec (.scrubSweep (some (m, a)) e) s = .next t ∧ t.rd TRI_STATUS.SCRUB_DIFF = min 255 (s.rd TRI_STATUS.SCRUB_DIFF + 1) ∧
      t.rd TRI_STATUS.MODE = 2 ∧ t.rd TRI_STATUS.FENCED = memberNum m ∧ t.rd TRI_MISMATCH_LOG.KIND = 3) ∧
  (∀ (s : State) (e : Nat), s.pwr.mainOn = true → s.rd TRI_STATUS.MODE = 2 → s.rd TRI_STATUS.RSTEP = 1 →
      s.tri.stepAt + 10000 ≤ (s.moveTo e).tm.e →
    ∃ t, exec (.rebuildResetDone e) s = .next t ∧ t.rd TRI_STATUS.RSTEP = 2 ∧ t.tri.stepAt = (s.moveTo e).tm.e) ∧
  (∀ (s : State) (e : Nat), s.pwr.mainOn = true → s.rd TRI_STATUS.MODE = 2 → s.rd TRI_STATUS.RSTEP = 2 →
      s.tri.stepAt + 327680 ≤ (s.moveTo e).tm.e →
    ∃ t, exec (.rebuildCopyDone e) s = .next t ∧ t.rd TRI_STATUS.RSTEP = 3 ∧ t.tri.stepAt = (s.moveTo e).tm.e) ∧
  (∀ (s : State) (e : Nat), s.pwr.mainOn = true → s.rd TRI_STATUS.MODE = 2 → s.rd TRI_STATUS.RSTEP = 3 →
      s.tri.stepAt + 327680 ≤ (s.moveTo e).tm.e →
    (∃ t, exec (.rebuildVerifyDone none e) s = .next t ∧ t.rd TRI_STATUS.RSTEP = 4 ∧ t.rd TRI_STATUS.MODE = 2) ∧
    (∀ a, s.rd TRI_STATUS.FENCED < 3 → ∃ t, exec (.rebuildVerifyDone (some a) e) s = .next t ∧ t.rd TRI_STATUS.MODE = 3 ∧
      bitOf (t.rd TRI_STATUS.HELD) (s.rd TRI_STATUS.FENCED) = true ∧ t.rd TRI_MISMATCH_LOG.KIND = 4)) ∧
  (∀ (s : State) (e : Nat), s.pwr.mainOn = true → s.rd TRI_STATUS.MODE = 2 → s.rd TRI_STATUS.RSTEP = 4 → s.rd TRI_STATUS.DBG_HALT = 0 →
      s.tm.run = true → s.tm.phase = 6 → s.pwr.sleepPend = false → s.tm.n < (s.moveTo e).stime / (s.period : Int) →
    ∃ t, exec (.tickBoundary e) s = .next t ∧ t.rd TRI_STATUS.RSTEP = 5 ∧ t.rd TRI_STATUS.MODE = 2 ∧ t.tri.stepAt = t.tm.start) ∧
  (∀ (s : State), s.pwr.mainOn = true → s.rd TRI_STATUS.MODE = 2 → s.rd TRI_STATUS.RSTEP = 5 → s.tm.phase = 0 →
    ∃ t, exec .rebuildRejoin s = .next t ∧ t.rd TRI_STATUS.MODE = 1 ∧ t.rd TRI_STATUS.FENCED = 3 ∧ t.rd TRI_STATUS.RSTEP = 0 ∧
      t.rd TRI_RESYNC_TIME.LAST = (s.tri.stepAt - s.tri.fencedAt) / 1000 % 2 ^ 16 ∧ s.hst.seqNo < t.hst.seqNo) ∧
  (∀ (s : State) (pc cause : Nat), s.pwr.mainOn = true →
    (∃ t, exec (.trap .background pc cause) s = .next t ∧ t.tri.backBank.pc = imgWord s.activeImage 20 ∧ t.tri.backBank.g.head? = some 0 ∧
      t.law = s.law ∧ t.tri.tickBank = s.tri.tickBank ∧ s.hst.seqNo < t.hst.seqNo) ∧
    (s.tm.s1run = true → ∃ t, exec (.trap .tick pc cause) s = .next t ∧ t.law = t.lawC ∧ t.tri.tb = [] ∧
      t.tri.region = s.tri.regionC ∧ t.tm.abandoned = true ∧
      t.rd CLK_TICK_STATUS.LATE_STAGE = 1 ∧ s.hst.seqNo < t.hst.seqNo)) ∧
  (∀ (s : State), s.pwr.mainOn = true → s.tri.imageOk = true →
    ∃ t, exec .tready s = .next t ∧ t.pwr.tready = true ∧ t.pwr.restart = false ∧ t.regs = s.regs)

/-- WRITE_COMMIT and TRI_RESTART (R468 to R471, R475, R476): a write on which the running members agree leaves at once from
BACKGROUND, and from any entry to SLC_CTRL, and waits for tend from TICK, the 513th with a trap; a misaligned one, one of BACKGROUND
or RESET to the tick-state region and one to the program with PM_WRITE 0 trap (R459, R463, R465); a single member that writes differently is fenced; a
disagreement with no majority, or of two members, latches TRIAD in the safe state; nothing commits while the entry does
not run or in BOOT and FAILED; a restart is refused below a converter block and holds the stage at B2 otherwise. -/
def Obligations.WriteCommitAndRestart : Prop :=
  (∀ (s : State) (off be v e : Nat), s.pwr.mainOn = true → (s.moveTo e).entryRuns .background = true → s.rd TRI_STATUS.MODE = 1 → off < 0x1000000 →
      off % 4 = 0 → laneOk be = true →
    ∃ t, exec (.writeCommit .background (some ⟨0x40000000 + off, v, be⟩) (some ⟨0x40000000 + off, v, be⟩) (some ⟨0x40000000 + off, v, be⟩) e) s = .next t ∧
      t = (s.moveTo e).regWrite .firmware off be v) ∧
  (∀ (s : State) (off be v e : Nat), s.pwr.mainOn = true → (s.moveTo e).entryRuns .tick = true → s.rd TRI_STATUS.MODE = 1 → off < 0x1000000 →
      off ≠ SLC_CTRL.STOP.base → off % 4 = 0 → laneOk be = true → s.tri.tbN < 512 →
    ∃ t, exec (.writeCommit .tick (some ⟨0x40000000 + off, v, be⟩) (some ⟨0x40000000 + off, v, be⟩) (some ⟨0x40000000 + off, v, be⟩) e) s = .next t ∧
      t.tri.tb = s.tri.tb ++ [.reg off v be] ∧ t.tri.tbN = s.tri.tbN + 1 ∧ t.regs = s.regs) ∧
  (∀ (s : State) (en : Entry) (c : PortWrite) (e : Nat), s.pwr.mainOn = true → (s.moveTo e).entryRuns en = true → s.rd TRI_STATUS.MODE = 1 →
      ((s.tri.fences.getD 2 []).filter (fun t => decide ((s.moveTo e).tm.e < t + 3600000000000))).length < 2 →
    ∃ t, exec (.writeCommit en none none (some c) e) s = .next t ∧ t.rd TRI_STATUS.MODE = 2 ∧ t.rd TRI_STATUS.FENCED = 2 ∧
      t.rd TRI_MISMATCH_LOG.KIND = 0 ∧ t.rd TRI_MISMATCH_LOG.ADDR = c.addr % 2 ^ 24) ∧
  (∀ (s : State) (en : Entry) (w : PortWrite) (e : Nat), s.pwr.mainOn = true → (s.moveTo e).entryRuns en = true → s.rd TRI_STATUS.MODE = 1 →
    (w.addr % 4 ≠ 0 ∨ laneOk w.be = false →
      exec (.writeCommit en (some w) (some w) (some w) e) s = .next ((s.moveTo e).trapNow en)) ∧
    (w.addr % 4 = 0 → laneOk w.be = true → inRam w.addr = true →
      exec (.writeCommit en (some w) (some w) (some w) e) s = .next ((s.moveTo e).storeRam w.addr w.be (w.data % 2 ^ 32))) ∧
    (w.addr % 4 = 0 → laneOk w.be = true → inRegion w.addr = true →
      exec (.writeCommit en (some w) (some w) (some w) e) s = .next (if en = .tick ∨ en = .migrate then
        (s.moveTo e).storeRegion w.addr w.be (w.data % 2 ^ 32) else (s.moveTo e).trapNow en)) ∧
    (w.addr % 4 = 0 → laneOk w.be = true → inBank w.addr = true →
      exec (.writeCommit en (some w) (some w) (some w) e) s = .next (if s.bit TRI_CFG.PM_WRITE then
        (s.moveTo e).storeBank w.addr w.be (w.data % 2 ^ 32) else (s.moveTo e).trapNow en))) ∧
  (∀ (s : State) (off be v e : Nat), s.pwr.mainOn = true → (s.moveTo e).entryRuns .tick = true → s.rd TRI_STATUS.MODE = 1 → off < 0x1000000 →
      off ≠ SLC_CTRL.STOP.base → off % 4 = 0 → laneOk be = true → 512 ≤ s.tri.tbN →
    exec (.writeCommit .tick (some ⟨0x40000000 + off, v, be⟩) (some ⟨0x40000000 + off, v, be⟩) (some ⟨0x40000000 + off, v, be⟩) e) s =
      .next ((s.moveTo e).trapNow .tick)) ∧
  (∀ (s : State) (en : Entry) (be v e : Nat), s.pwr.mainOn = true → (s.moveTo e).entryRuns en = true → s.rd TRI_STATUS.MODE = 1 →
      laneOk be = true →
    ∃ t, exec (.writeCommit en (some ⟨0x40000000 + SLC_CTRL.STOP.base, v, be⟩) (some ⟨0x40000000 + SLC_CTRL.STOP.base, v, be⟩)
        (some ⟨0x40000000 + SLC_CTRL.STOP.base, v, be⟩) e) s = .next t ∧ t = (s.moveTo e).regWrite .firmware SLC_CTRL.STOP.base be v) ∧
  (∀ (s : State) (en : Entry) (x y : PortWrite) (e : Nat), s.pwr.mainOn = true → (s.moveTo e).entryRuns en = true → s.rd TRI_STATUS.MODE = 1 →
      x ≠ y → s.rd SLC_BLOCK_STATUS.PHASES < 8 →
    ∃ t, exec (.writeCommit en (some x) (some y) none e) s = .next t ∧ t.rd SLC_TRIP_LATCH.TRIAD = 1 ∧ t.rd SLC_BLOCK_STATUS.SCOPE = 3 ∧
      t.rd TRI_MISMATCH_LOG.MEMBER = 3 ∧ t.rd TRI_MISMATCH_LOG.KIND = 0) ∧
  (∀ (s : State) (en : Entry) (x : PortWrite) (e : Nat), s.pwr.mainOn = true → (s.moveTo e).entryRuns en = true →
      s.rd TRI_STATUS.MODE = 2 ∨ s.rd TRI_STATUS.MODE = 3 → s.running 0 = false → s.rd SLC_BLOCK_STATUS.PHASES < 8 →
    ∃ t, exec (.writeCommit en none (some x) none e) s = .next t ∧ t.rd SLC_TRIP_LATCH.TRIAD = 1 ∧ t.rd SLC_BLOCK_STATUS.SCOPE = 3 ∧
      t.rd TRI_MISMATCH_LOG.MEMBER = 3 ∧ t.rd TRI_MISMATCH_LOG.ADDR = x.addr % 2 ^ 24) ∧
  (∀ (s : State) (en : Entry) (a b c : Option PortWrite) (e : Nat), s.pwr.mainOn = true →
      (s.moveTo e).entryRuns en = false ∨ s.rd TRI_STATUS.MODE = 0 ∨ s.rd TRI_STATUS.MODE = 4 →
    exec (.writeCommit en a b c e) s = .next (s.moveTo e)) ∧
  (∀ (s : State) (e : Nat), s.pwr.mainOn = true → s.rd SLC_BLOCK_STATUS.SCOPE < 2 →
    ∃ t, exec (.triRestart e) s = .next t ∧ t.tri = s.tri ∧ t.pwr = s.pwr ∧ s.hst.seqNo < t.hst.seqNo) ∧
  (∀ (s : State) (e : Nat), s.pwr.mainOn = true → 2 ≤ s.rd SLC_BLOCK_STATUS.SCOPE → 2 ≤ s.stage →
    ∃ t, exec (.triRestart e) s = .next t ∧ t.pwr.restart = true ∧ t.tri.swapDesc = [] ∧ t.slc.release = [] ∧ t.stage = 2 ∧
      t.rd SLC_BLOCK_STATUS.SCOPE = s.rd SLC_BLOCK_STATUS.SCOPE)

/-- DEBUG_HALT, DEBUG_BREAKPOINT, DEBUG_RESUME, DEBUG_SINGLE_STEP and DEBUG_WRITE (R412, R465, R478, R479): in PROVISIONED and
COMMISSIONING a halt and a breakpoint stop every member, and in the other states do nothing; a resume ends the halt with the
overrun count at 0; a single step of a halted triad changes the core registers alone (what the instruction writes is a
WRITE_COMMIT); a write goes to memory and the core registers in every member, or to a register with the debugger as agent. -/
def Obligations.DebugAccessCommands : Prop :=
  (∀ (s : State) (i : Instr), i = .debugHalt ∨ i = .debugBreakpoint → s.pwr.mainOn = true →
    (s.rd LC_STATE.STATE = 1 ∨ s.rd LC_STATE.STATE = 2 → s.bit TRI_STATUS.DBG_HALT = false →
      ∃ t, exec i s = .next t ∧ t.rd TRI_STATUS.DBG_HALT = 1 ∧ t.rd SLC_BLOCK_STATUS.DBG_HALT = 1 ∧ t.tri.haltTicks = 0 ∧
        t.tri.dropTick = (s.tri.dropTick || s.tm.s1run) ∧ t.rd FRT_STATUS.ENTER_OK = 0) ∧
    (¬(s.rd LC_STATE.STATE = 1 ∨ s.rd LC_STATE.STATE = 2) ∨ s.bit TRI_STATUS.DBG_HALT = true → exec i s = .next s)) ∧
  (∀ (s : State), s.pwr.mainOn = true →
    (s.bit TRI_STATUS.DBG_HALT = true →
      ∃ t, exec .debugResume s = .next t ∧ t.rd TRI_STATUS.DBG_HALT = 0 ∧ t.rd SLC_BLOCK_STATUS.DBG_HALT = 0 ∧ t.rd CLK_TICK_STATUS.OVR_CONSEC = 0 ∧
        t.rd SLC_BLOCK_STATUS.SCOPE = s.rd SLC_BLOCK_STATUS.SCOPE) ∧
    (s.bit TRI_STATUS.DBG_HALT = false → exec .debugResume s = .next s)) ∧
  (∀ (s : State), (s.pwr.mainOn = true → s.debugOpen = true → s.bit TRI_STATUS.DBG_HALT = true →
      ∃ t, exec .debugSingleStep s = .next t ∧ t.regs = s.regs ∧ t.tm = s.tm ∧ t.law = s.law ∧ t.hst = s.hst ∧ t.out = s.out ∧
        t.tri = { s.tri with tickBank := t.tri.tickBank, backBank := t.tri.backBank }) ∧
    (¬(s.pwr.mainOn = true ∧ s.debugOpen = true ∧ s.bit TRI_STATUS.DBG_HALT = true) → exec .debugSingleStep s = .next s)) ∧
  (∀ (s : State) (off v be e : Nat), s.pwr.mainOn = true → s.debugOpen = true → s.running (s.rd TRI_CFG.LEAD) = true → off % 4 = 0 →
      off < 0x1000000 →
    exec (.debugWrite ⟨0x40000000 + off, v, be⟩ e) s = .next ((s.moveTo e).regWrite .debugger off be v)) ∧
  (∀ (s : State) (w : PortWrite) (e : Nat), s.pwr.mainOn = true →
      s.debugOpen = false ∨ s.running (s.rd TRI_CFG.LEAD) = false ∨ w.addr % 4 ≠ 0 →
    exec (.debugWrite w e) s = .next (s.moveTo e)) ∧
  (∀ (s : State) (a v be e : Nat), s.pwr.mainOn = true → s.debugOpen = true → s.running (s.rd TRI_CFG.LEAD) = true → a % 4 = 0 →
      inRam a = true →
    ∃ t, exec (.debugWrite ⟨a, v, be⟩ e) s = .next t ∧ t.regs = s.regs ∧ t.tri.bank0 = s.tri.bank0 ∧ t.tri.bank1 = s.tri.bank1 ∧
      (∀ i, i < 4 → tget (fun _ => 0) t.tri.ram (a + i) =
        if bitOf be i then BitVec.ofNat 8 (bits v (8 * i) 8) else tget (fun _ => 0) s.tri.ram (a + i)) ∧
      ∀ j, j < a ∨ a + 4 ≤ j → tget (fun _ => 0) t.tri.ram j = tget (fun _ => 0) s.tri.ram j) ∧
  (∀ (s : State) (a v be e : Nat), s.pwr.mainOn = true → s.debugOpen = true → s.running (s.rd TRI_CFG.LEAD) = true → a % 4 = 0 →
      inRegion a = true →
    exec (.debugWrite ⟨a, v, be⟩ e) s = .next ((s.moveTo e).storeRegion a be (v % 2 ^ 32))) ∧
  (∀ (s : State) (k v be e : Nat), s.pwr.mainOn = true → s.debugOpen = true → s.running (s.rd TRI_CFG.LEAD) = true → k < 128 →
    ∃ t, exec (.debugWrite ⟨2 ^ 32 + 4 * k, v, be⟩ e) s = .next t ∧ t.regs = s.regs ∧ t.tri.ram = s.tri.ram ∧
      ∀ j, j < 128 → j ≠ k → t.coreReg j = s.coreReg j)

/-- FW_STAGE, FW_SWAP, SWAP_TICK and FW_SWAP_REVERT (R480 to R484, R506): a part outside the bank ends with FIELD_RANGE and
nothing done, the read of one inside begins with STAGING and leaves STAGED, and a part that is in clears STAGED; a swap with nothing staged, while halted or too long for the S1 window is refused with
its RESULT, and waits otherwise; the swap flips the banks with the versions, and the revert flips them back and fails its
descriptors. -/
def Obligations.FirmwareStageAndSwapCommands : Prop :=
  (∀ (s u : State) (h : DescHdr) (d : Desc) (off len a : Nat) (last df : Bool), s.pwr.mainOn = true → s.startDesc h 0x08 = .go d u →
      s.rdi RING_CFG_n.TYPE h.ring = 0 →
    ∃ t, exec (.fwStage h off len last df a) s = .next t ∧
      (131072 < off + len → t.regs = u.regs ∧ ∃ x ∈ t.hst.comps, x.status = 4 ∧ x.tag = h.tag) ∧
      (len = 0 → off ≤ 131072 → last = false → t.rd TRI_FW_STATUS.STAGED = 0 ∧ t.rd TRI_FW_VER_SHADOW.VERSION = 0 ∧
        ∃ x ∈ t.hst.comps, x.status = 0 ∧ x.tag = h.tag) ∧
      (off + len ≤ 131072 → 0 < len → a + len ≤ 2 ^ 30 → s.bit HOST_WALK_ROOT_LO.EN = true → (∀ p ∈ pagesOf a len, u.cached p = none) →
        t.rd TRI_FW_STATUS.STAGING = 1 ∧ t.rd TRI_FW_STATUS.STAGED = s.rd TRI_FW_STATUS.STAGED ∧ ∃ j ∈ t.hst.jobs, j.kind = .fwStage d off len last df a ∧ j.todo = pagesOf a len)) ∧
  (∀ (s u : State) (h : DescHdr) (d : Desc), s.pwr.mainOn = true → s.startDesc h 0x09 = .go d u → s.rdi RING_CFG_n.TYPE h.ring = 0 →
    ∃ t, exec (.fwSwap h) s = .next t ∧
      (s.rd TRI_FW_STATUS.STAGED = 0 ∨ s.bit TRI_STATUS.DBG_HALT = true →
        t.rd TRI_FW_STATUS.RESULT = 5 ∧ ∃ x ∈ t.hst.comps, x.status = 2 ∧ x.tag = h.tag) ∧
      (s.rd TRI_FW_STATUS.STAGED ≠ 0 → s.bit TRI_STATUS.DBG_HALT = false →
        u.s1Window < imgTickCycles u.shadowImage + imgMigrateCycles u.shadowImage →
        t.rd TRI_FW_STATUS.RESULT = 6 ∧ ∃ x ∈ t.hst.comps, x.status = 0x0B ∧ x.tag = h.tag) ∧
      (s.rd TRI_FW_STATUS.STAGED ≠ 0 → s.bit TRI_STATUS.DBG_HALT = false →
        imgTickCycles u.shadowImage + imgMigrateCycles u.shadowImage ≤ u.s1Window →
        t.rd TRI_FW_STATUS.PENDING = 1 ∧ t.tri.swapDesc = s.tri.swapDesc ++ [d])) ∧
  (∀ (s : State), s.pwr.mainOn = true → s.bit TRI_FW_STATUS.PENDING = true → s.rd TRI_STATUS.RSTEP ≠ 4 → s.rd TRI_STATUS.RSTEP ≠ 5 →
      s.rejoined = false → s.boundaryDue TRI_FW_STATUS.PENDING.base = true → s.rd TRI_FW_VER_ACTIVE.VERSION < 2 ^ 32 → s.rd TRI_FW_VER_SHADOW.VERSION < 2 ^ 32 →
    ∃ t, exec .swapTick s = .next t ∧ t.rd TRI_STATUS.ACTIVE_BANK = (1 - s.rd TRI_STATUS.ACTIVE_BANK) % 2 ∧
      t.rd TRI_FW_VER_ACTIVE.VERSION = s.rd TRI_FW_VER_SHADOW.VERSION ∧ t.rd TRI_FW_VER_SHADOW.VERSION = s.rd TRI_FW_VER_ACTIVE.VERSION ∧
      t.rd TRI_FW_STATUS.PENDING = 0 ∧ t.tri.swapTick = true) ∧
  (∀ (s : State), s.pwr.mainOn = true → s.tri.revert = true → s.tm.phase = 0 →
    ∃ t, exec .fwSwapRevert s = .next t ∧ t.rd TRI_STATUS.ACTIVE_BANK = (1 - s.rd TRI_STATUS.ACTIVE_BANK) % 2 ∧
      t.rd TRI_FW_STATUS.RESULT = 4 ∧ t.tri.revert = false ∧ t.tri.swapDesc = [] ∧ s.hst.seqNo < t.hst.seqNo ∧
      ∀ d ∈ s.tri.swapDesc, d.epoch = s.hst.epoch → ∃ x ∈ t.hst.comps, x.status = 0x0A ∧ x.tag = d.tag)

/-- R432, R434 to R436: a frame that is not for the device or is damaged does nothing; what a copy that fails a test, a first
copy, an equal and a different second copy, and the late copy of a message accepted alone do; what a missing copy does; what
the watchdog does; and the status message every PERIOD, in its frame. -/
def Obligations.SafeMessageCommands : Prop :=
  (∀ (s : State) (net : Fin 2) (m : EthFrame) (e : Nat), s.pwr.mainOn = true →
      s.bit SAFE_NET_CFG.EN = false ∨ m.dst ≠ s.macDev ∨ m.etherType ≠ 0x88B5 ∨ m.fcs ≠ ethFcs m →
    exec (.safeMessageRx net m e) s = .next (s.moveTo e)) ∧
  (∀ (s : State) (net : Fin 2) (m : EthFrame) (e : Nat), s.pwr.mainOn = true → s.bit SAFE_NET_CFG.EN = true → m.dst = s.macDev →
      m.etherType = 0x88B5 → m.fcs = ethFcs m → s.pduFits m.pdu = false →
    ∃ t, exec (.safeMessageRx net m e) s = .next t ∧ t.rd SAFE_NET_STATUS.BAD = min 255 (s.rd SAFE_NET_STATUS.BAD + 1) ∧
      t.saf = { s.saf with goodRun := s.saf.goodRun.set net 0 }) ∧
  (∀ (s : State) (net : Fin 2) (m : EthFrame) (e : Nat), s.pwr.mainOn = true → s.bit SAFE_NET_CFG.EN = true → m.dst = s.macDev →
      m.etherType = 0x88B5 → m.fcs = ethFcs m → s.pduFits m.pdu = true →
      s.saf.first = none → m.pdu.seqNo ≠ s.saf.lastSeq → m.pdu.seqNo = (s.saf.lastSeq + 1) % 2 ^ 32 → s.rd SLC_BLOCK_STATUS.PHASES < 8 →
    ∃ t, exec (.safeMessageRx net m e) s = .next t ∧ t.saf.first = some (net.val, (s.moveTo e).tm.e, m.pdu) ∧ t.saf.accepted = s.saf.accepted ∧
      (bitOf m.pdu.flags 0 = true → t.rd SLC_TRIP_LATCH.NET_STOP = 1 ∧ t.rd SLC_BLOCK_STATUS.SCOPE = 3) ∧
      (bitOf m.pdu.flags 0 = false → t.rd SLC_BLOCK_STATUS.SCOPE = s.rd SLC_BLOCK_STATUS.SCOPE)) ∧
  (∀ (s : State) (net : Fin 2) (m : EthFrame) (n0 t0 e : Nat), s.pwr.mainOn = true → s.bit SAFE_NET_CFG.EN = true → m.dst = s.macDev →
      m.etherType = 0x88B5 → m.fcs = ethFcs m → s.pduFits m.pdu = true →
      s.saf.first = some (n0, t0, m.pdu) → n0 ≠ net.val →
    ∃ t, exec (.safeMessageRx net m e) s = .next t ∧ t.saf.first = none ∧ t.saf.accepted = some m.pdu ∧ t.saf.lastSeq = m.pdu.seqNo ∧
      t.saf.acceptedAt = (s.moveTo e).tm.e ∧ t.saf.expired = false ∧ t.sp.safe = some m.pdu ∧
      t.rd SAFE_NET_STATUS.STOP_RX = b2n (bitOf m.pdu.flags 0)) ∧
  (∀ (s : State) (net : Fin 2) (m : EthFrame) (m0 : Pdu) (n0 t0 e : Nat), s.pwr.mainOn = true → s.bit SAFE_NET_CFG.EN = true → m.dst = s.macDev →
      m.etherType = 0x88B5 → m.fcs = ethFcs m → s.pduFits m.pdu = true →
      s.saf.first = some (n0, t0, m0) → n0 ≠ net.val → m.pdu.seqNo = m0.seqNo → m.pdu ≠ m0 → s.rd SLC_BLOCK_STATUS.PHASES < 8 →
    ∃ t, exec (.safeMessageRx net m e) s = .next t ∧ t.saf.first = none ∧ t.saf.accepted = s.saf.accepted ∧
      t.rd SAFE_NET_STATUS.CMP_ERR = 1 ∧ t.rd SLC_TRIP_LATCH.NET_STOP = 1 ∧ t.rd SLC_BLOCK_STATUS.SCOPE = 3) ∧
  (∀ (s : State) (net : Fin 2) (m : EthFrame) (e : Nat), s.pwr.mainOn = true → s.bit SAFE_NET_CFG.EN = true → m.dst = s.macDev →
      m.etherType = 0x88B5 → m.fcs = ethFcs m → s.pduFits m.pdu = true → s.saf.first = none → s.saf.anySeq = false →
      m.pdu.seqNo = s.saf.lastSeq → bitOf s.saf.seen net = false → s.rd SLC_BLOCK_STATUS.PHASES < 8 →
    ∃ t, exec (.safeMessageRx net m e) s = .next t ∧ t.saf.accepted = s.saf.accepted ∧
      (s.saf.accepted = some m.pdu → t.rd SAFE_NET_STATUS.CMP_ERR = s.rd SAFE_NET_STATUS.CMP_ERR) ∧
      (s.saf.accepted ≠ some m.pdu → t.rd SAFE_NET_STATUS.CMP_ERR = 1 ∧ t.rd SLC_TRIP_LATCH.NET_STOP = 1 ∧ t.rd SLC_BLOCK_STATUS.SCOPE = 3)) ∧
  (∀ (s : State) (n0 t0 e : Nat) (m : Pdu), s.pwr.mainOn = true → s.saf.first = some (n0, t0, m) →
      t0 + s.rd SAFE_NET_CFG.SKEW * 100000 ≤ (s.moveTo e).tm.e →
    ∃ t, exec (.copySkewTimeout e) s = .next t ∧ t.saf.first = none ∧
      (s.bit SAFE_NET_CFG.DEGRADE = false → t.saf.accepted = s.saf.accepted ∧ t.sp = s.sp) ∧
      (s.bit SAFE_NET_CFG.DEGRADE = true → s.bit SAFE_NET_STATUS.UP_A = false → s.bit SAFE_NET_STATUS.UP_B = false →
        t.saf.accepted = some m ∧ t.sp.safe = some m)) ∧
  (∀ (s : State) (e : Nat), s.pwr.mainOn = true → s.bit SAFE_NET_CFG.EN = true →
      s.saf.acceptedAt + s.rd SAFE_NET_CFG.WDOG * 1000000 ≤ (s.moveTo e).tm.e → s.saf.expired = false → s.rd SLC_BLOCK_STATUS.PHASES < 8 →
    ∃ t, exec (.safeWdogExpiry e) s = .next t ∧ t.rd SAFE_NET_STATUS.CONN_UP = 0 ∧ t.saf.expired = true ∧ t.saf.anySeq = true ∧
      t.rd SLC_TRIP_LATCH.NET_STOP = 1 ∧ t.rd SLC_BLOCK_STATUS.SCOPE = 3) ∧
  (∀ (s : State) (e : Nat), s.pwr.mainOn = true → s.bit SAFE_NET_CFG.EN = true →
      s.saf.txAt + s.rd SAFE_NET_CFG.PERIOD * 1000000 ≤ (s.moveTo e).tm.e →
    ∃ t, exec (.safeMessageTx e) s = .next t ∧ t.saf.txSeq = (s.saf.txSeq + 1) % 2 ^ 32 ∧ t.saf.txAt = (s.moveTo e).tm.e ∧ t.regs = s.regs ∧
      ∃ fl, bitOf fl 1 = s.released ∧ ∀ net, net < 2 → Out.safeMessage net (ethBytes ⟨s.macCtl, s.macDev, 0x88B5,
        ⟨0x4C53, 1, 0x81, s.rd SAFE_CONN.CONN_ID, t.saf.txSeq, fl, 0, s.rds SYNC_SP_APPLIED.P, s.rds SYNC_SP_APPLIED.Q, 0, 0, 0, 0,
          s.rd SAFE_CV.CV, s.saf.lastSeq, 0, crc32c (pduBody ⟨0x4C53, 1, 0x81, s.rd SAFE_CONN.CONN_ID, t.saf.txSeq, fl, 0,
            s.rds SYNC_SP_APPLIED.P, s.rds SYNC_SP_APPLIED.Q, 0, 0, 0, 0, s.rd SAFE_CV.CV, s.saf.lastSeq, 0, 0⟩)⟩, 0⟩) ∈ t.out)

/-- R423 to R428: a level that is a channel's demand (low, or high on channel B of an antivalent input) and has lasted FILT
of an input of types 1 to 3 enters the safe state and latches SAFETY_IN, of one of type 0 does nothing to those registers;
the other level that has lasted FILT ends the demand; a level that has not lasted, or that the channel already stands at,
changes nothing; a discrepancy and two
missed test pulses count as demand; a pulse that is due leaves on its output and one that is not due does not; a breaker
that does not show open in time sets BRK_FB_ERR. -/
def Obligations.SafetyInputCommands : Prop :=
  (∀ (s : State) (n : Fin 8) (b lv : Bool) (since e : Nat), s.pwr.mainOn = true → s.saf.inputs.length = 8 →
      lv = (b && s.biti SAFE_IN_CFG_n.ANTI n) → s.rdi SAFE_IN_CFG_n.FILT n * 100000 ≤ (s.moveTo e).counted n b since →
      (if b then (s.sin n).b else (s.sin n).a) = false →
      1 ≤ s.rdi SAFE_IN_CFG_n.TYPE n → s.rdi SAFE_IN_CFG_n.TYPE n ≤ 3 → s.bit PWR_STATUS.SLEEP = false → s.rd SLC_BLOCK_STATUS.PHASES < 8 →
    ∃ t, exec (.safetyInputDemand n ⟨b, lv, since⟩ e) s = .next t ∧ (if b then (t.sin n).b else (t.sin n).a) = true ∧
      bitOf (t.rd SAFE_STATUS.DEMAND) n = true ∧ t.rd SLC_TRIP_LATCH.SAFETY_IN = 1 ∧ t.rd SLC_BLOCK_STATUS.PHASES = 7 ∧
      t.rd SLC_BLOCK_STATUS.SCOPE = 3) ∧
  (∀ (s : State) (n : Fin 8) (b lv : Bool) (since e : Nat), s.pwr.mainOn = true → s.rdi SAFE_IN_CFG_n.TYPE n = 0 →
      (if b then (s.sin n).b else (s.sin n).a) = false →
      lv = (b && s.biti SAFE_IN_CFG_n.ANTI n) → s.rdi SAFE_IN_CFG_n.FILT n * 100000 ≤ (s.moveTo e).counted n b since →
    ∃ t, exec (.safetyInputDemand n ⟨b, lv, since⟩ e) s = .next t ∧ bitOf (t.rd SAFE_STATUS.DEMAND) n = false ∧
      t.rd SLC_TRIP_LATCH.SAFETY_IN = s.rd SLC_TRIP_LATCH.SAFETY_IN ∧ t.rd SLC_BLOCK_STATUS.SCOPE = s.rd SLC_BLOCK_STATUS.SCOPE) ∧
  (∀ (s : State) (n : Fin 8) (b lv : Bool) (since e : Nat), s.pwr.mainOn = true →
    ((if b then (s.sin n).b else (s.sin n).a) = true → exec (.safetyInputDemand n ⟨b, lv, since⟩ e) s = .next (s.moveTo e)) ∧
    ((if b then (s.sin n).b else (s.sin n).a) = false → exec (.safetyInputRelease n ⟨b, lv, since⟩ e) s = .next (s.moveTo e))) ∧
  (∀ (s : State) (n : Fin 8) (b lv : Bool) (since e : Nat), s.pwr.mainOn = true →
      (s.moveTo e).counted n b since < s.rdi SAFE_IN_CFG_n.FILT n * 100000 →
    exec (.safetyInputDemand n ⟨b, lv, since⟩ e) s = .next (s.moveTo e) ∧ exec (.safetyInputRelease n ⟨b, lv, since⟩ e) s = .next (s.moveTo e)) ∧
  (∀ (s : State) (n : Fin 8) (b lv : Bool) (since e : Nat), s.pwr.mainOn = true → s.saf.inputs.length = 8 →
      lv = !(b && s.biti SAFE_IN_CFG_n.ANTI n) → s.rdi SAFE_IN_CFG_n.FILT n * 100000 ≤ (s.moveTo e).counted n b since →
    ∃ t, exec (.safetyInputRelease n ⟨b, lv, since⟩ e) s = .next t ∧ (if b then (t.sin n).b else (t.sin n).a) = false ∧
      ((if b then (s.sin n).b else (s.sin n).a) = true → (if b then (s.sin n).a else (s.sin n).b) = false → (s.sin n).discDemand = false → bitOf (s.rd SAFE_STATUS.TP_ERR) n = false →
        bitOf (t.rd SAFE_STATUS.DEMAND) n = false) ∧
      t.rd SLC_TRIP_LATCH.SAFETY_IN = s.rd SLC_TRIP_LATCH.SAFETY_IN ∧ t.rd SLC_BLOCK_STATUS.SCOPE = s.rd SLC_BLOCK_STATUS.SCOPE) ∧
  (∀ (s : State) (n : Fin 8) (e : Nat), s.pwr.mainOn = true → s.saf.inputs.length = 8 → (s.sin n).a ≠ (s.sin n).b →
      s.rdi SAFE_IN_CFG_n.TYPE n ≠ 0 → (s.sin n).disc = false →
      max (s.sin n).aAt (s.sin n).bAt + s.discNs n < (s.moveTo e).tm.e →
    ∃ t, exec (.discrepancy n e) s = .next t ∧ bitOf (t.rd SAFE_STATUS.DISC) n = true ∧ (t.sin n).discDemand = true ∧
      bitOf (t.rd SAFE_STATUS.DEMAND) n = true ∧ s.hst.seqNo < t.hst.seqNo) ∧
  (∀ (s : State) (b : Bool) (low e : Nat), s.pwr.mainOn = true → (s.moveTo e).pulseDue b = false → exec (.testPulse b low e) s = .next (s.moveTo e)) ∧
  (∀ (s : State) (b : Bool) (e : Nat), s.pwr.mainOn = true → s.saf.inputs.length = 8 → (s.moveTo e).pulseDue b = true →
    ∃ t, exec (.testPulse b 255 e) s = .next t ∧ t.regs = s.regs ∧ Out.safePulse b ∈ t.out ∧
      ∀ n : Fin 8, s.biti SAFE_IN_CFG_n.TP_EN n = true → s.rdi SAFE_IN_CFG_n.TYPE n ≠ 0 →
        (b = true → s.biti SAFE_IN_CFG_n.ANTI n = false) → (if b then (t.sin n).missB else (t.sin n).missA) = 0) ∧
  (∀ (s : State) (n : Fin 8) (b : Bool) (e : Nat), s.pwr.mainOn = true → s.saf.inputs.length = 8 → (s.moveTo e).pulseDue b = true →
      (∀ k, k ≠ n.val → s.biti SAFE_IN_CFG_n.TP_EN k = false) → s.biti SAFE_IN_CFG_n.TP_EN n = true →
      1 ≤ s.rdi SAFE_IN_CFG_n.TYPE n → s.rdi SAFE_IN_CFG_n.TYPE n ≤ 3 → s.biti SAFE_IN_CFG_n.ANTI n = false →
      (if b then (s.sin n).missB else (s.sin n).missA) = 1 → bitOf (s.rd SAFE_STATUS.TP_ERR) n = false →
      s.bit PWR_STATUS.SLEEP = false → s.rd SLC_BLOCK_STATUS.PHASES < 8 →
    ∃ t, exec (.testPulse b 0 e) s = .next t ∧ bitOf (t.rd SAFE_STATUS.TP_ERR) n = true ∧ bitOf (t.rd SAFE_STATUS.DEMAND) n = true ∧
      t.rd SLC_TRIP_LATCH.SAFETY_IN = 1 ∧ t.rd SLC_BLOCK_STATUS.SCOPE = 3 ∧ s.hst.seqNo < t.hst.seqNo) ∧
  (∀ (s : State) (n : Fin 8) (e : Nat), s.pwr.mainOn = true → s.rdi SAFE_IN_CFG_n.TYPE n = 4 → s.rd SLC_BLOCK_STATUS.BRK = 1 →
      (s.sin n).a = false → (s.sin n).b = false → s.slc.brkAt + s.discNs n ≤ (s.moveTo e).tm.e → s.rd SAFE_STATUS.BRK_FB_ERR = 0 →
    ∃ t, exec (.brkFeedbackTimeout n e) s = .next t ∧ t.rd SAFE_STATUS.BRK_FB_ERR = 1 ∧ s.hst.seqNo < t.hst.seqNo)

/-- R4, R58 to R61, R64, R65: an allowed write of a cell's configuration, one of a cell the part does not have (ignored), and of the plant rating, and the moves of the row. -/
def Obligations.CellAndPlantConfiguration : Prop :=
  (∀ (s : State) (c : Fin 240) (v : Nat) (ag : Agent), s.pwr.mainOn = true → s.cfgOpen c = true → s.cellCfgOk c v = true → bitOf v 31 = true →
    ∃ t, exec (.hgsCellCfgWrite c v ag) s = .next t ∧ t.rdi HGS_CELL_CFG_n.ENABLE c = 1 ∧ t.rdi HGS_CELL_CFG_n.PHASE c = bits v 28 2 ∧
      t.rdi HGS_CELL_CFG_n.ROLE c = bits v 26 2 ∧ t.rdi HGS_CELL_CFG_n.VLINK c = bits v 0 11 ∧ (t.cell c).svc.dirty = true ∧
      ∀ d, d ≠ c.val → t.cell d = s.cell d ∧ t.rdi HGS_CELL_CFG_n.ENABLE d = s.rdi HGS_CELL_CFG_n.ENABLE d) ∧
  (∀ (s : State) (c : Fin 240) (v : Nat) (ag : Agent), s.pwr.mainOn = true → s.cfgOpen c = true → s.cellCfgOk c v = true →
      c.val < s.cellCount → s.enabled c = true → bitOf v 31 = false →
    ∃ t, exec (.hgsCellCfgWrite c v ag) s = .next t ∧ t.rdi HGS_CELL_CFG_n.ENABLE c = 0 ∧ t.sstate c = 0 ∧ t.lstate c = 0 ∧
      (t.cell c).svc.blk = true) ∧
  (∀ (s : State) (c : Fin 240) (v : Nat) (ag : Agent), s.pwr.mainOn = true → s.cellCount ≤ c.val → exec (.hgsCellCfgWrite c v ag) s = .next s) ∧
  (∀ (s : State) (v : Nat) (ag : Agent), s.pwr.mainOn = true → s.commissioning = true → s.allBlocked = true →
      660 ≤ bits v 0 12 → bits v 0 12 ≤ 3600 → 1000 ≤ bits v 16 11 → bits v 16 11 ≤ 1200 →
    ∃ t, exec (.hgsPlantRatingWrite false v ag) s = .next t ∧ t.rd HGS_PLANT_VOLT.VNOM = bits v 0 12 ∧ t.rd HGS_PLANT_VOLT.VMAX = bits v 16 11 ∧
      t.rd HGS_PLANT_CUR.IRATED = s.rd HGS_PLANT_CUR.IRATED) ∧
  (∀ (s : State) (v : Nat) (ag : Agent), s.pwr.mainOn = true → s.commissioning = true → s.allBlocked = true →
      1 ≤ bits v 0 16 → bits v 16 9 ≤ 300 →
    ∃ t, exec (.hgsPlantRatingWrite true v ag) s = .next t ∧ t.rd HGS_PLANT_CUR.IRATED = bits v 0 16 ∧ t.rd HGS_PLANT_CUR.XF = bits v 16 9 ∧
      t.rd HGS_PLANT_VOLT.VNOM = s.rd HGS_PLANT_VOLT.VNOM) ∧
  (∀ (s : State) (r e : Nat), s.pwr.mainOn = true → s.tm.run = true → s.tm.phase = 0 → s.sched.rowNext = some r → r ≤ 4 →
    ∃ t, exec (.derateRowDown e) s = .next t ∧ t.rd HGS_RATING_STATUS.DERATE_ROW = r ∧
      t.rd HGS_RATING_STATUS.CUR_LIMIT_PCT = rowCurrent r ∧ t.rd HGS_RATING_STATUS.QCAP_LIMIT_PCT = rowQcap r ∧ t.sched.rowNext = none) ∧
  (∀ (s : State) (r e : Nat), s.pwr.mainOn = true → s.tm.run = true → (s.moveTo e).rowUp = some r → r ≤ 4 →
    ∃ t, exec (.derateRowUp e) s = .next t ∧ t.rd HGS_RATING_STATUS.DERATE_ROW = r ∧
      t.rd HGS_RATING_STATUS.CUR_LIMIT_PCT = rowCurrent r ∧ t.rd HGS_RATING_STATUS.QCAP_LIMIT_PCT = rowQcap r)

/-- R583, R585, R604, R605: at 200 ms the weir moves one step down to its floor in the throttle state, or one step up to 16
outside it; without a completed round for the longer of 20 ms and three periods STALE is set, and the device throttles. -/
def Obligations.ThermalTimerCommands : Prop :=
  (∀ (s : State) (e : Nat), s.pwr.mainOn = true → 200000000 ≤ s.thm.timer → s.bit THM_CFG.WEIR_EN = true → s.rd THM_STATUS.WEIR_STEP ≤ 16 → s.rd THM_CFG.WEIR_FLOOR ≤ 15 →
    ∃ t, exec (.weirTimerExpiry e) s = .next t ∧ t.thm.timer = 0 ∧
      t.rd THM_STATUS.WEIR_STEP = (if s.thm.prev then max (s.rd THM_STATUS.WEIR_STEP - 1) (s.rd THM_CFG.WEIR_FLOOR) else min (s.rd THM_STATUS.WEIR_STEP + 1) 16)) ∧
  (∀ (s : State) (e : Nat), s.pwr.mainOn = true → s.thm.timer < 200000000 →
    ∃ t, exec (.weirTimerExpiry e) s = .next t ∧ t.regs = s.regs ∧ t.thm = s.thm) ∧
  (∀ (s : State) (e : Nat), s.pwr.mainOn = true → s.adc.hkDone + max 20000000 (3 * s.rd ADC_HK_CFG.PERIOD * 1000) ≤ (s.moveTo e).tm.e →
    ∃ t, exec (.thermalStale e) s = .next t ∧ t.rd THM_DIE_STATUS.STALE = 1 ∧ t.rd THM_STATUS.THR_SRC = 1 ∧ t.rd THM_STATUS.THROTTLE = 1)

/-- R169, R172 to R174, R177, R187, R391, R408, R505: EVENT passes to RECOVERY after its 20 ms, an expired stage trips with the
breaker output and blocks from the next boundary, ENTER_OK is shown, and waiting setpoints are applied before S1. -/
def Obligations.RideThroughCommands : Prop :=
  (∀ (s : State) (d : Rat), s.pwr.mainOn = true → s.tm.s1run = true → s.law.sup.state = 1 → s.law.sup.okFor = some d → 1 / 50 ≤ d →
    ∃ t, exec .recoveryEntry s = .next t ∧ t.law.sup.state = 3 ∧ t.law.sup.okFor = none ∧ t.law.sup.dOut = s.law.src.refp.re ∧
      t.lawC = s.lawC ∧ t.tri.tb = s.tri.tb ++ [.fld FRT_STATUS.STATE 0 3]) ∧
  (∀ (s : State) (c : Fin 4) (i : Fin 8) (e : Nat), s.pwr.mainOn = true → s.tm.s1run = true → s.law.sup.state ≠ 4 →
      s.stageOn c i = true → s.stageBeyond c i = true → s.rd SLC_BLOCK_STATUS.PHASES < 8 →
      (stageMs s.acti c i : Rat) / 1000 ≤ tget (fun _ => 0) s.law.sup.timers (8 * c.val + i.val) →
    ∃ t, exec (.tripCurveExpiry c i e) s = .next t ∧ t.law.sup.state = 4 ∧ t.lawC.sup.state = 4 ∧ t.law.sup.timers = [] ∧
      t.rd FRT_STATUS.STATE = 4 ∧ t.rd FRT_STATUS.TRIP_CURVE = c.val ∧ t.rd FRT_STATUS.TRIP_STAGE = i.val ∧
      t.rd SLC_BLOCK_STATUS.SCOPE = 3 ∧ t.rd SLC_BLOCK_STATUS.PHASES = 7 ∧ t.rd SLC_BLOCK_STATUS.BRK ≠ 0 ∧
      t.slc.release = [] ∧ (s.rd SLC_BLOCK_STATUS.SCOPE = 0 → t.cells = s.cells ∧ t.slc.blkPend = [true, true, true])) ∧
  (∀ (s : State) (d : Rat), s.pwr.mainOn = true → s.tm.s1run = true → s.law.sup.enterFor = some d →
      (s.act FRT_ENTER_CFG.DELAY : Rat) ≤ d →
    ∃ t, exec .enterServiceQualified s = .next t ∧ t.law = { s.law with sup := { s.law.sup with enterOk := true } } ∧
      t.lawC = s.lawC ∧ t.tri.tb = s.tri.tb ++ [.fld FRT_STATUS.ENTER_OK 0 1]) ∧
  (∀ (s : State) (x : SetReq), s.pwr.mainOn = true → s.tm.run = true → s.tm.phase = 0 → s.sp.host = [x] → s.sp.safe = none →
      x.d.ring < 64 → x.d.epoch = s.hst.epoch →
    ∃ t, exec .setpointApply s = .next t ∧ t.sp.host = [] ∧ t.sp.heldSafe = s.sp.heldSafe ∧
      t.sp.heldHost.p = (if x.has 0 then some (s.clipReq x).p else s.sp.heldHost.p) ∧
      t.sp.heldHost.q = (if x.has 1 then some (s.clipReq x).q else s.sp.heldHost.q) ∧
      t.sp.heldHost.ilim = (if x.has 2 then some x.ilim else s.sp.heldHost.ilim) ∧
      t.sp.heldHost.plim = (if x.has 3 then some x.plim else s.sp.heldHost.plim) ∧
      t.rd SYNC_SP_APPLIED.P = unsg 16 t.sp.p ∧ t.rd SYNC_SP_APPLIED.Q = unsg 16 t.sp.q ∧
      ∃ c ∈ t.hst.atNext, c.tag = x.d.tag ∧ c.cring = x.d.cring) ∧
  (∀ (s : State) (m : Pdu), s.pwr.mainOn = true → s.tm.run = true → s.tm.phase = 0 → s.sp.host = [] → s.sp.safe = some m →
    ∃ t, exec .setpointApply s = .next t ∧ t.sp.safe = none ∧ t.sp.heldSafe = heldOfPdu m ∧ t.sp.heldHost = s.sp.heldHost ∧
      t.rd SYNC_SP_APPLIED.P = unsg 16 t.sp.p ∧ t.rd SYNC_SP_APPLIED.Q = unsg 16 t.sp.q)

/-- R156, R157, R167, R168, R176, R182, R183, R463: lock is gained and lost in the working copy, a PLL configuration and a mode
request are taken, and the transfer follows the request at the boundary, from B5 on (R52). -/
def Obligations.GridTrackingCommands : Prop :=
  (∀ (s : State) (d : Rat), s.pwr.mainOn = true → s.tm.s1run = true → s.law.trk.locked = false → s.atClamp = false →
      s.law.trk.lockFor = some d → 1 / 10 ≤ d →
    ∃ t, exec .lockAcquired s = .next t ∧ t.law = { s.law with trk := { s.law.trk with locked := true } } ∧ t.lawC = s.lawC ∧
      t.tri.tb = s.tri.tb ++ [.fld SYNC_STATUS.LOCKED 0 1] ∧ t.regs = s.regs) ∧
  (∀ (s : State), s.pwr.mainOn = true → s.tm.s1run = true → s.law.trk.locked = true →
      (s.atClamp = true ∨ ∃ d, s.law.trk.lossFor = some d ∧ 1 / 200 ≤ d) →
    ∃ t, exec .lockLost s = .next t ∧ t.law = { s.law with trk := { s.law.trk with locked := false } } ∧ t.lawC = s.lawC ∧
      t.tri.tb = s.tri.tb ++ [.fld SYNC_STATUS.LOCKED 0 0] ∧ t.regs = s.regs) ∧
  (∀ (s : State) (v : Nat), s.pwr.mainOn = true → 5 ≤ bits v 24 7 → bits v 24 7 ≤ 100 → 5 ≤ bits v 20 4 → 20 ≤ bits v 12 8 →
      5 ≤ bits v 6 6 → bits v 6 6 ≤ 60 → 1 ≤ bits v 0 6 → bits v 0 6 ≤ 50 →
      (bits v 31 1 = s.rd SYNC_PLL_CFG.FNOM ∨ s.allBlocked = true) →
    ∃ t, exec (.syncPllCfgWrite v) s = .next t ∧ t.rd SYNC_PLL_CFG.FNOM = bits v 31 1 ∧ t.act SYNC_PLL_CFG.FNOM = bits v 31 1 ∧
      t.rd SYNC_PLL_CFG.BW = bits v 24 7 ∧ t.rd SYNC_PLL_CFG.ZETA = bits v 20 4 ∧ t.rd SYNC_PLL_CFG.UCOAST = bits v 12 8 ∧
      t.rd SYNC_PLL_CFG.JUMP = bits v 6 6 ∧ t.rd SYNC_PLL_CFG.ROCOF_WIN = bits v 0 6 ∧ t.law = s.law) ∧
  (∀ (s : State) (v : Nat) (ag : Agent), s.pwr.mainOn = true → 1 ≤ bits v 0 16 → bits v 0 16 ≤ 10000 →
      (bits v 31 1 = 1 → s.rd SYNC_MODE.GFM_REQ = 0 → s.gfmRefused = false) →
    ∃ t, exec (.syncModeWrite v ag) s = .next t ∧ t.rd SYNC_MODE.GFM_REQ = bits v 31 1 ∧ t.rd SYNC_MODE.SP_RATE = bits v 0 16 ∧
      t.law = s.law ∧ t.cells = s.cells) ∧
  (∀ (s : State) (v : Nat) (ag : Agent), s.pwr.mainOn = true → 1 ≤ bits v 0 16 → bits v 0 16 ≤ 10000 →
      bits v 31 1 = 1 → s.rd SYNC_MODE.GFM_REQ = 0 → s.gfmRefused = true →
    ∃ t, exec (.syncModeWrite v ag) s = .next t ∧ t.rd SYNC_MODE.GFM_REQ = 0 ∧ t.rd SYNC_STATUS.CFG_ERR = 1 ∧
      s.hst.seqNo < t.hst.seqNo) ∧
  (∀ (s : State) (r : Bool), s.pwr.mainOn = true → s.tm.run = true → s.tm.phase = 0 → s.rd SYNC_MODE.GFM_REQ = b2n r →
      s.law.src.gfm = !r → (r = true → 5 ≤ s.stage) →
    ∃ t, exec .gfmTransfer s = .next t ∧ t.rd SYNC_STATUS.GFM = b2n r ∧ t.law.src.gfm = r ∧ t.lawC.src.gfm = r ∧
      t.law.src.fresh = true ∧ t.law.cur = s.law.cur ∧ t.law.trk = s.law.trk ∧ t.sp = s.sp) ∧
  (∀ (s : State), s.pwr.mainOn = true → s.tm.run = true → s.tm.phase = 0 → s.stage < 5 →
    (s.law.src.gfm = true → ∃ t, exec .gfmTransfer s = .next t ∧ t.rd SYNC_STATUS.GFM = 0 ∧ t.law.src.gfm = false ∧ t.lawC.src.gfm = false) ∧
    (s.law.src.gfm = false → exec .gfmTransfer s = .next s))

/-- R132 to R135, R141, R152: a write of CTL_MODE waits for the boundary, the transfer follows the request in force, two
over-current MANUAL ticks force AUTO, and a manual vector is taken as written. -/
def Obligations.ControlModeCommands : Prop :=
  (∀ (s : State) (v : Nat), s.pwr.mainOn = true → bits v 26 2 ≠ 3 → 1 ≤ bits v 8 8 →
      ¬(bits v 31 1 = 1 ∧ s.rd CTL_MODE.MODE_REQ = 0 ∧ s.law.src.gfm = true) →
    ∃ t, exec (.ctlModeWrite v) s = .next t ∧ t.rd CTL_MODE.MODE_REQ = bits v 31 1 ∧ t.rd CTL_MODE.ZSEQ_EN = bits v 30 1 ∧
      t.rd CTL_MODE.NOTCH_EN = bits v 29 1 ∧ t.rd CTL_MODE.NEG_EN = bits v 28 1 ∧ t.rd CTL_MODE.PRIO = bits v 26 2 ∧
      t.rd CTL_MODE.RES_EN = bits v 20 6 ∧ t.rd CTL_MODE.MAN_RATE = bits v 8 8 ∧ t.law = s.law ∧
      ∀ f ∈ ctlModeFields, t.act f = s.act f) ∧
  (∀ (s : State) (v : Nat), s.pwr.mainOn = true →
      (bits v 26 2 = 3 ∨ bits v 8 8 = 0 ∨ (bits v 31 1 = 1 ∧ s.rd CTL_MODE.MODE_REQ = 0 ∧ s.law.src.gfm = true)) →
    ∃ t, exec (.ctlModeWrite v) s = .next t ∧ t.rd CTL_STATUS.CFG_ERR = 1 ∧ ∀ f ∈ ctlModeFields, t.rd f = s.rd f ∧ t.act f = s.act f) ∧
  (∀ s : State, s.pwr.mainOn = true → s.tm.run = true → s.tm.phase = 0 → s.act CTL_MODE.MODE_REQ = 1 → s.law.cur.manual = false →
    ∃ t, exec .modeTransfer s = .next t ∧ t.law.cur.manual = true ∧ t.law.cur.man = s.law.cur.outF ∧ t.law.cur.overTicks = 0 ∧
      t.lawC.cur.manual = true ∧ t.rd CTL_STATUS.MODE = 1 ∧ t.cells = s.cells) ∧
  (∀ s : State, s.pwr.mainOn = true → s.tm.run = true → s.tm.phase = 0 → s.act CTL_MODE.MODE_REQ = 0 → s.law.cur.manual = true →
    ∃ t, exec .modeTransfer s = .next t ∧ t.law = { s.law with cur := { s.law.cur with manual := false, overTicks := 0 } } ∧
      t.lawC.cur.manual = false ∧ t.rd CTL_STATUS.MODE = 0 ∧ t.rd CTL_MANUAL.VD = s.rd CTL_MANUAL.VD ∧ t.rd CTL_MANUAL.VQ = s.rd CTL_MANUAL.VQ) ∧
  (∀ s : State, s.pwr.mainOn = true → s.tm.run = true → s.tm.phase = 0 → s.law.cur.manual = true → 2 ≤ s.law.cur.overTicks →
    ∃ t, exec .forcedAuto s = .next t ∧ t.law.cur.manual = false ∧ t.rd CTL_MODE.MODE_REQ = 0 ∧ t.act CTL_MODE.MODE_REQ = 0 ∧
      t.rd CTL_STATUS.MODE = 0 ∧ t.rd CTL_STATUS.FORCED_AUTO = 1 ∧ s.hst.seqNo < t.hst.seqNo) ∧
  (∀ (s : State) (v : Nat), s.pwr.mainOn = true →
    ∃ t, exec (.ctlManualWrite v) s = .next t ∧ t.rd CTL_MANUAL.VD = bits v 16 16 ∧ t.rd CTL_MANUAL.VQ = bits v 0 16 ∧
      t.law = s.law ∧ t.cells = s.cells)

/-- R102, R136, R137, R176, R217, R243, R566, R699: an accepted swap request is pending and no active copy moves yet; at
the boundary every active copy of the group takes what its shadow reads, ACTIVE toggles and nothing is pending. -/
def Obligations.TableSwapsWaitAndApply : Prop :=
  (∀ s : State, s.pwr.mainOn = true →
    ∃ t, exec .hgsTableSwap s = .next t ∧ t.rd HGS_TABLE_CTRL.PENDING = 1 ∧ ∀ f ∈ hgsTables, ∀ i, t.acti f i = s.acti f i) ∧
  (∀ (s : State) (ag : Agent), s.pwr.mainOn = true → s.rd CTL_TABLE_CTRL.PENDING = 0 → s.ctlSetOk s.rdi (s.bit CTL_MODE.NOTCH_EN) = true →
    ∃ t, exec (.ctlTableSwap ag) s = .next t ∧ t.rd CTL_TABLE_CTRL.PENDING = 1 ∧ ∀ f ∈ ctlTables, ∀ i, t.acti f i = s.acti f i) ∧
  (∀ (s : State) (ag : Agent), s.pwr.mainOn = true → s.rd FRT_TABLE_CTRL.PENDING = 0 → s.frtShadowOk = true →
    ∃ t, exec (.frtTableSwap ag) s = .next t ∧ t.rd FRT_TABLE_CTRL.PENDING = 1 ∧ ∀ f ∈ frtTables, ∀ i, t.acti f i = s.acti f i) ∧
  (∀ (s : State) (ag : Agent), s.pwr.mainOn = true → s.rd MIR_TABLE_CTRL.PENDING = 0 → s.rd MIR_CFG.CHIPLEN = s.act MIR_CFG.CHIPLEN →
      s.dmaxOk s.rd = true →
    ∃ t, exec (.mirTableSwap ag) s = .next t ∧ t.rd MIR_TABLE_CTRL.PENDING = 1 ∧ ∀ f ∈ mirTables, ∀ i, t.acti f i = s.acti f i) ∧
  (∀ (s : State) (ag : Agent), s.pwr.mainOn = true → s.rd PORT_TABLE_CTRL.PENDING = 0 →
      s.rds PORT_PACK_GCFG.TLO < s.rds PORT_PACK_GCFG.TCOLD → s.rds PORT_PACK_GCFG.TCOLD < s.rds PORT_PACK_GCFG.THOT →
      s.rds PORT_PACK_GCFG.THOT < s.rds PORT_PACK_GCFG.THI →
    ∃ t, exec (.portTableSwap ag) s = .next t ∧ t.rd PORT_TABLE_CTRL.PENDING = 1 ∧ ∀ f ∈ portTables, ∀ i, t.acti f i = s.acti f i) ∧
  (∀ s : State, s.pwr.mainOn = true →
    ∃ t, exec .mtrCalSwap s = .next t ∧ t.rd MTR_CAL_CTRL.PENDING = 1 ∧ t.mtr = { s.mtr with swapAt := t.mtr.swapAt } ∧
      ∀ c, t.acti MTR_CH_CAL_c.GAIN c = s.acti MTR_CH_CAL_c.GAIN c) ∧
  (∀ s : State, s.pwr.mainOn = true → s.boundaryDue HGS_TABLE_CTRL.SWAP.base = true → s.rd HGS_TABLE_CTRL.PENDING = 1 →
    ∃ t, exec .hgsSwapApply s = .next t ∧ t.rd HGS_TABLE_CTRL.PENDING = 0 ∧ t.rd HGS_TABLE_CTRL.ACTIVE = 1 - s.rd HGS_TABLE_CTRL.ACTIVE ∧
      ∀ f ∈ hgsTables, ∀ i, i < f.count → t.acti f i = s.rdi f i ∧ t.rdi f i = s.rdi f i) ∧
  (∀ s : State, s.pwr.mainOn = true → s.boundaryDue CTL_TABLE_CTRL.SWAP.base = true → s.rd CTL_TABLE_CTRL.PENDING = 1 →
    ∃ t, exec .ctlSwapApply s = .next t ∧ t.rd CTL_TABLE_CTRL.PENDING = 0 ∧ t.rd CTL_TABLE_CTRL.ACTIVE = 1 - s.rd CTL_TABLE_CTRL.ACTIVE ∧
      ∀ f ∈ ctlTables, ∀ i, i < f.count → t.acti f i = s.rdi f i ∧ t.rdi f i = s.rdi f i) ∧
  (∀ s : State, s.pwr.mainOn = true → s.boundaryDue FRT_TABLE_CTRL.SWAP.base = true → s.rd FRT_TABLE_CTRL.PENDING = 1 →
    ∃ t, exec .frtSwapApply s = .next t ∧ t.rd FRT_TABLE_CTRL.PENDING = 0 ∧ t.rd FRT_TABLE_CTRL.ACTIVE = 1 - s.rd FRT_TABLE_CTRL.ACTIVE ∧
      t.law = s.law ∧ ∀ f ∈ frtTables, ∀ i, i < f.count → t.acti f i = s.rdi f i ∧ t.rdi f i = s.rdi f i) ∧
  (∀ s : State, s.pwr.mainOn = true → s.boundaryDue MIR_TABLE_CTRL.SWAP.base = true → s.rd MIR_TABLE_CTRL.PENDING = 1 →
    ∃ t, exec .mirSwapApply s = .next t ∧ t.rd MIR_TABLE_CTRL.PENDING = 0 ∧ t.rd MIR_TABLE_CTRL.ACTIVE = 1 - s.rd MIR_TABLE_CTRL.ACTIVE ∧
      ∀ f ∈ mirTables, ∀ i, i < f.count → t.acti f i = s.rdi f i ∧ t.rdi f i = s.rdi f i) ∧
  (∀ s : State, s.pwr.mainOn = true → s.boundaryDue PORT_TABLE_CTRL.SWAP.base = true → s.rd PORT_TABLE_CTRL.PENDING = 1 →
    ∃ t, exec .portSwapApply s = .next t ∧ t.rd PORT_TABLE_CTRL.PENDING = 0 ∧ t.rd PORT_TABLE_CTRL.ACTIVE = 1 - s.rd PORT_TABLE_CTRL.ACTIVE ∧
      ∀ f ∈ portTables, ∀ i, i < f.count → t.acti f i = s.rdi f i ∧ t.rdi f i = s.rdi f i) ∧
  (∀ s : State, s.pwr.mainOn = true → s.mtr.calDue = true → s.mtr.atS5 = false → s.rd MTR_CAL_CTRL.PENDING = 1 →
    ∃ t, exec .mtrCalSwapApply s = .next t ∧ t.rd MTR_CAL_CTRL.PENDING = 0 ∧ t.rd MTR_CAL_CTRL.ACTIVE = 1 - s.rd MTR_CAL_CTRL.ACTIVE ∧
      (∀ c, c < 6 → t.acti MTR_CH_CAL_c.GAIN c = s.rdi MTR_CH_CAL_c.GAIN c ∧ t.acti MTR_CH_CAL_c.OFFSET c = s.rdi MTR_CH_CAL_c.OFFSET c ∧
        t.acti MTR_CH_PHASE_c.PHASE c = s.rdi MTR_CH_PHASE_c.PHASE c) ∧
      (∀ k, k < 8 → t.acti MTR_QTY_CAL_k.GAIN k = s.rdi MTR_QTY_CAL_k.GAIN k ∧ t.acti MTR_QTY_CAL_k.OFFSET k = s.rdi MTR_QTY_CAL_k.OFFSET k))

/-- R4, R228, R239, R240, R248 to R252: a write for a cell the part does not have is ignored; an allowed panel write is taken and a new row or VMIN discards the period in progress; a
broken row rule is refused; a pack write is taken, and narrows the window of an enabled pack cell at once. -/
def Obligations.PortConfigurationWrites : Prop :=
  (∀ (s : State) (c : Fin 240) (v : Nat) (g : Fin 4), s.pwr.mainOn = true → s.cellCount ≤ c.val →
    exec (.portPvCfgWrite c v) s = .next s ∧ exec (.portPackWrite g c v) s = .next s) ∧
  (∀ (s : State) (c : Fin 240) (v : Nat), s.pwr.mainOn = true → c.val < s.cellCount → bits v 0 11 < bits v 11 11 →
      bits v 22 8 % chipTicks (s.act MIR_CFG.CHIPLEN) ≠ 0 → 2 ≤ popcount8 (bits v 22 8) →
      s.rowTaken c (s.phaseOf c) (bits v 22 8) = false →
    ∃ t, exec (.portPvCfgWrite c v) s = .next t ∧ t.rdi PORT_PV_CFG_n.TRK_EN c = bits v 31 1 ∧ t.rdi PORT_PV_CFG_n.ROW c = bits v 22 8 ∧
      t.rdi PORT_PV_CFG_n.VMAX c = bits v 11 11 ∧ t.rdi PORT_PV_CFG_n.VMIN c = bits v 0 11 ∧
      (∀ d, d ≠ c.val → t.rdi PORT_PV_CFG_n.ROW d = s.rdi PORT_PV_CFG_n.ROW d ∧ t.pv d = s.pv d) ∧
      (t.pv c).row = (s.pv c).row ∧ (t.pv c).vop = (s.pv c).vop ∧
      ((bits v 22 8 ≠ s.rdi PORT_PV_CFG_n.ROW c ∨ bits v 0 11 ≠ s.rdi PORT_PV_CFG_n.VMIN c) → (t.pv c).bad = periodOf s.tm.n :: (s.pv c).bad)) ∧
  (∀ (s : State) (c : Fin 240) (v : Nat), s.pwr.mainOn = true → c.val < s.cellCount →
      (bits v 11 11 ≤ bits v 0 11 ∨ bits v 22 8 % chipTicks (s.act MIR_CFG.CHIPLEN) = 0 ∨ popcount8 (bits v 22 8) < 2 ∨
        s.rowTaken c (s.phaseOf c) (bits v 22 8) = true) →
    ∃ t, exec (.portPvCfgWrite c v) s = .next t ∧ t.rd PORT_GSTATUS.CFG_ERR = 1 ∧ t.law = s.law ∧
      t.rdi PORT_PV_CFG_n.ROW c = s.rdi PORT_PV_CFG_n.ROW c ∧ t.rdi PORT_PV_CFG_n.VMAX c = s.rdi PORT_PV_CFG_n.VMAX c) ∧
  (∀ (s : State) (c : Fin 240) (v : Nat), s.pwr.mainOn = true → c.val < s.cellCount →
    ∃ t, exec (.portPackWrite 0 c v) s = .next t ∧ t.rdi PORT_PACK_LIM_n.IDIS c = bits v 16 16 ∧ t.rdi PORT_PACK_LIM_n.ICHG c = bits v 0 16 ∧
      (s.enabled c = true → s.role c = 1 → (s.cell c).port.iLo ≤ (t.cell c).port.iLo ∧ (t.cell c).port.iHi ≤ (s.cell c).port.iHi) ∧
      (¬(s.enabled c = true ∧ s.role c = 1) → t.cells = s.cells)) ∧
  (∀ (s : State) (c : Fin 240) (v : Nat), s.pwr.mainOn = true → c.val < s.cellCount → bits v 24 8 < bits v 16 8 → bits v 16 8 ≤ 200 → 1 ≤ bits v 8 8 → bits v 8 8 ≤ 40 →
    ∃ t, exec (.portPackWrite 1 c v) s = .next t ∧ t.rdi PORT_PACK_WIN_n.SOC_MIN c = bits v 24 8 ∧ t.rdi PORT_PACK_WIN_n.SOC_MAX c = bits v 16 8 ∧
      t.rdi PORT_PACK_WIN_n.TAPER c = bits v 8 8 ∧
      (s.enabled c = true → s.role c = 1 → (s.cell c).port.iLo ≤ (t.cell c).port.iLo ∧ (t.cell c).port.iHi ≤ (s.cell c).port.iHi)) ∧
  (∀ (s : State) (c : Fin 240) (v : Nat), s.pwr.mainOn = true → c.val < s.cellCount → bits v 0 11 < bits v 16 11 →
    ∃ t, exec (.portPackWrite 2 c v) s = .next t ∧ t.rdi PORT_PACK_VLIM_n.VMAX c = bits v 16 11 ∧ t.rdi PORT_PACK_VLIM_n.VMIN c = bits v 0 11 ∧
      (s.enabled c = true → s.role c = 1 → (s.cell c).port.iLo ≤ (t.cell c).port.iLo ∧ (t.cell c).port.iHi ≤ (s.cell c).port.iHi)) ∧
  (∀ (s : State) (c : Fin 240) (v : Nat), s.pwr.mainOn = true → c.val < s.cellCount → 1 ≤ bits v 0 10 → bits v 0 10 ≤ 1000 →
    ∃ t, exec (.portPackWrite 3 c v) s = .next t ∧ t.rdi PORT_PACK_SOH_n.SOH c = bits v 0 10 ∧
      (s.enabled c = true → s.role c = 1 → (s.cell c).port.iLo ≤ (t.cell c).port.iLo ∧ (t.cell c).port.iHi ≤ (s.cell c).port.iHi))

/-- R227 to R234, R240, R243, R257: at a period boundary the tracker takes its configuration and V_op stays in its range, a step
waits for a later boundary and is not taken while held, scans are queued once, a scan goes down by STEP until VMIN, each point
with the ticks of its mean, and when its last report is in S1 takes the best point (`State.scanTake`, which S1 calls). -/
def Obligations.PanelTrackingCommands : Prop :=
  (∀ (s : State) (e : Nat), s.pwr.mainOn = true → s.tm.run = true → s.tm.phase = 0 → s.tm.n % 256 = 0 →
    ∃ t, exec (.ditherPeriodBoundary e) s = .next t ∧ t.regs = s.regs ∧ t.cells = s.cells ∧
      t.law.trkCfg = [s.act PORT_TRK_CFG.DAMP, s.act PORT_TRK_CFG.KG, s.act PORT_TRK_CFG.DELAY, s.act PORT_TRK_CFG.VSTEP,
        s.act PORT_TRK_CFG.DRIFT, s.act PORT_TRK_CFG.PMIN] ∧ t.lawC.trkCfg = t.law.trkCfg ∧
      ∀ c ∈ s.pvCells, (t.pv c).row = s.rdi PORT_PV_CFG_n.ROW c ∧ (t.pv c).vmin = s.rdi PORT_PV_CFG_n.VMIN c ∧
        (t.pv c).vmax = s.rdi PORT_PV_CFG_n.VMAX c ∧ (t.pv c).trk = s.biti PORT_PV_CFG_n.TRK_EN c ∧
        (t.pv c).vop = clampR ((t.pv c).vmin : Rat) ((t.pv c).vmax : Rat)
          (match (s.pv c).next.find? (fun y => y.1 == periodOf s.tm.n) with
            | some y => if (s.pv c).scan ≠ none ∨ s.pvHeld c (s.biti PORT_PV_CFG_n.TRK_EN c) = true then (s.pv c).vop else y.2
            | none => (s.pv c).vop)) ∧
  (∀ (s : State) (e : Nat), s.pwr.mainOn = true → s.tm.s1run = true →
      s.law.estimated < (s.tm.n - 257 - (s.law.trkCfg.getD 2 2 : Nat)) / 256 →
    ∃ t, exec (.trackerStep e) s = .next t ∧ t.law.estimated = (s.tm.n - 257 - (s.law.trkCfg.getD 2 2 : Nat)) / 256 ∧
      t.lawC = s.lawC ∧ t.regs = s.regs ∧ ∀ c, (t.pv c).vop = (s.pv c).vop ∧ (t.pv c).hold = (s.pv c).hold ∧
        (s.pv c).next <+: (t.pv c).next ∧
        ((s.pv c).bad.contains ((s.tm.n - 257 - (s.law.trkCfg.getD 2 2 : Nat)) / 256) = true → (t.pv c).next = (s.pv c).next)) ∧
  (∀ (s : State) (c : Fin 240) (e i : Nat), s.pwr.mainOn = true → s.enabled c = true → s.role c = 2 →
      (s.moveTo e).scanInstant c = some i → (s.pv c).due ≤ i → s.law.scanFrom ≤ i →
    ∃ t, exec (.scanPeriodicDue c e) s = .next t ∧ t.pv c = { s.pv c with
        queued := (s.pv c).queued || (s.pv c).scan == none, due := (s.moveTo e).tm.e + 1 } ∧ ∀ d, d ≠ c.val → t.pv d = s.pv d) ∧
  (∀ (s : State) (c : Nat), s.pwr.mainOn = true → c < 240 → s.enabled c = true → s.role c = 2 →
    ∃ t, exec (.portScanReq c) s = .next t ∧ t.pv c = { s.pv c with queued := (s.pv c).queued || (s.pv c).scan == none } ∧
      t.regs = s.regs ∧ ∀ d, d ≠ c → t.pv d = s.pv d) ∧
  (∀ (s : State) (c : Nat), s.pwr.mainOn = true → ¬(c < 240 ∧ s.enabled c = true ∧ s.role c = 2) →
    ∃ t, exec (.portScanReq c) s = .next t ∧ t.rd PORT_GSTATUS.CFG_ERR = 1 ∧ t.law = s.law) ∧
  (∀ (s : State), s.pwr.mainOn = true →
    ∃ t, exec .portScanAll s = .next t ∧ t.regs = s.regs ∧
      (∀ c ∈ s.pvCells, t.pv c = { s.pv c with queued := (s.pv c).queued || (s.pv c).scan == none }) ∧
      ∀ d, d ∉ s.pvCells → t.pv d = s.pv d) ∧
  (∀ (s : State) (c : Fin 240) (e : Nat) (k : ScanSt), s.pwr.mainOn = true → s.tm.s1run = true → (s.pv c).scan = some k → k.swept = false →
      k.start + s.act PORT_SCAN_CFG.DWELL ≤ s.tm.n + 1 →
    ∃ t, exec (.scanPointDone c e) s = .next t ∧ t.lawC = s.lawC ∧ t.regs = s.regs ∧ ∃ pts : List (Rat × Int × Int),
      pts = k.pts ++ [(k.v, k.start + ((s.act PORT_SCAN_CFG.DWELL - 3 * s.act PORT_SCAN_CFG.DWELL / 4 : Nat) : Int), s.tm.n)] ∧
      (((s.pv c).vmin : Rat) ≤ k.v - (s.act PORT_SCAN_CFG.STEP : Rat) / 200 * ((s.pv c).vmax : Rat) →
        t.pv c = { s.pv c with scan := some { k with pts := pts, start := s.tm.n + 1
                                                     v := k.v - (s.act PORT_SCAN_CFG.STEP : Rat) / 200 * ((s.pv c).vmax : Rat) } }) ∧
      (k.v - (s.act PORT_SCAN_CFG.STEP : Rat) / 200 * ((s.pv c).vmax : Rat) < ((s.pv c).vmin : Rat) →
        t.pv c = { s.pv c with scan := some { k with pts := pts, swept := true } })) ∧
  (∀ (s : State) (c : Fin 240) (k : ScanSt) (b : Rat × Rat), s.tm.s1run = true → (s.pv c).scan = some k → k.swept = true → k.pts = [] → k.best = some b →
    (s.scanTake c).pv c = { s.pv c with scan := none, vop := if 1005 / 1000 * k.ppre < b.2 then b.1 else k.vpre } ∧
    ∃ p, (s.scanTake c).tri.tb = s.tri.tb ++ [.ev 0x24 p])

/-- R263, R271, R290 to R293, R302, R307, R309, R315: the timers of a cell's join (a lapsed grant changes the service state at the next
boundary, `State.stateAct`), the resend of an AUX message, the count of a lane's lost
lock, the queue of join requests, and a cell declared lost. -/
def Obligations.LinkStateCommands : Prop :=
  (∀ (s : State) (c : Fin 240), s.pwr.mainOn = true → s.bit PWR_STATUS.SLEEP = false → s.lstate c = 2 → 16 ≤ (s.cell c).link.ticks →
      (s.cell c).link.tel.valid = false →
    (∃ t, exec (.grantLapse c) s = .next t ∧ t.lstate c = 1 ∧ t.sstate c = s.sstate c ∧
      t.cell c = { s.cell c with svc := { (s.cell c).svc with due := 3 } } ∧
      ∀ d, d ≠ c.val → t.cell d = s.cell d ∧ t.lstate d = s.lstate d ∧ t.sstate d = s.sstate d)) ∧
  (∀ (s : State) (c : Fin 240), (s.cell c).svc.due = 3 → (s.stateAct c).sstate c = (if s.biti JOIN_CELL_STATUS_n.HOLD c then 7 else 0)) ∧
  (∀ (s : State) (c : Fin 240), s.pwr.mainOn = true → s.bit PWR_STATUS.SLEEP = false → s.lstate c = 2 → 64 ≤ (s.cell c).link.delayA.length →
    ∃ t, exec (.delaysAccepted c) s = .next t ∧ t.lstate c = 3 ∧
      t.cell c = { s.cell c with link := { (s.cell c).link with ticks := 0 } } ∧
      ∀ d, d ≠ c.val → t.cell d = s.cell d ∧ t.lstate d = s.lstate d) ∧
  (∀ (s : State) (c : Fin 240), s.pwr.mainOn = true → s.bit PWR_STATUS.SLEEP = false → s.lstate c = 3 → 32 ≤ (s.cell c).link.ticks →
    ∃ t, exec (.alignTimeout c) s = .next t ∧ t.lstate c = 2 ∧
      t.cell c = { s.cell c with link := { (s.cell c).link with ticks := 0, delayA := [], delayB := [] } } ∧
      ∀ d, d ≠ c.val → t.cell d = s.cell d ∧ t.lstate d = s.lstate d) ∧
  (∀ (s : State) (c : Fin 240), s.pwr.mainOn = true → (s.cell c).link.aux.acked < (s.cell c).link.aux.cur.length →
      8 ≤ (s.cell c).link.aux.stall →
    ∃ t, exec (.auxResendTimeout c) s = .next t ∧ t.regs = s.regs ∧
      t.cell c = { s.cell c with link := { (s.cell c).link with aux := { (s.cell c).link.aux with
        next := (s.cell c).link.aux.acked, stall := 0 } } } ∧ ∀ d, d ≠ c.val → t.cell d = s.cell d) ∧
  (∀ (s : State) (l : Fin 32), s.pwr.mainOn = true →
    ∃ t, exec (.laneLockLoss l) s = .next t ∧ t.rdi LINK_LANE_ERR_l.LOCK l = min 255 (s.rdi LINK_LANE_ERR_l.LOCK l + 1) ∧
      (∀ k, k ≠ l.val → t.rdi LINK_LANE_ERR_l.LOCK k = s.rdi LINK_LANE_ERR_l.LOCK k) ∧
      t.rdi LINK_LANE_ERR_l.CODE l = s.rdi LINK_LANE_ERR_l.CODE l ∧ t.cells = s.cells) ∧
  (∀ (s : State) (r : Fin 16) (q : Fin 15) (l : Fin 2) (mk x : Code) (e : Nat), s.pwr.mainOn = true → s.ringOn r = true → s.rings.length = 16 →
      orderSet 4 mk x = some q.val →
      s.grantable (r.val * 15 + q.val) = true → s.bit PWR_STATUS.SLEEP = false →
    ∃ t, exec (.jrReceived r ⟨l, mk, x⟩ e) s = .next t ∧ (t.ring r).jrs.any (fun j => j.2 == r.val * 15 + q.val) = true ∧
      (s.lstate (r.val * 15 + q.val) = 0 ∨ s.lstate (r.val * 15 + q.val) = 6 → t.lstate (r.val * 15 + q.val) = 1) ∧ t.cells = s.cells) ∧
  (∀ (s : State) (r : Fin 16) (q : Fin 15) (l : Fin 2) (mk x : Code) (e : Nat), s.pwr.mainOn = true → s.ringOn r = true → orderSet 4 mk x = some q.val →
      s.grantable (r.val * 15 + q.val) = false → s.bit PWR_STATUS.SLEEP = false →
    ∃ t, exec (.jrReceived r ⟨l, mk, x⟩ e) s = .next t ∧ t.rings = s.rings ∧ t.cells = s.cells ∧
      t.rdi LINK_CELL_STATUS_n.JR_REFUSED (r.val * 15 + q.val) = min 15 (s.rdi LINK_CELL_STATUS_n.JR_REFUSED (r.val * 15 + q.val) + 1)) ∧
  (∀ (s : State) (r : Fin 16) (l : Fin 2) (mk x : Code) (e : Nat), s.pwr.mainOn = true → s.ringOn r = true →
    (∀ v, orderSet 4 mk x = some v → 15 ≤ v → exec (.jrReceived r ⟨l, mk, x⟩ e) s = .next (s.moveTo e)) ∧
    (orderSet 4 mk x = none → ∃ t, exec (.jrReceived r ⟨l, mk, x⟩ e) s = .next t ∧ t.rings = s.rings ∧ t.cells = s.cells ∧
      t.rdi LINK_LANE_ERR_l.CODE (laneOf r l) = min 255 (s.rdi LINK_LANE_ERR_l.CODE (laneOf r l) + 1))) ∧
  (∀ (s : State) (c : Fin 240), s.pwr.mainOn = true → s.enabled c = true → 2 ≤ s.lstate c → s.lstate c ≤ 5 →
      (s.lstate c = 2 → (s.cell c).link.tel.valid = true) → s.rd LINK_CFG.LOST_TICKS ≤ (s.cell c).link.missing → s.sstate c ≠ 9 →
    ∃ t, exec (.cellLost c) s = .next t ∧ t.lstate c = 6 ∧ t.sstate c = 9 ∧ t.biti JOIN_CELL_STATUS_n.HOLD c = true ∧
      s.hst.seqNo < t.hst.seqNo ∧ (t.cell c).svc.weight = 0 ∧ (t.cell c).link.aux.cur = [] ∧ t.rdi JOIN_CELL_STATUS_n.SPILL_CONF c = 0)

/-- R261, R294 to R299: GO_FULL shifts the rings in WADI, GO_WADI takes rings back when no cell of them is unblocked and is
refused otherwise; a shift that does not lock in 300 µs goes back to WADI; LINK_RING_EN and LINK_CFG writes; a wadi frame is
sent once its interval has passed. -/
def Obligations.LinkRateAndRingCommands : Prop :=
  (∀ (s : State) (m e : Nat) (r : Fin 16), s.pwr.mainOn = true → s.rings.length = 16 →
    ∃ t, exec (.linkGoFull m e) s = .next t ∧
      (bitOf m r = true ∧ s.ringOn r = true ∧ s.ringState r = 2 →
        t.ringState r = 3 ∧ (t.ring r).wkAt = (s.moveTo e).tm.e ∧ (∀ l, l < 2 → Out.link r l (thrice (wkCodes 1)) ∈ t.out)) ∧
      (¬(bitOf m r = true ∧ s.ringOn r = true ∧ s.ringState r = 2) → t.ringState r = s.ringState r ∧ t.ring r = s.ring r)) ∧
  (∀ (s : State) (m e : Nat) (r : Fin 16), s.pwr.mainOn = true → s.rings.length = 16 →
      (maskRings m).all (fun q => s.ringBlocked q) = true →
    ∃ t, exec (.linkGoWadi m e) s = .next t ∧
      (bitOf m r = true ∧ s.ringOn r = true ∧ s.ringState r = 4 →
        t.ringState r = 2 ∧ (t.ring r).wadiAt = (s.moveTo e).tm.e ∧ (∀ l, l < 2 → Out.link r l (thrice (wkCodes 2)) ∈ t.out)) ∧
      (¬(bitOf m r = true ∧ s.ringOn r = true ∧ s.ringState r = 4) → t.ringState r = s.ringState r ∧ t.ring r = s.ring r)) ∧
  (∀ (s : State) (m e : Nat), s.pwr.mainOn = true → (maskRings m).all (fun q => s.ringBlocked q) = false →
    ∃ t, exec (.linkGoWadi m e) s = .next t ∧ t.rdi LINK_RING_STATUS_r.CFG_ERR 0 = 1 ∧ t.rings = s.rings ∧
      ∀ r, t.ringState r = s.ringState r) ∧
  (∀ (s : State) (r : Fin 16) (e : Nat), s.pwr.mainOn = true → s.rings.length = 16 → s.ringState r = 3 →
      (s.ring r).wkAt + 300000 ≤ (s.moveTo e).tm.e →
    ∃ t, exec (.rateChangeTimeout r e) s = .next t ∧ t.ringState r = 2 ∧ (t.ring r).wadiAt = (s.moveTo e).tm.e) ∧
  (∀ (s : State) (r : Fin 16) (e : Nat), s.pwr.mainOn = true → s.rings.length = 16 → s.stage = 3 →
      s.bit PWR_STATUS.SLEEP = false → s.ringOn r = true → s.ringState r = 2 →
      ((s.plant.filter (fun c => ringOf c == r)).all (fun c => s.lstate c == 5) = true ∨ (s.ring r).wadiAt + 10000000000 ≤ (s.moveTo e).tm.e) →
    ∃ t, exec (.autoFullRate r e) s = .next t ∧ t.ringState r = 3 ∧ (t.ring r).wkAt = (s.moveTo e).tm.e ∧ (∀ l, l < 2 → Out.link r l (thrice (wkCodes 1)) ∈ t.out)) ∧
  (∀ (s : State) (r : Fin 16) (e : Nat), s.pwr.mainOn = true → s.rings.length = 16 → s.ringOn r = true →
    ∃ t, exec (.codeGroupLock r e) s = .next t ∧
      (s.ringState r = 1 → t.ringState r = 2 ∧ (t.ring r).wadiAt = (s.moveTo e).tm.e ∧ t.cells = s.cells) ∧
      (s.ringState r = 3 → (s.moveTo e).tm.e ≤ (s.ring r).wkAt + 300000 → t.ringState r = 4 ∧ (t.ring r).fullAt = (s.moveTo e).tm.e) ∧
      (s.ringState r = 3 → (s.ring r).wkAt + 300000 < (s.moveTo e).tm.e → t.ringState r = 2 ∧ (t.ring r).wadiAt = (s.moveTo e).tm.e)) ∧
  (∀ (s : State) (v e : Nat) (r : Fin 16), s.pwr.mainOn = true → s.rings.length = 16 →
      (∀ q, s.ringBlocked q = true) →
    ∃ t, exec (.linkRingEnWrite v e) s = .next t ∧ t.rd LINK_RING_EN.EN = v % 2 ^ s.ringCount ∧
      (bitOf (v % 2 ^ s.ringCount) r = true → bitOf (s.rd LINK_RING_EN.EN) r = false →
        t.ringState r = 1 ∧ t.rdi LINK_RING_STATUS_r.PRI r = 2 ∧ t.rdi LINK_RING_STATUS_r.SEC r = 2 ∧ t.rdi LINK_RING_STATUS_r.NODES r = 0) ∧
      (bitOf (v % 2 ^ s.ringCount) r = false → bitOf (s.rd LINK_RING_EN.EN) r = true → t.ringState r = 0) ∧
      (bitOf (v % 2 ^ s.ringCount) r = bitOf (s.rd LINK_RING_EN.EN) r → t.ringState r = s.ringState r ∧ t.ring r = s.ring r)) ∧
  (∀ (s : State) (v : Nat), s.pwr.mainOn = true → 2 ≤ bits v 24 5 → 2 ≤ bits v 20 4 → 2 ≤ bits v 16 4 →
      s.rd CLK_TICK_CFG.OVERRUN_LIMIT < bits v 24 5 →
    ∃ t, exec (.linkCfgWrite v) s = .next t ∧ t.rd LINK_CFG.STARVE_TICKS = bits v 24 5 ∧ t.rd LINK_CFG.LOST_TICKS = bits v 20 4 ∧
      t.rd LINK_CFG.LOOP_DOWN = bits v 16 4) ∧
  (∀ (s : State) (v : Nat), s.pwr.mainOn = true → 2 ≤ bits v 24 5 → 2 ≤ bits v 20 4 → 2 ≤ bits v 16 4 →
      bits v 24 5 ≤ s.rd CLK_TICK_CFG.OVERRUN_LIMIT →
    ∃ t, exec (.linkCfgWrite v) s = .next t ∧ t.rd CLK_TICK_STATUS.CFG_ERR = 1 ∧ t.rd LINK_CFG.STARVE_TICKS = s.rd LINK_CFG.STARVE_TICKS) ∧
  (∀ (s : State) (r : Fin 16) (e : Nat), s.pwr.mainOn = true → s.rings.length = 16 → s.wadiRate r = true →
      (s.ring r).wadiTx + (if s.stage = 3 ∧ s.bit PWR_STATUS.SLEEP = false then 1 else s.rd LINK_WADI_CFG.INTERVAL) * 1000000 ≤ (s.moveTo e).tm.e →
    ∃ t, exec (.wadiFrameDue ⟨r, .all⟩ e) s = .next t ∧ (t.ring r).wadiTx = (s.moveTo e).tm.e ∧
      ∃ (h : FrameHdr) (slots : List Cmd), slots.length = 15 ∧ h.kind = .wadi ∧ h.ring = r.val ∧ h.period = 0 ∧ h.launchOfs = 0 ∧ h.compact = false ∧
        h.execTick = (s.moveTo e).nextTick ∧ h.elapsed = ((s.moveTo e).header r).elapsed ∧
        ∀ l, l < 2 → Out.link r l (frameCodes h.ty (framePayload h l slots)) ∈ t.out)

/-- FRAME_RETURN and TR_RECEIVED (R262, R263, R279, R282, R285, R302, R306, R313, R397): a copy that comes back late is
counted in LATE and discarded, one that is not good is counted in CRC; a good copy in time shows its loop's return, clean or
folded, and the telemetry of a valid slot whose copy ranks below the one taken so far is taken in; a /TR/ of a cell cause is
logged and blocks the cell, one of a plant cause acts with its route; one repeated within 64 ns, of cause 7 or of position
15 has no effect, and one whose value is not valid is counted in CODE. -/
def Obligations.FrameReturnAndTripCommands : Prop :=
  (∀ (s : State) (r : Fin 16) (l : Fin 2) (f : FrameIn) (e : Nat), s.pwr.mainOn = true → s.ringOn r = true → s.fullRate r = true → f.good = true →
      ¬(s.tm.run = true ∧ s.tm.phase = 4 ∧ (s.moveTo e).tm.e ≤ s.deadline 4 ∧ f.execTick = s.tm.sent) →
    ∃ t, exec (.frameReturn r l f e) s = .next t ∧ t.rings = s.rings ∧ t.cells = s.cells ∧
      t.rdi LINK_LANE_ERR_l.LATE (laneOf r l) = min 255 (s.rdi LINK_LANE_ERR_l.LATE (laneOf r l) + 1) ∧
      t.rdi LINK_LANE_ERR_l.CODE (laneOf r l) = min 255 (s.rdi LINK_LANE_ERR_l.CODE (laneOf r l) + f.codeErrs)) ∧
  (∀ (s : State) (r : Fin 16) (l : Fin 2) (f : FrameIn) (e : Nat), s.pwr.mainOn = true → s.ringOn r = true →
      (s.ringState r = 2 ∨ s.ringState r = 4 ∨ s.ringState r = 5) → f.good = false → s.rings.length = 16 →
    ∃ t, exec (.frameReturn r l f e) s = .next t ∧ t.ring r = { s.ring r with good := (s.ring r).good.set l 0 } ∧ t.cells = s.cells ∧
      t.rdi LINK_LANE_ERR_l.CRC (laneOf r l) = min 255 (s.rdi LINK_LANE_ERR_l.CRC (laneOf r l) + 1)) ∧
  (∀ (s : State) (r : Fin 16) (l : Fin 2) (f : FrameIn) (e : Nat), s.pwr.mainOn = true → s.ringOn r = true →
      (s.ringState r = 2 ∨ s.ringState r = 4 ∨ s.ringState r = 5) → f.good = true → s.rings.length = 16 →
      (s.fullRate r = true → s.tm.run = true ∧ s.tm.phase = 4 ∧ (s.moveTo e).tm.e ≤ s.deadline 4 ∧ f.execTick = s.tm.sent) →
    ∃ t, exec (.frameReturn r l f e) s = .next t ∧
      (f.wrapped = false → f.loop = l.val → t.ring r = { s.ring r with
        gotAny := (s.ring r).gotAny.set l true, gotClean := (s.ring r).gotClean.set l true,
        hop := (s.ring r).hop.set l f.hop, trip := (s.ring r).trip.set l f.roundTrip }) ∧
      (f.wrapped = true ∨ f.loop ≠ l.val → t.ring r = { s.ring r with gotAny := (s.ring r).gotAny.set f.loop true }) ∧
      (f.wrapped = true → t.rdi LINK_RING_STATUS_r.WRAP_POS r = f.wrapPos % 16) ∧
      ∀ (q : Fin 15), f.compact = false → (f.slot q).1.valid = true → (∀ x, x < q.val → (f.slot x).1.valid = false) →
        s.enabled (r * 15 + q) = true → 2 ≤ s.lstate (r * 15 + q) → s.lstate (r * 15 + q) ≤ 5 →
        (if f.wrapped = false ∧ f.loop = l.val then l.val else 2) < (s.cell (r * 15 + q)).link.rank →
        (t.cell (r * 15 + q)).link.tel = (f.slot q).1 ∧
        (t.cell (r * 15 + q)).link.rank = (if f.wrapped = false ∧ f.loop = l.val then l.val else 2) ∧
        (t.cell (r * 15 + q)).link.missing = 0) ∧
  (∀ (s : State) (r : Fin 16) (l : Fin 2) (mk x : Code) (v e : Nat), s.pwr.mainOn = true → s.ringOn r = true → orderSet 0 mk x = some v → v % 16 ≠ 15 →
      (∀ y ∈ (s.ring r).lastTr, y.1 / 2 ≠ v % 16) →
    (v / 16 < 4 → ∃ t, exec (.trReceived r l mk x e) s = .next t ∧ t.rd LINK_TRIP_LOG.RING = r ∧ t.rd LINK_TRIP_LOG.POS = v % 16 ∧
      t.rd LINK_TRIP_LOG.CAUSE = v / 16 ∧ t.rd LINK_TRIP_LOG.LOOP = l ∧ (t.cell (r * 15 + v % 16)).svc.blk = true) ∧
    (v / 16 = 4 ∨ v / 16 = 5 ∨ v / 16 = 6 → ∃ t, exec (.trReceived r l mk x e) s = .next t ∧ t.rd LINK_TRIP_LOG.RING = r ∧
      t.rd LINK_TRIP_LOG.POS = v % 16 ∧ t.rd LINK_TRIP_LOG.CAUSE = v / 16 ∧ t.rd LINK_TRIP_LOG.LOOP = l ∧
      (1 ≤ s.rd (if v / 16 = 4 then SLC_TR_ROUTE.CAUSE4 else if v / 16 = 5 then SLC_TR_ROUTE.CAUSE5 else SLC_TR_ROUTE.CAUSE6) →
        t.rd SLC_TRIP_LATCH.RING_TR = 1))) ∧
  (∀ (s : State) (r : Fin 16) (l : Fin 2) (mk x : Code) (v e : Nat), s.pwr.mainOn = true → s.ringOn r = true → orderSet 0 mk x = some v →
      v / 16 = 7 ∨ v % 16 = 15 ∨ (∃ y ∈ (s.ring r).lastTr, y.1 = 2 * (v % 16) + l.val ∧ (s.moveTo e).tm.e ≤ y.2.2 + 64) →
    exec (.trReceived r l mk x e) s = .next (s.moveTo e)) ∧
  (∀ (s : State) (r : Fin 16) (l : Fin 2) (mk x : Code) (e : Nat), s.pwr.mainOn = true → s.ringOn r = true → orderSet 0 mk x = none →
    ∃ t, exec (.trReceived r l mk x e) s = .next t ∧ t.rings = s.rings ∧ t.cells = s.cells ∧
      t.rdi LINK_LANE_ERR_l.CODE (laneOf r l) = min 255 (s.rdi LINK_LANE_ERR_l.CODE (laneOf r l) + 1))

/-- LOOP_DOWN and LOOP_UP (R282, R283): LOOP_DOWN frame intervals without a good copy put a loop DOWN, and with both loops
DOWN the ring in FAILED; 64 good returns take the loop UP, and a FAILED ring back to the state before. -/
def Obligations.LoopDownAndUpCommands : Prop :=
  (∀ (s : State) (r : Fin 16) (l : Fin 2), s.pwr.mainOn = true → s.ringOn r = true →
      s.rd LINK_CFG.LOOP_DOWN ≤ (s.ring r).bad.getD l 0 → s.rings.length = 16 →
    ∃ t, exec (.loopDown r l) s = .next t ∧ t.rdi (loopField l) r = 2 ∧
      (s.rdi (loopField (1 - l.val)) r = 2 → (s.ringState r = 2 ∨ s.ringState r = 3 ∨ s.ringState r = 4) →
        t.ringState r = 5 ∧ (t.ring r).before = (if s.ringState r = 4 then 4 else 2)) ∧
      (s.rdi (loopField (1 - l.val)) r ≠ 2 → t.ringState r = s.ringState r ∧ t.cells = s.cells)) ∧
  (∀ (s : State) (r : Fin 16) (l : Fin 2), s.pwr.mainOn = true → s.ringOn r = true → 64 ≤ (s.ring r).good.getD l 0 → (s.ring r).before < 8 →
    ∃ t, exec (.loopUp r l) s = .next t ∧ t.rdi (loopField l) r = 0 ∧ t.cells = s.cells ∧
      t.ringState r = (if s.ringState r = 5 then (s.ring r).before else s.ringState r))

/-- R344, R345, R350, R352, R358, R367, R368, R370, R372 to R374, R379 to R381: what the configuration commands of acquisition
write, what they refuse, and how a queue is emptied, armed or started. -/
def Obligations.AcquisitionConfiguration : Prop :=
  (∀ (s : State) (q : Fin 8) (v : Nat), s.pwr.mainOn = true →
      (bits v 29 2 = 3 ∨ bits v 0 13 = 0 ∨ 4095 < bits v 0 13 ∨ s.rdi RING_CFG_n.TYPE (bits v 22 6) ≠ 3) →
    ∃ t, exec (.adcQCfgWrite q v) s = .next t ∧ t.rd ADC_STATUS.CFG_ERR = 1 ∧ t.adc = s.adc ∧
      t.rdi ADC_Q_CFG_q.EN q = s.rdi ADC_Q_CFG_q.EN q ∧ t.rdi ADC_Q_CFG_q.MODE q = s.rdi ADC_Q_CFG_q.MODE q ∧ t.qstate q = s.qstate q) ∧
  (∀ (s : State) (q : Fin 8) (v : Nat), s.pwr.mainOn = true → bits v 29 2 ≠ 3 → 1 ≤ bits v 0 13 → bits v 0 13 ≤ 4095 →
      s.rdi RING_CFG_n.TYPE (bits v 22 6) = 3 → s.adc.queues.length = 8 →
    ∃ t, exec (.adcQCfgWrite q v) s = .next t ∧ t.rdi ADC_Q_CFG_q.EN q = bits v 31 1 ∧ t.rdi ADC_Q_CFG_q.MODE q = bits v 29 2 ∧
      t.rdi ADC_Q_CFG_q.DRAIN q = bits v 28 1 ∧ t.rdi ADC_Q_CFG_q.RING q = bits v 22 6 ∧ t.rdi ADC_Q_CFG_q.POST q = bits v 0 13 ∧
      (bits v 31 1 = 0 → t.qstate q = 0 ∧ t.queue q = QSt.empty s.tm.e) ∧
      (bits v 31 1 = 1 → s.biti ADC_Q_CFG_q.EN q = false →
        t.qstate q = (if bits v 29 2 = 2 then 2 else 1) ∧ t.queue q = QSt.empty s.tm.e)) ∧
  (∀ (s : State) (q : Fin 8), s.pwr.mainOn = true →
    ∃ t, exec (.captureArm q) s = .next t ∧
      ((s.qRun q s.tm.e).qstate q = 5 ∧ s.biti ADC_Q_CFG_q.EN q = true →
        t.qstate q = 2 ∧ t.rdi ADC_Q_STATUS_q.TRUNC q = 0 ∧ t.adc = (s.qRun q s.tm.e).adc) ∧
      (¬((s.qRun q s.tm.e).qstate q = 5 ∧ s.biti ADC_Q_CFG_q.EN q = true) → t = s.qRun q s.tm.e)) ∧
  (∀ (s u : State) (v e : Nat), s.pwr.mainOn = true → u = (s.moveTo e).cmpLook →
    ∃ t, exec (.cmpLatchClear v e) s = .next t ∧ t.rd CMP_STATUS.LIVE = u.rd CMP_STATUS.LIVE ∧ ∀ n : Fin 16,
      bitOf (t.rd CMP_STATUS.LATCH) n = (bitOf (u.rd CMP_STATUS.LATCH) n &&
        !(bitOf v n && s.rdi CMP_CFG_n.CLR n == 0 && !bitOf u.slc.live n &&
          !(u.cmp n).setAt.any (fun x => decide (x / 4 = (s.moveTo e).tm.e / 4))))) ∧
  (∀ (s : State) (n : Fin 16) (v : Nat), s.pwr.mainOn = true →
    ∃ t, exec (.cmpCfgWrite n true v) s = .next t ∧ t.rdi CMP_RAMP_n.SLOPE n = bits v 0 16 ∧
      (∀ m : Fin 16, bitOf (s.rd CMP_STATUS.LATCH) m = true → bitOf (t.rd CMP_STATUS.LATCH) m = true) ∧
      ((s.cmp n).raw = bitOf s.slc.live n → s.rdi CMP_CFG_n.MODE n ≠ 0 → 1 ≤ s.rdi CMP_CFG_n.FILT n →
        t.rd CMP_STATUS.LATCH = s.rd CMP_STATUS.LATCH ∧ t.slc = s.slc)) ∧
  (∀ (s : State) (n : Fin 16) (v : Nat), s.pwr.mainOn = true → bits v 23 5 ≤ 16 →
    ∃ t, exec (.cmpCfgWrite n false v) s = .next t ∧ t.rdi CMP_CFG_n.MODE n = bits v 30 2 ∧ t.rdi CMP_CFG_n.RAMP n = bits v 29 1 ∧
      t.rdi CMP_CFG_n.CLR n = bits v 28 1 ∧ t.rdi CMP_CFG_n.PERIOD_SRC n = bits v 23 5 ∧ t.rdi CMP_CFG_n.FILT n = bits v 20 3 ∧
      t.rdi CMP_CFG_n.HYS n = bits v 18 2 ∧ t.rdi CMP_CFG_n.REF n = bits v 0 8 ∧
      (∀ m : Fin 16, bitOf (s.rd CMP_STATUS.LATCH) m = true → bitOf (t.rd CMP_STATUS.LATCH) m = true) ∧
      (bits v 30 2 = 0 → bitOf t.slc.live n = false) ∧
      ((s.cmp n).raw = bitOf s.slc.live n → (bits v 30 2 = 0 ∨ 1 ≤ bits v 20 3) → t.rd CMP_STATUS.LATCH = s.rd CMP_STATUS.LATCH) ∧
      ((s.cmp n).raw = bitOf s.slc.live n → bits v 30 2 ≠ 0 → 1 ≤ bits v 20 3 → t.slc = s.slc)) ∧
  (∀ (s : State) (n : Fin 16) (v : Nat), s.pwr.mainOn = true → 16 < bits v 23 5 →
    ∃ t, exec (.cmpCfgWrite n false v) s = .next t ∧ t.rd ADC_STATUS.CFG_ERR = 1 ∧ t.slc = s.slc ∧
      t.rdi CMP_CFG_n.MODE n = s.rdi CMP_CFG_n.MODE n ∧ t.rdi CMP_CFG_n.PERIOD_SRC n = s.rdi CMP_CFG_n.PERIOD_SRC n) ∧
  (∀ (s : State) (n : Fin 16) (v : Nat), s.pwr.mainOn = true → bits v 24 5 ≤ 16 → bits v 22 2 ≠ 3 →
      (1 ≤ bits v 24 5 → bits v 24 5 ≤ 15 → 1 ≤ bits v 0 16 ∧ ∀ m : Fin 16, m ≠ n → s.rdi ADC_CH_CFG_n.FUNC m ≠ bits v 24 5) →
      (s.allBlocked = true ∨ s.rdi ADC_CH_CFG_n.FUNC n = 0 ∨ 16 ≤ s.rdi ADC_CH_CFG_n.FUNC n) →
    ∃ t, exec (.adcChCfgWrite n v) s = .next t ∧ t.rdi ADC_CH_CFG_n.EN n = bits v 31 1 ∧ t.rdi ADC_CH_CFG_n.RANGE n = bits v 30 1 ∧
      t.rdi ADC_CH_CFG_n.TEST n = bits v 29 1 ∧ t.rdi ADC_CH_CFG_n.FUNC n = bits v 24 5 ∧ t.rdi ADC_CH_CFG_n.TESTLVL n = bits v 22 2 ∧
      t.rdi ADC_CH_CFG_n.FS n = bits v 0 16 ∧ ∀ m, m ≠ n.val → t.rdi ADC_CH_CFG_n.FUNC m = s.rdi ADC_CH_CFG_n.FUNC m) ∧
  (∀ (s : State) (n : Fin 16) (v : Nat), s.pwr.mainOn = true →
      (16 < bits v 24 5 ∨ bits v 22 2 = 3 ∨ (1 ≤ bits v 24 5 ∧ bits v 24 5 ≤ 15 ∧ (bits v 0 16 = 0 ∨
        ∃ m : Fin 16, m ≠ n ∧ s.rdi ADC_CH_CFG_n.FUNC m = bits v 24 5))) →
    ∃ t, exec (.adcChCfgWrite n v) s = .next t ∧ t.rd ADC_STATUS.CFG_ERR = 1 ∧ ∀ m, t.rdi ADC_CH_CFG_n.FUNC m = s.rdi ADC_CH_CFG_n.FUNC m) ∧
  (∀ (s : State) (n : Fin 16) (v : Nat), s.pwr.mainOn = true →
    ∃ t, exec (.adcChCalWrite n v) s = .next t ∧ t.adc = s.adc ∧
      (8192 ≤ bits v 16 16 ∧ bits v 16 16 ≤ 32767 → t.rdi ADC_CH_CAL_n.GAIN n = bits v 16 16 ∧ t.rdi ADC_CH_CAL_n.OFFSET n = bits v 0 16) ∧
      (bits v 16 16 < 8192 ∨ 32767 < bits v 16 16 → t.rd ADC_STATUS.CFG_ERR = 1 ∧ t.rdi ADC_CH_CAL_n.GAIN n = s.rdi ADC_CH_CAL_n.GAIN n ∧
        t.rdi ADC_CH_CAL_n.OFFSET n = s.rdi ADC_CH_CAL_n.OFFSET n)) ∧
  (∀ (s : State) (v : Nat), s.pwr.mainOn = true →
    ∃ t, exec (.adcCtlCfgWrite v) s = .next t ∧
      (bits v 29 3 ≠ 7 ∧ bits v 0 13 + 430 ≤ s.rdi CLK_TICK_DEADLINE_n.DEADLINE 0 * 10 →
        t.rd ADC_CTL_CFG.NAVG = bits v 29 3 ∧ t.rd ADC_CTL_CFG.DELAY = bits v 0 13) ∧
      (bits v 29 3 = 7 ∨ s.rdi CLK_TICK_DEADLINE_n.DEADLINE 0 * 10 < bits v 0 13 + 430 →
        t.rd ADC_STATUS.CFG_ERR = 1 ∧ t.rd ADC_CTL_CFG.NAVG = s.rd ADC_CTL_CFG.NAVG ∧ t.rd ADC_CTL_CFG.DELAY = s.rd ADC_CTL_CFG.DELAY)) ∧
  (∀ (s : State) (n : Fin 16), s.pwr.mainOn = true →
    ∃ t, exec (.adcCalConverged n) s = .next t ∧ ∀ m : Fin 16,
      bitOf (t.rd ADC_STATUS.CAL_DONE) m = (bitOf (s.rd ADC_STATUS.CAL_DONE) m || decide (n = m))) ∧
  (∀ (s : State) (v e : Nat), s.pwr.mainOn = true →
    ∃ t, exec (.adcSwTrig v e) s = .next t ∧ t.regs = s.regs ∧ (s.bit PWR_STATUS.SLEEP = true → t.adc = s.adc) ∧
      (s.bit PWR_STATUS.SLEEP = false → t.adc.fire =
        s.adc.fire.filter (fun x => decide ((s.moveTo e).tm.e ≤ x.2 + 65536)) ++
        ((List.range 16).filter (fun n => s.biti ADC_TRIG_CFG_t.EN n && (bitOf v n && s.rdi ADC_TRIG_CFG_t.SRC n == 5))).map
          (fun n => (n, (s.moveTo e).tm.e))))

/-- R346, R347, R352, R354, R355, R358, R359, R362, R363, R365 to R367: what a firing puts into its queue, when it is missed, what the
partial burst of a queue and a capture event do, what an active comparator shows, and what a housekeeping round brings. -/
def Obligations.AcquisitionEvents : Prop :=
  (∀ (s : State) (n : Fin 16) (x : Stream) (e : Nat), s.pwr.mainOn = true → (s.moveTo e).trigDue n e = true →
      x.edges.getD (firstEdge x e) (e + 16) < e + 16 → e < s.adc.busy.getD n 0 →
    ∃ t, exec (.triggerFire n x e) s = .next t ∧ t.rd ADC_STATUS.TRIG_MISS = min 255 (s.rd ADC_STATUS.TRIG_MISS + 1) ∧
      t.adc.queues = s.adc.queues) ∧
  (∀ (s : State) (n : Fin 16) (x : Stream) (e : Nat),
      ((s.moveTo e).trigDue n e = false ∨ e + 16 ≤ x.edges.getD (firstEdge x e) (e + 16)) → s.pwr.mainOn = true →
    exec (.triggerFire n x e) s = .next (s.moveTo e)) ∧
  (∀ (s : State) (n : Fin 16) (x : Stream) (e i a k : Nat), s.pwr.mainOn = true → s.tm.e ≤ e → (s.moveTo e).trigDue n e = true →
      x.wf = true → i = firstEdge x e → x.edges.getD i (e + 16) < e + 16 → s.adc.busy.getD n 0 ≤ e →
      a = 2 ^ s.rdi ADC_TRIG_CFG_t.AVG n → k = min (s.rdi ADC_TRIG_CFG_t.BURST n) ((x.edges.length - i) / a) →
      (∀ m : Fin 16, s.rdi CMP_CFG_n.PERIOD_SRC m = n →
        s.rdi CMP_CFG_n.MODE m = 0 ∧ (s.cmp m).raw = false ∧ bitOf s.slc.live m = false) →
      s.adc.queues.length = 8 → s.rdi ADC_TRIG_CFG_t.QUEUE n < 8 → s.qstate (s.rdi ADC_TRIG_CFG_t.QUEUE n) = 1 →
      s.biti ADC_Q_CFG_q.DRAIN (s.rdi ADC_TRIG_CFG_t.QUEUE n) = false →
      (s.queue (s.rdi ADC_TRIG_CFG_t.QUEUE n)).ingress = [] → (s.queue (s.rdi ADC_TRIG_CFG_t.QUEUE n)).arr = [] →
    ∃ t, exec (.triggerFire n x e) s = .next t ∧
      (t.queue (s.rdi ADC_TRIG_CFG_t.QUEUE n)).ents = (s.queue (s.rdi ADC_TRIG_CFG_t.QUEUE n)).ents ∧
      (t.queue (s.rdi ADC_TRIG_CFG_t.QUEUE n)).ingress = [] ∧
      (t.queue (s.rdi ADC_TRIG_CFG_t.QUEUE n)).arr = (List.range k).flatMap (fun g =>
        ((List.range 16).filter (fun c => bitOf (s.rdi ADC_TRIG_SEL_t.MASK n) c && s.biti ADC_CH_CFG_n.EN c)).map (fun c =>
          (x.edges.getD (i + g * a) 0 + resultAfter a,
            ⟨0, x.edges.getD (i + g * a) 0, (s.codesAt x c (i + g * a) a).any clipped, false, s.calPending, n, c,
              s.sampleOf c (s.codesAt x c (i + g * a) a)⟩)))) ∧
  (∀ (s : State) (q : Fin 8) (e f : Nat) (b : Buf), s.pwr.mainOn = true → s.adc.queues.length = 8 → s.qstate q = 1 →
      s.drains q = true → (s.queue q).ingress = [] → (s.queue q).arr = [] → (s.queue q).ents.length < 64 → (s.queue q).firstAt = some f →
      f + 100000 ≤ (s.moveTo e).tm.e → s.bufFor q = some b → b.filled + 8 * (s.queue q).ents.length < b.len →
    ∃ t, exec (.queueBurstTimeout q e) s = .next t ∧ (t.queue q).ents = [] ∧ (t.queue q).firstAt = none ∧
      t.rdi ADC_Q_STATUS_q.FILL q = 0 ∧
      t.hst.bufs = s.hst.bufs.map (fun y => if y.d = b.d then
        { b with filled := b.filled + 8 * (s.queue q).ents.length, queue := q, loss := b.loss || (s.queue q).ents.any (fun x => x.loss),
                 firstAt := some (b.firstAt.getD (s.moveTo e).tm.e) } else y)) ∧
  (∀ (s u : State) (h : DescHdr) (d : Desc) (m : Nat) (q : Fin 8), s.pwr.mainOn = true → s.startDesc h 0x07 = .go d u →
      s.rdi RING_CFG_n.TYPE h.ring = 0 → s.ringWaits h.ring = true →
    ∃ t, exec (.capture h m) s = .next t ∧ t.hst.waits = s.hst.waits ++ [.capture d m] ∧ t.qstate q = s.qstate q ∧
      t.hst.comps = s.hst.comps) ∧
  (∀ (s u : State) (h : DescHdr) (d : Desc) (m : Nat) (q : Fin 8), s.pwr.mainOn = true → s.startDesc h 0x07 = .go d u →
      s.rdi RING_CFG_n.TYPE h.ring = 0 → s.ringWaits h.ring = false → s.rd CLK_TICK_STATUS.SHED_LEVEL < 4 →
    ∃ t, exec (.capture h m) s = .next t ∧
      (s.qstate q = 2 ∧ bitOf m q = true ∧ s.biti ADC_Q_CAP_q.HOST q = true → t.qstate q = 3) ∧
      (¬(s.qstate q = 2 ∧ bitOf m q = true ∧ s.biti ADC_Q_CAP_q.HOST q = true) → t.qstate q = s.qstate q) ∧
      ∃ x, t.hst.comps = s.hst.comps ++ [x] ∧ x.status = 0 ∧ x.tag = h.tag) ∧
  (∀ (s u : State) (n : Fin 16) (x : Int) (e : Nat), s.pwr.mainOn = true → s.adc.cmp.length = 16 → s.rdi CMP_CFG_n.FILT n = 0 →
      s.biti CMP_CFG_n.RAMP n = false → s.adc.dacCorr.getD n 0 = 0 → u = (s.moveTo e).cmpLook → (u.cmp n).raw = false →
      bitOf u.slc.live n = false →
    ∃ t, exec (.comparatorActive n x e) s = .next t ∧ (t.cmp n).input = x ∧
      (bitOf t.slc.live n = true ↔ s.rdi CMP_CFG_n.MODE n = 1 ∧ s.rdsi CMP_CFG_n.REF n * 64 < x ∨
        s.rdi CMP_CFG_n.MODE n = 2 ∧ x < s.rdsi CMP_CFG_n.REF n * 64 ∨
        s.rdi CMP_CFG_n.MODE n = 3 ∧ (s.rdsi CMP_CFG_n.REF n * 64).natAbs < x.natAbs) ∧
      (bitOf t.slc.live n = false → t.rd CMP_STATUS.LATCH = u.rd CMP_STATUS.LATCH) ∧
      (bitOf t.slc.live n = true → bitOf (t.rd CMP_STATUS.LIVE) n = true ∧ bitOf (t.rd CMP_STATUS.LATCH) n = true ∧
        (u.blanked n = false → 1 ≤ s.rdi SLC_CMP_ROUTE_n.ACTION n →
          s.rdi SLC_CMP_ROUTE_n.PHASE n ≤ 2 → u.rd SLC_BLOCK_STATUS.PHASES < 8 →
          bitOf (t.rd SLC_TRIP_LATCH.CMP) n = true))) ∧
  (∀ (s u : State) (n : Fin 16) (x : Int) (e : Nat), s.pwr.mainOn = true → s.adc.cmp.length = 16 → u = (s.moveTo e).cmpLook →
      (u.cmp n).raw = bitOf u.slc.live n →
    ∃ t, exec (.comparatorActive n x e) s = .next t ∧ (t.cmp n).input = x ∧
      (1 ≤ s.rdi CMP_CFG_n.FILT n → t.slc = u.slc ∧ t.rd CMP_STATUS.LATCH = u.rd CMP_STATUS.LATCH ∧
        (t.cmp n).raw = (u.updCmp n (fun y => { y with input := x })).cmpIs n) ∧
      (s.rdi CMP_CFG_n.FILT n = 0 →
        bitOf t.slc.live n = (u.updCmp n (fun y => { y with input := x })).cmpIs n)) ∧
  (∀ (s : State) (n : Fin 16) (x : Int) (e : Nat), s.pwr.mainOn = true → s.adc.cmp.length = 16 → (s.cmp n).raw = true →
      bitOf s.slc.live n = false → (s.cmp n).rawAt + s.rdi CMP_CFG_n.FILT n * 4 ≤ (s.moveTo e).tm.e →
    ∃ t, exec (.comparatorActive n x e) s = .next t ∧ bitOf (t.rd CMP_STATUS.LATCH) n = true) ∧
  (∀ (s : State) (e : Nat), s.pwr.mainOn = true → s.adc.hkAt + s.rd ADC_HK_CFG.PERIOD * 1000 ≤ (s.moveTo e).tm.e →
      (s.tm.run = true → (s.moveTo e).tm.e = s.tm.start) →
    ∃ t, exec (.hkRoundStart e) s = .next t ∧ t.adc.hkRun = true ∧ t.adc.hkAt = (s.moveTo e).tm.e ∧
      t.adc.hkFrom = (if s.adc.hkRun then s.adc.hkFrom else (s.moveTo e).tm.e) ∧
      t.rd ADC_HK_CFG.SKIPPED = (if s.adc.hkRun then min 255 (s.rd ADC_HK_CFG.SKIPPED + 1) else s.rd ADC_HK_CFG.SKIPPED)) ∧
  (∀ (s : State) (l : List Nat) (e : Nat) (c : Fin 48) (v : Nat), s.pwr.mainOn = true → s.adc.hkRun = true → l[c.val]? = some v →
      (c.val < 24 → bitOf (s.rd ADC_HK_EN.EN) c = true) →
    ∃ t, exec (.hkRoundDone l e) s = .next t ∧ t.rdi ADC_HK_RES_c.VALUE c = min 4095 v ∧
      t.rdi ADC_HK_RES_c.ROUND c = s.adc.hkCount % 65536)

/-- R545, R546, R549, R553, R555, R556: a latch that is due is taken and its snapshot begins, in sleep N nominal periods after the
latch before; a committed snapshot of a latch stands in a slot with its MAGIC and its CRC and makes the latch's records; the
oldest record made is signed, or marked UNSIGNED without a key, and enters the journal with its CRC. -/
def Obligations.LatchAndRecordCommands : Prop :=
  (∀ (s : State) (e d : Nat) (f : Snap × List Rec), s.pwr.mainOn = true → s.mtr.form = some f → s.mtr.due = some d →
      d ≤ (s.moveTo e).tm.e → s.mtr.snap = none → s.pwr.pfAt = none →
    ∃ t, exec (.meterLatch e) s = .next t ∧ t.rd MTR_LATCH.LATCH = f.1.latch % 2 ^ 32 ∧ t.mtr.snap = some f ∧ t.mtr.form = none ∧ t.mtr.due = none ∧
      t.mtr.cycles = 0) ∧
  (∀ (s : State) (e : Nat), s.pwr.mainOn = true → s.bit PWR_STATUS.SLEEP = true → s.mtr.form = none →
      s.mtr.latchAt + s.mtr.n * s.nominalPeriod + 100000 ≤ (s.moveTo e).tm.e → s.mtr.snap = none → s.pwr.pfAt = none →
    ∃ t f, exec (.meterLatch e) s = .next t ∧ t.mtr.snap = some f ∧ f.1.kind = 0 ∧ f.1.latch = (s.rd MTR_LATCH.LATCH + 1) % 2 ^ 32 ∧
      f.1.elapsed = s.mtr.latchAt + s.mtr.n * s.nominalPeriod ∧ t.mtr.latchAt = s.mtr.latchAt + s.mtr.n * s.nominalPeriod ∧
      t.rd MTR_LATCH.LATCH = (s.rd MTR_LATCH.LATCH + 1) % 2 ^ 32) ∧
  (∀ (s : State) (x : Snap) (l : List Rec), s.pwr.mainOn = true → s.mtr.snap = some (x, l) → x.kind ≠ 1 →
      s.mtr.queue = [] → (s.jr.recs.filter (fun r => !r.consumed)).length + l.length ≤ 2828 →
    ∃ t, exec .snapshotCommitted s = .next t ∧ t.mtr.snap = none ∧ (t.jr.slotA = some x.slot ∨ t.jr.slotB = some x.slot) ∧
      t.jr.rseq = s.jr.rseq + l.length ∧ t.mtr.queue.length = l.length) ∧
  (∀ (s : State) (e : Nat) (r : Rec) (q : List Rec), s.pwr.mainOn = true → s.mtr.queue = r :: q → s.pwr.pfAt = none →
    ∃ t, exec (.recordSigned e) s = .next t ∧ t.mtr.queue = q ∧ t.rd CIS_STATUS.UNCONSUMED = (t.jr.recs.filter (fun r => !r.consumed)).length % 2 ^ 12 ∧
      ∃ x ∈ t.jr.recs, x.rseq = r.rseq ∧ x.kind = r.kind ∧ x.cell = r.cell ∧ x.values = r.values ∧ x.crc = crc32c (s.recBytes x) ∧
        (s.bit MTR_STATUS.KEY_OK = true → x.flags = r.flags ∧ x.sig = some (Config.ecdsaSign (Config.sha256 (s.recBody r)))) ∧
        (s.bit MTR_STATUS.KEY_OK = false → bitOf x.flags 10 = true ∧ x.sig = none))

/-- R551, R555, R566, R574, R697: a committed lease holds, stands in the journal and completes its descriptor; a calibration
swap waits for its latch boundary; the counters of the selected port are copied into the reader's window. -/
def Obligations.MeteringCommands : Prop :=
  (∀ (s : State) (c : Fin 240) (n : Lease) (d : Desc), s.pwr.mainOn = true → s.pwr.pfAt = none → s.mtr.leasing.find? (fun x => x.1 == c.val) = some (c.val, n, d) →
      d.epoch = s.hst.epoch →
    ∃ t, exec (.leaseCommitted c) s = .next t ∧ (t.cell c).mtr.lease = newLease (s.cell c).mtr.lease n.id n.floor n.ceiling n.allow (s.cell c).mtr.eDis.n ∧
      (t.jr.lease c).lease = (t.cell c).mtr.lease ∧ t.mtr.leasing = s.mtr.leasing.erase (c.val, n, d) ∧
      ∃ x ∈ t.hst.comps, x.status = 0 ∧ x.tag = d.tag) ∧
  (∀ (s : State) (c : Fin 240), s.pwr.mainOn = true → s.pwr.pfAt ≠ none ∨ s.mtr.leasing.find? (fun x => x.1 == c.val) = none →
    exec (.leaseCommitted c) s = .next s) ∧
  (∀ s : State, s.pwr.mainOn = true →
    (s.rd MTR_CAL_CTRL.PENDING = 1 → exec .mtrCalSwap s = .next s) ∧
    (s.rd MTR_CAL_CTRL.PENDING = 0 → ∃ t, exec .mtrCalSwap s = .next t ∧ t.rd MTR_CAL_CTRL.PENDING = 1 ∧
      t.mtr = { s.mtr with swapAt := s.tm.e } ∧ t.calAsked s.tm.e = true)) ∧
  (∀ (s : State) (ag : Agent), s.pwr.mainOn = true →
    ∃ t, exec (.mtrPortSnapshotRead ag) s = .next t ∧
      (let m := (s.cell (s.rd MTR_PORT_SEL.CELL)).mtr
      t.mtr.win.get ag = [m.eDis.n % 2 ^ 32, bits m.eDis.n 32 16, m.eChg.n % 2 ^ 32, bits m.eChg.n 32 16,
        m.qDis.n / 3600 % 2 ^ 32, bits (m.qDis.n / 3600) 32 8, m.qChg.n / 3600 % 2 ^ 32,
        bits (m.qChg.n / 3600) 32 8 + m.lease.state * 2 ^ 30, m.lease.id] ∧
      t.out = s.out ++ [.readData ag MTR_PORT_DATA_n.W.base (m.eDis.n % 2 ^ 32)]))

/-- R394, R560, R561, R633, R644: PF_WARN with the journal up enters the safe state and abandons the snapshot and the latch in
progress, and without it holds the main die in reset; the counters are frozen into a power-fail snapshot 2 ticks and 100 µs
later; its commit holds the main die in reset while PF_WARN stands and else starts it again; and the end of PF_WARN starts a
die held in reset. -/
def Obligations.PowerFailCommands : Prop :=
  (∀ (s : State) (e : Nat), s.pwr.mainOn = true → s.journalUp = true → s.pwr.pfAt = none → s.rd SLC_BLOCK_STATUS.PHASES < 8 →
    ∃ t, exec (.pfWarn e) s = .next t ∧ t.rd PWR_STATUS.PF_WARN = 1 ∧ t.rd SLC_TRIP_LATCH.PF_WARN = 1 ∧ t.rd SLC_BLOCK_STATUS.SCOPE = 3 ∧
      t.rd SLC_BLOCK_STATUS.PHASES = 7 ∧ t.pwr.pfAt = some (s.moveTo e).tm.e ∧ t.mtr.snap = none ∧ t.mtr.form = none) ∧
  (∀ (s : State) (e : Nat), s.pwr.mainOn = true → s.journalUp = true → s.pwr.pfAt ≠ none →
    exec (.pfWarn e) s = .next ((s.moveTo e).wr PWR_STATUS.PF_WARN 1)) ∧
  (∀ (s : State) (e : Nat), s.pwr.mainOn = true → s.journalUp = false →
    ∃ t, exec (.pfWarn e) s = .next t ∧ t.pwr.mainOn = false ∧ t.rd KA_STATUS.COUNTING = 1) ∧
  (∀ (s : State) (e a : Nat), s.pwr.mainOn = true → s.pwr.pfAt = some a → s.pwr.pfFrozen = false →
      a + max (2 * s.period) 100000 ≤ (s.moveTo e).tm.e → s.tm.run = false ∨ s.tm.phase = 6 →
    ∃ t, exec (.powerfailFreeze e) s = .next t ∧ t.pwr.pfFrozen = true ∧
      ∃ x, t.mtr.snap = some (x, []) ∧ x.kind = 1 ∧ x.latch = (s.rd MTR_LATCH.LATCH + 1) % 2 ^ 32 ∧
        x.ac = s.mtr.ac.map (fun g => g.map (fun a => a.n)) ∧ x.elapsed = (s.moveTo e).tm.e) ∧
  (∀ (s : State) (x : Snap) (l : List Rec), s.pwr.mainOn = true → s.mtr.snap = some (x, l) → x.kind = 1 →
    ∃ t, exec .snapshotCommitted s = .next t ∧ t.pwr.mainOn = !s.bit PWR_STATUS.PF_WARN ∧ (t.jr.slotA = some x.slot ∨ t.jr.slotB = some x.slot)) ∧
  (∀ (s : State) (e : Nat),
    (s.pwr.mainOn = true → ∃ t, exec (.pfWarnDeassert e) s = .next t ∧ t.rd PWR_STATUS.PF_WARN = 0 ∧ t.pwr = s.pwr) ∧
    (s.pwr.mainOn = false → s.bit PWR_STATUS.PF_WARN = true → s.pwr.railsOk = true → s.pwr.resetN = true → ∃ t, exec (.pfWarnDeassert e) s = .next t ∧ t.pwr.mainOn = true))

/-- R200, R202, R203, R205, R210 to R212, R221: the chip's means enter the window, a probe fault is told once, a detector declares
an island (a trip, or a continued island of a grid-forming plant), a new baseline, and the clearing of an island. -/
def Obligations.IslandProbeCommands : Prop :=
  (∀ (s : State) (e : Nat), s.pwr.mainOn = true → s.tm.s1run = true → s.chipDue = true →
      (∃ t, exec (.chipBoundary e) s = .next t ∧ t.law.mir.n = 0 ∧
        t.law.mir.chip = (if s.tm.n % (s.chipLen : Int) = 0 then s.tm.n / (chipTicks s.codeSet.2.1 : Int) else s.chipNow) ∧
        t.law.mir.code = (if s.tm.n % (s.chipLen : Int) = 0 then s.codeSet else s.law.mir.code) ∧
        (s.act MIR_WIN_CFG.UPDATE * (if 1 ≤ s.rd CLK_TICK_STATUS.SHED_LEVEL then 4 else 1) ≤ s.law.mir.chips + 1 →
          t.law.mir.chips = 0) ∧
        (s.law.mir.chips + 1 < s.act MIR_WIN_CFG.UPDATE * (if 1 ≤ s.rd CLK_TICK_STATUS.SHED_LEVEL then 4 else 1) →
          t.law.mir.chips = s.law.mir.chips + 1 ∧ t.regs = s.regs ∧ t.lawC = s.lawC ∧
          (s.tm.n % (s.chipLen : Int) = 0 → (t.law.mir.inject = true ↔ s.probeAllowed = true ∧
            (s.codeSet = s.law.mir.code ∨ s.tm.n % (chipTicks s.codeSet.2.1 : Int) = 0))) ∧
          (s.tm.n % (s.chipLen : Int) ≠ 0 → t.law.mir.inject = s.law.mir.inject) ∧
          (s.probeAllowed = false → t.law.mir.win = [] ∧ t.law.mir.last = none) ∧
          ∀ x : Cx × Cx × Int, s.probeAllowed = true → s.law.mir.inject = true → s.law.mir.restart = false → s.law.mir.n ≠ 0 →
            s.law.mir.last = some x → ∃ c v i,
              (s.chipNow = s.law.mir.chip + 1 → t.law.mir.last = some (v, i, c)) ∧ c = s.chipValue s.law.mir.chip ∧
              v = s.law.mir.sv.scale (divR 1 (s.law.mir.n : Rat)) ∧ i = s.law.mir.si.scale (divR 1 (s.law.mir.n : Rat)) ∧
              t.law.mir.win = ((c - x.2.2, v.sub x.1, i.sub x.2.1) :: s.law.mir.win).take (s.act MIR_WIN_CFG.WINDOW)))) ∧
  (∀ (s : State) (e : Nat), s.pwr.mainOn = true → s.tm.s1run = true → s.law.mir.inject = true → s.law.mir.told = false →
      2 < s.law.mir.badFor → s.act MIR_ACT_CFG.FAULT_TRIP = 0 →
    ∃ t, exec (.probeFault e) s = .next t ∧ t.law = { s.law with mir := { s.law.mir with told := true } } ∧ t.lawC = s.lawC ∧
      TbItem.fld MIR_STATUS.FAULT 0 1 ∈ t.tri.tb ∧ t.regs = s.regs) ∧
  (∀ (s : State) (e : Nat), s.pwr.mainOn = true → s.tm.s1run = true → s.law.mir.inject = true → s.law.mir.told = false →
      2 < s.law.mir.badFor → s.act MIR_ACT_CFG.FAULT_TRIP = 1 → s.rd SLC_BLOCK_STATUS.PHASES < 8 →
      s.law.src.gfm = false →
    ∃ t, exec (.probeFault e) s = .next t ∧ t.rd MIR_STATUS.ISLAND = 1 ∧ t.rd MIR_STATUS.CAUSE = 5 ∧ t.law.sup.state = 4 ∧
      t.lawC.sup.state = 4 ∧ t.rd SLC_BLOCK_STATUS.SCOPE = 3 ∧ t.rd SLC_BLOCK_STATUS.PHASES = 7 ∧ t.rd SLC_BLOCK_STATUS.BRK ≠ 0) ∧
  (∀ (s : State) (d : Rat) (e : Nat), s.pwr.mainOn = true → s.tm.s1run = true → s.rocofHigh = true → s.law.mir.rocofFor = some d →
      (s.act MIR_PASSIVE_CFG.ROCOF_TIME : Rat) / 100 ≤ d → s.rd SLC_BLOCK_STATUS.PHASES < 8 →
      (s.law.src.gfm = false ∨ s.act MIR_ACT_CFG.GFM_ACT ≠ 1) →
    ∃ t, exec (.rocofDetect e) s = .next t ∧ t.rd MIR_STATUS.ISLAND = 1 ∧ t.rd MIR_STATUS.CAUSE = 3 ∧ t.law.sup.state = 4 ∧
      t.lawC.sup.state = 4 ∧ t.rd SLC_BLOCK_STATUS.SCOPE = 3 ∧ t.rd SLC_BLOCK_STATUS.PHASES = 7 ∧ t.rd SLC_BLOCK_STATUS.BRK ≠ 0) ∧
  (∀ (s : State) (d : Rat) (e : Nat), s.pwr.mainOn = true → s.tm.s1run = true → s.rocofHigh = true → s.law.mir.rocofFor = some d →
      (s.act MIR_PASSIVE_CFG.ROCOF_TIME : Rat) / 100 ≤ d → s.law.mir.frozen = false →
      s.law.src.gfm = true → s.act MIR_ACT_CFG.GFM_ACT = 1 →
    ∃ t, exec (.rocofDetect e) s = .next t ∧ t.rd MIR_STATUS.ISLAND = 1 ∧ t.rd MIR_STATUS.CAUSE = 3 ∧ t.law.sup = s.law.sup ∧
      t.law.mir.frozen = true ∧ t.cells = s.cells ∧ t.rd SLC_BLOCK_STATUS.SCOPE = s.rd SLC_BLOCK_STATUS.SCOPE ∧
      t.rd SLC_BLOCK_STATUS.BRK = s.rd SLC_BLOCK_STATUS.BRK) ∧
  (∀ (s : State) (v : Nat), s.pwr.mainOn = true →
    ∃ t, exec (.mirBaseWrite v) s = .next t ∧ t.rd MIR_BASE.ZR = bits v 16 16 ∧ t.rd MIR_BASE.ZX = bits v 0 16 ∧
      t.law.mir = { s.law.mir with baseNew := true, pend := 0 } ∧ t.rd MIR_STATUS.PEND = 0 ∧ t.rd MIR_STATUS.ISLAND = s.rd MIR_STATUS.ISLAND ∧
      ∀ f a b, f.base = MIR_BASE.ZR.base → TbItem.fld f a b ∉ t.tri.tb) ∧
  (∀ (s : State), s.pwr.mainOn = true →
    ∃ t, exec .mirIslandClear s = .next t ∧ t.rd MIR_STATUS.ISLAND = 0 ∧ t.rd MIR_STATUS.PEND = 0 ∧
      t.law.mir = { s.law.mir with frozen := false, pend := 0 } ∧ t.law.sup = s.law.sup ∧ t.rd MIR_STATUS.CAUSE = s.rd MIR_STATUS.CAUSE)

/-- R588, R590 to R598: each event of a motor channel moves it between OFF, DIAG, ALIGN, RAMP, RUN, DECEL and FAULT, with its
code, under the conditions the rules give. -/
def Obligations.MotorChannelCommands : Prop :=
  (∀ (s : State) (m : Fin 2) (e : Nat), s.pwr.mainOn = true → 2 ≤ s.stage → s.biti AUX_CH_CFG_m.EN m = true → s.astate m = 0 ∨ s.astate m = 6 →
      (s.moveTo e).routeActs m = false → s.legsSet m = false →
    ∃ t, exec (.auxStart m e) s = .next t ∧ t.astate m = 1 ∧ t.rdi AUX_STATUS_m.HOLD m = 1 ∧ t.rdi AUX_STATUS_m.CODE m = 1 ∧ t.rd AUX_BUS_STATUS.OV = 0) ∧
  (∀ (s : State) (m : Fin 2) (e : Nat), s.pwr.mainOn = true →
    (s.astate m = 4 → ∃ t, exec (.auxStop m e) s = .next t ∧ t.astate m = 5 ∧ t.rdi AUX_STATUS_m.CAP m = 0) ∧
    (s.astate m = 1 → ∃ t, exec (.auxStop m e) s = .next t ∧ t.astate m = 0 ∧ t.rdi AUX_STATUS_m.CODE m = 3 ∧ Out.driveOff m ∈ t.out)) ∧
  (∀ (s : State) (m : Fin 2) (e : Nat), s.pwr.mainOn = true → s.astate m = 0 → 2 ≤ s.stage → (s.moveTo e).routeActs m = false → s.legsSet m = false →
    ∃ t, exec (.auxDiag m e) s = .next t ∧ t.astate m = 1 ∧ t.rdi AUX_STATUS_m.HOLD m = 1) ∧
  (∀ (s : State) (m : Fin 2) (x : DiagIn) (e : Nat), s.astate m = 1 →
      (s.ach m).since + (if diagTurning x then 5000000000 else 4000000) ≤ (s.moveTo e).tm.e →
    (diagBits x ≠ 0 → ∃ t, exec (.auxDiagDone m x e) s = .next t ∧ t.astate m = 6 ∧ t.rdi AUX_STATUS_m.CODE m = 5 ∧
      t.rdi AUX_STATUS_m.DIAG m = diagBits x) ∧
    (diagBits x = 0 → (s.ach m).diagOnly = false → ∃ t, exec (.auxDiagDone m x e) s = .next t ∧ t.astate m = 2) ∧
    (diagBits x = 0 → (s.ach m).diagOnly = true → ∃ t, exec (.auxDiagDone m x e) s = .next t ∧ t.astate m = 0 ∧ t.rdi AUX_STATUS_m.CODE m = 3)) ∧
  (∀ (s : State) (m : Fin 2) (e : Nat), s.astate m = 2 → (s.ach m).since + s.rdi AUX_START_m.ALIGN_MS m * 10000000 ≤ (s.moveTo e).tm.e →
    ∃ t, exec (.auxAlignDone m e) s = .next t ∧ t.astate m = 3) ∧
  (∀ (s : State) (m : Fin 2) (e a : Nat), s.astate m = 3 → (s.ach m).agree = some a → a + 10000000 ≤ (s.moveTo e).tm.e →
    ∃ t, exec (.auxHandover m e) s = .next t ∧ t.astate m = 4 ∧ t.rdi AUX_STATUS_m.CODE m = 2) ∧
  (∀ (s : State) (m : Fin 2) (o : Observer) (e : Nat), s.bit TRI_STATUS.DBG_HALT = false →
    ∃ t, exec (.auxSpeedLoop m o e) s = .next t ∧ t.rdi AUX_STATUS_m.SPEED m = min 65535 o.speed ∧
      (s.astate m = 5 → (o.speed : Rat) < s.handover m → (s.ach m).toFault = false → t.astate m = 0 ∧ t.rdi AUX_STATUS_m.CODE m = 3)) ∧
  (∀ (s : State) (m : Fin 2) (c : PhaseSample) (e : Nat), s.bit TRI_STATUS.DBG_HALT = false → 2 ≤ s.astate m → s.astate m ≤ 5 →
      c.agree = .all → s.aux.length = 2 →
    ∃ t, exec (.auxPwmPeriod m c e) s = .next t ∧ Out.drivePwm m (t.ach m).ad (t.ach m).aq (s.turnOn m c.gate) ∈ t.out ∧
      (∀ l, legCurrents (if s.sixStep m then 0 else s.rdi AUX_CH_CFG_m.SAMP_MIN m * 250) c = some l →
        (t.ach m).id = (toRotor l ((c.angle : Rat) * Config.pi / 180000)).re ∧
        (t.ach m).iqm = (toRotor l ((c.angle : Rat) * Config.pi / 180000)).im ∧ (t.ach m).skips = 0) ∧
      (legCurrents (if s.sixStep m then 0 else s.rdi AUX_CH_CFG_m.SAMP_MIN m * 250) c = none → (t.ach m).skips = (s.ach m).skips + 1) ∧
      (s.sixStep m = true → (t.ach m).ad = 0) ∧
      (s.sixStep m = false → ((t.ach m).ad, (t.ach m).aq) = s.linear m ((t.ach m).vd, (t.ach m).vq))) ∧
  (∀ (s : State) (m : Fin 2), s.astate m = 4 → s.rdi AUX_CH_CFG_m.SKIP_MAX m ≤ (s.ach m).skips → s.rdi AUX_STATUS_m.CAP m = 0 →
    ∃ t, exec (.auxWindowCap m) s = .next t ∧ t.rdi AUX_STATUS_m.CAP m = 1 ∧ t.rdi AUX_STATUS_m.CODE m = 6 ∧ t.astate m = 4) ∧
  (∀ (s : State) (m : Fin 2) (ke e : Nat), s.astate m = 4 → (s.ach m).keAt.getD ((s.ach m).steady + 1000000000) + 1000000000 ≤ (s.moveTo e).tm.e →
      ((s.rdi AUX_RAMP_m.SPD_MAX m * 3 : Nat) : Rat) ≤ (s.ach m).ref →
    ∃ t, exec (.keMeasured m ke e) s = .next t ∧ t.rdi AUX_KE_m.KE_MEAS m = min 65535 ke ∧
      ((ke : Rat) < (s.rdi AUX_MOTOR2_m.KE m : Rat) * (1 - (s.rdi AUX_MOTOR2_m.KE_TOL m : Rat) / 100) → t.astate m = 5 ∧ t.rdi AUX_STATUS_m.CODE m = 7)) ∧
  (∀ (s : State) (v e : Nat), v < s.rd AUX_BUS_CFG.UV →
    ∃ t, exec (.vauxUv v e) s = .next t ∧ t.rd AUX_BUS_STATUS.VAUX = min 1023 v ∧ t.rd AUX_BUS_STATUS.UV = 1 ∧
      ∀ m, m < 2 → (s.astate m = 2 ∨ s.astate m = 3 ∨ s.astate m = 4 ∨ s.astate m = 5 → t.astate m = 0 ∧ t.rdi AUX_STATUS_m.CODE m = 9) ∧
        (s.astate m = 1 → t.astate m = 6 ∧ t.rdi AUX_STATUS_m.CODE m = 9)) ∧
  (∀ (s : State) (v e : Nat), s.rd AUX_BUS_CFG.UV + 10 ≤ v →
    ∃ t, exec (.vauxUvRecover v e) s = .next t ∧ t.rd AUX_BUS_STATUS.UV = 0 ∧
      ∀ m, m < 2 → (s.ach m).resume = true → s.astate m = 0 → t.astate m = 1 ∧ t.rdi AUX_STATUS_m.CODE m = 1) ∧
  (∀ (s : State) (v e : Nat), s.rd AUX_BUS_CFG.OV < v →
    ∃ t, exec (.vauxOv v e) s = .next t ∧ t.rd AUX_BUS_STATUS.OV = 1 ∧ ∀ m, m < 2 → t.astate m = 6 ∧ t.rdi AUX_STATUS_m.CODE m = 10) ∧
  (∀ (s : State) (v e : Nat), v < 90 →
    ∃ t, exec (.cpUv v e) s = .next t ∧ t.rd AUX_BUS_STATUS.CP_UV = 1 ∧ t.rd AUX_BUS_STATUS.VCP = v ∧ ∀ m, m < 2 → t.astate m = 6 ∧ t.rdi AUX_STATUS_m.CODE m = 11) ∧
  (∀ (s : State) (v e : Nat),
    (s.rd AUX_BUS_CFG.REGEN < v → ∃ t, exec (.regenLimit v e) s = .next t ∧ t.rd AUX_BUS_STATUS.REGEN = 1) ∧
    (v + 10 ≤ s.rd AUX_BUS_CFG.REGEN → ∃ t, exec (.regenClear v e) s = .next t ∧ t.rd AUX_BUS_STATUS.REGEN = 0))

/-- R326, R359, R505, R506, R508, R510, R551, R558: each descriptor that has started on a ring of its kind: what it refuses with
which status, and what it does; HOST_TIME takes effect before S1 of the next tick. A read from host memory waits for the walk of its pages. -/
def Obligations.HostDescriptorCommands : Prop :=
  (∀ (s u : State) (h : DescHdr) (d : Desc), s.pwr.mainOn = true → s.startDesc h 0x00 = .go d u → s.rdi RING_CFG_n.TYPE h.ring = 0 →
    ∃ t, exec (.nop h) s = .next t ∧ ∃ x, t.hst.atNext = s.hst.atNext ++ [x] ∧ x.status = 0 ∧ x.tag = h.tag ∧ t.hst.comps = s.hst.comps) ∧
  (∀ (s u : State) (h : DescHdr) (d : Desc) (v : SetVals), s.pwr.mainOn = true → s.startDesc h 0x01 = .go d u → s.rdi RING_CFG_n.TYPE h.ring = 0 →
    ∃ t, exec (.setpoint h v) s = .next t ∧
      (bitOf v.present 5 = true → v.eSet < 500 ∨ 1500 < v.eSet → t.sp = s.sp ∧ ∃ x ∈ t.hst.comps, x.status = 4 ∧ x.tag = h.tag) ∧
      (¬(bitOf v.present 5 = true ∧ (v.eSet < 500 ∨ 1500 < v.eSet)) →
        t.sp.host = s.sp.host ++ [⟨d, v.present, v.p, v.q, v.ilim, v.plim, v.ulo, v.uhi, v.eSet⟩] ∧ t.hst.comps = s.hst.comps)) ∧
  (∀ (s u : State) (h : DescHdr) (d : Desc) (c k len a : Nat), s.pwr.mainOn = true → s.startDesc h 0x04 = .go d u → s.rdi RING_CFG_n.TYPE h.ring = 0 →
    ∃ t, exec (.furrowLoad h c k len a) s = .next t ∧
      (240 ≤ c → t.cells = s.cells ∧ ∃ x ∈ t.hst.comps, x.status = 4 ∧ x.tag = h.tag) ∧
      (c < u.cellCount → c < 240 → u.enabled c = true → u.sstate c = 5 → t.cells = s.cells ∧ ∃ x ∈ t.hst.comps, x.status = 2 ∧ x.tag = h.tag) ∧
      (c < u.cellCount → c < 240 → u.enabled c = false → 1 < k → t.cells = s.cells ∧ ∃ x ∈ t.hst.comps, x.status = 4 ∧ x.tag = h.tag) ∧
      (c < u.cellCount → c < 240 → u.enabled c = false → k = 0 → len % 4 = 0 → 0 < len → len ≤ 256 → a + len ≤ 2 ^ 30 →
        s.bit HOST_WALK_ROOT_LO.EN = true → (∀ p ∈ pagesOf a len, u.cached p = none) → t.cells = s.cells ∧
        ∃ j ∈ t.hst.jobs, j.kind = .furrow d c k len a ∧ j.todo = pagesOf a len)) ∧
  (∀ (s u : State) (h : DescHdr) (d : Desc) (c i f ce al : Nat), s.pwr.mainOn = true → s.startDesc h 0x05 = .go d u → s.rdi RING_CFG_n.TYPE h.ring = 0 →
    ∃ t, exec (.lease h c i f ce al) s = .next t ∧
      (240 ≤ c → t.mtr = s.mtr ∧ ∃ x ∈ t.hst.comps, x.status = 4 ∧ x.tag = h.tag) ∧
      (c < 240 → c < u.cellCount → u.role c ≠ 1 → t.mtr = s.mtr ∧ ∃ x ∈ t.hst.comps, x.status = 2 ∧ x.tag = h.tag) ∧
      (c < 240 → c < u.cellCount → u.role c = 1 → ce ≤ f ∨ 10000 < ce → t.mtr = s.mtr ∧ ∃ x ∈ t.hst.comps, x.status = 4 ∧ x.tag = h.tag) ∧
      (c < 240 → c < u.cellCount → u.role c = 1 → f < ce → ce ≤ 10000 → (s.mtr.leasing.filter (fun x => x.1 == c)) = [] →
        sameLease (s.cell c).mtr.lease (newLease (s.cell c).mtr.lease (i % 2 ^ 32) f ce (al % 2 ^ 64) (s.cell c).mtr.eDis.n) = false →
        t.mtr.leasing = s.mtr.leasing ++ [(c, newLease (s.cell c).mtr.lease (i % 2 ^ 32) f ce (al % 2 ^ 64) (s.cell c).mtr.eDis.n, d)] ∧
        t.hst.comps = s.hst.comps)) ∧
  (∀ (s u : State) (h : DescHdr) (d : Desc) (w : Nat), s.pwr.mainOn = true → s.startDesc h 0x06 = .go d u → s.rdi RING_CFG_n.TYPE h.ring = 0 →
    ∃ t, exec (.hostTime h w) s = .next t ∧ t.hst.waits = s.hst.waits ++ [.hostTime d (w % 2 ^ 64)] ∧ t.hst.wall = s.hst.wall ∧
      t.hst.atNext = s.hst.atNext ∧ t.hst.comps = s.hst.comps) ∧
  (∀ (s : State) (d : Desc) (w : Nat), s.pwr.mainOn = true → s.tm.run = true → s.tm.phase = 0 → s.sp.host = [] → s.sp.safe = none →
      s.hst.waits = [.hostTime d w] → d.epoch = s.hst.epoch →
    ∃ t, exec .setpointApply s = .next t ∧ t.hst.waits = [] ∧ t.hst.wall = some (w, s.tm.e) ∧
      ∃ x, t.hst.atNext = s.hst.atNext ++ [x] ∧ x.status = 0 ∧ x.result = ([(32, 8, s.tm.e)] : List Pay) ∧ x.tag = d.tag) ∧
  (∀ (s u : State) (h : DescHdr) (d : Desc) (f n a : Nat), s.pwr.mainOn = true → s.startDesc h 0x0A = .go d u → s.rdi RING_CFG_n.TYPE h.ring = 0 →
    ∃ t, exec (.journalRead h f n a) s = .next t ∧
      (n = 0 ∨ 2828 < n → ∃ x ∈ t.hst.comps, x.status = 4 ∧ x.tag = h.tag) ∧
      (0 < n → n ≤ 2828 → f ≠ 2 ^ 64 - 1 → a + n * 160 ≤ 2 ^ 30 → s.bit HOST_WALK_ROOT_LO.EN = true → (∀ p ∈ pagesOf a (n * 160), u.cached p = none) →
        s.hst.jobs = [] → ∃ j ∈ t.hst.jobs, j.kind = .journalRead d f n a ∧ j.todo = pagesOf a (n * 160))) ∧
  (∀ (s u : State) (h : DescHdr) (d : Desc) (len a : Nat), s.pwr.mainOn = true → s.startDesc h 0x40 = .go d u → s.rdi RING_CFG_n.TYPE h.ring = 3 →
    ∃ t, exec (.buffer h len a) s = .next t ∧
      (len % 512 ≠ 0 ∨ len < 512 ∨ 65536 < len → t.hst.bufs = s.hst.bufs ∧ ∃ x ∈ t.hst.comps, x.status = 4 ∧ x.tag = h.tag) ∧
      (len % 512 = 0 → 512 ≤ len → len ≤ 65536 → a + len ≤ 2 ^ 30 → s.bit HOST_WALK_ROOT_LO.EN = true → (∀ p ∈ pagesOf a len, u.cached p = none) →
        ∃ j ∈ t.hst.jobs, j.kind = .buffer d len a ∧ j.todo = pagesOf a len)) ∧
  (∀ (s u : State) (h : DescHdr) (d : Desc) (op c : Nat), s.pwr.mainOn = true → s.startDesc h (op % 256) = .go d u →
    ∃ t, exec (.badOpcode h ⟨op, c⟩) s = .next t ∧ ∃ x, t.hst.comps = s.hst.comps ++ [x] ∧ x.tag = h.tag ∧ x.opcode = op % 256 ∧
      (s.rdi RING_CFG_n.TYPE h.ring ≠ 0 ∨ (op % 256 ≠ 2 ∧ op % 256 ≠ 3) → x.status = 3) ∧
      (s.rdi RING_CFG_n.TYPE h.ring = 0 → op % 256 = 2 → x.status = 4) ∧
      (s.rdi RING_CFG_n.TYPE h.ring = 0 → op % 256 = 3 →
        x.status = (if 240 ≤ c then 4 else if s.cellCount ≤ c then 5 else if s.enabled c then 4 else 5))) ∧
  (∀ (s : State) (r : Fin 64) (e f : Nat) (b : Buf), s.pwr.mainOn = true → s.hst.bufs.find? (fun b => b.d.ring == r.val) = some b → b.firstAt = some f →
      f + 1000000 ≤ (s.moveTo e).tm.e → b.d.epoch = s.hst.epoch →
    ∃ t, exec (.bufferTimeout r e) s = .next t ∧ t.hst.bufs = s.hst.bufs.filter (fun x => x.d != b.d) ∧
      ∃ x, t.hst.comps = s.hst.comps ++ [x] ∧ x.status = 0 ∧ x.tag = b.d.tag)

/-- R500, R502, R503, R532, R533, R535: what a valid and an invalid doorbell does, and how a ring is enabled, stopped,
restarted and reset, each refused in the other states and each without effect in D3hot (R495). The rings named are not the EVENT ring that carries the
RING_STATE records, whose own state a record may change (R502). -/
def Obligations.HostRingCommands : Prop :=
  (∀ (s : State) (r : Fin 64) (v : Nat), s.pwr.mainOn = true →
    ∃ t, exec (.doorbell r ⟨v, []⟩) s = .next t ∧
      (s.stage < 2 ∨ s.hst.d3 = true ∨ s.rdi RING_STATE_n.STATE r = 0 → t = s) ∧
      (2 ≤ s.stage → s.hst.d3 = false → s.rdi RING_STATE_n.STATE r = 1 → s.doorbellValid r (v % 65536) = false → s.evRing 0x90 ≠ r →
        t.rdi RING_STATE_n.STATE r = 5 ∧ t.rdi RING_FAULT_n.STATUS r = 0x20 ∧ t.hostCtr r = s.hostCtr r) ∧
      (2 ≤ s.stage → s.hst.d3 = false → s.rdi RING_STATE_n.STATE r ≠ 0 → s.doorbellValid r (v % 65536) = true → s.rdi RING_CFG_n.TYPE r ≠ 2 →
        t.hostCtr r = v % 65536 ∧ (s.bit PWR_STATUS.SLEEP = false → t.regs = s.regs))) ∧
  (∀ (s : State) (r : Fin 64) (v : Nat), s.pwr.mainOn = true → s.hst.d3 = true →
    exec (.ringEnable r v) s = .next s ∧ exec (.ringStop r) s = .next s ∧ exec (.ringRestart r) s = .next s ∧ exec (.ringReset r) s = .next s) ∧
  (∀ (s : State) (r : Fin 64) (v : Nat), s.pwr.mainOn = true → s.hst.d3 = false → s.evRing 0x90 ≠ r →
    ∃ t, exec (.ringEnable r v) s = .next t ∧
      (s.rdi RING_STATE_n.STATE r ≠ 0 → t.rd HOST_STATUS.CFG_ERR = 1 ∧ t.rdi RING_STATE_n.STATE r = s.rdi RING_STATE_n.STATE r) ∧
      (s.rdi RING_STATE_n.STATE r = 0 → 4 ≤ bits v 25 4 → bits v 25 4 ≤ 12 → s.ringCfgValid (v % 2 ^ 31 + 2 ^ 31) = true → bits v 29 2 ≠ 2 →
        t.rdi RING_STATE_n.STATE r = 1 ∧ t.rdi RING_STATE_n.CONS r = 0 ∧ t.hostCtr r = 0 ∧ t.rdi RING_CFG_n.EN r = 1 ∧
        t.rdi RING_CFG_n.TYPE r = bits v 29 2 ∧ t.rdi RING_CFG_n.SIZE r = bits v 25 4 ∧ t.rdi RING_CFG_n.CRING r = bits v 19 6 ∧
        t.rdi RING_CFG_n.VECTOR r = bits v 13 6 ∧ t.rdi RING_CFG_n.COAL_US r = bits v 0 6)) ∧
  (∀ (s : State) (r : Fin 64), s.pwr.mainOn = true → s.hst.d3 = false → s.evRing 0x90 ≠ r →
    ∃ t, exec (.ringStop r) s = .next t ∧
      (s.rdi RING_STATE_n.STATE r = 1 → t.rdi RING_STATE_n.STATE r = 2 ∧ t.rdi RING_STATE_n.CONS r = s.rdi RING_STATE_n.CONS r) ∧
      (s.rdi RING_STATE_n.STATE r ≠ 1 → t.rd HOST_STATUS.CFG_ERR = 1 ∧ t.rdi RING_STATE_n.STATE r = s.rdi RING_STATE_n.STATE r)) ∧
  (∀ (s : State) (r : Fin 64), s.pwr.mainOn = true → s.evRing 0x90 ≠ r → s.rdi RING_STATE_n.STATE r = 2 → s.rdi RING_STATE_n.INFLIGHT r = 0 →
    ∃ t, exec (.ringStopped r) s = .next t ∧ t.rdi RING_STATE_n.STATE r = 3 ∧ t.rdi RING_STATE_n.CONS r = s.rdi RING_STATE_n.CONS r) ∧
  (∀ (s : State) (r : Fin 64), s.pwr.mainOn = true → s.hst.d3 = false → s.evRing 0x90 ≠ r →
    ∃ t, exec (.ringRestart r) s = .next t ∧
      ((s.rdi RING_STATE_n.STATE r = 3 ∨ s.rdi RING_STATE_n.STATE r = 4 ∨ s.rdi RING_STATE_n.STATE r = 5) → s.rdi RING_CFG_n.TYPE r = 1 →
        t.rdi RING_STATE_n.STATE r = 1 ∧ t.rdi RING_FAULT_n.STATUS r = 0 ∧ t.rdi RING_STATE_n.CONS r = s.rdi RING_STATE_n.CONS r ∧ t.hostCtr r = s.hostCtr r) ∧
      ((s.rdi RING_STATE_n.STATE r = 3 ∨ s.rdi RING_STATE_n.STATE r = 4 ∨ s.rdi RING_STATE_n.STATE r = 5) →
        s.rdi RING_CFG_n.TYPE r = 0 ∨ s.rdi RING_CFG_n.TYPE r = 3 → s.rdi RING_CFG_n.CRING r ≠ r → s.rdi RING_CFG_n.CRING r ≠ s.evRing 0x90 →
        s.rdi RING_STATE_n.STATE (s.rdi RING_CFG_n.CRING r) = 0 → t.rdi RING_STATE_n.STATE r = 5 ∧ t.rdi RING_FAULT_n.STATUS r = 0x21) ∧
      (¬(s.rdi RING_STATE_n.STATE r = 3 ∨ s.rdi RING_STATE_n.STATE r = 4 ∨ s.rdi RING_STATE_n.STATE r = 5) →
        t.rd HOST_STATUS.CFG_ERR = 1 ∧ t.rdi RING_STATE_n.STATE r = s.rdi RING_STATE_n.STATE r)) ∧
  (∀ (s : State) (r : Fin 64), s.pwr.mainOn = true → s.hst.d3 = false → s.evRing 0x90 ≠ r →
    ∃ t, exec (.ringReset r) s = .next t ∧
      ((s.rdi RING_STATE_n.STATE r = 3 ∨ s.rdi RING_STATE_n.STATE r = 4 ∨ s.rdi RING_STATE_n.STATE r = 5) → s.rdi RING_STATE_n.INFLIGHT r = 0 →
        s.rdi RING_CFG_n.TYPE r ≠ 1 → t.rdi RING_STATE_n.STATE r = 0) ∧
      ((s.rdi RING_STATE_n.STATE r = 3 ∨ s.rdi RING_STATE_n.STATE r = 4 ∨ s.rdi RING_STATE_n.STATE r = 5) → s.rdi RING_STATE_n.INFLIGHT r = 0 →
        s.rdi RING_CFG_n.TYPE r = 1 → t.rdi RING_STATE_n.STATE r = 0 ∧
        ∀ n : Fin 64, n ≠ r → s.evRing 0x90 ≠ n → s.rdi RING_STATE_n.STATE n = 1 → s.rdi RING_CFG_n.TYPE n = 0 ∨ s.rdi RING_CFG_n.TYPE n = 3 →
          s.rdi RING_CFG_n.CRING n = r → t.rdi RING_STATE_n.STATE n = 5 ∧ t.rdi RING_FAULT_n.STATUS n = 0x21) ∧
      (¬((s.rdi RING_STATE_n.STATE r = 3 ∨ s.rdi RING_STATE_n.STATE r = 4 ∨ s.rdi RING_STATE_n.STATE r = 5) ∧ s.rdi RING_STATE_n.INFLIGHT r = 0) →
        t.rd HOST_STATUS.CFG_ERR = 1 ∧ t.rdi RING_STATE_n.STATE r = s.rdi RING_STATE_n.STATE r))

/-- HOST_READ_COMPLETION, HOST_READ_TIMEOUT, WALK_INVALIDATE, WALK_INVALIDATE_DONE and HOST_WALK_ROOT_WRITE (R508, R513, R514,
R516, R527 to R529): a level-1 entry of a buffer's walk that is not present ends its descriptor with status 0x10 and one that is
late with 0x14; the data of a configuration image is read page by page and kept; an error on a descriptor fetch ends it with 0x16; an invalidation
is busy until its cache entries are gone; a root write empties the cache; in D3hot neither write reaches the device. -/
def Obligations.HostReadAndWalkCommands : Prop :=
  (∀ (s : State) (id v e : Nat) (j : Job) (d : Desc) (len a : Nat), s.pwr.mainOn = true → s.hst.jobs.find? (fun j => j.id == id) = some j →
      j.phase = .level1 → j.kind = .buffer d len a → bitOf v 0 = false → d.epoch = s.hst.epoch →
    ∃ t, exec (.hostReadCompletion (.job id) (.entry v) e) s = .next t ∧ ∃ x ∈ t.hst.comps, x.status = 0x10 ∧ x.detail = 1 ∧ x.tag = d.tag) ∧
  (∀ (s : State) (id e : Nat) (l : List Byte) (j : Job) (d : Desc) (c len a : Nat), s.pwr.mainOn = true → s.hst.jobs.find? (fun j => j.id == id) = some j →
      j.phase = .data → j.kind = .furrow d c 0 len a → d.epoch = s.hst.epoch →
    (j.todo.drop 1 = [] → ∃ t img, exec (.hostReadCompletion (.job id) (.bytes l) e) s = .next t ∧
      img = (j.got ++ l.take ((pageSpan a len (j.todo.headD 0)).2 - (pageSpan a len (j.todo.headD 0)).1)).take len ∧
      (t.cell c).svc.cfgImg = some img ∧ (t.cell c).svc.dirty = true ∧
      ∃ x ∈ t.hst.comps, x.status = (if imageCrcOk img then 0 else 8) ∧ x.tag = d.tag) ∧
    (j.todo.drop 1 ≠ [] → ∃ t, exec (.hostReadCompletion (.job id) (.bytes l) e) s = .next t ∧ t.cells = s.cells ∧ t.hst.comps = s.hst.comps ∧
      ∃ k ∈ t.hst.jobs, k.id = j.id ∧ k.todo = j.todo.drop 1 ∧
        k.got = j.got ++ l.take ((pageSpan a len (j.todo.headD 0)).2 - (pageSpan a len (j.todo.headD 0)).1))) ∧
  (∀ (s : State) (r : Fin 64) (e : Nat), s.pwr.mainOn = true →
    ∃ t, exec (.hostReadCompletion (.fetch r) .error e) s = .next t ∧
      ((s.moveTo e).ringReady r = false → t = s.moveTo e) ∧
      ((s.moveTo e).ringReady r = true → ∃ x ∈ t.hst.comps, x.status = 0x16 ∧ x.tag = 0 ∧ x.ring = r.val)) ∧
  (∀ (s : State) (id e : Nat) (j : Job) (d : Desc) (len a : Nat), s.pwr.mainOn = true → s.hst.jobs.find? (fun j => j.id == id) = some j →
      j.phase = .level1 → j.kind = .buffer d len a → j.due ≤ (s.moveTo e).tm.e → d.epoch = s.hst.epoch →
    ∃ t, exec (.hostReadTimeout (.job id) e) s = .next t ∧ ∃ x ∈ t.hst.comps, x.status = 0x14 ∧ x.detail = 1 ∧ x.tag = d.tag) ∧
  (∀ (s : State) (v : Nat) (hi : Bool), s.pwr.mainOn = true → s.hst.d3 = true →
    exec (.walkInvalidate v) s = .next s ∧ exec (.hostWalkRootWrite hi v) s = .next s) ∧
  (∀ (s : State) (v : Nat), s.pwr.mainOn = true → s.hst.d3 = false →
    ∃ t, exec (.walkInvalidate v) s = .next t ∧ t.rd HOST_WALK_INV.BUSY = 1 ∧ t.hst.inv = some (if bitOf v 31 then none else some (bits v 0 18))) ∧
  (∀ (s : State) (w : Option Nat), s.pwr.mainOn = true → s.hst.inv = some w →
    ∃ t, exec .walkInvalidateDone s = .next t ∧ t.rd HOST_WALK_INV.BUSY = 0 ∧ t.hst.inv = none ∧
      ∀ tr ∈ t.hst.cache, tr ∈ s.hst.cache ∧ w ≠ none ∧ w ≠ some tr.page) ∧
  (∀ (s : State) (v : Nat), s.pwr.mainOn = true → s.hst.d3 = false →
    (∃ t, exec (.hostWalkRootWrite false v) s = .next t ∧ t.hst.cache = [] ∧ t.rd HOST_WALK_ROOT_LO.ADDR = bits v 12 20 ∧ t.rd HOST_WALK_ROOT_LO.EN = bits v 0 1) ∧
    (∃ t, exec (.hostWalkRootWrite true v) s = .next t ∧ t.hst.cache = [] ∧ t.rd HOST_WALK_ROOT_LO.ADDR = s.rd HOST_WALK_ROOT_LO.ADDR))

/-- COMPLETION_POST, EVENTS_LOST, MSIX_COALESCE_TIMEOUT, FUNCTION_LEVEL_RESET and POWER_STATE_CHANGE (R494, R495, R510, R511,
R519, R521, R523): a completion is written where its ring's page is translated; the lost-events record clears the count; the
coalesced message goes out; a function reset disables every ring and drops the completions, and leaves the buffers in flight;
a write of configuration space sets D3hot and the BARs. -/
def Obligations.HostEntryAndResetCommands : Prop :=
  (∀ (s : State) (r : Fin 64) (c : Completion) (p : Nat), s.pwr.mainOn = true → s.hst.comps.find? (fun c => c.cring == r.val) = some c →
      s.rdi RING_CFG_n.TYPE r = 1 → s.ringOpen r 1 = true → s.pwr.pfAt = none → s.entryPhys r (s.rdi RING_STATE_n.CONS r) = some (.ok p) → c.ring ≠ r.val →
    ∃ t, exec (.completionPost ⟨r, .all⟩) s = .next t ∧ t.hst.comps = s.hst.comps.erase c ∧
      Out.completion p (completionBytes (s.phaseBit r (s.rdi RING_STATE_n.CONS r)) c) ∈ t.out ∧
      t.rdi RING_STATE_n.CONS r = (s.rdi RING_STATE_n.CONS r + 1) % 65536) ∧
  (∀ (s : State) (r : Fin 64), s.pwr.mainOn = true → (tget (fun _ => (0, 0)) s.hst.lost r).1 ≠ 0 →
      ((tget (fun _ => []) s.hst.evq r).map Event.entries).foldl (· + ·) 0 < 1024 →
    ∃ t, exec (.eventsLost r) s = .next t ∧ tget (fun _ => (0, 0)) t.hst.lost r = (0, 0) ∧ s.hst.seqNo < t.hst.seqNo) ∧
  (∀ (s : State) (r : Fin 64) (e : Nat), s.pwr.mainOn = true → tget (fun _ => 0) s.hst.unsig r ≠ 0 → s.rdi RING_CFG_n.COAL_US r ≠ 0 → s.hst.d3 = false →
      tget (fun _ => 0) s.hst.unsigAt r + s.rdi RING_CFG_n.COAL_US r * 1000 ≤ (s.moveTo e).tm.e →
    ∃ t, exec (.msixCoalesceTimeout r e) s = .next t ∧ tget (fun _ => 0) t.hst.unsig r = 0 ∧
      (s.biti RING_CFG_n.IRQ_EN r = true → Out.msix (s.rdi RING_CFG_n.VECTOR r) ∈ t.out)) ∧
  (∀ (s : State), s.pwr.mainOn = true →
    ∃ t, exec .functionLevelReset s = .next t ∧ (∀ r, r < 64 → t.rdi RING_STATE_n.STATE r = 0) ∧ t.hst.comps = [] ∧ t.hst.cache = [] ∧
      t.hst.bufs = s.hst.bufs ∧ t.hst.epoch = s.hst.epoch + 1 ∧ t.rd HOST_STATUS.IN_FLIGHT = 0) ∧
  (∀ (s : State) (b : List (Nat × Nat)), s.pwr.mainOn = true →
    (∃ t, exec (.powerStateChange ⟨true, b⟩) s = .next t ∧ t.hst.d3 = true ∧ t.hst.bars = b ∧ t.regs = s.regs) ∧
    (∃ t, exec (.powerStateChange ⟨false, b⟩) s = .next t ∧ t.hst.d3 = false ∧ t.hst.bars = b ∧
      ((∀ j ∈ s.hst.jobs, j.phase ≠ .data) → t.hst.comps = s.hst.comps)))

/-- MAIN_POWER_ON, RAIL_RESET, RESET_N_ASSERTED, BRINGUP_STAGE, PERSIST and PERSIST_DONE (R631, R632, R634, R635, R638, R679,
R685): main power-on leaves cells, sluice, control and rings as at reset; a rail reset and RESET_N stop the main die with the breaker
tripped, and without VDDIO_33 the breaker outputs read 0 and the motor channels are off; the stages from B1 to B5 rise by
their conditions; a persist is refused, or busy until the flash has taken the image. -/
def Obligations.PowerUpAndPersistCommands : Prop :=
  (∀ (s : State), s.pwr.mainOn = false →
    ∃ t, exec .mainPowerOn s = .next t ∧ t.pwr.mainOn = true ∧ t.cells = [] ∧ t.slc = State.reset.slc ∧ t.law = State.reset.law ∧
      t.rings = State.reset.rings ∧ t.tm.e = 0) ∧
  (∀ (s : State) (v : Bool), s.pwr.mainOn = true → s.pwr.vddio = v →
    ∃ t, exec .railReset s = .next t ∧ t.pwr.mainOn = false ∧ t.pwr.railsOk = false ∧ t.pwr.vddio = v ∧
      t.rd SLC_BLOCK_STATUS.BRK = 1 ∧ t.pwr.railReset = (s.pwr.railReset || !s.pwr.pfDone) ∧ Out.brkTrip v v ∈ t.out ∧
      (v = false → ∀ m : Fin 2, t.astate m = 0 ∧ t.rdi AUX_STATUS_m.HOLD m = 0 ∧ Out.driveOff m ∈ t.out)) ∧
  (∀ (s : State), s.pwr.mainOn = true →
    ∃ t, exec .resetNAsserted s = .next t ∧ t.pwr.mainOn = false ∧ t.pwr.resetN = false ∧ t.rd SLC_BLOCK_STATUS.BRK = 1 ∧
      ∀ m : Fin 2, s.astate m = 4 → t.astate m = 5) ∧
  (∀ (s : State) (b : Option BootRun) (e : Nat), s.pwr.mainOn = true → s.pwr.bootFail = false → s.pwr.restart = false →
    (s.stage = 1 → s.tri.imageOk = true → s.pwr.tready = true → ∃ t, exec (.bringupStage b e) s = .next t ∧ t.stage = 2) ∧
    (s.stage = 2 → s.tm.run = false → (s.moveTo e).stageOk 3 = true →
      ∃ t, exec (.bringupStage b e) s = .next t ∧ t.stage = 3 ∧ t.tm.run = true) ∧
    (s.stage = 3 → s.tm.run = true → s.bit PWR_STATUS.SLEEP = false → s.pwr.wakePend = false → (s.moveTo e).stageOk 4 = true →
      ∃ t, exec (.bringupStage b e) s = .next t ∧ t.stage = 4 ∧ t.pwr.waking = false) ∧
    (s.stage = 4 → (s.moveTo e).stageOk 5 = true → ∃ t, exec (.bringupStage b e) s = .next t ∧ t.stage = 5 ∧ t.rd MTR_STATUS.CAL_PENDING = 0) ∧
    (s.stage = 4 → (s.moveTo e).stageOk 5 = false → exec (.bringupStage b e) s = .next (s.moveTo e))) ∧
  (∀ (s : State) (e : Nat), s.pwr.mainOn = true →
    (s.bit TRI_FW_STATUS.STAGING = false → s.bit TRI_FW_STATUS.PENDING = false → s.rd LC_STATE.STATE ≠ 4 →
      ∃ t, exec (.persist e) s = .next t ∧ t.rd PWR_BOOT_CTRL.BUSY = 1 ∧ t.pwr.persistAt = some (s.moveTo e).tm.e) ∧
    (s.bit TRI_FW_STATUS.STAGING = true ∨ s.bit TRI_FW_STATUS.PENDING = true ∨ s.rd LC_STATE.STATE = 4 →
      ∃ t, exec (.persist e) s = .next t ∧ t.rd PWR_BOOT_CTRL.RESULT = 3 ∧ t.rd PWR_STATUS.CFG_ERR = 1 ∧ t.pwr = s.pwr)) ∧
  (∀ (s : State) (a : Nat), s.pwr.mainOn = true → s.pwr.persistAt = some a → s.pwr.flash.select ≤ 1 →
    (∃ t, exec (.persistDone true) s = .next t ∧ t.rd PWR_BOOT_CTRL.BUSY = 0 ∧ t.rd PWR_BOOT_CTRL.RESULT = 1 ∧ t.rd PWR_BOOT_CTRL.SELECT = 1 - s.pwr.flash.select ∧
      t.pwr.flash.select = 1 - s.pwr.flash.select ∧ (if s.pwr.flash.select = 1 then t.pwr.flash.slot0 else t.pwr.flash.slot1) = s.activeImage) ∧
    (∃ t, exec (.persistDone false) s = .next t ∧ t.rd PWR_BOOT_CTRL.BUSY = 0 ∧ t.rd PWR_BOOT_CTRL.RESULT = 2 ∧ t.pwr.flash.select = s.pwr.flash.select))

/-- SLEEP, WAKE, SHUTDOWN and SHUTDOWN_DONE (R640, R641, R647): sleep is asked for where every cell is blocked from B4 on and
neither a swap nor a persist waits, and refused elsewhere; an enabled source wakes; shutdown needs the safe state, and ends
with OFF_READY and the BIST result. -/
def Obligations.SleepAndShutdownCommands : Prop :=
  (∀ (s : State) (e : Nat), s.pwr.mainOn = true →
    (s.allBlocked = true → 4 ≤ s.stage → s.bit TRI_FW_STATUS.PENDING = false → s.bit PWR_BOOT_CTRL.BUSY = false →
      ∃ t, exec (.sleep e) s = .next t ∧ t.pwr = { s.pwr with sleepPend := true }) ∧
    (s.allBlocked = false ∨ s.stage < 4 ∨ s.bit TRI_FW_STATUS.PENDING = true ∨ s.bit PWR_BOOT_CTRL.BUSY = true →
      ∃ t, exec (.sleep e) s = .next t ∧ t.rd PWR_STATUS.CFG_ERR = 1 ∧ t.pwr = s.pwr)) ∧
  (∀ (s : State) (w : WakeSrc) (e : Nat), s.pwr.mainOn = true →
    (s.bit PWR_STATUS.SLEEP = true → s.wakeOn w = true →
      ∃ t, exec (.wake w e) s = .next t ∧ t.rd PWR_STATUS.SLEEP = 0 ∧ t.rd PWR_STATUS.WAKE_SRC = wakeBit w ∧ t.pwr.waking = true) ∧
    (s.bit PWR_STATUS.SLEEP = false ∨ s.wakeOn w = false → exec (.wake w e) s = .next (s.moveTo e))) ∧
  (∀ (s : State) (e : Nat), s.pwr.mainOn = true →
    (s.rd SLC_BLOCK_STATUS.SCOPE = 3 → ∃ t, exec (.shutdown e) s = .next t ∧ t.pwr = { s.pwr with shutdown := true }) ∧
    (s.rd SLC_BLOCK_STATUS.SCOPE ≠ 3 → ∃ t, exec (.shutdown e) s = .next t ∧ t.rd PWR_STATUS.CFG_ERR = 1 ∧ t.pwr = s.pwr)) ∧
  (∀ (s : State) (fail e : Nat), s.pwr.mainOn = true → s.pwr.shutdown = true → s.mtr.snap = none → s.mtr.form = none → s.pwr.pfAt = none → s.bit PWR_STATUS.OFF_READY = false →
    ∃ t, exec (.shutdownDone fail e) s = .next t ∧ t.rd PWR_STATUS.OFF_READY = 1 ∧ t.rd BIST_STATUS.VALID = 1 ∧ t.rd BIST_STATUS.FAIL = fail % 4096)

/-- OASIS_TICK, OASIS_COLD_START, OASIS_TRIM, LC_TRANSITION and FWKEY_FUSE (R642 to R644, R650, R651): what the oasis domain
shows of its supply, when the outage counter starts, and that the breaker outputs then read 0; what a cold start leaves; the oscillator's trim every 60 s; the
life-cycle transitions that the states allow, and the refusal of another; the key fuse, once. -/
def Obligations.OasisAndLifeCycleCommands : Prop :=
  (∀ (s : State) (o : OasisIn), s.pwr.oasis = true → 300 ≤ o.vin →
    ∃ t, exec (.oasisTick o) s = .next t ∧ t.rd KA_STATUS.VIN = min o.vin 65535 ∧ t.rd KA_STATUS.LOW = b2n (decide (o.vin < 400)) ∧
      (3000 ≤ o.vin → t.rd KA_STATUS.PGOOD = 1) ∧ (o.vin < 2200 → t.rd KA_STATUS.PGOOD = 0) ∧ (o.vddio = false → t.rd KA_STATUS.COUNTING = 1) ∧
      t.pwr.vddio = o.vddio ∧ (s.pwr.vddio = true → o.vddio = false → Out.brkTrip false false ∈ t.out)) ∧
  (∀ (s : State), ∃ t, exec .oasisColdStart s = .next t ∧ t.rd KA_STATUS.COLD = 1 ∧ t.rd KA_OUTAGE.SECONDS = 0xFFFFFFFF ∧ t.rd KA_CT_ACC.ACC = 0 ∧
      t.rd KA_STATUS.COUNTING = 0 ∧ t.pwr.oasis = true) ∧
  (∀ (s : State) (ppm : Int) (e : Nat), s.pwr.mainOn = true →
    (s.pwr.trimAt + 60000000000 ≤ (s.moveTo e).tm.e →
      ∃ t, exec (.oasisTrim ppm e) s = .next t ∧ t.pwr = { s.pwr with oscTrim := ppm, trimAt := (s.moveTo e).tm.e } ∧ t.regs = s.regs) ∧
    ((s.moveTo e).tm.e < s.pwr.trimAt + 60000000000 → exec (.oasisTrim ppm e) s = .next (s.moveTo e))) ∧
  (∀ (s : State) (ag : Agent) (e : Nat), s.pwr.mainOn = true →
    (s.rd LC_STATE.STATE = 1 → ∃ t, exec (.lcTransition (2 * 2 ^ 29 + 0x4C02) ag e) s = .next t ∧ t.rd LC_STATE.STATE = 2) ∧
    (s.rd LC_STATE.STATE = 2 → s.bit SAFE_STATUS.CONFIRMED = true → s.pwr.fused ≠ none → s.bit LC_STATE.KEY = true → s.rd CIS_STATUS.STATE = 2 →
      s.allBlocked = true → ∃ t, exec (.lcTransition (3 * 2 ^ 29 + 0x4C03) ag e) s = .next t ∧ t.rd LC_STATE.STATE = 3) ∧
    (s.rd LC_STATE.STATE = 3 → s.rd SLC_BLOCK_STATUS.SCOPE = 3 → (s.moveTo e).doorDemands = true → 0 < s.rd LC_STATE.RETURNS_LEFT →
      ∃ t, exec (.lcTransition (2 * 2 ^ 29 + 0x4C02) ag e) s = .next t ∧ t.rd LC_STATE.STATE = 2 ∧ t.rd SAFE_STATUS.CONFIRMED = 0 ∧
        t.rd LC_STATE.RETURNS_LEFT = s.rd LC_STATE.RETURNS_LEFT - 1) ∧
    (s.rd LC_STATE.STATE = 1 ∨ s.rd LC_STATE.STATE = 2 ∨ s.rd LC_STATE.STATE = 3 → s.rd SLC_BLOCK_STATUS.SCOPE = 3 →
      ∃ t, exec (.lcTransition (4 * 2 ^ 29 + 0x4C04) ag e) s = .next t ∧ t.rd LC_STATE.STATE = 4 ∧ t.rd LC_STATE.KEY = 0) ∧
    (s.rd LC_STATE.STATE = 4 → ∃ t, exec (.lcTransition (2 * 2 ^ 29 + 0x4C02) ag e) s = .next t ∧ t.rd LC_STATE.STATE = 4 ∧ t.rd PWR_STATUS.CFG_ERR = 1)) ∧
  (∀ (s : State), s.pwr.mainOn = true →
    ((s.rd LC_STATE.STATE = 1 ∨ s.rd LC_STATE.STATE = 2) → s.pwr.fused = none →
      ∃ t, exec .fwkeyFuse s = .next t ∧ t.rd LC_STATE.FWKEY = 1 ∧ t.pwr.fused = some (Config.sha256 s.pwr.flash.pubKey)) ∧
    (s.pwr.fused ≠ none ∨ (s.rd LC_STATE.STATE ≠ 1 ∧ s.rd LC_STATE.STATE ≠ 2) →
      ∃ t, exec .fwkeyFuse s = .next t ∧ t.rd PWR_STATUS.CFG_ERR = 1 ∧ t.pwr = s.pwr))

/-- DOORBELL, REGISTER_WRITE, RC_FIELD_READ, S3_DEADLINE, COMPLETION_POST, WADI_FRAME_DUE and AUX_PWM_PERIOD where the members'
copies differ (R23, R466 to R468, R471, R475):
with three members running a copy that differs alone loses the vote and is counted, and the command acts as without it; with
two running it acts on one of the two copies (the model's choice, log entry 103); an output that one member forms
differently leaves and fences that member, and one on which no two agree does not leave and latches TRIAD. -/
def Obligations.AgreementAndOutputVotes : Prop :=
  (∀ (s : State) (r : Fin 64) (v w : Nat) (m : Member), s.pwr.mainOn = true → (∀ k, k < 3 → s.running k = true) → sgn 32 w ≠ sgn 32 v →
    exec (.doorbell r ⟨v, [(m, w)]⟩) s = exec (.doorbell r ⟨v, []⟩) (s.lostVote (memberNum m)) ∧
    ∃ t, exec (.doorbell r ⟨v, [(m, w)]⟩) s = .next t) ∧
  (∀ (s : State) (r : Fin 64) (v w : Nat), s.pwr.mainOn = true → s.running 0 = true → s.running 1 = true → s.running 2 = false →
      sgn 32 w ≠ sgn 32 v →
    exec (.doorbell r ⟨v, [(.b, w)]⟩) s = exec (.doorbell r ⟨v, []⟩) (s.used.lostVote 1) ∨
    exec (.doorbell r ⟨v, [(.b, w)]⟩) s = exec (.doorbell r ⟨w, []⟩) (s.used.lostVote 0)) ∧
  (∀ (s : State) (off be v w e : Nat) (m : Member), s.pwr.mainOn = true → (∀ k, k < 3 → s.running k = true) →
      sgn 32 w ≠ sgn 32 (v % 2 ^ 32) →
    exec (.registerWrite .host off be ⟨v, [(m, ⟨off, be, w⟩)]⟩ e) s = exec (.registerWrite .host off be ⟨v, []⟩ e) (s.lostVote (memberNum m))) ∧
  (∀ (s : State) (off off' be v e : Nat) (m : Member), s.pwr.mainOn = true → (∀ k, k < 3 → s.running k = true) → off' ≠ off →
    exec (.registerWrite .host off be ⟨v, [(m, ⟨off', be, v % 2 ^ 32⟩)]⟩ e) s =
      exec (.registerWrite .host off be ⟨v, []⟩ e) (s.lostVote (memberNum m))) ∧
  (∀ s : State, (s.lostVote 0).rd TRI_AGREE_COUNT.LOST_A = min 255 (s.rd TRI_AGREE_COUNT.LOST_A + 1) ∧
    (s.lostVote 1).rd TRI_AGREE_COUNT.LOST_B = min 255 (s.rd TRI_AGREE_COUNT.LOST_B + 1) ∧
    (s.lostVote 2).rd TRI_AGREE_COUNT.LOST_C = min 255 (s.rd TRI_AGREE_COUNT.LOST_C + 1)) ∧
  (∀ (s : State) (used e : Nat) (m : Member), s.pwr.mainOn = true → s.tm.run = true → s.tm.phase = 3 → s.deadline 3 ≤ (s.moveTo e).tm.e →
      s.tm.abandoned = false → s.tm.launchOver = false → s.pwr.shutdown = false → s.halted = false → s.sched.plan ≠ none →
      s.rd TRI_STATUS.MODE = 1 →
    (((s.tri.fences.getD (memberNum m) []).filter (fun x => decide ((s.moveTo e).tm.e < x + 3600000000000))).length < 2 →
      ∃ t, exec (.s3Deadline ⟨true, .odd m⟩ used e) s = .next t ∧ t.tm.phase = 4 ∧ t.sched.launched = .normal ∧
        t.rd TRI_STATUS.MODE = 2 ∧ t.rd TRI_STATUS.FENCED = memberNum m ∧ t.rd TRI_MISMATCH_LOG.KIND = 1) ∧
    (s.rd SLC_BLOCK_STATUS.PHASES < 8 →
      ∃ t, exec (.s3Deadline ⟨true, .split⟩ used e) s = .next t ∧ t.tm.phase = 4 ∧ t.rd SLC_TRIP_LATCH.TRIAD = 1 ∧
        t.rd SLC_BLOCK_STATUS.SCOPE = 3 ∧ t.rd TRI_MISMATCH_LOG.MEMBER = 3 ∧ t.rd TRI_MISMATCH_LOG.KIND = 1)) ∧
  (∀ (s : State) (r : Fin 64) (c : Completion) (p : Nat) (m : Member), s.pwr.mainOn = true → s.hst.comps.find? (fun c => c.cring == r.val) = some c →
      s.rdi RING_CFG_n.TYPE r = 1 → s.ringOpen r 1 = true → s.pwr.pfAt = none → s.entryPhys r (s.rdi RING_STATE_n.CONS r) = some (.ok p) →
      s.rd TRI_STATUS.MODE = 1 →
    (((s.tri.fences.getD (memberNum m) []).filter (fun x => decide (s.tm.e < x + 3600000000000))).length < 2 →
      ∃ t, exec (.completionPost ⟨r, .odd m⟩) s = .next t ∧ t.hst.comps = s.hst.comps.erase c ∧
        Out.completion p (completionBytes (s.phaseBit r (s.rdi RING_STATE_n.CONS r)) c) ∈ t.out ∧
        t.rd TRI_STATUS.MODE = 2 ∧ t.rd TRI_STATUS.FENCED = memberNum m ∧ t.rd TRI_MISMATCH_LOG.ADDR = p % 2 ^ 24) ∧
    (s.rd SLC_BLOCK_STATUS.PHASES < 8 →
      ∃ t, exec (.completionPost ⟨r, .split⟩) s = .next t ∧
        t = ({ s with hst := { s.hst with comps := s.hst.comps.erase c } }).secondMismatch 0 (p % 2 ^ 24) ∧
        t.rd SLC_TRIP_LATCH.TRIAD = 1 ∧ t.rd SLC_BLOCK_STATUS.SCOPE = 3)) ∧
  (∀ (s : State) (off w e : Nat) (m : Member) (x : RegRow), s.pwr.mainOn = true → (∀ k, k < 3 → s.running k = true) → off % 4 = 0 →
      regAt off = some x → s.absentReg x ((off - x.base) / 4) = false → (∀ y ∈ x.fields, y.acc ≠ .rc ∧ y.f.w ≠ 32) →
      off / 0x10000 ≠ ADC_Q_STATUS_q.STATE.base / 0x10000 → off / 0x10000 ≠ CMP_STATUS.LIVE.base / 0x10000 →
      off / 0x10000 ≠ AUX_STATUS_m.HOLD.base / 0x10000 → off ≠ CLK_ELAPSED_LO.E_LO.base → off ≠ CLK_ALIGN_OFS_LO.O_LO.base →
      off ≠ MTR_PORT_DATA_n.W.base → w ≠ s.readWord .firmware off →
    exec (.rcFieldRead .firmware ⟨off, [(m, w)]⟩ e) s =
      .next (((s.moveTo e).lostVote (memberNum m)).emit (.readData .firmware off (s.readWord .firmware off)))) ∧
  (∀ (s : State) (r : Fin 16) (e : Nat), s.pwr.mainOn = true → s.wadiRate r = true → s.rd TRI_STATUS.MODE = 1 → s.rd SLC_BLOCK_STATUS.PHASES < 8 →
      (s.ring r).wadiTx + (if s.stage = 3 ∧ s.bit PWR_STATUS.SLEEP = false then 1 else s.rd LINK_WADI_CFG.INTERVAL) * 1000000 ≤ (s.moveTo e).tm.e →
    ∃ t, exec (.wadiFrameDue ⟨r, .split⟩ e) s = .next t ∧ t.rd SLC_TRIP_LATCH.TRIAD = 1 ∧ t.rd SLC_BLOCK_STATUS.SCOPE = 3 ∧
      t.rd TRI_MISMATCH_LOG.KIND = 1) ∧
  (∀ (s : State) (n : Fin 2) (c : PhaseSample) (e : Nat), s.pwr.mainOn = true → s.bit TRI_STATUS.DBG_HALT = false → 2 ≤ s.astate n →
      s.astate n ≤ 5 → c.agree = .split → s.rd TRI_STATUS.MODE = 1 → s.rd SLC_BLOCK_STATUS.PHASES < 8 →
    ∃ t, exec (.auxPwmPeriod n c e) s = .next t ∧ t.rd SLC_TRIP_LATCH.TRIAD = 1 ∧ t.rd SLC_BLOCK_STATUS.SCOPE = 3)

/-- A step takes the command at the front of the queue and answers what that command's effect answers on the state with
the rest of the queue. -/
def Obligations.StepRunsFront : Prop :=
  ∀ (c : Instr) (s : State), step { s with pending := c :: s.pending } = exec c s

/-- With no command waiting a step changes nothing: the model's choice (log entry 4), since every time-driven happening
is a command that carries its instant. -/
def Obligations.EmptyQueueIdles : Prop :=
  ∀ s : State, s.pending = [] → step s = .next s

/-- No command ends in a fault or a refusal, from any state, and none puts a command in the queue or takes one out: the
block as modelled is never stopped. -/
def Obligations.EveryCommandCompletes : Prop :=
  ∀ (c : Instr) (s : State), ∃ t, exec c s = .next t ∧ t.pending = s.pending

/-- The register table, the cells' records and the triad's memories are in their one canonical form after reset. -/
def Obligations.ResetIsCanonical : Prop := Canonical State.reset

/-- From every state whose register table, cells' records and triad memories are in canonical form, a step of any
command leaves them so: equal contents stay equal data. -/
def Obligations.StepKeepsCanonical : Prop :=
  ∀ s t : State, Canonical s → step s = .next t → Canonical t

/-- The frame of all commands: whatever the operands and the state, every register word (the active copies among them)
outside the blocks `touchedBlocks` lists for the command reads as before, every part of the state that `touchedParts`
does not list is the same, and the queue is the same. -/
def Obligations.CommandFrames : Prop :=
  ∀ (c : Instr) (s t : State), exec c s = .next t →
    (∀ off, off < 0x290000 → off / 0x10000 ∉ touchedBlocks c → t.word off = s.word off) ∧
    (∀ p : Part, p ∉ touchedParts c → p.same s t) ∧ t.pending = s.pending

/-- While the main die is without power or held in reset (R631, R632), a command changes nothing, but for power-on, the
release of PF_WARN that ends the hold, the two resets' own marks, the ticks and cold start of the oasis domain (R642), the
drives' short-circuit paths (R404) and the aux die's motor channels. -/
def Obligations.MainDieWithoutPower : Prop :=
  ∀ (c : Instr) (s : State), s.pwr.mainOn = false →
    (match c with
     | .mainPowerOn | .pfWarnDeassert .. | .railReset | .resetNAsserted | .driveShort .. | .oasisTick .. | .oasisColdStart
     | .auxDiagDone .. | .auxAlignDone .. | .auxHandover .. | .auxSpeedLoop .. | .auxPwmPeriod .. | .auxWindowCap .. | .keMeasured ..
     | .vauxUv .. | .vauxUvRecover .. | .vauxOv .. | .cpUv .. | .regenLimit .. | .regenClear .. => True
     | _ => exec c s = .next s)

/-- R40: a write of CLK_TICK_CFG, or of LINK_CFG, with which OVERRUN_LIMIT would not be less than STARVE_TICKS is refused:
CLK_TICK_STATUS.CFG_ERR is set, neither register changes, nor the period in force or one that waits. Whatever the word,
a write of either leaves OVERRUN_LIMIT below STARVE_TICKS where it was below, so the overrun trip comes before cell
starvation. -/
def Obligations.OverrunTripBeforeStarvation : Prop :=
  ∀ (s : State) (v : Nat), s.pwr.mainOn = true →
    (s.rd LINK_CFG.STARVE_TICKS ≤ bits v 20 4 →
      ∃ t, exec (.clkTickCfgWrite v) s = .next t ∧ t.rd CLK_TICK_STATUS.CFG_ERR = 1 ∧ t.tm = s.tm ∧
        ∀ f i, apart CLK_TICK_STATUS.CFG_ERR f = true → t.rdi f i = s.rdi f i) ∧
    (bits v 24 5 ≤ s.rd CLK_TICK_CFG.OVERRUN_LIMIT →
      ∃ t, exec (.linkCfgWrite v) s = .next t ∧ t.rd CLK_TICK_STATUS.CFG_ERR = 1 ∧
        ∀ f i, apart CLK_TICK_STATUS.CFG_ERR f = true → apart LINK_RING_STATUS_r.CFG_ERR f = true → t.rdi f i = s.rdi f i) ∧
    (∀ t, s.rd CLK_TICK_CFG.OVERRUN_LIMIT < s.rd LINK_CFG.STARVE_TICKS →
      exec (.clkTickCfgWrite v) s = .next t ∨ exec (.linkCfgWrite v) s = .next t →
      t.rd CLK_TICK_CFG.OVERRUN_LIMIT < t.rd LINK_CFG.STARVE_TICKS)

/-- R700: while PENDING of a table control reads 1, a word written by any agent to any shadow register of its group (the
shadowed registers of the block or blocks that the table control serves) is refused: the CFG_ERR field named for the
block is set, and no other field of any register, and no active copy, changes, so a swap never takes a half-written
set. -/
def Obligations.PendingGroupRefusesWrites : Prop :=
  ∀ (s : State) (ag : Agent) (off v e : Nat) (r : RegRow), s.pwr.mainOn = true → s.admits ag = true → off % 4 = 0 →
    regAt off = some r → isShadowed r.base = true →
    ∀ x ∈ [(0x10, HGS_TABLE_CTRL.PENDING, HGS_RATING_STATUS.CFG_ERR), (0x12, CTL_TABLE_CTRL.PENDING, CTL_STATUS.CFG_ERR),
        (0x13, FRT_TABLE_CTRL.PENDING, SYNC_STATUS.CFG_ERR), (0x14, FRT_TABLE_CTRL.PENDING, SYNC_STATUS.CFG_ERR),
        (0x15, MIR_TABLE_CTRL.PENDING, MIR_STATUS.CFG_ERR), (0x16, PORT_TABLE_CTRL.PENDING, PORT_GSTATUS.CFG_ERR),
        (0x24, MTR_CAL_CTRL.PENDING, MTR_STATUS.CFG_ERR)],
      off / 0x10000 = x.1 → s.rd x.2.1 = 1 →
      ∃ t, exec (.registerWrite ag off 15 ⟨v, []⟩ e) s = .next t ∧ t.rd x.2.2 = 1 ∧ t.cells = s.cells ∧ t.law = s.law ∧
        (∀ f i, apart x.2.2 f = true → t.rdi f i = s.rdi f i) ∧ ∀ k, k ≠ x.2.2.key 0 → tget regDefault t.regs k = tget regDefault s.regs k

/-- R697: a read of CLK_ELAPSED_LO, of CLK_ALIGN_OFS_LO or of MTR_PORT_DATA_0 by one agent latches the upper half of E, of
O, or the selected cell's nine words for that agent, whose later reads of CLK_ELAPSED_HI, CLK_ALIGN_OFS_HI and
MTR_PORT_DATA_1 to _8 return what it latched; what any other agent reads at any offset stays as it was. A read of a
register with RC fields, by contrast, leaves each of them 0 in the one register that every agent reads; a result queue's is
of the instant of the read. -/
def Obligations.ReadLatchesPerAgent : Prop :=
  (∀ (s : State) (ag : Agent), s.pwr.mainOn = true →
    (∃ t, exec (.elapsedRead ag) s = .next t ∧ t.readWord ag CLK_ELAPSED_HI.E_HI.base = s.tm.e / 2 ^ 32 % 2 ^ 32 ∧
      ∀ b, b ≠ ag → ∀ off, t.readWord b off = s.readWord b off) ∧
    (∃ t, exec (.alignOfsRead ag) s = .next t ∧ t.readWord ag CLK_ALIGN_OFS_HI.O_HI.base = unsg 64 s.tm.o.floor / 2 ^ 32 ∧
      ∀ b, b ≠ ag → ∀ off, t.readWord b off = s.readWord b off) ∧
    (∃ t, exec (.mtrPortSnapshotRead ag) s = .next t ∧
      (∀ i, 1 ≤ i → i ≤ 8 → t.readWord ag (MTR_PORT_DATA_n.W.base + 4 * i) = s.portWords.getD i 0) ∧
      ∀ b, b ≠ ag → ∀ off, t.readWord b off = s.readWord b off)) ∧
  (∀ (s : State) (ag : Agent) (off e : Nat), s.pwr.mainOn = true → s.admits ag = true →
    (off = CLK_ELAPSED_HI.E_HI.base ∨ off = CLK_ALIGN_OFS_HI.O_HI.base ∨ ∃ i, 1 ≤ i ∧ i ≤ 8 ∧ off = MTR_PORT_DATA_n.W.base + 4 * i) →
    ∃ t, exec (.rcFieldRead ag ⟨off, []⟩ e) s = .next t ∧ t.out = s.out ++ [.readData ag off (s.readWord ag off)] ∧
      ∀ b o, t.readWord b o = s.readWord b o) ∧
  (∀ (s : State) (ag : Agent) (off e : Nat) (r : RegRow), s.pwr.mainOn = true → s.admits ag = true → off % 4 = 0 →
    regAt off = some r → s.absentReg r ((off - r.base) / 4) = false → (∃ x ∈ r.fields, x.acc = .rc) →
    ∃ t, exec (.rcFieldRead ag ⟨off, []⟩ e) s = .next t ∧
      (off / 0x10000 ≠ ADC_Q_STATUS_q.STATE.base / 0x10000 → off / 0x10000 ≠ CMP_STATUS.LIVE.base / 0x10000 →
        off / 0x10000 ≠ AUX_STATUS_m.HOLD.base / 0x10000 → t.out = s.out ++ [.readData ag off (s.readWord ag off)]) ∧
      (off / 0x10000 = ADC_Q_STATUS_q.STATE.base / 0x10000 →
        t.out = (s.moveTo e).cmpLook.qRunAll.out ++ [.readData ag off ((s.moveTo e).cmpLook.qRunAll.readWord ag off)]) ∧
      (off / 0x10000 = CMP_STATUS.LIVE.base / 0x10000 →
        t.out = (s.moveTo e).cmpLook.out ++ [.readData ag off ((s.moveTo e).cmpLook.readWord ag off)]) ∧
      (off / 0x10000 = AUX_STATUS_m.HOLD.base / 0x10000 →
        t.out = (s.moveTo e).auxHolds.out ++ [.readData ag off ((s.moveTo e).auxHolds.readWord ag off)]) ∧
      ∀ x ∈ r.fields, x.acc = .rc → t.rdi x.f ((off - r.base) / 4) = 0)

/-- R353: a write of a trigger's configuration, selection or timer after which a tick-sourced DELAY is not less than the
tick period, or a timer trigger's DELAY not less than PERIOD times 10 ns, is refused: ADC_STATUS.CFG_ERR is set and no
other field changes. When a waiting period takes effect, each enabled tick-sourced trigger whose DELAY is at or beyond
the new period loses EN, ADC_STATUS.CFG_ERR is set, and every other trigger's EN stays. -/
def Obligations.TriggerDelayInsidePeriod : Prop :=
  (∀ (s : State) (ag : Agent) (i v e : Nat) (f : Fld), s.pwr.mainOn = true → s.admits ag = true → i < 16 → v < 2 ^ 32 →
    ((f = ADC_TRIG_CFG_t.EN ∧ bits v 28 3 = 0 ∧ s.period ≤ s.rdi ADC_TRIG_SEL_t.DELAY i) ∨
     (f = ADC_TRIG_CFG_t.EN ∧ bits v 28 3 = 1 ∧ s.rdi ADC_TRIG_TIMER_t.PERIOD i * 10 ≤ s.rdi ADC_TRIG_SEL_t.DELAY i) ∨
     (f = ADC_TRIG_SEL_t.DELAY ∧ s.rdi ADC_TRIG_CFG_t.SRC i = 0 ∧ s.period ≤ bits v 16 16) ∨
     (f = ADC_TRIG_SEL_t.DELAY ∧ s.rdi ADC_TRIG_CFG_t.SRC i = 1 ∧ s.rdi ADC_TRIG_TIMER_t.PERIOD i * 10 ≤ bits v 16 16) ∨
     (f = ADC_TRIG_TIMER_t.PERIOD ∧ s.rdi ADC_TRIG_CFG_t.SRC i = 1 ∧ bits v 0 24 * 10 ≤ s.rdi ADC_TRIG_SEL_t.DELAY i)) →
    ∃ t, exec (.registerWrite ag (f.off i) 15 ⟨v, []⟩ e) s = .next t ∧ t.rd ADC_STATUS.CFG_ERR = 1 ∧
      ∀ g j, apart ADC_STATUS.CFG_ERR g = true → t.rdi g j = s.rdi g j) ∧
  (∀ (s : State) (h e : Nat), s.pwr.mainOn = true → s.tm.run = true → s.tm.phase = 0 → (s.moveTo e).tm.e = s.tm.start →
    s.tm.newHalf = some h → (s.moveTo e).stime % ((h * 500 : Nat) : Int) = 0 → (s.moveTo e).stime % (s.period : Int) = 0 →
    ∃ t, exec (.periodChange e) s = .next t ∧ t.tm.half = h ∧
      (∀ n, n < 16 → s.biti ADC_TRIG_CFG_t.EN n = true → s.rdi ADC_TRIG_CFG_t.SRC n = 0 → h * 500 ≤ s.rdi ADC_TRIG_SEL_t.DELAY n →
        t.rdi ADC_TRIG_CFG_t.EN n = 0 ∧ t.rd ADC_STATUS.CFG_ERR = 1) ∧
      (∀ n, n < 16 → ¬(s.rdi ADC_TRIG_CFG_t.SRC n = 0 ∧ h * 500 ≤ s.rdi ADC_TRIG_SEL_t.DELAY n) →
        t.rdi ADC_TRIG_CFG_t.EN n = s.rdi ADC_TRIG_CFG_t.EN n))

/-- R18, R631: at main power-on every field of the register table, the active copies among them, takes the value it has in
the state right after reset (the Reset column), but for the fields that main power loss does not take: those of the
identity and life-cycle blocks (OTP), of the keep-alive block (KA; COUNTING, which says that the main supply is away,
becomes 0) and of the stored BIST result. The journal and the boot flash keep what they hold, and the journal takes the METER_FLAGs that are not
posted (R519). A start after a rail reset
also sets RAIL_RESET and posts its record, so the clauses on those fields and on the journal speak of a
start without one. -/
def Obligations.PowerOnResetsFields : Prop :=
  ∀ s : State, s.pwr.mainOn = false → twf regDefault s.regs = true →
    ∃ t, exec .mainPowerOn s = .next t ∧ t.pwr.mainOn = true ∧ (s.pwr.railReset = false → t.jr = { s.jr with flags := t.jr.flags } ∧ s.jr.flags <+: t.jr.flags) ∧ t.pwr.flash = s.pwr.flash ∧ t.pwr.fused = s.pwr.fused ∧
      t.rd KA_STATUS.COUNTING = 0 ∧
      (∀ k, kept k = true → k ≠ KA_STATUS.COUNTING.key 0 → tget regDefault t.regs k = tget regDefault s.regs k) ∧
      (s.pwr.railReset = false → ∀ k, kept k = false → tget regDefault t.regs k = tget regDefault State.reset.regs k) ∧
      (s.pwr.railReset = true → t.rd PWR_STATUS.RAIL_RESET = 1)

/-- R18 and the Reset columns: right after reset the block is at bring-up stage B1 in the safe state (the host-stop source latched, breaker outputs
asserted, all three phases blocked), with the words of the tick, link, gain (shadow and active copy), housekeeping, CRC,
power and auxiliary-bus registers as their tables write them out, no command waiting and nothing sent. -/
def Obligations.ResetWords : Prop :=
  let s := State.reset
  s.word CLK_TICK_CFG.PERIOD.base = 0x00300014 ∧ s.word LINK_CFG.STARVE_TICKS.base = 0x05220000 ∧
  s.word CTL_GAIN.KP.base = 0x01F400C8 ∧ s.word CTL_NEG_GAIN.KP.base = 0x01F400C8 ∧
  s.word (CTL_GAIN.KP.base + 0x8000) = 0x01F400C8 ∧ s.word (CTL_NEG_GAIN.KP.base + 0x8000) = 0x01F400C8 ∧
  s.word SLC_BLOCK_STATUS.SCOPE.base = 0xFC000000 ∧ s.word SLC_TRIP_LATCH.CMP.base = 0x00020000 ∧
  s.rd HOST_STATUS.STAGE = 1 ∧ s.rd TRI_STATUS.MODE = 0 ∧ s.rd ADC_HK_CFG.PERIOD = 1000 ∧ s.rd CRC_CFG.POLY = 1 ∧
  s.rd AUX_BUS_CFG.OV = 620 ∧ s.rd PWR_PF_CFG.LEVEL = 1000 ∧ s.rd FRT_STATUS.STATE = 4 ∧
  s.rd SYNC_STATUS.LOCKED = 0 ∧ s.rd LINK_RING_EN.EN = 0 ∧ s.pending = [] ∧ s.out = []

/-- The frame of the plain configuration writes (of CLK_SHED_CFG, CTL_MODE, CTL_MANUAL, SYNC_PLL_CFG, PORT_PV_CFG, the
converters' registers, CRC_CFG, CRC_DATA, CRC_SEED, SYNC_SEC, CLK_PLL_SEED and the walker's root): whatever the value,
every field of every register reads as before but for those of the words `configWords` lists and the CFG_ERR field
`configErr` names; and no such write posts a record or changes a cell's record, a ring, or the metering. -/
def Obligations.ConfigurationWriteFrames : Prop :=
  ∀ (c : Instr) (s t : State), configWords c ≠ [] → exec c s = .next t →
    (∀ f i, f.off i ∉ configWords c → apart (configErr c) f = true → t.rdi f i = s.rdi f i) ∧
    t.out = s.out ∧ t.cells = s.cells ∧ t.rings = s.rings ∧ t.mtr = s.mtr ∧ t.jr = s.jr ∧ t.hst.seqNo = s.hst.seqNo
end

