-- ==== Sys2Proof/Laws/BitLaws.lean ====
section
/-! SUPPORT. Single bits of words: a bit set or cleared, and the bits beside it. -/
set_option Elab.async false
namespace Sys2Proof.Machine

theorem bitOf_testBit (v i : Nat) : bitOf v i = v.testBit i := by
  unfold bitOf; rw [Nat.testBit_eq_decide_div_mod_eq, Bool.beq_eq_decide_eq]

theorem testBit_split (q b i j : Nat) (h : b < 2 ^ i) : (2 ^ i * q + b).testBit j = if j < i then b.testBit j else q.testBit (j - i) :=
  Nat.testBit_two_pow_mul_add q h j

theorem bitOf_setBit (v i j : Nat) : bitOf (setBit v i) j = (bitOf v j || decide (i = j)) := by
  unfold setBit
  by_cases h : bitOf v i = true
  · rw [if_pos h]
    by_cases e : i = j
    · subst e; simp [h]
    · simp [e]
  · rw [if_neg h]
    have hq : v / 2 ^ i % 2 = 0 := by unfold bitOf at h; simp at h; omega
    have hv : v = 2 ^ i * (2 * (v / 2 ^ i / 2)) + v % 2 ^ i := by
      have := Nat.div_add_mod v (2 ^ i)
      have h2 : v / 2 ^ i = 2 * (v / 2 ^ i / 2) := by omega
      rw [← h2]; exact this.symm
    have hlt := Nat.mod_lt v (Nat.two_pow_pos i)
    have hw : v + 2 ^ i = 2 ^ i * (2 * (v / 2 ^ i / 2) + 1) + v % 2 ^ i := by
      rw [Nat.mul_add]; omega
    rw [bitOf_testBit, bitOf_testBit, hw, testBit_split _ _ _ _ hlt]
    conv => rhs; rw [hv, testBit_split _ _ _ _ hlt]
    by_cases e : j < i
    · rw [if_pos e, if_pos e]; simp; omega
    · rw [if_neg e, if_neg e]
      by_cases e2 : i = j
      · subst e2; simp
      · simp [e2]
        obtain ⟨k, hk⟩ : ∃ k, j - i = k + 1 := ⟨j - i - 1, by omega⟩
        rw [hk, Nat.testBit_succ, Nat.testBit_succ]
        congr 1; omega

theorem bitOf_clrBit (v i j : Nat) : bitOf (clrBit v i) j = (bitOf v j && !decide (i = j)) := by
  unfold clrBit
  by_cases h : bitOf v i = true
  · rw [if_pos h]
    have hq : v / 2 ^ i % 2 = 1 := by unfold bitOf at h; simp at h; omega
    have hv : v = 2 ^ i * (2 * (v / 2 ^ i / 2) + 1) + v % 2 ^ i := by
      have := Nat.div_add_mod v (2 ^ i)
      have h2 : v / 2 ^ i = 2 * (v / 2 ^ i / 2) + 1 := by omega
      rw [← h2]; exact this.symm
    have hlt := Nat.mod_lt v (Nat.two_pow_pos i)
    have hw : v - 2 ^ i = 2 ^ i * (2 * (v / 2 ^ i / 2)) + v % 2 ^ i := by
      rw [Nat.mul_add] at hv; omega
    rw [bitOf_testBit, bitOf_testBit, hw, testBit_split _ _ _ _ hlt]
    conv => rhs; rw [hv, testBit_split _ _ _ _ hlt]
    by_cases e : j < i
    · rw [if_pos e, if_pos e]; simp; omega
    · rw [if_neg e, if_neg e]
      by_cases e2 : i = j
      · subst e2; simp
      · simp [e2]
        obtain ⟨k, hk⟩ : ∃ k, j - i = k + 1 := ⟨j - i - 1, by omega⟩
        rw [hk, Nat.testBit_succ, Nat.testBit_succ]
        congr 1; omega
  · rw [if_neg h]
    by_cases e : i = j
    · subst e; simp [h]
    · simp [e]

theorem bitOf_mod (v w i : Nat) (h : i < w) : bitOf (v % 2 ^ w) i = bitOf v i := by
  rw [bitOf_testBit, bitOf_testBit, Nat.testBit_mod_two_pow]; simp [h]

theorem bitOf_ge (v w i : Nat) (hv : v < 2 ^ w) (h : w ≤ i) : bitOf v i = false := by
  rw [bitOf_testBit]; exact Nat.testBit_lt_two_pow (Nat.lt_of_lt_of_le hv (Nat.pow_le_pow_right (by decide) h))

/-- Two words of `w` bits with the same bits are the same. -/
theorem bitOf_ext {a b : Nat} (h : ∀ i, bitOf a i = bitOf b i) : a = b :=
  Nat.eq_of_testBit_eq fun i => by rw [← bitOf_testBit, ← bitOf_testBit]; exact h i

end Sys2Proof.Machine
end

