-- ==== Sys2Proof/Laws/Tab.lean ====
section
/-! SUPPORT. Sparse tables: a read after a write, and the canonical form that every table operation keeps. -/
set_option Elab.async false
namespace Sys2Proof.Machine

variable {α : Type}

theorem tget_tdel_ne (d : Nat → α) (t : Tab α) {k j : Nat} (h : k ≠ j) : tget d (tdel t k) j = tget d t j := by
  induction t with
  | nil => rfl
  | cons p t ih =>
    obtain ⟨a, v⟩ := p
    by_cases hk : a = k
    · subst hk; simp [tdel, tget, h, ih]
    · simp only [tdel, hk, if_false, tget, ih]

theorem tget_above (d : Nat → α) {t : Tab α} {k : Nat} (h : tabove k t = true) : tget d t k = d k := by
  induction t with
  | nil => rfl
  | cons p t ih =>
    obtain ⟨a, v⟩ := p
    simp only [tabove, Bool.and_eq_true, decide_eq_true_eq] at h
    simp only [tget, show a ≠ k by omega, if_false]
    exact ih h.2

theorem tabove_mono {t : Tab α} {j k : Nat} (hk : j ≤ k) (h : tabove k t = true) : tabove j t = true := by
  induction t with
  | nil => rfl
  | cons p t ih =>
    simp only [tabove, Bool.and_eq_true, decide_eq_true_eq] at h ⊢
    exact ⟨by omega, ih h.2⟩

theorem tget_tins_self (d : Nat → α) (t : Tab α) (k : Nat) (x : α) : tget d (tins t k x) k = x := by
  induction t with
  | nil => simp [tins, tget]
  | cons p t ih =>
    obtain ⟨a, v⟩ := p
    by_cases hk : a = k
    · simp [tins, tget, hk]
    · by_cases hl : k < a <;> simp [tins, tget, hk, hl, ih]

theorem tget_tins_ne (d : Nat → α) (t : Tab α) {k j : Nat} (x : α) (h : k ≠ j) :
    tget d (tins t k x) j = tget d t j := by
  induction t with
  | nil => simp [tins, tget, h]
  | cons p t ih =>
    obtain ⟨a, v⟩ := p
    by_cases hk : a = k
    · subst hk; simp [tins, tget, h]
    · by_cases hl : k < a <;> simp [tins, tget, hk, hl, h, ih]

theorem tabove_tdel {t : Tab α} {j : Nat} (k : Nat) (h : tabove j t = true) : tabove j (tdel t k) = true := by
  induction t with
  | nil => rfl
  | cons p t ih =>
    obtain ⟨a, v⟩ := p
    simp only [tabove, Bool.and_eq_true, decide_eq_true_eq] at h
    by_cases hk : a = k
    · simp only [tdel, hk, if_true]; exact ih h.2
    · simp only [tdel, hk, if_false, tabove, Bool.and_eq_true, decide_eq_true_eq]; exact ⟨h.1, ih h.2⟩

theorem tabove_tins {t : Tab α} {j k : Nat} (x : α) (hj : j < k) (h : tabove j t = true) :
    tabove j (tins t k x) = true := by
  induction t with
  | nil => simp [tins, tabove, hj]
  | cons p t ih =>
    obtain ⟨a, v⟩ := p
    simp only [tabove, Bool.and_eq_true, decide_eq_true_eq] at h
    by_cases hk : a = k
    · simp [tins, tabove, hk, hj, h.2]
    · by_cases hl : k < a <;> simp [tins, tabove, hk, hl, hj, h.1, h.2, ih h.2]

theorem tget_tdel_self (d : Nat → α) (t : Tab α) (k : Nat) : tget d (tdel t k) k = d k := by
  induction t with
  | nil => rfl
  | cons p t ih =>
    obtain ⟨a, v⟩ := p
    by_cases hk : a = k
    · simp only [tdel, hk, if_true]; exact ih
    · simp only [tdel, hk, if_false, tget]; exact ih

variable [DecidableEq α]

/-- A write leaves every other key as it was. -/
theorem tget_tput_ne (d : Nat → α) (t : Tab α) {k j : Nat} (x : α) (h : k ≠ j) :
    tget d (tput d t k x) j = tget d t j := by
  unfold tput; split
  · exact tget_tdel_ne d t h
  · exact tget_tins_ne d t x h

/-- A read after a write gives what was written. -/
theorem tget_tput_self (d : Nat → α) (t : Tab α) (k : Nat) (x : α) : tget d (tput d t k x) k = x := by
  unfold tput; split
  · next hx => rw [tget_tdel_self, hx]
  · exact tget_tins_self d t k x

theorem twf_tdel (d : Nat → α) {t : Tab α} (k : Nat) (h : twf d t = true) : twf d (tdel t k) = true := by
  induction t with
  | nil => rfl
  | cons p t ih =>
    obtain ⟨a, v⟩ := p
    simp only [twf, Bool.and_eq_true, decide_eq_true_eq] at h
    by_cases hk : a = k
    · simp only [tdel, hk, if_true]; exact ih h.2
    · simp only [tdel, hk, if_false, twf, Bool.and_eq_true, decide_eq_true_eq]
      exact ⟨⟨tabove_tdel k h.1.1, h.1.2⟩, ih h.2⟩

theorem twf_tins (d : Nat → α) {t : Tab α} (k : Nat) {x : α} (hx : x ≠ d k) (h : twf d t = true) :
    twf d (tins t k x) = true := by
  induction t with
  | nil => simp [tins, twf, tabove, hx]
  | cons p t ih =>
    obtain ⟨a, v⟩ := p
    simp only [twf, Bool.and_eq_true, decide_eq_true_eq] at h
    by_cases hk : a = k
    · subst hk; simp [tins, twf, hx, h.1.1, h.2]
    · by_cases hl : k < a
      · simp [tins, twf, tabove, hk, hl, hx, h.1.1, h.1.2, h.2, tabove_mono (Nat.le_of_lt hl) h.1.1]
      · simp [tins, twf, hk, hl, ih h.2, h.1.2, tabove_tins x (show a < k by omega) h.1.1]

/-- A write keeps the canonical form. -/
theorem twf_tput (d : Nat → α) {t : Tab α} (k : Nat) (x : α) (h : twf d t = true) : twf d (tput d t k x) = true := by
  unfold tput; split
  · exact twf_tdel d k h
  · next hx => exact twf_tins d k hx h

theorem twf_filter (d : Nat → α) (p : Nat × α → Bool) {t : Tab α} (h : twf d t = true) :
    twf d (t.filter p) = true := by
  have ha : ∀ {u : Tab α} {k : Nat}, tabove k u = true → tabove k (u.filter p) = true := by
    intro u k hu
    induction u with
    | nil => rfl
    | cons q u ih =>
      simp only [tabove, Bool.and_eq_true, decide_eq_true_eq] at hu
      by_cases hq : p q = true
      · simp only [List.filter_cons, hq, if_true, tabove, Bool.and_eq_true, decide_eq_true_eq]
        exact ⟨hu.1, ih hu.2⟩
      · simp only [List.filter_cons, hq]; exact ih hu.2
  induction t with
  | nil => rfl
  | cons q t ih =>
    simp only [twf, Bool.and_eq_true, decide_eq_true_eq] at h
    by_cases hq : p q = true
    · simp only [List.filter_cons, hq, if_true, twf, Bool.and_eq_true, decide_eq_true_eq]
      exact ⟨⟨ha h.1.1, h.1.2⟩, ih h.2⟩
    · simp only [List.filter_cons, hq]; exact ih h.2

theorem twf_foldl_tput (d : Nat → α) (l : List (Nat × α)) {t : Tab α} (h : twf d t = true) :
    twf d (l.foldl (fun t kv => tput d t kv.1 kv.2) t) = true := by
  induction l generalizing t with
  | nil => exact h
  | cons q l ih => exact ih (twf_tput d q.1 q.2 h)

/-- A store of bytes keeps the canonical form of a memory. -/
theorem memStore_wf (m : Tab Byte) (a : Nat) (l : List Byte) (h : Memory.wf m) : Memory.wf (memStore m a l) := by
  induction l generalizing m a with
  | nil => exact h
  | cons b t ih => exact ih _ _ (twf_tput _ a b h)

/-- A store of bytes leaves every address outside them as it was. -/
theorem memStore_frame (m : Tab Byte) (a : Nat) (l : List Byte) (j : Nat) (h : j < a ∨ a + l.length ≤ j) :
    tget (fun _ => 0) (memStore m a l) j = tget (fun _ => 0) m j := by
  induction l generalizing m a with
  | nil => rfl
  | cons b t ih =>
    simp only [List.length_cons] at h
    rw [memStore, ih _ _ (by omega), tget_tput_ne _ _ _ (by omega)]

end Sys2Proof.Machine
end

