-- ==== Sys2Proof/Laws/Only.lean ====
section
/-! SUPPORT. What an operation may change, said once per operation. `Only M a t` says that from `a` to `t` nothing changes
but what the mask `M` names: bit b (0 to 40) the registers of BAR2 block b (R693), bits 41 to 60 the parts of State in
the order of its declaration from `tm` on; that the queue stays; and that canonical tables stay canonical. The files
Only<File>.lean hold one lemma for each function of Machine/<File>.lean. -/
set_option Elab.async false
namespace Sys2Proof.Machine

/-- The register file, the records of the cells and the triad's memories are in canonical form. -/
structure Canon (s : State) : Prop where
  regs : twf regDefault s.regs = true
  cells : twf (fun _ => Cell.init) s.cells = true
  bank0 : Memory.wf s.tri.bank0
  bank1 : Memory.wf s.tri.bank1
  ram : Memory.wf s.tri.ram
  region : Memory.wf s.tri.region
  regionC : Memory.wf s.tri.regionC

/-- From `a` to `t` only what `M` names changes. -/
structure Only (M : Nat) (a t : State) : Prop where
  pending : t.pending = a.pending
  canon : Canon a → Canon t
  regs : ∀ k, k / 32 / 65536 < 41 → M.testBit (k / 32 / 65536) = false → tget regDefault t.regs k = tget regDefault a.regs k
  tm : M.testBit 41 = false → t.tm = a.tm
  clk : M.testBit 42 = false → t.clk = a.clk
  pwr : M.testBit 43 = false → t.pwr = a.pwr
  hst : M.testBit 44 = false → t.hst = a.hst
  tri : M.testBit 45 = false → t.tri = a.tri
  slc : M.testBit 46 = false → t.slc = a.slc
  saf : M.testBit 47 = false → t.saf = a.saf
  rings : M.testBit 48 = false → t.rings = a.rings
  cells : M.testBit 49 = false → t.cells = a.cells
  law : M.testBit 50 = false → t.law = a.law
  lawC : M.testBit 51 = false → t.lawC = a.lawC
  sp : M.testBit 52 = false → t.sp = a.sp
  sched : M.testBit 53 = false → t.sched = a.sched
  adc : M.testBit 54 = false → t.adc = a.adc
  mtr : M.testBit 55 = false → t.mtr = a.mtr
  jr : M.testBit 56 = false → t.jr = a.jr
  thm : M.testBit 57 = false → t.thm = a.thm
  aux : M.testBit 58 = false → t.aux = a.aux
  free : M.testBit 59 = false → t.free = a.free
  out : M.testBit 60 = false → t.out = a.out

/-- `Only` of an outcome's next state. -/
def OnlyO (M : Nat) (a : State) : Host.Outcome State Fault Refusal → Prop
  | .next t => Only M a t
  | .fault _ => True
  | .refused _ => True

/-- Every entry of a field lies in a register block that the mask names. -/
def inM (M : Nat) (f : Fld) : Bool := M.testBit (f.base / 65536) && decide (f.base % 65536 + 4 * f.count ≤ 0x8000 ∧ f.lo < 32)

theorem sb {c C M : Nat} (h : c &&& C = c) (m : C &&& M = C) : c &&& M = c := by
  rw [← h, Nat.land_assoc, m]

theorem testBit_sub {C M i : Nat} (m : C &&& M = C) (h : C.testBit i = true) : M.testBit i = true := by
  rw [← m, Nat.testBit_and, Bool.and_eq_true] at h; exact h.2

theorem fm {f : Fld} {C M : Nat} (h : inM C f = true) (m : C &&& M = C) : inM M f = true := by
  simp only [inM, Bool.and_eq_true] at h ⊢
  exact ⟨testBit_sub m h.1, h.2⟩

theorem fms {l : List Fld} {C M : Nat} (h : l.all (inM C) = true) (m : C &&& M = C) : ∀ f ∈ l, inM M f = true :=
  fun f hf => fm (List.all_eq_true.mp h f hf) m

theorem bm {C M off : Nat} (h : C.testBit (off / 65536) = true) (m : C &&& M = C) : M.testBit (off / 65536) = true :=
  testBit_sub m h

theorem OnlyO.next {M : Nat} {a t : State} (h : Only M a t) : OnlyO M a (.next t) := h

namespace Only
variable {M : Nat} {a t u : State}

theorem refl (M : Nat) (a : State) : Only M a a where
  pending := rfl
  canon := id
  regs _ _ _ := rfl
  tm _ := rfl
  clk _ := rfl
  pwr _ := rfl
  hst _ := rfl
  tri _ := rfl
  slc _ := rfl
  saf _ := rfl
  rings _ := rfl
  cells _ := rfl
  law _ := rfl
  lawC _ := rfl
  sp _ := rfl
  sched _ := rfl
  adc _ := rfl
  mtr _ := rfl
  jr _ := rfl
  thm _ := rfl
  aux _ := rfl
  free _ := rfl
  out _ := rfl

theorem trans (h : Only M a t) (g : Only M t u) : Only M a u where
  pending := g.pending.trans h.pending
  canon c := g.canon (h.canon c)
  regs k b m := (g.regs k b m).trans (h.regs k b m)
  tm m := (g.tm m).trans (h.tm m)
  clk m := (g.clk m).trans (h.clk m)
  pwr m := (g.pwr m).trans (h.pwr m)
  hst m := (g.hst m).trans (h.hst m)
  tri m := (g.tri m).trans (h.tri m)
  slc m := (g.slc m).trans (h.slc m)
  saf m := (g.saf m).trans (h.saf m)
  rings m := (g.rings m).trans (h.rings m)
  cells m := (g.cells m).trans (h.cells m)
  law m := (g.law m).trans (h.law m)
  lawC m := (g.lawC m).trans (h.lawC m)
  sp m := (g.sp m).trans (h.sp m)
  sched m := (g.sched m).trans (h.sched m)
  adc m := (g.adc m).trans (h.adc m)
  mtr m := (g.mtr m).trans (h.mtr m)
  jr m := (g.jr m).trans (h.jr m)
  thm m := (g.thm m).trans (h.thm m)
  aux m := (g.aux m).trans (h.aux m)
  free m := (g.free m).trans (h.free m)
  out m := (g.out m).trans (h.out m)

theorem mono {N : Nat} (h : Only M a t) (n : M &&& N = M) : Only N a t := by
  have low : ∀ i, N.testBit i = false → M.testBit i = false := fun i hi => by
    cases hm : M.testBit i with
    | false => rfl
    | true => rw [testBit_sub n hm] at hi; cases hi
  exact {
    pending := h.pending
    canon := h.canon
    regs := fun k b m => h.regs k b (low _ m)
    tm := fun m => h.tm (low _ m)
    clk := fun m => h.clk (low _ m)
    pwr := fun m => h.pwr (low _ m)
    hst := fun m => h.hst (low _ m)
    tri := fun m => h.tri (low _ m)
    slc := fun m => h.slc (low _ m)
    saf := fun m => h.saf (low _ m)
    rings := fun m => h.rings (low _ m)
    cells := fun m => h.cells (low _ m)
    law := fun m => h.law (low _ m)
    lawC := fun m => h.lawC (low _ m)
    sp := fun m => h.sp (low _ m)
    sched := fun m => h.sched (low _ m)
    adc := fun m => h.adc (low _ m)
    mtr := fun m => h.mtr (low _ m)
    jr := fun m => h.jr (low _ m)
    thm := fun m => h.thm (low _ m)
    aux := fun m => h.aux (low _ m)
    free := fun m => h.free (low _ m)
    out := fun m => h.out (low _ m)
  }

theorem set_tm (h : Only M a t) (x) (m : 0x20000000000 &&& M = 0x20000000000) : Only M a { t with tm := x } :=
  { h with
    canon := fun c => let y := h.canon c; ⟨y.1, y.2, y.3, y.4, y.5, y.6, y.7⟩
    tm := fun n => by rw [testBit_sub m (i := 41) (by decide)] at n; cases n }

theorem set_clk (h : Only M a t) (x) (m : 0x40000000000 &&& M = 0x40000000000) : Only M a { t with clk := x } :=
  { h with
    canon := fun c => let y := h.canon c; ⟨y.1, y.2, y.3, y.4, y.5, y.6, y.7⟩
    clk := fun n => by rw [testBit_sub m (i := 42) (by decide)] at n; cases n }

theorem set_pwr (h : Only M a t) (x) (m : 0x80000000000 &&& M = 0x80000000000) : Only M a { t with pwr := x } :=
  { h with
    canon := fun c => let y := h.canon c; ⟨y.1, y.2, y.3, y.4, y.5, y.6, y.7⟩
    pwr := fun n => by rw [testBit_sub m (i := 43) (by decide)] at n; cases n }

theorem set_hst (h : Only M a t) (x) (m : 0x100000000000 &&& M = 0x100000000000) : Only M a { t with hst := x } :=
  { h with
    canon := fun c => let y := h.canon c; ⟨y.1, y.2, y.3, y.4, y.5, y.6, y.7⟩
    hst := fun n => by rw [testBit_sub m (i := 44) (by decide)] at n; cases n }

theorem set_triW (h : Only M a t) (x : TriSt) (m : 0x200000000000 &&& M = 0x200000000000)
    (b0 : Memory.wf t.tri.bank0 → Memory.wf x.bank0) (b1 : Memory.wf t.tri.bank1 → Memory.wf x.bank1)
    (r : Memory.wf t.tri.ram → Memory.wf x.ram) (g : Memory.wf t.tri.region → Memory.wf t.tri.regionC → Memory.wf x.region)
    (gc : Memory.wf t.tri.region → Memory.wf t.tri.regionC → Memory.wf x.regionC) : Only M a { t with tri := x } :=
  { h with
    canon := fun c => let y := h.canon c; ⟨y.1, y.2, b0 y.3, b1 y.4, r y.5, g y.6 y.7, gc y.6 y.7⟩
    tri := fun n => by rw [testBit_sub m (i := 45) (by decide)] at n; cases n }

theorem wf_of_or {x y z : Tab Byte} (e : x = y ∨ x = z) (hy : Memory.wf y) (hz : Memory.wf z) : Memory.wf x := by
  cases e with
  | inl e => exact e ▸ hy
  | inr e => exact e ▸ hz

theorem set_tri (h : Only M a t) (x : TriSt) (m : 0x200000000000 &&& M = 0x200000000000)
    (b0 : x.bank0 = t.tri.bank0 := by rfl) (b1 : x.bank1 = t.tri.bank1 := by rfl) (r : x.ram = t.tri.ram := by rfl)
    (g : x.region = t.tri.region ∨ x.region = t.tri.regionC := by first | exact .inl rfl | exact .inr rfl)
    (gc : x.regionC = t.tri.region ∨ x.regionC = t.tri.regionC := by first | exact .inl rfl | exact .inr rfl) :
    Only M a { t with tri := x } :=
  set_triW h x m (fun y => b0 ▸ y) (fun y => b1 ▸ y) (fun y => r ▸ y) (wf_of_or g) (wf_of_or gc)

theorem set_slc (h : Only M a t) (x) (m : 0x400000000000 &&& M = 0x400000000000) : Only M a { t with slc := x } :=
  { h with
    canon := fun c => let y := h.canon c; ⟨y.1, y.2, y.3, y.4, y.5, y.6, y.7⟩
    slc := fun n => by rw [testBit_sub m (i := 46) (by decide)] at n; cases n }

theorem set_saf (h : Only M a t) (x) (m : 0x800000000000 &&& M = 0x800000000000) : Only M a { t with saf := x } :=
  { h with
    canon := fun c => let y := h.canon c; ⟨y.1, y.2, y.3, y.4, y.5, y.6, y.7⟩
    saf := fun n => by rw [testBit_sub m (i := 47) (by decide)] at n; cases n }

theorem set_rings (h : Only M a t) (x) (m : 0x1000000000000 &&& M = 0x1000000000000) : Only M a { t with rings := x } :=
  { h with
    canon := fun c => let y := h.canon c; ⟨y.1, y.2, y.3, y.4, y.5, y.6, y.7⟩
    rings := fun n => by rw [testBit_sub m (i := 48) (by decide)] at n; cases n }

theorem set_cells (h : Only M a t) (x : Tab Cell) (m : 0x2000000000000 &&& M = 0x2000000000000)
    (w : twf (fun _ => Cell.init) t.cells = true → twf (fun _ => Cell.init) x = true) : Only M a { t with cells := x } :=
  { h with
    canon := fun c => let y := h.canon c; ⟨y.1, w y.2, y.3, y.4, y.5, y.6, y.7⟩
    cells := fun n => by rw [testBit_sub m (i := 49) (by decide)] at n; cases n }

theorem set_law (h : Only M a t) (x) (m : 0x4000000000000 &&& M = 0x4000000000000) : Only M a { t with law := x } :=
  { h with
    canon := fun c => let y := h.canon c; ⟨y.1, y.2, y.3, y.4, y.5, y.6, y.7⟩
    law := fun n => by rw [testBit_sub m (i := 50) (by decide)] at n; cases n }

theorem set_lawC (h : Only M a t) (x) (m : 0x8000000000000 &&& M = 0x8000000000000) : Only M a { t with lawC := x } :=
  { h with
    canon := fun c => let y := h.canon c; ⟨y.1, y.2, y.3, y.4, y.5, y.6, y.7⟩
    lawC := fun n => by rw [testBit_sub m (i := 51) (by decide)] at n; cases n }

theorem set_sp (h : Only M a t) (x) (m : 0x10000000000000 &&& M = 0x10000000000000) : Only M a { t with sp := x } :=
  { h with
    canon := fun c => let y := h.canon c; ⟨y.1, y.2, y.3, y.4, y.5, y.6, y.7⟩
    sp := fun n => by rw [testBit_sub m (i := 52) (by decide)] at n; cases n }

theorem set_sched (h : Only M a t) (x) (m : 0x20000000000000 &&& M = 0x20000000000000) : Only M a { t with sched := x } :=
  { h with
    canon := fun c => let y := h.canon c; ⟨y.1, y.2, y.3, y.4, y.5, y.6, y.7⟩
    sched := fun n => by rw [testBit_sub m (i := 53) (by decide)] at n; cases n }

theorem set_adc (h : Only M a t) (x) (m : 0x40000000000000 &&& M = 0x40000000000000) : Only M a { t with adc := x } :=
  { h with
    canon := fun c => let y := h.canon c; ⟨y.1, y.2, y.3, y.4, y.5, y.6, y.7⟩
    adc := fun n => by rw [testBit_sub m (i := 54) (by decide)] at n; cases n }

theorem set_mtr (h : Only M a t) (x) (m : 0x80000000000000 &&& M = 0x80000000000000) : Only M a { t with mtr := x } :=
  { h with
    canon := fun c => let y := h.canon c; ⟨y.1, y.2, y.3, y.4, y.5, y.6, y.7⟩
    mtr := fun n => by rw [testBit_sub m (i := 55) (by decide)] at n; cases n }

theorem set_jr (h : Only M a t) (x) (m : 0x100000000000000 &&& M = 0x100000000000000) : Only M a { t with jr := x } :=
  { h with
    canon := fun c => let y := h.canon c; ⟨y.1, y.2, y.3, y.4, y.5, y.6, y.7⟩
    jr := fun n => by rw [testBit_sub m (i := 56) (by decide)] at n; cases n }

theorem set_thm (h : Only M a t) (x) (m : 0x200000000000000 &&& M = 0x200000000000000) : Only M a { t with thm := x } :=
  { h with
    canon := fun c => let y := h.canon c; ⟨y.1, y.2, y.3, y.4, y.5, y.6, y.7⟩
    thm := fun n => by rw [testBit_sub m (i := 57) (by decide)] at n; cases n }

theorem set_aux (h : Only M a t) (x) (m : 0x400000000000000 &&& M = 0x400000000000000) : Only M a { t with aux := x } :=
  { h with
    canon := fun c => let y := h.canon c; ⟨y.1, y.2, y.3, y.4, y.5, y.6, y.7⟩
    aux := fun n => by rw [testBit_sub m (i := 58) (by decide)] at n; cases n }

theorem set_free (h : Only M a t) (x) (m : 0x800000000000000 &&& M = 0x800000000000000) : Only M a { t with free := x } :=
  { h with
    canon := fun c => let y := h.canon c; ⟨y.1, y.2, y.3, y.4, y.5, y.6, y.7⟩
    free := fun n => by rw [testBit_sub m (i := 59) (by decide)] at n; cases n }

theorem set_out (h : Only M a t) (x) (m : 0x1000000000000000 &&& M = 0x1000000000000000) : Only M a { t with out := x } :=
  { h with
    canon := fun c => let y := h.canon c; ⟨y.1, y.2, y.3, y.4, y.5, y.6, y.7⟩
    out := fun n => by rw [testBit_sub m (i := 60) (by decide)] at n; cases n }

theorem set_regs (h : Only M a t) (x : Tab Nat) (w : twf regDefault t.regs = true → twf regDefault x = true)
    (g : ∀ k, k / 32 / 65536 < 41 → M.testBit (k / 32 / 65536) = false → tget regDefault x k = tget regDefault t.regs k) :
    Only M a { t with regs := x } :=
  { h with
    canon := fun c => let y := h.canon c; ⟨w y.1, y.2, y.3, y.4, y.5, y.6, y.7⟩
    regs := fun k b m => (g k b m).trans (h.regs k b m) }

theorem pairEq {β : Type} {p : State × β} {x : β} (e : p = (t, x)) (h : Only M a p.1) : Only M a t := by
  subst e; exact h

theorem ite {c : Prop} [Decidable c] (h : Only M a t) (g : Only M a u) : Only M a (if c then t else u) := by
  split <;> assumption

theorem fstMk {β : Type} {x : β} (h : Only M a t) : Only M a (t, x).1 := h

theorem ite1 {β : Type} {p q : State × β} {c : Prop} [Decidable c] (h : Only M a p.1) (g : Only M a q.1) :
    Only M a (if c then p else q).1 := by split <;> assumption

theorem dite {c : Prop} [Decidable c] {t : c → State} {u : ¬c → State} (h : ∀ x, Only M a (t x))
    (g : ∀ x, Only M a (u x)) : Only M a (if x : c then t x else u x) := by
  split
  · exact h _
  · exact g _

theorem foldlMem {β : Type} {g : State → β → State} {l : List β} (h : Only M a t)
    (hg : ∀ t x, x ∈ l → Only M a t → Only M a (g t x)) : Only M a (l.foldl g t) := by
  induction l generalizing t with
  | nil => exact h
  | cons x l ih => exact ih (hg _ _ (by simp) h) fun t y hy => hg t y (by simp [hy])

theorem foldl {β : Type} {g : State → β → State} {l : List β} (h : Only M a t)
    (hg : ∀ t x, Only M a t → Only M a (g t x)) : Only M a (l.foldl g t) :=
  foldlMem h fun t x _ => hg t x

theorem foldl1 {β γ : Type} {g : State × γ → β → State × γ} {l : List β} {p : State × γ} (h : Only M a p.1)
    (hg : ∀ p x, Only M a p.1 → Only M a (g p x).1) : Only M a (l.foldl g p).1 := by
  induction l generalizing p with
  | nil => exact h
  | cons x l ih => exact ih (hg _ _ h)

theorem live {g : State → State} (h : Only M a t) (hg : ∀ t, Only M a t → Only M a (g t)) : Only M a (t.live g) := by
  unfold State.live; split
  · exact hg _ h
  · exact h

theorem key_block {f : Fld} {i k : Nat} (hf : inM M f = true) (hi : i < f.count) (d : Nat) (hd : d ≤ 0x8000)
    (hk : M.testBit (k / 32 / 65536) = false) : (f.base + d + 4 * i) * 32 + f.lo ≠ k := by
  simp only [inM, Bool.and_eq_true, decide_eq_true_eq] at hf
  rintro rfl
  have : ((f.base + d + 4 * i) * 32 + f.lo) / 32 / 65536 = f.base / 65536 := by omega
  rw [this, hf.1] at hk
  cases hk

theorem wri (h : Only M a t) (f : Fld) (i v : Nat) (hf : inM M f = true) : Only M a (t.wri f i v) := by
  unfold State.wri; split
  · next hi =>
    exact set_regs h _ (twf_tput _ _ _) fun k _ hk => tget_tput_ne _ _ _ (key_block hf hi 0 (by omega) hk)
  · exact h

theorem activate (h : Only M a t) (f : Fld) (i : Nat) (hf : inM M f = true) : Only M a (t.activate f i) := by
  unfold State.activate; split
  · next hi =>
    exact set_regs h _ (twf_tput _ _ _) fun k _ hk => tget_tput_ne _ _ _ (key_block hf hi _ (by omega) hk)
  · exact h

theorem setCell (h : Only M a t) (c : Nat) (x : Cell) (m : 0x2000000000000 &&& M = 0x2000000000000) :
    Only M a (t.setCell c x) :=
  set_cells h _ m (twf_tput _ _ _)

/-- Every field of the register at an offset lies in the offset's block. -/
def rowOk (r : RegRow) : Bool :=
  r.fields.all (fun x => x.f.base / 65536 == r.base / 65536 &&
    decide (x.f.base % 65536 + 4 * x.f.count ≤ 0x8000 ∧ x.f.lo < 32)) &&
  decide (r.base % 65536 + 4 * r.count ≤ 0x8000)


theorem blocks_ok : (List.range 41).all (fun b => (regBlocks.getD b []).all (fun r => rowOk r && r.base / 65536 == b)) = true := by
  decide +kernel

theorem findReg_ok {off : Nat} {r : RegRow} : ∀ {l : List RegRow}, findReg off l = some r → r ∈ l ∧ r.base ≤ off ∧ off < r.base + 4 * r.count
  | [], h => by cases h
  | x :: l, h => by
    unfold findReg at h; split at h
    · cases h; exact ⟨List.mem_cons_self, ‹_›⟩
    · have := findReg_ok h; exact ⟨List.mem_cons_of_mem _ this.1, this.2⟩

theorem regAt_ok {off : Nat} {r : RegRow} (h : regAt off = some r) : rowOk r = true ∧ r.base / 65536 = off / 65536 ∧ off / 65536 < 41 := by
  unfold regAt at h; split at h
  · next b hb =>
    have hl : off / 65536 < regBlocks.length := (List.getElem?_eq_some_iff.mp hb).1
    have h41 : regBlocks.length = 41 := by decide
    have hm := (findReg_ok h).1
    have := List.all_eq_true.mp blocks_ok (off / 65536) (List.mem_range.mpr (h41 ▸ hl))
    rw [List.getD_eq_getElem?_getD, hb] at this
    have := List.all_eq_true.mp this r hm
    rw [Bool.and_eq_true, beq_iff_eq] at this
    exact ⟨this.1, this.2, h41 ▸ hl⟩
  · cases h

theorem regAt_inM {off : Nat} {r : RegRow} {x : FieldRow} (h : regAt off = some r) (hx : x ∈ r.fields)
    (hb : M.testBit (off / 65536) = true) : inM M x.f = true := by
  have k := regAt_ok h
  have ko := k.1
  simp only [rowOk, Bool.and_eq_true] at ko
  have := List.all_eq_true.mp ko.1 x hx
  rw [Bool.and_eq_true, beq_iff_eq] at this
  simp only [inM, Bool.and_eq_true]
  exact ⟨by rw [this.1, k.2.1]; exact hb, this.2⟩

theorem putFields (h : Only M a t) (i v : Nat) (l : List FieldRow) (hl : ∀ x ∈ l, inM M x.f = true) :
    Only M a (t.putFields i v l) := by
  induction l generalizing t with
  | nil => exact h
  | cons r l ih => exact ih (wri h _ _ _ (hl r List.mem_cons_self)) fun x hx => hl x (List.mem_cons_of_mem _ hx)

theorem putRw (h : Only M a t) (off v : Nat) (hb : M.testBit (off / 65536) = true) : Only M a (t.putRw off v) := by
  unfold State.putRw; split
  · next r hr => exact putFields h _ _ _ fun x hx => regAt_inM hr (List.mem_filter.mp hx).1 hb
  · exact h

theorem offM {f : Fld} {C M i : Nat} (hi : i < f.count) (hf : inM C f = true) (m : C &&& M = C) :
    M.testBit (f.off i / 65536) = true := by
  have hf := fm hf m
  simp only [inM, Bool.and_eq_true, decide_eq_true_eq] at hf
  have : f.off i / 65536 = f.base / 65536 := by unfold Fld.off; omega
  rw [this]; exact hf.1

theorem putRwi (h : Only M a t) (f : Fld) (i v : Nat) (hf : inM M f = true) : Only M a (t.putRwi f i v) := by
  unfold State.putRwi; split
  · next hi => exact putRw h _ _ (offM hi hf (Nat.and_self M))
  · exact h

theorem all_block {k : Nat} (m : 0x1FFFFFFFFFF &&& M = 0x1FFFFFFFFFF) (hk : k / 32 / 65536 < 41) :
    M.testBit (k / 32 / 65536) = true := by
  refine testBit_sub m ?_
  generalize k / 32 / 65536 = b at hk
  revert hk; revert b; decide

theorem set_regsAll (h : Only M a t) (x : Tab Nat) (m : 0x1FFFFFFFFFF &&& M = 0x1FFFFFFFFFF)
    (w : twf regDefault t.regs = true → twf regDefault x = true) : Only M a { t with regs := x } :=
  set_regs h x w fun k b n => by rw [all_block m b] at n; cases n

theorem wriAll (h : Only M a t) (f : Fld) (i v : Nat) (m : 0x1FFFFFFFFFF &&& M = 0x1FFFFFFFFFF) :
    Only M a (t.wri f i v) := by
  unfold State.wri; split
  · exact set_regsAll h _ m (twf_tput _ _ _)
  · exact h

theorem putFieldsAll (h : Only M a t) (i v : Nat) (l : List FieldRow) (m : 0x1FFFFFFFFFF &&& M = 0x1FFFFFFFFFF) :
    Only M a (t.putFields i v l) := by
  induction l generalizing t with
  | nil => exact h
  | cons r l ih => exact ih (wriAll h _ _ _ m)

theorem activateAll (h : Only M a t) (fs : List Fld) (hf : ∀ f ∈ fs, inM M f = true) : Only M a (t.activateAll fs) :=
  foldlMem h fun _ f hx h => foldl h fun _ _ h => activate h _ _ (hf f hx)

theorem set_adc_thm (h : Only M a t) (x0) (m0 : 0x40000000000000 &&& M = 0x40000000000000) (x1) (m1 : 0x200000000000000 &&& M = 0x200000000000000) :
    Only M a { t with adc := x0, thm := x1 } :=
  set_thm (set_adc h x0 m0) x1 m1

theorem set_hst_tri_slc_sp_mtr (h : Only M a t) (x0) (m0 : 0x100000000000 &&& M = 0x100000000000) (x1 : TriSt) (m1 : 0x200000000000 &&& M = 0x200000000000) (x2) (m2 : 0x400000000000 &&& M = 0x400000000000) (x3) (m3 : 0x10000000000000 &&& M = 0x10000000000000) (x4) (m4 : 0x80000000000000 &&& M = 0x80000000000000) (b0 : x1.bank0 = t.tri.bank0 := by rfl) (b1 : x1.bank1 = t.tri.bank1 := by rfl) (r : x1.ram = t.tri.ram := by rfl)
    (g : x1.region = t.tri.region ∨ x1.region = t.tri.regionC := by first | exact .inl rfl | exact .inr rfl)
    (gc : x1.regionC = t.tri.region ∨ x1.regionC = t.tri.regionC := by first | exact .inl rfl | exact .inr rfl) :
    Only M a { t with hst := x0, tri := x1, slc := x2, sp := x3, mtr := x4 } :=
  set_mtr (set_sp (set_slc (set_tri (set_hst h x0 m0) x1 m1 b0 b1 r g gc) x2 m2) x3 m3) x4 m4

theorem set_lawC_sched (h : Only M a t) (x0) (m0 : 0x8000000000000 &&& M = 0x8000000000000) (x1) (m1 : 0x20000000000000 &&& M = 0x20000000000000) :
    Only M a { t with lawC := x0, sched := x1 } :=
  set_sched (set_lawC h x0 m0) x1 m1

theorem set_law_lawC (h : Only M a t) (x0) (m0 : 0x4000000000000 &&& M = 0x4000000000000) (x1) (m1 : 0x8000000000000 &&& M = 0x8000000000000) :
    Only M a { t with law := x0, lawC := x1 } :=
  set_lawC (set_law h x0 m0) x1 m1

theorem set_law_lawC_sched (h : Only M a t) (x0) (m0 : 0x4000000000000 &&& M = 0x4000000000000) (x1) (m1 : 0x8000000000000 &&& M = 0x8000000000000) (x2) (m2 : 0x20000000000000 &&& M = 0x20000000000000) :
    Only M a { t with law := x0, lawC := x1, sched := x2 } :=
  set_sched (set_lawC (set_law h x0 m0) x1 m1) x2 m2

theorem set_mtr_jr (h : Only M a t) (x0) (m0 : 0x80000000000000 &&& M = 0x80000000000000) (x1) (m1 : 0x100000000000000 &&& M = 0x100000000000000) :
    Only M a { t with mtr := x0, jr := x1 } :=
  set_jr (set_mtr h x0 m0) x1 m1

theorem set_pwr_mtr (h : Only M a t) (x0) (m0 : 0x80000000000 &&& M = 0x80000000000) (x1) (m1 : 0x80000000000000 &&& M = 0x80000000000000) :
    Only M a { t with pwr := x0, mtr := x1 } :=
  set_mtr (set_pwr h x0 m0) x1 m1

theorem set_pwr_tri (h : Only M a t) (x0) (m0 : 0x80000000000 &&& M = 0x80000000000) (x1 : TriSt) (m1 : 0x200000000000 &&& M = 0x200000000000) (b0 : x1.bank0 = t.tri.bank0 := by rfl) (b1 : x1.bank1 = t.tri.bank1 := by rfl) (r : x1.ram = t.tri.ram := by rfl)
    (g : x1.region = t.tri.region ∨ x1.region = t.tri.regionC := by first | exact .inl rfl | exact .inr rfl)
    (gc : x1.regionC = t.tri.region ∨ x1.regionC = t.tri.regionC := by first | exact .inl rfl | exact .inr rfl) :
    Only M a { t with pwr := x0, tri := x1 } :=
  set_tri (set_pwr h x0 m0) x1 m1 b0 b1 r g gc

theorem set_slc_thm (h : Only M a t) (x0) (m0 : 0x400000000000 &&& M = 0x400000000000) (x1) (m1 : 0x200000000000000 &&& M = 0x200000000000000) :
    Only M a { t with slc := x0, thm := x1 } :=
  set_thm (set_slc h x0 m0) x1 m1

theorem set_tm_clk (h : Only M a t) (x0) (m0 : 0x20000000000 &&& M = 0x20000000000) (x1) (m1 : 0x40000000000 &&& M = 0x40000000000) :
    Only M a { t with tm := x0, clk := x1 } :=
  set_clk (set_tm h x0 m0) x1 m1

theorem set_tm_pwr_law_lawC_sched_adc_mtr (h : Only M a t) (x0) (m0 : 0x20000000000 &&& M = 0x20000000000) (x1) (m1 : 0x80000000000 &&& M = 0x80000000000) (x2) (m2 : 0x4000000000000 &&& M = 0x4000000000000) (x3) (m3 : 0x8000000000000 &&& M = 0x8000000000000) (x4) (m4 : 0x20000000000000 &&& M = 0x20000000000000) (x5) (m5 : 0x40000000000000 &&& M = 0x40000000000000) (x6) (m6 : 0x80000000000000 &&& M = 0x80000000000000) :
    Only M a { t with tm := x0, pwr := x1, law := x2, lawC := x3, sched := x4, adc := x5, mtr := x6 } :=
  set_mtr (set_adc (set_sched (set_lawC (set_law (set_pwr (set_tm h x0 m0) x1 m1) x2 m2) x3 m3) x4 m4) x5 m5) x6 m6

theorem set_tm_pwr_adc_mtr (h : Only M a t) (x0) (m0 : 0x20000000000 &&& M = 0x20000000000) (x1) (m1 : 0x80000000000 &&& M = 0x80000000000) (x2) (m2 : 0x40000000000000 &&& M = 0x40000000000000) (x3) (m3 : 0x80000000000000 &&& M = 0x80000000000000) :
    Only M a { t with tm := x0, pwr := x1, adc := x2, mtr := x3 } :=
  set_mtr (set_adc (set_pwr (set_tm h x0 m0) x1 m1) x2 m2) x3 m3

theorem set_tm_rings_law_lawC (h : Only M a t) (x0) (m0 : 0x20000000000 &&& M = 0x20000000000) (x1) (m1 : 0x1000000000000 &&& M = 0x1000000000000) (x2) (m2 : 0x4000000000000 &&& M = 0x4000000000000) (x3) (m3 : 0x8000000000000 &&& M = 0x8000000000000) :
    Only M a { t with tm := x0, rings := x1, law := x2, lawC := x3 } :=
  set_lawC (set_law (set_rings (set_tm h x0 m0) x1 m1) x2 m2) x3 m3

theorem set_tm_law_lawC_sched (h : Only M a t) (x0) (m0 : 0x20000000000 &&& M = 0x20000000000) (x1) (m1 : 0x4000000000000 &&& M = 0x4000000000000) (x2) (m2 : 0x8000000000000 &&& M = 0x8000000000000) (x3) (m3 : 0x20000000000000 &&& M = 0x20000000000000) :
    Only M a { t with tm := x0, law := x1, lawC := x2, sched := x3 } :=
  set_sched (set_lawC (set_law (set_tm h x0 m0) x1 m1) x2 m2) x3 m3

theorem set_tri_free (h : Only M a t) (x0 : TriSt) (m0 : 0x200000000000 &&& M = 0x200000000000) (x1) (m1 : 0x800000000000000 &&& M = 0x800000000000000)
    (b0 : x0.bank0 = t.tri.bank0 := by rfl) (b1 : x0.bank1 = t.tri.bank1 := by rfl) (r : x0.ram = t.tri.ram := by rfl)
    (g : x0.region = t.tri.region ∨ x0.region = t.tri.regionC := by first | exact .inl rfl | exact .inr rfl)
    (gc : x0.regionC = t.tri.region ∨ x0.regionC = t.tri.regionC := by first | exact .inl rfl | exact .inr rfl) :
    Only M a { t with tri := x0, free := x1 } :=
  set_free (set_tri h x0 m0 b0 b1 r g gc) x1 m1

theorem set_tm_sched (h : Only M a t) (x0) (m0 : 0x20000000000 &&& M = 0x20000000000) (x1) (m1 : 0x20000000000000 &&& M = 0x20000000000000) :
    Only M a { t with tm := x0, sched := x1 } :=
  set_sched (set_tm h x0 m0) x1 m1

theorem set_tm_tri_lawC (h : Only M a t) (x0) (m0 : 0x20000000000 &&& M = 0x20000000000) (x1 : TriSt) (m1 : 0x200000000000 &&& M = 0x200000000000) (x2) (m2 : 0x8000000000000 &&& M = 0x8000000000000) (b0 : x1.bank0 = t.tri.bank0 := by rfl) (b1 : x1.bank1 = t.tri.bank1 := by rfl) (r : x1.ram = t.tri.ram := by rfl)
    (g : x1.region = t.tri.region ∨ x1.region = t.tri.regionC := by first | exact .inl rfl | exact .inr rfl)
    (gc : x1.regionC = t.tri.region ∨ x1.regionC = t.tri.regionC := by first | exact .inl rfl | exact .inr rfl) :
    Only M a { t with tm := x0, tri := x1, lawC := x2 } :=
  set_lawC (set_tri (set_tm h x0 m0) x1 m1 b0 b1 r g gc) x2 m2

theorem set_tm_tri_law_lawC (h : Only M a t) (x0) (m0 : 0x20000000000 &&& M = 0x20000000000) (x1 : TriSt) (m1 : 0x200000000000 &&& M = 0x200000000000) (x2) (m2 : 0x4000000000000 &&& M = 0x4000000000000) (x3) (m3 : 0x8000000000000 &&& M = 0x8000000000000) (b0 : x1.bank0 = t.tri.bank0 := by rfl) (b1 : x1.bank1 = t.tri.bank1 := by rfl) (r : x1.ram = t.tri.ram := by rfl)
    (g : x1.region = t.tri.region ∨ x1.region = t.tri.regionC := by first | exact .inl rfl | exact .inr rfl)
    (gc : x1.regionC = t.tri.region ∨ x1.regionC = t.tri.regionC := by first | exact .inl rfl | exact .inr rfl) :
    Only M a { t with tm := x0, tri := x1, law := x2, lawC := x3 } :=
  set_lawC (set_law (set_tri (set_tm h x0 m0) x1 m1 b0 b1 r g gc) x2 m2) x3 m3

theorem set_tm_tri_sched (h : Only M a t) (x0) (m0 : 0x20000000000 &&& M = 0x20000000000) (x1 : TriSt) (m1 : 0x200000000000 &&& M = 0x200000000000) (x2) (m2 : 0x20000000000000 &&& M = 0x20000000000000) (b0 : x1.bank0 = t.tri.bank0 := by rfl) (b1 : x1.bank1 = t.tri.bank1 := by rfl) (r : x1.ram = t.tri.ram := by rfl)
    (g : x1.region = t.tri.region ∨ x1.region = t.tri.regionC := by first | exact .inl rfl | exact .inr rfl)
    (gc : x1.regionC = t.tri.region ∨ x1.regionC = t.tri.regionC := by first | exact .inl rfl | exact .inr rfl) :
    Only M a { t with tm := x0, tri := x1, sched := x2 } :=
  set_sched (set_tri (set_tm h x0 m0) x1 m1 b0 b1 r g gc) x2 m2

end Only

end Sys2Proof.Machine
end

