-- ==== Sys2Proof/Laws/OnlyOps.lean ====
section
/-! SUPPORT. `Only` of each function of Machine/Ops.lean. -/
set_option Elab.async false
namespace Sys2Proof.Machine

theorem Only.wr {M : Nat} {a t : State} (h : Only M a t) (x1_ x2_) (m : 0x0 &&& M = 0x0) (f1 : inM M x1_ = true) :
    Only M a (State.wr t x1_ x2_) := by
  unfold State.wr
  exact (Only.wri h _ _ _ f1)

theorem Only.inci {M : Nat} {a t : State} (h : Only M a t) (x1_ x2_ x3_) (m : 0x0 &&& M = 0x0) (f1 : inM M x1_ = true) :
    Only M a (State.inci t x1_ x2_ x3_) := by
  unfold State.inci
  exact (Only.wri h _ _ _ f1)

theorem Only.inc {M : Nat} {a t : State} (h : Only M a t) (x1_ x2_) (m : 0x0 &&& M = 0x0) (f1 : inM M x1_ = true) :
    Only M a (State.inc t x1_ x2_) := by
  unfold State.inc
  exact (Only.inci h _ _ _ (sb rfl m) f1)

theorem Only.used {M : Nat} {a t : State} (h : Only M a t) (m : 0x800000000000000 &&& M = 0x800000000000000) :
    Only M a (State.used t) := by
  unfold State.used
  exact (Only.set_free h _ (sb rfl m))

theorem Only.moveTo {M : Nat} {a t : State} (h : Only M a t) (x1_) (m : 0x60000000000 &&& M = 0x60000000000) :
    Only M a (State.moveTo t x1_) := by
  unfold State.moveTo
  extract_lets l1 l2 l3
  exact (Only.ite h (by
    split
    · exact (Only.set_tm h _ (sb rfl m))
    · exact (Only.ite (Only.set_tm_clk h _ (sb rfl m) _ (sb rfl m)) (Only.set_tm_clk h _ (sb rfl m) _ (sb rfl m)))))

theorem Only.askAt {M : Nat} {a t : State} (h : Only M a t) (x1_) (m : 0x20000000000 &&& M = 0x20000000000) :
    Only M a (State.askAt t x1_) := by
  unfold State.askAt
  extract_lets l1
  exact (Only.set_tm h _ (sb rfl m))

theorem Only.updCell {M : Nat} {a t : State} (h : Only M a t) (x1_ x2_) (m : 0x2000000000000 &&& M = 0x2000000000000) :
    Only M a (State.updCell t x1_ x2_) := by
  unfold State.updCell
  exact (Only.setCell h _ _ (sb rfl m))

theorem Only.mapCells {M : Nat} {a t : State} (h : Only M a t) (x1_) (m : 0x2000000000000 &&& M = 0x2000000000000) :
    Only M a (State.mapCells t x1_) := by
  unfold State.mapCells
  exact (Only.foldl h fun t1 x2 h3 => (Only.setCell h3 _ _ (sb rfl m)))

theorem Only.setRing {M : Nat} {a t : State} (h : Only M a t) (x1_ x2_) (m : 0x1000000000000 &&& M = 0x1000000000000) :
    Only M a (State.setRing t x1_ x2_) := by
  unfold State.setRing
  exact (Only.set_rings h _ (sb rfl m))

theorem Only.emit {M : Nat} {a t : State} (h : Only M a t) (x1_) (m : 0x1000000000000000 &&& M = 0x1000000000000000) :
    Only M a (State.emit t x1_) := by
  unfold State.emit
  exact (Only.set_out h _ (sb rfl m))

theorem Only.setHostCtr {M : Nat} {a t : State} (h : Only M a t) (x1_ x2_) (m : 0x100000000000 &&& M = 0x100000000000) :
    Only M a (State.setHostCtr t x1_ x2_) := by
  unfold State.setHostCtr
  extract_lets l1
  exact (Only.set_hst h _ (sb rfl m))

theorem Only.startJob {M : Nat} {a t : State} (h : Only M a t) (x1_ x2_ x3_) (m : 0x1000100000000000 &&& M = 0x1000100000000000) :
    Only M a (State.startJob t x1_ x2_ x3_) := by
  unfold State.startJob
  extract_lets l1 l2
  split
  · exact h
  · exact (Only.emit (Only.set_hst h _ (sb rfl m)) _ (sb rfl m))

theorem Only.haltRing {M : Nat} {a t : State} (h : Only M a t) (x1_ x2_ x3_ x4_ x5_) (m : 0x200 &&& M = 0x200) :
    Only M a (State.haltRing t x1_ x2_ x3_ x4_ x5_) := by
  unfold State.haltRing
  exact (Only.wri (Only.wri (Only.wri (Only.wri h _ _ _ (fm rfl m)) _ _ _ (fm rfl m)) _ _ _ (fm rfl m)) _ _ _ (fm rfl m))

theorem Only.queueAt {M : Nat} {a t : State} (h : Only M a t) (x1_ x2_ x3_ x4_ x5_ x6_) (m : 0x100000000000 &&& M = 0x100000000000) :
    Only M a (State.queueAt t x1_ x2_ x3_ x4_ x5_ x6_) := by
  unfold State.queueAt
  extract_lets l1 l2 l3 l4 l5
  exact (Only.ite (Only.set_hst h _ (sb rfl m)) (Only.set_hst h _ (sb rfl m)))

theorem Only.queueOn {M : Nat} {a t : State} (h : Only M a t) (x1_ x2_ x3_ x4_) (m : 0x100000000000 &&& M = 0x100000000000) :
    Only M a (State.queueOn t x1_ x2_ x3_ x4_) := by
  unfold State.queueOn
  exact (Only.queueAt h _ _ _ _ _ _ (sb rfl m))

theorem Only.queueRec {M : Nat} {a t : State} (h : Only M a t) (x1_ x2_ x3_) (m : 0x100000000000 &&& M = 0x100000000000) :
    Only M a (State.queueRec t x1_ x2_ x3_) := by
  unfold State.queueRec
  exact (Only.queueOn h _ _ _ _ (sb rfl m))

theorem Only.queueRingState {M : Nat} {a t : State} (h : Only M a t) (x1_ x2_ x3_) (m : 0x100000000000 &&& M = 0x100000000000) :
    Only M a (State.queueRingState t x1_ x2_ x3_) := by
  unfold State.queueRingState
  exact (Only.ite h (Only.queueRec h _ _ _ (sb rfl m)))

theorem Only.entryWritten {M : Nat} {a t : State} (h : Only M a t) (x1_) (m : 0x1000100000000000 &&& M = 0x1000100000000000) :
    Only M a (State.entryWritten t x1_) := by
  unfold State.entryWritten
  extract_lets l1 l2 l3 l4 l5 l6 l7
  have k8 : Only M a l7 := (Only.set_hst h _ (sb rfl m))
  try clear_value l7
  exact (Only.ite (Only.emit k8 _ (sb rfl m)) k8)

theorem Only.entriesWritten {M : Nat} {a t : State} (h : Only M a t) (r : Nat) (k : Nat) (m : 0x1000100000000000 &&& M = 0x1000100000000000) :
    Only M a (State.entriesWritten t r k) := by
  induction k generalizing t with
  | zero => exact h
  | succ k ih => exact ih (Only.entryWritten h _ (sb rfl m))

theorem Only.askEntry {M : Nat} {a t : State} (h : Only M a t) (x1_ x2_) (m : 0x1000100000000000 &&& M = 0x1000100000000000) :
    Only M a (State.askEntry t x1_ x2_) := by
  unfold State.askEntry
  extract_lets l1
  exact (Only.ite h (Only.startJob h _ _ _ (sb rfl m)))

theorem Only.recordPosted {M : Nat} {a t : State} (h : Only M a t) (x1_ x2_) (m : 0x100000000000000 &&& M = 0x100000000000000) :
    Only M a (State.recordPosted t x1_ x2_) := by
  unfold State.recordPosted
  extract_lets l1 l2
  exact (Only.ite (Only.set_jr h _ (sb rfl m)) h)

theorem Only.emitRecord {M : Nat} {a t : State} (h : Only M a t) (x1_ x2_ x3_ x4_) (m : 0x1000000000000000 &&& M = 0x1000000000000000) :
    Only M a (State.emitRecord t x1_ x2_ x3_ x4_) := by
  unfold State.emitRecord
  exact (Only.set_out h _ (sb rfl m))

theorem Only.drainList {M : Nat} {a t : State} (h : Only M a t) (r : Nat) (l : List Event) (m : 0x1100100000000200 &&& M = 0x1100100000000200) :
    Only M a (t.drainList r l).1 := by
  induction l generalizing t with
  | nil => exact h
  | cons e l ih =>
    unfold State.drainList
    extract_lets k ctr
    split
    · exact h
    · split
      · exact Only.askEntry h _ _ (sb rfl m)
      · exact Only.haltRing h _ _ _ _ _ (sb rfl m)
      · exact ih (Only.entriesWritten (Only.recordPosted (Only.wri (Only.emitRecord h _ _ _ _ (sb rfl m)) _ _ _ (fm rfl m)) _ _ (sb rfl m)) _ _ (sb rfl m))

theorem Only.drain {M : Nat} {a t : State} (h : Only M a t) (x1_) (m : 0x1100100000000200 &&& M = 0x1100100000000200) :
    Only M a (State.drain t x1_) := by
  unfold State.drain
  extract_lets l1
  split
  · rename_i r3 r4 r5
    have k6 : Only M a r3 := Only.pairEq r5 (Only.drainList h _ _ (sb rfl m))
    extract_lets l7 l8 l9
    have k10 : Only M a l8 := (Only.set_hst k6 _ (sb rfl m))
    try clear_value l8
    exact (Only.ite k10 (Only.queueRingState k10 _ _ _ (sb rfl m)))

theorem Only.post {M : Nat} {a t : State} (h : Only M a t) (x1_ x2_) (m : 0x1100100000000200 &&& M = 0x1100100000000200) :
    Only M a (State.post t x1_ x2_) := by
  unfold State.post
  exact (Only.drain (Only.queueRec h _ _ _ (sb rfl m)) _ (sb rfl m))

theorem Only.postLong {M : Nat} {a t : State} (h : Only M a t) (x1_ x2_ x3_) (m : 0x1100100000000200 &&& M = 0x1100100000000200) :
    Only M a (State.postLong t x1_ x2_ x3_) := by
  unfold State.postLong
  exact (Only.drain (Only.queueRec h _ _ _ (sb rfl m)) _ (sb rfl m))

theorem Only.setRingState {M : Nat} {a t : State} (h : Only M a t) (x1_ x2_) (m : 0x1100100000000200 &&& M = 0x1100100000000200) :
    Only M a (State.setRingState t x1_ x2_) := by
  unfold State.setRingState
  extract_lets l1 l2 l3
  have k4 : Only M a l2 := (Only.wri h _ _ _ (fm rfl m))
  try clear_value l2
  have k5 : Only M a l3 := (Only.queueRingState k4 _ _ _ (sb rfl m))
  try clear_value l3
  exact (Only.drain k5 _ (sb rfl m))

theorem Only.configRefused {M : Nat} {a t : State} (h : Only M a t) (x1_ x2_ x3_) (m : 0x1100100000000200 &&& M = 0x1100100000000200) :
    Only M a (State.configRefused t x1_ x2_ x3_) := by
  unfold State.configRefused
  exact (Only.post h _ _ (sb rfl m))

theorem Only.refuse {M : Nat} {a t : State} (h : Only M a t) (x1_) (m : 0x0 &&& M = 0x0) (f1 : inM M x1_ = true) :
    Only M a (State.refuse t x1_) := by
  unfold State.refuse
  exact (Only.wr h _ _ (sb rfl m) f1)

theorem Only.notice {M : Nat} {a t : State} (h : Only M a t) (x1_ x2_) (m : 0x1100100000000200 &&& M = 0x1100100000000200) :
    Only M a (State.notice t x1_ x2_) := by
  unfold State.notice
  exact (Only.post h _ _ (sb rfl m))

theorem Only.noticeOpen {M : Nat} {a t : State} (h : Only M a t) (x1_) (m : 0x1900100000000200 &&& M = 0x1900100000000200) :
    Only M a (State.noticeOpen t x1_) := by
  unfold State.noticeOpen
  exact (Only.used (Only.notice h _ _ (sb rfl m)) (sb rfl m))

theorem Only.complete {M : Nat} {a t : State} (h : Only M a t) (x1_ x2_ x3_ x4_) (m : 0x100000000000 &&& M = 0x100000000000) :
    Only M a (State.complete t x1_ x2_ x3_ x4_) := by
  unfold State.complete
  extract_lets l1
  exact (Only.ite h (Only.set_hst h _ (sb rfl m)))

theorem Only.completeAtTend {M : Nat} {a t : State} (h : Only M a t) (x1_ x2_ x3_) (m : 0x100000000000 &&& M = 0x100000000000) :
    Only M a (State.completeAtTend t x1_ x2_ x3_) := by
  unfold State.completeAtTend
  extract_lets l1
  exact (Only.ite h (Only.set_hst h _ (sb rfl m)))

theorem Only.latchBits {M : Nat} {a t : State} (h : Only M a t) (x1_ x2_) (m : 0x400000000000 &&& M = 0x400000000000) (f5 : inM M x1_ = true) :
    Only M a (State.latchBits t x1_ x2_) := by
  unfold State.latchBits
  extract_lets l1 l2 l3 l4
  have k6 : Only M a l3 := (Only.wr h _ _ (sb rfl m) f5)
  try clear_value l3
  exact (Only.set_slc k6 _ (sb rfl m))

theorem latch_inM {M : Nat} {f : Fld} (m : 0x100000000 &&& M = 0x100000000) (hf : f ∈ latchFields) : inM M f = true :=
  fms (l := latchFields) (by decide) m f hf

theorem first_inM {M : Nat} {f : Fld} (m : 0x100000000 &&& M = 0x100000000) (hf : f ∈ latchFields) :
    inM M (firstField f) = true :=
  fms (l := latchFields.map firstField) (by decide) m _ (List.mem_map_of_mem hf)

theorem Only.latch {M : Nat} {a t : State} (h : Only M a t) (f x2_) (m : 0x400100000000 &&& M = 0x400100000000) (hf : f ∈ latchFields) :
    Only M a (State.latch t f x2_) := by
  unfold State.latch
  extract_lets l1 l2 l3 l4 l5 l6 l7
  have k9 : Only M a l2 := Only.latchBits h _ _ (sb rfl m) (latch_inM (sb rfl m) hf)
  try clear_value l2
  have k10 : Only M a l3 := Only.foldlMem k9 fun t x hx h => Only.wr h _ _ (sb rfl m) (first_inM (sb rfl m) hx)
  try clear_value l3
  have k11 : Only M a l4 := Only.wr k10 _ _ (sb rfl m) (fm rfl m)
  try clear_value l4
  have k12 : Only M a l6 := Only.ite (Only.set_slc k11 _ (sb rfl m)) (Only.ite (Only.wr k9 _ _ (sb rfl m) (first_inM (sb rfl m) hf)) k9)
  try clear_value l6
  exact Only.set_slc k12 _ (sb rfl m)

theorem Only.latchOnly {M : Nat} {a t : State} (h : Only M a t) (x1_ x2_) (m : 0x400100000000 &&& M = 0x400100000000) (f1 : x1_ ∈ latchFields) :
    Only M a (State.latchOnly t x1_ x2_) := by
  unfold State.latchOnly
  extract_lets l1
  have k3 : Only M a l1 := (Only.latchBits h _ _ (sb rfl m) (latch_inM (sb rfl m) f1))
  try clear_value l1
  exact (Only.ite (Only.wr k3 _ _ (sb rfl m) (first_inM (sb rfl m) f1)) k3)

theorem Only.showBrk {M : Nat} {a t : State} (h : Only M a t) (m : 0x1000000000000000 &&& M = 0x1000000000000000) :
    Only M a (State.showBrk t) := by
  unfold State.showBrk
  extract_lets l1
  exact (Only.emit h _ (sb rfl m))

theorem Only.sendOrder {M : Nat} {a t : State} (h : Only M a t) (x1_ x2_) (m : 0x1000000000000000 &&& M = 0x1000000000000000) :
    Only M a (State.sendOrder t x1_ x2_) := by
  unfold State.sendOrder
  exact (Only.emit (Only.emit h _ (sb rfl m)) _ (sb rfl m))

theorem Only.sendBk {M : Nat} {a t : State} (h : Only M a t) (x1_) (m : 0x1000000000000000 &&& M = 0x1000000000000000) :
    Only M a (State.sendBk t x1_) := by
  unfold State.sendBk
  exact (Only.foldl h fun t1 x2 h3 => (Only.sendOrder h3 _ _ (sb rfl m)))

theorem Only.blockPhases {M : Nat} {a t : State} (h : Only M a t) (x1_) (m : 0x2000000000000 &&& M = 0x2000000000000) :
    Only M a (State.blockPhases t x1_) := by
  unfold State.blockPhases
  exact (Only.mapCells h _ (sb rfl m))

theorem Only.cancelRelease {M : Nat} {a t : State} (h : Only M a t) (m : 0x1900500000000200 &&& M = 0x1900500000000200) :
    Only M a (State.cancelRelease t) := by
  unfold State.cancelRelease
  extract_lets l1 l2 l3
  have k4 : Only M a l3 := (Only.set_slc h _ (sb rfl m))
  try clear_value l3
  exact (Only.ite h (Only.noticeOpen (Only.foldl k4 fun t5 x6 h7 => (Only.complete h7 _ _ _ _ (sb rfl m))) _ (sb rfl m)))

theorem Only.setQueue {M : Nat} {a t : State} (h : Only M a t) (x1_ x2_) (m : 0x40000020000000 &&& M = 0x40000020000000) :
    Only M a (State.setQueue t x1_ x2_) := by
  unfold State.setQueue
  extract_lets l1
  exact (Only.wri (Only.set_adc h _ (sb rfl m)) _ _ _ (fm rfl m))

theorem Only.qKeep {M : Nat} {a t : State} (h : Only M a t) (x1_ x2_) (m : 0x40000020000000 &&& M = 0x40000020000000) :
    Only M a (State.qKeep t x1_ x2_) := by
  unfold State.qKeep
  extract_lets l1 l2 l3
  have k4 : Only M a l3 := (Only.setQueue h _ _ (sb rfl m))
  try clear_value l3
  exact (Only.ite (Only.ite (Only.wri k4 _ _ _ (fm rfl m)) k4) (Only.setQueue h _ _ (sb rfl m)))

theorem Only.qLose {M : Nat} {a t : State} (h : Only M a t) (x1_) (m : 0x40000020000000 &&& M = 0x40000020000000) :
    Only M a (State.qLose t x1_) := by
  unfold State.qLose
  extract_lets l1
  exact (Only.setQueue (Only.inci h _ _ _ (sb rfl m) (fm rfl m)) _ _ (sb rfl m))

theorem Only.qTake {M : Nat} {a t : State} (h : Only M a t) (x1_ x2_) (m : 0x40000020000000 &&& M = 0x40000020000000) :
    Only M a (State.qTake t x1_ x2_) := by
  unfold State.qTake
  extract_lets l1
  exact (Only.ite h (Only.ite (Only.qLose h _ (sb rfl m)) (Only.qKeep (Only.setQueue h _ _ (sb rfl m)) _ _ (sb rfl m))))

theorem Only.qAccept {M : Nat} {a t : State} (h : Only M a t) (x1_ x2_) (m : 0x40000020000000 &&& M = 0x40000020000000) :
    Only M a (State.qAccept t x1_ x2_) := by
  unfold State.qAccept
  extract_lets l1 l2 l3
  have k4 : Only M a l3 := (Only.ite (Only.qKeep (Only.setQueue h _ _ (sb rfl m)) _ _ (sb rfl m)) h)
  try clear_value l3
  exact (Only.qTake k4 _ _ (sb rfl m))

theorem Only.qAcceptAll {M : Nat} {a t : State} (h : Only M a t) (g q at') (l : List QEnt) (gh : ∀ u, Only M a u → Only M a (g u)) (m : 0x40000020000000 &&& M = 0x40000020000000) :
    Only M a (State.qAcceptAll g t q at' l) := by
  induction l generalizing t at' with
  | nil => exact h
  | cons e l ih => exact ih (gh _ (Only.qAccept h _ _ (sb rfl m))) _

theorem Only.qFlow {M : Nat} {a t : State} (h : Only M a t) (x0_ x2_ x3_) (g0 : ∀ u, Only M a u → Only M a (x0_ u)) (m : 0x40000020000000 &&& M = 0x40000020000000) :
    Only M a (State.qFlow x0_ t x2_ x3_) := by
  unfold State.qFlow
  extract_lets l1 l2 l3
  exact (Only.qAcceptAll (Only.setQueue h _ _ (sb rfl m)) _ _ _ _ (fun t4 h5 => (g0 _ h5)) (sb rfl m))

theorem Only.qPush {M : Nat} {a t : State} (h : Only M a t) (x1_ x2_) (m : 0x40000020000000 &&& M = 0x40000020000000) :
    Only M a (State.qPush t x1_ x2_) := by
  unfold State.qPush
  extract_lets l1
  exact (Only.ite h (Only.ite (Only.qLose h _ (sb rfl m)) (Only.setQueue h _ _ (sb rfl m))))

theorem Only.qArrive {M : Nat} {a t : State} (h : Only M a t) (g q now) (l : List (Nat × QEnt)) (gh : ∀ u, Only M a u → Only M a (g u)) (m : 0x40000020000000 &&& M = 0x40000020000000) :
    Only M a (State.qArrive g t q now l) := by
  induction l generalizing t with
  | nil => exact Only.qFlow h _ _ _ gh (sb rfl m)
  | cons e l ih => exact ih (Only.qPush (Only.qFlow h _ _ _ gh (sb rfl m)) _ _ (sb rfl m))

theorem Only.qCatch {M : Nat} {a t : State} (h : Only M a t) (x0_ x2_ x3_) (g0 : ∀ u, Only M a u → Only M a (x0_ u)) (m : 0x40000020000000 &&& M = 0x40000020000000) :
    Only M a (State.qCatch x0_ t x2_ x3_) := by
  unfold State.qCatch
  extract_lets l1
  exact (Only.qArrive (Only.setQueue h _ _ (sb rfl m)) _ _ _ _ (fun t2 h3 => (g0 _ h3)) (sb rfl m))

theorem Only.qSend {M : Nat} {a t : State} (h : Only M a t) (x1_ x2_ x3_) (m : 0x40000020000000 &&& M = 0x40000020000000) :
    Only M a (State.qSend t x1_ x2_ x3_) := by
  unfold State.qSend
  extract_lets l1
  exact (Only.ite h (Only.setQueue h _ _ (sb rfl m)))

theorem Only.trigEvent {M : Nat} {a t : State} (h : Only M a t) (x1_ x2_) (m : 0x40000000000000 &&& M = 0x40000000000000) :
    Only M a (State.trigEvent t x1_ x2_) := by
  unfold State.trigEvent
  extract_lets l1 l2
  exact (Only.ite h (Only.set_adc h _ (sb rfl m)))

theorem Only.captureEvent {M : Nat} {a t : State} (h : Only M a t) (x1_) (m : 0x40000020000000 &&& M = 0x40000020000000) :
    Only M a (State.captureEvent t x1_) := by
  unfold State.captureEvent
  exact (Only.ite h (Only.foldl h fun t1 x2 h3 => (Only.ite (by
    extract_lets l4 l5
    have k8 : Only M a l4 := (Only.qCatch h3 _ _ _ (fun t6 h7 => h7) (sb rfl m))
    try clear_value l4
    exact (Only.setQueue (Only.wri k8 _ _ _ (fm rfl m)) _ _ (sb rfl m))) h3)))

theorem Only.blockNow {M : Nat} {a t : State} (h : Only M a t) (x1_) (m : 0x1002400000000000 &&& M = 0x1002400000000000) :
    Only M a (State.blockNow t x1_) := by
  unfold State.blockNow
  extract_lets l1 l2
  have k3 : Only M a l1 := (Only.blockPhases (Only.sendBk h _ (sb rfl m)) _ (sb rfl m))
  try clear_value l1
  exact (Only.set_slc k3 _ (sb rfl m))

theorem Only.actScope {M : Nat} {a t : State} (h : Only M a t) (x1_ x2_ x3_ x4_ x5_) (m : 0x1942500120000200 &&& M = 0x1942500120000200) (f13 : x1_ ∈ latchFields) :
    Only M a (State.actScope t x1_ x2_ x3_ x4_ x5_) := by
  unfold State.actScope
  extract_lets l1 l2 l3 l4 l5 l6 l7 l8 l9 l10 l11 l12
  have k14 : Only M a l3 := (Only.captureEvent (Only.cancelRelease (Only.latch h _ _ (sb rfl m) f13) (sb rfl m)) _ (sb rfl m))
  try clear_value l3
  have k15 : Only M a l6 := (Only.showBrk (Only.wr k14 _ _ (sb rfl m) (fm rfl m)) (sb rfl m))
  try clear_value l6
  have k16 : Only M a l8 := (Only.ite (Only.set_slc k15 _ (sb rfl m)) k14)
  try clear_value l8
  have k17 : Only M a l9 := (Only.ite (Only.emit k16 _ (sb rfl m)) k16)
  try clear_value l9
  have k18 : Only M a l10 := (Only.inc (Only.wr (Only.wr k17 _ _ (sb rfl m) (fm rfl m)) _ _ (sb rfl m) (fm rfl m)) _ _ (sb rfl m) (fm rfl m))
  try clear_value l10
  have k19 : Only M a l12 := (Only.ite (Only.set_slc k18 _ (sb rfl m)) (Only.blockNow k18 _ (sb rfl m)))
  try clear_value l12
  exact (Only.ite (Only.ite (Only.blockNow k17 _ (sb rfl m)) k17) (Only.post k19 _ _ (sb rfl m)))

theorem Only.safeState {M : Nat} {a t : State} (h : Only M a t) (x1_) (m : 0x1942500120000200 &&& M = 0x1942500120000200) (f1 : x1_ ∈ latchFields) :
    Only M a (State.safeState t x1_) := by
  unfold State.safeState
  exact (Only.actScope h _ _ _ _ _ (sb rfl m) f1)

theorem Only.blockCell {M : Nat} {a t : State} (h : Only M a t) (x1_) (m : 0x1002000000000000 &&& M = 0x1002000000000000) :
    Only M a (State.blockCell t x1_) := by
  unfold State.blockCell
  exact (Only.ite h (Only.sendOrder (Only.updCell h _ _ (sb rfl m)) _ _ (sb rfl m)))

theorem Only.phaseCounts {M : Nat} {a t : State} (h : Only M a t) (m : 0x10000 &&& M = 0x10000) :
    Only M a (State.phaseCounts t) := by
  unfold State.phaseCounts
  exact (Only.wr (Only.wr (Only.wr h _ _ (sb rfl m) (fm rfl m)) _ _ (sb rfl m) (fm rfl m)) _ _ (sb rfl m) (fm rfl m))

theorem Only.cellEvent {M : Nat} {a t : State} (h : Only M a t) (x1_ x2_ x3_ x4_) (m : 0x1100100000008200 &&& M = 0x1100100000008200) :
    Only M a (State.cellEvent t x1_ x2_ x3_ x4_) := by
  unfold State.cellEvent
  exact (Only.post (Only.inci h _ _ _ (sb rfl m) (fm rfl m)) _ _ (sb rfl m))

theorem Only.linkEvent {M : Nat} {a t : State} (h : Only M a t) (x1_ x2_ x3_ x4_) (m : 0x1100100000000200 &&& M = 0x1100100000000200) :
    Only M a (State.linkEvent t x1_ x2_ x3_ x4_) := by
  unfold State.linkEvent
  exact (Only.post h _ _ (sb rfl m))

theorem Only.clockEvent {M : Nat} {a t : State} (h : Only M a t) (x1_ x2_ x3_) (m : 0x1100100000000200 &&& M = 0x1100100000000200) :
    Only M a (State.clockEvent t x1_ x2_ x3_) := by
  unfold State.clockEvent
  exact (Only.post h _ _ (sb rfl m))

theorem Only.powerEvent {M : Nat} {a t : State} (h : Only M a t) (x1_ x2_) (m : 0x1100100000000200 &&& M = 0x1100100000000200) :
    Only M a (State.powerEvent t x1_ x2_) := by
  unfold State.powerEvent
  exact (Only.post h _ _ (sb rfl m))

theorem Only.triadEvent {M : Nat} {a t : State} (h : Only M a t) (x1_ x2_ x3_ x4_ x5_) (m : 0x1100100000000200 &&& M = 0x1100100000000200) :
    Only M a (State.triadEvent t x1_ x2_ x3_ x4_ x5_) := by
  unfold State.triadEvent
  exact (Only.post h _ _ (sb rfl m))

theorem Only.showSil {M : Nat} {a t : State} (h : Only M a t) (m : 0x200000000 &&& M = 0x200000000) :
    Only M a (State.showSil t) := by
  unfold State.showSil
  exact (Only.wr h _ _ (sb rfl m) (fm rfl m))

theorem Only.breakTimes {M : Nat} {a t : State} (h : Only M a t) (m : 0x2c020000100000 &&& M = 0x2c020000100000) :
    Only M a (State.breakTimes t) := by
  unfold State.breakTimes
  extract_lets l1 l2
  exact (Only.wr (Only.set_tm_law_lawC_sched h _ (sb rfl m) _ (sb rfl m) _ (sb rfl m) _ (sb rfl m)) _ _ (sb rfl m) (fm rfl m))

theorem Only.setForming {M : Nat} {a t : State} (h : Only M a t) (x1_) (m : 0xc000000080000 &&& M = 0xc000000080000) :
    Only M a (State.setForming t x1_) := by
  unfold State.setForming
  extract_lets l1
  exact (Only.wr (Only.set_law_lawC h _ (sb rfl m) _ (sb rfl m)) _ _ (sb rfl m) (fm rfl m))

theorem Only.dropForming {M : Nat} {a t : State} (h : Only M a t) (m : 0xc000000080000 &&& M = 0xc000000080000) :
    Only M a (State.dropForming t) := by
  unfold State.dropForming
  exact (Only.ite (Only.setForming h _ (sb rfl m)) h)

end Sys2Proof.Machine
end

