-- ==== Sys2Proof/Laws/OnlyAuxOps.lean ====
section
/-! SUPPORT. `Only` of each function of Machine/AuxOps.lean. -/
set_option Elab.async false
namespace Sys2Proof.Machine

theorem Only.updAch {M : Nat} {a t : State} (h : Only M a t) (x1_ x2_) (m : 0x400000000000000 &&& M = 0x400000000000000) :
    Only M a (State.updAch t x1_ x2_) := by
  unfold State.updAch
  exact (Only.set_aux h _ (sb rfl m))

theorem Only.auxPost {M : Nat} {a t : State} (h : Only M a t) (x1_ x2_ x3_) (m : 0x1100110000000200 &&& M = 0x1100110000000200) :
    Only M a (State.auxPost t x1_ x2_ x3_) := by
  unfold State.auxPost
  exact (Only.post (Only.wri h _ _ _ (fm rfl m)) _ _ (sb rfl m))

theorem Only.auxHolds {M : Nat} {a t : State} (h : Only M a t) (m : 0x1400010000000000 &&& M = 0x1400010000000000) :
    Only M a (State.auxHolds t) := by
  unfold State.auxHolds
  exact (Only.foldl h fun t1 x2 h3 => (by
    split
    · exact (Only.ite (Only.emit (Only.updAch (Only.wri h3 _ _ _ (fm rfl m)) _ _ (sb rfl m)) _ (sb rfl m)) h3)
    · exact h3))

theorem Only.auxEnter {M : Nat} {a t : State} (h : Only M a t) (x1_ x2_ x3_ x4_) (m : 0x1500110000000200 &&& M = 0x1500110000000200) :
    Only M a (State.auxEnter t x1_ x2_ x3_ x4_) := by
  unfold State.auxEnter
  extract_lets l1 l2
  have k3 : Only M a l1 := (Only.wri (Only.wri h _ _ _ (fm rfl m)) _ _ _ (fm rfl m))
  try clear_value l1
  have k4 : Only M a l2 := (Only.updAch k3 _ _ (sb rfl m))
  try clear_value l2
  exact (Only.auxPost k4 _ _ _ (sb rfl m))

theorem Only.auxDown {M : Nat} {a t : State} (h : Only M a t) (x1_ x2_ x3_ x4_) (m : 0x1500110000000200 &&& M = 0x1500110000000200) :
    Only M a (State.auxDown t x1_ x2_ x3_ x4_) := by
  unfold State.auxDown
  exact (Only.auxEnter (Only.emit h _ (sb rfl m)) _ _ _ _ (sb rfl m))

theorem Only.tripOff {M : Nat} {a t : State} (h : Only M a t) (x1_) (m : 0x1500110000000200 &&& M = 0x1500110000000200) :
    Only M a (State.tripOff t x1_) := by
  unfold State.tripOff
  extract_lets l1
  have k2 : Only M a l1 := (Only.updAch h _ _ (sb rfl m))
  try clear_value l1
  exact (Only.ite (Only.emit k2 _ (sb rfl m)) (Only.auxDown k2 _ _ _ _ (sb rfl m)))

theorem Only.driveOff {M : Nat} {a t : State} (h : Only M a t) (x1_ x2_) (m : 0x1500110000000200 &&& M = 0x1500110000000200) :
    Only M a (State.driveOff t x1_ x2_) := by
  unfold State.driveOff
  extract_lets l1
  have k2 : Only M a l1 := (Only.ite (Only.tripOff h _ (sb rfl m)) h)
  try clear_value l1
  exact (Only.ite (Only.tripOff k2 _ (sb rfl m)) k2)

theorem Only.auxShort {M : Nat} {a t : State} (h : Only M a t) (x1_) (m : 0x1500110000000200 &&& M = 0x1500110000000200) :
    Only M a (State.auxShort t x1_) := by
  unfold State.auxShort
  extract_lets l1
  exact (Only.auxEnter (Only.updAch h _ _ (sb rfl m)) _ _ _ _ (sb rfl m))

theorem Only.auxDecel {M : Nat} {a t : State} (h : Only M a t) (x1_) (m : 0x400010000000000 &&& M = 0x400010000000000) :
    Only M a (State.auxDecel t x1_) := by
  unfold State.auxDecel
  extract_lets l1
  exact (Only.ite (Only.updAch (Only.wri (Only.wri h _ _ _ (fm rfl m)) _ _ _ (fm rfl m)) _ _ (sb rfl m)) h)

theorem Only.auxStop {M : Nat} {a t : State} (h : Only M a t) (x1_) (m : 0x1500110000000200 &&& M = 0x1500110000000200) :
    Only M a (State.auxStop t x1_) := by
  unfold State.auxStop
  extract_lets l1
  have k2 : Only M a l1 := (Only.updAch h _ _ (sb rfl m))
  try clear_value l1
  exact (Only.ite (Only.auxDown k2 _ _ _ _ (sb rfl m)) (Only.auxDecel k2 _ (sb rfl m)))

end Sys2Proof.Machine
end

