-- ==== Sys2Proof/Laws/OnlyPower.lean ====
section
/-! SUPPORT. `Only` of each function of Machine/Power.lean. -/
set_option Elab.async false
namespace Sys2Proof.Machine

theorem Only.setStage {M : Nat} {a t : State} (h : Only M a t) (x1_) (m : 0x1100100000000300 &&& M = 0x1100100000000300) :
    Only M a (State.setStage t x1_) := by
  unfold State.setStage
  extract_lets l1
  exact (Only.powerEvent (Only.wr h _ _ (sb rfl m) (fm rfl m)) _ _ (sb rfl m))

theorem Only.wake {M : Nat} {a t : State} (h : Only M a t) (x1_) (m : 0x1100180000000320 &&& M = 0x1100180000000320) :
    Only M a (State.wake t x1_) := by
  unfold State.wake
  extract_lets l1 l2 l3
  have k4 : Only M a l1 := (Only.wr (Only.wr (Only.wr h _ _ (sb rfl m) (fm rfl m)) _ _ (sb rfl m) (fm rfl m)) _ _ (sb rfl m) (fm rfl m))
  try clear_value l1
  have k5 : Only M a l3 := (Only.set_pwr k4 _ (sb rfl m))
  try clear_value l3
  exact (Only.powerEvent k5 _ _ (sb rfl m))

theorem Only.tryWake {M : Nat} {a t : State} (h : Only M a t) (x1_) (m : 0x1100180000000320 &&& M = 0x1100180000000320) :
    Only M a (State.tryWake t x1_) := by
  unfold State.tryWake
  exact (Only.ite (Only.wake h _ (sb rfl m)) h)

theorem Only.execWake {M : Nat} {a t : State} (h : Only M a t) (x0_ x1_) (m : 0x11001e0000000320 &&& M = 0x11001e0000000320) :
    OnlyO M a (Sys2Proof.Machine.execWake x0_ x1_ t) := by
  unfold Sys2Proof.Machine.execWake
  refine OnlyO.next ?_
  exact (Only.live h (fun t1 h2 => (Only.tryWake (Only.moveTo h2 _ (sb rfl m)) _ (sb rfl m))))

theorem canon_reset : Canon State.reset := ⟨by decide, rfl, rfl, rfl, rfl, rfl, rfl⟩

/-- The mask of everything: any change that keeps the queue and the canonical forms. -/
theorem Only.all {M : Nat} {a t : State} (p : t.pending = a.pending) (c : Canon a → Canon t)
    (m : 0x1FFFFFFFFFFFFFFF &&& M = 0x1FFFFFFFFFFFFFFF) : Only M a t := by
  have b : ∀ i, i < 61 → M.testBit i = true := fun i hi => testBit_sub m (by revert hi; revert i; decide)
  have n : ∀ {p : Prop} i, i < 61 → M.testBit i = false → p := fun i hi h => by rw [b i hi] at h; cases h
  exact ⟨p, c, fun k hk => n _ (by omega), n 41 (by omega), n 42 (by omega), n 43 (by omega), n 44 (by omega),
    n 45 (by omega), n 46 (by omega), n 47 (by omega), n 48 (by omega), n 49 (by omega), n 50 (by omega), n 51 (by omega),
    n 52 (by omega), n 53 (by omega), n 54 (by omega), n 55 (by omega), n 56 (by omega), n 57 (by omega), n 58 (by omega),
    n 59 (by omega), n 60 (by omega)⟩

theorem Only.powerOn {M : Nat} {a t : State} (h : Only M a t) (m : 0x1fffffffffffffff &&& M = 0x1fffffffffffffff) : Only M a (State.powerOn t) := by
  unfold State.powerOn
  extract_lets r base regs src src2 n m'
  have hn : Only M a n := Only.all h.pending
    (fun _ => ⟨twf_foldl_tput _ _ (twf_filter _ _ canon_reset.1), rfl, rfl, rfl, rfl, rfl, rfl⟩) (sb rfl m)
  clear_value n
  have hm : Only M a m' := Only.emit (Only.showBrk (Only.wr hn _ _ (sb rfl m) (fm rfl m)) (sb rfl m)) _ (sb rfl m)
  clear_value m'
  exact Only.ite (Only.powerEvent (Only.wr hm _ _ (sb rfl m) (fm rfl m)) _ _ (sb rfl m)) hm

theorem Only.execMainPowerOn {M : Nat} {a t : State} (h : Only M a t) (m : 0x1fffffffffffffff &&& M = 0x1fffffffffffffff) :
    OnlyO M a (Sys2Proof.Machine.execMainPowerOn t) := by
  unfold Sys2Proof.Machine.execMainPowerOn
  refine OnlyO.next ?_
  exact (Only.ite h (Only.powerOn h (sb rfl m)))

theorem Only.auxDead {M : Nat} {a t : State} (h : Only M a t) (m : 0x1400010000000000 &&& M = 0x1400010000000000) :
    Only M a (State.auxDead t) := by
  unfold State.auxDead
  exact (Only.foldl h fun t1 x2 h3 => (Only.emit (Only.emit (Only.updAch (Only.wri (Only.wri h3 _ _ _ (fm rfl m)) _ _ _ (fm rfl m)) _ _ (sb rfl m)) _ (sb rfl m)) _ (sb rfl m)))

theorem Only.execRailReset {M : Nat} {a t : State} (h : Only M a t) (m : 0x1500190100000200 &&& M = 0x1500190100000200) :
    OnlyO M a (Sys2Proof.Machine.execRailReset t) := by
  unfold Sys2Proof.Machine.execRailReset
  extract_lets l1 l2 l3
  have k6 : Only M a l1 := (Only.live h (fun t4 h5 => (Only.auxStop (Only.auxStop (Only.showBrk (Only.wr h5 _ _ (sb rfl m) (fm rfl m)) (sb rfl m)) _ (sb rfl m)) _ (sb rfl m))))
  try clear_value l1
  have k7 : Only M a l2 := (Only.ite k6 (Only.auxDead k6 (sb rfl m)))
  try clear_value l2
  refine OnlyO.next ?_
  exact (Only.set_pwr k7 _ (sb rfl m))

theorem Only.execResetNAsserted {M : Nat} {a t : State} (h : Only M a t) (m : 0x1500190100000200 &&& M = 0x1500190100000200) :
    OnlyO M a (Sys2Proof.Machine.execResetNAsserted t) := by
  unfold Sys2Proof.Machine.execResetNAsserted
  extract_lets l1 l2
  have k5 : Only M a l1 := (Only.live h (fun t3 h4 => (Only.auxStop (Only.auxStop (Only.showBrk (Only.wr h4 _ _ (sb rfl m) (fm rfl m)) (sb rfl m)) _ (sb rfl m)) _ (sb rfl m))))
  try clear_value l1
  refine OnlyO.next ?_
  exact (Only.set_pwr k5 _ (sb rfl m))

theorem Only.askPersist {M : Nat} {a t : State} (h : Only M a t) (m : 0x80000000020 &&& M = 0x80000000020) :
    Only M a (State.askPersist t) := by
  unfold State.askPersist
  extract_lets l1
  exact (Only.ite (Only.refuse (Only.wr h _ _ (sb rfl m) (fm rfl m)) _ (sb rfl m) (fm rfl m)) (Only.wr (Only.set_pwr h _ (sb rfl m)) _ _ (sb rfl m) (fm rfl m)))

theorem Only.execPersist {M : Nat} {a t : State} (h : Only M a t) (x0_) (m : 0xe0000000020 &&& M = 0xe0000000020) :
    OnlyO M a (Sys2Proof.Machine.execPersist x0_ t) := by
  unfold Sys2Proof.Machine.execPersist
  refine OnlyO.next ?_
  exact (Only.live h (fun t1 h2 => (Only.askPersist (Only.moveTo h2 _ (sb rfl m)) (sb rfl m))))

theorem Only.execPersistDone {M : Nat} {a t : State} (h : Only M a t) (x0_) (m : 0x1100180000000220 &&& M = 0x1100180000000220) :
    OnlyO M a (Sys2Proof.Machine.execPersistDone x0_ t) := by
  unfold Sys2Proof.Machine.execPersistDone
  refine OnlyO.next ?_
  exact (Only.live h (fun t1 h2 => (by
    extract_lets l3 l4 l5 l6 l7 l8 l9 l10 l11
    have k12 : Only M a l9 := (Only.set_pwr h2 _ (sb rfl m))
    try clear_value l9
    have k13 : Only M a l10 := (Only.wr (Only.wr k12 _ _ (sb rfl m) (fm rfl m)) _ _ (sb rfl m) (fm rfl m))
    try clear_value l10
    have k14 : Only M a l11 := (Only.ite (Only.wr k13 _ _ (sb rfl m) (fm rfl m)) k13)
    try clear_value l11
    split
    · exact h2
    · exact (Only.powerEvent k14 _ _ (sb rfl m)))))

theorem Only.execFwkeyFuse {M : Nat} {a t : State} (h : Only M a t) (m : 0x80000000022 &&& M = 0x80000000022) :
    OnlyO M a (Sys2Proof.Machine.execFwkeyFuse t) := by
  unfold Sys2Proof.Machine.execFwkeyFuse
  refine OnlyO.next ?_
  exact (Only.live h (fun t1 h2 => (by
    extract_lets l3 l4
    exact (Only.ite (Only.wr (Only.set_pwr h2 _ (sb rfl m)) _ _ (sb rfl m) (fm rfl m)) (Only.refuse h2 _ (sb rfl m) (fm rfl m))))))

/-- A filter of the register table changes only the blocks of the entries it drops. -/
theorem tget_filter (p : Nat × Nat → Bool) (t : Tab Nat) (k : Nat) (hp : ∀ v, p (k, v) = true) :
    tget regDefault (t.filter p) k = tget regDefault t k := by
  induction t with
  | nil => rfl
  | cons q t ih =>
    obtain ⟨j, v⟩ := q
    by_cases hj : j = k
    · subst hj; simp [List.filter_cons, hp, tget]
    · by_cases hq : p (j, v) = true <;> simp [List.filter_cons, hq, tget, hj, ih]

theorem Only.dropKa {M : Nat} {a t : State} (h : Only M a t) (m : 0xC0 &&& M = 0xC0) :
    Only M a { t with regs := t.regs.filter (fun kv => kv.1 / 32 / 0x10000 != 6 && kv.1 != Reg.BIST_STATUS.VALID.key 0 &&
      kv.1 != Reg.BIST_STATUS.FAIL.key 0) } := by
  refine Only.set_regs h _ (twf_filter _ _) fun k _ hk => tget_filter _ _ _ fun v => ?_
  have n (i : Nat) (hi : (0xC0 : Nat).testBit i = true) : k / 32 / 65536 ≠ i := fun e => by
    rw [e, testBit_sub m hi] at hk; cases hk
  have h6 := n 6 (by decide)
  have h7 := n 7 (by decide)
  simp only [Bool.and_eq_true, bne_iff_ne, ne_eq]
  refine ⟨⟨h6, ?_⟩, ?_⟩ <;> (rintro rfl; exact h7 (by decide))

theorem Only.execOasisColdStart {M : Nat} {a t : State} (h : Only M a t) (m : 0x800000000c0 &&& M = 0x800000000c0) :
    OnlyO M a (Sys2Proof.Machine.execOasisColdStart t) := by
  unfold Sys2Proof.Machine.execOasisColdStart
  extract_lets regs src s
  have hs : Only M a s := Only.set_pwr (Only.dropKa h (sb rfl m)) _ (sb rfl m)
  clear_value s
  exact Only.wr (Only.wr hs _ _ (sb rfl m) (fm rfl m)) _ _ (sb rfl m) (fm rfl m)

theorem Only.execOasisTrim {M : Nat} {a t : State} (h : Only M a t) (x0_ x1_) (m : 0xe0000000000 &&& M = 0xe0000000000) :
    OnlyO M a (Sys2Proof.Machine.execOasisTrim x0_ x1_ t) := by
  unfold Sys2Proof.Machine.execOasisTrim
  refine OnlyO.next ?_
  exact (Only.live h (fun t1 h2 => (by
    extract_lets l3 l4
    have k5 : Only M a l3 := (Only.moveTo h2 _ (sb rfl m))
    try clear_value l3
    exact (Only.ite (Only.set_pwr k5 _ (sb rfl m)) k5))))

end Sys2Proof.Machine
end

