-- ==== Sys2Proof/Laws/OnlyClock.lean ====
section
/-! SUPPORT. `Only` of each function of Machine/Clock.lean. -/
set_option Elab.async false
namespace Sys2Proof.Machine

theorem Only.qualTrack {M : Nat} {a t : State} (h : Only M a t) (m : 0x40000000000 &&& M = 0x40000000000) :
    Only M a (State.qualTrack t) := by
  unfold State.qualTrack
  extract_lets l1 l2
  exact (Only.set_clk h _ (sb rfl m))

theorem Only.reselect {M : Nat} {a t : State} (h : Only M a t) (m : 0x40000000000 &&& M = 0x40000000000) : Only M a (State.reselect t) := by
  unfold State.reselect
  extract_lets sel best bad earlier
  clear_value earlier best
  split
  · exact h
  · exact Only.ite (Only.ite (Only.set_clk h _ (sb rfl m)) (Only.set_clk h _ (sb rfl m)))
      (Only.ite (Only.set_clk h _ (sb rfl m)) h)

theorem Only.loopCoast {M : Nat} {a t : State} (h : Only M a t) (x1_) (m : 0x1100100000000204 &&& M = 0x1100100000000204) :
    Only M a (State.loopCoast t x1_) := by
  unfold State.loopCoast
  extract_lets l1
  have k2 : Only M a l1 := (Only.wr (Only.wr h _ _ (sb rfl m) (fm rfl m)) _ _ (sb rfl m) (fm rfl m))
  try clear_value l1
  exact (Only.ite (Only.clockEvent (Only.inc k2 _ _ (sb rfl m) (fm rfl m)) _ _ _ (sb rfl m)) k2)

theorem Only.allCoast {M : Nat} {a t : State} (h : Only M a t) (m : 0x1100100000000204 &&& M = 0x1100100000000204) :
    Only M a (State.allCoast t) := by
  unfold State.allCoast
  exact (Only.loopCoast (Only.loopCoast (Only.loopCoast h _ (sb rfl m)) _ (sb rfl m)) _ (sb rfl m))

theorem Only.newDividers {M : Nat} {a t : State} (h : Only M a t) (m : 0x40000000000 &&& M = 0x40000000000) :
    Only M a (State.newDividers t) := by
  unfold State.newDividers
  extract_lets l1 l2 l3
  exact (Only.set_clk h _ (sb rfl m))

theorem Only.execRefVoteUpdate {M : Nat} {a t : State} (h : Only M a t) (x0_ x1_ x2_ x3_) (m : 0x1100160000000204 &&& M = 0x1100160000000204) :
    OnlyO M a (Sys2Proof.Machine.execRefVoteUpdate x0_ x1_ x2_ x3_ t) := by
  unfold Sys2Proof.Machine.execRefVoteUpdate
  extract_lets l1
  refine OnlyO.next ?_
  exact (Only.live h (fun t2 h3 => (by
    extract_lets l4 l5 l6 l7 l8 l9 l10 l11 l12 l13 l14 l15 l16 l17 l18 l19 l20 l21 l22 l23 l24 l25 l26 l27
    have k28 : Only M a l4 := (Only.moveTo h3 _ (sb rfl m))
    try clear_value l4
    have k29 : Only M a l17 := (Only.set_clk k28 _ (sb rfl m))
    try clear_value l17
    have k33 : Only M a l18 := (Only.foldl k29 fun t30 x31 h32 => (Only.clockEvent (Only.wr h32 _ _ (sb rfl m) (fm rfl m)) _ _ _ (sb rfl m)))
    try clear_value l18
    have k37 : Only M a l19 := (Only.foldl k33 fun t34 x35 h36 => (Only.wri h36 _ _ _ (fm rfl m)))
    try clear_value l19
    have k38 : Only M a l20 := (Only.wr (Only.wr k37 _ _ (sb rfl m) (fm rfl m)) _ _ (sb rfl m) (fm rfl m))
    try clear_value l20
    have k39 : Only M a l21 := (Only.ite (Only.clockEvent k38 _ _ _ (sb rfl m)) k38)
    try clear_value l21
    have k40 : Only M a l23 := (Only.set_clk k39 _ (sb rfl m))
    try clear_value l23
    have k41 : Only M a l24 := (Only.ite (Only.wr k40 _ _ (sb rfl m) (fm rfl m)) k40)
    try clear_value l24
    have k42 : Only M a l25 := (Only.ite (Only.clockEvent (Only.allCoast (Only.wr k41 _ _ (sb rfl m) (fm rfl m)) (sb rfl m)) _ _ _ (sb rfl m)) k41)
    try clear_value l25
    exact (Only.reselect (Only.qualTrack (Only.set_clk k42 _ (sb rfl m)) (sb rfl m)) (sb rfl m)))))

theorem Only.execRefLost {M : Nat} {a t : State} (h : Only M a t) (x0_ x1_) (m : 0x1100160000000204 &&& M = 0x1100160000000204) :
    OnlyO M a (Sys2Proof.Machine.execRefLost x0_ x1_ t) := by
  unfold Sys2Proof.Machine.execRefLost
  extract_lets l1
  refine OnlyO.next ?_
  exact (Only.live h (fun t2 h3 => (by
    extract_lets l4 l5 l6 l7 l8 l9 l10
    have k11 : Only M a l4 := (Only.moveTo h3 _ (sb rfl m))
    try clear_value l4
    have k12 : Only M a l7 := (Only.set_clk k11 _ (sb rfl m))
    try clear_value l7
    have k13 : Only M a l8 := (Only.wr k12 _ _ (sb rfl m) (fm rfl m))
    try clear_value l8
    have k14 : Only M a l9 := (Only.ite k13 (Only.clockEvent k13 _ _ _ (sb rfl m)))
    try clear_value l9
    have k15 : Only M a l10 := (Only.ite (Only.allCoast k14 (sb rfl m)) k14)
    try clear_value l10
    exact (Only.ite k11 (Only.reselect (Only.qualTrack k15 (sb rfl m)) (sb rfl m))))))

theorem Only.execRefValid {M : Nat} {a t : State} (h : Only M a t) (x0_ x1_) (m : 0x1100160000000204 &&& M = 0x1100160000000204) :
    OnlyO M a (Sys2Proof.Machine.execRefValid x0_ x1_ t) := by
  unfold Sys2Proof.Machine.execRefValid
  extract_lets l1
  refine OnlyO.next ?_
  exact (Only.live h (fun t2 h3 => (by
    extract_lets l4
    have k5 : Only M a l4 := (Only.moveTo h3 _ (sb rfl m))
    try clear_value l4
    exact (Only.ite (Only.reselect (Only.qualTrack (Only.clockEvent (Only.wr k5 _ _ (sb rfl m) (fm rfl m)) _ _ _ (sb rfl m)) (sb rfl m)) (sb rfl m)) k5))))

theorem Only.execRefReadmit {M : Nat} {a t : State} (h : Only M a t) (x0_ x1_) (m : 0x1100160000000204 &&& M = 0x1100160000000204) :
    OnlyO M a (Sys2Proof.Machine.execRefReadmit x0_ x1_ t) := by
  unfold Sys2Proof.Machine.execRefReadmit
  extract_lets l1
  refine OnlyO.next ?_
  exact (Only.live h (fun t2 h3 => (by
    extract_lets l4
    have k5 : Only M a l4 := (Only.moveTo h3 _ (sb rfl m))
    try clear_value l4
    split
    · exact (Only.ite (Only.reselect (Only.qualTrack (Only.clockEvent (Only.wr k5 _ _ (sb rfl m) (fm rfl m)) _ _ _ (sb rfl m)) (sb rfl m)) (sb rfl m)) k5)
    · exact k5)))

theorem Only.execRefSelectMove {M : Nat} {a t : State} (h : Only M a t) (x0_) (m : 0x1100160000000204 &&& M = 0x1100160000000204) :
    OnlyO M a (Sys2Proof.Machine.execRefSelectMove x0_ t) := by
  unfold Sys2Proof.Machine.execRefSelectMove
  refine OnlyO.next ?_
  exact (Only.live h fun t1 h2 => (by
    extract_lets l3 l4
    have k5 : Only M a l3 := (Only.moveTo h2 _ (sb rfl m))
    try clear_value l3
    split
    · exact k5
    · extract_lets l6 l7 l8 l9
      have k10 : Only M a l6 := (Only.inc (Only.wr k5 _ _ (sb rfl m) (fm rfl m)) _ _ (sb rfl m) (fm rfl m))
      try clear_value l6
      have k11 : Only M a l8 := (Only.set_clk k10 _ (sb rfl m))
      try clear_value l8
      have k12 : Only M a l9 := (Only.ite (Only.wr k11 _ _ (sb rfl m) (fm rfl m)) k11)
      try clear_value l9
      exact (Only.clockEvent (Only.newDividers k12 (sb rfl m)) _ _ _ (sb rfl m))))

theorem Only.execRefCoastEnd {M : Nat} {a t : State} (h : Only M a t) (x0_) (m : 0x1100160000000204 &&& M = 0x1100160000000204) :
    OnlyO M a (Sys2Proof.Machine.execRefCoastEnd x0_ t) := by
  unfold Sys2Proof.Machine.execRefCoastEnd
  refine OnlyO.next ?_
  exact (Only.live h (fun t1 h2 => (by
    extract_lets l3
    have k4 : Only M a l3 := (Only.moveTo h2 _ (sb rfl m))
    try clear_value l3
    split
    · exact (Only.ite (Only.clockEvent (Only.wr (Only.wr k4 _ _ (sb rfl m) (fm rfl m)) _ _ (sb rfl m) (fm rfl m)) _ _ _ (sb rfl m)) k4)
    · exact k4)))

theorem Only.execPllDividerUpdate {M : Nat} {a t : State} (h : Only M a t) (m : 0x40000000004 &&& M = 0x40000000004) :
    OnlyO M a (Sys2Proof.Machine.execPllDividerUpdate t) := by
  unfold Sys2Proof.Machine.execPllDividerUpdate
  refine OnlyO.next ?_
  exact (Only.live h (fun t1 h2 => (by
    split
    · exact h2
    · extract_lets l8 l9 l10
      have k15 : Only M a l8 := (Only.foldl h2 fun t11 x12 h13 => (by
        extract_lets l14
        exact (Only.wri (Only.wri h13 _ _ _ (fm rfl m)) _ _ _ (fm rfl m))))
      try clear_value l8
      exact (Only.set_clk k15 _ (sb rfl m)))))

theorem Only.execPllLockLost {M : Nat} {a t : State} (h : Only M a t) (x0_ x1_) (m : 0x1100160000000204 &&& M = 0x1100160000000204) :
    OnlyO M a (Sys2Proof.Machine.execPllLockLost x0_ x1_ t) := by
  unfold Sys2Proof.Machine.execPllLockLost
  refine OnlyO.next ?_
  exact (Only.live h (fun t1 h2 => (Only.loopCoast (Only.moveTo h2 _ (sb rfl m)) _ (sb rfl m))))

theorem Only.execPllLocked {M : Nat} {a t : State} (h : Only M a t) (x0_ x1_) (m : 0x1100160000000204 &&& M = 0x1100160000000204) :
    OnlyO M a (Sys2Proof.Machine.execPllLocked x0_ x1_ t) := by
  unfold Sys2Proof.Machine.execPllLocked
  refine OnlyO.next ?_
  exact (Only.live h (fun t1 h2 => (by
    extract_lets l3
    have k4 : Only M a l3 := (Only.moveTo h2 _ (sb rfl m))
    try clear_value l3
    exact (Only.ite k4 (Only.clockEvent (Only.wr (Only.wr k4 _ _ (sb rfl m) (fm rfl m)) _ _ (sb rfl m) (fm rfl m)) _ _ _ (sb rfl m))))))

theorem Only.writeSeed {M : Nat} {a t : State} (h : Only M a t) (x1_ x2_) (m : 0x40000000004 &&& M = 0x40000000004) :
    Only M a (State.writeSeed t x1_ x2_) := by
  unfold State.writeSeed
  extract_lets l1 l2
  have k3 : Only M a l1 := (Only.wri (Only.wri h _ _ _ (fm rfl m)) _ _ _ (fm rfl m))
  try clear_value l1
  exact (Only.ite (Only.refuse h _ (sb rfl m) (fm rfl m)) (Only.set_clk k3 _ (sb rfl m)))

theorem Only.execClkPllSeedWrite {M : Nat} {a t : State} (h : Only M a t) (x0_ x1_) (m : 0x40000000004 &&& M = 0x40000000004) :
    OnlyO M a (Sys2Proof.Machine.execClkPllSeedWrite x0_ x1_ t) := by
  unfold Sys2Proof.Machine.execClkPllSeedWrite
  refine OnlyO.next ?_
  exact (Only.live h (fun t1 h2 => (Only.writeSeed h2 _ _ (sb rfl m))))

theorem Only.elapsedRead {M : Nat} {a t : State} (h : Only M a t) (x1_) (m : 0x1000020000000000 &&& M = 0x1000020000000000) :
    Only M a (State.elapsedRead t x1_) := by
  unfold State.elapsedRead
  extract_lets l1
  exact (Only.emit (Only.set_tm h _ (sb rfl m)) _ (sb rfl m))

theorem Only.execElapsedRead {M : Nat} {a t : State} (h : Only M a t) (x0_) (m : 0x1000020000000000 &&& M = 0x1000020000000000) :
    OnlyO M a (Sys2Proof.Machine.execElapsedRead x0_ t) := by
  unfold Sys2Proof.Machine.execElapsedRead
  refine OnlyO.next ?_
  exact (Only.live h (fun t1 h2 => (Only.elapsedRead h2 _ (sb rfl m))))

theorem Only.alignRead {M : Nat} {a t : State} (h : Only M a t) (x1_) (m : 0x1000020000000000 &&& M = 0x1000020000000000) :
    Only M a (State.alignRead t x1_) := by
  unfold State.alignRead
  extract_lets l1 l2
  exact (Only.emit (Only.set_tm h _ (sb rfl m)) _ (sb rfl m))

theorem Only.execAlignOfsRead {M : Nat} {a t : State} (h : Only M a t) (x0_) (m : 0x1000020000000000 &&& M = 0x1000020000000000) :
    OnlyO M a (Sys2Proof.Machine.execAlignOfsRead x0_ t) := by
  unfold Sys2Proof.Machine.execAlignOfsRead
  refine OnlyO.next ?_
  exact (Only.live h (fun t1 h2 => (Only.alignRead h2 _ (sb rfl m))))

theorem Only.execAlarm {M : Nat} {a t : State} (h : Only M a t) (x0_) (m : 0x19001e0000000320 &&& M = 0x19001e0000000320) :
    OnlyO M a (Sys2Proof.Machine.execAlarm x0_ t) := by
  unfold Sys2Proof.Machine.execAlarm
  refine OnlyO.next ?_
  exact (Only.live h (fun t1 h2 => (by
    extract_lets l3 l4 l5
    have k6 : Only M a l3 := (Only.moveTo h2 _ (sb rfl m))
    try clear_value l3
    have k7 : Only M a l4 := (Only.used (Only.clockEvent k6 _ _ _ (sb rfl m)) (sb rfl m))
    try clear_value l4
    have k8 : Only M a l5 := (Only.ite (Only.wake k7 _ (sb rfl m)) k7)
    try clear_value l5
    exact (Only.ite (Only.wr k8 _ _ (sb rfl m) (fm rfl m)) k6))))

theorem Only.writeSec {M : Nat} {a t : State} (h : Only M a t) (x1_) (m : 0x10 &&& M = 0x10) :
    Only M a (State.writeSec t x1_) := by
  unfold State.writeSec
  exact (Only.wr (Only.wr h _ _ (sb rfl m) (fm rfl m)) _ _ (sb rfl m) (fm rfl m))

theorem Only.execSyncSecWrite {M : Nat} {a t : State} (h : Only M a t) (x0_) (m : 0x10 &&& M = 0x10) :
    OnlyO M a (Sys2Proof.Machine.execSyncSecWrite x0_ t) := by
  unfold Sys2Proof.Machine.execSyncSecWrite
  refine OnlyO.next ?_
  exact (Only.live h (fun t1 h2 => (Only.writeSec h2 _ (sb rfl m))))

theorem Only.ppsMiss {M : Nat} {a t : State} (h : Only M a t) (m : 0x1100140000000210 &&& M = 0x1100140000000210) :
    Only M a (State.ppsMiss t) := by
  unfold State.ppsMiss
  extract_lets l1 l2 l3 l4 l5
  have k6 : Only M a l3 := (Only.set_clk h _ (sb rfl m))
  try clear_value l3
  have k7 : Only M a l4 := (Only.clockEvent (Only.inc k6 _ _ (sb rfl m) (fm rfl m)) _ _ _ (sb rfl m))
  try clear_value l4
  have k8 : Only M a l5 := (Only.ite (Only.wr k7 _ _ (sb rfl m) (fm rfl m)) k7)
  try clear_value l5
  exact (Only.wr k8 _ _ (sb rfl m) (fm rfl m))

theorem Only.execPpsMissing {M : Nat} {a t : State} (h : Only M a t) (x0_) (m : 0x1100160000000210 &&& M = 0x1100160000000210) :
    OnlyO M a (Sys2Proof.Machine.execPpsMissing x0_ t) := by
  unfold Sys2Proof.Machine.execPpsMissing
  refine OnlyO.next ?_
  exact (Only.live h (fun t1 h2 => (by
    extract_lets l3
    have k4 : Only M a l3 := (Only.moveTo h2 _ (sb rfl m))
    try clear_value l3
    exact (Only.ite (Only.ppsMiss k4 (sb rfl m)) k4))))

theorem Only.ppsMisses {M : Nat} {a t : State} (h : Only M a t) (n : Nat) (m : 0x1100140000000210 &&& M = 0x1100140000000210) :
    Only M a (State.ppsMisses n t) := by
  induction n generalizing t with
  | zero => exact h
  | succ n ih => exact ih (Only.ppsMiss h (sb rfl m))

theorem Only.execPpsEdge {M : Nat} {a t : State} (h : Only M a t) (x0_ x1_) (m : 0x1100160000000210 &&& M = 0x1100160000000210) :
    OnlyO M a (Sys2Proof.Machine.execPpsEdge x0_ x1_ t) := by
  unfold Sys2Proof.Machine.execPpsEdge
  refine OnlyO.next ?_
  exact (Only.live h (fun t1 h2 => (by
    extract_lets l3 l4 l5 l6 l7 l8 l9 l10 l11 l12 l13 l14 l15 l16 l17 l18 l19 l20
    have k21 : Only M a l3 := (Only.moveTo h2 _ (sb rfl m))
    try clear_value l3
    have k22 : Only M a l5 := (Only.ite k21 (Only.writeSec k21 _ (sb rfl m)))
    try clear_value l5
    have k23 : Only M a l6 := (Only.ppsMisses k22 _ (sb rfl m))
    try clear_value l6
    have k24 : Only M a l11 := (Only.set_clk k23 _ (sb rfl m))
    try clear_value l11
    have k25 : Only M a l12 := (Only.wr k24 _ _ (sb rfl m) (fm rfl m))
    try clear_value l12
    have k26 : Only M a l14 := (Only.set_clk k25 _ (sb rfl m))
    try clear_value l14
    have k27 : Only M a l15 := (Only.wr (Only.wr k26 _ _ (sb rfl m) (fm rfl m)) _ _ (sb rfl m) (fm rfl m))
    try clear_value l15
    have k28 : Only M a l18 := (Only.set_clk k25 _ (sb rfl m))
    try clear_value l18
    have k29 : Only M a l19 := (Only.wr (Only.wr k28 _ _ (sb rfl m) (fm rfl m)) _ _ (sb rfl m) (fm rfl m))
    try clear_value l19
    have k30 : Only M a l20 := (Only.ite (Only.ite (Only.wr k27 _ _ (sb rfl m) (fm rfl m)) k27) (Only.clockEvent (Only.wr k29 _ _ (sb rfl m) (fm rfl m)) _ _ _ (sb rfl m)))
    try clear_value l20
    exact (Only.ite k21 (Only.wr k30 _ _ (sb rfl m) (fm rfl m))))))

end Sys2Proof.Machine
end

