-- ==== Sys2Proof/Laws/OnlyMtrOps.lean ====
section
/-! SUPPORT. `Only` of each function of Machine/MtrOps.lean. -/
set_option Elab.async false
namespace Sys2Proof.Machine

theorem Only.showCis {M : Nat} {a t : State} (h : Only M a t) (m : 0x2000000000 &&& M = 0x2000000000) :
    Only M a (State.showCis t) := by
  unfold State.showCis
  extract_lets l1 l2
  have k3 : Only M a l2 := (Only.wr (Only.wr h _ _ (sb rfl m) (fm rfl m)) _ _ (sb rfl m) (fm rfl m))
  try clear_value l2
  exact (Only.ite (Only.wr k3 _ _ (sb rfl m) (fm rfl m)) k3)

theorem Only.consumeRecords {M : Nat} {a t : State} (h : Only M a t) (x1_) (m : 0x100002000000000 &&& M = 0x100002000000000) :
    Only M a (State.consumeRecords t x1_) := by
  unfold State.consumeRecords
  extract_lets l1 l2 l3 l4
  exact (Only.ite h (Only.showCis (Only.set_jr h _ (sb rfl m)) (sb rfl m)))

theorem Only.postRecord {M : Nat} {a t : State} (h : Only M a t) (x1_) (m : 0x1100100000000200 &&& M = 0x1100100000000200) :
    Only M a (State.postRecord t x1_) := by
  unfold State.postRecord
  exact (Only.postLong h _ _ _ (sb rfl m))

theorem Only.requeue {M : Nat} {a t : State} (h : Only M a t) (x1_) (m : 0x100000000000 &&& M = 0x100000000000) :
    Only M a (State.requeue t x1_) := by
  unfold State.requeue
  extract_lets l1 l2
  exact (Only.set_hst h _ (sb rfl m))

theorem Only.repostFlags {M : Nat} {a t : State} (h : Only M a t) (m : 0x100100000000000 &&& M = 0x100100000000000) :
    Only M a (State.repostFlags t) := by
  unfold State.repostFlags
  extract_lets l1 l2
  exact (Only.foldl (Only.set_jr h _ (sb rfl m)) fun t3 x4 h5 => (Only.requeue h5 _ (sb rfl m)))

theorem Only.repostRecords {M : Nat} {a t : State} (h : Only M a t) (x1_) (m : 0x1100100000000200 &&& M = 0x1100100000000200) :
    Only M a (State.repostRecords t x1_) := by
  unfold State.repostRecords
  extract_lets l1 l2
  exact (Only.ite h (Only.foldl h fun t3 x4 h5 => (Only.postRecord h5 _ (sb rfl m))))

theorem Only.moveMeterRing {M : Nat} {a t : State} (h : Only M a t) (x1_) (m : 0x1100100000000200 &&& M = 0x1100100000000200) :
    Only M a (State.moveMeterRing t x1_) := by
  unfold State.moveMeterRing
  extract_lets l1 l2 l3 l4 l5 l6
  exact (Only.ite h (Only.drain (Only.repostRecords (Only.set_hst h _ (sb rfl m)) _ (sb rfl m)) _ (sb rfl m)))

theorem Only.meterFlagAt {M : Nat} {a t : State} (h : Only M a t) (x1_ x2_ x3_ x4_ x5_ x6_) (m : 0x1100100000000200 &&& M = 0x1100100000000200) :
    Only M a (State.meterFlagAt t x1_ x2_ x3_ x4_ x5_ x6_) := by
  unfold State.meterFlagAt
  extract_lets l1
  exact (Only.drain (Only.queueAt h _ _ _ _ _ _ (sb rfl m)) _ (sb rfl m))

theorem Only.meterFlag {M : Nat} {a t : State} (h : Only M a t) (x1_ x2_ x3_) (m : 0x1100100000000200 &&& M = 0x1100100000000200) :
    Only M a (State.meterFlag t x1_ x2_ x3_) := by
  unfold State.meterFlag
  exact (Only.meterFlagAt h _ _ _ _ _ _ (sb rfl m))

theorem Only.meterFlagLater {M : Nat} {a t : State} (h : Only M a t) (x1_ x2_ x3_) (m : 0x80000000000000 &&& M = 0x80000000000000) :
    Only M a (State.meterFlagLater t x1_ x2_ x3_) := by
  unfold State.meterFlagLater
  extract_lets l1
  exact (Only.set_mtr h _ (sb rfl m))

theorem Only.updMtr {M : Nat} {a t : State} (h : Only M a t) (x1_ x2_) (m : 0x2000000000000 &&& M = 0x2000000000000) :
    Only M a (State.updMtr t x1_ x2_) := by
  unfold State.updMtr
  exact (Only.updCell h _ _ (sb rfl m))

theorem Only.portFlag {M : Nat} {a t : State} (h : Only M a t) (x1_ x2_) (m : 0x2000000000000 &&& M = 0x2000000000000) :
    Only M a (State.portFlag t x1_ x2_) := by
  unfold State.portFlag
  exact (Only.updMtr h _ _ (sb rfl m))

theorem Only.showGap {M : Nat} {a t : State} (h : Only M a t) (m : 0x800000000 &&& M = 0x800000000) :
    Only M a (State.showGap t) := by
  unfold State.showGap
  exact (Only.wr h _ _ (sb rfl m) (fm rfl m))

theorem Only.openGap {M : Nat} {a t : State} (h : Only M a t) (x1_) (m : 0x2000800000000 &&& M = 0x2000800000000) :
    Only M a (State.openGap t x1_) := by
  unfold State.openGap
  exact (Only.ite (Only.showGap (Only.updMtr h _ _ (sb rfl m)) (sb rfl m)) h)

theorem Only.bookAcGap {M : Nat} {a t : State} (h : Only M a t) (m : 0x80000000000000 &&& M = 0x80000000000000) :
    Only M a (State.bookAcGap t) := by
  unfold State.bookAcGap
  extract_lets l1 l2 l3
  split
  · exact h
  · extract_lets l9
    exact (Only.ite h (Only.set_mtr h _ (sb rfl m)))

theorem Only.bookGap {M : Nat} {a t : State} (h : Only M a t) (x1_) (m : 0x82000800000000 &&& M = 0x82000800000000) :
    Only M a (State.bookGap t x1_) := by
  unfold State.bookGap
  extract_lets l1
  split
  · extract_lets l8 l9 l10 l11 l12
    have k13 : Only M a l9 := (Only.portFlag (Only.updMtr h _ _ (sb rfl m)) _ _ (sb rfl m))
    try clear_value l9
    have k14 : Only M a l10 := (Only.meterFlagLater (Only.portFlag k13 _ _ (sb rfl m)) _ _ _ (sb rfl m))
    try clear_value l10
    have k15 : Only M a l12 := (Only.ite (Only.meterFlagLater (Only.portFlag k13 _ _ (sb rfl m)) _ _ _ (sb rfl m)) (Only.ite (Only.set_mtr k14 _ (sb rfl m)) k13))
    try clear_value l12
    exact (Only.showGap (Only.bookAcGap k15 (sb rfl m)) (sb rfl m))
  · exact h

theorem Only.dropGap {M : Nat} {a t : State} (h : Only M a t) (x1_) (m : 0x882000800000000 &&& M = 0x882000800000000) :
    Only M a (State.dropGap t x1_) := by
  unfold State.dropGap
  extract_lets l1 l2 l3 l4 l5 l6 l7 l8 l9
  have k10 : Only M a l4 := (Only.ite h (Only.used h (sb rfl m)))
  try clear_value l4
  have k11 : Only M a l7 := (Only.updMtr k10 _ _ (sb rfl m))
  try clear_value l7
  have k12 : Only M a l9 := (Only.ite (Only.set_mtr k11 _ (sb rfl m)) k11)
  try clear_value l9
  exact (Only.ite h (Only.showGap (Only.bookAcGap (Only.portFlag (Only.portFlag k12 _ _ (sb rfl m)) _ _ (sb rfl m)) (sb rfl m)) (sb rfl m)))

theorem Only.endBase {M : Nat} {a t : State} (h : Only M a t) (x1_) (m : 0x882000800000000 &&& M = 0x882000800000000) :
    Only M a (State.endBase t x1_) := by
  unfold State.endBase
  extract_lets l1
  have k2 : Only M a l1 := (Only.dropGap h _ (sb rfl m))
  try clear_value l1
  exact (Only.ite k2 (Only.portFlag (Only.updMtr k2 _ _ (sb rfl m)) _ _ (sb rfl m)))

theorem Only.setNode {M : Nat} {a t : State} (h : Only M a t) (x1_ x2_ x3_) (m : 0x100000000000000 &&& M = 0x100000000000000) :
    Only M a (State.setNode t x1_ x2_ x3_) := by
  unfold State.setNode
  extract_lets l1
  exact (Only.set_jr h _ (sb rfl m))

theorem Only.meterNewNode {M : Nat} {a t : State} (h : Only M a t) (x1_ x2_) (m : 0x982000800000000 &&& M = 0x982000800000000) :
    Only M a (State.meterNewNode t x1_ x2_) := by
  unfold State.meterNewNode
  extract_lets l1
  have k2 : Only M a l1 := (Only.setNode h _ _ _ (sb rfl m))
  try clear_value l1
  exact (Only.ite (Only.portFlag (Only.dropGap k2 _ (sb rfl m)) _ _ (sb rfl m)) k2)

theorem Only.meterCharge {M : Nat} {a t : State} (h : Only M a t) (x1_) (m : 0x182000800000000 &&& M = 0x182000800000000) :
    Only M a (State.meterCharge t x1_) := by
  unfold State.meterCharge
  extract_lets l1 l2 l3 l4
  have k5 : Only M a l4 := (Only.updMtr h _ _ (sb rfl m))
  try clear_value l4
  split
  · exact (Only.setNode k5 _ _ _ (sb rfl m))
  · extract_lets l11 l12
    have k13 : Only M a l12 := (Only.updMtr k5 _ _ (sb rfl m))
    try clear_value l12
    exact (Only.ite (Only.ite (Only.bookGap k13 _ (sb rfl m)) k13) (Only.updMtr k5 _ _ (sb rfl m)))

theorem Only.flushExhausted {M : Nat} {a t : State} (h : Only M a t) (x1_) (m : 0x1980100000000200 &&& M = 0x1980100000000200) :
    Only M a (State.flushExhausted t x1_) := by
  unfold State.flushExhausted
  extract_lets l1 l2 l3 l4
  have k5 : Only M a l4 := (Only.set_mtr h _ (sb rfl m))
  try clear_value l4
  exact (Only.foldl k5 fun t6 x7 h8 => (Only.used (Only.meterFlagAt h8 _ _ _ _ _ _ (sb rfl m)) (sb rfl m)))

theorem Only.leaseTest {M : Nat} {a t : State} (h : Only M a t) (x1_) (m : 0x1982100000000200 &&& M = 0x1982100000000200) :
    Only M a (State.leaseTest t x1_) := by
  unfold State.leaseTest
  extract_lets l1 l2 l3
  exact (Only.ite h (Only.ite (Only.meterFlagLater (Only.updMtr h _ _ (sb rfl m)) _ _ _ (sb rfl m)) (Only.ite (Only.meterFlag (Only.flushExhausted (Only.updMtr h _ _ (sb rfl m)) _ (sb rfl m)) _ _ _ (sb rfl m)) h)))

theorem Only.meterPort {M : Nat} {a t : State} (h : Only M a t) (x1_ x2_ x3_) (m : 0x1982100800000200 &&& M = 0x1982100800000200) :
    Only M a (State.meterPort t x1_ x2_ x3_) := by
  unfold State.meterPort
  extract_lets l1 l2 l3 l4 l5
  have k6 : Only M a l4 := (Only.updMtr h _ _ (sb rfl m))
  try clear_value l4
  have k7 : Only M a l5 := (Only.ite (Only.ite (Only.meterCharge k6 _ (sb rfl m)) k6) (Only.ite (Only.portFlag (Only.updMtr h _ _ (sb rfl m)) _ _ (sb rfl m)) h))
  try clear_value l5
  exact (Only.ite h (Only.leaseTest k7 _ (sb rfl m)))

end Sys2Proof.Machine
end

