-- ==== Sys2Proof/Laws/OnlyWalker.lean ====
section
/-! SUPPORT. `Only` of each function of Machine/Walker.lean. -/
set_option Elab.async false
namespace Sys2Proof.Machine

theorem Only.haltFault {M : Nat} {a t : State} (h : Only M a t) (x1_ x2_ x3_ x4_) (m : 0x1100100000000200 &&& M = 0x1100100000000200) :
    Only M a (State.haltFault t x1_ x2_ x3_ x4_) := by
  unfold State.haltFault
  extract_lets l1
  exact (Only.ite (Only.drain (Only.queueRingState (Only.haltRing h _ _ _ _ _ (sb rfl m)) _ _ _ (sb rfl m)) _ (sb rfl m)) h)

theorem Only.flight {M : Nat} {a t : State} (h : Only M a t) (x1_ x2_) (m : 0x300 &&& M = 0x300) :
    Only M a (State.flight t x1_ x2_) := by
  unfold State.flight
  exact (Only.ite (Only.wr (Only.wri h _ _ _ (fm rfl m)) _ _ (sb rfl m) (fm rfl m)) (Only.wr (Only.wri h _ _ _ (fm rfl m)) _ _ (sb rfl m) (fm rfl m)))

theorem Only.failAccess {M : Nat} {a t : State} (h : Only M a t) (x1_ x2_ x3_ x4_) (m : 0x1102100000000700 &&& M = 0x1102100000000700) :
    Only M a (State.failAccess t x1_ x2_ x3_ x4_) := by
  unfold State.failAccess
  split
  · exact (Only.haltFault h _ _ _ _ (sb rfl m))
  · extract_lets l5 l6 l7
    have k8 : Only M a l7 := (Only.flight (Only.wri h _ _ _ (fm rfl m)) _ _ (sb rfl m))
    try clear_value l7
    exact (Only.haltFault (Only.complete k8 _ _ _ _ (sb rfl m)) _ _ _ _ (sb rfl m))
  · extract_lets l12
    have k34 : Only M a l12 := (by
      unfold l12
      split
      · exact (Only.wr h _ _ (sb rfl m) (fm rfl m))
      · exact (Only.updCell h _ _ (sb rfl m))
      · exact h)
    try clear_value l12
    split
    · exact h
    · exact (Only.haltFault (Only.complete k34 _ _ _ _ (sb rfl m)) _ _ _ _ (sb rfl m))

theorem Only.cacheAll {M : Nat} {a t : State} (h : Only M a t) (x1_) (m : 0x100000000000 &&& M = 0x100000000000) :
    Only M a (State.cacheAll t x1_) := by
  unfold State.cacheAll
  extract_lets l1 l2 l3
  exact (Only.set_hst h _ (sb rfl m))

theorem Only.askData {M : Nat} {a t : State} (h : Only M a t) (x1_) (m : 0x1000000000000000 &&& M = 0x1000000000000000) :
    Only M a (State.askData t x1_) := by
  unfold State.askData
  split
  · extract_lets l4
    exact (Only.emit h _ (sb rfl m))
  · exact h

theorem Only.unstage {M : Nat} {a t : State} (h : Only M a t) (m : 0x400 &&& M = 0x400) :
    Only M a (State.unstage t) := by
  unfold State.unstage
  exact (Only.wr (Only.wr h _ _ (sb rfl m) (fm rfl m)) _ _ (sb rfl m) (fm rfl m))

theorem Only.walked {M : Nat} {a t : State} (h : Only M a t) (x1_ x2_) (m : 0x1102100000000700 &&& M = 0x1102100000000700) :
    Only M a (State.walked t x1_ x2_) := by
  unfold State.walked
  extract_lets l1 l2 l3 l4
  have k5 : Only M a l2 := (Only.set_hst h _ (sb rfl m))
  try clear_value l2
  have k6 : Only M a l3 := (Only.cacheAll k5 _ (sb rfl m))
  try clear_value l3
  exact (by
    split
    · exact (Only.failAccess k5 _ _ _ _ (sb rfl m))
    · split
      · exact k6
      · exact k6
      · extract_lets l23 l24 l25 l26
        have k27 : Only M a l25 := (Only.set_hst k6 _ (sb rfl m))
        try clear_value l25
        have k37 : Only M a l26 := (by
          unfold l26
          split
          · exact (Only.unstage k27 (sb rfl m))
          · exact k27)
        try clear_value l26
        exact (Only.ite k27 (Only.askData k37 _ (sb rfl m))))

theorem Only.access {M : Nat} {a t : State} (h : Only M a t) (x1_) (m : 0x1102100000000700 &&& M = 0x1102100000000700) :
    Only M a (State.access t x1_) := by
  unfold State.access
  extract_lets l1
  split
  · extract_lets l6 l7 l8 l9
    exact (Only.ite (Only.failAccess h _ _ _ _ (sb rfl m)) (Only.ite (Only.failAccess h _ _ _ _ (sb rfl m)) (Only.ite (Only.walked (Only.set_hst h _ (sb rfl m)) _ _ (sb rfl m)) (Only.startJob h _ _ _ (sb rfl m)))))

theorem Only.putJob {M : Nat} {a t : State} (h : Only M a t) (x1_) (m : 0x100000000000 &&& M = 0x100000000000) :
    Only M a (State.putJob t x1_) := by
  unfold State.putJob
  extract_lets l1
  exact (Only.set_hst h _ (sb rfl m))

theorem Only.walkNext {M : Nat} {a t : State} (h : Only M a t) (x1_ x2_) (m : 0x1102100000000700 &&& M = 0x1102100000000700) :
    Only M a (State.walkNext t x1_ x2_) := by
  unfold State.walkNext
  extract_lets l1
  split
  · exact (Only.walked h _ _ (sb rfl m))
  · exact (Only.emit (Only.putJob h _ (sb rfl m)) _ (sb rfl m))

theorem Only.walkEntry {M : Nat} {a t : State} (h : Only M a t) (x1_ x2_) (m : 0x1102100000000700 &&& M = 0x1102100000000700) :
    Only M a (State.walkEntry t x1_ x2_) := by
  unfold State.walkEntry
  extract_lets l1 l2 l3
  have k4 : Only M a l3 := (Only.set_hst h _ (sb rfl m))
  try clear_value l3
  split
  · exact (Only.ite (Only.failAccess k4 _ _ _ _ (sb rfl m)) (Only.ite (Only.walkNext h _ _ (sb rfl m)) (Only.emit (Only.putJob h _ (sb rfl m)) _ (sb rfl m))))
  · exact (Only.ite (Only.failAccess k4 _ _ _ _ (sb rfl m)) (Only.walkNext h _ _ (sb rfl m)))
  · exact h

theorem Only.dmaWrite {M : Nat} {a t : State} (h : Only M a t) (x1_ x2_ x3_) (m : 0x1000000000000000 &&& M = 0x1000000000000000) :
    Only M a (State.dmaWrite t x1_ x2_ x3_) := by
  unfold State.dmaWrite
  exact (Only.foldl h fun t1 x2 h3 => (by
    extract_lets l4
    split
    · exact (Only.emit h3 _ (sb rfl m))
    · exact h3))

/-- `Only` of what the fetch of a descriptor answers. -/
def OnlyS (M : Nat) (a : State) : Start → Prop
  | .wait t => Only M a t
  | .go _ t => Only M a t

theorem Only.startDesc {M : Nat} {a t : State} (h : Only M a t) (x y) (m : 0x1102100000000700 &&& M = 0x1102100000000700) :
    OnlyS M a (State.startDesc t x y) := by
  unfold State.startDesc
  extract_lets r ctr l d
  split
  · exact h
  split
  · exact h
  split
  · exact Only.failAccess h _ _ _ _ (sb rfl m)
  split
  · exact Only.failAccess h _ _ _ _ (sb rfl m)
  split
  · split
    · exact h
    · exact Only.startJob h _ _ _ (sb rfl m)
  split
  · exact Only.failAccess h _ _ _ _ (sb rfl m)
  split
  · exact Only.failAccess h _ _ _ _ (sb rfl m)
  · exact Only.flight (Only.wri h _ _ _ (fm rfl m)) _ _ (sb rfl m)

theorem Only.startWait {M : Nat} {a t u : State} {h x} (k : Only M a t) (m : 0x1102100000000700 &&& M = 0x1102100000000700)
    (e : State.startDesc t h x = .wait u) : Only M a u := by
  have z := Only.startDesc k h x m
  rw [e] at z; exact z

theorem Only.startGo {M : Nat} {a t u : State} {h x d} (k : Only M a t) (m : 0x1102100000000700 &&& M = 0x1102100000000700)
    (e : State.startDesc t h x = .go d u) : Only M a u := by
  have z := Only.startDesc k h x m
  rw [e] at z; exact z

theorem Only.runDesc {M : Nat} {a t : State} (h : Only M a t) (x y) (g : Desc → State → State) (m : 0x1102100000000700 &&& M = 0x1102100000000700)
    (hg : ∀ d s, Only M a s → Only M a (g d s)) : Only M a (State.runDesc t x y g) := by
  unfold State.runDesc
  split
  · next e => exact Only.startWait h m e
  · next e =>
    have k := Only.startGo h m e
    exact Only.ite (hg _ _ k) (Only.complete k _ _ _ _ (sb rfl m))

theorem Only.putWait {M : Nat} {a t : State} (h : Only M a t) (x1_) (m : 0x100000000000 &&& M = 0x100000000000) :
    Only M a (State.putWait t x1_) := by
  unfold State.putWait
  extract_lets l1
  exact (Only.set_hst h _ (sb rfl m))

end Sys2Proof.Machine
end

