-- ==== Sys2Proof/Laws/OnlySluice.lean ====
section
/-! SUPPORT. `Only` of each function of Machine/Sluice.lean. -/
set_option Elab.async false
namespace Sys2Proof.Machine

theorem Only.openWindows {M : Nat} {a t : State} (h : Only M a t) (x1_) (m : 0x400000000000 &&& M = 0x400000000000) :
    Only M a (State.openWindows t x1_) := by
  unfold State.openWindows
  exact (Only.foldl h fun t1 x2 h3 => (Only.ite (by
    extract_lets l4 l5
    exact (Only.set_slc h3 _ (sb rfl m))) h3))

theorem Only.cmpAct {M : Nat} {a t : State} (h : Only M a t) (x1_) (m : 0x1d42510120000200 &&& M = 0x1d42510120000200) :
    Only M a (State.cmpAct t x1_) := by
  unfold State.cmpAct
  extract_lets l1 l2
  have k3 : Only M a l2 := (Only.ite (Only.cancelRelease (Only.latchOnly h _ _ (sb rfl m) (by decide)) (sb rfl m)) (Only.actScope h _ _ _ _ _ (sb rfl m) (by decide)))
  try clear_value l2
  exact (Only.ite h (Only.driveOff k3 _ _ (sb rfl m)))

theorem Only.clearLatch {M : Nat} {a t : State} (h : Only M a t) (x1_) (m : 0x400100000000 &&& M = 0x400100000000) :
    Only M a (State.clearLatch t x1_) := by
  unfold State.clearLatch
  refine Only.foldlMem h fun t f hf h => ?_
  have hw := latch_inM (sb rfl m) hf
  extract_lets l1 l2 l3 l4
  have k : Only M a l4 := Only.wr h _ _ (sb rfl m) hw
  try clear_value l4
  exact Only.ite k (Only.latchBits k _ _ (sb rfl m) hw)

theorem Only.execSlcLatchClear {M : Nat} {a t : State} (h : Only M a t) (x0_ x1_) (m : 0x460100000000 &&& M = 0x460100000000) :
    OnlyO M a (Sys2Proof.Machine.execSlcLatchClear x0_ x1_ t) := by
  unfold Sys2Proof.Machine.execSlcLatchClear
  refine OnlyO.next ?_
  exact (Only.live h (fun t1 h2 => (Only.clearLatch (Only.moveTo h2 _ (sb rfl m)) _ (sb rfl m))))

theorem Only.execTripIn {M : Nat} {a t : State} (h : Only M a t) (x0_ x1_) (m : 0x1d42570120000200 &&& M = 0x1d42570120000200) :
    OnlyO M a (Sys2Proof.Machine.execTripIn x0_ x1_ t) := by
  unfold Sys2Proof.Machine.execTripIn
  refine OnlyO.next ?_
  exact (Only.live h (fun t1 h2 => (by
    extract_lets l3 l4 l5 l6 l7 l8
    have k9 : Only M a l3 := (Only.moveTo h2 _ (sb rfl m))
    try clear_value l3
    have k10 : Only M a l5 := (Only.moveTo k9 _ (sb rfl m))
    try clear_value l5
    have k11 : Only M a l7 := (Only.set_slc k10 _ (sb rfl m))
    try clear_value l7
    have k12 : Only M a l8 := (Only.actScope k11 _ _ _ _ _ (sb rfl m) (by decide))
    try clear_value l8
    exact (Only.ite k9 (Only.driveOff k12 _ _ (sb rfl m))))))

theorem Only.execBlankWindowClose {M : Nat} {a t : State} (h : Only M a t) (x0_ x1_) (m : 0x1d42570120000200 &&& M = 0x1d42570120000200) :
    OnlyO M a (Sys2Proof.Machine.execBlankWindowClose x0_ x1_ t) := by
  unfold Sys2Proof.Machine.execBlankWindowClose
  refine OnlyO.next ?_
  exact (Only.live h (fun t1 h2 => (by
    extract_lets l3 l4 l5
    have k6 : Only M a l3 := (Only.moveTo h2 _ (sb rfl m))
    try clear_value l3
    have k7 : Only M a l5 := (Only.set_slc k6 _ (sb rfl m))
    try clear_value l5
    exact (Only.ite k6 (Only.ite (Only.cmpAct k7 _ (sb rfl m)) k7)))))

theorem Only.cellLoss {M : Nat} {a t : State} (h : Only M a t) (x1_) (m : 0x1942500120000200 &&& M = 0x1942500120000200) :
    Only M a (State.cellLoss t x1_) := by
  unfold State.cellLoss
  extract_lets l1 l2 l3 l4 l5
  have k6 : Only M a l2 := (Only.inc (Only.updCell h _ _ (sb rfl m)) _ _ (sb rfl m) (fm rfl m))
  try clear_value l2
  have k7 : Only M a l5 := (Only.set_slc k6 _ (sb rfl m))
  try clear_value l5
  exact (Only.ite h (Only.ite (Only.safeState k7 _ (sb rfl m) (by decide)) (Only.ite (Only.actScope k7 _ _ _ _ _ (sb rfl m) (by decide)) k7)))

theorem Only.plantTrip {M : Nat} {a t : State} (h : Only M a t) (x1_ x2_) (m : 0x1942500120000200 &&& M = 0x1942500120000200) :
    Only M a (State.plantTrip t x1_ x2_) := by
  unfold State.plantTrip
  extract_lets l1
  exact (Only.ite h (Only.actScope h _ _ _ _ _ (sb rfl m) (by decide)))

theorem Only.hostStop {M : Nat} {a t : State} (h : Only M a t) (m : 0x1942500120000200 &&& M = 0x1942500120000200) :
    Only M a (State.hostStop t) := by
  unfold State.hostStop
  exact (Only.actScope h _ _ _ _ _ (sb rfl m) (by decide))

theorem Only.hostStopBrk {M : Nat} {a t : State} (h : Only M a t) (m : 0x1942500120000200 &&& M = 0x1942500120000200) :
    Only M a (State.hostStopBrk t) := by
  unfold State.hostStopBrk
  exact (Only.safeState h _ (sb rfl m) (by decide))

theorem Only.brkReset {M : Nat} {a t : State} (h : Only M a t) (m : 0x1000000100000000 &&& M = 0x1000000100000000) :
    Only M a (State.brkReset t) := by
  unfold State.brkReset
  exact (Only.ite (Only.showBrk (Only.wr h _ _ (sb rfl m) (fm rfl m)) (sb rfl m)) (Only.refuse h _ (sb rfl m) (fm rfl m)))

theorem Only.hostCellBlk {M : Nat} {a t : State} (h : Only M a t) (x1_) (m : 0x1002000100000000 &&& M = 0x1002000100000000) :
    Only M a (State.hostCellBlk t x1_) := by
  unfold State.hostCellBlk
  exact (Only.ite (Only.blockCell h _ (sb rfl m)) (Only.refuse h _ (sb rfl m) (fm rfl m)))

theorem Only.writeSlcCtrl {M : Nat} {a t : State} (h : Only M a t) (x1_) (m : 0x1942500120000200 &&& M = 0x1942500120000200) :
    Only M a (State.writeSlcCtrl t x1_) := by
  unfold State.writeSlcCtrl
  extract_lets l1 l2 l3
  have k4 : Only M a l1 := (Only.ite (Only.hostStopBrk h (sb rfl m)) h)
  try clear_value l1
  have k5 : Only M a l2 := (Only.ite (Only.hostStop k4 (sb rfl m)) k4)
  try clear_value l2
  have k6 : Only M a l3 := (Only.ite (Only.brkReset k5 (sb rfl m)) k5)
  try clear_value l3
  exact (Only.ite (Only.refuse h _ (sb rfl m) (fm rfl m)) (Only.ite (Only.hostCellBlk k6 _ (sb rfl m)) k6))

theorem Only.execSlcStop {M : Nat} {a t : State} (h : Only M a t) (x0_) (m : 0x1942560120000200 &&& M = 0x1942560120000200) :
    OnlyO M a (Sys2Proof.Machine.execSlcStop x0_ t) := by
  unfold Sys2Proof.Machine.execSlcStop
  refine OnlyO.next ?_
  exact (Only.live h (fun t1 h2 => (Only.hostStop (Only.moveTo h2 _ (sb rfl m)) (sb rfl m))))

theorem Only.execSlcStopBrk {M : Nat} {a t : State} (h : Only M a t) (x0_) (m : 0x1942560120000200 &&& M = 0x1942560120000200) :
    OnlyO M a (Sys2Proof.Machine.execSlcStopBrk x0_ t) := by
  unfold Sys2Proof.Machine.execSlcStopBrk
  refine OnlyO.next ?_
  exact (Only.live h (fun t1 h2 => (Only.hostStopBrk (Only.moveTo h2 _ (sb rfl m)) (sb rfl m))))

theorem Only.execSlcBrkReset {M : Nat} {a t : State} (h : Only M a t) (x0_) (m : 0x1000060100000000 &&& M = 0x1000060100000000) :
    OnlyO M a (Sys2Proof.Machine.execSlcBrkReset x0_ t) := by
  unfold Sys2Proof.Machine.execSlcBrkReset
  refine OnlyO.next ?_
  exact (Only.live h (fun t1 h2 => (Only.brkReset (Only.moveTo h2 _ (sb rfl m)) (sb rfl m))))

theorem Only.execSlcCellBlk {M : Nat} {a t : State} (h : Only M a t) (x0_ x1_) (m : 0x1002060100000000 &&& M = 0x1002060100000000) :
    OnlyO M a (Sys2Proof.Machine.execSlcCellBlk x0_ x1_ t) := by
  unfold Sys2Proof.Machine.execSlcCellBlk
  refine OnlyO.next ?_
  exact (Only.live h (fun t1 h2 => (Only.hostCellBlk (Only.moveTo h2 _ (sb rfl m)) _ (sb rfl m))))

theorem Only.execConverterStop {M : Nat} {a t : State} (h : Only M a t) (x0_ x1_) (m : 0x1942560120000700 &&& M = 0x1942560120000700) :
    OnlyO M a (Sys2Proof.Machine.execConverterStop x0_ x1_ t) := by
  unfold Sys2Proof.Machine.execConverterStop
  refine OnlyO.next ?_
  exact (Only.live h (fun t1 h2 => (Only.runDesc (Only.moveTo h2 _ (sb rfl m)) _ _ _ (sb rfl m) (fun t3 t4 h5 => (Only.complete (Only.hostStop h5 (sb rfl m)) _ _ _ _ (sb rfl m))))))

theorem Only.execConverterStopBrk {M : Nat} {a t : State} (h : Only M a t) (x0_ x1_) (m : 0x1942560120000700 &&& M = 0x1942560120000700) :
    OnlyO M a (Sys2Proof.Machine.execConverterStopBrk x0_ x1_ t) := by
  unfold Sys2Proof.Machine.execConverterStopBrk
  refine OnlyO.next ?_
  exact (Only.live h (fun t1 h2 => (Only.runDesc (Only.moveTo h2 _ (sb rfl m)) _ _ _ (sb rfl m) (fun t3 t4 h5 => (Only.complete (Only.hostStopBrk h5 (sb rfl m)) _ _ _ _ (sb rfl m))))))

theorem Only.execConverterBrkReset {M : Nat} {a t : State} (h : Only M a t) (x0_ x1_) (m : 0x1102160100000700 &&& M = 0x1102160100000700) :
    OnlyO M a (Sys2Proof.Machine.execConverterBrkReset x0_ x1_ t) := by
  unfold Sys2Proof.Machine.execConverterBrkReset
  refine OnlyO.next ?_
  exact (Only.live h (fun t1 h2 => (Only.runDesc (Only.moveTo h2 _ (sb rfl m)) _ _ _ (sb rfl m) (fun t3 t4 h5 => (Only.complete (Only.brkReset h5 (sb rfl m)) _ _ _ _ (sb rfl m))))))

theorem Only.legShort {M : Nat} {a t : State} (h : Only M a t) (x1_ x2_ x3_) (m : 0x1500510100000200 &&& M = 0x1500510100000200) :
    Only M a (State.legShort t x1_ x2_ x3_) := by
  unfold State.legShort
  extract_lets l1 l2 l3 l4 l5 l6 l7 l8 l9 l10 l11 l12 l13 l14 l15
  have q16 : inM M l2 = true := by unfold l2; (repeat' split) <;> exact fm rfl m
  have q17 : inM M l3 = true := by unfold l3; (repeat' split) <;> exact fm rfl m
  have q18 : inM M l4 = true := by unfold l4; (repeat' split) <;> exact fm rfl m
  have k19 : Only M a l9 := (Only.wr (Only.wr h _ _ (sb rfl m) q16) _ _ (sb rfl m) q18)
  try clear_value l9
  have k20 : Only M a l10 := (Only.ite (Only.wr k19 _ _ (sb rfl m) q17) k19)
  try clear_value l10
  have k21 : Only M a l13 := (Only.set_slc k20 _ (sb rfl m))
  try clear_value l13
  have k25 : Only M a l14 := (Only.foldl k21 fun t22 x23 h24 => (Only.emit h24 _ (sb rfl m)))
  try clear_value l14
  have k26 : Only M a l15 := (Only.ite k25 (Only.auxShort k25 _ (sb rfl m)))
  try clear_value l15
  exact (Only.ite (Only.wr h _ _ (sb rfl m) q16) (Only.post k26 _ _ (sb rfl m)))

theorem Only.execDriveShort {M : Nat} {a t : State} (h : Only M a t) (x0_ x1_ x2_ x3_) (m : 0x1500570100000200 &&& M = 0x1500570100000200) :
    OnlyO M a (Sys2Proof.Machine.execDriveShort x0_ x1_ x2_ x3_ t) := by
  unfold Sys2Proof.Machine.execDriveShort
  extract_lets l1 l2
  have k3 : Only M a l1 := (Only.moveTo h _ (sb rfl m))
  try clear_value l1
  refine OnlyO.next ?_
  exact (Only.ite (Only.legShort k3 _ _ _ (sb rfl m)) k3)

theorem Only.clearDriveSc {M : Nat} {a t : State} (h : Only M a t) (v) (m : 0x100000000 &&& M = 0x100000000) :
    Only M a (State.clearDriveSc t v) := by
  have one : ∀ {s : State} (k : Nat) (l b : Fld), inM M l = true → inM M b = true → Only M a s →
      Only M a (let s := if bits v b.lo 1 = 1 then s.wr b 0 else s
        let k' := bits v l.lo 3
        if k' = 0 then s
        else if s.tm.e < s.slc.softEnd.getD k 0 + 10000000 then s.refuse Reg.SLC_BLOCK_STATUS.CFG_ERR
        else s.wr l (s.rd l - (s.rd l &&& k'))) := by
    intro s m' l b hl hb hs
    extract_lets u k
    have hu : Only M a u := Only.ite (Only.wr hs _ _ (sb rfl m) hb) hs
    clear_value u
    exact Only.ite hu (Only.ite (Only.refuse hu _ (sb rfl m) (fm rfl m)) (Only.wr hu _ _ (sb rfl m) hl))
  exact one _ _ _ (fm rfl m) (fm rfl m) (one _ _ _ (fm rfl m) (fm rfl m) h)

theorem Only.execDriveScClear {M : Nat} {a t : State} (h : Only M a t) (x0_ x1_) (m : 0x60100000000 &&& M = 0x60100000000) :
    OnlyO M a (Sys2Proof.Machine.execDriveScClear x0_ x1_ t) := by
  unfold Sys2Proof.Machine.execDriveScClear
  refine OnlyO.next ?_
  exact (Only.live h (fun t1 h2 => (Only.clearDriveSc (Only.moveTo h2 _ (sb rfl m)) _ (sb rfl m))))

theorem Only.execDebugStarve {M : Nat} {a t : State} (h : Only M a t) (m : 0x1942500120000200 &&& M = 0x1942500120000200) :
    OnlyO M a (Sys2Proof.Machine.execDebugStarve t) := by
  unfold Sys2Proof.Machine.execDebugStarve
  refine OnlyO.next ?_
  exact (Only.live h (fun t1 h2 => (Only.ite (by
    extract_lets l3
    have k4 : Only M a l3 := (Only.actScope h2 _ _ _ _ _ (sb rfl m) (by decide))
    try clear_value l3
    exact (Only.ite (Only.sendBk k4 _ (sb rfl m)) k4)) h2)))

end Sys2Proof.Machine
end

