-- ==== Sys2Proof/Laws/OnlyTriad.lean ====
section
/-! SUPPORT. `Only` of each function of Machine/Triad.lean. -/
set_option Elab.async false
namespace Sys2Proof.Machine

theorem Only.moveLead {M : Nat} {a t : State} (h : Only M a t) (m : 0x1000000000000400 &&& M = 0x1000000000000400) :
    Only M a (State.moveLead t) := by
  unfold State.moveLead
  extract_lets l1
  exact (Only.ite h (by
    split
    · exact (Only.emit (Only.wr h _ _ (sb rfl m) (fm rfl m)) _ (sb rfl m))
    · exact h))

theorem Only.logMismatch {M : Nat} {a t : State} (h : Only M a t) (x1_ x2_ x3_) (m : 0x400 &&& M = 0x400) :
    Only M a (State.logMismatch t x1_ x2_ x3_) := by
  unfold State.logMismatch
  exact (Only.wr (Only.wr (Only.wr (Only.wr h _ _ (sb rfl m) (fm rfl m)) _ _ (sb rfl m) (fm rfl m)) _ _ (sb rfl m) (fm rfl m)) _ _ (sb rfl m) (fm rfl m))

theorem Only.triadCommit {M : Nat} {a t : State} (h : Only M a t) (x1_ x2_ x3_ x4_) (m : 0x1100300000000200 &&& M = 0x1100300000000200) :
    Only M a (State.triadCommit t x1_ x2_ x3_ x4_) := by
  unfold State.triadCommit
  extract_lets l1
  exact (Only.ite (Only.set_tri h _ (sb rfl m)) (Only.triadEvent h _ _ _ _ _ (sb rfl m)))

theorem Only.holdMember {M : Nat} {a t : State} (h : Only M a t) (x1_ x2_ x3_) (m : 0x1100300200000600 &&& M = 0x1100300200000600) :
    Only M a (State.holdMember t x1_ x2_ x3_) := by
  unfold State.holdMember
  extract_lets l1 l2
  have k3 : Only M a l1 := (Only.wr (Only.wr h _ _ (sb rfl m) (fm rfl m)) _ _ (sb rfl m) (fm rfl m))
  try clear_value l1
  have k4 : Only M a l2 := (Only.wr (Only.wr k3 _ _ (sb rfl m) (fm rfl m)) _ _ (sb rfl m) (fm rfl m))
  try clear_value l2
  exact (Only.triadCommit (Only.moveLead (Only.showSil k4 (sb rfl m)) (sb rfl m)) _ _ _ _ (sb rfl m))

theorem Only.fence {M : Nat} {a t : State} (h : Only M a t) (x1_ x2_ x3_) (m : 0x1100300200000600 &&& M = 0x1100300200000600) :
    Only M a (State.fence t x1_ x2_ x3_) := by
  unfold State.fence
  extract_lets l1 l2 l3 l4 l5 l6
  have k7 : Only M a l2 := (Only.inc (Only.logMismatch h _ _ _ (sb rfl m)) _ _ (sb rfl m) (fm rfl m))
  try clear_value l2
  have k8 : Only M a l4 := (Only.set_tri k7 _ (sb rfl m))
  try clear_value l4
  have k9 : Only M a l5 := (Only.wr (Only.wr (Only.wr k8 _ _ (sb rfl m) (fm rfl m)) _ _ (sb rfl m) (fm rfl m)) _ _ (sb rfl m) (fm rfl m))
  try clear_value l5
  have k10 : Only M a l6 := (Only.triadCommit (Only.moveLead k9 (sb rfl m)) _ _ _ _ (sb rfl m))
  try clear_value l6
  exact (Only.ite (Only.holdMember k10 _ _ _ (sb rfl m)) k10)

theorem Only.secondMismatch {M : Nat} {a t : State} (h : Only M a t) (x1_ x2_) (m : 0x1942700120000600 &&& M = 0x1942700120000600) :
    Only M a (State.secondMismatch t x1_ x2_) := by
  unfold State.secondMismatch
  extract_lets l1 l2 l3 l4 l5 l6
  have k7 : Only M a l1 := (Only.logMismatch h _ _ _ (sb rfl m))
  try clear_value l1
  have k8 : Only M a l3 := (Only.wr (Only.wr k7 _ _ (sb rfl m) (fm rfl m)) _ _ (sb rfl m) (fm rfl m))
  try clear_value l3
  have k9 : Only M a l5 := (Only.set_tri k8 _ (sb rfl m))
  try clear_value l5
  have k13 : Only M a l6 := (Only.ite (Only.foldl k9 fun t10 x11 h12 => (Only.complete h12 _ _ _ _ (sb rfl m))) k7)
  try clear_value l6
  exact (Only.safeState k13 _ (sb rfl m) (by decide))

theorem Only.memberFault {M : Nat} {a t : State} (h : Only M a t) (x1_ x2_ x3_) (m : 0x1942700320000600 &&& M = 0x1942700320000600) :
    Only M a (State.memberFault t x1_ x2_ x3_) := by
  unfold State.memberFault
  extract_lets l1
  exact (Only.ite (Only.fence h _ _ _ (sb rfl m)) (Only.ite (Only.secondMismatch h _ _ (sb rfl m)) h))

theorem Only.lostVote {M : Nat} {a t : State} (h : Only M a t) (x1_) (m : 0x400 &&& M = 0x400) :
    Only M a (State.lostVote t x1_) := by
  unfold State.lostVote
  exact (Only.inc h _ _ (sb rfl m) (by (repeat' split) <;> exact fm rfl m))

theorem Only.voted {M : Nat} {a t : State} (h : Only M a t) (x1_ x2_) (m : 0x800000000000400 &&& M = 0x800000000000400) :
    Only M a (State.voted t x1_ x2_).1 := by
  unfold State.voted
  extract_lets l1
  split
  · exact (Only.fstMk (Only.foldl h fun t7 x8 h9 => (Only.ite h9 (Only.lostVote h9 _ (sb rfl m)))))
  · exact (Only.ite1 (Only.fstMk h) (Only.ite1 (Only.fstMk (Only.lostVote (Only.used h (sb rfl m)) _ (sb rfl m))) (Only.fstMk (Only.lostVote (Only.used h (sb rfl m)) _ (sb rfl m)))))
  · exact (Only.fstMk h)

theorem Only.agreed {M : Nat} {a t : State} (h : Only M a t) (x1_ x2_ x3_ x4_ x5_) (g4 : ∀ u, Only M a u → Only M a (x4_ u)) (g5 : ∀ u, Only M a u → Only M a (x5_ u)) (m : 0x1942700320000600 &&& M = 0x1942700320000600) :
    Only M a (State.agreed t x1_ x2_ x3_ x4_ x5_) := by
  unfold State.agreed
  extract_lets l1 l2 l3
  have k4 : Only M a l3 := (Only.ite (Only.used h (sb rfl m)) h)
  try clear_value l3
  exact (Only.ite (by
    split
    · exact (g4 _ k4)
    · exact (Only.fence (g4 _ k4) _ _ _ (sb rfl m))
    · exact (Only.secondMismatch (g5 _ k4) _ _ (sb rfl m))) (Only.ite (by
    split
    · exact (g4 _ k4)
    · exact (Only.secondMismatch (g5 _ k4) _ _ (sb rfl m))) (g4 _ k4)))

theorem Only.execTcmEccError {M : Nat} {a t : State} (h : Only M a t) (x0_ x1_ x2_) (m : 0x1942760320000600 &&& M = 0x1942760320000600) :
    OnlyO M a (Sys2Proof.Machine.execTcmEccError x0_ x1_ x2_ t) := by
  unfold Sys2Proof.Machine.execTcmEccError
  refine OnlyO.next ?_
  exact (Only.live h (fun t1 h2 => (Only.memberFault (Only.moveTo h2 _ (sb rfl m)) _ _ _ (sb rfl m))))

theorem Only.execScrubSweep {M : Nat} {a t : State} (h : Only M a t) (x0_ x1_) (m : 0x1100360200000600 &&& M = 0x1100360200000600) :
    OnlyO M a (Sys2Proof.Machine.execScrubSweep x0_ x1_ t) := by
  unfold Sys2Proof.Machine.execScrubSweep
  refine OnlyO.next ?_
  exact (Only.live h (fun t1 h2 => (by
    extract_lets l3
    have k4 : Only M a l3 := (Only.moveTo h2 _ (sb rfl m))
    try clear_value l3
    split
    · exact k4
    · exact (Only.ite (Only.fence (Only.inc k4 _ _ (sb rfl m) (fm rfl m)) _ _ _ (sb rfl m)) k4))))

theorem Only.toStep {M : Nat} {a t : State} (h : Only M a t) (x1_) (m : 0x200000000400 &&& M = 0x200000000400) :
    Only M a (State.toStep t x1_) := by
  unfold State.toStep
  extract_lets l1
  exact (Only.wr (Only.set_tri h _ (sb rfl m)) _ _ (sb rfl m) (fm rfl m))

theorem Only.execRebuildResetDone {M : Nat} {a t : State} (h : Only M a t) (x0_) (m : 0x260000000400 &&& M = 0x260000000400) :
    OnlyO M a (Sys2Proof.Machine.execRebuildResetDone x0_ t) := by
  unfold Sys2Proof.Machine.execRebuildResetDone
  refine OnlyO.next ?_
  exact (Only.live h (fun t1 h2 => (by
    extract_lets l3
    have k4 : Only M a l3 := (Only.moveTo h2 _ (sb rfl m))
    try clear_value l3
    exact (Only.ite (Only.toStep k4 _ (sb rfl m)) k4))))

theorem Only.execRebuildCopyDone {M : Nat} {a t : State} (h : Only M a t) (x0_) (m : 0x260000000400 &&& M = 0x260000000400) :
    OnlyO M a (Sys2Proof.Machine.execRebuildCopyDone x0_ t) := by
  unfold Sys2Proof.Machine.execRebuildCopyDone
  refine OnlyO.next ?_
  exact (Only.live h (fun t1 h2 => (by
    extract_lets l3
    have k4 : Only M a l3 := (Only.moveTo h2 _ (sb rfl m))
    try clear_value l3
    exact (Only.ite (Only.toStep k4 _ (sb rfl m)) k4))))

theorem Only.checkStaged {M : Nat} {a t : State} (h : Only M a t) (x1_ x2_) (m : 0x100000000400 &&& M = 0x100000000400) :
    Only M a (State.checkStaged t x1_ x2_) := by
  unfold State.checkStaged
  extract_lets l1 l2
  have k3 : Only M a l2 := (Only.wr h _ _ (sb rfl m) (fm rfl m))
  try clear_value l2
  exact (Only.ite (Only.complete (Only.wr k3 _ _ (sb rfl m) (fm rfl m)) _ _ _ _ (sb rfl m)) (Only.ite (Only.complete (Only.wr k3 _ _ (sb rfl m) (fm rfl m)) _ _ _ _ (sb rfl m)) (Only.complete (Only.wr (Only.wr k3 _ _ (sb rfl m) (fm rfl m)) _ _ (sb rfl m) (fm rfl m)) _ _ _ _ (sb rfl m))))

theorem Only.checkPending {M : Nat} {a t : State} (h : Only M a t) (m : 0x300000000400 &&& M = 0x300000000400) :
    Only M a (State.checkPending t) := by
  unfold State.checkPending
  extract_lets l1
  split
  · exact h
  · exact (Only.checkStaged (Only.set_tri h _ (sb rfl m)) _ _ (sb rfl m))

theorem Only.execRebuildVerifyDone {M : Nat} {a t : State} (h : Only M a t) (x0_ x1_) (m : 0x1100360200000600 &&& M = 0x1100360200000600) :
    OnlyO M a (Sys2Proof.Machine.execRebuildVerifyDone x0_ x1_ t) := by
  unfold Sys2Proof.Machine.execRebuildVerifyDone
  refine OnlyO.next ?_
  exact (Only.live h (fun t1 h2 => (by
    extract_lets l3 l4
    have k5 : Only M a l3 := (Only.moveTo h2 _ (sb rfl m))
    try clear_value l3
    exact (Only.ite k5 (by
      split
      · exact (Only.toStep k5 _ (sb rfl m))
      · exact (Only.checkPending (Only.holdMember (Only.logMismatch k5 _ _ _ (sb rfl m)) _ _ _ (sb rfl m)) (sb rfl m)))))))

theorem Only.rejoinStep {M : Nat} {a t : State} (h : Only M a t) (m : 0x200000000400 &&& M = 0x200000000400) :
    Only M a (State.rejoinStep t) := by
  unfold State.rejoinStep
  extract_lets l1
  exact (Only.ite (Only.wr (Only.set_tri h _ (sb rfl m)) _ _ (sb rfl m) (fm rfl m)) h)

theorem Only.execRebuildRejoin {M : Nat} {a t : State} (h : Only M a t) (m : 0x1100360000000600 &&& M = 0x1100360000000600) :
    OnlyO M a (Sys2Proof.Machine.execRebuildRejoin t) := by
  unfold Sys2Proof.Machine.execRebuildRejoin
  refine OnlyO.next ?_
  exact (Only.live h (fun t1 h2 => (Only.ite (by
    extract_lets l3 l4 l5 l6 l7
    have k8 : Only M a l3 := (Only.moveTo h2 _ (sb rfl m))
    try clear_value l3
    have k9 : Only M a l6 := (Only.wr (Only.wr (Only.wr k8 _ _ (sb rfl m) (fm rfl m)) _ _ (sb rfl m) (fm rfl m)) _ _ (sb rfl m) (fm rfl m))
    try clear_value l6
    have k10 : Only M a l7 := (Only.wr (Only.wr k9 _ _ (sb rfl m) (fm rfl m)) _ _ (sb rfl m) (fm rfl m))
    try clear_value l7
    exact (Only.checkPending (Only.triadEvent k10 _ _ _ _ _ (sb rfl m)) (sb rfl m))) h2)))

theorem Only.dropLaw {M : Nat} {a t : State} (h : Only M a t) (m : 0xc220000100000 &&& M = 0xc220000100000) :
    Only M a (State.dropLaw t) := by
  unfold State.dropLaw
  extract_lets l1 l2 l3 l4 l5
  have k6 : Only M a l5 := (Only.set_tm_tri_law_lawC h _ (sb rfl m) _ (sb rfl m) _ (sb rfl m) _ (sb rfl m))
  try clear_value l5
  exact (Only.wr (Only.wr k6 _ _ (sb rfl m) (fm rfl m)) _ _ (sb rfl m) (fm rfl m))

theorem Only.overrun {M : Nat} {a t : State} (h : Only M a t) (x1_) (m : 0xc220000100008 &&& M = 0xc220000100008) :
    Only M a (State.overrun t x1_) := by
  unfold State.overrun
  extract_lets l1 l2 l3 l4 l5
  have k6 : Only M a l1 := (Only.dropLaw h (sb rfl m))
  try clear_value l1
  have k7 : Only M a l3 := (Only.set_tm k6 _ (sb rfl m))
  try clear_value l3
  have k8 : Only M a l5 := (Only.ite (Only.set_tri k7 _ (sb rfl m)) k7)
  try clear_value l5
  exact (Only.wr k8 _ _ (sb rfl m) (fm rfl m))

theorem Only.dropBackground {M : Nat} {a t : State} (h : Only M a t) (m : 0x800200000000000 &&& M = 0x800200000000000) :
    Only M a (State.dropBackground t) := by
  unfold State.dropBackground
  extract_lets l1
  exact (Only.set_tri_free h _ (sb rfl m) _ (sb rfl m))

theorem Only.trap {M : Nat} {a t : State} (h : Only M a t) (x1_ x2_ x3_) (m : 0x190c320000100208 &&& M = 0x190c320000100208) :
    Only M a (State.trap t x1_ x2_ x3_) := by
  unfold State.trap
  extract_lets l1
  have k2 : Only M a l1 := (Only.triadEvent h _ _ _ _ _ (sb rfl m))
  try clear_value l1
  split
  · exact (Only.ite (Only.overrun k2 _ (sb rfl m)) k2)
  · exact (Only.ite (Only.overrun k2 _ (sb rfl m)) k2)
  · exact (Only.dropBackground k2 (sb rfl m))
  · exact k2

theorem Only.execTrap {M : Nat} {a t : State} (h : Only M a t) (x0_ x1_ x2_) (m : 0x190c320000100208 &&& M = 0x190c320000100208) :
    OnlyO M a (Sys2Proof.Machine.execTrap x0_ x1_ x2_ t) := by
  unfold Sys2Proof.Machine.execTrap
  refine OnlyO.next ?_
  exact (Only.live h (fun t1 h2 => (Only.trap h2 _ _ _ (sb rfl m))))

theorem Only.execTready {M : Nat} {a t : State} (h : Only M a t) (m : 0x180000000000 &&& M = 0x180000000000) :
    OnlyO M a (Sys2Proof.Machine.execTready t) := by
  unfold Sys2Proof.Machine.execTready
  refine OnlyO.next ?_
  exact (Only.live h (fun t1 h2 => (Only.ite (by
    extract_lets l3 l4 l5
    have k6 : Only M a l4 := (Only.set_pwr h2 _ (sb rfl m))
    try clear_value l4
    exact (Only.foldl (Only.set_hst k6 _ (sb rfl m)) fun t7 x8 h9 => (Only.complete h9 _ _ _ _ (sb rfl m)))) h2)))

theorem Only.freeCore {M : Nat} {a t : State} (h : Only M a t) (m : 0x800200000000000 &&& M = 0x800200000000000) :
    Only M a (State.freeCore t) := by
  unfold State.freeCore
  extract_lets l1 l2 l3 l4
  have k5 : Only M a l3 := (Only.set_tri_free h _ (sb rfl m) _ (sb rfl m))
  try clear_value l3
  exact (Only.set_tri_free k5 _ (sb rfl m) _ (sb rfl m))

theorem Only.halt {M : Nat} {a t : State} (h : Only M a t) (m : 0x82c220100100400 &&& M = 0x82c220100100400) :
    Only M a (State.halt t) := by
  unfold State.halt
  extract_lets l1 l2
  have k3 : Only M a l1 := (Only.breakTimes (Only.wr (Only.wr h _ _ (sb rfl m) (fm rfl m)) _ _ (sb rfl m) (fm rfl m)) (sb rfl m))
  try clear_value l1
  exact (Only.ite h (Only.freeCore (Only.set_tri k3 _ (sb rfl m)) (sb rfl m)))

theorem Only.execDebugHalt {M : Nat} {a t : State} (h : Only M a t) (m : 0x82c220100100400 &&& M = 0x82c220100100400) :
    OnlyO M a (Sys2Proof.Machine.execDebugHalt t) := by
  unfold Sys2Proof.Machine.execDebugHalt
  refine OnlyO.next ?_
  exact (Only.live h (fun t1 h2 => (Only.halt h2 (sb rfl m))))

theorem Only.execDebugBreakpoint {M : Nat} {a t : State} (h : Only M a t) (m : 0x82c220100100400 &&& M = 0x82c220100100400) :
    OnlyO M a (Sys2Proof.Machine.execDebugBreakpoint t) := by
  unfold Sys2Proof.Machine.execDebugBreakpoint
  refine OnlyO.next ?_
  exact (Only.live h (fun t1 h2 => (Only.halt h2 (sb rfl m))))

theorem Only.execDebugResume {M : Nat} {a t : State} (h : Only M a t) (m : 0x100000408 &&& M = 0x100000408) :
    OnlyO M a (Sys2Proof.Machine.execDebugResume t) := by
  unfold Sys2Proof.Machine.execDebugResume
  refine OnlyO.next ?_
  exact (Only.live h (fun t1 h2 => (Only.ite (Only.wr (Only.wr (Only.wr h2 _ _ (sb rfl m) (fm rfl m)) _ _ (sb rfl m) (fm rfl m)) _ _ (sb rfl m) (fm rfl m)) h2)))

theorem Only.execDebugSingleStep {M : Nat} {a t : State} (h : Only M a t) (m : 0x800200000000000 &&& M = 0x800200000000000) :
    OnlyO M a (Sys2Proof.Machine.execDebugSingleStep t) := by
  unfold Sys2Proof.Machine.execDebugSingleStep
  refine OnlyO.next ?_
  exact (Only.live h (fun t1 h2 => (Only.ite (Only.freeCore h2 (sb rfl m)) h2)))

theorem Only.staged {M : Nat} {a t : State} (h : Only M a t) (x1_ x2_ x3_ x4_ x5_) (m : 0x300000000400 &&& M = 0x300000000400) :
    Only M a (State.staged t x1_ x2_ x3_ x4_ x5_) := by
  unfold State.staged
  extract_lets l1 l2 l3 l4
  have k5 : Only M a l2 := Only.ite (Only.set_triW h _ (sb rfl m) id (memStore_wf _ _ _) id (fun x _ => x) fun _ x => x)
    (Only.set_triW h _ (sb rfl m) (memStore_wf _ _ _) id id (fun x _ => x) fun _ x => x)
  try clear_value l2
  have k6 : Only M a l3 := (Only.wr (Only.wr k5 _ _ (sb rfl m) (fm rfl m)) _ _ (sb rfl m) (fm rfl m))
  try clear_value l3
  exact (Only.ite (Only.complete (Only.wr k6 _ _ (sb rfl m) (fm rfl m)) _ _ _ _ (sb rfl m))
    (Only.ite (Only.set_tri k6 _ (sb rfl m)) (Only.checkStaged k6 _ _ (sb rfl m))))

theorem Only.execFwStage {M : Nat} {a t : State} (h : Only M a t) (x0_ x1_ x2_ x3_ x4_ x5_) (m : 0x1102300000000700 &&& M = 0x1102300000000700) :
    OnlyO M a (Sys2Proof.Machine.execFwStage x0_ x1_ x2_ x3_ x4_ x5_ t) := by
  unfold Sys2Proof.Machine.execFwStage
  refine OnlyO.next ?_
  exact (Only.live h (fun t1 h2 => (Only.runDesc h2 _ _ _ (sb rfl m) (fun t3 t4 h5 => (Only.ite (Only.complete h5 _ _ _ _ (sb rfl m)) (Only.ite (Only.staged (Only.wr h5 _ _ (sb rfl m) (fm rfl m)) _ _ _ _ _ (sb rfl m)) (Only.access (Only.wr h5 _ _ (sb rfl m) (fm rfl m)) _ (sb rfl m))))))))

theorem Only.execFwSwap {M : Nat} {a t : State} (h : Only M a t) (x0_) (m : 0x1102320000000700 &&& M = 0x1102320000000700) :
    OnlyO M a (Sys2Proof.Machine.execFwSwap x0_ t) := by
  unfold Sys2Proof.Machine.execFwSwap
  refine OnlyO.next ?_
  exact (Only.live h (fun t1 h2 => (Only.runDesc h2 _ _ _ (sb rfl m) (fun t3 t4 h5 => (Only.ite (Only.complete (Only.wr h5 _ _ (sb rfl m) (fm rfl m)) _ _ _ _ (sb rfl m)) (by
    extract_lets l6 l7 l8
    have k9 : Only M a l7 := (Only.ite h5 (Only.askAt h5 _ (sb rfl m)))
    try clear_value l7
    exact (Only.ite (Only.complete (Only.wr h5 _ _ (sb rfl m) (fm rfl m)) _ _ _ _ (sb rfl m)) (Only.wr (Only.set_tri k9 _ (sb rfl m)) _ _ (sb rfl m) (fm rfl m)))))))))

theorem Only.flipBanks {M : Nat} {a t : State} (h : Only M a t) (m : 0x400 &&& M = 0x400) :
    Only M a (State.flipBanks t) := by
  unfold State.flipBanks
  extract_lets l1 l2
  exact (Only.wr (Only.wr (Only.wr h _ _ (sb rfl m) (fm rfl m)) _ _ (sb rfl m) (fm rfl m)) _ _ (sb rfl m) (fm rfl m))

theorem Only.execSwapTick {M : Nat} {a t : State} (h : Only M a t) (m : 0x800200000000400 &&& M = 0x800200000000400) :
    OnlyO M a (Sys2Proof.Machine.execSwapTick t) := by
  unfold Sys2Proof.Machine.execSwapTick
  refine OnlyO.next ?_
  exact (Only.live h (fun t1 h2 => (by
    extract_lets l3 l4 l5
    have k6 : Only M a l4 := (Only.dropBackground (Only.wr (Only.flipBanks h2 (sb rfl m)) _ _ (sb rfl m) (fm rfl m)) (sb rfl m))
    try clear_value l4
    exact (Only.ite (Only.set_tri k6 _ (sb rfl m)) h2))))

theorem Only.swapStands {M : Nat} {a t : State} (h : Only M a t) (m : 0x1100300000000600 &&& M = 0x1100300000000600) :
    Only M a (State.swapStands t) := by
  unfold State.swapStands
  extract_lets l1 l2 l3 l4
  have k5 : Only M a l3 := (Only.set_tri h _ (sb rfl m))
  try clear_value l3
  have k6 : Only M a l4 := (Only.triadEvent (Only.wr k5 _ _ (sb rfl m) (fm rfl m)) _ _ _ _ _ (sb rfl m))
  try clear_value l4
  exact (Only.ite h (Only.foldl k6 fun t7 x8 h9 => (Only.complete h9 _ _ _ _ (sb rfl m))))

theorem Only.execFwSwapRevert {M : Nat} {a t : State} (h : Only M a t) (m : 0x1100300000000600 &&& M = 0x1100300000000600) :
    OnlyO M a (Sys2Proof.Machine.execFwSwapRevert t) := by
  unfold Sys2Proof.Machine.execFwSwapRevert
  refine OnlyO.next ?_
  exact (Only.live h (fun t1 h2 => (Only.ite (by
    extract_lets l3 l4 l5 l6
    have k7 : Only M a l5 := (Only.set_tri h2 _ (sb rfl m))
    try clear_value l5
    have k8 : Only M a l6 := (Only.triadEvent (Only.wr (Only.flipBanks k7 (sb rfl m)) _ _ (sb rfl m) (fm rfl m)) _ _ _ _ _ (sb rfl m))
    try clear_value l6
    exact (Only.foldl k8 fun t9 x10 h11 => (Only.complete h11 _ _ _ _ (sb rfl m)))) h2)))

end Sys2Proof.Machine
end

