-- ==== Sys2Proof/Laws/OnlyHost.lean ====
section
/-! SUPPORT. `Only` of each function of Machine/Host.lean. -/
set_option Elab.async false
namespace Sys2Proof.Machine

theorem Only.haltError {M : Nat} {a t : State} (h : Only M a t) (x1_ x2_) (m : 0x1100100000000200 &&& M = 0x1100100000000200) :
    Only M a (State.haltError t x1_ x2_) := by
  unfold State.haltError
  extract_lets l1
  exact (Only.drain (Only.queueRingState (Only.haltRing h _ _ _ _ _ (sb rfl m)) _ _ _ (sb rfl m)) _ (sb rfl m))

theorem Only.ringDoorbell {M : Nat} {a t : State} (h : Only M a t) (x1_ x2_) (m : 0x1100182000000320 &&& M = 0x1100182000000320) :
    Only M a (State.ringDoorbell t x1_ x2_) := by
  unfold State.ringDoorbell
  extract_lets l1 l2 l3 l4 l5
  have k6 : Only M a l4 := (Only.setHostCtr h _ _ (sb rfl m))
  try clear_value l4
  have k7 : Only M a l5 := (Only.ite (Only.wake k6 _ (sb rfl m)) k6)
  try clear_value l5
  exact (Only.ite h (Only.ite (Only.ite (Only.haltError h _ _ (sb rfl m)) h) (Only.ite (Only.drain (Only.consumeRecords k7 _ (sb rfl m)) _ (sb rfl m)) k7)))

theorem Only.execDoorbell {M : Nat} {a t : State} (h : Only M a t) (x0_ x1_) (m : 0x1900182000000720 &&& M = 0x1900182000000720) :
    OnlyO M a (Sys2Proof.Machine.execDoorbell x0_ x1_ t) := by
  unfold Sys2Proof.Machine.execDoorbell
  refine OnlyO.next ?_
  exact (Only.live h (fun t1 h2 => (by
    split
    · rename_i r4 r5 r6
      have k7 : Only M a r4 := Only.pairEq r6 (Only.voted h2 _ _ (sb rfl m))
      exact (Only.ringDoorbell k7 _ _ (sb rfl m)))))

theorem Only.writeRingCfg {M : Nat} {a t : State} (h : Only M a t) (x1_ x2_) (m : 0x1100100000000300 &&& M = 0x1100100000000300) :
    Only M a (State.writeRingCfg t x1_ x2_) := by
  unfold State.writeRingCfg
  extract_lets l1 l2 l3 l4 l5
  have k6 : Only M a l1 := (Only.putRwi h _ _ _ (fm rfl m))
  try clear_value l1
  have k7 : Only M a l2 := (Only.setHostCtr (Only.wri (Only.wri k6 _ _ _ (fm rfl m)) _ _ _ (fm rfl m)) _ _ (sb rfl m))
  try clear_value l2
  have k8 : Only M a l3 := (Only.setRingState k7 _ _ (sb rfl m))
  try clear_value l3
  have k9 : Only M a l5 := (Only.set_hst k8 _ (sb rfl m))
  try clear_value l5
  exact (Only.ite (Only.refuse h _ (sb rfl m) (fm rfl m)) (Only.ite (Only.putRwi h _ _ _ (fm rfl m)) (Only.ite (Only.refuse h _ (sb rfl m) (fm rfl m)) (Only.ite (Only.drain (Only.repostRecords k9 _ (sb rfl m)) _ (sb rfl m)) k9))))

theorem Only.byBar {M : Nat} {a t : State} (h : Only M a t) (x1_) (g1 : ∀ u, Only M a u → Only M a (x1_ u)) (m : 0x0 &&& M = 0x0) :
    Only M a (State.byBar t x1_) := by
  unfold State.byBar
  exact (Only.live h (fun t1 h2 => (Only.ite h2 (g1 _ h2))))

theorem Only.execRingEnable {M : Nat} {a t : State} (h : Only M a t) (x0_ x1_) (m : 0x1100100000000300 &&& M = 0x1100100000000300) :
    OnlyO M a (Sys2Proof.Machine.execRingEnable x0_ x1_ t) := by
  unfold Sys2Proof.Machine.execRingEnable
  refine OnlyO.next ?_
  exact (Only.byBar h _ (fun t1 h2 => (Only.writeRingCfg h2 _ _ (sb rfl m))) (sb rfl m))

theorem Only.ringStop {M : Nat} {a t : State} (h : Only M a t) (x1_) (m : 0x1100100000000300 &&& M = 0x1100100000000300) :
    Only M a (State.ringStop t x1_) := by
  unfold State.ringStop
  exact (Only.ite (Only.setRingState h _ _ (sb rfl m)) (Only.refuse h _ (sb rfl m) (fm rfl m)))

theorem Only.execRingStop {M : Nat} {a t : State} (h : Only M a t) (x0_) (m : 0x1100100000000300 &&& M = 0x1100100000000300) :
    OnlyO M a (Sys2Proof.Machine.execRingStop x0_ t) := by
  unfold Sys2Proof.Machine.execRingStop
  refine OnlyO.next ?_
  exact (Only.byBar h _ (fun t1 h2 => (Only.ringStop h2 _ (sb rfl m))) (sb rfl m))

theorem Only.execRingStopped {M : Nat} {a t : State} (h : Only M a t) (x0_) (m : 0x1100100000000200 &&& M = 0x1100100000000200) :
    OnlyO M a (Sys2Proof.Machine.execRingStopped x0_ t) := by
  unfold Sys2Proof.Machine.execRingStopped
  refine OnlyO.next ?_
  exact (Only.live h (fun t1 h2 => (Only.ite (Only.setRingState h2 _ _ (sb rfl m)) h2)))

theorem Only.ringRestart {M : Nat} {a t : State} (h : Only M a t) (x1_) (m : 0x1100100000000300 &&& M = 0x1100100000000300) :
    Only M a (State.ringRestart t x1_) := by
  unfold State.ringRestart
  extract_lets l1 l2 l3 l4
  have k5 : Only M a l2 := (Only.wri (Only.wri (Only.wri h _ _ _ (fm rfl m)) _ _ _ (fm rfl m)) _ _ _ (fm rfl m))
  try clear_value l2
  have k6 : Only M a l3 := (Only.setRingState k5 _ _ (sb rfl m))
  try clear_value l3
  exact (Only.ite (Only.ite (Only.haltError k6 _ _ (sb rfl m)) (Only.ite (Only.drain k6 _ (sb rfl m)) k6)) (Only.refuse h _ (sb rfl m) (fm rfl m)))

theorem Only.execRingRestart {M : Nat} {a t : State} (h : Only M a t) (x0_) (m : 0x1100100000000300 &&& M = 0x1100100000000300) :
    OnlyO M a (Sys2Proof.Machine.execRingRestart x0_ t) := by
  unfold Sys2Proof.Machine.execRingRestart
  refine OnlyO.next ?_
  exact (Only.byBar h _ (fun t1 h2 => (Only.ringRestart h2 _ (sb rfl m))) (sb rfl m))

theorem Only.ringReset {M : Nat} {a t : State} (h : Only M a t) (x1_) (m : 0x1100100000000300 &&& M = 0x1100100000000300) :
    Only M a (State.ringReset t x1_) := by
  unfold State.ringReset
  extract_lets l1 l2 l3
  have k4 : Only M a l3 := (Only.setRingState h _ _ (sb rfl m))
  try clear_value l3
  exact (Only.ite (Only.ite (Only.foldl k4 fun t5 x6 h7 => (by
    extract_lets l8
    exact (Only.ite (Only.haltError h7 _ _ (sb rfl m)) h7))) k4) (Only.refuse h _ (sb rfl m) (fm rfl m)))

theorem Only.execRingReset {M : Nat} {a t : State} (h : Only M a t) (x0_) (m : 0x1100100000000300 &&& M = 0x1100100000000300) :
    OnlyO M a (Sys2Proof.Machine.execRingReset x0_ t) := by
  unfold Sys2Proof.Machine.execRingReset
  refine OnlyO.next ?_
  exact (Only.byBar h _ (fun t1 h2 => (Only.ringReset h2 _ (sb rfl m))) (sb rfl m))

theorem Only.writeRingCtrl {M : Nat} {a t : State} (h : Only M a t) (x1_ x2_) (m : 0x1100100000000300 &&& M = 0x1100100000000300) :
    Only M a (State.writeRingCtrl t x1_ x2_) := by
  unfold State.writeRingCtrl
  split
  · exact (Only.ringStop h _ (sb rfl m))
  · exact (Only.ringRestart h _ (sb rfl m))
  · exact (Only.ringReset h _ (sb rfl m))
  · exact h
  · exact (Only.refuse h _ (sb rfl m) (fm rfl m))

theorem Only.execNop {M : Nat} {a t : State} (h : Only M a t) (x0_) (m : 0x1102100000000700 &&& M = 0x1102100000000700) :
    OnlyO M a (Sys2Proof.Machine.execNop x0_ t) := by
  unfold Sys2Proof.Machine.execNop
  refine OnlyO.next ?_
  exact (Only.live h (fun t1 h2 => (Only.runDesc h2 _ _ _ (sb rfl m) (fun t3 t4 h5 => (Only.completeAtTend h5 _ _ _ (sb rfl m))))))

theorem Only.execHostTime {M : Nat} {a t : State} (h : Only M a t) (x0_ x1_) (m : 0x1102100000000700 &&& M = 0x1102100000000700) :
    OnlyO M a (Sys2Proof.Machine.execHostTime x0_ x1_ t) := by
  unfold Sys2Proof.Machine.execHostTime
  refine OnlyO.next ?_
  exact (Only.live h (fun t1 h2 => (Only.runDesc h2 _ _ _ (sb rfl m) (fun t3 t4 h5 => (Only.putWait h5 _ (sb rfl m))))))

theorem Only.execBadOpcode {M : Nat} {a t : State} (h : Only M a t) (x y) (m : 0x1102100000000700 &&& M = 0x1102100000000700) :
    OnlyO M a (Sys2Proof.Machine.execBadOpcode x y t) := by
  refine Only.live h fun s hs => ?_
  split
  · next e => exact Only.startWait hs (sb rfl m) e
  · next e => exact Only.complete (Only.startGo hs (sb rfl m) e) _ _ _ _ (sb rfl m)

theorem Only.takeBuffers {M : Nat} {a t : State} (h : Only M a t) (m : 0x100000000000 &&& M = 0x100000000000) :
    Only M a (State.takeBuffers t) := by
  unfold State.takeBuffers
  extract_lets l1 l2 l3
  exact (Only.set_hst h _ (sb rfl m))

theorem Only.execBuffer {M : Nat} {a t : State} (h : Only M a t) (x0_ x1_ x2_) (m : 0x1102100000000700 &&& M = 0x1102100000000700) :
    OnlyO M a (Sys2Proof.Machine.execBuffer x0_ x1_ x2_ t) := by
  unfold Sys2Proof.Machine.execBuffer
  refine OnlyO.next ?_
  exact (Only.live h (fun t1 h2 => (Only.runDesc h2 _ _ _ (sb rfl m) (fun t3 t4 h5 => (Only.ite (Only.complete h5 _ _ _ _ (sb rfl m)) (Only.takeBuffers (Only.access h5 _ (sb rfl m)) (sb rfl m)))))))

theorem Only.finishBuf {M : Nat} {a t : State} (h : Only M a t) (x1_) (m : 0x100000000000 &&& M = 0x100000000000) :
    Only M a (State.finishBuf t x1_) := by
  unfold State.finishBuf
  extract_lets l1 l2
  have k3 : Only M a l2 := (Only.set_hst h _ (sb rfl m))
  try clear_value l2
  exact (Only.complete k3 _ _ _ _ (sb rfl m))

theorem Only.execBufferTimeout {M : Nat} {a t : State} (h : Only M a t) (x0_ x1_) (m : 0x160000000000 &&& M = 0x160000000000) :
    OnlyO M a (Sys2Proof.Machine.execBufferTimeout x0_ x1_ t) := by
  unfold Sys2Proof.Machine.execBufferTimeout
  refine OnlyO.next ?_
  exact (Only.live h (fun t1 h2 => (by
    extract_lets l3
    have k4 : Only M a l3 := (Only.moveTo h2 _ (sb rfl m))
    try clear_value l3
    split
    · exact k4
    · split
      · exact (Only.ite (Only.finishBuf k4 _ (sb rfl m)) k4)
      · exact k4)))

theorem Only.furrowDone {M : Nat} {a t : State} (h : Only M a t) (x1_ x2_ x3_ x4_) (m : 0x2100000000000 &&& M = 0x2100000000000) :
    Only M a (State.furrowDone t x1_ x2_ x3_ x4_) := by
  unfold State.furrowDone
  extract_lets l1
  have k2 : Only M a l1 := (Only.updCell h _ _ (sb rfl m))
  try clear_value l1
  exact (Only.complete k2 _ _ _ _ (sb rfl m))

theorem Only.execFurrowLoad {M : Nat} {a t : State} (h : Only M a t) (x0_ x1_ x2_ x3_ x4_) (m : 0x1102100000000700 &&& M = 0x1102100000000700) :
    OnlyO M a (Sys2Proof.Machine.execFurrowLoad x0_ x1_ x2_ x3_ x4_ t) := by
  unfold Sys2Proof.Machine.execFurrowLoad
  refine OnlyO.next ?_
  exact (Only.live h (fun t1 h2 => (Only.runDesc h2 _ _ _ (sb rfl m) (fun t3 t4 h5 => (by
    split
    · exact (Only.complete h5 _ _ _ _ (sb rfl m))
    · exact (Only.ite (Only.complete h5 _ _ _ _ (sb rfl m)) (Only.ite (Only.complete h5 _ _ _ _ (sb rfl m)) (Only.ite (Only.furrowDone h5 _ _ _ _ (sb rfl m)) (Only.access h5 _ (sb rfl m))))))))))

theorem Only.writeCompletion {M : Nat} {a t : State} (h : Only M a t) (x1_ x2_ x3_) (m : 0x1000100000000300 &&& M = 0x1000100000000300) :
    Only M a (State.writeCompletion t x1_ x2_ x3_) := by
  unfold State.writeCompletion
  extract_lets l1 l2 l3 l4
  have k5 : Only M a l3 := (Only.set_hst h _ (sb rfl m))
  try clear_value l3
  have k6 : Only M a l4 := (Only.wri (Only.emit k5 _ (sb rfl m)) _ _ _ (fm rfl m))
  try clear_value l4
  exact (Only.entryWritten (Only.flight k6 _ _ (sb rfl m)) _ (sb rfl m))

theorem Only.execCompletionPost {M : Nat} {a t : State} (h : Only M a t) (x0_) (m : 0x1942700320000700 &&& M = 0x1942700320000700) :
    OnlyO M a (Sys2Proof.Machine.execCompletionPost x0_ t) := by
  unfold Sys2Proof.Machine.execCompletionPost
  extract_lets l1
  refine OnlyO.next ?_
  exact (Only.live h (fun t2 h3 => (by
    extract_lets l4
    split
    · exact h3
    · exact (Only.ite h3 (by
        split
        · exact (Only.askEntry h3 _ _ (sb rfl m))
        · exact (Only.haltFault h3 _ _ _ _ (sb rfl m))
        · exact (Only.agreed h3 _ _ _ _ _ (fun t18 h19 => (Only.writeCompletion h19 _ _ _ (sb rfl m))) (fun t20 h21 => (Only.set_hst h21 _ (sb rfl m))) (sb rfl m)))))))

theorem Only.execEventsLost {M : Nat} {a t : State} (h : Only M a t) (x0_) (m : 0x1100100000000200 &&& M = 0x1100100000000200) :
    OnlyO M a (Sys2Proof.Machine.execEventsLost x0_ t) := by
  unfold Sys2Proof.Machine.execEventsLost
  extract_lets l1 l2 l3
  refine OnlyO.next ?_
  exact (Only.live h (fun t4 h5 => (Only.ite h5 (by
    extract_lets l6 l7
    have k8 : Only M a l7 := (Only.set_hst h5 _ (sb rfl m))
    try clear_value l7
    exact (Only.drain (Only.queueOn k8 _ _ _ _ (sb rfl m)) _ (sb rfl m))))))

theorem Only.execMsixCoalesceTimeout {M : Nat} {a t : State} (h : Only M a t) (x0_ x1_) (m : 0x1000160000000000 &&& M = 0x1000160000000000) :
    OnlyO M a (Sys2Proof.Machine.execMsixCoalesceTimeout x0_ x1_ t) := by
  unfold Sys2Proof.Machine.execMsixCoalesceTimeout
  extract_lets l1
  refine OnlyO.next ?_
  exact (Only.live h (fun t2 h3 => (by
    extract_lets l4 l5 l6 l7
    have k8 : Only M a l4 := (Only.moveTo h3 _ (sb rfl m))
    try clear_value l4
    have k9 : Only M a l7 := (Only.set_hst k8 _ (sb rfl m))
    try clear_value l7
    exact (Only.ite k8 (Only.ite (Only.emit k9 _ (sb rfl m)) k9)))))

theorem Only.writeWalkInv {M : Nat} {a t : State} (h : Only M a t) (x1_) (m : 0x100000000100 &&& M = 0x100000000100) :
    Only M a (State.writeWalkInv t x1_) := by
  unfold State.writeWalkInv
  extract_lets l1 l2
  exact (Only.wr (Only.set_hst h _ (sb rfl m)) _ _ (sb rfl m) (fm rfl m))

theorem Only.execWalkInvalidate {M : Nat} {a t : State} (h : Only M a t) (x0_) (m : 0x100000000100 &&& M = 0x100000000100) :
    OnlyO M a (Sys2Proof.Machine.execWalkInvalidate x0_ t) := by
  unfold Sys2Proof.Machine.execWalkInvalidate
  refine OnlyO.next ?_
  exact (Only.byBar h _ (fun t1 h2 => (Only.writeWalkInv h2 _ (sb rfl m))) (sb rfl m))

theorem Only.execWalkInvalidateDone {M : Nat} {a t : State} (h : Only M a t) (m : 0x100000000100 &&& M = 0x100000000100) :
    OnlyO M a (Sys2Proof.Machine.execWalkInvalidateDone t) := by
  unfold Sys2Proof.Machine.execWalkInvalidateDone
  refine OnlyO.next ?_
  exact (Only.live h (fun t1 h2 => (by
    extract_lets l3
    split
    · exact h2
    · exact (Only.wr (Only.set_hst h2 _ (sb rfl m)) _ _ (sb rfl m) (fm rfl m)))))

theorem Only.writeWalkRoot {M : Nat} {a t : State} (h : Only M a t) (x1_ x2_) (m : 0x100000000100 &&& M = 0x100000000100) :
    Only M a (State.writeWalkRoot t x1_ x2_) := by
  unfold State.writeWalkRoot
  extract_lets l1 l2
  have k3 : Only M a l1 := (Only.ite (Only.putRw h _ _ (bm rfl m)) (Only.putRw h _ _ (bm rfl m)))
  try clear_value l1
  exact (Only.set_hst k3 _ (sb rfl m))

theorem Only.execHostWalkRootWrite {M : Nat} {a t : State} (h : Only M a t) (x0_ x1_) (m : 0x100000000100 &&& M = 0x100000000100) :
    OnlyO M a (Sys2Proof.Machine.execHostWalkRootWrite x0_ x1_ t) := by
  unfold Sys2Proof.Machine.execHostWalkRootWrite
  refine OnlyO.next ?_
  exact (Only.byBar h _ (fun t1 h2 => (Only.writeWalkRoot h2 _ _ (sb rfl m))) (sb rfl m))

theorem Only.execFunctionLevelReset {M : Nat} {a t : State} (h : Only M a t) (m : 0x100000000300 &&& M = 0x100000000300) :
    OnlyO M a (Sys2Proof.Machine.execFunctionLevelReset t) := by
  unfold Sys2Proof.Machine.execFunctionLevelReset
  refine OnlyO.next ?_
  exact (Only.live h (fun t1 h2 => (by
    extract_lets l3 l4 l5
    have k10 : Only M a l3 := (Only.foldl h2 fun t6 x7 h8 => (Only.ite h8 (by
      extract_lets l9
      exact (Only.queueRingState (Only.wri (Only.wri h8 _ _ _ (fm rfl m)) _ _ _ (fm rfl m)) _ _ _ (sb rfl m)))))
    try clear_value l3
    have k11 : Only M a l4 := (Only.wr k10 _ _ (sb rfl m) (fm rfl m))
    try clear_value l4
    exact (Only.set_hst k11 _ (sb rfl m)))))

end Sys2Proof.Machine
end

