-- ==== Sys2Proof/Laws/OnlyAcq.lean ====
section
/-! SUPPORT. `Only` of each function of Machine/Acq.lean. -/
set_option Elab.async false
namespace Sys2Proof.Machine

theorem Only.qClose {M : Nat} {a t : State} (h : Only M a t) (x1_) (m : 0x100020000000 &&& M = 0x100020000000) :
    Only M a (State.qClose t x1_) := by
  unfold State.qClose
  extract_lets l1
  have k2 : Only M a l1 := (Only.wri (Only.wri h _ _ _ (fm rfl m)) _ _ _ (fm rfl m))
  try clear_value l1
  exact (Only.ite (by
    split
    · exact (Only.ite (Only.finishBuf k2 _ (sb rfl m)) k2)
    · exact k2) h)

theorem Only.qBurst {M : Nat} {a t : State} (h : Only M a t) (x1_) (m : 0x1040100020000000 &&& M = 0x1040100020000000) :
    Only M a (State.qBurst t x1_) := by
  unfold State.qBurst
  extract_lets l1
  split
  · exact h
  · extract_lets l7 l8 l9 l10 l11 l12 l13
    have k14 : Only M a l10 := (Only.dmaWrite h _ _ _ (sb rfl m))
    try clear_value l10
    have k15 : Only M a l11 := (Only.setQueue k14 _ _ (sb rfl m))
    try clear_value l11
    exact (Only.ite (Only.finishBuf k15 _ (sb rfl m)) (Only.set_hst k15 _ (sb rfl m)))

theorem Only.qBursts {M : Nat} {a t : State} (h : Only M a t) (n q : Nat) (m : 0x1040100020000000 &&& M = 0x1040100020000000) :
    Only M a (State.qBursts n t q) := by
  induction n generalizing t with
  | zero => exact h
  | succ n ih => exact Only.ite (ih (Only.qBurst h _ (sb rfl m))) h

theorem Only.qAfter {M : Nat} {a t : State} (h : Only M a t) (x0_) (m : 0x1040100020000000 &&& M = 0x1040100020000000) :
    Only M a (State.qAfter x0_ t) := by
  unfold State.qAfter
  exact (Only.qClose (Only.qBursts h _ _ (sb rfl m)) _ (sb rfl m))

theorem Only.qRun {M : Nat} {a t : State} (h : Only M a t) (x1_ x2_) (m : 0x1040100020000000 &&& M = 0x1040100020000000) :
    Only M a (State.qRun t x1_ x2_) := by
  unfold State.qRun
  exact (Only.qAfter (Only.qCatch h _ _ _ (fun t1 h2 => (Only.qAfter h2 _ (sb rfl m))) (sb rfl m)) _ (sb rfl m))

theorem Only.qRunAll {M : Nat} {a t : State} (h : Only M a t) (m : 0x1040100020000000 &&& M = 0x1040100020000000) :
    Only M a (State.qRunAll t) := by
  unfold State.qRunAll
  exact (Only.foldl h fun t1 x2 h3 => (Only.qRun h3 _ _ (sb rfl m)))

theorem Only.execQueueBurstTimeout {M : Nat} {a t : State} (h : Only M a t) (x0_ x1_) (m : 0x1040160020000000 &&& M = 0x1040160020000000) :
    OnlyO M a (Sys2Proof.Machine.execQueueBurstTimeout x0_ x1_ t) := by
  unfold Sys2Proof.Machine.execQueueBurstTimeout
  refine OnlyO.next ?_
  exact (Only.live h (fun t1 h2 => (by
    extract_lets l3
    have k4 : Only M a l3 := (Only.qRun (Only.moveTo h2 _ (sb rfl m)) _ _ (sb rfl m))
    try clear_value l3
    split
    · exact (Only.ite (Only.qClose (Only.qBurst k4 _ (sb rfl m)) _ (sb rfl m)) k4)
    · exact k4)))

theorem Only.qTruncate {M : Nat} {a t : State} (h : Only M a t) (x1_) (m : 0x40100020000000 &&& M = 0x40100020000000) :
    Only M a (State.qTruncate t x1_) := by
  unfold State.qTruncate
  extract_lets l1 l2 l3
  have k4 : Only M a l2 := (Only.wri (Only.setQueue h _ _ (sb rfl m)) _ _ _ (fm rfl m))
  try clear_value l2
  have k5 : Only M a l3 := (Only.wri k4 _ _ _ (fm rfl m))
  try clear_value l3
  exact (Only.ite (by
    split
    · exact (Only.ite (Only.finishBuf k5 _ (sb rfl m)) k5)
    · exact k5) h)

theorem Only.qArm {M : Nat} {a t : State} (h : Only M a t) (x1_) (m : 0x1040100020000000 &&& M = 0x1040100020000000) :
    Only M a (State.qArm t x1_) := by
  unfold State.qArm
  extract_lets l1
  have k2 : Only M a l1 := (Only.qRun h _ _ (sb rfl m))
  try clear_value l1
  exact (Only.ite (Only.wri (Only.wri k2 _ _ _ (fm rfl m)) _ _ _ (fm rfl m)) k2)

theorem Only.execCaptureArm {M : Nat} {a t : State} (h : Only M a t) (x0_) (m : 0x1040100020000000 &&& M = 0x1040100020000000) :
    OnlyO M a (Sys2Proof.Machine.execCaptureArm x0_ t) := by
  unfold Sys2Proof.Machine.execCaptureArm
  refine OnlyO.next ?_
  exact (Only.live h (fun t1 h2 => (Only.qArm h2 _ (sb rfl m))))

theorem Only.writeQCfg {M : Nat} {a t : State} (h : Only M a t) (x1_ x2_) (m : 0x1040100024000000 &&& M = 0x1040100024000000) :
    Only M a (State.writeQCfg t x1_ x2_) := by
  unfold State.writeQCfg
  extract_lets l1 l2 l3 l4 l5 l6
  have k7 : Only M a l5 := (Only.putRwi (Only.qRun h _ _ (sb rfl m)) _ _ _ (fm rfl m))
  try clear_value l5
  exact (Only.ite (Only.refuse h _ (sb rfl m) (fm rfl m)) (Only.ite (Only.wri (Only.setQueue k7 _ _ (sb rfl m)) _ _ _ (fm rfl m)) (Only.ite (Only.wri (Only.setQueue k7 _ _ (sb rfl m)) _ _ _ (fm rfl m)) (Only.ite k7 (Only.wri k7 _ _ _ (fm rfl m))))))

theorem Only.execAdcQCfgWrite {M : Nat} {a t : State} (h : Only M a t) (x0_ x1_) (m : 0x1040100024000000 &&& M = 0x1040100024000000) :
    OnlyO M a (Sys2Proof.Machine.execAdcQCfgWrite x0_ x1_ t) := by
  unfold Sys2Proof.Machine.execAdcQCfgWrite
  refine OnlyO.next ?_
  exact (Only.live h (fun t1 h2 => (Only.writeQCfg h2 _ _ (sb rfl m))))

theorem Only.takeCapture {M : Nat} {a t : State} (h : Only M a t) (x1_ x2_) (m : 0x40100020000000 &&& M = 0x40100020000000) :
    Only M a (State.takeCapture t x1_ x2_) := by
  unfold State.takeCapture
  extract_lets l1 l2
  have k3 : Only M a l1 := (Only.captureEvent h _ (sb rfl m))
  try clear_value l1
  exact (Only.complete k3 _ _ _ _ (sb rfl m))

theorem Only.execCapture {M : Nat} {a t : State} (h : Only M a t) (x0_ x1_) (m : 0x1142100020000700 &&& M = 0x1142100020000700) :
    OnlyO M a (Sys2Proof.Machine.execCapture x0_ x1_ t) := by
  unfold Sys2Proof.Machine.execCapture
  refine OnlyO.next ?_
  exact (Only.live h (fun t1 h2 => (Only.runDesc h2 _ _ _ (sb rfl m) (fun t3 t4 h5 => (Only.ite (Only.putWait h5 _ (sb rfl m)) (Only.takeCapture h5 _ _ (sb rfl m)))))))

theorem Only.updCmp {M : Nat} {a t : State} (h : Only M a t) (x1_ x2_) (m : 0x40000000000000 &&& M = 0x40000000000000) :
    Only M a (State.updCmp t x1_ x2_) := by
  unfold State.updCmp
  extract_lets l1
  exact (Only.set_adc h _ (sb rfl m))

theorem Only.cmpSet {M : Nat} {a t : State} (h : Only M a t) (x1_ x2_) (m : 0x1d425101a0000200 &&& M = 0x1d425101a0000200) :
    Only M a (State.cmpSet t x1_ x2_) := by
  unfold State.cmpSet
  extract_lets l1 l2 l3 l4 l5 l6 l7 l8
  have k9 : Only M a l4 := (Only.ite (Only.updCmp h _ _ (sb rfl m)) h)
  try clear_value l4
  have k10 : Only M a l6 := (Only.wr (Only.set_slc k9 _ (sb rfl m)) _ _ (sb rfl m) (fm rfl m))
  try clear_value l6
  have k11 : Only M a l7 := (Only.wr k10 _ _ (sb rfl m) (fm rfl m))
  try clear_value l7
  have k12 : Only M a l8 := (Only.ite k11 (Only.captureEvent k11 _ (sb rfl m)))
  try clear_value l8
  exact (Only.ite k10 (Only.ite k12 (Only.cmpAct k12 _ (sb rfl m))))

theorem Only.cmpSettle {M : Nat} {a t : State} (h : Only M a t) (x1_) (m : 0x1d425101a0000200 &&& M = 0x1d425101a0000200) :
    Only M a (State.cmpSettle t x1_) := by
  unfold State.cmpSettle
  exact (Only.ite (Only.cmpSet h _ _ (sb rfl m)) h)

theorem Only.cmpEval {M : Nat} {a t : State} (h : Only M a t) (x1_) (m : 0x1d425101a0000200 &&& M = 0x1d425101a0000200) :
    Only M a (State.cmpEval t x1_) := by
  unfold State.cmpEval
  extract_lets l1 l2
  have k3 : Only M a l1 := (Only.cmpSettle h _ (sb rfl m))
  try clear_value l1
  exact (Only.ite k3 (Only.cmpSettle (Only.updCmp k3 _ _ (sb rfl m)) _ (sb rfl m)))

theorem Only.cmpLook {M : Nat} {a t : State} (h : Only M a t) (m : 0x1d425101a0000200 &&& M = 0x1d425101a0000200) :
    Only M a (State.cmpLook t) := by
  unfold State.cmpLook
  exact (Only.foldl h fun t1 x2 h3 => (Only.cmpEval h3 _ (sb rfl m)))

theorem Only.execComparatorActive {M : Nat} {a t : State} (h : Only M a t) (x0_ x1_ x2_) (m : 0x1d425701a0000200 &&& M = 0x1d425701a0000200) :
    OnlyO M a (Sys2Proof.Machine.execComparatorActive x0_ x1_ x2_ t) := by
  unfold Sys2Proof.Machine.execComparatorActive
  refine OnlyO.next ?_
  exact (Only.live h (fun t1 h2 => (Only.cmpEval (Only.updCmp (Only.cmpLook (Only.moveTo h2 _ (sb rfl m)) (sb rfl m)) _ _ (sb rfl m)) _ (sb rfl m))))

theorem Only.cmpUnlatch {M : Nat} {a t : State} (h : Only M a t) (x1_) (m : 0x80000000 &&& M = 0x80000000) :
    Only M a (State.cmpUnlatch t x1_) := by
  unfold State.cmpUnlatch
  extract_lets l1
  exact (Only.ite h (Only.wr h _ _ (sb rfl m) (fm rfl m)))

theorem Only.periodStart {M : Nat} {a t : State} (h : Only M a t) (x1_) (m : 0x1d425101a0000200 &&& M = 0x1d425101a0000200) :
    Only M a (State.periodStart t x1_) := by
  unfold State.periodStart
  exact (Only.foldl h fun t1 x2 h3 => (Only.ite (by
    extract_lets l4 l5
    have k6 : Only M a l4 := (Only.updCmp (Only.cmpSettle h3 _ (sb rfl m)) _ _ (sb rfl m))
    try clear_value l4
    have k7 : Only M a l5 := (Only.cmpEval k6 _ (sb rfl m))
    try clear_value l5
    exact (Only.ite (Only.cmpUnlatch k7 _ (sb rfl m)) k7)) h3))

theorem Only.cmpClear {M : Nat} {a t : State} (h : Only M a t) (x1_) (m : 0x1d425101a0000200 &&& M = 0x1d425101a0000200) :
    Only M a (State.cmpClear t x1_) := by
  unfold State.cmpClear
  exact (Only.foldl (Only.cmpLook h (sb rfl m)) fun t1 x2 h3 => (Only.ite (Only.cmpUnlatch h3 _ (sb rfl m)) h3))

theorem Only.execCmpLatchClear {M : Nat} {a t : State} (h : Only M a t) (x0_ x1_) (m : 0x1d425701a0000200 &&& M = 0x1d425701a0000200) :
    OnlyO M a (Sys2Proof.Machine.execCmpLatchClear x0_ x1_ t) := by
  unfold Sys2Proof.Machine.execCmpLatchClear
  refine OnlyO.next ?_
  exact (Only.live h (fun t1 h2 => (Only.cmpClear (Only.moveTo h2 _ (sb rfl m)) _ (sb rfl m))))

theorem Only.writeCmp {M : Nat} {a t : State} (h : Only M a t) (x1_ x2_ x3_) (m : 0x1d425101a4000200 &&& M = 0x1d425101a4000200) :
    Only M a (State.writeCmp t x1_ x2_ x3_) := by
  unfold State.writeCmp
  extract_lets l1 l2 l3
  have k4 : Only M a l1 := (Only.cmpSettle h _ (sb rfl m))
  try clear_value l1
  have k5 : Only M a l2 := (Only.updCmp k4 _ _ (sb rfl m))
  try clear_value l2
  have k6 : Only M a l3 := (Only.ite (Only.putRwi k5 _ _ _ (fm rfl m)) (Only.putRwi k5 _ _ _ (fm rfl m)))
  try clear_value l3
  exact (Only.ite (Only.refuse h _ (sb rfl m) (fm rfl m)) (Only.ite (Only.cmpSet (Only.updCmp k6 _ _ (sb rfl m)) _ _ (sb rfl m)) (Only.cmpEval k6 _ (sb rfl m))))

theorem Only.execCmpCfgWrite {M : Nat} {a t : State} (h : Only M a t) (x0_ x1_ x2_) (m : 0x1d425101a4000200 &&& M = 0x1d425101a4000200) :
    OnlyO M a (Sys2Proof.Machine.execCmpCfgWrite x0_ x1_ x2_ t) := by
  unfold Sys2Proof.Machine.execCmpCfgWrite
  refine OnlyO.next ?_
  exact (Only.live h (fun t1 h2 => (Only.writeCmp h2 _ _ _ (sb rfl m))))

theorem Only.roundCorrect {M : Nat} {a t : State} (h : Only M a t) (x1_) (m : 0x40000000000000 &&& M = 0x40000000000000) :
    Only M a (State.roundCorrect t x1_) := by
  unfold State.roundCorrect
  extract_lets l1
  exact (Only.set_adc h _ (sb rfl m))

theorem Only.burstEntry {M : Nat} {a t : State} (h : Only M a t) (x1_ x2_ x3_ x4_) (m : 0x40000024000000 &&& M = 0x40000024000000) :
    Only M a (State.burstEntry t x1_ x2_ x3_ x4_) := by
  unfold State.burstEntry
  extract_lets l1 l2 l3 l4 l5
  have k6 : Only M a l5 := (Only.ite (Only.wr h _ _ (sb rfl m) (fm rfl m)) h)
  try clear_value l5
  exact (Only.qSend k6 _ _ _ (sb rfl m))

theorem Only.burst {M : Nat} {a t : State} (h : Only M a t) (x1_ x2_ x3_ x4_) (m : 0x40000024000000 &&& M = 0x40000024000000) :
    Only M a (State.burst t x1_ x2_ x3_ x4_) := by
  induction x4_ generalizing t x3_ with
  | zero => exact h
  | succ k ih =>
    unfold State.burst
    extract_lets mask
    exact ih (Only.foldl h fun t n h => Only.ite (Only.burstEntry h _ _ _ _ (sb rfl m)) h) _

theorem Only.execTriggerFire {M : Nat} {a t : State} (h : Only M a t) (x0_ x1_ x2_) (m : 0x1d425701a4000200 &&& M = 0x1d425701a4000200) :
    OnlyO M a (Sys2Proof.Machine.execTriggerFire x0_ x1_ x2_ t) := by
  unfold Sys2Proof.Machine.execTriggerFire
  extract_lets l1 l2
  refine OnlyO.next ?_
  exact (Only.live h (fun t3 h4 => (by
    extract_lets l5 l6 l7 l8 l9 l10 l11 l12 l13 l14
    have k15 : Only M a l5 := (Only.moveTo h4 _ (sb rfl m))
    try clear_value l5
    have k16 : Only M a l7 := (Only.set_adc k15 _ (sb rfl m))
    try clear_value l7
    have k17 : Only M a l8 := (Only.openWindows (Only.periodStart k16 _ (sb rfl m)) _ (sb rfl m))
    try clear_value l8
    have k18 : Only M a l13 := (Only.set_adc k17 _ (sb rfl m))
    try clear_value l13
    have k19 : Only M a l14 := (Only.trigEvent k18 _ _ (sb rfl m))
    try clear_value l14
    exact (Only.ite k15 (Only.ite (Only.inc k16 _ _ (sb rfl m) (fm rfl m)) (Only.qRun (Only.burst k19 _ _ _ _ (sb rfl m)) _ _ (sb rfl m)))))))

theorem Only.swTrig {M : Nat} {a t : State} (h : Only M a t) (x1_) (m : 0x40000000000000 &&& M = 0x40000000000000) :
    Only M a (State.swTrig t x1_) := by
  unfold State.swTrig
  exact (Only.trigEvent h _ _ (sb rfl m))

theorem Only.execAdcSwTrig {M : Nat} {a t : State} (h : Only M a t) (x0_ x1_) (m : 0x40060000000000 &&& M = 0x40060000000000) :
    OnlyO M a (Sys2Proof.Machine.execAdcSwTrig x0_ x1_ t) := by
  unfold Sys2Proof.Machine.execAdcSwTrig
  refine OnlyO.next ?_
  exact (Only.live h (fun t1 h2 => (Only.swTrig (Only.moveTo h2 _ (sb rfl m)) _ (sb rfl m))))

theorem Only.writeChCfg {M : Nat} {a t : State} (h : Only M a t) (x1_ x2_) (m : 0xc000000 &&& M = 0xc000000) :
    Only M a (State.writeChCfg t x1_ x2_) := by
  unfold State.writeChCfg
  extract_lets l1 l2 l3 l4
  exact (Only.ite (Only.refuse h _ (sb rfl m) (fm rfl m)) (Only.putRwi h _ _ _ (fm rfl m)))

theorem Only.execAdcChCfgWrite {M : Nat} {a t : State} (h : Only M a t) (x0_ x1_) (m : 0xc000000 &&& M = 0xc000000) :
    OnlyO M a (Sys2Proof.Machine.execAdcChCfgWrite x0_ x1_ t) := by
  unfold Sys2Proof.Machine.execAdcChCfgWrite
  refine OnlyO.next ?_
  exact (Only.live h (fun t1 h2 => (Only.writeChCfg h2 _ _ (sb rfl m))))

theorem Only.writeChCal {M : Nat} {a t : State} (h : Only M a t) (x1_ x2_) (m : 0xc000000 &&& M = 0xc000000) :
    Only M a (State.writeChCal t x1_ x2_) := by
  unfold State.writeChCal
  exact (Only.ite (Only.refuse h _ (sb rfl m) (fm rfl m)) (Only.putRwi h _ _ _ (fm rfl m)))

theorem Only.execAdcChCalWrite {M : Nat} {a t : State} (h : Only M a t) (x0_ x1_) (m : 0xc000000 &&& M = 0xc000000) :
    OnlyO M a (Sys2Proof.Machine.execAdcChCalWrite x0_ x1_ t) := by
  unfold Sys2Proof.Machine.execAdcChCalWrite
  refine OnlyO.next ?_
  exact (Only.live h (fun t1 h2 => (Only.writeChCal h2 _ _ (sb rfl m))))

theorem Only.trimAll {M : Nat} {a t : State} (h : Only M a t) (m : 0x40000000000000 &&& M = 0x40000000000000) :
    Only M a (State.trimAll t) := by
  unfold State.trimAll
  extract_lets l1 l2
  exact (Only.set_adc h _ (sb rfl m))

theorem Only.writeCtlCfg {M : Nat} {a t : State} (h : Only M a t) (x1_) (m : 0x4000000 &&& M = 0x4000000) :
    Only M a (State.writeCtlCfg t x1_) := by
  unfold State.writeCtlCfg
  exact (Only.ite (Only.refuse h _ (sb rfl m) (fm rfl m)) (Only.putRw h _ _ (bm rfl m)))

theorem Only.execAdcCtlCfgWrite {M : Nat} {a t : State} (h : Only M a t) (x0_) (m : 0x4000000 &&& M = 0x4000000) :
    OnlyO M a (Sys2Proof.Machine.execAdcCtlCfgWrite x0_ t) := by
  unfold Sys2Proof.Machine.execAdcCtlCfgWrite
  refine OnlyO.next ?_
  exact (Only.live h (fun t1 h2 => (Only.writeCtlCfg h2 _ (sb rfl m))))

theorem Only.execAdcCalConverged {M : Nat} {a t : State} (h : Only M a t) (x0_) (m : 0x4000000 &&& M = 0x4000000) :
    OnlyO M a (Sys2Proof.Machine.execAdcCalConverged x0_ t) := by
  unfold Sys2Proof.Machine.execAdcCalConverged
  refine OnlyO.next ?_
  exact (Only.live h (fun t1 h2 => (Only.wr h2 _ _ (sb rfl m) (fm rfl m))))

end Sys2Proof.Machine
end

