-- ==== Sys2Proof/Laws/OnlyJoinOps.lean ====
section
/-! SUPPORT. `Only` of each function of Machine/JoinOps.lean. -/
set_option Elab.async false
namespace Sys2Proof.Machine

theorem Only.joinCounts {M : Nat} {a t : State} (h : Only M a t) (m : 0x4000 &&& M = 0x4000) :
    Only M a (State.joinCounts t) := by
  unfold State.joinCounts
  extract_lets l1
  exact (Only.wr (Only.wr (Only.wr h _ _ (sb rfl m) (fm rfl m)) _ _ (sb rfl m) (fm rfl m)) _ _ (sb rfl m) (fm rfl m))

theorem Only.askEnter {M : Nat} {a t : State} (h : Only M a t) (x1_ x2_) (m : 0x2000000000000 &&& M = 0x2000000000000) :
    Only M a (State.askEnter t x1_ x2_) := by
  unfold State.askEnter
  exact (Only.updCell h _ _ (sb rfl m))

theorem Only.enter {M : Nat} {a t : State} (h : Only M a t) (x1_ x2_) (m : 0x200000000c000 &&& M = 0x200000000c000) :
    Only M a (State.enter t x1_ x2_) := by
  unfold State.enter
  extract_lets l1 l2
  have k3 : Only M a l1 := (Only.askEnter (Only.wri h _ _ _ (fm rfl m)) _ _ (sb rfl m))
  try clear_value l1
  have k4 : Only M a l2 := (Only.ite (Only.updCell (Only.wri k3 _ _ _ (fm rfl m)) _ _ (sb rfl m)) (Only.ite (Only.updCell k3 _ _ (sb rfl m)) (Only.ite (Only.updCell k3 _ _ (sb rfl m)) k3)))
  try clear_value l2
  exact (Only.joinCounts k4 (sb rfl m))

theorem Only.spillOn {M : Nat} {a t : State} (h : Only M a t) (x1_) (m : 0x2000000008000 &&& M = 0x2000000008000) :
    Only M a (State.spillOn t x1_) := by
  unfold State.spillOn
  exact (Only.wri (Only.updCell h _ _ (sb rfl m)) _ _ _ (fm rfl m))

theorem Only.dropImage {M : Nat} {a t : State} (h : Only M a t) (x1_ x2_) (m : 0x100000000000 &&& M = 0x100000000000) :
    Only M a (State.dropImage t x1_ x2_) := by
  unfold State.dropImage
  extract_lets l1
  exact (Only.ite (Only.set_hst h _ (sb rfl m)) h)

theorem Only.endService {M : Nat} {a t : State} (h : Only M a t) (x1_ x2_ x3_ x4_) (m : 0x2100000000000 &&& M = 0x2100000000000) :
    Only M a (State.endService t x1_ x2_ x3_ x4_) := by
  unfold State.endService
  extract_lets l1 l2
  have k3 : Only M a l2 := (Only.updCell (Only.dropImage h _ _ (sb rfl m)) _ _ (sb rfl m))
  try clear_value l2
  exact (Only.foldl k3 fun t4 x5 h6 => (Only.complete h6 _ _ _ _ (sb rfl m)))

theorem Only.failJoin {M : Nat} {a t : State} (h : Only M a t) (x1_ x2_) (m : 0x2000000000000 &&& M = 0x2000000000000) :
    Only M a (State.failJoin t x1_ x2_) := by
  unfold State.failJoin
  exact (Only.ite (Only.askEnter h _ _ (sb rfl m)) h)

theorem Only.joinFail {M : Nat} {a t : State} (h : Only M a t) (x1_ x2_) (m : 0x110210000000c200 &&& M = 0x110210000000c200) :
    Only M a (State.joinFail t x1_ x2_) := by
  unfold State.joinFail
  extract_lets l1
  have k2 : Only M a l1 := (Only.enter (Only.wri h _ _ _ (fm rfl m)) _ _ (sb rfl m))
  try clear_value l1
  exact (Only.endService (Only.cellEvent (Only.spillOn k2 _ (sb rfl m)) _ _ _ _ (sb rfl m)) _ _ _ _ (sb rfl m))

theorem Only.sendAux {M : Nat} {a t : State} (h : Only M a t) (x1_ x2_ x3_) (m : 0x2000000000000 &&& M = 0x2000000000000) :
    Only M a (State.sendAux t x1_ x2_ x3_) := by
  unfold State.sendAux
  exact (Only.updCell h _ _ (sb rfl m))

theorem Only.startConfig {M : Nat} {a t : State} (h : Only M a t) (x1_) (m : 0x2000000002000 &&& M = 0x2000000002000) :
    Only M a (State.startConfig t x1_) := by
  unfold State.startConfig
  extract_lets l1
  have k2 : Only M a l1 := (Only.updCell (Only.wri h _ _ _ (fm rfl m)) _ _ (sb rfl m))
  try clear_value l1
  exact (Only.sendAux k2 _ _ _ (sb rfl m))

theorem Only.dropConfig {M : Nat} {a t : State} (h : Only M a t) (x1_) (m : 0x2000000000000 &&& M = 0x2000000000000) :
    Only M a (State.dropConfig t x1_) := by
  unfold State.dropConfig
  exact (Only.ite h (Only.updCell h _ _ (sb rfl m)))

theorem Only.sendCfg {M : Nat} {a t : State} (h : Only M a t) (x1_) (m : 0x2000000000000 &&& M = 0x2000000000000) :
    Only M a (State.sendCfg t x1_) := by
  unfold State.sendCfg
  exact (Only.ite (Only.sendAux (Only.updCell h _ _ (sb rfl m)) _ _ _ (sb rfl m)) (Only.failJoin h _ _ (sb rfl m)))

theorem Only.sendCal {M : Nat} {a t : State} (h : Only M a t) (x1_) (m : 0x2000000000000 &&& M = 0x2000000000000) :
    Only M a (State.sendCal t x1_) := by
  unfold State.sendCal
  exact (Only.ite (Only.sendAux h _ _ _ (sb rfl m)) (Only.failJoin h _ _ (sb rfl m)))

theorem Only.startVerify {M : Nat} {a t : State} (h : Only M a t) (x1_) (m : 0x200000000c000 &&& M = 0x200000000c000) :
    Only M a (State.startVerify t x1_) := by
  unfold State.startVerify
  exact (Only.updCell (Only.enter h _ _ (sb rfl m)) _ _ (sb rfl m))

theorem Only.linked {M : Nat} {a t : State} (h : Only M a t) (x1_) (m : 0x82000800002000 &&& M = 0x82000800002000) :
    Only M a (State.linked t x1_) := by
  unfold State.linked
  exact (Only.askEnter (Only.bookGap (Only.wri h _ _ _ (fm rfl m)) _ (sb rfl m)) _ _ (sb rfl m))

theorem Only.linkedOn {M : Nat} {a t : State} (h : Only M a t) (x1_) (m : 0x200000000c000 &&& M = 0x200000000c000) :
    Only M a (State.linkedOn t x1_) := by
  unfold State.linkedOn
  exact (Only.ite h (Only.ite (Only.enter h _ _ (sb rfl m)) (Only.startVerify h _ (sb rfl m))))

theorem Only.ident {M : Nat} {a t : State} (h : Only M a t) (x1_ x2_) (m : 0x1982100800008200 &&& M = 0x1982100800008200) :
    Only M a (State.ident t x1_ x2_) := by
  unfold State.ident
  extract_lets l1 l2
  have k3 : Only M a l1 := (Only.meterNewNode (Only.updCell h _ _ (sb rfl m)) _ _ (sb rfl m))
  try clear_value l1
  have k4 : Only M a l2 := (Only.ite h (Only.cellEvent k3 _ _ _ _ (sb rfl m)))
  try clear_value l2
  exact (Only.sendCfg k4 _ (sb rfl m))

theorem Only.auxGood {M : Nat} {a t : State} (h : Only M a t) (x1_ x2_) (m : 0x82000800002000 &&& M = 0x82000800002000) :
    Only M a (State.auxGood t x1_ x2_) := by
  unfold State.auxGood
  extract_lets l1
  have k2 : Only M a l1 := (Only.updCell h _ _ (sb rfl m))
  try clear_value l1
  exact (Only.ite (Only.sendCal k2 _ (sb rfl m)) (Only.ite (Only.linked k2 _ (sb rfl m)) k2))

theorem Only.auxBad {M : Nat} {a t : State} (h : Only M a t) (x1_) (m : 0x2000000000000 &&& M = 0x2000000000000) :
    Only M a (State.auxBad t x1_) := by
  unfold State.auxBad
  extract_lets l1 l2
  have k3 : Only M a l2 := (Only.updCell h _ _ (sb rfl m))
  try clear_value l2
  exact (Only.ite (Only.failJoin (Only.updCell k3 _ _ (sb rfl m)) _ _ (sb rfl m)) k3)

theorem Only.auxReply {M : Nat} {a t : State} (h : Only M a t) (x1_ x2_) (m : 0x1982100800008200 &&& M = 0x1982100800008200) :
    Only M a (State.auxReply t x1_ x2_) := by
  unfold State.auxReply
  extract_lets l1 l2 l3
  have k4 : Only M a l2 := (Only.updCell h _ _ (sb rfl m))
  try clear_value l2
  exact (Only.ite (Only.auxBad h _ (sb rfl m)) (Only.ite (Only.ident k4 _ _ (sb rfl m)) (Only.ite (Only.endService k4 _ _ _ _ (sb rfl m)) k4)))

theorem Only.auxIn {M : Nat} {a t : State} (h : Only M a t) (x1_ x2_) (m : 0x198210080000a200 &&& M = 0x198210080000a200) :
    Only M a (State.auxIn t x1_ x2_) := by
  unfold State.auxIn
  extract_lets l1 l2 l3 l4 l5 l6 l7
  have k8 : Only M a l2 := (Only.updCell h _ _ (sb rfl m))
  try clear_value l2
  have k9 : Only M a l4 := (Only.updCell k8 _ _ (sb rfl m))
  try clear_value l4
  have k10 : Only M a l7 := (Only.updCell h _ _ (sb rfl m))
  try clear_value l7
  exact (Only.ite (Only.ite (Only.ite (Only.auxReply k9 _ _ (sb rfl m)) k9) k8) (Only.ite (Only.ite k10 (Only.auxGood k10 _ _ (sb rfl m))) (Only.ite (Only.auxBad k10 _ (sb rfl m)) k10)))

theorem Only.declareLost {M : Nat} {a t : State} (h : Only M a t) (x1_) (m : 0x194250092000e200 &&& M = 0x194250092000e200) :
    Only M a (State.declareLost t x1_) := by
  unfold State.declareLost
  extract_lets l1 l2 l3 l4 l5
  have k6 : Only M a l2 := (Only.openGap (Only.wri (Only.cellLoss h _ (sb rfl m)) _ _ _ (fm rfl m)) _ (sb rfl m))
  try clear_value l2
  have k7 : Only M a l3 := (Only.updCell k6 _ _ (sb rfl m))
  try clear_value l3
  have k8 : Only M a l4 := (Only.updCell k7 _ _ (sb rfl m))
  try clear_value l4
  have k9 : Only M a l5 := (Only.cellEvent (Only.spillOn (Only.enter k8 _ _ (sb rfl m)) _ (sb rfl m)) _ _ _ _ (sb rfl m))
  try clear_value l5
  exact (Only.ite k7 (Only.endService (Only.endService (Only.endService k9 _ _ _ _ (sb rfl m)) _ _ _ _ (sb rfl m)) _ _ _ _ (sb rfl m)))

end Sys2Proof.Machine
end

