-- ==== Sys2Proof/Laws/OnlyRating.lean ====
section
/-! SUPPORT. `Only` of each function of Machine/Rating.lean. -/
set_option Elab.async false
namespace Sys2Proof.Machine

theorem Only.rwsIgnored {M : Nat} {a t : State} (h : Only M a t) (x1_ x2_ x3_ x4_) (m : 0x1100100000000200 &&& M = 0x1100100000000200) (f1 : inM M x4_ = true) :
    Only M a (State.rwsIgnored t x1_ x2_ x3_ x4_) := by
  unfold State.rwsIgnored
  exact (Only.ite (Only.configRefused (Only.refuse h _ (sb rfl m) f1) _ _ _ (sb rfl m)) h)

theorem Only.formHeadroom {M : Nat} {a t : State} (h : Only M a t) (m : 0x20000000010000 &&& M = 0x20000000010000) :
    Only M a (State.formHeadroom t) := by
  unfold State.formHeadroom
  extract_lets l1 l2 l3 l4 l5
  have k6 : Only M a l4 := (Only.wr h _ _ (sb rfl m) (fm rfl m))
  try clear_value l4
  exact (Only.set_sched k6 _ (sb rfl m))

theorem Only.setRow {M : Nat} {a t : State} (h : Only M a t) (x1_) (m : 0x1942500120010200 &&& M = 0x1942500120010200) :
    Only M a (State.setRow t x1_) := by
  unfold State.setRow
  extract_lets l1 l2 l3
  have k4 : Only M a l2 := (Only.wr (Only.wr (Only.wr h _ _ (sb rfl m) (fm rfl m)) _ _ (sb rfl m) (fm rfl m)) _ _ (sb rfl m) (fm rfl m))
  try clear_value l2
  have k5 : Only M a l3 := (Only.post k4 _ _ (sb rfl m))
  try clear_value l3
  exact (Only.ite (Only.actScope k5 _ _ _ _ _ (sb rfl m) (by decide)) k5)

theorem Only.execDerateRowDown {M : Nat} {a t : State} (h : Only M a t) (x0_) (m : 0x1962560120010200 &&& M = 0x1962560120010200) :
    OnlyO M a (Sys2Proof.Machine.execDerateRowDown x0_ t) := by
  unfold Sys2Proof.Machine.execDerateRowDown
  refine OnlyO.next ?_
  exact (Only.live h (fun t1 h2 => (by
    extract_lets l3 l4
    have k5 : Only M a l3 := (Only.moveTo h2 _ (sb rfl m))
    try clear_value l3
    split
    · exact (Only.ite (Only.setRow (Only.set_sched k5 _ (sb rfl m)) _ (sb rfl m)) k5)
    · exact k5)))

theorem Only.execDerateRowUp {M : Nat} {a t : State} (h : Only M a t) (x0_) (m : 0x1942560120010200 &&& M = 0x1942560120010200) :
    OnlyO M a (Sys2Proof.Machine.execDerateRowUp x0_ t) := by
  unfold Sys2Proof.Machine.execDerateRowUp
  refine OnlyO.next ?_
  exact (Only.live h (fun t1 h2 => (by
    extract_lets l3
    have k4 : Only M a l3 := (Only.moveTo h2 _ (sb rfl m))
    try clear_value l3
    split
    · exact (Only.ite (Only.setRow k4 _ (sb rfl m)) k4)
    · exact k4)))

theorem Only.writeRating {M : Nat} {a t : State} (h : Only M a t) (x1_ x2_ x3_) (m : 0x1100100000010200 &&& M = 0x1100100000010200) :
    Only M a (State.writeRating t x1_ x2_ x3_) := by
  unfold State.writeRating
  extract_lets l1 l2
  have q3 : inM M l1 = true := by unfold l1; (repeat' split) <;> exact fm rfl m
  exact (Only.ite (Only.rwsIgnored h _ _ _ _ (sb rfl m) (fm rfl m)) (Only.ite (Only.refuse h _ (sb rfl m) (fm rfl m)) (Only.putRwi h _ _ _ q3)))

theorem Only.execHgsPlantRatingWrite {M : Nat} {a t : State} (h : Only M a t) (x0_ x1_ x2_) (m : 0x1100100000010200 &&& M = 0x1100100000010200) :
    OnlyO M a (Sys2Proof.Machine.execHgsPlantRatingWrite x0_ x1_ x2_ t) := by
  unfold Sys2Proof.Machine.execHgsPlantRatingWrite
  refine OnlyO.next ?_
  exact (Only.live h (fun t1 h2 => (Only.writeRating h2 _ _ _ (sb rfl m))))

end Sys2Proof.Machine
end

