-- ==== Sys2Proof/Laws/OnlyScheduler.lean ====
section
/-! SUPPORT. `Only` of each function of Machine/Scheduler.lean. -/
set_option Elab.async false
namespace Sys2Proof.Machine

theorem Only.decideTick {M : Nat} {a t : State} (h : Only M a t) (m : 0x22000000000000 &&& M = 0x22000000000000) :
    Only M a (State.decideTick t) := by
  unfold State.decideTick
  extract_lets l1 l2 l3 l4 l5 l6 l7
  have k11 : Only M a l6 := (Only.foldl h fun t8 x9 h10 => (Only.updCell h10 _ _ (sb rfl m)))
  try clear_value l6
  exact (Only.set_sched k11 _ (sb rfl m))

theorem Only.dropPlan {M : Nat} {a t : State} (h : Only M a t) (m : 0x22000000000000 &&& M = 0x22000000000000) :
    Only M a (State.dropPlan t) := by
  unfold State.dropPlan
  extract_lets l1 l2
  have k3 : Only M a l1 := (Only.mapCells h _ (sb rfl m))
  try clear_value l1
  exact (Only.set_sched k3 _ (sb rfl m))

theorem Only.commitPhase {M : Nat} {a t : State} (h : Only M a t) (x1_ x2_) (m : 0x10000 &&& M = 0x10000) :
    Only M a (State.commitPhase t x1_ x2_) := by
  unfold State.commitPhase
  extract_lets l1 l2
  have k3 : Only M a l1 := (Only.wri (Only.wri (Only.wri h _ _ _ (fm rfl m)) _ _ _ (fm rfl m)) _ _ _ (fm rfl m))
  try clear_value l1
  have k4 : Only M a l2 := (Only.wri (Only.wri k3 _ _ _ (fm rfl m)) _ _ _ (fm rfl m))
  try clear_value l2
  exact (Only.ite (Only.inci k4 _ _ _ (sb rfl m) (fm rfl m)) k4)

theorem Only.commitCell {M : Nat} {a t : State} (h : Only M a t) (x1_) (m : 0x2000000020000 &&& M = 0x2000000020000) :
    Only M a (State.commitCell t x1_) := by
  unfold State.commitCell
  extract_lets l1 l2 l3
  have k4 : Only M a l2 := (Only.wri h _ _ _ (fm rfl m))
  try clear_value l2
  split
  · exact h
  · extract_lets l10
    have k11 : Only M a l10 := (Only.setCell k4 _ _ (sb rfl m))
    try clear_value l10
    exact (Only.wri (Only.wri (Only.wri (Only.wri k11 _ _ _ (fm rfl m)) _ _ _ (fm rfl m)) _ _ _ (fm rfl m)) _ _ _ (fm rfl m))

theorem Only.faultCell {M : Nat} {a t : State} (h : Only M a t) (x1_) (m : 0x110210000002c200 &&& M = 0x110210000002c200) :
    Only M a (State.faultCell t x1_) := by
  unfold State.faultCell
  extract_lets l1 l2 l3 l4 l5
  have k6 : Only M a l3 := (Only.updCell h _ _ (sb rfl m))
  try clear_value l3
  have k7 : Only M a l4 := (Only.dropConfig (Only.spillOn (Only.enter k6 _ _ (sb rfl m)) _ (sb rfl m)) _ (sb rfl m))
  try clear_value l4
  have k8 : Only M a l5 := (Only.cellEvent (Only.wri k7 _ _ _ (fm rfl m)) _ _ _ _ (sb rfl m))
  try clear_value l5
  exact (Only.ite k6 (Only.endService (Only.endService k8 _ _ _ _ (sb rfl m)) _ _ _ _ (sb rfl m)))

theorem Only.commitDecision {M : Nat} {a t : State} (h : Only M a t) (m : 0x112210000003c200 &&& M = 0x112210000003c200) :
    Only M a (State.commitDecision t) := by
  unfold State.commitDecision
  split
  · exact h
  · extract_lets l6 l7 l8 l9 l10 l11
    have k15 : Only M a l6 := (Only.foldl h fun t12 x13 h14 => (Only.commitPhase h14 _ _ (sb rfl m)))
    try clear_value l6
    have k21 : Only M a l7 := (by
      unfold l7
      split
      · exact (Only.wr (Only.wr k15 _ _ (sb rfl m) (fm rfl m)) _ _ (sb rfl m) (fm rfl m))
      · exact k15)
    try clear_value l7
    have k25 : Only M a l8 := (Only.foldl k21 fun t22 x23 h24 => (Only.commitCell h24 _ (sb rfl m)))
    try clear_value l8
    have k29 : Only M a l9 := (Only.foldl k25 fun t26 x27 h28 => (Only.faultCell h28 _ (sb rfl m)))
    try clear_value l9
    have k30 : Only M a l10 := (Only.phaseCounts k29 (sb rfl m))
    try clear_value l10
    exact (Only.set_sched k30 _ (sb rfl m))

theorem Only.hgsSwap {M : Nat} {a t : State} (h : Only M a t) (m : 0x20000010000 &&& M = 0x20000010000) :
    Only M a (State.hgsSwap t) := by
  unfold State.hgsSwap
  exact (Only.ite h (Only.askAt (Only.wr h _ _ (sb rfl m) (fm rfl m)) _ (sb rfl m)))

theorem Only.hgsApply {M : Nat} {a t : State} (h : Only M a t) (m : 0x10000 &&& M = 0x10000) :
    Only M a (State.hgsApply t) := by
  unfold State.hgsApply
  exact (Only.ite (Only.wr (Only.wr (Only.activateAll h _ (fms rfl m)) _ _ (sb rfl m) (fm rfl m)) _ _ (sb rfl m) (fm rfl m)) h)

theorem Only.execHgsTableSwap {M : Nat} {a t : State} (h : Only M a t) (m : 0x20000010000 &&& M = 0x20000010000) :
    OnlyO M a (Sys2Proof.Machine.execHgsTableSwap t) := by
  unfold Sys2Proof.Machine.execHgsTableSwap
  refine OnlyO.next ?_
  exact (Only.live h (fun t1 h2 => (Only.hgsSwap h2 (sb rfl m))))

theorem Only.execHgsSwapApply {M : Nat} {a t : State} (h : Only M a t) (m : 0x10000 &&& M = 0x10000) :
    OnlyO M a (Sys2Proof.Machine.execHgsSwapApply t) := by
  unfold Sys2Proof.Machine.execHgsSwapApply
  refine OnlyO.next ?_
  exact (Only.live h (fun t1 h2 => (Only.ite (Only.hgsApply h2 (sb rfl m)) h2)))

end Sys2Proof.Machine
end

