-- ==== Sys2Proof/Laws/OnlyLaw.lean ====
section
/-! SUPPORT. `Only` of each function of Machine/Law.lean. -/
set_option Elab.async false
namespace Sys2Proof.Machine

theorem Only.onLaw {M : Nat} {a t : State} (h : Only M a t) (x1_) (m : 0xc000000000000 &&& M = 0xc000000000000) :
    Only M a (State.onLaw t x1_) := by
  unfold State.onLaw
  exact (Only.set_law_lawC h _ (sb rfl m) _ (sb rfl m))

theorem Only.bind {M : Nat} {a t : State} (h : Only M a t) (x1_) (m : 0x200000000000 &&& M = 0x200000000000) :
    Only M a (State.bind t x1_) := by
  unfold State.bind
  extract_lets l1
  exact (Only.set_tri h _ (sb rfl m))

theorem Only.s1Wri {M : Nat} {a t : State} (h : Only M a t) (x1_ x2_ x3_) (m : 0x200000000000 &&& M = 0x200000000000) (f1 : inM M x1_ = true) :
    Only M a (State.s1Wri t x1_ x2_ x3_) := by
  unfold State.s1Wri
  exact (Only.ite (Only.bind h _ (sb rfl m)) (Only.wri h _ _ _ f1))

theorem Only.s1Wr {M : Nat} {a t : State} (h : Only M a t) (x1_ x2_) (m : 0x200000000000 &&& M = 0x200000000000) (f1 : inM M x1_ = true) :
    Only M a (State.s1Wr t x1_ x2_) := by
  unfold State.s1Wr
  exact (Only.s1Wri h _ _ _ (sb rfl m) f1)

theorem Only.s1Inc {M : Nat} {a t : State} (h : Only M a t) (x1_ x2_) (m : 0x200000000000 &&& M = 0x200000000000) (f1 : inM M x1_ = true) :
    Only M a (State.s1Inc t x1_ x2_) := by
  unfold State.s1Inc
  exact (Only.ite (Only.bind h _ (sb rfl m)) (Only.inci h _ _ _ (sb rfl m) f1))

theorem Only.s1Post {M : Nat} {a t : State} (h : Only M a t) (x1_ x2_) (m : 0x1100300000000200 &&& M = 0x1100300000000200) :
    Only M a (State.s1Post t x1_ x2_) := by
  unfold State.s1Post
  exact (Only.ite (Only.bind h _ (sb rfl m)) (Only.post h _ _ (sb rfl m)))

end Sys2Proof.Machine
end

