-- ==== Sys2Proof/Laws/OnlySync.lean ====
section
/-! SUPPORT. `Only` of each function of Machine/Sync.lean. -/
set_option Elab.async false
namespace Sys2Proof.Machine

theorem Only.track {M : Nat} {a t : State} (h : Only M a t) (m : 0x110c300000080200 &&& M = 0x110c300000080200) :
    Only M a (State.track t) := by
  unfold State.track
  extract_lets l1 l2 l3 l4 l5
  have k6 : Only M a l1 := (Only.onLaw h _ (sb rfl m))
  try clear_value l1
  have k7 : Only M a l3 := (Only.s1Wr (Only.s1Wr k6 _ _ (sb rfl m) (fm rfl m)) _ _ (sb rfl m) (fm rfl m))
  try clear_value l3
  have k8 : Only M a l4 := (Only.s1Wr (Only.s1Wr k7 _ _ (sb rfl m) (fm rfl m)) _ _ (sb rfl m) (fm rfl m))
  try clear_value l4
  have k9 : Only M a l5 := (Only.s1Wr k8 _ _ (sb rfl m) (fm rfl m))
  try clear_value l5
  exact (Only.ite (Only.s1Post (Only.s1Wr k9 _ _ (sb rfl m) (fm rfl m)) _ _ (sb rfl m)) k9)

theorem Only.setLocked {M : Nat} {a t : State} (h : Only M a t) (x1_) (m : 0xc200000080000 &&& M = 0xc200000080000) :
    Only M a (State.setLocked t x1_) := by
  unfold State.setLocked
  exact (Only.s1Wr (Only.onLaw h _ (sb rfl m)) _ _ (sb rfl m) (fm rfl m))

theorem Only.execLockAcquired {M : Nat} {a t : State} (h : Only M a t) (m : 0xc200000080000 &&& M = 0xc200000080000) :
    OnlyO M a (Sys2Proof.Machine.execLockAcquired t) := by
  unfold Sys2Proof.Machine.execLockAcquired
  refine OnlyO.next ?_
  exact (Only.live h (fun t1 h2 => (Only.ite (Only.setLocked h2 _ (sb rfl m)) h2)))

theorem Only.execLockLost {M : Nat} {a t : State} (h : Only M a t) (m : 0xc200000080000 &&& M = 0xc200000080000) :
    OnlyO M a (Sys2Proof.Machine.execLockLost t) := by
  unfold Sys2Proof.Machine.execLockLost
  refine OnlyO.next ?_
  exact (Only.live h (fun t1 h2 => (Only.ite (Only.setLocked h2 _ (sb rfl m)) h2)))

theorem Only.hostQuantity {M : Nat} {a t : State} (h : Only M a t) (x1_ x2_) (m : 0x1110100000080200 &&& M = 0x1110100000080200) :
    Only M a (State.hostQuantity t x1_ x2_) := by
  unfold State.hostQuantity
  split
  · exact h
  · extract_lets l7 l8
    have k12 : Only M a l7 := (Only.foldl h fun t9 x10 h11 => (Only.post (Only.inc h11 _ _ (sb rfl m) (fm rfl m)) _ _ (sb rfl m)))
    try clear_value l7
    exact (Only.ite (Only.set_sp k12 _ (sb rfl m)) (Only.set_sp k12 _ (sb rfl m)))

theorem Only.arbRecord {M : Nat} {a t : State} (h : Only M a t) (x1_ x2_ x3_ x4_) (m : 0x1100100000080200 &&& M = 0x1100100000080200) :
    Only M a (State.arbRecord t x1_ x2_ x3_ x4_) := by
  unfold State.arbRecord
  extract_lets l1 l2 l3
  split
  · exact (Only.ite (Only.post (Only.inc h _ _ (sb rfl m) (fm rfl m)) _ _ (sb rfl m)) h)
  · exact h

theorem Only.applySetpoints {M : Nat} {a t : State} (h : Only M a t) (m : 0x1910100000080200 &&& M = 0x1910100000080200) :
    Only M a (State.applySetpoints t) := by
  unfold State.applySetpoints
  extract_lets l1 l2 l3 l4 l5 l6 l7 l8 l9 l10 l11 l12 l13 l14
  have k18 : Only M a l5 := (Only.foldl h fun t15 x16 h17 => (Only.hostQuantity h17 _ _ (sb rfl m)))
  try clear_value l5
  have k24 : Only M a l7 := (by
    unfold l7
    split
    · exact (Only.set_sp k18 _ (sb rfl m))
    · exact k18)
  try clear_value l7
  have k28 : Only M a l9 := (Only.foldl k24 fun t25 x26 h27 => (Only.arbRecord h27 _ _ _ _ (sb rfl m)))
  try clear_value l9
  have k29 : Only M a l10 := (Only.wr (Only.wr k28 _ _ (sb rfl m) (fm rfl m)) _ _ (sb rfl m) (fm rfl m))
  try clear_value l10
  have k30 : Only M a l11 := (Only.wr k29 _ _ (sb rfl m) (fm rfl m))
  try clear_value l11
  have k34 : Only M a l12 := (Only.foldl k30 fun t31 x32 h33 => (Only.noticeOpen h33 _ (sb rfl m)))
  try clear_value l12
  have k38 : Only M a l13 := (Only.foldl k34 fun t35 x36 h37 => (Only.completeAtTend h37 _ _ _ (sb rfl m)))
  try clear_value l13
  exact (Only.ite h (Only.set_sp k38 _ (sb rfl m)))

theorem Only.execSetpoint {M : Nat} {a t : State} (h : Only M a t) (x0_ x1_) (m : 0x1112100000000700 &&& M = 0x1112100000000700) :
    OnlyO M a (Sys2Proof.Machine.execSetpoint x0_ x1_ t) := by
  unfold Sys2Proof.Machine.execSetpoint
  refine OnlyO.next ?_
  exact (Only.live h (fun t1 h2 => (Only.runDesc h2 _ _ _ (sb rfl m) (fun t3 t4 h5 => (Only.ite (Only.complete h5 _ _ _ _ (sb rfl m)) (Only.set_sp h5 _ (sb rfl m)))))))

theorem Only.supTo {M : Nat} {a t : State} (h : Only M a t) (x1_) (m : 0xc200000100000 &&& M = 0xc200000100000) :
    Only M a (State.supTo t x1_) := by
  unfold State.supTo
  exact (Only.s1Wr (Only.onLaw h _ (sb rfl m)) _ _ (sb rfl m) (fm rfl m))

theorem Only.enterEvent {M : Nat} {a t : State} (h : Only M a t) (m : 0x114c300020100200 &&& M = 0x114c300020100200) :
    Only M a (State.enterEvent t) := by
  unfold State.enterEvent
  extract_lets l1 l2
  have k3 : Only M a l1 := (Only.supTo h _ (sb rfl m))
  try clear_value l1
  have k4 : Only M a l2 := (Only.onLaw k3 _ (sb rfl m))
  try clear_value l2
  exact (Only.captureEvent (Only.s1Post (Only.s1Inc k4 _ _ (sb rfl m) (fm rfl m)) _ _ (sb rfl m)) _ (sb rfl m))

theorem Only.eventTest {M : Nat} {a t : State} (h : Only M a t) (m : 0x114c300020100200 &&& M = 0x114c300020100200) :
    Only M a (State.eventTest t) := by
  unfold State.eventTest
  exact (Only.ite (Only.enterEvent h (sb rfl m)) h)

theorem Only.stageTimers {M : Nat} {a t : State} (h : Only M a t) (m : 0xc000000000000 &&& M = 0xc000000000000) :
    Only M a (State.stageTimers t) := by
  unfold State.stageTimers
  exact (Only.foldl h fun t1 x2 h3 => (by
    extract_lets l4 l5 l6 l7
    exact (Only.onLaw h3 _ (sb rfl m))))

theorem Only.enterTrack {M : Nat} {a t : State} (h : Only M a t) (m : 0xc200000100000 &&& M = 0xc200000100000) :
    Only M a (State.enterTrack t) := by
  unfold State.enterTrack
  extract_lets l1 l2 l3 l4
  have k5 : Only M a l4 := (Only.onLaw h _ (sb rfl m))
  try clear_value l4
  exact (Only.ite (Only.s1Wr k5 _ _ (sb rfl m) (fm rfl m)) k5)

theorem Only.supervise {M : Nat} {a t : State} (h : Only M a t) (m : 0x114c300020100200 &&& M = 0x114c300020100200) :
    Only M a (State.supervise t) := by
  unfold State.supervise
  extract_lets l1 l2 l3 l4 l5 l6 l7
  have k8 : Only M a l1 := (Only.enterTrack h (sb rfl m))
  try clear_value l1
  have k9 : Only M a l2 := (Only.stageTimers k8 (sb rfl m))
  try clear_value l2
  have k10 : Only M a l3 := (Only.onLaw k9 _ (sb rfl m))
  try clear_value l3
  have k11 : Only M a l4 := (Only.supTo k10 _ (sb rfl m))
  try clear_value l4
  have k12 : Only M a l5 := (Only.onLaw k11 _ (sb rfl m))
  try clear_value l5
  have k13 : Only M a l7 := (Only.supTo (Only.onLaw k10 _ (sb rfl m)) _ (sb rfl m))
  try clear_value l7
  exact (Only.ite k8 (Only.ite k10 (Only.ite (Only.ite (Only.eventTest k12 (sb rfl m)) k10) (Only.ite (Only.s1Post k13 _ _ (sb rfl m)) (Only.ite (Only.onLaw k10 _ (sb rfl m)) (Only.eventTest k10 (sb rfl m)))))))

theorem Only.execRecoveryEntry {M : Nat} {a t : State} (h : Only M a t) (m : 0xc200000100000 &&& M = 0xc200000100000) :
    OnlyO M a (Sys2Proof.Machine.execRecoveryEntry t) := by
  unfold Sys2Proof.Machine.execRecoveryEntry
  refine OnlyO.next ?_
  exact (Only.live h (fun t1 h2 => (Only.ite (Only.supTo (Only.onLaw h2 _ (sb rfl m)) _ (sb rfl m)) h2)))

theorem Only.enterTripped {M : Nat} {a t : State} (h : Only M a t) (m : 0xc200000100000 &&& M = 0xc200000100000) :
    Only M a (State.enterTripped t) := by
  unfold State.enterTripped
  extract_lets l1 l2 l3
  have k4 : Only M a l2 := (Only.set_law_lawC h _ (sb rfl m) _ (sb rfl m))
  try clear_value l2
  have k5 : Only M a l3 := (Only.ite (Only.bind k4 _ (sb rfl m)) k4)
  try clear_value l3
  exact (Only.wr k5 _ _ (sb rfl m) (fm rfl m))

theorem Only.execTripCurveExpiry {M : Nat} {a t : State} (h : Only M a t) (x0_ x1_ x2_) (m : 0x194e760120100200 &&& M = 0x194e760120100200) :
    OnlyO M a (Sys2Proof.Machine.execTripCurveExpiry x0_ x1_ x2_ t) := by
  unfold Sys2Proof.Machine.execTripCurveExpiry
  extract_lets l1 l2
  refine OnlyO.next ?_
  exact (Only.live h (fun t3 h4 => (by
    extract_lets l5 l6 l7 l8
    have k9 : Only M a l5 := (Only.moveTo h4 _ (sb rfl m))
    try clear_value l5
    have k10 : Only M a l6 := (Only.enterTripped k9 (sb rfl m))
    try clear_value l6
    have k11 : Only M a l7 := (Only.wr (Only.wr k10 _ _ (sb rfl m) (fm rfl m)) _ _ (sb rfl m) (fm rfl m))
    try clear_value l7
    have k12 : Only M a l8 := (Only.post k11 _ _ (sb rfl m))
    try clear_value l8
    exact (Only.ite (Only.actScope k12 _ _ _ _ _ (sb rfl m) (by decide)) k9))))

theorem Only.execEnterServiceQualified {M : Nat} {a t : State} (h : Only M a t) (m : 0xc200000100000 &&& M = 0xc200000100000) :
    OnlyO M a (Sys2Proof.Machine.execEnterServiceQualified t) := by
  unfold Sys2Proof.Machine.execEnterServiceQualified
  refine OnlyO.next ?_
  exact (Only.live h (fun t1 h2 => (Only.ite (Only.s1Wr (Only.onLaw h2 _ (sb rfl m)) _ _ (sb rfl m) (fm rfl m)) h2)))

theorem Only.writePllCfg {M : Nat} {a t : State} (h : Only M a t) (x1_) (m : 0x80000 &&& M = 0x80000) :
    Only M a (State.writePllCfg t x1_) := by
  unfold State.writePllCfg
  exact (Only.ite (Only.refuse h _ (sb rfl m) (fm rfl m)) (Only.ite (Only.refuse h _ (sb rfl m) (fm rfl m)) (Only.activate (Only.putRw h _ _ (bm rfl m)) _ _ (fm rfl m))))

theorem Only.execSyncPllCfgWrite {M : Nat} {a t : State} (h : Only M a t) (x0_) (m : 0x80000 &&& M = 0x80000) :
    OnlyO M a (Sys2Proof.Machine.execSyncPllCfgWrite x0_ t) := by
  unfold Sys2Proof.Machine.execSyncPllCfgWrite
  refine OnlyO.next ?_
  exact (Only.live h (fun t1 h2 => (Only.writePllCfg h2 _ (sb rfl m))))

theorem Only.writeSyncMode {M : Nat} {a t : State} (h : Only M a t) (x1_ x2_) (m : 0x1100100000080200 &&& M = 0x1100100000080200) :
    Only M a (State.writeSyncMode t x1_ x2_) := by
  unfold State.writeSyncMode
  exact (Only.ite (Only.refuse h _ (sb rfl m) (fm rfl m)) (Only.ite (Only.configRefused (Only.refuse h _ (sb rfl m) (fm rfl m)) _ _ _ (sb rfl m)) (Only.putRw h _ _ (bm rfl m))))

theorem Only.execSyncModeWrite {M : Nat} {a t : State} (h : Only M a t) (x0_ x1_) (m : 0x1100100000080200 &&& M = 0x1100100000080200) :
    OnlyO M a (Sys2Proof.Machine.execSyncModeWrite x0_ x1_ t) := by
  unfold Sys2Proof.Machine.execSyncModeWrite
  refine OnlyO.next ?_
  exact (Only.live h (fun t1 h2 => (Only.writeSyncMode h2 _ _ (sb rfl m))))

theorem Only.execGfmTransfer {M : Nat} {a t : State} (h : Only M a t) (m : 0xc000000080000 &&& M = 0xc000000080000) :
    OnlyO M a (Sys2Proof.Machine.execGfmTransfer t) := by
  unfold Sys2Proof.Machine.execGfmTransfer
  refine OnlyO.next ?_
  exact (Only.live h (fun t1 h2 => (by
    extract_lets l3
    exact (Only.ite (Only.setForming h2 _ (sb rfl m)) h2))))

theorem Only.frtSwap {M : Nat} {a t : State} (h : Only M a t) (x1_ x2_) (m : 0x1100120000180200 &&& M = 0x1100120000180200) :
    Only M a (State.frtSwap t x1_ x2_) := by
  unfold State.frtSwap
  exact (Only.ite h (Only.ite (Only.askAt (Only.wr h _ _ (sb rfl m) (fm rfl m)) _ (sb rfl m)) (Only.configRefused (Only.refuse h _ (sb rfl m) (fm rfl m)) _ _ _ (sb rfl m))))

theorem Only.frtApply {M : Nat} {a t : State} (h : Only M a t) (m : 0x180000 &&& M = 0x180000) :
    Only M a (State.frtApply t) := by
  unfold State.frtApply
  extract_lets l1
  have k2 : Only M a l1 := (Only.wr (Only.wr (Only.activateAll h _ (fms rfl m)) _ _ (sb rfl m) (fm rfl m)) _ _ (sb rfl m) (fm rfl m))
  try clear_value l1
  exact (Only.ite (Only.wr k2 _ _ (sb rfl m) (fm rfl m)) h)

theorem Only.execFrtTableSwap {M : Nat} {a t : State} (h : Only M a t) (x0_) (m : 0x1100120000180200 &&& M = 0x1100120000180200) :
    OnlyO M a (Sys2Proof.Machine.execFrtTableSwap x0_ t) := by
  unfold Sys2Proof.Machine.execFrtTableSwap
  refine OnlyO.next ?_
  exact (Only.live h (fun t1 h2 => (Only.frtSwap h2 _ _ (sb rfl m))))

theorem Only.execFrtSwapApply {M : Nat} {a t : State} (h : Only M a t) (m : 0x180000 &&& M = 0x180000) :
    OnlyO M a (Sys2Proof.Machine.execFrtSwapApply t) := by
  unfold Sys2Proof.Machine.execFrtSwapApply
  refine OnlyO.next ?_
  exact (Only.live h (fun t1 h2 => (Only.ite (Only.frtApply h2 (sb rfl m)) h2)))

end Sys2Proof.Machine
end

