-- ==== Sys2Proof/Laws/OnlyMirage.lean ====
section
/-! SUPPORT. `Only` of each function of Machine/Mirage.lean. -/
set_option Elab.async false
namespace Sys2Proof.Machine

theorem Only.declareIsland {M : Nat} {a t : State} (h : Only M a t) (x1_) (m : 0x194e700120300200 &&& M = 0x194e700120300200) :
    Only M a (State.declareIsland t x1_) := by
  unfold State.declareIsland
  extract_lets l1 l2 l3 l4 l5 l6
  have k7 : Only M a l1 := (Only.wr (Only.wr h _ _ (sb rfl m) (fm rfl m)) _ _ (sb rfl m) (fm rfl m))
  try clear_value l1
  have k8 : Only M a l2 := (Only.post k7 _ _ (sb rfl m))
  try clear_value l2
  have k9 : Only M a l4 := (Only.set_law_lawC k8 _ (sb rfl m) _ (sb rfl m))
  try clear_value l4
  have k10 : Only M a l6 := (Only.post (Only.enterTripped k9 (sb rfl m)) _ _ (sb rfl m))
  try clear_value l6
  exact (Only.ite h (Only.ite (Only.set_law_lawC k9 _ (sb rfl m) _ (sb rfl m)) (Only.actScope k10 _ _ _ _ _ (sb rfl m) (by decide))))

theorem Only.detect {M : Nat} {a t : State} (h : Only M a t) (m : 0x194e700120300200 &&& M = 0x194e700120300200) :
    Only M a (State.detect t) := by
  unfold State.detect
  extract_lets l1 l2 l3
  have k4 : Only M a l3 := (Only.onLaw h _ (sb rfl m))
  try clear_value l3
  exact (Only.ite (Only.declareIsland k4 _ (sb rfl m)) k4)

theorem Only.execRocofDetect {M : Nat} {a t : State} (h : Only M a t) (x0_) (m : 0x194e760120300200 &&& M = 0x194e760120300200) :
    OnlyO M a (Sys2Proof.Machine.execRocofDetect x0_ t) := by
  unfold Sys2Proof.Machine.execRocofDetect
  refine OnlyO.next ?_
  exact (Only.live h (fun t1 h2 => (by
    extract_lets l3
    have k4 : Only M a l3 := (Only.moveTo h2 _ (sb rfl m))
    try clear_value l3
    exact (Only.ite (Only.declareIsland k4 _ (sb rfl m)) k4))))

theorem Only.execProbeFault {M : Nat} {a t : State} (h : Only M a t) (x0_) (m : 0x194e760120300200 &&& M = 0x194e760120300200) :
    OnlyO M a (Sys2Proof.Machine.execProbeFault x0_ t) := by
  unfold Sys2Proof.Machine.execProbeFault
  refine OnlyO.next ?_
  exact (Only.live h (fun t1 h2 => (by
    extract_lets l3 l4 l5
    have k6 : Only M a l3 := (Only.moveTo h2 _ (sb rfl m))
    try clear_value l3
    have k7 : Only M a l4 := (Only.onLaw k6 _ (sb rfl m))
    try clear_value l4
    have k8 : Only M a l5 := (Only.s1Post (Only.s1Wr k7 _ _ (sb rfl m) (fm rfl m)) _ _ (sb rfl m))
    try clear_value l5
    exact (Only.ite (Only.ite (Only.declareIsland k8 _ (sb rfl m)) k8) k6))))

theorem Only.showFill {M : Nat} {a t : State} (h : Only M a t) (m : 0x200000200000 &&& M = 0x200000200000) :
    Only M a (State.showFill t) := by
  unfold State.showFill
  extract_lets l1
  exact (Only.s1Wr (Only.s1Wr h _ _ (sb rfl m) (fm rfl m)) _ _ (sb rfl m) (fm rfl m))

theorem Only.probeSums {M : Nat} {a t : State} (h : Only M a t) (m : 0xc000000000000 &&& M = 0xc000000000000) :
    Only M a (State.probeSums t) := by
  unfold State.probeSums
  extract_lets l1 l2 l3 l4
  exact (Only.onLaw h _ (sb rfl m))

theorem Only.probeGuard {M : Nat} {a t : State} (h : Only M a t) (m : 0xc200000200000 &&& M = 0xc200000200000) :
    Only M a (State.probeGuard t) := by
  unfold State.probeGuard
  exact (Only.ite h (Only.showFill (Only.onLaw h _ (sb rfl m)) (sb rfl m)))

theorem Only.probeUpdate {M : Nat} {a t : State} (h : Only M a t) (m : 0x194e700120300200 &&& M = 0x194e700120300200) :
    Only M a (State.probeUpdate t) := by
  unfold State.probeUpdate
  extract_lets l1 l2 l3 l4 l5 l6 l7 l8 l9 l10 l11 l12 l13 l14 l15 l16 l17 l18 l19 l20 l21 l22
  have k23 : Only M a l8 := (Only.onLaw h _ (sb rfl m))
  try clear_value l8
  have k24 : Only M a l9 := (Only.s1Wr k23 _ _ (sb rfl m) (fm rfl m))
  try clear_value l9
  have k25 : Only M a l10 := (Only.ite (Only.s1Wr (Only.s1Wr k24 _ _ (sb rfl m) (fm rfl m)) _ _ (sb rfl m) (fm rfl m)) k24)
  try clear_value l10
  have k26 : Only M a l13 := (Only.onLaw k25 _ (sb rfl m))
  try clear_value l13
  have k27 : Only M a l21 := (Only.onLaw k26 _ (sb rfl m))
  try clear_value l21
  have k28 : Only M a l22 := (Only.s1Wr (Only.s1Wr (Only.s1Wr k27 _ _ (sb rfl m) (fm rfl m)) _ _ (sb rfl m) (fm rfl m)) _ _ (sb rfl m) (fm rfl m))
  try clear_value l22
  exact (Only.ite k25 (Only.ite (Only.s1Wr (Only.s1Wr (Only.onLaw k26 _ (sb rfl m)) _ _ (sb rfl m) (fm rfl m)) _ _ (sb rfl m) (fm rfl m)) (Only.ite (Only.declareIsland k28 _ (sb rfl m)) k28)))

theorem Only.chipDone {M : Nat} {a t : State} (h : Only M a t) (m : 0xc000000000000 &&& M = 0xc000000000000) :
    Only M a (State.chipDone t) := by
  unfold State.chipDone
  extract_lets l1 l2 l3 l4 l5 l6 l7 l8
  exact (Only.onLaw h _ (sb rfl m))

theorem Only.injectTurn {M : Nat} {a t : State} (h : Only M a t) (m : 0xc200000200000 &&& M = 0xc200000200000) :
    Only M a (State.injectTurn t) := by
  unfold State.injectTurn
  extract_lets l1 l2 l3
  exact (Only.ite h (Only.s1Wr (Only.onLaw h _ (sb rfl m)) _ _ (sb rfl m) (fm rfl m)))

theorem Only.execChipBoundary {M : Nat} {a t : State} (h : Only M a t) (x0_) (m : 0x194e760120300200 &&& M = 0x194e760120300200) :
    OnlyO M a (Sys2Proof.Machine.execChipBoundary x0_ t) := by
  unfold Sys2Proof.Machine.execChipBoundary
  refine OnlyO.next ?_
  exact (Only.live h (fun t1 h2 => (by
    extract_lets l3 l4 l5 l6 l7
    have k8 : Only M a l3 := (Only.moveTo h2 _ (sb rfl m))
    try clear_value l3
    have k9 : Only M a l4 := (Only.showFill (Only.probeGuard (Only.chipDone k8 (sb rfl m)) (sb rfl m)) (sb rfl m))
    try clear_value l4
    have k10 : Only M a l7 := (Only.onLaw k9 _ (sb rfl m))
    try clear_value l7
    exact (Only.ite (Only.injectTurn (Only.ite (Only.probeUpdate k10 (sb rfl m)) k10) (sb rfl m)) k8))))

theorem Only.mirSwap {M : Nat} {a t : State} (h : Only M a t) (x1_ x2_) (m : 0x1100120000200200 &&& M = 0x1100120000200200) :
    Only M a (State.mirSwap t x1_ x2_) := by
  unfold State.mirSwap
  exact (Only.ite h (Only.ite (Only.askAt (Only.wr h _ _ (sb rfl m) (fm rfl m)) _ (sb rfl m)) (Only.configRefused (Only.refuse h _ (sb rfl m) (fm rfl m)) _ _ _ (sb rfl m))))

theorem Only.mirApply {M : Nat} {a t : State} (h : Only M a t) (m : 0xc000000200000 &&& M = 0xc000000200000) :
    Only M a (State.mirApply t) := by
  unfold State.mirApply
  extract_lets l1 l2 l3 l4
  have k5 : Only M a l2 := (Only.wr (Only.wr (Only.activateAll h _ (fms rfl m)) _ _ (sb rfl m) (fm rfl m)) _ _ (sb rfl m) (fm rfl m))
  try clear_value l2
  have k6 : Only M a l4 := (Only.set_law_lawC k5 _ (sb rfl m) _ (sb rfl m))
  try clear_value l4
  exact (Only.ite (Only.ite (Only.wr (Only.wr (Only.wr k6 _ _ (sb rfl m) (fm rfl m)) _ _ (sb rfl m) (fm rfl m)) _ _ (sb rfl m) (fm rfl m)) k5) h)

theorem Only.execMirTableSwap {M : Nat} {a t : State} (h : Only M a t) (x0_) (m : 0x1100120000200200 &&& M = 0x1100120000200200) :
    OnlyO M a (Sys2Proof.Machine.execMirTableSwap x0_ t) := by
  unfold Sys2Proof.Machine.execMirTableSwap
  refine OnlyO.next ?_
  exact (Only.live h (fun t1 h2 => (Only.mirSwap h2 _ _ (sb rfl m))))

theorem Only.execMirSwapApply {M : Nat} {a t : State} (h : Only M a t) (m : 0xc000000200000 &&& M = 0xc000000200000) :
    OnlyO M a (Sys2Proof.Machine.execMirSwapApply t) := by
  unfold Sys2Proof.Machine.execMirSwapApply
  refine OnlyO.next ?_
  exact (Only.live h (fun t1 h2 => (Only.ite (Only.mirApply h2 (sb rfl m)) h2)))

theorem Only.unbind {M : Nat} {a t : State} (h : Only M a t) (x1_) (m : 0x200000000000 &&& M = 0x200000000000) :
    Only M a (State.unbind t x1_) := by
  unfold State.unbind
  extract_lets l1 l2
  exact (Only.set_tri h _ (sb rfl m))

theorem Only.clearPend {M : Nat} {a t : State} (h : Only M a t) (m : 0xc200000200000 &&& M = 0xc200000200000) :
    Only M a (State.clearPend t) := by
  unfold State.clearPend
  extract_lets l1
  exact (Only.wr (Only.unbind (Only.set_law_lawC h _ (sb rfl m) _ (sb rfl m)) _ (sb rfl m)) _ _ (sb rfl m) (fm rfl m))

theorem Only.writeMirBase {M : Nat} {a t : State} (h : Only M a t) (x1_) (m : 0xc200000200000 &&& M = 0xc200000200000) :
    Only M a (State.writeMirBase t x1_) := by
  unfold State.writeMirBase
  extract_lets l1 l2
  have k3 : Only M a l1 := (Only.unbind (Only.putRw h _ _ (bm rfl m)) _ (sb rfl m))
  try clear_value l1
  exact (Only.clearPend (Only.set_law_lawC k3 _ (sb rfl m) _ (sb rfl m)) (sb rfl m))

theorem Only.execMirBaseWrite {M : Nat} {a t : State} (h : Only M a t) (x0_) (m : 0xc200000200000 &&& M = 0xc200000200000) :
    OnlyO M a (Sys2Proof.Machine.execMirBaseWrite x0_ t) := by
  unfold Sys2Proof.Machine.execMirBaseWrite
  refine OnlyO.next ?_
  exact (Only.live h (fun t1 h2 => (Only.writeMirBase h2 _ (sb rfl m))))

theorem Only.clearIsland {M : Nat} {a t : State} (h : Only M a t) (m : 0xc200000200000 &&& M = 0xc200000200000) :
    Only M a (State.clearIsland t) := by
  unfold State.clearIsland
  extract_lets l1
  exact (Only.clearPend (Only.wr (Only.set_law_lawC h _ (sb rfl m) _ (sb rfl m)) _ _ (sb rfl m) (fm rfl m)) (sb rfl m))

theorem Only.execMirIslandClear {M : Nat} {a t : State} (h : Only M a t) (m : 0xc200000200000 &&& M = 0xc200000200000) :
    OnlyO M a (Sys2Proof.Machine.execMirIslandClear t) := by
  unfold Sys2Proof.Machine.execMirIslandClear
  refine OnlyO.next ?_
  exact (Only.live h (fun t1 h2 => (Only.clearIsland h2 (sb rfl m))))

end Sys2Proof.Machine
end

