-- ==== Sys2Proof/Laws/OnlyControl.lean ====
section
/-! SUPPORT. `Only` of each function of Machine/Control.lean. -/
set_option Elab.async false
namespace Sys2Proof.Machine

theorem Only.approachSetpoints {M : Nat} {a t : State} (h : Only M a t) (m : 0xc000000000000 &&& M = 0xc000000000000) :
    Only M a (State.approachSetpoints t) := by
  unfold State.approachSetpoints
  extract_lets l1 l2 l3 l4 l5 l6 l7
  exact (Only.onLaw h _ (sb rfl m))

theorem Only.plimTick {M : Nat} {a t : State} (h : Only M a t) (m : 0xc000000000000 &&& M = 0xc000000000000) :
    Only M a (State.plimTick t) := by
  unfold State.plimTick
  extract_lets l1 l2
  exact (Only.onLaw h _ (sb rfl m))

theorem Only.voltVar {M : Nat} {a t : State} (h : Only M a t) (m : 0xc000000000000 &&& M = 0xc000000000000) :
    Only M a (State.voltVar t) := by
  unfold State.voltVar
  extract_lets l1 l2
  exact (Only.onLaw h _ (sb rfl m))

theorem Only.vmOnGrid {M : Nat} {a t : State} (h : Only M a t) (x1_) (m : 0xc000000000000 &&& M = 0xc000000000000) :
    Only M a (State.vmOnGrid t x1_) := by
  unfold State.vmOnGrid
  extract_lets l1
  exact (Only.onLaw h _ (sb rfl m))

theorem Only.formRef {M : Nat} {a t : State} (h : Only M a t) (x1_ x2_) (m : 0xc000000000000 &&& M = 0xc000000000000) :
    Only M a (State.formRef t x1_ x2_).1 := by
  unfold State.formRef
  extract_lets l1 l2 l3 l4 l5 l6 l7 l8 l9 l10
  have k11 : Only M a l3 := (Only.vmOnGrid h _ (sb rfl m))
  try clear_value l3
  have k12 : Only M a l10 := (Only.onLaw h _ (sb rfl m))
  try clear_value l10
  exact (Only.ite1 (Only.fstMk (Only.onLaw k11 _ (sb rfl m))) (Only.fstMk k12))

theorem Only.sourceRef {M : Nat} {a t : State} (h : Only M a t) (x1_ x2_) (m : 0xc000000000000 &&& M = 0xc000000000000) :
    Only M a (State.sourceRef t x1_ x2_).1 := by
  unfold State.sourceRef
  extract_lets l1 l2 l3
  exact (Only.ite1 (Only.formRef h _ _ (sb rfl m)) (Only.ite1 (Only.fstMk (Only.onLaw h _ (sb rfl m))) (Only.ite1 (Only.fstMk (Only.onLaw h _ (sb rfl m))) (Only.fstMk h))))

theorem Only.rideRef {M : Nat} {a t : State} (h : Only M a t) (x1_ x2_) (m : 0xc200000100000 &&& M = 0xc200000100000) :
    Only M a (State.rideRef t x1_ x2_).1 := by
  unfold State.rideRef
  extract_lets l1 l2 l3 l4 l5 l6
  have k7 : Only M a l4 := (Only.onLaw h _ (sb rfl m))
  try clear_value l4
  have k8 : Only M a l5.1 := (Only.ite1 (Only.fstMk h) (Only.ite1 (Only.fstMk h) (Only.ite1 (Only.fstMk (Only.ite (Only.supTo k7 _ (sb rfl m)) k7)) (Only.fstMk h))))
  try clear_value l5
  split
  · exact k8
  · exact (Only.ite1 (Only.fstMk (Only.onLaw k8 _ (sb rfl m))) (Only.ite1 k8 (Only.fstMk k8)))

theorem Only.limitTick {M : Nat} {a t : State} (h : Only M a t) (m : 0xc200000040000 &&& M = 0xc200000040000) :
    Only M a (State.limitTick t) := by
  unfold State.limitTick
  extract_lets l1 l2 l3
  have k4 : Only M a l3 := (Only.onLaw h _ (sb rfl m))
  try clear_value l3
  exact (Only.s1Wr (Only.s1Wr k4 _ _ (sb rfl m) (fm rfl m)) _ _ (sb rfl m) (fm rfl m))

theorem Only.formReferences {M : Nat} {a t : State} (h : Only M a t) (x1_ x2_) (m : 0xc200000140000 &&& M = 0xc200000140000) :
    Only M a (State.formReferences t x1_ x2_) := by
  unfold State.formReferences
  extract_lets l1 l2 l3 l4 l5 l6 l7 l8 l9 l10 l11 l12 l13
  have k14 : Only M a l1 := (Only.limitTick (Only.voltVar (Only.plimTick (Only.approachSetpoints h (sb rfl m)) (sb rfl m)) (sb rfl m)) (sb rfl m))
  try clear_value l1
  have k15 : Only M a l2.1 := (Only.sourceRef k14 _ _ (sb rfl m))
  try clear_value l2
  have k16 : Only M a l5.1 := (Only.rideRef k15 _ _ (sb rfl m))
  try clear_value l5
  have k17 : Only M a l6 := k16
  try clear_value l6
  have k18 : Only M a l12 := (Only.onLaw k17 _ (sb rfl m))
  try clear_value l12
  have k19 : Only M a l13 := (Only.ite (Only.vmOnGrid k18 _ (sb rfl m)) k18)
  try clear_value l13
  exact (Only.s1Wr k19 _ _ (sb rfl m) (fm rfl m))

theorem Only.resTerms {M : Nat} {a t : State} (h : Only M a t) (x1_ x2_) (m : 0x190c300000000200 &&& M = 0x190c300000000200) :
    Only M a (State.resTerms t x1_ x2_).1 := by
  unfold State.resTerms
  extract_lets l1 l2 l3
  have k4 : Only M a l2 := (Only.onLaw h _ (sb rfl m))
  try clear_value l2
  have k10 : Only M a l3 := (Only.foldl k4 fun t5 x6 h7 => (Only.ite (by
    extract_lets l8
    have k9 : Only M a l8 := (Only.s1Post h7 _ _ (sb rfl m))
    try clear_value l8
    exact (Only.used k9 (sb rfl m))) h7))
  try clear_value l3
  exact (Only.fstMk k10)

theorem Only.manualStep {M : Nat} {a t : State} (h : Only M a t) (m : 0xc000000000000 &&& M = 0xc000000000000) :
    Only M a (State.manualStep t) := by
  unfold State.manualStep
  extract_lets l1 l2
  exact (Only.onLaw h _ (sb rfl m))

theorem Only.runLaw {M : Nat} {a t : State} (h : Only M a t) (m : 0x190c300000140200 &&& M = 0x190c300000140200) :
    Only M a (State.runLaw t) := by
  unfold State.runLaw
  extract_lets l1 l2 l3 l4 l5 l6 l7 l8 l9 l10 l11 l12 l13 l14 l15 l16 l17 l18 l19 l20 l21 l22 l23 l24 l25 l26 l27 l28 l29 l30 l31 l32 l33 l34 l35 l36 l37 l38 l39 l40 l41 l42 l43 l44 l45 l46 l47 l48 l49 l50 l51 l52 l53 l54 l55 l56 l57 l58 l59 l60 l61 l62 l63 l64
  have k65 : Only M a l16 := (Only.formReferences h _ _ (sb rfl m))
  try clear_value l16
  have k66 : Only M a l34 := (Only.ite (Only.manualStep k65 (sb rfl m)) k65)
  try clear_value l34
  have k67 : Only M a l40.1 := (Only.ite1 (Only.fstMk (Only.onLaw k66 _ (sb rfl m))) (Only.resTerms k66 _ _ (sb rfl m)))
  try clear_value l40
  have k68 : Only M a l41 := k67
  try clear_value l41
  have k69 : Only M a l60 := (Only.onLaw k68 _ (sb rfl m))
  try clear_value l60
  have k70 : Only M a l61 := (Only.s1Wr (Only.s1Wr k69 _ _ (sb rfl m) (fm rfl m)) _ _ (sb rfl m) (fm rfl m))
  try clear_value l61
  have k71 : Only M a l62 := (Only.s1Wr k70 _ _ (sb rfl m) (fm rfl m))
  try clear_value l62
  have k72 : Only M a l64 := (Only.s1Wr (Only.s1Wr k71 _ _ (sb rfl m) (fm rfl m)) _ _ (sb rfl m) (fm rfl m))
  try clear_value l64
  exact (Only.s1Wr (Only.s1Wr k72 _ _ (sb rfl m) (fm rfl m)) _ _ (sb rfl m) (fm rfl m))

theorem Only.writeCtlMode {M : Nat} {a t : State} (h : Only M a t) (x1_) (m : 0x40000 &&& M = 0x40000) :
    Only M a (State.writeCtlMode t x1_) := by
  unfold State.writeCtlMode
  exact (Only.ite (Only.refuse h _ (sb rfl m) (fm rfl m)) (Only.putRw h _ _ (bm rfl m)))

theorem Only.execCtlModeWrite {M : Nat} {a t : State} (h : Only M a t) (x0_) (m : 0x40000 &&& M = 0x40000) :
    OnlyO M a (Sys2Proof.Machine.execCtlModeWrite x0_ t) := by
  unfold Sys2Proof.Machine.execCtlModeWrite
  refine OnlyO.next ?_
  exact (Only.live h (fun t1 h2 => (Only.writeCtlMode h2 _ (sb rfl m))))

theorem Only.showManual {M : Nat} {a t : State} (h : Only M a t) (x1_) (m : 0x40000 &&& M = 0x40000) :
    Only M a (State.showManual t x1_) := by
  unfold State.showManual
  exact (Only.wr (Only.wr h _ _ (sb rfl m) (fm rfl m)) _ _ (sb rfl m) (fm rfl m))

theorem Only.setMode {M : Nat} {a t : State} (h : Only M a t) (x1_) (m : 0xc000000040000 &&& M = 0xc000000040000) :
    Only M a (State.setMode t x1_) := by
  unfold State.setMode
  extract_lets l1 l2 l3
  have k4 : Only M a l2 := (Only.set_law_lawC h _ (sb rfl m) _ (sb rfl m))
  try clear_value l2
  have k5 : Only M a l3 := (Only.wr k4 _ _ (sb rfl m) (fm rfl m))
  try clear_value l3
  exact (Only.ite (Only.showManual k5 _ (sb rfl m)) k5)

theorem Only.execModeTransfer {M : Nat} {a t : State} (h : Only M a t) (m : 0xc000000040000 &&& M = 0xc000000040000) :
    OnlyO M a (Sys2Proof.Machine.execModeTransfer t) := by
  unfold Sys2Proof.Machine.execModeTransfer
  refine OnlyO.next ?_
  exact (Only.live h (fun t1 h2 => (by
    extract_lets l3
    exact (Only.ite (Only.setMode h2 _ (sb rfl m)) h2))))

theorem Only.execForcedAuto {M : Nat} {a t : State} (h : Only M a t) (m : 0x190c100000040200 &&& M = 0x190c100000040200) :
    OnlyO M a (Sys2Proof.Machine.execForcedAuto t) := by
  unfold Sys2Proof.Machine.execForcedAuto
  refine OnlyO.next ?_
  exact (Only.live h (fun t1 h2 => (Only.ite (by
    extract_lets l3
    have k4 : Only M a l3 := (Only.setMode (Only.activate (Only.wr h2 _ _ (sb rfl m) (fm rfl m)) _ _ (fm rfl m)) _ (sb rfl m))
    try clear_value l3
    exact (Only.noticeOpen (Only.wr k4 _ _ (sb rfl m) (fm rfl m)) _ (sb rfl m))) h2)))

theorem Only.execCtlManualWrite {M : Nat} {a t : State} (h : Only M a t) (x0_) (m : 0x40000 &&& M = 0x40000) :
    OnlyO M a (Sys2Proof.Machine.execCtlManualWrite x0_ t) := by
  unfold Sys2Proof.Machine.execCtlManualWrite
  refine OnlyO.next ?_
  exact (Only.live h (fun t1 h2 => (Only.putRw h2 _ _ (bm rfl m))))

theorem Only.ctlSwap {M : Nat} {a t : State} (h : Only M a t) (x1_ x2_) (m : 0x1100120000040200 &&& M = 0x1100120000040200) :
    Only M a (State.ctlSwap t x1_ x2_) := by
  unfold State.ctlSwap
  exact (Only.ite h (Only.ite (Only.askAt (Only.wr h _ _ (sb rfl m) (fm rfl m)) _ (sb rfl m)) (Only.configRefused (Only.refuse h _ (sb rfl m) (fm rfl m)) _ _ _ (sb rfl m))))

theorem Only.ctlApply {M : Nat} {a t : State} (h : Only M a t) (m : 0xc000000040000 &&& M = 0xc000000040000) :
    Only M a (State.ctlApply t) := by
  unfold State.ctlApply
  extract_lets l1 l2 l3
  have k4 : Only M a l3 := (Only.set_law_lawC h _ (sb rfl m) _ (sb rfl m))
  try clear_value l3
  exact (Only.ite (Only.wr (Only.wr (Only.activateAll k4 _ (fms rfl m)) _ _ (sb rfl m) (fm rfl m)) _ _ (sb rfl m) (fm rfl m)) h)

theorem Only.execCtlTableSwap {M : Nat} {a t : State} (h : Only M a t) (x0_) (m : 0x1100120000040200 &&& M = 0x1100120000040200) :
    OnlyO M a (Sys2Proof.Machine.execCtlTableSwap x0_ t) := by
  unfold Sys2Proof.Machine.execCtlTableSwap
  refine OnlyO.next ?_
  exact (Only.live h (fun t1 h2 => (Only.ctlSwap h2 _ _ (sb rfl m))))

theorem Only.execCtlSwapApply {M : Nat} {a t : State} (h : Only M a t) (m : 0xc000000040000 &&& M = 0xc000000040000) :
    OnlyO M a (Sys2Proof.Machine.execCtlSwapApply t) := by
  unfold Sys2Proof.Machine.execCtlSwapApply
  refine OnlyO.next ?_
  exact (Only.live h (fun t1 h2 => (Only.ite (Only.ctlApply h2 (sb rfl m)) h2)))

end Sys2Proof.Machine
end

