-- ==== Sys2Proof/Laws/OnlyPorts.lean ====
section
/-! SUPPORT. `Only` of each function of Machine/Ports.lean. -/
set_option Elab.async false
namespace Sys2Proof.Machine

theorem Only.onPv {M : Nat} {a t : State} (h : Only M a t) (x1_ x2_) (m : 0xc000000000000 &&& M = 0xc000000000000) :
    Only M a (State.onPv t x1_ x2_) := by
  unfold State.onPv
  exact (Only.onLaw h _ (sb rfl m))

theorem Only.bothPv {M : Nat} {a t : State} (h : Only M a t) (x1_ x2_) (m : 0xc000000000000 &&& M = 0xc000000000000) :
    Only M a (State.bothPv t x1_ x2_) := by
  unfold State.bothPv
  exact (Only.set_law_lawC h _ (sb rfl m) _ (sb rfl m))

theorem Only.showScan {M : Nat} {a t : State} (h : Only M a t) (m : 0x400000 &&& M = 0x400000) :
    Only M a (State.showScan t) := by
  unfold State.showScan
  exact (Only.wr h _ _ (sb rfl m) (fm rfl m))

theorem Only.scanRecord {M : Nat} {a t : State} (h : Only M a t) (x1_ x2_ x3_ x4_) (m : 0x1100300000000200 &&& M = 0x1100300000000200) :
    Only M a (State.scanRecord t x1_ x2_ x3_ x4_) := by
  unfold State.scanRecord
  extract_lets l1
  exact (Only.s1Post h _ _ (sb rfl m))

theorem Only.scanGuard {M : Nat} {a t : State} (h : Only M a t) (x1_) (m : 0x190c300000000200 &&& M = 0x190c300000000200) :
    Only M a (State.scanGuard t x1_) := by
  unfold State.scanGuard
  split
  · exact h
  · extract_lets l6
    have k7 : Only M a l6 := (Only.scanRecord (Only.onPv h _ _ (sb rfl m)) _ _ _ _ (sb rfl m))
    try clear_value l6
    exact (Only.ite (Only.used k7 (sb rfl m)) h)

theorem Only.abandonScan {M : Nat} {a t : State} (h : Only M a t) (x1_) (m : 0x190c300002000200 &&& M = 0x190c300002000200) :
    Only M a (State.abandonScan t x1_) := by
  unfold State.abandonScan
  split
  · exact h
  · extract_lets l6
    have k7 : Only M a l6 := (Only.scanRecord (Only.bothPv h _ _ (sb rfl m)) _ _ _ _ (sb rfl m))
    try clear_value l6
    exact (Only.wri (Only.used k7 (sb rfl m)) _ _ _ (fm rfl m))

theorem Only.scanTake {M : Nat} {a t : State} (h : Only M a t) (x1_) (m : 0x110c300000000200 &&& M = 0x110c300000000200) :
    Only M a (State.scanTake t x1_) := by
  unfold State.scanTake
  split
  · exact h
  · extract_lets l6 l7
    exact (Only.ite (Only.scanRecord (Only.onPv h _ _ (sb rfl m)) _ _ _ _ (sb rfl m)) (Only.onPv h _ _ (sb rfl m)))

theorem Only.showPv {M : Nat} {a t : State} (h : Only M a t) (x1_) (m : 0x200002000000 &&& M = 0x200002000000) :
    Only M a (State.showPv t x1_) := by
  unfold State.showPv
  extract_lets l1 l2 l3
  have k4 : Only M a l2 := (Only.s1Wri (Only.s1Wri h _ _ _ (sb rfl m) (fm rfl m)) _ _ _ (sb rfl m) (fm rfl m))
  try clear_value l2
  have k5 : Only M a l3 := (Only.s1Wri (Only.s1Wri k4 _ _ _ (sb rfl m) (fm rfl m)) _ _ _ (sb rfl m) (fm rfl m))
  try clear_value l3
  exact (Only.s1Wri (Only.s1Wri k5 _ _ _ (sb rfl m) (fm rfl m)) _ _ _ (sb rfl m) (fm rfl m))

theorem Only.pvTick {M : Nat} {a t : State} (h : Only M a t) (x1_) (m : 0x190c300002000200 &&& M = 0x190c300002000200) :
    Only M a (State.pvTick t x1_) := by
  unfold State.pvTick
  extract_lets l1 l2 l3 l4
  have k5 : Only M a l1 := (Only.scanTake (Only.scanGuard h _ (sb rfl m)) _ (sb rfl m))
  try clear_value l1
  have k6 : Only M a l4 := (Only.onPv k5 _ _ (sb rfl m))
  try clear_value l4
  exact (Only.showPv k6 _ (sb rfl m))

theorem Only.portTick {M : Nat} {a t : State} (h : Only M a t) (m : 0x190c300002400200 &&& M = 0x190c300002400200) :
    Only M a (State.portTick t) := by
  unfold State.portTick
  extract_lets l1 l2 l3 l4 l5 l6
  have k10 : Only M a l2 := (Only.foldl h fun t7 x8 h9 => (Only.pvTick h9 _ (sb rfl m)))
  try clear_value l2
  have k11 : Only M a l4 := (Only.s1Wr k10 _ _ (sb rfl m) (fm rfl m))
  try clear_value l4
  have k12 : Only M a l5 := (Only.s1Wr k11 _ _ (sb rfl m) (fm rfl m))
  try clear_value l5
  have k13 : Only M a l6 := (Only.s1Wr k12 _ _ (sb rfl m) (fm rfl m))
  try clear_value l6
  exact (Only.s1Wr k13 _ _ (sb rfl m) (fm rfl m))

theorem Only.startScans {M : Nat} {a t : State} (h : Only M a t) (m : 0xc000000000000 &&& M = 0xc000000000000) :
    Only M a (State.startScans t) := by
  unfold State.startScans
  exact (Only.ite h (Only.foldl h fun t1 x2 h3 => (by
    extract_lets l4
    exact (Only.ite (Only.bothPv h3 _ _ (sb rfl m)) h3))))

theorem Only.execDitherPeriodBoundary {M : Nat} {a t : State} (h : Only M a t) (x0_) (m : 0xc060000000000 &&& M = 0xc060000000000) :
    OnlyO M a (Sys2Proof.Machine.execDitherPeriodBoundary x0_ t) := by
  unfold Sys2Proof.Machine.execDitherPeriodBoundary
  refine OnlyO.next ?_
  exact (Only.live h (fun t1 h2 => (by
    extract_lets l3 l4 l5 l6 l7 l8 l9
    have k10 : Only M a l3 := (Only.moveTo h2 _ (sb rfl m))
    try clear_value l3
    have k11 : Only M a l8 := (Only.set_law_lawC k10 _ (sb rfl m) _ (sb rfl m))
    try clear_value l8
    have k15 : Only M a l9 := (Only.foldl k11 fun t12 x13 h14 => (Only.bothPv h14 _ _ (sb rfl m)))
    try clear_value l9
    exact (Only.ite (Only.startScans k15 (sb rfl m)) k10))))

theorem Only.pvEstimate {M : Nat} {a t : State} (h : Only M a t) (x1_ x2_) (m : 0xc200000400000 &&& M = 0xc200000400000) :
    Only M a (State.pvEstimate t x1_ x2_) := by
  unfold State.pvEstimate
  extract_lets l1 l2 l3 l4 l5 l6 l7 l8 l9 l10 l11 l12 l13 l14
  have k15 : Only M a l9 := (Only.onPv h _ _ (sb rfl m))
  try clear_value l9
  exact (Only.ite k15 (Only.ite k15 (Only.ite (Only.s1Inc k15 _ _ (sb rfl m) (fm rfl m)) (Only.onPv k15 _ _ (sb rfl m)))))

theorem Only.execTrackerStep {M : Nat} {a t : State} (h : Only M a t) (x0_) (m : 0xc260000400000 &&& M = 0xc260000400000) :
    OnlyO M a (Sys2Proof.Machine.execTrackerStep x0_ t) := by
  unfold Sys2Proof.Machine.execTrackerStep
  refine OnlyO.next ?_
  exact (Only.live h (fun t1 h2 => (by
    extract_lets l3 l4 l5
    have k6 : Only M a l3 := (Only.moveTo h2 _ (sb rfl m))
    try clear_value l3
    have k10 : Only M a l5 := (Only.foldl k6 fun t7 x8 h9 => (Only.pvEstimate h9 _ _ (sb rfl m)))
    try clear_value l5
    exact (Only.ite (Only.onLaw k10 _ (sb rfl m)) k6))))

theorem Only.queueScan {M : Nat} {a t : State} (h : Only M a t) (x1_) (m : 0xc000000000000 &&& M = 0xc000000000000) :
    Only M a (State.queueScan t x1_) := by
  unfold State.queueScan
  exact (Only.bothPv h _ _ (sb rfl m))

theorem Only.execScanPeriodicDue {M : Nat} {a t : State} (h : Only M a t) (x0_ x1_) (m : 0xc060000000000 &&& M = 0xc060000000000) :
    OnlyO M a (Sys2Proof.Machine.execScanPeriodicDue x0_ x1_ t) := by
  unfold Sys2Proof.Machine.execScanPeriodicDue
  extract_lets l1
  refine OnlyO.next ?_
  exact (Only.live h (fun t2 h3 => (by
    extract_lets l4
    have k5 : Only M a l4 := (Only.moveTo h3 _ (sb rfl m))
    try clear_value l4
    split
    · exact (Only.ite (Only.bothPv (Only.queueScan k5 _ (sb rfl m)) _ _ (sb rfl m)) k5)
    · exact k5)))

theorem Only.scanReq {M : Nat} {a t : State} (h : Only M a t) (x1_) (m : 0xc000000400000 &&& M = 0xc000000400000) :
    Only M a (State.scanReq t x1_) := by
  unfold State.scanReq
  exact (Only.ite (Only.queueScan h _ (sb rfl m)) (Only.refuse h _ (sb rfl m) (fm rfl m)))

theorem Only.scanAll {M : Nat} {a t : State} (h : Only M a t) (m : 0xc000000000000 &&& M = 0xc000000000000) :
    Only M a (State.scanAll t) := by
  unfold State.scanAll
  exact (Only.foldl h fun t1 x2 h3 => (Only.queueScan h3 _ (sb rfl m)))

theorem Only.writePortCtrl {M : Nat} {a t : State} (h : Only M a t) (x1_) (m : 0xc000000400000 &&& M = 0xc000000400000) :
    Only M a (State.writePortCtrl t x1_) := by
  unfold State.writePortCtrl
  extract_lets l1 l2
  have k3 : Only M a l2 := (Only.ite (Only.queueScan h _ (sb rfl m)) h)
  try clear_value l2
  exact (Only.ite (Only.refuse h _ (sb rfl m) (fm rfl m)) (Only.ite (Only.refuse h _ (sb rfl m) (fm rfl m)) (Only.ite (Only.scanAll k3 (sb rfl m)) k3)))

theorem Only.execPortScanReq {M : Nat} {a t : State} (h : Only M a t) (x0_) (m : 0xc000000400000 &&& M = 0xc000000400000) :
    OnlyO M a (Sys2Proof.Machine.execPortScanReq x0_ t) := by
  unfold Sys2Proof.Machine.execPortScanReq
  refine OnlyO.next ?_
  exact (Only.live h (fun t1 h2 => (Only.scanReq h2 _ (sb rfl m))))

theorem Only.execPortScanAll {M : Nat} {a t : State} (h : Only M a t) (m : 0xc000000000000 &&& M = 0xc000000000000) :
    OnlyO M a (Sys2Proof.Machine.execPortScanAll t) := by
  unfold Sys2Proof.Machine.execPortScanAll
  refine OnlyO.next ?_
  exact (Only.live h (fun t1 h2 => (Only.scanAll h2 (sb rfl m))))

theorem Only.execScanPointDone {M : Nat} {a t : State} (h : Only M a t) (x0_ x1_) (m : 0xc060000000000 &&& M = 0xc060000000000) :
    OnlyO M a (Sys2Proof.Machine.execScanPointDone x0_ x1_ t) := by
  unfold Sys2Proof.Machine.execScanPointDone
  extract_lets l1
  refine OnlyO.next ?_
  exact (Only.live h (fun t2 h3 => (by
    extract_lets l4 l5 l6 l7
    have k8 : Only M a l4 := (Only.moveTo h3 _ (sb rfl m))
    try clear_value l4
    split
    · exact k8
    · extract_lets l14 l15
      exact (Only.ite (Only.ite (Only.onPv k8 _ _ (sb rfl m)) (Only.onPv k8 _ _ (sb rfl m))) k8))))

theorem Only.writePvCfg {M : Nat} {a t : State} (h : Only M a t) (x1_ x2_) (m : 0xc000000c00000 &&& M = 0xc000000c00000) :
    Only M a (State.writePvCfg t x1_ x2_) := by
  unfold State.writePvCfg
  extract_lets l1 l2 l3 l4
  have k5 : Only M a l4 := (Only.putRwi h _ _ _ (fm rfl m))
  try clear_value l4
  exact (Only.ite h (Only.ite (Only.refuse h _ (sb rfl m) (fm rfl m)) (Only.ite (Only.bothPv k5 _ _ (sb rfl m)) k5)))

theorem Only.execPortPvCfgWrite {M : Nat} {a t : State} (h : Only M a t) (x0_ x1_) (m : 0xc000000c00000 &&& M = 0xc000000c00000) :
    OnlyO M a (Sys2Proof.Machine.execPortPvCfgWrite x0_ x1_ t) := by
  unfold Sys2Proof.Machine.execPortPvCfgWrite
  refine OnlyO.next ?_
  exact (Only.live h (fun t1 h2 => (Only.writePvCfg h2 _ _ (sb rfl m))))

theorem Only.pvJoin {M : Nat} {a t : State} (h : Only M a t) (x1_) (m : 0xc000000000000 &&& M = 0xc000000000000) :
    Only M a (State.pvJoin t x1_) := by
  unfold State.pvJoin
  exact (Only.bothPv h _ _ (sb rfl m))

theorem Only.showPack {M : Nat} {a t : State} (h : Only M a t) (x1_) (m : 0x1100100002000200 &&& M = 0x1100100002000200) :
    Only M a (State.showPack t x1_) := by
  unfold State.showPack
  extract_lets l1 l2 l3 l4 l5 l6 l7 l8 l9
  have k10 : Only M a l7 := (Only.wri (Only.wri h _ _ _ (fm rfl m)) _ _ _ (fm rfl m))
  try clear_value l7
  have k11 : Only M a l8 := (Only.wri (Only.wri k10 _ _ _ (fm rfl m)) _ _ _ (fm rfl m))
  try clear_value l8
  have k12 : Only M a l9 := (Only.wri (Only.wri k11 _ _ _ (fm rfl m)) _ _ _ (fm rfl m))
  try clear_value l9
  exact (Only.ite (Only.post k12 _ _ (sb rfl m)) k12)

theorem Only.packWindow {M : Nat} {a t : State} (h : Only M a t) (x1_ x2_) (m : 0x1102100002000200 &&& M = 0x1102100002000200) :
    Only M a (State.packWindow t x1_ x2_) := by
  unfold State.packWindow
  extract_lets l1 l2 l3 l4 l5 l6 l7 l8
  have k9 : Only M a l4 := (Only.updCell h _ _ (sb rfl m))
  try clear_value l4
  have k10 : Only M a l5 := (Only.wri (Only.wri k9 _ _ _ (fm rfl m)) _ _ _ (fm rfl m))
  try clear_value l5
  have k11 : Only M a l6 := (Only.wri (Only.wri k10 _ _ _ (fm rfl m)) _ _ _ (fm rfl m))
  try clear_value l6
  have k12 : Only M a l7 := (Only.wri (Only.wri k11 _ _ _ (fm rfl m)) _ _ _ (fm rfl m))
  try clear_value l7
  have k13 : Only M a l8 := (Only.ite (Only.post k12 _ _ (sb rfl m)) k12)
  try clear_value l8
  exact (Only.showPack k13 _ (sb rfl m))

theorem Only.packJoin {M : Nat} {a t : State} (h : Only M a t) (x1_) (m : 0x1102100002000200 &&& M = 0x1102100002000200) :
    Only M a (State.packJoin t x1_) := by
  unfold State.packJoin
  exact (Only.packWindow (Only.updCell h _ _ (sb rfl m)) _ _ (sb rfl m))

theorem Only.packCycle {M : Nat} {a t : State} (h : Only M a t) (x1_) (m : 0x1102100002000200 &&& M = 0x1102100002000200) :
    Only M a (State.packCycle t x1_) := by
  unfold State.packCycle
  extract_lets l1
  have k8 : Only M a l1 := (Only.foldl h fun t2 x3 h4 => (by
    extract_lets l5 l6
    have k7 : Only M a l6 := (Only.updCell h4 _ _ (sb rfl m))
    try clear_value l6
    exact (Only.packWindow k7 _ _ (sb rfl m))))
  try clear_value l1
  exact (Only.foldl k8 fun t9 x10 h11 => (Only.updCell h11 _ _ (sb rfl m)))

theorem Only.writePack {M : Nat} {a t : State} (h : Only M a t) (x1_ x2_ x3_) (m : 0x1102100003400200 &&& M = 0x1102100003400200) :
    Only M a (State.writePack t x1_ x2_ x3_) := by
  unfold State.writePack
  extract_lets l1
  have k2 : Only M a l1 := (Only.putRwi h _ _ _ (fm (by unfold Sys2Proof.Machine.packReg; (repeat' split) <;> rfl) m))
  try clear_value l1
  exact (Only.ite h (Only.ite (Only.refuse h _ (sb rfl m) (fm rfl m)) (Only.ite (Only.packWindow k2 _ _ (sb rfl m)) k2)))

theorem Only.execPortPackWrite {M : Nat} {a t : State} (h : Only M a t) (x0_ x1_ x2_) (m : 0x1102100003400200 &&& M = 0x1102100003400200) :
    OnlyO M a (Sys2Proof.Machine.execPortPackWrite x0_ x1_ x2_ t) := by
  unfold Sys2Proof.Machine.execPortPackWrite
  refine OnlyO.next ?_
  exact (Only.live h (fun t1 h2 => (Only.writePack h2 _ _ _ (sb rfl m))))

theorem Only.portSwap {M : Nat} {a t : State} (h : Only M a t) (x1_ x2_) (m : 0x1100120000400200 &&& M = 0x1100120000400200) :
    Only M a (State.portSwap t x1_ x2_) := by
  unfold State.portSwap
  exact (Only.ite h (Only.ite (Only.askAt (Only.wr h _ _ (sb rfl m) (fm rfl m)) _ (sb rfl m)) (Only.configRefused (Only.refuse h _ (sb rfl m) (fm rfl m)) _ _ _ (sb rfl m))))

theorem Only.portApply {M : Nat} {a t : State} (h : Only M a t) (m : 0xc000000400000 &&& M = 0xc000000400000) :
    Only M a (State.portApply t) := by
  unfold State.portApply
  extract_lets l1 l2 l3
  have k4 : Only M a l3 := (Only.ite h (Only.set_law_lawC h _ (sb rfl m) _ (sb rfl m)))
  try clear_value l3
  exact (Only.ite (Only.wr (Only.wr (Only.activateAll k4 _ (fms rfl m)) _ _ (sb rfl m) (fm rfl m)) _ _ (sb rfl m) (fm rfl m)) h)

theorem Only.execPortTableSwap {M : Nat} {a t : State} (h : Only M a t) (x0_) (m : 0x1100120000400200 &&& M = 0x1100120000400200) :
    OnlyO M a (Sys2Proof.Machine.execPortTableSwap x0_ t) := by
  unfold Sys2Proof.Machine.execPortTableSwap
  refine OnlyO.next ?_
  exact (Only.live h (fun t1 h2 => (Only.portSwap h2 _ _ (sb rfl m))))

theorem Only.execPortSwapApply {M : Nat} {a t : State} (h : Only M a t) (m : 0xc000000400000 &&& M = 0xc000000400000) :
    OnlyO M a (Sys2Proof.Machine.execPortSwapApply t) := by
  unfold Sys2Proof.Machine.execPortSwapApply
  refine OnlyO.next ?_
  exact (Only.live h (fun t1 h2 => (Only.ite (Only.portApply h2 (sb rfl m)) h2)))

end Sys2Proof.Machine
end

