-- ==== Sys2Proof/Laws/OnlyLink.lean ====
section
/-! SUPPORT. `Only` of each function of Machine/Link.lean. -/
set_option Elab.async false
namespace Sys2Proof.Machine

theorem Only.setLoop {M : Nat} {a t : State} (h : Only M a t) (x1_ x2_ x3_) (m : 0x1100100000001200 &&& M = 0x1100100000001200) :
    Only M a (State.setLoop t x1_ x2_ x3_) := by
  unfold State.setLoop
  extract_lets l1
  exact (Only.ite h (Only.linkEvent (Only.wri h _ _ _ (fm (by unfold Sys2Proof.Machine.loopField; (repeat' split) <;> rfl) m)) _ _ _ _ (sb rfl m)))

theorem Only.setRingLink {M : Nat} {a t : State} (h : Only M a t) (x1_ x2_) (m : 0x1100100000001200 &&& M = 0x1100100000001200) :
    Only M a (State.setRingLink t x1_ x2_) := by
  unfold State.setRingLink
  extract_lets l1
  exact (Only.ite h (Only.linkEvent (Only.wri h _ _ _ (fm rfl m)) _ _ _ _ (sb rfl m)))

theorem Only.foldFit {M : Nat} {a t : State} (h : Only M a t) (x1_) (m : 0x1000 &&& M = 0x1000) :
    Only M a (State.foldFit t x1_) := by
  unfold State.foldFit
  extract_lets l1 l2
  exact (Only.wri h _ _ _ (fm rfl m))

theorem Only.foldFitAll {M : Nat} {a t : State} (h : Only M a t) (m : 0x1000 &&& M = 0x1000) :
    Only M a (State.foldFitAll t) := by
  unfold State.foldFitAll
  exact (Only.foldl h fun t1 x2 h3 => (Only.foldFit h3 _ (sb rfl m)))

theorem Only.nodeErrs {M : Nat} {a t : State} (h : Only M a t) (x1_ x2_ x3_) (m : 0x2000000002000 &&& M = 0x2000000002000) :
    Only M a (State.nodeErrs t x1_ x2_ x3_) := by
  unfold State.nodeErrs
  extract_lets l1 l2 l3
  have k4 : Only M a l3 := (Only.updCell h _ _ (sb rfl m))
  try clear_value l3
  exact (Only.inci k4 _ _ _ (sb rfl m) (by (repeat' split) <;> exact fm rfl m))

theorem Only.chargeReported {M : Nat} {a t : State} (h : Only M a t) (x1_ x2_) (m : 0x2000000020000 &&& M = 0x2000000020000) :
    Only M a (State.chargeReported t x1_ x2_) := by
  unfold State.chargeReported
  exact (Only.ite h (Only.wri (Only.updCell h _ _ (sb rfl m)) _ _ _ (fm rfl m)))

theorem Only.takeSlot {M : Nat} {a t : State} (h : Only M a t) (x1_ x2_ x3_ x4_ x5_ x6_) (m : 0x198218080002a320 &&& M = 0x198218080002a320) :
    Only M a (State.takeSlot t x1_ x2_ x3_ x4_ x5_ x6_) := by
  unfold State.takeSlot
  extract_lets l1 l2 l3 l4 l5 l6 l7 l8 l9 l10 l11 l12 l13 l14 l15 l16 l17
  have k18 : Only M a l3 := (Only.ite (Only.nodeErrs h _ _ _ (sb rfl m)) h)
  try clear_value l3
  have k19 : Only M a l4 := (Only.ite (Only.updCell k18 _ _ (sb rfl m)) k18)
  try clear_value l4
  have k20 : Only M a l8 := (Only.updCell k19 _ _ (sb rfl m))
  try clear_value l8
  have k21 : Only M a l9 := (Only.ite (Only.chargeReported k20 _ _ (sb rfl m)) k20)
  try clear_value l9
  have k22 : Only M a l10 := (Only.wri k21 _ _ _ (fm rfl m))
  try clear_value l10
  have k23 : Only M a l11 := (Only.wri k22 _ _ _ (fm rfl m))
  try clear_value l11
  have k24 : Only M a l12 := (Only.wri k23 _ _ _ (fm rfl m))
  try clear_value l12
  have k25 : Only M a l13 := (Only.wri k24 _ _ _ (fm rfl m))
  try clear_value l13
  have k26 : Only M a l14 := (Only.updCell (Only.wri k25 _ _ _ (fm rfl m)) _ _ (sb rfl m))
  try clear_value l14
  have k27 : Only M a l15 := (Only.ite (Only.ite (Only.endService k26 _ _ _ _ (sb rfl m)) k26) k25)
  try clear_value l15
  have k28 : Only M a l16 := (Only.ite (Only.tryWake k27 _ (sb rfl m)) k27)
  try clear_value l16
  have k29 : Only M a l17 := (Only.ite (Only.startConfig k28 _ (sb rfl m)) k28)
  try clear_value l17
  exact (Only.ite k19 (Only.ite k28 (Only.ite (Only.auxIn k29 _ _ (sb rfl m)) k29)))

theorem Only.takeSlots {M : Nat} {a t : State} (h : Only M a t) (x1_ x2_ x3_ x4_) (m : 0x198218080002a320 &&& M = 0x198218080002a320) :
    Only M a (State.takeSlots t x1_ x2_ x3_ x4_) := by
  unfold State.takeSlots
  exact (Only.foldl h fun t1 x2 h3 => (by
    extract_lets l4 l5
    exact (Only.ite (Only.takeSlot h3 _ _ _ _ _ _ (sb rfl m)) h3)))

theorem Only.takeCopy {M : Nat} {a t : State} (h : Only M a t) (x1_ x2_ x3_) (m : 0x198318080002b320 &&& M = 0x198318080002b320) :
    Only M a (State.takeCopy t x1_ x2_ x3_) := by
  unfold State.takeCopy
  extract_lets l1 l2 l3 l4 l5 l6 l7
  have k8 : Only M a l5 := (Only.setRing h _ _ (sb rfl m))
  try clear_value l5
  have k9 : Only M a l6 := (Only.wri k8 _ _ _ (fm rfl m))
  try clear_value l6
  have k10 : Only M a l7 := (Only.ite (Only.wri (Only.setRing h _ _ (sb rfl m)) _ _ _ (fm rfl m)) (Only.ite (Only.wri k9 _ _ _ (fm rfl m)) k9))
  try clear_value l7
  exact (Only.takeSlots k10 _ _ _ _ (sb rfl m))

theorem Only.execFrameReturn {M : Nat} {a t : State} (h : Only M a t) (x0_ x1_ x2_ x3_) (m : 0x19831e080002b320 &&& M = 0x19831e080002b320) :
    OnlyO M a (Sys2Proof.Machine.execFrameReturn x0_ x1_ x2_ x3_ t) := by
  unfold Sys2Proof.Machine.execFrameReturn
  extract_lets l1 l2 l3
  refine OnlyO.next ?_
  exact (Only.live h (fun t4 h5 => (by
    extract_lets l6 l7 l8 l9 l10 l11
    have k12 : Only M a l6 := (Only.moveTo h5 _ (sb rfl m))
    try clear_value l6
    have k13 : Only M a l8 := (Only.inci k12 _ _ _ (sb rfl m) (fm rfl m))
    try clear_value l8
    have k14 : Only M a l10 := (Only.ite (Only.inci k13 _ _ _ (sb rfl m) (fm rfl m)) k13)
    try clear_value l10
    exact (Only.ite k13 (Only.ite (Only.setRing (Only.inci k14 _ _ _ (sb rfl m) (fm rfl m)) _ _ (sb rfl m)) (Only.ite k14 (Only.takeCopy k14 _ _ _ (sb rfl m))))))))

theorem Only.measureCell {M : Nat} {a t : State} (h : Only M a t) (x1_ x2_) (m : 0x2000000002000 &&& M = 0x2000000002000) :
    Only M a (State.measureCell t x1_ x2_) := by
  unfold State.measureCell
  extract_lets l1 l2 l3 l4 l5 l6
  split
  · extract_lets l13 l14 l15 l16
    have k17 : Only M a l16 := (Only.setCell h _ _ (sb rfl m))
    try clear_value l16
    exact (Only.ite (Only.wri (Only.wri k17 _ _ _ (fm rfl m)) _ _ _ (fm rfl m)) (Only.inci h _ _ _ (sb rfl m) (fm rfl m)))
  · exact h

theorem Only.measureDelays {M : Nat} {a t : State} (h : Only M a t) (m : 0x2000000002000 &&& M = 0x2000000002000) :
    Only M a (State.measureDelays t) := by
  unfold State.measureDelays
  extract_lets l1
  have k8 : Only M a l1 := (Only.foldl h fun t2 x3 h4 => (Only.ite (Only.foldl h4 fun t5 x6 h7 => (Only.measureCell h7 _ _ (sb rfl m))) h4))
  try clear_value l1
  exact (Only.mapCells k8 _ (sb rfl m))

theorem Only.actTr {M : Nat} {a t : State} (h : Only M a t) (x1_ x2_ x3_ x4_) (m : 0x1943580120001320 &&& M = 0x1943580120001320) :
    Only M a (State.actTr t x1_ x2_ x3_ x4_) := by
  unfold State.actTr
  extract_lets l1 l2 l3 l4 l5 l6 l7 l8
  have k9 : Only M a l4 := (Only.setRing h _ _ (sb rfl m))
  try clear_value l4
  have k10 : Only M a l5 := (Only.tryWake k9 _ (sb rfl m))
  try clear_value l5
  have k11 : Only M a l6 := (Only.ite k10 (Only.wr (Only.wr (Only.wr (Only.wr (Only.wr k10 _ _ (sb rfl m) (fm rfl m)) _ _ (sb rfl m) (fm rfl m)) _ _ (sb rfl m) (fm rfl m)) _ _ (sb rfl m) (fm rfl m)) _ _ (sb rfl m) (fm rfl m)))
  try clear_value l6
  have k12 : Only M a l7 := (Only.cellLoss k11 _ (sb rfl m))
  try clear_value l7
  exact (Only.ite (Only.plantTrip k11 _ _ (sb rfl m)) (Only.updCell k12 _ _ (sb rfl m)))

theorem Only.onOrder {M : Nat} {a t : State} (h : Only M a t) (x1_ x2_ x3_ x4_ x5_ x6_) (g6 : ∀ y0 u, Only M a u → Only M a (x6_ y0 u)) (m : 0x1000 &&& M = 0x1000) :
    Only M a (State.onOrder t x1_ x2_ x3_ x4_ x5_ x6_) := by
  unfold State.onOrder
  exact (Only.ite h (by
    split
    · exact (Only.inci h _ _ _ (sb rfl m) (fm rfl m))
    · exact (g6 _ _ h)))

theorem Only.execTrReceived {M : Nat} {a t : State} (h : Only M a t) (x0_ x1_ x2_ x3_ x4_) (m : 0x19435e0120001320 &&& M = 0x19435e0120001320) :
    OnlyO M a (Sys2Proof.Machine.execTrReceived x0_ x1_ x2_ x3_ x4_ t) := by
  unfold Sys2Proof.Machine.execTrReceived
  refine OnlyO.next ?_
  exact (Only.live h (fun t1 h2 => (Only.onOrder (Only.moveTo h2 _ (sb rfl m)) _ _ _ _ _ _ (fun t3 t4 h5 => (by
    extract_lets l6 l7 l8 l9
    exact (Only.ite h5 (Only.actTr h5 _ _ _ _ (sb rfl m))))) (sb rfl m))))

theorem Only.actJr {M : Nat} {a t : State} (h : Only M a t) (x1_ x2_) (m : 0x1101180000002320 &&& M = 0x1101180000002320) :
    Only M a (State.actJr t x1_ x2_) := by
  unfold State.actJr
  extract_lets l1 l2 l3 l4
  have k5 : Only M a l2 := (Only.tryWake h _ (sb rfl m))
  try clear_value l2
  have k6 : Only M a l3 := (Only.ite (Only.wri k5 _ _ _ (fm rfl m)) k5)
  try clear_value l3
  exact (Only.ite (Only.inci k5 _ _ _ (sb rfl m) (fm rfl m)) (Only.ite k6 (Only.setRing k6 _ _ (sb rfl m))))

theorem Only.execJrReceived {M : Nat} {a t : State} (h : Only M a t) (x0_ x1_ x2_) (m : 0x11011e0000003320 &&& M = 0x11011e0000003320) :
    OnlyO M a (Sys2Proof.Machine.execJrReceived x0_ x1_ x2_ t) := by
  unfold Sys2Proof.Machine.execJrReceived
  refine OnlyO.next ?_
  exact (Only.live h (fun t1 h2 => (Only.onOrder (Only.moveTo h2 _ (sb rfl m)) _ _ _ _ _ _ (fun t3 t4 h5 => (Only.ite h5 (Only.actJr h5 _ _ (sb rfl m)))) (sb rfl m))))

theorem Only.takeGrant {M : Nat} {a t : State} (h : Only M a t) (r : Nat) (l : List (Int × Nat)) (m : 0x3000000006000 &&& M = 0x3000000006000) :
    Only M a (State.takeGrant t r l).1 := by
  induction l generalizing t with
  | nil => exact Only.setRing h _ _ (sb rfl m)
  | cons p l ih =>
    obtain ⟨x, c⟩ := p
    unfold State.takeGrant
    split
    · exact Only.askEnter (Only.updCell (Only.wri (Only.setRing h _ _ (sb rfl m)) _ _ _ (fm rfl m)) _ _ (sb rfl m))
        _ _ (sb rfl m)
    · exact ih (Only.inci h _ _ _ (sb rfl m) (fm rfl m))

theorem Only.execGrantLapse {M : Nat} {a t : State} (h : Only M a t) (x0_) (m : 0x2000000002000 &&& M = 0x2000000002000) :
    OnlyO M a (Sys2Proof.Machine.execGrantLapse x0_ t) := by
  unfold Sys2Proof.Machine.execGrantLapse
  extract_lets l1
  refine OnlyO.next ?_
  exact (Only.live h (fun t2 h3 => (by
    extract_lets l4
    exact (Only.ite (Only.askEnter (Only.wri h3 _ _ _ (fm rfl m)) _ _ (sb rfl m)) h3))))

theorem Only.execDelaysAccepted {M : Nat} {a t : State} (h : Only M a t) (x0_) (m : 0x2000000002000 &&& M = 0x2000000002000) :
    OnlyO M a (Sys2Proof.Machine.execDelaysAccepted x0_ t) := by
  unfold Sys2Proof.Machine.execDelaysAccepted
  extract_lets l1
  refine OnlyO.next ?_
  exact (Only.live h (fun t2 h3 => (Only.ite (Only.updCell (Only.wri h3 _ _ _ (fm rfl m)) _ _ (sb rfl m)) h3)))

theorem Only.execAlignTimeout {M : Nat} {a t : State} (h : Only M a t) (x0_) (m : 0x2000000002000 &&& M = 0x2000000002000) :
    OnlyO M a (Sys2Proof.Machine.execAlignTimeout x0_ t) := by
  unfold Sys2Proof.Machine.execAlignTimeout
  extract_lets l1
  refine OnlyO.next ?_
  exact (Only.live h (fun t2 h3 => (Only.ite (Only.updCell (Only.wri h3 _ _ _ (fm rfl m)) _ _ (sb rfl m)) h3)))

theorem Only.lossHeadroom {M : Nat} {a t : State} (h : Only M a t) (m : 0x20000000010000 &&& M = 0x20000000010000) :
    Only M a (State.lossHeadroom t) := by
  unfold State.lossHeadroom
  exact (Only.ite (Only.formHeadroom h (sb rfl m)) h)

theorem Only.execLoopDown {M : Nat} {a t : State} (h : Only M a t) (x0_ x1_) (m : 0x196350092001f200 &&& M = 0x196350092001f200) :
    OnlyO M a (Sys2Proof.Machine.execLoopDown x0_ x1_ t) := by
  unfold Sys2Proof.Machine.execLoopDown
  extract_lets l1
  refine OnlyO.next ?_
  exact (Only.live h (fun t2 h3 => (Only.ite h3 (by
    extract_lets l4 l5 l6 l7 l8 l9
    have k10 : Only M a l4 := (Only.setLoop h3 _ _ _ (sb rfl m))
    try clear_value l4
    have k11 : Only M a l7 := (Only.setRing k10 _ _ (sb rfl m))
    try clear_value l7
    have k12 : Only M a l8 := (Only.setRingLink k11 _ _ (sb rfl m))
    try clear_value l8
    have k16 : Only M a l9 := (Only.foldl k12 fun t13 x14 h15 => (Only.ite (Only.declareLost h15 _ (sb rfl m)) h15))
    try clear_value l9
    exact (Only.ite (Only.lossHeadroom k16 (sb rfl m)) k10)))))

theorem Only.execLoopUp {M : Nat} {a t : State} (h : Only M a t) (x0_ x1_) (m : 0x1100100000001200 &&& M = 0x1100100000001200) :
    OnlyO M a (Sys2Proof.Machine.execLoopUp x0_ x1_ t) := by
  unfold Sys2Proof.Machine.execLoopUp
  extract_lets l1
  refine OnlyO.next ?_
  exact (Only.live h (fun t2 h3 => (Only.ite h3 (by
    extract_lets l4
    have k5 : Only M a l4 := (Only.foldFit (Only.setLoop h3 _ _ _ (sb rfl m)) _ (sb rfl m))
    try clear_value l4
    exact (Only.ite (Only.setRingLink k5 _ _ (sb rfl m)) k5)))))

theorem Only.execLaneLockLoss {M : Nat} {a t : State} (h : Only M a t) (x0_) (m : 0x1000 &&& M = 0x1000) :
    OnlyO M a (Sys2Proof.Machine.execLaneLockLoss x0_ t) := by
  unfold Sys2Proof.Machine.execLaneLockLoss
  refine OnlyO.next ?_
  exact (Only.live h (fun t1 h2 => (Only.inci h2 _ _ _ (sb rfl m) (fm rfl m))))

theorem Only.execCellLost {M : Nat} {a t : State} (h : Only M a t) (x0_) (m : 0x196250092001e200 &&& M = 0x196250092001e200) :
    OnlyO M a (Sys2Proof.Machine.execCellLost x0_ t) := by
  unfold Sys2Proof.Machine.execCellLost
  extract_lets l1
  refine OnlyO.next ?_
  exact (Only.live h (fun t2 h3 => (Only.ite (Only.lossHeadroom (Only.declareLost h3 _ (sb rfl m)) (sb rfl m)) h3)))

theorem Only.execAuxResendTimeout {M : Nat} {a t : State} (h : Only M a t) (x0_) (m : 0x2000000000000 &&& M = 0x2000000000000) :
    OnlyO M a (Sys2Proof.Machine.execAuxResendTimeout x0_ t) := by
  unfold Sys2Proof.Machine.execAuxResendTimeout
  extract_lets l1
  refine OnlyO.next ?_
  exact (Only.live h (fun t2 h3 => (by
    extract_lets l4
    exact (Only.ite (Only.updCell h3 _ _ (sb rfl m)) h3))))

theorem Only.startShift {M : Nat} {a t : State} (h : Only M a t) (x1_) (m : 0x1101100000001200 &&& M = 0x1101100000001200) :
    Only M a (State.startShift t x1_) := by
  unfold State.startShift
  extract_lets l1 l2
  have k3 : Only M a l2 := (Only.setRing (Only.sendOrder h _ _ (sb rfl m)) _ _ (sb rfl m))
  try clear_value l2
  exact (Only.ite (Only.setRingLink k3 _ _ (sb rfl m)) h)

theorem Only.toWadi {M : Nat} {a t : State} (h : Only M a t) (x1_) (m : 0x1101100000001200 &&& M = 0x1101100000001200) :
    Only M a (State.toWadi t x1_) := by
  unfold State.toWadi
  extract_lets l1 l2
  have k3 : Only M a l2 := (Only.setRing (Only.sendOrder h _ _ (sb rfl m)) _ _ (sb rfl m))
  try clear_value l2
  exact (Only.ite (Only.setRingLink k3 _ _ (sb rfl m)) h)

theorem Only.goFull {M : Nat} {a t : State} (h : Only M a t) (x1_) (m : 0x1101100000001200 &&& M = 0x1101100000001200) :
    Only M a (State.goFull t x1_) := by
  unfold State.goFull
  exact (Only.foldl h fun t1 x2 h3 => (Only.startShift h3 _ (sb rfl m)))

theorem Only.goWadi {M : Nat} {a t : State} (h : Only M a t) (x1_) (m : 0x1101100000001200 &&& M = 0x1101100000001200) :
    Only M a (State.goWadi t x1_) := by
  unfold State.goWadi
  exact (Only.ite (Only.foldl h fun t1 x2 h3 => (Only.toWadi h3 _ (sb rfl m))) (Only.refuse h _ (sb rfl m) (fm rfl m)))

theorem Only.execLinkGoFull {M : Nat} {a t : State} (h : Only M a t) (x0_ x1_) (m : 0x1101160000001200 &&& M = 0x1101160000001200) :
    OnlyO M a (Sys2Proof.Machine.execLinkGoFull x0_ x1_ t) := by
  unfold Sys2Proof.Machine.execLinkGoFull
  refine OnlyO.next ?_
  exact (Only.live h (fun t1 h2 => (Only.goFull (Only.moveTo h2 _ (sb rfl m)) _ (sb rfl m))))

theorem Only.execLinkGoWadi {M : Nat} {a t : State} (h : Only M a t) (x0_ x1_) (m : 0x1101160000001200 &&& M = 0x1101160000001200) :
    OnlyO M a (Sys2Proof.Machine.execLinkGoWadi x0_ x1_ t) := by
  unfold Sys2Proof.Machine.execLinkGoWadi
  refine OnlyO.next ?_
  exact (Only.live h (fun t1 h2 => (Only.goWadi (Only.moveTo h2 _ (sb rfl m)) _ (sb rfl m))))

theorem Only.fallBack {M : Nat} {a t : State} (h : Only M a t) (x1_) (m : 0x1101100000001200 &&& M = 0x1101100000001200) :
    Only M a (State.fallBack t x1_) := by
  unfold State.fallBack
  extract_lets l1
  exact (Only.setRingLink (Only.setRing h _ _ (sb rfl m)) _ _ (sb rfl m))

theorem Only.execRateChangeTimeout {M : Nat} {a t : State} (h : Only M a t) (x0_ x1_) (m : 0x1101160000001200 &&& M = 0x1101160000001200) :
    OnlyO M a (Sys2Proof.Machine.execRateChangeTimeout x0_ x1_ t) := by
  unfold Sys2Proof.Machine.execRateChangeTimeout
  extract_lets l1
  refine OnlyO.next ?_
  exact (Only.live h (fun t2 h3 => (by
    extract_lets l4
    have k5 : Only M a l4 := (Only.moveTo h3 _ (sb rfl m))
    try clear_value l4
    exact (Only.ite (Only.fallBack k5 _ (sb rfl m)) k5))))

theorem Only.execAutoFullRate {M : Nat} {a t : State} (h : Only M a t) (x0_ x1_) (m : 0x1101160000001200 &&& M = 0x1101160000001200) :
    OnlyO M a (Sys2Proof.Machine.execAutoFullRate x0_ x1_ t) := by
  unfold Sys2Proof.Machine.execAutoFullRate
  extract_lets l1
  refine OnlyO.next ?_
  exact (Only.live h (fun t2 h3 => (by
    extract_lets l4 l5
    have k6 : Only M a l4 := (Only.moveTo h3 _ (sb rfl m))
    try clear_value l4
    exact (Only.ite (Only.startShift k6 _ (sb rfl m)) k6))))

theorem Only.execCodeGroupLock {M : Nat} {a t : State} (h : Only M a t) (x0_ x1_) (m : 0x1103160000001200 &&& M = 0x1103160000001200) :
    OnlyO M a (Sys2Proof.Machine.execCodeGroupLock x0_ x1_ t) := by
  unfold Sys2Proof.Machine.execCodeGroupLock
  extract_lets l1
  refine OnlyO.next ?_
  exact (Only.live h (fun t2 h3 => (by
    extract_lets l4 l5 l6
    have k7 : Only M a l4 := (Only.moveTo h3 _ (sb rfl m))
    try clear_value l4
    have k8 : Only M a l6 := (Only.setRingLink (Only.setRing k7 _ _ (sb rfl m)) _ _ (sb rfl m))
    try clear_value l6
    exact (Only.ite k7 (Only.ite (Only.setRingLink (Only.setRing k7 _ _ (sb rfl m)) _ _ (sb rfl m)) (Only.ite (Only.ite (Only.fallBack k7 _ (sb rfl m)) (Only.mapCells k8 _ (sb rfl m))) k7))))))

theorem Only.writeRingEn {M : Nat} {a t : State} (h : Only M a t) (x1_) (m : 0x1101100000001200 &&& M = 0x1101100000001200) :
    Only M a (State.writeRingEn t x1_) := by
  unfold State.writeRingEn
  extract_lets l1 l2 l3 l4
  exact (Only.ite (Only.foldl (Only.wr h _ _ (sb rfl m) (fm rfl m)) fun t5 x6 h7 => (by
    extract_lets l8 l9
    have k10 : Only M a l8 := (Only.setRing h7 _ _ (sb rfl m))
    try clear_value l8
    have k11 : Only M a l9 := (Only.wri (Only.wri (Only.wri k10 _ _ _ (fm rfl m)) _ _ _ (fm rfl m)) _ _ _ (fm rfl m))
    try clear_value l9
    exact (Only.setRingLink k11 _ _ (sb rfl m)))) (Only.refuse h _ (sb rfl m) (fm rfl m)))

theorem Only.execLinkRingEnWrite {M : Nat} {a t : State} (h : Only M a t) (x0_ x1_) (m : 0x1101160000001200 &&& M = 0x1101160000001200) :
    OnlyO M a (Sys2Proof.Machine.execLinkRingEnWrite x0_ x1_ t) := by
  unfold Sys2Proof.Machine.execLinkRingEnWrite
  refine OnlyO.next ?_
  exact (Only.live h (fun t1 h2 => (Only.writeRingEn (Only.moveTo h2 _ (sb rfl m)) _ (sb rfl m))))

theorem Only.writeLinkCfg {M : Nat} {a t : State} (h : Only M a t) (x1_) (m : 0x1008 &&& M = 0x1008) :
    Only M a (State.writeLinkCfg t x1_) := by
  unfold State.writeLinkCfg
  extract_lets l1 l2
  have k3 : Only M a l2 := (Only.ite (Only.refuse h _ (sb rfl m) (fm rfl m)) h)
  try clear_value l2
  exact (Only.ite (Only.refuse k3 _ (sb rfl m) (fm rfl m)) (Only.putRw k3 _ _ (bm rfl m)))

theorem Only.execLinkCfgWrite {M : Nat} {a t : State} (h : Only M a t) (x0_) (m : 0x1008 &&& M = 0x1008) :
    OnlyO M a (Sys2Proof.Machine.execLinkCfgWrite x0_ t) := by
  unfold Sys2Proof.Machine.execLinkCfgWrite
  refine OnlyO.next ?_
  exact (Only.live h (fun t1 h2 => (Only.writeLinkCfg h2 _ (sb rfl m))))

theorem Only.wadiSlot {M : Nat} {a t : State} (h : Only M a t) (x1_ x2_) (m : 0x2000000000000 &&& M = 0x2000000000000) :
    Only M a (State.wadiSlot t x1_ x2_).1 := by
  unfold State.wadiSlot
  extract_lets l1 l2
  split
  · extract_lets l9
    have k10 : Only M a l9 := (Only.updCell h _ _ (sb rfl m))
    try clear_value l9
    exact (Only.fstMk k10)

theorem Only.wadiSlots {M : Nat} {a t : State} (h : Only M a t) (x1_) (r : Nat) (l : List Nat) (m : 0x2000000000000 &&& M = 0x2000000000000) :
    Only M a (State.wadiSlots t x1_ r l).1 := by
  induction l generalizing t with
  | nil => exact h
  | cons q l ih => exact ih (Only.wadiSlot h x1_ (r * 15 + q) (sb rfl m))

theorem Only.wrapLoop {M : Nat} {a t : State} (h : Only M a t) (x1_ x2_) (m : 0x1100100000001200 &&& M = 0x1100100000001200) :
    Only M a (State.wrapLoop t x1_ x2_) := by
  unfold State.wrapLoop
  extract_lets l1
  exact (Only.ite (Only.setLoop h _ _ _ (sb rfl m)) h)

theorem Only.countReturns {M : Nat} {a t : State} (h : Only M a t) (x1_) (m : 0x1101100000001200 &&& M = 0x1101100000001200) :
    Only M a (State.countReturns t x1_) := by
  unfold State.countReturns
  extract_lets l1 l2 l3 l4
  have k5 : Only M a l1 := (Only.wrapLoop (Only.wrapLoop h _ _ (sb rfl m)) _ _ (sb rfl m))
  try clear_value l1
  exact (Only.setRing k5 _ _ (sb rfl m))

theorem Only.countMissing {M : Nat} {a t : State} (h : Only M a t) (x1_) (m : 0x2000000002000 &&& M = 0x2000000002000) :
    Only M a (State.countMissing t x1_) := by
  unfold State.countMissing
  extract_lets l1 l2 l3 l4 l5
  have k6 : Only M a l4 := (Only.ite (Only.wri (Only.wri h _ _ _ (fm rfl m)) _ _ _ (fm rfl m)) h)
  try clear_value l4
  exact (Only.updCell k6 _ _ (sb rfl m))

theorem Only.sendFrame {M : Nat} {a t : State} (h : Only M a t) (x1_ x2_) (m : 0x1000000000000000 &&& M = 0x1000000000000000) :
    Only M a (State.sendFrame t x1_ x2_) := by
  unfold State.sendFrame
  exact (Only.emit (Only.emit h _ (sb rfl m)) _ (sb rfl m))

end Sys2Proof.Machine
end

