-- ==== Sys2Proof/Laws/OnlySafety.lean ====
section
/-! SUPPORT. `Only` of each function of Machine/Safety.lean. -/
set_option Elab.async false
namespace Sys2Proof.Machine

theorem Only.setSin {M : Nat} {a t : State} (h : Only M a t) (x1_ x2_) (m : 0x800000000000 &&& M = 0x800000000000) :
    Only M a (State.setSin t x1_ x2_) := by
  unfold State.setSin
  extract_lets l1
  exact (Only.set_saf h _ (sb rfl m))

theorem Only.showDemand {M : Nat} {a t : State} (h : Only M a t) (x1_) (m : 0x200000000 &&& M = 0x200000000) :
    Only M a (State.showDemand t x1_) := by
  unfold State.showDemand
  exact (Only.wr h _ _ (sb rfl m) (fm rfl m))

theorem Only.demandAct {M : Nat} {a t : State} (h : Only M a t) (x1_) (m : 0x1d42d90320000320 &&& M = 0x1d42d90320000320) :
    Only M a (State.demandAct t x1_) := by
  unfold State.demandAct
  extract_lets l1 l2 l3 l4 l5
  have k6 : Only M a l2 := (Only.showDemand h _ (sb rfl m))
  try clear_value l2
  have k7 : Only M a l3 := (Only.ite (Only.wake k6 _ (sb rfl m)) k6)
  try clear_value l3
  have k8 : Only M a l5 := (Only.set_saf k7 _ (sb rfl m))
  try clear_value l5
  exact (Only.ite (Only.driveOff (Only.safeState k8 _ (sb rfl m) (by decide)) _ _ (sb rfl m)) (Only.ite (Only.safeState k6 _ (sb rfl m) (by decide)) k6))

theorem Only.breakerWatch {M : Nat} {a t : State} (h : Only M a t) (m : 0x1942500120000200 &&& M = 0x1942500120000200) :
    Only M a (State.breakerWatch t) := by
  unfold State.breakerWatch
  extract_lets l1
  exact (Only.ite (Only.safeState h _ (sb rfl m) (by decide)) h)

theorem Only.channelDemand {M : Nat} {a t : State} (h : Only M a t) (x1_ x2_) (m : 0x1d42d90320000320 &&& M = 0x1d42d90320000320) :
    Only M a (State.channelDemand t x1_ x2_) := by
  unfold State.channelDemand
  extract_lets l1 l2 l3 l4 l5
  exact (Only.ite h (Only.demandAct (Only.setSin h _ _ (sb rfl m)) _ (sb rfl m)))

theorem Only.execSafetyInputDemand {M : Nat} {a t : State} (h : Only M a t) (x0_ x1_ x2_) (m : 0x1d42df0320000320 &&& M = 0x1d42df0320000320) :
    OnlyO M a (Sys2Proof.Machine.execSafetyInputDemand x0_ x1_ x2_ t) := by
  unfold Sys2Proof.Machine.execSafetyInputDemand
  refine OnlyO.next ?_
  exact (Only.live h (fun t1 h2 => (by
    extract_lets l3
    have k4 : Only M a l3 := (Only.moveTo h2 _ (sb rfl m))
    try clear_value l3
    exact (Only.ite (Only.channelDemand k4 _ _ (sb rfl m)) k4))))

theorem Only.channelRest {M : Nat} {a t : State} (h : Only M a t) (x1_ x2_) (m : 0x800200000000 &&& M = 0x800200000000) :
    Only M a (State.channelRest t x1_ x2_) := by
  unfold State.channelRest
  extract_lets l1 l2 l3 l4 l5 l6 l7 l8 l9 l10 l11 l12 l13
  have k14 : Only M a l12 := (Only.showDemand (Only.setSin h _ _ (sb rfl m)) _ (sb rfl m))
  try clear_value l12
  exact (Only.ite h (Only.ite (Only.wr k14 _ _ (sb rfl m) (fm rfl m)) k14))

theorem Only.execSafetyInputRelease {M : Nat} {a t : State} (h : Only M a t) (x0_ x1_ x2_) (m : 0x860200000000 &&& M = 0x860200000000) :
    OnlyO M a (Sys2Proof.Machine.execSafetyInputRelease x0_ x1_ x2_ t) := by
  unfold Sys2Proof.Machine.execSafetyInputRelease
  refine OnlyO.next ?_
  exact (Only.live h (fun t1 h2 => (by
    extract_lets l3
    have k4 : Only M a l3 := (Only.moveTo h2 _ (sb rfl m))
    try clear_value l3
    exact (Only.ite (Only.channelRest k4 _ _ (sb rfl m)) k4))))

theorem Only.proofFails {M : Nat} {a t : State} (h : Only M a t) (m : 0x800200000000 &&& M = 0x800200000000) :
    Only M a (State.proofFails t) := by
  unfold State.proofFails
  extract_lets l1 l2
  exact (Only.wr (Only.set_saf h _ (sb rfl m)) _ _ (sb rfl m) (fm rfl m))

theorem Only.execDiscrepancy {M : Nat} {a t : State} (h : Only M a t) (x0_ x1_) (m : 0x1100960200000200 &&& M = 0x1100960200000200) :
    OnlyO M a (Sys2Proof.Machine.execDiscrepancy x0_ x1_ t) := by
  unfold Sys2Proof.Machine.execDiscrepancy
  refine OnlyO.next ?_
  exact (Only.live h (fun t1 h2 => (by
    extract_lets l3 l4 l5 l6 l7 l8 l9
    have k10 : Only M a l3 := (Only.moveTo h2 _ (sb rfl m))
    try clear_value l3
    have k11 : Only M a l7 := (Only.setSin k10 _ _ (sb rfl m))
    try clear_value l7
    have k12 : Only M a l8 := (Only.wr k11 _ _ (sb rfl m) (fm rfl m))
    try clear_value l8
    have k13 : Only M a l9 := (Only.ite (Only.proofFails k12 (sb rfl m)) k12)
    try clear_value l9
    exact (Only.ite k10 (Only.post (Only.showDemand k13 _ (sb rfl m)) _ _ (sb rfl m))))))

theorem Only.pulseAnswer {M : Nat} {a t : State} (h : Only M a t) (x1_ x2_ x3_) (m : 0x1d42d90320000320 &&& M = 0x1d42d90320000320) :
    Only M a (State.pulseAnswer t x1_ x2_ x3_) := by
  unfold State.pulseAnswer
  extract_lets l1 l2 l3 l4
  have k5 : Only M a l3 := (Only.setSin h _ _ (sb rfl m))
  try clear_value l3
  have k6 : Only M a l4 := (Only.wr k5 _ _ (sb rfl m) (fm rfl m))
  try clear_value l4
  exact (Only.ite h (Only.ite (Only.post (Only.demandAct k6 _ (sb rfl m)) _ _ (sb rfl m)) k5))

theorem Only.execTestPulse {M : Nat} {a t : State} (h : Only M a t) (x0_ x1_ x2_) (m : 0x1d42df0320000320 &&& M = 0x1d42df0320000320) :
    OnlyO M a (Sys2Proof.Machine.execTestPulse x0_ x1_ x2_ t) := by
  unfold Sys2Proof.Machine.execTestPulse
  refine OnlyO.next ?_
  exact (Only.live h (fun t1 h2 => (by
    extract_lets l3 l4 l5
    have k6 : Only M a l3 := (Only.moveTo h2 _ (sb rfl m))
    try clear_value l3
    have k7 : Only M a l5 := (Only.set_saf k6 _ (sb rfl m))
    try clear_value l5
    exact (Only.ite k6 (Only.foldl (Only.emit k7 _ (sb rfl m)) fun t8 x9 h10 => (Only.pulseAnswer h10 _ _ _ (sb rfl m)))))))

theorem Only.inputSet {M : Nat} {a t : State} (h : Only M a t) (x1_ x2_) (m : 0x1d42d90320000320 &&& M = 0x1d42d90320000320) :
    Only M a (State.inputSet t x1_ x2_) := by
  unfold State.inputSet
  extract_lets l1 l2
  have k3 : Only M a l2 := (Only.ite h (Only.setSin h _ _ (sb rfl m)))
  try clear_value l2
  exact (Only.ite (Only.demandAct k3 _ (sb rfl m)) (Only.showDemand k3 _ (sb rfl m)))

theorem Only.execBrkFeedbackTimeout {M : Nat} {a t : State} (h : Only M a t) (x0_ x1_) (m : 0x1100160200000200 &&& M = 0x1100160200000200) :
    OnlyO M a (Sys2Proof.Machine.execBrkFeedbackTimeout x0_ x1_ t) := by
  unfold Sys2Proof.Machine.execBrkFeedbackTimeout
  refine OnlyO.next ?_
  exact (Only.live h (fun t1 h2 => (by
    extract_lets l3 l4
    have k5 : Only M a l3 := (Only.moveTo h2 _ (sb rfl m))
    try clear_value l3
    exact (Only.ite (Only.post (Only.wr k5 _ _ (sb rfl m) (fm rfl m)) _ _ (sb rfl m)) k5))))

theorem Only.clearSafeStatus {M : Nat} {a t : State} (h : Only M a t) (x1_) (m : 0x800600000000 &&& M = 0x800600000000) :
    Only M a (State.clearSafeStatus t x1_) := by
  unfold State.clearSafeStatus
  extract_lets l1 l2 l3 l4
  have k5 : Only M a l1 := (Only.ite (Only.wr h _ _ (sb rfl m) (fm rfl m)) h)
  try clear_value l1
  have k6 : Only M a l3 := (Only.wr k5 _ _ (sb rfl m) (fm rfl m))
  try clear_value l3
  have k10 : Only M a l4 := (Only.foldl k6 fun t7 x8 h9 => (Only.ite (Only.showDemand (Only.setSin h9 _ _ (sb rfl m)) _ (sb rfl m)) h9))
  try clear_value l4
  exact (Only.foldl k10 fun t11 x12 h13 => (Only.ite h13 (Only.ite (Only.refuse h13 _ (sb rfl m) (fm rfl m)) (Only.wr h13 _ _ (sb rfl m) (fm rfl m)))))

theorem Only.netStop {M : Nat} {a t : State} (h : Only M a t) (m : 0x1942d00120000200 &&& M = 0x1942d00120000200) :
    Only M a (State.netStop t) := by
  unfold State.netStop
  extract_lets l1
  exact (Only.safeState (Only.set_saf h _ (sb rfl m)) _ (sb rfl m) (by decide))

theorem Only.showCvDiff {M : Nat} {a t : State} (h : Only M a t) (m : 0x400000000 &&& M = 0x400000000) :
    Only M a (State.showCvDiff t) := by
  unfold State.showCvDiff
  extract_lets l1
  exact (Only.wr h _ _ (sb rfl m) (fm rfl m))

theorem Only.netEnable {M : Nat} {a t : State} (h : Only M a t) (m : 0x800000000000 &&& M = 0x800000000000) :
    Only M a (State.netEnable t) := by
  unfold State.netEnable
  extract_lets l1
  exact (Only.set_saf h _ (sb rfl m))

theorem Only.triadBlock {M : Nat} {a t : State} (h : Only M a t) (x1_) (m : 0x1942500120000200 &&& M = 0x1942500120000200) (f4 : x1_ ∈ latchFields) :
    Only M a (State.triadBlock t x1_) := by
  unfold State.triadBlock
  extract_lets l1 l2
  have k3 : Only M a l1 := (Only.showBrk (Only.wr h _ _ (sb rfl m) (fm rfl m)) (sb rfl m))
  try clear_value l1
  exact (Only.ite (Only.safeState h _ (sb rfl m) f4) (Only.ite (Only.set_slc k3 _ (sb rfl m)) h))

theorem Only.triadStop {M : Nat} {a t : State} (h : Only M a t) (m : 0x1942d00120000200 &&& M = 0x1942d00120000200) :
    Only M a (State.triadStop t) := by
  unfold State.triadStop
  extract_lets l1 l2 l3
  have k4 : Only M a l1 := (Only.ite (Only.triadBlock h _ (sb rfl m) (by decide)) h)
  try clear_value l1
  have k5 : Only M a l2 := (Only.ite (Only.triadBlock k4 _ (sb rfl m) (by decide)) k4)
  try clear_value l2
  exact (Only.set_saf k5 _ (sb rfl m))

theorem Only.setNet {M : Nat} {a t : State} (h : Only M a t) (x1_ x2_) (m : 0x1100100400000200 &&& M = 0x1100100400000200) :
    Only M a (State.setNet t x1_ x2_) := by
  unfold State.setNet
  extract_lets l1
  have q2 : inM M l1 = true := by unfold l1; (repeat' split) <;> exact fm rfl m
  exact (Only.ite h (Only.post (Only.wr h _ _ (sb rfl m) q2) _ _ (sb rfl m)))

theorem Only.netMiss {M : Nat} {a t : State} (h : Only M a t) (x1_) (m : 0x1100900400000200 &&& M = 0x1100900400000200) :
    Only M a (State.netMiss t x1_) := by
  unfold State.netMiss
  extract_lets l1 l2 l3 l4
  have k5 : Only M a l1 := (Only.inc h _ _ (sb rfl m) (by (repeat' split) <;> exact fm rfl m))
  try clear_value l1
  have k6 : Only M a l4 := (Only.set_saf k5 _ (sb rfl m))
  try clear_value l4
  exact (Only.ite (Only.setNet k6 _ _ (sb rfl m)) k6)

theorem Only.netGood {M : Nat} {a t : State} (h : Only M a t) (x1_) (m : 0x1100900400000200 &&& M = 0x1100900400000200) :
    Only M a (State.netGood t x1_) := by
  unfold State.netGood
  extract_lets l1 l2 l3
  have k4 : Only M a l3 := (Only.set_saf h _ (sb rfl m))
  try clear_value l3
  exact (Only.ite (Only.setNet k4 _ _ (sb rfl m)) k4)

theorem Only.netBad {M : Nat} {a t : State} (h : Only M a t) (x1_) (m : 0x800400000000 &&& M = 0x800400000000) :
    Only M a (State.netBad t x1_) := by
  unfold State.netBad
  extract_lets l1 l2
  have k3 : Only M a l1 := (Only.inc h _ _ (sb rfl m) (fm rfl m))
  try clear_value l1
  exact (Only.set_saf k3 _ (sb rfl m))

theorem Only.acceptPdu {M : Nat} {a t : State} (h : Only M a t) (x1_ x2_) (m : 0x10c00500000000 &&& M = 0x10c00500000000) :
    Only M a (State.acceptPdu t x1_ x2_) := by
  unfold State.acceptPdu
  extract_lets l1 l2 l3 l4 l5 l6 l7 l8 l9
  have k10 : Only M a l3 := (Only.set_saf h _ (sb rfl m))
  try clear_value l3
  have k11 : Only M a l4 := (Only.ite (Only.wr k10 _ _ (sb rfl m) (fm rfl m)) k10)
  try clear_value l4
  have k12 : Only M a l6 := (Only.wr k11 _ _ (sb rfl m) (fm rfl m))
  try clear_value l6
  have k13 : Only M a l7 := (Only.showCvDiff k12 (sb rfl m))
  try clear_value l7
  have k14 : Only M a l9 := (Only.set_sp k13 _ (sb rfl m))
  try clear_value l9
  exact (Only.ite (Only.clearLatch k14 _ (sb rfl m)) k14)

theorem Only.stopOn {M : Nat} {a t : State} (h : Only M a t) (x1_) (m : 0x1942d00120000200 &&& M = 0x1942d00120000200) :
    Only M a (State.stopOn t x1_) := by
  unfold State.stopOn
  exact (Only.ite (Only.netStop h (sb rfl m)) h)

theorem Only.copiesDiffer {M : Nat} {a t : State} (h : Only M a t) (m : 0x1942d00520000200 &&& M = 0x1942d00520000200) :
    Only M a (State.copiesDiffer t) := by
  unfold State.copiesDiffer
  exact (Only.netStop (Only.wr h _ _ (sb rfl m) (fm rfl m)) (sb rfl m))

theorem Only.secondCopy {M : Nat} {a t : State} (h : Only M a t) (x1_ x2_ x3_) (m : 0x1952d00520000200 &&& M = 0x1952d00520000200) :
    Only M a (State.secondCopy t x1_ x2_ x3_) := by
  unfold State.secondCopy
  extract_lets l1 l2 l3
  have k4 : Only M a l1 := (Only.netGood h _ (sb rfl m))
  try clear_value l1
  have k5 : Only M a l2 := (Only.copiesDiffer k4 (sb rfl m))
  try clear_value l2
  exact (Only.ite (Only.acceptPdu (Only.stopOn k4 _ (sb rfl m)) _ _ (sb rfl m)) (Only.set_saf k5 _ (sb rfl m)))

theorem Only.lateCopy {M : Nat} {a t : State} (h : Only M a t) (x1_ x2_) (m : 0x1942d00520000200 &&& M = 0x1942d00520000200) :
    Only M a (State.lateCopy t x1_ x2_) := by
  unfold State.lateCopy
  extract_lets l1 l2 l3
  have k4 : Only M a l1 := (Only.netGood h _ (sb rfl m))
  try clear_value l1
  have k5 : Only M a l3 := (Only.set_saf k4 _ (sb rfl m))
  try clear_value l3
  exact (Only.ite k5 (Only.copiesDiffer k5 (sb rfl m)))

theorem Only.firstCopy {M : Nat} {a t : State} (h : Only M a t) (x1_ x2_) (m : 0x1942d00520000200 &&& M = 0x1942d00520000200) :
    Only M a (State.firstCopy t x1_ x2_) := by
  unfold State.firstCopy
  extract_lets l1 l2
  have k3 : Only M a l1 := (Only.stopOn (Only.netGood h _ (sb rfl m)) _ (sb rfl m))
  try clear_value l1
  exact (Only.set_saf k3 _ (sb rfl m))

theorem Only.pduIn {M : Nat} {a t : State} (h : Only M a t) (x1_ x2_) (m : 0x1952d00520000200 &&& M = 0x1952d00520000200) :
    Only M a (State.pduIn t x1_ x2_) := by
  unfold State.pduIn
  exact (Only.ite (Only.netBad h _ (sb rfl m)) (by
    split
    · exact (Only.ite (Only.secondCopy h _ _ _ (sb rfl m)) (Only.netBad h _ (sb rfl m)))
    · exact (Only.ite (Only.lateCopy h _ _ (sb rfl m)) (Only.ite (Only.firstCopy h _ _ (sb rfl m)) (Only.netBad h _ (sb rfl m))))))

theorem Only.execSafeMessageRx {M : Nat} {a t : State} (h : Only M a t) (x0_ x1_ x2_) (m : 0x1952d60520000200 &&& M = 0x1952d60520000200) :
    OnlyO M a (Sys2Proof.Machine.execSafeMessageRx x0_ x1_ x2_ t) := by
  unfold Sys2Proof.Machine.execSafeMessageRx
  refine OnlyO.next ?_
  exact (Only.live h (fun t1 h2 => (by
    extract_lets l3
    have k4 : Only M a l3 := (Only.moveTo h2 _ (sb rfl m))
    try clear_value l3
    exact (Only.ite (Only.pduIn k4 _ _ (sb rfl m)) k4))))

theorem Only.execCopySkewTimeout {M : Nat} {a t : State} (h : Only M a t) (x0_) (m : 0x1110d60500000200 &&& M = 0x1110d60500000200) :
    OnlyO M a (Sys2Proof.Machine.execCopySkewTimeout x0_ t) := by
  unfold Sys2Proof.Machine.execCopySkewTimeout
  refine OnlyO.next ?_
  exact (Only.live h (fun t1 h2 => (by
    extract_lets l3
    have k4 : Only M a l3 := (Only.moveTo h2 _ (sb rfl m))
    try clear_value l3
    split
    · exact k4
    · extract_lets l12 l13 l14 l15 l16
      have k17 : Only M a l13 := (Only.netMiss k4 _ (sb rfl m))
      try clear_value l13
      have k18 : Only M a l16 := (Only.set_saf k17 _ (sb rfl m))
      try clear_value l16
      exact (Only.ite k4 (Only.ite (Only.acceptPdu k18 _ _ (sb rfl m)) k18)))))

theorem Only.execSafeWdogExpiry {M : Nat} {a t : State} (h : Only M a t) (x0_) (m : 0x1942d60520000200 &&& M = 0x1942d60520000200) :
    OnlyO M a (Sys2Proof.Machine.execSafeWdogExpiry x0_ t) := by
  unfold Sys2Proof.Machine.execSafeWdogExpiry
  refine OnlyO.next ?_
  exact (Only.live h (fun t1 h2 => (by
    extract_lets l3 l4 l5
    have k6 : Only M a l3 := (Only.moveTo h2 _ (sb rfl m))
    try clear_value l3
    have k7 : Only M a l5 := (Only.set_saf k6 _ (sb rfl m))
    try clear_value l5
    exact (Only.ite (Only.netStop (Only.wr k7 _ _ (sb rfl m) (fm rfl m)) (sb rfl m)) k6))))

theorem Only.execSafeMessageTx {M : Nat} {a t : State} (h : Only M a t) (x0_) (m : 0x1000860000000000 &&& M = 0x1000860000000000) :
    OnlyO M a (Sys2Proof.Machine.execSafeMessageTx x0_ t) := by
  unfold Sys2Proof.Machine.execSafeMessageTx
  refine OnlyO.next ?_
  exact (Only.live h (fun t1 h2 => (by
    extract_lets l3 l4 l5 l6 l7 l8
    have k9 : Only M a l3 := (Only.moveTo h2 _ (sb rfl m))
    try clear_value l3
    exact (Only.ite (Only.emit (Only.emit (Only.set_saf k9 _ (sb rfl m)) _ (sb rfl m)) _ (sb rfl m)) k9))))

theorem Only.safetyWritten {M : Nat} {a t : State} (h : Only M a t) (m : 0x800200000000 &&& M = 0x800200000000) :
    Only M a (State.safetyWritten t) := by
  unfold State.safetyWritten
  extract_lets l1
  exact (Only.showSil (Only.wr (Only.wr (Only.set_saf h _ (sb rfl m)) _ _ (sb rfl m) (fm rfl m)) _ _ (sb rfl m) (fm rfl m)) (sb rfl m))

theorem Only.execSafeCvDone {M : Nat} {a t : State} (h : Only M a t) (m : 0x600000000 &&& M = 0x600000000) :
    OnlyO M a (Sys2Proof.Machine.execSafeCvDone t) := by
  unfold Sys2Proof.Machine.execSafeCvDone
  refine OnlyO.next ?_
  exact (Only.live h (fun t1 h2 => (Only.ite (Only.showCvDiff (Only.showSil (Only.wr (Only.wr h2 _ _ (sb rfl m) (fm rfl m)) _ _ (sb rfl m) (fm rfl m)) (sb rfl m)) (sb rfl m)) h2)))

theorem Only.writeCommBlock {M : Nat} {a t : State} (h : Only M a t) (x1_) (m : 0x80000000000 &&& M = 0x80000000000) :
    Only M a (State.writeCommBlock t x1_) := by
  unfold State.writeCommBlock
  extract_lets l1 l2 l3 l4 l5
  exact (Only.set_pwr h _ (sb rfl m))

theorem Only.writeConfirm {M : Nat} {a t : State} (h : Only M a t) (x1_ x2_) (m : 0x1100180600000200 &&& M = 0x1100180600000200) :
    Only M a (State.writeConfirm t x1_ x2_) := by
  unfold State.writeConfirm
  exact (Only.ite (Only.ite h (Only.configRefused (Only.refuse h _ (sb rfl m) (fm rfl m)) _ _ _ (sb rfl m))) (Only.ite (Only.showSil (Only.writeCommBlock (Only.wr (Only.wr (Only.wr h _ _ (sb rfl m) (fm rfl m)) _ _ (sb rfl m) (fm rfl m)) _ _ (sb rfl m) (fm rfl m)) _ (sb rfl m)) (sb rfl m)) (Only.refuse h _ (sb rfl m) (fm rfl m))))

theorem Only.execSafeConfirmWrite {M : Nat} {a t : State} (h : Only M a t) (x0_ x1_) (m : 0x1100180600000200 &&& M = 0x1100180600000200) :
    OnlyO M a (Sys2Proof.Machine.execSafeConfirmWrite x0_ x1_ t) := by
  unfold Sys2Proof.Machine.execSafeConfirmWrite
  refine OnlyO.next ?_
  exact (Only.live h (fun t1 h2 => (Only.writeConfirm h2 _ _ (sb rfl m))))

theorem Only.setCrc {M : Nat} {a t : State} (h : Only M a t) (x1_) (m : 0x800 &&& M = 0x800) :
    Only M a (State.setCrc t x1_) := by
  unfold State.setCrc
  exact (Only.wr (Only.wr h _ _ (sb rfl m) (fm rfl m)) _ _ (sb rfl m) (fm rfl m))

theorem Only.writeCrcCfg {M : Nat} {a t : State} (h : Only M a t) (x1_) (m : 0x800 &&& M = 0x800) :
    Only M a (State.writeCrcCfg t x1_) := by
  unfold State.writeCrcCfg
  extract_lets l1
  have k2 : Only M a l1 := (Only.wr h _ _ (sb rfl m) (fm rfl m))
  try clear_value l1
  exact (Only.setCrc k2 _ (sb rfl m))

theorem Only.execCrcCfgWrite {M : Nat} {a t : State} (h : Only M a t) (x0_) (m : 0x800 &&& M = 0x800) :
    OnlyO M a (Sys2Proof.Machine.execCrcCfgWrite x0_ t) := by
  unfold Sys2Proof.Machine.execCrcCfgWrite
  refine OnlyO.next ?_
  exact (Only.live h (fun t1 h2 => (Only.writeCrcCfg h2 _ (sb rfl m))))

theorem Only.writeCrcData {M : Nat} {a t : State} (h : Only M a t) (x1_ x2_) (m : 0x800 &&& M = 0x800) :
    Only M a (State.writeCrcData t x1_ x2_) := by
  unfold State.writeCrcData
  exact (Only.setCrc h _ (sb rfl m))

theorem Only.execCrcDataWrite {M : Nat} {a t : State} (h : Only M a t) (x0_ x1_) (m : 0x800 &&& M = 0x800) :
    OnlyO M a (Sys2Proof.Machine.execCrcDataWrite x0_ x1_ t) := by
  unfold Sys2Proof.Machine.execCrcDataWrite
  refine OnlyO.next ?_
  exact (Only.live h (fun t1 h2 => (Only.writeCrcData h2 _ _ (sb rfl m))))

theorem Only.writeCrcSeed {M : Nat} {a t : State} (h : Only M a t) (x1_) (m : 0x800 &&& M = 0x800) :
    Only M a (State.writeCrcSeed t x1_) := by
  unfold State.writeCrcSeed
  exact (Only.setCrc h _ (sb rfl m))

theorem Only.execCrcSeedWrite {M : Nat} {a t : State} (h : Only M a t) (x0_) (m : 0x800 &&& M = 0x800) :
    OnlyO M a (Sys2Proof.Machine.execCrcSeedWrite x0_ t) := by
  unfold Sys2Proof.Machine.execCrcSeedWrite
  refine OnlyO.next ?_
  exact (Only.live h (fun t1 h2 => (Only.writeCrcSeed h2 _ (sb rfl m))))

end Sys2Proof.Machine
end

