-- ==== Sys2Proof/Laws/OnlyThermal.lean ====
section
/-! SUPPORT. `Only` of each function of Machine/Thermal.lean. -/
set_option Elab.async false
namespace Sys2Proof.Machine

theorem Only.thermRec {M : Nat} {a t : State} (h : Only M a t) (x1_ x2_ x3_ x4_) (m : 0x1100100000000200 &&& M = 0x1100100000000200) :
    Only M a (State.thermRec t x1_ x2_ x3_ x4_) := by
  unfold State.thermRec
  exact (Only.post h _ _ (sb rfl m))

theorem Only.levelMove {M : Nat} {a t : State} (h : Only M a t) (x1_ x2_ x3_ x4_) (m : 0x1942500120000200 &&& M = 0x1942500120000200) :
    Only M a (State.levelMove t x1_ x2_ x3_ x4_) := by
  unfold State.levelMove
  extract_lets l1 l2 l3 l4
  have k8 : Only M a l3 := (Only.foldl h fun t5 x6 h7 => (Only.thermRec h7 _ _ _ _ (sb rfl m)))
  try clear_value l3
  have k12 : Only M a l4 := (Only.foldl k8 fun t9 x10 h11 => (Only.thermRec h11 _ _ _ _ (sb rfl m)))
  try clear_value l4
  exact (Only.ite (Only.safeState k12 _ (sb rfl m) (by decide)) k12)

theorem Only.dieSensor {M : Nat} {a t : State} (h : Only M a t) (x1_) (m : 0x1b42504120000200 &&& M = 0x1b42504120000200) :
    Only M a (State.dieSensor t x1_) := by
  unfold State.dieSensor
  extract_lets l1 l2 l3 l4 l5 l6 l7 l8 l9
  have k10 : Only M a l4 := (Only.set_thm h _ (sb rfl m))
  try clear_value l4
  have k11 : Only M a l5 := (Only.wr k10 _ _ (sb rfl m) (fm rfl m))
  try clear_value l5
  exact (Only.ite h (Only.ite (Only.thermRec (Only.levelMove (Only.set_thm k11 _ (sb rfl m)) _ _ _ _ (sb rfl m)) _ _ _ _ (sb rfl m)) (Only.levelMove (Only.set_thm k10 _ (sb rfl m)) _ _ _ _ (sb rfl m))))

theorem Only.dieRound {M : Nat} {a t : State} (h : Only M a t) (m : 0x1b42504120000200 &&& M = 0x1b42504120000200) :
    Only M a (State.dieRound t) := by
  unfold State.dieRound
  extract_lets l1 l2 l3
  have k7 : Only M a l1 := (Only.foldl h fun t4 x5 h6 => (Only.dieSensor h6 _ (sb rfl m)))
  try clear_value l1
  exact (Only.wr (Only.wr (Only.wr k7 _ _ (sb rfl m) (fm rfl m)) _ _ (sb rfl m) (fm rfl m)) _ _ (sb rfl m) (fm rfl m))

theorem Only.plantRound {M : Nat} {a t : State} (h : Only M a t) (x1_) (m : 0x1b42500120000200 &&& M = 0x1b42500120000200) :
    Only M a (State.plantRound t x1_) := by
  unfold State.plantRound
  extract_lets l1 l2 l3
  split
  · exact (Only.used (Only.levelMove (Only.set_thm h _ (sb rfl m)) _ _ _ _ (sb rfl m)) (sb rfl m))
  · extract_lets l9 l10
    exact (Only.levelMove (Only.set_thm h _ (sb rfl m)) _ _ _ _ (sb rfl m))

theorem Only.dropLevels {M : Nat} {a t : State} (h : Only M a t) (x1_) (m : 0x1942500120000200 &&& M = 0x1942500120000200) :
    Only M a (State.dropLevels t x1_) := by
  unfold State.dropLevels
  extract_lets l1 l2 l3 l4
  have k5 : Only M a l4 := (Only.setCell h _ _ (sb rfl m))
  try clear_value l4
  exact (Only.ite h (Only.foldl k5 fun t6 x7 h8 => (Only.levelMove h8 _ _ _ _ (sb rfl m))))

theorem Only.cellRound {M : Nat} {a t : State} (h : Only M a t) (x1_ x2_) (m : 0x1942508120000200 &&& M = 0x1942508120000200) :
    Only M a (State.cellRound t x1_ x2_) := by
  unfold State.cellRound
  extract_lets l1 l2 l3 l4 l5 l6 l7 l8 l9 l10 l11
  have k12 : Only M a l9 := (Only.updCell h _ _ (sb rfl m))
  try clear_value l9
  have k16 : Only M a l11 := (Only.foldl k12 fun t13 x14 h15 => (Only.levelMove h15 _ _ _ _ (sb rfl m)))
  try clear_value l11
  exact (Only.wri (Only.wri (Only.wri k16 _ _ _ (fm rfl m)) _ _ _ (fm rfl m)) _ _ _ (fm rfl m))

theorem Only.showThrottle {M : Nat} {a t : State} (h : Only M a t) (m : 0x4000000000 &&& M = 0x4000000000) :
    Only M a (State.showThrottle t) := by
  unfold State.showThrottle
  exact (Only.wr (Only.wr (Only.wr h _ _ (sb rfl m) (fm rfl m)) _ _ (sb rfl m) (fm rfl m)) _ _ (sb rfl m) (fm rfl m))

theorem Only.weirStep {M : Nat} {a t : State} (h : Only M a t) (m : 0x4000000000 &&& M = 0x4000000000) :
    Only M a (State.weirStep t) := by
  unfold State.weirStep
  extract_lets l1
  exact (Only.ite (Only.wr h _ _ (sb rfl m) (fm rfl m)) (Only.wr h _ _ (sb rfl m) (fm rfl m)))

theorem Only.weirTimer {M : Nat} {a t : State} (h : Only M a t) (m : 0x200004000000000 &&& M = 0x200004000000000) :
    Only M a (State.weirTimer t) := by
  unfold State.weirTimer
  extract_lets l1
  exact (Only.ite (Only.weirStep (Only.set_thm h _ (sb rfl m)) (sb rfl m)) h)

theorem Only.weirRound {M : Nat} {a t : State} (h : Only M a t) (x1_) (m : 0x200004000000000 &&& M = 0x200004000000000) :
    Only M a (State.weirRound t x1_) := by
  unfold State.weirRound
  extract_lets l1 l2 l3
  have k4 : Only M a l3 := (Only.set_thm h _ (sb rfl m))
  try clear_value l3
  exact (Only.ite (Only.weirTimer (Only.set_thm h _ (sb rfl m)) (sb rfl m)) (Only.ite (Only.weirStep k4 (sb rfl m)) k4))

theorem Only.execWeirTimerExpiry {M : Nat} {a t : State} (h : Only M a t) (x0_) (m : 0x200064000000000 &&& M = 0x200064000000000) :
    OnlyO M a (Sys2Proof.Machine.execWeirTimerExpiry x0_ t) := by
  unfold Sys2Proof.Machine.execWeirTimerExpiry
  refine OnlyO.next ?_
  exact (Only.live h (fun t1 h2 => (Only.weirTimer (Only.moveTo h2 _ (sb rfl m)) (sb rfl m))))

theorem Only.execThermalStale {M : Nat} {a t : State} (h : Only M a t) (x0_) (m : 0x64000000000 &&& M = 0x64000000000) :
    OnlyO M a (Sys2Proof.Machine.execThermalStale x0_ t) := by
  unfold Sys2Proof.Machine.execThermalStale
  refine OnlyO.next ?_
  exact (Only.live h (fun t1 h2 => (by
    extract_lets l3 l4
    have k5 : Only M a l3 := (Only.moveTo h2 _ (sb rfl m))
    try clear_value l3
    have k6 : Only M a l4 := (Only.wr k5 _ _ (sb rfl m) (fm rfl m))
    try clear_value l4
    exact (Only.ite (Only.showThrottle (Only.wr k6 _ _ (sb rfl m) (fm rfl m)) (sb rfl m)) k5))))

theorem Only.diagTrack {M : Nat} {a t : State} (h : Only M a t) (x1_) (m : 0x20000000000 &&& M = 0x20000000000) :
    Only M a (State.diagTrack t x1_) := by
  unfold State.diagTrack
  extract_lets l1 l2
  split
  · exact (Only.ite (Only.set_tm h _ (sb rfl m)) h)
  · exact (Only.ite h (Only.set_tm h _ (sb rfl m)))

theorem Only.setShed {M : Nat} {a t : State} (h : Only M a t) (x1_) (m : 0x1140120020000208 &&& M = 0x1140120020000208) :
    Only M a (State.setShed t x1_) := by
  unfold State.setShed
  extract_lets l1
  have k2 : Only M a l1 := (Only.notice (Only.diagTrack (Only.wr h _ _ (sb rfl m) (fm rfl m)) _ (sb rfl m)) _ _ (sb rfl m))
  try clear_value l1
  exact (Only.ite h (Only.ite (Only.foldl k2 fun t3 x4 h5 => (Only.qTruncate h5 _ (sb rfl m))) k2))

theorem Only.shedRound {M : Nat} {a t : State} (h : Only M a t) (m : 0x1140120020000208 &&& M = 0x1140120020000208) :
    Only M a (State.shedRound t) := by
  unfold State.shedRound
  extract_lets l1 l2 l3 l4 l5 l6 l7 l8
  have k9 : Only M a l8 := (Only.set_tm h _ (sb rfl m))
  try clear_value l8
  exact (Only.ite (Only.setShed k9 _ (sb rfl m)) k9)

theorem Only.execShedLevelFall {M : Nat} {a t : State} (h : Only M a t) (x0_) (m : 0x1140160020000208 &&& M = 0x1140160020000208) :
    OnlyO M a (Sys2Proof.Machine.execShedLevelFall x0_ t) := by
  unfold Sys2Proof.Machine.execShedLevelFall
  refine OnlyO.next ?_
  exact (Only.live h (fun t1 h2 => (by
    extract_lets l3 l4 l5
    have k6 : Only M a l3 := (Only.moveTo h2 _ (sb rfl m))
    try clear_value l3
    split
    · exact (Only.ite (Only.setShed (Only.set_tm k6 _ (sb rfl m)) _ (sb rfl m)) k6)
    · exact k6)))

theorem Only.shedClamp {M : Nat} {a t : State} (h : Only M a t) (m : 0x1140120020000208 &&& M = 0x1140120020000208) :
    Only M a (State.shedClamp t) := by
  unfold State.shedClamp
  extract_lets l1
  exact (Only.ite (Only.setShed (Only.set_tm h _ (sb rfl m)) _ (sb rfl m)) h)

theorem Only.execShedLevelClamp {M : Nat} {a t : State} (h : Only M a t) (m : 0x1140120020000208 &&& M = 0x1140120020000208) :
    OnlyO M a (Sys2Proof.Machine.execShedLevelClamp t) := by
  unfold Sys2Proof.Machine.execShedLevelClamp
  refine OnlyO.next ?_
  exact (Only.live h (fun t1 h2 => (Only.ite (Only.shedClamp h2 (sb rfl m)) h2)))

theorem Only.writeShedCfg {M : Nat} {a t : State} (h : Only M a t) (x1_) (m : 0x20000000008 &&& M = 0x20000000008) :
    Only M a (State.writeShedCfg t x1_) := by
  unfold State.writeShedCfg
  extract_lets l1 l2 l3
  have k4 : Only M a l2 := (Only.putRw h _ _ (bm rfl m))
  try clear_value l2
  exact (Only.ite (Only.refuse h _ (sb rfl m) (fm rfl m)) (Only.ite (Only.askAt (Only.set_tm k4 _ (sb rfl m)) _ (sb rfl m)) k4))

theorem Only.execClkShedCfgWrite {M : Nat} {a t : State} (h : Only M a t) (x0_) (m : 0x20000000008 &&& M = 0x20000000008) :
    OnlyO M a (Sys2Proof.Machine.execClkShedCfgWrite x0_ t) := by
  unfold Sys2Proof.Machine.execClkShedCfgWrite
  refine OnlyO.next ?_
  exact (Only.live h (fun t1 h2 => (Only.writeShedCfg h2 _ (sb rfl m))))

theorem Only.execDiagDeferred {M : Nat} {a t : State} (h : Only M a t) (x0_) (m : 0x1900160000000208 &&& M = 0x1900160000000208) :
    OnlyO M a (Sys2Proof.Machine.execDiagDeferred x0_ t) := by
  unfold Sys2Proof.Machine.execDiagDeferred
  refine OnlyO.next ?_
  exact (Only.live h (fun t1 h2 => (by
    extract_lets l3
    have k4 : Only M a l3 := (Only.moveTo h2 _ (sb rfl m))
    try clear_value l3
    exact (Only.ite (Only.noticeOpen (Only.wr k4 _ _ (sb rfl m) (fm rfl m)) _ (sb rfl m)) k4))))

theorem Only.execHkRoundStart {M : Nat} {a t : State} (h : Only M a t) (x0_) (m : 0x40060040000000 &&& M = 0x40060040000000) :
    OnlyO M a (Sys2Proof.Machine.execHkRoundStart x0_ t) := by
  unfold Sys2Proof.Machine.execHkRoundStart
  refine OnlyO.next ?_
  exact (Only.live h (fun t1 h2 => (by
    extract_lets l3 l4 l5 l6
    have k7 : Only M a l3 := (Only.moveTo h2 _ (sb rfl m))
    try clear_value l3
    have k8 : Only M a l6 := (Only.set_adc k7 _ (sb rfl m))
    try clear_value l6
    exact (Only.ite k7 (Only.ite (Only.inc k8 _ _ (sb rfl m) (fm rfl m)) k8)))))

theorem Only.hkResult {M : Nat} {a t : State} (h : Only M a t) (x1_ x2_ x3_) (m : 0x40000060000000 &&& M = 0x40000060000000) :
    Only M a (State.hkResult t x1_ x2_ x3_) := by
  unfold State.hkResult
  extract_lets l1 l2
  have k3 : Only M a l2 := (Only.wri (Only.wri h _ _ _ (fm rfl m)) _ _ _ (fm rfl m))
  try clear_value l2
  exact (Only.ite (Only.qSend k3 _ _ _ (sb rfl m)) k3)

theorem Only.hkResults {M : Nat} {a t : State} (h : Only M a t) (x1_ x2_) (l : List Nat) (m : 0x40000060000000 &&& M = 0x40000060000000) :
    Only M a (State.hkResults t x1_ x2_ l) := by
  induction l generalizing t x1_ x2_ with
  | nil => exact h
  | cons v l ih =>
    unfold State.hkResults
    split
    · exact ih (Only.hkResult h _ _ _ (sb rfl m)) _ _
    · exact ih h _ _

theorem Only.thermalRound {M : Nat} {a t : State} (h : Only M a t) (x1_) (m : 0x1b4250c120000200 &&& M = 0x1b4250c120000200) :
    Only M a (State.thermalRound t x1_) := by
  unfold State.thermalRound
  extract_lets l1 l2 l3 l4 l5 l6 l7 l8
  have k9 : Only M a l1 := (Only.wr h _ _ (sb rfl m) (fm rfl m))
  try clear_value l1
  have k10 : Only M a l2 := (Only.plantRound (Only.plantRound (Only.dieRound k9 (sb rfl m)) _ (sb rfl m)) _ (sb rfl m))
  try clear_value l2
  have k14 : Only M a l3 := (Only.foldl k10 fun t11 x12 h13 => (Only.cellRound h13 _ _ (sb rfl m)))
  try clear_value l3
  have k18 : Only M a l4 := (Only.foldl k14 fun t15 x16 h17 => (Only.dropLevels h17 _ (sb rfl m)))
  try clear_value l4
  have k19 : Only M a l8 := (Only.set_slc_thm k18 _ (sb rfl m) _ (sb rfl m))
  try clear_value l8
  exact (Only.weirRound (Only.showThrottle k19 (sb rfl m)) _ (sb rfl m))

theorem Only.roundReadings {M : Nat} {a t : State} (h : Only M a t) (m : 0x50000000000 &&& M = 0x50000000000) :
    Only M a (State.roundReadings t) := by
  unfold State.roundReadings
  extract_lets l1 l2 l3
  have k4 : Only M a l1 := (Only.wr (Only.wr h _ _ (sb rfl m) (fm rfl m)) _ _ (sb rfl m) (fm rfl m))
  try clear_value l1
  have k5 : Only M a l3 := (Only.set_clk k4 _ (sb rfl m))
  try clear_value l3
  exact (Only.ite (Only.newDividers k5 (sb rfl m)) k5)

theorem Only.roundDone {M : Nat} {a t : State} (h : Only M a t) (x1_) (m : 0x1b4257c160000208 &&& M = 0x1b4257c160000208) :
    Only M a (State.roundDone t x1_) := by
  unfold State.roundDone
  extract_lets l1 l2 l3 l4 l5
  have k6 : Only M a l1 := (Only.qRunAll h (sb rfl m))
  try clear_value l1
  have k7 : Only M a l2 := (Only.roundCorrect (Only.hkResults k6 _ _ _ (sb rfl m)) _ (sb rfl m))
  try clear_value l2
  have k8 : Only M a l5 := (Only.set_adc k7 _ (sb rfl m))
  try clear_value l5
  exact (Only.qRunAll (Only.shedRound (Only.thermalRound (Only.roundReadings k8 (sb rfl m)) _ (sb rfl m)) (sb rfl m)) (sb rfl m))

theorem Only.execHkRoundDone {M : Nat} {a t : State} (h : Only M a t) (x0_ x1_) (m : 0x1b4257c160000208 &&& M = 0x1b4257c160000208) :
    OnlyO M a (Sys2Proof.Machine.execHkRoundDone x0_ x1_ t) := by
  unfold Sys2Proof.Machine.execHkRoundDone
  refine OnlyO.next ?_
  exact (Only.live h (fun t1 h2 => (by
    extract_lets l3
    have k4 : Only M a l3 := (Only.moveTo h2 _ (sb rfl m))
    try clear_value l3
    exact (Only.ite k4 (Only.roundDone k4 _ (sb rfl m))))))

end Sys2Proof.Machine
end

