-- ==== Sys2Proof/Laws/OnlyJoin.lean ====
section
/-! SUPPORT. `Only` of each function of Machine/Join.lean. -/
set_option Elab.async false
namespace Sys2Proof.Machine

theorem Only.stepTick {M : Nat} {a t : State} (h : Only M a t) (x1_) (m : 0x2000000000000 &&& M = 0x2000000000000) :
    Only M a (State.stepTick t x1_) := by
  unfold State.stepTick
  extract_lets l1
  exact (Only.ite (Only.updCell h _ _ (sb rfl m)) h)

theorem Only.execSpillTimeout {M : Nat} {a t : State} (h : Only M a t) (x0_) (m : 0x1102100000008200 &&& M = 0x1102100000008200) :
    OnlyO M a (Sys2Proof.Machine.execSpillTimeout x0_ t) := by
  unfold Sys2Proof.Machine.execSpillTimeout
  extract_lets l1
  refine OnlyO.next ?_
  exact (Only.live h (fun t2 h3 => (by
    extract_lets l4 l5
    have k6 : Only M a l5 := (Only.updCell h3 _ _ (sb rfl m))
    try clear_value l5
    split
    · exact (Only.ite (Only.cellEvent (Only.sendAux k6 _ _ _ (sb rfl m)) _ _ _ _ (sb rfl m)) h3)
    · exact h3)))

theorem Only.refuseService {M : Nat} {a t : State} (h : Only M a t) (x1_ x2_) (m : 0x100000004000 &&& M = 0x100000004000) :
    Only M a (State.refuseService t x1_ x2_) := by
  unfold State.refuseService
  exact (Only.complete (Only.refuse h _ (sb rfl m) (fm rfl m)) _ _ _ _ (sb rfl m))

theorem Only.runService {M : Nat} {a t : State} (h : Only M a t) (x1_ x2_ x3_ x4_) (g4 : ∀ y0 u, Only M a u → Only M a (x4_ y0 u)) (m : 0x1102100000004700 &&& M = 0x1102100000004700) :
    Only M a (State.runService t x1_ x2_ x3_ x4_) := by
  unfold State.runService
  exact (Only.runDesc h _ _ _ (sb rfl m) (fun t1 t2 h3 => (by
    split
    · exact (Only.complete h3 _ _ _ _ (sb rfl m))
    · exact (Only.ite (Only.complete h3 _ _ _ _ (sb rfl m)) (Only.ite (g4 _ _ h3) (Only.refuseService h3 _ _ (sb rfl m)))))))

theorem Only.keepService {M : Nat} {a t : State} (h : Only M a t) (x1_ x2_ x3_ x4_) (m : 0x2000000000000 &&& M = 0x2000000000000) :
    Only M a (State.keepService t x1_ x2_ x3_ x4_) := by
  unfold State.keepService
  exact (Only.updCell h _ _ (sb rfl m))

theorem Only.execCellRemove {M : Nat} {a t : State} (h : Only M a t) (x0_ x1_) (m : 0x1102100000004700 &&& M = 0x1102100000004700) :
    OnlyO M a (Sys2Proof.Machine.execCellRemove x0_ x1_ t) := by
  unfold Sys2Proof.Machine.execCellRemove
  refine OnlyO.next ?_
  exact (Only.live h (fun t1 h2 => (Only.runService h2 _ _ _ _ (fun t3 t4 h5 => (Only.keepService h5 _ _ _ _ (sb rfl m))) (sb rfl m))))

theorem Only.execCellReturn {M : Nat} {a t : State} (h : Only M a t) (x0_ x1_) (m : 0x1102100000004700 &&& M = 0x1102100000004700) :
    OnlyO M a (Sys2Proof.Machine.execCellReturn x0_ x1_ t) := by
  unfold Sys2Proof.Machine.execCellReturn
  refine OnlyO.next ?_
  exact (Only.live h (fun t1 h2 => (Only.runService h2 _ _ _ _ (fun t3 t4 h5 => (Only.keepService h5 _ _ _ _ (sb rfl m))) (sb rfl m))))

theorem Only.nodeFwData {M : Nat} {a t : State} (h : Only M a t) (x1_ x2_) (m : 0x2000000000000 &&& M = 0x2000000000000) :
    Only M a (State.nodeFwData t x1_ x2_) := by
  unfold State.nodeFwData
  extract_lets l1 l2
  have k6 : Only M a l2 := (Only.foldl h fun t3 x4 h5 => (Only.sendAux h5 _ _ _ (sb rfl m)))
  try clear_value l2
  exact (Only.sendAux k6 _ _ _ (sb rfl m))

theorem Only.execCellNodeFw {M : Nat} {a t : State} (h : Only M a t) (x0_ x1_ x2_ x3_) (m : 0x1102100000004700 &&& M = 0x1102100000004700) :
    OnlyO M a (Sys2Proof.Machine.execCellNodeFw x0_ x1_ x2_ x3_ t) := by
  unfold Sys2Proof.Machine.execCellNodeFw
  refine OnlyO.next ?_
  exact (Only.live h (fun t1 h2 => (Only.runService h2 _ _ _ _ (fun t3 t4 h5 => (by
    extract_lets l6
    have k7 : Only M a l6 := (Only.keepService h5 _ _ _ _ (sb rfl m))
    try clear_value l6
    exact (Only.ite (Only.nodeFwData k7 _ _ (sb rfl m)) (Only.access k7 _ (sb rfl m))))) (sb rfl m))))

theorem Only.removed {M : Nat} {a t : State} (h : Only M a t) (x1_) (m : 0x110210000002c200 &&& M = 0x110210000002c200) :
    Only M a (State.removed t x1_) := by
  unfold State.removed
  exact (Only.cellEvent (Only.spillOn (Only.wri (Only.enter h _ _ (sb rfl m)) _ _ _ (fm rfl m)) _ (sb rfl m)) _ _ _ _ (sb rfl m))

theorem Only.resumeJoin {M : Nat} {a t : State} (h : Only M a t) (x1_) (m : 0x200000000e000 &&& M = 0x200000000e000) :
    Only M a (State.resumeJoin t x1_) := by
  unfold State.resumeJoin
  extract_lets l1
  exact (Only.ite (Only.ite (Only.startConfig (Only.enter h _ _ (sb rfl m)) _ (sb rfl m)) (Only.startVerify h _ (sb rfl m))) (Only.ite (Only.ite (Only.startConfig (Only.enter h _ _ (sb rfl m)) _ (sb rfl m)) (Only.ite (Only.enter h _ _ (sb rfl m)) (Only.sendAux (Only.enter h _ _ (sb rfl m)) _ _ _ (sb rfl m)))) (Only.enter h _ _ (sb rfl m))))

theorem Only.serviceAct {M : Nat} {a t : State} (h : Only M a t) (x1_) (m : 0x110210000002e200 &&& M = 0x110210000002e200) :
    Only M a (State.serviceAct t x1_) := by
  unfold State.serviceAct
  extract_lets l1 l2 l3 l4
  have k5 : Only M a l2 := (Only.updCell h _ _ (sb rfl m))
  try clear_value l2
  have k6 : Only M a l3 := (Only.wri k5 _ _ _ (fm rfl m))
  try clear_value l3
  have k7 : Only M a l4 := (Only.wri k5 _ _ _ (fm rfl m))
  try clear_value l4
  exact (Only.ite (Only.ite k6 (Only.ite (Only.removed k6 _ (sb rfl m)) (Only.updCell (Only.enter k6 _ _ (sb rfl m)) _ _ (sb rfl m)))) (Only.ite (Only.ite (Only.resumeJoin k7 _ (sb rfl m)) (Only.ite (Only.updCell k7 _ _ (sb rfl m)) k7)) k5))

theorem Only.stateAct {M : Nat} {a t : State} (h : Only M a t) (x1_) (m : 0x110210000000e200 &&& M = 0x110210000000e200) :
    Only M a (State.stateAct t x1_) := by
  unfold State.stateAct
  extract_lets l1 l2
  have k3 : Only M a l2 := (Only.askEnter h _ _ (sb rfl m))
  try clear_value l2
  exact (Only.ite (Only.spillOn (Only.enter k3 _ _ (sb rfl m)) _ (sb rfl m)) (Only.ite (Only.linkedOn k3 _ (sb rfl m)) (Only.ite (Only.enter k3 _ _ (sb rfl m)) (Only.ite (Only.ite (Only.resumeJoin k3 _ (sb rfl m)) k3) (Only.ite (Only.joinFail k3 _ _ (sb rfl m)) k3)))))

theorem Only.serviceDue {M : Nat} {a t : State} (h : Only M a t) (m : 0x110210000002e200 &&& M = 0x110210000002e200) :
    Only M a (State.serviceDue t) := by
  unfold State.serviceDue
  extract_lets l1
  have k5 : Only M a l1 := (Only.foldl h fun t2 x3 h4 => (Only.stateAct h4 _ (sb rfl m)))
  try clear_value l1
  exact (Only.foldl k5 fun t6 x7 h8 => (Only.serviceAct h8 _ (sb rfl m)))

theorem Only.execReturnTripTimeout {M : Nat} {a t : State} (h : Only M a t) (x0_) (m : 0x1102100000008200 &&& M = 0x1102100000008200) :
    OnlyO M a (Sys2Proof.Machine.execReturnTripTimeout x0_ t) := by
  unfold Sys2Proof.Machine.execReturnTripTimeout
  extract_lets l1
  refine OnlyO.next ?_
  exact (Only.live h (fun t2 h3 => (by
    extract_lets l4 l5
    have k6 : Only M a l4 := (Only.wri (Only.wri h3 _ _ _ (fm rfl m)) _ _ _ (fm rfl m))
    try clear_value l4
    have k7 : Only M a l5 := (Only.updCell k6 _ _ (sb rfl m))
    try clear_value l5
    split
    · exact (Only.ite (Only.endService (Only.cellEvent k7 _ _ _ _ (sb rfl m)) _ _ _ _ (sb rfl m)) h3)
    · exact h3)))

theorem Only.joinTick {M : Nat} {a t : State} (h : Only M a t) (x1_ x2_) (m : 0x2000000000000 &&& M = 0x2000000000000) :
    Only M a (State.joinTick t x1_ x2_) := by
  unfold State.joinTick
  extract_lets l1 l2 l3 l4
  exact (Only.ite h (Only.ite (Only.updCell h _ _ (sb rfl m)) (Only.ite (Only.updCell h _ _ (sb rfl m)) h)))

theorem Only.startPrecharge {M : Nat} {a t : State} (h : Only M a t) (x1_) (m : 0x200000000c000 &&& M = 0x200000000c000) :
    Only M a (State.startPrecharge t x1_) := by
  unfold State.startPrecharge
  extract_lets l1 l2 l3
  have k4 : Only M a l2 := (Only.wri (Only.enter h _ _ (sb rfl m)) _ _ _ (fm rfl m))
  try clear_value l2
  have k5 : Only M a l3 := (Only.updCell k4 _ _ (sb rfl m))
  try clear_value l3
  exact (Only.ite (Only.sendAux k5 _ _ _ (sb rfl m)) k5)

theorem Only.execVerifyPass {M : Nat} {a t : State} (h : Only M a t) (x0_ x1_) (m : 0x206000000c000 &&& M = 0x206000000c000) :
    OnlyO M a (Sys2Proof.Machine.execVerifyPass x0_ x1_ t) := by
  unfold Sys2Proof.Machine.execVerifyPass
  extract_lets l1
  refine OnlyO.next ?_
  exact (Only.live h (fun t2 h3 => (by
    extract_lets l4
    have k5 : Only M a l4 := (Only.moveTo h3 _ (sb rfl m))
    try clear_value l4
    exact (Only.ite (Only.startPrecharge k5 _ (sb rfl m)) k5))))

theorem Only.execVerifyTimeout {M : Nat} {a t : State} (h : Only M a t) (x0_ x1_) (m : 0x110216000000c200 &&& M = 0x110216000000c200) :
    OnlyO M a (Sys2Proof.Machine.execVerifyTimeout x0_ x1_ t) := by
  unfold Sys2Proof.Machine.execVerifyTimeout
  extract_lets l1
  refine OnlyO.next ?_
  exact (Only.live h (fun t2 h3 => (by
    extract_lets l4
    have k5 : Only M a l4 := (Only.moveTo h3 _ (sb rfl m))
    try clear_value l4
    exact (Only.ite (Only.joinFail k5 _ _ (sb rfl m)) k5))))

theorem Only.execPrechargeTimeout {M : Nat} {a t : State} (h : Only M a t) (x0_ x1_) (m : 0x110216000000c200 &&& M = 0x110216000000c200) :
    OnlyO M a (Sys2Proof.Machine.execPrechargeTimeout x0_ x1_ t) := by
  unfold Sys2Proof.Machine.execPrechargeTimeout
  extract_lets l1
  refine OnlyO.next ?_
  exact (Only.live h (fun t2 h3 => (by
    extract_lets l4 l5
    have k6 : Only M a l4 := (Only.moveTo h3 _ (sb rfl m))
    try clear_value l4
    have k7 : Only M a l5 := (Only.wri k6 _ _ _ (fm rfl m))
    try clear_value l5
    exact (Only.ite (Only.ite (Only.joinFail k6 _ _ (sb rfl m)) (Only.sendAux (Only.updCell k7 _ _ (sb rfl m)) _ _ _ (sb rfl m))) k6))))

theorem Only.execPrechargeDone {M : Nat} {a t : State} (h : Only M a t) (x0_ x1_) (m : 0x110e16000200c200 &&& M = 0x110e16000200c200) :
    OnlyO M a (Sys2Proof.Machine.execPrechargeDone x0_ x1_ t) := by
  unfold Sys2Proof.Machine.execPrechargeDone
  extract_lets l1
  refine OnlyO.next ?_
  exact (Only.live h (fun t2 h3 => (by
    extract_lets l4 l5
    have k6 : Only M a l4 := (Only.moveTo h3 _ (sb rfl m))
    try clear_value l4
    have k7 : Only M a l5 := (Only.updCell (Only.enter k6 _ _ (sb rfl m)) _ _ (sb rfl m))
    try clear_value l5
    exact (Only.ite (Only.ite (Only.packJoin k7 _ (sb rfl m)) (Only.ite (Only.pvJoin k7 _ (sb rfl m)) k7)) k6))))

theorem Only.rampTick {M : Nat} {a t : State} (h : Only M a t) (x1_) (m : 0x2000000000000 &&& M = 0x2000000000000) :
    Only M a (State.rampTick t x1_) := by
  unfold State.rampTick
  extract_lets l1 l2
  have k3 : Only M a l1 := (Only.updCell h _ _ (sb rfl m))
  try clear_value l1
  exact (Only.ite (Only.updCell k3 _ _ (sb rfl m)) h)

theorem Only.execRampComplete {M : Nat} {a t : State} (h : Only M a t) (x0_) (m : 0x110e10000002c200 &&& M = 0x110e10000002c200) :
    OnlyO M a (Sys2Proof.Machine.execRampComplete x0_ t) := by
  unfold Sys2Proof.Machine.execRampComplete
  extract_lets l1
  refine OnlyO.next ?_
  exact (Only.live h (fun t2 h3 => (Only.ite (by
    extract_lets l4 l5
    have k6 : Only M a l4 := (Only.wri (Only.enter h3 _ _ (sb rfl m)) _ _ _ (fm rfl m))
    try clear_value l4
    have k7 : Only M a l5 := (Only.ite (Only.queueScan k6 _ (sb rfl m)) k6)
    try clear_value l5
    exact (Only.endService (Only.cellEvent k7 _ _ _ _ (sb rfl m)) _ _ _ _ (sb rfl m))) h3)))

theorem Only.execRampOutComplete {M : Nat} {a t : State} (h : Only M a t) (x0_) (m : 0x110210000002c200 &&& M = 0x110210000002c200) :
    OnlyO M a (Sys2Proof.Machine.execRampOutComplete x0_ t) := by
  unfold Sys2Proof.Machine.execRampOutComplete
  extract_lets l1
  refine OnlyO.next ?_
  exact (Only.live h (fun t2 h3 => (Only.ite (Only.removed h3 _ (sb rfl m)) h3)))

end Sys2Proof.Machine
end

