-- ==== Sys2Proof/Laws/OnlyMetering.lean ====
section
/-! SUPPORT. `Only` of each function of Machine/Metering.lean. -/
set_option Elab.async false
namespace Sys2Proof.Machine

theorem Only.chainEdge {M : Nat} {a t : State} (h : Only M a t) (x1_ x2_) (m : 0x80000000000000 &&& M = 0x80000000000000) :
    Only M a (State.chainEdge t x1_ x2_) := by
  unfold State.chainEdge
  extract_lets l1 l2 l3 l4
  exact (Only.ite (Only.set_mtr h _ (sb rfl m)) (Only.set_mtr h _ (sb rfl m)))

theorem Only.meterEdges {M : Nat} {a t : State} (h : Only M a t) (x1_ x2_) (l : List Nat) (m : 0x80000000000000 &&& M = 0x80000000000000) :
    Only M a (State.meterEdges t x1_ x2_ l) := by
  induction l generalizing t x2_ with
  | nil => exact h
  | cons v l ih => exact ih (Only.chainEdge h _ _ (sb rfl m)) _

theorem Only.meterSamples {M : Nat} {a t : State} (h : Only M a t) (x1_) (m : 0x80000000000000 &&& M = 0x80000000000000) :
    Only M a (State.meterSamples t x1_) := by
  unfold State.meterSamples
  exact (Only.meterEdges h _ _ _ (sb rfl m))

theorem Only.acCycle {M : Nat} {a t : State} (h : Only M a t) (m : 0x880000000000000 &&& M = 0x880000000000000) :
    Only M a (State.acCycle t) := by
  unfold State.acCycle
  extract_lets l1 l2 l3 l4 l5 l6 l7
  have k8 : Only M a l4 := (Only.ite (Only.used h (sb rfl m)) h)
  try clear_value l4
  split
  · exact (Only.set_mtr h _ (sb rfl m))
  · extract_lets l14 l15 l16 l17 l18 l19
    exact (Only.set_mtr k8 _ (sb rfl m))

theorem Only.clearFlags {M : Nat} {a t : State} (h : Only M a t) (m : 0x82000000000000 &&& M = 0x82000000000000) :
    Only M a (State.clearFlags t) := by
  unfold State.clearFlags
  extract_lets l1 l2 l3
  have k4 : Only M a l2 := (Only.mapCells h _ (sb rfl m))
  try clear_value l2
  exact (Only.set_mtr k4 _ (sb rfl m))

theorem Only.formLatch {M : Nat} {a t : State} (h : Only M a t) (x1_) (m : 0x82000000000000 &&& M = 0x82000000000000) :
    Only M a (State.formLatch t x1_) := by
  unfold State.formLatch
  extract_lets l1 l2 l3 l4
  have k5 : Only M a l3 := (Only.clearFlags h (sb rfl m))
  try clear_value l3
  exact (Only.set_mtr k5 _ (sb rfl m))

theorem Only.showMeans {M : Nat} {a t : State} (h : Only M a t) (m : 0x80001000000000 &&& M = 0x80001000000000) :
    Only M a (State.showMeans t) := by
  unfold State.showMeans
  extract_lets l1 l2 l3 l4 l5
  have k9 : Only M a l3 := (Only.foldl h fun t6 x7 h8 => (Only.wri h8 _ _ _ (fm rfl m)))
  try clear_value l3
  have k13 : Only M a l4 := (Only.ite h (Only.foldl k9 fun t10 x11 h12 => (Only.wri (Only.wri h12 _ _ _ (fm rfl m)) _ _ _ (fm rfl m))))
  try clear_value l4
  exact (Only.set_mtr k13 _ (sb rfl m))

theorem Only.beginSnap {M : Nat} {a t : State} (h : Only M a t) (x1_) (m : 0x180000000000000 &&& M = 0x180000000000000) :
    Only M a (State.beginSnap t x1_) := by
  unfold State.beginSnap
  extract_lets l1
  exact (Only.set_mtr_jr h _ (sb rfl m) _ (sb rfl m))

theorem Only.execMeterLatch {M : Nat} {a t : State} (h : Only M a t) (x0_) (m : 0x182061800000000 &&& M = 0x182061800000000) :
    OnlyO M a (Sys2Proof.Machine.execMeterLatch x0_ t) := by
  unfold Sys2Proof.Machine.execMeterLatch
  refine OnlyO.next ?_
  exact (Only.live h (fun t1 h2 => (by
    extract_lets l3 l4 l5 l6 l7
    have k8 : Only M a l3 := (Only.moveTo h2 _ (sb rfl m))
    try clear_value l3
    have k9 : Only M a l5 := (Only.formLatch k8 _ (sb rfl m))
    try clear_value l5
    have k10 : Only M a l7 := (Only.ite (Only.set_mtr k9 _ (sb rfl m)) k8)
    try clear_value l7
    split
    · extract_lets l17 l18
      have k19 : Only M a l17 := (Only.showMeans (Only.wr k10 _ _ (sb rfl m) (fm rfl m)) (sb rfl m))
      try clear_value l17
      exact (Only.ite (Only.beginSnap (Only.set_mtr k19 _ (sb rfl m)) _ (sb rfl m)) k10)
    · exact k10)))

theorem Only.makeRec {M : Nat} {a t : State} (h : Only M a t) (x1_) (m : 0x1180100000000200 &&& M = 0x1180100000000200) :
    Only M a (State.makeRec t x1_) := by
  unfold State.makeRec
  extract_lets l1 l2 l3 l4 l5 l6
  have k7 : Only M a l6 := (Only.set_mtr_jr h _ (sb rfl m) _ (sb rfl m))
  try clear_value l6
  exact (Only.foldl k7 fun t8 x9 h10 => (Only.meterFlagAt h10 _ _ _ _ _ _ (sb rfl m)))

theorem Only.giveBack {M : Nat} {a t : State} (h : Only M a t) (x1_ x2_) (m : 0x82000000000000 &&& M = 0x82000000000000) :
    Only M a (State.giveBack t x1_ x2_) := by
  unfold State.giveBack
  extract_lets l1 l2
  exact (Only.ite (Only.updMtr h _ _ (sb rfl m)) (Only.set_mtr h _ (sb rfl m)))

theorem Only.mergeRec {M : Nat} {a t : State} (h : Only M a t) (x1_) (m : 0x82000800000000 &&& M = 0x82000800000000) :
    Only M a (State.mergeRec t x1_) := by
  unfold State.mergeRec
  exact (Only.giveBack (Only.inc h _ _ (sb rfl m) (fm rfl m)) _ _ (sb rfl m))

theorem Only.makeRecs {M : Nat} {a t : State} (h : Only M a t) (x1_) (m : 0x1182102800000200 &&& M = 0x1182102800000200) :
    Only M a (State.makeRecs t x1_) := by
  unfold State.makeRecs
  extract_lets l1 l2 l3
  exact (Only.ite (Only.foldl (Only.meterFlag (Only.wr h _ _ (sb rfl m) (fm rfl m)) _ _ _ (sb rfl m)) fun t4 x5 h6 => (Only.mergeRec h6 _ (sb rfl m))) (Only.foldl (Only.showCis h (sb rfl m)) fun t7 x8 h9 => (Only.ite (Only.mergeRec h9 _ (sb rfl m)) (Only.makeRec h9 _ (sb rfl m)))))

theorem Only.latchRecs {M : Nat} {a t : State} (h : Only M a t) (x1_) (m : 0x1182102800000200 &&& M = 0x1182102800000200) :
    Only M a (State.latchRecs t x1_) := by
  unfold State.latchRecs
  extract_lets l1
  exact (Only.ite (Only.makeRecs (Only.set_mtr h _ (sb rfl m)) _ (sb rfl m)) (Only.makeRecs h _ (sb rfl m)))

theorem Only.commitSnap {M : Nat} {a t : State} (h : Only M a t) (x1_) (m : 0x100000000000000 &&& M = 0x100000000000000) :
    Only M a (State.commitSnap t x1_) := by
  unfold State.commitSnap
  extract_lets l1
  have k2 : Only M a l1 := (Only.set_jr h _ (sb rfl m))
  try clear_value l1
  exact (Only.foldl k2 fun t3 x4 h5 => (Only.setNode h5 _ _ _ (sb rfl m)))

theorem Only.holdMain {M : Nat} {a t : State} (h : Only M a t) (m : 0x80000000040 &&& M = 0x80000000040) :
    Only M a (State.holdMain t) := by
  unfold State.holdMain
  extract_lets l1 l2
  have k3 : Only M a l1 := (Only.wr h _ _ (sb rfl m) (fm rfl m))
  try clear_value l1
  exact (Only.set_pwr k3 _ (sb rfl m))

theorem Only.execSnapshotCommitted {M : Nat} {a t : State} (h : Only M a t) (m : 0x1fffffffffffffff &&& M = 0x1fffffffffffffff) :
    OnlyO M a (Sys2Proof.Machine.execSnapshotCommitted t) := by
  unfold Sys2Proof.Machine.execSnapshotCommitted
  refine OnlyO.next ?_
  exact (Only.live h (fun t1 h2 => (by
    extract_lets l3 l4
    have k5 : Only M a l4 := (Only.set_mtr h2 _ (sb rfl m))
    try clear_value l4
    split
    · exact h2
    · extract_lets l12 l13 l14
      have k15 : Only M a l12 := (Only.commitSnap k5 _ (sb rfl m))
      try clear_value l12
      have k16 : Only M a l14 := (Only.set_pwr k15 _ (sb rfl m))
      try clear_value l14
      exact (Only.ite (Only.ite (Only.holdMain k16 (sb rfl m)) (Only.powerOn k16 (sb rfl m))) (Only.latchRecs k15 _ (sb rfl m))))))

theorem Only.execRecordSigned {M : Nat} {a t : State} (h : Only M a t) (x0_) (m : 0x1180162000000200 &&& M = 0x1180162000000200) :
    OnlyO M a (Sys2Proof.Machine.execRecordSigned x0_ t) := by
  unfold Sys2Proof.Machine.execRecordSigned
  refine OnlyO.next ?_
  exact (Only.live h (fun t1 h2 => (by
    extract_lets l3 l4 l5
    have k6 : Only M a l3 := (Only.moveTo h2 _ (sb rfl m))
    try clear_value l3
    split
    · exact k6
    · extract_lets l13 l14 l15 l16
      have k17 : Only M a l16 := (Only.set_mtr_jr k6 _ (sb rfl m) _ (sb rfl m))
      try clear_value l16
      exact (Only.ite k6 (Only.showCis (Only.postRecord k17 _ (sb rfl m)) (sb rfl m))))))

theorem Only.execLease {M : Nat} {a t : State} (h : Only M a t) (x0_ x1_ x2_ x3_ x4_ x5_) (m : 0x1182100000000700 &&& M = 0x1182100000000700) :
    OnlyO M a (Sys2Proof.Machine.execLease x0_ x1_ x2_ x3_ x4_ x5_ t) := by
  unfold Sys2Proof.Machine.execLease
  refine OnlyO.next ?_
  exact (Only.live h (fun t1 h2 => (Only.runDesc h2 _ _ _ (sb rfl m) (fun t3 t4 h5 => (by
    extract_lets l6 l7 l8 l9
    split
    · exact (Only.complete h5 _ _ _ _ (sb rfl m))
    · exact (Only.ite (Only.complete h5 _ _ _ _ (sb rfl m)) (Only.ite (Only.complete h5 _ _ _ _ (sb rfl m)) (Only.ite (Only.complete h5 _ _ _ _ (sb rfl m)) (Only.set_mtr h5 _ (sb rfl m))))))))))

theorem Only.execLeaseCommitted {M : Nat} {a t : State} (h : Only M a t) (x0_) (m : 0x1982100000000200 &&& M = 0x1982100000000200) :
    OnlyO M a (Sys2Proof.Machine.execLeaseCommitted x0_ t) := by
  unfold Sys2Proof.Machine.execLeaseCommitted
  extract_lets l1
  refine OnlyO.next ?_
  exact (Only.live h (fun t2 h3 => (Only.ite h3 (by
    extract_lets l4 l5
    split
    · exact h3
    · extract_lets l11 l12 l13 l14
      have k15 : Only M a l12 := (Only.set_mtr_jr h3 _ (sb rfl m) _ (sb rfl m))
      try clear_value l12
      have k16 : Only M a l13 := (Only.updMtr k15 _ _ (sb rfl m))
      try clear_value l13
      have k17 : Only M a l14 := (Only.ite k16 (Only.flushExhausted k16 _ (sb rfl m)))
      try clear_value l14
      exact (Only.complete (Only.meterFlag k17 _ _ _ (sb rfl m)) _ _ _ _ (sb rfl m))))))

theorem Only.journalWrite {M : Nat} {a t : State} (h : Only M a t) (x1_ x2_ x3_ x4_ x5_) (m : 0x1800100000000000 &&& M = 0x1800100000000000) :
    Only M a (State.journalWrite t x1_ x2_ x3_ x4_ x5_) := by
  unfold State.journalWrite
  extract_lets l1 l2 l3 l4 l5
  have k6 : Only M a l2 := (Only.set_hst h _ (sb rfl m))
  try clear_value l2
  exact (Only.ite (Only.complete (Only.used (Only.dmaWrite k6 _ _ _ (sb rfl m)) (sb rfl m)) _ _ _ _ (sb rfl m)) (Only.complete (Only.used (Only.dmaWrite k6 _ _ _ (sb rfl m)) (sb rfl m)) _ _ _ _ (sb rfl m)))

theorem Only.takeJournal {M : Nat} {a t : State} (h : Only M a t) (m : 0x1800100000000000 &&& M = 0x1800100000000000) :
    Only M a (State.takeJournal t) := by
  unfold State.takeJournal
  exact (Only.ite h (Only.foldl h fun t1 x2 h3 => (by
    split
    · exact (Only.journalWrite h3 _ _ _ _ _ (sb rfl m))
    · exact h3)))

theorem Only.execJournalRead {M : Nat} {a t : State} (h : Only M a t) (x0_ x1_ x2_ x3_) (m : 0x1902100000000700 &&& M = 0x1902100000000700) :
    OnlyO M a (Sys2Proof.Machine.execJournalRead x0_ x1_ x2_ x3_ t) := by
  unfold Sys2Proof.Machine.execJournalRead
  refine OnlyO.next ?_
  exact (Only.live h (fun t1 h2 => (Only.runDesc h2 _ _ _ (sb rfl m) (fun t3 t4 h5 => (Only.ite (Only.complete h5 _ _ _ _ (sb rfl m)) (Only.takeJournal (Only.access h5 _ (sb rfl m)) (sb rfl m)))))))

theorem Only.execPfWarn {M : Nat} {a t : State} (h : Only M a t) (x0_) (m : 0x19c25e0920000260 &&& M = 0x19c25e0920000260) :
    OnlyO M a (Sys2Proof.Machine.execPfWarn x0_ t) := by
  unfold Sys2Proof.Machine.execPfWarn
  refine OnlyO.next ?_
  exact (Only.live h (fun t1 h2 => (by
    extract_lets l3 l4 l5 l6 l7 l8 l9 l10 l11 l12
    have k13 : Only M a l3 := (Only.moveTo h2 _ (sb rfl m))
    try clear_value l3
    have k14 : Only M a l4 := (Only.wr k13 _ _ (sb rfl m) (fm rfl m))
    try clear_value l4
    have k15 : Only M a l5 := (Only.safeState k14 _ (sb rfl m) (by decide))
    try clear_value l5
    have k16 : Only M a l7 := (Only.ite (Only.wr k15 _ _ (sb rfl m) (fm rfl m)) k15)
    try clear_value l7
    have k20 : Only M a l9 := (Only.foldl k16 fun t17 x18 h19 => (Only.giveBack h19 _ _ (sb rfl m)))
    try clear_value l9
    have k24 : Only M a l10 := (Only.foldl k20 fun t21 x22 h23 => (Only.giveBack h23 _ _ (sb rfl m)))
    try clear_value l10
    exact (Only.ite (Only.holdMain k14 (sb rfl m)) (Only.ite k14 (Only.set_pwr_mtr k24 _ (sb rfl m) _ (sb rfl m)))))))

theorem Only.execPowerfailFreeze {M : Nat} {a t : State} (h : Only M a t) (x0_) (m : 0x1800e0000000000 &&& M = 0x1800e0000000000) :
    OnlyO M a (Sys2Proof.Machine.execPowerfailFreeze x0_ t) := by
  unfold Sys2Proof.Machine.execPowerfailFreeze
  refine OnlyO.next ?_
  exact (Only.live h (fun t1 h2 => (by
    extract_lets l3 l4 l5
    have k6 : Only M a l3 := (Only.moveTo h2 _ (sb rfl m))
    try clear_value l3
    split
    · exact k6
    · exact (Only.ite k6 (Only.beginSnap (Only.set_pwr k6 _ (sb rfl m)) _ (sb rfl m))))))

theorem Only.execPfWarnDeassert {M : Nat} {a t : State} (h : Only M a t) (x0_) (m : 0x1fffffffffffffff &&& M = 0x1fffffffffffffff) :
    OnlyO M a (Sys2Proof.Machine.execPfWarnDeassert x0_ t) := by
  unfold Sys2Proof.Machine.execPfWarnDeassert
  extract_lets l1 l2 l3
  have k4 : Only M a l1 := (Only.moveTo h _ (sb rfl m))
  try clear_value l1
  have k5 : Only M a l3 := (Only.wr k4 _ _ (sb rfl m) (fm rfl m))
  try clear_value l3
  refine OnlyO.next ?_
  exact (Only.ite (Only.powerOn k5 (sb rfl m)) k5)

theorem Only.calSwap {M : Nat} {a t : State} (h : Only M a t) (m : 0x80001000000000 &&& M = 0x80001000000000) :
    Only M a (State.calSwap t) := by
  unfold State.calSwap
  extract_lets l1
  exact (Only.ite h (Only.wr (Only.set_mtr h _ (sb rfl m)) _ _ (sb rfl m) (fm rfl m)))

theorem Only.calApply {M : Nat} {a t : State} (h : Only M a t) (m : 0x1180101000000200 &&& M = 0x1180101000000200) :
    Only M a (State.calApply t) := by
  unfold State.calApply
  extract_lets l1 l2 l3 l4 l5 l6 l7 l8
  have k9 : Only M a l1 := (Only.activateAll h _ (fms rfl m))
  try clear_value l1
  have k10 : Only M a l2 := (Only.wr (Only.wr k9 _ _ (sb rfl m) (fm rfl m)) _ _ (sb rfl m) (fm rfl m))
  try clear_value l2
  have k11 : Only M a l6 := (Only.wr k10 _ _ (sb rfl m) (fm rfl m))
  try clear_value l6
  have k12 : Only M a l8 := (Only.set_mtr k11 _ (sb rfl m))
  try clear_value l8
  exact (Only.ite (Only.meterFlag k12 _ _ _ (sb rfl m)) h)

theorem Only.execMtrCalSwap {M : Nat} {a t : State} (h : Only M a t) (m : 0x80001000000000 &&& M = 0x80001000000000) :
    OnlyO M a (Sys2Proof.Machine.execMtrCalSwap t) := by
  unfold Sys2Proof.Machine.execMtrCalSwap
  refine OnlyO.next ?_
  exact (Only.live h (fun t1 h2 => (Only.calSwap h2 (sb rfl m))))

theorem Only.execMtrCalSwapApply {M : Nat} {a t : State} (h : Only M a t) (m : 0x1180101000000200 &&& M = 0x1180101000000200) :
    OnlyO M a (Sys2Proof.Machine.execMtrCalSwapApply t) := by
  unfold Sys2Proof.Machine.execMtrCalSwapApply
  refine OnlyO.next ?_
  exact (Only.live h (fun t1 h2 => (Only.calApply h2 (sb rfl m))))

theorem Only.portRead {M : Nat} {a t : State} (h : Only M a t) (x1_) (m : 0x1080000000000000 &&& M = 0x1080000000000000) :
    Only M a (State.portRead t x1_) := by
  unfold State.portRead
  extract_lets l1 l2
  exact (Only.emit (Only.set_mtr h _ (sb rfl m)) _ (sb rfl m))

theorem Only.execMtrPortSnapshotRead {M : Nat} {a t : State} (h : Only M a t) (x0_) (m : 0x1080000000000000 &&& M = 0x1080000000000000) :
    OnlyO M a (Sys2Proof.Machine.execMtrPortSnapshotRead x0_ t) := by
  unfold Sys2Proof.Machine.execMtrPortSnapshotRead
  refine OnlyO.next ?_
  exact (Only.live h (fun t1 h2 => (Only.portRead h2 _ (sb rfl m))))

end Sys2Proof.Machine
end

