-- ==== Sys2Proof/Laws/OnlyCellCfg.lean ====
section
/-! SUPPORT. `Only` of each function of Machine/CellCfg.lean. -/
set_option Elab.async false
namespace Sys2Proof.Machine

theorem Only.refuseCell {M : Nat} {a t : State} (h : Only M a t) (x1_ x2_ x3_) (m : 0x1100100000010200 &&& M = 0x1100100000010200) :
    Only M a (State.refuseCell t x1_ x2_ x3_) := by
  unfold State.refuseCell
  exact (Only.configRefused (Only.refuse h _ (sb rfl m) (fm rfl m)) _ _ _ (sb rfl m))

theorem Only.disableCell {M : Nat} {a t : State} (h : Only M a t) (x1_) (m : 0x198e30080202e200 &&& M = 0x198e30080202e200) :
    Only M a (State.disableCell t x1_) := by
  unfold State.disableCell
  extract_lets l1 l2 l3 l4
  have k5 : Only M a l1 := (Only.abandonScan (Only.endBase h _ (sb rfl m)) _ (sb rfl m))
  try clear_value l1
  have k6 : Only M a l2 := (Only.wri (Only.endService (Only.endService (Only.endService k5 _ _ _ _ (sb rfl m)) _ _ _ _ (sb rfl m)) _ _ _ _ (sb rfl m)) _ _ _ (fm rfl m))
  try clear_value l2
  have k7 : Only M a l3 := (Only.wri (Only.wri (Only.wri k6 _ _ _ (fm rfl m)) _ _ _ (fm rfl m)) _ _ _ (fm rfl m))
  try clear_value l3
  have k8 : Only M a l4 := (Only.updCell k7 _ _ (sb rfl m))
  try clear_value l4
  exact (Only.joinCounts k8 (sb rfl m))

theorem Only.writeCellCfg {M : Nat} {a t : State} (h : Only M a t) (x1_ x2_ x3_) (m : 0x198e30080203e200 &&& M = 0x198e30080203e200) :
    Only M a (State.writeCellCfg t x1_ x2_ x3_) := by
  unfold State.writeCellCfg
  extract_lets l1 l2 l3 l4 l5
  have k6 : Only M a l3 := (Only.ite (Only.disableCell h _ (sb rfl m)) (Only.ite (Only.abandonScan h _ (sb rfl m)) h))
  try clear_value l3
  have k7 : Only M a l4 := (Only.putRwi k6 _ _ _ (fm rfl m))
  try clear_value l4
  have k8 : Only M a l5 := (Only.updCell k7 _ _ (sb rfl m))
  try clear_value l5
  exact (Only.ite h (Only.ite (Only.refuseCell h _ _ _ (sb rfl m)) (Only.ite (Only.refuse h _ (sb rfl m) (fm rfl m)) (Only.ite (Only.wri (Only.wri k8 _ _ _ (fm rfl m)) _ _ _ (fm rfl m)) k8))))

theorem Only.execHgsCellCfgWrite {M : Nat} {a t : State} (h : Only M a t) (x0_ x1_ x2_) (m : 0x198e30080203e200 &&& M = 0x198e30080203e200) :
    OnlyO M a (Sys2Proof.Machine.execHgsCellCfgWrite x0_ x1_ x2_ t) := by
  unfold Sys2Proof.Machine.execHgsCellCfgWrite
  refine OnlyO.next ?_
  exact (Only.live h (fun t1 h2 => (Only.writeCellCfg h2 _ _ _ (sb rfl m))))

theorem Only.writeCellTiming {M : Nat} {a t : State} (h : Only M a t) (x1_ x2_ x3_) (m : 0x1102100000030200 &&& M = 0x1102100000030200) :
    Only M a (State.writeCellTiming t x1_ x2_ x3_) := by
  unfold State.writeCellTiming
  extract_lets l1
  exact (Only.ite h (Only.ite (Only.refuseCell h _ _ _ (sb rfl m)) (Only.ite (Only.refuse h _ (sb rfl m) (fm rfl m)) (Only.updCell (Only.putRwi h _ _ _ (fm rfl m)) _ _ (sb rfl m)))))

end Sys2Proof.Machine
end

