-- ==== Sys2Proof/Laws/OnlyHostRead.lean ====
section
/-! SUPPORT. `Only` of each function of Machine/HostRead.lean. -/
set_option Elab.async false
namespace Sys2Proof.Machine

theorem Only.dataDone {M : Nat} {a t : State} (h : Only M a t) (x1_ x2_) (m : 0x2300000000400 &&& M = 0x2300000000400) :
    Only M a (State.dataDone t x1_ x2_) := by
  unfold State.dataDone
  extract_lets l1 l2
  have k3 : Only M a l2 := (Only.set_hst h _ (sb rfl m))
  try clear_value l2
  split
  · exact (Only.furrowDone k3 _ _ _ _ (sb rfl m))
  · exact (Only.staged k3 _ _ _ _ _ (sb rfl m))
  · exact (Only.nodeFwData k3 _ _ (sb rfl m))
  · exact k3

theorem Only.dataPart {M : Nat} {a t : State} (h : Only M a t) (x1_ x2_) (m : 0x1002300000000400 &&& M = 0x1002300000000400) :
    Only M a (State.dataPart t x1_ x2_) := by
  unfold State.dataPart
  extract_lets l1 l2
  split
  · exact (Only.dataDone h _ _ (sb rfl m))
  · extract_lets l7
    exact (Only.askData (Only.putJob h _ (sb rfl m)) _ (sb rfl m))

theorem Only.failJob {M : Nat} {a t : State} (h : Only M a t) (x1_ x2_ x3_) (m : 0x1102100000000700 &&& M = 0x1102100000000700) :
    Only M a (State.failJob t x1_ x2_ x3_) := by
  unfold State.failJob
  extract_lets l1 l2 l3 l4
  have k5 : Only M a l2 := (Only.set_hst h _ (sb rfl m))
  try clear_value l2
  have k16 : Only M a l4 := (by
    unfold l4
    split
    · exact (Only.unstage k5 (sb rfl m))
    · exact k5)
  try clear_value l4
  split
  · exact (Only.failAccess k5 _ _ _ _ (sb rfl m))
  · exact (Only.failAccess k5 _ _ _ _ (sb rfl m))
  · exact (Only.failAccess k16 _ _ _ _ (sb rfl m))

theorem Only.afterRead {M : Nat} {a t : State} (h : Only M a t) (x1_) (m : 0x1900100000000200 &&& M = 0x1900100000000200) :
    Only M a (State.afterRead t x1_) := by
  unfold State.afterRead
  extract_lets l1
  have k2 : Only M a l1 := (Only.takeJournal (Only.takeBuffers h (sb rfl m)) (sb rfl m))
  try clear_value l1
  split
  · exact (Only.ite (Only.drain k2 _ (sb rfl m)) k2)
  · exact k2

theorem Only.fetchFails {M : Nat} {a t : State} (h : Only M a t) (x1_ x2_) (m : 0x1102100000000700 &&& M = 0x1102100000000700) :
    Only M a (State.fetchFails t x1_ x2_) := by
  unfold State.fetchFails
  exact (Only.ite (Only.failAccess h _ _ _ _ (sb rfl m)) h)

theorem Only.execHostReadCompletion {M : Nat} {a t : State} (h : Only M a t) (x0_ x1_ x2_) (m : 0x1902360000000700 &&& M = 0x1902360000000700) :
    OnlyO M a (Sys2Proof.Machine.execHostReadCompletion x0_ x1_ x2_ t) := by
  unfold Sys2Proof.Machine.execHostReadCompletion
  refine OnlyO.next ?_
  exact (Only.live h (fun t1 h2 => (by
    extract_lets l3
    have k4 : Only M a l3 := (Only.moveTo h2 _ (sb rfl m))
    try clear_value l3
    split
    · split
      · exact (Only.fetchFails k4 _ _ (sb rfl m))
      · exact k4
    · split
      · exact k4
      · split
        · exact (Only.afterRead (Only.failJob k4 _ _ _ (sb rfl m)) _ (sb rfl m))
        · exact (Only.dataPart k4 _ _ (sb rfl m))
        · exact k4
        · exact (Only.afterRead (Only.walkEntry k4 _ _ (sb rfl m)) _ (sb rfl m))
        · exact (Only.afterRead (Only.walkEntry k4 _ _ (sb rfl m)) _ (sb rfl m)))))

theorem Only.execHostReadTimeout {M : Nat} {a t : State} (h : Only M a t) (x0_ x1_) (m : 0x1902160000000700 &&& M = 0x1902160000000700) :
    OnlyO M a (Sys2Proof.Machine.execHostReadTimeout x0_ x1_ t) := by
  unfold Sys2Proof.Machine.execHostReadTimeout
  refine OnlyO.next ?_
  exact (Only.live h (fun t1 h2 => (by
    extract_lets l3
    have k4 : Only M a l3 := (Only.moveTo h2 _ (sb rfl m))
    try clear_value l3
    split
    · exact (Only.fetchFails k4 _ _ (sb rfl m))
    · split
      · exact k4
      · exact (Only.ite (Only.afterRead (Only.failJob k4 _ _ _ (sb rfl m)) _ (sb rfl m)) k4))))

theorem Only.execPowerStateChange {M : Nat} {a t : State} (h : Only M a t) (x0_) (m : 0x1900100000000200 &&& M = 0x1900100000000200) :
    OnlyO M a (Sys2Proof.Machine.execPowerStateChange x0_ t) := by
  unfold Sys2Proof.Machine.execPowerStateChange
  refine OnlyO.next ?_
  exact (Only.live h (fun t1 h2 => (by
    extract_lets l3 l4
    have k5 : Only M a l4 := (Only.set_hst h2 _ (sb rfl m))
    try clear_value l4
    exact (Only.ite k5 (Only.drain (Only.drain (Only.takeJournal k5 (sb rfl m)) _ (sb rfl m)) _ (sb rfl m))))))

end Sys2Proof.Machine
end

