-- ==== Sys2Proof/Laws/OnlyIntake.lean ====
section
/-! SUPPORT. `Only` of each function of Machine/Intake.lean. -/
set_option Elab.async false
namespace Sys2Proof.Machine

theorem Only.linkReport {M : Nat} {a t : State} (h : Only M a t) (x1_) (m : 0x2000000000000 &&& M = 0x2000000000000) :
    Only M a (State.linkReport t x1_) := by
  unfold State.linkReport
  exact (Only.updCell h _ _ (sb rfl m))

theorem Only.powerReport {M : Nat} {a t : State} (h : Only M a t) (x1_) (m : 0x2000000000000 &&& M = 0x2000000000000) :
    Only M a (State.powerReport t x1_) := by
  unfold State.powerReport
  exact (Only.updCell h _ _ (sb rfl m))

theorem Only.tripSeen {M : Nat} {a t : State} (h : Only M a t) (x1_) (m : 0x1942500120000200 &&& M = 0x1942500120000200) :
    Only M a (State.tripSeen t x1_) := by
  unfold State.tripSeen
  extract_lets l1
  exact (Only.ite (Only.updCell (Only.blockCell (Only.cellLoss h _ (sb rfl m)) _ (sb rfl m)) _ _ (sb rfl m)) h)

theorem Only.returnSeen {M : Nat} {a t : State} (h : Only M a t) (x1_) (m : 0x2000000000000 &&& M = 0x2000000000000) :
    Only M a (State.returnSeen t x1_) := by
  unfold State.returnSeen
  extract_lets l1
  split
  · exact (Only.ite (Only.askEnter (Only.updCell h _ _ (sb rfl m)) _ _ (sb rfl m)) h)
  · exact h

theorem Only.intakeCell {M : Nat} {a t : State} (h : Only M a t) (x1_ x2_ x3_) (m : 0x19c2500922002200 &&& M = 0x19c2500922002200) :
    Only M a (State.intakeCell t x1_ x2_ x3_) := by
  unfold State.intakeCell
  extract_lets l1 l2 l3 l4
  have k5 : Only M a l1 := (Only.linkReport (Only.countMissing h _ (sb rfl m)) _ (sb rfl m))
  try clear_value l1
  have k6 : Only M a l2 := (Only.ite (Only.powerReport k5 _ (sb rfl m)) k5)
  try clear_value l2
  have k7 : Only M a l3 := (Only.meterPort k6 _ _ _ (sb rfl m))
  try clear_value l3
  have k8 : Only M a l4 := (Only.ite (Only.packWindow k7 _ _ (sb rfl m)) k7)
  try clear_value l4
  exact (Only.returnSeen (Only.tripSeen (Only.joinTick k8 _ _ (sb rfl m)) _ (sb rfl m)) _ (sb rfl m))

theorem Only.execWadiFrameDue {M : Nat} {a t : State} (h : Only M a t) (x0_ x1_) (m : 0x19c3760b22007600 &&& M = 0x19c3760b22007600) :
    OnlyO M a (Sys2Proof.Machine.execWadiFrameDue x0_ x1_ t) := by
  unfold Sys2Proof.Machine.execWadiFrameDue
  extract_lets l1
  refine OnlyO.next ?_
  exact (Only.live h (fun t2 h3 => (by
    extract_lets l4 l5 l6 l7 l8 l9 l10
    have k11 : Only M a l4 := (Only.moveTo h3 _ (sb rfl m))
    try clear_value l4
    have k12 : Only M a l7 := (Only.countReturns k11 _ (sb rfl m))
    try clear_value l7
    have k16 : Only M a l8 := (Only.foldl k12 fun t13 x14 h15 => (Only.ite (Only.updCell (Only.intakeCell h15 _ _ _ (sb rfl m)) _ _ (sb rfl m)) h15))
    try clear_value l8
    have k17 : Only M a l10 := (Only.setRing k16 _ _ (sb rfl m))
    try clear_value l10
    exact (Only.ite k11 (by
      split
      · rename_i r19 r20 r21
        have k22 : Only M a r19 := Only.pairEq r21 (Only.ite1 (Only.fstMk k17) (Only.takeGrant k17 _ _ (sb rfl m)))
        split
        · rename_i r24 r25 r26
          have k27 : Only M a r24 := Only.pairEq r26 (Only.wadiSlots k22 _ _ _ (sb rfl m))
          exact (Only.agreed k27 _ _ _ _ _ (fun t28 h29 => (Only.sendFrame h29 _ _ (sb rfl m))) (fun t30 h31 => h31) (sb rfl m)))))))

end Sys2Proof.Machine
end

