-- ==== Sys2Proof/Laws/OnlyTickCfg.lean ====
section
/-! SUPPORT. `Only` of each function of Machine/TickCfg.lean. -/
set_option Elab.async false
namespace Sys2Proof.Machine

theorem Only.trimTriggers {M : Nat} {a t : State} (h : Only M a t) (m : 0x14000000 &&& M = 0x14000000) :
    Only M a (State.trimTriggers t) := by
  unfold State.trimTriggers
  exact (Only.foldl h fun t1 x2 h3 => (Only.ite (Only.refuse (Only.wri h3 _ _ _ (fm rfl m)) _ (sb rfl m) (fm rfl m)) h3))

theorem Only.writeTickCfg {M : Nat} {a t : State} (h : Only M a t) (x1_) (m : 0x20014001008 &&& M = 0x20014001008) :
    Only M a (State.writeTickCfg t x1_) := by
  unfold State.writeTickCfg
  extract_lets l1 l2 l3 l4 l5 l6
  have k7 : Only M a l4 := (Only.putRw h _ _ (bm rfl m))
  try clear_value l4
  exact (Only.ite (Only.refuse h _ (sb rfl m) (fm rfl m)) (Only.ite k7 (Only.ite (Only.foldFitAll (Only.trimTriggers (Only.set_tm k7 _ (sb rfl m)) (sb rfl m)) (sb rfl m)) (Only.wr (Only.set_tm k7 _ (sb rfl m)) _ _ (sb rfl m) (fm rfl m)))))

theorem Only.execClkTickCfgWrite {M : Nat} {a t : State} (h : Only M a t) (x0_) (m : 0x20014001008 &&& M = 0x20014001008) :
    OnlyO M a (Sys2Proof.Machine.execClkTickCfgWrite x0_ t) := by
  unfold Sys2Proof.Machine.execClkTickCfgWrite
  refine OnlyO.next ?_
  exact (Only.live h (fun t1 h2 => (Only.writeTickCfg h2 _ (sb rfl m))))

theorem Only.writeDeadline {M : Nat} {a t : State} (h : Only M a t) (x1_ x2_) (m : 0x1008 &&& M = 0x1008) :
    Only M a (State.writeDeadline t x1_ x2_) := by
  unfold State.writeDeadline
  extract_lets l1 l2 l3 l4 l5
  exact (Only.ite (Only.refuse h _ (sb rfl m) (fm rfl m)) (Only.foldFitAll (Only.wri h _ _ _ (fm rfl m)) (sb rfl m)))

theorem Only.execClkTickDeadlineWrite {M : Nat} {a t : State} (h : Only M a t) (x0_ x1_) (m : 0x1008 &&& M = 0x1008) :
    OnlyO M a (Sys2Proof.Machine.execClkTickDeadlineWrite x0_ x1_ t) := by
  unfold Sys2Proof.Machine.execClkTickDeadlineWrite
  refine OnlyO.next ?_
  exact (Only.live h (fun t1 h2 => (Only.writeDeadline h2 _ _ (sb rfl m))))

theorem Only.renumber {M : Nat} {a t : State} (h : Only M a t) (x1_) (m : 0xf020000000000 &&& M = 0xf020000000000) :
    Only M a (State.renumber t x1_) := by
  unfold State.renumber
  extract_lets l1 l2 l3 l4
  have k5 : Only M a l4 := (Only.set_tm_rings_law_lawC h _ (sb rfl m) _ (sb rfl m) _ (sb rfl m) _ (sb rfl m))
  try clear_value l4
  exact (Only.ite h (Only.mapCells k5 _ (sb rfl m)))

theorem Only.periodApply {M : Nat} {a t : State} (h : Only M a t) (m : 0xf020014001008 &&& M = 0xf020014001008) :
    Only M a (State.periodApply t) := by
  unfold State.periodApply
  extract_lets l1
  split
  · exact h
  · extract_lets l7 l8
    have k9 : Only M a l7 := (Only.set_tm h _ (sb rfl m))
    try clear_value l7
    have k10 : Only M a l8 := (Only.renumber k9 _ (sb rfl m))
    try clear_value l8
    exact (Only.ite (Only.foldFitAll (Only.trimTriggers (Only.wr k10 _ _ (sb rfl m) (fm rfl m)) (sb rfl m)) (sb rfl m)) h)

theorem Only.execPeriodChange {M : Nat} {a t : State} (h : Only M a t) (x0_) (m : 0xf060014001008 &&& M = 0xf060014001008) :
    OnlyO M a (Sys2Proof.Machine.execPeriodChange x0_ t) := by
  unfold Sys2Proof.Machine.execPeriodChange
  refine OnlyO.next ?_
  exact (Only.live h (fun t1 h2 => (by
    extract_lets l3
    have k4 : Only M a l3 := (Only.moveTo h2 _ (sb rfl m))
    try clear_value l3
    exact (Only.ite (Only.periodApply k4 (sb rfl m)) k4))))

theorem Only.clearProbe {M : Nat} {a t : State} (h : Only M a t) (m : 0xc000000200000 &&& M = 0xc000000200000) :
    Only M a (State.clearProbe t) := by
  unfold State.clearProbe
  extract_lets l1
  exact (Only.wr (Only.wr (Only.wr (Only.set_law_lawC h _ (sb rfl m) _ (sb rfl m)) _ _ (sb rfl m) (fm rfl m)) _ _ (sb rfl m) (fm rfl m)) _ _ (sb rfl m) (fm rfl m))

theorem Only.execPpsStep {M : Nat} {a t : State} (h : Only M a t) (x0_) (m : 0x110f160000200210 &&& M = 0x110f160000200210) :
    OnlyO M a (Sys2Proof.Machine.execPpsStep x0_ t) := by
  unfold Sys2Proof.Machine.execPpsStep
  refine OnlyO.next ?_
  exact (Only.live h (fun t1 h2 => (by
    extract_lets l3 l4
    have k5 : Only M a l3 := (Only.moveTo h2 _ (sb rfl m))
    try clear_value l3
    split
    · exact k5
    · extract_lets l11 l12 l13 l14 l15 l16 l17
      have k18 : Only M a l13 := (Only.renumber k5 _ (sb rfl m))
      try clear_value l13
      have k19 : Only M a l17 := (Only.set_tm_clk k18 _ (sb rfl m) _ (sb rfl m))
      try clear_value l17
      exact (Only.ite k5 (Only.clockEvent (Only.clearProbe (Only.inc (Only.wr k19 _ _ (sb rfl m) (fm rfl m)) _ _ (sb rfl m) (fm rfl m)) (sb rfl m)) _ _ _ (sb rfl m))))))

end Sys2Proof.Machine
end

