-- ==== Sys2Proof/Laws/OnlyBringup.lean ====
section
/-! SUPPORT. `Only` of each function of Machine/Bringup.lean. -/
set_option Elab.async false
namespace Sys2Proof.Machine

theorem Only.loadBank {M : Nat} {a t : State} (h : Only M a t) (l) (m : 0x200000000000 &&& M = 0x200000000000) : Only M a (State.loadBank t l) :=
  Only.ite (Only.set_triW h _ (sb rfl m) (fun _ => memStore_wf _ _ _ rfl) id id (fun x _ => x) fun _ x => x)
    (Only.set_triW h _ (sb rfl m) id (fun _ => memStore_wf _ _ _ rfl) id (fun x _ => x) fun _ x => x)

theorem Only.bootImage {M : Nat} {a t : State} (h : Only M a t) (m : 0x1900380000000628 &&& M = 0x1900380000000628) :
    Only M a (State.bootImage t).1 := by
  unfold State.bootImage
  extract_lets l1 l2
  split
  · exact (Only.fstMk (Only.wr (Only.powerEvent h _ _ (sb rfl m)) _ _ (sb rfl m) (fm rfl m)))
  · extract_lets l9 l10 l11 l12 l13 l14 l15 l16 l17 l18 l19 l20
    have k21 : Only M a l10 := (Only.loadBank h _ (sb rfl m))
    try clear_value l10
    have k22 : Only M a l13 := (Only.set_pwr_tri k21 _ (sb rfl m) _ (sb rfl m))
    try clear_value l13
    have k23 : Only M a l14 := (Only.wr (Only.wr k22 _ _ (sb rfl m) (fm rfl m)) _ _ (sb rfl m) (fm rfl m))
    try clear_value l14
    have k24 : Only M a l15 := (Only.wr (Only.wr (Only.wr (Only.wr k23 _ _ (sb rfl m) (fm rfl m)) _ _ (sb rfl m) (fm rfl m)) _ _ (sb rfl m) (fm rfl m)) _ _ (sb rfl m) (fm rfl m))
    try clear_value l15
    have k25 : Only M a l16 := (Only.wr (Only.wr k24 _ _ (sb rfl m) (fm rfl m)) _ _ (sb rfl m) (fm rfl m))
    try clear_value l16
    have k26 : Only M a l18 := (Only.moveLead (Only.wr (Only.wr (Only.wr k25 _ _ (sb rfl m) (fm rfl m)) _ _ (sb rfl m) (fm rfl m)) _ _ (sb rfl m) (fm rfl m)) (sb rfl m))
    try clear_value l18
    have k27 : Only M a l19 := (Only.powerEvent k26 _ _ (sb rfl m))
    try clear_value l19
    have k28 : Only M a l20 := (Only.ite k27 (Only.used (Only.post (Only.refuse k27 _ (sb rfl m) (fm rfl m)) _ _ (sb rfl m)) (sb rfl m)))
    try clear_value l20
    exact (Only.fstMk k28)

theorem Only.putRws {M : Nat} {a t : State} (h : Only M a t) (off v : Nat) (m : 0x1ffffffffff &&& M = 0x1ffffffffff) :
    Only M a (State.putRws t off v) := by
  unfold State.putRws
  split
  · exact Only.putFieldsAll h _ _ _ (sb rfl m)
  · exact h

theorem Only.restoreComm {M : Nat} {a t : State} (h : Only M a t) (m : 0x1d42d9ffffffffff &&& M = 0x1d42d9ffffffffff) :
    Only M a (State.restoreComm t) := by
  unfold State.restoreComm
  generalize newestBlock t.pwr.flash = b
  cases b with
  | none =>
    have k (x) := Only.wr (Only.wr h Reg.SAFE_CV.CV x (sb rfl m) (fm rfl m)) Reg.SAFE_STATUS.CV_BUSY 0 (sb rfl m) (fm rfl m)
    exact Only.ite (Only.wr (k _) _ _ (sb rfl m) (fm rfl m)) (k _)
  | some x =>
    simp only
    generalize hy : (List.range 8).foldl (fun (y : State) n => y.inputSet n false) (x.regs.foldl (fun (y : State) kv => y.putRws kv.1 kv.2) t) = y
    have k : Only M a y := hy ▸ Only.foldl (Only.foldl h fun t x h => Only.putRws h _ _ (sb rfl m)) fun t n h => Only.inputSet h _ _ (sb rfl m)
    have k' := Only.wr (Only.wr k Reg.SAFE_CV.CV (State.safeCv y) (sb rfl m) (fm rfl m)) Reg.SAFE_STATUS.CV_BUSY 0 (sb rfl m) (fm rfl m)
    exact Only.ite (Only.showSil (Only.wr k' _ _ (sb rfl m) (fm rfl m)) (sb rfl m)) (Only.wr k' _ _ (sb rfl m) (fm rfl m))

theorem Only.restoreSnap {M : Nat} {a t : State} (h : Only M a t) (x1_) (m : 0x82002800000000 &&& M = 0x82002800000000) :
    Only M a (State.restoreSnap t x1_) := by
  unfold State.restoreSnap
  extract_lets l1 l2 l3
  have k8 : Only M a l1 := (Only.foldl h fun t4 x5 h6 => (by
    extract_lets l7
    exact (Only.updMtr h6 _ _ (sb rfl m))))
  try clear_value l1
  have k9 : Only M a l3 := (Only.set_mtr k8 _ (sb rfl m))
  try clear_value l3
  exact (Only.showGap (Only.bookAcGap (Only.wr (Only.wr k9 _ _ (sb rfl m) (fm rfl m)) _ _ (sb rfl m) (fm rfl m)) (sb rfl m)) (sb rfl m))

theorem Only.restoreLeases {M : Nat} {a t : State} (h : Only M a t) (m : 0x2000000000000 &&& M = 0x2000000000000) :
    Only M a (State.restoreLeases t) := by
  unfold State.restoreLeases
  exact (Only.foldl h fun t1 x2 h3 => (by
    extract_lets l4 l5
    exact (Only.ite h3 (Only.updMtr h3 _ _ (sb rfl m)))))

theorem Only.powerLossRecs {M : Nat} {a t : State} (h : Only M a t) (x1_) (m : 0x1182102800000200 &&& M = 0x1182102800000200) :
    Only M a (State.powerLossRecs t x1_) := by
  unfold State.powerLossRecs
  extract_lets l1 l2 l3
  exact (Only.ite h (Only.makeRecs (Only.set_mtr h _ (sb rfl m)) _ (sb rfl m)))

theorem Only.acFlowTest {M : Nat} {a t : State} (h : Only M a t) (x1_) (m : 0x80000000000000 &&& M = 0x80000000000000) :
    Only M a (State.acFlowTest t x1_) := by
  unfold State.acFlowTest
  extract_lets l1 l2
  exact (Only.ite (Only.meterFlagLater (Only.set_mtr h _ (sb rfl m)) _ _ _ (sb rfl m)) h)

theorem Only.restoreJournal {M : Nat} {a t : State} (h : Only M a t) (x1_) (m : 0x1182102800000240 &&& M = 0x1182102800000240) :
    Only M a (State.restoreJournal t x1_).1 := by
  unfold State.restoreJournal
  extract_lets l1 l2 l3 l4 l5 l6 l7 l8 l9 l10 l11 l12 l13 l14 l15 l16
  have k17 : Only M a l9 := (Only.set_mtr_jr h _ (sb rfl m) _ (sb rfl m))
  try clear_value l9
  have k18 : Only M a l10 := (Only.wr (Only.wr k17 _ _ (sb rfl m) (fm rfl m)) _ _ (sb rfl m) (fm rfl m))
  try clear_value l10
  have k22 : Only M a l11 := (Only.foldl k18 fun t19 x20 h21 => (Only.updCell h21 _ _ (sb rfl m)))
  try clear_value l11
  have k28 : Only M a l12 := (by
    unfold l12
    split
    · exact (Only.restoreSnap k22 _ (sb rfl m))
    · exact k22)
  try clear_value l12
  have k29 : Only M a l13 := (Only.repostFlags (Only.restoreLeases k28 (sb rfl m)) (sb rfl m))
  try clear_value l13
  have k30 : Only M a l14 := (Only.showCis (Only.wr k29 _ _ (sb rfl m) (fm rfl m)) (sb rfl m))
  try clear_value l14
  have k31 : Only M a l15 := (Only.ite (Only.meterFlagLater (Only.wr k30 _ _ (sb rfl m) (fm rfl m)) _ _ _ (sb rfl m)) k30)
  try clear_value l15
  have k37 : Only M a l16 := (by
    unfold l16
    split
    · exact (Only.powerLossRecs k31 _ (sb rfl m))
    · exact k31)
  try clear_value l16
  exact (Only.ite1 (Only.fstMk (Only.wr h _ _ (sb rfl m) (fm rfl m))) (Only.fstMk (Only.acFlowTest k37 _ (sb rfl m))))

theorem Only.useBist {M : Nat} {a t : State} (h : Only M a t) (x1_) (m : 0x1100180000000680 &&& M = 0x1100180000000680) :
    Only M a (State.useBist t x1_).1 := by
  unfold State.useBist
  extract_lets l1 l2 l3 l4 l5 l6
  have k7 : Only M a l3 := (Only.wr (Only.wr (Only.wr h _ _ (sb rfl m) (fm rfl m)) _ _ (sb rfl m) (fm rfl m)) _ _ (sb rfl m) (fm rfl m))
  try clear_value l3
  have k8 : Only M a l6 := (Only.set_pwr k7 _ (sb rfl m))
  try clear_value l6
  exact (Only.fstMk (Only.powerEvent (Only.wr k8 _ _ (sb rfl m) (fm rfl m)) _ _ (sb rfl m)))

theorem Only.bootUp {M : Nat} {a t : State} (h : Only M a t) (x1_) (m : 0x1dc2f9ffffffffff &&& M = 0x1dc2f9ffffffffff) :
    Only M a (State.bootUp t x1_) := by
  unfold State.bootUp
  extract_lets l1 l2
  have k3 : Only M a l2 := (Only.set_pwr h _ (sb rfl m))
  try clear_value l2
  exact (by
    split
    · rename_i r5 r6 r7
      have k8 : Only M a r5 := Only.pairEq r7 (Only.useBist k3 _ (sb rfl m))
      extract_lets l9
      have k10 : Only M a l9 := (Only.wr (Only.restoreComm k8 (sb rfl m)) _ _ (sb rfl m) (fm rfl m))
      try clear_value l9
      split
      · rename_i r12 r13 r14
        have k15 : Only M a r12 := Only.pairEq r14 (Only.restoreJournal k10 _ (sb rfl m))
        split
        · rename_i r17 r18 r19
          have k20 : Only M a r17 := Only.pairEq r19 (Only.bootImage k15 (sb rfl m))
          extract_lets l21
          exact (Only.ite k20 (Only.setStage (Only.set_pwr k20 _ (sb rfl m)) _ (sb rfl m))))

theorem Only.startTick {M : Nat} {a t : State} (h : Only M a t) (m : 0x20000000000 &&& M = 0x20000000000) :
    Only M a (State.startTick t) := by
  unfold State.startTick
  extract_lets l1
  exact (Only.set_tm h _ (sb rfl m))

theorem Only.enterB4 {M : Nat} {a t : State} (h : Only M a t) (m : 0x1100180000000300 &&& M = 0x1100180000000300) :
    Only M a (State.enterB4 t) := by
  unfold State.enterB4
  extract_lets l1
  exact (Only.setStage (Only.set_pwr h _ (sb rfl m)) _ (sb rfl m))

theorem Only.enterB5 {M : Nat} {a t : State} (h : Only M a t) (m : 0x1182100800000300 &&& M = 0x1182100800000300) :
    Only M a (State.enterB5 t) := by
  unfold State.enterB5
  extract_lets l1 l2
  have k3 : Only M a l1 := (Only.wr (Only.mapCells h _ (sb rfl m)) _ _ (sb rfl m) (fm rfl m))
  try clear_value l1
  exact (Only.setStage (Only.set_mtr k3 _ (sb rfl m)) _ (sb rfl m))

theorem Only.execBringupStage {M : Nat} {a t : State} (h : Only M a t) (x0_ x1_) (m : 0x1dceffffffffffff &&& M = 0x1dceffffffffffff) :
    OnlyO M a (Sys2Proof.Machine.execBringupStage x0_ x1_ t) := by
  unfold Sys2Proof.Machine.execBringupStage
  refine OnlyO.next ?_
  exact (Only.live h (fun t1 h2 => (by
    extract_lets l3 l4
    have k5 : Only M a l3 := (Only.moveTo h2 _ (sb rfl m))
    try clear_value l3
    exact (Only.ite k5 (Only.ite (Only.ite (Only.ite (Only.setStage k5 _ (sb rfl m)) k5) (by
      split
      · exact (Only.bootUp k5 _ (sb rfl m))
      · exact k5)) (Only.ite (Only.ite (Only.ite (Only.enterB5 (Only.enterB4 k5 (sb rfl m)) (sb rfl m)) (Only.ite (Only.enterB4 (Only.dropForming k5 (sb rfl m)) (sb rfl m)) (Only.ite (Only.setStage (Only.dropForming k5 (sb rfl m)) _ (sb rfl m)) k5))) (Only.ite (Only.setStage (Only.startTick k5 (sb rfl m)) _ (sb rfl m)) k5)) (Only.ite (Only.ite (Only.enterB4 k5 (sb rfl m)) k5) (Only.ite (Only.ite (Only.enterB5 k5 (sb rfl m)) k5) k5))))))))

theorem Only.abortFlight {M : Nat} {a t : State} (h : Only M a t) (m : 0x92700000000000 &&& M = 0x92700000000000) :
    Only M a (State.abortFlight t) := by
  unfold State.abortFlight
  extract_lets l1 l2 l3 l4 l5 l6 l7
  have k8 : Only M a l7 := (Only.set_hst_tri_slc_sp_mtr h _ (sb rfl m) _ (sb rfl m) _ (sb rfl m) _ (sb rfl m) _ (sb rfl m))
  try clear_value l7
  exact (Only.mapCells k8 _ (sb rfl m))

theorem Only.restartTriad {M : Nat} {a t : State} (h : Only M a t) (x1_) (m : 0x19be7a0800500728 &&& M = 0x19be7a0800500728) :
    Only M a (State.restartTriad t x1_) := by
  unfold State.restartTriad
  extract_lets l1 l2 l3 l4 l5 l6
  have k7 : Only M a l1 := (Only.breakTimes (Only.ite (Only.dropLaw h (sb rfl m)) h) (sb rfl m))
  try clear_value l1
  have k8 : Only M a l4 := (Only.set_pwr_tri k7 _ (sb rfl m) _ (sb rfl m))
  try clear_value l4
  have k9 : Only M a l5 := (Only.abortFlight k8 (sb rfl m))
  try clear_value l5
  have k10 : Only M a l6 := (Only.ite k9 (Only.showScan (Only.setStage (Only.wr k9 _ _ (sb rfl m) (fm rfl m)) _ (sb rfl m)) (sb rfl m)))
  try clear_value l6
  exact (Only.ite (Only.configRefused h _ _ _ (sb rfl m)) (by
    split
    · rename_i r12 r13 r14
      have k15 : Only M a r12 := Only.pairEq r14 (Only.bootImage k10 (sb rfl m))
      extract_lets l16
      exact (Only.ite k15 (Only.set_pwr k15 _ (sb rfl m)))))

theorem Only.execTriRestart {M : Nat} {a t : State} (h : Only M a t) (x0_) (m : 0x19be7e0800500728 &&& M = 0x19be7e0800500728) :
    OnlyO M a (Sys2Proof.Machine.execTriRestart x0_ t) := by
  unfold Sys2Proof.Machine.execTriRestart
  refine OnlyO.next ?_
  exact (Only.live h (fun t1 h2 => (Only.restartTriad (Only.moveTo h2 _ (sb rfl m)) _ (sb rfl m))))

theorem Only.askSleep {M : Nat} {a t : State} (h : Only M a t) (m : 0x1101180000001220 &&& M = 0x1101180000001220) :
    Only M a (State.askSleep t) := by
  unfold State.askSleep
  extract_lets l1 l2
  have k6 : Only M a l1 := (Only.foldl h fun t3 x4 h5 => (Only.toWadi h5 _ (sb rfl m)))
  try clear_value l1
  exact (Only.ite (Only.refuse h _ (sb rfl m) (fm rfl m)) (Only.set_pwr k6 _ (sb rfl m)))

theorem Only.execSleep {M : Nat} {a t : State} (h : Only M a t) (x0_) (m : 0x11011e0000001220 &&& M = 0x11011e0000001220) :
    OnlyO M a (Sys2Proof.Machine.execSleep x0_ t) := by
  unfold Sys2Proof.Machine.execSleep
  refine OnlyO.next ?_
  exact (Only.live h (fun t1 h2 => (Only.askSleep (Only.moveTo h2 _ (sb rfl m)) (sb rfl m))))

theorem Only.enterSleep {M : Nat} {a t : State} (h : Only M a t) (m : 0x11ee1a0820580320 &&& M = 0x11ee1a0820580320) :
    Only M a (State.enterSleep t) := by
  unfold State.enterSleep
  extract_lets l1 l2 l3 l4 l5 l6 l7 l8 l9 l10
  have k14 : Only M a l1 := (Only.foldl h fun t11 x12 h13 => (Only.stepTick h13 _ (sb rfl m)))
  try clear_value l1
  have k15 : Only M a l2 := (Only.mapCells k14 _ (sb rfl m))
  try clear_value l2
  have k21 : Only M a l3 := (Only.foldl k15 fun t16 x17 h18 => (by
    extract_lets l19
    have k20 : Only M a l19 := (Only.setQueue h18 _ _ (sb rfl m))
    try clear_value l19
    exact (Only.ite k20 (Only.wri k20 _ _ _ (fm rfl m)))))
  try clear_value l3
  have k22 : Only M a l8 := (Only.set_tm_pwr_adc_mtr k21 _ (sb rfl m) _ (sb rfl m) _ (sb rfl m) _ (sb rfl m))
  try clear_value l8
  have k23 : Only M a l9 := (Only.dropForming (Only.breakTimes k22 (sb rfl m)) (sb rfl m))
  try clear_value l9
  have k24 : Only M a l10 := (Only.wr (Only.wr (Only.wr k23 _ _ (sb rfl m) (fm rfl m)) _ _ (sb rfl m) (fm rfl m)) _ _ (sb rfl m) (fm rfl m))
  try clear_value l10
  exact (Only.showScan (Only.setStage (Only.powerEvent k24 _ _ (sb rfl m)) _ (sb rfl m)) (sb rfl m))

theorem Only.leaveSleep {M : Nat} {a t : State} (h : Only M a t) (m : 0x11831a0000001200 &&& M = 0x11831a0000001200) :
    Only M a (State.leaveSleep t) := by
  unfold State.leaveSleep
  extract_lets l1 l2 l3 l4 l5
  have k6 : Only M a l1 := (Only.startTick h (sb rfl m))
  try clear_value l1
  have k7 : Only M a l4 := (Only.set_pwr_mtr k6 _ (sb rfl m) _ (sb rfl m))
  try clear_value l4
  have k8 : Only M a l5 := (Only.mapCells k7 _ (sb rfl m))
  try clear_value l5
  exact (Only.foldl k8 fun t9 x10 h11 => (Only.startShift h11 _ (sb rfl m)))

theorem Only.latchNow {M : Nat} {a t : State} (h : Only M a t) (m : 0x182001800000000 &&& M = 0x182001800000000) :
    Only M a (State.latchNow t) := by
  unfold State.latchNow
  extract_lets l1 l2 l3
  have k13 : Only M a l1 := (by
    unfold l1
    split
    · exact (Only.foldl h fun t8 x9 h10 => (Only.mergeRec h10 _ (sb rfl m)))
    · exact h)
  try clear_value l1
  have k14 : Only M a l2 := (Only.formLatch k13 _ (sb rfl m))
  try clear_value l2
  split
  · extract_lets l20 l21
    have k22 : Only M a l20 := (Only.showMeans (Only.wr k14 _ _ (sb rfl m) (fm rfl m)) (sb rfl m))
    try clear_value l20
    exact (Only.beginSnap (Only.set_mtr k22 _ (sb rfl m)) _ (sb rfl m))
  · exact (Only.set_mtr k14 _ (sb rfl m))

theorem Only.askShutdown {M : Nat} {a t : State} (h : Only M a t) (m : 0x182081800000020 &&& M = 0x182081800000020) :
    Only M a (State.askShutdown t) := by
  unfold State.askShutdown
  extract_lets l1 l2
  have k3 : Only M a l2 := (Only.set_pwr h _ (sb rfl m))
  try clear_value l2
  exact (Only.ite (Only.refuse h _ (sb rfl m) (fm rfl m)) (Only.ite h (Only.ite (Only.latchNow k3 (sb rfl m)) k3)))

theorem Only.execShutdown {M : Nat} {a t : State} (h : Only M a t) (x0_) (m : 0x1820e1800000020 &&& M = 0x1820e1800000020) :
    OnlyO M a (Sys2Proof.Machine.execShutdown x0_ t) := by
  unfold Sys2Proof.Machine.execShutdown
  refine OnlyO.next ?_
  exact (Only.live h (fun t1 h2 => (Only.askShutdown (Only.moveTo h2 _ (sb rfl m)) (sb rfl m))))

theorem Only.execShutdownDone {M : Nat} {a t : State} (h : Only M a t) (x0_ x1_) (m : 0x600000000a0 &&& M = 0x600000000a0) :
    OnlyO M a (Sys2Proof.Machine.execShutdownDone x0_ x1_ t) := by
  unfold Sys2Proof.Machine.execShutdownDone
  refine OnlyO.next ?_
  exact (Only.live h (fun t1 h2 => (by
    extract_lets l3
    have k4 : Only M a l3 := (Only.moveTo h2 _ (sb rfl m))
    try clear_value l3
    exact (Only.ite k4 (Only.wr (Only.wr (Only.wr k4 _ _ (sb rfl m) (fm rfl m)) _ _ (sb rfl m) (fm rfl m)) _ _ (sb rfl m) (fm rfl m))))))

theorem Only.oasisLost {M : Nat} {a t : State} (h : Only M a t) (m : 0x800000000c0 &&& M = 0x800000000c0) : Only M a (State.oasisLost t) :=
  Only.set_pwr (Only.dropKa h (sb rfl m)) _ (sb rfl m)

theorem Only.supplyIs {M : Nat} {a t : State} (h : Only M a t) (x1_) (m : 0x1400090000000000 &&& M = 0x1400090000000000) :
    Only M a (State.supplyIs t x1_) := by
  unfold State.supplyIs
  extract_lets l1 l2 l3
  have k4 : Only M a l3 := (Only.set_pwr h _ (sb rfl m))
  try clear_value l3
  exact (Only.ite k4 (Only.showBrk (Only.ite k4 (Only.auxDead k4 (sb rfl m))) (sb rfl m)))

theorem Only.outageTick {M : Nat} {a t : State} (h : Only M a t) (x1_) (m : 0x80000000040 &&& M = 0x80000000040) :
    Only M a (State.outageTick t x1_) := by
  unfold State.outageTick
  extract_lets l1 l2 l3 l4
  have k5 : Only M a l1 := (Only.wr h _ _ (sb rfl m) (fm rfl m))
  try clear_value l1
  exact (Only.ite (Only.set_pwr k5 _ (sb rfl m)) (Only.ite (Only.set_pwr h _ (sb rfl m)) h))

theorem Only.ctTick {M : Nat} {a t : State} (h : Only M a t) (x1_) (m : 0x80000000040 &&& M = 0x80000000040) :
    Only M a (State.ctTick t x1_) := by
  unfold State.ctTick
  extract_lets l1 l2 l3 l4 l5 l6 l7 l8
  have k9 : Only M a l4 := (Only.set_pwr h _ (sb rfl m))
  try clear_value l4
  have k10 : Only M a l6 := (Only.ite (Only.wr (Only.set_pwr k9 _ (sb rfl m)) _ _ (sb rfl m) (fm rfl m)) k9)
  try clear_value l6
  exact (Only.ite (Only.wr (Only.set_pwr k10 _ (sb rfl m)) _ _ (sb rfl m) (fm rfl m)) k10)

theorem Only.execOasisTick {M : Nat} {a t : State} (h : Only M a t) (x0_) (m : 0x14000900000000c0 &&& M = 0x14000900000000c0) :
    OnlyO M a (Sys2Proof.Machine.execOasisTick x0_ t) := by
  unfold Sys2Proof.Machine.execOasisTick
  extract_lets l1 l2 l3
  have k4 : Only M a l1 := (Only.supplyIs h _ (sb rfl m))
  try clear_value l1
  have k5 : Only M a l3 := (Only.wr (Only.wr (Only.wr k4 _ _ (sb rfl m) (fm rfl m)) _ _ (sb rfl m) (fm rfl m)) _ _ (sb rfl m) (fm rfl m))
  try clear_value l3
  refine OnlyO.next ?_
  exact (Only.ite h (Only.ite (Only.oasisLost k4 (sb rfl m)) (Only.ctTick (Only.outageTick k5 _ (sb rfl m)) _ (sb rfl m))))

theorem Only.setLife {M : Nat} {a t : State} (h : Only M a t) (x1_) (m : 0x1100100200000202 &&& M = 0x1100100200000202) :
    Only M a (State.setLife t x1_) := by
  unfold State.setLife
  extract_lets l1
  exact (Only.post (Only.showSil (Only.wr h _ _ (sb rfl m) (fm rfl m)) (sb rfl m)) _ _ (sb rfl m))

theorem Only.returnPart {M : Nat} {a t : State} (h : Only M a t) (m : 0x1100180a00000203 &&& M = 0x1100180a00000203) :
    Only M a (State.returnPart t) := by
  unfold State.returnPart
  extract_lets l1 l2 l3
  have k4 : Only M a l2 := (Only.wr (Only.set_pwr h _ (sb rfl m)) _ _ (sb rfl m) (fm rfl m))
  try clear_value l2
  have k5 : Only M a l3 := (Only.wr k4 _ _ (sb rfl m) (fm rfl m))
  try clear_value l3
  exact (Only.setLife (Only.foldl k5 fun t6 x7 h8 => (Only.wri h8 _ _ _ (fm rfl m))) _ (sb rfl m))

theorem Only.writeLife {M : Nat} {a t : State} (h : Only M a t) (x1_) (m : 0x1100180a00000223 &&& M = 0x1100180a00000223) :
    Only M a (State.writeLife t x1_) := by
  unfold State.writeLife
  extract_lets l1 l2 l3 l4
  exact (Only.ite (Only.ite (Only.wr (Only.set_pwr h _ (sb rfl m)) _ _ (sb rfl m) (fm rfl m)) (Only.refuse h _ (sb rfl m) (fm rfl m))) (Only.ite (Only.refuse h _ (sb rfl m) (fm rfl m)) (Only.ite (Only.setLife h _ (sb rfl m)) (Only.ite (Only.showSil (Only.writeCommBlock (Only.setLife h _ (sb rfl m)) _ (sb rfl m)) (sb rfl m)) (Only.ite (Only.showSil (Only.setLife (Only.wr (Only.wr h _ _ (sb rfl m) (fm rfl m)) _ _ (sb rfl m) (fm rfl m)) _ (sb rfl m)) (sb rfl m)) (Only.ite (Only.returnPart h (sb rfl m)) (Only.refuse h _ (sb rfl m) (fm rfl m))))))))

theorem Only.execLcTransition {M : Nat} {a t : State} (h : Only M a t) (x0_ x1_ x2_) (m : 0x11001e0a00000223 &&& M = 0x11001e0a00000223) :
    OnlyO M a (Sys2Proof.Machine.execLcTransition x0_ x1_ x2_ t) := by
  unfold Sys2Proof.Machine.execLcTransition
  refine OnlyO.next ?_
  exact (Only.live h (fun t1 h2 => (Only.writeLife (Only.moveTo h2 _ (sb rfl m)) _ (sb rfl m))))

end Sys2Proof.Machine
end

