-- ==== Sys2Proof/Laws/OnlyCoreMem.lean ====
section
/-! SUPPORT. `Only` of each function of Machine/CoreMem.lean. -/
set_option Elab.async false
namespace Sys2Proof.Machine

theorem storeLanes_wf (m : Tab Byte) (a be v : Nat) (h : Memory.wf m) : Memory.wf (storeLanes m a be v) := by
  have : ∀ (l : List Nat) (m : Tab Byte), Memory.wf m → Memory.wf (l.foldl (fun (m : Tab Byte) i =>
      if bitOf be i then memStore m (a + i) (leBytes 1 (bits v (8 * i) 8)) else m) m) := by
    intro l
    induction l with
    | nil => exact fun m h => h
    | cons i l ih =>
      intro m h
      refine ih _ ?_
      show Memory.wf (if bitOf be i then memStore m (a + i) (leBytes 1 (bits v (8 * i) 8)) else m)
      split
      · exact memStore_wf _ _ _ h
      · exact h
  exact this _ m h

theorem Only.storeBank {M : Nat} {a t : State} (h : Only M a t) (x y z) (m : 0x200000000000 &&& M = 0x200000000000) :
    Only M a (State.storeBank t x y z) :=
  Only.ite (Only.set_triW h _ (sb rfl m) (storeLanes_wf _ _ _ _) id id (fun x _ => x) fun _ x => x)
    (Only.set_triW h _ (sb rfl m) id (storeLanes_wf _ _ _ _) id (fun x _ => x) fun _ x => x)

theorem Only.storeRam {M : Nat} {a t : State} (h : Only M a t) (x y z) (m : 0x200000000000 &&& M = 0x200000000000) :
    Only M a (State.storeRam t x y z) :=
  Only.set_triW h _ (sb rfl m) id id (storeLanes_wf _ _ _ _) (fun x _ => x) fun _ x => x

theorem Only.storeRegion {M : Nat} {a t : State} (h : Only M a t) (x y z) (m : 0x200000000000 &&& M = 0x200000000000) :
    Only M a (State.storeRegion t x y z) :=
  Only.ite (Only.set_triW h _ (sb rfl m) id id id (fun x _ => storeLanes_wf _ _ _ _ x) fun _ x => x)
    (Only.set_triW h _ (sb rfl m) id id id (fun x _ => storeLanes_wf _ _ _ _ x) fun x _ => storeLanes_wf _ _ _ _ x)

theorem Only.memberCrc {M : Nat} {a t : State} (h : Only M a t) (x1_ x2_ x3_) (m : 0x200000000000 &&& M = 0x200000000000) :
    Only M a (State.memberCrc t x1_ x2_ x3_) := by
  unfold State.memberCrc
  extract_lets l1 l2
  exact (Only.ite (Only.set_tri h _ (sb rfl m)) (Only.ite (Only.set_tri h _ (sb rfl m)) (Only.ite (Only.set_tri h _ (sb rfl m)) h)))

theorem Only.setCoreReg {M : Nat} {a t : State} (h : Only M a t) (x1_ x2_) (m : 0x200000000000 &&& M = 0x200000000000) :
    Only M a (State.setCoreReg t x1_ x2_) := by
  unfold State.setCoreReg
  extract_lets l1
  exact (Only.ite (Only.set_tri h _ (sb rfl m)) (Only.ite (Only.set_tri h _ (sb rfl m)) (Only.set_tri h _ (sb rfl m))))

theorem Only.trapNow {M : Nat} {a t : State} (h : Only M a t) (x1_) (m : 0x190c320000100208 &&& M = 0x190c320000100208) :
    Only M a (State.trapNow t x1_) := by
  unfold State.trapNow
  extract_lets l1 l2
  exact (Only.trap (Only.used (Only.used h (sb rfl m)) (sb rfl m)) _ _ _ (sb rfl m))

theorem Only.badAccess {M : Nat} {a t : State} (h : Only M a t) (m : 0x190c320000100208 &&& M = 0x190c320000100208) :
    Only M a (State.badAccess t) := by
  unfold State.badAccess
  exact (Only.ite (Only.trapNow h _ (sb rfl m)) h)

end Sys2Proof.Machine
end

