-- ==== Sys2Proof/Laws/OnlyDrives.lean ====
section
/-! SUPPORT. `Only` of each function of Machine/Drives.lean. -/
set_option Elab.async false
namespace Sys2Proof.Machine

theorem Only.auxDiag {M : Nat} {a t : State} (h : Only M a t) (x1_ x2_) (m : 0x1400010000000000 &&& M = 0x1400010000000000) :
    Only M a (State.auxDiag t x1_ x2_) := by
  unfold State.auxDiag
  exact (Only.emit (Only.updAch (Only.wri (Only.wri h _ _ _ (fm rfl m)) _ _ _ (fm rfl m)) _ _ (sb rfl m)) _ (sb rfl m))

theorem Only.busCleared {M : Nat} {a t : State} (h : Only M a t) (m : 0x10000000000 &&& M = 0x10000000000) :
    Only M a (State.busCleared t) := by
  unfold State.busCleared
  exact (Only.wr (Only.wr h _ _ (sb rfl m) (fm rfl m)) _ _ (sb rfl m) (fm rfl m))

theorem Only.auxStart {M : Nat} {a t : State} (h : Only M a t) (x1_) (m : 0x1500114000000200 &&& M = 0x1500114000000200) :
    Only M a (State.auxStart t x1_) := by
  unfold State.auxStart
  extract_lets l1
  exact (Only.ite (Only.auxPost (Only.auxDiag (Only.busCleared h (sb rfl m)) _ _ (sb rfl m)) _ _ _ (sb rfl m)) (Only.refuse h _ (sb rfl m) (fm rfl m)))

theorem Only.auxDiagOnly {M : Nat} {a t : State} (h : Only M a t) (x1_) (m : 0x1400014000000000 &&& M = 0x1400014000000000) :
    Only M a (State.auxDiagOnly t x1_) := by
  unfold State.auxDiagOnly
  exact (Only.ite (Only.auxDiag h _ _ (sb rfl m)) (Only.refuse h _ (sb rfl m) (fm rfl m)))

theorem Only.writeAuxCtrl {M : Nat} {a t : State} (h : Only M a t) (x1_ x2_) (m : 0x1500114000000200 &&& M = 0x1500114000000200) :
    Only M a (State.writeAuxCtrl t x1_ x2_) := by
  unfold State.writeAuxCtrl
  extract_lets l1
  have k2 : Only M a l1 := (Only.wri (Only.auxHolds h (sb rfl m)) _ _ _ (fm rfl m))
  try clear_value l1
  exact (Only.ite (Only.auxStop k2 _ (sb rfl m)) (Only.ite (Only.auxStart k2 _ (sb rfl m)) (Only.ite (Only.auxDiagOnly k2 _ (sb rfl m)) k2)))

theorem Only.execAuxStart {M : Nat} {a t : State} (h : Only M a t) (x0_ x1_) (m : 0x1500174000000200 &&& M = 0x1500174000000200) :
    OnlyO M a (Sys2Proof.Machine.execAuxStart x0_ x1_ t) := by
  unfold Sys2Proof.Machine.execAuxStart
  refine OnlyO.next ?_
  exact (Only.live h (fun t1 h2 => (Only.auxStart (Only.auxHolds (Only.moveTo h2 _ (sb rfl m)) (sb rfl m)) _ (sb rfl m))))

theorem Only.execAuxStop {M : Nat} {a t : State} (h : Only M a t) (x0_ x1_) (m : 0x1500170000000200 &&& M = 0x1500170000000200) :
    OnlyO M a (Sys2Proof.Machine.execAuxStop x0_ x1_ t) := by
  unfold Sys2Proof.Machine.execAuxStop
  refine OnlyO.next ?_
  exact (Only.live h (fun t1 h2 => (Only.auxStop (Only.auxHolds (Only.moveTo h2 _ (sb rfl m)) (sb rfl m)) _ (sb rfl m))))

theorem Only.execAuxDiag {M : Nat} {a t : State} (h : Only M a t) (x0_ x1_) (m : 0x1400074000000000 &&& M = 0x1400074000000000) :
    OnlyO M a (Sys2Proof.Machine.execAuxDiag x0_ x1_ t) := by
  unfold Sys2Proof.Machine.execAuxDiag
  refine OnlyO.next ?_
  exact (Only.live h (fun t1 h2 => (Only.auxDiagOnly (Only.auxHolds (Only.moveTo h2 _ (sb rfl m)) (sb rfl m)) _ (sb rfl m))))

theorem Only.execAuxDiagDone {M : Nat} {a t : State} (h : Only M a t) (x0_ x1_ x2_) (m : 0x1500170000000200 &&& M = 0x1500170000000200) :
    OnlyO M a (Sys2Proof.Machine.execAuxDiagDone x0_ x1_ x2_ t) := by
  unfold Sys2Proof.Machine.execAuxDiagDone
  extract_lets l1 l2 l3 l4
  have k5 : Only M a l1 := (Only.auxHolds (Only.moveTo h _ (sb rfl m)) (sb rfl m))
  try clear_value l1
  have k6 : Only M a l3 := (Only.wri k5 _ _ _ (fm rfl m))
  try clear_value l3
  refine OnlyO.next ?_
  exact (Only.ite k5 (Only.ite (Only.auxDown k6 _ _ _ _ (sb rfl m)) (Only.ite (Only.auxDown k6 _ _ _ _ (sb rfl m)) (Only.updAch (Only.wri k6 _ _ _ (fm rfl m)) _ _ (sb rfl m)))))

theorem Only.execAuxAlignDone {M : Nat} {a t : State} (h : Only M a t) (x0_ x1_) (m : 0x1400070000000000 &&& M = 0x1400070000000000) :
    OnlyO M a (Sys2Proof.Machine.execAuxAlignDone x0_ x1_ t) := by
  unfold Sys2Proof.Machine.execAuxAlignDone
  extract_lets l1
  have k2 : Only M a l1 := (Only.auxHolds (Only.moveTo h _ (sb rfl m)) (sb rfl m))
  try clear_value l1
  refine OnlyO.next ?_
  exact (Only.ite (Only.updAch (Only.wri k2 _ _ _ (fm rfl m)) _ _ (sb rfl m)) k2)

theorem Only.execAuxHandover {M : Nat} {a t : State} (h : Only M a t) (x0_ x1_) (m : 0x1500170000000200 &&& M = 0x1500170000000200) :
    OnlyO M a (Sys2Proof.Machine.execAuxHandover x0_ x1_ t) := by
  unfold Sys2Proof.Machine.execAuxHandover
  extract_lets l1 l2
  have k3 : Only M a l1 := (Only.auxHolds (Only.moveTo h _ (sb rfl m)) (sb rfl m))
  try clear_value l1
  have k4 : Only M a l2 := (Only.updAch (Only.wri k3 _ _ _ (fm rfl m)) _ _ (sb rfl m))
  try clear_value l2
  refine OnlyO.next ?_
  split
  · exact (Only.ite (Only.auxPost k4 _ _ _ (sb rfl m)) k3)
  · exact k3

theorem Only.auxRamp {M : Nat} {a t : State} (h : Only M a t) (x1_ x2_) (m : 0x1500110000000200 &&& M = 0x1500110000000200) :
    Only M a (State.auxRamp t x1_ x2_) := by
  unfold State.auxRamp
  extract_lets l1 l2 l3 l4
  exact (Only.ite (Only.ite (Only.auxDown h _ _ _ _ (sb rfl m)) (Only.updAch (Only.wri h _ _ _ (fm rfl m)) _ _ (sb rfl m))) (Only.updAch h _ _ (sb rfl m)))

theorem Only.auxRun {M : Nat} {a t : State} (h : Only M a t) (x1_ x2_) (m : 0x400010000000000 &&& M = 0x400010000000000) :
    Only M a (State.auxRun t x1_ x2_) := by
  unfold State.auxRun
  extract_lets l1 l2 l3 l4 l5 l6 l7 l8 l9 l10 l11
  exact (Only.ite (Only.auxDecel h _ (sb rfl m)) (Only.updAch h _ _ (sb rfl m)))

theorem Only.auxSlow {M : Nat} {a t : State} (h : Only M a t) (x1_ x2_) (m : 0x1500110000000200 &&& M = 0x1500110000000200) :
    Only M a (State.auxSlow t x1_ x2_) := by
  unfold State.auxSlow
  extract_lets l1 l2 l3 l4 l5 l6
  exact (Only.ite (Only.ite (Only.auxDown h _ _ _ _ (sb rfl m)) (Only.auxDown h _ _ _ _ (sb rfl m))) (Only.updAch h _ _ (sb rfl m)))

theorem Only.execAuxSpeedLoop {M : Nat} {a t : State} (h : Only M a t) (x0_ x1_ x2_) (m : 0x1500170000000200 &&& M = 0x1500170000000200) :
    OnlyO M a (Sys2Proof.Machine.execAuxSpeedLoop x0_ x1_ x2_ t) := by
  unfold Sys2Proof.Machine.execAuxSpeedLoop
  extract_lets l1 l2 l3
  have k4 : Only M a l1 := (Only.auxHolds (Only.moveTo h _ (sb rfl m)) (sb rfl m))
  try clear_value l1
  have k5 : Only M a l3 := (Only.wri k4 _ _ _ (fm rfl m))
  try clear_value l3
  refine OnlyO.next ?_
  exact (Only.ite k4 (Only.ite (Only.auxRamp k5 _ _ (sb rfl m)) (Only.ite (Only.auxRun k5 _ _ (sb rfl m)) (Only.ite (Only.auxSlow k5 _ _ (sb rfl m)) k5))))

theorem Only.execAuxPwmPeriod {M : Nat} {a t : State} (h : Only M a t) (x0_ x1_ x2_) (m : 0x1d42770320000600 &&& M = 0x1d42770320000600) :
    OnlyO M a (Sys2Proof.Machine.execAuxPwmPeriod x0_ x1_ x2_ t) := by
  unfold Sys2Proof.Machine.execAuxPwmPeriod
  extract_lets l1 l2 l3 l4 l5 l6 l7 l8 l9 l10 l11 l12 l13 l14 l15 l16 l17 l18 l19 l20 l21 l22 l23 l24 l25
  have k26 : Only M a l1 := (Only.auxHolds (Only.moveTo h _ (sb rfl m)) (sb rfl m))
  try clear_value l1
  have k29 : Only M a l12 := (Only.live k26 (fun t27 h28 => (Only.trigEvent h28 _ _ (sb rfl m))))
  try clear_value l12
  have k30 : Only M a l14 := (Only.ite (Only.inci k29 _ _ _ (sb rfl m) (fm rfl m)) k29)
  try clear_value l14
  have k31 : Only M a l25 := (Only.updAch k30 _ _ (sb rfl m))
  try clear_value l25
  refine OnlyO.next ?_
  exact (Only.ite k29 (Only.agreed k31 _ _ _ _ _ (fun t32 h33 => (Only.emit h33 _ (sb rfl m))) (fun t34 h35 => h35) (sb rfl m)))

theorem Only.execAuxWindowCap {M : Nat} {a t : State} (h : Only M a t) (x0_) (m : 0x1d00110000000200 &&& M = 0x1d00110000000200) :
    OnlyO M a (Sys2Proof.Machine.execAuxWindowCap x0_ t) := by
  unfold Sys2Proof.Machine.execAuxWindowCap
  extract_lets l1 l2
  refine OnlyO.next ?_
  exact (Only.ite (Only.used (Only.auxPost (Only.updAch (Only.wri h _ _ _ (fm rfl m)) _ _ (sb rfl m)) _ _ _ (sb rfl m)) (sb rfl m)) h)

theorem Only.execKeMeasured {M : Nat} {a t : State} (h : Only M a t) (x0_ x1_ x2_) (m : 0x1500170000000200 &&& M = 0x1500170000000200) :
    OnlyO M a (Sys2Proof.Machine.execKeMeasured x0_ x1_ x2_ t) := by
  unfold Sys2Proof.Machine.execKeMeasured
  extract_lets l1 l2 l3 l4 l5 l6 l7 l8
  have k9 : Only M a l1 := (Only.auxHolds (Only.moveTo h _ (sb rfl m)) (sb rfl m))
  try clear_value l1
  have k10 : Only M a l7 := (Only.wri k9 _ _ _ (fm rfl m))
  try clear_value l7
  have k11 : Only M a l8 := (Only.updAch k10 _ _ (sb rfl m))
  try clear_value l8
  refine OnlyO.next ?_
  exact (Only.ite k9 (Only.ite (Only.updAch (Only.auxDecel (Only.auxPost k11 _ _ _ (sb rfl m)) _ (sb rfl m)) _ _ (sb rfl m)) (Only.ite (Only.updAch (Only.auxDecel (Only.auxPost k11 _ _ _ (sb rfl m)) _ (sb rfl m)) _ _ (sb rfl m)) k11)))

theorem Only.uvChannel {M : Nat} {a t : State} (h : Only M a t) (x1_ x2_) (m : 0x1500110000000200 &&& M = 0x1500110000000200) :
    Only M a (State.uvChannel t x1_ x2_) := by
  unfold State.uvChannel
  extract_lets l1
  exact (Only.ite (Only.auxDown (Only.wri h _ _ _ (fm rfl m)) _ _ _ _ (sb rfl m)) (Only.ite (Only.auxDown h _ _ _ _ (sb rfl m)) (Only.ite (Only.updAch (Only.auxDown h _ _ _ _ (sb rfl m)) _ _ (sb rfl m)) h)))

theorem Only.execVauxUv {M : Nat} {a t : State} (h : Only M a t) (x0_ x1_) (m : 0x1500170000000200 &&& M = 0x1500170000000200) :
    OnlyO M a (Sys2Proof.Machine.execVauxUv x0_ x1_ t) := by
  unfold Sys2Proof.Machine.execVauxUv
  extract_lets l1
  have k2 : Only M a l1 := (Only.wr (Only.auxHolds (Only.moveTo h _ (sb rfl m)) (sb rfl m)) _ _ (sb rfl m) (fm rfl m))
  try clear_value l1
  refine OnlyO.next ?_
  exact (Only.ite (Only.uvChannel (Only.uvChannel (Only.wr k2 _ _ (sb rfl m) (fm rfl m)) _ _ (sb rfl m)) _ _ (sb rfl m)) k2)

theorem Only.execVauxUvRecover {M : Nat} {a t : State} (h : Only M a t) (x0_ x1_) (m : 0x1500170000000200 &&& M = 0x1500170000000200) :
    OnlyO M a (Sys2Proof.Machine.execVauxUvRecover x0_ x1_ t) := by
  unfold Sys2Proof.Machine.execVauxUvRecover
  extract_lets l1
  have k2 : Only M a l1 := (Only.wr (Only.auxHolds (Only.moveTo h _ (sb rfl m)) (sb rfl m)) _ _ (sb rfl m) (fm rfl m))
  try clear_value l1
  refine OnlyO.next ?_
  exact (Only.ite (Only.foldl (Only.wr k2 _ _ (sb rfl m) (fm rfl m)) fun t3 x4 h5 => (Only.ite (Only.auxPost (Only.auxDiag h5 _ _ (sb rfl m)) _ _ _ (sb rfl m)) h5)) k2)

theorem Only.execVauxOv {M : Nat} {a t : State} (h : Only M a t) (x0_ x1_) (m : 0x1500170000000200 &&& M = 0x1500170000000200) :
    OnlyO M a (Sys2Proof.Machine.execVauxOv x0_ x1_ t) := by
  unfold Sys2Proof.Machine.execVauxOv
  extract_lets l1
  have k2 : Only M a l1 := (Only.wr (Only.auxHolds (Only.moveTo h _ (sb rfl m)) (sb rfl m)) _ _ (sb rfl m) (fm rfl m))
  try clear_value l1
  refine OnlyO.next ?_
  exact (Only.ite (Only.updAch (Only.updAch (Only.auxDown (Only.auxDown (Only.wr k2 _ _ (sb rfl m) (fm rfl m)) _ _ _ _ (sb rfl m)) _ _ _ _ (sb rfl m)) _ _ (sb rfl m)) _ _ (sb rfl m)) k2)

theorem Only.execCpUv {M : Nat} {a t : State} (h : Only M a t) (x0_ x1_) (m : 0x1500170000000200 &&& M = 0x1500170000000200) :
    OnlyO M a (Sys2Proof.Machine.execCpUv x0_ x1_ t) := by
  unfold Sys2Proof.Machine.execCpUv
  extract_lets l1
  have k2 : Only M a l1 := (Only.wr (Only.auxHolds (Only.moveTo h _ (sb rfl m)) (sb rfl m)) _ _ (sb rfl m) (fm rfl m))
  try clear_value l1
  refine OnlyO.next ?_
  exact (Only.ite (Only.updAch (Only.updAch (Only.auxDown (Only.auxDown (Only.wr k2 _ _ (sb rfl m) (fm rfl m)) _ _ _ _ (sb rfl m)) _ _ _ _ (sb rfl m)) _ _ (sb rfl m)) _ _ (sb rfl m)) k2)

theorem Only.execRegenLimit {M : Nat} {a t : State} (h : Only M a t) (x0_ x1_) (m : 0x1400070000000000 &&& M = 0x1400070000000000) :
    OnlyO M a (Sys2Proof.Machine.execRegenLimit x0_ x1_ t) := by
  unfold Sys2Proof.Machine.execRegenLimit
  extract_lets l1
  have k2 : Only M a l1 := (Only.wr (Only.auxHolds (Only.moveTo h _ (sb rfl m)) (sb rfl m)) _ _ (sb rfl m) (fm rfl m))
  try clear_value l1
  refine OnlyO.next ?_
  exact (Only.ite (Only.wr k2 _ _ (sb rfl m) (fm rfl m)) k2)

theorem Only.execRegenClear {M : Nat} {a t : State} (h : Only M a t) (x0_ x1_) (m : 0x1400070000000000 &&& M = 0x1400070000000000) :
    OnlyO M a (Sys2Proof.Machine.execRegenClear x0_ x1_ t) := by
  unfold Sys2Proof.Machine.execRegenClear
  extract_lets l1
  have k2 : Only M a l1 := (Only.wr (Only.auxHolds (Only.moveTo h _ (sb rfl m)) (sb rfl m)) _ _ (sb rfl m) (fm rfl m))
  try clear_value l1
  refine OnlyO.next ?_
  exact (Only.ite (Only.wr k2 _ _ (sb rfl m) (fm rfl m)) k2)

end Sys2Proof.Machine
end

