-- ==== Sys2Proof/Laws/OnlyRegisterWrite.lean ====
section
/-! SUPPORT. `Only` of each function of Machine/RegisterWrite.lean. -/
set_option Elab.async false
namespace Sys2Proof.Machine

/-- The CFG_ERR field of a refused write lies in one of the register blocks. -/
theorem errField_inM {M off : Nat} {f : Fld} (m : 0x1FFFFFFFFFF &&& M = 0x1FFFFFFFFFF) (h : errField off = some f) :
    inM M f = true := by
  unfold errField at h
  split at h
  all_goals first
    | (cases h; first | exact fm (by decide) m | (split <;> exact fm (by decide) m))
    | cases h
    | (simp only [Option.some.injEq] at h; subst h; split <;> exact fm (by decide) m)

theorem Only.refuseWrite {M : Nat} {a t : State} (h : Only M a t) (x y z) (m : 0x110011ffffffffff &&& M = 0x110011ffffffffff) :
    Only M a (State.refuseWrite t x y z) := by
  unfold State.refuseWrite
  split
  · next e => exact Only.refuse h _ (sb rfl m) (errField_inM (sb rfl m) e)
  · exact Only.configRefused h _ _ _ (sb rfl m)

theorem Only.afterWrite {M : Nat} {a t : State} (h : Only M a t) (x1_ x2_ x3_) (m : 0x1d42dd4320000320 &&& M = 0x1d42dd4320000320) :
    Only M a (State.afterWrite t x1_ x2_ x3_) := by
  unfold State.afterWrite
  extract_lets l1
  exact (Only.ite (Only.reselect (Only.qualTrack h (sb rfl m)) (sb rfl m)) (Only.ite (Only.ite h (Only.set_adc h _ (sb rfl m))) (Only.ite (Only.ite h (Only.inputSet h _ _ (sb rfl m))) (Only.ite (Only.moveMeterRing h _ (sb rfl m)) (Only.ite (Only.ite (Only.netEnable h (sb rfl m)) h) (Only.ite (Only.ite h (Only.wr h _ _ (sb rfl m) (fm rfl m))) (Only.ite (Only.auxStop h _ (sb rfl m)) h)))))))

theorem Only.clearOnes {M : Nat} {a t : State} (h : Only M a t) (i v : Nat) (l : List FieldRow) (m : 0x1ffffffffff &&& M = 0x1ffffffffff) :
    Only M a (State.clearOnes t i v l) := by
  induction l generalizing t with
  | nil => exact h
  | cons r l ih => exact ih (Only.wriAll h _ _ _ (sb rfl m))

theorem Only.reportRws {M : Nat} {a t : State} (h : Only M a t) (x y z) (m : 0x110011ffffffffff &&& M = 0x110011ffffffffff) :
    Only M a (State.reportRws t x y z) := by
  unfold State.reportRws
  split
  · next e => exact Only.rwsIgnored h _ _ _ _ (sb rfl m) (errField_inM (sb rfl m) e)
  · exact Only.ite (Only.configRefused h _ _ _ (sb rfl m)) h

theorem Only.setFieldsOf {M : Nat} {a t : State} (h : Only M a t) (x1_ x2_ x3_ x4_) (m : 0x1d42ddffffffffff &&& M = 0x1d42ddffffffffff) :
    Only M a (State.setFieldsOf t x1_ x2_ x3_ x4_) := by
  unfold State.setFieldsOf
  extract_lets i com w held allRws rule was s1 s2 s3
  have k1 : Only M a s1 := Only.clearOnes (Only.putFieldsAll h _ _ _ (sb rfl m)) _ _ _ (sb rfl m)
  try clear_value s1
  have k2 : Only M a s2 := Only.afterWrite k1 _ _ _ (sb rfl m)
  try clear_value s2
  have k3 : Only M a s3 := Only.ite (Only.safetyWritten k2 (sb rfl m)) k2
  try clear_value s3
  exact Only.ite (Only.refuseWrite h _ _ _ (sb rfl m)) (Only.ite k3 (Only.reportRws k3 _ _ _ (sb rfl m)))

theorem Only.writePwrCtrl {M : Nat} {a t : State} (h : Only M a t) (x1_) (m : 0x1183181800001220 &&& M = 0x1183181800001220) :
    Only M a (State.writePwrCtrl t x1_) := by
  unfold State.writePwrCtrl
  extract_lets l1
  have k2 : Only M a l1 := (Only.ite (Only.askSleep h (sb rfl m)) h)
  try clear_value l1
  exact (Only.ite (Only.askShutdown k2 (sb rfl m)) k2)

theorem Only.writeLinkCtrl {M : Nat} {a t : State} (h : Only M a t) (x1_) (m : 0x1101100000001200 &&& M = 0x1101100000001200) :
    Only M a (State.writeLinkCtrl t x1_) := by
  unfold State.writeLinkCtrl
  exact (Only.ite (Only.refuse h _ (sb rfl m) (fm rfl m)) (Only.ite (Only.goFull h _ (sb rfl m)) (Only.ite (Only.goWadi h _ (sb rfl m)) h)))

theorem Only.clearMir {M : Nat} {a t : State} (h : Only M a t) (x1_) (m : 0xc200000200000 &&& M = 0xc200000200000) :
    Only M a (State.clearMir t x1_) := by
  unfold State.clearMir
  extract_lets l1 l2
  have k3 : Only M a l1 := (Only.ite (Only.clearIsland h (sb rfl m)) h)
  try clear_value l1
  have k4 : Only M a l2 := (Only.ite (Only.wr k3 _ _ (sb rfl m) (fm rfl m)) k3)
  try clear_value l2
  exact (Only.ite (Only.wr k4 _ _ (sb rfl m) (fm rfl m)) k4)

theorem Only.clearSuspect {M : Nat} {a t : State} (h : Only M a t) (x1_) (m : 0x4 &&& M = 0x4) :
    Only M a (State.clearSuspect t x1_) := by
  unfold State.clearSuspect
  exact (Only.ite h (Only.ite (Only.refuse h _ (sb rfl m) (fm rfl m)) (Only.wr h _ _ (sb rfl m) (fm rfl m))))

theorem Only.writeQCap {M : Nat} {a t : State} (h : Only M a t) (x1_ x2_) (m : 0x1040100020000000 &&& M = 0x1040100020000000) :
    Only M a (State.writeQCap t x1_ x2_) := by
  unfold State.writeQCap
  extract_lets l1
  have k2 : Only M a l1 := (Only.putRwi h _ _ _ (fm rfl m))
  try clear_value l1
  exact (Only.ite (Only.qArm k2 _ (sb rfl m)) k2)

theorem Only.writeLow {M : Nat} {a t : State} (h : Only M a t) (x1_ x2_ x3_ x4_ x5_) (m : 0x1dc3dfffffffffff &&& M = 0x1dc3dfffffffffff) :
    Only M a (State.writeLow t x1_ x2_ x3_ x4_ x5_) := by
  unfold State.writeLow
  extract_lets l1
  exact (Only.ite (Only.writeLife h _ (sb rfl m)) (Only.ite (Only.clearSuspect h _ (sb rfl m)) (Only.ite (Only.writeSeed h _ _ (sb rfl m)) (Only.ite (Only.writeTickCfg h _ (sb rfl m)) (Only.ite (Only.writeDeadline h _ _ (sb rfl m)) (Only.ite (Only.writeShedCfg h _ (sb rfl m)) (Only.ite (Only.writeSec h _ (sb rfl m)) (Only.ite (Only.writePwrCtrl h _ (sb rfl m)) (Only.ite (Only.ite (Only.askPersist h (sb rfl m)) h) (Only.ite (Only.writeWalkRoot h _ _ (sb rfl m)) (Only.ite (Only.writeWalkRoot h _ _ (sb rfl m)) (Only.ite (Only.writeWalkInv h _ (sb rfl m)) (Only.ite (Only.writeRingCfg h _ _ (sb rfl m)) (Only.ite (Only.writeRingCtrl h _ _ (sb rfl m)) (Only.setFieldsOf h _ _ _ _ (sb rfl m))))))))))))))))

theorem Only.writeMid {M : Nat} {a t : State} (h : Only M a t) (x1_ x2_ x3_ x4_ x5_) (m : 0x1dffffffffffffff &&& M = 0x1dffffffffffffff) :
    Only M a (State.writeMid t x1_ x2_ x3_ x4_ x5_) := by
  unfold State.writeMid
  extract_lets l1
  exact (Only.ite (Only.ite (Only.restartTriad h _ (sb rfl m)) h) (Only.ite (Only.writeCrcCfg h _ (sb rfl m)) (Only.ite (Only.writeCrcData h _ _ (sb rfl m)) (Only.ite (Only.writeCrcSeed h _ (sb rfl m)) (Only.ite (Only.writeLinkCfg h _ (sb rfl m)) (Only.ite (Only.writeRingEn h _ (sb rfl m)) (Only.ite (Only.writeLinkCtrl h _ (sb rfl m)) (Only.ite (Only.writeRating h _ _ _ (sb rfl m)) (Only.ite (Only.ite (Only.hgsSwap h (sb rfl m)) h) (Only.ite (Only.writeCellCfg h _ _ _ (sb rfl m)) (Only.ite (Only.writeCellTiming h _ _ _ (sb rfl m)) (Only.ite (Only.writeCtlMode h _ (sb rfl m)) (Only.ite (Only.ite (Only.ctlSwap h _ _ (sb rfl m)) h) (Only.setFieldsOf h _ _ _ _ (sb rfl m)))))))))))))))

theorem Only.writeHigh {M : Nat} {a t : State} (h : Only M a t) (x1_ x2_ x3_ x4_ x5_) (m : 0x1d4effffffffffff &&& M = 0x1d4effffffffffff) :
    Only M a (State.writeHigh t x1_ x2_ x3_ x4_ x5_) := by
  unfold State.writeHigh
  extract_lets l1
  exact (Only.ite (Only.writePllCfg h _ (sb rfl m)) (Only.ite (Only.writeSyncMode h _ _ (sb rfl m)) (Only.ite (Only.ite (Only.frtSwap h _ _ (sb rfl m)) h) (Only.ite (Only.writeMirBase h _ (sb rfl m)) (Only.ite (Only.clearMir h _ (sb rfl m)) (Only.ite (Only.ite (Only.mirSwap h _ _ (sb rfl m)) h) (Only.ite (Only.ite (Only.portSwap h _ _ (sb rfl m)) h) (Only.ite (Only.writePortCtrl h _ (sb rfl m)) (Only.ite (Only.writePvCfg h _ _ (sb rfl m)) (Only.ite (Only.writePack h _ _ _ (sb rfl m)) (Only.ite (Only.writePack h _ _ _ (sb rfl m)) (Only.ite (Only.writePack h _ _ _ (sb rfl m)) (Only.ite (Only.writePack h _ _ _ (sb rfl m)) (Only.ite (Only.writeCtlCfg h _ (sb rfl m)) (Only.ite (Only.writeChCfg h _ _ (sb rfl m)) (Only.ite (Only.writeChCal h _ _ (sb rfl m)) (Only.ite (Only.swTrig h _ (sb rfl m)) (Only.ite (Only.writeQCfg h _ _ (sb rfl m)) (Only.ite (Only.writeQCap h _ _ (sb rfl m)) (Only.ite (Only.writeCmp h _ _ _ (sb rfl m)) (Only.ite (Only.writeCmp h _ _ _ (sb rfl m)) (Only.ite (Only.cmpClear h _ (sb rfl m)) (Only.setFieldsOf h _ _ _ _ (sb rfl m))))))))))))))))))))))))

theorem Only.writeTop {M : Nat} {a t : State} (h : Only M a t) (x1_ x2_ x3_ x4_ x5_) (m : 0x1dc2ddffffffffff &&& M = 0x1dc2ddffffffffff) :
    Only M a (State.writeTop t x1_ x2_ x3_ x4_ x5_) := by
  unfold State.writeTop
  extract_lets l1
  exact (Only.ite (Only.clearDriveSc h _ (sb rfl m)) (Only.ite (Only.clearLatch h _ (sb rfl m)) (Only.ite (Only.writeSlcCtrl h _ (sb rfl m)) (Only.ite (Only.writeConfirm h _ _ (sb rfl m)) (Only.ite (Only.clearSafeStatus h _ (sb rfl m)) (Only.ite (Only.ite (Only.calSwap h (sb rfl m)) h) (Only.ite (Only.writeAuxCtrl h _ _ (sb rfl m)) (Only.setFieldsOf h _ _ _ _ (sb rfl m)))))))))

theorem Only.refusePartial {M : Nat} {a t : State} (h : Only M a t) (x y z) (m : 0x110011ffffffffff &&& M = 0x110011ffffffffff) :
    Only M a (State.refusePartial t x y z) := by
  unfold State.refusePartial
  split
  · next e => exact Only.refuse (Only.configRefused h _ _ _ (sb rfl m)) _ (sb rfl m) (errField_inM (sb rfl m) e)
  · exact Only.configRefused h _ _ _ (sb rfl m)

theorem Only.crcBytes {M : Nat} {a t u : State} (h : Only M a t) {be v} (m : 0x800 &&& M = 0x800)
    (e : State.crcBytes t be v = some u) : Only M a u := by
  unfold State.crcBytes at e
  split at e
  · exact Option.some.inj e ▸ Only.writeCrcData h _ _ (sb rfl m)
  split at e
  · exact Option.some.inj e ▸ Only.writeCrcData h _ _ (sb rfl m)
  split at e
  · exact Option.some.inj e ▸ Only.writeCrcData h _ _ (sb rfl m)
  · cases e

theorem Only.regWrite {M : Nat} {a t : State} (h : Only M a t) (ag off be v) (m : 0x1dffffffffffffff &&& M = 0x1dffffffffffffff) :
    Only M a (State.regWrite t ag off be v) := by
  unfold State.regWrite
  extract_lets v al
  clear_value al
  split
  · exact h
  split
  · exact Only.ite h (Only.configRefused h _ _ _ (sb rfl m))
  · refine Only.ite h ?_
    split
    · split
      · next e =>
        split at e
        · exact Only.crcBytes h (sb rfl m) e
        · cases e
      · exact Only.refusePartial h _ _ _ (sb rfl m)
    · exact Only.ite (Only.writeLow h _ _ _ _ _ (sb rfl m)) (Only.ite (Only.writeMid h _ _ _ _ _ (sb rfl m))
        (Only.ite (Only.writeHigh h _ _ _ _ _ (sb rfl m)) (Only.writeTop h _ _ _ _ _ (sb rfl m))))

theorem Only.votedWrite {M : Nat} {a t : State} (h : Only M a t) (x1_ x2_) (m : 0x800000000000400 &&& M = 0x800000000000400) :
    Only M a (State.votedWrite t x1_ x2_).1 := by
  unfold State.votedWrite
  extract_lets l1 l2 l3 l4
  have k5 : Only M a l2.1 := (Only.voted h _ _ (sb rfl m))
  try clear_value l2
  have k6 : Only M a l3.1 := (Only.voted k5 _ _ (sb rfl m))
  try clear_value l3
  have k7 : Only M a l4.1 := (Only.voted k6 _ _ (sb rfl m))
  try clear_value l4
  exact (Only.fstMk k7)

theorem Only.execRegisterWrite {M : Nat} {a t : State} (h : Only M a t) (x0_ x1_ x2_ x3_ x4_) (m : 0x1dffffffffffffff &&& M = 0x1dffffffffffffff) :
    OnlyO M a (Sys2Proof.Machine.execRegisterWrite x0_ x1_ x2_ x3_ x4_ t) := by
  unfold Sys2Proof.Machine.execRegisterWrite
  refine OnlyO.next ?_
  exact (Only.live h (fun t1 h2 => (by
    extract_lets l3
    have k4 : Only M a l3 := (Only.moveTo h2 _ (sb rfl m))
    try clear_value l3
    split
    · split
      · rename_i r7 r8 r9
        have k10 : Only M a r7 := Only.pairEq r9 (Only.votedWrite k4 _ _ (sb rfl m))
        exact (Only.regWrite k10 _ _ _ _ (sb rfl m))
    · exact (Only.ite (Only.regWrite k4 _ _ _ _ (sb rfl m)) k4))))

theorem Only.clearRc {M : Nat} {a t : State} (h : Only M a t) (i : Nat) (l : List FieldRow) (m : 0x1ffffffffff &&& M = 0x1ffffffffff) :
    Only M a (State.clearRc t i l) := by
  induction l generalizing t with
  | nil => exact h
  | cons r l ih => exact ih (Only.ite (Only.wriAll h _ _ _ (sb rfl m)) h)

theorem Only.give {M : Nat} {a t : State} (h : Only M a t) (x1_ x2_ x3_) (m : 0x1800000000000400 &&& M = 0x1800000000000400) :
    Only M a (State.give t x1_ x2_ x3_) := by
  unfold State.give
  extract_lets l1 l2 l3
  have k4 : Only M a l2.1 := (Only.voted h _ _ (sb rfl m))
  try clear_value l2
  have k5 : Only M a l3.1 := (Only.voted h _ _ (sb rfl m))
  try clear_value l3
  exact (Only.ite (Only.ite (Only.emit k4 _ (sb rfl m)) (Only.emit k5 _ (sb rfl m))) (Only.emit h _ (sb rfl m)))

theorem Only.queueRead {M : Nat} {a t : State} (h : Only M a t) (x1_ x2_) (m : 0x1840100020000400 &&& M = 0x1840100020000400) :
    Only M a (State.queueRead t x1_ x2_) := by
  unfold State.queueRead
  extract_lets l1 l2
  have k3 : Only M a l1 := (Only.qRun h _ _ (sb rfl m))
  try clear_value l1
  split
  · exact (Only.give k3 _ _ _ (sb rfl m))
  · extract_lets l10
    exact (Only.ite (Only.give k3 _ _ _ (sb rfl m)) (Only.ite (Only.give k3 _ _ _ (sb rfl m)) (Only.qClose (Only.give (Only.setQueue k3 _ _ (sb rfl m)) _ _ _ (sb rfl m)) _ (sb rfl m))))

theorem Only.coreRead {M : Nat} {a t : State} (h : Only M a t) (x1_ x2_) (m : 0x194c320020100608 &&& M = 0x194c320020100608) :
    Only M a (State.coreRead t x1_ x2_) := by
  unfold State.coreRead
  extract_lets l1
  exact (Only.ite (Only.emit h _ (sb rfl m)) (Only.ite (Only.emit h _ (sb rfl m)) (Only.ite (Only.emit h _ (sb rfl m)) (Only.ite (Only.emit h _ (sb rfl m)) (Only.ite (Only.emit h _ (sb rfl m)) (Only.ite (Only.give (Only.used h (sb rfl m)) _ _ _ (sb rfl m)) (Only.ite (Only.queueRead h _ _ (sb rfl m)) (Only.badAccess h (sb rfl m)))))))))

theorem Only.execRcFieldRead {M : Nat} {a t : State} (h : Only M a t) (x0_ x1_ x2_) (m : 0x1dce77ffffffffff &&& M = 0x1dce77ffffffffff) :
    OnlyO M a (Sys2Proof.Machine.execRcFieldRead x0_ x1_ x2_ t) := by
  unfold Sys2Proof.Machine.execRcFieldRead
  extract_lets l1
  refine OnlyO.next ?_
  exact (Only.live h (fun t2 h3 => (by
    extract_lets l4 l5
    have k6 : Only M a l4 := (Only.moveTo h3 _ (sb rfl m))
    try clear_value l4
    have k7 : Only M a l5 := (Only.ite (Only.qRunAll (Only.cmpLook k6 (sb rfl m)) (sb rfl m)) (Only.ite (Only.cmpLook k6 (sb rfl m)) (Only.ite (Only.auxHolds k6 (sb rfl m)) k6)))
    try clear_value l5
    exact (Only.ite k6 (Only.ite (Only.ite (Only.badAccess k6 (sb rfl m)) k6) (Only.ite (Only.coreRead k6 _ _ (sb rfl m)) (Only.ite (Only.elapsedRead k6 _ (sb rfl m)) (Only.ite (Only.alignRead k6 _ (sb rfl m)) (Only.ite (Only.portRead k6 _ (sb rfl m)) (by
      split
      · exact (Only.give k6 _ _ _ (sb rfl m))
      · extract_lets l13
        exact (Only.ite (Only.give k6 _ _ _ (sb rfl m)) (Only.clearRc (Only.give k7 _ _ _ (sb rfl m)) _ _ (sb rfl m)))))))))))))

end Sys2Proof.Machine
end

