-- ==== Sys2Proof/Laws/OnlyRelease.lean ====
section
/-! SUPPORT. `Only` of each function of Machine/Release.lean. -/
set_option Elab.async false
namespace Sys2Proof.Machine

theorem Only.askRelease {M : Nat} {a t : State} (h : Only M a t) (x1_) (m : 0x1100500000240200 &&& M = 0x1100500000240200) :
    Only M a (State.askRelease t x1_) := by
  unfold State.askRelease
  extract_lets l1 l2 l3 l4 l5
  have k6 : Only M a l3 := (Only.ite (Only.refuse h _ (sb rfl m) (fm rfl m)) h)
  try clear_value l3
  have k7 : Only M a l4 := (Only.ite (Only.refuse k6 _ (sb rfl m) (fm rfl m)) k6)
  try clear_value l4
  have k8 : Only M a l5 := (Only.post k7 _ _ (sb rfl m))
  try clear_value l5
  exact (Only.ite (Only.set_slc h _ (sb rfl m)) (Only.complete k8 _ _ _ _ (sb rfl m)))

theorem Only.execConverterRelease {M : Nat} {a t : State} (h : Only M a t) (x0_ x1_) (m : 0x1102560000240700 &&& M = 0x1102560000240700) :
    OnlyO M a (Sys2Proof.Machine.execConverterRelease x0_ x1_ t) := by
  unfold Sys2Proof.Machine.execConverterRelease
  refine OnlyO.next ?_
  exact (Only.live h (fun t1 h2 => (Only.runDesc (Only.moveTo h2 _ (sb rfl m)) _ _ _ (sb rfl m) (fun t3 t4 h5 => (Only.ite (Only.putWait h5 _ (sb rfl m)) (Only.askRelease h5 _ (sb rfl m)))))))

theorem Only.runWait {M : Nat} {a t : State} (h : Only M a t) (x1_) (m : 0x1140500020240200 &&& M = 0x1140500020240200) :
    Only M a (State.runWait t x1_) := by
  unfold State.runWait
  extract_lets l1
  split
  · exact (Only.completeAtTend (Only.set_hst h _ (sb rfl m)) _ _ _ (sb rfl m))
  · exact (Only.takeCapture h _ _ (sb rfl m))
  · exact (Only.askRelease h _ (sb rfl m))

theorem Only.takeOrders {M : Nat} {a t : State} (h : Only M a t) (m : 0x19505000202c0200 &&& M = 0x19505000202c0200) :
    Only M a (State.takeOrders t) := by
  unfold State.takeOrders
  extract_lets l1 l2
  have k3 : Only M a l1 := (Only.applySetpoints h (sb rfl m))
  try clear_value l1
  exact (Only.foldl (Only.set_hst k3 _ (sb rfl m)) fun t4 x5 h6 => (Only.runWait h6 _ (sb rfl m)))

theorem Only.execSetpointApply {M : Nat} {a t : State} (h : Only M a t) (m : 0x19505000202c0200 &&& M = 0x19505000202c0200) :
    OnlyO M a (Sys2Proof.Machine.execSetpointApply t) := by
  unfold Sys2Proof.Machine.execSetpointApply
  refine OnlyO.next ?_
  exact (Only.live h (fun t1 h2 => (Only.ite (Only.takeOrders h2 (sb rfl m)) h2)))

theorem Only.carryRelease {M : Nat} {a t : State} (h : Only M a t) (m : 0x194e500120100200 &&& M = 0x194e500120100200) :
    Only M a (State.carryRelease t) := by
  unfold State.carryRelease
  extract_lets l1 l2 l3 l4 l5 l6 l7 l8 l9
  have k10 : Only M a l3 := (Only.wr (Only.wr h _ _ (sb rfl m) (fm rfl m)) _ _ (sb rfl m) (fm rfl m))
  try clear_value l3
  have k11 : Only M a l5 := (Only.set_slc k10 _ (sb rfl m))
  try clear_value l5
  have k12 : Only M a l6 := (Only.ite (Only.emit k11 _ (sb rfl m)) k11)
  try clear_value l6
  have k13 : Only M a l7 := (Only.mapCells k12 _ (sb rfl m))
  try clear_value l7
  have k14 : Only M a l8 := (Only.set_law_lawC k13 _ (sb rfl m) _ (sb rfl m))
  try clear_value l8
  have k15 : Only M a l9 := (Only.ite (Only.wr k14 _ _ (sb rfl m) (fm rfl m)) k14)
  try clear_value l9
  exact (Only.ite h (Only.breakerWatch (Only.foldl k15 fun t16 x17 h18 => (Only.complete h18 _ _ _ _ (sb rfl m))) (sb rfl m)))

end Sys2Proof.Machine
end

