-- ==== Sys2Proof/Laws/OnlyCommit.lean ====
section
/-! SUPPORT. `Only` of each function of Machine/Commit.lean. -/
set_option Elab.async false
namespace Sys2Proof.Machine

theorem Only.queueTb {M : Nat} {a t : State} (h : Only M a t) (x1_ x2_) (m : 0x190c320000100208 &&& M = 0x190c320000100208) :
    Only M a (State.queueTb t x1_ x2_) := by
  unfold State.queueTb
  extract_lets l1
  exact (Only.ite (Only.trapNow h _ (sb rfl m)) (Only.set_tri h _ (sb rfl m)))

theorem Only.coreStore {M : Nat} {a t : State} (h : Only M a t) (x1_ x2_) (m : 0x190c320000100208 &&& M = 0x190c320000100208) :
    Only M a (State.coreStore t x1_ x2_) := by
  unfold State.coreStore
  extract_lets l1
  exact (Only.ite (Only.storeRam h _ _ _ (sb rfl m)) (Only.ite (Only.ite (Only.storeRegion h _ _ _ (sb rfl m)) (Only.trapNow h _ (sb rfl m))) (Only.ite (Only.ite (Only.storeBank h _ _ _ (sb rfl m)) (Only.trapNow h _ (sb rfl m))) (Only.ite (Only.memberCrc h _ _ _ (sb rfl m)) (Only.ite h (Only.trapNow h _ (sb rfl m)))))))

theorem Only.leave {M : Nat} {a t : State} (h : Only M a t) (x1_ x2_) (m : 0x1dffffffffffffff &&& M = 0x1dffffffffffffff) :
    Only M a (State.leave t x1_ x2_) := by
  unfold State.leave
  exact (Only.ite (Only.trapNow h _ (sb rfl m)) (by
    split
    · exact (Only.ite (Only.regWrite h _ _ _ _ (sb rfl m)) (Only.queueTb h _ _ (sb rfl m)))
    · exact (Only.ite (Only.ite h (Only.queueTb h _ _ (sb rfl m))) (Only.coreStore h _ _ (sb rfl m)))))

theorem Only.leaveMaj {M : Nat} {a t : State} (h : Only M a t) (x1_ x2_) (m : 0x1dffffffffffffff &&& M = 0x1dffffffffffffff) :
    Only M a (State.leaveMaj t x1_ x2_) := by
  unfold State.leaveMaj
  split
  · exact (Only.leave h _ _ (sb rfl m))
  · exact h

theorem Only.commit3 {M : Nat} {a t : State} (h : Only M a t) (x1_ x2_ x3_ x4_) (m : 0x1dffffffffffffff &&& M = 0x1dffffffffffffff) :
    Only M a (State.commit3 t x1_ x2_ x3_ x4_) := by
  unfold State.commit3
  exact (Only.ite (Only.leaveMaj h _ _ (sb rfl m)) (Only.ite (Only.fence (Only.leaveMaj h _ _ (sb rfl m)) _ _ _ (sb rfl m)) (Only.ite (Only.fence (Only.leaveMaj h _ _ (sb rfl m)) _ _ _ (sb rfl m)) (Only.ite (Only.fence (Only.leaveMaj h _ _ (sb rfl m)) _ _ _ (sb rfl m)) (Only.secondMismatch (Only.used h (sb rfl m)) _ _ (sb rfl m))))))

theorem Only.commit2 {M : Nat} {a t : State} (h : Only M a t) (x1_ x2_ x3_) (m : 0x1dffffffffffffff &&& M = 0x1dffffffffffffff) :
    Only M a (State.commit2 t x1_ x2_ x3_) := by
  unfold State.commit2
  exact (Only.ite (Only.leaveMaj h _ _ (sb rfl m)) (Only.secondMismatch h _ _ (sb rfl m)))

theorem Only.execWriteCommit {M : Nat} {a t : State} (h : Only M a t) (x0_ x1_ x2_ x3_ x4_) (m : 0x1dffffffffffffff &&& M = 0x1dffffffffffffff) :
    OnlyO M a (Sys2Proof.Machine.execWriteCommit x0_ x1_ x2_ x3_ x4_ t) := by
  unfold Sys2Proof.Machine.execWriteCommit
  refine OnlyO.next ?_
  exact (Only.live h (fun t1 h2 => (by
    extract_lets l3 l4
    have k5 : Only M a l3 := (Only.moveTo h2 _ (sb rfl m))
    try clear_value l3
    exact (Only.ite k5 (Only.ite (Only.commit3 k5 _ _ _ _ (sb rfl m)) (Only.ite (Only.ite (Only.commit2 k5 _ _ _ (sb rfl m)) (Only.ite (Only.commit2 k5 _ _ _ (sb rfl m)) (Only.commit2 k5 _ _ _ (sb rfl m)))) k5))))))

theorem Only.debugStore {M : Nat} {a t : State} (h : Only M a t) (x1_ x2_ x3_) (m : 0x200000000000 &&& M = 0x200000000000) :
    Only M a (State.debugStore t x1_ x2_ x3_) := by
  unfold State.debugStore
  exact (Only.ite (Only.setCoreReg h _ _ (sb rfl m)) (Only.ite (Only.storeBank h _ _ _ (sb rfl m)) (Only.ite (Only.storeRam h _ _ _ (sb rfl m)) (Only.ite (Only.storeRegion h _ _ _ (sb rfl m)) (Only.ite (Only.memberCrc h _ _ _ (sb rfl m)) h)))))

theorem Only.execDebugWrite {M : Nat} {a t : State} (h : Only M a t) (x0_ x1_) (m : 0x1dffffffffffffff &&& M = 0x1dffffffffffffff) :
    OnlyO M a (Sys2Proof.Machine.execDebugWrite x0_ x1_ t) := by
  unfold Sys2Proof.Machine.execDebugWrite
  refine OnlyO.next ?_
  exact (Only.live h (fun t1 h2 => (by
    extract_lets l3
    have k4 : Only M a l3 := (Only.moveTo h2 _ (sb rfl m))
    try clear_value l3
    exact (Only.ite k4 (by
      split
      · exact (Only.regWrite k4 _ _ _ _ (sb rfl m))
      · exact (Only.debugStore k4 _ _ _ (sb rfl m)))))))

theorem Only.releaseItem {M : Nat} {a t : State} (h : Only M a t) (x) (m : 0x1dffffffffffffff &&& M = 0x1dffffffffffffff) :
    Only M a (State.releaseItem t x) := by
  cases x with
  | fld f i v => exact Only.wriAll h _ _ _ (sb rfl m)
  | inc f i => exact Only.wriAll h _ _ _ (sb rfl m)
  | reg off val be => exact Only.regWrite h _ _ _ _ (sb rfl m)
  | ev ty pay => exact Only.post h _ _ (sb rfl m)
  | comp c => exact Only.set_hst h _ (sb rfl m)

theorem Only.releaseTb {M : Nat} {a t : State} (h : Only M a t) (m : 0x1dffffffffffffff &&& M = 0x1dffffffffffffff) :
    Only M a (State.releaseTb t) := by
  unfold State.releaseTb
  extract_lets l1 l2
  exact (Only.foldl (Only.set_tri h _ (sb rfl m)) fun t3 x4 h5 => (Only.releaseItem h5 _ (sb rfl m)))

end Sys2Proof.Machine
end

