-- ==== Sys2Proof/Laws/OnlyTick.lean ====
section
/-! SUPPORT. `Only` of each function of Machine/Tick.lean. -/
set_option Elab.async false
namespace Sys2Proof.Machine

theorem Only.atDeadline {M : Nat} {a t : State} (h : Only M a t) (x1_ x2_) (g2 : ∀ u, Only M a u → Only M a (x2_ u)) (m : 0x20000000000 &&& M = 0x20000000000) :
    Only M a (State.atDeadline t x1_ x2_) := by
  unfold State.atDeadline
  extract_lets l1 l2
  have k3 : Only M a l1 := (g2 _ h)
  try clear_value l1
  exact (Only.ite (Only.set_tm k3 _ (sb rfl m)) h)

theorem Only.stageUsed {M : Nat} {a t : State} (h : Only M a t) (x1_ x2_ x3_) (m : 0x20000000000 &&& M = 0x20000000000) :
    Only M a (State.stageUsed t x1_ x2_ x3_) := by
  unfold State.stageUsed
  extract_lets l1 l2
  exact (Only.set_tm h _ (sb rfl m))

theorem Only.stageLate {M : Nat} {a t : State} (h : Only M a t) (x1_) (m : 0x2e220000100008 &&& M = 0x2e220000100008) :
    Only M a (State.stageLate t x1_) := by
  unfold State.stageLate
  exact (Only.ite h (Only.dropPlan (Only.overrun h _ (sb rfl m)) (sb rfl m)))

theorem Only.takeCommand {M : Nat} {a t : State} (h : Only M a t) (x1_) (m : 0x2000000000000 &&& M = 0x2000000000000) :
    Only M a (State.takeCommand t x1_) := by
  unfold State.takeCommand
  extract_lets l1 l2 l3
  exact (Only.updCell h _ _ (sb rfl m))

theorem Only.takeBlocks {M : Nat} {a t : State} (h : Only M a t) (m : 0x2400000000000 &&& M = 0x2400000000000) :
    Only M a (State.takeBlocks t) := by
  unfold State.takeBlocks
  extract_lets l1 l2 l3
  have k4 : Only M a l2 := (Only.blockPhases h _ (sb rfl m))
  try clear_value l2
  exact (Only.ite h (Only.set_slc k4 _ (sb rfl m)))

theorem Only.applyDue {M : Nat} {a t : State} (h : Only M a t) (m : 0x11cc1010007d0200 &&& M = 0x11cc1010007d0200) :
    Only M a (State.applyDue t) := by
  unfold State.applyDue
  extract_lets l1
  have k2 : Only M a l1 := (Only.calApply (Only.portApply (Only.mirApply (Only.frtApply (Only.ctlApply (Only.hgsApply h (sb rfl m)) (sb rfl m)) (sb rfl m)) (sb rfl m)) (sb rfl m)) (sb rfl m))
  try clear_value l1
  exact (Only.trimAll (Only.activateAll (Only.activateAll k2 _ (fms rfl m)) _ (fms rfl m)) (sb rfl m))

theorem Only.beginTick {M : Nat} {a t : State} (h : Only M a t) (m : 0x1def7311b47ff608 &&& M = 0x1def7311b47ff608) :
    Only M a (State.beginTick t) := by
  unfold State.beginTick
  extract_lets l1 l2 l3 l4 l5 l6 l7 l8 l9
  have k13 : Only M a l2 := (Only.foldl h fun t10 x11 h12 => (Only.ite (Only.takeCommand h12 _ (sb rfl m)) h12))
  try clear_value l2
  have k14 : Only M a l6 := (Only.set_tm_tri_sched k13 _ (sb rfl m) _ (sb rfl m) _ (sb rfl m))
  try clear_value l6
  have k15 : Only M a l7 := (Only.rejoinStep (Only.shedClamp (Only.periodApply (Only.applyDue (Only.takeBlocks k14 (sb rfl m)) (sb rfl m)) (sb rfl m)) (sb rfl m)) (sb rfl m))
  try clear_value l7
  have k16 : Only M a l8 := (Only.serviceDue k15 (sb rfl m))
  try clear_value l8
  have k20 : Only M a l9 := (Only.foldl k16 fun t17 x18 h19 => (Only.rampTick (Only.stepTick h19 _ (sb rfl m)) _ (sb rfl m)))
  try clear_value l9
  exact (Only.openWindows (Only.periodStart (Only.joinCounts (Only.phaseCounts k20 (sb rfl m)) (sb rfl m)) _ (sb rfl m)) _ (sb rfl m))

theorem Only.execTickBoundary {M : Nat} {a t : State} (h : Only M a t) (x0_) (m : 0x1def7f19b47ff728 &&& M = 0x1def7f19b47ff728) :
    OnlyO M a (Sys2Proof.Machine.execTickBoundary x0_ t) := by
  unfold Sys2Proof.Machine.execTickBoundary
  refine OnlyO.next ?_
  exact (Only.live h (fun t1 h2 => (by
    extract_lets l3
    have k4 : Only M a l3 := (Only.auxHolds (Only.cmpLook (Only.moveTo h2 _ (sb rfl m)) (sb rfl m)) (sb rfl m))
    try clear_value l3
    exact (Only.ite (Only.ite (Only.ite (Only.enterSleep k4 (sb rfl m)) (Only.beginTick k4 (sb rfl m))) k4) (Only.ite (Only.beginTick (Only.leaveSleep k4 (sb rfl m)) (sb rfl m)) k4)))))

theorem Only.takeAdc {M : Nat} {a t : State} (h : Only M a t) (x1_ x2_) (m : 0x240000004000000 &&& M = 0x240000004000000) :
    Only M a (State.takeAdc t x1_ x2_) := by
  unfold State.takeAdc
  extract_lets l1 l2 l3 l4 l5 l6 l7 l8 l9
  have k10 : Only M a l1 := (Only.wr h _ _ (sb rfl m) (fm rfl m))
  try clear_value l1
  have k11 : Only M a l4 := (Only.set_adc k10 _ (sb rfl m))
  try clear_value l4
  exact (Only.ite k11 (Only.set_adc_thm k11 _ (sb rfl m) _ (sb rfl m)))

theorem Only.checkFail {M : Nat} {a t : State} (h : Only M a t) (x1_ x2_ x3_ x4_) (m : 0x1942500124000200 &&& M = 0x1942500124000200) :
    Only M a (State.checkFail t x1_ x2_ x3_ x4_) := by
  unfold State.checkFail
  extract_lets l1 l2 l3
  have k4 : Only M a l1 := (Only.wr (Only.wr (Only.wr h _ _ (sb rfl m) (fm rfl m)) _ _ (sb rfl m) (fm rfl m)) _ _ (sb rfl m) (fm rfl m))
  try clear_value l1
  have k5 : Only M a l3 := (Only.post k4 _ _ (sb rfl m))
  try clear_value l3
  exact (Only.ite k5 (Only.safeState k5 _ (sb rfl m) (by decide)))

theorem Only.pathChecks {M : Nat} {a t : State} (h : Only M a t) (m : 0x1942500124000200 &&& M = 0x1942500124000200) :
    Only M a (State.pathChecks t) := by
  unfold State.pathChecks
  extract_lets l1 l2 l3 l4 l5 l6 l7 l8
  have k9 : Only M a l7 := (Only.set_adc h _ (sb rfl m))
  try clear_value l7
  have k13 : Only M a l8 := (Only.foldl k9 fun t10 x11 h12 => (Only.ite (Only.checkFail h12 _ _ _ _ (sb rfl m)) h12))
  try clear_value l8
  exact (Only.ite (Only.checkFail k13 _ _ _ _ (sb rfl m)) k13)

theorem Only.cycleEnergy {M : Nat} {a t : State} (h : Only M a t) (m : 0x2000000000000 &&& M = 0x2000000000000) :
    Only M a (State.cycleEnergy t) := by
  unfold State.cycleEnergy
  exact (Only.foldl h fun t1 x2 h3 => (by
    extract_lets l4
    exact (Only.updCell h3 _ _ (sb rfl m))))

theorem Only.startS1 {M : Nat} {a t : State} (h : Only M a t) (m : 0x195ef201227c0200 &&& M = 0x195ef201227c0200) :
    Only M a (State.startS1 t) := by
  unfold State.startS1
  extract_lets l1 l2 l3 l4 l5 l6 l7 l8 l9 l10 l11
  have k12 : Only M a l5 := (Only.set_tm_tri_lawC h _ (sb rfl m) _ (sb rfl m) _ (sb rfl m))
  try clear_value l5
  have k13 : Only M a l6 := (Only.takeOrders (Only.triadStop k12 (sb rfl m)) (sb rfl m))
  try clear_value l6
  have k14 : Only M a l8 := (Only.set_hst k13 _ (sb rfl m))
  try clear_value l8
  have k15 : Only M a l9 := (Only.track (Only.probeSums k14 (sb rfl m)) (sb rfl m))
  try clear_value l9
  have k16 : Only M a l10 := (Only.ite (Only.trigEvent k15 _ _ (sb rfl m)) k15)
  try clear_value l10
  have k17 : Only M a l11 := (Only.onLaw k16 _ (sb rfl m))
  try clear_value l11
  exact (Only.portTick (Only.probeGuard (Only.detect (Only.supervise k17 (sb rfl m)) (sb rfl m)) (sb rfl m)) (sb rfl m))

theorem Only.votedCodes {M : Nat} {a t : State} (h : Only M a t) (x1_ x2_) (m : 0x800000000000400 &&& M = 0x800000000000400) :
    Only M a (State.votedCodes t x1_ x2_).1 := by
  unfold State.votedCodes
  exact (Only.foldl1 (Only.fstMk h) fun t1 x2 h3 => (by
    extract_lets l4
    have k5 : Only M a l4.1 := (Only.voted h3 _ _ (sb rfl m))
    try clear_value l4
    exact (Only.fstMk k5)))

theorem Only.votedAdc {M : Nat} {a t : State} (h : Only M a t) (x1_ x2_) (m : 0x800000000000400 &&& M = 0x800000000000400) :
    Only M a (State.votedAdc t x1_ x2_).1 := by
  unfold State.votedAdc
  exact (Only.foldl1 (Only.fstMk h) fun t1 x2 h3 => (by
    extract_lets l4 l5 l6
    have k7 : Only M a l5.1 := (Only.votedCodes h3 _ _ (sb rfl m))
    try clear_value l5
    exact (Only.ite1 h3 (Only.fstMk k7))))

theorem Only.execS0Deadline {M : Nat} {a t : State} (h : Only M a t) (x0_ x1_ x2_ x3_) (m : 0x1bfef601267c0608 &&& M = 0x1bfef601267c0608) :
    OnlyO M a (Sys2Proof.Machine.execS0Deadline x0_ x1_ x2_ x3_ t) := by
  unfold Sys2Proof.Machine.execS0Deadline
  refine OnlyO.next ?_
  exact (Only.live h (fun t1 h2 => (Only.atDeadline (Only.moveTo h2 _ (sb rfl m)) _ _ (fun t3 h4 => (by
    split
    · rename_i r6 r7 r8
      have k9 : Only M a r6 := Only.pairEq r8 (Only.votedAdc h4 _ _ (sb rfl m))
      extract_lets l10 l11
      have k12 : Only M a l10 := (Only.cycleEnergy (Only.meterSamples (Only.takeAdc (Only.stageUsed k9 _ _ _ (sb rfl m)) _ _ (sb rfl m)) _ (sb rfl m)) (sb rfl m))
      try clear_value l10
      have k13 : Only M a l11 := (Only.pathChecks k12 (sb rfl m))
      try clear_value l11
      exact (Only.ite (Only.stageLate k12 _ (sb rfl m)) (Only.ite (Only.startS1 k13 (sb rfl m)) k13)))) (sb rfl m))))

theorem Only.tendCompletions {M : Nat} {a t : State} (h : Only M a t) (m : 0x100000000000 &&& M = 0x100000000000) :
    Only M a (State.tendCompletions t) := by
  unfold State.tendCompletions
  extract_lets l1 l2
  exact (Only.set_hst h _ (sb rfl m))

theorem Only.s1Work {M : Nat} {a t : State} (h : Only M a t) (m : 0x2e220000100008 &&& M = 0x2e220000100008) :
    Only M a (State.s1Work t) := by
  unfold State.s1Work
  extract_lets l1
  have k2 : Only M a l1 := (Only.ite h (Only.stageUsed h _ _ _ (sb rfl m)))
  try clear_value l1
  exact (Only.ite (Only.stageLate (Only.stageUsed h _ _ _ (sb rfl m)) _ (sb rfl m)) (Only.ite (Only.decideTick k2 (sb rfl m)) k2))

theorem Only.execTend {M : Nat} {a t : State} (h : Only M a t) (x0_) (m : 0x1dffffffffffffff &&& M = 0x1dffffffffffffff) :
    OnlyO M a (Sys2Proof.Machine.execTend x0_ t) := by
  unfold Sys2Proof.Machine.execTend
  refine OnlyO.next ?_
  exact (Only.live h (fun t1 h2 => (by
    extract_lets l3 l4 l5 l6 l7 l8 l9 l10 l11 l12
    have k13 : Only M a l3 := (Only.moveTo h2 _ (sb rfl m))
    try clear_value l3
    have k16 : Only M a l4 := (Only.ite (Only.atDeadline k13 _ _ (fun t14 h15 => (Only.s1Work h15 (sb rfl m))) (sb rfl m)) k13)
    try clear_value l4
    have k17 : Only M a l5 := (Only.runLaw k16 (sb rfl m))
    try clear_value l5
    have k18 : Only M a l6 := (Only.stageUsed k17 _ _ _ (sb rfl m))
    try clear_value l6
    have k19 : Only M a l8 := (Only.set_tm k18 _ (sb rfl m))
    try clear_value l8
    have k20 : Only M a l10 := (Only.swapStands (Only.tendCompletions (Only.releaseTb k19 (sb rfl m)) (sb rfl m)) (sb rfl m))
    try clear_value l10
    exact (Only.ite k16 (Only.ite (Only.dropLaw k16 (sb rfl m)) (Only.ite (Only.set_tri k20 _ (sb rfl m)) k20))))))

theorem Only.execS1Deadline {M : Nat} {a t : State} (h : Only M a t) (x0_) (m : 0x2e260000100008 &&& M = 0x2e260000100008) :
    OnlyO M a (Sys2Proof.Machine.execS1Deadline x0_ t) := by
  unfold Sys2Proof.Machine.execS1Deadline
  refine OnlyO.next ?_
  exact (Only.live h (fun t1 h2 => (Only.atDeadline (Only.moveTo h2 _ (sb rfl m)) _ _ (fun t3 h4 => (Only.s1Work h4 (sb rfl m))) (sb rfl m))))

theorem Only.execS2Deadline {M : Nat} {a t : State} (h : Only M a t) (x0_ x1_ x2_) (m : 0x2e260000100008 &&& M = 0x2e260000100008) :
    OnlyO M a (Sys2Proof.Machine.execS2Deadline x0_ x1_ x2_ t) := by
  unfold Sys2Proof.Machine.execS2Deadline
  refine OnlyO.next ?_
  exact (Only.live h (fun t1 h2 => (Only.atDeadline (Only.moveTo h2 _ (sb rfl m)) _ _ (fun t3 h4 => (Only.ite (Only.stageUsed h4 _ _ _ (sb rfl m)) (by
    extract_lets l5
    have k6 : Only M a l5 := (Only.stageUsed h4 _ _ _ (sb rfl m))
    try clear_value l5
    exact (Only.ite (Only.stageLate k6 _ (sb rfl m)) k6)))) (sb rfl m))))

theorem Only.composeSlot {M : Nat} {a t : State} (h : Only M a t) (x1_ x2_) (m : 0x2000000000000 &&& M = 0x2000000000000) :
    Only M a (State.composeSlot t x1_ x2_) := by
  unfold State.composeSlot
  extract_lets l1 l2 l3 l4 l5
  exact (Only.ite (Only.updCell h _ _ (sb rfl m)) (by
    split
    · extract_lets l12
      exact (Only.updCell h _ _ (sb rfl m))))

theorem Only.sendRelease {M : Nat} {a t : State} (h : Only M a t) (x1_) (m : 0x2000000000000 &&& M = 0x2000000000000) :
    Only M a (State.sendRelease t x1_) := by
  unfold State.sendRelease
  extract_lets l1
  exact (Only.ite (Only.updCell h _ _ (sb rfl m)) h)

theorem Only.uncoverFaulted {M : Nat} {a t : State} (h : Only M a t) (x1_) (m : 0x2000000000000 &&& M = 0x2000000000000) :
    Only M a (State.uncoverFaulted t x1_) := by
  unfold State.uncoverFaulted
  exact (Only.ite (Only.updCell h _ _ (sb rfl m)) h)

theorem Only.noCommands {M : Nat} {a t : State} (h : Only M a t) (m : 0x2000000000000 &&& M = 0x2000000000000) :
    Only M a (State.noCommands t) := by
  unfold State.noCommands
  exact (Only.mapCells h _ (sb rfl m))

theorem Only.launchNormal {M : Nat} {a t : State} (h : Only M a t) (m : 0x196e50012013c200 &&& M = 0x196e50012013c200) :
    Only M a (State.launchNormal t) := by
  unfold State.launchNormal
  extract_lets l1 l2 l3 l4 l5 l6
  have k7 : Only M a l1 := (Only.carryRelease (Only.commitDecision h (sb rfl m)) (sb rfl m))
  try clear_value l1
  have k11 : Only M a l3 := (Only.foldl k7 fun t8 x9 h10 => (Only.uncoverFaulted h10 _ (sb rfl m)))
  try clear_value l3
  have k15 : Only M a l5 := (Only.foldl k11 fun t12 x13 h14 => (Only.updCell h14 _ _ (sb rfl m)))
  try clear_value l5
  have k19 : Only M a l6 := (Only.foldl k15 fun t16 x17 h18 => (Only.composeSlot h18 _ _ (sb rfl m)))
  try clear_value l6
  exact (Only.foldl k19 fun t20 x21 h22 => (Only.sendRelease h22 _ (sb rfl m)))

theorem Only.launchRing {M : Nat} {a t : State} (h : Only M a t) (x1_ x2_) (m : 0x1003000000006000 &&& M = 0x1003000000006000) :
    Only M a (State.launchRing t x1_ x2_) := by
  unfold State.launchRing
  split
  · rename_i r2 r3 r4
    have k5 : Only M a r2 := Only.pairEq r4 (Only.takeGrant h _ _ (sb rfl m))
    extract_lets l6 l7
    exact (Only.sendFrame k5 _ _ (sb rfl m))

theorem Only.commitUnsent {M : Nat} {a t : State} (h : Only M a t) (m : 0x112210000003c200 &&& M = 0x112210000003c200) :
    Only M a (State.commitUnsent t) := by
  unfold State.commitUnsent
  extract_lets l1 l2 l3 l4
  have k5 : Only M a l2 := h
  try clear_value l2
  have k6 : Only M a l3 := (Only.mapCells (Only.dropPlan (Only.commitDecision h (sb rfl m)) (sb rfl m)) _ (sb rfl m))
  try clear_value l3
  exact (Only.set_sched k6 _ (sb rfl m))

theorem Only.launchBy {M : Nat} {a t : State} (h : Only M a t) (k : FrameKind) (m : 0x196e50012013c200 &&& M = 0x196e50012013c200) :
    Only M a (State.launchBy t k) := by
  cases k
  · exact Only.launchNormal h (sb rfl m)
  · exact Only.foldl (Only.commitUnsent h (sb rfl m)) fun t c h => Only.sendRelease h c (sb rfl m)
  · exact Only.noCommands (Only.commitUnsent h (sb rfl m)) (sb rfl m)
  · exact Only.noCommands (Only.commitUnsent h (sb rfl m)) (sb rfl m)

theorem Only.launch {M : Nat} {a t : State} (h : Only M a t) (m : 0x196f52012013e208 &&& M = 0x196f52012013e208) :
    Only M a (State.launch t) := by
  unfold State.launch
  extract_lets l1 l2 l3 l4 l5 l6 l7
  have k8 : Only M a l2 := (Only.launchBy h _ (sb rfl m))
  try clear_value l2
  have k9 : Only M a l6 := (Only.set_tm_sched k8 _ (sb rfl m) _ (sb rfl m))
  try clear_value l6
  have k10 : Only M a l7 := (Only.wr (Only.wr k9 _ _ (sb rfl m) (fm rfl m)) _ _ (sb rfl m) (fm rfl m))
  try clear_value l7
  exact (Only.foldl k10 fun t11 x12 h13 => (Only.launchRing h13 _ _ (sb rfl m)))

theorem Only.closeCycle {M : Nat} {a t : State} (h : Only M a t) (m : 0x1982100002010200 &&& M = 0x1982100002010200) :
    Only M a (State.closeCycle t) := by
  unfold State.closeCycle
  extract_lets l1 l2 l3
  have k7 : Only M a l1 := (Only.foldl h fun t4 x5 h6 => (Only.packWindow h6 _ _ (sb rfl m)))
  try clear_value l1
  have k13 : Only M a l2 := (by
    unfold l2
    split
    · exact (Only.packCycle h _ (sb rfl m))
    · exact (Only.mapCells k7 _ (sb rfl m)))
  try clear_value l2
  have k14 : Only M a l3 := (Only.wr (Only.acCycle k13 (sb rfl m)) _ _ (sb rfl m) (fm rfl m))
  try clear_value l3
  exact (Only.mapCells k14 _ (sb rfl m))

theorem Only.commitTick {M : Nat} {a t : State} (h : Only M a t) (m : 0x19aa100002010200 &&& M = 0x19aa100002010200) :
    Only M a (State.commitTick t) := by
  unfold State.commitTick
  extract_lets l1 l2
  have k3 : Only M a l2 := (Only.set_lawC_sched h _ (sb rfl m) _ (sb rfl m))
  try clear_value l2
  exact (Only.ite (Only.ite (Only.closeCycle k3 (sb rfl m)) k3) h)

theorem Only.noLaunch {M : Nat} {a t : State} (h : Only M a t) (m : 0x112210000003c200 &&& M = 0x112210000003c200) :
    Only M a (State.noLaunch t) := by
  unfold State.noLaunch
  extract_lets l1 l2
  have k3 : Only M a l1 := (Only.commitUnsent h (sb rfl m))
  try clear_value l1
  exact (Only.set_sched k3 _ (sb rfl m))

theorem Only.execS3Deadline {M : Nat} {a t : State} (h : Only M a t) (x0_ x1_ x2_) (m : 0x19ef76032213e608 &&& M = 0x19ef76032213e608) :
    OnlyO M a (Sys2Proof.Machine.execS3Deadline x0_ x1_ x2_ t) := by
  unfold Sys2Proof.Machine.execS3Deadline
  refine OnlyO.next ?_
  exact (Only.live h (fun t1 h2 => (Only.atDeadline (Only.moveTo h2 _ (sb rfl m)) _ _ (fun t3 h4 => (by
    extract_lets l5 l6 l7
    have k8 : Only M a l5 := (Only.stageUsed h4 _ _ _ (sb rfl m))
    try clear_value l5
    have k9 : Only M a l6 := (Only.ite (Only.stageLate k8 _ (sb rfl m)) k8)
    try clear_value l6
    have k14 : Only M a l7 := (Only.ite (Only.noLaunch k9 (sb rfl m)) (Only.agreed k9 _ _ _ _ _ (fun t10 h11 => (Only.launch h11 (sb rfl m))) (fun t12 h13 => (Only.noLaunch h13 (sb rfl m))) (sb rfl m)))
    try clear_value l7
    exact (Only.commitTick k14 (sb rfl m)))) (sb rfl m))))

theorem Only.execS4Deadline {M : Nat} {a t : State} (h : Only M a t) (x0_ x1_ x2_) (m : 0x60000000000 &&& M = 0x60000000000) :
    OnlyO M a (Sys2Proof.Machine.execS4Deadline x0_ x1_ x2_ t) := by
  unfold Sys2Proof.Machine.execS4Deadline
  refine OnlyO.next ?_
  exact (Only.live h (fun t1 h2 => (Only.atDeadline (Only.moveTo h2 _ (sb rfl m)) _ _ (fun t3 h4 => (by
    extract_lets l5 l6
    have k7 : Only M a l5 := (Only.stageUsed h4 _ _ _ (sb rfl m))
    try clear_value l5
    exact (Only.set_tm k7 _ (sb rfl m)))) (sb rfl m))))

theorem Only.untake {M : Nat} {a t : State} (h : Only M a t) (x1_) (m : 0x2000000000000 &&& M = 0x2000000000000) :
    Only M a (State.untake t x1_) := by
  unfold State.untake
  exact (Only.updCell h _ _ (sb rfl m))

theorem Only.lateIntake {M : Nat} {a t : State} (h : Only M a t) (x1_) (m : 0x20000000008 &&& M = 0x20000000008) :
    Only M a (State.lateIntake t x1_) := by
  unfold State.lateIntake
  extract_lets l1
  exact (Only.ite h (Only.wr (Only.set_tm h _ (sb rfl m)) _ _ (sb rfl m) (fm rfl m)))

theorem Only.countOverrun {M : Nat} {a t : State} (h : Only M a t) (m : 0x1942500120000208 &&& M = 0x1942500120000208) :
    Only M a (State.countOverrun t) := by
  unfold State.countOverrun
  extract_lets l1 l2 l3 l4
  have k5 : Only M a l1 := (Only.inc (Only.inc h _ _ (sb rfl m) (fm rfl m)) _ _ (sb rfl m) (fm rfl m))
  try clear_value l1
  have k6 : Only M a l4 := (Only.post k5 _ _ (sb rfl m))
  try clear_value l4
  exact (Only.ite h (Only.ite (Only.wr h _ _ (sb rfl m) (fm rfl m)) (Only.ite (Only.safeState (Only.wr k6 _ _ (sb rfl m) (fm rfl m)) _ (sb rfl m) (by decide)) k6)))

theorem Only.showUsed {M : Nat} {a t : State} (h : Only M a t) (m : 0x8 &&& M = 0x8) :
    Only M a (State.showUsed t) := by
  unfold State.showUsed
  exact (Only.foldl h fun t1 x2 h3 => (by
    extract_lets l4
    exact (Only.wri (Only.wri h3 _ _ _ (fm rfl m)) _ _ _ (fm rfl m))))

theorem Only.execS5Deadline {M : Nat} {a t : State} (h : Only M a t) (x0_ x1_ x2_ x3_) (m : 0x19e3560922013208 &&& M = 0x19e3560922013208) :
    OnlyO M a (Sys2Proof.Machine.execS5Deadline x0_ x1_ x2_ x3_ t) := by
  unfold Sys2Proof.Machine.execS5Deadline
  refine OnlyO.next ?_
  exact (Only.live h (fun t1 h2 => (Only.atDeadline (Only.moveTo h2 _ (sb rfl m)) _ _ (fun t3 h4 => (by
    extract_lets l5 l6 l7 l8 l9 l10 l11 l12 l13
    have k14 : Only M a l5 := (Only.stageUsed h4 _ _ _ (sb rfl m))
    try clear_value l5
    have k18 : Only M a l6 := (Only.ite k14 (Only.foldl k14 fun t15 x16 h17 => (Only.untake h17 _ (sb rfl m))))
    try clear_value l6
    have k19 : Only M a l7 := (Only.lateIntake k18 _ (sb rfl m))
    try clear_value l7
    have k23 : Only M a l8 := (Only.foldl k19 fun t20 x21 h22 => (Only.countReturns h22 _ (sb rfl m)))
    try clear_value l8
    have k27 : Only M a l10 := (Only.foldl k23 fun t24 x25 h26 => (Only.intakeCell h26 _ _ _ (sb rfl m)))
    try clear_value l10
    have k28 : Only M a l11 := (Only.measureDelays k27 (sb rfl m))
    try clear_value l11
    have k29 : Only M a l12 := (Only.ite (Only.formHeadroom k28 (sb rfl m)) k28)
    try clear_value l12
    have k30 : Only M a l13 := (Only.ite (Only.formLatch k29 _ (sb rfl m)) k29)
    try clear_value l13
    exact (Only.showUsed (Only.countOverrun k30 (sb rfl m)) (sb rfl m)))) (sb rfl m))))

end Sys2Proof.Machine
end

