-- ==== Sys2Proof/Laws/Exec.lean ====
section
/-! SUPPORT. The frame of exec as one lemma: each command changes only the register blocks and the parts of State that its
mask names. -/
set_option Elab.async false
namespace Sys2Proof.Machine

/-- The blocks and parts of State that a command may change, as a mask: bits 0 to 40 the register blocks, 41 to 60 the
parts in the order of Part. -/
def execMask : Instr → Nat
  | .tickBoundary .. => 0x1def7f19b47ff728
  | .s0Deadline .. => 0x1bfef601267c0608
  | .s1Deadline .. => 0x2e260000100008
  | .s2Deadline .. => 0x2e260000100008
  | .s3Deadline .. => 0x19ef76032213e608
  | .s4Deadline .. => 0x60000000000
  | .s5Deadline .. => 0x19e3560922013208
  | .tend .. => 0x1dffffffffffffff
  | .clkTickCfgWrite .. => 0x20014001008
  | .periodChange .. => 0xf060014001008
  | .clkTickDeadlineWrite .. => 0x1008
  | .clkShedCfgWrite .. => 0x20000000008
  | .shedLevelClamp => 0x1140120020000208
  | .shedLevelFall .. => 0x1140160020000208
  | .diagDeferred .. => 0x1900160000000208
  | .hgsCellCfgWrite .. => 0x198e30080203e200
  | .hgsPlantRatingWrite .. => 0x1100100000010200
  | .derateRowDown .. => 0x1962560120010200
  | .derateRowUp .. => 0x1942560120010200
  | .hgsTableSwap => 0x20000010000
  | .hgsSwapApply => 0x10000
  | .ctlModeWrite .. => 0x40000
  | .modeTransfer => 0xc000000040000
  | .forcedAuto => 0x190c100000040200
  | .ctlManualWrite .. => 0x40000
  | .ctlTableSwap .. => 0x1100120000040200
  | .ctlSwapApply => 0xc000000040000
  | .lockAcquired => 0xc200000080000
  | .lockLost => 0xc200000080000
  | .syncPllCfgWrite .. => 0x80000
  | .syncModeWrite .. => 0x1100100000080200
  | .gfmTransfer => 0xc000000080000
  | .recoveryEntry => 0xc200000100000
  | .tripCurveExpiry .. => 0x194e760120100200
  | .enterServiceQualified => 0xc200000100000
  | .frtTableSwap .. => 0x1100120000180200
  | .frtSwapApply => 0x180000
  | .setpointApply => 0x19505000202c0200
  | .chipBoundary .. => 0x194e760120300200
  | .probeFault .. => 0x194e760120300200
  | .rocofDetect .. => 0x194e760120300200
  | .mirTableSwap .. => 0x1100120000200200
  | .mirSwapApply => 0xc000000200000
  | .mirBaseWrite .. => 0xc200000200000
  | .mirIslandClear => 0xc200000200000
  | .ditherPeriodBoundary .. => 0xc060000000000
  | .trackerStep .. => 0xc260000400000
  | .scanPeriodicDue .. => 0xc060000000000
  | .portScanReq .. => 0xc000000400000
  | .portScanAll => 0xc000000000000
  | .scanPointDone .. => 0xc060000000000
  | .portPvCfgWrite .. => 0xc000000c00000
  | .portPackWrite .. => 0x1102100003400200
  | .portTableSwap .. => 0x1100120000400200
  | .portSwapApply => 0xc000000400000
  | .frameReturn .. => 0x19831e080002b320
  | .trReceived .. => 0x19435e0120001320
  | .jrReceived .. => 0x11011e0000003320
  | .grantLapse .. => 0x2000000002000
  | .delaysAccepted .. => 0x2000000002000
  | .alignTimeout .. => 0x2000000002000
  | .loopDown .. => 0x196350092001f200
  | .loopUp .. => 0x1100100000001200
  | .laneLockLoss .. => 0x1000
  | .cellLost .. => 0x196250092001e200
  | .auxResendTimeout .. => 0x2000000000000
  | .wadiFrameDue .. => 0x19c3760b22007600
  | .linkGoFull .. => 0x1101160000001200
  | .linkGoWadi .. => 0x1101160000001200
  | .rateChangeTimeout .. => 0x1101160000001200
  | .autoFullRate .. => 0x1101160000001200
  | .linkRingEnWrite .. => 0x1101160000001200
  | .linkCfgWrite .. => 0x1008
  | .spillTimeout .. => 0x1102100000008200
  | .cellRemove .. => 0x1102100000004700
  | .cellReturn .. => 0x1102100000004700
  | .cellNodeFw .. => 0x1102100000004700
  | .returnTripTimeout .. => 0x1102100000008200
  | .verifyPass .. => 0x206000000c000
  | .verifyTimeout .. => 0x110216000000c200
  | .prechargeTimeout .. => 0x110216000000c200
  | .prechargeDone .. => 0x110e16000200c200
  | .rampComplete .. => 0x110e10000002c200
  | .rampOutComplete .. => 0x110210000002c200
  | .triggerFire .. => 0x1d425701a4000200
  | .adcSwTrig .. => 0x40060000000000
  | .queueBurstTimeout .. => 0x1040160020000000
  | .captureArm .. => 0x1040100020000000
  | .adcQCfgWrite .. => 0x1040100024000000
  | .hkRoundStart .. => 0x40060040000000
  | .hkRoundDone .. => 0x1b4257c160000208
  | .comparatorActive .. => 0x1d425701a0000200
  | .cmpLatchClear .. => 0x1d425701a0000200
  | .cmpCfgWrite .. => 0x1d425101a4000200
  | .adcChCfgWrite .. => 0xc000000
  | .adcChCalWrite .. => 0xc000000
  | .adcCtlCfgWrite .. => 0x4000000
  | .adcCalConverged .. => 0x4000000
  | .slcStop .. => 0x1942560120000200
  | .slcStopBrk .. => 0x1942560120000200
  | .slcBrkReset .. => 0x1000060100000000
  | .slcCellBlk .. => 0x1002060100000000
  | .tripIn .. => 0x1d42570120000200
  | .blankWindowClose .. => 0x1d42570120000200
  | .driveShort .. => 0x1500570100000200
  | .driveScClear .. => 0x60100000000
  | .slcLatchClear .. => 0x460100000000
  | .debugStarve => 0x1942500120000200
  | .safetyInputDemand .. => 0x1d42df0320000320
  | .safetyInputRelease .. => 0x860200000000
  | .discrepancy .. => 0x1100960200000200
  | .testPulse .. => 0x1d42df0320000320
  | .brkFeedbackTimeout .. => 0x1100160200000200
  | .safeMessageRx .. => 0x1952d60520000200
  | .copySkewTimeout .. => 0x1110d60500000200
  | .safeWdogExpiry .. => 0x1942d60520000200
  | .safeMessageTx .. => 0x1000860000000000
  | .safeCvDone => 0x600000000
  | .safeConfirmWrite .. => 0x1100180600000200
  | .crcCfgWrite .. => 0x800
  | .crcDataWrite .. => 0x800
  | .crcSeedWrite .. => 0x800
  | .writeCommit .. => 0x1dffffffffffffff
  | .tcmEccError .. => 0x1942760320000600
  | .rebuildResetDone .. => 0x260000000400
  | .rebuildCopyDone .. => 0x260000000400
  | .rebuildVerifyDone .. => 0x1100360200000600
  | .rebuildRejoin => 0x1100360000000600
  | .scrubSweep .. => 0x1100360200000600
  | .trap .. => 0x190c320000100208
  | .tready => 0x180000000000
  | .triRestart .. => 0x19be7e0800500728
  | .debugHalt => 0x82c220100100400
  | .debugResume => 0x100000408
  | .debugSingleStep => 0x800200000000000
  | .debugBreakpoint => 0x82c220100100400
  | .debugWrite .. => 0x1dffffffffffffff
  | .fwStage .. => 0x1102300000000700
  | .fwSwap .. => 0x1102320000000700
  | .swapTick => 0x800200000000400
  | .fwSwapRevert => 0x1100300000000600
  | .doorbell .. => 0x1900182000000720
  | .ringEnable .. => 0x1100100000000300
  | .ringStop .. => 0x1100100000000300
  | .ringStopped .. => 0x1100100000000200
  | .ringRestart .. => 0x1100100000000300
  | .ringReset .. => 0x1100100000000300
  | .nop .. => 0x1102100000000700
  | .setpoint .. => 0x1112100000000700
  | .converterRelease .. => 0x1102560000240700
  | .converterStop .. => 0x1942560120000700
  | .converterStopBrk .. => 0x1942560120000700
  | .converterBrkReset .. => 0x1102160100000700
  | .furrowLoad .. => 0x1102100000000700
  | .lease .. => 0x1182100000000700
  | .hostTime .. => 0x1102100000000700
  | .capture .. => 0x1142100020000700
  | .journalRead .. => 0x1902100000000700
  | .buffer .. => 0x1102100000000700
  | .badOpcode .. => 0x1102100000000700
  | .bufferTimeout .. => 0x160000000000
  | .hostReadCompletion .. => 0x1902360000000700
  | .hostReadTimeout .. => 0x1902160000000700
  | .completionPost .. => 0x1942700320000700
  | .eventsLost .. => 0x1100100000000200
  | .msixCoalesceTimeout .. => 0x1000160000000000
  | .walkInvalidate .. => 0x100000000100
  | .walkInvalidateDone => 0x100000000100
  | .hostWalkRootWrite .. => 0x100000000100
  | .functionLevelReset => 0x100000000300
  | .powerStateChange .. => 0x1900100000000200
  | .meterLatch .. => 0x182061800000000
  | .recordSigned .. => 0x1180162000000200
  | .snapshotCommitted => 0x1fffffffffffffff
  | .leaseCommitted .. => 0x1982100000000200
  | .pfWarn .. => 0x19c25e0920000260
  | .powerfailFreeze .. => 0x1800e0000000000
  | .pfWarnDeassert .. => 0x1fffffffffffffff
  | .mtrCalSwap => 0x80001000000000
  | .mtrCalSwapApply => 0x1180101000000200
  | .mtrPortSnapshotRead .. => 0x1080000000000000
  | .weirTimerExpiry .. => 0x200064000000000
  | .thermalStale .. => 0x64000000000
  | .auxStart .. => 0x1500174000000200
  | .auxStop .. => 0x1500170000000200
  | .auxDiag .. => 0x1400074000000000
  | .auxDiagDone .. => 0x1500170000000200
  | .auxAlignDone .. => 0x1400070000000000
  | .auxHandover .. => 0x1500170000000200
  | .auxSpeedLoop .. => 0x1500170000000200
  | .auxPwmPeriod .. => 0x1d42770320000600
  | .auxWindowCap .. => 0x1d00110000000200
  | .keMeasured .. => 0x1500170000000200
  | .vauxUv .. => 0x1500170000000200
  | .vauxUvRecover .. => 0x1500170000000200
  | .vauxOv .. => 0x1500170000000200
  | .cpUv .. => 0x1500170000000200
  | .regenLimit .. => 0x1400070000000000
  | .regenClear .. => 0x1400070000000000
  | .refVoteUpdate .. => 0x1100160000000204
  | .refLost .. => 0x1100160000000204
  | .refValid .. => 0x1100160000000204
  | .refReadmit .. => 0x1100160000000204
  | .refSelectMove .. => 0x1100160000000204
  | .refCoastEnd .. => 0x1100160000000204
  | .pllDividerUpdate => 0x40000000004
  | .pllLockLost .. => 0x1100160000000204
  | .pllLocked .. => 0x1100160000000204
  | .clkPllSeedWrite .. => 0x40000000004
  | .alarm .. => 0x19001e0000000320
  | .elapsedRead .. => 0x1000020000000000
  | .alignOfsRead .. => 0x1000020000000000
  | .ppsEdge .. => 0x1100160000000210
  | .ppsMissing .. => 0x1100160000000210
  | .ppsStep .. => 0x110f160000200210
  | .syncSecWrite .. => 0x10
  | .mainPowerOn => 0x1fffffffffffffff
  | .railReset => 0x1500190100000200
  | .bringupStage .. => 0x1dceffffffffffff
  | .persist .. => 0xe0000000020
  | .persistDone .. => 0x1100180000000220
  | .sleep .. => 0x11011e0000001220
  | .wake .. => 0x11001e0000000320
  | .shutdown .. => 0x1820e1800000020
  | .shutdownDone .. => 0x600000000a0
  | .oasisTick .. => 0x14000900000000c0
  | .oasisColdStart => 0x800000000c0
  | .oasisTrim .. => 0xe0000000000
  | .lcTransition .. => 0x11001e0a00000223
  | .fwkeyFuse => 0x80000000022
  | .registerWrite .. => 0x1dffffffffffffff
  | .rcFieldRead .. => 0x1dce77ffffffffff
  | .codeGroupLock .. => 0x1103160000001200
  | .resetNAsserted => 0x1500190100000200
set_option maxRecDepth 10000 in
/-- Whatever its operands and the state, a command changes only what its mask names. -/
theorem exec_only (c : Instr) (s : State) : OnlyO (execMask c) s (exec c s) := by
  cases c
  case tickBoundary => exact (Only.execTickBoundary (Only.refl 0x1def7f19b47ff728 s) _ rfl : OnlyO 0x1def7f19b47ff728 s _)
  case s0Deadline => exact (Only.execS0Deadline (Only.refl 0x1bfef601267c0608 s) _ _ _ _ rfl : OnlyO 0x1bfef601267c0608 s _)
  case s1Deadline => exact (Only.execS1Deadline (Only.refl 0x2e260000100008 s) _ rfl : OnlyO 0x2e260000100008 s _)
  case s2Deadline => exact (Only.execS2Deadline (Only.refl 0x2e260000100008 s) _ _ _ rfl : OnlyO 0x2e260000100008 s _)
  case s3Deadline => exact (Only.execS3Deadline (Only.refl 0x19ef76032213e608 s) _ _ _ rfl : OnlyO 0x19ef76032213e608 s _)
  case s4Deadline => exact (Only.execS4Deadline (Only.refl 0x60000000000 s) _ _ _ rfl : OnlyO 0x60000000000 s _)
  case s5Deadline => exact (Only.execS5Deadline (Only.refl 0x19e3560922013208 s) _ _ _ _ rfl : OnlyO 0x19e3560922013208 s _)
  case tend => exact (Only.execTend (Only.refl 0x1dffffffffffffff s) _ rfl : OnlyO 0x1dffffffffffffff s _)
  case clkTickCfgWrite => exact (Only.execClkTickCfgWrite (Only.refl 0x20014001008 s) _ rfl : OnlyO 0x20014001008 s _)
  case periodChange => exact (Only.execPeriodChange (Only.refl 0xf060014001008 s) _ rfl : OnlyO 0xf060014001008 s _)
  case clkTickDeadlineWrite => exact (Only.execClkTickDeadlineWrite (Only.refl 0x1008 s) _ _ rfl : OnlyO 0x1008 s _)
  case clkShedCfgWrite => exact (Only.execClkShedCfgWrite (Only.refl 0x20000000008 s) _ rfl : OnlyO 0x20000000008 s _)
  case shedLevelClamp => exact (Only.execShedLevelClamp (Only.refl 0x1140120020000208 s) rfl : OnlyO 0x1140120020000208 s _)
  case shedLevelFall => exact (Only.execShedLevelFall (Only.refl 0x1140160020000208 s) _ rfl : OnlyO 0x1140160020000208 s _)
  case diagDeferred => exact (Only.execDiagDeferred (Only.refl 0x1900160000000208 s) _ rfl : OnlyO 0x1900160000000208 s _)
  case hgsCellCfgWrite => exact (Only.execHgsCellCfgWrite (Only.refl 0x198e30080203e200 s) _ _ _ rfl : OnlyO 0x198e30080203e200 s _)
  case hgsPlantRatingWrite => exact (Only.execHgsPlantRatingWrite (Only.refl 0x1100100000010200 s) _ _ _ rfl : OnlyO 0x1100100000010200 s _)
  case derateRowDown => exact (Only.execDerateRowDown (Only.refl 0x1962560120010200 s) _ rfl : OnlyO 0x1962560120010200 s _)
  case derateRowUp => exact (Only.execDerateRowUp (Only.refl 0x1942560120010200 s) _ rfl : OnlyO 0x1942560120010200 s _)
  case hgsTableSwap => exact (Only.execHgsTableSwap (Only.refl 0x20000010000 s) rfl : OnlyO 0x20000010000 s _)
  case hgsSwapApply => exact (Only.execHgsSwapApply (Only.refl 0x10000 s) rfl : OnlyO 0x10000 s _)
  case ctlModeWrite => exact (Only.execCtlModeWrite (Only.refl 0x40000 s) _ rfl : OnlyO 0x40000 s _)
  case modeTransfer => exact (Only.execModeTransfer (Only.refl 0xc000000040000 s) rfl : OnlyO 0xc000000040000 s _)
  case forcedAuto => exact (Only.execForcedAuto (Only.refl 0x190c100000040200 s) rfl : OnlyO 0x190c100000040200 s _)
  case ctlManualWrite => exact (Only.execCtlManualWrite (Only.refl 0x40000 s) _ rfl : OnlyO 0x40000 s _)
  case ctlTableSwap => exact (Only.execCtlTableSwap (Only.refl 0x1100120000040200 s) _ rfl : OnlyO 0x1100120000040200 s _)
  case ctlSwapApply => exact (Only.execCtlSwapApply (Only.refl 0xc000000040000 s) rfl : OnlyO 0xc000000040000 s _)
  case lockAcquired => exact (Only.execLockAcquired (Only.refl 0xc200000080000 s) rfl : OnlyO 0xc200000080000 s _)
  case lockLost => exact (Only.execLockLost (Only.refl 0xc200000080000 s) rfl : OnlyO 0xc200000080000 s _)
  case syncPllCfgWrite => exact (Only.execSyncPllCfgWrite (Only.refl 0x80000 s) _ rfl : OnlyO 0x80000 s _)
  case syncModeWrite => exact (Only.execSyncModeWrite (Only.refl 0x1100100000080200 s) _ _ rfl : OnlyO 0x1100100000080200 s _)
  case gfmTransfer => exact (Only.execGfmTransfer (Only.refl 0xc000000080000 s) rfl : OnlyO 0xc000000080000 s _)
  case recoveryEntry => exact (Only.execRecoveryEntry (Only.refl 0xc200000100000 s) rfl : OnlyO 0xc200000100000 s _)
  case tripCurveExpiry => exact (Only.execTripCurveExpiry (Only.refl 0x194e760120100200 s) _ _ _ rfl : OnlyO 0x194e760120100200 s _)
  case enterServiceQualified => exact (Only.execEnterServiceQualified (Only.refl 0xc200000100000 s) rfl : OnlyO 0xc200000100000 s _)
  case frtTableSwap => exact (Only.execFrtTableSwap (Only.refl 0x1100120000180200 s) _ rfl : OnlyO 0x1100120000180200 s _)
  case frtSwapApply => exact (Only.execFrtSwapApply (Only.refl 0x180000 s) rfl : OnlyO 0x180000 s _)
  case setpointApply => exact (Only.execSetpointApply (Only.refl 0x19505000202c0200 s) rfl : OnlyO 0x19505000202c0200 s _)
  case chipBoundary => exact (Only.execChipBoundary (Only.refl 0x194e760120300200 s) _ rfl : OnlyO 0x194e760120300200 s _)
  case probeFault => exact (Only.execProbeFault (Only.refl 0x194e760120300200 s) _ rfl : OnlyO 0x194e760120300200 s _)
  case rocofDetect => exact (Only.execRocofDetect (Only.refl 0x194e760120300200 s) _ rfl : OnlyO 0x194e760120300200 s _)
  case mirTableSwap => exact (Only.execMirTableSwap (Only.refl 0x1100120000200200 s) _ rfl : OnlyO 0x1100120000200200 s _)
  case mirSwapApply => exact (Only.execMirSwapApply (Only.refl 0xc000000200000 s) rfl : OnlyO 0xc000000200000 s _)
  case mirBaseWrite => exact (Only.execMirBaseWrite (Only.refl 0xc200000200000 s) _ rfl : OnlyO 0xc200000200000 s _)
  case mirIslandClear => exact (Only.execMirIslandClear (Only.refl 0xc200000200000 s) rfl : OnlyO 0xc200000200000 s _)
  case ditherPeriodBoundary => exact (Only.execDitherPeriodBoundary (Only.refl 0xc060000000000 s) _ rfl : OnlyO 0xc060000000000 s _)
  case trackerStep => exact (Only.execTrackerStep (Only.refl 0xc260000400000 s) _ rfl : OnlyO 0xc260000400000 s _)
  case scanPeriodicDue => exact (Only.execScanPeriodicDue (Only.refl 0xc060000000000 s) _ _ rfl : OnlyO 0xc060000000000 s _)
  case portScanReq => exact (Only.execPortScanReq (Only.refl 0xc000000400000 s) _ rfl : OnlyO 0xc000000400000 s _)
  case portScanAll => exact (Only.execPortScanAll (Only.refl 0xc000000000000 s) rfl : OnlyO 0xc000000000000 s _)
  case scanPointDone => exact (Only.execScanPointDone (Only.refl 0xc060000000000 s) _ _ rfl : OnlyO 0xc060000000000 s _)
  case portPvCfgWrite => exact (Only.execPortPvCfgWrite (Only.refl 0xc000000c00000 s) _ _ rfl : OnlyO 0xc000000c00000 s _)
  case portPackWrite => exact (Only.execPortPackWrite (Only.refl 0x1102100003400200 s) _ _ _ rfl : OnlyO 0x1102100003400200 s _)
  case portTableSwap => exact (Only.execPortTableSwap (Only.refl 0x1100120000400200 s) _ rfl : OnlyO 0x1100120000400200 s _)
  case portSwapApply => exact (Only.execPortSwapApply (Only.refl 0xc000000400000 s) rfl : OnlyO 0xc000000400000 s _)
  case frameReturn => exact (Only.execFrameReturn (Only.refl 0x19831e080002b320 s) _ _ _ _ rfl : OnlyO 0x19831e080002b320 s _)
  case trReceived => exact (Only.execTrReceived (Only.refl 0x19435e0120001320 s) _ _ _ _ _ rfl : OnlyO 0x19435e0120001320 s _)
  case jrReceived => exact (Only.execJrReceived (Only.refl 0x11011e0000003320 s) _ _ _ rfl : OnlyO 0x11011e0000003320 s _)
  case grantLapse => exact (Only.execGrantLapse (Only.refl 0x2000000002000 s) _ rfl : OnlyO 0x2000000002000 s _)
  case delaysAccepted => exact (Only.execDelaysAccepted (Only.refl 0x2000000002000 s) _ rfl : OnlyO 0x2000000002000 s _)
  case alignTimeout => exact (Only.execAlignTimeout (Only.refl 0x2000000002000 s) _ rfl : OnlyO 0x2000000002000 s _)
  case loopDown => exact (Only.execLoopDown (Only.refl 0x196350092001f200 s) _ _ rfl : OnlyO 0x196350092001f200 s _)
  case loopUp => exact (Only.execLoopUp (Only.refl 0x1100100000001200 s) _ _ rfl : OnlyO 0x1100100000001200 s _)
  case laneLockLoss => exact (Only.execLaneLockLoss (Only.refl 0x1000 s) _ rfl : OnlyO 0x1000 s _)
  case cellLost => exact (Only.execCellLost (Only.refl 0x196250092001e200 s) _ rfl : OnlyO 0x196250092001e200 s _)
  case auxResendTimeout => exact (Only.execAuxResendTimeout (Only.refl 0x2000000000000 s) _ rfl : OnlyO 0x2000000000000 s _)
  case wadiFrameDue => exact (Only.execWadiFrameDue (Only.refl 0x19c3760b22007600 s) _ _ rfl : OnlyO 0x19c3760b22007600 s _)
  case linkGoFull => exact (Only.execLinkGoFull (Only.refl 0x1101160000001200 s) _ _ rfl : OnlyO 0x1101160000001200 s _)
  case linkGoWadi => exact (Only.execLinkGoWadi (Only.refl 0x1101160000001200 s) _ _ rfl : OnlyO 0x1101160000001200 s _)
  case rateChangeTimeout => exact (Only.execRateChangeTimeout (Only.refl 0x1101160000001200 s) _ _ rfl : OnlyO 0x1101160000001200 s _)
  case autoFullRate => exact (Only.execAutoFullRate (Only.refl 0x1101160000001200 s) _ _ rfl : OnlyO 0x1101160000001200 s _)
  case linkRingEnWrite => exact (Only.execLinkRingEnWrite (Only.refl 0x1101160000001200 s) _ _ rfl : OnlyO 0x1101160000001200 s _)
  case linkCfgWrite => exact (Only.execLinkCfgWrite (Only.refl 0x1008 s) _ rfl : OnlyO 0x1008 s _)
  case spillTimeout => exact (Only.execSpillTimeout (Only.refl 0x1102100000008200 s) _ rfl : OnlyO 0x1102100000008200 s _)
  case cellRemove => exact (Only.execCellRemove (Only.refl 0x1102100000004700 s) _ _ rfl : OnlyO 0x1102100000004700 s _)
  case cellReturn => exact (Only.execCellReturn (Only.refl 0x1102100000004700 s) _ _ rfl : OnlyO 0x1102100000004700 s _)
  case cellNodeFw => exact (Only.execCellNodeFw (Only.refl 0x1102100000004700 s) _ _ _ _ rfl : OnlyO 0x1102100000004700 s _)
  case returnTripTimeout => exact (Only.execReturnTripTimeout (Only.refl 0x1102100000008200 s) _ rfl : OnlyO 0x1102100000008200 s _)
  case verifyPass => exact (Only.execVerifyPass (Only.refl 0x206000000c000 s) _ _ rfl : OnlyO 0x206000000c000 s _)
  case verifyTimeout => exact (Only.execVerifyTimeout (Only.refl 0x110216000000c200 s) _ _ rfl : OnlyO 0x110216000000c200 s _)
  case prechargeTimeout => exact (Only.execPrechargeTimeout (Only.refl 0x110216000000c200 s) _ _ rfl : OnlyO 0x110216000000c200 s _)
  case prechargeDone => exact (Only.execPrechargeDone (Only.refl 0x110e16000200c200 s) _ _ rfl : OnlyO 0x110e16000200c200 s _)
  case rampComplete => exact (Only.execRampComplete (Only.refl 0x110e10000002c200 s) _ rfl : OnlyO 0x110e10000002c200 s _)
  case rampOutComplete => exact (Only.execRampOutComplete (Only.refl 0x110210000002c200 s) _ rfl : OnlyO 0x110210000002c200 s _)
  case triggerFire => exact (Only.execTriggerFire (Only.refl 0x1d425701a4000200 s) _ _ _ rfl : OnlyO 0x1d425701a4000200 s _)
  case adcSwTrig => exact (Only.execAdcSwTrig (Only.refl 0x40060000000000 s) _ _ rfl : OnlyO 0x40060000000000 s _)
  case queueBurstTimeout => exact (Only.execQueueBurstTimeout (Only.refl 0x1040160020000000 s) _ _ rfl : OnlyO 0x1040160020000000 s _)
  case captureArm => exact (Only.execCaptureArm (Only.refl 0x1040100020000000 s) _ rfl : OnlyO 0x1040100020000000 s _)
  case adcQCfgWrite => exact (Only.execAdcQCfgWrite (Only.refl 0x1040100024000000 s) _ _ rfl : OnlyO 0x1040100024000000 s _)
  case hkRoundStart => exact (Only.execHkRoundStart (Only.refl 0x40060040000000 s) _ rfl : OnlyO 0x40060040000000 s _)
  case hkRoundDone => exact (Only.execHkRoundDone (Only.refl 0x1b4257c160000208 s) _ _ rfl : OnlyO 0x1b4257c160000208 s _)
  case comparatorActive => exact (Only.execComparatorActive (Only.refl 0x1d425701a0000200 s) _ _ _ rfl : OnlyO 0x1d425701a0000200 s _)
  case cmpLatchClear => exact (Only.execCmpLatchClear (Only.refl 0x1d425701a0000200 s) _ _ rfl : OnlyO 0x1d425701a0000200 s _)
  case cmpCfgWrite => exact (Only.execCmpCfgWrite (Only.refl 0x1d425101a4000200 s) _ _ _ rfl : OnlyO 0x1d425101a4000200 s _)
  case adcChCfgWrite => exact (Only.execAdcChCfgWrite (Only.refl 0xc000000 s) _ _ rfl : OnlyO 0xc000000 s _)
  case adcChCalWrite => exact (Only.execAdcChCalWrite (Only.refl 0xc000000 s) _ _ rfl : OnlyO 0xc000000 s _)
  case adcCtlCfgWrite => exact (Only.execAdcCtlCfgWrite (Only.refl 0x4000000 s) _ rfl : OnlyO 0x4000000 s _)
  case adcCalConverged => exact (Only.execAdcCalConverged (Only.refl 0x4000000 s) _ rfl : OnlyO 0x4000000 s _)
  case slcStop => exact (Only.execSlcStop (Only.refl 0x1942560120000200 s) _ rfl : OnlyO 0x1942560120000200 s _)
  case slcStopBrk => exact (Only.execSlcStopBrk (Only.refl 0x1942560120000200 s) _ rfl : OnlyO 0x1942560120000200 s _)
  case slcBrkReset => exact (Only.execSlcBrkReset (Only.refl 0x1000060100000000 s) _ rfl : OnlyO 0x1000060100000000 s _)
  case slcCellBlk => exact (Only.execSlcCellBlk (Only.refl 0x1002060100000000 s) _ _ rfl : OnlyO 0x1002060100000000 s _)
  case tripIn => exact (Only.execTripIn (Only.refl 0x1d42570120000200 s) _ _ rfl : OnlyO 0x1d42570120000200 s _)
  case blankWindowClose => exact (Only.execBlankWindowClose (Only.refl 0x1d42570120000200 s) _ _ rfl : OnlyO 0x1d42570120000200 s _)
  case driveShort => exact (Only.execDriveShort (Only.refl 0x1500570100000200 s) _ _ _ _ rfl : OnlyO 0x1500570100000200 s _)
  case driveScClear => exact (Only.execDriveScClear (Only.refl 0x60100000000 s) _ _ rfl : OnlyO 0x60100000000 s _)
  case slcLatchClear => exact (Only.execSlcLatchClear (Only.refl 0x460100000000 s) _ _ rfl : OnlyO 0x460100000000 s _)
  case debugStarve => exact (Only.execDebugStarve (Only.refl 0x1942500120000200 s) rfl : OnlyO 0x1942500120000200 s _)
  case safetyInputDemand => exact (Only.execSafetyInputDemand (Only.refl 0x1d42df0320000320 s) _ _ _ rfl : OnlyO 0x1d42df0320000320 s _)
  case safetyInputRelease => exact (Only.execSafetyInputRelease (Only.refl 0x860200000000 s) _ _ _ rfl : OnlyO 0x860200000000 s _)
  case discrepancy => exact (Only.execDiscrepancy (Only.refl 0x1100960200000200 s) _ _ rfl : OnlyO 0x1100960200000200 s _)
  case testPulse => exact (Only.execTestPulse (Only.refl 0x1d42df0320000320 s) _ _ _ rfl : OnlyO 0x1d42df0320000320 s _)
  case brkFeedbackTimeout => exact (Only.execBrkFeedbackTimeout (Only.refl 0x1100160200000200 s) _ _ rfl : OnlyO 0x1100160200000200 s _)
  case safeMessageRx => exact (Only.execSafeMessageRx (Only.refl 0x1952d60520000200 s) _ _ _ rfl : OnlyO 0x1952d60520000200 s _)
  case copySkewTimeout => exact (Only.execCopySkewTimeout (Only.refl 0x1110d60500000200 s) _ rfl : OnlyO 0x1110d60500000200 s _)
  case safeWdogExpiry => exact (Only.execSafeWdogExpiry (Only.refl 0x1942d60520000200 s) _ rfl : OnlyO 0x1942d60520000200 s _)
  case safeMessageTx => exact (Only.execSafeMessageTx (Only.refl 0x1000860000000000 s) _ rfl : OnlyO 0x1000860000000000 s _)
  case safeCvDone => exact (Only.execSafeCvDone (Only.refl 0x600000000 s) rfl : OnlyO 0x600000000 s _)
  case safeConfirmWrite => exact (Only.execSafeConfirmWrite (Only.refl 0x1100180600000200 s) _ _ rfl : OnlyO 0x1100180600000200 s _)
  case crcCfgWrite => exact (Only.execCrcCfgWrite (Only.refl 0x800 s) _ rfl : OnlyO 0x800 s _)
  case crcDataWrite => exact (Only.execCrcDataWrite (Only.refl 0x800 s) _ _ rfl : OnlyO 0x800 s _)
  case crcSeedWrite => exact (Only.execCrcSeedWrite (Only.refl 0x800 s) _ rfl : OnlyO 0x800 s _)
  case writeCommit => exact (Only.execWriteCommit (Only.refl 0x1dffffffffffffff s) _ _ _ _ _ rfl : OnlyO 0x1dffffffffffffff s _)
  case tcmEccError => exact (Only.execTcmEccError (Only.refl 0x1942760320000600 s) _ _ _ rfl : OnlyO 0x1942760320000600 s _)
  case rebuildResetDone => exact (Only.execRebuildResetDone (Only.refl 0x260000000400 s) _ rfl : OnlyO 0x260000000400 s _)
  case rebuildCopyDone => exact (Only.execRebuildCopyDone (Only.refl 0x260000000400 s) _ rfl : OnlyO 0x260000000400 s _)
  case rebuildVerifyDone => exact (Only.execRebuildVerifyDone (Only.refl 0x1100360200000600 s) _ _ rfl : OnlyO 0x1100360200000600 s _)
  case rebuildRejoin => exact (Only.execRebuildRejoin (Only.refl 0x1100360000000600 s) rfl : OnlyO 0x1100360000000600 s _)
  case scrubSweep => exact (Only.execScrubSweep (Only.refl 0x1100360200000600 s) _ _ rfl : OnlyO 0x1100360200000600 s _)
  case trap => exact (Only.execTrap (Only.refl 0x190c320000100208 s) _ _ _ rfl : OnlyO 0x190c320000100208 s _)
  case tready => exact (Only.execTready (Only.refl 0x180000000000 s) rfl : OnlyO 0x180000000000 s _)
  case triRestart => exact (Only.execTriRestart (Only.refl 0x19be7e0800500728 s) _ rfl : OnlyO 0x19be7e0800500728 s _)
  case debugHalt => exact (Only.execDebugHalt (Only.refl 0x82c220100100400 s) rfl : OnlyO 0x82c220100100400 s _)
  case debugResume => exact (Only.execDebugResume (Only.refl 0x100000408 s) rfl : OnlyO 0x100000408 s _)
  case debugSingleStep => exact (Only.execDebugSingleStep (Only.refl 0x800200000000000 s) rfl : OnlyO 0x800200000000000 s _)
  case debugBreakpoint => exact (Only.execDebugBreakpoint (Only.refl 0x82c220100100400 s) rfl : OnlyO 0x82c220100100400 s _)
  case debugWrite => exact (Only.execDebugWrite (Only.refl 0x1dffffffffffffff s) _ _ rfl : OnlyO 0x1dffffffffffffff s _)
  case fwStage => exact (Only.execFwStage (Only.refl 0x1102300000000700 s) _ _ _ _ _ _ rfl : OnlyO 0x1102300000000700 s _)
  case fwSwap => exact (Only.execFwSwap (Only.refl 0x1102320000000700 s) _ rfl : OnlyO 0x1102320000000700 s _)
  case swapTick => exact (Only.execSwapTick (Only.refl 0x800200000000400 s) rfl : OnlyO 0x800200000000400 s _)
  case fwSwapRevert => exact (Only.execFwSwapRevert (Only.refl 0x1100300000000600 s) rfl : OnlyO 0x1100300000000600 s _)
  case doorbell => exact (Only.execDoorbell (Only.refl 0x1900182000000720 s) _ _ rfl : OnlyO 0x1900182000000720 s _)
  case ringEnable => exact (Only.execRingEnable (Only.refl 0x1100100000000300 s) _ _ rfl : OnlyO 0x1100100000000300 s _)
  case ringStop => exact (Only.execRingStop (Only.refl 0x1100100000000300 s) _ rfl : OnlyO 0x1100100000000300 s _)
  case ringStopped => exact (Only.execRingStopped (Only.refl 0x1100100000000200 s) _ rfl : OnlyO 0x1100100000000200 s _)
  case ringRestart => exact (Only.execRingRestart (Only.refl 0x1100100000000300 s) _ rfl : OnlyO 0x1100100000000300 s _)
  case ringReset => exact (Only.execRingReset (Only.refl 0x1100100000000300 s) _ rfl : OnlyO 0x1100100000000300 s _)
  case nop => exact (Only.execNop (Only.refl 0x1102100000000700 s) _ rfl : OnlyO 0x1102100000000700 s _)
  case setpoint => exact (Only.execSetpoint (Only.refl 0x1112100000000700 s) _ _ rfl : OnlyO 0x1112100000000700 s _)
  case converterRelease => exact (Only.execConverterRelease (Only.refl 0x1102560000240700 s) _ _ rfl : OnlyO 0x1102560000240700 s _)
  case converterStop => exact (Only.execConverterStop (Only.refl 0x1942560120000700 s) _ _ rfl : OnlyO 0x1942560120000700 s _)
  case converterStopBrk => exact (Only.execConverterStopBrk (Only.refl 0x1942560120000700 s) _ _ rfl : OnlyO 0x1942560120000700 s _)
  case converterBrkReset => exact (Only.execConverterBrkReset (Only.refl 0x1102160100000700 s) _ _ rfl : OnlyO 0x1102160100000700 s _)
  case furrowLoad => exact (Only.execFurrowLoad (Only.refl 0x1102100000000700 s) _ _ _ _ _ rfl : OnlyO 0x1102100000000700 s _)
  case lease => exact (Only.execLease (Only.refl 0x1182100000000700 s) _ _ _ _ _ _ rfl : OnlyO 0x1182100000000700 s _)
  case hostTime => exact (Only.execHostTime (Only.refl 0x1102100000000700 s) _ _ rfl : OnlyO 0x1102100000000700 s _)
  case capture => exact (Only.execCapture (Only.refl 0x1142100020000700 s) _ _ rfl : OnlyO 0x1142100020000700 s _)
  case journalRead => exact (Only.execJournalRead (Only.refl 0x1902100000000700 s) _ _ _ _ rfl : OnlyO 0x1902100000000700 s _)
  case buffer => exact (Only.execBuffer (Only.refl 0x1102100000000700 s) _ _ _ rfl : OnlyO 0x1102100000000700 s _)
  case badOpcode => exact (Only.execBadOpcode (Only.refl 0x1102100000000700 s) _ _ rfl : OnlyO 0x1102100000000700 s _)
  case bufferTimeout => exact (Only.execBufferTimeout (Only.refl 0x160000000000 s) _ _ rfl : OnlyO 0x160000000000 s _)
  case hostReadCompletion => exact (Only.execHostReadCompletion (Only.refl 0x1902360000000700 s) _ _ _ rfl : OnlyO 0x1902360000000700 s _)
  case hostReadTimeout => exact (Only.execHostReadTimeout (Only.refl 0x1902160000000700 s) _ _ rfl : OnlyO 0x1902160000000700 s _)
  case completionPost => exact (Only.execCompletionPost (Only.refl 0x1942700320000700 s) _ rfl : OnlyO 0x1942700320000700 s _)
  case eventsLost => exact (Only.execEventsLost (Only.refl 0x1100100000000200 s) _ rfl : OnlyO 0x1100100000000200 s _)
  case msixCoalesceTimeout => exact (Only.execMsixCoalesceTimeout (Only.refl 0x1000160000000000 s) _ _ rfl : OnlyO 0x1000160000000000 s _)
  case walkInvalidate => exact (Only.execWalkInvalidate (Only.refl 0x100000000100 s) _ rfl : OnlyO 0x100000000100 s _)
  case walkInvalidateDone => exact (Only.execWalkInvalidateDone (Only.refl 0x100000000100 s) rfl : OnlyO 0x100000000100 s _)
  case hostWalkRootWrite => exact (Only.execHostWalkRootWrite (Only.refl 0x100000000100 s) _ _ rfl : OnlyO 0x100000000100 s _)
  case functionLevelReset => exact (Only.execFunctionLevelReset (Only.refl 0x100000000300 s) rfl : OnlyO 0x100000000300 s _)
  case powerStateChange => exact (Only.execPowerStateChange (Only.refl 0x1900100000000200 s) _ rfl : OnlyO 0x1900100000000200 s _)
  case meterLatch => exact (Only.execMeterLatch (Only.refl 0x182061800000000 s) _ rfl : OnlyO 0x182061800000000 s _)
  case recordSigned => exact (Only.execRecordSigned (Only.refl 0x1180162000000200 s) _ rfl : OnlyO 0x1180162000000200 s _)
  case snapshotCommitted => exact (Only.execSnapshotCommitted (Only.refl 0x1fffffffffffffff s) rfl : OnlyO 0x1fffffffffffffff s _)
  case leaseCommitted => exact (Only.execLeaseCommitted (Only.refl 0x1982100000000200 s) _ rfl : OnlyO 0x1982100000000200 s _)
  case pfWarn => exact (Only.execPfWarn (Only.refl 0x19c25e0920000260 s) _ rfl : OnlyO 0x19c25e0920000260 s _)
  case powerfailFreeze => exact (Only.execPowerfailFreeze (Only.refl 0x1800e0000000000 s) _ rfl : OnlyO 0x1800e0000000000 s _)
  case pfWarnDeassert => exact (Only.execPfWarnDeassert (Only.refl 0x1fffffffffffffff s) _ rfl : OnlyO 0x1fffffffffffffff s _)
  case mtrCalSwap => exact (Only.execMtrCalSwap (Only.refl 0x80001000000000 s) rfl : OnlyO 0x80001000000000 s _)
  case mtrCalSwapApply => exact (Only.execMtrCalSwapApply (Only.refl 0x1180101000000200 s) rfl : OnlyO 0x1180101000000200 s _)
  case mtrPortSnapshotRead => exact (Only.execMtrPortSnapshotRead (Only.refl 0x1080000000000000 s) _ rfl : OnlyO 0x1080000000000000 s _)
  case weirTimerExpiry => exact (Only.execWeirTimerExpiry (Only.refl 0x200064000000000 s) _ rfl : OnlyO 0x200064000000000 s _)
  case thermalStale => exact (Only.execThermalStale (Only.refl 0x64000000000 s) _ rfl : OnlyO 0x64000000000 s _)
  case auxStart => exact (Only.execAuxStart (Only.refl 0x1500174000000200 s) _ _ rfl : OnlyO 0x1500174000000200 s _)
  case auxStop => exact (Only.execAuxStop (Only.refl 0x1500170000000200 s) _ _ rfl : OnlyO 0x1500170000000200 s _)
  case auxDiag => exact (Only.execAuxDiag (Only.refl 0x1400074000000000 s) _ _ rfl : OnlyO 0x1400074000000000 s _)
  case auxDiagDone => exact (Only.execAuxDiagDone (Only.refl 0x1500170000000200 s) _ _ _ rfl : OnlyO 0x1500170000000200 s _)
  case auxAlignDone => exact (Only.execAuxAlignDone (Only.refl 0x1400070000000000 s) _ _ rfl : OnlyO 0x1400070000000000 s _)
  case auxHandover => exact (Only.execAuxHandover (Only.refl 0x1500170000000200 s) _ _ rfl : OnlyO 0x1500170000000200 s _)
  case auxSpeedLoop => exact (Only.execAuxSpeedLoop (Only.refl 0x1500170000000200 s) _ _ _ rfl : OnlyO 0x1500170000000200 s _)
  case auxPwmPeriod => exact (Only.execAuxPwmPeriod (Only.refl 0x1d42770320000600 s) _ _ _ rfl : OnlyO 0x1d42770320000600 s _)
  case auxWindowCap => exact (Only.execAuxWindowCap (Only.refl 0x1d00110000000200 s) _ rfl : OnlyO 0x1d00110000000200 s _)
  case keMeasured => exact (Only.execKeMeasured (Only.refl 0x1500170000000200 s) _ _ _ rfl : OnlyO 0x1500170000000200 s _)
  case vauxUv => exact (Only.execVauxUv (Only.refl 0x1500170000000200 s) _ _ rfl : OnlyO 0x1500170000000200 s _)
  case vauxUvRecover => exact (Only.execVauxUvRecover (Only.refl 0x1500170000000200 s) _ _ rfl : OnlyO 0x1500170000000200 s _)
  case vauxOv => exact (Only.execVauxOv (Only.refl 0x1500170000000200 s) _ _ rfl : OnlyO 0x1500170000000200 s _)
  case cpUv => exact (Only.execCpUv (Only.refl 0x1500170000000200 s) _ _ rfl : OnlyO 0x1500170000000200 s _)
  case regenLimit => exact (Only.execRegenLimit (Only.refl 0x1400070000000000 s) _ _ rfl : OnlyO 0x1400070000000000 s _)
  case regenClear => exact (Only.execRegenClear (Only.refl 0x1400070000000000 s) _ _ rfl : OnlyO 0x1400070000000000 s _)
  case refVoteUpdate => exact (Only.execRefVoteUpdate (Only.refl 0x1100160000000204 s) _ _ _ _ rfl : OnlyO 0x1100160000000204 s _)
  case refLost => exact (Only.execRefLost (Only.refl 0x1100160000000204 s) _ _ rfl : OnlyO 0x1100160000000204 s _)
  case refValid => exact (Only.execRefValid (Only.refl 0x1100160000000204 s) _ _ rfl : OnlyO 0x1100160000000204 s _)
  case refReadmit => exact (Only.execRefReadmit (Only.refl 0x1100160000000204 s) _ _ rfl : OnlyO 0x1100160000000204 s _)
  case refSelectMove => exact (Only.execRefSelectMove (Only.refl 0x1100160000000204 s) _ rfl : OnlyO 0x1100160000000204 s _)
  case refCoastEnd => exact (Only.execRefCoastEnd (Only.refl 0x1100160000000204 s) _ rfl : OnlyO 0x1100160000000204 s _)
  case pllDividerUpdate => exact (Only.execPllDividerUpdate (Only.refl 0x40000000004 s) rfl : OnlyO 0x40000000004 s _)
  case pllLockLost => exact (Only.execPllLockLost (Only.refl 0x1100160000000204 s) _ _ rfl : OnlyO 0x1100160000000204 s _)
  case pllLocked => exact (Only.execPllLocked (Only.refl 0x1100160000000204 s) _ _ rfl : OnlyO 0x1100160000000204 s _)
  case clkPllSeedWrite => exact (Only.execClkPllSeedWrite (Only.refl 0x40000000004 s) _ _ rfl : OnlyO 0x40000000004 s _)
  case alarm => exact (Only.execAlarm (Only.refl 0x19001e0000000320 s) _ rfl : OnlyO 0x19001e0000000320 s _)
  case elapsedRead => exact (Only.execElapsedRead (Only.refl 0x1000020000000000 s) _ rfl : OnlyO 0x1000020000000000 s _)
  case alignOfsRead => exact (Only.execAlignOfsRead (Only.refl 0x1000020000000000 s) _ rfl : OnlyO 0x1000020000000000 s _)
  case ppsEdge => exact (Only.execPpsEdge (Only.refl 0x1100160000000210 s) _ _ rfl : OnlyO 0x1100160000000210 s _)
  case ppsMissing => exact (Only.execPpsMissing (Only.refl 0x1100160000000210 s) _ rfl : OnlyO 0x1100160000000210 s _)
  case ppsStep => exact (Only.execPpsStep (Only.refl 0x110f160000200210 s) _ rfl : OnlyO 0x110f160000200210 s _)
  case syncSecWrite => exact (Only.execSyncSecWrite (Only.refl 0x10 s) _ rfl : OnlyO 0x10 s _)
  case mainPowerOn => exact (Only.execMainPowerOn (Only.refl 0x1fffffffffffffff s) rfl : OnlyO 0x1fffffffffffffff s _)
  case railReset => exact (Only.execRailReset (Only.refl 0x1500190100000200 s) rfl : OnlyO 0x1500190100000200 s _)
  case bringupStage => exact (Only.execBringupStage (Only.refl 0x1dceffffffffffff s) _ _ rfl : OnlyO 0x1dceffffffffffff s _)
  case persist => exact (Only.execPersist (Only.refl 0xe0000000020 s) _ rfl : OnlyO 0xe0000000020 s _)
  case persistDone => exact (Only.execPersistDone (Only.refl 0x1100180000000220 s) _ rfl : OnlyO 0x1100180000000220 s _)
  case sleep => exact (Only.execSleep (Only.refl 0x11011e0000001220 s) _ rfl : OnlyO 0x11011e0000001220 s _)
  case wake => exact (Only.execWake (Only.refl 0x11001e0000000320 s) _ _ rfl : OnlyO 0x11001e0000000320 s _)
  case shutdown => exact (Only.execShutdown (Only.refl 0x1820e1800000020 s) _ rfl : OnlyO 0x1820e1800000020 s _)
  case shutdownDone => exact (Only.execShutdownDone (Only.refl 0x600000000a0 s) _ _ rfl : OnlyO 0x600000000a0 s _)
  case oasisTick => exact (Only.execOasisTick (Only.refl 0x14000900000000c0 s) _ rfl : OnlyO 0x14000900000000c0 s _)
  case oasisColdStart => exact (Only.execOasisColdStart (Only.refl 0x800000000c0 s) rfl : OnlyO 0x800000000c0 s _)
  case oasisTrim => exact (Only.execOasisTrim (Only.refl 0xe0000000000 s) _ _ rfl : OnlyO 0xe0000000000 s _)
  case lcTransition => show OnlyO 0x11001e0a00000223 s _; exact Only.execLcTransition (Only.refl 0x11001e0a00000223 s) _ .host _ rfl
  case fwkeyFuse => exact (Only.execFwkeyFuse (Only.refl 0x80000000022 s) rfl : OnlyO 0x80000000022 s _)
  case registerWrite => exact (Only.execRegisterWrite (Only.refl 0x1dffffffffffffff s) _ _ _ _ _ rfl : OnlyO 0x1dffffffffffffff s _)
  case rcFieldRead => exact (Only.execRcFieldRead (Only.refl 0x1dce77ffffffffff s) _ _ _ rfl : OnlyO 0x1dce77ffffffffff s _)
  case codeGroupLock => exact (Only.execCodeGroupLock (Only.refl 0x1103160000001200 s) _ _ rfl : OnlyO 0x1103160000001200 s _)
  case resetNAsserted => exact (Only.execResetNAsserted (Only.refl 0x1500190100000200 s) rfl : OnlyO 0x1500190100000200 s _)

end Sys2Proof.Machine
end

