-- ==== Sys2Proof/Laws/State.lean ====
section
/-! SUPPORT. What the shared operations read and leave: a field read after a write, and for each named operation the fields
and the parts of State that it leaves as they were. -/
set_option Elab.async false
namespace Sys2Proof.Machine

/-- A field whose registers lie in blocks that the mask `M` does not name. -/
def fr (M : Nat) (f : Fld) : Bool :=
  decide (f.base / 65536 < 41) && !M.testBit (f.base / 65536) && decide (f.base % 65536 + 4 * f.count ≤ 0x8000 ∧ f.lo < 32)

theorem Only.rdi {M : Nat} {a t : State} (h : Only M a t) (f : Fld) (i : Nat) (hf : fr M f = true) : t.rdi f i = a.rdi f i := by
  simp only [fr, Bool.and_eq_true, Bool.not_eq_true', decide_eq_true_eq] at hf
  unfold State.rdi; split
  · next hi =>
    have hk : f.key i / 32 / 65536 = f.base / 65536 := by unfold Fld.key; omega
    exact h.regs _ (by omega) (by rw [hk]; exact hf.1.2)
  · rfl

theorem Only.rd {M : Nat} {a t : State} (h : Only M a t) (f : Fld) (hf : fr M f = true) : t.rd f = a.rd f := h.rdi f 0 hf

theorem Only.bit {M : Nat} {a t : State} (h : Only M a t) (f : Fld) (hf : fr M f = true) : t.bit f = a.bit f := by
  unfold State.bit; rw [h.rd f hf]

namespace State
variable (s : State)

theorem rd_def (f : Fld) : s.rd f = s.rdi f 0 := rfl
theorem wr_def (f : Fld) (v : Nat) : s.wr f v = s.wri f 0 v := rfl

/-- A read after a write of the same entry gives the value, cut to the field's width. -/
theorem rdi_wri_self {f : Fld} {i : Nat} (v : Nat) (h : i < f.count) : (s.wri f i v).rdi f i = v % 2 ^ f.w := by
  simp only [wri, rdi, h, if_true]; exact tget_tput_self _ _ _ _

/-- A write leaves the other entries of its field. -/
theorem rdi_wri_entry {f : Fld} {i j : Nat} (v : Nat) (h : i ≠ j) : (s.wri f i v).rdi f j = s.rdi f j := by
  unfold wri; split
  · unfold rdi; split
    · exact tget_tput_ne _ _ _ (by unfold Fld.key; omega)
    · rfl
  · rfl

/-- A write leaves every field that lies apart. -/
theorem rdi_wri_apart {f g : Fld} (i j v : Nat) (h : apart f g = true) : (s.wri f i v).rdi g j = s.rdi g j := by
  simp only [apart, Bool.and_eq_true, Bool.or_eq_true, decide_eq_true_eq] at h
  unfold wri; split
  · unfold rdi; split
    · exact tget_tput_ne _ _ _ (by unfold Fld.key; omega)
    · rfl
  · rfl

theorem rd_wr_self {f : Fld} (v : Nat) (h : 0 < f.count) : (s.wr f v).rd f = v % 2 ^ f.w := s.rdi_wri_self v h
theorem rd_wr_apart {f g : Fld} (v : Nat) (h : apart f g = true) : (s.wr f v).rd g = s.rd g := s.rdi_wri_apart 0 0 v h

theorem cell_setCell_self (c : Nat) (x : Cell) : (s.setCell c x).cell c = x := tget_tput_self _ _ _ _
theorem cell_setCell_ne {c d : Nat} (x : Cell) (h : c ≠ d) : (s.setCell c x).cell d = s.cell d := tget_tput_ne _ _ _ h
theorem cell_updCell_self (c : Nat) (g : Cell → Cell) : (s.updCell c g).cell c = g (s.cell c) := tget_tput_self _ _ _ _
theorem cell_updCell_ne {c d : Nat} (g : Cell → Cell) (h : c ≠ d) : (s.updCell c g).cell d = s.cell d := tget_tput_ne _ _ _ h

/-- A read of a field looks at the register file alone. -/
theorem rdi_mk {xp xtm xclk xpwr xhst xtri xslc xsaf xrings xcells xlaw xlawC xsp xsched xadc xmtr xjr xthm xaux xfree xout} (f : Fld) (i : Nat) : (State.mk xp s.regs xtm xclk xpwr xhst xtri xslc xsaf xrings xcells xlaw xlawC xsp xsched xadc xmtr xjr xthm xaux xfree xout).rdi f i = s.rdi f i := rfl
theorem cell_mk {xp xr xtm xclk xpwr xhst xtri xslc xsaf xrings xlaw xlawC xsp xsched xadc xmtr xjr xthm xaux xfree xout} (c : Nat) : (State.mk xp xr xtm xclk xpwr xhst xtri xslc xsaf xrings s.cells xlaw xlawC xsp xsched xadc xmtr xjr xthm xaux xfree xout).cell c = s.cell c := rfl
theorem ring_mk {xp xr xtm xclk xpwr xhst xtri xslc xsaf xcells xlaw xlawC xsp xsched xadc xmtr xjr xthm xaux xfree xout} (r : Nat) : (State.mk xp xr xtm xclk xpwr xhst xtri xslc xsaf s.rings xcells xlaw xlawC xsp xsched xadc xmtr xjr xthm xaux xfree xout).ring r = s.ring r := rfl
theorem wri_cell (f : Fld) (i v c : Nat) : (s.wri f i v).cell c = s.cell c := by unfold wri; split <;> rfl
theorem wri_ring (f : Fld) (i v c : Nat) : (s.wri f i v).ring c = s.ring c := by unfold wri; split <;> rfl
theorem rdi_setCell (c : Nat) (x : Cell) (f : Fld) (i : Nat) : (s.setCell c x).rdi f i = s.rdi f i := rfl

theorem live_on {g : State → State} (h : s.pwr.mainOn = true) : s.live g = g s := by unfold live; rw [if_pos h]
theorem live_off {g : State → State} (h : s.pwr.mainOn = false) : s.live g = s := by unfold live; rw [h]; rfl

@[simp] theorem wri_tm (f : Fld) (i v : Nat) : (s.wri f i v).tm = s.tm := by unfold wri; split <;> rfl
@[simp] theorem wr_tm (f : Fld) (v : Nat) : (s.wr f v).tm = s.tm := s.wri_tm f 0 v
@[simp] theorem refuse_tm (f : Fld) : (s.refuse f).tm = s.tm := s.wri_tm f 0 1
@[simp] theorem inc_tm (f : Fld) (v : Nat) : (s.inc f v).tm = s.tm := by unfold inc inci; exact s.wri_tm ..
@[simp] theorem inci_tm (f : Fld) (i v : Nat) : (s.inci f i v).tm = s.tm := s.wri_tm ..
@[simp] theorem activate_tm (f : Fld) (i : Nat) : (s.activate f i).tm = s.tm := by unfold activate; split <;> rfl
@[simp] theorem wri_clk (f : Fld) (i v : Nat) : (s.wri f i v).clk = s.clk := by unfold wri; split <;> rfl
@[simp] theorem wr_clk (f : Fld) (v : Nat) : (s.wr f v).clk = s.clk := s.wri_clk f 0 v
@[simp] theorem refuse_clk (f : Fld) : (s.refuse f).clk = s.clk := s.wri_clk f 0 1
@[simp] theorem inc_clk (f : Fld) (v : Nat) : (s.inc f v).clk = s.clk := by unfold inc inci; exact s.wri_clk ..
@[simp] theorem inci_clk (f : Fld) (i v : Nat) : (s.inci f i v).clk = s.clk := s.wri_clk ..
@[simp] theorem activate_clk (f : Fld) (i : Nat) : (s.activate f i).clk = s.clk := by unfold activate; split <;> rfl
@[simp] theorem wri_pwr (f : Fld) (i v : Nat) : (s.wri f i v).pwr = s.pwr := by unfold wri; split <;> rfl
@[simp] theorem wr_pwr (f : Fld) (v : Nat) : (s.wr f v).pwr = s.pwr := s.wri_pwr f 0 v
@[simp] theorem refuse_pwr (f : Fld) : (s.refuse f).pwr = s.pwr := s.wri_pwr f 0 1
@[simp] theorem inc_pwr (f : Fld) (v : Nat) : (s.inc f v).pwr = s.pwr := by unfold inc inci; exact s.wri_pwr ..
@[simp] theorem inci_pwr (f : Fld) (i v : Nat) : (s.inci f i v).pwr = s.pwr := s.wri_pwr ..
@[simp] theorem activate_pwr (f : Fld) (i : Nat) : (s.activate f i).pwr = s.pwr := by unfold activate; split <;> rfl
@[simp] theorem wri_hst (f : Fld) (i v : Nat) : (s.wri f i v).hst = s.hst := by unfold wri; split <;> rfl
@[simp] theorem wr_hst (f : Fld) (v : Nat) : (s.wr f v).hst = s.hst := s.wri_hst f 0 v
@[simp] theorem refuse_hst (f : Fld) : (s.refuse f).hst = s.hst := s.wri_hst f 0 1
@[simp] theorem inc_hst (f : Fld) (v : Nat) : (s.inc f v).hst = s.hst := by unfold inc inci; exact s.wri_hst ..
@[simp] theorem inci_hst (f : Fld) (i v : Nat) : (s.inci f i v).hst = s.hst := s.wri_hst ..
@[simp] theorem activate_hst (f : Fld) (i : Nat) : (s.activate f i).hst = s.hst := by unfold activate; split <;> rfl
@[simp] theorem wri_tri (f : Fld) (i v : Nat) : (s.wri f i v).tri = s.tri := by unfold wri; split <;> rfl
@[simp] theorem wr_tri (f : Fld) (v : Nat) : (s.wr f v).tri = s.tri := s.wri_tri f 0 v
@[simp] theorem refuse_tri (f : Fld) : (s.refuse f).tri = s.tri := s.wri_tri f 0 1
@[simp] theorem inc_tri (f : Fld) (v : Nat) : (s.inc f v).tri = s.tri := by unfold inc inci; exact s.wri_tri ..
@[simp] theorem inci_tri (f : Fld) (i v : Nat) : (s.inci f i v).tri = s.tri := s.wri_tri ..
@[simp] theorem activate_tri (f : Fld) (i : Nat) : (s.activate f i).tri = s.tri := by unfold activate; split <;> rfl
@[simp] theorem wri_slc (f : Fld) (i v : Nat) : (s.wri f i v).slc = s.slc := by unfold wri; split <;> rfl
@[simp] theorem wr_slc (f : Fld) (v : Nat) : (s.wr f v).slc = s.slc := s.wri_slc f 0 v
@[simp] theorem refuse_slc (f : Fld) : (s.refuse f).slc = s.slc := s.wri_slc f 0 1
@[simp] theorem inc_slc (f : Fld) (v : Nat) : (s.inc f v).slc = s.slc := by unfold inc inci; exact s.wri_slc ..
@[simp] theorem inci_slc (f : Fld) (i v : Nat) : (s.inci f i v).slc = s.slc := s.wri_slc ..
@[simp] theorem activate_slc (f : Fld) (i : Nat) : (s.activate f i).slc = s.slc := by unfold activate; split <;> rfl
@[simp] theorem wri_saf (f : Fld) (i v : Nat) : (s.wri f i v).saf = s.saf := by unfold wri; split <;> rfl
@[simp] theorem wr_saf (f : Fld) (v : Nat) : (s.wr f v).saf = s.saf := s.wri_saf f 0 v
@[simp] theorem refuse_saf (f : Fld) : (s.refuse f).saf = s.saf := s.wri_saf f 0 1
@[simp] theorem inc_saf (f : Fld) (v : Nat) : (s.inc f v).saf = s.saf := by unfold inc inci; exact s.wri_saf ..
@[simp] theorem inci_saf (f : Fld) (i v : Nat) : (s.inci f i v).saf = s.saf := s.wri_saf ..
@[simp] theorem activate_saf (f : Fld) (i : Nat) : (s.activate f i).saf = s.saf := by unfold activate; split <;> rfl
@[simp] theorem wri_rings (f : Fld) (i v : Nat) : (s.wri f i v).rings = s.rings := by unfold wri; split <;> rfl
@[simp] theorem wr_rings (f : Fld) (v : Nat) : (s.wr f v).rings = s.rings := s.wri_rings f 0 v
@[simp] theorem refuse_rings (f : Fld) : (s.refuse f).rings = s.rings := s.wri_rings f 0 1
@[simp] theorem inc_rings (f : Fld) (v : Nat) : (s.inc f v).rings = s.rings := by unfold inc inci; exact s.wri_rings ..
@[simp] theorem inci_rings (f : Fld) (i v : Nat) : (s.inci f i v).rings = s.rings := s.wri_rings ..
@[simp] theorem activate_rings (f : Fld) (i : Nat) : (s.activate f i).rings = s.rings := by unfold activate; split <;> rfl
@[simp] theorem wri_cells (f : Fld) (i v : Nat) : (s.wri f i v).cells = s.cells := by unfold wri; split <;> rfl
@[simp] theorem wr_cells (f : Fld) (v : Nat) : (s.wr f v).cells = s.cells := s.wri_cells f 0 v
@[simp] theorem refuse_cells (f : Fld) : (s.refuse f).cells = s.cells := s.wri_cells f 0 1
@[simp] theorem inc_cells (f : Fld) (v : Nat) : (s.inc f v).cells = s.cells := by unfold inc inci; exact s.wri_cells ..
@[simp] theorem inci_cells (f : Fld) (i v : Nat) : (s.inci f i v).cells = s.cells := s.wri_cells ..
@[simp] theorem activate_cells (f : Fld) (i : Nat) : (s.activate f i).cells = s.cells := by unfold activate; split <;> rfl
@[simp] theorem wri_law (f : Fld) (i v : Nat) : (s.wri f i v).law = s.law := by unfold wri; split <;> rfl
@[simp] theorem wr_law (f : Fld) (v : Nat) : (s.wr f v).law = s.law := s.wri_law f 0 v
@[simp] theorem refuse_law (f : Fld) : (s.refuse f).law = s.law := s.wri_law f 0 1
@[simp] theorem inc_law (f : Fld) (v : Nat) : (s.inc f v).law = s.law := by unfold inc inci; exact s.wri_law ..
@[simp] theorem inci_law (f : Fld) (i v : Nat) : (s.inci f i v).law = s.law := s.wri_law ..
@[simp] theorem activate_law (f : Fld) (i : Nat) : (s.activate f i).law = s.law := by unfold activate; split <;> rfl
@[simp] theorem wri_lawC (f : Fld) (i v : Nat) : (s.wri f i v).lawC = s.lawC := by unfold wri; split <;> rfl
@[simp] theorem wr_lawC (f : Fld) (v : Nat) : (s.wr f v).lawC = s.lawC := s.wri_lawC f 0 v
@[simp] theorem refuse_lawC (f : Fld) : (s.refuse f).lawC = s.lawC := s.wri_lawC f 0 1
@[simp] theorem inc_lawC (f : Fld) (v : Nat) : (s.inc f v).lawC = s.lawC := by unfold inc inci; exact s.wri_lawC ..
@[simp] theorem inci_lawC (f : Fld) (i v : Nat) : (s.inci f i v).lawC = s.lawC := s.wri_lawC ..
@[simp] theorem activate_lawC (f : Fld) (i : Nat) : (s.activate f i).lawC = s.lawC := by unfold activate; split <;> rfl
@[simp] theorem wri_sp (f : Fld) (i v : Nat) : (s.wri f i v).sp = s.sp := by unfold wri; split <;> rfl
@[simp] theorem wr_sp (f : Fld) (v : Nat) : (s.wr f v).sp = s.sp := s.wri_sp f 0 v
@[simp] theorem refuse_sp (f : Fld) : (s.refuse f).sp = s.sp := s.wri_sp f 0 1
@[simp] theorem inc_sp (f : Fld) (v : Nat) : (s.inc f v).sp = s.sp := by unfold inc inci; exact s.wri_sp ..
@[simp] theorem inci_sp (f : Fld) (i v : Nat) : (s.inci f i v).sp = s.sp := s.wri_sp ..
@[simp] theorem activate_sp (f : Fld) (i : Nat) : (s.activate f i).sp = s.sp := by unfold activate; split <;> rfl
@[simp] theorem wri_sched (f : Fld) (i v : Nat) : (s.wri f i v).sched = s.sched := by unfold wri; split <;> rfl
@[simp] theorem wr_sched (f : Fld) (v : Nat) : (s.wr f v).sched = s.sched := s.wri_sched f 0 v
@[simp] theorem refuse_sched (f : Fld) : (s.refuse f).sched = s.sched := s.wri_sched f 0 1
@[simp] theorem inc_sched (f : Fld) (v : Nat) : (s.inc f v).sched = s.sched := by unfold inc inci; exact s.wri_sched ..
@[simp] theorem inci_sched (f : Fld) (i v : Nat) : (s.inci f i v).sched = s.sched := s.wri_sched ..
@[simp] theorem activate_sched (f : Fld) (i : Nat) : (s.activate f i).sched = s.sched := by unfold activate; split <;> rfl
@[simp] theorem wri_adc (f : Fld) (i v : Nat) : (s.wri f i v).adc = s.adc := by unfold wri; split <;> rfl
@[simp] theorem wr_adc (f : Fld) (v : Nat) : (s.wr f v).adc = s.adc := s.wri_adc f 0 v
@[simp] theorem refuse_adc (f : Fld) : (s.refuse f).adc = s.adc := s.wri_adc f 0 1
@[simp] theorem inc_adc (f : Fld) (v : Nat) : (s.inc f v).adc = s.adc := by unfold inc inci; exact s.wri_adc ..
@[simp] theorem inci_adc (f : Fld) (i v : Nat) : (s.inci f i v).adc = s.adc := s.wri_adc ..
@[simp] theorem activate_adc (f : Fld) (i : Nat) : (s.activate f i).adc = s.adc := by unfold activate; split <;> rfl
@[simp] theorem wri_mtr (f : Fld) (i v : Nat) : (s.wri f i v).mtr = s.mtr := by unfold wri; split <;> rfl
@[simp] theorem wr_mtr (f : Fld) (v : Nat) : (s.wr f v).mtr = s.mtr := s.wri_mtr f 0 v
@[simp] theorem refuse_mtr (f : Fld) : (s.refuse f).mtr = s.mtr := s.wri_mtr f 0 1
@[simp] theorem inc_mtr (f : Fld) (v : Nat) : (s.inc f v).mtr = s.mtr := by unfold inc inci; exact s.wri_mtr ..
@[simp] theorem inci_mtr (f : Fld) (i v : Nat) : (s.inci f i v).mtr = s.mtr := s.wri_mtr ..
@[simp] theorem activate_mtr (f : Fld) (i : Nat) : (s.activate f i).mtr = s.mtr := by unfold activate; split <;> rfl
@[simp] theorem wri_jr (f : Fld) (i v : Nat) : (s.wri f i v).jr = s.jr := by unfold wri; split <;> rfl
@[simp] theorem wr_jr (f : Fld) (v : Nat) : (s.wr f v).jr = s.jr := s.wri_jr f 0 v
@[simp] theorem refuse_jr (f : Fld) : (s.refuse f).jr = s.jr := s.wri_jr f 0 1
@[simp] theorem inc_jr (f : Fld) (v : Nat) : (s.inc f v).jr = s.jr := by unfold inc inci; exact s.wri_jr ..
@[simp] theorem inci_jr (f : Fld) (i v : Nat) : (s.inci f i v).jr = s.jr := s.wri_jr ..
@[simp] theorem activate_jr (f : Fld) (i : Nat) : (s.activate f i).jr = s.jr := by unfold activate; split <;> rfl
@[simp] theorem wri_thm (f : Fld) (i v : Nat) : (s.wri f i v).thm = s.thm := by unfold wri; split <;> rfl
@[simp] theorem wr_thm (f : Fld) (v : Nat) : (s.wr f v).thm = s.thm := s.wri_thm f 0 v
@[simp] theorem refuse_thm (f : Fld) : (s.refuse f).thm = s.thm := s.wri_thm f 0 1
@[simp] theorem inc_thm (f : Fld) (v : Nat) : (s.inc f v).thm = s.thm := by unfold inc inci; exact s.wri_thm ..
@[simp] theorem inci_thm (f : Fld) (i v : Nat) : (s.inci f i v).thm = s.thm := s.wri_thm ..
@[simp] theorem activate_thm (f : Fld) (i : Nat) : (s.activate f i).thm = s.thm := by unfold activate; split <;> rfl
@[simp] theorem wri_aux (f : Fld) (i v : Nat) : (s.wri f i v).aux = s.aux := by unfold wri; split <;> rfl
@[simp] theorem wr_aux (f : Fld) (v : Nat) : (s.wr f v).aux = s.aux := s.wri_aux f 0 v
@[simp] theorem refuse_aux (f : Fld) : (s.refuse f).aux = s.aux := s.wri_aux f 0 1
@[simp] theorem inc_aux (f : Fld) (v : Nat) : (s.inc f v).aux = s.aux := by unfold inc inci; exact s.wri_aux ..
@[simp] theorem inci_aux (f : Fld) (i v : Nat) : (s.inci f i v).aux = s.aux := s.wri_aux ..
@[simp] theorem activate_aux (f : Fld) (i : Nat) : (s.activate f i).aux = s.aux := by unfold activate; split <;> rfl
@[simp] theorem wri_free (f : Fld) (i v : Nat) : (s.wri f i v).free = s.free := by unfold wri; split <;> rfl
@[simp] theorem wr_free (f : Fld) (v : Nat) : (s.wr f v).free = s.free := s.wri_free f 0 v
@[simp] theorem refuse_free (f : Fld) : (s.refuse f).free = s.free := s.wri_free f 0 1
@[simp] theorem inc_free (f : Fld) (v : Nat) : (s.inc f v).free = s.free := by unfold inc inci; exact s.wri_free ..
@[simp] theorem inci_free (f : Fld) (i v : Nat) : (s.inci f i v).free = s.free := s.wri_free ..
@[simp] theorem activate_free (f : Fld) (i : Nat) : (s.activate f i).free = s.free := by unfold activate; split <;> rfl
@[simp] theorem wri_out (f : Fld) (i v : Nat) : (s.wri f i v).out = s.out := by unfold wri; split <;> rfl
@[simp] theorem wr_out (f : Fld) (v : Nat) : (s.wr f v).out = s.out := s.wri_out f 0 v
@[simp] theorem refuse_out (f : Fld) : (s.refuse f).out = s.out := s.wri_out f 0 1
@[simp] theorem inc_out (f : Fld) (v : Nat) : (s.inc f v).out = s.out := by unfold inc inci; exact s.wri_out ..
@[simp] theorem inci_out (f : Fld) (i v : Nat) : (s.inci f i v).out = s.out := s.wri_out ..
@[simp] theorem activate_out (f : Fld) (i : Nat) : (s.activate f i).out = s.out := by unfold activate; split <;> rfl
/-- All that `captureEvent` may change. -/
theorem captureEvent_only (x1_) : Only 0x40000020000000 s (s.captureEvent x1_) := Only.captureEvent (Only.refl _ s) x1_ rfl
@[simp] theorem rdi_captureEvent (x1_) (f' : Fld) (i : Nat) (hf : fr 0x40000020000000 f' = true) : (s.captureEvent x1_).rdi f' i = s.rdi f' i :=
  (s.captureEvent_only x1_).rdi f' i hf
@[simp] theorem captureEvent_tm (x1_) : (s.captureEvent x1_).tm = s.tm := (s.captureEvent_only x1_).tm rfl
@[simp] theorem captureEvent_clk (x1_) : (s.captureEvent x1_).clk = s.clk := (s.captureEvent_only x1_).clk rfl
@[simp] theorem captureEvent_pwr (x1_) : (s.captureEvent x1_).pwr = s.pwr := (s.captureEvent_only x1_).pwr rfl
@[simp] theorem captureEvent_hst (x1_) : (s.captureEvent x1_).hst = s.hst := (s.captureEvent_only x1_).hst rfl
@[simp] theorem captureEvent_tri (x1_) : (s.captureEvent x1_).tri = s.tri := (s.captureEvent_only x1_).tri rfl
@[simp] theorem captureEvent_slc (x1_) : (s.captureEvent x1_).slc = s.slc := (s.captureEvent_only x1_).slc rfl
@[simp] theorem captureEvent_saf (x1_) : (s.captureEvent x1_).saf = s.saf := (s.captureEvent_only x1_).saf rfl
@[simp] theorem captureEvent_rings (x1_) : (s.captureEvent x1_).rings = s.rings := (s.captureEvent_only x1_).rings rfl
@[simp] theorem captureEvent_cells (x1_) : (s.captureEvent x1_).cells = s.cells := (s.captureEvent_only x1_).cells rfl
@[simp] theorem captureEvent_law (x1_) : (s.captureEvent x1_).law = s.law := (s.captureEvent_only x1_).law rfl
@[simp] theorem captureEvent_lawC (x1_) : (s.captureEvent x1_).lawC = s.lawC := (s.captureEvent_only x1_).lawC rfl
@[simp] theorem captureEvent_sp (x1_) : (s.captureEvent x1_).sp = s.sp := (s.captureEvent_only x1_).sp rfl
@[simp] theorem captureEvent_sched (x1_) : (s.captureEvent x1_).sched = s.sched := (s.captureEvent_only x1_).sched rfl
@[simp] theorem captureEvent_mtr (x1_) : (s.captureEvent x1_).mtr = s.mtr := (s.captureEvent_only x1_).mtr rfl
@[simp] theorem captureEvent_jr (x1_) : (s.captureEvent x1_).jr = s.jr := (s.captureEvent_only x1_).jr rfl
@[simp] theorem captureEvent_thm (x1_) : (s.captureEvent x1_).thm = s.thm := (s.captureEvent_only x1_).thm rfl
@[simp] theorem captureEvent_aux (x1_) : (s.captureEvent x1_).aux = s.aux := (s.captureEvent_only x1_).aux rfl
@[simp] theorem captureEvent_free (x1_) : (s.captureEvent x1_).free = s.free := (s.captureEvent_only x1_).free rfl
@[simp] theorem captureEvent_out (x1_) : (s.captureEvent x1_).out = s.out := (s.captureEvent_only x1_).out rfl
/-- All that `used` may change. -/
theorem used_only : Only 0x800000000000000 s (s.used) := Only.used (Only.refl _ s) rfl
@[simp] theorem rdi_used (f' : Fld) (i : Nat) (hf : fr 0x800000000000000 f' = true) : (s.used).rdi f' i = s.rdi f' i :=
  (s.used_only).rdi f' i hf
@[simp] theorem used_tm : (s.used).tm = s.tm := (s.used_only).tm rfl
@[simp] theorem used_clk : (s.used).clk = s.clk := (s.used_only).clk rfl
@[simp] theorem used_pwr : (s.used).pwr = s.pwr := (s.used_only).pwr rfl
@[simp] theorem used_hst : (s.used).hst = s.hst := (s.used_only).hst rfl
@[simp] theorem used_tri : (s.used).tri = s.tri := (s.used_only).tri rfl
@[simp] theorem used_slc : (s.used).slc = s.slc := (s.used_only).slc rfl
@[simp] theorem used_saf : (s.used).saf = s.saf := (s.used_only).saf rfl
@[simp] theorem used_rings : (s.used).rings = s.rings := (s.used_only).rings rfl
@[simp] theorem used_cells : (s.used).cells = s.cells := (s.used_only).cells rfl
@[simp] theorem used_law : (s.used).law = s.law := (s.used_only).law rfl
@[simp] theorem used_lawC : (s.used).lawC = s.lawC := (s.used_only).lawC rfl
@[simp] theorem used_sp : (s.used).sp = s.sp := (s.used_only).sp rfl
@[simp] theorem used_sched : (s.used).sched = s.sched := (s.used_only).sched rfl
@[simp] theorem used_adc : (s.used).adc = s.adc := (s.used_only).adc rfl
@[simp] theorem used_mtr : (s.used).mtr = s.mtr := (s.used_only).mtr rfl
@[simp] theorem used_jr : (s.used).jr = s.jr := (s.used_only).jr rfl
@[simp] theorem used_thm : (s.used).thm = s.thm := (s.used_only).thm rfl
@[simp] theorem used_aux : (s.used).aux = s.aux := (s.used_only).aux rfl
@[simp] theorem used_out : (s.used).out = s.out := (s.used_only).out rfl
/-- All that `emit` may change. -/
theorem emit_only (x1_) : Only 0x1000000000000000 s (s.emit x1_) := Only.emit (Only.refl _ s) x1_ rfl
@[simp] theorem rdi_emit (x1_) (f' : Fld) (i : Nat) (hf : fr 0x1000000000000000 f' = true) : (s.emit x1_).rdi f' i = s.rdi f' i :=
  (s.emit_only x1_).rdi f' i hf
@[simp] theorem emit_tm (x1_) : (s.emit x1_).tm = s.tm := (s.emit_only x1_).tm rfl
@[simp] theorem emit_clk (x1_) : (s.emit x1_).clk = s.clk := (s.emit_only x1_).clk rfl
@[simp] theorem emit_pwr (x1_) : (s.emit x1_).pwr = s.pwr := (s.emit_only x1_).pwr rfl
@[simp] theorem emit_hst (x1_) : (s.emit x1_).hst = s.hst := (s.emit_only x1_).hst rfl
@[simp] theorem emit_tri (x1_) : (s.emit x1_).tri = s.tri := (s.emit_only x1_).tri rfl
@[simp] theorem emit_slc (x1_) : (s.emit x1_).slc = s.slc := (s.emit_only x1_).slc rfl
@[simp] theorem emit_saf (x1_) : (s.emit x1_).saf = s.saf := (s.emit_only x1_).saf rfl
@[simp] theorem emit_rings (x1_) : (s.emit x1_).rings = s.rings := (s.emit_only x1_).rings rfl
@[simp] theorem emit_cells (x1_) : (s.emit x1_).cells = s.cells := (s.emit_only x1_).cells rfl
@[simp] theorem emit_law (x1_) : (s.emit x1_).law = s.law := (s.emit_only x1_).law rfl
@[simp] theorem emit_lawC (x1_) : (s.emit x1_).lawC = s.lawC := (s.emit_only x1_).lawC rfl
@[simp] theorem emit_sp (x1_) : (s.emit x1_).sp = s.sp := (s.emit_only x1_).sp rfl
@[simp] theorem emit_sched (x1_) : (s.emit x1_).sched = s.sched := (s.emit_only x1_).sched rfl
@[simp] theorem emit_adc (x1_) : (s.emit x1_).adc = s.adc := (s.emit_only x1_).adc rfl
@[simp] theorem emit_mtr (x1_) : (s.emit x1_).mtr = s.mtr := (s.emit_only x1_).mtr rfl
@[simp] theorem emit_jr (x1_) : (s.emit x1_).jr = s.jr := (s.emit_only x1_).jr rfl
@[simp] theorem emit_thm (x1_) : (s.emit x1_).thm = s.thm := (s.emit_only x1_).thm rfl
@[simp] theorem emit_aux (x1_) : (s.emit x1_).aux = s.aux := (s.emit_only x1_).aux rfl
@[simp] theorem emit_free (x1_) : (s.emit x1_).free = s.free := (s.emit_only x1_).free rfl
/-- All that `startJob` may change. -/
theorem startJob_only (x1_ x2_ x3_) : Only 0x1000100000000000 s (s.startJob x1_ x2_ x3_) := Only.startJob (Only.refl _ s) x1_ x2_ x3_ rfl
@[simp] theorem rdi_startJob (x1_ x2_ x3_) (f' : Fld) (i : Nat) (hf : fr 0x1000100000000000 f' = true) : (s.startJob x1_ x2_ x3_).rdi f' i = s.rdi f' i :=
  (s.startJob_only x1_ x2_ x3_).rdi f' i hf
@[simp] theorem startJob_tm (x1_ x2_ x3_) : (s.startJob x1_ x2_ x3_).tm = s.tm := (s.startJob_only x1_ x2_ x3_).tm rfl
@[simp] theorem startJob_clk (x1_ x2_ x3_) : (s.startJob x1_ x2_ x3_).clk = s.clk := (s.startJob_only x1_ x2_ x3_).clk rfl
@[simp] theorem startJob_pwr (x1_ x2_ x3_) : (s.startJob x1_ x2_ x3_).pwr = s.pwr := (s.startJob_only x1_ x2_ x3_).pwr rfl
@[simp] theorem startJob_tri (x1_ x2_ x3_) : (s.startJob x1_ x2_ x3_).tri = s.tri := (s.startJob_only x1_ x2_ x3_).tri rfl
@[simp] theorem startJob_slc (x1_ x2_ x3_) : (s.startJob x1_ x2_ x3_).slc = s.slc := (s.startJob_only x1_ x2_ x3_).slc rfl
@[simp] theorem startJob_saf (x1_ x2_ x3_) : (s.startJob x1_ x2_ x3_).saf = s.saf := (s.startJob_only x1_ x2_ x3_).saf rfl
@[simp] theorem startJob_rings (x1_ x2_ x3_) : (s.startJob x1_ x2_ x3_).rings = s.rings := (s.startJob_only x1_ x2_ x3_).rings rfl
@[simp] theorem startJob_cells (x1_ x2_ x3_) : (s.startJob x1_ x2_ x3_).cells = s.cells := (s.startJob_only x1_ x2_ x3_).cells rfl
@[simp] theorem startJob_law (x1_ x2_ x3_) : (s.startJob x1_ x2_ x3_).law = s.law := (s.startJob_only x1_ x2_ x3_).law rfl
@[simp] theorem startJob_lawC (x1_ x2_ x3_) : (s.startJob x1_ x2_ x3_).lawC = s.lawC := (s.startJob_only x1_ x2_ x3_).lawC rfl
@[simp] theorem startJob_sp (x1_ x2_ x3_) : (s.startJob x1_ x2_ x3_).sp = s.sp := (s.startJob_only x1_ x2_ x3_).sp rfl
@[simp] theorem startJob_sched (x1_ x2_ x3_) : (s.startJob x1_ x2_ x3_).sched = s.sched := (s.startJob_only x1_ x2_ x3_).sched rfl
@[simp] theorem startJob_adc (x1_ x2_ x3_) : (s.startJob x1_ x2_ x3_).adc = s.adc := (s.startJob_only x1_ x2_ x3_).adc rfl
@[simp] theorem startJob_mtr (x1_ x2_ x3_) : (s.startJob x1_ x2_ x3_).mtr = s.mtr := (s.startJob_only x1_ x2_ x3_).mtr rfl
@[simp] theorem startJob_jr (x1_ x2_ x3_) : (s.startJob x1_ x2_ x3_).jr = s.jr := (s.startJob_only x1_ x2_ x3_).jr rfl
@[simp] theorem startJob_thm (x1_ x2_ x3_) : (s.startJob x1_ x2_ x3_).thm = s.thm := (s.startJob_only x1_ x2_ x3_).thm rfl
@[simp] theorem startJob_aux (x1_ x2_ x3_) : (s.startJob x1_ x2_ x3_).aux = s.aux := (s.startJob_only x1_ x2_ x3_).aux rfl
@[simp] theorem startJob_free (x1_ x2_ x3_) : (s.startJob x1_ x2_ x3_).free = s.free := (s.startJob_only x1_ x2_ x3_).free rfl
/-- All that `askEntry` may change. -/
theorem askEntry_only (x1_ x2_) : Only 0x1000100000000000 s (s.askEntry x1_ x2_) := Only.askEntry (Only.refl _ s) x1_ x2_ rfl
@[simp] theorem rdi_askEntry (x1_ x2_) (f' : Fld) (i : Nat) (hf : fr 0x1000100000000000 f' = true) : (s.askEntry x1_ x2_).rdi f' i = s.rdi f' i :=
  (s.askEntry_only x1_ x2_).rdi f' i hf
@[simp] theorem askEntry_tm (x1_ x2_) : (s.askEntry x1_ x2_).tm = s.tm := (s.askEntry_only x1_ x2_).tm rfl
@[simp] theorem askEntry_clk (x1_ x2_) : (s.askEntry x1_ x2_).clk = s.clk := (s.askEntry_only x1_ x2_).clk rfl
@[simp] theorem askEntry_pwr (x1_ x2_) : (s.askEntry x1_ x2_).pwr = s.pwr := (s.askEntry_only x1_ x2_).pwr rfl
@[simp] theorem askEntry_tri (x1_ x2_) : (s.askEntry x1_ x2_).tri = s.tri := (s.askEntry_only x1_ x2_).tri rfl
@[simp] theorem askEntry_slc (x1_ x2_) : (s.askEntry x1_ x2_).slc = s.slc := (s.askEntry_only x1_ x2_).slc rfl
@[simp] theorem askEntry_saf (x1_ x2_) : (s.askEntry x1_ x2_).saf = s.saf := (s.askEntry_only x1_ x2_).saf rfl
@[simp] theorem askEntry_rings (x1_ x2_) : (s.askEntry x1_ x2_).rings = s.rings := (s.askEntry_only x1_ x2_).rings rfl
@[simp] theorem askEntry_cells (x1_ x2_) : (s.askEntry x1_ x2_).cells = s.cells := (s.askEntry_only x1_ x2_).cells rfl
@[simp] theorem askEntry_law (x1_ x2_) : (s.askEntry x1_ x2_).law = s.law := (s.askEntry_only x1_ x2_).law rfl
@[simp] theorem askEntry_lawC (x1_ x2_) : (s.askEntry x1_ x2_).lawC = s.lawC := (s.askEntry_only x1_ x2_).lawC rfl
@[simp] theorem askEntry_sp (x1_ x2_) : (s.askEntry x1_ x2_).sp = s.sp := (s.askEntry_only x1_ x2_).sp rfl
@[simp] theorem askEntry_sched (x1_ x2_) : (s.askEntry x1_ x2_).sched = s.sched := (s.askEntry_only x1_ x2_).sched rfl
@[simp] theorem askEntry_adc (x1_ x2_) : (s.askEntry x1_ x2_).adc = s.adc := (s.askEntry_only x1_ x2_).adc rfl
@[simp] theorem askEntry_mtr (x1_ x2_) : (s.askEntry x1_ x2_).mtr = s.mtr := (s.askEntry_only x1_ x2_).mtr rfl
@[simp] theorem askEntry_jr (x1_ x2_) : (s.askEntry x1_ x2_).jr = s.jr := (s.askEntry_only x1_ x2_).jr rfl
@[simp] theorem askEntry_thm (x1_ x2_) : (s.askEntry x1_ x2_).thm = s.thm := (s.askEntry_only x1_ x2_).thm rfl
@[simp] theorem askEntry_aux (x1_ x2_) : (s.askEntry x1_ x2_).aux = s.aux := (s.askEntry_only x1_ x2_).aux rfl
@[simp] theorem askEntry_free (x1_ x2_) : (s.askEntry x1_ x2_).free = s.free := (s.askEntry_only x1_ x2_).free rfl
/-- All that `haltRing` may change. -/
theorem haltRing_only (x1_ x2_ x3_ x4_ x5_) : Only 0x200 s (s.haltRing x1_ x2_ x3_ x4_ x5_) := Only.haltRing (Only.refl _ s) x1_ x2_ x3_ x4_ x5_ rfl
@[simp] theorem rdi_haltRing (x1_ x2_ x3_ x4_ x5_) (f' : Fld) (i : Nat) (hf : fr 0x200 f' = true) : (s.haltRing x1_ x2_ x3_ x4_ x5_).rdi f' i = s.rdi f' i :=
  (s.haltRing_only x1_ x2_ x3_ x4_ x5_).rdi f' i hf
@[simp] theorem haltRing_tm (x1_ x2_ x3_ x4_ x5_) : (s.haltRing x1_ x2_ x3_ x4_ x5_).tm = s.tm := (s.haltRing_only x1_ x2_ x3_ x4_ x5_).tm rfl
@[simp] theorem haltRing_clk (x1_ x2_ x3_ x4_ x5_) : (s.haltRing x1_ x2_ x3_ x4_ x5_).clk = s.clk := (s.haltRing_only x1_ x2_ x3_ x4_ x5_).clk rfl
@[simp] theorem haltRing_pwr (x1_ x2_ x3_ x4_ x5_) : (s.haltRing x1_ x2_ x3_ x4_ x5_).pwr = s.pwr := (s.haltRing_only x1_ x2_ x3_ x4_ x5_).pwr rfl
@[simp] theorem haltRing_hst (x1_ x2_ x3_ x4_ x5_) : (s.haltRing x1_ x2_ x3_ x4_ x5_).hst = s.hst := (s.haltRing_only x1_ x2_ x3_ x4_ x5_).hst rfl
@[simp] theorem haltRing_tri (x1_ x2_ x3_ x4_ x5_) : (s.haltRing x1_ x2_ x3_ x4_ x5_).tri = s.tri := (s.haltRing_only x1_ x2_ x3_ x4_ x5_).tri rfl
@[simp] theorem haltRing_slc (x1_ x2_ x3_ x4_ x5_) : (s.haltRing x1_ x2_ x3_ x4_ x5_).slc = s.slc := (s.haltRing_only x1_ x2_ x3_ x4_ x5_).slc rfl
@[simp] theorem haltRing_saf (x1_ x2_ x3_ x4_ x5_) : (s.haltRing x1_ x2_ x3_ x4_ x5_).saf = s.saf := (s.haltRing_only x1_ x2_ x3_ x4_ x5_).saf rfl
@[simp] theorem haltRing_rings (x1_ x2_ x3_ x4_ x5_) : (s.haltRing x1_ x2_ x3_ x4_ x5_).rings = s.rings := (s.haltRing_only x1_ x2_ x3_ x4_ x5_).rings rfl
@[simp] theorem haltRing_cells (x1_ x2_ x3_ x4_ x5_) : (s.haltRing x1_ x2_ x3_ x4_ x5_).cells = s.cells := (s.haltRing_only x1_ x2_ x3_ x4_ x5_).cells rfl
@[simp] theorem haltRing_law (x1_ x2_ x3_ x4_ x5_) : (s.haltRing x1_ x2_ x3_ x4_ x5_).law = s.law := (s.haltRing_only x1_ x2_ x3_ x4_ x5_).law rfl
@[simp] theorem haltRing_lawC (x1_ x2_ x3_ x4_ x5_) : (s.haltRing x1_ x2_ x3_ x4_ x5_).lawC = s.lawC := (s.haltRing_only x1_ x2_ x3_ x4_ x5_).lawC rfl
@[simp] theorem haltRing_sp (x1_ x2_ x3_ x4_ x5_) : (s.haltRing x1_ x2_ x3_ x4_ x5_).sp = s.sp := (s.haltRing_only x1_ x2_ x3_ x4_ x5_).sp rfl
@[simp] theorem haltRing_sched (x1_ x2_ x3_ x4_ x5_) : (s.haltRing x1_ x2_ x3_ x4_ x5_).sched = s.sched := (s.haltRing_only x1_ x2_ x3_ x4_ x5_).sched rfl
@[simp] theorem haltRing_adc (x1_ x2_ x3_ x4_ x5_) : (s.haltRing x1_ x2_ x3_ x4_ x5_).adc = s.adc := (s.haltRing_only x1_ x2_ x3_ x4_ x5_).adc rfl
@[simp] theorem haltRing_mtr (x1_ x2_ x3_ x4_ x5_) : (s.haltRing x1_ x2_ x3_ x4_ x5_).mtr = s.mtr := (s.haltRing_only x1_ x2_ x3_ x4_ x5_).mtr rfl
@[simp] theorem haltRing_jr (x1_ x2_ x3_ x4_ x5_) : (s.haltRing x1_ x2_ x3_ x4_ x5_).jr = s.jr := (s.haltRing_only x1_ x2_ x3_ x4_ x5_).jr rfl
@[simp] theorem haltRing_thm (x1_ x2_ x3_ x4_ x5_) : (s.haltRing x1_ x2_ x3_ x4_ x5_).thm = s.thm := (s.haltRing_only x1_ x2_ x3_ x4_ x5_).thm rfl
@[simp] theorem haltRing_aux (x1_ x2_ x3_ x4_ x5_) : (s.haltRing x1_ x2_ x3_ x4_ x5_).aux = s.aux := (s.haltRing_only x1_ x2_ x3_ x4_ x5_).aux rfl
@[simp] theorem haltRing_free (x1_ x2_ x3_ x4_ x5_) : (s.haltRing x1_ x2_ x3_ x4_ x5_).free = s.free := (s.haltRing_only x1_ x2_ x3_ x4_ x5_).free rfl
@[simp] theorem haltRing_out (x1_ x2_ x3_ x4_ x5_) : (s.haltRing x1_ x2_ x3_ x4_ x5_).out = s.out := (s.haltRing_only x1_ x2_ x3_ x4_ x5_).out rfl
/-- All that `recordPosted` may change. -/
theorem recordPosted_only (x1_ x2_) : Only 0x100000000000000 s (s.recordPosted x1_ x2_) := Only.recordPosted (Only.refl _ s) x1_ x2_ rfl
@[simp] theorem rdi_recordPosted (x1_ x2_) (f' : Fld) (i : Nat) (hf : fr 0x100000000000000 f' = true) : (s.recordPosted x1_ x2_).rdi f' i = s.rdi f' i :=
  (s.recordPosted_only x1_ x2_).rdi f' i hf
@[simp] theorem recordPosted_tm (x1_ x2_) : (s.recordPosted x1_ x2_).tm = s.tm := (s.recordPosted_only x1_ x2_).tm rfl
@[simp] theorem recordPosted_clk (x1_ x2_) : (s.recordPosted x1_ x2_).clk = s.clk := (s.recordPosted_only x1_ x2_).clk rfl
@[simp] theorem recordPosted_pwr (x1_ x2_) : (s.recordPosted x1_ x2_).pwr = s.pwr := (s.recordPosted_only x1_ x2_).pwr rfl
@[simp] theorem recordPosted_hst (x1_ x2_) : (s.recordPosted x1_ x2_).hst = s.hst := (s.recordPosted_only x1_ x2_).hst rfl
@[simp] theorem recordPosted_tri (x1_ x2_) : (s.recordPosted x1_ x2_).tri = s.tri := (s.recordPosted_only x1_ x2_).tri rfl
@[simp] theorem recordPosted_slc (x1_ x2_) : (s.recordPosted x1_ x2_).slc = s.slc := (s.recordPosted_only x1_ x2_).slc rfl
@[simp] theorem recordPosted_saf (x1_ x2_) : (s.recordPosted x1_ x2_).saf = s.saf := (s.recordPosted_only x1_ x2_).saf rfl
@[simp] theorem recordPosted_rings (x1_ x2_) : (s.recordPosted x1_ x2_).rings = s.rings := (s.recordPosted_only x1_ x2_).rings rfl
@[simp] theorem recordPosted_cells (x1_ x2_) : (s.recordPosted x1_ x2_).cells = s.cells := (s.recordPosted_only x1_ x2_).cells rfl
@[simp] theorem recordPosted_law (x1_ x2_) : (s.recordPosted x1_ x2_).law = s.law := (s.recordPosted_only x1_ x2_).law rfl
@[simp] theorem recordPosted_lawC (x1_ x2_) : (s.recordPosted x1_ x2_).lawC = s.lawC := (s.recordPosted_only x1_ x2_).lawC rfl
@[simp] theorem recordPosted_sp (x1_ x2_) : (s.recordPosted x1_ x2_).sp = s.sp := (s.recordPosted_only x1_ x2_).sp rfl
@[simp] theorem recordPosted_sched (x1_ x2_) : (s.recordPosted x1_ x2_).sched = s.sched := (s.recordPosted_only x1_ x2_).sched rfl
@[simp] theorem recordPosted_adc (x1_ x2_) : (s.recordPosted x1_ x2_).adc = s.adc := (s.recordPosted_only x1_ x2_).adc rfl
@[simp] theorem recordPosted_mtr (x1_ x2_) : (s.recordPosted x1_ x2_).mtr = s.mtr := (s.recordPosted_only x1_ x2_).mtr rfl
@[simp] theorem recordPosted_thm (x1_ x2_) : (s.recordPosted x1_ x2_).thm = s.thm := (s.recordPosted_only x1_ x2_).thm rfl
@[simp] theorem recordPosted_aux (x1_ x2_) : (s.recordPosted x1_ x2_).aux = s.aux := (s.recordPosted_only x1_ x2_).aux rfl
@[simp] theorem recordPosted_free (x1_ x2_) : (s.recordPosted x1_ x2_).free = s.free := (s.recordPosted_only x1_ x2_).free rfl
@[simp] theorem recordPosted_out (x1_ x2_) : (s.recordPosted x1_ x2_).out = s.out := (s.recordPosted_only x1_ x2_).out rfl
/-- All that `entryWritten` may change. -/
theorem entryWritten_only (x1_) : Only 0x1000100000000000 s (s.entryWritten x1_) := Only.entryWritten (Only.refl _ s) x1_ rfl
@[simp] theorem rdi_entryWritten (x1_) (f' : Fld) (i : Nat) (hf : fr 0x1000100000000000 f' = true) : (s.entryWritten x1_).rdi f' i = s.rdi f' i :=
  (s.entryWritten_only x1_).rdi f' i hf
@[simp] theorem entryWritten_tm (x1_) : (s.entryWritten x1_).tm = s.tm := (s.entryWritten_only x1_).tm rfl
@[simp] theorem entryWritten_clk (x1_) : (s.entryWritten x1_).clk = s.clk := (s.entryWritten_only x1_).clk rfl
@[simp] theorem entryWritten_pwr (x1_) : (s.entryWritten x1_).pwr = s.pwr := (s.entryWritten_only x1_).pwr rfl
@[simp] theorem entryWritten_tri (x1_) : (s.entryWritten x1_).tri = s.tri := (s.entryWritten_only x1_).tri rfl
@[simp] theorem entryWritten_slc (x1_) : (s.entryWritten x1_).slc = s.slc := (s.entryWritten_only x1_).slc rfl
@[simp] theorem entryWritten_saf (x1_) : (s.entryWritten x1_).saf = s.saf := (s.entryWritten_only x1_).saf rfl
@[simp] theorem entryWritten_rings (x1_) : (s.entryWritten x1_).rings = s.rings := (s.entryWritten_only x1_).rings rfl
@[simp] theorem entryWritten_cells (x1_) : (s.entryWritten x1_).cells = s.cells := (s.entryWritten_only x1_).cells rfl
@[simp] theorem entryWritten_law (x1_) : (s.entryWritten x1_).law = s.law := (s.entryWritten_only x1_).law rfl
@[simp] theorem entryWritten_lawC (x1_) : (s.entryWritten x1_).lawC = s.lawC := (s.entryWritten_only x1_).lawC rfl
@[simp] theorem entryWritten_sp (x1_) : (s.entryWritten x1_).sp = s.sp := (s.entryWritten_only x1_).sp rfl
@[simp] theorem entryWritten_sched (x1_) : (s.entryWritten x1_).sched = s.sched := (s.entryWritten_only x1_).sched rfl
@[simp] theorem entryWritten_adc (x1_) : (s.entryWritten x1_).adc = s.adc := (s.entryWritten_only x1_).adc rfl
@[simp] theorem entryWritten_mtr (x1_) : (s.entryWritten x1_).mtr = s.mtr := (s.entryWritten_only x1_).mtr rfl
@[simp] theorem entryWritten_jr (x1_) : (s.entryWritten x1_).jr = s.jr := (s.entryWritten_only x1_).jr rfl
@[simp] theorem entryWritten_thm (x1_) : (s.entryWritten x1_).thm = s.thm := (s.entryWritten_only x1_).thm rfl
@[simp] theorem entryWritten_aux (x1_) : (s.entryWritten x1_).aux = s.aux := (s.entryWritten_only x1_).aux rfl
@[simp] theorem entryWritten_free (x1_) : (s.entryWritten x1_).free = s.free := (s.entryWritten_only x1_).free rfl
/-- All that `queueAt` may change. -/
theorem queueAt_only (x1_ x2_ x3_ x4_ x5_ x6_) : Only 0x100000000000 s (s.queueAt x1_ x2_ x3_ x4_ x5_ x6_) := Only.queueAt (Only.refl _ s) x1_ x2_ x3_ x4_ x5_ x6_ rfl
@[simp] theorem rdi_queueAt (x1_ x2_ x3_ x4_ x5_ x6_) (f' : Fld) (i : Nat) (hf : fr 0x100000000000 f' = true) : (s.queueAt x1_ x2_ x3_ x4_ x5_ x6_).rdi f' i = s.rdi f' i :=
  (s.queueAt_only x1_ x2_ x3_ x4_ x5_ x6_).rdi f' i hf
@[simp] theorem queueAt_tm (x1_ x2_ x3_ x4_ x5_ x6_) : (s.queueAt x1_ x2_ x3_ x4_ x5_ x6_).tm = s.tm := (s.queueAt_only x1_ x2_ x3_ x4_ x5_ x6_).tm rfl
@[simp] theorem queueAt_clk (x1_ x2_ x3_ x4_ x5_ x6_) : (s.queueAt x1_ x2_ x3_ x4_ x5_ x6_).clk = s.clk := (s.queueAt_only x1_ x2_ x3_ x4_ x5_ x6_).clk rfl
@[simp] theorem queueAt_pwr (x1_ x2_ x3_ x4_ x5_ x6_) : (s.queueAt x1_ x2_ x3_ x4_ x5_ x6_).pwr = s.pwr := (s.queueAt_only x1_ x2_ x3_ x4_ x5_ x6_).pwr rfl
@[simp] theorem queueAt_tri (x1_ x2_ x3_ x4_ x5_ x6_) : (s.queueAt x1_ x2_ x3_ x4_ x5_ x6_).tri = s.tri := (s.queueAt_only x1_ x2_ x3_ x4_ x5_ x6_).tri rfl
@[simp] theorem queueAt_slc (x1_ x2_ x3_ x4_ x5_ x6_) : (s.queueAt x1_ x2_ x3_ x4_ x5_ x6_).slc = s.slc := (s.queueAt_only x1_ x2_ x3_ x4_ x5_ x6_).slc rfl
@[simp] theorem queueAt_saf (x1_ x2_ x3_ x4_ x5_ x6_) : (s.queueAt x1_ x2_ x3_ x4_ x5_ x6_).saf = s.saf := (s.queueAt_only x1_ x2_ x3_ x4_ x5_ x6_).saf rfl
@[simp] theorem queueAt_rings (x1_ x2_ x3_ x4_ x5_ x6_) : (s.queueAt x1_ x2_ x3_ x4_ x5_ x6_).rings = s.rings := (s.queueAt_only x1_ x2_ x3_ x4_ x5_ x6_).rings rfl
@[simp] theorem queueAt_cells (x1_ x2_ x3_ x4_ x5_ x6_) : (s.queueAt x1_ x2_ x3_ x4_ x5_ x6_).cells = s.cells := (s.queueAt_only x1_ x2_ x3_ x4_ x5_ x6_).cells rfl
@[simp] theorem queueAt_law (x1_ x2_ x3_ x4_ x5_ x6_) : (s.queueAt x1_ x2_ x3_ x4_ x5_ x6_).law = s.law := (s.queueAt_only x1_ x2_ x3_ x4_ x5_ x6_).law rfl
@[simp] theorem queueAt_lawC (x1_ x2_ x3_ x4_ x5_ x6_) : (s.queueAt x1_ x2_ x3_ x4_ x5_ x6_).lawC = s.lawC := (s.queueAt_only x1_ x2_ x3_ x4_ x5_ x6_).lawC rfl
@[simp] theorem queueAt_sp (x1_ x2_ x3_ x4_ x5_ x6_) : (s.queueAt x1_ x2_ x3_ x4_ x5_ x6_).sp = s.sp := (s.queueAt_only x1_ x2_ x3_ x4_ x5_ x6_).sp rfl
@[simp] theorem queueAt_sched (x1_ x2_ x3_ x4_ x5_ x6_) : (s.queueAt x1_ x2_ x3_ x4_ x5_ x6_).sched = s.sched := (s.queueAt_only x1_ x2_ x3_ x4_ x5_ x6_).sched rfl
@[simp] theorem queueAt_adc (x1_ x2_ x3_ x4_ x5_ x6_) : (s.queueAt x1_ x2_ x3_ x4_ x5_ x6_).adc = s.adc := (s.queueAt_only x1_ x2_ x3_ x4_ x5_ x6_).adc rfl
@[simp] theorem queueAt_mtr (x1_ x2_ x3_ x4_ x5_ x6_) : (s.queueAt x1_ x2_ x3_ x4_ x5_ x6_).mtr = s.mtr := (s.queueAt_only x1_ x2_ x3_ x4_ x5_ x6_).mtr rfl
@[simp] theorem queueAt_jr (x1_ x2_ x3_ x4_ x5_ x6_) : (s.queueAt x1_ x2_ x3_ x4_ x5_ x6_).jr = s.jr := (s.queueAt_only x1_ x2_ x3_ x4_ x5_ x6_).jr rfl
@[simp] theorem queueAt_thm (x1_ x2_ x3_ x4_ x5_ x6_) : (s.queueAt x1_ x2_ x3_ x4_ x5_ x6_).thm = s.thm := (s.queueAt_only x1_ x2_ x3_ x4_ x5_ x6_).thm rfl
@[simp] theorem queueAt_aux (x1_ x2_ x3_ x4_ x5_ x6_) : (s.queueAt x1_ x2_ x3_ x4_ x5_ x6_).aux = s.aux := (s.queueAt_only x1_ x2_ x3_ x4_ x5_ x6_).aux rfl
@[simp] theorem queueAt_free (x1_ x2_ x3_ x4_ x5_ x6_) : (s.queueAt x1_ x2_ x3_ x4_ x5_ x6_).free = s.free := (s.queueAt_only x1_ x2_ x3_ x4_ x5_ x6_).free rfl
@[simp] theorem queueAt_out (x1_ x2_ x3_ x4_ x5_ x6_) : (s.queueAt x1_ x2_ x3_ x4_ x5_ x6_).out = s.out := (s.queueAt_only x1_ x2_ x3_ x4_ x5_ x6_).out rfl
/-- All that `queueOn` may change. -/
theorem queueOn_only (x1_ x2_ x3_ x4_) : Only 0x100000000000 s (s.queueOn x1_ x2_ x3_ x4_) := Only.queueOn (Only.refl _ s) x1_ x2_ x3_ x4_ rfl
@[simp] theorem rdi_queueOn (x1_ x2_ x3_ x4_) (f' : Fld) (i : Nat) (hf : fr 0x100000000000 f' = true) : (s.queueOn x1_ x2_ x3_ x4_).rdi f' i = s.rdi f' i :=
  (s.queueOn_only x1_ x2_ x3_ x4_).rdi f' i hf
@[simp] theorem queueOn_tm (x1_ x2_ x3_ x4_) : (s.queueOn x1_ x2_ x3_ x4_).tm = s.tm := (s.queueOn_only x1_ x2_ x3_ x4_).tm rfl
@[simp] theorem queueOn_clk (x1_ x2_ x3_ x4_) : (s.queueOn x1_ x2_ x3_ x4_).clk = s.clk := (s.queueOn_only x1_ x2_ x3_ x4_).clk rfl
@[simp] theorem queueOn_pwr (x1_ x2_ x3_ x4_) : (s.queueOn x1_ x2_ x3_ x4_).pwr = s.pwr := (s.queueOn_only x1_ x2_ x3_ x4_).pwr rfl
@[simp] theorem queueOn_tri (x1_ x2_ x3_ x4_) : (s.queueOn x1_ x2_ x3_ x4_).tri = s.tri := (s.queueOn_only x1_ x2_ x3_ x4_).tri rfl
@[simp] theorem queueOn_slc (x1_ x2_ x3_ x4_) : (s.queueOn x1_ x2_ x3_ x4_).slc = s.slc := (s.queueOn_only x1_ x2_ x3_ x4_).slc rfl
@[simp] theorem queueOn_saf (x1_ x2_ x3_ x4_) : (s.queueOn x1_ x2_ x3_ x4_).saf = s.saf := (s.queueOn_only x1_ x2_ x3_ x4_).saf rfl
@[simp] theorem queueOn_rings (x1_ x2_ x3_ x4_) : (s.queueOn x1_ x2_ x3_ x4_).rings = s.rings := (s.queueOn_only x1_ x2_ x3_ x4_).rings rfl
@[simp] theorem queueOn_cells (x1_ x2_ x3_ x4_) : (s.queueOn x1_ x2_ x3_ x4_).cells = s.cells := (s.queueOn_only x1_ x2_ x3_ x4_).cells rfl
@[simp] theorem queueOn_law (x1_ x2_ x3_ x4_) : (s.queueOn x1_ x2_ x3_ x4_).law = s.law := (s.queueOn_only x1_ x2_ x3_ x4_).law rfl
@[simp] theorem queueOn_lawC (x1_ x2_ x3_ x4_) : (s.queueOn x1_ x2_ x3_ x4_).lawC = s.lawC := (s.queueOn_only x1_ x2_ x3_ x4_).lawC rfl
@[simp] theorem queueOn_sp (x1_ x2_ x3_ x4_) : (s.queueOn x1_ x2_ x3_ x4_).sp = s.sp := (s.queueOn_only x1_ x2_ x3_ x4_).sp rfl
@[simp] theorem queueOn_sched (x1_ x2_ x3_ x4_) : (s.queueOn x1_ x2_ x3_ x4_).sched = s.sched := (s.queueOn_only x1_ x2_ x3_ x4_).sched rfl
@[simp] theorem queueOn_adc (x1_ x2_ x3_ x4_) : (s.queueOn x1_ x2_ x3_ x4_).adc = s.adc := (s.queueOn_only x1_ x2_ x3_ x4_).adc rfl
@[simp] theorem queueOn_mtr (x1_ x2_ x3_ x4_) : (s.queueOn x1_ x2_ x3_ x4_).mtr = s.mtr := (s.queueOn_only x1_ x2_ x3_ x4_).mtr rfl
@[simp] theorem queueOn_jr (x1_ x2_ x3_ x4_) : (s.queueOn x1_ x2_ x3_ x4_).jr = s.jr := (s.queueOn_only x1_ x2_ x3_ x4_).jr rfl
@[simp] theorem queueOn_thm (x1_ x2_ x3_ x4_) : (s.queueOn x1_ x2_ x3_ x4_).thm = s.thm := (s.queueOn_only x1_ x2_ x3_ x4_).thm rfl
@[simp] theorem queueOn_aux (x1_ x2_ x3_ x4_) : (s.queueOn x1_ x2_ x3_ x4_).aux = s.aux := (s.queueOn_only x1_ x2_ x3_ x4_).aux rfl
@[simp] theorem queueOn_free (x1_ x2_ x3_ x4_) : (s.queueOn x1_ x2_ x3_ x4_).free = s.free := (s.queueOn_only x1_ x2_ x3_ x4_).free rfl
@[simp] theorem queueOn_out (x1_ x2_ x3_ x4_) : (s.queueOn x1_ x2_ x3_ x4_).out = s.out := (s.queueOn_only x1_ x2_ x3_ x4_).out rfl
/-- All that `queueRec` may change. -/
theorem queueRec_only (x1_ x2_ x3_) : Only 0x100000000000 s (s.queueRec x1_ x2_ x3_) := Only.queueRec (Only.refl _ s) x1_ x2_ x3_ rfl
@[simp] theorem rdi_queueRec (x1_ x2_ x3_) (f' : Fld) (i : Nat) (hf : fr 0x100000000000 f' = true) : (s.queueRec x1_ x2_ x3_).rdi f' i = s.rdi f' i :=
  (s.queueRec_only x1_ x2_ x3_).rdi f' i hf
@[simp] theorem queueRec_tm (x1_ x2_ x3_) : (s.queueRec x1_ x2_ x3_).tm = s.tm := (s.queueRec_only x1_ x2_ x3_).tm rfl
@[simp] theorem queueRec_clk (x1_ x2_ x3_) : (s.queueRec x1_ x2_ x3_).clk = s.clk := (s.queueRec_only x1_ x2_ x3_).clk rfl
@[simp] theorem queueRec_pwr (x1_ x2_ x3_) : (s.queueRec x1_ x2_ x3_).pwr = s.pwr := (s.queueRec_only x1_ x2_ x3_).pwr rfl
@[simp] theorem queueRec_tri (x1_ x2_ x3_) : (s.queueRec x1_ x2_ x3_).tri = s.tri := (s.queueRec_only x1_ x2_ x3_).tri rfl
@[simp] theorem queueRec_slc (x1_ x2_ x3_) : (s.queueRec x1_ x2_ x3_).slc = s.slc := (s.queueRec_only x1_ x2_ x3_).slc rfl
@[simp] theorem queueRec_saf (x1_ x2_ x3_) : (s.queueRec x1_ x2_ x3_).saf = s.saf := (s.queueRec_only x1_ x2_ x3_).saf rfl
@[simp] theorem queueRec_rings (x1_ x2_ x3_) : (s.queueRec x1_ x2_ x3_).rings = s.rings := (s.queueRec_only x1_ x2_ x3_).rings rfl
@[simp] theorem queueRec_cells (x1_ x2_ x3_) : (s.queueRec x1_ x2_ x3_).cells = s.cells := (s.queueRec_only x1_ x2_ x3_).cells rfl
@[simp] theorem queueRec_law (x1_ x2_ x3_) : (s.queueRec x1_ x2_ x3_).law = s.law := (s.queueRec_only x1_ x2_ x3_).law rfl
@[simp] theorem queueRec_lawC (x1_ x2_ x3_) : (s.queueRec x1_ x2_ x3_).lawC = s.lawC := (s.queueRec_only x1_ x2_ x3_).lawC rfl
@[simp] theorem queueRec_sp (x1_ x2_ x3_) : (s.queueRec x1_ x2_ x3_).sp = s.sp := (s.queueRec_only x1_ x2_ x3_).sp rfl
@[simp] theorem queueRec_sched (x1_ x2_ x3_) : (s.queueRec x1_ x2_ x3_).sched = s.sched := (s.queueRec_only x1_ x2_ x3_).sched rfl
@[simp] theorem queueRec_adc (x1_ x2_ x3_) : (s.queueRec x1_ x2_ x3_).adc = s.adc := (s.queueRec_only x1_ x2_ x3_).adc rfl
@[simp] theorem queueRec_mtr (x1_ x2_ x3_) : (s.queueRec x1_ x2_ x3_).mtr = s.mtr := (s.queueRec_only x1_ x2_ x3_).mtr rfl
@[simp] theorem queueRec_jr (x1_ x2_ x3_) : (s.queueRec x1_ x2_ x3_).jr = s.jr := (s.queueRec_only x1_ x2_ x3_).jr rfl
@[simp] theorem queueRec_thm (x1_ x2_ x3_) : (s.queueRec x1_ x2_ x3_).thm = s.thm := (s.queueRec_only x1_ x2_ x3_).thm rfl
@[simp] theorem queueRec_aux (x1_ x2_ x3_) : (s.queueRec x1_ x2_ x3_).aux = s.aux := (s.queueRec_only x1_ x2_ x3_).aux rfl
@[simp] theorem queueRec_free (x1_ x2_ x3_) : (s.queueRec x1_ x2_ x3_).free = s.free := (s.queueRec_only x1_ x2_ x3_).free rfl
@[simp] theorem queueRec_out (x1_ x2_ x3_) : (s.queueRec x1_ x2_ x3_).out = s.out := (s.queueRec_only x1_ x2_ x3_).out rfl
/-- All that `queueRingState` may change. -/
theorem queueRingState_only (x1_ x2_ x3_) : Only 0x100000000000 s (s.queueRingState x1_ x2_ x3_) := Only.queueRingState (Only.refl _ s) x1_ x2_ x3_ rfl
@[simp] theorem rdi_queueRingState (x1_ x2_ x3_) (f' : Fld) (i : Nat) (hf : fr 0x100000000000 f' = true) : (s.queueRingState x1_ x2_ x3_).rdi f' i = s.rdi f' i :=
  (s.queueRingState_only x1_ x2_ x3_).rdi f' i hf
@[simp] theorem queueRingState_tm (x1_ x2_ x3_) : (s.queueRingState x1_ x2_ x3_).tm = s.tm := (s.queueRingState_only x1_ x2_ x3_).tm rfl
@[simp] theorem queueRingState_clk (x1_ x2_ x3_) : (s.queueRingState x1_ x2_ x3_).clk = s.clk := (s.queueRingState_only x1_ x2_ x3_).clk rfl
@[simp] theorem queueRingState_pwr (x1_ x2_ x3_) : (s.queueRingState x1_ x2_ x3_).pwr = s.pwr := (s.queueRingState_only x1_ x2_ x3_).pwr rfl
@[simp] theorem queueRingState_tri (x1_ x2_ x3_) : (s.queueRingState x1_ x2_ x3_).tri = s.tri := (s.queueRingState_only x1_ x2_ x3_).tri rfl
@[simp] theorem queueRingState_slc (x1_ x2_ x3_) : (s.queueRingState x1_ x2_ x3_).slc = s.slc := (s.queueRingState_only x1_ x2_ x3_).slc rfl
@[simp] theorem queueRingState_saf (x1_ x2_ x3_) : (s.queueRingState x1_ x2_ x3_).saf = s.saf := (s.queueRingState_only x1_ x2_ x3_).saf rfl
@[simp] theorem queueRingState_rings (x1_ x2_ x3_) : (s.queueRingState x1_ x2_ x3_).rings = s.rings := (s.queueRingState_only x1_ x2_ x3_).rings rfl
@[simp] theorem queueRingState_cells (x1_ x2_ x3_) : (s.queueRingState x1_ x2_ x3_).cells = s.cells := (s.queueRingState_only x1_ x2_ x3_).cells rfl
@[simp] theorem queueRingState_law (x1_ x2_ x3_) : (s.queueRingState x1_ x2_ x3_).law = s.law := (s.queueRingState_only x1_ x2_ x3_).law rfl
@[simp] theorem queueRingState_lawC (x1_ x2_ x3_) : (s.queueRingState x1_ x2_ x3_).lawC = s.lawC := (s.queueRingState_only x1_ x2_ x3_).lawC rfl
@[simp] theorem queueRingState_sp (x1_ x2_ x3_) : (s.queueRingState x1_ x2_ x3_).sp = s.sp := (s.queueRingState_only x1_ x2_ x3_).sp rfl
@[simp] theorem queueRingState_sched (x1_ x2_ x3_) : (s.queueRingState x1_ x2_ x3_).sched = s.sched := (s.queueRingState_only x1_ x2_ x3_).sched rfl
@[simp] theorem queueRingState_adc (x1_ x2_ x3_) : (s.queueRingState x1_ x2_ x3_).adc = s.adc := (s.queueRingState_only x1_ x2_ x3_).adc rfl
@[simp] theorem queueRingState_mtr (x1_ x2_ x3_) : (s.queueRingState x1_ x2_ x3_).mtr = s.mtr := (s.queueRingState_only x1_ x2_ x3_).mtr rfl
@[simp] theorem queueRingState_jr (x1_ x2_ x3_) : (s.queueRingState x1_ x2_ x3_).jr = s.jr := (s.queueRingState_only x1_ x2_ x3_).jr rfl
@[simp] theorem queueRingState_thm (x1_ x2_ x3_) : (s.queueRingState x1_ x2_ x3_).thm = s.thm := (s.queueRingState_only x1_ x2_ x3_).thm rfl
@[simp] theorem queueRingState_aux (x1_ x2_ x3_) : (s.queueRingState x1_ x2_ x3_).aux = s.aux := (s.queueRingState_only x1_ x2_ x3_).aux rfl
@[simp] theorem queueRingState_free (x1_ x2_ x3_) : (s.queueRingState x1_ x2_ x3_).free = s.free := (s.queueRingState_only x1_ x2_ x3_).free rfl
@[simp] theorem queueRingState_out (x1_ x2_ x3_) : (s.queueRingState x1_ x2_ x3_).out = s.out := (s.queueRingState_only x1_ x2_ x3_).out rfl
/-- All that `drain` may change. -/
theorem drain_only (x1_) : Only 0x1100100000000200 s (s.drain x1_) := Only.drain (Only.refl _ s) x1_ rfl
@[simp] theorem rdi_drain (x1_) (f' : Fld) (i : Nat) (hf : fr 0x1100100000000200 f' = true) : (s.drain x1_).rdi f' i = s.rdi f' i :=
  (s.drain_only x1_).rdi f' i hf
@[simp] theorem drain_tm (x1_) : (s.drain x1_).tm = s.tm := (s.drain_only x1_).tm rfl
@[simp] theorem drain_clk (x1_) : (s.drain x1_).clk = s.clk := (s.drain_only x1_).clk rfl
@[simp] theorem drain_pwr (x1_) : (s.drain x1_).pwr = s.pwr := (s.drain_only x1_).pwr rfl
@[simp] theorem drain_tri (x1_) : (s.drain x1_).tri = s.tri := (s.drain_only x1_).tri rfl
@[simp] theorem drain_slc (x1_) : (s.drain x1_).slc = s.slc := (s.drain_only x1_).slc rfl
@[simp] theorem drain_saf (x1_) : (s.drain x1_).saf = s.saf := (s.drain_only x1_).saf rfl
@[simp] theorem drain_rings (x1_) : (s.drain x1_).rings = s.rings := (s.drain_only x1_).rings rfl
@[simp] theorem drain_cells (x1_) : (s.drain x1_).cells = s.cells := (s.drain_only x1_).cells rfl
@[simp] theorem drain_law (x1_) : (s.drain x1_).law = s.law := (s.drain_only x1_).law rfl
@[simp] theorem drain_lawC (x1_) : (s.drain x1_).lawC = s.lawC := (s.drain_only x1_).lawC rfl
@[simp] theorem drain_sp (x1_) : (s.drain x1_).sp = s.sp := (s.drain_only x1_).sp rfl
@[simp] theorem drain_sched (x1_) : (s.drain x1_).sched = s.sched := (s.drain_only x1_).sched rfl
@[simp] theorem drain_adc (x1_) : (s.drain x1_).adc = s.adc := (s.drain_only x1_).adc rfl
@[simp] theorem drain_mtr (x1_) : (s.drain x1_).mtr = s.mtr := (s.drain_only x1_).mtr rfl
@[simp] theorem drain_thm (x1_) : (s.drain x1_).thm = s.thm := (s.drain_only x1_).thm rfl
@[simp] theorem drain_aux (x1_) : (s.drain x1_).aux = s.aux := (s.drain_only x1_).aux rfl
@[simp] theorem drain_free (x1_) : (s.drain x1_).free = s.free := (s.drain_only x1_).free rfl
/-- All that `post` may change. -/
theorem post_only (x1_ x2_) : Only 0x1100100000000200 s (s.post x1_ x2_) := Only.post (Only.refl _ s) x1_ x2_ rfl
@[simp] theorem rdi_post (x1_ x2_) (f' : Fld) (i : Nat) (hf : fr 0x1100100000000200 f' = true) : (s.post x1_ x2_).rdi f' i = s.rdi f' i :=
  (s.post_only x1_ x2_).rdi f' i hf
@[simp] theorem post_tm (x1_ x2_) : (s.post x1_ x2_).tm = s.tm := (s.post_only x1_ x2_).tm rfl
@[simp] theorem post_clk (x1_ x2_) : (s.post x1_ x2_).clk = s.clk := (s.post_only x1_ x2_).clk rfl
@[simp] theorem post_pwr (x1_ x2_) : (s.post x1_ x2_).pwr = s.pwr := (s.post_only x1_ x2_).pwr rfl
@[simp] theorem post_tri (x1_ x2_) : (s.post x1_ x2_).tri = s.tri := (s.post_only x1_ x2_).tri rfl
@[simp] theorem post_slc (x1_ x2_) : (s.post x1_ x2_).slc = s.slc := (s.post_only x1_ x2_).slc rfl
@[simp] theorem post_saf (x1_ x2_) : (s.post x1_ x2_).saf = s.saf := (s.post_only x1_ x2_).saf rfl
@[simp] theorem post_rings (x1_ x2_) : (s.post x1_ x2_).rings = s.rings := (s.post_only x1_ x2_).rings rfl
@[simp] theorem post_cells (x1_ x2_) : (s.post x1_ x2_).cells = s.cells := (s.post_only x1_ x2_).cells rfl
@[simp] theorem post_law (x1_ x2_) : (s.post x1_ x2_).law = s.law := (s.post_only x1_ x2_).law rfl
@[simp] theorem post_lawC (x1_ x2_) : (s.post x1_ x2_).lawC = s.lawC := (s.post_only x1_ x2_).lawC rfl
@[simp] theorem post_sp (x1_ x2_) : (s.post x1_ x2_).sp = s.sp := (s.post_only x1_ x2_).sp rfl
@[simp] theorem post_sched (x1_ x2_) : (s.post x1_ x2_).sched = s.sched := (s.post_only x1_ x2_).sched rfl
@[simp] theorem post_adc (x1_ x2_) : (s.post x1_ x2_).adc = s.adc := (s.post_only x1_ x2_).adc rfl
@[simp] theorem post_mtr (x1_ x2_) : (s.post x1_ x2_).mtr = s.mtr := (s.post_only x1_ x2_).mtr rfl
@[simp] theorem post_thm (x1_ x2_) : (s.post x1_ x2_).thm = s.thm := (s.post_only x1_ x2_).thm rfl
@[simp] theorem post_aux (x1_ x2_) : (s.post x1_ x2_).aux = s.aux := (s.post_only x1_ x2_).aux rfl
@[simp] theorem post_free (x1_ x2_) : (s.post x1_ x2_).free = s.free := (s.post_only x1_ x2_).free rfl
/-- All that `notice` may change. -/
theorem notice_only (x1_ x2_) : Only 0x1100100000000200 s (s.notice x1_ x2_) := Only.notice (Only.refl _ s) x1_ x2_ rfl
@[simp] theorem rdi_notice (x1_ x2_) (f' : Fld) (i : Nat) (hf : fr 0x1100100000000200 f' = true) : (s.notice x1_ x2_).rdi f' i = s.rdi f' i :=
  (s.notice_only x1_ x2_).rdi f' i hf
@[simp] theorem notice_tm (x1_ x2_) : (s.notice x1_ x2_).tm = s.tm := (s.notice_only x1_ x2_).tm rfl
@[simp] theorem notice_clk (x1_ x2_) : (s.notice x1_ x2_).clk = s.clk := (s.notice_only x1_ x2_).clk rfl
@[simp] theorem notice_pwr (x1_ x2_) : (s.notice x1_ x2_).pwr = s.pwr := (s.notice_only x1_ x2_).pwr rfl
@[simp] theorem notice_tri (x1_ x2_) : (s.notice x1_ x2_).tri = s.tri := (s.notice_only x1_ x2_).tri rfl
@[simp] theorem notice_slc (x1_ x2_) : (s.notice x1_ x2_).slc = s.slc := (s.notice_only x1_ x2_).slc rfl
@[simp] theorem notice_saf (x1_ x2_) : (s.notice x1_ x2_).saf = s.saf := (s.notice_only x1_ x2_).saf rfl
@[simp] theorem notice_rings (x1_ x2_) : (s.notice x1_ x2_).rings = s.rings := (s.notice_only x1_ x2_).rings rfl
@[simp] theorem notice_cells (x1_ x2_) : (s.notice x1_ x2_).cells = s.cells := (s.notice_only x1_ x2_).cells rfl
@[simp] theorem notice_law (x1_ x2_) : (s.notice x1_ x2_).law = s.law := (s.notice_only x1_ x2_).law rfl
@[simp] theorem notice_lawC (x1_ x2_) : (s.notice x1_ x2_).lawC = s.lawC := (s.notice_only x1_ x2_).lawC rfl
@[simp] theorem notice_sp (x1_ x2_) : (s.notice x1_ x2_).sp = s.sp := (s.notice_only x1_ x2_).sp rfl
@[simp] theorem notice_sched (x1_ x2_) : (s.notice x1_ x2_).sched = s.sched := (s.notice_only x1_ x2_).sched rfl
@[simp] theorem notice_adc (x1_ x2_) : (s.notice x1_ x2_).adc = s.adc := (s.notice_only x1_ x2_).adc rfl
@[simp] theorem notice_mtr (x1_ x2_) : (s.notice x1_ x2_).mtr = s.mtr := (s.notice_only x1_ x2_).mtr rfl
@[simp] theorem notice_thm (x1_ x2_) : (s.notice x1_ x2_).thm = s.thm := (s.notice_only x1_ x2_).thm rfl
@[simp] theorem notice_aux (x1_ x2_) : (s.notice x1_ x2_).aux = s.aux := (s.notice_only x1_ x2_).aux rfl
@[simp] theorem notice_free (x1_ x2_) : (s.notice x1_ x2_).free = s.free := (s.notice_only x1_ x2_).free rfl
/-- All that `noticeOpen` may change. -/
theorem noticeOpen_only (x1_) : Only 0x1900100000000200 s (s.noticeOpen x1_) := Only.noticeOpen (Only.refl _ s) x1_ rfl
@[simp] theorem rdi_noticeOpen (x1_) (f' : Fld) (i : Nat) (hf : fr 0x1900100000000200 f' = true) : (s.noticeOpen x1_).rdi f' i = s.rdi f' i :=
  (s.noticeOpen_only x1_).rdi f' i hf
@[simp] theorem noticeOpen_tm (x1_) : (s.noticeOpen x1_).tm = s.tm := (s.noticeOpen_only x1_).tm rfl
@[simp] theorem noticeOpen_clk (x1_) : (s.noticeOpen x1_).clk = s.clk := (s.noticeOpen_only x1_).clk rfl
@[simp] theorem noticeOpen_pwr (x1_) : (s.noticeOpen x1_).pwr = s.pwr := (s.noticeOpen_only x1_).pwr rfl
@[simp] theorem noticeOpen_tri (x1_) : (s.noticeOpen x1_).tri = s.tri := (s.noticeOpen_only x1_).tri rfl
@[simp] theorem noticeOpen_slc (x1_) : (s.noticeOpen x1_).slc = s.slc := (s.noticeOpen_only x1_).slc rfl
@[simp] theorem noticeOpen_saf (x1_) : (s.noticeOpen x1_).saf = s.saf := (s.noticeOpen_only x1_).saf rfl
@[simp] theorem noticeOpen_rings (x1_) : (s.noticeOpen x1_).rings = s.rings := (s.noticeOpen_only x1_).rings rfl
@[simp] theorem noticeOpen_cells (x1_) : (s.noticeOpen x1_).cells = s.cells := (s.noticeOpen_only x1_).cells rfl
@[simp] theorem noticeOpen_law (x1_) : (s.noticeOpen x1_).law = s.law := (s.noticeOpen_only x1_).law rfl
@[simp] theorem noticeOpen_lawC (x1_) : (s.noticeOpen x1_).lawC = s.lawC := (s.noticeOpen_only x1_).lawC rfl
@[simp] theorem noticeOpen_sp (x1_) : (s.noticeOpen x1_).sp = s.sp := (s.noticeOpen_only x1_).sp rfl
@[simp] theorem noticeOpen_sched (x1_) : (s.noticeOpen x1_).sched = s.sched := (s.noticeOpen_only x1_).sched rfl
@[simp] theorem noticeOpen_adc (x1_) : (s.noticeOpen x1_).adc = s.adc := (s.noticeOpen_only x1_).adc rfl
@[simp] theorem noticeOpen_mtr (x1_) : (s.noticeOpen x1_).mtr = s.mtr := (s.noticeOpen_only x1_).mtr rfl
@[simp] theorem noticeOpen_thm (x1_) : (s.noticeOpen x1_).thm = s.thm := (s.noticeOpen_only x1_).thm rfl
@[simp] theorem noticeOpen_aux (x1_) : (s.noticeOpen x1_).aux = s.aux := (s.noticeOpen_only x1_).aux rfl
/-- All that `complete` may change. -/
theorem complete_only (x1_ x2_ x3_ x4_) : Only 0x100000000000 s (s.complete x1_ x2_ x3_ x4_) := Only.complete (Only.refl _ s) x1_ x2_ x3_ x4_ rfl
@[simp] theorem rdi_complete (x1_ x2_ x3_ x4_) (f' : Fld) (i : Nat) (hf : fr 0x100000000000 f' = true) : (s.complete x1_ x2_ x3_ x4_).rdi f' i = s.rdi f' i :=
  (s.complete_only x1_ x2_ x3_ x4_).rdi f' i hf
@[simp] theorem complete_tm (x1_ x2_ x3_ x4_) : (s.complete x1_ x2_ x3_ x4_).tm = s.tm := (s.complete_only x1_ x2_ x3_ x4_).tm rfl
@[simp] theorem complete_clk (x1_ x2_ x3_ x4_) : (s.complete x1_ x2_ x3_ x4_).clk = s.clk := (s.complete_only x1_ x2_ x3_ x4_).clk rfl
@[simp] theorem complete_pwr (x1_ x2_ x3_ x4_) : (s.complete x1_ x2_ x3_ x4_).pwr = s.pwr := (s.complete_only x1_ x2_ x3_ x4_).pwr rfl
@[simp] theorem complete_tri (x1_ x2_ x3_ x4_) : (s.complete x1_ x2_ x3_ x4_).tri = s.tri := (s.complete_only x1_ x2_ x3_ x4_).tri rfl
@[simp] theorem complete_slc (x1_ x2_ x3_ x4_) : (s.complete x1_ x2_ x3_ x4_).slc = s.slc := (s.complete_only x1_ x2_ x3_ x4_).slc rfl
@[simp] theorem complete_saf (x1_ x2_ x3_ x4_) : (s.complete x1_ x2_ x3_ x4_).saf = s.saf := (s.complete_only x1_ x2_ x3_ x4_).saf rfl
@[simp] theorem complete_rings (x1_ x2_ x3_ x4_) : (s.complete x1_ x2_ x3_ x4_).rings = s.rings := (s.complete_only x1_ x2_ x3_ x4_).rings rfl
@[simp] theorem complete_cells (x1_ x2_ x3_ x4_) : (s.complete x1_ x2_ x3_ x4_).cells = s.cells := (s.complete_only x1_ x2_ x3_ x4_).cells rfl
@[simp] theorem complete_law (x1_ x2_ x3_ x4_) : (s.complete x1_ x2_ x3_ x4_).law = s.law := (s.complete_only x1_ x2_ x3_ x4_).law rfl
@[simp] theorem complete_lawC (x1_ x2_ x3_ x4_) : (s.complete x1_ x2_ x3_ x4_).lawC = s.lawC := (s.complete_only x1_ x2_ x3_ x4_).lawC rfl
@[simp] theorem complete_sp (x1_ x2_ x3_ x4_) : (s.complete x1_ x2_ x3_ x4_).sp = s.sp := (s.complete_only x1_ x2_ x3_ x4_).sp rfl
@[simp] theorem complete_sched (x1_ x2_ x3_ x4_) : (s.complete x1_ x2_ x3_ x4_).sched = s.sched := (s.complete_only x1_ x2_ x3_ x4_).sched rfl
@[simp] theorem complete_adc (x1_ x2_ x3_ x4_) : (s.complete x1_ x2_ x3_ x4_).adc = s.adc := (s.complete_only x1_ x2_ x3_ x4_).adc rfl
@[simp] theorem complete_mtr (x1_ x2_ x3_ x4_) : (s.complete x1_ x2_ x3_ x4_).mtr = s.mtr := (s.complete_only x1_ x2_ x3_ x4_).mtr rfl
@[simp] theorem complete_jr (x1_ x2_ x3_ x4_) : (s.complete x1_ x2_ x3_ x4_).jr = s.jr := (s.complete_only x1_ x2_ x3_ x4_).jr rfl
@[simp] theorem complete_thm (x1_ x2_ x3_ x4_) : (s.complete x1_ x2_ x3_ x4_).thm = s.thm := (s.complete_only x1_ x2_ x3_ x4_).thm rfl
@[simp] theorem complete_aux (x1_ x2_ x3_ x4_) : (s.complete x1_ x2_ x3_ x4_).aux = s.aux := (s.complete_only x1_ x2_ x3_ x4_).aux rfl
@[simp] theorem complete_free (x1_ x2_ x3_ x4_) : (s.complete x1_ x2_ x3_ x4_).free = s.free := (s.complete_only x1_ x2_ x3_ x4_).free rfl
@[simp] theorem complete_out (x1_ x2_ x3_ x4_) : (s.complete x1_ x2_ x3_ x4_).out = s.out := (s.complete_only x1_ x2_ x3_ x4_).out rfl
/-- All that `cancelRelease` may change. -/
theorem cancelRelease_only : Only 0x1900500000000200 s (s.cancelRelease) := Only.cancelRelease (Only.refl _ s) rfl
@[simp] theorem rdi_cancelRelease (f' : Fld) (i : Nat) (hf : fr 0x1900500000000200 f' = true) : (s.cancelRelease).rdi f' i = s.rdi f' i :=
  (s.cancelRelease_only).rdi f' i hf
@[simp] theorem cancelRelease_tm : (s.cancelRelease).tm = s.tm := (s.cancelRelease_only).tm rfl
@[simp] theorem cancelRelease_clk : (s.cancelRelease).clk = s.clk := (s.cancelRelease_only).clk rfl
@[simp] theorem cancelRelease_pwr : (s.cancelRelease).pwr = s.pwr := (s.cancelRelease_only).pwr rfl
@[simp] theorem cancelRelease_tri : (s.cancelRelease).tri = s.tri := (s.cancelRelease_only).tri rfl
@[simp] theorem cancelRelease_saf : (s.cancelRelease).saf = s.saf := (s.cancelRelease_only).saf rfl
@[simp] theorem cancelRelease_rings : (s.cancelRelease).rings = s.rings := (s.cancelRelease_only).rings rfl
@[simp] theorem cancelRelease_cells : (s.cancelRelease).cells = s.cells := (s.cancelRelease_only).cells rfl
@[simp] theorem cancelRelease_law : (s.cancelRelease).law = s.law := (s.cancelRelease_only).law rfl
@[simp] theorem cancelRelease_lawC : (s.cancelRelease).lawC = s.lawC := (s.cancelRelease_only).lawC rfl
@[simp] theorem cancelRelease_sp : (s.cancelRelease).sp = s.sp := (s.cancelRelease_only).sp rfl
@[simp] theorem cancelRelease_sched : (s.cancelRelease).sched = s.sched := (s.cancelRelease_only).sched rfl
@[simp] theorem cancelRelease_adc : (s.cancelRelease).adc = s.adc := (s.cancelRelease_only).adc rfl
@[simp] theorem cancelRelease_mtr : (s.cancelRelease).mtr = s.mtr := (s.cancelRelease_only).mtr rfl
@[simp] theorem cancelRelease_thm : (s.cancelRelease).thm = s.thm := (s.cancelRelease_only).thm rfl
@[simp] theorem cancelRelease_aux : (s.cancelRelease).aux = s.aux := (s.cancelRelease_only).aux rfl
/-- All that `latch` may change. -/
theorem latch_only (f x2_) (hl : f ∈ latchFields) : Only 0x400100000000 s (s.latch f x2_) := Only.latch (Only.refl _ s) f x2_ rfl hl
theorem rdi_latch (f x2_) (hl : f ∈ latchFields) (f' : Fld) (i : Nat) (hf : fr 0x400100000000 f' = true) : (s.latch f x2_).rdi f' i = s.rdi f' i :=
  (s.latch_only f x2_ hl).rdi f' i hf
theorem latch_tm (f x2_) (hl : f ∈ latchFields) : (s.latch f x2_).tm = s.tm := (s.latch_only f x2_ hl).tm rfl
theorem latch_clk (f x2_) (hl : f ∈ latchFields) : (s.latch f x2_).clk = s.clk := (s.latch_only f x2_ hl).clk rfl
theorem latch_pwr (f x2_) (hl : f ∈ latchFields) : (s.latch f x2_).pwr = s.pwr := (s.latch_only f x2_ hl).pwr rfl
theorem latch_hst (f x2_) (hl : f ∈ latchFields) : (s.latch f x2_).hst = s.hst := (s.latch_only f x2_ hl).hst rfl
theorem latch_tri (f x2_) (hl : f ∈ latchFields) : (s.latch f x2_).tri = s.tri := (s.latch_only f x2_ hl).tri rfl
theorem latch_saf (f x2_) (hl : f ∈ latchFields) : (s.latch f x2_).saf = s.saf := (s.latch_only f x2_ hl).saf rfl
theorem latch_rings (f x2_) (hl : f ∈ latchFields) : (s.latch f x2_).rings = s.rings := (s.latch_only f x2_ hl).rings rfl
theorem latch_cells (f x2_) (hl : f ∈ latchFields) : (s.latch f x2_).cells = s.cells := (s.latch_only f x2_ hl).cells rfl
theorem latch_law (f x2_) (hl : f ∈ latchFields) : (s.latch f x2_).law = s.law := (s.latch_only f x2_ hl).law rfl
theorem latch_lawC (f x2_) (hl : f ∈ latchFields) : (s.latch f x2_).lawC = s.lawC := (s.latch_only f x2_ hl).lawC rfl
theorem latch_sp (f x2_) (hl : f ∈ latchFields) : (s.latch f x2_).sp = s.sp := (s.latch_only f x2_ hl).sp rfl
theorem latch_sched (f x2_) (hl : f ∈ latchFields) : (s.latch f x2_).sched = s.sched := (s.latch_only f x2_ hl).sched rfl
theorem latch_adc (f x2_) (hl : f ∈ latchFields) : (s.latch f x2_).adc = s.adc := (s.latch_only f x2_ hl).adc rfl
theorem latch_mtr (f x2_) (hl : f ∈ latchFields) : (s.latch f x2_).mtr = s.mtr := (s.latch_only f x2_ hl).mtr rfl
theorem latch_jr (f x2_) (hl : f ∈ latchFields) : (s.latch f x2_).jr = s.jr := (s.latch_only f x2_ hl).jr rfl
theorem latch_thm (f x2_) (hl : f ∈ latchFields) : (s.latch f x2_).thm = s.thm := (s.latch_only f x2_ hl).thm rfl
theorem latch_aux (f x2_) (hl : f ∈ latchFields) : (s.latch f x2_).aux = s.aux := (s.latch_only f x2_ hl).aux rfl
theorem latch_free (f x2_) (hl : f ∈ latchFields) : (s.latch f x2_).free = s.free := (s.latch_only f x2_ hl).free rfl
theorem latch_out (f x2_) (hl : f ∈ latchFields) : (s.latch f x2_).out = s.out := (s.latch_only f x2_ hl).out rfl
/-- All that `mapCells` may change. -/
theorem mapCells_only (x1_) : Only 0x2000000000000 s (s.mapCells x1_) := Only.mapCells (Only.refl _ s) x1_ rfl
@[simp] theorem rdi_mapCells (x1_) (f' : Fld) (i : Nat) (hf : fr 0x2000000000000 f' = true) : (s.mapCells x1_).rdi f' i = s.rdi f' i :=
  (s.mapCells_only x1_).rdi f' i hf
@[simp] theorem mapCells_tm (x1_) : (s.mapCells x1_).tm = s.tm := (s.mapCells_only x1_).tm rfl
@[simp] theorem mapCells_clk (x1_) : (s.mapCells x1_).clk = s.clk := (s.mapCells_only x1_).clk rfl
@[simp] theorem mapCells_pwr (x1_) : (s.mapCells x1_).pwr = s.pwr := (s.mapCells_only x1_).pwr rfl
@[simp] theorem mapCells_hst (x1_) : (s.mapCells x1_).hst = s.hst := (s.mapCells_only x1_).hst rfl
@[simp] theorem mapCells_tri (x1_) : (s.mapCells x1_).tri = s.tri := (s.mapCells_only x1_).tri rfl
@[simp] theorem mapCells_slc (x1_) : (s.mapCells x1_).slc = s.slc := (s.mapCells_only x1_).slc rfl
@[simp] theorem mapCells_saf (x1_) : (s.mapCells x1_).saf = s.saf := (s.mapCells_only x1_).saf rfl
@[simp] theorem mapCells_rings (x1_) : (s.mapCells x1_).rings = s.rings := (s.mapCells_only x1_).rings rfl
@[simp] theorem mapCells_law (x1_) : (s.mapCells x1_).law = s.law := (s.mapCells_only x1_).law rfl
@[simp] theorem mapCells_lawC (x1_) : (s.mapCells x1_).lawC = s.lawC := (s.mapCells_only x1_).lawC rfl
@[simp] theorem mapCells_sp (x1_) : (s.mapCells x1_).sp = s.sp := (s.mapCells_only x1_).sp rfl
@[simp] theorem mapCells_sched (x1_) : (s.mapCells x1_).sched = s.sched := (s.mapCells_only x1_).sched rfl
@[simp] theorem mapCells_adc (x1_) : (s.mapCells x1_).adc = s.adc := (s.mapCells_only x1_).adc rfl
@[simp] theorem mapCells_mtr (x1_) : (s.mapCells x1_).mtr = s.mtr := (s.mapCells_only x1_).mtr rfl
@[simp] theorem mapCells_jr (x1_) : (s.mapCells x1_).jr = s.jr := (s.mapCells_only x1_).jr rfl
@[simp] theorem mapCells_thm (x1_) : (s.mapCells x1_).thm = s.thm := (s.mapCells_only x1_).thm rfl
@[simp] theorem mapCells_aux (x1_) : (s.mapCells x1_).aux = s.aux := (s.mapCells_only x1_).aux rfl
@[simp] theorem mapCells_free (x1_) : (s.mapCells x1_).free = s.free := (s.mapCells_only x1_).free rfl
@[simp] theorem mapCells_out (x1_) : (s.mapCells x1_).out = s.out := (s.mapCells_only x1_).out rfl
/-- All that `blockPhases` may change. -/
theorem blockPhases_only (x1_) : Only 0x2000000000000 s (s.blockPhases x1_) := Only.blockPhases (Only.refl _ s) x1_ rfl
@[simp] theorem rdi_blockPhases (x1_) (f' : Fld) (i : Nat) (hf : fr 0x2000000000000 f' = true) : (s.blockPhases x1_).rdi f' i = s.rdi f' i :=
  (s.blockPhases_only x1_).rdi f' i hf
@[simp] theorem blockPhases_tm (x1_) : (s.blockPhases x1_).tm = s.tm := (s.blockPhases_only x1_).tm rfl
@[simp] theorem blockPhases_clk (x1_) : (s.blockPhases x1_).clk = s.clk := (s.blockPhases_only x1_).clk rfl
@[simp] theorem blockPhases_pwr (x1_) : (s.blockPhases x1_).pwr = s.pwr := (s.blockPhases_only x1_).pwr rfl
@[simp] theorem blockPhases_hst (x1_) : (s.blockPhases x1_).hst = s.hst := (s.blockPhases_only x1_).hst rfl
@[simp] theorem blockPhases_tri (x1_) : (s.blockPhases x1_).tri = s.tri := (s.blockPhases_only x1_).tri rfl
@[simp] theorem blockPhases_slc (x1_) : (s.blockPhases x1_).slc = s.slc := (s.blockPhases_only x1_).slc rfl
@[simp] theorem blockPhases_saf (x1_) : (s.blockPhases x1_).saf = s.saf := (s.blockPhases_only x1_).saf rfl
@[simp] theorem blockPhases_rings (x1_) : (s.blockPhases x1_).rings = s.rings := (s.blockPhases_only x1_).rings rfl
@[simp] theorem blockPhases_law (x1_) : (s.blockPhases x1_).law = s.law := (s.blockPhases_only x1_).law rfl
@[simp] theorem blockPhases_lawC (x1_) : (s.blockPhases x1_).lawC = s.lawC := (s.blockPhases_only x1_).lawC rfl
@[simp] theorem blockPhases_sp (x1_) : (s.blockPhases x1_).sp = s.sp := (s.blockPhases_only x1_).sp rfl
@[simp] theorem blockPhases_sched (x1_) : (s.blockPhases x1_).sched = s.sched := (s.blockPhases_only x1_).sched rfl
@[simp] theorem blockPhases_adc (x1_) : (s.blockPhases x1_).adc = s.adc := (s.blockPhases_only x1_).adc rfl
@[simp] theorem blockPhases_mtr (x1_) : (s.blockPhases x1_).mtr = s.mtr := (s.blockPhases_only x1_).mtr rfl
@[simp] theorem blockPhases_jr (x1_) : (s.blockPhases x1_).jr = s.jr := (s.blockPhases_only x1_).jr rfl
@[simp] theorem blockPhases_thm (x1_) : (s.blockPhases x1_).thm = s.thm := (s.blockPhases_only x1_).thm rfl
@[simp] theorem blockPhases_aux (x1_) : (s.blockPhases x1_).aux = s.aux := (s.blockPhases_only x1_).aux rfl
@[simp] theorem blockPhases_free (x1_) : (s.blockPhases x1_).free = s.free := (s.blockPhases_only x1_).free rfl
@[simp] theorem blockPhases_out (x1_) : (s.blockPhases x1_).out = s.out := (s.blockPhases_only x1_).out rfl
/-- All that `sendBk` may change. -/
theorem sendBk_only (x1_) : Only 0x1000000000000000 s (s.sendBk x1_) := Only.sendBk (Only.refl _ s) x1_ rfl
@[simp] theorem rdi_sendBk (x1_) (f' : Fld) (i : Nat) (hf : fr 0x1000000000000000 f' = true) : (s.sendBk x1_).rdi f' i = s.rdi f' i :=
  (s.sendBk_only x1_).rdi f' i hf
@[simp] theorem sendBk_tm (x1_) : (s.sendBk x1_).tm = s.tm := (s.sendBk_only x1_).tm rfl
@[simp] theorem sendBk_clk (x1_) : (s.sendBk x1_).clk = s.clk := (s.sendBk_only x1_).clk rfl
@[simp] theorem sendBk_pwr (x1_) : (s.sendBk x1_).pwr = s.pwr := (s.sendBk_only x1_).pwr rfl
@[simp] theorem sendBk_hst (x1_) : (s.sendBk x1_).hst = s.hst := (s.sendBk_only x1_).hst rfl
@[simp] theorem sendBk_tri (x1_) : (s.sendBk x1_).tri = s.tri := (s.sendBk_only x1_).tri rfl
@[simp] theorem sendBk_slc (x1_) : (s.sendBk x1_).slc = s.slc := (s.sendBk_only x1_).slc rfl
@[simp] theorem sendBk_saf (x1_) : (s.sendBk x1_).saf = s.saf := (s.sendBk_only x1_).saf rfl
@[simp] theorem sendBk_rings (x1_) : (s.sendBk x1_).rings = s.rings := (s.sendBk_only x1_).rings rfl
@[simp] theorem sendBk_cells (x1_) : (s.sendBk x1_).cells = s.cells := (s.sendBk_only x1_).cells rfl
@[simp] theorem sendBk_law (x1_) : (s.sendBk x1_).law = s.law := (s.sendBk_only x1_).law rfl
@[simp] theorem sendBk_lawC (x1_) : (s.sendBk x1_).lawC = s.lawC := (s.sendBk_only x1_).lawC rfl
@[simp] theorem sendBk_sp (x1_) : (s.sendBk x1_).sp = s.sp := (s.sendBk_only x1_).sp rfl
@[simp] theorem sendBk_sched (x1_) : (s.sendBk x1_).sched = s.sched := (s.sendBk_only x1_).sched rfl
@[simp] theorem sendBk_adc (x1_) : (s.sendBk x1_).adc = s.adc := (s.sendBk_only x1_).adc rfl
@[simp] theorem sendBk_mtr (x1_) : (s.sendBk x1_).mtr = s.mtr := (s.sendBk_only x1_).mtr rfl
@[simp] theorem sendBk_jr (x1_) : (s.sendBk x1_).jr = s.jr := (s.sendBk_only x1_).jr rfl
@[simp] theorem sendBk_thm (x1_) : (s.sendBk x1_).thm = s.thm := (s.sendBk_only x1_).thm rfl
@[simp] theorem sendBk_aux (x1_) : (s.sendBk x1_).aux = s.aux := (s.sendBk_only x1_).aux rfl
@[simp] theorem sendBk_free (x1_) : (s.sendBk x1_).free = s.free := (s.sendBk_only x1_).free rfl
/-- All that `actScope` may change. -/
theorem actScope_only (x1_ x2_ x3_ x4_ x5_) (hl : x1_ ∈ latchFields) : Only 0x1942500120000200 s (s.actScope x1_ x2_ x3_ x4_ x5_) := Only.actScope (Only.refl _ s) x1_ x2_ x3_ x4_ x5_ rfl hl
theorem rdi_actScope (x1_ x2_ x3_ x4_ x5_) (hl : x1_ ∈ latchFields) (f' : Fld) (i : Nat) (hf : fr 0x1942500120000200 f' = true) : (s.actScope x1_ x2_ x3_ x4_ x5_).rdi f' i = s.rdi f' i :=
  (s.actScope_only x1_ x2_ x3_ x4_ x5_ hl).rdi f' i hf
theorem actScope_tm (x1_ x2_ x3_ x4_ x5_) (hl : x1_ ∈ latchFields) : (s.actScope x1_ x2_ x3_ x4_ x5_).tm = s.tm := (s.actScope_only x1_ x2_ x3_ x4_ x5_ hl).tm rfl
theorem actScope_clk (x1_ x2_ x3_ x4_ x5_) (hl : x1_ ∈ latchFields) : (s.actScope x1_ x2_ x3_ x4_ x5_).clk = s.clk := (s.actScope_only x1_ x2_ x3_ x4_ x5_ hl).clk rfl
theorem actScope_pwr (x1_ x2_ x3_ x4_ x5_) (hl : x1_ ∈ latchFields) : (s.actScope x1_ x2_ x3_ x4_ x5_).pwr = s.pwr := (s.actScope_only x1_ x2_ x3_ x4_ x5_ hl).pwr rfl
theorem actScope_tri (x1_ x2_ x3_ x4_ x5_) (hl : x1_ ∈ latchFields) : (s.actScope x1_ x2_ x3_ x4_ x5_).tri = s.tri := (s.actScope_only x1_ x2_ x3_ x4_ x5_ hl).tri rfl
theorem actScope_saf (x1_ x2_ x3_ x4_ x5_) (hl : x1_ ∈ latchFields) : (s.actScope x1_ x2_ x3_ x4_ x5_).saf = s.saf := (s.actScope_only x1_ x2_ x3_ x4_ x5_ hl).saf rfl
theorem actScope_rings (x1_ x2_ x3_ x4_ x5_) (hl : x1_ ∈ latchFields) : (s.actScope x1_ x2_ x3_ x4_ x5_).rings = s.rings := (s.actScope_only x1_ x2_ x3_ x4_ x5_ hl).rings rfl
theorem actScope_law (x1_ x2_ x3_ x4_ x5_) (hl : x1_ ∈ latchFields) : (s.actScope x1_ x2_ x3_ x4_ x5_).law = s.law := (s.actScope_only x1_ x2_ x3_ x4_ x5_ hl).law rfl
theorem actScope_lawC (x1_ x2_ x3_ x4_ x5_) (hl : x1_ ∈ latchFields) : (s.actScope x1_ x2_ x3_ x4_ x5_).lawC = s.lawC := (s.actScope_only x1_ x2_ x3_ x4_ x5_ hl).lawC rfl
theorem actScope_sp (x1_ x2_ x3_ x4_ x5_) (hl : x1_ ∈ latchFields) : (s.actScope x1_ x2_ x3_ x4_ x5_).sp = s.sp := (s.actScope_only x1_ x2_ x3_ x4_ x5_ hl).sp rfl
theorem actScope_sched (x1_ x2_ x3_ x4_ x5_) (hl : x1_ ∈ latchFields) : (s.actScope x1_ x2_ x3_ x4_ x5_).sched = s.sched := (s.actScope_only x1_ x2_ x3_ x4_ x5_ hl).sched rfl
theorem actScope_mtr (x1_ x2_ x3_ x4_ x5_) (hl : x1_ ∈ latchFields) : (s.actScope x1_ x2_ x3_ x4_ x5_).mtr = s.mtr := (s.actScope_only x1_ x2_ x3_ x4_ x5_ hl).mtr rfl
theorem actScope_thm (x1_ x2_ x3_ x4_ x5_) (hl : x1_ ∈ latchFields) : (s.actScope x1_ x2_ x3_ x4_ x5_).thm = s.thm := (s.actScope_only x1_ x2_ x3_ x4_ x5_ hl).thm rfl
theorem actScope_aux (x1_ x2_ x3_ x4_ x5_) (hl : x1_ ∈ latchFields) : (s.actScope x1_ x2_ x3_ x4_ x5_).aux = s.aux := (s.actScope_only x1_ x2_ x3_ x4_ x5_ hl).aux rfl
/-- All that `updCell` may change. -/
theorem updCell_only (x1_ x2_) : Only 0x2000000000000 s (s.updCell x1_ x2_) := Only.updCell (Only.refl _ s) x1_ x2_ rfl
@[simp] theorem rdi_updCell (x1_ x2_) (f' : Fld) (i : Nat) (hf : fr 0x2000000000000 f' = true) : (s.updCell x1_ x2_).rdi f' i = s.rdi f' i :=
  (s.updCell_only x1_ x2_).rdi f' i hf
@[simp] theorem updCell_tm (x1_ x2_) : (s.updCell x1_ x2_).tm = s.tm := (s.updCell_only x1_ x2_).tm rfl
@[simp] theorem updCell_clk (x1_ x2_) : (s.updCell x1_ x2_).clk = s.clk := (s.updCell_only x1_ x2_).clk rfl
@[simp] theorem updCell_pwr (x1_ x2_) : (s.updCell x1_ x2_).pwr = s.pwr := (s.updCell_only x1_ x2_).pwr rfl
@[simp] theorem updCell_hst (x1_ x2_) : (s.updCell x1_ x2_).hst = s.hst := (s.updCell_only x1_ x2_).hst rfl
@[simp] theorem updCell_tri (x1_ x2_) : (s.updCell x1_ x2_).tri = s.tri := (s.updCell_only x1_ x2_).tri rfl
@[simp] theorem updCell_slc (x1_ x2_) : (s.updCell x1_ x2_).slc = s.slc := (s.updCell_only x1_ x2_).slc rfl
@[simp] theorem updCell_saf (x1_ x2_) : (s.updCell x1_ x2_).saf = s.saf := (s.updCell_only x1_ x2_).saf rfl
@[simp] theorem updCell_rings (x1_ x2_) : (s.updCell x1_ x2_).rings = s.rings := (s.updCell_only x1_ x2_).rings rfl
@[simp] theorem updCell_law (x1_ x2_) : (s.updCell x1_ x2_).law = s.law := (s.updCell_only x1_ x2_).law rfl
@[simp] theorem updCell_lawC (x1_ x2_) : (s.updCell x1_ x2_).lawC = s.lawC := (s.updCell_only x1_ x2_).lawC rfl
@[simp] theorem updCell_sp (x1_ x2_) : (s.updCell x1_ x2_).sp = s.sp := (s.updCell_only x1_ x2_).sp rfl
@[simp] theorem updCell_sched (x1_ x2_) : (s.updCell x1_ x2_).sched = s.sched := (s.updCell_only x1_ x2_).sched rfl
@[simp] theorem updCell_adc (x1_ x2_) : (s.updCell x1_ x2_).adc = s.adc := (s.updCell_only x1_ x2_).adc rfl
@[simp] theorem updCell_mtr (x1_ x2_) : (s.updCell x1_ x2_).mtr = s.mtr := (s.updCell_only x1_ x2_).mtr rfl
@[simp] theorem updCell_jr (x1_ x2_) : (s.updCell x1_ x2_).jr = s.jr := (s.updCell_only x1_ x2_).jr rfl
@[simp] theorem updCell_thm (x1_ x2_) : (s.updCell x1_ x2_).thm = s.thm := (s.updCell_only x1_ x2_).thm rfl
@[simp] theorem updCell_aux (x1_ x2_) : (s.updCell x1_ x2_).aux = s.aux := (s.updCell_only x1_ x2_).aux rfl
@[simp] theorem updCell_free (x1_ x2_) : (s.updCell x1_ x2_).free = s.free := (s.updCell_only x1_ x2_).free rfl
@[simp] theorem updCell_out (x1_ x2_) : (s.updCell x1_ x2_).out = s.out := (s.updCell_only x1_ x2_).out rfl
/-- All that `blockCell` may change. -/
theorem blockCell_only (x1_) : Only 0x1002000000000000 s (s.blockCell x1_) := Only.blockCell (Only.refl _ s) x1_ rfl
@[simp] theorem rdi_blockCell (x1_) (f' : Fld) (i : Nat) (hf : fr 0x1002000000000000 f' = true) : (s.blockCell x1_).rdi f' i = s.rdi f' i :=
  (s.blockCell_only x1_).rdi f' i hf
@[simp] theorem blockCell_tm (x1_) : (s.blockCell x1_).tm = s.tm := (s.blockCell_only x1_).tm rfl
@[simp] theorem blockCell_clk (x1_) : (s.blockCell x1_).clk = s.clk := (s.blockCell_only x1_).clk rfl
@[simp] theorem blockCell_pwr (x1_) : (s.blockCell x1_).pwr = s.pwr := (s.blockCell_only x1_).pwr rfl
@[simp] theorem blockCell_hst (x1_) : (s.blockCell x1_).hst = s.hst := (s.blockCell_only x1_).hst rfl
@[simp] theorem blockCell_tri (x1_) : (s.blockCell x1_).tri = s.tri := (s.blockCell_only x1_).tri rfl
@[simp] theorem blockCell_slc (x1_) : (s.blockCell x1_).slc = s.slc := (s.blockCell_only x1_).slc rfl
@[simp] theorem blockCell_saf (x1_) : (s.blockCell x1_).saf = s.saf := (s.blockCell_only x1_).saf rfl
@[simp] theorem blockCell_rings (x1_) : (s.blockCell x1_).rings = s.rings := (s.blockCell_only x1_).rings rfl
@[simp] theorem blockCell_law (x1_) : (s.blockCell x1_).law = s.law := (s.blockCell_only x1_).law rfl
@[simp] theorem blockCell_lawC (x1_) : (s.blockCell x1_).lawC = s.lawC := (s.blockCell_only x1_).lawC rfl
@[simp] theorem blockCell_sp (x1_) : (s.blockCell x1_).sp = s.sp := (s.blockCell_only x1_).sp rfl
@[simp] theorem blockCell_sched (x1_) : (s.blockCell x1_).sched = s.sched := (s.blockCell_only x1_).sched rfl
@[simp] theorem blockCell_adc (x1_) : (s.blockCell x1_).adc = s.adc := (s.blockCell_only x1_).adc rfl
@[simp] theorem blockCell_mtr (x1_) : (s.blockCell x1_).mtr = s.mtr := (s.blockCell_only x1_).mtr rfl
@[simp] theorem blockCell_jr (x1_) : (s.blockCell x1_).jr = s.jr := (s.blockCell_only x1_).jr rfl
@[simp] theorem blockCell_thm (x1_) : (s.blockCell x1_).thm = s.thm := (s.blockCell_only x1_).thm rfl
@[simp] theorem blockCell_aux (x1_) : (s.blockCell x1_).aux = s.aux := (s.blockCell_only x1_).aux rfl
@[simp] theorem blockCell_free (x1_) : (s.blockCell x1_).free = s.free := (s.blockCell_only x1_).free rfl
/-- All that `cellEvent` may change. -/
theorem cellEvent_only (x1_ x2_ x3_ x4_) : Only 0x1100100000008200 s (s.cellEvent x1_ x2_ x3_ x4_) := Only.cellEvent (Only.refl _ s) x1_ x2_ x3_ x4_ rfl
@[simp] theorem rdi_cellEvent (x1_ x2_ x3_ x4_) (f' : Fld) (i : Nat) (hf : fr 0x1100100000008200 f' = true) : (s.cellEvent x1_ x2_ x3_ x4_).rdi f' i = s.rdi f' i :=
  (s.cellEvent_only x1_ x2_ x3_ x4_).rdi f' i hf
@[simp] theorem cellEvent_tm (x1_ x2_ x3_ x4_) : (s.cellEvent x1_ x2_ x3_ x4_).tm = s.tm := (s.cellEvent_only x1_ x2_ x3_ x4_).tm rfl
@[simp] theorem cellEvent_clk (x1_ x2_ x3_ x4_) : (s.cellEvent x1_ x2_ x3_ x4_).clk = s.clk := (s.cellEvent_only x1_ x2_ x3_ x4_).clk rfl
@[simp] theorem cellEvent_pwr (x1_ x2_ x3_ x4_) : (s.cellEvent x1_ x2_ x3_ x4_).pwr = s.pwr := (s.cellEvent_only x1_ x2_ x3_ x4_).pwr rfl
@[simp] theorem cellEvent_tri (x1_ x2_ x3_ x4_) : (s.cellEvent x1_ x2_ x3_ x4_).tri = s.tri := (s.cellEvent_only x1_ x2_ x3_ x4_).tri rfl
@[simp] theorem cellEvent_slc (x1_ x2_ x3_ x4_) : (s.cellEvent x1_ x2_ x3_ x4_).slc = s.slc := (s.cellEvent_only x1_ x2_ x3_ x4_).slc rfl
@[simp] theorem cellEvent_saf (x1_ x2_ x3_ x4_) : (s.cellEvent x1_ x2_ x3_ x4_).saf = s.saf := (s.cellEvent_only x1_ x2_ x3_ x4_).saf rfl
@[simp] theorem cellEvent_rings (x1_ x2_ x3_ x4_) : (s.cellEvent x1_ x2_ x3_ x4_).rings = s.rings := (s.cellEvent_only x1_ x2_ x3_ x4_).rings rfl
@[simp] theorem cellEvent_cells (x1_ x2_ x3_ x4_) : (s.cellEvent x1_ x2_ x3_ x4_).cells = s.cells := (s.cellEvent_only x1_ x2_ x3_ x4_).cells rfl
@[simp] theorem cellEvent_law (x1_ x2_ x3_ x4_) : (s.cellEvent x1_ x2_ x3_ x4_).law = s.law := (s.cellEvent_only x1_ x2_ x3_ x4_).law rfl
@[simp] theorem cellEvent_lawC (x1_ x2_ x3_ x4_) : (s.cellEvent x1_ x2_ x3_ x4_).lawC = s.lawC := (s.cellEvent_only x1_ x2_ x3_ x4_).lawC rfl
@[simp] theorem cellEvent_sp (x1_ x2_ x3_ x4_) : (s.cellEvent x1_ x2_ x3_ x4_).sp = s.sp := (s.cellEvent_only x1_ x2_ x3_ x4_).sp rfl
@[simp] theorem cellEvent_sched (x1_ x2_ x3_ x4_) : (s.cellEvent x1_ x2_ x3_ x4_).sched = s.sched := (s.cellEvent_only x1_ x2_ x3_ x4_).sched rfl
@[simp] theorem cellEvent_adc (x1_ x2_ x3_ x4_) : (s.cellEvent x1_ x2_ x3_ x4_).adc = s.adc := (s.cellEvent_only x1_ x2_ x3_ x4_).adc rfl
@[simp] theorem cellEvent_mtr (x1_ x2_ x3_ x4_) : (s.cellEvent x1_ x2_ x3_ x4_).mtr = s.mtr := (s.cellEvent_only x1_ x2_ x3_ x4_).mtr rfl
@[simp] theorem cellEvent_thm (x1_ x2_ x3_ x4_) : (s.cellEvent x1_ x2_ x3_ x4_).thm = s.thm := (s.cellEvent_only x1_ x2_ x3_ x4_).thm rfl
@[simp] theorem cellEvent_aux (x1_ x2_ x3_ x4_) : (s.cellEvent x1_ x2_ x3_ x4_).aux = s.aux := (s.cellEvent_only x1_ x2_ x3_ x4_).aux rfl
@[simp] theorem cellEvent_free (x1_ x2_ x3_ x4_) : (s.cellEvent x1_ x2_ x3_ x4_).free = s.free := (s.cellEvent_only x1_ x2_ x3_ x4_).free rfl
/-- All that `clockEvent` may change. -/
theorem clockEvent_only (x1_ x2_ x3_) : Only 0x1100100000000200 s (s.clockEvent x1_ x2_ x3_) := Only.clockEvent (Only.refl _ s) x1_ x2_ x3_ rfl
@[simp] theorem rdi_clockEvent (x1_ x2_ x3_) (f' : Fld) (i : Nat) (hf : fr 0x1100100000000200 f' = true) : (s.clockEvent x1_ x2_ x3_).rdi f' i = s.rdi f' i :=
  (s.clockEvent_only x1_ x2_ x3_).rdi f' i hf
@[simp] theorem clockEvent_tm (x1_ x2_ x3_) : (s.clockEvent x1_ x2_ x3_).tm = s.tm := (s.clockEvent_only x1_ x2_ x3_).tm rfl
@[simp] theorem clockEvent_clk (x1_ x2_ x3_) : (s.clockEvent x1_ x2_ x3_).clk = s.clk := (s.clockEvent_only x1_ x2_ x3_).clk rfl
@[simp] theorem clockEvent_pwr (x1_ x2_ x3_) : (s.clockEvent x1_ x2_ x3_).pwr = s.pwr := (s.clockEvent_only x1_ x2_ x3_).pwr rfl
@[simp] theorem clockEvent_tri (x1_ x2_ x3_) : (s.clockEvent x1_ x2_ x3_).tri = s.tri := (s.clockEvent_only x1_ x2_ x3_).tri rfl
@[simp] theorem clockEvent_slc (x1_ x2_ x3_) : (s.clockEvent x1_ x2_ x3_).slc = s.slc := (s.clockEvent_only x1_ x2_ x3_).slc rfl
@[simp] theorem clockEvent_saf (x1_ x2_ x3_) : (s.clockEvent x1_ x2_ x3_).saf = s.saf := (s.clockEvent_only x1_ x2_ x3_).saf rfl
@[simp] theorem clockEvent_rings (x1_ x2_ x3_) : (s.clockEvent x1_ x2_ x3_).rings = s.rings := (s.clockEvent_only x1_ x2_ x3_).rings rfl
@[simp] theorem clockEvent_cells (x1_ x2_ x3_) : (s.clockEvent x1_ x2_ x3_).cells = s.cells := (s.clockEvent_only x1_ x2_ x3_).cells rfl
@[simp] theorem clockEvent_law (x1_ x2_ x3_) : (s.clockEvent x1_ x2_ x3_).law = s.law := (s.clockEvent_only x1_ x2_ x3_).law rfl
@[simp] theorem clockEvent_lawC (x1_ x2_ x3_) : (s.clockEvent x1_ x2_ x3_).lawC = s.lawC := (s.clockEvent_only x1_ x2_ x3_).lawC rfl
@[simp] theorem clockEvent_sp (x1_ x2_ x3_) : (s.clockEvent x1_ x2_ x3_).sp = s.sp := (s.clockEvent_only x1_ x2_ x3_).sp rfl
@[simp] theorem clockEvent_sched (x1_ x2_ x3_) : (s.clockEvent x1_ x2_ x3_).sched = s.sched := (s.clockEvent_only x1_ x2_ x3_).sched rfl
@[simp] theorem clockEvent_adc (x1_ x2_ x3_) : (s.clockEvent x1_ x2_ x3_).adc = s.adc := (s.clockEvent_only x1_ x2_ x3_).adc rfl
@[simp] theorem clockEvent_mtr (x1_ x2_ x3_) : (s.clockEvent x1_ x2_ x3_).mtr = s.mtr := (s.clockEvent_only x1_ x2_ x3_).mtr rfl
@[simp] theorem clockEvent_thm (x1_ x2_ x3_) : (s.clockEvent x1_ x2_ x3_).thm = s.thm := (s.clockEvent_only x1_ x2_ x3_).thm rfl
@[simp] theorem clockEvent_aux (x1_ x2_ x3_) : (s.clockEvent x1_ x2_ x3_).aux = s.aux := (s.clockEvent_only x1_ x2_ x3_).aux rfl
@[simp] theorem clockEvent_free (x1_ x2_ x3_) : (s.clockEvent x1_ x2_ x3_).free = s.free := (s.clockEvent_only x1_ x2_ x3_).free rfl
/-- All that `completeAtTend` may change. -/
theorem completeAtTend_only (x1_ x2_ x3_) : Only 0x100000000000 s (s.completeAtTend x1_ x2_ x3_) := Only.completeAtTend (Only.refl _ s) x1_ x2_ x3_ rfl
@[simp] theorem rdi_completeAtTend (x1_ x2_ x3_) (f' : Fld) (i : Nat) (hf : fr 0x100000000000 f' = true) : (s.completeAtTend x1_ x2_ x3_).rdi f' i = s.rdi f' i :=
  (s.completeAtTend_only x1_ x2_ x3_).rdi f' i hf
@[simp] theorem completeAtTend_tm (x1_ x2_ x3_) : (s.completeAtTend x1_ x2_ x3_).tm = s.tm := (s.completeAtTend_only x1_ x2_ x3_).tm rfl
@[simp] theorem completeAtTend_clk (x1_ x2_ x3_) : (s.completeAtTend x1_ x2_ x3_).clk = s.clk := (s.completeAtTend_only x1_ x2_ x3_).clk rfl
@[simp] theorem completeAtTend_pwr (x1_ x2_ x3_) : (s.completeAtTend x1_ x2_ x3_).pwr = s.pwr := (s.completeAtTend_only x1_ x2_ x3_).pwr rfl
@[simp] theorem completeAtTend_tri (x1_ x2_ x3_) : (s.completeAtTend x1_ x2_ x3_).tri = s.tri := (s.completeAtTend_only x1_ x2_ x3_).tri rfl
@[simp] theorem completeAtTend_slc (x1_ x2_ x3_) : (s.completeAtTend x1_ x2_ x3_).slc = s.slc := (s.completeAtTend_only x1_ x2_ x3_).slc rfl
@[simp] theorem completeAtTend_saf (x1_ x2_ x3_) : (s.completeAtTend x1_ x2_ x3_).saf = s.saf := (s.completeAtTend_only x1_ x2_ x3_).saf rfl
@[simp] theorem completeAtTend_rings (x1_ x2_ x3_) : (s.completeAtTend x1_ x2_ x3_).rings = s.rings := (s.completeAtTend_only x1_ x2_ x3_).rings rfl
@[simp] theorem completeAtTend_cells (x1_ x2_ x3_) : (s.completeAtTend x1_ x2_ x3_).cells = s.cells := (s.completeAtTend_only x1_ x2_ x3_).cells rfl
@[simp] theorem completeAtTend_law (x1_ x2_ x3_) : (s.completeAtTend x1_ x2_ x3_).law = s.law := (s.completeAtTend_only x1_ x2_ x3_).law rfl
@[simp] theorem completeAtTend_lawC (x1_ x2_ x3_) : (s.completeAtTend x1_ x2_ x3_).lawC = s.lawC := (s.completeAtTend_only x1_ x2_ x3_).lawC rfl
@[simp] theorem completeAtTend_sp (x1_ x2_ x3_) : (s.completeAtTend x1_ x2_ x3_).sp = s.sp := (s.completeAtTend_only x1_ x2_ x3_).sp rfl
@[simp] theorem completeAtTend_sched (x1_ x2_ x3_) : (s.completeAtTend x1_ x2_ x3_).sched = s.sched := (s.completeAtTend_only x1_ x2_ x3_).sched rfl
@[simp] theorem completeAtTend_adc (x1_ x2_ x3_) : (s.completeAtTend x1_ x2_ x3_).adc = s.adc := (s.completeAtTend_only x1_ x2_ x3_).adc rfl
@[simp] theorem completeAtTend_mtr (x1_ x2_ x3_) : (s.completeAtTend x1_ x2_ x3_).mtr = s.mtr := (s.completeAtTend_only x1_ x2_ x3_).mtr rfl
@[simp] theorem completeAtTend_jr (x1_ x2_ x3_) : (s.completeAtTend x1_ x2_ x3_).jr = s.jr := (s.completeAtTend_only x1_ x2_ x3_).jr rfl
@[simp] theorem completeAtTend_thm (x1_ x2_ x3_) : (s.completeAtTend x1_ x2_ x3_).thm = s.thm := (s.completeAtTend_only x1_ x2_ x3_).thm rfl
@[simp] theorem completeAtTend_aux (x1_ x2_ x3_) : (s.completeAtTend x1_ x2_ x3_).aux = s.aux := (s.completeAtTend_only x1_ x2_ x3_).aux rfl
@[simp] theorem completeAtTend_free (x1_ x2_ x3_) : (s.completeAtTend x1_ x2_ x3_).free = s.free := (s.completeAtTend_only x1_ x2_ x3_).free rfl
@[simp] theorem completeAtTend_out (x1_ x2_ x3_) : (s.completeAtTend x1_ x2_ x3_).out = s.out := (s.completeAtTend_only x1_ x2_ x3_).out rfl
/-- All that `configRefused` may change. -/
theorem configRefused_only (x1_ x2_ x3_) : Only 0x1100100000000200 s (s.configRefused x1_ x2_ x3_) := Only.configRefused (Only.refl _ s) x1_ x2_ x3_ rfl
@[simp] theorem rdi_configRefused (x1_ x2_ x3_) (f' : Fld) (i : Nat) (hf : fr 0x1100100000000200 f' = true) : (s.configRefused x1_ x2_ x3_).rdi f' i = s.rdi f' i :=
  (s.configRefused_only x1_ x2_ x3_).rdi f' i hf
@[simp] theorem configRefused_tm (x1_ x2_ x3_) : (s.configRefused x1_ x2_ x3_).tm = s.tm := (s.configRefused_only x1_ x2_ x3_).tm rfl
@[simp] theorem configRefused_clk (x1_ x2_ x3_) : (s.configRefused x1_ x2_ x3_).clk = s.clk := (s.configRefused_only x1_ x2_ x3_).clk rfl
@[simp] theorem configRefused_pwr (x1_ x2_ x3_) : (s.configRefused x1_ x2_ x3_).pwr = s.pwr := (s.configRefused_only x1_ x2_ x3_).pwr rfl
@[simp] theorem configRefused_tri (x1_ x2_ x3_) : (s.configRefused x1_ x2_ x3_).tri = s.tri := (s.configRefused_only x1_ x2_ x3_).tri rfl
@[simp] theorem configRefused_slc (x1_ x2_ x3_) : (s.configRefused x1_ x2_ x3_).slc = s.slc := (s.configRefused_only x1_ x2_ x3_).slc rfl
@[simp] theorem configRefused_saf (x1_ x2_ x3_) : (s.configRefused x1_ x2_ x3_).saf = s.saf := (s.configRefused_only x1_ x2_ x3_).saf rfl
@[simp] theorem configRefused_rings (x1_ x2_ x3_) : (s.configRefused x1_ x2_ x3_).rings = s.rings := (s.configRefused_only x1_ x2_ x3_).rings rfl
@[simp] theorem configRefused_cells (x1_ x2_ x3_) : (s.configRefused x1_ x2_ x3_).cells = s.cells := (s.configRefused_only x1_ x2_ x3_).cells rfl
@[simp] theorem configRefused_law (x1_ x2_ x3_) : (s.configRefused x1_ x2_ x3_).law = s.law := (s.configRefused_only x1_ x2_ x3_).law rfl
@[simp] theorem configRefused_lawC (x1_ x2_ x3_) : (s.configRefused x1_ x2_ x3_).lawC = s.lawC := (s.configRefused_only x1_ x2_ x3_).lawC rfl
@[simp] theorem configRefused_sp (x1_ x2_ x3_) : (s.configRefused x1_ x2_ x3_).sp = s.sp := (s.configRefused_only x1_ x2_ x3_).sp rfl
@[simp] theorem configRefused_sched (x1_ x2_ x3_) : (s.configRefused x1_ x2_ x3_).sched = s.sched := (s.configRefused_only x1_ x2_ x3_).sched rfl
@[simp] theorem configRefused_adc (x1_ x2_ x3_) : (s.configRefused x1_ x2_ x3_).adc = s.adc := (s.configRefused_only x1_ x2_ x3_).adc rfl
@[simp] theorem configRefused_mtr (x1_ x2_ x3_) : (s.configRefused x1_ x2_ x3_).mtr = s.mtr := (s.configRefused_only x1_ x2_ x3_).mtr rfl
@[simp] theorem configRefused_thm (x1_ x2_ x3_) : (s.configRefused x1_ x2_ x3_).thm = s.thm := (s.configRefused_only x1_ x2_ x3_).thm rfl
@[simp] theorem configRefused_aux (x1_ x2_ x3_) : (s.configRefused x1_ x2_ x3_).aux = s.aux := (s.configRefused_only x1_ x2_ x3_).aux rfl
@[simp] theorem configRefused_free (x1_ x2_ x3_) : (s.configRefused x1_ x2_ x3_).free = s.free := (s.configRefused_only x1_ x2_ x3_).free rfl
/-- All that `latchOnly` may change. -/
theorem latchOnly_only (x1_ x2_) (hl : x1_ ∈ latchFields) : Only 0x400100000000 s (s.latchOnly x1_ x2_) := Only.latchOnly (Only.refl _ s) x1_ x2_ rfl hl
theorem rdi_latchOnly (x1_ x2_) (hl : x1_ ∈ latchFields) (f' : Fld) (i : Nat) (hf : fr 0x400100000000 f' = true) : (s.latchOnly x1_ x2_).rdi f' i = s.rdi f' i :=
  (s.latchOnly_only x1_ x2_ hl).rdi f' i hf
theorem latchOnly_tm (x1_ x2_) (hl : x1_ ∈ latchFields) : (s.latchOnly x1_ x2_).tm = s.tm := (s.latchOnly_only x1_ x2_ hl).tm rfl
theorem latchOnly_clk (x1_ x2_) (hl : x1_ ∈ latchFields) : (s.latchOnly x1_ x2_).clk = s.clk := (s.latchOnly_only x1_ x2_ hl).clk rfl
theorem latchOnly_pwr (x1_ x2_) (hl : x1_ ∈ latchFields) : (s.latchOnly x1_ x2_).pwr = s.pwr := (s.latchOnly_only x1_ x2_ hl).pwr rfl
theorem latchOnly_hst (x1_ x2_) (hl : x1_ ∈ latchFields) : (s.latchOnly x1_ x2_).hst = s.hst := (s.latchOnly_only x1_ x2_ hl).hst rfl
theorem latchOnly_tri (x1_ x2_) (hl : x1_ ∈ latchFields) : (s.latchOnly x1_ x2_).tri = s.tri := (s.latchOnly_only x1_ x2_ hl).tri rfl
theorem latchOnly_saf (x1_ x2_) (hl : x1_ ∈ latchFields) : (s.latchOnly x1_ x2_).saf = s.saf := (s.latchOnly_only x1_ x2_ hl).saf rfl
theorem latchOnly_rings (x1_ x2_) (hl : x1_ ∈ latchFields) : (s.latchOnly x1_ x2_).rings = s.rings := (s.latchOnly_only x1_ x2_ hl).rings rfl
theorem latchOnly_cells (x1_ x2_) (hl : x1_ ∈ latchFields) : (s.latchOnly x1_ x2_).cells = s.cells := (s.latchOnly_only x1_ x2_ hl).cells rfl
theorem latchOnly_law (x1_ x2_) (hl : x1_ ∈ latchFields) : (s.latchOnly x1_ x2_).law = s.law := (s.latchOnly_only x1_ x2_ hl).law rfl
theorem latchOnly_lawC (x1_ x2_) (hl : x1_ ∈ latchFields) : (s.latchOnly x1_ x2_).lawC = s.lawC := (s.latchOnly_only x1_ x2_ hl).lawC rfl
theorem latchOnly_sp (x1_ x2_) (hl : x1_ ∈ latchFields) : (s.latchOnly x1_ x2_).sp = s.sp := (s.latchOnly_only x1_ x2_ hl).sp rfl
theorem latchOnly_sched (x1_ x2_) (hl : x1_ ∈ latchFields) : (s.latchOnly x1_ x2_).sched = s.sched := (s.latchOnly_only x1_ x2_ hl).sched rfl
theorem latchOnly_adc (x1_ x2_) (hl : x1_ ∈ latchFields) : (s.latchOnly x1_ x2_).adc = s.adc := (s.latchOnly_only x1_ x2_ hl).adc rfl
theorem latchOnly_mtr (x1_ x2_) (hl : x1_ ∈ latchFields) : (s.latchOnly x1_ x2_).mtr = s.mtr := (s.latchOnly_only x1_ x2_ hl).mtr rfl
theorem latchOnly_jr (x1_ x2_) (hl : x1_ ∈ latchFields) : (s.latchOnly x1_ x2_).jr = s.jr := (s.latchOnly_only x1_ x2_ hl).jr rfl
theorem latchOnly_thm (x1_ x2_) (hl : x1_ ∈ latchFields) : (s.latchOnly x1_ x2_).thm = s.thm := (s.latchOnly_only x1_ x2_ hl).thm rfl
theorem latchOnly_aux (x1_ x2_) (hl : x1_ ∈ latchFields) : (s.latchOnly x1_ x2_).aux = s.aux := (s.latchOnly_only x1_ x2_ hl).aux rfl
theorem latchOnly_free (x1_ x2_) (hl : x1_ ∈ latchFields) : (s.latchOnly x1_ x2_).free = s.free := (s.latchOnly_only x1_ x2_ hl).free rfl
theorem latchOnly_out (x1_ x2_) (hl : x1_ ∈ latchFields) : (s.latchOnly x1_ x2_).out = s.out := (s.latchOnly_only x1_ x2_ hl).out rfl
/-- All that `linkEvent` may change. -/
theorem linkEvent_only (x1_ x2_ x3_ x4_) : Only 0x1100100000000200 s (s.linkEvent x1_ x2_ x3_ x4_) := Only.linkEvent (Only.refl _ s) x1_ x2_ x3_ x4_ rfl
@[simp] theorem rdi_linkEvent (x1_ x2_ x3_ x4_) (f' : Fld) (i : Nat) (hf : fr 0x1100100000000200 f' = true) : (s.linkEvent x1_ x2_ x3_ x4_).rdi f' i = s.rdi f' i :=
  (s.linkEvent_only x1_ x2_ x3_ x4_).rdi f' i hf
@[simp] theorem linkEvent_tm (x1_ x2_ x3_ x4_) : (s.linkEvent x1_ x2_ x3_ x4_).tm = s.tm := (s.linkEvent_only x1_ x2_ x3_ x4_).tm rfl
@[simp] theorem linkEvent_clk (x1_ x2_ x3_ x4_) : (s.linkEvent x1_ x2_ x3_ x4_).clk = s.clk := (s.linkEvent_only x1_ x2_ x3_ x4_).clk rfl
@[simp] theorem linkEvent_pwr (x1_ x2_ x3_ x4_) : (s.linkEvent x1_ x2_ x3_ x4_).pwr = s.pwr := (s.linkEvent_only x1_ x2_ x3_ x4_).pwr rfl
@[simp] theorem linkEvent_tri (x1_ x2_ x3_ x4_) : (s.linkEvent x1_ x2_ x3_ x4_).tri = s.tri := (s.linkEvent_only x1_ x2_ x3_ x4_).tri rfl
@[simp] theorem linkEvent_slc (x1_ x2_ x3_ x4_) : (s.linkEvent x1_ x2_ x3_ x4_).slc = s.slc := (s.linkEvent_only x1_ x2_ x3_ x4_).slc rfl
@[simp] theorem linkEvent_saf (x1_ x2_ x3_ x4_) : (s.linkEvent x1_ x2_ x3_ x4_).saf = s.saf := (s.linkEvent_only x1_ x2_ x3_ x4_).saf rfl
@[simp] theorem linkEvent_rings (x1_ x2_ x3_ x4_) : (s.linkEvent x1_ x2_ x3_ x4_).rings = s.rings := (s.linkEvent_only x1_ x2_ x3_ x4_).rings rfl
@[simp] theorem linkEvent_cells (x1_ x2_ x3_ x4_) : (s.linkEvent x1_ x2_ x3_ x4_).cells = s.cells := (s.linkEvent_only x1_ x2_ x3_ x4_).cells rfl
@[simp] theorem linkEvent_law (x1_ x2_ x3_ x4_) : (s.linkEvent x1_ x2_ x3_ x4_).law = s.law := (s.linkEvent_only x1_ x2_ x3_ x4_).law rfl
@[simp] theorem linkEvent_lawC (x1_ x2_ x3_ x4_) : (s.linkEvent x1_ x2_ x3_ x4_).lawC = s.lawC := (s.linkEvent_only x1_ x2_ x3_ x4_).lawC rfl
@[simp] theorem linkEvent_sp (x1_ x2_ x3_ x4_) : (s.linkEvent x1_ x2_ x3_ x4_).sp = s.sp := (s.linkEvent_only x1_ x2_ x3_ x4_).sp rfl
@[simp] theorem linkEvent_sched (x1_ x2_ x3_ x4_) : (s.linkEvent x1_ x2_ x3_ x4_).sched = s.sched := (s.linkEvent_only x1_ x2_ x3_ x4_).sched rfl
@[simp] theorem linkEvent_adc (x1_ x2_ x3_ x4_) : (s.linkEvent x1_ x2_ x3_ x4_).adc = s.adc := (s.linkEvent_only x1_ x2_ x3_ x4_).adc rfl
@[simp] theorem linkEvent_mtr (x1_ x2_ x3_ x4_) : (s.linkEvent x1_ x2_ x3_ x4_).mtr = s.mtr := (s.linkEvent_only x1_ x2_ x3_ x4_).mtr rfl
@[simp] theorem linkEvent_thm (x1_ x2_ x3_ x4_) : (s.linkEvent x1_ x2_ x3_ x4_).thm = s.thm := (s.linkEvent_only x1_ x2_ x3_ x4_).thm rfl
@[simp] theorem linkEvent_aux (x1_ x2_ x3_ x4_) : (s.linkEvent x1_ x2_ x3_ x4_).aux = s.aux := (s.linkEvent_only x1_ x2_ x3_ x4_).aux rfl
@[simp] theorem linkEvent_free (x1_ x2_ x3_ x4_) : (s.linkEvent x1_ x2_ x3_ x4_).free = s.free := (s.linkEvent_only x1_ x2_ x3_ x4_).free rfl
/-- All that `moveTo` may change. -/
theorem moveTo_only (x1_) : Only 0x60000000000 s (s.moveTo x1_) := Only.moveTo (Only.refl _ s) x1_ rfl
@[simp] theorem rdi_moveTo (x1_) (f' : Fld) (i : Nat) (hf : fr 0x60000000000 f' = true) : (s.moveTo x1_).rdi f' i = s.rdi f' i :=
  (s.moveTo_only x1_).rdi f' i hf
@[simp] theorem moveTo_pwr (x1_) : (s.moveTo x1_).pwr = s.pwr := (s.moveTo_only x1_).pwr rfl
@[simp] theorem moveTo_hst (x1_) : (s.moveTo x1_).hst = s.hst := (s.moveTo_only x1_).hst rfl
@[simp] theorem moveTo_tri (x1_) : (s.moveTo x1_).tri = s.tri := (s.moveTo_only x1_).tri rfl
@[simp] theorem moveTo_slc (x1_) : (s.moveTo x1_).slc = s.slc := (s.moveTo_only x1_).slc rfl
@[simp] theorem moveTo_saf (x1_) : (s.moveTo x1_).saf = s.saf := (s.moveTo_only x1_).saf rfl
@[simp] theorem moveTo_rings (x1_) : (s.moveTo x1_).rings = s.rings := (s.moveTo_only x1_).rings rfl
@[simp] theorem moveTo_cells (x1_) : (s.moveTo x1_).cells = s.cells := (s.moveTo_only x1_).cells rfl
@[simp] theorem moveTo_law (x1_) : (s.moveTo x1_).law = s.law := (s.moveTo_only x1_).law rfl
@[simp] theorem moveTo_lawC (x1_) : (s.moveTo x1_).lawC = s.lawC := (s.moveTo_only x1_).lawC rfl
@[simp] theorem moveTo_sp (x1_) : (s.moveTo x1_).sp = s.sp := (s.moveTo_only x1_).sp rfl
@[simp] theorem moveTo_sched (x1_) : (s.moveTo x1_).sched = s.sched := (s.moveTo_only x1_).sched rfl
@[simp] theorem moveTo_adc (x1_) : (s.moveTo x1_).adc = s.adc := (s.moveTo_only x1_).adc rfl
@[simp] theorem moveTo_mtr (x1_) : (s.moveTo x1_).mtr = s.mtr := (s.moveTo_only x1_).mtr rfl
@[simp] theorem moveTo_jr (x1_) : (s.moveTo x1_).jr = s.jr := (s.moveTo_only x1_).jr rfl
@[simp] theorem moveTo_thm (x1_) : (s.moveTo x1_).thm = s.thm := (s.moveTo_only x1_).thm rfl
@[simp] theorem moveTo_aux (x1_) : (s.moveTo x1_).aux = s.aux := (s.moveTo_only x1_).aux rfl
@[simp] theorem moveTo_free (x1_) : (s.moveTo x1_).free = s.free := (s.moveTo_only x1_).free rfl
@[simp] theorem moveTo_out (x1_) : (s.moveTo x1_).out = s.out := (s.moveTo_only x1_).out rfl
/-- All that `phaseCounts` may change. -/
theorem phaseCounts_only : Only 0x10000 s (s.phaseCounts) := Only.phaseCounts (Only.refl _ s) rfl
@[simp] theorem rdi_phaseCounts (f' : Fld) (i : Nat) (hf : fr 0x10000 f' = true) : (s.phaseCounts).rdi f' i = s.rdi f' i :=
  (s.phaseCounts_only).rdi f' i hf
@[simp] theorem phaseCounts_tm : (s.phaseCounts).tm = s.tm := (s.phaseCounts_only).tm rfl
@[simp] theorem phaseCounts_clk : (s.phaseCounts).clk = s.clk := (s.phaseCounts_only).clk rfl
@[simp] theorem phaseCounts_pwr : (s.phaseCounts).pwr = s.pwr := (s.phaseCounts_only).pwr rfl
@[simp] theorem phaseCounts_hst : (s.phaseCounts).hst = s.hst := (s.phaseCounts_only).hst rfl
@[simp] theorem phaseCounts_tri : (s.phaseCounts).tri = s.tri := (s.phaseCounts_only).tri rfl
@[simp] theorem phaseCounts_slc : (s.phaseCounts).slc = s.slc := (s.phaseCounts_only).slc rfl
@[simp] theorem phaseCounts_saf : (s.phaseCounts).saf = s.saf := (s.phaseCounts_only).saf rfl
@[simp] theorem phaseCounts_rings : (s.phaseCounts).rings = s.rings := (s.phaseCounts_only).rings rfl
@[simp] theorem phaseCounts_cells : (s.phaseCounts).cells = s.cells := (s.phaseCounts_only).cells rfl
@[simp] theorem phaseCounts_law : (s.phaseCounts).law = s.law := (s.phaseCounts_only).law rfl
@[simp] theorem phaseCounts_lawC : (s.phaseCounts).lawC = s.lawC := (s.phaseCounts_only).lawC rfl
@[simp] theorem phaseCounts_sp : (s.phaseCounts).sp = s.sp := (s.phaseCounts_only).sp rfl
@[simp] theorem phaseCounts_sched : (s.phaseCounts).sched = s.sched := (s.phaseCounts_only).sched rfl
@[simp] theorem phaseCounts_adc : (s.phaseCounts).adc = s.adc := (s.phaseCounts_only).adc rfl
@[simp] theorem phaseCounts_mtr : (s.phaseCounts).mtr = s.mtr := (s.phaseCounts_only).mtr rfl
@[simp] theorem phaseCounts_jr : (s.phaseCounts).jr = s.jr := (s.phaseCounts_only).jr rfl
@[simp] theorem phaseCounts_thm : (s.phaseCounts).thm = s.thm := (s.phaseCounts_only).thm rfl
@[simp] theorem phaseCounts_aux : (s.phaseCounts).aux = s.aux := (s.phaseCounts_only).aux rfl
@[simp] theorem phaseCounts_free : (s.phaseCounts).free = s.free := (s.phaseCounts_only).free rfl
@[simp] theorem phaseCounts_out : (s.phaseCounts).out = s.out := (s.phaseCounts_only).out rfl
/-- All that `postLong` may change. -/
theorem postLong_only (x1_ x2_ x3_) : Only 0x1100100000000200 s (s.postLong x1_ x2_ x3_) := Only.postLong (Only.refl _ s) x1_ x2_ x3_ rfl
@[simp] theorem rdi_postLong (x1_ x2_ x3_) (f' : Fld) (i : Nat) (hf : fr 0x1100100000000200 f' = true) : (s.postLong x1_ x2_ x3_).rdi f' i = s.rdi f' i :=
  (s.postLong_only x1_ x2_ x3_).rdi f' i hf
@[simp] theorem postLong_tm (x1_ x2_ x3_) : (s.postLong x1_ x2_ x3_).tm = s.tm := (s.postLong_only x1_ x2_ x3_).tm rfl
@[simp] theorem postLong_clk (x1_ x2_ x3_) : (s.postLong x1_ x2_ x3_).clk = s.clk := (s.postLong_only x1_ x2_ x3_).clk rfl
@[simp] theorem postLong_pwr (x1_ x2_ x3_) : (s.postLong x1_ x2_ x3_).pwr = s.pwr := (s.postLong_only x1_ x2_ x3_).pwr rfl
@[simp] theorem postLong_tri (x1_ x2_ x3_) : (s.postLong x1_ x2_ x3_).tri = s.tri := (s.postLong_only x1_ x2_ x3_).tri rfl
@[simp] theorem postLong_slc (x1_ x2_ x3_) : (s.postLong x1_ x2_ x3_).slc = s.slc := (s.postLong_only x1_ x2_ x3_).slc rfl
@[simp] theorem postLong_saf (x1_ x2_ x3_) : (s.postLong x1_ x2_ x3_).saf = s.saf := (s.postLong_only x1_ x2_ x3_).saf rfl
@[simp] theorem postLong_rings (x1_ x2_ x3_) : (s.postLong x1_ x2_ x3_).rings = s.rings := (s.postLong_only x1_ x2_ x3_).rings rfl
@[simp] theorem postLong_cells (x1_ x2_ x3_) : (s.postLong x1_ x2_ x3_).cells = s.cells := (s.postLong_only x1_ x2_ x3_).cells rfl
@[simp] theorem postLong_law (x1_ x2_ x3_) : (s.postLong x1_ x2_ x3_).law = s.law := (s.postLong_only x1_ x2_ x3_).law rfl
@[simp] theorem postLong_lawC (x1_ x2_ x3_) : (s.postLong x1_ x2_ x3_).lawC = s.lawC := (s.postLong_only x1_ x2_ x3_).lawC rfl
@[simp] theorem postLong_sp (x1_ x2_ x3_) : (s.postLong x1_ x2_ x3_).sp = s.sp := (s.postLong_only x1_ x2_ x3_).sp rfl
@[simp] theorem postLong_sched (x1_ x2_ x3_) : (s.postLong x1_ x2_ x3_).sched = s.sched := (s.postLong_only x1_ x2_ x3_).sched rfl
@[simp] theorem postLong_adc (x1_ x2_ x3_) : (s.postLong x1_ x2_ x3_).adc = s.adc := (s.postLong_only x1_ x2_ x3_).adc rfl
@[simp] theorem postLong_mtr (x1_ x2_ x3_) : (s.postLong x1_ x2_ x3_).mtr = s.mtr := (s.postLong_only x1_ x2_ x3_).mtr rfl
@[simp] theorem postLong_thm (x1_ x2_ x3_) : (s.postLong x1_ x2_ x3_).thm = s.thm := (s.postLong_only x1_ x2_ x3_).thm rfl
@[simp] theorem postLong_aux (x1_ x2_ x3_) : (s.postLong x1_ x2_ x3_).aux = s.aux := (s.postLong_only x1_ x2_ x3_).aux rfl
@[simp] theorem postLong_free (x1_ x2_ x3_) : (s.postLong x1_ x2_ x3_).free = s.free := (s.postLong_only x1_ x2_ x3_).free rfl
/-- All that `powerEvent` may change. -/
theorem powerEvent_only (x1_ x2_) : Only 0x1100100000000200 s (s.powerEvent x1_ x2_) := Only.powerEvent (Only.refl _ s) x1_ x2_ rfl
@[simp] theorem rdi_powerEvent (x1_ x2_) (f' : Fld) (i : Nat) (hf : fr 0x1100100000000200 f' = true) : (s.powerEvent x1_ x2_).rdi f' i = s.rdi f' i :=
  (s.powerEvent_only x1_ x2_).rdi f' i hf
@[simp] theorem powerEvent_tm (x1_ x2_) : (s.powerEvent x1_ x2_).tm = s.tm := (s.powerEvent_only x1_ x2_).tm rfl
@[simp] theorem powerEvent_clk (x1_ x2_) : (s.powerEvent x1_ x2_).clk = s.clk := (s.powerEvent_only x1_ x2_).clk rfl
@[simp] theorem powerEvent_pwr (x1_ x2_) : (s.powerEvent x1_ x2_).pwr = s.pwr := (s.powerEvent_only x1_ x2_).pwr rfl
@[simp] theorem powerEvent_tri (x1_ x2_) : (s.powerEvent x1_ x2_).tri = s.tri := (s.powerEvent_only x1_ x2_).tri rfl
@[simp] theorem powerEvent_slc (x1_ x2_) : (s.powerEvent x1_ x2_).slc = s.slc := (s.powerEvent_only x1_ x2_).slc rfl
@[simp] theorem powerEvent_saf (x1_ x2_) : (s.powerEvent x1_ x2_).saf = s.saf := (s.powerEvent_only x1_ x2_).saf rfl
@[simp] theorem powerEvent_rings (x1_ x2_) : (s.powerEvent x1_ x2_).rings = s.rings := (s.powerEvent_only x1_ x2_).rings rfl
@[simp] theorem powerEvent_cells (x1_ x2_) : (s.powerEvent x1_ x2_).cells = s.cells := (s.powerEvent_only x1_ x2_).cells rfl
@[simp] theorem powerEvent_law (x1_ x2_) : (s.powerEvent x1_ x2_).law = s.law := (s.powerEvent_only x1_ x2_).law rfl
@[simp] theorem powerEvent_lawC (x1_ x2_) : (s.powerEvent x1_ x2_).lawC = s.lawC := (s.powerEvent_only x1_ x2_).lawC rfl
@[simp] theorem powerEvent_sp (x1_ x2_) : (s.powerEvent x1_ x2_).sp = s.sp := (s.powerEvent_only x1_ x2_).sp rfl
@[simp] theorem powerEvent_sched (x1_ x2_) : (s.powerEvent x1_ x2_).sched = s.sched := (s.powerEvent_only x1_ x2_).sched rfl
@[simp] theorem powerEvent_adc (x1_ x2_) : (s.powerEvent x1_ x2_).adc = s.adc := (s.powerEvent_only x1_ x2_).adc rfl
@[simp] theorem powerEvent_mtr (x1_ x2_) : (s.powerEvent x1_ x2_).mtr = s.mtr := (s.powerEvent_only x1_ x2_).mtr rfl
@[simp] theorem powerEvent_thm (x1_ x2_) : (s.powerEvent x1_ x2_).thm = s.thm := (s.powerEvent_only x1_ x2_).thm rfl
@[simp] theorem powerEvent_aux (x1_ x2_) : (s.powerEvent x1_ x2_).aux = s.aux := (s.powerEvent_only x1_ x2_).aux rfl
@[simp] theorem powerEvent_free (x1_ x2_) : (s.powerEvent x1_ x2_).free = s.free := (s.powerEvent_only x1_ x2_).free rfl
/-- All that `safeState` may change. -/
theorem safeState_only (x1_) (hl : x1_ ∈ latchFields) : Only 0x1942500120000200 s (s.safeState x1_) := Only.safeState (Only.refl _ s) x1_ rfl hl
theorem rdi_safeState (x1_) (hl : x1_ ∈ latchFields) (f' : Fld) (i : Nat) (hf : fr 0x1942500120000200 f' = true) : (s.safeState x1_).rdi f' i = s.rdi f' i :=
  (s.safeState_only x1_ hl).rdi f' i hf
theorem safeState_tm (x1_) (hl : x1_ ∈ latchFields) : (s.safeState x1_).tm = s.tm := (s.safeState_only x1_ hl).tm rfl
theorem safeState_clk (x1_) (hl : x1_ ∈ latchFields) : (s.safeState x1_).clk = s.clk := (s.safeState_only x1_ hl).clk rfl
theorem safeState_pwr (x1_) (hl : x1_ ∈ latchFields) : (s.safeState x1_).pwr = s.pwr := (s.safeState_only x1_ hl).pwr rfl
theorem safeState_tri (x1_) (hl : x1_ ∈ latchFields) : (s.safeState x1_).tri = s.tri := (s.safeState_only x1_ hl).tri rfl
theorem safeState_saf (x1_) (hl : x1_ ∈ latchFields) : (s.safeState x1_).saf = s.saf := (s.safeState_only x1_ hl).saf rfl
theorem safeState_rings (x1_) (hl : x1_ ∈ latchFields) : (s.safeState x1_).rings = s.rings := (s.safeState_only x1_ hl).rings rfl
theorem safeState_law (x1_) (hl : x1_ ∈ latchFields) : (s.safeState x1_).law = s.law := (s.safeState_only x1_ hl).law rfl
theorem safeState_lawC (x1_) (hl : x1_ ∈ latchFields) : (s.safeState x1_).lawC = s.lawC := (s.safeState_only x1_ hl).lawC rfl
theorem safeState_sp (x1_) (hl : x1_ ∈ latchFields) : (s.safeState x1_).sp = s.sp := (s.safeState_only x1_ hl).sp rfl
theorem safeState_sched (x1_) (hl : x1_ ∈ latchFields) : (s.safeState x1_).sched = s.sched := (s.safeState_only x1_ hl).sched rfl
theorem safeState_mtr (x1_) (hl : x1_ ∈ latchFields) : (s.safeState x1_).mtr = s.mtr := (s.safeState_only x1_ hl).mtr rfl
theorem safeState_thm (x1_) (hl : x1_ ∈ latchFields) : (s.safeState x1_).thm = s.thm := (s.safeState_only x1_ hl).thm rfl
theorem safeState_aux (x1_) (hl : x1_ ∈ latchFields) : (s.safeState x1_).aux = s.aux := (s.safeState_only x1_ hl).aux rfl
/-- All that `setHostCtr` may change. -/
theorem setHostCtr_only (x1_ x2_) : Only 0x100000000000 s (s.setHostCtr x1_ x2_) := Only.setHostCtr (Only.refl _ s) x1_ x2_ rfl
@[simp] theorem rdi_setHostCtr (x1_ x2_) (f' : Fld) (i : Nat) (hf : fr 0x100000000000 f' = true) : (s.setHostCtr x1_ x2_).rdi f' i = s.rdi f' i :=
  (s.setHostCtr_only x1_ x2_).rdi f' i hf
@[simp] theorem setHostCtr_tm (x1_ x2_) : (s.setHostCtr x1_ x2_).tm = s.tm := (s.setHostCtr_only x1_ x2_).tm rfl
@[simp] theorem setHostCtr_clk (x1_ x2_) : (s.setHostCtr x1_ x2_).clk = s.clk := (s.setHostCtr_only x1_ x2_).clk rfl
@[simp] theorem setHostCtr_pwr (x1_ x2_) : (s.setHostCtr x1_ x2_).pwr = s.pwr := (s.setHostCtr_only x1_ x2_).pwr rfl
@[simp] theorem setHostCtr_tri (x1_ x2_) : (s.setHostCtr x1_ x2_).tri = s.tri := (s.setHostCtr_only x1_ x2_).tri rfl
@[simp] theorem setHostCtr_slc (x1_ x2_) : (s.setHostCtr x1_ x2_).slc = s.slc := (s.setHostCtr_only x1_ x2_).slc rfl
@[simp] theorem setHostCtr_saf (x1_ x2_) : (s.setHostCtr x1_ x2_).saf = s.saf := (s.setHostCtr_only x1_ x2_).saf rfl
@[simp] theorem setHostCtr_rings (x1_ x2_) : (s.setHostCtr x1_ x2_).rings = s.rings := (s.setHostCtr_only x1_ x2_).rings rfl
@[simp] theorem setHostCtr_cells (x1_ x2_) : (s.setHostCtr x1_ x2_).cells = s.cells := (s.setHostCtr_only x1_ x2_).cells rfl
@[simp] theorem setHostCtr_law (x1_ x2_) : (s.setHostCtr x1_ x2_).law = s.law := (s.setHostCtr_only x1_ x2_).law rfl
@[simp] theorem setHostCtr_lawC (x1_ x2_) : (s.setHostCtr x1_ x2_).lawC = s.lawC := (s.setHostCtr_only x1_ x2_).lawC rfl
@[simp] theorem setHostCtr_sp (x1_ x2_) : (s.setHostCtr x1_ x2_).sp = s.sp := (s.setHostCtr_only x1_ x2_).sp rfl
@[simp] theorem setHostCtr_sched (x1_ x2_) : (s.setHostCtr x1_ x2_).sched = s.sched := (s.setHostCtr_only x1_ x2_).sched rfl
@[simp] theorem setHostCtr_adc (x1_ x2_) : (s.setHostCtr x1_ x2_).adc = s.adc := (s.setHostCtr_only x1_ x2_).adc rfl
@[simp] theorem setHostCtr_mtr (x1_ x2_) : (s.setHostCtr x1_ x2_).mtr = s.mtr := (s.setHostCtr_only x1_ x2_).mtr rfl
@[simp] theorem setHostCtr_jr (x1_ x2_) : (s.setHostCtr x1_ x2_).jr = s.jr := (s.setHostCtr_only x1_ x2_).jr rfl
@[simp] theorem setHostCtr_thm (x1_ x2_) : (s.setHostCtr x1_ x2_).thm = s.thm := (s.setHostCtr_only x1_ x2_).thm rfl
@[simp] theorem setHostCtr_aux (x1_ x2_) : (s.setHostCtr x1_ x2_).aux = s.aux := (s.setHostCtr_only x1_ x2_).aux rfl
@[simp] theorem setHostCtr_free (x1_ x2_) : (s.setHostCtr x1_ x2_).free = s.free := (s.setHostCtr_only x1_ x2_).free rfl
@[simp] theorem setHostCtr_out (x1_ x2_) : (s.setHostCtr x1_ x2_).out = s.out := (s.setHostCtr_only x1_ x2_).out rfl
/-- All that `setRing` may change. -/
theorem setRing_only (x1_ x2_) : Only 0x1000000000000 s (s.setRing x1_ x2_) := Only.setRing (Only.refl _ s) x1_ x2_ rfl
@[simp] theorem rdi_setRing (x1_ x2_) (f' : Fld) (i : Nat) (hf : fr 0x1000000000000 f' = true) : (s.setRing x1_ x2_).rdi f' i = s.rdi f' i :=
  (s.setRing_only x1_ x2_).rdi f' i hf
@[simp] theorem setRing_tm (x1_ x2_) : (s.setRing x1_ x2_).tm = s.tm := (s.setRing_only x1_ x2_).tm rfl
@[simp] theorem setRing_clk (x1_ x2_) : (s.setRing x1_ x2_).clk = s.clk := (s.setRing_only x1_ x2_).clk rfl
@[simp] theorem setRing_pwr (x1_ x2_) : (s.setRing x1_ x2_).pwr = s.pwr := (s.setRing_only x1_ x2_).pwr rfl
@[simp] theorem setRing_hst (x1_ x2_) : (s.setRing x1_ x2_).hst = s.hst := (s.setRing_only x1_ x2_).hst rfl
@[simp] theorem setRing_tri (x1_ x2_) : (s.setRing x1_ x2_).tri = s.tri := (s.setRing_only x1_ x2_).tri rfl
@[simp] theorem setRing_slc (x1_ x2_) : (s.setRing x1_ x2_).slc = s.slc := (s.setRing_only x1_ x2_).slc rfl
@[simp] theorem setRing_saf (x1_ x2_) : (s.setRing x1_ x2_).saf = s.saf := (s.setRing_only x1_ x2_).saf rfl
@[simp] theorem setRing_cells (x1_ x2_) : (s.setRing x1_ x2_).cells = s.cells := (s.setRing_only x1_ x2_).cells rfl
@[simp] theorem setRing_law (x1_ x2_) : (s.setRing x1_ x2_).law = s.law := (s.setRing_only x1_ x2_).law rfl
@[simp] theorem setRing_lawC (x1_ x2_) : (s.setRing x1_ x2_).lawC = s.lawC := (s.setRing_only x1_ x2_).lawC rfl
@[simp] theorem setRing_sp (x1_ x2_) : (s.setRing x1_ x2_).sp = s.sp := (s.setRing_only x1_ x2_).sp rfl
@[simp] theorem setRing_sched (x1_ x2_) : (s.setRing x1_ x2_).sched = s.sched := (s.setRing_only x1_ x2_).sched rfl
@[simp] theorem setRing_adc (x1_ x2_) : (s.setRing x1_ x2_).adc = s.adc := (s.setRing_only x1_ x2_).adc rfl
@[simp] theorem setRing_mtr (x1_ x2_) : (s.setRing x1_ x2_).mtr = s.mtr := (s.setRing_only x1_ x2_).mtr rfl
@[simp] theorem setRing_jr (x1_ x2_) : (s.setRing x1_ x2_).jr = s.jr := (s.setRing_only x1_ x2_).jr rfl
@[simp] theorem setRing_thm (x1_ x2_) : (s.setRing x1_ x2_).thm = s.thm := (s.setRing_only x1_ x2_).thm rfl
@[simp] theorem setRing_aux (x1_ x2_) : (s.setRing x1_ x2_).aux = s.aux := (s.setRing_only x1_ x2_).aux rfl
@[simp] theorem setRing_free (x1_ x2_) : (s.setRing x1_ x2_).free = s.free := (s.setRing_only x1_ x2_).free rfl
@[simp] theorem setRing_out (x1_ x2_) : (s.setRing x1_ x2_).out = s.out := (s.setRing_only x1_ x2_).out rfl
/-- All that `setRingState` may change. -/
theorem setRingState_only (x1_ x2_) : Only 0x1100100000000200 s (s.setRingState x1_ x2_) := Only.setRingState (Only.refl _ s) x1_ x2_ rfl
@[simp] theorem rdi_setRingState (x1_ x2_) (f' : Fld) (i : Nat) (hf : fr 0x1100100000000200 f' = true) : (s.setRingState x1_ x2_).rdi f' i = s.rdi f' i :=
  (s.setRingState_only x1_ x2_).rdi f' i hf
@[simp] theorem setRingState_tm (x1_ x2_) : (s.setRingState x1_ x2_).tm = s.tm := (s.setRingState_only x1_ x2_).tm rfl
@[simp] theorem setRingState_clk (x1_ x2_) : (s.setRingState x1_ x2_).clk = s.clk := (s.setRingState_only x1_ x2_).clk rfl
@[simp] theorem setRingState_pwr (x1_ x2_) : (s.setRingState x1_ x2_).pwr = s.pwr := (s.setRingState_only x1_ x2_).pwr rfl
@[simp] theorem setRingState_tri (x1_ x2_) : (s.setRingState x1_ x2_).tri = s.tri := (s.setRingState_only x1_ x2_).tri rfl
@[simp] theorem setRingState_slc (x1_ x2_) : (s.setRingState x1_ x2_).slc = s.slc := (s.setRingState_only x1_ x2_).slc rfl
@[simp] theorem setRingState_saf (x1_ x2_) : (s.setRingState x1_ x2_).saf = s.saf := (s.setRingState_only x1_ x2_).saf rfl
@[simp] theorem setRingState_rings (x1_ x2_) : (s.setRingState x1_ x2_).rings = s.rings := (s.setRingState_only x1_ x2_).rings rfl
@[simp] theorem setRingState_cells (x1_ x2_) : (s.setRingState x1_ x2_).cells = s.cells := (s.setRingState_only x1_ x2_).cells rfl
@[simp] theorem setRingState_law (x1_ x2_) : (s.setRingState x1_ x2_).law = s.law := (s.setRingState_only x1_ x2_).law rfl
@[simp] theorem setRingState_lawC (x1_ x2_) : (s.setRingState x1_ x2_).lawC = s.lawC := (s.setRingState_only x1_ x2_).lawC rfl
@[simp] theorem setRingState_sp (x1_ x2_) : (s.setRingState x1_ x2_).sp = s.sp := (s.setRingState_only x1_ x2_).sp rfl
@[simp] theorem setRingState_sched (x1_ x2_) : (s.setRingState x1_ x2_).sched = s.sched := (s.setRingState_only x1_ x2_).sched rfl
@[simp] theorem setRingState_adc (x1_ x2_) : (s.setRingState x1_ x2_).adc = s.adc := (s.setRingState_only x1_ x2_).adc rfl
@[simp] theorem setRingState_mtr (x1_ x2_) : (s.setRingState x1_ x2_).mtr = s.mtr := (s.setRingState_only x1_ x2_).mtr rfl
@[simp] theorem setRingState_thm (x1_ x2_) : (s.setRingState x1_ x2_).thm = s.thm := (s.setRingState_only x1_ x2_).thm rfl
@[simp] theorem setRingState_aux (x1_ x2_) : (s.setRingState x1_ x2_).aux = s.aux := (s.setRingState_only x1_ x2_).aux rfl
@[simp] theorem setRingState_free (x1_ x2_) : (s.setRingState x1_ x2_).free = s.free := (s.setRingState_only x1_ x2_).free rfl
/-- All that `triadEvent` may change. -/
theorem triadEvent_only (x1_ x2_ x3_ x4_ x5_) : Only 0x1100100000000200 s (s.triadEvent x1_ x2_ x3_ x4_ x5_) := Only.triadEvent (Only.refl _ s) x1_ x2_ x3_ x4_ x5_ rfl
@[simp] theorem rdi_triadEvent (x1_ x2_ x3_ x4_ x5_) (f' : Fld) (i : Nat) (hf : fr 0x1100100000000200 f' = true) : (s.triadEvent x1_ x2_ x3_ x4_ x5_).rdi f' i = s.rdi f' i :=
  (s.triadEvent_only x1_ x2_ x3_ x4_ x5_).rdi f' i hf
@[simp] theorem triadEvent_tm (x1_ x2_ x3_ x4_ x5_) : (s.triadEvent x1_ x2_ x3_ x4_ x5_).tm = s.tm := (s.triadEvent_only x1_ x2_ x3_ x4_ x5_).tm rfl
@[simp] theorem triadEvent_clk (x1_ x2_ x3_ x4_ x5_) : (s.triadEvent x1_ x2_ x3_ x4_ x5_).clk = s.clk := (s.triadEvent_only x1_ x2_ x3_ x4_ x5_).clk rfl
@[simp] theorem triadEvent_pwr (x1_ x2_ x3_ x4_ x5_) : (s.triadEvent x1_ x2_ x3_ x4_ x5_).pwr = s.pwr := (s.triadEvent_only x1_ x2_ x3_ x4_ x5_).pwr rfl
@[simp] theorem triadEvent_tri (x1_ x2_ x3_ x4_ x5_) : (s.triadEvent x1_ x2_ x3_ x4_ x5_).tri = s.tri := (s.triadEvent_only x1_ x2_ x3_ x4_ x5_).tri rfl
@[simp] theorem triadEvent_slc (x1_ x2_ x3_ x4_ x5_) : (s.triadEvent x1_ x2_ x3_ x4_ x5_).slc = s.slc := (s.triadEvent_only x1_ x2_ x3_ x4_ x5_).slc rfl
@[simp] theorem triadEvent_saf (x1_ x2_ x3_ x4_ x5_) : (s.triadEvent x1_ x2_ x3_ x4_ x5_).saf = s.saf := (s.triadEvent_only x1_ x2_ x3_ x4_ x5_).saf rfl
@[simp] theorem triadEvent_rings (x1_ x2_ x3_ x4_ x5_) : (s.triadEvent x1_ x2_ x3_ x4_ x5_).rings = s.rings := (s.triadEvent_only x1_ x2_ x3_ x4_ x5_).rings rfl
@[simp] theorem triadEvent_cells (x1_ x2_ x3_ x4_ x5_) : (s.triadEvent x1_ x2_ x3_ x4_ x5_).cells = s.cells := (s.triadEvent_only x1_ x2_ x3_ x4_ x5_).cells rfl
@[simp] theorem triadEvent_law (x1_ x2_ x3_ x4_ x5_) : (s.triadEvent x1_ x2_ x3_ x4_ x5_).law = s.law := (s.triadEvent_only x1_ x2_ x3_ x4_ x5_).law rfl
@[simp] theorem triadEvent_lawC (x1_ x2_ x3_ x4_ x5_) : (s.triadEvent x1_ x2_ x3_ x4_ x5_).lawC = s.lawC := (s.triadEvent_only x1_ x2_ x3_ x4_ x5_).lawC rfl
@[simp] theorem triadEvent_sp (x1_ x2_ x3_ x4_ x5_) : (s.triadEvent x1_ x2_ x3_ x4_ x5_).sp = s.sp := (s.triadEvent_only x1_ x2_ x3_ x4_ x5_).sp rfl
@[simp] theorem triadEvent_sched (x1_ x2_ x3_ x4_ x5_) : (s.triadEvent x1_ x2_ x3_ x4_ x5_).sched = s.sched := (s.triadEvent_only x1_ x2_ x3_ x4_ x5_).sched rfl
@[simp] theorem triadEvent_adc (x1_ x2_ x3_ x4_ x5_) : (s.triadEvent x1_ x2_ x3_ x4_ x5_).adc = s.adc := (s.triadEvent_only x1_ x2_ x3_ x4_ x5_).adc rfl
@[simp] theorem triadEvent_mtr (x1_ x2_ x3_ x4_ x5_) : (s.triadEvent x1_ x2_ x3_ x4_ x5_).mtr = s.mtr := (s.triadEvent_only x1_ x2_ x3_ x4_ x5_).mtr rfl
@[simp] theorem triadEvent_thm (x1_ x2_ x3_ x4_ x5_) : (s.triadEvent x1_ x2_ x3_ x4_ x5_).thm = s.thm := (s.triadEvent_only x1_ x2_ x3_ x4_ x5_).thm rfl
@[simp] theorem triadEvent_aux (x1_ x2_ x3_ x4_ x5_) : (s.triadEvent x1_ x2_ x3_ x4_ x5_).aux = s.aux := (s.triadEvent_only x1_ x2_ x3_ x4_ x5_).aux rfl
@[simp] theorem triadEvent_free (x1_ x2_ x3_ x4_ x5_) : (s.triadEvent x1_ x2_ x3_ x4_ x5_).free = s.free := (s.triadEvent_only x1_ x2_ x3_ x4_ x5_).free rfl
/-- All that `emitRecord` may change. -/
theorem emitRecord_only (x1_ x2_ x3_ x4_) : Only 0x1000000000000000 s (s.emitRecord x1_ x2_ x3_ x4_) := Only.emitRecord (Only.refl _ s) x1_ x2_ x3_ x4_ rfl
@[simp] theorem rdi_emitRecord (x1_ x2_ x3_ x4_) (f' : Fld) (i : Nat) (hf : fr 0x1000000000000000 f' = true) : (s.emitRecord x1_ x2_ x3_ x4_).rdi f' i = s.rdi f' i :=
  (s.emitRecord_only x1_ x2_ x3_ x4_).rdi f' i hf
@[simp] theorem emitRecord_tm (x1_ x2_ x3_ x4_) : (s.emitRecord x1_ x2_ x3_ x4_).tm = s.tm := (s.emitRecord_only x1_ x2_ x3_ x4_).tm rfl
@[simp] theorem emitRecord_clk (x1_ x2_ x3_ x4_) : (s.emitRecord x1_ x2_ x3_ x4_).clk = s.clk := (s.emitRecord_only x1_ x2_ x3_ x4_).clk rfl
@[simp] theorem emitRecord_pwr (x1_ x2_ x3_ x4_) : (s.emitRecord x1_ x2_ x3_ x4_).pwr = s.pwr := (s.emitRecord_only x1_ x2_ x3_ x4_).pwr rfl
@[simp] theorem emitRecord_hst (x1_ x2_ x3_ x4_) : (s.emitRecord x1_ x2_ x3_ x4_).hst = s.hst := (s.emitRecord_only x1_ x2_ x3_ x4_).hst rfl
@[simp] theorem emitRecord_tri (x1_ x2_ x3_ x4_) : (s.emitRecord x1_ x2_ x3_ x4_).tri = s.tri := (s.emitRecord_only x1_ x2_ x3_ x4_).tri rfl
@[simp] theorem emitRecord_slc (x1_ x2_ x3_ x4_) : (s.emitRecord x1_ x2_ x3_ x4_).slc = s.slc := (s.emitRecord_only x1_ x2_ x3_ x4_).slc rfl
@[simp] theorem emitRecord_saf (x1_ x2_ x3_ x4_) : (s.emitRecord x1_ x2_ x3_ x4_).saf = s.saf := (s.emitRecord_only x1_ x2_ x3_ x4_).saf rfl
@[simp] theorem emitRecord_rings (x1_ x2_ x3_ x4_) : (s.emitRecord x1_ x2_ x3_ x4_).rings = s.rings := (s.emitRecord_only x1_ x2_ x3_ x4_).rings rfl
@[simp] theorem emitRecord_cells (x1_ x2_ x3_ x4_) : (s.emitRecord x1_ x2_ x3_ x4_).cells = s.cells := (s.emitRecord_only x1_ x2_ x3_ x4_).cells rfl
@[simp] theorem emitRecord_law (x1_ x2_ x3_ x4_) : (s.emitRecord x1_ x2_ x3_ x4_).law = s.law := (s.emitRecord_only x1_ x2_ x3_ x4_).law rfl
@[simp] theorem emitRecord_lawC (x1_ x2_ x3_ x4_) : (s.emitRecord x1_ x2_ x3_ x4_).lawC = s.lawC := (s.emitRecord_only x1_ x2_ x3_ x4_).lawC rfl
@[simp] theorem emitRecord_sp (x1_ x2_ x3_ x4_) : (s.emitRecord x1_ x2_ x3_ x4_).sp = s.sp := (s.emitRecord_only x1_ x2_ x3_ x4_).sp rfl
@[simp] theorem emitRecord_sched (x1_ x2_ x3_ x4_) : (s.emitRecord x1_ x2_ x3_ x4_).sched = s.sched := (s.emitRecord_only x1_ x2_ x3_ x4_).sched rfl
@[simp] theorem emitRecord_adc (x1_ x2_ x3_ x4_) : (s.emitRecord x1_ x2_ x3_ x4_).adc = s.adc := (s.emitRecord_only x1_ x2_ x3_ x4_).adc rfl
@[simp] theorem emitRecord_mtr (x1_ x2_ x3_ x4_) : (s.emitRecord x1_ x2_ x3_ x4_).mtr = s.mtr := (s.emitRecord_only x1_ x2_ x3_ x4_).mtr rfl
@[simp] theorem emitRecord_jr (x1_ x2_ x3_ x4_) : (s.emitRecord x1_ x2_ x3_ x4_).jr = s.jr := (s.emitRecord_only x1_ x2_ x3_ x4_).jr rfl
@[simp] theorem emitRecord_thm (x1_ x2_ x3_ x4_) : (s.emitRecord x1_ x2_ x3_ x4_).thm = s.thm := (s.emitRecord_only x1_ x2_ x3_ x4_).thm rfl
@[simp] theorem emitRecord_aux (x1_ x2_ x3_ x4_) : (s.emitRecord x1_ x2_ x3_ x4_).aux = s.aux := (s.emitRecord_only x1_ x2_ x3_ x4_).aux rfl
@[simp] theorem emitRecord_free (x1_ x2_ x3_ x4_) : (s.emitRecord x1_ x2_ x3_ x4_).free = s.free := (s.emitRecord_only x1_ x2_ x3_ x4_).free rfl
/-- All that `showBrk` may change. -/
theorem showBrk_only : Only 0x1000000000000000 s (s.showBrk) := Only.showBrk (Only.refl _ s) rfl
@[simp] theorem rdi_showBrk (f' : Fld) (i : Nat) (hf : fr 0x1000000000000000 f' = true) : (s.showBrk).rdi f' i = s.rdi f' i :=
  (s.showBrk_only).rdi f' i hf
@[simp] theorem showBrk_tm : (s.showBrk).tm = s.tm := (s.showBrk_only).tm rfl
@[simp] theorem showBrk_clk : (s.showBrk).clk = s.clk := (s.showBrk_only).clk rfl
@[simp] theorem showBrk_pwr : (s.showBrk).pwr = s.pwr := (s.showBrk_only).pwr rfl
@[simp] theorem showBrk_hst : (s.showBrk).hst = s.hst := (s.showBrk_only).hst rfl
@[simp] theorem showBrk_tri : (s.showBrk).tri = s.tri := (s.showBrk_only).tri rfl
@[simp] theorem showBrk_slc : (s.showBrk).slc = s.slc := (s.showBrk_only).slc rfl
@[simp] theorem showBrk_saf : (s.showBrk).saf = s.saf := (s.showBrk_only).saf rfl
@[simp] theorem showBrk_rings : (s.showBrk).rings = s.rings := (s.showBrk_only).rings rfl
@[simp] theorem showBrk_cells : (s.showBrk).cells = s.cells := (s.showBrk_only).cells rfl
@[simp] theorem showBrk_law : (s.showBrk).law = s.law := (s.showBrk_only).law rfl
@[simp] theorem showBrk_lawC : (s.showBrk).lawC = s.lawC := (s.showBrk_only).lawC rfl
@[simp] theorem showBrk_sp : (s.showBrk).sp = s.sp := (s.showBrk_only).sp rfl
@[simp] theorem showBrk_sched : (s.showBrk).sched = s.sched := (s.showBrk_only).sched rfl
@[simp] theorem showBrk_adc : (s.showBrk).adc = s.adc := (s.showBrk_only).adc rfl
@[simp] theorem showBrk_mtr : (s.showBrk).mtr = s.mtr := (s.showBrk_only).mtr rfl
@[simp] theorem showBrk_jr : (s.showBrk).jr = s.jr := (s.showBrk_only).jr rfl
@[simp] theorem showBrk_thm : (s.showBrk).thm = s.thm := (s.showBrk_only).thm rfl
@[simp] theorem showBrk_aux : (s.showBrk).aux = s.aux := (s.showBrk_only).aux rfl
@[simp] theorem showBrk_free : (s.showBrk).free = s.free := (s.showBrk_only).free rfl
/-- All that `sendOrder` may change. -/
theorem sendOrder_only (x1_ x2_) : Only 0x1000000000000000 s (s.sendOrder x1_ x2_) := Only.sendOrder (Only.refl _ s) x1_ x2_ rfl
@[simp] theorem rdi_sendOrder (x1_ x2_) (f' : Fld) (i : Nat) (hf : fr 0x1000000000000000 f' = true) : (s.sendOrder x1_ x2_).rdi f' i = s.rdi f' i :=
  (s.sendOrder_only x1_ x2_).rdi f' i hf
@[simp] theorem sendOrder_tm (x1_ x2_) : (s.sendOrder x1_ x2_).tm = s.tm := (s.sendOrder_only x1_ x2_).tm rfl
@[simp] theorem sendOrder_clk (x1_ x2_) : (s.sendOrder x1_ x2_).clk = s.clk := (s.sendOrder_only x1_ x2_).clk rfl
@[simp] theorem sendOrder_pwr (x1_ x2_) : (s.sendOrder x1_ x2_).pwr = s.pwr := (s.sendOrder_only x1_ x2_).pwr rfl
@[simp] theorem sendOrder_hst (x1_ x2_) : (s.sendOrder x1_ x2_).hst = s.hst := (s.sendOrder_only x1_ x2_).hst rfl
@[simp] theorem sendOrder_tri (x1_ x2_) : (s.sendOrder x1_ x2_).tri = s.tri := (s.sendOrder_only x1_ x2_).tri rfl
@[simp] theorem sendOrder_slc (x1_ x2_) : (s.sendOrder x1_ x2_).slc = s.slc := (s.sendOrder_only x1_ x2_).slc rfl
@[simp] theorem sendOrder_saf (x1_ x2_) : (s.sendOrder x1_ x2_).saf = s.saf := (s.sendOrder_only x1_ x2_).saf rfl
@[simp] theorem sendOrder_rings (x1_ x2_) : (s.sendOrder x1_ x2_).rings = s.rings := (s.sendOrder_only x1_ x2_).rings rfl
@[simp] theorem sendOrder_cells (x1_ x2_) : (s.sendOrder x1_ x2_).cells = s.cells := (s.sendOrder_only x1_ x2_).cells rfl
@[simp] theorem sendOrder_law (x1_ x2_) : (s.sendOrder x1_ x2_).law = s.law := (s.sendOrder_only x1_ x2_).law rfl
@[simp] theorem sendOrder_lawC (x1_ x2_) : (s.sendOrder x1_ x2_).lawC = s.lawC := (s.sendOrder_only x1_ x2_).lawC rfl
@[simp] theorem sendOrder_sp (x1_ x2_) : (s.sendOrder x1_ x2_).sp = s.sp := (s.sendOrder_only x1_ x2_).sp rfl
@[simp] theorem sendOrder_sched (x1_ x2_) : (s.sendOrder x1_ x2_).sched = s.sched := (s.sendOrder_only x1_ x2_).sched rfl
@[simp] theorem sendOrder_adc (x1_ x2_) : (s.sendOrder x1_ x2_).adc = s.adc := (s.sendOrder_only x1_ x2_).adc rfl
@[simp] theorem sendOrder_mtr (x1_ x2_) : (s.sendOrder x1_ x2_).mtr = s.mtr := (s.sendOrder_only x1_ x2_).mtr rfl
@[simp] theorem sendOrder_jr (x1_ x2_) : (s.sendOrder x1_ x2_).jr = s.jr := (s.sendOrder_only x1_ x2_).jr rfl
@[simp] theorem sendOrder_thm (x1_ x2_) : (s.sendOrder x1_ x2_).thm = s.thm := (s.sendOrder_only x1_ x2_).thm rfl
@[simp] theorem sendOrder_aux (x1_ x2_) : (s.sendOrder x1_ x2_).aux = s.aux := (s.sendOrder_only x1_ x2_).aux rfl
@[simp] theorem sendOrder_free (x1_ x2_) : (s.sendOrder x1_ x2_).free = s.free := (s.sendOrder_only x1_ x2_).free rfl
/-- All that `setQueue` may change. -/
theorem setQueue_only (x1_ x2_) : Only 0x40000020000000 s (s.setQueue x1_ x2_) := Only.setQueue (Only.refl _ s) x1_ x2_ rfl
@[simp] theorem rdi_setQueue (x1_ x2_) (f' : Fld) (i : Nat) (hf : fr 0x40000020000000 f' = true) : (s.setQueue x1_ x2_).rdi f' i = s.rdi f' i :=
  (s.setQueue_only x1_ x2_).rdi f' i hf
@[simp] theorem setQueue_tm (x1_ x2_) : (s.setQueue x1_ x2_).tm = s.tm := (s.setQueue_only x1_ x2_).tm rfl
@[simp] theorem setQueue_clk (x1_ x2_) : (s.setQueue x1_ x2_).clk = s.clk := (s.setQueue_only x1_ x2_).clk rfl
@[simp] theorem setQueue_pwr (x1_ x2_) : (s.setQueue x1_ x2_).pwr = s.pwr := (s.setQueue_only x1_ x2_).pwr rfl
@[simp] theorem setQueue_hst (x1_ x2_) : (s.setQueue x1_ x2_).hst = s.hst := (s.setQueue_only x1_ x2_).hst rfl
@[simp] theorem setQueue_tri (x1_ x2_) : (s.setQueue x1_ x2_).tri = s.tri := (s.setQueue_only x1_ x2_).tri rfl
@[simp] theorem setQueue_slc (x1_ x2_) : (s.setQueue x1_ x2_).slc = s.slc := (s.setQueue_only x1_ x2_).slc rfl
@[simp] theorem setQueue_saf (x1_ x2_) : (s.setQueue x1_ x2_).saf = s.saf := (s.setQueue_only x1_ x2_).saf rfl
@[simp] theorem setQueue_rings (x1_ x2_) : (s.setQueue x1_ x2_).rings = s.rings := (s.setQueue_only x1_ x2_).rings rfl
@[simp] theorem setQueue_cells (x1_ x2_) : (s.setQueue x1_ x2_).cells = s.cells := (s.setQueue_only x1_ x2_).cells rfl
@[simp] theorem setQueue_law (x1_ x2_) : (s.setQueue x1_ x2_).law = s.law := (s.setQueue_only x1_ x2_).law rfl
@[simp] theorem setQueue_lawC (x1_ x2_) : (s.setQueue x1_ x2_).lawC = s.lawC := (s.setQueue_only x1_ x2_).lawC rfl
@[simp] theorem setQueue_sp (x1_ x2_) : (s.setQueue x1_ x2_).sp = s.sp := (s.setQueue_only x1_ x2_).sp rfl
@[simp] theorem setQueue_sched (x1_ x2_) : (s.setQueue x1_ x2_).sched = s.sched := (s.setQueue_only x1_ x2_).sched rfl
@[simp] theorem setQueue_mtr (x1_ x2_) : (s.setQueue x1_ x2_).mtr = s.mtr := (s.setQueue_only x1_ x2_).mtr rfl
@[simp] theorem setQueue_jr (x1_ x2_) : (s.setQueue x1_ x2_).jr = s.jr := (s.setQueue_only x1_ x2_).jr rfl
@[simp] theorem setQueue_thm (x1_ x2_) : (s.setQueue x1_ x2_).thm = s.thm := (s.setQueue_only x1_ x2_).thm rfl
@[simp] theorem setQueue_aux (x1_ x2_) : (s.setQueue x1_ x2_).aux = s.aux := (s.setQueue_only x1_ x2_).aux rfl
@[simp] theorem setQueue_free (x1_ x2_) : (s.setQueue x1_ x2_).free = s.free := (s.setQueue_only x1_ x2_).free rfl
@[simp] theorem setQueue_out (x1_ x2_) : (s.setQueue x1_ x2_).out = s.out := (s.setQueue_only x1_ x2_).out rfl
/-- All that `qSend` may change. -/
theorem qSend_only (x1_ x2_ x3_) : Only 0x40000020000000 s (s.qSend x1_ x2_ x3_) := Only.qSend (Only.refl _ s) x1_ x2_ x3_ rfl
@[simp] theorem rdi_qSend (x1_ x2_ x3_) (f' : Fld) (i : Nat) (hf : fr 0x40000020000000 f' = true) : (s.qSend x1_ x2_ x3_).rdi f' i = s.rdi f' i :=
  (s.qSend_only x1_ x2_ x3_).rdi f' i hf
@[simp] theorem qSend_tm (x1_ x2_ x3_) : (s.qSend x1_ x2_ x3_).tm = s.tm := (s.qSend_only x1_ x2_ x3_).tm rfl
@[simp] theorem qSend_clk (x1_ x2_ x3_) : (s.qSend x1_ x2_ x3_).clk = s.clk := (s.qSend_only x1_ x2_ x3_).clk rfl
@[simp] theorem qSend_pwr (x1_ x2_ x3_) : (s.qSend x1_ x2_ x3_).pwr = s.pwr := (s.qSend_only x1_ x2_ x3_).pwr rfl
@[simp] theorem qSend_hst (x1_ x2_ x3_) : (s.qSend x1_ x2_ x3_).hst = s.hst := (s.qSend_only x1_ x2_ x3_).hst rfl
@[simp] theorem qSend_tri (x1_ x2_ x3_) : (s.qSend x1_ x2_ x3_).tri = s.tri := (s.qSend_only x1_ x2_ x3_).tri rfl
@[simp] theorem qSend_slc (x1_ x2_ x3_) : (s.qSend x1_ x2_ x3_).slc = s.slc := (s.qSend_only x1_ x2_ x3_).slc rfl
@[simp] theorem qSend_saf (x1_ x2_ x3_) : (s.qSend x1_ x2_ x3_).saf = s.saf := (s.qSend_only x1_ x2_ x3_).saf rfl
@[simp] theorem qSend_rings (x1_ x2_ x3_) : (s.qSend x1_ x2_ x3_).rings = s.rings := (s.qSend_only x1_ x2_ x3_).rings rfl
@[simp] theorem qSend_cells (x1_ x2_ x3_) : (s.qSend x1_ x2_ x3_).cells = s.cells := (s.qSend_only x1_ x2_ x3_).cells rfl
@[simp] theorem qSend_law (x1_ x2_ x3_) : (s.qSend x1_ x2_ x3_).law = s.law := (s.qSend_only x1_ x2_ x3_).law rfl
@[simp] theorem qSend_lawC (x1_ x2_ x3_) : (s.qSend x1_ x2_ x3_).lawC = s.lawC := (s.qSend_only x1_ x2_ x3_).lawC rfl
@[simp] theorem qSend_sp (x1_ x2_ x3_) : (s.qSend x1_ x2_ x3_).sp = s.sp := (s.qSend_only x1_ x2_ x3_).sp rfl
@[simp] theorem qSend_sched (x1_ x2_ x3_) : (s.qSend x1_ x2_ x3_).sched = s.sched := (s.qSend_only x1_ x2_ x3_).sched rfl
@[simp] theorem qSend_mtr (x1_ x2_ x3_) : (s.qSend x1_ x2_ x3_).mtr = s.mtr := (s.qSend_only x1_ x2_ x3_).mtr rfl
@[simp] theorem qSend_jr (x1_ x2_ x3_) : (s.qSend x1_ x2_ x3_).jr = s.jr := (s.qSend_only x1_ x2_ x3_).jr rfl
@[simp] theorem qSend_thm (x1_ x2_ x3_) : (s.qSend x1_ x2_ x3_).thm = s.thm := (s.qSend_only x1_ x2_ x3_).thm rfl
@[simp] theorem qSend_aux (x1_ x2_ x3_) : (s.qSend x1_ x2_ x3_).aux = s.aux := (s.qSend_only x1_ x2_ x3_).aux rfl
@[simp] theorem qSend_free (x1_ x2_ x3_) : (s.qSend x1_ x2_ x3_).free = s.free := (s.qSend_only x1_ x2_ x3_).free rfl
@[simp] theorem qSend_out (x1_ x2_ x3_) : (s.qSend x1_ x2_ x3_).out = s.out := (s.qSend_only x1_ x2_ x3_).out rfl
/-- All that `trigEvent` may change. -/
theorem trigEvent_only (x1_ x2_) : Only 0x40000000000000 s (s.trigEvent x1_ x2_) := Only.trigEvent (Only.refl _ s) x1_ x2_ rfl
@[simp] theorem rdi_trigEvent (x1_ x2_) (f' : Fld) (i : Nat) (hf : fr 0x40000000000000 f' = true) : (s.trigEvent x1_ x2_).rdi f' i = s.rdi f' i :=
  (s.trigEvent_only x1_ x2_).rdi f' i hf
@[simp] theorem trigEvent_tm (x1_ x2_) : (s.trigEvent x1_ x2_).tm = s.tm := (s.trigEvent_only x1_ x2_).tm rfl
@[simp] theorem trigEvent_clk (x1_ x2_) : (s.trigEvent x1_ x2_).clk = s.clk := (s.trigEvent_only x1_ x2_).clk rfl
@[simp] theorem trigEvent_pwr (x1_ x2_) : (s.trigEvent x1_ x2_).pwr = s.pwr := (s.trigEvent_only x1_ x2_).pwr rfl
@[simp] theorem trigEvent_hst (x1_ x2_) : (s.trigEvent x1_ x2_).hst = s.hst := (s.trigEvent_only x1_ x2_).hst rfl
@[simp] theorem trigEvent_tri (x1_ x2_) : (s.trigEvent x1_ x2_).tri = s.tri := (s.trigEvent_only x1_ x2_).tri rfl
@[simp] theorem trigEvent_slc (x1_ x2_) : (s.trigEvent x1_ x2_).slc = s.slc := (s.trigEvent_only x1_ x2_).slc rfl
@[simp] theorem trigEvent_saf (x1_ x2_) : (s.trigEvent x1_ x2_).saf = s.saf := (s.trigEvent_only x1_ x2_).saf rfl
@[simp] theorem trigEvent_rings (x1_ x2_) : (s.trigEvent x1_ x2_).rings = s.rings := (s.trigEvent_only x1_ x2_).rings rfl
@[simp] theorem trigEvent_cells (x1_ x2_) : (s.trigEvent x1_ x2_).cells = s.cells := (s.trigEvent_only x1_ x2_).cells rfl
@[simp] theorem trigEvent_law (x1_ x2_) : (s.trigEvent x1_ x2_).law = s.law := (s.trigEvent_only x1_ x2_).law rfl
@[simp] theorem trigEvent_lawC (x1_ x2_) : (s.trigEvent x1_ x2_).lawC = s.lawC := (s.trigEvent_only x1_ x2_).lawC rfl
@[simp] theorem trigEvent_sp (x1_ x2_) : (s.trigEvent x1_ x2_).sp = s.sp := (s.trigEvent_only x1_ x2_).sp rfl
@[simp] theorem trigEvent_sched (x1_ x2_) : (s.trigEvent x1_ x2_).sched = s.sched := (s.trigEvent_only x1_ x2_).sched rfl
@[simp] theorem trigEvent_mtr (x1_ x2_) : (s.trigEvent x1_ x2_).mtr = s.mtr := (s.trigEvent_only x1_ x2_).mtr rfl
@[simp] theorem trigEvent_jr (x1_ x2_) : (s.trigEvent x1_ x2_).jr = s.jr := (s.trigEvent_only x1_ x2_).jr rfl
@[simp] theorem trigEvent_thm (x1_ x2_) : (s.trigEvent x1_ x2_).thm = s.thm := (s.trigEvent_only x1_ x2_).thm rfl
@[simp] theorem trigEvent_aux (x1_ x2_) : (s.trigEvent x1_ x2_).aux = s.aux := (s.trigEvent_only x1_ x2_).aux rfl
@[simp] theorem trigEvent_free (x1_ x2_) : (s.trigEvent x1_ x2_).free = s.free := (s.trigEvent_only x1_ x2_).free rfl
@[simp] theorem trigEvent_out (x1_ x2_) : (s.trigEvent x1_ x2_).out = s.out := (s.trigEvent_only x1_ x2_).out rfl
/-- All that `askAt` may change. -/
theorem askAt_only (x1_) : Only 0x20000000000 s (s.askAt x1_) := Only.askAt (Only.refl _ s) x1_ rfl
@[simp] theorem rdi_askAt (x1_) (f' : Fld) (i : Nat) (hf : fr 0x20000000000 f' = true) : (s.askAt x1_).rdi f' i = s.rdi f' i :=
  (s.askAt_only x1_).rdi f' i hf
@[simp] theorem askAt_clk (x1_) : (s.askAt x1_).clk = s.clk := (s.askAt_only x1_).clk rfl
@[simp] theorem askAt_pwr (x1_) : (s.askAt x1_).pwr = s.pwr := (s.askAt_only x1_).pwr rfl
@[simp] theorem askAt_hst (x1_) : (s.askAt x1_).hst = s.hst := (s.askAt_only x1_).hst rfl
@[simp] theorem askAt_tri (x1_) : (s.askAt x1_).tri = s.tri := (s.askAt_only x1_).tri rfl
@[simp] theorem askAt_slc (x1_) : (s.askAt x1_).slc = s.slc := (s.askAt_only x1_).slc rfl
@[simp] theorem askAt_saf (x1_) : (s.askAt x1_).saf = s.saf := (s.askAt_only x1_).saf rfl
@[simp] theorem askAt_rings (x1_) : (s.askAt x1_).rings = s.rings := (s.askAt_only x1_).rings rfl
@[simp] theorem askAt_cells (x1_) : (s.askAt x1_).cells = s.cells := (s.askAt_only x1_).cells rfl
@[simp] theorem askAt_law (x1_) : (s.askAt x1_).law = s.law := (s.askAt_only x1_).law rfl
@[simp] theorem askAt_lawC (x1_) : (s.askAt x1_).lawC = s.lawC := (s.askAt_only x1_).lawC rfl
@[simp] theorem askAt_sp (x1_) : (s.askAt x1_).sp = s.sp := (s.askAt_only x1_).sp rfl
@[simp] theorem askAt_sched (x1_) : (s.askAt x1_).sched = s.sched := (s.askAt_only x1_).sched rfl
@[simp] theorem askAt_adc (x1_) : (s.askAt x1_).adc = s.adc := (s.askAt_only x1_).adc rfl
@[simp] theorem askAt_mtr (x1_) : (s.askAt x1_).mtr = s.mtr := (s.askAt_only x1_).mtr rfl
@[simp] theorem askAt_jr (x1_) : (s.askAt x1_).jr = s.jr := (s.askAt_only x1_).jr rfl
@[simp] theorem askAt_thm (x1_) : (s.askAt x1_).thm = s.thm := (s.askAt_only x1_).thm rfl
@[simp] theorem askAt_aux (x1_) : (s.askAt x1_).aux = s.aux := (s.askAt_only x1_).aux rfl
@[simp] theorem askAt_free (x1_) : (s.askAt x1_).free = s.free := (s.askAt_only x1_).free rfl
@[simp] theorem askAt_out (x1_) : (s.askAt x1_).out = s.out := (s.askAt_only x1_).out rfl
/-- All that `breakTimes` may change. -/
theorem breakTimes_only : Only 0x2c020000100000 s (s.breakTimes) := Only.breakTimes (Only.refl _ s) rfl
@[simp] theorem rdi_breakTimes (f' : Fld) (i : Nat) (hf : fr 0x2c020000100000 f' = true) : (s.breakTimes).rdi f' i = s.rdi f' i :=
  (s.breakTimes_only).rdi f' i hf
@[simp] theorem breakTimes_clk : (s.breakTimes).clk = s.clk := (s.breakTimes_only).clk rfl
@[simp] theorem breakTimes_pwr : (s.breakTimes).pwr = s.pwr := (s.breakTimes_only).pwr rfl
@[simp] theorem breakTimes_hst : (s.breakTimes).hst = s.hst := (s.breakTimes_only).hst rfl
@[simp] theorem breakTimes_tri : (s.breakTimes).tri = s.tri := (s.breakTimes_only).tri rfl
@[simp] theorem breakTimes_slc : (s.breakTimes).slc = s.slc := (s.breakTimes_only).slc rfl
@[simp] theorem breakTimes_saf : (s.breakTimes).saf = s.saf := (s.breakTimes_only).saf rfl
@[simp] theorem breakTimes_rings : (s.breakTimes).rings = s.rings := (s.breakTimes_only).rings rfl
@[simp] theorem breakTimes_cells : (s.breakTimes).cells = s.cells := (s.breakTimes_only).cells rfl
@[simp] theorem breakTimes_sp : (s.breakTimes).sp = s.sp := (s.breakTimes_only).sp rfl
@[simp] theorem breakTimes_adc : (s.breakTimes).adc = s.adc := (s.breakTimes_only).adc rfl
@[simp] theorem breakTimes_mtr : (s.breakTimes).mtr = s.mtr := (s.breakTimes_only).mtr rfl
@[simp] theorem breakTimes_jr : (s.breakTimes).jr = s.jr := (s.breakTimes_only).jr rfl
@[simp] theorem breakTimes_thm : (s.breakTimes).thm = s.thm := (s.breakTimes_only).thm rfl
@[simp] theorem breakTimes_aux : (s.breakTimes).aux = s.aux := (s.breakTimes_only).aux rfl
@[simp] theorem breakTimes_free : (s.breakTimes).free = s.free := (s.breakTimes_only).free rfl
@[simp] theorem breakTimes_out : (s.breakTimes).out = s.out := (s.breakTimes_only).out rfl
/-- All that `setForming` may change. -/
theorem setForming_only (x1_) : Only 0xc000000080000 s (s.setForming x1_) := Only.setForming (Only.refl _ s) x1_ rfl
@[simp] theorem rdi_setForming (x1_) (f' : Fld) (i : Nat) (hf : fr 0xc000000080000 f' = true) : (s.setForming x1_).rdi f' i = s.rdi f' i :=
  (s.setForming_only x1_).rdi f' i hf
@[simp] theorem setForming_tm (x1_) : (s.setForming x1_).tm = s.tm := (s.setForming_only x1_).tm rfl
@[simp] theorem setForming_clk (x1_) : (s.setForming x1_).clk = s.clk := (s.setForming_only x1_).clk rfl
@[simp] theorem setForming_pwr (x1_) : (s.setForming x1_).pwr = s.pwr := (s.setForming_only x1_).pwr rfl
@[simp] theorem setForming_hst (x1_) : (s.setForming x1_).hst = s.hst := (s.setForming_only x1_).hst rfl
@[simp] theorem setForming_tri (x1_) : (s.setForming x1_).tri = s.tri := (s.setForming_only x1_).tri rfl
@[simp] theorem setForming_slc (x1_) : (s.setForming x1_).slc = s.slc := (s.setForming_only x1_).slc rfl
@[simp] theorem setForming_saf (x1_) : (s.setForming x1_).saf = s.saf := (s.setForming_only x1_).saf rfl
@[simp] theorem setForming_rings (x1_) : (s.setForming x1_).rings = s.rings := (s.setForming_only x1_).rings rfl
@[simp] theorem setForming_cells (x1_) : (s.setForming x1_).cells = s.cells := (s.setForming_only x1_).cells rfl
@[simp] theorem setForming_sp (x1_) : (s.setForming x1_).sp = s.sp := (s.setForming_only x1_).sp rfl
@[simp] theorem setForming_sched (x1_) : (s.setForming x1_).sched = s.sched := (s.setForming_only x1_).sched rfl
@[simp] theorem setForming_adc (x1_) : (s.setForming x1_).adc = s.adc := (s.setForming_only x1_).adc rfl
@[simp] theorem setForming_mtr (x1_) : (s.setForming x1_).mtr = s.mtr := (s.setForming_only x1_).mtr rfl
@[simp] theorem setForming_jr (x1_) : (s.setForming x1_).jr = s.jr := (s.setForming_only x1_).jr rfl
@[simp] theorem setForming_thm (x1_) : (s.setForming x1_).thm = s.thm := (s.setForming_only x1_).thm rfl
@[simp] theorem setForming_aux (x1_) : (s.setForming x1_).aux = s.aux := (s.setForming_only x1_).aux rfl
@[simp] theorem setForming_free (x1_) : (s.setForming x1_).free = s.free := (s.setForming_only x1_).free rfl
@[simp] theorem setForming_out (x1_) : (s.setForming x1_).out = s.out := (s.setForming_only x1_).out rfl
/-- All that `dropForming` may change. -/
theorem dropForming_only : Only 0xc000000080000 s (s.dropForming) := Only.dropForming (Only.refl _ s) rfl
@[simp] theorem rdi_dropForming (f' : Fld) (i : Nat) (hf : fr 0xc000000080000 f' = true) : (s.dropForming).rdi f' i = s.rdi f' i :=
  (s.dropForming_only).rdi f' i hf
@[simp] theorem dropForming_tm : (s.dropForming).tm = s.tm := (s.dropForming_only).tm rfl
@[simp] theorem dropForming_clk : (s.dropForming).clk = s.clk := (s.dropForming_only).clk rfl
@[simp] theorem dropForming_pwr : (s.dropForming).pwr = s.pwr := (s.dropForming_only).pwr rfl
@[simp] theorem dropForming_hst : (s.dropForming).hst = s.hst := (s.dropForming_only).hst rfl
@[simp] theorem dropForming_tri : (s.dropForming).tri = s.tri := (s.dropForming_only).tri rfl
@[simp] theorem dropForming_slc : (s.dropForming).slc = s.slc := (s.dropForming_only).slc rfl
@[simp] theorem dropForming_saf : (s.dropForming).saf = s.saf := (s.dropForming_only).saf rfl
@[simp] theorem dropForming_rings : (s.dropForming).rings = s.rings := (s.dropForming_only).rings rfl
@[simp] theorem dropForming_cells : (s.dropForming).cells = s.cells := (s.dropForming_only).cells rfl
@[simp] theorem dropForming_sp : (s.dropForming).sp = s.sp := (s.dropForming_only).sp rfl
@[simp] theorem dropForming_sched : (s.dropForming).sched = s.sched := (s.dropForming_only).sched rfl
@[simp] theorem dropForming_adc : (s.dropForming).adc = s.adc := (s.dropForming_only).adc rfl
@[simp] theorem dropForming_mtr : (s.dropForming).mtr = s.mtr := (s.dropForming_only).mtr rfl
@[simp] theorem dropForming_jr : (s.dropForming).jr = s.jr := (s.dropForming_only).jr rfl
@[simp] theorem dropForming_thm : (s.dropForming).thm = s.thm := (s.dropForming_only).thm rfl
@[simp] theorem dropForming_aux : (s.dropForming).aux = s.aux := (s.dropForming_only).aux rfl
@[simp] theorem dropForming_free : (s.dropForming).free = s.free := (s.dropForming_only).free rfl
@[simp] theorem dropForming_out : (s.dropForming).out = s.out := (s.dropForming_only).out rfl

end State
end Sys2Proof.Machine
end

