-- ==== Sys2Proof/Laws/Frame.lean ====
section
/-! SUPPORT. What `Only` says of a register read as a word. -/
set_option Elab.async false
namespace Sys2Proof.Machine

/-- A register family keeps to its block, below the active copies, and its fields stand at its place. -/
def RegRow.placed (r : RegRow) : Bool :=
  decide (r.base % 65536 + 4 * r.count ≤ 0x8000) && decide (r.base % 4 = 0) &&
  r.fields.all (fun x => x.f.base == r.base && x.f.count == r.count && decide (x.f.lo < 32))

theorem regBlocks_placed : regBlocks.all (fun b => b.all RegRow.placed) = true := by decide +kernel

theorem findReg_mem {off : Nat} {r : RegRow} : ∀ {l : List RegRow}, findReg off l = some r →
    r ∈ l ∧ r.base ≤ off ∧ off < r.base + 4 * r.count
  | [], h => by simp [findReg] at h
  | x :: l, h => by
    unfold findReg at h
    split at h
    · cases h; exact ⟨.head _, by assumption⟩
    · have := findReg_mem h; exact ⟨.tail _ this.1, this.2⟩

/-- What the register table says of the family found at an offset. -/
theorem regAt_placed {off : Nat} {r : RegRow} (h : regAt off = some r) :
    r.base ≤ off ∧ off < r.base + 4 * r.count ∧ r.base % 65536 + 4 * r.count ≤ 0x8000 ∧
    ∀ x ∈ r.fields, x.f.base = r.base ∧ x.f.count = r.count ∧ x.f.lo < 32 := by
  unfold regAt at h
  split at h
  · rename_i b hb
    have hm := findReg_mem h
    have hp := List.all_eq_true.mp (List.all_eq_true.mp regBlocks_placed b (List.mem_of_getElem? hb)) r hm.1
    simp only [RegRow.placed, Bool.and_eq_true, decide_eq_true_eq, List.all_eq_true, beq_iff_eq] at hp
    exact ⟨hm.2.1, hm.2.2, hp.1.1, fun x hx => ⟨(hp.2 x hx).1.1, (hp.2 x hx).1.2, (hp.2 x hx).2⟩⟩
  · cases h

theorem word_same {M : Nat} {a t : State} (h : Only M a t) (off : Nat) (ho : off / 65536 < 41)
    (hm : M.testBit (off / 65536) = false) : t.word off = a.word off := by
  have key : ∀ k, k / 32 / 65536 = off / 65536 → tget regDefault t.regs k = tget regDefault a.regs k :=
    fun k hk => h.regs k (by omega) (by rw [hk]; exact hm)
  unfold State.word
  split
  · cases hr : regAt (off - 0x8000) with
    | none => rfl
    | some r =>
      obtain ⟨h1, h2, h3, h4⟩ := regAt_placed hr
      dsimp only
      split
      · have hf : ∀ (l : List FieldRow) (w : Nat), (∀ x ∈ l, x.f.base = r.base ∧ x.f.count = r.count ∧ x.f.lo < 32) →
            l.foldl (fun w x => w + tget regDefault t.regs (x.f.actKey ((off - 0x8000 - r.base) / 4)) * 2 ^ x.f.lo) w =
            l.foldl (fun w x => w + tget regDefault a.regs (x.f.actKey ((off - 0x8000 - r.base) / 4)) * 2 ^ x.f.lo) w := by
          intro l
          induction l with
          | nil => intro w _; rfl
          | cons x l ih =>
            intro w hx
            obtain ⟨b1, b2, b3⟩ := hx x (.head _)
            rw [List.foldl_cons, List.foldl_cons, key _ (by unfold Fld.actKey; rw [b1]; omega)]
            exact ih _ (fun y hy => hx y (.tail _ hy))
        exact hf _ _ h4
      · rfl
  · cases hr : regAt off with
    | none => rfl
    | some r =>
      obtain ⟨h1, h2, h3, h4⟩ := regAt_placed hr
      dsimp only
      have hf : ∀ (l : List FieldRow), (∀ x ∈ l, x.f.base = r.base ∧ x.f.count = r.count ∧ x.f.lo < 32) →
          t.fieldsWord ((off - r.base) / 4) l = a.fieldsWord ((off - r.base) / 4) l := by
        intro l
        induction l with
        | nil => intro _; rfl
        | cons x l ih =>
          intro hx
          obtain ⟨b1, b2, b3⟩ := hx x (.head _)
          unfold State.fieldsWord
          rw [ih (fun y hy => hx y (.tail _ hy))]
          have : t.rdi x.f ((off - r.base) / 4) = a.rdi x.f ((off - r.base) / 4) := by
            unfold State.rdi
            split
            · exact key _ (by unfold Fld.key; rw [b1]; omega)
            · rfl
          rw [this]
      exact hf _ h4

end Sys2Proof.Machine
end

