-- ==== Sys2Proof/Laws/Posts.lean ====
section
/-! SUPPORT. What posting an event record leaves of the host side (R518, R519): the host's counters, the completions that
wait, the cache, the buffers and the rest stay; only the records, their sequence, the walker's jobs and the message
counts change. -/
set_option Elab.async false
namespace Sys2Proof.Machine

/-- The parts of the host side that no event record touches. -/
structure HostKept (a b : HostSt) : Prop where
  ctr : b.ctr = a.ctr
  epoch : b.epoch = a.epoch
  comps : b.comps = a.comps
  atTend : b.atTend = a.atTend
  atNext : b.atNext = a.atNext
  cache : b.cache = a.cache
  inv : b.inv = a.inv
  d3 : b.d3 = a.d3
  bars : b.bars = a.bars
  wall : b.wall = a.wall
  bufs : b.bufs = a.bufs
  doneCtr : b.doneCtr = a.doneCtr

theorem HostKept.refl (a : HostSt) : HostKept a a := ⟨rfl, rfl, rfl, rfl, rfl, rfl, rfl, rfl, rfl, rfl, rfl, rfl⟩
theorem HostKept.trans {a b c : HostSt} (h : HostKept a b) (g : HostKept b c) : HostKept a c :=
  ⟨g.1.trans h.1, g.2.trans h.2, g.3.trans h.3, g.4.trans h.4, g.5.trans h.5, g.6.trans h.6, g.7.trans h.7,
    g.8.trans h.8, g.9.trans h.9, g.10.trans h.10, g.11.trans h.11, g.12.trans h.12⟩
theorem HostKept.of_eq {a b : HostSt} (h : b = a) : HostKept a b := h ▸ HostKept.refl a

namespace State

theorem queueAt_kept (s : State) (r ty tick elapsed pay more) : HostKept s.hst (s.queueAt r ty tick elapsed pay more).hst := by
  unfold queueAt; extract_lets; split <;> exact ⟨rfl, rfl, rfl, rfl, rfl, rfl, rfl, rfl, rfl, rfl, rfl, rfl⟩

theorem startJob_kept (s : State) (k found pages) : HostKept s.hst (s.startJob k found pages).hst := by
  unfold startJob; split
  · exact .refl _
  · exact ⟨rfl, rfl, rfl, rfl, rfl, rfl, rfl, rfl, rfl, rfl, rfl, rfl⟩

theorem askEntry_kept (s : State) (r ctr) : HostKept s.hst (s.askEntry r ctr).hst := by
  unfold askEntry; extract_lets; split
  · exact .refl _
  · exact startJob_kept ..

theorem entryWritten_kept (s : State) (r) : HostKept s.hst (s.entryWritten r).hst := by
  unfold entryWritten; extract_lets; split <;> exact ⟨rfl, rfl, rfl, rfl, rfl, rfl, rfl, rfl, rfl, rfl, rfl, rfl⟩

theorem entriesWritten_kept (s : State) (r k : Nat) : HostKept s.hst (s.entriesWritten r k).hst := by
  induction k generalizing s with
  | zero => exact .refl _
  | succ k ih => exact (entryWritten_kept s r).trans (ih _)

theorem drainList_kept (s : State) (r : Nat) (l : List Event) : HostKept s.hst (s.drainList r l).1.hst := by
  induction l generalizing s with
  | nil => exact .refl _
  | cons e t ih =>
    unfold drainList
    extract_lets
    split
    · exact .refl _
    · split
      · exact askEntry_kept ..
      · exact .of_eq (s.haltRing_hst ..)
      · refine .trans (.trans (.of_eq ?_) (entriesWritten_kept _ r _)) (ih _)
        simp only [recordPosted_hst, wri_hst, emitRecord_hst]

theorem drain_kept (s : State) (r : Nat) : HostKept s.hst (s.drain r).hst := by
  unfold drain
  extract_lets
  split
  · rename_i s1 l h
    have k := drainList_kept s r (tget (fun _ => []) s.hst.evq r)
    rw [h] at k
    extract_lets
    split
    · exact k.trans ⟨rfl, rfl, rfl, rfl, rfl, rfl, rfl, rfl, rfl, rfl, rfl, rfl⟩
    · unfold queueRingState; split
      · exact k.trans ⟨rfl, rfl, rfl, rfl, rfl, rfl, rfl, rfl, rfl, rfl, rfl, rfl⟩
      · unfold queueRec queueOn
        refine HostKept.trans ?_ (queueAt_kept ..)
        exact k.trans ⟨rfl, rfl, rfl, rfl, rfl, rfl, rfl, rfl, rfl, rfl, rfl, rfl⟩

theorem post_kept (s : State) (ty pay) : HostKept s.hst (s.post ty pay).hst := by
  unfold post queueRec queueOn; exact (queueAt_kept ..).trans (drain_kept ..)

theorem queueAt_seqNo (s : State) (r ty tick elapsed pay more) : (s.queueAt r ty tick elapsed pay more).hst.seqNo = s.hst.seqNo + 1 := by
  unfold queueAt; extract_lets; split <;> rfl

theorem startJob_seqNo (s : State) (k found pages) : (s.startJob k found pages).hst.seqNo = s.hst.seqNo := by
  unfold startJob; split <;> rfl

theorem askEntry_seqNo (s : State) (r ctr) : (s.askEntry r ctr).hst.seqNo = s.hst.seqNo := by
  unfold askEntry; extract_lets; split
  · rfl
  · exact startJob_seqNo ..

theorem entryWritten_seqNo (s : State) (r) : (s.entryWritten r).hst.seqNo = s.hst.seqNo := by
  unfold entryWritten; extract_lets; split <;> rfl

theorem entriesWritten_regs (s : State) (r k : Nat) : (s.entriesWritten r k).regs = s.regs := by
  induction k generalizing s with
  | zero => rfl
  | succ k ih => exact (ih _).trans (by unfold entryWritten; extract_lets; split <;> rfl)

theorem entriesWritten_seqNo (s : State) (r k : Nat) : (s.entriesWritten r k).hst.seqNo = s.hst.seqNo := by
  induction k generalizing s with
  | zero => rfl
  | succ k ih => exact (ih _).trans (entryWritten_seqNo s r)

theorem drainList_seqNo (s : State) (r : Nat) (l : List Event) : (s.drainList r l).1.hst.seqNo = s.hst.seqNo := by
  induction l generalizing s with
  | nil => rfl
  | cons e t ih =>
    unfold drainList
    extract_lets
    split
    · rfl
    · split
      · exact askEntry_seqNo ..
      · exact congrArg HostSt.seqNo (s.haltRing_hst ..)
      · rw [ih, entriesWritten_seqNo]; simp only [recordPosted_hst, wri_hst, emitRecord_hst]

theorem drain_seqNo (s : State) (r : Nat) : s.hst.seqNo ≤ (s.drain r).hst.seqNo := by
  unfold drain
  extract_lets
  split
  · rename_i s1 l h
    have k := drainList_seqNo s r (tget (fun _ => []) s.hst.evq r)
    rw [h] at k
    extract_lets
    split
    · exact Nat.le_of_eq k.symm
    · unfold queueRingState; split
      · exact Nat.le_of_eq k.symm
      · unfold queueRec queueOn
        rw [queueAt_seqNo]; exact Nat.le_succ_of_le (Nat.le_of_eq k.symm)

/-- Posting a record takes a sequence number. -/
theorem post_seqNo (s : State) (ty pay) : s.hst.seqNo < (s.post ty pay).hst.seqNo := by
  unfold post queueRec queueOn
  exact Nat.lt_of_lt_of_le (by rw [queueAt_seqNo]; exact Nat.lt_succ_self _) (drain_seqNo ..)

theorem noticeOpen_seqNo (s : State) (c) : s.hst.seqNo < (s.noticeOpen c).hst.seqNo := by
  unfold noticeOpen notice; exact s.post_seqNo 3 _
theorem configRefused_seqNo (s : State) (a b c) : s.hst.seqNo < (s.configRefused a b c).hst.seqNo := s.post_seqNo 1 _

theorem emit_out (s : State) (o) : s.out <+: (s.emit o).out := List.prefix_append _ _

theorem askEntry_out (s : State) (r ctr) : s.out <+: (s.askEntry r ctr).out := by
  unfold askEntry; extract_lets; split
  · exact List.prefix_rfl
  · unfold startJob; split
    · exact List.prefix_rfl
    · exact List.prefix_append _ _

theorem entryWritten_out (s : State) (r) : s.out <+: (s.entryWritten r).out := by
  unfold entryWritten; extract_lets; split
  · exact List.prefix_append _ _
  · exact List.prefix_rfl

theorem entriesWritten_out (s : State) (r k : Nat) : s.out <+: (s.entriesWritten r k).out := by
  induction k generalizing s with
  | zero => exact List.prefix_rfl
  | succ k ih => exact (entryWritten_out s r).trans (ih _)

theorem drainList_out (s : State) (r : Nat) (l : List Event) : s.out <+: (s.drainList r l).1.out := by
  induction l generalizing s with
  | nil => exact List.prefix_rfl
  | cons e t ih =>
    unfold drainList
    extract_lets
    split
    · exact List.prefix_rfl
    · split
      · exact askEntry_out ..
      · rw [haltRing_out]
      · refine List.IsPrefix.trans ?_ (List.IsPrefix.trans (entriesWritten_out _ r _) (ih _))
        simp only [recordPosted_out, wri_out]; exact List.prefix_append _ _

theorem drain_out (s : State) (r : Nat) : s.out <+: (s.drain r).out := by
  unfold drain
  extract_lets
  split
  · rename_i s1 l h
    have k := drainList_out s r (tget (fun _ => []) s.hst.evq r)
    rw [h] at k
    extract_lets
    split
    · exact k
    · unfold queueRingState; split
      · exact k
      · unfold queueRec queueOn; rw [queueAt_out]; exact k

/-- Posting a record takes back nothing that was put outside. -/
theorem post_out (s : State) (ty pay) : s.out <+: (s.post ty pay).out := by
  unfold post
  refine List.IsPrefix.trans ?_ (drain_out ..)
  unfold queueRec queueOn; rw [queueAt_out]

/-- Ending a descriptor adds its completion and leaves those that wait for tend. -/
theorem complete_atTend (s : State) (d st det res) : (s.complete d st det res).hst.atTend = s.hst.atTend := by
  unfold complete; split <;> rfl

theorem complete_comps (s : State) (d st det res) (h : d.epoch = s.hst.epoch) :
    (s.complete d st det res).hst.comps = s.hst.comps ++
      [⟨d.cring, d.opcode, st, d.ring, d.tag, d.index, det, s.tm.n, s.tm.e, res, d.epoch⟩] := by
  unfold complete; rw [if_neg (by simp [h])]

/-- The fields of an EVENT ring that writing its records may change (R499, R502). -/
def drainFields : List Fld :=
  [Reg.RING_STATE_n.STATE, Reg.RING_STATE_n.CONS, Reg.RING_FAULT_n.STATUS, Reg.RING_FAULT_n.ACCESS, Reg.RING_FAULT_n.PAGE]

/-- An entry of a field that writing the records of ring `r` leaves. -/
def OffDrain (r : Nat) (g : Fld) (j : Nat) : Prop := ∀ x ∈ drainFields, (x = g ∧ r ≠ j) ∨ apart x g = true

theorem wri_offDrain (s : State) {r : Nat} {g : Fld} {j : Nat} (h : OffDrain r g j) (x : Fld) (hx : x ∈ drainFields) (v : Nat) :
    (s.wri x r v).rdi g j = s.rdi g j := by
  rcases h x hx with ⟨rfl, e⟩ | e
  · exact rdi_wri_entry s v e
  · exact rdi_wri_apart s r j v e

theorem haltRing_offDrain (s : State) {r : Nat} {g : Fld} {j : Nat} (h : OffDrain r g j) (st status acc page : Nat) :
    (s.haltRing r st status acc page).rdi g j = s.rdi g j := by
  unfold haltRing
  rw [wri_offDrain _ h _ (by decide), wri_offDrain _ h _ (by decide), wri_offDrain _ h _ (by decide), wri_offDrain _ h _ (by decide)]

theorem queueAt_regs (s : State) (r ty tick elapsed pay more) : (s.queueAt r ty tick elapsed pay more).regs = s.regs := by
  unfold queueAt; extract_lets; split <;> rfl

theorem queueRingState_regs (s : State) (r old new) : (s.queueRingState r old new).regs = s.regs := by
  unfold queueRingState; split
  · rfl
  · exact queueAt_regs ..

theorem regs_rdi {a b : State} (h : b.regs = a.regs) (f : Fld) (i : Nat) : b.rdi f i = a.rdi f i := by
  unfold rdi; rw [h]

theorem recordPosted_regs (s : State) (e ctr) : (s.recordPosted e ctr).regs = s.regs := by
  unfold recordPosted; extract_lets; split <;> rfl

theorem drainList_off (s : State) {r : Nat} {g : Fld} {j : Nat} (h : OffDrain r g j) (l : List Event) :
    (s.drainList r l).1.rdi g j = s.rdi g j := by
  induction l generalizing s with
  | nil => rfl
  | cons e t ih =>
    unfold drainList
    extract_lets
    split
    · rfl
    · split
      · unfold askEntry; extract_lets; split
        · rfl
        · unfold startJob; rfl
      · exact haltRing_offDrain _ h _ _ _ _
      · extract_lets s1 s2
        have k2 : s2.rdi g j = s.rdi g j := by
          have k1 : ∀ v, (s1.wri Reg.RING_STATE_n.CONS r v).rdi g j = s.rdi g j := fun v =>
            wri_offDrain s1 h Reg.RING_STATE_n.CONS (by decide) v
          simp only [s2]
          rw [regs_rdi (recordPosted_regs _ _ _)]
          exact k1 _
        rw [ih]
        exact (regs_rdi (entriesWritten_regs ..) g j).trans k2

/-- Writing the records of an EVENT ring leaves every entry but that ring's own state, counter and fault. -/
theorem drain_off (s : State) {r : Nat} {g : Fld} {j : Nat} (h : OffDrain r g j) : (s.drain r).rdi g j = s.rdi g j := by
  unfold drain
  extract_lets
  split
  · rename_i s1 l hl
    have k := drainList_off s h (tget (fun _ => []) s.hst.evq r)
    rw [hl] at k
    extract_lets
    split
    · exact (regs_rdi rfl g j).trans k
    · exact ((regs_rdi (queueRingState_regs ..) g j).trans (regs_rdi rfl g j)).trans k

/-- A ring's change of state, read at an entry that the record of it leaves (R502). -/
theorem setRingState_state (s : State) {r new : Nat} (hr : r < 64) (hn : new < 8) (h : s.evRing 0x90 ≠ r) :
    (s.setRingState r new).rdi Reg.RING_STATE_n.STATE r = new := by
  unfold setRingState
  extract_lets old s1 s2
  have e1 : s2.evRing 0x90 = s.evRing 0x90 := by
    have : ∀ f, apart Reg.RING_STATE_n.STATE f = true → s2.rdi f 0 = s.rdi f 0 := fun f hf =>
      (regs_rdi (queueRingState_regs ..) f 0).trans (rdi_wri_apart s r 0 new hf)
    unfold evRing rd; rw [if_neg (by decide), if_neg (by decide), this _ rfl]
  rw [e1, drain_off]
  · exact (regs_rdi (queueRingState_regs ..) _ _).trans ((rdi_wri_self s new hr).trans (Nat.mod_eq_of_lt hn))
  · intro x hx
    have : ∀ x ∈ drainFields, x = Reg.RING_STATE_n.STATE ∨ apart x Reg.RING_STATE_n.STATE = true := by decide
    rcases this x hx with h1 | h1
    · exact .inl ⟨h1, h⟩
    · exact .inr h1

/-- A ring's change of state leaves every entry but the states, counters and faults of that ring and of the EVENT ring. -/
theorem setRingState_off (s : State) {r new : Nat} {g : Fld} {j : Nat} (h1 : OffDrain (s.evRing 0x90) g j) (h2 : OffDrain r g j) :
    (s.setRingState r new).rdi g j = s.rdi g j := by
  unfold setRingState
  extract_lets old s1 s2
  have e1 : s2.evRing 0x90 = s.evRing 0x90 := by
    have : ∀ f, apart Reg.RING_STATE_n.STATE f = true → s2.rdi f 0 = s.rdi f 0 := fun f hf =>
      (regs_rdi (queueRingState_regs ..) f 0).trans (rdi_wri_apart s r 0 new hf)
    unfold evRing rd; rw [if_neg (by decide), if_neg (by decide), this _ rfl]
  rw [e1, drain_off _ h1]
  exact (regs_rdi (queueRingState_regs ..) _ _).trans (wri_offDrain s h2 _ (by decide) new)

theorem setRingState_kept (s : State) (r new) : HostKept s.hst (s.setRingState r new).hst := by
  unfold setRingState
  extract_lets old s1 s2
  refine HostKept.trans ?_ (drain_kept ..)
  refine HostKept.trans (b := s1.hst) (.of_eq (wri_hst ..)) ?_
  simp only [s2]; unfold queueRingState; split
  · exact .refl _
  · exact queueAt_kept ..

end State
end Sys2Proof.Machine
end

