-- ==== Sys2Proof/Laws/Shadow.lean ====
section
/-! SUPPORT. Shadow registers and their active copies (R699): an activation copies what the shadow reads, leaves every
shadow, and a swap of a whole group makes each active copy of the group what its shadow reads. -/
set_option Elab.async false
namespace Sys2Proof.Machine

/-- A field in the lower half of its block, where the shadows lie. -/
def low (f : Fld) : Bool := decide (f.base % 65536 + 4 * f.count ≤ 0x8000 ∧ f.lo < 32)

theorem Only.acti {M : Nat} {a t : State} (h : Only M a t) (f : Fld) (i : Nat) (hf : fr M f = true) :
    t.acti f i = a.acti f i := by
  simp only [fr, Bool.and_eq_true, Bool.not_eq_true', decide_eq_true_eq] at hf
  unfold State.acti; split
  · next hi =>
    have hk : f.actKey i / 32 / 65536 = f.base / 65536 := by unfold Fld.actKey; omega
    exact h.regs _ (by omega) (by rw [hk]; exact hf.1.2)
  · rfl

theorem Only.act {M : Nat} {a t : State} (h : Only M a t) (f : Fld) (hf : fr M f = true) : t.act f = a.act f := h.acti f 0 hf

namespace State

theorem rdi_activate (s : State) {f g : Fld} (i j : Nat) (hf : low f = true) (hg : low g = true) :
    (s.activate g j).rdi f i = s.rdi f i := by
  simp only [low, decide_eq_true_eq] at hf hg
  unfold activate; split
  · unfold rdi; split
    · exact tget_tput_ne _ _ _ (by unfold Fld.key Fld.actKey; omega)
    · rfl
  · rfl

theorem acti_activate_self (s : State) {f : Fld} {i : Nat} (h : i < f.count) : (s.activate f i).acti f i = s.rdi f i := by
  unfold activate acti; rw [if_pos h, if_pos h]; exact tget_tput_self _ _ _ _

/-- An active copy that equals its shadow stays so through an activation of any entry. -/
theorem acti_activate_keep (s : State) {f g : Fld} (i j : Nat) (h : s.acti f i = s.rdi f i)
    (hf : low f = true) (hg : low g = true) : (s.activate g j).acti f i = s.rdi f i := by
  simp only [low, decide_eq_true_eq] at hf hg
  by_cases hj : j < g.count
  · by_cases hi : i < f.count
    · by_cases hk : f.actKey i = g.actKey j
      · have he : f.key i = g.key j := by unfold Fld.key; unfold Fld.actKey at hk; omega
        unfold activate acti; rw [if_pos hj, if_pos hi, hk]
        show tget _ (tput _ _ _ _) _ = _
        rw [tget_tput_self]
        unfold rdi; rw [if_pos hi, if_pos hj, he]
      · unfold activate acti at *; rw [if_pos hj, if_pos hi]
        rw [if_pos hi] at h
        show tget _ (tput _ _ _ _) _ = _
        rw [tget_tput_ne _ _ _ (Ne.symm hk)]; exact h
    · unfold acti rdi; rw [if_neg hi, if_neg hi]
  · unfold activate; rw [if_neg hj]; exact h

/-- After a swap of the group `l` every active copy of the group is what its shadow read, and every shadow stays. -/
theorem activateAll_spec (l : List Fld) (hl : ∀ f ∈ l, low f = true) (s : State) :
    (∀ f i, low f = true → (s.activateAll l).rdi f i = s.rdi f i) ∧
    (∀ f i, low f = true → s.acti f i = s.rdi f i → (s.activateAll l).acti f i = s.rdi f i) ∧
    (∀ f i, f ∈ l → i < f.count → (s.activateAll l).acti f i = s.rdi f i) := by
  have inner : ∀ (g : Fld) (ns : List Nat) (s : State), low g = true →
      (∀ f i, low f = true → (ns.foldl (fun s i => s.activate g i) s).rdi f i = s.rdi f i) ∧
      (∀ f i, low f = true → s.acti f i = s.rdi f i → (ns.foldl (fun s i => s.activate g i) s).acti f i = s.rdi f i) ∧
      (∀ i, i ∈ ns → i < g.count → (ns.foldl (fun s i => s.activate g i) s).acti g i = s.rdi g i) := by
    intro g ns
    induction ns with
    | nil => exact fun s _ => ⟨fun _ _ _ => rfl, fun _ _ _ h => h, fun _ h => by cases h⟩
    | cons n ns ih =>
      intro s hg
      have k := ih (s.activate g n) hg
      have r := fun f i hf => s.rdi_activate (f := f) i n hf hg
      refine ⟨fun f i hf => by rw [List.foldl_cons, k.1 f i hf, r f i hf], fun f i hf h => ?_, fun i hi hc => ?_⟩
      · rw [List.foldl_cons, k.2.1 f i hf (by rw [r f i hf]; exact s.acti_activate_keep i n h hf hg), r f i hf]
      · rw [List.foldl_cons]
        rcases List.mem_cons.mp hi with rfl | hm
        · rw [k.2.1 g i hg (by rw [r g i hg]; exact s.acti_activate_self hc), r g i hg]
        · rw [k.2.2 i hm hc, r g i hg]
  induction l generalizing s with
  | nil => exact ⟨fun _ _ _ => rfl, fun _ _ _ h => h, fun _ _ h => by cases h⟩
  | cons g l ih =>
    have hg := hl g List.mem_cons_self
    have a := inner g (List.range g.count) s hg
    have b := ih (fun f hf => hl f (List.mem_cons_of_mem _ hf)) ((List.range g.count).foldl (fun s i => s.activate g i) s)
    refine ⟨fun f i hf => (b.1 f i hf).trans (a.1 f i hf), fun f i hf h => ?_, fun f i hf hc => ?_⟩
    · exact (b.2.1 f i hf (by rw [a.1 f i hf]; exact a.2.1 f i hf h)).trans (a.1 f i hf)
    · rcases List.mem_cons.mp hf with rfl | hm
      · exact (b.2.1 f i hg (by rw [a.1 f i hg]; exact a.2.2 i (List.mem_range.mpr hc) hc)).trans (a.1 f i hg)
      · exact (b.2.2 f i hm hc).trans (a.1 f i (hl f (List.mem_cons_of_mem _ hm)))

/-- A write of a shadow's half leaves every active copy. -/
theorem acti_wri (s : State) {f g : Fld} (i j v : Nat) (hf : low f = true) (hg : low g = true) :
    (s.wri g j v).acti f i = s.acti f i := by
  simp only [low, decide_eq_true_eq] at hf hg
  unfold wri; split
  · unfold acti; split
    · exact tget_tput_ne _ _ _ (by unfold Fld.key Fld.actKey; omega)
    · rfl
  · rfl

end State
end Sys2Proof.Machine
end

