-- ==== Sys2Proof/Laws/Sluice.lean ====
section
/-! SUPPORT. What acting with a scope does (R391, R392, R407, R408): the latch bit, the scope and phases in force, the breaker
outputs, the release that waits, the cells. -/
set_option Elab.async false
namespace Sys2Proof.Machine

/-- A field that no latch touches: apart from SLC_TRIP_LATCH, SLC_FIRST and SLC_FIRST_TIME. -/
def offLatch (g : Fld) : Bool :=
  latchFields.all (fun x => apart x g && apart (firstField x) g) && apart Reg.SLC_FIRST_TIME.TIME g

/-- The phases in force after acting with a scope (R392). -/
def newPhases (scope phases ph : Nat) : Nat := if scope = 1 then ph ||| phases else 7

/-- The scope in force after acting with a scope (R392). -/
def newScope (scope phases sc ph : Nat) : Nat :=
  if scope = 3 ∨ sc = 3 then 3 else if newPhases scope phases ph = 7 then 2 else 1

namespace State
variable (s : State)

theorem foldl_first_rdi (v : State → Fld → Nat) (l : List Fld) (g : Fld) (i : Nat) (h : ∀ x ∈ l, apart (firstField x) g = true) :
    (l.foldl (fun s x => s.wr (firstField x) (v s x)) s).rdi g i = s.rdi g i := by
  induction l generalizing s with
  | nil => rfl
  | cons x t ih =>
    rw [List.foldl_cons, ih _ (fun y hy => h y (List.mem_cons_of_mem _ hy))]
    exact rdi_wri_apart _ 0 i _ (h x List.mem_cons_self)

theorem foldl_first_slc (v : State → Fld → Nat) (l : List Fld) :
    (l.foldl (fun s x => s.wr (firstField x) (v s x)) s).slc = s.slc := by
  induction l generalizing s with
  | nil => rfl
  | cons x t ih => rw [List.foldl_cons, ih, wr_slc]

theorem latchBits_rdi (f : Fld) (m : Nat) (g : Fld) (i : Nat) : (s.latchBits f m).rdi g i = (s.wr f (s.rd f ||| m)).rdi g i := rfl
theorem latchBits_release (f : Fld) (m : Nat) : (s.latchBits f m).slc.release = s.slc.release := rfl

/-- A latch leaves every field off the latch registers. -/
theorem rdi_latch_off (f : Fld) (m : Nat) (hf : f ∈ latchFields) (g : Fld) (i : Nat) (hg : offLatch g = true) :
    (s.latch f m).rdi g i = s.rdi g i := by
  simp only [offLatch, Bool.and_eq_true, List.all_eq_true] at hg
  have h1 : ∀ v (u : State), (u.wr f v).rdi g i = u.rdi g i := fun v u => rdi_wri_apart _ 0 i v (hg.1 f hf).1
  have h2 : ∀ v (u : State), (u.wr (firstField f) v).rdi g i = u.rdi g i := fun v u => rdi_wri_apart _ 0 i v (hg.1 f hf).2
  have h3 : ∀ v (u : State), (u.wr Reg.SLC_FIRST_TIME.TIME v).rdi g i = u.rdi g i := fun v u => rdi_wri_apart _ 0 i v hg.2
  unfold latch
  extract_lets fresh s1 s2 s3 x s4 y
  rw [rdi_mk]
  simp only [s4]
  have k1 : s1.rdi g i = s.rdi g i := (latchBits_rdi ..).trans (h1 _ _)
  have k2 : s2.rdi g i = s1.rdi g i := foldl_first_rdi _ _ _ _ _ (fun x hx => (hg.1 x hx).2)
  have k3 : s3.rdi g i = s2.rdi g i := h3 _ _
  clear_value s1 s2 s3
  split
  · rw [rdi_mk]; exact k3.trans (k2.trans k1)
  · split
    · exact (h2 _ _).trans k1
    · exact k1

/-- A latch sets its bits and keeps those that stood (R407). -/
theorem rd_latch_self (f : Fld) (m : Nat) (hf : f ∈ latchFields) : (s.latch f m).rd f = (s.rd f ||| m) % 2 ^ f.w := by
  have ha : ∀ x ∈ latchFields, apart (firstField x) f = true :=
    have h : ∀ y ∈ latchFields, ∀ x ∈ latchFields, apart (firstField x) y = true := by decide
    h f hf
  have hb : apart Reg.SLC_FIRST_TIME.TIME f = true :=
    have h : ∀ y ∈ latchFields, apart Reg.SLC_FIRST_TIME.TIME y = true := by decide
    h f hf
  have hc : 0 < f.count :=
    have h : ∀ y ∈ latchFields, 0 < y.count := by decide
    h f hf
  have h2 : ∀ v (u : State), (u.wr (firstField f) v).rdi f 0 = u.rdi f 0 := fun v u => rdi_wri_apart _ 0 0 v (ha f hf)
  have h3 : ∀ v (u : State), (u.wr Reg.SLC_FIRST_TIME.TIME v).rdi f 0 = u.rdi f 0 := fun v u => rdi_wri_apart _ 0 0 v hb
  unfold latch
  extract_lets fresh s1 s2 s3 x s4 y
  have k1 : s1.rdi f 0 = (s.rd f ||| m) % 2 ^ f.w := rd_wr_self _ _ hc
  have k2 : s2.rdi f 0 = s1.rdi f 0 := foldl_first_rdi _ _ _ _ _ ha
  have k3 : s3.rdi f 0 = s2.rdi f 0 := h3 _ _
  rw [rd_def, rdi_mk]
  simp only [s4]
  clear_value s1 s2 s3
  split
  · rw [rdi_mk]; exact k3.trans (k2.trans k1)
  · split
    · exact (h2 _ _).trans k1
    · exact k1

theorem latch_release (f : Fld) (m : Nat) : (s.latch f m).slc.release = s.slc.release := by
  unfold latch
  extract_lets fresh s1 s2 s3 x s4 y
  have k1 : s1.slc.release = s.slc.release := latchBits_release ..
  have k2 : s2.slc = s1.slc := foldl_first_slc ..
  have k3 : s3.slc = s2.slc := wr_slc ..
  show s4.slc.release = _
  simp only [s4]
  clear_value s1 s2 s3
  split
  · show s3.slc.release = _; rw [k3, k2, k1]
  · split
    · rw [wr_slc, k1]
    · rw [k1]

theorem cancelRelease_release : s.cancelRelease.slc.release = [] := by
  unfold cancelRelease
  split
  · assumption
  · extract_lets l s2
    have : ∀ (l : List Desc) (u : State), (l.foldl (fun s d => s.complete d 2 7 [(32, 4, 2 ^ 7)]) u).slc = u.slc := by
      intro l; induction l with
      | nil => intro u; rfl
      | cons x t ih => intro u; rw [List.foldl_cons, ih]; exact (complete_only ..).slc rfl
    rw [(noticeOpen_only ..).slc rfl, this]

/-- The cells of a phase mask are blocked, and nothing else of a cell changes (R287). -/
theorem blockPhases_cells (ph : Nat) (c : Nat) (h : (s.cells.any (fun kv => kv.1 == c)) = true)
    (hb : bitOf ph (s.phaseOf c) = true) : ((s.blockPhases ph).cell c).svc.blk = true := by
  unfold blockPhases mapCells
  have key : ∀ (l : Tab Cell) (u : State), 
      ((l.any (fun kv => kv.1 == c)) = true ∨ (u.cell c).svc.blk = true) →
      ((l.foldl (fun (u : State) kv => u.setCell kv.1 (if bitOf ph (s.phaseOf kv.1) = true then
        { kv.2 with svc := { kv.2.svc with blk := true } } else kv.2)) u).cell c).svc.blk = true := by
    intro l
    induction l with
    | nil => intro u hu; simpa using hu
    | cons x t ih =>
      intro u hu
      rw [List.foldl_cons]
      refine ih _ ?_
      by_cases hx : x.1 = c
      · right; subst hx; rw [cell_setCell_self, if_pos hb]
      · rcases hu with hu | hu
        · left; simpa [hx] using hu
        · right; rw [cell_setCell_ne _ _ hx]; exact hu
  exact key _ _ (Or.inl h)

/-- Blocking at once leaves the registers, and the release that waits. -/
theorem blockNow_rd (ph : Nat) (g : Fld) (hg : fr 0x1002400000000000 g = true) : (s.blockNow ph).rd g = s.rd g :=
  (Only.blockNow (Only.refl _ s) ph rfl).rd g hg

theorem blockNow_release (ph : Nat) : (s.blockNow ph).slc.release = s.slc.release := by
  show ((s.sendBk ph).blockPhases ph).slc.release = _
  rw [(blockPhases_only ..).slc rfl, (sendBk_only ..).slc rfl]

theorem blockNow_hst (ph : Nat) : (s.blockNow ph).hst = s.hst := (Only.blockNow (M := 0x1002400000000000) (Only.refl _ s) ph rfl).hst rfl

/-- What acting with a scope leaves in the registers and in the release that waits (R391, R392, R407, R408). -/
theorem actScope_spec (f : Fld) (m scope phases : Nat) (sched : Bool) (hf : f ∈ latchFields) (hph : phases < 8)
    (hp : s.rd Reg.SLC_BLOCK_STATUS.PHASES < 8) :
    let t := s.actScope f m scope phases sched
    t.rd f = (s.rd f ||| m) % 2 ^ f.w ∧
    t.rd Reg.SLC_BLOCK_STATUS.PHASES = newPhases scope phases (s.rd Reg.SLC_BLOCK_STATUS.PHASES) ∧
    t.rd Reg.SLC_BLOCK_STATUS.SCOPE =
      newScope scope phases (s.rd Reg.SLC_BLOCK_STATUS.SCOPE) (s.rd Reg.SLC_BLOCK_STATUS.PHASES) ∧
    t.rd Reg.SLC_BLOCK_STATUS.BRK =
      (if scope = 3 ∧ s.rd Reg.SLC_BLOCK_STATUS.BRK = 0 then 1 else s.rd Reg.SLC_BLOCK_STATUS.BRK) ∧
    t.slc.release = [] := by
  intro t
  have hfa : apart Reg.SLC_BLOCK_STATUS.PHASES f = true ∧ apart Reg.SLC_BLOCK_STATUS.SCOPE f = true ∧
      apart Reg.SLC_BLOCK_STATUS.BRK f = true ∧ apart Reg.SLC_BLOCK_STATUS.BLOCKS f = true :=
    have h : ∀ y ∈ latchFields, apart Reg.SLC_BLOCK_STATUS.PHASES y = true ∧ apart Reg.SLC_BLOCK_STATUS.SCOPE y = true ∧
      apart Reg.SLC_BLOCK_STATUS.BRK y = true ∧ apart Reg.SLC_BLOCK_STATUS.BLOCKS y = true := by decide
    h f hf
  have hfr : True ∧ fr 0x1900500000000200 f = true ∧ fr 0x40000020000000 f = true ∧ fr 0x1100100000000200 f = true :=
    have h : ∀ y ∈ latchFields, True ∧ fr 0x1900500000000200 y = true ∧
      fr 0x40000020000000 y = true ∧ fr 0x1100100000000200 y = true := by decide
    h f hf
  have hff : fr 0x1002400000000000 f = true :=
    have h : ∀ y ∈ latchFields, fr 0x1002400000000000 y = true := by decide
    h f hf
  have hnp : newPhases scope phases (s.rd Reg.SLC_BLOCK_STATUS.PHASES) < 8 := by
    unfold newPhases; split
    · exact Nat.or_lt_two_pow (n := 3) hp hph
    · decide
  have hns : newScope scope phases (s.rd Reg.SLC_BLOCK_STATUS.SCOPE) (s.rd Reg.SLC_BLOCK_STATUS.PHASES) < 4 := by
    unfold newScope; split
    · decide
    · split <;> decide
  simp only [t]
  unfold actScope
  extract_lets sc ph s1 ph' sc' x0 x1 s2 tr s3 x4 s4
  replace hnp : ph' < 8 := hnp
  replace hns : sc' < 4 := hns
  have e1 : s1.rd f = (s.rd f ||| m) % 2 ^ f.w ∧ (∀ g, fr 0x1940500020000200 g = true → offLatch g = true → s1.rd g = s.rd g) ∧
      s1.slc.release = [] := by
    simp only [s1]
    refine ⟨?_, fun g h1 h2 => ?_, ?_⟩
    · rw [rd_def, rdi_captureEvent _ _ _ _ hfr.2.2.1, rdi_cancelRelease _ _ _ hfr.2.1]; exact rd_latch_self _ _ _ hf
    · have k : Only 0x1940500020000200 (s.latch f m) s1 :=
        Only.captureEvent (Only.cancelRelease (Only.refl _ _) rfl) _ rfl
      rw [show (captureEvent _ _).rd g = _ from k.rd g h1]
      exact rdi_latch_off _ _ _ hf _ _ h2
    · rw [captureEvent_slc, cancelRelease_release]
  clear_value s1
  have e2 : s2.rd f = (s.rd f ||| m) % 2 ^ f.w ∧
      s2.rd Reg.SLC_BLOCK_STATUS.BRK = (if scope = 3 ∧ s.rd Reg.SLC_BLOCK_STATUS.BRK = 0 then 1 else s.rd Reg.SLC_BLOCK_STATUS.BRK) ∧
      s2.rd Reg.SLC_BLOCK_STATUS.SCOPE = sc ∧ s2.rd Reg.SLC_BLOCK_STATUS.PHASES = ph ∧ s2.slc.release = [] := by
    have b := e1.2.1 Reg.SLC_BLOCK_STATUS.BRK rfl rfl
    simp only [s2, x0, x1]
    rw [b]
    split
    · refine ⟨?_, ?_, ?_, ?_, ?_⟩
      · exact (rdi_wri_apart s1 0 0 1 hfa.2.2.1).trans e1.1
      · exact rd_wr_self s1 1 (by decide)
      · exact (rdi_wri_apart s1 0 0 1 rfl).trans (e1.2.1 _ rfl rfl)
      · exact (rdi_wri_apart s1 0 0 1 rfl).trans (e1.2.1 _ rfl rfl)
      · exact e1.2.2
    · exact ⟨e1.1, b, e1.2.1 _ rfl rfl, e1.2.1 _ rfl rfl, e1.2.2⟩
  clear_value s2
  replace e2 : tr.rd f = (s.rd f ||| m) % 2 ^ f.w ∧
      tr.rd Reg.SLC_BLOCK_STATUS.BRK = (if scope = 3 ∧ s.rd Reg.SLC_BLOCK_STATUS.BRK = 0 then 1 else s.rd Reg.SLC_BLOCK_STATUS.BRK) ∧
      tr.rd Reg.SLC_BLOCK_STATUS.SCOPE = sc ∧ tr.rd Reg.SLC_BLOCK_STATUS.PHASES = ph ∧ tr.slc.release = [] := by
    simp only [tr]; split <;> exact e2
  clear_value tr
  split
  · next hh =>
    have e : tr.rd f = (s.rd f ||| m) % 2 ^ f.w ∧ tr.rd Reg.SLC_BLOCK_STATUS.PHASES = ph' ∧ tr.rd Reg.SLC_BLOCK_STATUS.SCOPE = sc' ∧
        tr.rd Reg.SLC_BLOCK_STATUS.BRK = (if scope = 3 ∧ s.rd Reg.SLC_BLOCK_STATUS.BRK = 0 then 1 else s.rd Reg.SLC_BLOCK_STATUS.BRK) ∧
        tr.slc.release = [] := ⟨e2.1, e2.2.2.2.1.trans hh.2.symm, e2.2.2.1.trans hh.1.symm, e2.2.1, e2.2.2.2.2⟩
    split
    · refine ⟨?_, ?_, ?_, ?_, ?_⟩
      · rw [blockNow_rd _ _ _ hff]; exact e.1
      · rw [blockNow_rd _ _ _ rfl]; exact e.2.1
      · rw [blockNow_rd _ _ _ rfl]; exact e.2.2.1
      · rw [blockNow_rd _ _ _ rfl]; exact e.2.2.2.1
      · rw [blockNow_release]; exact e.2.2.2.2
    · exact e
  · have e3 : s3.rd f = (s.rd f ||| m) % 2 ^ f.w ∧
      s3.rd Reg.SLC_BLOCK_STATUS.BRK = (if scope = 3 ∧ s.rd Reg.SLC_BLOCK_STATUS.BRK = 0 then 1 else s.rd Reg.SLC_BLOCK_STATUS.BRK) ∧
      s3.rd Reg.SLC_BLOCK_STATUS.SCOPE = sc' ∧ s3.rd Reg.SLC_BLOCK_STATUS.PHASES = ph' ∧ s3.slc.release = [] := by
      simp only [s3, inc, inci, wr_def, rd_def]
      refine ⟨?_, ?_, ?_, ?_, ?_⟩
      · rw [rdi_wri_apart _ _ _ _ hfa.2.2.2, rdi_wri_apart _ _ _ _ hfa.1, rdi_wri_apart _ _ _ _ hfa.2.1]; exact e2.1
      · rw [rdi_wri_apart _ _ _ _ rfl, rdi_wri_apart _ _ _ _ rfl, rdi_wri_apart _ _ _ _ rfl]; exact e2.2.1
      · rw [rdi_wri_apart _ _ _ _ rfl, rdi_wri_apart _ _ _ _ rfl, rdi_wri_self _ _ (by decide)]; exact Nat.mod_eq_of_lt hns
      · rw [rdi_wri_apart _ _ _ _ rfl, rdi_wri_self _ _ (by decide)]; exact Nat.mod_eq_of_lt hnp
      · simp only [wri_slc]; exact e2.2.2.2.2
    clear_value s3
    have e4 : (∀ g, fr 0x1002400000000000 g = true → s4.rd g = s3.rd g) ∧ s4.slc.release = s3.slc.release := by
      simp only [s4]; split
      · exact ⟨fun g _ => rfl, rfl⟩
      · exact ⟨fun g h => blockNow_rd _ _ _ h, blockNow_release ..⟩
    clear_value s4
    have k := (Only.refl 0x1100100000000200 s4).post 0x40 [(24, 1, (sc' : Int)), (25, 1, (ph' : Int)), (28, 4, (s4.firstWord : Int)), (32, 4, (s4.rd Reg.SLC_FIRST_TIME.TIME : Int))] rfl
    refine ⟨?_, ?_, ?_, ?_, ?_⟩
    · rw [k.rd f hfr.2.2.2, e4.1 f hff, e3.1]
    · rw [k.rd _ rfl, e4.1 _ rfl, e3.2.2.2.1]; rfl
    · rw [k.rd _ rfl, e4.1 _ rfl, e3.2.2.1]; rfl
    · rw [k.rd _ rfl, e4.1 _ rfl, e3.2.1]
    · rw [k.slc rfl, e4.2, e3.2.2.2.2]

/-- /BK/ of a phase mask goes out three times back to back on both loops of every enabled ring (R286). -/
theorem sendBk_out (ph : Nat) : (s.sendBk ph).out = s.out ++ s.ringsOn.flatMap (fun r =>
    [.link r 0 (thrice (bkCodes (bkValue ph))), .link r 1 (thrice (bkCodes (bkValue ph)))]) := by
  have key : ∀ (l : List Nat) (u : State), (l.foldl (fun s r => s.sendOrder r (bkCodes (bkValue ph))) u).out =
      u.out ++ l.flatMap (fun r => [.link r 0 (thrice (bkCodes (bkValue ph))), .link r 1 (thrice (bkCodes (bkValue ph)))]) := by
    intro l; induction l with
    | nil => intro u; simp
    | cons x t ih => intro u; rw [List.foldl_cons, ih]; simp [sendOrder, emit]
  exact key _ _

/-- A scope that changes what is blocked, at once: every cell of its phases is blocked, and /BK/ of the phases goes out on
every enabled ring (R286, R287, R391). -/
theorem actScope_blocks (f : Fld) (m scope phases : Nat) (hf : f ∈ latchFields)
    (hn : ¬(newScope scope phases (s.rd Reg.SLC_BLOCK_STATUS.SCOPE) (s.rd Reg.SLC_BLOCK_STATUS.PHASES) = s.rd Reg.SLC_BLOCK_STATUS.SCOPE ∧
      newPhases scope phases (s.rd Reg.SLC_BLOCK_STATUS.PHASES) = s.rd Reg.SLC_BLOCK_STATUS.PHASES)) :
    let t := s.actScope f m scope phases false
    let ph := newPhases scope phases (s.rd Reg.SLC_BLOCK_STATUS.PHASES)
    (∀ c, s.cells.any (fun kv => kv.1 == c) = true → bitOf ph (s.phaseOf c) = true → (t.cell c).svc.blk = true) ∧
    (∀ r ∈ s.ringsOn, ∀ l < 2, Out.link r l (thrice (bkCodes (bkValue ph))) ∈ t.out) := by
  intro t ph0
  simp only [t]
  unfold actScope
  extract_lets sc ph s1 ph' sc' x0 x1 s2 tr s3 x4 s4
  rw [if_neg (show ¬(sc' = sc ∧ ph' = ph) from hn)]
  have k1 : Only 0x1940500120000200 s s1 :=
    Only.captureEvent (Only.cancelRelease (Only.latch (Only.refl _ _) _ _ rfl hf) rfl) _ rfl
  have k2 : Only 0x1940500120000200 s1 s2 :=
    Only.ite (Only.set_slc (Only.showBrk (Only.wr (Only.refl _ _) _ _ rfl rfl) rfl) _ rfl) (Only.refl _ _)
  have k2 : Only 0x1940500120000200 s1 tr := Only.ite (Only.emit k2 _ rfl) k2
  have k3 : Only 0x1940500120000200 tr s3 := Only.inc (Only.wr (Only.wr (Only.refl _ _) _ _ rfl rfl) _ _ rfl rfl) _ _ rfl rfl
  clear_value s1 s2 tr s3
  have kk := (k1.trans k2).trans k3
  have hc : ∀ c, s3.phaseOf c = s.phaseOf c := fun c => kk.rdi _ _ rfl
  have hr : s3.ringsOn = s.ringsOn := by
    unfold ringsOn; refine List.filter_congr fun r _ => ?_
    unfold ringOn ringCount small; rw [kk.rd _ rfl, kk.rd _ rfl]
  have h4 : s4 = s3.blockNow ph' := if_neg (by decide)
  rw [h4]
  refine ⟨fun c hk hb => ?_, fun r hr' l hl => ?_⟩
  · rw [show (post _ _ _).cell c = ((s3.sendBk ph').blockPhases ph').cell c from by unfold cell; rw [(post_only ..).cells rfl]; rfl]
    refine blockPhases_cells _ _ _ ?_ ?_
    · rw [(sendBk_only ..).cells rfl, kk.cells rfl]; exact hk
    · rw [show (s3.sendBk ph').phaseOf c = s3.phaseOf c from (sendBk_only ..).rdi _ _ rfl, hc]; exact hb
  · refine (post_out ..).subset ?_
    rw [show (s3.blockNow ph').out = (s3.sendBk ph').out from (blockPhases_only ..).out rfl, sendBk_out, hr]
    refine List.mem_append_right _ (List.mem_flatMap.mpr ⟨r, hr', ?_⟩)
    have : l = 0 ∨ l = 1 := by omega
    rcases this with rfl | rfl
    · exact .head _
    · exact .tail _ (.head _)

/-- A scheduled source leaves the cells and marks the phases for the next boundary (R394). -/
theorem actScope_later (f : Fld) (m scope phases : Nat) (hf : f ∈ latchFields)
    (hn : ¬(newScope scope phases (s.rd Reg.SLC_BLOCK_STATUS.SCOPE) (s.rd Reg.SLC_BLOCK_STATUS.PHASES) = s.rd Reg.SLC_BLOCK_STATUS.SCOPE ∧
      newPhases scope phases (s.rd Reg.SLC_BLOCK_STATUS.PHASES) = s.rd Reg.SLC_BLOCK_STATUS.PHASES)) :
    let t := s.actScope f m scope phases true
    let ph := newPhases scope phases (s.rd Reg.SLC_BLOCK_STATUS.PHASES)
    t.cells = s.cells ∧ t.slc.blkPend = [bitOf ph 0, bitOf ph 1, bitOf ph 2] := by
  intro t ph0
  simp only [t]
  unfold actScope
  extract_lets sc ph s1 ph' sc' x0 x1 s2 tr s3 x4 s4
  rw [if_neg (show ¬(sc' = sc ∧ ph' = ph) from hn)]
  have k1 : Only 0x1940500120000200 s s1 :=
    Only.captureEvent (Only.cancelRelease (Only.latch (Only.refl _ _) _ _ rfl hf) rfl) _ rfl
  have k2 : Only 0x1940500120000200 s1 s2 :=
    Only.ite (Only.set_slc (Only.showBrk (Only.wr (Only.refl _ _) _ _ rfl rfl) rfl) _ rfl) (Only.refl _ _)
  have k2 : Only 0x1940500120000200 s1 tr := Only.ite (Only.emit k2 _ rfl) k2
  have k3 : Only 0x1940500120000200 tr s3 := Only.inc (Only.wr (Only.wr (Only.refl _ _) _ _ rfl rfl) _ _ rfl rfl) _ _ rfl rfl
  have kk := (k1.trans k2).trans k3
  rw [(post_only ..).cells rfl, (post_only ..).slc rfl]
  exact ⟨kk.cells rfl, rfl⟩

theorem complete_seqNo (d st det res) : (s.complete d st det res).hst.seqNo = s.hst.seqNo := by
  unfold complete; split <;> rfl

theorem completes_seqNo (l : List Desc) (f : State → Desc → State) (hf : ∀ u d, (f u d).hst.seqNo = u.hst.seqNo) :
    (l.foldl f s).hst.seqNo = s.hst.seqNo := by
  induction l generalizing s with
  | nil => rfl
  | cons x t ih => rw [List.foldl_cons, ih, hf]

theorem cancelRelease_seqNo : s.hst.seqNo ≤ s.cancelRelease.hst.seqNo := by
  unfold cancelRelease
  split
  · exact Nat.le_refl _
  · extract_lets l x s2
    refine Nat.le_of_lt (Nat.lt_of_le_of_lt (Nat.le_of_eq ?_) (noticeOpen_seqNo ..))
    exact (completes_seqNo s2 l _ (fun u d => complete_seqNo u d _ _ _)).symm

/-- Acting with a scope takes back no sequence number. -/
theorem actScope_seqNo (f : Fld) (m scope phases : Nat) (sched : Bool) (hf : f ∈ latchFields) :
    s.hst.seqNo ≤ (s.actScope f m scope phases sched).hst.seqNo := by
  unfold actScope
  extract_lets sc ph s1 ph' sc' x0 x1 s2 tr s3 x4 s4
  have k1 : s.hst.seqNo ≤ s1.hst.seqNo := by
    simp only [s1, captureEvent_hst]
    exact Nat.le_trans (Nat.le_of_eq (by rw [(latch_only _ f m hf).hst rfl])) (cancelRelease_seqNo _)
  have k2 : s2.hst = s1.hst := by
    simp only [s2]; split
    · show x0.hst = _; simp only [x0, showBrk_hst, wr_hst]
    · rfl
  replace k2 : tr.hst = s1.hst := by
    simp only [tr]; split
    · rw [emit_hst, k2]
    · exact k2
  have k3 : s3.hst = tr.hst := by simp only [s3, inc_hst, wr_hst]
  have k4 : s4.hst = s3.hst := by
    simp only [s4]; split
    · rfl
    · rw [blockNow_hst]
  clear_value s1 s2 tr s3 s4
  split
  · split
    · rw [blockNow_hst, k2]; exact k1
    · rw [k2]; exact k1
  · refine Nat.le_trans ?_ (Nat.le_of_lt (post_seqNo ..))
    rw [k4, k3, k2]; exact k1

theorem complete_epoch (d st det res) : (s.complete d st det res).hst.epoch = s.hst.epoch := by
  unfold complete; split <;> rfl

theorem completes_epoch (l : List Desc) (f : State → Desc → State) (hf : ∀ u d, (f u d).hst.epoch = u.hst.epoch) :
    (l.foldl f s).hst.epoch = s.hst.epoch := by
  induction l generalizing s with
  | nil => rfl
  | cons x t ih => rw [List.foldl_cons, ih, hf]

theorem cancelRelease_epoch : s.cancelRelease.hst.epoch = s.hst.epoch := by
  unfold cancelRelease
  split
  · rfl
  · extract_lets l x s2
    refine (post_kept ..).epoch.trans ?_
    exact completes_epoch s2 l _ (fun u d => complete_epoch u d _ _ _)

/-- Acting with a scope leaves every ring's epoch, so a descriptor that acts still completes (R492). -/
theorem actScope_epoch (f : Fld) (m scope phases : Nat) (sched : Bool) (hf : f ∈ latchFields) :
    (s.actScope f m scope phases sched).hst.epoch = s.hst.epoch := by
  unfold actScope
  extract_lets sc ph s1 ph' sc' x0 x1 s2 tr s3 x4 s4
  have k1 : s1.hst.epoch = s.hst.epoch := by
    simp only [s1, captureEvent_hst]
    exact (cancelRelease_epoch _).trans (by rw [(latch_only _ f m hf).hst rfl])
  have k2 : s2.hst = s1.hst := by
    simp only [s2]; split
    · show x0.hst = _; simp only [x0, showBrk_hst, wr_hst]
    · rfl
  replace k2 : tr.hst = s1.hst := by
    simp only [tr]; split
    · rw [emit_hst, k2]
    · exact k2
  have k3 : s3.hst = tr.hst := by simp only [s3, inc_hst, wr_hst]
  have k4 : s4.hst = s3.hst := by
    simp only [s4]; split
    · rfl
    · rw [blockNow_hst]
  clear_value s1 s2 tr s3 s4
  split
  · split
    · rw [blockNow_hst, k2]; exact k1
    · rw [k2]; exact k1
  · refine (post_kept ..).epoch.trans ?_
    rw [k4, k3, k2]; exact k1

end State
end Sys2Proof.Machine
end

