-- ==== Sys2Proof/Laws/Join.lean ====
section
/-! SUPPORT. What entering a service state and ending a service action do to a cell (R307, R309, R505). -/
set_option Elab.async false
namespace Sys2Proof.Machine
open Reg

namespace State
/-- What entering a service state leaves: the state read back, the other cells, the link part; an Absent state sets HOLD and
weight 0 (R307, R309). -/
theorem enter_spec (s : State) (c : Fin 240) (st : Nat) (hst : st < 16) : let t := s.enter c st
    t.sstate c = st ∧ (∀ d, d ≠ c.val → t.cell d = s.cell d ∧ t.sstate d = s.sstate d) ∧ (t.cell c).link = (s.cell c).link ∧ Only 0x200000000c000 s t ∧
    ((st = 7 ∨ st = 8 ∨ st = 9) → t.biti JOIN_CELL_STATUS_n.HOLD c = true ∧ (t.cell c).svc.weight = 0) := by
  have o : Only 0x200000000c000 s (s.enter c st) := Only.enter (Only.refl _ _) _ _ rfl
  intro t
  simp only [t]
  have o' : Only 0x200000000c000 s (s.enter c st) := o
  unfold State.enter
  extract_lets s1 s2
  replace o : Only 0x200000000c000 s s2.joinCounts := o'
  have j : Only 0x4000 s2 s2.joinCounts := Only.joinCounts (Only.refl _ _) rfl
  have e1 : s1.sstate c = st ∧ (∀ d, d ≠ c.val → s1.cell d = s.cell d ∧ s1.sstate d = s.sstate d) ∧
      (s1.cell c).link = (s.cell c).link := by
    simp only [s1, State.sstate, State.askEnter]
    refine ⟨?_, fun d hd => ⟨?_, State.rdi_wri_entry _ _ (Ne.symm hd)⟩, ?_⟩
    · exact (State.rdi_wri_self _ _ (by exact c.isLt)).trans (Nat.mod_eq_of_lt hst)
    · rw [State.cell_updCell_ne _ _ (Ne.symm hd), State.wri_cell]
    · rw [State.cell_updCell_self, State.wri_cell]
  have e2 : s2.sstate c = st ∧ (∀ d, d ≠ c.val → s2.cell d = s.cell d ∧ s2.sstate d = s.sstate d) ∧ (s2.cell c).link = (s.cell c).link ∧
    ((st = 7 ∨ st = 8 ∨ st = 9) → s2.biti JOIN_CELL_STATUS_n.HOLD c = true ∧ (s2.cell c).svc.weight = 0) := by
    have hu : ∀ (w : State) g d, (w.updCell c g).sstate d = w.sstate d := fun w g d => rfl
    clear_value s1
    simp only [s2]
    split
    · refine ⟨?_, fun d hd => ⟨?_, ?_⟩, ?_, fun _ => ⟨?_, ?_⟩⟩
      · rw [hu]; exact (State.rdi_wri_apart _ _ _ _ rfl).trans e1.1
      · rw [State.cell_updCell_ne _ _ (Ne.symm hd), State.wri_cell]; exact (e1.2.1 d hd).1
      · rw [hu]; exact (State.rdi_wri_apart _ _ _ _ rfl).trans (e1.2.1 d hd).2
      · rw [State.cell_updCell_self, State.wri_cell]; exact e1.2.2
      · show ((s1.wri JOIN_CELL_STATUS_n.HOLD c 1).rdi JOIN_CELL_STATUS_n.HOLD c == 1) = true
        rw [State.rdi_wri_self _ _ (by exact c.isLt)]; rfl
      · rw [State.cell_updCell_self]
    · rename_i hne
      have one : ∀ g : Cell → Cell, (∀ x, (g x).link = x.link) → (s1.updCell c g).sstate c = st ∧
          (∀ d, d ≠ c.val → (s1.updCell c g).cell d = s.cell d ∧ (s1.updCell c g).sstate d = s.sstate d) ∧
          ((s1.updCell c g).cell c).link = (s.cell c).link ∧ ((st = 7 ∨ st = 8 ∨ st = 9) →
            (s1.updCell c g).biti JOIN_CELL_STATUS_n.HOLD c = true ∧ ((s1.updCell c g).cell c).svc.weight = 0) := fun g hg =>
        ⟨by rw [hu]; exact e1.1, fun d hd => ⟨by rw [State.cell_updCell_ne _ _ (Ne.symm hd)]; exact (e1.2.1 d hd).1,
          by rw [hu]; exact (e1.2.1 d hd).2⟩, by rw [State.cell_updCell_self, hg]; exact e1.2.2, fun hx => absurd hx hne⟩
      split
      · exact one _ fun _ => rfl
      · split
        · exact one _ fun _ => rfl
        · exact ⟨e1.1, e1.2.1, e1.2.2, fun hx => absurd hx hne⟩
  clear_value s2
  have jc : ∀ d, (s2.joinCounts).cell d = s2.cell d := fun d => by unfold State.cell; rw [j.cells rfl]
  refine ⟨?_, fun d hd => ⟨?_, ?_⟩, ?_, o, fun hx => ⟨?_, ?_⟩⟩
  · unfold State.sstate; rw [j.rdi _ _ rfl]; exact e2.1
  · rw [jc]; exact (e2.2.1 d hd).1
  · unfold State.sstate; rw [j.rdi _ _ rfl]; exact (e2.2.1 d hd).2
  · rw [jc]; exact e2.2.2.1
  · unfold State.biti; rw [j.rdi _ _ rfl]; exact (e2.2.2.2 hx).1
  · rw [jc]; exact (e2.2.2.2 hx).2
/-- Ending a service action leaves the registers, the link part and the weight of the cell, and the other cells. -/
theorem endService_spec (s : State) (c a st fw : Nat) : let t := s.endService c a st fw
    t.regs = s.regs ∧ t.hst.seqNo = s.hst.seqNo ∧ (t.cell c).svc.weight = (s.cell c).svc.weight ∧ (t.cell c).link = (s.cell c).link ∧ (∀ d, d ≠ c → t.cell d = s.cell d) := by
  unfold State.endService
  extract_lets ended s1
  have k : ∀ (l : List (Nat × Desc)) (u : State), (l.foldl (fun s x => s.complete x.2 st 0 [(32, 1, (s.sstate c : Int)), (33, 1, (s.rdi JOIN_CELL_STATUS_n.FAIL c : Int)), (34, 1, (fw : Int))]) u).regs = u.regs ∧
     (l.foldl (fun s x => s.complete x.2 st 0 [(32, 1, (s.sstate c : Int)), (33, 1, (s.rdi JOIN_CELL_STATUS_n.FAIL c : Int)), (34, 1, (fw : Int))]) u).hst.seqNo = u.hst.seqNo ∧
     (l.foldl (fun s x => s.complete x.2 st 0 [(32, 1, (s.sstate c : Int)), (33, 1, (s.rdi JOIN_CELL_STATUS_n.FAIL c : Int)), (34, 1, (fw : Int))]) u).cells = u.cells := by
    intro l; induction l with
    | nil => intro u; exact ⟨rfl, rfl, rfl⟩
    | cons x t ih =>
      intro u
      rw [List.foldl_cons]
      have := ih (u.complete x.2 st 0 [(32, 1, (u.sstate c : Int)), (33, 1, (u.rdi JOIN_CELL_STATUS_n.FAIL c : Int)), (34, 1, (fw : Int))])
      refine ⟨this.1.trans ?_, this.2.1.trans (State.complete_seqNo ..), this.2.2.trans ?_⟩
      · unfold State.complete; split <;> rfl
      · exact (State.complete_only ..).cells rfl
  have kk := k ended s1
  have hc : ∀ d, (ended.foldl (fun s x => s.complete x.2 st 0 [(32, 1, (s.sstate c : Int)), (33, 1, (s.rdi JOIN_CELL_STATUS_n.FAIL c : Int)), (34, 1, (fw : Int))]) s1).cell d = s1.cell d := fun d => by
    unfold State.cell; rw [kk.2.2]
  have di : (s.dropImage c a).regs = s.regs ∧ (s.dropImage c a).hst.seqNo = s.hst.seqNo ∧ (s.dropImage c a).cells = s.cells := by
    unfold State.dropImage; split <;> exact ⟨rfl, rfl, rfl⟩
  have dc : ∀ d, (s.dropImage c a).cell d = s.cell d := fun d => by unfold State.cell; rw [di.2.2]
  refine ⟨kk.1.trans di.1, kk.2.1.trans di.2.1, ?_, ?_, fun d hd => ?_⟩
  · rw [hc]; simp only [s1]; rw [State.cell_updCell_self, dc]
  · rw [hc]; simp only [s1]; rw [State.cell_updCell_self, dc]
  · rw [hc]; simp only [s1]; rw [State.cell_updCell_ne _ _ (Ne.symm hd), dc]
/-- A cell loss takes back no sequence number. -/
theorem cellLoss_seqNo (s : State) (c) : s.hst.seqNo ≤ (s.cellLoss c).hst.seqNo := by
  unfold State.cellLoss
  extract_lets st s1 w x s2
  split
  · exact Nat.le_refl _
  · have h2 : s2.hst = s.hst := by show s1.hst = s.hst; simp only [s1, State.inc_hst]; rfl
    clear_value s2
    rw [← h2]
    split
    · exact State.actScope_seqNo _ _ _ _ _ _ (by decide)
    · split
      · exact State.actScope_seqNo _ _ _ _ _ _ (by decide)
      · exact Nat.le_refl _

end State
end Sys2Proof.Machine
end

