-- ==== Sys2Proof/Laws/Link.lean ====
section
/-! SUPPORT. What the handling of telemetry, AUX words and joins leaves of a cell's telemetry (R271, R279, R325, R326): once a
slot is taken in, nothing done for it or for another cell changes the telemetry, the rank of its copy or the missing count. -/
set_option Elab.async false
namespace Sys2Proof.Machine
open Reg

/-- The telemetry of cell `c`, its rank and its missing count are as they were. -/
def KeepT (c : Nat) (a b : State) : Prop :=
  (b.cell c).link.tel = (a.cell c).link.tel ∧ (b.cell c).link.rank = (a.cell c).link.rank ∧
  (b.cell c).link.missing = (a.cell c).link.missing

namespace KeepT
variable {c : Nat} {a b : State}

theorem refl (c : Nat) (a : State) : KeepT c a a := ⟨rfl, rfl, rfl⟩
theorem of_cells {u : State} (h : KeepT c a b) (e : u.cells = b.cells) : KeepT c a u := by
  unfold KeepT State.cell at *; rw [e]; exact h
theorem ite' {p : Prop} [Decidable p] {x y : State} (hx : KeepT c a x) (hy : KeepT c a y) : KeepT c a (if p then x else y) := by
  split <;> assumption
theorem upd (h : KeepT c a b) (d : Nat) (g : Cell → Cell)
    (hg : d = c → ∀ x, (g x).link.tel = x.link.tel ∧ (g x).link.rank = x.link.rank ∧ (g x).link.missing = x.link.missing) :
    KeepT c a (b.updCell d g) := by
  by_cases hd : d = c
  · subst hd; unfold KeepT; rw [State.cell_updCell_self]
    exact ⟨(hg rfl _).1.trans h.1, (hg rfl _).2.1.trans h.2.1, (hg rfl _).2.2.trans h.2.2⟩
  · unfold KeepT; rw [State.cell_updCell_ne _ _ hd]; exact h
theorem updMtr (h : KeepT c a b) (d g) : KeepT c a (b.updMtr d g) := by
  unfold State.updMtr; exact upd h _ _ (by intros; exact ⟨rfl, rfl, rfl⟩)
theorem portFlag (h : KeepT c a b) (d k) : KeepT c a (b.portFlag d k) := by unfold State.portFlag; exact updMtr h ..
theorem flagLater (h : KeepT c a b) (k d x) : KeepT c a (b.meterFlagLater k d x) := of_cells h rfl
theorem wri (h : KeepT c a b) (f i v) : KeepT c a (b.wri f i v) := h.of_cells (State.wri_cells ..)
theorem askEnter (h : KeepT c a b) (d st) : KeepT c a (b.askEnter d st) := by
  unfold State.askEnter; exact upd h _ _ (by intros; exact ⟨rfl, rfl, rfl⟩)
theorem failJoin (h : KeepT c a b) (d k) : KeepT c a (b.failJoin d k) := by
  unfold State.failJoin; exact ite' (askEnter h ..) h
theorem enter (h : KeepT c a b) (d st) : KeepT c a (b.enter d st) := by
  unfold State.enter
  extract_lets s1 s2
  refine of_cells ?_ ((Only.joinCounts (M := 0x4000) (Only.refl _ s2) rfl).cells rfl)
  have h1 : KeepT c a s1 := (h.wri ..).askEnter ..
  clear_value s1
  simp only [s2]
  split
  · exact (h1.wri ..).upd _ _ (by intros; exact ⟨rfl, rfl, rfl⟩)
  · split
    · exact h1.upd _ _ (by intros; exact ⟨rfl, rfl, rfl⟩)
    · split
      · exact h1.upd _ _ (by intros; exact ⟨rfl, rfl, rfl⟩)
      · exact h1
theorem endService (h : KeepT c a b) (d k st fw) : KeepT c a (b.endService d k st fw) := by
  have e := b.endService_spec d k st fw
  by_cases hd : c = d
  · subst hd; unfold KeepT; rw [show (_ : State).cell c = _ from rfl, e.2.2.2.1]; exact h
  · unfold KeepT; rw [e.2.2.2.2 c hd]; exact h
theorem spillOn (h : KeepT c a b) (d) : KeepT c a (b.spillOn d) := by
  unfold State.spillOn; exact wri (upd h _ _ (by intros; exact ⟨rfl, rfl, rfl⟩)) ..
theorem cellEvent (h : KeepT c a b) (d r x y) : KeepT c a (b.cellEvent d r x y) :=
  of_cells h (Only.cells (State.cellEvent_only b d r x y) rfl)
theorem sendAux (h : KeepT c a b) (d ty body) : KeepT c a (b.sendAux d ty body) := by
  unfold State.sendAux; exact upd h _ _ (by intros; exact ⟨rfl, rfl, rfl⟩)
theorem startConfig (h : KeepT c a b) (d) : KeepT c a (b.startConfig d) := by
  unfold State.startConfig; exact sendAux (upd (wri h ..) _ _ (by intros; exact ⟨rfl, rfl, rfl⟩)) ..
theorem sendCfg (h : KeepT c a b) (d) : KeepT c a (b.sendCfg d) := by
  unfold State.sendCfg; split
  · exact sendAux (upd h _ _ (by intros; exact ⟨rfl, rfl, rfl⟩)) ..
  · exact failJoin h ..
theorem sendCal (h : KeepT c a b) (d) : KeepT c a (b.sendCal d) := by
  unfold State.sendCal; split
  · exact h.sendAux ..
  · exact h.failJoin ..
theorem showGap (h : KeepT c a b) : KeepT c a b.showGap := by unfold State.showGap; exact of_cells h (State.wr_cells ..)
theorem bookAcGap (h : KeepT c a b) : KeepT c a b.bookAcGap := h.of_cells (by
  unfold State.bookAcGap; split
  · rfl
  · split <;> rfl)
theorem bookGap (h : KeepT c a b) (d) : KeepT c a (b.bookGap d) := by
  unfold State.bookGap
  extract_lets m
  split
  · extract_lets e s1 s2 x s3
    have h1 : KeepT c a s1 := portFlag (updMtr h ..) ..
    clear_value s1
    have h3 : KeepT c a s3 := by
      simp only [s3]
      split
      · exact flagLater (portFlag h1 ..) ..
      · split
        · have h2 : KeepT c a s2 := flagLater (portFlag h1 ..) ..
          exact of_cells h2 rfl
        · exact h1
    exact showGap (bookAcGap h3)
  · exact h
theorem startVerify (h : KeepT c a b) (d) : KeepT c a (b.startVerify d) := by
  unfold State.startVerify; exact upd (enter h ..) _ _ (by intros; exact ⟨rfl, rfl, rfl⟩)
theorem linked (h : KeepT c a b) (d) : KeepT c a (b.linked d) := by
  unfold State.linked; exact askEnter (bookGap (wri h ..) _) ..
theorem ident (h : KeepT c a b) (d n) : KeepT c a (b.ident d n) := by
  unfold State.ident
  refine sendCfg ?_ _
  split
  · exact h
  · refine cellEvent ?_ ..
    unfold State.meterNewNode
    extract_lets s1
    have h1 : KeepT c a s1 := of_cells (upd h d (fun x => { x with svc := { x.svc with serial := some n } }) (by intros; exact ⟨rfl, rfl, rfl⟩)) rfl
    clear_value s1
    split
    · refine portFlag ?_ ..
      unfold State.dropGap
      extract_lets m p v s2 e q s3 src s4
      split
      · exact h1
      · have h2 : KeepT c a s2 := ite' h1 (h1.of_cells rfl)
        clear_value s2
        have h3 : KeepT c a s3 := updMtr h2 ..
        clear_value s3
        have h4 : KeepT c a s4 := ite' (h3.of_cells rfl) h3
        clear_value s4
        exact showGap (bookAcGap (portFlag (portFlag h4 ..) ..))
    · exact h1
theorem auxGood (h : KeepT c a b) (d ty) : KeepT c a (b.auxGood d ty) := by
  unfold State.auxGood
  extract_lets s1
  have h1 : KeepT c a s1 := upd h _ _ (by intros; exact ⟨rfl, rfl, rfl⟩)
  clear_value s1
  split
  · exact sendCal h1 _
  · split
    · exact linked h1 _
    · exact h1
theorem auxBad (h : KeepT c a b) (d) : KeepT c a (b.auxBad d) := by
  unfold State.auxBad
  extract_lets n s1
  have h1 : KeepT c a s1 := upd h _ _ (by intros; exact ⟨rfl, rfl, rfl⟩)
  clear_value s1
  split
  · exact failJoin (upd h1 _ _ (by intros; exact ⟨rfl, rfl, rfl⟩)) ..
  · exact h1
theorem auxReply (h : KeepT c a b) (d w) : KeepT c a (b.auxReply d w) := by
  unfold State.auxReply
  extract_lets n s1 ty
  split
  · exact auxBad h _
  · have h1 : KeepT c a s1 := upd h _ _ (by intros; exact ⟨rfl, rfl, rfl⟩)
    split
    · exact ident h1 ..
    · split
      · exact endService h1 ..
      · exact h1
theorem auxIn (h : KeepT c a b) (d w) : KeepT c a (b.auxIn d w) := by
  unfold State.auxIn
  extract_lets x s1 rx s2 got acked s3
  have h1 : KeepT c a s1 := upd h _ _ (by intros; exact ⟨rfl, rfl, rfl⟩)
  have h2 : KeepT c a s2 := upd h1 _ _ (by intros; exact ⟨rfl, rfl, rfl⟩)
  have h3 : KeepT c a s3 := upd h _ _ (by intros; exact ⟨rfl, rfl, rfl⟩)
  clear_value s1 s2 s3
  exact ite' (ite' (ite' (auxReply h2 ..) h2) h1) (ite' (ite' h3 (auxGood h3 ..)) (ite' (auxBad h3 _) h3))
theorem tryWake (h : KeepT c a b) (w) : KeepT c a (b.tryWake w) :=
  of_cells h (Only.cells (Only.tryWake (M := 0x1100180000000320) (Only.refl _ b) w rfl) rfl)
end KeepT

/-- Taking in a slot of cell `d` leaves the telemetry of another cell; for the cell itself a copy of no lower rank than the
one taken leaves it too, and a copy of lower rank gives it (R279). -/
theorem takeSlot_tel (s : State) (c d loop rank : Nat) (compact : Bool) (page : Nat) (w : Slot) :
    (d ≠ c ∨ (s.cell c).link.rank ≤ rank → KeepT c s (s.takeSlot d loop rank compact page w)) ∧
    (d = c → rank < (s.cell c).link.rank → compact = false →
      ((s.takeSlot d loop rank compact page w).cell c).link.tel = w ∧
      ((s.takeSlot d loop rank compact page w).cell c).link.rank = rank ∧
      ((s.takeSlot d loop rank compact page w).cell c).link.missing = 0) := by
  unfold State.takeSlot
  extract_lets x has1 s0 s1 first tel changed s3 s4 s5 s6 s7 s8 y s9 s10 s11
  have hN : ∀ {u : State} (h : KeepT c s u) (l e), KeepT c s (u.nodeErrs d l e) := by
    intro u h l e; unfold State.nodeErrs State.inci
    exact KeepT.wri (KeepT.upd h _ _ (by intros; exact ⟨rfl, rfl, rfl⟩)) ..
  have k0 : KeepT c s s0 := by
    simp only [s0]; split
    · exact hN (.refl c s) ..
    · exact .refl c s
  clear_value s0
  have k1 : KeepT c s s1 := by
    simp only [s1]; split
    · exact KeepT.upd k0 _ _ (by intros; exact ⟨rfl, rfl, rfl⟩)
    · exact k0
  clear_value s1
  have k3 : d ≠ c → KeepT c s s3 := fun hd => KeepT.upd k1 _ _ (fun h => absurd h hd)
  have e3 : d = c → (s3.cell c).link.tel = tel ∧ (s3.cell c).link.rank = rank ∧ (s3.cell c).link.missing = 0 := by
    intro hd; subst hd; simp only [s3]; rw [State.cell_updCell_self]; exact ⟨rfl, rfl, rfl⟩
  clear_value s3
  have k4 : KeepT c s3 s4 := by
    simp only [s4]; split
    · unfold State.chargeReported; split
      · exact .refl c s3
      · exact KeepT.wri (KeepT.upd (.refl c s3) _ _ (by intros; exact ⟨rfl, rfl, rfl⟩)) ..
    · exact .refl c s3
  clear_value s4
  have k8 : KeepT c s3 s8 := KeepT.wri (KeepT.wri (KeepT.wri (KeepT.wri k4 ..) ..) ..) ..
  clear_value s8
  have ky : KeepT c s3 y := KeepT.upd (KeepT.wri k8 ..) _ _ (by intros; exact ⟨rfl, rfl, rfl⟩)
  clear_value y
  have k9 : KeepT c s3 s9 := by
    simp only [s9]; split
    · split
      · exact ky.endService ..
      · exact ky
    · exact k8
  clear_value s9
  have k10 : KeepT c s3 s10 := by
    simp only [s10]; split
    · exact k9.tryWake _
    · exact k9
  clear_value s10
  have k11 : KeepT c s3 s11 := by
    simp only [s11]; split
    · exact k10.startConfig _
    · exact k10
  clear_value s11
  have kf : KeepT c s3 (if s10.asleep = true ∧ s10.lstate d ≠ 5 then s10
      else if first = true ∧ ((!compact) = true ∨ page = 3) then s11.auxIn d w else s11) := by
    split
    · exact k10
    · split
      · exact k11.auxIn ..
      · exact k11
  refine ⟨fun hd => ?_, fun hd hr hc => ?_⟩
  · split
    · exact k1
    · rename_i hx
      have hdc : d ≠ c := by
        rintro rfl
        rcases hd with h | h
        · exact h rfl
        · exact hx h
      obtain ⟨a1, a2, a3⟩ := kf
      obtain ⟨b1, b2, b3⟩ := k3 hdc
      exact ⟨a1.trans b1, a2.trans b2, a3.trans b3⟩
  · subst hd
    rw [if_neg (by simp only [x]; omega)]
    obtain ⟨a1, a2, a3⟩ := kf
    obtain ⟨b1, b2, b3⟩ := e3 rfl
    refine ⟨a1.trans (b1.trans ?_), a2.trans b2, a3.trans b3⟩
    simp only [tel, hc]; rfl

end Sys2Proof.Machine
end

