-- ==== Sys2Proof/Laws/Queue.lean ====
section
/-! SUPPORT. The result queues (R355 to R359): every operation over a queue keeps their number, and a record that is put is the
record that is found. -/
set_option Elab.async false
namespace Sys2Proof.Machine
open Reg

/-- The number of queues. -/
abbrev State.qlen (s : State) : Nat := s.adc.queues.length

namespace State
variable (s : State)

theorem setQueue_qlen (q : Nat) (x : QSt) : (s.setQueue q x).qlen = s.qlen := by
  unfold setQueue qlen; rw [wri_adc]; simp
theorem queue_setQueue_self (q : Nat) (x : QSt) (h : q < s.qlen) : (s.setQueue q x).queue q = x := by
  unfold setQueue queue; rw [wri_adc]; simp [List.getD_eq_getElem?_getD, h]
theorem queue_setQueue_ne {q r : Nat} (x : QSt) (h : q ≠ r) : (s.setQueue q x).queue r = s.queue r := by
  unfold setQueue queue; rw [wri_adc]; simp [List.getD_eq_getElem?_getD, List.getElem?_set_ne h]
theorem rdi_setQueue_apart (q : Nat) (x : QSt) {f : Fld} (i : Nat) (h : apart ADC_Q_STATUS_q.FILL f = true) :
    (s.setQueue q x).rdi f i = s.rdi f i := by
  unfold setQueue; rw [rdi_wri_apart _ _ _ _ h]; rfl
theorem wri_qlen (f i v) : (s.wri f i v).qlen = s.qlen := by unfold qlen; rw [wri_adc]
theorem qKeep_qlen (q e) : (s.qKeep q e).qlen = s.qlen := by
  unfold qKeep; extract_lets x old s1
  have h1 : s1.qlen = s.qlen := setQueue_qlen ..
  split
  · split
    · rw [wri_qlen, h1]
    · exact h1
  · exact setQueue_qlen ..
theorem qLose_qlen (q) : (s.qLose q).qlen = s.qlen := by unfold qLose inci; rw [setQueue_qlen, wri_qlen]
theorem qTake_qlen (q e) : (s.qTake q e).qlen = s.qlen := by
  unfold qTake; split
  · rfl
  · split
    · exact qLose_qlen ..
    · rw [qKeep_qlen, setQueue_qlen]
theorem qAccept_qlen (q e) : (s.qAccept q e).qlen = s.qlen := by
  unfold qAccept; extract_lets x hi s1
  have h1 : s1.qlen = s.qlen := by
    simp only [s1]; split
    · rw [qKeep_qlen, setQueue_qlen]
    · rfl
  rw [qTake_qlen, h1]
theorem qAcceptAll_qlen {g : State → State} (hg : ∀ u, (g u).qlen = u.qlen) (q at') (l : List QEnt) :
    (qAcceptAll g s q at' l).qlen = s.qlen := by
  induction l generalizing s at' with
  | nil => rfl
  | cons e t ih => rw [qAcceptAll, ih, hg, qAccept_qlen]
theorem qFlow_qlen {g : State → State} (hg : ∀ u, (g u).qlen = u.qlen) (q now) : (qFlow g s q now).qlen = s.qlen := by
  unfold qFlow; extract_lets x n rest; rw [qAcceptAll_qlen _ hg, setQueue_qlen]
theorem qPush_qlen (q e) : (s.qPush q e).qlen = s.qlen := by
  unfold qPush; extract_lets x; split
  · rfl
  · split
    · exact qLose_qlen ..
    · exact setQueue_qlen ..
theorem qArrive_qlen {g : State → State} (hg : ∀ u, (g u).qlen = u.qlen) (q now) (l : List (Nat × QEnt)) :
    (qArrive g s q now l).qlen = s.qlen := by
  induction l generalizing s with
  | nil => exact qFlow_qlen _ hg ..
  | cons e t ih => rw [qArrive, ih, qPush_qlen, qFlow_qlen _ hg]
theorem qCatch_qlen {g : State → State} (hg : ∀ u, (g u).qlen = u.qlen) (q now) : (qCatch g s q now).qlen = s.qlen := by
  unfold qCatch; extract_lets x; rw [qArrive_qlen _ hg, setQueue_qlen]
theorem adc_qlen {a b : State} (h : b.adc = a.adc) : b.qlen = a.qlen := by unfold qlen; rw [h]
theorem finishBuf_adc (b) : (s.finishBuf b).adc = s.adc := (Only.finishBuf (M := 0x100000000000) (Only.refl _ s) b rfl).adc rfl
theorem qBurst_qlen (q) : (s.qBurst q).qlen = s.qlen := by
  unfold qBurst
  split
  · rfl
  · rename_i b _
    extract_lets x n es rest s1 s2 b2
    have h1 : s1.qlen = s.qlen := adc_qlen ((Only.dmaWrite (M := 0x1000000000000000) (Only.refl _ s) b.pages (b.addr + b.filled) (es.flatMap entryBytes) rfl).adc rfl)
    have h2 : s2.qlen = s.qlen := by simp only [s2]; rw [setQueue_qlen, h1]
    split
    · exact (adc_qlen (finishBuf_adc ..)).trans h2
    · exact h2
theorem qBursts_qlen (k) (q) : (State.qBursts k s q).qlen = s.qlen := by
  induction k generalizing s with
  | zero => rfl
  | succ k ih =>
    unfold qBursts; split
    · rw [ih, qBurst_qlen]
    · rfl
theorem qClose_qlen (q) : (s.qClose q).qlen = s.qlen := by
  unfold qClose; split
  · extract_lets s1
    have h1 : s1.qlen = s.qlen := (wri_qlen ..).trans (wri_qlen ..)
    split
    · split
      · exact (adc_qlen (finishBuf_adc ..)).trans h1
      · exact h1
    · exact h1
  · rfl
theorem qAfter_qlen (q) : (qAfter q s).qlen = s.qlen := by unfold qAfter; rw [qClose_qlen, qBursts_qlen]
theorem qRun_qlen (q now) : (s.qRun q now).qlen = s.qlen := by
  unfold qRun; rw [qAfter_qlen, qCatch_qlen _ (fun u => qAfter_qlen u q)]
end State
end Sys2Proof.Machine
end

