-- ==== Sys2Proof/Laws/Time.lean ====
section
/-! SUPPORT. What moving the elapsed time leaves (R625, R629), and a stage deadline whose instant has come (R32). -/
set_option Elab.async false
namespace Sys2Proof.Machine
open Reg

theorem bits_lt (v lo w : Nat) : bits v lo w < 2 ^ w := by unfold bits; exact Nat.mod_lt _ (Nat.two_pow_pos w)
theorem bits_mod (v lo w : Nat) : bits v lo w % 2 ^ w = bits v lo w := Nat.mod_eq_of_lt (bits_lt v lo w)
theorem moveTo_sim (s : State) (e : Nat) : (s.moveTo e).tm = { s.tm with e := (s.moveTo e).tm.e, o := (s.moveTo e).tm.o } ∧ (s.moveTo e).regs = s.regs := by
  unfold State.moveTo; split
  · exact ⟨rfl, rfl⟩
  · extract_lets; split
    · exact ⟨rfl, rfl⟩
    · split <;> exact ⟨rfl, rfl⟩
theorem rdi_of_regs {s t : State} (h : t.regs = s.regs) (f i) : t.rdi f i = s.rdi f i := by unfold State.rdi; rw [h]
theorem mt_phase (s : State) (e) : (s.moveTo e).tm.phase = s.tm.phase := by rw [(moveTo_sim s e).1]
theorem mt_run (s : State) (e) : (s.moveTo e).tm.run = s.tm.run := by rw [(moveTo_sim s e).1]
theorem mt_deadline (s : State) (e n) : (s.moveTo e).deadline n = s.deadline n := by
  unfold State.deadline; rw [rdi_of_regs (moveTo_sim s e).2, (moveTo_sim s e).1]
theorem mt_halted (s : State) (e) : (s.moveTo e).halted = s.halted := by
  unfold State.halted State.bit State.rd; rw [rdi_of_regs (moveTo_sim s e).2]
theorem atD {s : State} {e n} {g : State → State} (hr : s.tm.run = true) (hp : s.tm.phase = n) (hd : s.deadline n ≤ (s.moveTo e).tm.e) :
    (s.moveTo e).atDeadline n g = { g (s.moveTo e) with tm := { (g (s.moveTo e)).tm with phase := n + 1 } } := by
  unfold State.atDeadline; rw [if_pos ⟨by rw [mt_run]; exact hr, by rw [mt_phase]; exact hp, by rw [mt_deadline]; exact hd⟩]



end Sys2Proof.Machine
end

