-- ==== Sys2Proof/Laws/Start.lean ====
section
/-! SUPPORT. What starting a descriptor leaves (R500 to R505): the descriptor that runs, the ring's counters, and the meaning
that a valid descriptor is given to. -/
set_option Elab.async false
namespace Sys2Proof.Machine
open Reg

/-- A descriptor that starts: its fields, and the registers of the ring and of HOST_STATUS aside, the state as it was. -/
theorem start_go {s : State} {h : DescHdr} {op : Nat} {d : Desc} {u : State} (e : s.startDesc h op = .go d u) :
    d = ⟨h.ring, s.rdi RING_CFG_n.CRING h.ring, s.rdi RING_STATE_n.CONS h.ring, op, h.tag, s.hst.epoch⟩ ∧
    u = (s.wri RING_STATE_n.CONS h.ring (s.rdi RING_STATE_n.CONS h.ring + 1)).flight h.ring true := by
  unfold State.startDesc at e
  extract_lets r ctr a d' at e
  split at e
  · cases e
  split at e
  · cases e
  split at e
  · cases e
  split at e
  · cases e
  split at e
  · split at e <;> cases e
  split at e
  · cases e
  split at e
  · cases e
  injection e with e1 e2
  exact ⟨e1.symm, e2.symm⟩

theorem start_only {s : State} {h : DescHdr} {op : Nat} {d : Desc} {u : State} (e : s.startDesc h op = .go d u) :
    Only 0x300 s u ∧ d.epoch = u.hst.epoch ∧ d.cring = s.rdi RING_CFG_n.CRING h.ring ∧ d.tag = h.tag ∧ d.ring = h.ring ∧
    d.opcode = op := by
  obtain ⟨rfl, rfl⟩ := start_go e
  have o : Only 0x300 s ((s.wri RING_STATE_n.CONS h.ring (s.rdi RING_STATE_n.CONS h.ring + 1)).flight h.ring true) :=
    Only.flight (Only.wri (Only.refl _ _) _ _ _ rfl) _ _ rfl
  refine ⟨o, ?_, rfl, rfl, rfl, rfl⟩
  show s.hst.epoch = _
  rw [o.hst rfl]

/-- Starting a descriptor writes CONS and INFLIGHT of its ring and IN_FLIGHT, and no other field (R492, R511). -/
theorem start_rdi {s : State} {h : DescHdr} {op : Nat} {d : Desc} {u : State} (e : s.startDesc h op = .go d u) (f : Fld) (i : Nat)
    (h1 : apart RING_STATE_n.CONS f = true) (h2 : apart RING_STATE_n.INFLIGHT f = true) (h3 : apart HOST_STATUS.IN_FLIGHT f = true) :
    u.rdi f i = s.rdi f i := by
  obtain ⟨-, rfl⟩ := start_go e
  unfold State.flight State.wr
  rw [if_pos rfl, State.rdi_wri_apart _ _ _ _ h3, State.rdi_wri_apart _ _ _ _ h2, State.rdi_wri_apart _ _ _ _ h1]

/-- A descriptor that starts runs its opcode's meaning, on a ring of its kind (R505). -/
theorem run_go {s : State} {h : DescHdr} {op : Nat} {d : Desc} {u : State} (g : Desc → State → State)
    (e : s.startDesc h op = .go d u) (ho : op ≠ 0x40) (ht : s.rdi RING_CFG_n.TYPE h.ring = 0) : s.runDesc h op g = g d u := by
  unfold State.runDesc
  rw [e]
  have hu : u.rdi RING_CFG_n.TYPE h.ring = 0 := by
    obtain ⟨-, rfl⟩ := start_go e
    unfold State.flight State.wr
    rw [if_pos rfl]
    rw [State.rdi_wri_apart _ _ _ _ rfl, State.rdi_wri_apart _ _ _ _ rfl, State.rdi_wri_apart _ _ _ _ rfl]; exact ht
  exact if_pos (.inr ⟨ho, hu⟩)

end Sys2Proof.Machine
end

