-- ==== Sys2Proof/Laws/Specs.lean ====
section
/-! SUPPORT. What the shared operations of stops, motors, the triad, descriptors and registers leave, said once for the proofs
of the statements. -/
set_option Elab.async false
set_option linter.unusedVariables false
set_option linter.all false
namespace Sys2Proof.Machine
open Reg
open State (OffDrain drainFields)

/-- what a post leaves -/
theorem postO (s : State) (ty pay) : Only 0x1100100000000200 s (s.post ty pay) := Only.post (Only.refl _ _) _ _ rfl
theorem noticeO (s : State) (c) : Only 0x1900100000000200 s (s.noticeOpen c) := Only.noticeOpen (Only.refl _ _) _ rfl
theorem cfgrefO (s : State) (a b c) : Only 0x1100100000000200 s (s.configRefused a b c) := Only.configRefused (Only.refl _ _) _ _ _ rfl
theorem or1 (x : Nat) : (x ||| 1) % 2 ^ 1 = 1 := by
  have : ((x ||| 1) % 2 ^ 1) < 2 := Nat.mod_lt _ (by decide)
  have h : (x ||| 1).testBit 0 = true := by rw [Nat.testBit_or]; simp
  have h2 : (x ||| 1) % 2 = 1 := by simpa only [Nat.testBit_zero, decide_eq_true_eq] using h
  exact h2
theorem or7 (x : Nat) (h : x < 8) : x ||| 7 = 7 := by
  have : x = 0 ∨ x = 1 ∨ x = 2 ∨ x = 3 ∨ x = 4 ∨ x = 5 ∨ x = 6 ∨ x = 7 := by omega
  rcases this with h | h | h | h | h | h | h | h <;> subst h <;> rfl
theorem np7 (sc ph : Nat) (h : ph < 8) : newPhases sc 7 ph = 7 := by unfold newPhases; split; exact or7 _ h; rfl
theorem ns7 (a sc ph : Nat) (h : ph < 8) : newScope a 7 sc ph = if a = 3 ∨ sc = 3 then 3 else 2 := by unfold newScope; rw [np7 _ _ h]; rfl
theorem bit7 (p : Nat) (h : p < 3) : bitOf 7 p = true := by
  have : p = 0 ∨ p = 1 ∨ p = 2 := by omega
  rcases this with h | h | h <;> subst h <;> rfl
theorem stop_spec (s : State) (f : Fld) (a : Nat) (hf : f ∈ latchFields) (hw : f.w = 1) (hp : s.rd SLC_BLOCK_STATUS.PHASES < 8) : let t := s.actScope f 1 a 7 false
    t.rd f = 1 ∧ t.rd SLC_BLOCK_STATUS.PHASES = 7 ∧ t.rd SLC_BLOCK_STATUS.SCOPE = (if a = 3 ∨ s.rd SLC_BLOCK_STATUS.SCOPE = 3 then 3 else 2) ∧
    t.rd SLC_BLOCK_STATUS.BRK = (if a = 3 ∧ s.rd SLC_BLOCK_STATUS.BRK = 0 then 1 else s.rd SLC_BLOCK_STATUS.BRK) ∧ t.slc.release = [] := by
  have k := State.actScope_spec s f 1 a 7 false hf (by decide) hp
  refine ⟨k.1.trans ?_, k.2.1.trans (np7 _ _ hp), k.2.2.1.trans (ns7 _ _ _ hp), k.2.2.2.1, k.2.2.2.2⟩
  rw [hw]; exact or1 _
theorem ringsOn_mv (s u : State) (h : u.regs = s.regs) : u.ringsOn = s.ringsOn := by
  unfold State.ringsOn State.ringOn State.ringCount State.small State.rd; simp only [rdi_of_regs h]
theorem cmp_regs (w : State) (a b k l) : (w.complete a b k l).regs = w.regs := by unfold State.complete; split <;> rfl
theorem cmp_slc (w : State) (a b k l) : (w.complete a b k l).slc = w.slc := by unfold State.complete; split <;> rfl
theorem desc_end (w : State) (d : Desc) (st k l) (tag : Nat) (ht : d.tag = tag) (he : d.epoch = w.hst.epoch) : ∃ x ∈ (w.complete d st k l).hst.comps, x.status = st ∧ x.tag = tag := by
  rw [State.complete_comps _ _ _ _ _ he]
  exact ⟨_, List.mem_append_right _ (List.mem_singleton.mpr rfl), rfl, ht⟩
theorem begin_op {s u : State} {h : DescHdr} {d : Desc} {e op : Nat} (hh : (s.moveTo e).startDesc h op = .go d u) : (∀ f i, fr 0x300 f = true → u.rdi f i = s.rdi f i) ∧
     u.slc = s.slc ∧ u.hst = s.hst ∧ u.tm.e = (s.moveTo e).tm.e ∧ d.epoch = s.hst.epoch ∧ d.tag = h.tag := by
  obtain ⟨o, o1, o2, o3, o4⟩ := start_only hh
  have m1 := moveTo_sim s e
  have mo := State.moveTo_only s e
  have e1 : u.hst = s.hst := (o.hst rfl).trans (mo.hst rfl)
  exact ⟨fun f i hf => (o.rdi f i hf).trans (rdi_of_regs m1.2 f i), (o.slc rfl).trans (mo.slc rfl), e1, congrArg _ (o.tm rfl), by rw [← e1]; exact o1, o3⟩
theorem begin_op0 {s u : State} {h : DescHdr} {d : Desc} {op : Nat} (hh : s.startDesc h op = .go d u) : Only 0x300 s u ∧ (∀ f i, fr 0x300 f = true → u.rdi f i = s.rdi f i) ∧
     u.hst = s.hst ∧ d.epoch = s.hst.epoch ∧ d.tag = h.tag := by
  obtain ⟨o, o1, o2, o3, o4⟩ := start_only hh
  have e1 : u.hst = s.hst := o.hst rfl
  exact ⟨o, fun f i hf => o.rdi f i hf, e1, by rw [← e1]; exact o1, o3⟩
theorem ty_mv {s : State} {e r : Nat} (ht : s.rdi RING_CFG_n.TYPE r = 0) : (s.moveTo e).rdi RING_CFG_n.TYPE r = 0 := (rdi_of_regs (moveTo_sim s e).2 _ _).trans ht
theorem cmp_rd (w : State) (d : Desc) (a b l) (f : Fld) : (w.complete d a b l).rd f = w.rd f := rdi_of_regs (cmp_regs ..) f 0
theorem cmp_rdi (w : State) (d : Desc) (a b l) (f : Fld) (i) : (w.complete d a b l).rdi f i = w.rdi f i := rdi_of_regs (cmp_regs ..) f i
/-- What an entry into OFF or FAULT leaves: state, code, no cap; nothing put outside is taken back (R588, R591). -/
theorem auxEnter_spec (s : State) (m st code arg : Nat) (hm : m < 2) (hs : st < 8) : (s.auxEnter m st code arg).astate m = st ∧
    (s.auxEnter m st code arg).rdi AUX_STATUS_m.CODE m = code % 2 ^ AUX_STATUS_m.CODE.w ∧
    (s.auxEnter m st code arg).rdi AUX_STATUS_m.CAP m = 0 := by
  unfold State.auxEnter State.auxPost
  extract_lets s1 s2
  have p := fun (w : State) pay => postO w 0x61 pay
  have k : s1.rdi AUX_STATUS_m.STATE m = st ∧ s1.rdi AUX_STATUS_m.CAP m = 0 := by
    simp only [s1]; rw [State.rdi_wri_apart _ _ _ _ rfl, State.rdi_wri_self _ _ hm, State.rdi_wri_self _ _ hm]
    exact ⟨Nat.mod_eq_of_lt hs, rfl⟩
  have r2 : s2.regs = s1.regs := rfl
  clear_value s1
  unfold State.astate
  refine ⟨?_, ?_, ?_⟩
  · rw [(p _ _).rdi _ _ rfl, State.rdi_wri_apart _ _ _ _ rfl]; exact (rdi_of_regs r2 _ _).trans k.1
  · rw [(p _ _).rdi _ _ rfl, State.rdi_wri_self _ _ hm]
  · rw [(p _ _).rdi _ _ rfl, State.rdi_wri_apart _ _ _ _ rfl]; exact (rdi_of_regs r2 _ _).trans k.2
theorem auxEnter_out (s : State) (m st code arg) : s.out <+: (s.auxEnter m st code arg).out := by
  unfold State.auxEnter State.auxPost
  refine List.IsPrefix.trans ?_ (State.post_out ..)
  rw [State.wri_out]
  show s.out <+: ((s.wri _ _ _).wri _ _ _).out
  rw [State.wri_out, State.wri_out]
theorem auxEnter_seqNo (s : State) (m st code arg) : s.hst.seqNo ≤ (s.auxEnter m st code arg).hst.seqNo := by
  unfold State.auxEnter State.auxPost
  refine Nat.le_trans (Nat.le_of_eq ?_) (Nat.le_of_lt (State.post_seqNo ..))
  rw [State.wri_hst]
  show s.hst.seqNo = ((s.wri _ _ _).wri _ _ _).hst.seqNo
  rw [State.wri_hst, State.wri_hst]
theorem down_spec (s : State) (m st code arg : Nat) (hm : m < 2) (hs : st < 8) : (s.auxDown m st code arg).astate m = st ∧
    (s.auxDown m st code arg).rdi AUX_STATUS_m.CODE m = code % 2 ^ AUX_STATUS_m.CODE.w ∧ (s.auxDown m st code arg).rdi AUX_STATUS_m.CAP m = 0 ∧
    Out.driveOff m ∈ (s.auxDown m st code arg).out := by
  have k := auxEnter_spec (s.emit (.driveOff m)) m st code arg hm hs
  exact ⟨k.1, k.2.1, k.2.2, (auxEnter_out ..).subset (List.mem_append_right _ (List.mem_singleton.mpr rfl))⟩
theorem State.auxDown_out (s : State) (m st code arg) : s.out <+: (s.auxDown m st code arg).out := by
  have h : s.out <+: (s.emit (.driveOff m)).out := List.prefix_append _ _
  exact h.trans (auxEnter_out ..)
theorem auxDown_seqNo (s : State) (m st code arg) : s.hst.seqNo ≤ (s.auxDown m st code arg).hst.seqNo := by
  have h := auxEnter_seqNo (s.emit (.driveOff m)) m st code arg
  rw [State.emit_hst] at h; exact h
theorem tripOff_seqNo (s : State) (m) : s.hst.seqNo ≤ (s.tripOff m).hst.seqNo := by
  unfold State.tripOff; extract_lets u; split
  · exact Nat.le_refl _
  · exact auxDown_seqNo u ..
theorem driveOff_seqNo (s : State) (a b) : s.hst.seqNo ≤ (s.driveOff a b).hst.seqNo := by
  unfold State.driveOff; extract_lets u
  have h : s.hst.seqNo ≤ u.hst.seqNo := by simp only [u]; split; exact tripOff_seqNo ..; exact Nat.le_refl _
  split
  · exact Nat.le_trans h (tripOff_seqNo ..)
  · exact h
theorem moveLead_rdi (s : State) (f : Fld) (i : Nat) (h : apart TRI_CFG.LEAD f = true) : s.moveLead.rdi f i = s.rdi f i := by
  unfold State.moveLead; extract_lets l; split
  · rfl
  · split
    · unfold State.wr; exact (rdi_of_regs rfl f i).trans (State.rdi_wri_apart _ _ _ _ h)
    · rfl
theorem moveLead_hst (s : State) : s.moveLead.hst = s.hst := by
  unfold State.moveLead; extract_lets l; split
  · rfl
  · split
    · rw [State.emit_hst, State.wr_hst]
    · rfl
theorem triadCommit_only (s : State) (a b c d) : Only 0x1100300000000200 s (s.triadCommit a b c d) := Only.triadCommit (Only.refl _ _) _ _ _ _ rfl
theorem mn (m : Member) : memberNum m < 3 := by cases m <;> decide
theorem log_spec (s : State) (m k a : Nat) (hm : m < 4) (hk : k < 8) : (s.logMismatch m k a).rd TRI_MISMATCH_LOG.MEMBER = m ∧ (s.logMismatch m k a).rd TRI_MISMATCH_LOG.KIND = k ∧
    (s.logMismatch m k a).rd TRI_MISMATCH_LOG.ADDR = a % 2 ^ 24 ∧ (s.logMismatch m k a).hst = s.hst ∧
    ∀ f i, apart TRI_MISMATCH_LOG.MEMBER f = true → apart TRI_MISMATCH_LOG.KIND f = true → apart TRI_MISMATCH_LOG.ADDR f = true → apart TRI_MISMATCH_TIME.TIME f = true →
      (s.logMismatch m k a).rdi f i = s.rdi f i := by
  unfold State.logMismatch
  refine ⟨?_, ?_, by ((try unfold State.rd) <;> (try unfold State.wr) <;> (repeat (first | rw [State.rdi_wri_apart _ _ _ _ rfl] | rw [State.rdi_wri_self _ _ (by first | decide | assumption | exact Fin.isLt _)])) <;> (first | done | rfl | exact bits_mod .. | assumption)), ?_, fun f i h1 h2 h3 h4 => ?_⟩
  · unfold State.rd State.wr; (repeat (first | rw [State.rdi_wri_apart _ _ _ _ rfl] | rw [State.rdi_wri_self _ _ (by first | decide | assumption | exact Fin.isLt _)])); exact Nat.mod_eq_of_lt hm
  · unfold State.rd State.wr; (repeat (first | rw [State.rdi_wri_apart _ _ _ _ rfl] | rw [State.rdi_wri_self _ _ (by first | decide | assumption | exact Fin.isLt _)])); exact Nat.mod_eq_of_lt hk
  · rw [State.wr_hst, State.wr_hst, State.wr_hst, State.wr_hst]
  · unfold State.wr; rw [State.rdi_wri_apart _ _ _ _ h4, State.rdi_wri_apart _ _ _ _ h3, State.rdi_wri_apart _ _ _ _ h2, State.rdi_wri_apart _ _ _ _ h1]
theorem hold_spec (s : State) (m k a : Nat) (hm : m < 3) : let t := s.holdMember m k a
    t.rd TRI_STATUS.MODE = 3 ∧ t.rd TRI_STATUS.FENCED = 3 ∧ t.rd TRI_STATUS.RSTEP = 0 ∧ bitOf (t.rd TRI_STATUS.HELD) m = true ∧
    t.rd TRI_MISMATCH_LOG.KIND = s.rd TRI_MISMATCH_LOG.KIND := by
  intro t; simp only [t]; unfold State.holdMember
  extract_lets s1 s2
  have o := triadCommit_only s2.showSil.moveLead 2 m k a
  have os : Only 0x200000000 s2 s2.showSil := Only.showSil (Only.refl _ _) rfl
  have g : ∀ f, fr 0x1100300000000200 f = true → fr 0x200000000 f = true → apart TRI_CFG.LEAD f = true →
      (s2.showSil.moveLead.triadCommit 2 m k a).rd f = s2.rd f := fun f h1 h3 h2 =>
    (o.rd f h1).trans ((moveLead_rdi _ _ _ h2).trans (os.rd f h3))
  refine ⟨?_, ?_, ?_, ?_, ?_⟩
  · rw [g _ rfl rfl rfl]; simp only [s2, s1]; ((try unfold State.rd) <;> (try unfold State.wr) <;> (repeat (first | rw [State.rdi_wri_apart _ _ _ _ rfl] | rw [State.rdi_wri_self _ _ (by first | decide | assumption | exact Fin.isLt _)])) <;> (first | done | rfl | exact bits_mod .. | assumption))
  · rw [g _ rfl rfl rfl]; simp only [s2, s1]; ((try unfold State.rd) <;> (try unfold State.wr) <;> (repeat (first | rw [State.rdi_wri_apart _ _ _ _ rfl] | rw [State.rdi_wri_self _ _ (by first | decide | assumption | exact Fin.isLt _)])) <;> (first | done | rfl | exact bits_mod .. | assumption))
  · rw [g _ rfl rfl rfl]; simp only [s2, s1]; ((try unfold State.rd) <;> (try unfold State.wr) <;> (repeat (first | rw [State.rdi_wri_apart _ _ _ _ rfl] | rw [State.rdi_wri_self _ _ (by first | decide | assumption | exact Fin.isLt _)])) <;> (first | done | rfl | exact bits_mod .. | assumption))
  · rw [g _ rfl rfl rfl]; simp only [s2, s1]
    have : ∀ w : State, (((w.wr TRI_STATUS.HELD (setBit (w.rd TRI_STATUS.HELD) m)).wr TRI_STATUS.MODE 3).wr TRI_STATUS.FENCED 3 |>.wr TRI_STATUS.RSTEP 0).rd TRI_STATUS.HELD = setBit (w.rd TRI_STATUS.HELD) m % 2 ^ 3 := fun w => by ((try unfold State.rd) <;> (try unfold State.wr) <;> (repeat (first | rw [State.rdi_wri_apart _ _ _ _ rfl] | rw [State.rdi_wri_self _ _ (by first | decide | assumption | exact Fin.isLt _)])) <;> (first | done | rfl | exact bits_mod .. | assumption))
    rw [this, bitOf_mod _ _ _ hm, bitOf_setBit]; simp
  · rw [g _ rfl rfl rfl]; simp only [s2, s1]; ((try unfold State.rd) <;> (try unfold State.wr) <;> (repeat (first | rw [State.rdi_wri_apart _ _ _ _ rfl] | rw [State.rdi_wri_self _ _ (by first | decide | assumption | exact Fin.isLt _)])) <;> (first | done | rfl | exact bits_mod .. | assumption))
theorem fence_spec (s : State) (m k a : Nat) (hm : m < 3) (hk : k < 8) : let t := s.fence m k a
    let past := (s.tri.fences.getD m []).filter (fun t => decide (s.tm.e < t + 3600000000000))
    t.rd TRI_MISMATCH_LOG.KIND = k ∧
    (past.length < 2 → t.rd TRI_STATUS.MODE = 2 ∧ t.rd TRI_STATUS.FENCED = m ∧ t.rd TRI_STATUS.RSTEP = 1 ∧ t.rd TRI_STATUS.FENCE_COUNT = min 255 (s.rd TRI_STATUS.FENCE_COUNT + 1) ∧
      t.rd TRI_MISMATCH_LOG.MEMBER = m ∧ t.rd TRI_MISMATCH_LOG.ADDR = a % 2 ^ 24 ∧ t.rd TRI_STATUS.HELD = s.rd TRI_STATUS.HELD ∧ t.rd TRI_STATUS.SCRUB_DIFF = s.rd TRI_STATUS.SCRUB_DIFF) ∧
    (2 ≤ past.length → t.rd TRI_STATUS.MODE = 3 ∧ t.rd TRI_STATUS.FENCED = 3 ∧ t.rd TRI_STATUS.RSTEP = 0 ∧ bitOf (t.rd TRI_STATUS.HELD) m = true) := by
  intro t past; simp only [t]; unfold State.fence
  extract_lets s1 tr s2 s3 s4
  have l := log_spec s m k a (by omega) hk
  have k2 : ∀ f, s2.rd f = s1.rd f := fun f => rfl
  have k1 : ∀ f, apart TRI_STATUS.FENCE_COUNT f = true → s1.rd f = (s.logMismatch m k a).rd f := fun f hf => by
    simp only [s1]; unfold State.inc State.inci State.rd; rw [State.rdi_wri_apart _ _ _ _ hf]
  have kc : s1.rd TRI_STATUS.FENCE_COUNT = min 255 (s.rd TRI_STATUS.FENCE_COUNT + 1) := by
    simp only [s1]; unfold State.inc State.inci State.rd; rw [State.rdi_wri_self _ _ (by decide), l.2.2.2.2 _ _ rfl rfl rfl rfl]
    show satAdd 255 _ _ % 2 ^ 8 = _; unfold satAdd; omega
  clear_value s1
  have k3 : s3.rd TRI_STATUS.MODE = 2 ∧ s3.rd TRI_STATUS.FENCED = m ∧ s3.rd TRI_STATUS.RSTEP = 1 ∧ ∀ f, apart TRI_STATUS.MODE f = true → apart TRI_STATUS.FENCED f = true → apart TRI_STATUS.RSTEP f = true → s3.rd f = s2.rd f := by
    simp only [s3]; clear_value s2
    refine ⟨by ((try unfold State.rd) <;> (try unfold State.wr) <;> (repeat (first | rw [State.rdi_wri_apart _ _ _ _ rfl] | rw [State.rdi_wri_self _ _ (by first | decide | assumption | exact Fin.isLt _)])) <;> (first | done | rfl | exact bits_mod .. | assumption)), ?_, by ((try unfold State.rd) <;> (try unfold State.wr) <;> (repeat (first | rw [State.rdi_wri_apart _ _ _ _ rfl] | rw [State.rdi_wri_self _ _ (by first | decide | assumption | exact Fin.isLt _)])) <;> (first | done | rfl | exact bits_mod .. | assumption)), fun f a1 a2 a3 => ?_⟩
    · unfold State.rd State.wr; (repeat (first | rw [State.rdi_wri_apart _ _ _ _ rfl] | rw [State.rdi_wri_self _ _ (by first | decide | assumption | exact Fin.isLt _)])); exact Nat.mod_eq_of_lt (Nat.lt_trans hm (by decide))
    · unfold State.rd State.wr; rw [State.rdi_wri_apart _ _ _ _ a3, State.rdi_wri_apart _ _ _ _ a2, State.rdi_wri_apart _ _ _ _ a1]
  clear_value s3
  have o := triadCommit_only s3.moveLead 0 m k a
  have g : ∀ f, fr 0x1100300000000200 f = true → apart TRI_CFG.LEAD f = true → s4.rd f = s3.rd f := fun f h1 h2 => (o.rd f h1).trans (moveLead_rdi _ _ _ h2)
  clear_value s4
  have kk : s4.rd TRI_MISMATCH_LOG.KIND = k := by rw [g _ rfl rfl, k3.2.2.2 _ rfl rfl rfl, k2, k1 _ rfl, l.2.1]
  refine ⟨?_, fun h => ?_, fun h => ?_⟩
  · split
    · rw [(hold_spec s4 m k a hm).2.2.2.2]; exact kk
    · exact kk
  · rw [if_neg (by omega)]
    refine ⟨(g _ rfl rfl).trans k3.1, (g _ rfl rfl).trans k3.2.1, (g _ rfl rfl).trans k3.2.2.1, ?_, ?_, ?_, ?_, ?_⟩
    · rw [g _ rfl rfl, k3.2.2.2 _ rfl rfl rfl, k2]; exact kc
    · rw [g _ rfl rfl, k3.2.2.2 _ rfl rfl rfl, k2, k1 _ rfl, l.1]
    · rw [g _ rfl rfl, k3.2.2.2 _ rfl rfl rfl, k2, k1 _ rfl, l.2.2.1]
    · rw [g _ rfl rfl, k3.2.2.2 _ rfl rfl rfl, k2, k1 _ rfl]; exact l.2.2.2.2 _ _ rfl rfl rfl rfl
    · rw [g _ rfl rfl, k3.2.2.2 _ rfl rfl rfl, k2, k1 _ rfl]; exact l.2.2.2.2 _ _ rfl rfl rfl rfl
  · rw [if_pos h]
    have q := hold_spec s4 m k a hm
    exact ⟨q.1, q.2.1, q.2.2.1, q.2.2.2.1⟩
theorem second_spec (s : State) (k a : Nat) (hk : k < 8) (hp : s.rd SLC_BLOCK_STATUS.PHASES < 8) : let t := s.secondMismatch k a
    t.rd TRI_MISMATCH_LOG.MEMBER = 3 ∧ t.rd TRI_MISMATCH_LOG.KIND = k ∧ t.rd SLC_TRIP_LATCH.TRIAD = 1 ∧ t.rd SLC_BLOCK_STATUS.SCOPE = 3 ∧ t.rd SLC_BLOCK_STATUS.PHASES = 7 ∧
    t.rd TRI_STATUS.MODE = s.rd TRI_STATUS.MODE := by
  intro t; simp only [t]; unfold State.secondMismatch
  extract_lets s1 ds s2 tr s3 s4
  have l := log_spec s 3 k a (by decide) hk
  have k4 : ∀ f, apart TRI_FW_STATUS.PENDING f = true → apart TRI_FW_STATUS.RESULT f = true → s4.rd f = s1.rd f := by
    intro f h1 h2
    simp only [s4]; split
    · have fo : ∀ (l : List Desc) (w : State), (l.foldl (fun s d => s.complete d 2 0 []) w).rd f = w.rd f := by
        intro l; induction l with
        | nil => intro w; rfl
        | cons x t ih => intro w; rw [List.foldl_cons, ih, cmp_rd]
      rw [fo]; show s2.rd f = _; simp only [s2]; unfold State.rd State.wr; rw [State.rdi_wri_apart _ _ _ _ h2, State.rdi_wri_apart _ _ _ _ h1]
    · rfl
  clear_value s4
  have q := stop_spec s4 SLC_TRIP_LATCH.TRIAD 3 (by decide) rfl (by rw [k4 _ rfl rfl]; exact lt_of_eq_of_lt (l.2.2.2.2 _ _ rfl rfl rfl rfl) hp)
  have o : Only 0x1942500120000200 s4 (s4.safeState SLC_TRIP_LATCH.TRIAD) := Only.safeState (Only.refl _ _) _ rfl (by decide)
  refine ⟨?_, ?_, q.1, q.2.2.1.trans (by simp), q.2.1, ?_⟩
  · rw [o.rd _ rfl, k4 _ rfl rfl]; exact l.1
  · rw [o.rd _ rfl, k4 _ rfl rfl]; exact l.2.1
  · rw [o.rd _ rfl, k4 _ rfl rfl]; exact l.2.2.2.2 _ _ rfl rfl rfl rfl
theorem checkPending_rd (s : State) (f : Fld) (h1 : apart TRI_FW_STATUS.STAGING f = true) (h2 : apart TRI_FW_STATUS.RESULT f = true) (h3 : apart TRI_FW_STATUS.STAGED f = true) (h4 : apart TRI_FW_VER_SHADOW.VERSION f = true) :
    s.checkPending.rd f = s.rd f := by
  unfold State.checkPending; split
  · rfl
  · unfold State.checkStaged; extract_lets tr img w
    have kw : w.rd f = s.rd f := by simp only [w]; unfold State.rd State.wr; rw [State.rdi_wri_apart _ _ _ _ h1]; rfl
    clear_value w
    split
    · rw [cmp_rd]; unfold State.rd State.wr; rw [State.rdi_wri_apart _ _ _ _ h2]; exact kw
    · split
      · rw [cmp_rd]; unfold State.rd State.wr; rw [State.rdi_wri_apart _ _ _ _ h2]; exact kw
      · rw [cmp_rd]; unfold State.rd State.wr; rw [State.rdi_wri_apart _ _ _ _ h4, State.rdi_wri_apart _ _ _ _ h3]; exact kw
theorem checkPending_seqNo (s : State) : s.checkPending.hst.seqNo = s.hst.seqNo := by
  unfold State.checkPending; split
  · rfl
  · unfold State.checkStaged; extract_lets tr img w
    have kw : w.hst = s.hst := by simp only [w]; rw [State.wr_hst]
    clear_value w
    split
    · rw [State.complete_seqNo, State.wr_hst, kw]
    · split
      · rw [State.complete_seqNo, State.wr_hst, kw]
      · rw [State.complete_seqNo, State.wr_hst, State.wr_hst, kw]
theorem od_ne {r j : Nat} (f : Fld) (hf : f ∈ drainFields) (h : r ≠ j) : OffDrain r f j := by
  intro x hx
  rcases (show ∀ f ∈ drainFields, ∀ x ∈ drainFields, x = f ∨ apart x f = true by decide) f hf x hx with h1 | h1
  · exact .inl ⟨h1, h⟩
  · exact .inr h1
theorem od_ap {r j : Nat} (g : Fld) (h : drainFields.all (fun x => apart x g) = true) : OffDrain r g j := fun x hx => .inr (List.all_eq_true.mp h x hx)
theorem ev_apart {s u : State} (h : u.rdi HOST_EVT_CFG.EVT_RING 0 = s.rdi HOST_EVT_CFG.EVT_RING 0) : u.evRing 0x90 = s.evRing 0x90 := by
  unfold State.evRing State.rd; rw [if_neg (by decide), if_neg (by decide), h]
theorem haltError_state (s : State) (r st : Nat) (hr : r < 64) (hs : st < 256) (h : s.evRing 0x90 ≠ r) :
    (s.haltError r st).rdi RING_STATE_n.STATE r = 5 ∧ (s.haltError r st).rdi RING_FAULT_n.STATUS r = st := by
  unfold State.haltError; extract_lets old
  have a : ∀ f, f ∈ drainFields → ((s.haltRing r 5 st 0 0).queueRingState r old 5 |>.drain (s.evRing 0x90)).rdi f r = (s.haltRing r 5 st 0 0).rdi f r := fun f hf =>
    (State.drain_off _ (od_ne f hf h)).trans (State.regs_rdi (State.queueRingState_regs ..) _ _)
  rw [a _ (by decide), a _ (by decide)]
  unfold State.haltRing
  refine ⟨?_, ?_⟩
  · (repeat (first | rw [State.rdi_wri_apart _ _ _ _ rfl] | rw [State.rdi_wri_self _ _ (by first | decide | assumption | exact Fin.isLt _)])); rfl
  · (repeat (first | rw [State.rdi_wri_apart _ _ _ _ rfl] | rw [State.rdi_wri_self _ _ (by first | decide | assumption | exact Fin.isLt _)])); exact Nat.mod_eq_of_lt hs
theorem haltError_off (s : State) (r st : Nat) (g : Fld) (j : Nat) (h1 : OffDrain r g j) (h2 : OffDrain (s.evRing 0x90) g j) : (s.haltError r st).rdi g j = s.rdi g j := by
  unfold State.haltError; extract_lets old
  rw [State.drain_off _ h2, State.regs_rdi (State.queueRingState_regs ..), State.haltRing_offDrain _ h1]
theorem setState_cons (s : State) (r new : Nat) (h : s.evRing 0x90 ≠ r) : (s.setRingState r new).rdi RING_STATE_n.CONS r = s.rdi RING_STATE_n.CONS r := by
  unfold State.setRingState
  extract_lets o y z
  have ez : z.evRing 0x90 = s.evRing 0x90 := ev_apart ((State.regs_rdi (State.queueRingState_regs ..) _ _).trans (State.rdi_wri_apart _ _ _ _ rfl))
  rw [State.drain_off _ (od_ne _ (by decide) (by rw [ez]; exact h))]
  exact (State.regs_rdi (State.queueRingState_regs ..) _ _).trans (State.rdi_wri_apart _ _ _ _ rfl)
theorem setState_fault (s : State) (r new : Nat) (h : s.evRing 0x90 ≠ r) : (s.setRingState r new).rdi RING_FAULT_n.STATUS r = s.rdi RING_FAULT_n.STATUS r := by
  unfold State.setRingState
  extract_lets o y z
  have ez : z.evRing 0x90 = s.evRing 0x90 := ev_apart ((State.regs_rdi (State.queueRingState_regs ..) _ _).trans (State.rdi_wri_apart _ _ _ _ rfl))
  rw [State.drain_off _ (od_ne _ (by decide) (by rw [ez]; exact h))]
  exact (State.regs_rdi (State.queueRingState_regs ..) _ _).trans (State.rdi_wri_apart _ _ _ _ rfl)
theorem run_go3 {s : State} {h : DescHdr} {d : Desc} {u : State} (g : Desc → State → State)
    (e : s.startDesc h 0x40 = .go d u) (ht : s.rdi RING_CFG_n.TYPE h.ring = 3) : s.runDesc h 0x40 g = g d u := by
  unfold State.runDesc
  rw [e]
  exact if_pos (.inl ⟨rfl, (start_rdi e _ _ rfl rfl rfl).trans ht⟩)
theorem access_job (w : State) (k : JobKind) (a len : Nat) (hr : k.range = (a, len)) (h0 : 0 < len) (h1 : a + len ≤ 2 ^ 30) (h2 : w.bit HOST_WALK_ROOT_LO.EN = true)
    (h3 : ∀ p ∈ pagesOf a len, w.cached p = none) : ∃ p ps, pagesOf a len = p :: ps ∧ (w.access k).hst.jobs = w.hst.jobs ++ [⟨w.hst.nextJob, k, pagesOf a len, [], .level1, w.tm.e + w.rd HOST_WALK_CFG.TIMEOUT * 1000, []⟩] ∧
      (w.access k).regs = w.regs ∧ (w.access k).cells = w.cells := by
  unfold State.access
  simp only [hr]
  rw [if_neg (Nat.not_lt.mpr h1), if_neg (by rw [h2]; simp)]
  have hc : ∀ p ∈ pagesOf a len, (w.cached p).isNone = true := fun p hp => by rw [h3 p hp]; rfl
  have htodo : (pagesOf a len).filter (fun p => (w.cached p).isNone) = pagesOf a len := List.filter_eq_self.mpr hc
  have hheld : (pagesOf a len).filterMap w.cached = [] := List.filterMap_eq_nil_iff.mpr h3
  rw [htodo, hheld]
  have hne : pagesOf a len ≠ [] := by
    unfold pagesOf; rw [if_neg (by omega)]; intro h
    have := congrArg List.length h; simp at this
  rw [if_neg hne]
  obtain ⟨p, ps, hp⟩ := List.exists_cons_of_ne_nil hne
  refine ⟨p, ps, hp, ?_⟩
  rw [hp]
  unfold State.startJob
  exact ⟨rfl, rfl, rfl⟩
theorem foldl_keep {α β : Type} (pr : State → β) (g : State → α → State) (h : ∀ s x, pr (g s x) = pr s) (l : List α) (s : State) : pr (l.foldl g s) = pr s := by
  induction l generalizing s with
  | nil => rfl
  | cons x t ih => rw [List.foldl_cons, ih, h]
def unposted (j : Journal) : Journal := { j with recs := j.recs.map (fun r => { r with posted := none }) }
theorem unposted_map (j : Journal) (g : Rec → Rec) (h : ∀ r, ({ g r with posted := none } : Rec) = { r with posted := none }) :
    unposted { j with recs := j.recs.map g } = unposted j := by
  unfold unposted
  simp only [List.map_map]
  have : j.recs.map ((fun r => ({ r with posted := none } : Rec)) ∘ g) = j.recs.map (fun r => ({ r with posted := none } : Rec)) := List.map_congr_left fun a _ => h a
  rw [this]
theorem drainList_jr (s : State) (r : Nat) (l : List Event) : unposted (s.drainList r l).1.jr = unposted s.jr := by
  induction l generalizing s with
  | nil => rfl
  | cons e t ih =>
    unfold State.drainList
    extract_lets k ctr
    split
    · rfl
    · split
      · unfold State.askEntry; split <;> first | rfl | (unfold State.startJob; split <;> rfl)
      · unfold State.haltRing; rw [State.wri_jr, State.wri_jr, State.wri_jr, State.wri_jr]
      · extract_lets w z
        rw [ih]
        have zj : unposted z.jr = unposted s.jr := by
          simp only [z]; unfold State.recordPosted
          split
          · extract_lets rs
            refine (unposted_map _ _ (fun r => by split <;> rfl)).trans ?_
            show unposted (w.wri _ _ _).jr = _
            rw [State.wri_jr]; rfl
          · rw [State.wri_jr]; rfl
        have wj : ∀ (k : Nat) (y : State), (y.entriesWritten r k).jr = y.jr := fun k => by
          induction k with
          | zero => exact fun _ => rfl
          | succ k ih => exact fun y => (ih _).trans (by unfold State.entryWritten; extract_lets; split <;> rfl)
        rw [wj]; exact zj
theorem drain_jr (s : State) (r : Nat) : unposted (s.drain r).jr = unposted s.jr := by
  unfold State.drain
  extract_lets old
  split
  rename_i a b h
  have ha : unposted a.jr = unposted s.jr := by rw [← drainList_jr s r, h]
  extract_lets src w new
  have wl : unposted w.jr = unposted s.jr := ha
  clear_value w
  split
  · exact wl
  · unfold State.queueRingState; split
    · exact wl
    · unfold State.queueRec State.queueOn State.queueAt
      extract_lets; split <;> exact wl
theorem queueAt_jr (s : State) (a b c d e f) : (s.queueAt a b c d e f).jr = s.jr := by
  unfold State.queueAt; extract_lets; split <;> rfl
theorem post_jr (s : State) (a b) : unposted (s.post a b).jr = unposted s.jr := by
  unfold State.post State.queueRec State.queueOn; rw [drain_jr, queueAt_jr]
theorem postLong_jr (s : State) (a b c) : unposted (s.postLong a b c).jr = unposted s.jr := by
  unfold State.postLong State.queueRec State.queueOn; rw [drain_jr, queueAt_jr]
theorem meterFlagAt_jr (s : State) (a b c d e f) : unposted (s.meterFlagAt a b c d e f).jr = unposted s.jr := by
  unfold State.meterFlagAt; extract_lets; rw [drain_jr, queueAt_jr]
theorem unposted_rec {a b : Journal} (h : unposted a = unposted b) {x : Rec} (hx : x ∈ b.recs) : ∃ y ∈ a.recs, { y with posted := none } = { x with posted := none } := by
  have h : a.recs.map _ = b.recs.map _ := congrArg Journal.recs h
  have : { x with posted := none } ∈ a.recs.map (fun r => { r with posted := none }) := by rw [h]; exact List.mem_map_of_mem hx
  exact List.mem_map.mp this
theorem powerOn_main (s : State) : s.powerOn.pwr.mainOn = true := by
  unfold State.powerOn
  extract_lets r base regs src src2 n m
  have hm : m.pwr.mainOn = true := by simp only [m]; rw [State.emit_pwr, State.showBrk_pwr, State.wr_pwr]; rfl
  clear_value m
  split
  · have o : Only 0x1100100000000200 (m.wr PWR_STATUS.RAIL_RESET 1) ((m.wr PWR_STATUS.RAIL_RESET 1).powerEvent 4 0) := by
      unfold State.powerEvent; exact postO _ _ _
    rw [o.pwr rfl, State.wr_pwr]; exact hm
  · exact hm
theorem bit_of_regs {s u : State} (h : u.regs = s.regs) (f : Fld) : u.bit f = s.bit f := by unfold State.bit State.rd; rw [rdi_of_regs h]
theorem ach_upd (s : State) (m j : Nat) (g : AuxCh → AuxCh) : (s.updAch m g).ach j = if j = m ∧ m < s.aux.length then g (s.ach m) else s.ach j := by
  unfold State.updAch State.ach
  simp only [List.getD_eq_getElem?_getD, List.getElem?_set]
  by_cases h : m = j
  · subst h
    by_cases h2 : m < s.aux.length
    · simp [h2]
    · simp [h2]
  · simp [h, Ne.symm h, show ¬ j = m from fun e => h e.symm]
def AuxHeld (s u : State) : Prop := (∀ f i, apart AUX_STATUS_m.HOLD f = true → u.rdi f i = s.rdi f i) ∧ u.tm = s.tm ∧ u.slc = s.slc ∧ u.pwr = s.pwr ∧ s.out <+: u.out ∧ u.hst = s.hst ∧ u.thm = s.thm ∧
    u.cells = s.cells ∧ u.aux.length = s.aux.length ∧ ∀ m, ({ u.ach m with holdOff := none } : AuxCh) = { s.ach m with holdOff := none }
theorem AuxHeld.emit {s u : State} (h : AuxHeld s u) (o : Out) : AuxHeld s (u.emit o) := by
  obtain ⟨h1, h2, h3, h4, h5, h6, h7, h8, h9, h10⟩ := h
  exact ⟨h1, h2, h3, h4, h5.trans (List.prefix_append _ _), h6, h7, h8, h9, h10⟩
theorem holds_held (s : State) : AuxHeld s s.auxHolds := by
  unfold State.auxHolds
  have g : ∀ (l : List Nat) (v : State), AuxHeld s v → AuxHeld s (l.foldl (fun s m => match (s.ach m).holdOff with
      | some t => if t ≤ s.tm.e then ((s.wri AUX_STATUS_m.HOLD m 0).updAch m (fun x => { x with holdOff := none })).emit (.auxHold m false) else s
      | none => s) v) := by
    intro l
    induction l with
    | nil => intro v h; exact h
    | cons x t ih =>
      intro v h
      rw [List.foldl_cons]
      refine ih _ ?_
      split
      · split
        · obtain ⟨h1, h2, h3, h4, h5, h6, h7, h8, h9, h10⟩ := h
          refine AuxHeld.emit (u := (v.wri AUX_STATUS_m.HOLD x 0).updAch x (fun c => { c with holdOff := none })) ⟨fun f i hf => (State.rdi_wri_apart _ _ _ _ hf).trans (h1 f i hf), ?_, ?_, ?_, ?_, ?_, ?_, ?_, ?_, fun m => ?_⟩ _
          · exact (State.wri_tm ..).trans h2
          · exact (State.wri_slc ..).trans h3
          · exact (State.wri_pwr ..).trans h4
          · exact ((State.wri_out ..).symm ▸ h5)
          · exact (State.wri_hst ..).trans h6
          · exact (State.wri_thm ..).trans h7
          · exact (State.wri_cells ..).trans h8
          · unfold State.updAch; rw [List.length_set, State.wri_aux]; exact h9
          · rw [ach_upd]
            have e : ∀ j, (v.wri AUX_STATUS_m.HOLD x 0).ach j = v.ach j := fun j => by unfold State.ach; rw [State.wri_aux]
            split
            · rename_i hm; obtain ⟨hm, -⟩ := hm; subst hm; refine Eq.trans ?_ (h10 m); simp only [e]
            · rw [e]; exact h10 m
        · exact h
      · exact h
  exact g _ s ⟨fun _ _ _ => rfl, rfl, rfl, rfl, List.prefix_refl _, rfl, rfl, rfl, rfl, fun _ => rfl⟩
theorem sa_safety (s : State) : s.sourceActive SLC_TRIP_LATCH.SAFETY_IN = b2n ((List.range 8).any (fun n =>
      bitOf (s.rd SAFE_STATUS.DEMAND) n && decide (1 ≤ s.rdi SAFE_IN_CFG_n.TYPE n) && decide (s.rdi SAFE_IN_CFG_n.TYPE n ≤ 3))) := rfl
theorem sa_tripin (s : State) : s.sourceActive SLC_TRIP_LATCH.TRIP_IN = b2n (decide (s.tm.e < s.slc.tripIn)) := rfl
theorem AuxHeld.routeActs {s u : State} (h : AuxHeld s u) (m : Nat) : u.routeActs m = s.routeActs m := by
  have hr : ∀ f i, apart AUX_STATUS_m.HOLD f = true → u.rdi f i = s.rdi f i := h.1
  unfold State.routeActs
  simp only [sa_safety, sa_tripin]
  unfold State.blanked State.biti State.rd
  simp (disch := first | exact rfl | decide) only [hr, h.2.1, h.2.2.1]
theorem AuxHeld.legsSet {s u : State} (h : AuxHeld s u) (m : Nat) : u.legsSet m = s.legsSet m := by
  have hr : ∀ f i, apart AUX_STATUS_m.HOLD f = true → u.rdi f i = s.rdi f i := h.1
  unfold State.legsSet State.rd
  simp (disch := first | exact rfl | decide) only [hr]
/-- what auxHolds after moveTo leaves -/
theorem mh (s : State) (e : Nat) : (∀ f i, apart AUX_STATUS_m.HOLD f = true → ((s.moveTo e).auxHolds).rdi f i = s.rdi f i) ∧ ((s.moveTo e).auxHolds).tm.e = (s.moveTo e).tm.e ∧
    ((s.moveTo e).auxHolds).pwr = s.pwr ∧ ((s.moveTo e).auxHolds).aux.length = s.aux.length ∧
    (∀ m, ({ ((s.moveTo e).auxHolds).ach m with holdOff := none } : AuxCh) = { s.ach m with holdOff := none }) ∧
    (∀ m, ((s.moveTo e).auxHolds).routeActs m = (s.moveTo e).routeActs m) ∧ (∀ m, ((s.moveTo e).auxHolds).legsSet m = s.legsSet m) := by
  have h := holds_held (s.moveTo e)
  have m1 := moveTo_sim s e
  have mo := State.moveTo_only s e
  have ea : ∀ m, (s.moveTo e).ach m = s.ach m := fun m => by unfold State.ach; rw [mo.aux rfl]
  refine ⟨fun f i hf => (h.1 f i hf).trans (rdi_of_regs m1.2 f i), by rw [h.2.1], by rw [h.2.2.2.1, mo.pwr rfl], by rw [h.2.2.2.2.2.2.2.2.1, mo.aux rfl], fun m => ?_, h.routeActs, fun m => ?_⟩
  · rw [h.2.2.2.2.2.2.2.2.2, ea]
  · rw [h.legsSet]; unfold State.legsSet State.rd; simp only [rdi_of_regs m1.2]
theorem wri_or (s : State) (x f : Fld) (m i v : Nat) (h : (x = f ∧ m ≠ i) ∨ apart x f = true) : (s.wri x m v).rdi f i = s.rdi f i := by
  rcases h with ⟨rfl, h⟩ | h
  · exact State.rdi_wri_entry _ _ h
  · exact State.rdi_wri_apart _ _ _ _ h
theorem auxPost_off (s : State) (m code arg : Nat) (f : Fld) (i : Nat) (hf : fr 0x1100100000000200 f = true) (h : (AUX_STATUS_m.CODE = f ∧ m ≠ i) ∨ apart AUX_STATUS_m.CODE f = true) :
    (s.auxPost m code arg).rdi f i = s.rdi f i := by
  unfold State.auxPost; rw [(postO _ _ _).rdi _ _ hf]; exact wri_or _ _ _ _ _ _ h
theorem auxPost_code (s : State) (m code arg : Nat) (hm : m < 2) (hc : code < 32) : (s.auxPost m code arg).rdi AUX_STATUS_m.CODE m = code := by
  unfold State.auxPost; rw [(postO _ _ _).rdi _ _ rfl, State.rdi_wri_self _ _ hm]; exact Nat.mod_eq_of_lt hc
theorem down_off (s : State) (m st code arg : Nat) (f : Fld) (i : Nat) (hf : fr 0x1100100000000200 f = true)
    (h : ∀ x ∈ [AUX_STATUS_m.STATE, AUX_STATUS_m.CAP, AUX_STATUS_m.CODE], (x = f ∧ m ≠ i) ∨ apart x f = true) : (s.auxDown m st code arg).rdi f i = s.rdi f i := by
  unfold State.auxDown State.auxEnter
  rw [auxPost_off _ _ _ _ _ _ hf (h _ (by simp))]
  show (((s.emit (.driveOff m)).wri AUX_STATUS_m.STATE m st).wri AUX_STATUS_m.CAP m 0).rdi f i = _
  rw [wri_or _ _ _ _ _ _ (h _ (by simp)), wri_or _ _ _ _ _ _ (h _ (by simp))]
  rfl
theorem decel_spec (s : State) (m : Nat) (hm : m < 2) (h : s.astate m = 2 ∨ s.astate m = 3 ∨ s.astate m = 4) : (s.auxDecel m).astate m = 5 ∧ (s.auxDecel m).rdi AUX_STATUS_m.CAP m = 0 ∧
    ∀ f i, apart AUX_STATUS_m.STATE f = true → apart AUX_STATUS_m.CAP f = true → (s.auxDecel m).rdi f i = s.rdi f i := by
  unfold State.auxDecel
  extract_lets st
  rw [if_pos h]
  refine ⟨?_, ?_, fun f i h1 h2 => ?_⟩
  · show ((s.wri AUX_STATUS_m.STATE m 5).wri AUX_STATUS_m.CAP m 0).rdi AUX_STATUS_m.STATE m = 5
    (repeat (first | rw [State.rdi_wri_apart _ _ _ _ rfl] | rw [State.rdi_wri_self _ _ (by first | decide | assumption | exact Fin.isLt _)])); rfl
  · show ((s.wri AUX_STATUS_m.STATE m 5).wri AUX_STATUS_m.CAP m 0).rdi AUX_STATUS_m.CAP m = 0
    (repeat (first | rw [State.rdi_wri_apart _ _ _ _ rfl] | rw [State.rdi_wri_self _ _ (by first | decide | assumption | exact Fin.isLt _)])); rfl
  · show ((s.wri AUX_STATUS_m.STATE m 5).wri AUX_STATUS_m.CAP m 0).rdi f i = _
    rw [State.rdi_wri_apart _ _ _ _ h2, State.rdi_wri_apart _ _ _ _ h1]
theorem diag_spec (s : State) (m : Nat) (o : Bool) (hm : m < 2) : (s.auxDiag m o).astate m = 1 ∧ (s.auxDiag m o).rdi AUX_STATUS_m.HOLD m = 1 ∧
    ∀ f i, apart AUX_STATUS_m.STATE f = true → apart AUX_STATUS_m.HOLD f = true → (s.auxDiag m o).rdi f i = s.rdi f i := by
  unfold State.auxDiag
  refine ⟨?_, ?_, fun f i h1 h2 => ?_⟩
  · show ((s.wri AUX_STATUS_m.STATE m 1).wri AUX_STATUS_m.HOLD m 1).rdi AUX_STATUS_m.STATE m = 1
    (repeat (first | rw [State.rdi_wri_apart _ _ _ _ rfl] | rw [State.rdi_wri_self _ _ (by first | decide | assumption | exact Fin.isLt _)])); rfl
  · show ((s.wri AUX_STATUS_m.STATE m 1).wri AUX_STATUS_m.HOLD m 1).rdi AUX_STATUS_m.HOLD m = 1
    (repeat (first | rw [State.rdi_wri_apart _ _ _ _ rfl] | rw [State.rdi_wri_self _ _ (by first | decide | assumption | exact Fin.isLt _)])); rfl
  · show ((s.wri AUX_STATUS_m.STATE m 1).wri AUX_STATUS_m.HOLD m 1).rdi f i = _
    rw [State.rdi_wri_apart _ _ _ _ h2, State.rdi_wri_apart _ _ _ _ h1]
theorem down_ap (s : State) (m st code arg : Nat) (f : Fld) (i : Nat) (hf : fr 0x1100100000000200 f = true)
    (h : [AUX_STATUS_m.STATE, AUX_STATUS_m.CAP, AUX_STATUS_m.CODE].all (fun x => apart x f) = true) : (s.auxDown m st code arg).rdi f i = s.rdi f i :=
  down_off _ _ _ _ _ _ _ hf (fun x hx => .inr (List.all_eq_true.mp h x hx))
theorem used_rdi (w : State) (f i) : w.used.rdi f i = w.rdi f i := rfl
theorem upd_rdi (w : State) (m g f i) : (w.updAch m g).rdi f i = w.rdi f i := rfl
theorem both_down (w : State) (code v : Nat) (hc : code < 32) : let t := (w.auxDown 0 6 code v).auxDown 1 6 code v
    (∀ m, m < 2 → t.rdi AUX_STATUS_m.STATE m = 6 ∧ t.rdi AUX_STATUS_m.CODE m = code) ∧
    ∀ f i, fr 0x1100100000000200 f = true → [AUX_STATUS_m.STATE, AUX_STATUS_m.CAP, AUX_STATUS_m.CODE].all (fun x => apart x f) = true → t.rdi f i = w.rdi f i := by
  intro t; simp only [t]
  have d := down_spec (w.auxDown 0 6 code v) 1 6 code v (by decide) (by decide)
  have d0 := down_spec w 0 6 code v (by decide) (by decide)
  unfold State.astate at d d0
  have hc' : code % 2 ^ AUX_STATUS_m.CODE.w = code := Nat.mod_eq_of_lt hc
  rw [hc'] at d d0
  refine ⟨fun m hm => ?_, fun f i hf h => (down_ap _ _ _ _ _ _ _ hf h).trans (down_ap _ _ _ _ _ _ _ hf h)⟩
  rcases (by omega : m = 0 ∨ m = 1) with rfl | rfl
  · exact ⟨(down_off (w.auxDown 0 6 code v) 1 6 code v AUX_STATUS_m.STATE 0 rfl (by decide)).trans d0.1, (down_off (w.auxDown 0 6 code v) 1 6 code v AUX_STATUS_m.CODE 0 rfl (by decide)).trans d0.2.1⟩
  · exact ⟨d.1, d.2.1⟩
theorem decel_rdi (s : State) (m : Nat) (f i) (h1 : apart AUX_STATUS_m.STATE f = true) (h2 : apart AUX_STATUS_m.CAP f = true) : (s.auxDecel m).rdi f i = s.rdi f i := by
  unfold State.auxDecel
  extract_lets st
  split
  · show ((s.wri AUX_STATUS_m.STATE m 5).wri AUX_STATUS_m.CAP m 0).rdi f i = _
    rw [State.rdi_wri_apart _ _ _ _ h2, State.rdi_wri_apart _ _ _ _ h1]
  · rfl
theorem uv_spec (s : State) (m v : Nat) (hm : m < 2) : let t := s.uvChannel m v
    (s.rdi AUX_STATUS_m.STATE m = 2 ∨ s.rdi AUX_STATUS_m.STATE m = 3 ∨ s.rdi AUX_STATUS_m.STATE m = 4 ∨ s.rdi AUX_STATUS_m.STATE m = 5 → t.rdi AUX_STATUS_m.STATE m = 0 ∧ t.rdi AUX_STATUS_m.CODE m = 9) ∧
    (s.rdi AUX_STATUS_m.STATE m = 1 → t.rdi AUX_STATUS_m.STATE m = 6 ∧ t.rdi AUX_STATUS_m.CODE m = 9) ∧
    ∀ f i, fr 0x1100100000000200 f = true → (∀ x ∈ [AUX_STATUS_m.STATE, AUX_STATUS_m.CAP, AUX_STATUS_m.CODE, AUX_STATUS_m.DIAG], (x = f ∧ m ≠ i) ∨ apart x f = true) → t.rdi f i = s.rdi f i := by
  intro t; simp only [t]; unfold State.uvChannel
  extract_lets st
  have hst : st = s.rdi AUX_STATUS_m.STATE m := rfl
  have d0 : ∀ w : State, (w.auxDown m 0 9 v).rdi AUX_STATUS_m.STATE m = 0 ∧ (w.auxDown m 0 9 v).rdi AUX_STATUS_m.CODE m = 9 := fun w =>
    let d := down_spec w m 0 9 v hm (by decide); ⟨d.1, d.2.1⟩
  have d6 : ∀ w : State, (w.auxDown m 6 9 v).rdi AUX_STATUS_m.STATE m = 6 ∧ (w.auxDown m 6 9 v).rdi AUX_STATUS_m.CODE m = 9 := fun w =>
    let d := down_spec w m 6 9 v hm (by decide); ⟨d.1, d.2.1⟩
  rw [← hst]
  refine ⟨fun h => ?_, fun h => ?_, fun f i hf h => ?_⟩
  · rw [if_neg (by omega)]
    split
    · exact d0 _
    · rw [if_pos (by omega)]; simp only [upd_rdi]; exact d0 _
  · rw [if_pos h]; exact d6 _
  · have hh : ∀ x ∈ [AUX_STATUS_m.STATE, AUX_STATUS_m.CAP, AUX_STATUS_m.CODE], (x = f ∧ m ≠ i) ∨ apart x f = true := fun x hx => h x (by
      simp only [List.mem_cons, List.not_mem_nil, or_false] at hx ⊢; rcases hx with rfl | rfl | rfl <;> simp)
    split
    · rw [down_off _ _ _ _ _ _ _ hf hh, wri_or _ _ _ _ _ _ (h _ (by simp))]
    · split
      · exact down_off _ _ _ _ _ _ _ hf hh
      · split
        · simp only [upd_rdi]; exact down_off _ _ _ _ _ _ _ hf hh
        · rfl
theorem mclk (s : State) (e : Nat) : ({ (s.moveTo e).clk with slew := 0, slewLeft := none } : ClkSt) = { s.clk with slew := 0, slewLeft := none } := by
  unfold State.moveTo; split
  · rfl
  · dsimp only
    cases s.clk.slewLeft with
    | none => rfl
    | some left => dsimp only; split <;> rfl

end Sys2Proof.Machine
end

