-- ==== Sys2Proof/Laws/Wire.lean ====
section
/-! SUPPORT. A frame put on the link reads back: the code groups of `frameCodes` form a good copy with the same type and
payload (R262, R264, R265, R279), and a message's bytes carry its right check (R433). -/
set_option Elab.async false
namespace Sys2Proof.Machine

/-- Little-endian bytes read back. -/
theorem ofBytes_leBytes (n v : Nat) : ofBytes (leBytes n v) = v % 256 ^ n := by
  induction n generalizing v with
  | zero => simp [leBytes, ofBytes, Nat.mod_one]
  | succ n ih =>
    simp only [leBytes, ofBytes, ih, BitVec.toNat_ofNat]
    rw [show (256 : Nat) ^ (n + 1) = 256 * 256 ^ n from pow_succ' .., Nat.mod_mul (x := v) (a := 256)]
    exact congrArg (· + 256 * (v / 256 % 256 ^ n)) (Nat.mod_mod v 256)

@[simp] theorem leBytes_length (n v : Nat) : (leBytes n v).length = n := by
  induction n generalizing v with
  | zero => rfl
  | succ n ih => simp [leBytes, ih]

theorem crcStepRefl_lt (p k c : Nat) (hp : p < 2 ^ 32) (hc : c < 2 ^ 32) : crcStepRefl p k c < 2 ^ 32 := by
  induction k generalizing c with
  | zero => exact hc
  | succ k ih =>
    unfold crcStepRefl
    refine ih _ ?_
    split
    · exact Nat.xor_lt_two_pow (by omega) hp
    · omega

theorem crcRefl_lt (p : Nat) (l : List Byte) (c : Nat) (hp : p < 2 ^ 32) (hc : c < 2 ^ 32) : crcRefl p l c < 2 ^ 32 := by
  induction l generalizing c with
  | nil => exact hc
  | cons b l ih =>
    unfold crcRefl
    exact ih _ (crcStepRefl_lt _ _ _ hp (Nat.xor_lt_two_pow hc (by have := b.isLt; omega)))

/-- A CRC-32C has 32 bits. -/
theorem crc32c_lt (l : List Byte) : crc32c l < 2 ^ 32 :=
  Nat.xor_lt_two_pow (crcRefl_lt _ _ _ (by decide) (by decide)) (by decide)

theorem takeData_data (l : List Byte) (x y : Nat) (t : List Code) :
    takeData (l.map .data ++ .k x y :: t) = (l, .k x y :: t) := by
  induction l with
  | nil => rfl
  | cons b l ih => simp [takeData, ih]

/-- Data groups pass the removal of ordered sets. -/
theorem dropOrders_data (l : List Byte) (t : List Code) :
    dropOrders false (l.map .data ++ t) = l.map .data ++ dropOrders false t := by
  induction l with
  | nil => rfl
  | cons b l ih => simp [dropOrders, Code.opens, ih]

/-- A frame sent and received back unchanged is a good copy of its type and payload. -/
theorem goodCopy_frameCodes (ty : Nat) (pay : List Byte) (rt : Nat) (hty : ty < 256) (h : payloadLen ty = some pay.length) :
    FrameIn.goodCopy ⟨frameCodes ty pay, rt⟩ = some (ty, pay) := by
  have hp : FrameIn.parts ⟨frameCodes ty pay, rt⟩ = some (ty, pay ++ leBytes 4 (crc32c pay), [.k 29 7, .k 23 7]) := by
    have d := dropOrders_data (BitVec.ofNat 8 ty :: (pay ++ leBytes 4 (crc32c pay))) [.k 29 7, .k 23 7]
    have e : dropOrders false (frameCodes ty pay) = frameCodes ty pay := by
      simpa [frameCodes, dropOrders, Code.opens] using d
    have k := takeData_data (pay ++ leBytes 4 (crc32c pay)) 29 7 [.k 23 7]
    simp only [FrameIn.parts, e]
    simpa [frameCodes, Nat.mod_eq_of_lt hty] using k
  have hc : crc32c pay = ofBytes (leBytes 4 (crc32c pay)) := by
    rw [ofBytes_leBytes]; exact (Nat.mod_eq_of_lt (crc32c_lt pay)).symm
  simp [FrameIn.goodCopy, hp, h, ← hc]

end Sys2Proof.Machine
end

