-- ==== Sys2Proof/Tests/Slice0.lean ====
section
/-! SUPPORT. Tests: well-formedness refusals, a few single commands with values from the manual's tables, and for each
statement states and operands that meet the hypotheses of its clauses. -/
set_option linter.unusedVariables false
set_option Elab.async false
namespace Sys2Proof.Tests
open Sys2Proof.Machine Sys2Proof.Machine.Reg

/-! ### States that meet the hypotheses of the statements -/

/-- The state after reset, at stage B4, awake, with the tick running and the triad in TRIPLEX. -/
def w0 : State :=
  let s := ((State.reset.wr HOST_STATUS.STAGE 4).wr TRI_STATUS.MODE 1).wr CIS_STATUS.STATE 2
  { s with tm := { s.tm with run := true }, tri := { s.tri with imageOk := true }, pwr := { s.pwr with tready := true } }

def onTm (s : State) (f : TickSt → TickSt) : State := { s with tm := f s.tm }
def onClk (s : State) (f : ClkSt → ClkSt) : State := { s with clk := f s.clk }
def onPwr (s : State) (f : PwrSt → PwrSt) : State := { s with pwr := f s.pwr }
def onHst (s : State) (f : HostSt → HostSt) : State := { s with hst := f s.hst }
def onTri (s : State) (f : TriSt → TriSt) : State := { s with tri := f s.tri }
def onSlc (s : State) (f : SlcSt → SlcSt) : State := { s with slc := f s.slc }
def onSaf (s : State) (f : SafeSt → SafeSt) : State := { s with saf := f s.saf }
def onSp (s : State) (f : SetWait → SetWait) : State := { s with sp := f s.sp }
def onSched (s : State) (f : SchedSt → SchedSt) : State := { s with sched := f s.sched }
def onAdc (s : State) (f : AdcSt → AdcSt) : State := { s with adc := f s.adc }
def onMtr (s : State) (f : MtrSt → MtrSt) : State := { s with mtr := f s.mtr }
def onJr (s : State) (f : Journal → Journal) : State := { s with jr := f s.jr }
def onThm (s : State) (f : ThmSt → ThmSt) : State := { s with thm := f s.thm }
def onLaw (s : State) (f : Law → Law) : State := { s with law := f s.law }
def onCell (s : State) (c : Nat) (f : Cell → Cell) : State := { s with cells := tput (fun _ => Cell.init) s.cells c (f (s.cell c)) }
def onRing (s : State) (r : Nat) (f : RingSt → RingSt) : State := { s with rings := s.rings.set r (f (s.ring r)) }
def onAux (s : State) (m : Nat) (f : AuxCh → AuxCh) : State := { s with aux := s.aux.set m (f (s.ach m)) }
def onSin (s : State) (n : Nat) (f : SafeIn → SafeIn) : State := { s with saf := { s.saf with inputs := s.saf.inputs.set n (f (s.sin n)) } }
def onPv (s : State) (c : Nat) (f : PvSt → PvSt) : State :=
  { s with law := { s.law with pv := tput (fun _ => PvSt.init) s.law.pv c (f (s.pv c)) } }
/-- The active copy of a shadowed field set. -/
def setAct (s : State) (f : Fld) (i v : Nat) : State := { s with regs := tput regDefault s.regs (f.actKey i) v }

/-- A state in which a descriptor may start on ring 0: COMMAND (or of type `ty`), its first slot's page translated. -/
def wd (ty : Nat) : State :=
  let s := (((((w0.wri RING_STATE_n.STATE 0 1).wri RING_CFG_n.TYPE 0 ty).wri RING_CFG_n.SIZE 0 6).wri RING_CFG_n.EN 0 1).wr
    HOST_WALK_ROOT_LO.EN 1).wri RING_CFG_n.CRING 0 1
  onHst s fun x => { x with ctr := [(0, 4)], cache := [⟨s.slotAddr 0 0 / 4096, 77, true, true, 2⟩] }
/-- A descriptor's header on ring 0. -/
def hd : DescHdr := ⟨0, false, 0x55⟩

/-- Plain values of the structures that the statements speak of. -/
def desc0 : Desc := ⟨0, 1, 0, 1, 0x55, 0⟩
/-- A message with a given connection, sequence number, flags and check, its other fields 0. -/
def pduOf (conn seqNo flags crc : Nat) : Pdu := ⟨0x4C53, 1, 1, conn, seqNo, flags, 0, 0, 0, 0, 0, 0, 0, 0, 0, 0, crc⟩
def pdu0 : Pdu := pduOf 0 1 0 0
/-- A message with its right check (R433). -/
def signed0 (m : Pdu) : Pdu := { m with crc := crc32c (pduBody m) }
/-- A message in a frame sent to the device with addresses 0 (those after reset), with its right check sequence (R432). -/
def eth (m : Pdu) : EthFrame := let x : EthFrame := ⟨0, 0, 0x88B5, m, 0⟩; { x with fcs := ethFcs x }
/-- A returning copy of a tick frame or a WADI frame, its payload all 0 but for three places. -/
def payOf (wrap tel : Byte) : List Byte :=
  List.replicate 24 0 ++ wrap :: List.replicate 439 0 ++ tel :: List.replicate 559 0
def frameOf (ty : Nat) (wrap tel : Byte) : FrameIn := ⟨frameCodes ty (payOf wrap tel), 2000⟩
theorem frameOf_copy (ty : Nat) (wrap tel : Byte) (h : ty = 0xA1 ∨ ty = 0xB1) :
    (frameOf ty wrap tel).goodCopy = some (ty, payOf wrap tel) :=
  have hl : (payOf wrap tel).length = 1024 := by
    simp only [payOf, List.length_append, List.length_cons, List.length_replicate]
  goodCopy_frameCodes ty _ _ (by omega) (by rw [hl]; rcases h with rfl | rfl <;> rfl)
theorem frameOf_payload (ty : Nat) (wrap tel : Byte) (h : ty = 0xA1 ∨ ty = 0xB1) :
    (frameOf ty wrap tel).payload = payOf wrap tel ∧ (frameOf ty wrap tel).good = true ∧
    (frameOf ty wrap tel).compact = false := by
  unfold FrameIn.payload FrameIn.good FrameIn.compact
  rw [frameOf_copy ty wrap tel h]
  rcases h with rfl | rfl <;> exact ⟨rfl, rfl, rfl⟩
def rec0 : Rec := ⟨0, 0, 0, 1, 0, 0, 0, 0, 0, 0, [], none, none, false, 0, 0⟩
def snap0 : Snap := ⟨0, 0, 0, 0, 0, [], [], [], ⟨0, 0, 0, [0, 0], []⟩⟩
def buf0 : Buf := ⟨desc0, 0, 4096, 0, 1, false, false, false, none, []⟩
def job0 (k : JobKind) (p : JobPhase) : Job := ⟨1, k, [1], [], p, 0, []⟩
def row (off : Nat) : RegRow := (regAt off).getD ⟨"", 0, 0, []⟩

/-! ### Well-formedness: each check refuses a term that breaks it (widths of R269, R341, R360, R433, R504, R505) -/

def frame : FrameIn := ⟨[.k 27 7, .data 0xA2, .bad], 2000⟩
def pdu : Pdu := pduOf 0 0 0 0
def ether (m : Pdu) : EthFrame := ⟨0, 0, 0, m, 0⟩
def conv : Stream := ⟨[0], List.replicate 16 [0]⟩

theorem test_wf_accepts :
    ([.clkTickCfgWrite (2 ^ 32 - 1), .frameReturn 0 0 frame 0, .safeMessageRx 0 (ether pdu) 0, .rcFieldRead .debugger ⟨2 ^ 32 + 559, []⟩ 0, .debugWrite ⟨2 ^ 32, 0, 0⟩ 0, .s0Deadline ⟨conv, [(.a, 0, [1])]⟩ true 0 0, .nop hd] :
      List Instr).all wellFormed = true := by decide

theorem test_wf_refuses_values_0 :
    ([.clkTickCfgWrite (2 ^ 32), .clkTickDeadlineWrite 0 (2 ^ 32), .clkShedCfgWrite (2 ^ 32), .hgsCellCfgWrite 0 (2 ^ 32) .host,
     .hgsPlantRatingWrite false (2 ^ 32) .host, .ctlModeWrite (2 ^ 32), .ctlManualWrite (2 ^ 32), .syncPllCfgWrite (2 ^ 32),
     .syncModeWrite (2 ^ 32) .host, .mirBaseWrite (2 ^ 32), .portScanReq (2 ^ 16), .portPvCfgWrite 0 (2 ^ 32),
     .portPackWrite 0 0 (2 ^ 32), .linkGoFull (2 ^ 16) 0, .linkGoWadi (2 ^ 16) 0, .linkRingEnWrite (2 ^ 32) 0,
     .linkCfgWrite (2 ^ 32), .adcSwTrig (2 ^ 32) 0, .adcQCfgWrite 0 (2 ^ 32), .cmpLatchClear (2 ^ 32) 0,
     .cmpCfgWrite 0 false (2 ^ 32), .adcChCfgWrite 0 (2 ^ 32), .adcChCalWrite 0 (2 ^ 32), .adcCtlCfgWrite (2 ^ 32),
     .slcCellBlk (2 ^ 16) 0, .driveScClear (2 ^ 32) 0, .slcLatchClear (2 ^ 32) 0, .safeConfirmWrite (2 ^ 32) .host,
     .crcCfgWrite (2 ^ 32), .crcDataWrite 0 (2 ^ 32), .crcSeedWrite (2 ^ 32), .tcmEccError .a (2 ^ 64) 0,
     .trap .reset (2 ^ 32) 0, .trap .reset 0 (2 ^ 32), .doorbell 0 ⟨2 ^ 32, []⟩, .doorbell 0 ⟨0, [(.a, 2 ^ 32)]⟩, .ringEnable 0 (2 ^ 32),
     .walkInvalidate (2 ^ 32), .hostWalkRootWrite false (2 ^ 32), .auxDiagDone 0 ⟨0, [(0, 0)], [0, 0, 0]⟩ 0, .auxDiagDone 0 ⟨0, [(0, 0), (0, 0), (0, 0)], []⟩ 0, .keMeasured 0 (2 ^ 32) 0] : List Instr).all (fun c => !wellFormed c) = true := by decide

theorem test_wf_refuses_values_1 :
    ([.vauxUv (2 ^ 32) 0, .vauxUvRecover (2 ^ 32) 0, .vauxOv (2 ^ 32) 0, .cpUv (2 ^ 32) 0,
     .regenLimit (2 ^ 32) 0, .regenClear (2 ^ 32) 0, .clkPllSeedWrite 0 (2 ^ 32), .syncSecWrite (2 ^ 32),
     .shutdownDone (2 ^ 12) 0, .lcTransition (2 ^ 32) .host 0, .registerWrite .host (2 ^ 32) 0 ⟨0, []⟩ 0, .registerWrite .host 0 (2 ^ 4) ⟨0, []⟩ 0,
     .registerWrite .host 0 0 ⟨2 ^ 32, []⟩ 0, .registerWrite .host 0 0 ⟨0, [(.a, ⟨0, 16, 0⟩)]⟩ 0, .rcFieldRead .host ⟨2 ^ 32, []⟩ 0,
     .rcFieldRead .debugger ⟨2 ^ 32 + 560, []⟩ 0, .rcFieldRead .host ⟨0, [(.a, 2 ^ 32)]⟩ 0, .powerStateChange ⟨true, [(2 ^ 64, 0)]⟩] : List Instr).all (fun c => !wellFormed c) = true := by decide

theorem test_wf_refuses_descriptors_0 :
    ([.cellRemove ⟨0, false, 2 ^ 32⟩ 0, .cellRemove hd (2 ^ 16), .cellReturn ⟨0, false, 2 ^ 32⟩ 0, .cellReturn hd (2 ^ 16),
     .cellNodeFw ⟨0, false, 2 ^ 32⟩ 0 0 0, .cellNodeFw hd (2 ^ 16) 0 0, .cellNodeFw hd 0 (2 ^ 32) 0, .cellNodeFw hd 0 0 (2 ^ 64),
     .fwStage ⟨0, false, 2 ^ 32⟩ 0 0 false false 0, .fwStage hd (2 ^ 32) 0 false false 0, .fwStage hd 0 (2 ^ 32) false false 0, .fwStage hd 0 0 false false (2 ^ 64),
     .fwSwap ⟨0, false, 2 ^ 32⟩, .nop ⟨0, false, 2 ^ 32⟩, .setpoint ⟨0, false, 2 ^ 32⟩ ⟨0, 0, 0, 0, 0, 0, 0, 0⟩, .setpoint hd ⟨2 ^ 16, 0, 0, 0, 0, 0, 0, 0⟩,
     .setpoint hd ⟨0, 2 ^ 15, 0, 0, 0, 0, 0, 0⟩, .setpoint hd ⟨0, 0, 2 ^ 15, 0, 0, 0, 0, 0⟩, .setpoint hd ⟨0, 0, 0, 2 ^ 16, 0, 0, 0, 0⟩, .setpoint hd ⟨0, 0, 0, 0, 2 ^ 16, 0, 0, 0⟩,
     .setpoint hd ⟨0, 0, 0, 0, 0, 2 ^ 16, 0, 0⟩, .setpoint hd ⟨0, 0, 0, 0, 0, 0, 2 ^ 16, 0⟩, .setpoint hd ⟨0, 0, 0, 0, 0, 0, 0, 2 ^ 16⟩, .converterRelease ⟨0, false, 2 ^ 32⟩ 0,
     .converterStop ⟨0, false, 2 ^ 32⟩ 0, .converterStopBrk ⟨0, false, 2 ^ 32⟩ 0, .converterBrkReset ⟨0, false, 2 ^ 32⟩ 0, .furrowLoad ⟨0, false, 2 ^ 32⟩ 0 0 0 0,
     .furrowLoad hd (2 ^ 16) 0 0 0, .furrowLoad hd 0 (2 ^ 8) 0 0, .furrowLoad hd 0 0 (2 ^ 32) 0, .furrowLoad hd 0 0 0 (2 ^ 64),
     .lease ⟨0, false, 2 ^ 32⟩ 0 0 0 0 0, .lease hd (2 ^ 16) 0 0 0 0, .lease hd 0 (2 ^ 32) 0 0 0, .lease hd 0 0 (2 ^ 16) 0 0,
     .lease hd 0 0 0 (2 ^ 16) 0, .lease hd 0 0 0 0 (2 ^ 64), .hostTime ⟨0, false, 2 ^ 32⟩ 0, .hostTime hd (2 ^ 64)] : List Instr).all (fun c => !wellFormed c) = true := by decide

theorem test_wf_refuses_descriptors_1 :
    ([.capture ⟨0, false, 2 ^ 32⟩ 0, .capture hd (2 ^ 8), .journalRead ⟨0, false, 2 ^ 32⟩ 0 0 0, .journalRead hd (2 ^ 64) 0 0,
     .journalRead hd 0 (2 ^ 16) 0, .journalRead hd 0 0 (2 ^ 64), .buffer ⟨0, false, 2 ^ 32⟩ 0 0, .buffer hd (2 ^ 32) 0,
     .buffer hd 0 (2 ^ 64), .badOpcode ⟨0, false, 2 ^ 32⟩ ⟨0, 0⟩, .badOpcode hd ⟨2 ^ 8, 0⟩, .badOpcode hd ⟨0, 2 ^ 16⟩] : List Instr).all (fun c => !wellFormed c) = true := by decide

theorem test_wf_refuses_frames :
    ([.frameReturn 0 0 { frame with codes := [.k 27 6] } 0, .frameReturn 0 0 { frame with roundTrip := 2 ^ 14 } 0, .trReceived 0 0 (.k 28 0) (.k 28 8) 0, .trReceived 0 0 (.k 28 5) (.data 0x31) 0,
     .jrReceived 0 ⟨0, .k 28 4, .k 7 1⟩ 0, .jrReceived 0 ⟨0, .data 0x9C, .data 0x41⟩ 0] : List Instr).all (fun c => !wellFormed c) = true := by decide

theorem test_wf_refuses_messages :
    ([.safeMessageRx 0 { ether pdu with dst := 2 ^ 48 } 0, .safeMessageRx 0 { ether pdu with src := 2 ^ 48 } 0,
     .safeMessageRx 0 { ether pdu with etherType := 2 ^ 16 } 0, .safeMessageRx 0 { ether pdu with fcs := 2 ^ 32 } 0,
     .safeMessageRx 0 (ether { pdu with protoId := 2 ^ 16 }) 0, .safeMessageRx 0 (ether { pdu with version := 2 ^ 8 }) 0, .safeMessageRx 0 (ether { pdu with ty := 2 ^ 8 }) 0, .safeMessageRx 0 (ether { pdu with connId := 2 ^ 32 }) 0,
     .safeMessageRx 0 (ether { pdu with seqNo := 2 ^ 32 }) 0, .safeMessageRx 0 (ether { pdu with flags := 2 ^ 16 }) 0, .safeMessageRx 0 (ether { pdu with p := 2 ^ 15 }) 0, .safeMessageRx 0 (ether { pdu with q := 2 ^ 15 }) 0,
     .safeMessageRx 0 (ether { pdu with ilim := 2 ^ 16 }) 0, .safeMessageRx 0 (ether { pdu with plim := 2 ^ 16 }) 0, .safeMessageRx 0 (ether { pdu with ulo := 2 ^ 16 }) 0, .safeMessageRx 0 (ether { pdu with uhi := 2 ^ 16 }) 0,
     .safeMessageRx 0 (ether { pdu with paramCv := 2 ^ 32 }) 0, .safeMessageRx 0 (ether { pdu with echoSeq := 2 ^ 32 }) 0,
     .safeMessageRx 0 (ether { pdu with rsv14 := 2 ^ 16 }) 0, .safeMessageRx 0 (ether { pdu with rsv36 := 2 ^ 64 }) 0, .safeMessageRx 0 (ether { pdu with crc := 2 ^ 32 }) 0] : List Instr).all (fun c => !wellFormed c) = true := by decide

theorem test_wf_refuses_acquisition :
    ([.s0Deadline ⟨{ conv with codes := [] }, []⟩ false 0 0, .s0Deadline ⟨{ conv with codes := List.replicate 16 [] }, []⟩ false 0 0,
     .s0Deadline ⟨{ conv with codes := List.replicate 16 [2 ^ 13] }, []⟩ false 0 0, .s0Deadline ⟨⟨[5, 5], List.replicate 16 [0, 0]⟩, []⟩ false 0 0,
     .s0Deadline ⟨conv, [(.a, 0, [2 ^ 13])]⟩ false 0 0, .triggerFire 0 ⟨[], []⟩ 0, .triggerFire 0 { conv with codes := List.replicate 16 [-(2 ^ 13) - 1] } 0,
     .auxPwmPeriod 0 ⟨[0, 0, 0], 0, 0, 0, 0, 0, [], .all⟩ 0, .auxPwmPeriod 0 ⟨[], 0, 0, 0, 0, 0, List.replicate 6 0, .all⟩ 0, .hkRoundDone [2 ^ 16] 0] : List Instr).all (fun c => !wellFormed c) = true := by decide

theorem test_wf_refuses_ports :
    ([.writeCommit .reset (some ⟨0, 0, 16⟩) none none 0, .writeCommit .reset none (some ⟨0, 0, 16⟩) none 0, .writeCommit .reset none none (some ⟨0, 0, 16⟩) 0, .debugWrite ⟨2 ^ 32 + 560, 0, 0⟩ 0,
     .debugWrite ⟨0, 2 ^ 32, 0⟩ 0, .debugWrite ⟨0, 0, 16⟩ 0] : List Instr).all (fun c => !wellFormed c) = true := by decide

/-! ### Single commands -/

/-- No word spells a command (the table gives no row any bits). -/
theorem test_decode_none : decodeTableWord 32 0x12345678 = none ∧ decodeTableWord 0 0 = none := by decide
theorem test_withFetchWord_keeps : State.reset.withFetchWord 32 0 = State.reset := rfl

/-- The state after commands, in order; a stop leaves none. -/
def runs : List Instr → State → Option State
  | [], s => some s
  | c :: l, s =>
    match exec c s with
    | .next t => runs l t
    | _ => none

/-- CRC_RESULT after "123456789" (words 0x34333231 and 0x38373635, then the byte 0x39), as R446 feeds it. -/
def crcOf (poly : Nat) : Option Nat :=
  (runs [.crcCfgWrite poly, .crcDataWrite 2 0x34333231, .crcDataWrite 2 0x38373635, .crcDataWrite 0 0x39] w0).map
    fun s => s.rd CRC_RESULT.RESULT
/-- The check values of R445. -/
theorem test_crc : (List.range 4).map crcOf = [some 0xCBF43926, some 0xE3069283, some 0x29B1, some 0xDF] := by decide +kernel

/-- R31: PERIOD 9 and 101 are refused with CFG_ERR; OVERRUN_LIMIT 0 likewise. -/
theorem test_period_range : ([0x00300009, 0x00300065, 0x00000014].map fun v => (runs [.clkTickCfgWrite v] w0).map fun s =>
    (s.rd CLK_TICK_STATUS.CFG_ERR, s.rd CLK_TICK_CFG.PERIOD, s.rd CLK_TICK_CFG.OVERRUN_LIMIT)) =
    [some (1, 20, 3), some (1, 20, 3), some (1, 20, 3)] := by decide +kernel

/-- R45: HEADROOM takes 50 to 100, MAX_LEVEL 2, and the three trigger enables go off. -/
theorem test_shed_cfg : (runs [.clkShedCfgWrite 0x02006400] w0).map (fun s =>
    (s.rd CLK_SHED_CFG.MAX_LEVEL, s.rd CLK_SHED_CFG.HEADROOM, s.rd CLK_SHED_CFG.THERM_EN)) = some (2, 100, 0) ∧
    (runs [.clkShedCfgWrite 0x02003100] w0).map (fun s => (s.rd CLK_TICK_STATUS.CFG_ERR, s.rd CLK_SHED_CFG.HEADROOM)) =
    some (1, 90) := by decide +kernel

/-- R53, the enabled cell's word 0x80000320 (phase 0, role 0, 800). -/
theorem test_cell_cfg : (runs [.hgsCellCfgWrite 0 0x80000320 .host] w0).map (fun s => (s.enabled 0, s.rdi HGS_CELL_CFG_n.VLINK 0)) =
    some (true, 800) := by decide +kernel

/-- The command in front runs first, and an empty queue idles. -/
theorem test_front : (match step { w0 with pending := [.crcSeedWrite 5, .crcSeedWrite 6] } with
    | .next t => decide (t.rd CRC_SEED.SEED = 5 ∧ t.pending = [.crcSeedWrite 6])
    | _ => false) = true := by decide +kernel
theorem test_idle : step State.reset = .next State.reset := rfl

/-! ### The hypotheses of the statements are met, clause by clause -/

/-- Most clauses ask only that the main supply is on. -/
theorem test_meets_main_on : w0.pwr.mainOn = true := by decide +kernel

theorem test_meets_AcquisitionEvents :
    (∃ (s : State) (n : Fin 16) (x : Stream) (e : Nat),
        s.pwr.mainOn = true ∧ (s.moveTo e).trigDue n e = true ∧ x.edges.getD (firstEdge x e) (e + 16) < e + 16 ∧ e < s.adc.busy.getD n 0) ∧
    (∃ (s : State) (n : Fin 16) (x : Stream) (e : Nat),
        ((s.moveTo e).trigDue n e = false ∨ e + 16 ≤ x.edges.getD (firstEdge x e) (e + 16)) ∧ s.pwr.mainOn = true) ∧
    (∃ (s : State) (n : Fin 16) (x : Stream) (e i a k : Nat),
        s.pwr.mainOn = true ∧ s.tm.e ≤ e ∧ (s.moveTo e).trigDue n e = true ∧ x.wf = true ∧ i = firstEdge x e ∧ x.edges.getD i (e + 16) < e + 16 ∧ s.adc.busy.getD n 0 ≤ e ∧ a = 2 ^ s.rdi ADC_TRIG_CFG_t.AVG n ∧ k = min (s.rdi ADC_TRIG_CFG_t.BURST n) ((x.edges.length - i) / a) ∧ (∀ m : Fin 16, s.rdi CMP_CFG_n.PERIOD_SRC m = n → s.rdi CMP_CFG_n.MODE m = 0 ∧ (s.cmp m).raw = false ∧ bitOf s.slc.live m = false) ∧ s.adc.queues.length = 8 ∧ s.rdi ADC_TRIG_CFG_t.QUEUE n < 8 ∧ s.qstate (s.rdi ADC_TRIG_CFG_t.QUEUE n) = 1 ∧ s.biti ADC_Q_CFG_q.DRAIN (s.rdi ADC_TRIG_CFG_t.QUEUE n) = false ∧ (s.queue (s.rdi ADC_TRIG_CFG_t.QUEUE n)).ingress = [] ∧ (s.queue (s.rdi ADC_TRIG_CFG_t.QUEUE n)).arr = [] ∧ k = 1) ∧
    (∃ (s : State) (q : Fin 8) (e f : Nat) (b : Buf),
        s.pwr.mainOn = true ∧ s.adc.queues.length = 8 ∧ s.qstate q = 1 ∧ s.drains q = true ∧ (s.queue q).ingress = [] ∧ (s.queue q).arr = [] ∧ (s.queue q).ents.length < 64 ∧ (s.queue q).firstAt = some f ∧ f + 100000 ≤ (s.moveTo e).tm.e ∧ s.bufFor q = some b ∧ b.filled + 8 * (s.queue q).ents.length < b.len) ∧
    (∃ (s : State) (h : DescHdr) (m : Nat) (q : Fin 8),
        (match s.startDesc h 0x07 with
        | .go d u => decide (s.pwr.mainOn = true ∧ s.rdi RING_CFG_n.TYPE h.ring = 0 ∧ s.ringWaits h.ring = true)
        | .wait _ => false) = true) ∧
    (∃ (s : State) (h : DescHdr) (m : Nat) (q : Fin 8),
        (match s.startDesc h 0x07 with
        | .go d u => decide (s.pwr.mainOn = true ∧ s.rdi RING_CFG_n.TYPE h.ring = 0 ∧ s.ringWaits h.ring = false ∧ s.rd CLK_TICK_STATUS.SHED_LEVEL < 4 ∧ s.qstate q = 2 ∧ bitOf m q = true ∧ s.biti ADC_Q_CAP_q.HOST q = true)
        | .wait _ => false) = true) ∧
    (∃ (s : State) (h : DescHdr) (m : Nat) (q : Fin 8),
        (match s.startDesc h 0x07 with
        | .go d u => decide (s.pwr.mainOn = true ∧ s.rdi RING_CFG_n.TYPE h.ring = 0 ∧ s.ringWaits h.ring = false ∧ s.rd CLK_TICK_STATUS.SHED_LEVEL < 4 ∧ ¬(s.qstate q = 2 ∧ bitOf m q = true ∧ s.biti ADC_Q_CAP_q.HOST q = true))
        | .wait _ => false) = true) ∧
    (∃ (s u : State) (n : Fin 16) (x : Int) (e : Nat),
        s.pwr.mainOn = true ∧ s.adc.cmp.length = 16 ∧ u = (s.moveTo e).cmpLook ∧ s.rdi CMP_CFG_n.FILT n = 0 ∧ s.biti CMP_CFG_n.RAMP n = false ∧ s.adc.dacCorr.getD n 0 = 0 ∧ (u.cmp n).raw = false ∧ bitOf u.slc.live n = false ∧ s.rdi CMP_CFG_n.MODE n = 3 ∧ (s.rdsi CMP_CFG_n.REF n * 64).natAbs < x.natAbs ∧ u.blanked n = false ∧ 1 ≤ s.rdi SLC_CMP_ROUTE_n.ACTION n ∧ s.rdi SLC_CMP_ROUTE_n.PHASE n ≤ 2 ∧ u.rd SLC_BLOCK_STATUS.PHASES < 8) ∧
    (∃ (s u : State) (n : Fin 16) (x : Int) (e : Nat),
        s.pwr.mainOn = true ∧ s.adc.cmp.length = 16 ∧ u = (s.moveTo e).cmpLook ∧ s.rdi CMP_CFG_n.FILT n = 0 ∧ s.biti CMP_CFG_n.RAMP n = false ∧ s.adc.dacCorr.getD n 0 = 0 ∧ (u.cmp n).raw = false ∧ bitOf u.slc.live n = false ∧ s.rdi CMP_CFG_n.MODE n = 1 ∧ x ≤ s.rdsi CMP_CFG_n.REF n * 64) ∧
    (∃ (s u : State) (n : Fin 16) (x : Int) (e : Nat),
        s.pwr.mainOn = true ∧ s.adc.cmp.length = 16 ∧ u = (s.moveTo e).cmpLook ∧ (u.cmp n).raw = bitOf u.slc.live n ∧ 1 ≤ s.rdi CMP_CFG_n.FILT n) ∧
    (∃ (s u : State) (n : Fin 16) (x : Int) (e : Nat),
        s.pwr.mainOn = true ∧ s.adc.cmp.length = 16 ∧ u = (s.moveTo e).cmpLook ∧ (u.cmp n).raw = bitOf u.slc.live n ∧ s.rdi CMP_CFG_n.FILT n = 0 ∧ bitOf u.slc.live n = true) ∧
    (∃ (s : State) (n : Fin 16) (x : Int) (e : Nat),
        s.pwr.mainOn = true ∧ s.adc.cmp.length = 16 ∧ (s.cmp n).raw = true ∧ bitOf s.slc.live n = false ∧ (s.cmp n).rawAt + s.rdi CMP_CFG_n.FILT n * 4 ≤ (s.moveTo e).tm.e) ∧
    (∃ (s : State) (e : Nat),
        s.pwr.mainOn = true ∧ s.adc.hkAt + s.rd ADC_HK_CFG.PERIOD * 1000 ≤ (s.moveTo e).tm.e ∧ (s.tm.run = true → (s.moveTo e).tm.e = s.tm.start) ∧ s.tm.run = true) ∧
    (∃ (s : State) (l : List Nat) (e : Nat) (c : Fin 48) (v : Nat),
        s.pwr.mainOn = true ∧ s.adc.hkRun = true ∧ l[c.val]? = some v ∧ (c.val < 24 → bitOf (s.rd ADC_HK_EN.EN) c = true)) :=
  ⟨⟨onAdc (w0.wri ADC_TRIG_CFG_t.EN 0 1) fun x => { x with busy := x.busy.set 0 5 }, 0, conv, 0, by decide +kernel⟩,
   ⟨w0, 0, conv, 0, by decide +kernel⟩,
   ⟨((w0.wri ADC_TRIG_CFG_t.EN 0 1).wri ADC_TRIG_CFG_t.BURST 0 1).wri ADC_Q_STATUS_q.STATE 0 1, 0, conv, 0, 0, 1, 1, by decide +kernel⟩,
   ⟨onHst (onAdc ((w0.wri ADC_Q_STATUS_q.STATE 0 1).wri ADC_Q_CFG_q.DRAIN 0 1) fun x => { x with queues := x.queues.set 0 ⟨[⟨7, 0, false, false, false, 0, 0, 5⟩], [], 0, false, true, 0, 0, []⟩ }) fun x => { x with bufs := [buf0] }, 0, 100007, 7, buf0, by decide +kernel⟩,
   ⟨onHst (wd 0) fun x => { x with waits := [.capture desc0 5] }, hd, 2, 1, by decide +kernel⟩,
   ⟨((((wd 0).wr CLK_TICK_STATUS.SHED_LEVEL 0).wri ADC_Q_STATUS_q.STATE 1 2).wri ADC_Q_CAP_q.HOST 1 1), hd, 2, 1, by decide +kernel⟩,
   ⟨((wd 0).wr CLK_TICK_STATUS.SHED_LEVEL 0), hd, 0, 1, by decide +kernel⟩,
   ⟨((((w0.wri CMP_CFG_n.MODE 1 3).wri CMP_CFG_n.REF 1 10).wri CMP_CFG_n.FILT 1 0).wri SLC_CMP_ROUTE_n.ACTION 1 1).wr SLC_BLOCK_STATUS.PHASES 0, ((((((w0.wri CMP_CFG_n.MODE 1 3).wri CMP_CFG_n.REF 1 10).wri CMP_CFG_n.FILT 1 0).wri SLC_CMP_ROUTE_n.ACTION 1 1).wr SLC_BLOCK_STATUS.PHASES 0).moveTo 1).cmpLook, 1, -641, 1, by decide +kernel⟩,
   ⟨((w0.wri CMP_CFG_n.MODE 1 1).wri CMP_CFG_n.REF 1 10).wri CMP_CFG_n.FILT 1 0, ((((w0.wri CMP_CFG_n.MODE 1 1).wri CMP_CFG_n.REF 1 10).wri CMP_CFG_n.FILT 1 0).moveTo 1).cmpLook, 1, 640, 1, by decide +kernel⟩,
   ⟨(w0.wri CMP_CFG_n.MODE 1 1).wri CMP_CFG_n.FILT 1 1, (((w0.wri CMP_CFG_n.MODE 1 1).wri CMP_CFG_n.FILT 1 1).moveTo 1).cmpLook, 1, 640, 1, by decide +kernel⟩,
   ⟨onSlc (onAdc ((w0.wri CMP_CFG_n.MODE 1 1).wri CMP_CFG_n.FILT 1 0) fun x => { x with cmp := x.cmp.set 1 ⟨700, true, 0, 0, 0, some 0⟩ }) fun x => { x with live := 2 }, ((onSlc (onAdc ((w0.wri CMP_CFG_n.MODE 1 1).wri CMP_CFG_n.FILT 1 0) fun x => { x with cmp := x.cmp.set 1 ⟨700, true, 0, 0, 0, some 0⟩ }) fun x => { x with live := 2 }).moveTo 1).cmpLook, 1, 640, 1, by decide +kernel⟩,
   ⟨onAdc ((w0.wri CMP_CFG_n.MODE 1 1).wri CMP_CFG_n.FILT 1 2) fun x => { x with cmp := x.cmp.set 1 ⟨700, true, 0, 0, 0, none⟩ }, 1, 700, 8, by decide +kernel⟩,
   ⟨onTm w0 fun x => { x with start := 100000000000000 }, 100000000000000, by decide +kernel⟩,
   ⟨onAdc (w0.wr ADC_HK_EN.EN 1) fun x => { x with hkRun := true }, [5], 1, 0, 5, by decide +kernel⟩⟩

theorem test_meets_AcquisitionConfiguration :
    (∃ (s : State) (q : Fin 8) (v : Nat),
        s.pwr.mainOn = true ∧ (bits v 29 2 = 3 ∨ bits v 0 13 = 0 ∨ 4095 < bits v 0 13 ∨ s.rdi RING_CFG_n.TYPE (bits v 22 6) ≠ 3)) ∧
    (∃ (s : State) (q : Fin 8) (v : Nat),
        s.pwr.mainOn = true ∧ bits v 29 2 ≠ 3 ∧ 1 ≤ bits v 0 13 ∧ bits v 0 13 ≤ 4095 ∧ s.rdi RING_CFG_n.TYPE (bits v 22 6) = 3 ∧ s.adc.queues.length = 8 ∧ bits v 31 1 = 0) ∧
    (∃ (s : State) (q : Fin 8) (v : Nat),
        s.pwr.mainOn = true ∧ bits v 29 2 ≠ 3 ∧ 1 ≤ bits v 0 13 ∧ bits v 0 13 ≤ 4095 ∧ s.rdi RING_CFG_n.TYPE (bits v 22 6) = 3 ∧ s.adc.queues.length = 8 ∧ bits v 31 1 = 1 ∧ s.biti ADC_Q_CFG_q.EN q = false) ∧
    (∃ (s : State) (q : Fin 8),
        s.pwr.mainOn = true ∧ (s.qRun q s.tm.e).qstate q = 5 ∧ s.biti ADC_Q_CFG_q.EN q = true) ∧
    (∃ (s : State) (q : Fin 8),
        s.pwr.mainOn = true ∧ ¬((s.qRun q s.tm.e).qstate q = 5 ∧ s.biti ADC_Q_CFG_q.EN q = true)) ∧
    (∃ (s u : State) (v e : Nat) (n : Fin 16),
        s.pwr.mainOn = true ∧ u = (s.moveTo e).cmpLook ∧ bitOf v n = true ∧ s.rdi CMP_CFG_n.CLR n = 0 ∧ bitOf (u.rd CMP_STATUS.LATCH) n = true ∧ bitOf u.slc.live n = false ∧ (u.cmp n).setAt.any (fun x => decide (x / 4 = (s.moveTo e).tm.e / 4)) = true) ∧
    (∃ (s u : State) (v e : Nat) (n : Fin 16),
        s.pwr.mainOn = true ∧ u = (s.moveTo e).cmpLook ∧ bitOf v n = true ∧ s.rdi CMP_CFG_n.CLR n = 0 ∧ bitOf (u.rd CMP_STATUS.LATCH) n = true ∧ bitOf u.slc.live n = false ∧ (u.cmp n).setAt.any (fun x => decide (x / 4 = (s.moveTo e).tm.e / 4)) = false) ∧
    (∃ (s : State) (n : Fin 16),
        s.pwr.mainOn = true ∧ (s.cmp n).raw = bitOf s.slc.live n ∧ s.rdi CMP_CFG_n.MODE n ≠ 0 ∧ 1 ≤ s.rdi CMP_CFG_n.FILT n ∧ bitOf (s.rd CMP_STATUS.LATCH) n = true) ∧
    (∃ (s : State) (n : Fin 16) (v : Nat),
        s.pwr.mainOn = true ∧ bits v 23 5 ≤ 16 ∧ bits v 30 2 = 0 ∧ (s.cmp n).raw = bitOf s.slc.live n) ∧
    (∃ (s : State) (n : Fin 16) (v : Nat),
        s.pwr.mainOn = true ∧ bits v 23 5 ≤ 16 ∧ bits v 30 2 ≠ 0 ∧ (s.cmp n).raw = bitOf s.slc.live n ∧ 1 ≤ bits v 20 3) ∧
    (∃ (s : State) (n : Fin 16) (v : Nat),
        s.pwr.mainOn = true ∧ 16 < bits v 23 5) ∧
    (∃ (s : State) (n : Fin 16) (v : Nat),
        s.pwr.mainOn = true ∧ bits v 24 5 ≤ 16 ∧ bits v 22 2 ≠ 3 ∧ (1 ≤ bits v 24 5 → bits v 24 5 ≤ 15 → 1 ≤ bits v 0 16 ∧ ∀ m : Fin 16, m ≠ n → s.rdi ADC_CH_CFG_n.FUNC m ≠ bits v 24 5) ∧ (s.allBlocked = true ∨ s.rdi ADC_CH_CFG_n.FUNC n = 0 ∨ 16 ≤ s.rdi ADC_CH_CFG_n.FUNC n)) ∧
    (∃ (s : State) (n : Fin 16) (v : Nat),
        s.pwr.mainOn = true ∧ (16 < bits v 24 5 ∨ bits v 22 2 = 3 ∨ (1 ≤ bits v 24 5 ∧ bits v 24 5 ≤ 15 ∧ (bits v 0 16 = 0 ∨ ∃ m : Fin 16, m ≠ n ∧ s.rdi ADC_CH_CFG_n.FUNC m = bits v 24 5)))) ∧
    (∃ (s : State) (n : Fin 16) (v : Nat),
        s.pwr.mainOn = true ∧ 8192 ≤ bits v 16 16 ∧ bits v 16 16 ≤ 32767) ∧
    (∃ (s : State) (n : Fin 16) (v : Nat),
        s.pwr.mainOn = true ∧ (bits v 16 16 < 8192 ∨ 32767 < bits v 16 16)) ∧
    (∃ (s : State) (v : Nat),
        s.pwr.mainOn = true ∧ bits v 29 3 ≠ 7 ∧ bits v 0 13 + 430 ≤ s.rdi CLK_TICK_DEADLINE_n.DEADLINE 0 * 10) ∧
    (∃ (s : State) (v : Nat),
        s.pwr.mainOn = true ∧ (bits v 29 3 = 7 ∨ s.rdi CLK_TICK_DEADLINE_n.DEADLINE 0 * 10 < bits v 0 13 + 430)) ∧
    (∃ (s : State) (v e : Nat),
        s.pwr.mainOn = true ∧ s.bit PWR_STATUS.SLEEP = true) ∧
    (∃ (s : State) (v e : Nat) (n : Fin 16),
        s.pwr.mainOn = true ∧ s.bit PWR_STATUS.SLEEP = false ∧ s.biti ADC_TRIG_CFG_t.EN n = true ∧ bitOf v n = true ∧ s.rdi ADC_TRIG_CFG_t.SRC n = 5 ∧ s.adc.fire ≠ []) :=
  ⟨⟨w0, 1, 0x60000000, by decide +kernel⟩,
   ⟨(w0.wri RING_CFG_n.TYPE (bits 0x1 22 6) 3), 1, 0x1, by decide +kernel⟩,
   ⟨((w0.wri RING_CFG_n.TYPE (bits 0x80000001 22 6) 3).wri ADC_Q_CFG_q.EN 1 0), 1, 0x80000001, by decide +kernel⟩,
   ⟨((w0.wri ADC_Q_STATUS_q.STATE 1 5).wri ADC_Q_CFG_q.EN 1 1), 1, by decide +kernel⟩,
   ⟨w0, 1, by decide +kernel⟩,
   ⟨onAdc (w0.wr CMP_STATUS.LATCH 2) fun x => { x with cmp := x.cmp.set 1 ⟨0, false, 0, 0, 0, some 4⟩ }, ((onAdc (w0.wr CMP_STATUS.LATCH 2) fun x => { x with cmp := x.cmp.set 1 ⟨0, false, 0, 0, 0, some 4⟩ }).moveTo 7).cmpLook, 2, 7, 1, by decide +kernel⟩,
   ⟨onAdc (w0.wr CMP_STATUS.LATCH 2) fun x => { x with cmp := x.cmp.set 1 ⟨0, false, 0, 0, 0, some 4⟩ }, ((onAdc (w0.wr CMP_STATUS.LATCH 2) fun x => { x with cmp := x.cmp.set 1 ⟨0, false, 0, 0, 0, some 4⟩ }).moveTo 8).cmpLook, 2, 8, 1, by decide +kernel⟩,
   ⟨((w0.wr CMP_STATUS.LATCH 2).wri CMP_CFG_n.MODE 1 1).wri CMP_CFG_n.FILT 1 1, 1, by decide +kernel⟩,
   ⟨w0, 1, 0x0, by decide +kernel⟩,
   ⟨w0, 1, 0x40100000, by decide +kernel⟩,
   ⟨w0, 1, 0x8800000, by decide +kernel⟩,
   ⟨w0, 1, 0x0, by decide +kernel⟩,
   ⟨w0, 1, 0x11000000, by decide +kernel⟩,
   ⟨w0, 1, 0x20000000, by decide +kernel⟩,
   ⟨w0, 1, 0x0, by decide +kernel⟩,
   ⟨w0, 0x0, by decide +kernel⟩,
   ⟨w0, 0xe0000000, by decide +kernel⟩,
   ⟨w0.wr PWR_STATUS.SLEEP 1, 1, 1, by decide +kernel⟩,
   ⟨onAdc ((w0.wri ADC_TRIG_CFG_t.EN 3 1).wri ADC_TRIG_CFG_t.SRC 3 5) fun x => { x with fire := [(3, 0)] }, 8, 1, 3, by decide +kernel⟩⟩

theorem test_meets_MotorChannelCommands_0 :
    (∃ (s : State) (m : Fin 2) (e : Nat),
        s.pwr.mainOn = true ∧ 2 ≤ s.stage ∧ s.biti AUX_CH_CFG_m.EN m = true ∧ (s.astate m = 0 ∨ s.astate m = 6) ∧ (s.moveTo e).routeActs m = false ∧ s.legsSet m = false) ∧
    (∃ (s : State) (m : Fin 2) (e : Nat),
        s.pwr.mainOn = true ∧ s.astate m = 4) ∧
    (∃ (s : State) (m : Fin 2) (e : Nat),
        s.pwr.mainOn = true ∧ s.astate m = 1) ∧
    (∃ (s : State) (m : Fin 2) (e : Nat),
        s.pwr.mainOn = true ∧ s.astate m = 0 ∧ 2 ≤ s.stage ∧ (s.moveTo e).routeActs m = false ∧ s.legsSet m = false) ∧
    (∃ (s : State) (m : Fin 2) (x : DiagIn) (e : Nat),
        s.astate m = 1 ∧ (s.ach m).since + (if diagTurning x then 5000000000 else 4000000) ≤ (s.moveTo e).tm.e ∧ diagBits x ≠ 0) ∧
    (∃ (s : State) (m : Fin 2) (x : DiagIn) (e : Nat),
        s.astate m = 1 ∧ (s.ach m).since + (if diagTurning x then 5000000000 else 4000000) ≤ (s.moveTo e).tm.e ∧ diagBits x = 0 ∧ (s.ach m).diagOnly = false) ∧
    (∃ (s : State) (m : Fin 2) (x : DiagIn) (e : Nat),
        s.astate m = 1 ∧ (s.ach m).since + (if diagTurning x then 5000000000 else 4000000) ≤ (s.moveTo e).tm.e ∧ diagBits x = 0 ∧ (s.ach m).diagOnly = true) ∧
    (∃ (s : State) (m : Fin 2) (e : Nat),
        s.astate m = 2 ∧ (s.ach m).since + s.rdi AUX_START_m.ALIGN_MS m * 10000000 ≤ (s.moveTo e).tm.e) ∧
    (∃ (s : State) (m : Fin 2) (e : Nat) (a : Nat),
        s.astate m = 3 ∧ (s.ach m).agree = some a ∧ a + 10000000 ≤ (s.moveTo e).tm.e) ∧
    (∃ (s : State) (m : Fin 2) (o : Observer) (e : Nat),
        s.bit TRI_STATUS.DBG_HALT = false ∧ s.astate m = 5 ∧ (o.speed : Rat) < s.handover m ∧ (s.ach m).toFault = false) ∧
    (∃ (s : State) (m : Fin 2) (c : PhaseSample) (e : Nat),
        s.bit TRI_STATUS.DBG_HALT = false ∧ 2 ≤ s.astate m ∧ s.astate m ≤ 5 ∧ c.agree = .all ∧ s.aux.length = 2 ∧ s.sixStep m = false ∧ (legCurrents (if s.sixStep m then 0 else s.rdi AUX_CH_CFG_m.SAMP_MIN m * 250) c).isSome = true) ∧
    (∃ (s : State) (m : Fin 2) (c : PhaseSample) (e : Nat),
        s.bit TRI_STATUS.DBG_HALT = false ∧ 2 ≤ s.astate m ∧ s.astate m ≤ 5 ∧ c.agree = .all ∧ s.aux.length = 2 ∧ s.sixStep m = false ∧ legCurrents (if s.sixStep m then 0 else s.rdi AUX_CH_CFG_m.SAMP_MIN m * 250) c = none) ∧
    (∃ (s : State) (m : Fin 2) (c : PhaseSample) (e : Nat),
        s.bit TRI_STATUS.DBG_HALT = false ∧ 2 ≤ s.astate m ∧ s.astate m ≤ 5 ∧ c.agree = .all ∧ s.aux.length = 2 ∧ s.sixStep m = true) ∧
    (∃ (s : State) (m : Fin 2),
        s.astate m = 4 ∧ s.rdi AUX_CH_CFG_m.SKIP_MAX m ≤ (s.ach m).skips ∧ s.rdi AUX_STATUS_m.CAP m = 0) ∧
    (∃ (s : State) (m : Fin 2) (ke : Nat) (e : Nat),
        s.astate m = 4 ∧ (s.ach m).keAt.getD ((s.ach m).steady + 1000000000) + 1000000000 ≤ (s.moveTo e).tm.e ∧ ((s.rdi AUX_RAMP_m.SPD_MAX m * 3 : Nat) : Rat) ≤ (s.ach m).ref ∧ (ke : Rat) < (s.rdi AUX_MOTOR2_m.KE m : Rat) * (1 - (s.rdi AUX_MOTOR2_m.KE_TOL m : Rat) / 100)) ∧
    (∃ (s : State) (v : Nat) (e : Nat),
        v < s.rd AUX_BUS_CFG.UV) :=
  ⟨⟨(((w0.wr HOST_STATUS.STAGE 2).wri AUX_CH_CFG_m.EN 1 1).wri AUX_STATUS_m.STATE 1 0), 1, 100000000000000, by decide +kernel⟩,
   ⟨(w0.wri AUX_STATUS_m.STATE 1 4), 1, 100000000000000, by decide +kernel⟩,
   ⟨(w0.wri AUX_STATUS_m.STATE 1 1), 1, 100000000000000, by decide +kernel⟩,
   ⟨((w0.wri AUX_STATUS_m.STATE 1 0).wr HOST_STATUS.STAGE 2), 1, 100000000000000, by decide +kernel⟩,
   ⟨(w0.wri AUX_STATUS_m.STATE 1 1), 1, ⟨100, [(0, 0), (50, 50), (50, 50)], [50, 50, 50]⟩, 100000000000000, by decide +kernel⟩,
   ⟨(onAux (w0.wri AUX_STATUS_m.STATE 1 1) 1 fun x => { x with diagOnly := false }), 1, ⟨100, [(50, 50), (50, 50), (50, 50)], [50, 50, 50]⟩, 100000000000000, by decide +kernel⟩,
   ⟨(onAux (w0.wri AUX_STATUS_m.STATE 1 1) 1 fun x => { x with diagOnly := true }), 1, ⟨100, [(50, 50), (50, 50), (50, 50)], [50, 50, 50]⟩, 100000000000000, by decide +kernel⟩,
   ⟨(w0.wri AUX_STATUS_m.STATE 1 2), 1, 100000000000000, by decide +kernel⟩,
   ⟨(onAux (w0.wri AUX_STATUS_m.STATE 1 3) 1 fun x => { x with agree := some 0 }), 1, 100000000000000, 0, by decide +kernel⟩,
   ⟨(onAux ((w0.wr TRI_STATUS.DBG_HALT 0).wri AUX_STATUS_m.STATE 1 5) 1 fun x => { x with toFault := false }), 1, ⟨0, 0⟩, 100000000000000, by decide +kernel⟩,
   ⟨w0.wri AUX_STATUS_m.STATE 1 4, 1, ⟨[0, 100000000, 100000000], 5, -2, -3, 0, 0, [], .all⟩, 1, by decide +kernel⟩,
   ⟨(w0.wri AUX_STATUS_m.STATE 1 4).wri AUX_CH_CFG_m.SAMP_MIN 1 1, 1, ⟨[0, 0, 100000000], 5, -2, -3, 0, 0, [], .all⟩, 1, by decide +kernel⟩,
   ⟨onAux ((w0.wri AUX_STATUS_m.STATE 1 4).wri AUX_CH_CFG_m.SIXSTEP 1 1) 1 fun x => { x with vd := 10000 }, 1, ⟨[0, 0, 0], 5, -2, -3, 0, 0, [], .all⟩, 1, by decide +kernel⟩,
   ⟨onAux (w0.wri AUX_STATUS_m.STATE 0 4) 0 fun x => { x with skips := 100 }, 0, by decide +kernel⟩,
   ⟨onAux ((w0.wri AUX_STATUS_m.STATE 0 4).wri AUX_MOTOR2_m.KE 0 100) 0 fun x => { x with ref := 1000000 }, 0, 1, 100000000000000, by decide +kernel⟩,
   ⟨w0, 0, 100000000000000, by decide +kernel⟩⟩

theorem test_meets_MotorChannelCommands_1 :
    (∃ (s : State) (v e : Nat),
        v < s.rd AUX_BUS_CFG.UV ∧ s.astate 0 = 4 ∧ s.astate 1 = 1) ∧
    (∃ (s : State) (v e : Nat),
        s.rd AUX_BUS_CFG.UV + 10 ≤ v ∧ (s.ach 0).resume = true ∧ s.astate 0 = 0) ∧
    (∃ (s : State) (v : Nat) (e : Nat),
        s.rd AUX_BUS_CFG.UV + 10 ≤ v) ∧
    (∃ (s : State) (v : Nat) (e : Nat),
        s.rd AUX_BUS_CFG.OV < v) ∧
    (∃ (s : State) (v : Nat) (e : Nat),
        v < 90) ∧
    (∃ (s : State) (v : Nat) (e : Nat),
        s.rd AUX_BUS_CFG.REGEN < v) ∧
    (∃ (s : State) (v : Nat) (e : Nat),
        v + 10 ≤ s.rd AUX_BUS_CFG.REGEN) :=
  ⟨⟨(w0.wri AUX_STATUS_m.STATE 0 4).wri AUX_STATUS_m.STATE 1 1, 0, 1, by decide +kernel⟩,
   ⟨onAux w0 0 fun x => { x with resume := true }, 1000, 1, by decide +kernel⟩,
   ⟨w0, 1000, 1, by decide +kernel⟩,
   ⟨w0, 1000, 1, by decide +kernel⟩,
   ⟨w0, 0, 100000000000000, by decide +kernel⟩,
   ⟨w0, 1000, 1, by decide +kernel⟩,
   ⟨w0, 0, 100000000000000, by decide +kernel⟩⟩

theorem test_meets_ClockAndSyncCommands_0 :
    (∃ (s : State) (dxa : Int) (dxb : Int) (dab : Int) (e : Nat),
        s.pwr.mainOn = true ∧ (∀ i, i < 3 → s.refValidNow i = true) ∧ (s.rd CLK_REF_CFG.WINDOW : Int) * 1000 < absI dxa ∧ (s.rd CLK_REF_CFG.WINDOW : Int) * 1000 < absI dab ∧ absI dxb ≤ (s.rd CLK_REF_CFG.WINDOW : Int) * 1000) ∧
    (∃ (s : State) (i : Fin 3) (e : Nat),
        s.pwr.mainOn = true ∧ s.refOn i = true ∧ s.rd CLK_REF_STATUS.SEL = i.val) ∧
    (∃ (s : State) (i : Fin 3) (e : Nat),
        s.pwr.mainOn = true ∧ bitOf (s.rd CLK_REF_STATUS.LOST) i = true ∧ (s.clk.edges.getD i none).getD 0 + 1000000000 ≤ (s.moveTo e).tm.e) ∧
    (∃ (s : State) (i : Fin 3) (e : Nat) (a : Nat),
        s.pwr.mainOn = true ∧ bitOf (s.rd CLK_REF_STATUS.OUT) i = true ∧ s.clk.agree.getD i none = some a ∧ a + 10000000000 ≤ (s.moveTo e).tm.e) ∧
    (∃ (s : State) (b : Nat) (e : Nat),
        s.pwr.mainOn = true ∧ s.clk.moveTo = some b) ∧
    (∃ (s : State) (c : Nat) (e : Nat),
        s.pwr.mainOn = true ∧ s.clk.calm = some c ∧ s.rd CLK_REF_STATUS.COAST = 1 ∧ c + 10000000000 ≤ (s.moveTo e).tm.e) ∧
    (∃ (s : State) (vs : List (Nat × Nat)),
        s.pwr.mainOn = true ∧ s.clk.divPend = some vs) ∧
    (∃ (s : State) (p : Fin 3) (e : Nat),
        s.pwr.mainOn = true ∧ s.rd CLK_REF_STATUS.COAST = 0 ∧ bitOf (s.rd CLK_REF_STATUS.LOST) (s.rd CLK_REF_STATUS.SEL) = false ∧ bitOf (s.rd CLK_PLL_STATUS.LOCKED) p = false) ∧
    (∃ (s : State) (p : Fin 3) (v : Nat),
        s.pwr.mainOn = true ∧ bits v 0 24 ≠ 0) ∧
    (∃ (s : State) (p : Fin 3) (v : Nat),
        s.pwr.mainOn = true ∧ bits v 0 24 = 0) ∧
    (∃ (s : State) (e : Nat),
        s.pwr.mainOn = true ∧ s.bit PWR_WAKE_EN.ALARM = true ∧ s.rd CLK_ALARM_HI.A_HI * 2 ^ 32 + s.rd CLK_ALARM_LO.A_LO ≤ (s.moveTo e).tm.e ∧ s.bit PWR_STATUS.SLEEP = true) ∧
    (∃ (s : State) (e : Nat) (n : Nat),
        s.pwr.mainOn = true ∧ s.bit SYNC_CFG.EN = true ∧ s.bit SYNC_PPS_STATUS.SEC_VALID = true ∧ ((s.moveTo e).stime + 500000000) / 1000000000 = (s.rd SYNC_SEC.NEXT : Int) ∧ absI ((s.moveTo e).stime - (s.rd SYNC_SEC.NEXT : Int) * 1000000000) ≤ (s.rd SYNC_CFG.SLEW_WINDOW : Int) * 1000 ∧ absI ((s.moveTo e).stime - (s.rd SYNC_SEC.NEXT : Int) * 1000000000) ≤ 1000) ∧
    (∃ (s : State) (e : Nat) (n : Nat),
        s.pwr.mainOn = true ∧ s.bit SYNC_CFG.EN = true ∧ s.bit SYNC_PPS_STATUS.SEC_VALID = true ∧ ((s.moveTo e).stime + 500000000) / 1000000000 = (s.rd SYNC_SEC.NEXT : Int) ∧ (s.rd SYNC_CFG.SLEW_WINDOW : Int) * 1000 < absI ((s.moveTo e).stime - (s.rd SYNC_SEC.NEXT : Int) * 1000000000)) ∧
    (∃ (s : State) (e : Nat),
        s.pwr.mainOn = true ∧ s.bit SYNC_CFG.EN = true ∧ s.bit SYNC_PPS_STATUS.SEC_VALID = true ∧ (s.rd SYNC_SEC.NEXT : Int) * 1000000000 + 500000000 ≤ (s.moveTo e).stime) :=
  ⟨⟨(w0.wr CLK_REF_CFG.REFA_EN 1).wr CLK_REF_CFG.REFB_EN 1 |>.wr CLK_REF_STATUS.LOST 0, 1000000000, 0, 1000000000, 1, by decide +kernel⟩,
   ⟨w0.wr CLK_REF_STATUS.SEL 0, 0, 1, by decide +kernel⟩,
   ⟨w0.wr CLK_REF_STATUS.LOST 2, 1, 100000000000000, by decide +kernel⟩,
   ⟨onClk (w0.wr CLK_REF_STATUS.OUT 2) fun x => { x with agree := x.agree.set 1 (some 0) }, 1, 100000000000000, 0, by decide +kernel⟩,
   ⟨(onClk w0 fun x => { x with moveTo := some 0 }), 0, 100000000000000, by decide +kernel⟩,
   ⟨(onClk (w0.wr CLK_REF_STATUS.COAST 1) fun x => { x with calm := some 0 }), 0, 100000000000000, by decide +kernel⟩,
   ⟨(onClk w0 fun x => { x with divPend := some ([]) }), [], by decide +kernel⟩,
   ⟨(w0.wr CLK_REF_STATUS.COAST 0), 1, 100000000000000, by decide +kernel⟩,
   ⟨w0, 1, 0x1, by decide +kernel⟩,
   ⟨w0, 1, 0x0, by decide +kernel⟩,
   ⟨((w0.wr PWR_WAKE_EN.ALARM 1).wr PWR_STATUS.SLEEP 1), 100000000000000, by decide +kernel⟩,
   ⟨onClk (onTm ((w0.wr SYNC_CFG.EN 1).wr SYNC_PPS_STATUS.SEC_VALID 1) fun x => { x with o := 0 }) fun x => { x with slew := 0, slewLeft := none }, 0, 1, by decide +kernel⟩,
   ⟨onClk (onTm (((w0.wr SYNC_CFG.EN 1).wr SYNC_SEC.NEXT 1).wr SYNC_PPS_STATUS.SEC_VALID 1) fun x => { x with o := 0 }) fun x => { x with slew := 0, slewLeft := none }, 600000000, 1, by decide +kernel⟩,
   ⟨((w0.wr SYNC_CFG.EN 1).wr SYNC_PPS_STATUS.SEC_VALID 1), 100000000000000, by decide +kernel⟩⟩

theorem test_meets_ClockAndSyncCommands_1 : ∃ (s : State) (e : Nat) (x : Int),
    s.pwr.mainOn = true ∧ s.clk.stepPend = some x ∧ s.tm.run = false :=
  ⟨(onTm (onClk w0 fun x => { x with stepPend := some 0 }) fun x => { x with run := false }), 100000000000000, 0, by decide +kernel⟩

theorem test_meets_ControlModeCommands :
    (∃ (s : State) (v : Nat),
        s.pwr.mainOn = true ∧ bits v 26 2 ≠ 3 ∧ 1 ≤ bits v 8 8 ∧ ¬(bits v 31 1 = 1 ∧ s.rd CTL_MODE.MODE_REQ = 0 ∧ s.law.src.gfm = true)) ∧
    (∃ (s : State) (v : Nat),
        s.pwr.mainOn = true ∧ (bits v 26 2 = 3 ∨ bits v 8 8 = 0 ∨ (bits v 31 1 = 1 ∧ s.rd CTL_MODE.MODE_REQ = 0 ∧ s.law.src.gfm = true))) ∧
    (∃ (s : State) (v : Nat),
        s.pwr.mainOn = true ∧ (bits v 26 2 = 3 ∨ bits v 8 8 = 0 ∨ (bits v 31 1 = 1 ∧ s.rd CTL_MODE.MODE_REQ = 0 ∧ s.law.src.gfm = true)) ∧ bits v 8 8 = 0) ∧
    (∃ (s : State) (v : Nat),
        s.pwr.mainOn = true ∧ (bits v 26 2 = 3 ∨ bits v 8 8 = 0 ∨ (bits v 31 1 = 1 ∧ s.rd CTL_MODE.MODE_REQ = 0 ∧ s.law.src.gfm = true)) ∧ bits v 31 1 = 1 ∧ bits v 8 8 = 1) ∧
    (∃ (s : State),
        s.pwr.mainOn = true ∧ s.tm.run = true ∧ s.tm.phase = 0 ∧ s.act CTL_MODE.MODE_REQ = 1 ∧ s.law.cur.manual = false) ∧
    (∃ (s : State),
        s.pwr.mainOn = true ∧ s.tm.run = true ∧ s.tm.phase = 0 ∧ s.act CTL_MODE.MODE_REQ = 0 ∧ s.law.cur.manual = true) ∧
    (∃ (s : State),
        s.pwr.mainOn = true ∧ s.tm.run = true ∧ s.tm.phase = 0 ∧ s.law.cur.manual = true ∧ 2 ≤ s.law.cur.overTicks) :=
  ⟨⟨w0, 0x100, by decide +kernel⟩,
   ⟨w0, 0xc000000, by decide +kernel⟩,
   ⟨w0, 0, by decide +kernel⟩,
   ⟨onLaw w0 fun x => { x with src := { x.src with gfm := true } }, 0x80000100, by decide +kernel⟩,
   ⟨(onLaw (onTm (setAct w0 CTL_MODE.MODE_REQ 0 1) fun x => { x with phase := 0 }) fun x => { x with cur := { x.cur with manual := false } }), by decide +kernel⟩,
   ⟨(onLaw (onTm (setAct w0 CTL_MODE.MODE_REQ 0 0) fun x => { x with phase := 0 }) fun x => { x with cur := { x.cur with manual := true } }), by decide +kernel⟩,
   ⟨(onLaw (onLaw (onTm w0 fun x => { x with phase := 0 }) fun x => { x with cur := { x.cur with manual := true } }) fun x => { x with cur := { x.cur with overTicks := 2 } }), by decide +kernel⟩⟩

theorem test_meets_CheckValueAndCrcCommands :
    (∃ (s : State),
        s.pwr.mainOn = true ∧ s.bit SAFE_STATUS.CV_BUSY = true) ∧
    (∃ (s : State) (v : Nat) (ag : Agent),
        s.pwr.mainOn = true ∧ s.commissioning = true ∧ v % 2 ^ 32 = s.rd SAFE_CV.CV ∧ s.rd SAFE_STATUS.CV_BUSY = 0) ∧
    (∃ (s : State) (v : Nat) (ag : Agent),
        s.pwr.mainOn = true ∧ s.commissioning = true ∧ ¬(v % 2 ^ 32 = s.rd SAFE_CV.CV ∧ s.rd SAFE_STATUS.CV_BUSY = 0)) :=
  ⟨⟨(w0.wr SAFE_STATUS.CV_BUSY 1), by decide +kernel⟩,
   ⟨((w0.wr LC_STATE.STATE 2).wr SAFE_STATUS.CV_BUSY 0), 0, .firmware, by decide +kernel⟩,
   ⟨w0.wr LC_STATE.STATE 2, 1, .host, by decide +kernel⟩⟩

theorem test_meets_HostDescriptorCommands_0 :
    (∃ (s : State) (h : DescHdr),
        (match s.startDesc h 0x00 with
        | .go d u => decide (s.pwr.mainOn = true ∧ s.rdi RING_CFG_n.TYPE h.ring = 0)
        | .wait _ => false) = true) ∧
    (∃ (s : State) (h : DescHdr) (v : SetVals),
        (match s.startDesc h 0x01 with
        | .go d u => decide (s.pwr.mainOn = true ∧ s.rdi RING_CFG_n.TYPE h.ring = 0)
        | .wait _ => false) = true) ∧
    (∃ (s : State) (h : DescHdr) (v : SetVals),
        (match s.startDesc h 0x01 with
        | .go d u => decide (s.pwr.mainOn = true ∧ s.rdi RING_CFG_n.TYPE h.ring = 0 ∧ bitOf v.present 5 = true ∧ (v.eSet < 500 ∨ 1500 < v.eSet))
        | .wait _ => false) = true) ∧
    (∃ (s : State) (h : DescHdr) (v : SetVals),
        (match s.startDesc h 0x01 with
        | .go d u => decide (s.pwr.mainOn = true ∧ s.rdi RING_CFG_n.TYPE h.ring = 0 ∧ (¬(bitOf v.present 5 = true ∧ (v.eSet < 500 ∨ 1500 < v.eSet))))
        | .wait _ => false) = true) ∧
    (∃ (s : State) (h : DescHdr) (c : Nat) (k : Nat) (len : Nat) (a : Nat),
        (match s.startDesc h 0x04 with
        | .go d u => decide (s.pwr.mainOn = true ∧ s.rdi RING_CFG_n.TYPE h.ring = 0)
        | .wait _ => false) = true) ∧
    (∃ (s : State) (h : DescHdr) (c : Nat) (k : Nat) (len : Nat) (a : Nat),
        (match s.startDesc h 0x04 with
        | .go d u => decide (s.pwr.mainOn = true ∧ s.rdi RING_CFG_n.TYPE h.ring = 0 ∧ 240 ≤ c)
        | .wait _ => false) = true) ∧
    (∃ (s : State) (h : DescHdr) (c : Nat) (k : Nat) (len : Nat) (a : Nat),
        (match s.startDesc h 0x04 with
        | .go d u => decide (s.pwr.mainOn = true ∧ s.rdi RING_CFG_n.TYPE h.ring = 0 ∧ c < u.cellCount ∧ c < 240 ∧ u.enabled c = true ∧ u.sstate c = 5)
        | .wait _ => false) = true) ∧
    (∃ (s : State) (h : DescHdr) (c : Nat) (k : Nat) (len : Nat) (a : Nat),
        (match s.startDesc h 0x04 with
        | .go d u => decide (s.pwr.mainOn = true ∧ s.rdi RING_CFG_n.TYPE h.ring = 0 ∧ c < u.cellCount ∧ c < 240 ∧ u.enabled c = false ∧ 1 < k)
        | .wait _ => false) = true) ∧
    (∃ (s : State) (h : DescHdr) (c : Nat) (k : Nat) (len : Nat) (a : Nat),
        (match s.startDesc h 0x04 with
        | .go d u => decide (s.pwr.mainOn = true ∧ s.rdi RING_CFG_n.TYPE h.ring = 0 ∧ c < u.cellCount ∧ c < 240 ∧ u.enabled c = false ∧ k = 0 ∧ len % 4 = 0 ∧ 0 < len ∧ len ≤ 256 ∧ a + len ≤ 2 ^ 30 ∧ s.bit HOST_WALK_ROOT_LO.EN = true ∧ (∀ p ∈ pagesOf a len, u.cached p = none))
        | .wait _ => false) = true) ∧
    (∃ (s : State) (h : DescHdr) (c : Nat) (i : Nat) (f : Nat) (ce : Nat) (al : Nat),
        (match s.startDesc h 0x05 with
        | .go d u => decide (s.pwr.mainOn = true ∧ s.rdi RING_CFG_n.TYPE h.ring = 0)
        | .wait _ => false) = true) ∧
    (∃ (s : State) (h : DescHdr) (c : Nat) (i : Nat) (f : Nat) (ce : Nat) (al : Nat),
        (match s.startDesc h 0x05 with
        | .go d u => decide (s.pwr.mainOn = true ∧ s.rdi RING_CFG_n.TYPE h.ring = 0 ∧ 240 ≤ c)
        | .wait _ => false) = true) ∧
    (∃ (s : State) (h : DescHdr) (c : Nat) (i : Nat) (f : Nat) (ce : Nat) (al : Nat),
        (match s.startDesc h 0x05 with
        | .go d u => decide (s.pwr.mainOn = true ∧ s.rdi RING_CFG_n.TYPE h.ring = 0 ∧ c < 240 ∧ c < u.cellCount ∧ u.role c ≠ 1)
        | .wait _ => false) = true) ∧
    (∃ (s : State) (h : DescHdr) (c : Nat) (i : Nat) (f : Nat) (ce : Nat) (al : Nat),
        (match s.startDesc h 0x05 with
        | .go d u => decide (s.pwr.mainOn = true ∧ s.rdi RING_CFG_n.TYPE h.ring = 0 ∧ c < 240 ∧ c < u.cellCount ∧ u.role c = 1 ∧ (ce ≤ f ∨ 10000 < ce))
        | .wait _ => false) = true) ∧
    (∃ (s : State) (h : DescHdr) (c : Nat) (i : Nat) (f : Nat) (ce : Nat) (al : Nat),
        (match s.startDesc h 0x05 with
        | .go d u => decide (s.pwr.mainOn = true ∧ s.rdi RING_CFG_n.TYPE h.ring = 0 ∧ c < 240 ∧ c < u.cellCount ∧ u.role c = 1 ∧ f < ce ∧ ce ≤ 10000 ∧ ((s.mtr.leasing.filter (fun x => x.1 == c)) = []) ∧ sameLease (s.cell c).mtr.lease (newLease (s.cell c).mtr.lease (i % 2 ^ 32) f ce (al % 2 ^ 64) (s.cell c).mtr.eDis.n) = false)
        | .wait _ => false) = true) :=
  ⟨⟨(wd 0), hd, by decide +kernel⟩,
   ⟨(wd 0), hd, ⟨0, 0, 0, 0, 0, 0, 0, 0⟩, by decide +kernel⟩,
   ⟨(wd 0), hd, ⟨32, 0, 0, 0, 0, 0, 0, 0⟩, by decide +kernel⟩,
   ⟨(wd 0), hd, ⟨0, 0, 0, 0, 0, 0, 0, 0⟩, by decide +kernel⟩,
   ⟨(wd 0), hd, 0, 0, 0, 0, by decide +kernel⟩,
   ⟨(wd 0), hd, 240, 0, 0, 0, by decide +kernel⟩,
   ⟨((wd 0).wri HGS_CELL_CFG_n.ENABLE 1 1).wri JOIN_CELL_STATUS_n.SSTATE 1 5, hd, 1, 0, 0, 0, by decide +kernel⟩,
   ⟨(wd 0), hd, 0, 2, 0, 0, by decide +kernel⟩,
   ⟨((wd 0).wr HOST_WALK_ROOT_LO.EN 1), hd, 1, 0, 4, 0x10000000, by decide +kernel⟩,
   ⟨(wd 0), hd, 0, 0, 0, 0, 0, by decide +kernel⟩,
   ⟨(wd 0), hd, 240, 0, 0, 0, 0, by decide +kernel⟩,
   ⟨(wd 0), hd, 0, 0, 0, 0, 0, by decide +kernel⟩,
   ⟨((wd 0).wri HGS_CELL_CFG_n.ROLE 1 1), hd, 1, 1, 0, 0, 1, by decide +kernel⟩,
   ⟨((wd 0).wri HGS_CELL_CFG_n.ROLE 1 1), hd, 1, 1, 0, 1, 1, by decide +kernel⟩⟩

theorem test_meets_HostDescriptorCommands_1 :
    (∃ (s : State) (h : DescHdr) (w : Nat),
        (match s.startDesc h 0x06 with
        | .go d u => decide (s.pwr.mainOn = true ∧ s.rdi RING_CFG_n.TYPE h.ring = 0)
        | .wait _ => false) = true) ∧
    (∃ (s : State) (d : Desc) (w : Nat),
        s.pwr.mainOn = true ∧ s.tm.run = true ∧ s.tm.phase = 0 ∧ s.sp.host = [] ∧ s.sp.safe = none ∧ s.hst.waits = [.hostTime d w] ∧ d.epoch = s.hst.epoch) ∧
    (∃ (s : State) (h : DescHdr) (f n a : Nat),
        (match s.startDesc h 0x0A with
        | .go d u => decide (s.pwr.mainOn = true ∧ s.rdi RING_CFG_n.TYPE h.ring = 0 ∧ (n = 0 ∨ 2828 < n))
        | .wait _ => false) = true) ∧
    (∃ (s : State) (h : DescHdr) (f n a : Nat),
        (match s.startDesc h 0x0A with
        | .go d u => decide (s.pwr.mainOn = true ∧ s.rdi RING_CFG_n.TYPE h.ring = 0 ∧ 0 < n ∧ n ≤ 2828 ∧ f ≠ 2 ^ 64 - 1 ∧ a + n * 160 ≤ 2 ^ 30 ∧ s.bit HOST_WALK_ROOT_LO.EN = true ∧ (∀ p ∈ pagesOf a (n * 160), u.cached p = none) ∧ s.hst.jobs = [])
        | .wait _ => false) = true) ∧
    (∃ (s : State) (h : DescHdr) (len : Nat) (a : Nat),
        (match s.startDesc h 0x40 with
        | .go d u => decide (s.pwr.mainOn = true ∧ s.rdi RING_CFG_n.TYPE h.ring = 3 ∧ (len % 512 ≠ 0 ∨ len < 512 ∨ 65536 < len))
        | .wait _ => false) = true) ∧
    (∃ (s : State) (h : DescHdr) (len a : Nat),
        (match s.startDesc h 0x40 with
        | .go d u => decide (s.pwr.mainOn = true ∧ s.rdi RING_CFG_n.TYPE h.ring = 3 ∧ len % 512 = 0 ∧ 512 ≤ len ∧ len ≤ 65536 ∧ a + len ≤ 2 ^ 30 ∧ s.bit HOST_WALK_ROOT_LO.EN = true ∧ (∀ p ∈ pagesOf a len, u.cached p = none))
        | .wait _ => false) = true) ∧
    (∃ (s : State) (h : DescHdr) (op c : Nat),
        (match s.startDesc h (op % 256) with
        | .go d u => decide (s.pwr.mainOn = true ∧ s.rdi RING_CFG_n.TYPE h.ring ≠ 0)
        | .wait _ => false) = true) ∧
    (∃ (s : State) (h : DescHdr) (op c : Nat),
        (match s.startDesc h (op % 256) with
        | .go d u => decide (s.pwr.mainOn = true ∧ op % 256 ≠ 2 ∧ op % 256 ≠ 3)
        | .wait _ => false) = true) ∧
    (∃ (s : State) (h : DescHdr) (op c : Nat),
        (match s.startDesc h (op % 256) with
        | .go d u => decide (s.pwr.mainOn = true ∧ s.rdi RING_CFG_n.TYPE h.ring = 0 ∧ op % 256 = 2)
        | .wait _ => false) = true) ∧
    (∃ (s : State) (h : DescHdr) (op c : Nat),
        (match s.startDesc h (op % 256) with
        | .go d u => decide (s.pwr.mainOn = true ∧ s.rdi RING_CFG_n.TYPE h.ring = 0 ∧ op % 256 = 3 ∧ 240 ≤ c)
        | .wait _ => false) = true) ∧
    (∃ (s : State) (h : DescHdr) (op c : Nat),
        (match s.startDesc h (op % 256) with
        | .go d u => decide (s.pwr.mainOn = true ∧ s.rdi RING_CFG_n.TYPE h.ring = 0 ∧ op % 256 = 3 ∧ c < 240 ∧ s.cellCount ≤ c)
        | .wait _ => false) = true) ∧
    (∃ (s : State) (h : DescHdr) (op c : Nat),
        (match s.startDesc h (op % 256) with
        | .go d u => decide (s.pwr.mainOn = true ∧ s.rdi RING_CFG_n.TYPE h.ring = 0 ∧ op % 256 = 3 ∧ c < s.cellCount ∧ s.enabled c = true)
        | .wait _ => false) = true) ∧
    (∃ (s : State) (h : DescHdr) (op c : Nat),
        (match s.startDesc h (op % 256) with
        | .go d u => decide (s.pwr.mainOn = true ∧ s.rdi RING_CFG_n.TYPE h.ring = 0 ∧ op % 256 = 3 ∧ c < s.cellCount ∧ s.enabled c = false)
        | .wait _ => false) = true) ∧
    (∃ (s : State) (r : Fin 64) (e : Nat) (f : Nat) (b : Buf),
        s.pwr.mainOn = true ∧ (s.hst.bufs.find? (fun b => b.d.ring == r.val) = some b) ∧ b.firstAt = some f ∧ f + 1000000 ≤ (s.moveTo e).tm.e ∧ b.d.epoch = s.hst.epoch) :=
  ⟨⟨(wd 0), hd, 0, by decide +kernel⟩,
   ⟨onTm (onHst w0 fun x => { x with waits := [.hostTime desc0 7] }) fun x => { x with phase := 0 }, desc0, 7, by decide +kernel⟩,
   ⟨wd 0, hd, 0, 2829, 0, by decide +kernel⟩,
   ⟨wd 0, hd, 0, 1, 0x10000000, by decide +kernel⟩,
   ⟨(wd 3), hd, 0, 0, by decide +kernel⟩,
   ⟨wd 3, hd, 512, 0x10000000, by decide +kernel⟩,
   ⟨(wd 3), hd, 3, 0, by decide +kernel⟩,
   ⟨wd 0, hd, 0x77, 0, by decide +kernel⟩,
   ⟨wd 0, hd, 2, 0, by decide +kernel⟩,
   ⟨wd 0, hd, 3, 240, by decide +kernel⟩,
   ⟨(wd 0).wr ID_PART.DEVICE 0x7120, hd, 3, 120, by decide +kernel⟩,
   ⟨(wd 0).wri HGS_CELL_CFG_n.ENABLE 1 1, hd, 3, 1, by decide +kernel⟩,
   ⟨wd 0, hd, 3, 1, by decide +kernel⟩,
   ⟨onHst w0 fun x => { x with bufs := [{ buf0 with firstAt := some 0 }] }, 0, 100000000000000, 0, { buf0 with firstAt := some 0 }, by decide +kernel⟩⟩

theorem test_meets_HostRingCommands :
    (∃ (s : State) (r : Fin 64) (v : Nat),
        s.pwr.mainOn = true ∧ (s.stage < 2 ∨ s.hst.d3 = true ∨ s.rdi RING_STATE_n.STATE r = 0)) ∧
    (∃ (s : State) (r : Fin 64) (v : Nat),
        s.pwr.mainOn = true ∧ 2 ≤ s.stage ∧ s.hst.d3 = false ∧ s.rdi RING_STATE_n.STATE r = 1 ∧ s.doorbellValid r (v % 65536) = false ∧ s.evRing 0x90 ≠ r) ∧
    (∃ (s : State) (r : Fin 64) (v : Nat),
        s.pwr.mainOn = true ∧ 2 ≤ s.stage ∧ s.hst.d3 = false ∧ s.rdi RING_STATE_n.STATE r ≠ 0 ∧ s.doorbellValid r (v % 65536) = true ∧ s.rdi RING_CFG_n.TYPE r ≠ 2 ∧ s.bit PWR_STATUS.SLEEP = false) ∧
    (∃ (s : State) (r : Fin 64) (v : Nat),
        s.pwr.mainOn = true ∧ s.hst.d3 = false ∧ s.evRing 0x90 ≠ r ∧ s.rdi RING_STATE_n.STATE r ≠ 0) ∧
    (∃ (s : State) (r : Fin 64) (v : Nat),
        s.pwr.mainOn = true ∧ s.hst.d3 = false ∧ s.evRing 0x90 ≠ r ∧ s.rdi RING_STATE_n.STATE r = 0 ∧ 4 ≤ bits v 25 4 ∧ bits v 25 4 ≤ 12 ∧ s.ringCfgValid (v % 2 ^ 31 + 2 ^ 31) = true ∧ bits v 29 2 ≠ 2) ∧
    (∃ (s : State) (r : Fin 64),
        s.pwr.mainOn = true ∧ s.hst.d3 = false ∧ s.evRing 0x90 ≠ r ∧ s.rdi RING_STATE_n.STATE r = 1) ∧
    (∃ (s : State) (r : Fin 64),
        s.pwr.mainOn = true ∧ s.hst.d3 = false ∧ s.evRing 0x90 ≠ r ∧ s.rdi RING_STATE_n.STATE r ≠ 1) ∧
    (∃ (s : State) (r : Fin 64),
        s.pwr.mainOn = true ∧ s.evRing 0x90 ≠ r ∧ s.rdi RING_STATE_n.STATE r = 2 ∧ s.rdi RING_STATE_n.INFLIGHT r = 0) ∧
    (∃ (s : State) (r : Fin 64),
        s.pwr.mainOn = true ∧ s.hst.d3 = false ∧ s.evRing 0x90 ≠ r ∧ (s.rdi RING_STATE_n.STATE r = 3 ∨ s.rdi RING_STATE_n.STATE r = 4 ∨ s.rdi RING_STATE_n.STATE r = 5) ∧ s.rdi RING_CFG_n.TYPE r = 1) ∧
    (∃ (s : State) (r : Fin 64),
        s.pwr.mainOn = true ∧ s.hst.d3 = false ∧ s.evRing 0x90 ≠ r ∧ (s.rdi RING_STATE_n.STATE r = 3 ∨ s.rdi RING_STATE_n.STATE r = 4 ∨ s.rdi RING_STATE_n.STATE r = 5) ∧ (s.rdi RING_CFG_n.TYPE r = 0 ∨ s.rdi RING_CFG_n.TYPE r = 3) ∧ s.rdi RING_CFG_n.CRING r ≠ r ∧ s.rdi RING_CFG_n.CRING r ≠ s.evRing 0x90 ∧ s.rdi RING_STATE_n.STATE (s.rdi RING_CFG_n.CRING r) = 0) ∧
    (∃ (s : State) (r : Fin 64),
        s.pwr.mainOn = true ∧ s.hst.d3 = false ∧ s.evRing 0x90 ≠ r ∧ (¬(s.rdi RING_STATE_n.STATE r = 3 ∨ s.rdi RING_STATE_n.STATE r = 4 ∨ s.rdi RING_STATE_n.STATE r = 5))) ∧
    (∃ (s : State) (r : Fin 64),
        s.pwr.mainOn = true ∧ s.hst.d3 = false ∧ s.evRing 0x90 ≠ r ∧ (s.rdi RING_STATE_n.STATE r = 3 ∨ s.rdi RING_STATE_n.STATE r = 4 ∨ s.rdi RING_STATE_n.STATE r = 5) ∧ s.rdi RING_STATE_n.INFLIGHT r = 0 ∧ s.rdi RING_CFG_n.TYPE r ≠ 1) ∧
    (∃ (s : State) (r : Fin 64) (n : Fin 64),
        s.pwr.mainOn = true ∧ s.hst.d3 = false ∧ s.evRing 0x90 ≠ r ∧ s.rdi RING_STATE_n.STATE r = 3 ∧ s.rdi RING_STATE_n.INFLIGHT r = 0 ∧ s.rdi RING_CFG_n.TYPE r = 1 ∧ n ≠ r ∧ s.evRing 0x90 ≠ n ∧ s.rdi RING_STATE_n.STATE n = 1 ∧ s.rdi RING_CFG_n.TYPE n = 0 ∧ s.rdi RING_CFG_n.CRING n = r) ∧
    (∃ (s : State) (r : Fin 64),
        s.pwr.mainOn = true ∧ s.hst.d3 = false ∧ s.evRing 0x90 ≠ r ∧ (¬((s.rdi RING_STATE_n.STATE r = 3 ∨ s.rdi RING_STATE_n.STATE r = 4 ∨ s.rdi RING_STATE_n.STATE r = 5) ∧ s.rdi RING_STATE_n.INFLIGHT r = 0))) ∧
    (∃ (s : State),
        s.pwr.mainOn = true ∧ s.hst.d3 = true) :=
  ⟨⟨(w0.wr HOST_STATUS.STAGE 0), 1, 0, by decide +kernel⟩,
   ⟨(w0.wri RING_STATE_n.STATE 1 1).wr HOST_EVT_CFG.EVT_RING 2, 1, 30000, by decide +kernel⟩,
   ⟨(onHst ((((w0.wr HOST_STATUS.STAGE 2).wri RING_STATE_n.STATE 1 1).wri RING_CFG_n.TYPE 1 0).wr PWR_STATUS.SLEEP 0) fun x => { x with d3 := false }), 1, 0, by decide +kernel⟩,
   ⟨(w0.wri RING_STATE_n.STATE 1 1), 1, 0, by decide +kernel⟩,
   ⟨w0.wr HOST_EVT_CFG.EVT_RING 2, 1, 0x2C000000, by decide +kernel⟩,
   ⟨(w0.wri RING_STATE_n.STATE 1 1), 1, by decide +kernel⟩,
   ⟨(w0.wri RING_STATE_n.STATE 1 0), 1, by decide +kernel⟩,
   ⟨((w0.wri RING_STATE_n.STATE 1 2).wri RING_STATE_n.INFLIGHT 1 0), 1, by decide +kernel⟩,
   ⟨((w0.wri RING_STATE_n.STATE 1 3).wri RING_CFG_n.TYPE 1 1), 1, by decide +kernel⟩,
   ⟨((w0.wri RING_STATE_n.STATE 1 3).wri RING_CFG_n.CRING 1 3).wr HOST_EVT_CFG.EVT_RING 2, 1, by decide +kernel⟩,
   ⟨w0, 1, by decide +kernel⟩,
   ⟨(((w0.wri RING_STATE_n.STATE 1 3).wri RING_STATE_n.INFLIGHT 1 0).wri RING_CFG_n.TYPE 1 0), 1, by decide +kernel⟩,
   ⟨((((w0.wri RING_STATE_n.STATE 3 3).wri RING_CFG_n.TYPE 3 1).wri RING_STATE_n.STATE 5 1).wri RING_CFG_n.TYPE 5 0).wri RING_CFG_n.CRING 5 3, 3, 5, by decide +kernel⟩,
   ⟨w0, 1, by decide +kernel⟩,
   ⟨onHst w0 fun x => { x with d3 := true }, by decide +kernel⟩⟩

theorem test_meets_HostReadAndWalkCommands :
    (∃ (s : State) (id : Nat) (v : Nat) (e : Nat) (j : Job) (d : Desc) (len : Nat) (a : Nat),
        s.pwr.mainOn = true ∧ (s.hst.jobs.find? (fun j => j.id == id) = some j) ∧ j.phase = .level1 ∧ j.kind = .buffer d len a ∧ bitOf v 0 = false ∧ d.epoch = s.hst.epoch) ∧
    (∃ (s : State) (id : Nat) (e : Nat) (l : List Byte) (j : Job) (d : Desc) (c : Nat) (len : Nat) (a : Nat),
        s.pwr.mainOn = true ∧ (s.hst.jobs.find? (fun j => j.id == id) = some j) ∧ j.phase = .data ∧ j.kind = .furrow d c 0 len a ∧ d.epoch = s.hst.epoch ∧ j.todo.drop 1 = []) ∧
    (∃ (s : State) (id : Nat) (e : Nat) (l : List Byte) (j : Job) (d : Desc) (c : Nat) (len : Nat) (a : Nat),
        s.pwr.mainOn = true ∧ (s.hst.jobs.find? (fun j => j.id == id) = some j) ∧ j.phase = .data ∧ j.kind = .furrow d c 0 len a ∧ d.epoch = s.hst.epoch ∧ j.todo.drop 1 ≠ []) ∧
    (∃ (s : State) (r : Fin 64) (e : Nat),
        s.pwr.mainOn = true ∧ (s.moveTo e).ringReady r = false) ∧
    (∃ (s : State) (r : Fin 64) (e : Nat),
        s.pwr.mainOn = true ∧ (s.moveTo e).ringReady r = true) ∧
    (∃ (s : State) (id : Nat) (e : Nat) (j : Job) (d : Desc) (len : Nat) (a : Nat),
        s.pwr.mainOn = true ∧ (s.hst.jobs.find? (fun j => j.id == id) = some j) ∧ j.phase = .level1 ∧ j.kind = .buffer d len a ∧ j.due ≤ (s.moveTo e).tm.e ∧ d.epoch = s.hst.epoch) ∧
    (∃ (s : State) (w : Option Nat),
        s.pwr.mainOn = true ∧ s.hst.inv = some w) ∧
    (∃ (s : State),
        s.pwr.mainOn = true ∧ s.hst.d3 = true) ∧
    (∃ (s : State),
        s.pwr.mainOn = true ∧ s.hst.d3 = false) :=
  ⟨⟨onHst w0 fun x => { x with jobs := [job0 (.buffer desc0 4 0x10000000) .level1] }, 1, 0, 1, job0 (.buffer desc0 4 0x10000000) .level1, desc0, 4, 0x10000000, by decide +kernel⟩,
   ⟨onHst w0 fun x => { x with jobs := [job0 (.furrow desc0 3 0 4 0x10000000) .data] }, 1, 1, [0, 0, 0, 0], job0 (.furrow desc0 3 0 4 0x10000000) .data, desc0, 3, 4, 0x10000000, by decide +kernel⟩,
   ⟨onHst w0 fun x => { x with jobs := [{ job0 (.furrow desc0 3 0 4 0x10000FFE) .data with todo := [0x10000, 0x10001] }] }, 1, 1, [0, 0, 0, 0], { job0 (.furrow desc0 3 0 4 0x10000FFE) .data with todo := [0x10000, 0x10001] }, desc0, 3, 4, 0x10000FFE, by decide +kernel⟩,
   ⟨w0, 1, 100000000000000, by decide +kernel⟩,
   ⟨wd 0, 0, 1, by decide +kernel⟩,
   ⟨onHst w0 fun x => { x with jobs := [job0 (.buffer desc0 4 0x10000000) .level1] }, 1, 1, job0 (.buffer desc0 4 0x10000000) .level1, desc0, 4, 0x10000000, by decide +kernel⟩,
   ⟨(onHst w0 fun x => { x with inv := some none }), none, by decide +kernel⟩,
   ⟨onHst w0 fun x => { x with d3 := true }, by decide +kernel⟩,
   ⟨w0, by decide +kernel⟩⟩

theorem test_meets_HostEntryAndResetCommands :
    (∃ (s : State) (r : Fin 64) (c : Completion) (p : Nat),
        s.pwr.mainOn = true ∧ (s.hst.comps.find? (fun c => c.cring == r.val) = some c) ∧ s.rdi RING_CFG_n.TYPE r = 1 ∧ s.ringOpen r 1 = true ∧ s.pwr.pfAt = none ∧ s.entryPhys r (s.rdi RING_STATE_n.CONS r) = some (.ok p) ∧ c.ring ≠ r.val) ∧
    (∃ (s : State) (r : Fin 64),
        s.pwr.mainOn = true ∧ ((tget (fun _ => (0, 0)) s.hst.lost r).1 ≠ 0) ∧ (((tget (fun _ => []) s.hst.evq r).map Event.entries).foldl (· + ·) 0 < 1024)) ∧
    (∃ (s : State) (r : Fin 64) (e : Nat),
        s.pwr.mainOn = true ∧ (tget (fun _ => 0) s.hst.unsig r ≠ 0) ∧ s.rdi RING_CFG_n.COAL_US r ≠ 0 ∧ s.hst.d3 = false ∧ (tget (fun _ => 0) s.hst.unsigAt r + s.rdi RING_CFG_n.COAL_US r * 1000 ≤ (s.moveTo e).tm.e) ∧ s.biti RING_CFG_n.IRQ_EN r = true) ∧
    (∃ (s : State) (r : Nat),
        s.pwr.mainOn = true ∧ r < 64) ∧
    (∃ (s : State),
        s.pwr.mainOn = true ∧ (∀ j ∈ s.hst.jobs, j.phase ≠ .data)) :=
  ⟨⟨onHst ((((w0.wri RING_STATE_n.STATE 1 1).wri RING_CFG_n.TYPE 1 1).wri RING_CFG_n.SIZE 1 6).wr HOST_WALK_ROOT_LO.EN 1) fun x => { x with comps := [⟨1, 1, 0, 0, 0x55, 0, 0, 0, 0, [], 0⟩], cache := [⟨0, 77, true, true, 2⟩] }, 1, ⟨1, 1, 0, 0, 0x55, 0, 0, 0, 0, [], 0⟩, 77 * 4096, by decide +kernel⟩,
   ⟨onHst w0 fun x => { x with lost := [(1, (3, 0))] }, 1, by decide +kernel⟩,
   ⟨onHst ((w0.wri RING_CFG_n.COAL_US 1 1).wri RING_CFG_n.IRQ_EN 1 1) fun x => { x with unsig := [(1, 1)] }, 1, 100000000000000, by decide +kernel⟩,
   ⟨w0, 0, by decide +kernel⟩,
   ⟨w0, by decide +kernel⟩⟩

theorem test_meets_SpillwayCommands :
    (∃ (s : State) (c : Fin 240) (n : Nat),
        s.pwr.mainOn = true ∧ (s.cell c).svc.spillTicks = some n ∧ s.rd JOIN_CFG.SPILL_TICKS ≤ n ∧ (s.cell c).svc.spillFail = false ∧ (s.cell c).link.fresh = true) ∧
    (∃ (s : State) (h : DescHdr) (c : Fin 240),
        (match s.startDesc h 0x03 with
        | .go d u => decide (s.pwr.mainOn = true ∧ s.rdi RING_CFG_n.TYPE h.ring = 0 ∧ c.val < s.cellCount ∧ s.enabled c = true ∧ s.released = false ∧ (s.sstate c = 4 ∨ s.sstate c = 5))
        | .wait _ => false) = true) ∧
    (∃ (s : State) (h : DescHdr) (c : Fin 240),
        (match s.startDesc h 0x03 with
        | .go d u => decide (s.pwr.mainOn = true ∧ s.rdi RING_CFG_n.TYPE h.ring = 0 ∧ c.val < s.cellCount ∧ s.enabled c = true ∧ s.sstate c ≠ 4 ∧ s.sstate c ≠ 5)
        | .wait _ => false) = true) ∧
    (∃ (s : State) (h : DescHdr) (c : Fin 240),
        (match s.startDesc h 0x03 with
        | .go d u => decide (s.pwr.mainOn = true ∧ s.rdi RING_CFG_n.TYPE h.ring = 0 ∧ c.val < s.cellCount ∧ s.enabled c = true ∧ (s.sstate c = 7 ∨ s.sstate c = 8 ∨ s.sstate c = 9))
        | .wait _ => false) = true) ∧
    (∃ (s : State) (h : DescHdr) (c : Fin 240) (a : Nat),
        (match s.startDesc h 0x03 with
        | .go d u => decide (s.pwr.mainOn = true ∧ s.rdi RING_CFG_n.TYPE h.ring = 0 ∧ c.val < s.cellCount ∧ s.enabled c = true ∧ s.sstate c = 7)
        | .wait _ => false) = true) ∧
    (∃ (s : State) (h : DescHdr) (c : Fin 240) (l : Nat) (a : Nat),
        (match s.startDesc h 0x03 with
        | .go d u => decide (s.pwr.mainOn = true ∧ s.rdi RING_CFG_n.TYPE h.ring = 0 ∧ c.val < s.cellCount ∧ s.enabled c = true ∧ s.sstate c ≠ 7)
        | .wait _ => false) = true) ∧
    (∃ (s : State) (c : Fin 240) (n : Nat),
        s.pwr.mainOn = true ∧ (s.cell c).svc.retTicks = some n ∧ 16 ≤ n ∧ s.tm.run = true ∧ s.tm.phase = 0 ∧ s.sstate c = 8) ∧
    (∃ (s : State) (c : Fin 240) (e : Nat),
        s.pwr.mainOn = true ∧ s.tm.run = true ∧ s.tm.phase = 0 ∧ s.sstate c = 2 ∧ 20000000 ≤ (s.cell c).svc.verifyOk ∧ (s.role c = 1 ∨ s.role c = 2)) ∧
    (∃ (s : State) (c : Fin 240) (e : Nat),
        s.pwr.mainOn = true ∧ s.tm.run = true ∧ s.tm.phase = 0 ∧ s.sstate c = 2 ∧ (s.cell c).svc.verifyOk < 20000000 ∧ s.rd JOIN_TIME_CFG.VERIFY_S * 1000000000 ≤ (s.moveTo e).stepTime c) ∧
    (∃ (s : State) (c : Fin 240) (e : Nat),
        s.pwr.mainOn = true ∧ s.tm.run = true ∧ s.tm.phase = 0 ∧ s.sstate c = 3 ∧ (s.cell c).svc.preOk = 0 ∧ s.rd JOIN_TIME_CFG.PRECHARGE_S * 1000000000 ≤ (s.moveTo e).stepTime c ∧ s.biti JOIN_CELL_STATUS_n.PRE_MODE c = true) ∧
    (∃ (s : State) (c : Fin 240) (e : Nat),
        s.pwr.mainOn = true ∧ s.tm.run = true ∧ s.tm.phase = 0 ∧ s.sstate c = 3 ∧ (s.cell c).svc.preOk = 0 ∧ s.rd JOIN_TIME_CFG.PRECHARGE_S * 1000000000 ≤ (s.moveTo e).stepTime c ∧ s.biti JOIN_CELL_STATUS_n.PRE_MODE c = false) ∧
    (∃ (s : State) (c : Fin 240) (e : Nat),
        s.pwr.mainOn = true ∧ s.tm.run = true ∧ s.tm.phase = 0 ∧ s.sstate c = 3 ∧ 2 ≤ (s.cell c).svc.preOk ∧ s.ringState (ringOf c) = 4 ∧ s.phaseReleased (s.phaseOf c) = true) ∧
    (∃ (s : State) (c : Fin 240),
        s.pwr.mainOn = true ∧ s.tm.run = true ∧ s.tm.phase = 0 ∧ s.sstate c = 4 ∧ (s.cell c).svc.weight = 256) ∧
    (∃ (s : State) (c : Fin 240),
        s.pwr.mainOn = true ∧ s.tm.run = true ∧ s.tm.phase = 0 ∧ s.sstate c = 6 ∧ (s.cell c).svc.rampDone = true) :=
  ⟨⟨onCell w0 0 fun x => { x with svc := { x.svc with spillTicks := some 100000 }, link := { x.link with fresh := true } }, 0, 100000, by decide +kernel⟩,
   ⟨(((wd 0).wri HGS_CELL_CFG_n.ENABLE 1 1).wri JOIN_CELL_STATUS_n.SSTATE 1 4), hd, 1, by decide +kernel⟩,
   ⟨(((wd 0).wri HGS_CELL_CFG_n.ENABLE 1 1).wri JOIN_CELL_STATUS_n.SSTATE 1 0), hd, 1, by decide +kernel⟩,
   ⟨(((wd 0).wri HGS_CELL_CFG_n.ENABLE 1 1).wri JOIN_CELL_STATUS_n.SSTATE 1 7), hd, 1, by decide +kernel⟩,
   ⟨(((wd 0).wri HGS_CELL_CFG_n.ENABLE 1 1).wri JOIN_CELL_STATUS_n.SSTATE 1 7), hd, 1, 0, by decide +kernel⟩,
   ⟨(((wd 0).wri HGS_CELL_CFG_n.ENABLE 1 1).wri JOIN_CELL_STATUS_n.SSTATE 1 0), hd, 1, 0, 0, by decide +kernel⟩,
   ⟨(onTm (onCell (w0.wri JOIN_CELL_STATUS_n.SSTATE 1 8) 1 fun x => { x with svc := { x.svc with retTicks := some 16 } }) fun x => { x with phase := 0 }), 1, 16, by decide +kernel⟩,
   ⟨(onCell (onTm ((w0.wri JOIN_CELL_STATUS_n.SSTATE 1 2).wri HGS_CELL_CFG_n.ROLE 1 1) fun x => { x with phase := 0 }) 1 fun x => { x with svc := { x.svc with verifyOk := 20000000 } }), 1, 100000000000000, by decide +kernel⟩,
   ⟨(onCell (onTm (w0.wri JOIN_CELL_STATUS_n.SSTATE 1 2) fun x => { x with phase := 0 }) 1 fun x => { x with svc := { x.svc with verifyOk := 0 } }), 1, 100000000000000, by decide +kernel⟩,
   ⟨onCell ((w0.wri JOIN_CELL_STATUS_n.SSTATE 0 3).wri JOIN_CELL_STATUS_n.PRE_MODE 0 1) 0 fun x => { x with svc := { x.svc with preUsed := 10000000000000 } }, 0, 1, by decide +kernel⟩,
   ⟨(onCell (onTm ((w0.wri JOIN_CELL_STATUS_n.SSTATE 1 3).wri JOIN_CELL_STATUS_n.PRE_MODE 1 0) fun x => { x with phase := 0 }) 1 fun x => { x with svc := { x.svc with preOk := 0 } }), 1, 100000000000000, by decide +kernel⟩,
   ⟨onCell (((w0.wri JOIN_CELL_STATUS_n.SSTATE 0 3).wri LINK_RING_STATUS_r.STATE 0 4).wr SLC_BLOCK_STATUS.PHASES 0) 0 fun x => { x with svc := { x.svc with preOk := 2 } }, 0, 1, by decide +kernel⟩,
   ⟨(onCell (onTm (w0.wri JOIN_CELL_STATUS_n.SSTATE 1 4) fun x => { x with phase := 0 }) 1 fun x => { x with svc := { x.svc with weight := 256 } }), 1, by decide +kernel⟩,
   ⟨(onCell (onTm (w0.wri JOIN_CELL_STATUS_n.SSTATE 1 6) fun x => { x with phase := 0 }) 1 fun x => { x with svc := { x.svc with rampDone := true } }), 1, by decide +kernel⟩⟩

theorem test_meets_FrameReturnAndTripCommands :
    (∃ (s : State) (r : Fin 16) (l : Fin 2) (f : FrameIn) (e : Nat),
        s.pwr.mainOn = true ∧ s.ringOn r = true ∧ s.fullRate r = true ∧ f.good = true ∧ ¬(s.tm.run = true ∧ s.tm.phase = 4 ∧ (s.moveTo e).tm.e ≤ s.deadline 4 ∧ f.execTick = s.tm.sent)) ∧
    (∃ (s : State) (r : Fin 16) (l : Fin 2) (f : FrameIn) (e : Nat),
        s.pwr.mainOn = true ∧ s.ringOn r = true ∧ (s.ringState r = 2 ∨ s.ringState r = 4 ∨ s.ringState r = 5) ∧ f.good = false ∧ s.rings.length = 16) ∧
    (∃ (s : State) (r : Fin 16) (l : Fin 2) (f : FrameIn) (e : Nat),
        s.pwr.mainOn = true ∧ s.ringOn r = true ∧ (s.ringState r = 2 ∨ s.ringState r = 4 ∨ s.ringState r = 5) ∧ f.good = true ∧ s.rings.length = 16 ∧ (s.fullRate r = true → s.tm.run = true ∧ s.tm.phase = 4 ∧ (s.moveTo e).tm.e ≤ s.deadline 4 ∧ f.execTick = s.tm.sent) ∧ s.fullRate r = true ∧ f.wrapped = false ∧ f.loop = l.val) ∧
    (∃ (s : State) (r : Fin 16) (l : Fin 2) (f : FrameIn) (e : Nat),
        s.pwr.mainOn = true ∧ s.ringOn r = true ∧ (s.ringState r = 2 ∨ s.ringState r = 4 ∨ s.ringState r = 5) ∧ f.good = true ∧ s.rings.length = 16 ∧ (s.fullRate r = true → s.tm.run = true ∧ s.tm.phase = 4 ∧ (s.moveTo e).tm.e ≤ s.deadline 4 ∧ f.execTick = s.tm.sent) ∧ f.wrapped = true) ∧
    (∃ (s : State) (r : Fin 16) (l : Fin 2) (f : FrameIn) (e : Nat) (q : Fin 15),
        s.pwr.mainOn = true ∧ s.ringOn r = true ∧ (s.ringState r = 2 ∨ s.ringState r = 4 ∨ s.ringState r = 5) ∧ f.good = true ∧ s.rings.length = 16 ∧ (s.fullRate r = true → s.tm.run = true ∧ s.tm.phase = 4 ∧ (s.moveTo e).tm.e ≤ s.deadline 4 ∧ f.execTick = s.tm.sent) ∧ f.compact = false ∧ (f.slot q).1.valid = true ∧ (∀ x, x < q.val → (f.slot x).1.valid = false) ∧ s.enabled (r * 15 + q) = true ∧ 2 ≤ s.lstate (r * 15 + q) ∧ s.lstate (r * 15 + q) ≤ 5 ∧ (if f.wrapped = false ∧ f.loop = l.val then l.val else 2) < (s.cell (r * 15 + q)).link.rank) ∧
    (∃ (s : State) (r : Fin 16) (l : Fin 2) (mk x : Code) (v e : Nat),
        s.pwr.mainOn = true ∧ s.ringOn r = true ∧ orderSet 0 mk x = some v ∧ v % 16 ≠ 15 ∧ (∀ y ∈ (s.ring r).lastTr, y.1 / 2 ≠ v % 16) ∧ v / 16 < 4) ∧
    (∃ (s : State) (r : Fin 16) (l : Fin 2) (mk x : Code) (v e : Nat),
        s.pwr.mainOn = true ∧ s.ringOn r = true ∧ orderSet 0 mk x = some v ∧ v % 16 ≠ 15 ∧ (∀ y ∈ (s.ring r).lastTr, y.1 / 2 ≠ v % 16) ∧ (v / 16 = 4 ∨ v / 16 = 5 ∨ v / 16 = 6) ∧ 1 ≤ s.rd (if v / 16 = 4 then SLC_TR_ROUTE.CAUSE4 else if v / 16 = 5 then SLC_TR_ROUTE.CAUSE5 else SLC_TR_ROUTE.CAUSE6)) ∧
    (∃ (s : State) (r : Fin 16) (l : Fin 2) (mk x : Code) (v e : Nat),
        s.pwr.mainOn = true ∧ s.ringOn r = true ∧ orderSet 0 mk x = some v ∧ v / 16 = 7) ∧
    (∃ (s : State) (r : Fin 16) (l : Fin 2) (mk x : Code) (v e : Nat),
        s.pwr.mainOn = true ∧ s.ringOn r = true ∧ orderSet 0 mk x = some v ∧ v % 16 = 15) ∧
    (∃ (s : State) (r : Fin 16) (l : Fin 2) (mk x : Code) (v e : Nat),
        s.pwr.mainOn = true ∧ s.ringOn r = true ∧ orderSet 0 mk x = some v ∧ (∃ y ∈ (s.ring r).lastTr, y.1 = 2 * (v % 16) + l.val ∧ (s.moveTo e).tm.e ≤ y.2.2 + 64)) ∧
    (∃ (s : State) (r : Fin 16) (l : Fin 2) (mk x : Code) (e : Nat),
        s.pwr.mainOn = true ∧ s.ringOn r = true ∧ orderSet 0 mk x = none) :=
  ⟨⟨onTm ((w0.wr LINK_RING_EN.EN 1).wri LINK_RING_STATUS_r.STATE 0 4) fun x => { x with phase := 4, sent := 1 }, 0, 0, frameOf 0xA1 0 0, 1, by
      obtain ⟨hp, hg, hc⟩ := frameOf_payload 0xA1 0 0 (.inl rfl)
      simp only [FrameIn.execTick, FrameIn.wrapped, FrameIn.loop, FrameIn.slot, hp, hg, hc]
      decide +kernel⟩,
   ⟨(w0.wr LINK_RING_EN.EN 1).wri LINK_RING_STATUS_r.STATE 0 4, 0, 0, ⟨[.k 27 7, .data 0xA1, .k 28 1], 2000⟩, 1, by decide +kernel⟩,
   ⟨onTm ((w0.wr LINK_RING_EN.EN 1).wri LINK_RING_STATUS_r.STATE 0 4) fun x => { x with phase := 4, sent := 0 }, 0, 0, frameOf 0xA1 0 0, 1, by
      obtain ⟨hp, hg, hc⟩ := frameOf_payload 0xA1 0 0 (.inl rfl)
      simp only [FrameIn.execTick, FrameIn.wrapped, FrameIn.loop, FrameIn.slot, hp, hg, hc]
      decide +kernel⟩,
   ⟨(w0.wr LINK_RING_EN.EN 1).wri LINK_RING_STATUS_r.STATE 0 2, 0, 0, frameOf 0xB1 0x83 0, 1, by
      obtain ⟨hp, hg, hc⟩ := frameOf_payload 0xB1 0x83 0 (.inr rfl)
      simp only [FrameIn.execTick, FrameIn.wrapped, FrameIn.loop, FrameIn.slot, hp, hg, hc]
      decide +kernel⟩,
   ⟨onCell ((((w0.wr LINK_RING_EN.EN 1).wri LINK_RING_STATUS_r.STATE 0 2).wri HGS_CELL_CFG_n.ENABLE 1 1).wri LINK_CELL_STATUS_n.LSTATE 1 5) 1 fun x => { x with link := { x.link with rank := 3 } }, 0, 0, frameOf 0xB1 0 0x80, 1, 1, by
      obtain ⟨hp, hg, hc⟩ := frameOf_payload 0xB1 0 0x80 (.inr rfl)
      simp only [FrameIn.execTick, FrameIn.wrapped, FrameIn.loop, FrameIn.slot, hp, hg, hc]
      decide +kernel⟩,
   ⟨onRing (w0.wr LINK_RING_EN.EN 1) 0 fun x => { x with lastTr := [(5, (0, 0))] }, 0, 0, .k 28 0, .data 0x31, 0x31, 1, by decide +kernel⟩,
   ⟨(w0.wr LINK_RING_EN.EN 1).wr SLC_TR_ROUTE.CAUSE4 1, 0, 0, .k 28 0, .data 0xC1, 0x41, 1, by decide +kernel⟩,
   ⟨w0.wr LINK_RING_EN.EN 1, 0, 0, .k 28 0, .data 0x70, 0x70, 1, by decide +kernel⟩,
   ⟨w0.wr LINK_RING_EN.EN 1, 0, 0, .k 28 0, .data 0x1F, 0x1F, 1, by decide +kernel⟩,
   ⟨onRing (w0.wr LINK_RING_EN.EN 1) 0 fun x => { x with lastTr := [(2, (0, 36))] }, 0, 0, .k 28 0, .data 0x31, 0x31, 100, by decide +kernel⟩,
   ⟨w0.wr LINK_RING_EN.EN 1, 0, 0, .k 28 6, .data 0x31, 1, by decide +kernel⟩⟩

theorem test_meets_LoopDownAndUpCommands :
    (∃ (s : State) (r : Fin 16) (l : Fin 2),
        s.pwr.mainOn = true ∧ s.ringOn r = true ∧ s.rd LINK_CFG.LOOP_DOWN ≤ (s.ring r).bad.getD l 0 ∧ s.rings.length = 16 ∧ s.rdi (loopField (1 - l.val)) r = 2 ∧ (s.ringState r = 2 ∨ s.ringState r = 3 ∨ s.ringState r = 4)) ∧
    (∃ (s : State) (r : Fin 16) (l : Fin 2),
        s.pwr.mainOn = true ∧ s.ringOn r = true ∧ s.rd LINK_CFG.LOOP_DOWN ≤ (s.ring r).bad.getD l 0 ∧ s.rings.length = 16 ∧ s.rdi (loopField (1 - l.val)) r ≠ 2) ∧
    (∃ (s : State) (r : Fin 16) (l : Fin 2),
        s.pwr.mainOn = true ∧ s.ringOn r = true ∧ 64 ≤ (s.ring r).good.getD l 0 ∧ (s.ring r).before < 8) :=
  ⟨⟨onRing (((w0.wr LINK_RING_EN.EN 1).wri LINK_RING_STATUS_r.STATE 0 4).wri (loopField 1) 0 2) 0 fun x => { x with bad := [9, 9] }, 0, 0, by decide +kernel⟩,
   ⟨onRing ((w0.wr LINK_RING_EN.EN 1).wri (loopField 0) 0 1) 0 fun x => { x with bad := [9, 9] }, 0, 1, by decide +kernel⟩,
   ⟨onRing (w0.wr LINK_RING_EN.EN 1) 0 fun x => { x with good := [64, 64], before := 4 }, 0, 0, by decide +kernel⟩⟩

theorem test_meets_LinkRateAndRingCommands_0 :
    (∃ (s : State) (m : Nat) (e : Nat) (r : Fin 16),
        s.pwr.mainOn = true ∧ s.rings.length = 16 ∧ bitOf m r = true ∧ s.ringOn r = true ∧ s.ringState r = 2) ∧
    (∃ (s : State) (m : Nat) (e : Nat) (r : Fin 16),
        s.pwr.mainOn = true ∧ s.rings.length = 16 ∧ ¬(bitOf m r = true ∧ s.ringOn r = true ∧ s.ringState r = 2)) ∧
    (∃ (s : State) (m : Nat) (e : Nat) (r : Fin 16),
        s.pwr.mainOn = true ∧ s.rings.length = 16 ∧ ((maskRings m).all (fun q => s.ringBlocked q) = true) ∧ bitOf m r = true ∧ s.ringOn r = true ∧ s.ringState r = 4) ∧
    (∃ (s : State) (m : Nat) (e : Nat) (r : Fin 16),
        s.pwr.mainOn = true ∧ s.rings.length = 16 ∧ ((maskRings m).all (fun q => s.ringBlocked q) = true) ∧ ¬(bitOf m r = true ∧ s.ringOn r = true ∧ s.ringState r = 4)) ∧
    (∃ (s : State) (m : Nat) (e : Nat),
        s.pwr.mainOn = true ∧ ((maskRings m).all (fun q => s.ringBlocked q) = false)) ∧
    (∃ (s : State) (r : Fin 16) (e : Nat),
        s.pwr.mainOn = true ∧ s.rings.length = 16 ∧ s.ringState r = 3 ∧ (s.ring r).wkAt + 300000 ≤ (s.moveTo e).tm.e) ∧
    (∃ (s : State) (r : Fin 16) (e : Nat),
        s.pwr.mainOn = true ∧ s.rings.length = 16 ∧ s.stage = 3 ∧ s.bit PWR_STATUS.SLEEP = false ∧ s.ringOn r = true ∧ s.ringState r = 2 ∧ ((s.plant.filter (fun c => ringOf c == r)).all (fun c => s.lstate c == 5) = true ∨ (s.ring r).wadiAt + 10000000000 ≤ (s.moveTo e).tm.e)) ∧
    (∃ (s : State) (r : Fin 16) (e : Nat),
        s.pwr.mainOn = true ∧ s.rings.length = 16 ∧ s.ringOn r = true ∧ s.ringState r = 1) ∧
    (∃ (s : State) (r : Fin 16) (e : Nat),
        s.pwr.mainOn = true ∧ s.rings.length = 16 ∧ s.ringOn r = true ∧ s.ringState r = 3 ∧ (s.moveTo e).tm.e ≤ (s.ring r).wkAt + 300000) ∧
    (∃ (s : State) (r : Fin 16) (e : Nat),
        s.pwr.mainOn = true ∧ s.rings.length = 16 ∧ s.ringOn r = true ∧ s.ringState r = 3 ∧ (s.ring r).wkAt + 300000 < (s.moveTo e).tm.e) ∧
    (∃ (s : State) (v : Nat) (e : Nat) (r : Fin 16),
        s.pwr.mainOn = true ∧ s.rings.length = 16 ∧ (∀ q, s.ringBlocked q = true) ∧ bitOf (v % 2 ^ s.ringCount) r = true ∧ bitOf (s.rd LINK_RING_EN.EN) r = false) ∧
    (∃ (s : State) (v : Nat) (e : Nat) (r : Fin 16),
        s.pwr.mainOn = true ∧ s.rings.length = 16 ∧ (∀ q, s.ringBlocked q = true) ∧ bitOf (v % 2 ^ s.ringCount) r = false ∧ bitOf (s.rd LINK_RING_EN.EN) r = true) ∧
    (∃ (s : State) (v : Nat) (e : Nat) (r : Fin 16),
        s.pwr.mainOn = true ∧ s.rings.length = 16 ∧ (∀ q, s.ringBlocked q = true) ∧ bitOf (v % 2 ^ s.ringCount) r = bitOf (s.rd LINK_RING_EN.EN) r) ∧
    (∃ (s : State) (v : Nat),
        s.pwr.mainOn = true ∧ 2 ≤ bits v 24 5 ∧ 2 ≤ bits v 20 4 ∧ 2 ≤ bits v 16 4 ∧ s.rd CLK_TICK_CFG.OVERRUN_LIMIT < bits v 24 5) ∧
    (∃ (s : State) (v : Nat),
        s.pwr.mainOn = true ∧ 2 ≤ bits v 24 5 ∧ 2 ≤ bits v 20 4 ∧ 2 ≤ bits v 16 4 ∧ bits v 24 5 ≤ s.rd CLK_TICK_CFG.OVERRUN_LIMIT) :=
  ⟨⟨(w0.wr LINK_RING_EN.EN 1).wri LINK_RING_STATUS_r.STATE 0 2, 1, 1, 0, by decide +kernel⟩,
   ⟨w0, 0, 100000000000000, 1, by decide +kernel⟩,
   ⟨(w0.wr LINK_RING_EN.EN 1).wri LINK_RING_STATUS_r.STATE 0 4, 1, 1, 0, by decide +kernel⟩,
   ⟨w0, 0, 100000000000000, 1, by decide +kernel⟩,
   ⟨onCell (w0.wri HGS_CELL_CFG_n.ENABLE 0 1) 0 fun x => { x with svc := { x.svc with blk := false } }, 1, 1, by decide +kernel⟩,
   ⟨(w0.wri LINK_RING_STATUS_r.STATE 1 3), 1, 100000000000000, by decide +kernel⟩,
   ⟨((((w0.wr HOST_STATUS.STAGE 3).wr PWR_STATUS.SLEEP 0).wr LINK_RING_EN.EN 65535).wri LINK_RING_STATUS_r.STATE 1 2), 1, 100000000000000, by decide +kernel⟩,
   ⟨((w0.wr LINK_RING_EN.EN 65535).wri LINK_RING_STATUS_r.STATE 1 1), 1, 100000000000000, by decide +kernel⟩,
   ⟨((w0.wr LINK_RING_EN.EN 65535).wri LINK_RING_STATUS_r.STATE 1 3), 1, 300000, by decide +kernel⟩,
   ⟨((w0.wr LINK_RING_EN.EN 65535).wri LINK_RING_STATUS_r.STATE 1 3), 1, 300001, by decide +kernel⟩,
   ⟨w0, 1, 1, 0, by decide +kernel, by decide +kernel, fun _ => rfl, by decide +kernel, by decide +kernel⟩,
   ⟨w0.wr LINK_RING_EN.EN 1, 0, 1, 0, by decide +kernel, by decide +kernel, fun _ => rfl, by decide +kernel, by decide +kernel⟩,
   ⟨w0, 1, 1, 1, by decide +kernel, by decide +kernel, fun _ => rfl, by decide +kernel⟩,
   ⟨w0, 0x05220000, by decide +kernel⟩,
   ⟨w0, 0x2220000, by decide +kernel⟩⟩

theorem test_meets_LinkRateAndRingCommands_1 : ∃ (s : State) (r : Fin 16) (e : Nat),
    s.pwr.mainOn = true ∧ s.rings.length = 16 ∧ s.wadiRate r = true ∧ (s.ring r).wadiTx + (if s.stage = 3 ∧ s.bit PWR_STATUS.SLEEP = false then 1 else s.rd LINK_WADI_CFG.INTERVAL) * 1000000 ≤ (s.moveTo e).tm.e :=
  ⟨(w0.wr LINK_RING_EN.EN 1).wri LINK_RING_STATUS_r.STATE 0 2, 0, 100000000000000, by decide +kernel⟩

theorem test_meets_LinkStateCommands :
    (∃ (s : State) (c : Fin 240),
        s.pwr.mainOn = true ∧ s.bit PWR_STATUS.SLEEP = false ∧ s.lstate c = 2 ∧ 16 ≤ (s.cell c).link.ticks ∧ (s.cell c).link.tel.valid = false) ∧
    (∃ (s : State) (c : Fin 240),
        (s.cell c).svc.due = 3) ∧
    (∃ (s : State) (c : Fin 240),
        s.pwr.mainOn = true ∧ s.bit PWR_STATUS.SLEEP = false ∧ s.lstate c = 2 ∧ 64 ≤ (s.cell c).link.delayA.length) ∧
    (∃ (s : State) (c : Fin 240),
        s.pwr.mainOn = true ∧ s.bit PWR_STATUS.SLEEP = false ∧ s.lstate c = 3 ∧ 32 ≤ (s.cell c).link.ticks) ∧
    (∃ (s : State) (c : Fin 240),
        s.pwr.mainOn = true ∧ (s.cell c).link.aux.acked < (s.cell c).link.aux.cur.length ∧ 8 ≤ (s.cell c).link.aux.stall) ∧
    (∃ (s : State) (l : Fin 32) (k : Nat),
        s.pwr.mainOn = true ∧ k ≠ l.val) ∧
    (∃ (s : State) (r : Fin 16) (q : Fin 15) (l : Fin 2) (mk x : Code) (e : Nat),
        s.pwr.mainOn = true ∧ s.ringOn r = true ∧ s.rings.length = 16 ∧ orderSet 4 mk x = some q.val ∧ s.grantable (r.val * 15 + q.val) = true ∧ s.bit PWR_STATUS.SLEEP = false ∧ (s.lstate (r.val * 15 + q.val) = 0 ∨ s.lstate (r.val * 15 + q.val) = 6)) ∧
    (∃ (s : State) (r : Fin 16) (q : Fin 15) (l : Fin 2) (mk x : Code) (e : Nat),
        s.pwr.mainOn = true ∧ s.ringOn r = true ∧ orderSet 4 mk x = some q.val ∧ s.grantable (r.val * 15 + q.val) = false ∧ s.bit PWR_STATUS.SLEEP = false) ∧
    (∃ (s : State) (r : Fin 16) (l : Fin 2) (mk x : Code) (e v : Nat),
        s.pwr.mainOn = true ∧ s.ringOn r = true ∧ orderSet 4 mk x = some v ∧ 15 ≤ v) ∧
    (∃ (s : State) (r : Fin 16) (l : Fin 2) (mk x : Code) (e : Nat),
        s.pwr.mainOn = true ∧ s.ringOn r = true ∧ orderSet 4 mk x = none) ∧
    (∃ (s : State) (c : Fin 240),
        s.pwr.mainOn = true ∧ s.enabled c = true ∧ 2 ≤ s.lstate c ∧ s.lstate c ≤ 5 ∧ (s.lstate c = 2 → (s.cell c).link.tel.valid = true) ∧ s.rd LINK_CFG.LOST_TICKS ≤ (s.cell c).link.missing ∧ s.sstate c ≠ 9) :=
  ⟨⟨(onCell (onCell (w0.wri LINK_CELL_STATUS_n.LSTATE 1 2) 1 fun x => { x with link := { x.link with ticks := 16 } }) 1 fun x => { x with link := { x.link with tel := { x.link.tel with valid := false } } }), 1, by decide +kernel⟩,
   ⟨onCell w0 1 fun x => { x with svc := { x.svc with due := 3 } }, by decide +kernel⟩,
   ⟨onCell (w0.wri LINK_CELL_STATUS_n.LSTATE 0 2) 0 fun x => { x with link := { x.link with delayA := List.replicate 64 0 } }, 0, by decide +kernel⟩,
   ⟨(onCell (w0.wri LINK_CELL_STATUS_n.LSTATE 1 3) 1 fun x => { x with link := { x.link with ticks := 32 } }), 1, by decide +kernel⟩,
   ⟨onCell w0 1 fun x => { x with link := { x.link with aux := { x.link.aux with cur := [0], acked := 0, stall := 8 } } }, 1, by decide +kernel⟩,
   ⟨w0, 0, 1, by decide +kernel⟩,
   ⟨(((w0.wr LINK_RING_EN.EN 1).wri HGS_CELL_CFG_n.ENABLE 0 1).wri (loopField 0) 0 0).wri (loopField 1) 0 0, 0, 0, 1, .k 28 4, .data 0x80, 1, by decide +kernel⟩,
   ⟨w0.wr LINK_RING_EN.EN 65535, 15, 14, 1, .k 28 4, .data 0x0E, 1, by decide +kernel⟩,
   ⟨w0.wr LINK_RING_EN.EN 65535, 1, 1, .k 28 4, .data 0x8F, 1, 15, by decide +kernel⟩,
   ⟨w0.wr LINK_RING_EN.EN 65535, 1, 1, .k 28 4, .k 28 5, 1, by decide +kernel⟩,
   ⟨onCell ((w0.wri HGS_CELL_CFG_n.ENABLE 0 1).wri LINK_CELL_STATUS_n.LSTATE 0 5) 0 fun x => { x with link := { x.link with missing := 15 } }, 0, by decide +kernel⟩⟩

theorem test_meets_MeteringCommands :
    (∃ (s : State) (c : Fin 240) (n : Lease) (d : Desc),
        s.pwr.mainOn = true ∧ s.pwr.pfAt = none ∧ (s.mtr.leasing.find? (fun x => x.1 == c.val) = some (c.val, n, d)) ∧ d.epoch = s.hst.epoch) ∧
    (∃ (s : State) (c : Fin 240),
        s.pwr.mainOn = true ∧ s.pwr.pfAt ≠ none) ∧
    (∃ (s : State) (c : Fin 240),
        s.pwr.mainOn = true ∧ (s.mtr.leasing.find? (fun x => x.1 == c.val) = none)) ∧
    (∃ (s : State),
        s.pwr.mainOn = true ∧ s.rd MTR_CAL_CTRL.PENDING = 1) ∧
    (∃ (s : State),
        s.pwr.mainOn = true ∧ s.rd MTR_CAL_CTRL.PENDING = 0) :=
  ⟨⟨onMtr w0 fun x => { x with leasing := [(0, ⟨0, 0, 0, 0, 0, 0⟩, desc0)] }, 0, ⟨0, 0, 0, 0, 0, 0⟩, desc0, by decide +kernel⟩,
   ⟨onPwr w0 fun x => { x with pfAt := some 0 }, 0, by decide +kernel⟩,
   ⟨w0, 0, by decide +kernel⟩,
   ⟨w0.wr MTR_CAL_CTRL.PENDING 1, by decide +kernel⟩,
   ⟨w0, by decide +kernel⟩⟩

theorem test_meets_LatchAndRecordCommands :
    (∃ (s : State) (e : Nat) (d : Nat) (f : Snap × List Rec),
        s.pwr.mainOn = true ∧ s.mtr.form = some f ∧ s.mtr.due = some d ∧ d ≤ (s.moveTo e).tm.e ∧ s.mtr.snap = none ∧ s.pwr.pfAt = none) ∧
    (∃ (s : State) (e : Nat),
        s.pwr.mainOn = true ∧ s.bit PWR_STATUS.SLEEP = true ∧ s.mtr.form = none ∧ s.mtr.latchAt + s.mtr.n * s.nominalPeriod + 100000 ≤ (s.moveTo e).tm.e ∧ s.mtr.snap = none ∧ s.pwr.pfAt = none) ∧
    (∃ (s : State) (x : Snap) (l : List Rec),
        s.pwr.mainOn = true ∧ s.mtr.snap = some (x, l) ∧ x.kind ≠ 1 ∧ s.mtr.queue = [] ∧ ((s.jr.recs.filter (fun r => !r.consumed)).length + l.length ≤ 2828)) ∧
    (∃ (s : State) (e : Nat) (r : Rec) (q : List Rec),
        s.pwr.mainOn = true ∧ s.mtr.queue = r :: q ∧ s.pwr.pfAt = none ∧ s.bit MTR_STATUS.KEY_OK = true) ∧
    (∃ (s : State) (e : Nat) (r : Rec) (q : List Rec),
        s.pwr.mainOn = true ∧ s.mtr.queue = r :: q ∧ s.pwr.pfAt = none ∧ s.bit MTR_STATUS.KEY_OK = false) :=
  ⟨⟨onMtr w0 fun x => { x with form := some (snap0, []), due := some 0 }, 1, 0, (snap0, []), by decide +kernel⟩,
   ⟨w0.wr PWR_STATUS.SLEEP 1, 100000000000000, by decide +kernel⟩,
   ⟨(onMtr (onMtr w0 fun x => { x with snap := some (snap0, ([])) }) fun x => { x with queue := [] }), snap0, [], by decide +kernel⟩,
   ⟨(onPwr (onMtr (w0.wr MTR_STATUS.KEY_OK 1) fun x => { x with queue := rec0 :: ([]) }) fun x => { x with pfAt := none }), 100000000000000, rec0, [], by decide +kernel⟩,
   ⟨(onPwr (onMtr (w0.wr MTR_STATUS.KEY_OK 0) fun x => { x with queue := rec0 :: ([]) }) fun x => { x with pfAt := none }), 100000000000000, rec0, [], by decide +kernel⟩⟩

theorem test_meets_PowerFailCommands :
    (∃ (s : State) (e : Nat),
        s.pwr.mainOn = true ∧ s.journalUp = true ∧ s.pwr.pfAt = none ∧ s.rd SLC_BLOCK_STATUS.PHASES < 8) ∧
    (∃ (s : State) (e : Nat),
        s.pwr.mainOn = true ∧ s.journalUp = true ∧ s.pwr.pfAt ≠ none) ∧
    (∃ (s : State) (e : Nat),
        s.pwr.mainOn = true ∧ s.journalUp = false) ∧
    (∃ (s : State) (e : Nat) (a : Nat),
        s.pwr.mainOn = true ∧ s.pwr.pfAt = some a ∧ s.pwr.pfFrozen = false ∧ a + max (2 * s.period) 100000 ≤ (s.moveTo e).tm.e ∧ (s.tm.run = false ∨ s.tm.phase = 6)) ∧
    (∃ (s : State) (x : Snap) (l : List Rec),
        s.pwr.mainOn = true ∧ s.mtr.snap = some (x, l) ∧ x.kind = 1) ∧
    (∃ (s : State) (e : Nat),
        s.pwr.mainOn = false ∧ s.bit PWR_STATUS.PF_WARN = true ∧ s.pwr.railsOk = true ∧ s.pwr.resetN = true) :=
  ⟨⟨(onPwr (w0.wr SLC_BLOCK_STATUS.PHASES 0) fun x => { x with pfAt := none }), 100000000000000, by decide +kernel⟩,
   ⟨onPwr w0 fun x => { x with pfAt := some 0 }, 1, by decide +kernel⟩,
   ⟨w0.wr CIS_STATUS.STATE 0, 1, by decide +kernel⟩,
   ⟨(onTm (onPwr (onPwr w0 fun x => { x with pfAt := some 0 }) fun x => { x with pfFrozen := false }) fun x => { x with run := false }), 100000000000000, 0, by decide +kernel⟩,
   ⟨onMtr w0 fun x => { x with snap := some ({ snap0 with kind := 1 }, []) }, { snap0 with kind := 1 }, [], by decide +kernel⟩,
   ⟨(onPwr (onPwr (onPwr (onPwr (w0.wr PWR_STATUS.PF_WARN 1) fun x => { x with mainOn := false }) fun x => { x with railsOk := true }) fun x => { x with resetN := true }) fun x => { x with mainOn := false }), 100000000000000, by decide +kernel⟩⟩

theorem test_meets_IslandProbeCommands :
    (∃ (s : State) (e : Nat),
        s.pwr.mainOn = true ∧ s.tm.s1run = true ∧ s.chipDue = true ∧ s.act MIR_WIN_CFG.UPDATE * (if 1 ≤ s.rd CLK_TICK_STATUS.SHED_LEVEL then 4 else 1) ≤ s.law.mir.chips + 1) ∧
    (∃ (s : State) (e : Nat) (x : Cx × Cx × Int),
        s.pwr.mainOn = true ∧ s.tm.s1run = true ∧ s.chipDue = true ∧ s.law.mir.chips + 1 < s.act MIR_WIN_CFG.UPDATE * (if 1 ≤ s.rd CLK_TICK_STATUS.SHED_LEVEL then 4 else 1) ∧ s.tm.n % (s.chipLen : Int) = 0 ∧ s.codeSet = s.law.mir.code ∧ s.probeAllowed = true ∧ s.law.mir.inject = true ∧ s.law.mir.restart = false ∧ s.law.mir.n ≠ 0 ∧ s.law.mir.last = some x ∧ s.chipNow = s.law.mir.chip + 1) ∧
    (∃ (s : State) (e : Nat),
        s.pwr.mainOn = true ∧ s.tm.s1run = true ∧ s.chipDue = true ∧ s.law.mir.chips + 1 < s.act MIR_WIN_CFG.UPDATE * (if 1 ≤ s.rd CLK_TICK_STATUS.SHED_LEVEL then 4 else 1) ∧ s.tm.n % (s.chipLen : Int) ≠ 0 ∧ s.probeAllowed = false) ∧
    (∃ (s : State) (e : Nat),
        s.pwr.mainOn = true ∧ s.tm.s1run = true ∧ s.law.mir.inject = true ∧ s.law.mir.told = false ∧ 2 < s.law.mir.badFor ∧ s.act MIR_ACT_CFG.FAULT_TRIP = 0) ∧
    (∃ (s : State) (e : Nat),
        s.pwr.mainOn = true ∧ s.tm.s1run = true ∧ s.law.mir.inject = true ∧ s.law.mir.told = false ∧ 2 < s.law.mir.badFor ∧ s.act MIR_ACT_CFG.FAULT_TRIP = 1 ∧ s.rd SLC_BLOCK_STATUS.PHASES < 8 ∧ s.law.src.gfm = false) ∧
    (∃ (s : State) (d : Rat) (e : Nat),
        s.pwr.mainOn = true ∧ s.tm.s1run = true ∧ s.rocofHigh = true ∧ s.law.mir.rocofFor = some d ∧ (s.act MIR_PASSIVE_CFG.ROCOF_TIME : Rat) / 100 ≤ d ∧ s.rd SLC_BLOCK_STATUS.PHASES < 8 ∧ (s.law.src.gfm = false ∨ s.act MIR_ACT_CFG.GFM_ACT ≠ 1)) ∧
    (∃ (s : State) (d : Rat) (e : Nat),
        s.pwr.mainOn = true ∧ s.tm.s1run = true ∧ s.rocofHigh = true ∧ s.law.mir.rocofFor = some d ∧ (s.act MIR_PASSIVE_CFG.ROCOF_TIME : Rat) / 100 ≤ d ∧ s.law.mir.frozen = false ∧ s.law.src.gfm = true ∧ s.act MIR_ACT_CFG.GFM_ACT = 1) ∧
    (∃ (s : State) (v : Nat) (f : Fld) (a b : Nat),
        s.pwr.mainOn = true ∧ f.base = MIR_BASE.ZR.base ∧ TbItem.fld f a b ∈ s.tri.tb) :=
  ⟨⟨onLaw (onTm w0 fun x => { x with s1run := true }) fun x => { x with mir := { x.mir with chips := 1000000, chip := -1 } }, 1, by decide +kernel⟩,
   ⟨onLaw (onCell (onTm (((setAct w0 MIR_CFG.EN 0 1).wr HOST_STATUS.STAGE 5).wri HGS_CELL_CFG_n.ENABLE 0 1) fun x => { x with s1run := true }) 0 fun x => { x with svc := { x.svc with blk := false } }) fun x => { x with mir := { x.mir with chip := -1, chips := 0, inject := true, restart := false, n := 16, last := some (⟨0, 0⟩, ⟨0, 0⟩, 1), code := w0.codeSet }, sup := { x.sup with state := 0 } }, 1, (⟨0, 0⟩, ⟨0, 0⟩, 1), by decide +kernel⟩,
   ⟨onLaw (onTm w0 fun x => { x with s1run := true, n := 1 }) fun x => { x with mir := { x.mir with chip := -1, chips := 0 } }, 1, by decide +kernel⟩,
   ⟨(onLaw (onLaw (onLaw (onTm (setAct w0 MIR_ACT_CFG.FAULT_TRIP 0 0) fun x => { x with s1run := true }) fun x => { x with mir := { x.mir with inject := true } }) fun x => { x with mir := { x.mir with told := false } }) fun x => { x with mir := { x.mir with badFor := 3 } }), 100000000000000, by decide +kernel⟩,
   ⟨(onLaw (onLaw (onLaw (onLaw (onLaw (onTm ((setAct w0 MIR_ACT_CFG.FAULT_TRIP 0 1).wr SLC_BLOCK_STATUS.PHASES 0) fun x => { x with s1run := true }) fun x => { x with mir := { x.mir with inject := true } }) fun x => { x with mir := { x.mir with told := false } }) fun x => { x with mir := { x.mir with badFor := 3 } }) fun x => { x with mir := { x.mir with frozen := true } }) fun x => { x with src := { x.src with gfm := false } }), 100000000000000, by decide +kernel⟩,
   ⟨onCell (onLaw (onTm ((setAct w0 MIR_PASSIVE_CFG.ROCOF_EN 0 1).wri HGS_CELL_CFG_n.ENABLE 0 1) fun x => { x with s1run := true }) fun x => { x with mir := { x.mir with rocofFor := some 1000000, frozen := true }, trk := { x.trk with rocof := 1000, coast := false }, sup := { x.sup with state := 0 } }) 0 fun x => { x with svc := { x.svc with blk := false } }, 1000000, 1, by decide +kernel⟩,
   ⟨onCell (onLaw (onTm ((setAct (setAct w0 MIR_PASSIVE_CFG.ROCOF_EN 0 1) MIR_ACT_CFG.GFM_ACT 0 1).wri HGS_CELL_CFG_n.ENABLE 0 1) fun x => { x with s1run := true }) fun x => { x with mir := { x.mir with rocofFor := some 1000000, frozen := false }, trk := { x.trk with rocof := 1000, coast := false }, sup := { x.sup with state := 0 }, src := { x.src with gfm := true } }) 0 fun x => { x with svc := { x.svc with blk := false } }, 1000000, 1, by decide +kernel⟩,
   ⟨onTri w0 fun x => { x with tb := [.fld MIR_BASE.ZX 0 1] }, 0, MIR_BASE.ZX, 0, 1, by decide +kernel⟩⟩

theorem test_meets_PortConfigurationWrites :
    (∃ (s : State) (c : Fin 240) (v : Nat) (g : Fin 4),
        s.pwr.mainOn = true ∧ s.cellCount ≤ c.val) ∧
    (∃ (s : State) (c : Fin 240) (v : Nat) (d : Nat),
        s.pwr.mainOn = true ∧ c.val < s.cellCount ∧ bits v 0 11 < bits v 11 11 ∧ bits v 22 8 % chipTicks (s.act MIR_CFG.CHIPLEN) ≠ 0 ∧ 2 ≤ popcount8 (bits v 22 8) ∧ s.rowTaken c (s.phaseOf c) (bits v 22 8) = false ∧ d ≠ c.val) ∧
    (∃ (s : State) (c : Fin 240) (v : Nat),
        s.pwr.mainOn = true ∧ c.val < s.cellCount ∧ bits v 0 11 < bits v 11 11 ∧ bits v 22 8 % chipTicks (s.act MIR_CFG.CHIPLEN) ≠ 0 ∧ 2 ≤ popcount8 (bits v 22 8) ∧ s.rowTaken c (s.phaseOf c) (bits v 22 8) = false ∧ (bits v 22 8 ≠ s.rdi PORT_PV_CFG_n.ROW c ∨ bits v 0 11 ≠ s.rdi PORT_PV_CFG_n.VMIN c)) ∧
    (∃ (s : State) (c : Fin 240) (v : Nat),
        s.pwr.mainOn = true ∧ c.val < s.cellCount ∧ (bits v 11 11 ≤ bits v 0 11 ∨ bits v 22 8 % chipTicks (s.act MIR_CFG.CHIPLEN) = 0 ∨ popcount8 (bits v 22 8) < 2 ∨ s.rowTaken c (s.phaseOf c) (bits v 22 8) = true)) ∧
    (∃ (s : State) (c : Fin 240) (v : Nat),
        s.pwr.mainOn = true ∧ c.val < s.cellCount ∧ s.enabled c = true ∧ s.role c = 1) ∧
    (∃ (s : State) (c : Fin 240) (v : Nat),
        s.pwr.mainOn = true ∧ c.val < s.cellCount ∧ ¬(s.enabled c = true ∧ s.role c = 1)) ∧
    (∃ (s : State) (c : Fin 240) (v : Nat),
        s.pwr.mainOn = true ∧ c.val < s.cellCount ∧ bits v 24 8 < bits v 16 8 ∧ bits v 16 8 ≤ 200 ∧ 1 ≤ bits v 8 8 ∧ bits v 8 8 ≤ 40 ∧ s.enabled c = true ∧ s.role c = 1) ∧
    (∃ (s : State) (c : Fin 240) (v : Nat),
        s.pwr.mainOn = true ∧ c.val < s.cellCount ∧ bits v 0 11 < bits v 16 11 ∧ s.enabled c = true ∧ s.role c = 1) ∧
    (∃ (s : State) (c : Fin 240) (v : Nat),
        s.pwr.mainOn = true ∧ c.val < s.cellCount ∧ 1 ≤ bits v 0 10 ∧ bits v 0 10 ≤ 1000 ∧ s.enabled c = true ∧ s.role c = 1) :=
  ⟨⟨w0.wr ID_PART.DEVICE 0x7120, 120, 0, 0, by decide +kernel⟩,
   ⟨w0, 0, 100 + 500 * 2 ^ 11 + 3 * 2 ^ 22, 1, by decide +kernel⟩,
   ⟨w0, 0, 100 + 500 * 2 ^ 11 + 3 * 2 ^ 22, by decide +kernel⟩,
   ⟨w0, 1, 0x0, by decide +kernel⟩,
   ⟨((w0.wri HGS_CELL_CFG_n.ENABLE 1 1).wri HGS_CELL_CFG_n.ROLE 1 1), 1, 0, by decide +kernel⟩,
   ⟨w0, 1, 0, by decide +kernel⟩,
   ⟨(w0.wri HGS_CELL_CFG_n.ENABLE 0 1).wri HGS_CELL_CFG_n.ROLE 0 1, 0, 200 * 2 ^ 16 + 40 * 2 ^ 8, by decide +kernel⟩,
   ⟨(w0.wri HGS_CELL_CFG_n.ENABLE 0 1).wri HGS_CELL_CFG_n.ROLE 0 1, 0, 500 * 2 ^ 16, by decide +kernel⟩,
   ⟨((w0.wri HGS_CELL_CFG_n.ENABLE 1 1).wri HGS_CELL_CFG_n.ROLE 1 1), 1, 0x1, by decide +kernel⟩⟩

theorem test_meets_PanelTrackingCommands :
    (∃ (s : State) (e : Nat) (c : Nat),
        s.pwr.mainOn = true ∧ s.tm.run = true ∧ s.tm.phase = 0 ∧ s.tm.n % 256 = 0 ∧ c ∈ s.pvCells ∧ (s.pv c).next.find? (fun y => y.1 == periodOf s.tm.n) = some (periodOf s.tm.n, 5) ∧ (s.pv c).scan ≠ none) ∧
    (∃ (s : State) (e : Nat) (c : Nat),
        s.pwr.mainOn = true ∧ s.tm.run = true ∧ s.tm.phase = 0 ∧ s.tm.n % 256 = 0 ∧ c ∈ s.pvCells ∧ (s.pv c).next = []) ∧
    (∃ (s : State) (e : Nat) (c : Nat),
        s.pwr.mainOn = true ∧ s.tm.s1run = true ∧ s.law.estimated < (s.tm.n - 257 - (s.law.trkCfg.getD 2 2 : Nat)) / 256 ∧ (s.pv c).bad.contains ((s.tm.n - 257 - (s.law.trkCfg.getD 2 2 : Nat)) / 256) = true) ∧
    (∃ (s : State) (c : Fin 240) (e i : Nat),
        s.pwr.mainOn = true ∧ s.enabled c = true ∧ s.role c = 2 ∧ (s.moveTo e).scanInstant c = some i ∧ (s.pv c).due ≤ i ∧ s.law.scanFrom ≤ i) ∧
    (∃ (s : State) (c : Nat),
        s.pwr.mainOn = true ∧ c < 240 ∧ s.enabled c = true ∧ s.role c = 2) ∧
    (∃ (s : State) (c : Nat),
        s.pwr.mainOn = true ∧ ¬(c < 240 ∧ s.enabled c = true ∧ s.role c = 2)) ∧
    (∃ (s : State) (c : Nat),
        s.pwr.mainOn = true ∧ c ∈ s.pvCells) ∧
    (∃ (s : State) (c : Fin 240) (e : Nat) (k : ScanSt),
        s.pwr.mainOn = true ∧ s.tm.s1run = true ∧ (s.pv c).scan = some k ∧ k.swept = false ∧ k.start + s.act PORT_SCAN_CFG.DWELL ≤ s.tm.n + 1 ∧ ((s.pv c).vmin : Rat) ≤ k.v - (s.act PORT_SCAN_CFG.STEP : Rat) / 200 * ((s.pv c).vmax : Rat)) ∧
    (∃ (s : State) (c : Fin 240) (e : Nat) (k : ScanSt),
        s.pwr.mainOn = true ∧ s.tm.s1run = true ∧ (s.pv c).scan = some k ∧ k.swept = false ∧ k.start + s.act PORT_SCAN_CFG.DWELL ≤ s.tm.n + 1 ∧ k.v - (s.act PORT_SCAN_CFG.STEP : Rat) / 200 * ((s.pv c).vmax : Rat) < ((s.pv c).vmin : Rat)) ∧
    (∃ (s : State) (c : Fin 240) (k : ScanSt) (b : Rat × Rat),
        s.tm.s1run = true ∧ (s.pv c).scan = some k ∧ k.swept = true ∧ k.pts = [] ∧ k.best = some b ∧ 1005 / 1000 * k.ppre < b.2) :=
  ⟨⟨onPv ((w0.wri HGS_CELL_CFG_n.ENABLE 1 1).wri HGS_CELL_CFG_n.ROLE 1 2) 1 fun x => { x with next := [(0, 5)], scan := some ⟨0, 0, 0, none, 0, 0, [], false⟩ }, 0, 1, by decide +kernel⟩,
   ⟨((w0.wri HGS_CELL_CFG_n.ENABLE 1 1).wri HGS_CELL_CFG_n.ROLE 1 2), 0, 1, by decide +kernel⟩,
   ⟨onPv (onTm w0 fun x => { x with s1run := true, n := 100000 }) 0 fun x => { x with bad := [389] }, 1, 0, by decide +kernel⟩,
   ⟨((w0.wri HGS_CELL_CFG_n.ENABLE 1 1).wri HGS_CELL_CFG_n.ROLE 1 2), 1, 100000000000000, ((((w0.wri HGS_CELL_CFG_n.ENABLE 1 1).wri HGS_CELL_CFG_n.ROLE 1 2).moveTo 100000000000000).scanInstant 1).getD 0, by decide +kernel⟩,
   ⟨((w0.wri HGS_CELL_CFG_n.ENABLE 1 1).wri HGS_CELL_CFG_n.ROLE 1 2), 1, by decide +kernel⟩,
   ⟨w0, 0, by decide +kernel⟩,
   ⟨((w0.wri HGS_CELL_CFG_n.ENABLE 1 1).wri HGS_CELL_CFG_n.ROLE 1 2), 1, by decide +kernel⟩,
   ⟨onPv (onTm w0 fun x => { x with s1run := true }) 0 fun x => { x with vmin := 0, scan := some ⟨0, 0, 100000, none, -100000, 0, [], false⟩ }, 0, 1, ⟨0, 0, 100000, none, -100000, 0, [], false⟩, by decide +kernel⟩,
   ⟨onPv (onTm w0 fun x => { x with s1run := true }) 0 fun x => { x with vmin := 100, scan := some ⟨0, 0, 0, none, -100000, 0, [], false⟩ }, 0, 1, ⟨0, 0, 0, none, -100000, 0, [], false⟩, by decide +kernel⟩,
   ⟨onPv (onTm w0 fun x => { x with s1run := true }) 0 fun x => { x with scan := some ⟨10, 0, 20, some (30, 5), -100000, 0, [], true⟩ }, 0, ⟨10, 0, 20, some (30, 5), -100000, 0, [], true⟩, (30, 5), by decide +kernel⟩⟩

theorem test_meets_PowerUpAndPersistCommands :
    (∃ (s : State),
        s.pwr.mainOn = false) ∧
    (∃ (s : State) (v : Bool) (m : Fin 2),
        s.pwr.mainOn = true ∧ s.pwr.vddio = v ∧ v = false) ∧
    (∃ (s : State) (v : Bool),
        s.pwr.mainOn = true ∧ s.pwr.vddio = v ∧ v = true) ∧
    (∃ (s : State) (m : Fin 2),
        s.pwr.mainOn = true ∧ s.astate m = 4) ∧
    (∃ (s : State) (b : Option BootRun) (e : Nat),
        s.pwr.mainOn = true ∧ s.pwr.bootFail = false ∧ s.pwr.restart = false ∧ s.stage = 1 ∧ s.tri.imageOk = true ∧ s.pwr.tready = true) ∧
    (∃ (s : State) (b : Option BootRun) (e : Nat),
        s.pwr.mainOn = true ∧ s.pwr.bootFail = false ∧ s.pwr.restart = false ∧ s.stage = 2 ∧ s.tm.run = false ∧ (s.moveTo e).stageOk 3 = true) ∧
    (∃ (s : State) (b : Option BootRun) (e : Nat),
        s.pwr.mainOn = true ∧ s.pwr.bootFail = false ∧ s.pwr.restart = false ∧ s.stage = 3 ∧ s.tm.run = true ∧ s.bit PWR_STATUS.SLEEP = false ∧ s.pwr.wakePend = false ∧ (s.moveTo e).stageOk 4 = true) ∧
    (∃ (s : State) (b : Option BootRun) (e : Nat),
        s.pwr.mainOn = true ∧ s.pwr.bootFail = false ∧ s.pwr.restart = false ∧ s.stage = 4 ∧ (s.moveTo e).stageOk 5 = true) ∧
    (∃ (s : State) (b : Option BootRun) (e : Nat),
        s.pwr.mainOn = true ∧ s.pwr.bootFail = false ∧ s.pwr.restart = false ∧ s.stage = 4 ∧ (s.moveTo e).stageOk 5 = false) ∧
    (∃ (s : State) (e : Nat),
        s.pwr.mainOn = true ∧ s.bit TRI_FW_STATUS.STAGING = false ∧ s.bit TRI_FW_STATUS.PENDING = false ∧ s.rd LC_STATE.STATE ≠ 4) ∧
    (∃ (s : State) (e : Nat),
        s.pwr.mainOn = true ∧ (s.bit TRI_FW_STATUS.STAGING = true ∨ s.bit TRI_FW_STATUS.PENDING = true ∨ s.rd LC_STATE.STATE = 4)) ∧
    (∃ (s : State) (a : Nat),
        s.pwr.mainOn = true ∧ s.pwr.persistAt = some a ∧ s.pwr.flash.select ≤ 1) :=
  ⟨⟨(onPwr (onPwr w0 fun x => { x with mainOn := false }) fun x => { x with mainOn := false }), by decide +kernel⟩,
   ⟨onPwr w0 fun x => { x with vddio := false }, false, 1, by decide +kernel⟩,
   ⟨w0, true, by decide +kernel⟩,
   ⟨w0.wri AUX_STATUS_m.STATE 1 4, 1, by decide +kernel⟩,
   ⟨(onPwr (onTri (onPwr (onPwr (w0.wr HOST_STATUS.STAGE 1) fun x => { x with bootFail := false }) fun x => { x with restart := false }) fun x => { x with imageOk := true }) fun x => { x with tready := true }), none, 100000000000000, by decide +kernel⟩,
   ⟨onTm (w0.wr HOST_STATUS.STAGE 2) fun x => { x with run := false }, none, 100000000000000, by decide +kernel⟩,
   ⟨(onPwr (onPwr (onPwr ((w0.wr HOST_STATUS.STAGE 3).wr PWR_STATUS.SLEEP 0) fun x => { x with bootFail := false }) fun x => { x with restart := false }) fun x => { x with wakePend := false }), none, 100000000000000, by decide +kernel⟩,
   ⟨(onPwr (onPwr (w0.wr HOST_STATUS.STAGE 4) fun x => { x with bootFail := false }) fun x => { x with restart := false }), none, 100000000000000, by decide +kernel⟩,
   ⟨(w0.wr HOST_STATUS.STAGE 4).wr SYNC_CFG.EN 1, none, 1, by decide +kernel⟩,
   ⟨(((w0.wr TRI_FW_STATUS.STAGING 0).wr TRI_FW_STATUS.PENDING 0).wr LC_STATE.STATE 0), 100000000000000, by decide +kernel⟩,
   ⟨w0.wr LC_STATE.STATE 4, 1, by decide +kernel⟩,
   ⟨(onPwr (onPwr w0 fun x => { x with persistAt := some 0 }) fun x => { x with flash := { x.flash with select := 0 } }), 0, by decide +kernel⟩⟩

theorem test_meets_SleepAndShutdownCommands :
    (∃ (s : State) (e : Nat),
        s.pwr.mainOn = true ∧ s.allBlocked = true ∧ 4 ≤ s.stage ∧ s.bit TRI_FW_STATUS.PENDING = false ∧ s.bit PWR_BOOT_CTRL.BUSY = false) ∧
    (∃ (s : State) (e : Nat),
        s.pwr.mainOn = true ∧ (s.allBlocked = false ∨ s.stage < 4 ∨ s.bit TRI_FW_STATUS.PENDING = true ∨ s.bit PWR_BOOT_CTRL.BUSY = true)) ∧
    (∃ (s : State) (w : WakeSrc) (e : Nat),
        s.pwr.mainOn = true ∧ s.bit PWR_STATUS.SLEEP = true ∧ s.wakeOn w = true) ∧
    (∃ (s : State) (w : WakeSrc) (e : Nat),
        s.pwr.mainOn = true ∧ (s.bit PWR_STATUS.SLEEP = false ∨ s.wakeOn w = false)) ∧
    (∃ (s : State) (e : Nat),
        s.pwr.mainOn = true ∧ s.rd SLC_BLOCK_STATUS.SCOPE = 3) ∧
    (∃ (s : State) (e : Nat),
        s.pwr.mainOn = true ∧ s.rd SLC_BLOCK_STATUS.SCOPE ≠ 3) ∧
    (∃ (s : State) (fail : Nat) (e : Nat),
        s.pwr.mainOn = true ∧ s.pwr.shutdown = true ∧ s.mtr.snap = none ∧ s.mtr.form = none ∧ s.pwr.pfAt = none ∧ s.bit PWR_STATUS.OFF_READY = false) :=
  ⟨⟨(((w0.wr HOST_STATUS.STAGE 4).wr TRI_FW_STATUS.PENDING 0).wr PWR_BOOT_CTRL.BUSY 0), 100000000000000, by decide +kernel⟩,
   ⟨w0.wr PWR_BOOT_CTRL.BUSY 1, 1, by decide +kernel⟩,
   ⟨(w0.wr PWR_STATUS.SLEEP 1), .doorbell, 100000000000000, by decide +kernel⟩,
   ⟨w0, .doorbell, 1, by decide +kernel⟩,
   ⟨w0.wr SLC_BLOCK_STATUS.SCOPE 3, 1, by decide +kernel⟩,
   ⟨(w0.wr SLC_BLOCK_STATUS.SCOPE 0), 100000000000000, by decide +kernel⟩,
   ⟨(onPwr (onMtr (onMtr (onPwr (w0.wr PWR_STATUS.OFF_READY 0) fun x => { x with shutdown := true }) fun x => { x with snap := none }) fun x => { x with form := none }) fun x => { x with pfAt := none }), 0, 100000000000000, by decide +kernel⟩⟩

theorem test_meets_OasisAndLifeCycleCommands :
    (∃ (s : State) (o : OasisIn),
        s.pwr.oasis = true ∧ 300 ≤ o.vin ∧ 3000 ≤ o.vin) ∧
    (∃ (s : State) (o : OasisIn),
        s.pwr.oasis = true ∧ 300 ≤ o.vin ∧ o.vin < 2200) ∧
    (∃ (s : State) (o : OasisIn),
        s.pwr.oasis = true ∧ 300 ≤ o.vin ∧ s.pwr.vddio = true ∧ o.vddio = false) ∧
    (∃ (s : State),
        s.pwr.oasis = false) ∧
    (∃ (s : State) (ppm : Int) (e : Nat),
        s.pwr.mainOn = true ∧ s.pwr.trimAt + 60000000000 ≤ (s.moveTo e).tm.e) ∧
    (∃ (s : State) (ppm : Int) (e : Nat),
        s.pwr.mainOn = true ∧ (s.moveTo e).tm.e < s.pwr.trimAt + 60000000000) ∧
    (∃ (s : State) (ag : Agent) (e : Nat),
        s.pwr.mainOn = true ∧ s.rd LC_STATE.STATE = 1) ∧
    (∃ (s : State) (ag : Agent) (e : Nat),
        s.pwr.mainOn = true ∧ s.rd LC_STATE.STATE = 2 ∧ s.bit SAFE_STATUS.CONFIRMED = true ∧ s.pwr.fused ≠ none ∧ s.bit LC_STATE.KEY = true ∧ s.rd CIS_STATUS.STATE = 2 ∧ s.allBlocked = true) ∧
    (∃ (s : State) (ag : Agent) (e : Nat),
        s.pwr.mainOn = true ∧ s.rd LC_STATE.STATE = 3 ∧ s.rd SLC_BLOCK_STATUS.SCOPE = 3 ∧ (s.moveTo e).doorDemands = true ∧ 0 < s.rd LC_STATE.RETURNS_LEFT) ∧
    (∃ (s : State) (ag : Agent) (e : Nat),
        s.pwr.mainOn = true ∧ (s.rd LC_STATE.STATE = 1 ∨ s.rd LC_STATE.STATE = 2 ∨ s.rd LC_STATE.STATE = 3) ∧ s.rd SLC_BLOCK_STATUS.SCOPE = 3) ∧
    (∃ (s : State) (ag : Agent) (e : Nat),
        s.pwr.mainOn = true ∧ s.rd LC_STATE.STATE = 4) ∧
    (∃ (s : State),
        s.pwr.mainOn = true ∧ (s.rd LC_STATE.STATE = 1 ∨ s.rd LC_STATE.STATE = 2) ∧ s.pwr.fused = none) ∧
    (∃ (s : State),
        s.pwr.mainOn = true ∧ (s.pwr.fused ≠ none ∨ (s.rd LC_STATE.STATE ≠ 1 ∧ s.rd LC_STATE.STATE ≠ 2))) :=
  ⟨⟨onPwr w0 fun x => { x with oasis := true }, ⟨true, true, 0, 3000⟩, by decide +kernel⟩,
   ⟨(onPwr w0 fun x => { x with oasis := true }), ⟨true, true, 0, 300⟩, by decide +kernel⟩,
   ⟨onPwr w0 fun x => { x with oasis := true }, ⟨false, true, 0, 300⟩, by decide +kernel⟩,
   ⟨onPwr w0 fun x => { x with oasis := false }, by decide +kernel⟩,
   ⟨w0, 0, 100000000000000, by decide +kernel⟩,
   ⟨w0, 5, 1, by decide +kernel⟩,
   ⟨(w0.wr LC_STATE.STATE 1), .firmware, 100000000000000, by decide +kernel⟩,
   ⟨onPwr (((w0.wr LC_STATE.STATE 2).wr SAFE_STATUS.CONFIRMED 1).wr LC_STATE.KEY 1) fun x => { x with fused := some 5 }, .host, 1, by decide +kernel⟩,
   ⟨onSin (((w0.wr LC_STATE.STATE 3).wr SLC_BLOCK_STATUS.SCOPE 3).wri SAFE_IN_CFG_n.TYPE 0 2) 0 fun x => { x with a := true, b := true }, .host, 1, by decide +kernel⟩,
   ⟨(w0.wr LC_STATE.STATE 3).wr SLC_BLOCK_STATUS.SCOPE 3, .host, 1, by decide +kernel⟩,
   ⟨(w0.wr LC_STATE.STATE 4), .firmware, 100000000000000, by decide +kernel⟩,
   ⟨(onPwr (w0.wr LC_STATE.STATE 1) fun x => { x with fused := none }), by decide +kernel⟩,
   ⟨w0.wr LC_STATE.STATE 3, by decide +kernel⟩⟩

theorem test_meets_AgreementAndOutputVotes :
    (∃ (s : State) (r : Fin 64) (v w : Nat) (m : Member),
        s.pwr.mainOn = true ∧ (∀ k, k < 3 → s.running k = true) ∧ sgn 32 w ≠ sgn 32 v) ∧
    (∃ (s : State) (r : Fin 64) (v w : Nat),
        s.pwr.mainOn = true ∧ s.running 0 = true ∧ s.running 1 = true ∧ s.running 2 = false ∧ sgn 32 w ≠ sgn 32 v) ∧
    (∃ (s : State) (off be v w e : Nat) (m : Member),
        s.pwr.mainOn = true ∧ (∀ k, k < 3 → s.running k = true) ∧ sgn 32 w ≠ sgn 32 (v % 2 ^ 32)) ∧
    (∃ (s : State) (off off' be v e : Nat) (m : Member),
        s.pwr.mainOn = true ∧ (∀ k, k < 3 → s.running k = true) ∧ off' ≠ off) ∧
    (∃ (s : State) (used e : Nat) (m : Member),
        s.pwr.mainOn = true ∧ s.tm.run = true ∧ s.tm.phase = 3 ∧ s.deadline 3 ≤ (s.moveTo e).tm.e ∧ s.tm.abandoned = false ∧ s.tm.launchOver = false ∧ s.pwr.shutdown = false ∧ s.halted = false ∧ s.sched.plan ≠ none ∧ s.rd TRI_STATUS.MODE = 1 ∧ ((s.tri.fences.getD (memberNum m) []).filter (fun x => decide ((s.moveTo e).tm.e < x + 3600000000000))).length < 2) ∧
    (∃ (s : State) (used e : Nat),
        s.pwr.mainOn = true ∧ s.tm.run = true ∧ s.tm.phase = 3 ∧ s.deadline 3 ≤ (s.moveTo e).tm.e ∧ s.tm.abandoned = false ∧ s.tm.launchOver = false ∧ s.pwr.shutdown = false ∧ s.halted = false ∧ s.sched.plan ≠ none ∧ s.rd TRI_STATUS.MODE = 1 ∧ s.rd SLC_BLOCK_STATUS.PHASES < 8) ∧
    (∃ (s : State) (r : Fin 64) (c : Completion) (p : Nat) (m : Member),
        s.pwr.mainOn = true ∧ s.hst.comps.find? (fun c => c.cring == r.val) = some c ∧ s.rdi RING_CFG_n.TYPE r = 1 ∧ s.ringOpen r 1 = true ∧ s.pwr.pfAt = none ∧ s.entryPhys r (s.rdi RING_STATE_n.CONS r) = some (.ok p) ∧ s.rd TRI_STATUS.MODE = 1 ∧ ((s.tri.fences.getD (memberNum m) []).filter (fun x => decide (s.tm.e < x + 3600000000000))).length < 2) ∧
    (∃ (s : State) (r : Fin 64) (c : Completion) (p : Nat) (m : Member),
        s.pwr.mainOn = true ∧ s.hst.comps.find? (fun c => c.cring == r.val) = some c ∧ s.rdi RING_CFG_n.TYPE r = 1 ∧ s.ringOpen r 1 = true ∧ s.pwr.pfAt = none ∧ s.entryPhys r (s.rdi RING_STATE_n.CONS r) = some (.ok p) ∧ s.rd TRI_STATUS.MODE = 1 ∧ s.rd SLC_BLOCK_STATUS.PHASES < 8) ∧
    (∃ (s : State) (off w : Nat) (x : RegRow),
        s.pwr.mainOn = true ∧ (∀ k, k < 3 → s.running k = true) ∧ off % 4 = 0 ∧ regAt off = some x ∧ s.absentReg x ((off - x.base) / 4) = false ∧ (∀ y ∈ x.fields, y.acc ≠ .rc ∧ y.f.w ≠ 32) ∧ off / 0x10000 ≠ ADC_Q_STATUS_q.STATE.base / 0x10000 ∧ off / 0x10000 ≠ CMP_STATUS.LIVE.base / 0x10000 ∧ off / 0x10000 ≠ AUX_STATUS_m.HOLD.base / 0x10000 ∧ off ≠ CLK_ELAPSED_LO.E_LO.base ∧ off ≠ CLK_ALIGN_OFS_LO.O_LO.base ∧ off ≠ MTR_PORT_DATA_n.W.base ∧ w ≠ s.readWord .firmware off) ∧
    (∃ (s : State) (r : Fin 16) (e : Nat),
        s.pwr.mainOn = true ∧ s.wadiRate r = true ∧ s.rd TRI_STATUS.MODE = 1 ∧ s.rd SLC_BLOCK_STATUS.PHASES < 8 ∧ (s.ring r).wadiTx + (if s.stage = 3 ∧ s.bit PWR_STATUS.SLEEP = false then 1 else s.rd LINK_WADI_CFG.INTERVAL) * 1000000 ≤ (s.moveTo e).tm.e) ∧
    (∃ (s : State) (n : Fin 2) (c : PhaseSample),
        s.pwr.mainOn = true ∧ s.bit TRI_STATUS.DBG_HALT = false ∧ 2 ≤ s.astate n ∧ s.astate n ≤ 5 ∧ c.agree = .split ∧ s.rd TRI_STATUS.MODE = 1 ∧ s.rd SLC_BLOCK_STATUS.PHASES < 8) :=
  ⟨⟨w0, 5, 3, 4, .b, by decide +kernel⟩,
   ⟨w0.wr TRI_STATUS.FENCED 2, 5, 3, 4, by decide +kernel⟩,
   ⟨w0, 0x50004, 15, 1, 2, 1, .c, by decide +kernel⟩,
   ⟨w0, 0x50004, 0x50008, 15, 1, 1, .a, by decide +kernel⟩,
   ⟨{ (onTm w0 fun x => { x with phase := 3 }) with sched := { w0.sched with plan := some ⟨[], none, true, []⟩ } }, 0, 100000000000000, .a, by decide +kernel⟩,
   ⟨{ (onTm w0 fun x => { x with phase := 3 }) with sched := { w0.sched with plan := some ⟨[], none, true, []⟩ } }, 0, 100000000000000, by decide +kernel⟩,
   ⟨onHst ((((w0.wri RING_STATE_n.STATE 1 1).wri RING_CFG_n.TYPE 1 1).wri RING_CFG_n.SIZE 1 6).wr HOST_WALK_ROOT_LO.EN 1) fun x => { x with comps := [⟨1, 1, 0, 0, 0x55, 0, 0, 0, 0, [], 0⟩], cache := [⟨0, 77, true, true, 2⟩] }, 1, ⟨1, 1, 0, 0, 0x55, 0, 0, 0, 0, [], 0⟩, 77 * 4096, .b, by decide +kernel⟩,
   ⟨onHst ((((w0.wri RING_STATE_n.STATE 1 1).wri RING_CFG_n.TYPE 1 1).wri RING_CFG_n.SIZE 1 6).wr HOST_WALK_ROOT_LO.EN 1) fun x => { x with comps := [⟨1, 1, 0, 0, 0x55, 0, 0, 0, 0, [], 0⟩], cache := [⟨0, 77, true, true, 2⟩] }, 1, ⟨1, 1, 0, 0, 0x55, 0, 0, 0, 0, [], 0⟩, 77 * 4096, .b, by decide +kernel⟩,
   ⟨w0, 0x50004, 6, row 0x50004, by decide +kernel⟩,
   ⟨((w0.wr SLC_BLOCK_STATUS.PHASES 0).wr LINK_RING_EN.EN 1).wri LINK_RING_STATUS_r.STATE 0 2, 0, 100000000000000, by decide +kernel⟩,
   ⟨(w0.wr SLC_BLOCK_STATUS.PHASES 0).wri AUX_STATUS_m.STATE 1 4, 1, ⟨[0, 0, 0], 0, 0, 0, 0, 0, [], .split⟩, by decide +kernel⟩⟩

theorem test_meets_CellAndPlantConfiguration :
    (∃ (s : State) (c : Fin 240) (v : Nat) (ag : Agent),
        s.pwr.mainOn = true ∧ s.cfgOpen c = true ∧ s.cellCfgOk c v = true ∧ bitOf v 31 = true) ∧
    (∃ (s : State) (c : Fin 240) (v : Nat) (ag : Agent),
        s.pwr.mainOn = true ∧ s.cfgOpen c = true ∧ s.cellCfgOk c v = true ∧ c.val < s.cellCount ∧ s.enabled c = true ∧ bitOf v 31 = false) ∧
    (∃ (s : State) (c : Fin 240) (v : Nat) (ag : Agent),
        s.pwr.mainOn = true ∧ s.cellCount ≤ c.val) ∧
    (∃ (s : State) (v : Nat) (ag : Agent),
        s.pwr.mainOn = true ∧ s.commissioning = true ∧ s.allBlocked = true ∧ 660 ≤ bits v 0 12 ∧ bits v 0 12 ≤ 3600 ∧ 1000 ≤ bits v 16 11 ∧ bits v 16 11 ≤ 1200) ∧
    (∃ (s : State) (v : Nat) (ag : Agent),
        s.pwr.mainOn = true ∧ s.commissioning = true ∧ s.allBlocked = true ∧ 1 ≤ bits v 0 16 ∧ bits v 16 9 ≤ 300) ∧
    (∃ (s : State) (r : Nat) (e : Nat),
        s.pwr.mainOn = true ∧ s.tm.run = true ∧ s.tm.phase = 0 ∧ s.sched.rowNext = some r ∧ r ≤ 4) ∧
    (∃ (s : State) (r : Nat) (e : Nat),
        s.pwr.mainOn = true ∧ s.tm.run = true ∧ (s.moveTo e).rowUp = some r ∧ r ≤ 4) :=
  ⟨⟨w0, 0, 2 ^ 31 + 800, .host, by decide +kernel⟩,
   ⟨(w0.wri HGS_CELL_CFG_n.ENABLE 1 1), 1, 0, .firmware, by decide +kernel⟩,
   ⟨w0.wr ID_PART.DEVICE 0x7120, 120, 0, .host, by decide +kernel⟩,
   ⟨(w0.wr LC_STATE.STATE 2), 0x3e80294, .firmware, by decide +kernel⟩,
   ⟨(w0.wr LC_STATE.STATE 2), 0x1, .firmware, by decide +kernel⟩,
   ⟨(onSched (onTm w0 fun x => { x with phase := 0 }) fun x => { x with rowNext := some 0 }), 0, 100000000000000, by decide +kernel⟩,
   ⟨{ (w0.wr HGS_RATING_STATUS.DERATE_ROW 1) with sched := { w0.sched with upSince := [some 0] } }, 0, 100000000000000, by decide +kernel⟩⟩

theorem test_meets_RegisterWritesAndReads :
    (∃ (s : State) (ag : Agent) (off : Nat) (be : Nat) (v : Nat) (e : Nat),
        s.pwr.mainOn = true ∧ s.admits ag = true ∧ off < 0x290000 ∧ off % 4 = 0 ∧ off % 0x10000 < 0x8000 ∧ regAt off = none) ∧
    (∃ (s : State) (ag : Agent) (off be v e : Nat) (r : RegRow) (x f : Fld),
        s.pwr.mainOn = true ∧ s.admits ag = true ∧ off < 0x290000 ∧ off % 4 = 0 ∧ regAt off = some r ∧ r.base ≠ CRC_DATA.DATA.base ∧ be % 16 ≠ 15 ∧ s.absentReg r ((off - r.base) / 4) = false ∧ errField off = some x ∧ apart x f = true) ∧
    (∃ (s : State) (ag : Agent),
        s.pwr.mainOn = true ∧ ag = .host ∧ s.admits ag = false) ∧
    (∃ (s : State) (ag : Agent),
        s.pwr.mainOn = true ∧ ag = .debugger ∧ s.admits ag = false) ∧
    (∃ (s : State) (ag : Agent) (off : Nat),
        s.pwr.mainOn = true ∧ off % 4 ≠ 0 ∧ ag ≠ .firmware) ∧
    (∃ (s : State) (off : Nat),
        s.pwr.mainOn = true ∧ off % 4 ≠ 0 ∧ s.tri.imageOk = true) ∧
    (∃ (s : State) (ag : Agent) (v : Nat) (e : Nat),
        s.pwr.mainOn = true ∧ s.admits ag = true ∧ v < 2 ^ 32 ∧ bits v 0 8 ≤ 239) ∧
    (∃ (s : State) (ag : Agent) (v : Nat) (e : Nat),
        s.pwr.mainOn = true ∧ s.admits ag = true ∧ v < 2 ^ 32 ∧ 239 < bits v 0 8) ∧
    (∃ (s : State) (ag : Agent) (v : Nat) (e : Nat),
        s.pwr.mainOn = true ∧ s.admits ag = true ∧ v < 2 ^ 32 ∧ bits v 27 1 = 1 ∧ s.rd PWR_STATUS.CFG_ERR < 2) ∧
    (∃ (s : State) (ag : Agent) (v : Nat) (e : Nat),
        s.pwr.mainOn = true ∧ s.admits ag = true ∧ v < 2 ^ 32 ∧ bits v 27 1 = 0 ∧ s.rd PWR_STATUS.CFG_ERR < 2) ∧
    (∃ (s : State) (ag : Agent) (v : Nat) (e : Nat),
        s.pwr.mainOn = true ∧ s.admits ag = true ∧ v < 2 ^ 32 ∧ s.rd LC_STATE.STATE ≠ 2 ∧ bits v 20 12 ≠ s.rd PWR_PF_CFG.LEVEL) ∧
    (∃ (s : State) (ag : Agent) (v : Nat) (e : Nat),
        s.pwr.mainOn = true ∧ s.admits ag = true ∧ v < 2 ^ 32 ∧ s.rd LC_STATE.STATE = 2 ∧ 200 ≤ bits v 20 12 ∧ bits v 20 12 ≤ 2400 ∧ 10 ≤ bits v 12 8 ∧ 1 ≤ bits v 8 4) ∧
    (∃ (s : State) (ag : Agent) (off : Nat) (e : Nat) (r : RegRow),
        s.pwr.mainOn = true ∧ s.admits ag = true ∧ off % 4 = 0 ∧ regAt off = some r ∧ s.absentReg r ((off - r.base) / 4) = false ∧ off = CLK_ELAPSED_LO.E_LO.base) ∧
    (∃ (s : State) (ag : Agent) (off : Nat) (e : Nat) (r : RegRow),
        s.pwr.mainOn = true ∧ s.admits ag = true ∧ off % 4 = 0 ∧ regAt off = some r ∧ s.absentReg r ((off - r.base) / 4) = false ∧ off = CLK_ALIGN_OFS_LO.O_LO.base) ∧
    (∃ (s : State) (ag : Agent) (off : Nat) (e : Nat) (r : RegRow),
        s.pwr.mainOn = true ∧ s.admits ag = true ∧ off % 4 = 0 ∧ regAt off = some r ∧ s.absentReg r ((off - r.base) / 4) = false ∧ off = MTR_PORT_DATA_n.W.base) ∧
    (∃ (s : State) (ag : Agent) (off : Nat) (e : Nat) (r : RegRow),
        s.pwr.mainOn = true ∧ s.admits ag = true ∧ off % 4 = 0 ∧ regAt off = some r ∧ s.absentReg r ((off - r.base) / 4) = false ∧ off ≠ CLK_ELAPSED_LO.E_LO.base ∧ off ≠ CLK_ALIGN_OFS_LO.O_LO.base ∧ off ≠ MTR_PORT_DATA_n.W.base ∧ off / 0x10000 ≠ ADC_Q_STATUS_q.STATE.base / 0x10000 ∧ off / 0x10000 ≠ CMP_STATUS.LIVE.base / 0x10000 ∧ off / 0x10000 ≠ AUX_STATUS_m.HOLD.base / 0x10000) ∧
    (∃ (s : State) (ag : Agent) (off : Nat) (e : Nat) (r : RegRow),
        s.pwr.mainOn = true ∧ s.admits ag = true ∧ off % 4 = 0 ∧ regAt off = some r ∧ s.absentReg r ((off - r.base) / 4) = false ∧ off ≠ CLK_ELAPSED_LO.E_LO.base ∧ off ≠ CLK_ALIGN_OFS_LO.O_LO.base ∧ off ≠ MTR_PORT_DATA_n.W.base ∧ off / 0x10000 = ADC_Q_STATUS_q.STATE.base / 0x10000) ∧
    (∃ (s : State) (ag : Agent) (off : Nat) (e : Nat) (r : RegRow),
        s.pwr.mainOn = true ∧ s.admits ag = true ∧ off % 4 = 0 ∧ regAt off = some r ∧ s.absentReg r ((off - r.base) / 4) = false ∧ off ≠ CLK_ELAPSED_LO.E_LO.base ∧ off ≠ CLK_ALIGN_OFS_LO.O_LO.base ∧ off ≠ MTR_PORT_DATA_n.W.base ∧ off / 0x10000 = CMP_STATUS.LIVE.base / 0x10000) ∧
    (∃ (s : State) (ag : Agent) (off : Nat) (e : Nat) (r : RegRow),
        s.pwr.mainOn = true ∧ s.admits ag = true ∧ off % 4 = 0 ∧ regAt off = some r ∧ s.absentReg r ((off - r.base) / 4) = false ∧ off ≠ CLK_ELAPSED_LO.E_LO.base ∧ off ≠ CLK_ALIGN_OFS_LO.O_LO.base ∧ off ≠ MTR_PORT_DATA_n.W.base ∧ off / 0x10000 = AUX_STATUS_m.HOLD.base / 0x10000) :=
  ⟨⟨w0, .host, 0x7FFC, 15, 0, 1, by decide +kernel⟩,
   ⟨w0, .host, CLK_TICK_CFG.PERIOD.base, 1, 0, 1, row CLK_TICK_CFG.PERIOD.base, CLK_TICK_STATUS.CFG_ERR, CLK_TICK_CFG.PERIOD, by decide +kernel⟩,
   ⟨onHst w0 fun x => { x with d3 := true }, .host, by decide +kernel⟩,
   ⟨w0.wr LC_STATE.STATE 3, .debugger, by decide +kernel⟩,
   ⟨w0, .host, 1, by decide +kernel⟩,
   ⟨w0, 0x10002, by decide +kernel⟩,
   ⟨w0, .firmware, 0x0, 100000000000000, by decide +kernel⟩,
   ⟨w0, .firmware, 0xf0, 100000000000000, by decide +kernel⟩,
   ⟨(w0.wr PWR_STATUS.CFG_ERR 0), .firmware, 0x8000000, 100000000000000, by decide +kernel⟩,
   ⟨(w0.wr PWR_STATUS.CFG_ERR 0), .firmware, 0x0, 100000000000000, by decide +kernel⟩,
   ⟨(w0.wr LC_STATE.STATE 0), .firmware, 0x0, 100000000000000, by decide +kernel⟩,
   ⟨(w0.wr LC_STATE.STATE 2), .firmware, 0xc80a100, 100000000000000, by decide +kernel⟩,
   ⟨w0, .host, CLK_ELAPSED_LO.E_LO.base, 1, row CLK_ELAPSED_LO.E_LO.base, by decide +kernel⟩,
   ⟨w0, .host, CLK_ALIGN_OFS_LO.O_LO.base, 1, row CLK_ALIGN_OFS_LO.O_LO.base, by decide +kernel⟩,
   ⟨w0, .host, MTR_PORT_DATA_n.W.base, 1, row MTR_PORT_DATA_n.W.base, by decide +kernel⟩,
   ⟨w0, .host, LINK_LANE_ERR_l.CODE.base, 1, row LINK_LANE_ERR_l.CODE.base, by decide +kernel⟩,
   ⟨w0, .host, ADC_Q_STATUS_q.STATE.base, 1, row ADC_Q_STATUS_q.STATE.base, by decide +kernel⟩,
   ⟨w0, .host, CMP_STATUS.LIVE.base, 1, row CMP_STATUS.LIVE.base, by decide +kernel⟩,
   ⟨w0, .host, AUX_STATUS_m.HOLD.base, 1, row AUX_STATUS_m.HOLD.base, by decide +kernel⟩⟩

theorem test_meets_RideThroughCommands :
    (∃ (s : State) (d : Rat),
        s.pwr.mainOn = true ∧ s.tm.s1run = true ∧ s.law.sup.state = 1 ∧ s.law.sup.okFor = some d ∧ 1 / 50 ≤ d) ∧
    (∃ (s : State) (c : Fin 4) (i : Fin 8) (e : Nat),
        s.pwr.mainOn = true ∧ s.tm.s1run = true ∧ s.law.sup.state ≠ 4 ∧ s.stageOn c i = true ∧ s.stageBeyond c i = true ∧ s.rd SLC_BLOCK_STATUS.PHASES < 8 ∧ (stageMs s.acti c i : Rat) / 1000 ≤ tget (fun _ => 0) s.law.sup.timers (8 * c.val + i.val) ∧ s.rd SLC_BLOCK_STATUS.SCOPE = 0) ∧
    (∃ (s : State) (d : Rat),
        s.pwr.mainOn = true ∧ s.tm.s1run = true ∧ s.law.sup.enterFor = some d ∧ (s.act FRT_ENTER_CFG.DELAY : Rat) ≤ d) ∧
    (∃ (s : State) (x : SetReq),
        s.pwr.mainOn = true ∧ s.tm.run = true ∧ s.tm.phase = 0 ∧ s.sp.host = [x] ∧ s.sp.safe = none ∧ x.d.ring < 64 ∧ x.d.epoch = s.hst.epoch) ∧
    (∃ (s : State) (m : Pdu),
        s.pwr.mainOn = true ∧ s.tm.run = true ∧ s.tm.phase = 0 ∧ s.sp.host = [] ∧ s.sp.safe = some m) :=
  ⟨⟨(onLaw (onLaw (onTm w0 fun x => { x with s1run := true }) fun x => { x with sup := { x.sup with state := 1 } }) fun x => { x with sup := { x.sup with okFor := some 1 } }), 1, by decide +kernel⟩,
   ⟨onLaw (onTm (((setAct (setAct w0 FRT_OV_i.EN 0 1) FRT_OV_i.LEVEL 0 1100).wr SLC_BLOCK_STATUS.PHASES 0).wr SLC_BLOCK_STATUS.SCOPE 0) fun x => { x with s1run := true }) fun x => { x with trk := { x.trk with umax := 2 }, sup := { x.sup with state := 0, timers := [(8, 1000000)] } }, 1, 0, 1, by decide +kernel⟩,
   ⟨onLaw (onTm w0 fun x => { x with s1run := true }) fun x => { x with sup := { x.sup with enterFor := some 1000000000 } }, 1000000000, by decide +kernel⟩,
   ⟨(onSp (onSp (onTm w0 fun x => { x with phase := 0 }) fun x => { x with host := [(⟨desc0, 0, 0, 0, 0, 0, 0, 0, 0⟩)] }) fun x => { x with safe := none }), ⟨desc0, 0, 0, 0, 0, 0, 0, 0, 0⟩, by decide +kernel⟩,
   ⟨(onSp (onSp (onTm w0 fun x => { x with phase := 0 }) fun x => { x with host := [] }) fun x => { x with safe := some pdu0 }), pdu0, by decide +kernel⟩⟩

theorem test_meets_SafetyInputCommands :
    (∃ (s : State) (n : Fin 8) (b lv : Bool) (since e : Nat),
        s.pwr.mainOn = true ∧ s.saf.inputs.length = 8 ∧ lv = (b && s.biti SAFE_IN_CFG_n.ANTI n) ∧ s.rdi SAFE_IN_CFG_n.FILT n * 100000 ≤ (s.moveTo e).counted n b since ∧ 1 ≤ s.rdi SAFE_IN_CFG_n.TYPE n ∧ s.rdi SAFE_IN_CFG_n.TYPE n ≤ 3 ∧ s.bit PWR_STATUS.SLEEP = false ∧ s.rd SLC_BLOCK_STATUS.PHASES < 8 ∧ b = false ∧ (if b then (s.sin n).b else (s.sin n).a) = false) ∧
    (∃ (s : State) (n : Fin 8) (b lv : Bool) (since e : Nat),
        s.pwr.mainOn = true ∧ s.saf.inputs.length = 8 ∧ lv = (b && s.biti SAFE_IN_CFG_n.ANTI n) ∧ s.rdi SAFE_IN_CFG_n.FILT n * 100000 ≤ (s.moveTo e).counted n b since ∧ 1 ≤ s.rdi SAFE_IN_CFG_n.TYPE n ∧ s.rdi SAFE_IN_CFG_n.TYPE n ≤ 3 ∧ s.bit PWR_STATUS.SLEEP = false ∧ s.rd SLC_BLOCK_STATUS.PHASES < 8 ∧ b = true ∧ lv = true ∧ (if b then (s.sin n).b else (s.sin n).a) = false) ∧
    (∃ (s : State) (n : Fin 8) (b lv : Bool) (since e : Nat),
        s.pwr.mainOn = true ∧ s.rdi SAFE_IN_CFG_n.TYPE n = 0 ∧ lv = (b && s.biti SAFE_IN_CFG_n.ANTI n) ∧ s.rdi SAFE_IN_CFG_n.FILT n * 100000 ≤ (s.moveTo e).counted n b since ∧ (if b then (s.sin n).b else (s.sin n).a) = false) ∧
    (∃ (s : State) (n : Fin 8) (b lv : Bool) (since e : Nat),
        s.pwr.mainOn = true ∧ (if b then (s.sin n).b else (s.sin n).a) = true) ∧
    (∃ (s : State) (n : Fin 8) (b lv : Bool) (since e : Nat),
        s.pwr.mainOn = true ∧ (if b then (s.sin n).b else (s.sin n).a) = false) ∧
    (∃ (s : State) (n : Fin 8) (b lv : Bool) (since e : Nat),
        s.pwr.mainOn = true ∧ (s.moveTo e).counted n b since < s.rdi SAFE_IN_CFG_n.FILT n * 100000) ∧
    (∃ (s : State) (n : Fin 8) (b lv : Bool) (since e : Nat),
        s.pwr.mainOn = true ∧ s.saf.inputs.length = 8 ∧ lv = !(b && s.biti SAFE_IN_CFG_n.ANTI n) ∧ s.rdi SAFE_IN_CFG_n.FILT n * 100000 ≤ (s.moveTo e).counted n b since ∧ (if b then (s.sin n).a else (s.sin n).b) = false ∧ (s.sin n).discDemand = false ∧ bitOf (s.rd SAFE_STATUS.TP_ERR) n = false ∧ (if b then (s.sin n).b else (s.sin n).a) = true) ∧
    (∃ (s : State) (n : Fin 8) (e : Nat),
        s.pwr.mainOn = true ∧ s.saf.inputs.length = 8 ∧ (s.sin n).a ≠ (s.sin n).b ∧ s.rdi SAFE_IN_CFG_n.TYPE n ≠ 0 ∧ (s.sin n).disc = false ∧ max (s.sin n).aAt (s.sin n).bAt + s.discNs n < (s.moveTo e).tm.e) ∧
    (∃ (s : State) (b : Bool) (low e : Nat),
        s.pwr.mainOn = true ∧ (s.moveTo e).pulseDue b = false) ∧
    (∃ (s : State) (b : Bool) (e : Nat) (n : Fin 8),
        s.pwr.mainOn = true ∧ s.saf.inputs.length = 8 ∧ (s.moveTo e).pulseDue b = true ∧ s.biti SAFE_IN_CFG_n.TP_EN n = true ∧ s.rdi SAFE_IN_CFG_n.TYPE n ≠ 0 ∧ b = true ∧ s.biti SAFE_IN_CFG_n.ANTI n = false) ∧
    (∃ (s : State) (n : Fin 8) (e : Nat),
        s.pwr.mainOn = true ∧ s.rdi SAFE_IN_CFG_n.TYPE n = 4 ∧ s.rd SLC_BLOCK_STATUS.BRK = 1 ∧ (s.sin n).a = false ∧ (s.sin n).b = false ∧ s.slc.brkAt + s.discNs n ≤ (s.moveTo e).tm.e ∧ s.rd SAFE_STATUS.BRK_FB_ERR = 0) :=
  ⟨⟨((w0.wri SAFE_IN_CFG_n.TYPE 1 1).wri SAFE_IN_CFG_n.FILT 1 5).wr SLC_BLOCK_STATUS.PHASES 0, 1, false, false, 0, 500000, by decide +kernel⟩,
   ⟨((w0.wri SAFE_IN_CFG_n.TYPE 1 3).wri SAFE_IN_CFG_n.ANTI 1 1).wr SLC_BLOCK_STATUS.PHASES 0, 1, true, true, 0, 500000000, by decide +kernel⟩,
   ⟨w0.wri SAFE_IN_CFG_n.TYPE 1 0, 1, false, false, 0, 100000000000, by decide +kernel⟩,
   ⟨onSin w0 1 fun x => { x with a := true }, 1, false, false, 0, 1, by decide +kernel⟩,
   ⟨onSin w0 1 fun x => { x with b := false }, 1, true, false, 0, 1, by decide +kernel⟩,
   ⟨w0.wri SAFE_IN_CFG_n.FILT 1 5, 1, false, false, 0, 499999, by decide +kernel⟩,
   ⟨onSin w0 1 fun x => { x with a := true, b := false, discDemand := false }, 1, false, true, 0, 100000000000, by decide +kernel⟩,
   ⟨onSin (w0.wri SAFE_IN_CFG_n.TYPE 0 1) 0 fun x => { x with a := true, b := false, disc := false }, 0, 100000000000000, by decide +kernel⟩,
   ⟨onSaf w0 fun x => { x with tpA := [5] }, false, 0, 10000004, by decide +kernel⟩,
   ⟨onSaf ((w0.wri SAFE_IN_CFG_n.TYPE 1 1).wri SAFE_IN_CFG_n.TP_EN 1 1) fun x => { x with tpA := [5] }, true, 5000005, 1, by decide +kernel⟩,
   ⟨(onSin (onSin (((w0.wri SAFE_IN_CFG_n.TYPE 1 4).wr SLC_BLOCK_STATUS.BRK 1).wr SAFE_STATUS.BRK_FB_ERR 0) 1 fun x => { x with a := false }) 1 fun x => { x with b := false }), 1, 100000000000000, by decide +kernel⟩⟩

theorem test_meets_SafeMessageCommands :
    (∃ (s : State) (net : Fin 2) (m : EthFrame) (e : Nat),
        s.pwr.mainOn = true ∧ s.bit SAFE_NET_CFG.EN = false) ∧
    (∃ (s : State) (net : Fin 2) (m : EthFrame) (e : Nat),
        s.pwr.mainOn = true ∧ s.bit SAFE_NET_CFG.EN = true ∧ m.dst ≠ s.macDev) ∧
    (∃ (s : State) (net : Fin 2) (m : EthFrame) (e : Nat),
        s.pwr.mainOn = true ∧ s.bit SAFE_NET_CFG.EN = true ∧ m.etherType ≠ 0x88B5) ∧
    (∃ (s : State) (net : Fin 2) (m : EthFrame) (e : Nat),
        s.pwr.mainOn = true ∧ s.bit SAFE_NET_CFG.EN = true ∧ m.fcs ≠ ethFcs m) ∧
    (∃ (s : State) (net : Fin 2) (m : EthFrame) (e : Nat),
        s.pwr.mainOn = true ∧ s.bit SAFE_NET_CFG.EN = true ∧ m.dst = s.macDev ∧ m.etherType = 0x88B5 ∧ m.fcs = ethFcs m ∧ s.pduFits m.pdu = false) ∧
    (∃ (s : State) (net : Fin 2) (m : EthFrame) (e : Nat),
        s.pwr.mainOn = true ∧ s.bit SAFE_NET_CFG.EN = true ∧ m.dst = s.macDev ∧ m.etherType = 0x88B5 ∧ m.fcs = ethFcs m ∧ s.pduFits m.pdu = true ∧ s.saf.first = none ∧ m.pdu.seqNo ≠ s.saf.lastSeq ∧ m.pdu.seqNo = (s.saf.lastSeq + 1) % 2 ^ 32 ∧ s.rd SLC_BLOCK_STATUS.PHASES < 8 ∧ bitOf m.pdu.flags 0 = true) ∧
    (∃ (s : State) (net : Fin 2) (m : EthFrame) (e : Nat),
        s.pwr.mainOn = true ∧ s.bit SAFE_NET_CFG.EN = true ∧ m.dst = s.macDev ∧ m.etherType = 0x88B5 ∧ m.fcs = ethFcs m ∧ s.pduFits m.pdu = true ∧ s.saf.first = none ∧ m.pdu.seqNo ≠ s.saf.lastSeq ∧ m.pdu.seqNo = (s.saf.lastSeq + 1) % 2 ^ 32 ∧ s.rd SLC_BLOCK_STATUS.PHASES < 8 ∧ bitOf m.pdu.flags 0 = false) ∧
    (∃ (s : State) (net : Fin 2) (m : EthFrame) (n0 : Nat) (t0 : Nat) (e : Nat),
        s.pwr.mainOn = true ∧ s.bit SAFE_NET_CFG.EN = true ∧ m.dst = s.macDev ∧ m.etherType = 0x88B5 ∧ m.fcs = ethFcs m ∧ s.pduFits m.pdu = true ∧ s.saf.first = some (n0, t0, m.pdu) ∧ n0 ≠ net.val) ∧
    (∃ (s : State) (net : Fin 2) (m : EthFrame) (m0 : Pdu) (n0 : Nat) (t0 : Nat) (e : Nat),
        s.pwr.mainOn = true ∧ s.bit SAFE_NET_CFG.EN = true ∧ m.dst = s.macDev ∧ m.etherType = 0x88B5 ∧ m.fcs = ethFcs m ∧ s.pduFits m.pdu = true ∧ s.saf.first = some (n0, t0, m0) ∧ n0 ≠ net.val ∧ m.pdu.seqNo = m0.seqNo ∧ m.pdu ≠ m0 ∧ s.rd SLC_BLOCK_STATUS.PHASES < 8) ∧
    (∃ (s : State) (net : Fin 2) (m : EthFrame) (e : Nat),
        s.pwr.mainOn = true ∧ s.bit SAFE_NET_CFG.EN = true ∧ m.dst = s.macDev ∧ m.etherType = 0x88B5 ∧ m.fcs = ethFcs m ∧ s.pduFits m.pdu = true ∧ s.saf.first = none ∧ s.saf.anySeq = false ∧ m.pdu.seqNo = s.saf.lastSeq ∧ bitOf s.saf.seen net = false ∧ s.rd SLC_BLOCK_STATUS.PHASES < 8 ∧ s.saf.accepted = some m.pdu) ∧
    (∃ (s : State) (net : Fin 2) (m : EthFrame) (e : Nat),
        s.pwr.mainOn = true ∧ s.bit SAFE_NET_CFG.EN = true ∧ m.dst = s.macDev ∧ m.etherType = 0x88B5 ∧ m.fcs = ethFcs m ∧ s.pduFits m.pdu = true ∧ s.saf.first = none ∧ s.saf.anySeq = false ∧ m.pdu.seqNo = s.saf.lastSeq ∧ bitOf s.saf.seen net = false ∧ s.rd SLC_BLOCK_STATUS.PHASES < 8 ∧ s.saf.accepted ≠ some m.pdu) ∧
    (∃ (s : State) (n0 : Nat) (t0 : Nat) (e : Nat) (m : Pdu),
        s.pwr.mainOn = true ∧ s.saf.first = some (n0, t0, m) ∧ t0 + s.rd SAFE_NET_CFG.SKEW * 100000 ≤ (s.moveTo e).tm.e ∧ s.bit SAFE_NET_CFG.DEGRADE = false) ∧
    (∃ (s : State) (n0 : Nat) (t0 : Nat) (e : Nat) (m : Pdu),
        s.pwr.mainOn = true ∧ s.saf.first = some (n0, t0, m) ∧ t0 + s.rd SAFE_NET_CFG.SKEW * 100000 ≤ (s.moveTo e).tm.e ∧ s.bit SAFE_NET_CFG.DEGRADE = true ∧ s.bit SAFE_NET_STATUS.UP_A = false ∧ s.bit SAFE_NET_STATUS.UP_B = false) ∧
    (∃ (s : State) (e : Nat),
        s.pwr.mainOn = true ∧ s.bit SAFE_NET_CFG.EN = true ∧ s.saf.acceptedAt + s.rd SAFE_NET_CFG.WDOG * 1000000 ≤ (s.moveTo e).tm.e ∧ s.saf.expired = false ∧ s.rd SLC_BLOCK_STATUS.PHASES < 8) ∧
    (∃ (s : State) (e : Nat),
        s.pwr.mainOn = true ∧ s.bit SAFE_NET_CFG.EN = true ∧ s.saf.txAt + s.rd SAFE_NET_CFG.PERIOD * 1000000 ≤ (s.moveTo e).tm.e) :=
  ⟨⟨w0, 0, eth pdu0, 1, by decide +kernel⟩,
   ⟨w0.wr SAFE_NET_CFG.EN 1, 0, { eth pdu0 with dst := 1 }, 1, by decide +kernel⟩,
   ⟨w0.wr SAFE_NET_CFG.EN 1, 0, { eth pdu0 with etherType := 0x0800 }, 1, by decide +kernel⟩,
   ⟨w0.wr SAFE_NET_CFG.EN 1, 0, { eth pdu0 with fcs := 0 }, 1, by decide +kernel⟩,
   ⟨w0.wr SAFE_NET_CFG.EN 1, 0, eth pdu0, 1, by decide +kernel⟩,
   ⟨(onSaf ((w0.wr SAFE_NET_CFG.EN 1).wr SLC_BLOCK_STATUS.PHASES 0) fun x => { x with first := none }), 1, eth (signed0 { pdu0 with flags := 1 }), 100000000000000, by decide +kernel⟩,
   ⟨(onSaf ((w0.wr SAFE_NET_CFG.EN 1).wr SLC_BLOCK_STATUS.PHASES 0) fun x => { x with first := none }), 1, eth (signed0 pdu0), 100000000000000, by decide +kernel⟩,
   ⟨(onSaf (w0.wr SAFE_NET_CFG.EN 1) fun x => { x with first := some (0, 0, signed0 pdu0) }), 1, eth (signed0 pdu0), 0, 0, 100000000000000, by decide +kernel⟩,
   ⟨onSaf ((w0.wr SAFE_NET_CFG.EN 1).wr SLC_BLOCK_STATUS.PHASES 0) fun x => { x with first := some (1, 0, pdu0) }, 0, eth (signed0 { pdu0 with p := 1 }), pdu0, 1, 0, 1, by decide +kernel⟩,
   ⟨onSaf ((w0.wr SAFE_NET_CFG.EN 1).wr SLC_BLOCK_STATUS.PHASES 0) fun x => { x with first := none, anySeq := false, lastSeq := 1, seen := 1, accepted := some (signed0 pdu0) }, 1, eth (signed0 pdu0), 1, by decide +kernel⟩,
   ⟨onSaf ((w0.wr SAFE_NET_CFG.EN 1).wr SLC_BLOCK_STATUS.PHASES 0) fun x => { x with first := none, anySeq := false, lastSeq := 1, seen := 1, accepted := some (signed0 { pdu0 with p := 1 }) }, 1, eth (signed0 pdu0), 1, by decide +kernel⟩,
   ⟨(onSaf (w0.wr SAFE_NET_CFG.DEGRADE 0) fun x => { x with first := some (0, 0, pdu0) }), 0, 0, 100000000000000, pdu0, by decide +kernel⟩,
   ⟨(onSaf (((w0.wr SAFE_NET_CFG.DEGRADE 1).wr SAFE_NET_STATUS.UP_A 0).wr SAFE_NET_STATUS.UP_B 0) fun x => { x with first := some (0, 0, pdu0) }), 0, 0, 100000000000000, pdu0, by decide +kernel⟩,
   ⟨(onSaf ((w0.wr SAFE_NET_CFG.EN 1).wr SLC_BLOCK_STATUS.PHASES 0) fun x => { x with expired := false }), 100000000000000, by decide +kernel⟩,
   ⟨(w0.wr SAFE_NET_CFG.EN 1), 100000000000000, by decide +kernel⟩⟩

theorem test_meets_ShedAndPeriodChangesApply :
    (∃ (s : State),
        s.pwr.mainOn = true ∧ s.boundaryDue CLK_SHED_CFG.MAX_LEVEL.base = true ∧ s.tm.shedClamp = true ∧ s.rd CLK_SHED_CFG.MAX_LEVEL < s.rd CLK_TICK_STATUS.SHED_LEVEL ∧ s.rd CLK_TICK_STATUS.SHED_LEVEL ≤ 4) ∧
    (∃ (s : State) (c : Nat) (e : Nat),
        s.pwr.mainOn = true ∧ s.tm.shedCalm = some c ∧ 0 < s.rd CLK_TICK_STATUS.SHED_LEVEL ∧ s.rd CLK_TICK_STATUS.SHED_LEVEL ≤ 4 ∧ c + 100000000 ≤ (s.moveTo e).tm.e) ∧
    (∃ (s : State) (e : Nat),
        s.pwr.mainOn = true ∧ 60000000000 < (s.moveTo e).diagSuspended ∧ s.rd CLK_TICK_STATUS.DIAG_DEFERRED = 0) ∧
    (∃ (s : State) (h : Nat) (e : Nat),
        s.pwr.mainOn = true ∧ s.tm.run = true ∧ s.tm.phase = 0 ∧ (s.moveTo e).tm.e = s.tm.start ∧ s.tm.newHalf = some h ∧ (s.moveTo e).stime % ((h * 500 : Nat) : Int) = 0 ∧ (s.moveTo e).stime % (s.period : Int) = 0) :=
  ⟨⟨onTm ((w0.wr CLK_SHED_CFG.MAX_LEVEL 1).wr CLK_TICK_STATUS.SHED_LEVEL 2) fun x => { x with shedClamp := true, start := 5 }, by decide +kernel⟩,
   ⟨(onTm (w0.wr CLK_TICK_STATUS.SHED_LEVEL 1) fun x => { x with shedCalm := some 0 }), 0, 100000000000000, by decide +kernel⟩,
   ⟨onTm w0 fun x => { x with diagFrom := some 0 }, 100000000000000, by decide +kernel⟩,
   ⟨onTm w0 fun x => { x with newHalf := some 20, o := 0 }, 20, 0, by decide +kernel⟩⟩

theorem test_meets_SluiceLatchesAndDrives :
    (∃ (s : State) (n : Fin 16) (e : Nat),
        s.pwr.mainOn = true ∧ (tget (fun _ => 0) s.slc.blankEnd n ≠ 0) ∧ (s.moveTo e).blanked n = false ∧ bitOf s.slc.live n = false) ∧
    (∃ (s : State) (n : Fin 16) (e : Nat),
        s.pwr.mainOn = true ∧ (tget (fun _ => 0) s.slc.blankEnd n ≠ 0) ∧ (s.moveTo e).blanked n = false ∧ bitOf s.slc.live n = true ∧ 1 ≤ s.rdi SLC_CMP_ROUTE_n.ACTION n ∧ s.rdi SLC_CMP_ROUTE_n.PHASE n ≤ 2 ∧ s.rd SLC_BLOCK_STATUS.PHASES < 8) ∧
    (∃ (s : State) (leg : Fin 3) (amps slope on e : Nat) (hard soft : Bool),
        s.rd SLC_DRV_SC_STATUS.LEGS0 < 8 ∧ hard = (!s.biti SLC_DRV_SC_CFG_m.MODE 0 && decide (2 * s.rdi SLC_DRV_SC_CFG_m.SC_LVL 0 ≤ amps)) ∧ soft = (decide (on + s.rdi SLC_DRV_SC_CFG_m.BLANK 0 * 10 ≤ (s.moveTo e).tm.e) && (if s.biti SLC_DRV_SC_CFG_m.MODE 0 then decide (s.rdi SLC_DRV_SC_CFG_m.DIDT_LVL 0 ≤ slope) else decide (s.rdi SLC_DRV_SC_CFG_m.SC_LVL 0 ≤ amps))) ∧ hard = false ∧ soft = false) ∧
    (∃ (s : State) (leg : Fin 3) (amps slope on e : Nat) (hard soft : Bool),
        s.rd SLC_DRV_SC_STATUS.LEGS0 < 8 ∧ hard = (!s.biti SLC_DRV_SC_CFG_m.MODE 0 && decide (2 * s.rdi SLC_DRV_SC_CFG_m.SC_LVL 0 ≤ amps)) ∧ soft = (decide (on + s.rdi SLC_DRV_SC_CFG_m.BLANK 0 * 10 ≤ (s.moveTo e).tm.e) && (if s.biti SLC_DRV_SC_CFG_m.MODE 0 then decide (s.rdi SLC_DRV_SC_CFG_m.DIDT_LVL 0 ≤ slope) else decide (s.rdi SLC_DRV_SC_CFG_m.SC_LVL 0 ≤ amps))) ∧ (hard = true ∨ soft = true) ∧ ¬((s.moveTo e).tm.e < s.slc.softEnd.getD 0 0 ∧ s.rd SLC_DRV_SC_STATUS.LEGS0 ≠ 0 ∧ (bitOf (s.rd SLC_DRV_SC_STATUS.LEGS0) leg = true ∨ s.bit SLC_DRV_SC_STATUS.BOTH0 = true))) ∧
    (∃ (s : State) (leg : Fin 3) (amps slope on e : Nat) (hard soft : Bool),
        s.rd SLC_DRV_SC_STATUS.LEGS1 < 8 ∧ hard = (!s.biti SLC_DRV_SC_CFG_m.MODE 1 && decide (2 * s.rdi SLC_DRV_SC_CFG_m.SC_LVL 1 ≤ amps)) ∧ soft = (decide (on + s.rdi SLC_DRV_SC_CFG_m.BLANK 1 * 10 ≤ (s.moveTo e).tm.e) && (if s.biti SLC_DRV_SC_CFG_m.MODE 1 then decide (s.rdi SLC_DRV_SC_CFG_m.DIDT_LVL 1 ≤ slope) else decide (s.rdi SLC_DRV_SC_CFG_m.SC_LVL 1 ≤ amps))) ∧ hard = false ∧ soft = false) ∧
    (∃ (s : State) (leg : Fin 3) (amps slope on e : Nat) (hard soft : Bool),
        s.rd SLC_DRV_SC_STATUS.LEGS1 < 8 ∧ hard = (!s.biti SLC_DRV_SC_CFG_m.MODE 1 && decide (2 * s.rdi SLC_DRV_SC_CFG_m.SC_LVL 1 ≤ amps)) ∧ soft = (decide (on + s.rdi SLC_DRV_SC_CFG_m.BLANK 1 * 10 ≤ (s.moveTo e).tm.e) && (if s.biti SLC_DRV_SC_CFG_m.MODE 1 then decide (s.rdi SLC_DRV_SC_CFG_m.DIDT_LVL 1 ≤ slope) else decide (s.rdi SLC_DRV_SC_CFG_m.SC_LVL 1 ≤ amps))) ∧ (hard = true ∨ soft = true) ∧ ¬((s.moveTo e).tm.e < s.slc.softEnd.getD 1 0 ∧ s.rd SLC_DRV_SC_STATUS.LEGS1 ≠ 0 ∧ (bitOf (s.rd SLC_DRV_SC_STATUS.LEGS1) leg = true ∨ s.bit SLC_DRV_SC_STATUS.BOTH1 = true))) ∧
    (∃ (s : State) (leg : Fin 3) (amps slope on e : Nat) (hard soft : Bool),
        s.rd SLC_DRV_SC_STATUS.LEGS0 < 8 ∧ hard = (!s.biti SLC_DRV_SC_CFG_m.MODE 0 && decide (2 * s.rdi SLC_DRV_SC_CFG_m.SC_LVL 0 ≤ amps)) ∧ soft = (decide (on + s.rdi SLC_DRV_SC_CFG_m.BLANK 0 * 10 ≤ (s.moveTo e).tm.e) && (if s.biti SLC_DRV_SC_CFG_m.MODE 0 then decide (s.rdi SLC_DRV_SC_CFG_m.DIDT_LVL 0 ≤ slope) else decide (s.rdi SLC_DRV_SC_CFG_m.SC_LVL 0 ≤ amps))) ∧ (hard = true ∨ soft = true) ∧ (s.moveTo e).tm.e < s.slc.softEnd.getD 0 0 ∧ s.rd SLC_DRV_SC_STATUS.LEGS0 ≠ 0 ∧ (bitOf (s.rd SLC_DRV_SC_STATUS.LEGS0) leg = true ∨ s.bit SLC_DRV_SC_STATUS.BOTH0 = true)) ∧
    (∃ (s : State) (leg : Fin 3) (amps slope on e : Nat) (hard soft : Bool),
        s.rd SLC_DRV_SC_STATUS.LEGS1 < 8 ∧ hard = (!s.biti SLC_DRV_SC_CFG_m.MODE 1 && decide (2 * s.rdi SLC_DRV_SC_CFG_m.SC_LVL 1 ≤ amps)) ∧ soft = (decide (on + s.rdi SLC_DRV_SC_CFG_m.BLANK 1 * 10 ≤ (s.moveTo e).tm.e) && (if s.biti SLC_DRV_SC_CFG_m.MODE 1 then decide (s.rdi SLC_DRV_SC_CFG_m.DIDT_LVL 1 ≤ slope) else decide (s.rdi SLC_DRV_SC_CFG_m.SC_LVL 1 ≤ amps))) ∧ (hard = true ∨ soft = true) ∧ (s.moveTo e).tm.e < s.slc.softEnd.getD 1 0 ∧ s.rd SLC_DRV_SC_STATUS.LEGS1 ≠ 0 ∧ (bitOf (s.rd SLC_DRV_SC_STATUS.LEGS1) leg = true ∨ s.bit SLC_DRV_SC_STATUS.BOTH1 = true)) ∧
    (∃ (s : State) (h : DescHdr) (e : Nat),
        (match (s.moveTo e).startDesc h 0x02 with
        | .go d u => decide (s.pwr.mainOn = true ∧ s.rdi RING_CFG_n.TYPE h.ring = 0 ∧ s.ringWaits h.ring = true)
        | .wait _ => false) = true) ∧
    (∃ (s : State) (h : DescHdr) (e : Nat),
        (match (s.moveTo e).startDesc h 0x02 with
        | .go d u => decide (s.pwr.mainOn = true ∧ s.rdi RING_CFG_n.TYPE h.ring = 0 ∧ s.ringWaits h.ring = false ∧ u.releaseChecks ≠ 0)
        | .wait _ => false) = true) :=
  ⟨⟨onSlc w0 fun x => { x with blankEnd := [(0, 5)], live := 0 }, 0, 100000000000000, by decide +kernel⟩,
   ⟨onSlc ((w0.wri SLC_CMP_ROUTE_n.ACTION 0 1).wr SLC_BLOCK_STATUS.PHASES 0) fun x => { x with blankEnd := [(0, 5)], live := 1 }, 0, 100000000000000, by decide +kernel⟩,
   ⟨w0, 1, 0, 0, 100000000000000, 0, false, false, by decide +kernel⟩,
   ⟨w0.wri SLC_DRV_SC_CFG_m.SC_LVL 0 100, 1, 1000, 0, 100000000000000, 0, true, false, by decide +kernel⟩,
   ⟨w0, 1, 0, 0, 100000000000000, 0, false, false, by decide +kernel⟩,
   ⟨w0.wri SLC_DRV_SC_CFG_m.SC_LVL 1 100, 1, 1000, 0, 100000000000000, 0, true, false, by decide +kernel⟩,
   ⟨onSlc ((w0.wri SLC_DRV_SC_CFG_m.SC_LVL 0 100).wr SLC_DRV_SC_STATUS.LEGS0 2) fun x => { x with softEnd := [2000, 2000] }, 1, 1000, 0, 1000, 0, true, false, by decide +kernel⟩,
   ⟨onSlc ((w0.wri SLC_DRV_SC_CFG_m.SC_LVL 1 100).wr SLC_DRV_SC_STATUS.LEGS1 2) fun x => { x with softEnd := [2000, 2000] }, 1, 1000, 0, 1000, 0, true, false, by decide +kernel⟩,
   ⟨onHst (wd 0) fun x => { x with waits := [.capture desc0 5] }, hd, 100000000000000, by decide +kernel⟩,
   ⟨wd 0, hd, 100000000000000, by decide +kernel⟩⟩

theorem test_meets_OverrunTripBeforeStarvation :
    (∃ (s : State) (v : Nat),
        s.pwr.mainOn = true ∧ s.rd LINK_CFG.STARVE_TICKS ≤ bits v 20 4) ∧
    (∃ (s : State) (v : Nat),
        s.pwr.mainOn = true ∧ bits v 24 5 ≤ s.rd CLK_TICK_CFG.OVERRUN_LIMIT) ∧
    (∃ (s : State) (v : Nat),
        s.pwr.mainOn = true ∧ s.rd CLK_TICK_CFG.OVERRUN_LIMIT < s.rd LINK_CFG.STARVE_TICKS ∧ (match exec (.clkTickCfgWrite v) s with
        | .next _ => true
        | _ => false) = true) :=
  ⟨⟨w0, 15 * 2 ^ 20, by decide +kernel⟩,
   ⟨w0, 3 * 2 ^ 24, by decide +kernel⟩,
   ⟨w0, 0, by decide +kernel⟩⟩

theorem test_meets_PendingGroupRefusesWrites : ∃ (s : State) (ag : Agent) (off : Nat) (r : RegRow),
    s.pwr.mainOn = true ∧ s.admits ag = true ∧ off % 4 = 0 ∧ regAt off = some r ∧ isShadowed r.base = true ∧ off / 0x10000 = 0x12 ∧ s.rd CTL_TABLE_CTRL.PENDING = 1 :=
  ⟨w0.wr CTL_TABLE_CTRL.PENDING 1, .host, CTL_GAIN.KP.base, row CTL_GAIN.KP.base, by decide +kernel⟩

theorem test_meets_ReadLatchesPerAgent :
    (∃ (s : State) (ag : Agent) (i : Nat),
        s.pwr.mainOn = true ∧ 1 ≤ i ∧ i ≤ 8) ∧
    (∃ (s : State) (ag : Agent) (off : Nat),
        s.pwr.mainOn = true ∧ s.admits ag = true ∧ off = CLK_ELAPSED_HI.E_HI.base) ∧
    (∃ (s : State) (ag : Agent) (off : Nat) (r : RegRow),
        s.pwr.mainOn = true ∧ s.admits ag = true ∧ off % 4 = 0 ∧ regAt off = some r ∧ s.absentReg r ((off - r.base) / 4) = false ∧ (∃ x ∈ r.fields, x.acc = .rc) ∧ off / 0x10000 ≠ ADC_Q_STATUS_q.STATE.base / 0x10000 ∧ off / 0x10000 ≠ CMP_STATUS.LIVE.base / 0x10000 ∧ off / 0x10000 ≠ AUX_STATUS_m.HOLD.base / 0x10000) ∧
    (∃ (s : State) (ag : Agent) (off : Nat) (r : RegRow),
        s.pwr.mainOn = true ∧ s.admits ag = true ∧ off % 4 = 0 ∧ regAt off = some r ∧ s.absentReg r ((off - r.base) / 4) = false ∧ (∃ x ∈ r.fields, x.acc = .rc) ∧ off / 0x10000 = ADC_Q_STATUS_q.STATE.base / 0x10000) ∧
    (∃ (s : State) (ag : Agent) (off : Nat) (r : RegRow),
        s.pwr.mainOn = true ∧ s.admits ag = true ∧ off % 4 = 0 ∧ regAt off = some r ∧ s.absentReg r ((off - r.base) / 4) = false ∧ (∃ x ∈ r.fields, x.acc = .rc) ∧ off / 0x10000 = AUX_STATUS_m.HOLD.base / 0x10000) :=
  ⟨⟨w0, .firmware, 1, by decide +kernel⟩,
   ⟨w0, .host, CLK_ELAPSED_HI.E_HI.base, by decide +kernel⟩,
   ⟨w0, .host, LINK_LANE_ERR_l.CODE.base, row LINK_LANE_ERR_l.CODE.base, by decide +kernel⟩,
   ⟨w0, .host, ADC_Q_STATUS_q.STATE.base, row ADC_Q_STATUS_q.STATE.base, by decide +kernel⟩,
   ⟨w0, .host, AUX_KE_m.SKIPS.base, row AUX_KE_m.SKIPS.base, by decide +kernel⟩⟩

theorem test_meets_MainDieWithoutPower :
    ∃ (s : State),
        s.pwr.mainOn = false :=
  ⟨onPwr w0 fun x => { x with mainOn := false }, by decide +kernel⟩

theorem test_meets_TriggerDelayInsidePeriod :
    (∃ (s : State) (ag : Agent) (i : Nat) (v : Nat) (f : Fld),
        s.pwr.mainOn = true ∧ s.admits ag = true ∧ i < 16 ∧ v < 2 ^ 32 ∧ f = ADC_TRIG_SEL_t.DELAY ∧ s.rdi ADC_TRIG_CFG_t.SRC i = 0 ∧ s.period ≤ bits v 16 16) ∧
    (∃ (s : State) (h : Nat) (e : Nat) (n : Nat),
        s.pwr.mainOn = true ∧ s.tm.run = true ∧ s.tm.phase = 0 ∧ (s.moveTo e).tm.e = s.tm.start ∧ s.tm.newHalf = some h ∧ (s.moveTo e).stime % ((h * 500 : Nat) : Int) = 0 ∧ (s.moveTo e).stime % (s.period : Int) = 0 ∧ n < 16 ∧ s.biti ADC_TRIG_CFG_t.EN n = true ∧ s.rdi ADC_TRIG_CFG_t.SRC n = 0 ∧ h * 500 ≤ s.rdi ADC_TRIG_SEL_t.DELAY n) ∧
    (∃ (s : State) (h : Nat) (e : Nat) (n : Nat),
        s.pwr.mainOn = true ∧ s.tm.run = true ∧ s.tm.phase = 0 ∧ (s.moveTo e).tm.e = s.tm.start ∧ s.tm.newHalf = some h ∧ (s.moveTo e).stime % ((h * 500 : Nat) : Int) = 0 ∧ (s.moveTo e).stime % (s.period : Int) = 0 ∧ n < 16 ∧ ¬(s.rdi ADC_TRIG_CFG_t.SRC n = 0 ∧ h * 500 ≤ s.rdi ADC_TRIG_SEL_t.DELAY n)) :=
  ⟨⟨w0, .host, 3, 10000 * 2 ^ 16, ADC_TRIG_SEL_t.DELAY, by decide +kernel⟩,
   ⟨onTm ((w0.wri ADC_TRIG_CFG_t.EN 2 1).wri ADC_TRIG_SEL_t.DELAY 2 5000) fun x => { x with newHalf := some 10, o := 0 }, 10, 0, 2, by decide +kernel⟩,
   ⟨onTm w0 fun x => { x with newHalf := some 10, o := 0 }, 10, 0, 2, by decide +kernel⟩⟩

theorem test_meets_PowerOnResetsFields :
    (∃ (s : State),
        s.pwr.mainOn = false ∧ twf regDefault s.regs = true) ∧
    (∃ (k : Nat),
        kept k = true ∧ k ≠ KA_STATUS.COUNTING.key 0) ∧
    (∃ (s : State),
        s.pwr.mainOn = false ∧ twf regDefault s.regs = true ∧ s.pwr.railReset = true) ∧
    (∃ (s : State),
        s.pwr.mainOn = false ∧ twf regDefault s.regs = true ∧ s.pwr.railReset = false) :=
  ⟨⟨(onPwr (onPwr w0 fun x => { x with mainOn := false }) fun x => { x with mainOn := false }), by decide +kernel⟩,
   ⟨1, by decide +kernel⟩,
   ⟨onPwr w0 fun x => { x with mainOn := false, railReset := true }, by decide +kernel⟩,
   ⟨onPwr w0 fun x => { x with mainOn := false }, by decide +kernel⟩⟩

theorem test_meets_ConfigurationWriteFrames : ∃ (c : Instr) (s : State),
    configWords c ≠ [] ∧ (match exec c s with
    | .next _ => true
    | _ => false) = true :=
  ⟨.crcSeedWrite 5, w0, by decide +kernel⟩

theorem test_meets_StopAndBreakerCommands :
    (∃ (s : State) (e : Nat) (c : Nat),
        s.pwr.mainOn = true ∧ s.rd SLC_BLOCK_STATUS.PHASES < 8 ∧ s.rd SLC_BLOCK_STATUS.PHASES ≠ 7 ∧ (s.cells.any (fun kv => kv.1 == c) = true) ∧ s.phaseOf c < 3) ∧
    (∃ (s : State) (h : DescHdr) (e : Nat),
        (match (s.moveTo e).startDesc h 0x02 with
        | .go d u => decide (s.pwr.mainOn = true ∧ s.rdi RING_CFG_n.TYPE h.ring = 0 ∧ s.rd SLC_BLOCK_STATUS.PHASES < 8)
        | .wait _ => false) = true) ∧
    (∃ (s : State) (e : Nat),
        s.pwr.mainOn = true ∧ s.latchWord = 0 ∧ s.slc.brkAt + s.rd SLC_CFG.BRK_HOLD * 10000000 ≤ (s.moveTo e).tm.e ∧ s.rd SAFE_STATUS.BRK_FB_ERR = 0) ∧
    (∃ (s : State) (e : Nat),
        s.pwr.mainOn = true ∧ ¬(s.latchWord = 0 ∧ s.slc.brkAt + s.rd SLC_CFG.BRK_HOLD * 10000000 ≤ (s.moveTo e).tm.e ∧ s.rd SAFE_STATUS.BRK_FB_ERR = 0)) ∧
    (∃ (s : State) (h : DescHdr) (e : Nat),
        (match (s.moveTo e).startDesc h 0x02 with
        | .go d u => decide (s.pwr.mainOn = true ∧ s.rdi RING_CFG_n.TYPE h.ring = 0 ∧ s.latchWord = 0 ∧ s.slc.brkAt + s.rd SLC_CFG.BRK_HOLD * 10000000 ≤ (s.moveTo e).tm.e ∧ s.rd SAFE_STATUS.BRK_FB_ERR = 0)
        | .wait _ => false) = true) ∧
    (∃ (s : State) (h : DescHdr) (e : Nat),
        (match (s.moveTo e).startDesc h 0x02 with
        | .go d u => decide (s.pwr.mainOn = true ∧ s.rdi RING_CFG_n.TYPE h.ring = 0 ∧ s.rd SLC_BLOCK_STATUS.BRK = 0 ∧ ¬(s.latchWord = 0 ∧ s.slc.brkAt + s.rd SLC_CFG.BRK_HOLD * 10000000 ≤ (s.moveTo e).tm.e ∧ s.rd SAFE_STATUS.BRK_FB_ERR = 0))
        | .wait _ => false) = true) ∧
    (∃ (s : State) (c e d : Nat),
        s.pwr.mainOn = true ∧ c < s.cellCount ∧ d ≠ c) ∧
    (∃ (s : State) (c e : Nat),
        s.pwr.mainOn = true ∧ s.cellCount ≤ c ∧ c < 240) ∧
    (∃ (s : State) (c : Nat) (e : Nat),
        s.pwr.mainOn = true ∧ 240 ≤ c) ∧
    (∃ (s : State) (hi e : Nat),
        s.pwr.mainOn = true ∧ hi < (s.moveTo e).tm.e + s.rd SLC_CFG.TRIP_IN_FILT * 4) ∧
    (∃ (s : State) (hi e : Nat),
        s.pwr.mainOn = true ∧ s.rd SLC_BLOCK_STATUS.PHASES < 8 ∧ (s.moveTo e).tm.e + s.rd SLC_CFG.TRIP_IN_FILT * 4 ≤ hi) ∧
    (∃ (s : State),
        s.pwr.mainOn = true ∧ s.rd SLC_BLOCK_STATUS.PHASES < 8 ∧ s.bit TRI_STATUS.DBG_HALT = true ∧ s.rd LINK_CFG.STARVE_TICKS ≤ s.tri.haltTicks ∧ s.rd SLC_TRIP_LATCH.DEBUG_STARVE = 0 ∧ 2 ≤ s.rd SLC_BLOCK_STATUS.SCOPE) :=
  ⟨⟨onCell (w0.wr SLC_BLOCK_STATUS.PHASES 0) 0 fun x => { x with svc := { x.svc with blk := false } }, 1, 0, by decide +kernel⟩,
   ⟨((wd 0).wr SLC_BLOCK_STATUS.PHASES 0), hd, 100000000000000, by decide +kernel⟩,
   ⟨w0.wr SLC_TRIP_LATCH.HOST 0, 100000000000000, by decide +kernel⟩,
   ⟨w0, 100000000000000, by decide +kernel⟩,
   ⟨(((wd 0).wr SLC_TRIP_LATCH.HOST 0).wr SAFE_STATUS.BRK_FB_ERR 0), hd, 100000000000000, by decide +kernel⟩,
   ⟨((wd 0).wr SLC_BLOCK_STATUS.BRK 0).wr SAFE_STATUS.BRK_FB_ERR 1, hd, 100000000000000, by decide +kernel⟩,
   ⟨w0, 0, 100000000000000, 1, by decide +kernel⟩,
   ⟨w0.wr ID_PART.DEVICE 0x7120, 120, 100000000000000, by decide +kernel⟩,
   ⟨w0, 240, 100000000000000, by decide +kernel⟩,
   ⟨w0, 107, 100, by decide +kernel⟩,
   ⟨w0.wr SLC_BLOCK_STATUS.PHASES 0, 108, 100, by decide +kernel⟩,
   ⟨onTri (((w0.wr SLC_BLOCK_STATUS.PHASES 0).wr TRI_STATUS.DBG_HALT 1).wr SLC_BLOCK_STATUS.SCOPE 2) fun x => { x with haltTicks := 31 }, by decide +kernel⟩⟩

theorem test_meets_TableSwapsWaitAndApply :
    (∃ (s : State) (ag : Agent),
        s.pwr.mainOn = true ∧ s.rd FRT_TABLE_CTRL.PENDING = 0 ∧ s.frtShadowOk = true) ∧
    (∃ (s : State) (ag : Agent),
        s.pwr.mainOn = true ∧ s.rd MIR_TABLE_CTRL.PENDING = 0 ∧ s.rd MIR_CFG.CHIPLEN = s.act MIR_CFG.CHIPLEN ∧ s.dmaxOk s.rd = true) ∧
    (∃ (s : State) (ag : Agent),
        s.pwr.mainOn = true ∧ s.rd PORT_TABLE_CTRL.PENDING = 0 ∧ s.rds PORT_PACK_GCFG.TLO < s.rds PORT_PACK_GCFG.TCOLD ∧ s.rds PORT_PACK_GCFG.TCOLD < s.rds PORT_PACK_GCFG.THOT ∧ s.rds PORT_PACK_GCFG.THOT < s.rds PORT_PACK_GCFG.THI) ∧
    (∃ (s : State),
        s.pwr.mainOn = true ∧ s.boundaryDue HGS_TABLE_CTRL.SWAP.base = true ∧ s.rd HGS_TABLE_CTRL.PENDING = 1) ∧
    (∃ (s : State),
        s.pwr.mainOn = true ∧ s.boundaryDue CTL_TABLE_CTRL.SWAP.base = true ∧ s.rd CTL_TABLE_CTRL.PENDING = 1) ∧
    (∃ (s : State),
        s.pwr.mainOn = true ∧ s.boundaryDue FRT_TABLE_CTRL.SWAP.base = true ∧ s.rd FRT_TABLE_CTRL.PENDING = 1) ∧
    (∃ (s : State),
        s.pwr.mainOn = true ∧ s.boundaryDue MIR_TABLE_CTRL.SWAP.base = true ∧ s.rd MIR_TABLE_CTRL.PENDING = 1) ∧
    (∃ (s : State),
        s.pwr.mainOn = true ∧ s.boundaryDue PORT_TABLE_CTRL.SWAP.base = true ∧ s.rd PORT_TABLE_CTRL.PENDING = 1) ∧
    (∃ (s : State) (c : Nat),
        s.pwr.mainOn = true ∧ s.mtr.calDue = true ∧ s.mtr.atS5 = false ∧ s.rd MTR_CAL_CTRL.PENDING = 1 ∧ c < 6) ∧
    (∃ (s : State) (k : Nat),
        s.pwr.mainOn = true ∧ s.mtr.calDue = true ∧ s.mtr.atS5 = false ∧ s.rd MTR_CAL_CTRL.PENDING = 1 ∧ k < 8) :=
  ⟨⟨(w0.wr FRT_TABLE_CTRL.PENDING 0), .firmware, by decide +kernel⟩,
   ⟨(w0.wr MIR_TABLE_CTRL.PENDING 0), .firmware, by decide +kernel⟩,
   ⟨(w0.wr PORT_TABLE_CTRL.PENDING 0), .firmware, by decide +kernel⟩,
   ⟨(onTm (w0.wr HGS_TABLE_CTRL.PENDING 1) fun x => { x with phase := 0, start := 5 }), by decide +kernel⟩,
   ⟨(onTm (w0.wr CTL_TABLE_CTRL.PENDING 1) fun x => { x with phase := 0, start := 5 }), by decide +kernel⟩,
   ⟨(onTm (w0.wr FRT_TABLE_CTRL.PENDING 1) fun x => { x with phase := 0, start := 5 }), by decide +kernel⟩,
   ⟨(onTm (w0.wr MIR_TABLE_CTRL.PENDING 1) fun x => { x with phase := 0, start := 5 }), by decide +kernel⟩,
   ⟨(onTm (w0.wr PORT_TABLE_CTRL.PENDING 1) fun x => { x with phase := 0, start := 5 }), by decide +kernel⟩,
   ⟨(onMtr (onMtr (w0.wr MTR_CAL_CTRL.PENDING 1) fun x => { x with calDue := true }) fun x => { x with atS5 := false }), 0, by decide +kernel⟩,
   ⟨(onMtr (onMtr (w0.wr MTR_CAL_CTRL.PENDING 1) fun x => { x with calDue := true }) fun x => { x with atS5 := false }), 0, by decide +kernel⟩⟩

theorem test_meets_GridTrackingCommands :
    (∃ (s : State) (v : Nat),
        s.pwr.mainOn = true ∧ 5 ≤ bits v 24 7 ∧ bits v 24 7 ≤ 100 ∧ 5 ≤ bits v 20 4 ∧ 20 ≤ bits v 12 8 ∧ 5 ≤ bits v 6 6 ∧ bits v 6 6 ≤ 60 ∧ 1 ≤ bits v 0 6 ∧ bits v 0 6 ≤ 50 ∧ (bits v 31 1 = s.rd SYNC_PLL_CFG.FNOM ∨ s.allBlocked = true)) ∧
    (∃ (s : State) (v : Nat) (ag : Agent),
        s.pwr.mainOn = true ∧ 1 ≤ bits v 0 16 ∧ bits v 0 16 ≤ 10000 ∧ (bits v 31 1 = 1 → s.rd SYNC_MODE.GFM_REQ = 0 → s.gfmRefused = false)) ∧
    (∃ (s : State) (v : Nat) (ag : Agent),
        s.pwr.mainOn = true ∧ 1 ≤ bits v 0 16 ∧ bits v 0 16 ≤ 10000 ∧ bits v 31 1 = 1 ∧ s.rd SYNC_MODE.GFM_REQ = 0 ∧ s.gfmRefused = true) ∧
    (∃ (s : State) (r : Bool),
        s.pwr.mainOn = true ∧ s.tm.run = true ∧ s.tm.phase = 0 ∧ s.rd SYNC_MODE.GFM_REQ = b2n r ∧ s.law.src.gfm = !r ∧ r = false) ∧
    (∃ (s : State) (r : Bool),
        s.pwr.mainOn = true ∧ s.tm.run = true ∧ s.tm.phase = 0 ∧ s.rd SYNC_MODE.GFM_REQ = b2n r ∧ s.law.src.gfm = !r ∧ r = true ∧ 5 ≤ s.stage) ∧
    (∃ (s : State),
        s.pwr.mainOn = true ∧ s.tm.run = true ∧ s.tm.phase = 0 ∧ s.stage < 5 ∧ s.law.src.gfm = true) ∧
    (∃ (s : State),
        s.pwr.mainOn = true ∧ s.tm.run = true ∧ s.tm.phase = 0 ∧ s.stage < 5 ∧ s.law.src.gfm = false) :=
  ⟨⟨w0, 0x5514141, by decide +kernel⟩,
   ⟨w0, 0x1, .firmware, by decide +kernel⟩,
   ⟨(w0.wr SYNC_MODE.GFM_REQ 0), 0x80000001, .firmware, by decide +kernel⟩,
   ⟨(onLaw (onTm w0 fun x => { x with phase := 0 }) fun x => { x with src := { x.src with gfm := !false } }), false, by decide +kernel⟩,
   ⟨(w0.wr SYNC_MODE.GFM_REQ 1).wr HOST_STATUS.STAGE 5, true, by decide +kernel⟩,
   ⟨onLaw w0 fun x => { x with src := { x.src with gfm := true } }, by decide +kernel⟩,
   ⟨w0, by decide +kernel⟩⟩

theorem test_meets_ThermalTimerCommands :
    (∃ (s : State) (e : Nat),
        s.pwr.mainOn = true ∧ 200000000 ≤ s.thm.timer ∧ s.bit THM_CFG.WEIR_EN = true ∧ s.rd THM_STATUS.WEIR_STEP ≤ 16 ∧ s.rd THM_CFG.WEIR_FLOOR ≤ 15) ∧
    (∃ (s : State) (e : Nat),
        s.pwr.mainOn = true ∧ s.thm.timer < 200000000) ∧
    (∃ (s : State) (e : Nat),
        s.pwr.mainOn = true ∧ s.adc.hkDone + max 20000000 (3 * s.rd ADC_HK_CFG.PERIOD * 1000) ≤ (s.moveTo e).tm.e) :=
  ⟨⟨(onThm (((w0.wr THM_CFG.WEIR_EN 1).wr THM_STATUS.WEIR_STEP 0).wr THM_CFG.WEIR_FLOOR 0) fun x => { x with timer := 200000000 }), 100000000000000, by decide +kernel⟩,
   ⟨(onThm w0 fun x => { x with timer := 0 }), 100000000000000, by decide +kernel⟩,
   ⟨w0, 100000000000000, by decide +kernel⟩⟩

theorem test_meets_TickConfigurationWrites :
    (∃ (s : State) (v : Nat),
        s.pwr.mainOn = true ∧ bits v 0 7 = s.rd CLK_TICK_CFG.PERIOD ∧ 10 ≤ bits v 0 7 ∧ bits v 0 7 ≤ 100 ∧ 1 ≤ bits v 20 4 ∧ bits v 20 4 < s.rd LINK_CFG.STARVE_TICKS) ∧
    (∃ (s : State) (v : Nat),
        s.pwr.mainOn = true ∧ s.tm.run = true ∧ bits v 0 7 ≠ s.rd CLK_TICK_CFG.PERIOD ∧ bits v 0 7 ≠ s.tm.half ∧ 10 ≤ bits v 0 7 ∧ bits v 0 7 ≤ 100 ∧ 1 ≤ bits v 20 4 ∧ bits v 20 4 < s.rd LINK_CFG.STARVE_TICKS ∧ s.allBlocked = true ∧ s.tm.newHalf = none ∧ s.rdi CLK_TICK_DEADLINE_n.DEADLINE 5 * 10 + 100 ≤ bits v 0 7 * 500) ∧
    (∃ (s : State) (n : Fin 6) (v : Nat) (k : Nat),
        s.pwr.mainOn = true ∧ s.deadlinesRise n (bits v 0 13) = true ∧ s.tm.newHalf = none ∧ s.tri.imageOk = false ∧ 410 + s.rd ADC_CTL_CFG.DELAY + 20 ≤ bits v 0 13 * 10 ∧ (if n.val = 5 then bits v 0 13 else s.rdi CLK_TICK_DEADLINE_n.DEADLINE 5) * 10 + 100 ≤ s.tm.half * 500 ∧ k ≠ n.val) ∧
    (∃ (s : State) (v : Nat),
        s.pwr.mainOn = true ∧ bits v 24 3 ≤ 4 ∧ 50 ≤ bits v 8 8 ∧ bits v 8 8 ≤ 100) :=
  ⟨⟨w0, 0x00300014, by decide +kernel⟩,
   ⟨w0, 0x00300028, by decide +kernel⟩,
   ⟨onTri w0 fun x => { x with imageOk := false }, 5, 980, 0, by decide +kernel⟩,
   ⟨w0, 0x3200, by decide +kernel⟩⟩

theorem test_meets_TickStagesPass :
    (∃ (s : State) (e : Nat),
        s.pwr.mainOn = true ∧ s.tm.run = true ∧ s.tm.phase = 6 ∧ s.pwr.sleepPend = false ∧ s.tm.newHalf = none ∧ s.tm.shedClamp = false ∧ s.tm.n < (s.moveTo e).stime / (s.period : Int)) ∧
    (∃ (s : State) (x : Stream) (sk : List (Member × Fin 16 × List Int)) (used e : Nat),
        s.pwr.mainOn = true ∧ s.tm.run = true ∧ s.tm.phase = 0 ∧ s.deadline 0 ≤ (s.moveTo e).tm.e ∧ s.pwr.tready = true ∧ s.pwr.restart = false ∧ s.halted = false ∧ s.tm.s1run = false) ∧
    (∃ (s : State) (e : Nat),
        s.pwr.mainOn = true ∧ s.tm.s1run = true ∧ s.halted = false ∧ s.tri.dropTick = false ∧ (s.moveTo e).tm.e < s.deadline 1) ∧
    (∃ (s : State) (e : Nat),
        s.pwr.mainOn = true ∧ s.tm.run = true ∧ s.tm.phase = 1 ∧ s.tm.s1run = true ∧ s.halted = false ∧ s.deadline 1 ≤ (s.moveTo e).tm.e) ∧
    (∃ (s : State) (e : Nat),
        s.pwr.mainOn = true ∧ s.tm.run = true ∧ s.tm.phase = 1 ∧ s.deadline 1 ≤ (s.moveTo e).tm.e ∧ s.tm.s1run = false ∧ s.tm.tended = true ∧ s.tm.abandoned = false ∧ s.halted = false) ∧
    (∃ (s : State) (used : Nat) (e : Nat),
        s.pwr.mainOn = true ∧ s.tm.run = true ∧ s.tm.phase = 2 ∧ s.deadline 2 ≤ (s.moveTo e).tm.e ∧ s.tm.abandoned = false) ∧
    (∃ (s : State) (used : Nat) (e : Nat),
        s.pwr.mainOn = true ∧ s.tm.run = true ∧ s.tm.phase = 3 ∧ s.deadline 3 ≤ (s.moveTo e).tm.e ∧ s.tm.abandoned = false ∧ s.tm.launchOver = false ∧ s.pwr.shutdown = false ∧ s.halted = false ∧ s.sched.plan ≠ none) ∧
    (∃ (s : State) (used : Nat) (e : Nat),
        s.pwr.mainOn = true ∧ s.tm.run = true ∧ s.tm.phase = 4 ∧ s.deadline 4 ≤ (s.moveTo e).tm.e) ∧
    (∃ (s : State) (used : Nat) (e : Nat) (l : List (Fin 240)),
        s.pwr.mainOn = true ∧ s.tm.run = true ∧ s.tm.phase = 5 ∧ s.deadline 5 ≤ (s.moveTo e).tm.e ∧ s.tm.overran = false ∧ s.tm.late4 = false ∧ s.halted = false) :=
  ⟨⟨(onTm (onTm (onPwr (onTm w0 fun x => { x with phase := 6 }) fun x => { x with sleepPend := false }) fun x => { x with newHalf := none }) fun x => { x with shedClamp := false }), 100000000000000, by decide +kernel⟩,
   ⟨w0, conv, [], 0, 100000000000000, by decide +kernel⟩,
   ⟨onTm w0 fun x => { x with s1run := true }, 0, by decide +kernel⟩,
   ⟨onTm w0 fun x => { x with s1run := true, phase := 1 }, 100000000000000, by decide +kernel⟩,
   ⟨(onTm (onTm (onTm (onTm w0 fun x => { x with phase := 1 }) fun x => { x with s1run := false }) fun x => { x with tended := true }) fun x => { x with abandoned := false }), 100000000000000, by decide +kernel⟩,
   ⟨(onTm (onTm w0 fun x => { x with phase := 2 }) fun x => { x with abandoned := false }), 0, 100000000000000, by decide +kernel⟩,
   ⟨{ (onTm w0 fun x => { x with phase := 3 }) with sched := { w0.sched with plan := some ⟨[], none, true, []⟩ } }, 0, 100000000000000, by decide +kernel⟩,
   ⟨(onTm w0 fun x => { x with phase := 4 }), 0, 100000000000000, by decide +kernel⟩,
   ⟨(onTm (onTm (onTm w0 fun x => { x with phase := 5 }) fun x => { x with overran := false }) fun x => { x with late4 := false }), 0, 100000000000000, [], by decide +kernel⟩⟩

theorem test_meets_TriadFaultCommands :
    (∃ (s : State) (m : Member) (a : Nat) (e : Nat),
        s.pwr.mainOn = true ∧ s.rd TRI_STATUS.MODE = 1 ∧ (((s.tri.fences.getD (memberNum m) []).filter (fun t => decide ((s.moveTo e).tm.e < t + 3600000000000))).length < 2)) ∧
    (∃ (s : State) (m : Member) (a : Nat) (e : Nat),
        s.pwr.mainOn = true ∧ s.rd TRI_STATUS.MODE = 1 ∧ (2 ≤ ((s.tri.fences.getD (memberNum m) []).filter (fun t => decide ((s.moveTo e).tm.e < t + 3600000000000))).length)) ∧
    (∃ (s : State) (m : Member) (a : Nat) (e : Nat),
        s.pwr.mainOn = true ∧ (s.rd TRI_STATUS.MODE = 2 ∨ s.rd TRI_STATUS.MODE = 3) ∧ s.running (memberNum m) = true ∧ s.rd SLC_BLOCK_STATUS.PHASES < 8) ∧
    (∃ (s : State) (m : Member) (a : Nat) (e : Nat),
        s.pwr.mainOn = true ∧ s.rd TRI_STATUS.MODE = 1 ∧ s.bit TRI_CFG.SCRUB_EN = true ∧ (((s.tri.fences.getD (memberNum m) []).filter (fun t => decide ((s.moveTo e).tm.e < t + 3600000000000))).length < 2)) ∧
    (∃ (s : State) (e : Nat),
        s.pwr.mainOn = true ∧ s.rd TRI_STATUS.MODE = 2 ∧ s.rd TRI_STATUS.RSTEP = 1 ∧ s.tri.stepAt + 10000 ≤ (s.moveTo e).tm.e) ∧
    (∃ (s : State) (e : Nat),
        s.pwr.mainOn = true ∧ s.rd TRI_STATUS.MODE = 2 ∧ s.rd TRI_STATUS.RSTEP = 2 ∧ s.tri.stepAt + 327680 ≤ (s.moveTo e).tm.e) ∧
    (∃ (s : State) (e : Nat),
        s.pwr.mainOn = true ∧ s.rd TRI_STATUS.MODE = 2 ∧ s.rd TRI_STATUS.RSTEP = 3 ∧ s.tri.stepAt + 327680 ≤ (s.moveTo e).tm.e ∧ s.rd TRI_STATUS.FENCED < 3) ∧
    (∃ (s : State) (e : Nat),
        s.pwr.mainOn = true ∧ s.rd TRI_STATUS.MODE = 2 ∧ s.rd TRI_STATUS.RSTEP = 4 ∧ s.rd TRI_STATUS.DBG_HALT = 0 ∧ s.tm.run = true ∧ s.tm.phase = 6 ∧ s.pwr.sleepPend = false ∧ s.tm.n < (s.moveTo e).stime / (s.period : Int)) ∧
    (∃ (s : State),
        s.pwr.mainOn = true ∧ s.rd TRI_STATUS.MODE = 2 ∧ s.rd TRI_STATUS.RSTEP = 5 ∧ s.tm.phase = 0) ∧
    (∃ (s : State) (pc : Nat) (cause : Nat),
        s.pwr.mainOn = true ∧ s.tm.s1run = true) ∧
    (∃ (s : State),
        s.pwr.mainOn = true ∧ s.tri.imageOk = true) :=
  ⟨⟨(w0.wr TRI_STATUS.MODE 1), .a, 0, 100000000000000, by decide +kernel⟩,
   ⟨onTri (w0.wr TRI_STATUS.MODE 1) fun x => { x with fences := x.fences.set 0 [1, 2] }, .a, 0, 5, by decide +kernel⟩,
   ⟨((w0.wr TRI_STATUS.MODE 2).wr SLC_BLOCK_STATUS.PHASES 0), .a, 0, 100000000000000, by decide +kernel⟩,
   ⟨((w0.wr TRI_STATUS.MODE 1).wr TRI_CFG.SCRUB_EN 1), .a, 0, 100000000000000, by decide +kernel⟩,
   ⟨((w0.wr TRI_STATUS.MODE 2).wr TRI_STATUS.RSTEP 1), 100000000000000, by decide +kernel⟩,
   ⟨((w0.wr TRI_STATUS.MODE 2).wr TRI_STATUS.RSTEP 2), 100000000000000, by decide +kernel⟩,
   ⟨(((w0.wr TRI_STATUS.MODE 2).wr TRI_STATUS.RSTEP 3).wr TRI_STATUS.FENCED 0), 100000000000000, by decide +kernel⟩,
   ⟨onTm ((w0.wr TRI_STATUS.MODE 2).wr TRI_STATUS.RSTEP 4) fun x => { x with phase := 6 }, 10000, by decide +kernel⟩,
   ⟨onTm ((w0.wr TRI_STATUS.MODE 2).wr TRI_STATUS.RSTEP 5) fun x => { x with phase := 0 }, by decide +kernel⟩,
   ⟨(onTm w0 fun x => { x with s1run := true }), 0, 0, by decide +kernel⟩,
   ⟨(onTri w0 fun x => { x with imageOk := true }), by decide +kernel⟩⟩

theorem test_meets_WriteCommitAndRestart :
    (∃ (s : State) (off : Nat) (be : Nat) (v : Nat) (e : Nat),
        s.pwr.mainOn = true ∧ (s.moveTo e).entryRuns .background = true ∧ s.rd TRI_STATUS.MODE = 1 ∧ off < 0x1000000 ∧ off % 4 = 0 ∧ laneOk be = true) ∧
    (∃ (s : State) (off : Nat) (be : Nat) (v : Nat) (e : Nat),
        s.pwr.mainOn = true ∧ (s.moveTo e).entryRuns .tick = true ∧ s.rd TRI_STATUS.MODE = 1 ∧ off < 0x1000000 ∧ off ≠ SLC_CTRL.STOP.base ∧ off % 4 = 0 ∧ laneOk be = true ∧ s.tri.tbN < 512) ∧
    (∃ (s : State) (en : Entry) (c : PortWrite) (e : Nat),
        s.pwr.mainOn = true ∧ (s.moveTo e).entryRuns en = true ∧ s.rd TRI_STATUS.MODE = 1 ∧ (((s.tri.fences.getD 2 []).filter (fun t => decide ((s.moveTo e).tm.e < t + 3600000000000))).length < 2)) ∧
    (∃ (s : State) (en : Entry) (w : PortWrite) (e : Nat),
        s.pwr.mainOn = true ∧ (s.moveTo e).entryRuns en = true ∧ s.rd TRI_STATUS.MODE = 1 ∧ w.addr % 4 ≠ 0) ∧
    (∃ (s : State) (en : Entry) (w : PortWrite) (e : Nat),
        s.pwr.mainOn = true ∧ (s.moveTo e).entryRuns en = true ∧ s.rd TRI_STATUS.MODE = 1 ∧ laneOk w.be = false) ∧
    (∃ (s : State) (en : Entry) (w : PortWrite) (e : Nat),
        s.pwr.mainOn = true ∧ (s.moveTo e).entryRuns en = true ∧ s.rd TRI_STATUS.MODE = 1 ∧ w.addr % 4 = 0 ∧ laneOk w.be = true ∧ inRam w.addr = true) ∧
    (∃ (s : State) (en : Entry) (w : PortWrite) (e : Nat),
        s.pwr.mainOn = true ∧ (s.moveTo e).entryRuns en = true ∧ s.rd TRI_STATUS.MODE = 1 ∧ w.addr % 4 = 0 ∧ laneOk w.be = true ∧ inRegion w.addr = true ∧ (en = .tick ∨ en = .migrate)) ∧
    (∃ (s : State) (en : Entry) (w : PortWrite) (e : Nat),
        s.pwr.mainOn = true ∧ (s.moveTo e).entryRuns en = true ∧ s.rd TRI_STATUS.MODE = 1 ∧ w.addr % 4 = 0 ∧ laneOk w.be = true ∧ inRegion w.addr = true ∧ ¬(en = .tick ∨ en = .migrate)) ∧
    (∃ (s : State) (en : Entry) (w : PortWrite) (e : Nat),
        s.pwr.mainOn = true ∧ (s.moveTo e).entryRuns en = true ∧ s.rd TRI_STATUS.MODE = 1 ∧ w.addr % 4 = 0 ∧ laneOk w.be = true ∧ inBank w.addr = true ∧ s.bit TRI_CFG.PM_WRITE = true) ∧
    (∃ (s : State) (en : Entry) (w : PortWrite) (e : Nat),
        s.pwr.mainOn = true ∧ (s.moveTo e).entryRuns en = true ∧ s.rd TRI_STATUS.MODE = 1 ∧ w.addr % 4 = 0 ∧ laneOk w.be = true ∧ inBank w.addr = true ∧ s.bit TRI_CFG.PM_WRITE = false) ∧
    (∃ (s : State) (off be v e : Nat),
        s.pwr.mainOn = true ∧ (s.moveTo e).entryRuns .tick = true ∧ s.rd TRI_STATUS.MODE = 1 ∧ off < 0x1000000 ∧ off ≠ SLC_CTRL.STOP.base ∧ off % 4 = 0 ∧ laneOk be = true ∧ 512 ≤ s.tri.tbN) ∧
    (∃ (s : State) (en : Entry) (be v e : Nat),
        s.pwr.mainOn = true ∧ (s.moveTo e).entryRuns en = true ∧ s.rd TRI_STATUS.MODE = 1 ∧ laneOk be = true) ∧
    (∃ (s : State) (en : Entry) (x y : PortWrite) (e : Nat),
        s.pwr.mainOn = true ∧ (s.moveTo e).entryRuns en = true ∧ s.rd TRI_STATUS.MODE = 1 ∧ x ≠ y ∧ s.rd SLC_BLOCK_STATUS.PHASES < 8) ∧
    (∃ (s : State) (en : Entry) (x : PortWrite) (e : Nat),
        s.pwr.mainOn = true ∧ (s.moveTo e).entryRuns en = true ∧ (s.rd TRI_STATUS.MODE = 2 ∨ s.rd TRI_STATUS.MODE = 3) ∧ s.running 0 = false ∧ s.rd SLC_BLOCK_STATUS.PHASES < 8) ∧
    (∃ (s : State) (en : Entry) (a b c : Option PortWrite) (e : Nat),
        s.pwr.mainOn = true ∧ ((s.moveTo e).entryRuns en = false ∨ s.rd TRI_STATUS.MODE = 0 ∨ s.rd TRI_STATUS.MODE = 4)) ∧
    (∃ (s : State) (e : Nat),
        s.pwr.mainOn = true ∧ s.rd SLC_BLOCK_STATUS.SCOPE < 2) ∧
    (∃ (s : State) (e : Nat),
        s.pwr.mainOn = true ∧ 2 ≤ s.rd SLC_BLOCK_STATUS.SCOPE ∧ 2 ≤ s.stage) :=
  ⟨⟨(w0.wr TRI_STATUS.MODE 1), 0, 15, 0, 100000000000000, by decide +kernel⟩,
   ⟨onTm w0 fun x => { x with s1run := true }, 0x1000, 15, 0, 1, by decide +kernel⟩,
   ⟨(w0.wr TRI_STATUS.MODE 1), .background, ⟨0x10000000, 0, 15⟩, 100000000000000, by decide +kernel⟩,
   ⟨w0, .background, ⟨0x10000002, 0, 15⟩, 1, by decide +kernel⟩,
   ⟨w0, .background, ⟨0x10000000, 0, 5⟩, 1, by decide +kernel⟩,
   ⟨w0, .background, ⟨0x1001FFFC, 0, 15⟩, 1, by decide +kernel⟩,
   ⟨onTm w0 fun x => { x with s1run := true }, .tick, ⟨0x1002FFFC, 0, 15⟩, 1, by decide +kernel⟩,
   ⟨w0, .background, ⟨0x10020000, 0, 15⟩, 1, by decide +kernel⟩,
   ⟨w0.wr TRI_CFG.PM_WRITE 1, .background, ⟨0, 0, 15⟩, 1, by decide +kernel⟩,
   ⟨w0, .background, ⟨0x1FFFC, 0, 15⟩, 1, by decide +kernel⟩,
   ⟨onTri (onTm w0 fun x => { x with s1run := true }) fun x => { x with tbN := 512 }, 0x1000, 15, 0, 1, by decide +kernel⟩,
   ⟨onTm w0 fun x => { x with s1run := true }, .tick, 15, 1, 1, by decide +kernel⟩,
   ⟨w0, .background, ⟨0x40000000, 1, 15⟩, ⟨0x40000000, 2, 15⟩, 1, by decide +kernel⟩,
   ⟨(w0.wr TRI_STATUS.MODE 2).wr TRI_STATUS.FENCED 0, .background, ⟨0x40000000, 1, 15⟩, 1, by decide +kernel⟩,
   ⟨w0.wr TRI_STATUS.MODE 4, .background, some ⟨0x40000000, 1, 15⟩, none, none, 1, by decide +kernel⟩,
   ⟨(w0.wr SLC_BLOCK_STATUS.SCOPE 0), 100000000000000, by decide +kernel⟩,
   ⟨((w0.wr SLC_BLOCK_STATUS.SCOPE 2).wr HOST_STATUS.STAGE 2), 100000000000000, by decide +kernel⟩⟩

theorem test_meets_DebugAccessCommands :
    (∃ (s : State) (i : Instr),
        (i = .debugHalt ∨ i = .debugBreakpoint) ∧ s.pwr.mainOn = true ∧ (s.rd LC_STATE.STATE = 1 ∨ s.rd LC_STATE.STATE = 2) ∧ s.bit TRI_STATUS.DBG_HALT = false) ∧
    (∃ (s : State) (i : Instr),
        (i = .debugHalt ∨ i = .debugBreakpoint) ∧ s.pwr.mainOn = true ∧ (¬(s.rd LC_STATE.STATE = 1 ∨ s.rd LC_STATE.STATE = 2) ∨ s.bit TRI_STATUS.DBG_HALT = true)) ∧
    (∃ (s : State),
        s.pwr.mainOn = true ∧ s.bit TRI_STATUS.DBG_HALT = true) ∧
    (∃ (s : State),
        s.pwr.mainOn = true ∧ s.bit TRI_STATUS.DBG_HALT = false) ∧
    (∃ (s : State),
        s.pwr.mainOn = true ∧ s.debugOpen = true ∧ s.bit TRI_STATUS.DBG_HALT = true) ∧
    (∃ (s : State),
        ¬(s.pwr.mainOn = true ∧ s.debugOpen = true ∧ s.bit TRI_STATUS.DBG_HALT = true)) ∧
    (∃ (s : State) (off v be e : Nat),
        s.pwr.mainOn = true ∧ s.debugOpen = true ∧ s.running (s.rd TRI_CFG.LEAD) = true ∧ off % 4 = 0 ∧ off < 0x1000000) ∧
    (∃ (s : State) (w : PortWrite) (e : Nat),
        s.pwr.mainOn = true ∧ s.debugOpen = false) ∧
    (∃ (s : State) (w : PortWrite) (e : Nat),
        s.pwr.mainOn = true ∧ s.running (s.rd TRI_CFG.LEAD) = false) ∧
    (∃ (s : State) (w : PortWrite) (e : Nat),
        s.pwr.mainOn = true ∧ w.addr % 4 ≠ 0) ∧
    (∃ (s : State) (a v be e : Nat),
        s.pwr.mainOn = true ∧ s.debugOpen = true ∧ s.running (s.rd TRI_CFG.LEAD) = true ∧ a % 4 = 0 ∧ inRam a = true ∧ bitOf be 1 = true) ∧
    (∃ (s : State) (a v be e : Nat),
        s.pwr.mainOn = true ∧ s.debugOpen = true ∧ s.running (s.rd TRI_CFG.LEAD) = true ∧ a % 4 = 0 ∧ inRegion a = true) ∧
    (∃ (s : State) (k v be e j : Nat),
        s.pwr.mainOn = true ∧ s.debugOpen = true ∧ s.running (s.rd TRI_CFG.LEAD) = true ∧ k < 128 ∧ j < 128 ∧ j ≠ k) :=
  ⟨⟨w0.wr LC_STATE.STATE 1, .debugHalt, by decide +kernel⟩,
   ⟨w0.wr LC_STATE.STATE 3, .debugBreakpoint, by decide +kernel⟩,
   ⟨(w0.wr TRI_STATUS.DBG_HALT 1), by decide +kernel⟩,
   ⟨w0, by decide +kernel⟩,
   ⟨w0.wr TRI_STATUS.DBG_HALT 1, by decide +kernel⟩,
   ⟨w0, by decide +kernel⟩,
   ⟨w0, 0xFFFFFC, 1, 15, 1, by decide +kernel⟩,
   ⟨w0.wr LC_STATE.STATE 3, ⟨0, 0, 15⟩, 1, by decide +kernel⟩,
   ⟨w0.wr TRI_STATUS.MODE 4, ⟨0, 0, 15⟩, 1, by decide +kernel⟩,
   ⟨w0, ⟨1, 0, 15⟩, 1, by decide +kernel⟩,
   ⟨w0, 0x1001FFFC, 0, 2, 100000000000000, by decide +kernel⟩,
   ⟨w0, 0x10020000, 0, 2, 100000000000000, by decide +kernel⟩,
   ⟨w0, 127, 5, 15, 1, 126, by decide +kernel⟩⟩

theorem test_meets_FirmwareStageAndSwapCommands :
    (∃ (s : State) (h : DescHdr) (off : Nat) (len : Nat) (a : Nat) (last : Bool) (df : Bool),
        (match s.startDesc h 0x08 with
        | .go d u => decide (s.pwr.mainOn = true ∧ s.rdi RING_CFG_n.TYPE h.ring = 0 ∧ 131072 < off + len)
        | .wait _ => false) = true) ∧
    (∃ (s : State) (h : DescHdr) (off : Nat) (len : Nat) (a : Nat) (last : Bool) (df : Bool),
        (match s.startDesc h 0x08 with
        | .go d u => decide (s.pwr.mainOn = true ∧ s.rdi RING_CFG_n.TYPE h.ring = 0 ∧ len = 0 ∧ off ≤ 131072 ∧ last = false)
        | .wait _ => false) = true) ∧
    (∃ (s : State) (h : DescHdr) (off : Nat) (len : Nat) (a : Nat) (last : Bool) (df : Bool),
        (match s.startDesc h 0x08 with
        | .go d u => decide (s.pwr.mainOn = true ∧ s.rdi RING_CFG_n.TYPE h.ring = 0 ∧ off + len ≤ 131072 ∧ 0 < len ∧ a + len ≤ 2 ^ 30 ∧ s.bit HOST_WALK_ROOT_LO.EN = true ∧ (∀ p ∈ pagesOf a len, u.cached p = none))
        | .wait _ => false) = true) ∧
    (∃ (s : State) (h : DescHdr),
        (match s.startDesc h 0x09 with
        | .go d u => decide (s.pwr.mainOn = true ∧ s.rdi RING_CFG_n.TYPE h.ring = 0 ∧ (s.rd TRI_FW_STATUS.STAGED = 0 ∨ s.bit TRI_STATUS.DBG_HALT = true))
        | .wait _ => false) = true) ∧
    (∃ (s : State) (h : DescHdr),
        (match s.startDesc h 0x09 with
        | .go d u => decide (s.pwr.mainOn = true ∧ s.rdi RING_CFG_n.TYPE h.ring = 0 ∧ s.rd TRI_FW_STATUS.STAGED ≠ 0 ∧ s.bit TRI_STATUS.DBG_HALT = false ∧ u.s1Window < imgTickCycles u.shadowImage + imgMigrateCycles u.shadowImage)
        | .wait _ => false) = true) ∧
    (∃ (s : State) (h : DescHdr),
        (match s.startDesc h 0x09 with
        | .go d u => decide (s.pwr.mainOn = true ∧ s.rdi RING_CFG_n.TYPE h.ring = 0 ∧ s.rd TRI_FW_STATUS.STAGED ≠ 0 ∧ s.bit TRI_STATUS.DBG_HALT = false ∧ imgTickCycles u.shadowImage + imgMigrateCycles u.shadowImage ≤ u.s1Window)
        | .wait _ => false) = true) ∧
    (∃ (s : State),
        s.pwr.mainOn = true ∧ s.bit TRI_FW_STATUS.PENDING = true ∧ s.rd TRI_STATUS.RSTEP ≠ 4 ∧ s.rd TRI_STATUS.RSTEP ≠ 5 ∧ s.rejoined = false ∧ s.boundaryDue TRI_FW_STATUS.PENDING.base = true ∧ s.rd TRI_FW_VER_ACTIVE.VERSION < 2 ^ 32 ∧ s.rd TRI_FW_VER_SHADOW.VERSION < 2 ^ 32) ∧
    (∃ (s : State),
        s.pwr.mainOn = true ∧ s.tri.revert = true ∧ s.tm.phase = 0) :=
  ⟨⟨(wd 0), hd, 131072, 1, 0, false, false, by decide +kernel⟩,
   ⟨(wd 0), hd, 131072, 0, 0, false, false, by decide +kernel⟩,
   ⟨((wd 0).wr HOST_WALK_ROOT_LO.EN 1), hd, 0, 4, 0x10000000, false, false, by decide +kernel⟩,
   ⟨((wd 0).wr TRI_FW_STATUS.STAGED 0), hd, by decide +kernel⟩,
   ⟨(((onTri ((wd 0).wr TRI_FW_STATUS.STAGED 1) fun x => { x with bank1 := [(4, 64), (31, 255)] }).wr TRI_FW_STATUS.STAGED 1).wr TRI_STATUS.DBG_HALT 0), hd, by decide +kernel⟩,
   ⟨(((wd 0).wr TRI_FW_STATUS.STAGED 1).wr TRI_STATUS.DBG_HALT 0), hd, by decide +kernel⟩,
   ⟨(onTm ((((w0.wr TRI_FW_STATUS.PENDING 1).wr TRI_STATUS.RSTEP 0).wr TRI_FW_VER_ACTIVE.VERSION 0).wr TRI_FW_VER_SHADOW.VERSION 0) fun x => { x with phase := 0, start := 5 }), by decide +kernel⟩,
   ⟨(onTm (onTri w0 fun x => { x with revert := true }) fun x => { x with phase := 0 }), by decide +kernel⟩⟩

theorem pi_pos : 0 < Config.pi := by unfold Config.pi; positivity

/-- With KP 0 and the notch off a gain set is in range. -/
theorem ctl_ok (s : State) (rd : Fld → Nat → Nat) (a : rd CTL_GAIN.KP 0 = 0) (t : s.tsec = 1 / 100000) (f : s.fnom = 50) :
    s.ctlSetOk rd false = true := by
  have l : 0 ≤ divR (s.lmodel (rd CTL_MODEL.LSCALE 0)) (2 * s.tsec) := by
    have p : s.wnom ≠ 0 := by unfold State.wnom; rw [f]; have := pi_pos; positivity
    have q : 0 < s.wnom := by unfold State.wnom; rw [f]; have := pi_pos; positivity
    have r : (2 : Rat) * s.tsec ≠ 0 := by rw [t]; norm_num
    unfold divR State.lmodel divR
    rw [if_neg r, if_neg p, t]
    positivity
  simp only [State.ctlSetOk, a, Nat.cast_zero, zero_div, zero_mul, l, decide_true, Bool.not_false, Bool.true_or, Bool.and_true]

theorem test_meets_TableSwapsWaitAndApply_2 : ∃ s : State,
    s.pwr.mainOn = true ∧ s.rd CTL_TABLE_CTRL.PENDING = 0 ∧ s.ctlSetOk s.rdi (s.bit CTL_MODE.NOTCH_EN) = true :=
  ⟨w0.wr CTL_GAIN.KP 0, by decide +kernel, by decide +kernel,
    (show (w0.wr CTL_GAIN.KP 0).bit CTL_MODE.NOTCH_EN = false by decide +kernel) ▸
      ctl_ok _ _ (by decide +kernel) (by decide +kernel) (by decide +kernel)⟩

def wt (x : TrackSt → TrackSt) : State := onLaw (onTm w0 fun x => { x with s1run := true }) fun y => { y with trk := { x y.trk with omega := w0.wnom } }

theorem wt_inside (x : TrackSt → TrackSt) : (wt x).atClamp = false := by
  have p := pi_pos
  have a : (wt x).wnom = w0.wnom := rfl
  have b : (wt x).law.trk.omega = w0.wnom := rfl
  simp [State.atClamp, State.omegaLim, a, b, p]

theorem test_meets_GridTrackingCommands_1 : ∃ (s : State) (d : Rat),
    s.pwr.mainOn = true ∧ s.tm.s1run = true ∧ s.law.trk.locked = false ∧ s.atClamp = false ∧ s.law.trk.lockFor = some d ∧ 1 / 10 ≤ d :=
  ⟨wt fun y => { y with locked := false, lockFor := some 1 }, 1, by decide +kernel, by decide +kernel, rfl, wt_inside _, rfl, by decide +kernel⟩

theorem test_meets_GridTrackingCommands_2 : ∃ s : State,
    s.pwr.mainOn = true ∧ s.tm.s1run = true ∧ s.law.trk.locked = true ∧ (s.atClamp = true ∨ ∃ d, s.law.trk.lossFor = some d ∧ 1 / 200 ≤ d) :=
  ⟨wt fun y => { y with locked := true, lossFor := some 1 }, by decide +kernel, by decide +kernel, rfl, .inr ⟨1, rfl, by decide +kernel⟩⟩

/-- Input 2 alone has test pulses. -/
def wTp : State := ((List.range 8).foldl (fun s k => s.wri SAFE_IN_CFG_n.TP_EN k (b2n (k == 2))) w0).wri SAFE_IN_CFG_n.TYPE 2 1

theorem test_meets_SafetyInputCommands_6 : ∃ (s : State) (n : Fin 8) (b : Bool) (e : Nat), s.pwr.mainOn = true ∧ s.saf.inputs.length = 8 ∧ (s.moveTo e).pulseDue b = true ∧
    (∀ k, k ≠ n.val → s.biti SAFE_IN_CFG_n.TP_EN k = false) ∧ s.biti SAFE_IN_CFG_n.TP_EN n = true ∧ 1 ≤ s.rdi SAFE_IN_CFG_n.TYPE n ∧
    s.rdi SAFE_IN_CFG_n.TYPE n ≤ 3 ∧ s.biti SAFE_IN_CFG_n.ANTI n = false ∧ (if b then (s.sin n).missB else (s.sin n).missA) = 1 ∧
    bitOf (s.rd SAFE_STATUS.TP_ERR) n = false ∧ s.bit PWR_STATUS.SLEEP = false ∧ s.rd SLC_BLOCK_STATUS.PHASES < 8 := by
  refine ⟨onSin wTp 2 fun x => { x with missA := 1 }, 2, false, 5, by decide +kernel,
    by decide +kernel, by decide +kernel, ?_, by decide +kernel, by decide +kernel, by decide +kernel, by decide +kernel, by decide +kernel, by decide +kernel,
    by decide +kernel, by decide +kernel⟩
  intro k h
  by_cases hk : k < 8
  · interval_cases k <;> first | exact absurd rfl h | decide +kernel
  · have : (onSin wTp 2 fun x => { x with missA := 1 }).rdi SAFE_IN_CFG_n.TP_EN k = 0 := by
      unfold State.rdi; exact if_neg hk
    simp [State.biti, this]

/-- Eighteen cells in service and every condition of a release met. -/
def wRel : State :=
  let s := (List.range 18).foldl (fun s c => ((s.wri HGS_CELL_CFG_n.ENABLE c 1).wri HGS_CELL_CFG_n.PHASE c (c / 6)).wri
    JOIN_CELL_STATUS_n.SSTATE c 5) (wd 0)
  let s := (List.range 9).foldl (fun s k => (s.wri ADC_CH_CFG_n.EN k 1).wri ADC_CH_CFG_n.FUNC k (k + 1)) s
  let s := setAct (setAct (setAct (setAct s FRT_UV_i.EN 0 1) FRT_OV_i.EN 0 1) FRT_UF_i.EN 0 1) FRT_OF_i.EN 0 1
  let s := setAct (setAct (setAct s MIR_PASSIVE_CFG.ROCOF_EN 0 1) CTL_GAIN.KP 0 0) MIR_CFG.EN 0 0
  let s := (((((s.wr SYNC_STATUS.LOCKED 1).wr SLC_BLOCK_STATUS.BRK 0).wr SLC_TRIP_LATCH.HOST 0).wri SAFE_IN_CFG_n.TYPE 0 2).wr SAFE_STATUS.PROOF 1).wr
    FRT_STATUS.ENTER_OK 1
  let s := (((s.wr HGS_RATING_STATUS.DERATE_ROW 0).wr HGS_PLANT_VOLT.VNOM 100).wr HGS_PLANT_CUR.IRATED 100).wr HGS_PLANT_CUR.XF 100
  let s := onSin s 0 fun x => { x with proof := 3 }
  onTm s fun x => { x with e := 100000000000000 }
def wRel' : State := (wRel.wri RING_STATE_n.CONS 0 1).flight 0 true

theorem release_ok (s : State)
    (k : s.plantReady = true ∧ s.law.src.gfm = false ∧ s.bit SYNC_STATUS.LOCKED = true ∧ s.bit FRT_STATUS.ENTER_OK = true ∧
      s.curvesReady = true ∧ s.detectorReady = true ∧ s.dmaxOk s.act = true ∧ s.sensorsReady = true)
    (l : s.fabricReady = true ∧ s.proofReady = true ∧ s.netReady = true ∧ s.confirmReady = true ∧ s.ringsReady = true ∧
      s.stage = 4 ∧ s.bit CLK_TICK_STATUS.PERIOD_PEND = false)
    (c : s.ctlSetOk s.acti (s.act CTL_MODE.NOTCH_EN == 1) = true) : s.releaseChecks = 0 := by
  obtain ⟨k1, k2, k3, k4, k5, k6, k7, k8⟩ := k
  obtain ⟨l1, l2, l3, l4, l5, l6, l7⟩ := l
  simp only [State.releaseChecks, c, k1, k2, k3, k4, k5, k6, k7, k8, l1, l2, l3, l4, l5, l6, l7]
  cases (s.law.sup.state == 4) <;> rfl

theorem test_meets_SluiceLatchesAndDrives_6 : ∃ (s u : State) (h : DescHdr) (d : Desc) (e : Nat), s.pwr.mainOn = true ∧
    (s.moveTo e).startDesc h 0x02 = .go d u ∧ s.rdi RING_CFG_n.TYPE h.ring = 0 ∧ s.ringWaits h.ring = false ∧ u.releaseChecks = 0 := by
  have go : (match (wRel.moveTo 0).startDesc hd 0x02 with
      | .go d u => decide (d = ⟨0, 1, 0, 2, 0x55, 0⟩ ∧ u = wRel')
      | .wait _ => false) = true := by decide +kernel
  refine ⟨wRel, wRel', hd, ⟨0, 1, 0, 2, 0x55, 0⟩, 0, by decide +kernel, ?_, by decide +kernel, by decide +kernel,
    release_ok _ (by decide +kernel) (by decide +kernel)
      ((show (wRel'.act CTL_MODE.NOTCH_EN == 1) = false by decide +kernel) ▸
        ctl_ok _ _ (by decide +kernel) (by decide +kernel) (by decide +kernel))⟩
  split at go
  · simp only [decide_eq_true_eq] at go
    obtain ⟨rfl, rfl⟩ := go
    assumption
  · exact absurd go Bool.false_ne_true

end Sys2Proof.Tests
end

section
/-! PROOFS. The register map at main power-on (00_scope.md R18; 17_clocks_power_lifecycle.md R631): O46 and O45. -/
namespace Sys2Proof.Machine
open Reg

/-- Settles O46: the closed state `State.reset`, read through the Reset columns of the register table. -/
theorem resetWords : Obligations.ResetWords := by
  unfold Obligations.ResetWords
  decide

/-- A table read after some entries are dropped: an entry that stays reads as before, one that is dropped as unlisted. -/
theorem tget_filter_keys {α : Type} (d : Nat → α) (p : Nat → Bool) (t : Tab α) (k : Nat) :
    tget d (t.filter (fun kv => p kv.1)) k = if p k then tget d t k else d k := by
  induction t with
  | nil => simp [tget]
  | cons q t ih =>
    obtain ⟨a, v⟩ := q
    rw [List.filter_cons]
    by_cases ha : a = k
    · subst ha
      by_cases hp : p a = true
      · simp [hp, tget]
      · simpa [hp] using ih
    · by_cases hp : p a = true
      · simpa [hp, tget, ha] using ih
      · simpa [hp, tget, ha] using ih

/-- Writing the entries of a canonical table over another one: a key that the first lists reads as there, another as in the
table written over. -/
theorem tget_foldl_tput {α : Type} [DecidableEq α] (d : Nat → α) {l : Tab α} (hl : twf d l = true) (t : Tab α) (k : Nat) :
    tget d (l.foldl (fun t kv => tput d t kv.1 kv.2) t) k = if tget d l k = d k then tget d t k else tget d l k := by
  induction l generalizing t with
  | nil => simp [tget]
  | cons q l ih =>
    obtain ⟨a, v⟩ := q
    simp only [twf, Bool.and_eq_true, decide_eq_true_eq] at hl
    obtain ⟨⟨habove, hv⟩, hl⟩ := hl
    rw [List.foldl_cons, ih hl]
    by_cases ha : a = k
    · subst ha
      simp [tget, tget_above d habove, hv, tget_tput_self]
    · simp [tget, ha, tget_tput_ne]

/-- The register file that main power-on loads: kept keys as they were, every other as right after reset (R18, R631). -/
theorem tget_powerOnRegs {regs : Tab Nat} (h : twf regDefault regs = true) (k : Nat) :
    tget regDefault ((regs.filter (fun kv => kept kv.1)).foldl (fun t kv => tput regDefault t kv.1 kv.2)
      (State.reset.regs.filter (fun kv => !kept kv.1))) k =
    if kept k then tget regDefault regs k else tget regDefault State.reset.regs k := by
  rw [tget_foldl_tput regDefault (twf_filter regDefault _ h), tget_filter_keys regDefault kept,
    tget_filter_keys regDefault (fun k => !kept k)]
  cases kept k with
  | false => simp
  | true => simp +contextual

/-- What the start of the main die leaves, the report of a rail reset aside (R18, R519, R631). -/
structure PoweredOn (s u : State) : Prop where
  main : u.pwr.mainOn = true
  flash : u.pwr.flash = s.pwr.flash
  fused : u.pwr.fused = s.pwr.fused
  journal : u.jr = { s.jr with flags := u.jr.flags }
  flags : s.jr.flags <+: u.jr.flags
  counting : u.rd KA_STATUS.COUNTING = 0
  regs : ∀ k, k ≠ KA_STATUS.COUNTING.key 0 →
    tget regDefault u.regs k = if kept k then tget regDefault s.regs k else tget regDefault State.reset.regs k

theorem powerOn_poweredOn {s : State} (h : twf regDefault s.regs = true) :
    ∃ u, PoweredOn s u ∧ s.powerOn = if s.pwr.railReset then (u.wr PWR_STATUS.RAIL_RESET 1).powerEvent 4 0 else u := by
  unfold State.powerOn
  extract_lets r base regs src src2 n u
  refine ⟨u, ?_, rfl⟩
  have hn : ∀ k, tget regDefault n.regs k = if kept k then tget regDefault s.regs k else tget regDefault State.reset.regs k :=
    tget_powerOnRegs h
  have hu : u.regs = tput regDefault n.regs (KA_STATUS.COUNTING.key 0) 0 := rfl
  exact {
    main := rfl
    flash := rfl
    fused := rfl
    journal := rfl
    flags := List.prefix_append _ _
    counting := (rdi_of_regs (s := n.wr KA_STATUS.COUNTING 0) rfl _ _).trans (n.rd_wr_self 0 (by decide))
    regs := fun k hk => by rw [hu, tget_tput_ne _ _ _ (Ne.symm hk), hn] }

/-- No kept field lies in the block of the rings, and RAIL_RESET is none of them. -/
theorem kept_block {k : Nat} (hk : kept k = true) : k / 32 / 65536 < 8 ∧ k / 32 / 65536 ≠ 5 := by
  simp only [kept, Bool.or_eq_true, Bool.and_eq_true, beq_iff_eq] at hk
  omega

/-- Reporting a rail reset leaves every field that main power loss does not take (R655). -/
theorem tget_reportRailReset (u : State) {k : Nat} (hk : kept k = true) :
    tget regDefault ((u.wr PWR_STATUS.RAIL_RESET 1).powerEvent 4 0).regs k = tget regDefault u.regs k := by
  obtain ⟨hlt, h5⟩ := kept_block hk
  have hbit : Nat.testBit 0x1100100000000220 (k / 32 / 65536) = false := by
    generalize k / 32 / 65536 = b at hlt h5
    revert h5; revert b; decide
  have only : Only 0x1100100000000220 u ((u.wr PWR_STATUS.RAIL_RESET 1).powerEvent 4 0) :=
    Only.powerEvent (Only.wr (Only.refl _ u) _ _ rfl rfl) _ _ rfl
  exact only.regs k (by omega) hbit

/-- Settles O45: the register file is `tget_powerOnRegs`, which the report of a rail reset keeps on the kept fields. -/
theorem powerOnResetsFields : Obligations.PowerOnResetsFields := by
  unfold Obligations.PowerOnResetsFields
  intro s hoff hwf
  obtain ⟨u, hu, hpow⟩ := powerOn_poweredOn hwf
  have hexec : exec .mainPowerOn s = .next s.powerOn := by
    show execMainPowerOn s = _
    unfold execMainPowerOn
    rw [if_neg (by simp [hoff])]
  refine ⟨s.powerOn, hexec, ?_⟩
  have hkeep : ∀ k, kept k = true → k ≠ KA_STATUS.COUNTING.key 0 → tget regDefault u.regs k = tget regDefault s.regs k :=
    fun k hk hne => by rw [hu.regs k hne, if_pos hk]
  cases hr : s.pwr.railReset with
  | false =>
    rw [hr, if_neg Bool.false_ne_true] at hpow
    rw [hpow]
    refine ⟨hu.main, fun _ => ⟨hu.journal, hu.flags⟩, hu.flash, hu.fused, hu.counting, hkeep, fun _ k hk => ?_, nofun⟩
    have hne : k ≠ KA_STATUS.COUNTING.key 0 := fun e => by rw [e] at hk; exact absurd hk (by decide)
    rw [hu.regs k hne, hk, if_neg Bool.false_ne_true]
  | true =>
    rw [hr, if_pos rfl] at hpow
    rw [hpow]
    have hpwr : ((u.wr PWR_STATUS.RAIL_RESET 1).powerEvent 4 0).pwr = u.pwr := by simp
    have hrail : ((u.wr PWR_STATUS.RAIL_RESET 1).powerEvent 4 0).rd PWR_STATUS.RAIL_RESET = 1 := by
      rw [((u.wr PWR_STATUS.RAIL_RESET 1).powerEvent_only 4 0).rd _ rfl, State.rd_wr_self _ _ (by decide)]
      rfl
    refine ⟨hpwr ▸ hu.main, nofun, hpwr ▸ hu.flash, hpwr ▸ hu.fused, ?_, fun k hk hne => ?_, nofun, fun _ => hrail⟩
    · exact (tget_reportRailReset u (by decide)).trans hu.counting
    · rw [tget_reportRailReset u hk, hkeep k hk hne]

end Sys2Proof.Machine
end

section
/-! PROOFS. The words of the register file that a plain configuration write changes (00_scope.md R14, R15): O47. -/
namespace Sys2Proof.Machine
open Reg

/-- A register family stands at a word's offset. -/
theorem regAt_base {off : Nat} {r : RegRow} (h : regAt off = some r) : r.base % 4 = 0 := by
  unfold regAt at h
  split at h
  · next b hb =>
    have hp := List.all_eq_true.mp (List.all_eq_true.mp regBlocks_placed b (List.mem_of_getElem? hb)) r (findReg_mem h).1
    simp only [RegRow.placed, Bool.and_eq_true, decide_eq_true_eq] at hp
    exact hp.1.2
  · cases h

theorem Fld.off_mod {f : Fld} (h : f.base % 4 = 0) (i : Nat) : f.off i % 4 = 0 := by
  unfold Fld.off; omega

/-- From `s` to `t` every field entry of the register file reads as before, but for the words `ws` and the field `err`. -/
def WordsKept (ws : List Nat) (err : Fld) (s t : State) : Prop :=
  ∀ f i, f.off i ∉ ws → apart err f = true → t.rdi f i = s.rdi f i

namespace WordsKept
variable {ws : List Nat} {err : Fld} {s t u : State}

theorem refl : WordsKept ws err s s := fun _ _ _ _ => rfl

theorem of_regs (h : t.regs = s.regs) : WordsKept ws err s t := fun f i _ _ => rdi_of_regs h f i

theorem trans (h : WordsKept ws err s t) (g : WordsKept ws err t u) : WordsKept ws err s u :=
  fun f i hw ha => (g f i hw ha).trans (h f i hw ha)

theorem refuse : WordsKept ws err s (s.refuse err) := fun _ i _ ha => s.rdi_wri_apart 0 i 1 ha

/-- A write of an entry changes the word that holds it, and no other. -/
theorem wri {g : Fld} {j v : Nat} (hlo : g.lo < 32) (hw : g.off j ∈ ws) : WordsKept ws err s (s.wri g j v) := by
  intro f i hf ha
  have hne : f.off i ≠ g.off j := fun e => hf (e ▸ hw)
  simp only [apart, Bool.and_eq_true, decide_eq_true_eq] at ha
  unfold State.wri State.rdi
  split
  · split
    · exact tget_tput_ne _ _ _ (by unfold Fld.key; unfold Fld.off at hne; omega)
    · rfl
  · rfl

theorem wr {g : Fld} {v : Nat} (hlo : g.lo < 32) (hw : g.off 0 ∈ ws) : WordsKept ws err s (s.wr g v) := wri hlo hw

/-- An activation changes the word at + 0x8000 of the entry's own, and no other. -/
theorem activate {g : Fld} {j : Nat} (hlo : g.lo < 32) (hw : g.off j + 0x8000 ∈ ws) : WordsKept ws err s (s.activate g j) := by
  intro f i hf ha
  have hne : f.off i ≠ g.off j + 0x8000 := fun e => hf (e ▸ hw)
  simp only [apart, Bool.and_eq_true, decide_eq_true_eq] at ha
  unfold State.activate State.rdi
  split
  · split
    · exact tget_tput_ne _ _ _ (by unfold Fld.key Fld.actKey; unfold Fld.off at hne; omega)
    · rfl
  · rfl

theorem putFields {i v : Nat} {l : List FieldRow} (hl : ∀ x ∈ l, x.f.lo < 32 ∧ x.f.off i ∈ ws) :
    WordsKept ws err s (s.putFields i v l) := by
  induction l generalizing s with
  | nil => exact refl
  | cons r l ih =>
    obtain ⟨hlo, hw⟩ := hl r List.mem_cons_self
    exact (wri hlo hw).trans (ih fun x hx => hl x (List.mem_cons_of_mem _ hx))

/-- A write of a register's word changes that word, and no other. -/
theorem putRw {off v : Nat} (h4 : off % 4 = 0) (hw : off ∈ ws) : WordsKept ws err s (s.putRw off v) := by
  unfold State.putRw
  split
  · next r hr =>
    obtain ⟨hbase, -, -, hfields⟩ := regAt_placed hr
    have h4r := regAt_base hr
    refine putFields fun x hx => ?_
    obtain ⟨hxb, -, hlo⟩ := hfields x (List.mem_filter.mp hx).1
    refine ⟨hlo, ?_⟩
    have : x.f.off ((off - r.base) / 4) = off := by unfold Fld.off; omega
    rwa [this]
  · exact refl

theorem putRwi {g : Fld} {i v : Nat} (h4 : g.off i % 4 = 0) (hw : g.off i ∈ ws) : WordsKept ws err s (s.putRwi g i v) := by
  unfold State.putRwi
  split
  · exact putRw h4 hw
  · exact refl

theorem ite {c : Prop} [Decidable c] (h : WordsKept ws err s t) (g : WordsKept ws err s u) :
    WordsKept ws err s (if c then t else u) := by
  split <;> assumption

theorem live {g : State → State} (h : WordsKept ws err s (g s)) : WordsKept ws err s (s.live g) := ite h refl

end WordsKept

/-! ### Each plain configuration write changes its own words (R14, R15) -/

theorem writeShedCfg_words (s : State) (v : Nat) :
    WordsKept [CLK_SHED_CFG.MAX_LEVEL.base] CLK_TICK_STATUS.CFG_ERR s (s.writeShedCfg v) := by
  have hput : WordsKept [CLK_SHED_CFG.MAX_LEVEL.base] CLK_TICK_STATUS.CFG_ERR s (s.putRw CLK_SHED_CFG.MAX_LEVEL.base v) :=
    .putRw rfl (by simp)
  exact .ite .refuse (.ite (hput.trans (.of_regs rfl)) hput)

theorem writeCtlMode_words (s : State) (v : Nat) : WordsKept [CTL_MODE.PRIO.base] CTL_STATUS.CFG_ERR s (s.writeCtlMode v) :=
  .ite .refuse (.putRw rfl (by simp))

/-- FNOM takes effect at once, so its active copy changes with the register (R176). -/
theorem writePllCfg_words (s : State) (v : Nat) :
    WordsKept [SYNC_PLL_CFG.BW.base, SYNC_PLL_CFG.BW.base + 0x8000] SYNC_STATUS.CFG_ERR s (s.writePllCfg v) :=
  .ite .refuse (.ite .refuse ((WordsKept.putRw rfl (by simp)).trans (.activate (by decide) (by decide))))

theorem writePvCfg_words (s : State) (c v : Nat) :
    WordsKept [PORT_PV_CFG_n.ROW.off c] PORT_GSTATUS.CFG_ERR s (s.writePvCfg c v) := by
  have hput : WordsKept [PORT_PV_CFG_n.ROW.off c] PORT_GSTATUS.CFG_ERR s (s.putRwi PORT_PV_CFG_n.ROW c v) :=
    .putRwi (Fld.off_mod rfl c) (by simp)
  exact .ite .refl (.ite .refuse (.ite (hput.trans (.of_regs rfl)) hput))

theorem writeChCfg_words (s : State) (n v : Nat) : WordsKept [ADC_CH_CFG_n.EN.off n] ADC_STATUS.CFG_ERR s (s.writeChCfg n v) :=
  .ite .refuse (.putRwi (Fld.off_mod rfl n) (by simp))

theorem writeChCal_words (s : State) (n v : Nat) : WordsKept [ADC_CH_CAL_n.GAIN.off n] ADC_STATUS.CFG_ERR s (s.writeChCal n v) :=
  .ite .refuse (.putRwi (Fld.off_mod rfl n) (by simp))

theorem writeCtlCfg_words (s : State) (v : Nat) : WordsKept [ADC_CTL_CFG.NAVG.base] ADC_STATUS.CFG_ERR s (s.writeCtlCfg v) :=
  .ite .refuse (.putRw rfl (by simp))

/-- The running value of the CRC unit stands in CRC_SEED and is shown in CRC_RESULT (R446, R456). -/
theorem setCrc_words {ws : List Nat} {err : Fld} (hseed : CRC_SEED.SEED.base ∈ ws) (hres : CRC_RESULT.RESULT.base ∈ ws)
    (s : State) (c : Nat) : WordsKept ws err s (s.setCrc c) :=
  (WordsKept.wr (by decide) hseed).trans (.wr (by decide) hres)

theorem writeCrcCfg_words (s : State) (v : Nat) (err : Fld) :
    WordsKept [CRC_CFG.POLY.base, CRC_SEED.SEED.base, CRC_RESULT.RESULT.base] err s (s.writeCrcCfg v) :=
  (WordsKept.wr (by decide) (by decide)).trans (setCrc_words (by decide) (by decide) _ _)

theorem writeSec_words (s : State) (v : Nat) (err : Fld) :
    WordsKept [SYNC_SEC.NEXT.base, SYNC_PPS_STATUS.SEC_VALID.base] err s (s.writeSec v) :=
  (WordsKept.wr (by decide) (by decide)).trans (.wr (by decide) (by decide))

theorem writeSeed_words (s : State) (p v : Nat) :
    WordsKept [CLK_PLL_SEED_p.SEED.off p] CLK_PLL_STATUS.CFG_ERR s (s.writeSeed p v) := by
  have hen : CLK_PLL_SEED_p.DITHER_EN.off p ∈ [CLK_PLL_SEED_p.SEED.off p] := List.mem_singleton.mpr rfl
  have hseed : CLK_PLL_SEED_p.SEED.off p ∈ [CLK_PLL_SEED_p.SEED.off p] := List.mem_singleton.mpr rfl
  exact .ite .refuse (((WordsKept.wri (by decide) hen).trans (.wri (by decide) hseed)).trans (.of_regs rfl))

/-- Either half of the root is a register of its own, and the cache that a write empties is not in the register file. -/
theorem writeWalkRoot_words (s : State) (hi : Bool) (v : Nat) (err : Fld) :
    WordsKept [if hi then HOST_WALK_ROOT_HI.ADDR_HI.base else HOST_WALK_ROOT_LO.ADDR.base] err s (s.writeWalkRoot hi v) := by
  cases hi with
  | false =>
    have hput : WordsKept [HOST_WALK_ROOT_LO.ADDR.base] err s (s.putRw HOST_WALK_ROOT_LO.ADDR.base v) :=
      .putRw rfl (by simp)
    exact hput.trans (.of_regs rfl)
  | true =>
    have hput : WordsKept [HOST_WALK_ROOT_HI.ADDR_HI.base] err s (s.putRw HOST_WALK_ROOT_HI.ADDR_HI.base v) :=
      .putRw rfl (by simp)
    exact hput.trans (.of_regs rfl)

theorem WordsKept.of_next {ws : List Nat} {err : Fld} {s t u : State}
    (e : (.next u : Host.Outcome State Fault Refusal) = .next t) (h : WordsKept ws err s u) : WordsKept ws err s t :=
  Host.Outcome.next.inj e ▸ h

/-- A plain configuration write changes the words `configWords` names and the field `configErr` names, and no other. -/
theorem configWrite_words (c : Instr) (s t : State) (hc : configWords c ≠ []) (e : exec c s = .next t) :
    WordsKept (configWords c) (configErr c) s t := by
  cases c with
  | clkShedCfgWrite v => exact .of_next e (.live (writeShedCfg_words s v))
  | ctlModeWrite v => exact .of_next e (.live (writeCtlMode_words s v))
  | ctlManualWrite v => exact .of_next e (.live (.putRw rfl (List.mem_singleton.mpr rfl)))
  | syncPllCfgWrite v => exact .of_next e (.live (writePllCfg_words s v))
  | portPvCfgWrite c v => exact .of_next e (.live (writePvCfg_words s c v))
  | adcChCfgWrite n v => exact .of_next e (.live (writeChCfg_words s n v))
  | adcChCalWrite n v => exact .of_next e (.live (writeChCal_words s n v))
  | adcCtlCfgWrite v => exact .of_next e (.live (writeCtlCfg_words s v))
  | crcCfgWrite v => exact .of_next e (.live (writeCrcCfg_words s v _))
  | crcDataWrite n v => exact .of_next e (.live (setCrc_words (.head _) (.tail _ (.head _)) s _))
  | crcSeedWrite v => exact .of_next e (.live (setCrc_words (.head _) (.tail _ (.head _)) s _))
  | syncSecWrite v => exact .of_next e (.live (writeSec_words s v _))
  | clkPllSeedWrite p v => exact .of_next e (.live (writeSeed_words s p v))
  | hostWalkRootWrite hi v => exact .of_next e (.live (.ite .refl (writeWalkRoot_words s hi v _)))
  | _ => exact absurd rfl hc

/-- No plain configuration write touches a ring, a cell's record, the metering, the journal or the outside, and only the
walker's root touches the host's side. -/
theorem configWrite_mask (c : Instr) (hc : configWords c ≠ []) :
    (∀ b ∈ [48, 49, 55, 56, 60], (execMask c).testBit b = false) ∧
    ((execMask c).testBit 44 = false ∨ ∃ hi v, c = .hostWalkRootWrite hi v) := by
  cases c with
  | hostWalkRootWrite hi v => exact ⟨by simp only [execMask]; decide, .inr ⟨hi, v, rfl⟩⟩
  | clkShedCfgWrite | ctlModeWrite | ctlManualWrite | syncPllCfgWrite | portPvCfgWrite | adcChCfgWrite | adcChCalWrite
  | adcCtlCfgWrite | crcCfgWrite | crcDataWrite | crcSeedWrite | syncSecWrite | clkPllSeedWrite =>
    simp only [execMask]; exact ⟨by decide, .inl (by decide)⟩
  | _ => exact absurd rfl hc

/-- A write of a register's word changes nothing beside the register file. -/
theorem putRw_only (s : State) (off v : Nat) : Only 0x1FFFFFFFFFF s (s.putRw off v) := by
  unfold State.putRw
  split
  · exact Only.putFieldsAll (Only.refl _ s) _ _ _ rfl
  · exact Only.refl _ s

/-- A write of the walker's root empties the cache and takes no sequence number (R516). -/
theorem hostWalkRootWrite_seqNo {s t : State} {hi : Bool} {v : Nat} (e : exec (.hostWalkRootWrite hi v) s = .next t) :
    t.hst.seqNo = s.hst.seqNo := by
  obtain rfl : s.byBar (fun s => s.writeWalkRoot hi v) = t := Host.Outcome.next.inj e
  have hput : ∀ off, (s.putRw off v).hst.seqNo = s.hst.seqNo := fun off => by rw [(putRw_only s off v).hst rfl]
  have hroot : (s.writeWalkRoot hi v).hst.seqNo = s.hst.seqNo := by
    cases hi with
    | false => exact hput HOST_WALK_ROOT_LO.ADDR.base
    | true => exact hput HOST_WALK_ROOT_HI.ADDR_HI.base
  unfold State.byBar State.live
  split
  · dsimp only
    split
    · rfl
    · exact hroot
  · rfl

/-- Settles O47: the words by the write's own lemma, the other parts by the mask of `exec_only`. -/
theorem configurationWriteFrames : Obligations.ConfigurationWriteFrames := by
  unfold Obligations.ConfigurationWriteFrames
  intro c s t hc e
  have only : Only (execMask c) s t := by simpa only [e, OnlyO] using exec_only c s
  obtain ⟨untouched, hhst⟩ := configWrite_mask c hc
  refine ⟨configWrite_words c s t hc e, only.out (untouched _ (by decide)), only.cells (untouched _ (by decide)),
    only.rings (untouched _ (by decide)), only.mtr (untouched _ (by decide)), only.jr (untouched _ (by decide)), ?_⟩
  rcases hhst with hhst | ⟨hi, v, rfl⟩
  · rw [only.hst hhst]
  · exact hostWalkRootWrite_seqNo e

end Sys2Proof.Machine
end

section
/-! PROOFS. A write and a read of any register, per access code (00_scope.md R14, R15; 19_register_map.md R695 to R697): O4. -/
namespace Sys2Proof.Machine
open Reg

/-! ### What moving the time leaves for an access -/

theorem moveTo_regs (s : State) (e : Nat) : (s.moveTo e).regs = s.regs := (moveTo_sim s e).2

@[simp] theorem rd_moveTo (s : State) (e : Nat) (f : Fld) : (s.moveTo e).rd f = s.rd f := rdi_of_regs (moveTo_regs s e) f 0

theorem admits_moveTo (s : State) (e : Nat) (ag : Agent) : (s.moveTo e).admits ag = s.admits ag := by
  cases ag with
  | host => simp [State.admits]
  | firmware => rfl
  | debugger => simp [State.admits, State.debugOpen, State.running]

theorem absentReg_moveTo (s : State) (e : Nat) (r : RegRow) (i : Nat) : (s.moveTo e).absentReg r i = s.absentReg r i := by
  simp [State.absentReg, State.small]

theorem word_of_regs {s t : State} (h : t.regs = s.regs) (off : Nat) : t.word off = s.word off := by
  have hfields : ∀ (i : Nat) (l : List FieldRow), t.fieldsWord i l = s.fieldsWord i l := by
    intro i l
    induction l with
    | nil => rfl
    | cons x l ih => simp only [State.fieldsWord, ih, rdi_of_regs h]
  simp only [State.word, hfields, h]

theorem readWord_moveTo (s : State) (e : Nat) (ag : Agent) (off : Nat) : (s.moveTo e).readWord ag off = s.readWord ag off := by
  have htm := (moveTo_sim s e).1
  have hE : (s.moveTo e).tm.latE = s.tm.latE := by rw [htm]
  have hO : (s.moveTo e).tm.latO = s.tm.latO := by rw [htm]
  simp only [State.readWord, hE, hO, State.moveTo_mtr, word_of_regs (moveTo_regs s e)]

/-! ### A host write whose copies agree (R466, R467) -/

/-- Copies that agree give their value, and no member loses a vote. -/
theorem voted_agree (s : State) {vote : Int → Int → Int → Int} {x : Int} (hv : vote x x x = x) :
    s.voted vote (fun _ => x) = (s, x) := by
  unfold State.voted
  split
  · simp only [hv, if_true]; rfl
  · simp only [if_true]
  · rfl

theorem majority3_self (n : Nat) : majority3 n n n = n := by
  unfold majority3
  simp only [Int.toNat_natCast]
  exact congrArg Nat.cast (by show ((n &&& n) ||| (n &&& n)) ||| (n &&& n) = n; simp)

theorem median3_self (x : Int) : median3 x x x = x := by simp [median3]

theorem unsg_sgn_of_lt {v : Nat} (h : v < 2 ^ 32) : unsg 32 (sgn 32 v) = v := by
  unfold unsg sgn
  split <;> omega

theorem votedWrite_agree (s : State) {w : WriteCopy} (hw : w.value < 2 ^ 32) : s.votedWrite w [] = (s, w) := by
  have hcopy : ∀ m, copyOf ([] : List (Member × WriteCopy)) w m = w := fun _ => rfl
  simp only [State.votedWrite, hcopy, voted_agree _ (majority3_self _), voted_agree _ (median3_self _), Int.toNat_natCast,
    unsg_sgn_of_lt hw]

/-! ### REGISTER_WRITE with agreeing copies -/

/-- A word is cut to 32 bits where it is taken. -/
theorem regWrite_mod (s : State) (ag : Agent) (off be v : Nat) : s.regWrite ag off be (v % 2 ^ 32) = s.regWrite ag off be v := by
  simp only [State.regWrite, Nat.mod_mod]

/-- A host in D3hot reaches no register, and no agent a misaligned one (R496). -/
theorem regWrite_unreached {s : State} {ag : Agent} {off : Nat} (h : (s.hst.d3 = true ∧ ag = .host) ∨ off % 4 ≠ 0)
    (be v : Nat) :
    s.regWrite ag off be v = s := by
  unfold State.regWrite
  exact if_pos (h.imp_right .inl)

theorem exec_registerWrite {s : State} (hon : s.pwr.mainOn = true) (ag : Agent) (off be v e : Nat) :
    exec (.registerWrite ag off be ⟨v, []⟩ e) s =
      .next (if s.admits ag then (s.moveTo e).regWrite ag off be v else s.moveTo e) := by
  show execRegisterWrite ag off be ⟨v, []⟩ e s = _
  unfold execRegisterWrite
  rw [s.live_on hon]
  cases ag with
  | host =>
    have hvote : (s.moveTo e).votedWrite ⟨off, be, v % 2 ^ 32⟩ [] = (s.moveTo e, ⟨off, be, v % 2 ^ 32⟩) :=
      votedWrite_agree _ (Nat.mod_lt v (Nat.two_pow_pos 32))
    dsimp only
    rw [hvote]
    dsimp only
    rw [regWrite_mod]
    cases hd : s.hst.d3 with
    | true => rw [regWrite_unreached (.inl ⟨by simpa using hd, rfl⟩), ite_self]
    | false => rw [if_pos (by simp [State.admits, hd])]
  | firmware => simp only [admits_moveTo]
  | debugger => simp only [admits_moveTo]

/-- An admitted agent's aligned access in the register space reaches it. -/
theorem reached_of_admits {s : State} {ag : Agent} {off : Nat} (hag : s.admits ag = true) (h4 : off % 4 = 0)
    (hlt : off < 0x290000) :
    ¬((s.hst.d3 = true ∧ ag = .host) ∨ off % 4 ≠ 0 ∨ 0x290000 ≤ off) := by
  rintro (⟨hd, rfl⟩ | h | h)
  · simp [State.admits, hd] at hag
  · exact h h4
  · omega

/-- Where the register map has a register and the agent reaches it, its absence and the byte enables decide, then its block. -/
theorem regWrite_at {s : State} {ag : Agent} {off : Nat} {r : RegRow} (hag : s.admits ag = true) (h4 : off % 4 = 0)
    (hr : regAt off = some r) (habs : s.absentReg r ((off - r.base) / 4) = false) (be v : Nat) :
    s.regWrite ag off be v =
      if be % 16 ≠ 15 then
        ((if r.base = CRC_DATA.DATA.base then s.crcBytes (be % 16) (v % 2 ^ 32) else none).getD
          (s.refusePartial off (v % 2 ^ 32) ag))
      else if off < 0xA0000 then s.writeLow r ((off - r.base) / 4) off (v % 2 ^ 32) ag
      else if off < 0x130000 then s.writeMid r ((off - r.base) / 4) off (v % 2 ^ 32) ag
      else if off < 0x200000 then s.writeHigh r ((off - r.base) / 4) off (v % 2 ^ 32) ag
      else s.writeTop r ((off - r.base) / 4) off (v % 2 ^ 32) ag := by
  have hblock : off / 65536 < 41 := (Only.regAt_ok hr).2.2
  unfold State.regWrite
  dsimp only
  rw [if_neg (reached_of_admits hag h4 (by omega)), hr]
  dsimp only
  rw [habs, if_neg Bool.false_ne_true]
  split
  · cases (if r.base = CRC_DATA.DATA.base then s.crcBytes (be % 16) (v % 2 ^ 32) else none) with
    | none => rfl
    | some _ => rfl
  · rfl

/-- An offset with no register, below the active copies, refuses the write with a record (R696). -/
theorem regWrite_unassigned {s : State} {ag : Agent} {off : Nat} (hag : s.admits ag = true) (h4 : off % 4 = 0)
    (hlt : off < 0x290000) (hlow : off % 0x10000 < 0x8000) (hr : regAt off = none) (be v : Nat) :
    s.regWrite ag off be v = s.configRefused off (v % 2 ^ 32) ag := by
  unfold State.regWrite
  dsimp only
  rw [if_neg (reached_of_admits hag h4 hlt), hr]
  dsimp only
  rw [decide_eq_false (by omega), Bool.false_and, if_neg Bool.false_ne_true]

/-! ### Refusals -/

/-- A register entry outside the rings' block lies where no record reaches. -/
theorem fr_record {f : Fld} (hb : f.base / 0x10000 < 41) (h9 : f.base / 0x10000 ≠ 9)
    (hlow : f.base % 0x10000 + 4 * f.count ≤ 0x8000) (hlo : f.lo < 32) : fr 0x1100100000000200 f = true := by
  have hbit : Nat.testBit 0x1100100000000200 (f.base / 65536) = false := by
    generalize f.base / 0x10000 = b at hb h9
    revert h9; revert b; decide
  simp [fr, hb, hbit, hlow, hlo]

/-- The CFG_ERR fields have one bit and an entry of their own, outside the rings' block. -/
theorem errField_spec {off : Nat} {x : Fld} (h : errField off = some x) :
    x.w = 1 ∧ 0 < x.count ∧ fr 0x1100100000000200 x = true := by
  unfold errField at h
  by_cases hka : off < KA_CT_CFG.EN.base
  · simp only [hka, if_true] at h
    split at h <;> cases h <;> decide
  · simp only [hka, if_false] at h
    split at h <;> cases h <;> decide

/-- A refusal sets the CFG_ERR field. -/
theorem rd_refuse_self (s : State) {x : Fld} (hw : x.w = 1) (hc : 0 < x.count) : (s.refuse x).rd x = 1 := by
  unfold State.refuse
  rw [s.rd_wr_self _ hc, hw]
  rfl

/-- A refusal with a record: a sequence number is taken, the block's CFG_ERR is set where it has one, and no other field
outside the rings' block changes (R386, R695, R696). -/
structure RecordedRefusal (err : Option Fld) (s t : State) : Prop where
  seqNo : s.hst.seqNo < t.hst.seqNo
  cells : t.cells = s.cells
  law : t.law = s.law
  flag : ∀ x, err = some x → t.rd x = 1
  frame : ∀ f i, fr 0x1100100000000200 f = true → (∀ x, err = some x → apart x f = true) → t.rdi f i = s.rdi f i

theorem configRefused_recorded (s : State) (off v : Nat) (ag : Agent) : RecordedRefusal none s (s.configRefused off v ag) where
  seqNo := s.configRefused_seqNo off v ag
  cells := s.configRefused_cells off v ag
  law := s.configRefused_law off v ag
  flag := nofun
  frame f i hf _ := s.rdi_configRefused off v ag f i hf

theorem refusePartial_recorded (s : State) (off v : Nat) (ag : Agent) :
    RecordedRefusal (errField off) s (s.refusePartial off v ag) := by
  have hrec := configRefused_recorded s off v ag
  unfold State.refusePartial
  cases herr : errField off with
  | none => exact hrec
  | some x =>
    obtain ⟨hw, hc, -⟩ := errField_spec herr
    exact {
      seqNo := by simpa using hrec.seqNo
      cells := by simp
      law := by simp
      flag := by rintro _ ⟨⟩; exact rd_refuse_self _ hw hc
      frame := fun f i hf happ => (State.rdi_wri_apart _ 0 i 1 (happ x rfl)).trans (hrec.frame f i hf nofun) }

/-- A record's refusal after the time has moved. -/
theorem RecordedRefusal.of_moveTo {err : Option Fld} {s t : State} {e : Nat} (h : RecordedRefusal err (s.moveTo e) t) :
    RecordedRefusal err s t where
  seqNo := by simpa using h.seqNo
  cells := by simpa using h.cells
  law := by simpa using h.law
  flag := h.flag
  frame f i hf happ := (h.frame f i hf happ).trans (rdi_of_regs (moveTo_regs s e) f i)

/-! ### Lists of fields written (R14) -/

theorem rdi_putFields_apart (s : State) (i v : Nat) {l : List FieldRow} {g : Fld} (hl : ∀ x ∈ l, apart x.f g = true)
    (j : Nat) :
    (s.putFields i v l).rdi g j = s.rdi g j := by
  induction l generalizing s with
  | nil => rfl
  | cons r l ih =>
    rw [State.putFields, ih _ fun x hx => hl x (List.mem_cons_of_mem _ hx)]
    exact s.rdi_wri_apart i j _ (hl r List.mem_cons_self)

/-- Fields that lie apart take each its own bits of the word. -/
theorem rdi_putFields_mem (s : State) {i v : Nat} {l : List FieldRow} (hp : l.Pairwise (fun x y => apart y.f x.f = true))
    {x : FieldRow} (hx : x ∈ l) (hi : i < x.f.count) : (s.putFields i v l).rdi x.f i = bits v x.f.lo x.f.w := by
  induction hp generalizing s with
  | nil => cases hx
  | @cons r l hr _ ih =>
    rw [State.putFields]
    cases hx with
    | head => rw [rdi_putFields_apart _ _ _ hr, s.rdi_wri_self _ hi, bits_mod]
    | tail _ hx => exact ih _ hx

theorem rdi_clearOnes_apart (s : State) (i v : Nat) {l : List FieldRow} {g : Fld} (hl : ∀ x ∈ l, apart x.f g = true)
    (j : Nat) :
    (s.clearOnes i v l).rdi g j = s.rdi g j := by
  induction l generalizing s with
  | nil => rfl
  | cons r l ih =>
    rw [State.clearOnes, ih _ fun x hx => hl x (List.mem_cons_of_mem _ hx)]
    exact s.rdi_wri_apart i j _ (hl r List.mem_cons_self)

/-- Fields that lie apart lose each the ones that the word has in its place. -/
theorem rdi_clearOnes_mem (s : State) {i v : Nat} {l : List FieldRow}
    (hp : l.Pairwise (fun x y => apart y.f x.f = true ∧ apart x.f y.f = true))
    {x : FieldRow} (hx : x ∈ l) (hi : i < x.f.count) :
    (s.clearOnes i v l).rdi x.f i = (s.rdi x.f i - (s.rdi x.f i &&& bits v x.f.lo x.f.w)) % 2 ^ x.f.w := by
  induction hp generalizing s with
  | nil => cases hx
  | @cons r l hr _ ih =>
    rw [State.clearOnes]
    cases hx with
    | head => rw [rdi_clearOnes_apart _ _ _ fun y hy => (hr y hy).1, s.rdi_wri_self _ hi]
    | tail _ hx => rw [ih _ hx, s.rdi_wri_apart i i _ (hr x hx).2]

/-! ### A write of a register with no behaviour of its own -/

/-- A register of the map whose write does no more than its fields' access codes say: it is no shadow, has no behaviour
of its own, no rule beside the ranges, nothing that follows the write, and no place in the safety parameter set. -/
structure PlainRegister (r : RegRow) (off : Nat) : Prop where
  found : regAt off = some r := by decide
  aligned : off % 4 = 0 := by decide
  present : ∀ s : State, s.absentReg r ((off - r.base) / 4) = false := by exact fun s => Bool.and_false s.small
  dispatch : ∀ (s : State) (i v : Nat) (ag : Agent),
    (if off < 0xA0000 then s.writeLow r i off v ag else if off < 0x130000 then s.writeMid r i off v ag
      else if off < 0x200000 then s.writeHigh r i off v ag
      else s.writeTop r i off v ag) = s.setFieldsOf r off v ag := by intros; rfl
  shadow : isShadowed r.base = false := by decide
  rule : ∀ (s : State) (i v : Nat), s.valueRule r.base i v = true := by intros; rfl
  after : ∀ (s : State) (i was : Nat), s.afterWrite r.base i was = s := by intros; rfl
  safety : safetySet.contains off = false := by decide

/-- The fields of a register that a write by its value sets: RW, and RWS in COMMISSIONING (R14). -/
def RegRow.settable (r : RegRow) (com : Bool) : List FieldRow :=
  r.fields.filter (fun x => x.acc == .rw || (x.acc == .rws && com))

/-- The fields of a register that a 1 written by an agent clears; CHK_FAIL is the host's (R14, R351). -/
def RegRow.clearable (r : RegRow) (ag : Agent) : List FieldRow :=
  r.fields.filter (fun x => x.acc == .w1c && (ag == .host || x.f != ADC_STATUS.CHK_FAIL))

theorem setFieldsOf_plain {r : RegRow} {off : Nat} (h : PlainRegister r off) (s : State) (v : Nat) (ag : Agent) :
    s.setFieldsOf r off v ag =
      if (r.settable s.commissioning).all (fun x => x.lim.ok x.f.w (bits v x.f.lo x.f.w)) then
        let i := (off - r.base) / 4
        let t := (s.putFields i v (r.settable s.commissioning)).clearOnes i v (r.clearable ag)
        if s.commissioning then t else t.reportRws off v ag
      else s.refuseWrite off v ag := by
  unfold State.setFieldsOf
  simp only [h.shadow, h.rule, h.after, h.safety, Bool.false_and, Bool.or_true, Bool.not_true, Bool.false_or, Bool.and_false,
    Bool.false_eq_true, if_false, RegRow.settable, RegRow.clearable]
  split
  · next hout =>
    rw [Bool.not_eq_true'] at hout
    simp only [hout, Bool.false_eq_true, if_false]
  · next hin =>
    rw [Bool.not_eq_true', Bool.not_eq_false] at hin
    simp only [hin, if_true]

theorem exec_registerWrite_plain {r : RegRow} {off : Nat} (h : PlainRegister r off) {s : State} (hon : s.pwr.mainOn = true)
    {ag : Agent} (hag : s.admits ag = true) {v : Nat} (hv : v < 2 ^ 32) (e : Nat) :
    exec (.registerWrite ag off 15 ⟨v, []⟩ e) s = .next ((s.moveTo e).setFieldsOf r off v ag) := by
  rw [exec_registerWrite hon, if_pos hag, regWrite_at ((admits_moveTo s e ag).trans hag) h.aligned h.found (h.present _),
    if_neg (by decide), h.dispatch, Nat.mod_eq_of_lt hv]

/-- A register without RWS fields has none to report (R15). -/
theorem reportRws_none {r : RegRow} {off : Nat} (hr : regAt off = some r) (hrws : r.fields.all (fun x => x.acc != .rws) = true)
    (s : State) (v : Nat) (ag : Agent) : s.reportRws off v ag = s := by
  have hdiff : s.rwsDiffers off v = false := by
    unfold State.rwsDiffers
    rw [hr]
    simp only [List.all_eq_true, bne_iff_ne] at hrws
    simp only [List.any_eq_false, Bool.and_eq_true, beq_iff_eq, not_and]
    exact fun x hx hacc => absurd hacc (hrws x hx)
  unfold State.reportRws State.rwsIgnored
  rw [hdiff]
  cases errField off <;> rfl

/-- The report of an ignored RWS write leaves every field but the block's CFG_ERR (R15). -/
theorem rdi_reportRws {off : Nat} {x : Fld} (herr : errField off = some x) (s : State) (v : Nat) (ag : Agent) {g : Fld} (j : Nat)
    (hg : fr 0x1100100000000200 g = true) (happ : apart x g = true) : (s.reportRws off v ag).rdi g j = s.rdi g j := by
  unfold State.reportRws State.rwsIgnored
  rw [herr]
  dsimp only
  split
  · rw [State.rdi_configRefused _ _ _ _ _ _ hg]
    exact s.rdi_wri_apart 0 j 1 happ
  · rfl

/-- An ignored RWS write sets the block's CFG_ERR and takes a record (R15). -/
theorem reportRws_differs {off : Nat} {x : Fld} (herr : errField off = some x) {s : State} {v : Nat}
    (hdiff : s.rwsDiffers off v = true) (ag : Agent) :
    (s.reportRws off v ag).rd x = 1 ∧ s.hst.seqNo < (s.reportRws off v ag).hst.seqNo := by
  obtain ⟨hw, hc, hfr⟩ := errField_spec herr
  unfold State.reportRws State.rwsIgnored
  rw [herr]
  dsimp only
  rw [hdiff, if_pos rfl]
  refine ⟨?_, ?_⟩
  · rw [(State.configRefused_only _ _ _ _).rd _ hfr, rd_refuse_self _ hw hc]
  · simpa using (s.refuse x).configRefused_seqNo off v ag

/-! ### The registers that the statement names -/

/-- PWR_WAKE_EN's row of the register table (R664). -/
def pwrWakeEn : RegRow :=
  ⟨"PWR_WAKE_EN", 0x50004, 1, [⟨PWR_WAKE_EN.ALARM, .rw, [0], .none⟩, ⟨PWR_WAKE_EN.SAFETY, .ro, [1], .none⟩,
    ⟨PWR_WAKE_EN.RING, .rw, [1], .none⟩, ⟨PWR_WAKE_EN.DOORBELL, .rw, [1], .none⟩]⟩

/-- MTR_PORT_SEL's row (R574). -/
def mtrPortSel : RegRow := ⟨"MTR_PORT_SEL", 0x230010, 1, [⟨MTR_PORT_SEL.CELL, .rw, [0], .u 0 239⟩]⟩

/-- PWR_STATUS's row (R665). -/
def pwrStatus : RegRow :=
  ⟨"PWR_STATUS", 0x50008, 1, [⟨PWR_STATUS.OFF_READY, .ro, [0], .none⟩, ⟨PWR_STATUS.SLEEP, .ro, [0], .none⟩,
    ⟨PWR_STATUS.PF_WARN, .ro, [0], .none⟩, ⟨PWR_STATUS.RAIL_RESET, .w1c, [0], .none⟩,
    ⟨PWR_STATUS.CFG_ERR, .w1c, [0], .none⟩, ⟨PWR_STATUS.WAKE_SRC, .ro, [0], .none⟩]⟩

/-- PWR_PF_CFG's row (R666). -/
def pwrPfCfg : RegRow :=
  ⟨"PWR_PF_CFG", 0x5000C, 1, [⟨PWR_PF_CFG.LEVEL, .rws, [1000], .u 200 2400⟩, ⟨PWR_PF_CFG.HYS, .rws, [50], .u 10 255⟩,
    ⟨PWR_PF_CFG.FILT, .rws, [2], .u 1 15⟩]⟩

theorem pwrWakeEn_plain : PlainRegister pwrWakeEn 0x50004 := {}

theorem mtrPortSel_plain : PlainRegister mtrPortSel 0x230010 := {}

theorem pwrStatus_plain : PlainRegister pwrStatus 0x50008 := {}

theorem pwrPfCfg_plain : PlainRegister pwrPfCfg 0x5000C := {}

/-- A plain register without RWS fields: a value in range sets its RW fields and clears its W1C fields, another refuses. -/
theorem setFieldsOf_noRws {r : RegRow} {off : Nat} (h : PlainRegister r off) (hrws : r.fields.all (fun x => x.acc != .rws) = true)
    (s : State) (v : Nat) (ag : Agent) :
    s.setFieldsOf r off v ag =
      if (r.settable false).all (fun x => x.lim.ok x.f.w (bits v x.f.lo x.f.w)) then
        (s.putFields ((off - r.base) / 4) v (r.settable false)).clearOnes ((off - r.base) / 4) v (r.clearable ag)
      else s.refuseWrite off v ag := by
  have hset : r.settable s.commissioning = r.settable false := by
    refine List.filter_congr fun x hx => ?_
    have hx : (x.acc != .rws) = true := List.all_eq_true.mp hrws x hx
    rw [bne, Bool.not_eq_true'] at hx
    rw [hx, Bool.false_and, Bool.false_and]
  rw [setFieldsOf_plain h, hset]
  simp only [reportRws_none h.found hrws, ite_self]

theorem pwrWakeEn_write (s : State) (v : Nat) (ag : Agent) :
    (s.setFieldsOf pwrWakeEn 0x50004 v ag).rd PWR_WAKE_EN.ALARM = bits v 3 1 ∧
    (s.setFieldsOf pwrWakeEn 0x50004 v ag).rd PWR_WAKE_EN.RING = bits v 1 1 ∧
    (s.setFieldsOf pwrWakeEn 0x50004 v ag).rd PWR_WAKE_EN.DOORBELL = bits v 0 1 ∧
    (s.setFieldsOf pwrWakeEn 0x50004 v ag).rd PWR_WAKE_EN.SAFETY = s.rd PWR_WAKE_EN.SAFETY := by
  have hput : s.setFieldsOf pwrWakeEn 0x50004 v ag = s.putFields 0 v (pwrWakeEn.settable false) := by
    rw [setFieldsOf_noRws pwrWakeEn_plain (by decide)]
    rfl
  have hpair : (pwrWakeEn.settable false).Pairwise (fun x y => apart y.f x.f = true) := by decide
  rw [hput]
  exact ⟨rdi_putFields_mem s hpair (.head _) (by decide), rdi_putFields_mem s hpair (.tail _ (.head _)) (by decide),
    rdi_putFields_mem s hpair (.tail _ (.tail _ (.head _))) (by decide), rdi_putFields_apart s 0 v (by decide) 0⟩

theorem mtrPortSel_write (s : State) (v : Nat) (ag : Agent) :
    (bits v 0 8 ≤ 239 → (s.setFieldsOf mtrPortSel 0x230010 v ag).rd MTR_PORT_SEL.CELL = bits v 0 8) ∧
    (239 < bits v 0 8 → (s.setFieldsOf mtrPortSel 0x230010 v ag).rd MTR_PORT_SEL.CELL = s.rd MTR_PORT_SEL.CELL ∧
      (s.setFieldsOf mtrPortSel 0x230010 v ag).rd MTR_STATUS.CFG_ERR = 1) := by
  have hwrite : s.setFieldsOf mtrPortSel 0x230010 v ag =
      if bits v 0 8 ≤ 239 then s.wr MTR_PORT_SEL.CELL (bits v 0 8) else s.refuse MTR_STATUS.CFG_ERR := by
    rw [setFieldsOf_noRws mtrPortSel_plain (by decide)]
    have hrange : (mtrPortSel.settable false).all (fun x => x.lim.ok x.f.w (bits v x.f.lo x.f.w)) =
        decide (bits v 0 8 ≤ 239) := by
      show ((decide (0 ≤ bits v 0 8) && decide (bits v 0 8 ≤ 239)) && true) = _
      simp
    rw [hrange]
    simp only [decide_eq_true_eq]
    rfl
  rw [hwrite]
  refine ⟨fun hle => ?_, fun hgt => ?_⟩
  · rw [if_pos hle, s.rd_wr_self _ (by decide)]
    exact bits_mod v 0 8
  · rw [if_neg (by omega)]
    exact ⟨s.rd_wr_apart 1 (by decide), rd_refuse_self s rfl (by decide)⟩

theorem pwrStatus_write (s : State) (v : Nat) (ag : Agent) :
    (s.setFieldsOf pwrStatus 0x50008 v ag).rd PWR_STATUS.SLEEP = s.rd PWR_STATUS.SLEEP ∧
    (bits v 27 1 = 1 → s.rd PWR_STATUS.CFG_ERR < 2 → (s.setFieldsOf pwrStatus 0x50008 v ag).rd PWR_STATUS.CFG_ERR = 0) ∧
    (bits v 27 1 = 0 → s.rd PWR_STATUS.CFG_ERR < 2 →
      (s.setFieldsOf pwrStatus 0x50008 v ag).rd PWR_STATUS.CFG_ERR = s.rd PWR_STATUS.CFG_ERR) := by
  have hw1c : pwrStatus.clearable ag = pwrStatus.fields.filter (fun x => x.acc == .w1c) := by cases ag <;> rfl
  have hclear : s.setFieldsOf pwrStatus 0x50008 v ag = s.clearOnes 0 v (pwrStatus.clearable ag) := by
    rw [setFieldsOf_noRws pwrStatus_plain (by decide)]
    rfl
  rw [hclear, hw1c]
  have hcfg : (s.clearOnes 0 v (pwrStatus.fields.filter (fun x => x.acc == .w1c))).rd PWR_STATUS.CFG_ERR =
      (s.rd PWR_STATUS.CFG_ERR - (s.rd PWR_STATUS.CFG_ERR &&& bits v 27 1)) % 2 :=
    rdi_clearOnes_mem s (by decide) (.tail _ (.head _)) (by decide)
  refine ⟨rdi_clearOnes_apart s 0 v (by decide) 0, fun hv hlt => ?_, fun hv hlt => ?_⟩
  · rw [hcfg, hv, Nat.and_one_is_mod]
    omega
  · rw [hcfg, hv, Nat.and_zero]
    omega

theorem pwrPfCfg_write (s : State) (v : Nat) (ag : Agent) :
    (s.rd LC_STATE.STATE ≠ 2 → (s.setFieldsOf pwrPfCfg 0x5000C v ag).rd PWR_PF_CFG.LEVEL = s.rd PWR_PF_CFG.LEVEL ∧
      (bits v 20 12 ≠ s.rd PWR_PF_CFG.LEVEL → (s.setFieldsOf pwrPfCfg 0x5000C v ag).rd PWR_STATUS.CFG_ERR = 1 ∧
        s.hst.seqNo < (s.setFieldsOf pwrPfCfg 0x5000C v ag).hst.seqNo)) ∧
    (s.rd LC_STATE.STATE = 2 → 200 ≤ bits v 20 12 → bits v 20 12 ≤ 2400 → 10 ≤ bits v 12 8 → 1 ≤ bits v 8 4 →
      (s.setFieldsOf pwrPfCfg 0x5000C v ag).rd PWR_PF_CFG.LEVEL = bits v 20 12) := by
  have herr : errField 0x5000C = some PWR_STATUS.CFG_ERR := rfl
  rw [setFieldsOf_plain pwrPfCfg_plain]
  refine ⟨fun hlc => ?_, fun hlc hlo hhi hhys hfilt => ?_⟩
  · have hcom : s.commissioning = false := by simpa [State.commissioning] using hlc
    rw [hcom]
    show (s.reportRws 0x5000C v ag).rd _ = _ ∧
      (_ → (s.reportRws 0x5000C v ag).rd _ = 1 ∧ _ < (s.reportRws 0x5000C v ag).hst.seqNo)
    refine ⟨rdi_reportRws herr s v ag 0 (by decide) (by decide), fun hne => reportRws_differs herr ?_ ag⟩
    unfold State.rwsDiffers
    rw [pwrPfCfg_plain.found]
    refine List.any_eq_true.mpr ⟨_, .head _, ?_⟩
    show (true && bits v 20 12 != s.rd PWR_PF_CFG.LEVEL) = true
    simpa using hne
  · have hcom : s.commissioning = true := by simpa [State.commissioning] using hlc
    have hrange : (pwrPfCfg.settable true).all (fun x => x.lim.ok x.f.w (bits v x.f.lo x.f.w)) = true := by
      have h8 := bits_lt v 12 8
      have h4 := bits_lt v 8 4
      show (decide (200 ≤ bits v 20 12) && decide (bits v 20 12 ≤ 2400) &&
        (decide (10 ≤ bits v 12 8) && decide (bits v 12 8 ≤ 255) &&
          (decide (1 ≤ bits v 8 4) && decide (bits v 8 4 ≤ 15) && true))) = true
      simp only [Bool.and_eq_true, decide_eq_true_eq, and_true]
      omega
    rw [hcom, hrange]
    exact rdi_putFields_mem s (l := pwrPfCfg.settable true) (by decide) (.head _) (by decide)

/-! ### Reads (R14, R697) -/

/-- The state whose word a read of a device register returns: the status of a queue, a comparator and a motor channel is of
the instant of the read (R382, R390, R588). -/
def State.lookedAt (s : State) (off : Nat) : State :=
  if off / 0x10000 = ADC_Q_STATUS_q.STATE.base / 0x10000 then s.cmpLook.qRunAll
  else if off / 0x10000 = CMP_STATUS.LIVE.base / 0x10000 then s.cmpLook
  else if off / 0x10000 = AUX_STATUS_m.HOLD.base / 0x10000 then s.auxHolds else s

/-- Without differing samples a read returns the value (R466). -/
theorem give_agree (s : State) (ag : Agent) (off v : Nat) : s.give ag ⟨off, []⟩ v = s.emit (.readData ag off v) := by
  unfold State.give
  exact if_neg (fun h => h.2 rfl)

theorem clearRc_out (s : State) (i : Nat) (l : List FieldRow) : (s.clearRc i l).out = s.out :=
  (Only.clearRc (Only.refl 0x1ffffffffff s) i l rfl).out rfl

theorem rdi_wri_zero (s : State) {f : Fld} {i : Nat} (g : Fld) (j : Nat) (h : s.rdi f i = 0) : (s.wri g j 0).rdi f i = 0 := by
  unfold State.wri
  split
  · unfold State.rdi at h ⊢
    split
    · next hi =>
      rw [if_pos hi] at h
      by_cases hk : g.key j = f.key i
      · rw [hk, tget_tput_self, Nat.zero_mod]
      · rw [tget_tput_ne _ _ _ hk, h]
    · rfl
  · exact h

theorem rdi_clearRc_zero (s : State) {f : Fld} {i : Nat} (j : Nat) (l : List FieldRow) (h : s.rdi f i = 0) :
    (s.clearRc j l).rdi f i = 0 := by
  induction l generalizing s with
  | nil => exact h
  | cons r l ih =>
    rw [State.clearRc]
    split
    · exact ih _ (rdi_wri_zero s r.f j h)
    · exact ih _ h

theorem rdi_wri_zero_self (s : State) (f : Fld) (i : Nat) : (s.wri f i 0).rdi f i = 0 := by
  by_cases hi : i < f.count
  · rw [s.rdi_wri_self 0 hi, Nat.zero_mod]
  · unfold State.rdi; rw [if_neg hi]

/-- After the read every RC field of the register reads 0 (R14). -/
theorem rdi_clearRc_rc (s : State) (i : Nat) {l : List FieldRow} {x : FieldRow} (hx : x ∈ l) (hacc : x.acc = .rc) :
    (s.clearRc i l).rdi x.f i = 0 := by
  induction l generalizing s with
  | nil => cases hx
  | cons r l ih =>
    rw [State.clearRc]
    cases hx with
    | head =>
      rw [hacc]
      exact rdi_clearRc_zero _ i l (rdi_wri_zero_self s x.f i)
    | tail _ hx => exact ih _ hx

/-- A read of an admitted agent at a register: the three latching registers run their own reads, every other returns its word
and clears its RC fields. -/
theorem exec_rcFieldRead_at {s : State} (hon : s.pwr.mainOn = true) {ag : Agent} (hag : s.admits ag = true) {off : Nat}
    (h4 : off % 4 = 0) {r : RegRow} (hr : regAt off = some r) (habs : s.absentReg r ((off - r.base) / 4) = false) (e : Nat) :
    exec (.rcFieldRead ag ⟨off, []⟩ e) s = .next (
      if off = CLK_ELAPSED_LO.E_LO.base then (s.moveTo e).elapsedRead ag
      else if off = CLK_ALIGN_OFS_LO.O_LO.base then (s.moveTo e).alignRead ag
      else if off = MTR_PORT_DATA_n.W.base then (s.moveTo e).portRead ag
      else ((((s.moveTo e).lookedAt off).emit (.readData ag off (((s.moveTo e).lookedAt off).readWord ag off))).clearRc
        ((off - r.base) / 4) r.fields)) := by
  have hblock : off / 65536 < 41 := (Only.regAt_ok hr).2.2
  show execRcFieldRead ag ⟨off, []⟩ e s = _
  unfold execRcFieldRead
  rw [s.live_on hon]
  dsimp only
  rw [admits_moveTo, hag, if_neg (by decide), if_neg (by omega), if_neg (by omega), hr]
  dsimp only
  rw [absentReg_moveTo, habs, if_neg Bool.false_ne_true]
  simp only [give_agree, State.lookedAt]

/-- What a read that does not reach a register does: nothing, but that a misaligned one by firmware traps (R459, R496). -/
theorem exec_rcFieldRead_unreached {s : State} (hon : s.pwr.mainOn = true) {ag : Agent} {x : ReadIn}
    (h : s.admits ag = false ∨ x.off % 4 ≠ 0) (e : Nat) :
    exec (.rcFieldRead ag x e) s =
      .next (if s.admits ag = true ∧ ag = .firmware then (s.moveTo e).badAccess else s.moveTo e) := by
  show execRcFieldRead ag x e s = _
  unfold execRcFieldRead
  rw [s.live_on hon]
  dsimp only
  rw [admits_moveTo]
  cases hag : s.admits ag with
  | false => simp
  | true =>
    have h4 : x.off % 4 ≠ 0 := h.resolve_left (by simp [hag])
    simp [h4]

/-- The blocks of the queues, of the comparators and of the motor channels are three blocks. -/
theorem lookedAt_queue (s : State) {off : Nat} (h : off / 0x10000 = ADC_Q_STATUS_q.STATE.base / 0x10000) :
    s.lookedAt off = s.cmpLook.qRunAll := if_pos h

theorem lookedAt_comparator (s : State) {off : Nat} (h : off / 0x10000 = CMP_STATUS.LIVE.base / 0x10000) :
    s.lookedAt off = s.cmpLook := by
  unfold State.lookedAt
  rw [h, if_neg (by decide), if_pos rfl]

theorem lookedAt_motor (s : State) {off : Nat} (h : off / 0x10000 = AUX_STATUS_m.HOLD.base / 0x10000) :
    s.lookedAt off = s.auxHolds := by
  unfold State.lookedAt
  rw [h, if_neg (by decide), if_neg (by decide), if_pos rfl]

theorem lookedAt_other (s : State) {off : Nat} (hq : off / 0x10000 ≠ ADC_Q_STATUS_q.STATE.base / 0x10000)
    (hc : off / 0x10000 ≠ CMP_STATUS.LIVE.base / 0x10000) (hm : off / 0x10000 ≠ AUX_STATUS_m.HOLD.base / 0x10000) :
    s.lookedAt off = s := by
  unfold State.lookedAt
  rw [if_neg hq, if_neg hc, if_neg hm]

/-- Settles O4: a write goes through `exec_registerWrite` to the refusal or to the register's own row, a read through
`exec_rcFieldRead_at`. -/
theorem registerWritesAndReads : Obligations.RegisterWritesAndReads := by
  unfold Obligations.RegisterWritesAndReads
  refine ⟨fun s ag off be v e hon hag hlt h4 => ?_, fun s ag off be v e sk hon => ?_, fun s ag v e hon hag hv => ?_,
    fun s ag off e r hon hag h4 hr habs => ?_⟩
  · have hag' : (s.moveTo e).admits ag = true := (admits_moveTo s e ag).trans hag
    have hexec : exec (.registerWrite ag off be ⟨v, []⟩ e) s = .next ((s.moveTo e).regWrite ag off be v) := by
      rw [exec_registerWrite hon, if_pos hag]
    refine ⟨fun hlow hr => ⟨_, hexec, ?_⟩, fun r hr hcrc hbe habs => ⟨_, hexec, ?_⟩⟩
    · rw [regWrite_unassigned hag' h4 hlt hlow hr]
      have hrec := (configRefused_recorded (s.moveTo e) off (v % 2 ^ 32) ag).of_moveTo
      exact ⟨hrec.seqNo, hrec.cells, hrec.law, fun f i hb h9 hf hlo => hrec.frame f i (fr_record hb h9 hf hlo) nofun⟩
    · rw [regWrite_at hag' h4 hr ((absentReg_moveTo ..).trans habs), if_pos hbe, if_neg hcrc, Option.getD_none]
      have hrec := (refusePartial_recorded (s.moveTo e) off (v % 2 ^ 32) ag).of_moveTo
      exact ⟨hrec.seqNo, hrec.cells, hrec.law, hrec.flag, fun f i hb h9 hf hlo => hrec.frame f i (fr_record hb h9 hf hlo)⟩
  · refine ⟨fun h => ?_, fun h => ?_, fun h4 himg => ?_⟩
    · rw [exec_registerWrite hon]
      split
      · next hag => rw [regWrite_unreached (.inr (h.resolve_left (by simp [hag])))]
      · rfl
    · rw [exec_rcFieldRead_unreached hon (h.imp_right And.left), if_neg]
      rintro ⟨hag, hfw⟩
      exact h.elim (by simp [hag]) fun hmis => hmis.2 hfw
    · rw [exec_rcFieldRead_unreached hon (.inr h4), if_pos ⟨rfl, rfl⟩]
      unfold State.badAccess
      rw [if_pos (by simpa using himg)]
  · have hwake := pwrWakeEn_write (s.moveTo e) v ag
    have hsel := mtrPortSel_write (s.moveTo e) v ag
    have hstatus := pwrStatus_write (s.moveTo e) v ag
    have hpf := pwrPfCfg_write (s.moveTo e) v ag
    simp only [rd_moveTo, State.moveTo_hst] at hwake hsel hstatus hpf
    exact ⟨⟨_, exec_registerWrite_plain pwrWakeEn_plain hon hag hv e, hwake⟩,
      ⟨_, exec_registerWrite_plain mtrPortSel_plain hon hag hv e, hsel⟩,
      ⟨_, exec_registerWrite_plain pwrStatus_plain hon hag hv e, hstatus⟩,
      ⟨_, exec_registerWrite_plain pwrPfCfg_plain hon hag hv e, hpf⟩⟩
  · have hexec := exec_rcFieldRead_at hon hag h4 hr habs e
    have hon' : (s.moveTo e).pwr.mainOn = true := by simpa using hon
    refine ⟨fun h => ?_, fun h => ?_, fun h => ?_, fun hE hO hM => ?_⟩
    · rw [hexec, if_pos h]
      exact congrArg Host.Outcome.next (State.live_on (g := (·.elapsedRead ag)) _ hon').symm
    · rw [hexec, if_neg (by rw [h]; decide), if_pos h]
      exact congrArg Host.Outcome.next (State.live_on (g := (·.alignRead ag)) _ hon').symm
    · rw [hexec, if_neg (by rw [h]; decide), if_neg (by rw [h]; decide), if_pos h]
      exact congrArg Host.Outcome.next (State.live_on (g := (·.portRead ag)) _ hon').symm
    · rw [if_neg hE, if_neg hO, if_neg hM] at hexec
      refine ⟨_, hexec, fun hq hc hm => ?_, fun hq => ?_, fun hc => ?_, fun hm => ?_,
        fun x hx hacc => rdi_clearRc_rc _ _ hx hacc⟩
      · rw [clearRc_out, lookedAt_other _ hq hc hm, readWord_moveTo]
        simp [State.emit]
      · rw [clearRc_out, lookedAt_queue _ hq]; rfl
      · rw [clearRc_out, lookedAt_comparator _ hc]; rfl
      · rw [clearRc_out, lookedAt_motor _ hm]; rfl

end Sys2Proof.Machine
end

section
/-! PROOFS. Writes of the tick configuration and of LINK_CFG (01_architecture_and_tick.md R26, R30, R31, R40, R44;
08_onhorn_link.md R297): O41 and O2. -/
namespace Sys2Proof.Machine
open Reg

/-! ### A write of a register's word takes its RW and RWS fields -/

/-- The fields of a register that a write of its word takes (R14). -/
def RegRow.writable (r : RegRow) : List FieldRow := r.fields.filter (fun x => x.acc == .rw || x.acc == .rws)

theorem putRw_at {off : Nat} {r : RegRow} (hr : regAt off = some r) (s : State) (v : Nat) :
    s.putRw off v = s.putFields ((off - r.base) / 4) v r.writable := by
  unfold State.putRw
  rw [hr]
  rfl

theorem inRange_at {off : Nat} {r : RegRow} (hr : regAt off = some r) (v : Nat) :
    inRange off v = r.fields.all (fun x => x.lim.ok x.f.w (bits v x.f.lo x.f.w)) := by
  unfold inRange
  rw [hr]

@[simp] theorem putRw_tm (s : State) (off v : Nat) : (s.putRw off v).tm = s.tm := (putRw_only s off v).tm rfl

@[simp] theorem putRw_cells (s : State) (off v : Nat) : (s.putRw off v).cells = s.cells := (putRw_only s off v).cells rfl

/-- CLK_TICK_CFG's row of the register table (R26, R31). -/
def clkTickCfg : RegRow :=
  ⟨"CLK_TICK_CFG", 0x30000, 1, [⟨CLK_TICK_CFG.OVERRUN_LIMIT, .rw, [3], .u 1 15⟩, ⟨CLK_TICK_CFG.PERIOD, .rw, [20], .u 10 100⟩]⟩

/-- CLK_SHED_CFG's row (R44). -/
def clkShedCfg : RegRow :=
  ⟨"CLK_SHED_CFG", 0x30054, 1, [⟨CLK_SHED_CFG.MAX_LEVEL, .rw, [4], .u 0 4⟩, ⟨CLK_SHED_CFG.HEADROOM, .rw, [90], .u 50 100⟩,
    ⟨CLK_SHED_CFG.THERM_EN, .rw, [1], .none⟩, ⟨CLK_SHED_CFG.POWER_EN, .rw, [1], .none⟩,
    ⟨CLK_SHED_CFG.HEADROOM_EN, .rw, [1], .none⟩]⟩

/-- LINK_CFG's row (R297). -/
def linkCfg : RegRow :=
  ⟨"LINK_CFG", 0xC0000, 1, [⟨LINK_CFG.STARVE_TICKS, .rw, [5], .u 2 31⟩, ⟨LINK_CFG.LOST_TICKS, .rw, [2], .u 2 15⟩,
    ⟨LINK_CFG.LOOP_DOWN, .rw, [2], .u 2 15⟩]⟩

theorem clkTickCfg_found : regAt CLK_TICK_CFG.PERIOD.base = some clkTickCfg := by decide

theorem clkShedCfg_found : regAt CLK_SHED_CFG.MAX_LEVEL.base = some clkShedCfg := by decide

theorem linkCfg_found : regAt LINK_CFG.STARVE_TICKS.base = some linkCfg := by decide

/-- A write of CLK_TICK_CFG gives its two fields their bits of the word. -/
theorem putRw_tickCfg (s : State) (v : Nat) :
    (s.putRw CLK_TICK_CFG.PERIOD.base v).rd CLK_TICK_CFG.OVERRUN_LIMIT = bits v 20 4 ∧
    (s.putRw CLK_TICK_CFG.PERIOD.base v).rd CLK_TICK_CFG.PERIOD = bits v 0 7 ∧
    ∀ g j, apart CLK_TICK_CFG.OVERRUN_LIMIT g = true → apart CLK_TICK_CFG.PERIOD g = true →
      (s.putRw CLK_TICK_CFG.PERIOD.base v).rdi g j = s.rdi g j := by
  have hpair : clkTickCfg.writable.Pairwise (fun x y => apart y.f x.f = true) := by decide
  rw [putRw_at clkTickCfg_found]
  refine ⟨rdi_putFields_mem s hpair (.head _) (by decide), rdi_putFields_mem s hpair (.tail _ (.head _)) (by decide),
    fun g j hlimit hperiod => rdi_putFields_apart s 0 v (fun x hx => ?_) j⟩
  have hfields : x.f ∈ [CLK_TICK_CFG.OVERRUN_LIMIT, CLK_TICK_CFG.PERIOD] := List.mem_map_of_mem (f := FieldRow.f) hx
  simp only [List.mem_cons, List.not_mem_nil, or_false] at hfields
  rcases hfields with h | h
  · rwa [h]
  · rwa [h]

/-! ### What follows an accepted write leaves the tick's and the link's configuration (R284, R353) -/

theorem rdi_foldFitAll (s : State) {g : Fld} (j : Nat) (hg : apart LINK_RING_STATUS_r.FOLD_FIT g = true) :
    s.foldFitAll.rdi g j = s.rdi g j :=
  foldl_keep (fun s => s.rdi g j) State.foldFit (fun s r => s.rdi_wri_apart r j _ hg) s.ringsOn s

@[simp] theorem foldFitAll_tm (s : State) : s.foldFitAll.tm = s.tm := (Only.foldFitAll (Only.refl 0x1000 s) rfl).tm rfl

theorem trimTriggers_only (s : State) : Only 0x14000000 s s.trimTriggers := Only.trimTriggers (Only.refl _ s) rfl

/-! ### CLK_TICK_CFG (R26, R40) -/

theorem exec_clkTickCfgWrite {s : State} (hon : s.pwr.mainOn = true) (v : Nat) :
    exec (.clkTickCfgWrite v) s = .next (s.writeTickCfg v) := congrArg Host.Outcome.next (s.live_on hon)

/-- A word whose OVERRUN_LIMIT is not below STARVE_TICKS is refused (R40). -/
theorem writeTickCfg_refused {s : State} {v : Nat} (h : s.rd LINK_CFG.STARVE_TICKS ≤ bits v 20 4) :
    s.writeTickCfg v = s.refuse CLK_TICK_STATUS.CFG_ERR := by
  unfold State.writeTickCfg
  exact if_pos (.inr (.inl h))

/-- A write of CLK_TICK_CFG is refused, or its OVERRUN_LIMIT is below STARVE_TICKS and the word is in the register; what
follows the write changes FOLD_FIT, PERIOD_PEND and the triggers alone (R26, R40, R284, R353). -/
theorem writeTickCfg_cases (s : State) (v : Nat) :
    s.writeTickCfg v = s.refuse CLK_TICK_STATUS.CFG_ERR ∨
    (bits v 20 4 < s.rd LINK_CFG.STARVE_TICKS ∧
      ∀ g, apart LINK_RING_STATUS_r.FOLD_FIT g = true → apart CLK_TICK_STATUS.PERIOD_PEND g = true → fr 0x14000000 g = true →
        (s.writeTickCfg v).rd g = (s.putRw CLK_TICK_CFG.PERIOD.base v).rd g) := by
  unfold State.writeTickCfg
  extract_lets limit half change u
  split
  · exact .inl rfl
  · next hok =>
    rw [not_or, not_or] at hok
    refine .inr ⟨Nat.lt_of_not_le hok.2.1, fun g hfold hpend htrim => ?_⟩
    change _ = u.rd g
    clear_value u
    split
    · rfl
    · split
      · rw [State.rd_def, rdi_foldFitAll _ 0 hfold]
        exact ((trimTriggers_only _).rdi g 0 htrim).trans (rdi_of_regs rfl g 0)
      · exact (State.rd_wr_apart _ _ hpend).trans (rdi_of_regs rfl g 0)

/-- A word in range whose OVERRUN_LIMIT is below STARVE_TICKS is in range for CLK_TICK_CFG. -/
theorem inRange_tickCfg {v : Nat} (hlo : 10 ≤ bits v 0 7) (hhi : bits v 0 7 ≤ 100) (hlimit : 1 ≤ bits v 20 4) :
    inRange CLK_TICK_CFG.PERIOD.base v = true := by
  have h4 := bits_lt v 20 4
  rw [inRange_at clkTickCfg_found]
  show (decide (1 ≤ bits v 20 4) && decide (bits v 20 4 ≤ 15) && (decide (10 ≤ bits v 0 7) && decide (bits v 0 7 ≤ 100) && true)) = true
  simp only [Bool.and_eq_true, decide_eq_true_eq, and_true]
  omega

/-- A word with the present PERIOD takes its bits and asks for no change (log entry 29, the model's choice). -/
theorem writeTickCfg_same {s : State} {v : Nat} (hrange : inRange CLK_TICK_CFG.PERIOD.base v = true)
    (hlimit : bits v 20 4 < s.rd LINK_CFG.STARVE_TICKS) (hsame : bits v 0 7 = s.rd CLK_TICK_CFG.PERIOD) :
    s.writeTickCfg v = s.putRw CLK_TICK_CFG.PERIOD.base v := by
  unfold State.writeTickCfg
  simp [hrange, Nat.not_le.mpr hlimit, hsame]

/-- A new period of a running tick, with every cell blocked and the last deadline 100 ns before its end, waits (R26, R30). -/
theorem writeTickCfg_waits {s : State} {v : Nat} (hrange : inRange CLK_TICK_CFG.PERIOD.base v = true)
    (hlimit : bits v 20 4 < s.rd LINK_CFG.STARVE_TICKS) (hrun : s.tm.run = true) (hnew : bits v 0 7 ≠ s.rd CLK_TICK_CFG.PERIOD)
    (hforce : bits v 0 7 ≠ s.tm.half) (hblocked : s.allBlocked = true)
    (hfits : s.lastFits (s.rdi CLK_TICK_DEADLINE_n.DEADLINE 5) (bits v 0 7) = true) :
    s.writeTickCfg v = ({ s.putRw CLK_TICK_CFG.PERIOD.base v with tm := { s.tm with newHalf := some (bits v 0 7) } }).wr
      CLK_TICK_STATUS.PERIOD_PEND 1 := by
  unfold State.writeTickCfg
  simp [hrange, Nat.not_le.mpr hlimit, hrun, hnew, hforce, hblocked, hfits, b2n]

/-! ### LINK_CFG (R40, R297) -/

theorem exec_linkCfgWrite {s : State} (hon : s.pwr.mainOn = true) (v : Nat) :
    exec (.linkCfgWrite v) s = .next (s.writeLinkCfg v) := congrArg Host.Outcome.next (s.live_on hon)

/-- STARVE_TICKS not above OVERRUN_LIMIT is refused, in both blocks' CFG_ERR (R40). -/
theorem writeLinkCfg_low {s : State} {v : Nat} (h : bits v 24 5 ≤ s.rd CLK_TICK_CFG.OVERRUN_LIMIT) :
    s.writeLinkCfg v = (s.refuse CLK_TICK_STATUS.CFG_ERR).refuse LINK_RING_STATUS_r.CFG_ERR := by
  unfold State.writeLinkCfg
  simp [h]

/-- STARVE_TICKS above OVERRUN_LIMIT: the word is taken where it is in range. -/
theorem writeLinkCfg_high {s : State} {v : Nat} (h : s.rd CLK_TICK_CFG.OVERRUN_LIMIT < bits v 24 5) :
    s.writeLinkCfg v =
      if inRange LINK_CFG.STARVE_TICKS.base v then s.putRw LINK_CFG.STARVE_TICKS.base v else s.refuse LINK_RING_STATUS_r.CFG_ERR := by
  unfold State.writeLinkCfg
  cases hr : inRange LINK_CFG.STARVE_TICKS.base v <;> simp [Nat.not_le.mpr h]

/-- A write of LINK_CFG gives its three fields their bits of the word. -/
theorem putRw_linkCfg (s : State) (v : Nat) :
    (s.putRw LINK_CFG.STARVE_TICKS.base v).rd LINK_CFG.STARVE_TICKS = bits v 24 5 ∧
    (s.putRw LINK_CFG.STARVE_TICKS.base v).rd LINK_CFG.LOST_TICKS = bits v 20 4 ∧
    (s.putRw LINK_CFG.STARVE_TICKS.base v).rd LINK_CFG.LOOP_DOWN = bits v 16 4 ∧
    (s.putRw LINK_CFG.STARVE_TICKS.base v).rd CLK_TICK_CFG.OVERRUN_LIMIT = s.rd CLK_TICK_CFG.OVERRUN_LIMIT := by
  have hpair : linkCfg.writable.Pairwise (fun x y => apart y.f x.f = true) := by decide
  rw [putRw_at linkCfg_found]
  exact ⟨rdi_putFields_mem s hpair (.head _) (by decide), rdi_putFields_mem s hpair (.tail _ (.head _)) (by decide),
    rdi_putFields_mem s hpair (.tail _ (.tail _ (.head _))) (by decide), rdi_putFields_apart s 0 v (by decide) 0⟩

/-! ### O41 -/

/-- Whatever the word, a write of CLK_TICK_CFG leaves OVERRUN_LIMIT below STARVE_TICKS where it was below (R40). -/
theorem writeTickCfg_overrunBelow {s : State} (h : s.rd CLK_TICK_CFG.OVERRUN_LIMIT < s.rd LINK_CFG.STARVE_TICKS) (v : Nat) :
    (s.writeTickCfg v).rd CLK_TICK_CFG.OVERRUN_LIMIT < (s.writeTickCfg v).rd LINK_CFG.STARVE_TICKS := by
  rcases writeTickCfg_cases s v with hrefused | ⟨hlt, hword⟩
  · rw [hrefused]
    unfold State.refuse
    rwa [s.rd_wr_apart 1 (by decide), s.rd_wr_apart 1 (by decide)]
  · obtain ⟨hlimit, -, hframe⟩ := putRw_tickCfg s v
    rw [hword _ (by decide) (by decide) (by decide), hword _ (by decide) (by decide) (by decide), hlimit, State.rd_def,
      hframe _ 0 (by decide) (by decide)]
    exact hlt

/-- Whatever the word, a write of LINK_CFG leaves OVERRUN_LIMIT below STARVE_TICKS where it was below (R40). -/
theorem writeLinkCfg_overrunBelow {s : State} (h : s.rd CLK_TICK_CFG.OVERRUN_LIMIT < s.rd LINK_CFG.STARVE_TICKS) (v : Nat) :
    (s.writeLinkCfg v).rd CLK_TICK_CFG.OVERRUN_LIMIT < (s.writeLinkCfg v).rd LINK_CFG.STARVE_TICKS := by
  have hrefuse : ∀ u : State, (u.refuse LINK_RING_STATUS_r.CFG_ERR).rd CLK_TICK_CFG.OVERRUN_LIMIT = u.rd CLK_TICK_CFG.OVERRUN_LIMIT ∧
      (u.refuse LINK_RING_STATUS_r.CFG_ERR).rd LINK_CFG.STARVE_TICKS = u.rd LINK_CFG.STARVE_TICKS :=
    fun u => ⟨u.rd_wr_apart 1 (by decide), u.rd_wr_apart 1 (by decide)⟩
  rcases Nat.lt_or_ge (s.rd CLK_TICK_CFG.OVERRUN_LIMIT) (bits v 24 5) with hhigh | hlow
  · rw [writeLinkCfg_high hhigh]
    split
    · obtain ⟨hstarve, -, -, hlimit⟩ := putRw_linkCfg s v
      rwa [hstarve, hlimit]
    · rwa [(hrefuse s).1, (hrefuse s).2]
  · rw [writeLinkCfg_low hlow, (hrefuse _).1, (hrefuse _).2]
    unfold State.refuse
    rwa [s.rd_wr_apart 1 (by decide), s.rd_wr_apart 1 (by decide)]

/-- Settles O41: a refusal by `writeTickCfg_refused` or `writeLinkCfg_low`; the order of the two limits by the two
`overrunBelow` lemmas. -/
theorem overrunTripBeforeStarvation : Obligations.OverrunTripBeforeStarvation := by
  unfold Obligations.OverrunTripBeforeStarvation
  intro s v hon
  refine ⟨fun h => ⟨_, exec_clkTickCfgWrite hon v, ?_⟩, fun h => ⟨_, exec_linkCfgWrite hon v, ?_⟩, fun t hbelow he => ?_⟩
  · rw [writeTickCfg_refused h]
    exact ⟨rd_refuse_self s rfl (by decide), s.refuse_tm _, fun f i hf => s.rdi_wri_apart 0 i 1 hf⟩
  · rw [writeLinkCfg_low h]
    refine ⟨?_, fun f i htick hlink => ?_⟩
    · exact (State.rd_wr_apart _ 1 (by decide)).trans (rd_refuse_self s rfl (by decide))
    · exact (State.rdi_wri_apart _ 0 i 1 hlink).trans (s.rdi_wri_apart 0 i 1 htick)
  · rw [exec_clkTickCfgWrite hon, exec_linkCfgWrite hon] at he
    rcases he with he | he
    · exact Host.Outcome.next.inj he ▸ writeTickCfg_overrunBelow hbelow v
    · exact Host.Outcome.next.inj he ▸ writeLinkCfg_overrunBelow hbelow v

/-! ### O2: the deadlines and the shed configuration (R30, R44) -/

/-- With no period waiting, the last deadline fits where it lies 100 ns before the end (R30). -/
theorem lastFits_noWait {s : State} (h : s.tm.newHalf = none) (d5 half : Nat) :
    s.lastFits d5 half = decide (d5 * 10 + 100 ≤ half * 500) := by
  unfold State.lastFits
  rw [h]
  exact Bool.and_true _

theorem exec_clkTickDeadlineWrite {s : State} (hon : s.pwr.mainOn = true) (n : Fin 6) (v : Nat) :
    exec (.clkTickDeadlineWrite n v) s = .next (s.writeDeadline n v) := congrArg Host.Outcome.next (s.live_on hon)

/-- A deadline that keeps the order, the last 100 ns and, for S0, the conversions before it is taken (R30, R350); with no
image there is no window to keep (R483). -/
theorem writeDeadline_taken {s : State} {n v : Nat} (hrise : s.deadlinesRise n (bits v 0 13) = true)
    (hlast : s.lastFits (if n = 5 then bits v 0 13 else s.rdi CLK_TICK_DEADLINE_n.DEADLINE 5) s.tm.half = true)
    (himage : s.tri.imageOk = false) (hconv : s.rd ADC_CTL_CFG.DELAY + 430 ≤ bits v 0 13 * 10) :
    s.writeDeadline n v = (s.wri CLK_TICK_DEADLINE_n.DEADLINE n (bits v 0 13)).foldFitAll := by
  unfold State.writeDeadline
  simp [hrise, hlast, himage, Nat.not_lt.mpr hconv]

/-- The deadline written reads back, and the others stay. -/
theorem rdi_deadline_written (s : State) {n : Nat} (hn : n < 6) (v k : Nat) :
    (s.wri CLK_TICK_DEADLINE_n.DEADLINE n (bits v 0 13)).foldFitAll.rdi CLK_TICK_DEADLINE_n.DEADLINE k =
      if k = n then bits v 0 13 else s.rdi CLK_TICK_DEADLINE_n.DEADLINE k := by
  rw [rdi_foldFitAll _ _ (by decide)]
  split
  · next hk => rw [hk, s.rdi_wri_self _ hn]; exact bits_mod v 0 13
  · next hk => exact s.rdi_wri_entry _ (Ne.symm hk)

theorem exec_clkShedCfgWrite {s : State} (hon : s.pwr.mainOn = true) (v : Nat) :
    exec (.clkShedCfgWrite v) s = .next (s.writeShedCfg v) := congrArg Host.Outcome.next (s.live_on hon)

/-- A word in range is in the register; whether the present level is above it is left to the boundary (R44). -/
theorem writeShedCfg_regs {s : State} {v : Nat} (h : inRange CLK_SHED_CFG.MAX_LEVEL.base v = true) :
    (s.writeShedCfg v).regs = (s.putRw CLK_SHED_CFG.MAX_LEVEL.base v).regs := by
  unfold State.writeShedCfg
  extract_lets off u
  rw [if_neg (by simp [off, h])]
  change _ = u.regs
  clear_value u
  split <;> rfl

theorem inRange_shedCfg {v : Nat} (hmax : bits v 24 3 ≤ 4) (hlo : 50 ≤ bits v 8 8) (hhi : bits v 8 8 ≤ 100) :
    inRange CLK_SHED_CFG.MAX_LEVEL.base v = true := by
  rw [inRange_at clkShedCfg_found]
  show (decide (0 ≤ bits v 24 3) && decide (bits v 24 3 ≤ 4) && (decide (50 ≤ bits v 8 8) && decide (bits v 8 8 ≤ 100) && true)) = true
  simp [hmax, hlo, hhi]

/-- A write of CLK_SHED_CFG gives its five fields their bits of the word, and leaves the present level. -/
theorem putRw_shedCfg (s : State) (v : Nat) :
    (s.putRw CLK_SHED_CFG.MAX_LEVEL.base v).rd CLK_SHED_CFG.MAX_LEVEL = bits v 24 3 ∧
    (s.putRw CLK_SHED_CFG.MAX_LEVEL.base v).rd CLK_SHED_CFG.HEADROOM = bits v 8 8 ∧
    (s.putRw CLK_SHED_CFG.MAX_LEVEL.base v).rd CLK_SHED_CFG.THERM_EN = bits v 2 1 ∧
    (s.putRw CLK_SHED_CFG.MAX_LEVEL.base v).rd CLK_SHED_CFG.POWER_EN = bits v 1 1 ∧
    (s.putRw CLK_SHED_CFG.MAX_LEVEL.base v).rd CLK_SHED_CFG.HEADROOM_EN = bits v 0 1 ∧
    (s.putRw CLK_SHED_CFG.MAX_LEVEL.base v).rd CLK_TICK_STATUS.SHED_LEVEL = s.rd CLK_TICK_STATUS.SHED_LEVEL := by
  have hpair : clkShedCfg.writable.Pairwise (fun x y => apart y.f x.f = true) := by decide
  have htakes : ∀ x ∈ clkShedCfg.writable, 0 < x.f.count →
      (s.putFields 0 v clkShedCfg.writable).rd x.f = bits v x.f.lo x.f.w := fun x hx hc => rdi_putFields_mem s hpair hx hc
  rw [putRw_at clkShedCfg_found]
  exact ⟨htakes _ (.head _) (by decide), htakes _ (.tail _ (.head _)) (by decide), htakes _ (.tail _ (.tail _ (.head _))) (by decide),
    htakes _ (.tail _ (.tail _ (.tail _ (.head _)))) (by decide),
    htakes _ (.tail _ (.tail _ (.tail _ (.tail _ (.head _))))) (by decide), rdi_putFields_apart s 0 v (by decide) 0⟩

/-- Settles O2: each clause by the equation of its write. -/
theorem tickConfigurationWrites : Obligations.TickConfigurationWrites := by
  unfold Obligations.TickConfigurationWrites
  refine ⟨fun s v hon hsame hlo hhi hlimit hstarve => ⟨_, exec_clkTickCfgWrite hon v, ?_⟩,
    fun s v hon hrun hnew hforce hlo hhi hlimit hstarve hblocked hwait hlast => ⟨_, exec_clkTickCfgWrite hon v, ?_⟩,
    fun s n v hon hrise hwait himage hconv hlast => ⟨_, exec_clkTickDeadlineWrite hon n v, ?_⟩,
    fun s v hon hmax hlo hhi => ⟨_, exec_clkShedCfgWrite hon v, ?_⟩⟩
  · rw [writeTickCfg_same (inRange_tickCfg hlo hhi hlimit) hstarve hsame]
    obtain ⟨hput, hperiod, -⟩ := putRw_tickCfg s v
    exact ⟨hput, hperiod.trans hsame, putRw_tm .., putRw_cells ..⟩
  · rw [writeTickCfg_waits (inRange_tickCfg hlo hhi hlimit) hstarve hrun hnew hforce hblocked
      ((lastFits_noWait hwait _ _).trans (decide_eq_true hlast))]
    obtain ⟨-, hperiod, -⟩ := putRw_tickCfg s v
    generalize s.putRw CLK_TICK_CFG.PERIOD.base v = u at hperiod
    exact ⟨(State.rd_wr_apart _ 1 (by decide)).trans hperiod, State.wr_tm .., State.rd_wr_self _ 1 (by decide)⟩
  · have hconv : s.rd ADC_CTL_CFG.DELAY + 430 ≤ bits v 0 13 * 10 := by omega
    rw [writeDeadline_taken hrise ((lastFits_noWait hwait _ _).trans (decide_eq_true hlast)) himage hconv]
    refine ⟨?_, fun k hk => ?_⟩
    · rw [rdi_deadline_written s n.isLt, if_pos rfl]
    · rw [rdi_deadline_written s n.isLt, if_neg hk]
  · have hregs := writeShedCfg_regs (s := s) (inRange_shedCfg hmax hlo hhi)
    simpa only [State.rd, rdi_of_regs hregs] using putRw_shedCfg s v

end Sys2Proof.Machine
end

section
/-! PROOFS. The shed level, the deferred diagnostics and the period change (01_architecture_and_tick.md R26, R42, R44): O8. -/
namespace Sys2Proof.Machine
open Reg

/-- The suspension of the diagnostic slices is the tick's alone: it leaves every register, and the shed flags (R42). -/
theorem diagTrack_keeps (s : State) (level : Nat) :
    (s.diagTrack level).regs = s.regs ∧ (s.diagTrack level).tm.shedClamp = s.tm.shedClamp ∧
      (s.diagTrack level).tm.shedCalm = s.tm.shedCalm := by
  unfold State.diagTrack
  split
  · split <;> exact ⟨rfl, rfl, rfl⟩
  · split <;> exact ⟨rfl, rfl, rfl⟩

/-- A change to a level below 4 shows it, and leaves the flags of the clamp and of the calm time (R44). -/
theorem setShed_below {s : State} {level : Nat} (hne : level ≠ s.rd CLK_TICK_STATUS.SHED_LEVEL) (hlt : level < 4) :
    (s.setShed level).rd CLK_TICK_STATUS.SHED_LEVEL = level ∧ (s.setShed level).tm.shedClamp = s.tm.shedClamp ∧
      (s.setShed level).tm.shedCalm = s.tm.shedCalm := by
  obtain ⟨hregs, hclamp, hcalm⟩ := diagTrack_keeps (s.wr CLK_TICK_STATUS.SHED_LEVEL level) level
  unfold State.setShed
  rw [if_neg hne]
  dsimp only
  rw [if_neg (Nat.not_le.mpr hlt), (State.notice_only ..).rd _ (by decide), State.notice_tm, hclamp, hcalm, State.wr_tm]
  refine ⟨(rdi_of_regs hregs _ 0).trans ?_, rfl, rfl⟩
  exact (s.rd_wr_self level (by decide)).trans (Nat.mod_eq_of_lt (Nat.lt_trans hlt (by decide)))

theorem exec_shedLevelClamp {s : State} (hon : s.pwr.mainOn = true)
    (hdue : s.boundaryDue CLK_SHED_CFG.MAX_LEVEL.base = true) : exec .shedLevelClamp s = .next s.shedClamp := by
  show execShedLevelClamp s = _
  unfold execShedLevelClamp
  rw [s.live_on hon, if_pos hdue]

/-- A clamp that waits brings a level above MAX_LEVEL down to it (R44). -/
theorem shedClamp_lowers {s : State} (hwait : s.tm.shedClamp = true)
    (habove : s.rd CLK_SHED_CFG.MAX_LEVEL < s.rd CLK_TICK_STATUS.SHED_LEVEL) (hlevel : s.rd CLK_TICK_STATUS.SHED_LEVEL ≤ 4) :
    s.shedClamp.rd CLK_TICK_STATUS.SHED_LEVEL = s.rd CLK_SHED_CFG.MAX_LEVEL ∧ s.shedClamp.tm.shedClamp = false := by
  have hmin : min (s.rd CLK_TICK_STATUS.SHED_LEVEL) (s.rd CLK_SHED_CFG.MAX_LEVEL) = s.rd CLK_SHED_CFG.MAX_LEVEL :=
    Nat.min_eq_right (Nat.le_of_lt habove)
  obtain ⟨hshown, hclamp, -⟩ := setShed_below (s := { s with tm := { s.tm with shedClamp := false } })
    (level := s.rd CLK_SHED_CFG.MAX_LEVEL) (Nat.ne_of_lt habove) (Nat.lt_of_lt_of_le habove hlevel)
  unfold State.shedClamp
  rw [if_pos hwait, hmin]
  exact ⟨hshown, hclamp⟩

/-- After 100 ms of calm the level falls by one (R44). -/
theorem exec_shedLevelFall {s : State} (hon : s.pwr.mainOn = true) {c e : Nat} (hcalm : s.tm.shedCalm = some c)
    (hlevel : 0 < s.rd CLK_TICK_STATUS.SHED_LEVEL) (hdue : c + 100000000 ≤ (s.moveTo e).tm.e) :
    exec (.shedLevelFall e) s = .next (({ s.moveTo e with tm := { (s.moveTo e).tm with shedCalm := some (s.moveTo e).tm.e } } :
      State).setShed (s.rd CLK_TICK_STATUS.SHED_LEVEL - 1)) := by
  have hcalm' : (s.moveTo e).tm.shedCalm = some c := by rw [(moveTo_sim s e).1]; exact hcalm
  show execShedLevelFall e s = _
  unfold execShedLevelFall
  rw [s.live_on hon]
  dsimp only
  rw [hcalm', rd_moveTo]
  dsimp only
  rw [if_pos ⟨hlevel, hdue⟩]

/-- Renumbering the ticks gives the tick its new number and changes nothing else of it (R625). -/
theorem renumber_tm (s : State) (new : Int) : (s.renumber new).tm = { s.tm with n := new } := by
  unfold State.renumber
  extract_lets old d u
  split
  · next hd =>
    have hnew : new = s.tm.n := by omega
    rw [hnew]
  · rw [State.mapCells_tm]

/-- A waiting period whose boundary has come is in force, and N is renumbered (R26). -/
theorem periodApply_due {s : State} {h : Nat} (hwait : s.tm.newHalf = some h) (hnew : s.stime % ((h * 500 : Nat) : Int) = 0)
    (hold : s.stime % (s.period : Int) = 0) :
    s.periodApply.tm = { s.tm with half := h, newHalf := none, n := s.stime / ((h * 500 : Nat) : Int) } ∧
      s.periodApply.rd CLK_TICK_STATUS.PERIOD_PEND = 0 := by
  unfold State.periodApply
  rw [hwait]
  dsimp only
  rw [if_pos ⟨hnew, hold⟩, foldFitAll_tm, (trimTriggers_only _).tm rfl, State.wr_tm, renumber_tm, State.rd_def,
    rdi_foldFitAll _ _ (by decide), (trimTriggers_only _).rdi _ _ (by decide)]
  exact ⟨rfl, State.rd_wr_self _ 0 (by decide)⟩

/-- Settles O8: the level by `setShed_below`, the period by `periodApply_due`. -/
theorem shedAndPeriodChangesApply : Obligations.ShedAndPeriodChangesApply := by
  unfold Obligations.ShedAndPeriodChangesApply
  refine ⟨fun s hon hdue hwait habove hlevel => ⟨_, exec_shedLevelClamp hon hdue, shedClamp_lowers hwait habove hlevel⟩,
    fun s c e hon hcalm hpos hlevel hdue => ⟨_, exec_shedLevelFall hon hcalm hpos hdue, ?_⟩,
    fun s e hon hlong hclear => ?_, fun s h e hon hrun hphase hstart hwait hnew hold => ?_⟩
  · have hsame := rd_moveTo s e CLK_TICK_STATUS.SHED_LEVEL
    generalize s.moveTo e = u at hsame
    obtain ⟨hshown, -, hcalm⟩ := setShed_below (s := { u with tm := { u.tm with shedCalm := some u.tm.e } })
      (level := s.rd CLK_TICK_STATUS.SHED_LEVEL - 1) (by change _ ≠ u.rd _; omega) (by omega)
    refine ⟨?_, hcalm⟩
    rw [hshown]
    omega
  · refine ⟨((s.moveTo e).wr CLK_TICK_STATUS.DIAG_DEFERRED 1).noticeOpen 2, ?_, ?_⟩
    · show execDiagDeferred e s = _
      unfold execDiagDeferred
      rw [s.live_on hon]
      dsimp only
      rw [rd_moveTo, if_pos ⟨hlong, hclear⟩]
    · rw [(State.noticeOpen_only ..).rd _ (by decide), State.rd_wr_self _ 1 (by decide)]
      rfl
  · have htm := (moveTo_sim s e).1
    have hstart' : (s.moveTo e).tm.e = (s.moveTo e).tm.start := hstart.trans (by rw [htm])
    refine ⟨(s.moveTo e).periodApply, ?_, ?_⟩
    · show execPeriodChange e s = _
      unfold execPeriodChange
      rw [s.live_on hon]
      dsimp only
      rw [if_pos ⟨(mt_run s e).trans hrun, (mt_phase s e).trans hphase, hstart'⟩]
    · obtain ⟨happly, hpend⟩ := periodApply_due (s := s.moveTo e) (by rw [htm]; exact hwait) hnew (by
        unfold State.period at hold ⊢; rw [htm]; exact hold)
      rw [happly]
      exact ⟨rfl, rfl, rfl, hpend⟩

end Sys2Proof.Machine
end

section
/-! PROOFS. Rate changes and enables of the link's rings, LINK_CFG and wadi frames (08_onhorn_link.md R261, R294 to R299): O23. -/
namespace Sys2Proof.Machine
open Reg

/-! ### A ring's change of state (R282, R301) -/

theorem linkEvent_out (s : State) (r loop old new : Nat) : s.out <+: (s.linkEvent r loop old new).out := s.post_out ..

theorem setRingLink_only (s : State) (r new : Nat) : Only 0x1100100000001200 s (s.setRingLink r new) :=
  Only.setRingLink (Only.refl _ s) r new rfl

theorem setRingLink_out (s : State) (r new : Nat) : s.out <+: (s.setRingLink r new).out := by
  unfold State.setRingLink
  dsimp only
  split
  · exact List.prefix_rfl
  · have hpost := linkEvent_out (s.wri LINK_RING_STATUS_r.STATE r new) r 2 (s.ringState r) new
    rwa [State.wri_out] at hpost

/-- A ring's change of state leaves every entry but its STATE. -/
theorem rdi_setRingLink (s : State) {r : Nat} (new : Nat) {f : Fld} {j : Nat} (hfr : fr 0x1100100000000200 f = true)
    (h : (LINK_RING_STATUS_r.STATE = f ∧ r ≠ j) ∨ apart LINK_RING_STATUS_r.STATE f = true) :
    (s.setRingLink r new).rdi f j = s.rdi f j := by
  unfold State.setRingLink
  dsimp only
  split
  · rfl
  · rw [(State.linkEvent_only ..).rdi f j hfr, wri_or _ _ _ _ _ _ h]

theorem ringState_setRingLink (s : State) {r new : Nat} (hr : r < 16) (hnew : new < 8) :
    (s.setRingLink r new).ringState r = new := by
  unfold State.setRingLink
  dsimp only
  split
  · next heq => exact heq
  · unfold State.ringState
    rw [(State.linkEvent_only ..).rdi _ r (by decide), s.rdi_wri_self new hr]
    exact Nat.mod_eq_of_lt hnew

theorem ring_setRingLink (s : State) (r new q : Nat) : (s.setRingLink r new).ring q = s.ring q := by
  unfold State.ring
  rw [(setRingLink_only s r new).rings rfl]

theorem ring_setRing_self {s : State} {r : Nat} (hr : r < s.rings.length) (x : RingSt) : (s.setRing r x).ring r = x := by
  simp [State.ring, State.setRing, hr]

theorem ring_setRing_ne (s : State) {q r : Nat} (h : q ≠ r) (x : RingSt) : (s.setRing q x).ring r = s.ring r := by
  simp [State.ring, State.setRing, h]

/-- An ordered set leaves on both loops of its ring (R286, R295). -/
theorem sendOrder_out (s : State) (r : Nat) (codes : List Code) {l : Nat} (hl : l < 2) :
    Out.link r l (thrice codes) ∈ (s.sendOrder r codes).out := by
  have hboth : (s.sendOrder r codes).out = s.out ++ [.link r 0 (thrice codes)] ++ [.link r 1 (thrice codes)] := rfl
  rw [hboth]
  rcases (by omega : l = 0 ∨ l = 1) with rfl | rfl <;> simp

theorem sendOrder_keepsOut (s : State) (r : Nat) (codes : List Code) : s.out <+: (s.sendOrder r codes).out :=
  (List.prefix_append _ _).trans (List.prefix_append _ _)

/-! ### What is done for one ring leaves the others -/

theorem ringOn_congr {s t : State} (henable : t.rd LINK_RING_EN.EN = s.rd LINK_RING_EN.EN)
    (hpart : t.rd ID_PART.DEVICE = s.rd ID_PART.DEVICE) (r : Nat) : t.ringOn r = s.ringOn r := by
  unfold State.ringOn State.ringCount State.small
  rw [henable, hpart]

/-- The status fields of a ring that the statements read. -/
def ringStatus : List Fld :=
  [LINK_RING_STATUS_r.STATE, LINK_RING_STATUS_r.PRI, LINK_RING_STATUS_r.SEC, LINK_RING_STATUS_r.NODES]

theorem ringStatus_entry {f g : Fld} (hf : f ∈ ringStatus) (hg : g ∈ ringStatus) {q r : Nat} (h : q ≠ r) :
    (g = f ∧ q ≠ r) ∨ apart g f = true := by
  have hpairs : ∀ f ∈ ringStatus, ∀ g ∈ ringStatus, g = f ∨ apart g f = true := by decide
  exact (hpairs f hf g hg).imp_left (⟨·, h⟩)

/-- From `s` to `t` ring `r` stands as it was, and so does what a change of it looks at; nothing put outside is taken back. -/
structure RingStands (r : Nat) (s t : State) : Prop where
  status : ∀ f ∈ ringStatus, t.rdi f r = s.rdi f r
  ring : t.ring r = s.ring r
  on : t.ringOn r = s.ringOn r
  enable : t.rd LINK_RING_EN.EN = s.rd LINK_RING_EN.EN
  tm : t.tm = s.tm
  count : t.rings.length = s.rings.length
  out : s.out <+: t.out

namespace RingStands
variable {r : Nat} {s t u : State}

theorem refl (r : Nat) (s : State) : RingStands r s s :=
  ⟨fun _ _ => rfl, rfl, rfl, rfl, rfl, rfl, List.prefix_rfl⟩

theorem trans (h : RingStands r s t) (g : RingStands r t u) : RingStands r s u where
  status f hf := (g.status f hf).trans (h.status f hf)
  ring := g.ring.trans h.ring
  on := g.on.trans h.on
  enable := g.enable.trans h.enable
  tm := g.tm.trans h.tm
  count := g.count.trans h.count
  out := h.out.trans g.out

theorem state (h : RingStands r s t) : t.ringState r = s.ringState r := h.status _ (.head _)

theorem sendOrder (s : State) (q : Nat) (codes : List Code) : RingStands r s (s.sendOrder q codes) where
  status f _ := rdi_of_regs rfl f r
  ring := rfl
  on := rfl
  enable := rfl
  tm := rfl
  count := rfl
  out := sendOrder_keepsOut s q codes

theorem setRing (s : State) {q : Nat} (h : q ≠ r) (x : RingSt) : RingStands r s (s.setRing q x) where
  status f _ := rdi_of_regs rfl f r
  ring := ring_setRing_ne s h x
  on := rfl
  enable := rfl
  tm := rfl
  count := List.length_set ..
  out := List.prefix_rfl

theorem wri (s : State) {q : Nat} (h : q ≠ r) {g : Fld} (hg : g ∈ ringStatus) (v : Nat) : RingStands r s (s.wri g q v) where
  status f hf := wri_or s g f q r v (ringStatus_entry hf hg h)
  ring := s.wri_ring g q v r
  on := by
    have hoff : ∀ g ∈ ringStatus, apart g LINK_RING_EN.EN = true ∧ apart g ID_PART.DEVICE = true := by decide
    exact ringOn_congr (s.rdi_wri_apart q 0 v (hoff g hg).1) (s.rdi_wri_apart q 0 v (hoff g hg).2) r
  enable := by
    have hpart : ∀ g ∈ ringStatus, apart g LINK_RING_EN.EN = true := by decide
    exact s.rdi_wri_apart q 0 v (hpart g hg)
  tm := s.wri_tm g q v
  count := by rw [s.wri_rings]
  out := by simp

theorem linkEvent (s : State) (q loop old new : Nat) : RingStands r s (s.linkEvent q loop old new) where
  status f hf := by
    have hfr : ∀ f ∈ ringStatus, fr 0x1100100000000200 f = true := by decide
    exact (s.linkEvent_only q loop old new).rdi f r (hfr f hf)
  ring := by unfold State.ring; rw [s.linkEvent_rings]
  on := ringOn_congr ((s.linkEvent_only q loop old new).rd _ (by decide)) ((s.linkEvent_only q loop old new).rd _ (by decide)) r
  enable := (s.linkEvent_only q loop old new).rd LINK_RING_EN.EN (by decide)
  tm := s.linkEvent_tm q loop old new
  count := by rw [s.linkEvent_rings]
  out := linkEvent_out s q loop old new

theorem setRingLink (s : State) {q : Nat} (h : q ≠ r) (new : Nat) : RingStands r s (s.setRingLink q new) := by
  unfold State.setRingLink
  dsimp only
  split
  · exact refl r s
  · exact (wri s h (.head _) new).trans (linkEvent _ q 2 _ new)

/-- Work done ring by ring leaves a ring that is not worked on. -/
theorem foldl_off {op : State → Nat → State} (hop : ∀ s q, q ≠ r → RingStands r s (op s q)) {l : List Nat} (hr : r ∉ l)
    (s : State) : RingStands r s (l.foldl op s) := by
  induction l generalizing s with
  | nil => exact refl r s
  | cons q l ih =>
    rw [List.mem_cons, not_or] at hr
    obtain ⟨hq, hl⟩ := hr
    exact (hop s q (Ne.symm hq)).trans (ih hl _)

/-- Work done ring by ring meets each ring of the list as it stands at the start, and leaves it as its own work did. -/
theorem foldl_on {op : State → Nat → State} (hop : ∀ s q, q ≠ r → RingStands r s (op s q)) {l : List Nat} (hnd : l.Nodup)
    (hr : r ∈ l) (s : State) : ∃ u, RingStands r s u ∧ RingStands r (op u r) (l.foldl op s) := by
  induction l generalizing s with
  | nil => cases hr
  | cons q l ih =>
    obtain ⟨hq, hl⟩ := List.nodup_cons.mp hnd
    by_cases hqr : q = r
    · subst hqr
      exact ⟨s, refl q s, foldl_off hop hq _⟩
    · obtain ⟨u, hu, hend⟩ := ih hl ((List.mem_cons.mp hr).resolve_left (Ne.symm hqr)) (op s q)
      exact ⟨u, (hop s q hqr).trans hu, hend⟩

end RingStands

/-! ### Rates (R295, R296, R299) -/

theorem mem_maskRings {m r : Nat} (hr : r < 16) : r ∈ maskRings m ↔ bitOf m r = true := by
  unfold maskRings
  rw [List.mem_filter, List.mem_range]
  exact and_iff_right hr

theorem maskRings_nodup (m : Nat) : (maskRings m).Nodup := List.nodup_range.filter _

/-- The start of a shift leaves the other rings. -/
theorem startShift_stands {r : Nat} (s : State) (q : Nat) (h : q ≠ r) : RingStands r s (s.startShift q) := by
  unfold State.startShift
  split
  · exact ((RingStands.sendOrder s q _).trans (.setRing _ h _)).trans (.setRingLink _ h 3)
  · exact .refl r s

/-- A ring in WADI that starts its shift is in SHIFT from this instant, and /WK/ 0x01 has left on both loops (R295). -/
theorem startShift_self {s : State} {r : Nat} (hr : r < 16) (hlen : s.rings.length = 16) (hon : s.ringOn r = true)
    (hstate : s.ringState r = 2) :
    (s.startShift r).ringState r = 3 ∧ ((s.startShift r).ring r).wkAt = s.tm.e ∧
      ∀ l, l < 2 → Out.link r l (thrice (wkCodes 1)) ∈ (s.startShift r).out := by
  unfold State.startShift
  rw [if_pos ⟨hstate, hon⟩]
  dsimp only
  refine ⟨ringState_setRingLink _ hr (by decide), ?_, fun l hl => ?_⟩
  · rw [ring_setRingLink, ring_setRing_self (s := s.sendOrder r _) (hr.trans_eq hlen.symm)]
  · exact (setRingLink_out _ r 3).subset (sendOrder_out s r _ hl)

theorem toWadi_stands {r : Nat} (s : State) (q : Nat) (h : q ≠ r) : RingStands r s (s.toWadi q) := by
  unfold State.toWadi
  split
  · exact ((RingStands.sendOrder s q _).trans (.setRing _ h _)).trans (.setRingLink _ h 2)
  · exact .refl r s

/-- A ring in FULL that goes to wadi mode is in WADI from this instant, and /WK/ 0x02 has left on both loops (R295). -/
theorem toWadi_self {s : State} {r : Nat} (hr : r < 16) (hlen : s.rings.length = 16) (hon : s.ringOn r = true)
    (hstate : s.ringState r = 4) :
    (s.toWadi r).ringState r = 2 ∧ ((s.toWadi r).ring r).wadiAt = s.tm.e ∧
      ∀ l, l < 2 → Out.link r l (thrice (wkCodes 2)) ∈ (s.toWadi r).out := by
  unfold State.toWadi
  rw [if_pos ⟨hstate, hon⟩]
  dsimp only
  refine ⟨ringState_setRingLink _ hr (by decide), ?_, fun l hl => ?_⟩
  · rw [ring_setRingLink, ring_setRing_self (s := s.sendOrder r _) (hr.trans_eq hlen.symm)]
  · exact (setRingLink_out _ r 2).subset (sendOrder_out s r _ hl)

theorem ringStands_moveTo (s : State) (e r : Nat) :
    (s.moveTo e).ringState r = s.ringState r ∧ (s.moveTo e).ring r = s.ring r ∧ (s.moveTo e).ringOn r = s.ringOn r ∧
      (s.moveTo e).rings = s.rings :=
  ⟨rdi_of_regs (moveTo_regs s e) _ r, by unfold State.ring; rw [s.moveTo_rings], ringOn_congr (rd_moveTo s e _) (rd_moveTo s e _) r,
    s.moveTo_rings e⟩

theorem exec_linkGoFull {s : State} (hon : s.pwr.mainOn = true) (m e : Nat) :
    exec (.linkGoFull m e) s = .next ((s.moveTo e).goFull m) := congrArg Host.Outcome.next (s.live_on hon)

theorem exec_linkGoWadi {s : State} (hon : s.pwr.mainOn = true) (m e : Nat) :
    exec (.linkGoWadi m e) s = .next ((s.moveTo e).goWadi m) := congrArg Host.Outcome.next (s.live_on hon)

/-- A change of rate worked ring by ring over a mask: a ring of the mask that is on and in the state `old` is as its own work
leaves it, every other stands. -/
theorem maskRings_foldl {op : State → Nat → State} {old : Nat} {m r : Nat} (hr : r < 16)
    (hop : ∀ s q, q ≠ r → RingStands r s (op s q)) (hidle : ∀ s, ¬(s.ringState r = old ∧ s.ringOn r = true) → op s r = s) (s : State) :
    (bitOf m r = true ∧ s.ringOn r = true ∧ s.ringState r = old →
      ∃ u, RingStands r s u ∧ RingStands r (op u r) ((maskRings m).foldl op s)) ∧
    (¬(bitOf m r = true ∧ s.ringOn r = true ∧ s.ringState r = old) → RingStands r s ((maskRings m).foldl op s)) := by
  refine ⟨fun ⟨hm, _, _⟩ => RingStands.foldl_on hop (maskRings_nodup m) ((mem_maskRings hr).mpr hm) s, fun hnot => ?_⟩
  by_cases hm : bitOf m r = true
  · obtain ⟨u, hu, hend⟩ := RingStands.foldl_on hop (maskRings_nodup m) ((mem_maskRings hr).mpr hm) s
    rw [hidle u] at hend
    · exact hu.trans hend
    · rw [hu.state, hu.on]
      exact fun ⟨hstate, hon⟩ => hnot ⟨hm, hon, hstate⟩
  · exact RingStands.foldl_off hop (fun hmem => hm ((mem_maskRings hr).mp hmem)) s

theorem goFull_ring {s : State} (hlen : s.rings.length = 16) (m : Nat) (r : Fin 16) :
    (bitOf m r = true ∧ s.ringOn r = true ∧ s.ringState r = 2 →
      (s.goFull m).ringState r = 3 ∧ ((s.goFull m).ring r).wkAt = s.tm.e ∧
        ∀ l, l < 2 → Out.link r l (thrice (wkCodes 1)) ∈ (s.goFull m).out) ∧
    (¬(bitOf m r = true ∧ s.ringOn r = true ∧ s.ringState r = 2) → RingStands r s (s.goFull m)) := by
  obtain ⟨hact, hstand⟩ := maskRings_foldl (m := m) r.isLt startShift_stands (fun s h => by
    unfold State.startShift; exact if_neg h) s
  refine ⟨fun h => ?_, hstand⟩
  obtain ⟨u, hu, hend⟩ := hact h
  obtain ⟨hstate, hat, hout⟩ := startShift_self r.isLt (hu.count.trans hlen) (hu.on.trans h.2.1) (hu.state.trans h.2.2)
  refine ⟨hend.state.trans hstate, ?_, fun l hl => hend.out.subset (hout l hl)⟩
  unfold State.goFull
  rw [hend.ring, hat, hu.tm]

theorem goWadi_ring {s : State} (hlen : s.rings.length = 16) {m : Nat} (hblocked : (maskRings m).all (fun q => s.ringBlocked q) = true)
    (r : Fin 16) :
    (bitOf m r = true ∧ s.ringOn r = true ∧ s.ringState r = 4 →
      (s.goWadi m).ringState r = 2 ∧ ((s.goWadi m).ring r).wadiAt = s.tm.e ∧
        ∀ l, l < 2 → Out.link r l (thrice (wkCodes 2)) ∈ (s.goWadi m).out) ∧
    (¬(bitOf m r = true ∧ s.ringOn r = true ∧ s.ringState r = 4) → RingStands r s (s.goWadi m)) := by
  obtain ⟨hact, hstand⟩ := maskRings_foldl (m := m) r.isLt toWadi_stands (fun s h => by
    unfold State.toWadi; exact if_neg h) s
  unfold State.goWadi
  rw [if_pos hblocked]
  refine ⟨fun h => ?_, hstand⟩
  obtain ⟨u, hu, hend⟩ := hact h
  obtain ⟨hstate, hat, hout⟩ := toWadi_self r.isLt (hu.count.trans hlen) (hu.on.trans h.2.1) (hu.state.trans h.2.2)
  refine ⟨hend.state.trans hstate, ?_, fun l hl => hend.out.subset (hout l hl)⟩
  rw [hend.ring, hat, hu.tm]

theorem ringBlocked_moveTo (s : State) (e q : Nat) : (s.moveTo e).ringBlocked q = s.ringBlocked q := by
  have hcells := s.moveTo_cells e
  have hunblocked : ∀ c, (s.moveTo e).unblocked c = s.unblocked c := fun c => by
    unfold State.unblocked State.enabled State.biti State.cell
    rw [hcells, rdi_of_regs (moveTo_regs s e)]
  unfold State.ringBlocked
  simp only [hcells, hunblocked]

/-- A ring that falls back is in WADI from this instant (R295). -/
theorem fallBack_self {s : State} {r : Nat} (hr : r < 16) (hlen : s.rings.length = 16) :
    (s.fallBack r).ringState r = 2 ∧ ((s.fallBack r).ring r).wadiAt = s.tm.e := by
  unfold State.fallBack
  refine ⟨ringState_setRingLink _ hr (by decide), ?_⟩
  rw [ring_setRingLink, ring_setRing_self (hr.trans_eq hlen.symm)]

/-! ### Enables (R261, R298) -/

/-- A ring that a write of LINK_RING_EN changes starts anew, in TRAINING where the mask has it and OFF where not (R266, R282). -/
def State.restartRing (m : Nat) (s : State) (r : Nat) : State :=
  let s := s.setRing r { RingSt.init with wadiAt := s.tm.e, wadiTx := s.tm.e }
  let s := ((s.wri LINK_RING_STATUS_r.PRI r 2).wri LINK_RING_STATUS_r.SEC r 2).wri LINK_RING_STATUS_r.NODES r 0
  s.setRingLink r (if bitOf m r then 1 else 0)

/-- The rings that a mask changes. -/
def State.changedRings (s : State) (m : Nat) : List Nat :=
  (List.range 16).filter (fun r => bitOf m r != bitOf (s.rd LINK_RING_EN.EN) r)

theorem writeRingEn_taken {s : State} {v : Nat} (hblocked : ∀ q, s.ringBlocked q = true) :
    s.writeRingEn v = (s.changedRings (v % 2 ^ s.ringCount)).foldl (State.restartRing (v % 2 ^ s.ringCount))
      (s.wr LINK_RING_EN.EN (v % 2 ^ s.ringCount)) := by
  unfold State.writeRingEn
  exact if_pos (List.all_eq_true.mpr fun q _ => hblocked q)

theorem mem_changedRings (s : State) {m r : Nat} (hr : r < 16) :
    r ∈ s.changedRings m ↔ bitOf m r ≠ bitOf (s.rd LINK_RING_EN.EN) r := by
  unfold State.changedRings
  rw [List.mem_filter, List.mem_range, bne_iff_ne]
  exact and_iff_right hr

theorem restartRing_stands {m r : Nat} (s : State) (q : Nat) (h : q ≠ r) : RingStands r s (s.restartRing m q) :=
  (((RingStands.setRing s h _).trans (.wri _ h (by decide) 2)).trans ((RingStands.wri _ h (by decide) 2).trans
    (.wri _ h (by decide) 0))).trans (.setRingLink _ h _)

/-- A ring that starts anew has both loops DOWN and no nodes. -/
theorem restartRing_self (m : Nat) (s : State) {r : Nat} (hr : r < 16) :
    (s.restartRing m r).ringState r = (if bitOf m r then 1 else 0) ∧ (s.restartRing m r).rdi LINK_RING_STATUS_r.PRI r = 2 ∧
      (s.restartRing m r).rdi LINK_RING_STATUS_r.SEC r = 2 ∧ (s.restartRing m r).rdi LINK_RING_STATUS_r.NODES r = 0 := by
  unfold State.restartRing
  dsimp only
  refine ⟨ringState_setRingLink _ hr (by split <;> decide), ?_, ?_, ?_⟩
  · rw [rdi_setRingLink _ _ (by decide) (.inr (by decide)), State.rdi_wri_apart _ _ _ _ (by decide),
      State.rdi_wri_apart _ _ _ _ (by decide), State.rdi_wri_self _ 2 hr]
    rfl
  · rw [rdi_setRingLink _ _ (by decide) (.inr (by decide)), State.rdi_wri_apart _ _ _ _ (by decide), State.rdi_wri_self _ 2 hr]
    rfl
  · rw [rdi_setRingLink _ _ (by decide) (.inr (by decide)), State.rdi_wri_self _ 0 hr]
    rfl

/-- The work on one ring keeps the mask that the write put in. -/
theorem restartRing_enable (m : Nat) (s : State) (q : Nat) : (s.restartRing m q).rd LINK_RING_EN.EN = s.rd LINK_RING_EN.EN :=
  (restartRing_stands (r := q + 1) s q (Nat.ne_of_lt (Nat.lt_succ_self q))).enable

theorem writeRingEn_enable {s : State} {v : Nat} (hblocked : ∀ q, s.ringBlocked q = true) :
    (s.writeRingEn v).rd LINK_RING_EN.EN = v % 2 ^ s.ringCount := by
  have hcount : 2 ^ s.ringCount ≤ 2 ^ 16 := Nat.pow_le_pow_right (by decide) (by unfold State.ringCount; split <;> decide)
  rw [writeRingEn_taken hblocked, foldl_keep (fun s => s.rd LINK_RING_EN.EN) _ (restartRing_enable _),
    s.rd_wr_self _ (by decide)]
  exact Nat.mod_eq_of_lt (Nat.lt_of_lt_of_le (Nat.mod_lt v (Nat.two_pow_pos _)) hcount)

/-- A ring that the mask changes is as its restart leaves it, another stands. -/
theorem writeRingEn_ring {s : State} {v : Nat} (hblocked : ∀ q, s.ringBlocked q = true) (r : Fin 16) :
    let m := v % 2 ^ s.ringCount
    (bitOf m r ≠ bitOf (s.rd LINK_RING_EN.EN) r → (s.writeRingEn v).ringState r = (if bitOf m r then 1 else 0) ∧
      (s.writeRingEn v).rdi LINK_RING_STATUS_r.PRI r = 2 ∧ (s.writeRingEn v).rdi LINK_RING_STATUS_r.SEC r = 2 ∧
      (s.writeRingEn v).rdi LINK_RING_STATUS_r.NODES r = 0) ∧
    (bitOf m r = bitOf (s.rd LINK_RING_EN.EN) r → (s.writeRingEn v).ringState r = s.ringState r ∧ (s.writeRingEn v).ring r = s.ring r) := by
  intro m
  rw [writeRingEn_taken hblocked]
  refine ⟨fun h => ?_, fun h => ?_⟩
  · obtain ⟨u, -, hend⟩ := RingStands.foldl_on (op := State.restartRing m) restartRing_stands (List.nodup_range.filter _)
      ((mem_changedRings s r.isLt).mpr h) (s.wr LINK_RING_EN.EN m)
    obtain ⟨hstate, hpri, hsec, hnodes⟩ := restartRing_self m u r.isLt
    exact ⟨hend.state.trans hstate, (hend.status _ (by decide)).trans hpri, (hend.status _ (by decide)).trans hsec,
      (hend.status _ (by decide)).trans hnodes⟩
  · have hstand := RingStands.foldl_off (op := State.restartRing m) restartRing_stands
      (fun hmem => (mem_changedRings s r.isLt).mp hmem h) (s.wr LINK_RING_EN.EN m)
    exact ⟨hstand.state.trans (s.rdi_wri_apart 0 r m (by decide)), hstand.ring.trans (s.wri_ring ..)⟩

end Sys2Proof.Machine
end

section
/-! PROOFS. Which phases the fabric blocks stays a mask of three, whatever acts (11_sluice_protection.md R391, R392). -/
namespace Sys2Proof.Machine
open Reg

/-- SLC_BLOCK_STATUS.PHASES holds a mask of the three phases. -/
def PhasesFit (s : State) : Prop := s.rd SLC_BLOCK_STATUS.PHASES < 8

theorem PhasesFit.of_rd {s t : State} (h : PhasesFit s) (he : t.rd SLC_BLOCK_STATUS.PHASES = s.rd SLC_BLOCK_STATUS.PHASES) : PhasesFit t := by
  unfold PhasesFit
  rwa [he]

theorem PhasesFit.of_only {M : Nat} {s t : State} (h : PhasesFit s) (only : Only M s t) (hM : fr M SLC_BLOCK_STATUS.PHASES = true) :
    PhasesFit t := h.of_rd (only.rd _ hM)

/-- Acting with a scope leaves the phases as they were, or writes them into the field of three bits (R392). -/
theorem PhasesFit.actScope {s : State} (h : PhasesFit s) {f : Fld} (hf : f ∈ latchFields) (m scope phases : Nat) (sched : Bool) :
    PhasesFit (s.actScope f m scope phases sched) := by
  unfold State.actScope
  extract_lets sc ph s1 ph' sc' _ _ s2 tr s3 _ s4
  have hlatch : PhasesFit (s.latch f m) := h.of_rd (s.rdi_latch_off f m hf _ 0 (by decide))
  have hcapture : Only 0x1940500020000200 (s.latch f m) s1 :=
    Only.captureEvent (Only.cancelRelease (Only.refl _ _) rfl) _ rfl
  have h1 : PhasesFit s1 := hlatch.of_only hcapture (by decide)
  clear_value s1
  have h2 : PhasesFit s2 := by
    simp only [s2]
    split
    · exact h1.of_rd (s1.rd_wr_apart 1 (by decide))
    · exact h1
  clear_value s2
  have htrip : PhasesFit tr := by
    simp only [tr]
    split <;> exact h2
  clear_value tr
  split
  · split
    · exact htrip.of_rd (tr.blockNow_rd _ _ (by decide))
    · exact htrip
  · have h3 : PhasesFit s3 := by
      have hwritten : s3.rd SLC_BLOCK_STATUS.PHASES = ph' % 2 ^ 3 :=
        (State.rd_wr_apart _ _ (by decide)).trans (State.rd_wr_self _ _ (by decide))
      unfold PhasesFit
      rw [hwritten]
      exact Nat.mod_lt _ (by decide)
    clear_value s3
    have h4 : PhasesFit s4 := by
      simp only [s4]
      split
      · exact h3
      · exact h3.of_rd (s3.blockNow_rd _ _ (by decide))
    clear_value s4
    exact h4.of_only (s4.post_only _ _) (by decide)

theorem PhasesFit.cellLoss {s : State} (h : PhasesFit s) (c : Nat) : PhasesFit (s.cellLoss c) := by
  unfold State.cellLoss
  extract_lets st u w _ v
  have hu : PhasesFit v := h.of_rd (State.rd_wr_apart _ _ (by decide))
  clear_value v
  split
  · exact h
  · split
    · exact hu.actScope (by decide) _ _ _ _
    · split
      · exact hu.actScope (by decide) _ _ _ _
      · exact hu

theorem PhasesFit.tripSeen {s : State} (h : PhasesFit s) (c : Nat) : PhasesFit (s.tripSeen c) := by
  unfold State.tripSeen
  dsimp only
  split
  · exact (h.cellLoss c).of_only (M := 0x1002000000000000) (Only.updCell (Only.blockCell (Only.refl _ _) _ rfl) _ _ rfl) (by decide)
  · exact h

/-- The end of a frame interval for a cell: a trip seen in its telemetry may act, nothing else touches the fabric (R411). -/
theorem PhasesFit.intakeCell {s : State} (h : PhasesFit s) (c ns : Nat) (charge : Bool) : PhasesFit (s.intakeCell c ns charge) := by
  unfold State.intakeCell
  extract_lets s1 s2 s3 s4
  have k1 : Only 0x1982100802002200 s s1 := Only.linkReport (Only.countMissing (Only.refl _ _) _ rfl) _ rfl
  have k2 : Only 0x1982100802002200 s s2 := Only.ite (Only.powerReport k1 _ rfl) k1
  have k3 : Only 0x1982100802002200 s s3 := Only.meterPort k2 _ _ _ rfl
  have k4 : Only 0x1982100802002200 s s4 := Only.ite (Only.packWindow k3 _ _ rfl) k3
  have hjoin : PhasesFit (s4.joinTick c ns) := h.of_only (Only.joinTick k4 _ _ rfl) (by decide)
  exact (hjoin.tripSeen c).of_only (M := 0x2000000000000) (Only.returnSeen (Only.refl _ _) _ rfl) (by decide)

end Sys2Proof.Machine
end

section
/-! PROOFS. The wadi frame, and O23 from it, the rates, the enables and LINK_CFG (08_onhorn_link.md R261, R294 to R299). -/
namespace Sys2Proof.Machine
open Reg

/-- An output on which all agree leaves, in every mode (R468). -/
theorem agreed_all (s : State) (kind : Nat) (at_ : Option Nat) (out lost : State → State) : s.agreed kind at_ .all out lost = out s := by
  unfold State.agreed
  simp

/-- A write of a ring's record that keeps the instant of its last wadi frame. -/
theorem wadiTx_setRing (s : State) (r : Nat) {x : RingSt} (hx : x.wadiTx = (s.ring r).wadiTx) :
    ((s.setRing r x).ring r).wadiTx = (s.ring r).wadiTx := by
  by_cases hr : r < s.rings.length
  · rw [ring_setRing_self hr, hx]
  · unfold State.setRing
    rw [List.set_eq_of_length_le (Nat.le_of_not_lt hr)]

/-- The grant of a header takes nothing of a ring but its requests (R292). -/
theorem wadiTx_takeGrant (s : State) (r : Nat) (l : List (Int × Nat)) : ((s.takeGrant r l).1.ring r).wadiTx = (s.ring r).wadiTx := by
  induction l generalizing s with
  | nil => exact wadiTx_setRing s r rfl
  | cons x l ih =>
    obtain ⟨n, c⟩ := x
    unfold State.takeGrant
    split
    · dsimp only
      refine Eq.trans ?_ (wadiTx_setRing s r (x := { s.ring r with jrs := l }) rfl)
      unfold State.askEnter State.updCell
      exact congrArg RingSt.wadiTx (State.wri_ring ..)
    · exact (ih _).trans (congrArg RingSt.wadiTx (s.wri_ring ..))

theorem wadiSlots_length (s : State) (n : Int) (r : Nat) (l : List Nat) : (s.wadiSlots n r l).2.length = l.length := by
  induction l generalizing s with
  | nil => rfl
  | cons q l ih =>
    unfold State.wadiSlots
    dsimp only
    rw [List.length_cons, List.length_cons, ih]

/-- The frame interval of a ring's cells ends (R294). -/
def State.wadiInterval (s : State) (r ns : Nat) : State :=
  (List.range 15).foldl (fun s q =>
    if s.enabled (r * 15 + q) then
      (s.intakeCell (r * 15 + q) ns true).updCell (r * 15 + q) (fun x => { x with svc := x.svc.spillCount })
    else s) (s.countReturns r)

theorem wadiInterval_only (s : State) (r ns : Nat) : Only 0x19c3500922003200 s (s.wadiInterval r ns) :=
  Only.foldl (Only.countReturns (Only.refl _ s) r rfl) fun _ _ h => Only.ite (Only.updCell (Only.intakeCell h _ _ _ rfl) _ _ rfl) h

theorem wadiInterval_count (s : State) (r ns : Nat) : (s.wadiInterval r ns).rings.length = s.rings.length := by
  have hfold : (s.wadiInterval r ns).rings = (s.countReturns r).rings :=
    (Only.foldl (M := 0x19c2500922002200) (Only.refl _ _) fun _ _ h =>
      Only.ite (Only.updCell (Only.intakeCell h _ _ _ rfl) _ _ rfl) h).rings rfl
  have hwrap : ∀ (u : State) (l : Nat), (u.wrapLoop r l).rings = u.rings := fun u l =>
    (Only.wrapLoop (M := 0x1100100000001200) (Only.refl _ u) r l rfl).rings rfl
  rw [hfold]
  unfold State.countReturns
  exact (List.length_set ..).trans (by rw [hwrap, hwrap])

theorem wadiInterval_phasesFit {s : State} (h : PhasesFit s) (r ns : Nat) : PhasesFit (s.wadiInterval r ns) := by
  unfold State.wadiInterval
  have h0 : PhasesFit (s.countReturns r) := h.of_only (M := 0x1101100000001200) (Only.countReturns (Only.refl _ _) _ rfl) (by decide)
  generalize s.countReturns r = u at h0
  induction (List.range 15) generalizing u with
  | nil => exact h0
  | cons q l ih =>
    rw [List.foldl_cons]
    refine ih _ ?_
    split
    · exact (h0.intakeCell _ _ _).of_only (State.updCell_only ..) (by decide)
    · exact h0

/-- What a wadi frame that is due finds before it leaves: the time as it was, a mode as it was, this instant as the frame's. -/
structure WadiReady (r : Nat) (s u : State) : Prop where
  tm : u.tm = s.tm
  mode : u.rd TRI_STATUS.MODE = s.rd TRI_STATUS.MODE
  sent : r < s.rings.length → (u.ring r).wadiTx = s.tm.e
  phases : PhasesFit s → PhasesFit u

/-- The frame interval ends, the frame's instant is noted and its header takes a grant, awake (R292, R294). -/
def State.wadiTurn (s : State) (r : Nat) : State × Option Nat :=
  let s := s.wadiInterval r (s.tm.e - (s.ring r).wadiTx)
  let s := s.setRing r { s.ring r with wadiTx := s.tm.e }
  if s.asleep then (s, none) else s.takeGrant r (s.ring r).jrs

theorem wadiTurn_ready (s : State) (r : Nat) : WadiReady r s (s.wadiTurn r).1 := by
  unfold State.wadiTurn
  extract_lets u x v
  have hu : Only 0x19c3500922007200 s u := (wadiInterval_only ..).mono rfl
  have hcount : u.rings.length = s.rings.length := wadiInterval_count ..
  have hfitted : PhasesFit s → PhasesFit u := fun h => wadiInterval_phasesFit h ..
  clear_value u
  have hv : Only 0x19c3500922007200 s v := Only.setRing hu _ _ rfl
  have hsent : r < s.rings.length → (v.ring r).wadiTx = s.tm.e := fun hr => by
    exact (congrArg RingSt.wadiTx (ring_setRing_self (hr.trans_eq hcount.symm) _)).trans (by rw [hu.tm rfl])
  have hfit : PhasesFit s → PhasesFit v := fun h => (hfitted h).of_rd (rdi_of_regs rfl _ 0)
  clear_value v
  split
  · exact ⟨hv.tm rfl, hv.rd _ (by decide), hsent, hfit⟩
  · have hgrant : Only 0x3000000006000 v (v.takeGrant r (v.ring r).jrs).1 := Only.takeGrant (Only.refl _ v) _ _ rfl
    exact ⟨(hgrant.tm rfl).trans (hv.tm rfl), (hgrant.rd _ (by decide)).trans (hv.rd _ (by decide)),
      fun hr => (wadiTx_takeGrant ..).trans (hsent hr), fun h => (hfit h).of_only hgrant (by decide)⟩

theorem WadiReady.slots {r : Nat} {s u : State} (h : WadiReady r s u) (n : Int) (l : List Nat) : WadiReady r s (u.wadiSlots n r l).1 := by
  have only : Only 0x2000000000000 u (u.wadiSlots n r l).1 := Only.wadiSlots (Only.refl _ u) _ _ _ rfl
  have hring : (u.wadiSlots n r l).1.ring r = u.ring r := by
    unfold State.ring
    rw [only.rings rfl]
  exact ⟨(only.tm rfl).trans h.tm, (only.rd _ (by decide)).trans h.mode, fun hr => by rw [hring, h.sent hr],
    fun hfit => (h.phases hfit).of_only only (by decide)⟩

/-- A wadi frame due leaves by the comparison of its copies, its header that of the ring with KIND wadi (R266, R294, R468). -/
theorem exec_wadiFrameDue {s : State} {r : Fin 16} {e : Nat} (hon : s.pwr.mainOn = true) (hrate : s.wadiRate r = true)
    (hdue : (s.ring r).wadiTx + (if s.stage = 3 ∧ s.bit PWR_STATUS.SLEEP = false then 1 else s.rd LINK_WADI_CFG.INTERVAL) * 1000000 ≤
      (s.moveTo e).tm.e) (ag : Agree) :
    ∃ (u : State) (grant : Option Nat) (slots : List Cmd), WadiReady r (s.moveTo e) u ∧ slots.length = 15 ∧
      exec (.wadiFrameDue ⟨r, ag⟩ e) s = .next (u.agreed 1 none ag (fun s => s.sendFrame { s.header r with
        kind := .wadi, period := 0, launchOfs := 0, compact := false, grant := grant } slots) id) := by
  have hrate' : (s.moveTo e).wadiRate r = true := by
    obtain ⟨hstate, hring, hringOn, -⟩ := ringStands_moveTo s e r
    unfold State.wadiRate at hrate ⊢
    rwa [hstate, hring, hringOn]
  have hinterval : (if (s.moveTo e).stage = 3 ∧ (!(s.moveTo e).bit PWR_STATUS.SLEEP) = true then 1
      else (s.moveTo e).rd LINK_WADI_CFG.INTERVAL) =
      if s.stage = 3 ∧ s.bit PWR_STATUS.SLEEP = false then 1 else s.rd LINK_WADI_CFG.INTERVAL := by
    simp [State.stage, State.bit]
  have hring : (s.moveTo e).ring r = s.ring r := (ringStands_moveTo s e r).2.1
  have hexec : execWadiFrameDue ⟨r, ag⟩ e s = .next (
      let g := (s.moveTo e).wadiTurn r
      let w := g.1.wadiSlots g.1.nextTick r (List.range 15)
      w.1.agreed 1 none ag (fun s => s.sendFrame { s.header r with
        kind := .wadi, period := 0, launchOfs := 0, compact := false, grant := g.2.map posOf } w.2) id) := by
    unfold execWadiFrameDue
    rw [s.live_on hon]
    dsimp only
    rw [hinterval, if_neg (by rw [hrate', hring]; simpa using hdue)]
    rfl
  exact ⟨_, _, _, (wadiTurn_ready _ _).slots _ _, wadiSlots_length .., hexec⟩

/-- A header's tick and its ELAPSED are read off the time. -/
theorem header_of_tm {s t : State} (h : t.tm = s.tm) (r : Nat) :
    (t.header r).execTick = s.nextTick ∧ (t.header r).elapsed = (s.header r).elapsed := by
  have hperiod : t.period = s.period := by unfold State.period; rw [h]
  have hstime : t.stime = s.stime := by unfold State.stime; rw [h]
  have htick : t.tickNow = s.tickNow := by unfold State.tickNow; rw [hperiod, hstime, h]
  refine ⟨?_, ?_⟩
  · show t.nextTick = s.nextTick
    unfold State.nextTick
    rw [hperiod, htick, h]
  · show t.tm.e + ((t.tickNow + 1) * (t.period : Int) - t.stime).toNat = s.tm.e + ((s.tickNow + 1) * (s.period : Int) - s.stime).toNat
    rw [hperiod, hstime, htick, h]

/-- A frame leaves on both loops of its ring (R264). -/
theorem sendFrame_out (s : State) (h : FrameHdr) (slots : List Cmd) {l : Nat} (hl : l < 2) :
    Out.link h.ring l (frameCodes h.ty (framePayload h l slots)) ∈ (s.sendFrame h slots).out := by
  have hboth : (s.sendFrame h slots).out = s.out ++ [.link h.ring 0 (frameCodes h.ty (framePayload h 0 slots))] ++
    [.link h.ring 1 (frameCodes h.ty (framePayload h 1 slots))] := rfl
  rw [hboth]
  rcases (by omega : l = 0 ∨ l = 1) with rfl | rfl
  · exact List.mem_append_left _ (List.mem_append_right _ (List.mem_singleton.2 rfl))
  · exact List.mem_append_right _ (List.mem_singleton.2 rfl)

/-! ### The shift that the device starts, and the lock (R295, R296, R301) -/

theorem cellCount_moveTo (s : State) (e : Nat) : (s.moveTo e).cellCount = s.cellCount := by
  unfold State.cellCount State.small
  rw [rd_moveTo]

theorem plant_moveTo (s : State) (e : Nat) : (s.moveTo e).plant = s.plant := by
  have henabled : ∀ c, (s.moveTo e).enabled c = s.enabled c := fun c => by
    unfold State.enabled State.biti
    rw [rdi_of_regs (moveTo_regs s e)]
  unfold State.plant
  rw [cellCount_moveTo]
  exact congrArg (fun f => (List.range 240).filter f) (funext fun c => by rw [henabled])

theorem exec_autoFullRate {s : State} {r : Fin 16} {e : Nat} (hon : s.pwr.mainOn = true) (hstage : s.stage = 3)
    (hawake : s.bit PWR_STATUS.SLEEP = false) (hstate : s.ringState r = 2)
    (hdue : (s.plant.filter (fun c => ringOf c == r)).all (fun c => s.lstate c == 5) = true ∨
      (s.ring r).wadiAt + 10000000000 ≤ (s.moveTo e).tm.e) :
    exec (.autoFullRate r e) s = .next ((s.moveTo e).startShift r) := by
  obtain ⟨hstate', hring, -, -⟩ := ringStands_moveTo s e r
  have hstage' : (s.moveTo e).stage = 3 := (rd_moveTo s e _).trans hstage
  have hawake' : (s.moveTo e).bit PWR_STATUS.SLEEP = false := by
    unfold State.bit at hawake ⊢
    rwa [rd_moveTo]
  have hlstate : ∀ c, (s.moveTo e).lstate c = s.lstate c := fun c => rdi_of_regs (moveTo_regs s e) _ c
  have hall : ((s.moveTo e).plant.filter (fun c => ringOf c == r)).all (fun c => (s.moveTo e).lstate c == 5) =
      (s.plant.filter (fun c => ringOf c == r)).all (fun c => s.lstate c == 5) := by
    rw [plant_moveTo]
    exact congrArg _ (funext fun c => by rw [hlstate])
  show execAutoFullRate r e s = _
  unfold execAutoFullRate
  rw [s.live_on hon]
  dsimp only
  rw [if_pos ⟨hstage', by rw [hawake']; rfl, hstate'.trans hstate, by rw [hall, hring]; exact hdue⟩]

/-- A ring whose record is replaced and whose state changes shows both, and no cell of it changes. -/
theorem setRing_setRingLink {s : State} {r new : Nat} (hr : r < 16) (hlen : s.rings.length = 16) (hnew : new < 8) (x : RingSt) :
    ((s.setRing r x).setRingLink r new).ringState r = new ∧ ((s.setRing r x).setRingLink r new).ring r = x ∧
      ((s.setRing r x).setRingLink r new).cells = s.cells :=
  ⟨ringState_setRingLink _ hr hnew, by rw [ring_setRingLink, ring_setRing_self (hr.trans_eq hlen.symm)],
    (setRingLink_only ..).cells rfl⟩

/-- The code group lock of an enabled ring is in (R295, R301). -/
def State.codeGroupLocked (s : State) (r : Nat) : State :=
  if s.ringState r = 1 then (s.setRing r { s.ring r with wadiAt := s.tm.e, wadiTx := s.tm.e }).setRingLink r 2
  else if s.ringState r = 3 then
    if (s.ring r).wkAt + 300000 < s.tm.e then s.fallBack r
    else
      ((s.setRing r { s.ring r with fullAt := s.tm.e }).setRingLink r 4).mapCells (fun c x => if ringOf c = r then
        { x with link := { x.link with delayA := [], delayB := [], shift := true } } else x)
  else s

theorem exec_codeGroupLock {s : State} {r : Fin 16} (e : Nat) (hon : s.pwr.mainOn = true) (hringOn : s.ringOn r = true) :
    exec (.codeGroupLock r e) s = .next ((s.moveTo e).codeGroupLocked r) := by
  obtain ⟨-, -, hringOn', -⟩ := ringStands_moveTo s e r
  show execCodeGroupLock r e s = _
  unfold execCodeGroupLock
  rw [s.live_on hon]
  dsimp only
  rw [if_neg (by rw [hringOn', hringOn]; decide)]
  rfl

theorem codeGroupLocked_training {s : State} {r : Nat} (hr : r < 16) (hlen : s.rings.length = 16) (hstate : s.ringState r = 1) :
    (s.codeGroupLocked r).ringState r = 2 ∧ ((s.codeGroupLocked r).ring r).wadiAt = s.tm.e ∧ (s.codeGroupLocked r).cells = s.cells := by
  unfold State.codeGroupLocked
  rw [if_pos hstate]
  obtain ⟨hnew, hring, hcells⟩ := setRing_setRingLink hr hlen (by decide : 2 < 8) { s.ring r with wadiAt := s.tm.e, wadiTx := s.tm.e }
  exact ⟨hnew, by rw [hring], hcells⟩

theorem codeGroupLocked_shift {s : State} {r : Nat} (hr : r < 16) (hlen : s.rings.length = 16) (hstate : s.ringState r = 3)
    (htime : s.tm.e ≤ (s.ring r).wkAt + 300000) :
    (s.codeGroupLocked r).ringState r = 4 ∧ ((s.codeGroupLocked r).ring r).fullAt = s.tm.e := by
  unfold State.codeGroupLocked
  rw [if_neg (by omega), if_pos hstate, if_neg (by omega)]
  obtain ⟨hnew, hring, -⟩ := setRing_setRingLink hr hlen (by decide : 4 < 8) { s.ring r with fullAt := s.tm.e }
  generalize (s.setRing r { s.ring r with fullAt := s.tm.e }).setRingLink r 4 = u at hnew hring
  refine ⟨((State.mapCells_only ..).rdi _ r (by decide)).trans hnew, ?_⟩
  have hrings := (u.mapCells_only (fun c x => if ringOf c = r then
    { x with link := { x.link with delayA := [], delayB := [], shift := true } } else x)).rings rfl
  unfold State.ring at hring ⊢
  rw [hrings, hring]

theorem codeGroupLocked_late {s : State} {r : Nat} (hstate : s.ringState r = 3) (hlate : (s.ring r).wkAt + 300000 < s.tm.e) :
    s.codeGroupLocked r = s.fallBack r := by
  unfold State.codeGroupLocked
  rw [if_neg (by omega), if_pos hstate, if_pos hlate]

/-- Settles O23: ring by ring through `RingStands`, the wadi frame through `exec_wadiFrameDue`. -/
theorem linkRateAndRingCommands : Obligations.LinkRateAndRingCommands := by
  unfold Obligations.LinkRateAndRingCommands
  refine ⟨fun s m e r hon hlen => ⟨_, exec_linkGoFull hon m e, ?_⟩, fun s m e r hon hlen hblocked => ⟨_, exec_linkGoWadi hon m e, ?_⟩,
    fun s m e hon hblocked => ⟨_, exec_linkGoWadi hon m e, ?_⟩, fun s r e hon hlen hstate hlate => ⟨(s.moveTo e).fallBack r, ?_, ?_⟩,
    fun s r e hon hlen hstage hawake hringOn hstate hdue =>
      ⟨_, exec_autoFullRate hon hstage hawake hstate hdue, ?_⟩, fun s r e hon hlen hringOn => ⟨_, exec_codeGroupLock e hon hringOn, ?_⟩,
    fun s v e r hon hlen hblocked => ⟨(s.moveTo e).writeRingEn v, congrArg Host.Outcome.next (s.live_on hon), ?_⟩,
    fun s v hon hstarve hlost hdown hlimit => ⟨_, exec_linkCfgWrite hon v, ?_⟩,
    fun s v hon hstarve hlost hdown hlimit => ⟨_, exec_linkCfgWrite hon v, ?_⟩, fun s r e hon hlen hrate hdue => ?_⟩
  · obtain ⟨hstate, hring, hringOn, hrings⟩ := ringStands_moveTo s e r
    obtain ⟨hact, hstand⟩ := goFull_ring (hrings ▸ hlen : (s.moveTo e).rings.length = 16) m r
    rw [hstate, hringOn] at hact hstand
    exact ⟨hact, fun h => ⟨(hstand h).state.trans hstate, (hstand h).ring.trans hring⟩⟩
  · obtain ⟨hstate, hring, hringOn, hrings⟩ := ringStands_moveTo s e r
    obtain ⟨hact, hstand⟩ := goWadi_ring (hrings ▸ hlen : (s.moveTo e).rings.length = 16) (m := m)
      (by simpa only [ringBlocked_moveTo] using hblocked) r
    rw [hstate, hringOn] at hact hstand
    exact ⟨hact, fun h => ⟨(hstand h).state.trans hstate, (hstand h).ring.trans hring⟩⟩
  · have hrefused : (s.moveTo e).goWadi m = (s.moveTo e).refuse LINK_RING_STATUS_r.CFG_ERR := by
      unfold State.goWadi
      exact if_neg (by simpa only [ringBlocked_moveTo, Bool.not_eq_true] using hblocked)
    rw [hrefused]
    refine ⟨rd_refuse_self _ rfl (by decide), by simp, fun r => ?_⟩
    exact (State.rdi_wri_apart _ 0 r 1 (by decide)).trans (ringStands_moveTo s e r).1
  · obtain ⟨hstate', hring, -, -⟩ := ringStands_moveTo s e r
    show execRateChangeTimeout r e s = _
    unfold execRateChangeTimeout
    rw [s.live_on hon]
    dsimp only
    rw [if_pos ⟨hstate'.trans hstate, by rw [hring]; exact hlate⟩]
  · exact fallBack_self r.isLt ((congrArg List.length (s.moveTo_rings e)).trans hlen)
  · obtain ⟨hstate', -, hringOn', hrings⟩ := ringStands_moveTo s e r
    exact startShift_self r.isLt ((congrArg List.length hrings).trans hlen) (hringOn'.trans hringOn) (hstate'.trans hstate)
  · obtain ⟨hstate', hring, -, hrings⟩ := ringStands_moveTo s e r
    have hlen' : (s.moveTo e).rings.length = 16 := (congrArg List.length hrings).trans hlen
    refine ⟨fun hstate => ?_, fun hstate htime => ?_, fun hstate hlate => ?_⟩
    · obtain ⟨hnew, hat, hcells⟩ := codeGroupLocked_training r.isLt hlen' (hstate'.trans hstate)
      exact ⟨hnew, hat, hcells.trans (s.moveTo_cells e)⟩
    · exact codeGroupLocked_shift r.isLt hlen' (hstate'.trans hstate) (by rw [hring]; exact htime)
    · rw [codeGroupLocked_late (hstate'.trans hstate) (by rw [hring]; exact hlate)]
      exact fallBack_self r.isLt hlen'
  · obtain ⟨hstate, hring, -, -⟩ := ringStands_moveTo s e r
    have hblocked' : ∀ q, (s.moveTo e).ringBlocked q = true := fun q => (ringBlocked_moveTo s e q).trans (hblocked q)
    have hcount : (s.moveTo e).ringCount = s.ringCount := by unfold State.ringCount State.small; rw [rd_moveTo]
    obtain ⟨hchange, hstand⟩ := writeRingEn_ring (v := v) hblocked' r
    rw [hcount, rd_moveTo] at hchange hstand
    refine ⟨(writeRingEn_enable hblocked').trans (by rw [hcount]), fun hnew hold => ?_, fun hnew hold => ?_, fun h => ?_⟩
    · simpa only [hnew, if_true] using hchange (by rw [hnew, hold]; decide)
    · simpa only [hnew, Bool.false_eq_true, if_false] using (hchange (by rw [hnew, hold]; decide)).1
    · exact ⟨(hstand h).1.trans hstate, (hstand h).2.trans hring⟩
  · have hrange : inRange LINK_CFG.STARVE_TICKS.base v = true := by
      have h5 := bits_lt v 24 5
      have h4 := bits_lt v 20 4
      have h4' := bits_lt v 16 4
      rw [inRange_at linkCfg_found]
      show (decide (2 ≤ bits v 24 5) && decide (bits v 24 5 ≤ 31) && (decide (2 ≤ bits v 20 4) && decide (bits v 20 4 ≤ 15) &&
        (decide (2 ≤ bits v 16 4) && decide (bits v 16 4 ≤ 15) && true))) = true
      simp only [Bool.and_eq_true, decide_eq_true_eq, and_true]
      omega
    obtain ⟨hput, hputLost, hputDown, -⟩ := putRw_linkCfg s v
    rw [writeLinkCfg_high hlimit, if_pos hrange]
    exact ⟨hput, hputLost, hputDown⟩
  · rw [writeLinkCfg_low hlimit]
    refine ⟨(State.rd_wr_apart _ 1 (by decide)).trans (rd_refuse_self s rfl (by decide)), ?_⟩
    exact (State.rd_wr_apart _ 1 (by decide)).trans (s.rd_wr_apart 1 (by decide))
  · obtain ⟨u, grant, slots, hready, hslots, hexec⟩ := exec_wadiFrameDue hon hrate hdue .all
    obtain ⟨htick, helapsed⟩ := header_of_tm hready.tm r
    rw [agreed_all] at hexec
    refine ⟨_, hexec, ?_, { u.header r with kind := .wadi, period := 0, launchOfs := 0, compact := false, grant := grant }, slots,
      hslots, rfl, rfl, rfl, rfl, rfl, htick, helapsed, fun l hl => sendFrame_out u _ slots hl⟩
    · exact hready.sent (r.isLt.trans_eq ((congrArg List.length (s.moveTo_rings e)).trans hlen).symm)

end Sys2Proof.Machine
end

section
/-! PROOFS. The vote on an input that one member takes differently (13_control_triad.md R466, R467): O54's inputs. -/
namespace Sys2Proof.Machine
open Reg

/-! ### A member's count of lost votes -/

theorem lostVote_only (s : State) (m : Nat) : Only 0x400 s (s.lostVote m) := Only.lostVote (Only.refl _ s) m rfl

/-- A count of eight bits goes up by one, and stays at its end. -/
theorem rd_inc_byte (s : State) {f : Fld} (hw : f.w = 8) (hc : 0 < f.count) : (s.inc f 1).rd f = min 255 (s.rd f + 1) := by
  have hinc : s.inc f 1 = s.wr f (satAdd (2 ^ f.w - 1) (s.rd f) 1) := rfl
  rw [hinc, s.rd_wr_self _ hc, hw]
  unfold satAdd
  omega

/-- Moving the time and a register's write do not meet. -/
theorem moveTo_wri (s : State) (e : Nat) (f : Fld) (i v : Nat) : (s.wri f i v).moveTo e = (s.moveTo e).wri f i v := by
  unfold State.wri
  split
  · rw [moveTo_regs]
    unfold State.moveTo
    dsimp only
    split
    · rfl
    · split
      · rfl
      · split <;> rfl
  · rfl

theorem moveTo_lostVote (s : State) (e m : Nat) : (s.lostVote m).moveTo e = (s.moveTo e).lostVote m := by
  have hwrite : ∀ (u : State) (f : Fld), u.inc f 1 = u.wri f 0 (satAdd (2 ^ f.w - 1) (u.rd f) 1) := fun _ _ => rfl
  unfold State.lostVote
  rw [hwrite, hwrite, moveTo_wri, rd_moveTo]

theorem running_moveTo (s : State) (e m : Nat) : (s.moveTo e).running m = s.running m := by
  simp only [State.running, rd_moveTo]

/-! ### The vote -/

/-- One copy of three that differs from the value `x` of the others loses the vote. -/
def Outvotes (vote : Int → Int → Int → Int) (x : Int) : Prop := ∀ y, vote y x x = x ∧ vote x y x = x ∧ vote x x y = x

theorem median3_outvotes (x : Int) : Outvotes median3 x := fun y => by
  unfold median3
  omega

theorem majority3_outvotes (n : Nat) : Outvotes majority3 n := fun y => by
  have hbits : ∀ k : Nat, (k &&& n ||| k &&& n) ||| n &&& n = n ∧ (n &&& k ||| n &&& n) ||| k &&& n = n ∧
      (n &&& n ||| n &&& k) ||| n &&& k = n := fun k => by
    refine ⟨?_, ?_, ?_⟩ <;>
    · refine Nat.eq_of_testBit_eq fun i => ?_
      simp only [Nat.testBit_or, Nat.testBit_and]
      cases n.testBit i <;> simp
  obtain ⟨h0, h1, h2⟩ := hbits y.toNat
  exact ⟨congrArg Nat.cast h0, congrArg Nat.cast h1, congrArg Nat.cast h2⟩

/-- With three members running, the copy that differs alone loses the vote and is counted (R466, R467). -/
theorem voted_odd {s : State} (hrun : ∀ k, k < 3 → s.running k = true) {vote : Int → Int → Int → Int} {x y : Int}
    (hvote : Outvotes vote x) (hne : y ≠ x) (m : Member) :
    s.voted vote (fun k => if k = memberNum m then y else x) = (s.lostVote (memberNum m), x) := by
  have hall : (List.range 3).filter s.running = [0, 1, 2] :=
    List.filter_eq_self.2 fun k hk => hrun k (List.mem_range.1 hk)
  have hwon : vote (if 0 = memberNum m then y else x) (if 1 = memberNum m then y else x) (if 2 = memberNum m then y else x) = x := by
    obtain ⟨ha, hb, hc⟩ := hvote y
    cases m <;> assumption
  unfold State.voted
  rw [hall]
  dsimp only
  rw [hwon]
  cases m <;> simp [memberNum, List.range_succ, hne]

/-- With A and B running, copies that differ are settled for one of the two (log entry 103). -/
theorem voted_pair {s : State} (hA : s.running 0 = true) (hB : s.running 1 = true) (hC : s.running 2 = false)
    (vote : Int → Int → Int → Int) {v : Nat → Int} (hne : v 0 ≠ v 1) :
    s.voted vote v = (s.used.lostVote 1, v 0) ∨ s.voted vote v = (s.used.lostVote 0, v 1) := by
  have htwo : (List.range 3).filter s.running = [0, 1] := by
    simp [List.range_succ, List.filter, hA, hB, hC]
  unfold State.voted
  rw [htwo]
  dsimp only
  rw [if_neg hne]
  split
  · exact .inl rfl
  · exact .inr rfl

/-- The copies of a value that one member takes as `y`. -/
theorem copyOf_one {α : Type} (m : Member) (x y : α) (k : Nat) : copyOf [(m, y)] x k = if k = memberNum m then y else x := by
  unfold copyOf
  rw [List.find?_singleton]
  by_cases hk : k = memberNum m
  · rw [if_pos hk, if_pos (by simp [hk])]
  · rw [if_neg hk, if_neg (by simpa using Ne.symm hk)]

/-! ### DOORBELL, REGISTER_WRITE and RC_FIELD_READ -/

theorem exec_doorbell {s : State} (hon : s.pwr.mainOn = true) (r : Fin 64) (x : BellIn) :
    exec (.doorbell r x) s = .next (
      (s.voted median3 (fun m => sgn 32 (copyOf x.skew x.value m))).1.ringDoorbell r
        (unsg 32 (s.voted median3 (fun m => sgn 32 (copyOf x.skew x.value m))).2)) :=
  congrArg Host.Outcome.next (s.live_on hon)

/-- A doorbell whose copies agree takes the value as the members' number (R466). -/
theorem exec_doorbell_agree {s : State} (hon : s.pwr.mainOn = true) (r : Fin 64) (v : Nat) :
    exec (.doorbell r ⟨v, []⟩) s = .next (s.ringDoorbell r (unsg 32 (sgn 32 v))) := by
  have hcopy : (fun m => sgn 32 (copyOf ([] : List (Member × Nat)) v m)) = fun _ => sgn 32 v := rfl
  rw [exec_doorbell hon, hcopy, voted_agree s (median3_self _)]

theorem exec_doorbell_odd {s : State} (hon : s.pwr.mainOn = true) (hrun : ∀ k, k < 3 → s.running k = true) (r : Fin 64) {v w : Nat}
    (hne : sgn 32 w ≠ sgn 32 v) (m : Member) :
    exec (.doorbell r ⟨v, [(m, w)]⟩) s = exec (.doorbell r ⟨v, []⟩) (s.lostVote (memberNum m)) := by
  have hcopy : (fun k => sgn 32 (copyOf [(m, w)] v k)) = fun k => if k = memberNum m then sgn 32 w else sgn 32 v :=
    funext fun k => by rw [copyOf_one, apply_ite (sgn 32)]
  rw [exec_doorbell hon, hcopy, voted_odd hrun (median3_outvotes _) hne,
    exec_doorbell_agree (s := s.lostVote _) (by rw [(lostVote_only ..).pwr rfl, hon])]

theorem exec_doorbell_pair {s : State} (hon : s.pwr.mainOn = true) (hA : s.running 0 = true) (hB : s.running 1 = true)
    (hC : s.running 2 = false) (r : Fin 64) {v w : Nat} (hne : sgn 32 w ≠ sgn 32 v) :
    exec (.doorbell r ⟨v, [(.b, w)]⟩) s = exec (.doorbell r ⟨v, []⟩) (s.used.lostVote 1) ∨
      exec (.doorbell r ⟨v, [(.b, w)]⟩) s = exec (.doorbell r ⟨w, []⟩) (s.used.lostVote 0) := by
  have hon' : ∀ m, (s.used.lostVote m).pwr.mainOn = true := fun m => by rw [(lostVote_only ..).pwr rfl]; exact hon
  rw [exec_doorbell hon, exec_doorbell_agree (hon' 1), exec_doorbell_agree (hon' 0)]
  have hvote := voted_pair hA hB hC median3 (v := fun k => sgn 32 (copyOf [(Member.b, w)] v k))
    (by rw [copyOf_one, copyOf_one]; exact Ne.symm hne)
  refine hvote.imp (fun h => ?_) (fun h => ?_)
  · rw [h]; rfl
  · rw [h]; rfl

theorem exec_hostWrite {s : State} (hon : s.pwr.mainOn = true) (off be : Nat) (x : WordIn) (e : Nat) :
    exec (.registerWrite .host off be x e) s = .next (
      let r := (s.moveTo e).votedWrite ⟨off, be, x.value % 2 ^ 32⟩ x.skew
      r.1.regWrite .host r.2.off r.2.be r.2.value) :=
  congrArg Host.Outcome.next (s.live_on hon)

/-- The vote of a host's write in which one member's copy differs alone, in its address or in its data (R466, R467). -/
theorem votedWrite_odd {s : State} (hrun : ∀ k, k < 3 → s.running k = true) (off off' be : Nat) {v : Nat} (w : Nat) (hv : v < 2 ^ 32)
    (m : Member) (hone : (off' ≠ off ∧ w = v) ∨ (off' = off ∧ sgn 32 w ≠ sgn 32 v)) :
    s.votedWrite ⟨off, be, v⟩ [(m, ⟨off', be, w⟩)] = (s.lostVote (memberNum m), ⟨off, be, v⟩) := by
  have hoff : (fun k => ((copyOf [(m, (⟨off', be, w⟩ : WriteCopy))] ⟨off, be, v⟩ k).off : Int)) =
      fun k => if k = memberNum m then (off' : Int) else off :=
    funext fun k => by rw [copyOf_one]; split <;> rfl
  have hbe : (fun k => ((copyOf [(m, (⟨off', be, w⟩ : WriteCopy))] ⟨off, be, v⟩ k).be : Int)) = fun _ => (be : Int) :=
    funext fun k => by rw [copyOf_one]; split <;> rfl
  have hval : (fun k => sgn 32 (copyOf [(m, (⟨off', be, w⟩ : WriteCopy))] ⟨off, be, v⟩ k).value) =
      fun k => if k = memberNum m then sgn 32 w else sgn 32 v :=
    funext fun k => by rw [copyOf_one]; split <;> rfl
  unfold State.votedWrite
  dsimp only
  rw [hoff, hbe, hval]
  rcases hone with ⟨hne, rfl⟩ | ⟨rfl, hne⟩
  · rw [voted_odd hrun (majority3_outvotes off) (by exact_mod_cast hne)]
    simp only [ite_self, voted_agree _ (majority3_self _), voted_agree _ (median3_self _), Int.toNat_natCast, unsg_sgn_of_lt hv]
  · simp only [ite_self, voted_agree _ (majority3_self _), voted_odd hrun (median3_outvotes _) hne, Int.toNat_natCast, unsg_sgn_of_lt hv]

theorem exec_hostWrite_odd {s : State} (hon : s.pwr.mainOn = true) (hrun : ∀ k, k < 3 → s.running k = true) (off off' be v w e : Nat)
    (m : Member) (hone : (off' ≠ off ∧ w = v % 2 ^ 32) ∨ (off' = off ∧ sgn 32 w ≠ sgn 32 (v % 2 ^ 32))) :
    exec (.registerWrite .host off be ⟨v, [(m, ⟨off', be, w⟩)]⟩ e) s =
      exec (.registerWrite .host off be ⟨v, []⟩ e) (s.lostVote (memberNum m)) := by
  have hv : v % 2 ^ 32 < 2 ^ 32 := Nat.mod_lt _ (by decide)
  rw [exec_hostWrite hon, exec_hostWrite (s := s.lostVote _) (by rw [(lostVote_only ..).pwr rfl, hon]), moveTo_lostVote,
    votedWrite_odd (fun k hk => (running_moveTo s e k).trans (hrun k hk)) off off' be w hv m hone, votedWrite_agree _ hv]

/-- A register without an RC field loses nothing to a read (R14). -/
theorem clearRc_none (s : State) (i : Nat) {l : List FieldRow} (hl : ∀ y ∈ l, y.acc ≠ .rc) : s.clearRc i l = s := by
  induction l with
  | nil => rfl
  | cons r l ih =>
    unfold State.clearRc
    rw [if_neg (by simpa using hl r List.mem_cons_self)]
    exact ih fun y hy => hl y (List.mem_cons_of_mem _ hy)

/-- The vote on what firmware reads of a register that is no number: one sample that differs alone loses (R466, R467). -/
theorem give_odd {s : State} (hrun : ∀ k, k < 3 → s.running k = true) {off v w : Nat} (hword : numberWord off = false) (hne : w ≠ v)
    (m : Member) : s.give .firmware ⟨off, [(m, w)]⟩ v = (s.lostVote (memberNum m)).emit (.readData .firmware off v) := by
  have hcopy : (fun k => ((copyOf [(m, w)] v k : Nat) : Int)) = fun k => if k = memberNum m then (w : Int) else v :=
    funext fun k => by rw [copyOf_one]; split <;> rfl
  unfold State.give
  rw [if_pos ⟨rfl, by simp⟩]
  dsimp only
  rw [hword, hcopy, voted_odd hrun (majority3_outvotes v) (by exact_mod_cast hne)]
  rfl

theorem exec_firmwareRead_odd {s : State} (hon : s.pwr.mainOn = true) (hrun : ∀ k, k < 3 → s.running k = true) {off w : Nat} (e : Nat)
    (m : Member) {x : RegRow} (h4 : off % 4 = 0) (hx : regAt off = some x) (habs : s.absentReg x ((off - x.base) / 4) = false)
    (hplain : ∀ y ∈ x.fields, y.acc ≠ .rc ∧ y.f.w ≠ 32) (hlook : (s.moveTo e).lookedAt off = s.moveTo e)
    (hE : off ≠ CLK_ELAPSED_LO.E_LO.base) (hO : off ≠ CLK_ALIGN_OFS_LO.O_LO.base) (hM : off ≠ MTR_PORT_DATA_n.W.base)
    (hne : w ≠ s.readWord .firmware off) :
    exec (.rcFieldRead .firmware ⟨off, [(m, w)]⟩ e) s =
      .next (((s.moveTo e).lostVote (memberNum m)).emit (.readData .firmware off (s.readWord .firmware off))) := by
  have hblock : off / 65536 < 41 := (Only.regAt_ok hx).2.2
  have hword : numberWord off = false := by
    unfold numberWord
    rw [hx]
    simpa using fun y hy => (hplain y hy).2
  show execRcFieldRead .firmware ⟨off, [(m, w)]⟩ e s = _
  unfold execRcFieldRead
  rw [s.live_on hon]
  dsimp only
  rw [admits_moveTo, if_neg (by simp [State.admits]), if_neg (by omega), if_neg (by omega), if_neg hE, if_neg hO, if_neg hM, hx]
  dsimp only
  rw [absentReg_moveTo, habs, if_neg Bool.false_ne_true, clearRc_none _ _ fun y hy => (hplain y hy).1]
  unfold State.lookedAt at hlook
  rw [hlook, readWord_moveTo, give_odd (fun k hk => (running_moveTo s e k).trans (hrun k hk)) hword hne]

end Sys2Proof.Machine
end

section
/-! PROOFS. An output on which the members' copies differ (13_control_triad.md R23, R468, R471, R475), and O54 from it and the votes. -/
namespace Sys2Proof.Machine
open Reg

/-- The state in which an output is formed that the comparison does not pass unseen: an address left open has been drawn. -/
def State.compared (s : State) (at_ : Option Nat) : State := if at_ = none then s.used else s

/-- In TRIPLEX an output that one member forms differently leaves, and fences that member (R468, R471). -/
theorem agreed_odd {s : State} (hmode : s.rd TRI_STATUS.MODE = 1) (kind : Nat) (at_ : Option Nat) (m : Member) (out lost : State → State) :
    s.agreed kind at_ (.odd m) out lost =
      (out (s.compared at_)).fence (memberNum m) kind (at_.getD (s.freeVal 9 % 2 ^ 24)) := by
  unfold State.agreed State.compared
  simp only [hmode, ne_eq, reduceCtorEq, not_false_eq_true, and_true, if_true]

/-- In TRIPLEX an output on which no two agree does not leave (R468, R475). -/
theorem agreed_split {s : State} (hmode : s.rd TRI_STATUS.MODE = 1) (kind : Nat) (at_ : Option Nat) (out lost : State → State) :
    s.agreed kind at_ .split out lost = (lost (s.compared at_)).secondMismatch kind (at_.getD (s.freeVal 9 % 2 ^ 24)) := by
  unfold State.agreed State.compared
  simp only [hmode, ne_eq, reduceCtorEq, not_false_eq_true, and_true, if_true]

/-- What a member's fencing shows that is not its third within the hour (R471). -/
theorem fence_shown {s : State} {m : Member} {kind : Nat} (addr : Nat) (hkind : kind < 8)
    (hpast : ((s.tri.fences.getD (memberNum m) []).filter (fun x => decide (s.tm.e < x + 3600000000000))).length < 2) :
    (s.fence (memberNum m) kind addr).rd TRI_STATUS.MODE = 2 ∧ (s.fence (memberNum m) kind addr).rd TRI_STATUS.FENCED = memberNum m ∧
      (s.fence (memberNum m) kind addr).rd TRI_MISMATCH_LOG.KIND = kind ∧
      (s.fence (memberNum m) kind addr).rd TRI_MISMATCH_LOG.ADDR = addr % 2 ^ 24 := by
  obtain ⟨hshown, hfenced, -⟩ := fence_spec s (memberNum m) kind addr (mn m) hkind
  obtain ⟨hmode, hmember, -, -, -, haddr, -⟩ := hfenced hpast
  exact ⟨hmode, hmember, hshown, haddr⟩

theorem fence_only (s : State) (m kind addr : Nat) : Only 0x1100300200000600 s (s.fence m kind addr) :=
  Only.fence (Only.refl _ s) _ _ _ rfl

/-! ### S3_DEADLINE: the tick's frames (R38, R264, R468) -/

theorem commitTick_only (s : State) : Only 0x19aa100002010200 s s.commitTick := Only.commitTick (Only.refl _ s) rfl

theorem closeCycle_only (s : State) : Only 0x1982100002010200 s s.closeCycle := Only.closeCycle (Only.refl _ s) rfl

theorem noLaunch_only (s : State) : Only 0x112210000003c200 s s.noLaunch := Only.noLaunch (Only.refl _ s) rfl

theorem launchBy_only (s : State) (kind : FrameKind) : Only 0x196e50012013c200 s (s.launchBy kind) := Only.launchBy (Only.refl _ s) kind rfl

/-- The commit of a tick leaves what was launched. -/
theorem commitTick_launched (s : State) : s.commitTick.sched.launched = s.sched.launched := by
  unfold State.commitTick
  split
  · dsimp only
    split
    · rw [(closeCycle_only _).sched rfl]
    · rfl
  · rfl

/-- What a launch leaves: what its frames are, in the records and in the two flags; the time goes on as it was (R38). -/
structure Launched (kind : FrameKind) (s t : State) : Prop where
  launched : t.sched.launched = kind
  shownRepeat : t.rd CLK_TICK_STATUS.REPEAT = b2n (kind == .repeated)
  shownHold : t.rd CLK_TICK_STATUS.HOLD = b2n (kind == .hold)
  instant : t.tm.e = s.tm.e
  fences : t.tri = s.tri

theorem launch_launched (s : State) : Launched s.launchKind s s.launch := by
  unfold State.launch
  extract_lets kind u pend tm sched v w
  change Launched kind s _
  clear_value kind
  have htm : u.tm = s.tm := (launchBy_only s kind).tm rfl
  have htri : u.tri = s.tri := (launchBy_only s kind).tri rfl
  clear_value u
  have hflags : w.rd CLK_TICK_STATUS.REPEAT = b2n (kind == .repeated) ∧ w.rd CLK_TICK_STATUS.HOLD = b2n (kind == .hold) := by
    simp only [w]
    clear_value v
    have hbit : ∀ b, b2n b % 2 = b2n b := by decide
    exact ⟨(State.rd_wr_apart _ _ (by decide)).trans ((v.rd_wr_self _ (by decide)).trans (hbit _)),
      (State.rd_wr_self _ _ (by decide)).trans (hbit _)⟩
  have hstands : w.sched.launched = kind ∧ w.tm.e = s.tm.e ∧ w.tri = s.tri := by
    refine ⟨?_, ?_, ?_⟩
    · simp only [w, State.wr_sched, v]
    · simp only [w, State.wr_tm, v, tm, htm]
    · simp only [w, State.wr_tri, v, htri]
  clear_value w
  have hframes : Only 0x1003000000006000 w ((w.ringsOn.filter w.framed).foldl (fun s r => s.launchRing kind r) w) :=
    Only.foldl (Only.refl _ w) fun _ _ h => Only.launchRing h _ _ rfl
  obtain ⟨hlaunched, hinstant, hfences⟩ := hstands
  exact ⟨by rw [hframes.sched rfl, hlaunched], (hframes.rd _ (by decide)).trans hflags.1, (hframes.rd _ (by decide)).trans hflags.2,
    by rw [hframes.tm rfl, hinstant], by rw [hframes.tri rfl, hfences]⟩

/-- An undisturbed tick that has its decision launches NORMAL frames (R38). -/
theorem launchKind_normal {s : State} (hhalt : s.halted = false) (hover : s.tm.launchOver = false) (hplan : s.sched.plan ≠ none) :
    s.launchKind = .normal := by
  unfold State.launchKind
  rw [if_neg (by rw [hhalt]; decide), if_neg (by rw [hover]; decide), if_neg hplan]

/-- The state that the S3 deadline of a tick finds: the time has come to it, the work of the stage is counted. -/
def State.atLaunch (s : State) (used e : Nat) : State := (s.moveTo e).stageUsed 3 used false

theorem atLaunch_normal {s : State} {used e : Nat} (hhalt : s.halted = false) (hover : s.tm.launchOver = false) (hplan : s.sched.plan ≠ none) :
    (s.atLaunch used e).launchKind = .normal := by
  refine launchKind_normal ((mt_halted s e).trans hhalt) ?_ ?_
  · show (s.moveTo e).tm.launchOver = false
    rw [(moveTo_sim s e).1]
    exact hover
  · show (s.moveTo e).sched.plan ≠ none
    rw [State.moveTo_sched]
    exact hplan

/-- The deadline of stage `n` lies behind the tick. -/
def State.passed (s : State) (n : Nat) : State := { s with tm := { s.tm with phase := n + 1 } }

theorem atDeadline_due {s : State} {e n : Nat} {g : State → State} (hrun : s.tm.run = true) (hphase : s.tm.phase = n)
    (hdue : s.deadline n ≤ (s.moveTo e).tm.e) : (s.moveTo e).atDeadline n g = (g (s.moveTo e)).passed n := atD hrun hphase hdue

/-- S3_DEADLINE of a tick that is not abandoned, its stage done: the frames pass the comparison (R38, R468). -/
theorem exec_s3Deadline {s : State} {e : Nat} (hon : s.pwr.mainOn = true) (hrun : s.tm.run = true) (hphase : s.tm.phase = 3)
    (hdue : s.deadline 3 ≤ (s.moveTo e).tm.e) (hwhole : s.tm.abandoned = false) (hup : s.pwr.shutdown = false) (ag : Agree) (used : Nat) :
    exec (.s3Deadline ⟨true, ag⟩ used e) s =
      .next (((s.atLaunch used e).agreed 1 none ag State.launch State.noLaunch).commitTick.passed 3) := by
  have hwhole' : (s.moveTo e).tm.abandoned = false := by rw [(moveTo_sim s e).1]; exact hwhole
  have hup' : (s.moveTo e).pwr.shutdown = false := by rw [State.moveTo_pwr, hup]
  refine congrArg Host.Outcome.next ((s.live_on hon).trans ((atDeadline_due hrun hphase hdue).trans (congrArg (State.passed · 3) ?_)))
  dsimp only
  rw [hwhole', if_neg (c := (!true) = true ∧ _) (by simp), if_neg (c := ((s.moveTo e).stageUsed 3 _ _).pwr.shutdown = true)
    (by show ¬(s.moveTo e).pwr.shutdown = true; rw [hup']; decide)]
  rfl

/-- A launch on which one member differs: the frames leave as in an undisturbed tick, and the member is fenced (R38, R468, R471). -/
theorem s3Deadline_odd {s : State} {e used : Nat} {m : Member} (hmode : s.rd TRI_STATUS.MODE = 1) (hover : s.tm.launchOver = false)
    (hhalt : s.halted = false) (hplan : s.sched.plan ≠ none)
    (hpast : ((s.tri.fences.getD (memberNum m) []).filter (fun x => decide ((s.moveTo e).tm.e < x + 3600000000000))).length < 2) :
    let t := ((s.atLaunch used e).agreed 1 none (.odd m) State.launch State.noLaunch).commitTick
    t.sched.launched = .normal ∧ t.rd TRI_STATUS.MODE = 2 ∧ t.rd TRI_STATUS.FENCED = memberNum m ∧ t.rd TRI_MISMATCH_LOG.KIND = 1 := by
  have hmode' : (s.atLaunch used e).rd TRI_STATUS.MODE = 1 := (rd_moveTo s e _).trans hmode
  have hkind : (s.atLaunch used e).used.launchKind = .normal := atLaunch_normal hhalt hover hplan
  have hlaunch := launch_launched (s.atLaunch used e).used
  rw [hkind] at hlaunch
  have htri : (s.atLaunch used e).used.tri = s.tri := s.moveTo_tri e
  have htime : (s.atLaunch used e).used.tm.e = (s.moveTo e).tm.e := rfl
  dsimp only
  have hdrawn : (s.atLaunch used e).compared none = (s.atLaunch used e).used := rfl
  rw [agreed_odd hmode', hdrawn]
  generalize (s.atLaunch used e).used = u at hlaunch htri htime
  generalize (none : Option Nat).getD _ = addr
  obtain ⟨hfmode, hfenced, hkind, -⟩ := fence_shown (s := u.launch) (m := m) addr (by decide : 1 < 8)
    (by rw [hlaunch.fences, hlaunch.instant, htri, htime]; exact hpast)
  refine ⟨?_, ((commitTick_only _).rd _ (by decide)).trans hfmode, ((commitTick_only _).rd _ (by decide)).trans hfenced,
    ((commitTick_only _).rd _ (by decide)).trans hkind⟩
  rw [commitTick_launched, (fence_only ..).sched rfl, hlaunch.launched]

/-- A second mismatch after the output is dropped: TRIAD is latched, and all phases stay blocked (R475). -/
theorem second_shown {s : State} (hfit : PhasesFit s) {kind : Nat} (hkind : kind < 8) (addr : Nat) :
    (s.secondMismatch kind addr).rd SLC_TRIP_LATCH.TRIAD = 1 ∧ (s.secondMismatch kind addr).rd SLC_BLOCK_STATUS.SCOPE = 3 ∧
      (s.secondMismatch kind addr).rd TRI_MISMATCH_LOG.MEMBER = 3 ∧ (s.secondMismatch kind addr).rd TRI_MISMATCH_LOG.KIND = kind := by
  obtain ⟨hmember, hlogged, htriad, hscope, -⟩ := second_spec s kind addr hkind hfit
  exact ⟨htriad, hscope, hmember, hlogged⟩

/-- A launch on which no two members agree does not leave, and TRIAD is latched (R468, R475). -/
theorem s3Deadline_split {s : State} {e used : Nat} (hmode : s.rd TRI_STATUS.MODE = 1) (hfit : PhasesFit s) :
    let t := ((s.atLaunch used e).agreed 1 none .split State.launch State.noLaunch).commitTick
    t.rd SLC_TRIP_LATCH.TRIAD = 1 ∧ t.rd SLC_BLOCK_STATUS.SCOPE = 3 ∧ t.rd TRI_MISMATCH_LOG.MEMBER = 3 ∧
      t.rd TRI_MISMATCH_LOG.KIND = 1 := by
  have hmode' : (s.atLaunch used e).rd TRI_STATUS.MODE = 1 := (rd_moveTo s e _).trans hmode
  have hfit' : PhasesFit ((s.atLaunch used e).compared none) := hfit.of_rd (rd_moveTo s e _)
  dsimp only
  rw [agreed_split hmode']
  obtain ⟨htriad, hscope, hmember, hkind⟩ := second_shown (hfit'.of_only (noLaunch_only _) (by decide)) (by decide : 1 < 8)
    ((none : Option Nat).getD ((s.atLaunch used e).freeVal 9 % 2 ^ 24))
  exact ⟨((commitTick_only _).rd _ (by decide)).trans htriad, ((commitTick_only _).rd _ (by decide)).trans hscope,
    ((commitTick_only _).rd _ (by decide)).trans hmember, ((commitTick_only _).rd _ (by decide)).trans hkind⟩

/-! ### COMPLETION_POST (R468, R510) -/

/-- What waits for the host and what has been put outside stands: the completions wait as before, nothing is taken back. -/
structure HostStands (s t : State) : Prop where
  comps : t.hst.comps = s.hst.comps
  out : s.out <+: t.out

namespace HostStands
variable {s t u : State}

theorem trans (h : HostStands s t) (g : HostStands t u) : HostStands s u := ⟨g.comps.trans h.comps, h.out.trans g.out⟩

theorem of_eq (hhst : t.hst = s.hst) (hout : t.out = s.out) : HostStands s t := ⟨by rw [hhst], hout ▸ List.prefix_rfl⟩

theorem wr (s : State) (f : Fld) (v : Nat) : HostStands s (s.wr f v) := of_eq (s.wr_hst f v) (s.wr_out f v)

theorem moveLead (s : State) : HostStands s s.moveLead := by
  refine ⟨by rw [moveLead_hst], ?_⟩
  unfold State.moveLead
  dsimp only
  split
  · exact List.prefix_rfl
  · split
    · exact (wr s _ _).out.trans (List.prefix_append _ _)
    · exact List.prefix_rfl

theorem triadCommit (s : State) (reason m kind addr : Nat) : HostStands s (s.triadCommit reason m kind addr) := by
  unfold State.triadCommit
  split
  · exact of_eq rfl rfl
  · exact ⟨(s.post_kept 0x50 _).comps, s.post_out 0x50 _⟩

theorem holdMember (s : State) (m kind addr : Nat) : HostStands s (s.holdMember m kind addr) := by
  unfold State.holdMember
  exact ((((((wr s _ _).trans (wr _ _ _)).trans (wr _ _ _)).trans (wr _ _ _)).trans (wr _ _ _)).trans (moveLead _)).trans
    (triadCommit ..)

theorem fence (s : State) (m kind addr : Nat) : HostStands s (s.fence m kind addr) := by
  unfold State.fence
  extract_lets past u tri v w x
  have hu : HostStands s u := ((((wr s _ _).trans (wr _ _ _)).trans (wr _ _ _)).trans (wr _ _ _)).trans (wr _ _ _)
  have hv : HostStands u v := of_eq rfl rfl
  have hw : HostStands v w := ((wr v _ _).trans (wr _ _ _)).trans (wr _ _ _)
  have hx : HostStands s x := ((hu.trans hv).trans hw).trans ((moveLead w).trans (triadCommit ..))
  split
  · exact hx.trans (holdMember ..)
  · exact hx

end HostStands

theorem exec_completionPost {s : State} {r : Fin 64} {c : Completion} {p : Nat} (hon : s.pwr.mainOn = true)
    (hwaits : s.hst.comps.find? (fun c => c.cring == r.val) = some c) (htype : s.rdi RING_CFG_n.TYPE r = 1)
    (hopen : s.ringOpen r 1 = true) (hup : s.pwr.pfAt = none) (hphys : s.entryPhys r (s.rdi RING_STATE_n.CONS r) = some (.ok p))
    (ag : Agree) :
    exec (.completionPost ⟨r, ag⟩) s = .next (s.agreed 0 (some (p % 2 ^ 24)) ag (fun s => s.writeCompletion r c p)
      (fun s => { s with hst := { s.hst with comps := s.hst.comps.erase c } })) := by
  refine congrArg Host.Outcome.next ((s.live_on hon).trans ?_)
  rw [hwaits]
  dsimp only
  rw [if_neg (by simp [htype, hopen, hup]), hphys]

/-- A completion that is written has left, and no longer waits (R507, R510). -/
theorem writeCompletion_shown (s : State) (r : Nat) (c : Completion) (p : Nat) :
    (s.writeCompletion r c p).hst.comps = s.hst.comps.erase c ∧
      Out.completion p (completionBytes (s.phaseBit r (s.rdi RING_STATE_n.CONS r)) c) ∈ (s.writeCompletion r c p).out := by
  unfold State.writeCompletion
  extract_lets ctr hst u v
  have hv : v.hst.comps = s.hst.comps.erase c ∧ Out.completion p (completionBytes (s.phaseBit r ctr) c) ∈ v.out := by
    simp only [v, State.wri_hst, State.wri_out]
    exact ⟨rfl, List.mem_append_right _ (List.mem_singleton.2 rfl)⟩
  clear_value v
  have hflight : HostStands v (v.flight c.ring false) := by
    unfold State.flight
    rw [if_neg Bool.false_ne_true]
    exact .of_eq ((State.wr_hst ..).trans (State.wri_hst ..)) ((State.wr_out ..).trans (State.wri_out ..))
  have hstands : HostStands v ((v.flight c.ring false).entryWritten r) :=
    hflight.trans ⟨(State.entryWritten_kept ..).comps, State.entryWritten_out ..⟩
  exact ⟨hstands.comps.trans hv.1, hstands.out.subset hv.2⟩

theorem writeCompletion_only (s : State) (r : Nat) (c : Completion) (p : Nat) : Only 0x1000100000000300 s (s.writeCompletion r c p) :=
  Only.writeCompletion (Only.refl _ s) _ _ _ rfl

/-- A completion that one member forms differently is written, and fences that member (R468, R471). -/
theorem completionPost_odd {s : State} {r : Nat} {c : Completion} {p : Nat} {m : Member} (lost : State → State)
    (hmode : s.rd TRI_STATUS.MODE = 1)
    (hpast : ((s.tri.fences.getD (memberNum m) []).filter (fun x => decide (s.tm.e < x + 3600000000000))).length < 2) :
    let t := s.agreed 0 (some (p % 2 ^ 24)) (.odd m) (fun s => s.writeCompletion r c p) lost
    t.hst.comps = s.hst.comps.erase c ∧ Out.completion p (completionBytes (s.phaseBit r (s.rdi RING_STATE_n.CONS r)) c) ∈ t.out ∧
      t.rd TRI_STATUS.MODE = 2 ∧ t.rd TRI_STATUS.FENCED = memberNum m ∧ t.rd TRI_MISMATCH_LOG.ADDR = p % 2 ^ 24 := by
  have hat : s.compared (some (p % 2 ^ 24)) = s := rfl
  dsimp only
  rw [agreed_odd hmode, hat, Option.getD_some]
  obtain ⟨hcomps, hout⟩ := writeCompletion_shown s r c p
  have honly := writeCompletion_only s r c p
  generalize s.writeCompletion r c p = u at hcomps hout honly
  have hstands := HostStands.fence u (memberNum m) 0 (p % 2 ^ 24)
  obtain ⟨hfmode, hfenced, -, haddr⟩ := fence_shown (s := u) (m := m) (kind := 0) (p % 2 ^ 24) (by decide)
    (by rw [honly.tri rfl, honly.tm rfl]; exact hpast)
  exact ⟨hstands.comps.trans hcomps, hstands.out.subset hout, hfmode, hfenced, haddr.trans (Nat.mod_mod ..)⟩

/-! ### AUX_PWM_PERIOD (R468, R594) -/

/-- The PWM period of a driving channel ends in the comparison of its drive words, with the block's own state moved alone
(R468, R594). -/
theorem exec_auxPwmPeriod {s : State} {n : Fin 2} {e : Nat} (hhalt : s.bit TRI_STATUS.DBG_HALT = false)
    (hlo : 2 ≤ s.astate n) (hhi : s.astate n ≤ 5) (c : PhaseSample) :
    ∃ (u : State) (out : State → State), Only 0x1440010000000000 (s.moveTo e) u ∧
      exec (.auxPwmPeriod n c e) s = .next (u.agreed 1 none c.agree out id) := by
  obtain ⟨hheld, -⟩ := holds_held (s.moveTo e)
  have hstate : (s.moveTo e).auxHolds.astate n = s.astate n := (hheld _ _ (by decide)).trans (rdi_of_regs (moveTo_regs s e) _ n)
  have hhalt' : ∀ u : State, Only 0x1440010000000000 (s.moveTo e) u → ¬(u.bit TRI_STATUS.DBG_HALT = true ∨
      ((s.moveTo e).auxHolds.astate n ≠ 2 ∧ (s.moveTo e).auxHolds.astate n ≠ 3 ∧ (s.moveTo e).auxHolds.astate n ≠ 4 ∧
        (s.moveTo e).auxHolds.astate n ≠ 5)) := fun u hu => by
    have hbit : u.bit TRI_STATUS.DBG_HALT = false := by
      unfold State.bit at hhalt ⊢
      rw [hu.rd _ (by decide), rd_moveTo, hhalt]
    rw [hbit, hstate]
    rintro (h | ⟨h2, h3, h4, h5⟩)
    · cases h
    · omega
  have hholds : Only 0x1440010000000000 (s.moveTo e) (s.moveTo e).auxHolds := Only.auxHolds (Only.refl _ _) rfl
  show ∃ u out, _ ∧ execAuxPwmPeriod n c e s = _
  unfold execAuxPwmPeriod
  generalize (s.moveTo e).auxHolds = v at hhalt' hholds
  extract_lets held k st x ls rs bw tp six legs emf w i counted r ed eq xd xq vd vq lin free a u
  have hw : Only 0x1440010000000000 (s.moveTo e) w := by
    simp only [w]
    unfold State.live
    exact Only.ite (Only.trigEvent hholds _ _ rfl) hholds
  have hu : Only 0x1440010000000000 (s.moveTo e) u := Only.updAch (Only.ite (Only.inci hw _ _ _ rfl (by decide)) hw) _ _ rfl
  exact ⟨u, _, hu, congrArg Host.Outcome.next (if_neg (hhalt' w hw))⟩

/-- Settles O54: the votes by `voted_odd` and `voted_pair`, the outputs by `agreed_odd` and `agreed_split`. -/
theorem agreementAndOutputVotes : Obligations.AgreementAndOutputVotes := by
  unfold Obligations.AgreementAndOutputVotes
  refine ⟨fun s r v w m hon hrun hne => ⟨exec_doorbell_odd hon hrun r hne m, _, exec_doorbell hon r _⟩,
    fun s r v w hon hA hB hC hne => exec_doorbell_pair hon hA hB hC r hne,
    fun s off be v w e m hon hrun hne => exec_hostWrite_odd hon hrun off off be v w e m (.inr ⟨rfl, hne⟩),
    fun s off off' be v e m hon hrun hne => exec_hostWrite_odd hon hrun off off' be v _ e m (.inl ⟨hne, rfl⟩),
    fun s => ⟨rd_inc_byte s rfl (by decide), rd_inc_byte s rfl (by decide), rd_inc_byte s rfl (by decide)⟩,
    fun s used e m hon hrun hphase hdue hwhole hover hup hhalt hplan hmode => ?_,
    fun s r c p m hon hwaits htype hopen hup hphys hmode => ?_,
    fun s off w e m x hon hrun h4 hx habs hplain hq hc hm hE hO hM hne =>
      exec_firmwareRead_odd hon hrun e m h4 hx habs hplain (lookedAt_other _ hq hc hm) hE hO hM hne,
    fun s r e hon hrate hmode hfit hdue => ?_, fun s n c e hon hhalt hlo hhi hsplit hmode hfit => ?_⟩
  · have hexec := exec_s3Deadline hon hrun hphase hdue hwhole hup (used := used)
    refine ⟨fun hpast => ?_, fun hfit => ?_⟩
    · exact ⟨_, hexec (.odd m), rfl, s3Deadline_odd hmode hover hhalt hplan hpast⟩
    · exact ⟨_, hexec .split, rfl, s3Deadline_split hmode hfit⟩
  · have hexec := exec_completionPost hon hwaits htype hopen hup hphys
    refine ⟨fun hpast => ⟨_, hexec (.odd m), completionPost_odd _ hmode hpast⟩, fun hfit => ?_⟩
    obtain ⟨htriad, hscope, -⟩ := second_shown (s := { s with hst := { s.hst with comps := s.hst.comps.erase c } }) hfit
      (by decide : 0 < 8) (p % 2 ^ 24)
    exact ⟨_, (hexec .split).trans (congrArg Host.Outcome.next (agreed_split hmode ..)), rfl, htriad, hscope⟩
  · obtain ⟨u, grant, slots, hready, -, hexec⟩ := exec_wadiFrameDue hon hrate hdue .split
    have hfit' : PhasesFit u := hready.phases (PhasesFit.of_rd hfit (rd_moveTo s e _))
    rw [agreed_split (hready.mode.trans ((rd_moveTo s e _).trans hmode))] at hexec
    obtain ⟨htriad, hscope, -, hkind⟩ := second_shown (s := u.used) hfit' (by decide : 1 < 8)
      ((none : Option Nat).getD (u.freeVal 9 % 2 ^ 24))
    exact ⟨_, hexec, htriad, hscope, hkind⟩
  · obtain ⟨u, out, honly, hexec⟩ := exec_auxPwmPeriod (e := e) hhalt hlo hhi c
    have hmode' : u.rd TRI_STATUS.MODE = 1 := (honly.rd _ (by decide)).trans ((rd_moveTo s e _).trans hmode)
    have hfit' : PhasesFit u := PhasesFit.of_only (PhasesFit.of_rd hfit (rd_moveTo s e _)) honly (by decide)
    rw [hsplit, agreed_split hmode'] at hexec
    obtain ⟨htriad, hscope, -⟩ := second_shown (s := u.used) hfit' (by decide : 1 < 8)
      ((none : Option Nat).getD (u.freeVal 9 % 2 ^ 24))
    exact ⟨_, hexec, htriad, hscope⟩

end Sys2Proof.Machine
end

section
/-! PROOFS. The tick-bound writes that leave at tend do not open the TICK entry again (13_control_triad.md R461, R463, R469). -/
namespace Sys2Proof.Machine
open Reg

/-- The TICK entry of this tick is over: it has reached tend, and does not run (R461, R463). -/
structure EntryOver (s : State) : Prop where
  tended : s.tm.tended = true
  stopped : s.tm.s1run = false

namespace EntryOver
variable {s t : State}

theorem of_tm (h : EntryOver s) (htm : t.tm = s.tm) : EntryOver t := ⟨by rw [htm, h.tended], by rw [htm, h.stopped]⟩

/-- What leaves the time as it was (every part of the state but `tm` may change) leaves the entry over. -/
theorem of_only (h : EntryOver s) (only : Only 0x1ffffdffffffffff s t) : EntryOver t := h.of_tm (only.tm rfl)

theorem ite {p : Prop} [Decidable p] (ht : EntryOver s) (he : EntryOver t) : EntryOver (if p then s else t) := by
  split <;> assumption

theorem askAt (h : EntryOver s) (base : Nat) : EntryOver (s.askAt base) := ⟨h.tended, h.stopped⟩

/-- A request for a table swap is taken for the next boundary, or refused (R102, R136, R137). -/
theorem swapRequest (h : EntryOver s) {p q : Prop} [Decidable p] [Decidable q] (pend err : Fld) (base off v : Nat) (ag : Agent) :
    EntryOver (if p then s else if q then (s.wr pend 1).askAt base else (s.refuse err).configRefused off v ag) :=
  ite h (ite ((h.of_tm (s.wr_tm ..)).askAt base)
    ((h.of_tm (s.wr_tm ..)).of_only (Only.configRefused (Only.refl _ _) _ _ _ rfl)))

theorem writeTickCfg (h : EntryOver s) (v : Nat) : EntryOver (s.writeTickCfg v) := by
  unfold State.writeTickCfg
  extract_lets limit half change u _ wait
  have hu : EntryOver u := h.of_tm (putRw_tm ..)
  have hstopped : ∀ w : State, EntryOver w → EntryOver w.trimTriggers.foldFitAll := fun w hw =>
    hw.of_tm ((foldFitAll_tm _).trans ((trimTriggers_only w).tm rfl))
  exact ite (h.of_tm (s.wr_tm ..)) (ite hu (ite (hstopped _ ⟨hu.tended, hu.stopped⟩)
    (of_tm (s := { u with tm := { u.tm with newHalf := if wait then some half else none } }) ⟨hu.tended, hu.stopped⟩ (State.wr_tm ..))))

theorem writeShedCfg (h : EntryOver s) (v : Nat) : EntryOver (s.writeShedCfg v) := by
  unfold State.writeShedCfg
  extract_lets off u
  have hu : EntryOver u := h.of_tm (putRw_tm ..)
  clear_value u
  exact ite (h.of_tm (s.wr_tm ..)) (ite ⟨hu.tended, hu.stopped⟩ hu)

theorem hgsSwap (h : EntryOver s) : EntryOver s.hgsSwap := ite h ((h.of_tm (s.wr_tm ..)).askAt _)

theorem breakTimes (h : EntryOver s) : EntryOver s.breakTimes :=
  of_tm (s := { s with tm := { s.tm with broke := true } }) ⟨h.tended, h.stopped⟩ (State.wr_tm ..)

/-- A restart of the triad drops the law only while its entry runs (R476). -/
theorem restartTriad (h : EntryOver s) (ag : Agent) : EntryOver (s.restartTriad ag) := by
  unfold State.restartTriad
  extract_lets u tri pwr v w x
  have hu : EntryOver u := by
    simp only [u, h.stopped, Bool.false_eq_true, if_false]
    exact h.breakTimes
  have hw : EntryOver w := of_only (s := v) ⟨hu.tended, hu.stopped⟩ (Only.abortFlight (Only.refl _ v) rfl)
  have hx : Only 0x1ffffdffffffffff w x := by
    simp only [x]
    exact Only.ite (Only.refl _ w) (Only.showScan (Only.setStage (Only.wr (Only.refl _ w) _ _ rfl (by decide)) _ rfl) rfl)
  have hboot : Only 0x1ffffdffffffffff w x.bootImage.1 := Only.bootImage hx rfl
  refine ite (h.of_only (Only.configRefused (Only.refl _ s) _ _ _ rfl)) ?_
  have hend : EntryOver x.bootImage.1 := hw.of_only hboot
  generalize x.bootImage = r at hend
  exact ite hend ⟨hend.tended, hend.stopped⟩

theorem writeLow (h : EntryOver s) (r : RegRow) (i off v : Nat) (ag : Agent) : EntryOver (s.writeLow r i off v ag) := by
  have o := Only.refl 0x1ffffdffffffffff s
  exact ite (h.of_only (Only.writeLife o _ rfl)) <| ite (h.of_only (Only.clearSuspect o _ rfl)) <|
    ite (h.of_only (Only.writeSeed o _ _ rfl)) <| ite (h.writeTickCfg v) <| ite (h.of_only (Only.writeDeadline o _ _ rfl)) <|
    ite (h.writeShedCfg v) <| ite (h.of_only (Only.writeSec o _ rfl)) <| ite (h.of_only (Only.writePwrCtrl o _ rfl)) <|
    ite (h.of_only (Only.ite (Only.askPersist o rfl) o)) <| ite (h.of_only (Only.writeWalkRoot o _ _ rfl)) <|
    ite (h.of_only (Only.writeWalkRoot o _ _ rfl)) <| ite (h.of_only (Only.writeWalkInv o _ rfl)) <|
    ite (h.of_only (Only.writeRingCfg o _ _ rfl)) <| ite (h.of_only (Only.writeRingCtrl o _ _ rfl))
      (h.of_only (Only.setFieldsOf o _ _ _ _ rfl))

theorem writeMid (h : EntryOver s) (r : RegRow) (i off v : Nat) (ag : Agent) : EntryOver (s.writeMid r i off v ag) := by
  have o := Only.refl 0x1ffffdffffffffff s
  exact ite (ite (h.restartTriad ag) h) <| ite (h.of_only (Only.writeCrcCfg o _ rfl)) <|
    ite (h.of_only (Only.writeCrcData o _ _ rfl)) <| ite (h.of_only (Only.writeCrcSeed o _ rfl)) <|
    ite (h.of_only (Only.writeLinkCfg o _ rfl)) <| ite (h.of_only (Only.writeRingEn o _ rfl)) <|
    ite (h.of_only (Only.writeLinkCtrl o _ rfl)) <| ite (h.of_only (Only.writeRating o _ _ _ rfl)) <| ite (ite h.hgsSwap h) <|
    ite (h.of_only (Only.writeCellCfg o _ _ _ rfl)) <| ite (h.of_only (Only.writeCellTiming o _ _ _ rfl)) <|
    ite (h.of_only (Only.writeCtlMode o _ rfl)) <| ite (ite (h.swapRequest ..) h) (h.of_only (Only.setFieldsOf o _ _ _ _ rfl))

theorem writeHigh (h : EntryOver s) (r : RegRow) (i off v : Nat) (ag : Agent) : EntryOver (s.writeHigh r i off v ag) := by
  have o := Only.refl 0x1ffffdffffffffff s
  exact ite (h.of_only (Only.writePllCfg o _ rfl)) <| ite (h.of_only (Only.writeSyncMode o _ _ rfl)) <|
    ite (ite (h.swapRequest ..) h) <| ite (h.of_only (Only.writeMirBase o _ rfl)) <| ite (h.of_only (Only.clearMir o _ rfl)) <|
    ite (ite (h.swapRequest ..) h) <| ite (ite (h.swapRequest ..) h) <| ite (h.of_only (Only.writePortCtrl o _ rfl)) <|
    ite (h.of_only (Only.writePvCfg o _ _ rfl)) <| ite (h.of_only (Only.writePack o _ _ _ rfl)) <|
    ite (h.of_only (Only.writePack o _ _ _ rfl)) <| ite (h.of_only (Only.writePack o _ _ _ rfl)) <|
    ite (h.of_only (Only.writePack o _ _ _ rfl)) <| ite (h.of_only (Only.writeCtlCfg o _ rfl)) <|
    ite (h.of_only (Only.writeChCfg o _ _ rfl)) <| ite (h.of_only (Only.writeChCal o _ _ rfl)) <|
    ite (h.of_only (Only.swTrig o _ rfl)) <| ite (h.of_only (Only.writeQCfg o _ _ rfl)) <|
    ite (h.of_only (Only.writeQCap o _ _ rfl)) <| ite (h.of_only (Only.writeCmp o _ _ _ rfl)) <|
    ite (h.of_only (Only.writeCmp o _ _ _ rfl)) <|
    ite (h.of_only (Only.cmpClear o _ rfl)) (h.of_only (Only.setFieldsOf o _ _ _ _ rfl))

/-- A register's write, by any agent (R695, R696). -/
theorem regWrite (h : EntryOver s) (ag : Agent) (off be v : Nat) : EntryOver (s.regWrite ag off be v) := by
  have o := Only.refl 0x1ffffdffffffffff s
  unfold State.regWrite
  extract_lets v copied
  clear_value copied
  refine ite h ?_
  split
  · exact ite h (h.of_only (Only.configRefused o _ _ _ rfl))
  · refine ite h ?_
    split
    · split
      · next hcrc =>
        split at hcrc
        · exact h.of_only (Only.crcBytes o rfl hcrc)
        · cases hcrc
      · exact h.of_only (Only.refusePartial o _ _ _ rfl)
    · exact ite (h.writeLow ..) (ite (h.writeMid ..) (ite (h.writeHigh ..) (h.of_only (Only.writeTop o _ _ _ _ _ rfl))))

theorem releaseItem (h : EntryOver s) (x : TbItem) : EntryOver (s.releaseItem x) := by
  have o := Only.refl 0x1ffffdffffffffff s
  cases x with
  | fld f i v => exact h.of_tm (s.wri_tm ..)
  | inc f i => exact h.of_tm (s.wri_tm ..)
  | reg off val be => exact h.regWrite ..
  | ev ty pay => exact h.of_only (Only.post o _ _ rfl)
  | comp c => exact ⟨h.tended, h.stopped⟩

/-- The tick-bound writes that leave do not open the entry again (R469). -/
theorem releaseTb (h : EntryOver s) : EntryOver s.releaseTb := by
  unfold State.releaseTb
  exact List.foldlRecOn _ _ ⟨h.tended, h.stopped⟩ fun _ hu x _ => hu.releaseItem x

end EntryOver
end Sys2Proof.Machine
end

section
/-! PROOFS. The boundary and the stage deadlines of an undisturbed tick (01_architecture_and_tick.md R24, R28, R36, R38; R461, R703): O3. -/
namespace Sys2Proof.Machine
open Reg

/-! ### The boundary (R24, R28) -/

/-- A tick that has begun at the boundary at or before `s`'s instant: what its record holds. -/
structure TickBegun (s t : State) : Prop where
  phase : t.tm.phase = 0
  number : t.tm.n = s.stime / (s.period : Int)
  start : t.tm.start = s.tm.e - (s.stime % (s.period : Int)).toNat
  tended : t.tm.tended = false
  abandoned : t.tm.abandoned = false
  used : t.tm.used = [0, 0, 0, 0, 0, 0]

theorem TickBegun.of_tm {s t u : State} (h : TickBegun s t) (htm : u.tm = t.tm) : TickBegun s u := by
  obtain ⟨hphase, hnumber, hstart, htended, habandoned, hused⟩ := h
  constructor <;> rw [htm] <;> assumption

theorem periodApply_none {s : State} (h : s.tm.newHalf = none) : s.periodApply = s := by
  unfold State.periodApply
  rw [h]

theorem shedClamp_none {s : State} (h : s.tm.shedClamp = false) : s.shedClamp = s := by
  unfold State.shedClamp
  rw [h, if_neg Bool.false_ne_true]

theorem beginTick_begun {s : State} (hperiod : s.tm.newHalf = none) (hshed : s.tm.shedClamp = false) : TickBegun s s.beginTick := by
  unfold State.beginTick
  extract_lets good u tm sched tri v w x y
  have hu : u.tm = s.tm := (Only.foldl (M := 0x2000000000000) (Only.refl _ s) fun _ _ h => Only.ite (Only.takeCommand h _ rfl) h).tm rfl
  have hstime : u.stime = s.stime := by unfold State.stime; rw [hu]
  have hper : u.period = s.period := by unfold State.period; rw [hu]
  clear_value u
  have hv : TickBegun s v := by
    refine ⟨rfl, ?_, ?_, rfl, rfl, rfl⟩
    · show u.stime / (u.period : Int) = _
      rw [hstime, hper]
    · show u.tm.e - (u.stime % (u.period : Int)).toNat = _
      rw [hstime, hper, hu]
  have hnew : v.tm.newHalf = none := by
    show u.tm.newHalf = none
    rw [hu, hperiod]
  have hclamp : v.tm.shedClamp = false := by
    show u.tm.shedClamp = false
    rw [hu, hshed]
  clear_value v
  have hdue : v.takeBlocks.applyDue.tm = v.tm := (Only.applyDue (M := 0x1fffddffffffffff) (Only.takeBlocks (Only.refl _ v) rfl) rfl).tm rfl
  have hw : w.tm = v.tm := by
    simp only [w]
    rw [periodApply_none (by rw [hdue, hnew]), shedClamp_none (by rw [hdue, hclamp]),
      (Only.rejoinStep (M := 0x200000000400) (Only.refl _ _) rfl).tm rfl, hdue]
  clear_value w
  have hrest : Only 0x1ffffdffffffffff w (((y.phaseCounts.joinCounts).periodStart 16).openWindows 16) := by
    have hx : Only 0x1ffffdffffffffff w x := Only.serviceDue (Only.refl _ w) rfl
    have hy : Only 0x1ffffdffffffffff w y := Only.foldl hx fun _ _ h => Only.rampTick (Only.stepTick h _ rfl) _ rfl
    exact Only.openWindows (Only.periodStart (Only.joinCounts (Only.phaseCounts hy rfl) rfl) _ rfl) _ rfl
  exact hv.of_tm ((hrest.tm rfl).trans hw)

/-- The state that a boundary finds: the time has come to it, the comparators and the holds have been looked at (R28). -/
def State.boundaryLook (s : State) (e : Nat) : State := (s.moveTo e).cmpLook.auxHolds

theorem boundaryLook_only (s : State) (e : Nat) : Only 0x1d425101a0000200 (s.moveTo e) (s.boundaryLook e) :=
  Only.auxHolds (Only.cmpLook (Only.refl _ _) rfl) rfl

theorem TickBegun.of_look {s t u : State} (h : TickBegun s t) (htm : s.tm = u.tm) : TickBegun u t := by
  have hstime : s.stime = u.stime := by unfold State.stime; rw [htm]
  have hperiod : s.period = u.period := by unfold State.period; rw [htm]
  obtain ⟨hphase, hnumber, hstart, htended, habandoned, hused⟩ := h
  rw [hstime, hperiod] at hnumber hstart
  exact ⟨hphase, hnumber, htm ▸ hstart, htended, habandoned, hused⟩

theorem exec_tickBoundary {s : State} {e : Nat} (hon : s.pwr.mainOn = true) (hrun : s.tm.run = true) (hphase : s.tm.phase = 6)
    (hawake : s.pwr.sleepPend = false) (hlate : s.tm.n < (s.moveTo e).stime / (s.period : Int)) :
    exec (.tickBoundary e) s = .next (s.boundaryLook e).beginTick := by
  have hpwr : (s.boundaryLook e).pwr = s.pwr := ((boundaryLook_only s e).pwr rfl).trans (s.moveTo_pwr e)
  have htm : (s.boundaryLook e).tm = (s.moveTo e).tm := (boundaryLook_only s e).tm rfl
  have hmoved := (moveTo_sim s e).1
  have hstime : (s.boundaryLook e).stime = (s.moveTo e).stime := by unfold State.stime; rw [htm]
  have hperiod : (s.boundaryLook e).period = s.period := by unfold State.period; rw [htm, hmoved]
  have hnow : (s.boundaryLook e).tm.run = true ∧ (s.boundaryLook e).tm.phase = 6 ∧ (s.boundaryLook e).tm.n = s.tm.n := by
    rw [htm, hmoved]
    exact ⟨hrun, hphase, rfl⟩
  have hlook : (s.moveTo e).cmpLook.auxHolds = s.boundaryLook e := rfl
  show execTickBoundary e s = _
  unfold execTickBoundary
  rw [s.live_on hon]
  dsimp only
  rw [hlook]
  obtain ⟨hrun', hphase', hnumber⟩ := hnow
  rw [if_pos hrun', if_pos ⟨hphase', by rw [hnumber, hstime, hperiod]; exact hlate⟩, if_neg (by rw [hpwr, hawake]; decide)]

theorem tickBoundary_begun {s : State} {e : Nat} (hperiod : s.tm.newHalf = none) (hshed : s.tm.shedClamp = false) :
    TickBegun (s.moveTo e) (s.boundaryLook e).beginTick := by
  have htm : (s.boundaryLook e).tm = (s.moveTo e).tm := (boundaryLook_only s e).tm rfl
  have hmoved := (moveTo_sim s e).1
  refine (beginTick_begun ?_ ?_).of_look htm
  · rw [htm, hmoved]
    exact hperiod
  · rw [htm, hmoved]
    exact hshed

/-! ### S0: the TICK entry begins (R461) -/

theorem startS1_entry (s : State) : s.startS1.tm.s1run = true ∧ s.startS1.tm.tended = false ∧ s.startS1.tm.used = s.tm.used := by
  unfold State.startS1
  extract_lets entry tm tri bank u v hst w x y z
  have hu : u.tm.s1run = true ∧ u.tm.tended = false ∧ u.tm.used = s.tm.used := ⟨rfl, rfl, rfl⟩
  clear_value u
  have hv : Only 0x1ffffdffffffffff u v := Only.takeOrders (Only.triadStop (Only.refl _ u) rfl) rfl
  have hx : Only 0x1ffffdffffffffff u x := Only.track (Only.probeSums (Only.set_hst hv _ rfl) rfl) rfl
  have hz : Only 0x1ffffdffffffffff u z := Only.onLaw (Only.ite (Only.trigEvent hx _ _ rfl) hx) _ rfl
  have hend : Only 0x1ffffdffffffffff u z.supervise.detect.probeGuard.portTick :=
    Only.portTick (Only.probeGuard (Only.detect (Only.supervise hz rfl) rfl) rfl) rfl
  obtain ⟨hruns, htended, hused⟩ := hu
  exact ⟨by rw [hend.tm rfl, hruns], by rw [hend.tm rfl, htended], by rw [hend.tm rfl, hused]⟩

/-- A vote counts what is lost, and halts nothing (R467). -/
theorem voted_halted (s : State) (vote : Int → Int → Int → Int) (v : Nat → Int) : (s.voted vote v).1.halted = s.halted := by
  have hlost : ∀ (u : State) (m : Nat), (u.lostVote m).halted = u.halted := fun u m => by
    refine congrArg (fun n : Nat => n == 1) (u.rd_wr_apart _ ?_)
    split
    · decide
    · split <;> decide
  unfold State.voted
  split
  · refine List.foldlRecOn (motive := fun u : State => u.halted = s.halted) _ _ rfl fun u hu m _ => ?_
    split
    · exact hu
    · exact (hlost u m).trans hu
  · split
    · rfl
    · split
      · exact hlost ..
      · exact hlost ..
  · rfl

theorem votedCodes_halted (s : State) (base : List Int) (mine : List (Member × List Int)) : (s.votedCodes base mine).1.halted = s.halted :=
  List.foldlRecOn (motive := fun a : State × List Int => a.1.halted = s.halted) _ _ rfl fun _ ha _ _ => (voted_halted ..).trans ha

theorem votedAdc_halted (s : State) (x : Stream) (skew : List (Member × Fin 16 × List Int)) : (s.votedAdc x skew).1.halted = s.halted := by
  refine List.foldlRecOn (motive := fun a : State × Stream => a.1.halted = s.halted) _ _ rfl fun a ha n _ => ?_
  dsimp only
  split
  · exact ha
  · exact (votedCodes_halted ..).trans ha

/-- The state in which S0 of a tick has done its work and the path checks have been made (R36, R349 to R351). -/
def State.acquired (s : State) (x : AdcIn) (used : Nat) : State :=
  let r := s.votedAdc x.conv x.skew
  (((r.1.stageUsed 0 used false).takeAdc r.2 true).meterSamples r.2).cycleEnergy.pathChecks

/-- What S0's work leaves: the tick with the work counted, the power state, and whether the triad is halted. -/
theorem acquired_stands (s : State) (x : AdcIn) (used : Nat) :
    (s.acquired x used).tm.used = s.tm.used.set 0 used ∧ (s.acquired x used).tm.s1run = s.tm.s1run ∧
      (s.acquired x used).pwr = s.pwr ∧ (s.acquired x used).halted = s.halted := by
  unfold State.acquired
  extract_lets r
  have hr : Only 0x800000000000400 s r.1 := Only.votedAdc (Only.refl _ s) _ _ rfl
  have hhalt : r.1.halted = s.halted := votedAdc_halted ..
  have hused : (r.1.stageUsed 0 used false).tm.used = s.tm.used.set 0 used ∧ (r.1.stageUsed 0 used false).tm.s1run = s.tm.s1run ∧
      (r.1.stageUsed 0 used false).pwr = s.pwr ∧ (r.1.stageUsed 0 used false).halted = s.halted :=
    ⟨by rw [← hr.tm rfl]; rfl, by rw [← hr.tm rfl]; rfl, by rw [← hr.pwr rfl]; rfl, hhalt⟩
  generalize r.1.stageUsed 0 used false = u at hused
  have hend : Only 0x1bc2500124000200 u ((u.takeAdc r.2 true).meterSamples r.2).cycleEnergy.pathChecks :=
    Only.pathChecks (Only.cycleEnergy (Only.meterSamples (Only.takeAdc (Only.refl _ u) _ _ rfl) _ rfl) rfl) rfl
  obtain ⟨huse, hruns, hpwr, hhalted⟩ := hused
  refine ⟨by rw [hend.tm rfl, huse], by rw [hend.tm rfl, hruns], by rw [hend.pwr rfl, hpwr], ?_⟩
  rw [← hhalted]
  unfold State.halted State.bit
  rw [hend.rd _ (by decide)]

/-- S0_DEADLINE with S0 done, where the TICK entry may begin (R461). -/
theorem exec_s0Deadline {s : State} {e : Nat} (hon : s.pwr.mainOn = true) (hrun : s.tm.run = true) (hphase : s.tm.phase = 0)
    (hdue : s.deadline 0 ≤ (s.moveTo e).tm.e) (hready : s.pwr.tready = true) (hup : s.pwr.restart = false) (hhalt : s.halted = false)
    (hidle : s.tm.s1run = false) (x : AdcIn) (used : Nat) :
    exec (.s0Deadline x true used e) s = .next (((s.moveTo e).acquired x used).startS1.passed 0) := by
  obtain ⟨-, hidle', hpwr, hhalt'⟩ := acquired_stands (s.moveTo e) x used
  have hstarts : ((s.moveTo e).acquired x used).s1Starts = true := by
    unfold State.s1Starts
    rw [hpwr, hidle', hhalt', State.moveTo_pwr, mt_halted, hready, hup, hhalt, (moveTo_sim s e).1]
    simpa using hidle
  refine congrArg Host.Outcome.next ((s.live_on hon).trans ((atDeadline_due hrun hphase hdue).trans (congrArg (State.passed · 0) ?_)))
  dsimp only
  rw [if_neg (by decide)]
  exact if_pos hstarts

/-! ### S1: tend and its deadline (R463, R469) -/

/-- The law is done, and its entry is over: what tend does to the time (R33, R463). -/
def State.lawDone (s : State) : State :=
  let s := s.runLaw
  let s := s.stageUsed 1 (s.tm.e - s.deadline 0) false
  { s with tm := { s.tm with s1run := false, tended := true } }

/-- What leaves at tend: the tick-bound writes, the completions, a swap that stands (R469, R481, R505, R510). -/
def State.tendLeaves (s : State) : State := s.releaseTb.tendCompletions.swapStands

theorem swapStands_atTend (s : State) : s.swapStands.hst.atTend = s.hst.atTend := by
  unfold State.swapStands
  split
  · rfl
  · extract_lets ds tri u v
    have hv : v.hst.atTend = s.hst.atTend :=
      (State.post_kept _ 0x50 _).atTend.trans (congrArg HostSt.atTend (State.wr_hst ..))
    exact List.foldlRecOn (motive := fun w : State => w.hst.atTend = s.hst.atTend) _ _ hv
      fun w hw d _ => (w.complete_atTend d 0 0 []).trans hw

theorem tendLeaves_over {s : State} (h : EntryOver s) : EntryOver s.tendLeaves :=
  h.releaseTb.of_only (Only.swapStands (Only.tendCompletions (Only.refl _ _) rfl) rfl)

theorem tendLeaves_atTend (s : State) : s.tendLeaves.hst.atTend = [] := swapStands_atTend _

/-- TEND of an entry that runs, before the S1 deadline: the law is done, and what waits for tend leaves (R463, R469). -/
theorem exec_tend {s : State} {e : Nat} (hon : s.pwr.mainOn = true) (hruns : s.tm.s1run = true) (hhalt : s.halted = false)
    (hkept : s.tri.dropTick = false) (hearly : (s.moveTo e).tm.e < s.deadline 1) :
    exec (.tend e) s = .next (
      let t := (s.moveTo e).lawDone.tendLeaves
      if (s.moveTo e).lawDone.tri.bgDropped then
        { t with tri := { t.tri with bgDropped := false, backBank := { t.tri.backBank with pc := imgWord t.activeImage 20 } } }
      else t) := by
  have hruns' : (s.moveTo e).tm.s1run = true := by rw [(moveTo_sim s e).1]; exact hruns
  have hhalt' : (s.moveTo e).halted = false := (mt_halted s e).trans hhalt
  have hwaits : (s.moveTo e).atDeadline 1 State.s1Work = s.moveTo e := by
    unfold State.atDeadline
    exact if_neg fun h => absurd h.2.2 (by rw [mt_deadline]; omega)
  have hkept' : (s.moveTo e).tri.dropTick = false := by rw [State.moveTo_tri, hkept]
  have hgo : ((s.moveTo e).tm.s1run = true ∧ (!(s.moveTo e).halted) = true) := ⟨hruns', by rw [hhalt']; rfl⟩
  show execTend e s = _
  unfold execTend
  rw [s.live_on hon]
  extract_lets u v
  have hv : v = s.moveTo e := (if_pos hgo).trans hwaits
  clear_value v
  subst hv
  rw [if_neg (by simp [hruns', hhalt']), if_neg (by rw [hkept']; decide)]
  rfl

theorem dropLaw_tm (s : State) : s.dropLaw.tm = { s.tm with s1run := false } := (State.wr_tm ..).trans (State.wr_tm ..)

/-- A stage that overruns ends the entry, and abandons the rest of S0 to S3 (R36, R37). -/
theorem overrun_tm (s : State) (stage : Nat) :
    (s.overrun stage).tm = { s.tm with s1run := false, overran := true, abandoned := true, launchOver := true } := by
  unfold State.overrun
  extract_lets u tm v tri w
  have hv : v.tm = { s.tm with s1run := false, overran := true, abandoned := true, launchOver := true } := by
    show { u.tm with overran := true, abandoned := true, launchOver := true } = _
    rw [dropLaw_tm]
  have hw : w.tm = v.tm := by
    simp only [w]
    split <;> rfl
  exact (State.wr_tm ..).trans (hw.trans hv)

theorem dropPlan_tm (s : State) : s.dropPlan.tm = s.tm := (Only.dropPlan (M := 0x22000000000000) (Only.refl _ s) rfl).tm rfl

/-- The S1 deadline finds an entry that still runs: S1 has overrun (R36). -/
theorem s1Work_late {s : State} (hruns : s.tm.s1run = true) (hhalt : s.halted = false) :
    s.s1Work.tm.tended = s.tm.tended ∧ s.s1Work.tm.abandoned = true ∧ s.s1Work.tm.s1run = false := by
  have hwork : s.s1Work = ((s.stageUsed 1 (s.stageWindow 1) true).overrun 1).dropPlan := by
    unfold State.s1Work
    rw [if_pos ⟨hruns, by rw [hhalt]; rfl⟩]
    exact if_neg (by show ¬s.halted = true; rw [hhalt]; decide)
  rw [hwork, dropPlan_tm, overrun_tm]
  exact ⟨rfl, rfl, rfl⟩

/-- TEND that comes at or after the S1 deadline: the deadline is evaluated first, and nothing is left to end (R703). -/
theorem exec_tend_late {s : State} {e : Nat} (hon : s.pwr.mainOn = true) (hrun : s.tm.run = true) (hphase : s.tm.phase = 1)
    (hruns : s.tm.s1run = true) (hhalt : s.halted = false) (hdue : s.deadline 1 ≤ (s.moveTo e).tm.e) :
    exec (.tend e) s = .next ((s.moveTo e).s1Work.passed 1) := by
  have hruns' : (s.moveTo e).tm.s1run = true := by rw [(moveTo_sim s e).1]; exact hruns
  have hhalt' : (s.moveTo e).halted = false := (mt_halted s e).trans hhalt
  obtain ⟨-, -, hended⟩ := s1Work_late hruns' hhalt'
  have hgo : ((s.moveTo e).tm.s1run = true ∧ (!(s.moveTo e).halted) = true) := ⟨hruns', by rw [hhalt']; rfl⟩
  have hended' : ((s.moveTo e).s1Work.passed 1).tm.s1run = false := hended
  show execTend e s = _
  unfold execTend
  rw [s.live_on hon]
  extract_lets u v
  have hv : v = (s.moveTo e).s1Work.passed 1 := (if_pos hgo).trans (atDeadline_due hrun hphase hdue)
  clear_value v
  subst hv
  rw [if_pos (.inl (by rw [hended']; rfl))]

/-! ### S1_DEADLINE and S2_DEADLINE of a tick that has reached tend (R36, R72, R103) -/

theorem decideTick_plan (s : State) : s.decideTick.sched.plan ≠ none := nofun

theorem decideTick_regs (s : State) : s.decideTick.regs = s.regs := by
  unfold State.decideTick
  extract_lets z v0 target ph tripped u
  exact foldl_keep (·.regs) (fun (s : State) (q : Nat × CellPlan) =>
    s.updCell q.1 (fun x => { x with sch := { x.sch with plan := some q.2 } })) (fun _ _ => rfl) _ s

theorem exec_s1Deadline {s : State} {e : Nat} (hon : s.pwr.mainOn = true) (hrun : s.tm.run = true) (hphase : s.tm.phase = 1)
    (hdue : s.deadline 1 ≤ (s.moveTo e).tm.e) (hover : s.tm.s1run = false) (htended : s.tm.tended = true)
    (hwhole : s.tm.abandoned = false) (hhalt : s.halted = false) :
    exec (.s1Deadline e) s = .next ((s.moveTo e).decideTick.passed 1) := by
  have hmoved := (moveTo_sim s e).1
  have hhalt' : (s.moveTo e).halted = false := (mt_halted s e).trans hhalt
  have hover' : (s.moveTo e).tm.s1run = false := by rw [hmoved]; exact hover
  have htended' : (s.moveTo e).tm.tended = true := by rw [hmoved]; exact htended
  have hwhole' : (s.moveTo e).tm.abandoned = false := by rw [hmoved]; exact hwhole
  refine congrArg Host.Outcome.next ((s.live_on hon).trans ((atDeadline_due hrun hphase hdue).trans (congrArg (State.passed · 1) ?_)))
  unfold State.s1Work
  rw [if_neg (by simp [hover'])]
  dsimp only
  rw [if_pos htended', if_pos ⟨htended', by simp [hwhole', hhalt']⟩]

theorem exec_s2Deadline {s : State} {e : Nat} (hon : s.pwr.mainOn = true) (hrun : s.tm.run = true) (hphase : s.tm.phase = 2)
    (hdue : s.deadline 2 ≤ (s.moveTo e).tm.e) (hwhole : s.tm.abandoned = false) (used : Nat) :
    exec (.s2Deadline true used e) s = .next (((s.moveTo e).stageUsed 2 used false).passed 2) := by
  have hwhole' : (s.moveTo e).tm.abandoned = false := by rw [(moveTo_sim s e).1]; exact hwhole
  refine congrArg Host.Outcome.next ((s.live_on hon).trans ((atDeadline_due hrun hphase hdue).trans (congrArg (State.passed · 2) ?_)))
  dsimp only
  rw [hwhole', if_neg Bool.false_ne_true, if_neg (by simp)]
  rfl

/-! ### S4_DEADLINE and S5_DEADLINE (R36, R38) -/

theorem exec_s4Deadline {s : State} {e : Nat} (hon : s.pwr.mainOn = true) (hrun : s.tm.run = true) (hphase : s.tm.phase = 4)
    (hdue : s.deadline 4 ≤ (s.moveTo e).tm.e) (used : Nat) :
    exec (.s4Deadline true used e) s = .next (State.passed (let u := (s.moveTo e).stageUsed 4 used false
      { u with tm := { u.tm with late4 := false } }) 4) :=
  congrArg Host.Outcome.next ((s.live_on hon).trans (atDeadline_due hrun hphase hdue))

/-- The state in which S5 of a tick without an overrun has done its work, before the counts are closed (R36, R63, R275, R542). -/
def State.tookIn (s : State) (used : Nat) : State :=
  let s := s.stageUsed 5 used false
  let s : State := (s.ringsOn.filter s.framed).foldl (fun s r => s.countReturns r) s
  let charge := decide (16 ≤ s.tm.half) || s.tm.sent % 4 == 2
  let s : State := s.framedCells.foldl (fun s c => s.intakeCell c s.period charge) s
  let s := s.measureDelays
  let s := if 3 ≤ s.stage ∧ s.headroomDue (s.tickStands && s.law.trk.cycle) then s.formHeadroom else s
  if s.mtr.atS5 then s.formLatch s.mtr.latchAt else s

theorem tookIn_only (s : State) (used : Nat) : Only 0x19e3500922013200 (s.stageUsed 5 used false) (s.tookIn used) := by
  unfold State.tookIn
  extract_lets u v charge w x y
  have hv : Only 0x19e3500922013200 u v := Only.foldl (Only.refl _ u) fun _ _ h => Only.countReturns h _ rfl
  have hw : Only 0x19e3500922013200 u w := Only.foldl hv fun _ _ h => Only.intakeCell h _ _ _ rfl
  have hx : Only 0x19e3500922013200 u x := Only.measureDelays hw rfl
  have hy : Only 0x19e3500922013200 u y := Only.ite (Only.formHeadroom hx rfl) hx
  exact Only.ite (Only.formLatch hy _ rfl) hy

/-- Showing the counts of the completed tick writes nothing but them (R33). -/
theorem rd_showUsed (s : State) {f : Fld} (hlast : apart CLK_TICK_USED_n.LAST f = true) (hpeak : apart CLK_TICK_PEAK_n.PEAK f = true) :
    s.showUsed.rd f = s.rd f :=
  foldl_keep (·.rd f) _ (fun u _ => (State.rdi_wri_apart _ _ _ _ hpeak).trans (u.rdi_wri_apart _ _ _ hlast)) _ s

theorem countsClosed (s : State) :
    (s.wr CLK_TICK_STATUS.OVR_CONSEC 0).showUsed.rd CLK_TICK_STATUS.OVR_CONSEC = 0 ∧
      (s.wr CLK_TICK_STATUS.OVR_CONSEC 0).showUsed.rd CLK_TICK_OVR_COUNT.COUNT = s.rd CLK_TICK_OVR_COUNT.COUNT :=
  ⟨(rd_showUsed _ (by decide) (by decide)).trans (State.rd_wr_self _ 0 (by decide)),
    (rd_showUsed _ (by decide) (by decide)).trans (State.rd_wr_apart _ 0 (by decide))⟩

/-- S5_DEADLINE with S4 and S5 done, in a tick without an overrun: the count of consecutive overruns is cleared (R36, R38). -/
theorem exec_s5Deadline {s : State} {e : Nat} (hon : s.pwr.mainOn = true) (hrun : s.tm.run = true) (hphase : s.tm.phase = 5)
    (hdue : s.deadline 5 ≤ (s.moveTo e).tm.e) (hnone : s.tm.overran = false) (hintime : s.tm.late4 = false) (hhalt : s.halted = false)
    (used : Nat) (l : List (Fin 240)) :
    exec (.s5Deadline true used l e) s =
      .next ((((s.moveTo e).tookIn used).wr CLK_TICK_STATUS.OVR_CONSEC 0).showUsed.passed 5) := by
  have hmoved := (moveTo_sim s e).1
  have honly := tookIn_only (s.moveTo e) used
  have hnone' : ((s.moveTo e).tookIn used).tm.overran = false := by
    rw [honly.tm rfl]
    show (s.moveTo e).tm.overran = false
    rw [hmoved]
    exact hnone
  have hhalt' : ((s.moveTo e).tookIn used).halted = false := by
    unfold State.halted State.bit at hhalt ⊢
    rw [honly.rd _ (by decide)]
    exact (congrArg (fun n : Nat => n == 1) (rd_moveTo s e _)).trans hhalt
  have hlate : ((s.moveTo e).stageUsed 5 used false).lateIntake true = (s.moveTo e).stageUsed 5 used false := by
    have hintime' : ((s.moveTo e).stageUsed 5 used false).tm.late4 = false := by
      show (s.moveTo e).tm.late4 = false
      rw [hmoved]
      exact hintime
    unfold State.lateIntake
    rw [if_pos (.inr ⟨rfl, by rw [hintime']; rfl⟩)]
  have hcount : ((s.moveTo e).tookIn used).countOverrun = ((s.moveTo e).tookIn used).wr CLK_TICK_STATUS.OVR_CONSEC 0 := by
    unfold State.countOverrun
    rw [if_neg (by rw [hhalt']; decide), if_pos (by rw [hnone']; rfl)]
  refine congrArg Host.Outcome.next ((s.live_on hon).trans ((atDeadline_due hrun hphase hdue).trans (congrArg (State.passed · 5) ?_)))
  dsimp only
  rw [if_pos rfl, hlate]
  exact congrArg State.showUsed hcount

/-- Settles O3: each deadline by its equation above, the boundary by `beginTick_begun`, tend by `EntryOver`. -/
theorem tickStagesPass : Obligations.TickStagesPass := by
  have hused : ∀ (s : State) (e : Nat), (s.moveTo e).tm.used = s.tm.used := fun s e => by rw [(moveTo_sim s e).1]
  unfold Obligations.TickStagesPass
  refine ⟨fun s e hon hrun hphase hawake hperiod hshed hlate => ⟨_, exec_tickBoundary hon hrun hphase hawake hlate, ?_⟩,
    fun s x sk used e hon hrun hphase hdue hready hup hhalt hidle =>
      ⟨_, exec_s0Deadline hon hrun hphase hdue hready hup hhalt hidle ⟨x, sk⟩ used, rfl, ?_⟩,
    fun s e hon hruns hhalt hkept hearly => ⟨_, exec_tend hon hruns hhalt hkept hearly, ?_⟩,
    fun s e hon hrun hphase hruns hhalt hdue => ⟨_, exec_tend_late hon hrun hphase hruns hhalt hdue, ?_⟩,
    fun s e hon hrun hphase hdue hover htended hwhole hhalt =>
      ⟨_, exec_s1Deadline hon hrun hphase hdue hover htended hwhole hhalt, rfl, decideTick_plan _,
        (decideTick_regs _).trans (moveTo_regs s e)⟩,
    fun s used e hon hrun hphase hdue hwhole => ⟨_, exec_s2Deadline hon hrun hphase hdue hwhole used, rfl,
      congrArg (List.set · 2 used) (hused s e), s.moveTo_sched e, s.moveTo_cells e, moveTo_regs s e⟩,
    fun s used e hon hrun hphase hdue hwhole hover hup hhalt hplan =>
      ⟨_, exec_s3Deadline hon hrun hphase hdue hwhole hup .all used, rfl, ?_⟩,
    fun s used e hon hrun hphase hdue => ⟨_, exec_s4Deadline hon hrun hphase hdue used, rfl, rfl,
      congrArg (List.set · 4 used) (hused s e), s.moveTo_cells e, moveTo_regs s e⟩,
    fun s used e l hon hrun hphase hdue hnone hintime hhalt =>
      ⟨_, exec_s5Deadline hon hrun hphase hdue hnone hintime hhalt used l, rfl, ?_⟩⟩
  · have hper : (s.moveTo e).period = s.period := by unfold State.period; rw [(moveTo_sim s e).1]
    obtain ⟨hbegun, hnumber, hstart, htended, habandoned, huse⟩ := tickBoundary_begun (e := e) hperiod hshed
    rw [hper] at hnumber hstart
    exact ⟨hbegun, hnumber, hstart, htended, habandoned, huse⟩
  · obtain ⟨hruns, htended, huse⟩ := startS1_entry ((s.moveTo e).acquired ⟨x, sk⟩ used)
    obtain ⟨hcounted, -⟩ := acquired_stands (s.moveTo e) ⟨x, sk⟩ used
    rw [hcounted, hused] at huse
    generalize ((s.moveTo e).acquired ⟨x, sk⟩ used).startS1 = u at hruns htended huse
    exact ⟨hruns, htended, huse⟩
  · have hover : EntryOver (s.moveTo e).lawDone.tendLeaves := tendLeaves_over ⟨rfl, rfl⟩
    have hleft := tendLeaves_atTend (s.moveTo e).lawDone
    generalize (s.moveTo e).lawDone.tendLeaves = u at hover hleft
    dsimp only
    split
    · exact ⟨hleft, hover.tended, hover.stopped⟩
    · exact ⟨hleft, hover.tended, hover.stopped⟩
  · obtain ⟨htended, habandoned, -⟩ := s1Work_late (s := s.moveTo e) (by rw [(moveTo_sim s e).1]; exact hruns)
      ((mt_halted s e).trans hhalt)
    rw [(moveTo_sim s e).1] at htended
    generalize (s.moveTo e).s1Work = u at htended habandoned
    exact ⟨htended, habandoned, rfl⟩
  · have hlaunch := launch_launched (s.atLaunch used e)
    rw [atLaunch_normal hhalt hover hplan] at hlaunch
    rw [agreed_all]
    have hlaunched := commitTick_launched (s.atLaunch used e).launch
    have honly := commitTick_only (s.atLaunch used e).launch
    rw [hlaunch.launched] at hlaunched
    have hrepeat := (honly.rd CLK_TICK_STATUS.REPEAT (by decide)).trans hlaunch.shownRepeat
    have hhold := (honly.rd CLK_TICK_STATUS.HOLD (by decide)).trans hlaunch.shownHold
    generalize (s.atLaunch used e).launch.commitTick = u at hlaunched hrepeat hhold
    exact ⟨hlaunched, hrepeat, hhold⟩
  · have hcount : ((s.moveTo e).tookIn used).rd CLK_TICK_OVR_COUNT.COUNT = s.rd CLK_TICK_OVR_COUNT.COUNT :=
      ((tookIn_only (s.moveTo e) used).rd _ (by decide)).trans (rd_moveTo s e _)
    obtain ⟨hclear, hstands⟩ := countsClosed ((s.moveTo e).tookIn used)
    rw [hcount] at hstands
    generalize (((s.moveTo e).tookIn used).wr CLK_TICK_STATUS.OVR_CONSEC 0).showUsed = u at hclear hstands
    exact ⟨hclear, hstands⟩

end Sys2Proof.Machine
end

section
/-! PROOFS. The cells' configuration, the plant's rating and the derating rows (02_cell_strings.md R58 to R61, R64, R65): O14. -/
namespace Sys2Proof.Machine
open Reg

/-! ### The word of HGS_CELL_CFG_n (R58) -/

/-- HGS_CELL_CFG_n's row of the register table (R58). -/
def hgsCellCfg : RegRow :=
  ⟨"HGS_CELL_CFG_n", 0x110000, 240, [⟨HGS_CELL_CFG_n.ENABLE, .rw, [0], .none⟩, ⟨HGS_CELL_CFG_n.PHASE, .rw, [0], .u 0 2⟩,
    ⟨HGS_CELL_CFG_n.ROLE, .rw, [0], .u 0 2⟩, ⟨HGS_CELL_CFG_n.VLINK, .rw, [0], .none⟩]⟩

theorem hgsCellCfg_off (c : Fin 240) : HGS_CELL_CFG_n.ENABLE.off c / 0x10000 = 0x11 ∧
    (HGS_CELL_CFG_n.ENABLE.off c - hgsCellCfg.base) / 4 = c := by
  show (0x110000 + 4 * c.val) / 0x10000 = 0x11 ∧ (0x110000 + 4 * c.val - 0x110000) / 4 = c.val
  omega

/-- Every cell's word lies in the first family of its block. -/
theorem hgsCellCfg_found (c : Fin 240) : regAt (HGS_CELL_CFG_n.ENABLE.off c) = some hgsCellCfg := by
  have hlo : 0x110000 ≤ HGS_CELL_CFG_n.ENABLE.off c := Nat.le_add_right _ _
  have hhi : HGS_CELL_CFG_n.ENABLE.off c < 0x110000 + 4 * 240 :=
    Nat.add_lt_add_left (Nat.mul_lt_mul_of_pos_left c.isLt (by decide)) _
  unfold regAt
  rw [(hgsCellCfg_off c).1]
  exact if_pos ⟨hlo, hhi⟩

/-- A cell takes a word as its configuration, and its node holds another one until it is sent (R58). -/
def State.withCellCfg (s : State) (c v : Nat) : State :=
  (s.putRwi HGS_CELL_CFG_n.ENABLE c v).updCell c (fun x => { x with svc := { x.svc with dirty := true } })

theorem putCellCfg (s : State) (c : Fin 240) (v : Nat) :
    s.putRwi HGS_CELL_CFG_n.ENABLE c v = s.putFields c v hgsCellCfg.writable := by
  unfold State.putRwi
  rw [if_pos (show c.val < HGS_CELL_CFG_n.ENABLE.count from c.isLt), putRw_at (hgsCellCfg_found c), (hgsCellCfg_off c).2]

/-- The four fields take their bits of the word (R58). -/
theorem withCellCfg_fields (s : State) (c : Fin 240) (v : Nat) :
    (s.withCellCfg c v).rdi HGS_CELL_CFG_n.ENABLE c = bits v 31 1 ∧
    (s.withCellCfg c v).rdi HGS_CELL_CFG_n.PHASE c = bits v 28 2 ∧
    (s.withCellCfg c v).rdi HGS_CELL_CFG_n.ROLE c = bits v 26 2 ∧
    (s.withCellCfg c v).rdi HGS_CELL_CFG_n.VLINK c = bits v 0 11 := by
  have hpair : hgsCellCfg.writable.Pairwise (fun x y => apart y.f x.f = true) := by decide
  have htakes : ∀ x ∈ hgsCellCfg.writable, c.val < x.f.count → (s.withCellCfg c v).rdi x.f c = bits v x.f.lo x.f.w :=
    fun x hx hc => (rdi_of_regs (congrArg State.regs (putCellCfg s c v)) x.f c).trans (rdi_putFields_mem s hpair hx hc)
  exact ⟨htakes _ (.head _) c.isLt, htakes _ (.tail _ (.head _)) c.isLt, htakes _ (.tail _ (.tail _ (.head _))) c.isLt,
    htakes _ (.tail _ (.tail _ (.tail _ (.head _)))) c.isLt⟩

/-- The cell's word is the only one that changes. -/
theorem withCellCfg_words (s : State) (c v : Nat) :
    WordsKept [HGS_CELL_CFG_n.ENABLE.off c] HGS_RATING_STATUS.CFG_ERR s (s.withCellCfg c v) :=
  (WordsKept.putRwi (Fld.off_mod rfl c) (List.mem_singleton.mpr rfl)).trans (.of_regs rfl)

theorem putRwi_cell (s : State) (f : Fld) (i v d : Nat) : (s.putRwi f i v).cell d = s.cell d := by
  unfold State.putRwi
  split
  · exact congrArg (tget _ · d) (putRw_cells ..)
  · rfl

theorem withCellCfg_cell_self (s : State) (c v : Nat) : (s.withCellCfg c v).cell c =
    { s.cell c with svc := { (s.cell c).svc with dirty := true } } := by
  unfold State.withCellCfg
  rw [State.cell_updCell_self, putRwi_cell]

theorem withCellCfg_cell_ne (s : State) {c d : Nat} (v : Nat) (h : d ≠ c) : (s.withCellCfg c v).cell d = s.cell d := by
  unfold State.withCellCfg
  rw [State.cell_updCell_ne _ _ (Ne.symm h), putRwi_cell]

/-! ### A cell's configuration is written (R4, R59) -/

theorem exec_hgsCellCfgWrite {s : State} (hon : s.pwr.mainOn = true) (c : Fin 240) (v : Nat) (ag : Agent) :
    exec (.hgsCellCfgWrite c v ag) s = .next (s.writeCellCfg c v ag) := congrArg Host.Outcome.next (s.live_on hon)

/-- A cell that the part lacks takes no write, an enabling one neither (R4; log entry 90, the model's choice where R55 would
refuse). -/
theorem writeCellCfg_absent {s : State} {c : Nat} (h : s.cellCount ≤ c) (v : Nat) (ag : Agent) : s.writeCellCfg c v ag = s :=
  if_pos h

/-- Only a cell of the part may be enabled (R55). -/
theorem lt_cellCount_of_cellCfgOk {s : State} {c v : Nat} (hok : s.cellCfgOk c v = true) (hen : bitOf v 31 = true) :
    c < s.cellCount := by
  unfold State.cellCfgOk at hok
  simp only [hen, Bool.and_eq_true, Bool.or_eq_true, decide_eq_true_eq, Bool.not_true, Bool.false_eq_true, false_or] at hok
  obtain ⟨-, ⟨⟨-, hcell⟩, -⟩, -⟩ := hok
  exact hcell

/-- An allowed word with ENABLE = 1 is taken; a cell that was disabled loses its HOLD and its service state (R309). -/
theorem writeCellCfg_enabling {s : State} {c v : Nat} (hopen : s.cfgOpen c = true) (hok : s.cellCfgOk c v = true)
    (hen : bitOf v 31 = true) (ag : Agent) :
    s.writeCellCfg c v ag =
      let u := (if bits v 26 2 ≠ 2 then s.abandonScan c else s).withCellCfg c v
      if s.enabled c then u else (u.wri JOIN_CELL_STATUS_n.HOLD c 0).wri JOIN_CELL_STATUS_n.SSTATE c 0 := by
  have hcell : ¬ s.cellCount ≤ c := Nat.not_le.mpr (lt_cellCount_of_cellCfgOk hok hen)
  unfold State.writeCellCfg
  cases s.enabled c with
  | false => simp [hcell, hopen, hok, hen, State.withCellCfg]
  | true => simp [hcell, hopen, hok, hen, State.withCellCfg]

/-- An allowed word with ENABLE = 0 disables a cell that was enabled, and is taken (R58, R59). -/
theorem writeCellCfg_disabling {s : State} {c v : Nat} (hopen : s.cfgOpen c = true) (hok : s.cellCfgOk c v = true)
    (hcell : c < s.cellCount) (hwas : s.enabled c = true) (hdis : bitOf v 31 = false) (ag : Agent) :
    s.writeCellCfg c v ag = (s.disableCell c).withCellCfg c v := by
  unfold State.writeCellCfg
  simp [Nat.not_le.mpr hcell, hopen, hok, hwas, hdis, State.withCellCfg]

theorem abandonScan_only (s : State) (c : Nat) : Only 0x190c300002000200 s (s.abandonScan c) :=
  Only.abandonScan (Only.refl _ s) c rfl

theorem joinCounts_only (s : State) : Only 0x4000 s s.joinCounts := Only.joinCounts (Only.refl _ s) rfl

/-- A disabled cell has no service state and no link, and is blocked (R58, R307). -/
theorem disableCell_out (s : State) (c : Fin 240) : (s.disableCell c).sstate c = 0 ∧ (s.disableCell c).lstate c = 0 ∧
    ((s.disableCell c).cell c).svc.blk = true := by
  unfold State.disableCell
  extract_lets s1 s2 s3 s4
  have only := joinCounts_only s4
  refine ⟨(only.rdi _ _ rfl).trans ?_, (only.rdi _ _ rfl).trans ?_, ?_⟩
  · change s3.rdi JOIN_CELL_STATUS_n.SSTATE c = 0
    exact (State.rdi_wri_apart _ _ _ _ (by decide)).trans (State.rdi_wri_self _ 0 c.isLt)
  · change s3.rdi LINK_CELL_STATUS_n.LSTATE c = 0
    exact (State.rdi_wri_apart _ _ _ _ (by decide)).trans
      ((State.rdi_wri_apart _ _ _ _ (by decide)).trans (State.rdi_wri_self _ 0 c.isLt))
  · have hcells : s4.joinCounts.cell c = s4.cell c := congrArg (tget _ · c.val) (only.cells rfl)
    rw [hcells, State.cell_updCell_self]

/-- What an enabling write leaves: the word read back, a configuration to send, and every other cell as it was. -/
structure CellEnabled (s : State) (c : Fin 240) (v : Nat) (t : State) : Prop where
  enable : t.rdi HGS_CELL_CFG_n.ENABLE c = 1
  phase : t.rdi HGS_CELL_CFG_n.PHASE c = bits v 28 2
  role : t.rdi HGS_CELL_CFG_n.ROLE c = bits v 26 2
  vlink : t.rdi HGS_CELL_CFG_n.VLINK c = bits v 0 11
  dirty : (t.cell c).svc.dirty = true
  others : ∀ d, d ≠ c.val → t.cell d = s.cell d ∧ t.rdi HGS_CELL_CFG_n.ENABLE d = s.rdi HGS_CELL_CFG_n.ENABLE d

theorem bits_one_eq_b2n (v i : Nat) : bits v i 1 = b2n (bitOf v i) := by
  unfold bits bitOf b2n
  rcases Nat.mod_two_eq_zero_or_one (v / 2 ^ i) with h | h <;> simp [h]

theorem withCellCfg_enabled (s : State) (c : Fin 240) {v : Nat} (hen : bitOf v 31 = true) :
    CellEnabled s c v (s.withCellCfg c v) := by
  obtain ⟨henable, hphase, hrole, hvlink⟩ := withCellCfg_fields s c v
  exact {
    enable := by rw [henable, bits_one_eq_b2n, hen]; rfl
    phase := hphase
    role := hrole
    vlink := hvlink
    dirty := by rw [withCellCfg_cell_self]
    others := fun d hd => ⟨withCellCfg_cell_ne s v hd, withCellCfg_words s c v _ d
      (by rw [List.mem_singleton]; unfold Fld.off; omega) (by decide)⟩ }

/-- What stands before the word is taken may differ in the scans and in the records posted (R235). -/
theorem CellEnabled.of_cells {s r t : State} {c : Fin 240} {v : Nat} (h : CellEnabled r c v t) (hcells : r.cells = s.cells)
    (henable : ∀ d, r.rdi HGS_CELL_CFG_n.ENABLE d = s.rdi HGS_CELL_CFG_n.ENABLE d) : CellEnabled s c v t :=
  { h with
    others := fun d hd => ⟨(h.others d hd).1.trans (congrArg (tget _ · d) hcells), (h.others d hd).2.trans (henable d)⟩ }

/-- A write of a field that lies apart from HGS_CELL_CFG_n leaves what the cell has taken. -/
theorem CellEnabled.wri {s t : State} {c : Fin 240} {v : Nat} (h : CellEnabled s c v t) {f : Fld} (i k : Nat)
    (hf : hgsCellCfg.fields.all (fun x => apart f x.f) = true) : CellEnabled s c v (t.wri f i k) := by
  have hkept : ∀ x ∈ hgsCellCfg.fields, ∀ d, (t.wri f i k).rdi x.f d = t.rdi x.f d :=
    fun x hx d => t.rdi_wri_apart i d k (List.all_eq_true.mp hf x hx)
  exact {
    enable := (hkept _ (.head _) c).trans h.enable
    phase := (hkept _ (.tail _ (.head _)) c).trans h.phase
    role := (hkept _ (.tail _ (.tail _ (.head _))) c).trans h.role
    vlink := (hkept _ (.tail _ (.tail _ (.tail _ (.head _)))) c).trans h.vlink
    dirty := by rw [State.wri_cell]; exact h.dirty
    others := fun d hd => ⟨(State.wri_cell ..).trans (h.others d hd).1, (hkept _ (.head _) d).trans (h.others d hd).2⟩ }

theorem writeCellCfg_enabled {s : State} {c : Fin 240} {v : Nat} (hopen : s.cfgOpen c = true) (hok : s.cellCfgOk c v = true)
    (hen : bitOf v 31 = true) (ag : Agent) : CellEnabled s c v (s.writeCellCfg c v ag) := by
  rw [writeCellCfg_enabling hopen hok hen]
  have htaken : CellEnabled s c v ((if bits v 26 2 ≠ 2 then s.abandonScan c else s).withCellCfg c v) := by
    split
    · have only := abandonScan_only s c
      exact (withCellCfg_enabled _ c hen).of_cells (only.cells rfl) (fun d => only.rdi _ d rfl)
    · exact withCellCfg_enabled s c hen
  dsimp only
  split
  · exact htaken
  · exact (htaken.wri _ _ (by decide)).wri _ _ (by decide)

/-! ### The plant's rating (R60, R61) -/

/-- HGS_PLANT_VOLT's row (R60). -/
def hgsPlantVolt : RegRow :=
  ⟨"HGS_PLANT_VOLT", 0x100000, 1, [⟨HGS_PLANT_VOLT.VMAX, .rws, [1100], .u 1000 1200⟩,
    ⟨HGS_PLANT_VOLT.VNOM, .rws, [0], .u 660 3600⟩]⟩

/-- HGS_PLANT_CUR's row (R60). -/
def hgsPlantCur : RegRow :=
  ⟨"HGS_PLANT_CUR", 0x100004, 1, [⟨HGS_PLANT_CUR.XF, .rws, [80], .u 0 300⟩,
    ⟨HGS_PLANT_CUR.IRATED, .rws, [0], .u 1 65535⟩]⟩

theorem hgsPlantVolt_found : regAt HGS_PLANT_VOLT.VNOM.base = some hgsPlantVolt := by decide

theorem hgsPlantCur_found : regAt HGS_PLANT_CUR.XF.base = some hgsPlantCur := by decide

theorem exec_hgsPlantRatingWrite {s : State} (hon : s.pwr.mainOn = true) (cur : Bool) (v : Nat) (ag : Agent) :
    exec (.hgsPlantRatingWrite cur v ag) s = .next (s.writeRating cur v ag) := congrArg Host.Outcome.next (s.live_on hon)

theorem inRange_plantVolt {v : Nat} (hnlo : 660 ≤ bits v 0 12) (hnhi : bits v 0 12 ≤ 3600) (hmlo : 1000 ≤ bits v 16 11)
    (hmhi : bits v 16 11 ≤ 1200) : inRange HGS_PLANT_VOLT.VNOM.base v = true := by
  rw [inRange_at hgsPlantVolt_found]
  show (decide (1000 ≤ bits v 16 11) && decide (bits v 16 11 ≤ 1200) &&
    (decide (660 ≤ bits v 0 12) && decide (bits v 0 12 ≤ 3600) && true)) = true
  simp [hnlo, hnhi, hmlo, hmhi]

theorem inRange_plantCur {v : Nat} (hlo : 1 ≤ bits v 0 16) (hx : bits v 16 9 ≤ 300) :
    inRange HGS_PLANT_CUR.XF.base v = true := by
  have h16 : bits v 0 16 ≤ 65535 := Nat.le_of_lt_succ (bits_lt v 0 16)
  rw [inRange_at hgsPlantCur_found]
  show (decide (0 ≤ bits v 16 9) && decide (bits v 16 9 ≤ 300) &&
    (decide (1 ≤ bits v 0 16) && decide (bits v 0 16 ≤ 65535) && true)) = true
  simp [hlo, hx, h16]

theorem putRwi_zero (s : State) {f : Fld} (v : Nat) (h : 0 < f.count) : s.putRwi f 0 v = s.putRw f.base v := if_pos h

/-- In COMMISSIONING, with every cell blocked, a word in range is taken (R60, R61). -/
theorem writeRating_taken {s : State} {cur : Bool} {f : Fld} {v : Nat} (hcom : s.commissioning = true)
    (hblocked : s.allBlocked = true) (hf : (if cur then HGS_PLANT_CUR.XF else HGS_PLANT_VOLT.VNOM) = f)
    (hrange : inRange f.base v = true) (hone : 0 < f.count) (ag : Agent) : s.writeRating cur v ag = s.putRw f.base v := by
  unfold State.writeRating
  simp [hf, hcom, hblocked, hrange, putRwi_zero s v hone]

theorem putRw_plantVolt (s : State) (v : Nat) :
    (s.putRw HGS_PLANT_VOLT.VNOM.base v).rd HGS_PLANT_VOLT.VNOM = bits v 0 12 ∧
    (s.putRw HGS_PLANT_VOLT.VNOM.base v).rd HGS_PLANT_VOLT.VMAX = bits v 16 11 ∧
    (s.putRw HGS_PLANT_VOLT.VNOM.base v).rd HGS_PLANT_CUR.IRATED = s.rd HGS_PLANT_CUR.IRATED := by
  have hpair : hgsPlantVolt.writable.Pairwise (fun x y => apart y.f x.f = true) := by decide
  rw [putRw_at hgsPlantVolt_found]
  exact ⟨rdi_putFields_mem s hpair (.tail _ (.head _)) (by decide), rdi_putFields_mem s hpair (.head _) (by decide),
    rdi_putFields_apart s 0 v (by decide) 0⟩

theorem putRw_plantCur (s : State) (v : Nat) :
    (s.putRw HGS_PLANT_CUR.XF.base v).rd HGS_PLANT_CUR.IRATED = bits v 0 16 ∧
    (s.putRw HGS_PLANT_CUR.XF.base v).rd HGS_PLANT_CUR.XF = bits v 16 9 ∧
    (s.putRw HGS_PLANT_CUR.XF.base v).rd HGS_PLANT_VOLT.VNOM = s.rd HGS_PLANT_VOLT.VNOM := by
  have hpair : hgsPlantCur.writable.Pairwise (fun x y => apart y.f x.f = true) := by decide
  rw [putRw_at hgsPlantCur_found]
  exact ⟨rdi_putFields_mem s hpair (.tail _ (.head _)) (by decide), rdi_putFields_mem s hpair (.head _) (by decide),
    rdi_putFields_apart s 0 v (by decide) 0⟩

/-! ### The derating rows (R64, R65) -/

theorem rowCurrent_le (r : Nat) : rowCurrent r ≤ 100 := by
  unfold rowCurrent
  split <;> decide

theorem rowQcap_le (r : Nat) : rowQcap r ≤ 100 := by
  unfold rowQcap
  split <;> decide

/-- The row's record and the safe state of row 4 leave the registers of the rating (R64, R65). -/
theorem setRow_shows (s : State) {r : Nat} (hr : r ≤ 4) :
    (s.setRow r).rd HGS_RATING_STATUS.DERATE_ROW = r ∧ (s.setRow r).rd HGS_RATING_STATUS.CUR_LIMIT_PCT = rowCurrent r ∧
    (s.setRow r).rd HGS_RATING_STATUS.QCAP_LIMIT_PCT = rowQcap r := by
  have hcur := rowCurrent_le r
  have hqcap := rowQcap_le r
  unfold State.setRow
  extract_lets old s1 s2
  have hleft : ∀ f, fr 0x1942500120000200 f = true → fr 0x1100100000000200 f = true →
      (if r = 4 then s2.actScope SLC_TRIP_LATCH.DERATE4 1 3 7 true else s2).rd f = s1.rd f := by
    intro f hscope hpost
    have hrecord : s2.rd f = s1.rd f := (State.post_only s1 _ _).rd f hpost
    split
    · exact ((State.actScope_only s2 _ _ _ _ _ (by decide)).rd f hscope).trans hrecord
    · exact hrecord
  rw [hleft _ rfl rfl, hleft _ rfl rfl, hleft _ rfl rfl]
  refine ⟨?_, ?_, ?_⟩
  · rw [State.rd_wr_apart _ _ (by decide), State.rd_wr_apart _ _ (by decide), State.rd_wr_self _ _ (by decide)]
    exact Nat.mod_eq_of_lt (by show r < 2 ^ 3; omega)
  · rw [State.rd_wr_apart _ _ (by decide), State.rd_wr_self _ _ (by decide)]
    exact Nat.mod_eq_of_lt (by show rowCurrent r < 2 ^ 8; omega)
  · rw [State.rd_wr_self _ _ (by decide)]
    exact Nat.mod_eq_of_lt (by show rowQcap r < 2 ^ 8; omega)

theorem setRow_sched (s : State) (r : Nat) : (s.setRow r).sched = s.sched :=
  (Only.setRow (Only.refl 0x1942500120010200 s) r rfl).sched rfl

/-- A row that waits is taken at the boundary, and waits no more (R65). -/
theorem exec_derateRowDown {s : State} {r : Nat} (hon : s.pwr.mainOn = true) (hrun : s.tm.run = true) (hphase : s.tm.phase = 0)
    (hnext : s.sched.rowNext = some r) (e : Nat) :
    exec (.derateRowDown e) s =
      .next (({ s.moveTo e with sched := { (s.moveTo e).sched with rowNext := none } } : State).setRow r) := by
  refine (congrArg Host.Outcome.next (s.live_on hon)).trans (congrArg Host.Outcome.next ?_)
  simp [hnext, mt_run, mt_phase, hrun, hphase]

/-- The highest row whose 1 s has run out is taken (R65). -/
theorem exec_derateRowUp {s : State} {r e : Nat} (hon : s.pwr.mainOn = true) (hrun : s.tm.run = true)
    (hup : (s.moveTo e).rowUp = some r) : exec (.derateRowUp e) s = .next ((s.moveTo e).setRow r) := by
  refine (congrArg Host.Outcome.next (s.live_on hon)).trans (congrArg Host.Outcome.next ?_)
  simp [hup, mt_run, hrun]

/-- Settles O14: the writes by their equations and what the word's writing leaves, the row's moves by `setRow_shows`. -/
theorem cellAndPlantConfiguration : Obligations.CellAndPlantConfiguration := by
  unfold Obligations.CellAndPlantConfiguration
  refine ⟨fun s c v ag hon hopen hok hen => ⟨_, exec_hgsCellCfgWrite hon c v ag, ?_⟩,
    fun s c v ag hon hopen hok hcell hwas hdis => ⟨_, exec_hgsCellCfgWrite hon c v ag, ?_⟩,
    fun s c v ag hon habsent => ?_,
    fun s v ag hon hcom hblocked hnlo hnhi hmlo hmhi => ⟨_, exec_hgsPlantRatingWrite hon false v ag, ?_⟩,
    fun s v ag hon hcom hblocked hcur hx => ⟨_, exec_hgsPlantRatingWrite hon true v ag, ?_⟩,
    fun s r e hon hrun hphase hnext hr => ⟨_, exec_derateRowDown hon hrun hphase hnext e, ?_⟩,
    fun s r e hon hrun hup hr => ⟨_, exec_derateRowUp hon hrun hup, setRow_shows _ hr⟩⟩
  · obtain ⟨henable, hphase, hrole, hvlink, hdirty, hothers⟩ := writeCellCfg_enabled hopen hok hen ag
    exact ⟨henable, hphase, hrole, hvlink, hdirty, hothers⟩
  · rw [writeCellCfg_disabling hopen hok hcell hwas hdis]
    obtain ⟨henable, -⟩ := withCellCfg_fields (s.disableCell c) c v
    obtain ⟨hsstate, hlstate, hblk⟩ := disableCell_out s c
    have hkept : ∀ f : Fld, f.off c ≠ HGS_CELL_CFG_n.ENABLE.off c → apart HGS_RATING_STATUS.CFG_ERR f = true →
        ((s.disableCell c).withCellCfg c v).rdi f c = (s.disableCell c).rdi f c :=
      fun f hoff happ => withCellCfg_words _ c v f c (by rwa [List.mem_singleton]) happ
    refine ⟨by rw [henable, bits_one_eq_b2n, hdis]; rfl, (hkept _ ?_ (by decide)).trans hsstate,
      (hkept _ ?_ (by decide)).trans hlstate, by rw [withCellCfg_cell_self]; exact hblk⟩
    · exact mt Nat.add_right_cancel (by decide)
    · exact mt Nat.add_right_cancel (by decide)
  · rw [exec_hgsCellCfgWrite hon, writeCellCfg_absent habsent]
  · rw [writeRating_taken (f := HGS_PLANT_VOLT.VNOM) hcom hblocked rfl
      (inRange_plantVolt hnlo hnhi hmlo hmhi) (by decide)]
    exact putRw_plantVolt s v
  · rw [writeRating_taken (f := HGS_PLANT_CUR.XF) hcom hblocked rfl (inRange_plantCur hcur hx) (by decide)]
    exact putRw_plantCur s v
  · obtain ⟨hrow, hcur, hqcap⟩ :=
      setRow_shows ({ s.moveTo e with sched := { (s.moveTo e).sched with rowNext := none } } : State) hr
    exact ⟨hrow, hcur, hqcap, congrArg SchedSt.rowNext (setRow_sched _ r)⟩

end Sys2Proof.Machine
end

section
/-! PROOFS. The swaps of shadowed register tables (03_headgate_dispatch.md R102; 04_current_control.md R136, R137; R176, R217,
R243, R566, R699): O19. -/
namespace Sys2Proof.Machine
open Reg

/-! ### A request waits (R102, R136) -/

/-- A table-control register and its tables: PENDING and ACTIVE are single bits, apart from each other and from every
shadow, and no field lies in the half where the active copies stand (R699). -/
def isSwapGroup (pend active : Fld) (fs : List Fld) : Bool :=
  decide (pend.count = 1 ∧ pend.w = 1 ∧ active.count = 1 ∧ active.w = 1) && apart active pend &&
    (pend :: active :: fs).all low && fs.all (fun f => apart pend f && apart active f)

/-- What `isSwapGroup` checks. -/
structure SwapGroup (pend active : Fld) (fs : List Fld) : Prop where
  pendBit : pend.count = 1 ∧ pend.w = 1
  activeBit : active.count = 1 ∧ active.w = 1
  bitsApart : apart active pend = true
  pendLow : low pend = true
  activeLow : low active = true
  tablesLow : ∀ f ∈ fs, low f = true
  tablesApart : ∀ f ∈ fs, apart pend f = true ∧ apart active f = true

theorem swapGroup_of_check {pend active : Fld} {fs : List Fld} (h : isSwapGroup pend active fs = true) :
    SwapGroup pend active fs := by
  simp only [isSwapGroup, Bool.and_eq_true, decide_eq_true_eq, List.all_cons, List.all_eq_true] at h
  obtain ⟨⟨⟨⟨hpcount, hpw, hacount, haw⟩, hbits⟩, hpend, hactive, htables⟩, hoff⟩ := h
  exact ⟨⟨hpcount, hpw⟩, ⟨hacount, haw⟩, hbits, hpend, hactive, htables, hoff⟩

theorem next_live {s : State} (hon : s.pwr.mainOn = true) (g : State → State) :
    (.next (s.live g) : Host.Outcome State Fault Refusal) = .next (g s) :=
  congrArg Host.Outcome.next (s.live_on hon)

theorem next_live_due {s : State} (hon : s.pwr.mainOn = true) {base : Nat} (hdue : s.boundaryDue base = true)
    (g : State → State) :
    (.next (s.live fun s => if s.boundaryDue base then g s else s) : Host.Outcome State Fault Refusal) = .next (g s) :=
  (next_live hon _).trans (congrArg Host.Outcome.next (if_pos hdue))

theorem bit_of_rd {s : State} {f : Fld} (h : s.rd f = 1) : s.bit f = true := by simp [State.bit, h]

section SwapRules
variable {pend active : Fld} {fs : List Fld} {s t : State}

/-- Showing a request as pending moves no active copy. -/
theorem wrPending_waits (hgroup : SwapGroup pend active fs) (s : State) :
    (s.wr pend 1).rd pend = 1 ∧ ∀ f ∈ fs, ∀ i, (s.wr pend 1).acti f i = s.acti f i := by
  obtain ⟨hcount, hw⟩ := hgroup.pendBit
  refine ⟨?_, fun f hf i => s.acti_wri i 0 1 (hgroup.tablesLow f hf) hgroup.pendLow⟩
  rw [s.rd_wr_self 1 (by omega), hw]
  rfl

/-- A request that comes with none pending and passes its check is pending, and moves no active copy. -/
theorem swapRequest_waits (hgroup : SwapGroup pend active fs) (hfree : s.rd pend = 0) {ok : Prop} [Decidable ok] (hok : ok)
    {base : Nat} {refused : State}
    (ht : t = if s.bit pend = true then s else if ok then (s.wr pend 1).askAt base else refused) :
    t.rd pend = 1 ∧ ∀ f ∈ fs, ∀ i, t.acti f i = s.acti f i := by
  have hbit : ¬ s.bit pend = true := by simp [State.bit, hfree]
  rw [ht, if_neg hbit, if_pos hok]
  exact wrPending_waits hgroup s

/-! ### The tables become active at the boundary (R102, R136, R699) -/

/-- The swap of a group from `s` to `t`: nothing is pending, ACTIVE has toggled, and each active copy is what its shadow reads,
before and after. -/
structure SwapTaken (pend active : Fld) (fs : List Fld) (s t : State) : Prop where
  pending : t.rd pend = 0
  toggled : t.rd active = 1 - s.rd active
  copied : ∀ f ∈ fs, ∀ i, i < f.count → t.acti f i = s.rdi f i ∧ t.rdi f i = s.rdi f i

theorem activateAll_swapTaken (hgroup : SwapGroup pend active fs) (s : State) :
    SwapTaken pend active fs s (((s.activateAll fs).wr pend 0).wr active (1 - s.rd active)) := by
  obtain ⟨hpcount, hpw⟩ := hgroup.pendBit
  obtain ⟨hacount, haw⟩ := hgroup.activeBit
  obtain ⟨hshadow, -, hcopy⟩ := State.activateAll_spec fs hgroup.tablesLow s
  refine ⟨?_, ?_, fun f hf i hi => ⟨?_, ?_⟩⟩
  · rw [State.rd_wr_apart _ _ hgroup.bitsApart, State.rd_wr_self _ 0 (by omega), Nat.zero_mod]
  · rw [State.rd_wr_self _ _ (by omega), haw]
    omega
  · have hlow := hgroup.tablesLow f hf
    exact (State.acti_wri _ i 0 _ hlow hgroup.activeLow).trans
      ((State.acti_wri _ i 0 _ hlow hgroup.pendLow).trans (hcopy f i hf hi))
  · obtain ⟨hpend, hactive⟩ := hgroup.tablesApart f hf
    exact (State.rdi_wri_apart _ 0 i _ hactive).trans
      ((State.rdi_wri_apart _ 0 i _ hpend).trans (hshadow f i (hgroup.tablesLow f hf)))

theorem acti_of_regs (h : t.regs = s.regs) (f : Fld) (i : Nat) : t.acti f i = s.acti f i := by
  unfold State.acti
  rw [h]

namespace SwapTaken

theorem shows (h : SwapTaken pend active fs s t) : t.rd pend = 0 ∧ t.rd active = 1 - s.rd active ∧
    ∀ f ∈ fs, ∀ i, i < f.count → t.acti f i = s.rdi f i ∧ t.rdi f i = s.rdi f i :=
  ⟨h.pending, h.toggled, h.copied⟩

/-- A write of a field apart from the group leaves the swap taken. -/
theorem wr (h : SwapTaken pend active fs s t) (hgroup : SwapGroup pend active fs) {g : Fld} (hlow : low g = true)
    (hoff : ∀ f ∈ pend :: active :: fs, apart g f = true) (v : Nat) : SwapTaken pend active fs s (t.wr g v) := by
  obtain ⟨hpend, hactive, hfs⟩ : apart g pend = true ∧ apart g active = true ∧ ∀ f ∈ fs, apart g f = true := by
    simpa only [List.forall_mem_cons] using hoff
  refine ⟨(t.rd_wr_apart v hpend).trans h.pending, (t.rd_wr_apart v hactive).trans h.toggled, fun f hf i hi => ?_⟩
  obtain ⟨hcopy, hshadow⟩ := h.copied f hf i hi
  exact ⟨(t.acti_wri i 0 v (hgroup.tablesLow f hf) hlow).trans hcopy, (t.rdi_wri_apart 0 i v (hfs f hf)).trans hshadow⟩

/-- The swap is the register file's alone. -/
theorem of_regs {s' t' : State} (h : SwapTaken pend active fs s t) (hs : s'.regs = s.regs) (ht : t'.regs = t.regs) :
    SwapTaken pend active fs s' t' := by
  refine ⟨(rdi_of_regs ht pend 0).trans h.pending, ?_, fun f hf i hi => ?_⟩
  · exact (rdi_of_regs ht active 0).trans (h.toggled.trans (congrArg (1 - ·) (rdi_of_regs hs active 0).symm))
  · obtain ⟨hcopy, hshadow⟩ := h.copied f hf i hi
    rw [rdi_of_regs hs]
    exact ⟨(acti_of_regs ht f i).trans hcopy, (rdi_of_regs ht f i).trans hshadow⟩

/-- What changes no register of the group's blocks leaves the swap taken. -/
theorem of_only {M : Nat} {u : State} (h : SwapTaken pend active fs s t) (honly : Only M t u)
    (hout : ∀ f ∈ pend :: active :: fs, fr M f = true) : SwapTaken pend active fs s u := by
  obtain ⟨hpend, hactive, hfs⟩ : fr M pend = true ∧ fr M active = true ∧ ∀ f ∈ fs, fr M f = true := by
    simpa only [List.forall_mem_cons] using hout
  refine ⟨(honly.rd _ hpend).trans h.pending, (honly.rd _ hactive).trans h.toggled, fun f hf i hi => ?_⟩
  obtain ⟨hcopy, hshadow⟩ := h.copied f hf i hi
  exact ⟨(honly.acti f i (hfs f hf)).trans hcopy, (honly.rdi f i (hfs f hf)).trans hshadow⟩

end SwapTaken

end SwapRules

/-! ### The groups (R102, R136, R176, R217, R243, R566) -/

theorem hgsGroup : SwapGroup HGS_TABLE_CTRL.PENDING HGS_TABLE_CTRL.ACTIVE hgsTables := swapGroup_of_check (by decide)
theorem ctlGroup : SwapGroup CTL_TABLE_CTRL.PENDING CTL_TABLE_CTRL.ACTIVE ctlTables := swapGroup_of_check (by decide)
theorem frtGroup : SwapGroup FRT_TABLE_CTRL.PENDING FRT_TABLE_CTRL.ACTIVE frtTables := swapGroup_of_check (by decide)
theorem mirGroup : SwapGroup MIR_TABLE_CTRL.PENDING MIR_TABLE_CTRL.ACTIVE mirTables := swapGroup_of_check (by decide)
theorem portGroup : SwapGroup PORT_TABLE_CTRL.PENDING PORT_TABLE_CTRL.ACTIVE portTables := swapGroup_of_check (by decide)

/-- The shadowed fields of the calibration set (R566). -/
def calTables : List Fld :=
  [MTR_CH_CAL_c.GAIN, MTR_CH_CAL_c.OFFSET, MTR_QTY_CAL_k.GAIN, MTR_QTY_CAL_k.OFFSET, MTR_CH_PHASE_c.PHASE]

theorem calGroup : SwapGroup MTR_CAL_CTRL.PENDING MTR_CAL_CTRL.ACTIVE calTables := swapGroup_of_check (by decide)

theorem hgsSwap_waits (s : State) :
    s.hgsSwap.rd HGS_TABLE_CTRL.PENDING = 1 ∧ ∀ f ∈ hgsTables, ∀ i, s.hgsSwap.acti f i = s.acti f i := by
  unfold State.hgsSwap
  split
  · next hpend => exact ⟨beq_iff_eq.mp hpend, fun _ _ _ => rfl⟩
  · exact wrPending_waits hgsGroup s

theorem calSwap_waits (s : State) :
    s.calSwap.rd MTR_CAL_CTRL.PENDING = 1 ∧ s.calSwap.mtr = { s.mtr with swapAt := s.calSwap.mtr.swapAt } ∧
      ∀ c, s.calSwap.acti MTR_CH_CAL_c.GAIN c = s.acti MTR_CH_CAL_c.GAIN c := by
  unfold State.calSwap
  split
  · next hpend => exact ⟨beq_iff_eq.mp hpend, rfl, fun _ => rfl⟩
  · obtain ⟨hpend, hcopies⟩ := wrPending_waits calGroup { s with mtr := { s.mtr with swapAt := s.tm.e } }
    refine ⟨hpend, ?_, fun c => hcopies _ (.head _) c⟩
    rw [State.wr_mtr]

theorem hgsApply_taken {s : State} (hpend : s.rd HGS_TABLE_CTRL.PENDING = 1) :
    SwapTaken HGS_TABLE_CTRL.PENDING HGS_TABLE_CTRL.ACTIVE hgsTables s s.hgsApply := by
  unfold State.hgsApply
  rw [if_pos (bit_of_rd hpend)]
  exact activateAll_swapTaken hgsGroup s

/-- The gains kept for the step that S1 makes up are no register (R138). -/
theorem ctlApply_taken {s : State} (hpend : s.rd CTL_TABLE_CTRL.PENDING = 1) :
    SwapTaken CTL_TABLE_CTRL.PENDING CTL_TABLE_CTRL.ACTIVE ctlTables s s.ctlApply := by
  unfold State.ctlApply
  rw [if_pos (bit_of_rd hpend)]
  extract_lets old g u
  exact (activateAll_swapTaken ctlGroup u).of_regs rfl rfl

/-- SAFETY_APPLIED follows the applied window; the law keeps its timers (R176, R188). -/
theorem frtApply_taken {s : State} (hpend : s.rd FRT_TABLE_CTRL.PENDING = 1) :
    SwapTaken FRT_TABLE_CTRL.PENDING FRT_TABLE_CTRL.ACTIVE frtTables s s.frtApply := by
  unfold State.frtApply
  rw [if_pos (bit_of_rd hpend)]
  exact (activateAll_swapTaken frtGroup s).wr frtGroup (by decide) (by decide) _

theorem frtApply_law (s : State) : s.frtApply.law = s.law := (Only.frtApply (Only.refl 0x180000 s) rfl).law rfl

/-- A new code's windows start again, which MIR_STATUS shows (R217). -/
theorem mirApply_taken {s : State} (hpend : s.rd MIR_TABLE_CTRL.PENDING = 1) :
    SwapTaken MIR_TABLE_CTRL.PENDING MIR_TABLE_CTRL.ACTIVE mirTables s s.mirApply := by
  have htaken := activateAll_swapTaken mirGroup s
  unfold State.mirApply
  rw [if_pos (bit_of_rd hpend)]
  extract_lets new u g w
  split
  · have hlaw := htaken.of_regs rfl (show w.regs = u.regs from rfl)
    exact ((hlaw.wr mirGroup (by decide) (by decide) 0).wr mirGroup (by decide) (by decide) 0).wr mirGroup (by decide) (by decide) 0
  · exact htaken

/-- A new scan interval counts from the boundary, which is the law's alone (R232). -/
theorem portApply_taken {s : State} (hpend : s.rd PORT_TABLE_CTRL.PENDING = 1) :
    SwapTaken PORT_TABLE_CTRL.PENDING PORT_TABLE_CTRL.ACTIVE portTables s s.portApply := by
  unfold State.portApply
  rw [if_pos (bit_of_rd hpend)]
  extract_lets src srcC u
  have hregs : s.regs = u.regs := by
    unfold u
    split <;> rfl
  exact (activateAll_swapTaken portGroup u).of_regs hregs rfl

/-- The calibration's CRC and METER_FLAG follow the swap (R566). -/
theorem calApply_taken {s : State} (hdue : s.mtr.calDue = true) (hbefore : s.mtr.atS5 = false)
    (hpend : s.rd MTR_CAL_CTRL.PENDING = 1) :
    SwapTaken MTR_CAL_CTRL.PENDING MTR_CAL_CTRL.ACTIVE calTables s s.calApply := by
  have htaken := activateAll_swapTaken calGroup s
  have hshown : (s.activateAll calTables).rd MTR_CAL_CTRL.ACTIVE = s.rd MTR_CAL_CTRL.ACTIVE :=
    (State.activateAll_spec calTables calGroup.tablesLow s).1 _ 0 calGroup.activeLow
  rw [← hshown] at htaken
  unfold State.calApply
  rw [if_pos ⟨hdue, by rw [hbefore]; rfl, bit_of_rd hpend⟩]
  extract_lets u v cv latchAt samples shown meter w
  have hv : SwapTaken MTR_CAL_CTRL.PENDING MTR_CAL_CTRL.ACTIVE calTables s v := htaken
  have hshownCv : SwapTaken MTR_CAL_CTRL.PENDING MTR_CAL_CTRL.ACTIVE calTables s shown :=
    hv.wr calGroup (by decide) (by decide) cv
  have hsamples := hshownCv.of_regs rfl (show w.regs = shown.regs from rfl)
  exact hsamples.of_only (Only.meterFlag (Only.refl 0x1100100000000200 w) 6 0xFFFF cv rfl) (by decide)

/-- Settles O19: a request by `swapRequest_waits`, the boundary by each group's `SwapTaken`. That a CTL set is checked with
NOTCH_EN as written is the model's choice (log entry 101). -/
theorem tableSwapsWaitAndApply : Obligations.TableSwapsWaitAndApply := by
  unfold Obligations.TableSwapsWaitAndApply
  refine ⟨fun s hon => ⟨_, next_live hon _, hgsSwap_waits s⟩,
    fun s ag hon hfree hok => ⟨_, next_live hon _, swapRequest_waits ctlGroup hfree hok rfl⟩,
    fun s ag hon hfree hok => ⟨_, next_live hon _, swapRequest_waits frtGroup hfree hok rfl⟩,
    fun s ag hon hfree hchip hdmax => ⟨_, next_live hon _, swapRequest_waits mirGroup hfree ?_ rfl⟩,
    fun s ag hon hfree hlo hcold hhot => ⟨_, next_live hon _, swapRequest_waits portGroup hfree ?_ rfl⟩,
    fun s hon => ⟨_, next_live hon _, calSwap_waits s⟩,
    fun s hon hdue hpend => ⟨_, next_live_due hon hdue _, (hgsApply_taken hpend).shows⟩,
    fun s hon hdue hpend => ⟨_, next_live_due hon hdue _, (ctlApply_taken hpend).shows⟩,
    fun s hon hdue hpend => ⟨_, next_live_due hon hdue _, ?_⟩,
    fun s hon hdue hpend => ⟨_, next_live_due hon hdue _, (mirApply_taken hpend).shows⟩,
    fun s hon hdue hpend => ⟨_, next_live_due hon hdue _, (portApply_taken hpend).shows⟩,
    fun s hon hdue hbefore hpend => ⟨_, next_live hon _, ?_⟩⟩
  · rw [hchip, hdmax, beq_self_eq_true]
    rfl
  · simp [rising, hlo, hcold, hhot]
  · obtain ⟨hpending, htoggled, hcopied⟩ := frtApply_taken hpend
    exact ⟨hpending, htoggled, frtApply_law s, hcopied⟩
  · obtain ⟨hpending, htoggled, hcopied⟩ := calApply_taken hdue hbefore hpend
    have hactive : ∀ f ∈ calTables, ∀ i, i < f.count → s.calApply.acti f i = s.rdi f i :=
      fun f hf i hi => (hcopied f hf i hi).1
    exact ⟨hpending, htoggled,
      fun c hc => ⟨hactive _ (by decide) c hc, hactive _ (by decide) c hc, hactive _ (by decide) c hc⟩,
      fun k hk => ⟨hactive _ (by decide) k hk, hactive _ (by decide) k hk⟩⟩

end Sys2Proof.Machine
end

section
/-! PROOFS. The control mode and the manual vector (04_current_control.md R132 to R135, R141, R152): O18. -/
namespace Sys2Proof.Machine
open Reg

/-! ### A write of a register of its own -/

/-- A write of the word of a register that stands alone gives each RW or RWS field its bits. -/
theorem putRw_takes {r : RegRow} (hr : regAt r.base = some r) (hpair : r.writable.Pairwise (fun x y => apart y.f x.f = true))
    (s : State) (v : Nat) {f : Fld} (hf : f ∈ r.writable.map FieldRow.f) (hone : 0 < f.count) :
    (s.putRw r.base v).rd f = bits v f.lo f.w := by
  obtain ⟨x, hx, rfl⟩ := List.mem_map.mp hf
  rw [putRw_at hr, Nat.sub_self]
  exact rdi_putFields_mem s hpair hx hone

theorem acti_putFields (s : State) (i v : Nat) {l : List FieldRow} (hl : ∀ x ∈ l, low x.f = true) {g : Fld}
    (hg : low g = true) (j : Nat) : (s.putFields i v l).acti g j = s.acti g j := by
  induction l generalizing s with
  | nil => rfl
  | cons x l ih =>
    obtain ⟨hx, hrest⟩ := List.forall_mem_cons.mp hl
    exact (ih _ hrest).trans (s.acti_wri j i _ hg hx)

/-- A write of a word of the shadows' half moves no active copy (R699). -/
theorem act_putRw {off : Nat} {r : RegRow} (hr : regAt off = some r) (hlow : ∀ x ∈ r.writable, low x.f = true)
    (s : State) (v : Nat) {g : Fld} (hg : low g = true) : (s.putRw off v).act g = s.act g := by
  rw [putRw_at hr]
  exact acti_putFields s _ v hlow hg 0

theorem putRw_law (s : State) (off v : Nat) : (s.putRw off v).law = s.law := (putRw_only s off v).law rfl

/-! ### CTL_MODE and CTL_MANUAL are written (R132, R134, R141, R152) -/

/-- CTL_MODE's row of the register table (R141). -/
def ctlMode : RegRow :=
  ⟨"CTL_MODE", 0x120000, 1, [⟨CTL_MODE.MODE_REQ, .rw, [0], .none⟩, ⟨CTL_MODE.ZSEQ_EN, .rw, [0], .none⟩,
    ⟨CTL_MODE.NOTCH_EN, .rw, [0], .none⟩, ⟨CTL_MODE.NEG_EN, .rw, [1], .none⟩, ⟨CTL_MODE.PRIO, .rw, [0], .u 0 2⟩,
    ⟨CTL_MODE.RES_EN, .rw, [0], .none⟩, ⟨CTL_MODE.MAN_RATE, .rw, [10], .u 1 255⟩]⟩

/-- CTL_MANUAL's row (R152). -/
def ctlManual : RegRow :=
  ⟨"CTL_MANUAL", 0x12007C, 1, [⟨CTL_MANUAL.VD, .rw, [0], .none⟩, ⟨CTL_MANUAL.VQ, .rw, [0], .none⟩]⟩

theorem ctlMode_found : regAt ctlMode.base = some ctlMode := by decide

theorem ctlManual_found : regAt ctlManual.base = some ctlManual := by decide

/-- Only PRIO and MAN_RATE have a range (R141). -/
theorem inRange_ctlMode (v : Nat) : inRange CTL_MODE.PRIO.base v = true ↔ bits v 26 2 ≤ 2 ∧ 1 ≤ bits v 8 8 := by
  have hrate : bits v 8 8 ≤ 255 := Nat.le_of_lt_succ (bits_lt v 8 8)
  rw [inRange_at (off := CTL_MODE.PRIO.base) ctlMode_found]
  show (decide (0 ≤ bits v 26 2) && decide (bits v 26 2 ≤ 2) &&
    (decide (1 ≤ bits v 8 8) && decide (bits v 8 8 ≤ 255) && true)) = true ↔ _
  simp [hrate]

/-- The seven fields take their bits of the word, and their active copies wait for the boundary (R132, R141). -/
theorem putRw_ctlMode (s : State) (v : Nat) {f : Fld} (hf : f ∈ ctlModeFields) :
    (s.putRw CTL_MODE.PRIO.base v).rd f = bits v f.lo f.w ∧ (s.putRw CTL_MODE.PRIO.base v).act f = s.act f := by
  have hone : ∀ g ∈ ctlModeFields, 0 < g.count := by decide
  have hlow : ∀ g ∈ ctlModeFields, low g = true := by decide
  exact ⟨putRw_takes ctlMode_found (by decide) s v hf (hone f hf), act_putRw ctlMode_found (by decide) s v (hlow f hf)⟩

theorem putRw_ctlManual (s : State) (v : Nat) : (s.putRw CTL_MANUAL.VD.base v).rd CTL_MANUAL.VD = bits v 16 16 ∧
    (s.putRw CTL_MANUAL.VD.base v).rd CTL_MANUAL.VQ = bits v 0 16 :=
  ⟨putRw_takes ctlManual_found (by decide) s v (.head _) (by decide),
    putRw_takes ctlManual_found (by decide) s v (.tail _ (.head _)) (by decide)⟩

/-- A word in range is taken unless it asks for MANUAL while the device is grid-forming. A grid-forming request that still
waits for its boundary does not refuse it (log entry 99, the model's choice). -/
theorem writeCtlMode_taken {s : State} {v : Nat} (hprio : bits v 26 2 ≠ 3) (hrate : 1 ≤ bits v 8 8)
    (hauto : ¬(bits v 31 1 = 1 ∧ s.rd CTL_MODE.MODE_REQ = 0 ∧ s.law.src.gfm = true)) :
    s.writeCtlMode v = s.putRw CTL_MODE.PRIO.base v := by
  have h2 : bits v 26 2 < 4 := bits_lt v 26 2
  have hrange : inRange CTL_MODE.PRIO.base v = true := (inRange_ctlMode v).mpr ⟨by omega, hrate⟩
  exact if_neg (not_or.mpr ⟨by simp [hrange], not_or.mpr ⟨hprio, hauto⟩⟩)

/-- PRIO 3, MAN_RATE 0 and MANUAL while the device is grid-forming are refused (R132, R141). -/
theorem writeCtlMode_refused {s : State} {v : Nat}
    (h : bits v 26 2 = 3 ∨ bits v 8 8 = 0 ∨ (bits v 31 1 = 1 ∧ s.rd CTL_MODE.MODE_REQ = 0 ∧ s.law.src.gfm = true)) :
    s.writeCtlMode v = s.refuse CTL_STATUS.CFG_ERR := by
  refine if_pos ?_
  rcases h with hprio | hrate | hmanual
  · exact .inr (.inl hprio)
  · have hrange : ¬ inRange CTL_MODE.PRIO.base v = true := fun hr => by
      have := ((inRange_ctlMode v).mp hr).2
      omega
    exact .inl (by simp [hrange])
  · exact .inr (.inr hmanual)

/-- A refusal shows CFG_ERR and leaves CTL_MODE, as written and as in force (R132). -/
theorem refuse_ctlMode (s : State) : (s.refuse CTL_STATUS.CFG_ERR).rd CTL_STATUS.CFG_ERR = 1 ∧
    ∀ f ∈ ctlModeFields, (s.refuse CTL_STATUS.CFG_ERR).rd f = s.rd f ∧ (s.refuse CTL_STATUS.CFG_ERR).act f = s.act f := by
  have hkept : ∀ f ∈ ctlModeFields, apart CTL_STATUS.CFG_ERR f = true ∧ low f = true := by decide
  refine ⟨s.rd_wr_self 1 (by decide), fun f hf => ?_⟩
  obtain ⟨happ, hlow⟩ := hkept f hf
  exact ⟨s.rd_wr_apart 1 happ, s.acti_wri 0 0 1 hlow (by decide)⟩

/-! ### The mode in force changes (R133) -/

/-- A law whose mode in force changes: MANUAL starts from the voltage vector that AUTO demanded last. -/
def Law.inMode (l : Law) (manual : Bool) : Law :=
  { l with cur := { l.cur with manual := manual, overTicks := 0, man := if manual then l.cur.outF else l.cur.man } }

/-- Both copies of the law change their mode. -/
def State.inMode (s : State) (manual : Bool) : State := { s with law := s.law.inMode manual, lawC := s.lawC.inMode manual }

theorem setMode_auto (s : State) : s.setMode false = (s.inMode false).wr CTL_STATUS.MODE 0 := rfl

theorem setMode_manual (s : State) :
    s.setMode true = ((s.inMode true).wr CTL_STATUS.MODE 1).showManual s.law.cur.outF := by
  show State.showManual _ ((s.inMode true).wr CTL_STATUS.MODE 1).law.cur.outF = _
  rw [State.wr_law]
  rfl

theorem showManual_only (s : State) (x : Cx) : Only 0x40000 s (s.showManual x) := Only.showManual (Only.refl _ s) x rfl

theorem setMode_only (s : State) (m : Bool) : Only 0xc000000040000 s (s.setMode m) := Only.setMode (Only.refl _ s) m rfl

theorem setMode_law (s : State) (m : Bool) : (s.setMode m).law = s.law.inMode m ∧ (s.setMode m).lawC = s.lawC.inMode m := by
  cases m with
  | false =>
    rw [setMode_auto]
    exact ⟨State.wr_law .., State.wr_lawC ..⟩
  | true =>
    rw [setMode_manual]
    have only := showManual_only ((s.inMode true).wr CTL_STATUS.MODE 1) s.law.cur.outF
    exact ⟨(only.law rfl).trans (State.wr_law ..), (only.lawC rfl).trans (State.wr_lawC ..)⟩

/-- CTL_STATUS shows the mode in force (R142). -/
theorem setMode_shown (s : State) (m : Bool) : (s.setMode m).rd CTL_STATUS.MODE = b2n m := by
  cases m with
  | false => exact State.rd_wr_self _ 0 (by decide)
  | true =>
    rw [setMode_manual]
    exact (State.rd_wr_apart _ _ (by decide)).trans ((State.rd_wr_apart _ _ (by decide)).trans (State.rd_wr_self _ 1 (by decide)))

/-- A change to AUTO writes the register file in CTL_STATUS.MODE alone. -/
theorem rd_setMode_auto (s : State) {f : Fld} (hf : apart CTL_STATUS.MODE f = true) : (s.setMode false).rd f = s.rd f :=
  (State.rd_wr_apart _ _ hf).trans (rdi_of_regs rfl f 0)

theorem act_setMode_auto (s : State) {f : Fld} (hf : low f = true) : (s.setMode false).act f = s.act f := by
  rw [setMode_auto]
  exact (State.acti_wri _ 0 0 _ hf (by decide)).trans (acti_of_regs rfl f 0)

/-- At the boundary the mode follows the request in force (R132, R133). -/
theorem exec_modeTransfer {s : State} {m : Bool} (hon : s.pwr.mainOn = true) (hrun : s.tm.run = true) (hphase : s.tm.phase = 0)
    (hreq : s.act CTL_MODE.MODE_REQ = b2n m) (hwas : s.law.cur.manual = !m) :
    exec .modeTransfer s = .next (s.setMode m) := by
  have hasked : (s.act CTL_MODE.MODE_REQ == 1) = m := by
    rw [hreq]
    cases m <;> rfl
  refine (next_live hon _).trans (congrArg Host.Outcome.next ?_)
  simp [hasked, hrun, hphase, hwas]

/-! ### AUTO is forced (R135) -/

/-- The request for MANUAL is withdrawn, as written and as in force, and the mode is AUTO. -/
def State.backToAuto (s : State) : State := ((s.wr CTL_MODE.MODE_REQ 0).activate CTL_MODE.MODE_REQ 0).setMode false

theorem backToAuto_shows (s : State) : s.backToAuto.law.cur.manual = false ∧ s.backToAuto.rd CTL_MODE.MODE_REQ = 0 ∧
    s.backToAuto.act CTL_MODE.MODE_REQ = 0 ∧ s.backToAuto.rd CTL_STATUS.MODE = 0 := by
  have hasked : (s.wr CTL_MODE.MODE_REQ 0).rd CTL_MODE.MODE_REQ = 0 := s.rd_wr_self 0 (by decide)
  unfold State.backToAuto
  refine ⟨by rw [(setMode_law _ false).1]; rfl, ?_, ?_, setMode_shown _ false⟩
  · exact (rd_setMode_auto _ (by decide)).trans ((State.rdi_activate _ 0 0 (by decide) (by decide)).trans hasked)
  · exact (act_setMode_auto _ (by decide)).trans ((State.acti_activate_self _ (by decide)).trans hasked)

/-- Two MANUAL ticks over the current limit force AUTO, which FORCED_AUTO and a notice report (R135). -/
theorem exec_forcedAuto {s : State} (hon : s.pwr.mainOn = true) (hrun : s.tm.run = true) (hphase : s.tm.phase = 0)
    (hmanual : s.law.cur.manual = true) (hover : 2 ≤ s.law.cur.overTicks) :
    exec .forcedAuto s = .next ((s.backToAuto.wr CTL_STATUS.FORCED_AUTO 1).noticeOpen 6) :=
  (next_live hon _).trans (congrArg Host.Outcome.next (if_pos (by simp [hrun, hphase, hmanual, hover])))

/-- The report leaves the mode, and is seen. -/
theorem forcedAuto_shows {s t : State} (ht : t = (s.backToAuto.wr CTL_STATUS.FORCED_AUTO 1).noticeOpen 6) :
    t.law.cur.manual = false ∧ t.rd CTL_MODE.MODE_REQ = 0 ∧ t.act CTL_MODE.MODE_REQ = 0 ∧
      t.rd CTL_STATUS.MODE = 0 ∧ t.rd CTL_STATUS.FORCED_AUTO = 1 ∧ s.hst.seqNo < t.hst.seqNo := by
  obtain ⟨hmanual, hreq, hact, hmode⟩ := backToAuto_shows s
  have only := (s.backToAuto.wr CTL_STATUS.FORCED_AUTO 1).noticeOpen_only 6
  have hseq := (s.backToAuto.wr CTL_STATUS.FORCED_AUTO 1).noticeOpen_seqNo 6
  have hbefore : s.backToAuto.hst = s.hst :=
    ((setMode_only _ false).hst rfl).trans (State.wr_hst s CTL_MODE.MODE_REQ 0)
  rw [State.wr_hst, hbefore] at hseq
  subst ht
  refine ⟨?_, ?_, ?_, ?_, ?_, hseq⟩
  · rw [only.law rfl, State.wr_law]
    exact hmanual
  · rw [only.rd _ rfl, State.rd_wr_apart _ _ (by decide)]
    exact hreq
  · rw [only.act _ rfl]
    exact (State.acti_wri _ 0 0 1 (by decide) (by decide)).trans hact
  · rw [only.rd _ rfl, State.rd_wr_apart _ _ (by decide)]
    exact hmode
  · rw [only.rd _ rfl]
    exact State.rd_wr_self _ 1 (by decide)

/-- Settles O18: the writes by `writeCtlMode_taken` and `writeCtlMode_refused`, the changes of mode by `State.setMode`. -/
theorem controlModeCommands : Obligations.ControlModeCommands := by
  unfold Obligations.ControlModeCommands
  refine ⟨fun s v hon hprio hrate hauto => ⟨s.writeCtlMode v, next_live hon _, ?_⟩,
    fun s v hon hbad => ⟨s.writeCtlMode v, next_live hon _, ?_⟩,
    fun s hon hrun hphase hreq hauto => ⟨_, exec_modeTransfer (m := true) hon hrun hphase hreq hauto, ?_⟩,
    fun s hon hrun hphase hreq hmanual => ⟨_, exec_modeTransfer (m := false) hon hrun hphase hreq hmanual, ?_⟩,
    fun s hon hrun hphase hmanual hover => ⟨_, exec_forcedAuto hon hrun hphase hmanual hover, forcedAuto_shows rfl⟩,
    fun s v hon => ⟨s.putRw CTL_MANUAL.VD.base v, next_live hon _, ?_⟩⟩
  · rw [writeCtlMode_taken hprio hrate hauto]
    have htakes : ∀ f ∈ ctlModeFields, (s.putRw CTL_MODE.PRIO.base v).rd f = bits v f.lo f.w :=
      fun f hf => (putRw_ctlMode s v hf).1
    exact ⟨htakes _ (by decide), htakes _ (by decide), htakes _ (by decide), htakes _ (by decide), htakes _ (by decide),
      htakes _ (by decide), htakes _ (by decide), putRw_law .., fun f hf => (putRw_ctlMode s v hf).2⟩
  · rw [writeCtlMode_refused hbad]
    exact refuse_ctlMode s
  · obtain ⟨hlaw, hlawC⟩ := setMode_law s true
    rw [hlaw, hlawC]
    exact ⟨rfl, rfl, rfl, rfl, setMode_shown s true, (setMode_only s true).cells rfl⟩
  · obtain ⟨hlaw, hlawC⟩ := setMode_law s false
    rw [hlaw, hlawC]
    exact ⟨rfl, rfl, setMode_shown s false, rd_setMode_auto s (by decide), rd_setMode_auto s (by decide)⟩
  · obtain ⟨hvd, hvq⟩ := putRw_ctlManual s v
    exact ⟨hvd, hvq, putRw_law .., putRw_cells ..⟩

end Sys2Proof.Machine
end


section
/-! PROOFS. Lock, the PLL's configuration, grid-forming requests and their transfer (05_sync_ride_through.md R156, R157, R167,
R168, R176, R182, R183; R463): O17. -/
namespace Sys2Proof.Machine
open Reg

/-! ### While S1 runs, it changes the working copy, and its register writes wait for tend (R463, R469) -/

theorem onLaw_inS1 {s : State} (hs1 : s.tm.s1run = true) (g : Law → Law) : s.onLaw g = { s with law := g s.law } := by
  unfold State.onLaw
  rw [if_pos hs1]

theorem onLaw_s1Wr_inS1 {s : State} (hs1 : s.tm.s1run = true) (g : Law → Law) (f : Fld) (v : Nat) :
    (s.onLaw g).s1Wr f v = ({ s with law := g s.law } : State).bind (.fld f 0 v) := by
  rw [onLaw_inS1 hs1]
  exact if_pos hs1

/-! ### Lock (R156, R157) -/

theorem setLocked_inS1 {s : State} (hs1 : s.tm.s1run = true) (b : Bool) :
    s.setLocked b = ({ s with law := { s.law with trk := { s.law.trk with locked := b } } } : State).bind
      (.fld SYNC_STATUS.LOCKED 0 (b2n b)) :=
  onLaw_s1Wr_inS1 hs1 _ _ _

/-- Lock is gained once its conditions have held for 100 ms, unless ω stands at its clamp (R156, R157). -/
theorem exec_lockAcquired {s : State} {d : Rat} (hon : s.pwr.mainOn = true) (hs1 : s.tm.s1run = true)
    (hfree : s.law.trk.locked = false) (hclamp : s.atClamp = false) (hfor : s.law.trk.lockFor = some d) (hd : 1 / 10 ≤ d) :
    exec .lockAcquired s = .next (s.setLocked true) :=
  (next_live hon _).trans (congrArg Host.Outcome.next (if_pos (by simpa [hs1, hfree, hclamp, hfor] using hd)))

/-- Lock is lost at the clamp of ω, or when the angle error has been large for 5 ms (R156, R157). -/
theorem exec_lockLost {s : State} (hon : s.pwr.mainOn = true) (hs1 : s.tm.s1run = true) (hlocked : s.law.trk.locked = true)
    (hloss : s.atClamp = true ∨ ∃ d, s.law.trk.lossFor = some d ∧ 1 / 200 ≤ d) :
    exec .lockLost s = .next (s.setLocked false) := by
  refine (next_live hon _).trans (congrArg Host.Outcome.next (if_pos ?_))
  rcases hloss with hclamp | ⟨d, hfor, hd⟩
  · simp [hs1, hlocked, hclamp]
  · simpa [hs1, hlocked, hfor] using Or.inr (a := s.atClamp = true) hd

/-! ### SYNC_PLL_CFG and SYNC_MODE are written (R168, R176, R182, R183) -/

/-- SYNC_PLL_CFG's row of the register table (R182). -/
def syncPllCfg : RegRow :=
  ⟨"SYNC_PLL_CFG", 0x130000, 1, [⟨SYNC_PLL_CFG.FNOM, .rw, [0], .none⟩, ⟨SYNC_PLL_CFG.BW, .rw, [20], .u 5 100⟩,
    ⟨SYNC_PLL_CFG.ZETA, .rw, [7], .u 5 15⟩, ⟨SYNC_PLL_CFG.UCOAST, .rw, [100], .u 20 255⟩,
    ⟨SYNC_PLL_CFG.JUMP, .rw, [10], .u 5 60⟩, ⟨SYNC_PLL_CFG.ROCOF_WIN, .rw, [5], .u 1 50⟩]⟩

/-- SYNC_MODE's row (R183). -/
def syncMode : RegRow :=
  ⟨"SYNC_MODE", 0x130004, 1, [⟨SYNC_MODE.GFM_REQ, .rw, [0], .none⟩, ⟨SYNC_MODE.SP_RATE, .rw, [100], .u 1 10000⟩]⟩

theorem syncPllCfg_found : regAt syncPllCfg.base = some syncPllCfg := by decide

theorem syncMode_found : regAt syncMode.base = some syncMode := by decide

/-- The limits of ZETA and UCOAST that their widths do not give are the lower ones (R182). -/
theorem inRange_pllCfg {v : Nat} (hbw : 5 ≤ bits v 24 7 ∧ bits v 24 7 ≤ 100) (hzeta : 5 ≤ bits v 20 4)
    (hcoast : 20 ≤ bits v 12 8) (hjump : 5 ≤ bits v 6 6 ∧ bits v 6 6 ≤ 60) (hwin : 1 ≤ bits v 0 6 ∧ bits v 0 6 ≤ 50) :
    inRange SYNC_PLL_CFG.BW.base v = true := by
  have hzeta' : bits v 20 4 ≤ 15 := Nat.le_of_lt_succ (bits_lt v 20 4)
  have hcoast' : bits v 12 8 ≤ 255 := Nat.le_of_lt_succ (bits_lt v 12 8)
  rw [inRange_at (off := SYNC_PLL_CFG.BW.base) syncPllCfg_found]
  simp [syncPllCfg, Lim.ok, SYNC_PLL_CFG.FNOM, SYNC_PLL_CFG.BW, SYNC_PLL_CFG.ZETA, SYNC_PLL_CFG.UCOAST, SYNC_PLL_CFG.JUMP,
    SYNC_PLL_CFG.ROCOF_WIN, hbw, hzeta, hzeta', hcoast, hcoast', hjump, hwin]

theorem inRange_syncMode {v : Nat} (hlo : 1 ≤ bits v 0 16) (hhi : bits v 0 16 ≤ 10000) :
    inRange SYNC_MODE.SP_RATE.base v = true := by
  rw [inRange_at (off := SYNC_MODE.SP_RATE.base) syncMode_found]
  simp [syncMode, Lim.ok, SYNC_MODE.GFM_REQ, SYNC_MODE.SP_RATE, hlo, hhi]

/-- A word in range is taken when it leaves FNOM or every cell is blocked, and FNOM acts at once (R176, R182). -/
theorem writePllCfg_taken {s : State} {v : Nat} (hrange : inRange SYNC_PLL_CFG.BW.base v = true)
    (hfnom : bits v 31 1 = s.rd SYNC_PLL_CFG.FNOM ∨ s.allBlocked = true) :
    s.writePllCfg v = (s.putRw SYNC_PLL_CFG.BW.base v).activate SYNC_PLL_CFG.FNOM 0 := by
  have hallowed : ¬(bits v 31 1 ≠ s.rd SYNC_PLL_CFG.FNOM ∧ (!s.allBlocked) = true) := by
    rintro ⟨hchange, hopen⟩
    rcases hfnom with hsame | hblocked
    · exact hchange hsame
    · simp [hblocked] at hopen
  exact (if_neg (by simp [hrange])).trans (if_neg hallowed)

/-- The six fields take their bits of the word; the active copy of FNOM does too (R176, R182). -/
theorem writtenPllCfg_rd (s : State) (v : Nat) {f : Fld} (hf : f ∈ SYNC_PLL_CFG.FNOM :: pllCfgFields) :
    ((s.putRw SYNC_PLL_CFG.BW.base v).activate SYNC_PLL_CFG.FNOM 0).rd f = bits v f.lo f.w := by
  have hfield : ∀ g ∈ SYNC_PLL_CFG.FNOM :: pllCfgFields,
      g ∈ syncPllCfg.writable.map FieldRow.f ∧ 0 < g.count ∧ low g = true := by decide
  obtain ⟨hrow, hone, hlow⟩ := hfield f hf
  exact (State.rdi_activate _ 0 0 hlow (by decide)).trans (putRw_takes syncPllCfg_found (by decide) s v hrow hone)

theorem writtenPllCfg_act (s : State) (v : Nat) :
    ((s.putRw SYNC_PLL_CFG.BW.base v).activate SYNC_PLL_CFG.FNOM 0).act SYNC_PLL_CFG.FNOM = bits v 31 1 :=
  (State.acti_activate_self _ (by decide)).trans (putRw_takes syncPllCfg_found (by decide) s v (.head _) (by decide))

/-- A word in range is taken unless it newly asks for grid-forming while that is refused (R168). -/
theorem writeSyncMode_taken {s : State} {v : Nat} (hrange : inRange SYNC_MODE.SP_RATE.base v = true)
    (hgfm : bits v 31 1 = 1 → s.rd SYNC_MODE.GFM_REQ = 0 → s.gfmRefused = false) (ag : Agent) :
    s.writeSyncMode v ag = s.putRw SYNC_MODE.SP_RATE.base v := by
  have hallowed : ¬(bits v 31 1 = 1 ∧ s.rd SYNC_MODE.GFM_REQ = 0 ∧ s.gfmRefused = true) := fun ⟨hasks, hnew, hrefused⟩ =>
    Bool.false_ne_true ((hgfm hasks hnew).symm.trans hrefused)
  exact (if_neg (by simp [hrange])).trans (if_neg hallowed)

/-- A new grid-forming request that is refused leaves SYNC_MODE and posts CONFIG_REFUSED (R168). What `State.gfmRefused` holds
of a waiting MANUAL request is the model's choice (log entry 139). -/
theorem writeSyncMode_refused {s : State} {v : Nat} (hrange : inRange SYNC_MODE.SP_RATE.base v = true)
    (hasks : bits v 31 1 = 1) (hnew : s.rd SYNC_MODE.GFM_REQ = 0) (hrefused : s.gfmRefused = true) (ag : Agent) :
    s.writeSyncMode v ag = (s.refuse SYNC_STATUS.CFG_ERR).configRefused SYNC_MODE.SP_RATE.base v ag :=
  (if_neg (by simp [hrange])).trans (if_pos ⟨hasks, hnew, hrefused⟩)

theorem refusedSyncMode_shows (s : State) (v : Nat) (ag : Agent) :
    let t := (s.refuse SYNC_STATUS.CFG_ERR).configRefused SYNC_MODE.SP_RATE.base v ag
    t.rd SYNC_MODE.GFM_REQ = s.rd SYNC_MODE.GFM_REQ ∧ t.rd SYNC_STATUS.CFG_ERR = 1 ∧ s.hst.seqNo < t.hst.seqNo := by
  have honly := cfgrefO (s.refuse SYNC_STATUS.CFG_ERR) SYNC_MODE.SP_RATE.base v ag
  have hseq := State.configRefused_seqNo (s.refuse SYNC_STATUS.CFG_ERR) SYNC_MODE.SP_RATE.base v ag
  rw [State.refuse_hst] at hseq
  exact ⟨(honly.rd _ rfl).trans (s.rd_wr_apart 1 (by decide)), (honly.rd _ rfl).trans (s.rd_wr_self 1 (by decide)), hseq⟩

/-! ### The transfer at the boundary (R167, R52) -/

/-- Both copies of the law change their source, which SYNC_STATUS shows; tracker and current control stay (R167). -/
theorem setForming_shows (s : State) (r : Bool) :
    (s.setForming r).rd SYNC_STATUS.GFM = b2n r ∧ (s.setForming r).law.src.gfm = r ∧ (s.setForming r).lawC.src.gfm = r ∧
      (s.setForming r).law.src.fresh = true ∧ (s.setForming r).law.cur = s.law.cur ∧ (s.setForming r).law.trk = s.law.trk := by
  refine ⟨?_, ?_⟩
  · unfold State.setForming
    rw [State.rd_wr_self _ _ (by decide)]
    cases r <;> rfl
  · unfold State.setForming
    rw [State.wr_law, State.wr_lawC]
    exact ⟨rfl, rfl, rfl, rfl, rfl⟩

/-- At the boundary the source follows the request, which acts from B5 on (R52, R167). -/
theorem exec_gfmTransfer {s : State} {r : Bool} (hon : s.pwr.mainOn = true) (hrun : s.tm.run = true) (hphase : s.tm.phase = 0)
    (hreq : (s.bit SYNC_MODE.GFM_REQ && decide (5 ≤ s.stage)) = r) :
    exec .gfmTransfer s = .next (if s.law.src.gfm = r then s else s.setForming r) := by
  refine (next_live hon _).trans (congrArg Host.Outcome.next ?_)
  dsimp only
  rw [hreq]
  by_cases hsame : s.law.src.gfm = r
  · rw [if_pos hsame]
    exact if_neg (by simp [hsame])
  · rw [if_neg hsame]
    exact if_pos (by simp [hrun, hphase, Ne.symm hsame])

/-- The request that acts at B5 and above is the written one. -/
theorem gfmReq_acts {s : State} {r : Bool} (hreq : s.rd SYNC_MODE.GFM_REQ = b2n r) (hstage : r = true → 5 ≤ s.stage) :
    (s.bit SYNC_MODE.GFM_REQ && decide (5 ≤ s.stage)) = r := by
  unfold State.bit
  rw [hreq]
  cases r with
  | false => rfl
  | true => simp [b2n, hstage rfl]

/-- Settles O17: lock by `setLocked_inS1`, the writes by `writePllCfg_taken`, `writeSyncMode_taken` and `writeSyncMode_refused`,
the transfer by `exec_gfmTransfer`. That a grid-forming mode ends below B5 while its request stands is the model's choice
(log entry 97). -/
theorem gridTrackingCommands : Obligations.GridTrackingCommands := by
  unfold Obligations.GridTrackingCommands
  refine ⟨fun s d hon hs1 hfree hclamp hfor hd => ⟨_, exec_lockAcquired hon hs1 hfree hclamp hfor hd, ?_⟩,
    fun s hon hs1 hlocked hloss => ⟨_, exec_lockLost hon hs1 hlocked hloss, ?_⟩,
    fun s v hon hbwlo hbwhi hzeta hcoast hjlo hjhi hwlo hwhi hfnom => ⟨s.writePllCfg v, next_live hon _, ?_⟩,
    fun s v ag hon hlo hhi hgfm => ⟨s.writeSyncMode v ag, next_live hon _, ?_⟩,
    fun s v ag hon hlo hhi hasks hnew hrefused => ⟨s.writeSyncMode v ag, next_live hon _, ?_⟩,
    fun s r hon hrun hphase hreq hwas hstage => ⟨_, exec_gfmTransfer hon hrun hphase (gfmReq_acts hreq hstage), ?_⟩,
    fun s hon hrun hphase hstage => ?_⟩
  · rw [setLocked_inS1 hs1]
    exact ⟨rfl, rfl, rfl, rfl⟩
  · rw [setLocked_inS1 hs1]
    exact ⟨rfl, rfl, rfl, rfl⟩
  · rw [writePllCfg_taken (inRange_pllCfg ⟨hbwlo, hbwhi⟩ hzeta hcoast ⟨hjlo, hjhi⟩ ⟨hwlo, hwhi⟩) hfnom]
    have htakes : ∀ f ∈ SYNC_PLL_CFG.FNOM :: pllCfgFields, _ := fun f hf => writtenPllCfg_rd s v hf
    exact ⟨htakes _ (by decide), writtenPllCfg_act s v, htakes _ (by decide), htakes _ (by decide), htakes _ (by decide),
      htakes _ (by decide), htakes _ (by decide), (State.activate_law ..).trans (putRw_law ..)⟩
  · rw [writeSyncMode_taken (inRange_syncMode hlo hhi) hgfm]
    exact ⟨putRw_takes syncMode_found (by decide) s v (.head _) (by decide),
      putRw_takes syncMode_found (by decide) s v (.tail _ (.head _)) (by decide), putRw_law .., putRw_cells ..⟩
  · rw [writeSyncMode_refused (inRange_syncMode hlo hhi) hasks hnew hrefused]
    obtain ⟨hreq, herr, hseq⟩ := refusedSyncMode_shows s v ag
    exact ⟨hreq.trans hnew, herr, hseq⟩
  · rw [if_neg (by simp [hwas])]
    obtain ⟨hshown, hlaw, hlawC, hfresh, hcur, htrk⟩ := setForming_shows s r
    exact ⟨hshown, hlaw, hlawC, hfresh, hcur, htrk, s.setForming_sp r⟩
  · have hexec := exec_gfmTransfer hon hrun hphase (r := false) (by simp [Nat.not_le.mpr hstage])
    refine ⟨fun hforming => ⟨s.setForming false, ?_, ?_⟩, fun hfollowing => ?_⟩
    · rwa [if_neg (by simp [hforming])] at hexec
    · obtain ⟨hshown, hlaw, hlawC, -⟩ := setForming_shows s false
      exact ⟨hshown, hlaw, hlawC⟩
    · rwa [if_pos hfollowing] at hexec

end Sys2Proof.Machine
end

section
/-! PROOFS. Recovery, the expiry of a trip-curve stage, enter service, and the setpoints that wait for S1
(05_sync_ride_through.md R169, R172 to R174, R177 to R179, R187; R391, R408, R505): O16. -/
namespace Sys2Proof.Machine
open Reg

/-! ### EVENT passes to RECOVERY, and enter service qualifies (R169, R174) -/

theorem supTo_inS1 {s : State} (hs1 : s.tm.s1run = true) (st : Nat) :
    s.supTo st = ({ s with law := { s.law with sup := { s.law.sup with state := st, okFor := none } } } : State).bind
      (.fld FRT_STATUS.STATE 0 st) :=
  onLaw_s1Wr_inS1 hs1 _ _ _

/-- RECOVERY approaches from the d that EVENT delivered last (R169). -/
def State.fromEvent (s : State) : State :=
  { s with law := { s.law with sup := { s.law.sup with dOut := s.law.src.refp.re } } }

/-- EVENT ends once its levels have been kept for 20 ms (R169). -/
theorem exec_recoveryEntry {s : State} {d : Rat} (hon : s.pwr.mainOn = true) (hs1 : s.tm.s1run = true)
    (hevent : s.law.sup.state = 1) (hfor : s.law.sup.okFor = some d) (hd : 1 / 50 ≤ d) :
    exec .recoveryEntry s = .next (s.fromEvent.supTo 3) := by
  refine (next_live hon _).trans (congrArg Host.Outcome.next ((if_pos (by simpa [hs1, hevent, hfor] using hd)).trans ?_))
  rw [onLaw_inS1 hs1]
  rfl

/-- ENTER_OK is shown once the window has held for DELAY (R174). -/
theorem exec_enterServiceQualified {s : State} {d : Rat} (hon : s.pwr.mainOn = true) (hs1 : s.tm.s1run = true)
    (hfor : s.law.sup.enterFor = some d) (hd : (s.act FRT_ENTER_CFG.DELAY : Rat) ≤ d) :
    exec .enterServiceQualified s =
      .next (({ s with law := { s.law with sup := { s.law.sup with enterOk := true } } } : State).bind
        (.fld FRT_STATUS.ENTER_OK 0 1)) :=
  (next_live hon _).trans (congrArg Host.Outcome.next
    ((if_pos (by simp [hs1, hfor, hd])).trans (onLaw_s1Wr_inS1 hs1 _ _ _)))

/-! ### An expired stage trips (R172, R173, R391) -/

/-- Whether a stage has expired is told by the registers and the law. -/
theorem stageExpired_of_eq {s t : State} (hregs : t.regs = s.regs) (hlaw : t.law = s.law) (c i : Nat) :
    t.stageExpired c i = s.stageExpired c i := by
  have hacti : t.acti = s.acti := funext fun f => funext fun j => acti_of_regs hregs f j
  simp only [State.stageExpired, State.stageOn, State.stageBeyond, State.curveAt, hacti, hlaw]

/-- A law whose supervisor trips: no timer and no ramp runs on (R169, R173). -/
def Law.tripped (l : Law) : Law :=
  { l with sup := { l.sup with state := 4, timers := [], okFor := none, restore := none } }

theorem enterTripped_law (s : State) : s.enterTripped.law = s.law.tripped ∧ s.enterTripped.lawC = s.lawC.tripped := by
  unfold State.enterTripped
  dsimp only
  rw [State.wr_law, State.wr_lawC]
  split
  · exact ⟨rfl, rfl⟩
  · exact ⟨rfl, rfl⟩

/-- The supervisor is TRIPPED, and stage `i` of curve `c` is shown and recorded as the one that tripped it (R173, R198). -/
def State.tripByCurve (s : State) (c i : Nat) : State :=
  let t := (s.enterTripped.wr FRT_STATUS.TRIP_CURVE c).wr FRT_STATUS.TRIP_STAGE i
  t.post 0x33 [(24, 1, c), (25, 1, i), (28, 4, milli 48 32 (t.curveAt c i).2)]

theorem tripByCurve_only (s : State) (c i : Nat) : Only 0x110c300000100200 s (s.tripByCurve c i) :=
  Only.post (Only.wr (Only.wr (Only.enterTripped (Only.refl _ s) rfl) _ _ rfl rfl) _ _ rfl rfl) _ _ rfl

theorem tripByCurve_law (s : State) (c i : Nat) :
    (s.tripByCurve c i).law = s.law.tripped ∧ (s.tripByCurve c i).lawC = s.lawC.tripped := by
  obtain ⟨hlaw, hlawC⟩ := enterTripped_law s
  unfold State.tripByCurve
  dsimp only
  rw [(postO _ _ _).law rfl, (postO _ _ _).lawC rfl, State.wr_law, State.wr_law, State.wr_lawC, State.wr_lawC]
  exact ⟨hlaw, hlawC⟩

theorem tripByCurve_shows (s : State) {c i : Nat} (hc : c < 4) (hi : i < 8) :
    (s.tripByCurve c i).rd FRT_STATUS.STATE = 4 ∧ (s.tripByCurve c i).rd FRT_STATUS.TRIP_CURVE = c ∧
      (s.tripByCurve c i).rd FRT_STATUS.TRIP_STAGE = i := by
  unfold State.tripByCurve
  dsimp only
  refine ⟨((postO _ _ _).rd _ rfl).trans ?_, ((postO _ _ _).rd _ rfl).trans ?_, ((postO _ _ _).rd _ rfl).trans ?_⟩
  · rw [State.rd_wr_apart _ _ (by decide), State.rd_wr_apart _ _ (by decide)]
    exact State.rd_wr_self _ 4 (by decide)
  · rw [State.rd_wr_apart _ _ (by decide), State.rd_wr_self _ _ (by decide)]
    exact Nat.mod_eq_of_lt hc
  · rw [State.rd_wr_self _ _ (by decide)]
    exact Nat.mod_eq_of_lt hi

/-- An expired stage trips in S1, and takes the fabric to its safe state from the next boundary on (R173, R391). -/
theorem exec_tripCurveExpiry {s : State} {c : Fin 4} {i : Fin 8} (hon : s.pwr.mainOn = true) (hs1 : s.tm.s1run = true)
    (huntripped : s.law.sup.state ≠ 4) (hexpired : s.stageExpired c i = true) (e : Nat) :
    exec (.tripCurveExpiry c i e) s =
      .next (((s.moveTo e).tripByCurve c i).actScope SLC_TRIP_LATCH.FRT_TRIP 1 3 7 true) := by
  have hs1' : (s.moveTo e).tm.s1run = true := by
    rw [(moveTo_sim s e).1]
    exact hs1
  have hexpired' : (s.moveTo e).stageExpired c i = true :=
    (stageExpired_of_eq (moveTo_regs s e) (State.moveTo_law s e) c i).trans hexpired
  refine (next_live hon _).trans (congrArg Host.Outcome.next ?_)
  exact if_pos (by simp [hs1', hexpired', huntripped])

/-- The scheduled safe state opens the breaker, cancels a release that waits and blocks every phase; the cells of a released
converter are blocked from the next boundary on (R391, R394, R408). -/
theorem scheduledTrip_shows {s t : State} (hph : s.rd SLC_BLOCK_STATUS.PHASES < 8)
    (ht : t = s.actScope SLC_TRIP_LATCH.FRT_TRIP 1 3 7 true) :
    t.rd SLC_BLOCK_STATUS.SCOPE = 3 ∧ t.rd SLC_BLOCK_STATUS.PHASES = 7 ∧ t.rd SLC_BLOCK_STATUS.BRK ≠ 0 ∧ t.slc.release = [] ∧
      (s.rd SLC_BLOCK_STATUS.SCOPE = 0 → t.cells = s.cells ∧ t.slc.blkPend = [true, true, true]) := by
  have hlatch : SLC_TRIP_LATCH.FRT_TRIP ∈ latchFields := by decide
  obtain ⟨-, hphases, hscope, hbrk, hrelease⟩ := s.actScope_spec _ 1 3 7 true hlatch (by decide) hph
  rw [np7 _ _ hph] at hphases
  rw [ns7 _ _ _ hph, if_pos (.inl rfl)] at hscope
  subst ht
  refine ⟨hscope, hphases, ?_, hrelease, fun hreleased => ?_⟩
  · rw [hbrk]
    split
    · exact one_ne_zero
    · next hopen => exact fun hzero => hopen ⟨rfl, hzero⟩
  · have hlater := s.actScope_later _ 1 3 7 hlatch fun hsame => by
      have := hsame.1
      rw [ns7 _ _ _ hph, if_pos (.inl rfl), hreleased] at this
      exact absurd this (by decide)
    rw [np7 _ _ hph] at hlater
    exact hlater

/-! ### The host's quantities of one request (R178, R179) -/

theorem filterMap_range_self {α : Type} (x : α) (r n : Nat) :
    (List.range n).filterMap (fun k => if r = k then some x else none) = if r < n then [x] else [] := by
  induction n with
  | zero => rfl
  | succ n ih =>
    rw [List.range_succ, List.filterMap_append, ih]
    rcases lt_trichotomy r n with hlt | heq | hgt
    · simp [hlt, hlt.ne, Nat.lt_succ_of_lt hlt]
    · simp [heq]
    · simp [hgt.not_gt, hgt.ne', Nat.not_lt.mpr (Nat.succ_le_of_lt hgt)]

/-- One request is its ring's last for each quantity that it presents. -/
theorem perRing_single {x : SetReq} (hring : x.d.ring < 64) (k : Nat) : perRing k [x] = if x.has k then [x] else [] := by
  have hone : (fun r => ([x].filter (fun y => y.d.ring == r && y.has k)).getLast?) =
      fun r => if x.has k then (if x.d.ring = r then some x else none) else none := by
    funext r
    by_cases hk : x.has k <;> by_cases hr : x.d.ring = r <;> simp [hk, hr]
  unfold perRing
  rw [hone]
  by_cases hk : x.has k
  · simp only [hk, if_true, filterMap_range_self, hring]
  · simp [hk]

theorem perRing_nil (k : Nat) : perRing k [] = [] := by simp [perRing]

/-- What a request that presents a quantity sets of it. -/
def SetWait.hold (w : SetWait) (x : SetReq) (k : Nat) : SetWait :=
  if x.has k then
    if k = 6 then { w with eSet := x.eSet } else { w with heldHost := w.heldHost.put k (x.val k) }
  else w

theorem hostQuantity_single {x : SetReq} (hring : x.d.ring < 64) (s : State) (k : Nat) :
    s.hostQuantity [x] k = { s with sp := s.sp.hold x k } := by
  unfold State.hostQuantity SetWait.hold
  rw [perRing_single hring]
  by_cases hk : x.has k = true
  · rw [if_pos hk, if_pos hk]
    by_cases h6 : k = 6
    · rw [if_pos h6]
      exact if_pos h6
    · rw [if_neg h6]
      exact if_neg h6
  · rw [if_neg hk, if_neg hk]

theorem hostQuantities_single {x : SetReq} (hring : x.d.ring < 64) (l : List Nat) (s : State) :
    l.foldl (fun s k => s.hostQuantity [x] k) s = { s with sp := l.foldl (fun w k => w.hold x k) s.sp } := by
  induction l generalizing s with
  | nil => rfl
  | cons k l ih => rw [List.foldl_cons, hostQuantity_single hring, ih, List.foldl_cons]

theorem hostQuantities_nil (l : List Nat) (s : State) : l.foldl (fun s k => s.hostQuantity [] k) s = s := by
  induction l with
  | nil => rfl
  | cons k l ih =>
    have hnone : s.hostQuantity [] k = s := by
      unfold State.hostQuantity
      rw [perRing_nil]
    rw [List.foldl_cons, hnone, ih]

theorem hold_keeps (w : SetWait) (x : SetReq) (k : Nat) :
    (w.hold x k).safe = w.safe ∧ (w.hold x k).heldSafe = w.heldSafe := by
  unfold SetWait.hold
  split_ifs
  · exact ⟨rfl, rfl⟩
  · exact ⟨rfl, rfl⟩
  · exact ⟨rfl, rfl⟩

/-- Quantities 0 to 3 are P, Q and the two limits; another quantity leaves them. -/
theorem hold_heldHost (w : SetWait) (x : SetReq) (k : Nat) :
    (w.hold x k).heldHost.p = (if k = 0 ∧ x.has k = true then some x.p else w.heldHost.p) ∧
    (w.hold x k).heldHost.q = (if k = 1 ∧ x.has k = true then some x.q else w.heldHost.q) ∧
    (w.hold x k).heldHost.ilim = (if k = 2 ∧ x.has k = true then some x.ilim else w.heldHost.ilim) ∧
    (w.hold x k).heldHost.plim = (if k = 3 ∧ x.has k = true then some x.plim else w.heldHost.plim) := by
  unfold SetWait.hold
  by_cases hk : x.has k = true
  · rw [if_pos hk]
    by_cases h6 : k = 6
    · simp [h6]
    · rw [if_neg h6]
      match k, hk, h6 with
      | 0, hk, _ | 1, hk, _ | 2, hk, _ | 3, hk, _ => simp [hk, Held.put, SetReq.val]
      | k + 4, _, _ => by_cases h4 : k = 0 <;> simp [h4, Held.put]
  · simp [hk]

/-- After its seven quantities the host holds what the request presents, and the rest as before. -/
theorem holdAll_heldHost (w : SetWait) (x : SetReq) :
    let h := ((List.range 7).foldl (fun w k => w.hold x k) w).heldHost
    h.p = (if x.has 0 then some x.p else w.heldHost.p) ∧ h.q = (if x.has 1 then some x.q else w.heldHost.q) ∧
    h.ilim = (if x.has 2 then some x.ilim else w.heldHost.ilim) ∧ h.plim = (if x.has 3 then some x.plim else w.heldHost.plim) := by
  have hrange : List.range 7 = [0, 1, 2, 3, 4, 5, 6] := rfl
  simp [hrange, hold_heldHost]

theorem holdAll_keeps (l : List Nat) (w : SetWait) (x : SetReq) :
    (l.foldl (fun w k => w.hold x k) w).safe = w.safe ∧ (l.foldl (fun w k => w.hold x k) w).heldSafe = w.heldSafe := by
  induction l generalizing w with
  | nil => exact ⟨rfl, rfl⟩
  | cons k l ih =>
    obtain ⟨hsafe, hheld⟩ := ih (w.hold x k)
    obtain ⟨hsafe', hheld'⟩ := hold_keeps w x k
    exact ⟨hsafe.trans hsafe', hheld.trans hheld'⟩

/-! ### Setpoints in force and completions that wait stand through what follows (R505, R509) -/

/-- From `s` to `t` the setpoints and their register stand, and no completion that waits for the next tend is lost. -/
structure OrdersStand (s t : State) : Prop where
  sp : t.sp = s.sp
  p : t.rd SYNC_SP_APPLIED.P = s.rd SYNC_SP_APPLIED.P
  q : t.rd SYNC_SP_APPLIED.Q = s.rd SYNC_SP_APPLIED.Q
  epoch : t.hst.epoch = s.hst.epoch
  atNext : s.hst.atNext <+: t.hst.atNext

namespace OrdersStand
variable {s t u : State}

theorem refl (s : State) : OrdersStand s s := ⟨rfl, rfl, rfl, rfl, List.prefix_rfl⟩

theorem trans (h : OrdersStand s t) (g : OrdersStand t u) : OrdersStand s u :=
  ⟨g.sp.trans h.sp, g.p.trans h.p, g.q.trans h.q, g.epoch.trans h.epoch, h.atNext.trans g.atNext⟩

theorem of_only {M : Nat} (h : Only M s t) (hsp : M.testBit 52 = false) (hp : fr M SYNC_SP_APPLIED.P = true)
    (hq : fr M SYNC_SP_APPLIED.Q = true) (hkept : HostKept s.hst t.hst) : OrdersStand s t :=
  ⟨h.sp hsp, h.rd _ hp, h.rd _ hq, hkept.epoch, hkept.atNext ▸ List.prefix_rfl⟩

theorem foldl {α : Type} {g : State → α → State} (h : ∀ u x, OrdersStand u (g u x)) (l : List α) (s : State) :
    OrdersStand s (l.foldl g s) := by
  induction l generalizing s with
  | nil => exact refl s
  | cons x l ih => exact (h s x).trans (ih _)

/-- A part of the host side beside the completions that wait. -/
theorem hostSide (s : State) (x : HostSt) (hepoch : x.epoch = s.hst.epoch) (hnext : x.atNext = s.hst.atNext) :
    OrdersStand s { s with hst := x } := ⟨rfl, rfl, rfl, hepoch, hnext ▸ List.prefix_rfl⟩

theorem post (s : State) (ty : Nat) (pay : List Pay) : OrdersStand s (s.post ty pay) :=
  of_only (postO s ty pay) rfl rfl rfl (s.post_kept ty pay)

theorem noticeOpen (s : State) (code : Nat) : OrdersStand s (s.noticeOpen code) :=
  of_only (noticeO s code) rfl rfl rfl (s.post_kept 3 _)

theorem complete (s : State) (d : Desc) (st det : Nat) (res : List Pay) : OrdersStand s (s.complete d st det res) := by
  unfold State.complete
  split
  · exact refl s
  · exact ⟨rfl, rfl, rfl, rfl, List.prefix_rfl⟩

theorem completeAtTend (s : State) (d : Desc) (st : Nat) (res : List Pay) : OrdersStand s (s.completeAtTend d st res) := by
  unfold State.completeAtTend
  split
  · exact refl s
  · exact ⟨rfl, rfl, rfl, rfl, List.prefix_append _ _⟩

theorem refuse (s : State) {f : Fld} (hp : apart f SYNC_SP_APPLIED.P = true) (hq : apart f SYNC_SP_APPLIED.Q = true) :
    OrdersStand s (s.refuse f) :=
  ⟨s.refuse_sp f, s.rd_wr_apart 1 hp, s.rd_wr_apart 1 hq, by rw [State.refuse_hst], by rw [State.refuse_hst]⟩

theorem takeCapture (s : State) (d : Desc) (queues : Nat) : OrdersStand s (s.takeCapture d queues) :=
  (of_only (State.captureEvent_only s _) rfl rfl rfl (.of_eq (s.captureEvent_hst _))).trans (complete ..)

theorem askRelease (s : State) (d : Desc) : OrdersStand s (s.askRelease d) := by
  unfold State.askRelease
  extract_lets w _ u v x
  have hu : OrdersStand s u := by
    unfold u
    split
    · exact refuse s (by decide) (by decide)
    · exact refl s
  have hv : OrdersStand u v := by
    unfold v
    split
    · exact refuse u (by decide) (by decide)
    · exact refl u
  split
  · exact ⟨rfl, rfl, rfl, rfl, List.prefix_rfl⟩
  · exact ((hu.trans hv).trans (post ..)).trans (complete ..)

theorem runWait (s : State) (w : Wait) : OrdersStand s (s.runWait w) := by
  cases w with
  | hostTime d wall => exact (hostSide s { s.hst with wall := some (wall, s.tm.e) } rfl rfl).trans (completeAtTend ..)
  | capture d queues => exact takeCapture s d queues
  | release d => exact askRelease s d

end OrdersStand

/-- The other descriptors of the tick follow the setpoints, and leave them (R177, R509). -/
theorem takeOrders_stands (s : State) : OrdersStand s.applySetpoints s.takeOrders :=
  (OrdersStand.hostSide s.applySetpoints { s.applySetpoints.hst with waits := [] } rfl rfl).trans
    (.foldl OrdersStand.runWait _ _)

/-! ### The waiting setpoints take effect (R177, R187, R505) -/

/-- A descriptor of the present epoch waits for tend under its own tag and completion ring (R507, R510). -/
theorem completeAtTend_waits {s : State} {d : Desc} (hepoch : d.epoch = s.hst.epoch) (st : Nat) (res : List Pay) :
    ∃ c ∈ (s.completeAtTend d st res).hst.atNext, c.tag = d.tag ∧ c.cring = d.cring := by
  unfold State.completeAtTend
  rw [if_neg (not_not.mpr hepoch)]
  exact ⟨_, List.mem_append_right _ (.head _), rfl, rfl⟩

/-- Each request's descriptor completes at the tend of this tick (R505). -/
theorem completions_wait (st : SetReq → Nat) {l : List SetReq} {s : State} {x : SetReq} (hx : x ∈ l)
    (hepoch : x.d.epoch = s.hst.epoch) :
    ∃ c ∈ (l.foldl (fun s y => s.completeAtTend y.d (st y) []) s).hst.atNext, c.tag = x.d.tag ∧ c.cring = x.d.cring := by
  induction l generalizing s with
  | nil => cases hx
  | cons y l ih =>
    rw [List.foldl_cons]
    rcases List.mem_cons.mp hx with rfl | hrest
    · have hstands := OrdersStand.foldl (fun u (y : SetReq) => OrdersStand.completeAtTend u y.d (st y) []) l
        (s.completeAtTend x.d (st x) [])
      obtain ⟨c, hc, hnames⟩ := completeAtTend_waits hepoch (st x) []
      exact ⟨c, hstands.atNext.subset hc, hnames⟩
    · exact ih hrest (hepoch.trans (OrdersStand.completeAtTend s y.d (st y) []).epoch.symm)

theorem clipReq_d (s : State) (x : SetReq) : (s.clipReq x).d = x.d := by
  unfold State.clipReq
  split
  · rfl
  · rfl

theorem clipReq_kept (s : State) (x : SetReq) (k : Nat) :
    (s.clipReq x).has k = x.has k ∧ (s.clipReq x).ilim = x.ilim ∧ (s.clipReq x).plim = x.plim := by
  unfold State.clipReq
  split
  · exact ⟨rfl, rfl, rfl⟩
  · exact ⟨rfl, rfl, rfl⟩

theorem hostQuantity_epoch (s : State) (l : List SetReq) (k : Nat) : (s.hostQuantity l k).hst.epoch = s.hst.epoch := by
  unfold State.hostQuantity
  split
  · rfl
  · extract_lets u _
    have hu : u.hst.epoch = s.hst.epoch :=
      foldl_keep (fun s => s.hst.epoch) _ (fun v x => (State.post_kept _ _ _).epoch.trans (by rw [State.inc_hst])) _ s
    split
    · exact hu
    · exact hu

theorem arbRecord_keeps (s : State) (h0 f0 : Held) (both : Bool) (k : Nat) :
    (s.arbRecord h0 f0 both k).sp = s.sp ∧ (s.arbRecord h0 f0 both k).hst.epoch = s.hst.epoch := by
  refine ⟨(Only.arbRecord (Only.refl 0x1100100000080200 s) h0 f0 both k rfl).sp rfl, ?_⟩
  unfold State.arbRecord
  dsimp only
  split
  · split
    · rw [(State.post_kept _ _ _).epoch, State.inc_hst]
    · rfl
  · rfl

/-- The state in which each source holds what its waiting setpoints gave it (R178, R434). -/
def State.holdSetpoints (s : State) : State :=
  let u := (List.range 7).foldl (fun u k => u.hostQuantity (s.sp.host.map s.clipReq) k) s
  match u.sp.safe with
  | some m => { u with sp := { u.sp with heldSafe := heldOfPdu m } }
  | none => u

theorem holdSetpoints_epoch (s : State) : s.holdSetpoints.hst.epoch = s.hst.epoch := by
  have hfold : ((List.range 7).foldl (fun u k => u.hostQuantity (s.sp.host.map s.clipReq) k) s).hst.epoch = s.hst.epoch :=
    foldl_keep (fun s => s.hst.epoch) _ (fun u k => hostQuantity_epoch u _ k) _ s
  unfold State.holdSetpoints
  dsimp only
  split
  · exact hfold
  · exact hfold

/-- What waiting setpoints leave: nothing waits, SYNC_SP_APPLIED shows P and Q in force, each descriptor completes at tend. -/
structure SetpointsApplied (s t : State) : Prop where
  sp : t.sp = { s.holdSetpoints.sp with host := [], safe := none }
  p : t.rd SYNC_SP_APPLIED.P = unsg 16 t.sp.p
  q : t.rd SYNC_SP_APPLIED.Q = unsg 16 t.sp.q
  completes : ∀ x ∈ s.sp.host, x.d.epoch = s.hst.epoch → ∃ c ∈ t.hst.atNext, c.tag = x.d.tag ∧ c.cring = x.d.cring

theorem unsg_lt (w : Nat) (x : Int) : unsg w x < 2 ^ w := by
  have hpos : (0 : Int) < ((2 ^ w : Nat) : Int) := by exact_mod_cast Nat.two_pow_pos w
  have hlt := Int.emod_lt_of_pos x hpos
  have hnonneg := Int.emod_nonneg x hpos.ne'
  unfold unsg
  omega

theorem applySetpoints_applied {s : State} (hwaits : ¬(s.sp.host = [] ∧ s.sp.safe = none)) :
    SetpointsApplied s s.applySetpoints := by
  unfold State.applySetpoints
  rw [if_neg hwaits]
  extract_lets h0 f0 reqs clipped host _ held both arb shown safety noticed done _
  have hheld : held = s.holdSetpoints := rfl
  have harb : arb.sp = held.sp ∧ arb.hst.epoch = held.hst.epoch :=
    ⟨foldl_keep State.sp _ (fun u k => (arbRecord_keeps u h0 f0 (both k) k).1) _ held,
      foldl_keep (fun s => s.hst.epoch) _ (fun u k => (arbRecord_keeps u h0 f0 (both k) k).2) _ held⟩
  have hsafety : safety.sp = arb.sp ∧ safety.hst = arb.hst := by simp [safety, shown]
  have hp : safety.rd SYNC_SP_APPLIED.P = unsg 16 arb.sp.p := by
    unfold safety shown
    rw [State.rd_wr_apart _ _ (by decide), State.rd_wr_apart _ _ (by decide), State.rd_wr_self _ _ (by decide)]
    exact Nat.mod_eq_of_lt (unsg_lt 16 _)
  have hq : safety.rd SYNC_SP_APPLIED.Q = unsg 16 arb.sp.q := by
    unfold safety shown
    rw [State.rd_wr_apart _ _ (by decide), State.rd_wr_self _ _ (by decide)]
    exact Nat.mod_eq_of_lt (unsg_lt 16 _)
  have hnoticed : OrdersStand safety noticed := .foldl (fun u _ => .noticeOpen u 4) _ _
  have hdone : OrdersStand noticed done := .foldl (fun u (x : SetReq) => .completeAtTend u x.d _ []) _ _
  have hstands := hnoticed.trans hdone
  have hsp : done.sp = arb.sp := hstands.sp.trans hsafety.1
  refine ⟨?_, ?_, ?_, fun x hx hepoch => ?_⟩
  · show ({ done.sp with host := [], safe := none } : SetWait) = _
    rw [hsp, harb.1, hheld]
  · exact (hstands.p.trans hp).trans (by rw [← hsp]; rfl)
  · exact (hstands.q.trans hq).trans (by rw [← hsp]; rfl)
  · have hepoch' : (s.clipReq x).d.epoch = noticed.hst.epoch := by
      rw [clipReq_d, hnoticed.epoch, hsafety.2, harb.2, hheld, holdSetpoints_epoch]
      exact hepoch
    have hwait := completions_wait (fun y => if clipped.any (fun z => z.2.d == y.d) then 1 else 0)
      (List.mem_map_of_mem (f := s.clipReq) hx) hepoch'
    rwa [clipReq_d] at hwait

/-- SETPOINT_APPLY takes what waits before S1 of the tick begins (R177). -/
theorem exec_setpointApply {s : State} (hon : s.pwr.mainOn = true) (hrun : s.tm.run = true) (hphase : s.tm.phase = 0) :
    exec .setpointApply s = .next s.takeOrders :=
  (next_live hon _).trans (congrArg Host.Outcome.next (if_pos (by simp [hrun, hphase])))

/-- What follows the setpoints leaves what the statement shows of them (R177, R187, R505). -/
theorem takeOrders_shows {s : State} (hwaits : ¬(s.sp.host = [] ∧ s.sp.safe = none)) :
    SetpointsApplied s s.takeOrders := by
  have happlied := applySetpoints_applied hwaits
  have hstands := takeOrders_stands s
  refine ⟨hstands.sp.trans happlied.sp, ?_, ?_, fun x hx hepoch => ?_⟩
  · rw [hstands.p, hstands.sp, happlied.p]
  · rw [hstands.q, hstands.sp, happlied.q]
  · obtain ⟨c, hc, hnames⟩ := happlied.completes x hx hepoch
    exact ⟨c, hstands.atNext.subset hc, hnames⟩

/-- One request of the host alone sets what the host holds (R178). -/
theorem holdSetpoints_host {s : State} {x : SetReq} (hhost : s.sp.host = [x]) (hsafe : s.sp.safe = none)
    (hring : x.d.ring < 64) :
    s.holdSetpoints.sp = (List.range 7).foldl (fun w k => w.hold (s.clipReq x) k) s.sp := by
  have hring' : (s.clipReq x).d.ring < 64 := by rwa [clipReq_d]
  unfold State.holdSetpoints
  dsimp only
  rw [hhost, List.map_cons, List.map_nil, hostQuantities_single hring']
  dsimp only
  rw [(holdAll_keeps _ _ _).1, hsafe]

/-- A message of the safety controller alone sets what that holds (R434). -/
theorem holdSetpoints_safe {s : State} {m : Pdu} (hhost : s.sp.host = []) (hsafe : s.sp.safe = some m) :
    s.holdSetpoints.sp = { s.sp with heldSafe := heldOfPdu m } := by
  have hnone : s.sp.host.map s.clipReq = [] := by rw [hhost, List.map_nil]
  unfold State.holdSetpoints
  dsimp only
  rw [hnone, hostQuantities_nil, hsafe]

/-- Settles O16: RECOVERY and enter service by their equations, the trip by `tripByCurve_shows` and `scheduledTrip_shows`, the
setpoints by `takeOrders_shows`. -/
theorem rideThroughCommands : Obligations.RideThroughCommands := by
  unfold Obligations.RideThroughCommands
  refine ⟨fun s d hon hs1 hevent hfor hd => ⟨_, exec_recoveryEntry hon hs1 hevent hfor hd, ?_⟩,
    fun s c i e hon hs1 huntripped hstage hbeyond hph htime => ⟨_, exec_tripCurveExpiry hon hs1 huntripped ?_ e, ?_⟩,
    fun s d hon hs1 hfor hd => ⟨_, exec_enterServiceQualified hon hs1 hfor hd, rfl, rfl, rfl⟩,
    fun s x hon hrun hphase hhost hsafe hring hepoch => ⟨_, exec_setpointApply hon hrun hphase, ?_⟩,
    fun s m hon hrun hphase hhost hsafe => ⟨_, exec_setpointApply hon hrun hphase, ?_⟩⟩
  · rw [supTo_inS1 (s := s.fromEvent) hs1]
    exact ⟨rfl, rfl, rfl, rfl, rfl⟩
  · simp [State.stageExpired, hstage, hbeyond, htime]
  · set u := (s.moveTo e).tripByCurve c i with hu
    have honly := u.actScope_only SLC_TRIP_LATCH.FRT_TRIP 1 3 7 true (by decide)
    have hfrom : Only 0x110c360000100200 s u :=
      (Only.mono (State.moveTo_only s e) rfl).trans (Only.mono (tripByCurve_only _ c i) rfl)
    obtain ⟨hlaw, hlawC⟩ := tripByCurve_law (s.moveTo e) c i
    obtain ⟨hstate, hcurve, hnumber⟩ := tripByCurve_shows (s.moveTo e) c.isLt i.isLt
    obtain ⟨hscope, hphases, hbrk, hrelease, hlater⟩ := scheduledTrip_shows ((hfrom.rd _ rfl).trans_lt hph) rfl
    rw [honly.law rfl, honly.lawC rfl, hlaw, hlawC]
    refine ⟨rfl, rfl, rfl, (honly.rd _ rfl).trans hstate, (honly.rd _ rfl).trans hcurve, (honly.rd _ rfl).trans hnumber,
      hscope, hphases, hbrk, hrelease, fun hreleased => ?_⟩
    obtain ⟨hcells, hpend⟩ := hlater ((hfrom.rd _ rfl).trans hreleased)
    exact ⟨hcells.trans (hfrom.cells rfl), hpend⟩
  · obtain ⟨hsp, hp, hq, hcompletes⟩ := takeOrders_shows (s := s) (by simp [hhost])
    obtain ⟨hheldP, hheldQ, hheldI, hheldL⟩ := holdAll_heldHost s.sp (s.clipReq x)
    obtain ⟨-, hheldSafe⟩ := holdAll_keeps (List.range 7) s.sp (s.clipReq x)
    obtain ⟨-, hilim, hplim⟩ := clipReq_kept s x 0
    have hhas : ∀ k, (s.clipReq x).has k = x.has k := fun k => (clipReq_kept s x k).1
    rw [hhas] at hheldP hheldQ hheldI hheldL
    rw [hilim] at hheldI
    rw [hplim] at hheldL
    have hown := hcompletes x (by simp [hhost]) hepoch
    rw [holdSetpoints_host hhost hsafe hring] at hsp
    refine ⟨?_, ?_, ?_, ?_, ?_, ?_, hp, hq, hown⟩
    · rw [hsp]
    · rw [hsp]
      exact hheldSafe
    · rw [hsp]
      exact hheldP
    · rw [hsp]
      exact hheldQ
    · rw [hsp]
      exact hheldI
    · rw [hsp]
      exact hheldL
  · obtain ⟨hsp, hp, hq, -⟩ := takeOrders_shows (s := s) (by simp [hsafe])
    rw [holdSetpoints_safe hhost hsafe] at hsp
    refine ⟨?_, ?_, ?_, hp, hq⟩
    · rw [hsp]
    · rw [hsp]
    · rw [hsp]

end Sys2Proof.Machine
end

section
/-! PROOFS. The chip boundary and the probe fault, the rate-of-change detector, a new baseline and the clearing of an island
(06_mirage_probe.md R200, R202, R203, R205, R210 to R212, R221; R391): O28. -/
namespace Sys2Proof.Machine
open Reg

/-- Moving to an instant changes the time and its slew, nothing else (R625, R629). -/
theorem moveTo_eq (s : State) (e : Nat) : ∃ e' o k, s.moveTo e = { s with tm := { s.tm with e := e', o := o }, clk := k } := by
  unfold State.moveTo
  split
  · exact ⟨_, _, _, rfl⟩
  · extract_lets d
    split
    · exact ⟨_, _, _, rfl⟩
    · split
      · exact ⟨_, _, _, rfl⟩
      · exact ⟨_, _, _, rfl⟩

/-! ### An island is declared (R212) -/

/-- The RoCoF time of a law starts again (R211). -/
def Law.rocofAnew (l : Law) : Law := { l with mir := { l.mir with rocofFor := none } }

/-- An island is shown with its cause, and recorded (R212). -/
def State.recordIsland (s : State) (cause : Nat) : State :=
  let t := (s.wr MIR_STATUS.ISLAND 1).wr MIR_STATUS.CAUSE cause
  t.post 0x35 [(24, 1, cause), (28, 4, zWord 50 t.law.mir.z), (32, 4, zWord 52 t.law.mir.zb)]

/-- An island is shown and recorded, and the RoCoF time starts again. -/
def State.tellIsland (s : State) (cause : Nat) : State :=
  let t := s.recordIsland cause
  { t with law := t.law.rocofAnew, lawC := t.lawC.rocofAnew }

/-- A law whose baseline no longer moves. -/
def Law.freeze (l : Law) : Law := { l with mir := { l.mir with frozen := true } }

/-- The island goes on, with a frozen baseline in both copies of the law. -/
def State.goOnAsIsland (s : State) : State := { s with law := s.law.freeze, lawC := s.lawC.freeze }

/-- The island trips: the supervisor, and the fabric's scheduled safe state (R391, R394). -/
def State.tripIsland (s : State) : State := (s.enterTripped.post 0x32 (s.frtPay 4)).actScope SLC_TRIP_LATCH.ISLAND 1 3 7 true

theorem declareIsland_eq (s : State) (cause : Nat) :
    s.declareIsland cause = if s.law.mir.frozen && s.islandMode then s
      else if (s.tellIsland cause).islandMode then (s.tellIsland cause).goOnAsIsland else (s.tellIsland cause).tripIsland := by
  unfold State.declareIsland State.tellIsland State.recordIsland
  rfl

theorem recordIsland_only (s : State) (cause : Nat) : Only 0x1100100000200200 s (s.recordIsland cause) :=
  Only.post (Only.wr (Only.wr (Only.refl _ s) _ _ rfl rfl) _ _ rfl rfl) _ _ rfl

theorem tellIsland_only (s : State) (cause : Nat) : Only 0x110c100000200200 s (s.tellIsland cause) :=
  Only.set_law_lawC (Only.mono (recordIsland_only s cause) rfl) _ rfl _ rfl

theorem tellIsland_law (s : State) (cause : Nat) :
    (s.tellIsland cause).law = s.law.rocofAnew ∧ (s.tellIsland cause).lawC = s.lawC.rocofAnew := by
  have honly := recordIsland_only s cause
  exact ⟨congrArg Law.rocofAnew (honly.law rfl), congrArg Law.rocofAnew (honly.lawC rfl)⟩

theorem tellIsland_regs (s : State) (cause : Nat) : (s.tellIsland cause).regs = (s.recordIsland cause).regs := by
  unfold State.tellIsland
  rfl

theorem tellIsland_shows (s : State) {cause : Nat} (hcause : cause < 8) :
    (s.tellIsland cause).rd MIR_STATUS.ISLAND = 1 ∧ (s.tellIsland cause).rd MIR_STATUS.CAUSE = cause := by
  have hregs := rdi_of_regs (tellIsland_regs s cause)
  refine ⟨(hregs _ 0).trans ?_, (hregs _ 0).trans ?_⟩
  all_goals
    unfold State.recordIsland
    refine ((postO _ _ _).rd _ rfl).trans ?_
  · rw [State.rd_wr_apart _ _ (by decide), State.rd_wr_self _ _ (by decide)]
    rfl
  · rw [State.rd_wr_self _ _ (by decide)]
    exact Nat.mod_eq_of_lt hcause

/-- Telling of an island moves no active copy. -/
theorem tellIsland_act (s : State) (cause : Nat) {f : Fld} (hlow : low f = true) (hf : fr 0x1100100000000200 f = true) :
    (s.tellIsland cause).act f = s.act f := by
  refine (acti_of_regs (tellIsland_regs s cause) f 0).trans ?_
  unfold State.recordIsland
  exact ((postO _ _ _).act f hf).trans ((State.acti_wri _ 0 0 _ hlow (by decide)).trans (State.acti_wri _ 0 0 _ hlow (by decide)))

theorem tellIsland_islandMode (s : State) (cause : Nat) : (s.tellIsland cause).islandMode = s.islandMode := by
  unfold State.islandMode
  rw [(tellIsland_law s cause).1, tellIsland_act s cause (by decide) rfl]
  rfl

theorem islandMode_iff (s : State) : s.islandMode = true ↔ s.law.src.gfm = true ∧ s.act MIR_ACT_CFG.GFM_ACT = 1 := by
  simp [State.islandMode]

theorem islandMode_off {s : State} (h : s.law.src.gfm = false ∨ s.act MIR_ACT_CFG.GFM_ACT ≠ 1) : s.islandMode = false := by
  rw [Bool.eq_false_iff, ne_eq, islandMode_iff]
  rintro ⟨hgfm, hact⟩
  exact h.elim (fun hoff => Bool.false_ne_true (hoff.symm.trans hgfm)) (fun hoff => hoff hact)

theorem moveTo_islandMode (s : State) (e : Nat) : (s.moveTo e).islandMode = s.islandMode := by
  obtain ⟨e', o, k, hmove⟩ := moveTo_eq s e
  rw [hmove]
  rfl

/-- A device that cannot go on as an island trips (R212). -/
theorem declareIsland_trips {s : State} (hmode : s.islandMode = false) (cause : Nat) :
    s.declareIsland cause = (s.tellIsland cause).tripIsland := by
  rw [declareIsland_eq, tellIsland_islandMode, hmode, Bool.and_false, if_neg Bool.false_ne_true, if_neg Bool.false_ne_true]

/-- A device that goes on as an island does not trip (R212). -/
theorem declareIsland_goesOn {s : State} (hmode : s.islandMode = true) (hnew : s.law.mir.frozen = false) (cause : Nat) :
    s.declareIsland cause = (s.tellIsland cause).goOnAsIsland := by
  rw [declareIsland_eq, tellIsland_islandMode, hmode, hnew, Bool.false_and, if_neg Bool.false_ne_true, if_pos rfl]

/-- A scheduled source of the safe state puts it in force, every phase and the breaker with it (R391, R394). -/
theorem scheduledSafe_shows {s : State} {f : Fld} (hlatch : f ∈ latchFields) (hph : s.rd SLC_BLOCK_STATUS.PHASES < 8) :
    (s.actScope f 1 3 7 true).rd SLC_BLOCK_STATUS.SCOPE = 3 ∧ (s.actScope f 1 3 7 true).rd SLC_BLOCK_STATUS.PHASES = 7 ∧
      (s.actScope f 1 3 7 true).rd SLC_BLOCK_STATUS.BRK ≠ 0 := by
  obtain ⟨-, hphases, hscope, hbrk, -⟩ := s.actScope_spec f 1 3 7 true hlatch (by decide) hph
  refine ⟨hscope.trans (if_pos (.inl rfl)), hphases.trans (np7 _ _ hph), ?_⟩
  rw [hbrk]
  split
  · exact one_ne_zero
  · next hopen => exact fun hzero => hopen ⟨rfl, hzero⟩

theorem tripIsland_only (s : State) : Only 0x194e700120100200 s s.tripIsland :=
  Only.actScope (Only.post (Only.enterTripped (Only.refl _ s) rfl) _ _ rfl) _ _ _ _ _ rfl (by decide)

theorem tripIsland_law (s : State) : s.tripIsland.law = s.law.tripped ∧ s.tripIsland.lawC = s.lawC.tripped := by
  have hlatch : SLC_TRIP_LATCH.ISLAND ∈ latchFields := by decide
  obtain ⟨hlaw, hlawC⟩ := enterTripped_law s
  unfold State.tripIsland
  rw [State.actScope_law _ _ _ _ _ _ hlatch, State.actScope_lawC _ _ _ _ _ _ hlatch, (postO _ _ _).law rfl, (postO _ _ _).lawC rfl]
  exact ⟨hlaw, hlawC⟩

/-- The trip puts the safe state in force, with every phase and the breaker (R391). -/
theorem tripIsland_shows {s : State} (hph : s.rd SLC_BLOCK_STATUS.PHASES < 8) :
    s.tripIsland.rd SLC_BLOCK_STATUS.SCOPE = 3 ∧ s.tripIsland.rd SLC_BLOCK_STATUS.PHASES = 7 ∧
      s.tripIsland.rd SLC_BLOCK_STATUS.BRK ≠ 0 := by
  have hbefore : (s.enterTripped.post 0x32 (s.frtPay 4)).rd SLC_BLOCK_STATUS.PHASES = s.rd SLC_BLOCK_STATUS.PHASES :=
    ((postO _ _ _).rd _ rfl).trans ((Only.enterTripped (Only.refl 0xc200000100000 s) rfl).rd _ rfl)
  unfold State.tripIsland
  exact scheduledSafe_shows (by decide) (hbefore.trans_lt hph)

/-- An island that trips shows its cause, trips the supervisor in both copies of the law and enters the safe state (R212). -/
theorem declareIsland_tripped {s t : State} (hmode : s.islandMode = false) (hph : s.rd SLC_BLOCK_STATUS.PHASES < 8) {cause : Nat}
    (hcause : cause < 8) (ht : t = s.declareIsland cause) :
    t.rd MIR_STATUS.ISLAND = 1 ∧ t.rd MIR_STATUS.CAUSE = cause ∧ t.law.sup.state = 4 ∧ t.lawC.sup.state = 4 ∧
      t.rd SLC_BLOCK_STATUS.SCOPE = 3 ∧ t.rd SLC_BLOCK_STATUS.PHASES = 7 ∧ t.rd SLC_BLOCK_STATUS.BRK ≠ 0 := by
  rw [ht, declareIsland_trips hmode]
  obtain ⟨hisland, hwhy⟩ := tellIsland_shows s hcause
  obtain ⟨hlaw, hlawC⟩ := tripIsland_law (s.tellIsland cause)
  have htrip := tripIsland_only (s.tellIsland cause)
  have hsafe := tripIsland_shows (s := s.tellIsland cause) (((tellIsland_only s cause).rd _ rfl).trans_lt hph)
  exact ⟨(htrip.rd _ rfl).trans hisland, (htrip.rd _ rfl).trans hwhy, congrArg (·.sup.state) hlaw,
    congrArg (·.sup.state) hlawC, hsafe⟩

theorem goOnAsIsland_only (s : State) : Only 0xc000000000000 s s.goOnAsIsland :=
  Only.set_law_lawC (Only.refl _ s) _ rfl _ rfl

/-- An island that goes on leaves the supervisor, the cells and the scope in force (R212). -/
theorem declareIsland_goneOn {s t : State} (hmode : s.islandMode = true) (hnew : s.law.mir.frozen = false) {cause : Nat}
    (hcause : cause < 8) (ht : t = s.declareIsland cause) :
    t.rd MIR_STATUS.ISLAND = 1 ∧ t.rd MIR_STATUS.CAUSE = cause ∧ t.law.sup = s.law.sup ∧ t.law.mir.frozen = true ∧
      t.cells = s.cells ∧ t.rd SLC_BLOCK_STATUS.SCOPE = s.rd SLC_BLOCK_STATUS.SCOPE ∧
      t.rd SLC_BLOCK_STATUS.BRK = s.rd SLC_BLOCK_STATUS.BRK := by
  have hlaw : (s.tellIsland cause).goOnAsIsland.law = s.law.rocofAnew.freeze :=
    congrArg Law.freeze (tellIsland_law s cause).1
  rw [ht, declareIsland_goesOn hmode hnew, hlaw]
  obtain ⟨hisland, hwhy⟩ := tellIsland_shows s hcause
  have hgoes := goOnAsIsland_only (s.tellIsland cause)
  have honly := (tellIsland_only s cause).trans (hgoes.mono rfl)
  exact ⟨(hgoes.rd _ rfl).trans hisland, (hgoes.rd _ rfl).trans hwhy, rfl, rfl, honly.cells rfl, honly.rd _ rfl, honly.rd _ rfl⟩

/-! ### The rate-of-change detector and the probe fault (R205, R211) -/

/-- The detector acts in S1 once ROCOF has stood at its level for its time (R211). -/
theorem exec_rocofDetect {s : State} {d : Rat} (hon : s.pwr.mainOn = true) (hs1 : s.tm.s1run = true)
    (hhigh : s.rocofHigh = true) (hfor : s.law.mir.rocofFor = some d)
    (hd : (s.act MIR_PASSIVE_CFG.ROCOF_TIME : Rat) / 100 ≤ d) (e : Nat) :
    exec (.rocofDetect e) s = .next ((s.moveTo e).declareIsland 3) := by
  refine (next_live hon _).trans (congrArg Host.Outcome.next (if_pos ?_))
  obtain ⟨e', o, k, hmove⟩ := moveTo_eq s e
  rw [hmove]
  have hlasts : decide ((s.act MIR_PASSIVE_CFG.ROCOF_TIME : Rat) / 100 ≤ s.law.mir.rocofFor.getD (-1)) = true := by
    simpa [hfor] using hd
  show (s.tm.s1run && s.rocofHigh &&
    decide ((s.act MIR_PASSIVE_CFG.ROCOF_TIME : Rat) / 100 ≤ s.law.mir.rocofFor.getD (-1))) = true
  rw [hs1, hhigh, hlasts]
  rfl

/-- In S1 a fault of the probe is noted in the working copy; MIR_STATUS and the record wait for tend (R205, R469). -/
def State.tellProbeFault (s : State) : State :=
  (({ s with law := { s.law with mir := { s.law.mir with told := true } } } : State).bind (.fld MIR_STATUS.FAULT 0 1)).bind
    (.ev 0x36 [(24, 4, zWord 50 s.law.mir.z), (28, 2, s.law.mir.win.length)])

theorem tellProbeFault_islandMode (s : State) : s.tellProbeFault.islandMode = s.islandMode := rfl

theorem tellProbeFault_inS1 {s : State} (hs1 : s.tm.s1run = true) :
    (let t := s.onLaw fun l => { l with mir := { l.mir with told := true } }
     (t.s1Wr MIR_STATUS.FAULT 1).s1Post 0x36 [(24, 4, zWord 50 t.law.mir.z), (28, 2, t.law.mir.win.length)]) =
      s.tellProbeFault := by
  dsimp only
  rw [onLaw_s1Wr_inS1 hs1]
  exact if_pos hs1

/-- The fault is told once no estimate has been valid for more than 2 s of injection, and trips with FAULT_TRIP (R205). -/
theorem exec_probeFault {s : State} (hon : s.pwr.mainOn = true) (hs1 : s.tm.s1run = true) (hinject : s.law.mir.inject = true)
    (huntold : s.law.mir.told = false) (hbad : 2 < s.law.mir.badFor) (e : Nat) :
    exec (.probeFault e) s = .next (if s.act MIR_ACT_CFG.FAULT_TRIP = 1 then (s.moveTo e).tellProbeFault.declareIsland 5
      else (s.moveTo e).tellProbeFault) := by
  have hs1' : (s.moveTo e).tm.s1run = true := by
    rw [(moveTo_sim s e).1]
    exact hs1
  have hact : (s.moveTo e).tellProbeFault.act MIR_ACT_CFG.FAULT_TRIP = s.act MIR_ACT_CFG.FAULT_TRIP :=
    acti_of_regs (moveTo_regs s e) _ 0
  have hdue : ((s.moveTo e).tm.s1run && (s.moveTo e).law.mir.inject && !(s.moveTo e).law.mir.told &&
      decide (2 < (s.moveTo e).law.mir.badFor)) = true := by
    simp [hs1', hinject, huntold, hbad]
  have htold := congrArg (fun t => if t.act MIR_ACT_CFG.FAULT_TRIP = 1 then t.declareIsland 5 else t) (tellProbeFault_inS1 hs1')
  rw [← hact]
  exact (next_live hon _).trans (congrArg Host.Outcome.next ((if_pos hdue).trans htold))

/-! ### MIR_BASE is written, and ISLAND is cleared (R210, R212, R221) -/

/-- MIR_BASE's row of the register table (R221). -/
def mirBase : RegRow := ⟨"MIR_BASE", 0x15000C, 1, [⟨MIR_BASE.ZR, .rw, [0], .none⟩, ⟨MIR_BASE.ZX, .rw, [0], .none⟩]⟩

theorem mirBase_found : regAt mirBase.base = some mirBase := by decide

/-- What is unbound no longer waits for tend, and nothing else begins to. -/
theorem unbind_tb (s : State) (hit : Fld → Bool) {f : Fld} {a b : Nat} :
    TbItem.fld f a b ∈ (s.unbind hit).tri.tb ↔ TbItem.fld f a b ∈ s.tri.tb ∧ hit f = false := by
  simp [State.unbind]

theorem clearPend_law (s : State) : s.clearPend.law = { s.law with mir := { s.law.mir with pend := 0 } } := State.wr_law ..

theorem clearPend_tb (s : State) {f : Fld} {a b : Nat} (h : TbItem.fld f a b ∈ s.clearPend.tri.tb) :
    TbItem.fld f a b ∈ s.tri.tb := by
  unfold State.clearPend at h
  rw [State.wr_tri] at h
  exact ((unbind_tb _ _).mp h).1

theorem clearPend_pend (s : State) : s.clearPend.rd MIR_STATUS.PEND = 0 := State.rd_wr_self _ 0 (by decide)

theorem clearPend_rd (s : State) {f : Fld} (hf : apart MIR_STATUS.PEND f = true) : s.clearPend.rd f = s.rd f :=
  (State.rd_wr_apart _ 0 hf).trans (rdi_of_regs rfl f 0)

/-- A law whose baseline the host has written. -/
def Law.baseGiven (l : Law) : Law := { l with mir := { l.mir with baseNew := true } }

/-- The word is in MIR_BASE, from where the next update takes it, and no write of this tick's S1 follows (R210). -/
def State.giveBase (s : State) (v : Nat) : State :=
  let t := (s.putRw MIR_BASE.ZR.base v).unbind (fun f => f.base == MIR_BASE.ZR.base)
  { t with law := t.law.baseGiven, lawC := t.lawC.baseGiven }

theorem writeMirBase_eq (s : State) (v : Nat) : s.writeMirBase v = (s.giveBase v).clearPend := rfl

theorem giveBase_regs (s : State) (v : Nat) : (s.giveBase v).regs = (s.putRw MIR_BASE.ZR.base v).regs := rfl

theorem giveBase_tri (s : State) (v : Nat) : (s.giveBase v).tri =
    ((s.putRw MIR_BASE.ZR.base v).unbind (fun f => f.base == MIR_BASE.ZR.base)).tri := by
  unfold State.giveBase
  rfl

theorem giveBase_law (s : State) (v : Nat) : (s.giveBase v).law = s.law.baseGiven := by
  rw [← putRw_law s MIR_BASE.ZR.base v]
  rfl

theorem writeMirBase_shows (s : State) (v : Nat) :
    (s.writeMirBase v).rd MIR_BASE.ZR = bits v 16 16 ∧ (s.writeMirBase v).rd MIR_BASE.ZX = bits v 0 16 ∧
      (s.writeMirBase v).law.mir = { s.law.mir with baseNew := true, pend := 0 } ∧
      (s.writeMirBase v).rd MIR_STATUS.PEND = 0 ∧ (s.writeMirBase v).rd MIR_STATUS.ISLAND = s.rd MIR_STATUS.ISLAND ∧
      ∀ f a b, f.base = MIR_BASE.ZR.base → TbItem.fld f a b ∉ (s.writeMirBase v).tri.tb := by
  rw [writeMirBase_eq, clearPend_law, giveBase_law]
  have hreads : ∀ f, apart MIR_STATUS.PEND f = true →
      (s.giveBase v).clearPend.rd f = (s.putRw MIR_BASE.ZR.base v).rd f :=
    fun f hf => (clearPend_rd _ hf).trans (rdi_of_regs (giveBase_regs s v) f 0)
  refine ⟨?_, ?_, rfl, clearPend_pend _, ?_, fun f a b hbase hwaits => ?_⟩
  · rw [hreads _ (by decide)]
    exact putRw_takes mirBase_found (by decide) s v (.head _) (by decide)
  · rw [hreads _ (by decide)]
    exact putRw_takes mirBase_found (by decide) s v (.tail _ (.head _)) (by decide)
  · rw [hreads _ (by decide), putRw_at (off := MIR_BASE.ZR.base) mirBase_found]
    exact rdi_putFields_apart s _ v (by decide) 0
  · have hkept := clearPend_tb (s.giveBase v) hwaits
    rw [giveBase_tri] at hkept
    simpa [hbase] using ((unbind_tb _ _).mp hkept).2

/-- A law whose baseline moves again. -/
def Law.thaw (l : Law) : Law := { l with mir := { l.mir with frozen := false } }

/-- Both copies of the law let the baseline move again (R212). -/
def State.thaw (s : State) : State := { s with law := s.law.thaw, lawC := s.lawC.thaw }

theorem clearIsland_eq (s : State) : s.clearIsland = (s.thaw.wr MIR_STATUS.ISLAND 0).clearPend := rfl

theorem clearIsland_shows (s : State) :
    s.clearIsland.rd MIR_STATUS.ISLAND = 0 ∧ s.clearIsland.rd MIR_STATUS.PEND = 0 ∧
      s.clearIsland.law.mir = { s.law.mir with frozen := false, pend := 0 } ∧ s.clearIsland.law.sup = s.law.sup ∧
      s.clearIsland.rd MIR_STATUS.CAUSE = s.rd MIR_STATUS.CAUSE := by
  rw [clearIsland_eq, clearPend_law, State.wr_law]
  refine ⟨(clearPend_rd _ (by decide)).trans ?_, clearPend_pend _, rfl, rfl, (clearPend_rd _ (by decide)).trans ?_⟩
  · exact State.rd_wr_self _ 0 (by decide)
  · exact State.rd_wr_apart _ 0 (by decide)

/-! ### What S1 shows and changes of the probe (R463, R469) -/

theorem s1Wr_law (s : State) (f : Fld) (v : Nat) : (s.s1Wr f v).law = s.law := by
  unfold State.s1Wr State.s1Wri
  split
  · rfl
  · exact State.wri_law ..

theorem showFill_law (s : State) : s.showFill.law = s.law := (s1Wr_law _ _ _).trans (s1Wr_law s _ _)

/-- From `s` to `t` only the probe's part of the working law changes, and what waits for tend. -/
def ProbeOnly (s t : State) : Prop := ∃ m x, t = { s with law := { s.law with mir := m }, tri := x }

namespace ProbeOnly
variable {s t u : State}

theorem refl (s : State) : ProbeOnly s s := ⟨s.law.mir, s.tri, rfl⟩

theorem trans (h : ProbeOnly s t) (g : ProbeOnly t u) : ProbeOnly s u := by
  obtain ⟨m, x, rfl⟩ := h
  obtain ⟨m', x', rfl⟩ := g
  exact ⟨m', x', rfl⟩

theorem onLaw (hs1 : s.tm.s1run = true) {g : Law → Law} {m : MirSt} (hg : g s.law = { s.law with mir := m }) :
    ProbeOnly s (s.onLaw g) := ⟨m, s.tri, by rw [onLaw_inS1 hs1, hg]⟩

theorem s1Wr (hs1 : s.tm.s1run = true) (f : Fld) (v : Nat) : ProbeOnly s (s.s1Wr f v) := ⟨s.law.mir, _, if_pos hs1⟩

theorem s1run (h : ProbeOnly s t) (hs1 : s.tm.s1run = true) : t.tm.s1run = true := by
  obtain ⟨m, x, rfl⟩ := h
  exact hs1

theorem probeAllowed (h : ProbeOnly s t) : t.probeAllowed = s.probeAllowed := by
  obtain ⟨m, x, rfl⟩ := h
  rfl

theorem act (h : ProbeOnly s t) (f : Fld) : t.act f = s.act f := by
  obtain ⟨m, x, rfl⟩ := h
  rfl

theorem rd (h : ProbeOnly s t) (f : Fld) : t.rd f = s.rd f := by
  obtain ⟨m, x, rfl⟩ := h
  rfl

theorem codeSet (h : ProbeOnly s t) : t.codeSet = s.codeSet := by
  obtain ⟨m, x, rfl⟩ := h
  rfl

theorem tick (h : ProbeOnly s t) : t.tm.n = s.tm.n := by
  obtain ⟨m, x, rfl⟩ := h
  rfl

theorem regs_lawC (h : ProbeOnly s t) : t.regs = s.regs ∧ t.lawC = s.lawC := by
  obtain ⟨m, x, rfl⟩ := h
  exact ⟨rfl, rfl⟩

theorem showFill (hs1 : s.tm.s1run = true) : ProbeOnly s s.showFill :=
  (s1Wr hs1 _ _).trans (s1Wr ((s1Wr hs1 _ _).s1run hs1) _ _)

theorem chipDone (hs1 : s.tm.s1run = true) : ProbeOnly s s.chipDone := by
  unfold State.chipDone
  exact onLaw hs1 rfl

theorem probeGuard (hs1 : s.tm.s1run = true) : ProbeOnly s s.probeGuard := by
  unfold State.probeGuard
  split
  · exact refl s
  · have hcleared : ProbeOnly s (s.onLaw Law.clearWindow) := onLaw hs1 rfl
    exact hcleared.trans (showFill (hcleared.s1run hs1))

theorem injectTurn (hs1 : s.tm.s1run = true) : ProbeOnly s s.injectTurn := by
  unfold State.injectTurn
  extract_lets new at' on
  split
  · exact refl s
  · have hturned : ProbeOnly s (s.onLaw fun l => { l with mir := { l.mir with
        inject := on, code := new, chip := s.tm.n / (chipTicks new.2.1 : Int) } }) := onLaw hs1 rfl
    exact hturned.trans (s1Wr (hturned.s1run hs1) _ _)

end ProbeOnly

/-! ### The chip ends: its means, the window and the count (R202, R203) -/

/-- The chip's means are in the window, or the window is empty while injection is not allowed. -/
def State.chipEntered (s : State) : State := s.chipDone.probeGuard.showFill

/-- Chips from one update to the next (R44, R204). -/
def State.updateChips (s : State) : Nat := s.act MIR_WIN_CFG.UPDATE * (if 1 ≤ s.rd CLK_TICK_STATUS.SHED_LEVEL then 4 else 1)

/-- With this chip an update is due (R204). -/
def State.updateDue (s : State) : Bool := decide (s.updateChips ≤ s.law.mir.chips + 1)

/-- The chips since the last update are counted. -/
def State.countChip (s : State) : State :=
  s.onLaw fun l => { l with mir := { l.mir with chips := if s.updateDue then 0 else l.mir.chips + 1 } }

theorem ProbeOnly.countChip {s : State} (hs1 : s.tm.s1run = true) : ProbeOnly s s.countChip := by
  unfold State.countChip
  exact onLaw hs1 rfl

/-- The state that the update of the decision is made in, when one is due. -/
def State.chipCounted (s : State) : State := s.chipEntered.countChip

/-- The state in which the chip boundary turns injection on or off. -/
def State.chipUpdated (s : State) : State :=
  if s.chipEntered.updateDue && s.chipCounted.law.mir.inject && s.chipCounted.probeAllowed then s.chipCounted.probeUpdate
  else s.chipCounted

/-- The boundary of a chip in S1 (R200). -/
theorem exec_chipBoundary {s : State} (hon : s.pwr.mainOn = true) (hs1 : s.tm.s1run = true) (hdue : s.chipDue = true)
    (e : Nat) : exec (.chipBoundary e) s = .next (s.moveTo e).chipUpdated.injectTurn := by
  refine (next_live hon _).trans (congrArg Host.Outcome.next (if_pos ?_))
  obtain ⟨e', o, k, hmove⟩ := moveTo_eq s e
  rw [hmove]
  show (s.tm.s1run && s.chipDue) = true
  rw [hs1, hdue]
  rfl

theorem chipEntered_only {s : State} (hs1 : s.tm.s1run = true) : ProbeOnly s s.chipEntered := by
  have hdone := ProbeOnly.chipDone hs1
  have hguard := hdone.trans (ProbeOnly.probeGuard (hdone.s1run hs1))
  exact hguard.trans (ProbeOnly.showFill (hguard.s1run hs1))

theorem chipCounted_only {s : State} (hs1 : s.tm.s1run = true) : ProbeOnly s s.chipCounted :=
  (chipEntered_only hs1).trans (ProbeOnly.countChip ((chipEntered_only hs1).s1run hs1))

/-- The windows of a probe are cleared. -/
def MirSt.clearWindow (m : MirSt) : MirSt := { m with win := [], last := none }

theorem probeGuard_mir (s : State) : s.probeGuard.law.mir = if s.probeAllowed then s.law.mir else s.law.mir.clearWindow := by
  unfold State.probeGuard
  by_cases hallowed : s.probeAllowed = true
  · rw [if_pos (.inl hallowed), if_pos hallowed]
  · rw [if_neg hallowed]
    split
    · next hempty =>
      obtain ⟨hwin, hlast⟩ := hempty.resolve_left hallowed
      unfold MirSt.clearWindow
      rw [← hwin, ← hlast]
    · rw [showFill_law]
      rfl

theorem chipEntered_mir (s : State) :
    s.chipEntered.law.mir = if s.probeAllowed then s.chipDone.law.mir else s.chipDone.law.mir.clearWindow := by
  unfold State.chipEntered
  rw [showFill_law, probeGuard_mir]
  rfl

/-- The count of ticks starts again with the present chip; count of chips, injection and code stand (R200, R203). -/
theorem chipEntered_keeps (s : State) : s.chipEntered.law.mir.n = 0 ∧ s.chipEntered.law.mir.chip = s.chipNow ∧
    s.chipEntered.law.mir.code = s.law.mir.code ∧ s.chipEntered.law.mir.chips = s.law.mir.chips ∧
    s.chipEntered.law.mir.inject = s.law.mir.inject := by
  rw [chipEntered_mir]
  split
  · exact ⟨rfl, rfl, rfl, rfl, rfl⟩
  · exact ⟨rfl, rfl, rfl, rfl, rfl⟩

theorem chipEntered_updateDue {s : State} (hs1 : s.tm.s1run = true) : s.chipEntered.updateDue = s.updateDue := by
  obtain ⟨-, -, -, hchips, -⟩ := chipEntered_keeps s
  unfold State.updateDue State.updateChips
  rw [(chipEntered_only hs1).act, (chipEntered_only hs1).rd, hchips]

/-- A chip that began with the present code and had a predecessor enters the window with its means (R203). -/
theorem chipDone_enters {s : State} {x : Cx × Cx × Int} (hinject : s.law.mir.inject = true) (hwhole : s.law.mir.restart = false)
    (hticks : s.law.mir.n ≠ 0) (hlast : s.law.mir.last = some x) :
    let c := s.chipValue s.law.mir.chip
    let v := s.law.mir.sv.scale (divR 1 (s.law.mir.n : Rat))
    let i := s.law.mir.si.scale (divR 1 (s.law.mir.n : Rat))
    (s.chipNow = s.law.mir.chip + 1 → s.chipDone.law.mir.last = some (v, i, c)) ∧
      s.chipDone.law.mir.win = ((c - x.2.2, v.sub x.1, i.sub x.2.1) :: s.law.mir.win).take (s.act MIR_WIN_CFG.WINDOW) := by
  refine ⟨fun hnext => ?_, ?_⟩
  · simp [State.chipDone, State.onLaw, hinject, hwhole, hticks, hnext]
  · simp [State.chipDone, State.onLaw, hinject, hwhole, hticks, hlast]

/-! ### The update and what follows leave the chip in progress (R204, R209, R217) -/

/-- The chip in progress: its ticks, the chips since the last update, its number and code, the tick, the code to come. -/
def State.chipView (s : State) : Nat × Nat × Int × (Nat × Nat × Nat) × Int × (Nat × Nat × Nat) :=
  (s.law.mir.n, s.law.mir.chips, s.law.mir.chip, s.law.mir.code, s.tm.n, s.codeSet)

/-- What of the probe's state the chip in progress is told by. -/
def MirSt.chipPart (m : MirSt) : Nat × Nat × Int × (Nat × Nat × Nat) := (m.n, m.chips, m.chip, m.code)

theorem chipView_of_eq {s t : State} (hpart : t.law.mir.chipPart = s.law.mir.chipPart) (htick : t.tm.n = s.tm.n)
    (hcode : t.codeSet = s.codeSet) : t.chipView = s.chipView := by
  simp only [MirSt.chipPart, Prod.mk.injEq] at hpart
  obtain ⟨hn, hchips, hchip, hnow⟩ := hpart
  simp only [State.chipView, hn, hchips, hchip, hnow, htick, hcode]

theorem chipView_of_only {M : Nat} {s t : State} (h : Only M s t) (hpart : t.law.mir.chipPart = s.law.mir.chipPart)
    (htm : M.testBit 41 = false) (hcode : ∀ f ∈ [MIR_CFG.AXIS, MIR_CFG.CHIPLEN, MIR_CFG.CODE_IDX], fr M f = true) :
    t.chipView = s.chipView := by
  refine chipView_of_eq hpart (by rw [h.tm htm]) ?_
  unfold State.codeSet
  rw [h.act _ (hcode _ (by decide)), h.act _ (hcode _ (by decide)), h.act _ (hcode _ (by decide))]

theorem onLaw_chipView {s : State} {g : Law → Law} (hg : (g s.law).mir.chipPart = s.law.mir.chipPart) :
    (s.onLaw g).chipView = s.chipView := chipView_of_eq hg rfl rfl

theorem s1Wr_chipView (s : State) {f : Fld} (hlow : low f = true) (v : Nat) : (s.s1Wr f v).chipView = s.chipView := by
  unfold State.s1Wr State.s1Wri
  split
  · rfl
  · refine chipView_of_eq (by rw [State.wri_law]) (by rw [State.wri_tm]) ?_
    have hact : ∀ g, low g = true → (s.wri f 0 v).act g = s.act g := fun g hg => State.acti_wri s 0 0 v hg hlow
    unfold State.codeSet
    rw [hact _ (by decide), hact _ (by decide), hact _ (by decide)]

theorem tellIsland_chipView (s : State) (cause : Nat) : (s.tellIsland cause).chipView = s.chipView := by
  refine chipView_of_eq (congrArg (·.mir.chipPart) (tellIsland_law s cause).1) (by rw [(tellIsland_only s cause).tm rfl]) ?_
  unfold State.codeSet
  rw [tellIsland_act s cause (by decide) rfl, tellIsland_act s cause (by decide) rfl, tellIsland_act s cause (by decide) rfl]

theorem goOnAsIsland_chipView (s : State) : s.goOnAsIsland.chipView = s.chipView := rfl

theorem tripIsland_chipView (s : State) : s.tripIsland.chipView = s.chipView :=
  chipView_of_only (tripIsland_only s) (congrArg (·.mir.chipPart) (tripIsland_law s).1) rfl (by decide)

/-- A declared island leaves the chip in progress. -/
theorem declareIsland_chipView (s : State) (cause : Nat) : (s.declareIsland cause).chipView = s.chipView := by
  rw [declareIsland_eq]
  split
  · rfl
  · split
    · exact (goOnAsIsland_chipView _).trans (tellIsland_chipView s cause)
    · exact (tripIsland_chipView _).trans (tellIsland_chipView s cause)

theorem s1Wr_twice_chipView (s : State) {f g : Fld} (hf : low f = true) (hg : low g = true) (v w : Nat) :
    ((s.s1Wr f v).s1Wr g w).chipView = s.chipView := (s1Wr_chipView _ hg w).trans (s1Wr_chipView _ hf v)

/-- The update of the decision leaves the chip in progress (R204). -/
theorem probeUpdate_chipView (s : State) : s.probeUpdate.chipView = s.chipView := by
  unfold State.probeUpdate
  extract_lets m c full z valid base0 zero s1 s2 s3 showBase seen s4 lim zt why pend u tu zb s5 s6
  have h1 : s1.chipView = s.chipView := onLaw_chipView rfl
  have h2 : s2.chipView = s.chipView := (s1Wr_chipView _ (by decide) _).trans h1
  have h3 : s3.chipView = s.chipView := by
    unfold s3
    split
    · exact (s1Wr_twice_chipView _ (by decide) (by decide) _ _).trans h2
    · exact h2
  have hbase : ∀ (w : State) (b : Cx), (showBase w b).chipView = w.chipView :=
    fun w b => s1Wr_twice_chipView w (by decide) (by decide) _ _
  have h4 : s4.chipView = s.chipView := (onLaw_chipView rfl).trans h3
  have h5 : s5.chipView = s.chipView := (onLaw_chipView rfl).trans h4
  have h6 : s6.chipView = s.chipView := (hbase _ _).trans ((s1Wr_chipView _ (by decide) _).trans h5)
  split
  · exact h3
  · split
    · exact (hbase _ _).trans ((onLaw_chipView rfl).trans h4)
    · split
      · exact (declareIsland_chipView _ _).trans h6
      · exact h6

/-- At the turn of injection the chip in progress is the present one, of the code in force (R200). -/
theorem chipUpdated_chipView {s : State} (hs1 : s.tm.s1run = true) :
    s.chipUpdated.chipView = (0, if s.updateDue then 0 else s.law.mir.chips + 1, s.chipNow, s.law.mir.code, s.tm.n, s.codeSet) := by
  have hcounted : s.chipCounted.chipView =
      (0, if s.updateDue then 0 else s.law.mir.chips + 1, s.chipNow, s.law.mir.code, s.tm.n, s.codeSet) := by
    obtain ⟨hn, hchip, hcode, hchips, -⟩ := chipEntered_keeps s
    have honly := chipCounted_only hs1
    have hcount : s.chipCounted.law.mir.chips = if s.updateDue then 0 else s.law.mir.chips + 1 := by
      rw [← chipEntered_updateDue hs1, ← hchips]
      rfl
    show (s.chipEntered.law.mir.n, s.chipCounted.law.mir.chips, s.chipEntered.law.mir.chip, s.chipEntered.law.mir.code,
      s.chipCounted.tm.n, s.chipCounted.codeSet) = _
    rw [hn, hcount, hchip, hcode, honly.tick, honly.codeSet]
  unfold State.chipUpdated
  split
  · exact (probeUpdate_chipView _).trans hcounted
  · exact hcounted

/-! ### Injection is turned on or off (R200, R202, R217) -/

/-- At a boundary of the old code's chips injection and code follow the configuration; within one of its chips they stand. -/
theorem injectTurn_mir (s : State) : s.injectTurn.law.mir =
    if s.tm.n % (s.chipLen : Int) = 0 then
      { s.law.mir with
        inject := s.probeAllowed && (s.codeSet == s.law.mir.code || s.tm.n % (chipTicks s.codeSet.2.1 : Int) == 0)
        code := s.codeSet
        chip := s.tm.n / (chipTicks s.codeSet.2.1 : Int) }
    else s.law.mir := by
  unfold State.injectTurn
  by_cases hend : s.tm.n % (s.chipLen : Int) = 0
  · simp only [hend, beq_self_eq_true, Bool.not_true, Bool.false_eq_true, if_false, if_true]
    rw [s1Wr_law]
    rfl
  · simp [hend]

/-- What a chip boundary leaves of the chip in progress, with or without an update (R200, R204, R217). -/
theorem chipBoundary_shows {s t : State} (hs1 : s.tm.s1run = true) (ht : t = s.chipUpdated.injectTurn) :
    t.law.mir.n = 0 ∧
      t.law.mir.chip = (if s.tm.n % (s.chipLen : Int) = 0 then s.tm.n / (chipTicks s.codeSet.2.1 : Int) else s.chipNow) ∧
      t.law.mir.code = (if s.tm.n % (s.chipLen : Int) = 0 then s.codeSet else s.law.mir.code) ∧
      t.law.mir.chips = if s.updateDue then 0 else s.law.mir.chips + 1 := by
  have hview := chipUpdated_chipView hs1
  simp only [State.chipView, Prod.mk.injEq] at hview
  obtain ⟨hn, hchips, hchip, hcode, htick, hset⟩ := hview
  have hlen : s.chipUpdated.chipLen = s.chipLen := by
    unfold State.chipLen
    rw [hcode]
  rw [ht, injectTurn_mir, htick, hlen, hset]
  split
  · exact ⟨hn, rfl, rfl, hchips⟩
  · exact ⟨hn, hchip, hcode, hchips⟩

/-! ### A boundary without an update (R202, R203) -/

theorem chipUpdated_waits {s : State} (hs1 : s.tm.s1run = true) (hwaits : s.updateDue = false) : s.chipUpdated = s.chipCounted := by
  unfold State.chipUpdated
  rw [chipEntered_updateDue hs1, hwaits]
  rfl

theorem chipBoundary_only {s : State} (hs1 : s.tm.s1run = true) (hwaits : s.updateDue = false) :
    ProbeOnly s s.chipUpdated.injectTurn := by
  rw [chipUpdated_waits hs1 hwaits]
  exact (chipCounted_only hs1).trans (ProbeOnly.injectTurn ((chipCounted_only hs1).s1run hs1))

/-- The window that a chip boundary leaves is the one that the chip entered. -/
theorem chipBoundary_window {s : State} (hs1 : s.tm.s1run = true) (hwaits : s.updateDue = false) :
    s.chipUpdated.injectTurn.law.mir.win = s.chipEntered.law.mir.win ∧
      s.chipUpdated.injectTurn.law.mir.last = s.chipEntered.law.mir.last := by
  rw [chipUpdated_waits hs1 hwaits, injectTurn_mir]
  split
  · exact ⟨rfl, rfl⟩
  · exact ⟨rfl, rfl⟩

/-- Injection after a chip boundary (R202, R217). -/
theorem chipBoundary_inject {s : State} (hs1 : s.tm.s1run = true) (hwaits : s.updateDue = false) :
    s.chipUpdated.injectTurn.law.mir.inject = if s.tm.n % (s.chipLen : Int) = 0 then
      s.probeAllowed && (s.codeSet == s.law.mir.code || s.tm.n % (chipTicks s.codeSet.2.1 : Int) == 0)
    else s.law.mir.inject := by
  obtain ⟨-, -, hcode, -, hinject⟩ := chipEntered_keeps s
  have honly := chipCounted_only hs1
  have hcode' : s.chipCounted.law.mir.code = s.law.mir.code := hcode
  have hinject' : s.chipCounted.law.mir.inject = s.law.mir.inject := hinject
  have hlen : s.chipCounted.chipLen = s.chipLen := by
    unfold State.chipLen
    rw [hcode']
  rw [chipUpdated_waits hs1 hwaits, injectTurn_mir, honly.tick, hlen, honly.codeSet, honly.probeAllowed, hcode']
  split
  · rfl
  · exact hinject'

theorem updateDue_iff (s : State) : s.updateDue = true ↔ s.updateChips ≤ s.law.mir.chips + 1 := decide_eq_true_iff

/-- A boundary without an update writes no register and leaves the committed law; injection turns at the end of a chip of the
old code alone, and the window is empty while injection is not allowed (R200, R202). -/
theorem chipBoundary_waits {s t : State} (hs1 : s.tm.s1run = true) (hwaits : s.updateDue = false)
    (ht : t = s.chipUpdated.injectTurn) :
    t.regs = s.regs ∧ t.lawC = s.lawC ∧
      (s.tm.n % (s.chipLen : Int) = 0 → (t.law.mir.inject = true ↔ s.probeAllowed = true ∧
        (s.codeSet = s.law.mir.code ∨ s.tm.n % (chipTicks s.codeSet.2.1 : Int) = 0))) ∧
      (s.tm.n % (s.chipLen : Int) ≠ 0 → t.law.mir.inject = s.law.mir.inject) ∧
      (s.probeAllowed = false → t.law.mir.win = [] ∧ t.law.mir.last = none) := by
  obtain ⟨hregs, hlawC⟩ := (chipBoundary_only hs1 hwaits).regs_lawC
  obtain ⟨hwin, hlast⟩ := chipBoundary_window hs1 hwaits
  rw [ht, chipBoundary_inject hs1 hwaits, hwin, hlast, chipEntered_mir]
  refine ⟨hregs, hlawC, fun hend => ?_, fun hwithin => if_neg hwithin, fun hbarred => ?_⟩
  · rw [if_pos hend]
    simp
  · rw [hbarred]
    exact ⟨rfl, rfl⟩

/-- A boundary without an update while injection is allowed leaves the window that the chip enters (R203). -/
theorem chipBoundary_allowed {s t : State} (hs1 : s.tm.s1run = true) (hwaits : s.updateDue = false)
    (hallowed : s.probeAllowed = true) (ht : t = s.chipUpdated.injectTurn) :
    t.law.mir.win = s.chipDone.law.mir.win ∧ t.law.mir.last = s.chipDone.law.mir.last := by
  obtain ⟨hwin, hlast⟩ := chipBoundary_window hs1 hwaits
  rw [ht, hwin, hlast, chipEntered_mir, if_pos hallowed]
  exact ⟨rfl, rfl⟩

/-- Settles O28: the boundary by `chipBoundary_shows` and `chipBoundary_waits`, the detectors by `declareIsland_tripped` and
`declareIsland_goneOn`, the two writes by `writeMirBase_shows` and `clearIsland_shows`. -/
theorem islandProbeCommands : Obligations.IslandProbeCommands := by
  unfold Obligations.IslandProbeCommands
  refine ⟨fun s e hon hs1 hdue => ⟨_, exec_chipBoundary hon hs1 hdue e, ?_⟩,
    fun s e hon hs1 hinject huntold hbad hact => ⟨_, exec_probeFault hon hs1 hinject huntold hbad e, ?_⟩,
    fun s e hon hs1 hinject huntold hbad hact hph hgfm => ⟨_, exec_probeFault hon hs1 hinject huntold hbad e, ?_⟩,
    fun s d e hon hs1 hhigh hfor hd hph hmode => ⟨_, exec_rocofDetect hon hs1 hhigh hfor hd e, ?_⟩,
    fun s d e hon hs1 hhigh hfor hd hnew hgfm hact => ⟨_, exec_rocofDetect hon hs1 hhigh hfor hd e, ?_⟩,
    fun s v hon => ⟨_, next_live hon _, writeMirBase_shows s v⟩,
    fun s hon => ⟨_, next_live hon _, clearIsland_shows s⟩⟩
  · obtain ⟨e', o, k, hmove⟩ := moveTo_eq s e
    rw [hmove]
    set u : State := { s with tm := { s.tm with e := e', o := o }, clk := k }
    have hs1' : u.tm.s1run = true := hs1
    obtain ⟨hn, hchip, hcode, hchips⟩ := chipBoundary_shows hs1' rfl
    refine ⟨hn, hchip, hcode, fun hlast => hchips.trans (if_pos ((updateDue_iff s).mpr hlast)), fun hfew => ?_⟩
    have hwaits : u.updateDue = false := Bool.eq_false_iff.mpr fun hup => absurd ((updateDue_iff s).mp hup) (not_le.mpr hfew)
    obtain ⟨hregs, hlawC, hend, hwithin, hbarred⟩ := chipBoundary_waits hs1' hwaits rfl
    refine ⟨hchips.trans (if_neg (Bool.eq_false_iff.mp hwaits)), hregs, hlawC, hend, hwithin, hbarred,
      fun x hallowed hinject hwhole hticks hbefore => ?_⟩
    obtain ⟨hwin, hlast⟩ := chipBoundary_allowed hs1' hwaits hallowed rfl
    obtain ⟨hmeans, henters⟩ := chipDone_enters (s := u) hinject hwhole hticks hbefore
    exact ⟨_, _, _, fun hnext => hlast.trans (hmeans hnext), rfl, rfl, rfl, hwin.trans henters⟩
  · rw [if_neg (by rw [hact]; exact zero_ne_one)]
    obtain ⟨e', o, k, hmove⟩ := moveTo_eq s e
    rw [hmove]
    refine ⟨rfl, rfl, ?_, rfl⟩
    simp [State.tellProbeFault, State.bind]
  · rw [if_pos hact]
    have hregs : (s.moveTo e).tellProbeFault.regs = s.regs := moveTo_regs s e
    have hmode : (s.moveTo e).tellProbeFault.islandMode = false := by
      rw [tellProbeFault_islandMode, moveTo_islandMode, islandMode_off (.inl hgfm)]
    exact declareIsland_tripped hmode ((rdi_of_regs hregs _ 0).trans_lt hph) (by decide) rfl
  · have hmode' : (s.moveTo e).islandMode = false := by rw [moveTo_islandMode, islandMode_off hmode]
    exact declareIsland_tripped hmode' ((rdi_of_regs (moveTo_regs s e) _ 0).trans_lt hph) (by decide) rfl
  · have hmode : (s.moveTo e).islandMode = true := by
      rw [moveTo_islandMode, islandMode_iff]
      exact ⟨hgfm, hact⟩
    have hregs := rdi_of_regs (moveTo_regs s e)
    have hgone := declareIsland_goneOn hmode (by rw [State.moveTo_law]; exact hnew) (cause := 3) (by decide) rfl
    rw [State.moveTo_law, State.moveTo_cells] at hgone
    obtain ⟨hisland, hcause, hsup, hfrozen, hcells, hscope, hbrk⟩ := hgone
    exact ⟨hisland, hcause, hsup, hfrozen, hcells, hscope.trans (hregs _ 0), hbrk.trans (hregs _ 0)⟩

end Sys2Proof.Machine
end

section
/-! PROOFS. The words of a panel and of a pack cell: what a write takes, what it discards, and the window it narrows
(07_dc_ports.md R228, R239, R240, R248 to R252; R4): O20. -/
namespace Sys2Proof.Machine
open Reg

/-! ### The word of a family of registers -/

/-- In a block whose families follow each other, an offset inside a family finds it. -/
theorem findReg_of_mem {off : Nat} {l : List RegRow} (hl : l.Pairwise (fun x y => x.base + 4 * x.count ≤ y.base))
    {r : RegRow} (hr : r ∈ l) (hlo : r.base ≤ off) (hhi : off < r.base + 4 * r.count) : findReg off l = some r := by
  induction hl with
  | nil => cases hr
  | @cons x l hx _ ih =>
    rw [findReg]
    cases hr with
    | head => exact if_pos ⟨hlo, hhi⟩
    | tail _ hr =>
      have := hx r hr
      rw [if_neg (by omega)]
      exact ih hr

/-- The word of an entry of a field belongs to the field's family. -/
theorem regAt_entry {b : List RegRow} {r : RegRow} {f : Fld} {i : Nat} (hb : regBlocks[f.off i / 0x10000]? = some b)
    (hl : b.Pairwise (fun x y => x.base + 4 * x.count ≤ y.base)) (hr : r ∈ b) (hbase : r.base = f.base)
    (hi : i < r.count) : regAt (f.off i) = some r := by
  unfold regAt
  rw [hb]
  exact findReg_of_mem hl hr (by unfold Fld.off; omega) (by unfold Fld.off; omega)

/-- A write of an entry's word gives each RW or RWS field of the entry its bits. -/
theorem putRwi_takes {g : Fld} {r : RegRow} {i : Nat} (hr : regAt (g.off i) = some r) (hbase : r.base = g.base)
    (hpair : r.writable.Pairwise (fun x y => apart y.f x.f = true)) (hg : i < g.count) (s : State) (v : Nat) {f : Fld}
    (hf : f ∈ r.writable.map FieldRow.f) (hi : i < f.count) : (s.putRwi g i v).rdi f i = bits v f.lo f.w := by
  obtain ⟨x, hx, rfl⟩ := List.mem_map.mp hf
  have hentry : (g.off i - r.base) / 4 = i := by unfold Fld.off; omega
  unfold State.putRwi
  rw [if_pos hg, putRw_at hr, hentry]
  exact rdi_putFields_mem s hpair hx hi

/-! ### One cell's tracker (R227) -/

theorem pv_of_law {s t : State} (h : t.law = s.law) (c : Nat) : t.pv c = s.pv c := by unfold State.pv; rw [h]

theorem pv_bothPv_self (s : State) (c : Nat) (g : PvSt → PvSt) : (s.bothPv c g).pv c = g (s.pv c) := tget_tput_self _ _ _ _

theorem pv_bothPv_ne (s : State) {c d : Nat} (h : d ≠ c) (g : PvSt → PvSt) : (s.bothPv c g).pv d = s.pv d :=
  tget_tput_ne _ _ _ h.symm

/-! ### PORT_PV_CFG_n is written (R228, R240, R248) -/

/-- PORT_PV_CFG_n's row of the register table (R248). -/
def portPvCfg : RegRow :=
  ⟨"PORT_PV_CFG_n", 0x170000, 240, [⟨PORT_PV_CFG_n.TRK_EN, .rw, [0], .none⟩, ⟨PORT_PV_CFG_n.ROW, .rw, [3], .none⟩,
    ⟨PORT_PV_CFG_n.VMAX, .rw, [0], .u 1 2047⟩, ⟨PORT_PV_CFG_n.VMIN, .rw, [0], .u 0 2046⟩]⟩

theorem portPvCfg_found (c : Fin 240) : regAt (PORT_PV_CFG_n.ROW.off c) = some portPvCfg := by
  have hblock : PORT_PV_CFG_n.ROW.off c / 0x10000 = 0x17 := by
    show (0x170000 + 4 * c.val) / 0x10000 = 0x17
    omega
  exact regAt_entry (b := regsBlock17) (by rw [hblock]; rfl) (by decide) (by decide) rfl c.isLt

/-- VMIN below VMAX leaves both in their ranges (R248). -/
theorem inRange_pvCfg (c : Fin 240) {v : Nat} (horder : bits v 0 11 < bits v 11 11) :
    inRange (PORT_PV_CFG_n.ROW.off c) v = true := by
  have hmax : bits v 11 11 < 2048 := bits_lt v 11 11
  rw [inRange_at (portPvCfg_found c)]
  show (decide (1 ≤ bits v 11 11) && decide (bits v 11 11 ≤ 2047) &&
    (decide (0 ≤ bits v 0 11) && decide (bits v 0 11 ≤ 2046) && true)) = true
  simp only [Bool.and_eq_true, decide_eq_true_eq, and_true]
  omega

/-- The four fields take their bits of the word (R248). -/
theorem putPvCfg_takes (s : State) (c : Fin 240) (v : Nat) {f : Fld}
    (hf : f ∈ portPvCfg.writable.map FieldRow.f) :
    (s.putRwi PORT_PV_CFG_n.ROW c v).rdi f c = bits v f.lo f.w := by
  have hcount : ∀ g ∈ portPvCfg.writable.map FieldRow.f, g.count = 240 := by decide
  exact putRwi_takes (portPvCfg_found c) rfl (by decide) c.isLt s v hf (c.isLt.trans_eq (hcount f hf).symm)

theorem putPvCfg_only (s : State) (c v : Nat) : Only 0x800000 s (s.putRwi PORT_PV_CFG_n.ROW c v) :=
  (Only.refl _ s).putRwi _ c v rfl

theorem exec_portPvCfgWrite {s : State} (hon : s.pwr.mainOn = true) (c : Fin 240) (v : Nat) :
    exec (.portPvCfgWrite c v) s = .next (s.writePvCfg c v) := next_live hon _

/-- A cell that the part lacks takes no write (R4). -/
theorem writePvCfg_absent {s : State} {c : Nat} (h : s.cellCount ≤ c) (v : Nat) : s.writePvCfg c v = s := if_pos h

/-- A word that breaks the order of VMIN and VMAX or a rule of the rows is refused (R228, R240). -/
theorem writePvCfg_refused {s : State} {c v : Nat} (hcell : c < s.cellCount)
    (h : bits v 11 11 ≤ bits v 0 11 ∨ bits v 22 8 % chipTicks (s.act MIR_CFG.CHIPLEN) = 0 ∨ popcount8 (bits v 22 8) < 2 ∨
      s.rowTaken c (s.phaseOf c) (bits v 22 8) = true) : s.writePvCfg c v = s.refuse PORT_GSTATUS.CFG_ERR :=
  (if_neg (Nat.not_le.mpr hcell)).trans (if_pos (.inr h))

/-- The estimate of the period in progress is discarded for a cell (R240). -/
def State.discardPeriod (s : State) (c : Nat) : State := s.bothPv c fun x => { x with bad := periodOf s.tm.n :: x.bad }

/-- An allowed word is taken, and a new row or VMIN discards the period in progress (R228, R240). -/
theorem writePvCfg_taken {s : State} {c : Fin 240} {v : Nat} (hcell : c.val < s.cellCount)
    (horder : bits v 0 11 < bits v 11 11) (hchip : bits v 22 8 % chipTicks (s.act MIR_CFG.CHIPLEN) ≠ 0)
    (hpop : 2 ≤ popcount8 (bits v 22 8)) (hfree : s.rowTaken c (s.phaseOf c) (bits v 22 8) = false) :
    s.writePvCfg c v =
      if bits v 22 8 ≠ s.rdi PORT_PV_CFG_n.ROW c ∨ bits v 0 11 ≠ s.rdi PORT_PV_CFG_n.VMIN c
      then (s.putRwi PORT_PV_CFG_n.ROW c v).discardPeriod c else s.putRwi PORT_PV_CFG_n.ROW c v := by
  refine (if_neg (Nat.not_le.mpr hcell)).trans (if_neg ?_)
  rw [inRange_pvCfg c horder, hfree]
  rintro (h | h | h | h | h)
  · cases h
  · omega
  · exact hchip h
  · omega
  · cases h

/-- A taken word shows its fields and leaves the other cells; the row and the operating point in force wait for the period's
boundary (R227, R240). -/
theorem writePvCfg_shows {s t : State} {c : Fin 240} {v : Nat} (new : Prop) [Decidable new]
    (ht : t = if new then (s.putRwi PORT_PV_CFG_n.ROW c v).discardPeriod c else s.putRwi PORT_PV_CFG_n.ROW c v) :
    (∀ f ∈ portPvCfg.writable.map FieldRow.f, t.rdi f c = bits v f.lo f.w) ∧
    (∀ d, d ≠ c.val → t.pv d = s.pv d) ∧ (t.pv c).row = (s.pv c).row ∧ (t.pv c).vop = (s.pv c).vop ∧
    (new → (t.pv c).bad = periodOf s.tm.n :: (s.pv c).bad) := by
  have hput := putPvCfg_only s c v
  have hpv := pv_of_law (hput.law rfl)
  have htm : (s.putRwi PORT_PV_CFG_n.ROW c v).tm = s.tm := hput.tm rfl
  subst ht
  by_cases hnew : new
  · rw [if_pos hnew]
    unfold State.discardPeriod
    refine ⟨fun f hf => putPvCfg_takes s c v hf, fun d hd => ?_, ?_⟩
    · rw [pv_bothPv_ne _ hd, hpv]
    · rw [pv_bothPv_self, hpv, htm]
      exact ⟨rfl, rfl, fun _ => rfl⟩
  · rw [if_neg hnew, hpv]
    exact ⟨fun f hf => putPvCfg_takes s c v hf, fun d _ => hpv d, rfl, rfl, fun h => absurd h hnew⟩

/-! ### The pack registers are written (R239, R249 to R252) -/

/-- The rows of the four pack registers (R249 to R252). -/
def packRow : Fin 4 → RegRow
  | 0 => ⟨"PORT_PACK_LIM_n", 0x180000, 240, [⟨PORT_PACK_LIM_n.IDIS, .rw, [0], .none⟩, ⟨PORT_PACK_LIM_n.ICHG, .rw, [0], .none⟩]⟩
  | 1 => ⟨"PORT_PACK_WIN_n", 0x180400, 240, [⟨PORT_PACK_WIN_n.SOC_MIN, .rw, [20], .u 0 199⟩,
      ⟨PORT_PACK_WIN_n.SOC_MAX, .rw, [180], .u 1 200⟩, ⟨PORT_PACK_WIN_n.TAPER, .rw, [20], .u 1 40⟩]⟩
  | 2 => ⟨"PORT_PACK_VLIM_n", 0x180800, 240, [⟨PORT_PACK_VLIM_n.VMAX, .rw, [2047], .none⟩,
      ⟨PORT_PACK_VLIM_n.VMIN, .rw, [0], .none⟩]⟩
  | 3 => ⟨"PORT_PACK_SOH_n", 0x180C00, 240, [⟨PORT_PACK_SOH_n.SOH, .rw, [1000], .u 1 1000⟩]⟩

theorem packReg_count : ∀ g : Fin 4, (packReg g).count = 240 := by decide

theorem packReg_base : ∀ g : Fin 4, (packReg g).base = 0x180000 + 0x400 * g.val := by decide

theorem packRow_base : ∀ g : Fin 4, (packRow g).base = (packReg g).base := by decide

theorem packReg_found (g : Fin 4) (c : Fin 240) : regAt ((packReg g).off c) = some (packRow g) := by
  have hblock : (packReg g).off c / 0x10000 = 0x18 := by unfold Fld.off; rw [packReg_base]; omega
  have hmem : ∀ g : Fin 4, packRow g ∈ regsBlock18 ∧ (packRow g).count = 240 := by decide
  obtain ⟨hrow, hcount⟩ := hmem g
  exact regAt_entry (b := regsBlock18) (by rw [hblock]; rfl) (by decide) hrow (packRow_base g) (c.isLt.trans_eq hcount.symm)

/-- Each field of the register takes its bits of the word. -/
theorem putPack_takes (s : State) (g : Fin 4) (c : Fin 240) (v : Nat) {f : Fld} (hf : f ∈ (packRow g).writable.map FieldRow.f) :
    (s.putRwi (packReg g) c v).rdi f c = bits v f.lo f.w := by
  have hapart : ∀ g : Fin 4, (packRow g).writable.Pairwise (fun x y => apart y.f x.f = true) := by decide
  have hcount : ∀ g : Fin 4, ∀ f ∈ (packRow g).writable.map FieldRow.f, f.count = 240 := by decide
  exact putRwi_takes (packReg_found g c) (packRow_base g) (hapart g) (c.isLt.trans_eq (packReg_count g).symm) s v
    hf (c.isLt.trans_eq (hcount g f hf).symm)

theorem putPack_only (s : State) (g : Fin 4) (c v : Nat) : Only 0x1000000 s (s.putRwi (packReg g) c v) := by
  have hblock : ∀ g : Fin 4, inM 0x1000000 (packReg g) = true := by decide
  exact (Only.refl _ s).putRwi _ c v (hblock g)

theorem exec_portPackWrite {s : State} (hon : s.pwr.mainOn = true) (g : Fin 4) (c : Fin 240) (v : Nat) :
    exec (.portPackWrite g c v) s = .next (s.writePack g c v) := next_live hon _

/-- A cell that the part lacks takes no write (R4). -/
theorem writePack_absent {s : State} {c : Nat} (h : s.cellCount ≤ c) (g v : Nat) : s.writePack g c v = s := if_pos h

/-- What a write of a pack register must meet (R249 to R252). -/
def packAllowed (v : Nat) : Fin 4 → Prop
  | 0 => True
  | 1 => bits v 24 8 < bits v 16 8 ∧ bits v 16 8 ≤ 200 ∧ 1 ≤ bits v 8 8 ∧ bits v 8 8 ≤ 40
  | 2 => bits v 0 11 < bits v 16 11
  | 3 => 1 ≤ bits v 0 10 ∧ bits v 0 10 ≤ 1000

theorem inRange_pack {v : Nat} (g : Fin 4) (c : Fin 240) (h : packAllowed v g) : inRange ((packReg g).off c) v = true := by
  rw [inRange_at (packReg_found g c)]
  match g, h with
  | 0, _ => rfl
  | 1, ⟨horder, hmax, hlo, hhi⟩ =>
    show (decide (0 ≤ bits v 24 8) && decide (bits v 24 8 ≤ 199) && (decide (1 ≤ bits v 16 8) && decide (bits v 16 8 ≤ 200) &&
      (decide (1 ≤ bits v 8 8) && decide (bits v 8 8 ≤ 40) && true))) = true
    simp only [Bool.and_eq_true, decide_eq_true_eq, and_true]
    omega
  | 2, _ => rfl
  | 3, ⟨hlo, hhi⟩ =>
    show (decide (1 ≤ bits v 0 10) && decide (bits v 0 10 ≤ 1000) && true) = true
    simp [hlo, hhi]

/-- The write neither enables a cell nor gives it a role (R57, R58). -/
theorem putPack_enabled_role (s : State) (g : Fin 4) (c v : Nat) :
    (s.putRwi (packReg g) c v).enabled c = s.enabled c ∧ (s.putRwi (packReg g) c v).role c = s.role c :=
  ⟨congrArg (· == 1) ((putPack_only s g c v).rdi _ _ rfl), (putPack_only s g c v).rdi _ _ rfl⟩

/-- An allowed word is taken; the window of an enabled pack cell is formed anew (R239). -/
theorem writePack_taken {s : State} {g : Fin 4} {c : Fin 240} {v : Nat} (hcell : c.val < s.cellCount) (h : packAllowed v g) :
    s.writePack g c v = if s.enabled c = true ∧ s.role c = 1 then (s.putRwi (packReg g) c v).packWindow false c
      else s.putRwi (packReg g) c v := by
  obtain ⟨henabled, hrole⟩ := putPack_enabled_role s g c v
  have hrules : ¬((!inRange ((packReg g).off c) v) = true ∨ (g.val = 1 ∧ bits v 16 8 ≤ bits v 24 8) ∨
      (g.val = 2 ∧ bits v 16 11 ≤ bits v 0 11)) := by
    rw [inRange_pack g c h]
    match g, h with
    | 0, _ => simp
    | 1, ⟨horder, _⟩ => simpa using horder
    | 2, (horder : bits v 0 11 < bits v 16 11) => simpa using horder
    | 3, _ => simp
  refine ((if_neg (Nat.not_le.mpr hcell)).trans (if_neg hrules)).trans ?_
  dsimp only
  rw [henabled, hrole]

theorem showPack_cells (s : State) (c : Nat) : (s.showPack c).cells = s.cells :=
  (Only.showPack (Only.refl 0x1100100002000200 s) c rfl).cells rfl

/-- A port takes the window `w` formed anew, as a whole or where it is narrower (R236 to R239). -/
def CellPort.formed (x : CellPort) (w : PackWin) (whole alarm : Bool) : CellPort :=
  { x with
    wLo := w.lo, wHi := w.hi, socLo := w.socLo, socHi := w.socHi
    iLo := if whole then w.lo else max x.iLo w.lo
    iHi := if whole then w.hi else min x.iHi w.hi
    alarmWin := alarm || (x.alarmWin && !whole) }

/-- Of the cells' records, a window formed anew changes the port of its cell alone. -/
theorem packWindow_cells (s : State) (whole : Bool) (c : Nat) :
    (s.packWindow whole c).cells = (s.updCell c fun x => { x with
      port := x.port.formed (s.packForm c) whole ((s.cell c).link.tel.packAlarm != 0) }).cells := by
  unfold State.packWindow
  dsimp only
  rw [showPack_cells]
  split
  · simp only [State.post_cells, State.wri_cells]
    rfl
  · simp only [State.wri_cells]
    rfl

/-- Before the line-cycle boundary a new window applies where it is narrower, at either end (R239). -/
theorem packWindow_narrows (s : State) (c : Nat) :
    (s.cell c).port.iLo ≤ ((s.packWindow false c).cell c).port.iLo ∧
    ((s.packWindow false c).cell c).port.iHi ≤ (s.cell c).port.iHi := by
  have hcell : (s.packWindow false c).cell c = _ :=
    (congrArg (tget _ · c) (packWindow_cells s false c)).trans (s.cell_updCell_self c _)
  rw [hcell]
  exact ⟨le_max_left _ _, min_le_left _ _⟩

/-- A taken word shows its fields; the window of an enabled pack cell only narrows, and any other cell keeps its record
(R239, R240). -/
theorem writePack_shows {s : State} {g : Fin 4} {c : Fin 240} {v : Nat} (hon : s.pwr.mainOn = true) (hcell : c.val < s.cellCount)
    (h : packAllowed v g) : ∃ t, exec (.portPackWrite g c v) s = .next t ∧
      (∀ f ∈ (packRow g).writable.map FieldRow.f, t.rdi f c = bits v f.lo f.w) ∧
      (s.enabled c = true → s.role c = 1 →
        (s.cell c).port.iLo ≤ (t.cell c).port.iLo ∧ (t.cell c).port.iHi ≤ (s.cell c).port.iHi) ∧
      (¬(s.enabled c = true ∧ s.role c = 1) → t.cells = s.cells) := by
  refine ⟨_, exec_portPackWrite hon g c v, ?_⟩
  rw [writePack_taken hcell h]
  set u := s.putRwi (packReg g) c v
  have hcells : u.cells = s.cells := (putPack_only s g c v).cells rfl
  by_cases hpack : s.enabled c = true ∧ s.role c = 1
  · have hstands : ∀ g : Fin 4, ∀ f ∈ (packRow g).writable.map FieldRow.f, fr 0x1102100002000200 f = true := by decide
    have honly := Only.packWindow (Only.refl 0x1102100002000200 u) false c rfl
    have hold : s.cell c = u.cell c := (congrArg (tget _ · c.val) hcells).symm
    rw [if_pos hpack, hold]
    exact ⟨fun f hf => (honly.rdi f c (hstands g f hf)).trans (putPack_takes s g c v hf),
      fun _ _ => packWindow_narrows u c, fun hno => absurd hpack hno⟩
  · rw [if_neg hpack]
    exact ⟨fun f hf => putPack_takes s g c v hf, fun hen hrole => absurd ⟨hen, hrole⟩ hpack, fun _ => hcells⟩

/-- Settles O20: a panel's word by `writePvCfg_absent`, `writePvCfg_shows` and `writePvCfg_refused`, a pack cell's by
`writePack_shows`. -/
theorem portConfigurationWrites : Obligations.PortConfigurationWrites := by
  unfold Obligations.PortConfigurationWrites
  refine ⟨fun s c v g hon habsent => ?_, fun s c v hon hcell horder hchip hpop hfree => ?_,
    fun s c v hon hcell hbroken => ?_, fun s c v hon hcell => ?_, fun s c v hon hcell horder hmax hlo hhi => ?_,
    fun s c v hon hcell horder => ?_, fun s c v hon hcell hlo hhi => ?_⟩
  · rw [exec_portPvCfgWrite hon, exec_portPackWrite hon, writePvCfg_absent habsent, writePack_absent habsent]
    exact ⟨rfl, rfl⟩
  · obtain ⟨htakes, hothers, hrow, hvop, hbad⟩ := writePvCfg_shows _ (writePvCfg_taken hcell horder hchip hpop hfree)
    refine ⟨_, exec_portPvCfgWrite hon c v, htakes _ (by decide), htakes _ (by decide), htakes _ (by decide),
      htakes _ (by decide), fun d hd => ⟨?_, hothers d hd⟩, hrow, hvop, hbad⟩
    refine writePvCfg_words s c v _ _ (fun hmem => hd ?_) (by decide)
    have hoff := List.mem_singleton.mp hmem
    unfold Fld.off at hoff
    omega
  · refine ⟨_, exec_portPvCfgWrite hon c v, ?_⟩
    rw [writePvCfg_refused hcell hbroken]
    exact ⟨rd_refuse_self s rfl (by decide), State.refuse_law .., s.rdi_wri_apart 0 _ 1 (by decide),
      s.rdi_wri_apart 0 _ 1 (by decide)⟩
  · obtain ⟨t, hexec, htakes, hnarrow, hcells⟩ := writePack_shows (g := 0) (v := v) hon hcell trivial
    exact ⟨t, hexec, htakes _ (by decide), htakes _ (by decide), hnarrow, hcells⟩
  · obtain ⟨t, hexec, htakes, hnarrow, -⟩ := writePack_shows (g := 1) hon hcell ⟨horder, hmax, hlo, hhi⟩
    exact ⟨t, hexec, htakes _ (by decide), htakes _ (by decide), htakes _ (by decide), hnarrow⟩
  · obtain ⟨t, hexec, htakes, hnarrow, -⟩ := writePack_shows (g := 2) (v := v) hon hcell horder
    exact ⟨t, hexec, htakes _ (by decide), htakes _ (by decide), hnarrow⟩
  · obtain ⟨t, hexec, htakes, hnarrow, -⟩ := writePack_shows (g := 3) (v := v) hon hcell ⟨hlo, hhi⟩
    exact ⟨t, hexec, htakes _ (by decide), hnarrow⟩

end Sys2Proof.Machine
end

section
/-! PROOFS. The dither period's boundary, the tracker's step and the scans (07_dc_ports.md R227 to R234, R240, R243, R257;
R463): O21. -/
namespace Sys2Proof.Machine
open Reg

/-! ### Work on the trackers cell by cell -/

/-- The state without the trackers of its cells. -/
def State.sansPv (s : State) : State := { s with law := { s.law with pv := [] }, lawC := { s.lawC with pv := [] } }

theorem regs_cells_of_sansPv {s t : State} (h : t.sansPv = s.sansPv) : t.regs = s.regs ∧ t.cells = s.cells :=
  ⟨(congrArg State.regs h : t.sansPv.regs = s.sansPv.regs), (congrArg State.cells h : t.sansPv.cells = s.sansPv.cells)⟩

theorem trkCfg_of_sansPv {s t : State} (h : t.sansPv = s.sansPv) :
    t.law.trkCfg = s.law.trkCfg ∧ t.lawC.trkCfg = s.lawC.trkCfg :=
  ⟨(congrArg (·.law.trkCfg) h : t.sansPv.law.trkCfg = s.sansPv.law.trkCfg),
    (congrArg (·.lawC.trkCfg) h : t.sansPv.lawC.trkCfg = s.sansPv.lawC.trkCfg)⟩

theorem pv_onPv_self (s : State) (c : Nat) (g : PvSt → PvSt) : (s.onPv c g).pv c = g (s.pv c) := tget_tput_self _ _ _ _

theorem pv_onPv_ne (s : State) {c d : Nat} (h : d ≠ c) (g : PvSt → PvSt) : (s.onPv c g).pv d = s.pv d :=
  tget_tput_ne _ _ _ h.symm

theorem moveTo_pv (s : State) (e c : Nat) : (s.moveTo e).pv c = s.pv c := pv_of_law (s.moveTo_law e) c

theorem pvCells_nodup (s : State) : s.pvCells.Nodup := (List.nodup_range.filter _).filter _

/-- Work that reads nothing of the other trackers meets each tracker of the list once, as it stands at the start. -/
theorem foldl_bothPv {g : State → Nat → PvSt → PvSt} (hg : ∀ s t, t.sansPv = s.sansPv → g t = g s) {l : List Nat}
    (hnd : l.Nodup) {s t : State} (ht : t = l.foldl (fun s c => s.bothPv c (g s c)) s) :
    t.sansPv = s.sansPv ∧ (∀ c ∈ l, t.pv c = g s c (s.pv c)) ∧ ∀ d, d ∉ l → t.pv d = s.pv d := by
  induction l generalizing s with
  | nil =>
    subst ht
    exact ⟨rfl, fun c hc => absurd hc List.not_mem_nil, fun _ _ => rfl⟩
  | cons q l ih =>
    obtain ⟨hq, hl⟩ := List.nodup_cons.mp hnd
    obtain ⟨hsans, hin, hout⟩ := ih hl ht
    refine ⟨hsans, fun c hc => ?_, fun d hd => ?_⟩
    · rcases List.mem_cons.mp hc with rfl | hc
      · exact (hout c hq).trans (pv_bothPv_self s c _)
      · have hne : c ≠ q := fun h => hq (h ▸ hc)
        have hread : g (s.bothPv q (g s q)) = g s := hg s _ rfl
        rw [hin c hc, pv_bothPv_ne s hne, hread]
    · rw [List.mem_cons, not_or] at hd
      obtain ⟨hne, hd⟩ := hd
      exact (hout d hd).trans (pv_bothPv_ne s hne _)

/-! ### The boundary of a dither period (R227, R230, R231, R240, R243) -/

/-- The active tracker settings (R243). -/
def State.activeTrkCfg (s : State) : List Nat :=
  [s.act PORT_TRK_CFG.DAMP, s.act PORT_TRK_CFG.KG, s.act PORT_TRK_CFG.DELAY, s.act PORT_TRK_CFG.VSTEP,
    s.act PORT_TRK_CFG.DRIFT, s.act PORT_TRK_CFG.PMIN]

/-- The tracker settings take effect (R243). -/
def State.takeTrkCfg (s : State) : State :=
  { s with law := { s.law with trkCfg := s.activeTrkCfg }, lawC := { s.lawC with trkCfg := s.activeTrkCfg } }

/-- A tracker in the period `p`, with a scan queued when its power has dropped (R227, R230 to R232). -/
def State.trackerBegun (s : State) (p : Int) (c : Nat) (x : PvSt) : PvSt :=
  let x := s.pvBoundary c p x
  { x with queued := x.queued || (s.scanDrop x && x.scan == none) }

theorem trackerBegun_of_sansPv {s t : State} (h : t.sansPv = s.sansPv) (p : Int) : t.trackerBegun p = s.trackerBegun p := by
  show t.sansPv.trackerBegun p = s.sansPv.trackerBegun p
  rw [h]

/-- Every panel's tracker begins the period `p`. -/
def State.beginPeriod (s : State) (p : Int) : State := s.pvCells.foldl (fun s c => s.bothPv c (s.trackerBegun p c)) s

/-- V_op that a tracker brings to the period `p`: its due step, unless a scan or a condition holds it (R230, R231). -/
def PvSt.stepped (x : PvSt) (p : Int) (held : Bool) : Rat :=
  match x.next.find? (fun y => y.1 == p) with
  | some y => if x.scan ≠ none ∨ held = true then x.vop else y.2
  | none => x.vop

/-- What a tracker keeps when a scan of its cell starts: V_op and the configuration in force. -/
def PvSt.settings (x : PvSt) : Rat × Nat × Nat × Nat × Bool := (x.vop, x.row, x.vmin, x.vmax, x.trk)

/-- A tracker takes the configuration that is written, and its V_op stays in the range of it (R227, R240). -/
theorem trackerBegun_settings (s : State) (p : Int) (c : Nat) (x : PvSt) :
    (s.trackerBegun p c x).settings =
      (clampR (s.rdi PORT_PV_CFG_n.VMIN c : Rat) (s.rdi PORT_PV_CFG_n.VMAX c : Rat)
          (x.stepped p (s.pvHeld c (s.biti PORT_PV_CFG_n.TRK_EN c))),
        s.rdi PORT_PV_CFG_n.ROW c, s.rdi PORT_PV_CFG_n.VMIN c, s.rdi PORT_PV_CFG_n.VMAX c, s.biti PORT_PV_CFG_n.TRK_EN c) := by
  unfold State.trackerBegun State.pvBoundary PvSt.stepped PvSt.settings
  cases x.next.find? (fun y => y.1 == p) with
  | none => rfl
  | some y => simp

/-- A scan of a cell starts when it may (R233, R234). -/
def State.startScan (s : State) (c : Nat) : State :=
  let busy := (s.pvCells.filter (fun d => s.phaseOf d == s.phaseOf c && (s.pv d).scan != none)).length
  if s.scanReady c && decide (busy < s.act PORT_SCAN_CFG.CONC) then
    s.bothPv c fun x => { x with
      queued := false, hold := true, scan := some ⟨x.vop, x.pm, (x.vmax : Rat), none, s.tm.n + 1, periodOf s.tm.n, [], false⟩ }
  else s

theorem startScans_eq (s : State) : s.startScans = if s.scanBlocked then s else s.pvCells.foldl State.startScan s := rfl

theorem startScan_keeps (s : State) (c : Nat) :
    (s.startScan c).sansPv = s.sansPv ∧ ∀ d, ((s.startScan c).pv d).settings = (s.pv d).settings := by
  unfold State.startScan
  dsimp only
  split
  · refine ⟨rfl, fun d => ?_⟩
    by_cases hd : d = c
    · subst hd
      rw [pv_bothPv_self]
      rfl
    · rw [pv_bothPv_ne s hd]
  · exact ⟨rfl, fun _ => rfl⟩

/-- The start of scans leaves every V_op and every configuration in force. -/
theorem startScans_keeps (s : State) :
    s.startScans.sansPv = s.sansPv ∧ ∀ d, (s.startScans.pv d).settings = (s.pv d).settings := by
  rw [startScans_eq]
  split
  · exact ⟨rfl, fun _ => rfl⟩
  · exact ⟨foldl_keep State.sansPv _ (fun u c => (startScan_keeps u c).1) _ s,
      fun d => foldl_keep (fun u => (u.pv d).settings) _ (fun u c => (startScan_keeps u c).2 d) _ s⟩

theorem exec_ditherPeriodBoundary {s : State} (hon : s.pwr.mainOn = true) (hrun : s.tm.run = true) (hphase : s.tm.phase = 0)
    (hn : s.tm.n % 256 = 0) (e : Nat) : exec (.ditherPeriodBoundary e) s =
      .next (((s.moveTo e).takeTrkCfg.beginPeriod (periodOf s.tm.n)).startScans) := by
  refine (next_live hon _).trans (congrArg Host.Outcome.next ?_)
  obtain ⟨e', o, k, hmove⟩ := moveTo_eq s e
  rw [hmove]
  exact if_pos (by simp [hrun, hphase, hn])

/-- At the boundary the settings of the tracker take effect, and every panel takes its configuration, with V_op in the range
of it; nothing else changes but the scans that start (R227, R230, R231, R240, R243). -/
theorem beginPeriod_shows {s t : State} {p : Int} (ht : t = (s.takeTrkCfg.beginPeriod p).startScans) :
    t.regs = s.regs ∧ t.cells = s.cells ∧ t.law.trkCfg = s.activeTrkCfg ∧ t.lawC.trkCfg = s.activeTrkCfg ∧
    ∀ c ∈ s.pvCells, (t.pv c).settings =
      (clampR (s.rdi PORT_PV_CFG_n.VMIN c : Rat) (s.rdi PORT_PV_CFG_n.VMAX c : Rat)
          ((s.pv c).stepped p (s.pvHeld c (s.biti PORT_PV_CFG_n.TRK_EN c))),
        s.rdi PORT_PV_CFG_n.ROW c, s.rdi PORT_PV_CFG_n.VMIN c, s.rdi PORT_PV_CFG_n.VMAX c, s.biti PORT_PV_CFG_n.TRK_EN c) := by
  obtain ⟨hsans, hin, -⟩ := foldl_bothPv (fun _ _ h => trackerBegun_of_sansPv h p) (pvCells_nodup s.takeTrkCfg)
    (s := s.takeTrkCfg) (t := s.takeTrkCfg.beginPeriod p) rfl
  obtain ⟨hsans', hkept⟩ := startScans_keeps (s.takeTrkCfg.beginPeriod p)
  rw [← ht] at hsans' hkept
  obtain ⟨hregs, hcells⟩ := regs_cells_of_sansPv (hsans'.trans hsans)
  obtain ⟨htrk, htrkC⟩ := trkCfg_of_sansPv (hsans'.trans hsans)
  refine ⟨hregs, hcells, htrk, htrkC, fun c hc => ?_⟩
  rw [hkept, hin c hc]
  exact trackerBegun_settings s.takeTrkCfg p c (s.pv c)

/-! ### The tracker's step (R229 to R231) -/

/-- What the estimate of the period `p` leaves of a tracker: V_op and hold stay, a step joins those that wait, and a
discarded period brings none (R229 to R231). -/
structure PvSt.Estimated (p : Int) (x y : PvSt) : Prop where
  vop : y.vop = x.vop
  hold : y.hold = x.hold
  bad : y.bad = x.bad
  next : x.next <+: y.next
  discarded : x.bad.contains p = true → y.next = x.next

theorem PvSt.Estimated.refl (p : Int) (x : PvSt) : x.Estimated p x := ⟨rfl, rfl, rfl, List.prefix_rfl, fun _ => rfl⟩

theorem PvSt.Estimated.trans {p : Int} {x y z : PvSt} (h : x.Estimated p y) (g : y.Estimated p z) : x.Estimated p z :=
  ⟨g.vop.trans h.vop, g.hold.trans h.hold, g.bad.trans h.bad, h.next.trans g.next,
    fun hbad => (g.discarded (h.bad.symm ▸ hbad)).trans (h.discarded hbad)⟩

/-- What the estimates of the period `p` leave of the state while S1 runs (R463). -/
structure EstimateOnly (p : Int) (s t : State) : Prop where
  tm : t.tm = s.tm
  regs : t.regs = s.regs
  lawC : t.lawC = s.lawC
  pv : ∀ c, (s.pv c).Estimated p (t.pv c)

namespace EstimateOnly
variable {p : Int} {s t u : State}

theorem refl (p : Int) (s : State) : EstimateOnly p s s := ⟨rfl, rfl, rfl, fun _ => .refl p _⟩

theorem trans (h : EstimateOnly p s t) (g : EstimateOnly p t u) : EstimateOnly p s u :=
  ⟨g.tm.trans h.tm, g.regs.trans h.regs, g.lawC.trans h.lawC, fun c => (h.pv c).trans (g.pv c)⟩

theorem onPv (hs1 : s.tm.s1run = true) {c : Nat} {g : PvSt → PvSt} (hg : (s.pv c).Estimated p (g (s.pv c))) :
    EstimateOnly p s (s.onPv c g) := by
  refine ⟨rfl, rfl, if_pos hs1, fun d => ?_⟩
  by_cases hd : d = c
  · subst hd
    rw [pv_onPv_self]
    exact hg
  · rw [pv_onPv_ne s hd]
    exact .refl p _

theorem s1Inc (hs1 : s.tm.s1run = true) (f : Fld) (i : Nat) : EstimateOnly p s (s.s1Inc f i) := by
  unfold State.s1Inc
  rw [if_pos hs1]
  exact ⟨rfl, rfl, rfl, fun _ => .refl p _⟩

theorem pvEstimate (hs1 : s.tm.s1run = true) (p : Int) (c : Nat) : EstimateOnly p s (s.pvEstimate p c) := by
  unfold State.pvEstimate
  extract_lets x cfg d pw pm a free means u dft
  have hu : EstimateOnly p s u := onPv hs1 ⟨rfl, rfl, rfl, List.prefix_rfl, fun _ => rfl⟩
  have hs1u : u.tm.s1run = true := hs1
  split
  · exact hu
  · next hgood =>
    rw [Bool.or_eq_true, not_or] at hgood
    obtain ⟨hgood, -⟩ := hgood
    split
    · exact hu
    · split
      · exact hu.trans (s1Inc hs1u _ _)
      · exact hu.trans (onPv hs1u ⟨rfl, rfl, rfl, List.prefix_append _ _,
          fun hbad => absurd ((hu.pv c).bad ▸ hbad) hgood⟩)

theorem foldl (hs1 : s.tm.s1run = true) (l : List Nat) : EstimateOnly p s (l.foldl (fun s c => s.pvEstimate p c) s) := by
  induction l generalizing s with
  | nil => exact refl p s
  | cons c l ih =>
    have hone := pvEstimate hs1 p c
    exact hone.trans (ih (hone.tm ▸ hs1))

end EstimateOnly

/-- The last period whose samples S1 has in full (R229). -/
def State.sampledPeriod (s : State) : Int := (s.tm.n - 257 - (s.law.trkCfg.getD 2 2 : Nat)) / 256

/-- The estimates of the period `p`. -/
def State.estimates (s : State) (p : Int) : State :=
  (s.pvCells.foldl (fun s c => s.pvEstimate p c) s).onLaw fun l => { l with estimated := p }

theorem exec_trackerStep {s : State} (hon : s.pwr.mainOn = true) (hs1 : s.tm.s1run = true)
    (hdue : s.law.estimated < s.sampledPeriod) (e : Nat) :
    exec (.trackerStep e) s = .next ((s.moveTo e).estimates s.sampledPeriod) := by
  refine (next_live hon _).trans (congrArg Host.Outcome.next ?_)
  obtain ⟨e', o, k, hmove⟩ := moveTo_eq s e
  rw [hmove]
  exact if_pos (Bool.and_eq_true_iff.mpr ⟨hs1, decide_eq_true hdue⟩)

theorem estimates_shows {s : State} (hs1 : s.tm.s1run = true) (p : Int) :
    (s.estimates p).law.estimated = p ∧ EstimateOnly p s (s.estimates p) := by
  have hcells := EstimateOnly.foldl (p := p) hs1 s.pvCells
  have hs1' := hcells.tm ▸ hs1
  exact ⟨rfl, hcells.tm, hcells.regs, (if_pos hs1').trans hcells.lawC, hcells.pv⟩

/-! ### Scans are queued (R232, R257) -/

/-- A tracker with a scan queued; none is queued while one runs, and a second request adds nothing (R232). -/
def PvSt.withScanQueued (x : PvSt) : PvSt := { x with queued := x.queued || x.scan == none }

theorem queueScan_eq (s : State) (c : Nat) : s.queueScan c = s.bothPv c PvSt.withScanQueued := rfl

theorem exec_scanPeriodicDue {s : State} {c : Fin 240} {e i : Nat} (hon : s.pwr.mainOn = true) (hen : s.enabled c = true)
    (hrole : s.role c = 2) (hinstant : (s.moveTo e).scanInstant c = some i) (hdue : (s.pv c).due ≤ i)
    (hfrom : s.law.scanFrom ≤ i) : exec (.scanPeriodicDue c e) s =
      .next (((s.moveTo e).queueScan c).bothPv c fun x => { x with due := (s.moveTo e).tm.e + 1 }) := by
  refine (next_live hon _).trans (congrArg Host.Outcome.next ?_)
  have hen' : (s.moveTo e).enabled c = true := hen ▸ congrArg (· == 1) (rdi_of_regs (moveTo_regs s e) _ _)
  have hrole' : (s.moveTo e).role c = 2 := (rdi_of_regs (moveTo_regs s e) _ _).trans hrole
  dsimp only
  rw [hinstant]
  exact if_pos (by simp [hen', hrole', hdue, hfrom, moveTo_pv])

theorem exec_portScanReq {s : State} (hon : s.pwr.mainOn = true) (c : Nat) : exec (.portScanReq c) s = .next (s.scanReq c) :=
  next_live hon _

theorem exec_portScanAll {s : State} (hon : s.pwr.mainOn = true) : exec .portScanAll s = .next s.scanAll := next_live hon _

/-! ### A point of a scan is done (R234) -/

/-- A scan whose point has had its DWELL ticks at the tick `n`: the mean of the last three quarters of them waits for its
reports (log entry 24, the model's choice), and the next point lies STEP lower unless that is below VMIN (R234). -/
def ScanSt.pointDone (k : ScanSt) (x : PvSt) (dwell step : Nat) (n : Int) : ScanSt :=
  let pts := k.pts ++ [(k.v, k.start + ((dwell - 3 * dwell / 4 : Nat) : Int), n)]
  let v := k.v - (step : Rat) / 200 * (x.vmax : Rat)
  if (x.vmin : Rat) ≤ v then { k with pts := pts, start := n + 1, v := v } else { k with pts := pts, swept := true }

/-- The state with a point of the scan `k` done. -/
def State.pointDone (s : State) (c : Nat) (k : ScanSt) : State := s.onPv c fun x =>
  { x with scan := some (k.pointDone (s.pv c) (s.act PORT_SCAN_CFG.DWELL) (s.act PORT_SCAN_CFG.STEP) s.tm.n) }

theorem exec_scanPointDone {s : State} {c : Fin 240} {k : ScanSt} (hon : s.pwr.mainOn = true) (hs1 : s.tm.s1run = true)
    (hscan : (s.pv c).scan = some k) (hopen : k.swept = false) (hdwell : k.start + s.act PORT_SCAN_CFG.DWELL ≤ s.tm.n + 1)
    (e : Nat) : exec (.scanPointDone c e) s = .next ((s.moveTo e).pointDone c k) := by
  refine (next_live hon _).trans (congrArg Host.Outcome.next ?_)
  obtain ⟨e', o, q, hmove⟩ := moveTo_eq s e
  rw [hmove]
  set u : State := { s with tm := { s.tm with e := e', o := o }, clk := q }
  have hscan' : (u.pv c).scan = some k := hscan
  have hdue : (u.tm.s1run && !k.swept && decide (k.start + u.act PORT_SCAN_CFG.DWELL ≤ u.tm.n + 1)) = true :=
    Bool.and_eq_true_iff.mpr ⟨Bool.and_eq_true_iff.mpr ⟨hs1, by rw [hopen]; rfl⟩, decide_eq_true hdwell⟩
  dsimp only
  rw [hscan']
  dsimp only
  rw [if_pos hdue]
  unfold State.pointDone ScanSt.pointDone
  dsimp only
  split
  · rfl
  · rfl

/-! ### A scan ends (R234) -/

theorem scanRecord_inS1 {s : State} (hs1 : s.tm.s1run = true) (c : Nat) (k : ScanSt) (vop : Rat) (abandoned : Bool) :
    ∃ p, s.scanRecord c k vop abandoned = s.bind (.ev 0x24 p) := ⟨_, if_pos hs1⟩

/-- V_op after a scan whose best point is `b`: that point when it gives 0.5 % more than before the scan (R234). -/
def ScanSt.taken (k : ScanSt) (b : Rat × Rat) : Rat := if 1005 / 1000 * k.ppre < b.2 then b.1 else k.vpre

/-- A swept scan ends once no point waits for its reports (R234; log entry 24, the model's choice). -/
theorem scanTake_ends {s : State} {c : Nat} {k : ScanSt} {b : Rat × Rat} (hscan : (s.pv c).scan = some k)
    (hswept : k.swept = true) (hpts : k.pts = []) (hbest : k.best = some b) :
    s.scanTake c = (s.onPv c fun x => { x with scan := none, vop := k.taken b }).scanRecord c k (k.taken b) false := by
  obtain ⟨vpre, ppre, v, best, start, period, pts, swept⟩ := k
  dsimp only at hswept hpts hbest
  subst hswept hpts hbest
  unfold State.scanTake
  rw [hscan]
  rfl

/-- Settles O21: the boundary by `beginPeriod_shows`, the step by `estimates_shows`, the queue by `queueScan_eq` and
`foldl_bothPv`, a point by `exec_scanPointDone`, the end by `scanTake_ends`. -/
theorem panelTrackingCommands : Obligations.PanelTrackingCommands := by
  unfold Obligations.PanelTrackingCommands
  refine ⟨fun s e hon hrun hphase hn => ⟨_, exec_ditherPeriodBoundary hon hrun hphase hn e, ?_⟩,
    fun s e hon hs1 hdue => ⟨_, exec_trackerStep hon hs1 hdue e, ?_⟩,
    fun s c e i hon hen hrole hinstant hdue hfrom =>
      ⟨_, exec_scanPeriodicDue hon hen hrole hinstant hdue hfrom, ?_, fun d hd => ?_⟩,
    fun s c hon hc hen hrole => ⟨_, exec_portScanReq hon c, ?_⟩, fun s c hon hnot => ⟨_, exec_portScanReq hon c, ?_⟩,
    fun s hon => ⟨_, exec_portScanAll hon, ?_⟩,
    fun s c e k hon hs1 hscan hopen hdwell => ⟨_, exec_scanPointDone hon hs1 hscan hopen hdwell e, ?_⟩,
    fun s c k b hs1 hscan hswept hpts hbest => ?_⟩
  · obtain ⟨e', o, q, hmove⟩ := moveTo_eq s e
    rw [hmove]
    obtain ⟨hregs, hcells, htrkCfg, htrkCfgC, hin⟩ := beginPeriod_shows
      (s := { s with tm := { s.tm with e := e', o := o }, clk := q }) (p := periodOf s.tm.n) rfl
    refine ⟨hregs, hcells, htrkCfg, htrkCfgC.trans htrkCfg.symm, fun c hc => ?_⟩
    have hsettings := hin c hc
    simp only [PvSt.settings, Prod.mk.injEq] at hsettings
    obtain ⟨hvop, hrow, hvmin, hvmax, htrk⟩ := hsettings
    refine ⟨hrow, hvmin, hvmax, htrk, ?_⟩
    rw [hvop, hvmin, hvmax]
    rfl
  · obtain ⟨e', o, q, hmove⟩ := moveTo_eq s e
    rw [hmove]
    obtain ⟨hdone, honly⟩ := estimates_shows (s := { s with tm := { s.tm with e := e', o := o }, clk := q }) hs1 s.sampledPeriod
    exact ⟨hdone, honly.lawC, honly.regs, fun c => ⟨(honly.pv c).vop, (honly.pv c).hold, (honly.pv c).next,
      (honly.pv c).discarded⟩⟩
  · rw [pv_bothPv_self, queueScan_eq, pv_bothPv_self, moveTo_pv]
    rfl
  · rw [pv_bothPv_ne _ hd, queueScan_eq, pv_bothPv_ne _ hd, moveTo_pv]
  · have hqueued : s.scanReq c = s.queueScan c := if_pos ⟨hc, hen, hrole⟩
    rw [hqueued, queueScan_eq]
    exact ⟨pv_bothPv_self s c _, rfl, fun d hd => pv_bothPv_ne s hd _⟩
  · have hrefused : s.scanReq c = s.refuse PORT_GSTATUS.CFG_ERR := if_neg hnot
    rw [hrefused]
    exact ⟨rd_refuse_self s rfl (by decide), State.refuse_law ..⟩
  · obtain ⟨hsans, hin, hout⟩ := foldl_bothPv (g := fun _ _ => PvSt.withScanQueued) (fun _ _ _ => rfl) (pvCells_nodup s)
      (s := s) (t := s.scanAll) rfl
    exact ⟨(regs_cells_of_sansPv hsans).1, hin, hout⟩
  · obtain ⟨e', o, q, hmove⟩ := moveTo_eq s e
    rw [hmove]
    have hpv := pv_onPv_self { s with tm := { s.tm with e := e', o := o }, clk := q } c
    exact ⟨if_pos hs1, rfl, _, rfl,
      fun hin => (hpv _).trans (congrArg (fun x => { s.pv c with scan := some x }) (if_pos hin)),
      fun hbelow => (hpv _).trans (congrArg (fun x => { s.pv c with scan := some x }) (if_neg (not_le.mpr hbelow)))⟩
  · obtain ⟨p, hrecord⟩ := scanRecord_inS1 (s := s.onPv c fun x => { x with scan := none, vop := k.taken b }) hs1 c k
      (k.taken b) false
    rw [scanTake_ends hscan hswept hpts hbest, hrecord]
    exact ⟨pv_onPv_self s c _, p, rfl⟩

end Sys2Proof.Machine
end

section
/-! PROOFS. Loops that go DOWN and UP, and the ring that fails and comes back (08_onhorn_link.md R282, R283): O48. -/
namespace Sys2Proof.Machine
open Reg

theorem ring_of_rings {s t : State} (h : t.rings = s.rings) (r : Nat) : t.ring r = s.ring r := by unfold State.ring; rw [h]

/-! ### A loop's change of state (R282, R301) -/

theorem loopField_count (l : Nat) : (loopField l).count = 16 := by unfold loopField; split <;> rfl

theorem loopField_width (l : Nat) : (loopField l).w = 2 := by unfold loopField; split <;> rfl

theorem loopField_apart (l : Nat) {f : Fld} (hpri : apart LINK_RING_STATUS_r.PRI f = true)
    (hsec : apart LINK_RING_STATUS_r.SEC f = true) : apart (loopField l) f = true := by
  unfold loopField
  split
  · exact hpri
  · exact hsec

theorem apart_loopField (l : Nat) {f : Fld} (hpri : apart f LINK_RING_STATUS_r.PRI = true)
    (hsec : apart f LINK_RING_STATUS_r.SEC = true) : apart f (loopField l) = true := by
  unfold loopField
  split
  · exact hpri
  · exact hsec

theorem loopField_other (l : Fin 2) : apart (loopField l) (loopField (1 - l.val)) = true := by
  rcases (by omega : l.val = 0 ∨ l.val = 1) with h | h <;> rw [h] <;> decide

theorem loopField_fr (l : Nat) {M : Nat} (hpri : fr M LINK_RING_STATUS_r.PRI = true) (hsec : fr M LINK_RING_STATUS_r.SEC = true) :
    fr M (loopField l) = true := by
  unfold loopField
  split
  · exact hpri
  · exact hsec

/-- Both loops of a ring are in a state exactly if a loop and the other one are. -/
theorem bothLoops_iff (s : State) (r new : Nat) (l : Fin 2) :
    (s.rdi LINK_RING_STATUS_r.PRI r = new ∧ s.rdi LINK_RING_STATUS_r.SEC r = new) ↔
      s.rdi (loopField l) r = new ∧ s.rdi (loopField (1 - l.val)) r = new := by
  rcases (by omega : l.val = 0 ∨ l.val = 1) with h | h <;> rw [h]
  · rfl
  · exact and_comm

theorem setLoop_only (s : State) (r loop new : Nat) : Only 0x1100100000001200 s (s.setLoop r loop new) :=
  Only.setLoop (Only.refl _ s) r loop new rfl

theorem setLoop_self (s : State) {r loop new : Nat} (hr : r < 16) (hnew : new < 4) :
    (s.setLoop r loop new).rdi (loopField loop) r = new := by
  unfold State.setLoop
  dsimp only
  split
  · next hsame => exact hsame
  · rw [(State.linkEvent_only ..).rdi _ r (loopField_fr loop (by decide) (by decide)),
      s.rdi_wri_self new (hr.trans_eq (loopField_count loop).symm), loopField_width]
    exact Nat.mod_eq_of_lt hnew

/-- A loop's change of state leaves every field but its own. -/
theorem rdi_setLoop (s : State) (r new : Nat) {loop j : Nat} {f : Fld} (hfr : fr 0x1100100000000200 f = true)
    (hf : apart (loopField loop) f = true) : (s.setLoop r loop new).rdi f j = s.rdi f j := by
  unfold State.setLoop
  dsimp only
  split
  · rfl
  · rw [(State.linkEvent_only ..).rdi f j hfr, s.rdi_wri_apart r j new hf]

theorem ringState_setLoop (s : State) (r loop new j : Nat) : (s.setLoop r loop new).ringState j = s.ringState j :=
  rdi_setLoop s r new (by decide) (loopField_apart loop (by decide) (by decide))

theorem ring_setLoop (s : State) (r loop new j : Nat) : (s.setLoop r loop new).ring j = s.ring j :=
  ring_of_rings ((setLoop_only s r loop new).rings rfl) j

/-! ### A ring that fails (R283, R290) -/

/-- Every enabled cell of a ring is lost. -/
def State.loseRing (s : State) (r : Nat) : State :=
  (List.range 15).foldl (fun s q => if s.enabled (r * 15 + q) then s.declareLost (r * 15 + q) else s) s

/-- A ring's record remembers the state that it fails from: FULL or WADI (R283). -/
def RingSt.failFrom (x : RingSt) (state : Nat) : RingSt := { x with before := if state = 4 then 4 else 2 }

/-- A ring whose loops are both DOWN goes to FAILED, remembers where it came from, and loses its cells. -/
def State.failRing (s : State) (r : Nat) : State :=
  (((s.setRing r ((s.ring r).failFrom (s.ringState r))).setRingLink r 5).loseRing r).lossHeadroom

/-- The loss of the cells leaves the rings and the link's block of registers. -/
theorem loseRing_only (s : State) (r : Nat) : Only 0x196250092001e200 s (s.loseRing r).lossHeadroom :=
  (Only.foldl (Only.refl _ s) fun _ _ h => Only.ite (Only.declareLost h _ rfl) h).lossHeadroom rfl

theorem failRing_shows {s : State} {r : Nat} (hr : r < 16) (hlen : s.rings.length = 16) :
    (s.failRing r).ringState r = 5 ∧ ((s.failRing r).ring r).before = (if s.ringState r = 4 then 4 else 2) ∧
      ∀ l, (s.failRing r).rdi (loopField l) r = s.rdi (loopField l) r := by
  obtain ⟨hstate, hring, -⟩ := setRing_setRingLink hr hlen (by decide : 5 < 8) ((s.ring r).failFrom (s.ringState r))
  have hlost := loseRing_only ((s.setRing r ((s.ring r).failFrom (s.ringState r))).setRingLink r 5) r
  refine ⟨(hlost.rdi _ r (by decide)).trans hstate, ?_, fun l => ?_⟩
  · exact congrArg RingSt.before ((ring_of_rings (hlost.rings rfl) r).trans hring)
  · refine (hlost.rdi _ r (loopField_fr l (by decide) (by decide))).trans ?_
    exact rdi_setRingLink _ _ (loopField_fr l (by decide) (by decide)) (.inr (apart_loopField l (by decide) (by decide)))

/-! ### LOOP_DOWN and LOOP_UP (R282, R283) -/

/-- LOOP_DOWN of a loop whose count has come to its limit: DOWN, and with the other loop DOWN a ring that runs fails. -/
theorem exec_loopDown {s : State} {r : Fin 16} {l : Fin 2} (hon : s.pwr.mainOn = true) (hring : s.ringOn r = true)
    (hbad : s.rd LINK_CFG.LOOP_DOWN ≤ (s.ring r).bad.getD l 0) :
    exec (.loopDown r l) s = .next (
      if s.rdi (loopField (1 - l.val)) r = 2 ∧ (s.ringState r = 2 ∨ s.ringState r = 3 ∨ s.ringState r = 4) then
        (s.setLoop r l 2).failRing r
      else s.setLoop r l 2) := by
  have hboth := bothLoops_iff (s.setLoop r l 2) r 2 l
  rw [setLoop_self s r.isLt (by decide), rdi_setLoop s r 2 (loopField_fr _ (by decide) (by decide)) (loopField_other l)] at hboth
  show execLoopDown r l s = _
  unfold execLoopDown
  rw [s.live_on hon]
  dsimp only
  rw [if_neg (by rw [hring]; simpa using hbad)]
  congr 1
  refine if_congr ?_ rfl rfl
  rw [← and_assoc, hboth, ringState_setLoop]
  simp only [true_and]

/-- LOOP_UP of a loop with 64 good returns: UP, and a ring in FAILED goes back (R283, R284). -/
theorem exec_loopUp {s : State} {r : Fin 16} {l : Fin 2} (hon : s.pwr.mainOn = true) (hring : s.ringOn r = true)
    (hgood : 64 ≤ (s.ring r).good.getD l 0) :
    exec (.loopUp r l) s = .next (
      if s.ringState r = 5 then ((s.setLoop r l 0).foldFit r).setRingLink r (s.ring r).before
      else (s.setLoop r l 0).foldFit r) := by
  have hstate : ((s.setLoop r l 0).foldFit r).ringState r = s.ringState r :=
    (State.rdi_wri_apart _ _ _ _ (by decide)).trans (ringState_setLoop ..)
  have hrec : ((s.setLoop r l 0).foldFit r).ring r = s.ring r := (State.wri_ring ..).trans (ring_setLoop ..)
  show execLoopUp r l s = _
  unfold execLoopUp
  rw [s.live_on hon]
  dsimp only
  rw [if_neg (by rw [hring]; simpa using hgood), hstate, hrec]

/-- What LOOP_UP leaves of the loop it takes up, before the ring itself may change. -/
theorem setLoop_foldFit (s : State) {r new : Nat} (l : Nat) (hr : r < 16) (hnew : new < 4) :
    ((s.setLoop r l new).foldFit r).rdi (loopField l) r = new ∧ ((s.setLoop r l new).foldFit r).cells = s.cells := by
  exact ⟨(State.rdi_wri_apart _ _ _ _ (apart_loopField l (by decide) (by decide))).trans (setLoop_self s hr hnew),
    (State.wri_cells ..).trans ((setLoop_only ..).cells rfl)⟩

/-- Settles O48: LOOP_DOWN by `setLoop_self` and `failRing_shows`, LOOP_UP by `setLoop_foldFit` and `ringState_setRingLink`. -/
theorem loopDownAndUpCommands : Obligations.LoopDownAndUpCommands := by
  unfold Obligations.LoopDownAndUpCommands
  refine ⟨fun s r l hon hring hbad hlen => ⟨_, exec_loopDown hon hring hbad, ?_⟩,
    fun s r l hon hring hgood hbefore => ⟨_, exec_loopUp hon hring hgood, ?_⟩⟩
  · have hdown : (s.setLoop r l 2).rdi (loopField l) r = 2 := setLoop_self s r.isLt (by decide)
    obtain ⟨hfailed, hbefore, hloops⟩ := failRing_shows (s := s.setLoop r l 2) r.isLt
      ((congrArg List.length ((setLoop_only s r l 2).rings rfl)).trans hlen)
    rw [ringState_setLoop] at hbefore
    split
    · next h => exact ⟨(hloops l).trans hdown, fun _ _ => ⟨hfailed, hbefore⟩, fun hne => absurd h.1 hne⟩
    · next h => exact ⟨hdown, fun hother hruns => absurd ⟨hother, hruns⟩ h,
        fun _ => ⟨ringState_setLoop .., (setLoop_only ..).cells rfl⟩⟩
  · obtain ⟨hup, hcells⟩ := setLoop_foldFit s l r.isLt (by decide : 0 < 4)
    split
    · exact ⟨(rdi_setRingLink _ _ (loopField_fr l (by decide) (by decide))
        (.inr (apart_loopField l (by decide) (by decide)))).trans hup,
        ((setRingLink_only ..).cells rfl).trans hcells, ringState_setRingLink _ r.isLt hbefore⟩
    · exact ⟨hup, hcells, (State.rdi_wri_apart _ _ _ _ (by decide)).trans (ringState_setLoop ..)⟩

end Sys2Proof.Machine
end

section
/-! PROOFS. The timers of a cell's join, join requests, AUX resend and lost cells (08_onhorn_link.md R271, R290 to R293, R302,
R307, R309, R315): O22. -/
namespace Sys2Proof.Machine
open Reg

/-! ### Counters and one cell's state -/

theorem cell_of_cells {s t : State} (h : t.cells = s.cells) (c : Nat) : t.cell c = s.cell c := by unfold State.cell; rw [h]

/-- A counter that saturates shows the sum, or its field's maximum. -/
theorem rdi_inci_self (s : State) {f : Fld} {i : Nat} (k : Nat) (hi : i < f.count) :
    (s.inci f i k).rdi f i = min (2 ^ f.w - 1) (s.rdi f i + k) := by
  unfold State.inci satAdd
  rw [s.rdi_wri_self _ hi]
  have hpos := Nat.two_pow_pos f.w
  exact Nat.mod_eq_of_lt (by omega)

theorem rdi_inci_apart (s : State) {f g : Fld} (i j k : Nat) (h : apart f g = true) : (s.inci f i k).rdi g j = s.rdi g j :=
  s.rdi_wri_apart i j _ h

/-- A cell's link state changes with its record: the new state and record, and the other cells as they were. -/
theorem wriLstate_updCell (s : State) (c : Fin 240) {new : Nat} (hnew : new < 8) (g : Cell → Cell) :
    ((s.wri LINK_CELL_STATUS_n.LSTATE c new).updCell c g).lstate c = new ∧
    ((s.wri LINK_CELL_STATUS_n.LSTATE c new).updCell c g).cell c = g (s.cell c) ∧
    ∀ d, d ≠ c.val → ((s.wri LINK_CELL_STATUS_n.LSTATE c new).updCell c g).cell d = s.cell d ∧
      ((s.wri LINK_CELL_STATUS_n.LSTATE c new).updCell c g).lstate d = s.lstate d := by
  refine ⟨(s.rdi_wri_self new (by exact c.isLt)).trans (Nat.mod_eq_of_lt hnew), ?_, fun d hd => ⟨?_, ?_⟩⟩
  · rw [State.cell_updCell_self, State.wri_cell]
  · rw [State.cell_updCell_ne _ _ (Ne.symm hd), State.wri_cell]
  · exact s.rdi_wri_entry new (Ne.symm hd)

/-! ### The timers of a join (R292, R293) -/

theorem awake_of_sleep {s : State} (h : s.bit PWR_STATUS.SLEEP = false) : (!s.asleep) = true := by
  unfold State.asleep
  rw [h]
  rfl

theorem exec_grantLapse {s : State} {c : Fin 240} (hon : s.pwr.mainOn = true) (hawake : s.bit PWR_STATUS.SLEEP = false)
    (hstate : s.lstate c = 2) (hticks : 16 ≤ (s.cell c).link.ticks) (hsilent : (s.cell c).link.tel.valid = false) :
    exec (.grantLapse c) s = .next ((s.wri LINK_CELL_STATUS_n.LSTATE c 1).askEnter c 3) :=
  (next_live hon _).trans (congrArg Host.Outcome.next (if_pos ⟨hstate, hticks, by rw [hsilent]; rfl, awake_of_sleep hawake⟩))

theorem exec_delaysAccepted {s : State} {c : Fin 240} (hon : s.pwr.mainOn = true) (hawake : s.bit PWR_STATUS.SLEEP = false)
    (hstate : s.lstate c = 2) (hdelays : 64 ≤ (s.cell c).link.delayA.length) :
    exec (.delaysAccepted c) s = .next ((s.wri LINK_CELL_STATUS_n.LSTATE c 3).updCell c
      (fun x => { x with link := { x.link with ticks := 0 } })) :=
  (next_live hon _).trans (congrArg Host.Outcome.next (if_pos ⟨hstate, hdelays, awake_of_sleep hawake⟩))

theorem exec_alignTimeout {s : State} {c : Fin 240} (hon : s.pwr.mainOn = true) (hawake : s.bit PWR_STATUS.SLEEP = false)
    (hstate : s.lstate c = 3) (hticks : 32 ≤ (s.cell c).link.ticks) :
    exec (.alignTimeout c) s = .next ((s.wri LINK_CELL_STATUS_n.LSTATE c 2).updCell c
      (fun x => { x with link := { x.link with ticks := 0, delayA := [], delayB := [] } })) :=
  (next_live hon _).trans (congrArg Host.Outcome.next (if_pos ⟨hstate, hticks, awake_of_sleep hawake⟩))

/-- The change asked for by a lapsed grant: BYPASSED with HOLD, else NONE (R309). -/
theorem stateAct_lapsed {s : State} {c : Fin 240} (hdue : (s.cell c).svc.due = 3) :
    s.stateAct c = (s.askEnter c 0).enter c (if s.biti JOIN_CELL_STATUS_n.HOLD c then 7 else 0) := by
  unfold State.stateAct
  rw [hdue]
  rfl

theorem exec_auxResendTimeout {s : State} {c : Fin 240} (hon : s.pwr.mainOn = true)
    (hwords : (s.cell c).link.aux.acked < (s.cell c).link.aux.cur.length) (hstall : 8 ≤ (s.cell c).link.aux.stall) :
    exec (.auxResendTimeout c) s = .next (s.updCell c (fun x => { x with link := { x.link with aux :=
      { x.link.aux with next := (s.cell c).link.aux.acked, stall := 0 } } })) := by
  have hcur : (s.cell c).link.aux.cur ≠ [] := List.ne_nil_of_length_pos (Nat.zero_lt_of_lt hwords)
  exact (next_live hon _).trans (congrArg Host.Outcome.next (if_pos ⟨hcur, hwords, hstall⟩))

/-! ### Ordered sets and join requests (R263, R291, R292) -/

theorem ringOn_moveTo (s : State) (e r : Nat) : (s.moveTo e).ringOn r = s.ringOn r := by
  obtain ⟨-, -, hon, -⟩ := ringStands_moveTo s e r
  exact hon

theorem onOrder_some {s : State} {r k v : Nat} {mk x : Code} (hring : s.ringOn r = true) (hset : orderSet k mk x = some v)
    (l : Nat) (g : Nat → State → State) : s.onOrder r l k mk x g = g v s := by
  unfold State.onOrder
  rw [hring, hset]
  rfl

theorem onOrder_none {s : State} {r k : Nat} {mk x : Code} (hring : s.ringOn r = true) (hset : orderSet k mk x = none)
    (l : Nat) (g : Nat → State → State) : s.onOrder r l k mk x g = s.inci LINK_LANE_ERR_l.CODE (laneOf r l) 1 := by
  unfold State.onOrder
  rw [hring, hset]
  rfl

theorem laneOf_lt (r : Fin 16) (l : Nat) : laneOf r l < 32 := by
  unfold laneOf
  split <;> omega

/-- A code error on a return lane is counted there and changes nothing else of the link (R263, R302). -/
theorem codeError_shows (s : State) (r : Fin 16) (l e : Nat) :
    ((s.moveTo e).inci LINK_LANE_ERR_l.CODE (laneOf r l) 1).rings = s.rings ∧
    ((s.moveTo e).inci LINK_LANE_ERR_l.CODE (laneOf r l) 1).cells = s.cells ∧
    ((s.moveTo e).inci LINK_LANE_ERR_l.CODE (laneOf r l) 1).rdi LINK_LANE_ERR_l.CODE (laneOf r l) =
      min 255 (s.rdi LINK_LANE_ERR_l.CODE (laneOf r l) + 1) := by
  refine ⟨by rw [State.inci_rings, s.moveTo_rings], by rw [State.inci_cells, s.moveTo_cells], ?_⟩
  rw [rdi_inci_self _ _ (laneOf_lt r l), rdi_of_regs (moveTo_regs s e)]
  rfl

/-- A device that is awake is not woken. -/
theorem tryWake_awake {s : State} (h : s.bit PWR_STATUS.SLEEP = false) (w : WakeSrc) : s.tryWake w = s := by
  unfold State.tryWake
  rw [h]
  rfl

theorem exec_jrReceived {s : State} {r : Fin 16} {l : Fin 2} {mk x : Code} {v : Nat} (e : Nat) (hon : s.pwr.mainOn = true)
    (hring : s.ringOn r = true) (hset : orderSet 4 mk x = some v) :
    exec (.jrReceived r ⟨l, mk, x⟩ e) s = .next (if 15 ≤ v then s.moveTo e else (s.moveTo e).actJr r v) :=
  (next_live hon _).trans (congrArg Host.Outcome.next
    (onOrder_some ((ringOn_moveTo s e r).trans hring) hset _ _))

theorem exec_jrReceived_none {s : State} {r : Fin 16} {l : Fin 2} {mk x : Code} (e : Nat) (hon : s.pwr.mainOn = true)
    (hring : s.ringOn r = true) (hset : orderSet 4 mk x = none) :
    exec (.jrReceived r ⟨l, mk, x⟩ e) s = .next ((s.moveTo e).inci LINK_LANE_ERR_l.CODE (laneOf r l) 1) :=
  (next_live hon _).trans (congrArg Host.Outcome.next
    (onOrder_none ((ringOn_moveTo s e r).trans hring) hset _ _))

theorem grantable_moveTo (s : State) (e c : Nat) : (s.moveTo e).grantable c = s.grantable c := by
  obtain ⟨e', o, k, hmove⟩ := moveTo_eq s e
  rw [hmove]
  rfl

theorem placeJr_placed (n : Int) (c : Nat) (l : List (Int × Nat)) : (placeJr n c l).any (fun j => j.2 == c) = true := by
  induction l with
  | nil => simp [placeJr]
  | cons y l ih =>
    unfold placeJr
    split
    · simp
    · rw [List.any_cons, ih, Bool.or_true]

/-- The link state with a join request waiting: PASS, from NONE or LOST (R292). -/
def State.waitGrant (s : State) (c : Nat) : State :=
  if s.lstate c = 0 ∨ s.lstate c = 6 then s.wri LINK_CELL_STATUS_n.LSTATE c 1 else s

theorem waitGrant_only (s : State) (c : Nat) : Only 0x2000 s (s.waitGrant c) :=
  Only.ite (Only.wri (Only.refl _ s) _ _ _ rfl) (Only.refl _ s)

theorem waitGrant_lstate {s : State} {c : Nat} (hc : c < 240) (h : s.lstate c = 0 ∨ s.lstate c = 6) :
    (s.waitGrant c).lstate c = 1 := by
  unfold State.waitGrant
  rw [if_pos h]
  exact s.rdi_wri_self 1 hc

/-- A request is placed in its ring's queue, unless one of the cell waits there (R292). -/
def State.queueJr (s : State) (r c : Nat) : State :=
  if (s.ring r).jrs.any (fun j => j.2 == c) then s
  else s.setRing r { s.ring r with jrs := placeJr s.tm.n c (s.ring r).jrs }

theorem queueJr_only (s : State) (r c : Nat) : Only 0x1000000000000 s (s.queueJr r c) :=
  Only.ite (Only.refl _ s) (s.setRing_only ..)

theorem queueJr_queued {s : State} {r : Nat} (hr : r < s.rings.length) (c : Nat) :
    ((s.queueJr r c).ring r).jrs.any (fun j => j.2 == c) = true := by
  unfold State.queueJr
  split
  · next hwaits => exact hwaits
  · rw [ring_setRing_self hr]
    exact placeJr_placed ..

/-- A grantable request waits in its ring's queue (R292). -/
theorem actJr_grantable {s : State} {r q : Nat} (hgrant : s.grantable (r * 15 + q) = true)
    (hawake : s.bit PWR_STATUS.SLEEP = false) : s.actJr r q = (s.waitGrant (r * 15 + q)).queueJr r (r * 15 + q) := by
  unfold State.actJr
  dsimp only
  rw [tryWake_awake hawake, hgrant]
  rfl

theorem waitGrant_queueJr_shows {s : State} {r c : Nat} (hlen : s.rings.length = 16) (hr : r < 16) (hc : c < 240) :
    (((s.waitGrant c).queueJr r c).ring r).jrs.any (fun j => j.2 == c) = true ∧
    (s.lstate c = 0 ∨ s.lstate c = 6 → ((s.waitGrant c).queueJr r c).lstate c = 1) ∧
    ((s.waitGrant c).queueJr r c).cells = s.cells := by
  have hwait := waitGrant_only s c
  have hqueue := queueJr_only (s.waitGrant c) r c
  exact ⟨queueJr_queued (by rw [hwait.rings rfl, hlen]; exact hr) c,
    fun h => (hqueue.rdi _ c (by decide)).trans (waitGrant_lstate hc h), (hqueue.cells rfl).trans (hwait.cells rfl)⟩

/-- A request that is not grantable is ignored and counted (R292). -/
theorem actJr_refused {s : State} {r q : Nat} (hgrant : s.grantable (r * 15 + q) = false)
    (hawake : s.bit PWR_STATUS.SLEEP = false) : s.actJr r q = s.inci LINK_CELL_STATUS_n.JR_REFUSED (r * 15 + q) 1 := by
  unfold State.actJr
  dsimp only
  rw [tryWake_awake hawake, hgrant]
  rfl

/-! ### A cell is lost (R290, R315, R333) -/

/-- The loss of a cell for the link: LOST, a gap in its port's metering, and no AUX message left. -/
def State.loseLink (s : State) (c : Nat) : State :=
  (((s.cellLoss c).wri LINK_CELL_STATUS_n.LSTATE c 6).openGap c).updCell c
    (fun x => { x with link := { x.link with aux := { x.link.aux with cur := [], queue := [], rx := [] } } })

/-- The loss of a cell for its service: LOST with one record, SPILL asked for anew (R312, R318). -/
def State.loseService (s : State) (c : Nat) : State :=
  let s := s.updCell c (fun x => { x with svc := { x.svc with trip := none, todo := 0 } })
  ((s.enter c 9).spillOn c).cellEvent c 1 (s.rd LINK_CFG.LOST_TICKS) 0

/-- Every service action of a lost cell ends (R333). -/
def State.endServices (s : State) (c : Nat) : State :=
  ((s.endService c 1 6 0).endService c 2 6 0).endService c 3 6 0

theorem declareLost_eq {s : State} {c : Nat} (h : s.sstate c ≠ 9) :
    s.declareLost c = ((s.loseLink c).loseService c).endServices c := if_neg h

theorem loseLink_shows (s : State) (c : Fin 240) :
    (s.loseLink c).lstate c = 6 ∧ ((s.loseLink c).cell c).link.aux.cur = [] ∧ s.hst.seqNo ≤ (s.loseLink c).hst.seqNo := by
  have hgap : Only 0x2000800000000 ((s.cellLoss c).wri LINK_CELL_STATUS_n.LSTATE c 6)
    (((s.cellLoss c).wri LINK_CELL_STATUS_n.LSTATE c 6).openGap c) := Only.openGap (Only.refl _ _) c rfl
  refine ⟨(hgap.rdi LINK_CELL_STATUS_n.LSTATE c (by decide)).trans (State.rdi_wri_self _ 6 (by exact c.isLt)), ?_, ?_⟩
  · unfold State.loseLink
    rw [State.cell_updCell_self]
  · have hhst : (s.loseLink c).hst = (s.cellLoss c).hst := (hgap.hst rfl).trans (State.wri_hst ..)
    rw [hhst]
    exact s.cellLoss_seqNo c

theorem rdi_cellEvent (s : State) (c reason detail serial i : Nat) {f : Fld} (hfr : fr 0x1100100000000200 f = true)
    (h : apart JOIN_CELL_STATUS_n.EVENTS f = true) : (s.cellEvent c reason detail serial).rdi f i = s.rdi f i :=
  ((State.post_only ..).rdi f i hfr).trans (rdi_inci_apart s c i 1 h)

theorem rdi_spillOn (s : State) (c i : Nat) {f : Fld} (h : apart JOIN_CELL_STATUS_n.SPILL_CONF f = true) :
    (s.spillOn c).rdi f i = s.rdi f i :=
  (s.updCell c _).rdi_wri_apart c i 0 h |>.trans (rdi_of_regs rfl f i)

theorem cellEvent_seqNo (s : State) (c reason detail serial : Nat) : s.hst.seqNo < (s.cellEvent c reason detail serial).hst.seqNo := by
  have hpost := (s.inci JOIN_CELL_STATUS_n.EVENTS c 1).post_seqNo 0x20
  rw [State.inci_hst] at hpost
  exact hpost _

/-- What the loss of a cell leaves for its service (R309, R312, R318): LOST, HOLD, weight 0, no confirmation, one record. -/
theorem loseService_shows (s : State) (c : Fin 240) :
    (s.loseService c).sstate c = 9 ∧ (s.loseService c).biti JOIN_CELL_STATUS_n.HOLD c = true ∧
    (s.loseService c).rdi JOIN_CELL_STATUS_n.SPILL_CONF c = 0 ∧ ((s.loseService c).cell c).svc.weight = 0 ∧
    ((s.loseService c).cell c).link = (s.cell c).link ∧ (s.loseService c).lstate c = s.lstate c ∧
    s.hst.seqNo < (s.loseService c).hst.seqNo := by
  unfold State.loseService
  extract_lets u
  obtain ⟨hstate, -, hlink, honly, habsent⟩ := u.enter_spec c 9 (by decide)
  obtain ⟨hhold, hweight⟩ := habsent (.inr (.inr rfl))
  have hspill : Only 0x2000000008000 (u.enter c 9) ((u.enter c 9).spillOn c) := Only.spillOn (Only.refl _ _) c rfl
  have hcell : ∀ reason detail serial, (((u.enter c 9).spillOn c).cellEvent c reason detail serial).cell c =
      ((u.enter c 9).spillOn c).cell c := fun _ _ _ => cell_of_cells ((State.cellEvent_only ..).cells rfl) c
  have hsvc : (((u.enter c 9).spillOn c).cell c).svc.weight = ((u.enter c 9).cell c).svc.weight ∧
      (((u.enter c 9).spillOn c).cell c).link = ((u.enter c 9).cell c).link := by
    unfold State.spillOn
    rw [State.wri_cell, State.cell_updCell_self]
    exact ⟨rfl, rfl⟩
  have hu : (u.cell c).link = (s.cell c).link := by rw [State.cell_updCell_self]
  refine ⟨?_, ?_, ?_, ?_, ?_, ?_, ?_⟩
  · unfold State.sstate at hstate ⊢
    rw [rdi_cellEvent _ _ _ _ _ _ (by decide) (by decide), rdi_spillOn _ _ _ (by decide)]
    exact hstate
  · unfold State.biti at hhold ⊢
    rw [rdi_cellEvent _ _ _ _ _ _ (by decide) (by decide), rdi_spillOn _ _ _ (by decide)]
    exact hhold
  · rw [rdi_cellEvent _ _ _ _ _ _ (by decide) (by decide), State.spillOn]
    exact State.rdi_wri_self _ 0 (by exact c.isLt)
  · rw [hcell, hsvc.1, hweight]
  · rw [hcell, hsvc.2, hlink, hu]
  · exact (rdi_cellEvent _ _ _ _ _ _ (by decide) (by decide)).trans ((hspill.rdi _ c (by decide)).trans (honly.rdi _ c (by decide)))
  · have hhst : ((u.enter c 9).spillOn c).hst = s.hst := (hspill.hst rfl).trans (honly.hst rfl)
    rw [← hhst]
    exact cellEvent_seqNo ..

theorem endServices_keeps (s : State) (c : Nat) :
    (s.endServices c).regs = s.regs ∧ (s.endServices c).hst.seqNo = s.hst.seqNo ∧
    ((s.endServices c).cell c).svc.weight = (s.cell c).svc.weight ∧ ((s.endServices c).cell c).link = (s.cell c).link := by
  unfold State.endServices
  obtain ⟨hr1, hn1, hw1, hl1, -⟩ := s.endService_spec c 1 6 0
  obtain ⟨hr2, hn2, hw2, hl2, -⟩ := (s.endService c 1 6 0).endService_spec c 2 6 0
  obtain ⟨hr3, hn3, hw3, hl3, -⟩ := ((s.endService c 1 6 0).endService c 2 6 0).endService_spec c 3 6 0
  exact ⟨hr3.trans (hr2.trans hr1), hn3.trans (hn2.trans hn1), hw3.trans (hw2.trans hw1), hl3.trans (hl2.trans hl1)⟩

/-- A cell that was not lost is lost for the link and for its service (R290, R315, R333). -/
theorem declareLost_shows {s : State} {c : Fin 240} (h : s.sstate c ≠ 9) :
    (s.declareLost c).lstate c = 6 ∧ (s.declareLost c).sstate c = 9 ∧ (s.declareLost c).biti JOIN_CELL_STATUS_n.HOLD c = true ∧
    s.hst.seqNo < (s.declareLost c).hst.seqNo ∧ ((s.declareLost c).cell c).svc.weight = 0 ∧
    ((s.declareLost c).cell c).link.aux.cur = [] ∧ (s.declareLost c).rdi JOIN_CELL_STATUS_n.SPILL_CONF c = 0 := by
  obtain ⟨hlost, hcur, hseq⟩ := loseLink_shows s c
  obtain ⟨hstate, hhold, hconf, hweight, hlink, hlstate, hrecord⟩ := loseService_shows (s.loseLink c) c
  obtain ⟨hregs, hseqEnd, hweightEnd, hlinkEnd⟩ := endServices_keeps ((s.loseLink c).loseService c) c
  rw [declareLost_eq h, hweightEnd, hlinkEnd, hlink, hseqEnd]
  unfold State.lstate State.sstate State.biti at *
  rw [rdi_of_regs hregs, rdi_of_regs hregs, rdi_of_regs hregs, rdi_of_regs hregs]
  exact ⟨hlstate.trans hlost, hstate, hhold, Nat.lt_of_le_of_lt hseq hrecord, hweight, hcur, hconf⟩

theorem lossHeadroom_only (s : State) : Only 0x20000000010000 s s.lossHeadroom := Only.lossHeadroom (Only.refl _ s) rfl

theorem exec_cellLost {s : State} {c : Fin 240} (hon : s.pwr.mainOn = true) (hen : s.enabled c = true) (hlo : 2 ≤ s.lstate c)
    (hhi : s.lstate c ≤ 5) (hseen : s.lstate c = 2 → (s.cell c).link.tel.valid = true)
    (hmissing : s.rd LINK_CFG.LOST_TICKS ≤ (s.cell c).link.missing) :
    exec (.cellLost c) s = .next (s.declareLost c).lossHeadroom :=
  (next_live hon _).trans (congrArg Host.Outcome.next
    (if_pos ⟨hen, hlo, hhi, (Classical.em (s.lstate c = 2)).elim (fun h => .inr (hseen h)) .inl, hmissing⟩))

/-- Settles O22: the timers by `wriLstate_updCell`, the requests by `waitGrant_queueJr_shows` and
`actJr_refused`, the lost cell by `declareLost_shows`. -/
theorem linkStateCommands : Obligations.LinkStateCommands := by
  unfold Obligations.LinkStateCommands
  refine ⟨fun s c hon hawake hstate hticks hsilent => ⟨_, exec_grantLapse hon hawake hstate hticks hsilent, ?_⟩,
    fun s c hdue => ?_,
    fun s c hon hawake hstate hdelays => ⟨_, exec_delaysAccepted hon hawake hstate hdelays, wriLstate_updCell s c (by decide) _⟩,
    fun s c hon hawake hstate hticks => ⟨_, exec_alignTimeout hon hawake hstate hticks, wriLstate_updCell s c (by decide) _⟩,
    fun s c hon hwords hstall => ⟨_, exec_auxResendTimeout hon hwords hstall, rfl, s.cell_updCell_self c _,
      fun d hd => s.cell_updCell_ne _ (Ne.symm hd)⟩,
    fun s l hon => ⟨_, next_live hon _, rdi_inci_self s 1 (by exact l.isLt), fun k hk => s.rdi_wri_entry _ (Ne.symm hk),
      rdi_inci_apart s _ _ 1 (by decide), s.inci_cells ..⟩,
    fun s r q l mk x e hon hring hlen hset hgrant hawake => ⟨_, exec_jrReceived e hon hring hset, ?_⟩,
    fun s r q l mk x e hon hring hset hgrant hawake => ⟨_, exec_jrReceived e hon hring hset, ?_⟩,
    fun s r l mk x e hon hring => ⟨fun v hset hv => (exec_jrReceived e hon hring hset).trans
      (congrArg Host.Outcome.next (if_pos hv)), fun hset => ⟨_, exec_jrReceived_none e hon hring hset, codeError_shows s r l e⟩⟩,
    fun s c hon hen hlo hhi hseen hmissing hne => ⟨_, exec_cellLost hon hen hlo hhi hseen hmissing, ?_⟩⟩
  · obtain ⟨hnew, hcell, hothers⟩ := wriLstate_updCell s c (by decide : 1 < 8) (fun x => { x with svc := { x.svc with due := 3 } })
    exact ⟨hnew, s.rdi_wri_apart _ _ _ (by decide), hcell,
      fun d hd => ⟨(hothers d hd).1, (hothers d hd).2, s.rdi_wri_apart _ _ _ (by decide)⟩⟩
  · rw [stateAct_lapsed hdue]
    exact ((s.askEnter c 0).enter_spec c _ (by split <;> decide)).1
  · rw [if_neg (by omega)]
    rw [actJr_grantable (by rw [grantable_moveTo, hgrant]) (by rw [bit_of_regs (moveTo_regs s e), hawake])]
    obtain ⟨hqueued, hwaits, hcells⟩ := waitGrant_queueJr_shows (s := s.moveTo e) (c := r.val * 15 + q.val)
      (by rw [s.moveTo_rings, hlen]) r.isLt (by omega)
    have hlstate : (s.moveTo e).lstate (r.val * 15 + q.val) = s.lstate (r.val * 15 + q.val) := rdi_of_regs (moveTo_regs s e) _ _
    rw [hlstate] at hwaits
    exact ⟨hqueued, hwaits, by rw [hcells, s.moveTo_cells]⟩
  · rw [if_neg (by omega), actJr_refused (by rw [grantable_moveTo, hgrant]) (by rw [bit_of_regs (moveTo_regs s e), hawake])]
    refine ⟨by rw [State.inci_rings, s.moveTo_rings], by rw [State.inci_cells, s.moveTo_cells], ?_⟩
    rw [rdi_inci_self _ 1 (by show r.val * 15 + q.val < 240; omega), rdi_of_regs (moveTo_regs s e)]
    rfl
  · obtain ⟨hlost, hstate, hhold, hseq, hweight, hcur, hconf⟩ := declareLost_shows hne
    have honly := lossHeadroom_only (s.declareLost c)
    unfold State.lstate State.sstate State.biti at *
    rw [cell_of_cells (honly.cells rfl) c, honly.hst rfl, honly.rdi _ c (by decide), honly.rdi _ c (by decide), honly.rdi _ c (by decide),
      honly.rdi _ c (by decide)]
    exact ⟨hlost, hstate, hhold, hseq, hweight, hcur, hconf⟩

end Sys2Proof.Machine
end

section
/-! PROOFS. Frames that return, late, bad or good, and trips of the rings (08_onhorn_link.md R262, R263, R279, R282, R285, R302,
R306, R313; 11_sluice_protection.md R397): O24. -/
namespace Sys2Proof.Machine
open Reg

/-! ### A copy that comes back is counted (R262, R302) -/

theorem fullRate_moveTo (s : State) (e r : Nat) : (s.moveTo e).fullRate r = s.fullRate r := by
  obtain ⟨hstate, hring, hon, -⟩ := ringStands_moveTo s e r
  unfold State.fullRate
  rw [hstate, hring, hon]

theorem fullRate_state {s : State} {r : Nat} (h : s.fullRate r = true) : s.ringState r = 4 ∨ s.ringState r = 5 := by
  unfold State.fullRate at h
  simp only [Bool.and_eq_true, Bool.or_eq_true, beq_iff_eq] at h
  exact h.2.imp_right And.left

/-- A good copy is in time from the launch to the S4 deadline of its own tick (R279). -/
theorem inTime_moveTo (s : State) (e : Nat) {f : FrameIn} (hgood : f.good = true) : (s.moveTo e).inTime f = true ↔
    s.tm.run = true ∧ s.tm.phase = 4 ∧ (s.moveTo e).tm.e ≤ s.deadline 4 ∧ f.execTick = s.tm.sent := by
  have hsent : (s.moveTo e).tm.sent = s.tm.sent := by rw [(moveTo_sim s e).1]
  unfold State.inTime
  rw [mt_run, mt_phase, mt_deadline, hsent, hgood]
  simp [and_assoc]

/-- A copy on a ring at full rate is late (R279, R302). -/
def State.frameLate (s : State) (r : Nat) (f : FrameIn) : Bool := s.fullRate r && !s.inTime f

/-- The count of code errors leaves what is late. -/
theorem frameLate_inciCode (s : State) (lane k r : Nat) (f : FrameIn) :
    (s.inci LINK_LANE_ERR_l.CODE lane k).frameLate r f = s.frameLate r f := by
  have hstate : (s.inci LINK_LANE_ERR_l.CODE lane k).ringState r = s.ringState r := rdi_inci_apart s _ _ _ (by decide)
  have hon : (s.inci LINK_LANE_ERR_l.CODE lane k).ringOn r = s.ringOn r :=
    ringOn_congr (rdi_inci_apart s _ _ _ (by decide)) (rdi_inci_apart s _ _ _ (by decide)) r
  have hring : (s.inci LINK_LANE_ERR_l.CODE lane k).ring r = s.ring r := State.wri_ring ..
  have hdeadline : (s.inci LINK_LANE_ERR_l.CODE lane k).deadline 4 = s.deadline 4 := by
    unfold State.deadline
    rw [rdi_inci_apart s _ _ _ (by decide), State.inci_tm]
  unfold State.frameLate State.fullRate State.inTime
  rw [hstate, hon, hring, hdeadline, State.inci_tm]

/-- A copy on the return of loop `l` has its code errors counted, and itself where it is late. -/
def State.countCopy (s : State) (r l : Nat) (f : FrameIn) : State :=
  let s := s.inci LINK_LANE_ERR_l.CODE (laneOf r l) f.codeErrs
  if s.frameLate r f then s.inci LINK_LANE_ERR_l.LATE (laneOf r l) 1 else s

theorem countCopy_only (s : State) (r l : Nat) (f : FrameIn) : Only 0x1000 s (s.countCopy r l f) := by
  have hcode : Only 0x1000 s (s.inci LINK_LANE_ERR_l.CODE (laneOf r l) f.codeErrs) := Only.inci (Only.refl _ s) _ _ _ rfl rfl
  exact Only.ite (Only.inci hcode _ _ _ rfl rfl) hcode

theorem countCopy_code (s : State) (r : Fin 16) (l : Nat) (f : FrameIn) :
    (s.countCopy r l f).rdi LINK_LANE_ERR_l.CODE (laneOf r l) =
      min 255 (s.rdi LINK_LANE_ERR_l.CODE (laneOf r l) + f.codeErrs) := by
  have hcode := rdi_inci_self s (f := LINK_LANE_ERR_l.CODE) f.codeErrs (laneOf_lt r l)
  unfold State.countCopy
  dsimp only
  split
  · exact (rdi_inci_apart _ _ _ _ (by decide)).trans hcode
  · exact hcode

theorem countCopy_late {s : State} {r : Fin 16} {l : Nat} {f : FrameIn} (hlate : s.frameLate r f = true) :
    (s.countCopy r l f).rdi LINK_LANE_ERR_l.LATE (laneOf r l) = min 255 (s.rdi LINK_LANE_ERR_l.LATE (laneOf r l) + 1) := by
  unfold State.countCopy
  dsimp only
  rw [frameLate_inciCode, hlate, if_pos rfl, rdi_inci_self _ 1 (laneOf_lt r l), rdi_inci_apart _ _ _ _ (by decide)]
  rfl

theorem countCopy_crc (s : State) (r l : Nat) (f : FrameIn) (i : Nat) :
    (s.countCopy r l f).rdi LINK_LANE_ERR_l.CRC i = s.rdi LINK_LANE_ERR_l.CRC i := by
  unfold State.countCopy
  dsimp only
  split
  · rw [rdi_inci_apart _ _ _ _ (by decide), rdi_inci_apart _ _ _ _ (by decide)]
  · rw [rdi_inci_apart _ _ _ _ (by decide)]

/-- What follows the count: a copy that is not good ends the loop's good returns, a late one is discarded, another is taken. -/
def State.useCopy (s : State) (r l : Nat) (f : FrameIn) (late : Bool) : State :=
  if !f.good then (s.inci LINK_LANE_ERR_l.CRC (laneOf r l) 1).setRing r { s.ring r with good := (s.ring r).good.set l 0 }
  else if late then s else s.takeCopy r l f

theorem useCopy_bad {s : State} {r l : Nat} {f : FrameIn} {late : Bool} (hbad : f.good = false) : s.useCopy r l f late =
    (s.inci LINK_LANE_ERR_l.CRC (laneOf r l) 1).setRing r { s.ring r with good := (s.ring r).good.set l 0 } := by
  unfold State.useCopy
  rw [hbad]
  rfl

theorem useCopy_late {s : State} {r l : Nat} {f : FrameIn} (hgood : f.good = true) : s.useCopy r l f true = s := by
  unfold State.useCopy
  rw [hgood]
  rfl

theorem useCopy_taken {s : State} {r l : Nat} {f : FrameIn} (hgood : f.good = true) :
    s.useCopy r l f false = s.takeCopy r l f := by
  unfold State.useCopy
  rw [hgood]
  rfl

theorem exec_frameReturn {s : State} {r : Fin 16} (l : Fin 2) (f : FrameIn) (e : Nat) (hon : s.pwr.mainOn = true)
    (hring : s.ringOn r = true) (hstate : s.ringState r = 2 ∨ s.ringState r = 4 ∨ s.ringState r = 5) :
    exec (.frameReturn r l f e) s =
      .next (((s.moveTo e).countCopy r l f).useCopy r l f ((s.moveTo e).frameLate r f)) := by
  have hstate' : (s.moveTo e).ringState r = s.ringState r := rdi_of_regs (moveTo_regs s e) _ _
  have hringOn : ((s.moveTo e).inci LINK_LANE_ERR_l.CODE (laneOf r l) f.codeErrs).ringOn r = true :=
    (ringOn_congr (rdi_inci_apart _ _ _ _ (by decide)) (rdi_inci_apart _ _ _ _ (by decide)) r).trans
      ((ringOn_moveTo s e r).trans hring)
  show execFrameReturn r l f e s = _
  unfold execFrameReturn
  rw [s.live_on hon, ← frameLate_inciCode (s.moveTo e) (laneOf r l) f.codeErrs]
  dsimp only
  rw [if_neg (by rw [hringOn, hstate']; simp; omega)]
  rfl

/-! ### A copy is noted (R279, R282) -/

/-- A ring's record after the loop's own unwrapped frame came back (R275, R282). -/
def RingSt.gotOwn (x : RingSt) (l : Nat) (f : FrameIn) : RingSt :=
  { x with gotAny := x.gotAny.set l true, gotClean := x.gotClean.set l true
           hop := x.hop.set l f.hop, trip := x.trip.set l f.roundTrip }

/-- A ring's record after a folded copy came back (R281, R282). -/
def RingSt.gotFolded (x : RingSt) (f : FrameIn) : RingSt := { x with gotAny := x.gotAny.set f.loop true }

theorem takeCopy_own (s : State) (r : Nat) {l : Nat} {f : FrameIn} (hplain : f.wrapped = false) (hloop : f.loop = l) :
    ∃ v, s.takeCopy r l f = v.takeSlots r l l f ∧ Only 0x1000 (s.setRing r ((s.ring r).gotOwn l f)) v := by
  subst hloop
  have hclean : (!f.wrapped && f.loop == f.loop) = true := by rw [hplain, beq_self_eq_true]; rfl
  unfold State.takeCopy
  rw [hclean]
  refine ⟨_, rfl, ?_⟩
  dsimp only
  rw [if_neg (by decide)]
  exact Only.ite (Only.wri (Only.wri (Only.refl _ _) _ _ _ rfl) _ _ _ rfl) (Only.wri (Only.refl _ _) _ _ _ rfl)

theorem takeCopy_folded (s : State) (r : Nat) {l : Nat} {f : FrameIn} (h : ¬(f.wrapped = false ∧ f.loop = l)) :
    s.takeCopy r l f = ((s.setRing r ((s.ring r).gotFolded f)).wri LINK_RING_STATUS_r.WRAP_POS r
      (if f.wrapped then f.wrapPos else s.rdi LINK_RING_STATUS_r.WRAP_POS r)).takeSlots r f.loop 2 f := by
  have hfolded : (!f.wrapped && f.loop == l) = false := by
    rw [Bool.eq_false_iff]
    simpa using h
  unfold State.takeCopy
  rw [hfolded]
  rfl

/-- A copy that is taken is noted for its ring, clean when it is the loop's own unwrapped frame, and then its slots are taken. -/
theorem takeCopy_noted {s : State} {r l : Nat} (hr : r < 16) (hlen : s.rings.length = 16) (f : FrameIn) : ∃ v : State,
    s.takeCopy r l f = v.takeSlots r f.loop (if f.wrapped = false ∧ f.loop = l then l else 2) f ∧
    Only 0x1000000001000 s v ∧
    (f.wrapped = false → f.loop = l → v.ring r = (s.ring r).gotOwn l f) ∧
    (f.wrapped = true ∨ f.loop ≠ l → v.ring r = (s.ring r).gotFolded f) ∧
    (f.wrapped = true → v.rdi LINK_RING_STATUS_r.WRAP_POS r = f.wrapPos % 16) := by
  have hset := fun x => ring_setRing_self (s := s) (hr.trans_eq hlen.symm) x
  by_cases hown : f.wrapped = false ∧ f.loop = l
  · obtain ⟨hplain, hloop⟩ := hown
    obtain ⟨v, htake, honly⟩ := takeCopy_own s r hplain hloop
    refine ⟨v, ?_, ((s.setRing_only r _).mono (by decide)).trans (honly.mono (by decide)),
      fun _ _ => (ring_of_rings (honly.rings rfl) r).trans (hset _), fun h => ?_, fun h => ?_⟩
    · rw [htake, if_pos ⟨hplain, hloop⟩, hloop]
    · rw [hplain] at h
      exact absurd hloop (h.resolve_left (by decide))
    · rw [hplain] at h
      cases h
  · refine ⟨_, (takeCopy_folded s r hown).trans (by rw [if_neg hown]),
      Only.wri (Only.setRing (Only.refl _ s) _ _ rfl) LINK_RING_STATUS_r.WRAP_POS r _ rfl, fun hplain hloop => absurd ⟨hplain, hloop⟩ hown,
      fun _ => (State.wri_ring ..).trans (hset _), fun hwrapped => ?_⟩
    rw [State.rdi_wri_self _ _ hr, if_pos hwrapped]
    rfl

/-! ### The slots of a copy (R279) -/

theorem KeepT.trans {c : Nat} {s t u : State} (h : KeepT c s t) (g : KeepT c t u) : KeepT c s u := by
  obtain ⟨htel, hrank, hmissing⟩ := h
  obtain ⟨gtel, grank, gmissing⟩ := g
  exact ⟨gtel.trans htel, grank.trans hrank, gmissing.trans hmissing⟩

/-- The slot of one position of a copy. -/
def State.takeSlotAt (r loop rank : Nat) (f : FrameIn) (s : State) (q : Nat) : State :=
  if (f.slot q).1.valid ∧ s.enabled (r * 15 + q) ∧ 2 ≤ s.lstate (r * 15 + q) ∧ s.lstate (r * 15 + q) ≤ 5 then
    s.takeSlot (r * 15 + q) loop rank f.compact (f.slot q).2 (f.slot q).1
  else s

theorem takeSlots_eq (s : State) (r loop rank : Nat) (f : FrameIn) :
    s.takeSlots r loop rank f = (List.range 15).foldl (State.takeSlotAt r loop rank f) s := rfl

theorem takeSlotAt_other (s : State) (r loop rank : Nat) (f : FrameIn) {p q : Nat} (h : p ≠ q) :
    KeepT (r * 15 + q) s (s.takeSlotAt r loop rank f p) := by
  unfold State.takeSlotAt
  split
  · exact (takeSlot_tel s (r * 15 + q) (r * 15 + p) ..).1 (.inl (by omega))
  · exact .refl _ s

theorem foldl_takeSlotAt_other (s : State) (r loop rank : Nat) (f : FrameIn) {q : Nat} {l : List Nat} (h : q ∉ l) :
    KeepT (r * 15 + q) s (l.foldl (State.takeSlotAt r loop rank f) s) := by
  induction l generalizing s with
  | nil => exact .refl _ s
  | cons p l ih =>
    rw [List.mem_cons, not_or] at h
    exact (takeSlotAt_other s r loop rank f (Ne.symm h.1)).trans (ih _ h.2)

/-- Slots that are not valid change nothing. -/
theorem foldl_takeSlotAt_invalid (s : State) (r loop rank : Nat) {f : FrameIn} {l : List Nat}
    (h : ∀ q ∈ l, (f.slot q).1.valid = false) : l.foldl (State.takeSlotAt r loop rank f) s = s := by
  induction l with
  | nil => rfl
  | cons p l ih =>
    have hskip : s.takeSlotAt r loop rank f p = s := if_neg (by rw [h p List.mem_cons_self]; simp)
    rw [List.foldl_cons, hskip]
    exact ih fun q hq => h q (List.mem_cons_of_mem _ hq)

theorem range15_at : ∀ q : Fin 15, List.range 15 = List.range q ++ q.val :: (List.range 15).drop (q + 1) ∧
    q.val ∉ (List.range 15).drop (q + 1) := by decide

/-- The first valid slot of a copy gives its cell the telemetry, where the copy ranks below the one taken so far (R279). -/
theorem takeSlots_tel {s : State} {r loop rank : Nat} {f : FrameIn} {q : Fin 15} (hfull : f.compact = false)
    (hvalid : (f.slot q).1.valid = true) (hfirst : ∀ x, x < q.val → (f.slot x).1.valid = false)
    (hen : s.enabled (r * 15 + q.val) = true) (hlo : 2 ≤ s.lstate (r * 15 + q.val)) (hhi : s.lstate (r * 15 + q.val) ≤ 5)
    (hrank : rank < (s.cell (r * 15 + q.val)).link.rank) :
    ((s.takeSlots r loop rank f).cell (r * 15 + q.val)).link.tel = (f.slot q).1 ∧
    ((s.takeSlots r loop rank f).cell (r * 15 + q.val)).link.rank = rank ∧
    ((s.takeSlots r loop rank f).cell (r * 15 + q.val)).link.missing = 0 := by
  obtain ⟨hsplit, hafter⟩ := range15_at q
  have hat : s.takeSlotAt r loop rank f q =
      s.takeSlot (r * 15 + q.val) loop rank f.compact (f.slot q).2 (f.slot q).1 := if_pos ⟨hvalid, hen, hlo, hhi⟩
  obtain ⟨htel, hnew, hmissing⟩ := (takeSlot_tel s (r * 15 + q.val) (r * 15 + q.val) loop rank f.compact (f.slot q).2
    (f.slot q).1).2 rfl hrank hfull
  obtain ⟨ktel, krank, kmissing⟩ := foldl_takeSlotAt_other (s.takeSlotAt r loop rank f q) r loop rank f hafter
  rw [takeSlots_eq, hsplit, List.foldl_append,
    foldl_takeSlotAt_invalid s r loop rank fun x hx => hfirst x (List.mem_range.mp hx), List.foldl_cons]
  rw [hat] at ktel krank kmissing ⊢
  exact ⟨ktel.trans htel, krank.trans hnew, kmissing.trans hmissing⟩

/-! ### FRAME_RETURN (R279, R282, R302) -/

theorem takeSlots_only (s : State) (r loop rank : Nat) (f : FrameIn) : Only 0x198218080002a320 s (s.takeSlots r loop rank f) :=
  Only.takeSlots (Only.refl _ s) r loop rank f rfl

/-- Up to the slots of a copy, only the time, the link's block of registers and the rings' records change. -/
theorem countCopy_moveTo_only (s : State) (r l e : Nat) (f : FrameIn) :
    Only 0x60000001000 s ((s.moveTo e).countCopy r l f) :=
  ((s.moveTo_only e).mono (by decide)).trans ((countCopy_only (s.moveTo e) r l f).mono (by decide))

/-- A late copy is counted in LATE and discarded (R302). -/
theorem frameReturn_late {s t : State} {r : Fin 16} {l e : Nat} {f : FrameIn} (hgood : f.good = true)
    (hlate : (s.moveTo e).frameLate r f = true)
    (ht : t = ((s.moveTo e).countCopy r l f).useCopy r l f ((s.moveTo e).frameLate r f)) :
    t.rings = s.rings ∧ t.cells = s.cells ∧
    t.rdi LINK_LANE_ERR_l.LATE (laneOf r l) = min 255 (s.rdi LINK_LANE_ERR_l.LATE (laneOf r l) + 1) ∧
    t.rdi LINK_LANE_ERR_l.CODE (laneOf r l) = min 255 (s.rdi LINK_LANE_ERR_l.CODE (laneOf r l) + f.codeErrs) := by
  have hcount : t = (s.moveTo e).countCopy r l f := by rw [ht, hlate, useCopy_late hgood]
  have honly := countCopy_moveTo_only s r l e f
  rw [hcount, countCopy_late hlate, countCopy_code, rdi_of_regs (moveTo_regs s e), rdi_of_regs (moveTo_regs s e)]
  exact ⟨honly.rings rfl, honly.cells rfl, rfl, rfl⟩

/-- A copy that is not good is counted in CRC, and ends the loop's run of good returns (R263, R282). -/
theorem frameReturn_bad {s t : State} {r : Fin 16} {l e : Nat} {f : FrameIn} {late : Bool} (hbad : f.good = false)
    (hlen : s.rings.length = 16) (ht : t = ((s.moveTo e).countCopy r l f).useCopy r l f late) :
    t.ring r = { s.ring r with good := (s.ring r).good.set l 0 } ∧ t.cells = s.cells ∧
    t.rdi LINK_LANE_ERR_l.CRC (laneOf r l) = min 255 (s.rdi LINK_LANE_ERR_l.CRC (laneOf r l) + 1) := by
  have honly := countCopy_moveTo_only s r l e f
  rw [ht, useCopy_bad hbad]
  refine ⟨?_, ?_, ?_⟩
  · rw [ring_setRing_self (by rw [State.inci_rings, honly.rings rfl, hlen]; exact r.isLt), ring_of_rings (honly.rings rfl)]
  · exact (State.inci_cells ..).trans (honly.cells rfl)
  · refine (rdi_inci_self _ 1 (laneOf_lt r l)).trans ?_
    rw [countCopy_crc, rdi_of_regs (moveTo_regs s e)]
    rfl

/-- A good copy in time is noted for its ring, and its first valid slot gives a cell its telemetry where it ranks below the
copy taken so far (R279, R282). -/
theorem frameReturn_taken {s t : State} {r : Fin 16} {l e : Nat} {f : FrameIn} (hlen : s.rings.length = 16)
    (ht : t = ((s.moveTo e).countCopy r l f).takeCopy r l f) :
    (f.wrapped = false → f.loop = l → t.ring r = (s.ring r).gotOwn l f) ∧
    (f.wrapped = true ∨ f.loop ≠ l → t.ring r = (s.ring r).gotFolded f) ∧
    (f.wrapped = true → t.rdi LINK_RING_STATUS_r.WRAP_POS r = f.wrapPos % 16) ∧
    ∀ q : Fin 15, f.compact = false → (f.slot q).1.valid = true → (∀ x, x < q.val → (f.slot x).1.valid = false) →
      s.enabled (r.val * 15 + q.val) = true → 2 ≤ s.lstate (r.val * 15 + q.val) → s.lstate (r.val * 15 + q.val) ≤ 5 →
      (if f.wrapped = false ∧ f.loop = l then l else 2) < (s.cell (r.val * 15 + q.val)).link.rank →
      (t.cell (r.val * 15 + q.val)).link.tel = (f.slot q).1 ∧
      (t.cell (r.val * 15 + q.val)).link.rank = (if f.wrapped = false ∧ f.loop = l then l else 2) ∧
      (t.cell (r.val * 15 + q.val)).link.missing = 0 := by
  have hcount := countCopy_moveTo_only s r l e f
  obtain ⟨v, htake, hnote, hown, hfolded, hpos⟩ :=
    takeCopy_noted (s := (s.moveTo e).countCopy r l f) (l := l) r.isLt (by rw [hcount.rings rfl, hlen]) f
  rw [ring_of_rings (hcount.rings rfl)] at hown hfolded
  have hslots := takeSlots_only v r f.loop (if f.wrapped = false ∧ f.loop = l then l else 2) f
  have hv : Only 0x1060000001000 s v := (hcount.mono (by decide)).trans (hnote.mono (by decide))
  rw [ht, htake]
  refine ⟨fun h g => (ring_of_rings (hslots.rings rfl) r).trans (hown h g),
    fun h => (ring_of_rings (hslots.rings rfl) r).trans (hfolded h),
    fun h => (hslots.rdi _ r (by decide)).trans (hpos h), fun q hfull hvalid hfirst hen hlo hhi hrank => ?_⟩
  have hlstate : v.lstate (r.val * 15 + q.val) = s.lstate (r.val * 15 + q.val) := hv.rdi _ _ (by decide)
  refine takeSlots_tel hfull hvalid hfirst ?_ (by rwa [hlstate]) (by rwa [hlstate]) (by rwa [cell_of_cells (hv.cells rfl)])
  unfold State.enabled State.biti at hen ⊢
  rwa [hv.rdi _ _ (by decide)]

/-! ### Trips of the rings (R285, R306, R397) -/

/-- Acting with a scope sets the bits of its latch field (R407). -/
theorem actScope_latched (s : State) {f : Fld} (m scope phases : Nat) (sched : Bool) (hf : f ∈ latchFields) :
    (s.actScope f m scope phases sched).rd f = (s.rd f ||| m) % 2 ^ f.w := by
  have hlatch : ∀ y ∈ latchFields, fr 0x1940500020000200 y = true ∧ fr 0x1002400000000000 y = true ∧
      fr 0x1100100000000200 y = true ∧ apart SLC_BLOCK_STATUS.BRK y = true ∧ apart SLC_BLOCK_STATUS.SCOPE y = true ∧
      apart SLC_BLOCK_STATUS.PHASES y = true ∧ apart SLC_BLOCK_STATUS.BLOCKS y = true := by decide
  obtain ⟨hcapture, hblock, hpost, hbrk, hscope, hphases, hblocks⟩ := hlatch f hf
  unfold State.actScope
  extract_lets sc ph s1 ph' sc' x0 x1 s2 tr s3 x4 s4
  have h1 : s1.rd f = (s.rd f ||| m) % 2 ^ f.w := by
    have honly : Only 0x1940500020000200 (s.latch f m) s1 := Only.captureEvent (Only.cancelRelease (Only.refl _ _) rfl) _ rfl
    exact (honly.rd f hcapture).trans (s.rd_latch_self f m hf)
  have h2 : s2.rd f = s1.rd f := by
    unfold s2
    split
    · exact s1.rd_wr_apart 1 hbrk
    · rfl
  have htr : tr.rd f = s2.rd f := by
    unfold tr
    split <;> rfl
  have h3 : s3.rd f = tr.rd f := by
    unfold s3 State.inc
    exact (rdi_inci_apart _ 0 0 1 hblocks).trans ((State.rd_wr_apart _ _ hphases).trans (State.rd_wr_apart _ _ hscope))
  have h4 : s4.rd f = s3.rd f := by
    unfold s4
    split
    · rfl
    · exact s3.blockNow_rd _ f hblock
  rw [← h1, ← h2, ← htr]
  split
  · split
    · exact tr.blockNow_rd _ f hblock
    · rfl
  · exact (((s4.post_only _ _).rd f hpost).trans h4).trans h3

/-- LINK_TRIP_LOG takes a /TR/ (R306). -/
def State.logTr (s : State) (r pos loop cause : Nat) : State :=
  ((((s.wr LINK_TRIP_LOG.RING r).wr LINK_TRIP_LOG.POS pos).wr LINK_TRIP_LOG.CAUSE cause).wr LINK_TRIP_LOG.LOOP loop).wr
    LINK_TRIP_LOG.TICK_LO (unsg 16 s.tickNow)

/-- LINK_TRIP_LOG shows a /TR/. -/
def State.tripLogged (s : State) (r pos loop cause : Nat) : Prop :=
  s.rd LINK_TRIP_LOG.RING = r ∧ s.rd LINK_TRIP_LOG.POS = pos ∧ s.rd LINK_TRIP_LOG.CAUSE = cause ∧ s.rd LINK_TRIP_LOG.LOOP = loop

theorem logTr_logged (s : State) {r pos loop cause : Nat} (hr : r < 16) (hpos : pos < 16) (hcause : cause < 8) (hloop : loop < 2) :
    (s.logTr r pos loop cause).tripLogged r pos loop cause := by
  unfold State.logTr
  refine ⟨?_, ?_, ?_, ?_⟩
  · rw [State.rd_wr_apart _ _ (by decide), State.rd_wr_apart _ _ (by decide), State.rd_wr_apart _ _ (by decide),
      State.rd_wr_apart _ _ (by decide), s.rd_wr_self _ (by decide)]
    exact Nat.mod_eq_of_lt hr
  · rw [State.rd_wr_apart _ _ (by decide), State.rd_wr_apart _ _ (by decide), State.rd_wr_apart _ _ (by decide),
      State.rd_wr_self _ _ (by decide)]
    exact Nat.mod_eq_of_lt hpos
  · rw [State.rd_wr_apart _ _ (by decide), State.rd_wr_apart _ _ (by decide), State.rd_wr_self _ _ (by decide)]
    exact Nat.mod_eq_of_lt hcause
  · rw [State.rd_wr_apart _ _ (by decide), State.rd_wr_self _ _ (by decide)]
    exact Nat.mod_eq_of_lt hloop

/-- What leaves the link's block of registers leaves the log. -/
theorem tripLogged_of_only {M : Nat} {s t : State} {r pos loop cause : Nat} (h : s.tripLogged r pos loop cause) (honly : Only M s t)
    (hM : fr M LINK_TRIP_LOG.RING = true ∧ fr M LINK_TRIP_LOG.POS = true ∧ fr M LINK_TRIP_LOG.CAUSE = true ∧
      fr M LINK_TRIP_LOG.LOOP = true) : t.tripLogged r pos loop cause := by
  obtain ⟨hring, hpos, hcause, hloop⟩ := h
  obtain ⟨mring, mpos, mcause, mloop⟩ := hM
  exact ⟨(honly.rd _ mring).trans hring, (honly.rd _ mpos).trans hpos, (honly.rd _ mcause).trans hcause,
    (honly.rd _ mloop).trans hloop⟩

/-- No /TR/ of a position is on record for its ring. -/
def State.trUnseen (s : State) (r pos : Nat) : Prop := ∀ y ∈ (s.ring r).lastTr, y.1 / 2 ≠ pos

theorem trUnseen_any {s : State} {r pos : Nat} (h : s.trUnseen r pos) {loop : Nat} (hloop : loop < 2)
    (p : Nat × Nat × Nat → Bool) : (s.ring r).lastTr.any (fun y => y.1 == 2 * pos + loop && p y) = false := by
  rw [List.any_eq_false]
  intro y hy hboth
  have hkey := beq_iff_eq.mp (Bool.and_eq_true_iff.mp hboth).1
  exact h y hy (by omega)

/-- A /TR/ that acts is put on record, and wakes a device that sleeps on a ring (R285, R641). -/
def State.seeTr (s : State) (r pos loop cause : Nat) : State :=
  (s.setRing r { s.ring r with lastTr := tins (s.ring r).lastTr (2 * pos + loop) (cause, s.tm.e) }).tryWake .ring

/-- The /TR/ of a cell cause blocks its cell, and is the cause of its trip where none is held yet (R313, R398). -/
def State.cellTrip (s : State) (c cause : Nat) : State :=
  let s := s.cellLoss c
  let st := s.sstate c
  s.updCell c (fun x => { x with svc := { x.svc with
    blk := true
    trip := if st = 0 ∨ st = 8 ∨ st = 9 ∨ x.svc.trip ≠ none then x.svc.trip else some cause } })

/-- The first /TR/ of a position is logged and acts by its cause (R285, R306, R397). -/
theorem actTr_first {s : State} {r pos loop cause : Nat} (hunseen : s.trUnseen r pos) (hloop : loop < 2) :
    s.actTr r pos loop cause = if 4 ≤ cause then ((s.seeTr r pos loop cause).logTr r pos loop cause).plantTrip (r * 15 + pos) cause
      else ((s.seeTr r pos loop cause).logTr r pos loop cause).cellTrip (r * 15 + pos) cause := by
  have hany : (s.ring r).lastTr.any (fun y => y.1 == 2 * pos + (1 - loop)) = false := by
    simpa using trUnseen_any hunseen (by omega : 1 - loop < 2) fun _ => true
  unfold State.actTr
  dsimp only
  rw [hany]
  rfl

theorem cellTrip_blocks (s : State) (c cause : Nat) : ((s.cellTrip c cause).cell c).svc.blk = true := by
  unfold State.cellTrip
  rw [State.cell_updCell_self]

theorem cellTrip_only (s : State) (c cause : Nat) : Only 0x1942500120000200 s (s.cellTrip c cause) := by
  unfold State.cellTrip
  exact Only.updCell (Only.cellLoss (Only.refl _ s) c rfl) _ _ rfl

theorem plantTrip_only (s : State) (c cause : Nat) : Only 0x1942500120000200 s (s.plantTrip c cause) :=
  Only.plantTrip (Only.refl _ s) c cause rfl

/-- The field of SLC_TR_ROUTE of a plant cause (R397). -/
def routeField (cause : Nat) : Fld :=
  if cause = 4 then SLC_TR_ROUTE.CAUSE4 else if cause = 5 then SLC_TR_ROUTE.CAUSE5 else SLC_TR_ROUTE.CAUSE6

theorem routeField_fr (cause : Nat) : fr 0x1101180000001320 (routeField cause) = true := by
  unfold routeField
  split
  · decide
  · split <;> decide

/-- A plant cause whose route has an action latches RING_TR (R397). -/
theorem plantTrip_latched {s : State} {cause : Nat} (c : Nat) (hroute : 1 ≤ s.rd (routeField cause)) :
    (s.plantTrip c cause).rd SLC_TRIP_LATCH.RING_TR = 1 := by
  have hval : (if cause = 4 then s.rd SLC_TR_ROUTE.CAUSE4 else if cause = 5 then s.rd SLC_TR_ROUTE.CAUSE5
      else s.rd SLC_TR_ROUTE.CAUSE6) = s.rd (routeField cause) := by
    unfold routeField
    split
    · rfl
    · split <;> rfl
  unfold State.plantTrip
  dsimp only
  rw [hval, if_neg (by omega), actScope_latched s 1 _ _ false (by decide)]
  exact or1 _

theorem seeTr_logTr_only (s : State) (r pos loop cause : Nat) :
    Only 0x1101180000001320 s ((s.seeTr r pos loop cause).logTr r pos loop cause) := by
  have hsee : Only 0x1101180000001320 s (s.seeTr r pos loop cause) :=
    Only.tryWake (Only.setRing (Only.refl _ s) r _ rfl) .ring rfl
  exact ((((hsee.wr _ _ rfl rfl).wr _ _ rfl rfl).wr _ _ rfl rfl).wr _ _ rfl rfl).wr _ _ rfl rfl

theorem exec_trReceived {s : State} {r : Fin 16} {mk x : Code} {v : Nat} (l : Fin 2) (e : Nat) (hon : s.pwr.mainOn = true)
    (hring : s.ringOn r = true) (hset : orderSet 0 mk x = some v) :
    exec (.trReceived r l mk x e) s = .next (
      if (s.ring r).lastTr.any (fun y => y.1 == 2 * (v % 16) + l.val && decide ((s.moveTo e).tm.e ≤ y.2.2 + 64)) = true ∨
          v / 16 = 7 ∨ v % 16 = 15 then s.moveTo e
      else (s.moveTo e).actTr r (v % 16) l (v / 16)) := by
  rw [← ring_of_rings (s.moveTo_rings e)]
  exact (next_live hon _).trans (congrArg Host.Outcome.next (onOrder_some ((ringOn_moveTo s e r).trans hring) hset _ _))

theorem exec_trReceived_none {s : State} {r : Fin 16} {mk x : Code} (l : Fin 2) (e : Nat) (hon : s.pwr.mainOn = true)
    (hring : s.ringOn r = true) (hset : orderSet 0 mk x = none) :
    exec (.trReceived r l mk x e) s = .next ((s.moveTo e).inci LINK_LANE_ERR_l.CODE (laneOf r l) 1) :=
  (next_live hon _).trans (congrArg Host.Outcome.next
    (onOrder_none ((ringOn_moveTo s e r).trans hring) hset _ _))

/-- The first /TR/ of a position, of any cause but 7, acts. -/
theorem exec_trReceived_first {s : State} {r : Fin 16} {mk x : Code} {v : Nat} (l : Fin 2) (e : Nat) (hon : s.pwr.mainOn = true)
    (hring : s.ringOn r = true) (hset : orderSet 0 mk x = some v) (hpos : v % 16 ≠ 15) (hcause : v / 16 ≠ 7)
    (hunseen : s.trUnseen r (v % 16)) :
    exec (.trReceived r l mk x e) s = .next ((s.moveTo e).actTr r (v % 16) l (v / 16)) := by
  rw [exec_trReceived l e hon hring hset, trUnseen_any hunseen l.isLt]
  exact congrArg Host.Outcome.next (if_neg (by simp [hpos, hcause]))

/-- The first /TR/ of a position by a cell cause is logged and blocks the cell (R306, R313). -/
theorem actTr_cell {s : State} {r pos loop cause : Nat} (hunseen : s.trUnseen r pos) (hr : r < 16) (hpos : pos < 16)
    (hcause : cause < 4) (hloop : loop < 2) :
    (s.actTr r pos loop cause).tripLogged r pos loop cause ∧ ((s.actTr r pos loop cause).cell (r * 15 + pos)).svc.blk = true := by
  rw [actTr_first hunseen hloop, if_neg (by omega)]
  exact ⟨tripLogged_of_only (logTr_logged _ hr hpos (by omega) hloop) (cellTrip_only ..) (by decide), cellTrip_blocks ..⟩

/-- The first /TR/ of a position by a plant cause is logged and acts with its route (R306, R397). -/
theorem actTr_plant {s : State} {r pos loop cause : Nat} (hunseen : s.trUnseen r pos) (hr : r < 16) (hpos : pos < 16)
    (hlo : 4 ≤ cause) (hhi : cause < 8) (hloop : loop < 2) :
    (s.actTr r pos loop cause).tripLogged r pos loop cause ∧
    (1 ≤ s.rd (routeField cause) → (s.actTr r pos loop cause).rd SLC_TRIP_LATCH.RING_TR = 1) := by
  rw [actTr_first hunseen hloop, if_pos hlo]
  refine ⟨tripLogged_of_only (logTr_logged _ hr hpos hhi hloop) (plantTrip_only ..) (by decide), fun hroute => ?_⟩
  exact plantTrip_latched _ (by rwa [(seeTr_logTr_only ..).rd _ (routeField_fr cause)])

/-- Settles O24: a copy by `frameReturn_late`, `frameReturn_bad` and `frameReturn_taken`, a /TR/ by `actTr_cell` and
`actTr_plant`. -/
theorem frameReturnAndTripCommands : Obligations.FrameReturnAndTripCommands := by
  unfold Obligations.FrameReturnAndTripCommands
  refine ⟨fun s r l f e hon hring hfull hgood hlate => ?_, fun s r l f e hon hring hstate hbad hlen =>
      ⟨_, exec_frameReturn l f e hon hring hstate, frameReturn_bad hbad hlen rfl⟩,
    fun s r l f e hon hring hstate hgood hlen htime => ?_, fun s r l mk x v e hon hring hset hpos hunseen => ?_,
    fun s r l mk x v e hon hring hset hignored => ?_,
    fun s r l mk x e hon hring hset => ⟨_, exec_trReceived_none l e hon hring hset, codeError_shows s r l e⟩⟩
  · have htooLate : (s.moveTo e).frameLate r f = true := by
      unfold State.frameLate
      rw [fullRate_moveTo, hfull, Bool.eq_false_iff.mpr (mt (inTime_moveTo s e hgood).mp hlate)]
      rfl
    exact ⟨_, exec_frameReturn l f e hon hring (.inr (fullRate_state hfull)), frameReturn_late hgood htooLate rfl⟩
  · have hinTime : (s.moveTo e).frameLate r f = false := by
      unfold State.frameLate
      rw [fullRate_moveTo]
      cases hfull : s.fullRate r with
      | false => rfl
      | true => rw [(inTime_moveTo s e hgood).mpr (htime hfull)]; rfl
    refine ⟨_, exec_frameReturn l f e hon hring hstate, frameReturn_taken (e := e) hlen ?_⟩
    rw [hinTime, useCopy_taken hgood]
  · have hunseen' : (s.moveTo e).trUnseen r (v % 16) := by
      unfold State.trUnseen
      rwa [ring_of_rings (s.moveTo_rings e)]
    have hmod : v % 16 < 16 := Nat.mod_lt _ (by decide)
    refine ⟨fun hcell => ?_, fun hplant => ?_⟩
    · obtain ⟨⟨hlogRing, hlogPos, hlogCause, hlogLoop⟩, hblk⟩ := actTr_cell hunseen' r.isLt hmod hcell l.isLt
      exact ⟨_, exec_trReceived_first l e hon hring hset hpos (by omega) hunseen, hlogRing, hlogPos, hlogCause, hlogLoop, hblk⟩
    · obtain ⟨⟨hlogRing, hlogPos, hlogCause, hlogLoop⟩, hlatch⟩ :=
        actTr_plant hunseen' r.isLt hmod (by omega : 4 ≤ v / 16) (by omega) l.isLt
      rw [rd_moveTo] at hlatch
      exact ⟨_, exec_trReceived_first l e hon hring hset hpos (by omega) hunseen, hlogRing, hlogPos, hlogCause, hlogLoop, hlatch⟩
  · rw [exec_trReceived l e hon hring hset, if_pos]
    rcases hignored with h | h | ⟨y, hy, hkey, hsoon⟩
    · exact .inr (.inl h)
    · exact .inr (.inr h)
    · exact .inl (List.any_eq_true.mpr ⟨y, hy, by simp [hkey, hsoon]⟩)

end Sys2Proof.Machine
end

section
/-! PROOFS. Service actions on a cell, the timeouts of its join, verification, pre-charge and ramps (09_spillway.md R309, R312,
R318 to R322, R327, R328, R330, R331, R340; 14_host_interface.md R505, R506): O6. -/
namespace Sys2Proof.Machine
open Reg

/-! ### What the commands of the spillway look at -/

theorem Only.cellCount {M : Nat} {s t : State} (h : Only M s t) (hM : fr M ID_PART.DEVICE = true) : t.cellCount = s.cellCount := by
  unfold State.cellCount State.small
  rw [h.rd _ hM]

theorem Only.enabled {M : Nat} {s t : State} (h : Only M s t) (hM : fr M HGS_CELL_CFG_n.ENABLE = true) (c : Nat) :
    t.enabled c = s.enabled c := by
  unfold State.enabled State.biti
  rw [h.rdi _ c hM]

theorem Only.sstate {M : Nat} {s t : State} (h : Only M s t) (hM : fr M JOIN_CELL_STATUS_n.SSTATE = true) (c : Nat) :
    t.sstate c = s.sstate c := h.rdi _ c hM

theorem Only.released {M : Nat} {s t : State} (h : Only M s t) (hM : fr M SLC_BLOCK_STATUS.SCOPE = true) :
    t.released = s.released := by
  unfold State.released
  rw [h.rd _ hM]

theorem Only.vlo {M : Nat} {s t : State} (h : Only M s t) (hM : fr M HGS_CELL_CFG_n.VLINK = true ∧ fr M HGS_CELL_CFG_n.ROLE = true ∧
    fr M HGS_LINK_WIN_r.BAND = true) (c : Nat) : t.vlo c = s.vlo c := by
  obtain ⟨hvlink, hrole, hband⟩ := hM
  unfold State.vlo State.role
  rw [h.rdi _ c hvlink, h.rdi _ c hrole, h.acti _ _ hband]

/-- A part has at most 240 cells (R2). -/
theorem cellCount_le (s : State) : s.cellCount ≤ 240 := by
  unfold State.cellCount
  split <;> decide

/-- CELL names a cell of the part (R506). -/
theorem cellField_none {s : State} {c : Nat} (h : c < s.cellCount) : s.cellField c = none := by
  have hle := cellCount_le s
  unfold State.cellField
  rw [if_neg (by omega), if_neg (by omega)]

theorem cell_moveTo (s : State) (e c : Nat) : (s.moveTo e).cell c = s.cell c := cell_of_cells (s.moveTo_cells e) c

theorem sstate_moveTo (s : State) (e c : Nat) : (s.moveTo e).sstate c = s.sstate c := rdi_of_regs (moveTo_regs s e) _ _

theorem atBoundary_of {s : State} (hrun : s.tm.run = true) (hphase : s.tm.phase = 0) : s.atBoundary = true := by
  unfold State.atBoundary
  rw [hrun, hphase]
  rfl

theorem atBoundary_moveTo {s : State} (hrun : s.tm.run = true) (hphase : s.tm.phase = 0) (e : Nat) :
    (s.moveTo e).atBoundary = true :=
  atBoundary_of ((mt_run s e).trans hrun) ((mt_phase s e).trans hphase)

/-! ### Descriptors of service actions (R319 to R322, R505, R506) -/

section Service
variable {s u : State} {h : DescHdr} {d : Desc} {c : Nat} {ok : State → Bool} {g : Desc → State → State}

/-- A CELL_SERVICE descriptor that has started for an enabled cell goes to its action, or to its refusal. -/
theorem runService_started (hgo : s.startDesc h 0x03 = .go d u) (hty : s.rdi RING_CFG_n.TYPE h.ring = 0) (hc : c < s.cellCount)
    (hen : s.enabled c = true) : s.runService h c ok g = if ok u then g d u else u.refuseService d c := by
  obtain ⟨honly, -⟩ := start_only hgo
  unfold State.runService
  rw [run_go _ hgo (by decide) hty, cellField_none (by rwa [honly.cellCount (by decide)]), honly.enabled (by decide), hen]
  rfl

theorem runService_accepted (hgo : s.startDesc h 0x03 = .go d u) (hty : s.rdi RING_CFG_n.TYPE h.ring = 0) (hc : c < s.cellCount)
    (hen : s.enabled c = true) (hok : ok u = true) : s.runService h c ok g = g d u := by
  rw [runService_started hgo hty hc hen, if_pos hok]

/-- A service action that is not accepted: CFG_ERR, REFUSED_STATE, and no cell changes (R319, R339). -/
theorem runService_refused (hgo : s.startDesc h 0x03 = .go d u) (hty : s.rdi RING_CFG_n.TYPE h.ring = 0) (hc : c < s.cellCount)
    (hen : s.enabled c = true) (hok : ok u = false) {t : State} (ht : t = s.runService h c ok g) :
    t.rd JOIN_STATUS.CFG_ERR = 1 ∧ t.cells = s.cells ∧
    ∃ x : Completion, t.hst.comps = s.hst.comps ++ [x] ∧ x.status = 2 ∧ x.tag = h.tag := by
  obtain ⟨honly, -, hhst, hepoch, htag⟩ := begin_op0 hgo
  rw [ht, runService_started hgo hty hc hen, hok, if_neg Bool.false_ne_true]
  unfold State.refuseService
  refine ⟨?_, ?_, ?_⟩
  · rw [cmp_rd]
    exact rd_refuse_self u rfl (by decide)
  · rw [State.complete_cells, State.refuse_cells, honly.cells rfl]
  · rw [State.complete_comps _ _ _ _ _ (by rw [State.refuse_hst, hhst, hepoch]), State.refuse_hst, hhst]
    exact ⟨_, rfl, rfl, htag⟩

/-- An accepted REMOVE or RETURN waits for the tick boundary with its descriptor (R320, R321). -/
theorem runService_waits (hgo : s.startDesc h 0x03 = .go d u) (hty : s.rdi RING_CFG_n.TYPE h.ring = 0) (hc : c < s.cellCount)
    (hen : s.enabled c = true) (hok : ok u = true) {t : State} (a : Nat)
    (ht : t = s.runService h c ok (fun d s => s.keepService d c a true)) :
    (t.cell c).svc.todo = a ∧ (t.cell c).svc.acts = (s.cell c).svc.acts ++ [(a, d)] ∧ t.sstate c = s.sstate c ∧
    t.hst.comps = s.hst.comps := by
  obtain ⟨honly, -, hhst, -⟩ := begin_op0 hgo
  rw [ht, runService_accepted hgo hty hc hen hok]
  have hcell : (u.keepService d c a true).cell c = _ := u.cell_updCell_self c _
  rw [hcell, cell_of_cells (honly.cells rfl) c]
  exact ⟨rfl, rfl, honly.rdi _ c (by decide), congrArg HostSt.comps hhst⟩

end Service

theorem removeOk_blocked {s : State} {c : Nat} (hblocked : s.released = false) (hstate : s.sstate c = 4 ∨ s.sstate c = 5) :
    s.removeOk c = true := by
  unfold State.removeOk
  rw [hblocked]
  simpa using hstate

theorem removeOk_wrongState {s : State} {c : Nat} (hramp : s.sstate c ≠ 4) (hserve : s.sstate c ≠ 5) : s.removeOk c = false := by
  simp [State.removeOk, hramp, hserve]

theorem exec_cellRemove {s : State} (hon : s.pwr.mainOn = true) (h : DescHdr) (c : Nat) :
    exec (.cellRemove h c) s = .next (s.runService h c (fun s => s.removeOk c) (fun d s => s.keepService d c 1 true)) :=
  next_live hon _

theorem exec_cellReturn {s : State} (hon : s.pwr.mainOn = true) (h : DescHdr) (c : Nat) :
    exec (.cellReturn h c) s =
      .next (s.runService h c (fun s => [7, 8, 9].contains (s.sstate c)) (fun d s => s.keepService d c 2 true)) :=
  next_live hon _

/-- An accepted NODE_FW keeps its descriptor and reads its image (R322). -/
def State.startNodeFw (c len addr : Nat) (d : Desc) (s : State) : State :=
  if len = 0 then (s.keepService d c 3 false).nodeFwData c [] else (s.keepService d c 3 false).access (.nodeFw d c len addr)

theorem exec_cellNodeFw {s : State} (hon : s.pwr.mainOn = true) (h : DescHdr) (c len addr : Nat) :
    exec (.cellNodeFw h c len addr) s = .next (s.runService h c (fun s => s.sstate c == 7) (State.startNodeFw c len addr)) :=
  next_live hon _

theorem rdi_sendAux (s : State) (c ty : Nat) (body : List Nat) (f : Fld) (i : Nat) : (s.sendAux c ty body).rdi f i = s.rdi f i :=
  State.rdi_setCell ..

/-- A message queued for a cell's node waits behind the others, and the cell's service part stays (R271). -/
theorem sendAux_shows (s : State) (c ty : Nat) (body : List Nat) :
    ((s.sendAux c ty body).cell c).svc = (s.cell c).svc ∧
    ((s.sendAux c ty body).cell c).link.aux.queue = (s.cell c).link.aux.queue ++ [auxMessage ty body] := by
  unfold State.sendAux
  rw [State.cell_updCell_self]
  exact ⟨rfl, rfl⟩

/-- An empty image is FW_COMMIT alone (R322, R325). -/
theorem startNodeFw_empty (s : State) (c addr : Nat) (d : Desc) :
    ((State.startNodeFw c 0 addr d s).cell c).svc.acts = (s.cell c).svc.acts ++ [(3, d)] ∧
    ((State.startNodeFw c 0 addr d s).cell c).link.aux.queue = (s.cell c).link.aux.queue ++ [auxMessage 8 [0, crc32c []]] := by
  have hempty : State.startNodeFw c 0 addr d s = (s.keepService d c 3 false).sendAux c 8 [0, crc32c []] := if_pos rfl
  have hcell : (s.keepService d c 3 false).cell c = _ := s.cell_updCell_self c _
  obtain ⟨hsvc, hqueue⟩ := sendAux_shows (s.keepService d c 3 false) c 8 [0, crc32c []]
  rw [hempty, hsvc, hqueue, hcell]
  exact ⟨rfl, rfl⟩

/-! ### The spillway is not confirmed (R312) -/

/-- The confirmation of a cell's spillway has failed, and its node is told. -/
def State.failSpill (s : State) (c : Nat) : State :=
  (s.updCell c (fun x => { x with svc := { x.svc with spillFail := true } })).sendAux c 6 []

theorem exec_spillTimeout {s : State} {c : Fin 240} {n : Nat} (hon : s.pwr.mainOn = true)
    (hticks : (s.cell c).svc.spillTicks = some n) (hdue : s.rd JOIN_CFG.SPILL_TICKS ≤ n) (hfirst : (s.cell c).svc.spillFail = false)
    (hfresh : (s.cell c).link.fresh = true) :
    exec (.spillTimeout c) s = .next ((s.failSpill c).cellEvent c 2 (s.rd JOIN_CFG.SPILL_TICKS) 0) := by
  refine (next_live hon _).trans (congrArg Host.Outcome.next ?_)
  dsimp only
  rw [hticks]
  exact if_pos ⟨hdue, by rw [hfirst]; rfl, hfresh⟩

theorem failSpill_shows (s : State) (c : Nat) : ((s.failSpill c).cell c).svc.spillFail = true ∧
    ((s.failSpill c).cell c).link.aux.queue = (s.cell c).link.aux.queue ++ [auxMessage 6 []] ∧
    (s.failSpill c).sstate c = s.sstate c ∧ ∀ d, d ≠ c → (s.failSpill c).cell d = s.cell d := by
  obtain ⟨hsvc, hqueue⟩ :=
    sendAux_shows (s.updCell c (fun x => { x with svc := { x.svc with spillFail := true } })) c 6 []
  unfold State.failSpill
  rw [hsvc, hqueue, State.cell_updCell_self]
  refine ⟨rfl, rfl, (rdi_sendAux ..).trans (State.rdi_setCell ..), fun d hd => ?_⟩
  exact (State.cell_updCell_ne _ _ (Ne.symm hd)).trans (s.cell_updCell_ne _ (Ne.symm hd))

/-! ### A cell enters a service state (R307, R309) -/

/-- The fields that entering a service state may write (R309, R339). -/
def enterFields : List Fld :=
  [JOIN_CELL_STATUS_n.SSTATE, JOIN_CELL_STATUS_n.HOLD, JOIN_STATUS.PRECHG_COUNT, JOIN_STATUS.RAMP_COUNT, JOIN_STATUS.OUT_COUNT]

theorem rdi_joinCounts (s : State) {f : Fld} (i : Nat) (h : ∀ x ∈ enterFields, apart x f = true) :
    s.joinCounts.rdi f i = s.rdi f i := by
  unfold State.joinCounts State.wr
  rw [State.rdi_wri_apart _ _ _ _ (h _ (by decide)), State.rdi_wri_apart _ _ _ _ (h _ (by decide)),
    State.rdi_wri_apart _ _ _ _ (h _ (by decide))]

theorem rdi_enter (s : State) (c st i : Nat) {f : Fld} (h : ∀ x ∈ enterFields, apart x f = true) :
    (s.enter c st).rdi f i = s.rdi f i := by
  have hstate : ((s.wri JOIN_CELL_STATUS_n.SSTATE c st).askEnter c 0).rdi f i = s.rdi f i :=
    (State.rdi_setCell ..).trans (s.rdi_wri_apart _ _ _ (h _ (by decide)))
  unfold State.enter State.updCell
  dsimp only
  rw [rdi_joinCounts _ i h]
  split
  · rw [State.rdi_setCell, State.rdi_wri_apart _ _ _ _ (h JOIN_CELL_STATUS_n.HOLD (by decide)), hstate]
  · split
    · rw [State.rdi_setCell, hstate]
    · split
      · rw [State.rdi_setCell, hstate]
      · exact hstate

theorem enter_hst (s : State) (c st : Nat) : (s.enter c st).hst = s.hst := (Only.enter (Only.refl 0x200000000c000 s) c st rfl).hst rfl

/-! ### A join fails, a removal ends (R318, R320, R321, R340) -/

theorem rdi_endService (s : State) (c a st fw i : Nat) (f : Fld) : (s.endService c a st fw).rdi f i = s.rdi f i :=
  rdi_of_regs (s.endService_spec c a st fw).1 f i

/-- The record of a cell counts, and the end of its service action takes no record back (R318, R505). -/
theorem endService_cellEvent_seqNo (s : State) (c reason detail serial a st fw : Nat) :
    s.hst.seqNo < ((s.cellEvent c reason detail serial).endService c a st fw).hst.seqNo := by
  rw [((s.cellEvent c reason detail serial).endService_spec c a st fw).2.1]
  exact cellEvent_seqNo ..

theorem spillOn_hst (s : State) (c : Nat) : (s.spillOn c).hst = s.hst := (Only.spillOn (Only.refl 0x2000000008000 s) c rfl).hst rfl

/-- A failed join: BYPASSED with HOLD, its code, and one record (R307, R318, R340). -/
theorem joinFail_shows (s : State) (c : Fin 240) {code : Nat} (hcode : code < 8) :
    (s.joinFail c code).sstate c = 7 ∧ (s.joinFail c code).rdi JOIN_CELL_STATUS_n.FAIL c = code ∧
    (s.joinFail c code).biti JOIN_CELL_STATUS_n.HOLD c = true ∧ s.hst.seqNo < (s.joinFail c code).hst.seqNo := by
  set u := s.wri JOIN_CELL_STATUS_n.FAIL c code with hu
  obtain ⟨hstate, -, -, -, habsent⟩ := u.enter_spec c 7 (by decide)
  obtain ⟨hhold, -⟩ := habsent (.inl rfl)
  have hread : ∀ f, apart JOIN_CELL_STATUS_n.EVENTS f = true → apart JOIN_CELL_STATUS_n.SPILL_CONF f = true →
      fr 0x1100100000000200 f = true → (s.joinFail c code).rdi f c = (u.enter c 7).rdi f c := fun f hevents hconf hf =>
    (rdi_endService ..).trans ((rdi_cellEvent _ _ _ _ _ _ hf hevents).trans (rdi_spillOn _ _ _ hconf))
  unfold State.sstate State.biti at *
  refine ⟨?_, ?_, ?_, ?_⟩
  · rw [hread _ (by decide) (by decide) (by decide), hstate]
  · rw [hread _ (by decide) (by decide) (by decide), rdi_enter _ _ _ _ (by decide), hu, s.rdi_wri_self _ (by exact c.isLt)]
    exact Nat.mod_eq_of_lt hcode
  · rw [hread _ (by decide) (by decide) (by decide), hhold]
  · have hhst : ((u.enter c 7).spillOn c).hst = s.hst := by rw [spillOn_hst, enter_hst, hu, State.wri_hst]
    have hfail : s.joinFail c code = (((u.enter c 7).spillOn c).cellEvent c 5 code 0).endService c 2 7 0 := rfl
    rw [← hhst, hfail]
    exact endService_cellEvent_seqNo ..

/-- A removal that ends: BYPASSED with HOLD and weight 0, SPILL asked for anew, and one record (R318, R320). -/
theorem removed_shows (s : State) (c : Fin 240) : (s.removed c).sstate c = 7 ∧
    (s.removed c).biti JOIN_CELL_STATUS_n.HOLD c = true ∧ (s.removed c).rdi HGS_CELL_STATE_n.WEIGHT c = 0 ∧
    ((s.removed c).cell c).svc.spillTicks = some 0 ∧ s.hst.seqNo < (s.removed c).hst.seqNo := by
  obtain ⟨hstate, -, -, -, habsent⟩ := s.enter_spec c 7 (by decide)
  obtain ⟨hhold, -⟩ := habsent (.inl rfl)
  set u := (s.enter c 7).wri HGS_CELL_STATE_n.WEIGHT c 0 with hu
  have hread : ∀ f, apart JOIN_CELL_STATUS_n.EVENTS f = true → apart JOIN_CELL_STATUS_n.SPILL_CONF f = true →
      fr 0x1100100000000200 f = true → (s.removed c).rdi f c = u.rdi f c := fun f hevents hconf hf =>
    (rdi_cellEvent _ _ _ _ _ _ hf hevents).trans (rdi_spillOn _ _ _ hconf)
  have hjoin : ∀ f, apart HGS_CELL_STATE_n.WEIGHT f = true → u.rdi f c = (s.enter c 7).rdi f c := fun f hf =>
    (s.enter c 7).rdi_wri_apart _ _ _ hf
  unfold State.sstate State.biti at *
  refine ⟨?_, ?_, ?_, ?_, ?_⟩
  · rw [hread _ (by decide) (by decide) (by decide), hjoin _ (by decide), hstate]
  · rw [hread _ (by decide) (by decide) (by decide), hjoin _ (by decide), hhold]
  · exact (hread _ (by decide) (by decide) (by decide)).trans ((s.enter c 7).rdi_wri_self 0 (by exact c.isLt))
  · have hcell : (s.removed c).cell c = (u.spillOn c).cell c := cell_of_cells ((State.cellEvent_only ..).cells rfl) c
    rw [hcell, State.spillOn, State.wri_cell, State.cell_updCell_self]
  · have hhst : (u.spillOn c).hst = s.hst := by rw [spillOn_hst, hu, State.wri_hst, enter_hst]
    rw [← hhst]
    exact cellEvent_seqNo ..

/-- A RETURN whose node stays tripped fails with code 5 (R321). -/
def State.failReturn (s : State) (c : Nat) : State :=
  ((s.wri JOIN_CELL_STATUS_n.FAIL c 5).wri JOIN_CELL_STATUS_n.HOLD c 1).updCell c
    (fun x => { x with svc := { x.svc with retTicks := none } })

theorem exec_returnTripTimeout {s : State} {c : Fin 240} {n : Nat} (hon : s.pwr.mainOn = true) (hrun : s.tm.run = true)
    (hphase : s.tm.phase = 0) (hticks : (s.cell c).svc.retTicks = some n) (hdue : 16 ≤ n) (hstate : s.sstate c = 8) :
    exec (.returnTripTimeout c) s = .next (((s.failReturn c).cellEvent c 5 5 0).endService c 2 7 0) := by
  refine (next_live hon _).trans (congrArg Host.Outcome.next ?_)
  dsimp only
  rw [hticks]
  exact if_pos ⟨atBoundary_of hrun hphase, hdue, hstate⟩

theorem returnTripTimeout_shows {s t : State} {c : Fin 240} (ht : t = ((s.failReturn c).cellEvent c 5 5 0).endService c 2 7 0) :
    t.rdi JOIN_CELL_STATUS_n.FAIL c = 5 ∧ t.biti JOIN_CELL_STATUS_n.HOLD c = true ∧ s.hst.seqNo < t.hst.seqNo := by
  have hread : ∀ f, apart JOIN_CELL_STATUS_n.EVENTS f = true → fr 0x1100100000000200 f = true →
      t.rdi f c = ((s.wri JOIN_CELL_STATUS_n.FAIL c 5).wri JOIN_CELL_STATUS_n.HOLD c 1).rdi f c := fun f hevents hf => by
    rw [ht]
    exact (rdi_endService ..).trans (rdi_cellEvent _ _ _ _ _ _ hf hevents)
  refine ⟨?_, ?_, ?_⟩
  · rw [hread _ (by decide) (by decide), State.rdi_wri_apart _ _ _ _ (by decide), s.rdi_wri_self _ (by exact c.isLt)]
    rfl
  · unfold State.biti
    rw [hread _ (by decide) (by decide), State.rdi_wri_self _ _ (by exact c.isLt)]
    rfl
  · have hhst : (s.failReturn c).hst = s.hst := (State.wri_hst ..).trans (State.wri_hst ..)
    rw [ht, ← hhst]
    exact endService_cellEvent_seqNo ..

/-! ### Verification and pre-charge (R327, R328) -/

theorem exec_verifyPass {s : State} {c : Fin 240} (e : Nat) (hon : s.pwr.mainOn = true) (hrun : s.tm.run = true)
    (hphase : s.tm.phase = 0) (hstate : s.sstate c = 2) (hheld : 20000000 ≤ (s.cell c).svc.verifyOk) :
    exec (.verifyPass c e) s = .next ((s.moveTo e).startPrecharge c) := by
  rw [← sstate_moveTo s e] at hstate
  rw [← cell_moveTo s e] at hheld
  exact (next_live hon _).trans (congrArg Host.Outcome.next (if_pos ⟨atBoundary_moveTo hrun hphase e, hstate, hheld⟩))

theorem exec_verifyTimeout {s : State} {c : Fin 240} {e : Nat} (hon : s.pwr.mainOn = true) (hrun : s.tm.run = true)
    (hphase : s.tm.phase = 0) (hstate : s.sstate c = 2) (hshort : (s.cell c).svc.verifyOk < 20000000)
    (hdue : s.rd JOIN_TIME_CFG.VERIFY_S * 1000000000 ≤ (s.moveTo e).stepTime c) :
    exec (.verifyTimeout c e) s = .next ((s.moveTo e).joinFail c 3) := by
  rw [← sstate_moveTo s e] at hstate
  rw [← cell_moveTo s e] at hshort
  rw [← rd_moveTo s e] at hdue
  exact (next_live hon _).trans (congrArg Host.Outcome.next (if_pos ⟨atBoundary_moveTo hrun hphase e, hstate, hshort, hdue⟩))

/-- A cell is pre-charged through its port (R328). -/
def State.hasPort (s : State) (c : Nat) : Bool := s.role c == 1 || s.role c == 2

/-- A pre-charge begins in the registers and in the cell's record, before any message (R328). -/
def State.precharging (s : State) (c : Nat) : State :=
  let s := (s.enter c 3).wri JOIN_CELL_STATUS_n.PRE_MODE c (b2n (!s.hasPort c))
  s.updCell c (fun x => { x with svc := { x.svc with preAt := s.tm.e, preUsed := 0, preOk := 0 } })

theorem startPrecharge_eq (s : State) (c : Nat) : s.startPrecharge c = if s.hasPort c then
    (s.precharging c).sendAux c 4 [((s.precharging c).vlo c).toNat * 2 ^ 16 + (s.precharging c).rd JOIN_CFG.PRE_I * 10]
    else s.precharging c := rfl

theorem b2n_bit (b : Bool) : (b2n b % 2 ^ 1 == 1) = b := by cases b <;> rfl

theorem precharging_shows (s : State) (c : Fin 240) : (s.precharging c).sstate c = 3 ∧
    (s.precharging c).biti JOIN_CELL_STATUS_n.PRE_MODE c = !s.hasPort c ∧ ((s.precharging c).cell c).svc.preUsed = 0 ∧
    ((s.precharging c).cell c).svc.preOk = 0 ∧ ((s.precharging c).cell c).link = (s.cell c).link ∧
    (s.precharging c).vlo c = s.vlo c ∧ (s.precharging c).rd JOIN_CFG.PRE_I = s.rd JOIN_CFG.PRE_I := by
  obtain ⟨hstate, -, hlink, -⟩ := s.enter_spec c 3 (by decide)
  have honly : Only 0x200000000c000 s (s.precharging c) := by
    unfold State.precharging
    exact Only.updCell (Only.wri (Only.enter (Only.refl _ s) c 3 rfl) _ _ _ rfl) c _ rfl
  have hcell : (s.precharging c).cell c = _ := State.cell_updCell_self _ c _
  rw [hcell, State.wri_cell]
  refine ⟨((s.enter c 3).rdi_wri_apart _ _ _ (by decide)).trans hstate, ?_, rfl, rfl, hlink, honly.vlo (by decide) c, ?_⟩
  · have hmode : (s.precharging c).rdi JOIN_CELL_STATUS_n.PRE_MODE c = _ := (s.enter c 3).rdi_wri_self _ (by exact c.isLt)
    unfold State.biti
    rw [hmode]
    exact b2n_bit _
  · exact ((s.enter c 3).rdi_wri_apart _ _ _ (by decide)).trans (rdi_enter _ _ _ _ (by decide))

/-- PRECHARGE begins by port with its message, or by insertion (R328). -/
theorem startPrecharge_shows (s : State) (c : Fin 240) : (s.startPrecharge c).sstate c = 3 ∧
    (s.startPrecharge c).biti JOIN_CELL_STATUS_n.PRE_MODE c = !s.hasPort c ∧ ((s.startPrecharge c).cell c).svc.preUsed = 0 ∧
    ((s.startPrecharge c).cell c).svc.preOk = 0 ∧ (s.hasPort c = true → ((s.startPrecharge c).cell c).link.aux.queue =
      (s.cell c).link.aux.queue ++ [auxMessage 4 [(s.vlo c).toNat * 2 ^ 16 + s.rd JOIN_CFG.PRE_I * 10]]) := by
  obtain ⟨hstate, hmode, hused, hup, hlink, hvlo, hpreI⟩ := precharging_shows s c
  rw [startPrecharge_eq, hvlo, hpreI]
  by_cases hport : s.hasPort c = true
  · obtain ⟨hsvc, hqueue⟩ := sendAux_shows (s.precharging c) c 4 [(s.vlo c).toNat * 2 ^ 16 + s.rd JOIN_CFG.PRE_I * 10]
    unfold State.sstate State.biti at *
    rw [if_pos hport, hsvc, hqueue, hlink, rdi_sendAux, rdi_sendAux]
    exact ⟨hstate, hmode, hused, hup, fun _ => rfl⟩
  · rw [if_neg hport]
    exact ⟨hstate, hmode, hused, hup, fun h => absurd h hport⟩

/-- Pre-charge by port goes over to insertion, and the node is told (R328). -/
def State.insertPrecharge (s : State) (c : Nat) : State :=
  let s := s.wri JOIN_CELL_STATUS_n.PRE_MODE c 1
  (s.updCell c (fun x => { x with svc := { x.svc with preAt := s.tm.e, preUsed := 0 } })).sendAux c 5 []

theorem exec_prechargeTimeout {s : State} {c : Fin 240} {e : Nat} (hon : s.pwr.mainOn = true) (hrun : s.tm.run = true)
    (hphase : s.tm.phase = 0) (hstate : s.sstate c = 3) (hlow : (s.cell c).svc.preOk = 0)
    (hdue : s.rd JOIN_TIME_CFG.PRECHARGE_S * 1000000000 ≤ (s.moveTo e).stepTime c) :
    exec (.prechargeTimeout c e) s = .next (if s.biti JOIN_CELL_STATUS_n.PRE_MODE c then (s.moveTo e).joinFail c 4
      else (s.moveTo e).insertPrecharge c) := by
  have hmode : (s.moveTo e).biti JOIN_CELL_STATUS_n.PRE_MODE c = s.biti JOIN_CELL_STATUS_n.PRE_MODE c := by
    unfold State.biti
    rw [rdi_of_regs (moveTo_regs s e)]
  rw [← sstate_moveTo s e] at hstate
  rw [← cell_moveTo s e] at hlow
  rw [← rd_moveTo s e] at hdue
  rw [← hmode]
  exact (next_live hon _).trans (congrArg Host.Outcome.next (if_pos ⟨atBoundary_moveTo hrun hphase e, hstate, hlow, hdue⟩))

theorem insertPrecharge_shows (s : State) (c : Fin 240) : (s.insertPrecharge c).sstate c = s.sstate c ∧
    (s.insertPrecharge c).biti JOIN_CELL_STATUS_n.PRE_MODE c = true ∧ ((s.insertPrecharge c).cell c).svc.preUsed = 0 ∧
    ((s.insertPrecharge c).cell c).link.aux.queue = (s.cell c).link.aux.queue ++ [auxMessage 5 []] := by
  unfold State.insertPrecharge State.sstate State.biti
  dsimp only
  rw [(sendAux_shows _ c 5 []).1, (sendAux_shows _ c 5 []).2, rdi_sendAux, rdi_sendAux,
    State.rdi_updCell _ _ _ _ _ (by decide), State.rdi_updCell _ _ _ _ _ (by decide),
    State.cell_updCell_self, State.wri_cell, s.rdi_wri_apart _ _ _ (by decide), s.rdi_wri_self _ (by exact c.isLt)]
  exact ⟨rfl, rfl, rfl, rfl⟩

/-! ### Ramps (R320, R330, R331) -/

/-- A cell's ramp into service begins with weight 0 (R330, R331). -/
def State.startRamp (s : State) (c : Nat) : State :=
  (s.enter c 4).updCell c (fun x => { x with svc := { x.svc with
    weight := 0, rampFrom := 0, rampN := 0, rampMs := s.rd JOIN_CFG.RAMP_MS, rampDone := false } })

/-- The port of a cell joins with it, by the cell's role (R241). -/
def State.portJoin (s : State) (c : Nat) : State :=
  if s.role c = 1 then s.packJoin c else if s.role c = 2 then s.pvJoin c else s

theorem exec_prechargeDone {s : State} {c : Fin 240} {e : Nat} (hon : s.pwr.mainOn = true) (hrun : s.tm.run = true)
    (hphase : s.tm.phase = 0) (hstate : s.sstate c = 3) (hup : 2 ≤ (s.cell c).svc.preOk) (hring : s.ringState (ringOf c) = 4)
    (hphaseOn : s.phaseReleased (s.phaseOf c) = true) :
    exec (.prechargeDone c e) s = .next (((s.moveTo e).startRamp c).portJoin c) := by
  have hphaseOn' : (s.moveTo e).phaseReleased ((s.moveTo e).phaseOf c) = true := by
    have hphaseOf : (s.moveTo e).phaseOf c = s.phaseOf c := rdi_of_regs (moveTo_regs s e) _ _
    unfold State.phaseReleased State.blockedPhases at hphaseOn ⊢
    rwa [hphaseOf, rd_moveTo]
  have hring' : (s.moveTo e).ringState (ringOf c) = 4 := (rdi_of_regs (moveTo_regs s e) _ _).trans hring
  rw [← sstate_moveTo s e] at hstate
  rw [← cell_moveTo s e] at hup
  exact (next_live hon _).trans
    (congrArg Host.Outcome.next (if_pos ⟨atBoundary_moveTo hrun hphase e, hstate, hup, hring', hphaseOn'⟩))

/-- The window of a pack cell that joins leaves its service part. -/
theorem packJoin_svc (s : State) (c : Nat) : ((s.packJoin c).cell c).svc = (s.cell c).svc := by
  unfold State.packJoin
  rw [cell_of_cells (packWindow_cells _ true c) c, State.cell_updCell_self, State.cell_updCell_self]

theorem portJoin_keeps (s : State) (c : Nat) :
    (s.portJoin c).sstate c = s.sstate c ∧ ((s.portJoin c).cell c).svc = (s.cell c).svc := by
  unfold State.portJoin
  split
  · have hpack := Only.packJoin (Only.refl 0x1102100002000200 s) c rfl
    exact ⟨hpack.rdi _ c (by decide), packJoin_svc s c⟩
  · split <;> exact ⟨rfl, rfl⟩

theorem startRamp_portJoin_shows (s : State) (c : Fin 240) :
    ((s.startRamp c).portJoin c).sstate c = 4 ∧ (((s.startRamp c).portJoin c).cell c).svc.weight = 0 ∧
    (((s.startRamp c).portJoin c).cell c).svc.rampN = 0 ∧
    (((s.startRamp c).portJoin c).cell c).svc.rampMs = s.rd JOIN_CFG.RAMP_MS := by
  obtain ⟨hstate, hsvc⟩ := portJoin_keeps (s.startRamp c) c
  have hcell : (s.startRamp c).cell c = _ := State.cell_updCell_self _ c _
  have hnew : (s.startRamp c).sstate c = (s.enter c 4).sstate c := State.rdi_updCell _ _ _ _ _ (by decide)
  rw [hstate, hnew, hsvc, hcell]
  exact ⟨(s.enter_spec c 4 (by decide)).1, rfl, rfl, rfl⟩

/-- A cell is in service with a full budget, and a PV cell asks for its scan (R83, R241, R331). -/
def State.rampedIn (s : State) (c : Nat) : State :=
  let s := (s.enter c 5).wri HGS_CELL_STATE_n.BUDGET c s.budgetCap
  if s.role c = 2 then s.queueScan c else s

theorem exec_rampComplete {s : State} {c : Fin 240} (hon : s.pwr.mainOn = true) (hrun : s.tm.run = true) (hphase : s.tm.phase = 0)
    (hstate : s.sstate c = 4) (hweight : (s.cell c).svc.weight = 256) : exec (.rampComplete c) s =
      .next (((s.rampedIn c).cellEvent c 4 ((s.rampedIn c).rdi JOIN_CELL_STATUS_n.PRE_MODE c) 0).endService c 2 0 0) :=
  (next_live hon _).trans (congrArg Host.Outcome.next (if_pos ⟨atBoundary_of hrun hphase, hstate, hweight⟩))

theorem rampedIn_keeps (s : State) (c : Nat) :
    (s.rampedIn c).regs = ((s.enter c 5).wri HGS_CELL_STATE_n.BUDGET c s.budgetCap).regs ∧ (s.rampedIn c).hst = s.hst := by
  have hhst : ((s.enter c 5).wri HGS_CELL_STATE_n.BUDGET c s.budgetCap).hst = s.hst := (State.wri_hst ..).trans (enter_hst ..)
  unfold State.rampedIn
  dsimp only
  split <;> exact ⟨rfl, hhst⟩

theorem rampComplete_shows {s t : State} {c : Fin 240} {detail : Nat}
    (ht : t = ((s.rampedIn c).cellEvent c 4 detail 0).endService c 2 0 0) :
    t.sstate c = 5 ∧ s.hst.seqNo < t.hst.seqNo ∧ t.rdi HGS_CELL_STATE_n.BUDGET c = min (256 * s.act HGS_SW_CFG.BURST) 32767 := by
  obtain ⟨hregs, hhst⟩ := rampedIn_keeps s c
  have hread : ∀ f, apart JOIN_CELL_STATUS_n.EVENTS f = true → fr 0x1100100000000200 f = true →
      t.rdi f c = ((s.enter c 5).wri HGS_CELL_STATE_n.BUDGET c s.budgetCap).rdi f c := fun f hevents hf => by
    rw [ht, rdi_endService, rdi_cellEvent _ _ _ _ _ _ hf hevents, rdi_of_regs hregs]
  refine ⟨?_, ?_, ?_⟩
  · exact (hread _ (by decide) (by decide)).trans
      (((s.enter c 5).rdi_wri_apart _ _ _ (by decide)).trans (s.enter_spec c 5 (by decide)).1)
  · rw [ht, ← hhst]
    exact endService_cellEvent_seqNo ..
  · rw [hread _ (by decide) (by decide), State.rdi_wri_self _ _ (by exact c.isLt)]
    exact Nat.mod_eq_of_lt (Nat.lt_of_le_of_lt (Nat.min_le_right _ _) (by decide))

theorem exec_rampOutComplete {s : State} {c : Fin 240} (hon : s.pwr.mainOn = true) (hrun : s.tm.run = true)
    (hphase : s.tm.phase = 0) (hstate : s.sstate c = 6) (hdone : (s.cell c).svc.rampDone = true) :
    exec (.rampOutComplete c) s = .next (s.removed c) :=
  (next_live hon _).trans (congrArg Host.Outcome.next (if_pos ⟨atBoundary_of hrun hphase, hstate, hdone⟩))

/-- Settles O6: the descriptors by `runService_waits`, `startNodeFw_empty` and `runService_refused`, the timeouts by
`failSpill_shows`, `returnTripTimeout_shows` and `joinFail_shows`, the steps of a join and of a removal by
`startPrecharge_shows`, `insertPrecharge_shows`, `startRamp_portJoin_shows`, `rampComplete_shows` and `removed_shows`. The cap of
the switching budget is the model's choice (log entry 92). -/
theorem spillwayCommands : Obligations.SpillwayCommands := by
  unfold Obligations.SpillwayCommands
  refine ⟨fun s c n hon hticks hdue hfirst hfresh => ⟨_, exec_spillTimeout hon hticks hdue hfirst hfresh, ?_⟩,
    fun s u h d c hon hgo hty hc hen hblocked hstate => ⟨_, exec_cellRemove hon h c, runService_waits hgo hty hc hen ?_ 1 rfl⟩,
    fun s u h d c hon hgo hty hc hen hramp hserve => ⟨_, exec_cellRemove hon h c, runService_refused hgo hty hc hen ?_ rfl⟩,
    fun s u h d c hon hgo hty hc hen hstate => ⟨_, exec_cellReturn hon h c, runService_waits hgo hty hc hen ?_ 2 rfl⟩,
    fun s u h d c a hon hgo hty hc hen hstate => ⟨_, exec_cellNodeFw hon h c 0 a, ?_⟩,
    fun s u h d c l a hon hgo hty hc hen hstate => ⟨_, exec_cellNodeFw hon h c l a, runService_refused hgo hty hc hen ?_ rfl⟩,
    fun s c n hon hticks hdue hrun hphase hstate =>
      ⟨_, exec_returnTripTimeout hon hrun hphase hticks hdue hstate, returnTripTimeout_shows rfl⟩,
    fun s c e hon hrun hphase hstate hheld => ⟨_, exec_verifyPass e hon hrun hphase hstate hheld, ?_⟩,
    fun s c e hon hrun hphase hstate hshort hdue => ⟨_, exec_verifyTimeout hon hrun hphase hstate hshort hdue, ?_⟩,
    fun s c e hon hrun hphase hstate hlow hdue => ⟨_, exec_prechargeTimeout hon hrun hphase hstate hlow hdue, ?_⟩,
    fun s c e hon hrun hphase hstate hup hring hphaseOn => ⟨_, exec_prechargeDone hon hrun hphase hstate hup hring hphaseOn, ?_⟩,
    fun s c hon hrun hphase hstate hweight => ⟨_, exec_rampComplete hon hrun hphase hstate hweight, rampComplete_shows rfl⟩,
    fun s c hon hrun hphase hstate hdone => ⟨_, exec_rampOutComplete hon hrun hphase hstate hdone, removed_shows s c⟩⟩
  · obtain ⟨hfail, hqueue, hstate, hothers⟩ := failSpill_shows s c
    have hcell : ∀ d, ((s.failSpill c).cellEvent c 2 (s.rd JOIN_CFG.SPILL_TICKS) 0).cell d = (s.failSpill c).cell d :=
      cell_of_cells ((State.cellEvent_only ..).cells rfl)
    refine ⟨by rw [hcell, hfail], by rw [hcell, hqueue], cellEvent_seqNo (s.failSpill c) .., ?_, fun d hd => ?_⟩
    · exact (rdi_cellEvent (s.failSpill c) _ _ _ _ _ (by decide) (by decide)).trans hstate
    · rw [hcell, hothers d hd]
  · obtain ⟨honly, -⟩ := start_only hgo
    exact removeOk_blocked (by rwa [honly.released (by decide)]) (by rwa [honly.sstate (by decide)])
  · obtain ⟨honly, -⟩ := start_only hgo
    exact removeOk_wrongState (by rwa [honly.sstate (by decide)]) (by rwa [honly.sstate (by decide)])
  · obtain ⟨honly, -⟩ := start_only hgo
    rw [honly.sstate (by decide)]
    simpa using hstate
  · obtain ⟨honly, -⟩ := start_only hgo
    rw [runService_accepted hgo hty hc hen (by rw [honly.sstate (by decide), hstate]; rfl), ← cell_of_cells (honly.cells rfl) c]
    exact startNodeFw_empty u c a d
  · obtain ⟨honly, -⟩ := start_only hgo
    rw [honly.sstate (by decide)]
    simpa using hstate
  · obtain ⟨hnew, hmode, hused, hup, hqueue⟩ := startPrecharge_shows (s.moveTo e) c
    have hport : (s.moveTo e).hasPort c = (s.role c == 1 || s.role c == 2) := by
      have hrole : (s.moveTo e).role c = s.role c := rdi_of_regs (moveTo_regs s e) _ _
      rw [State.hasPort, hrole]
    rw [hport] at hmode hqueue
    rw [cell_moveTo, (s.moveTo_only e).vlo (by decide), rd_moveTo] at hqueue
    exact ⟨hnew, hmode, hused, hup, fun h => hqueue (by simpa using h)⟩
  · obtain ⟨hnew, hfail, hhold, hseq⟩ := joinFail_shows (s.moveTo e) c (by decide : 3 < 8)
    rw [State.moveTo_hst] at hseq
    exact ⟨hnew, hfail, hhold, hseq⟩
  · refine ⟨fun hmode => ?_, fun hmode => ?_⟩
    · rw [hmode, if_pos rfl, ← s.moveTo_hst e]
      exact joinFail_shows (s.moveTo e) c (by decide)
    · obtain ⟨hnew, hinsert, hused, hqueue⟩ := insertPrecharge_shows (s.moveTo e) c
      rw [sstate_moveTo, hstate] at hnew
      rw [cell_moveTo] at hqueue
      rw [hmode, if_neg Bool.false_ne_true]
      exact ⟨hnew, hinsert, hused, hqueue⟩
  · rw [← rd_moveTo s e]
    exact startRamp_portJoin_shows (s.moveTo e) c

end Sys2Proof.Machine
end

section
/-! PROOFS. The short descriptors, the loads, the lease, the journal read, the host buffers and the descriptors that no table
lists (09_spillway.md R326; 10_acquisition.md R359; 14_host_interface.md R505, R506, R508 to R510, R512; 15_lease_metering.md R551,
R558): O30. -/
namespace Sys2Proof.Machine
open Reg

/-! ### A descriptor that has started (R505, R507, R510) -/

/-- A BUFFER that starts on a BULK ring runs its meaning (R505). -/
theorem run_go_bulk {s u : State} {h : DescHdr} {d : Desc} (g : Desc → State → State) (hgo : s.startDesc h 0x40 = .go d u)
    (hty : s.rdi RING_CFG_n.TYPE h.ring = 3) : s.runDesc h 0x40 g = g d u := by
  unfold State.runDesc
  rw [hgo]
  exact if_pos (.inl ⟨rfl, (start_rdi hgo _ _ (by decide) (by decide) (by decide)).trans hty⟩)

/-- A started descriptor has ended with a status, and has left the cells, the leases, the setpoints and the host buffers. -/
structure EndedWith (status : Nat) (h : DescHdr) (s t : State) : Prop where
  cells : t.cells = s.cells
  mtr : t.mtr = s.mtr
  sp : t.sp = s.sp
  bufs : t.hst.bufs = s.hst.bufs
  ended : ∃ x ∈ t.hst.comps, x.status = status ∧ x.tag = h.tag

theorem complete_endedWith {s u : State} {h : DescHdr} {op : Nat} {d : Desc} (hgo : s.startDesc h op = .go d u) (status : Nat) :
    EndedWith status h s (u.complete d status 0 []) := by
  obtain ⟨honly, -, hhst, hepoch, htag⟩ := begin_op0 hgo
  refine ⟨(State.complete_cells ..).trans (honly.cells rfl), (State.complete_mtr ..).trans (honly.mtr rfl),
    (State.complete_sp ..).trans (honly.sp rfl), ?_, desc_end u d status 0 [] h.tag htag (by rw [hepoch, hhst])⟩
  rw [← hhst]
  unfold State.complete
  split <;> rfl

/-- A descriptor of the present epoch waits for tend with its status and result (R507, R510). -/
theorem completeAtTend_hst (s : State) {d : Desc} (hepoch : d.epoch = s.hst.epoch) (status : Nat) (result : List Pay) :
    (s.completeAtTend d status result).hst = { s.hst with atNext := s.hst.atNext ++
      [⟨d.cring, d.opcode, status, d.ring, d.tag, d.index, 0, s.tm.n, s.tm.e, result, d.epoch⟩] } := by
  unfold State.completeAtTend
  rw [if_neg (not_not.mpr hepoch)]

theorem cellField_beyond {s : State} {c : Nat} (h : 240 ≤ c) : s.cellField c = some 4 := if_pos h

/-! ### A read or write of host memory waits for the walk of its pages (R512, R514) -/

theorem pagesOf_ne_nil {a n : Nat} (hn : 0 < n) : pagesOf a n ≠ [] := by
  unfold pagesOf
  rw [if_neg (by omega)]
  simp

theorem startJob_appended (s : State) (k : JobKind) {pages : List Nat} (h : pages ≠ []) :
    ∃ j : Job, (s.startJob k [] pages).hst.jobs = s.hst.jobs ++ [j] ∧ j.kind = k ∧ j.todo = pages ∧ j.phase = .level1 := by
  cases pages with
  | nil => exact absurd rfl h
  | cons p ps => exact ⟨_, rfl, rfl, rfl, rfl⟩

/-- An access of which no page is held begins with the walk of them all (R512, R514, R527). -/
theorem access_walks {s : State} {k : JobKind} {a n : Nat} (hrange : k.range = (a, n)) (hn : 0 < n) (hfit : a + n ≤ 2 ^ 30)
    (hen : s.bit HOST_WALK_ROOT_LO.EN = true) (hcold : ∀ p ∈ pagesOf a n, s.cached p = none) :
    s.access k = s.startJob k [] (pagesOf a n) := by
  have hheld : (pagesOf a n).filterMap s.cached = [] := List.filterMap_eq_nil_iff.mpr hcold
  have htodo : (pagesOf a n).filter (fun p => (s.cached p).isNone) = pagesOf a n :=
    List.filter_eq_self.mpr fun p hp => by rw [hcold p hp]; rfl
  unfold State.access
  rw [hrange]
  dsimp only
  rw [if_neg (Nat.not_lt.mpr hfit), hen, hheld, htodo, if_neg (by decide), if_neg (pagesOf_ne_nil hn)]

/-- What an access that begins with its walk leaves: a job that has every page to walk, and the cells. -/
theorem access_asks {s : State} {k : JobKind} {a n : Nat} (hrange : k.range = (a, n)) (hn : 0 < n) (hfit : a + n ≤ 2 ^ 30)
    (hen : s.bit HOST_WALK_ROOT_LO.EN = true) (hcold : ∀ p ∈ pagesOf a n, s.cached p = none) :
    (s.access k).cells = s.cells ∧
    ∃ j : Job, (s.access k).hst.jobs = s.hst.jobs ++ [j] ∧ j.kind = k ∧ j.todo = pagesOf a n ∧ j.phase = .level1 := by
  rw [access_walks hrange hn hfit hen hcold]
  exact ⟨State.startJob_cells .., startJob_appended s k (pagesOf_ne_nil hn)⟩

/-- A started descriptor finds the walker as it was. -/
theorem started_walker {s u : State} {h : DescHdr} {op : Nat} {d : Desc} (hgo : s.startDesc h op = .go d u) :
    u.bit HOST_WALK_ROOT_LO.EN = s.bit HOST_WALK_ROOT_LO.EN := by
  unfold State.bit State.rd
  rw [start_rdi hgo _ _ (by decide) (by decide) (by decide)]

/-! ### SETPOINT and HOST_TIME (R505, R506, R509) -/

section Descriptors
variable {s u : State} {h : DescHdr} {d : Desc}

theorem exec_nop (hon : s.pwr.mainOn = true) (hgo : s.startDesc h 0x00 = .go d u) (hty : s.rdi RING_CFG_n.TYPE h.ring = 0) :
    exec (.nop h) s = .next (u.completeAtTend d 0 []) :=
  (next_live hon _).trans (congrArg Host.Outcome.next (run_go _ hgo (by decide) hty))

/-- E_SET is given and out of its range (R505, R508). -/
def setOutside (v : SetVals) : Prop := bitOf v.present 5 = true ∧ (v.eSet < 500 ∨ 1500 < v.eSet)

/-- The request of a SETPOINT waits for S1 of the next tick (R505). -/
def State.putSetpoint (s : State) (d : Desc) (v : SetVals) : State :=
  { s with sp := { s.sp with host := s.sp.host ++ [⟨d, v.present, v.p, v.q, v.ilim, v.plim, v.ulo, v.uhi, v.eSet⟩] } }

theorem exec_setpoint_refused {v : SetVals} (hon : s.pwr.mainOn = true) (hgo : s.startDesc h 0x01 = .go d u)
    (hty : s.rdi RING_CFG_n.TYPE h.ring = 0) (hout : setOutside v) : exec (.setpoint h v) s = .next (u.complete d 4 0 []) :=
  (next_live hon _).trans (congrArg Host.Outcome.next ((run_go _ hgo (by decide) hty).trans (if_pos hout)))

theorem exec_setpoint_taken {v : SetVals} (hon : s.pwr.mainOn = true) (hgo : s.startDesc h 0x01 = .go d u)
    (hty : s.rdi RING_CFG_n.TYPE h.ring = 0) (hin : ¬setOutside v) : exec (.setpoint h v) s = .next (u.putSetpoint d v) :=
  (next_live hon _).trans (congrArg Host.Outcome.next ((run_go _ hgo (by decide) hty).trans (if_neg hin)))

theorem exec_hostTime (hon : s.pwr.mainOn = true) (hgo : s.startDesc h 0x06 = .go d u) (hty : s.rdi RING_CFG_n.TYPE h.ring = 0)
    (w : Nat) : exec (.hostTime h w) s = .next (u.putWait (.hostTime d (w % 2 ^ 64))) :=
  (next_live hon _).trans (congrArg Host.Outcome.next (run_go _ hgo (by decide) hty))

/-- A HOST_TIME that waits alone pairs WALL with the elapsed time of the tick that takes it (R505, R506). -/
theorem takeOrders_hostTime {w : Nat} (hhost : s.sp.host = []) (hsafe : s.sp.safe = none) (hwaits : s.hst.waits = [.hostTime d w]) :
    s.takeOrders = { s with hst := { s.hst with waits := [], wall := some (w, s.tm.e) } }.completeAtTend d 0 [(32, 8, s.tm.e)] := by
  have hnone : s.applySetpoints = s := if_pos ⟨hhost, hsafe⟩
  unfold State.takeOrders
  dsimp only
  rw [hnone, hwaits]
  rfl

/-! ### FURROW_LOAD (R59, R326, R505, R506) -/

/-- What a FURROW_LOAD does once it has started. -/
def State.furrowLoad (c k len a : Nat) (d : Desc) (s : State) : State :=
  match s.cellField c with
  | some st => s.complete d st 0 []
  | none =>
    if s.enabled c && !([0, 7, 8, 9].contains (s.sstate c)) then s.complete d 2 0 []
    else if 1 < k ∨ len % 4 ≠ 0 ∨ (k = 0 ∧ 256 < len) ∨ (k = 1 ∧ 1024 < len) then s.complete d 4 0 []
    else if len = 0 then s.furrowDone d c k []
    else s.access (.furrow d c k len a)

theorem exec_furrowLoad (hon : s.pwr.mainOn = true) (hgo : s.startDesc h 0x04 = .go d u) (hty : s.rdi RING_CFG_n.TYPE h.ring = 0)
    (c k len a : Nat) : exec (.furrowLoad h c k len a) s = .next (u.furrowLoad c k len a d) :=
  (next_live hon _).trans (congrArg Host.Outcome.next (run_go _ hgo (by decide) hty))

theorem furrowLoad_beyond {c : Nat} (hc : 240 ≤ c) (k len a : Nat) : s.furrowLoad c k len a d = s.complete d 4 0 [] := by
  unfold State.furrowLoad
  rw [cellField_beyond hc]

theorem furrowLoad_inService {c : Nat} (hc : c < s.cellCount) (hen : s.enabled c = true) (hstate : s.sstate c = 5) (k len a : Nat) :
    s.furrowLoad c k len a d = s.complete d 2 0 [] := by
  unfold State.furrowLoad
  rw [cellField_none hc, hen, hstate]
  rfl

theorem furrowLoad_badKind {c k : Nat} (hc : c < s.cellCount) (hoff : s.enabled c = false) (hk : 1 < k) (len a : Nat) :
    s.furrowLoad c k len a d = s.complete d 4 0 [] := by
  unfold State.furrowLoad
  rw [cellField_none hc, hoff]
  exact (if_neg Bool.false_ne_true).trans (if_pos (.inl hk))

/-- A configuration image of whole words, 256 bytes at most, is read (R326). -/
theorem furrowLoad_reads {c len : Nat} (hc : c < s.cellCount) (hoff : s.enabled c = false) (hwords : len % 4 = 0) (hlo : 0 < len)
    (hhi : len ≤ 256) (a : Nat) : s.furrowLoad c 0 len a d = s.access (.furrow d c 0 len a) := by
  unfold State.furrowLoad
  rw [cellField_none hc, hoff]
  exact (if_neg Bool.false_ne_true).trans ((if_neg (by omega)).trans (if_neg (by omega)))

/-! ### LEASE (R505, R506, R551) -/

/-- A new lease waits for its commit to the journal (R551). -/
def State.putLease (s : State) (c : Nat) (new : Lease) (d : Desc) : State :=
  { s with mtr := { s.mtr with leasing := s.mtr.leasing ++ [(c, new, d)] } }

/-- What a LEASE does once it has started: it follows the last one of its cell that waits for its commit. -/
def State.takeLease (c i f ce al : Nat) (d : Desc) (s : State) : State :=
  match s.cellField c with
  | some st => s.complete d st 0 []
  | none =>
    if s.role c ≠ 1 then s.complete d 2 0 []
    else if ce ≤ f ∨ 10000 < ce then s.complete d 4 0 []
    else
      let old := ((s.mtr.leasing.filter (fun x => x.1 == c)).map (fun x => x.2.1)).getLast?.getD (s.cell c).mtr.lease
      let new := newLease old (i % 2 ^ 32) f ce (al % 2 ^ 64) (s.cell c).mtr.eDis.n
      if sameLease old new then s.complete d 0 0 [] else s.putLease c new d

theorem exec_lease (hon : s.pwr.mainOn = true) (hgo : s.startDesc h 0x05 = .go d u) (hty : s.rdi RING_CFG_n.TYPE h.ring = 0)
    (c i f ce al : Nat) : exec (.lease h c i f ce al) s = .next (u.takeLease c i f ce al d) :=
  (next_live hon _).trans (congrArg Host.Outcome.next (run_go _ hgo (by decide) hty))

theorem takeLease_beyond {c : Nat} (hc : 240 ≤ c) (i f ce al : Nat) : s.takeLease c i f ce al d = s.complete d 4 0 [] := by
  unfold State.takeLease
  rw [cellField_beyond hc]

theorem takeLease_noPack {c : Nat} (hc : c < s.cellCount) (hrole : s.role c ≠ 1) (i f ce al : Nat) :
    s.takeLease c i f ce al d = s.complete d 2 0 [] := by
  unfold State.takeLease
  rw [cellField_none hc]
  exact if_pos hrole

theorem takeLease_badLimits {c f ce : Nat} (hc : c < s.cellCount) (hrole : s.role c = 1) (hbad : ce ≤ f ∨ 10000 < ce) (i al : Nat) :
    s.takeLease c i f ce al d = s.complete d 4 0 [] := by
  unfold State.takeLease
  rw [cellField_none hc]
  exact (if_neg (not_not.mpr hrole)).trans (if_pos hbad)

/-- A lease that changes something, with none of its cell waiting, waits for its commit (R551). -/
theorem takeLease_new {c i f ce al : Nat} {new : Lease} (hc : c < s.cellCount) (hrole : s.role c = 1) (hlo : f < ce) (hhi : ce ≤ 10000)
    (hfirst : s.mtr.leasing.filter (fun x => x.1 == c) = [])
    (hnew : new = newLease (s.cell c).mtr.lease (i % 2 ^ 32) f ce (al % 2 ^ 64) (s.cell c).mtr.eDis.n)
    (hdiffers : sameLease (s.cell c).mtr.lease new = false) : s.takeLease c i f ce al d = s.putLease c new d := by
  unfold State.takeLease
  rw [cellField_none hc, hfirst]
  dsimp only
  rw [if_neg (not_not.mpr hrole), if_neg (by omega)]
  subst hnew
  exact if_neg (Bool.eq_false_iff.mp hdiffers)

/-! ### JOURNAL_READ and BUFFER (R359, R505, R558) -/

/-- What a JOURNAL_READ does once it has started. -/
def State.readJournal (f n a : Nat) (d : Desc) (s : State) : State :=
  if n = 0 ∨ 2828 < n then s.complete d 4 0 []
  else (s.access (.journalRead d f (if f = 2 ^ 64 - 1 then 1 else n) a)).takeJournal

theorem exec_journalRead (hon : s.pwr.mainOn = true) (hgo : s.startDesc h 0x0A = .go d u) (hty : s.rdi RING_CFG_n.TYPE h.ring = 0)
    (f n a : Nat) : exec (.journalRead h f n a) s = .next (u.readJournal f n a d) :=
  (next_live hon _).trans (congrArg Host.Outcome.next (run_go _ hgo (by decide) hty))

/-- A JOURNAL_READ that is still in its walk writes nothing yet. -/
theorem takeJournal_walking {j : Job} (hjobs : s.hst.jobs = [j]) (hphase : j.phase = .level1) : s.takeJournal = s := by
  unfold State.takeJournal
  rw [hjobs, List.foldl_cons, List.foldl_nil, hphase]
  split
  · rfl
  · cases j.kind <;> rfl

/-- A JOURNAL_READ of records waits for the walk of its pages. -/
theorem readJournal_asks {f n a : Nat} (hlo : 0 < n) (hhi : n ≤ 2828) (hrecs : f ≠ 2 ^ 64 - 1) (hfit : a + n * 160 ≤ 2 ^ 30)
    (hen : s.bit HOST_WALK_ROOT_LO.EN = true) (hcold : ∀ p ∈ pagesOf a (n * 160), s.cached p = none) (hjobs : s.hst.jobs = []) :
    ∃ j ∈ (s.readJournal f n a d).hst.jobs, j.kind = .journalRead d f n a ∧ j.todo = pagesOf a (n * 160) := by
  obtain ⟨-, j, happend, hkind, htodo, hphase⟩ :=
    access_asks (k := .journalRead d f n a) rfl (by omega) hfit hen hcold
  rw [hjobs, List.nil_append] at happend
  have hread : s.readJournal f n a d = s.access (.journalRead d f n a) := by
    unfold State.readJournal
    rw [if_neg (by omega), if_neg hrecs, takeJournal_walking happend hphase]
  rw [hread, happend]
  exact ⟨j, .head _, hkind, htodo⟩

/-- LEN of a BUFFER is out of its range (R505, R508). -/
def badBufferLen (len : Nat) : Prop := len % 512 ≠ 0 ∨ len < 512 ∨ 65536 < len

theorem exec_buffer_refused {len : Nat} (hon : s.pwr.mainOn = true) (hgo : s.startDesc h 0x40 = .go d u)
    (hty : s.rdi RING_CFG_n.TYPE h.ring = 3) (hbad : badBufferLen len) (a : Nat) :
    exec (.buffer h len a) s = .next (u.complete d 4 0 []) :=
  (next_live hon _).trans (congrArg Host.Outcome.next ((run_go_bulk _ hgo hty).trans (if_pos hbad)))

theorem exec_buffer_taken {len : Nat} (hon : s.pwr.mainOn = true) (hgo : s.startDesc h 0x40 = .go d u)
    (hty : s.rdi RING_CFG_n.TYPE h.ring = 3) (hok : ¬badBufferLen len) (a : Nat) :
    exec (.buffer h len a) s = .next (u.access (.buffer d len a)).takeBuffers :=
  (next_live hon _).trans (congrArg Host.Outcome.next ((run_go_bulk _ hgo hty).trans (if_neg hok)))

/-- An access that is still in its walk is no host buffer yet. -/
theorem takeBuffers_walking {j : Job} (hj : j ∈ s.hst.jobs) (hphase : j.phase = .level1) : j ∈ s.takeBuffers.hst.jobs := by
  refine List.mem_filter.mpr ⟨hj, ?_⟩
  rw [hphase]
  cases j.kind <;> rfl

end Descriptors

/-! ### Descriptors that no table lists (R505, R506, R508) -/

theorem exec_badOpcode {s u : State} {h : DescHdr} {d : Desc} {op c : Nat} (hon : s.pwr.mainOn = true)
    (hgo : s.startDesc h (op % 256) = .go d u) :
    exec (.badOpcode h ⟨op, c⟩) s = .next (u.complete d (u.otherStatus h.ring (op % 256) c) 0 []) := by
  refine (next_live hon _).trans (congrArg Host.Outcome.next ?_)
  dsimp only
  rw [hgo]

theorem otherStatus_started {s u : State} {h : DescHdr} {op : Nat} {d : Desc} (hgo : s.startDesc h op = .go d u) (c : Nat) :
    u.otherStatus h.ring op c = s.otherStatus h.ring op c := by
  obtain ⟨honly, -⟩ := start_only hgo
  unfold State.otherStatus State.cellField
  rw [start_rdi hgo _ _ (by decide) (by decide) (by decide), honly.cellCount (by decide), honly.enabled (by decide)]

/-- An opcode of no COMMAND ring, or one that its table does not list, is a bad opcode (R505). -/
theorem otherStatus_unlisted {s : State} {r op : Nat} (h : s.rdi RING_CFG_n.TYPE r ≠ 0 ∨ (op ≠ 2 ∧ op ≠ 3)) (c : Nat) :
    s.otherStatus r op c = 3 := by
  unfold State.otherStatus
  split
  · rfl
  · next hty =>
    obtain ⟨htwo, hthree⟩ := h.resolve_left hty
    rw [if_neg htwo, if_neg hthree]

theorem otherStatus_converter {s : State} {r : Nat} (hty : s.rdi RING_CFG_n.TYPE r = 0) (c : Nat) : s.otherStatus r 2 c = 4 :=
  if_neg (not_not.mpr hty)

/-- CELL is checked before the ACTION that the table does not list (R506, R508). -/
theorem otherStatus_service {s : State} {r : Nat} (hty : s.rdi RING_CFG_n.TYPE r = 0) (c : Nat) : s.otherStatus r 3 c =
    if 240 ≤ c then 4 else if s.cellCount ≤ c then 5 else if s.enabled c then 4 else 5 := by
  have hcell : s.otherStatus r 3 c = (s.cellField c).getD (if s.enabled c then 4 else 5) := if_neg (not_not.mpr hty)
  rw [hcell]
  unfold State.cellField
  split
  · rfl
  · split <;> rfl

theorem exec_bufferTimeout {s : State} {r : Fin 64} {e f : Nat} {b : Buf} (hon : s.pwr.mainOn = true)
    (hfound : s.hst.bufs.find? (fun b => b.d.ring == r.val) = some b) (hburst : b.firstAt = some f)
    (hdue : f + 1000000 ≤ (s.moveTo e).tm.e) : exec (.bufferTimeout r e) s = .next ((s.moveTo e).finishBuf b) := by
  refine (next_live hon _).trans (congrArg Host.Outcome.next ?_)
  dsimp only
  rw [s.moveTo_hst, hfound]
  dsimp only
  rw [hburst]
  exact if_pos hdue

theorem finishBuf_shows {s : State} {b : Buf} (hepoch : b.d.epoch = s.hst.epoch) :
    (s.finishBuf b).hst.bufs = s.hst.bufs.filter (fun x => x.d != b.d) ∧
    ∃ x : Completion, (s.finishBuf b).hst.comps = s.hst.comps ++ [x] ∧ x.status = 0 ∧ x.tag = b.d.tag := by
  refine ⟨?_, _, State.complete_comps _ _ _ _ _ hepoch, rfl, rfl⟩
  unfold State.finishBuf State.complete
  dsimp only
  split <;> rfl

/-- Settles O30: what a descriptor refuses by `complete_endedWith`, a read of host memory by `access_asks`, HOST_TIME by
`takeOrders_hostTime`, LEASE by `takeLease_new`, JOURNAL_READ by `readJournal_asks`, the unlisted opcodes by
`otherStatus_unlisted`, `otherStatus_converter` and `otherStatus_service`. That an unlisted ACTION of opcode 2 or 3 completes here
with BAD_FIELD is the model's choice (log entry 104). -/
theorem hostDescriptorCommands : Obligations.HostDescriptorCommands := by
  unfold Obligations.HostDescriptorCommands
  refine ⟨fun s u h d hon hgo hty => ⟨_, exec_nop hon hgo hty, ?_⟩,
    fun s u h d v hon hgo hty => ?_,
    fun s u h d c k len a hon hgo hty => ⟨_, exec_furrowLoad hon hgo hty c k len a, ?_⟩,
    fun s u h d c i f ce al hon hgo hty => ⟨_, exec_lease hon hgo hty c i f ce al, ?_⟩,
    fun s u h d w hon hgo hty => ⟨_, exec_hostTime hon hgo hty w, ?_⟩,
    fun s d w hon hrun hphase hhost hsafe hwaits hepoch => ⟨_, exec_setpointApply hon hrun hphase, ?_⟩,
    fun s u h d f n a hon hgo hty => ⟨_, exec_journalRead hon hgo hty f n a, fun hbad => ?_,
      fun hlo hhi hrecs hfit hen hcold hjobs => ?_⟩,
    fun s u h d len a hon hgo hty => ?_,
    fun s u h d op c hon hgo => ⟨_, exec_badOpcode hon hgo, ?_⟩,
    fun s r e f b hon hfound hburst hdue hepoch => ⟨_, exec_bufferTimeout hon hfound hburst hdue, ?_⟩⟩
  · obtain ⟨-, -, hhst, hepoch, htag⟩ := begin_op0 hgo
    rw [completeAtTend_hst u (by rw [hepoch, hhst]), hhst]
    exact ⟨_, rfl, rfl, htag, rfl⟩
  · obtain ⟨honly, -, hhst, -⟩ := begin_op0 hgo
    by_cases hout : setOutside v
    · have hend := complete_endedWith hgo 4
      exact ⟨_, exec_setpoint_refused hon hgo hty hout, fun _ _ => ⟨hend.sp, hend.ended⟩, fun hin => absurd hout hin⟩
    · refine ⟨_, exec_setpoint_taken hon hgo hty hout, fun hgiven hrange => absurd ⟨hgiven, hrange⟩ hout, fun _ => ?_⟩
      rw [← hhst, ← honly.sp rfl]
      exact ⟨rfl, rfl⟩
  · obtain ⟨honly, -⟩ := start_only hgo
    refine ⟨fun hc => ?_, fun hc _ hen hstate => ?_, fun hc _ hoff hk => ?_, fun hc _ hoff hk hwords hlo hhi hfit hen hcold => ?_⟩
    · rw [furrowLoad_beyond hc]
      exact ⟨(complete_endedWith hgo 4).cells, (complete_endedWith hgo 4).ended⟩
    · rw [furrowLoad_inService hc hen hstate]
      exact ⟨(complete_endedWith hgo 2).cells, (complete_endedWith hgo 2).ended⟩
    · rw [furrowLoad_badKind hc hoff hk]
      exact ⟨(complete_endedWith hgo 4).cells, (complete_endedWith hgo 4).ended⟩
    · subst hk
      rw [furrowLoad_reads hc hoff hwords hlo hhi]
      obtain ⟨hcells, j, happend, hkind, htodo, -⟩ :=
        access_asks (k := .furrow d c 0 len a) rfl hlo hfit ((started_walker hgo).trans hen) hcold
      exact ⟨hcells.trans (honly.cells rfl), j, happend ▸ List.mem_append_right _ (.head _), hkind, htodo⟩
  · obtain ⟨honly, -, hhst, -⟩ := begin_op0 hgo
    refine ⟨fun hc => ?_, fun _ hc hrole => ?_, fun _ hc hrole hbad => ?_, fun _ hc hrole hlo hhi hfirst hdiffers => ?_⟩
    · rw [takeLease_beyond hc]
      exact ⟨(complete_endedWith hgo 4).mtr, (complete_endedWith hgo 4).ended⟩
    · rw [takeLease_noPack hc hrole]
      exact ⟨(complete_endedWith hgo 2).mtr, (complete_endedWith hgo 2).ended⟩
    · rw [takeLease_badLimits hc hrole hbad]
      exact ⟨(complete_endedWith hgo 4).mtr, (complete_endedWith hgo 4).ended⟩
    · rw [← honly.mtr rfl] at hfirst ⊢
      rw [← cell_of_cells (honly.cells rfl) c] at hdiffers ⊢
      rw [takeLease_new hc hrole hlo hhi hfirst rfl hdiffers]
      exact ⟨rfl, congrArg HostSt.comps hhst⟩
  · obtain ⟨-, -, hhst, -⟩ := begin_op0 hgo
    rw [← hhst]
    exact ⟨rfl, rfl, rfl, rfl⟩
  · rw [takeOrders_hostTime hhost hsafe hwaits, completeAtTend_hst _ (by exact hepoch)]
    exact ⟨rfl, rfl, _, rfl, rfl, rfl, rfl⟩
  · have hrefused : u.readJournal f n a d = u.complete d 4 0 [] := if_pos hbad
    rw [hrefused]
    exact (complete_endedWith hgo 4).ended
  · obtain ⟨-, -, hhst, -⟩ := begin_op0 hgo
    exact readJournal_asks hlo hhi hrecs hfit ((started_walker hgo).trans hen) hcold (by rw [hhst, hjobs])
  · by_cases hbad : badBufferLen len
    · have hend := complete_endedWith hgo 4
      exact ⟨_, exec_buffer_refused hon hgo hty hbad a, fun _ => ⟨hend.bufs, hend.ended⟩, fun hwhole hlo hhi => by
        unfold badBufferLen at hbad
        omega⟩
    · refine ⟨_, exec_buffer_taken hon hgo hty hbad a, fun h => absurd h hbad, fun hwhole hlo hhi hfit hen hcold => ?_⟩
      obtain ⟨-, j, happend, hkind, htodo, hphase⟩ :=
        access_asks (k := .buffer d len a) rfl (by omega) hfit ((started_walker hgo).trans hen) hcold
      exact ⟨j, takeBuffers_walking (happend ▸ List.mem_append_right _ (.head _)) hphase, hkind, htodo⟩
  · obtain ⟨-, -, -, htag, -, hop⟩ := start_only hgo
    obtain ⟨-, -, hhst, hepoch, -⟩ := begin_op0 hgo
    rw [otherStatus_started hgo, State.complete_comps _ _ _ _ _ (by rw [hepoch, hhst]), hhst]
    refine ⟨_, rfl, htag, hop, fun h => otherStatus_unlisted h c, fun hty htwo => ?_, fun hty hthree => ?_⟩
    · rw [htwo]
      exact otherStatus_converter hty c
    · rw [hthree]
      exact otherStatus_service hty c
  · obtain ⟨hbufs, hcomps⟩ := finishBuf_shows (s := s.moveTo e) (b := b) (by rw [s.moveTo_hst, hepoch])
    rw [s.moveTo_hst] at hbufs hcomps
    exact ⟨hbufs, hcomps⟩

end Sys2Proof.Machine
end

section
/-! PROOFS. Triggers: a DELAY lies inside its period (10_acquisition.md R352, R353, R376 to R378): O44. -/
namespace Sys2Proof.Machine
open Reg

/-! ### A list of turns, one for each entry -/

section Turns
variable {R : State → State → Prop} (refl : ∀ s, R s s) (trans : ∀ {s t u}, R s t → R t u → R s u)
  {op : State → Nat → State} {l : List Nat}
include refl trans

/-- What every turn keeps, the turns together keep. -/
theorem foldl_keeps (h : ∀ s, ∀ m ∈ l, R s (op s m)) (s : State) : R s (l.foldl op s) := by
  induction l generalizing s with
  | nil => exact refl s
  | cons m l ih =>
    exact trans (h s m List.mem_cons_self) (ih (fun u k hk => h u k (List.mem_cons_of_mem _ hk)) _)

/-- An entry that the other turns keep changes in its own turn alone. -/
theorem foldl_ownTurn {n : Nat} (h : ∀ s m, m ≠ n → R s (op s m)) (hnd : l.Nodup) (hn : n ∈ l) (s : State) :
    ∃ u, R s u ∧ R (op u n) (l.foldl op s) := by
  obtain ⟨a, b, rfl⟩ := List.append_of_mem hn
  obtain ⟨-, htail, hdisj⟩ := List.nodup_append.mp hnd
  have ha : ∀ m ∈ a, m ≠ n := fun m hm => hdisj m hm n List.mem_cons_self
  have hb : ∀ m ∈ b, m ≠ n := fun m hm e => (List.nodup_cons.mp htail).1 (e ▸ hm)
  refine ⟨a.foldl op s, foldl_keeps refl trans (fun u m hm => h u m (ha m hm)) s, ?_⟩
  rw [List.foldl_append, List.foldl_cons]
  exact foldl_keeps refl trans (fun u m hm => h u m (hb m hm)) _

end Turns

/-! ### A write of a trigger that breaks its rule -/

/-- ADC_TRIG_CFG_t's row of the register table (R376). -/
def adcTrigCfg : RegRow :=
  ⟨"ADC_TRIG_CFG_t", 0x1C0000, 16, [⟨ADC_TRIG_CFG_t.EN, .rw, [0], .none⟩, ⟨ADC_TRIG_CFG_t.SRC, .rw, [0], .none⟩,
    ⟨ADC_TRIG_CFG_t.CHAIN, .rw, [0], .none⟩, ⟨ADC_TRIG_CFG_t.QUEUE, .rw, [0], .none⟩, ⟨ADC_TRIG_CFG_t.AVG, .rw, [0], .none⟩,
    ⟨ADC_TRIG_CFG_t.BURST, .rw, [1], .u 1 255⟩]⟩

/-- ADC_TRIG_SEL_t's row (R377). -/
def adcTrigSel : RegRow :=
  ⟨"ADC_TRIG_SEL_t", 0x1C0040, 16, [⟨ADC_TRIG_SEL_t.DELAY, .rw, [0], .none⟩, ⟨ADC_TRIG_SEL_t.MASK, .rw, [0], .none⟩]⟩

/-- ADC_TRIG_TIMER_t's row (R378). -/
def adcTrigTimer : RegRow :=
  ⟨"ADC_TRIG_TIMER_t", 0x1C0080, 16, [⟨ADC_TRIG_TIMER_t.PERIOD, .rw, [0x186a0], .u 10 16777215⟩]⟩

/-- A register family of the triggers: its 16 entries stand in the acquisition's blocks, and a write of one goes by its fields. -/
structure TriggerRegister (r : RegRow) : Prop where
  found : ∀ i, i < 16 → regAt (r.base + 4 * i) = some r := by decide
  refusal : ∀ i, i < 16 → errField (r.base + 4 * i) = some ADC_STATUS.CFG_ERR := by decide
  aligned : r.base % 4 = 0 := by decide
  block : 0x130000 ≤ r.base ∧ r.base < 0x1F0000 := by decide
  present : ∀ (s : State) (i : Nat), s.absentReg r i = false := by exact fun s i => Bool.and_false s.small
  dispatch : ∀ (s : State) (i off v : Nat) (ag : Agent), s.writeHigh r i off v ag = s.setFieldsOf r off v ag := by intros; rfl
  writable : r.fields.all (fun x => x.acc != .rw) = false := by decide

theorem adcTrigCfg_trigger : TriggerRegister adcTrigCfg := {}

theorem adcTrigSel_trigger : TriggerRegister adcTrigSel := {}

theorem adcTrigTimer_trigger : TriggerRegister adcTrigTimer := {}

/-- A word that breaks the register's rule is refused, in COMMISSIONING too: the register is not RWS (R14, R353). -/
theorem setFieldsOf_refused {r : RegRow} (h : TriggerRegister r) {s : State} {i : Nat} (hi : i < 16) {v : Nat}
    (hrule : s.valueRule r.base i v = false) (ag : Agent) :
    s.setFieldsOf r (r.base + 4 * i) v ag = s.refuse ADC_STATUS.CFG_ERR := by
  have hentry : (r.base + 4 * i - r.base) / 4 = i := by omega
  unfold State.setFieldsOf State.refuseWrite
  dsimp only
  rw [hentry, hrule, h.writable, h.refusal i hi]
  simp

theorem exec_triggerWrite_refused {r : RegRow} (h : TriggerRegister r) {s : State} (hon : s.pwr.mainOn = true) {ag : Agent}
    (hag : s.admits ag = true) {i v e : Nat} (hi : i < 16) (hv : v < 2 ^ 32) (hrule : (s.moveTo e).valueRule r.base i v = false) :
    exec (.registerWrite ag (r.base + 4 * i) 15 ⟨v, []⟩ e) s = .next ((s.moveTo e).refuse ADC_STATUS.CFG_ERR) := by
  obtain ⟨hlo, hhi⟩ := h.block
  have h4 := h.aligned
  rw [exec_registerWrite hon, if_pos hag, regWrite_at ((admits_moveTo s e ag).trans hag) (by omega) (h.found i hi) (h.present _ _),
    if_neg (by decide), if_neg (by omega), if_neg (by omega), if_pos (by omega), h.dispatch, Nat.mod_eq_of_lt hv,
    setFieldsOf_refused h hi hrule]

theorem period_moveTo (s : State) (e : Nat) : (s.moveTo e).period = s.period := by
  unfold State.period
  rw [(moveTo_sim s e).1]

theorem trigOk_tick {s : State} {delay : Nat} (h : s.period ≤ delay) (t chain period : Nat) :
    s.trigOk t 0 chain delay period = false := by
  simp [State.trigOk, h]

theorem trigOk_timer (s : State) {period delay : Nat} (h : period * 10 ≤ delay) (t chain : Nat) :
    s.trigOk t 1 chain delay period = false := by
  simp [State.trigOk, h]

/-- The word written to a trigger's configuration, selection or timer leaves its DELAY at or beyond its period (R353). -/
def State.delayMisfit (s : State) (f : Fld) (i v : Nat) : Prop :=
  (f = ADC_TRIG_CFG_t.EN ∧ bits v 28 3 = 0 ∧ s.period ≤ s.rdi ADC_TRIG_SEL_t.DELAY i) ∨
  (f = ADC_TRIG_CFG_t.EN ∧ bits v 28 3 = 1 ∧ s.rdi ADC_TRIG_TIMER_t.PERIOD i * 10 ≤ s.rdi ADC_TRIG_SEL_t.DELAY i) ∨
  (f = ADC_TRIG_SEL_t.DELAY ∧ s.rdi ADC_TRIG_CFG_t.SRC i = 0 ∧ s.period ≤ bits v 16 16) ∨
  (f = ADC_TRIG_SEL_t.DELAY ∧ s.rdi ADC_TRIG_CFG_t.SRC i = 1 ∧ s.rdi ADC_TRIG_TIMER_t.PERIOD i * 10 ≤ bits v 16 16) ∨
  (f = ADC_TRIG_TIMER_t.PERIOD ∧ s.rdi ADC_TRIG_CFG_t.SRC i = 1 ∧ bits v 0 24 * 10 ≤ s.rdi ADC_TRIG_SEL_t.DELAY i)

/-- Such a word breaks the rule of the register that it is written to. -/
theorem valueRule_delayMisfit {s : State} {f : Fld} {i v : Nat} (h : s.delayMisfit f i v) :
    ∃ r, TriggerRegister r ∧ r.base = f.base ∧ s.valueRule r.base i v = false := by
  rcases h with ⟨rfl, hsrc, hle⟩ | ⟨rfl, hsrc, hle⟩ | ⟨rfl, hsrc, hle⟩ | ⟨rfl, hsrc, hle⟩ | ⟨rfl, hsrc, hle⟩
  · refine ⟨adcTrigCfg, adcTrigCfg_trigger, rfl, ?_⟩
    show s.trigOk i (bits v 28 3) _ _ _ = false
    rw [hsrc, trigOk_tick hle]
  · refine ⟨adcTrigCfg, adcTrigCfg_trigger, rfl, ?_⟩
    show s.trigOk i (bits v 28 3) _ _ _ = false
    rw [hsrc, trigOk_timer s hle]
  · refine ⟨adcTrigSel, adcTrigSel_trigger, rfl, ?_⟩
    show s.trigOk i (s.rdi ADC_TRIG_CFG_t.SRC i) _ _ _ = false
    rw [hsrc, trigOk_tick hle]
  · refine ⟨adcTrigSel, adcTrigSel_trigger, rfl, ?_⟩
    show s.trigOk i (s.rdi ADC_TRIG_CFG_t.SRC i) _ _ _ = false
    rw [hsrc, trigOk_timer s hle]
  · refine ⟨adcTrigTimer, adcTrigTimer_trigger, rfl, ?_⟩
    show (s.rdi ADC_TRIG_CFG_t.SRC i != 1 || decide (s.rdi ADC_TRIG_SEL_t.DELAY i < bits v 0 24 * 10)) = false
    simp [hsrc, hle]

theorem delayMisfit_moveTo {s : State} {f : Fld} {i v : Nat} (h : s.delayMisfit f i v) (e : Nat) : (s.moveTo e).delayMisfit f i v := by
  unfold State.delayMisfit
  rw [period_moveTo, rdi_of_regs (moveTo_regs s e), rdi_of_regs (moveTo_regs s e), rdi_of_regs (moveTo_regs s e)]
  exact h

/-! ### The triggers at a period change -/

/-- A tick-sourced trigger's DELAY lies at or beyond the period (R353). -/
def State.delayBeyond (s : State) (n : Nat) : Bool :=
  s.rdi ADC_TRIG_CFG_t.SRC n == 0 && decide (s.period ≤ s.rdi ADC_TRIG_SEL_t.DELAY n)

/-- A trigger's turn when the period changes (R353). -/
def State.trimTrigger (s : State) (n : Nat) : State :=
  if s.biti ADC_TRIG_CFG_t.EN n && s.delayBeyond n then (s.wri ADC_TRIG_CFG_t.EN n 0).refuse ADC_STATUS.CFG_ERR else s

theorem trimTriggers_eq (s : State) : s.trimTriggers = (List.range 16).foldl State.trimTrigger s := by
  unfold State.trimTriggers State.trimTrigger State.delayBeyond
  simp only [Bool.and_assoc]

/-- From `s` to `t` the trigger `n` is as it was, and CFG_ERR is not taken back. -/
structure TriggerStands (n : Nat) (s t : State) : Prop where
  enable : t.rdi ADC_TRIG_CFG_t.EN n = s.rdi ADC_TRIG_CFG_t.EN n
  beyond : t.delayBeyond n = s.delayBeyond n
  refused : s.rd ADC_STATUS.CFG_ERR = 1 → t.rd ADC_STATUS.CFG_ERR = 1

namespace TriggerStands
variable {n : Nat} {s t u : State}

theorem refl (n : Nat) (s : State) : TriggerStands n s s := ⟨rfl, rfl, id⟩

theorem trans (h : TriggerStands n s t) (g : TriggerStands n t u) : TriggerStands n s u :=
  ⟨g.enable.trans h.enable, g.beyond.trans h.beyond, fun hs => g.refused (h.refused hs)⟩

end TriggerStands

/-- The turn of one trigger leaves the others. -/
theorem trimTrigger_stands (s : State) (m : Nat) {n : Nat} (hne : m ≠ n) : TriggerStands n s (s.trimTrigger m) := by
  have hother : ∀ f, apart ADC_TRIG_CFG_t.EN f = true → apart ADC_STATUS.CFG_ERR f = true →
      ((s.wri ADC_TRIG_CFG_t.EN m 0).refuse ADC_STATUS.CFG_ERR).rdi f n = s.rdi f n := fun f hen herr =>
    (State.rdi_wri_apart _ 0 n 1 herr).trans (s.rdi_wri_apart m n 0 hen)
  unfold State.trimTrigger
  split
  · refine ⟨(State.rdi_wri_apart _ 0 n 1 (by decide)).trans (s.rdi_wri_entry 0 hne), ?_, fun _ => rd_refuse_self _ rfl (by decide)⟩
    unfold State.delayBeyond State.period
    rw [hother _ (by decide) (by decide), hother _ (by decide) (by decide), State.refuse_tm, State.wri_tm]
  · exact .refl n s

theorem trimTriggers_turn (s : State) {n : Nat} (hn : n < 16) :
    ∃ u, TriggerStands n s u ∧ TriggerStands n (u.trimTrigger n) s.trimTriggers := by
  rw [trimTriggers_eq]
  exact foldl_ownTurn (TriggerStands.refl n) TriggerStands.trans (fun s m h => trimTrigger_stands s m h) List.nodup_range
    (List.mem_range.mpr hn) s

/-- An enabled trigger whose DELAY lies beyond the period loses EN, with CFG_ERR (R353). -/
theorem trimTriggers_beyond {s : State} {n : Nat} (hn : n < 16) (hen : s.biti ADC_TRIG_CFG_t.EN n = true)
    (hbeyond : s.delayBeyond n = true) :
    s.trimTriggers.rdi ADC_TRIG_CFG_t.EN n = 0 ∧ s.trimTriggers.rd ADC_STATUS.CFG_ERR = 1 := by
  obtain ⟨u, hu, hend⟩ := trimTriggers_turn s hn
  have hturn : u.trimTrigger n = (u.wri ADC_TRIG_CFG_t.EN n 0).refuse ADC_STATUS.CFG_ERR := by
    refine if_pos ?_
    unfold State.biti at hen ⊢
    rw [hu.enable, hu.beyond, hen, hbeyond]
    rfl
  rw [hturn] at hend
  refine ⟨hend.enable.trans ?_, hend.refused (rd_refuse_self _ rfl (by decide))⟩
  exact (State.rdi_wri_apart _ 0 n 1 (by decide)).trans (u.rdi_wri_self 0 hn)

/-- Any other trigger keeps its EN (R353). -/
theorem trimTriggers_inside {s : State} {n : Nat} (hn : n < 16) (hinside : s.delayBeyond n = false) :
    s.trimTriggers.rdi ADC_TRIG_CFG_t.EN n = s.rdi ADC_TRIG_CFG_t.EN n := by
  obtain ⟨u, hu, hend⟩ := trimTriggers_turn s hn
  have hturn : u.trimTrigger n = u := if_neg (by rw [hu.beyond, hinside, Bool.and_false]; exact Bool.false_ne_true)
  rw [hturn] at hend
  exact hend.enable.trans hu.enable

theorem mapCells_regs (s : State) (g : Nat → Cell → Cell) : (s.mapCells g).regs = s.regs :=
  foldl_keep State.regs (fun (s : State) (kv : Nat × Cell) => s.setCell kv.1 (g kv.1 kv.2)) (fun _ _ => rfl) s.cells s

theorem renumber_regs (s : State) (new : Int) : (s.renumber new).regs = s.regs := by
  unfold State.renumber
  dsimp only
  split
  · rfl
  · rw [mapCells_regs]

/-- A state whose registers are those of `s`, and whose period is `h` half microseconds. -/
structure WithPeriod (s : State) (h : Nat) (u : State) : Prop where
  half : u.tm.half = h
  regs : ∀ f i, apart CLK_TICK_STATUS.PERIOD_PEND f = true → u.rdi f i = s.rdi f i

/-- A waiting period that is due is in force when the triggers take their turns (R26, R353). -/
theorem periodApply_trims {s : State} {h : Nat} (hwait : s.tm.newHalf = some h) (hnew : s.stime % ((h * 500 : Nat) : Int) = 0)
    (hold : s.stime % (s.period : Int) = 0) :
    ∃ u, WithPeriod s h u ∧ s.periodApply = u.trimTriggers.foldFitAll := by
  unfold State.periodApply
  rw [hwait]
  dsimp only
  rw [if_pos ⟨hnew, hold⟩]
  refine ⟨_, ⟨?_, fun f i hf => ?_⟩, rfl⟩
  · rw [State.wr_tm, renumber_tm]
  · exact (State.rdi_wri_apart _ 0 i 0 hf).trans (rdi_of_regs (renumber_regs _ _) f i)

theorem exec_periodChange {s : State} {e : Nat} (hon : s.pwr.mainOn = true) (hrun : s.tm.run = true) (hphase : s.tm.phase = 0)
    (hstart : (s.moveTo e).tm.e = s.tm.start) : exec (.periodChange e) s = .next (s.moveTo e).periodApply := by
  refine (next_live hon _).trans (congrArg Host.Outcome.next (if_pos ⟨(mt_run s e).trans hrun, (mt_phase s e).trans hphase, ?_⟩))
  rw [hstart, (moveTo_sim s e).1]

/-- The triggers' fields lie apart from PERIOD_PEND and FOLD_FIT. -/
theorem delayBeyond_withPeriod {s u : State} {h : Nat} (hu : WithPeriod s h u) (n : Nat) :
    u.delayBeyond n = true ↔ s.rdi ADC_TRIG_CFG_t.SRC n = 0 ∧ h * 500 ≤ s.rdi ADC_TRIG_SEL_t.DELAY n := by
  unfold State.delayBeyond State.period
  rw [hu.half, hu.regs _ _ (by decide), hu.regs _ _ (by decide), Bool.and_eq_true, beq_iff_eq, decide_eq_true_eq]

/-- Settles O44: a write by `valueRule_delayMisfit` and `exec_triggerWrite_refused`, the period change by
`trimTriggers_beyond` and `trimTriggers_inside`. -/
theorem triggerDelayInsidePeriod : Obligations.TriggerDelayInsidePeriod := by
  unfold Obligations.TriggerDelayInsidePeriod
  refine ⟨fun s ag i v e f hon hag hi hv hmisfit => ?_, fun s h e hon hrun hphase hstart hwait hnew hold => ?_⟩
  · obtain ⟨r, hr, hbase, hrule⟩ := valueRule_delayMisfit (delayMisfit_moveTo (s := s) hmisfit e)
    have hexec := exec_triggerWrite_refused hr hon hag hi hv hrule
    rw [hbase] at hexec
    exact ⟨_, hexec, rd_refuse_self _ rfl (by decide),
      fun g j hg => (State.rdi_wri_apart _ 0 j 1 hg).trans (rdi_of_regs (moveTo_regs s e) g j)⟩
  · have htm := (moveTo_sim s e).1
    obtain ⟨u, hu, happly⟩ := periodApply_trims (s := s.moveTo e) (h := h) (by rw [htm]; exact hwait) hnew
      (by rw [period_moveTo]; exact hold)
    have hregs : ∀ f i, apart CLK_TICK_STATUS.PERIOD_PEND f = true → u.rdi f i = s.rdi f i :=
      fun f i hf => (hu.regs f i hf).trans (rdi_of_regs (moveTo_regs s e) f i)
    have hbeyond := delayBeyond_withPeriod (s := s) ⟨hu.half, hregs⟩
    refine ⟨_, exec_periodChange hon hrun hphase hstart, ?_, fun n hn hen hsrc hdelay => ?_, fun n hn hinside => ?_⟩
    · rw [happly, foldFitAll_tm, (trimTriggers_only u).tm rfl, hu.half]
    · have hen' : u.biti ADC_TRIG_CFG_t.EN n = true := by
        unfold State.biti at hen ⊢
        rw [hregs _ _ (by decide), hen]
      rw [happly, rdi_foldFitAll _ _ (by decide), State.rd_def, rdi_foldFitAll _ _ (by decide)]
      exact trimTriggers_beyond hn hen' ((hbeyond n).mpr ⟨hsrc, hdelay⟩)
    · rw [happly, rdi_foldFitAll _ _ (by decide), ← hregs _ _ (by decide)]
      exact trimTriggers_inside hn (Bool.eq_false_iff.mpr fun h => hinside ((hbeyond n).mp h))

end Sys2Proof.Machine
end

section
/-! PROOFS. What a queue's run and the comparators' looks leave of the registers (10_acquisition.md R358, R366, R367). -/
namespace Sys2Proof.Machine
open Reg

/-! ### What a queue's run writes: the word of its status -/

theorem dmaWrite_regs (s : State) (found : List Trans) (a : Nat) (l : List Byte) : (s.dmaWrite found a l).regs = s.regs := by
  unfold State.dmaWrite
  refine foldl_keep State.regs _ (fun u p => ?_) _ s
  dsimp only
  split <;> rfl

namespace WordsKept

section Queue
variable {ws : List Nat} {err : Fld} {q : Nat} (hq : ADC_Q_STATUS_q.STATE.off q ∈ ws)
include hq

theorem setQueue (s : State) (x : QSt) : WordsKept ws err s (s.setQueue q x) := (of_regs rfl).trans (wri (by decide) hq)

theorem qKeep (s : State) (e : QEnt) : WordsKept ws err s (s.qKeep q e) := by
  unfold State.qKeep
  extract_lets x old u
  have hu : WordsKept ws err s u := setQueue hq s _
  exact ite (ite (hu.trans (wri (by decide) hq)) hu) (setQueue hq s _)

theorem qLose (s : State) : WordsKept ws err s (s.qLose q) := by
  unfold State.qLose State.inci
  exact (wri (g := ADC_Q_STATUS_q.DROP) (by decide) hq).trans (setQueue hq _ _)

theorem qTake (s : State) (e : QEnt) : WordsKept ws err s (s.qTake q e) := by
  unfold State.qTake
  exact ite refl (ite (qLose hq s) ((setQueue hq s _).trans (qKeep hq _ _)))

theorem qAccept (s : State) (e : QEnt) : WordsKept ws err s (s.qAccept q e) := by
  unfold State.qAccept
  extract_lets x hi u
  have hu : WordsKept ws err s u := ite ((setQueue hq s _).trans (qKeep hq _ _)) refl
  exact hu.trans (qTake hq u e)

theorem qPush (s : State) (e : QEnt) : WordsKept ws err s (s.qPush q e) := by
  unfold State.qPush
  exact ite refl (ite (qLose hq s) (setQueue hq s _))

section Follow
variable {g : State → State} (hg : ∀ s, WordsKept ws err s (g s))
include hg

theorem qAcceptAll (l : List QEnt) (s : State) (at' : Nat) : WordsKept ws err s (State.qAcceptAll g s q at' l) := by
  induction l generalizing s at' with
  | nil => exact refl
  | cons e l ih => exact ((qAccept hq s _).trans (hg _)).trans (ih _ _)

theorem qFlow (s : State) (now : Nat) : WordsKept ws err s (State.qFlow g s q now) :=
  (setQueue hq s _).trans (qAcceptAll hq hg _ _ _)

theorem qArrive (l : List (Nat × QEnt)) (s : State) (now : Nat) : WordsKept ws err s (State.qArrive g s q now l) := by
  induction l generalizing s with
  | nil => exact qFlow hq hg s now
  | cons a l ih => exact ((qFlow hq hg s _).trans (qPush hq _ _)).trans (ih _)

theorem qCatch (s : State) (now : Nat) : WordsKept ws err s (State.qCatch g s q now) :=
  (setQueue hq s _).trans (qArrive hq hg _ _ _)

end Follow

theorem qBurst (s : State) : WordsKept ws err s (s.qBurst q) := by
  unfold State.qBurst
  split
  · exact refl
  · extract_lets x n es rest u w b
    have hdma : u.regs = s.regs := dmaWrite_regs ..
    have hw : WordsKept ws err s w := (of_regs hdma).trans (setQueue hq u _)
    exact ite (hw.trans (of_regs (cmp_regs ..))) (hw.trans (of_regs rfl))

theorem qBursts (k : Nat) (s : State) : WordsKept ws err s (State.qBursts k s q) := by
  induction k generalizing s with
  | zero => exact refl
  | succ k ih => exact ite ((qBurst hq s).trans (ih _)) refl

theorem qClose (s : State) : WordsKept ws err s (s.qClose q) := by
  unfold State.qClose
  extract_lets u
  have hu : WordsKept ws err s u := (wri (by decide) hq).trans (wri (by decide) hq)
  refine ite ?_ refl
  split
  · exact ite (hu.trans (of_regs (cmp_regs ..))) hu
  · exact hu

theorem qAfter (s : State) : WordsKept ws err s (State.qAfter q s) := (qBursts hq 64 s).trans (qClose hq _)

theorem qRun (s : State) (now : Nat) : WordsKept ws err s (s.qRun q now) :=
  (qCatch hq (qAfter hq) s now).trans (qAfter hq _)

end Queue

end WordsKept

/-! ### What the comparators' looks write -/

/-- The registers that a look of the comparators leaves: outside what a trip and a capture reach, but for CMP_STATUS. -/
def offLook (f : Fld) : Bool := fr 0x1d42510120000200 f && apart CMP_STATUS.LIVE f && apart CMP_STATUS.LATCH f

/-- From `s` to `t` comparators have looked: their configuration stays, and no latch is taken back. -/
structure ComparatorsLook (s t : State) : Prop where
  fields : ∀ f i, offLook f = true → t.rdi f i = s.rdi f i
  latched : ∀ m, m < 16 → bitOf (s.rd CMP_STATUS.LATCH) m = true → bitOf (t.rd CMP_STATUS.LATCH) m = true

namespace ComparatorsLook
variable {s t u : State}

theorem refl (s : State) : ComparatorsLook s s := ⟨fun _ _ _ => rfl, fun _ _ h => h⟩

theorem trans (h : ComparatorsLook s t) (g : ComparatorsLook t u) : ComparatorsLook s u :=
  ⟨fun f i hf => (g.fields f i hf).trans (h.fields f i hf), fun m hm hs => g.latched m hm (h.latched m hm hs)⟩

theorem of_regs (h : t.regs = s.regs) : ComparatorsLook s t :=
  ⟨fun f i _ => rdi_of_regs h f i, fun m _ hs => by rwa [State.rd_def, rdi_of_regs h]⟩

theorem ite {c : Prop} [Decidable c] (h : ComparatorsLook s t) (g : ComparatorsLook s u) : ComparatorsLook s (if c then t else u) := by
  split <;> assumption

/-- A trip and a capture leave the comparators' block. -/
theorem of_only (h : Only 0x1d42510120000200 s t) : ComparatorsLook s t where
  fields f i hf := by
    simp only [offLook, Bool.and_eq_true] at hf
    exact h.rdi f i hf.1.1
  latched m _ hs := by rwa [h.rd _ (by decide)]

theorem updCmp (s : State) (n : Nat) (g : CmpSt → CmpSt) : ComparatorsLook s (s.updCmp n g) := of_regs rfl

theorem showLive (s : State) (x : SlcSt) (v : Nat) : ComparatorsLook s (({ s with slc := x } : State).wr CMP_STATUS.LIVE v) where
  fields f i hf := by
    simp only [offLook, Bool.and_eq_true] at hf
    exact State.rdi_wri_apart _ 0 i v hf.1.2
  latched m _ hs := by
    rw [State.rd_wr_apart _ v (by decide)]
    exact hs

theorem setLatch (s : State) (n : Nat) : ComparatorsLook s (s.wr CMP_STATUS.LATCH (setBit (s.rd CMP_STATUS.LATCH) n)) where
  fields f i hf := by
    simp only [offLook, Bool.and_eq_true] at hf
    exact s.rdi_wri_apart 0 i _ hf.2
  latched m hm hs := by
    rw [s.rd_wr_self _ (by decide)]
    exact (bitOf_mod _ _ _ hm).trans (by rw [bitOf_setBit, hs, Bool.true_or])

theorem cmpSet (s : State) (n : Nat) (active : Bool) : ComparatorsLook s (s.cmpSet n active) := by
  unfold State.cmpSet
  extract_lets live was latched u slc v w y
  have hu : ComparatorsLook s u := ite (updCmp s n _) (refl s)
  have hv : ComparatorsLook s v := hu.trans (showLive u _ live)
  have hw : ComparatorsLook s w := hv.trans (setLatch v n)
  have hy : ComparatorsLook s y := ite hw (hw.trans (of_only ((w.captureEvent_only _).mono rfl)))
  exact ite hv (ite hy (hy.trans (of_only (Only.cmpAct (Only.refl _ y) n rfl))))

theorem cmpSettle (s : State) (n : Nat) : ComparatorsLook s (s.cmpSettle n) := ite (cmpSet s n _) (refl s)

theorem cmpEval (s : State) (n : Nat) : ComparatorsLook s (s.cmpEval n) := by
  unfold State.cmpEval
  extract_lets u v
  have hu : ComparatorsLook s u := cmpSettle s n
  exact ite hu ((hu.trans (updCmp u n _)).trans (cmpSettle _ n))

theorem cmpLook (s : State) : ComparatorsLook s s.cmpLook := foldl_keeps refl trans (fun u m _ => cmpEval u m) s

end ComparatorsLook

end Sys2Proof.Machine
end

section
/-! PROOFS. What the configuration commands of acquisition write and refuse (10_acquisition.md R344 to R381): O25. -/
namespace Sys2Proof.Machine
open Reg

/-! ### Rows of the register table -/

/-- ADC_Q_CFG_q's row of the register table (R380). -/
def adcQCfg : RegRow :=
  ⟨"ADC_Q_CFG_q", 0x1D0000, 8, [⟨ADC_Q_CFG_q.EN, .rw, [0], .none⟩, ⟨ADC_Q_CFG_q.MODE, .rw, [0], .u 0 2⟩,
    ⟨ADC_Q_CFG_q.DRAIN, .rw, [0], .none⟩, ⟨ADC_Q_CFG_q.RING, .rw, [0], .none⟩, ⟨ADC_Q_CFG_q.POST, .rw, [2048], .u 1 4095⟩]⟩

/-- ADC_CH_CFG_n's row (R372). -/
def adcChCfg : RegRow :=
  ⟨"ADC_CH_CFG_n", 0x1B0000, 16, [⟨ADC_CH_CFG_n.EN, .rw, [0], .none⟩, ⟨ADC_CH_CFG_n.RANGE, .rw, [0], .none⟩,
    ⟨ADC_CH_CFG_n.TEST, .rw, [0], .none⟩, ⟨ADC_CH_CFG_n.FUNC, .rw, [0], .u 0 16⟩, ⟨ADC_CH_CFG_n.TESTLVL, .rw, [0], .u 0 2⟩,
    ⟨ADC_CH_CFG_n.FS, .rw, [0], .none⟩]⟩

/-- ADC_CH_CAL_n's row (R373). -/
def adcChCal : RegRow :=
  ⟨"ADC_CH_CAL_n", 0x1B0040, 16, [⟨ADC_CH_CAL_n.GAIN, .rw, [0x4000], .u 8192 32767⟩, ⟨ADC_CH_CAL_n.OFFSET, .rw, [0], .none⟩]⟩

/-- ADC_CTL_CFG's row (R374). -/
def adcCtlCfg : RegRow :=
  ⟨"ADC_CTL_CFG", 0x1A0000, 1, [⟨ADC_CTL_CFG.NAVG, .rw, [4], .u 0 6⟩, ⟨ADC_CTL_CFG.DELAY, .rw, [400], .none⟩]⟩

/-- CMP_CFG_n's row (R388). -/
def cmpCfg : RegRow :=
  ⟨"CMP_CFG_n", 0x1F0000, 16, [⟨CMP_CFG_n.MODE, .rw, [0], .none⟩, ⟨CMP_CFG_n.RAMP, .rw, [0], .none⟩,
    ⟨CMP_CFG_n.CLR, .rw, [0], .none⟩, ⟨CMP_CFG_n.PERIOD_SRC, .rw, [16], .u 0 16⟩, ⟨CMP_CFG_n.FILT, .rw, [0], .none⟩,
    ⟨CMP_CFG_n.HYS, .rw, [1], .none⟩, ⟨CMP_CFG_n.REF, .rw, [0], .none⟩]⟩

/-- CMP_RAMP_n's row (R389). -/
def cmpRamp : RegRow := ⟨"CMP_RAMP_n", 0x1F0040, 16, [⟨CMP_RAMP_n.SLOPE, .rw, [0], .none⟩]⟩

theorem adcQCfg_entry (q : Fin 8) : regAt (ADC_Q_CFG_q.EN.off q) = some adcQCfg := by revert q; decide

theorem adcChCfg_entry (n : Fin 16) : regAt (ADC_CH_CFG_n.EN.off n) = some adcChCfg := by revert n; decide

theorem adcChCal_entry (n : Fin 16) : regAt (ADC_CH_CAL_n.GAIN.off n) = some adcChCal := by revert n; decide

theorem adcCtlCfg_found : regAt adcCtlCfg.base = some adcCtlCfg := by decide

theorem cmpCfg_entry (n : Fin 16) : regAt (CMP_CFG_n.MODE.off n) = some cmpCfg := by revert n; decide

theorem cmpRamp_entry (n : Fin 16) : regAt (CMP_RAMP_n.SLOPE.off n) = some cmpRamp := by revert n; decide

/-- Entry `i` of a register family is no word of another family's entry `i`. -/
theorem off_notMem {f g : Fld} (h : f.base ≠ g.base) (i : Nat) : f.off i ∉ [g.off i] := by
  rw [List.mem_singleton]
  exact fun e => h (Nat.add_right_cancel e)

/-- The other entries of a register family are other words. -/
theorem off_other_notMem {f g : Fld} (h : f.base = g.base) {m n : Nat} (hne : m ≠ n) : f.off m ∉ [g.off n] := by
  rw [List.mem_singleton]
  unfold Fld.off
  omega

theorem putRwi_only (s : State) (f : Fld) (i v : Nat) : Only 0x1FFFFFFFFFF s (s.putRwi f i v) := by
  unfold State.putRwi
  split
  · exact putRw_only s _ v
  · exact Only.refl _ s

/-! ### A queue's configuration (R358, R380) -/

theorem exec_adcQCfgWrite {s : State} (hon : s.pwr.mainOn = true) (q : Fin 8) (v : Nat) :
    exec (.adcQCfgWrite q v) s = .next (s.writeQCfg q v) := next_live hon _

theorem inRange_adcQCfg (q : Fin 8) (v : Nat) :
    inRange (ADC_Q_CFG_q.EN.off q) v = true ↔ bits v 29 2 ≤ 2 ∧ 1 ≤ bits v 0 13 ∧ bits v 0 13 ≤ 4095 := by
  rw [inRange_at (adcQCfg_entry q)]
  simp [adcQCfg, Lim.ok, ADC_Q_CFG_q.EN, ADC_Q_CFG_q.MODE, ADC_Q_CFG_q.DRAIN, ADC_Q_CFG_q.RING, ADC_Q_CFG_q.POST]

theorem writeQCfg_refused {s : State} {q : Fin 8} {v : Nat} (h : bits v 29 2 = 3 ∨ bits v 0 13 = 0 ∨ 4095 < bits v 0 13 ∨
    s.rdi RING_CFG_n.TYPE (bits v 22 6) ≠ 3) : s.writeQCfg q v = s.refuse ADC_STATUS.CFG_ERR := by
  refine if_pos ?_
  rcases h with hmode | hpost | hpost | hring
  · exact .inl hmode
  · refine .inr (.inl ?_)
    simp [Bool.eq_false_iff, inRange_adcQCfg, hpost]
  · refine .inr (.inl ?_)
    simp [Bool.eq_false_iff, inRange_adcQCfg, Nat.not_le.mpr hpost]
  · exact .inr (.inr hring)

/-- The queue has come to now, and has the word in its configuration. -/
def State.withQCfg (s : State) (q v : Nat) : State := (s.qRun q s.tm.e).putRwi ADC_Q_CFG_q.EN q v

/-- The queue starts empty in a state (R358, R380). -/
def State.qRestart (s : State) (q state : Nat) : State := (s.setQueue q (QSt.empty s.tm.e)).wri ADC_Q_STATUS_q.STATE q state

theorem writeQCfg_taken {s : State} {q : Fin 8} {v : Nat} (hmode : bits v 29 2 ≠ 3) (hlo : 1 ≤ bits v 0 13)
    (hhi : bits v 0 13 ≤ 4095) (hring : s.rdi RING_CFG_n.TYPE (bits v 22 6) = 3) :
    s.writeQCfg q v =
      if bits v 31 1 = 0 then (s.withQCfg q v).qRestart q 0
      else if s.biti ADC_Q_CFG_q.EN q = false then (s.withQCfg q v).qRestart q (if bits v 29 2 = 2 then 2 else 1)
      else if s.rdi ADC_Q_CFG_q.MODE q = bits v 29 2 then s.withQCfg q v
      else (s.withQCfg q v).wri ADC_Q_STATUS_q.STATE q (if bits v 29 2 = 2 then 2 else 1) := by
  have hlt := bits_lt v 29 2
  have hrange := (inRange_adcQCfg q v).mpr ⟨by omega, hlo, hhi⟩
  unfold State.writeQCfg
  dsimp only
  rw [if_neg (by simp [hmode, hrange, hring]), bits_one_eq_b2n]
  cases bitOf v 31 with
  | false => rfl
  | true =>
    cases s.biti ADC_Q_CFG_q.EN q with
    | false => rfl
    | true => rfl

theorem withQCfg_qlen (s : State) (q v : Nat) : (s.withQCfg q v).qlen = s.qlen := by
  unfold State.withQCfg State.qlen
  rw [(putRwi_only _ _ _ _).adc rfl]
  exact s.qRun_qlen q s.tm.e

theorem withQCfg_tm (s : State) (q v : Nat) : (s.withQCfg q v).tm = s.tm :=
  ((putRwi_only _ _ _ _).tm rfl).trans ((Only.qRun (Only.refl 0x1040100020000000 s) q s.tm.e rfl).tm rfl)

theorem qRestart_words (s : State) (q state : Nat) : WordsKept [ADC_Q_STATUS_q.STATE.off q] ADC_STATUS.CFG_ERR s (s.qRestart q state) :=
  have hq := List.mem_singleton.mpr rfl
  (WordsKept.setQueue hq s _).trans (.wri (by decide) hq)

theorem qRestart_shows {s : State} {q : Nat} (hq : q < s.qlen) (h8 : q < 8) {state : Nat} (hstate : state < 8) :
    (s.qRestart q state).qstate q = state ∧ (s.qRestart q state).queue q = QSt.empty s.tm.e := by
  refine ⟨(State.rdi_wri_self _ state h8).trans (Nat.mod_eq_of_lt hstate), ?_⟩
  unfold State.qRestart State.queue
  rw [State.wri_adc]
  exact s.queue_setQueue_self q _ hq

/-- Whatever follows the word, the five fields of the configuration have their bits of it (R380). -/
theorem writeQCfg_words {s : State} {q : Fin 8} {v : Nat} (hmode : bits v 29 2 ≠ 3) (hlo : 1 ≤ bits v 0 13)
    (hhi : bits v 0 13 ≤ 4095) (hring : s.rdi RING_CFG_n.TYPE (bits v 22 6) = 3) :
    WordsKept [ADC_Q_STATUS_q.STATE.off q] ADC_STATUS.CFG_ERR (s.withQCfg q v) (s.writeQCfg q v) := by
  rw [writeQCfg_taken hmode hlo hhi hring]
  exact .ite (qRestart_words _ _ _) (.ite (qRestart_words _ _ _) (.ite .refl (.wri (by decide) (List.mem_singleton.mpr rfl))))

theorem writeQCfg_fields {s : State} {q : Fin 8} {v : Nat} (hmode : bits v 29 2 ≠ 3) (hlo : 1 ≤ bits v 0 13)
    (hhi : bits v 0 13 ≤ 4095) (hring : s.rdi RING_CFG_n.TYPE (bits v 22 6) = 3) {f : Fld} (hf : f ∈ adcQCfg.writable.map FieldRow.f) :
    (s.writeQCfg q v).rdi f q = bits v f.lo f.w := by
  have hfield : ∀ g ∈ adcQCfg.writable.map FieldRow.f,
      g.base ≠ ADC_Q_STATUS_q.STATE.base ∧ g.count = 8 ∧ apart ADC_STATUS.CFG_ERR g = true := by decide
  obtain ⟨hbase, hcount, hapart⟩ := hfield f hf
  rw [writeQCfg_words hmode hlo hhi hring f q (off_notMem hbase q) hapart]
  exact putRwi_takes (adcQCfg_entry q) rfl (by decide) q.isLt _ v hf (by rw [hcount]; exact q.isLt)

/-! ### A capture is armed (R358, R381) -/

theorem exec_captureArm {s : State} (hon : s.pwr.mainOn = true) (q : Fin 8) : exec (.captureArm q) s = .next (s.qArm q) := next_live hon _

/-- A queue's run leaves its configuration. -/
theorem biti_qRun (s : State) (q now : Nat) : (s.qRun q now).biti ADC_Q_CFG_q.EN q = s.biti ADC_Q_CFG_q.EN q := by
  unfold State.biti
  rw [WordsKept.qRun (err := ADC_STATUS.CFG_ERR) (List.mem_singleton.mpr rfl) s now _ q (off_notMem (by decide) q) (by decide)]

/-- A closed capture of an enabled queue waits again, no longer marked TRUNC; any other queue runs up to now. -/
theorem qArm_eq (s : State) (q : Nat) : s.qArm q =
    if (s.qRun q s.tm.e).qstate q = 5 ∧ s.biti ADC_Q_CFG_q.EN q = true then
      ((s.qRun q s.tm.e).wri ADC_Q_STATUS_q.STATE q 2).wri ADC_Q_STATUS_q.TRUNC q 0
    else s.qRun q s.tm.e := by
  unfold State.qArm
  rw [← biti_qRun s q s.tm.e]

/-! ### Converters and the control samples (R344, R345, R350, R370, R372 to R374) -/

theorem exec_adcChCfgWrite {s : State} (hon : s.pwr.mainOn = true) (n : Fin 16) (v : Nat) :
    exec (.adcChCfgWrite n v) s = .next (s.writeChCfg n v) := next_live hon _

/-- Another converter has the function. -/
theorem otherHasFunc_iff (s : State) (n : Fin 16) (f : Nat) :
    (List.range 16).any (fun m => m != n.val && s.rdi ADC_CH_CFG_n.FUNC m == f) = true ↔
      ∃ m : Fin 16, m ≠ n ∧ s.rdi ADC_CH_CFG_n.FUNC m = f := by
  simp only [List.any_eq_true, List.mem_range, Bool.and_eq_true, bne_iff_ne, beq_iff_eq]
  exact ⟨fun ⟨m, hm, hne, hf⟩ => ⟨⟨m, hm⟩, fun h => hne (congrArg Fin.val h), hf⟩,
    fun ⟨m, hne, hf⟩ => ⟨m, m.isLt, fun h => hne (Fin.ext h), hf⟩⟩

/-- Function 17 and up, TESTLVL 3, a second converter of a function, and a function with no full scale are refused (R372). -/
theorem writeChCfg_refused {s : State} {n : Fin 16} {v : Nat} (h : 16 < bits v 24 5 ∨ bits v 22 2 = 3 ∨
    (1 ≤ bits v 24 5 ∧ bits v 24 5 ≤ 15 ∧ (bits v 0 16 = 0 ∨ ∃ m : Fin 16, m ≠ n ∧ s.rdi ADC_CH_CFG_n.FUNC m = bits v 24 5))) :
    s.writeChCfg n v = s.refuse ADC_STATUS.CFG_ERR := by
  refine if_pos ?_
  rcases h with hfunc | hlvl | ⟨hlo, hhi, hfs | hother⟩
  · exact .inl hfunc
  · exact .inr (.inl hlvl)
  · exact .inr (.inr (.inr (.inl ⟨hlo, hhi, hfs⟩)))
  · exact .inr (.inr (.inl ⟨hlo, hhi, (otherHasFunc_iff s n _).mpr hother⟩))

/-- A function that is free, with a full scale, is taken by a converter that has none, or while every cell is blocked (R345, R372). -/
theorem writeChCfg_taken {s : State} {n : Fin 16} {v : Nat} (hfunc : bits v 24 5 ≤ 16) (hlvl : bits v 22 2 ≠ 3)
    (hfree : 1 ≤ bits v 24 5 → bits v 24 5 ≤ 15 → 1 ≤ bits v 0 16 ∧ ∀ m : Fin 16, m ≠ n → s.rdi ADC_CH_CFG_n.FUNC m ≠ bits v 24 5)
    (hold : s.allBlocked = true ∨ s.rdi ADC_CH_CFG_n.FUNC n = 0 ∨ 16 ≤ s.rdi ADC_CH_CFG_n.FUNC n) :
    s.writeChCfg n v = s.putRwi ADC_CH_CFG_n.EN n v := by
  refine if_neg ?_
  rintro (h | h | ⟨hlo, hhi, hother⟩ | ⟨hlo, hhi, hfs⟩ | ⟨hlo, hhi, -, hopen⟩)
  · omega
  · exact hlvl h
  · obtain ⟨m, hne, hf⟩ := (otherHasFunc_iff s n _).mp hother
    exact (hfree hlo hhi).2 m hne hf
  · have := (hfree hlo hhi).1
    omega
  · rcases hold with hblocked | hnone | hnone
    · simp [hblocked] at hopen
    · omega
    · omega

theorem exec_adcChCalWrite {s : State} (hon : s.pwr.mainOn = true) (n : Fin 16) (v : Nat) :
    exec (.adcChCalWrite n v) s = .next (s.writeChCal n v) := next_live hon _

theorem inRange_adcChCal (n : Fin 16) (v : Nat) :
    inRange (ADC_CH_CAL_n.GAIN.off n) v = true ↔ 8192 ≤ bits v 16 16 ∧ bits v 16 16 ≤ 32767 := by
  rw [inRange_at (adcChCal_entry n)]
  simp [adcChCal, Lim.ok, ADC_CH_CAL_n.GAIN, ADC_CH_CAL_n.OFFSET]

theorem writeChCal_eq (s : State) (n : Fin 16) (v : Nat) : s.writeChCal n v =
    if 8192 ≤ bits v 16 16 ∧ bits v 16 16 ≤ 32767 then s.putRwi ADC_CH_CAL_n.GAIN n v else s.refuse ADC_STATUS.CFG_ERR := by
  unfold State.writeChCal
  simp only [Bool.not_eq_true', ← Bool.not_eq_true, inRange_adcChCal, ite_not]

theorem exec_adcCtlCfgWrite {s : State} (hon : s.pwr.mainOn = true) (v : Nat) :
    exec (.adcCtlCfgWrite v) s = .next (s.writeCtlCfg v) := next_live hon _

theorem exec_adcCalConverged {s : State} (hon : s.pwr.mainOn = true) (n : Fin 16) :
    exec (.adcCalConverged n) s = .next (s.wr ADC_STATUS.CAL_DONE (setBit (s.rd ADC_STATUS.CAL_DONE) n)) := next_live hon _

theorem exec_adcSwTrig {s : State} (hon : s.pwr.mainOn = true) (v e : Nat) :
    exec (.adcSwTrig v e) s = .next ((s.moveTo e).swTrig v) := next_live hon _

/-! ### A comparator's configuration (R365, R367, R368, R388, R389) -/

theorem exec_cmpCfgWrite {s : State} (hon : s.pwr.mainOn = true) (n : Fin 16) (ramp : Bool) (v : Nat) :
    exec (.cmpCfgWrite n ramp v) s = .next (s.writeCmp n ramp v) := next_live hon _

theorem inRange_cmpCfg (n : Fin 16) (v : Nat) : inRange (CMP_CFG_n.MODE.off n) v = true ↔ bits v 23 5 ≤ 16 := by
  rw [inRange_at (cmpCfg_entry n)]
  simp [cmpCfg, Lim.ok, CMP_CFG_n.MODE, CMP_CFG_n.RAMP, CMP_CFG_n.CLR, CMP_CFG_n.PERIOD_SRC, CMP_CFG_n.FILT, CMP_CFG_n.HYS,
    CMP_CFG_n.REF]

/-- A ramp goes on from where it is (R368). -/
def State.holdRamp (s : State) (n : Nat) : State :=
  (s.cmpSettle n).updCmp n (fun x => { x with base := (s.cmpSettle n).cmpRef n, baseAt := (s.cmpSettle n).tm.e })

/-- Where its ramp is, comparator `n` takes a word of a register (R368). -/
def State.cmpWord (s : State) (g : Fld) (n v : Nat) : State := (s.holdRamp n).putRwi g n v

/-- What follows a comparator's word: with MODE 0 it is never active, else it looks (R368). -/
def State.cmpFollow (s : State) (n : Nat) : State :=
  if s.rdi CMP_CFG_n.MODE n = 0 then (s.updCmp n (fun x => { x with raw := false })).cmpSet n false else s.cmpEval n

theorem writeCmp_ramp (s : State) (n v : Nat) :
    s.writeCmp n true v = (s.cmpWord CMP_RAMP_n.SLOPE n v).cmpFollow n := if_neg (by simp)

theorem writeCmp_taken (s : State) {n : Fin 16} {v : Nat} (hsrc : bits v 23 5 ≤ 16) :
    s.writeCmp n false v = (s.cmpWord CMP_CFG_n.MODE n v).cmpFollow n :=
  if_neg (by simp [(inRange_cmpCfg n v).mpr hsrc, hsrc])

theorem writeCmp_refused (s : State) {n : Fin 16} {v : Nat} (hsrc : 16 < bits v 23 5) :
    s.writeCmp n false v = s.refuse ADC_STATUS.CFG_ERR := if_pos ⟨rfl, .inr hsrc⟩

theorem holdRamp_looks (s : State) (n : Nat) : ComparatorsLook s (s.holdRamp n) :=
  (ComparatorsLook.cmpSettle s n).trans (.updCmp _ n _)

theorem cmpFollow_looks (s : State) (n : Nat) : ComparatorsLook s (s.cmpFollow n) :=
  .ite ((ComparatorsLook.updCmp s n _).trans (.cmpSet _ n false)) (.cmpEval s n)

/-- A comparison that agrees with the output behind the filter has nothing to pass. -/
theorem cmpSettle_agrees {s : State} {n : Nat} (h : (s.cmp n).raw = bitOf s.slc.live n) : s.cmpSettle n = s :=
  if_neg fun hne => hne.1 h

theorem cmp_updCmp (s : State) (n : Nat) (g : CmpSt → CmpSt) :
    (s.updCmp n g).cmp n = if n < s.adc.cmp.length then g (s.cmp n) else s.cmp n := by
  unfold State.updCmp State.cmp
  by_cases hn : n < s.adc.cmp.length
  · simp [List.getD_eq_getElem?_getD, hn]
  · simp [List.getD_eq_getElem?_getD, hn]

theorem raw_updCmp (s : State) (n : Nat) {g : CmpSt → CmpSt} (hg : ∀ x, (g x).raw = x.raw) :
    ((s.updCmp n g).cmp n).raw = (s.cmp n).raw := by
  rw [cmp_updCmp, apply_ite CmpSt.raw, hg, ite_self]

/-- With a filter, a comparator whose output agrees with its comparison changes nothing but its analog side when it looks (R366). -/
theorem cmpEval_filtered {s : State} {n : Nat} (hagree : (s.cmp n).raw = bitOf s.slc.live n) (hfilt : 1 ≤ s.rdi CMP_CFG_n.FILT n) :
    ∃ x, s.cmpEval n = { s with adc := x } := by
  unfold State.cmpEval
  rw [cmpSettle_agrees hagree]
  extract_lets u v
  by_cases hv : v = (s.cmp n).raw
  · exact ⟨s.adc, if_pos hv⟩
  · rw [if_neg hv]
    refine ⟨_, if_neg fun ⟨hne, hstood⟩ => ?_⟩
    rw [cmp_updCmp] at hne hstood
    by_cases hn : n < s.adc.cmp.length
    · rw [if_pos hn] at hstood
      have : s.tm.e + s.rdi CMP_CFG_n.FILT n * 4 ≤ s.tm.e := hstood
      omega
    · rw [if_neg hn] at hne
      exact hne hagree

/-- A comparator that is made inactive shows it, and keeps its latch (R367). -/
theorem cmpSet_inactive (s : State) (n : Nat) : (s.cmpSet n false).slc.live = clrBit s.slc.live n ∧
    (s.cmpSet n false).rd CMP_STATUS.LATCH = s.rd CMP_STATUS.LATCH := by
  unfold State.cmpSet
  extract_lets live was latched u x v
  rw [if_pos (show (!false) = true from rfl)]
  have hu : u.regs = s.regs := by
    unfold u
    split <;> rfl
  refine ⟨congrArg SlcSt.live (State.wri_slc _ CMP_STATUS.LIVE 0 live), ?_⟩
  exact (State.rd_wr_apart _ live (by decide)).trans (rdi_of_regs hu _ 0)

/-- A comparator with MODE 0 shows no activity and keeps its latch (R367, R368). -/
theorem cmpFollow_off {s : State} {n : Nat} (hmode : s.rdi CMP_CFG_n.MODE n = 0) :
    (s.cmpFollow n).slc.live = clrBit s.slc.live n ∧ (s.cmpFollow n).rd CMP_STATUS.LATCH = s.rd CMP_STATUS.LATCH := by
  unfold State.cmpFollow
  rw [if_pos hmode]
  exact cmpSet_inactive _ n

/-- With a filter, a comparator that agrees with its output goes on as it was when its word is written (R366, R368). -/
theorem cmpFollow_filtered {s : State} {n : Nat} (hagree : (s.cmp n).raw = bitOf s.slc.live n) (hmode : s.rdi CMP_CFG_n.MODE n ≠ 0)
    (hfilt : 1 ≤ s.rdi CMP_CFG_n.FILT n) : (s.cmpFollow n).slc = s.slc ∧ (s.cmpFollow n).rd CMP_STATUS.LATCH = s.rd CMP_STATUS.LATCH := by
  obtain ⟨x, hx⟩ := cmpEval_filtered hagree hfilt
  unfold State.cmpFollow
  rw [if_neg hmode, hx]
  exact ⟨rfl, rfl⟩

/-- The ramp's hold of a comparator that agrees with its output changes its analog side alone. -/
theorem holdRamp_agrees {s : State} {n : Nat} (hagree : (s.cmp n).raw = bitOf s.slc.live n) :
    (s.holdRamp n).slc = s.slc ∧ (s.holdRamp n).regs = s.regs ∧ ((s.holdRamp n).cmp n).raw = bitOf (s.holdRamp n).slc.live n := by
  unfold State.holdRamp
  rw [cmpSettle_agrees hagree]
  refine ⟨rfl, rfl, ?_⟩
  rw [raw_updCmp]
  · exact hagree
  · exact fun _ => rfl

section Word
variable {g : Fld} {n : Nat} (hword : g.base % 4 = 0) (hoff : CMP_STATUS.LATCH.off 0 ≠ g.off n)
include hword hoff

theorem putRwi_latch (s : State) (v : Nat) : (s.putRwi g n v).rd CMP_STATUS.LATCH = s.rd CMP_STATUS.LATCH :=
  WordsKept.putRwi (err := ADC_STATUS.CFG_ERR) (Fld.off_mod hword n) List.mem_cons_self CMP_STATUS.LATCH 0
    (fun h => hoff (List.mem_singleton.mp h)) (by decide)

/-- A comparator's word takes no latch back (R367). -/
theorem cmpWord_latched {s : State} {v m : Nat} (hm : m < 16) (h : bitOf (s.rd CMP_STATUS.LATCH) m = true) :
    bitOf (((s.cmpWord g n v).cmpFollow n).rd CMP_STATUS.LATCH) m = true := by
  refine (cmpFollow_looks _ n).latched m hm ?_
  unfold State.cmpWord
  rw [putRwi_latch hword hoff]
  exact (holdRamp_looks s n).latched m hm h

/-- A comparator that agrees with its output does so after its word, and its word sets no latch. -/
theorem cmpWord_agrees {s : State} (hagree : (s.cmp n).raw = bitOf s.slc.live n) (v : Nat) :
    (s.cmpWord g n v).slc = s.slc ∧ (s.cmpWord g n v).rd CMP_STATUS.LATCH = s.rd CMP_STATUS.LATCH ∧
      ((s.cmpWord g n v).cmp n).raw = bitOf (s.cmpWord g n v).slc.live n := by
  obtain ⟨hslc, hregs, hraw⟩ := holdRamp_agrees hagree
  have hput := putRwi_only (s.holdRamp n) g n v
  unfold State.cmpWord
  refine ⟨(hput.slc rfl).trans hslc, (putRwi_latch hword hoff _ v).trans (rdi_of_regs hregs _ 0), ?_⟩
  unfold State.cmp at hraw ⊢
  rw [hput.adc rfl, hput.slc rfl]
  exact hraw

/-- The word and what follows it change no output of a comparator that agrees with its filtered output (R366, R368). -/
theorem cmpWord_filtered {s : State} {v : Nat} (hagree : (s.cmp n).raw = bitOf s.slc.live n)
    (hmode : (s.cmpWord g n v).rdi CMP_CFG_n.MODE n ≠ 0) (hfilt : 1 ≤ (s.cmpWord g n v).rdi CMP_CFG_n.FILT n) :
    ((s.cmpWord g n v).cmpFollow n).rd CMP_STATUS.LATCH = s.rd CMP_STATUS.LATCH ∧ ((s.cmpWord g n v).cmpFollow n).slc = s.slc := by
  obtain ⟨hslc, hlatch, hraw⟩ := cmpWord_agrees hword hoff hagree v
  obtain ⟨hslc', hlatch'⟩ := cmpFollow_filtered hraw hmode hfilt
  exact ⟨hlatch'.trans hlatch, hslc'.trans hslc⟩

end Word

/-! ### A clear of the latches (R367) -/

/-- Comparator `n`'s latch can be cleared: it is not active, nor was it in this period of 4 ns (R367). -/
def State.unlatches (s : State) (n : Nat) : Bool :=
  !bitOf s.slc.live n && !(s.cmp n).setAt.any (fun x => decide (x / 4 = s.tm.e / 4))

/-- A clear reaches comparator `n`: its bit is written, software clears it, and it can be cleared. -/
def State.clears (s : State) (v n : Nat) : Bool := bitOf v n && s.rdi CMP_CFG_n.CLR n == 0 && s.unlatches n

/-- One comparator's turn in a clear. -/
def State.clearTurn (v : Nat) (s : State) (n : Nat) : State :=
  if bitOf v n && s.rdi CMP_CFG_n.CLR n == 0 then s.cmpUnlatch n else s

theorem cmpClear_eq (s : State) (v : Nat) : s.cmpClear v = (List.range 16).foldl (State.clearTurn v) s.cmpLook := rfl

theorem cmpUnlatch_eq (s : State) (n : Nat) : s.cmpUnlatch n =
    if s.unlatches n = true then s.wr CMP_STATUS.LATCH (clrBit (s.rd CMP_STATUS.LATCH) n) else s := by
  unfold State.cmpUnlatch State.unlatches
  cases bitOf s.slc.live n <;> cases (s.cmp n).setAt <;> simp

theorem clearTurn_eq (s : State) (v n : Nat) : s.clearTurn v n =
    if s.clears v n = true then s.wr CMP_STATUS.LATCH (clrBit (s.rd CMP_STATUS.LATCH) n) else s := by
  unfold State.clearTurn State.clears
  rw [cmpUnlatch_eq]
  cases bitOf v n && s.rdi CMP_CFG_n.CLR n == 0
  · rfl
  · rfl

/-- From `s` to `t` only latches other than comparator `n`'s were cleared. -/
structure OthersCleared (n : Nat) (s t : State) : Prop where
  slc : t.slc = s.slc
  adc : t.adc = s.adc
  tm : t.tm = s.tm
  clr : ∀ i, t.rdi CMP_CFG_n.CLR i = s.rdi CMP_CFG_n.CLR i
  latch : bitOf (t.rd CMP_STATUS.LATCH) n = bitOf (s.rd CMP_STATUS.LATCH) n

namespace OthersCleared
variable {n : Nat} {s t u : State}

theorem refl (s : State) : OthersCleared n s s := ⟨rfl, rfl, rfl, fun _ => rfl, rfl⟩

theorem trans (h : OthersCleared n s t) (g : OthersCleared n t u) : OthersCleared n s u :=
  ⟨g.slc.trans h.slc, g.adc.trans h.adc, g.tm.trans h.tm, fun i => (g.clr i).trans (h.clr i), g.latch.trans h.latch⟩

theorem clears (h : OthersCleared n s t) (v : Nat) : t.clears v n = s.clears v n := by
  unfold State.clears State.unlatches State.cmp
  rw [h.slc, h.adc, h.tm, h.clr]

end OthersCleared

/-- The turn of a comparator below 16 that the clear reaches takes its latch's bit away. -/
theorem bitOf_clearTurn (s : State) (v : Nat) {n : Nat} (m : Nat) (hn : n < 16) :
    bitOf ((s.clearTurn v m).rd CMP_STATUS.LATCH) n =
      (bitOf (s.rd CMP_STATUS.LATCH) n && !(s.clears v m && decide (m = n))) := by
  rw [clearTurn_eq]
  cases s.clears v m with
  | false => simp
  | true =>
    rw [if_pos rfl, s.rd_wr_self _ (by decide), Bool.true_and, ← bitOf_clrBit]
    exact bitOf_mod _ 16 _ hn

theorem clearTurn_others (s : State) (v : Nat) {n m : Nat} (hn : n < 16) (hne : m ≠ n) : OthersCleared n s (s.clearTurn v m) where
  latch := by simp [bitOf_clearTurn s v m hn, hne]
  slc := by
    rw [clearTurn_eq]
    split
    · exact s.wri_slc ..
    · rfl
  adc := by
    rw [clearTurn_eq]
    split
    · exact s.wri_adc ..
    · rfl
  tm := by
    rw [clearTurn_eq]
    split
    · exact s.wri_tm ..
    · rfl
  clr i := by
    rw [clearTurn_eq]
    split
    · exact s.rdi_wri_apart 0 i _ (by decide)
    · rfl

theorem clearTurn_live (s : State) (v n : Nat) : (s.clearTurn v n).rd CMP_STATUS.LIVE = s.rd CMP_STATUS.LIVE := by
  rw [clearTurn_eq]
  split
  · exact s.rd_wr_apart _ (by decide)
  · rfl

/-- A clear takes the latches that it reaches, as the comparators stand after their look, and no other (R367). -/
theorem bitOf_cmpClear (s : State) (v : Nat) (n : Fin 16) : bitOf ((s.cmpClear v).rd CMP_STATUS.LATCH) n =
    (bitOf (s.cmpLook.rd CMP_STATUS.LATCH) n && !s.cmpLook.clears v n) := by
  obtain ⟨u, hu, ht⟩ := foldl_ownTurn OthersCleared.refl OthersCleared.trans (op := State.clearTurn v) (n := n.val)
    (fun s m hne => clearTurn_others s v n.isLt hne) List.nodup_range (List.mem_range.mpr n.isLt) s.cmpLook
  rw [cmpClear_eq, ht.latch, bitOf_clearTurn u v n n.isLt, hu.latch, hu.clears]
  simp

theorem cmpClear_live (s : State) (v : Nat) : (s.cmpClear v).rd CMP_STATUS.LIVE = s.cmpLook.rd CMP_STATUS.LIVE :=
  foldl_keep (fun u => u.rd CMP_STATUS.LIVE) (State.clearTurn v) (fun u m => clearTurn_live u v m) _ _

theorem exec_cmpLatchClear {s : State} (hon : s.pwr.mainOn = true) (v e : Nat) :
    exec (.cmpLatchClear v e) s = .next ((s.moveTo e).cmpClear v) := next_live hon _

/-- The clear's reach, from the comparators' configuration before their look. -/
theorem clears_cmpLook (s : State) (v n e : Nat) : (s.moveTo e).cmpLook.clears v n =
    (bitOf v n && s.rdi CMP_CFG_n.CLR n == 0 && !bitOf (s.moveTo e).cmpLook.slc.live n &&
      !((s.moveTo e).cmpLook.cmp n).setAt.any (fun x => decide (x / 4 = (s.moveTo e).tm.e / 4))) := by
  unfold State.clears State.unlatches
  rw [(ComparatorsLook.cmpLook _).fields _ _ (by decide), rdi_of_regs (moveTo_regs s e),
    (Only.cmpLook (Only.refl 0x1d425101a0000200 (s.moveTo e)) rfl).tm rfl, ← Bool.and_assoc]

/-! ### The clauses -/

theorem cmpCfg_word {s : State} (n : Fin 16) (v : Nat) {f : Fld} (hf : f ∈ cmpCfg.writable.map FieldRow.f) :
    (s.cmpWord CMP_CFG_n.MODE n v).rdi f n = bits v f.lo f.w := by
  have hcount : ∀ g ∈ cmpCfg.writable.map FieldRow.f, g.count = 16 := by decide
  exact putRwi_takes (cmpCfg_entry n) rfl (by decide) n.isLt _ v hf (by rw [hcount f hf]; exact n.isLt)

/-- A write of a comparator's configuration takes its fields (R388). -/
theorem writeCmp_fields {s : State} {n : Fin 16} {v : Nat} (hsrc : bits v 23 5 ≤ 16) {f : Fld} (hf : f ∈ cmpCfg.writable.map FieldRow.f) :
    (s.writeCmp n false v).rdi f n = bits v f.lo f.w := by
  have hlook : ∀ g ∈ cmpCfg.writable.map FieldRow.f, offLook g = true := by decide
  rw [writeCmp_taken s hsrc, (cmpFollow_looks _ n).fields f n (hlook f hf)]
  exact cmpCfg_word n v hf

/-- CMP_STATUS is none of the comparators' own words. -/
theorem cmpStatus_off (n : Fin 16) : CMP_STATUS.LATCH.off 0 ≠ CMP_CFG_n.MODE.off n ∧ CMP_STATUS.LATCH.off 0 ≠ CMP_RAMP_n.SLOPE.off n := by
  revert n
  decide

/-- A ramp's word leaves the comparator's configuration. -/
theorem cmpRamp_word_fields (s : State) (n : Fin 16) (v : Nat) {f : Fld} (hf : f ∈ cmpCfg.writable.map FieldRow.f) :
    (s.cmpWord CMP_RAMP_n.SLOPE n v).rdi f n = s.rdi f n := by
  have hcfg : ∀ g ∈ cmpCfg.writable.map FieldRow.f,
      g.base ≠ CMP_RAMP_n.SLOPE.base ∧ apart ADC_STATUS.CFG_ERR g = true ∧ offLook g = true := by decide
  obtain ⟨hbase, hapart, hlook⟩ := hcfg f hf
  refine Eq.trans ?_ ((holdRamp_looks s n).fields f n hlook)
  exact WordsKept.putRwi (Fld.off_mod rfl n) List.mem_cons_self f n (off_notMem hbase n) hapart

/-- Awake, the triggers that a software firing names join the firings still to come (R352, R379). -/
theorem swTrig_fire {s : State} (v e : Nat) (hawake : s.bit PWR_STATUS.SLEEP = false) : ((s.moveTo e).swTrig v).adc.fire =
    s.adc.fire.filter (fun x => decide ((s.moveTo e).tm.e ≤ x.2 + 65536)) ++
      ((List.range 16).filter (fun n => s.biti ADC_TRIG_CFG_t.EN n && (bitOf v n && s.rdi ADC_TRIG_CFG_t.SRC n == 5))).map
        (fun n => (n, (s.moveTo e).tm.e)) := by
  unfold State.swTrig State.trigEvent
  rw [if_neg (by simp only [State.bit, rd_moveTo]; exact ne_true_of_eq_false hawake)]
  simp only [State.biti, rdi_of_regs (moveTo_regs s e), State.moveTo_adc]

theorem swTrig_asleep {s : State} (v e : Nat) (hsleep : s.bit PWR_STATUS.SLEEP = true) : (s.moveTo e).swTrig v = s.moveTo e :=
  if_pos (by simp only [State.bit, rd_moveTo]; exact hsleep)

theorem swTrig_regs (s : State) (v : Nat) : (s.swTrig v).regs = s.regs := by
  unfold State.swTrig State.trigEvent
  split <;> rfl

/-- Settles O25: each configuration command is one of the writes above, taken or refused, and its clause lists the fields of
that write. -/
theorem acquisitionConfiguration : Obligations.AcquisitionConfiguration := by
  unfold Obligations.AcquisitionConfiguration
  refine ⟨?_, ?_, ?_, ?_, ?_, ?_, ?_, ?_, ?_, ?_, ?_, ?_, ?_⟩
  · intro s q v hon h
    refine ⟨_, exec_adcQCfgWrite hon q v, ?_⟩
    rw [writeQCfg_refused h]
    exact ⟨rd_refuse_self s rfl (by decide), s.wri_adc .., s.rdi_wri_apart 0 q _ (by decide), s.rdi_wri_apart 0 q _ (by decide),
      s.rdi_wri_apart 0 q _ (by decide)⟩
  · intro s q v hon hmode hlo hhi hring hlen
    have hfield {f : Fld} (hf : f ∈ adcQCfg.writable.map FieldRow.f) := writeQCfg_fields (s := s) (q := q) hmode hlo hhi hring hf
    have hq : q.val < (s.withQCfg q v).qlen := by
      rw [withQCfg_qlen, State.qlen, hlen]
      exact q.isLt
    refine ⟨_, exec_adcQCfgWrite hon q v, hfield (by decide), hfield (by decide), hfield (by decide), hfield (by decide),
      hfield (by decide), fun hen => ?_, fun hen hwas => ?_⟩
    · rw [writeQCfg_taken hmode hlo hhi hring, if_pos hen, ← withQCfg_tm s q v]
      exact qRestart_shows hq q.isLt (by decide)
    · rw [writeQCfg_taken hmode hlo hhi hring, if_neg (by omega), if_pos hwas, ← withQCfg_tm s q v]
      exact qRestart_shows hq q.isLt (by split <;> decide)
  · intro s q hon
    refine ⟨_, exec_captureArm hon q, fun hclosed => ?_, fun hopen => ?_⟩
    · rw [qArm_eq, if_pos hclosed]
      refine ⟨?_, State.rdi_wri_self (f := ADC_Q_STATUS_q.TRUNC) _ 0 q.isLt, by rw [State.wri_adc, State.wri_adc]⟩
      exact (State.rdi_wri_apart _ q q 0 (by decide)).trans (State.rdi_wri_self (f := ADC_Q_STATUS_q.STATE) _ 2 q.isLt)
    · rw [qArm_eq, if_neg hopen]
  · intro s u v e hon hu
    rw [hu]
    refine ⟨_, exec_cmpLatchClear hon v e, cmpClear_live _ v, fun n => ?_⟩
    rw [bitOf_cmpClear, clears_cmpLook]
  · intro s n v hon
    have hoff := (cmpStatus_off n).2
    refine ⟨_, exec_cmpCfgWrite hon n true v, ?_⟩
    rw [writeCmp_ramp]
    refine ⟨?_, fun m => cmpWord_latched rfl hoff m.isLt, fun hagree hmode hfilt => ?_⟩
    · rw [(cmpFollow_looks _ n).fields _ n (by decide)]
      exact putRwi_takes (cmpRamp_entry n) rfl (by decide) n.isLt _ v (by decide) n.isLt
    · exact cmpWord_filtered rfl hoff hagree (by rwa [cmpRamp_word_fields s n v (by decide)])
        (by rwa [cmpRamp_word_fields s n v (by decide)])
  · intro s n v hon hsrc
    have hoff := (cmpStatus_off n).1
    have hfield {f : Fld} (hf : f ∈ cmpCfg.writable.map FieldRow.f) := writeCmp_fields (s := s) (n := n) hsrc hf
    have hmode : (s.cmpWord CMP_CFG_n.MODE n v).rdi CMP_CFG_n.MODE n = bits v 30 2 := cmpCfg_word n v (by decide)
    have hfilt : (s.cmpWord CMP_CFG_n.MODE n v).rdi CMP_CFG_n.FILT n = bits v 20 3 := cmpCfg_word n v (by decide)
    refine ⟨_, exec_cmpCfgWrite hon n false v, hfield (by decide), hfield (by decide), hfield (by decide), hfield (by decide),
      hfield (by decide), hfield (by decide), hfield (by decide), ?_⟩
    rw [writeCmp_taken s hsrc]
    refine ⟨fun m => cmpWord_latched rfl hoff m.isLt, fun h0 => ?_, fun hagree h => ?_, fun hagree hactive hf => ?_⟩
    · rw [(cmpFollow_off (hmode.trans h0)).1, bitOf_clrBit, decide_eq_true rfl, Bool.not_true, Bool.and_false]
    · by_cases h0 : bits v 30 2 = 0
      · exact (cmpFollow_off (hmode.trans h0)).2.trans (cmpWord_agrees rfl hoff hagree v).2.1
      · exact (cmpWord_filtered rfl hoff hagree (hmode ▸ h0) (hfilt ▸ h.resolve_left h0)).1
    · exact (cmpWord_filtered rfl hoff hagree (hmode ▸ hactive) (hfilt ▸ hf)).2
  · intro s n v hon hsrc
    refine ⟨_, exec_cmpCfgWrite hon n false v, ?_⟩
    rw [writeCmp_refused s hsrc]
    exact ⟨rd_refuse_self s rfl (by decide), s.wri_slc .., s.rdi_wri_apart 0 n _ (by decide), s.rdi_wri_apart 0 n _ (by decide)⟩
  · intro s n v hon hfunc hlvl hfree hold
    refine ⟨_, exec_adcChCfgWrite hon n v, ?_⟩
    have hfield {f : Fld} (hf : f ∈ adcChCfg.writable.map FieldRow.f) (hcount : n.val < f.count) :=
      putRwi_takes (adcChCfg_entry n) rfl (by decide) n.isLt s v hf hcount
    have hother (m : Nat) (hm : m ≠ n.val) :=
      writeChCfg_words s n v ADC_CH_CFG_n.FUNC m (off_other_notMem rfl hm) (by decide)
    rw [writeChCfg_taken hfunc hlvl hfree hold] at hother ⊢
    exact ⟨hfield (by decide) n.isLt, hfield (by decide) n.isLt, hfield (by decide) n.isLt, hfield (by decide) n.isLt,
      hfield (by decide) n.isLt, hfield (by decide) n.isLt, hother⟩
  · intro s n v hon h
    refine ⟨_, exec_adcChCfgWrite hon n v, ?_⟩
    rw [writeChCfg_refused h]
    exact ⟨rd_refuse_self s rfl (by decide), fun m => s.rdi_wri_apart 0 m _ (by decide)⟩
  · intro s n v hon
    refine ⟨_, exec_adcChCalWrite hon n v, ?_⟩
    rw [writeChCal_eq]
    split
    · next hrange =>
      refine ⟨(putRwi_only ..).adc rfl, fun _ => ⟨?_, ?_⟩, fun h => by omega⟩
      · exact putRwi_takes (adcChCal_entry n) rfl (by decide) n.isLt s v (by decide) n.isLt
      · exact putRwi_takes (adcChCal_entry n) rfl (by decide) n.isLt s v (by decide) n.isLt
    · next hrange =>
      exact ⟨s.wri_adc .., fun h => absurd h hrange, fun _ =>
        ⟨rd_refuse_self s rfl (by decide), s.rdi_wri_apart 0 n _ (by decide), s.rdi_wri_apart 0 n _ (by decide)⟩⟩
  · intro s v hon
    refine ⟨_, exec_adcCtlCfgWrite hon v, fun ⟨hnavg, hdelay⟩ => ?_, fun h => ?_⟩
    · rw [show s.writeCtlCfg v = _ from if_neg (by omega)]
      exact ⟨putRw_takes adcCtlCfg_found (by decide) s v (by decide) (by decide),
        putRw_takes adcCtlCfg_found (by decide) s v (by decide) (by decide)⟩
    · rw [show s.writeCtlCfg v = _ from if_pos h]
      exact ⟨rd_refuse_self s rfl (by decide), s.rd_wr_apart _ (by decide), s.rd_wr_apart _ (by decide)⟩
  · intro s n hon
    refine ⟨_, exec_adcCalConverged hon n, fun m => ?_⟩
    rw [s.rd_wr_self _ (by decide), show decide (n = m) = decide (n.val = m.val) from decide_eq_decide.mpr Fin.ext_iff,
      ← bitOf_setBit]
    exact bitOf_mod _ 16 _ m.isLt
  · intro s v e hon
    refine ⟨_, exec_adcSwTrig hon v e, (swTrig_regs _ v).trans (moveTo_regs s e), fun hsleep => ?_, swTrig_fire v e⟩
    rw [swTrig_asleep v e hsleep, State.moveTo_adc]

end Sys2Proof.Machine
end

section
/-! PROOFS. A comparator of a MODE that its register cannot hold (10_acquisition.md R365, R388): O26. -/
namespace Sys2Proof.Machine
open Reg

/-- A comparator whose output agrees with its comparison stays as it is when it looks. -/
theorem cmpEval_agrees {s : State} {n : Nat} (hagree : (s.cmp n).raw = bitOf s.slc.live n) (his : s.cmpIs n = (s.cmp n).raw) :
    s.cmpEval n = s := by
  unfold State.cmpEval
  rw [cmpSettle_agrees hagree]
  exact if_pos his

/-- Without a filter, a comparison that changes passes at once (R366). -/
theorem cmpEval_passes {s : State} {n : Nat} (hagree : (s.cmp n).raw = bitOf s.slc.live n) (his : s.cmpIs n ≠ (s.cmp n).raw)
    (hn : n < s.adc.cmp.length) (hfilt : s.rdi CMP_CFG_n.FILT n = 0) :
    s.cmpEval n = (s.updCmp n (fun x => { x with raw := s.cmpIs n, rawAt := s.tm.e })).cmpSet n (s.cmpIs n) := by
  unfold State.cmpEval
  rw [cmpSettle_agrees hagree]
  extract_lets u v
  rw [if_neg his]
  unfold State.cmpSettle
  rw [cmp_updCmp, if_pos hn]
  refine if_pos ⟨hagree ▸ his, ?_⟩
  have hstood : s.tm.e + s.rdi CMP_CFG_n.FILT n * 4 ≤ s.tm.e := by rw [hfilt, Nat.zero_mul, Nat.add_zero]
  exact hstood

/-- The state after reset, but for comparator 0's MODE, which holds a value beyond its two bits. -/
def strayMode : State := { State.reset with regs := tput regDefault State.reset.regs (CMP_CFG_n.MODE.key 0) 4 }

/-- Comparator 0's input is at `x`. -/
def strayInput (x : Int) : State := strayMode.updCmp 0 (fun y => { y with input := x })

theorem strayInput_mode (x : Int) (m : Nat) : (strayInput x).rdi CMP_CFG_n.MODE m = if m = 0 then 4 else 0 := by
  have hrow : ∀ m : Fin 16, strayMode.rdi CMP_CFG_n.MODE m = if m.val = 0 then 4 else 0 := by decide
  by_cases hm : m < 16
  · exact hrow ⟨m, hm⟩
  · rw [if_neg (by omega)]
    exact if_neg hm

/-- MODE 4 compares as MODE 3 does: the input's amount against the reference, which is 0. -/
theorem strayInput_compares (x : Int) : (strayInput x).cmpIs 0 = decide (x ≠ 0) := by
  have hinput : (strayInput x).cmp 0 = ⟨x, false, 0, 0, 0, none⟩ := rfl
  have hramp : strayMode.biti CMP_CFG_n.RAMP 0 = false := by decide
  have hlevel : strayMode.rdsi CMP_CFG_n.REF 0 * 64 = 0 := by decide
  have href : (strayInput x).cmpRef 0 = 0 := (if_neg (ne_true_of_eq_false hramp)).trans hlevel
  have hcorr : (strayInput x).adc.dacCorr.getD 0 0 = 0 := rfl
  unfold State.cmpIs
  rw [strayInput_mode, hinput, href, hcorr]
  have hne : 0 < x ∨ x < 0 ↔ ¬x = 0 := by omega
  rw [Bool.eq_iff_iff]
  simpa [absR] using hne

/-- With every input at 0 no comparator is active, nor becomes so. -/
theorem strayMode_still (m : Nat) : strayMode.cmpEval m = strayMode := by
  have hraw : (strayMode.cmp m).raw = false := by
    by_cases hm : m < 16
    · have hreset : ∀ m : Fin 16, (strayMode.cmp m).raw = false := by decide
      exact hreset ⟨m, hm⟩
    · exact congrArg CmpSt.raw (List.getD_eq_default _ _ (Nat.le_of_not_lt hm))
  have hlive : bitOf strayMode.slc.live m = false := by
    show bitOf 0 m = false
    simp [bitOf]
  refine cmpEval_agrees (hraw.trans hlive.symm) (Eq.trans ?_ hraw.symm)
  by_cases h0 : m = 0
  · subst h0
    exact strayInput_compares 0
  · unfold State.cmpIs
    rw [show strayMode.rdi CMP_CFG_n.MODE m = 0 from (strayInput_mode 0 m).trans (if_neg h0)]
    rfl

theorem strayMode_look : (strayMode.moveTo 0).cmpLook = strayMode := List.foldl_fixed' strayMode_still _

/-- With comparator 0's input at 1, the stray mode makes it active. -/
theorem strayMode_active : ∃ t, exec (.comparatorActive 0 1 0) strayMode = .next t ∧ bitOf t.slc.live 0 = true := by
  have hpasses : (strayInput 1).cmpEval 0 = _ := cmpEval_passes rfl (by rw [strayInput_compares]; decide) (by decide) (by decide)
  refine ⟨(strayInput 1).cmpEval 0, ?_, ?_⟩
  · refine (next_live rfl _).trans ?_
    show Host.Outcome.next (((strayMode.moveTo 0).cmpLook.updCmp 0 _).cmpEval 0) = _
    rw [strayMode_look]
    rfl
  · rw [hpasses, strayInput_compares]
    decide

/-- Refutes O26: its clause on an active comparator lists MODE 1, 2 and 3, and the state's register table is bound to the two
bits of MODE (R388) by no hypothesis. With MODE at 4 the comparison is that of MODE 3, and comparator 0 becomes active at an input of
1 code, which the clause denies. -/
theorem not_acquisitionEvents : ¬ Obligations.AcquisitionEvents := by
  unfold Obligations.AcquisitionEvents
  rintro ⟨-, -, -, -, -, -, hactive, -⟩
  obtain ⟨t, ht, -, hlive, -⟩ := hactive strayMode strayMode 0 1 0 rfl rfl (by decide) (by decide) rfl strayMode_look.symm rfl rfl
  obtain ⟨t', ht', hon⟩ := strayMode_active
  obtain rfl : t' = t := Host.Outcome.next.inj (ht'.symm.trans ht)
  have hmode : strayMode.rdi CMP_CFG_n.MODE (0 : Fin 16) = 4 := strayInput_mode 0 0
  have := hlive.mp hon
  rw [hmode] at this
  omega

end Sys2Proof.Machine
end

section
/-! The statements about every command, from the frame of `exec` (Laws/Exec.lean): the queue, the parts and the register
blocks a command leaves as they were, the canonical form, and what acts while the main die has no power. -/
namespace Sys2Proof.Machine
open Reg

/-- Settles O34: `step` on a queue with a front. -/
theorem stepRunsFront : Obligations.StepRunsFront := fun _ _ => rfl

/-- Settles O35: `step` on the empty queue. -/
theorem emptyQueueIdles : Obligations.EmptyQueueIdles := by
  intro s h
  simp only [step, h]

/-- Settles O37: the tables of the reset state are closed terms. -/
theorem resetIsCanonical : Obligations.ResetIsCanonical := by
  refine ⟨?_, ?_, ?_, ?_, ?_, ?_, ?_⟩ <;> decide +kernel

theorem canonical_iff (s : State) : Canonical s ↔ Canon s :=
  ⟨fun ⟨regs, cells, bank0, bank1, ram, region, regionC⟩ => ⟨regs, cells, bank0, bank1, ram, region, regionC⟩,
   fun h => ⟨h.regs, h.cells, h.bank0, h.bank1, h.ram, h.region, h.regionC⟩⟩

/-- Every command answers a next state that its mask bounds: no arm of `exec` is a fault or a refusal. -/
theorem exec_next (c : Instr) (s : State) : ∃ t, exec c s = .next t := by
  cases c <;> exact ⟨_, rfl⟩

theorem exec_next_only {c : Instr} {s t : State} (h : exec c s = .next t) : Only (execMask c) s t := by
  have hc := exec_only c s
  rwa [h] at hc

/-- Settles O36: `exec_next`, and the queue by `exec_only`. -/
theorem everyCommandCompletes : Obligations.EveryCommandCompletes := by
  intro c s
  obtain ⟨t, ht⟩ := exec_next c s
  exact ⟨t, ht, (exec_next_only ht).pending⟩

/-- Settles O38: a step idles, or runs one command, which keeps the canonical form by `exec_only`. -/
theorem stepKeepsCanonical : Obligations.StepKeepsCanonical := by
  intro s t hs ht
  rw [canonical_iff] at hs ⊢
  unfold step at ht
  split at ht
  · cases ht
    exact hs
  · exact (exec_next_only ht).canon ⟨hs.regs, hs.cells, hs.bank0, hs.bank1, hs.ram, hs.region, hs.regionC⟩

/-- A mask names only blocks of one list and parts of another: its bits 0 to 40 the blocks, those from 41 the parts. -/
def maskWithin (m : Nat) (blocks : List Nat) (parts : List Part) : Bool :=
  (List.range 41).all (fun b => !m.testBit b || blocks.contains b) &&
  Part.all.zipIdx.all (fun x => !m.testBit (41 + x.2) || parts.contains x.1)

/-- The masks of `exec_only` name what `touchedBlocks` and `touchedParts` list. -/
theorem execMask_within (c : Instr) : maskWithin (execMask c) (touchedBlocks c) (touchedParts c) = true := by
  cases c <;> (simp only [execMask, touchedBlocks, touchedParts]; decide +kernel)

theorem maskWithin_block {m : Nat} {blocks : List Nat} {parts : List Part} (h : maskWithin m blocks parts = true) {b : Nat}
    (hb : b < 41) (hn : b ∉ blocks) : m.testBit b = false := by
  simp only [maskWithin, Bool.and_eq_true, List.all_eq_true, List.mem_range] at h
  simpa [hn] using h.1 b hb

theorem maskWithin_part {m : Nat} {blocks : List Nat} {parts : List Part} (h : maskWithin m blocks parts = true) {p : Part}
    {i : Nat} (hp : (p, i) ∈ Part.all.zipIdx) (hn : p ∉ parts) : m.testBit (41 + i) = false := by
  simp only [maskWithin, Bool.and_eq_true, List.all_eq_true] at h
  simpa [hn] using h.2 (p, i) hp

theorem Only.part_same {m : Nat} {blocks : List Nat} {parts : List Part} {s t : State} (h : Only m s t)
    (hm : maskWithin m blocks parts = true) {p : Part} (hn : p ∉ parts) : p.same s t := by
  cases p with
  | tm => exact h.tm (maskWithin_part hm (i := 0) (by decide) hn)
  | clk => exact h.clk (maskWithin_part hm (i := 1) (by decide) hn)
  | pwr => exact h.pwr (maskWithin_part hm (i := 2) (by decide) hn)
  | hst => exact h.hst (maskWithin_part hm (i := 3) (by decide) hn)
  | tri => exact h.tri (maskWithin_part hm (i := 4) (by decide) hn)
  | slc => exact h.slc (maskWithin_part hm (i := 5) (by decide) hn)
  | saf => exact h.saf (maskWithin_part hm (i := 6) (by decide) hn)
  | rings => exact h.rings (maskWithin_part hm (i := 7) (by decide) hn)
  | cells => exact h.cells (maskWithin_part hm (i := 8) (by decide) hn)
  | law => exact h.law (maskWithin_part hm (i := 9) (by decide) hn)
  | lawC => exact h.lawC (maskWithin_part hm (i := 10) (by decide) hn)
  | sp => exact h.sp (maskWithin_part hm (i := 11) (by decide) hn)
  | sched => exact h.sched (maskWithin_part hm (i := 12) (by decide) hn)
  | adc => exact h.adc (maskWithin_part hm (i := 13) (by decide) hn)
  | mtr => exact h.mtr (maskWithin_part hm (i := 14) (by decide) hn)
  | jr => exact h.jr (maskWithin_part hm (i := 15) (by decide) hn)
  | thm => exact h.thm (maskWithin_part hm (i := 16) (by decide) hn)
  | aux => exact h.aux (maskWithin_part hm (i := 17) (by decide) hn)
  | free => exact h.free (maskWithin_part hm (i := 18) (by decide) hn)
  | out => exact h.out (maskWithin_part hm (i := 19) (by decide) hn)

/-- Settles O39: `exec_only`, whose mask `execMask_within` compares with the two lists. -/
theorem commandFrames : Obligations.CommandFrames := by
  intro c s t ht
  have honly := exec_next_only ht
  have hmask := execMask_within c
  refine ⟨fun off hoff hblock => ?_, fun p hp => honly.part_same hmask hp, honly.pending⟩
  have hlow : off / 65536 < 41 := by omega
  exact word_same honly off hlow (maskWithin_block hmask hlow hblock)

/-- Settles O40: each of these meanings runs under `State.live`, which a main die without power leaves at once. -/
theorem mainDieWithoutPower : Obligations.MainDieWithoutPower := by
  intro c s hoff
  obtain ⟨_, _, _, _, ⟨⟩⟩ := s
  cases hoff
  cases c
  case mainPowerOn | pfWarnDeassert | railReset | resetNAsserted | driveShort | oasisTick | oasisColdStart | auxDiagDone
    | auxAlignDone | auxHandover | auxSpeedLoop | auxPwmPeriod | auxWindowCap | keMeasured | vauxUv | vauxUvRecover | vauxOv
    | cpUv | regenLimit | regenClear => exact trivial
  all_goals rfl

end Sys2Proof.Machine
end

section
/-! PROOFS. Register words under a pending swap, and reads per agent (19_register_map.md R697, R699, R700): O42, O43. -/
namespace Sys2Proof.Machine
open Reg

/-! ### A shadow register while a swap of its group is pending (R700) -/

/-- The registers of blocks 0x0A to 0x12 whose write has a behaviour of its own (`State.writeMid`). -/
def ownMid : List Nat :=
  [TRI_CTRL.RESTART.base, CRC_CFG.POLY.base, CRC_DATA.DATA.base, CRC_SEED.SEED.base, LINK_CFG.STARVE_TICKS.base,
   LINK_RING_EN.EN.base, LINK_CTRL.RINGS.base, HGS_PLANT_VOLT.VNOM.base, HGS_PLANT_CUR.XF.base, HGS_TABLE_CTRL.SWAP.base,
   HGS_CELL_CFG_n.ENABLE.base, HGS_CELL_TIMING_n.DT.base, CTL_MODE.PRIO.base, CTL_TABLE_CTRL.SWAP.base]

/-- Those of blocks 0x13 to 0x1F (`State.writeHigh`). -/
def ownHigh : List Nat :=
  [SYNC_PLL_CFG.BW.base, SYNC_MODE.SP_RATE.base, FRT_TABLE_CTRL.SWAP.base, MIR_BASE.ZR.base, MIR_STATUS.ISLAND.base,
   MIR_TABLE_CTRL.SWAP.base, PORT_TABLE_CTRL.SWAP.base, PORT_CTRL.CELL.base, PORT_PV_CFG_n.ROW.base, PORT_PACK_LIM_n.IDIS.base,
   PORT_PACK_WIN_n.TAPER.base, PORT_PACK_VLIM_n.VMAX.base, PORT_PACK_SOH_n.SOH.base, ADC_CTL_CFG.NAVG.base,
   ADC_CH_CFG_n.EN.base, ADC_CH_CAL_n.GAIN.base, ADC_SW_TRIG.FIRE.base, ADC_Q_CFG_q.EN.base, ADC_Q_CAP_q.CMP.base,
   CMP_CFG_n.MODE.base, CMP_RAMP_n.SLOPE.base, CMP_STATUS.LATCH.base]

/-- Those of blocks 0x20 to 0x28 (`State.writeTop`). -/
def ownTop : List Nat :=
  [SLC_DRV_SC_STATUS.LEGS0.base, SLC_TRIP_LATCH.CMP.base, SLC_CTRL.STOP.base, SAFE_CONFIRM.SAFETY_CONFIRM.base,
   SAFE_STATUS.PROOF.base, MTR_CAL_CTRL.SWAP.base, AUX_CTRL_m.SPEED.base]

theorem writeMid_fields {r : RegRow} (h : r.base ∉ ownMid) (s : State) (i off v : Nat) (ag : Agent) :
    s.writeMid r i off v ag = s.setFieldsOf r off v ag := by
  simp only [ownMid, List.mem_cons, List.not_mem_nil, or_false, not_or] at h
  simp only [State.writeMid, h, if_false, or_self]

theorem writeHigh_fields {r : RegRow} (h : r.base ∉ ownHigh) (s : State) (i off v : Nat) (ag : Agent) :
    s.writeHigh r i off v ag = s.setFieldsOf r off v ag := by
  simp only [ownHigh, List.mem_cons, List.not_mem_nil, or_false, not_or] at h
  simp only [State.writeHigh, h, if_false]

theorem writeTop_fields {r : RegRow} (h : r.base ∉ ownTop) (s : State) (i off v : Nat) (ag : Agent) :
    s.writeTop r i off v ag = s.setFieldsOf r off v ag := by
  simp only [ownTop, List.mem_cons, List.not_mem_nil, or_false, not_or] at h
  simp only [State.writeTop, h, if_false]

/-- No shadow register has a write of its own. -/
theorem notMem_of_shadowed {l : List Nat} (hl : l.all (fun b => !isShadowed b) = true) {b : Nat} (hb : isShadowed b = true) :
    b ∉ l := by
  intro hm
  have := List.all_eq_true.mp hl b hm
  rw [hb] at this
  cases this

theorem regBlocks_shadows : regBlocks.all (fun l => l.all fun r => !isShadowed r.base || r.count != 240) = true := by
  decide +kernel

theorem regAt_mem {off : Nat} {r : RegRow} (h : regAt off = some r) : ∃ l ∈ regBlocks, r ∈ l := by
  unfold regAt at h
  split at h
  · next l hl => exact ⟨l, List.mem_of_getElem? hl, (findReg_mem h).1⟩
  · cases h

/-- Both parts have every shadow register. -/
theorem absentReg_shadow {off : Nat} {r : RegRow} (hr : regAt off = some r) (hsh : isShadowed r.base = true) (s : State)
    (i : Nat) : s.absentReg r i = false := by
  obtain ⟨l, hl, hrl⟩ := regAt_mem hr
  have hcount := List.all_eq_true.mp (List.all_eq_true.mp regBlocks_shadows l hl) r hrl
  have hring : r.base ≠ LINK_RING_STATUS_r.STATE.base := by
    rintro h; rw [h] at hsh; exact absurd hsh (by decide)
  have hlane : r.base ≠ LINK_LANE_ERR_l.CODE.base := by
    rintro h; rw [h] at hsh; exact absurd hsh (by decide)
  rw [hsh, Bool.not_true, Bool.false_or, bne_iff_ne] at hcount
  simp [State.absentReg, hcount, hring, hlane]

theorem regAt_block {off : Nat} {r : RegRow} (h : regAt off = some r) : r.base / 0x10000 = off / 0x10000 := by
  obtain ⟨hlow, hhigh, hpage, -⟩ := regAt_placed h
  omega

/-- While a swap of its group is pending, a shadow register takes no write: its block's CFG_ERR is set. -/
theorem exec_registerWrite_held {s : State} (hon : s.pwr.mainOn = true) {ag : Agent} (hag : s.admits ag = true) {off : Nat}
    (h4 : off % 4 = 0) {r : RegRow} (hr : regAt off = some r) (hsh : isShadowed r.base = true)
    (hpend : s.groupPending r.base = true) (hlow : 0x100000 ≤ off) {x : Fld} (hx : errField off = some x) (v e : Nat) :
    exec (.registerWrite ag off 15 ⟨v, []⟩ e) s = .next ((s.moveTo e).refuse x) := by
  have hheld : (s.moveTo e).setFieldsOf r off (v % 2 ^ 32) ag = (s.moveTo e).refuse x := by
    have hpend' : (s.moveTo e).groupPending r.base = true := by
      unfold State.groupPending at hpend ⊢
      simpa only [bit_of_regs (moveTo_regs s e)] using hpend
    unfold State.setFieldsOf State.refuseWrite
    simp only [hsh, hpend', hx, Bool.and_self, Bool.true_or, if_true]
  rw [exec_registerWrite hon, if_pos hag, regWrite_at ((admits_moveTo s e ag).trans hag) h4 hr (absentReg_shadow hr hsh _ _),
    if_neg (by decide), if_neg (by omega), writeMid_fields (notMem_of_shadowed (by decide) hsh),
    writeHigh_fields (notMem_of_shadowed (by decide) hsh), writeTop_fields (notMem_of_shadowed (by decide) hsh), ite_self, ite_self,
    hheld]

/-- What a refused write of a block leaves: its CFG_ERR set, every other field and active copy as it was. -/
theorem refuse_shows (s : State) (e : Nat) {x : Fld} (hw : x.w = 1) (hc : 0 < x.count) :
    ((s.moveTo e).refuse x).rd x = 1 ∧ ((s.moveTo e).refuse x).cells = s.cells ∧ ((s.moveTo e).refuse x).law = s.law ∧
    (∀ f i, apart x f = true → ((s.moveTo e).refuse x).rdi f i = s.rdi f i) ∧
    ∀ k, k ≠ x.key 0 → tget regDefault ((s.moveTo e).refuse x).regs k = tget regDefault s.regs k := by
  refine ⟨rd_refuse_self _ hw hc, by simp, by simp, fun f i ha => ?_, fun k hk => ?_⟩
  · exact ((s.moveTo e).rdi_wri_apart 0 i 1 ha).trans (rdi_of_regs (moveTo_regs s e) f i)
  · unfold State.refuse State.wr State.wri
    rw [if_pos hc]
    exact (tget_tput_ne _ _ _ (Ne.symm hk)).trans (by rw [moveTo_regs])

/-- Settles O42: each group's writes by `exec_registerWrite_held`. -/
theorem pendingGroupRefusesWrites : Obligations.PendingGroupRefusesWrites := by
  intro s ag off v e r hon hag h4 hr hsh x hx hblock hpend
  have hbase : r.base / 0x10000 = x.1 := (regAt_block hr).trans hblock
  have hgroup : s.groupPending r.base = s.bit x.2.1 ∧ errField off = some x.2.2 ∧ x.2.2.w = 1 ∧ 0 < x.2.2.count ∧
      0x10 ≤ x.1 := by
    simp only [List.mem_cons, List.not_mem_nil, or_false] at hx
    unfold State.groupPending errField
    rw [hbase, hblock]
    rcases hx with rfl | rfl | rfl | rfl | rfl | rfl | rfl <;> exact ⟨rfl, rfl, rfl, by decide, by decide⟩
  obtain ⟨hpending, herr, hw, hc, hlow⟩ := hgroup
  have hset : s.groupPending r.base = true := by
    rw [hpending]
    exact beq_iff_eq.mpr hpend
  exact ⟨_, exec_registerWrite_held hon hag h4 hr hsh hset (by omega) herr v e, refuse_shows s e hw hc⟩

/-! ### Reads per agent (R697) -/

theorem PerAgent.get_put_self {α : Type} (x : PerAgent α) (ag : Agent) (v : α) : (x.put ag v).get ag = v := by
  cases ag <;> rfl

theorem PerAgent.get_put_ne {α : Type} (x : PerAgent α) {ag b : Agent} (h : b ≠ ag) (v : α) : (x.put ag v).get b = x.get b := by
  cases ag <;> cases b <;> simp_all [PerAgent.put, PerAgent.get]

/-- What an agent reads follows its own latches and the registers. -/
theorem readWord_congr {s t : State} {b : Agent} (hE : t.tm.latE.get b = s.tm.latE.get b) (hO : t.tm.latO.get b = s.tm.latO.get b)
    (hwin : t.mtr.win.get b = s.mtr.win.get b) (hregs : t.regs = s.regs) (off : Nat) : t.readWord b off = s.readWord b off := by
  unfold State.readWord
  rw [hE, hO, hwin, word_of_regs hregs]

theorem exec_elapsedRead {s : State} (hon : s.pwr.mainOn = true) (ag : Agent) :
    exec (.elapsedRead ag) s = .next (s.elapsedRead ag) := next_live hon _

theorem exec_alignOfsRead {s : State} (hon : s.pwr.mainOn = true) (ag : Agent) :
    exec (.alignOfsRead ag) s = .next (s.alignRead ag) := next_live hon _

theorem exec_mtrPortSnapshotRead {s : State} (hon : s.pwr.mainOn = true) (ag : Agent) :
    exec (.mtrPortSnapshotRead ag) s = .next (s.portRead ag) := next_live hon _

theorem readWord_portWindow (s : State) (ag : Agent) {i : Nat} (h1 : 1 ≤ i) (h8 : i ≤ 8) :
    s.readWord ag (MTR_PORT_DATA_n.W.base + 4 * i) = (s.mtr.win.get ag).getD i 0 := by
  unfold State.readWord
  have hbase : MTR_PORT_DATA_n.W.base = 0x230014 := rfl
  rw [hbase, if_neg (by simp only [CLK_ELAPSED_HI.E_HI]; omega), if_neg (by simp only [CLK_ALIGN_OFS_HI.O_HI]; omega),
    if_pos (by omega), show (0x230014 + 4 * i - 0x230014) / 4 = i by omega]

/-- A register that shows what an agent latched: it has no RC fields, and both parts have it. -/
structure LatchedRow (off : Nat) (r : RegRow) : Prop where
  found : regAt off = some r
  aligned : off % 4 = 0
  present : ∀ s : State, s.absentReg r ((off - r.base) / 4) = false
  noRc : r.fields.all (fun y => y.acc != .rc) = true
  block : off / 0x10000 = 2 ∨ off / 0x10000 = 0x23
  latches : off ≠ CLK_ELAPSED_LO.E_LO.base ∧ off ≠ CLK_ALIGN_OFS_LO.O_LO.base ∧ off ≠ MTR_PORT_DATA_n.W.base

theorem latchedRow_elapsed :
    LatchedRow CLK_ELAPSED_HI.E_HI.base ⟨"CLK_ELAPSED_HI", 0x20044, 1, [⟨CLK_ELAPSED_HI.E_HI, .ro, [0], .none⟩]⟩ :=
  ⟨by decide, by decide, fun s => Bool.and_false s.small, by decide, by decide, by decide⟩

theorem latchedRow_alignOfs :
    LatchedRow CLK_ALIGN_OFS_HI.O_HI.base ⟨"CLK_ALIGN_OFS_HI", 0x2004C, 1, [⟨CLK_ALIGN_OFS_HI.O_HI, .ro, [0], .none⟩]⟩ :=
  ⟨by decide, by decide, fun s => Bool.and_false s.small, by decide, by decide, by decide⟩

theorem latchedRow_portWindow {i : Nat} (h1 : 1 ≤ i) (h8 : i ≤ 8) :
    LatchedRow (MTR_PORT_DATA_n.W.base + 4 * i) ⟨"MTR_PORT_DATA_n", 0x230014, 9, [⟨MTR_PORT_DATA_n.W, .ro, [0], .none⟩]⟩ := by
  have hfound : ∀ i : Fin 9, regAt (MTR_PORT_DATA_n.W.base + 4 * i) =
      some ⟨"MTR_PORT_DATA_n", 0x230014, 9, [⟨MTR_PORT_DATA_n.W, .ro, [0], .none⟩]⟩ := by decide
  have hbase : MTR_PORT_DATA_n.W.base = 0x230014 := rfl
  refine ⟨hfound ⟨i, by omega⟩, by omega, fun s => Bool.and_false s.small, by decide, by omega, ?_, ?_, by omega⟩
  · simp only [CLK_ELAPSED_LO.E_LO]; omega
  · simp only [CLK_ALIGN_OFS_LO.O_LO]; omega

/-- A read of a latched half or of the window's further words gives the word and changes nothing. -/
theorem exec_rcFieldRead_latched {s : State} (hon : s.pwr.mainOn = true) {ag : Agent} (hag : s.admits ag = true) {off : Nat}
    {r : RegRow} (h : LatchedRow off r) (e : Nat) :
    exec (.rcFieldRead ag ⟨off, []⟩ e) s = .next ((s.moveTo e).emit (.readData ag off ((s.moveTo e).readWord ag off))) := by
  obtain ⟨hE, hO, hM⟩ := h.latches
  have hnone : ∀ y ∈ r.fields, y.acc ≠ .rc := fun y hy => bne_iff_ne.mp (List.all_eq_true.mp h.noRc y hy)
  have hblock : ∀ b : Nat, b ≠ 2 → b ≠ 0x23 → off / 0x10000 ≠ b := by
    intro b h2 h23
    rcases h.block with h | h <;> omega
  rw [exec_rcFieldRead_at hon hag h.aligned h.found (h.present s), if_neg hE, if_neg hO, if_neg hM,
    lookedAt_other _ (hblock _ (by decide) (by decide)) (hblock _ (by decide) (by decide)) (hblock _ (by decide) (by decide)),
    clearRc_none _ _ hnone]

/-- Settles O43: the three latching reads by `readWord_congr`, a read of what was latched by `exec_rcFieldRead_latched`, a read
of RC fields by `exec_rcFieldRead_at`. -/
theorem readLatchesPerAgent : Obligations.ReadLatchesPerAgent := by
  refine ⟨fun s ag hon => ⟨⟨_, exec_elapsedRead hon ag, ?_, fun b hb off => ?_⟩, ⟨_, exec_alignOfsRead hon ag, ?_, fun b hb off => ?_⟩,
    ⟨_, exec_mtrPortSnapshotRead hon ag, fun i h1 h8 => ?_, fun b hb off => ?_⟩⟩, fun s ag off e hon hag hoff => ?_,
    fun s ag off e r hon hag h4 hr habs hrc => ?_⟩
  · exact PerAgent.get_put_self s.tm.latE ag _
  · exact readWord_congr (s := s) (t := s.elapsedRead ag) (PerAgent.get_put_ne s.tm.latE hb _) rfl rfl rfl off
  · exact PerAgent.get_put_self s.tm.latO ag _
  · exact readWord_congr (s := s) (t := s.alignRead ag) rfl (PerAgent.get_put_ne s.tm.latO hb _) rfl rfl off
  · rw [readWord_portWindow _ ag h1 h8]
    exact congrArg (List.getD · i 0) (PerAgent.get_put_self s.mtr.win ag _)
  · exact readWord_congr (s := s) (t := s.portRead ag) rfl rfl (PerAgent.get_put_ne s.mtr.win hb _) rfl off
  · have hrow : ∃ r, LatchedRow off r := by
      rcases hoff with rfl | rfl | ⟨i, h1, h8, rfl⟩
      · exact ⟨_, latchedRow_elapsed⟩
      · exact ⟨_, latchedRow_alignOfs⟩
      · exact ⟨_, latchedRow_portWindow h1 h8⟩
    obtain ⟨r, hrow⟩ := hrow
    refine ⟨_, exec_rcFieldRead_latched hon hag hrow e, ?_, fun b o => ?_⟩
    · rw [readWord_moveTo]
      simp [State.emit]
    · exact (readWord_congr (s := s.moveTo e) (t := (s.moveTo e).emit _) rfl rfl rfl rfl o).trans (readWord_moveTo s e b o)
  · have hne : ∀ b : Nat, (regAt b).all (fun q => q.fields.all fun y => y.acc != .rc) = true → off ≠ b := by
      rintro b hnone rfl
      obtain ⟨x, hx, hacc⟩ := hrc
      rw [hr] at hnone
      exact bne_iff_ne.mp (List.all_eq_true.mp hnone x hx) hacc
    have hexec := exec_rcFieldRead_at hon hag h4 hr habs e
    rw [if_neg (hne _ (by decide)), if_neg (hne _ (by decide)), if_neg (hne _ (by decide))] at hexec
    refine ⟨_, hexec, fun hq hc hm => ?_, fun hq => ?_, fun hc => ?_, fun hm => ?_, fun x hx hacc => rdi_clearRc_rc _ _ hx hacc⟩
    · rw [clearRc_out, lookedAt_other _ hq hc hm, readWord_moveTo]
      simp [State.emit]
    · rw [clearRc_out, lookedAt_queue _ hq]; rfl
    · rw [clearRc_out, lookedAt_comparator _ hc]; rfl
    · rw [clearRc_out, lookedAt_motor _ hm]; rfl

end Sys2Proof.Machine
end

section
/-! PROOFS. The check value, its confirmation and the CRC unit (12_safety.md R439, R440, R445, R446): O7. -/
namespace Sys2Proof.Machine
open Reg

theorem exec_safeCvDone {s : State} (hon : s.pwr.mainOn = true) (hbusy : s.bit SAFE_STATUS.CV_BUSY = true) :
    exec .safeCvDone s = .next ((s.wr SAFE_CV.CV s.safeCv).wr SAFE_STATUS.CV_BUSY 0).showSil.showCvDiff :=
  (next_live hon _).trans (congrArg _ (if_pos hbusy))

theorem exec_safeConfirmWrite {s : State} (hon : s.pwr.mainOn = true) (v : Nat) (ag : Agent) :
    exec (.safeConfirmWrite v ag) s = .next (s.writeConfirm (v % 2 ^ 32) ag) := next_live hon _

theorem exec_crcCfgWrite {s : State} (hon : s.pwr.mainOn = true) (v : Nat) : exec (.crcCfgWrite v) s = .next (s.writeCrcCfg v) :=
  next_live hon _

theorem exec_crcDataWrite {s : State} (hon : s.pwr.mainOn = true) (z : Fin 3) (v : Nat) :
    exec (.crcDataWrite z v) s = .next (s.writeCrcData (2 ^ z.val) v) := next_live hon _

theorem exec_crcSeedWrite {s : State} (hon : s.pwr.mainOn = true) (v : Nat) : exec (.crcSeedWrite v) s = .next (s.writeCrcSeed v) :=
  next_live hon _

/-- SIL_OK and CV_DIFF, which show what else holds, are no other field. -/
theorem rd_showCvDiff (s : State) {f : Fld} (hf : apart SAFE_NET_STATUS.CV_DIFF f = true) : s.showCvDiff.rd f = s.rd f :=
  s.rd_wr_apart _ hf

theorem rd_showSil (s : State) {f : Fld} (hf : apart SAFE_STATUS.SIL_OK f = true) : s.showSil.rd f = s.rd f :=
  s.rd_wr_apart _ hf

/-- A commissioning block takes a generation above both (R639). -/
theorem writeCommBlock_flash (s : State) (lc : Nat) : (s.writeCommBlock lc).pwr.flash ≠ s.pwr.flash := by
  intro h
  have hgen := congrArg (fun fl => max fl.blockA.gen fl.blockB.gen) h
  simp only [State.writeCommBlock] at hgen
  split at hgen <;> simp only at hgen <;> omega

theorem rd_writeCommBlock (s : State) (lc : Nat) (f : Fld) : (s.writeCommBlock lc).rd f = s.rd f := s.rdi_mk f 0

/-- What the CRC unit holds after it takes a value: the seed, and the result after the final XOR. -/
theorem setCrc_shows (s : State) (c : Nat) :
    (s.setCrc c).rd CRC_SEED.SEED = c % 2 ^ 32 ∧ (s.setCrc c).rd CRC_RESULT.RESULT = Nat.xor c (crcXor (s.rd CRC_CFG.POLY)) % 2 ^ 32 ∧
    (s.setCrc c).rd CRC_CFG.POLY = s.rd CRC_CFG.POLY := by
  unfold State.setCrc
  refine ⟨?_, ?_, ?_⟩
  · rw [State.rd_wr_apart _ _ (by decide), State.rd_wr_self _ _ (by decide)]
    rfl
  · rw [State.rd_wr_self _ _ (by decide)]
    rfl
  · rw [State.rd_wr_apart _ _ (by decide), State.rd_wr_apart _ _ (by decide)]

theorem crcInit_lt (p : Nat) : crcInit p < 2 ^ 32 := by
  unfold crcInit
  split
  · decide
  · split <;> decide

theorem crcXor_lt (p : Nat) : crcXor p < 2 ^ 32 := by
  unfold crcXor
  split
  · decide
  · split <;> decide

/-- A confirmation is taken in COMMISSIONING while it equals the check value (R440). -/
theorem writeConfirm_taken {s : State} {v : Nat} (hcom : s.commissioning = true)
    (hcv : v = s.rd SAFE_CV.CV ∧ s.rd SAFE_STATUS.CV_BUSY = 0) (ag : Agent) :
    s.writeConfirm v ag =
      ((((s.wr SAFE_CONFIRM.SAFETY_CONFIRM v).wr SAFE_STATUS.CONFIRMED 1).wr SAFE_STATUS.CV_ERR 0).writeCommBlock 2).showSil := by
  unfold State.writeConfirm
  rw [hcom, if_neg (by decide), if_pos hcv]

theorem writeConfirm_refused {s : State} {v : Nat} (hcom : s.commissioning = true)
    (hcv : ¬(v = s.rd SAFE_CV.CV ∧ s.rd SAFE_STATUS.CV_BUSY = 0)) (ag : Agent) :
    s.writeConfirm v ag = s.refuse SAFE_NET_STATUS.CFG_ERR := by
  unfold State.writeConfirm
  rw [hcom, if_neg (by decide), if_neg hcv]

/-- Settles O7: the check value and its confirmation field by field, the CRC unit's writes by `setCrc_shows`. -/
theorem checkValueAndCrcCommands : Obligations.CheckValueAndCrcCommands := by
  unfold Obligations.CheckValueAndCrcCommands
  refine ⟨fun s hon hbusy => ?_, fun s v ag hon hcom hcv hbusy => ?_, fun s v ag hon hcom hbad => ?_, fun s v hon => ?_,
    fun s z v hon => ?_, fun s v hon => ?_⟩
  · refine ⟨_, exec_safeCvDone hon hbusy, ?_⟩
    simp (disch := decide) only [rd_showCvDiff, rd_showSil, State.rd_wr_self, State.rd_wr_apart]
    exact ⟨rfl, rfl, trivial, trivial⟩
  · refine ⟨_, exec_safeConfirmWrite hon v ag, ?_⟩
    rw [writeConfirm_taken hcom ⟨hcv, hbusy⟩]
    simp (disch := decide) only [rd_showSil, rd_writeCommBlock, State.rd_wr_self, State.rd_wr_apart]
    exact ⟨Nat.mod_mod _ _, rfl, rfl, trivial, writeCommBlock_flash _ 2⟩
  · refine ⟨_, exec_safeConfirmWrite hon v ag, ?_⟩
    rw [writeConfirm_refused hcom hbad]
    exact ⟨rd_refuse_self s rfl (by decide), s.rd_wr_apart _ (by decide), s.rd_wr_apart _ (by decide), s.refuse_pwr _⟩
  · refine ⟨_, exec_crcCfgWrite hon v, ?_⟩
    obtain ⟨hseed, hresult, hpoly⟩ := setCrc_shows (s.wr CRC_CFG.POLY v) (crcInit (v % 4))
    have hset : (s.wr CRC_CFG.POLY v).rd CRC_CFG.POLY = v % 4 := s.rd_wr_self v (by decide)
    rw [hset] at hpoly hresult
    exact ⟨hpoly, hseed.trans (Nat.mod_eq_of_lt (crcInit_lt _)),
      hresult.trans (Nat.mod_eq_of_lt (Nat.xor_lt_two_pow (crcInit_lt _) (crcXor_lt _)))⟩
  · exact ⟨_, exec_crcDataWrite hon z v, setCrc_shows s _⟩
  · exact ⟨_, exec_crcSeedWrite hon v, setCrc_shows s _⟩

end Sys2Proof.Machine
end

section
/-! PROOFS. The weir's timer and a late housekeeping round (16_thermal_aux_drives.md R583, R585, R604, R605): O15. -/
namespace Sys2Proof.Machine
open Reg

theorem exec_weirTimerExpiry {s : State} (hon : s.pwr.mainOn = true) (e : Nat) :
    exec (.weirTimerExpiry e) s = .next (s.moveTo e).weirTimer := next_live hon _

theorem exec_thermalStale {s : State} (hon : s.pwr.mainOn = true) {e : Nat}
    (hlate : s.adc.hkDone + max 20000000 (3 * s.rd ADC_HK_CFG.PERIOD * 1000) ≤ (s.moveTo e).tm.e) :
    exec (.thermalStale e) s = .next (((s.moveTo e).wr THM_DIE_STATUS.STALE 1).wr THM_DIE_STATUS.LEVEL
      ((s.moveTo e).wr THM_DIE_STATUS.STALE 1).dieLevel).showThrottle := by
  refine (next_live hon _).trans (congrArg _ (if_pos ?_))
  simpa [rd_moveTo] using hlate

theorem weirStep_enabled {s : State} (h : s.bit THM_CFG.WEIR_EN = true) :
    s.weirStep = s.wr THM_STATUS.WEIR_STEP
      (if s.thm.prev then max (s.rd THM_STATUS.WEIR_STEP - 1) (s.rd THM_CFG.WEIR_FLOOR) else min (s.rd THM_STATUS.WEIR_STEP + 1) 16) := by
  unfold State.weirStep
  rw [h, if_neg (by decide)]

/-- The weir's timer has run 200 ms with the weir enabled: one step, and the timer starts again (R604). -/
theorem weirTimer_due {s : State} (htimer : 200000000 ≤ s.thm.timer) (hen : s.bit THM_CFG.WEIR_EN = true) :
    s.weirTimer.thm.timer = 0 ∧ s.weirTimer.rd THM_STATUS.WEIR_STEP =
      (if s.thm.prev then max (s.rd THM_STATUS.WEIR_STEP - 1) (s.rd THM_CFG.WEIR_FLOOR) else min (s.rd THM_STATUS.WEIR_STEP + 1) 16) % 32 := by
  have hstep : s.weirTimer = _ := (if_pos htimer).trans (weirStep_enabled (s := { s with thm := { s.thm with timer := 0 } }) hen)
  rw [hstep]
  exact ⟨congrArg ThmSt.timer (State.wr_thm ..), State.rd_wr_self _ _ (by decide)⟩

/-- STALE counts as throttle level 2 of the die (R605). -/
theorem thrSource_stale {s : State} (h : s.bit THM_DIE_STATUS.STALE = true) : s.thrSource = 1 := by
  have hdie : 2 ≤ s.dieLevel := by simp [State.dieLevel, h]
  exact if_pos hdie

/-- Settles O15: the step by `State.weirStep`, STALE by `thrSource_stale`. -/
theorem thermalTimerCommands : Obligations.ThermalTimerCommands := by
  refine ⟨fun s e hon htimer hen hstep hfloor => ?_, fun s e hon htimer => ?_, fun s e hon hlate => ?_⟩
  · refine ⟨_, exec_weirTimerExpiry hon e, ?_⟩
    obtain ⟨htime, hweir⟩ := weirTimer_due (s := s.moveTo e) (by simpa using htimer) ((bit_of_regs (moveTo_regs s e) _).trans hen)
    refine ⟨htime, ?_⟩
    rw [hweir, State.moveTo_thm, rd_moveTo, rd_moveTo]
    refine Nat.mod_eq_of_lt ?_
    split <;> omega
  · refine ⟨_, exec_weirTimerExpiry hon e, ?_⟩
    have hstay : (s.moveTo e).weirTimer = s.moveTo e := if_neg (by simpa using htimer)
    rw [hstay]
    exact ⟨moveTo_regs s e, s.moveTo_thm e⟩
  · refine ⟨_, exec_thermalStale hon hlate, ?_⟩
    have hstale : ∀ l, (((s.moveTo e).wr THM_DIE_STATUS.STALE 1).wr THM_DIE_STATUS.LEVEL l).bit THM_DIE_STATUS.STALE = true := by
      intro l
      simp (disch := decide) [State.bit, State.rd_wr_apart, State.rd_wr_self, THM_DIE_STATUS.STALE]
    unfold State.showThrottle
    simp (disch := decide) only [State.rd_wr_self, State.rd_wr_apart, thrSource_stale (hstale _)]
    exact ⟨rfl, rfl, rfl⟩

end Sys2Proof.Machine
end

section
/-! PROOFS. Leases, the calibration swap and the port window (15_lease_metering.md R551, R555, R566, R574): O27. -/
namespace Sys2Proof.Machine
open Reg

theorem meterFlagAt_only (s : State) (code cell arg rseq : Nat) (tick : Int) (elapsed : Nat) :
    Only 0x1100100000000200 s (s.meterFlagAt code cell arg rseq tick elapsed) := Only.meterFlagAt (Only.refl _ s) _ _ _ _ _ _ rfl

/-- What the records of a happening leave of the meters, the leases and the host side. -/
structure RecordsOnly (s t : State) : Prop where
  cells : t.cells = s.cells
  leases : ∀ c, t.jr.lease c = s.jr.lease c
  leasing : t.mtr.leasing = s.mtr.leasing
  host : HostKept s.hst t.hst

namespace RecordsOnly
variable {s t u : State}

theorem trans (h : RecordsOnly s t) (g : RecordsOnly t u) : RecordsOnly s u :=
  ⟨g.cells.trans h.cells, fun c => (g.leases c).trans (h.leases c), g.leasing.trans h.leasing, h.host.trans g.host⟩

theorem meterFlagAt (s : State) (code cell arg rseq : Nat) (tick : Int) (elapsed : Nat) :
    RecordsOnly s (s.meterFlagAt code cell arg rseq tick elapsed) where
  cells := (meterFlagAt_only ..).cells rfl
  leases c := by
    have hjr := meterFlagAt_jr s code cell arg rseq tick elapsed
    have hA := congrArg Journal.leaseA hjr
    have hB := congrArg Journal.leaseB hjr
    simp only [unposted] at hA hB
    simp only [Journal.lease, hA, hB]
  leasing := congrArg MtrSt.leasing ((meterFlagAt_only ..).mtr rfl)
  host := (State.queueAt_kept ..).trans (State.drain_kept ..)

theorem meterFlag (s : State) (code cell arg : Nat) : RecordsOnly s (s.meterFlag code cell arg) := meterFlagAt ..

theorem foldl {α : Type} {g : State → α → State} (hg : ∀ u x, RecordsOnly u (g u x)) (l : List α) (s : State) :
    RecordsOnly s (l.foldl g s) := by
  induction l generalizing s with
  | nil => exact ⟨rfl, fun _ => rfl, rfl, .refl _⟩
  | cons x l ih => exact (hg s x).trans (ih _)

theorem flushExhausted (s : State) (c : Nat) : RecordsOnly s (s.flushExhausted c) := by
  unfold State.flushExhausted
  extract_lets mine l
  have hqueue : ∀ q, RecordsOnly s { s with mtr := { s.mtr with flagQ := q } } := fun _ => ⟨rfl, fun _ => rfl, rfl, .refl _⟩
  refine (hqueue _).trans (foldl (fun w f => ?_) l _)
  have hused : ∀ w : State, RecordsOnly w w.used := fun _ => ⟨rfl, fun _ => rfl, rfl, .refl _⟩
  exact (meterFlagAt w ..).trans (hused _)

end RecordsOnly

/-- The journal's newest entry of a cell's lease is the one put last (R555). -/
theorem lease_putLease (j : Journal) (c : Nat) (l : Lease) : ((j.putLease c l).lease c).lease = l := by
  unfold Journal.putLease
  extract_lets a b
  split
  · next hab =>
    simp only [Journal.lease, tget_tput_self]
    rw [if_neg (show ¬b.gen + 1 < b.gen by omega)]
  · next hab =>
    simp only [Journal.lease, tget_tput_self]
    rw [if_pos (show a.gen < a.gen + 1 by omega)]

/-- The lease a descriptor asks for, over the one that holds (R551). -/
def State.leaseAsked (s : State) (c : Nat) (n : Lease) : Lease :=
  newLease (s.cell c).mtr.lease n.id n.floor n.ceiling n.allow (s.cell c).mtr.eDis.n

/-- The lease stands in the journal and holds. -/
def State.leaseHeld (s : State) (c : Nat) (n : Lease) (d : Desc) : State :=
  ({ s with
    mtr := { s.mtr with leasing := s.mtr.leasing.erase (c, n, d) }
    jr := s.jr.putLease c (s.leaseAsked c n) } : State).updMtr c
    (fun m => { m with lease := s.leaseAsked c n, was := m.was ++ [(s.tm.e, m.lease)] })

/-- LEASE_COMMITTED of a lease that waits: it holds, its record is posted, and its descriptor ends. -/
def State.commitLease (s : State) (c : Nat) (n : Lease) (d : Desc) : State :=
  ((if (s.leaseAsked c n).state = 3 then s.leaseHeld c n d else (s.leaseHeld c n d).flushExhausted c).meterFlag 8 c
    (s.leaseAsked c n).id).complete d 0 0 []

theorem exec_leaseCommitted {s : State} (hon : s.pwr.mainOn = true) (hup : s.pwr.pfAt = none) {c : Fin 240} {n : Lease} {d : Desc}
    (hfind : s.mtr.leasing.find? (fun x => x.1 == c.val) = some (c.val, n, d)) :
    exec (.leaseCommitted c) s = .next (s.commitLease c n d) := by
  refine (next_live hon _).trans (congrArg _ ?_)
  dsimp only
  rw [if_neg (by simp [hup]), hfind]
  rfl

theorem exec_leaseCommitted_none {s : State} (hon : s.pwr.mainOn = true) {c : Fin 240}
    (h : s.pwr.pfAt ≠ none ∨ s.mtr.leasing.find? (fun x => x.1 == c.val) = none) : exec (.leaseCommitted c) s = .next s := by
  refine (next_live hon _).trans (congrArg _ ?_)
  dsimp only
  split
  · rfl
  · next hup => rw [h.resolve_left hup]

theorem leaseHeld_shows (s : State) (c : Nat) (n : Lease) (d : Desc) :
    ((s.leaseHeld c n d).cell c).mtr.lease = s.leaseAsked c n ∧ ((s.leaseHeld c n d).jr.lease c).lease = s.leaseAsked c n :=
  ⟨congrArg (fun x : Cell => x.mtr.lease) (State.cell_updCell_self ..), lease_putLease ..⟩

theorem commitLease_shows {s : State} {c : Nat} {n : Lease} {d : Desc} (hd : d.epoch = s.hst.epoch) :
    ((s.commitLease c n d).cell c).mtr.lease = s.leaseAsked c n ∧ ((s.commitLease c n d).jr.lease c).lease = s.leaseAsked c n ∧
      (s.commitLease c n d).mtr.leasing = s.mtr.leasing.erase (c, n, d) ∧
      ∃ x ∈ (s.commitLease c n d).hst.comps, x.status = 0 ∧ x.tag = d.tag := by
  obtain ⟨hlease, hjr⟩ := leaseHeld_shows s c n d
  have hflush : RecordsOnly (s.leaseHeld c n d)
      (if (s.leaseAsked c n).state = 3 then s.leaseHeld c n d else (s.leaseHeld c n d).flushExhausted c) := by
    split
    · exact ⟨rfl, fun _ => rfl, rfl, .refl _⟩
    · exact .flushExhausted _ c
  have hflag := hflush.trans (RecordsOnly.meterFlag _ 8 c (s.leaseAsked c n).id)
  unfold State.commitLease
  refine ⟨?_, ?_, ?_, desc_end _ d 0 0 [] d.tag rfl ?_⟩
  · rw [State.cell, State.complete_cells, hflag.cells]
    exact hlease
  · rw [State.complete_jr, hflag.leases]
    exact hjr
  · rw [State.complete_mtr, hflag.leasing]
    rfl
  · exact hd.trans hflag.host.epoch.symm

/-- Settles O27: a lease by `commitLease_shows`, the window by the reader's latch. -/
theorem meteringCommands : Obligations.MeteringCommands := by
  unfold Obligations.MeteringCommands
  refine ⟨fun s c n d hon hup hfind hd => ?_, fun s c hon h => exec_leaseCommitted_none hon h, fun s hon => ⟨fun h => ?_, fun h => ?_⟩,
    fun s ag hon => ⟨_, exec_mtrPortSnapshotRead hon ag, PerAgent.get_put_self s.mtr.win ag _, rfl⟩⟩
  · obtain ⟨hlease, hjr, hleasing, hcomp⟩ := commitLease_shows (n := n) (c := c.val) hd
    exact ⟨_, exec_leaseCommitted hon hup hfind, hlease, hjr.trans hlease.symm, hleasing, hcomp⟩
  · exact (next_live hon _).trans (congrArg _ (if_pos (beq_iff_eq.mpr h)))
  · have hset : s.calSwap = _ := if_neg (by rw [State.bit, h]; decide)
    refine ⟨_, next_live hon _, ?_⟩
    rw [hset]
    have hpend := State.rd_wr_self ({ s with mtr := { s.mtr with swapAt := s.tm.e } }) (f := MTR_CAL_CTRL.PENDING) 1 (by decide)
    refine ⟨hpend, State.wr_mtr .., ?_⟩
    rw [State.calAsked, State.bit, hpend, State.wr_mtr]
    simp [MTR_CAL_CTRL.PENDING]

end Sys2Proof.Machine
end

section
/-! PROOFS. Sleep, wake and the orderly shutdown (17_clocks_power_lifecycle.md R640, R641, R647): O52. -/
namespace Sys2Proof.Machine
open Reg

theorem exec_sleep {s : State} (hon : s.pwr.mainOn = true) (e : Nat) : exec (.sleep e) s = .next (s.moveTo e).askSleep :=
  next_live hon _

theorem exec_wake {s : State} (hon : s.pwr.mainOn = true) (w : WakeSrc) (e : Nat) :
    exec (.wake w e) s = .next ((s.moveTo e).tryWake w) := next_live hon _

theorem exec_shutdown {s : State} (hon : s.pwr.mainOn = true) (e : Nat) : exec (.shutdown e) s = .next (s.moveTo e).askShutdown :=
  next_live hon _

theorem moveTo_allBlocked (s : State) (e : Nat) : (s.moveTo e).allBlocked = s.allBlocked := by
  obtain ⟨e', o, k, h⟩ := moveTo_eq s e
  rw [h]
  rfl

theorem moveTo_wakeOn (s : State) (e : Nat) (w : WakeSrc) : (s.moveTo e).wakeOn w = s.wakeOn w := by
  obtain ⟨e', o, k, h⟩ := moveTo_eq s e
  rw [h]
  cases w <;> rfl

theorem moveTo_stage (s : State) (e : Nat) : (s.moveTo e).stage = s.stage := rd_moveTo s e _

theorem moveTo_bit (s : State) (e : Nat) (f : Fld) : (s.moveTo e).bit f = s.bit f := bit_of_regs (moveTo_regs s e) f

/-- Sleep asked for where nothing forbids it waits for the next boundary (R640). -/
theorem askSleep_taken {s : State} (hblocked : s.allBlocked = true) (hstage : 4 ≤ s.stage)
    (hpend : s.bit TRI_FW_STATUS.PENDING = false) (hbusy : s.bit PWR_BOOT_CTRL.BUSY = false) :
    s.askSleep.pwr = { s.pwr with sleepPend := true } := by
  have hgo : ¬((!s.allBlocked) = true ∨ s.stage < 4 ∨ s.bit TRI_FW_STATUS.PENDING = true ∨ s.bit PWR_BOOT_CTRL.BUSY = true) := by
    simp [hblocked, hpend, hbusy]
    omega
  have hrings : (s.ringsOn.foldl (fun s r => s.toWadi r) s).pwr = s.pwr :=
    foldl_keep State.pwr _ (fun u r => (Only.toWadi (Only.refl 0x1101100000001200 u) r rfl).pwr rfl) _ s
  unfold State.askSleep
  rw [if_neg hgo]
  exact congrArg (fun p : PwrSt => { p with sleepPend := true }) hrings

theorem askSleep_refused {s : State} (h : s.allBlocked = false ∨ s.stage < 4 ∨ s.bit TRI_FW_STATUS.PENDING = true ∨
    s.bit PWR_BOOT_CTRL.BUSY = true) : s.askSleep = s.refuse PWR_STATUS.CFG_ERR := by
  refine if_pos ?_
  simpa only [Bool.not_eq_true'] using h

/-- The state of a device that a source wakes, before its record (R641). -/
def State.woken (s : State) (b : Nat) : State :=
  { ((s.wr PWR_STATUS.SLEEP 0).wr HOST_STATUS.SLEEP 0).wr PWR_STATUS.WAKE_SRC b with
    pwr := { (((s.wr PWR_STATUS.SLEEP 0).wr HOST_STATUS.SLEEP 0).wr PWR_STATUS.WAKE_SRC b).pwr with waking := true, wakePend := true } }

theorem wake_eq (s : State) (b : Nat) : s.wake b = (s.woken b).powerEvent 3 b := rfl

theorem rd_woken (s : State) (b : Nat) (f : Fld) :
    (s.woken b).rd f = (((s.wr PWR_STATUS.SLEEP 0).wr HOST_STATUS.SLEEP 0).wr PWR_STATUS.WAKE_SRC b).rd f := rfl

/-- What a wake source that acts shows (R641). -/
theorem wake_shows (s : State) (b : Nat) : (s.wake b).rd PWR_STATUS.SLEEP = 0 ∧ (s.wake b).rd PWR_STATUS.WAKE_SRC = b % 8 ∧
    (s.wake b).pwr.waking = true := by
  have hpost : Only 0x1100100000000200 (s.woken b) (s.wake b) := Only.powerEvent (Only.refl _ _) 3 b rfl
  rw [hpost.rd _ (by decide), hpost.rd _ (by decide), hpost.pwr rfl, rd_woken, rd_woken]
  simp (disch := decide) only [State.rd_wr_self, State.rd_wr_apart]
  exact ⟨rfl, rfl, rfl⟩

/-- A shutdown asked for in the safe state is remembered, whether or not it was before (R647). -/
theorem askShutdown_taken {s : State} (hsafe : s.rd SLC_BLOCK_STATUS.SCOPE = 3) :
    s.askShutdown.pwr = { s.pwr with shutdown := true } := by
  unfold State.askShutdown
  rw [if_neg (by simp [hsafe])]
  split
  case isTrue hdown => rw [← hdown]
  case isFalse hup =>
    dsimp only
    split
    · exact (Only.latchNow (Only.refl 0x182001800000000 { s with pwr := { s.pwr with shutdown := true } }) rfl).pwr rfl
    · rfl

theorem exec_shutdownDone {s : State} (hon : s.pwr.mainOn = true) (hdown : s.pwr.shutdown = true) (hsnap : s.mtr.snap = none)
    (hform : s.mtr.form = none) (hpf : s.pwr.pfAt = none) (hready : s.bit PWR_STATUS.OFF_READY = false) (fail e : Nat) :
    exec (.shutdownDone fail e) s =
      .next ((((s.moveTo e).wr BIST_STATUS.VALID 1).wr BIST_STATUS.FAIL fail).wr PWR_STATUS.OFF_READY 1) := by
  refine (next_live hon _).trans (congrArg _ (if_neg ?_))
  simp [hdown, hsnap, hform, hpf, moveTo_bit, hready]

/-- Settles O52: each command by the equation of the case it is in. -/
theorem sleepAndShutdownCommands : Obligations.SleepAndShutdownCommands := by
  refine ⟨fun s e hon => ⟨fun hblocked hstage hpend hbusy => ?_, fun hbad => ?_⟩,
    fun s w e hon => ⟨fun hsleep hsrc => ?_, fun hno => ?_⟩, fun s e hon => ⟨fun hsafe => ?_, fun hout => ?_⟩,
    fun s fail e hon hdown hsnap hform hpf hready => ?_⟩
  · refine ⟨_, exec_sleep hon e, ?_⟩
    rw [askSleep_taken ((moveTo_allBlocked s e).trans hblocked) (by rwa [moveTo_stage]) ((moveTo_bit s e _).trans hpend)
      ((moveTo_bit s e _).trans hbusy), s.moveTo_pwr]
  · refine ⟨_, exec_sleep hon e, ?_⟩
    rw [askSleep_refused (by rwa [moveTo_allBlocked, moveTo_stage, moveTo_bit, moveTo_bit])]
    exact ⟨rd_refuse_self _ rfl (by decide), by rw [State.refuse_pwr, s.moveTo_pwr]⟩
  · refine ⟨_, exec_wake hon w e, ?_⟩
    have hgo : (s.moveTo e).tryWake w = (s.moveTo e).wake (wakeBit w) :=
      if_pos (by rw [moveTo_bit, moveTo_wakeOn, hsleep, hsrc]; rfl)
    obtain ⟨hs, hw, hwaking⟩ := wake_shows (s.moveTo e) (wakeBit w)
    rw [hgo]
    exact ⟨hs, hw.trans (by cases w <;> rfl), hwaking⟩
  · rw [exec_wake hon w e]
    refine congrArg _ (if_neg ?_)
    rw [moveTo_bit, moveTo_wakeOn]
    rcases hno with h | h <;> simp [h]
  · refine ⟨_, exec_shutdown hon e, ?_⟩
    rw [askShutdown_taken ((rd_moveTo s e _).trans hsafe), s.moveTo_pwr]
  · refine ⟨_, exec_shutdown hon e, ?_⟩
    have hgo : (s.moveTo e).askShutdown = (s.moveTo e).refuse PWR_STATUS.CFG_ERR := if_pos (by rwa [rd_moveTo])
    rw [hgo]
    exact ⟨rd_refuse_self _ rfl (by decide), by rw [State.refuse_pwr, s.moveTo_pwr]⟩
  · refine ⟨_, exec_shutdownDone hon hdown hsnap hform hpf hready fail e, ?_⟩
    simp (disch := decide) only [State.rd_wr_self, State.rd_wr_apart]
    exact ⟨rfl, rfl, rfl⟩

end Sys2Proof.Machine
end

section
/-! PROOFS. The return to COMMISSIONING with a count wider than its field (17_clocks_power_lifecycle.md R651): O53. -/
namespace Sys2Proof.Machine
open Reg

theorem exec_lcTransition {s : State} (hon : s.pwr.mainOn = true) (v : Nat) (ag : Agent) (e : Nat) :
    exec (.lcTransition v ag e) s = .next ((s.moveTo e).writeLife v) := next_live hon _

/-- A return from COMMISSIONED counts RETURNS_LEFT down by one (R651). -/
theorem writeLife_returns {s : State} (hstate : s.rd LC_STATE.STATE = 3) (hsafe : s.rd SLC_BLOCK_STATUS.SCOPE = 3)
    (hdoor : s.doorDemands = true) (hleft : 0 < s.rd LC_STATE.RETURNS_LEFT) :
    s.writeLife (2 * 2 ^ 29 + 0x4C02) =
      (((s.wr SAFE_STATUS.CONFIRMED 0).wr LC_STATE.RETURNS_LEFT (s.rd LC_STATE.RETURNS_LEFT - 1)).setLife 2).showSil := by
  have htgt : bits (2 * 2 ^ 29 + 0x4C02) 29 3 = 2 := by decide
  unfold State.writeLife
  dsimp only
  rw [htgt, hstate, hsafe, if_neg (by decide), if_neg (by decide), if_neg (by decide), if_neg (by simp),
    if_pos ⟨rfl, rfl, rfl, hdoor, hleft⟩]

theorem rd_returnsLeft_setLife (s : State) (n : Nat) : (s.setLife n).rd LC_STATE.RETURNS_LEFT = s.rd LC_STATE.RETURNS_LEFT := by
  refine ((Only.post (Only.refl 0x1100100000000200 _) _ _ rfl).rd _ (by decide)).trans ?_
  simp (disch := decide) only [State.showSil, State.rd_wr_apart]

/-- COMMISSIONED, in the safe state, with the door open and RETURNS_LEFT bound to a value beyond its four bits. -/
def strayReturns : State :=
  let s := ((State.reset.wr LC_STATE.STATE 3).wr SLC_BLOCK_STATUS.SCOPE 3).wri SAFE_IN_CFG_n.TYPE 0 2
  { s.setSin 0 { SafeIn.init with a := true } with regs := tput regDefault s.regs (LC_STATE.RETURNS_LEFT.key 0) 17 }

/-- Refutes O53: its clause on the return to COMMISSIONING takes RETURNS_LEFT - 1 from a register table that no hypothesis binds to
the four bits of RETURNS_LEFT. With 17 in the table the write leaves 16 cut to four bits, which is 0. -/
theorem not_oasisAndLifeCycleCommands : ¬ Obligations.OasisAndLifeCycleCommands := by
  unfold Obligations.OasisAndLifeCycleCommands
  rintro ⟨-, -, -, hlife, -⟩
  obtain ⟨-, -, hreturn, -⟩ := hlife strayReturns .host 0 rfl
  have hleft : strayReturns.rd LC_STATE.RETURNS_LEFT = 17 := by decide
  have hstate : strayReturns.rd LC_STATE.STATE = 3 := by decide
  have hsafe : strayReturns.rd SLC_BLOCK_STATUS.SCOPE = 3 := by decide
  have hdoor : strayReturns.doorDemands = true := by decide
  obtain ⟨t, ht, -, -, hcount⟩ := hreturn hstate hsafe hdoor (by omega)
  obtain rfl : _ = t := Host.Outcome.next.inj ((exec_lcTransition rfl _ _ _).symm.trans ht)
  have hkept : (strayReturns.moveTo 0) = strayReturns := rfl
  rw [hkept, writeLife_returns hstate hsafe hdoor (by omega), rd_showSil _ (by decide), rd_returnsLeft_setLife, State.rd_wr_self _ _ (by decide),
    hleft] at hcount
  exact absurd hcount (by decide)

end Sys2Proof.Machine
end

section
/-! PROOFS. Main power-on, the resets of the main die, the bring-up stages and persisting (17_clocks_power_lifecycle.md R631 to
R638): O33. -/
namespace Sys2Proof.Machine
open Reg

theorem exec_mainPowerOn {s : State} (hoff : s.pwr.mainOn = false) : exec .mainPowerOn s = .next s.powerOn :=
  congrArg Host.Outcome.next (if_neg (by simp [hoff]))

/-- Main power-on leaves the parts of the state that have no memory of their own as they are at reset (R631). -/
theorem powerOn_parts (s : State) : s.powerOn.cells = [] ∧ s.powerOn.slc = State.reset.slc ∧ s.powerOn.law = State.reset.law ∧
    s.powerOn.rings = State.reset.rings ∧ s.powerOn.tm.e = 0 := by
  unfold State.powerOn
  dsimp only
  split
  · unfold State.powerEvent
    simp only [State.post_cells, State.post_slc, State.post_law, State.post_rings, State.post_tm, State.wr_cells, State.wr_slc,
      State.wr_law, State.wr_rings, State.wr_tm]
    exact ⟨rfl, rfl, rfl, rfl, rfl⟩
  · exact ⟨rfl, rfl, rfl, rfl, rfl⟩

/-! ### The motor channels while the link to the main die is lost (R596, R685) -/

theorem auxDecel_out (s : State) (m : Nat) : (s.auxDecel m).out = s.out := by
  unfold State.auxDecel
  dsimp only
  split
  · exact (State.wri_out ..).trans (State.wri_out ..)
  · rfl

theorem auxDecel_pwr (s : State) (m : Nat) : (s.auxDecel m).pwr = s.pwr := (Only.auxDecel (Only.refl 0x400010000000000 s) m rfl).pwr rfl

theorem auxStop_pwr (s : State) (m : Nat) : (s.auxStop m).pwr = s.pwr := (Only.auxStop (Only.refl 0x1500110000000200 s) m rfl).pwr rfl

theorem rd_auxStop (s : State) (m : Nat) {f : Fld} (hf : fr 0x1500110000000200 f = true) : (s.auxStop m).rd f = s.rd f :=
  (Only.auxStop (Only.refl 0x1500110000000200 s) m rfl).rd f hf

theorem auxStop_out (s : State) (m : Nat) : s.out <+: (s.auxStop m).out := by
  unfold State.auxStop
  dsimp only
  split
  · exact State.auxDown_out (s.updAch m fun x => { x with resume := false }) ..
  · exact (auxDecel_out (s.updAch m fun x => { x with resume := false }) m).symm ▸ List.prefix_refl _

/-- A channel in RUN decelerates (R596). -/
theorem auxStop_running {s : State} {m : Nat} (hm : m < 2) (hrun : s.astate m = 4) : (s.auxStop m).astate m = 5 := by
  have hupd : (s.updAch m fun x => { x with resume := false }).astate m = 4 := hrun
  unfold State.auxStop
  dsimp only
  rw [if_neg (by rw [hupd]; decide)]
  exact (decel_spec _ m hm (.inr (.inr hupd))).1

theorem auxDecel_other (s : State) {j m : Nat} (h : j ≠ m) : (s.auxDecel j).astate m = s.astate m := by
  unfold State.auxDecel
  dsimp only
  split
  · exact (State.rdi_wri_apart (s.wri AUX_STATUS_m.STATE j 5) _ _ _ (by decide)).trans (s.rdi_wri_entry _ h)
  · rfl

/-- Stopping one channel is nothing to the other. -/
theorem auxStop_other (s : State) {j m : Nat} (h : j ≠ m) : (s.auxStop j).astate m = s.astate m := by
  unfold State.auxStop
  dsimp only
  split
  · refine (down_off _ j 0 3 0 AUX_STATUS_m.STATE m (by decide) fun x hx => ?_).trans rfl
    simp only [List.mem_cons, List.not_mem_nil, or_false] at hx
    rcases hx with rfl | rfl | rfl
    · exact .inl ⟨rfl, h⟩
    · exact .inr (by decide)
    · exact .inr (by decide)
  · exact auxDecel_other (s.updAch j fun x => { x with resume := false }) h

/-- The main die stops: the breaker outputs trip and the link to the motor channels is lost (R409, R596). -/
def State.dieStops (s : State) : State := (((s.wr SLC_BLOCK_STATUS.BRK 1).showBrk).auxStop 0).auxStop 1

theorem dieStops_pwr (s : State) : s.dieStops.pwr = s.pwr := by
  unfold State.dieStops
  rw [auxStop_pwr, auxStop_pwr, State.showBrk_pwr, State.wr_pwr]

theorem dieStops_brk (s : State) : s.dieStops.rd SLC_BLOCK_STATUS.BRK = 1 := by
  unfold State.dieStops
  rw [rd_auxStop _ _ (by decide), rd_auxStop _ _ (by decide)]
  exact s.rd_wr_self 1 (by decide)

theorem dieStops_running {s : State} (m : Fin 2) (hrun : s.astate m = 4) : s.dieStops.astate m = 5 := by
  have htrip : ((s.wr SLC_BLOCK_STATUS.BRK 1).showBrk).astate m = 4 := (s.rdi_wri_apart _ _ _ (by decide)).trans hrun
  unfold State.dieStops
  rcases (by omega : m.val = 0 ∨ m.val = 1) with hm | hm
  · rw [hm] at htrip ⊢
    rw [auxStop_other _ (by decide), auxStop_running (by decide) htrip]
  · rw [hm] at htrip ⊢
    exact auxStop_running (by decide) ((auxStop_other _ (by decide)).trans htrip)

/-- The trip is on the breaker outputs where VDDIO_33 is present, which read 0 without it (R679). -/
theorem dieStops_trips (s : State) : Out.brkTrip s.pwr.vddio s.pwr.vddio ∈ s.dieStops.out := by
  have hbrk : (s.wr SLC_BLOCK_STATUS.BRK 1).bit SLC_BLOCK_STATUS.BRK = true := by
    unfold State.bit
    rw [State.rd_wr_self _ _ (by decide)]
    rfl
  refine ((auxStop_out _ 0).trans (auxStop_out _ 1)).subset ?_
  unfold State.showBrk State.emit
  rw [hbrk, State.wr_pwr, Bool.and_true]
  exact List.mem_append_right _ (List.mem_singleton_self _)

/-- One channel of an aux die without its supply. -/
def State.auxCut (s : State) (m : Nat) : State :=
  ((((s.wri AUX_STATUS_m.STATE m 0).wri AUX_STATUS_m.HOLD m 0).updAch m (fun _ => AuxCh.init)).emit (.driveOff m)).emit (.auxHold m false)

theorem auxDead_eq (s : State) : s.auxDead = (s.auxCut 0).auxCut 1 := rfl

theorem auxCut_out (s : State) (m : Nat) : (s.auxCut m).out = s.out ++ [.driveOff m] ++ [.auxHold m false] := by
  have hregs : ((s.wri AUX_STATUS_m.STATE m 0).wri AUX_STATUS_m.HOLD m 0).out = s.out := (State.wri_out ..).trans (State.wri_out ..)
  rw [← hregs]
  rfl

theorem auxCut_rdi (s : State) (m : Nat) (f : Fld) (i : Nat) :
    (s.auxCut m).rdi f i = ((s.wri AUX_STATUS_m.STATE m 0).wri AUX_STATUS_m.HOLD m 0).rdi f i :=
  rdi_of_regs (s := (s.wri AUX_STATUS_m.STATE m 0).wri AUX_STATUS_m.HOLD m 0) rfl f i

/-- A channel without supply reads OFF and holds nothing (R685). -/
theorem auxCut_self (s : State) {m : Nat} (hm : m < 2) :
    (s.auxCut m).rdi AUX_STATUS_m.STATE m = 0 ∧ (s.auxCut m).rdi AUX_STATUS_m.HOLD m = 0 := by
  rw [auxCut_rdi, auxCut_rdi, State.rdi_wri_apart _ _ _ _ (by decide), State.rdi_wri_self _ _ hm, State.rdi_wri_self _ _ hm]
  exact ⟨rfl, rfl⟩

theorem auxCut_other (s : State) {j m : Nat} (h : j ≠ m) : (s.auxCut j).rdi AUX_STATUS_m.STATE m = s.rdi AUX_STATUS_m.STATE m ∧
    (s.auxCut j).rdi AUX_STATUS_m.HOLD m = s.rdi AUX_STATUS_m.HOLD m := by
  rw [auxCut_rdi, auxCut_rdi, State.rdi_wri_apart _ _ _ _ (by decide), State.rdi_wri_entry _ _ h, State.rdi_wri_entry _ _ h,
    State.rdi_wri_apart _ _ _ _ (by decide)]
  exact ⟨rfl, rfl⟩

theorem auxDead_shows (s : State) (m : Fin 2) : s.auxDead.astate m = 0 ∧ s.auxDead.rdi AUX_STATUS_m.HOLD m = 0 ∧
    Out.driveOff m ∈ s.auxDead.out := by
  have hout : s.auxDead.out = s.out ++ [.driveOff 0] ++ [.auxHold 0 false] ++ [.driveOff 1] ++ [.auxHold 1 false] := by
    rw [auxDead_eq, auxCut_out, auxCut_out]
  rw [hout, auxDead_eq]
  unfold State.astate
  rcases (by omega : m.val = 0 ∨ m.val = 1) with hm | hm
  · rw [hm, (auxCut_other _ (by decide)).1, (auxCut_other _ (by decide)).2]
    exact ⟨(auxCut_self s (by decide)).1, (auxCut_self s (by decide)).2, by simp⟩
  · rw [hm]
    exact ⟨(auxCut_self _ (by decide)).1, (auxCut_self _ (by decide)).2, by simp⟩

theorem auxDead_pwr (s : State) : s.auxDead.pwr = s.pwr := (Only.auxDead (Only.refl 0x1400010000000000 s) rfl).pwr rfl

theorem auxDead_out (s : State) : s.out <+: s.auxDead.out := by
  rw [auxDead_eq, auxCut_out, auxCut_out]
  simp only [List.append_assoc]
  exact List.prefix_append _ _

theorem rd_auxDead (s : State) {f : Fld} (hf : fr 0x1400010000000000 f = true) : s.auxDead.rd f = s.rd f :=
  (Only.auxDead (Only.refl 0x1400010000000000 s) rfl).rd f hf

/-- The main die without its rails (R632). -/
def State.railsLost (u : State) (report : Bool) : State :=
  { u with pwr := { u.pwr with mainOn := false, railsOk := false, railReset := report } }

theorem exec_railReset {s : State} (hon : s.pwr.mainOn = true) :
    exec .railReset s = .next ((if s.pwr.vddio then s.dieStops else s.dieStops.auxDead).railsLost
      (s.pwr.railReset || (s.pwr.mainOn && !s.pwr.pfDone))) := by
  have hstop : s.live (fun s => (((s.wr SLC_BLOCK_STATUS.BRK 1).showBrk).auxStop 0).auxStop 1) = s.dieStops := State.live_on s hon
  rw [← hstop]
  rfl

theorem railsLost_keeps (u : State) (report : Bool) : (u.railsLost report).out = u.out ∧ (u.railsLost report).regs = u.regs ∧
    (u.railsLost report).pwr.vddio = u.pwr.vddio := ⟨rfl, rfl, rfl⟩

theorem exec_resetNAsserted {s : State} (hon : s.pwr.mainOn = true) :
    exec .resetNAsserted s = .next { s.dieStops with pwr := { s.dieStops.pwr with mainOn := false, resetN := false } } := by
  have hstop : s.live (fun s => (((s.wr SLC_BLOCK_STATUS.BRK 1).showBrk).auxStop 0).auxStop 1) = s.dieStops := State.live_on s hon
  rw [← hstop]
  rfl

/-! ### The stages (R634, R635) -/

theorem setStage_stage (s : State) {n : Nat} (h : n < 8) : (s.setStage n).stage = n :=
  ((Only.powerEvent (Only.refl 0x1100100000000200 _) _ _ rfl).rd _ (by decide)).trans
    ((s.rd_wr_self n (by decide)).trans (Nat.mod_eq_of_lt h))

theorem setStage_only (s : State) (n : Nat) : Only 0x1100100000000300 s (s.setStage n) := Only.setStage (Only.refl _ s) n rfl

theorem enterB5_shows (s : State) : s.enterB5.stage = 5 ∧ s.enterB5.rd MTR_STATUS.CAL_PENDING = 0 := by
  refine ⟨setStage_stage _ (by decide), ?_⟩
  unfold State.enterB5
  rw [(setStage_only _ 5).rd _ (by decide)]
  exact State.rd_wr_self _ 0 (by decide)

section
variable {s : State} (b : Option BootRun) (e : Nat)

/-- What BRINGUP_STAGE does where neither a failed boot nor a restart holds the stage (R635). -/
theorem exec_bringupStage (hon : s.pwr.mainOn = true) (hboot : s.pwr.bootFail = false) (hrestart : s.pwr.restart = false) :
    (s.stage = 1 → s.tri.imageOk = true → s.pwr.tready = true → exec (.bringupStage b e) s = .next ((s.moveTo e).setStage 2)) ∧
    (s.stage = 2 → s.tm.run = false → (s.moveTo e).stageOk 3 = true →
      exec (.bringupStage b e) s = .next ((s.moveTo e).startTick.setStage 3)) ∧
    (s.stage = 3 → s.tm.run = true → s.bit PWR_STATUS.SLEEP = false → s.pwr.wakePend = false → (s.moveTo e).stageOk 4 = true →
      exec (.bringupStage b e) s = .next (s.moveTo e).enterB4) ∧
    (s.stage = 4 → exec (.bringupStage b e) s = .next (if (s.moveTo e).stageOk 5 then (s.moveTo e).enterB5 else s.moveTo e)) := by
  have hgo : ¬((s.moveTo e).pwr.bootFail = true ∨ (s.moveTo e).pwr.restart = true) := by simp [hboot, hrestart]
  have hrun : (s.moveTo e).tm.run = s.tm.run := by rw [(moveTo_sim s e).1]
  refine ⟨fun hst hok hready => ?_, fun hst htick hok => ?_, fun hst htick hsleep hwake hok => ?_, fun hst => ?_⟩ <;>
    refine (next_live hon _).trans (congrArg _ ((if_neg hgo).trans ?_)) <;> rw [moveTo_stage, hst]
  · simp [hok, hready]
  · simp [hrun, htick, hok]
  · simp [hrun, htick, moveTo_bit, hsleep, hwake, hok]
  · rfl

end

/-! ### Persisting (R638) -/

theorem exec_persist {s : State} (hon : s.pwr.mainOn = true) (e : Nat) : exec (.persist e) s = .next (s.moveTo e).askPersist :=
  next_live hon _

/-- The boot flash after the idle slot has taken an image; with a good read-back the header names that slot (R638). -/
def flashTaking (fl : Flash) (img : List Byte) (ok : Bool) : Flash :=
  let fl' := if 1 - fl.select = 0 then { fl with slot0 := img } else { fl with slot1 := img }
  if ok then { fl' with select := 1 - fl.select } else fl'

/-- The registers and the flash once a persist has ended, before its record. -/
def State.persisted (s : State) (ok : Bool) : State :=
  let s' := (({ s with pwr := { s.pwr with persistAt := none, flash := flashTaking s.pwr.flash s.activeImage ok } }).wr
    PWR_BOOT_CTRL.BUSY 0).wr PWR_BOOT_CTRL.RESULT (if ok then 1 else 2)
  if ok then s'.wr PWR_BOOT_CTRL.SELECT (1 - s.pwr.flash.select) else s'

theorem exec_persistDone {s : State} {a : Nat} (hon : s.pwr.mainOn = true) (hat : s.pwr.persistAt = some a) (ok : Bool) :
    exec (.persistDone ok) s = .next ((s.persisted ok).powerEvent 8 (if ok then 1 else 2)) := by
  refine (next_live hon _).trans (congrArg _ ?_)
  rw [hat]
  rfl

theorem persisted_pwr (s : State) (ok : Bool) :
    (s.persisted ok).pwr = { s.pwr with persistAt := none, flash := flashTaking s.pwr.flash s.activeImage ok } := by
  cases ok <;> rfl

theorem persisted_shows (s : State) (ok : Bool) : (s.persisted ok).rd PWR_BOOT_CTRL.BUSY = 0 ∧
    (s.persisted ok).rd PWR_BOOT_CTRL.RESULT = (if ok then 1 else 2) ∧
    (ok = true → (s.persisted ok).rd PWR_BOOT_CTRL.SELECT = (1 - s.pwr.flash.select) % 2) := by
  unfold State.persisted
  cases ok <;> simp (disch := decide) only [State.rd_wr_self, State.rd_wr_apart, if_true, Bool.false_eq_true, if_false]
  · exact ⟨rfl, rfl, nofun⟩
  · exact ⟨rfl, rfl, fun _ => rfl⟩

/-- The record of a persist leaves what it reports (R655). -/
theorem persistRecord_shows (s : State) (ok : Bool) : let t := (s.persisted ok).powerEvent 8 (if ok then 1 else 2)
    t.rd PWR_BOOT_CTRL.BUSY = 0 ∧ t.rd PWR_BOOT_CTRL.RESULT = (if ok then 1 else 2) ∧
    (ok = true → t.rd PWR_BOOT_CTRL.SELECT = (1 - s.pwr.flash.select) % 2) ∧ t.pwr.flash = flashTaking s.pwr.flash s.activeImage ok := by
  have only := Only.powerEvent (Only.refl 0x1100100000000200 (s.persisted ok)) 8 (if ok then 1 else 2) rfl
  dsimp only
  rw [only.rd _ (by decide), only.rd _ (by decide), only.rd _ (by decide), only.pwr rfl, persisted_pwr]
  obtain ⟨hbusy, hresult, hselect⟩ := persisted_shows s ok
  exact ⟨hbusy, hresult, hselect, rfl⟩

/-- The slot that the boot header did not name holds the image. -/
theorem flashTaking_slot (fl : Flash) (img : List Byte) (ok : Bool) (h : fl.select ≤ 1) :
    (if fl.select = 1 then (flashTaking fl img ok).slot0 else (flashTaking fl img ok).slot1) = img ∧
    (flashTaking fl img ok).select = if ok then 1 - fl.select else fl.select := by
  unfold flashTaking
  rcases (by omega : fl.select = 0 ∨ fl.select = 1) with h0 | h0 <;> rw [h0] <;> cases ok <;> simp

/-- Settles O33: power-on by `powerOn_parts`, the two resets by what `State.dieStops` shows, the stages by `exec_bringupStage`, persisting by what
`State.persisted` shows. -/
theorem powerUpAndPersistCommands : Obligations.PowerUpAndPersistCommands := by
  refine ⟨fun s hoff => ⟨_, exec_mainPowerOn hoff, powerOn_main s, powerOn_parts s⟩, fun s v hon hv => ?_, fun s hon => ?_,
    fun s b e hon hboot hrestart => ?_, fun s e hon => ⟨fun hstaging hpend hlife => ?_, fun hbad => ?_⟩, fun s a hon hat hsel => ⟨?_, ?_⟩⟩
  · refine ⟨_, exec_railReset hon, rfl, rfl, ?_⟩
    generalize hu : (if s.pwr.vddio then s.dieStops else s.dieStops.auxDead) = u
    obtain ⟨hout, hregs, hvddio⟩ := railsLost_keeps u (s.pwr.railReset || (s.pwr.mainOn && !s.pwr.pfDone))
    have htrip := dieStops_trips s
    unfold State.astate
    simp only [hout, rdi_of_regs hregs, State.rd_def, hvddio]
    simp only [← State.rd_def]
    rw [hv] at hu htrip
    subst hu
    have hreport : (s.pwr.railReset || (s.pwr.mainOn && !s.pwr.pfDone)) = (s.pwr.railReset || !s.pwr.pfDone) := by rw [hon, Bool.true_and]
    cases v with
    | true => exact ⟨(congrArg PwrSt.vddio (dieStops_pwr s)).trans hv, dieStops_brk s, hreport, htrip, nofun⟩
    | false =>
      exact ⟨(congrArg PwrSt.vddio ((auxDead_pwr _).trans (dieStops_pwr s))).trans hv, (rd_auxDead _ (by decide)).trans (dieStops_brk s),
        hreport, (auxDead_out _).subset htrip, fun _ m => auxDead_shows _ m⟩
  · exact ⟨_, exec_resetNAsserted hon, rfl, rfl, dieStops_brk s, fun m => dieStops_running m⟩
  · obtain ⟨h1, h2, h3, h4⟩ := exec_bringupStage b e hon hboot hrestart
    refine ⟨fun hst hok hready => ⟨_, h1 hst hok hready, setStage_stage _ (by decide)⟩,
      fun hst htick hok => ⟨_, h2 hst htick hok, setStage_stage _ (by decide), ?_⟩,
      fun hst htick hsleep hwake hok => ⟨_, h3 hst htick hsleep hwake hok, setStage_stage _ (by decide), ?_⟩,
      fun hst hok => ⟨_, h4 hst, ?_⟩, fun hst hno => ?_⟩
    · rw [(setStage_only _ 3).tm rfl]
      rfl
    · unfold State.enterB4
      rw [(setStage_only _ 4).pwr rfl]
    · rw [if_pos hok]
      exact enterB5_shows _
    · rw [h4 hst, if_neg (by rw [hno]; decide)]
  · refine ⟨_, exec_persist hon e, ?_⟩
    have hgo : ¬((s.moveTo e).bit TRI_FW_STATUS.STAGING = true ∨ (s.moveTo e).bit TRI_FW_STATUS.PENDING = true ∨
        (s.moveTo e).rd LC_STATE.STATE = 4) := by
      simp [moveTo_bit, hstaging, hpend, hlife]
    unfold State.askPersist
    rw [if_neg hgo, State.wr_pwr]
    exact ⟨State.rd_wr_self _ 1 (by decide), rfl⟩
  · refine ⟨_, exec_persist hon e, ?_⟩
    have hno : (s.moveTo e).bit TRI_FW_STATUS.STAGING = true ∨ (s.moveTo e).bit TRI_FW_STATUS.PENDING = true ∨
        (s.moveTo e).rd LC_STATE.STATE = 4 := by rwa [moveTo_bit, moveTo_bit, rd_moveTo]
    unfold State.askPersist
    rw [if_pos hno, State.refuse_pwr, State.wr_pwr, s.moveTo_pwr]
    exact ⟨(State.rd_wr_apart _ 1 (by decide)).trans (State.rd_wr_self _ 3 (by decide)), rd_refuse_self _ rfl (by decide), rfl⟩
  · obtain ⟨hbusy, hresult, hselect, hflash⟩ := persistRecord_shows s true
    obtain ⟨hslot, hsel'⟩ := flashTaking_slot s.pwr.flash s.activeImage true hsel
    refine ⟨_, exec_persistDone hon hat true, hbusy, hresult, (hselect rfl).trans (Nat.mod_eq_of_lt (by omega)), ?_⟩
    rw [hflash]
    exact ⟨hsel', hslot⟩
  · obtain ⟨hbusy, hresult, -, hflash⟩ := persistRecord_shows s false
    obtain ⟨-, hsel'⟩ := flashTaking_slot s.pwr.flash s.activeImage false hsel
    refine ⟨_, exec_persistDone hon hat false, hbusy, hresult, ?_⟩
    rw [hflash]
    exact hsel'

end Sys2Proof.Machine
end

section
/-! PROOFS. A metering latch, its snapshot and the signed records (15_lease_metering.md R545, R546, R549, R555, R556): O55. -/
namespace Sys2Proof.Machine
open Reg

/-! ### The latch (R545, R546) -/

/-- A latch is taken: its number and means are shown, and its snapshot begins. -/
def State.latchTaken (s : State) (f : Snap × List Rec) : State :=
  { (s.wr MTR_LATCH.LATCH f.1.latch).showMeans with
    mtr := { (s.wr MTR_LATCH.LATCH f.1.latch).showMeans.mtr with form := none, due := none } }.beginSnap f

/-- The means of a latch's cycles in their registers (R573). -/
def State.meansShown (s : State) : State :=
  let mean (x : Rat) : Rat := divR x (s.mtr.cycles : Rat)
  if s.mtr.cycles = 0 then s
  else
    (List.range 3).foldl (fun u p =>
      (u.wri MTR_PWR_P_p.P p (unsg 32 (showR 82 (-2147483648) 2147483647 (mean (s.mtr.pSum.getD p 0))))).wri MTR_PWR_Q_p.Q p
        (unsg 32 (showR 83 (-2147483648) 2147483647 (mean (s.mtr.qSum.getD p 0)))))
      ((List.range 6).foldl (fun u c =>
        u.wri MTR_MEAS_c.RMS c (showR 81 0 4294967295 (mean (s.mtr.rms.getD c 0) * (if c < 3 then 100 else 10))).toNat) s)

theorem showMeans_eq (s : State) : s.showMeans = { s.meansShown with mtr := { s.meansShown.mtr with
    cycles := 0, rms := List.replicate 6 0, pSum := [0, 0, 0], qSum := [0, 0, 0] } } := rfl

theorem rd_meansShown (s : State) : s.meansShown.rd MTR_LATCH.LATCH = s.rd MTR_LATCH.LATCH := by
  unfold State.meansShown
  dsimp only
  split
  · rfl
  · refine (foldl_keep (fun u => u.rd MTR_LATCH.LATCH) _ (fun u p => ?_) _ _).trans
      (foldl_keep (fun u => u.rd MTR_LATCH.LATCH) _ (fun u c => ?_) _ _)
    · exact (State.rdi_wri_apart _ _ _ _ (by decide)).trans (State.rdi_wri_apart _ _ _ _ (by decide))
    · exact State.rdi_wri_apart _ _ _ _ (by decide)

theorem meansShown_mtr (s : State) : s.meansShown.mtr = s.mtr := by
  unfold State.meansShown
  dsimp only
  split
  · rfl
  · exact (foldl_keep State.mtr _ (fun u p => (State.wri_mtr ..).trans (State.wri_mtr ..)) _ _).trans
      (foldl_keep State.mtr _ (fun u c => State.wri_mtr ..) _ _)

theorem latchTaken_shows (s : State) (f : Snap × List Rec) : (s.latchTaken f).rd MTR_LATCH.LATCH = f.1.latch % 2 ^ 32 ∧
    (s.latchTaken f).mtr.snap = some f ∧ (s.latchTaken f).mtr.form = none ∧ (s.latchTaken f).mtr.due = none ∧
    (s.latchTaken f).mtr.cycles = 0 ∧ (s.latchTaken f).mtr.latchAt = s.mtr.latchAt := by
  unfold State.latchTaken
  rw [showMeans_eq, meansShown_mtr, State.wr_mtr]
  refine ⟨?_, rfl, rfl, rfl, rfl, rfl⟩
  refine Eq.trans (b := (s.wr MTR_LATCH.LATCH f.1.latch).meansShown.rd MTR_LATCH.LATCH) (rdi_of_regs rfl _ _) ?_
  rw [rd_meansShown]
  exact s.rd_wr_self _ (by decide)

/-- A latch that is formed is taken 100 µs after its boundary, while no snapshot is under way (R545). -/
def State.takeDue (s : State) : State :=
  match s.mtr.form, s.mtr.due with
  | some f, some d => if d ≤ s.tm.e ∧ s.mtr.snap = none ∧ s.pwr.pfAt = none then s.latchTaken f else s
  | _, _ => s

theorem takeDue_due {s : State} {d : Nat} {f : Snap × List Rec} (hform : s.mtr.form = some f) (hdue : s.mtr.due = some d)
    (hle : d ≤ s.tm.e) (hsnap : s.mtr.snap = none) (hpf : s.pwr.pfAt = none) : s.takeDue = s.latchTaken f := by
  unfold State.takeDue
  rw [hform, hdue]
  exact if_pos ⟨hle, hsnap, hpf⟩

/-- In sleep the latch of the boundary `b` is formed, and the next one follows from there (R545). -/
def State.sleepLatch (s : State) (b : Nat) : State :=
  { s.formLatch b with mtr := { (s.formLatch b).mtr with
      latchAt := b, n := (s.formLatch b).rd MTR_CFG.N, calDue := (s.formLatch b).mtr.calDue || (s.formLatch b).calAsked b } }

/-- The snapshot and the records that are formed at the boundary `b`. -/
def State.formed (s : State) (b : Nat) : Snap × List Rec :=
  (s.takeSnap 0 ((s.rd MTR_LATCH.LATCH + 1) % 2 ^ 32) b, s.drafts (s.takeSnap 0 ((s.rd MTR_LATCH.LATCH + 1) % 2 ^ 32) b) 0)

theorem sleepLatch_forms (s : State) (b : Nat) : (s.sleepLatch b).mtr.form = some (s.formed b) ∧
    (s.sleepLatch b).mtr.due = some (b + 100000) ∧ (s.sleepLatch b).mtr.latchAt = b := ⟨rfl, rfl, rfl⟩

theorem sleepLatch_keeps (s : State) (b : Nat) : (s.sleepLatch b).mtr.snap = s.mtr.snap ∧ (s.sleepLatch b).pwr = s.pwr ∧
    (s.sleepLatch b).tm = s.tm := by
  have hform : Only 0x82000000000000 s (s.formLatch b) := Only.formLatch (Only.refl _ s) b rfl
  refine ⟨?_, hform.pwr rfl, hform.tm rfl⟩
  have hcells : s.clearFlags.mtr.snap = s.mtr.snap := by
    unfold State.clearFlags
    dsimp only
    rw [(Only.mapCells (Only.refl 0x2000000000000 s) _ rfl).mtr rfl]
  exact hcells

/-- The boundary of the next latch in sleep: N nominal periods after the last (R545). -/
def State.sleepBoundary (s : State) : Nat := s.mtr.latchAt + s.mtr.n * s.nominalPeriod

theorem moveTo_sleepBoundary (s : State) (e : Nat) : (s.moveTo e).sleepBoundary = s.sleepBoundary := by
  unfold State.sleepBoundary State.nominalPeriod
  rw [s.moveTo_mtr, moveTo_bit]

section
variable {s : State} {e : Nat}

theorem exec_meterLatch (hon : s.pwr.mainOn = true) : exec (.meterLatch e) s = .next
    (if (s.moveTo e).bit PWR_STATUS.SLEEP ∧ (s.moveTo e).mtr.form = none ∧ (s.moveTo e).sleepBoundary + 100000 ≤ (s.moveTo e).tm.e
      then (s.moveTo e).sleepLatch (s.moveTo e).sleepBoundary else s.moveTo e).takeDue := next_live hon _

theorem exec_meterLatch_due {d : Nat} {f : Snap × List Rec} (hon : s.pwr.mainOn = true) (hform : s.mtr.form = some f)
    (hdue : s.mtr.due = some d) (hle : d ≤ (s.moveTo e).tm.e) (hsnap : s.mtr.snap = none) (hpf : s.pwr.pfAt = none) :
    exec (.meterLatch e) s = .next ((s.moveTo e).latchTaken f) := by
  rw [exec_meterLatch hon, if_neg (by simp [hform])]
  refine congrArg _ (takeDue_due ?_ ?_ hle ?_ ?_) <;> simpa

theorem exec_meterLatch_asleep (hon : s.pwr.mainOn = true) (hsleep : s.bit PWR_STATUS.SLEEP = true) (hform : s.mtr.form = none)
    (hle : s.sleepBoundary + 100000 ≤ (s.moveTo e).tm.e) (hsnap : s.mtr.snap = none) (hpf : s.pwr.pfAt = none) :
    exec (.meterLatch e) s =
      .next (((s.moveTo e).sleepLatch s.sleepBoundary).latchTaken ((s.moveTo e).formed s.sleepBoundary)) := by
  rw [exec_meterLatch hon, moveTo_sleepBoundary, if_pos ⟨(moveTo_bit s e _).trans hsleep, by rwa [s.moveTo_mtr], hle⟩]
  obtain ⟨hformed, hdue, -⟩ := sleepLatch_forms (s.moveTo e) s.sleepBoundary
  obtain ⟨hkeep, hpwr, htm⟩ := sleepLatch_keeps (s.moveTo e) s.sleepBoundary
  rw [s.moveTo_mtr] at hkeep
  rw [s.moveTo_pwr] at hpwr
  exact congrArg _ (takeDue_due hformed hdue (htm ▸ hle) (hkeep.trans hsnap) (hpwr ▸ hpf))

end

/-! ### The records of a latch (R546, R556) -/

/-- `n` records are made: each takes a number and waits for its signature. -/
structure RecsMade (n : Nat) (s t : State) : Prop where
  rseq : t.jr.rseq = s.jr.rseq + n
  queue : t.mtr.queue.length = s.mtr.queue.length + n
  snap : t.mtr.snap = s.mtr.snap
  slotA : t.jr.slotA = s.jr.slotA
  slotB : t.jr.slotB = s.jr.slotB

namespace RecsMade
variable {n m : Nat} {s t u : State}

theorem trans (h : RecsMade n s t) (g : RecsMade m t u) : RecsMade (n + m) s u where
  rseq := by rw [g.rseq, h.rseq, Nat.add_assoc]
  queue := by rw [g.queue, h.queue, Nat.add_assoc]
  snap := g.snap.trans h.snap
  slotA := g.slotA.trans h.slotA
  slotB := g.slotB.trans h.slotB

theorem none (hjr : unposted t.jr = unposted s.jr) (hmtr : t.mtr = s.mtr) : RecsMade 0 s t where
  rseq := by
    have h := congrArg Journal.rseq hjr
    exact h
  queue := by rw [hmtr, Nat.add_zero]
  snap := by rw [hmtr]
  slotA := by
    have h := congrArg Journal.slotA hjr
    exact h
  slotB := by
    have h := congrArg Journal.slotB hjr
    exact h

theorem meterFlags (rseq : Nat) (l : List FlagWait) (s : State) :
    RecsMade 0 s (l.foldl (fun s f => s.meterFlagAt f.code f.cell f.arg rseq f.tick f.elapsed) s) := by
  induction l generalizing s with
  | nil => exact none rfl rfl
  | cons f l ih => exact (none (meterFlagAt_jr ..) ((meterFlagAt_only ..).mtr rfl)).trans (ih _)

theorem makeRec (s : State) (r : Rec) : RecsMade 1 s (s.makeRec r) := by
  unfold State.makeRec
  dsimp only
  refine trans (m := 0) ?_ (meterFlags s.jr.rseq _ _)
  exact ⟨rfl, List.length_append, rfl, rfl, rfl⟩

theorem showCis (s : State) : RecsMade 0 s s.showCis :=
  have only : Only 0x2000000000 s s.showCis := Only.showCis (Only.refl _ s) rfl
  none (congrArg unposted (only.jr rfl)) (only.mtr rfl)

/-- A latch's records are made where none of the last is still to sign and all find a slot (R546, R556). -/
theorem makeRecs {l : List Rec} (hqueue : s.mtr.queue = [])
    (hroom : (s.jr.recs.filter (fun r => !r.consumed)).length + l.length ≤ 2828) : RecsMade l.length s (s.makeRecs l) := by
  have hmake : ∀ (l : List Rec) (s : State), RecsMade l.length s (l.foldl (fun s r => s.makeRec r) s) := by
    intro l
    induction l with
    | nil => exact fun s => none rfl rfl
    | cons r l ih =>
      intro s
      have := (makeRec s r).trans (ih (s.makeRec r))
      rwa [Nat.add_comm] at this
  unfold State.makeRecs
  simp only [hqueue, List.any_nil, Bool.not_false, List.filter_true, List.length_nil, Nat.add_zero, Bool.false_eq_true, if_false]
  rw [if_neg (by omega)]
  have := (showCis s).trans (hmake l s.showCis)
  rwa [Nat.zero_add] at this

/-- OUTAGE_UNKNOWN marks the records of the first latch; as many are made (R565). -/
theorem latchRecs {l : List Rec} (hqueue : s.mtr.queue = [])
    (hroom : (s.jr.recs.filter (fun r => !r.consumed)).length + l.length ≤ 2828) : RecsMade l.length s (s.latchRecs l) := by
  unfold State.latchRecs
  split
  · have := makeRecs (s := { s with mtr := { s.mtr with unknown := false } })
      (l := l.map fun r => { r with flags := setBit r.flags 4 }) hqueue (by simpa using hroom)
    rw [List.length_map] at this
    exact ⟨this.rseq, this.queue, this.snap, this.slotA, this.slotB⟩
  · exact makeRecs hqueue hroom

end RecsMade

/-- A snapshot that is committed changes its slot and the cells' baselines alone (R553, R555). -/
theorem commitSnap_eq (s : State) (x : Snap) : ∃ n, s.commitSnap x = { s with jr := { s.jr.putSnap x with nodes := n } } := by
  have hnodes : ∀ (l : Tab SnapCell) (u : State), ∃ n,
      l.foldl (fun s kv => s.setNode kv.1 (tget (fun _ => (0, 0)) s.jr.nodes kv.1).1 kv.2.base) u = { u with jr := { u.jr with nodes := n } } := by
    intro l
    induction l with
    | nil => exact fun u => ⟨u.jr.nodes, rfl⟩
    | cons kv l ih => exact fun u => (ih (u.setNode kv.1 (tget (fun _ => (0, 0)) u.jr.nodes kv.1).1 kv.2.base)).imp fun _ h => h
  exact hnodes x.cells { s with jr := s.jr.putSnap x }

theorem putSnap_slot (j : Journal) (x : Snap) : (j.putSnap x).slotA = some x.slot ∨ (j.putSnap x).slotB = some x.slot := by
  unfold Journal.putSnap
  split
  · exact .inr rfl
  · exact .inl rfl

/-- The journal holds the snapshot `x`, and none is under way. -/
def State.snapCommitted (s : State) (x : Snap) : State := { s with mtr := { s.mtr with snap := none } }.commitSnap x

theorem exec_snapshotCommitted {s : State} {x : Snap} {l : List Rec} (hon : s.pwr.mainOn = true) (hsnap : s.mtr.snap = some (x, l))
    (hkind : x.kind ≠ 1) : exec .snapshotCommitted s = .next ((s.snapCommitted x).latchRecs l) := by
  refine (next_live hon _).trans (congrArg _ ?_)
  simp only [hsnap]
  exact if_neg hkind

/-! ### The signature of a record (R546, R549, R556) -/

/-- The oldest record made as it enters the journal: signed, or marked UNSIGNED without a key. -/
def State.signRec (s : State) (r : Rec) : Rec :=
  let key := s.bit MTR_STATUS.KEY_OK
  let r' := if key then r else { r with flags := setBit r.flags 10 }
  let r' := { r' with sig := if key then some (Config.ecdsaSign (Config.sha256 (s.recBody r'))) else none }
  { r' with slot := s.jr.freeSlot, crc := crc32c (s.recBytes r') }

theorem signRec_keeps (s : State) (r : Rec) : (s.signRec r).rseq = r.rseq ∧ (s.signRec r).kind = r.kind ∧ (s.signRec r).cell = r.cell ∧
    (s.signRec r).values = r.values ∧ (s.signRec r).crc = crc32c (s.recBytes (s.signRec r)) := by
  unfold State.signRec
  cases s.bit MTR_STATUS.KEY_OK <;> exact ⟨rfl, rfl, rfl, rfl, rfl⟩

theorem signRec_signed {s : State} (hkey : s.bit MTR_STATUS.KEY_OK = true) (r : Rec) :
    (s.signRec r).flags = r.flags ∧ (s.signRec r).sig = some (Config.ecdsaSign (Config.sha256 (s.recBody r))) := by
  unfold State.signRec
  rw [hkey]
  exact ⟨rfl, rfl⟩

theorem signRec_unsigned {s : State} (hkey : s.bit MTR_STATUS.KEY_OK = false) (r : Rec) :
    bitOf (s.signRec r).flags 10 = true ∧ (s.signRec r).sig = none := by
  unfold State.signRec
  rw [hkey]
  exact ⟨(bitOf_setBit r.flags 10 10).trans (by simp), rfl⟩

/-- The record leaves the queue for its slot in the journal. -/
def State.recPut (s : State) (r : Rec) (q : List Rec) : State :=
  { s with mtr := { s.mtr with queue := q }, jr := s.jr.putRec (s.signRec r) }

/-- The record is in the journal and on its way to its METER_RING. -/
def State.recSigned (s : State) (r : Rec) (q : List Rec) : State := ((s.recPut r q).postRecord (s.signRec r)).showCis

theorem exec_recordSigned {s : State} {r : Rec} {q : List Rec} (hon : s.pwr.mainOn = true) (hqueue : s.mtr.queue = r :: q)
    (hpf : s.pwr.pfAt = none) (e : Nat) : exec (.recordSigned e) s = .next ((s.moveTo e).recSigned r q) := by
  refine (next_live hon _).trans (congrArg _ ?_)
  have hq : (s.moveTo e).mtr.queue = r :: q := by rw [s.moveTo_mtr, hqueue]
  dsimp only
  rw [hq]
  exact if_neg (by rw [s.moveTo_pwr]; exact not_not_intro hpf)

/-- A record but for where it was posted. -/
def unpostedRec (r : Rec) : Rec := { r with posted := none }

theorem rd_showCis (s : State) : s.showCis.rd CIS_STATUS.UNCONSUMED = (s.jr.recs.filter (fun r => !r.consumed)).length % 2 ^ 12 := by
  unfold State.showCis
  dsimp only
  split <;> simp (disch := decide) only [State.rd_wr_apart, State.rd_wr_self] <;> rfl

theorem recBytes_unposted (s : State) (r : Rec) : s.recBytes (unpostedRec r) = s.recBytes r := rfl

/-- The record stands in the journal but for where it was posted, and UNCONSUMED counts it. -/
theorem recSigned_shows (s : State) (r : Rec) (q : List Rec) : (s.recSigned r q).mtr.queue = q ∧
    (s.recSigned r q).rd CIS_STATUS.UNCONSUMED = ((s.recSigned r q).jr.recs.filter (fun r => !r.consumed)).length % 2 ^ 12 ∧
    ∃ x ∈ (s.recSigned r q).jr.recs, unpostedRec x = unpostedRec (s.signRec r) := by
  have hmem : s.signRec r ∈ (s.recPut r q).jr.recs := List.mem_append_right _ (List.mem_singleton_self _)
  have hpost : Only 0x1100100000000200 (s.recPut r q) ((s.recPut r q).postRecord (s.signRec r)) := Only.postRecord (Only.refl _ _) _ rfl
  have hposted := unposted_rec (postLong_jr (s.recPut r q) 0x80 [] ((s.recPut r q).recBytes (s.signRec r))) hmem
  unfold State.recSigned
  have hcis : Only 0x2000000000 ((s.recPut r q).postRecord (s.signRec r)) ((s.recPut r q).postRecord (s.signRec r)).showCis :=
    Only.showCis (Only.refl _ _) rfl
  rw [hcis.mtr rfl, hcis.jr rfl, hpost.mtr rfl]
  exact ⟨rfl, rd_showCis _, hposted⟩

theorem moveTo_recBody (s : State) (e : Nat) (r : Rec) : (s.moveTo e).recBody r = s.recBody r := by
  obtain ⟨e', o, k, h⟩ := moveTo_eq s e
  rw [h]
  rfl

theorem moveTo_recBytes (s : State) (e : Nat) (r : Rec) : (s.moveTo e).recBytes r = s.recBytes r := by
  unfold State.recBytes
  rw [moveTo_recBody]

/-- Settles O55: the latches by `latchTaken_shows`, the records of a latch by `RecsMade`, the signed record by `State.signRec`. -/
theorem latchAndRecordCommands : Obligations.LatchAndRecordCommands := by
  refine ⟨fun s e d f hon hform hdue hle hsnap hpf => ?_,
    fun s e hon hsleep hform hle hsnap hpf => ?_, fun s x l hon hsnap hkind hqueue hroom => ?_, fun s e r q hon hqueue hpf => ?_⟩
  · obtain ⟨hlatch, htaken, hnone, hidle, hcycles, -⟩ := latchTaken_shows (s.moveTo e) f
    exact ⟨_, exec_meterLatch_due hon hform hdue hle hsnap hpf, hlatch, htaken, hnone, hidle, hcycles⟩
  · refine ⟨_, (s.moveTo e).formed s.sleepBoundary, exec_meterLatch_asleep hon hsleep hform hle hsnap hpf, ?_⟩
    obtain ⟨hlatch, htaken, -, -, -, hat⟩ := latchTaken_shows ((s.moveTo e).sleepLatch s.sleepBoundary) ((s.moveTo e).formed s.sleepBoundary)
    have hnum : ((s.moveTo e).formed s.sleepBoundary).1.latch = (s.rd MTR_LATCH.LATCH + 1) % 2 ^ 32 := by
      rw [← rd_moveTo s e]
      rfl
    rw [hnum, Nat.mod_mod] at hlatch
    exact ⟨htaken, rfl, hnum, rfl, hat, hlatch⟩
  · obtain ⟨n, hcommit⟩ := commitSnap_eq { s with mtr := { s.mtr with snap := none } } x
    have hrecs : (s.snapCommitted x).jr.recs = s.jr.recs ∧ (s.snapCommitted x).jr.rseq = s.jr.rseq := by
      unfold State.snapCommitted
      rw [hcommit]
      unfold Journal.putSnap
      split <;> exact ⟨rfl, rfl⟩
    have hmtr : (s.snapCommitted x).mtr = { s.mtr with snap := none } := congrArg State.mtr hcommit
    have hslot : (s.snapCommitted x).jr.slotA = some x.slot ∨ (s.snapCommitted x).jr.slotB = some x.slot := by
      unfold State.snapCommitted
      rw [hcommit]
      exact putSnap_slot s.jr x
    obtain ⟨hrseq, hmade, hnone, hA, hB⟩ := RecsMade.latchRecs (s := s.snapCommitted x) (l := l) (by rw [hmtr]; exact hqueue)
      (by rw [hrecs.1]; exact hroom)
    refine ⟨_, exec_snapshotCommitted hon hsnap hkind, hnone.trans (by rw [hmtr]), by rwa [hA, hB], by rw [hrseq, hrecs.2], ?_⟩
    rw [hmade, hmtr, hqueue, List.length_nil, Nat.zero_add]
  · obtain ⟨hleft, hcount, x, hx, heq⟩ := recSigned_shows (s.moveTo e) r q
    refine ⟨_, exec_recordSigned hon hqueue hpf e, hleft, hcount, x, hx, ?_⟩
    obtain ⟨hrseq, hkind, hcell, hvalues, hcrc⟩ := signRec_keeps (s.moveTo e) r
    have hbytes : s.recBytes x = (s.moveTo e).recBytes ((s.moveTo e).signRec r) := by
      rw [moveTo_recBytes, ← recBytes_unposted, heq, recBytes_unposted]
    refine ⟨(congrArg Rec.rseq heq).trans hrseq, (congrArg Rec.kind heq).trans hkind, (congrArg Rec.cell heq).trans hcell,
      (congrArg Rec.values heq).trans hvalues, (congrArg Rec.crc heq).trans (hcrc.trans (congrArg crc32c hbytes.symm)),
      fun hkey => ?_, fun hkey => ?_⟩
    · obtain ⟨hflags, hsig⟩ := signRec_signed ((moveTo_bit s e _).trans hkey) r
      exact ⟨(congrArg Rec.flags heq).trans hflags, (congrArg Rec.sig heq).trans (hsig.trans (by rw [moveTo_recBody]))⟩
    · obtain ⟨hflags, hsig⟩ := signRec_unsigned ((moveTo_bit s e _).trans hkey) r
      exact ⟨(congrArg (bitOf · 10) (congrArg Rec.flags heq)).trans hflags, (congrArg Rec.sig heq).trans hsig⟩

end Sys2Proof.Machine
end

section
/-! PROOFS. The power-fail warning, the freeze, its snapshot and the warning's end (15_lease_metering.md R560, R561; R633): O56. -/
namespace Sys2Proof.Machine
open Reg

/-- The number of a latch whose snapshot is abandoned is taken back (R561). -/
def State.latchUndone (s : State) : State :=
  let undo : Bool := match s.mtr.snap with
    | some (x, _) => x.kind == 0
    | none => false
  if undo then s.wr MTR_LATCH.LATCH (s.rd MTR_LATCH.LATCH + 2 ^ 32 - 1) else s

/-- The flags of every record that is not made, or not signed, go back to their interval (R561). -/
def State.giveBackAll (s : State) : State :=
  let dropped := ((s.mtr.snap.map Prod.snd).getD []) ++ ((s.mtr.form.map Prod.snd).getD [])
  let s := dropped.foldl (fun s r => s.giveBack r 0) s
  s.mtr.queue.foldl (fun s r => s.giveBack r 64) s

/-- The power-fail sequence stands at its begin. -/
def State.pfBegun (s : State) : State :=
  { s with
    mtr := { s.mtr with snap := none, form := none, due := none, atS5 := false }
    pwr := { s.pwr with pfAt := some s.tm.e, pfFrozen := false, pfDone := false, persistAt := none } }

/-- PF_WARN as it acts on the state of its instant (R560). -/
def State.pfWarned (s : State) : State :=
  if !(s.wr PWR_STATUS.PF_WARN 1).journalUp then (s.wr PWR_STATUS.PF_WARN 1).holdMain
  else if (s.wr PWR_STATUS.PF_WARN 1).pwr.pfAt ≠ none then s.wr PWR_STATUS.PF_WARN 1
  else ((s.wr PWR_STATUS.PF_WARN 1).safeState SLC_TRIP_LATCH.PF_WARN).latchUndone.giveBackAll.pfBegun

theorem exec_pfWarn {s : State} (hon : s.pwr.mainOn = true) (e : Nat) : exec (.pfWarn e) s = .next (s.moveTo e).pfWarned :=
  next_live hon _

theorem journalUp_wr (s : State) : (s.wr PWR_STATUS.PF_WARN 1).journalUp = s.journalUp := by
  unfold State.journalUp
  rw [s.rd_wr_apart _ (by decide)]

theorem moveTo_journalUp (s : State) (e : Nat) : (s.moveTo e).journalUp = s.journalUp := by
  unfold State.journalUp
  rw [rd_moveTo]

theorem giveBackAll_only (s : State) : Only 0x82000000000000 s s.giveBackAll :=
  Only.foldl (Only.foldl (Only.refl _ s) fun _ r h => Only.giveBack h r 0 rfl) fun _ r h => Only.giveBack h r 64 rfl

theorem latchUndone_only (s : State) : Only 0x800000000 s s.latchUndone := by
  unfold State.latchUndone
  exact Only.ite (Only.wr (Only.refl _ s) _ _ rfl rfl) (Only.refl _ s)

/-- What the warning leaves once the safe state is entered and the meters' work is given up (R394, R561). -/
theorem pfBegun_shows {s : State} (hphases : s.rd SLC_BLOCK_STATUS.PHASES < 8) (hwarn : s.rd PWR_STATUS.PF_WARN = 1) :
    let t := (s.safeState SLC_TRIP_LATCH.PF_WARN).latchUndone.giveBackAll.pfBegun
    t.rd PWR_STATUS.PF_WARN = 1 ∧ t.rd SLC_TRIP_LATCH.PF_WARN = 1 ∧ t.rd SLC_BLOCK_STATUS.SCOPE = 3 ∧
      t.rd SLC_BLOCK_STATUS.PHASES = 7 ∧ t.pwr.pfAt = some s.tm.e ∧ t.mtr.snap = none ∧ t.mtr.form = none := by
  have hgive := giveBackAll_only (s.safeState SLC_TRIP_LATCH.PF_WARN).latchUndone
  have hundo := latchUndone_only (s.safeState SLC_TRIP_LATCH.PF_WARN)
  have hsafe := s.safeState_only SLC_TRIP_LATCH.PF_WARN (by decide)
  obtain ⟨hlatch, hph, hscope, -⟩ := stop_spec s SLC_TRIP_LATCH.PF_WARN 3 (by decide) rfl hphases
  have hrd : ∀ f, fr 0x82000800000000 f = true →
      (s.safeState SLC_TRIP_LATCH.PF_WARN).latchUndone.giveBackAll.pfBegun.rd f = (s.safeState SLC_TRIP_LATCH.PF_WARN).rd f :=
    fun f hf => (rdi_of_regs rfl f 0).trans ((hundo.mono rfl).trans (hgive.mono rfl) |>.rd f hf)
  dsimp only
  rw [hrd _ (by decide), hrd _ (by decide), hrd _ (by decide), hrd _ (by decide), hsafe.rd _ (by decide)]
  refine ⟨hwarn, hlatch, hscope, hph, ?_, rfl, rfl⟩
  exact congrArg (fun m => some m.e) ((hgive.tm rfl).trans ((hundo.tm rfl).trans (hsafe.tm rfl)))

/-- The counters are frozen into a power-fail snapshot, which begins (R560). -/
def State.frozen (s : State) : State :=
  { s with pwr := { s.pwr with pfFrozen := true } }.beginSnap (s.takeSnap 1 ((s.rd MTR_LATCH.LATCH + 1) % 2 ^ 32) s.tm.e, [])

theorem exec_powerfailFreeze {s : State} {e a : Nat} (hon : s.pwr.mainOn = true) (hat : s.pwr.pfAt = some a)
    (hfrozen : s.pwr.pfFrozen = false) (hle : a + max (2 * s.period) 100000 ≤ (s.moveTo e).tm.e)
    (htick : s.tm.run = false ∨ s.tm.phase = 6) : exec (.powerfailFreeze e) s = .next (s.moveTo e).frozen := by
  have htm := (moveTo_sim s e).1
  have hrun : (s.moveTo e).tm.run = s.tm.run := by rw [htm]
  have hphase : (s.moveTo e).tm.phase = s.tm.phase := by rw [htm]
  have hperiod : (s.moveTo e).period = s.period := by
    unfold State.period
    rw [htm]
  have hpf : (s.moveTo e).pwr.pfAt = some a := by rw [s.moveTo_pwr, hat]
  refine (next_live hon _).trans (congrArg _ ?_)
  dsimp only
  split
  case h_1 hnone => exact absurd (hpf.symm.trans hnone) (by simp)
  case h_2 b hb =>
    obtain rfl : b = a := Option.some.inj (hb.symm.trans hpf)
    refine if_neg ?_
    rw [s.moveTo_pwr, hfrozen, hperiod, hrun, hphase]
    rintro (h | h | ⟨h, h'⟩)
    · exact Bool.false_ne_true h
    · omega
    · rcases htick with h0 | h0
      · simp [h0] at h
      · exact h' h0

/-- A power-fail snapshot is committed: the sequence is done. -/
def State.pfCommitted (s : State) (x : Snap) : State := { s.snapCommitted x with pwr := { (s.snapCommitted x).pwr with pfDone := true } }

theorem exec_snapshotCommitted_pf {s : State} {x : Snap} {l : List Rec} (hon : s.pwr.mainOn = true)
    (hsnap : s.mtr.snap = some (x, l)) (hkind : x.kind = 1) :
    exec .snapshotCommitted s = .next (if (s.pfCommitted x).bit PWR_STATUS.PF_WARN then (s.pfCommitted x).holdMain else (s.pfCommitted x).powerOn) := by
  refine (next_live hon _).trans (congrArg _ ?_)
  simp only [hsnap]
  exact if_pos hkind

theorem pfCommitted_shows (s : State) (x : Snap) : (s.pfCommitted x).regs = s.regs ∧
    ((s.pfCommitted x).jr.slotA = some x.slot ∨ (s.pfCommitted x).jr.slotB = some x.slot) := by
  obtain ⟨n, hcommit⟩ := commitSnap_eq { s with mtr := { s.mtr with snap := none } } x
  unfold State.pfCommitted State.snapCommitted
  rw [hcommit]
  exact ⟨rfl, putSnap_slot s.jr x⟩

theorem reportRailReset_slots (u : State) : ((u.wr PWR_STATUS.RAIL_RESET 1).powerEvent 4 0).jr.slotA = u.jr.slotA ∧
    ((u.wr PWR_STATUS.RAIL_RESET 1).powerEvent 4 0).jr.slotB = u.jr.slotB := by
  have hposted : unposted ((u.wr PWR_STATUS.RAIL_RESET 1).powerEvent 4 0).jr = unposted u.jr :=
    (post_jr ..).trans (congrArg unposted (u.wr_jr ..))
  have hA := congrArg Journal.slotA hposted
  have hB := congrArg Journal.slotB hposted
  exact ⟨hA, hB⟩

/-- The journal's snapshots outlive the start of the main die (R553). -/
theorem powerOn_slots (s : State) : s.powerOn.jr.slotA = s.jr.slotA ∧ s.powerOn.jr.slotB = s.jr.slotB := by
  unfold State.powerOn
  dsimp only
  split
  · exact reportRailReset_slots _
  · exact ⟨rfl, rfl⟩

theorem exec_pfWarnDeassert (s : State) (e : Nat) : exec (.pfWarnDeassert e) s = .next
    (if !(s.moveTo e).pwr.mainOn && (s.moveTo e).bit PWR_STATUS.PF_WARN && (s.moveTo e).pwr.railsOk && (s.moveTo e).pwr.resetN
      then ((s.moveTo e).wr PWR_STATUS.PF_WARN 0).powerOn else (s.moveTo e).wr PWR_STATUS.PF_WARN 0) := rfl

/-- Settles O56: the warning by `pfBegun_shows`, the freeze and the commit by what they leave in the journal. -/
theorem powerFailCommands : Obligations.PowerFailCommands := by
  refine ⟨fun s e hon hup hpf hphases => ?_, fun s e hon hup hpf => ?_, fun s e hon hdown => ?_, fun s e a hon hat hfrozen hle htick => ?_,
    fun s x l hon hsnap hkind => ?_, fun s e => ⟨fun hon => ?_, fun hoff hwarn hrails hreset => ?_⟩⟩
  · refine ⟨_, exec_pfWarn hon e, ?_⟩
    unfold State.pfWarned
    rw [journalUp_wr, moveTo_journalUp, hup, if_neg (by decide), State.wr_pwr, s.moveTo_pwr, if_neg (not_not_intro hpf)]
    have h := pfBegun_shows (s := (s.moveTo e).wr PWR_STATUS.PF_WARN 1) ((State.rd_wr_apart _ _ (by decide)).trans_lt
      ((rd_moveTo s e _).trans_lt hphases)) (State.rd_wr_self _ _ (by decide))
    rwa [State.wr_tm] at h
  · rw [exec_pfWarn hon e]
    unfold State.pfWarned
    rw [journalUp_wr, moveTo_journalUp, hup, if_neg (by decide), State.wr_pwr, s.moveTo_pwr, if_pos hpf]
  · refine ⟨_, exec_pfWarn hon e, ?_⟩
    unfold State.pfWarned
    rw [journalUp_wr, moveTo_journalUp, hdown, if_pos (by decide)]
    exact ⟨rfl, State.rd_wr_self _ 1 (by decide)⟩
  · refine ⟨_, exec_powerfailFreeze hon hat hfrozen hle htick, rfl,
      (s.moveTo e).takeSnap 1 (((s.moveTo e).rd MTR_LATCH.LATCH + 1) % 2 ^ 32) (s.moveTo e).tm.e, rfl, rfl, ?_, ?_, rfl⟩
    · rw [← rd_moveTo s e]
      rfl
    · rw [← s.moveTo_mtr e]
      rfl
  · refine ⟨_, exec_snapshotCommitted_pf hon hsnap hkind, ?_⟩
    obtain ⟨hregs, hslot⟩ := pfCommitted_shows s x
    rw [bit_of_regs hregs]
    cases hwarn : s.bit PWR_STATUS.PF_WARN with
    | true => exact ⟨rfl, hslot⟩
    | false =>
      obtain ⟨hA, hB⟩ := powerOn_slots (s.pfCommitted x)
      exact ⟨powerOn_main _, hA ▸ hB ▸ hslot⟩
  · refine ⟨_, exec_pfWarnDeassert s e, ?_⟩
    rw [if_neg (by simp [hon]), State.wr_pwr, s.moveTo_pwr]
    exact ⟨State.rd_wr_self _ 0 (by decide), rfl⟩
  · refine ⟨_, exec_pfWarnDeassert s e, ?_⟩
    rw [if_pos (by simp [hoff, moveTo_bit, hwarn, hrails, hreset])]
    exact powerOn_main _

end Sys2Proof.Machine
end

section
/-! PROOFS. Stops, breaker resets, cell blocks, the trip input and the debug halt (11_sluice_protection.md R391, R408 to R413, R422):
O5. -/
namespace Sys2Proof.Machine
open Reg

/-! ### A stop from any state (R391, R422) -/

/-- What a block of the whole converter leaves: the latch set, every phase blocked, the scope of its action, no release waiting. -/
structure Stopped (a : Nat) (f : Fld) (s t : State) : Prop where
  latch : t.rd f = 1
  phases : t.rd SLC_BLOCK_STATUS.PHASES = 7
  scope : t.rd SLC_BLOCK_STATUS.SCOPE = if a = 3 ∨ s.rd SLC_BLOCK_STATUS.SCOPE = 3 then 3 else 2
  brk : t.rd SLC_BLOCK_STATUS.BRK = if a = 3 ∧ s.rd SLC_BLOCK_STATUS.BRK = 0 then 1 else s.rd SLC_BLOCK_STATUS.BRK
  release : t.slc.release = []

/-- A block of all phases, from a state whose sluice registers are those of `s`. -/
theorem stopped_actScope {s u : State} {f : Fld} (a : Nat) (hf : f ∈ latchFields) (hw : f.w = 1)
    (hu : ∀ g, fr 0x300 g = true → u.rd g = s.rd g) (hphases : s.rd SLC_BLOCK_STATUS.PHASES < 8) :
    Stopped a f s (u.actScope f 1 a 7 false) := by
  obtain ⟨hlatch, hph, hscope, hbrk, hrel⟩ := stop_spec u f a hf hw ((hu _ (by decide)).trans_lt hphases)
  rw [hu _ (by decide)] at hscope hbrk
  exact ⟨hlatch, hph, hscope, hbrk, hrel⟩

/-- Completing a descriptor, or turning off a motor channel, leaves the block. -/
theorem Stopped.only {a : Nat} {f : Fld} {s t u : State} (h : Stopped a f s t) (only : Only 0x1500110000000200 t u)
    (hf : fr 0x1500110000000200 f = true) : Stopped a f s u where
  latch := (only.rd f hf).trans h.latch
  phases := (only.rd _ (by decide)).trans h.phases
  scope := (only.rd _ (by decide)).trans h.scope
  brk := (only.rd _ (by decide)).trans h.brk
  release := by rw [only.slc rfl, h.release]

/-- A converter block, which asserts no breaker output. -/
theorem Stopped.block {f : Fld} {s t : State} (h : Stopped 2 f s t) :
    t.rd SLC_BLOCK_STATUS.SCOPE = (if s.rd SLC_BLOCK_STATUS.SCOPE = 3 then 3 else 2) ∧
    t.rd SLC_BLOCK_STATUS.BRK = s.rd SLC_BLOCK_STATUS.BRK := by
  obtain ⟨-, -, hscope, hbrk, -⟩ := h
  refine ⟨by simpa using hscope, by simpa using hbrk⟩

/-- The safe state, which asserts the breaker outputs. -/
theorem Stopped.safe {f : Fld} {s t : State} (h : Stopped 3 f s t) :
    t.rd SLC_BLOCK_STATUS.SCOPE = 3 ∧
    t.rd SLC_BLOCK_STATUS.BRK = (if s.rd SLC_BLOCK_STATUS.BRK = 0 then 1 else s.rd SLC_BLOCK_STATUS.BRK) := by
  obtain ⟨-, -, hscope, hbrk, -⟩ := h
  refine ⟨by simpa using hscope, by simpa using hbrk⟩

theorem exec_slcStop {s : State} (hon : s.pwr.mainOn = true) (e : Nat) : exec (.slcStop e) s = .next (s.moveTo e).hostStop :=
  next_live hon _

theorem exec_slcStopBrk {s : State} (hon : s.pwr.mainOn = true) (e : Nat) : exec (.slcStopBrk e) s = .next (s.moveTo e).hostStopBrk :=
  next_live hon _

/-- A block that was not yet on every phase blocks the cells of the three phases and sends /BK/ on every ring (R286, R287). -/
theorem hostStop_blocks {s : State} (hphases : s.rd SLC_BLOCK_STATUS.PHASES < 8) (hnew : s.rd SLC_BLOCK_STATUS.PHASES ≠ 7) :
    (∀ c, s.cells.any (fun kv => kv.1 == c) = true → s.phaseOf c < 3 → (s.hostStop.cell c).svc.blk = true) ∧
    ∀ r ∈ s.ringsOn, ∀ l < 2, Out.link r l (thrice (bkCodes 0x47)) ∈ s.hostStop.out := by
  have hph : newPhases 2 7 (s.rd SLC_BLOCK_STATUS.PHASES) = 7 := np7 _ _ hphases
  obtain ⟨hcells, hrings⟩ := s.actScope_blocks SLC_TRIP_LATCH.HOST 1 2 7 (by decide)
    (fun h => hnew (h.2.symm.trans hph))
  rw [hph] at hcells hrings
  exact ⟨fun c hc hp => hcells c hc (bit7 _ hp), hrings⟩

theorem moveTo_cells_ringsOn (s : State) (e : Nat) : (s.moveTo e).ringsOn = s.ringsOn := ringsOn_mv s _ (moveTo_regs s e)

/-! ### A stop by a descriptor (R506) -/

section
variable {s u : State} {h : DescHdr} {d : Desc} {e : Nat} (hgo : (s.moveTo e).startDesc h 0x02 = .go d u)
include hgo

theorem rd_begun {f : Fld} (hf : fr 0x300 f = true) : u.rd f = s.rd f := (begin_op hgo).1 f 0 hf

theorem exec_converterStop (hon : s.pwr.mainOn = true) (hty : s.rdi RING_CFG_n.TYPE h.ring = 0) :
    exec (.converterStop h e) s = .next (u.hostStop.complete d 0 0 [(32, 4, 0)]) :=
  (next_live hon _).trans (congrArg _ (run_go _ hgo (by decide) (ty_mv hty)))

theorem exec_converterStopBrk (hon : s.pwr.mainOn = true) (hty : s.rdi RING_CFG_n.TYPE h.ring = 0) :
    exec (.converterStopBrk h e) s = .next (u.hostStopBrk.complete d 0 0 [(32, 4, 0)]) :=
  (next_live hon _).trans (congrArg _ (run_go _ hgo (by decide) (ty_mv hty)))

theorem exec_converterBrkReset (hon : s.pwr.mainOn = true) (hty : s.rdi RING_CFG_n.TYPE h.ring = 0) :
    exec (.converterBrkReset h e) s = .next (u.brkReset.complete d (if u.brkResetOk then 0 else 2) 0 [(32, 4, 0)]) :=
  (next_live hon _).trans (congrArg _ (run_go _ hgo (by decide) (ty_mv hty)))

/-- A descriptor that blocks the converter completes, the release descriptors that it cancels among the others. -/
theorem stop_completes (a : Nat) : ∃ x ∈ ((u.actScope SLC_TRIP_LATCH.HOST 1 a 7 false).complete d 0 0 [(32, 4, 0)]).hst.comps,
    x.status = 0 ∧ x.tag = h.tag := by
  obtain ⟨-, -, hhst, -, hepoch, htag⟩ := begin_op hgo
  exact desc_end _ d 0 0 _ h.tag htag (by rw [State.actScope_epoch _ _ _ _ _ _ (by decide), hhst, hepoch])

theorem stop_stopped (a : Nat) (hphases : s.rd SLC_BLOCK_STATUS.PHASES < 8) :
    Stopped a SLC_TRIP_LATCH.HOST s ((u.actScope SLC_TRIP_LATCH.HOST 1 a 7 false).complete d 0 0 [(32, 4, 0)]) :=
  (stopped_actScope a (by decide) rfl (fun _ hf => rd_begun hgo hf) hphases).only ((State.complete_only ..).mono rfl) (by decide)

end

/-! ### The breaker reset (R409, R428) -/

theorem latchWord_congr {s t : State} (h : ∀ f ∈ latchFields, t.rd f = s.rd f) : t.latchWord = s.latchWord :=
  List.foldl_ext _ _ _ fun w f hf => by rw [h f hf]

/-- BRK_RESET is accepted in a state with the sluice registers of `s` at the instant `now`. -/
theorem brkResetOk_iff {s u : State} {now : Nat} (hu : ∀ g, fr 0x300 g = true → u.rd g = s.rd g) (hslc : u.slc = s.slc)
    (hnow : u.tm.e = now) : u.brkResetOk = true ↔
      s.latchWord = 0 ∧ s.slc.brkAt + s.rd SLC_CFG.BRK_HOLD * 10000000 ≤ now ∧ s.rd SAFE_STATUS.BRK_FB_ERR = 0 := by
  have hword : u.latchWord = s.latchWord := latchWord_congr fun f hf => hu f (by revert f; decide)
  unfold State.brkResetOk
  rw [hword, hslc, hnow, hu _ (by decide), hu _ (by decide)]
  simp [and_assoc]

theorem brkReset_ok {u : State} (h : u.brkResetOk = true) : u.brkReset = (u.wr SLC_BLOCK_STATUS.BRK 0).showBrk := if_pos h

theorem brkReset_refused {u : State} (h : ¬u.brkResetOk = true) : u.brkReset = u.refuse SLC_BLOCK_STATUS.CFG_ERR := if_neg h

/-- The breaker outputs after a reset, and the refusal shown. -/
theorem brkReset_shows (u : State) : u.brkReset.rd SLC_BLOCK_STATUS.SCOPE = u.rd SLC_BLOCK_STATUS.SCOPE ∧ u.brkReset.cells = u.cells ∧
    u.brkReset.hst = u.hst ∧
    (u.brkResetOk = true → u.brkReset.rd SLC_BLOCK_STATUS.BRK = 0 ∧ u.brkReset.rd SLC_BLOCK_STATUS.CFG_ERR = u.rd SLC_BLOCK_STATUS.CFG_ERR) ∧
    (¬u.brkResetOk = true → u.brkReset.rd SLC_BLOCK_STATUS.BRK = u.rd SLC_BLOCK_STATUS.BRK ∧ u.brkReset.rd SLC_BLOCK_STATUS.CFG_ERR = 1) := by
  by_cases h : u.brkResetOk = true
  · rw [brkReset_ok h]
    refine ⟨u.rd_wr_apart _ (by decide), u.wr_cells .., u.wr_hst .., fun _ => ⟨u.rd_wr_self 0 (by decide), u.rd_wr_apart _ (by decide)⟩,
      absurd h⟩
  · rw [brkReset_refused h]
    exact ⟨u.rd_wr_apart _ (by decide), u.wr_cells .., u.wr_hst .., fun h' => absurd h' h,
      fun _ => ⟨u.rd_wr_apart _ (by decide), rd_refuse_self u rfl (by decide)⟩⟩

/-! ### Cell blocks, the trip input and the debug halt (R411 to R413) -/

theorem exec_slcCellBlk {s : State} (hon : s.pwr.mainOn = true) (c e : Nat) :
    exec (.slcCellBlk c e) s = .next ((s.moveTo e).hostCellBlk c) := next_live hon _

theorem moveTo_cellCount (s : State) (e : Nat) : (s.moveTo e).cellCount = s.cellCount := by
  unfold State.cellCount State.small
  rw [rd_moveTo]

/-- A cell's record with its cell block (R411). -/
def cellBlocked (x : Cell) : Cell := { x with svc := { x.svc with blk := true, cellBlk := true } }

/-- A cell the part has is blocked, and told so on both loops of its ring (R411). -/
theorem hostCellBlk_present {s : State} {c : Nat} (hc : c < s.cellCount) :
    ((s.hostCellBlk c).cell c).svc.blk = true ∧ ((s.hostCellBlk c).cell c).svc.cellBlk = true ∧
    (∀ l < 2, Out.link (ringOf c) l (thrice (bkCodes (posOf c))) ∈ (s.hostCellBlk c).out) ∧
    (∀ d, d ≠ c → (s.hostCellBlk c).cell d = s.cell d) ∧ (s.hostCellBlk c).regs = s.regs := by
  have hblk : s.hostCellBlk c = (s.updCell c cellBlocked).sendOrder (ringOf c) (bkCodes (posOf c)) := by
    unfold State.hostCellBlk State.blockCell
    rw [if_pos (hc.trans_le (cellCount_le s)), if_neg (by omega)]
    rfl
  have hself := s.cell_updCell_self c cellBlocked
  rw [hblk]
  exact ⟨congrArg (fun x => x.svc.blk) hself, congrArg (fun x => x.svc.cellBlk) hself, fun l hl => sendOrder_out _ _ _ hl,
    fun d hd => s.cell_updCell_ne cellBlocked (Ne.symm hd), rfl⟩

/-- The state in which the fabric sees TRIP_IN_N, which stays low until `hi`. -/
def State.tripInLow (s : State) (hi : Nat) : State :=
  let u := s.moveTo (s.tm.e + s.rd SLC_CFG.TRIP_IN_FILT * 4)
  { u with slc := { u.slc with tripIn := hi } }

theorem rd_tripInLow (s : State) (hi : Nat) (f : Fld) : (s.tripInLow hi).rd f = s.rd f := rd_moveTo s _ f

/-- The fabric acts on TRIP_IN_N by its route (R396, R413). -/
def State.tripInActs (u : State) : State :=
  let t := u.actScope SLC_TRIP_LATCH.TRIP_IN 1 (u.rd SLC_SRC_ROUTE.TRIPIN_ACT) 7 false
  t.driveOff (t.bit SLC_SRC_ROUTE.TRIPIN_DRV0) (t.bit SLC_SRC_ROUTE.TRIPIN_DRV1)

theorem exec_tripIn {s : State} (hon : s.pwr.mainOn = true) (hi e : Nat) : exec (.tripIn hi e) s = .next
    (if hi < (s.moveTo e).tm.e + (s.moveTo e).rd SLC_CFG.TRIP_IN_FILT * 4 then s.moveTo e else ((s.moveTo e).tripInLow hi).tripInActs) :=
  next_live hon _

theorem tripInActs_stopped {s u : State} (hrd : ∀ g, u.rd g = s.rd g) (hphases : s.rd SLC_BLOCK_STATUS.PHASES < 8) :
    Stopped (s.rd SLC_SRC_ROUTE.TRIPIN_ACT) SLC_TRIP_LATCH.TRIP_IN s u.tripInActs := by
  unfold State.tripInActs
  rw [hrd]
  exact (stopped_actScope _ (by decide) rfl (fun g _ => hrd g) hphases).only (Only.driveOff (Only.refl _ _) _ _ rfl) (by decide)

theorem exec_debugStarve {s : State} (hon : s.pwr.mainOn = true) (hhalt : s.bit TRI_STATUS.DBG_HALT = true)
    (hticks : s.rd LINK_CFG.STARVE_TICKS ≤ s.tri.haltTicks) (hfirst : s.rd SLC_TRIP_LATCH.DEBUG_STARVE = 0) :
    exec .debugStarve s = .next (if 2 ≤ s.rd SLC_BLOCK_STATUS.SCOPE
      then (s.actScope SLC_TRIP_LATCH.DEBUG_STARVE 1 2 7 false).sendBk 7 else s.actScope SLC_TRIP_LATCH.DEBUG_STARVE 1 2 7 false) :=
  (next_live hon _).trans (congrArg _ (if_pos ⟨hhalt, hticks, hfirst⟩))

/-- A block of the converter leaves which rings are enabled. -/
theorem actScope_ringsOn (s : State) {f : Fld} (m a ph : Nat) (hf : f ∈ latchFields) : (s.actScope f m a ph false).ringsOn = s.ringsOn := by
  have only := s.actScope_only f m a ph false hf
  unfold State.ringsOn State.ringOn State.ringCount State.small
  rw [only.rd _ (by decide), only.rd _ (by decide)]

/-- Settles O5: the stops by `Stopped`, the resets by `brkReset_shows`, the trip input and the starved debug halt as stops of their own
latch. -/
theorem stopAndBreakerCommands : Obligations.StopAndBreakerCommands := by
  refine ⟨fun s e hon hphases => ?_, fun s e hon hphases => ?_, fun s u h d e hon hgo hty hphases => ?_,
    fun s u h d e hon hgo hty hphases => ?_, fun s e hon => ?_, fun s u h d e hon hgo hty hword hhold hfb => ?_,
    fun s u h d e hon hgo hty hbad => ?_, fun s c e hon => ?_, fun s hi e hon hshort => ?_, fun s hi e hon hphases hlong => ?_,
    fun s hon hphases hhalt hticks hfirst => ?_⟩
  · have hstop : Stopped 2 SLC_TRIP_LATCH.HOST s (s.moveTo e).hostStop :=
      stopped_actScope 2 (by decide) rfl (fun g _ => rd_moveTo s e g) hphases
    refine ⟨_, exec_slcStop hon e, hstop.latch, hstop.phases, hstop.block.1, hstop.block.2, hstop.release, fun hnew => ?_⟩
    obtain ⟨hcells, hrings⟩ := hostStop_blocks (s := s.moveTo e) (by rwa [rd_moveTo]) (by rwa [rd_moveTo])
    rw [s.moveTo_cells, moveTo_cells_ringsOn] at *
    exact ⟨fun c hc hp => hcells c hc ((rdi_of_regs (moveTo_regs s e) _ _).trans_lt hp), hrings⟩
  · have hstop : Stopped 3 SLC_TRIP_LATCH.HOST s (s.moveTo e).hostStopBrk :=
      stopped_actScope 3 (by decide) rfl (fun g _ => rd_moveTo s e g) hphases
    exact ⟨_, exec_slcStopBrk hon e, hstop.latch, hstop.phases, hstop.safe.1, hstop.safe.2, hstop.release⟩
  · have hstop := stop_stopped hgo 2 hphases
    exact ⟨_, exec_converterStop hgo hon hty, hstop.latch, hstop.phases, hstop.block.1, hstop.block.2, hstop.release, stop_completes hgo 2⟩
  · have hstop := stop_stopped hgo 3 hphases
    exact ⟨_, exec_converterStopBrk hgo hon hty, hstop.latch, hstop.phases, hstop.safe.1, hstop.safe.2, hstop.release, stop_completes hgo 3⟩
  · have hok := brkResetOk_iff (u := s.moveTo e) (fun g _ => rd_moveTo s e g) (s.moveTo_slc e) rfl
    obtain ⟨hscope, hcells, -, htaken, hrefused⟩ := brkReset_shows (s.moveTo e)
    simp only [rd_moveTo, s.moveTo_cells] at hscope hcells htaken hrefused
    exact ⟨_, next_live hon _, fun h => htaken (hok.mpr h), fun h => hrefused (mt hok.mp h), hscope, hcells⟩
  · obtain ⟨-, hslc, hhst, hnow, hepoch, htag⟩ := begin_op hgo
    have hok := (brkResetOk_iff (fun _ hf => rd_begun hgo hf) hslc hnow).mpr ⟨hword, hhold, hfb⟩
    obtain ⟨-, -, hkeep, htaken, -⟩ := brkReset_shows u
    refine ⟨_, exec_converterBrkReset hgo hon hty, ?_⟩
    rw [if_pos hok]
    exact ⟨(cmp_rd ..).trans (htaken hok).1, desc_end _ d 0 0 _ h.tag htag (by rw [hkeep, hhst, hepoch])⟩
  · obtain ⟨-, hslc, hhst, hnow, hepoch, htag⟩ := begin_op hgo
    have hno := mt (brkResetOk_iff (fun _ hf => rd_begun hgo hf) hslc hnow).mp hbad
    obtain ⟨-, -, hkeep, -, hrefused⟩ := brkReset_shows u
    refine ⟨_, exec_converterBrkReset hgo hon hty, ?_⟩
    rw [if_neg hno]
    exact ⟨(cmp_rd ..).trans ((hrefused hno).1.trans (rd_begun hgo (by decide))), (cmp_rd ..).trans (hrefused hno).2,
      desc_end _ d 2 0 _ h.tag htag (by rw [hkeep, hhst, hepoch])⟩
  · refine ⟨_, exec_slcCellBlk hon c e, fun hc => ?_, fun habsent hlt => ?_, fun hge => ?_⟩
    · obtain ⟨hblk, hcellBlk, hout, hother, hregs⟩ := hostCellBlk_present (s := s.moveTo e) (by rwa [moveTo_cellCount])
      refine ⟨hblk, hcellBlk, hout, fun d hd => (hother d hd).trans ?_, hregs.trans (moveTo_regs s e)⟩
      unfold State.cell
      rw [s.moveTo_cells]
    · unfold State.hostCellBlk State.blockCell
      rw [if_pos hlt, if_pos (by rwa [moveTo_cellCount])]
    · unfold State.hostCellBlk
      rw [if_neg (by omega), State.refuse_cells, State.refuse_out, s.moveTo_cells, s.moveTo_out]
      exact ⟨rd_refuse_self _ rfl (by decide), rfl, rfl⟩
  · rw [exec_tripIn hon, rd_moveTo, if_pos hshort]
  · refine ⟨_, exec_tripIn hon hi e, ?_⟩
    rw [rd_moveTo, if_neg (by omega)]
    have hstop := tripInActs_stopped (s := s) (u := (s.moveTo e).tripInLow hi) (fun g => (rd_tripInLow _ hi g).trans (rd_moveTo s e g)) hphases
    exact ⟨hstop.latch, hstop.phases, hstop.scope, hstop.brk, hstop.release⟩
  · refine ⟨_, exec_debugStarve hon hhalt hticks hfirst, ?_⟩
    have hstop : Stopped 2 SLC_TRIP_LATCH.DEBUG_STARVE s (s.actScope SLC_TRIP_LATCH.DEBUG_STARVE 1 2 7 false) :=
      stopped_actScope 2 (by decide) rfl (fun _ _ => rfl) hphases
    by_cases hscope : 2 ≤ s.rd SLC_BLOCK_STATUS.SCOPE
    · rw [if_pos hscope]
      have hsent := hstop.only ((Only.sendBk (Only.refl 0x1000000000000000 _) 7 rfl).mono rfl) (by decide)
      refine ⟨hsent.latch, hsent.phases, hsent.block.1, hsent.release, fun _ r hr l hl => ?_⟩
      rw [State.sendBk_out, actScope_ringsOn s 1 2 7 (by decide)]
      refine List.mem_append_right _ (List.mem_flatMap.mpr ⟨r, hr, ?_⟩)
      rcases (by omega : l = 0 ∨ l = 1) with rfl | rfl
      · exact .head _
      · exact .tail _ (.head _)
    · rw [if_neg hscope]
      exact ⟨hstop.latch, hstop.phases, hstop.block.1, hstop.release, fun h => absurd h hscope⟩

end Sys2Proof.Machine
end

section
/-! PROOFS. Latch clears, blanking windows, the local drives' short circuits and the converter release
(11_sluice_protection.md R401 to R408, R506): O9. -/
namespace Sys2Proof.Machine
open Reg

/-! ### Clearing the latches (R407) -/

/-- The turn of one field of SLC_TRIP_LATCH in a clear. -/
def State.clearField (v : Nat) (s : State) (f : Fld) : State :=
  let old := s.rd f
  let m := bits v f.lo f.w
  let again := old &&& m &&& s.sourceActive f
  let s := s.wr f (old - (old &&& m))
  if again = 0 then s else s.latchBits f again

theorem clearLatch_eq (s : State) (v : Nat) : s.clearLatch v = latchFields.foldl (State.clearField v) s := rfl

/-- What a turn at the field `f` leaves: all but that field and the record of the latest latch. -/
structure ClearTurn (f : Fld) (s t : State) : Prop where
  regs : ∀ g i, apart f g = true → t.rdi g i = s.rdi g i
  tm : t.tm = s.tm
  saf : t.saf = s.saf
  tri : t.tri = s.tri
  cells : t.cells = s.cells
  slc : t.slc = { s.slc with lastLatch := t.slc.lastLatch, periodBits := t.slc.periodBits }

theorem ClearTurn.wr (f : Fld) (s : State) (x : Nat) : ClearTurn f s (s.wr f x) :=
  ⟨fun _ i h => s.rdi_wri_apart 0 i x h, s.wr_tm .., s.wr_saf .., s.wr_tri .., s.wr_cells .., by rw [s.wr_slc]⟩

theorem latchBits_turn (f : Fld) (s : State) (m : Nat) : ClearTurn f s (s.latchBits f m) where
  regs _ i h := s.rdi_wri_apart 0 i _ h
  tm := s.wr_tm ..
  saf := s.wr_saf ..
  tri := s.wr_tri ..
  cells := s.wr_cells ..
  slc := rfl

theorem ClearTurn.trans {f : Fld} {s t u : State} (h : ClearTurn f s t) (g : ClearTurn f t u) : ClearTurn f s u :=
  ⟨fun k i hk => (g.regs k i hk).trans (h.regs k i hk), g.tm.trans h.tm, g.saf.trans h.saf, g.tri.trans h.tri, g.cells.trans h.cells,
    by rw [g.slc, h.slc]⟩

theorem clearField_turn (v : Nat) (s : State) (f : Fld) : ClearTurn f s (s.clearField v f) := by
  unfold State.clearField
  dsimp only
  split
  · exact .wr f s _
  · exact (ClearTurn.wr f s _).trans (latchBits_turn f _ _)

/-- A bit written 1 is cleared, and set again where its source is active (R407). -/
theorem rd_clearField (v : Nat) (s : State) {f : Fld} (hf : 0 < f.count) : (s.clearField v f).rd f =
    (s.rd f - (s.rd f &&& bits v f.lo f.w) ||| (s.rd f &&& bits v f.lo f.w &&& s.sourceActive f)) % 2 ^ f.w := by
  unfold State.clearField
  dsimp only
  split
  next h => rw [State.rd_wr_self _ _ hf, h, Nat.or_zero]
  next =>
    refine (State.rd_wr_self _ _ hf).trans ?_
    rw [State.rd_wr_self _ _ hf, Nat.or_mod_two_pow, Nat.mod_mod, ← Nat.or_mod_two_pow]

/-- No source of the sluice reads a latch. -/
theorem sourceActive_turn {g s t} (hg : g ∈ latchFields) (h : ClearTurn g s t) (f : Fld) : t.sourceActive f = s.sourceActive f := by
  have hrdi : ∀ k i, apart g k = true → t.rdi k i = s.rdi k i := h.regs
  have hap : ∀ k ∈ [SAFE_STATUS.DEMAND, SAFE_IN_CFG_n.TYPE, SAFE_NET_CFG.EN, SAFE_NET_STATUS.STOP_RX, PWR_STATUS.PF_WARN,
      HGS_RATING_STATUS.DERATE_ROW, TRI_STATUS.DBG_HALT, LINK_CFG.STARVE_TICKS, SLC_CMP_ROUTE_n.ACTION, SLC_CMP_ROUTE_n.DRV0,
      SLC_CMP_ROUTE_n.DRV1], apart g k = true := by
    revert hg
    generalize g = g
    revert g
    decide
  simp only [List.forall_mem_cons, List.not_mem_nil, false_imp_iff, implies_true, and_true] at hap
  obtain ⟨h1, h2, h3, h4, h5, h6, h7, h8, h9, h10, h11⟩ := hap
  have htrip : t.slc.tripIn = s.slc.tripIn := by rw [h.slc]
  have hshut : t.slc.thermShut = s.slc.thermShut := by rw [h.slc]
  have hlive : t.slc.live = s.slc.live := by rw [h.slc]
  have hblank : t.slc.blankEnd = s.slc.blankEnd := by rw [h.slc]
  unfold State.sourceActive State.routed State.blanked State.bit State.biti State.rd
  simp only [hrdi _ _ h1, hrdi _ _ h2, hrdi _ _ h3, hrdi _ _ h4, hrdi _ _ h5, hrdi _ _ h6, hrdi _ _ h7, hrdi _ _ h8, hrdi _ _ h9,
    hrdi _ _ h10, hrdi _ _ h11, h.tm, h.saf, h.tri, htrip, hshut, hlive, hblank]

/-- Each field of the latch is cleared in its own turn. -/
theorem rd_clearFields (v : Nat) {l : List Fld} (hsub : ∀ f ∈ l, f ∈ latchFields) (hnd : l.Nodup) (s : State) :
    (∀ f ∈ l, (l.foldl (State.clearField v) s).rd f =
      (s.rd f - (s.rd f &&& bits v f.lo f.w) ||| (s.rd f &&& bits v f.lo f.w &&& s.sourceActive f)) % 2 ^ f.w) ∧
    (∀ g i, (∀ f ∈ l, apart f g = true) → (l.foldl (State.clearField v) s).rdi g i = s.rdi g i) ∧
    (l.foldl (State.clearField v) s).cells = s.cells := by
  induction l generalizing s with
  | nil => exact ⟨nofun, fun _ _ _ => rfl, rfl⟩
  | cons f l ih =>
    obtain ⟨hnotin, hndl⟩ := List.nodup_cons.mp hnd
    have hf := hsub f List.mem_cons_self
    have hpair : ∀ f ∈ latchFields, 0 < f.count ∧ ∀ g ∈ latchFields, f ≠ g → apart f g = true := by decide
    have hturn := clearField_turn v s f
    obtain ⟨hself, hrest, hcells⟩ := ih (fun g hg => hsub g (List.mem_cons_of_mem _ hg)) hndl (s.clearField v f)
    refine ⟨fun g hg => ?_, fun g i hg => ?_, hcells.trans hturn.cells⟩
    · rcases List.mem_cons.mp hg with rfl | hmem
      · have hkeep := hrest g 0 fun k hk =>
          (hpair k (hsub k (List.mem_cons_of_mem _ hk))).2 g hf fun e => hnotin (e ▸ hk)
        exact hkeep.trans (rd_clearField v s (hpair g hf).1)
      · have hrd : (s.clearField v f).rd g = s.rd g :=
          hturn.regs g 0 ((hpair f hf).2 g (hsub g (List.mem_cons_of_mem _ hmem)) fun e => hnotin (e ▸ hmem))
        rw [List.foldl_cons, hself g hmem, hrd, sourceActive_turn hf hturn]
    · exact (hrest g i fun k hk => hg k (List.mem_cons_of_mem _ hk)).trans (hturn.regs g i (hg f List.mem_cons_self))

theorem exec_slcLatchClear {s : State} (hon : s.pwr.mainOn = true) (v e : Nat) :
    exec (.slcLatchClear v e) s = .next ((s.moveTo e).clearLatch v) := next_live hon _

/-! ### The end of a blanking window (R401) -/

/-- The window of comparator `n` is closed. -/
def State.windowShut (s : State) (n : Nat) : State :=
  { s with slc := { s.slc with blankEnd := tput (fun _ => 0) s.slc.blankEnd n 0 } }

theorem exec_blankWindowClose {s : State} {n : Fin 16} {e : Nat} (hon : s.pwr.mainOn = true)
    (hopen : tget (fun _ => 0) s.slc.blankEnd n ≠ 0) (hdone : (s.moveTo e).blanked n = false) :
    exec (.blankWindowClose n e) s = .next
      (if bitOf s.slc.live n then ((s.moveTo e).windowShut n).cmpAct n else (s.moveTo e).windowShut n) := by
  refine (next_live hon _).trans (congrArg _ ?_)
  dsimp only
  rw [if_neg (by simp [hopen, hdone])]
  rw [← s.moveTo_slc e]
  rfl

/-- A comparator whose route has an action latches its bit (R396). -/
theorem cmpAct_latches {s : State} {n : Nat} (hn : n < 16) (hact : 1 ≤ s.rdi SLC_CMP_ROUTE_n.ACTION n)
    (hphase : s.rdi SLC_CMP_ROUTE_n.PHASE n ≤ 2) (hphases : s.rd SLC_BLOCK_STATUS.PHASES < 8) :
    bitOf ((s.cmpAct n).rd SLC_TRIP_LATCH.CMP) n = true := by
  have hne : s.rdi SLC_CMP_ROUTE_n.ACTION n ≠ 0 := by omega
  have hrouted : s.routed n = true := by
    unfold State.routed
    simp [hne]
  have hmask : 2 ^ s.rdi SLC_CMP_ROUTE_n.PHASE n < 8 :=
    (Nat.pow_le_pow_right (by decide) hphase).trans_lt (by decide)
  obtain ⟨hlatch, -⟩ := s.actScope_spec SLC_TRIP_LATCH.CMP (2 ^ n) (s.rdi SLC_CMP_ROUTE_n.ACTION n)
    (2 ^ s.rdi SLC_CMP_ROUTE_n.PHASE n) false (by decide) hmask hphases
  unfold State.cmpAct
  dsimp only
  rw [hrouted, if_neg (by decide), if_neg hne]
  generalize hu : s.actScope SLC_TRIP_LATCH.CMP (2 ^ n) (s.rdi SLC_CMP_ROUTE_n.ACTION n) (2 ^ s.rdi SLC_CMP_ROUTE_n.PHASE n) false = u at hlatch
  rw [(Only.driveOff (Only.refl 0x1500110000000200 u) _ _ rfl).rd _ (by decide), hlatch]
  refine (bitOf_mod _ 16 n hn).trans ?_
  rw [bitOf_testBit, Nat.testBit_or, Nat.testBit_two_pow_self, Bool.or_true]

/-! ### The local drives (R403 to R406) -/

/-- The fields of a channel in SLC_DRV_SC_STATUS. -/
def legsFld (m : Nat) : Fld := if m == 1 then SLC_DRV_SC_STATUS.LEGS1 else SLC_DRV_SC_STATUS.LEGS0
def bothFld (m : Nat) : Fld := if m == 1 then SLC_DRV_SC_STATUS.BOTH1 else SLC_DRV_SC_STATUS.BOTH0
def hardFld (m : Nat) : Fld := if m == 1 then SLC_DRV_SC_STATUS.HARD1 else SLC_DRV_SC_STATUS.HARD0

/-- A soft turn-off of the channel runs. -/
def State.softRuns (s : State) (m : Nat) : Bool := decide (s.tm.e < s.slc.softEnd.getD m 0) && s.rd (legsFld m) != 0

/-- The fields of a channel after a detection, and the gates' answer (R405). -/
def State.legOff (s : State) (m leg : Nat) (hard both : Bool) : State :=
  let u := (s.wr (legsFld m) (setBit (s.rd (legsFld m)) leg)).wr (hardFld m) (b2n hard)
  let u := if both then u.wr (bothFld m) 1 else u
  let soft := u.tm.e + u.rdi SLC_DRV_SC_CFG_m.SOFT m * 100
  let u := { u with slc := { u.slc with softEnd := u.slc.softEnd.set m soft } }
  (List.range 3).foldl (fun s l => s.emit (if both || l == leg then .driveSoft m l else .driveLegOff m l)) u

/-- The channel goes to FAULT and the record is posted. -/
def State.legFault (u : State) (m leg legs : Nat) (hard both : Bool) : State :=
  (if both ∧ u.astate m = 6 then u else u.auxShort m).post 0x41
    [(24, 1, m), (25, 1, if both then legs else 2 ^ leg), (26, 1, b2n both), (27, 1, b2n hard)]

theorem legShort_eq (s : State) (m leg : Nat) (hard : Bool) : s.legShort m leg hard =
    if s.softRuns m ∧ (bitOf (s.rd (legsFld m)) leg ∨ s.bit (bothFld m)) then s.wr (legsFld m) (setBit (s.rd (legsFld m)) leg)
    else (s.legOff m leg hard (s.softRuns m)).legFault m leg (setBit (s.rd (legsFld m)) leg) hard (s.softRuns m) := rfl

/-- What the detectors see (R403, R404), by what the two thresholds say. -/
theorem shortSeen_eq (s : State) (m amps slope on : Nat) {hard soft : Bool}
    (hhard : hard = (!s.biti SLC_DRV_SC_CFG_m.MODE m && decide (2 * s.rdi SLC_DRV_SC_CFG_m.SC_LVL m ≤ amps)))
    (hsoft : soft = (decide (on + s.rdi SLC_DRV_SC_CFG_m.BLANK m * 10 ≤ s.tm.e) &&
      (if s.biti SLC_DRV_SC_CFG_m.MODE m then decide (s.rdi SLC_DRV_SC_CFG_m.DIDT_LVL m ≤ slope)
       else decide (s.rdi SLC_DRV_SC_CFG_m.SC_LVL m ≤ amps)))) :
    s.shortSeen m amps slope on = (hard || soft, hard) := by
  unfold State.shortSeen
  rw [hhard, hsoft]
  cases s.biti SLC_DRV_SC_CFG_m.MODE m <;> rfl

theorem exec_driveShort (m : Fin 2) (leg : Fin 3) (x : LegSense) (e : Nat) (s : State) :
    exec (.driveShort m leg x e) s = .next (if ((s.moveTo e).shortSeen m.val x.amps x.slope x.on).1
      then (s.moveTo e).legShort m.val leg.val ((s.moveTo e).shortSeen m.val x.amps x.slope x.on).2 else s.moveTo e) := rfl

theorem setBit_lt_eight {v leg : Nat} (hv : v < 8) (hleg : leg < 3) : setBit v leg < 8 := by
  have h : ∀ v : Fin 8, ∀ leg : Fin 3, setBit v leg < 8 := by decide
  exact h ⟨v, hv⟩ ⟨leg, hleg⟩

/-- The registers that the gates' answer leaves, and the soft turn-off of the leg. -/
theorem legOff_shows (s : State) {m leg : Nat} (hm : m < 2) (hleg : leg < 3) (hard both : Bool) (hlegs : s.rd (legsFld m) < 8) :
    (s.legOff m leg hard both).rd (legsFld m) = setBit (s.rd (legsFld m)) leg ∧
    (s.legOff m leg hard both).rd (legsFld (1 - m)) = s.rd (legsFld (1 - m)) ∧
    (s.legOff m leg hard both).rd (hardFld m) = b2n hard ∧ Out.driveSoft m leg ∈ (s.legOff m leg hard both).out := by
  have hwidth : setBit (s.rd (legsFld m)) leg % 8 = setBit (s.rd (legsFld m)) leg := Nat.mod_eq_of_lt (setBit_lt_eight hlegs hleg)
  have hbit : b2n hard % 2 = b2n hard := by cases hard <;> rfl
  have hregs : ∀ f, (s.legOff m leg hard both).rd f = (if both then
      ((s.wr (legsFld m) (setBit (s.rd (legsFld m)) leg)).wr (hardFld m) (b2n hard)).wr (bothFld m) 1
      else (s.wr (legsFld m) (setBit (s.rd (legsFld m)) leg)).wr (hardFld m) (b2n hard)).rd f := fun f => rfl
  have hshow : ∀ m < 2, ∀ u : State, ∀ x, x % 8 = x → ∀ both : Bool,
      let t := if both then ((u.wr (legsFld m) x).wr (hardFld m) (b2n hard)).wr (bothFld m) 1
        else (u.wr (legsFld m) x).wr (hardFld m) (b2n hard)
      t.rd (legsFld m) = x ∧ t.rd (legsFld (1 - m)) = u.rd (legsFld (1 - m)) ∧ t.rd (hardFld m) = b2n hard := by
    intro m hm u x hx both
    rcases (by omega : m = 0 ∨ m = 1) with rfl | rfl <;> cases both <;>
      simp (disch := decide) only [if_true, if_false, Bool.false_eq_true, State.rd_wr_apart, State.rd_wr_self] <;>
      exact ⟨hx, trivial, hbit⟩
  obtain ⟨h1, h2, h3⟩ := hshow m hm s _ hwidth both
  refine ⟨(hregs _).trans h1, (hregs _).trans h2, (hregs _).trans h3, ?_⟩
  rcases (by omega : leg = 0 ∨ leg = 1 ∨ leg = 2) with rfl | rfl | rfl <;> cases both <;>
    simp [State.legOff, State.emit, List.range_succ]

/-- The channel ends in FAULT; the sluice's registers and what the gates were told stand (R405, R599). -/
theorem legFault_shows (u : State) {m : Nat} (leg legs : Nat) (hm : m < 2) (hard both : Bool) :
    Only 0x1500110000000200 u (u.legFault m leg legs hard both) ∧ (u.legFault m leg legs hard both).astate m = 6 ∧
    u.out <+: (u.legFault m leg legs hard both).out := by
  unfold State.legFault
  generalize hw : (if both ∧ u.astate m = 6 then u else u.auxShort m) = w
  have hfault : Only 0x1500110000000200 u w ∧ w.astate m = 6 ∧ u.out <+: w.out := by
    rw [← hw]
    split
    next h => exact ⟨Only.refl _ u, h.2, List.prefix_refl _⟩
    next =>
      exact ⟨Only.auxShort (Only.refl _ u) m rfl, (auxEnter_spec _ m 6 13 _ hm (by decide)).1,
        auxEnter_out (u.updAch m fun x => { x with resume := false }) ..⟩
  obtain ⟨honly, hstate, hout⟩ := hfault
  have hpost := postO w 0x41 [(24, 1, m), (25, 1, if both then legs else 2 ^ leg), (26, 1, b2n both), (27, 1, b2n hard)]
  exact ⟨honly.trans (hpost.mono rfl), (hpost.rdi _ _ (by decide)).trans hstate, hout.trans (State.post_out ..)⟩

/-- A detection of either kind: on a leg whose soft turn-off runs, or with both told, it is shown in LEGS alone (log entry 125). -/
theorem driveShort_detected (s : State) (m : Fin 2) (leg : Fin 3) (amps slope on e : Nat) {hard soft : Bool}
    (hlegs : s.rd (legsFld m) < 8)
    (hhard : hard = (!s.biti SLC_DRV_SC_CFG_m.MODE m && decide (2 * s.rdi SLC_DRV_SC_CFG_m.SC_LVL m ≤ amps)))
    (hsoft : soft = (decide (on + s.rdi SLC_DRV_SC_CFG_m.BLANK m * 10 ≤ (s.moveTo e).tm.e) &&
      (if s.biti SLC_DRV_SC_CFG_m.MODE m then decide (s.rdi SLC_DRV_SC_CFG_m.DIDT_LVL m ≤ slope)
       else decide (s.rdi SLC_DRV_SC_CFG_m.SC_LVL m ≤ amps)))) :
    ∃ t, exec (.driveShort m leg ⟨amps, slope, on⟩ e) s = .next t ∧ (hard = false → soft = false → t = s.moveTo e) ∧
      (hard = true ∨ soft = true → t.rd (legsFld m) = setBit (s.rd (legsFld m)) leg ∧
        t.rd (legsFld (1 - m)) = s.rd (legsFld (1 - m)) ∧
        ((s.moveTo e).tm.e < s.slc.softEnd.getD m 0 ∧ s.rd (legsFld m) ≠ 0 ∧
            (bitOf (s.rd (legsFld m)) leg = true ∨ s.bit (bothFld m) = true) →
          t.rd (hardFld m) = s.rd (hardFld m) ∧ t.out = s.out ∧ t.hst = s.hst) ∧
        (¬((s.moveTo e).tm.e < s.slc.softEnd.getD m 0 ∧ s.rd (legsFld m) ≠ 0 ∧
            (bitOf (s.rd (legsFld m)) leg = true ∨ s.bit (bothFld m) = true)) →
          t.rd (hardFld m) = b2n hard ∧ t.astate m = 6 ∧ Out.driveSoft m leg ∈ t.out)) := by
  have hregs : ∀ f i, (s.moveTo e).rdi f i = s.rdi f i := fun f i => rdi_of_regs (moveTo_regs s e) f i
  have hseen : (s.moveTo e).shortSeen m amps slope on = (hard || soft, hard) := by
    refine shortSeen_eq _ m amps slope on ?_ ?_
    · rw [hhard]
      unfold State.biti
      simp only [hregs]
    · rw [hsoft]
      unfold State.biti
      simp only [hregs]
  refine ⟨_, exec_driveShort m leg ⟨amps, slope, on⟩ e s, ?_⟩
  rw [hseen]
  refine ⟨fun h1 h2 => if_neg (by simp [h1, h2]), fun h => ?_⟩
  rw [if_pos (by simpa using h), legShort_eq]
  have hsr : (s.moveTo e).softRuns m = true ↔ (s.moveTo e).tm.e < s.slc.softEnd.getD m 0 ∧ s.rd (legsFld m) ≠ 0 := by
    unfold State.softRuns
    rw [s.moveTo_slc, rd_moveTo]
    simp
  rw [moveTo_bit, rd_moveTo]
  have hother : ∀ m : Fin 2, apart (legsFld m) (legsFld (1 - m)) = true ∧ apart (legsFld m) (hardFld m) = true ∧ 0 < (legsFld m).count ∧
      (legsFld m).w = 3 ∧ fr 0x1500110000000200 (legsFld m) = true ∧ fr 0x1500110000000200 (legsFld (1 - m)) = true ∧
      fr 0x1500110000000200 (hardFld m) = true := by decide
  obtain ⟨hap, haph, hcount, hw, hfr, hfr', hfrh⟩ := hother m
  by_cases hagain : (s.moveTo e).softRuns m = true ∧ (bitOf (s.rd (legsFld m)) leg = true ∨ s.bit (bothFld m) = true)
  · rw [if_pos hagain]
    refine ⟨?_, ?_, fun _ => ⟨?_, ?_, ?_⟩, fun hno => absurd ⟨(hsr.mp hagain.1).1, (hsr.mp hagain.1).2, hagain.2⟩ hno⟩
    · rw [State.rd_wr_self _ _ hcount, hw]
      exact Nat.mod_eq_of_lt (setBit_lt_eight hlegs leg.isLt)
    · rw [State.rd_wr_apart _ _ hap, rd_moveTo]
    · rw [State.rd_wr_apart _ _ haph, rd_moveTo]
    · rw [State.wr_out, s.moveTo_out]
    · rw [State.wr_hst, s.moveTo_hst]
  · rw [if_neg hagain]
    obtain ⟨hlegs', hrest, hhard', hsoft'⟩ := legOff_shows (s.moveTo e) m.isLt leg.isLt hard ((s.moveTo e).softRuns m)
      (by rwa [rd_moveTo])
    obtain ⟨honly, hstate, hout⟩ := legFault_shows ((s.moveTo e).legOff m leg hard ((s.moveTo e).softRuns m)) leg
      (setBit (s.rd (legsFld m)) leg) m.isLt hard ((s.moveTo e).softRuns m)
    rw [rd_moveTo] at hlegs' hrest
    refine ⟨(honly.rd _ hfr).trans hlegs', (honly.rd _ hfr').trans hrest,
      fun hyes => absurd ⟨hsr.mpr ⟨hyes.1, hyes.2.1⟩, hyes.2.2⟩ hagain,
      fun _ => ⟨(honly.rd _ hfrh).trans hhard', hstate, hout.subset hsoft'⟩⟩

/-- A channel's part of a clear of SLC_DRV_SC_STATUS (R406). -/
def State.clearDriveOne (v : Nat) (s : State) (m : Nat) (legsF bothF : Fld) : State :=
  let s := if bits v bothF.lo 1 = 1 then s.wr bothF 0 else s
  let k := bits v legsF.lo 3
  if k = 0 then s
  else if s.tm.e < s.slc.softEnd.getD m 0 + 10000000 then s.refuse SLC_BLOCK_STATUS.CFG_ERR
  else s.wr legsF (s.rd legsF - (s.rd legsF &&& k))

theorem clearDriveSc_eq (s : State) (v : Nat) : s.clearDriveSc v =
    (s.clearDriveOne v 0 SLC_DRV_SC_STATUS.LEGS0 SLC_DRV_SC_STATUS.BOTH0).clearDriveOne v 1 SLC_DRV_SC_STATUS.LEGS1
      SLC_DRV_SC_STATUS.BOTH1 := rfl

theorem clearDriveOne_shows (v : Nat) (s : State) (m : Nat) {legsF bothF : Fld} (hlegs : apart legsF bothF = true)
    (hboth : apart bothF legsF = true) (hcfg : apart SLC_BLOCK_STATUS.CFG_ERR legsF = true)
    (hcfg' : apart SLC_BLOCK_STATUS.CFG_ERR bothF = true) (hcount : 0 < legsF.count ∧ 0 < bothF.count) (hw : legsF.w = 3) :
    (s.clearDriveOne v m legsF bothF).rd legsF = (if bits v legsF.lo 3 ≠ 0 ∧ s.slc.softEnd.getD m 0 + 10000000 ≤ s.tm.e then
      (s.rd legsF - (s.rd legsF &&& bits v legsF.lo 3)) % 8 else s.rd legsF) ∧
    (s.clearDriveOne v m legsF bothF).rd bothF = (if bits v bothF.lo 1 = 1 then 0 else s.rd bothF) ∧
    (s.clearDriveOne v m legsF bothF).tm = s.tm ∧ (s.clearDriveOne v m legsF bothF).slc = s.slc ∧
    ∀ g, apart legsF g = true → apart bothF g = true → apart SLC_BLOCK_STATUS.CFG_ERR g = true →
      (s.clearDriveOne v m legsF bothF).rd g = s.rd g := by
  unfold State.clearDriveOne
  generalize hu : (if bits v bothF.lo 1 = 1 then s.wr bothF 0 else s) = u
  have hfirst : u.rd legsF = s.rd legsF ∧ u.rd bothF = (if bits v bothF.lo 1 = 1 then 0 else s.rd bothF) ∧ u.tm = s.tm ∧
      u.slc = s.slc ∧ ∀ g, apart bothF g = true → u.rd g = s.rd g := by
    rw [← hu]
    split
    · exact ⟨s.rd_wr_apart _ hboth, (s.rd_wr_self 0 hcount.2).trans (Nat.zero_mod _), s.wr_tm .., s.wr_slc .., fun g hg => s.rd_wr_apart _ hg⟩
    · exact ⟨rfl, rfl, rfl, rfl, fun _ _ => rfl⟩
  obtain ⟨hl, hb, htm, hslc, hrest⟩ := hfirst
  dsimp only
  rw [htm, hslc, hl, ← hb]
  split
  next h0 => exact ⟨by rw [if_neg (by simp [h0]), hl], rfl, htm, hslc, fun g _ hg _ => hrest g hg⟩
  next hne =>
    split
    next hlt =>
      exact ⟨by rw [if_neg (by omega)]; exact (u.rd_wr_apart _ hcfg).trans hl, u.rd_wr_apart _ hcfg', (u.wr_tm ..).trans htm,
        (u.wr_slc ..).trans hslc, fun g _ hg hc => (u.rd_wr_apart _ hc).trans (hrest g hg)⟩
    next hge =>
      refine ⟨?_, u.rd_wr_apart _ hlegs, (u.wr_tm ..).trans htm, (u.wr_slc ..).trans hslc,
        fun g hlg hg _ => (u.rd_wr_apart _ hlg).trans (hrest g hg)⟩
      rw [if_pos ⟨hne, by omega⟩, u.rd_wr_self _ hcount.1, hw]
      rfl

/-! ### The converter release (R408, R506) -/

section
variable {s u : State} {h : DescHdr} {d : Desc} {e : Nat} (hgo : (s.moveTo e).startDesc h 0x02 = .go d u)
include hgo

theorem ringWaits_begun : u.ringWaits d.ring = s.ringWaits h.ring := by
  obtain ⟨honly, -, -, -, hring, -⟩ := start_only hgo
  obtain ⟨-, -, hhst, -⟩ := begin_op hgo
  have hsp : u.sp = s.sp := (honly.sp rfl).trans (s.moveTo_sp e)
  unfold State.ringWaits
  rw [hring, hhst, hsp]

theorem exec_converterRelease (hon : s.pwr.mainOn = true) (hty : s.rdi RING_CFG_n.TYPE h.ring = 0) :
    exec (.converterRelease h e) s = .next (if s.ringWaits h.ring then u.putWait (.release d) else u.askRelease d) := by
  refine (next_live hon _).trans (congrArg _ ((run_go _ hgo (by decide) (ty_mv hty)).trans ?_))
  rw [ringWaits_begun hgo]

end

/-- A refused release: RELEASE_REFUSED is posted and the descriptor ends with the lowest failed check (R408, R506). -/
theorem askRelease_refused {u : State} (d : Desc) (hw : u.releaseChecks ≠ 0) (hepoch : d.epoch = u.hst.epoch) :
    (u.askRelease d).slc = u.slc ∧ u.hst.seqNo < (u.askRelease d).hst.seqNo ∧
    ∃ x ∈ (u.askRelease d).hst.comps, x.status = 2 ∧ x.detail = lowBit u.releaseChecks ∧ x.tag = d.tag := by
  unfold State.askRelease
  dsimp only
  rw [if_neg hw]
  generalize hv : (if bitOf u.releaseChecks 1 then (if bitOf u.releaseChecks 5 then u.refuse MIR_STATUS.CFG_ERR else u).refuse
    CTL_STATUS.CFG_ERR else if bitOf u.releaseChecks 5 then u.refuse MIR_STATUS.CFG_ERR else u) = v
  have hkeep : v.hst = u.hst ∧ v.slc = u.slc := by
    rw [← hv]
    split <;> split <;> simp only [State.refuse_hst, State.refuse_slc, and_self]
  have hpost := (v.post_kept 2 [(24, 4, u.releaseChecks), (28, 1, v.rd SLC_BLOCK_STATUS.SCOPE)]).epoch
  refine ⟨?_, ?_, ?_⟩
  · rw [State.complete_slc, State.post_slc, hkeep.2]
  · rw [State.complete_seqNo, ← hkeep.1]
    exact v.post_seqNo ..
  · rw [State.complete_comps _ _ _ _ _ (by rw [hpost, hkeep.1, hepoch])]
    exact ⟨_, List.mem_append_right _ (List.mem_singleton_self _), rfl, rfl, rfl⟩

/-- Settles O9: the clear by `rd_clearFields`, the window by `cmpAct_latches`, the drives by `driveShort_detected`, the release by
`exec_converterRelease`. -/
theorem sluiceLatchesAndDrives : Obligations.SluiceLatchesAndDrives := by
  refine ⟨fun s v e hon => ?_, fun s n e hon hopen hdone => ⟨_, exec_blankWindowClose hon hopen hdone, fun hquiet => ?_,
    fun hlive hact hphase hphases => ?_⟩,
    fun s leg amps slope on e hard soft hlegs hhard hsoft => driveShort_detected s 0 leg amps slope on e hlegs hhard hsoft,
    fun s leg amps slope on e hard soft hlegs hhard hsoft => driveShort_detected s 1 leg amps slope on e hlegs hhard hsoft,
    fun s v e hon => ?_, fun s u h d e hon hgo hty hwaits => ?_, fun s u h d e hon hgo hty hwaits hw => ?_,
    fun s u h d e hon hgo hty hwaits hw => ?_⟩
  · obtain ⟨hclear, hrest, hcells⟩ := rd_clearFields v (l := latchFields) (fun _ h => h) (by decide) (s.moveTo e)
    refine ⟨_, exec_slcLatchClear hon v e, fun f hf => ?_, ?_, ?_, ?_⟩
    · rw [clearLatch_eq, hclear f hf, rd_moveTo]
    · rw [clearLatch_eq]
      exact (hrest _ 0 (by decide)).trans (rd_moveTo s e _)
    · rw [clearLatch_eq]
      exact (hrest _ 0 (by decide)).trans (rd_moveTo s e _)
    · rw [clearLatch_eq, hcells, s.moveTo_cells]
  · rw [hquiet, if_neg Bool.false_ne_true]
    exact ⟨moveTo_regs s e, tget_tput_self (fun _ => 0) (s.moveTo e).slc.blankEnd n.val 0⟩
  · have hrdi : ∀ f i, ((s.moveTo e).windowShut n).rdi f i = s.rdi f i := fun f i => rdi_of_regs (moveTo_regs s e) f i
    rw [hlive, if_pos rfl]
    exact cmpAct_latches n.isLt (by rwa [hrdi]) (by rwa [hrdi]) (by rwa [State.rd_def, hrdi])
  · refine ⟨_, next_live hon _, ?_⟩
    rw [clearDriveSc_eq]
    obtain ⟨hl0, hb0, htm, hslc, hrest⟩ := clearDriveOne_shows v (s.moveTo e) 0 (legsF := SLC_DRV_SC_STATUS.LEGS0)
      (bothF := SLC_DRV_SC_STATUS.BOTH0) (by decide) (by decide) (by decide) (by decide) (by decide) rfl
    generalize (s.moveTo e).clearDriveOne v 0 SLC_DRV_SC_STATUS.LEGS0 SLC_DRV_SC_STATUS.BOTH0 = w at *
    obtain ⟨hl1, hb1, -, -, hrest1⟩ := clearDriveOne_shows v w 1 (legsF := SLC_DRV_SC_STATUS.LEGS1)
      (bothF := SLC_DRV_SC_STATUS.BOTH1) (by decide) (by decide) (by decide) (by decide) (by decide) rfl
    rw [htm, hslc, hrest _ (by decide) (by decide) (by decide), s.moveTo_slc, rd_moveTo] at hl1
    rw [hrest _ (by decide) (by decide) (by decide), rd_moveTo] at hb1
    rw [s.moveTo_slc, rd_moveTo] at hl0
    rw [rd_moveTo] at hb0
    exact ⟨(hrest1 _ (by decide) (by decide) (by decide)).trans hl0, hl1, (hrest1 _ (by decide) (by decide) (by decide)).trans hb0, hb1⟩
  · obtain ⟨-, hslc, hhst, -⟩ := begin_op hgo
    refine ⟨_, exec_converterRelease hgo hon hty, ?_⟩
    rw [hwaits, if_pos rfl]
    exact ⟨by rw [← hhst]; rfl, congrArg SlcSt.release hslc, show u.hst.comps = _ by rw [hhst]⟩
  · obtain ⟨-, hslc, hhst, -⟩ := begin_op hgo
    have hasked : u.askRelease d = { u with slc := { u.slc with release := u.slc.release ++ [d] } } := if_pos hw
    refine ⟨_, exec_converterRelease hgo hon hty, ?_⟩
    rw [hwaits, if_neg Bool.false_ne_true, hasked]
    exact ⟨by rw [← hslc], rd_begun hgo (by decide), ((start_only hgo).1.cells rfl).trans (s.moveTo_cells e), congrArg HostSt.comps hhst⟩
  · obtain ⟨-, hslc, hhst, -, hepoch, htag⟩ := begin_op hgo
    obtain ⟨hkeep, hseq, x, hx, hstatus, hdetail, hxtag⟩ := askRelease_refused d hw (by rw [hhst, hepoch])
    refine ⟨_, exec_converterRelease hgo hon hty, ?_⟩
    rw [hwaits, if_neg Bool.false_ne_true]
    exact ⟨by rw [hkeep, hslc], by rwa [← hhst], x, hx, hstatus, hdetail, hxtag.trans htag⟩

end Sys2Proof.Machine
end

section
/-! PROOFS. Fencing, second mismatches, the scrub, the rebuild's steps, traps and the RESET entry's end (13_control_triad.md R464, R471 to
R475): O10. -/
namespace Sys2Proof.Machine
open Reg

/-! ### A member's fault (R471, R475) -/

theorem exec_tcmEccError {s : State} (hon : s.pwr.mainOn = true) (m : Member) (a e : Nat) :
    exec (.tcmEccError m a e) s = .next ((s.moveTo e).memberFault (memberNum m) 2 a) := next_live hon _

theorem memberFault_triplex {s : State} (hmode : s.rd TRI_STATUS.MODE = 1) (m kind addr : Nat) :
    s.memberFault m kind addr = s.fence m kind addr := if_pos hmode

theorem memberFault_second {s : State} {m : Nat} (hmode : s.rd TRI_STATUS.MODE = 2 ∨ s.rd TRI_STATUS.MODE = 3)
    (hrun : s.running m = true) (kind addr : Nat) : s.memberFault m kind addr = s.secondMismatch kind addr :=
  (if_neg (by omega)).trans (if_pos ⟨hmode, hrun⟩)

theorem moveTo_running (s : State) (e m : Nat) : (s.moveTo e).running m = s.running m := by
  unfold State.running
  simp only [rd_moveTo]

theorem fence_scope (s : State) (m kind addr : Nat) : (s.fence m kind addr).rd SLC_BLOCK_STATUS.SCOPE = s.rd SLC_BLOCK_STATUS.SCOPE :=
  (Only.fence (Only.refl 0x1100300200000600 s) m kind addr rfl).rd _ (by decide)

theorem exec_scrubSweep {s : State} (hon : s.pwr.mainOn = true) (hen : s.bit TRI_CFG.SCRUB_EN = true)
    (hmode : s.rd TRI_STATUS.MODE = 1) (m : Member) (a e : Nat) :
    exec (.scrubSweep (some (m, a)) e) s = .next (((s.moveTo e).inc TRI_STATUS.SCRUB_DIFF 1).fence (memberNum m) 3 a) :=
  (next_live hon _).trans (congrArg _ (if_pos ⟨(moveTo_bit s e _).trans hen, (rd_moveTo s e _).trans hmode⟩))

/-- A sweep that differs is counted (R474). -/
theorem rd_inc_scrubDiff (s : State) : (s.inc TRI_STATUS.SCRUB_DIFF 1).rd TRI_STATUS.SCRUB_DIFF = min 255 (s.rd TRI_STATUS.SCRUB_DIFF + 1) := by
  refine (s.rdi_wri_self _ (by decide)).trans ?_
  show satAdd 255 (s.rd TRI_STATUS.SCRUB_DIFF) 1 % 256 = _
  unfold satAdd
  omega

/-! ### The rebuild (R472, R473) -/

theorem atStep_moveTo {s : State} {k ns e : Nat} (hmode : s.rd TRI_STATUS.MODE = 2) (hstep : s.rd TRI_STATUS.RSTEP = k)
    (hwait : s.tri.stepAt + ns ≤ (s.moveTo e).tm.e) : (s.moveTo e).atStep k ns = true := by
  unfold State.atStep
  rw [rd_moveTo, rd_moveTo, s.moveTo_tri, hmode, hstep]
  simpa using hwait

theorem toStep_shows (s : State) {k : Nat} (hk : k < 8) : (s.toStep k).rd TRI_STATUS.RSTEP = k ∧ (s.toStep k).tri.stepAt = s.tm.e ∧
    (s.toStep k).rd TRI_STATUS.MODE = s.rd TRI_STATUS.MODE := by
  unfold State.toStep
  refine ⟨(State.rd_wr_self _ k (by decide)).trans (Nat.mod_eq_of_lt hk), ?_, State.rd_wr_apart _ k (by decide)⟩
  rw [State.wr_tri]

section
variable {s : State} {e : Nat} (hon : s.pwr.mainOn = true) (hmode : s.rd TRI_STATUS.MODE = 2)
include hon hmode

theorem exec_rebuildResetDone (hstep : s.rd TRI_STATUS.RSTEP = 1) (hwait : s.tri.stepAt + 10000 ≤ (s.moveTo e).tm.e) :
    exec (.rebuildResetDone e) s = .next ((s.moveTo e).toStep 2) :=
  (next_live hon _).trans (congrArg _ (if_pos (atStep_moveTo hmode hstep hwait)))

theorem exec_rebuildCopyDone (hstep : s.rd TRI_STATUS.RSTEP = 2) (hwait : s.tri.stepAt + 327680 ≤ (s.moveTo e).tm.e) :
    exec (.rebuildCopyDone e) s = .next ((s.moveTo e).toStep 3) :=
  (next_live hon _).trans (congrArg _ (if_pos (atStep_moveTo hmode hstep hwait)))

theorem exec_rebuildVerifyDone (hstep : s.rd TRI_STATUS.RSTEP = 3) (hwait : s.tri.stepAt + 327680 ≤ (s.moveTo e).tm.e) :
    exec (.rebuildVerifyDone none e) s = .next ((s.moveTo e).toStep 4) ∧
    ∀ a, exec (.rebuildVerifyDone (some a) e) s =
      .next ((((s.moveTo e).logMismatch (s.rd TRI_STATUS.FENCED) 4 a).holdMember (s.rd TRI_STATUS.FENCED) 4 a).checkPending) := by
  have hat : ¬(!(s.moveTo e).atStep 3 327680) = true := by rw [atStep_moveTo hmode hstep hwait]; decide
  refine ⟨(next_live hon _).trans (congrArg _ (if_neg hat)), fun a => (next_live hon _).trans (congrArg _ ((if_neg hat).trans ?_))⟩
  dsimp only
  rw [rd_moveTo]

end

/-- A member that the verification finds different is held, and a part that waited is checked (R473, R484). -/
theorem heldByVerify_shows (s : State) {m : Nat} (hm : m < 3) (a : Nat) :
    let t := ((s.logMismatch m 4 a).holdMember m 4 a).checkPending
    t.rd TRI_STATUS.MODE = 3 ∧ bitOf (t.rd TRI_STATUS.HELD) m = true ∧ t.rd TRI_MISMATCH_LOG.KIND = 4 := by
  obtain ⟨hmode, -, -, hheld, hkind⟩ := hold_spec (s.logMismatch m 4 a) m 4 a hm
  obtain ⟨-, hlog, -⟩ := log_spec s m 4 a (by omega) (by decide)
  dsimp only
  rw [checkPending_rd _ _ (by decide) (by decide) (by decide) (by decide), checkPending_rd _ _ (by decide) (by decide) (by decide) (by decide),
    checkPending_rd _ _ (by decide) (by decide) (by decide) (by decide)]
  exact ⟨hmode, hheld, hkind.trans hlog⟩

/-- A rebuild that waits for a boundary is at step 5 from it on. -/
structure RejoinBegun (t : State) : Prop where
  step : t.rd TRI_STATUS.RSTEP = 5
  mode : t.rd TRI_STATUS.MODE = 2
  at_ : t.tri.stepAt = t.tm.start

theorem rejoinStep_begun {s : State} (hmode : s.rd TRI_STATUS.MODE = 2) (hstep : s.rd TRI_STATUS.RSTEP = 4)
    (hhalt : s.rd TRI_STATUS.DBG_HALT = 0) : RejoinBegun s.rejoinStep := by
  have hgo : s.rejoinStep = ({ s with tri := { s.tri with stepAt := s.tm.start } }).wr TRI_STATUS.RSTEP 5 := if_pos ⟨hmode, hstep, hhalt⟩
  rw [hgo]
  refine ⟨State.rd_wr_self _ 5 (by decide), (State.rd_wr_apart _ 5 (by decide)).trans hmode, ?_⟩
  rw [State.wr_tri, State.wr_tm]

theorem RejoinBegun.only {s t : State} (h : RejoinBegun s) (only : Only 0x1fffddfffffffbff s t) : RejoinBegun t where
  step := (only.rd _ (by decide)).trans h.step
  mode := (only.rd _ (by decide)).trans h.mode
  at_ := by rw [only.tri rfl, only.tm rfl, h.at_]

theorem set_tick_only (u : State) (tm : TickSt) (sched : SchedSt) (h : Nat) :
    Only 0x20220000000000 u { u with tm := tm, sched := sched, tri := { u.tri with haltTicks := h } } :=
  Only.set_tri (t := { u with tm := tm, sched := sched })
    (Only.set_sched (t := { u with tm := tm }) (Only.set_tm (Only.refl _ u) tm rfl) sched rfl) { u.tri with haltTicks := h } rfl

/-- The boundary's work before and after the rebuild's step is nothing to TRI_STATUS (R24, R472). -/
theorem beginTick_rejoins {s : State} (hmode : s.rd TRI_STATUS.MODE = 2) (hstep : s.rd TRI_STATUS.RSTEP = 4)
    (hhalt : s.rd TRI_STATUS.DBG_HALT = 0) : RejoinBegun s.beginTick := by
  unfold State.beginTick
  extract_lets good u tm sched tri v w x y
  have hu : Only 0x1ffffffffffffbff s u := Only.foldl (Only.refl _ s) fun _ _ h => Only.ite (Only.takeCommand h _ rfl) h
  have hv : Only 0x1ffffffffffffbff s v := hu.trans ((set_tick_only u _ _ _).mono rfl)
  have hbefore : Only 0x1ffffffffffffbff s v.takeBlocks.applyDue.periodApply.shedClamp :=
    Only.shedClamp (Only.periodApply (Only.applyDue (Only.takeBlocks hv rfl) rfl) rfl) rfl
  have hw : RejoinBegun w := rejoinStep_begun ((hbefore.rd _ (by decide)).trans hmode) ((hbefore.rd _ (by decide)).trans hstep)
    ((hbefore.rd _ (by decide)).trans hhalt)
  have hx : Only 0x1fffddfffffffbff w x := Only.serviceDue (Only.refl _ w) rfl
  have hy : Only 0x1fffddfffffffbff w y := Only.foldl hx fun _ _ h => Only.rampTick (Only.stepTick h _ rfl) _ rfl
  exact hw.only (Only.openWindows (Only.periodStart (Only.joinCounts (Only.phaseCounts hy rfl) rfl) _ rfl) _ rfl)

/-- The members run together again: MODE, FENCED, RSTEP and the two times of the rebuild (R472). -/
def State.joined (s : State) (us : Nat) : State :=
  ((((s.wr TRI_STATUS.MODE 1).wr TRI_STATUS.FENCED 3).wr TRI_STATUS.RSTEP 0).wr TRI_RESYNC_TIME.LAST us).wr TRI_RESYNC_TIME.PEAK
    (max us ((((s.wr TRI_STATUS.MODE 1).wr TRI_STATUS.FENCED 3).wr TRI_STATUS.RSTEP 0).rd TRI_RESYNC_TIME.PEAK))

theorem exec_rebuildRejoin {s : State} (hon : s.pwr.mainOn = true) (hmode : s.rd TRI_STATUS.MODE = 2) (hstep : s.rd TRI_STATUS.RSTEP = 5)
    (hphase : s.tm.phase = 0) : ∃ (u : State) (m us : Nat), us = (s.tri.stepAt - s.tri.fencedAt) / 1000 ∧ u.hst = s.hst ∧
      exec .rebuildRejoin s = .next (((u.joined us).triadEvent 1 m 0 0 us).checkPending) := by
  refine ⟨s.moveTo (s.tri.stepAt + 384), (s.moveTo (s.tri.stepAt + 384)).rd TRI_STATUS.FENCED, _, rfl, s.moveTo_hst _, (next_live hon _).trans (congrArg _ ?_)⟩
  rw [if_pos ⟨hmode, hstep, hphase⟩]
  dsimp only
  rw [s.moveTo_tri]
  rfl

theorem joined_shows (s : State) (us : Nat) : (s.joined us).rd TRI_STATUS.MODE = 1 ∧ (s.joined us).rd TRI_STATUS.FENCED = 3 ∧
    (s.joined us).rd TRI_STATUS.RSTEP = 0 ∧ (s.joined us).rd TRI_RESYNC_TIME.LAST = us % 2 ^ 16 := by
  unfold State.joined
  simp (disch := decide) only [State.rd_wr_apart, State.rd_wr_self]
  exact ⟨rfl, rfl, rfl, rfl⟩

theorem joined_hst (s : State) (us : Nat) : (s.joined us).hst = s.hst := by
  unfold State.joined
  simp only [State.wr_hst]

/-! ### Traps and the RESET entry (R461, R464) -/

theorem exec_trap {s : State} (hon : s.pwr.mainOn = true) (en : Entry) (pc cause : Nat) : exec (.trap en pc cause) s = .next (s.trap en pc cause) :=
  next_live hon _

theorem triadEvent_only (s : State) (a b c d f : Nat) : Only 0x1100100000000200 s (s.triadEvent a b c d f) :=
  Only.triadEvent (Only.refl _ s) a b c d f rfl

theorem dropBackground_shows (s : State) : s.dropBackground.tri.backBank.pc = imgWord s.activeImage 20 ∧
    s.dropBackground.tri.backBank.g.head? = some 0 ∧ s.dropBackground.law = s.law ∧
    s.dropBackground.tri.tickBank = s.tri.tickBank ∧ s.dropBackground.hst = s.hst := ⟨rfl, rfl, rfl, rfl, rfl⟩

theorem trap_backgroundEntry (s : State) (pc cause : Nat) :
    s.trap .background pc cause = (s.triadEvent 3 3 (entryCode .background) pc cause).dropBackground := rfl

/-- A trap of BACKGROUND drops its context alone (R464). -/
theorem trap_background (s : State) (pc cause : Nat) : (s.trap .background pc cause).tri.backBank.pc = imgWord s.activeImage 20 ∧
    (s.trap .background pc cause).tri.backBank.g.head? = some 0 ∧ (s.trap .background pc cause).law = s.law ∧
    (s.trap .background pc cause).tri.tickBank = s.tri.tickBank ∧ s.hst.seqNo < (s.trap .background pc cause).hst.seqNo := by
  have only := triadEvent_only s 3 3 (entryCode .background) pc cause
  have himage : (s.triadEvent 3 3 (entryCode .background) pc cause).activeImage = s.activeImage := by
    unfold State.activeImage
    rw [only.tri rfl, only.rd _ (by decide)]
  have hseq : s.hst.seqNo < (s.triadEvent 3 3 (entryCode .background) pc cause).hst.seqNo := s.post_seqNo ..
  obtain ⟨hpc, hzero, hlaw, htick, hhst⟩ := dropBackground_shows (s.triadEvent 3 3 (entryCode .background) pc cause)
  rw [trap_backgroundEntry, hpc, himage, hlaw, only.law rfl, htick, only.tri rfl, hhst]
  exact ⟨rfl, hzero, rfl, rfl, hseq⟩

/-- What an abandoned S1 leaves (R37, R463, R469). -/
theorem overrun_shows (s : State) {k : Nat} (hk : k < 16) : (s.overrun k).law = (s.overrun k).lawC ∧ (s.overrun k).tri.tb = [] ∧
    (s.overrun k).tri.region = s.tri.regionC ∧ (s.overrun k).tm.abandoned = true ∧ (s.overrun k).rd CLK_TICK_STATUS.LATE_STAGE = k ∧
    (s.overrun k).hst = s.hst := by
  have hstage : ∀ u : State, (u.wr CLK_TICK_STATUS.LATE_STAGE k).rd CLK_TICK_STATUS.LATE_STAGE = k := fun u =>
    (u.rd_wr_self k (by decide)).trans (Nat.mod_eq_of_lt hk)
  have hdrop : s.dropLaw.law = s.dropLaw.lawC ∧ s.dropLaw.tri.tb = [] ∧ s.dropLaw.tri.region = s.tri.regionC ∧ s.dropLaw.hst = s.hst := by
    unfold State.dropLaw
    simp only [State.wr_law, State.wr_lawC, State.wr_tri, State.wr_hst, and_self]
  obtain ⟨hlaw, htb, hregion, hhst⟩ := hdrop
  unfold State.overrun
  dsimp only
  simp only [State.wr_law, State.wr_lawC, State.wr_tri, State.wr_tm, State.wr_hst, hstage]
  split <;> exact ⟨hlaw, htb, hregion, rfl, trivial, hhst⟩

theorem trap_tick {s : State} (hs1 : s.tm.s1run = true) (pc cause : Nat) :
    s.trap .tick pc cause = (s.triadEvent 3 3 (entryCode .tick) pc cause).overrun 1 :=
  if_pos (by rw [(triadEvent_only s 3 3 (entryCode .tick) pc cause).tm rfl, hs1])

/-- The RESET entry has ended: the descriptors of a restart complete (R461, R523). -/
theorem exec_tready {s : State} (hon : s.pwr.mainOn = true) (hok : s.tri.imageOk = true) : ∃ u : State,
    u.pwr = { s.pwr with tready := true, restart := false } ∧ u.regs = s.regs ∧
    exec .tready s = .next (s.hst.aborted.foldl (fun s d => s.complete d 0x0C 0 []) u) :=
  ⟨{ s with pwr := { s.pwr with tready := true, restart := false }, hst := { s.hst with aborted := [] } }, rfl, rfl,
    (next_live hon _).trans (congrArg _ (if_pos hok))⟩

/-- Settles O10: faults by `fence_spec` and `second_spec`, the rebuild step by step, traps by what they abandon. -/
theorem triadFaultCommands : Obligations.TriadFaultCommands := by
  refine ⟨fun s m a e hon hmode hpast => ?_, fun s m a e hon hmode hpast => ?_, fun s m a e hon hmode hrun hphases => ?_,
    fun s e hon => ⟨_, next_live hon _, moveTo_regs s e, s.moveTo_tri e⟩, fun s m a e hon hmode hen hpast => ?_,
    fun s e hon hmode hstep hwait => ?_, fun s e hon hmode hstep hwait => ?_, fun s e hon hmode hstep hwait => ⟨?_, fun a hfenced => ?_⟩,
    fun s e hon hmode hstep hhalt hrun hphase hawake hlate => ?_, fun s hon hmode hstep hphase => ?_,
    fun s pc cause hon => ⟨⟨_, exec_trap hon _ _ _, trap_background s pc cause⟩, fun hs1 => ?_⟩, fun s hon hok => ?_⟩
  · obtain ⟨hkind, hshown, -⟩ := fence_spec (s.moveTo e) (memberNum m) 2 a (mn m) (by decide)
    rw [s.moveTo_tri] at hshown
    obtain ⟨h1, h2, h3, h4, h5, h6, h7, -⟩ := hshown hpast
    rw [rd_moveTo] at h4 h7
    refine ⟨_, exec_tcmEccError hon m a e, ?_⟩
    rw [memberFault_triplex ((rd_moveTo s e _).trans hmode)]
    exact ⟨h1, h2, h3, h4, h5, hkind, h6, h7, (fence_scope ..).trans (rd_moveTo s e _)⟩
  · obtain ⟨-, -, hheld⟩ := fence_spec (s.moveTo e) (memberNum m) 2 a (mn m) (by decide)
    rw [s.moveTo_tri] at hheld
    refine ⟨_, exec_tcmEccError hon m a e, ?_⟩
    rw [memberFault_triplex ((rd_moveTo s e _).trans hmode)]
    exact hheld hpast
  · obtain ⟨h1, h2, h3, h4, h5, h6⟩ := second_spec (s.moveTo e) 2 a (by decide) ((rd_moveTo s e _).trans_lt hphases)
    refine ⟨_, exec_tcmEccError hon m a e, ?_⟩
    rw [memberFault_second (by rwa [rd_moveTo]) ((moveTo_running s e _).trans hrun)]
    exact ⟨h1, h2, h3, h4, h5, h6.trans (rd_moveTo s e _)⟩
  · obtain ⟨hkind, hshown, -⟩ := fence_spec ((s.moveTo e).inc TRI_STATUS.SCRUB_DIFF 1) (memberNum m) 3 a (mn m) (by decide)
    obtain ⟨h1, h2, -, -, -, -, -, h8⟩ := hshown (by rwa [State.inc_tri, State.inc_tm, s.moveTo_tri])
    rw [rd_inc_scrubDiff, rd_moveTo] at h8
    exact ⟨_, exec_scrubSweep hon hen hmode m a e, h8, h1, h2, hkind⟩
  · obtain ⟨h1, h2, -⟩ := toStep_shows (s.moveTo e) (k := 2) (by decide)
    exact ⟨_, exec_rebuildResetDone hon hmode hstep hwait, h1, h2⟩
  · obtain ⟨h1, h2, -⟩ := toStep_shows (s.moveTo e) (k := 3) (by decide)
    exact ⟨_, exec_rebuildCopyDone hon hmode hstep hwait, h1, h2⟩
  · obtain ⟨h1, -, h3⟩ := toStep_shows (s.moveTo e) (k := 4) (by decide)
    exact ⟨_, (exec_rebuildVerifyDone hon hmode hstep hwait).1, h1, h3.trans ((rd_moveTo s e _).trans hmode)⟩
  · exact ⟨_, (exec_rebuildVerifyDone hon hmode hstep hwait).2 a, heldByVerify_shows _ hfenced a⟩
  · have hlook : ∀ f, fr 0x1d425101a0000200 f = true → (s.boundaryLook e).rd f = s.rd f := fun f hf =>
      ((boundaryLook_only s e).rd f hf).trans (rd_moveTo s e f)
    obtain ⟨h1, h2, h3⟩ := beginTick_rejoins (s := s.boundaryLook e) ((hlook _ (by decide)).trans hmode)
      ((hlook _ (by decide)).trans hstep) ((hlook _ (by decide)).trans hhalt)
    exact ⟨_, exec_tickBoundary hon hrun hphase hawake hlate, h1, h2, h3⟩
  · obtain ⟨u, m, us, hus, hhst, hexec⟩ := exec_rebuildRejoin hon hmode hstep hphase
    have only := triadEvent_only (u.joined us) 1 m 0 0 us
    obtain ⟨h1, h2, h3, h4⟩ := joined_shows u us
    refine ⟨_, hexec, ?_⟩
    simp (disch := decide) only [checkPending_rd, only.rd, h1, h2, h3, h4, checkPending_seqNo]
    refine ⟨trivial, trivial, trivial, by rw [hus], ?_⟩
    rw [← hhst, ← joined_hst u us]
    exact State.post_seqNo ..
  · have only := triadEvent_only s 3 3 (entryCode .tick) pc cause
    obtain ⟨h1, h2, h3, h4, h5, h6⟩ := overrun_shows (s.triadEvent 3 3 (entryCode .tick) pc cause) (k := 1) (by decide)
    refine ⟨_, exec_trap hon _ _ _, ?_⟩
    rw [trap_tick hs1, h6]
    exact ⟨h1, h2, h3.trans (congrArg TriSt.regionC (only.tri rfl)), h4, h5, s.post_seqNo ..⟩
  · obtain ⟨u, hpwr, hregs, hexec⟩ := exec_tready hon hok
    have hkeep : (s.hst.aborted.foldl (fun s d => s.complete d 0x0C 0 []) u).pwr = u.pwr :=
      foldl_keep State.pwr _ (fun w d => w.complete_pwr ..) _ u
    refine ⟨_, hexec, by rw [hkeep, hpwr], by rw [hkeep, hpwr], ?_⟩
    rw [foldl_keep State.regs _ (fun w d => cmp_regs ..) _ u, hregs]

end Sys2Proof.Machine
end

section
/-! PROOFS. The majority commit and the triad's restart (13_control_triad.md R459, R463, R465, R468 to R470, R475, R476): O11. -/
namespace Sys2Proof.Machine
open Reg

/-! ### Which writes are compared (R468) -/

section
variable {s : State} {en : Entry} (hon : s.pwr.mainOn = true) {e : Nat}
include hon

theorem exec_writeCommit (a b c : Option PortWrite) : exec (.writeCommit en a b c e) s = .next
    (if !(s.moveTo e).entryRuns en then s.moveTo e
     else if (s.moveTo e).rd TRI_STATUS.MODE = 1 then (s.moveTo e).commit3 en a b c
     else if (s.moveTo e).rd TRI_STATUS.MODE = 2 ∨ (s.moveTo e).rd TRI_STATUS.MODE = 3 then
       if !(s.moveTo e).running 0 then (s.moveTo e).commit2 en b c
       else if !(s.moveTo e).running 1 then (s.moveTo e).commit2 en a c else (s.moveTo e).commit2 en a b
     else s.moveTo e) := next_live hon _

theorem exec_writeCommit_idle (a b c : Option PortWrite)
    (h : (s.moveTo e).entryRuns en = false ∨ s.rd TRI_STATUS.MODE = 0 ∨ s.rd TRI_STATUS.MODE = 4) :
    exec (.writeCommit en a b c e) s = .next (s.moveTo e) := by
  rw [exec_writeCommit hon, rd_moveTo]
  rcases h with h | h | h
  · rw [h, if_pos (by decide)]
  · split
    · rfl
    · rw [h, if_neg (by decide), if_neg (by decide)]
  · split
    · rfl
    · rw [h, if_neg (by decide), if_neg (by decide)]

theorem exec_writeCommit_triplex (a b c : Option PortWrite) (hrun : (s.moveTo e).entryRuns en = true) (hmode : s.rd TRI_STATUS.MODE = 1) :
    exec (.writeCommit en a b c e) s = .next ((s.moveTo e).commit3 en a b c) := by
  rw [exec_writeCommit hon, hrun, if_neg (by decide), rd_moveTo, if_pos hmode]

theorem exec_writeCommit_duplex (a b c : Option PortWrite) (hrun : (s.moveTo e).entryRuns en = true)
    (hmode : s.rd TRI_STATUS.MODE = 2 ∨ s.rd TRI_STATUS.MODE = 3) (hfirst : s.running 0 = false) :
    exec (.writeCommit en a b c e) s = .next ((s.moveTo e).commit2 en b c) := by
  rw [exec_writeCommit hon, hrun, if_neg (by decide), rd_moveTo, if_neg (by omega), if_pos hmode, moveTo_running, hfirst, if_pos (by decide)]

/-- A write on which the three members agree leaves. -/
theorem exec_writeCommit_agreed (w : PortWrite) (hrun : (s.moveTo e).entryRuns en = true) (hmode : s.rd TRI_STATUS.MODE = 1) :
    exec (.writeCommit en (some w) (some w) (some w) e) s = .next ((s.moveTo e).leave en w) := by
  rw [exec_writeCommit_triplex hon _ _ _ hrun hmode]
  exact congrArg _ (if_pos ⟨rfl, rfl⟩)

end

/-! ### Where a write goes (R459, R469, R470) -/

theorem deviceOffset_device {off : Nat} (h : off < 0x1000000) : deviceOffset (0x40000000 + off) = some off := by
  unfold deviceOffset
  rw [if_pos ⟨by omega, by omega⟩, Nat.add_sub_cancel_left]

section
variable (s : State) (en : Entry)

theorem leave_trap {w : PortWrite} (h : w.addr % 4 ≠ 0 ∨ laneOk w.be = false) : s.leave en w = s.trapNow en := if_pos h

/-- An aligned write of a device register is immediate or tick-bound by its class. -/
theorem leave_device {off be v : Nat} (hoff : off < 0x1000000) (halign : off % 4 = 0) (hlane : laneOk be = true) :
    s.leave en ⟨0x40000000 + off, v, be⟩ =
      if immediate en (0x40000000 + off) then s.regWrite .firmware off be v else s.queueTb en [.reg off v be] := by
  unfold State.leave
  rw [if_neg (by simp [hlane]; omega)]
  dsimp only
  rw [deviceOffset_device hoff]

/-- An aligned write outside the device registers and the dispatch interface is stored by the members. -/
theorem leave_core {w : PortWrite} (halign : w.addr % 4 = 0) (hlane : laneOk w.be = true) (hlow : w.addr < 0x40000000) :
    s.leave en w = s.coreStore en w := by
  have hdev : deviceOffset w.addr = none := if_neg (by omega)
  have hdis : inDispatch w.addr = false := by
    unfold inDispatch
    simp
    omega
  unfold State.leave
  rw [if_neg (by simp [halign, hlane]), hdev]
  dsimp only
  rw [hdis, if_neg Bool.false_ne_true]

end

theorem inRam_lt {a : Nat} (h : inRam a = true) : a < 0x40000000 ∧ inBank a = false := by
  unfold inRam at h
  unfold inBank
  simp at h ⊢
  omega

theorem inRegion_lt {a : Nat} (h : inRegion a = true) : a < 0x40000000 ∧ inRam a = false ∧ inBank a = false := by
  unfold inRegion at h
  unfold inRam inBank
  simp at h ⊢
  omega

theorem inBank_lt {a : Nat} (h : inBank a = true) : a < 0x40000000 ∧ inRam a = false ∧ inRegion a = false := by
  unfold inBank at h
  unfold inRam inRegion
  simp at h ⊢
  omega

section
variable (s : State) (en : Entry) {w : PortWrite} (halign : w.addr % 4 = 0) (hlane : laneOk w.be = true)
include halign hlane

theorem leave_ram (h : inRam w.addr = true) : s.leave en w = s.storeRam w.addr w.be (w.data % 2 ^ 32) := by
  rw [leave_core s en halign hlane (inRam_lt h).1]
  exact if_pos h

theorem leave_region (h : inRegion w.addr = true) : s.leave en w =
    if en = .tick ∨ en = .migrate then s.storeRegion w.addr w.be (w.data % 2 ^ 32) else s.trapNow en := by
  obtain ⟨hlow, hram, -⟩ := inRegion_lt h
  rw [leave_core s en halign hlane hlow]
  exact (if_neg (by rw [hram]; decide)).trans (if_pos h)

theorem leave_bank (h : inBank w.addr = true) : s.leave en w =
    if s.bit TRI_CFG.PM_WRITE then s.storeBank w.addr w.be (w.data % 2 ^ 32) else s.trapNow en := by
  obtain ⟨hlow, hram, hregion⟩ := inBank_lt h
  rw [leave_core s en halign hlane hlow]
  exact (if_neg (by rw [hram]; decide)).trans ((if_neg (by rw [hregion]; decide)).trans (if_pos h))

end

/-- Only a write of SLC_CTRL leaves TICK at once (R469). -/
theorem immediate_tick {off : Nat} (h : off < 0x1000000) (hne : off ≠ SLC_CTRL.STOP.base) : immediate .tick (0x40000000 + off) = false := by
  unfold immediate
  rw [deviceOffset_device h]
  simpa using hne

theorem immediate_slcCtrl (en : Entry) : immediate en (0x40000000 + SLC_CTRL.STOP.base) = true := by
  unfold immediate
  rw [deviceOffset_device (by decide)]
  simp

/-! ### A disagreement (R468, R471, R475) -/

/-- The address that the record of a second mismatch names. -/
theorem second_addr (s : State) (kind addr : Nat) : (s.secondMismatch kind addr).rd TRI_MISMATCH_LOG.ADDR = addr % 2 ^ 24 := by
  have hlog : (s.logMismatch 3 kind addr).rd TRI_MISMATCH_LOG.ADDR = addr % 2 ^ 24 := by
    unfold State.logMismatch
    simp (disch := decide) only [State.rd_wr_apart, State.rd_wr_self]
    rfl
  unfold State.secondMismatch
  dsimp only
  rw [(State.safeState_only _ SLC_TRIP_LATCH.TRIAD (by decide)).rd _ (by decide)]
  split
  · rw [foldl_keep (fun u => u.rd TRI_MISMATCH_LOG.ADDR) _ (fun u d => cmp_rd ..)]
    refine Eq.trans ?_ hlog
    exact (State.rd_wr_apart _ _ (by decide)).trans (State.rd_wr_apart _ _ (by decide))
  · exact hlog

/-! ### The restart (R476) -/

theorem exec_triRestart {s : State} (hon : s.pwr.mainOn = true) (e : Nat) :
    exec (.triRestart e) s = .next ((s.moveTo e).restartTriad .host) := next_live hon _

theorem restartTriad_refused {s : State} (h : s.rd SLC_BLOCK_STATUS.SCOPE < 2) (ag : Agent) :
    s.restartTriad ag = s.configRefused TRI_CTRL.RESTART.base (2 ^ 31) ag := if_pos (.inl h)

/-- The boot of an image keeps the mark of the restart and what waits for a swap. -/
theorem bootImage_keeps (s : State) : s.bootImage.1.pwr.restart = s.pwr.restart ∧ s.bootImage.1.tri.swapDesc = s.tri.swapDesc := by
  have hload : ∀ (u : State) (img : List Byte), (u.loadBank img).pwr = u.pwr ∧ (u.loadBank img).tri.swapDesc = u.tri.swapDesc := by
    intro u img
    unfold State.loadBank
    split <;> exact ⟨rfl, rfl⟩
  have hlead : ∀ u : State, u.moveLead.pwr = u.pwr ∧ u.moveLead.tri = u.tri := fun u =>
    ⟨(Only.moveLead (Only.refl 0x1000000000000400 u) rfl).pwr rfl, (Only.moveLead (Only.refl 0x1000000000000400 u) rfl).tri rfl⟩
  have hused : ∀ u : State, u.used.pwr = u.pwr ∧ u.used.tri = u.tri := fun _ => ⟨rfl, rfl⟩
  unfold State.bootImage State.powerEvent
  split
  · simp only [State.wr_pwr, State.wr_tri, State.post_pwr, State.post_tri, and_self]
  · next k back _ =>
    dsimp only
    generalize k + (if back = true then 2 else 0) = booted
    split <;> simp only [State.wr_pwr, State.wr_tri, State.post_pwr, State.post_tri, State.refuse_pwr, State.refuse_tri, (hlead _).1,
      (hlead _).2, (hused _).1, (hused _).2, (hload _ _).1, (hload _ _).2, and_self]

/-- A triad whose image is gone, with the mark of the restart set. -/
def State.imageDropped (u : State) : State :=
  { u with tri := { u.tri with imageOk := false, swapTick := false, revert := false }, pwr := { u.pwr with restart := true } }

/-- A restart before its boot: the tick's work dropped, the descriptors in flight ended, the stage at B2 (R476, R523). -/
def State.restartHeld (s : State) : State :=
  let u := (if s.tm.s1run then s.dropLaw else s).breakTimes
  let u := u.imageDropped.abortFlight
  if u.stage = 2 then u else ((u.wr MTR_STATUS.CAL_PENDING 1).setStage 2).showScan

theorem restartTriad_accepted {s : State} (hscope : 2 ≤ s.rd SLC_BLOCK_STATUS.SCOPE) (hstage : 2 ≤ s.stage) (ag : Agent) :
    s.restartTriad ag = if s.restartHeld.bootImage.2 then s.restartHeld.bootImage.1
      else { s.restartHeld.bootImage.1 with pwr := { s.restartHeld.bootImage.1.pwr with bootFail := true } } :=
  if_neg (by omega)

theorem restartHeld_shows (s : State) : s.restartHeld.pwr.restart = true ∧ s.restartHeld.tri.swapDesc = [] ∧
    s.restartHeld.slc.release = [] ∧ s.restartHeld.stage = 2 ∧ s.restartHeld.rd SLC_BLOCK_STATUS.SCOPE = s.rd SLC_BLOCK_STATUS.SCOPE := by
  unfold State.restartHeld
  dsimp only
  generalize hu : (if s.tm.s1run then s.dropLaw else s).breakTimes = u
  have hscope : u.rd SLC_BLOCK_STATUS.SCOPE = s.rd SLC_BLOCK_STATUS.SCOPE := by
    have hdrop : Only 0x2ee220000100000 s u := by
      rw [← hu]
      exact Only.breakTimes (Only.ite (Only.dropLaw (Only.refl _ s) rfl) (Only.refl _ s)) rfl
    exact hdrop.rd _ (by decide)
  generalize hv : u.imageDropped = v
  have habort : v.abortFlight.tri.swapDesc = [] ∧ v.abortFlight.slc.release = [] := by
    unfold State.abortFlight
    simp only [(Only.mapCells (Only.refl 0x2000000000000 _) _ rfl).tri rfl, (Only.mapCells (Only.refl 0x2000000000000 _) _ rfl).slc rfl,
      and_self]
  have hrestart : v.abortFlight.pwr.restart = true := by
    rw [(Only.abortFlight (Only.refl 0x92700000000000 v) rfl).pwr rfl, ← hv]
    rfl
  have hkeep : v.abortFlight.rd SLC_BLOCK_STATUS.SCOPE = s.rd SLC_BLOCK_STATUS.SCOPE := by
    rw [(Only.abortFlight (Only.refl 0x92700000000000 v) rfl).rd _ (by decide), ← hscope, ← hv]
    rfl
  split
  next hstage => exact ⟨hrestart, habort.1, habort.2, hstage, hkeep⟩
  next =>
    generalize v.abortFlight = w at *
    have honly : Only 0x1100100800400300 w ((w.wr MTR_STATUS.CAL_PENDING 1).setStage 2).showScan :=
      Only.showScan (Only.setStage (Only.wr (Only.refl _ w) _ _ rfl rfl) 2 rfl) rfl
    have hscan : Only 0x400000 ((w.wr MTR_STATUS.CAL_PENDING 1).setStage 2) ((w.wr MTR_STATUS.CAL_PENDING 1).setStage 2).showScan :=
      Only.showScan (Only.refl _ _) rfl
    refine ⟨by rw [honly.pwr rfl, hrestart], by rw [honly.tri rfl, habort.1], by rw [honly.slc rfl, habort.2], ?_,
      (honly.rd _ (by decide)).trans hkeep⟩
    exact (hscan.rd _ (by decide)).trans (setStage_stage _ (by decide))

/-- The state that a restart leaves (R476). -/
theorem restartTriad_shows {s : State} (hscope : 2 ≤ s.rd SLC_BLOCK_STATUS.SCOPE) (hstage : 2 ≤ s.stage) (ag : Agent) :
    let t := s.restartTriad ag
    t.pwr.restart = true ∧ t.tri.swapDesc = [] ∧ t.slc.release = [] ∧ t.stage = 2 ∧
      t.rd SLC_BLOCK_STATUS.SCOPE = s.rd SLC_BLOCK_STATUS.SCOPE := by
  have honly : Only 0x1900380000000628 s.restartHeld s.restartHeld.bootImage.1 := Only.bootImage (Only.refl _ _) rfl
  obtain ⟨hrestart, hswap⟩ := bootImage_keeps s.restartHeld
  obtain ⟨h1, h2, h3, h4, h5⟩ := restartHeld_shows s
  have hall : s.restartHeld.bootImage.1.pwr.restart = true ∧ s.restartHeld.bootImage.1.tri.swapDesc = [] ∧
      s.restartHeld.bootImage.1.slc.release = [] ∧ s.restartHeld.bootImage.1.stage = 2 ∧
      s.restartHeld.bootImage.1.rd SLC_BLOCK_STATUS.SCOPE = s.rd SLC_BLOCK_STATUS.SCOPE :=
    ⟨hrestart.trans h1, hswap.trans h2, by rw [honly.slc rfl, h3], (honly.rd _ (by decide)).trans h4, (honly.rd _ (by decide)).trans h5⟩
  dsimp only
  rw [restartTriad_accepted hscope hstage]
  split <;> exact hall

/-- Settles O11: a write on which the members agree by where it goes, a disagreement by the fencing or the second mismatch, the restart by
what it leaves. -/
theorem writeCommitAndRestart : Obligations.WriteCommitAndRestart := by
  refine ⟨fun s off be v e hon hrun hmode hoff halign hlane => ⟨_, exec_writeCommit_agreed hon _ hrun hmode, ?_⟩,
    fun s off be v e hon hrun hmode hoff hne halign hlane hroom => ⟨_, exec_writeCommit_agreed hon _ hrun hmode, ?_⟩,
    fun s en c e hon hrun hmode hpast => ?_, fun s en w e hon hrun hmode => ?_,
    fun s off be v e hon hrun hmode hoff hne halign hlane hfull => ?_,
    fun s en be v e hon hrun hmode hlane => ⟨_, exec_writeCommit_agreed hon _ hrun hmode, ?_⟩,
    fun s en x y e hon hrun hmode hne hphases => ?_, fun s en x e hon hrun hmode hfirst hphases => ?_,
    fun s en a b c e hon hidle => exec_writeCommit_idle hon a b c hidle, fun s e hon hscope => ?_,
    fun s e hon hscope hstage => ⟨_, exec_triRestart hon e, ?_⟩⟩
  · rw [leave_device _ _ hoff halign hlane]
    exact if_pos rfl
  · rw [leave_device _ _ hoff halign hlane, immediate_tick hoff hne, if_neg Bool.false_ne_true]
    unfold State.queueTb
    rw [s.moveTo_tri, if_neg (by omega)]
    exact ⟨rfl, rfl, moveTo_regs s e⟩
  · obtain ⟨h1, h2, h3, h4⟩ := fence_shown (s := s.moveTo e) (m := .c) (kind := 0) c.addr (by decide) (by rwa [s.moveTo_tri])
    refine ⟨_, exec_writeCommit_triplex hon _ _ _ hrun hmode, ?_⟩
    have hfence : (s.moveTo e).commit3 en none none (some c) = (s.moveTo e).fence 2 0 c.addr :=
      (if_neg (by simp)).trans (if_pos rfl)
    rw [hfence]
    exact ⟨h1, h2, h3, h4⟩
  · rw [exec_writeCommit_agreed hon w hrun hmode, ← moveTo_bit s e]
    exact ⟨fun h => congrArg _ (leave_trap _ _ h), fun h1 h2 h3 => congrArg _ (leave_ram _ _ h1 h2 h3),
      fun h1 h2 h3 => congrArg _ (leave_region _ _ h1 h2 h3), fun h1 h2 h3 => congrArg _ (leave_bank _ _ h1 h2 h3)⟩
  · rw [exec_writeCommit_agreed hon _ hrun hmode, leave_device _ _ hoff halign hlane, immediate_tick hoff hne, if_neg Bool.false_ne_true]
    exact congrArg _ (if_pos (by rwa [s.moveTo_tri]))
  · rw [leave_device _ _ (by decide) (by decide) hlane, immediate_slcCtrl, if_pos rfl]
  · have hfit : PhasesFit (s.moveTo e).used := (rd_moveTo s e SLC_BLOCK_STATUS.PHASES).trans_lt hphases
    obtain ⟨h1, h2, h3, h4⟩ := second_shown hfit (kind := 0) (by decide) ((s.moveTo e).freeVal 9 % 2 ^ 32)
    refine ⟨_, exec_writeCommit_triplex hon _ _ _ hrun hmode, ?_⟩
    have hsplit : (s.moveTo e).commit3 en (some x) (some y) none = (s.moveTo e).used.secondMismatch 0 ((s.moveTo e).freeVal 9 % 2 ^ 32) :=
      (if_neg (by simp)).trans ((if_neg (by simpa using hne)).trans ((if_neg (by simp)).trans (if_neg (by simp))))
    rw [hsplit]
    exact ⟨h1, h2, h3, h4⟩
  · have hfit : PhasesFit (s.moveTo e) := (rd_moveTo s e SLC_BLOCK_STATUS.PHASES).trans_lt hphases
    obtain ⟨h1, h2, h3, -⟩ := second_shown hfit (kind := 0) (by decide) x.addr
    refine ⟨_, exec_writeCommit_duplex hon _ _ _ hrun hmode hfirst, ?_⟩
    have hsplit : (s.moveTo e).commit2 en (some x) none = (s.moveTo e).secondMismatch 0 x.addr := if_neg (by simp)
    rw [hsplit]
    exact ⟨h1, h2, h3, second_addr ..⟩
  · refine ⟨_, exec_triRestart hon e, ?_⟩
    rw [restartTriad_refused ((rd_moveTo s e _).trans_lt hscope), State.configRefused_tri, State.configRefused_pwr, s.moveTo_tri, s.moveTo_pwr]
    refine ⟨rfl, rfl, ?_⟩
    have hseq := State.configRefused_seqNo (s.moveTo e) TRI_CTRL.RESTART.base (2 ^ 31) .host
    rwa [s.moveTo_hst] at hseq
  · have h := restartTriad_shows (s := s.moveTo e) (by rwa [rd_moveTo]) (by rwa [moveTo_stage]) .host
    rwa [rd_moveTo] at h

end Sys2Proof.Machine
end

section
/-! PROOFS. The debugger (13_control_triad.md R465, R478, R479): the halt, the resume, the single step and the write: O49. -/
namespace Sys2Proof.Machine
open Reg

/-! ### The halt and the single step -/

theorem debugOpen_iff (s : State) : s.debugOpen = true ↔ s.rd LC_STATE.STATE = 1 ∨ s.rd LC_STATE.STATE = 2 := by
  unfold State.debugOpen
  simp

theorem halt_idle {s : State} (h : ¬(s.rd LC_STATE.STATE = 1 ∨ s.rd LC_STATE.STATE = 2) ∨ s.bit TRI_STATUS.DBG_HALT = true) : s.halt = s := by
  rw [← debugOpen_iff] at h
  exact if_pos (by simpa using h)

/-- A halt before the registers of the cores are free. -/
def State.haltMarked (s : State) : State :=
  let u := ((s.wr TRI_STATUS.DBG_HALT 1).wr SLC_BLOCK_STATUS.DBG_HALT 1).breakTimes
  { u with tri := { u.tri with haltTicks := 0, dropTick := u.tri.dropTick || u.tm.s1run } }

theorem halt_taken {s : State} (hlife : s.rd LC_STATE.STATE = 1 ∨ s.rd LC_STATE.STATE = 2) (hrun : s.bit TRI_STATUS.DBG_HALT = false) :
    s.halt = s.haltMarked.freeCore :=
  if_neg (by simp [(debugOpen_iff s).2 hlife, hrun])

theorem halted_shows (s : State) : s.haltMarked.freeCore.rd TRI_STATUS.DBG_HALT = 1 ∧ s.haltMarked.freeCore.rd SLC_BLOCK_STATUS.DBG_HALT = 1 ∧
    s.haltMarked.freeCore.tri.haltTicks = 0 ∧ s.haltMarked.freeCore.tri.dropTick = (s.tri.dropTick || s.tm.s1run) ∧
    s.haltMarked.freeCore.rd FRT_STATUS.ENTER_OK = 0 := by
  have hregs (f : Fld) : s.haltMarked.freeCore.rd f =
      (((s.wr TRI_STATUS.DBG_HALT 1).wr SLC_BLOCK_STATUS.DBG_HALT 1).wr FRT_STATUS.ENTER_OK 0).rd f := rdi_of_regs rfl f 0
  refine ⟨(hregs _).trans ?_, (hregs _).trans ?_, rfl, rfl, (hregs _).trans ?_⟩ <;>
    simp (disch := decide) only [State.rd_wr_self, State.rd_wr_apart] <;> rfl

theorem exec_debugHalt {s : State} (hon : s.pwr.mainOn = true) {i : Instr} (h : i = .debugHalt ∨ i = .debugBreakpoint) :
    exec i s = .next s.halt := by
  rcases h with rfl | rfl <;> exact next_live hon _

theorem exec_debugSingleStep_idle {s : State} (h : ¬(s.pwr.mainOn = true ∧ s.debugOpen = true ∧ s.bit TRI_STATUS.DBG_HALT = true)) :
    exec .debugSingleStep s = .next s := by
  by_cases hon : s.pwr.mainOn = true
  · exact (next_live hon _).trans (congrArg _ (if_neg fun hopen => h ⟨hon, hopen⟩))
  · exact congrArg Host.Outcome.next (if_neg hon)

/-! ### Where a write of the debugger goes (R465, R478) -/

section
variable {s : State} (hon : s.pwr.mainOn = true) (e : Nat)
include hon

theorem exec_debugWrite (w : PortWrite) : exec (.debugWrite w e) s = .next
    (if !(s.moveTo e).admits .debugger || w.addr % 4 != 0 then s.moveTo e
     else match deviceOffset w.addr with
       | some off => (s.moveTo e).regWrite .debugger off w.be w.data
       | none => (s.moveTo e).debugStore w.addr w.be (w.data % 2 ^ 32)) := next_live hon _

theorem exec_debugWrite_admitted {w : PortWrite} (hopen : s.debugOpen = true) (hlead : s.running (s.rd TRI_CFG.LEAD) = true)
    (halign : w.addr % 4 = 0) : exec (.debugWrite w e) s = .next
    (match deviceOffset w.addr with
       | some off => (s.moveTo e).regWrite .debugger off w.be w.data
       | none => (s.moveTo e).debugStore w.addr w.be (w.data % 2 ^ 32)) := by
  have hadmit : (s.moveTo e).admits .debugger = true := by
    unfold State.admits State.debugOpen
    rw [rd_moveTo, rd_moveTo, moveTo_running, hlead, ← State.debugOpen, hopen]
    rfl
  rw [exec_debugWrite hon, hadmit, halign]
  rfl

theorem exec_debugWrite_shut {w : PortWrite} (h : s.debugOpen = false ∨ s.running (s.rd TRI_CFG.LEAD) = false ∨ w.addr % 4 ≠ 0) :
    exec (.debugWrite w e) s = .next (s.moveTo e) := by
  rw [exec_debugWrite hon, if_pos]
  unfold State.admits State.debugOpen
  rw [rd_moveTo, rd_moveTo, moveTo_running, ← State.debugOpen]
  rcases h with h | h | h <;> simp [h]

/-- A write outside the device registers reaches the members. -/
theorem exec_debugWrite_core {w : PortWrite} (hopen : s.debugOpen = true) (hlead : s.running (s.rd TRI_CFG.LEAD) = true)
    (halign : w.addr % 4 = 0) (hdev : w.addr < 0x40000000 ∨ 0x41000000 ≤ w.addr) :
    exec (.debugWrite w e) s = .next ((s.moveTo e).debugStore w.addr w.be (w.data % 2 ^ 32)) := by
  have hnone : deviceOffset w.addr = none := if_neg (by omega)
  rw [exec_debugWrite_admitted hon e hopen hlead halign, hnone]

end

theorem debugStore_ram (s : State) {a : Nat} (be v : Nat) (h : inRam a = true) : s.debugStore a be v = s.storeRam a be v := by
  obtain ⟨hlow, hbank⟩ := inRam_lt h
  unfold State.debugStore
  rw [if_neg (by omega), hbank, if_neg Bool.false_ne_true, if_pos h]

theorem debugStore_region (s : State) {a : Nat} (be v : Nat) (h : inRegion a = true) : s.debugStore a be v = s.storeRegion a be v := by
  obtain ⟨hlow, hram, hbank⟩ := inRegion_lt h
  unfold State.debugStore
  rw [if_neg (by omega), hbank, if_neg Bool.false_ne_true, hram, if_neg Bool.false_ne_true, if_pos h]

theorem debugStore_coreReg (s : State) (k be v : Nat) : s.debugStore (2 ^ 32 + 4 * k) be v = s.setCoreReg k v := by
  unfold State.debugStore
  rw [if_pos (by omega), Nat.add_sub_cancel_left, Nat.mul_div_cancel_left _ (by decide)]

/-! ### The bytes of a store -/

/-- Byte `i` of a stored word: the value's where its lane is enabled, and the memory's elsewhere. -/
theorem tget_memStore_byte (m : Tab Byte) (a x j : Nat) :
    tget (fun _ => 0) (memStore m a (leBytes 1 x)) j = if j = a then BitVec.ofNat 8 (x % 256) else tget (fun _ => 0) m j := by
  simp only [leBytes, memStore]
  split
  next h => rw [h, tget_tput_self]
  next h => exact tget_tput_ne _ _ _ (Ne.symm h)

/-- What a store of the first `n` lanes leaves at each address. -/
theorem tget_lanes (m : Tab Byte) (a be v n j : Nat) :
    tget (fun _ => 0) ((List.range n).foldl
      (fun (m : Tab Byte) i => if bitOf be i then memStore m (a + i) (leBytes 1 (bits v (8 * i) 8)) else m) m) j =
      if a ≤ j ∧ j < a + n ∧ bitOf be (j - a) then BitVec.ofNat 8 (bits v (8 * (j - a)) 8) else tget (fun _ => 0) m j := by
  induction n with
  | zero => exact (if_neg (by omega)).symm
  | succ n ih =>
    rw [List.range_succ, List.foldl_append]
    simp only [List.foldl_cons, List.foldl_nil]
    have hbyte : bits v (8 * n) 8 % 256 = bits v (8 * n) 8 := by unfold bits; omega
    by_cases hj : j = a + n
    · subst hj
      rw [Nat.add_sub_cancel_left] at ih ⊢
      split
      next h => rw [tget_memStore_byte, if_pos rfl, hbyte, if_pos ⟨by omega, by omega, h⟩]
      next h => rw [ih, if_neg (by omega), if_neg (by simp [h])]
    · have hsame : (a ≤ j ∧ j < a + (n + 1) ∧ bitOf be (j - a) = true) ↔ (a ≤ j ∧ j < a + n ∧ bitOf be (j - a) = true) := by
        constructor <;> rintro ⟨h1, h2, h3⟩ <;> exact ⟨h1, by omega, h3⟩
      rw [if_congr hsame rfl rfl, ← ih]
      split
      · rw [tget_memStore_byte, if_neg hj]
      · rfl

/-- A store of a word changes its four enabled bytes. -/
theorem tget_storeLanes (m : Tab Byte) (a be v j : Nat) : tget (fun _ => 0) (storeLanes m a be v) j =
    if a ≤ j ∧ j < a + 4 ∧ bitOf be (j - a) then BitVec.ofNat 8 (bits v (8 * (j - a)) 8) else tget (fun _ => 0) m j :=
  tget_lanes m a be v 4 j

/-- The bytes of a word lie below its 32 bits. -/
theorem bits_byte_mod {i : Nat} (v : Nat) (h : i < 4) : bits (v % 2 ^ 32) (8 * i) 8 = bits v (8 * i) 8 := by
  unfold bits
  interval_cases i <;> omega

/-! ### The registers of the cores (R460, log entry 128) -/

theorem getD_set_ne {α : Type} (l : List α) {i j : Nat} (x d : α) (h : i ≠ j) : (l.set i x).getD j d = l.getD j d := by
  simp [List.getD, List.getElem?_set_ne h]

/-- The half of an accumulator that a write leaves. -/
theorem half_put (x v : Nat) (hv : v < 2 ^ 32) : bits (x / 2 ^ 32 * 2 ^ 32 + v) 32 32 = bits x 32 32 ∧
    bits (v * 2 ^ 32 + x % 2 ^ 32) 0 32 = bits x 0 32 := by
  unfold bits
  omega

/-- The other half of an accumulator stays. -/
theorem acc_put_half (l : List Nat) (k v n p : Nat) (hv : v < 2 ^ 32) (hn : n < 2) (hp : p < 2) (h : p ≠ n) :
    bits ((l.set k (if n = 0 then l.getD k 0 / 2 ^ 32 * 2 ^ 32 + v else v * 2 ^ 32 + l.getD k 0 % 2 ^ 32)).getD k 0) (32 * p) 32 =
      bits (l.getD k 0) (32 * p) 32 := by
  obtain ⟨hhigh, hlow⟩ := half_put (l.getD k 0) v hv
  by_cases hk : k < l.length
  · have hset (x : Nat) : (l.set k x).getD k 0 = x := by simp [List.getD, hk]
    rw [hset]
    split
    next hn0 =>
      obtain rfl : p = 1 := by omega
      exact hhigh
    next =>
      obtain rfl : p = 0 := by omega
      exact hlow
  · rw [List.set_eq_of_length_le (by omega)]

/-- A write of one register of a core leaves the others. -/
theorem CoreBank.get_put_ne (b : CoreBank) {i j v : Nat} (hv : v < 2 ^ 32) (h : j ≠ i) : (b.put i v).get j = b.get j := by
  unfold CoreBank.put
  split
  · rfl
  split
  · unfold CoreBank.get
    rw [getD_set_ne _ _ _ (Ne.symm h)]
  split
  · unfold CoreBank.get
    dsimp only
    split
    · rfl
    split
    · by_cases hacc : (i - 32) / 2 = (j - 32) / 2
      · rw [hacc]
        exact acc_put_half _ _ _ _ _ hv (by omega) (by omega) (by omega)
      · rw [getD_set_ne _ _ _ hacc]
    · rfl
  split
  next hi =>
    unfold CoreBank.get
    rw [if_neg (by omega : j ≠ 40), if_neg (by omega : j ≠ 40)]
  split
  next hi =>
    unfold CoreBank.get
    rw [if_neg (by omega : j ≠ 41), if_neg (by omega : j ≠ 41)]
  · rfl

/-- A write of one register of the banks leaves the others of both. -/
theorem setCoreReg_other (s : State) {j k v : Nat} (hv : v < 2 ^ 32) (hj : j < 128) (hk : k < 128) (h : j ≠ k) :
    (s.setCoreReg k v).coreReg j = s.coreReg j := by
  unfold State.setCoreReg
  by_cases htick : k < 64
  · rw [if_pos htick]
    unfold State.coreReg
    split
    · exact CoreBank.get_put_ne _ hv h
    · rfl
  · rw [if_neg htick, if_pos hk]
    unfold State.coreReg
    split
    · rfl
    · exact CoreBank.get_put_ne _ hv (by omega)

theorem setCoreReg_keeps (s : State) (k v : Nat) : (s.setCoreReg k v).regs = s.regs ∧ (s.setCoreReg k v).tri.ram = s.tri.ram := by
  unfold State.setCoreReg
  split
  · exact ⟨rfl, rfl⟩
  · split <;> exact ⟨rfl, rfl⟩

/-- Settles O49: the halt and the step by what they free, a write by the part of the map that it falls in. -/
theorem debugAccessCommands : Obligations.DebugAccessCommands := by
  refine ⟨fun s i hi hon => ?_, fun s hon => ?_, fun s => ⟨fun hon hopen hhalt => ?_, exec_debugSingleStep_idle⟩,
    fun s off v be e hon hopen hlead halign hoff => ?_, fun s w e hon hshut => exec_debugWrite_shut hon e hshut,
    fun s a v be e hon hopen hlead halign hram => ?_, fun s a v be e hon hopen hlead halign hregion => ?_,
    fun s k v be e hon hopen hlead hk => ?_⟩
  · rw [exec_debugHalt hon hi]
    exact ⟨fun hlife hrun => ⟨_, congrArg _ (halt_taken hlife hrun), halted_shows s⟩, fun h => congrArg _ (halt_idle h)⟩
  · refine ⟨fun hhalt => ⟨_, (next_live hon _).trans (congrArg _ (if_pos hhalt)), ?_⟩,
      fun hrun => (next_live hon _).trans (congrArg _ (if_neg (by rw [hrun]; decide)))⟩
    simp (disch := decide) only [State.rd_wr_self, State.rd_wr_apart]
    exact ⟨rfl, rfl, rfl, trivial⟩
  · refine ⟨_, (next_live hon _).trans (congrArg _ (if_pos ⟨hopen, hhalt⟩)), rfl, rfl, rfl, rfl, rfl, rfl⟩
  · rw [exec_debugWrite_admitted hon e hopen hlead (by dsimp only; omega)]
    dsimp only
    rw [deviceOffset_device hoff]
  · refine ⟨_, (exec_debugWrite_core hon e hopen hlead halign (.inl (inRam_lt hram).1)).trans (congrArg _ (debugStore_ram _ _ _ hram)),
      moveTo_regs s e, ?_, ?_, fun i hi => ?_, fun j hj => ?_⟩
    · exact (congrArg TriSt.bank0 (s.moveTo_tri e) :)
    · exact (congrArg TriSt.bank1 (s.moveTo_tri e) :)
    · unfold State.storeRam
      dsimp only
      rw [tget_storeLanes, Nat.add_sub_cancel_left, bits_byte_mod v hi, s.moveTo_tri]
      exact if_congr (by simp; omega) rfl rfl
    · unfold State.storeRam
      dsimp only
      rw [tget_storeLanes, if_neg (by omega), s.moveTo_tri]
  · rw [exec_debugWrite_core hon e hopen hlead halign (.inl (inRegion_lt hregion).1), debugStore_region _ _ _ hregion]
  · refine ⟨_, (exec_debugWrite_core hon e hopen hlead (by dsimp only; omega) (.inr (by dsimp only; omega))).trans
      (congrArg _ (debugStore_coreReg _ _ _ _)), ?_, ?_, fun j hj hne => ?_⟩
    · rw [(setCoreReg_keeps _ _ _).1, moveTo_regs]
    · rw [(setCoreReg_keeps _ _ _).2, s.moveTo_tri]
    · rw [setCoreReg_other _ (Nat.mod_lt _ (by decide)) hj hk hne]
      unfold State.coreReg
      rw [s.moveTo_tri]

end Sys2Proof.Machine
end

section
/-! PROOFS. The firmware's staging and swap (13_control_triad.md R480 to R484, R506): O50. -/
namespace Sys2Proof.Machine
open Reg

/-! ### The descriptors -/

section
variable {s u : State} {h : DescHdr} {d : Desc} (hon : s.pwr.mainOn = true) (htype : s.rdi RING_CFG_n.TYPE h.ring = 0)
include hon htype

theorem exec_fwStage (hgo : s.startDesc h 0x08 = .go d u) (off len a : Nat) (last df : Bool) :
    exec (.fwStage h off len last df a) s = .next (if 131072 < off + len then u.complete d 4 0 []
      else if len = 0 then (u.wr TRI_FW_STATUS.STAGING 1).staged d off last df []
      else (u.wr TRI_FW_STATUS.STAGING 1).access (.fwStage d off len last df a)) :=
  (next_live hon _).trans (congrArg _ (run_go _ hgo (by decide) htype))

theorem exec_fwSwap (hgo : s.startDesc h 0x09 = .go d u) : exec (.fwSwap h) s = .next
    (if u.rd TRI_FW_STATUS.STAGED = 0 ∨ u.bit TRI_STATUS.DBG_HALT then (u.wr TRI_FW_STATUS.RESULT 5).complete d 2 0 []
      else if u.s1Window < imgTickCycles u.shadowImage + imgMigrateCycles u.shadowImage then (u.wr TRI_FW_STATUS.RESULT 6).complete d 0x0B 0 []
      else ({ (if u.bit TRI_FW_STATUS.PENDING then u else u.askAt TRI_FW_STATUS.PENDING.base) with
        tri := { (if u.bit TRI_FW_STATUS.PENDING then u else u.askAt TRI_FW_STATUS.PENDING.base).tri with
          swapDesc := (if u.bit TRI_FW_STATUS.PENDING then u else u.askAt TRI_FW_STATUS.PENDING.base).tri.swapDesc ++ [d] } }).wr
            TRI_FW_STATUS.PENDING 1) :=
  (next_live hon _).trans (congrArg _ (run_go _ hgo (by decide) htype))

end

/-- An empty part that is not the last leaves nothing staged and ends its descriptor. -/
theorem staged_empty (s : State) (d : Desc) (off : Nat) (df : Bool) (he : d.epoch = s.hst.epoch) :
    (s.staged d off false df []).rd TRI_FW_STATUS.STAGED = 0 ∧ (s.staged d off false df []).rd TRI_FW_VER_SHADOW.VERSION = 0 ∧
    ∃ x ∈ (s.staged d off false df []).hst.comps, x.status = 0 ∧ x.tag = d.tag := by
  unfold State.staged
  dsimp only
  rw [if_pos (by decide), cmp_rd, cmp_rd]
  refine ⟨?_, ?_, desc_end _ _ _ _ _ _ rfl ?_⟩
  · unfold State.unstage
    simp (disch := decide) only [State.rd_wr_self, State.rd_wr_apart]
    rfl
  · unfold State.unstage
    simp (disch := decide) only [State.rd_wr_self, State.rd_wr_apart]
    rfl
  · unfold State.unstage
    split <;> exact he

/-! ### The swap and its revert -/

/-- Every descriptor of a list ends with one status. -/
theorem completes_end (ds : List Desc) (status : Nat) (s : State) : ∀ d ∈ ds, d.epoch = s.hst.epoch →
    ∃ x ∈ (ds.foldl (fun s d => s.complete d status 0 []) s).hst.comps, x.status = status ∧ x.tag = d.tag := by
  have hkeep (ds : List Desc) (s : State) : ∀ x ∈ s.hst.comps, x ∈ (ds.foldl (fun s d => s.complete d status 0 []) s).hst.comps := by
    induction ds generalizing s with
    | nil => exact fun x hx => hx
    | cons d ds ih =>
      intro x hx
      refine ih _ x ?_
      dsimp only
      unfold State.complete
      split
      · exact hx
      · exact List.mem_append_left _ hx
  induction ds generalizing s with
  | nil => exact fun d hd => absurd hd List.not_mem_nil
  | cons d ds ih =>
    intro d' hd' hepoch
    rcases List.mem_cons.1 hd' with rfl | hd'
    · obtain ⟨x, hx, hstatus, htag⟩ := desc_end s d' status 0 [] _ rfl hepoch
      exact ⟨x, hkeep ds _ x hx, hstatus, htag⟩
    · exact ih _ d' hd' (hepoch.trans (State.complete_epoch ..).symm)

theorem flipBanks_shows {s : State} (hactive : s.rd TRI_FW_VER_ACTIVE.VERSION < 2 ^ 32) (hshadow : s.rd TRI_FW_VER_SHADOW.VERSION < 2 ^ 32) :
    s.flipBanks.rd TRI_FW_VER_ACTIVE.VERSION = s.rd TRI_FW_VER_SHADOW.VERSION ∧
    s.flipBanks.rd TRI_FW_VER_SHADOW.VERSION = s.rd TRI_FW_VER_ACTIVE.VERSION := by
  unfold State.flipBanks
  simp (disch := decide) only [State.rd_wr_self, State.rd_wr_apart]
  exact ⟨Nat.mod_eq_of_lt hshadow, Nat.mod_eq_of_lt hactive⟩

theorem flipBanks_active (s : State) : s.flipBanks.rd TRI_STATUS.ACTIVE_BANK = (1 - s.rd TRI_STATUS.ACTIVE_BANK) % 2 := by
  unfold State.flipBanks
  simp (disch := decide) only [State.rd_wr_self, State.rd_wr_apart]
  rfl

/-- The state of a revert before it ends its descriptors. -/
def State.flippedBack (s : State) : State :=
  let u := { s with tri := { s.tri with revert := false, swapDesc := [] } }
  (u.flipBanks.wr TRI_FW_STATUS.RESULT 4).triadEvent 5 3 0 (u.rd TRI_FW_VER_SHADOW.VERSION) 0

theorem exec_fwSwapRevert {s : State} (hon : s.pwr.mainOn = true) (hrevert : s.tri.revert = true) (hphase : s.tm.phase = 0) :
    exec .fwSwapRevert s = .next (s.tri.swapDesc.foldl (fun s d => s.complete d 0x0A 0 []) s.flippedBack)  :=
  (next_live hon _).trans (congrArg _ (if_pos ⟨hrevert, hphase⟩))

theorem flippedBack_shows (s : State) : s.flippedBack.rd TRI_STATUS.ACTIVE_BANK = (1 - s.rd TRI_STATUS.ACTIVE_BANK) % 2 ∧
    s.flippedBack.rd TRI_FW_STATUS.RESULT = 4 ∧ s.flippedBack.tri.revert = false ∧ s.flippedBack.tri.swapDesc = [] ∧
    s.hst.seqNo < s.flippedBack.hst.seqNo ∧ s.flippedBack.hst.epoch = s.hst.epoch := by
  unfold State.flippedBack
  dsimp only
  generalize hu : ({ s with tri := { s.tri with revert := false, swapDesc := [] } } : State) = u
  have hregs (f : Fld) : u.rd f = s.rd f := by
    rw [← hu]
    rfl
  generalize hv : u.flipBanks.wr TRI_FW_STATUS.RESULT 4 = v
  have hhst : v.hst = s.hst := by
    rw [← hv, ← hu]
    rfl
  have htri : v.tri.revert = false ∧ v.tri.swapDesc = [] := by
    rw [← hv, ← hu]
    exact ⟨rfl, rfl⟩
  have hpost := triadEvent_only v 5 3 0 (u.rd TRI_FW_VER_SHADOW.VERSION) 0
  refine ⟨?_, ?_, by rw [hpost.tri rfl, htri.1], by rw [hpost.tri rfl, htri.2], ?_, ?_⟩
  · rw [hpost.rd _ (by decide), ← hv, State.rd_wr_apart _ _ (by decide), flipBanks_active, hregs]
  · rw [hpost.rd _ (by decide), ← hv, State.rd_wr_self _ _ (by decide)]
    rfl
  · rw [← hhst]
    exact State.post_seqNo ..
  · exact (State.post_kept ..).epoch.trans (congrArg HostSt.epoch hhst)

/-- Settles O50: a stage and a swap by the checks of their descriptor, the swap tick and the revert by the flip of the banks. -/
theorem firmwareStageAndSwapCommands : Obligations.FirmwareStageAndSwapCommands := by
  refine ⟨fun s u h d off len a last df hon hgo htype => ?_, fun s u h d hon hgo htype => ?_,
    fun s hon hpending h4 h5 hrejoined hdue hactive hshadow => ?_, fun s hon hrevert hphase => ?_⟩
  · obtain ⟨honly, hepoch, -, htag, -⟩ := start_only hgo
    refine ⟨_, exec_fwStage hon htype hgo off len a last df, fun hlong => ?_, fun hempty hoff hlast => ?_, fun hfit hpos hrange hen hcold => ?_⟩
    · rw [if_pos hlong]
      exact ⟨cmp_regs .., desc_end _ _ _ _ _ _ htag hepoch⟩
    · rw [if_neg (by omega), if_pos hempty, hlast, ← htag]
      exact staged_empty _ d off df hepoch
    · rw [if_neg (by omega), if_neg (by omega)]
      have hwalk : (u.wr TRI_FW_STATUS.STAGING 1).bit HOST_WALK_ROOT_LO.EN = true := by
        rw [← hen]
        unfold State.bit
        rw [State.rd_wr_apart _ _ (by decide)]
        exact congrArg (· == 1) (start_rdi hgo _ 0 (by decide) (by decide) (by decide))
      obtain ⟨p, ps, -, hjobs, hregs, -⟩ := access_job (u.wr TRI_FW_STATUS.STAGING 1) (.fwStage d off len last df a) a len rfl hpos hrange hwalk hcold
      refine ⟨(rdi_of_regs hregs _ 0).trans ?_, (rdi_of_regs hregs _ 0).trans ?_, _, by rw [hjobs]; exact List.mem_append_right _ (List.mem_singleton.2 rfl), rfl, rfl⟩
      · exact State.rd_wr_self _ _ (by decide)
      · exact (State.rd_wr_apart _ _ (by decide)).trans (start_rdi hgo _ 0 (by decide) (by decide) (by decide))
  · obtain ⟨honly, hepoch, -, htag, -⟩ := start_only hgo
    have hstaged : u.rd TRI_FW_STATUS.STAGED = s.rd TRI_FW_STATUS.STAGED := start_rdi hgo _ 0 (by decide) (by decide) (by decide)
    have hhalt : u.bit TRI_STATUS.DBG_HALT = s.bit TRI_STATUS.DBG_HALT  := by
      unfold State.bit
      exact congrArg (· == 1) (start_rdi hgo _ 0 (by decide) (by decide) (by decide))
    refine ⟨_, exec_fwSwap hon htype hgo, fun hidle => ?_, fun hready hrun hlong => ?_, fun hready hrun hfit => ?_⟩
    · rw [if_pos (by rwa [hstaged, hhalt])]
      exact ⟨(cmp_rd ..).trans (State.rd_wr_self _ _ (by decide)), desc_end _ _ _ _ _ _ htag hepoch⟩
    · rw [if_neg (by rw [hstaged, hhalt, hrun]; simpa using hready), if_pos hlong]
      exact ⟨(cmp_rd ..).trans (State.rd_wr_self _ _ (by decide)), desc_end _ _ _ _ _ _ htag hepoch⟩
    · rw [if_neg (by rw [hstaged, hhalt, hrun]; simpa using hready), if_neg (by omega)]
      refine ⟨State.rd_wr_self _ _ (by decide), ?_⟩
      have htri : (if u.bit TRI_FW_STATUS.PENDING then u else u.askAt TRI_FW_STATUS.PENDING.base).tri = s.tri := by
        rw [← honly.tri rfl]
        split <;> rfl
      rw [htri]
      rfl
  · refine ⟨_, (next_live hon _).trans (congrArg _ (if_pos ⟨hpending, h4, h5, by rw [hrejoined]; rfl, hdue⟩)), ?_⟩
    have honly : Only 0x800200000000000 (s.flipBanks.wr TRI_FW_STATUS.PENDING 0) (s.flipBanks.wr TRI_FW_STATUS.PENDING 0).dropBackground :=
      Only.dropBackground (Only.refl _ _) rfl
    obtain ⟨h1, h2⟩ := flipBanks_shows hactive hshadow
    refine ⟨(honly.rd _ (by decide)).trans ?_, (honly.rd _ (by decide)).trans ?_, (honly.rd _ (by decide)).trans ?_,
      (honly.rd _ (by decide)).trans ?_, rfl⟩
    · exact (State.rd_wr_apart _ _ (by decide)).trans (flipBanks_active s)
    · exact (State.rd_wr_apart _ _ (by decide)).trans h1
    · exact (State.rd_wr_apart _ _ (by decide)).trans h2
    · exact State.rd_wr_self _ _ (by decide)
  · obtain ⟨h1, h2, h3, h4, h5, h6⟩ := flippedBack_shows s
    have hregs (f : Fld) : (s.tri.swapDesc.foldl (fun s d => s.complete d 0x0A 0 []) s.flippedBack).rd f = s.flippedBack.rd f :=
      foldl_keep (fun u => u.rd f) _ (fun u d => cmp_rd ..) _ _
    have htri : (s.tri.swapDesc.foldl (fun s d => s.complete d 0x0A 0 []) s.flippedBack).tri = s.flippedBack.tri :=
      foldl_keep State.tri _ (fun u d => State.complete_tri ..) _ _
    refine ⟨_, exec_fwSwapRevert hon hrevert hphase, (hregs _).trans h1, (hregs _).trans h2, by rw [htri, h3], by rw [htri, h4], ?_,
      fun d hd hepoch => completes_end _ _ _ d hd (hepoch.trans h6.symm)⟩
    rw [State.completes_seqNo _ _ _ (fun u d => State.complete_seqNo ..)]
    exact h5

end Sys2Proof.Machine
end

section
/-! PROOFS. Safe messages (12_safety.md R432 to R436): O12. -/
namespace Sys2Proof.Machine
open Reg

/-! ### What a frame does on arrival (R432, R435) -/

section
variable {s : State} (hon : s.pwr.mainOn = true) (net : Fin 2) {m : EthFrame} (e : Nat)
include hon

theorem exec_safeMessageRx : exec (.safeMessageRx net m e) s = .next
    (if s.bit SAFE_NET_CFG.EN && m.dst == s.macDev && m.etherType == 0x88B5 && m.fcs == ethFcs m then (s.moveTo e).pduIn net.val m.pdu
     else s.moveTo e) := by
  rw [show exec (.safeMessageRx net m e) s = _ from next_live hon _]
  dsimp only
  unfold State.macDev
  rw [moveTo_bit, rd_moveTo, rd_moveTo]

/-- A frame for the device with a good check sequence goes to the engine. -/
theorem exec_safeMessageRx_in (hen : s.bit SAFE_NET_CFG.EN = true) (hdst : m.dst = s.macDev) (htype : m.etherType = 0x88B5)
    (hfcs : m.fcs = ethFcs m) : exec (.safeMessageRx net m e) s = .next ((s.moveTo e).pduIn net.val m.pdu) := by
  rw [exec_safeMessageRx hon, if_pos (by simp [hen, hdst, htype, ← hfcs])]

theorem exec_safeMessageRx_dropped (h : s.bit SAFE_NET_CFG.EN = false ∨ m.dst ≠ s.macDev ∨ m.etherType ≠ 0x88B5 ∨ m.fcs ≠ ethFcs m) :
    exec (.safeMessageRx net m e) s = .next (s.moveTo e) := by
  rw [exec_safeMessageRx hon, if_neg]
  rcases h with h | h | h | h <;> simp [h]

end

theorem pduFits_moveTo (s : State) (e : Nat) (m : Pdu) : (s.moveTo e).pduFits m = s.pduFits m := by
  unfold State.pduFits
  rw [rd_moveTo]

/-! ### The copies of a message (R435) -/

section
variable {s : State} {net : Nat} {m : Pdu}

theorem pduIn_bad (h : s.pduFits m = false) : s.pduIn net m = s.netBad net := if_pos (by rw [h]; rfl)

theorem pduIn_second {n0 t0 : Nat} {m0 : Pdu} (hfits : s.pduFits m = true) (hfirst : s.saf.first = some (n0, t0, m0)) (hnet : n0 ≠ net)
    (hseq : m.seqNo = m0.seqNo) : s.pduIn net m = s.secondCopy net m m0 := by
  unfold State.pduIn
  rw [if_neg (by simp [hfits]), hfirst]
  exact if_pos ⟨hnet, hseq⟩

theorem pduIn_late (hfits : s.pduFits m = true) (hfirst : s.saf.first = none) (hseq : m.seqNo = s.saf.lastSeq) (hany : s.saf.anySeq = false)
    (hseen : bitOf s.saf.seen net = false) : s.pduIn net m = s.lateCopy net m := by
  unfold State.pduIn
  rw [if_neg (by simp [hfits]), hfirst]
  exact if_pos ⟨hseq, by rw [hany]; rfl, by rw [hseen]; rfl⟩

theorem pduIn_first (hfits : s.pduFits m = true) (hfirst : s.saf.first = none) (hnew : m.seqNo ≠ s.saf.lastSeq)
    (hnext : m.seqNo = (s.saf.lastSeq + 1) % 2 ^ 32) : s.pduIn net m = s.firstCopy net m := by
  unfold State.pduIn
  rw [if_neg (by simp [hfits]), hfirst]
  exact (if_neg fun h => hnew h.1).trans (if_pos (.inl hnext))

end

/-- A network's state is shown in its own bit, and recorded when it changes. -/
theorem setNet_keeps (s : State) (net : Nat) (up : Bool) {f : Fld} (hregs : fr 0x1100100000000200 f = true)
    (ha : apart SAFE_NET_STATUS.UP_A f = true) (hb : apart SAFE_NET_STATUS.UP_B f = true) : (s.setNet net up).rd f = s.rd f := by
  unfold State.setNet
  dsimp only
  generalize hshown : (if net = 0 then SAFE_NET_STATUS.UP_A else SAFE_NET_STATUS.UP_B) = g
  have hg : apart g f = true := by
    rw [← hshown]
    split
    · exact ha
    · exact hb
  split
  · rfl
  · exact ((State.post_only _ _ _).rd _ hregs).trans (State.rd_wr_apart _ _ hg)

theorem setNet_saf (s : State) (net : Nat) (up : Bool) : (s.setNet net up).saf = s.saf :=
  (Only.setNet (Only.refl 0x1100100400000200 s) net up rfl).saf rfl

theorem setNet_sp (s : State) (net : Nat) (up : Bool) : (s.setNet net up).sp = s.sp :=
  (Only.setNet (Only.refl 0x1100100400000200 s) net up rfl).sp rfl

/-- A valid copy changes the runs of its network alone among what the engine keeps. -/
theorem netGood_saf (s : State) (net : Nat) :
    (s.netGood net).saf = { s.saf with goodRun := s.saf.goodRun.set net (s.saf.goodRun.getD net 0 + 1), missRun := s.saf.missRun.set net 0 } := by
  unfold State.netGood
  dsimp only
  split
  · rw [setNet_saf]
  · rfl

theorem netGood_cmpErr (s : State) (net : Nat) : (s.netGood net).rd SAFE_NET_STATUS.CMP_ERR = s.rd SAFE_NET_STATUS.CMP_ERR := by
  unfold State.netGood
  dsimp only
  split
  · exact setNet_keeps _ _ _ (by decide) (by decide) (by decide)
  · rfl

theorem netGood_only (s : State) (net : Nat) : Only 0x1100900400000200 s (s.netGood net) := Only.netGood (Only.refl _ s) net rfl

/-- The stop of the engine enters the safe state. -/
theorem netStop_stopped {s : State} (hphases : s.rd SLC_BLOCK_STATUS.PHASES < 8) : Stopped 3 SLC_TRIP_LATCH.NET_STOP s s.netStop :=
  stopped_actScope (s := s) (u := { s with saf := { s.saf with knownNet := true } }) 3 (by decide) rfl (fun _ _ => rfl) hphases

theorem netStop_saf (s : State) : s.netStop.saf = { s.saf with knownNet := true } := State.safeState_saf _ _ (by decide)

theorem netStop_tm (s : State) : s.netStop.tm = s.tm := State.safeState_tm _ _ (by decide)

theorem netStop_only (s : State) : Only 0x1942d00120000200 s s.netStop := Only.netStop (Only.refl _ s) rfl

/-- A stop that comes with a valid copy. -/
theorem stopOn_saf (s : State) (m : Pdu) : (s.stopOn m).saf = { s.saf with knownNet := s.saf.knownNet || bitOf m.flags 0 } := by
  unfold State.stopOn
  split
  next h => rw [netStop_saf, h, Bool.or_true]
  next h => rw [Bool.eq_false_iff.2 h, Bool.or_false]

theorem stopOn_tm (s : State) (m : Pdu) : (s.stopOn m).tm = s.tm := by
  unfold State.stopOn
  split
  · exact netStop_tm s
  · rfl

/-- Two copies that differ: CMP_ERR and the safe state. -/
theorem copiesDiffer_shows {s : State} (hphases : s.rd SLC_BLOCK_STATUS.PHASES < 8) :
    s.copiesDiffer.rd SAFE_NET_STATUS.CMP_ERR = 1 ∧ s.copiesDiffer.rd SLC_TRIP_LATCH.NET_STOP = 1 ∧
    s.copiesDiffer.rd SLC_BLOCK_STATUS.SCOPE = 3 ∧ s.copiesDiffer.saf = { s.saf with knownNet := true } := by
  have hfit : (s.wr SAFE_NET_STATUS.CMP_ERR 1).rd SLC_BLOCK_STATUS.PHASES < 8 := by rwa [State.rd_wr_apart _ _ (by decide)]
  have hstop := netStop_stopped hfit
  refine ⟨?_, hstop.latch, hstop.scope.trans (if_pos (.inl rfl)), netStop_saf _⟩
  unfold State.copiesDiffer
  rw [(netStop_only _).rd _ (by decide), State.rd_wr_self _ _ (by decide)]
  rfl

/-- What a first copy leaves. -/
theorem firstCopy_shows {s : State} {net : Nat} {m : Pdu} (hphases : s.rd SLC_BLOCK_STATUS.PHASES < 8) :
    (s.firstCopy net m).saf.first = some (net, s.tm.e, m) ∧ (s.firstCopy net m).saf.accepted = s.saf.accepted ∧
    (bitOf m.flags 0 = true → (s.firstCopy net m).rd SLC_TRIP_LATCH.NET_STOP = 1 ∧ (s.firstCopy net m).rd SLC_BLOCK_STATUS.SCOPE = 3) ∧
    (bitOf m.flags 0 = false → (s.firstCopy net m).rd SLC_BLOCK_STATUS.SCOPE = s.rd SLC_BLOCK_STATUS.SCOPE) := by
  have hgood := netGood_only s net
  have hrd (f : Fld) : (s.firstCopy net m).rd f = ((s.netGood net).stopOn m).rd f := rfl
  refine ⟨?_, ?_, fun hstop => ?_, fun hgo => ?_⟩
  · unfold State.firstCopy
    dsimp only
    rw [stopOn_tm, hgood.tm rfl]
  · show ((s.netGood net).stopOn m).saf.accepted = s.saf.accepted
    rw [stopOn_saf, netGood_saf]
  · rw [hrd, hrd, show (s.netGood net).stopOn m = (s.netGood net).netStop from if_pos hstop]
    have hstopped := netStop_stopped (s := s.netGood net) (by rwa [hgood.rd _ (by decide)])
    exact ⟨hstopped.latch, hstopped.scope.trans (if_pos (.inl rfl))⟩
  · rw [hrd, show (s.netGood net).stopOn m = s.netGood net from if_neg (by rw [hgo]; decide)]
    exact hgood.rd _ (by decide)

/-! ### A message accepted (R434 to R436) -/

/-- A message accepted, before what it shows. -/
def State.pduTaken (s : State) (m : Pdu) (seen : Nat) : State :=
  { s with saf := { s.saf with
      accepted := some m, acceptedAt := s.tm.e, accRun := s.saf.accRun + 1, lastSeq := m.seqNo, anySeq := false, first := none,
      expired := false, seen := seen } }

/-- An accepted message, before a RESET of its. -/
def State.pduShown (s : State) (m : Pdu) (seen : Nat) : State :=
  let u := s.pduTaken m seen
  let u := ((if 3 ≤ s.saf.accRun + 1 then u.wr SAFE_NET_STATUS.CONN_UP 1 else u).wr SAFE_NET_STATUS.STOP_RX (b2n (bitOf m.flags 0))).showCvDiff
  { u with sp := { u.sp with safe := some m } }

theorem acceptPdu_eq (s : State) (m : Pdu) (seen : Nat) : s.acceptPdu m seen =
    if bitOf m.flags 1 then (s.pduShown m seen).clearLatch (2 ^ SLC_TRIP_LATCH.NET_STOP.lo) else s.pduShown m seen := rfl

theorem acceptPdu_shows (s : State) (m : Pdu) (seen : Nat) : (s.acceptPdu m seen).saf = (s.pduTaken m seen).saf ∧
    (s.acceptPdu m seen).sp.safe = some m ∧ (s.acceptPdu m seen).rd SAFE_NET_STATUS.STOP_RX = b2n (bitOf m.flags 0) := by
  have hsaf : (s.pduShown m seen).saf = (s.pduTaken m seen).saf := by
    unfold State.pduShown
    dsimp only
    rw [(Only.showCvDiff (Only.refl 0x400000000 _) rfl).saf rfl]
    split <;> rfl
  have hstop : (s.pduShown m seen).rd SAFE_NET_STATUS.STOP_RX = b2n (bitOf m.flags 0) := by
    refine Eq.trans (rdi_of_regs (s := ((if 3 ≤ s.saf.accRun + 1 then (s.pduTaken m seen).wr SAFE_NET_STATUS.CONN_UP 1 else s.pduTaken m seen).wr
      SAFE_NET_STATUS.STOP_RX (b2n (bitOf m.flags 0))).showCvDiff) rfl _ 0) ?_
    refine (State.rd_wr_apart _ _ (by decide)).trans ((State.rd_wr_self _ _ (by decide)).trans ?_)
    cases bitOf m.flags 0 <;> rfl
  have hclear : Only 0x400100000000 (s.pduShown m seen) ((s.pduShown m seen).clearLatch (2 ^ SLC_TRIP_LATCH.NET_STOP.lo)) :=
    Only.clearLatch (Only.refl _ _) _ rfl
  rw [acceptPdu_eq]
  split
  · exact ⟨(hclear.saf rfl).trans hsaf, by rw [hclear.sp rfl]; rfl, (hclear.rd _ (by decide)).trans hstop⟩
  · exact ⟨hsaf, rfl, hstop⟩

/-- What a second copy that differs from the first leaves. -/
theorem secondCopy_differs {s : State} {net : Nat} {m m0 : Pdu} (hne : m ≠ m0) (hphases : s.rd SLC_BLOCK_STATUS.PHASES < 8) :
    (s.secondCopy net m m0).saf.first = none ∧ (s.secondCopy net m m0).saf.accepted = s.saf.accepted ∧
    (s.secondCopy net m m0).rd SAFE_NET_STATUS.CMP_ERR = 1 ∧ (s.secondCopy net m m0).rd SLC_TRIP_LATCH.NET_STOP = 1 ∧
    (s.secondCopy net m m0).rd SLC_BLOCK_STATUS.SCOPE = 3 := by
  obtain ⟨herr, hlatch, hscope, hsaf⟩ := copiesDiffer_shows (s := s.netGood net) (by rwa [(netGood_only s net).rd _ (by decide)])
  have hout : s.secondCopy net m m0 = { (s.netGood net).copiesDiffer with saf := { (s.netGood net).copiesDiffer.saf with first := none } } :=
    if_neg hne
  rw [hout]
  refine ⟨rfl, ?_, herr, hlatch, hscope⟩
  dsimp only
  rw [hsaf, netGood_saf]

theorem secondCopy_same (s : State) (net : Nat) (m : Pdu) : s.secondCopy net m m = ((s.netGood net).stopOn m).acceptPdu m 3 := if_pos rfl

/-- What the late copy of a message accepted alone leaves. -/
theorem lateCopy_shows {s : State} {net : Nat} {m : Pdu} (hphases : s.rd SLC_BLOCK_STATUS.PHASES < 8) :
    (s.lateCopy net m).saf.accepted = s.saf.accepted ∧
    (s.saf.accepted = some m → (s.lateCopy net m).rd SAFE_NET_STATUS.CMP_ERR = s.rd SAFE_NET_STATUS.CMP_ERR) ∧
    (s.saf.accepted ≠ some m → (s.lateCopy net m).rd SAFE_NET_STATUS.CMP_ERR = 1 ∧ (s.lateCopy net m).rd SLC_TRIP_LATCH.NET_STOP = 1 ∧
      (s.lateCopy net m).rd SLC_BLOCK_STATUS.SCOPE = 3) := by
  generalize hu : { s.netGood net with saf := { (s.netGood net).saf with seen := setBit (s.netGood net).saf.seen net } } = u
  have hacc : u.saf.accepted = s.saf.accepted := by
    rw [← hu]
    dsimp only
    rw [netGood_saf]
  have hcmp : u.rd SAFE_NET_STATUS.CMP_ERR = s.rd SAFE_NET_STATUS.CMP_ERR := by
    rw [← hu]
    exact netGood_cmpErr s net
  have hfit : u.rd SLC_BLOCK_STATUS.PHASES < 8 := by
    rw [← hu]
    exact ((netGood_only s net).rd _ (by decide)).trans_lt hphases
  have hlate : s.lateCopy net m = if u.saf.accepted = some m then u else u.copiesDiffer := by
    rw [← hu]
    rfl
  obtain ⟨herr, hlatch, hscope, hsaf⟩ := copiesDiffer_shows hfit
  rw [hlate, hacc]
  refine ⟨?_, fun h => by rw [if_pos h, hcmp], fun h => by rw [if_neg h]; exact ⟨herr, hlatch, hscope⟩⟩
  split
  · exact hacc
  · rw [hsaf, ← hacc]

/-! ### A copy that stays out (R435), the watchdog (R436) -/

/-- A state whose first copy is dropped. -/
def State.firstDropped (s : State) : State := { s with saf := { s.saf with first := none } }

theorem exec_copySkewTimeout {s : State} (hon : s.pwr.mainOn = true) {n0 t0 e : Nat} {m : Pdu} (hfirst : s.saf.first = some (n0, t0, m))
    (hlate : t0 + s.rd SAFE_NET_CFG.SKEW * 100000 ≤ (s.moveTo e).tm.e) : exec (.copySkewTimeout e) s = .next
    (if !(if 1 - n0 = 0 then ((s.moveTo e).netMiss (1 - n0)).bit SAFE_NET_STATUS.UP_A else ((s.moveTo e).netMiss (1 - n0)).bit SAFE_NET_STATUS.UP_B) ∧
        ((s.moveTo e).netMiss (1 - n0)).firstDropped.bit SAFE_NET_CFG.DEGRADE then
        ((s.moveTo e).netMiss (1 - n0)).firstDropped.acceptPdu m (2 ^ n0)
      else ((s.moveTo e).netMiss (1 - n0)).firstDropped) := by
  have hmoved : (s.moveTo e).saf.first = some (n0, t0, m) := by rw [s.moveTo_saf, hfirst]
  rw [show exec (.copySkewTimeout e) s = _ from next_live hon _]
  dsimp only
  rw [hmoved]
  dsimp only
  rw [if_neg (by rw [rd_moveTo]; omega)]
  rfl

/-- A missed copy leaves the engine's messages. -/
theorem netMiss_saf (s : State) (net : Nat) : (s.netMiss net).saf = { s.saf with
    missRun := s.saf.missRun.set net (s.saf.missRun.getD net 0 + 1), goodRun := s.saf.goodRun.set net 0 } := by
  have hinc : (s.inc (if net = 0 then SAFE_NET_STATUS.MISS_A else SAFE_NET_STATUS.MISS_B) 1).saf = s.saf := State.inc_saf ..
  unfold State.netMiss
  dsimp only
  rw [hinc]
  split
  · rw [setNet_saf]
  · rfl

/-- The count of a missed copy. -/
theorem missCount_keeps (s : State) (net : Nat) {g : Fld} (ha : apart SAFE_NET_STATUS.MISS_A g = true)
    (hb : apart SAFE_NET_STATUS.MISS_B g = true) :
    (s.inc (if net = 0 then SAFE_NET_STATUS.MISS_A else SAFE_NET_STATUS.MISS_B) 1).bit g = s.bit g := by
  unfold State.bit
  split
  · exact congrArg (· == 1) (State.rd_wr_apart _ _ ha)
  · exact congrArg (· == 1) (State.rd_wr_apart _ _ hb)

theorem netMiss_degrade (s : State) (net : Nat) : (s.netMiss net).bit SAFE_NET_CFG.DEGRADE = s.bit SAFE_NET_CFG.DEGRADE := by
  refine Eq.trans ?_ (missCount_keeps s net (by decide) (by decide))
  unfold State.netMiss
  generalize s.inc (if net = 0 then SAFE_NET_STATUS.MISS_A else SAFE_NET_STATUS.MISS_B) 1 = u
  dsimp only
  split
  · exact congrArg (· == 1) (setNet_keeps _ _ _ (by decide) (by decide) (by decide))
  · rfl

/-- A network that is down stays down when a copy of it is missed. -/
theorem netMiss_down {s : State} {f : Fld} (net : Nat) (hf : f = SAFE_NET_STATUS.UP_A ∨ f = SAFE_NET_STATUS.UP_B)
    (ha : s.bit SAFE_NET_STATUS.UP_A = false) (hb : s.bit SAFE_NET_STATUS.UP_B = false) : (s.netMiss net).bit f = false := by
  have hua := (missCount_keeps s net (by decide) (by decide)).trans ha
  have hub := (missCount_keeps s net (by decide) (by decide)).trans hb
  unfold State.netMiss
  generalize s.inc (if net = 0 then SAFE_NET_STATUS.MISS_A else SAFE_NET_STATUS.MISS_B) 1 = u at hua hub ⊢
  have hdown : u.bit f = false := by rcases hf with rfl | rfl <;> assumption
  have hset (v : State) (hv : v.regs = u.regs) : v.setNet net false = v := by
    refine if_pos ?_
    rw [bit_of_regs hv]
    split <;> assumption
  dsimp only
  split
  · refine (congrArg (fun v => State.bit v f) (hset _ ?_)).trans hdown
    rfl
  · exact hdown

/-- The state of an expired watchdog before its stop. -/
def State.wdogRun (s : State) : State :=
  ({ s with saf := { s.saf with expired := true, accRun := 0, anySeq := true, first := none } }).wr SAFE_NET_STATUS.CONN_UP 0

theorem exec_safeWdogExpiry {s : State} (hon : s.pwr.mainOn = true) {e : Nat} (hen : s.bit SAFE_NET_CFG.EN = true)
    (hlate : s.saf.acceptedAt + s.rd SAFE_NET_CFG.WDOG * 1000000 ≤ (s.moveTo e).tm.e) (hfirst : s.saf.expired = false) :
    exec (.safeWdogExpiry e) s = .next (s.moveTo e).wdogRun.netStop := by
  rw [show exec (.safeWdogExpiry e) s = _ from next_live hon _]
  dsimp only
  rw [if_pos ⟨by rw [moveTo_bit, hen], by rw [s.moveTo_saf, rd_moveTo]; exact hlate, by rw [s.moveTo_saf, hfirst]; rfl⟩]
  rfl

/-! ### The status message (R433, R434) -/

/-- The flags of the status message. -/
def State.statusFlags (s : State) : Nat :=
  b2n (s.rd SLC_BLOCK_STATUS.SCOPE == 3) + 2 * b2n s.released + 4 * b2n (s.rd SAFE_STATUS.PROOF == 1) +
    8 * s.rd SAFE_STATUS.CONFIRMED + 16 * b2n (s.rd SAFE_STATUS.DISC != 0 || s.rd SAFE_STATUS.TP_ERR != 0) +
    32 * (1 - s.rd SAFE_NET_STATUS.UP_A) + 64 * (1 - s.rd SAFE_NET_STATUS.UP_B)

/-- Flag 1 says whether the converter is released. -/
theorem bitOf_statusFlags (s : State) : bitOf s.statusFlags 1 = s.released := by
  have hbit (b : Bool) : b2n b < 2 := by cases b <;> decide
  have hlow := hbit (s.rd SLC_BLOCK_STATUS.SCOPE == 3)
  have hmid (a b c d e f g : Nat) (ha : a < 2) (hb : b < 2) : (a + 2 * b + 4 * c + 8 * d + 16 * e + 32 * f + 64 * g) / 2 ^ 1 % 2 = b := by omega
  unfold State.statusFlags bitOf
  rw [hmid _ _ _ _ _ _ _ hlow (hbit s.released)]
  cases s.released <;> rfl

/-- The bytes of the status message. -/
def State.statusFrame (s : State) (q flags : Nat) : List Byte :=
  ethBytes ⟨s.macCtl, s.macDev, 0x88B5, { s.safePdu q flags with crc := crc32c (pduBody (s.safePdu q flags)) }, 0⟩

theorem statusFrame_moveTo (s : State) (e q flags : Nat) : (s.moveTo e).statusFrame q flags = s.statusFrame q flags := by
  unfold State.statusFrame State.macCtl State.macDev State.safePdu State.rds
  simp only [rd_moveTo, s.moveTo_saf]

theorem exec_safeMessageTx {s : State} (hon : s.pwr.mainOn = true) {e : Nat} (hen : s.bit SAFE_NET_CFG.EN = true)
    (hdue : s.saf.txAt + s.rd SAFE_NET_CFG.PERIOD * 1000000 ≤ (s.moveTo e).tm.e) : exec (.safeMessageTx e) s = .next
    (let u := s.moveTo e
      let q := (u.saf.txSeq + 1) % 2 ^ 32
      let l := u.statusFrame q u.statusFlags
      (({ u with saf := { u.saf with txSeq := q, txAt := u.tm.e } } : State).emit (.safeMessage 0 l)).emit (.safeMessage 1 l)) := by
  rw [show exec (.safeMessageTx e) s = _ from next_live hon _]
  dsimp only
  rw [if_pos ⟨by rw [moveTo_bit, hen], by rw [s.moveTo_saf, rd_moveTo]; exact hdue⟩]
  rfl

/-- Settles O12: a frame by its filter and its place among the copies, a missing copy, the watchdog and the status message by what
they leave. -/
theorem safeMessageCommands : Obligations.SafeMessageCommands := by
  refine ⟨fun s net m e hon h => exec_safeMessageRx_dropped hon net e h,
    fun s net m e hon hen hdst htype hfcs hbad => ⟨_, exec_safeMessageRx_in hon net e hen hdst htype hfcs, ?_⟩,
    fun s net m e hon hen hdst htype hfcs hfits hfirst hnew hnext hphases => ⟨_, exec_safeMessageRx_in hon net e hen hdst htype hfcs, ?_⟩,
    fun s net m n0 t0 e hon hen hdst htype hfcs hfits hfirst hnet => ⟨_, exec_safeMessageRx_in hon net e hen hdst htype hfcs, ?_⟩,
    fun s net m m0 n0 t0 e hon hen hdst htype hfcs hfits hfirst hnet hseq hne hphases =>
      ⟨_, exec_safeMessageRx_in hon net e hen hdst htype hfcs, ?_⟩,
    fun s net m e hon hen hdst htype hfcs hfits hfirst hany hseq hseen hphases =>
      ⟨_, exec_safeMessageRx_in hon net e hen hdst htype hfcs, ?_⟩,
    fun s n0 t0 e m hon hfirst hlate => ⟨_, exec_copySkewTimeout hon hfirst hlate, ?_⟩,
    fun s e hon hen hlate hfresh hphases => ⟨_, exec_safeWdogExpiry hon hen hlate hfresh, ?_⟩,
    fun s e hon hen hdue => ⟨_, exec_safeMessageTx hon hen hdue, ?_⟩⟩
  · rw [pduIn_bad (by rwa [pduFits_moveTo])]
    refine ⟨(rd_inc_byte _ rfl (by decide)).trans (by rw [rd_moveTo]), ?_⟩
    unfold State.netBad
    dsimp only
    rw [State.inc_saf, s.moveTo_saf]
  · rw [pduIn_first (by rwa [pduFits_moveTo]) (by rwa [s.moveTo_saf]) (by rwa [s.moveTo_saf]) (by rwa [s.moveTo_saf])]
    obtain ⟨h1, h2, h3, h4⟩ := firstCopy_shows (s := s.moveTo e) (net := net.val) (m := m.pdu) (by rwa [rd_moveTo])
    exact ⟨h1, by rw [h2, s.moveTo_saf], h3, fun hgo => by rw [h4 hgo, rd_moveTo]⟩
  · rw [pduIn_second (by rwa [pduFits_moveTo]) (by rwa [s.moveTo_saf]) hnet rfl, secondCopy_same]
    obtain ⟨hsaf, hsp, hstop⟩ := acceptPdu_shows (((s.moveTo e).netGood net.val).stopOn m.pdu) m.pdu 3
    rw [hsaf]
    refine ⟨rfl, rfl, rfl, ?_, rfl, hsp, hstop⟩
    show (((s.moveTo e).netGood net.val).stopOn m.pdu).tm.e = _
    rw [stopOn_tm, (netGood_only _ _).tm rfl]
  · rw [pduIn_second (by rwa [pduFits_moveTo]) (by rwa [s.moveTo_saf]) hnet hseq]
    obtain ⟨h1, h2, h3⟩ := secondCopy_differs (s := s.moveTo e) (net := net.val) hne (by rwa [rd_moveTo])
    exact ⟨h1, by rw [h2, s.moveTo_saf], h3⟩
  · rw [pduIn_late (by rwa [pduFits_moveTo]) (by rwa [s.moveTo_saf]) (by rwa [s.moveTo_saf]) (by rwa [s.moveTo_saf]) (by rwa [s.moveTo_saf])]
    obtain ⟨h1, h2, h3⟩ := lateCopy_shows (s := s.moveTo e) (net := net.val) (m := m.pdu) (by rwa [rd_moveTo])
    rw [s.moveTo_saf, rd_moveTo] at *
    exact ⟨h1, h2, h3⟩
  · have hmissed : Only 0x1100900400000200 (s.moveTo e) ((s.moveTo e).netMiss (1 - n0)) := Only.netMiss (Only.refl _ _) _ rfl
    have hdegrade : ((s.moveTo e).netMiss (1 - n0)).firstDropped.bit SAFE_NET_CFG.DEGRADE = s.bit SAFE_NET_CFG.DEGRADE :=
      (netMiss_degrade _ _).trans (moveTo_bit s e _)
    have hacc : ((s.moveTo e).netMiss (1 - n0)).firstDropped.saf.accepted = s.saf.accepted := by
      unfold State.firstDropped
      dsimp only
      rw [netMiss_saf, s.moveTo_saf]
    obtain ⟨hsaf, hsp, -⟩ := acceptPdu_shows ((s.moveTo e).netMiss (1 - n0)).firstDropped m (2 ^ n0)
    rw [hdegrade]
    refine ⟨?_, fun hno => ?_, fun hyes ha hb => ?_⟩
    · rw [apply_ite State.saf, apply_ite SafeSt.first, hsaf]
      exact ite_self none
    · rw [if_neg (by rw [hno]; simp)]
      exact ⟨hacc, (hmissed.sp rfl).trans (s.moveTo_sp e)⟩
    · have hdown {f : Fld} (hf : f = SAFE_NET_STATUS.UP_A ∨ f = SAFE_NET_STATUS.UP_B) : ((s.moveTo e).netMiss (1 - n0)).bit f = false :=
        netMiss_down _ hf (by rwa [moveTo_bit]) (by rwa [moveTo_bit])
      rw [hdown (.inl rfl), hdown (.inr rfl), if_pos ⟨by simp, hyes⟩, hsaf]
      exact ⟨rfl, hsp⟩
  · have hfit : (s.moveTo e).wdogRun.rd SLC_BLOCK_STATUS.PHASES < 8 := by
      rw [← rd_moveTo s e] at hphases
      exact (State.rd_wr_apart _ _ (by decide)).trans_lt hphases
    have hstop := netStop_stopped (s := (s.moveTo e).wdogRun) hfit
    refine ⟨?_, ?_, ?_, hstop.latch, hstop.scope.trans (if_pos (.inl rfl))⟩
    · rw [(netStop_only _).rd _ (by decide)]
      exact State.rd_wr_self _ _ (by decide)
    · rw [netStop_saf]
      rfl
    · rw [netStop_saf]
      rfl
  · dsimp only
    refine ⟨by rw [s.moveTo_saf]; rfl, rfl, moveTo_regs s e, (s.moveTo e).statusFlags, ?_, fun net hnet => ?_⟩
    · rw [bitOf_statusFlags]
      exact congrArg (· == 0) (rd_moveTo s e _)
    · show Out.safeMessage net (s.statusFrame (((s.moveTo e).saf.txSeq + 1) % 2 ^ 32) (s.moveTo e).statusFlags) ∈ _
      rw [← statusFrame_moveTo s e]
      interval_cases net
      · exact List.mem_append_left _ (List.mem_append_right _ List.mem_cons_self)
      · exact List.mem_append_right _ List.mem_cons_self

end Sys2Proof.Machine
end

section
/-! PROOFS. Safety inputs (12_safety.md R423 to R428): O13. -/
namespace Sys2Proof.Machine
open Reg

/-! ### The demand of an input (R424, R427, R453) -/

theorem sin_setSin {s : State} {n : Nat} (x : SafeIn) (hn : n < s.saf.inputs.length) : (s.setSin n x).sin n = x := by
  unfold State.sin State.setSin
  simp [List.getD, hn]

theorem sin_of_saf {s u : State} (h : u.saf.inputs = s.saf.inputs) (n : Nat) : u.sin n = s.sin n := congrArg (fun l => List.getD l n SafeIn.init) h

/-- The bit of an input in DEMAND. -/
theorem showDemand_bit (s : State) {n : Nat} (hn : n < 8) : bitOf ((s.showDemand n).rd SAFE_STATUS.DEMAND) n = s.inputDemand n := by
  unfold State.showDemand
  rw [State.rd_wr_self _ _ (by decide), show SAFE_STATUS.DEMAND.w = 8 from rfl, bitOf_mod _ _ _ hn]
  split
  next h => rw [bitOf_setBit, h]; simp
  next h => rw [bitOf_clrBit, Bool.eq_false_iff.2 h]; simp

theorem showDemand_keeps (s : State) (n : Nat) {f : Fld} (h : apart SAFE_STATUS.DEMAND f = true) (i : Nat) :
    (s.showDemand n).rdi f i = s.rdi f i := s.rdi_wri_apart 0 i _ h

theorem showDemand_only (s : State) (n : Nat) : Only 0x200000000 s (s.showDemand n) := Only.showDemand (Only.refl _ s) n rfl

/-- The state in which the demand of an input enters the safe state. -/
def State.demandKnown (s : State) (n : Nat) : State := { s.showDemand n with saf := { s.saf with knownIn := true } }

section
variable {s : State} {n : Nat} (hlow : 1 ≤ s.rdi SAFE_IN_CFG_n.TYPE n) (hhigh : s.rdi SAFE_IN_CFG_n.TYPE n ≤ 3)
  (hawake : s.bit PWR_STATUS.SLEEP = false)
include hlow hhigh hawake

theorem demandAct_safe : s.demandAct n = ((s.demandKnown n).safeState SLC_TRIP_LATCH.SAFETY_IN).driveOff
    ((s.demandKnown n).bit SLC_SRC_ROUTE.SAFE_DRV0) ((s.demandKnown n).bit SLC_SRC_ROUTE.SAFE_DRV1) := by
  have hsleep : (s.showDemand n).bit PWR_STATUS.SLEEP = false := by
    rw [← hawake]
    exact congrArg (· == 1) ((showDemand_only s n).rd _ (by decide))
  unfold State.demandAct
  dsimp only
  rw [if_pos ⟨hlow, hhigh⟩, if_neg (by rw [hsleep]; decide)]
  rfl

/-- A demand of an input of types 1 to 3: the safe state, with SAFETY_IN latched. -/
theorem demandAct_stopped (hphases : s.rd SLC_BLOCK_STATUS.PHASES < 8) : Stopped 3 SLC_TRIP_LATCH.SAFETY_IN (s.showDemand n) (s.demandAct n) := by
  rw [demandAct_safe hlow hhigh hawake]
  have hknown (g : Fld) : (s.demandKnown n).rd g = (s.showDemand n).rd g := rdi_of_regs rfl g 0
  exact (stopped_actScope (u := s.demandKnown n) 3 (by decide) rfl (fun g _ => hknown g)
    (by rwa [(showDemand_only s n).rd _ (by decide)])).only (Only.driveOff (Only.refl _ _) _ _ rfl) (by decide)

/-- What a demand of an input leaves of the safety block. -/
theorem demandAct_keeps : (∀ f i, fr 0x1d42510120000200 f = true → (s.demandAct n).rdi f i = (s.showDemand n).rdi f i) ∧
    (s.demandAct n).saf = { s.saf with knownIn := true } ∧ s.hst.seqNo ≤ (s.demandAct n).hst.seqNo := by
  rw [demandAct_safe hlow hhigh hawake]
  generalize (s.demandKnown n).bit SLC_SRC_ROUTE.SAFE_DRV0 = d0
  generalize (s.demandKnown n).bit SLC_SRC_ROUTE.SAFE_DRV1 = d1
  have honly : Only 0x1d42510120000200 (s.demandKnown n) (((s.demandKnown n).safeState SLC_TRIP_LATCH.SAFETY_IN).driveOff d0 d1) :=
    Only.driveOff (Only.safeState (Only.refl _ _) _ rfl (by decide)) _ _ rfl
  refine ⟨fun f i hf => (honly.rdi f i hf).trans (rdi_of_regs rfl f i), honly.saf rfl, ?_⟩
  exact (State.actScope_seqNo (s.demandKnown n) SLC_TRIP_LATCH.SAFETY_IN 1 3 7 false (by decide)).trans (driveOff_seqNo _ _ _)

end

theorem demandAct_ignored {s : State} {n : Nat} (htype : s.rdi SAFE_IN_CFG_n.TYPE n = 0) : s.demandAct n = s.showDemand n := by
  unfold State.demandAct
  dsimp only
  rw [htype, if_neg (by decide), if_neg (fun h => absurd h.1 (by decide))]

theorem inputDemand_ignored {s : State} {n : Nat} (htype : s.rdi SAFE_IN_CFG_n.TYPE n = 0) : s.inputDemand n = false := by
  unfold State.inputDemand
  rw [htype]
  rfl

/-- An input in use demands while one of its channels, a discrepancy or a missed pulse does. -/
theorem inputDemand_used {s : State} {n : Nat} (htype : s.rdi SAFE_IN_CFG_n.TYPE n ≠ 0) : s.inputDemand n =
    ((s.sin n).a || (s.sin n).b || (s.sin n).discDemand || bitOf (s.rd SAFE_STATUS.TP_ERR) n) := by
  unfold State.inputDemand
  simp [htype]

/-! ### The filter of a channel (R423, R424) -/

section
variable {s : State} (hon : s.pwr.mainOn = true) {n : Fin 8} {b lv : Bool} {since e : Nat}
include hon

theorem exec_safetyInputDemand : exec (.safetyInputDemand n ⟨b, lv, since⟩ e) s = .next
    (if (s.moveTo e).filterDecides n b lv since true then (s.moveTo e).channelDemand n b else s.moveTo e) := next_live hon _

theorem exec_safetyInputRelease : exec (.safetyInputRelease n ⟨b, lv, since⟩ e) s = .next
    (if (s.moveTo e).filterDecides n b lv since false then (s.moveTo e).channelRest n b else s.moveTo e) := next_live hon _

end

section
variable {s : State} {n : Nat} {b lv : Bool} {since e : Nat}

theorem demandLevel_moveTo (s : State) (e n : Nat) (b : Bool) : (s.moveTo e).demandLevel n b = (b && s.biti SAFE_IN_CFG_n.ANTI n) := by
  unfold State.demandLevel State.biti
  rw [rdi_of_regs (moveTo_regs s e)]

theorem filterDecides_demand (hlevel : lv = (b && s.biti SAFE_IN_CFG_n.ANTI n))
    (hheld : s.rdi SAFE_IN_CFG_n.FILT n * 100000 ≤ (s.moveTo e).counted n b since) : (s.moveTo e).filterDecides n b lv since true = true := by
  unfold State.filterDecides
  rw [demandLevel_moveTo, ← hlevel, rdi_of_regs (moveTo_regs s e)]
  simpa using hheld

theorem filterDecides_rest (hlevel : lv = !(b && s.biti SAFE_IN_CFG_n.ANTI n))
    (hheld : s.rdi SAFE_IN_CFG_n.FILT n * 100000 ≤ (s.moveTo e).counted n b since) : (s.moveTo e).filterDecides n b lv since false = true := by
  unfold State.filterDecides
  rw [demandLevel_moveTo, hlevel, rdi_of_regs (moveTo_regs s e), decide_eq_true hheld]
  cases b && s.biti SAFE_IN_CFG_n.ANTI n <;> rfl

theorem filterDecides_short (d : Bool) (hshort : (s.moveTo e).counted n b since < s.rdi SAFE_IN_CFG_n.FILT n * 100000) :
    (s.moveTo e).filterDecides n b lv since d = false := by
  unfold State.filterDecides
  rw [rdi_of_regs (moveTo_regs s e), decide_eq_false (by omega), Bool.and_false]

end

/-! ### A channel comes to demand -/

/-- The level of a channel that its filter keeps. -/
def SafeIn.level (x : SafeIn) (b : Bool) : Bool := if b then x.b else x.a

theorem channelDemand_same {s : State} {n : Nat} {b : Bool} (h : (s.sin n).level b = true) : s.channelDemand n b = s := if_pos h

theorem channelRest_same {s : State} {n : Nat} {b : Bool} (h : (s.sin n).level b = false) : s.channelRest n b = s := by
  refine if_pos ?_
  show (!(s.sin n).level b) = true
  rw [h]
  rfl

/-- The record of an input of which a channel has come to demand. -/
def State.demandSeen (s : State) (n : Nat) (b : Bool) : SafeIn :=
  let x := s.sin n
  let x := if b then { x with b := true, bAt := s.tm.e } else { x with a := true, aAt := s.tm.e }
  let other := if b then x.aAt else x.bAt
  if x.a && x.b then
    let near := decide (s.tm.e ≤ other + s.discNs n)
    if near && x.proof == 0 then { x with pair := near, proof := 1, bothAt := s.tm.e, disc := false } else { x with pair := near, disc := false }
  else x

theorem channelDemand_new {s : State} {n : Nat} {b : Bool} (h : (s.sin n).level b = false) :
    s.channelDemand n b = (s.setSin n (s.demandSeen n b)).demandAct n :=
  if_neg (show ¬ (s.sin n).level b = true by rw [h]; decide)

theorem demandSeen_level (s : State) (n : Nat) (b : Bool) : (s.demandSeen n b).level b = true := by
  unfold State.demandSeen
  dsimp only
  generalize hx : (if b then { s.sin n with b := true, bAt := s.tm.e } else { s.sin n with a := true, aAt := s.tm.e }) = x
  have hlevel : x.level b = true := by
    rw [← hx]
    cases b <;> rfl
  clear hx
  split
  · rw [apply_ite (SafeIn.level · b)]
    exact (ite_congr rfl (fun _ => hlevel) fun _ => hlevel).trans (ite_self true)
  · exact hlevel

/-- What a channel's return to rest may leave of the record of its input. -/
structure RestOf (b : Bool) (x y : SafeIn) : Prop where
  rest : y.level b = false
  other : y.level (!b) = x.level (!b)
  disc : x.discDemand = false → y.discDemand = false

/-- A change of the record that keeps its two levels, made or not made. -/
theorem RestOf.step {b : Bool} {x y z : SafeIn} {c : Prop} [Decidable c] (h : RestOf b x y) (ha : z.a = y.a) (hb : z.b = y.b)
    (hd : y.discDemand = false → z.discDemand = false) : RestOf b x (if c then z else y) := by
  have hlevel (k : Bool) : z.level k = y.level k := by
    unfold SafeIn.level
    rw [ha, hb]
  split
  · exact ⟨(hlevel b).trans h.rest, (hlevel (!b)).trans h.other, fun hx => hd (h.disc hx)⟩
  · exact h

/-- A channel back at rest. -/
def SafeIn.atRest (x : SafeIn) (b : Bool) (e : Nat) : SafeIn := if b then { x with b := false, bAt := e } else { x with a := false, aAt := e }

theorem restOf_atRest (b : Bool) (x : SafeIn) (e : Nat) : RestOf b x (x.atRest b e) := by
  unfold SafeIn.atRest
  cases b <;> exact ⟨rfl, rfl, fun h => h⟩

/-- The record of an input of which a channel has come to rest. -/
def State.restSeen (s : State) (n : Nat) (b : Bool) : SafeIn × Bool :=
  let x := s.sin n
  let first := x.a && x.b
  let heldBoth := x.proof == 1 && decide (x.bothAt + 100000000 ≤ s.tm.e)
  let x := x.atRest b s.tm.e
  let x := if first then { x with proof := if heldBoth then 2 else if x.proof = 3 then 3 else 0 } else x
  let other := if b then x.aAt else x.bAt
  let rest := !first && !x.a && !x.b
  let clean := rest && decide (s.tm.e ≤ other + s.discNs n)
  let x := if clean && x.proof == 2 then { x with proof := 3 } else x
  let x := if clean && x.pair then { x with discDemand := false } else x
  (if rest then { x with pair := false, disc := false } else x, clean)

theorem channelRest_new {s : State} {n : Nat} {b : Bool} (h : (s.sin n).level b = true) : s.channelRest n b =
    let u := (s.setSin n (s.restSeen n b).1).showDemand n
    if (s.restSeen n b).2 && u.rdi SAFE_IN_CFG_n.TYPE n == 2 && (List.range 8).any (fun m => u.rdi SAFE_IN_CFG_n.TYPE m == 2) && u.proofAll then
      u.wr SAFE_STATUS.PROOF 1 else u :=
  if_neg (show ¬ (!(s.sin n).level b) = true by rw [h]; decide)

theorem restSeen_rest (s : State) (n : Nat) (b : Bool) : RestOf b (s.sin n) (s.restSeen n b).1 := by
  have h0 := restOf_atRest b (s.sin n) s.tm.e
  exact RestOf.step (RestOf.step (RestOf.step (RestOf.step h0 rfl rfl id) rfl rfl id) rfl rfl fun _ => rfl) rfl rfl id

end Sys2Proof.Machine
end

section
/-! PROOFS. The commands of the safety inputs (12_safety.md R423 to R428): O13. -/
namespace Sys2Proof.Machine
open Reg

theorem sin_moveTo (s : State) (e n : Nat) : (s.moveTo e).sin n = s.sin n := sin_of_saf (by rw [s.moveTo_saf]) n

theorem rdi_moveTo (s : State) (e : Nat) (f : Fld) (i : Nat) : (s.moveTo e).rdi f i = s.rdi f i := rdi_of_regs (moveTo_regs s e) f i

/-- A level that is an input's demand is one of its reasons to demand. -/
theorem inputDemand_of_level {s : State} {n : Nat} {b : Bool} (htype : s.rdi SAFE_IN_CFG_n.TYPE n ≠ 0) (h : (s.sin n).level b = true) :
    s.inputDemand n = true := by
  rw [inputDemand_used htype]
  cases b
  · rw [show (s.sin n).a = true from h, Bool.true_or, Bool.true_or, Bool.true_or]
  · rw [show (s.sin n).b = true from h, Bool.or_true, Bool.true_or, Bool.true_or]

/-! ### A demand and its end (R424, R427) -/

/-- A channel of an input in use comes to demand. -/
theorem channelDemand_shows {s : State} {n : Nat} {b : Bool} (hn : n < 8) (hlen : s.saf.inputs.length = 8) (hlevel : (s.sin n).level b = false)
    (hlow : 1 ≤ s.rdi SAFE_IN_CFG_n.TYPE n) (hhigh : s.rdi SAFE_IN_CFG_n.TYPE n ≤ 3) (hawake : s.bit PWR_STATUS.SLEEP = false)
    (hphases : s.rd SLC_BLOCK_STATUS.PHASES < 8) : ((s.channelDemand n b).sin n).level b = true ∧
    bitOf ((s.channelDemand n b).rd SAFE_STATUS.DEMAND) n = true ∧ (s.channelDemand n b).rd SLC_TRIP_LATCH.SAFETY_IN = 1 ∧
    (s.channelDemand n b).rd SLC_BLOCK_STATUS.PHASES = 7 ∧ (s.channelDemand n b).rd SLC_BLOCK_STATUS.SCOPE = 3 := by
  rw [channelDemand_new hlevel]
  generalize hu : s.setSin n (s.demandSeen n b) = u
  have hrdi (f : Fld) (i : Nat) : u.rdi f i = s.rdi f i := by
    rw [← hu]
    rfl
  have hsin : u.sin n = s.demandSeen n b := by
    rw [← hu]
    exact sin_setSin _ (by omega)
  have hulow : 1 ≤ u.rdi SAFE_IN_CFG_n.TYPE n := by rwa [hrdi]
  have huhigh : u.rdi SAFE_IN_CFG_n.TYPE n ≤ 3 := by rwa [hrdi]
  have huawake : u.bit PWR_STATUS.SLEEP = false := by
    rw [← hawake, ← hu]
    rfl
  obtain ⟨hkeep, hsaf, -⟩ := demandAct_keeps hulow huhigh huawake
  have hstop := demandAct_stopped hulow huhigh huawake ((hrdi _ 0).trans_lt hphases)
  refine ⟨?_, ?_, hstop.latch, hstop.phases, hstop.safe.1⟩
  · rw [sin_of_saf (s := u) (by rw [hsaf]) n, hsin]
    exact demandSeen_level s n b
  · have hdemand := showDemand_bit u hn
    rw [inputDemand_of_level (b := b) (by omega) (by rw [hsin]; exact demandSeen_level s n b)] at hdemand
    rw [← hdemand]
    exact congrArg (bitOf · n) (hkeep _ 0 (by decide))

/-- A channel of an ignored input comes to demand. -/
theorem channelDemand_ignored {s : State} {n : Nat} {b : Bool} (hn : n < 8) (htype : s.rdi SAFE_IN_CFG_n.TYPE n = 0)
    (hlevel : (s.sin n).level b = false) : bitOf ((s.channelDemand n b).rd SAFE_STATUS.DEMAND) n = false ∧
    (s.channelDemand n b).rd SLC_TRIP_LATCH.SAFETY_IN = s.rd SLC_TRIP_LATCH.SAFETY_IN ∧
    (s.channelDemand n b).rd SLC_BLOCK_STATUS.SCOPE = s.rd SLC_BLOCK_STATUS.SCOPE := by
  have htype' : (s.setSin n (s.demandSeen n b)).rdi SAFE_IN_CFG_n.TYPE n = 0 := htype
  rw [channelDemand_new hlevel, demandAct_ignored htype']
  have honly := showDemand_only (s.setSin n (s.demandSeen n b)) n
  exact ⟨(showDemand_bit _ hn).trans (inputDemand_ignored htype'), honly.rd _ (by decide), honly.rd _ (by decide)⟩

/-- A channel comes to rest. -/
theorem channelRest_shows {s : State} {n : Nat} {b : Bool} (hn : n < 8) (hlen : s.saf.inputs.length = 8) :
    ((s.channelRest n b).sin n).level b = false ∧
    ((s.sin n).level b = true → (s.sin n).level (!b) = false → (s.sin n).discDemand = false → bitOf (s.rd SAFE_STATUS.TP_ERR) n = false →
      bitOf ((s.channelRest n b).rd SAFE_STATUS.DEMAND) n = false) ∧
    (s.channelRest n b).rd SLC_TRIP_LATCH.SAFETY_IN = s.rd SLC_TRIP_LATCH.SAFETY_IN ∧
    (s.channelRest n b).rd SLC_BLOCK_STATUS.SCOPE = s.rd SLC_BLOCK_STATUS.SCOPE := by
  cases hlevel : (s.sin n).level b with
  | false =>
    rw [channelRest_same hlevel]
    exact ⟨hlevel, fun h => absurd h (by decide), rfl, rfl⟩
  | true =>
    obtain ⟨hrest, hother, hdisc⟩ := restSeen_rest s n b
    rw [channelRest_new hlevel]
    dsimp only
    have hsin : (s.setSin n (s.restSeen n b).1).sin n = (s.restSeen n b).1 := sin_setSin _ (by omega)
    have hquiet : (s.sin n).level (!b) = false → (s.sin n).discDemand = false → bitOf (s.rd SAFE_STATUS.TP_ERR) n = false →
        (s.setSin n (s.restSeen n b).1).inputDemand n = false := by
      intro ho hd htp
      unfold State.inputDemand
      dsimp only
      rw [hsin, hdisc hd, show (s.setSin n (s.restSeen n b).1).rd SAFE_STATUS.TP_ERR = s.rd SAFE_STATUS.TP_ERR from rfl, htp]
      have hlevels : (s.restSeen n b).1.a = false ∧ (s.restSeen n b).1.b = false := by
        cases b
        · exact ⟨hrest, hother.trans ho⟩
        · exact ⟨hother.trans ho, hrest⟩
      rw [hlevels.1, hlevels.2]
      simp
    have honly := showDemand_only (s.setSin n (s.restSeen n b).1) n
    have hall : (((s.setSin n (s.restSeen n b).1).showDemand n).sin n).level b = false ∧ (True →
        (s.sin n).level (!b) = false → (s.sin n).discDemand = false → bitOf (s.rd SAFE_STATUS.TP_ERR) n = false →
        bitOf (((s.setSin n (s.restSeen n b).1).showDemand n).rd SAFE_STATUS.DEMAND) n = false) ∧
        ((s.setSin n (s.restSeen n b).1).showDemand n).rd SLC_TRIP_LATCH.SAFETY_IN = s.rd SLC_TRIP_LATCH.SAFETY_IN ∧
        ((s.setSin n (s.restSeen n b).1).showDemand n).rd SLC_BLOCK_STATUS.SCOPE = s.rd SLC_BLOCK_STATUS.SCOPE := by
      refine ⟨?_, fun _ ho hd htp => (showDemand_bit _ hn).trans (hquiet ho hd htp), honly.rd _ (by decide), honly.rd _ (by decide)⟩
      rw [sin_of_saf (congrArg SafeSt.inputs (honly.saf rfl)), hsin, hrest]
    generalize (s.setSin n (s.restSeen n b).1).showDemand n = u at hall ⊢
    obtain ⟨h1, h2, h3, h4⟩ := hall
    split
    · refine ⟨?_, fun _ ho hd htp => ?_, (State.rd_wr_apart _ _ (by decide)).trans h3, (State.rd_wr_apart _ _ (by decide)).trans h4⟩
      · rw [sin_of_saf (congrArg SafeSt.inputs (State.wr_saf ..)), h1]
      · rw [State.rd_wr_apart _ _ (by decide)]
        exact h2 trivial ho hd htp
    · exact ⟨h1, fun _ => h2 trivial, h3, h4⟩

/-! ### A discrepancy (R425) -/

/-- A discrepancy before its record. -/
def State.discShown (s : State) (n : Nat) : State :=
  let u := s.setSin n { s.sin n with disc := true, discDemand := true, pair := false, bothAt := 0, proof := if (s.sin n).proof = 3 then 3 else 0 }
  let u := u.wr SAFE_STATUS.DISC (setBit (u.rd SAFE_STATUS.DISC) n)
  let u := if u.rdi SAFE_IN_CFG_n.TYPE n = 2 ∧ u.rd SAFE_STATUS.PROOF ≠ 1 then u.proofFails else u
  u.showDemand n

theorem exec_discrepancy {s : State} (hon : s.pwr.mainOn = true) {n : Fin 8} {e : Nat} (hne : (s.sin n).a ≠ (s.sin n).b)
    (htype : s.rdi SAFE_IN_CFG_n.TYPE n ≠ 0) (hnew : (s.sin n).disc = false)
    (hlate : max (s.sin n).aAt (s.sin n).bAt + s.discNs n < (s.moveTo e).tm.e) :
    exec (.discrepancy n e) s = .next (((s.moveTo e).discShown n).post 0x43 [(24, 1, n.val), (25, 1, 0)]) := by
  have hns : (s.moveTo e).discNs n = s.discNs n := by
    unfold State.discNs
    rw [rdi_moveTo]
  rw [show exec (.discrepancy n e) s = _ from next_live hon _]
  dsimp only
  rw [sin_moveTo, if_neg (by rw [rdi_moveTo, hns, hnew]; simp [hne, htype]; omega)]
  unfold State.discShown
  rw [sin_moveTo]

theorem proofFails_sin (s : State) (n : Nat) : (s.proofFails.sin n).discDemand = (s.sin n).discDemand := by
  unfold State.proofFails State.sin
  rw [State.wr_saf]
  dsimp only
  rw [List.getD_eq_getElem?_getD, List.getD_eq_getElem?_getD, List.getElem?_map]
  cases s.saf.inputs[n]? <;> rfl

theorem discShown_shows {s : State} {n : Nat} (hn : n < 8) (hlen : s.saf.inputs.length = 8) (htype : s.rdi SAFE_IN_CFG_n.TYPE n ≠ 0) :
    bitOf ((s.discShown n).rd SAFE_STATUS.DISC) n = true ∧ ((s.discShown n).sin n).discDemand = true ∧
    bitOf ((s.discShown n).rd SAFE_STATUS.DEMAND) n = true ∧ (s.discShown n).hst = s.hst := by
  unfold State.discShown
  generalize hx : { s.sin n with disc := true, discDemand := true, pair := false, bothAt := 0, proof := if (s.sin n).proof = 3 then 3 else 0 } = x
  have hdisc : x.discDemand = true := by rw [← hx]
  generalize hu : (s.setSin n x).wr SAFE_STATUS.DISC (setBit ((s.setSin n x).rd SAFE_STATUS.DISC) n) = u
  have hsin : (u.sin n).discDemand = true := by
    rw [← hu, sin_of_saf (s := s.setSin n x) (congrArg SafeSt.inputs (State.wr_saf ..)), sin_setSin _ (by omega), hdisc]
  have hbit : bitOf (u.rd SAFE_STATUS.DISC) n = true := by
    rw [← hu, State.rd_wr_self _ _ (by decide), show SAFE_STATUS.DISC.w = 8 from rfl, bitOf_mod _ _ _ hn, bitOf_setBit]
    simp
  have hused : u.rdi SAFE_IN_CFG_n.TYPE n ≠ 0 := by
    rw [← hu]
    exact ne_of_eq_of_ne (State.rdi_wri_apart (f := SAFE_STATUS.DISC) (s.setSin n x) 0 n _ (by decide)) htype
  have hhst : u.hst = s.hst := by
    rw [← hu]
    rfl
  dsimp only
  rw [hu]
  generalize hv : (if u.rdi SAFE_IN_CFG_n.TYPE n = 2 ∧ u.rd SAFE_STATUS.PROOF ≠ 1 then u.proofFails else u) = v
  have hall : (v.sin n).discDemand = true ∧ bitOf (v.rd SAFE_STATUS.DISC) n = true ∧ v.rdi SAFE_IN_CFG_n.TYPE n ≠ 0 ∧ v.hst = s.hst := by
    rw [← hv]
    split
    · refine ⟨(proofFails_sin u n).trans hsin, ?_, ?_, hhst⟩
      · exact (congrArg (bitOf · n) (State.rd_wr_apart _ _ (by decide))).trans hbit
      · rwa [show u.proofFails.rdi SAFE_IN_CFG_n.TYPE n = u.rdi SAFE_IN_CFG_n.TYPE n from
          State.rdi_wri_apart (f := SAFE_STATUS.PROOF) _ 0 n 2 (by decide)]
    · exact ⟨hsin, hbit, hused, hhst⟩
  obtain ⟨h1, h2, h3, h4⟩ := hall
  have honly := showDemand_only v n
  refine ⟨?_, ?_, ?_, (honly.hst rfl).trans h4⟩
  · exact (congrArg (bitOf · n) (showDemand_keeps v n (by decide) 0)).trans h2
  · rw [sin_of_saf (congrArg SafeSt.inputs (honly.saf rfl)), h1]
  · rw [showDemand_bit v hn, inputDemand_used h3, h1]
    simp

/-! ### Test pulses (R426) -/

/-- Pulses missed in a row by a channel. -/
def SafeIn.missed (x : SafeIn) (b : Bool) : Nat := if b then x.missB else x.missA

/-- The record of a channel's answer to a pulse. -/
def SafeIn.answered (x : SafeIn) (b : Bool) (miss : Nat) : SafeIn := if b then { x with missB := miss } else { x with missA := miss }

theorem missed_answered (x : SafeIn) (b : Bool) (miss : Nat) : (x.answered b miss).missed b = miss := by cases b <;> rfl

/-- The state in which the inputs answer a pulse. -/
def State.pulseSent (s : State) (b : Bool) : State :=
  ({ s with saf := if b then { s.saf with tpB := (s.tm.e :: s.saf.tpB).take 3 } else { s.saf with tpA := (s.tm.e :: s.saf.tpA).take 3 } }).emit
    (.safePulse b)

section
variable {s : State} (hon : s.pwr.mainOn = true) (b : Bool) (low : Nat) {e : Nat}
include hon

theorem exec_testPulse : exec (.testPulse b low e) s = .next (if !(s.moveTo e).pulseDue b then s.moveTo e
    else (List.range 8).foldl (fun s n => s.pulseAnswer b low n) ((s.moveTo e).pulseSent b)) := next_live hon _

theorem exec_testPulse_early (h : (s.moveTo e).pulseDue b = false) : exec (.testPulse b low e) s = .next (s.moveTo e) := by
  rw [exec_testPulse hon, h]
  rfl

theorem exec_testPulse_due (h : (s.moveTo e).pulseDue b = true) : exec (.testPulse b low e) s = .next
    ((List.range 8).foldl (fun s n => s.pulseAnswer b low n) ((s.moveTo e).pulseSent b)) := by
  rw [exec_testPulse hon, h]
  rfl

end

theorem pulseSent_shows (s : State) (b : Bool) : (s.pulseSent b).regs = s.regs ∧ Out.safePulse b ∈ (s.pulseSent b).out ∧
    (s.pulseSent b).saf.inputs = s.saf.inputs ∧ (s.pulseSent b).hst = s.hst := by
  refine ⟨rfl, List.mem_append_right _ (List.mem_singleton.2 rfl), ?_, rfl⟩
  cases b <;> rfl

theorem pulseAnswer_untested {s : State} {b : Bool} {n : Nat} (low : Nat) (h : s.biti SAFE_IN_CFG_n.TP_EN n = false) :
    s.pulseAnswer b low n = s := by
  refine if_pos (.inl ?_)
  unfold State.pulsed
  rw [h]
  rfl

/-- An answer to a pulse: the channel saw it low, or missed it for the first time. -/
theorem pulseAnswer_quiet {s : State} {b : Bool} {low n : Nat} (hpulsed : s.pulsed n b = true) (htype : s.rdi SAFE_IN_CFG_n.TYPE n ≠ 0)
    (hseen : bitOf low n = true) : s.pulseAnswer b low n = s.setSin n ((s.sin n).answered b 0) := by
  unfold State.pulseAnswer
  rw [if_neg (by rw [hpulsed]; simpa using htype)]
  dsimp only
  rw [if_pos hseen]
  exact if_neg fun h => absurd h.1 (by decide)

/-- An input whose second pulse in a row is missed, before its demand. -/
def State.pulseLost (s : State) (b : Bool) (n : Nat) : State :=
  (s.setSin n ((s.sin n).answered b 2)).wr SAFE_STATUS.TP_ERR (setBit (s.rd SAFE_STATUS.TP_ERR) n)

theorem pulseAnswer_lost {s : State} {b : Bool} {low n : Nat} (hpulsed : s.pulsed n b = true) (htype : s.rdi SAFE_IN_CFG_n.TYPE n ≠ 0)
    (hmiss : bitOf low n = false) (hfirst : (s.sin n).missed b = 1) (hnew : bitOf (s.rd SAFE_STATUS.TP_ERR) n = false) :
    s.pulseAnswer b low n = ((s.pulseLost b n).demandAct n).post 0x43 [(24, 1, n), (25, 1, 1)] := by
  have htwo : (if b then (s.sin n).missB else (s.sin n).missA) + 1 = 2 := congrArg (· + 1) hfirst
  unfold State.pulseAnswer
  rw [if_neg (by rw [hpulsed]; simpa using htype)]
  dsimp only
  rw [hmiss, if_neg Bool.false_ne_true, htwo]
  refine if_pos ⟨rfl, ?_⟩
  rw [show (s.setSin n _).rd SAFE_STATUS.TP_ERR = s.rd SAFE_STATUS.TP_ERR from rfl, hnew]
  rfl

/-- The channel of an input is one of those that a pulse tests. -/
def State.tested (s : State) (b : Bool) (n : Nat) : Prop := s.pulsed n b = true ∧ s.rdi SAFE_IN_CFG_n.TYPE n ≠ 0

theorem tested_of_regs {s u : State} (h : u.regs = s.regs) (b : Bool) (n : Nat) : u.tested b n ↔ s.tested b n := by
  unfold State.tested State.pulsed State.biti
  simp only [rdi_of_regs h]

/-- What the answers of channels that all read low leave: nothing but the count of missed pulses, which never rises. -/
structure PulseSeen (b : Bool) (s t : State) : Prop where
  regs : t.regs = s.regs
  out : t.out = s.out
  len : t.saf.inputs.length = s.saf.inputs.length
  kept : ∀ m, (s.sin m).missed b = 0 → (t.sin m).missed b = 0

theorem pulseAnswer_seen {s : State} {b : Bool} {n : Nat} (hn : n < 8) (hlen : s.saf.inputs.length = 8) :
    PulseSeen b s (s.pulseAnswer b 255 n) ∧ (s.tested b n → ((s.pulseAnswer b 255 n).sin n).missed b = 0) := by
  by_cases htest : s.tested b n
  · have hseen : bitOf 255 n = true := by
      interval_cases n <;> decide
    rw [pulseAnswer_quiet htest.1 htest.2 hseen]
    have hself : ((s.setSin n ((s.sin n).answered b 0)).sin n).missed b = 0 := by
      rw [sin_setSin _ (by omega), missed_answered]
    refine ⟨⟨rfl, rfl, List.length_set, fun m hm => ?_⟩, fun _ => hself⟩
    by_cases hnm : n = m
    · exact hnm ▸ hself
    · have hother : (s.setSin n ((s.sin n).answered b 0)).sin m = s.sin m := getD_set_ne _ _ _ hnm
      rw [hother, hm]
  · have hsame : s.pulseAnswer b 255 n = s := by
      refine if_pos ?_
      unfold State.tested at htest
      by_cases hp : s.pulsed n b = true
      · exact .inr (Classical.not_not.1 fun h => htest ⟨hp, h⟩)
      · exact .inl (by rw [Bool.eq_false_iff.2 hp]; rfl)
    rw [hsame]
    exact ⟨⟨rfl, rfl, rfl, fun _ h => h⟩, fun h => absurd h htest⟩

theorem pulseAnswers_seen {b : Bool} (l : List Nat) {s : State} (hl : ∀ n ∈ l, n < 8) (hlen : s.saf.inputs.length = 8) :
    PulseSeen b s (l.foldl (fun s n => s.pulseAnswer b 255 n) s) ∧
    ∀ n ∈ l, s.tested b n → ((l.foldl (fun s n => s.pulseAnswer b 255 n) s).sin n).missed b = 0 := by
  induction l generalizing s with
  | nil => exact ⟨⟨rfl, rfl, rfl, fun _ h => h⟩, fun n hn => absurd hn List.not_mem_nil⟩
  | cons k l ih =>
    obtain ⟨hstep, hself⟩ := pulseAnswer_seen (s := s) (b := b) (hl k List.mem_cons_self) hlen
    obtain ⟨hrest, hothers⟩ := ih (s := s.pulseAnswer b 255 k) (fun n hn => hl n (List.mem_cons_of_mem _ hn)) (hstep.len.trans hlen)
    refine ⟨⟨hrest.regs.trans hstep.regs, hrest.out.trans hstep.out, hrest.len.trans hstep.len, fun m hm => hrest.kept m (hstep.kept m hm)⟩,
      fun n hn htest => ?_⟩
    rcases List.mem_cons.1 hn with rfl | hn
    · exact hrest.kept n (hself htest)
    · exact hothers n hn ((tested_of_regs hstep.regs b n).2 htest)

/-- Inputs without test pulses do not answer. -/
theorem pulseAnswers_untested {b : Bool} {low : Nat} (l : List Nat) {s : State} (h : ∀ n ∈ l, s.biti SAFE_IN_CFG_n.TP_EN n = false) :
    l.foldl (fun s n => s.pulseAnswer b low n) s = s := by
  induction l with
  | nil => rfl
  | cons k l ih =>
    rw [List.foldl_cons, pulseAnswer_untested low (h k List.mem_cons_self)]
    exact ih fun n hn => h n (List.mem_cons_of_mem _ hn)

/-- A second missed pulse in a row: TP_ERR, and the demand that it counts as. -/
theorem pulseLost_shows {s : State} {b : Bool} {n : Nat} (hn : n < 8) (hlow : 1 ≤ s.rdi SAFE_IN_CFG_n.TYPE n)
    (hhigh : s.rdi SAFE_IN_CFG_n.TYPE n ≤ 3) (hawake : s.bit PWR_STATUS.SLEEP = false) (hphases : s.rd SLC_BLOCK_STATUS.PHASES < 8) :
    bitOf (((s.pulseLost b n).demandAct n).rd SAFE_STATUS.TP_ERR) n = true ∧
    bitOf (((s.pulseLost b n).demandAct n).rd SAFE_STATUS.DEMAND) n = true ∧
    ((s.pulseLost b n).demandAct n).rd SLC_TRIP_LATCH.SAFETY_IN = 1 ∧ ((s.pulseLost b n).demandAct n).rd SLC_BLOCK_STATUS.SCOPE = 3 ∧
    s.hst.seqNo ≤ ((s.pulseLost b n).demandAct n).hst.seqNo ∧
    ∀ k, ((s.pulseLost b n).demandAct n).biti SAFE_IN_CFG_n.TP_EN k = s.biti SAFE_IN_CFG_n.TP_EN k := by
  have hcfg (f : Fld) (i : Nat) (h : apart SAFE_STATUS.TP_ERR f = true) : (s.pulseLost b n).rdi f i = s.rdi f i :=
    State.rdi_wri_apart (s.setSin n ((s.sin n).answered b 2)) 0 i _ h
  have htp : bitOf ((s.pulseLost b n).rd SAFE_STATUS.TP_ERR) n = true := by
    unfold State.pulseLost
    rw [State.rd_wr_self _ _ (by decide), show SAFE_STATUS.TP_ERR.w = 8 from rfl, bitOf_mod _ _ _ hn, bitOf_setBit]
    simp
  have hhst : (s.pulseLost b n).hst = s.hst := rfl
  have htype := hcfg SAFE_IN_CFG_n.TYPE n (by decide)
  have hsleep : (s.pulseLost b n).bit PWR_STATUS.SLEEP = false := (congrArg (· == 1) (hcfg _ 0 (by decide))).trans hawake
  have hphase : (s.pulseLost b n).rd SLC_BLOCK_STATUS.PHASES < 8 := (hcfg _ 0 (by decide)).trans_lt hphases
  have hten (k : Nat) := hcfg SAFE_IN_CFG_n.TP_EN k (by decide)
  generalize s.pulseLost b n = u at htp hhst htype hsleep hphase hten ⊢
  obtain ⟨hkeep, -, hseq⟩ := demandAct_keeps (by rwa [htype]) (by rwa [htype]) hsleep
  have hstop := demandAct_stopped (by rwa [htype]) (by rwa [htype]) hsleep hphase
  refine ⟨?_, ?_, hstop.latch, hstop.safe.1, by rwa [← hhst], fun k => ?_⟩
  · rw [← htp]
    exact congrArg (bitOf · n) ((hkeep _ 0 (by decide)).trans (showDemand_keeps u n (by decide) 0))
  · refine (congrArg (bitOf · n) (hkeep SAFE_STATUS.DEMAND 0 (by decide))).trans ((showDemand_bit u hn).trans ?_)
    rw [inputDemand_used (by omega), htp, Bool.or_true]
  · exact congrArg (· == 1) ((hkeep _ k (by decide)).trans ((showDemand_keeps u n (by decide) k).trans (hten k)))

/-! ### The breaker's feedback (R428) -/

theorem exec_brkFeedbackTimeout {s : State} (hon : s.pwr.mainOn = true) {n : Fin 8} {e : Nat} (htype : s.rdi SAFE_IN_CFG_n.TYPE n = 4)
    (hbrk : s.rd SLC_BLOCK_STATUS.BRK = 1) (ha : (s.sin n).a = false) (hb : (s.sin n).b = false)
    (hlate : s.slc.brkAt + s.discNs n ≤ (s.moveTo e).tm.e) (hnew : s.rd SAFE_STATUS.BRK_FB_ERR = 0) : exec (.brkFeedbackTimeout n e) s =
    .next (((s.moveTo e).wr SAFE_STATUS.BRK_FB_ERR 1).post 0x43 [(24, 1, n.val), (25, 1, 2)]) := by
  have hns : (s.moveTo e).discNs n = s.discNs n := by
    unfold State.discNs
    rw [rdi_moveTo]
  rw [show exec (.brkFeedbackTimeout n e) s = _ from next_live hon _]
  dsimp only
  rw [sin_moveTo, if_pos ⟨by rw [rdi_moveTo, htype], by rw [rd_moveTo, hbrk], by rw [ha, hb]; rfl, by rw [s.moveTo_slc, hns]; exact hlate,
    by rw [rd_moveTo, hnew]⟩]

end Sys2Proof.Machine
end

section
/-! PROOFS. Safety inputs (12_safety.md R423 to R428): O13 settled. -/
namespace Sys2Proof.Machine
open Reg

/-- Channel B of an input that is not antivalent, and channel A of any, are tested. -/
theorem pulsed_of {s : State} {b : Bool} {n : Nat} (htp : s.biti SAFE_IN_CFG_n.TP_EN n = true) (hanti : b = true → s.biti SAFE_IN_CFG_n.ANTI n = false) :
    s.pulsed n b = true := by
  unfold State.pulsed
  rw [htp]
  cases b
  · rfl
  · rw [hanti rfl]
    rfl

/-- The pulses of an output of which one input alone is tested, and misses its second in a row. -/
theorem pulses_lost {s : State} {n : Fin 8} {b : Bool} (hothers : ∀ k, k ≠ n.val → s.biti SAFE_IN_CFG_n.TP_EN k = false)
    (htp : s.biti SAFE_IN_CFG_n.TP_EN n = true) (hlow : 1 ≤ s.rdi SAFE_IN_CFG_n.TYPE n) (hhigh : s.rdi SAFE_IN_CFG_n.TYPE n ≤ 3)
    (hanti : s.biti SAFE_IN_CFG_n.ANTI n = false) (hfirst : (s.sin n).missed b = 1) (hnew : bitOf (s.rd SAFE_STATUS.TP_ERR) n = false)
    (hawake : s.bit PWR_STATUS.SLEEP = false) (hphases : s.rd SLC_BLOCK_STATUS.PHASES < 8) :
    (List.range 8).foldl (fun s n => s.pulseAnswer b 0 n) s = ((s.pulseLost b n).demandAct n).post 0x43 [(24, 1, n.val), (25, 1, 1)] := by
  have hlost : s.pulseAnswer b 0 n = ((s.pulseLost b n).demandAct n).post 0x43 [(24, 1, n.val), (25, 1, 1)] :=
    pulseAnswer_lost (pulsed_of htp fun _ => hanti) (by omega) (by simp [bitOf]) hfirst hnew
  obtain ⟨-, -, -, -, -, hten⟩ := pulseLost_shows (b := b) n.isLt hlow hhigh hawake hphases
  obtain ⟨l1, l2, hsplit⟩ := List.append_of_mem (List.mem_range.2 n.isLt)
  have hnodup : (l1 ++ n.val :: l2).Nodup := hsplit ▸ List.nodup_range
  have hnot : n.val ∉ l1 ++ l2 := (List.nodup_cons.1 (List.nodup_middle.1 hnodup)).1
  have hfar (k : Nat) (hk : k ∈ l1 ∨ k ∈ l2) : s.biti SAFE_IN_CFG_n.TP_EN k = false :=
    hothers k fun h => hnot (h ▸ List.mem_append.2 hk)
  rw [hsplit, List.foldl_append, List.foldl_cons, pulseAnswers_untested l1 fun k hk => hfar k (.inl hk), hlost]
  refine pulseAnswers_untested l2 fun k hk => ?_
  rw [← hfar k (.inr hk), ← hten k]
  exact congrArg (· == 1) ((State.post_only _ _ _).rdi _ k (by decide))

/-- Settles O13: a level by what its filter decides and what its channel comes to, a discrepancy, a pulse and the breaker's feedback by
what they show. -/
theorem safetyInputCommands : Obligations.SafetyInputCommands := by
  refine ⟨fun s n b lv since e hon hlen hlv hheld hrest hlow hhigh hawake hphases => ?_, fun s n b lv since e hon htype hrest hlv hheld => ?_,
    fun s n b lv since e hon => ⟨fun hlevel => ?_, fun hlevel => ?_⟩, fun s n b lv since e hon hshort => ?_,
    fun s n b lv since e hon hlen hlv hheld => ?_,
    fun s n e hon hlen hne htype hnew hlate => ⟨_, exec_discrepancy hon hne htype hnew hlate, ?_⟩,
    fun s b low e hon hearly => exec_testPulse_early hon b low hearly, fun s b e hon hlen hdue => ⟨_, exec_testPulse_due hon b 255 hdue, ?_⟩,
    fun s n b e hon hlen hdue hothers htp hlow hhigh hanti hfirst hnew hawake hphases => ⟨_, exec_testPulse_due hon b 0 hdue, ?_⟩,
    fun s n e hon htype hbrk ha hb hlate hnew => ⟨_, exec_brkFeedbackTimeout hon htype hbrk ha hb hlate hnew, ?_⟩⟩
  · refine ⟨_, (exec_safetyInputDemand hon).trans (congrArg _ (if_pos (filterDecides_demand hlv hheld))), ?_⟩
    exact channelDemand_shows n.isLt (by rwa [s.moveTo_saf]) (by rw [sin_moveTo]; exact hrest) (by rwa [rdi_moveTo]) (by rwa [rdi_moveTo])
      (by rwa [moveTo_bit]) (by rwa [rd_moveTo])
  · refine ⟨_, (exec_safetyInputDemand hon).trans (congrArg _ (if_pos (filterDecides_demand hlv hheld))), ?_⟩
    obtain ⟨h1, h2, h3⟩ := channelDemand_ignored (s := s.moveTo e) (b := b) n.isLt (by rwa [rdi_moveTo]) (by rw [sin_moveTo]; exact hrest)
    exact ⟨h1, h2.trans (rd_moveTo s e _), h3.trans (rd_moveTo s e _)⟩
  · rw [exec_safetyInputDemand hon, channelDemand_same (by rw [sin_moveTo]; exact hlevel), ite_self]
  · rw [exec_safetyInputRelease hon, channelRest_same (by rw [sin_moveTo]; exact hlevel), ite_self]
  · rw [exec_safetyInputDemand hon, exec_safetyInputRelease hon, filterDecides_short _ hshort, filterDecides_short _ hshort]
    exact ⟨rfl, rfl⟩
  · refine ⟨_, (exec_safetyInputRelease hon).trans (congrArg _ (if_pos (filterDecides_rest hlv hheld))), ?_⟩
    obtain ⟨h1, h2, h3, h4⟩ := channelRest_shows (s := s.moveTo e) (b := b) n.isLt (by rwa [s.moveTo_saf])
    rw [sin_moveTo, rd_moveTo] at h2
    refine ⟨h1, fun hdemand hother => h2 hdemand ?_, h3.trans (rd_moveTo s e _), h4.trans (rd_moveTo s e _)⟩
    cases b <;> exact hother
  · obtain ⟨h1, h2, h3, h4⟩ := discShown_shows (s := s.moveTo e) n.isLt (by rwa [s.moveTo_saf]) (by rwa [rdi_moveTo])
    have hpost := State.post_only ((s.moveTo e).discShown n) 0x43 [(24, 1, n.val), (25, 1, 0)]
    refine ⟨?_, ?_, ?_, ?_⟩
    · rw [hpost.rd _ (by decide), h1]
    · rw [sin_of_saf (congrArg SafeSt.inputs (hpost.saf rfl)), h2]
    · rw [hpost.rd _ (by decide), h3]
    · rw [← s.moveTo_hst e, ← h4]
      exact State.post_seqNo ..
  · obtain ⟨hregs, hout, hinputs, -⟩ := pulseSent_shows (s.moveTo e) b
    obtain ⟨hseen, hzero⟩ := pulseAnswers_seen (b := b) (List.range 8) (s := (s.moveTo e).pulseSent b) (fun n hn => List.mem_range.1 hn)
      (by rw [hinputs, s.moveTo_saf, hlen])
    refine ⟨hseen.regs.trans (hregs.trans (moveTo_regs s e)), by rw [hseen.out]; exact hout, fun n htp htype hanti => ?_⟩
    refine hzero n (List.mem_range.2 n.isLt) ((tested_of_regs (hregs.trans (moveTo_regs s e)) b n).2 ⟨pulsed_of htp hanti, htype⟩)
  · obtain ⟨hregs, -, hinputs, hhst⟩ := pulseSent_shows (s.moveTo e) b
    have hall := hregs.trans (moveTo_regs s e)
    have hrdi (f : Fld) (i : Nat) : ((s.moveTo e).pulseSent b).rdi f i = s.rdi f i := rdi_of_regs hall f i
    have hbiti (f : Fld) (i : Nat) : ((s.moveTo e).pulseSent b).biti f i = s.biti f i := congrArg (· == 1) (hrdi f i)
    have hsin : ((s.moveTo e).pulseSent b).sin n = s.sin n := (sin_of_saf hinputs n).trans (sin_moveTo s e n)
    have hhst' : ((s.moveTo e).pulseSent b).hst = s.hst := hhst.trans (s.moveTo_hst e)
    have hsleep : ((s.moveTo e).pulseSent b).bit PWR_STATUS.SLEEP = false := (hbiti _ 0).trans hawake
    have hphase : ((s.moveTo e).pulseSent b).rd SLC_BLOCK_STATUS.PHASES < 8 := (hrdi _ 0).trans_lt hphases
    have htpErr : bitOf (((s.moveTo e).pulseSent b).rd SAFE_STATUS.TP_ERR) n = false := (congrArg (bitOf · n) (hrdi _ 0)).trans hnew
    generalize (s.moveTo e).pulseSent b = u at *
    rw [pulses_lost (fun k hk => (hbiti _ k).trans (hothers k hk)) ((hbiti _ _).trans htp) (by rwa [hrdi]) (by rwa [hrdi])
      ((hbiti _ _).trans hanti) (by rw [hsin]; exact hfirst) htpErr hsleep hphase]
    obtain ⟨h1, h2, h3, h4, h5, -⟩ := pulseLost_shows (b := b) (s := u) n.isLt (by rwa [hrdi]) (by rwa [hrdi]) hsleep hphase
    generalize (u.pulseLost b n).demandAct n = v at *
    have hpost := State.post_only v 0x43 [(24, 1, n.val), (25, 1, 1)]
    refine ⟨by rw [hpost.rd _ (by decide), h1], by rw [hpost.rd _ (by decide), h2], by rw [hpost.rd _ (by decide), h3],
      by rw [hpost.rd _ (by decide), h4], ?_⟩
    rw [← hhst']
    exact h5.trans_lt (State.post_seqNo ..)
  · refine ⟨((State.post_only _ _ _).rd _ (by decide)).trans (State.rd_wr_self _ _ (by decide)), ?_⟩
    have hkeep : ((s.moveTo e).wr SAFE_STATUS.BRK_FB_ERR 1).hst.seqNo = s.hst.seqNo := congrArg HostSt.seqNo (s.moveTo_hst e)
    exact hkeep.symm.trans_lt (State.post_seqNo ..)

end Sys2Proof.Machine
end

section
/-! PROOFS. Doorbells and the states of the host rings (14_host_interface.md R500, R502, R503, R532, R533, R535): O31. -/
namespace Sys2Proof.Machine
open Reg

/-! ### Doorbells (R500) -/

theorem bell_value (v : Nat) : unsg 32 (sgn 32 v) % 65536 = v % 65536 := by
  unfold unsg sgn
  split <;> omega

/-- The record of a ring's change of state waits in the EVENT ring's queue alone. -/
theorem queueRingState_kept (s : State) (r old new : Nat) : HostKept s.hst (s.queueRingState r old new).hst := by
  unfold State.queueRingState
  split
  · exact .refl _
  · exact State.queueAt_kept ..

/-- A ring that halts keeps its host counter. -/
theorem haltError_ctr (s : State) (r status n : Nat) : (s.haltError r status).hostCtr n = s.hostCtr n := by
  unfold State.haltError State.hostCtr
  dsimp only
  rw [(State.drain_kept ..).ctr, (queueRingState_kept ..).ctr, State.haltRing_hst]

section
variable {s : State} {r v : Nat}

theorem ringDoorbell_idle (h : s.stage < 2 ∨ s.hst.d3 = true ∨ s.rdi RING_STATE_n.STATE r = 0) : s.ringDoorbell r v = s := if_pos h

theorem ringDoorbell_invalid (hstage : 2 ≤ s.stage) (hd3 : s.hst.d3 = false) (hactive : s.rdi RING_STATE_n.STATE r = 1)
    (hbad : s.doorbellValid r (v % 65536) = false) : s.ringDoorbell r v = s.haltError r 0x20 := by
  unfold State.ringDoorbell
  dsimp only
  rw [if_neg (by rw [hd3, hactive]; simp; omega), hbad]
  exact if_pos hactive

theorem ringDoorbell_valid (hstage : 2 ≤ s.stage) (hd3 : s.hst.d3 = false) (hactive : s.rdi RING_STATE_n.STATE r ≠ 0)
    (hgood : s.doorbellValid r (v % 65536) = true) (htype : s.rdi RING_CFG_n.TYPE r ≠ 2) : s.ringDoorbell r v =
    if (s.rdi RING_CFG_n.TYPE r = 0 ∨ s.rdi RING_CFG_n.TYPE r = 3) ∧ (s.setHostCtr r (v % 65536)).bit PWR_STATUS.SLEEP ∧
      (s.setHostCtr r (v % 65536)).bit PWR_WAKE_EN.DOORBELL then (s.setHostCtr r (v % 65536)).wake 0 else s.setHostCtr r (v % 65536) := by
  unfold State.ringDoorbell
  dsimp only
  rw [if_neg (by rw [hd3]; simp; omega), hgood, if_neg (by decide), if_neg htype]

end

theorem hostCtr_setHostCtr (s : State) (r v : Nat) : (s.setHostCtr r v).hostCtr r = v % 65536 := tget_tput_self ..

theorem wake_ctr (s : State) (bit r : Nat) : (s.wake bit).hostCtr r = s.hostCtr r := by
  unfold State.wake State.powerEvent State.hostCtr
  rw [(State.post_kept ..).ctr]
  rfl

/-! ### A change of state of a ring (R502) -/

/-- A ring that changes its state stands at it, and keeps what the change does not name. -/
structure RingMoved (r new : Nat) (s t : State) : Prop where
  state : t.rdi RING_STATE_n.STATE r = new
  cons : t.rdi RING_STATE_n.CONS r = s.rdi RING_STATE_n.CONS r
  fault : t.rdi RING_FAULT_n.STATUS r = s.rdi RING_FAULT_n.STATUS r
  ctr : t.hostCtr r = s.hostCtr r

theorem setRingState_moved (s : State) {r new : Nat} (hr : r < 64) (hnew : new < 8) (hev : s.evRing 0x90 ≠ r) :
    RingMoved r new s (s.setRingState r new) where
  state := s.setRingState_state hr hnew hev
  cons := setState_cons s r new hev
  fault := setState_fault s r new hev
  ctr := congrArg (fun c => tget (fun _ => 0) c r) (s.setRingState_kept r new).ctr

/-- A change of state of a ring leaves the fields that it does not name. -/
theorem setRingState_field (s : State) {r new : Nat} {f : Fld} (i : Nat) (h : State.drainFields.all (fun x => apart x f) = true) :
    (s.setRingState r new).rdi f i = s.rdi f i := s.setRingState_off (od_ap f h) (od_ap f h)

/-- It leaves the states, counters and faults of the other rings, but for the EVENT ring's. -/
theorem setRingState_other (s : State) {r new j : Nat} {f : Fld} (hf : f ∈ State.drainFields) (hr : r ≠ j) (hev : s.evRing 0x90 ≠ j) :
    (s.setRingState r new).rdi f j = s.rdi f j := s.setRingState_off (od_ne f hf hev) (od_ne f hf hr)

theorem refused_shows (s : State) (r : Nat) : (s.refuse HOST_STATUS.CFG_ERR).rd HOST_STATUS.CFG_ERR = 1 ∧
    (s.refuse HOST_STATUS.CFG_ERR).rdi RING_STATE_n.STATE r = s.rdi RING_STATE_n.STATE r :=
  ⟨rd_refuse_self s rfl (by decide), s.rdi_wri_apart 0 r 1 (by decide)⟩

/-! ### Enabling (R502, R532) -/

section
variable {s : State} (hon : s.pwr.mainOn = true) (hd3 : s.hst.d3 = false)
include hon hd3

/-- A write of the host through a BAR, in D0. -/
theorem byBar_open (g : State → State) : (.next (s.byBar g) : Host.Outcome State Fault Refusal) = .next (g s) :=
  (next_live hon _).trans (congrArg _ (if_neg (by rw [hd3]; decide)))

end

theorem byBar_shut {s : State} (hon : s.pwr.mainOn = true) (hd3 : s.hst.d3 = true) (g : State → State) :
    (.next (s.byBar g) : Host.Outcome State Fault Refusal) = .next s :=
  (next_live hon _).trans (congrArg _ (if_pos hd3))

/-- RING_CFG_n's row of the register table (R532). -/
def ringCfgRow : RegRow :=
  ⟨"RING_CFG_n", 0x90100, 64, [⟨RING_CFG_n.EN, .rw, [0], .none⟩, ⟨RING_CFG_n.TYPE, .rw, [0], .none⟩, ⟨RING_CFG_n.SIZE, .rw, [4], .u 4 12⟩,
    ⟨RING_CFG_n.CRING, .rw, [0], .none⟩, ⟨RING_CFG_n.VECTOR, .rw, [0], .none⟩, ⟨RING_CFG_n.IRQ_EN, .rw, [0], .none⟩,
    ⟨RING_CFG_n.COAL_CNT, .rw, [0], .none⟩, ⟨RING_CFG_n.COAL_US, .rw, [0], .none⟩]⟩

theorem ringCfgRow_entry (r : Fin 64) : regAt (RING_CFG_n.EN.off r) = some ringCfgRow := by revert r; decide

theorem inRange_ringCfg (r : Fin 64) {v : Nat} (hlo : 4 ≤ bits v 25 4) (hhi : bits v 25 4 ≤ 12) : inRange (RING_CFG_n.EN.off r) v = true := by
  rw [inRange_at (ringCfgRow_entry r)]
  simp [ringCfgRow, Lim.ok, RING_CFG_n.EN, RING_CFG_n.TYPE, RING_CFG_n.SIZE, RING_CFG_n.CRING, RING_CFG_n.VECTOR, RING_CFG_n.IRQ_EN,
    RING_CFG_n.COAL_CNT, RING_CFG_n.COAL_US]
  omega

/-- The word that enables a ring: EN set. -/
def enabling (v : Nat) : Nat := v % 2 ^ 31 + 2 ^ 31

theorem bits_enabling {v lo w : Nat} (h : lo + w ≤ 31) : bits (enabling v) lo w = bits v lo w := by
  have hdvd : 2 ^ lo * 2 ^ w ∣ 2 ^ 31 := by
    rw [← Nat.pow_add]
    exact Nat.pow_dvd_pow 2 h
  unfold bits enabling
  rw [← Nat.mod_mul_right_div_self, ← Nat.mod_mul_right_div_self, Nat.add_mod, Nat.mod_mod_of_dvd _ hdvd, Nat.mod_eq_zero_of_dvd hdvd, Nat.add_zero,
    Nat.mod_mod]

theorem enabling_en (v : Nat) : bits (enabling v) 31 1 = 1 := by
  unfold enabling bits
  omega

/-- A ring configured and empty, before it is ACTIVE. -/
def State.ringFresh (s : State) (r v : Nat) : State :=
  (((s.putRwi RING_CFG_n.EN r v).wri RING_STATE_n.CONS r 0).wri RING_STATE_n.INFLIGHT r 0).setHostCtr r 0

theorem writeRingCfg_taken {s : State} {r : Fin 64} {v : Nat} (hdisabled : s.rdi RING_STATE_n.STATE r = 0)
    (hrange : inRange (RING_CFG_n.EN.off r) v = true) (hen : bits v 31 1 = 1) (hvalid : s.ringCfgValid v = true) (htype : bits v 29 2 ≠ 2) :
    s.writeRingCfg r v = { (s.ringFresh r v).setRingState r 1 with hst := { ((s.ringFresh r v).setRingState r 1).hst with
      doneCtr := tdel ((s.ringFresh r v).setRingState r 1).hst.doneCtr r } } := by
  unfold State.writeRingCfg
  rw [if_neg (by simp [hdisabled, hrange]), if_neg (by omega), if_neg (by simp [hvalid])]
  dsimp only
  rw [if_neg htype]
  rfl

theorem writeRingCfg_enabled {s : State} {r : Fin 64} {v : Nat} (h : s.rdi RING_STATE_n.STATE r ≠ 0) :
    s.writeRingCfg r v = s.refuse HOST_STATUS.CFG_ERR := if_pos (.inl h)

theorem ringFresh_shows (s : State) (r : Fin 64) (v : Nat) : (s.ringFresh r v).rdi RING_STATE_n.CONS r = 0 ∧ (s.ringFresh r v).hostCtr r = 0 ∧
    (s.ringFresh r v).evRing 0x90 = s.evRing 0x90 ∧
    ∀ f ∈ ringCfgRow.writable.map FieldRow.f, (s.ringFresh r v).rdi f r = bits v f.lo f.w := by
  have hregs (f : Fld) (i : Nat) : (s.ringFresh r v).rdi f i =
      (((s.putRwi RING_CFG_n.EN r v).wri RING_STATE_n.CONS r 0).wri RING_STATE_n.INFLIGHT r 0).rdi f i := rdi_of_regs rfl f i
  refine ⟨?_, hostCtr_setHostCtr .., ev_apart ?_, fun f hf => ?_⟩
  · rw [hregs, State.rdi_wri_apart _ _ _ _ (by decide), State.rdi_wri_self _ _ r.isLt]
    rfl
  · rw [hregs, State.rdi_wri_apart _ _ _ _ (by decide), State.rdi_wri_apart _ _ _ _ (by decide)]
    have hword : RING_CFG_n.EN.off r % 4 = 0 ∧ HOST_EVT_CFG.EVT_RING.off 0 ≠ RING_CFG_n.EN.off r := by
      have hoff : RING_CFG_n.EN.off r = 0x90100 + 4 * r.val := rfl
      have hevt : HOST_EVT_CFG.EVT_RING.off 0 = 0x80004 := rfl
      omega
    exact WordsKept.putRwi (err := HOST_STATUS.CFG_ERR) hword.1 (List.mem_singleton.2 rfl) _ 0 (by simpa using hword.2) (by decide)
  · have hfield : ∀ g ∈ ringCfgRow.writable.map FieldRow.f, apart RING_STATE_n.CONS g = true ∧ apart RING_STATE_n.INFLIGHT g = true ∧ g.count = 64 := by
      decide
    obtain ⟨hcons, hflight, hcount⟩ := hfield f hf
    rw [hregs, State.rdi_wri_apart _ _ _ _ hflight, State.rdi_wri_apart _ _ _ _ hcons]
    exact putRwi_takes (ringCfgRow_entry r) rfl (by decide) r.isLt _ v hf (by rw [hcount]; exact r.isLt)

/-! ### Restart and reset (R502, R535) -/

/-- A ring restarted: its fault cleared, ACTIVE. -/
def State.restarted (s : State) (r : Nat) : State :=
  (((s.wri RING_FAULT_n.STATUS r 0).wri RING_FAULT_n.ACCESS r 0).wri RING_FAULT_n.PAGE r 0).setRingState r 1

section
variable {s : State} {r : Nat}

theorem ringRestart_taken (hstate : s.rdi RING_STATE_n.STATE r = 3 ∨ s.rdi RING_STATE_n.STATE r = 4 ∨ s.rdi RING_STATE_n.STATE r = 5) :
    s.ringRestart r =
      if ((s.restarted r).rdi RING_CFG_n.TYPE r = 0 ∨ (s.restarted r).rdi RING_CFG_n.TYPE r = 3) ∧
        (s.restarted r).rdi RING_STATE_n.STATE ((s.restarted r).rdi RING_CFG_n.CRING r) = 0 then (s.restarted r).haltError r 0x21
      else if (s.restarted r).rdi RING_CFG_n.TYPE r = 2 then (s.restarted r).drain r else s.restarted r := if_pos hstate

theorem ringRestart_refused (h : ¬(s.rdi RING_STATE_n.STATE r = 3 ∨ s.rdi RING_STATE_n.STATE r = 4 ∨ s.rdi RING_STATE_n.STATE r = 5)) :
    s.ringRestart r = s.refuse HOST_STATUS.CFG_ERR := if_neg h

end

/-- The faults of a ring cleared. -/
theorem faultCleared_keeps (s : State) (r i : Nat) {f : Fld} (h1 : apart RING_FAULT_n.STATUS f = true) (h2 : apart RING_FAULT_n.ACCESS f = true)
    (h3 : apart RING_FAULT_n.PAGE f = true) :
    (((s.wri RING_FAULT_n.STATUS r 0).wri RING_FAULT_n.ACCESS r 0).wri RING_FAULT_n.PAGE r 0).rdi f i = s.rdi f i := by
  rw [State.rdi_wri_apart _ _ _ _ h3, State.rdi_wri_apart _ _ _ _ h2, State.rdi_wri_apart _ _ _ _ h1]

/-- What a restarted ring shows. -/
theorem restarted_shows (s : State) {r : Nat} (hr : r < 64) (hev : s.evRing 0x90 ≠ r) :
    (s.restarted r).rdi RING_STATE_n.STATE r = 1 ∧ (s.restarted r).rdi RING_FAULT_n.STATUS r = 0 ∧
    (s.restarted r).rdi RING_STATE_n.CONS r = s.rdi RING_STATE_n.CONS r ∧ (s.restarted r).hostCtr r = s.hostCtr r ∧
    (s.restarted r).evRing 0x90 = s.evRing 0x90 ∧ (s.restarted r).rdi RING_CFG_n.TYPE r = s.rdi RING_CFG_n.TYPE r ∧
    (s.restarted r).rdi RING_CFG_n.CRING r = s.rdi RING_CFG_n.CRING r ∧
    ∀ j, j ≠ r → j ≠ s.evRing 0x90 → (s.restarted r).rdi RING_STATE_n.STATE j = s.rdi RING_STATE_n.STATE j := by
  unfold State.restarted
  have hcleared := faultCleared_keeps s r
  have hstatus : (((s.wri RING_FAULT_n.STATUS r 0).wri RING_FAULT_n.ACCESS r 0).wri RING_FAULT_n.PAGE r 0).rdi RING_FAULT_n.STATUS r = 0 := by
    rw [State.rdi_wri_apart _ _ _ _ (by decide), State.rdi_wri_apart _ _ _ _ (by decide), State.rdi_wri_self _ _ hr]
    rfl
  have hhst : (((s.wri RING_FAULT_n.STATUS r 0).wri RING_FAULT_n.ACCESS r 0).wri RING_FAULT_n.PAGE r 0).hst = s.hst := by
    simp only [State.wri_hst]
  generalize ((s.wri RING_FAULT_n.STATUS r 0).wri RING_FAULT_n.ACCESS r 0).wri RING_FAULT_n.PAGE r 0 = u at hcleared hstatus hhst ⊢
  have huev : u.evRing 0x90 = s.evRing 0x90 := ev_apart (hcleared 0 (by decide) (by decide) (by decide))
  obtain ⟨h1, h2, h3, h4⟩ := setRingState_moved u (new := 1) hr (by decide) (by rwa [huev])
  refine ⟨h1, h3.trans hstatus, h2.trans (hcleared r (by decide) (by decide) (by decide)), ?_, ?_, ?_, ?_, fun j hj hne => ?_⟩
  · rw [h4]
    unfold State.hostCtr
    rw [hhst]
  · rw [← huev]
    exact ev_apart (setRingState_field u 0 (by decide))
  · exact (setRingState_field u r (by decide)).trans (hcleared r (by decide) (by decide) (by decide))
  · exact (setRingState_field u r (by decide)).trans (hcleared r (by decide) (by decide) (by decide))
  · exact (setRingState_other u (by decide) hj.symm (by rw [huev]; exact hne.symm)).trans (hcleared j (by decide) (by decide) (by decide))

/-- The rings that name a COMPLETION ring that was reset halt (R502). -/
def State.haltsBadCring (s : State) (r n : Nat) : State :=
  if s.rdi RING_STATE_n.STATE n = 1 ∧ (s.rdi RING_CFG_n.TYPE n = 0 ∨ s.rdi RING_CFG_n.TYPE n = 3) ∧ s.rdi RING_CFG_n.CRING n = r then
    s.haltError n 0x21 else s

section
variable {s : State} {r : Nat}

theorem ringReset_taken (hstate : s.rdi RING_STATE_n.STATE r = 3 ∨ s.rdi RING_STATE_n.STATE r = 4 ∨ s.rdi RING_STATE_n.STATE r = 5)
    (hidle : s.rdi RING_STATE_n.INFLIGHT r = 0) : s.ringReset r =
      if s.rdi RING_CFG_n.TYPE r == 1 then (List.range 64).foldl (fun s n => s.haltsBadCring r n) (s.setRingState r 0)
      else s.setRingState r 0 := if_pos ⟨hstate, hidle⟩

theorem ringReset_refused (h : ¬((s.rdi RING_STATE_n.STATE r = 3 ∨ s.rdi RING_STATE_n.STATE r = 4 ∨ s.rdi RING_STATE_n.STATE r = 5) ∧
    s.rdi RING_STATE_n.INFLIGHT r = 0)) : s.ringReset r = s.refuse HOST_STATUS.CFG_ERR := if_neg h

end

/-- What the halt of a ring leaves: the configuration of every ring, and the state and the fault of the others but the EVENT ring's. -/
theorem haltsBadCring_keeps (s : State) (r n : Nat) : (s.haltsBadCring r n).evRing 0x90 = s.evRing 0x90 ∧
    (∀ j, (s.haltsBadCring r n).rdi RING_CFG_n.TYPE j = s.rdi RING_CFG_n.TYPE j ∧
      (s.haltsBadCring r n).rdi RING_CFG_n.CRING j = s.rdi RING_CFG_n.CRING j) ∧
    ∀ f ∈ State.drainFields, ∀ j, j ≠ n → j ≠ s.evRing 0x90 → (s.haltsBadCring r n).rdi f j = s.rdi f j := by
  unfold State.haltsBadCring
  split
  · exact ⟨ev_apart (haltError_off _ _ _ _ _ (od_ap _ (by decide)) (od_ap _ (by decide))),
      fun j => ⟨haltError_off _ _ _ _ _ (od_ap _ (by decide)) (od_ap _ (by decide)),
        haltError_off _ _ _ _ _ (od_ap _ (by decide)) (od_ap _ (by decide))⟩,
      fun f hf j hn hev => haltError_off _ _ _ _ _ (od_ne f hf hn.symm) (od_ne f hf hev.symm)⟩
  · exact ⟨rfl, fun j => ⟨rfl, rfl⟩, fun _ _ _ _ _ => rfl⟩

/-- The halts leave a ring that is not among them. -/
theorem haltsBadCring_skips (r : Nat) (l : List Nat) {s : State} {j : Nat} (hj : j ∉ l) (hev : j ≠ s.evRing 0x90) {f : Fld}
    (hf : f ∈ State.drainFields) : (l.foldl (fun s n => s.haltsBadCring r n) s).rdi f j = s.rdi f j := by
  induction l generalizing s with
  | nil => rfl
  | cons n l ih =>
    obtain ⟨hkeep, -, hother⟩ := haltsBadCring_keeps s r n
    rw [List.foldl_cons, ih (fun h => hj (List.mem_cons_of_mem _ h)) (by rwa [hkeep])]
    exact hother f hf j (fun h => hj (h ▸ List.mem_cons_self)) hev

/-- Among the halts a ring that is ACTIVE and names the COMPLETION ring halts with BAD_CRING, and one that is DISABLED stays so. -/
theorem haltsBadCring_each (r : Nat) (l : List Nat) (hnodup : l.Nodup) {s : State} {j : Nat} (hmem : j ∈ l) (hj : j < 64) (hev : j ≠ s.evRing 0x90) :
    (s.rdi RING_STATE_n.STATE j = 0 → (l.foldl (fun s n => s.haltsBadCring r n) s).rdi RING_STATE_n.STATE j = 0) ∧
    (s.rdi RING_STATE_n.STATE j = 1 → s.rdi RING_CFG_n.TYPE j = 0 ∨ s.rdi RING_CFG_n.TYPE j = 3 → s.rdi RING_CFG_n.CRING j = r →
      (l.foldl (fun s n => s.haltsBadCring r n) s).rdi RING_STATE_n.STATE j = 5 ∧
      (l.foldl (fun s n => s.haltsBadCring r n) s).rdi RING_FAULT_n.STATUS j = 0x21) := by
  induction l generalizing s with
  | nil => exact absurd hmem List.not_mem_nil
  | cons n l ih =>
    obtain ⟨hn, hnodup⟩ := List.nodup_cons.1 hnodup
    obtain ⟨hkeep, hcfg, hother⟩ := haltsBadCring_keeps s r n
    rw [List.foldl_cons]
    by_cases hjn : j = n
    · subst hjn
      rw [haltsBadCring_skips r l hn (by rwa [hkeep]) (by decide), haltsBadCring_skips r l hn (by rwa [hkeep]) (by decide)]
      unfold State.haltsBadCring
      refine ⟨fun h => ?_, fun h1 h2 h3 => ?_⟩
      · rw [if_neg (fun hc => absurd (h.symm.trans hc.1) (by decide)), h]
      · rw [if_pos ⟨h1, h2, h3⟩]
        exact haltError_state s j 0x21 hj (by decide) hev.symm
    · have hlater := ih hnodup (s := s.haltsBadCring r n) ((List.mem_cons.1 hmem).resolve_left hjn) (by rwa [hkeep])
      rwa [hother _ (by decide) j hjn hev, (hcfg j).1, (hcfg j).2] at hlater

end Sys2Proof.Machine
end

section
/-! PROOFS. The host's rings (14_host_interface.md R500, R502, R503): O31 settled. -/
namespace Sys2Proof.Machine
open Reg

/-- What an enabled ring shows (R502, R532). -/
theorem ringEnabled_shows {s : State} {r : Fin 64} {v : Nat} (hev : s.evRing 0x90 ≠ r) (hdisabled : s.rdi RING_STATE_n.STATE r = 0)
    (hlo : 4 ≤ bits v 25 4) (hhi : bits v 25 4 ≤ 12) (hvalid : s.ringCfgValid (enabling v) = true) (htype : bits v 29 2 ≠ 2) :
    (s.writeRingCfg r (enabling v)).rdi RING_STATE_n.STATE r = 1 ∧ (s.writeRingCfg r (enabling v)).rdi RING_STATE_n.CONS r = 0 ∧
    (s.writeRingCfg r (enabling v)).hostCtr r = 0 ∧ (s.writeRingCfg r (enabling v)).rdi RING_CFG_n.EN r = 1 ∧
    (s.writeRingCfg r (enabling v)).rdi RING_CFG_n.TYPE r = bits v 29 2 ∧ (s.writeRingCfg r (enabling v)).rdi RING_CFG_n.SIZE r = bits v 25 4 ∧
    (s.writeRingCfg r (enabling v)).rdi RING_CFG_n.CRING r = bits v 19 6 ∧ (s.writeRingCfg r (enabling v)).rdi RING_CFG_n.VECTOR r = bits v 13 6 ∧
    (s.writeRingCfg r (enabling v)).rdi RING_CFG_n.COAL_US r = bits v 0 6 := by
  rw [← bits_enabling (by decide)] at hlo hhi htype
  rw [writeRingCfg_taken hdisabled (inRange_ringCfg r hlo hhi) (enabling_en v) hvalid htype]
  obtain ⟨hcons, hctr, hkeep, hfields⟩ := ringFresh_shows s r (enabling v)
  generalize s.ringFresh r (enabling v) = u at hcons hctr hkeep hfields ⊢
  have hmoved := setRingState_moved u (new := 1) r.isLt (by decide) (by rwa [hkeep])
  generalize hw : ({ u.setRingState r 1 with hst := { (u.setRingState r 1).hst with doneCtr := tdel (u.setRingState r 1).hst.doneCtr r } } : State) = w
  have hrdi (f : Fld) : w.rdi f r = (u.setRingState r 1).rdi f r := by
    rw [← hw]
    rfl
  have hfield (f : Fld) (hf : f ∈ ringCfgRow.writable.map FieldRow.f) (h : State.drainFields.all (fun x => apart x f) = true) :
      w.rdi f r = bits (enabling v) f.lo f.w := (hrdi f).trans ((setRingState_field u r h).trans (hfields f hf))
  refine ⟨(hrdi _).trans hmoved.state, (hrdi _).trans (hmoved.cons.trans hcons), ?_, (hfield _ (by decide) (by decide)).trans (enabling_en v),
    (hfield _ (by decide) (by decide)).trans (bits_enabling (by decide)), (hfield _ (by decide) (by decide)).trans (bits_enabling (by decide)),
    (hfield _ (by decide) (by decide)).trans (bits_enabling (by decide)), (hfield _ (by decide) (by decide)).trans (bits_enabling (by decide)),
    (hfield _ (by decide) (by decide)).trans (bits_enabling (by decide))⟩
  rw [← hw, ← hctr, ← hmoved.ctr]
  rfl

/-- Settles O31: a doorbell by what it finds, and each change of a ring's state by the state that it leaves. -/
theorem hostRingCommands : Obligations.HostRingCommands := by
  refine ⟨fun s r v hon => ⟨_, exec_doorbell_agree hon r v, ringDoorbell_idle, fun hstage hd3 hactive hbad hev => ?_,
      fun hstage hd3 hactive hgood htype => ?_⟩,
    fun s r v hon hd3 => ⟨byBar_shut hon hd3 _, byBar_shut hon hd3 _, byBar_shut hon hd3 _, byBar_shut hon hd3 _⟩,
    fun s r v hon hd3 hev => ⟨_, byBar_open hon hd3 _, fun henabled => ?_, fun hdisabled hlo hhi hvalid htype => ?_⟩,
    fun s r hon hd3 hev => ⟨_, byBar_open hon hd3 _, fun hactive => ?_, fun hidle => ?_⟩,
    fun s r hon hev hstopping hidle => ⟨_, (next_live hon _).trans (congrArg _ (if_pos ⟨hstopping, hidle⟩)), ?_⟩,
    fun s r hon hd3 hev => ⟨_, byBar_open hon hd3 _, fun hstate htype => ?_, fun hstate htype hself hcev hoff => ?_, fun hstate => ?_⟩,
    fun s r hon hd3 hev => ⟨_, byBar_open hon hd3 _, fun hstate hidle htype => ?_, fun hstate hidle htype => ?_, fun hstate => ?_⟩⟩
  · rw [ringDoorbell_invalid hstage hd3 hactive (by rwa [bell_value])]
    obtain ⟨h1, h2⟩ := haltError_state s r 0x20 r.isLt (by decide) hev
    exact ⟨h1, h2, haltError_ctr ..⟩
  · rw [ringDoorbell_valid hstage hd3 hactive (by rwa [bell_value]) htype, bell_value]
    have hctr : (s.setHostCtr r (v % 65536)).hostCtr r = v % 65536 := (hostCtr_setHostCtr ..).trans (Nat.mod_mod ..)
    refine ⟨?_, fun hawake => ?_⟩
    · split
      · exact (wake_ctr ..).trans hctr
      · exact hctr
    · rw [if_neg fun h => absurd h.2.1 (by rw [show (s.setHostCtr r (v % 65536)).bit PWR_STATUS.SLEEP = false from hawake]; decide)]
      rfl
  · rw [writeRingCfg_enabled henabled]
    exact refused_shows s r
  · exact ringEnabled_shows hev hdisabled hlo hhi hvalid htype
  · rw [show s.ringStop r = s.setRingState r 2 from if_pos hactive]
    have hmoved := setRingState_moved s (new := 2) r.isLt (by decide) hev
    exact ⟨hmoved.state, hmoved.cons⟩
  · rw [show s.ringStop r = s.refuse HOST_STATUS.CFG_ERR from if_neg hidle]
    exact refused_shows s r
  · have hmoved := setRingState_moved s (new := 3) r.isLt (by decide) hev
    exact ⟨hmoved.state, hmoved.cons⟩
  · obtain ⟨h1, h2, h3, h4, -, h6, -, -⟩ := restarted_shows s r.isLt hev
    rw [ringRestart_taken hstate, h6, htype, if_neg (fun h => absurd h.1 (by decide)), if_neg (by decide)]
    exact ⟨h1, h2, h3, h4⟩
  · obtain ⟨-, -, -, -, h5, h6, h7, h8⟩ := restarted_shows s r.isLt hev
    rw [ringRestart_taken hstate, h6, h7, h8 _ hself hcev, if_pos ⟨htype, hoff⟩]
    exact haltError_state _ _ 0x21 r.isLt (by decide) (by rwa [h5])
  · rw [ringRestart_refused hstate]
    exact refused_shows s r
  · rw [ringReset_taken hstate hidle, if_neg (by simpa using htype)]
    exact (setRingState_moved s r.isLt (by decide) hev).state
  · rw [ringReset_taken hstate hidle, if_pos (by simpa using htype)]
    have hkeep : (s.setRingState r 0).evRing 0x90 = s.evRing 0x90 := ev_apart (setRingState_field s 0 (by decide))
    have hzero := (setRingState_moved s (new := 0) r.isLt (by decide) hev).state
    have heach (j : Nat) (hj : j < 64) (hne : j ≠ s.evRing 0x90) := haltsBadCring_each r (List.range 64) List.nodup_range
      (s := s.setRingState r 0) (List.mem_range.2 hj) hj (by rwa [hkeep])
    refine ⟨(heach r r.isLt hev.symm).1 hzero, fun n hn hnev hactive hntype hcring => ?_⟩
    have hrn : r.val ≠ n.val := fun h => hn (Fin.ext h).symm
    refine (heach n n.isLt hnev.symm).2 ((setRingState_other s (by decide) hrn hnev).trans hactive) ?_ ((setRingState_field s n (by decide)).trans hcring)
    rwa [setRingState_field s n (by decide)]
  · rw [ringReset_refused hstate]
    exact refused_shows s r

end Sys2Proof.Machine
end

section
/-! PROOFS. Reads of host memory, the translation cache and the walker's root (14_host_interface.md R508, R513 to R516, R527 to R529):
O32. -/
namespace Sys2Proof.Machine
open Reg

/-! ### An access that fails (R508, R514) -/

theorem haltFault_comps (s : State) (r status acc page : Nat) : (s.haltFault r status acc page).hst.comps = s.hst.comps := by
  unfold State.haltFault
  dsimp only
  split
  · rw [(State.drain_kept ..).comps, (queueRingState_kept ..).comps, State.haltRing_hst]
  · rfl

/-- The descriptor of a buffer's failed access ends with the status and the walk level. -/
theorem failAccess_buffer {s : State} {d : Desc} (he : d.epoch = s.hst.epoch) (len addr status detail page : Nat) :
    ∃ x ∈ (s.failAccess (.buffer d len addr) status detail page).hst.comps, x.status = status ∧ x.detail = detail ∧ x.tag = d.tag := by
  have hfail : s.failAccess (.buffer d len addr) status detail page =
      (s.complete d status detail []).haltFault d.ring status (JobKind.buffer d len addr).access page := rfl
  rw [hfail, haltFault_comps, State.complete_comps _ _ _ _ _ he]
  exact ⟨_, List.mem_append_right _ (List.mem_singleton.2 rfl), rfl, rfl, rfl⟩

/-- A descriptor whose fetch failed ends with TAG 0. -/
theorem failAccess_fetch (s : State) (r status detail page : Nat) :
    ∃ x ∈ (s.failAccess (.fetch r) status detail page).hst.comps, x.status = status ∧ x.tag = 0 ∧ x.ring = r := by
  generalize hu : (s.wri RING_STATE_n.CONS r (s.rdi RING_STATE_n.CONS r + 1)).flight r true = u
  have hhst : u.hst = s.hst := by
    rw [← hu]
    unfold State.flight
    simp only [State.wri_hst, State.wr_hst, if_true]
  have hfail : s.failAccess (.fetch r) status detail page = (u.complete ⟨r, s.rdi RING_CFG_n.CRING r, s.rdi RING_STATE_n.CONS r, 0, 0, s.hst.epoch⟩
      status detail []).haltFault r status 0 page := by
    rw [← hu]
    rfl
  rw [hfail, haltFault_comps, State.complete_comps _ _ _ _ _ (by rw [hhst])]
  exact ⟨_, List.mem_append_right _ (List.mem_singleton.2 rfl), rfl, rfl, rfl⟩

/-! ### What follows a read (R359, R558) -/

theorem journalWrite_comps (s : State) (j : Job) (d : Desc) (first count addr : Nat) :
    s.hst.comps ⊆ (s.journalWrite j d first count addr).hst.comps := by
  have hend (u : State) (h : u.hst.comps = s.hst.comps) (res : List Pay) : s.hst.comps ⊆ (u.complete d 0 0 res).hst.comps := by
    rw [← h]
    unfold State.complete
    split
    · exact List.Subset.refl _
    · exact List.subset_append_left _ _
  have hwrite (u : State) (found : List Trans) (a : Nat) (l : List Byte) : (u.dmaWrite found a l).used.hst = u.hst :=
    (Only.dmaWrite (Only.refl 0x1000000000000000 u) found a l rfl).hst rfl
  unfold State.journalWrite
  generalize hu : ({ s with hst := { s.hst with jobs := s.hst.jobs.filter (fun x => x.id != j.id) } } : State) = u
  have hcomps : u.hst.comps = s.hst.comps := by rw [← hu]
  dsimp only
  split
  · exact hend _ ((congrArg HostSt.comps (hwrite _ _ _ _)).trans hcomps) _
  · exact hend _ ((congrArg HostSt.comps (hwrite _ _ _ _)).trans hcomps) _

theorem takeJournal_comps (s : State) : s.hst.comps ⊆ s.takeJournal.hst.comps := by
  unfold State.takeJournal
  split
  · exact List.Subset.refl _
  next hd0 =>
    clear hd0
    generalize s.hst.jobs = l
    induction l generalizing s with
    | nil => exact List.Subset.refl _
    | cons j l ih =>
      refine List.Subset.trans ?_ (ih _)
      dsimp only
      split
      · exact journalWrite_comps ..
      · exact List.Subset.refl _

theorem afterRead_comps (s : State) (k : JobKind) : s.hst.comps ⊆ (s.afterRead k).hst.comps := by
  have hjournal : s.hst.comps ⊆ s.takeBuffers.takeJournal.hst.comps := takeJournal_comps s.takeBuffers
  unfold State.afterRead
  cases k <;> dsimp only
  case entry r =>
    split
    · rwa [(State.drain_kept ..).comps]
    · exact hjournal
  all_goals exact hjournal

/-! ### The commands of a read -/

section
variable {s : State} (hon : s.pwr.mainOn = true) {id e : Nat} {j : Job} (hjob : s.hst.jobs.find? (fun j => j.id == id) = some j)
include hon hjob

/-- A level-1 entry that is not present. -/
theorem exec_hostReadCompletion_absent {v : Nat} (hphase : j.phase = .level1) (habsent : bitOf v 0 = false) :
    exec (.hostReadCompletion (.job id) (.entry v) e) s = .next
      ((({ s.moveTo e with hst := { s.hst with jobs := s.hst.jobs.filter (fun x => x.id != j.id) } } : State).failAccess j.kind 0x10 1
        (j.todo.headD 0)).afterRead j.kind) := by
  rw [show exec (.hostReadCompletion (.job id) (.entry v) e) s = _ from next_live hon _]
  dsimp only
  rw [s.moveTo_hst, hjob]
  dsimp only
  rw [hphase]
  dsimp only
  unfold State.walkEntry
  rw [hphase]
  dsimp only
  rw [habsent, s.moveTo_hst]
  rfl

/-- A page of a read in its data phase. -/
theorem exec_hostReadCompletion_data {l : List Byte} (hphase : j.phase = .data) :
    exec (.hostReadCompletion (.job id) (.bytes l) e) s = .next ((s.moveTo e).dataPart j l) := by
  rw [show exec (.hostReadCompletion (.job id) (.bytes l) e) s = _ from next_live hon _]
  dsimp only
  rw [s.moveTo_hst, hjob]
  dsimp only
  rw [hphase]

theorem exec_hostReadTimeout (hphase : j.phase = .level1) (hdue : j.due ≤ (s.moveTo e).tm.e) :
    exec (.hostReadTimeout (.job id) e) s = .next
      ((({ s.moveTo e with hst := { s.hst with jobs := s.hst.jobs.filter (fun x => x.id != j.id) } } : State).failAccess j.kind 0x14 1
        (j.todo.headD (j.kind.range.1 / 4096))).afterRead j.kind) := by
  rw [show exec (.hostReadTimeout (.job id) e) s = _ from next_live hon _]
  dsimp only
  rw [s.moveTo_hst, hjob]
  dsimp only
  rw [if_pos hdue]
  unfold State.failJob
  dsimp only
  rw [hphase, s.moveTo_hst]

end

theorem exec_hostReadCompletion_fetch {s : State} (hon : s.pwr.mainOn = true) (r : Fin 64) (e : Nat) :
    exec (.hostReadCompletion (.fetch r) .error e) s = .next ((s.moveTo e).fetchFails r 0x16) := next_live hon _

/-! ### The data of a configuration image (R326, R512) -/

theorem furrowDone_config (s : State) {d : Desc} (he : d.epoch = s.hst.epoch) (c : Nat) (img : List Byte) :
    ((s.furrowDone d c 0 img).cell c).svc.cfgImg = some img ∧ ((s.furrowDone d c 0 img).cell c).svc.dirty = true ∧
    ∃ x ∈ (s.furrowDone d c 0 img).hst.comps, x.status = (if imageCrcOk img then 0 else 8) ∧ x.tag = d.tag := by
  have hcell (u : State) (st : Nat) : (u.complete d st 0 []).cell c = u.cell c :=
    congrArg (fun t => tget (fun _ => Cell.init) t c) (State.complete_cells ..)
  unfold State.furrowDone
  refine ⟨?_, ?_, desc_end _ _ _ _ _ _ rfl he⟩
  · rw [hcell, State.cell_updCell_self]
    rfl
  · rw [hcell, State.cell_updCell_self]

/-- The last page of a configuration image. -/
theorem dataPart_last {s : State} {j : Job} {d : Desc} {c len a : Nat} (hkind : j.kind = .furrow d c 0 len a) (hlast : j.todo.drop 1 = []) (l : List Byte) :
    s.dataPart j l = ({ s with hst := { s.hst with jobs := s.hst.jobs.filter (fun x => x.id != j.id) } } : State).furrowDone d c 0
      ((j.got ++ l.take ((pageSpan a len (j.todo.headD 0)).2 - (pageSpan a len (j.todo.headD 0)).1)).take len) := by
  unfold State.dataPart State.dataDone
  rw [hlast, hkind]
  rfl

theorem askData_keeps (s : State) (j : Job) : (s.askData j).cells = s.cells ∧ (s.askData j).hst = s.hst := by
  unfold State.askData
  split <;> exact ⟨rfl, rfl⟩

/-- A read that goes on with its next page. -/
def Job.onward (j : Job) (got : List Byte) (due : Nat) : Job := { j with todo := j.todo.drop 1, got := got, due := due }

theorem dataPart_onward {s : State} {j : Job} {d : Desc} {c len a : Nat} (hkind : j.kind = .furrow d c 0 len a) (hmore : j.todo.drop 1 ≠ [])
    (l : List Byte) : ∃ due, s.dataPart j l =
      (s.putJob (j.onward (j.got ++ l.take ((pageSpan a len (j.todo.headD 0)).2 - (pageSpan a len (j.todo.headD 0)).1)) due)).askData
        (j.onward (j.got ++ l.take ((pageSpan a len (j.todo.headD 0)).2 - (pageSpan a len (j.todo.headD 0)).1)) due) := by
  refine ⟨s.tm.e + s.rd HOST_WALK_CFG.TIMEOUT * 1000, ?_⟩
  unfold State.dataPart Job.onward
  rw [hkind]
  generalize j.todo.drop 1 = ps at hmore ⊢
  cases ps with
  | nil => exact absurd rfl hmore
  | cons p ps => rfl

/-- A page of a configuration image before the last. -/
theorem dataPart_more {s : State} {j : Job} {d : Desc} {c len a : Nat} (hkind : j.kind = .furrow d c 0 len a) (hmore : j.todo.drop 1 ≠ [])
    (hj : j ∈ s.hst.jobs) (l : List Byte) : (s.dataPart j l).cells = s.cells ∧ (s.dataPart j l).hst.comps = s.hst.comps ∧
    ∃ k ∈ (s.dataPart j l).hst.jobs, k.id = j.id ∧ k.todo = j.todo.drop 1 ∧
      k.got = j.got ++ l.take ((pageSpan a len (j.todo.headD 0)).2 - (pageSpan a len (j.todo.headD 0)).1) := by
  obtain ⟨due, honward⟩ := dataPart_onward (s := s) hkind hmore l
  rw [honward]
  generalize j.got ++ l.take ((pageSpan a len (j.todo.headD 0)).2 - (pageSpan a len (j.todo.headD 0)).1) = got
  obtain ⟨hcells, hhst⟩ := askData_keeps (s.putJob (j.onward got due)) (j.onward got due)
  rw [hcells, hhst]
  exact ⟨rfl, rfl, _, List.mem_map.2 ⟨j, hj, if_pos rfl⟩, rfl, rfl, rfl⟩

/-! ### Invalidations and the root (R516, R527, R529) -/

theorem invalidated_left {w : Option Nat} {l : List Trans} {tr : Trans} (h : tr ∈ invalidated w l) : tr ∈ l ∧ w ≠ none ∧ w ≠ some tr.page := by
  cases w with
  | none => exact absurd h List.not_mem_nil
  | some p =>
    obtain ⟨hmem, hpage⟩ := List.mem_filter.1 h
    exact ⟨hmem, Option.some_ne_none p, fun hp => by simp [Option.some.inj hp] at hpage⟩

/-- HOST_WALK_ROOT_LO's row of the register table (R527). -/
def walkRootRow : RegRow :=
  ⟨"HOST_WALK_ROOT_LO", 0x80008, 1, [⟨HOST_WALK_ROOT_LO.ADDR, .rw, [0], .none⟩, ⟨HOST_WALK_ROOT_LO.EN, .rw, [0], .none⟩]⟩

theorem walkRootRow_found : regAt walkRootRow.base = some walkRootRow := by decide

theorem walkRoot_low (s : State) (v : Nat) {f : Fld} (hf : f ∈ walkRootRow.writable.map FieldRow.f) (hone : 0 < f.count) :
    (s.writeWalkRoot false v).rd f = bits v f.lo f.w := by
  have hput := putRw_takes walkRootRow_found (by decide) s v hf hone
  rw [show walkRootRow.base = HOST_WALK_ROOT_LO.ADDR.base from rfl] at hput
  rw [← hput]
  unfold State.writeWalkRoot
  generalize s.putRw HOST_WALK_ROOT_LO.ADDR.base v = u
  exact rdi_of_regs rfl f 0

theorem walkRoot_high (s : State) (v : Nat) : (s.writeWalkRoot true v).rd HOST_WALK_ROOT_LO.ADDR = s.rd HOST_WALK_ROOT_LO.ADDR := by
  have hkeep : WordsKept [HOST_WALK_ROOT_HI.ADDR_HI.base] HOST_STATUS.CFG_ERR s (s.putRw HOST_WALK_ROOT_HI.ADDR_HI.base v) :=
    WordsKept.putRw (by decide) (List.mem_singleton.2 rfl)
  refine Eq.trans ?_ (hkeep HOST_WALK_ROOT_LO.ADDR 0 (by decide) (by decide))
  unfold State.writeWalkRoot
  generalize s.putRw HOST_WALK_ROOT_HI.ADDR_HI.base v = u
  exact rdi_of_regs rfl _ 0

/-- Settles O32: each read by its job and what came for it, an invalidation and a root write by what they leave of the cache. -/
theorem hostReadAndWalkCommands : Obligations.HostReadAndWalkCommands := by
  refine ⟨fun s id v e j d len a hon hjob hphase hkind habsent hepoch => ⟨_, exec_hostReadCompletion_absent hon hjob hphase habsent, ?_⟩,
    fun s id e l j d c len a hon hjob hphase hkind hepoch => ⟨fun hlast => ?_, fun hmore => ?_⟩,
    fun s r e hon => ⟨_, exec_hostReadCompletion_fetch hon r e, fun hbusy => if_neg (by rw [hbusy]; decide), fun hready => ?_⟩,
    fun s id e j d len a hon hjob hphase hkind hdue hepoch => ⟨_, exec_hostReadTimeout hon hjob hphase hdue, ?_⟩,
    fun s v hi hon hd3 => ⟨byBar_shut hon hd3 _, byBar_shut hon hd3 _⟩,
    fun s v hon hd3 => ⟨_, byBar_open hon hd3 _, State.rd_wr_self _ _ (by decide), rfl⟩,
    fun s w hon hinv => ?_, fun s v hon hd3 => ⟨⟨_, byBar_open hon hd3 _, rfl, ?_, ?_⟩, ⟨_, byBar_open hon hd3 _, rfl, ?_⟩⟩⟩
  · rw [hkind]
    obtain ⟨x, hx, h1, h2, h3⟩ := failAccess_buffer (s := { s.moveTo e with hst := { s.hst with jobs := s.hst.jobs.filter (fun x => x.id != j.id) } })
      hepoch len a 0x10 1 (j.todo.headD 0)
    exact ⟨x, afterRead_comps _ _ hx, h1, h2, h3⟩
  · have hexec := exec_hostReadCompletion_data hon hjob (l := l) (e := e) hphase
    rw [dataPart_last hkind hlast] at hexec
    obtain ⟨h1, h2, h3⟩ := furrowDone_config
      ({ s.moveTo e with hst := { (s.moveTo e).hst with jobs := (s.moveTo e).hst.jobs.filter (fun x => x.id != j.id) } })
      (show d.epoch = (s.moveTo e).hst.epoch by rw [s.moveTo_hst, hepoch]) c
      ((j.got ++ l.take ((pageSpan a len (j.todo.headD 0)).2 - (pageSpan a len (j.todo.headD 0)).1)).take len)
    exact ⟨_, _, hexec, rfl, h1, h2, h3⟩
  · refine ⟨_, exec_hostReadCompletion_data hon hjob hphase, ?_⟩
    obtain ⟨h1, h2, h3⟩ := dataPart_more (s := s.moveTo e) hkind hmore (by rw [s.moveTo_hst]; exact List.mem_of_find?_eq_some hjob) l
    exact ⟨h1.trans (s.moveTo_cells e), h2.trans (congrArg HostSt.comps (s.moveTo_hst e)), h3⟩
  · rw [show (s.moveTo e).fetchFails r 0x16 = _ from if_pos hready]
    exact failAccess_fetch ..
  · rw [hkind]
    obtain ⟨x, hx, h1, h2, h3⟩ := failAccess_buffer (s := { s.moveTo e with hst := { s.hst with jobs := s.hst.jobs.filter (fun x => x.id != j.id) } })
      hepoch len a 0x14 1 (j.todo.headD ((JobKind.buffer d len a).range.1 / 4096))
    exact ⟨x, afterRead_comps _ _ hx, h1, h2, h3⟩
  · have hexec : exec .walkInvalidateDone s =
        .next (({ s with hst := { s.hst with cache := invalidated w s.hst.cache, inv := none } } : State).wr HOST_WALK_INV.BUSY 0) := by
      rw [show exec .walkInvalidateDone s = _ from next_live hon _]
      dsimp only
      rw [hinv]
    exact ⟨_, hexec, State.rd_wr_self _ _ (by decide), rfl, fun tr htr => invalidated_left htr⟩
  · exact walkRoot_low s v (by decide) (by decide)
  · exact walkRoot_low s v (by decide) (by decide)
  · exact walkRoot_high s v

end Sys2Proof.Machine
end

section
/-! PROOFS. Completions, lost events, message signals, the function reset and the power state (14_host_interface.md R494, R495, R510,
R511, R519, R521, R523): O51. -/
namespace Sys2Proof.Machine
open Reg

/-! ### A completion written (R510, R511) -/

theorem writeCompletion_cons (s : State) {r : Nat} (c : Completion) (p : Nat) (hr : r < 64) :
    (s.writeCompletion r c p).rdi RING_STATE_n.CONS r = (s.rdi RING_STATE_n.CONS r + 1) % 65536 := by
  unfold State.writeCompletion
  dsimp only
  rw [(State.entryWritten_only _ _).rdi _ _ (by decide)]
  unfold State.flight
  rw [if_neg Bool.false_ne_true, State.wr, State.rdi_wri_apart _ _ _ _ (by decide), State.rdi_wri_apart _ _ _ _ (by decide), State.rdi_wri_self _ _ hr]
  rfl

/-! ### The count of lost events (R519) -/

theorem drainList_lost (s : State) (r : Nat) (l : List Event) : (s.drainList r l).1.hst.lost = s.hst.lost := by
  have hasked (u : State) (r ctr : Nat) : (u.askEntry r ctr).hst.lost = u.hst.lost := by
    unfold State.askEntry State.startJob
    dsimp only
    split <;> rfl
  have hwritten (k : Nat) : ∀ u : State, (u.entriesWritten r k).hst.lost = u.hst.lost := by
    induction k with
    | zero => exact fun _ => rfl
    | succ k ih =>
      intro u
      refine (ih (u.entryWritten r)).trans ?_
      unfold State.entryWritten
      extract_lets
      split <;> rfl
  induction l generalizing s with
  | nil => rfl
  | cons e t ih =>
    unfold State.drainList
    dsimp only
    split
    · rfl
    · split
      · exact hasked ..
      · exact congrArg HostSt.lost (s.haltRing_hst ..)
      · rw [ih, hwritten, State.recordPosted_hst, State.wri_hst]
        rfl

/-- A record that does not fit counts as lost on its own ring alone. -/
theorem queueAt_lost (s : State) {r n : Nat} (h : r ≠ n) (ty : Nat) (tick : Int) (elapsed : Nat) (pay : List Pay) (more : List Byte) :
    tget (fun _ => (0, 0)) (s.queueAt r ty tick elapsed pay more).hst.lost n = tget (fun _ => (0, 0)) s.hst.lost n := by
  unfold State.queueAt
  dsimp only
  split
  · generalize (_ + 1, (if _ = 0 then _ else _)) = x
    exact tget_tput_ne (fun _ => (0, 0)) s.hst.lost x h
  · rfl

theorem drain_lost (s : State) (r : Nat) : tget (fun _ => (0, 0)) (s.drain r).hst.lost r = tget (fun _ => (0, 0)) s.hst.lost r := by
  have hlist := drainList_lost s r (tget (fun _ => []) s.hst.evq r)
  unfold State.drain
  generalize s.drainList r (tget (fun _ => []) s.hst.evq r) = x at hlist ⊢
  dsimp only
  split
  · rw [hlist]
  · unfold State.queueRingState
    split
    · rw [hlist]
    next hev => exact (queueAt_lost _ hev _ _ _ _ _).trans (by rw [hlist])

/-- The record of the lost events, which clears their count. -/
def State.lostTold (s : State) (r : Nat) : State :=
  let l := tget (fun _ => (0, 0)) s.hst.lost r
  let u := { s with hst := { s.hst with lost := tput (fun _ => (0, 0)) s.hst.lost r (0, 0) } }
  u.queueOn r 0xFF [(24, 4, l.1), (28, 4, l.2)] []

theorem lostTold_shows {s : State} {r : Nat} (hroom : ((tget (fun _ => []) s.hst.evq r).map Event.entries).foldl (· + ·) 0 < 1024) :
    tget (fun _ => (0, 0)) (s.lostTold r).hst.lost r = (0, 0) ∧ (s.lostTold r).hst.seqNo = s.hst.seqNo + 1 := by
  have hone (e : Event) (h : e.ty = 0xFF) : e.entries = 1 := by
    unfold Event.entries
    rw [h]
    rfl
  refine ⟨?_, State.queueAt_seqNo ..⟩
  unfold State.lostTold State.queueOn State.queueAt
  dsimp only
  rw [if_neg]
  · exact tget_tput_self (fun _ => (0, 0)) s.hst.lost r (0, 0)
  · intro h
    have hover := h.2.2
    rw [hone _ rfl] at hover
    omega

/-! ### The function reset (R494) -/

/-- A ring DISABLED by the function reset. -/
def State.ringCleared (s : State) (r : Nat) : State :=
  if s.rdi RING_STATE_n.STATE r = 0 then s
  else ((s.wri RING_STATE_n.STATE r 0).wri RING_STATE_n.INFLIGHT r 0).queueRingState r (s.rdi RING_STATE_n.STATE r) 0

theorem ringCleared_kept (s : State) (r : Nat) : HostKept s.hst (s.ringCleared r).hst := by
  unfold State.ringCleared
  split
  · exact .refl _
  · refine HostKept.trans (.of_eq ?_) (queueRingState_kept ..)
    simp only [State.wri_hst]

theorem ringCleared_state (s : State) {r : Nat} (hr : r < 64) (j : Nat) : (s.ringCleared r).rdi RING_STATE_n.STATE j =
    if j = r then 0 else s.rdi RING_STATE_n.STATE j := by
  unfold State.ringCleared
  split
  next h =>
    split
    next hj => rw [hj, h]
    next => rfl
  next =>
    rw [rdi_of_regs (State.queueRingState_regs ..), State.rdi_wri_apart _ _ _ _ (by decide)]
    split
    next hj =>
      rw [hj, State.rdi_wri_self _ _ hr]
      rfl
    next hj => exact State.rdi_wri_entry _ _ (Ne.symm hj)

theorem ringsCleared (l : List Nat) (hl : ∀ r ∈ l, r < 64) (s : State) (j : Nat) :
    (l.foldl (fun s r => s.ringCleared r) s).rdi RING_STATE_n.STATE j = if j ∈ l then 0 else s.rdi RING_STATE_n.STATE j := by
  induction l generalizing s with
  | nil => rfl
  | cons r l ih =>
    rw [List.foldl_cons, ih (fun n hn => hl n (List.mem_cons_of_mem _ hn)), ringCleared_state s (hl r List.mem_cons_self)]
    by_cases hj : j = r <;> by_cases hm : j ∈ l <;> simp [hj, hm]

theorem ringsCleared_kept (l : List Nat) (s : State) : HostKept s.hst (l.foldl (fun s r => s.ringCleared r) s).hst := by
  induction l generalizing s with
  | nil => exact .refl _
  | cons r l ih => exact (ringCleared_kept s r).trans (ih _)

/-- What the function reset drops of the host interface. -/
def HostSt.dropped (h : HostSt) : HostSt :=
  { h with
    epoch := h.epoch + 1
    comps := []
    atTend := []
    atNext := []
    cache := []
    unsig := []
    unsigAt := []
    jobs := h.jobs.filter (fun j => j.kind.desc.isSome) }

/-- The host interface once its rings are DISABLED. -/
def State.hostDropped (s : State) : State := { s.wr HOST_STATUS.IN_FLIGHT 0 with hst := (s.wr HOST_STATUS.IN_FLIGHT 0).hst.dropped }

theorem exec_functionLevelReset {s : State} (hon : s.pwr.mainOn = true) :
    exec .functionLevelReset s = .next ((List.range 64).foldl (fun s r => s.ringCleared r) s).hostDropped := by
  rw [show exec .functionLevelReset s = _ from next_live hon _]
  unfold State.ringCleared State.hostDropped HostSt.dropped
  dsimp only

theorem hostDropped_shows (s : State) : (∀ r, s.hostDropped.rdi RING_STATE_n.STATE r = s.rdi RING_STATE_n.STATE r) ∧
    s.hostDropped.rd HOST_STATUS.IN_FLIGHT = 0 ∧ s.hostDropped.hst = s.hst.dropped := by
  refine ⟨fun r => State.rdi_wri_apart s 0 r 0 (by decide), State.rd_wr_self s 0 (by decide), congrArg HostSt.dropped (State.wr_hst ..)⟩

/-! ### The power state (R495) -/

/-- What configuration space holds stays when a journal read writes. -/
theorem journalWrite_config (s : State) (j : Job) (d : Desc) (first count addr : Nat) :
    (s.journalWrite j d first count addr).hst.d3 = s.hst.d3 ∧ (s.journalWrite j d first count addr).hst.bars = s.hst.bars := by
  have hend (u : State) (h : u.hst.d3 = s.hst.d3 ∧ u.hst.bars = s.hst.bars) (res : List Pay) :
      (u.complete d 0 0 res).hst.d3 = s.hst.d3 ∧ (u.complete d 0 0 res).hst.bars = s.hst.bars := by
    unfold State.complete
    split <;> exact h
  have hwrite (u : State) (found : List Trans) (a : Nat) (l : List Byte) : (u.dmaWrite found a l).used.hst = u.hst :=
    (Only.dmaWrite (Only.refl 0x1000000000000000 u) found a l rfl).hst rfl
  unfold State.journalWrite
  generalize hu : ({ s with hst := { s.hst with jobs := s.hst.jobs.filter (fun x => x.id != j.id) } } : State) = u
  have hconfig : u.hst.d3 = s.hst.d3 ∧ u.hst.bars = s.hst.bars := by
    rw [← hu]
    exact ⟨rfl, rfl⟩
  dsimp only
  split
  · exact hend _ (by rw [hwrite]; exact hconfig) _
  · exact hend _ (by rw [hwrite]; exact hconfig) _

theorem takeJournal_config (s : State) : s.takeJournal.hst.d3 = s.hst.d3 ∧ s.takeJournal.hst.bars = s.hst.bars := by
  unfold State.takeJournal
  split
  · exact ⟨rfl, rfl⟩
  next hd0 =>
    clear hd0
    generalize s.hst.jobs = l
    induction l generalizing s with
    | nil => exact ⟨rfl, rfl⟩
    | cons j l ih =>
      refine ⟨(ih _).1.trans ?_, (ih _).2.trans ?_⟩
      · dsimp only
        split
        · exact (journalWrite_config ..).1
        · rfl
      · dsimp only
        split
        · exact (journalWrite_config ..).2
        · rfl

/-- Journal reads that are not in their data phase write nothing. -/
theorem takeJournal_idle {s : State} (h : ∀ j ∈ s.hst.jobs, j.phase ≠ .data) : s.takeJournal = s := by
  unfold State.takeJournal
  split
  · rfl
  next hd0 =>
    clear hd0
    generalize s.hst.jobs = l at h
    induction l with
    | nil => rfl
    | cons j l ih =>
      have hj := h j List.mem_cons_self
      rw [List.foldl_cons]
      refine Eq.trans (congrArg (fun u => List.foldl _ u l) ?_) (ih fun k hk => h k (List.mem_cons_of_mem _ hk))
      split
      next hdata => exact absurd hdata hj
      · rfl

/-- Settles O51: a completion, a record of lost events, a message, the function reset and the power state by what each leaves. -/
theorem hostEntryAndResetCommands : Obligations.HostEntryAndResetCommands := by
  refine ⟨fun s r c p hon hwaits htype hopen hup hphys hring => ?_, fun s r hon hlost hroom => ?_,
    fun s r e hon hunsig hus hd3 hdue => ?_, fun s hon => ⟨_, exec_functionLevelReset hon, ?_⟩,
    fun s b hon => ⟨⟨_, next_live hon _, rfl, rfl, rfl⟩, ⟨_, next_live hon _, ?_⟩⟩⟩
  · have hexec := exec_completionPost hon hwaits htype hopen hup hphys .all
    rw [agreed_all] at hexec
    obtain ⟨h1, h2⟩ := writeCompletion_shown s r c p
    exact ⟨_, hexec, h1, h2, writeCompletion_cons s c p r.isLt⟩
  · have hexec : exec (.eventsLost r) s = .next ((s.lostTold r).drain r) :=
      (next_live hon _).trans (congrArg _ (if_neg (by omega)))
    obtain ⟨h1, h2⟩ := lostTold_shows hroom
    refine ⟨_, hexec, (drain_lost _ _).trans h1, ?_⟩
    have hseq := State.drain_seqNo (s.lostTold r) r
    omega
  · have hdue' : ¬(tget (fun _ => 0) (s.moveTo e).hst.unsig r = 0 ∨ (s.moveTo e).rdi RING_CFG_n.COAL_US r = 0 ∨
        (s.moveTo e).tm.e < tget (fun _ => 0) (s.moveTo e).hst.unsigAt r + (s.moveTo e).rdi RING_CFG_n.COAL_US r * 1000 ∨ (s.moveTo e).hst.d3 = true) := by
      rw [s.moveTo_hst, rdi_moveTo, hd3]
      simp [hunsig, hus]
      omega
    refine ⟨_, (next_live hon _).trans (congrArg _ (if_neg hdue')), ?_, fun hirq => ?_⟩
    · rw [apply_ite (fun t : State => tget (fun _ => 0) t.hst.unsig r)]
      exact (ite_congr rfl (fun _ => tget_tput_self ..) fun _ => tget_tput_self ..).trans (ite_self 0)
    · have hmsix : (s.moveTo e).biti RING_CFG_n.IRQ_EN r = true := (congrArg (· == 1) (rdi_moveTo s e _ _)).trans hirq
      rw [if_pos (show ({ s.moveTo e with hst := { (s.moveTo e).hst with unsig := tput (fun _ => 0) (s.moveTo e).hst.unsig r 0 } } :
        State).biti RING_CFG_n.IRQ_EN r = true from hmsix), ← rdi_moveTo s e]
      exact List.mem_append_right _ (List.mem_singleton.2 rfl)
  · have hstates := ringsCleared (List.range 64) (fun n hn => List.mem_range.1 hn) s
    have hkept := ringsCleared_kept (List.range 64) s
    generalize (List.range 64).foldl (fun s r => s.ringCleared r) s = u at hstates hkept ⊢
    obtain ⟨h1, h2, h3⟩ := hostDropped_shows u
    rw [h3]
    exact ⟨fun r hr => by rw [h1, hstates, if_pos (List.mem_range.2 hr)], rfl, rfl, hkept.bufs, congrArg (· + 1) hkept.epoch, h2⟩
  · generalize hu : ({ s with hst := { s.hst with d3 := false, bars := b } } : State) = u
    have hconfig : u.hst.d3 = false ∧ u.hst.bars = b ∧ u.hst.jobs = s.hst.jobs ∧ u.hst.comps = s.hst.comps := by
      rw [← hu]
      exact ⟨rfl, rfl, rfl, rfl⟩
    obtain ⟨hd3, hbars, hjobs, hcomps⟩ := hconfig
    obtain ⟨h1, h2⟩ := takeJournal_config u
    have hdrain (w : State) (a b : Nat) : HostKept w.hst ((w.drain a).drain b).hst := (State.drain_kept ..).trans (State.drain_kept ..)
    show ((u.takeJournal.drain _).drain _).hst.d3 = false ∧ ((u.takeJournal.drain _).drain _).hst.bars = b ∧
      (_ → ((u.takeJournal.drain _).drain _).hst.comps = s.hst.comps)
    rw [(hdrain ..).d3, (hdrain ..).bars, (hdrain ..).comps]
    exact ⟨h1.trans hd3, h2.trans hbars, fun hidle => by rw [takeJournal_idle (by rw [hjobs]; exact hidle), hcomps]⟩

end Sys2Proof.Machine
end

section
/-! PROOFS. The motor channels' events (16_thermal_aux_drives.md R588, R590 to R598): O29. -/
namespace Sys2Proof.Machine
open Reg

/-! ### What a channel's event sees after the time has moved and the holds have ended -/

/-- A channel's configuration, status and record, but for AUX_HOLDm and the count of predicted samples. -/
structure AuxAlike (s u : State) (m : Nat) : Prop where
  rdi : ∀ f i, apart AUX_STATUS_m.HOLD f = true → apart AUX_KE_m.SKIPS f = true → u.rdi f i = s.rdi f i
  ach : ({ u.ach m with holdOff := none } : AuxCh) = { s.ach m with holdOff := none }

/-- An event acts on this state (R588). -/
def State.auxMoved (s : State) (e : Nat) : State := (s.moveTo e).auxHolds

theorem auxMoved_rdi (s : State) (e : Nat) {f : Fld} (i : Nat) (hf : apart AUX_STATUS_m.HOLD f = true) :
    (s.auxMoved e).rdi f i = s.rdi f i := (mh s e).1 f i hf

theorem auxMoved_rd (s : State) (e : Nat) {f : Fld} (hf : apart AUX_STATUS_m.HOLD f = true) : (s.auxMoved e).rd f = s.rd f :=
  auxMoved_rdi s e 0 hf

theorem auxMoved_astate (s : State) (e m : Nat) : (s.auxMoved e).astate m = s.astate m := auxMoved_rdi s e m (by decide)

theorem auxMoved_stage (s : State) (e : Nat) : (s.auxMoved e).stage = s.stage := auxMoved_rd s e (f := HOST_STATUS.STAGE) (by decide)

theorem auxMoved_biti (s : State) (e : Nat) {f : Fld} (i : Nat) (hf : apart AUX_STATUS_m.HOLD f = true) :
    (s.auxMoved e).biti f i = s.biti f i := congrArg (· == 1) (auxMoved_rdi s e i hf)

theorem auxMoved_routeActs (s : State) (e m : Nat) : (s.auxMoved e).routeActs m = (s.moveTo e).routeActs m := (mh s e).2.2.2.2.2.1 m

theorem auxMoved_legsSet (s : State) (e m : Nat) : (s.auxMoved e).legsSet m = s.legsSet m := (mh s e).2.2.2.2.2.2 m

theorem auxMoved_e (s : State) (e : Nat) : (s.auxMoved e).tm.e = (s.moveTo e).tm.e := (mh s e).2.1

theorem auxMoved_length (s : State) (e : Nat) : (s.auxMoved e).aux.length = s.aux.length := (mh s e).2.2.2.1

theorem auxMoved_ach (s : State) (e m : Nat) :
    ({ (s.auxMoved e).ach m with holdOff := none } : AuxCh) = { s.ach m with holdOff := none } := (mh s e).2.2.2.2.1 m

theorem auxMoved_alike (s : State) (e m : Nat) : AuxAlike s (s.auxMoved e) m :=
  ⟨fun _ i hf _ => auxMoved_rdi s e i hf, auxMoved_ach s e m⟩

theorem AuxAlike.live {s u : State} {m : Nat} (h : AuxAlike s u m) (named : Nat → Bool) (at' : Nat) :
    AuxAlike s (u.live fun s => s.trigEvent named at') m := by
  have hstep : AuxAlike s (u.trigEvent named at') m := by
    refine ⟨fun f i hf hk => ?_, ?_⟩
    · rw [← h.rdi f i hf hk]
      unfold State.trigEvent
      split <;> rfl
    · rw [← h.ach]
      unfold State.ach
      rw [State.trigEvent_aux]
  unfold State.live
  split
  · exact hstep
  · exact h

theorem AuxAlike.skip {s u : State} {m : Nat} (h : AuxAlike s u m) (n k : Nat) : AuxAlike s (u.inci AUX_KE_m.SKIPS n k) m := by
  refine ⟨fun f i hf hk => (State.rdi_wri_apart u n i _ hk).trans (h.rdi f i hf hk), ?_⟩
  rw [← h.ach]
  unfold State.inci State.ach
  rw [State.wri_aux]

theorem AuxAlike.sixStep {s u : State} {m : Nat} (h : AuxAlike s u m) : u.sixStep m = s.sixStep m := by
  have hvd : (u.ach m).vd = (s.ach m).vd := (congrArg AuxCh.vd h.ach :)
  have hvq : (u.ach m).vq = (s.ach m).vq := (congrArg AuxCh.vq h.ach :)
  unfold State.sixStep State.biti State.astate State.rd
  simp (disch := decide) only [h.rdi, hvd, hvq]

theorem AuxAlike.linear {s u : State} {m : Nat} (h : AuxAlike s u m) (v : Rat × Rat) : u.linear m v = s.linear m v := by
  have hcap : (u.ach m).cap = (s.ach m).cap := (congrArg AuxCh.cap h.ach :)
  unfold State.linear State.biti State.rd
  simp (disch := decide) only [h.rdi, hcap]

theorem AuxAlike.turnOn {s u : State} {m : Nat} (h : AuxAlike s u m) (gate : List Nat) : u.turnOn m gate = s.turnOn m gate := by
  unfold State.turnOn State.biti
  simp (disch := decide) only [h.rdi]

theorem AuxAlike.handover {s u : State} {m : Nat} (h : AuxAlike s u m) : u.handover m = s.handover m := by
  unfold State.handover
  simp (disch := decide) only [h.rdi]

/-! ### START, STOP and DIAG (R591, R592, R596) -/

theorem auxStart_shown {s : State} {m : Fin 2} {e : Nat} (hon : s.pwr.mainOn = true) (hstage : 2 ≤ s.stage)
    (hen : s.biti AUX_CH_CFG_m.EN m = true) (hst : s.astate m = 0 ∨ s.astate m = 6) (hroute : (s.moveTo e).routeActs m = false)
    (hlegs : s.legsSet m = false) :
    ∃ t, exec (.auxStart m e) s = .next t ∧ t.astate m = 1 ∧ t.rdi AUX_STATUS_m.HOLD m = 1 ∧ t.rdi AUX_STATUS_m.CODE m = 1 ∧
      t.rd AUX_BUS_STATUS.OV = 0 := by
  have hgo : 2 ≤ (s.auxMoved e).stage ∧ (s.auxMoved e).biti AUX_CH_CFG_m.EN m ∧
      ((s.auxMoved e).astate m = 0 ∨ (s.auxMoved e).astate m = 6) ∧ !(s.auxMoved e).routeActs m ∧ !(s.auxMoved e).legsSet m := by
    rw [auxMoved_astate, auxMoved_stage, auxMoved_routeActs, auxMoved_legsSet, auxMoved_biti s e m (by decide), hroute, hlegs]
    exact ⟨hstage, hen, hst, rfl, rfl⟩
  obtain ⟨hdiag, hhold, hrest⟩ := diag_spec (s.auxMoved e).busCleared m false m.isLt
  have hov : (s.auxMoved e).busCleared.rd AUX_BUS_STATUS.OV = 0 :=
    (State.rd_wr_apart _ _ (by decide)).trans (State.rd_wr_self (s.auxMoved e) (f := AUX_BUS_STATUS.OV) 0 (by decide))
  exact ⟨((s.auxMoved e).busCleared.auxDiag m false).auxPost m 1 0, (next_live hon _).trans (congrArg _ (if_pos hgo)),
    (auxPost_off _ _ _ _ _ _ rfl (.inr rfl)).trans hdiag, (auxPost_off _ _ _ _ _ _ rfl (.inr rfl)).trans hhold,
      auxPost_code _ _ _ _ m.isLt (by decide), ((auxPost_off _ _ _ _ _ _ rfl (.inr rfl)).trans (hrest _ _ (by decide) (by decide))).trans hov⟩

theorem auxStop_run {s : State} {m : Fin 2} {e : Nat} (hon : s.pwr.mainOn = true) (hst : s.astate m = 4) :
    ∃ t, exec (.auxStop m e) s = .next t ∧ t.astate m = 5 ∧ t.rdi AUX_STATUS_m.CAP m = 0 := by
  have hrun := (auxMoved_astate s e m).trans hst
  have hnot : ¬(s.auxMoved e).astate m = 1 := by rw [hrun]; decide
  obtain ⟨hdecel, hcap, -⟩ := decel_spec ((s.auxMoved e).updAch m (fun x => { x with resume := false })) m m.isLt (.inr (.inr hrun))
  exact ⟨_, (next_live hon _).trans (congrArg _ (if_neg hnot)), hdecel, hcap⟩

theorem auxStop_diag {s : State} {m : Fin 2} {e : Nat} (hon : s.pwr.mainOn = true) (hst : s.astate m = 1) :
    ∃ t, exec (.auxStop m e) s = .next t ∧ t.astate m = 0 ∧ t.rdi AUX_STATUS_m.CODE m = 3 ∧ Out.driveOff m ∈ t.out := by
  have hdiag := (auxMoved_astate s e m).trans hst
  obtain ⟨hoff, hcode, -, hout⟩ :=
    down_spec ((s.auxMoved e).updAch m (fun x => { x with resume := false })) m 0 3 0 m.isLt (by decide)
  exact ⟨_, (next_live hon _).trans (congrArg _ (if_pos hdiag)), hoff, hcode, hout⟩

theorem auxDiag_shown {s : State} {m : Fin 2} {e : Nat} (hon : s.pwr.mainOn = true) (hst : s.astate m = 0) (hstage : 2 ≤ s.stage)
    (hroute : (s.moveTo e).routeActs m = false) (hlegs : s.legsSet m = false) :
    ∃ t, exec (.auxDiag m e) s = .next t ∧ t.astate m = 1 ∧ t.rdi AUX_STATUS_m.HOLD m = 1 := by
  obtain ⟨hdiag, hhold, -⟩ := diag_spec (s.auxMoved e) m true m.isLt
  have hgo : (s.auxMoved e).astate m = 0 ∧ 2 ≤ (s.auxMoved e).stage ∧ !(s.auxMoved e).routeActs m ∧ !(s.auxMoved e).legsSet m := by
    rw [auxMoved_astate, auxMoved_stage, auxMoved_routeActs, auxMoved_legsSet, hroute, hlegs]
    exact ⟨hst, hstage, rfl, rfl⟩
  exact ⟨_, (next_live hon _).trans (congrArg _ (if_pos hgo)), hdiag, hhold⟩

/-! ### The diagnostics' end, ALIGN and the handover (R591 to R593) -/

theorem diagBits_lt (x : DiagIn) : diagBits x < 64 := by
  have hite : ∀ (p : Prop) [Decidable p] (k : Nat), (if p then k else 0) ≤ k := fun p _ k => by split <;> omega
  unfold diagBits
  extract_lets wind
  have hwind : ∀ i j k, wind i j k ≤ 2 ^ k := fun i j k => hite _ _
  have hhigh := hite (x.node.any (fun n => decide (85 * x.vaux < 100 * n.2)) = true) 1
  have hlow := hite (x.node.any (fun n => decide (100 * n.1 < 15 * x.vaux)) = true) 2
  have hspin := hite (diagTurning x = true) 32
  have h2 := hwind 0 2 2
  have h3 := hwind 0 1 3
  have h4 := hwind 1 2 4
  omega

/-- DIAG's result with its time over, in the register's DIAG field (R591, R592). -/
def State.diagEnded (s : State) (m b : Nat) (only : Bool) : State :=
  if b ≠ 0 then (s.wri AUX_STATUS_m.DIAG m b).auxDown m 6 5 b
  else if only then (s.wri AUX_STATUS_m.DIAG m b).auxDown m 0 3 0
  else ((s.wri AUX_STATUS_m.DIAG m b).wri AUX_STATUS_m.STATE m 2).updAch m (fun x => { x with since := (s.wri AUX_STATUS_m.DIAG m b).tm.e })

theorem exec_auxDiagDone {s : State} {m : Fin 2} {x : DiagIn} {e : Nat} (hst : s.astate m = 1)
    (hdue : (s.ach m).since + (if diagTurning x then 5000000000 else 4000000) ≤ (s.moveTo e).tm.e) :
    exec (.auxDiagDone m x e) s = .next ((s.auxMoved e).diagEnded m (diagBits x) (s.ach m).diagOnly) := by
  have hsince : ((s.auxMoved e).ach m).since = (s.ach m).since := (congrArg AuxCh.since (auxMoved_ach s e m) :)
  have honly : ((s.auxMoved e).ach m).diagOnly = (s.ach m).diagOnly := (congrArg AuxCh.diagOnly (auxMoved_ach s e m) :)
  have hgo : ¬((s.auxMoved e).astate m ≠ 1 ∨
      (s.auxMoved e).tm.e < ((s.auxMoved e).ach m).since + (if diagTurning x then 5000000000 else 4000000)) := by
    rw [auxMoved_astate, auxMoved_e, hsince]
    omega
  have hbits : ((s.auxMoved e).wri AUX_STATUS_m.DIAG m (diagBits x)).rdi AUX_STATUS_m.DIAG m = diagBits x :=
    (State.rdi_wri_self _ _ m.isLt).trans (Nat.mod_eq_of_lt (diagBits_lt x))
  refine congrArg Host.Outcome.next ((if_neg hgo).trans ?_)
  unfold State.diagEnded
  rw [← honly]
  dsimp only
  rw [show ((s.moveTo e).auxHolds.wri AUX_STATUS_m.DIAG m (diagBits x)).rdi AUX_STATUS_m.DIAG m = diagBits x from hbits]
  rfl

theorem diagEnded_fault (s : State) {m b : Nat} (only : Bool) (hm : m < 2) (hb : b < 64) (hne : b ≠ 0) :
    (s.diagEnded m b only).astate m = 6 ∧ (s.diagEnded m b only).rdi AUX_STATUS_m.CODE m = 5 ∧
      (s.diagEnded m b only).rdi AUX_STATUS_m.DIAG m = b := by
  unfold State.diagEnded
  rw [if_pos hne]
  obtain ⟨hfault, hcode, -⟩ := down_spec (s.wri AUX_STATUS_m.DIAG m b) m 6 5 b hm (by decide)
  exact ⟨hfault, hcode, (down_ap _ _ _ _ _ _ _ rfl (by decide)).trans ((State.rdi_wri_self _ _ hm).trans (Nat.mod_eq_of_lt hb))⟩

theorem diagEnded_align (s : State) {m : Nat} (hm : m < 2) : (s.diagEnded m 0 false).astate m = 2 := by
  unfold State.diagEnded
  rw [if_neg (by decide), if_neg (by decide)]
  exact State.rdi_wri_self _ _ hm

theorem diagEnded_off (s : State) {m : Nat} (hm : m < 2) :
    (s.diagEnded m 0 true).astate m = 0 ∧ (s.diagEnded m 0 true).rdi AUX_STATUS_m.CODE m = 3 := by
  unfold State.diagEnded
  rw [if_neg (by decide), if_pos rfl]
  obtain ⟨hoff, hcode, -⟩ := down_spec (s.wri AUX_STATUS_m.DIAG m 0) m 0 3 0 hm (by decide)
  exact ⟨hoff, hcode⟩

theorem auxAlignDone_shown {s : State} {m : Fin 2} {e : Nat} (hst : s.astate m = 2)
    (hdue : (s.ach m).since + s.rdi AUX_START_m.ALIGN_MS m * 10000000 ≤ (s.moveTo e).tm.e) :
    ∃ t, exec (.auxAlignDone m e) s = .next t ∧ t.astate m = 3 := by
  refine ⟨_, congrArg Host.Outcome.next (if_pos ⟨(auxMoved_astate s e m).trans hst, ?_⟩), State.rdi_wri_self (s.auxMoved e) 3 m.isLt⟩
  have hsince : ((s.auxMoved e).ach m).since = (s.ach m).since := (congrArg AuxCh.since (auxMoved_ach s e m) :)
  show ((s.auxMoved e).ach m).since + (s.auxMoved e).rdi AUX_START_m.ALIGN_MS m * 10000000 ≤ (s.auxMoved e).tm.e
  rw [hsince, auxMoved_rdi s e m (by decide), auxMoved_e]
  exact hdue

theorem auxHandover_shown {s : State} {m : Fin 2} {e a : Nat} (hst : s.astate m = 3) (hagree : (s.ach m).agree = some a)
    (hdue : a + 10000000 ≤ (s.moveTo e).tm.e) :
    ∃ t, exec (.auxHandover m e) s = .next t ∧ t.astate m = 4 ∧ t.rdi AUX_STATUS_m.CODE m = 2 := by
  have hag : ((s.moveTo e).auxHolds.ach m.val).agree = some a := (congrArg AuxCh.agree (auxMoved_ach s e m) :).trans hagree
  have hgo : (s.moveTo e).auxHolds.astate m.val = 3 ∧ a + 10000000 ≤ (s.moveTo e).auxHolds.tm.e :=
    ⟨(auxMoved_astate s e m).trans hst, (auxMoved_e s e).symm ▸ hdue⟩
  show ∃ t, execAuxHandover m e s = .next t ∧ _
  unfold execAuxHandover
  dsimp only
  rw [hag]
  dsimp only
  rw [if_pos hgo]
  exact ⟨_, rfl, (auxPost_off _ _ _ _ _ _ rfl (.inr rfl)).trans (State.rdi_wri_self (s.auxMoved e) 4 m.isLt),
    auxPost_code _ _ _ _ m.isLt (by decide)⟩

end Sys2Proof.Machine
end

section
/-! PROOFS. The loops of a motor channel, its back-EMF and the auxiliary bus (16_thermal_aux_drives.md R590, R594 to R597): O29. -/
namespace Sys2Proof.Machine
open Reg

/-! ### The speed loop (R594, R596) -/

theorem auxRamp_speed (s : State) {m : Nat} (o : Observer) :
    (s.auxRamp m o).rdi AUX_STATUS_m.SPEED m = s.rdi AUX_STATUS_m.SPEED m := by
  unfold State.auxRamp
  extract_lets x ref agree short
  split
  · split
    · exact down_ap _ _ _ _ _ _ _ rfl (by decide)
    · exact State.rdi_wri_apart _ _ _ _ (by decide)
  · rfl

theorem auxRun_speed (s : State) {m : Nat} (o : Observer) :
    (s.auxRun m o).rdi AUX_STATUS_m.SPEED m = s.rdi AUX_STATUS_m.SPEED m := by
  unfold State.auxRun
  split
  · exact decel_rdi _ _ _ _ (by decide) (by decide)
  · rfl

theorem auxSlow_speed (s : State) {m : Nat} (o : Observer) :
    (s.auxSlow m o).rdi AUX_STATUS_m.SPEED m = s.rdi AUX_STATUS_m.SPEED m := by
  unfold State.auxSlow
  extract_lets x
  split
  · split
    · exact down_ap _ _ _ _ _ _ _ rfl (by decide)
    · exact down_ap _ _ _ _ _ _ _ rfl (by decide)
  · rfl

/-- A DECEL below HANDOVER that no back-EMF check caused ends in OFF (R591, R596). -/
theorem auxSlow_off (s : State) {m : Nat} {o : Observer} (hm : m < 2) (hslow : (o.speed : Rat) < s.handover m)
    (hfault : (s.ach m).toFault = false) :
    (s.auxSlow m o).astate m = 0 ∧ (s.auxSlow m o).rdi AUX_STATUS_m.CODE m = 3 := by
  have heq : s.auxSlow m o = s.auxDown m 0 3 0 := by
    unfold State.auxSlow
    rw [if_pos hslow, hfault]
    rfl
  obtain ⟨hoff, hcode, -⟩ := down_spec s m 0 3 0 hm (by decide)
  rw [heq]
  exact ⟨hoff, hcode⟩

/-- The 1 kHz step of a channel in state `st`, its speed shown (R594). -/
def State.speedStep (s : State) (m st : Nat) (o : Observer) : State :=
  if st = 3 then s.auxRamp m o else if st = 4 then s.auxRun m o else if st = 5 then s.auxSlow m o else s

theorem speedStep_speed (s : State) (m st : Nat) (o : Observer) :
    (s.speedStep m st o).rdi AUX_STATUS_m.SPEED m = s.rdi AUX_STATUS_m.SPEED m := by
  unfold State.speedStep
  split
  · exact auxRamp_speed s o
  · split
    · exact auxRun_speed s o
    · split
      · exact auxSlow_speed s o
      · rfl

theorem exec_auxSpeedLoop {s : State} {m : Fin 2} {o : Observer} {e : Nat} (hhalt : s.bit TRI_STATUS.DBG_HALT = false) :
    exec (.auxSpeedLoop m o e) s =
      .next (((s.auxMoved e).wri AUX_STATUS_m.SPEED m (min 65535 o.speed)).speedStep m (s.astate m) o) := by
  have hrun : ¬(s.auxMoved e).bit TRI_STATUS.DBG_HALT = true := by
    rw [show (s.auxMoved e).bit TRI_STATUS.DBG_HALT = s.bit TRI_STATUS.DBG_HALT from auxMoved_biti s e 0 (by decide), hhalt]
    decide
  refine congrArg Host.Outcome.next ((if_neg hrun).trans ?_)
  rw [← auxMoved_astate s e m]
  rfl

theorem auxSpeedLoop_shown {s : State} {m : Fin 2} {o : Observer} {e : Nat} (hhalt : s.bit TRI_STATUS.DBG_HALT = false) :
    ∃ t, exec (.auxSpeedLoop m o e) s = .next t ∧ t.rdi AUX_STATUS_m.SPEED m = min 65535 o.speed ∧
      (s.astate m = 5 → (o.speed : Rat) < s.handover m → (s.ach m).toFault = false →
        t.astate m = 0 ∧ t.rdi AUX_STATUS_m.CODE m = 3) := by
  refine ⟨_, exec_auxSpeedLoop hhalt, ?_, fun hst hslow hfault => ?_⟩
  · refine (speedStep_speed ..).trans ((State.rdi_wri_self _ _ m.isLt).trans (Nat.mod_eq_of_lt ?_))
    show min 65535 o.speed < 65536
    omega
  · have hover : ((s.auxMoved e).wri AUX_STATUS_m.SPEED m (min 65535 o.speed)).handover m = s.handover m := by
      rw [← (auxMoved_alike s e m).handover]
      unfold State.handover
      simp (disch := decide) only [State.rdi_wri_apart]
    have htoFault : (((s.auxMoved e).wri AUX_STATUS_m.SPEED m (min 65535 o.speed)).ach m).toFault = false := by
      unfold State.ach
      rw [State.wri_aux]
      exact (congrArg AuxCh.toFault (auxMoved_ach s e m) :).trans hfault
    rw [hst]
    exact auxSlow_off _ m.isLt (hover.symm ▸ hslow) htoFault

/-! ### The PWM period (R589, R594, R595) -/

theorem auxPwmPeriod_shown {s : State} {m : Fin 2} {c : PhaseSample} {e : Nat} (hhalt : s.bit TRI_STATUS.DBG_HALT = false)
    (hlo : 2 ≤ s.astate m) (hhi : s.astate m ≤ 5) (hall : c.agree = .all) (hlen : s.aux.length = 2) :
    ∃ t, exec (.auxPwmPeriod m c e) s = .next t ∧ Out.drivePwm m (t.ach m).ad (t.ach m).aq (s.turnOn m c.gate) ∈ t.out ∧
      (∀ l, legCurrents (if s.sixStep m then 0 else s.rdi AUX_CH_CFG_m.SAMP_MIN m * 250) c = some l →
        (t.ach m).id = (toRotor l ((c.angle : Rat) * Config.pi / 180000)).re ∧
        (t.ach m).iqm = (toRotor l ((c.angle : Rat) * Config.pi / 180000)).im ∧ (t.ach m).skips = 0) ∧
      (legCurrents (if s.sixStep m then 0 else s.rdi AUX_CH_CFG_m.SAMP_MIN m * 250) c = none → (t.ach m).skips = (s.ach m).skips + 1) ∧
      (s.sixStep m = true → (t.ach m).ad = 0) ∧
      (s.sixStep m = false → ((t.ach m).ad, (t.ach m).aq) = s.linear m ((t.ach m).vd, (t.ach m).vq)) := by
  have hlike := auxMoved_alike s e m
  have hlen' := (auxMoved_length s e).trans hlen
  show ∃ t, execAuxPwmPeriod m c e s = .next t ∧ _
  unfold execAuxPwmPeriod
  change AuxAlike s (s.moveTo e).auxHolds m at hlike
  change (s.moveTo e).auxHolds.aux.length = 2 at hlen'
  generalize (s.moveTo e).auxHolds = v at hlike hlen'
  extract_lets held n st x ls rs bw tp six legs emf w i counted r ed eq xd xq vd vq lin free a u
  have hw : AuxAlike s w m := hlike.live _ _
  have hwlen : w.aux.length = 2 := by
    rw [← hlen']
    simp only [w]
    unfold State.live
    split
    · rw [State.trigEvent_aux]
    · rfl
  have hc : AuxAlike s counted m ∧ counted.aux.length = 2 := by
    simp only [counted]
    split
    · exact ⟨hw.skip _ _, by unfold State.inci; rw [State.wri_aux]; exact hwlen⟩
    · exact ⟨hw, hwlen⟩
  obtain ⟨hcl, hclen⟩ := hc
  have hgo : ¬(w.bit TRI_STATUS.DBG_HALT = true ∨ (st ≠ 2 ∧ st ≠ 3 ∧ st ≠ 4 ∧ st ≠ 5)) := by
    have hbit : w.bit TRI_STATUS.DBG_HALT = false := (congrArg (· == 1) (hw.rdi TRI_STATUS.DBG_HALT 0 (by decide) (by decide))).trans hhalt
    have hst : st = s.astate m := hlike.rdi AUX_STATUS_m.STATE m (by decide) (by decide)
    rw [hbit]
    rintro (h | ⟨h2, h3, h4, h5⟩)
    · cases h
    · omega
  have hsix : six = s.sixStep m := hlike.sixStep
  have hlegs : legs = legCurrents (if s.sixStep m then 0 else s.rdi AUX_CH_CFG_m.SAMP_MIN m * 250) c := by
    simp only [legs, hsix]
    rw [hlike.rdi AUX_CH_CFG_m.SAMP_MIN n (by decide) (by decide)]
  have hskips : (counted.ach m).skips = (s.ach m).skips := (congrArg AuxCh.skips hcl.ach :)
  have hu : u.ach m = { counted.ach m with
      id := i.re, iqm := i.im, vd := vd, vq := vq, e := emf, ad := a.1, aq := a.2
      xd := if free then xd else (counted.ach m).xd, xq := if free then xq else (counted.ach m).xq
      skips := if legs.isNone then (counted.ach m).skips + 1 else 0 } :=
    (ach_upd ..).trans (if_pos ⟨rfl, by rw [hclen]; exact m.isLt⟩)
  have hturn : u.turnOn m c.gate = s.turnOn m c.gate := hcl.turnOn c.gate
  have hend : u.agreed 1 none c.agree (fun s => s.emit (.drivePwm n a.1 a.2 (s.turnOn n c.gate))) id =
      u.emit (.drivePwm n a.1 a.2 (u.turnOn n c.gate)) := by rw [hall, agreed_all]
  refine ⟨_, congrArg Host.Outcome.next ((if_neg hgo).trans hend), ?_⟩
  have hach : (u.emit (.drivePwm n a.1 a.2 (u.turnOn n c.gate))).ach m = u.ach m := rfl
  rw [hach, hu, ← hlegs, ← hsix]
  refine ⟨?_, fun l hl => ?_, fun hl => ?_, fun h6 => ?_, fun h6 => ?_⟩
  · rw [← hturn]
    exact List.mem_append_right _ (List.mem_singleton.mpr rfl)
  · have hi : i = toRotor l ((c.angle : Rat) * Config.pi / 180000) := by simp only [i, hl]
    rw [hi, hl]
    exact ⟨rfl, rfl, rfl⟩
  · rw [hl, ← hskips]
    rfl
  · simp only [a, h6, if_true]
  · have hlin : lin = s.linear m (vd, vq) := hcl.linear _
    rw [← hlin]
    simp only [a, h6, Bool.false_eq_true, if_false]

/-! ### The cap and the back-EMF (R595, R597) -/

/-- The modulation is capped at `cap` in 0.001 (R595). -/
def State.capSet (s : State) (m cap : Nat) : State := (s.wri AUX_STATUS_m.CAP m 1).updAch m (fun x => { x with cap := cap })

theorem capSet_rdi (s : State) (m cap : Nat) (f : Fld) (i : Nat) : (s.capSet m cap).rdi f i = (s.wri AUX_STATUS_m.CAP m 1).rdi f i := rfl

theorem auxWindowCap_shown {s : State} {m : Fin 2} (hst : s.astate m = 4) (hskips : s.rdi AUX_CH_CFG_m.SKIP_MAX m ≤ (s.ach m).skips)
    (hcap : s.rdi AUX_STATUS_m.CAP m = 0) :
    ∃ t, exec (.auxWindowCap m) s = .next t ∧ t.rdi AUX_STATUS_m.CAP m = 1 ∧ t.rdi AUX_STATUS_m.CODE m = 6 ∧ t.astate m = 4 := by
  refine ⟨((s.capSet m (s.freeVal 2 % 1001)).auxPost m 6 (s.freeVal 2 % 1001)).used,
    congrArg Host.Outcome.next (if_pos ⟨hst, hskips, hcap⟩), ?_⟩
  unfold State.astate
  simp only [used_rdi]
  rw [auxPost_off _ _ _ _ AUX_STATUS_m.CAP _ rfl (.inr rfl), auxPost_off _ _ _ _ AUX_STATUS_m.STATE _ rfl (.inr rfl), capSet_rdi, capSet_rdi]
  exact ⟨State.rdi_wri_self s 1 m.isLt, auxPost_code _ _ _ _ m.isLt (by decide), (State.rdi_wri_apart s m m 1 (by decide)).trans hst⟩

/-- KE_MEASURED has its measurement and compares it with the motor's (R597). -/
def State.keShown (s : State) (m ke : Nat) : State :=
  (s.wri AUX_KE_m.KE_MEAS m (min 65535 ke)).updAch m (fun x => { x with keAt := some (s.wri AUX_KE_m.KE_MEAS m (min 65535 ke)).tm.e })

/-- The channel slows to a FAULT (R597). -/
def State.keFault (s : State) (m code ke : Nat) : State :=
  ((s.auxPost m code ke).auxDecel m).updAch m (fun x => { x with toFault := true })

theorem keShown_meas (s : State) {m ke : Nat} (hm : m < 2) : (s.keShown m ke).rdi AUX_KE_m.KE_MEAS m = min 65535 ke := by
  refine (State.rdi_wri_self s _ hm).trans (Nat.mod_eq_of_lt ?_)
  show min 65535 ke < 65536
  omega

theorem keFault_meas (s : State) (m code ke : Nat) : (s.keFault m code ke).rdi AUX_KE_m.KE_MEAS m = s.rdi AUX_KE_m.KE_MEAS m :=
  (decel_rdi _ _ _ _ (by decide) (by decide)).trans (auxPost_off _ _ _ _ _ _ rfl (.inr rfl))

theorem keFault_shown (s : State) {m code ke : Nat} (hm : m < 2) (hcode : code < 32) (hst : s.astate m = 4) :
    (s.keFault m code ke).astate m = 5 ∧ (s.keFault m code ke).rdi AUX_STATUS_m.CODE m = code := by
  have hrun : (s.auxPost m code ke).astate m = 4 := (auxPost_off _ _ _ _ _ _ rfl (.inr rfl)).trans hst
  obtain ⟨hdecel, -, hrest⟩ := decel_spec (s.auxPost m code ke) m hm (.inr (.inr hrun))
  exact ⟨hdecel, (hrest _ _ (by decide) (by decide)).trans (auxPost_code _ _ _ _ hm hcode)⟩

/-- The measurement's end: below the band, above it, or within (R597). -/
def State.keCompared (s : State) (m ke : Nat) (nom tol : Rat) : State :=
  if (ke : Rat) < nom * (1 - tol) then (s.keShown m ke).keFault m 7 ke
  else if nom * (1 + tol) < (ke : Rat) then (s.keShown m ke).keFault m 8 ke
  else s.keShown m ke

theorem exec_keMeasured {s : State} {m : Fin 2} {ke e : Nat} (hst : s.astate m = 4)
    (hdue : (s.ach m).keAt.getD ((s.ach m).steady + 1000000000) + 1000000000 ≤ (s.moveTo e).tm.e)
    (hfast : ((s.rdi AUX_RAMP_m.SPD_MAX m * 3 : Nat) : Rat) ≤ (s.ach m).ref) :
    exec (.keMeasured m ke e) s = .next ((s.auxMoved e).keCompared m ke (s.rdi AUX_MOTOR2_m.KE m : Rat)
      ((s.rdi AUX_MOTOR2_m.KE_TOL m : Rat) / 100)) := by
  have hkeAt : ((s.auxMoved e).ach m).keAt = (s.ach m).keAt := (congrArg AuxCh.keAt (auxMoved_ach s e m) :)
  have hsteady : ((s.auxMoved e).ach m).steady = (s.ach m).steady := (congrArg AuxCh.steady (auxMoved_ach s e m) :)
  have href : ((s.auxMoved e).ach m).ref = (s.ach m).ref := (congrArg AuxCh.ref (auxMoved_ach s e m) :)
  have hgo : ¬((s.auxMoved e).astate m ≠ 4 ∨
      (s.auxMoved e).tm.e < ((s.auxMoved e).ach m).keAt.getD (((s.auxMoved e).ach m).steady + 1000000000) + 1000000000 ∨
      ((s.auxMoved e).ach m).ref < ((s.auxMoved e).rdi AUX_RAMP_m.SPD_MAX m * 3 : Nat)) := by
    rw [auxMoved_astate, auxMoved_e, hkeAt, hsteady, href, auxMoved_rdi s e m (by decide)]
    rintro (h | h | h)
    · exact h hst
    · omega
    · exact absurd hfast (not_le.mpr h)
  refine congrArg Host.Outcome.next ((if_neg hgo).trans ?_)
  rw [← auxMoved_rdi s e m (f := AUX_MOTOR2_m.KE) (by decide), ← auxMoved_rdi s e m (f := AUX_MOTOR2_m.KE_TOL) (by decide)]
  rfl

theorem keCompared_meas (s : State) {m ke : Nat} (nom tol : Rat) (hm : m < 2) :
    (s.keCompared m ke nom tol).rdi AUX_KE_m.KE_MEAS m = min 65535 ke := by
  unfold State.keCompared
  split
  · exact (keFault_meas ..).trans (keShown_meas s hm)
  · split
    · exact (keFault_meas ..).trans (keShown_meas s hm)
    · exact keShown_meas s hm

theorem keMeasured_shown {s : State} {m : Fin 2} {ke e : Nat} (hst : s.astate m = 4)
    (hdue : (s.ach m).keAt.getD ((s.ach m).steady + 1000000000) + 1000000000 ≤ (s.moveTo e).tm.e)
    (hfast : ((s.rdi AUX_RAMP_m.SPD_MAX m * 3 : Nat) : Rat) ≤ (s.ach m).ref) :
    ∃ t, exec (.keMeasured m ke e) s = .next t ∧ t.rdi AUX_KE_m.KE_MEAS m = min 65535 ke ∧
      ((ke : Rat) < (s.rdi AUX_MOTOR2_m.KE m : Rat) * (1 - (s.rdi AUX_MOTOR2_m.KE_TOL m : Rat) / 100) →
        t.astate m = 5 ∧ t.rdi AUX_STATUS_m.CODE m = 7) := by
  refine ⟨_, exec_keMeasured hst hdue hfast, keCompared_meas _ _ _ m.isLt, fun hlow => ?_⟩
  have hrun : ((s.auxMoved e).keShown m ke).astate m = 4 :=
    (State.rdi_wri_apart (s.auxMoved e) m m (min 65535 ke) (by decide)).trans ((auxMoved_astate s e m).trans hst)
  unfold State.keCompared
  rw [if_pos hlow]
  exact keFault_shown _ m.isLt (by decide) hrun

/-! ### The auxiliary bus (R590, R596) -/

/-- A sample of the bus is shown (R590). -/
def State.busSampled (s : State) (e : Nat) (f : Fld) (v : Nat) : State := (s.auxMoved e).wr f (min 1023 v)

theorem busSampled_rdi (s : State) (e v : Nat) {f g : Fld} (i : Nat) (hf : apart f g = true) (hg : apart AUX_STATUS_m.HOLD g = true) :
    (s.busSampled e f v).rdi g i = s.rdi g i :=
  (State.rdi_wri_apart _ _ _ _ hf).trans (auxMoved_rdi s e i hg)

theorem busSampled_rd (s : State) (e v : Nat) {f g : Fld} (hf : apart f g = true) (hg : apart AUX_STATUS_m.HOLD g = true) :
    (s.busSampled e f v).rd g = s.rd g := busSampled_rdi s e v 0 hf hg

theorem busSampled_ach (s : State) (e m v : Nat) (f : Fld) :
    ({ (s.busSampled e f v).ach m with holdOff := none } : AuxCh) = { s.ach m with holdOff := none } := by
  rw [← auxMoved_ach s e m]
  unfold State.busSampled State.ach
  rw [State.wr_aux]

theorem busSampled_self (s : State) (e v : Nat) {f : Fld} (hc : 0 < f.count) (hw : f.w = 10) : (s.busSampled e f v).rd f = min 1023 v := by
  refine (State.rd_wr_self _ _ hc).trans (Nat.mod_eq_of_lt ?_)
  rw [hw]
  omega

theorem vauxUv_shown {s : State} {v e : Nat} (hlow : v < s.rd AUX_BUS_CFG.UV) :
    ∃ t, exec (.vauxUv v e) s = .next t ∧ t.rd AUX_BUS_STATUS.VAUX = min 1023 v ∧ t.rd AUX_BUS_STATUS.UV = 1 ∧
      ∀ m, m < 2 → (s.astate m = 2 ∨ s.astate m = 3 ∨ s.astate m = 4 ∨ s.astate m = 5 → t.astate m = 0 ∧ t.rdi AUX_STATUS_m.CODE m = 9) ∧
        (s.astate m = 1 → t.astate m = 6 ∧ t.rdi AUX_STATUS_m.CODE m = 9) := by
  have hgo : v < (s.busSampled e AUX_BUS_STATUS.VAUX v).rd AUX_BUS_CFG.UV :=
    (busSampled_rd s e v (f := AUX_BUS_STATUS.VAUX) (g := AUX_BUS_CFG.UV) (by decide) (by decide)).symm ▸ hlow
  have hvaux := busSampled_self s e v (f := AUX_BUS_STATUS.VAUX) (by decide) rfl
  have hstate : ∀ m, ((s.busSampled e AUX_BUS_STATUS.VAUX v).wr AUX_BUS_STATUS.UV 1).rdi AUX_STATUS_m.STATE m = s.astate m := fun m =>
    (State.rdi_wri_apart _ _ _ _ (by decide)).trans (busSampled_rdi s e v m (by decide) (by decide))
  have hpos : exec (.vauxUv v e) s = .next ((((s.busSampled e AUX_BUS_STATUS.VAUX v).wr AUX_BUS_STATUS.UV 1).uvChannel 0 v).uvChannel 1 v) :=
    congrArg Host.Outcome.next (if_pos hgo)
  have huv : ((s.busSampled e AUX_BUS_STATUS.VAUX v).wr AUX_BUS_STATUS.UV 1).rd AUX_BUS_STATUS.UV = 1 := State.rd_wr_self _ 1 (by decide)
  have hvaux' : ((s.busSampled e AUX_BUS_STATUS.VAUX v).wr AUX_BUS_STATUS.UV 1).rd AUX_BUS_STATUS.VAUX = min 1023 v :=
    (State.rd_wr_apart _ _ (by decide)).trans hvaux
  refine ⟨_, hpos, ?_⟩
  generalize (s.busSampled e AUX_BUS_STATUS.VAUX v).wr AUX_BUS_STATUS.UV 1 = u at hstate huv hvaux'
  obtain ⟨hrun0, hdiag0, hrest0⟩ := uv_spec u 0 v (by decide)
  obtain ⟨hrun1, hdiag1, hrest1⟩ := uv_spec (u.uvChannel 0 v) 1 v (by decide)
  have hboth : ∀ f, fr 0x1100100000000200 f = true →
      (∀ x ∈ [AUX_STATUS_m.STATE, AUX_STATUS_m.CAP, AUX_STATUS_m.CODE, AUX_STATUS_m.DIAG], apart x f = true) →
      ((u.uvChannel 0 v).uvChannel 1 v).rd f = u.rd f := fun f hf hx =>
    (hrest1 f 0 hf fun x h => .inr (hx x h)).trans (hrest0 f 0 hf fun x h => .inr (hx x h))
  have hstate1 : (u.uvChannel 0 v).rdi AUX_STATUS_m.STATE 1 = s.astate 1 := (hrest0 AUX_STATUS_m.STATE 1 rfl (by decide)).trans (hstate 1)
  have hs0 : ((u.uvChannel 0 v).uvChannel 1 v).rdi AUX_STATUS_m.STATE 0 = (u.uvChannel 0 v).rdi AUX_STATUS_m.STATE 0 := hrest1 _ 0 rfl (by decide)
  have hc0 : ((u.uvChannel 0 v).uvChannel 1 v).rdi AUX_STATUS_m.CODE 0 = (u.uvChannel 0 v).rdi AUX_STATUS_m.CODE 0 := hrest1 _ 0 rfl (by decide)
  refine ⟨(hboth _ rfl (by decide)).trans hvaux', (hboth _ rfl (by decide)).trans huv, fun m hm => ?_⟩
  rcases (by omega : m = 0 ∨ m = 1) with rfl | rfl
  · unfold State.astate at hstate ⊢
    rw [hs0, hc0, ← hstate 0]
    exact ⟨hrun0, hdiag0⟩
  · rw [← hstate1]
    exact ⟨hrun1, hdiag1⟩

/-- One channel at VAUX_UV_RECOVER (R590). -/
def State.uvResumed (s : State) (m : Nat) : State :=
  if (s.ach m).resume && s.astate m == 0 then (s.auxDiag m false).auxPost m 1 0 else s

theorem uvResumed_starts {s : State} {m : Nat} (hm : m < 2) (hres : (s.ach m).resume = true) (hst : s.astate m = 0) :
    (s.uvResumed m).astate m = 1 ∧ (s.uvResumed m).rdi AUX_STATUS_m.CODE m = 1 := by
  obtain ⟨hdiag, -, -⟩ := diag_spec s m false hm
  unfold State.uvResumed
  rw [if_pos (by rw [hres, hst]; rfl)]
  exact ⟨(auxPost_off _ _ _ _ _ _ rfl (.inr rfl)).trans hdiag, auxPost_code _ _ _ _ hm (by decide)⟩

/-- The channel that starts again leaves the other and the bus alone. -/
theorem uvResumed_rdi (s : State) (m : Nat) {f : Fld} (i : Nat) (hf : fr 0x1100100000000200 f = true)
    (h : ∀ x ∈ [AUX_STATUS_m.STATE, AUX_STATUS_m.HOLD, AUX_STATUS_m.CODE], (x = f ∧ m ≠ i) ∨ apart x f = true) :
    (s.uvResumed m).rdi f i = s.rdi f i := by
  unfold State.uvResumed
  split
  · refine (auxPost_off _ _ _ _ _ _ hf (h _ (by simp))).trans ?_
    exact (wri_or _ _ _ _ _ _ (h _ (by simp))).trans (wri_or _ _ _ _ _ _ (h _ (by simp)))
  · rfl

theorem uvResumed_ach (s : State) {m j : Nat} (h : j ≠ m) : (s.uvResumed m).ach j = s.ach j := by
  unfold State.uvResumed
  split
  · have hpost : ∀ u : State, (u.auxPost m 1 0).ach j = u.ach j := fun u => by
      unfold State.auxPost State.ach
      rw [(State.post_only ..).aux rfl, State.wri_aux]
    have hdiag : ∀ (u : State) (g : AuxCh → AuxCh), ((u.updAch m g).emit (.auxHold m true)).ach j = u.ach j := fun u g =>
      (ach_upd ..).trans (if_neg fun hj => h hj.1)
    rw [hpost]
    unfold State.auxDiag
    refine (hdiag _ _).trans ?_
    unfold State.ach
    rw [State.wri_aux, State.wri_aux]
  · rfl

theorem vauxUvRecover_shown {s : State} {v e : Nat} (hback : s.rd AUX_BUS_CFG.UV + 10 ≤ v) :
    ∃ t, exec (.vauxUvRecover v e) s = .next t ∧ t.rd AUX_BUS_STATUS.UV = 0 ∧
      ∀ m, m < 2 → (s.ach m).resume = true → s.astate m = 0 → t.astate m = 1 ∧ t.rdi AUX_STATUS_m.CODE m = 1 := by
  have hgo : (s.busSampled e AUX_BUS_STATUS.VAUX v).rd AUX_BUS_CFG.UV + 10 ≤ v :=
    (busSampled_rd s e v (f := AUX_BUS_STATUS.VAUX) (g := AUX_BUS_CFG.UV) (by decide) (by decide)).symm ▸ hback
  have hpos : exec (.vauxUvRecover v e) s = .next ((((s.busSampled e AUX_BUS_STATUS.VAUX v).wr AUX_BUS_STATUS.UV 0).uvResumed 0).uvResumed 1) :=
    congrArg Host.Outcome.next (if_pos hgo)
  have hstate : ∀ m, ((s.busSampled e AUX_BUS_STATUS.VAUX v).wr AUX_BUS_STATUS.UV 0).astate m = s.astate m := fun m =>
    (State.rdi_wri_apart _ _ _ _ (by decide)).trans (busSampled_rdi s e v m (by decide) (by decide))
  have hresume : ∀ m, (((s.busSampled e AUX_BUS_STATUS.VAUX v).wr AUX_BUS_STATUS.UV 0).ach m).resume = (s.ach m).resume := fun m => by
    rw [← (congrArg AuxCh.resume (busSampled_ach s e m v AUX_BUS_STATUS.VAUX) :)]
    unfold State.ach
    rw [State.wr_aux]
  have huv : ((s.busSampled e AUX_BUS_STATUS.VAUX v).wr AUX_BUS_STATUS.UV 0).rd AUX_BUS_STATUS.UV = 0 := State.rd_wr_self _ 0 (by decide)
  refine ⟨_, hpos, ?_⟩
  generalize (s.busSampled e AUX_BUS_STATUS.VAUX v).wr AUX_BUS_STATUS.UV 0 = u at hstate hresume huv
  refine ⟨?_, fun m hm hres hst => ?_⟩
  · exact (uvResumed_rdi _ _ _ rfl (by decide)).trans ((uvResumed_rdi _ _ _ rfl (by decide)).trans huv)
  · rcases (by omega : m = 0 ∨ m = 1) with rfl | rfl
    · obtain ⟨hdiag, hcode⟩ := uvResumed_starts (s := u) (m := 0) (by decide) ((hresume 0).trans hres) ((hstate 0).trans hst)
      exact ⟨(uvResumed_rdi _ _ _ rfl (by decide)).trans hdiag, (uvResumed_rdi _ _ _ rfl (by decide)).trans hcode⟩
    · refine uvResumed_starts (by decide) ?_ ((uvResumed_rdi u 0 1 rfl (by decide)).trans ((hstate 1).trans hst))
      rw [uvResumed_ach u (by decide)]
      exact (hresume 1).trans hres

/-- Both channels go to FAULT and do not start by themselves (R590). -/
def State.bothFault (s : State) (code v : Nat) : State :=
  (((s.auxDown 0 6 code v).auxDown 1 6 code v).updAch 0 (fun x => { x with resume := false })).updAch 1 (fun x => { x with resume := false })

theorem bothFault_rdi (s : State) (code v : Nat) (f : Fld) (i : Nat) :
    (s.bothFault code v).rdi f i = ((s.auxDown 0 6 code v).auxDown 1 6 code v).rdi f i := by
  unfold State.bothFault
  rw [upd_rdi, upd_rdi]

theorem bothFault_shown (s : State) {code : Nat} (v : Nat) (hcode : code < 32) :
    (∀ m, m < 2 → (s.bothFault code v).astate m = 6 ∧ (s.bothFault code v).rdi AUX_STATUS_m.CODE m = code) ∧
      (s.bothFault code v).rd AUX_BUS_STATUS.OV = s.rd AUX_BUS_STATUS.OV ∧
      (s.bothFault code v).rd AUX_BUS_STATUS.CP_UV = s.rd AUX_BUS_STATUS.CP_UV ∧
      (s.bothFault code v).rd AUX_BUS_STATUS.VCP = s.rd AUX_BUS_STATUS.VCP := by
  obtain ⟨hdown, hrest⟩ := both_down s code v hcode
  unfold State.astate State.rd
  simp only [bothFault_rdi]
  exact ⟨hdown, hrest _ 0 rfl (by decide), hrest _ 0 rfl (by decide), hrest _ 0 rfl (by decide)⟩

theorem vauxOv_shown {s : State} {v e : Nat} (hhigh : s.rd AUX_BUS_CFG.OV < v) :
    ∃ t, exec (.vauxOv v e) s = .next t ∧ t.rd AUX_BUS_STATUS.OV = 1 ∧
      ∀ m, m < 2 → t.astate m = 6 ∧ t.rdi AUX_STATUS_m.CODE m = 10 := by
  have hgo : (s.busSampled e AUX_BUS_STATUS.VAUX v).rd AUX_BUS_CFG.OV < v :=
    (busSampled_rd s e v (f := AUX_BUS_STATUS.VAUX) (g := AUX_BUS_CFG.OV) (by decide) (by decide)).symm ▸ hhigh
  have hexec : exec (.vauxOv v e) s = .next (((s.busSampled e AUX_BUS_STATUS.VAUX v).wr AUX_BUS_STATUS.OV 1).bothFault 10 v) :=
    congrArg Host.Outcome.next (if_pos hgo)
  obtain ⟨hfault, hov, -⟩ := bothFault_shown ((s.busSampled e AUX_BUS_STATUS.VAUX v).wr AUX_BUS_STATUS.OV 1) v (by decide : 10 < 32)
  exact ⟨_, hexec, hov.trans (State.rd_wr_self _ 1 (by decide)), hfault⟩

theorem cpUv_shown (s : State) {v : Nat} (e : Nat) (hlow : v < 90) :
    ∃ t, exec (.cpUv v e) s = .next t ∧ t.rd AUX_BUS_STATUS.CP_UV = 1 ∧ t.rd AUX_BUS_STATUS.VCP = v ∧
      ∀ m, m < 2 → t.astate m = 6 ∧ t.rdi AUX_STATUS_m.CODE m = 11 := by
  have hexec : exec (.cpUv v e) s = .next (((s.busSampled e AUX_BUS_STATUS.VCP v).wr AUX_BUS_STATUS.CP_UV 1).bothFault 11 v) :=
    congrArg Host.Outcome.next (if_pos hlow)
  obtain ⟨hfault, -, hcp, hvcp⟩ := bothFault_shown ((s.busSampled e AUX_BUS_STATUS.VCP v).wr AUX_BUS_STATUS.CP_UV 1) v (by decide : 11 < 32)
  have hsample : (s.busSampled e AUX_BUS_STATUS.VCP v).rd AUX_BUS_STATUS.VCP = v := (busSampled_self s e v (by decide) rfl).trans (by omega)
  exact ⟨_, hexec, hcp.trans (State.rd_wr_self _ 1 (by decide)), hvcp.trans ((State.rd_wr_apart _ _ (by decide)).trans hsample), hfault⟩

theorem regenLimit_shown {s : State} {v e : Nat} (hhigh : s.rd AUX_BUS_CFG.REGEN < v) :
    ∃ t, exec (.regenLimit v e) s = .next t ∧ t.rd AUX_BUS_STATUS.REGEN = 1 := by
  have hgo : (s.busSampled e AUX_BUS_STATUS.VAUX v).rd AUX_BUS_CFG.REGEN < v :=
    (busSampled_rd s e v (f := AUX_BUS_STATUS.VAUX) (g := AUX_BUS_CFG.REGEN) (by decide) (by decide)).symm ▸ hhigh
  exact ⟨_, congrArg Host.Outcome.next (if_pos hgo), State.rd_wr_self _ 1 (by decide)⟩

theorem regenClear_shown {s : State} {v e : Nat} (hlow : v + 10 ≤ s.rd AUX_BUS_CFG.REGEN) :
    ∃ t, exec (.regenClear v e) s = .next t ∧ t.rd AUX_BUS_STATUS.REGEN = 0 := by
  have hgo : v + 10 ≤ (s.busSampled e AUX_BUS_STATUS.VAUX v).rd AUX_BUS_CFG.REGEN :=
    (busSampled_rd s e v (f := AUX_BUS_STATUS.VAUX) (g := AUX_BUS_CFG.REGEN) (by decide) (by decide)).symm ▸ hlow
  exact ⟨_, congrArg Host.Outcome.next (if_pos hgo), State.rd_wr_self _ 0 (by decide)⟩

/-- Settles O29: each event moves a channel as its own lemma shows. -/
theorem motorChannelCommands : Obligations.MotorChannelCommands := by
  unfold Obligations.MotorChannelCommands
  refine ⟨fun s m e hon hstage hen hst hroute hlegs => auxStart_shown hon hstage hen hst hroute hlegs,
    fun s m e hon => ⟨auxStop_run hon, auxStop_diag hon⟩,
    fun s m e hon hst hstage hroute hlegs => auxDiag_shown hon hst hstage hroute hlegs,
    fun s m x e hst hdue => ⟨fun hne => ?_, fun hzero honly => ?_, fun hzero honly => ?_⟩,
    fun s m e hst hdue => auxAlignDone_shown hst hdue,
    fun s m e a hst hagree hdue => auxHandover_shown hst hagree hdue,
    fun s m o e hhalt => auxSpeedLoop_shown hhalt,
    fun s m c e hhalt hlo hhi hall hlen => auxPwmPeriod_shown hhalt hlo hhi hall hlen,
    fun s m hst hskips hcap => auxWindowCap_shown hst hskips hcap,
    fun s m ke e hst hdue hfast => keMeasured_shown hst hdue hfast,
    fun s v e hlow => vauxUv_shown hlow,
    fun s v e hback => vauxUvRecover_shown hback,
    fun s v e hhigh => vauxOv_shown hhigh,
    fun s v e hlow => cpUv_shown s e hlow,
    fun s v e => ⟨regenLimit_shown, regenClear_shown⟩⟩
  · exact ⟨_, exec_auxDiagDone hst hdue, diagEnded_fault _ _ m.isLt (diagBits_lt x) hne⟩
  · have hexec := exec_auxDiagDone (e := e) hst hdue
    rw [hzero, honly] at hexec
    exact ⟨_, hexec, diagEnded_align _ m.isLt⟩
  · have hexec := exec_auxDiagDone (e := e) hst hdue
    rw [hzero, honly] at hexec
    exact ⟨_, hexec, diagEnded_off _ m.isLt⟩

end Sys2Proof.Machine
end

section
/-! PROOFS. References, loops, time registers and the sync pulse (17_clocks_power_lifecycle.md R615 to R630): O1. -/
namespace Sys2Proof.Machine
open Reg

/-! ### Bits of a 3-bit field -/

theorem bitOf_set3 (v p q : Nat) (hq : q < 3) :
    bitOf (setBit v p % 2 ^ 3) q = (bitOf v q || decide (p = q)) := (bitOf_mod _ _ _ hq).trans (bitOf_setBit v p q)

theorem bitOf_clr3 (v p q : Nat) (hq : q < 3) :
    bitOf (clrBit v p % 2 ^ 3) q = (bitOf v q && !decide (p = q)) := (bitOf_mod _ _ _ hq).trans (bitOf_clrBit v p q)

/-! ### The clock's records, the qualification and the selection leave the registers alone -/

theorem clockEvent_rd (s : State) (code src : Nat) (arg : Int) (f : Fld) (hf : fr 0x1100100000000200 f = true) :
    (s.clockEvent code src arg).rd f = s.rd f := (s.clockEvent_only code src arg).rd f hf

/-- The qualification times and the selection rule go on (R617). -/
def State.requalified (s : State) : State := s.qualTrack.reselect

theorem requalified_regs (s : State) : s.requalified.regs = s.regs := by
  have hqual : s.qualTrack.regs = s.regs := rfl
  unfold State.requalified
  rw [← hqual]
  generalize s.qualTrack = u
  unfold State.reselect
  cases u.refOrder.find? u.qualifies with
  | none => rfl
  | some b =>
    dsimp only
    split
    · split <;> rfl
    · split <;> rfl

theorem requalified_rd (s : State) (f : Fld) : s.requalified.rd f = s.rd f := rdi_of_regs (requalified_regs s) f 0

/-! ### Loops that coast (R617, R619, R623) -/

theorem loopCoast_locked (s : State) (p : Nat) :
    (s.loopCoast p).rd CLK_PLL_STATUS.LOCKED = clrBit (s.rd CLK_PLL_STATUS.LOCKED) p % 2 ^ 3 := by
  have hset : ∀ v w, ((s.wr CLK_PLL_STATUS.LOCKED v).wr CLK_PLL_STATUS.COAST w).rd CLK_PLL_STATUS.LOCKED = v % 2 ^ 3 := fun v w =>
    (State.rd_wr_apart _ _ (by decide)).trans (State.rd_wr_self s v (by decide))
  unfold State.loopCoast
  extract_lets u
  split
  · rw [clockEvent_rd _ _ _ _ _ rfl]
    exact (State.rdi_wri_apart u 0 0 _ (by decide)).trans (hset _ _)
  · exact hset _ _

theorem loopCoast_coast (s : State) (p : Nat) :
    (s.loopCoast p).rd CLK_PLL_STATUS.COAST = setBit (s.rd CLK_PLL_STATUS.COAST) p % 2 ^ 3 := by
  have hset : ∀ v w, ((s.wr CLK_PLL_STATUS.LOCKED v).wr CLK_PLL_STATUS.COAST w).rd CLK_PLL_STATUS.COAST = w % 2 ^ 3 := fun v w =>
    State.rd_wr_self _ w (by decide)
  unfold State.loopCoast
  extract_lets u
  split
  · rw [clockEvent_rd _ _ _ _ _ rfl]
    exact (State.rdi_wri_apart u 0 0 _ (by decide)).trans (hset _ _)
  · exact hset _ _

/-- The registers that coasting leaves. -/
def coastLeaves (f : Fld) : Bool :=
  fr 0x1100100000000200 f && [CLK_PLL_STATUS.LOCKED, CLK_PLL_STATUS.COAST, CLK_PLL_STATUS.LOSS].all (fun x => apart x f)

theorem loopCoast_rd (s : State) (p : Nat) {f : Fld} (hf : coastLeaves f = true) : (s.loopCoast p).rd f = s.rd f := by
  obtain ⟨hfr, hall⟩ := Bool.and_eq_true_iff.mp hf
  have hap := List.all_eq_true.mp hall
  have hset : ∀ v w, ((s.wr CLK_PLL_STATUS.LOCKED v).wr CLK_PLL_STATUS.COAST w).rd f = s.rd f := fun v w =>
    (State.rd_wr_apart _ _ (hap _ (by simp))).trans (State.rd_wr_apart _ _ (hap _ (by simp)))
  unfold State.loopCoast
  extract_lets u
  split
  · rw [clockEvent_rd _ _ _ _ _ hfr]
    exact (State.rdi_wri_apart u 0 0 _ (hap _ (by simp))).trans (hset _ _)
  · exact hset _ _

theorem loopCoast_shown (s : State) {p : Nat} (hp : p < 3) :
    bitOf ((s.loopCoast p).rd CLK_PLL_STATUS.COAST) p = true ∧ bitOf ((s.loopCoast p).rd CLK_PLL_STATUS.LOCKED) p = false := by
  rw [loopCoast_coast, loopCoast_locked, bitOf_set3 _ _ _ hp, bitOf_clr3 _ _ _ hp]
  simp

theorem allCoast_rd (s : State) {f : Fld} (hf : coastLeaves f = true) : s.allCoast.rd f = s.rd f :=
  (loopCoast_rd _ 2 hf).trans ((loopCoast_rd _ 1 hf).trans (loopCoast_rd _ 0 hf))

theorem allCoast_shown (s : State) (p : Nat) (hp : p < 3) :
    bitOf (s.allCoast.rd CLK_PLL_STATUS.COAST) p = true ∧ bitOf (s.allCoast.rd CLK_PLL_STATUS.LOCKED) p = false := by
  unfold State.allCoast
  simp only [loopCoast_coast, loopCoast_locked]
  rw [bitOf_set3 _ _ _ hp, bitOf_set3 _ _ _ hp, bitOf_clr3 _ _ _ hp, bitOf_clr3 _ _ _ hp]
  rcases (by omega : p = 0 ∨ p = 1 ∨ p = 2) with rfl | rfl | rfl
  · rw [bitOf_set3 _ _ _ (by decide), bitOf_clr3 _ _ _ (by decide)]
    simp
  · simp
  · simp

/-! ### The vote (R616 to R619) -/

/-- A sequence of steps that each set a bit of OUT sets every bit it names and clears none. -/
theorem foldl_setsOut {g : State → Nat → State} (hg : ∀ u i, (g u i).rd CLK_REF_STATUS.OUT = setBit (u.rd CLK_REF_STATUS.OUT) i % 2 ^ 3)
    {j : Nat} (hj : j < 3) (l : List Nat) (u : State) (h : j ∈ l ∨ bitOf (u.rd CLK_REF_STATUS.OUT) j = true) :
    bitOf ((l.foldl g u).rd CLK_REF_STATUS.OUT) j = true := by
  induction l generalizing u with
  | nil => exact h.resolve_left (List.not_mem_nil)
  | cons i l ih =>
    refine ih (g u i) ?_
    rw [hg, bitOf_set3 _ _ _ hj]
    rcases h with h | h
    · rcases List.mem_cons.mp h with rfl | h
      · exact .inr (by simp)
      · exact .inl h
    · exact .inr (by rw [h]; rfl)

theorem absI_neg (x : Int) : absI (-x) = absI x := by
  unfold absI
  split <;> split <;> omega

theorem moveTo_refValidNow (s : State) (e i : Nat) : (s.moveTo e).refValidNow i = s.refValidNow i := by
  unfold State.refValidNow State.refOn State.bit
  simp only [rd_moveTo]

theorem refVoteUpdate_shown {s : State} {dxa dxb dab : Int} {e : Nat} (hon : s.pwr.mainOn = true)
    (hvalid : ∀ i, i < 3 → s.refValidNow i = true) :
    ∃ t, exec (.refVoteUpdate dxa dxb dab e) s = .next t ∧ t.rd CLK_REF_STATUS.VOTE = 2 ∧
      ((s.rd CLK_REF_CFG.WINDOW : Int) * 1000 < absI dxa → (s.rd CLK_REF_CFG.WINDOW : Int) * 1000 < absI dab → absI dxb ≤ (s.rd CLK_REF_CFG.WINDOW : Int) * 1000 →
        bitOf (t.rd CLK_REF_STATUS.OUT) 1 = true) := by
  refine ⟨_, next_live hon _, ?_⟩
  extract_lets u w d v far out pairs diff anyOut suspect newly sel agree clk0 u1 u2 u3 u4 u5 clk5 u6 u7 u8 calm clk8
  have hreg : ∀ f, u.rd f = s.rd f := rd_moveTo s e
  have hv : v = [0, 1, 2] := by
    have hall : ∀ i, i < 3 → u.refValidNow i = true := fun i hi => (moveTo_refValidNow s e i).trans (hvalid i hi)
    simp only [v, List.range_succ, List.range_zero, List.nil_append, List.cons_append, List.filter_cons, List.filter_nil,
      hall 0 (by decide), hall 1 (by decide), hall 2 (by decide), if_true]
  have hlater : ∀ f, coastLeaves f = true → apart CLK_REF_STATUS.DIFF_MAX f = true → apart CLK_REF_STATUS.REF_SUSPECT f = true →
      apart CLK_REF_STATUS.COAST f = true → u8.rd f = (u3.wr CLK_REF_STATUS.VOTE (v.length - 1)).rd f := by
    intro f hf hdiff hsus hcoast
    obtain ⟨hfr, -⟩ := Bool.and_eq_true_iff.mp hf
    have h4 : u4.rd f = (u3.wr CLK_REF_STATUS.VOTE (v.length - 1)).rd f := State.rd_wr_apart _ _ hdiff
    have h5 : u5.rd f = u4.rd f := by
      simp only [u5]
      split
      · exact clockEvent_rd _ _ _ _ _ hfr
      · rfl
    have h7 : u7.rd f = u5.rd f := by
      simp only [u7]
      split
      · exact State.rd_wr_apart u6 1 hsus
      · rfl
    have h8 : u8.rd f = u7.rd f := by
      simp only [u8]
      split
      · rw [clockEvent_rd _ _ _ _ _ hfr, allCoast_rd _ hf]
        exact State.rd_wr_apart u7 1 hcoast
      · rfl
    rw [h8, h7, h5, h4]
  have hend : ∀ c : ClkSt, ∀ f, ({ u8 with clk := c } : State).qualTrack.reselect.rd f = u8.rd f := fun c f =>
    requalified_rd ({ u8 with clk := c } : State) f
  rw [hend, hend, hlater _ (by decide) (by decide) (by decide) (by decide), hlater _ (by decide) (by decide) (by decide) (by decide)]
  refine ⟨?_, fun hxa hab hxb => ?_⟩
  · rw [hv]
    exact State.rd_wr_self u3 2 (by decide)
  · have hout : out 1 = true := by
      have h12 : far 1 2 = true := decide_eq_true (by simp only [w, hreg]; exact hab)
      have h10 : far 1 0 = true := decide_eq_true (by simp only [w, hreg, d, absI_neg]; exact hxa)
      have h20 : far 2 0 = false := decide_eq_false (by simp only [w, hreg, d, absI_neg]; exact not_lt.mpr hxb)
      simp only [out, hv, h12, h10, h20]
      rfl
    have h3 : u3.rd CLK_REF_STATUS.OUT = u2.rd CLK_REF_STATUS.OUT :=
      foldl_keep (fun u : State => u.rd CLK_REF_STATUS.OUT) _ (fun x i => State.rdi_wri_apart x i 0 _ (by decide)) _ u2
    rw [State.rd_wr_apart _ _ (by decide), h3]
    refine foldl_setsOut (fun x i => (clockEvent_rd _ _ _ _ _ rfl).trans (State.rd_wr_self x _ (by decide))) (by decide) newly u1 ?_
    by_cases hwas : bitOf (u.rd CLK_REF_STATUS.OUT) 1 = true
    · exact .inr hwas
    · refine .inl (List.mem_filter.mpr ⟨by decide, ?_⟩)
      rw [hout, Bool.eq_false_iff.mpr hwas]
      rfl

end Sys2Proof.Machine
end

section
/-! PROOFS. Sources lost, valid and selected, the loops' values, and the time registers (17_clocks_power_lifecycle.md R615 to R627): O1. -/
namespace Sys2Proof.Machine
open Reg

/-! ### Sources (R615 to R619) -/

theorem moveTo_refOn (s : State) (e i : Nat) : (s.moveTo e).refOn i = s.refOn i := by
  unfold State.refOn State.bit
  simp only [rd_moveTo]

theorem refLost_shown {s : State} {i : Fin 3} {e : Nat} (hon : s.pwr.mainOn = true) (hen : s.refOn i = true) :
    ∃ t, exec (.refLost i e) s = .next t ∧ bitOf (t.rd CLK_REF_STATUS.LOST) i = true ∧
      (s.rd CLK_REF_STATUS.SEL = i.val → ∀ p, p < 3 → bitOf (t.rd CLK_PLL_STATUS.COAST) p = true ∧ bitOf (t.rd CLK_PLL_STATUS.LOCKED) p = false) := by
  have hgo : ¬((!(s.moveTo e).refOn i.val) = true) := by
    rw [moveTo_refOn, hen]
    decide
  refine ⟨_, (next_live hon _).trans (congrArg Host.Outcome.next (if_neg hgo)), ?_⟩
  extract_lets had clk u1 u2 u3 u4
  have hend : ∀ f, u4.qualTrack.reselect.rd f = u4.rd f := requalified_rd u4
  have h3 : ∀ f, fr 0x1100100000000200 f = true → u3.rd f = u2.rd f := fun f hf => by
    simp only [u3]
    split
    · rfl
    · exact clockEvent_rd _ _ _ _ _ hf
  have hlost : bitOf (u3.rd CLK_REF_STATUS.LOST) i = true := by
    rw [h3 _ rfl, show u2.rd CLK_REF_STATUS.LOST = _ from State.rd_wr_self u1 _ (by decide)]
    exact (bitOf_set3 _ _ _ i.isLt).trans (by simp)
  have hsel : u3.rd CLK_REF_STATUS.SEL = s.rd CLK_REF_STATUS.SEL :=
    (h3 _ rfl).trans ((State.rd_wr_apart u1 _ (by decide)).trans (rd_moveTo s e _))
  simp only [hend, u4]
  refine ⟨?_, fun hi p hp => ?_⟩
  · split
    · rw [allCoast_rd _ (by decide)]
      exact hlost
    · exact hlost
  · rw [if_pos (hsel.trans hi)]
    exact allCoast_shown u3 p hp

theorem refValid_shown {s : State} {i : Fin 3} {e : Nat} (hon : s.pwr.mainOn = true) (hlost : bitOf (s.rd CLK_REF_STATUS.LOST) i = true)
    (hdue : (s.clk.edges.getD i none).getD 0 + 1000000000 ≤ (s.moveTo e).tm.e) :
    ∃ t, exec (.refValid i e) s = .next t ∧ bitOf (t.rd CLK_REF_STATUS.LOST) i = false := by
  have hedges : (s.moveTo e).clk.edges = s.clk.edges := (congrArg ClkSt.edges (mclk s e) :)
  have hgo : bitOf ((s.moveTo e).rd CLK_REF_STATUS.LOST) i.val ∧
      ((s.moveTo e).clk.edges.getD i.val none).getD 0 + 1000000000 ≤ (s.moveTo e).tm.e := by
    rw [rd_moveTo, hedges]
    exact ⟨hlost, hdue⟩
  refine ⟨_, (next_live hon _).trans (congrArg Host.Outcome.next (if_pos hgo)), ?_⟩
  refine (congrArg (bitOf · i.val) ((requalified_rd _ _).trans ((clockEvent_rd _ _ _ _ _ rfl).trans
    (State.rd_wr_self (s.moveTo e) _ (by decide))))).trans ((bitOf_clr3 _ _ _ i.isLt).trans (by simp))

theorem refReadmit_shown {s : State} {i : Fin 3} {e a : Nat} (hon : s.pwr.mainOn = true) (hout : bitOf (s.rd CLK_REF_STATUS.OUT) i = true)
    (hagree : s.clk.agree.getD i none = some a) (hdue : a + 10000000000 ≤ (s.moveTo e).tm.e) :
    ∃ t, exec (.refReadmit i e) s = .next t ∧ bitOf (t.rd CLK_REF_STATUS.OUT) i = false := by
  have hag : (s.moveTo e).clk.agree.getD i.val none = some a := by
    rw [show (s.moveTo e).clk.agree = s.clk.agree from (congrArg ClkSt.agree (mclk s e) :)]
    exact hagree
  have hgo : bitOf ((s.moveTo e).rd CLK_REF_STATUS.OUT) i.val ∧ a + 10000000000 ≤ (s.moveTo e).tm.e := by
    rw [rd_moveTo]
    exact ⟨hout, hdue⟩
  rw [show exec (.refReadmit i e) s = _ from next_live hon _]
  dsimp only
  rw [hag]
  dsimp only
  rw [if_pos hgo]
  refine ⟨_, rfl, ?_⟩
  refine (congrArg (bitOf · i.val) ((requalified_rd _ _).trans ((clockEvent_rd _ _ _ _ _ rfl).trans
    (State.rd_wr_self (s.moveTo e) _ (by decide))))).trans ((bitOf_clr3 _ _ _ i.isLt).trans (by simp))

/-- The selection names its new source (R617). -/
def State.selected (s : State) (b : Nat) : State :=
  { (s.wr CLK_REF_STATUS.SEL b).inc CLK_REF_STATUS.MOVES 1 with
    clk := { ((s.wr CLK_REF_STATUS.SEL b).inc CLK_REF_STATUS.MOVES 1).clk with moveTo := none, moved := true } }

/-- The loops follow the selected source, unless they are held to coast (R618, R619). -/
def State.followed (s : State) : State := if s.rd CLK_REF_STATUS.COAST = 0 then s.wr CLK_PLL_STATUS.COAST 0 else s

theorem selected_rd (s : State) (b : Nat) (f : Fld) :
    (s.selected b).rd f = ((s.wr CLK_REF_STATUS.SEL b).inc CLK_REF_STATUS.MOVES 1).rd f := rfl

theorem followed_rd (s : State) {f : Fld} (hf : apart CLK_PLL_STATUS.COAST f = true) : s.followed.rd f = s.rd f := by
  unfold State.followed
  split
  · exact State.rd_wr_apart s 0 hf
  · rfl

theorem followed_clk (s : State) : s.followed.clk = s.clk := by
  unfold State.followed
  split
  · exact State.wr_clk ..
  · rfl

theorem exec_refSelectMove {s : State} {b e : Nat} (hon : s.pwr.mainOn = true) (hmove : s.clk.moveTo = some b) :
    exec (.refSelectMove e) s =
      .next ((((s.moveTo e).selected b).followed.newDividers).clockEvent 5 ((s.moveTo e).rd CLK_REF_STATUS.SEL) b) := by
  have hmove' : (s.moveTo e).clk.moveTo = some b := (congrArg ClkSt.moveTo (mclk s e) :).trans hmove
  rw [show exec (.refSelectMove e) s = _ from next_live hon _]
  dsimp only
  rw [hmove']
  rfl

theorem refSelectMove_shown {s : State} {b e : Nat} (hon : s.pwr.mainOn = true) (hmove : s.clk.moveTo = some b) :
    ∃ t, exec (.refSelectMove e) s = .next t ∧ t.rd CLK_REF_STATUS.SEL = b % 4 ∧
      t.rd CLK_REF_STATUS.MOVES = min 255 (s.rd CLK_REF_STATUS.MOVES + 1) ∧ t.clk.moveTo = none ∧ t.clk.moved = true := by
  refine ⟨_, exec_refSelectMove hon hmove, ?_⟩
  have hdiv : ∀ (u : State) f, u.newDividers.rd f = u.rd f := fun _ _ => rfl
  have hmv : ∀ u : State, u.newDividers.clk.moveTo = u.clk.moveTo ∧ u.newDividers.clk.moved = u.clk.moved := fun _ => ⟨rfl, rfl⟩
  rw [clockEvent_rd _ _ _ _ _ rfl, clockEvent_rd _ _ _ _ _ rfl, State.clockEvent_clk, hdiv, hdiv, (hmv _).1, (hmv _).2,
    followed_rd _ (by decide), followed_rd _ (by decide), followed_clk, selected_rd, selected_rd]
  refine ⟨?_, ?_, rfl, rfl⟩
  · exact (State.rdi_wri_apart _ 0 0 _ (by decide)).trans (State.rd_wr_self (s.moveTo e) b (by decide))
  · rw [rd_inc_byte _ rfl (by decide), State.rd_wr_apart _ _ (by decide), rd_moveTo]

theorem refCoastEnd_shown {s : State} {c e : Nat} (hon : s.pwr.mainOn = true) (hcalm : s.clk.calm = some c)
    (hcoast : s.rd CLK_REF_STATUS.COAST = 1) (hdue : c + 10000000000 ≤ (s.moveTo e).tm.e) :
    ∃ t, exec (.refCoastEnd e) s = .next t ∧ t.rd CLK_REF_STATUS.COAST = 0 ∧ t.rd CLK_PLL_STATUS.COAST = 0 := by
  have hcalm' : (s.moveTo e).clk.calm = some c := (congrArg ClkSt.calm (mclk s e) :).trans hcalm
  have hgo : (s.moveTo e).rd CLK_REF_STATUS.COAST = 1 ∧ c + 10000000000 ≤ (s.moveTo e).tm.e := by
    rw [rd_moveTo]
    exact ⟨hcoast, hdue⟩
  rw [show exec (.refCoastEnd e) s = _ from next_live hon _]
  dsimp only
  rw [hcalm']
  dsimp only
  rw [if_pos hgo]
  refine ⟨_, rfl, ?_⟩
  rw [clockEvent_rd _ _ _ _ _ rfl, clockEvent_rd _ _ _ _ _ rfl]
  exact ⟨(State.rd_wr_apart _ _ (by decide)).trans (State.rd_wr_self (s.moveTo e) 0 (by decide)), State.rd_wr_self _ 0 (by decide)⟩

/-! ### Loops (R621 to R623) -/

/-- Each loop takes its values (R621). -/
def State.divided (s : State) (vs : List (Nat × Nat)) (ps : List Nat) : State :=
  ps.foldl (fun s p => (s.wri CLK_PLL_INT_p.INT p (vs.getD p (0, 0)).1).wri CLK_PLL_FRAC_p.FRAC p (vs.getD p (0, 0)).2) s

theorem divided_other (s : State) (vs : List (Nat × Nat)) (ps : List Nat) {q : Nat} (hq : q ∉ ps) :
    (s.divided vs ps).rdi CLK_PLL_INT_p.INT q = s.rdi CLK_PLL_INT_p.INT q ∧
      (s.divided vs ps).rdi CLK_PLL_FRAC_p.FRAC q = s.rdi CLK_PLL_FRAC_p.FRAC q := by
  induction ps generalizing s with
  | nil => exact ⟨rfl, rfl⟩
  | cons p ps ih =>
    obtain ⟨hne, hrest⟩ := not_or.mp fun h => hq (List.mem_cons.mpr h)
    obtain ⟨hint, hfrac⟩ := ih ((s.wri CLK_PLL_INT_p.INT p (vs.getD p (0, 0)).1).wri CLK_PLL_FRAC_p.FRAC p (vs.getD p (0, 0)).2) hrest
    refine ⟨hint.trans ?_, hfrac.trans ?_⟩
    · exact (State.rdi_wri_apart _ p q _ (by decide)).trans (State.rdi_wri_entry _ _ (Ne.symm hne))
    · exact (State.rdi_wri_entry _ _ (Ne.symm hne)).trans (State.rdi_wri_apart _ p q _ (by decide))

theorem divided_shown (s : State) (vs : List (Nat × Nat)) {ps : List Nat} (hnd : ps.Nodup) {p : Nat} (hmem : p ∈ ps) (hp : p < 3) :
    (s.divided vs ps).rdi CLK_PLL_INT_p.INT p = (vs.getD p (0, 0)).1 % 512 ∧
      (s.divided vs ps).rdi CLK_PLL_FRAC_p.FRAC p = (vs.getD p (0, 0)).2 % 2 ^ 24 := by
  induction ps generalizing s with
  | nil => exact absurd hmem (List.not_mem_nil)
  | cons q ps ih =>
    obtain ⟨hq, hnd⟩ := List.nodup_cons.mp hnd
    rcases List.mem_cons.mp hmem with rfl | hmem
    · obtain ⟨hint, hfrac⟩ := divided_other
        ((s.wri CLK_PLL_INT_p.INT p (vs.getD p (0, 0)).1).wri CLK_PLL_FRAC_p.FRAC p (vs.getD p (0, 0)).2) vs ps hq
      exact ⟨hint.trans ((State.rdi_wri_apart _ p p _ (by decide)).trans (State.rdi_wri_self s _ hp)),
        hfrac.trans (State.rdi_wri_self _ _ hp)⟩
    · exact ih _ hnd hmem

theorem pllDividerUpdate_shown {s : State} {vs : List (Nat × Nat)} (hon : s.pwr.mainOn = true) (hpend : s.clk.divPend = some vs) :
    ∃ t, exec .pllDividerUpdate s = .next t ∧ t.clk.divPend = none ∧
      ∀ p, p < 3 → t.rdi CLK_PLL_INT_p.INT p = (vs.getD p (0, 0)).1 % 512 ∧ t.rdi CLK_PLL_FRAC_p.FRAC p = (vs.getD p (0, 0)).2 % 2 ^ 24 := by
  have hexec : exec .pllDividerUpdate s = _ := next_live hon _
  rw [hexec]
  dsimp only
  rw [hpend]
  dsimp only
  refine ⟨_, rfl, rfl, fun p hp => ?_⟩
  exact divided_shown s vs (List.nodup_range (n := 3)) (List.mem_range.mpr hp) hp

theorem pllLockLost_shown {s : State} (p : Fin 3) (e : Nat) (hon : s.pwr.mainOn = true) :
    ∃ t, exec (.pllLockLost p e) s = .next t ∧ bitOf (t.rd CLK_PLL_STATUS.COAST) p = true ∧ bitOf (t.rd CLK_PLL_STATUS.LOCKED) p = false :=
  ⟨_, next_live hon _, loopCoast_shown (s.moveTo e) p.isLt⟩

theorem pllLocked_shown {s : State} {p : Fin 3} {e : Nat} (hon : s.pwr.mainOn = true) (hcoast : s.rd CLK_REF_STATUS.COAST = 0)
    (hlost : bitOf (s.rd CLK_REF_STATUS.LOST) (s.rd CLK_REF_STATUS.SEL) = false) (hfree : bitOf (s.rd CLK_PLL_STATUS.LOCKED) p = false) :
    ∃ t, exec (.pllLocked p e) s = .next t ∧ bitOf (t.rd CLK_PLL_STATUS.COAST) p = false ∧ bitOf (t.rd CLK_PLL_STATUS.LOCKED) p = true := by
  have hgo : ¬((s.moveTo e).rd CLK_REF_STATUS.COAST = 1 ∨ bitOf ((s.moveTo e).rd CLK_REF_STATUS.LOST) ((s.moveTo e).rd CLK_REF_STATUS.SEL) ∨
      bitOf ((s.moveTo e).rd CLK_PLL_STATUS.LOCKED) p.val) := by
    rw [rd_moveTo, rd_moveTo, rd_moveTo, rd_moveTo, hcoast, hlost, hfree]
    decide
  refine ⟨_, (next_live hon _).trans (congrArg Host.Outcome.next (if_neg hgo)), ?_⟩
  rw [clockEvent_rd _ _ _ _ _ rfl, clockEvent_rd _ _ _ _ _ rfl, State.rd_wr_self _ _ (by decide), State.rd_wr_apart _ _ (by decide),
    State.rd_wr_self _ _ (by decide)]
  exact ⟨(bitOf_clr3 _ _ _ p.isLt).trans (by simp), (bitOf_set3 _ _ _ p.isLt).trans (by simp)⟩

theorem clkPllSeedWrite_taken {s : State} {p : Fin 3} {v : Nat} (hon : s.pwr.mainOn = true) (hne : bits v 0 24 ≠ 0) :
    ∃ t, exec (.clkPllSeedWrite p v) s = .next t ∧ t.rdi CLK_PLL_SEED_p.SEED p = bits v 0 24 ∧
      t.clk.seedPend = s.clk.seedPend.set p (some (bits v 0 24)) := by
  refine ⟨_, (next_live hon _).trans (congrArg Host.Outcome.next (if_neg hne)), ?_, ?_⟩
  · exact (State.rdi_wri_self (s.wri CLK_PLL_SEED_p.DITHER_EN p (bits v 31 1)) _ p.isLt).trans (bits_mod ..)
  · dsimp only
    rw [State.wri_clk, State.wri_clk]

theorem clkPllSeedWrite_refused {s : State} {p : Fin 3} {v : Nat} (hon : s.pwr.mainOn = true) (hzero : bits v 0 24 = 0) :
    ∃ t, exec (.clkPllSeedWrite p v) s = .next t ∧ t.rd CLK_PLL_STATUS.CFG_ERR = 1 ∧ t.rdi CLK_PLL_SEED_p.SEED p = s.rdi CLK_PLL_SEED_p.SEED p :=
  ⟨_, (next_live hon _).trans (congrArg Host.Outcome.next (if_pos hzero)), rd_refuse_self s rfl (by decide),
    State.rdi_wri_apart s 0 p 1 (by decide)⟩

/-! ### The alarm and the latching reads (R624, R627, R661) -/

/-- The alarm's record, the wake of a sleeping device, and the disarming (R627). -/
def State.alarmed (s : State) : State := if s.bit PWR_STATUS.SLEEP then s.wake 3 else s

theorem wake_shown (s : State) : (s.wake 3).rd PWR_STATUS.SLEEP = 0 ∧ (s.wake 3).rd PWR_STATUS.WAKE_SRC = 3 := by
  unfold State.wake
  have hpost : ∀ (u : State) a b f, fr 0x1100100000000200 f = true → (u.powerEvent a b).rd f = u.rd f := fun u a b f hf =>
    (State.powerEvent_only u a b).rd f hf
  rw [hpost _ _ _ _ rfl, hpost _ _ _ _ rfl]
  refine ⟨(State.rd_wr_apart ((s.wr PWR_STATUS.SLEEP 0).wr HOST_STATUS.SLEEP 0) 3 (by decide)).trans ?_, State.rd_wr_self _ 3 (by decide)⟩
  exact (State.rd_wr_apart _ _ (by decide)).trans (State.rd_wr_self s 0 (by decide))

theorem alarm_shown {s : State} {e : Nat} (hon : s.pwr.mainOn = true) (harmed : s.bit PWR_WAKE_EN.ALARM = true)
    (hdue : s.rd CLK_ALARM_HI.A_HI * 2 ^ 32 + s.rd CLK_ALARM_LO.A_LO ≤ (s.moveTo e).tm.e) :
    ∃ t, exec (.alarm e) s = .next t ∧ t.rd PWR_WAKE_EN.ALARM = 0 ∧
      (s.bit PWR_STATUS.SLEEP = true → t.rd PWR_STATUS.SLEEP = 0 ∧ t.rd PWR_STATUS.WAKE_SRC = 3) := by
  have hgo : (s.moveTo e).bit PWR_WAKE_EN.ALARM ∧
      (s.moveTo e).rd CLK_ALARM_HI.A_HI * 2 ^ 32 + (s.moveTo e).rd CLK_ALARM_LO.A_LO ≤ (s.moveTo e).tm.e := by
    rw [moveTo_bit, rd_moveTo, rd_moveTo]
    exact ⟨harmed, hdue⟩
  have hexec : exec (.alarm e) s =
      .next ((((s.moveTo e).clockEvent 14 ((s.moveTo e).freeVal 1 % 256) 0).used.alarmed).wr PWR_WAKE_EN.ALARM 0) :=
    (next_live hon _).trans (congrArg Host.Outcome.next (if_pos hgo))
  refine ⟨_, hexec, State.rd_wr_self _ 0 (by decide), fun hsleep => ?_⟩
  have hasleep : (((s.moveTo e).clockEvent 14 ((s.moveTo e).freeVal 1 % 256) 0).used).bit PWR_STATUS.SLEEP = true := by
    refine Eq.trans (congrArg (· == 1) ?_) hsleep
    exact (clockEvent_rd _ _ _ _ PWR_STATUS.SLEEP rfl).trans (rd_moveTo s e _)
  rw [State.rd_wr_apart _ _ (by decide), State.rd_wr_apart _ _ (by decide)]
  unfold State.alarmed
  rw [if_pos hasleep]
  exact wake_shown _

theorem elapsedRead_shown {s : State} (ag : Agent) (hon : s.pwr.mainOn = true) :
    ∃ t, exec (.elapsedRead ag) s = .next t ∧ t.out.getLast? = some (.readData ag CLK_ELAPSED_LO.E_LO.base (s.tm.e % 2 ^ 32)) ∧
      t.tm.latE = s.tm.latE.put ag (s.tm.e / 2 ^ 32 % 2 ^ 32) :=
  ⟨_, next_live hon _, List.getLast?_concat, rfl⟩

theorem alignOfsRead_shown {s : State} (ag : Agent) (hon : s.pwr.mainOn = true) :
    ∃ t, exec (.alignOfsRead ag) s = .next t ∧
      t.out.getLast? = some (.readData ag CLK_ALIGN_OFS_LO.O_LO.base (unsg 64 s.tm.o.floor % 2 ^ 32)) ∧
      t.tm.latO = s.tm.latO.put ag (unsg 64 s.tm.o.floor / 2 ^ 32) :=
  ⟨_, next_live hon _, List.getLast?_concat, rfl⟩

end Sys2Proof.Machine
end

section
/-! PROOFS. The sync pulse (17_clocks_power_lifecycle.md R628 to R630): O1. -/
namespace Sys2Proof.Machine
open Reg

/-! ### A missing edge (R629, R630) -/

/-- The third missing edge in a row ends the alignment (R630). -/
def State.unaligned (s : State) (run : Nat) : State := if run = 3 then s.wr SYNC_PPS_STATUS.ALIGNED 0 else s

theorem unaligned_rd (s : State) (run : Nat) {f : Fld} (hf : apart SYNC_PPS_STATUS.ALIGNED f = true) : (s.unaligned run).rd f = s.rd f := by
  unfold State.unaligned
  split
  · exact State.rd_wr_apart s 0 hf
  · rfl

theorem unaligned_clk (s : State) (run : Nat) : (s.unaligned run).clk = s.clk := by
  unfold State.unaligned
  split
  · exact State.wr_clk ..
  · rfl

/-- The time base runs free after a missing edge (R629). -/
def State.freeRun (s : State) : State := { s with clk := { s.clk with slew := 0, slewLeft := none, missRun := s.clk.missRun + 1 } }

/-- The missing edge is counted and recorded (R629, R630). -/
def State.missCounted (s : State) (run : Nat) : State := ((s.inc SYNC_PPS_STATUS.MISSING 1).clockEvent 13 8 run).unaligned run

theorem missCounted_rd (s : State) (run : Nat) {f : Fld} (hf : fr 0x1100100000000200 f = true) (hal : apart SYNC_PPS_STATUS.ALIGNED f = true) :
    (s.missCounted run).rd f = (s.inc SYNC_PPS_STATUS.MISSING 1).rd f := (unaligned_rd _ _ hal).trans (clockEvent_rd _ _ _ _ _ hf)

theorem missCounted_clk (s : State) (run : Nat) : (s.missCounted run).clk = s.clk := by
  unfold State.missCounted
  rw [unaligned_clk, State.clockEvent_clk, State.inc_clk]

theorem ppsMiss_eq (s : State) : s.ppsMiss = (s.freeRun.missCounted (s.clk.missRun + 1)).wr SYNC_SEC.NEXT
    ((s.freeRun.missCounted (s.clk.missRun + 1)).rd SYNC_SEC.NEXT + 1) := rfl

theorem ppsMiss_shown (s : State) : s.ppsMiss.rd SYNC_SEC.NEXT = (s.rd SYNC_SEC.NEXT + 1) % 2 ^ 32 ∧
    s.ppsMiss.rd SYNC_PPS_STATUS.MISSING = min 255 (s.rd SYNC_PPS_STATUS.MISSING + 1) ∧ s.ppsMiss.clk.slew = 0 := by
  have hnext : (s.freeRun.missCounted (s.clk.missRun + 1)).rd SYNC_SEC.NEXT = s.rd SYNC_SEC.NEXT :=
    (missCounted_rd _ _ rfl (by decide)).trans (State.rdi_wri_apart s.freeRun 0 0 _ (by decide))
  have hmissing : (s.freeRun.missCounted (s.clk.missRun + 1)).rd SYNC_PPS_STATUS.MISSING = min 255 (s.rd SYNC_PPS_STATUS.MISSING + 1) :=
    (missCounted_rd _ _ rfl (by decide)).trans (rd_inc_byte s.freeRun rfl (by decide))
  rw [ppsMiss_eq, State.rd_wr_self _ _ (by decide), State.rd_wr_apart _ _ (by decide), State.wr_clk, missCounted_clk, hnext, hmissing]
  exact ⟨rfl, rfl, rfl⟩

theorem ppsMissing_shown {s : State} {e : Nat} (hon : s.pwr.mainOn = true) (hen : s.bit SYNC_CFG.EN = true)
    (hvalid : s.bit SYNC_PPS_STATUS.SEC_VALID = true) (hlate : (s.rd SYNC_SEC.NEXT : Int) * 1000000000 + 500000000 ≤ (s.moveTo e).stime) :
    ∃ t, exec (.ppsMissing e) s = .next t ∧ t.rd SYNC_SEC.NEXT = (s.rd SYNC_SEC.NEXT + 1) % 2 ^ 32 ∧
      t.rd SYNC_PPS_STATUS.MISSING = min 255 (s.rd SYNC_PPS_STATUS.MISSING + 1) ∧ t.clk.slew = 0 := by
  have hgo : (s.moveTo e).bit SYNC_CFG.EN ∧ (s.moveTo e).bit SYNC_PPS_STATUS.SEC_VALID ∧
      ((s.moveTo e).rd SYNC_SEC.NEXT : Int) * 1000000000 + 500000000 ≤ (s.moveTo e).stime := by
    rw [moveTo_bit, moveTo_bit, rd_moveTo]
    exact ⟨hen, hvalid, hlate⟩
  have hmiss := ppsMiss_shown (s.moveTo e)
  rw [rd_moveTo, rd_moveTo] at hmiss
  exact ⟨_, (next_live hon _).trans (congrArg Host.Outcome.next (if_pos hgo)), hmiss⟩

/-! ### An edge at its instant (R628, R629) -/

/-- An edge within the slew window sets the slew to its error, and aligns the time base within 1 µs (R629). -/
def State.edgeNear (s : State) (e : Int) : State :=
  let u : State := ((({ s with clk := { s.clk with
    slew := clampR (-1 / 10000) (1 / 10000) (-(e : Rat) / 1000000000), slewLeft := none, cons := 0 } } : State).wr
    SYNC_PPS_STATUS.SUSPECT 0).wr SYNC_PPS_STATUS.CONS 0)
  if absI e ≤ 1000 then u.wr SYNC_PPS_STATUS.ALIGNED 1 else u

/-- An edge outside the window ends the slew and the alignment, and the third alike in a row leaves a step pending (R629). -/
def State.edgeFar (s : State) (n : Nat) (e : Int) : State :=
  let same := decide (0 < s.clk.cons) && decide (absI ((n : Int) - 10000000) ≤ 1) && decide (absI (e - s.clk.eprev) ≤ 100)
  let cons : Nat := if same then s.clk.cons + 1 else 1
  let u : State := { s with clk := { s.clk with
    slew := 0, slewLeft := none, eprev := e, cons := if cons = 3 then 0 else cons,
    stepPend := if cons = 3 then some e else s.clk.stepPend } }
  (((u.wr SYNC_PPS_STATUS.SUSPECT 1).wr SYNC_PPS_STATUS.CONS (if cons = 3 then 0 else cons)).wr SYNC_PPS_STATUS.ALIGNED 0).clockEvent 11 8 (sat32 e)

/-- The edge is noted with its error (R629). -/
def State.edgeNoted (s : State) (e : Int) : State :=
  ({ s with clk := { s.clk with missRun := 0, lastS := some s.stime } } : State).wr SYNC_PPS_ERR.E (unsg 32 (sat32 e))

/-- An edge with error `e` at the expected second `sec` (R628, R629). -/
def State.edgeTaken (s : State) (n sec : Nat) (e : Int) : State :=
  (if absI e ≤ ((s.rd SYNC_CFG.SLEW_WINDOW : Int) * 1000) then (s.edgeNoted e).edgeNear e else (s.edgeNoted e).edgeFar n e).wr SYNC_SEC.NEXT (sec + 1)

theorem exec_ppsEdge {s : State} {e n : Nat} (hon : s.pwr.mainOn = true) (hen : s.bit SYNC_CFG.EN = true)
    (hvalid : s.bit SYNC_PPS_STATUS.SEC_VALID = true) (hnear : ((s.moveTo e).stime + 500000000) / 1000000000 = (s.rd SYNC_SEC.NEXT : Int)) :
    exec (.ppsEdge e n) s = .next ((s.moveTo e).edgeTaken n (s.rd SYNC_SEC.NEXT)
      ((s.moveTo e).stime - (s.rd SYNC_SEC.NEXT : Int) * 1000000000)) := by
  rw [show exec (.ppsEdge e n) s = _ from next_live hon _]
  dsimp only
  rw [moveTo_bit, hen, moveTo_bit, hvalid, hnear]
  simp only [Bool.not_true, Bool.false_eq_true, if_false, if_true]
  rw [rd_moveTo, Int.sub_self, ← rd_moveTo s e SYNC_SEC.NEXT]
  rfl

theorem edgeNear_shown (s : State) (e : Int) :
    (s.edgeNear e).rd SYNC_PPS_STATUS.SUSPECT = 0 ∧ (absI e ≤ 1000 → (s.edgeNear e).rd SYNC_PPS_STATUS.ALIGNED = 1) := by
  unfold State.edgeNear
  extract_lets clk u
  have hsus : u.rd SYNC_PPS_STATUS.SUSPECT = 0 := (State.rd_wr_apart _ _ (by decide)).trans (State.rd_wr_self _ 0 (by decide))
  refine ⟨?_, fun hle => ?_⟩
  · split
    · exact (State.rd_wr_apart _ _ (by decide)).trans hsus
    · exact hsus
  · rw [if_pos hle]
    exact State.rd_wr_self u 1 (by decide)

theorem edgeFar_shown (s : State) (n : Nat) (e : Int) :
    (s.edgeFar n e).rd SYNC_PPS_STATUS.SUSPECT = 1 ∧ (s.edgeFar n e).rd SYNC_PPS_STATUS.ALIGNED = 0 ∧ (s.edgeFar n e).clk.slew = 0 := by
  unfold State.edgeFar
  extract_lets same cons clk u
  have hslew : u.clk.slew = 0 := rfl
  rw [clockEvent_rd _ _ _ _ _ rfl, clockEvent_rd _ _ _ _ _ rfl, State.clockEvent_clk, State.wr_clk, State.wr_clk, State.wr_clk]
  refine ⟨?_, State.rd_wr_self _ 0 (by decide), hslew⟩
  exact (State.rd_wr_apart _ _ (by decide)).trans ((State.rd_wr_apart _ _ (by decide)).trans (State.rd_wr_self u 1 (by decide)))

theorem ppsEdge_shown {s : State} {e n : Nat} (hon : s.pwr.mainOn = true) (hen : s.bit SYNC_CFG.EN = true)
    (hvalid : s.bit SYNC_PPS_STATUS.SEC_VALID = true) (hnear : ((s.moveTo e).stime + 500000000) / 1000000000 = (s.rd SYNC_SEC.NEXT : Int)) :
    ∃ t, exec (.ppsEdge e n) s = .next t ∧ t.rd SYNC_SEC.NEXT = (s.rd SYNC_SEC.NEXT + 1) % 2 ^ 32 ∧
      (absI ((s.moveTo e).stime - (s.rd SYNC_SEC.NEXT : Int) * 1000000000) ≤ (s.rd SYNC_CFG.SLEW_WINDOW : Int) * 1000 →
        t.rd SYNC_PPS_STATUS.SUSPECT = 0 ∧
        (absI ((s.moveTo e).stime - (s.rd SYNC_SEC.NEXT : Int) * 1000000000) ≤ 1000 → t.rd SYNC_PPS_STATUS.ALIGNED = 1)) ∧
      ((s.rd SYNC_CFG.SLEW_WINDOW : Int) * 1000 < absI ((s.moveTo e).stime - (s.rd SYNC_SEC.NEXT : Int) * 1000000000) →
        t.rd SYNC_PPS_STATUS.SUSPECT = 1 ∧ t.rd SYNC_PPS_STATUS.ALIGNED = 0 ∧ t.clk.slew = 0) := by
  refine ⟨_, exec_ppsEdge hon hen hvalid hnear, ?_⟩
  generalize (s.moveTo e).stime - (s.rd SYNC_SEC.NEXT : Int) * 1000000000 = x
  unfold State.edgeTaken
  rw [rd_moveTo, State.rd_wr_self _ _ (by decide), State.rd_wr_apart _ _ (by decide), State.rd_wr_apart _ _ (by decide), State.wr_clk]
  refine ⟨rfl, fun hin => ?_, fun hout => ?_⟩
  · rw [if_pos hin]
    exact edgeNear_shown _ x
  · rw [if_neg (not_le.mpr hout)]
    exact edgeFar_shown _ n x

/-! ### A step of the time base, and the write of the second (R628, R629) -/

/-- The residue of a step is left to the slew (R629). -/
def State.stepped (s : State) (x k : Int) : State :=
  let r : Int := x - k * (s.period : Int)
  { s.renumber (s.tm.n - k) with
    tm := { (s.renumber (s.tm.n - k)).tm with o := (s.renumber (s.tm.n - k)).tm.o - ((k * (s.period : Int) : Int) : Rat) }
    clk := { (s.renumber (s.tm.n - k)).clk with
      stepPend := none
      slew := if r = 0 then 0 else if r < 0 then 1 / 10000 else -1 / 10000
      slewLeft := if r = 0 then none else some (-(r : Rat)) } }

theorem stepped_tm (s : State) (x k : Int) :
    (s.stepped x k).tm = { s.tm with n := s.tm.n - k, o := s.tm.o - ((k * (s.period : Int) : Int) : Rat) } := by
  unfold State.stepped
  simp only [renumber_tm]

theorem stepped_rd (s : State) (x k : Int) (f : Fld) : (s.stepped x k).rd f = s.rd f :=
  rdi_of_regs (t := s.stepped x k) (s := s) (renumber_regs ..) f 0

/-- The step is counted, the alignment ends and the probe's window is emptied (R629). -/
def State.stepCounted (s : State) (k : Int) : State :=
  (((s.wr SYNC_PPS_STATUS.ALIGNED 0).inc SYNC_PPS_STATUS.STEPS 1).clearProbe).clockEvent 12 8 k

theorem stepCounted_tm (s : State) (k : Int) : (s.stepCounted k).tm = s.tm := by
  have hprobe : ∀ u : State, u.clearProbe.tm = u.tm := fun u => (Only.clearProbe (Only.refl 0xc000000200000 u) rfl).tm rfl
  unfold State.stepCounted
  rw [State.clockEvent_tm, hprobe, State.inc_tm, State.wr_tm]

theorem stepCounted_clk (s : State) (k : Int) : (s.stepCounted k).clk = s.clk := by
  have hprobe : ∀ u : State, u.clearProbe.clk = u.clk := fun u => (Only.clearProbe (Only.refl 0xc000000200000 u) rfl).clk rfl
  unfold State.stepCounted
  rw [State.clockEvent_clk, hprobe, State.inc_clk, State.wr_clk]

theorem stepCounted_shown (s : State) (k : Int) : (s.stepCounted k).rd SYNC_PPS_STATUS.ALIGNED = 0 ∧
    (s.stepCounted k).rd SYNC_PPS_STATUS.STEPS = min 255 (s.rd SYNC_PPS_STATUS.STEPS + 1) := by
  have hprobe : ∀ (u : State) f, fr 0xc000000200000 f = true → u.clearProbe.rd f = u.rd f := fun u f hf =>
    (Only.clearProbe (Only.refl 0xc000000200000 u) rfl).rd f hf
  unfold State.stepCounted
  rw [clockEvent_rd _ _ _ _ _ rfl, clockEvent_rd _ _ _ _ _ rfl, hprobe _ _ (by decide), hprobe _ _ (by decide), rd_inc_byte _ rfl (by decide),
    State.rd_wr_apart _ _ (by decide)]
  exact ⟨(State.rdi_wri_apart _ 0 0 _ (by decide)).trans (State.rd_wr_self s 0 (by decide)), rfl⟩

theorem exec_ppsStep {s : State} {e : Nat} {x : Int} (hon : s.pwr.mainOn = true) (hpend : s.clk.stepPend = some x) (hstop : s.tm.run = false) :
    exec (.ppsStep e) s = .next (((s.moveTo e).stepped x (nearR 84 ((x : Rat) / ((s.moveTo e).period : Rat)))).stepCounted
      (nearR 84 ((x : Rat) / ((s.moveTo e).period : Rat)))) := by
  have hpend' : (s.moveTo e).clk.stepPend = some x := (congrArg ClkSt.stepPend (mclk s e) :).trans hpend
  have hstop' : (s.moveTo e).tm.run = false := by rw [(moveTo_sim s e).1]; exact hstop
  rw [show exec (.ppsStep e) s = _ from next_live hon _]
  dsimp only
  rw [hpend']
  dsimp only
  rw [if_neg (by rw [hstop']; simp)]
  rfl

theorem ppsStep_shown {s : State} {e : Nat} {x : Int} (hon : s.pwr.mainOn = true) (hpend : s.clk.stepPend = some x) (hstop : s.tm.run = false) :
    ∃ t, exec (.ppsStep e) s = .next t ∧ t.clk.stepPend = none ∧ t.rd SYNC_PPS_STATUS.ALIGNED = 0 ∧
      t.rd SYNC_PPS_STATUS.STEPS = min 255 (s.rd SYNC_PPS_STATUS.STEPS + 1) ∧
      ∃ k : Int, t.tm.n = s.tm.n - k ∧ t.tm.o = (s.moveTo e).tm.o - ((k * (s.period : Int) : Int) : Rat) := by
  refine ⟨_, exec_ppsStep hon hpend hstop, ?_⟩
  generalize nearR 84 ((x : Rat) / ((s.moveTo e).period : Rat)) = k
  obtain ⟨haligned, hsteps⟩ := stepCounted_shown ((s.moveTo e).stepped x k) k
  have hn : (s.moveTo e).tm.n = s.tm.n := by rw [(moveTo_sim s e).1]
  rw [stepCounted_clk, stepCounted_tm, stepped_tm, period_moveTo, hsteps, stepped_rd, rd_moveTo, ← hn]
  exact ⟨rfl, haligned, rfl, k, rfl, rfl⟩

theorem syncSecWrite_shown {s : State} (v : Nat) (hon : s.pwr.mainOn = true) :
    ∃ t, exec (.syncSecWrite v) s = .next t ∧ t.rd SYNC_SEC.NEXT = v % 2 ^ 32 ∧ t.rd SYNC_PPS_STATUS.SEC_VALID = 1 :=
  ⟨_, next_live hon _, (State.rd_wr_apart _ _ (by decide)).trans (State.rd_wr_self s v (by decide)), State.rd_wr_self _ 1 (by decide)⟩

/-- Settles O1: each command by the lemma that says what it shows. -/
theorem clockAndSyncCommands : Obligations.ClockAndSyncCommands := by
  unfold Obligations.ClockAndSyncCommands
  exact ⟨fun s dxa dxb dab e hon hvalid => refVoteUpdate_shown hon hvalid,
    fun s i e hon hen => refLost_shown hon hen,
    fun s i e hon hlost hdue => refValid_shown hon hlost hdue,
    fun s i e a hon hout hagree hdue => refReadmit_shown hon hout hagree hdue,
    fun s b e hon hmove => refSelectMove_shown hon hmove,
    fun s c e hon hcalm hcoast hdue => refCoastEnd_shown hon hcalm hcoast hdue,
    fun s vs hon hpend => pllDividerUpdate_shown hon hpend,
    fun s p e hon => pllLockLost_shown p e hon,
    fun s p e hon hcoast hlost hfree => pllLocked_shown hon hcoast hlost hfree,
    fun s p v hon => ⟨clkPllSeedWrite_taken hon, clkPllSeedWrite_refused hon⟩,
    fun s e hon harmed hdue => alarm_shown hon harmed hdue,
    fun s ag hon => ⟨elapsedRead_shown ag hon, alignOfsRead_shown ag hon⟩,
    fun s e n hon hen hvalid hnear => ppsEdge_shown hon hen hvalid hnear,
    fun s e hon hen hvalid hlate => ppsMissing_shown hon hen hvalid hlate,
    fun s e x hon hpend hstop => ppsStep_shown hon hpend hstop,
    fun s v hon => syncSecWrite_shown v hon⟩

end Sys2Proof.Machine
end
